-- ==== Sys2Proof/Word.lean ====
section
/-! DEFINITION. The plain data types every file uses: bytes, words, sparse tables and the time stamp of R13. -/

namespace Sys2Proof

abbrev Byte := BitVec 8

abbrev Word16 := BitVec 16

abbrev Word32 := BitVec 32

abbrev Word64 := BitVec 64

abbrev Bytes := List Byte

/-- A table by number: what is not listed holds the default the reader names. -/
abbrev Tbl (α : Type) := List (Nat × α)

/-- A 96-bit time of R13 (Table 0.4): seconds, nanoseconds and the fraction in 2^-16 ns. -/
structure Stamp where
  sec  : Nat := 0
  nsec : Nat := 0
  frac : Nat := 0
  deriving DecidableEq, Repr

end Sys2Proof
end

