-- ==== Sys2Proof/Syntax.lean ====
section
/-! DEFINITION. The commands of the block: one constructor of `Instr` for each row of spec/opcode_table.json, and the
operands they carry. A mailbox command carries its fetched entry; an event carries what comes from outside the block
with it (a level, an instant, a received word). -/

namespace Sys2Proof

/-- A mailbox command as fetched (Table 4.7): the mailbox, the TAG and SEQ it echoes, FLAGS, LENGTH, the 48 bytes of
PARAM, the reserved bytes 56 to 59 and, where EXT is set, the external parameter block that was read. -/
structure Cmd where
  mb     : Fin 8
  tag    : Word16
  seq    : Byte
  flags  : Byte
  length : Nat
  param  : Bytes
  rsvd   : Word32
  block  : Bytes
  deriving DecidableEq, Repr

/-- A 34-bit word of DTX as it comes out of the descrambler (R134): control or data by its sync header, and its body. -/
structure LineWord where
  ctl  : Bool
  body : Word32
  deriving DecidableEq, Repr

/-- A burst as its UI come in (Table 6.10): the eight delimiter bits and the 64 payload bits, scrambled. -/
structure BurstBits where
  delim   : Byte
  payload : Word64
  deriving DecidableEq, Repr

/-- What the LNK found in a ranging search (R153): the burst, and its start less B_j + 16 ns in 2.5 ps units. -/
structure RangeReply where
  r    : Int
  bits : BurstBits
  deriving DecidableEq, Repr

/-- What the LNK found in an upstream slot (R150): the burst, and the phase error e of its delimiter in 2.5 ps units. -/
structure BurstIn where
  e    : Int
  bits : BurstBits
  deriving DecidableEq, Repr

/-- What a cell controller detects in its own sub-module (Table 7.5, R178). -/
inductive CellFault where
  | overVoltage (on : Bool) | supply (on : Bool) | hot (on : Bool) | desat | gate | cleared
  deriving DecidableEq, Repr

/-- One travelling-wave input at sample n: its raw codes, newest first, and how many of them lie in the present ARMED
period (R374). -/
structure TwStream where
  raw   : List Int
  armed : Nat
  deriving DecidableEq, Repr

/-- One ASDU of a sampled-value frame: smpCnt, smpSynch, and the INT32 values with their 32-bit qualities (Table 17.2). -/
structure AsduIn where
  cnt  : Nat
  sync : Nat
  vals : List (Int × Nat)
  deriving DecidableEq, Repr

/-- A sampled-value frame as its port received it: whether length and FCS are good, and its fields. -/
structure SvFrame where
  good    : Bool
  dmac    : Nat
  appid   : Nat
  svid    : Bytes
  confRev : Nat
  asdus   : List AsduIn
  deriving DecidableEq, Repr

/-- A member of a GOOSE dataset: BOOLEAN, INT32, FLOAT32 as its exact value num / den, Quality, or an OCTET STRING. -/
inductive GMember where
  | boolean (b : Bool) | int (x : Int) | float (num : Int) (den : Nat) | quality (q : Nat) | octets (p : Bytes) | other
  deriving DecidableEq, Repr

/-- A GOOSE frame as its port received it; `names` is gocbRef, datSet and goID, zero-padded to 64 bytes each. -/
structure GooseFrame where
  good    : Bool
  dmac    : Nat
  appid   : Nat
  names   : Bytes
  confRev : Nat
  ndsCom  : Bool
  test    : Bool
  stNum   : Nat
  sqNum   : Nat
  data    : List GMember
  deriving DecidableEq, Repr

/-- A PTP message as a port received it (R429): an Announce with its domain, whether the best master clock algorithm places
it above this clock, and its clock identity; or a Pdelay request. -/
inductive PtpIn where
  | announce (domain : Nat) (better : Bool) (identity : Word64) | pdelayReq
  deriving DecidableEq, Repr

/-- The decision record of a TICK message (R525): whole-cell state changes as CID and STATE code; per arm its designated
cell, base inserted, base negative, carry; per loop channel its written-back history value and mode code. -/
structure XlRecord where
  cells : List (Nat × Nat)
  desig : List (Nat × Nat × Bool × Bool × Int)
  loops : List (Nat × Int × Nat)
  deriving DecidableEq, Repr

/-- A TICK message of the cross-link (Table 20.2): tick index, role and device-state codes, digests by domain. -/
structure XlTick where
  index   : Nat
  role    : Nat
  state   : Nat
  digests : List (Nat × Nat)
  record  : XlRecord
  deriving DecidableEq, Repr

/-- One channel of a measurement set as MSET carries it (R343, R526). -/
structure XlChan where
  ch     : Nat
  fine   : Int
  coarse : Int
  flags  : Byte
  age    : Nat
  deriving DecidableEq, Repr

/-- How a SRAM self-test and MRAM scan end: dies that failed, and whether both copies of the inventory fail their CRC (R76, R578). -/
structure SelfTest where
  failed    : List Nat
  inventory : Bool
  deriving DecidableEq, Repr

/-- A port that fails with its die's spare in use, and whether it can still transmit (R168). -/
structure PortLoss where
  port  : Nat
  sends : Bool
  deriving DecidableEq, Repr

/-- What an interface of a cell received: the words of DTX, and the DCLK cycle at which the last of them was in. -/
structure LineRx where
  line  : List LineWord
  cycle : Nat
  deriving DecidableEq, Repr

/-- A cell and a DCLK cycle. -/
structure CellAt where
  cid   : Nat
  cycle : Nat
  deriving DecidableEq, Repr

/-- The flow of the item that is released, and the CORE cycle of the release: that of the next input crossing, that of the next tick
boundary, or another one. -/
structure FlowAt where
  flow  : Nat
  cycle : Nat
  deriving DecidableEq, Repr

/-- An injected trigger of a unit, and whether the crossing's handshake before is still open. -/
structure InjTrigger where
  unit : Nat
  busy : Bool
  deriving DecidableEq, Repr

/-- When a sampled-value frame came in, in µs of converter tick time, and whether the handshakes of its ASDUs stand open at the next input
crossing. -/
structure SvAt where
  now    : Nat
  behind : Bool
  deriving DecidableEq, Repr

/-- How a main-path cycle went: longer than 20 µs; a self-test of the safety core failed. -/
structure PathCycle where
  excess : Bool
  failed : Bool
  deriving DecidableEq, Repr

/-- A TICK message and its arrival, in ns after the last boundary. -/
structure XlTickIn where
  msg : XlTick
  ns  : Nat
  deriving DecidableEq, Repr

/-- What a standby aligns to: the active's tick index, and its cell-link time and station time plus D_x, in 2^-32 ns. -/
structure XlAlign where
  index   : Nat
  link    : Nat
  station : Nat
  deriving DecidableEq, Repr

/-- The commands of the block. -/
inductive Instr where
  /-- Command that returns the capability descriptor inline and optionally writes the 256-byte descriptor to a host buffer. R609. -/
  | sysCaps (c : Cmd)
  /-- Command that returns the device state, role, previous state, last cause and tick of the last transition. R110. -/
  | sysStateGet (c : Cmd)
  /-- Command that requests STANDBY, DEBLOCKED or CONFIG, checks the preconditions and answers PENDING until the target state is reached. R111. -/
  | sysStateRequest (c : Cmd)
  /-- Command that leaves BLOCKED_FAULT for STANDBY or CONFIG unless a trip input, fatal cause or safety latch remains. R112. -/
  | sysBlockClear (c : Cmd)
  /-- Command that writes its OK response and then requests a warm or cold reset. R113. -/
  | sysReset (c : Cmd)
  /-- Command that copies command log entries to a host buffer. R110. -/
  | sysLogRead (c : Cmd)
  /-- Command that echoes its parameters. R110. -/
  | sysNop (c : Cmd)
  /-- Command that moves the device from CONFIG to FACTORY_TEST when FTEST was latched high. R104. -/
  | testEnter (c : Cmd)
  /-- Command that accepts a new tick length, holds the tick length and applies it at the next suitable 4 µs boundary. R128. -/
  | tickConfig (c : Cmd)
  /-- Command that arms a commit of the shadow sets in its mask for boundary b, or refuses a boundary below c + L. R124. -/
  | tickCommit (c : Cmd)
  /-- Command that returns the tick index, staged and armed masks and copies tick snapshots to a buffer. R129. -/
  | tickStatus (c : Cmd)
  /-- Command that starts bring-up of a DOWN port or wakes a sleeping port and stays PENDING until IN_SERVICE. R170. -/
  | cellPortUp (c : Cmd)
  /-- Command that takes a port down or puts it into a sleep state. R170. -/
  | cellPortDown (c : Cmd)
  /-- Command that returns port ranging figures and writes the per-slot ranging entries to a buffer. R171. -/
  | cellRangeRead (c : Cmd)
  /-- Command that starts a logic or lane remap of a port onto its LNK die's spare port. R170. -/
  | cellPortRemap (c : Cmd)
  /-- Command that checks and loads roster entries for all ports or the ports of a mask. R203. -/
  | cellRosterLoad (c : Cmd)
  /-- Command that writes roster entries in CID order with a CRC to a buffer. R206. -/
  | cellRosterRead (c : Cmd)
  /-- Command that retires, readmits or permanently bypasses a cell at boundary c + L. R204. -/
  | cellHealthSet (c : Cmd)
  /-- Command that writes cell context entries taken at one input crossing to a buffer. R206. -/
  | cellContextRead (c : Cmd)
  /-- Command that writes cell safe states into shadow set bit 7. R205. -/
  | cellSafeStateSet (c : Cmd)
  /-- Command that writes an arm parameter set into shadow set bit 1. R233. -/
  | aieArmConfig (c : Cmd)
  /-- Command that writes an arm's selection parameters into shadow set bit 1 and returns the bucket refill rate. R232. -/
  | aieSelectParams (c : Cmd)
  /-- Command that writes a converter group's derating parameters and returns Δ_x per arm. R233. -/
  | aieDerateConfig (c : Cmd)
  /-- Command that writes the wear entries of an arm's cells to a buffer. R234. -/
  | aieWearRead (c : Cmd)
  /-- Command that returns the status of one arm. R232. -/
  | aieArmStatus (c : Cmd)
  /-- Command that writes an arm PWM generator's parameters into shadow set bit 2. R254. -/
  | pwmArmConfig (c : Cmd)
  /-- Command that writes a direct PWM pair's parameters into shadow set bit 2. R254. -/
  | pwmPairConfig (c : Cmd)
  /-- Command that writes a raw trip comparator's parameters into shadow set bit 2. R254. -/
  | pwmTripConfig (c : Cmd)
  /-- Command that clears named comparator and pair latches unless a source is active or an unnamed latched source remains. R251. -/
  | pwmTripClear (c : Cmd)
  /-- Command that returns status of an arm generator, a pair or the comparators. R255. -/
  | pwmStatus (c : Cmd)
  /-- Command that writes a loop channel's form, selectors and limits into shadow set bit 0. R281. -/
  | loopChannelConfig (c : Cmd)
  /-- Command that writes one region's coefficient set of a channel into shadow set bit 0. R280. -/
  | loopCoeffLoad (c : Cmd)
  /-- Command that writes a channel's 64-entry gain table from an external block. R280. -/
  | loopTableLoad (c : Cmd)
  /-- Command that writes a channel's gain-scheduling regions, variable and thresholds. R280. -/
  | loopScheduleConfig (c : Cmd)
  /-- Command that writes a channel's repetitive controller settings. R280. -/
  | loopRepetitiveConfig (c : Cmd)
  /-- Command that writes a channel's feedback and saturation supervisor settings. R281. -/
  | loopSupervisorConfig (c : Cmd)
  /-- Command that returns loop engine counts and writes channel status entries to a buffer. R282. -/
  | loopStatus (c : Cmd)
  /-- Command that writes a user kernel image into every tile of the named dies and discards staged user bindings. R304. -/
  | tileKernelLoad (c : Cmd)
  /-- Command that writes a binding of a kernel to a flow into shadow set bit 3. R306. -/
  | tileKernelBind (c : Cmd)
  /-- Command that lists the ROM kernels. R311. -/
  | tileRomList (c : Cmd)
  /-- Command that returns tile counts and writes per-tile entries to a buffer. R312. -/
  | tileStatus (c : Cmd)
  /-- Command that writes a dispatcher flow into shadow set bit 4. R334. -/
  | dispFlowConfig (c : Cmd)
  /-- Command that writes a dispatcher class's rank and tile cap. R333. -/
  | dispClassConfig (c : Cmd)
  /-- Command that requests cancellation of not-started items of a flow at the next input crossing. R323. -/
  | dispCancel (c : Cmd)
  /-- Command that returns dispatcher statistics and writes flow, class or tile entries. R335. -/
  | dispStatsRead (c : Cmd)
  /-- Command that writes a measurement channel into shadow set bit 5. R367. -/
  | measChannelConfig (c : Cmd)
  /-- Command that writes a converter unit's regular and injected sequences and cross-check settings. R367. -/
  | measSequenceConfig (c : Cmd)
  /-- Command that writes a channel's filter chain settings. R367. -/
  | measFilterConfig (c : Cmd)
  /-- Command that selects the converter reference and periods, PENDING until the reference settles and units calibrate. R368. -/
  | measRefSelect (c : Cmd)
  /-- Command that calibrates the named converter units, covered where possible. R368. -/
  | measCalibrate (c : Cmd)
  /-- Command that runs a level test of a unit or a path test of a channel. R368. -/
  | measDiagRun (c : Cmd)
  /-- Command that returns measurement status and optionally clears OVERRUN and LATE. R369. -/
  | measStatus (c : Cmd)
  /-- Command that configures a disarmed travelling-wave channel. R388. -/
  | acqChannelConfig (c : Cmd)
  /-- Command that sets a disarmed channel's trigger and segment settings. R388. -/
  | acqTriggerConfig (c : Cmd)
  /-- Command that disarms, arms, arms with clear or reports travelling-wave channels. R388. -/
  | acqArm (c : Cmd)
  /-- Command that writes a segment header and samples to a buffer and optionally releases the slot. R389. -/
  | acqSegmentRead (c : Cmd)
  /-- Command that computes a two-ended fault location and flags it outside the line. R384. -/
  | acqLocate (c : Cmd)
  /-- Command that writes an element instance or measurement point into shadow set bit 6. R416. -/
  | protElementConfig (c : Cmd)
  /-- Command that loads the 64-point user inverse-time curve. R416. -/
  | protCurveLoad (c : Cmd)
  /-- Command that writes a trip output's map. R415. -/
  | protTripMap (c : Cmd)
  /-- Command that clears trip output latches unless a mapped instance is OPERATED. R405. -/
  | protTripReset (c : Cmd)
  /-- Command that writes the disturbance record settings. R416. -/
  | protRecordConfig (c : Cmd)
  /-- Command that exports part of a closed record as COMTRADE or gives a manual record trigger. R411. -/
  | protRecordExport (c : Cmd)
  /-- Command that returns protection status and writes instance, output, record or trip-log entries. R416. -/
  | protStatus (c : Cmd)
  /-- Command that sets or steps station time, or sets TAI−UTC and a leap second. R426. -/
  | timeBaseSet (c : Cmd)
  /-- Command that sets the discipline mode, servo parameters, LINKTRACK and ACCEPT. R439. -/
  | timeDisciplineConfig (c : Cmd)
  /-- Command that configures the PTP instance of a port. R439. -/
  | timePtpConfig (c : Cmd)
  /-- Command that configures a PPS or IRIG-B output. R438. -/
  | timeOutputConfig (c : Cmd)
  /-- Command that configures edge stamping of a TS_IN input. R438. -/
  | timeStampConfig (c : Cmd)
  /-- Command that returns time status and optionally moves queued stamps to a buffer. R439. -/
  | timeStatus (c : Cmd)
  /-- Command that enables and configures an Ethernet port. R463. -/
  | netPortConfig (c : Cmd)
  /-- Command that writes a GOOSE subscription, mapping or publication into shadow set bit 8. R463. -/
  | netGooseConfig (c : Cmd)
  /-- Command that writes a sampled-value stream or mapping into shadow set bit 8. R463. -/
  | netSvConfig (c : Cmd)
  /-- Command that configures a DMA stream to host memory. R463. -/
  | netDmaStreamConfig (c : Cmd)
  /-- Command that returns network status and writes stream and subscription entries. R463. -/
  | netStatus (c : Cmd)
  /-- Command on MB0 that returns the switch configuration, seal state and CRCs and copies the SPB. R490. -/
  | safeConfigRead (c : Cmd)
  /-- Command on MB0 that writes the safety parameter block or confirms the seal and loads the configuration. R468. -/
  | safeSealConfirm (c : Cmd)
  /-- Command on MB0 that sets the ramp generator parameters from the next input crossing. R492. -/
  | safeRampConfig (c : Cmd)
  /-- Command on MB0 that requests SS1 from DEBLOCKED and stays PENDING until the stop's outcome. R472. -/
  | safeStop (c : Cmd)
  /-- Command on MB0 that makes an STO request in any state and role. R477. -/
  | safeTorqueOff (c : Cmd)
  /-- Command on MB0 that clears the STO and Mordant latches when no STO source remains. R491. -/
  | safeReset (c : Cmd)
  /-- Command on MB0 that returns the safety-function status. R490. -/
  | safeStatus (c : Cmd)
  /-- Command that masks or unmasks a block's kinds from the event backlog. R507. -/
  | faultMaskSet (c : Cmd)
  /-- Command that writes the SRAM Colophon or its MRAM copy to a buffer. R516. -/
  | faultColophonRead (c : Cmd)
  /-- Command that returns the Colophon to ARMED with a new trigger mask, optionally clearing the MRAM copy. R506. -/
  | faultColophonRearm (c : Cmd)
  /-- Command that returns FATAL, FATAL_CAUSE, backlog and class counts. R515. -/
  | faultStatus (c : Cmd)
  /-- Command in FACTORY_TEST that enters a message, flips ECC bits or raises a full fatal reaction. R514. -/
  | testFaultInject (c : Cmd)
  /-- Command that runs pair formation with the partner and sets the role from PAIRSEL. R34. -/
  | redPairForm (c : Cmd)
  /-- Command that hands the ACTIVE role to the partner at a boundary, or takes it when the partner is silent. R533. -/
  | redRoleHandover (c : Cmd)
  /-- Command that brings a fenced unit back to STANDBY through the rejoin steps. R534. -/
  | redUnfence (c : Cmd)
  /-- Command that sets the persistence count K and the compared domains. R539. -/
  | redCompareConfig (c : Cmd)
  /-- Command that returns the redundancy status. R538. -/
  | redStatus (c : Cmd)
  /-- Command that sets the recorder layout, taps, triggers and flags. R561. -/
  | recConfig (c : Cmd)
  /-- Command that starts a freeze into a slot. R549. -/
  | recFreeze (c : Cmd)
  /-- Command that reads or releases a freeze slot or reads the decimated ring. R561. -/
  | recFreezeRead (c : Cmd)
  /-- Command that loads and/or replays a freeze slot, PENDING until the replay ends. R553. -/
  | recReplayStart (c : Cmd) (image : Bytes)
  /-- Command that ends a running replay. R556. -/
  | recReplayStop (c : Cmd)
  /-- Command that returns the recorder status. R560. -/
  | recStatus (c : Cmd)
  /-- Command that returns a spare pool's status and writes per-resource entries. R593. -/
  | spareStatus (c : Cmd)
  /-- Command that retires a resource and brings a spare in, or readmits a retired resource. R593. -/
  | spareSwap (c : Cmd)
  /-- Command that sets a health threshold or T_WARN. R593. -/
  | spareThresholdSet (c : Cmd)
  /-- Command that attaches, configures and resets a monitor. R593. -/
  | monAttach (c : Cmd)
  /-- Command that resets the monitors of a mask. R590. -/
  | monReset (c : Cmd)
  /-- Command that writes monitor windows taken at one instant to a buffer. R593. -/
  | monRead (c : Cmd)
  /-- Write of EN = 1 in MBn_CTRL that starts a mailbox serving its rings or sets RING_ERR. R83. -/
  | mbEnable (mb : Fin 8) (value : Word32)
  /-- Write of EN = 0 in MBn_CTRL that stops fetching; ENABLED falls after the last final response. R83. -/
  | mbDisable (mb : Fin 8) (value : Word32)
  /-- Doorbell write that sets the command tail and starts fetching, or sets RING_ERR. R84. -/
  | mbDoorbell (mb : Fin 8) (value : Word32)
  /-- Write of MBn_RSP_HEAD that releases responses or is refused with RING_ERR. R83. -/
  | mbRspHeadWrite (mb : Fin 8) (value : Word32)
  /-- A response held for lack of ring room is written once room appears. R85. -/
  | heldResponseWrite (mb : Fin 8)
  /-- The firmware takes the next command entry by mailbox priority and checks it in the order of Table 4.9. R92. -/
  | commandFetch (entry block : Bytes)
  /-- Read of TBn_TIME_LO that latches the 96-bit time base. R420. -/
  | tbTimeLatchRead (n : Fin 4)
  /-- Write of TBn_INC_HI that applies the increment or is refused with INC_ERR. R420. -/
  | tbIncApply (n : Fin 4) (value : Word32)
  /-- Read of TS_LO that latches the oldest edge stamp and removes it from the queue. R420. -/
  | tsPop
  /-- Write of EVQ_CTRL that enables or disables moving entries into the event window. R504. -/
  | evqEnableWrite (value : Word32)
  /-- Write of EVQ_HEAD that frees event slots or is ignored when out of range. R504. -/
  | evqHeadWrite (value : Word32)
  /-- Read of FATAL_CAUSE_LO that latches the first fatal message. R503. -/
  | fatalCauseRead
  /-- Read of MONm_COUNT_LO that latches the monitor window. R591. -/
  | monWindowRead (mon : Fin 32)
  /-- Write to a BAR0 register without behaviour of its own, including W1C clears. R80. The width counts bits. -/
  | registerWrite (offset : Nat) (width : Nat) (value : Word32)
  /-- The nPOR filter accepts a low pulse: POWER_DOWN, lanes idle, outputs high impedance. R68. -/
  | nporAccept
  /-- nPOR rises and the device enters BOOT with PLLs starting. R76. -/
  | nporRise
  /-- Strap sampling at 10 µs and 20 µs after nPOR, latching agreed values or defaults. R46. -/
  | strapSample (pairsel trefsel ftest : Bool) (unitid : BitVec 4)
  /-- All PLLs except a TIMEREF-referenced TIME PLL are locked. R76. -/
  | bootPllLock
  /-- The management processor starts the ROM firmware. R76. -/
  | bootFirmwareStart
  /-- The TIME PLL locks, the time bases start and station time is set from the holdover counter or marked unset. R76. -/
  | bootTimePllLock
  /-- Package links are up at 5 ms; dies that did not answer are declared failed. R77. -/
  | bootLinksUp (failed : List Nat)
  /-- SRAM self-test with spare-row repair and the MRAM scan complete. R76. -/
  | bootSelftestDone (test : SelfTest)
  /-- Both DDR4 channels are trained, capacity found and repairs applied. R101. -/
  | bootDdrTrained (mibA mibB : Nat)
  /-- PCIe configuration space is ready and mailboxes answer BUSY. R76. -/
  | bootPcieReady
  /-- The capability descriptor is complete, the device enters CONFIG and ALIVE begins toggling. R76. -/
  | bootComplete
  /-- PERSTn resets the PCIe host port only. R75. -/
  | perstnAssert
  /-- A monitored rail stays below range for more than 1 µs and raises a fatal fault. R59. -/
  | railLow (die rail : Nat) (stays : Bool)
  /-- REFCLK is lost and a fatal fault follows within 20 µs. R62. -/
  | refclkLost
  /-- TIMEREF is lost and the TIME PLL moves to REFCLK without a phase step. R62. -/
  | timerefLost
  /-- TIMEREF has stayed in range for 1 s and the TIME PLL moves back. R62. -/
  | timerefReturn
  /-- ETH_REFCLK is lost and all Ethernet ports go down. R62. -/
  | ethRefclkLost
  /-- PCIE_REFCLK is lost and the host port goes down. R62. -/
  | pcieRefclkLost
  /-- The AON crystal stops and the holdover counter is marked invalid. R62. -/
  | xtal32Lost
  /-- A CORE, LINK, MEM or SAMPLE PLL is unlocked for 1 µs, a fatal fault. R508. -/
  | pllUnlock (domain : Nat)
  /-- Junction-temperature reading every 1 ms, with warning and THERMTRIPn thresholds. R586. -/
  | tempSensorRead (die : Nat) (quarters : Int)
  /-- Twenty consecutive asserted RSTBTN samples make a press seen. R70. -/
  | rstbtnPressSeen (atBoot : Bool)
  /-- Twenty consecutive released samples end a press, which is classified into a warm or cold reset request. R71. -/
  | rstbtnReleaseSeen (ms : Nat)
  /-- A press reaches 30,000 ms and sets the stuck-reset flag. R71. -/
  | rstbtnStuck
  /-- The 1,000th consecutive released sample clears the stuck-reset flag. R72. -/
  | rstbtnStuckClear
  /-- A warm or cold reset request is taken up by state and role, with hand-over, block or stop first. R73. -/
  | resetRequest (cold : Bool) (source : Nat)
  /-- A warm or cold reset starts after any hand-over, block or stop phase, answering PENDING commands with TIMEOUT. R69. -/
  | resetExecute
  /-- The firmware increments DEV_STATUS HEARTBEAT every 1 ms. R81. -/
  | heartbeatIncrement
  /-- The fault collector toggles ALIVE every 500 µs while the device has reached CONFIG and FATAL is 0. R510. -/
  | aliveToggle
  /-- The AON domain pulses TAMPER_OUT once per second and samples TAMPER_IN, latching tamper after two open samples. R65. -/
  | tamperPulse (level : Bool)
  /-- The AON supply falls below 1.8 V and every AON fact is lost. R66. -/
  | aonPowerLoss
  /-- The holdover counter is loaded at each whole second of set station time. R427. -/
  | holdoverLoad (sec : Nat)
  /-- A tick boundary opens a tick; committed sets activate and the snapshot of the previous tick is written. R116. -/
  | tickBoundary
  /-- Tick-aligned input crossing where reports, measurement set, network values and tile results enter the control plane. R119. -/
  | inputCrossing
  /-- Output crossing where command words go to the LNK dies and downstream frames start. R118. -/
  | outputCrossing (late : BitVec 12) (aieEnd : Nat)
  /-- At boundary b the shadow sets of an armed commit move to active together, or none move on a CRC mismatch. R124. -/
  | commitApply (good : BitVec 9)
  /-- At 10 µs before b without a matching partner commit, a paired unit withdraws its commit. R126. -/
  | commitWithdraw
  /-- The accepted tick length takes effect at the next 4 µs-aligned boundary and the index is rescaled. R128. -/
  | tickLengthChange
  /-- A device-state transition takes effect at its boundary, logged with its cause. R105. -/
  | deviceStateTransition
  /-- The device enters DEBLOCKED at the boundary named by SYS_STATE_REQUEST. R111. -/
  | deblockEnter
  /-- H_t evaluations pass in HOLD without good feedback and the channel enters its fallback. R274. -/
  | loopHoldExpiry (lch : Nat)
  /-- The saturation count reaches SAT_TIME, raising LOOP_SAT_LONG and optionally the fallback. R275. -/
  | loopSatTimeReached (lch : Nat)
  /-- Feedback good in 64 consecutive evaluations returns a fallback channel with AUTO_RESUME to RUN. R271. -/
  | loopAutoResume (lch : Nat)
  /-- A clamp window of W_m ticks ends and d_clamp rises when more than Q_c ticks were clamped. R226. -/
  | aieClampWindowEnd (arm : Nat)
  /-- Sixty-four ticks in MISMATCH without a declaration flag UNRESOLVED. R222. -/
  | aieUnresolved (arm : Nat)
  /-- A new designated cell is chosen at the rotation interval. R214. -/
  | designatedCellRotate (arm : Nat)
  /-- Every 1,024 ticks mean wear, credits and penalties are recomputed per arm. R217. -/
  | wearPenaltyRecompute
  /-- Every 600 s the cells' wear records are saved to MRAM. R217. -/
  | wearSave
  /-- An arm overruns in three consecutive ticks and a controlled block is requested. R121. -/
  | armOverrunLimit (arm : Nat)
  /-- A BLOCK request reaching a LNK die abandons the stream and sends four BLOCK copies. R146. -/
  | blockRequestSend (cause : Byte)
  /-- A SAFE request reaching a LNK die sends four SAFE copies, replacing BLOCK copies. R146. -/
  | safeRequestSend (cause : Byte)
  /-- The LNK sends TIME_SET at a boundary on entry to RANGING, after a wake, every 1,024 ticks or on drift. R147. -/
  | timeSetSend (port : Nat)
  /-- After 200 µs of STARTING the port enters RANGING at the next boundary. R163. -/
  | portStartingDone (port : Nat)
  /-- A ranging search ends and the measurement is judged. R153. -/
  | rangeMeasurementJudge (port : Nat) (reply : Option RangeReply)
  /-- Every rostered cell ranged and the last values sent, the port enters VERIFY with QUIET 0. R162. -/
  | portVerifyEnter (port : Nat)
  /-- Verification ends by bursts or 1,024 ticks and the port enters IN_SERVICE. R162. -/
  | portInService (port : Nat)
  /-- A burst in a slot is checked, its phase error measured and a valid report written to the context. R150. -/
  | upstreamBurstReceive (port slot : Nat) (burst : BurstIn)
  /-- Eight consecutive discarded bursts mark a cell for re-ranging. R158. -/
  | rerangingMark (cid : Nat)
  /-- Every 1 s the DTX launch instants and cell-link time copies are calibrated. R159. -/
  | launchCalibration
  /-- The wake checks complete and the port returns to IN_SERVICE. R165. -/
  | wakingComplete (port : Nat)
  /-- After 16 ticks of shadowing the spare port takes over the lanes at an output crossing. R166. -/
  | sparePortTakeover (port : Nat)
  /-- A port fails with its die's spare in use, sends four BYPASS frames and goes LOST. R168. -/
  | portLost (loss : PortLoss)
  /-- A readmitted cell not IN_USE 1,024 ticks after REJOIN becomes FAILED. R200. -/
  | rejoinTimeout (cid : Nat)
  /-- Sixteen reports with a wrong SAFE_SEL raise an event and requeue SAFE_STATE_SET. R201. -/
  | safeSelRequeue (cid : Nat)
  /-- An uncorrectable context error marks two cells for re-ranging and restores their roster entries. R194. -/
  | contextEccError (port : Nat) (entry : Nat) (double : Bool)
  /-- A cell controller gains or loses word lock on an interface, by the words that arrive on it. R135. -/
  | cellWordLock (cid : Nat) (onB : Bool) (line : List (BitVec 34))
  /-- A cell controller takes one valid frame for a tick and applies its command, flag and management words. R180. -/
  | cellFrameTake (cid : Nat) (onB : Bool) (rx : LineRx)
  /-- At the deadline with no active frame the cell takes the first valid frame of any interface. R180. -/
  | cellFrameDeadline (cell : CellAt)
  /-- A cell accepts a BLOCK message, turns all switches off and starts its block hold. R146. -/
  | cellBlockAccept (cid : Nat) (onB : Bool) (rx : LineRx)
  /-- A cell accepts a SAFE message and goes to its configured safe state. R146. -/
  | cellSafeAccept (cid : Nat) (onB : Bool) (rx : LineRx)
  /-- A cell adopts a TIME_SET on its interface. R147. -/
  | cellTimeSetAccept (cid : Nat) (onB : Bool) (rx : LineRx) (elapsed : Nat)
  /-- A cell accepts a SLEEP message and suspends its watchdog. R165. -/
  | cellSleepAccept (cid : Nat) (onB : Bool) (before line : List LineWord)
  /-- The 16 µs block hold of a cell ends. R182. -/
  | cellBlockHoldEnd (cell : CellAt)
  /-- Three boundaries without a taken frame put the cell in SAFE. R188. -/
  | cellWatchdogExpiry (cid : Nat)
  /-- A cell loses DCLK or word lock on an interface, entering SAFE when all are lost. R189. -/
  | cellLinkLoss (cid : Nat) (onB : Bool)
  /-- A cell executes a commanded edge at its instant. R184. -/
  | cellEdgeExecute (cid : Nat)
  /-- A cell latches its capacitor voltage 200 ns before the boundary. R183. -/
  | cellSampleLatch (cid : Nat) (vcap : Word16) (temp : Byte) (aux : BitVec 11)
  /-- A cell launches its upstream burst in its slot. R151. -/
  | cellBurstLaunch (cid : Nat) (onB : Bool)
  /-- A cell's over-voltage, desaturation or gate fault puts it in FAULT. R178. -/
  | cellFaultDetect (cid : Nat) (fault : CellFault)
  /-- A cell closes its permanent bypass on PERM_BYPASS or its own condition. R178. -/
  | cellPermBypass (cid : Nat)
  /-- A direct pair's counter reaches 0 with a reload strobe and ZERO occurrence. R241. -/
  | pairCounterZero (pair offset : Nat)
  /-- A direct pair's counter reaches P with its occurrence and optional reload. R241. -/
  | pairCounterPeriod (pair offset : Nat)
  /-- Output A's demand turns on or off at the compare value. R242. -/
  | pairCompareMatch (pair offset : Nat) (up : Bool)
  /-- A loop or duty-port value reaches a pair's holding register with its tag. R243. -/
  | pairDutyArrival (pair : Nat)
  /-- SWNn reads the awaited level during a dead time. R244. -/
  | pairCommutationSensed (pair : Nat) (high : Bool) (ns : Nat)
  /-- The dead time DT ends and the other output turns on if its demand holds. R244. -/
  | pairDeadtimeEnd (pair : Nat)
  /-- A raw trip comparator becomes active, sets its latches and may start block frames. R248. -/
  | comparatorActive (cmp : Nat)
  /-- A comparator input returns past threshold and hysteresis. R248. -/
  | comparatorInactive (cmp : Nat)
  /-- Tile instruction doing nothing. R294. -/
  | opNop (die tile : Nat) (word : Word32)
  /-- Tile instruction ending the work item and handing its port buffer to the dispatcher. R300. -/
  | opEnd (die tile : Nat) (word : Word32)
  /-- Tile instruction repeating the next instructions from the repeat buffer. R297. -/
  | opRep (die tile : Nat) (word : Word32)
  /-- Tile instruction branching when its condition holds. R295. -/
  | opBr (die tile : Nat) (word : Word32)
  /-- Tile instruction adding two registers with wrap. R290. -/
  | opAdd (die tile : Nat) (word : Word32)
  /-- Tile instruction subtracting with wrap. R290. -/
  | opSub (die tile : Nat) (word : Word32)
  /-- Tile instruction adding with saturation. R290. -/
  | opAdds (die tile : Nat) (word : Word32)
  /-- Tile instruction subtracting with saturation. R290. -/
  | opSubs (die tile : Nat) (word : Word32)
  /-- Tile instruction bitwise and. R294. -/
  | opAnd (die tile : Nat) (word : Word32)
  /-- Tile instruction bitwise or. R294. -/
  | opOr (die tile : Nat) (word : Word32)
  /-- Tile instruction bitwise exclusive or. R294. -/
  | opXor (die tile : Nat) (word : Word32)
  /-- Tile instruction taking the minimum. R294. -/
  | opMin (die tile : Nat) (word : Word32)
  /-- Tile instruction taking the maximum. R294. -/
  | opMax (die tile : Nat) (word : Word32)
  /-- Tile instruction taking the saturating magnitude. R290. -/
  | opAbs (die tile : Nat) (word : Word32)
  /-- Tile instruction negating with saturation. R290. -/
  | opNeg (die tile : Nat) (word : Word32)
  /-- Tile instruction shifting left with saturation. R290. -/
  | opShl (die tile : Nat) (word : Word32)
  /-- Tile instruction shifting right arithmetically. R290. -/
  | opShr (die tile : Nat) (word : Word32)
  /-- Tile instruction setting flags from a difference. R290. -/
  | opCmp (die tile : Nat) (word : Word32)
  /-- Tile instruction adding an immediate. R294. -/
  | opAddi (die tile : Nat) (word : Word32)
  /-- Tile instruction loading a sign-extended 16-bit immediate. R294. -/
  | opLil (die tile : Nat) (word : Word32)
  /-- Tile instruction loading the high half of a register. R294. -/
  | opLih (die tile : Nat) (word : Word32)
  /-- Tile instruction setting a pointer or modifier from an immediate. R294. -/
  | opMvpi (die tile : Nat) (word : Word32)
  /-- Tile instruction setting a pointer or modifier from a data register. R294. -/
  | opMvpd (die tile : Nat) (word : Word32)
  /-- Tile instruction setting a pointer's circular length. R292. -/
  | opMvc (die tile : Nat) (word : Word32)
  /-- Tile instruction loading a word with pointer addressing. R291. -/
  | opLd (die tile : Nat) (word : Word32)
  /-- Tile instruction storing a word with pointer addressing. R291. -/
  | opSt (die tile : Nat) (word : Word32)
  /-- Tile instruction writing an exact product to an accumulator. R288. -/
  | opMpy (die tile : Nat) (word : Word32)
  /-- Tile instruction adding a product to an accumulator. R288. -/
  | opMac (die tile : Nat) (word : Word32)
  /-- Tile instruction subtracting a product from an accumulator. R288. -/
  | opMsu (die tile : Nat) (word : Word32)
  /-- Tile instruction storing an accumulator with convergent rounding and saturation. R289. -/
  | opSta (die tile : Nat) (word : Word32)
  /-- Tile instruction loading an accumulator from a shifted register. R294. -/
  | opLda (die tile : Nat) (word : Word32)
  /-- Tile instruction moving part of an accumulator to a register. R294. -/
  | opMva (die tile : Nat) (word : Word32)
  /-- Tile instruction multiplying with parallel X and Y loads. R296. -/
  | opMpyxy (die tile : Nat) (word : Word32)
  /-- Tile instruction multiply-accumulate with parallel loads. R296. -/
  | opMacxy (die tile : Nat) (word : Word32)
  /-- Tile instruction multiply-subtract with parallel loads. R296. -/
  | opMsuxy (die tile : Nat) (word : Word32)
  /-- Tile instruction resetting the block exponent. R298. -/
  | opBexr (die tile : Nat) (word : Word32)
  /-- Tile instruction tracking a word's headroom in the block exponent. R298. -/
  | opBexp (die tile : Nat) (word : Word32)
  /-- Tile instruction returning a word's redundant sign bits. R298. -/
  | opExp (die tile : Nat) (word : Word32)
  /-- Tile instruction normalising a word by the block exponent. R298. -/
  | opBshl (die tile : Nat) (word : Word32)
  /-- Tile instruction storing an accumulator with KX6 rounding. R298. -/
  | opStb (die tile : Nat) (word : Word32)
  /-- Tile instruction reading a signal from the view of the item's tick. R299. -/
  | opGets (die tile : Nat) (word : Word32)
  /-- Tile instruction buffering a value for an owned result or duty port. R300. -/
  | opPut (die tile : Nat) (word : Word32)
  /-- A work item reaches its cycle limit before END and is aborted. R307. -/
  | tileCycleLimit (die tile : Nat)
  /-- An ECC error in tile memory is corrected or aborts the item and takes the tile for repair. R307. -/
  | tileMemoryError (die tile mem addr : Nat) (double : Bool)
  /-- A repaired tile's image is rewritten from the SYS copy and it returns to service. R307. -/
  | tileRepairDone (die tile : Nat)
  /-- An idle tile runs its 2,000-cycle known-answer test in turn every 10 s. R580. -/
  | tileKnownAnswerTest (die tile : Nat) (pass : Bool)
  /-- The dispatcher starts the first ready item in its order on the lowest idle tile. R321. -/
  | itemStart (die wait : Nat)
  /-- An item's results are published and forwarded, in SEQ order for ordered flows. R322. -/
  | itemRelease (die : Nat) (item : FlowAt)
  /-- An item not ready T_wait after creation is dropped or made ready partial. R318. -/
  | itemTimeout (die flow seq : Nat)
  /-- A DISP_CANCEL takes effect at the first input crossing after execution. R323. -/
  | dispCancelAct (die : Nat)
  /-- After 1,024 crossings without overload the shed level falls by one. R326. -/
  | shedLevelFall (die : Nat)
  /-- A result port without publication for AGE crossings becomes invalid. R328. -/
  | portAgeExpiry (die port : Nat)
  /-- A converter conversion completes and its sample feeds the channel's filter paths. R337. -/
  | adcConversionComplete (unit : Nat) (code : Int) (at_ : Nat)
  /-- An injected trigger is taken or made pending, and the injected sequence runs. R341. -/
  | injectedTrigger (trig : InjTrigger)
  /-- At the sample instant the MPR latches the measurement set and runs cross-checks. R343. -/
  | measurementSetLatch (at_ : Nat)
  /-- Every 1 µs the reference is checked and REF_SETTLED rises or falls. R351. -/
  | refMonitorCheck (inSettle inHold : Bool)
  /-- A unit's calibration ends with new corrections and a pass or failure. R352. -/
  | calibrationComplete (unit : Nat) (offset gain : Int)
  /-- A unit's turn in the automatic calibration period starts a calibration. R355. -/
  | autoCalibration
  /-- A level test of a unit ends with pass or failure. R357. -/
  | levelTestComplete (m1 m3 : Int)
  /-- The diagnostic period starts a level test on the next unit. R359. -/
  | autoLevelTest
  /-- A path test of a channel ends with its D judged. R358. -/
  | pathTestComplete (m1 m3 : Int)
  /-- A converter unit fails its checks and the spare takes over or the unit is removed. R362. -/
  | unitFail (unit cause : Nat)
  /-- A travelling-wave trigger is decided, stamped and signalled to the group and protection. R374. -/
  | twTrigger (t1 : Int) (streams : List TwStream) (comparators : List Nat)
  /-- No trigger within TO in AUTO mode forces a trigger. R379. -/
  | twAutoTimeout (ch : Fin 4) (t : Int) (written : Nat)
  /-- The last post-trigger sample is written and the segment closes and rearms. R378. -/
  | twSegmentClose (ch : Fin 4) (raw : List Int)
  /-- At each 125 µs slow cycle quantities are derived and non-fast instances evaluated. R397. -/
  | protSlowCycle (k : Nat) (tcs : Word16) (dram : Bool)
  /-- At each 1 µs fast cycle FAST instances are evaluated. R397. -/
  | protFastCycle (k : Nat)
  /-- A travelling-wave trigger signal arrives at a travelling-wave element. R406. -/
  | twElementTrigger
  /-- A trip output's minimum-pulse timer runs out. R402. -/
  | tripTminExpiry (out : Fin 16)
  /-- TCSn reads low or high for TTCS and COIL_FAIL starts or ends. R404. -/
  | coilSupervisionExpiry (out : Fin 16) (level : Bool)
  /-- A disturbance record's post-trigger time or MAXLEN ends and it closes. R409. -/
  | protRecordClose
  /-- A PPS_IN edge is stamped against station time. R422. -/
  | ppsInEdge (rising : Bool) (dt : Nat)
  /-- Ten ms after a PPS edge the servo accepts, discards or steps on the offset. R423. -/
  | disciplineDecision
  /-- No PPS_IN edge for 1.5 s drops PPS_OK and freezes the increment. R425. -/
  | ppsLoss
  /-- Every 1 ms the link tracker writes the cell-link increment. R418. -/
  | linkTrackUpdate (dclk : Nat)
  /-- Once per second station time's error bound and quality are recomputed. R421. -/
  | errorBoundUpdate
  /-- At the named TAI second TAI−UTC changes. R428. -/
  | leapSecond
  /-- A PPS output pulse begins at its station-time instant. R430. -/
  | ppsOutPulse (out : Fin 4) (k : Nat)
  /-- A PPS output pulse ends after WIDTH. R430. -/
  | ppsOutPulseEnd (out : Fin 4)
  /-- An IRIG-B frame starts on the whole second. R431. -/
  | irigbFrame (sec : Nat)
  /-- An edge on a TS_IN input is stamped after its filter and queued. R432. -/
  | tsInEdge (input : Fin 32) (rising : Bool) (dt : Nat) (held : Bool)
  /-- A master PTP instance sends Sync and Announce at its intervals. R429. -/
  | ptpSyncSend (port : Fin 4)
  /-- A received Announce or Pdelay message is handled, possibly moving the instance to PASSIVE. R429. -/
  | ptpMessageReceive (port : Fin 4) (msg : PtpIn)
  /-- A better master's Announce stops for announceReceiptTimeout and the instance returns to MASTER. R429. -/
  | ptpAnnounceTimeout (port : Fin 4)
  /-- An Ethernet port goes up or down. R442. -/
  | ethLinkChange (port : Fin 4) (up : Bool)
  /-- A sampled-value frame is checked, deduplicated across ports and its ASDUs accepted. R446. -/
  | svFrameReceive (port : Fin 4) (frame : SvFrame) (time : SvAt)
  /-- A stream delivers no sample for MISS periods and its mappings go invalid. R446. -/
  | svStreamMiss (stream : Fin 16)
  /-- A GOOSE frame is matched to a subscription and accepted or discarded. R449. -/
  | gooseFrameReceive (port : Fin 4) (frame : GooseFrame) (now : Nat)
  /-- A subscription's timeAllowedToLive runs out and it goes stale. R450. -/
  | gooseStale (sub : Fin 64)
  /-- Every 125 µs publications are sampled and a change sends a new stNum. R452. -/
  | goosePublishSample
  /-- A publication is retransmitted at its retransmission interval. R452. -/
  | gooseRetransmit (pub : Fin 16)
  /-- Matching safe copies from ports 0 and 1 are delivered to the safety core. R454. -/
  | safeMessageDeliver (conn : Fin 16)
  /-- A safe copy without its partner within SWIN is discarded. R454. -/
  | safeCopyWindowExpiry (conn : Fin 16)
  /-- A frame not of the port's role is discarded and counted. R440. -/
  | foreignFrameReceive (port : Fin 4)
  /-- A DMA stream record and its tail SEQ are written to host memory. R457. -/
  | dmaRecordWrite (stream : Fin 16)
  /-- A record not accepted within 50 µs is dropped and counted. R458. -/
  | dmaRecordDrop (stream : Fin 16)
  /-- Every 1 ms the seal switches are read and a new SWCFG accepted, changing the seal state. R464. -/
  | sealSwitchRead (value : Byte)
  /-- The safety core's 250 µs cycle evaluates requests, envelope, stop and load angle and toggles the heartbeat. R481. -/
  | mainPathCycle (run : PathCycle)
  /-- Mordant's 10 µs check of its envelope, T_MAX and STO input. R482. -/
  | mordantCheck
  /-- No heartbeat for 750 µs makes Mordant block and raise SAFE_CORE_LOST. R483. -/
  | mordantHeartbeatLoss
  /-- No toggle within 500 ms of an announced warm reset ends the heartbeat suspension. R483. -/
  | mordantSuspendExpiry
  /-- A send connection sends its PDU every PERIOD or on a change of STAT. R485. -/
  | safeMessageSend (conn : Fin 16)
  /-- A receive connection's watchdog runs out and its reaction applies. R486. -/
  | safeRxWatchdogExpiry (conn : Fin 16)
  /-- A fault message enters the collector, gets its SEQ and enters backlog and Colophon. R498. -/
  | faultMessageArrive
  /-- A fatal fault brings pairs off, FATAL, ALIVE stop, SAFE messages and BLOCKED_FAULT. R509. -/
  | fatalFault (die block kind addr : Nat)
  /-- The oldest backlog entry is moved into a free event slot and EVQ_TAIL advances. R504. -/
  | evqEntryMove
  /-- The Colophon freezes at 64 places or 1 s after the first error and is written to MRAM. R506. -/
  | colophonFreeze
  /-- Each whole second of a give-way episode raises an interim event. R512. -/
  | giveWayInterim
  /-- The cross-link lanes gain lock and alignment, or fail after 10 ms. R518. -/
  | xlinkBringupDone (locked : Bool) (order : List Nat) (inverted : BitVec 4) (pairsel : Bool) (variant : Nat)
  /-- A cross-link lane is out of lock for 1 µs. R518. -/
  | xlinkDown (lane : Fin 4)
  /-- A partner TICK message arrives; digests are compared and the decision record installed. R524. -/
  | xlTickReceive (tick : XlTickIn)
  /-- The active's measurement set arrives at the standby. R526. -/
  | xlMsetReceive (tick : Nat) (set : List XlChan)
  /-- A partner's armed commit arrives for matching. R126. -/
  | xlCommitReceive (boundary : Nat) (mask : BitVec 9) (crc : Word32)
  /-- A partner's state transition arrives and is mirrored or dropped. R522. -/
  | xlStateReceive (disputed : Bool) (state cause boundary : Nat)
  /-- A partner BLOCK message makes this unit send BLOCK copies. R523. -/
  | xlBlockReceive (cause : Byte)
  /-- A partner's self-check result arrives for the role decision. R529. -/
  | xlCheckReceive (pass : Bool)
  /-- Every 1 ms the active sends a time marker and the standby steers its bases. R520. -/
  | xlTimeMarker (x : Int) (bases : List Nat) (qual : Nat) (bound : Nat)
  /-- A HANDOVER message exchanges the roles at its boundary. R533. -/
  | xlHandoverReceive (boundary : Nat)
  /-- A persistent mismatch takes both units to DISPUTED at the named boundary. R527. -/
  | disputedEnter
  /-- A unit's self-check ends and CHECK is sent. R528. -/
  | selfCheckDone (kat scrub links : Bool)
  /-- A unit decides its role from both check results at a boundary. R529. -/
  | roleDecision
  /-- No partner result within 40 µs of DISPUTED; the unit decides alone. R529. -/
  | checkTimeout
  /-- Sixteen valid TICK messages make the partner back. R531. -/
  | partnerBack
  /-- A standby with a silent partner promotes itself after eight crossings of cell evidence. R532. -/
  | promotion
  /-- After 64 installation ticks the rejoining unit takes STANDBY and comparison starts. R534. -/
  | unfenceInstallDone
  /-- Tap buffer contents drain to DRAM by priority. R544. -/
  | tapBufferDrain
  /-- A tap entry not in DRAM 50 µs after its crossing is lost and a hole marked. R544. -/
  | tapEntryLost (tap : Option Nat) (ports : Word32)
  /-- A freeze's last block is copied and its slot header written. R550. -/
  | freezeComplete (slot : Nat)
  /-- Every DEC-th tick block is written to the decimated ring. R551. -/
  | decimatedWrite
  /-- At boundary r the image is installed and the device enters REPLAY. R554. -/
  | replayEnter
  /-- Replay ends at its stop tick, hole, late input or divergence and the device returns to CONFIG. R556. -/
  | replayEnd (late : Bool)
  /-- A handshake not closed 1 µs after opening marks the crossing stalled. R566. -/
  | cdcStall (die code inst ns : Nat)
  /-- Two hundred fifty-six disagreeing sample pairs raise CDC_UNSTABLE. R567. -/
  | cdcUnstable (die code inst pairs : Nat)
  /-- Every 1,024 ticks one loop lane runs its known-answer test. R581. -/
  | loopLaneKat (die : Nat) (pass : Bool)
  /-- A resource meets a failure condition and a spare is brought in or the resource is lost. R579. -/
  | resourceFail (kind die phys cause : Nat)
  /-- A spare is brought in for a failed resource at its instant. R582. -/
  | spareIn (kind die phys : Nat)
  /-- At the array's idle period a failing row is copied to a spare row. R582. -/
  | sramRowRepair (die block mem row : Nat)
  /-- A sector 2^20 writes ahead swaps with the least-written sector. R583. -/
  | mramWearLevel (high low : Nat)
  /-- A sector unwritten for 5 years of operation is rewritten. R583. -/
  | mramRetentionRewrite (sector : Nat)
  /-- A monitor takes a sample from its point. R590. -/
  | monitorSample (mon : Fin 32) (value : Word32)
  /-- A tile issues a word whose opcode Table 11.6 does not list, and the work item is aborted as a contained fault. R294. -/
  | illegalInstruction (die tile : Nat) (word : Word32)
  /-- A cell controller powers up in UNLOCKED with BLOCK as its pattern and its configured safe state. R177. -/
  | cellPowerUp (cid : Nat) (identity : BitVec 48)
  /-- PERSTn rises, and PCIe link training starts and configuration space is made ready. R76. -/
  | perstnRelease
  /-- The package link of a die in service stays down for 10 µs and raises the fatal fault LINK_DOWN. R508. -/
  | packageLinkDown (link : Nat)
  /-- The host port detects an AER error and raises PCIE_AER, corrected or contained by its kind. R497. -/
  | pcieAerError (correctable : Bool) (status : Word32)
  /-- REF_SETTLED has not risen 10 ms after a change of reference, and MEAS_REF_SELECT ends with TIMEOUT. R368. -/
  | refSelectTimeout
  /-- RED_UNFENCE has not reached role STANDBY 10 s after it started, and it ends with TIMEOUT. R539. -/
  | unfenceTimeout
  /-- The standby locks its link clock and converter tick time base to the partner through XLCLK and aligns its tick index, so pair formation proceeds to the digest comparison and the role setting. R34. -/
  | xlclkLock (digest : Word32) (align : XlAlign)
  /-- The long-running work of a PENDING command ends, such as a kernel image write or a large buffer transfer, and the firmware writes its final response. R93. -/
  | finalResponse (mb : Fin 8)
  deriving DecidableEq, Repr

end Sys2Proof
end

