-- ==== Sys2Proof/Decode.lean ====
section
/-! DEFINITION. Decoding by the table's bits. No row of spec/opcode_table.json gives bits: a command reaches the block as a mailbox
entry, a register access or an event, so no word spells one. -/

namespace Sys2Proof

/-- The command that a word spells by the table's bits: none, for every width. -/
def decodeTableWord (_nbits _w : Nat) : Option Instr := none

end Sys2Proof
end

