-- ==== Sys2Proof/Config.lean ====
section
/-! DEFINITION. What the spec leaves open: free values (opaque, so nothing can be proved of a value of one) and what one
device or one ROM fixes. -/

namespace Sys2Proof

/-- A free value: nothing is known of it. A meaning applies it to the counter `State.freeCtr` (assumption 1). -/
opaque Config.freeValue : Nat → Nat

/-- DEV_ID [7:0], the silicon step of the device (R81). -/
opaque Config.siliconStep : Byte

/-- FW_EDITION [7:0], the build of the ROM (R81). -/
opaque Config.romBuild : Byte

/-- The CRC-32C over the staged shadow sets of a commit (R125, R126): the spec does not lay out the bytes of a set, so
the value is free in the staged writes it covers (assumption 3). -/
opaque Config.setCrc : List (Nat × List Bytes) → Word32

/-- The code of an item whose code the spec does not give, by block * 256 + kind of the event and the number of the case
(assumption 4). -/
opaque Config.openCode : Nat → Nat → Nat

/-- The ROM's constants for its kernels, by word of Y 0x4000 to 0x5FFF (R285): the spec does not list them. -/
opaque Config.romConst : Nat → Word32

/-- The instruction index at which a ROM kernel begins (R309): the spec does not give it. -/
opaque Config.romEntry : Nat → Nat

/-- The factory-set base MAC address (R443); its bits [1:0] are read as zero. -/
opaque Config.factoryMac : BitVec 48

/-- The indices that SEL of a DMA stream names, by KIND 1 or 3 and the value of its 20 bytes (Table 17.8): the spec does not
lay them out. -/
opaque Config.dmaSel : Nat → Nat → List Nat

/-- Frame overhead of a sampled-value frame in bytes, by NASDU and the length of svID (R463): the spec does not give it. -/
opaque Config.svOverhead : Nat → Nat → Nat

/-- The text of a COMTRADE CFG file (R411), by the record's settings and marks: the spec names the standard that lays it
out. -/
opaque Config.comtradeCfg : List Nat → Bytes

/-- The memory index within its block of the ECC-protected word at an address, by die, block and address; none where the block has
no such word there (R514): the spec does not give the addresses. -/
opaque Config.eccWord : Nat → Nat → Nat → Option Nat

/-- The place within its block of the ECC-protected word at an address, by die, block and address (R514): an entry, context or tile as the
reaction of its block needs it; not given either. -/
opaque Config.eccPlace : Nat → Nat → Nat → Nat

/-- Whether a spare row is left for a row, by kind 5 or 6, the place of the row and the rows of that place already replaced (Table
23.1): the spec does not give the arrays and devices fitted. -/
opaque Config.rowLeft : Nat → List Nat → Nat → Bool

/-- Rows of a die's large arrays (kind 5) or of the DRAM devices (kind 6), and their spare rows (Table 23.1): not given either. -/
opaque Config.rowCount : Nat → Nat → Nat × Nat

end Sys2Proof
end

