-- ==== Sys2Proof/Machine/StBase.lean ====
section
/-! DEFINITION. The state of the SYS die's front end: device state and role (chapter 4), mailboxes (chapter 4),
power, straps, boot, reset and the battery domain (chapters 2, 3), the control tick (chapter 5) and the fault
collector (chapter 19). A field's default is its value at reset; its comment names the rule. -/

namespace Sys2Proof.Machine

/-- The four variants of Table 0.1 (R2). -/
inductive Variant where
  | m8 | m5 | m3 | m2
  deriving DecidableEq, Repr

/-- Device states of Table 4.11 (R103), in the order of their codes. -/
inductive DevState where
  | powerDown | boot | config | standby | deblocked | safeStop | blockedFault | replay | factoryTest
  deriving DecidableEq, Repr

/-- Redundancy roles of Table 4.13 (R108), in the order of the codes of Table 4.3. -/
inductive Role where
  | active | standby | fenced | disputed
  deriving DecidableEq, Repr

/-- Status codes of Table 4.15 (R114). -/
inductive Status where
  | ok | pending | badOpcode | badLength | badParam | notFitted | wrongState | sealed | busy | conflict
  | exhausted | jumpRefused | tripActive | crcFail | timeout | roleDenied
  deriving DecidableEq, Repr

/-- Classes of a fault message (R497). -/
inductive FClass where
  | notice | corrected | contained | fatal
  deriving DecidableEq, Repr

/-- The objects a PENDING command can hold (R93), named by the owning chapters. -/
inductive Obj where
  | deviceState                 -- R111
  | tickLength                  -- R128
  | shadowSet (n : Nat)         -- R125
  | port (n : Nat)              -- R170
  | cell (n : Nat)              -- R204
  | kernels (die : Nat)         -- R304
  | flow (n : Nat)              -- R333
  | measUnit (n : Nat)          -- R364
  | reference                   -- R367
  | dac                         -- R367
  | segment (n : Nat)           -- R386
  | record (n : Nat)            -- R414
  | seal                        -- R490
  | pair                        -- R538
  | recorder                    -- R561
  | freeze (n : Nat)            -- R561
  | unitPool (n : Nat)          -- R591
  deriving DecidableEq, Repr

/-! ### Mailboxes -/

/-- One response entry before it is laid out in memory (R88). -/
structure Response where
  mb     : Nat
  opcode : Nat
  tag    : Nat
  seq    : Nat
  status : Status
  final  : Bool
  tick   : Nat
  result : Bytes
  deriving DecidableEq, Repr

/-- A command answered PENDING and not yet final (R93). `legal` is the set of states in which the command with its
parameters is legal (R98), `took` whether it has taken effect, `arg` the object's number, `work` what the end of its own long-running
work gives, `outcome` what its final response will carry once that is decided, `first` says that its one response is still to come: it
completes within 1 ms, so it is in hand and not PENDING. -/
structure PendingCmd where
  mb      : Nat
  opcode  : Nat
  tag     : Nat
  seq     : Nat
  objs    : List Obj
  legal   : List DevState
  took    : Bool
  arg     : Nat
  work    : Option (Status × Bytes)
  outcome : Option (Status × Bytes × Nat)
  first   : Bool := false
  deriving DecidableEq, Repr

/-- One mailbox control block (R82, Tables 4.4 to 4.6). -/
structure MbBlock where
  /-- MBn_CMD_BASE_LO/HI, 64 bits; R82; reset 0. -/
  cmdBase : Word64 := 0
  /-- MBn_RSP_BASE_LO/HI, 64 bits; R82; reset 0. -/
  rspBase : Word64 := 0
  /-- MBn_CTRL, 32 bits: EN [0], IRQ_EN [1], the rest reserved; R82; reset 0. -/
  ctrl    : Word32 := 0
  /-- MBn_CMD_TAIL, 16 bits; R82; reset 0. -/
  cmdTail : Word16 := 0
  /-- MBn_CMD_HEAD, 16 bits; R82; reset 0. -/
  cmdHead : Word16 := 0
  /-- MBn_RSP_TAIL, 16 bits; R82; reset 0. -/
  rspTail : Word16 := 0
  /-- MBn_RSP_HEAD, 16 bits; R82; reset 0. -/
  rspHead : Word16 := 0
  /-- MBn_STATUS.RING_ERR, 1 bit; R82; reset 0. -/
  ringErr : Bool := false
  /-- MBn_STATUS.SEQ_ERR, 1 bit; R82; reset 0. -/
  seqErr  : Bool := false
  /-- MBn_STATUS.ENABLED, 1 bit; R82; reset 0. -/
  enabled : Bool := false
  /-- Responses held for room in the ring (RSP_HELD reads 1 while one is held); R85; reset empty. -/
  held    : List Response := []
  deriving DecidableEq, Repr

/-- A fetched entry that has passed checks 1 and 2 and is about to run, and the tick of its fetch (R92, R94, R95). -/
structure Fetched where
  mb     : Nat
  opcode : Nat
  tag    : Nat
  seq    : Nat
  since  : Nat
  deriving DecidableEq, Repr

/-- An entry of the command log (R100). -/
structure LogEntry where
  seq    : Nat
  tick   : Nat
  opcode : Nat
  b10    : Nat
  b11    : Nat
  mb     : Nat
  state  : Nat
  role   : Nat
  deriving DecidableEq, Repr

structure Mailboxes where
  /-- The control blocks MB0 to MB7; R82; reset all fields 0. -/
  blocks : Tbl MbBlock := []
  /-- Commands answered PENDING and not yet final, oldest first; R93; reset empty. -/
  pend   : List PendingCmd := []
  /-- The command the firmware is executing; R92; reset none. -/
  inHand : Option Fetched := none
  /-- The mailbox of MB1 to MB7 served last; R92; reset DESIGN CHOICE 7. -/
  served : Nat := 7
  /-- MSI-X vectors signalled, newest first; R82, R456; reset empty. -/
  msix   : List Nat := []
  /-- The command log, newest first, at most 1,024 entries; R100; lost on any reset, whose change to BOOT is its first entry. -/
  log    : List LogEntry := []
  /-- The next log sequence number; R100; reset 0 before that entry. -/
  logSeq : Nat := 0
  deriving DecidableEq, Repr

/-! ### Device state, role and latches -/

/-- What stands behind a latched FATAL (Table 19.6): die, block and kind of the source, whether only nPOR clears it,
whether SYS_BLOCK_CLEAR may clear it, whether its condition is still present, and whether TEST_FAULT_INJECT alone raised it. -/
structure FatalSrc where
  die      : Nat
  block    : Nat
  kind     : Nat
  addr     : Nat
  nporOnly : Bool
  clear    : Bool
  present  : Bool
  injected : Bool := false
  deriving DecidableEq, Repr

/-- A trigger of Table 4.12 waiting for its tick boundary: new state and cause code; `boundary` is the boundary named,
or 0 for the next one; `mirror` says that it mirrors the partner's transition (R522). -/
structure Trigger where
  dest       : DevState
  cause    : Nat
  boundary : Nat
  mirror   : Bool := false
  deriving DecidableEq, Repr

structure Dev where
  /-- The variant fitted; R2; fixed at manufacture; reset DESIGN CHOICE M8. -/
  variant   : Variant := .m8
  /-- DEV_STATUS.STATE, 4 bits; R81, R103; reset 1 (BOOT). -/
  state     : DevState := .boot
  /-- The state before the last transition, 4 bits; R110; reset 0 (POWER_DOWN, left by the rise of nPOR). -/
  prev      : DevState := .powerDown
  /-- The cause code of the last transition, 8 bits; R105; reset 0x01. -/
  cause     : Nat := 1
  /-- The tick of the last transition; R110; reset 0. -/
  transTick : Nat := 0
  /-- DEV_STATUS.ROLE, 2 bits; R108; reset 0 (ACTIVE). -/
  role      : Role := .active
  /-- The unit is part of a formed pair; R33, R108; reset 0 (unpaired). -/
  paired    : Bool := false
  /-- DEV_STATUS.FATAL, 1 bit; R81; reset 0. -/
  fatal     : Bool := false
  /-- The fatal sources that hold FATAL; R508; reset empty. -/
  sources   : List FatalSrc := []
  /-- Triggers of Table 4.12 waiting for a boundary; R105; reset empty. -/
  triggers  : List Trigger := []
  /-- Whether CONFIG has been reached since the last nPOR; R510; reset 0. -/
  reached   : Bool := false
  /-- DEV_STATUS.CAPS_VALID, 1 bit; R81; reset 0. -/
  capsValid : Bool := false
  /-- CAPS_DIGEST, 32 bits; R81; reset 0. -/
  capsDigest : Word32 := 0
  /-- Bytes 0 to 251 of the capability descriptor as the firmware last built it; R101; reset empty, built by the end of boot. -/
  caps      : Bytes := []
  /-- DEV_STATUS.HEARTBEAT, 16 bits; R81; reset 0. -/
  heartbeat : Word16 := 0
  /-- DEV_STATUS.ALIVE_RUN, 1 bit; R81, R510; reset 0. -/
  aliveRun  : Bool := false
  /-- Level of the ALIVE ball; R510; reset low. -/
  alive     : Bool := false
  /-- DEV_STATUS.AON_ATTENTION, 1 bit; R81, R78; reset 0. -/
  aonAttention : Bool := false
  deriving DecidableEq, Repr

/-! ### Power, straps, boot, reset, battery domain -/

structure Straps where
  /-- PAIRSEL, TREFSEL, FTEST, 1 bit each, and UNITID, 4 bits; R46. -/
  pairsel : Bool := false
  trefsel : Bool := false
  ftest   : Bool := false
  unitid  : BitVec 4 := 0
  deriving DecidableEq, Repr

/-- A reset request in its hand-over, block or stop phase (R73, R74). -/
structure ResetReq where
  cold   : Bool
  source : Nat
  deriving DecidableEq, Repr

structure Power where
  /-- nPOR accepted and still low; R67, R68; reset 0 (nPOR has just risen). -/
  npor      : Bool := false
  /-- The latched straps; R46, R81 (STRAPS); reset Low, UNITID 0 until sampled (DESIGN CHOICE). -/
  straps    : Straps := {}
  /-- The first strap sample, held until the second; R46; reset none. -/
  strapFirst : Option Straps := none
  /-- STRAPS [7], a strap disagreed at sampling; R46, R81; reset 0. -/
  strapBad  : Bool := false
  /-- Whether the straps have been latched since nPOR rose; R46; reset 0. -/
  strapDone : Bool := false
  /-- Rails of Table 3.1 now below their range, by die * 16 + number; R59; reset empty. -/
  railLow   : List Nat := []
  /-- PLLs locked, by domain of Table 3.5 (0 CORE .. 7 AON); R60, R76; reset all unlocked. -/
  pll       : List Nat := []
  /-- References lost: 0 REFCLK, 1 TIMEREF, 2 ETH_REFCLK, 3 PCIE_REFCLK, 4 the AON crystal; R62; reset empty. -/
  refLost   : List Nat := []
  /-- The TIME PLL stands on REFCLK because TIMEREF was lost; Table 3.7; reset 0. -/
  timeOnRef : Bool := false
  /-- Boot steps of Table 3.11 done: 1 PLLs, 2 firmware, 3 TIME PLL, 4 links, 5 self-test, 6 DDR, 7 PCIe; R76; reset empty. -/
  bootDone  : List Nat := []
  /-- The boot in progress follows a warm reset; R76, R86; reset 0. -/
  warmBoot  : Bool := false
  /-- The boot in progress follows a cold reset; R76; reset 0. -/
  coldBoot  : Bool := false
  /-- Dies declared failed, by number of Table 19.1; R77; reset empty. -/
  dieFailed : List Nat := []
  /-- The SYS die failed its self-test; R77; reset 0. -/
  sysFailed : Bool := false
  /-- Usable DRAM found at boot on channels A and B, in MiB; R101; reset 0. -/
  dramA     : Nat := 0
  dramB     : Nat := 0
  /-- PERSTn low; R75; reset 0. -/
  perst     : Bool := false
  /-- The host port is up; R62, R75; reset 0. -/
  hostUp    : Bool := false
  /-- THERMTRIPn latched low; R41; reset released. -/
  thermtrip : Bool := false
  /-- Last junction temperature of each die, in 0.25 °C; R586; reset DESIGN CHOICE 0. -/
  temps     : Tbl Int := []
  /-- Trip and PWM outputs at high impedance until the firmware first drives them; R50, R68; reset 1. -/
  hiZ       : Bool := true
  /-- RSTBTN has been seen released since boot; R71; reset 0. -/
  btnArmed  : Bool := false
  /-- RSTBTN is seen pressed by a press that counts; R70, R71; reset 0. -/
  btnPress  : Bool := false
  /-- A reset request in its hand-over, block or stop phase; R73; reset none. -/
  resetReq  : Option ResetReq := none
  /-- AON: the AON valid flag; R66; reset kept by nPOR, DESIGN CHOICE 0 (power just applied). -/
  aonValid  : Bool := false
  /-- AON_FLAGS [0], AON power was found lost at this boot; R66, R101; reset 0. -/
  aonLost   : Bool := false
  /-- AON: the last tamper sample read open; R65; reset DESIGN CHOICE 0. -/
  tamperOpen : Bool := false
  /-- AON: the tamper state is latched; R65; reset DESIGN CHOICE 0. -/
  tamper    : Bool := false
  /-- AON: level of TAMPER_OUT; R65; reset low. -/
  tamperOut : Bool := false
  /-- AON: the holdover counter is valid; R62, R66; reset DESIGN CHOICE 0. -/
  holdValid : Bool := false
  /-- AON: the holdover counter, in AON cycles since its base; R427; reset DESIGN CHOICE 0. -/
  holdCount : Nat := 0
  /-- AON: station time at which the holdover counter was last set; R427; reset DESIGN CHOICE 0. -/
  holdBase  : Stamp := {}
  /-- AON: the stuck-reset flag; R71, R72; reset DESIGN CHOICE 0. -/
  stuck     : Bool := false
  deriving DecidableEq, Repr

/-! ### The control tick -/

/-- An armed commit (R124, R126). -/
structure Commit where
  boundary : Nat
  mask     : BitVec 9
  crc      : Word32
  matched  : Bool      -- the partner's matching commit has been received
  c        : Nat       -- the tick index at which TICK_COMMIT executed
  deriving DecidableEq, Repr

/-- One status snapshot (Table 5.5, R127). -/
structure Snapshot where
  tick      : Nat
  committed : Nat
  overrun   : Nat
  loopEnd   : Nat
  aieEnd    : Nat
  stale     : Nat
  clamps    : Nat
  tileLate  : Nat
  deriving DecidableEq, Repr

structure TickSt where
  /-- The tick index, 64 bits; R116; reset 0. -/
  index    : Nat := 0
  /-- The tick length T in microseconds: 1, 2 or 4; R116; reset 2. -/
  len      : Nat := 2
  /-- Microseconds of the running tick that had passed when a warm reset set T back to 2 µs; R116; reset 0. -/
  past     : Nat := 0
  /-- A tick length accepted by TICK_CONFIG and waiting for its boundary; R128; reset none. -/
  newLen   : Option Nat := none
  /-- Shadow sets that hold a staged change, 9 bits; R123; reset 0. -/
  staged   : BitVec 9 := 0
  /-- The staged writes of each set, newest first, which its CRC-32C covers; R125; reset empty. -/
  writes   : Tbl (List Bytes) := []
  /-- Armed commits; R124; reset empty. -/
  commits  : List Commit := []
  /-- Partner commits received and not yet matched: boundary, mask, CRC; R126; reset empty. -/
  partner  : List (Nat × Nat × Nat) := []
  /-- Commit mask applied at the boundary that opened this tick; R127; reset 0. -/
  applied  : Nat := 0
  /-- Arms that missed the output crossing of this tick, 12 bits; R121, R127; reset 0. -/
  overrun  : BitVec 12 := 0
  /-- Cells whose fresh bit was clear at this tick's input crossing; R127; reset 0. -/
  stale    : Nat := 0
  /-- Edges clamped in this tick; R122; reset 0. -/
  clamps   : Nat := 0
  /-- Bound kernel results that missed this tick's input crossing; R127; reset 0. -/
  tileLate : Nat := 0
  /-- Loop and insertion engine finish times of this tick, in ns; R127; reset 0. -/
  loopEnd  : Nat := 0
  aieEnd   : Nat := 0
  /-- Consecutive ticks in which each arm overran; R121; reset 0. -/
  overCnt  : Tbl Nat := []
  /-- Overruns and clamps since boot, 32 bits each; R129; reset 0. -/
  overruns : Nat := 0
  clampAll : Nat := 0
  /-- The snapshot ring, newest first, at most 256; R127; reset empty. -/
  ring     : List Snapshot := []
  /-- Whether the input crossing and the output crossing of this tick have been passed; R118; reset 0. -/
  inDone   : Bool := false
  outDone  : Bool := false
  deriving DecidableEq, Repr

/-! ### The fault collector -/

/-- A fault message (Table 19.1, R496) with its detection tick, its detail words and its flags. -/
structure FaultMsg where
  die      : Nat
  block    : Nat
  kind     : Nat
  cls      : FClass
  addr     : Nat
  tick     : Nat
  d        : List Nat
  injected : Bool
  interim  : Bool
  deriving DecidableEq, Repr

/-- An event-queue entry (Table 19.5, R505). -/
structure EvEntry where
  msg        : FaultMsg
  time       : Stamp
  unset      : Bool
  seq        : Word32
  lostBefore : Bool
  deriving DecidableEq, Repr

inductive ColState where
  | armed | filling | frozen
  deriving DecidableEq, Repr

/-- A Colophon, in SRAM or as the MRAM copy (R506): the places in order, p, the freeze tick and the trigger class mask. -/
structure Colophon where
  state  : ColState := .armed
  places : List EvEntry := []
  p      : Nat := 0
  tick   : Nat := 0
  mask   : BitVec 4 := 0b1100#4
  deriving DecidableEq, Repr

/-- A give-way episode under way (R511, R512). -/
structure Episode where
  cause  : Nat
  obj    : Nat
  rank   : Nat
  dest     : Nat
  first  : Nat
  last   : Nat
  items  : Nat
  marks  : Nat      -- interim events raised
  deriving DecidableEq, Repr

structure FaultSt where
  /-- Messages detected and waiting for the fabric, oldest first, at most four of a block; R498; reset: the change to BOOT. -/
  waiting  : List FaultMsg := []
  /-- Messages merged, by die and block (die * 512 + block), not yet reported; R498; reset empty. -/
  merged   : Tbl Nat := []
  /-- The next event sequence number, 32 bits; R500; reset 0. -/
  seq      : Word32 := 0
  /-- The backlog, oldest first, at most 1,024; R504; reset empty. -/
  backlog  : List EvEntry := []
  /-- The 64 slots of the window; R503; reset empty. -/
  window   : Tbl EvEntry := []
  /-- EVQ_TAIL, EVQ_HEAD, 16 bits each; R503; reset 0. -/
  tail     : Word16 := 0
  head     : Word16 := 0
  /-- EVQ_CTRL, 32 bits: EN [0], IRQ_EN [1]; R503; reset 0. -/
  ctrl     : Word32 := 0
  /-- EVQ_STATUS.OVERRUN and LOST; R503; reset 0. -/
  overrun  : Bool := false
  lost     : Bool := false
  /-- EVQ_LOST, 32 bits, saturating; R503; reset 0. -/
  lostCnt  : Nat := 0
  /-- The next entry carries LOST_BEFORE; R504; reset 0. -/
  lostFlag : Bool := false
  /-- Entries lost since the last QUEUE_LOST; R504; reset 0. -/
  lostRun  : Nat := 0
  /-- The SRAM Colophon; R506; reset ARMED with mask CONTAINED and FATAL. -/
  col      : Colophon := {}
  /-- The MRAM copy of the Colophon; R506; reset kept in MRAM, DESIGN CHOICE none. -/
  colCopy  : Option Colophon := none
  /-- Mask entries: block and kind (0xFF every kind), at most 64; R507; reset empty. -/
  masks    : List (Nat × Nat) := []
  /-- Messages since boot of class NOTICE, CORRECTED, CONTAINED, FATAL; R515; reset 0. -/
  counts   : Tbl Nat := []
  /-- Messages merged since boot; R515; reset 0. -/
  mergedAll : Nat := 0
  /-- Give-way episodes under way; R511; reset empty. -/
  episodes : List Episode := []
  /-- Give-way episodes since boot; R515; reset 0. -/
  epCount  : Nat := 0
  /-- FATAL_CAUSE_LO/HI, 64 bits; R503; reset 0. -/
  cause    : Word64 := 0
  /-- The high word latched by a read of FATAL_CAUSE_LO (access RL, R8); reset 0. -/
  causeHi  : Word32 := 0
  deriving DecidableEq, Repr

end Sys2Proof.Machine
end

