-- ==== Sys2Proof/Machine/StAcq.lean ====
section
/-! DEFINITION. The state of the travelling-wave acquisition engine (chapter 14). A field's default is its value at
reset; its comment names the rule. -/

namespace Sys2Proof.Machine

/-- Channel states of Table 14.1, in the order of their codes. -/
inductive AcqState where
  | disarmed | armed | capturing | rearming | full | done
  deriving DecidableEq, Repr

/-- Parameters of one channel (Table 14.5, R386). -/
structure AcqCfg where
  on     : Bool := false
  invert : Bool := false
  prot   : Bool := false
  offs   : Int := 0
  kind   : Nat := 3
  dir    : Nat := 0
  th     : Int := 2047
  hyst   : Nat := 16
  ds     : Nat := 4
  cmp    : Nat := 0
  group  : Nat := 0
  mode   : Nat := 0
  dest     : Nat := 1000
  len    : Nat := 4096
  pre    : Nat := 1024
  deriving DecidableEq, Repr

/-- The segment under way (R374, R375, R381): source channel, trigger kind, ttrig in 1/64 ns, index of the tick, valid
pre-trigger samples, whether station time was unset. -/
structure Capture where
  src   : Nat
  kind  : Nat
  t     : Nat
  tn    : Nat      -- instant of sample n, in 1/64 ns
  per   : Nat      -- station time of one sample, in 2^-32 ns
  tick  : Nat
  valid : Nat
  unset : Bool
  deriving DecidableEq, Repr

/-- One closed segment with its header (Table 14.3); `excess` its over-range flag, `read` whether it has been read. -/
structure Segment where
  seg     : Nat
  cap     : Capture
  len     : Nat
  pre     : Nat
  cut     : Bool
  excess    : Bool
  samples : List Int
  read    : Bool
  deriving DecidableEq, Repr

structure AcqCh where
  /-- Channel state; R373; reset DISARMED. -/
  state  : AcqState := .disarmed
  /-- Policy: 1 RING; R380; reset STOP. -/
  ring   : Bool := false
  /-- Slots of the pool, and LEN it was made for; R372; reset 0. -/
  slots  : Nat := 0
  plen   : Nat := 0
  /-- The next SEG, 32 bits; R372; reset 0. -/
  next   : Nat := 0
  /-- Closed segments that hold a slot, oldest first; R380; reset empty. -/
  segs   : List Segment := []
  /-- The capture under way; R378; reset none. -/
  cap    : Option Capture := none
  /-- Segments to release once the final response of their read has been written: SEG, with mailbox, TAG and SEQ of the command; R389;
  reset empty. -/
  frees  : List (Nat × Nat × Nat × Nat) := []
  /-- Triggers missed, and segments overwritten unread, since arm with clear; R375, R380; reset 0. -/
  missed : Nat := 0
  lost   : Nat := 0
  /-- Starts of the 1,024-tick windows of ACQ_MISSED, ACQ_LOST and ACQ_OVERRANGE, and misses of the window; Table 14.4a; reset none. -/
  winMiss : Option Nat := none
  winLost : Option Nat := none
  winOver : Option Nat := none
  deriving DecidableEq, Repr

structure AcqSt where
  /-- Channel parameters; R386; reset defaults of Table 14.5. -/
  cfg : Tbl AcqCfg := []
  /-- The four channels; R373; reset DISARMED. -/
  ch  : Tbl AcqCh := []
  deriving DecidableEq, Repr

end Sys2Proof.Machine
end

