-- ==== Sys2Proof/Machine/StLink.lean ====
section
/-! DEFINITION. The state of the Ifeys link and the cell roster on the KX8 (chapters 6 and 7): ports, ranging, management
queues, roster entries and cell contexts. A field's default is its value at reset; its comment names the rule. -/

namespace Sys2Proof.Machine

/-- Port states of Table 6.14 (R162), in the order of their codes. -/
inductive PortState where
  | down | starting | ranging | verify | inService | sleepD | sleepU | sleepDU | waking | silent | lost
  deriving DecidableEq, Repr

/-- Health states of Table 7.9 (R197), in the order of their codes. -/
inductive Health where
  | none | pending | inUse | unreachable | failed | retired
  deriving DecidableEq, Repr

/-- A management word (Table 6.7). -/
structure MgmtWord where
  slot : BitVec 7
  code : BitVec 5
  arg  : BitVec 20
  deriving DecidableEq, Repr

/-- A queued management word and the frames it is still to be sent in (R144). -/
structure Queued where
  word : MgmtWord
  left : Nat
  deriving DecidableEq, Repr

/-- A tick frame as sent on a port (Tables 6.4 and 6.5): the fields its words are made of. -/
structure TickFrame where
  execTick : Word32
  execBase : Word32
  unitid   : BitVec 4
  active   : Bool
  blocked  : Bool
  quiet    : Bool
  port     : BitVec 5
  groups   : BitVec 4
  tcode    : BitVec 3
  mgmt     : List MgmtWord
  cmds     : List Word32
  deriving DecidableEq, Repr

/-- Messages sent between frames (Table 6.3). -/
inductive LinkMsg where
  | block (unitid : BitVec 4) (cause : Byte)
  | safe (unitid : BitVec 4) (cause : Byte)
  | timeSet (value : BitVec 56)
  | sleep (up down : Bool)
  deriving DecidableEq, Repr

/-- A ranging run under way on a port (R153 to R157): the slot, which run of three it is, whether it is a re-ranging
run of four, the first ticks of the windows still to be judged (oldest first), and the valid values of R in 2.5 ps units (none
where no valid reply came). -/
structure RangeRun where
  slot    : Nat
  attempt : Nat
  rerun   : Bool
  windows : List Nat := []
  results : List (Option Int) := []
  deriving DecidableEq, Repr

/-- A message as the LNK sends it: the IDLE words before it where DTX had slept, and the copies (R146, R147, R165). -/
structure SentMsg where
  idles  : Nat
  msg    : LinkMsg
  copies : Nat
  deriving DecidableEq, Repr

structure Port where
  /-- Port state, 4 bits; R162; reset DOWN. -/
  state   : PortState := .down
  /-- Asymmetry A of the port, signed 16 bits in 2^-6 ns; R152, R169; reset DESIGN CHOICE 0. -/
  asym    : Int := 0
  /-- Asymmetry trims per slot, signed 16 bits in 2^-6 ns; R169; reset DESIGN CHOICE 0. -/
  trims   : Tbl Int := []
  /-- Minimum execution offset in 250 ps steps; R122, R159; reset 1,200. -/
  minOff  : Nat := 1200
  /-- The management queue, first in first out, at most 64 words; R144; reset empty. -/
  queue   : List Queued := []
  /-- Words that wait for room in the queue; R144, R201; reset empty. -/
  waiting : List Queued := []
  /-- PERM_BYPASS words outside the queue: slot, boundary and frames left; R144, R204; reset empty. -/
  perm    : List (Nat × Nat × Nat) := []
  /-- Spare use of the port: 0 none, 1 logic, 2 lane; R166, R167, R171; reset kept in MRAM, DESIGN CHOICE 0. -/
  spare   : Nat := 0
  /-- The ranging run under way; R155; reset none. -/
  run     : Option RangeRun := none
  /-- Tick of entry into the present state, and microseconds of converter tick time at it; R162, R163, R165; reset 0. -/
  since   : Nat := 0
  sinceUs : Nat := 0
  /-- A BLOCK or SAFE message has been sent since the device last entered DEBLOCKED; R140; reset 0. -/
  blocked : Bool := false
  /-- The last message sent; R146, R147, R165; reset none. -/
  msg     : Option SentMsg := none
  /-- The last tick frame sent; R138; reset none. -/
  frame   : Option TickFrame := none
  /-- Frames at the old T that leave after a change of T, in their order; R164; reset empty. -/
  oldT    : List TickFrame := []
  /-- EXEC_TICK and BLOCKED of the last four frames, newest first; R199; reset empty. -/
  flags   : List (Nat × Bool) := []
  /-- The 34-bit words of the last frame or message as they left the ball, and the scrambler, its newest bit lowest; R134; reset empty,
  DESIGN CHOICE 0. -/
  line    : List (BitVec 34) := []
  scr     : BitVec 58 := 0
  /-- The last TIME_SET: its value, and microseconds of converter tick time when it left; R147; reset none. -/
  timeSet : Option (BitVec 56 × Nat) := none
  /-- Tick of the last TIME_SET; R147; reset 0. -/
  tsTick  : Nat := 0
  /-- A TIME_SET is due at the next boundary after a wake of DTX, and tick frames wait for it; R147, R165; reset 0. -/
  tsDue   : Bool := false
  /-- Tick frames commanding BYPASS still to be sent by a port that is lost; R168; reset 0. -/
  lastOut : Nat := 0
  /-- Tracking corrections, discarded bursts, re-ranging runs since IN_SERVICE; R169; reset 0. -/
  corr    : Nat := 0
  disc    : Nat := 0
  reruns  : Nat := 0
  /-- First tick of the last ranging window, and the tick at which its QUIET ends; R154, R157; reset 0. -/
  lastWin : Nat := 0
  quietTo : Nat := 0
  /-- A spare has been shadowing the port since this tick; R166; reset none. -/
  shadow  : Option Nat := none
  /-- A lane remap waits for IN_SERVICE; R167, R170; reset 0. -/
  laneMap : Bool := false
  deriving DecidableEq, Repr

/-- A roster entry (Table 7.8). -/
structure Roster where
  cid      : Nat
  arm      : Nat
  flags    : Byte
  identity : BitVec 48
  deriving DecidableEq, Repr

/-- The context of a cell (R194). -/
structure CellCtx where
  /-- Roster entry, 16 bytes; R195; reset none. -/
  roster   : Option Roster := none
  /-- Health state and cause, 3 and 8 bits; R197, R198; reset NONE, 0. -/
  health   : Health := .none
  cause    : Nat := 0
  /-- Delays d_down and d_up in 2^-6 ns; R152; reset 0. -/
  dDown    : Nat := 0
  dUp      : Nat := 0
  /-- Ranged successfully since the port's last bring-up; R155, R171; reset 0. -/
  ranged   : Bool := false
  /-- Ranging entry flags: URX inverted, reach limit, downstream limit, identity; R171; reset 0. -/
  flags    : BitVec 4 := 0
  /-- The last values of e, newest first, in 2.5 ps units, at most 256, since the mean was last restarted; R158; reset empty. -/
  eLast    : List Int := []
  /-- Consecutive bursts discarded; R158; reset 0. -/
  discRun  : Nat := 0
  /-- A burst was discarded since the last input crossing; R171; reset 0. -/
  discNow : Bool := false
  /-- Ticks among the last 1,024 with a discarded burst, and without a fresh report; R171, R206; reset 0. -/
  discHist : BitVec 1024 := 0
  missHist : BitVec 1024 := 0
  /-- Last tick report, 64 bits; R194; reset DESIGN CHOICE 0. -/
  report   : Word64 := 0
  /-- A fresh report has come since the roster was loaded; R198; reset 0. -/
  seen     : Bool := false
  /-- Fresh bit, and the report of this tick waiting for the input crossing, with whether its CSTATE is the one expected; R150, R194,
  R199; reset 0, none. -/
  fresh    : Bool := false
  incoming : Option (Word64 × Bool) := none
  /-- A health change detected and waiting for the input crossing: state and cause; R198; reset none. -/
  detected : Option (Health × Nat) := none
  /-- Tick of the last fresh report; R194; reset 0. -/
  freshTick : Nat := 0
  /-- Management replies received, and the last one; R192, R194; reset 0. -/
  replies  : Nat := 0
  reply    : Word64 := 0
  /-- Consecutive valid bursts, and those whose reports show the expected CSTATE; R162, R198; reset 0. -/
  good     : Nat := 0
  goodC    : Nat := 0
  /-- Active safe state (BYPASS when 1), its shadow, and whether it is confirmed; R201, R205; reset 0, none, 0. -/
  safeSel  : Bool := false
  safeNew  : Option Bool := none
  safeOk   : Bool := false
  /-- Consecutive fresh reports whose SAFE_SEL disagrees; R201; reset 0. -/
  selBad   : Nat := 0
  /-- Changes out of IN_USE since boot, and the tick of the last health change; R206; reset 0. -/
  declared : Nat := 0
  changed  : Nat := 0
  /-- Advances of ERRCNT in the last 1,024 ticks, each with its tick, newest first; R198; reset empty. -/
  errs     : List (Nat × Nat) := []
  /-- The cell left IN_USE while deblocked and its SWITCH to BYPASS is still to be sent; R199; reset 0. -/
  bypass   : Bool := false
  /-- Execution tick of the REJOIN of a readmission, while it counts; R200; reset none. -/
  rejoin   : Option Nat := none
  /-- Fresh reports judged after a re-ranging run, and whether all of them showed the CSTATE expected; R198; reset none. -/
  judge    : Option (Nat × Bool) := none
  /-- Marked for re-ranging: a run waits or is under way; R157, R158, R194, R200; reset 0. -/
  mark     : Bool := false
  /-- Ranged or declared unreachable in the port's present bring-up; Table 6.14; reset 0. -/
  tried    : Bool := false
  deriving DecidableEq, Repr

structure LinkSt where
  /-- The cell ports, by logical number 0 to 31; R130, R162; reset DOWN. -/
  ports    : Tbl Port := []
  /-- The cell contexts, by CID; R194; reset NONE (the roster is lost on every reset). -/
  cells    : Tbl CellCtx := []
  /-- The firmware's copy of the roster on the SYS die, by CID; R194, R196; reset empty. -/
  roster   : Tbl Roster := []
  /-- Health changes asked by CELL_HEALTH_SET: boundary, CID, action; R204; reset empty. -/
  healthAt : List (Nat × Nat × Nat) := []
  /-- Command words computed for the next frames, by CID; R138; reset HOLD. -/
  words    : Tbl Word32 := []
  /-- Cell-link time at the last boundary, in 2^-6 ns, 56 bits; R147; reset DESIGN CHOICE 0. -/
  linkTime : BitVec 56 := 0
  /-- Tick of the input crossing last passed; R206; reset 0. -/
  crossing : Nat := 0
  /-- The first tick at a new T: no frame of the new TCODE leaves in it; R164; reset none. -/
  firstNew : Option Nat := none
  deriving DecidableEq, Repr

end Sys2Proof.Machine
end

