-- ==== Sys2Proof/Machine/StCell.lean ====
section
/-! DEFINITION. The state of a compatible cell controller (chapter 7, R172 to R193). A field's default is its value at
the cell's power-up; its comment names the rule. -/

namespace Sys2Proof.Machine

/-- Cell controller states of Table 7.2, in the order of their codes. -/
inductive CState where
  | unlocked | locked | blocked | running | safe | asleep | fault | bypassed
  deriving DecidableEq, Repr

/-- STATE of a command word (Tables 6.6 and 7.1), in the order of its codes. -/
inductive SwState where
  | bypass | insertPos | insertNeg | block
  deriving DecidableEq, Repr

/-- A management word for the cell (Table 6.7): its code and argument. -/
structure MgmtIn where
  code : BitVec 5
  arg  : BitVec 20
  deriving DecidableEq, Repr

/-- A tick frame as one cell sees it (Tables 6.4 to 6.6): header and group CRC results, the fields of SOF, the cell's command
word, and the management words whose SLOT is the cell's. -/
structure FrameIn where
  hc      : Bool
  group   : Bool
  tick    : Word32
  base    : Word32
  active  : Bool
  blocked : Bool
  quiet   : Bool
  tcode   : Nat
  command : Word32
  mgmt    : List MgmtIn
  deriving DecidableEq, Repr

/-- An edge waiting for its instant (R184): the instant on the cell's own clock, in 2^-6 ns, and the state it goes to. -/
structure Edge where
  at_  : Nat
  dest   : SwState
  deriving DecidableEq, Repr

/-- What a frame brings to its own interface at its boundary, once its HC has matched (R143, R151, R181): B_j in 2^-6 ns, whether the
frame was valid there, QUIET, and DELAY_SET, UP_DELAY_SET and RANGE words. -/
structure IfaceDue where
  base  : Nat
  valid : Bool
  quiet : Bool
  mgmt  : List MgmtIn
  deriving DecidableEq, Repr

/-- A frame taken for tick j whose boundary is still to come: interface, B_j in 2^-6 ns, and the frame (R178, R180). -/
structure FrameDue where
  onB   : Bool
  base  : Nat
  frame : FrameIn
  deriving DecidableEq, Repr

/-- The word receiver of an interface (R134, R135). -/
structure WordRx where
  /-- Invalid headers among the last 64, newest lowest; R135; reset 0. -/
  bad   : BitVec 64 := 0
  /-- Consecutive words with a valid header; R135; reset 0. -/
  good  : Nat := 0
  /-- The last 58 scrambled body bits, newest lowest; R134; reset DESIGN CHOICE 0. -/
  scr   : BitVec 58 := 0
  /-- Consecutive data words 0xE1FF_FFFF, and whether a valid SOF has been seen; R135; reset 0. -/
  swaps : Nat := 0
  sof   : Bool := false
  deriving DecidableEq, Repr

/-- One link interface of a cell controller (R173, R179). -/
structure Iface where
  /-- The interface has gained word lock since power-up; R174; reset 0. -/
  inUse   : Bool := false
  /-- DCLK present and word lock held; R174; reset 0. -/
  locked  : Bool := false
  /-- DTX input inverted; R135; reset 0. -/
  inverted : Bool := false
  /-- The word receiver; R135; reset as at power-up. -/
  rx      : WordRx := {}
  /-- Cell-link time counter, 56 bits in 2^-6 ns, as it read at DCLK cycle `epoch`, where its pattern started; and whether it is valid;
  R173; reset 0, 0, invalid. -/
  counter : BitVec 56 := 0
  epoch   : Nat := 0
  valid   : Bool := false
  /-- A TIME_SET waiting for the next tick boundary: the counter value it gives, and the cycle at which it gives it; R147; reset none. -/
  adopt   : Option (BitVec 56 × Nat) := none
  /-- DELAY_SET and UP_DELAY_SET values; R143; reset 0. -/
  dDown   : Nat := 0
  dUp     : Nat := 0
  /-- What frames bring to the interface at their boundaries; R143, R181; reset empty. -/
  due     : List IfaceDue := []
  /-- EXEC_TICK, boundary B_j in 2^-6 ns and TCODE of the frame last taken; R179; reset none. -/
  last    : Option (Word32 × Nat × Nat) := none
  /-- B_j of the present tick: EXEC_BASE of its frame, or B_{j-1} + T; R151; reset DESIGN CHOICE 0. -/
  bj      : Nat := 0
  /-- QUIET of this interface's frame for the present tick; R151; reset 0. -/
  quiet   : Bool := false
  /-- Upstream sleep and downstream sleep taken; R165; reset 0. -/
  upSleep : Bool := false
  dnSleep : Bool := false
  /-- RANGE for the present tick: a ranging burst is due; R153; reset 0. -/
  range   : Bool := false
  deriving DecidableEq, Repr

/-- A burst launched (R148, R149, R151): payload, interface, and in 2^-6 ns / 100 on the counter the launch instant and the instants
between which the cell emits light. -/
structure Burst where
  payload : Word64
  onB     : Bool
  launch  : Int
  lightOn : Int
  lightOff : Int
  deriving DecidableEq, Repr

structure CellCtl where
  /-- Controller state, 3 bits; R177; reset UNLOCKED. -/
  state   : CState := .unlocked
  /-- A TIME_SET has been adopted while LOCKED; R178; reset 0. -/
  adopted : Bool := false
  /-- Topology: full bridge; R191; fixed at manufacture. -/
  full    : Bool := false
  /-- Identity, 48 bits; R191; fixed at manufacture. -/
  identity : BitVec 48 := 0
  /-- Interfaces A and B; R173; reset not in use. -/
  ifA     : Iface := {}
  ifB     : Iface := {}
  /-- Switch pattern held; R176, R177; reset BLOCK. -/
  pattern : SwState := .block
  /-- Configured safe state is BYPASS; R187; reset BLOCK. -/
  safeByp : Bool := false
  /-- A BLOCK message was accepted while LOCKED; Table 7.2; reset 0. -/
  lockBlk : Bool := false
  /-- EXEC_TICK, TCODE and interface of the frame last taken; R179, R180; reset none. -/
  taken   : Option (Word32 × Nat × Bool) := none
  /-- B_j of the first frame of the present TCODE; R179; reset none. -/
  first   : Option Nat := none
  /-- A valid frame with ACTIVE = 0 held until the deadline; R180; reset none. -/
  held    : Option FrameDue := none
  /-- Frames taken whose boundary is still to come; R178, R193; reset empty. -/
  due     : List FrameDue := []
  /-- The interface on which the last frame with ACTIVE = 1 was taken; R180; reset A. -/
  actIf   : Bool := false
  /-- EXEC_TICK [3:0] and interface of the frame that took effect for the present tick; R190; reset none. -/
  cur     : Option (BitVec 4 × Bool) := none
  /-- Edges waiting; R184; reset empty. -/
  edges   : List Edge := []
  /-- The cell's own clock at the last edge executed; R185; reset none. -/
  lastEdge : Option Nat := none
  /-- The block hold: the cell's own clock at the acceptance, and whether the hold has ended; R182; reset none. -/
  hold    : Option (Nat × Bool) := none
  /-- Watchdog count, and that it has just reached 3; R188; reset 0. -/
  watchdog : Nat := 0
  expired : Bool := false
  /-- DESAT and GATE latches, and OV, SUP, BYP, HOT; Table 7.5; reset 0. -/
  ov      : Bool := false
  sup     : Bool := false
  desat   : Bool := false
  gate    : Bool := false
  byp     : Bool := false
  hot     : Bool := false
  /-- A desaturation or gate fault condition is still present; R178; reset 0. -/
  faultNow : Bool := false
  /-- ERRCNT, 8 bits; R190; reset 0. -/
  errcnt  : Byte := 0
  /-- AUX_SELECT; R193; reset DESIGN CHOICE 0. -/
  auxSel  : BitVec 4 := 0
  /-- Gate-command edges executed, 11 bits; Table 7.6; reset 0. -/
  edgeCnt : BitVec 11 := 0
  /-- Watchdog expiries, late edges, ticks taken on interface B, 16 bits each; R192; reset 0. -/
  wdCnt   : Word16 := 0
  lateCnt : Word16 := 0
  bCnt    : Word16 := 0
  /-- PERM_BYPASS with its argument was in the frame of the last tick that had one; R193; reset 0. -/
  permOne : Bool := false
  /-- Management reply due in the present tick: code and result; R192; reset none. -/
  reply   : Option (BitVec 5 × BitVec 2) := none
  /-- The tick report, latched at B_j - 200 ns for the bursts of tick j; R183, R190; reset DESIGN CHOICE 0. -/
  report  : Word64 := 0
  /-- Last burst launched; R148, R183; reset none. -/
  burst   : Option Burst := none
  deriving DecidableEq, Repr

structure CellsSt where
  /-- The cell controllers, by CID; R172; reset as at power-up. -/
  ctl : Tbl CellCtl := []
  /-- DCLK cycles up to the last boundary; R173; reset 0. -/
  cycles : Nat := 0
  deriving DecidableEq, Repr

end Sys2Proof.Machine
end

