-- ==== Sys2Proof/Machine/StAie.lean ====
section
/-! DEFINITION. The state of the insertion engine (chapter 8) and of the PWM generators, direct pairs and comparators
(chapter 9). A field's default is its value at reset; its comment names the rule. -/

namespace Sys2Proof.Machine

/-- Arm parameters of AIE_ARM_CONFIG (Table 8.5, R231). -/
structure ArmCfg where
  group : Nat
  nreq  : Nat
  nred  : Nat
  cap   : Nat
  vbase : Nat
  ibase : Nat
  ref   : Nat
  vsrc  : Nat
  isrc  : Nat
  rot   : Nat
  negOk : Bool
  deriving DecidableEq, Repr

/-- Selection parameters of AIE_SELECT_PARAMS, with the defaults of Table 8.5 (R231). -/
structure SelCfg where
  psw   : Nat := 24
  kw    : Nat := 16
  stale : Nat := 8
  csat  : Nat := 1048576
  fcap  : Nat := 300
  depth : Nat := 8
  ow    : Nat := 0
  eabs  : Nat := 2000
  erel  : Nat := 1311
  utol  : Nat := 1600
  deriving DecidableEq, Repr

/-- Group parameters of AIE_DERATE_CONFIG, with the defaults of Table 8.5 rounded as R12 lays down. -/
structure DerateCfg where
  mnom  : Int := 493921239
  mmax  : Int := 526133494
  dstep : Int := 13421773
  kmin  : Int := 134217728
  rdown : Int := 268435
  rup   : Int := 2684
  win   : Nat := 10000
  qc    : Nat := 50
  deriving DecidableEq, Repr

/-- The engine's model of a cell (R209). -/
structure AieCell where
  /-- Present state; R209; reset BYPASS. -/
  present : SwState := .bypass
  /-- Estimate v in 1/16 V; R209; reset DESIGN CHOICE 0. -/
  v       : Int := 0
  /-- Prediction of the last tick, in 1/16 V; R212; reset DESIGN CHOICE 0. -/
  vhat    : Int := 0
  /-- Stale count; R213; reset 0. -/
  stale   : Nat := 0
  /-- Held; R213; reset 0. -/
  held    : Bool := false
  /-- Bucket b, signed Q8.16; R218; reset 0 (full on entry to IN_USE and to DEBLOCKED). -/
  bucket  : Int := 0
  /-- Wear W in A and commanded state changes; R217; reset 0 or the MRAM record. -/
  wear    : Nat := 0
  changes : Nat := 0
  restored : Bool := false
  /-- Credit c and penalty P of the last recomputation; R217; reset 0, none (P_sw applies). -/
  credit  : Int := 0
  penalty : Option Nat := none
  /-- Signed insertion commanded for execution ticks k and k + 1, Q2.16; R212; reset 0. -/
  ins0    : Int := 0
  ins1    : Int := 0
  /-- Signed insertion at the sample instant in the last three execution ticks, newest first; R222; reset 0. -/
  sigma   : List Int := []
  /-- The health seen last, for entry to and exit from IN_USE; R209; reset 0. -/
  inUse   : Bool := false
  deriving DecidableEq, Repr

/-- What the engine decided for a cell, to take effect at the output crossing (R219, R220). -/
structure Plan where
  cid     : Nat
  word    : BitVec 32
  dest      : SwState
  ins     : Int
  sigma   : Int
  changed : Nat
  capOver : Bool
  /-- A candidate of R215, whose bucket is refilled (R218). -/
  cand    : Bool
  desig   : Bool
  deriving DecidableEq, Repr

structure ArmSt where
  /-- Stage code of Table 8.2; R224; reset 0. -/
  stage    : Nat := 0
  /-- d_clamp, and the window's ticks and clamped ticks; R226; reset 0. -/
  dClamp   : Nat := 0
  winTick  : Nat := 0
  winClamp : Nat := 0
  /-- Delta of the last input crossing; R208; reset 0. -/
  delta    : Int := 0
  /-- m_lim in force, Q2.29; R224; reset DESIGN CHOICE 0. -/
  mlim     : Int := 0
  /-- k_target, Q3.28; R224; reset 1.0. -/
  ktarget  : Int := 268435456
  /-- Crossings in a row with the residual over and within its tolerance; R222; reset 0. -/
  excess     : Nat := 0
  under    : Nat := 0
  /-- MISMATCH, UNRESOLVED; R222; reset 0. -/
  mismatch : Bool := false
  unresolved : Bool := false
  /-- Ticks in MISMATCH since entry or the last declaration; R222; reset 0. -/
  mmTicks  : Nat := 0
  /-- Suspect and how often in a row; R222; reset none. -/
  suspect  : Option (Nat × Nat) := none
  /-- Tick of the last declaration; R223; reset none. -/
  lastDecl : Option Nat := none
  /-- Tie pointer r; R216; reset 0. -/
  tie      : Nat := 0
  /-- Designated cell, and ticks since it was chosen; R214; reset none. -/
  desig    : Option Nat := none
  desigAge : Nat := 0
  /-- Current invalid, voltage invalid; R210; reset 0. -/
  iBad     : Bool := false
  vBad     : Bool := false
  /-- Level of the last tick: clamped, whole cells, duty, sign; R211; reset 0. -/
  clamped  : Bool := false
  nwhole   : Nat := 0
  duty     : Nat := 0
  sign     : Int := 1
  /-- Residual e of the last tick in 1/16 V; R222; reset 0. -/
  resid    : Int := 0
  /-- Cap overrides since boot, in this window, and the window's start; R218, R230; reset 0. -/
  overrides : Nat := 0
  overWin  : Nat := 0
  overTick : Nat := 0
  /-- Tick of the last cap override; R234; reset none. -/
  lastOver : Option Nat := none
  /-- Mean wear of the last recomputation; R217, R232; reset 0. -/
  meanWear : Nat := 0
  /-- Holds started and cells declared since boot; R234; reset 0. -/
  holds    : Nat := 0
  declared : Nat := 0
  /-- Tick of the last stage change; R234; reset 0. -/
  stageTick : Nat := 0
  /-- The decision waiting for the output crossing; R219; reset empty. -/
  plan     : List Plan := []
  deriving DecidableEq, Repr

structure AieSt where
  /-- Active and shadow arm parameters, by arm; R231; reset none. -/
  arm      : Tbl ArmCfg := []
  armNew   : Tbl ArmCfg := []
  /-- Active and shadow selection parameters, by arm; R231; reset defaults. -/
  sel      : Tbl SelCfg := []
  selNew   : Tbl SelCfg := []
  /-- Active and shadow group parameters, by group; R231; reset defaults. -/
  der      : Tbl DerateCfg := []
  derNew   : Tbl DerateCfg := []
  /-- Model state of the cells, by CID; R209. -/
  cells    : Tbl AieCell := []
  /-- State of the arms, by number; R224. -/
  arms     : Tbl ArmSt := []
  /-- Derating factor k of the two groups, Q3.28; R227; reset 1.0 (DESIGN CHOICE before the first DEBLOCKED). -/
  k        : Tbl Int := []
  /-- MRAM wear records, newest first: identity, W, changes; at most 8,192; R217; reset kept in MRAM, DESIGN CHOICE none. -/
  records  : List (Nat × Nat × Nat) := []
  /-- Tick of the last MRAM save; R232; reset 0. -/
  saved    : Nat := 0
  deriving DecidableEq, Repr

/-! ### Chapter 9 -/

/-- Arm generator parameters (Table 9.9). -/
structure GenCfg where
  ev   : Nat := 0
  eps  : Nat := 1
  emax : Nat := 0
  deriving DecidableEq, Repr

/-- Pair parameters (Table 9.9). -/
structure PairCfg where
  mode   : Nat := 0
  div    : Nat := 1
  period : Nat := 0
  phase  : Nat := 0
  src    : Nat := 0
  dfix   : Nat := 0
  dtMin  : Nat := 200
  dtMax  : Nat := 1500
  dtMargin : Nat := 100
  ev     : Nat := 0
  eps    : Nat := 1
  deriving DecidableEq, Repr

/-- Comparator parameters (Table 9.9). -/
structure CmpCfg where
  flags : Nat := 0
  thr   : Nat := 4095
  pmask : Nat := 0
  deriving DecidableEq, Repr

structure ArmGen where
  /-- Base in, base polarity negative; R236; reset out, positive. -/
  baseIn  : Bool := false
  bpolNeg : Bool := false
  /-- Carry e, signed, in steps; R235; reset 0. -/
  carry   : Int := 0
  /-- w_out of the last tick; R255; reset 0. -/
  wout    : Int := 0
  /-- Counts since boot of R255; reset 0. -/
  sats    : Nat := 0
  resets  : Nat := 0
  noWin   : Nat := 0
  edges   : Nat := 0
  /-- Occurrence counters by kind; R246; reset 0. -/
  occ     : Tbl Nat := []
  /-- The word of the designated cell for the execution tick that comes next; R246; reset none. -/
  word    : Option (BitVec 32) := none
  deriving DecidableEq, Repr

/-- A dead time under way (R244): the output that is to turn on is B, the time from the falling edge to the commutation once it is sensed, and
a fixed DT_max after a start (R245). -/
structure Dead where
  toB    : Bool
  sensed : Option Nat
  fixed  : Bool
  deriving DecidableEq, Repr

structure PwmPair where
  /-- Instant of the counter's first 0 in ns of converter tick time, b plus PHASE counts; R241; reset none, the counter does not run. -/
  first   : Option Nat := none
  /-- Outputs A and B; R241; reset low. -/
  outA    : Bool := false
  outB    : Bool := false
  /-- Demand of A; R242; reset off. -/
  demand  : Bool := false
  /-- The pair is running, or waits for its next ZERO to start; R245; reset 0. -/
  run     : Bool := false
  /-- Holding register and tag; R243; reset 0. -/
  hold    : Int := 0
  holdTag : BitVec 16 := 0
  /-- A published value on its way, with its tag; R243; reset none. -/
  coming  : Option (Int × BitVec 16) := none
  /-- Value and tag in force, and CMP; R242, R243; reset 0. -/
  tag     : BitVec 16 := 0
  cmp     : Nat := 0
  /-- Dead time under way; R244; reset none. -/
  dead    : Option Dead := none
  /-- Trip latch; R248; reset cleared. -/
  latch   : Bool := false
  /-- Missed commutations and latch settings since boot; R255; reset 0. -/
  missed  : Nat := 0
  trips   : Nat := 0
  /-- Periods since the counter started, and the dead times of the last 1,024 before A and before B turned on, each with its period,
  newest first; R244; reset 0, empty. -/
  periods : Nat := 0
  dtA     : List (Nat × Nat) := []
  dtB     : List (Nat × Nat) := []
  /-- Occurrence counters by kind; R246; reset 0. -/
  occ     : Tbl Nat := []
  deriving DecidableEq, Repr

/-- An event on its way to the dispatcher (Table 9.5). -/
structure PwmEvent where
  src    : Nat
  index  : Nat
  kind   : Nat
  count  : Nat
  tick   : Nat
  offset : Nat
  deriving DecidableEq, Repr

structure PwmSt where
  /-- Active and shadow parameters of the arm generators, pairs and comparators; R253; reset defaults. -/
  gen      : Tbl GenCfg := []
  genNew   : Tbl GenCfg := []
  pair     : Tbl PairCfg := []
  pairNew  : Tbl PairCfg := []
  cmp      : Tbl CmpCfg := []
  cmpNew   : Tbl CmpCfg := []
  /-- State of the arm generators and the pairs. -/
  gens     : Tbl ArmGen := []
  pairs    : Tbl PwmPair := []
  /-- Comparators active, 24 bits; R248; reset 0. -/
  active   : BitVec 24 := 0
  /-- Comparator latches, 24 bits; R248; reset cleared. -/
  latched  : BitVec 24 := 0
  /-- Latched comparators whose BLOCK bit caused the present block; R255; reset 0. -/
  blockedBy : BitVec 24 := 0
  /-- Comparator latched first since the last clear of all latches, and its tick; R255; reset none. -/
  first    : Option (Nat × Nat) := none
  /-- Reloads since the last output crossing, oldest first: pair, tag and CMP latched; R243; reset empty. -/
  reloads  : List (Nat × BitVec 16 × Nat) := []
  /-- Events waiting for the next input crossing, oldest first; R247; reset empty. -/
  events   : List PwmEvent := []
  deriving DecidableEq, Repr

end Sys2Proof.Machine
end

