-- ==== Sys2Proof/Machine/StLoop.lean ====
section
/-! DEFINITION. The state of the loop engine (chapter 10) and the views of signals that kernels read (R299). A field's
default is its value at reset; its comment names the rule. -/

namespace Sys2Proof.Machine

/-- A signal as read: the value (the last valid one while invalid, 0 when never valid), whether it is valid, and whether
a new sample crossed (Table 10.3, R261). -/
structure Sig where
  v     : Int := 0
  ok    : Bool := false
  fresh : Bool := false
  deriving DecidableEq, Repr

/-- The signals of one tick, by die * 65536 + selector (R299). -/
structure View where
  tick : Nat
  sigs : Tbl Sig
  deriving DecidableEq, Repr

/-- Modes of a channel, in the order of the codes of Table 10.4. -/
inductive LMode where
  | off | track | run | hold | fbHold | fbRamp | fbBlock
  deriving DecidableEq, Repr

/-- The parameters of a channel (Table 10.8, R279), with its defaults. -/
structure LoopCfg where
  form   : Nat := 0
  ffmode : Nat := 0
  ref    : Nat := 0
  fb     : Nat := 0
  ffsrc  : Nat := 0
  track  : Nat := 0
  uhi    : Int := 268435456
  ulo    : Int := -268435456
  kb     : Int := 134217728
  kff    : Int := 0
  xmin   : Int := 26843546
  limscale : Nat := 0
  rconst : Int := 0
  coef   : Tbl (List Int) := []
  q      : Nat := 20
  gains  : List Int := List.replicate 64 536870912
  regions : Nat := 1
  mag    : Bool := false
  sched  : Nat := 0
  hyst   : Int := 0
  thetas : List Int := []
  rflags : Nat := 0
  lead   : Nat := 0
  phase  : Nat := 0
  kr     : Int := 0
  qf     : Int := 0x1FAE147B
  mlim   : Int := 67108864
  nfrz   : Nat := 32
  ht     : Nat := 8
  fbk    : Nat := 0
  sflags : Nat := 3
  satTime : Nat := 0
  satAct : Nat := 0
  usafe  : Int := 0
  rfb    : Int := 0x41893
  deriving DecidableEq, Repr

structure LoopCh where
  /-- Mode, 3 bits; R271; reset OFF. -/
  mode   : LMode := .off
  /-- Output u, unlimited output v and error e, Q3.28; R262; reset 0. -/
  u      : Int := 0
  v      : Int := 0
  e      : Int := 0
  /-- The last output that readers saw valid; R261; reset 0. -/
  lastU  : Int := 0
  /-- Past errors e1 to e3 and output history h1 to h3; R262; reset 0. -/
  e1     : Int := 0
  e2     : Int := 0
  e3     : Int := 0
  h1     : Int := 0
  h2     : Int := 0
  h3     : Int := 0
  /-- Region in force; R265; reset 0. -/
  region : Nat := 0
  /-- Feedback invalid, freeze detected at the last evaluation; R273; reset 0. -/
  fbBad  : Bool := false
  frozen : Bool := false
  /-- Last feedback sample of the present run, and identical samples since; R273; reset none, 0. -/
  lastFb : Option Int := none
  frz    : Nat := 0
  /-- Evaluations in a row with good feedback; Table 10.5; reset 0. -/
  good   : Nat := 0
  /-- Evaluations spent in HOLD or the fallback; R274, Table 10.7; reset 0. -/
  spent  : Nat := 0
  /-- Clamped RUN evaluations in a row, and LOOP_SAT_LONG raised for them; R275; reset 0. -/
  sat    : Nat := 0
  satDone : Bool := false
  /-- The commit of this tick carried ACK; Table 10.5; reset 0. -/
  ack    : Bool := false
  /-- Clamped high, clamped low, limits scaled below 1.0, learning at the last evaluation; Table 10.10; reset 0. -/
  hi     : Bool := false
  lo     : Bool := false
  scaled : Bool := false
  learn  : Bool := false
  /-- Sources now invalid: reference, feed-forward, scheduling variable, phase; R261, Table 10.7; reset 0. -/
  inBad  : BitVec 4 := 0
  /-- Repetitive memory, 2,048 bins; R267; reset 0. -/
  bins   : Tbl Int := []
  /-- Present bin, sum and count, and the last repetitive term; R268; reset none, 0. -/
  bin    : Option Nat := none
  sum    : Int := 0
  cnt    : Nat := 0
  rep    : Int := 0
  /-- Saturations of e, v and history since boot, and the tick that opened the present window of 1,024; R263, R278; reset 0, none. -/
  sats   : Nat := 0
  satWin : Option Nat := none
  /-- Entries to HOLD or a fallback, and region changes, since boot; Table 10.10; reset 0. -/
  supervised : Nat := 0
  switches : Nat := 0
  deriving DecidableEq, Repr

structure LoopSt where
  /-- Active and shadow parameters, by LCH; R279; reset defaults. -/
  cfg    : Tbl LoopCfg := []
  cfgNew : Tbl LoopCfg := []
  /-- Channel state, by LCH. -/
  ch     : Tbl LoopCh := []
  /-- Signals of classes 0x1, 0x2 and 0x4 to 0x7 that crossed at the last input crossing; R260, R261; reset never valid. -/
  sigs   : Tbl Sig := []
  /-- The views of the last four ticks, newest first; R299; reset empty. -/
  views  : List View := []
  /-- Lanes in service on CTL0 and CTL1; R256, R257; reset 8. -/
  lanes  : Tbl Nat := []
  /-- LOOP_END of CTL0 and CTL1 in the last tick, in ns; R258, Table 10.9; reset 0. -/
  ends   : Tbl Nat := []
  deriving DecidableEq, Repr

end Sys2Proof.Machine
end

