-- ==== Sys2Proof/Machine/StTile.lean ====
section
/-! DEFINITION. The state of the DSP tiles (chapter 11) and of the task dispatcher (chapter 12). A field's default is its
value at reset; its comment names the rule. -/

namespace Sys2Proof.Machine

/-- A value that a work item has put for a port (R300). -/
structure PortVal where
  duty : Bool
  port : Nat
  v    : Int
  deriving DecidableEq, Repr

/-- A binding (Table 11.9). -/
structure Binding where
  kid      : Nat := 0
  flow     : Nat := 0
  bflags   : Nat := 0
  rports   : Nat := 0
  dports   : Nat := 0
  maxc     : Nat := 0
  param    : Bytes := []
  deriving DecidableEq, Repr

/-- A work item of a flow (R314 to R322), with its operands: per slot the words taken, none where not
published; `cls` is the class it is dispatched in, `cls0` the flow's class at creation. -/
structure Item where
  flow    : Nat
  event   : Bool
  cls     : Nat
  cls0    : Nat
  seq     : Nat
  v       : Nat
  made    : Nat
  ready   : Bool := false
  running : Bool := false
  ended   : Bool := false
  missing : List Nat := []
  slots   : Tbl (List (Option Int)) := []
  ports   : List PortVal := []
  bindNo  : Nat := 0
  bind    : Binding := {}
  /-- It became ready in the CORE cycle of an input crossing (true) or of a tick boundary (false), with that tick (R324, Table 12.4). -/
  edge    : Option (Bool × Nat) := none
  deriving DecidableEq, Repr

/-- The repeat buffer under way (R297): first index of the body, its length, and passes still to run. -/
structure Rep where
  first : Nat
  len   : Nat
  left  : Nat
  deriving DecidableEq, Repr

structure TileSt where
  /-- Logical number while in service; R283; reset the physical number for tiles 0 to 15, else none. -/
  logical : Option Nat := none
  /-- The tile is retired, or being repaired; R307; reset 0. -/
  retired : Bool := false
  repair  : Bool := false
  /-- The item it runs: flow and SEQ, and the binding it started with; R321; reset none. -/
  item    : Option (Nat × Nat) := none
  bindNo  : Nat := 0
  bind    : Binding := {}
  /-- The cycle limit in force for the item; R305, R307; reset 0. -/
  limit   : Nat := 0
  /-- Words of the binding's state block; R287; reset 0. -/
  stateLen : Nat := 0
  /-- Instruction index of the next instruction; R293, R295; reset 0. -/
  pc      : Nat := 0
  /-- d0 to d15, 32 bits; R284; reset 0. -/
  d       : Tbl Word32 := []
  /-- p0 to p7, m0 to m7, c0 to c7, 16 bits each; R284; reset 0. -/
  p       : Tbl Word16 := []
  m       : Tbl Word16 := []
  c       : Tbl Word16 := []
  /-- acc0 to acc3, 80 bits; R284; reset 0. -/
  acc     : Tbl (BitVec 80) := []
  /-- be, 5 bits; R284; reset 0. -/
  be      : BitVec 5 := 0
  /-- st, 16 bits (AOV, SAT, INV, V, N, Z); Table 11.2; reset 0. -/
  st      : Word16 := 0
  /-- The repeat buffer; lc reads its passes left; R297; reset none. -/
  rep     : Option Rep := none
  /-- X scratch, Y scratch and the state range, by word address; unwritten words read 0; R285 to R287; reset 0. -/
  x       : Tbl Word32 := []
  y       : Tbl Word32 := []
  /-- Values put so far; R300; reset empty. -/
  puts    : List PortVal := []
  /-- Cycles of the present item, and the destination of a load issued in the last cycle; R296, R307; reset 0, none. -/
  cycles  : Nat := 0
  loaded  : List Nat := []
  /-- Counts since boot of Table 11.14; reset 0. -/
  items   : Nat := 0
  aborts  : Nat := 0
  lastCyc : Nat := 0
  maxCyc  : Nat := 0
  satEnd  : Nat := 0
  aovEnd  : Nat := 0
  eccCorr : Nat := 0
  deriving DecidableEq, Repr

/-- A kernel of an image (Table 11.8). -/
structure Entry where
  kid   : Nat
  entry : Nat
  state : Nat
  maxc  : Nat
  deriving DecidableEq, Repr

/-- A user image (Table 11.7): the words of code and of constants, its entries, BUILD and CRC. -/
structure Image where
  code    : List Word32
  consts  : List Word32
  entries : List Entry
  build   : Nat
  crc     : Nat
  deriving DecidableEq, Repr

/-- Parameters of a flow (Table 12.6). -/
structure FlowCfg where
  cls    : Nat := 3
  fflags : Nat := 0
  arity  : Nat := 0
  twait  : Nat := 2
  div    : Nat := 1
  phase  : Nat := 0
  res    : Nat := 0
  max    : Nat := 16
  age    : Nat := 0
  srcs   : List Nat := []
  deriving DecidableEq, Repr

/-- Parameters of a class (Table 12.6). -/
structure ClassCfg where
  rank : Nat
  tmax : Nat := 16
  deriving DecidableEq, Repr

/-- A value published for a port: the value, the view tick of the item that published it, and the item's binding. -/
structure Pub where
  v    : Int
  view : Nat
  bind : Nat
  deriving DecidableEq, Repr

/-- A result or duty port (R301, R328): the value in force, its validity, the publication waiting for its crossing, the
crossings since one entered, and whether a snapshot has counted it as late. -/
structure TPort where
  v       : Int := 0
  ok      : Bool := false
  fresh   : Bool := false
  waiting : Option Pub := none
  noted   : Bool := false
  age     : Nat := 0
  deriving DecidableEq, Repr

/-- Counts of a flow since boot (Table 12.8), its next SEQ and its event windows. -/
structure FlowSt where
  seq       : Word32 := 0
  lastV     : Option Nat := none
  depthMax  : Nat := 0
  unmatched : Nat := 0
  created   : Nat := 0
  released  : Nat := 0
  cancelled : Nat := 0
  timeouts  : Nat := 0
  races     : Nat := 0
  overflows : Nat := 0
  aborts    : Nat := 0
  winTo     : Option Nat := none
  winOv     : Option Nat := none
  winRace   : Option Nat := none
  cntTo     : Nat := 0
  cntOv     : Nat := 0
  deriving DecidableEq, Repr

/-- A cancel waiting for its crossing (R323): flow, scope, tick or SEQ, and the last input crossing when the firmware executed it. -/
structure Cancel where
  flow  : Nat
  scope : Nat
  arg   : Nat
  since : Nat
  deriving DecidableEq, Repr

/-- A start: tick, flow, class, logical tile, and the wait from ready to start in ns (R331). -/
structure StartRec where
  tick : Nat
  flow : Nat
  cls  : Nat
  tile : Nat
  ns   : Nat
  deriving DecidableEq, Repr

/-- A work item ended or aborted: tick, logical tile, its cycles with the copies, and whether it completed (R331). -/
structure RunRec where
  tick : Nat
  tile : Nat
  ns   : Nat
  done : Bool
  deriving DecidableEq, Repr

/-- One CTL die's tiles and local dispatcher. -/
structure DieTiles where
  /-- The 18 tiles, by physical number; R283. -/
  tiles   : Tbl TileSt := []
  /-- The user image loaded; R303; reset none. -/
  image   : Option Image := none
  /-- Active and shadow bindings, 64; R305; reset free. -/
  bind    : Tbl Binding := []
  bindNew : Tbl Binding := []
  /-- The boundary of a binding's last commit and what it was before: items of earlier view ticks use that; R306; reset none. -/
  bindOld : Tbl (Nat × Binding) := []
  /-- The state memory: 64 blocks of 1 KiB, by binding, by word; R287; reset 0. -/
  state   : Tbl (Tbl Word32) := []
  /-- Active and shadow flows, 64; R332; reset defaults. -/
  flow    : Tbl FlowCfg := []
  flowNew : Tbl FlowCfg := []
  flows   : Tbl FlowSt := []
  /-- The type case, at most 512 items; R315; reset empty. -/
  items   : List Item := []
  depthMax : Nat := 0
  /-- Result ports and duty ports; R300, R328; reset never published. -/
  rports  : Tbl TPort := []
  dports  : Tbl TPort := []
  /-- Shed level, crossings in a row without overload, and when the level was last changed; R326; reset 0. -/
  shed    : Nat := 0
  calm    : Nat := 0
  shedAt  : Nat := 0
  /-- Cancels waiting for the next input crossing; R323; reset empty. -/
  cancels : List Cancel := []
  /-- Items and event words of the crossing just passed that raced a cancel; R324; reset 0. -/
  races   : Nat := 0
  /-- Aborts, late publications and errors since boot; Table 11.13; reset 0. -/
  aborts  : Nat := 0
  late    : Nat := 0
  eccCorr : Nat := 0
  eccBad  : Nat := 0
  /-- Starts and ends of the last 1,024 ticks, newest first; R331, Table 11.13; reset empty. -/
  starts  : List StartRec := []
  runs    : List RunRec := []
  /-- The tile whose known-answer test is next; R580; reset 0. -/
  kat     : Nat := 0
  /-- Shed items and most ready items since boot, per class; Table 12.9; reset 0. -/
  clsShed : Tbl Nat := []
  clsReady : Tbl Nat := []
  deriving DecidableEq, Repr

structure TileAll where
  /-- CTL0 and CTL1. -/
  dies    : Tbl DieTiles := []
  /-- Active and shadow class table, shared by both dies; R320; reset defaults. -/
  cls     : Tbl ClassCfg := []
  clsNew  : Tbl ClassCfg := []
  deriving DecidableEq, Repr

end Sys2Proof.Machine
end

