-- ==== Sys2Proof/Machine/StMeas.lean ====
section
/-! DEFINITION. The state of the measurement converters and filter chains (chapter 13) and of the travelling-wave
acquisition (chapter 14). A field's default is its value at reset; its comment names the rule. -/

namespace Sys2Proof.Machine

/-- Channel and filter parameters (Table 13.8, R366). -/
structure MChanCfg where
  on     : Bool := false
  unit   : Nat := 0
  pos    : Nat := 0
  gain   : Int := 268435456
  offs   : Int := 0
  pmin   : Nat := 0
  pmax   : Nat := 65535
  l1     : Nat := 1
  l2     : Nat := 1
  l3     : Nat := 1
  c      : Nat := 1
  reload : Bool := false
  step   : Int := 0
  deriving DecidableEq, Repr

/-- Sequence parameters of a unit (Table 13.8); the cross-check fields belong to units 0 and 2. -/
structure MSeqCfg where
  rlen   : Nat := 0
  ilen   : Nat := 0
  itrig  : Nat := 0
  itidx  : Nat := 0
  lead   : Nat := 0
  rslots : List Nat := []
  islots : List Nat := []
  xsel   : Nat := 255
  xn     : Nat := 8
  xinv   : Bool := false
  xtol   : Int := 0x51EB85
  deriving DecidableEq, Repr

/-- The conversion a unit has under way (R340, R341): of the injected sequence or the regular one, its slot, and the channel that takes its
result; 255 where it converts position 15 or its result is discarded. -/
structure Conv where
  inj  : Bool := false
  slot : Nat := 0
  ch   : Nat := 255
  deriving DecidableEq, Repr

structure MChan where
  /-- Histories of the three stages, newest first, and of the coarse path; R346, R347; reset empty. -/
  h1     : List Int := []
  h2     : List Int := []
  h3     : List Int := []
  hc     : List Int := []
  /-- Samples since the last channel switch, stays at 65,535; R348; reset 0. -/
  count  : Nat := 0
  /-- Fine and coarse output, FILLING; R346; reset 0, 0, 1. -/
  fine   : Int := 0
  coarse : Int := 0
  filling : Bool := true
  /-- The latest sample was beyond STEP, a step was detected at it, and since the last latch; R349; reset 0. -/
  far    : Bool := false
  step   : Bool := false
  stepSet : Bool := false
  /-- The latest sample was over-range, or came from a sequence served after calibration; Table 13.4; reset 0. -/
  ovr    : Bool := false
  late   : Bool := false
  /-- A sample has been taken, its sampling instant in 12.5 ns, and one since the previous latch; R343; reset 0. -/
  sampled : Bool := false
  at_    : Nat := 0
  fresh  : Bool := false
  /-- The outputs that an invalid channel holds: the last valid ones; R345; reset 0. -/
  okFine : Int := 0
  okCoarse : Int := 0
  /-- The window of MEAS_STEP; Table 13.7; reset none. -/
  winStep : Option Nat := none
  deriving DecidableEq, Repr

/-- One channel of the measurement set (R343). -/
structure MSetChan where
  fine   : Int := 0
  coarse : Int := 0
  flags  : BitVec 8 := 2
  age    : Nat := 65535
  deriving DecidableEq, Repr

structure MUnit where
  /-- The physical unit that serves; R336, R362; reset its own number (kept in MRAM). -/
  phys    : Option Nat := none
  /-- The unit is removed; R363; reset 0 (kept in MRAM). -/
  removed : Bool := false
  /-- The conversion under way; R340; reset regular slot 0. -/
  cur     : Conv := {}
  /-- The next regular slot; R341; reset 0. A sequence committed since starts with the next conversion; R340; reset 0. -/
  next    : Nat := 0
  restart : Bool := false
  /-- A trigger is pending; a trigger is held through calibration; R342, R354; reset 0. -/
  pending : Bool := false
  heldT   : Bool := false
  /-- The injected sequence under way, or the pending trigger, carries LATE; R354; reset 0. -/
  late    : Bool := false
  /-- Sticky OVERRUN and LATE; R342, R354; reset 0. -/
  overrun : Bool := false
  lateS   : Bool := false
  /-- A calibration requested, and the calibration under way: covered or not; with both covered, the unit is calibrated and takes its
  sequences back at the next swap; R352 to R354; reset none. -/
  calReq  : Option Bool := none
  cal     : Option Bool := none
  /-- The window of MEAS_OVERRUN; Table 13.7; reset none. -/
  winOver : Option Nat := none
  deriving DecidableEq, Repr

/-- A test of the test DAC (R356): on a channel or a unit, and whether a cross-check asked for it. -/
structure DacTest where
  path  : Bool
  obj   : Nat
  cross : Option Nat
  deriving DecidableEq, Repr

/-- Calibrations of one MEAS_CALIBRATE under way: its mask and mode, units left, pass and covered masks, and results by unit. -/
structure CalJob where
  mask    : Nat
  unc     : Bool
  left    : List Nat
  pass    : Nat
  covered : Nat
  res     : Tbl (Int × Int)
  deriving DecidableEq, Repr

structure MPair where
  /-- The mismatch, and comparisons beyond and within XTOL in a row; R360; reset 0. -/
  mis    : Bool := false
  excess   : Nat := 0
  under  : Nat := 0
  /-- Level tests passed since the mismatch started, and MEAS_XUNRESOLVED raised; R361; reset 0. -/
  passed : Nat := 0
  unres  : Bool := false
  deriving DecidableEq, Repr

structure MeasSt where
  /-- Active and shadow channel parameters, by channel; R366; reset defaults. -/
  chan    : Tbl MChanCfg := []
  chanNew : Tbl MChanCfg := []
  /-- Active and shadow sequences, by logical unit; R366; reset defaults. -/
  seq     : Tbl MSeqCfg := []
  seqNew  : Tbl MSeqCfg := []
  chans   : Tbl MChan := []
  units   : Tbl MUnit := []
  pairs   : Tbl MPair := []
  /-- The set latched last, by channel, and the tick whose sample instant it was latched at; R343; reset never valid. -/
  set     : Tbl MSetChan := []
  setTick : Nat := 0
  /-- The set that enters the control plane at the next input crossing, and the one that entered at the last: a set latched at the sample
  instant of tick k enters at the crossing of tick k + 1; R120, Table 5.3; reset never valid. -/
  wait     : Tbl MSetChan := []
  waitTick : Nat := 0
  inSet    : Tbl MSetChan := []
  inTick   : Nat := 0
  /-- REFSEL, VEXT in µV; R350; reset 0. -/
  refsel  : Nat := 0
  vext    : Nat := 0
  /-- REF_SETTLED, checks in a row inside the settle window and outside the hold window; R351; reset 0. -/
  settled : Bool := false
  inCnt   : Nat := 0
  outCnt  : Nat := 0
  /-- Units still to calibrate after the reference settled, and those that have; R351; reset empty. -/
  settleQ : List Nat := []
  settleM : Nat := 0
  /-- CAL_PERIOD in s, DIAG_PERIOD in ms; Table 13.8; reset 600, 1,000. -/
  calPer  : Nat := 600
  diagPer : Nat := 1000
  /-- The turn of the automatic calibration and of the automatic level test; R355, R359; reset 0. -/
  calTurn : Nat := 0
  diagTurn : Nat := 0
  /-- The spare: calibrated, failed, the logical unit it serves, the unit it covers, calibrating; R336, R353, R362; reset
  not calibrated, not failed, none (failed and serving are kept in MRAM). -/
  spareCal : Bool := false
  spareBad : Bool := false
  spareFor : Option Nat := none
  covers  : Option Nat := none
  spareRun : Bool := false
  /-- Calibrations waiting for the spare, and the MEAS_CALIBRATE commands under way; R353, R367; reset empty. -/
  calQ    : List Nat := []
  jobs    : List CalJob := []
  /-- Tests of the test DAC, the first of which runs; R356; reset empty. -/
  tests   : List DacTest := []
  /-- The first test has started; R356; reset 0. -/
  testOn  : Bool := false
  /-- Calibrations and failed checks since boot; Table 13.10; reset 0. -/
  cals    : Nat := 0
  fails   : Nat := 0
  deriving DecidableEq, Repr

end Sys2Proof.Machine
end

