-- ==== Sys2Proof/Machine/StNet.lean ====
section
/-! DEFINITION. The state of the station networks and the host port (chapter 17) and of the PTP instances (R429). A field's
default is its value at reset; its comment names the rule. -/

namespace Sys2Proof.Machine

/-- NET_PORT_CONFIG (Table 17.11); `mac` 0 is the default address. -/
structure EthCfg where
  on   : Bool := false
  tenG : Bool := false
  auto : Bool := false
  mac  : Nat := 0
  deriving DecidableEq, Repr

/-- What a PTP instance sent last (R429). -/
inductive PtpTx where
  | sync (time : Stamp) (twoStep : Bool)
  | announce (id clockClass accuracy prio1 prio2 tsrc : Nat) (utcOffset : Int) (utcValid leap61 leap59 : Bool)
  | pdelayResp
  deriving DecidableEq, Repr

/-- A PTP instance: its parameters (Table 16.8), state 0 DISABLED, 1 LISTENING, 2 MASTER, 3 PASSIVE, the better clock's
identity and the messages sent last, newest first, at most two. -/
structure PtpPort where
  on      : Bool := false
  twoStep : Bool := false
  vlan    : Bool := false
  domain  : Nat := 0
  prio1   : Nat := 128
  prio2   : Nat := 128
  tsrc    : Nat := 0xA0
  vid     : Nat := 1
  pcp     : Nat := 4
  state   : Nat := 0
  better  : Nat := 0
  sent    : List PtpTx := []
  deriving DecidableEq, Repr

/-- A stream of NET_SV_CONFIG (Table 17.11). -/
structure SvCfg where
  on      : Bool := false
  port2   : Bool := false
  port3   : Bool := false
  test    : Bool := false
  localOk : Bool := false
  misInv  : Bool := false
  nasdu   : Nat := 1
  nval    : Nat := 8
  appid   : Nat := 0x4000
  dmac    : Nat := 0
  confRev : Nat := 1
  rate    : Nat := 4000
  miss    : Nat := 3
  dupWin  : Nat := 100
  svid    : Bytes := []
  deriving DecidableEq, Repr

/-- A sampled-value mapping (0 to 127) or a GOOSE mapping (128 to 191). -/
structure MapCfg where
  on   : Bool := false
  ignq : Bool := false
  src  : Nat := 0
  pos  : Nat := 0
  base : Nat := 1
  deriving DecidableEq, Repr

/-- A subscription of NET_GOOSE_CONFIG. -/
structure GsubCfg where
  on      : Bool := false
  test    : Bool := false
  ports   : Nat := 0
  appid   : Nat := 0
  dmac    : Nat := 0
  confRev : Nat := 1
  dupWin  : Nat := 100
  names   : Bytes := []
  deriving DecidableEq, Repr

/-- A publication of NET_GOOSE_CONFIG; `entries` the codes in order, zeros after the last. -/
structure GpubCfg where
  on      : Bool := false
  ports   : Nat := 0
  appid   : Nat := 0
  dmac    : Nat := 0
  confRev : Nat := 1
  tmin    : Nat := 2
  tmax    : Nat := 1000
  names   : Bytes := []
  entries : List Nat := []
  deriving DecidableEq, Repr

/-- One accepted ASDU: smpCnt, smpSynch, values with their qualities, and its sample instant in station time (2^-32 ns). -/
structure Asdu where
  cnt  : Nat
  sync : Nat
  vals : List (Int × Nat)
  time : Nat
  deriving DecidableEq, Repr

/-- A stream as it runs (R446 to R448), with its counts since boot. -/
structure SvRun where
  /-- The last accepted ASDU and the one before; R394, R446; reset none. -/
  last    : Option Asdu := none
  prev    : Option Asdu := none
  /-- MISS sample periods passed with no sample; R446; reset 0. -/
  missed  : Bool := false
  /-- First copies awaiting comparison: port, ASDU and time taken in µs; R447; reset empty. -/
  copies  : List (Nat × Asdu × Nat) := []
  /-- Compared samples that differ, and that agree, in a row; the A/B mismatch; R447; reset 0. -/
  differ  : Nat := 0
  agree   : Nat := 0
  mismatch : Bool := false
  /-- The stream was reported invalid; R460; reset 0. -/
  invalid : Bool := false
  /-- AGE in ns of the last sample to cross; R448; reset its largest value. -/
  age     : Nat := 0xFFFFFFFF
  accepted : Nat := 0
  gaps    : Nat := 0
  late    : Nat := 0
  compared : Nat := 0
  different : Nat := 0
  episodes : Nat := 0
  deriving DecidableEq, Repr

/-- A mapping as it crossed last (R445, R448, R451): value in Q3.28, valid, new sample. -/
structure MapRun where
  v     : Int := 0
  valid : Bool := false
  fresh : Bool := false
  mark  : Option Nat := none
  deriving DecidableEq, Repr

/-- A subscription as it runs (R449, R450). -/
structure GsubRun where
  stNum : Option Nat := none
  sqNum : Nat := 0
  port  : Nat := 0
  at_   : Nat := 0
  stale : Bool := true
  data  : List GMember := []
  differ : Nat := 0
  agree : Nat := 0
  mismatch : Bool := false
  episodes : Nat := 0
  discarded : Nat := 0
  deriving DecidableEq, Repr

/-- A publication as it runs (R452): state and sequence numbers, the values sent with their validity, the number of
retransmissions since the change, and the time allowed to live of the last frame in ms. -/
structure GpubRun where
  stNum : Nat := 0
  sqNum : Nat := 0
  vals  : List (GMember × Bool) := []
  sent  : Bool := false
  tries : Nat := 0
  next  : Nat := 0
  ttl   : Nat := 0
  deriving DecidableEq, Repr

/-- A copy of a safe message that waits for the other port's (R454). -/
structure SafeCopy where
  port : Nat
  pdu  : Bytes
  deriving DecidableEq, Repr

/-- A DMA stream (R457, R458). -/
structure DmaStream where
  on    : Bool := false
  irq   : Bool := false
  kind  : Nat := 0
  d     : Nat := 1
  base  : Nat := 0
  nrec  : Nat := 16
  tail  : Nat := 0
  sel   : Bytes := []
  /-- The next SEQ, and ticks to the next record; reset 0. -/
  seq   : Nat := 0
  wait  : Nat := 0
  /-- Records on their way to the host, oldest first; reset empty. -/
  queue : List (Nat × Bytes) := []
  drops : Nat := 0
  winDrop : Option Nat := none
  deriving DecidableEq, Repr

structure NetSt where
  /-- The four Ethernet ports; R440, R461; reset disabled. -/
  eth     : Tbl EthCfg := []
  /-- Ports up; R442; reset none. -/
  up      : List Nat := []
  /-- PTP instances by port; R429; reset disabled. -/
  ptp     : Tbl PtpPort := []
  /-- Active and shadow streams, mappings, subscriptions and publications (shadow set bit 8); R461; reset defaults. -/
  sv      : Tbl SvCfg := []
  svNew   : Tbl SvCfg := []
  map     : Tbl MapCfg := []
  mapNew  : Tbl MapCfg := []
  sub     : Tbl GsubCfg := []
  subNew  : Tbl GsubCfg := []
  pub     : Tbl GpubCfg := []
  pubNew  : Tbl GpubCfg := []
  svRun   : Tbl SvRun := []
  mapRun  : Tbl MapRun := []
  subRun  : Tbl GsubRun := []
  pubRun  : Tbl GpubRun := []
  /-- Copies of safe messages waiting, by connection; R454; reset empty. -/
  copies  : Tbl (List SafeCopy) := []
  dma     : Tbl DmaStream := []
  /-- Foreign frames, safe pairs discarded, DMA drops, since boot; R463; reset 0. -/
  foreign : Nat := 0
  safeOff : Nat := 0
  dmaDrops : Nat := 0
  deriving DecidableEq, Repr

end Sys2Proof.Machine
end

