-- ==== Sys2Proof/Machine/StProt.lean ====
section
/-! DEFINITION. The state of the protection engine and the disturbance records (chapter 15). A field's default is its value
at reset; its comment names the rule. Real values are whole counts of 2^-64. -/

namespace Sys2Proof.Machine

/-- A complex value, in 2^-64. -/
structure Cx where
  re : Int := 0
  im : Int := 0
  deriving DecidableEq, Repr

/-- Element states of Table 15.5, in the order of their codes. -/
inductive ElState where
  | disabled | idle | started | operated | unavailable | blocked
  deriving DecidableEq, Repr

/-- Parameters of an element instance (Table 15.10). -/
structure ElCfg where
  type   : Nat := 1
  on     : Bool := false
  fast   : Bool := false
  rev    : Bool := false
  ndFall : Bool := false
  pt     : Nat := 0
  qsel   : Nat := 7
  tmode  : Nat := 0
  rmode  : Nat := 0
  pu     : Nat := 0x10000000
  dr     : Nat := 15565
  nconf  : Nat := 1
  blkel  : Nat := 0xFF
  td     : Nat := 0
  tms    : Nat := 0x1000000
  trst   : Nat := 0
  rca    : Int := 4500
  angw   : Nat := 8500
  vpol   : Nat := 2684355
  memc   : Nat := 5
  twmask : Nat := 0
  confel : Nat := 0xFF
  deriving DecidableEq, Repr

/-- Parameters of a measurement point: 0 off, 1 AC, 2 DC. -/
structure PtCfg where
  kind   : Nat := 0
  hz60   : Bool := false
  sel    : List Nat := List.replicate 8 0xFFFF
  vmin   : Nat := 53687091
  fwin   : Nat := 2
  rocwin : Nat := 10
  ndc    : Nat := 8
  deriving DecidableEq, Repr

/-- A trip output's map entry. -/
structure TripCfg where
  on     : Bool := false
  latch  : Bool := false
  sup    : Bool := false
  tmin   : Nat := 100
  op     : Nat := 0
  st     : Nat := 0
  alarms : Nat := 0
  ttcs   : Nat := 400
  susp   : Nat := 500
  deriving DecidableEq, Repr

/-- One analogue channel of a record: point, signal, BASE in milli-units, unit. -/
structure AnCfg where
  pt   : Nat
  sig  : Nat
  base : Nat
  unit : Bytes
  deriving DecidableEq, Repr

/-- Disturbance record settings. -/
structure RecCfg where
  store  : Nat := 64
  pre    : Nat := 500
  post   : Nat := 1000
  maxLen : Nat := 5000
  retrig : Bool := true
  excess   : Bool := true
  opT    : Nat := 0
  stT    : Nat := 0
  tripT  : Nat := 0
  station : Bytes := []
  an     : List AnCfg := []
  deriving DecidableEq, Repr

/-- Everything of shadow set bit 6. -/
structure ProtSet where
  el    : Tbl ElCfg := []
  pt    : Tbl PtCfg := []
  trip  : Tbl TripCfg := []
  /-- User curve: M in Q8.24 and t in µs; empty means not loaded. -/
  curve : List (Nat × Nat) := []
  recs  : RecCfg := {}
  deriving DecidableEq, Repr

/-- An element instance as it runs. -/
structure ElRun where
  state  : ElState := .disabled
  /-- Definite timer in µs; R399; reset 0. -/
  timer  : Nat := 0
  /-- Inverse-time integrator, and µs that M has stayed below DR; R400; reset 0. -/
  integ  : Int := 0
  below  : Nat := 0
  /-- Fast-path confirmations in a row of each phase, pole or earth place; R399; reset none. -/
  conf   : Tbl Nat := []
  /-- Memory phasors of the polarising quantities by place, the slow cycles since each was taken, and those since it fell below
  VPOL_MIN; R396; reset none. -/
  memV   : Tbl (Cx × Nat × Nat) := []
  /-- Phase or pole flags and the quantity of the last evaluation; R407, R416; reset 0. -/
  phases : Nat := 0
  qty    : Int := 0
  deriving DecidableEq, Repr

/-- A point's derived quantities and histories (R393), newest first. -/
structure PtRun where
  /-- Samples of the eight signals at 8 kHz, in Q3.28, with validity; reset empty. -/
  hist  : List (List (Int × Bool)) := []
  /-- N of the DFT of the last cycle; reset 160, the 50 Hz length. -/
  n     : Nat := 160
  /-- Derived phasors and validity by signal; reset empty. -/
  ph    : List (Cx × Bool) := []
  v1    : List (Cx × Bool) := []
  /-- f in 2^-64 Hz with validity, newest first; reset empty. -/
  f     : List (Int × Bool) := []
  deriving DecidableEq, Repr

/-- A trip output as it runs (R402, R404). -/
structure TripRun where
  level  : Bool := false
  latch  : Bool := false
  tmin   : Bool := false      -- the minimum-pulse timer runs
  coil   : Bool := false
  demand : Bool := false
  rises  : Nat := 0
  riseTick : Nat := 0
  /-- When the minimum-pulse timer last started, and when the output last fell, in µs; R402, R404; reset 0, none. -/
  riseUs : Nat := 0
  fallUs : Option Nat := none
  deriving DecidableEq, Repr

/-- One trip-log entry (R407). -/
structure TripLog where
  time   : Stamp
  inst   : Nat
  type   : Nat
  phases : Nat
  outs   : Nat
  qty    : Nat
  tick   : Nat
  deriving DecidableEq, Repr

/-- One 8 kHz record sample (R409): analogue values and the 224 digital channels; none where it was written as missing. -/
structure RecSample where
  an  : List Int
  dig : Nat
  missing : Bool
  deriving DecidableEq, Repr

/-- A disturbance record (Table 15.8). -/
structure DRec where
  num     : Nat
  closed  : Bool := false
  trunc   : Bool := false
  retrig  : Bool := false
  unset   : Bool := false
  manual  : Bool := false
  tmq     : Nat := 0
  tTrig   : Stamp := {}
  cause   : Nat := 0
  preN    : Nat := 0
  left    : Nat := 0          -- post-trigger samples still to take
  samples : List RecSample := []   -- newest first
  cfg     : RecCfg := {}
  deriving DecidableEq, Repr

structure ProtSt where
  /-- A commit of bit 6 has taken effect since the last nPOR or cold reset; R390; reset 0. -/
  running : Bool := false
  /-- The engine has stopped; R391; reset 0. -/
  stopped : Bool := false
  /-- Active and shadow set (bit 6), and which parts are staged; R414; reset defaults, none. -/
  act     : ProtSet := {}
  shadow  : Option ProtSet := none
  el      : Tbl ElRun := []
  pt      : Tbl PtRun := []
  trip    : Tbl TripRun := []
  /-- New-sample marks of the MPR channels at the last fast cycle; R399; reset empty. -/
  seen    : Tbl Nat := []
  /-- The last slow cycle and the last fast cycle evaluated; R397, R435; reset none. -/
  slowK   : Option Nat := none
  fastK   : Option Nat := none
  /-- The trip log in MRAM, newest first, at most 256; R407; kept in MRAM, reset DESIGN CHOICE empty. -/
  log     : List TripLog := []
  /-- Record samples of the pre-trigger time, newest first; R409; reset empty. -/
  ring    : List RecSample := []
  /-- Records, oldest first, at most 64, and the next REC; R408; reset empty, 0. -/
  recs    : List DRec := []
  recNext : Nat := 0
  /-- Digital channels of the last sample, for rising triggers; R409; reset 0. -/
  lastDig : Nat := 0
  /-- TCS0 to TCS15 as last read; R404; reset 0. -/
  tcs     : Nat := 0
  /-- Triggers ignored without RETRIG, and triggers lost, since boot; R409; reset 0. -/
  ignored : Nat := 0
  lostT   : Nat := 0
  deriving DecidableEq, Repr

end Sys2Proof.Machine
end

