-- ==== Sys2Proof/Machine/StSafe.lean ====
section
/-! DEFINITION. The state of the safety functions (chapter 18): seal, configuration, ramp generator, main path, Mordant and
safe-message connections. A field's default is its value at reset; its comment names the rule. -/

namespace Sys2Proof.Machine

/-- Safety-function states (R471), in the order of their codes. -/
inductive SfState where
  | idle | ss1 | sto
  deriving DecidableEq, Repr

/-- A loaded safety configuration: SWCFG and the safety parameter block (R468). -/
structure SafeCfg where
  sw  : BitVec 8
  spb : Bytes
  deriving DecidableEq, Repr

/-- Ramp parameters (Table 18.7), Q3.28. -/
structure RampCfg where
  on     : Bool := false
  useSel : Bool := false
  tsel   : Nat := 0
  target : Int := 0
  vStart : Int := 0
  vStop  : Int := 0
  v1     : Int := 134217728
  a1     : Int := 26843546
  aMax   : Int := 26843546
  dMax   : Int := 26843546
  d1     : Int := 26843546
  deriving DecidableEq, Repr

/-- A receive connection as it runs (R486, R487). -/
structure RxConn where
  /-- SEQ of the last delivered message, 32 bits; R454; reset none. -/
  seq     : Option Nat := none
  /-- REQ of the last delivery; R487; reset 0. -/
  req     : Nat := 0
  /-- The watchdog runs, and it has expired; R486; reset 0. -/
  runs    : Bool := false
  expired : Bool := false
  deriving DecidableEq, Repr

/-- A send connection as it runs (R485). -/
structure TxConn where
  seq  : Nat := 0
  stat : Nat := 0
  pdu  : Bytes := []
  bad  : Bool := false      -- SAFE_CONN has been raised
  deriving DecidableEq, Repr

structure SafeSt where
  /-- SWCFG accepted, the value read last, and reads in a row in which the accepted value stood; R464; reset 0. -/
  sw      : BitVec 8 := 0
  swRead  : Option (BitVec 8) := none
  swAcc   : Bool := false
  swReads : Nat := 0
  /-- AON: the confirmed SWCFG and SPB CRC; R467; reset none (DESIGN CHOICE). -/
  confSw  : Option (BitVec 8) := none
  confCrc : Option Word32 := none
  /-- AON: the seal state, 0 to 3; R467; reset 0. -/
  sealSt  : Nat := 0
  /-- AON: the confirmation that stands beneath the tamper state: 0 unverified, 1 confirmed, 2 changed; R467; reset 0. -/
  sealBase : Nat := 0
  /-- The boot's check of the switches is done, and the reads it has waited; R469; reset 0. -/
  booted  : Bool := false
  bootReads : Nat := 0
  /-- Closed reads of the tamper loop in a row; R468; reset 0. -/
  closed  : Nat := 0
  /-- MRAM: the safety parameter block, 384 bytes; R466; reset DESIGN CHOICE zeros. -/
  spb     : Bytes := []
  /-- When a write last changed VSWCFG, SWCFG of the KX8-M3, in µs of converter tick time; R465, R468; reset none. -/
  vswUs   : Option Nat := none
  /-- The configuration loaded into the safety core and into Mordant; R468; reset none. -/
  cfg     : Option SafeCfg := none
  mcfg    : Option SafeCfg := none
  /-- The safety-function state; R471; reset IDLE. -/
  sf      : SfState := .idle
  /-- Latch causes since the last reset, Table 18.8a; reset 0. -/
  causes  : BitVec 8 := 0
  /-- t0 as a tick index and in µs of converter tick time, and the cause of the stop; R475; reset 0. -/
  t0      : Nat := 0
  t0Us    : Nat := 0
  stopCause : Nat := 0
  /-- q0 of the main path and of Mordant; R475; reset none. -/
  q0      : Option Int := none
  mq0     : Option Int := none
  /-- q and E of the last main-path cycle, Q3.28; Table 18.8a; reset 0. -/
  q       : Int := 0
  env     : Int := 0
  /-- Ramp parameters, and those waiting for the next input crossing; R492; reset defaults, none. -/
  ramp    : RampCfg := {}
  rampNew : Option RampCfg := none
  /-- v with 16 bits beyond Q3.28, the acceleration in Q3.28 per second, and the last valid target; R473; reset 0. -/
  v       : Int := 0
  acc     : Int := 0
  tgt     : Int := 0
  /-- The load angle δ in 2^-64 rad, unwrapped; R479; reset none. -/
  delta   : Option Int := none
  /-- The alarm episode, µs at or beyond DELTA_TRIP, µs of invalid inputs; R480; reset 0. -/
  alarm   : Bool := false
  slipUs  : Nat := 0
  badUs   : Nat := 0
  /-- A block request of the main path waits for its next cycle; R481; reset 0. -/
  req     : Bool := false
  /-- Heartbeat level towards Mordant; R481; reset 0. -/
  beat    : Bool := false
  /-- Main-path cycles beyond 20 µs since boot; Table 18.8a; reset 0. -/
  overruns : Nat := 0
  /-- Mordant's latch; R483; reset 0. -/
  mLatch  : Bool := false
  /-- Mordant's checks with q > E in a row, its own count of µs since t0; R475, R483; reset 0. -/
  mOver   : Nat := 0
  mUs     : Nat := 0
  mStop   : Bool := false
  /-- Mordant suspends its heartbeat watch for a warm reset; R483; reset 0. -/
  suspend : Bool := false
  /-- Mordant's heartbeat watch fails; R491; reset 0. -/
  beatLost : Bool := false
  rx      : Tbl RxConn := []
  tx      : Tbl TxConn := []
  deriving DecidableEq, Repr

end Sys2Proof.Machine
end

