-- ==== Sys2Proof/Machine/StRed.lean ====
section
/-! DEFINITION. The state of redundant pair operation (chapter 20). A field's default is its value at reset; its comment
names the rule. -/

namespace Sys2Proof.Machine

/-- Messages this unit sends over the cross-link (Table 20.2). -/
inductive XlMsg where
  | tick (m : XlTick) | mset (tick : Nat) (set : List XlChan) | commit (boundary mask crc : Nat)
  | state (disputed : Bool) (state cause boundary : Nat) | block (cause : Nat) | check (pass : Bool)
  | time (bases : List Nat) (qual bound : Nat) | handover (boundary : Nat)
  deriving DecidableEq, Repr

/-- How far RED_PAIR_FORM or RED_UNFENCE has come: the cross-link comes up, the clocks lock, installation ticks left. -/
inductive FormStep where
  | bringUp | lock | install (left : Nat)
  deriving DecidableEq, Repr

structure RedSt where
  /-- Own interface (false A), FOLLOW_TIME and A_x in 2^-6 ns, of RED_PAIR_FORM; Table 20.8; reset 0. -/
  onB      : Bool := false
  follow   : Bool := false
  ax       : Int := 0
  /-- The cross-link: up, lanes inverted, lane order reversed; R518; reset 0. -/
  up       : Bool := false
  inverted : BitVec 4 := 0
  reversed : Bool := false
  /-- The formation or unfencing under way: its opcode and step; R34, R534; reset none. -/
  form     : Option (Nat × FormStep) := none
  /-- The partner's PAIRSEL and variant code as exchanged; R34; reset 0. -/
  pSel     : Bool := false
  pVariant : Nat := 0
  /-- The partner's role and device-state codes, from its last TICK; Table 20.9; reset 0. -/
  pRole    : Nat := 0
  pState   : Nat := 0
  /-- Last D_x in 2^-6 ns; R520; reset 0. -/
  dx       : Int := 0
  /-- The active's base values of the last TIME; R520; reset empty. -/
  pBases   : List Nat := []
  /-- K and the domain mask in force, and those waiting for the next boundary; R527, R538; reset 4, all; none. -/
  k        : Nat := 4
  mask     : Nat := 0x1030FFF
  conf     : Option (Nat × Nat) := none
  /-- First tick that is compared since the formation, the rejoining or the last decision; R34 step 7, R536; reset 0. -/
  since    : Nat := 0
  /-- Own digests of the last output crossing: tick, digests by domain, and whether the tick counts as compared; R524; reset none. -/
  own      : Option (Nat × List (Nat × Nat) × Bool) := none
  /-- The partner's TICK that waits for this unit's own output crossing; R524; reset none. -/
  theirs   : Option XlTick := none
  /-- Mismatches in a row, by domain; R527; reset 0. -/
  runs     : Tbl Nat := []
  /-- Mismatched domain-ticks, the last domain and tick, since boot; Table 20.9; reset 0, none. -/
  mismatches : Nat := 0
  last     : Option (Nat × Nat) := none
  /-- The dispute: domain and boundary named; R527; reset none. -/
  dispute  : Option (Nat × Nat) := none
  /-- Disputes since boot; Table 20.9; reset 0. -/
  disputes : Nat := 0
  /-- Role before the dispute, and µs of converter tick time at entry; R528, R529; reset none, 0. -/
  before   : Option Role := none
  entered  : Nat := 0
  /-- Own and partner's self-check results; R529; reset none. -/
  check    : Option Bool := none
  pCheck   : Option Bool := none
  /-- The partner is silent; R531; reset 0. -/
  silent   : Bool := false
  /-- Tick of the last valid TICK, crossings in a row without one, ticks in a row with one; R531; reset none, 0. -/
  heard    : Option Nat := none
  missed   : Nat := 0
  good     : Nat := 0
  /-- Crossings in a row with cell evidence; R532; reset 0. -/
  evidence : Nat := 0
  /-- The boundary of a promotion by cell evidence, and that of one by the host; R532; reset none. -/
  promote  : Option Nat := none
  take     : Option Nat := none
  /-- A hand-over waiting for its boundary: boundary and whether this unit takes the role; R533; reset none. -/
  handover : Option (Nat × Bool) := none
  /-- Promotions since boot; Table 20.9; reset 0. -/
  promotions : Nat := 0
  /-- The active's measurement set waiting for this unit's crossing: tick and set, newest first, at most two; R526; reset empty. -/
  mset     : List (Nat × List XlChan) := []
  /-- The last crossing used the active's set; R524, R526; reset 0. -/
  used     : Bool := false
  /-- Late sets since boot and in the present window of 1,024 ticks, and the window's start; R526; reset 0, none. -/
  lateSets : Nat := 0
  lateWin  : Nat := 0
  lateTick : Option Nat := none
  /-- Start of the present window of RED_RECORD_SHORT; R525; reset none. -/
  shortTick : Option Nat := none
  /-- Whole-cell changes deferred to the following ticks; R525; reset empty. -/
  deferred : List (Nat × Nat) := []
  /-- The record to install before the next input crossing; R525; reset none. -/
  record   : Option XlRecord := none
  /-- The record installed at the last input crossing; R525, tap PAIR of Table 21.1; reset none. -/
  installed : Option XlRecord := none
  /-- Configuration digest at the last commit; R528; reset 0. -/
  digest   : Nat := 0
  /-- Messages sent since the last tick boundary, newest first; R519; reset empty. -/
  sent     : List XlMsg := []
  deriving DecidableEq, Repr

end Sys2Proof.Machine
end

