-- ==== Sys2Proof/Machine/StRec.lean ====
section
/-! DEFINITION. The state of the Galley recorder and of replay (chapter 21). A field's default is its value at reset; its
comment names the rule. -/

namespace Sys2Proof.Machine

/-- Recorder parameters (Table 21.10); RING_MIB is none until boot has found the DRAM. -/
structure GalleyCfg where
  flags : Nat := 0x05
  frzN  : Nat := 4
  ring  : Option Nat := none
  frz   : Nat := 1024
  dec   : Nat := 1024
  decN  : Nat := 1000
  img   : Nat := 16
  mask  : Nat := 0x7FE
  pre   : Nat := 40
  post  : Nat := 60
  trig  : Nat := 0x000F
  deriving DecidableEq, Repr

/-- A crossing journal entry (Table 21.3). -/
structure JEntry where
  kind   : Nat
  die    : Nat
  obj    : Nat
  detail : Nat
  seq    : Nat
  v      : Nat
  deriving DecidableEq, Repr

/-- The active parameter sets and the roster: what a configuration digest covers (step 6 of Table 1.7). -/
structure ActiveSets where
  t      : Nat
  loop   : Tbl LoopCfg
  arm    : Tbl ArmCfg
  sel    : Tbl SelCfg
  der    : Tbl DerateCfg
  gen    : Tbl GenCfg
  pair   : Tbl PairCfg
  cmp    : Tbl CmpCfg
  bind   : List (Tbl Binding)
  flow   : List (Tbl FlowCfg)
  cls    : Tbl ClassCfg
  chan   : Tbl MChanCfg
  seq    : Tbl MSeqCfg
  prot   : ProtSet
  safe   : List (Nat × Bool)
  sv     : Tbl SvCfg
  map    : Tbl MapCfg
  sub    : Tbl GsubCfg
  pub    : Tbl GpubCfg
  roster : Tbl Roster
  deriving DecidableEq, Repr

/-- What the CTL dies hold between ticks: the content of a state image (R548). -/
structure CtlImage where
  tick   : Nat
  sets   : ActiveSets
  aie    : AieSt
  pwm    : PwmSt
  loop   : LoopSt
  tiles  : TileAll
  cells  : Tbl CellCtx
  words  : Tbl Word32
  deriving DecidableEq, Repr

/-- The inputs of one tick as they crossed (Table 21.2). -/
structure TickIn where
  cells  : Tbl CellCtx
  offs   : Tbl Nat
  mset   : Tbl MSetChan
  net    : Tbl MapRun
  times  : List Nat
  state  : DevState
  role   : Role
  cause  : Nat
  fatal  : Bool
  cmp    : Bool
  mord   : Bool
  sto    : Bool
  v      : Int
  acc    : Int
  ramp   : Bool
  cancels : List (Nat × Cancel)
  events : List PwmEvent
  /-- Pairs whose trip latch is set. -/
  latches : List Nat
  record : Option XlRecord
  /-- The sets that a commit made active at the boundary before, and its mask. -/
  commit : Option (Nat × ActiveSets)
  deriving DecidableEq, Repr

/-- A tick block (R545): header fields, sections by tap code, and the values behind them that replay takes. -/
structure TickBlock where
  tick    : Nat
  key     : Bool := false
  hole    : Bool := false
  replay  : Bool := false
  image   : Bool := false
  state   : Nat := 0
  role    : Nat := 0
  time    : Stamp := {}
  /-- Sections in order: tap code and payload. -/
  secs    : List (Nat × Bytes) := []
  /-- The same sections in key form, for the decimated ring (R551). -/
  keySecs : List (Nat × Bytes) := []
  inputs  : Option TickIn := none
  journal : List JEntry := []
  digests : List (Nat × Nat) := []
  /-- A HOLE marker block stands for blocks overwritten before they were copied (R550). -/
  marker  : Bool := false
  deriving DecidableEq, Repr

/-- A freeze slot (R549, R550, Table 21.6). -/
structure Freeze where
  edition : Nat := 0
  variant : Nat := 0
  dies    : Nat := 0
  tcode   : Nat := 0
  flags   : Nat := 0
  cause   : Nat := 0
  first   : Nat := 0
  image   : Nat := 0
  t       : Nat := 0
  last    : Nat := 0
  bytes   : Nat := 0
  digest  : Nat := 0
  /-- The last tick of the span, and the next tick to copy. -/
  until_  : Nat := 0
  next    : Nat := 0
  filling : Bool := false
  blocks  : List TickBlock := []
  start   : Option CtlImage := none
  merged  : Nat := 0
  /-- The data of an image loaded from the host, as bytes. -/
  raw     : Option Bytes := none
  deriving DecidableEq, Repr

/-- A replay armed or running (R553 to R556). -/
structure Replay where
  slot    : Nat
  stop    : Nat
  onDiv   : Bool
  boundary : Nat
  image   : Nat
  /-- Recorded tick replayed next, ticks replayed, differing domain-ticks, the first, and domains of the present run. -/
  tick    : Nat
  done    : Nat := 0
  diverged : Nat := 0
  first   : Option (Nat × Nat) := none
  run     : List Nat := []
  outcome : Option Nat := none
  saved   : Option CtlImage := none
  deriving DecidableEq, Repr

/-- CRC-32C over the active sets and the roster: the spec does not lay out their bytes (step 6 of Table 1.7). -/
opaque Config.configDigest : ActiveSets → Word32

/-- CRC-32C of a comparison domain over its values in order: the spec does not give their widths (Table 20.3). -/
opaque Config.domainCrc : Nat → List Int → Word32

/-- Payload of a tap that the spec names but does not lay out (Table 21.1), by tap code and values in order. -/
opaque Config.tapLayout : Nat → List Int → Bytes

/-- Payload of the tap COMMIT: the mask and the full content of every set that moved to active, which the spec does not lay out. -/
opaque Config.commitLayout : Nat → ActiveSets → Bytes

/-- The bytes of a state image (R548), which the spec does not lay out. -/
opaque Config.imageData : CtlImage → Bytes

/-- The tick blocks and the image that the data of a loaded slot stand for (R553), read against the layouts above. -/
opaque Config.loadedBlocks : Bytes → List TickBlock

opaque Config.loadedImage : Bytes → Option CtlImage

structure GalleyRec where
  /-- Parameters; R559; reset defaults. -/
  cfg     : GalleyCfg := {}
  /-- A tap bit was cleared with no slots: later freezes carry INCOMPLETE; R561; reset 0. -/
  partTaps : Bool := false
  /-- The block of the present tick, being assembled; R545; reset none. -/
  cur     : Option TickBlock := none
  /-- The tap buffer: whole blocks waiting for DRAM, oldest first; R544; reset empty. -/
  buf     : List TickBlock := []
  /-- The live ring, newest first; R545; reset empty. -/
  ring    : List TickBlock := []
  /-- The decimated ring, newest first; R551; reset empty. -/
  dec     : List TickBlock := []
  /-- Freeze slots; R549; reset empty. -/
  slots   : Tbl Freeze := []
  /-- Complete state images held, newest first; R548; reset empty. -/
  images  : List CtlImage := []
  /-- The image being drained: bytes left, and whether a section was lost; R548; reset none. -/
  draining : Option (CtlImage × Nat × Bool) := none
  /-- Taps that the next block carries in key form, CELL ports likewise, and ticks lost in a row; R544; reset 0. -/
  keyTaps : Nat := 0
  keyPorts : Nat := 0
  lostRun : Nat := 0
  /-- The next block carries HOLE_BEFORE and is a key block; R544, R552; reset 0. -/
  holeNext : Bool := false
  /-- Ticks with a hole since boot; Table 21.12; reset 0. -/
  holes   : Nat := 0
  /-- Tick of the last REC_HOLE of each tap; Table 21.9; reset none. -/
  holeWin : Tbl Nat := []
  /-- Prediction of each cell: last report recorded and its tick, by CID; R546; reset none. -/
  pred    : Tbl (Word64 × Nat) := []
  /-- Journal entries of the present tick, oldest first; R542; reset empty. -/
  journal : List JEntry := []
  /-- In replay, the recorded entries of the crossing being replayed, and a publication that was not ready; R554; reset empty, 0. -/
  journalIn : List JEntry := []
  lateIn  : Bool := false
  /-- Commits whose sets became active at the last boundary: mask; Table 21.1; reset 0. -/
  commitMask : Nat := 0
  /-- What the LNKSTAT and TIME taps recorded last: state code and offset by port, health and cause by 4096 + CID; the
  increments and values of bases 1 and 2; Table 21.1; reset empty. -/
  lnk     : Tbl (Nat × Nat) := []
  incs    : List Nat := []
  vals    : List Nat := []
  /-- Block lengths of the last 1,024 ticks, newest first; Table 21.12; reset empty. -/
  lens    : List Nat := []
  /-- The replay armed or running; R553; reset none. -/
  replay  : Option Replay := none
  deriving DecidableEq, Repr

end Sys2Proof.Machine
end

