-- ==== Sys2Proof/Machine/StSpare.lean ====
section
/-! DEFINITION. The state of the clock-domain crossings (chapter 22), of spares and wear, of the temperature sensors and of
the monitors (chapter 23). A field's default is its value at reset; its comment names the rule. -/

namespace Sys2Proof.Machine

/-- One crossing of Table 22.2 (R564 to R571). -/
structure Crossing where
  /-- Value register of the source, the occurrences or the value that the handshake carries; R564; reset DESIGN CHOICE empty. -/
  value    : List (List Int) := []
  /-- Pending register or pending count; R565, R568; reset empty. -/
  pend     : List (List Int) := []
  /-- Request line, acknowledge line, and the acknowledge that the source has seen; R564; reset equal, no handshake open. -/
  req      : Bool := false
  ack      : Bool := false
  seen     : Bool := false
  /-- What the destination captured last; R564, R570; reset DESIGN CHOICE empty. -/
  dest     : List (List Int) := []
  /-- Overrun flag, occurrences lost, and the tick of the last CDC_OVERRUN; R569; reset 0, 0, none. -/
  overrun  : Bool := false
  lost     : Nat := 0
  since    : Option Nat := none
  /-- A handshake is stalled; R566; reset 0. -/
  stalled  : Bool := false
  /-- The destination marks its last value held; R570; reset 0. -/
  held     : Bool := false
  /-- An episode of disagreeing sample pairs has been reported; R567; reset 0. -/
  unstable : Bool := false
  deriving DecidableEq, Repr

/-- A physical resource of Table 23.1 (R578): state code (none where the owning unit shows it), cause of the last change,
errors since boot. -/
structure Resource where
  st     : Option Nat := none
  serves : Option Nat := none
  cause  : Nat := 0
  corr   : Nat := 0
  bad    : Nat := 0
  /-- Instants, in s, of the corrected and of the uncorrectable errors within their windows; R579; reset empty. -/
  corrAt : List Nat := []
  badAt  : List Nat := []
  deriving DecidableEq, Repr

/-- What a monitor keeps (R589): all but the settings. -/
structure MonVals where
  count : Nat := 0
  min   : Int := 0
  max   : Int := 0
  sum   : Int := 0
  last  : Int := 0
  start : Nat := 0
  bins  : Tbl Nat := []
  deriving DecidableEq, Repr

structure Monitor where
  /-- Settings of MON_ATTACH; R592; reset 0. -/
  on      : Bool := false
  signed  : Bool := false
  point   : Nat := 0
  lo      : Nat := 0
  w       : Nat := 0
  limit   : Nat := 0
  /-- The values counted since the last reset of the monitor; R589; reset 0. -/
  vals    : MonVals := {}
  /-- The values as latched by the last read of MONm_COUNT_LO; R591; reset 0. -/
  latch   : MonVals := {}
  /-- LIMIT_HIT, and a count stopped at its limit; Table 23.8; reset 0. -/
  hit     : Bool := false
  stopped : Bool := false
  /-- Samples above LIMIT in the present window of 1,024 ticks, and its start; R590; reset 0, none. -/
  excess    : Nat := 0
  overWin : Option Nat := none
  deriving DecidableEq, Repr

/-- A thermal watch of one die (R586). -/
structure Thermal where
  hot  : Nat := 0
  cool : Nat := 0
  high : Bool := false
  /-- Milliseconds of operation, and at or above T_WARN; R586; reset kept in MRAM, DESIGN CHOICE 0. -/
  ms    : Nat := 0
  hotMs : Nat := 0
  /-- Readings at or above 125 °C latched as a THERMTRIP fatal fault; R41; reset 0. -/
  trip : Bool := false
  deriving DecidableEq, Repr

structure SpareSt where
  /-- Physical resources, by kind * 2^24 + die * 2^16 + index; R578; reset the default assignment (kept in MRAM). -/
  res     : Tbl Resource := []
  /-- Thresholds set: count and window, by id 1 to 6; R579, R586; reset defaults (kept in MRAM). -/
  thr     : Tbl (Nat × Nat) := []
  /-- Failed resources whose spare is to be brought in: kind, die, physical retired, spare, cause; R582; reset empty. -/
  waiting : List (Nat × Nat × Nat × Nat × Nat) := []
  /-- Loop lane whose known-answer test is next, by die; R581; reset 0. -/
  lane    : Tbl Nat := []
  /-- SRAM rows remapped: die, block, memory, row; R578; reset empty (kept in MRAM). -/
  rows    : List (Nat × Nat × Nat × Nat) := []
  /-- Bad blocks of 1 MiB on DRAM channels A and B; R584; reset 0 (kept in MRAM). -/
  badA    : Nat := 0
  badB    : Nat := 0
  /-- DRAM blocks, as 2 * block + channel: those marked bad, and those whose row was repaired; R582, R584; reset empty (kept). -/
  badBlocks : List Nat := []
  ddrRows : List Nat := []
  /-- MRAM sectors by physical number: the logical sector held and the time of the last write in hours; R583; reset own. -/
  sectors : Tbl (Nat × Nat) := []
  /-- MRAM contents given way: wear records, trip log, Colophon copy; Table 23.4; reset 0. -/
  given   : Nat := 0
  /-- Thermal watch, by die; R586. -/
  thermal : Tbl Thermal := []
  /-- The monitors; R589; reset as Table 23.8. -/
  mon     : Tbl Monitor := []
  /-- The crossings, by die * 65536 + instance * 256 + code; R573; reset running. -/
  cdc     : Tbl Crossing := []
  deriving DecidableEq, Repr

end Sys2Proof.Machine
end

