-- ==== Sys2Proof/Machine/StTime.lean ====
section
/-! DEFINITION. The state of the time-base unit (chapter 16). A field's default is its value at reset; its comment names
the rule. Times are whole counts of 2^-32 ns; a binary64 value is held as its whole count of 2^-1074. -/

namespace Sys2Proof.Machine

/-- One time base: its value, and its increment per TIME-domain cycle (R417). -/
structure TimeBase where
  val : Nat := 0
  inc : Nat := 0x200000000
  deriving DecidableEq, Repr

/-- Quality of station time (Table 16.4). -/
inductive TQual where
  | unset | free | restored | locked | holdover | holdoverOut
  deriving DecidableEq, Repr

/-- Discipline states (Table 16.3). -/
inductive DiscState where
  | off | acquire | locked | holdover | refusing
  deriving DecidableEq, Repr

/-- Discipline parameters (Table 16.8). -/
structure DiscCfg where
  mode      : Bool := false
  falling   : Bool := false
  linkTrack : Bool := true
  tc        : Nat := 64
  stepMax   : Nat := 1000
  lockWin   : Nat := 100
  holdRate  : Nat := 50
  accLim    : Nat := 1000
  ppsComp   : Int := 0
  deriving DecidableEq, Repr

/-- Parameters of one PPS or IRIG-B output (Table 16.8). -/
structure TOutCfg where
  on      : Bool := false
  invert  : Bool := false
  runFree : Bool := false
  suppress : Bool := false
  rate    : Nat := 0
  width   : Nat := 100000
  offset  : Int := 0
  localMin : Int := 0
  deriving DecidableEq, Repr

/-- Parameters of one TS_IN input (Table 16.8). -/
structure StampCfg where
  on     : Bool := false
  rise   : Bool := false
  fall   : Bool := false
  filter : Nat := 0
  comp   : Int := 0
  deriving DecidableEq, Repr

/-- One stamp of the queue (R433). -/
structure TsEntry where
  time  : Stamp
  input : Nat
  rise  : Bool
  lost  : Bool
  deriving DecidableEq, Repr

/-- The IRIG-B frame sent last (R431): UTC with the local offset in seconds, the validity of UTC, the time quality
code, leap pending and leap sign. -/
structure IrigFrame where
  utc    : Int
  valid  : Bool
  tmq    : Nat
  leap   : Bool
  sub    : Bool
  format : Nat
  deriving DecidableEq, Repr

structure TimeSt where
  /-- The bases have started; R419; reset 0. -/
  started : Bool := false
  /-- Bases 0 station, 1 converter tick, 2 cell link, 3 recorder; R417; reset value 0, increment nominal. -/
  bases   : Tbl TimeBase := []
  /-- TBn_INC_LO as last written, 32 bits; R420; reset 0. -/
  incLo   : Tbl Nat := []
  /-- TBn_TIME as latched by the last read of TBn_TIME_LO, 96 bits; R420; reset 0. -/
  latch   : Tbl Stamp := []
  /-- TIME_STAT.INC_ERR, 4 bits; R420; reset 0. -/
  incErr  : BitVec 4 := 0
  /-- TIME_STAT.STAMP_LOST; R433; reset 0. -/
  stampLost : Bool := false
  /-- TIME_STAT.QUAL; R421; reset UNSET. -/
  qual    : TQual := .unset
  /-- The error bound at its start and the seconds since; B is the bound in force; R421; reset 0. -/
  b0      : Nat := 0
  bSecs   : Nat := 0
  bound   : Nat := 0
  /-- Discipline parameters; R437; reset defaults. -/
  cfg     : DiscCfg := {}
  /-- TIME_STAT.DSTATE; R423; reset OFF. -/
  dstate  : DiscState := .off
  /-- The next pulse is a first pulse, or the first after ACCEPT; R423, R424; reset 0. -/
  first   : Bool := false
  accept  : Bool := false
  /-- Servo state i and y in ns/s; R423; reset 0. -/
  servoI  : Int := 0
  servoY  : Int := 0
  /-- y of the last accepted pulses, newest first, at most 64; R425; reset empty. -/
  ys      : List Int := []
  /-- Consecutive pulses inside the lock window, and accepted pulses outside it; R423; reset 0. -/
  inWin   : Nat := 0
  outWin  : Nat := 0
  /-- Offsets of the outliers in a row, newest first, in 1/8 ns; outliers discarded; R424; reset empty, 0. -/
  outs    : List Int := []
  discarded : Nat := 0
  /-- Pulses within STEP_MAX in a row while REFUSING; R424; reset 0. -/
  goodRun : Nat := 0
  /-- TIME_STAT.STEP_REFUSED, and steps refused since boot; R424; reset 0. -/
  refused : Bool := false
  refusals : Nat := 0
  /-- TIME_STAT.PPS_OK; R425; reset 0. -/
  ppsOk   : Bool := false
  /-- An offset waiting for its decision, in 1/8 ns, and the last offset; R422; reset none, 0. -/
  theta   : Option Int := none
  lastTheta : Int := 0
  /-- TAI−UTC in seconds, UTC_VALID, and an announced leap: +1 or −1 and its TAI second; R428; reset 0, 0, none. -/
  taiUtc  : Int := 0
  utcValid : Bool := false
  leap    : Option (Int × Nat) := none
  /-- Seconds of power-off found at boot; R427; reset 0. -/
  offSecs : Nat := 0
  /-- Outputs 0 to 3 PPS_OUTn and 4 IRIGB_OUT; R437; reset defaults (IRIG-B format 7). -/
  outs16  : Tbl TOutCfg := [(4, { rate := 7 })]
  /-- PPS pulses now active, and, by output, the ns of station time behind the last edge or frame served; R430, R435; reset none. -/
  pulse   : List Nat := []
  servedN : Tbl Nat := []
  /-- The IRIG-B frame sent last; R431; reset none. -/
  irig    : Option IrigFrame := none
  /-- Edge stamping of the inputs; R437; reset defaults. -/
  stampCfg : Tbl StampCfg := []
  /-- Levels that returned within FILTER, by input; R432; reset 0. -/
  ignored : Tbl Nat := []
  /-- The stamp queue, oldest first, at most 1,024; R433; reset empty. -/
  stamps  : List TsEntry := []
  /-- A stamp was lost and the next to enter carries the lost flag; R433; reset 0. -/
  lostNext : Bool := false
  /-- Station second of the last TIME_STAMP_LOST; Table 16.7a; reset none. -/
  lostSec : Option Nat := none
  /-- The stamp latched by the last read of TS_LO; R420; reset none (VALID reads 0). -/
  tsLatch : Option TsEntry := none
  deriving DecidableEq, Repr

end Sys2Proof.Machine
end

