-- ==== Sys2Proof/Machine/State.lean ====
section
/-! DEFINITION. The whole state of the block, its faults and refusals, and the state after reset. -/

namespace Sys2Proof.Machine

/-- The state of the KX8: one part per unit of the spec, the queue of waiting commands, host memory as written by the
device, and the counter of free values. -/
structure State where
  /-- Commands waiting, first in first out; the model's own; reset empty. -/
  pending : List Instr := []
  /-- The model's own counter of free values drawn; reset DESIGN CHOICE 0. -/
  freeCtr : Nat := 0
  /-- Host memory as the device has written it by DMA (response rings, buffers); R82, R90; reset empty. -/
  host    : List Host.Cell := []
  dev     : Dev := {}
  power   : Power := {}
  mb      : Mailboxes := {}
  tick    : TickSt := {}
  fault   : FaultSt := {}
  link    : LinkSt := {}
  cells   : CellsSt := {}
  aie     : AieSt := {}
  pwm     : PwmSt := {}
  loop    : LoopSt := {}
  tiles   : TileAll := {}
  meas    : MeasSt := {}
  time    : TimeSt := {}
  acq     : AcqSt := {}
  prot    : ProtSt := {}
  net     : NetSt := {}
  safe    : SafeSt := {}
  red     : RedSt := {}
  galley  : GalleyRec := {}
  spare   : SpareSt := {}
  deriving DecidableEq, Repr

/-- The machine stops: no meaning of this model raises one (every command of the table has an effect or leaves the
state as it is). The one reason is kept for a command that the block could not carry out at all. Safe. -/
inductive Fault where
  | stopped
  deriving DecidableEq, Repr

/-- A refusal by name. -/
inductive Refusal where
  /-- The command has no meaning in this model yet; raised by `exec`'s refused arms only. Safe. -/
  | notModelled (mnemonic : String)
  deriving DecidableEq, Repr

/-- The block right after reset: nPOR has just risen, the device is in BOOT (Table 3.11, row 0). That change of state has its entry in the
command log and its event waiting (R100, R105). -/
def State.reset : State :=
  { mb := { log := [{ seq := 0, tick := 0, opcode := 0, b10 := 1, b11 := 1, mb := 0xFF, state := 1, role := 0 }], logSeq := 1 }
    fault := { waiting := [{
      die := 0, block := 0x001, kind := 0x01, cls := .notice, addr := 0, tick := 0, d := [1, 1], injected := false, interim := false }] } }

end Sys2Proof.Machine
end

