-- ==== Sys2Proof/Machine/Operands.lean ====
section
/-! DEFINITION. Reading operands: byte order, the parameter bytes of a mailbox command (Table 4.7), CRC-32C (R89) and
sparse tables. Every multi-byte field is little-endian. -/

namespace Sys2Proof.Machine

open Sys2Proof

/-! ### Sparse tables -/

/-- What the table holds at `k`, `d` where it lists nothing. -/
def tget {α : Type} (d : α) (t : Tbl α) (k : Nat) : α :=
  match t with
  | [] => d
  | (i, v) :: r => if i = k then v else tget d r k

/-- The table with `v` at `k`, kept in rising order. -/
def tset {α : Type} (t : Tbl α) (k : Nat) (v : α) : Tbl α :=
  match t with
  | [] => [(k, v)]
  | (i, w) :: r => if k < i then (k, v) :: (i, w) :: r else if i = k then (k, v) :: r else (i, w) :: tset r k v

def tupd {α : Type} (d : α) (t : Tbl α) (k : Nat) (f : α → α) : Tbl α := tset t k (f (tget d t k))

/-- The table without an entry at `k`. -/
def tdel {α : Type} (t : Tbl α) (k : Nat) : Tbl α := t.filter (fun e => e.1 != k)

def thas {α : Type} (t : Tbl α) (k : Nat) : Bool := t.any (fun e => e.1 == k)

/-! ### Bytes -/

/-- `n` bytes of `x`, least significant first. -/
def le (n x : Nat) : Bytes :=
  match n with
  | 0 => []
  | m + 1 => BitVec.ofNat 8 x :: le m (x / 256)

/-- `n` bytes of a signed value in two's complement. -/
def leS (n : Nat) (x : Int) : Bytes := le n (x % (2 ^ (8 * n) : Nat)).toNat

/-- The unsigned value of the `n` bytes at `off`; bytes beyond the end read zero. -/
def rd (p : Bytes) (off n : Nat) : Nat :=
  match n with
  | 0 => 0
  | m + 1 => (p.getD off 0).toNat + 256 * rd p (off + 1) m

/-- The value of an `n`-byte two's-complement field. -/
def rdS (p : Bytes) (off n : Nat) : Int :=
  let x := rd p off n
  if x < 2 ^ (8 * n - 1) then x else (x : Int) - (2 ^ (8 * n) : Nat)

/-- Every byte from `off` on, `n` of them, is zero (a reserved field, R7). -/
def zeros (p : Bytes) (off n : Nat) : Bool := rd p off n == 0

/-- The bytes cut or filled with zeros to length `n`. -/
def fit (n : Nat) (p : Bytes) : Bytes := p.take n ++ List.replicate (n - p.length) 0

def bit (x i : Nat) : Bool := x.testBit i

def b2n (b : Bool) : Nat := if b then 1 else 0

/-- A mask with bit `i` set for each `i` of the list. -/
def maskOf (l : List Nat) : Nat := l.foldl (fun m i => m ||| (1 <<< i)) 0

/-! ### CRC-32C (R89) -/

def crcBit (c : Word32) : Word32 := if c.getLsbD 0 then (c >>> 1) ^^^ 0x82F63B78#32 else c >>> 1

def crcByte (c : Word32) (b : Byte) : Word32 :=
  crcBit (crcBit (crcBit (crcBit (crcBit (crcBit (crcBit (crcBit (c ^^^ b.setWidth 32))))))))

def crc32c (p : Bytes) : Word32 := (p.foldl crcByte 0xFFFFFFFF#32) ^^^ 0xFFFFFFFF#32

/-- A 32-bit body enters a link CRC as four bytes, least significant first (R137). -/
def crcWords (ws : List Word32) : Word32 := crc32c (ws.flatMap (fun w => le 4 w.toNat))

/-! ### Mailbox parameters -/

end Sys2Proof.Machine

namespace Sys2Proof

open Machine

def Cmd.isExt (c : Cmd) : Bool := c.flags.getLsbD 0

/-- The block length an entry declares (PARAM bytes 8 to 11, R87). -/
def Cmd.blockLen (c : Cmd) : Nat := rd c.param 8 4

/-- The parameter bytes: the external block, or LENGTH bytes of the entry. -/
def Cmd.params (c : Cmd) : Bytes := if c.isExt then c.block else c.param.take c.length

/-- Check 3 for a command of `n` inline bytes. -/
def Cmd.inl (c : Cmd) (n : Nat) : Bool := !c.isExt && c.length == n

/-- The limits of R87 on an external block. -/
def Cmd.extLimits (c : Cmd) : Bool :=
  c.length == 12 && 4 ≤ c.blockLen && c.blockLen ≤ 1048576 && c.blockLen % 4 == 0

/-- Check 3 for a command whose block has one of the lengths `ok` allows. -/
def Cmd.extLen (c : Cmd) (ok : Nat → Bool) : Bool := c.isExt && c.extLimits && ok c.blockLen

/-- The reserved fields of the entry itself read zero (Table 4.7, R7). -/
def Cmd.entryReserved (c : Cmd) : Bool :=
  c.flags.toNat < 2 && c.rsvd == 0 && (!c.isExt || (rd c.param 0 8 % 64 == 0 && zeros c.param 16 32))

def Cmd.u8 (c : Cmd) (o : Nat) : Nat := rd c.params o 1

def Cmd.u16 (c : Cmd) (o : Nat) : Nat := rd c.params o 2

def Cmd.u32 (c : Cmd) (o : Nat) : Nat := rd c.params o 4

def Cmd.u64 (c : Cmd) (o : Nat) : Nat := rd c.params o 8

def Cmd.s8 (c : Cmd) (o : Nat) : Int := rdS c.params o 1

def Cmd.s16 (c : Cmd) (o : Nat) : Int := rdS c.params o 2

def Cmd.s32 (c : Cmd) (o : Nat) : Int := rdS c.params o 4

/-- Reserved parameter bytes `o` to `o + n - 1` are zero. -/
def Cmd.rsv (c : Cmd) (o n : Nat) : Bool := zeros c.params o n

/-- A buffer address is 64-byte aligned and not zero. -/
def Cmd.buf (c : Cmd) (o : Nat) : Bool := c.u64 o % 64 == 0 && c.u64 o != 0

end Sys2Proof

namespace Sys2Proof.Machine

/-! ### Rounding and saturation (R12) -/

/-- The nearest integer to `n / d`, ties to even (`d > 0`). -/
def roundDiv (n : Int) (d : Nat) : Int :=
  let q := n / d
  let r := n % d
  if 2 * r < d then q else if 2 * r > d then q + 1 else if q % 2 = 0 then q else q + 1

/-- Saturate to a signed `w`-bit value. -/
def satS (w : Nat) (x : Int) : Int :=
  let m : Int := (2 ^ (w - 1) : Nat)
  if x < -m then -m else if x ≥ m then m - 1 else x

/-- Saturate to an unsigned `w`-bit value. -/
def satU (w : Nat) (x : Int) : Nat :=
  if x < 0 then 0 else if x ≥ (2 ^ w : Nat) then 2 ^ w - 1 else x.toNat

def clampI (lo hi x : Int) : Int := if x < lo then lo else if x > hi then hi else x

/-- Characters of a zero-padded name are ASCII. -/
def asciiOk (p : Bytes) : Bool := p.all (fun b => b.toNat < 128)

/-- A count that stays at 2^32 - 1. -/
def inc32 (n : Nat) : Nat := min (n + 1) 0xFFFFFFFF

end Sys2Proof.Machine
end

