-- ==== Sys2Proof/Machine/Ops.lean ====
section
/-! DEFINITION. The operations the meanings share: what is fitted, host memory, responses and checks of the mailbox
protocol (chapter 4), raising fault messages (chapter 19), triggers of a state change. -/

namespace Sys2Proof.Machine

open Sys2Proof

/-- Every command of this model answers a next state; the meanings are written through this. -/
abbrev Out := Host.Outcome State Fault Refusal

/-! ### One part of the state at a time -/

def State.onDev (s : State) (f : Dev → Dev) : State := { s with dev := f s.dev }

def State.onPower (s : State) (f : Power → Power) : State := { s with power := f s.power }

def State.onMb (s : State) (f : Mailboxes → Mailboxes) : State := { s with mb := f s.mb }

def State.onTick (s : State) (f : TickSt → TickSt) : State := { s with tick := f s.tick }

def State.onFault (s : State) (f : FaultSt → FaultSt) : State := { s with fault := f s.fault }

def State.onLink (s : State) (f : LinkSt → LinkSt) : State := { s with link := f s.link }

def State.onCells (s : State) (f : CellsSt → CellsSt) : State := { s with cells := f s.cells }

def State.onAie (s : State) (f : AieSt → AieSt) : State := { s with aie := f s.aie }

def State.onPwm (s : State) (f : PwmSt → PwmSt) : State := { s with pwm := f s.pwm }

def State.onLoop (s : State) (f : LoopSt → LoopSt) : State := { s with loop := f s.loop }

def State.onTiles (s : State) (f : TileAll → TileAll) : State := { s with tiles := f s.tiles }

def State.onMeas (s : State) (f : MeasSt → MeasSt) : State := { s with meas := f s.meas }

def State.onTime (s : State) (f : TimeSt → TimeSt) : State := { s with time := f s.time }

def State.onAcq (s : State) (f : AcqSt → AcqSt) : State := { s with acq := f s.acq }

def State.onProt (s : State) (f : ProtSt → ProtSt) : State := { s with prot := f s.prot }

def State.onNet (s : State) (f : NetSt → NetSt) : State := { s with net := f s.net }

def State.onSafe (s : State) (f : SafeSt → SafeSt) : State := { s with safe := f s.safe }

def State.onRed (s : State) (f : RedSt → RedSt) : State := { s with red := f s.red }

def State.onGalley (s : State) (f : GalleyRec → GalleyRec) : State := { s with galley := f s.galley }

def State.onSpare (s : State) (f : SpareSt → SpareSt) : State := { s with spare := f s.spare }

def State.onHost (s : State) (f : List Host.Cell → List Host.Cell) : State := { s with host := f s.host }

/-- Update the counter of free values. -/
def State.onFree (s : State) (f : Nat → Nat) : State := { s with freeCtr := f s.freeCtr }

/-- Draw a free value: nothing is known of it (assumption 1). -/
def State.draw (s : State) : Nat × State := (Config.freeValue s.freeCtr, { s with freeCtr := s.freeCtr + 1 })

def when (b : Bool) (f : State → State) (s : State) : State := if b then f s else s

/-! ### Codes -/

def DevState.code : DevState → Nat
  | .powerDown => 0 | .boot => 1 | .config => 2 | .standby => 3 | .deblocked => 4 | .safeStop => 5
  | .blockedFault => 6 | .replay => 7 | .factoryTest => 8

def DevState.all : List DevState :=
  [.powerDown, .boot, .config, .standby, .deblocked, .safeStop, .blockedFault, .replay, .factoryTest]

def Role.code : Role → Nat
  | .active => 0 | .standby => 1 | .fenced => 2 | .disputed => 3

def Status.code : Status → Nat
  | .ok => 0 | .pending => 1 | .badOpcode => 0x101 | .badLength => 0x102 | .badParam => 0x103 | .notFitted => 0x104
  | .wrongState => 0x105 | .sealed => 0x106 | .busy => 0x107 | .conflict => 0x108 | .exhausted => 0x109
  | .jumpRefused => 0x10A | .tripActive => 0x10B | .crcFail => 0x10C | .timeout => 0x10D | .roleDenied => 0x10E

def FClass.code : FClass → Nat
  | .notice => 0 | .corrected => 1 | .contained => 2 | .fatal => 3

def Variant.code : Variant → Nat
  | .m8 => 0x08 | .m5 => 0x05 | .m3 => 0x03 | .m2 => 0x02

/-- FW_EDITION: 3.1 with the ROM's build (R81). -/
def fwEdition : Nat := 0x00030100 + Config.romBuild.toNat

/-! ### What is fitted (R2, R14, R102) -/

/-- The dies of a variant, numbered as in Table 19.1: 0 SYS, 1 and 2 CTL, 3 MPR, 4 to 7 LNK. -/
def Variant.dies : Variant → List Nat
  | .m8 => [0, 1, 2, 3, 4, 5, 6, 7] | .m5 => [0, 1, 3, 4, 5] | .m3 => [0, 1, 4] | .m2 => [0, 3]

/-- The die is fitted and not declared failed. -/
def dieOk (s : State) (d : Nat) : Bool := s.dev.variant.dies.contains d && !s.power.dieFailed.contains d

def mprOk (s : State) : Bool := dieOk s 3

def ctlOk (s : State) (n : Nat) : Bool := n < 2 && dieOk s (1 + n)

/-- A CTL die number beyond 1 is a parameter out of range; one of 0 and 1 must be fitted. -/
def ctlFit (s : State) (d : Nat) : Bool := s.dev.variant != .m2 && (2 ≤ d || ctlOk s d)

def anyCtl (s : State) : Bool := ctlOk s 0 || ctlOk s 1

/-- Arms 0 to 5 belong to CTL0, 6 to 11 to CTL1 (R11). -/
def armOk (s : State) (a : Nat) : Bool := a < 12 && ctlOk s (a / 6)

def isM2 (s : State) : Bool := s.dev.variant == .m2

/-- The die of a port (R16). -/
def portDie (p : Nat) : Nat := 4 + p / 8

/-! ### Units of the tick -/

/-- Slots per port (R10). -/
def slotsOf (t : Nat) : Nat := min (64 * t) 128

/-- The minimum commit lead in ticks (Table 5.1). -/
def leadOf (t : Nat) : Nat := 20 / t

/-- Execution offset steps of 250 ps in a tick (Table 5.1). -/
def stepsOf (t : Nat) : Nat := 4000 * t

/-- Cells per arm at most (Table 5.1). -/
def armCells (t : Nat) : Nat := if t = 1 then 256 else 768

/-- Ticks in a number of microseconds, at least that long. -/
def ticksIn (s : State) (us : Nat) : Nat := (us + s.tick.len - 1) / s.tick.len

/-- Converter tick time of the last boundary, in microseconds. -/
def State.nowUs (s : State) : Nat := s.tick.index * s.tick.len

/-! ### Host memory -/

/-- The byte at `a`, if the device has written it. -/
def memRead (m : List Host.Cell) (a : Nat) : Option Byte :=
  match m with
  | [] => none
  | (i, b) :: r => if i = a then some b else memRead r a

/-- Write one byte; the list stays strictly rising. -/
def memWrite (m : List Host.Cell) (a : Nat) (b : Byte) : List Host.Cell :=
  match m with
  | [] => [(a, b)]
  | (i, c) :: r => if a < i then (a, b) :: (i, c) :: r else if i = a then (a, b) :: r else (i, c) :: memWrite r a b

/-- Write bytes from `a` up; addresses are 64 bits wide. -/
def memWrites (m : List Host.Cell) (a : Nat) (p : Bytes) : List Host.Cell :=
  match p with
  | [] => m
  | b :: r => memWrites (memWrite m (a % 2 ^ 64) b) (a + 1) r

/-- The canonical form of memory: strictly rising addresses. -/
abbrev Memory.wf (m : List Host.Cell) : Prop := m.Pairwise (fun x y => x.1 < y.1)

/-- Write a result buffer into host memory (R90). -/
def putBuf (a : Nat) (p : Bytes) (s : State) : State := s.onHost (fun m => memWrites m a p)

/-- A buffer with its CRC-32C behind it. -/
def withCrc (p : Bytes) : Bytes := p ++ le 4 (crc32c p).toNat

/-- BAR0 and host memory are reached only while the device is powered and the host port is up (R62, R75, Table 4.11). -/
def barOn (s : State) : Bool := s.dev.state != .powerDown && s.power.hostUp

/-! ### Raising fault messages (R496 to R499) -/

/-- Hand a message to the fabric: at most four of a block wait, a further one is merged; a FATAL message never waits
behind another (R498). An absent die raises nothing (R102). -/
def post (m : FaultMsg) (s : State) : State :=
  if m.cls == .fatal then
    s.onFault (fun f => { f with
      waiting := f.waiting.filter (fun x => x.cls == .fatal) ++ m :: f.waiting.filter (fun x => x.cls != .fatal) })
  else if !dieOk s m.die then s
  else if 4 ≤ (s.fault.waiting.filter (fun x => x.die == m.die && x.block == m.block && x.cls != .fatal)).length then
    s.onFault (fun f => { f with
      merged := tupd 0 f.merged (m.die * 512 + m.block) (· + 1), overrun := true, mergedAll := inc32 f.mergedAll })
  else s.onFault (fun f => { f with waiting := f.waiting ++ [m] })

/-- Raise a message: die, block, kind, class, ADDR and detail words. -/
def raise (die block kind : Nat) (cls : FClass) (addr : Nat) (d : List Nat) (s : State) : State :=
  post { die := die, block := block, kind := kind, cls := cls, addr := addr, tick := s.tick.index,
         d := d.map (· % 2 ^ 32), injected := false, interim := false } s

/-- Old and new value as one detail word (R499). -/
def pairWord (old new : Nat) : Nat := old * 256 + new

/-- A signed value as a detail word. -/
def word32 (x : Int) : Nat := (x % (2 ^ 32 : Nat)).toNat

/-- A guarantee of rank `rank` gives way to `dest` in this tick, for a cause of Table 19.8 and one object (R28, R511). -/
def giveWay (cause obj rank dest : Nat) (s : State) : State :=
  s.onFault (fun f =>
    if f.episodes.any (fun e => e.cause == cause && e.obj == obj && e.rank == rank) then
      { f with episodes := f.episodes.map (fun e =>
        if e.cause == cause && e.obj == obj && e.rank == rank then { e with last := s.tick.index, items := e.items + 1 } else e) }
    else { f with
      episodes := f.episodes ++ [⟨cause, obj, rank, dest, s.tick.index, s.tick.index, 1, 0⟩], epCount := inc32 f.epCount })

/-- The first happening in each 1,024 ticks: none lies within the 1,024 ticks before. An index below that of the last happening is one after a
change of T, which begins a new window (DEDUCED, assumption 143). -/
def firstIn (last : Option Nat) (now : Nat) : Bool := last.all (fun t => now < t || 1024 ≤ now - t)

/-! ### Crossing journal (R542, R554) -/

/-- A replay runs: the unit's own models are put aside (R554). -/
def replaying (s : State) : Bool := s.galley.replay.any (fun r => r.saved.isSome)

/-- Note an outcome that tile timing decided; a replay makes no entries of its own. -/
def journal (kind die obj detail seq v : Nat) (s : State) : State :=
  if replaying s then s
  else s.onGalley (fun g => { g with journal := g.journal ++ [⟨kind, die, obj, detail, seq, v⟩] })

/-- The recorded journal of the crossing being replayed holds this entry. -/
def journalled (s : State) (e : JEntry) : Bool := s.galley.journalIn.contains e

/-! ### The cross-link (R519) -/

/-- The role the unit works in: its own, and during a dispute the one before it (R528). -/
def workRole (s : State) : Role := if s.dev.role = .disputed then s.red.before.getD .disputed else s.dev.role

/-- Send a message to the partner of a formed pair. -/
def xlSend (m : XlMsg) (s : State) : State := if s.dev.paired && s.red.up then s.onRed (fun r => { r with sent := m :: r.sent }) else s

/-! ### Command log (R100) -/

def logAdd (opcode b10 b11 mb : Nat) (s : State) : State :=
  s.onMb (fun m => { m with
    log := ({ seq := m.logSeq, tick := s.tick.index, opcode := opcode, b10 := b10, b11 := b11, mb := mb,
              state := s.dev.state.code, role := s.dev.role.code } :: m.log).take 1024,
    logSeq := m.logSeq + 1 })

/-! ### Responses (R85, R88) -/

def mbGet (s : State) (n : Nat) : MbBlock := tget {} s.mb.blocks n

def mbUpd (n : Nat) (f : MbBlock → MbBlock) (s : State) : State :=
  s.onMb (fun m => { m with blocks := tupd {} m.blocks n f })

/-- The 64 bytes of a response entry as written in the state and role of that moment (Table 4.8). -/
def Response.bytes (r : Response) (st : DevState) (ro : Role) : Bytes :=
  withCrc (le 2 r.opcode ++ le 2 r.tag ++ le 2 r.status.code ++ le 1 (b2n r.final) ++ le 1 r.seq ++ le 4 r.tick ++
    le 1 st.code ++ le 1 ro.code ++ le 2 r.result.length ++ fit 44 r.result)

/-- The response ring of the mailbox has room (R85). -/
def ringRoom (b : MbBlock) : Bool := (b.rspTail - b.rspHead).toNat < 64

/-- Where response index `rspTail` lies: slot index modulo 64 of the ring. -/
def rspAddr (b : MbBlock) : Nat := b.rspBase.toNat + 64 * (b.rspTail.toNat % 64)

/-- Write a response entry into its ring, advance the tail and signal the vector where IRQ_EN is set. -/
def writeRsp (r : Response) (s : State) : State :=
  let b := mbGet s r.mb
  let s1 := putBuf (rspAddr b) (r.bytes s.dev.state s.dev.role) s
  let s2 := mbUpd r.mb (fun x => { x with rspTail := x.rspTail + 1 }) s1
  if b.ctrl.getLsbD 1 then s2.onMb (fun m => { m with msix := r.mb :: m.msix }) else s2

/-- Answer: write the response, or hold it while the ring is full or another is held. -/
def respond (r : Response) (s : State) : State :=
  let b := mbGet s r.mb
  if ringRoom b && b.held.isEmpty && barOn s then writeRsp r s
  else mbUpd r.mb (fun x => { x with held := x.held ++ [r] }) s

/-- ENABLED falls once EN is 0 and the last final response has been written (R83). -/
def settle (n : Nat) (s : State) : State :=
  let b := mbGet s n
  if b.enabled && !b.ctrl.getLsbD 0 && b.held.isEmpty && !s.mb.pend.any (fun p => p.mb == n) &&
      !(s.mb.inHand.any (fun f => f.mb == n)) then
    mbUpd n (fun x => { x with enabled := false }) s
  else s

/-! ### Checks 2 to 9 of Table 4.9 -/

/-- What a command's definition gives the checks: opcode, whether MB0 or MB1 to MB7 serve it, whether it is of the TEST
group, and for each check whether it passes. -/
structure Gate where
  opcode : Nat
  mb0    : Bool := false
  mb17   : Bool := true
  test   : Bool := false
  len    : Bool
  fitted : Bool := true
  legal  : DevState → Bool
  roles  : Role → Bool := fun _ => true
  permit : Bool := true
  par    : Bool := true
  free   : Bool := true
  pends  : Bool := false
  info   : Bytes := []

/-- The commands that FACTORY_TEST does not take over from CONFIG (R104), and RED_ROLE_HANDOVER, whose Legal column shuts
FACTORY_TEST out (Table 20.8). -/
def notInTest : List Nat := [0x0103, 0x1104, 0x1001, 0x7F01, 0x1002]

/-- Legal in the state; FACTORY_TEST takes over what is legal in CONFIG (R104). -/
def Gate.legalIn (g : Gate) (st : DevState) : Bool :=
  g.legal st || (st == .factoryTest && g.legal .config && !notInTest.contains g.opcode)

/-- The mask of legal states (R107). -/
def Gate.mask (g : Gate) : Nat := maskOf ((DevState.all.filter g.legalIn).map DevState.code)

/-- Commands of a mailbox answered PENDING and not yet final (Table 4.6). -/
def pendCount (s : State) (n : Nat) : Nat := (s.mb.pend.filter (fun p => p.mb == n && !p.first)).length

/-- An object is held by a command until its final response (R93). -/
def held (s : State) (o : Obj) : Bool := s.mb.pend.any (fun p => p.objs.contains o)

/-- The first of checks 2 to 9 that fails (R95, Table 4.9). -/
def Gate.fail (g : Gate) (c : Cmd) (s : State) : Option Status :=
  if (if c.mb = 0 then !g.mb0 else !g.mb17) || (g.test && !s.power.straps.ftest) then some .badOpcode
  else if !g.len then some .badLength
  else if !g.fitted then some .notFitted
  else if !g.legalIn s.dev.state then some .wrongState
  else if !g.roles s.dev.role then some .roleDenied
  else if !g.permit then some .sealed
  else if !(g.par && c.entryReserved) then some .badParam
  else if !g.free || (g.pends && 8 ≤ pendCount s c.mb) then some .busy
  else none

/-- What a command answers: the state it leaves, its status and its result bytes; `later` where its one response
follows within 1 ms, when its effect has come about (R93). -/
structure Reply where
  st     : State
  status : Status
  result : Bytes
  later  : Bool := false

def okReply (s : State) (r : Bytes) : Reply := ⟨s, .ok, r, false⟩

/-- A response to command `c`. -/
def rspOf (opcode : Nat) (c : Cmd) (st : Status) (tick : Nat) (result : Bytes) : Response :=
  { mb := c.mb, opcode := opcode, tag := c.tag.toNat, seq := c.seq.toNat, status := st, final := st != .pending,
    tick := tick, result := result.take 44 }

/-- The command in hand is this one. -/
def Fetched.of (f : Fetched) (mb tag seq : Nat) : Bool := f.mb == mb && f.tag == tag && f.seq == seq

/-- The command has its first response: it is in hand no longer (R92). -/
def release (mb tag seq : Nat) (s : State) : State := s.onMb (fun m => { m with inHand := m.inHand.filter (fun f => !f.of mb tag seq) })

/-- The command stays in hand until its one response (R92, R93). -/
def awaitFirst (opcode : Nat) (c : Cmd) (s : State) : State :=
  let own := fun (f : Fetched) => f.of c.mb c.tag.toNat c.seq.toNat
  s.onMb (fun m => { m with
    inHand := some ((m.inHand.filter own).getD ⟨c.mb, opcode, c.tag.toNat, c.seq.toNat, s.tick.index⟩)
    pend := m.pend.map (fun p => if p.mb == c.mb.val && p.tag == c.tag.toNat && p.seq == c.seq.toNat then { p with first := true } else p) })

/-- Write the first response of a command, log a status other than OK and PENDING (R100), release the command in hand. -/
def answer (opcode : Nat) (c : Cmd) (st : Status) (result : Bytes) (s : State) : State :=
  let s1 := respond (rspOf opcode c st s.tick.index result) s
  let s2 := if st == .ok || st == .pending then s1 else logAdd opcode (st.code % 256) (st.code / 256) c.mb s1
  settle c.mb (release c.mb c.tag.toNat c.seq.toNat s2)

/-- The mailboxes answer BUSY while the device boots or a warm reset runs (R86). -/
def booting (s : State) : Bool := s.dev.state == .boot

/-- A mailbox command: nothing in POWER_DOWN, BUSY while booting, else the checks in order and then the action. -/
def runCmd (g : Gate) (c : Cmd) (s : State) (act : State → Reply) : Out :=
  if s.dev.state == .powerDown then .next s
  else if booting s then .next (answer g.opcode c .busy [] s)
  else
    match g.fail c s with
    | some .wrongState => .next (answer g.opcode c .wrongState (le 2 g.mask) s)
    | some st => .next (answer g.opcode c st g.info s)
    | none =>
      if (act s).later then .next (awaitFirst g.opcode c (act s).st)
      else .next (answer g.opcode c (act s).status (act s).result (act s).st)

/-- Register a command as PENDING with the objects it holds (R93). -/
def goPending (g : Gate) (c : Cmd) (objs : List Obj) (arg : Nat) (work : Option (Status × Bytes)) (s : State) : State :=
  s.onMb (fun m => { m with pend := m.pend ++ [{
    mb := c.mb, opcode := g.opcode, tag := c.tag.toNat, seq := c.seq.toNat, objs := objs,
    legal := DevState.all.filter g.legalIn, took := work.isSome, arg := arg,
    work := work, outcome := none }] })

/-- Give every PENDING command that matches and has no outcome its outcome; FINAL_RESPONSE writes it. -/
def endPending (p : PendingCmd → Bool) (st : Status) (result : Bytes) (s : State) : State :=
  s.onMb (fun m => { m with pend := m.pend.map (fun x =>
    if p x && x.outcome.isNone then { x with outcome := some (st, result, s.tick.index) } else x) })

/-- Mark PENDING commands that match as having taken effect (R98). -/
def tookPending (p : PendingCmd → Bool) (s : State) : State :=
  s.onMb (fun m => { m with pend := m.pend.map (fun x => if p x then { x with took := true } else x) })

/-! ### Legal columns -/

def anyState : DevState → Bool := fun _ => true

def notBoot : DevState → Bool := fun st => st != .boot && st != .powerDown

def inStates (l : List DevState) : DevState → Bool := fun st => l.contains st

def actStby : Role → Bool := fun r => r == .active || r == .standby

def onlyActive : Role → Bool := fun r => r == .active

/-! ### Triggers of Table 4.12 -/

def addTrigger (dest : DevState) (cause boundary : Nat) (s : State) : State :=
  s.onDev (fun d => { d with triggers := d.triggers ++ [{ dest := dest, cause := cause, boundary := boundary }] })

/-- Mark shadow set `n` as holding a staged change and keep the write for its CRC (R123, R125). -/
def stage (n : Nat) (p : Bytes) (s : State) : State :=
  s.onTick (fun t => { t with staged := t.staged ||| (1#9 <<< n), writes := tupd [] t.writes n (p :: ·) })

/-- A RED_PAIR_FORM or RED_UNFENCE without its final response holds every shadow set and the roster (R539). -/
def pairHolds (s : State) : Bool := s.mb.pend.any (fun p => p.opcode == 0x1001 || p.opcode == 0x1003)

/-- Shadow set `n` is held by an armed commit (R125) or by a formation (R539). -/
def setHeld (s : State) (n : Nat) : Bool := s.tick.commits.any (fun c => c.mask.getLsbD n) || pairHolds s

end Sys2Proof.Machine
end

