-- ==== Sys2Proof/Machine/TimeOps.lean ====
section
/-! DEFINITION. Shared operations of the time-base unit (chapter 16): the 96-bit format, binary64 arithmetic of the servo,
quality and error bound, steps and stamps. -/

namespace Sys2Proof.Machine

open Sys2Proof

/-! ### The 96-bit format (R13) -/

/-- One second, in 2^-32 ns. -/
def secUnits : Nat := 1000000000 * 2 ^ 32

/-- A base's value in the 96-bit format; the fraction below FRAC is never read (R417). -/
def stampOf (v : Nat) : Stamp := { sec := v / secUnits, nsec := v / 2 ^ 32 % 1000000000, frac := v / 2 ^ 16 % 65536 }

end Sys2Proof.Machine

namespace Sys2Proof

open Machine

def Stamp.val (t : Stamp) : Nat := t.sec * secUnits + t.nsec * 2 ^ 32 + t.frac * 2 ^ 16

def Stamp.bits (t : Stamp) : Nat := t.sec % 2 ^ 48 * 2 ^ 48 + t.nsec * 2 ^ 18 + t.frac * 4

def Stamp.bytes (t : Stamp) : Bytes := le 12 t.bits

/-- A time value in parameter bytes. -/
def Cmd.stamp (c : Cmd) (o : Nat) : Stamp :=
  let x := rd c.params o 12
  { sec := x / 2 ^ 48, nsec := x / 2 ^ 18 % 2 ^ 30, frac := x / 4 % 65536 }

/-- The nanoseconds field is valid and the reserved bits are zero (R13, R7). -/
def Cmd.stampOk (c : Cmd) (o : Nat) : Bool := (c.stamp o).nsec < 1000000000 && rd c.params o 1 % 4 == 0

end Sys2Proof

namespace Sys2Proof.Machine

/-! ### Bases -/

def base (s : State) (n : Nat) : TimeBase := tget {} s.time.bases n

def baseUpd (n : Nat) (f : TimeBase → TimeBase) (s : State) : State :=
  s.onTime (fun t => { t with bases := tupd {} t.bases n f })

/-- Station time `d` of converter tick time after the last boundary; both in 2^-32 ns (R417). -/
def stationAt (s : State) (d : Int) : Nat := ((base s 0).val + roundDiv (d * (base s 0).inc) (base s 1).inc).toNat

/-- Station time as it stands. -/
def stationNow (s : State) : Stamp := stampOf (base s 0).val

/-- Station time is unset (R419). -/
def timeUnset (s : State) : Bool := s.time.qual == .unset

/-- The bases advance by `us` microseconds of converter tick time; the LNK dies' copy of cell-link time follows (R417, R419). -/
def advanceTime (us : Nat) (s : State) : State :=
  let d := us * 1000 * 2 ^ 32
  let adv := fun (n : Nat) (t : State) => baseUpd n (fun b => { b with val := b.val + (roundDiv ((d * b.inc : Nat) : Int) (base s 1).inc).toNat }) t
  if !s.time.started then s
  else
    let s1 := adv 3 (adv 2 (adv 1 (adv 0 s)))
    s1.onLink (fun l => { l with linkTime := BitVec.ofNat 56 ((base s1 2).val / 2 ^ 26) })

/-! ### Codes -/

def TQual.code : TQual → Nat
  | .unset => 0 | .free => 1 | .restored => 2 | .locked => 3 | .holdover => 4 | .holdoverOut => 5

def DiscState.code : DiscState → Nat
  | .off => 0 | .acquire => 1 | .locked => 2 | .holdover => 3 | .refusing => 4

/-- PTP clockClass (Table 16.4). -/
def TQual.clockClass : TQual → Nat
  | .unset => 0 | .free => 248 | .restored => 248 | .locked => 6 | .holdover => 7 | .holdoverOut => 52

/-- tmq_code (R421). -/
def tmqCode (s : State) : Nat :=
  match s.time.qual with
  | .unset => 0xF
  | .locked => 0
  | _ => ((List.range 11).find? (fun n => s.time.bound ≤ 10 ^ n)).elim 0xB (· + 1)

/-- TIMEREF_OK (Table 16.3). -/
def timerefOk (s : State) : Bool :=
  s.power.straps.trefsel && s.power.pll.contains 6 && !s.power.refLost.contains 1 && !s.power.timeOnRef

/-- TIME_STAT (Table 16.3). -/
def timeStat (s : State) : Nat :=
  let t := s.time
  t.qual.code * 2 ^ 20 + t.dstate.code * 2 ^ 17 + b2n t.refused * 2 ^ 16 + b2n t.ppsOk * 2 ^ 15 + b2n (timerefOk s) * 2 ^ 14 +
    b2n t.leap.isSome * 2 ^ 13 + b2n t.utcValid * 2 ^ 12 + b2n t.stampLost * 16 + t.incErr.toNat

def timeEvent (kind : Nat) (d : List Nat) (s : State) : State := raise 0 0x010 kind .notice 0 d s

/-- A 64-bit value as two detail words. -/
def words64 (x : Int) : List Nat :=
  let n := (x % (2 ^ 64 : Nat)).toNat
  [n % 2 ^ 32, n / 2 ^ 32]

/-! ### binary64 (R423), in units of 2^-1074 -/

/-- The binary64 value nearest to n / d units, ties to even. -/
def f64Fix (n : Int) (d : Nat) : Int :=
  let l := (n.natAbs / d).log2 + 1
  if l ≤ 53 then roundDiv n d else roundDiv n (d * 2 ^ (l - 53)) * (2 ^ (l - 53) : Nat)

def f64Add (x y : Int) : Int := f64Fix (x + y) 1

def f64DivN (x : Int) (n : Nat) : Int := f64Fix x n

def f64Mul (x y : Int) : Int := f64Fix (x * y) (2 ^ 1074)

def f64Of (n : Int) (d : Nat) : Int := f64Fix (n * (2 ^ 1074 : Nat)) d

/-- The increment for a rate y in ns/s: round(2^33 (1 + y · 1e-9)). -/
def incOfRate (y : Int) : Nat := (roundDiv (f64Add (f64Of 1 1) (f64Mul y (f64Of 1 1000000000)) * (2 ^ 33 : Nat)) (2 ^ 1074)).toNat

/-- The mean of a list of rates. -/
def meanRate (l : List Int) : Int := f64DivN (l.foldl f64Add 0) l.length

/-! ### Quality and error bound (R421) -/

/-- Offsets in 1/8 ns as whole ns. -/
def theta8 (x : Int) : Int := roundDiv x 8

/-- Take a new quality, with TIME_QUALITY when it changes. -/
def setQual (q : TQual) (b : Nat) (s : State) : State :=
  let s1 := s.onTime (fun t => { t with qual := q, bound := b })
  if q = s.time.qual then s1 else timeEvent 0x01 (pairWord s.time.qual.code q.code :: words64 b) s1

/-- Quality and bound as Table 16.4 has them in the discipline's present state. -/
def requal (s : State) : State :=
  let t := s.time
  let b := t.b0 + t.cfg.holdRate * t.bSecs
  match t.qual with
  | .unset => s
  | .free | .restored => if t.dstate = .locked then setQual .locked t.cfg.lockWin s else setQual t.qual b s
  | .locked | .holdover | .holdoverOut =>
    if t.dstate = .locked then setQual .locked t.cfg.lockWin s
    else if b ≤ t.cfg.accLim then setQual .holdover b s
    else setQual .holdoverOut b s

/-! ### Steps and the discipline -/

/-- Step station time by `d` in 2^-32 ns; cause 0 set, 1 alignment, 2 accept (Table 16.7a). -/
def stepTime (d : Int) (cause : Nat) (s : State) : State :=
  timeEvent 0x02 (words64 (roundDiv d (2 ^ 32)) ++ [Config.openCode 0x1002 cause])
    (baseUpd 0 (fun b => { b with val := (b.val + d).toNat }) s)

/-- Hold the increment at the mean of y over the last 64 accepted pulses (R425). -/
def freezeInc (s : State) : State :=
  if s.time.ys.isEmpty then s else baseUpd 0 (fun b => { b with inc := incOfRate (meanRate s.time.ys) }) s

/-- The servo takes an accepted offset (the pseudocode of R423): `th` as measured, `fed` what remains after a step. -/
def servo (th fed : Int) (s : State) : State :=
  let t := s.time
  let f := fed * (2 ^ 1071 : Nat)
  let y0 := - f64Add (f64DivN (2 * f) t.cfg.tc) t.servoI
  let i := f64Add t.servoI (f64DivN f (t.cfg.tc * t.cfg.tc))
  let y := clampI (f64Of (-100000) 1) (f64Of 100000 1) y0
  let inside := decide (th.natAbs ≤ 8 * t.cfg.lockWin)
  let inW := if inside then t.inWin + 1 else 0
  let outW := if inside then 0 else t.outWin + 1
  let ds : DiscState :=
    if t.dstate = .locked then (if 4 ≤ outW then .acquire else .locked)
    else if 16 ≤ inW then .locked
    else .acquire
  let kept := t.qual == .locked || t.qual == .holdover || t.qual == .holdoverOut || ds == .locked
  let s1 := s.onTime (fun x => { x with
    servoI := i, servoY := y, ys := (y :: x.ys).take 64, inWin := inW, outWin := outW,
    dstate := ds, first := false, accept := false, outs := [], goodRun := 0,
    b0 := if kept then (theta8 fed).natAbs else x.b0, bSecs := if kept then 0 else x.bSecs })
  requal (baseUpd 0 (fun b => { b with inc := incOfRate y }) s1)

/-! ### Stamps (R432, R433) -/

/-- A stamp enters the queue and signals vector 9 (R456), or is lost. -/
def stampAdd (e : TsEntry) (s : State) : State :=
  let t := s.time
  if t.stamps.length < 1024 then
    (s.onTime (fun x => { x with stamps := x.stamps ++ [{ e with lost := x.lostNext }], lostNext := false })).onMb
      (fun m => { m with msix := 9 :: m.msix })
  else
    let sec := (stationNow s).sec
    let s1 := s.onTime (fun x => { x with lostNext := true, stampLost := true, lostSec := some sec })
    if t.lostSec = some sec then s1 else timeEvent 0x06 [e.input] s1

/-- TS_INFO of a stamp (Table 16.2). -/
def TsEntry.info (e : TsEntry) : Nat := 2 ^ 31 + b2n e.lost * 2 ^ 30 + b2n e.rise * 32 + e.input % 32

def TsEntry.bytes (e : TsEntry) : Bytes := e.time.bytes ++ le 4 e.info

/-! ### Increment writes (R420, R520) -/

/-- A standby that takes station time from its partner: discipline OFF, PTP instances LISTENING; also while it is DISPUTED. -/
def followsTime (s : State) : Bool := s.dev.paired && workRole s == .standby && s.red.follow

/-- A write of TBn_INC_HI applies the 40-bit value, or is refused with INC_ERR: out of range, or the base is steered. -/
def tbIncWrite (n : Nat) (value : Word32) (s : State) : State :=
  let inc := value.toNat % 256 * 2 ^ 32 + tget 0 s.time.incLo n
  let slave := s.dev.paired && workRole s == .standby && (n == 1 || n == 2 || (n == 0 && s.red.follow))
  let owned := slave || (n == 0 && s.time.cfg.mode) || (n == 2 && s.time.cfg.linkTrack)
  if owned ∨ inc < 0x1FFF2E48F ∨ 0x2000D1B71 < inc then s.onTime (fun t => { t with incErr := t.incErr ||| (1#4 <<< n) })
  else baseUpd n (fun b => { b with inc := inc }) s

end Sys2Proof.Machine
end

