-- ==== Sys2Proof/Machine/AcqOps.lean ====
section
/-! DEFINITION. Shared operations of the travelling-wave acquisition engine (chapter 14). -/

namespace Sys2Proof.Machine

open Sys2Proof

def acqCfg (s : State) (c : Nat) : AcqCfg := tget {} s.acq.cfg c

def acqGet (s : State) (c : Nat) : AcqCh := tget {} s.acq.ch c

def acqUpd (c : Nat) (f : AcqCh → AcqCh) (s : State) : State := s.onAcq (fun a => { a with ch := tupd {} a.ch c f })

def acqEvent (kind : Nat) (cls : FClass) (addr : Nat) (d : List Nat) (s : State) : State := raise 3 0x039 kind cls addr d s

def AcqState.code : AcqState → Nat
  | .disarmed => 0 | .armed => 1 | .capturing => 2 | .rearming => 3 | .full => 4 | .done => 5

/-- The stored sample of a raw code (R370). -/
def storedOf (k : AcqCfg) (code : Int) : Int := clampI (-2048) 2047 ((if k.invert then -1 else 1) * (code - k.offs))

/-! ### Triggers (R374, R377) -/

/-- A crossing of level `c` in a quantity, newest first: rising or falling, armed by `hyst` among the values of the ARMED
period; answers p, the place of the crossing after sample n − 1 in 1/64 ns. -/
def crossing (rising : Bool) (c : Int) (hyst : Nat) (q : List Int) : Option Nat :=
  match q with
  | b :: a :: rest =>
    if rising then
      if a < c ∧ c ≤ b ∧ (a :: rest).any (fun v => v ≤ c - hyst) then some (roundDiv (256 * (c - a)) (b - a).toNat).toNat else none
    else
      if a > c ∧ c ≥ b ∧ (a :: rest).any (fun v => c + hyst ≤ v) then some (roundDiv (256 * (a - c)) (a - b).toNat).toNat else none
  | _ => none

/-- The channel's own trigger at sample n. -/
def ownTrigger (k : AcqCfg) (st : TwStream) (cmps : List Nat) : Option Nat :=
  let x := st.raw.map (storedOf k)
  let up := k.dir == 0 || k.dir == 2
  let down := k.dir == 1 || k.dir == 2
  let look := fun (q : List Int) (lo : Int) =>
    ((if up then crossing true k.th k.hyst q else none).orElse (fun _ => if down then crossing false lo k.hyst q else none))
  match k.kind with
  | 0 => if 2 ≤ st.armed then look (x.take st.armed) k.th else none
  | 1 =>
    let d := List.zipWith (fun a b => a - b) x (x.drop k.ds)
    if 2 ≤ st.armed ∧ k.ds < st.armed then look (d.take st.armed) (-k.th) else none
  | 2 => if cmps.contains k.cmp then some 256 else none
  | _ => none

/-- A missed trigger of a channel (R375, Table 14.4a). -/
def noteMissed (c : Nat) (s : State) : State :=
  let first := firstIn (acqGet s c).winMiss s.tick.index
  when first (acqEvent 0x02 .notice c [1])
    (acqUpd c (fun x => { x with missed := inc32 x.missed, winMiss := if first then some s.tick.index else x.winMiss }) s)

/-! ### Slots and segments (R372, R378 to R381) -/

/-- Segments of the channel that a PENDING read holds are never overwritten; RING frees the oldest other one (R380). -/
def freeSlot (c : Nat) (s : State) : State :=
  let x := acqGet s c
  match x.segs with
  | g :: r =>
    if !x.ring ∨ x.segs.length < x.slots ∨ held s (.segment c) then s
    else
      let first := !g.read && firstIn x.winLost s.tick.index
      when first (acqEvent 0x03 .notice c [g.seg])
        (acqUpd c (fun y => { y with segs := r, lost := if g.read then y.lost else inc32 y.lost, winLost := if first then some s.tick.index else y.winLost }) s)
  | [] => s

/-- The channel takes its next slot, or is FULL. An arm without a free slot finds the channel FULL too (assumption 41). -/
def rearm (c : Nat) (s : State) : State :=
  let s1 := freeSlot c s
  let x := acqGet s1 c
  if x.segs.length < x.slots then acqUpd c (fun y => { y with state := .armed }) s1
  else acqEvent 0x01 .notice c [x.segs.length] (acqUpd c (fun y => { y with state := .full }) s1)

/-- The segment under way closes with these stored samples. -/
def closeSegment (c : Nat) (samples : List Int) (cut excess : Bool) (s : State) : State :=
  let x := acqGet s c
  let k := acqCfg s c
  match x.cap with
  | none => s
  | some cap =>
    let g : Segment := {
      seg := x.next, cap := cap, len := k.len, pre := k.pre, cut := cut, excess := excess, samples := samples, read := false }
    let first := excess && firstIn x.winOver s.tick.index
    when first (acqEvent 0x04 .notice c [g.seg])
      (acqUpd c (fun y => { y with
        segs := y.segs ++ [g], next := (y.next + 1) % 2 ^ 32, cap := none,
        winOver := if first then some s.tick.index else y.winOver }) s)

/-- Release the slot of a segment; a FULL channel goes on with it (Table 14.2). -/
def segRelease (ch seg : Nat) (s : State) : State :=
  let s1 := acqUpd ch (fun x => { x with segs := x.segs.filter (fun y => y.seg != seg) }) s
  if (acqGet s1 ch).state = .full then rearm ch s1 else s1

/-- The slots whose read has its final response written are freed (R389). -/
def segsFree (mb tag seq : Nat) (s : State) : State :=
  (List.range 4).foldl (fun t c =>
    let due := (acqGet t c).frees.filter (fun e => e.2.1 == mb && e.2.2.1 == tag && e.2.2.2 == seq)
    due.foldl (fun u e => segRelease c e.1 u) (acqUpd c (fun x => { x with frees := x.frees.filter (fun e => !due.contains e) }) t)) s

/-- What a segment cut short holds is not known: each place is a stored sample or 0x8000 (assumption 1). -/
def freeSamples (n ctr : Nat) : List Int :=
  (List.range n).map (fun i =>
    let v := Config.freeValue (ctr + i) % 4097
    if v = 4096 then -32768 else (v : Int) - 2048)

/-- A list's largest and smallest sample; missing places are no samples. -/
def sampleMax (l : List Int) : Int := (l.filter (· != -32768)).foldl max (-2048)

def sampleMin (l : List Int) : Int := (l.filter (· != -32768)).foldl min 2047

/-- A time in 1/64 ns in the 96-bit format. -/
def stamp64 (t : Nat) : Stamp := stampOf (t * 2 ^ 26)

/-- The header of Table 14.3. -/
def Segment.header (g : Segment) (ch : Nat) : Bytes :=
  let k := g.cap
  let first := k.tn * 2 ^ 26 - g.pre * k.per
  withCrc (le 4 g.seg ++ le 1 ch ++
    le 1 (b2n (k.kind == 3) + 2 * b2n (k.src != ch) + 4 * b2n (k.valid < g.pre) + 8 * b2n g.cut + 16 * b2n g.excess + 32 * b2n k.unset) ++
    le 1 k.src ++ le 1 k.kind ++ le 4 g.len ++ le 4 g.pre ++ le 4 k.valid ++ (stamp64 k.t).bytes ++
    (stamp64 (first / 2 ^ 26)).bytes ++ le 8 k.tick ++ leS 2 (sampleMax g.samples) ++ leS 2 (sampleMin g.samples) ++ le 4 0)

/-- Segment memory in use, in bytes, and header entries (R372). -/
def poolBytes (s : State) : Nat := ((List.range 4).map (fun c => (acqGet s c).slots * (acqGet s c).plen * 2)).sum

def poolHeads (s : State) : Nat := ((List.range 4).map (fun c => (acqGet s c).slots)).sum

end Sys2Proof.Machine
end

