-- ==== Sys2Proof/Machine/CdcOps.lean ====
section
/-! DEFINITION. The handshake and pulse crossings between clock domains (R564, R565, R568, R569, R570).

A pulse crossing is a handshake whose value is the list of occurrences that its count stands for. What R565 and R568 say of a write or an
occurrence in the opening or the closing edge is what they say of one just after that opening, or just before that close, so an edge is the
order of the operations below. Which source edge sees the acknowledge is not defined (R562): rows say it by their order and operands. -/

namespace Sys2Proof.Machine

open Sys2Proof

/-- Crossing codes of a die (Table 22.2). -/
def cdcOn (die code : Nat) : Bool :=
  if 4 ≤ die then (1 ≤ code && code ≤ 3) || code == 0x0B || code == 0x11
  else if die = 3 then (4 ≤ code && code ≤ 7) || code == 0x0B || code == 0x11
  else if die = 0 then 8 ≤ code && code ≤ 0x11
  else code == 0x0B || code == 0x11

/-- Kind DS: double sampling. -/
def cdcDs (code : Nat) : Bool := code == 0x0F || code == 0x11

/-- Kind LV: a level, without a handshake. -/
def cdcLv (code : Nat) : Bool := code == 0x03 || code == 0x07

/-- Crossings on which a value or an occurrence can wait behind an open handshake. On the others successive values lie further apart than a
handshake lasts (R563), so no row finds their handshake open (DEDUCED, assumption 140). -/
def cdcWaits (code : Nat) : Bool := code == 0x05 || code == 0x06 || code == 0x08

/-- C_max: 1 for the single crossing of injected triggers, 255 for the counting one (R569, Table 22.2). -/
def cMax (code : Nat) : Nat := if code = 0x05 then 1 else 255

def cdcGet (s : State) (die code inst : Nat) : Crossing := tget {} s.spare.cdc (die * 65536 + inst % 256 * 256 + code)

def cdcUpd (die code inst : Nat) (f : Crossing → Crossing) (s : State) : State :=
  s.onSpare (fun x => { x with cdc := tupd {} x.cdc (die * 65536 + inst % 256 * 256 + code) f })

/-! ### One handshake (R564) -/

/-- A handshake is open: the source has not seen the acknowledge of its request. -/
def Crossing.isOpen (x : Crossing) : Bool := x.req != x.seen

/-- The destination has captured what the open handshake carries. -/
def Crossing.taken (x : Crossing) : Bool := x.ack == x.req

/-- The source edge that opens: the value register loads and the request line toggles. -/
def Crossing.begin_ (v : List (List Int)) (x : Crossing) : Crossing := { x with value := v, req := !x.req }

/-- The destination edge that sees the request: it captures the value register and toggles the acknowledge line. -/
def Crossing.capture (x : Crossing) : Crossing :=
  if x.isOpen && !x.taken then { x with dest := x.value, ack := x.req } else x

/-- The source edge that sees the acknowledge: the handshake closes, a stall of it ends, and what waits opens the next one. -/
def Crossing.close (x : Crossing) : Crossing :=
  if x.isOpen && x.taken then
    let y := { x with seen := x.ack, stalled := false, pend := [] }
    if x.pend.isEmpty then y else y.begin_ x.pend
  else x

/-- A value written at the source (R565). -/
def Crossing.write (v : List Int) (x : Crossing) : Crossing := if x.isOpen then { x with pend := [v] } else x.begin_ [v]

/-- An occurrence at the source (R568, R569). -/
def Crossing.occur (most : Nat) (v : List Int) (x : Crossing) : Crossing :=
  if !x.isOpen then x.begin_ [v]
  else if x.pend.length < most then { x with pend := x.pend ++ [v] }
  else { x with overrun := true, lost := inc32 x.lost }

/-- The open handshake closes, and the one that what waits opens is captured. -/
def Crossing.settle (x : Crossing) : Crossing := x.capture.close.capture

/-- What the destination has not had yet. -/
def Crossing.waiting (x : Crossing) : List (List Int) := (if x.isOpen && !x.taken then x.value else []) ++ x.pend

/-! ### Overruns (R569) -/

/-- At a boundary, a crossing with its overrun flag set raises CDC_OVERRUN, at most once in 1,024 ticks, with the number lost since the event
before; the flag clears (DEDUCED, assumption 141). -/
def cdcOverruns (s : State) : State :=
  (s.spare.cdc.filter (fun e => e.2.overrun && firstIn e.2.since s.tick.index)).foldl (fun t e =>
    raise (e.1 / 65536) 0x042 0x01 .notice (e.1 % 65536) [e.2.lost]
      (t.onSpare (fun x => { x with cdc := tupd {} x.cdc e.1 (fun y => { y with overrun := false, lost := 0, since := some s.tick.index }) }))) s

/-! ### Resets on one side (R570, R571) -/

/-- One side of a crossing resets: its handshake is abandoned, its pending register emptied, and CDC_FLUSH names the side and the number
discarded: what waits, and, where the model does not follow the handshake, a free value. The destination holds what it captured last. -/
def cdcFlush (code side : Nat) (s : State) : State :=
  let n := s.draw
  let x := cdcGet s 0 code 0
  raise 0 0x042 0x02 .notice code [side, if cdcWaits code then x.waiting.length else n.1]
    (cdcUpd 0 code 0 (fun y => { y with req := false, ack := false, seen := false, pend := [], stalled := false, held := true }) n.2)

/-- Both sides are out of reset: the crossings run again (R571). -/
def cdcRestart (s : State) : State := s.onSpare (fun x => { x with cdc := x.cdc.map (fun e => (e.1, { e.2 with held := e.2.stalled })) })

end Sys2Proof.Machine
end

