-- ==== Sys2Proof/Machine/Acq.lean ====
section
/-! DEFINITION. The ACQ commands (Table 14.6) and the acquisition engine's own events (chapter 14). -/

namespace Sys2Proof.Machine

open Sys2Proof

def execAcqChannelConfig (c : Cmd) (s : State) : Out :=
  let ch := c.u8 0
  let f := c.u8 1
  let k : AcqCfg := { acqCfg s ch with on := bit f 0, invert := bit f 1, prot := bit f 2, offs := c.s16 2 }
  let g : Gate := {
    opcode := 0x0A01, len := c.inl 8, fitted := mprOk s, legal := notBoot,
    par := ch < 4 && f < 8 && decide (-2048 ≤ k.offs ∧ k.offs ≤ 2047) && c.rsv 4 4 }
  runCmd g c s (fun s =>
    if (acqGet s ch).state ≠ .disarmed then ⟨s, .conflict, [], false⟩
    else okReply (s.onAcq (fun a => { a with cfg := tset a.cfg ch k })) [])

def execAcqTriggerConfig (c : Cmd) (s : State) : Out :=
  let ch := c.u8 0
  let kd := c.u8 1
  let k : AcqCfg := { acqCfg s ch with
    kind := kd % 4, dir := kd / 4 % 4, th := c.s16 2, hyst := c.u16 4, ds := c.u8 6, cmp := c.u8 7, group := c.u8 8, mode := c.u8 9,
    dest := c.u32 12, len := c.u32 16, pre := c.u32 20 }
  let thOk : Bool := if k.kind = 1 then decide (1 ≤ k.th ∧ k.th ≤ 4095) else decide (-2048 ≤ k.th ∧ k.th ≤ 2047)
  let g : Gate := {
    opcode := 0x0A02, len := c.inl 24, fitted := mprOk s, legal := notBoot,
    par := ch < 4 && kd < 16 && k.dir < 3 && thOk && k.hyst ≤ 1023 && 1 ≤ k.ds && k.ds ≤ 16 && k.cmp < 24 && k.group < 16 &&
      !bit k.group ch && k.mode < 3 && 1 ≤ k.dest && k.dest ≤ 1000000 && 64 ≤ k.len && k.len ≤ 65536 && k.len % 64 == 0 &&
      k.pre + 64 ≤ k.len && c.rsv 10 2 }
  runCmd g c s (fun s =>
    if (acqGet s ch).state ≠ .disarmed then ⟨s, .conflict, [], false⟩
    else okReply (s.onAcq (fun a => { a with cfg := tset a.cfg ch k })) (le 4 (k.len - k.pre - 1) ++ le 4 (k.len * 4)))

/-- Disarm one channel; a segment under way closes at once, cut short (Table 14.4). -/
def acqDisarm (c : Nat) (s : State) : State :=
  let x := acqGet s c
  let k := acqCfg s c
  let s1 : State :=
    if x.state = .capturing then
      (closeSegment c (freeSamples k.len s.freeCtr) true (Config.freeValue (s.freeCtr + k.len) % 2 == 1) s).onFree
        (fun _ => s.freeCtr + k.len + 1)
    else s
  acqUpd c (fun y => { y with state := .disarmed, cap := none }) s1

/-- Arm one channel; with clear, its pool is made anew (R372, R388). -/
def acqArm (c : Nat) (clear ring : Bool) (nseg : Nat) (s : State) : State :=
  let k := acqCfg s c
  let s1 := if clear then acqUpd c (fun y => { y with slots := nseg, plen := k.len, next := 0, segs := [], frees := [], missed := 0, lost := 0 }) s else s
  rearm c (acqUpd c (fun y => { y with ring := ring, cap := none }) s1)

def execAcqArm (c : Cmd) (s : State) : Out :=
  let m := c.u8 0
  let act := c.u8 1
  let n := c.u16 4
  let cs := (List.range 4).filter (bit m)
  let g : Gate := {
    opcode := 0x0A03, len := c.inl 8, fitted := mprOk s, legal := notBoot,
    free := act != 2 || cs.all (fun x => !held s (.segment x)),
    par := 0 < m && m < 16 && act < 4 && c.u8 2 < 2 && c.rsv 3 1 && c.rsv 6 2 && (if act = 2 then 1 ≤ n && n ≤ 8192 else n == 0) }
  runCmd g c s (fun s =>
    let status := fun (t : State) => okReply t
      ((List.range 4).flatMap (fun x =>
        let y := acqGet t x
        le 1 y.state.code ++ le 1 (b2n y.ring) ++ le 2 y.segs.length ++ le 4 y.missed) ++
      le 4 (8388608 - poolBytes t) ++ le 4 (8192 - poolHeads t) ++ le 4 t.tick.index)
    let others := (List.range 4).filter (fun x => !bit m x)
    let bytes := (others.map (fun x => (acqGet s x).slots * (acqGet s x).plen * 2)).sum + (cs.map (fun x => n * (acqCfg s x).len * 2)).sum
    let heads := (others.map (fun x => (acqGet s x).slots)).sum + cs.length * n
    let wrong := cs.any (fun x =>
      let y := acqGet s x
      !(acqCfg s x).on || !(y.state == .disarmed || y.state == .done) || (act == 1 && (y.slots == 0 || y.plen != (acqCfg s x).len)))
    if act = 3 then status s
    else if act = 0 then status (cs.foldl (fun t x => acqDisarm x t) s)
    else if wrong then ⟨s, .conflict, [], false⟩
    else if act = 2 ∧ (8388608 < bytes ∨ 8192 < heads) then ⟨s, .exhausted, [], false⟩
    else status (cs.foldl (fun t x => acqArm x (act == 2) (c.u8 2 == 1) n t) s))

/-- The closed segment a command names; 0xFFFFFFFF is the oldest. -/
def acqFind (s : State) (ch seg : Nat) : Option Segment :=
  let l := (acqGet s ch).segs.filter (fun g => !(acqGet s ch).frees.any (fun e => e.1 == g.seg))
  if seg = 0xFFFFFFFF then l.head? else l.find? (fun g => g.seg == seg)

/-- A response of this mailbox would be written at once (R85). -/
def writesNow (s : State) (mb : Nat) : Bool := ringRoom (mbGet s mb) && (mbGet s mb).held.isEmpty && barOn s

/-- With release, the slot is freed once the final response has been written: at once, or with the held response (R389). -/
def execAcqSegmentRead (c : Cmd) (s : State) : Out :=
  let ch := c.u8 0
  let f := c.u8 1
  let g : Gate := {
    opcode := 0x0A04, len := c.inl 16, fitted := mprOk s, legal := notBoot, free := !held s (.segment ch),
    par := ch < 4 && f < 4 && c.rsv 2 2 && c.buf 8 }
  runCmd g c s (fun s =>
    match acqFind s ch (c.u32 4) with
    | none => ⟨s, .conflict, [], false⟩
    | some e =>
      let p := if bit f 1 then e.header ch else e.header ch ++ withCrc (e.samples.flatMap (leS 2))
      let s1 := acqUpd ch (fun x => { x with segs := x.segs.map (fun y => if y.seg = e.seg then { y with read := true } else y) })
        (putBuf (c.u64 8) p s)
      let left := (acqGet s1 ch).segs.length - (acqGet s1 ch).frees.length - b2n (bit f 0)
      let s2 : State :=
        if !bit f 0 then s1
        else if writesNow s1 c.mb then segRelease ch e.seg s1
        else acqUpd ch (fun x => { x with frees := x.frees ++ [(e.seg, c.mb.val, c.tag.toNat, c.seq.toNat)] }) s1
      okReply s2 (le 4 e.seg ++ le 4 left ++ le 4 p.length))

/-- Two-ended fault location (R384). -/
def execAcqLocate (c : Cmd) (s : State) : Out :=
  let ch := c.u8 0
  let l := c.u32 8
  let v := c.u32 12
  let tol := c.u32 28
  let tb := c.stamp 16
  let g : Gate := {
    opcode := 0x0A05, len := c.inl 40, fitted := mprOk s, legal := notBoot,
    par := ch < 4 && c.rsv 1 3 && 1 ≤ l && l ≤ 3000000 && 50000 ≤ v && v ≤ 299792 && c.stampOk 16 && tb.frac % 1024 == 0 &&
      tol ≤ 10000 && c.rsv 32 8 }
  runCmd g c s (fun s =>
    match (acqGet s ch).segs.find? (fun e => e.seg == c.u32 4) with
    | none => ⟨s, .conflict, [], false⟩
    | some e =>
      if e.cap.kind = 3 then ⟨s, .conflict, [], false⟩
      else
        let dt : Int := (e.cap.t : Int) - (tb.val / 2 ^ 26 : Nat)
        let num : Int := (64000000 * l : Nat) + v * dt
        let x := roundDiv num 128000
        let inside := decide (-(128000000 * tol : Nat) ≤ num) && decide (num ≤ (128000000 * (l + tol) : Nat))
        okReply (when (!inside) (acqEvent 0x06 .notice ch (e.seg :: words64 x)) s)
          (leS 8 x ++ leS 8 dt ++ le 1 (b2n (!inside) + 2 * b2n e.cap.unset) ++ le 3 0 ++ (stamp64 e.cap.t).bytes))

/-! ### Events -/

/-- A channel in ARMED takes a trigger. -/
def acqCapture (c : Nat) (cap : Capture) (s : State) : State := acqUpd c (fun y => { y with state := .capturing, cap := some cap }) s

/-- A trigger signal with its stamp goes to its channel's crossing (R376, R568). -/
def twSignal (ch kind stamp : Nat) (s : State) : State := cdcUpd 3 6 ch (fun x => x.occur (cMax 6) [(kind : Int), (stamp : Int)]) s

/-- The instant of a trigger: interpolated, or that of sample n for a comparator (R377). -/
def trigStamp (kind at1 tn p : Nat) : Nat := if kind = 2 then tn else at1 + p

/-- Of triggers at one sample the earliest instant is the source, a crossing before a comparator, then the lower channel (R375, Table 14.4). -/
def trigFirst (s : State) (a b : Nat × Nat) : Nat × Nat :=
  let key := fun (o : Nat × Nat) => 2 * o.2 + b2n ((acqCfg s o.1).kind == 2)
  if key b < key a then b else a

/-- Sample n of the four inputs: `t1` is the instant of sample n − 1 in 1/64 ns after the last boundary, `streams` the four
inputs, `comparators` those that became active since sample n − 1 (R374 to R377, R383). A stream without a sample of the present ARMED period
belongs to a channel that is still REARMING (assumption 155). -/
def execTwTrigger (t1 : Int) (streams : List TwStream) (comparators : List Nat) (s : State) : Out :=
  if !mprOk s then .next s
  else
    let at1 := stationAt s (t1 * (2 ^ 26 : Nat)) / 2 ^ 26
    let per := 2 * (base s 0).inc
    let tn := (at1 * 2 ^ 26 + per) / 2 ^ 26
    let inPeriod := fun (c : Nat) => (acqCfg s c).on && (acqGet s c).state == .armed && 0 < (streams.getD c ⟨[], 0⟩).armed
    let own : List (Nat × Nat) := (List.range 4).filterMap (fun c =>
      if inPeriod c then
        (ownTrigger (acqCfg s c) (streams.getD c ⟨[], 0⟩) comparators).map (fun p => (c, p))
      else none)
    let step := fun (u : State) (c : Nat) =>
      let k := acqCfg s c
      let cand := own.filter (fun o => o.1 == c || bit k.group o.1)
      let late := (k.kind == 2 && comparators.contains k.cmp) || own.any (fun o => o.1 != c && bit k.group o.1)
      if !k.on then u
      else if !inPeriod c then (if late then noteMissed c u else u)
      else
        match cand with
        | [] => u
        | o :: r =>
          let best := r.foldl (trigFirst s) o
          let kind := (acqCfg s best.1).kind
          acqCapture c {
            src := best.1, kind := kind, t := trigStamp kind at1 tn best.2, tn := tn, per := per,
            tick := s.tick.index - b2n (decide (t1 + best.2 < 0)),
            valid := min k.pre ((streams.getD c ⟨[], 0⟩).armed - 1), unset := timeUnset s } u
    let s1 := (List.range 4).foldl step s
    .next ((own.filter (fun o => (acqCfg s o.1).prot)).foldl (fun u o =>
      twSignal o.1 (acqCfg s o.1).kind (trigStamp (acqCfg s o.1).kind at1 tn o.2) u) s1)

/-- TO has run out in AUTO mode: a trigger is forced at the sample taken `t` (1/64 ns after the last boundary), with
`written` samples of the period before it (R379). -/
def execTwAutoTimeout (ch : Fin 4) (t : Int) (written : Nat) (s : State) : Out :=
  let k := acqCfg s ch
  if !mprOk s ∨ (acqGet s ch).state ≠ .armed ∨ k.mode ≠ 1 then .next s
  else
    let tn := stationAt s (t * (2 ^ 26 : Nat)) / 2 ^ 26
    .next (acqCapture ch {
      src := ch, kind := 3, t := tn, tn := tn, per := 2 * (base s 0).inc, tick := s.tick.index - b2n (decide (t < 0)), valid := min k.pre written,
      unset := timeUnset s } s)

/-- The last post-trigger sample is written; `raw` are the segment's raw codes in order, from its first valid one (R378 to
R380). -/
def execTwSegmentClose (ch : Fin 4) (raw : List Int) (s : State) : Out :=
  let k := acqCfg s ch
  let x := acqGet s ch
  match x.cap with
  | none => .next s
  | some cap =>
    if x.state ≠ .capturing then .next s
    else
      let kept := (List.replicate (k.pre - cap.valid) (-32768) ++ raw.map (storedOf k)).take k.len
      let full := kept ++ List.replicate (k.len - kept.length) (-32768)
      let s1 := closeSegment ch full false (raw.any (fun v => v ≤ -2048 || 2047 ≤ v)) s
      if k.mode = 2 then .next (acqUpd ch (fun y => { y with state := .done }) s1) else .next (rearm ch s1)

end Sys2Proof.Machine
end

