-- ==== Sys2Proof/Machine/Line.lean ====
section
/-! DEFINITION. The line coding of the Ifeys link (chapter 6): 34-bit words and their scrambler, messages, tick frames, word lock at the
cell, and the upstream burst. -/

namespace Sys2Proof.Machine

open Sys2Proof

/-! ### Words of DTX (R134, R136) -/

/-- The 32 bits of keystream that the scrambler x^58 + x^39 + 1 adds to a body, from its last 58 line bits, newest lowest. -/
def scramKey (s : BitVec 58) : Word32 := s.extractLsb' 7 32 ^^^ s.extractLsb' 26 32

/-- The last 58 line bits after 32 more. -/
def scramNext (s : BitVec 58) (line : Word32) : BitVec 58 := s.extractLsb' 0 26 ++ line

/-- A word as it leaves the ball: sync header, then the scrambled body, first UI highest. -/
def rawWord (w : LineWord) (s : BitVec 58) : BitVec 34 :=
  (if w.ctl then 0b10#2 else 0b01#2) ++ (w.body ^^^ scramKey s)

/-- The words of a transmission, and the scrambler after them: it runs over body bits only. -/
def lineCode : List LineWord → BitVec 58 → List (BitVec 34) × BitVec 58
  | [], s => ([], s)
  | w :: r, s =>
    let t := lineCode r (scramNext s (w.body ^^^ scramKey s))
    (rawWord w s :: t.1, t.2)

/-- The IDLE word (Table 6.3). -/
def idleWordOf : LineWord := ⟨true, 0x1E000000⟩

/-- The scrambler after `n` IDLE words. -/
def scramIdle (n : Nat) (s : BitVec 58) : BitVec 58 :=
  match n with
  | 0 => s
  | k + 1 => scramIdle k (scramNext s (idleWordOf.body ^^^ scramKey s))

def ctlWord (b : Word32) : LineWord := ⟨true, b⟩

def dataWord (b : Word32) : LineWord := ⟨false, b⟩

/-! ### Messages (Table 6.3) -/

def LinkMsg.kind : LinkMsg → Byte
  | .block _ _ => 0x4B | .safe _ _ => 0x55 | .timeSet _ => 0x66 | .sleep _ _ => 0x78

/-- The bodies before the CRC word: the control body, and for TIME_SET the low 32 bits of the value. -/
def LinkMsg.bodies : LinkMsg → List Word32
  | .block u c => [0x4B#8 ++ u ++ 0#4 ++ c ++ 0#8]
  | .safe u c => [0x55#8 ++ u ++ 0#4 ++ c ++ 0#8]
  | .timeSet v => [0x66#8 ++ v.extractLsb' 32 24, v.extractLsb' 0 32]
  | .sleep up down => [0x78#8 ++ 0#22 ++ BitVec.ofBool up ++ BitVec.ofBool down]

/-- A control word followed by data words. -/
def framed : List Word32 → List LineWord
  | [] => []
  | b :: r => ctlWord b :: r.map dataWord

/-- The words of a message: control word, data words, the last the CRC-32C over the bodies before it. -/
def LinkMsg.words (m : LinkMsg) : List LineWord := framed (m.bodies ++ [crcWords m.bodies])

/-- The words of a message as sent: IDLE words, then its copies. -/
def SentMsg.words (m : SentMsg) : List LineWord :=
  List.replicate m.idles idleWordOf ++ (List.replicate m.copies m.msg.words).flatten

/-! ### Tick frames (Tables 6.4 to 6.7) -/

def MgmtWord.bits (w : MgmtWord) : Word32 := w.slot ++ w.code ++ w.arg

/-- The SOF body (Table 6.5). -/
def TickFrame.sof (f : TickFrame) : Word32 :=
  0x2D#8 ++ f.unitid ++ BitVec.ofBool f.active ++ BitVec.ofBool f.blocked ++ BitVec.ofBool f.quiet ++ 0#1 ++
    f.port ++ f.groups ++ f.tcode ++ 0#4

/-- The command groups of 16 with their CRC words over H0 and the 16 bodies (Table 6.4). -/
def groupWords (h0 : Word32) (cmds : List Word32) (g : Nat) : List Word32 :=
  match g with
  | 0 => []
  | k + 1 =>
    let grp := cmds.take 16 ++ List.replicate (16 - cmds.length) 0
    grp ++ crcWords (h0 :: grp) :: groupWords h0 (cmds.drop 16) k

/-- Every word of a tick frame, in order (Table 6.4). -/
def TickFrame.words (f : TickFrame) : List LineWord :=
  let head := f.sof :: f.execTick :: f.execBase :: f.mgmt.map MgmtWord.bits
  framed (head ++ crcWords head :: groupWords f.execTick f.cmds f.groups.toNat)

/-- Header management positions m (R138). -/
def mgmtSlots (t : Nat) : Nat := if t = 1 then 1 else 4

/-- IDLE words between the transmissions of one tick: what is left of its 6.25 Gb/s in whole words. -/
def idlesIn (t words : Nat) : Nat := 6250 * t / 34 - words

/-! ### What a cell reads (R137, R142, R143) -/

/-- The bodies of the next `n` words, where all of them are data words: a control word among them ends the frame or message (R137). -/
def dataBodies (n : Nat) (ws : List LineWord) : Option (List Word32) :=
  let l := ws.take n
  if l.length = n ∧ l.all (fun w => !w.ctl) then some (l.map (·.body)) else none

/-- The management words of a header whose SLOT is the cell's. -/
def mgmtFor (slot : Nat) (ws : List Word32) : List MgmtIn :=
  (ws.filter (fun w => (w.extractLsb' 25 7).toNat == slot)).map (fun w => ⟨w.extractLsb' 20 5, w.extractLsb' 0 20⟩)

/-- A frame from its SOF body and the words after it, up to the CRC word of the cell's group: none where they are cut short. -/
def readFrame (slot : Nat) (sof : Word32) (ws : List LineWord) : Option FrameIn :=
  let t := (sof.extractLsb' 4 3).toNat
  let m := mgmtSlots t
  let g := slot / 16
  let mine := decide (g < (sof.extractLsb' 7 4).toNat)
  (dataBodies (3 + m + (if mine then 17 * (g + 1) else 0)) ws).map (fun h =>
    let c := h.drop (3 + m + 17 * g)
    { hc := crcWords (sof :: h.take (2 + m)) == h.getD (2 + m) 0, group := mine && crcWords (h.headD 0 :: c.take 16) == c.getD 16 0,
      tick := h.headD 0, base := h.getD 1 0, active := sof.getLsbD 19, blocked := sof.getLsbD 18, quiet := sof.getLsbD 17, tcode := t,
      command := c.getD (slot % 16) 0, mgmt := mgmtFor slot ((h.drop 2).take m) })

/-- The first frame in a run of words; words of any other kind, unknown control types among them, are passed by (R137). -/
def findFrame (slot : Nat) : List LineWord → Option FrameIn
  | [] => none
  | w :: r =>
    if w.ctl ∧ w.body.extractLsb' 24 8 = 0x2D#8 then (readFrame slot w.body r).orElse (fun _ => findFrame slot r)
    else findFrame slot r

/-- A message read from its control body and the words after it: none where no message starts, `some none` where its CRC does not
match or a control word cuts it short. -/
def readMsg (b : Word32) (ws : List LineWord) : Option (Option LinkMsg) :=
  let crc := fun (n : Nat) (m : List Word32 → LinkMsg) =>
    some ((dataBodies (n + 1) ws).bind (fun l => if crcWords (b :: l.take n) = l.getD n 0 then some (m l) else none))
  match (b.extractLsb' 24 8).toNat with
  | 0x4B => crc 0 (fun _ => .block (b.extractLsb' 20 4) (b.extractLsb' 8 8))
  | 0x55 => crc 0 (fun _ => .safe (b.extractLsb' 20 4) (b.extractLsb' 8 8))
  | 0x66 => crc 1 (fun l => .timeSet (b.extractLsb' 0 24 ++ l.headD 0))
  | 0x78 => crc 0 (fun _ => .sleep (b.getLsbD 1) (b.getLsbD 0))
  | _ => none

/-- The first copy of a message whose CRC matches, and the copies before it that failed (R146). -/
def findMsg (bad : Nat) : List LineWord → Option LinkMsg × Nat
  | [] => (none, bad)
  | w :: r =>
    if w.ctl then
      match readMsg w.body r with
      | none => findMsg bad r
      | some none => findMsg (bad + 1) r
      | some (some m) => (some m, bad)
    else findMsg bad r

/-! ### Word lock and the swap of DTX (R135) -/

def ones (w : Nat) (v : BitVec w) : Nat := ((List.range w).filter v.getLsbD).length

/-- One word on an interface: header, word lock, descrambler, and the search for a swap of the pair. -/
def Iface.word (i : Iface) (raw : BitVec 34) : Iface :=
  let w := if i.inverted then ~~~raw else raw
  let h := w.extractLsb' 32 2
  let ok := h == 0b01#2 || h == 0b10#2
  let line := w.extractLsb' 0 32
  let body := line ^^^ scramKey i.rx.scr
  let bad := i.rx.bad <<< 1 ||| BitVec.ofNat 64 (b2n !ok)
  let good := if ok then i.rx.good + 1 else 0
  let locked := if i.locked then decide (ones 64 bad < 16) else decide (64 ≤ good)
  let sof := i.rx.sof || (locked && h == 0b10#2 && body.extractLsb' 24 8 == 0x2D#8)
  let swap := locked && !sof && h == 0b01#2 && body == 0xE1FFFFFF#32
  let swaps := if swap then i.rx.swaps + 1 else 0
  { i with
    locked := locked, inUse := i.inUse || locked, inverted := i.inverted != (swaps == 32),
    rx := { bad := if locked then bad else 0, good := good, scr := scramNext i.rx.scr line, swaps := if swaps = 32 then 0 else swaps,
            sof := sof && locked } }

/-! ### The upstream burst (R148, R149) -/

/-- The additive scrambler x^7 + x^6 + 1, set to 0b111_1111 at the first payload bit: its keystream, first bit highest. -/
def burstKey (n : Nat) (s : BitVec 7) : Nat :=
  match n with
  | 0 => 0
  | k + 1 => b2n (s.getLsbD 6) * 2 ^ k + burstKey k (s <<< 1 ||| BitVec.ofNat 7 (b2n (s.getLsbD 6 != s.getLsbD 5)))

def payloadKey : Word64 := BitVec.ofNat 64 (burstKey 64 0x7F)

/-- The payload as it stands on the line. -/
def burstBits (p : Word64) : BurstBits := ⟨0xB1, p ^^^ payloadKey⟩

/-- The 96 UI of a slot, first UI highest: guard, preamble, delimiter, payload (Table 6.10). -/
def slotBits (p : Word64) : BitVec 96 := 0#10 ++ 0b10101010101010#14 ++ (burstBits p).delim ++ (burstBits p).payload

/-- What the LNK reads: whether the delimiter came complemented, and the payload; none where it matches neither way (R131, R150). -/
def readBurst (b : BurstBits) : Option (Bool × Word64) :=
  if b.delim = 0xB1 then some (false, b.payload ^^^ payloadKey)
  else if b.delim = ~~~(0xB1 : Byte) then some (true, ~~~b.payload ^^^ payloadKey)
  else none

end Sys2Proof.Machine
end

