-- ==== Sys2Proof/Machine/LinkOps.lean ====
section
/-! DEFINITION. Shared operations of the Ifeys link (chapter 6) and of cell health (chapter 7): ports, messages,
management queues, the judgement of ranging, tracking corrections and health changes. -/

namespace Sys2Proof.Machine

open Sys2Proof

/-! ### Ports and contexts -/

def PortState.code : PortState → Nat
  | .down => 0 | .starting => 1 | .ranging => 2 | .verify => 3 | .inService => 4 | .sleepD => 5 | .sleepU => 6
  | .sleepDU => 7 | .waking => 8 | .silent => 9 | .lost => 10

def Health.code : Health → Nat
  | .none => 0 | .pending => 1 | .inUse => 2 | .unreachable => 3 | .failed => 4 | .retired => 5

def PortState.asleep : PortState → Bool
  | .sleepD | .sleepU | .sleepDU => true
  | _ => false

/-- States in which DTX runs (Table 6.1). -/
def PortState.dtx : PortState → Bool
  | .down | .silent | .lost | .sleepD | .sleepDU => false
  | _ => true

/-- States in which DCLK runs, and in which bursts are received (Table 6.1): the same for both. -/
def PortState.dclk : PortState → Bool
  | .down | .silent | .lost => false
  | _ => true

/-- States in which tick frames are sent (R138). -/
def PortState.frames : PortState → Bool
  | .ranging | .verify | .inService | .sleepU | .waking => true
  | _ => false

def portGet (s : State) (p : Nat) : Port := tget {} s.link.ports p

def portUpd (p : Nat) (f : Port → Port) (s : State) : State :=
  s.onLink (fun l => { l with ports := tupd {} l.ports p f })

/-- The port's LNK die is fitted and in service (R16, R102). -/
def portFitted (s : State) (p : Nat) : Bool := p < 32 && dieOk s (portDie p)

/-- A port that a command may address: its die in service and the port not LOST (R170). R170 names NOT_FITTED for a LOST port, and for
CELL_PORT_DOWN also CONFLICT: check 4 comes first in Table 4.9, so NOT_FITTED stands (DESIGN CHOICE, assumption 123). -/
def portOk (s : State) (p : Nat) : Bool := portFitted s p && (portGet s p).state != .lost

def allPorts (s : State) : List Nat := (List.range 32).filter (portFitted s)

def cellGet (s : State) (cid : Nat) : CellCtx := tget {} s.link.cells cid

def cellUpd (cid : Nat) (f : CellCtx → CellCtx) (s : State) : State :=
  s.onLink (fun l => { l with cells := tupd {} l.cells cid f })

/-- CIDs with a roster entry, in ascending order. -/
def rostered (s : State) : List Nat := (s.link.cells.filter (fun e => e.2.roster.isSome)).map (·.1)

def portCells (s : State) (p : Nat) : List Nat := (rostered s).filter (fun c => c / 128 == p)

def armOf (c : CellCtx) : Option Nat := c.roster.map (·.arm)

/-- Rostered cells of an arm. -/
def armCids (s : State) (a : Nat) : List Nat := (rostered s).filter (fun c => armOf (cellGet s c) == some a)

def linkEvent (p kind : Nat) (cls : FClass) (addr : Nat) (d : List Nat) (s : State) : State :=
  raise (portDie p) 0x030 kind cls addr d s

def setPortState (p : Nat) (st : PortState) (s : State) : State :=
  let old := (portGet s p).state
  if old = st then s
  else linkEvent p 0x01 .notice p [pairWord old.code st.code]
    (portUpd p (fun x => { x with
      state := st, since := s.tick.index, sinceUs := s.nowUs,
      corr := if st = .inService then 0 else x.corr, disc := if st = .inService then 0 else x.disc,
      reruns := if st = .inService then 0 else x.reruns }) s)

/-- Words leave on DTX after `idles` IDLE words (R134). -/
def sendLine (p idles : Nat) (ws : List LineWord) (s : State) : State :=
  portUpd p (fun x =>
    let t := lineCode ws (scramIdle idles x.scr)
    { x with line := t.1, scr := t.2 }) s

/-- Send a message in `n` copies, after 64 IDLE words where DTX sleeps (R146, R165). -/
def sendMsg (p : Nat) (m : LinkMsg) (n : Nat) (s : State) : State :=
  let x : SentMsg := ⟨if (portGet s p).state.dtx then 0 else 64, m, n⟩
  portUpd p (fun y => { y with msg := some x }) (sendLine p 0 x.words s)

/-- BLOCK or SAFE: the word stream and any tick frame in flight are abandoned, and frames carry BLOCKED = 1 until the device next enters
DEBLOCKED (R140, R146). -/
def sendStop (p : Nat) (m : LinkMsg) (n : Nat) (s : State) : State :=
  portUpd p (fun x => { x with
    blocked := true, frame := none, oldT := [], flags := x.flags.map (fun e => (e.1, e.2 || decide (s.tick.index < e.1))) }) (sendMsg p m n s)

/-- A BLOCK message. It takes the place of a message still being sent, of SAFE copies too (DESIGN CHOICE, assumption 120: R146 states only
that SAFE ends BLOCK). -/
def sendBlock (p : Nat) (cause : Nat) (n : Nat) (s : State) : State :=
  sendStop p (.block s.power.straps.unitid (BitVec.ofNat 8 cause)) n s

def sendSafe (p : Nat) (cause : Nat) (s : State) : State := sendStop p (.safe s.power.straps.unitid (BitVec.ofNat 8 cause)) 4 s

/-- TIME_SET with the LNK's copy of cell-link time, as it leaves the ball (R147). -/
def sendTimeSet (p : Nat) (s : State) : State :=
  linkEvent p 0x07 .notice p []
    (portUpd p (fun x => { x with timeSet := some (s.link.linkTime, s.nowUs), tsTick := s.tick.index, tsDue := false })
      (sendMsg p (.timeSet s.link.linkTime) 1 s))

/-- A port on which cells can hear a message: in service, in bring-up, asleep or waking (R32, R146). -/
def hears (s : State) (p : Nat) : Bool :=
  match (portGet s p).state with
  | .down | .silent | .lost => false
  | _ => true

/-- Do `f` for every fitted port that hears. -/
def onPorts (f : Nat → State → State) (s : State) : State := ((allPorts s).filter (hears s)).foldl (fun t p => f p t) s

/-- Block frames on every port (R32, R146): four copies. -/
def blockPorts (cause : Nat) (s : State) : State := onPorts (fun p t => sendBlock p cause 4 t) s

/-- Safe-state frames on every port (R32, R146). -/
def safePorts (cause : Nat) (s : State) : State := onPorts (fun p t => sendSafe p cause t) s

/-- A block decision: block frames on every port, and a BLOCK message to the partner (R523). -/
def blockAll (cause : Nat) (s : State) : State := xlSend (.block cause) (blockPorts cause s)

/-- A safe-state decision: safe-state frames on every port, and a BLOCK message to the partner (R523). -/
def safeAll (cause : Nat) (s : State) : State := xlSend (.block cause) (safePorts cause s)

/-- End a PENDING CELL_PORT_UP or CELL_PORT_REMAP of the port, where it is still legal in the device state; one that is not ends as R98
lays down (R170). -/
def endPortPending (p : Nat) (st : Status) (result : Bytes) (s : State) : State :=
  endPending (fun x => (x.opcode == 0x0301 || x.opcode == 0x0304) && x.arg == p && x.legal.contains s.dev.state) st result s

/-- A port goes DOWN: one BLOCK message where DTX runs, then the lanes idle (R162). A shadow under way goes on (DESIGN CHOICE, assumption
121: the spec does not say). -/
def portDown (p cause : Nat) (s : State) : State :=
  if !hears s p && (portGet s p).state != .silent then s
  else
    let s1 := if (portGet s p).state.dtx then sendBlock p cause 1 s else s
    endPortPending p .conflict (le 1 0)
      (portUpd p (fun x => { x with run := none, queue := [], waiting := [], perm := [], laneMap := false, tsDue := false, oldT := [] })
        (setPortState p .down s1))

def allPortsDown (cause : Nat) (s : State) : State := (allPorts s).foldl (fun t p => portDown p cause t) s

/-- Ports fall silent when the role becomes FENCED; ranging values are kept (Table 6.15, R530). -/
def portSilent (p : Nat) (s : State) : State :=
  if (portGet s p).state = .down ∨ (portGet s p).state = .lost then s
  else endPortPending p .conflict (le 1 9) (setPortState p .silent s)

/-! ### Management queue (R144) -/

/-- A word joins the queue where it has room, else it waits (R144, R201). -/
def enqueue (q : Queued) (x : Port) : Port :=
  if x.queue.length < 64 ∧ x.waiting.isEmpty then { x with queue := x.queue ++ [q] } else { x with waiting := x.waiting ++ [q] }

/-- Words that wait enter the queue as it has room. -/
def refill (x : Port) : Port :=
  let n := 64 - x.queue.length
  { x with queue := x.queue ++ x.waiting.take n, waiting := x.waiting.drop n }

/-- Queue a DELAY_SET or UP_DELAY_SET in three frames; a newer one for the slot replaces an older one. -/
def pushDelay (p slot code arg : Nat) (s : State) : State :=
  let w : MgmtWord := { slot := BitVec.ofNat 7 slot, code := BitVec.ofNat 5 code, arg := BitVec.ofNat 20 arg }
  let same := fun (q : Queued) => q.word.slot == w.slot && q.word.code == w.code
  let swap := fun (l : List Queued) => l.map (fun q => if same q then ⟨w, 3⟩ else q)
  portUpd p (fun x =>
    if (x.queue ++ x.waiting).any same then { x with queue := swap x.queue, waiting := swap x.waiting } else enqueue ⟨w, 3⟩ x) s

/-- Queue a word of codes 8 to 31 that waits for room rather than refusing (R201). -/
def pushMgmt (p slot code arg : Nat) (s : State) : State :=
  portUpd p (enqueue ⟨{ slot := BitVec.ofNat 7 slot, code := BitVec.ofNat 5 code, arg := BitVec.ofNat 20 arg }, 1⟩) s

/-- Queue SAFE_STATE_SET with the cell's active safe state (R201). -/
def pushSafeState (cid : Nat) (s : State) : State :=
  pushMgmt (cid / 128) (cid % 128) 8 (b2n (cellGet s cid).safeSel) s

/-! ### Delays and limits (R31, R151, R152, R156) -/

/-- d_down limit 500 ns + T/2, in 2^-6 ns. -/
def downLimit (t : Nat) : Nat := 64 * (500 + 500 * t)

/-- The reach limit 200 ns + s x 15.36 ns of a slot, times 100, in 2^-6 ns. -/
def reachLimit100 (slot : Nat) : Nat := 64 * (20000 + 1536 * slot)

/-- The lowest slot whose reach limit `dUp` meets. -/
def lowestSlot (dUp : Nat) : Nat :=
  if 100 * dUp ≤ reachLimit100 0 then 0 else (100 * dUp - reachLimit100 0 + 98303) / 98304

/-- A plus the trim of the slot, in 2^-6 ns (R152). -/
def asymOf (s : State) (p slot : Nat) : Int := (portGet s p).asym + tget 0 (portGet s p).trims slot

/-- (R - A)/2 and (R + A)/2 from `n` values of R that sum to `sum` in 2.5 ps units, rounded to 2^-6 ns (R152). -/
def delaysOf (sum : Int) (n : Nat) (a : Int) : Int × Int :=
  (roundDiv (4 * sum - 25 * n * a) (50 * n), roundDiv (4 * sum + 25 * n * a) (50 * n))

/-- A cell counts as unreachable while its health says so, and from the mark for re-ranging until the run succeeds (R157). -/
def cellAway (c : CellCtx) : Bool := c.roster.isSome && (c.health == .unreachable || c.mark || c.detected.any (fun d => d.1 == .unreachable))

/-- A cell counts for the port's offset, its figures and tracking while it is ranged and reachable. -/
def reachable (c : CellCtx) : Bool := c.roster.isSome && c.ranged && !cellAway c

/-- Recompute the minimum execution offset from the longest d_down (R31, R159). -/
def minOffset (p : Nat) (s : State) : State :=
  let d := ((portCells s p).map (cellGet s)).foldl (fun m c => if reachable c then max m c.dDown else m) 0
  let off := 1200 + (d - 64 * 500 + 15) / 16
  if off = (portGet s p).minOff then s
  else linkEvent p 0x03 .notice p [off] (portUpd p (fun x => { x with minOff := off }) s)

/-! ### Health (R197 to R201) -/

/-- The device runs its cells: deblocked, or stopping. -/
def running (s : State) : Bool := s.dev.state == .deblocked || s.dev.state == .safeStop

/-- A change of health with its event; a cell that leaves IN_USE while the cells run is commanded to BYPASS (R198, R199). -/
def setHealth (cid : Nat) (h : Health) (cause : Nat) (s : State) : State :=
  let c := cellGet s cid
  if c.health = h ∧ c.cause = cause then s
  else
    let left := c.health == .inUse && h != .inUse
    raise (portDie (cid / 128)) 0x031 0x01 .notice cid [h.code, cause]
      (cellUpd cid (fun x => { x with
        health := h, cause := cause, changed := s.tick.index,
        declared := if left then x.declared + 1 else x.declared,
        bypass := x.bypass || (left && running s),
        detected := none, rejoin := if h = .pending then x.rejoin else none }) s)

/-- The changes of Table 7.10 that ranging and reports bring, by the health before and after and the cause; a re-ranged cell that fails for
good takes the cause of the failure (DEDUCED, assumption 122). -/
def healthRow (old : Health) (oldCause : Nat) (new : Health) (cause : Nat) : Bool :=
  match new with
  | .inUse => old == .pending || (old == .unreachable && oldCause == 5)
  | .unreachable => old == .inUse || (cause != 5 && (old == .pending || (old == .unreachable && oldCause == 5)))
  | .failed => cause == 0x0A || old == .inUse || old == .pending || (old == .unreachable && oldCause == 5)
  | .retired => true
  | _ => false

/-- A health change detected from reports or ranging, to take effect at the input crossing (R198). -/
def detect (cid : Nat) (h : Health) (cause : Nat) (s : State) : State :=
  cellUpd cid (fun x => { x with detected := some (h, cause) }) s

/-- A cell declared unreachable: event with the limit broken and, for the reach limit, the lowest slot it meets (R156). -/
def unreachable (cid cause : Nat) (dUp : Nat) (s : State) : State :=
  detect cid .unreachable cause
    (linkEvent (cid / 128) 0x04 .notice cid [cause, if cause = 3 then lowestSlot dUp else 0] s)

/-- FLAGS [2:1] of a ranging entry: the limits that the delays break (R156, Table 6.18). -/
def limitFlags (s : State) (cid : Nat) (dDown dUp : Nat) : BitVec 4 :=
  (if downLimit s.tick.len < dDown then 4#4 else 0) ||| (if reachLimit100 (cid % 128) < 100 * dUp then 2#4 else 0)

/-- The cause of a broken limit of R156. -/
def limitBroken (s : State) (cid : Nat) (dDown dUp : Nat) : Option Nat :=
  if downLimit s.tick.len < dDown then some 2
  else if reachLimit100 (cid % 128) < 100 * dUp then some 3 else none

/-- The limits broken are shown in the entry's FLAGS. -/
def noteLimits (cid dDown dUp : Nat) (s : State) : State :=
  cellUpd cid (fun x => { x with flags := (x.flags &&& 9#4) ||| limitFlags s cid dDown dUp }) s

/-- Mark a cell for re-ranging (R157, R158); an IN_USE cell becomes UNREACHABLE at the next input crossing (Table 7.10). -/
def markCell (cid : Nat) (s : State) : State :=
  let c := cellGet s cid
  cellUpd cid (fun x => { x with
    mark := true, eLast := [], detected := if x.health = .inUse then some (.unreachable, 5) else x.detected }) (when c.roster.isNone id s)

/-- The CSTATE expected in the report of tick `j`, which is latched in tick j - 1: RUNNING where the frame for that tick carries
BLOCKED = 0 (R199). -/
def expectedCState (s : State) (p j : Nat) : Nat :=
  match (portGet s p).flags.find? (fun e => e.1 + 1 == j) with
  | some e => if e.2 then 2 else 3
  | none => 2

/-- CSTATE, FAULT, SAFE_SEL and ERRCNT of a tick report (Table 7.4). -/
def repCState (r : Word64) : Nat := (r.extractLsb' 41 3).toNat

def repSafeSel (r : Word64) : Bool := r.getLsbD 40

def repFault (r : Word64) (b : Nat) : Bool := r.getLsbD b

def repVcap (r : Word64) : Nat := (r.extractLsb' 46 16).toNat

def repErr (r : Word64) : Nat := (r.extractLsb' 11 8).toNat

/-- The health a cell's two last fresh reports call for (Table 7.10). -/
def reportHealth (s : State) (c : CellCtx) (a b : Word64) : Option (Health × Nat) :=
  let both := fun (f : Word64 → Bool) => f a && f b
  if !(c.health == .retired && c.cause == 8) && both (fun r => repFault r 22 || repCState r == 7) then some (.retired, 8)
  else if c.health == .inUse && both (fun r => repFault r 26 || repFault r 24 || repFault r 23) then some (.failed, 6)
  else if c.health == .inUse && running s && both (fun r => repCState r == 4 || repCState r == 6) then some (.failed, 7)
  else none

/-- The flag and error-count events of a fresh report (R198): ERRCNT that advances by 16 or more within 1,024 ticks. -/
def reportEvents (cid : Nat) (first : Bool) (old new : Word64) (s : State) : State :=
  let fl := (new.extractLsb' 19 8).toNat
  let rose := [21, 25, 19, 20].any (fun b => repFault new b && (first || !repFault old b))
  let s1 := when rose (raise (portDie (cid / 128)) 0x031 0x02 .notice cid [fl]) s
  let step := if first then 0 else (repErr new + 256 - repErr old) % 256
  let l := (if step = 0 then [] else [(s.tick.index, step)]) ++ (cellGet s cid).errs.filter (fun e => s.tick.index < e.1 + 1024)
  let adv := (l.map (·.2)).sum
  if 16 ≤ adv then raise (portDie (cid / 128)) 0x031 0x03 .notice cid [adv] (cellUpd cid (fun x => { x with errs := [] }) s1)
  else cellUpd cid (fun x => { x with errs := l }) s1

/-- SAFE_SEL of a fresh report against the active safe state (R201). -/
def selCheck (cid : Nat) (r : Word64) (s : State) : State :=
  cellUpd cid (fun x =>
    if repSafeSel r == x.safeSel then { x with safeOk := true, selBad := 0 } else { x with selBad := x.selBad + 1 }) s

/-- The change that ranging or tracking has detected takes effect, where Table 7.10 has it. -/
def detectedNow (cid : Nat) (s : State) : State :=
  let c := cellGet s cid
  match c.detected with
  | some (h, k) => if healthRow c.health c.cause h k then setHealth cid h k s else cellUpd cid (fun x => { x with detected := none }) s
  | none => s

/-- Two fresh reports after a re-ranging run decide whether the cell is in use again (Table 7.10). -/
def judgeReport (cid : Nat) (ok : Bool) (s : State) : State :=
  let c := cellGet s cid
  match c.judge with
  | none => s
  | some (0, _) => cellUpd cid (fun x => { x with judge := some (1, ok) }) s
  | some (_, first) =>
    let s1 := cellUpd cid (fun x => { x with judge := none }) s
    if !(c.health == .unreachable && c.cause == 5) then s1
    else if first && ok then setHealth cid .inUse 0 s1 else setHealth cid .failed 7 s1

/-- One cell at the input crossing: its report enters, and the health its reports call for takes effect (R120, R198). -/
def cellCrossing (cid : Nat) (s : State) : State :=
  let c := cellGet s cid
  let hist := fun (miss : BitVec 1024) (x : CellCtx) =>
    { x with missHist := (x.missHist <<< 1) ||| miss, discHist := (x.discHist <<< 1) ||| BitVec.ofNat 1024 (b2n x.discNow), discNow := false }
  match c.incoming with
  | none => detectedNow cid (cellUpd cid (fun x => { hist 1 x with fresh := false }) s)
  | some (r, ok) =>
    let s1 := cellUpd cid (fun x => { hist 0 x with
      fresh := true, report := r, seen := true, freshTick := s.tick.index, incoming := none }) s
    let s2 := selCheck cid r (reportEvents cid (!c.seen) c.report r s1)
    match (if c.seen then reportHealth s2 c c.report r else none) with
    | some (h, k) => setHealth cid h k s2
    | none => if c.detected.isSome then detectedNow cid s2 else judgeReport cid ok s2

/-- Health changes that CELL_HEALTH_SET asked for at this boundary (R204). -/
def healthBoundary (s : State) : State :=
  let due := s.link.healthAt.filter (fun e => e.1 ≤ s.tick.index)
  let s1 := s.onLink (fun l => { l with healthAt := l.healthAt.filter (fun e => s.tick.index < e.1) })
  due.foldl (fun t e =>
    let st := (portGet t (e.2.1 / 128)).state
    let u := match e.2.2 with
      | 2 => cellUpd e.2.1 (fun x => { x with mark := st == .inService || st == .verify, rejoin := none, judge := none, goodC := 0 })
          (setHealth e.2.1 .pending 0x0C t)
      | _ => setHealth e.2.1 .retired 0x0B t
    endPending (fun x => x.opcode == 0x0307 && x.arg == e.2.1) .ok
      (le 1 (cellGet s e.2.1).health.code ++ le 1 (cellGet u e.2.1).health.code ++ le 2 0 ++ le 8 e.1) u) s1

/-! ### Ranging (R153 to R157) -/

/-- W: the ticks of a ranging window (Table 6.12). -/
def rangeTicks (t : Nat) : Nat := if t = 1 then 6 else if t = 2 then 3 else 2

/-- The next rostered slot of the port that has neither been ranged nor declared unreachable in this bring-up (Table 6.14). -/
def nextToRange (s : State) (p : Nat) : Option Nat := ((portCells s p).find? (fun c => !(cellGet s c).tried)).map (· % 128)

def startRun (p slot attempt : Nat) (rerun : Bool) (s : State) : State :=
  portUpd p (fun x => { x with
    run := some { slot := slot, attempt := attempt, rerun := rerun }, reruns := if rerun then x.reruns + 1 else x.reruns }) s

/-- The run after this one: in bring-up the next cell; none for a re-ranging run. -/
def nextRun (p : Nat) (rerun : Bool) (s : State) : State :=
  let s1 := portUpd p (fun x => { x with run := none }) s
  if rerun then s1
  else match nextToRange s1 p with
    | some slot => startRun p slot 1 false s1
    | none => s1

/-- Measurements of a run, and how many may be missing (R155, R157). -/
def runLength (r : RangeRun) : Nat := if r.rerun then 4 else 16

def runMissing (r : RangeRun) : Nat := if r.rerun then 1 else 4

/-- Ticks from one window of a run to the next (R154, R157). -/
def winStep (r : RangeRun) (t : Nat) : Nat := if r.rerun then 64 else rangeTicks t

/-- The next window of a run opens with the frame for tick `j`: the one before it has ended, re-ranging windows stand 64 ticks apart
(R154, R157), and no word whose three frames are under way is displaced (R144). -/
def windowOpens (x : Port) (t j : Nat) : Option RangeRun :=
  x.run.filter (fun r =>
    decide (r.windows.length + r.results.length < runLength r) && (x.lastWin == 0 || decide (x.lastWin + winStep r t ≤ j)) &&
      decide ((x.queue.filter (fun q => q.word.code.toNat < 4 && q.left < 3)).length < mgmtSlots t))

/-- The cell is done with for this bring-up, and no longer marked. -/
def triedCell (cid : Nat) (s : State) : State := cellUpd cid (fun x => { x with tried := true, mark := false }) s

/-- The delays of a cell whose run succeeded are set and queued; its safe state follows (R155, R201), and REJOIN for a readmitted cell
(R200). -/
def rangedOk (p slot : Nat) (dd du : Nat) (s : State) : State :=
  let cid := 128 * p + slot
  let c := cellGet s cid
  let re := c.health == .unreachable && c.cause == 5
  let s1 := cellUpd cid (fun x => { x with
    dDown := dd, dUp := du, ranged := true, eLast := [], discRun := 0, flags := x.flags &&& 1#4,
    judge := if re then some (0, true) else none }) (triedCell cid s)
  let s2 := pushSafeState cid (pushDelay p slot 2 du (pushDelay p slot 1 dd s1))
  minOffset p (when (c.health == .pending && c.cause == 0x0C) (pushMgmt p slot 12 0) s2)

/-- A run that ends with the cell unreachable. -/
def rangedNot (p : Nat) (r : RangeRun) (cause dUp : Nat) (s : State) : State :=
  let cid := 128 * p + r.slot
  nextRun p r.rerun (minOffset p (unreachable cid cause dUp (triedCell cid s)))

/-- Judge a complete run: the delays, a limit broken, a repeat, or the cell unreachable (R155, R156). -/
def judgeRun (p : Nat) (r : RangeRun) (s : State) : State :=
  let cid := 128 * p + r.slot
  let vs := r.results.filterMap id
  let span := vs.foldl max (vs.headD 0) - vs.foldl min (vs.headD 0)
  if r.results.length - vs.length ≤ runMissing r ∧ span ≤ 40 then
    let d := delaysOf vs.sum vs.length (asymOf s p r.slot)
    let dd := d.1.toNat
    let du := d.2.toNat
    match limitBroken s cid dd du with
    | some k => rangedNot p r k du (noteLimits cid dd du (cellUpd cid (fun x => { x with dDown := dd, dUp := du }) s))
    | none => nextRun p r.rerun (rangedOk p r.slot dd du s)
  else if r.attempt < 3 then startRun p r.slot (r.attempt + 1) r.rerun s
  else rangedNot p r 1 0 s

/-! ### Tracking (R158) -/

/-- Add half the mean of `n` values of e that sum to `sum` to each delay and queue the new values; past a limit the cell
is marked for re-ranging (R158, R159). -/
def correct (cid : Nat) (sum : Int) (n : Nat) (s : State) : State :=
  let p := cid / 128
  let slot := cid % 128
  let half := roundDiv (2 * sum) (25 * n)
  let c := cellGet s cid
  let dd := (c.dDown + half).toNat
  let du := (c.dUp + half).toNat
  let s1 := pushDelay p slot 2 du (pushDelay p slot 1 dd
    (noteLimits cid dd du (cellUpd cid (fun x => { x with dDown := dd, dUp := du, eLast := [] }) s)))
  let s2 := portUpd p (fun x => { x with corr := x.corr + 1 }) s1
  minOffset p (when (limitBroken s2 cid dd du).isSome (markCell cid) s2)

/-- One measured e: 16 in a row with a mean of 0.4 ns correct at once with an event; 256 with a mean of 31.25 ps correct. -/
def track (cid : Nat) (e : Int) (s : State) : State :=
  let l := (e :: (cellGet s cid).eLast).take 256
  let s1 := cellUpd cid (fun x => { x with eLast := l }) s
  if 16 ≤ l.length ∧ 160 * 16 ≤ (l.take 16).sum.natAbs then
    linkEvent (cid / 128) 0x02 .notice cid [word32 (roundDiv (4 * (l.take 16).sum) 400)] (correct cid (l.take 16).sum 16 s1)
  else if l.length = 256 ∧ 3200 ≤ l.sum.natAbs then correct cid l.sum 256 s1
  else s1

end Sys2Proof.Machine
end

