-- ==== Sys2Proof/Machine/Cell.lean ====
section
/-! DEFINITION. A compatible cell controller (chapter 7, R172 to R193): frames, messages, edges, watchdog, reports. -/

namespace Sys2Proof.Machine

open Sys2Proof

def ctlGet (s : State) (cid : Nat) : CellCtl := tget {} s.cells.ctl cid

def ctlUpd (cid : Nat) (f : CellCtl → CellCtl) (s : State) : State :=
  s.onCells (fun c => { c with ctl := tupd {} c.ctl cid f })

def CState.code : CState → Nat
  | .unlocked => 0 | .locked => 1 | .blocked => 2 | .running => 3 | .safe => 4 | .asleep => 5 | .fault => 6 | .bypassed => 7

def SwState.code : SwState → Nat
  | .bypass => 0 | .insertPos => 1 | .insertNeg => 2 | .block => 3

def SwState.ofCode (n : Nat) : SwState :=
  match n % 4 with
  | 0 => .bypass | 1 => .insertPos | 2 => .insertNeg | _ => .block

def CellCtl.iface (c : CellCtl) (onB : Bool) : Iface := if onB then c.ifB else c.ifA

def CellCtl.setIface (c : CellCtl) (onB : Bool) (i : Iface) : CellCtl := if onB then { c with ifB := i } else { c with ifA := i }

/-- The pattern of the configured safe state (R187). -/
def CellCtl.safePattern (c : CellCtl) : SwState := if c.safeByp then .bypass else .block

/-- The gates of Table 7.1: S1, S2, S3, S4 on, for a half-bridge (S3, S4 false) or full-bridge cell. -/
def gates (full : Bool) (p : SwState) : Bool × Bool × Bool × Bool :=
  match full, p with
  | _, .block => (false, false, false, false)
  | false, .insertPos => (true, false, false, false)
  | false, _ => (false, true, false, false)
  | true, .bypass => (false, true, false, true)
  | true, .insertPos => (true, false, false, true)
  | true, .insertNeg => (false, true, true, false)

/-- Enter a state: edges held are dropped unless RUNNING, and the switches take the state's pattern (Table 7.2). -/
def CellCtl.enter (c : CellCtl) (st : CState) : CellCtl :=
  { c with
    state := st
    edges := if st = .running then c.edges else []
    lockBlk := c.lockBlk && st == .locked
    pattern := match st with
      | .running => c.pattern
      | .unlocked | .safe => c.safePattern
      | .locked => if c.lockBlk then .block else c.safePattern
      | _ => .block }

def err (c : CellCtl) : CellCtl := { c with errcnt := c.errcnt + 1 }

/-! ### Time (R173, R175) -/

/-- Units of 2^-6 ns in `n` DCLK cycles: 102, 103, 102, 103, 102 in turn (R173). -/
def dclkUnits (n : Nat) : Nat := 512 * (n / 5) + [0, 102, 205, 307, 410].getD (n % 5) 0

/-- The counter at DCLK cycle `n`. -/
def Iface.reading (i : Iface) (n : Nat) : Nat := (i.counter + BitVec.ofNat 56 (dclkUnits (n - i.epoch))).toNat

/-- The DCLK cycle that a row names: `cycle` cycles after the last boundary. -/
def cycleAt (s : State) (cycle : Nat) : Nat := s.cells.cycles + cycle

/-- `a - b` modulo 2^56 as a signed value (R173). -/
def diff56 (a b : Nat) : Int := (BitVec.ofNat 56 (a + 2 ^ 56 - b % 2 ^ 56)).toInt

/-- The full boundary that agrees with EXEC_BASE in its low 32 bits and lies nearest the counter, in 2^-6 ns (R175). Where two lie equally
near, the earlier (DESIGN CHOICE, assumption 125: the rule does not say). -/
def extendBase (base : Word32) (counter : Nat) : Nat :=
  let c := counter / 16
  let d := (base.toNat + 2 ^ 32 - c % 2 ^ 32) % 2 ^ 32
  let up := d < 2 ^ 31 ∨ (d = 2 ^ 31 ∧ counter % 16 ≠ 0)
  (if up then c + d else c + 2 ^ 52 + d - 2 ^ 32) % 2 ^ 52 * 16

/-- T in 2^-6 ns. -/
def tUnits (t : Nat) : Nat := 64000 * t

/-! ### Frames: duplicate, valid, taken (R179, R180) -/

/-- A duplicate of a tick already taken, or a frame of a sequence that was left: discarded without an error (R179). -/
def frameOld (c : CellCtl) (f : FrameIn) (b : Nat) : Bool :=
  match c.taken with
  | none => false
  | some (t, tc, _) =>
    if f.tcode = tc then (f.tick - t) == 0 || 2 ^ 31 ≤ (f.tick - t).toNat
    else match c.first with
      | some x => diff56 b x < 0
      | none => false

/-- A frame is valid on its interface: CRCs match and its boundary `b` lies in its window (R179). -/
def frameValid (i : Iface) (f : FrameIn) (b now : Nat) : Bool :=
  f.hc && f.group && i.locked && i.valid &&
  match i.last with
  | none => 0 ≤ diff56 b now && diff56 b now ≤ 3 * tUnits f.tcode
  | some (t, lb, tc) =>
    if f.tcode = tc then
      let want := (lb : Int) + (f.tick - t).toInt * tUnits f.tcode
      4 * (diff56 b (want % (2 ^ 56 : Nat)).toNat).natAbs ≤ tUnits f.tcode
    else -256000 ≤ diff56 b lb && diff56 b lb ≤ 512000

/-- The deadline of R180 for a tick: B_j + max(300 ns, D - 200 ns), D that of the interface of the last active frame. -/
def CellCtl.deadline (c : CellCtl) (b : Nat) : Nat := b + max 19200 ((c.iface c.actIf).dDown - 12800)

/-- The local instant of `x` on an interface whose counter reads `now`, as the cell's own clock reads `clock`. -/
def localOf (clock x now : Nat) : Int := clock + diff56 x now

/-- The instant lies within the block hold (R182). -/
def CellCtl.inHold (c : CellCtl) (t : Int) : Bool := c.hold.any (fun h => decide ((h.1 : Int) ≤ t) && decide (t < h.1 + 1024000))

/-! ### What a frame brings (R141 to R143, R178, R181, R193) -/

/-- Set a delay: the counter is V + D plus the time elapsed, so a new D steps it (R147). -/
def Iface.setDelay (i : Iface) (d : Nat) : Iface :=
  { i with dDown := d, counter := i.counter + BitVec.ofInt 56 ((d : Int) - i.dDown) }

/-- DELAY_SET, UP_DELAY_SET and RANGE of a frame whose HC matches (R143, R181). -/
def linkMgmt (i : Iface) (m : MgmtIn) : Iface :=
  match m.code.toNat with
  | 1 => i.setDelay m.arg.toNat
  | 2 => { i with dUp := m.arg.toNat }
  | 3 => { i with range := true }
  | _ => i

/-- What a frame brings to its own interface; a frame with QUIET = 0 ends an upstream sleep (R151, R165). -/
def Iface.apply (i : Iface) (d : IfaceDue) : Iface :=
  d.mgmt.foldl linkMgmt { i with quiet := d.quiet, bj := if d.valid then d.base else i.bj, upSleep := i.upSleep && d.quiet }

/-- Cell management codes 8 to 14 (Table 7.7) but for their changes of state; a wrong argument is a protocol error. Of several reads in one
frame the first is answered (R192). -/
def cellMgmt (c : CellCtl) (m : MgmtIn) : CellCtl :=
  let a := m.arg.toNat
  match m.code.toNat with
  | 8 =>
    if 2 ≤ a then err c
    else
      let c1 := { c with safeByp := a == 1 }
      if c1.state = .safe then c1.enter .safe else c1
  | 9 => if 16 ≤ a then err c else { c with auxSel := BitVec.ofNat 4 a }
  | 10 => if a ≠ 0 then err c else if c.reply.isSome then c else { c with reply := some (10#5, 0#2) }
  | 11 => if a ≠ 0 then err c else if c.reply.isSome then c else { c with reply := some (11#5, 0#2) }
  | 12 => if a ≠ 0 then err c else c
  | 13 => if a ≠ 0 then err c else { c with desat := false, gate := false }
  | 14 => if a ≠ 0x0B0B5 then err c else c
  | _ => c

/-- The frame carries a management code with its proper argument. -/
def FrameIn.has (f : FrameIn) (code : BitVec 5) (arg : BitVec 20) : Bool := f.mgmt.any (fun m => m.code == code && m.arg == arg)

/-- The state after the frame triggers of Table 7.3, from the state before the boundary; the permanent bypass apart. -/
def frameState (c : CellCtl) (f : FrameIn) (blocked woken : Bool) : CState :=
  match c.state with
  | .locked => if c.adopted then .blocked else .locked
  | .blocked => if blocked then .blocked else .running
  | .running => if blocked then .blocked else .running
  | .asleep => if woken then .blocked else .asleep
  | .safe => if blocked then .blocked else if f.has 12 0 then .running else .safe
  | .fault => if f.has 13 0 && blocked && !c.faultNow && !c.ov then .blocked else .fault
  | x => x

/-- An edge, moved to 400 ns after the one before it where it lies closer (R185), executed at once where its instant has
passed (R180). -/
def addEdge (clock : Nat) (c : CellCtl) (at_ : Int) (dest : SwState) : CellCtl :=
  let prev : Option Nat := (c.edges.getLast?.map (·.at_)).or c.lastEdge
  let early : Bool := prev.any (fun p => decide (at_ < (p : Int) + 25600))
  let at1 : Int := if early then ((prev.getD 0 + 25600 : Nat) : Int) else at_
  let c1 := if early then err c else c
  if at1 < clock then
    { c1 with pattern := dest, lastEdge := some clock, lateCnt := c1.lateCnt + 1, edgeCnt := c1.edgeCnt + 1 }
  else { c1 with edges := c1.edges ++ [⟨at1.toNat, dest⟩] }

/-- A command word that its cell takes as HOLD, with a protocol error (R142). -/
def commandBad (full : Bool) (tcode : Nat) (w : Word32) : Bool :=
  let op := (w.extractLsb' 30 2).toNat
  let oa := (w.extractLsb' 14 14).toNat
  let ob := (w.extractLsb' 0 14).toNat
  op == 3 || (op != 0 && (stepsOf tcode ≤ oa || (!full && w.extractLsb' 28 2 == 2#2))) || (op == 2 && (stepsOf tcode ≤ ob || ob ≤ oa))

/-- SWITCH and PULSE at B_j plus their offsets (Table 6.6); HOLD keeps the pattern. -/
def command (clock now : Nat) (c : CellCtl) (b : Nat) (w : Word32) : CellCtl :=
  let op := (w.extractLsb' 30 2).toNat
  let st := SwState.ofCode (w.extractLsb' 28 2).toNat
  let base : SwState := (c.edges.getLast?.map (·.dest)).getD c.pattern
  let at_ := fun (o : Nat) => localOf clock (b + 16 * o) now
  if op = 0 then c
  else
    let c1 := addEdge clock c (at_ (w.extractLsb' 14 14).toNat) st
    if op = 2 then addEdge clock c1 (at_ (w.extractLsb' 0 14).toNat) base else c1

/-- A taken frame takes effect at its boundary: flag, state, management words, command (R178, R181, R193). -/
def CellCtl.applyFrame (c : CellCtl) (n : Nat) (d : FrameDue) : CellCtl :=
  let f := d.frame
  let i := c.iface d.onB
  let clock := dclkUnits n
  let now := i.reading n
  let t := localOf clock d.base now
  let blocked := f.blocked || c.inHold t
  let c1 := f.mgmt.foldl cellMgmt { c with
    cur := some (f.tick.setWidth 4, d.onB), hold := c.hold.filter (fun h => !(h.2 && decide ((h.1 : Int) + 1024000 ≤ t))) }
  let st := frameState c f blocked (!i.dnSleep)
  let c2 := if st = c1.state then c1 else c1.enter st
  let perm := f.has 14 0x0B0B5
  let c3 : CellCtl := if perm && c.permOne then { (c2.enter .bypassed) with byp := true } else { c2 with permOne := perm }
  if commandBad c.full f.tcode f.command then err c3
  else if c3.state = .running ∧ !blocked then command clock now c3 d.base f.command else c3

/-- Take a frame (R180): the watchdog's count starts again; a new TCODE starts a sequence, and old frames held for a later tick go (R179). The
frame takes effect at its boundary, or at once where that has passed. -/
def CellCtl.take (c : CellCtl) (n : Nat) (d : FrameDue) : CellCtl :=
  let f := d.frame
  let newSeq := c.taken.all (fun x => x.2.1 != f.tcode)
  let stays := fun (x : FrameDue) => x.frame.tcode == f.tcode || diff56 x.base d.base < 0
  let c1 := { (c.setIface d.onB { c.iface d.onB with last := some (f.tick, d.base, f.tcode) }) with
    taken := some (f.tick, f.tcode, d.onB), first := if newSeq then some d.base else c.first,
    held := c.held.filter (fun x => stays x && 0 < diff56 x.base d.base), due := c.due.filter stays,
    watchdog := 0, expired := false, bCnt := if d.onB then c.bCnt + 1 else c.bCnt, actIf := if f.active then d.onB else c.actIf }
  if diff56 d.base ((c.iface d.onB).reading n) ≤ 0 then c1.applyFrame n d else { c1 with due := c1.due ++ [d] }

/-! ### The boundary (R143, R147, R178, R188) -/

/-- The boundary `b` is the one that the cell passes now, at cycle `n`: it lies less than half a tick ahead of the counter. -/
def atNow (i : Iface) (n t b : Nat) : Bool := 2 * diff56 b (i.reading n) < tUnits t

/-- A TIME_SET that waits is adopted: the counter takes its value and its pattern starts again (R147, R173). -/
def Iface.adoptNow (i : Iface) (n : Nat) : Iface :=
  match i.adopt with
  | some (v, m) => { i with counter := v + BitVec.ofNat 56 (dclkUnits (n - m)), epoch := n, adopt := none }
  | none => i

/-- One interface at a boundary: B_j goes on by T, and what its frames hold for this boundary takes effect (R143, R151). -/
def Iface.boundary (i : Iface) (n t : Nat) : Iface :=
  let i1 := i.adoptNow n
  let t1 := (i1.last.map (fun x => x.2.2)).getD t
  let i2 := { i1 with
    bj := (i1.bj + tUnits t1) % 2 ^ 56, quiet := false, range := false, due := i1.due.filter (fun d => !atNow i1 n t1 d.base) }
  (i1.due.filter (fun d => atNow i1 n t1 d.base)).foldl Iface.apply i2

/-- The watchdog runs in these states, once a counter gives the cell its boundaries (R188). -/
def CellCtl.watched (c : CellCtl) : Bool :=
  (c.ifA.valid || c.ifB.valid) && (c.state == .locked || c.state == .blocked || c.state == .running || c.state == .safe)

/-- One cell at a boundary: its interfaces, the frames due, and the watchdog's count (R143, R178, R188). -/
def CellCtl.boundary (c : CellCtl) (n t : Nat) : CellCtl :=
  let now := fun (d : FrameDue) => atNow (c.iface d.onB) n d.frame.tcode d.base
  let c1 := { c with
    adopted := c.adopted || c.ifA.adopt.isSome || c.ifB.adopt.isSome, ifA := c.ifA.boundary n t, ifB := c.ifB.boundary n t, reply := none,
    cur := none, due := c.due.filter (fun d => !now d) }
  let mine := c.due.filter now
  if mine.isEmpty then
    if c1.watched then { c1 with watchdog := c1.watchdog + 1, expired := c1.expired || c1.watchdog + 1 == 3 } else c1
  else mine.foldl (fun x d => x.applyFrame n d) c1

/-- Every cell at a boundary that ends a tick of `t` microseconds: DCLK has run 625 cycles in each. -/
def cellsBoundary (t : Nat) (s : State) : State :=
  s.onCells (fun x =>
    let n := x.cycles + 625 * t
    { x with cycles := n, ctl := x.ctl.map (fun e => (e.1, e.2.boundary n t)) })

/-! ### The rows -/

/-- Power-up: UNLOCKED; a permanent bypass that the sub-module has closed stays closed (R177, R178). -/
def execCellPowerUp (cid : Nat) (identity : BitVec 48) (s : State) : Out :=
  .next (ctlUpd cid (fun c =>
    let new : CellCtl := { identity := identity, full := (identity.extractLsb' 46 2) == 1#2 }
    if c.byp ∧ c.identity = identity then { new with state := .bypassed, byp := true } else new) s)

/-- An interface loses DCLK or word lock: its counter is invalid, and what it held goes (R189). -/
def CellCtl.ifaceLost (c : CellCtl) (onB : Bool) : CellCtl :=
  let i := c.iface onB
  let c1 := { (c.setIface onB { i with locked := false, valid := false, adopt := none, last := none, due := [], rx := {} }) with
    held := c.held.filter (fun d => d.onB != onB), due := c.due.filter (fun d => d.onB != onB) }
  let lost := (!c1.ifA.inUse || !c1.ifA.locked) && (!c1.ifB.inUse || !c1.ifB.locked)
  match c1.state with
  | .locked | .blocked | .running => if lost then c1.enter .safe else c1
  | _ => c1

/-- Words arrive on an interface: word lock is gained or lost, a swap of DTX is found (R135, R174). -/
def execCellWordLock (cid : Nat) (onB : Bool) (line : List (BitVec 34)) (s : State) : Out :=
  .next (ctlUpd cid (fun c => line.foldl (fun x w =>
    let was := (x.iface onB).locked
    let x1 := x.setIface onB ((x.iface onB).word w)
    let is := (x1.iface onB).locked
    if was && !is then x1.ifaceLost onB
    else if !was && is && x1.state == .unlocked then x1.enter .locked else x1) c) s)

/-- A frame on an interface: DELAY_SET, UP_DELAY_SET, RANGE and QUIET of every frame whose HC matches; the frame itself taken where it is
valid and ACTIVE = 1, or checked after the deadline; else held until then (R179 to R181). -/
def CellCtl.frame (c : CellCtl) (n : Nat) (onB : Bool) (f : FrameIn) : CellCtl :=
  let i := c.iface onB
  let now := i.reading n
  let b := extendBase f.base now
  let ok := frameValid i f b now
  let due : IfaceDue := ⟨b, ok, f.quiet, f.mgmt.filter (fun m => m.code.toNat < 4)⟩
  let c1 := if f.hc && i.valid then
      c.setIface onB (if diff56 b now ≤ 0 then i.apply due else { i with due := i.due ++ [due] })
    else c
  let d : FrameDue := ⟨onB, b, f⟩
  if !(f.hc && f.group) then err c1
  else if frameOld c1 f b ∨ !ok then c1
  else if f.active ∨ 0 ≤ diff56 now (c1.deadline b) then c1.take n d
  else if c1.held.isSome then c1 else { c1 with held := some d }

def execCellFrameTake (cid : Nat) (onB : Bool) (rx : LineRx) (s : State) : Out :=
  .next (ctlUpd cid (fun c =>
    if !(c.iface onB).locked then c
    else (findFrame (cid % 128) rx.line).elim c (fun f => c.frame (cycleAt s rx.cycle) onB f)) s)

/-- The deadline passes without a valid active frame: the frame held is taken (R180). -/
def execCellFrameDeadline (cell : CellAt) (s : State) : Out :=
  .next (ctlUpd cell.cid (fun c => match c.held with
    | some d =>
      let n := cycleAt s cell.cycle
      if diff56 ((c.iface d.onB).reading n) (c.deadline d.base) < 0 then c
      else if frameOld c d.frame d.base then { c with held := none } else c.take n d
    | none => c) s)

/-- Errors of message copies whose CRC did not match. -/
def CellCtl.errs (c : CellCtl) (n : Nat) : CellCtl := { c with errcnt := c.errcnt + BitVec.ofNat 8 n }

/-- A BLOCK or SAFE message is accepted: every command held goes, and the 16 us hold starts (R146, R182). -/
def CellCtl.stopHold (c : CellCtl) (n : Nat) : CellCtl :=
  let drop := fun (d : FrameDue) => { d with frame := { d.frame with command := 0 } }
  { c with edges := [], hold := some (dclkUnits n, false), held := c.held.map drop, due := c.due.map drop }

/-- A BLOCK message turns every switch off in every state (R146). -/
def execCellBlockAccept (cid : Nat) (onB : Bool) (rx : LineRx) (s : State) : Out :=
  .next (ctlUpd cid (fun c =>
    let m := findMsg 0 rx.line
    if !(c.iface onB).locked then c
    else match m.1 with
      | some (.block _ _) =>
        let c1 := { ((c.errs m.2).stopHold (cycleAt s rx.cycle)) with pattern := .block }
        match c.state with
        | .running | .safe => c1.enter .blocked
        | .locked => { c1 with lockBlk := true }
        | _ => c1
      | _ => c.errs m.2) s)

/-- A SAFE message: the configured safe state (R146). -/
def execCellSafeAccept (cid : Nat) (onB : Bool) (rx : LineRx) (s : State) : Out :=
  .next (ctlUpd cid (fun c =>
    let m := findMsg 0 rx.line
    if !(c.iface onB).locked then c
    else match m.1 with
      | some (.safe _ _) =>
        let c1 := (c.errs m.2).stopHold (cycleAt s rx.cycle)
        match c.state with
        | .running | .blocked | .locked => c1.enter .safe
        | _ => c1
      | _ => c.errs m.2) s)

/-- TIME_SET: V + D plus the time elapsed; at once where the counter is not valid, else at the next boundary (R147). -/
def execCellTimeSetAccept (cid : Nat) (onB : Bool) (rx : LineRx) (elapsed : Nat) (s : State) : Out :=
  .next (ctlUpd cid (fun c =>
    let i := c.iface onB
    let m := findMsg 0 rx.line
    let n := cycleAt s rx.cycle
    if !i.locked then c
    else match m.1 with
      | some (.timeSet value) =>
        let v := value + BitVec.ofNat 56 (i.dDown + elapsed)
        let c1 := c.errs m.2
        if i.valid then c1.setIface onB { i with adopt := some (v, n), dnSleep := false }
        else { (c1.setIface onB { i with counter := v, epoch := n, valid := true, last := none, dnSleep := false }) with adopted := true }
      | _ => c.errs m.2) s)

/-- SLEEP acts on its own interface (R165, R181); `before` is what came on the line before the copy that ends it, spoilt copies among it. -/
def execCellSleepAccept (cid : Nat) (onB : Bool) (before line : List LineWord) (s : State) : Out :=
  .next (ctlUpd cid (fun c =>
    let i := c.iface onB
    let m := findMsg 0 (before ++ line)
    if !i.locked then c
    else match m.1 with
      | some (.sleep up down) =>
        let c1 := (c.errs m.2).setIface onB { i with upSleep := up, dnSleep := down, due := i.due.map (fun d => { d with quiet := d.quiet || up }) }
        if down ∧ (c1.state = .blocked ∨ c1.state = .safe) then c1.enter .asleep else c1
      | _ => c.errs m.2) s)

/-- 16 us after the acceptance the hold ends; a frame still to be taken for a boundary within it is judged by the interval (R182). -/
def execCellBlockHoldEnd (cell : CellAt) (s : State) : Out :=
  .next (ctlUpd cell.cid (fun c => match c.hold with
    | some (a, _) => if a + 1024000 ≤ dclkUnits (cycleAt s cell.cycle) then { c with hold := some (a, true) } else c
    | none => c) s)

/-- The count of boundaries without a taken frame has reached 3 (R188). -/
def execCellWatchdogExpiry (cid : Nat) (s : State) : Out :=
  .next (ctlUpd cid (fun c =>
    let c1 := { c with expired := false }
    if !c.expired then c
    else match c.state with
      | .locked | .blocked | .running => { (c1.enter .safe) with wdCnt := c.wdCnt + 1 }
      | _ => c1) s)

/-- An interface loses DCLK or word lock; SAFE once every interface in use is lost (R189). -/
def execCellLinkLoss (cid : Nat) (onB : Bool) (s : State) : Out := .next (ctlUpd cid (fun c => c.ifaceLost onB) s)

def execCellEdgeExecute (cid : Nat) (s : State) : Out :=
  .next (ctlUpd cid (fun c => match c.state, c.edges with
    | .running, e :: r => { c with edges := r, pattern := e.dest, lastEdge := some e.at_, edgeCnt := c.edgeCnt + 1 }
    | _, _ => c) s)

/-- AUX of a report (Table 7.6): a value of the cell where selected, else zero. -/
def auxOf (c : CellCtl) (v : BitVec 11) : BitVec 11 :=
  match c.auxSel.toNat with
  | 1 => v | 2 => c.edgeCnt | 3 => v | _ => 0

/-- FAULT flags of the report (Table 7.5). -/
def faultFlags (c : CellCtl) : Byte :=
  BitVec.ofBool c.ov ++ BitVec.ofBool c.sup ++ BitVec.ofBool c.desat ++ BitVec.ofBool c.gate ++ BitVec.ofBool c.byp ++
    BitVec.ofBool c.hot ++ BitVec.ofBool (c.ifA.inUse && !c.ifA.locked) ++ BitVec.ofBool (c.ifB.inUse && !c.ifB.locked)

/-- The tick report (Table 7.4); `who` is the interface and EXEC_TICK [3:0] of the frame taken for the tick before. -/
def tickReport (c : CellCtl) (who : BitVec 4 × Bool) (vcap : Word16) (temp : Byte) (aux : BitVec 11) : Word64 :=
  0#2 ++ vcap ++ BitVec.ofNat 2 c.pattern.code ++ BitVec.ofNat 3 c.state.code ++ BitVec.ofBool c.safeByp ++
    BitVec.ofBool who.2 ++ who.1 ++ temp ++ faultFlags c ++ c.errcnt ++ auxOf c aux

/-- The report of the next tick is latched 200 ns before its boundary; every burst of that tick carries it (R183). Where no frame was taken
for the tick, the spec does not say what IF and SEQ read: a free value. -/
def execCellSampleLatch (cid : Nat) (vcap : Word16) (temp : Byte) (aux : BitVec 11) (s : State) : Out :=
  let n := s.draw
  .next (ctlUpd cid (fun c =>
    { c with report := tickReport c (c.cur.getD (BitVec.ofNat 4 n.1, n.1 / 16 % 2 == 1)) vcap temp aux }) n.2)

/-- The ranging reply (Table 6.11) and the management reply (Table 7.7a). -/
def rangeReplyWord (cid : Nat) (c : CellCtl) : Word64 := 1#2 ++ BitVec.ofNat 7 cid ++ 0#7 ++ c.identity

def mgmtReplyWord (cid : Nat) (c : CellCtl) (code : BitVec 5) (res : BitVec 2) : Word64 :=
  2#2 ++ BitVec.ofNat 7 cid ++ code ++ res ++ (if code = 10#5 then c.identity else c.wdCnt ++ c.lateCnt ++ c.bCnt)

/-- A burst that starts at `start` on the counter, in 2^-6 ns / 100: light from the start of UI 4 of the slot to the end of UI 3 of the slot
that follows (R149). -/
def burstAt (w : Word64) (onB : Bool) (start : Int) : Burst := ⟨w, onB, start, start + 4096, start + 102400⟩

/-- The burst of a tick: a ranging reply at B_j + 16 ns + D where RANGE was taken; none while QUIET or in an upstream sleep; else at
B_j + 16 ns + s x 15.36 ns - d_up a management reply or the tick report (R151, R153, R190, R192). -/
def execCellBurstLaunch (cid : Nat) (onB : Bool) (s : State) : Out :=
  .next (ctlUpd cid (fun c =>
    let i := c.iface onB
    if !i.locked ∨ !i.valid then c
    else if i.range then
      { (c.setIface onB { i with range := false }) with
        burst := some (burstAt (rangeReplyWord cid c) onB (100 * ((i.bj : Int) + 1024 + i.dDown))) }
    else if i.quiet ∨ i.upSleep then c
    else
      let w := match c.reply with
        | some (k, r) => mgmtReplyWord cid c k r
        | none => c.report
      { c with burst := some (burstAt w onB (100 * ((i.bj : Int) + 1024 - i.dUp) + 98304 * (cid % 128 : Nat))) }) s)

/-- A condition of the sub-module: the flags of Table 7.5, and FAULT where Table 7.3 says so. -/
def execCellFaultDetect (cid : Nat) (fault : CellFault) (s : State) : Out :=
  .next (ctlUpd cid (fun c =>
    let trip := fun (x : CellCtl) => if x.state = .bypassed then x else x.enter .fault
    match fault with
    | .overVoltage on => if on then trip { c with ov := true } else { c with ov := false }
    | .desat => trip { c with desat := true, faultNow := true }
    | .gate => trip { c with gate := true, faultNow := true }
    | .supply on => { c with sup := on }
    | .hot on => { c with hot := on }
    | .cleared => { c with faultNow := false }) s)

/-- The permanent bypass closes on the cell's own condition (Table 7.3). -/
def execCellPermBypass (cid : Nat) (s : State) : Out :=
  .next (ctlUpd cid (fun c => { (c.enter .bypassed) with byp := true }) s)

end Sys2Proof.Machine
end

