-- ==== Sys2Proof/Machine/AieOps.lean ====
section
/-! DEFINITION. Shared operations of the insertion engine (chapter 8) and of the arm PWM generator (R235 to R240). -/

namespace Sys2Proof.Machine

open Sys2Proof

def armGet (s : State) (a : Nat) : ArmSt := tget {} s.aie.arms a

def armUpd (a : Nat) (f : ArmSt → ArmSt) (s : State) : State := s.onAie (fun e => { e with arms := tupd {} e.arms a f })

def aieCell (s : State) (cid : Nat) : AieCell := tget {} s.aie.cells cid

def aieUpd (cid : Nat) (f : AieCell → AieCell) (s : State) : State :=
  s.onAie (fun e => { e with cells := tupd {} e.cells cid f })

def armCfg (s : State) (a : Nat) : Option ArmCfg := tget none (s.aie.arm.map (fun e => (e.1, some e.2))) a

def selCfg (s : State) (a : Nat) : SelCfg := tget {} s.aie.sel a

def derCfg (s : State) (g : Nat) : DerateCfg := tget {} s.aie.der g

def kOf (s : State) (g : Nat) : Int := tget 268435456 s.aie.k g

/-- Arms with a committed parameter set (R207). -/
def arms (s : State) : List Nat := (s.aie.arm.map (·.1)).filter (armOk s)

def inUse (s : State) (cid : Nat) : Bool := (cellGet s cid).health == .inUse

def fullBridge (s : State) (cid : Nat) : Bool := (cellGet s cid).roster.any (fun r => r.flags.toNat % 4 == 1)

def aieEvent (a kind : Nat) (cls : FClass) (addr : Nat) (d : List Nat) (s : State) : State :=
  raise (1 + a / 6) 0x021 kind cls addr d s

/-- A controlled-block request, cause 0x20: DEBLOCKED goes to SAFE_STOP at the next boundary (Table 4.12, R225). -/
def controlledBlock (s : State) : State :=
  if s.dev.state = .deblocked ∧ !s.dev.triggers.any (fun t => t.cause == 0x20) then addTrigger .safeStop 0x20 0 s else s

/-! ### Derived parameters -/

/-- ceil(m_nom N_req / m_max) and Delta_x (R224). -/
def deltaX (c : ArmCfg) (d : DerateCfg) : Int :=
  if d.mmax ≤ 0 then 0 else c.nreq - (d.mnom * c.nreq + d.mmax - 1) / d.mmax

/-- rho, the bucket refill per tick in Q8.16 (R218). -/
def rho (p : SelCfg) (t : Nat) : Int := roundDiv ((2 * p.fcap * t * 65536 : Nat) : Int) 1000000

/-- K_i in Q16.16 (R212). -/
def kI (c : ArmCfg) (t : Nat) : Int := if c.cap = 0 then 0 else roundDiv ((c.ibase * 16 * t * 65536 : Nat) : Int) c.cap

/-- Wear restored from the MRAM record of the identity at a roster load (R217). -/
def aieRestore (cid : Nat) (identity : Nat) (s : State) : State :=
  match s.aie.records.find? (fun r => r.1 == identity) with
  | some r => aieUpd cid (fun _ => { wear := r.2.1, changes := r.2.2, restored := true }) s
  | none => aieUpd cid (fun _ => {}) s

/-- Save every rostered cell's wear; the record updated longest ago makes room (R217). Records that have given way are kept no more (Table
23.4). -/
def wearSave (s : State) : State :=
  if 1 ≤ s.spare.given then s
  else (rostered s).foldl (fun t cid =>
    match (cellGet t cid).roster with
    | none => t
    | some r =>
      let x := aieCell t cid
      let id := r.identity.toNat
      t.onAie (fun e => { e with
        records := ((id, x.wear, x.changes) :: e.records.filter (fun q => q.1 != id)).take 8192, saved := t.tick.index })) s

/-! ### Level (R211) -/

structure Level where
  sign    : Int
  nwhole  : Nat
  duty    : Nat
  clamped : Bool
  nsel    : Nat

/-- vstar in 1/16 V: a negative one is 0 unless negative levels are permitted. -/
def vStar (vref : Int) (vbase : Nat) (negOk : Bool) : Int :=
  let v := roundDiv (vref * vbase * 16) (2 ^ 28)
  if v < 0 ∧ !negOk then 0 else v

/-- The polarity that a level calls for. -/
def polarity (vstar : Int) : Int := if vstar ≥ 0 then 1 else -1

/-- The pseudocode of R211 from vstar on. -/
def level (vstar vbar : Int) (nav nfb : Nat) (mlim : Int) (fracOn : Bool) (hins : Int) : Level :=
  let ncap := if vstar ≥ 0 then nav else nfb
  let limit := (mlim * ncap * 65536) / (2 ^ 29 : Nat)
  let lq0 : Int :=
    if vstar = 0 ∨ ncap = 0 then 0
    else if vbar < 16 then limit else roundDiv (vstar.natAbs * 65536 : Nat) vbar.toNat
  let clamped := (decide (lq0 > limit)) || (ncap == 0 && decide (vstar ≠ 0))
  let lq := (if lq0 > limit then limit else lq0).toNat
  let nw := if fracOn ∧ 1 ≤ ncap then min (lq / 65536) (ncap - 1) else min (roundDiv lq 65536).toNat ncap
  let duty := if fracOn ∧ 1 ≤ ncap then lq % 65536 else 0
  ⟨polarity vstar, nw, duty, clamped, ((nw : Int) - hins).toNat⟩

/-! ### Prediction (R212, R213) -/

/-- v + (i K_i s) / 2^60, rounded. -/
def predict (v i k ins : Int) : Int := v + roundDiv (i * k * ins) (2 ^ 60)

/-- Inserted means INSERT_POS or INSERT_NEG (R209). -/
def inserted (st : SwState) : Bool := st == .insertPos || st == .insertNeg

/-- The model of a cell that leaves IN_USE: BYPASS from here on (R209), with the wear of the SWITCH to BYPASS that takes an inserted cell out
(R199, R217). Outside the states in which the engine commands no wear accrues (R228). -/
def cellOut (run : Bool) (amps : Nat) (x : AieCell) : AieCell :=
  let out := run && inserted x.present
  { x with
    inUse := false, present := .bypass, held := false, wear := if out then x.wear + amps else x.wear,
    changes := if out then x.changes + 1 else x.changes }

/-- The cell at the input crossing: v from a fresh report or carried forward, stale count, hold, prediction. `amps` is what a state change
adds to wear at this crossing. -/
def predictCell (a : Nat) (cid : Nat) (i k : Int) (lim amps : Nat) (s : State) : State :=
  let c := cellGet s cid
  let x := aieCell s cid
  let entering := c.health == .inUse && !x.inUse
  let leaving := c.health != .inUse && x.inUse
  let x1 := if entering then { x with
      inUse := true, present := .bypass, bucket := (selCfg s a).depth * 65536, ins0 := 0, ins1 := 0, sigma := [], stale := 0,
      held := false }
    else if leaving then cellOut (running s) amps x else x
  let v := if c.fresh then (repVcap c.report : Int) else x1.vhat
  let stale := if c.fresh then 0 else x1.stale + 1
  let held := c.health == .inUse && decide (lim < stale)
  let ins := if running s then x1.ins0 + x1.ins1 else 0
  let s1 := aieUpd cid (fun _ => { x1 with v := v, stale := stale, held := held, vhat := predict v i k ins }) s
  if held && !x.held then
    armUpd a (fun y => { y with holds := inc32 y.holds }) (aieEvent a 0x03 .notice cid [] s1)
  else if !held && x.held then aieEvent a 0x04 .notice cid [] s1
  else s1

/-- Mean of the predictions over the IN_USE cells (R211). -/
def meanV (s : State) (cs : List Nat) : Int :=
  if cs.isEmpty then 0 else roundDiv ((cs.map (fun c => (aieCell s c).vhat)).sum) cs.length

/-! ### Selection (R215, R216) -/

/-- Insert into a list in falling order. -/
def insDown (x : Int) : List Int → List Int
  | [] => [x]
  | y :: r => if y ≤ x then x :: y :: r else y :: insDown x r

def sortDown (l : List Int) : List Int := l.foldl (fun t x => insDown x t) []

/-- The state of an insertion of the polarity of `sign`. -/
def insState (sign : Int) : SwState := if sign ≥ 0 then .insertPos else .insertNeg

/-- The 24-bit key of a candidate. -/
def selKey (dir vbar vhat pen : Int) (ins locked : Bool) : Int :=
  let q := dir * (vbar - vhat)
  let k := clampI (-2097152) 2097151 (if ins then q + pen else q - pen)
  let cls : Int := if locked then (if ins then 3 else 1) else 2
  cls * 4194304 + k + 2097152

/-- Take candidates in tie order: above the k-th key all, at it `take` of them. -/
def takeTies (kth : Int) (left : Nat) : List (Nat × Int) → List Nat
  | [] => []
  | (c, k) :: r =>
    if k > kth then c :: takeTies kth left r
    else if k = kth ∧ 0 < left then c :: takeTies kth (left - 1) r
    else takeTies kth left r

/-- The candidates that are selected; `cands` are in tie order with their keys. -/
def select (nsel : Nat) (cands : List (Nat × Int)) : List Nat :=
  if nsel = 0 then []
  else if cands.length ≤ nsel then cands.map (·.1)
  else
    let keys := sortDown (cands.map (·.2))
    let kth := keys.getD (nsel - 1) 0
    takeTies kth (nsel - (keys.filter (fun k => k > kth)).length) cands

/-! ### Command words (Table 6.6, R219) -/

def switchWord (st : SwState) (o : Nat) : Word32 := 1#2 ++ BitVec.ofNat 2 st.code ++ BitVec.ofNat 14 o ++ 0#14

def pulseWord (st : SwState) (a b : Nat) : Word32 := 2#2 ++ BitVec.ofNat 2 st.code ++ BitVec.ofNat 14 a ++ BitVec.ofNat 14 b

/-- O_arm: the larger of O_w and the largest minimum offset of the ports of the arm's IN_USE cells. An O_w written at a longer T counts up to
T − 250 ps, since no edge lies later (R122). -/
def armOffset (s : State) (a : Nat) : Nat :=
  ((armCids s a).filter (inUse s)).foldl (fun m c => max m (portGet s (c / 128)).minOff) (min (selCfg s a).ow (stepsOf s.tick.len - 1))

def signOf (st : SwState) : Int :=
  match st with
  | .insertPos => 1 | .insertNeg => -1 | _ => 0

/-- The state at the sample instant, offset N - 800 of the tick, under a command word from a present state (R222). -/
def stateAtSample (n : Nat) (present : SwState) (w : Word32) : SwState :=
  let op := (w.extractLsb' 30 2).toNat
  let st := SwState.ofCode (w.extractLsb' 28 2).toNat
  let a := (w.extractLsb' 14 14).toNat
  let b := (w.extractLsb' 0 14).toNat
  let t := n - 800
  if op = 1 then (if a ≤ t then st else present)
  else if op = 2 then (if a ≤ t ∧ t < b then st else present)
  else present

/-! ### The arm PWM generator (R235 to R240) -/

def genGet (s : State) (a : Nat) : ArmGen := tget {} s.pwm.gens a

def genUpd (a : Nat) (f : ArmGen → ArmGen) (s : State) : State := s.onPwm (fun p => { p with gens := tupd {} p.gens a f })

/-- What the generator chooses: word, w_out, base in, polarity negative, carry, edges, polarity reset, no window. -/
structure GenOut where
  word  : Word32
  wout  : Int
  bin   : Bool
  bneg  : Bool
  carry : Int
  edges : Nat
  reset : Bool
  noWin : Bool
  sat   : Bool

/-- The pseudocode of R238. -/
def genChoose (duty : Nat) (neg : Bool) (n oarm : Nat) (bin bneg : Bool) (e emax : Int) (hb : Bool) : GenOut :=
  let wmin : Nat := 1600
  let u := n - 400
  let w := roundDiv ((duty * n : Nat) : Int) 65536
  let x := w + e
  let st : SwState := if neg then .insertNeg else .insertPos
  let done := fun (word : Word32) (wout x : Int) (bin bneg : Bool) (edges : Nat) (reset noWin : Bool) =>
    let c := x - wout
    (⟨word, wout, bin, bneg, clampI (-emax) emax c, edges, reset, noWin, c < -emax || c > emax⟩ : GenOut)
  if oarm > u then done 0 (if bin then n else 0) x bin bneg 0 false true
  else if (neg ∧ hb) ∨ (bin ∧ bneg ≠ neg) then
    done (if bin then switchWord .bypass oarm else 0) 0 0 false bneg (if bin then 1 else 0) true false
  else if !bin then
    if x < wmin then
      if x ≥ (wmin / 2 : Nat) ∧ oarm + wmin ≤ u then done (pulseWord st oarm (oarm + wmin)) wmin x bin bneg 2 false false
      else done 0 0 x bin bneg 0 false false
    else if oarm + x ≤ u then done (pulseWord st oarm (oarm + x.toNat)) x x bin bneg 2 false false
    else
      let a := max (oarm : Int) (min (n - x) u)
      done (switchWord st a.toNat) (n - a) x true neg 1 false false
  else
    let y := (n : Int) - x
    if y < wmin then
      if y ≥ (wmin / 2 : Nat) ∧ oarm + wmin ≤ u then
        done (pulseWord .bypass oarm (oarm + wmin)) (n - wmin) x bin bneg 2 false false
      else done 0 n x bin bneg 0 false false
    else if oarm + y ≤ u then done (pulseWord .bypass oarm (oarm + y.toNat)) x x bin bneg 2 false false
    else
      let a := max (oarm : Int) (min x u)
      done (switchWord .bypass a.toNat) a x false bneg 1 false false

/-- E_max in force: 0 means N/2 (Table 9.9). -/
def emaxOf (g : GenCfg) (n : Nat) : Nat := if g.emax = 0 then n / 2 else g.emax

/-! ### The designated cell (R214) -/

/-- The cell of least wear, ties in tie order (R214, R216). -/
def designate (s : State) (a : Nat) (cs : List Nat) : Option Nat :=
  let n := max (armCids s a).length 1
  let r := (armGet s a).tie
  let pos := fun (c : Nat) => (((armCids s a).findIdx (· == c)) + n - r % n) % n
  cs.foldl (fun best c => match best with
    | none => some c
    | some b =>
      let wb := (aieCell s b).wear
      let wc := (aieCell s c).wear
      if wc < wb ∨ (wc = wb ∧ pos c < pos b) then some c else best) none

/-! ### One arm in one tick (R210 to R219, R238) -/

/-- Switched current added to wear at a state change: |i| I_base in whole amperes (R217). -/
def switchedAmps (i : Int) (ibase : Nat) : Nat := (roundDiv ((i.natAbs * ibase : Nat) : Int) (2 ^ 28)).toNat

/-- IN_USE cells of an arm that are not held. -/
def freeCells (s : State) (a : Nat) : List Nat := (armCids s a).filter (fun c => inUse s c && !(aieCell s c).held)

/-- Under a negative sign only full-bridge cells are candidates (R211). -/
def serves (s : State) (sign : Int) (c : Nat) : Bool := decide (sign ≥ 0) || fullBridge s c

/-- The candidates of R215 for a designated cell and a sign. -/
def candidates (s : State) (a : Nat) (desig : Option Nat) (sign : Int) : List Nat :=
  (freeCells s a).filter (fun c => desig != some c && serves s sign c)

/-- The designated cell stays while it is IN_USE, not held and not due for rotation; else a candidate is chosen in its place, and none when
none is free (R214, Table 8.3). -/
def nextDesig (s : State) (a rot : Nat) (sign : Int) : Option Nat :=
  let st := armGet s a
  if rot = 0 then none
  else if st.desig.any (fun d => (freeCells s a).contains d) ∧ st.desigAge < rot then st.desig
  else designate s a (candidates s a st.desig sign)

/-- A cell that becomes designated brings its present state as the generator's base; the carry passes on (R236, R240). -/
def desigTake (a : Nat) (d : Option Nat) (s : State) : State :=
  match d with
  | some c =>
    let p := (aieCell s c).present
    if (armGet s a).desig = d then s else genUpd a (fun g => { g with baseIn := inserted p, bpolNeg := p == .insertNeg }) s
  | none => genUpd a (fun g => { g with wout := 0 }) s

/-- The selection of R215 among candidates in tie order. -/
def selectedCells (s : State) (a : Nat) (cand : List Nat) (lv : Level) (vbar i : Int) : List Nat :=
  let list := armCids s a
  let p := selCfg s a
  let r := (armGet s a).tie % max list.length 1
  let order := (cand.filter (fun x => r ≤ list.findIdx (· == x))) ++ (cand.filter (fun x => list.findIdx (· == x) < r))
  let dir : Int := if lv.sign * i ≥ 0 then 1 else -1
  select lv.nsel (order.map (fun x =>
    let y := aieCell s x
    (x, selKey dir vbar y.vhat (y.penalty.getD p.psw) (y.present == insState lv.sign) (decide (y.bucket < 65536)))))

/-- The decision for a whole cell (R218, R219); its offset is taken at the output crossing. -/
def wholePlan (s : State) (c : Nat) (cand : Bool) (dest : SwState) : Plan :=
  let y := aieCell s c
  { cid := c, word := 0, dest := dest, ins := 65536 * signOf dest, sigma := signOf dest, changed := b2n (y.present != dest),
    capOver := cand && y.present != dest && decide (y.bucket < 65536), cand := cand, desig := false }

/-- Every decision of an arm: candidates, half-bridges under a negative sign, held cells, the designated cell (R213 to R219). -/
def armPlan (s : State) (a : Nat) (desig : Option Nat) (lv : Level) (vbar i : Int) : List Plan :=
  let cand := candidates s a desig lv.sign
  let sel := selectedCells s a cand lv vbar i
  let rest := (freeCells s a).filter (fun c => desig != some c && !serves s lv.sign c)
  let held := (armCids s a).filter (fun c => inUse s c && (aieCell s c).held)
  cand.map (fun c => wholePlan s c true (if sel.contains c then insState lv.sign else .bypass)) ++
    rest.map (fun c => wholePlan s c false .bypass) ++ held.map (fun c => wholePlan s c false (aieCell s c).present) ++
    desig.toList.map (fun c => { wholePlan s c false (aieCell s c).present with ins := lv.duty * lv.sign, desig := true })

/-- Select for one arm: sign, designated cell, level, keys, plan. `i` is the arm current, `vref` its reference. A tick whose level R211 cut
counts in the window of R226. -/
def armSelect (a : Nat) (c : ArmCfg) (vref i : Int) (s : State) : State :=
  let vs := vStar vref c.vbase c.negOk
  let use := (armCids s a).filter (inUse s)
  let desig := nextDesig s a c.rot (polarity vs)
  let vbar := meanV s use
  let hins := ((use.filter (fun x => (aieCell s x).held)).map (fun x => polarity vs * signOf (aieCell s x).present)).sum
  let lv := level vs vbar use.length (use.filter (fullBridge s)).length (armGet s a).mlim desig.isSome hins
  let plan := armPlan s a desig lv vbar i
  let s1 := armUpd a (fun x => { x with
    desig := desig, desigAge := if desig = x.desig then x.desigAge + 1 else 1, clamped := lv.clamped, nwhole := lv.nwhole,
    duty := lv.duty, sign := lv.sign, tie := (x.tie + 1) % max (armCids s a).length 1, winClamp := x.winClamp + b2n lv.clamped,
    plan := plan }) (desigTake a desig s)
  when (c.rot ≠ 0 ∧ desig = none) (aieEvent a 0x0B .notice a []) s1

/-- Outside the states in which the engine commands there is no level (R228). -/
def levelNone (a : Nat) (s : State) : State := armUpd a (fun x => { x with clamped := false, nwhole := 0, duty := 0, plan := [] }) s

/-! ### Plausibility (R222, R223) -/

/-- sigma_c of the sample instant of tick k: three execution ticks back. -/
def sigmaOf (x : AieCell) : Int := x.sigma.getD 2 0

/-- A cell declared FAILED at this crossing: the model has it in BYPASS, and what was decided for it falls away for its SWITCH to BYPASS
(R199, R209). -/
def cellDeclared (a c amps : Nat) (s : State) : State :=
  armUpd a (fun x => { x with plan := x.plan.filter (fun p => p.cid != c) }) (aieUpd c (cellOut true amps) s)

/-- The residual and its outcome at one input crossing; `vm` is V_meas in 1/16 V, `old` the cells' previous predictions, `amps` what a state
change adds to wear. -/
def plausibility (a : Nat) (vm : Int) (old : Nat → Int) (amps : Nat) (s : State) : State :=
  let p := selCfg s a
  let use := (armCids s a).filter (inUse s)
  let e := vm - (use.map (fun c => sigmaOf (aieCell s c) * (aieCell s c).v)).sum
  let tol : Int := p.eabs * 16 + roundDiv ((p.erel * vm.natAbs : Nat) : Int) 65536
  let big := (e.natAbs : Int) > tol
  let st := armGet s a
  let excess := if big then st.excess + 1 else 0
  let under := if big then 0 else st.under + 1
  let enter := !st.mismatch && 3 ≤ excess
  let leave := st.mismatch && 3 ≤ under
  let mm := (st.mismatch || enter) && !leave
  let u := fun (c : Nat) => ((repVcap (cellGet s c).report : Int) - old c)
  let sus := use.filter (fun c =>
    let sg := sigmaOf (aieCell s c)
    sg != 0 && (cellGet s c).fresh && decide (2 * ((e + sg * u c).natAbs : Int) ≤ tol) && decide (((u c).natAbs : Int) > p.utol))
  let suspect : Option (Nat × Nat) := match mm, sus with
    | true, [c] => match st.suspect with
      | some (d, n) => if d = c then some (c, n + 1) else some (c, 1)
      | none => some (c, 1)
    | _, _ => none
  let declare : Option Nat := match suspect with
    | some (c, n) => if 8 ≤ n ∧ firstIn st.lastDecl s.tick.index then some c else none
    | none => none
  let ticks := if enter ∨ declare.isSome then 0 else if mm then st.mmTicks + 1 else 0
  let s1 := armUpd a (fun x => { x with
    excess := excess, under := under, mismatch := mm, resid := e, suspect := if declare.isSome then none else suspect,
    mmTicks := ticks, unresolved := x.unresolved && mm && declare.isNone,
    lastDecl := if declare.isSome then some s.tick.index else x.lastDecl,
    declared := if declare.isSome then inc32 x.declared else x.declared }) s
  let s2 := when enter (aieEvent a 0x06 .notice a [word32 e]) s1
  let s3 := when leave (aieEvent a 0x07 .notice a [word32 e]) s2
  match declare with
  | some c => cellDeclared a c amps (setHealth c .failed 9 (aieEvent a 0x08 .notice c [word32 e, word32 (u c)] s3))
  | none => s3

/-- A crossing without a valid arm voltage: the check does not run, so no run of crossings goes on, while the ticks in MISMATCH count
(R222, R223; DEDUCED, assumption 134). -/
def noCheck (a : Nat) (s : State) : State :=
  armUpd a (fun x => { x with excess := 0, under := 0, suspect := none, mmTicks := if x.mismatch then x.mmTicks + 1 else 0 }) s

/-! ### Stages (R224 to R227) -/

def one28 : Int := 268435456

/-- The stage, m_lim and k_target of an arm (Table 8.2); `keep` holds BLOCK_REQUESTED through SAFE_STOP (R225). -/
def stageOf (c : ArmCfg) (d : DerateCfg) (nav dClamp : Nat) (keep : Bool) : Nat × Int × Int :=
  let delta : Int := (c.nreq : Int) - nav
  let dd := max 0 (delta - deltaX c d) + dClamp
  let kt := one28 - d.dstep * dd
  let need : Int := if nav = 0 then d.mmax else (d.mnom * c.nreq) / nav
  if keep ∨ nav < 2 ∨ (1 ≤ delta ∧ kt < d.kmin) then (3, min need d.mmax, kt)
  else if delta ≤ 0 then (0, d.mnom, one28)
  else if dd = 0 then (1, need, kt)
  else (2, min need d.mmax, kt)

/-- Recompute an arm's stage at the input crossing; a tick more of the stage's clamp window (R225, R226). -/
def armStage (a : Nat) (c : ArmCfg) (s : State) : State :=
  let d := derCfg s c.group
  let st := armGet s a
  let nav := ((armCids s a).filter (inUse s)).length
  let delta : Int := (c.nreq : Int) - nav
  let dc := if delta < st.delta ∨ delta ≤ 0 then 0 else st.dClamp
  let (g, m, kt) := stageOf c d nav dc (st.stage == 3 && s.dev.state == .safeStop)
  let changed := g ≠ st.stage
  let s1 := armUpd a (fun x => { x with
    stage := g, mlim := m, ktarget := kt, delta := delta, dClamp := dc,
    winTick := if changed then 0 else x.winTick + 1, winClamp := if changed then 0 else x.winClamp,
    stageTick := if changed then s.tick.index else x.stageTick }) s
  let s2 := when changed (aieEvent a 0x01 .notice a [pairWord st.stage g, word32 delta, word32 kt]) s1
  if g = 3 ∧ changed ∧ running s then aieEvent a 0x02 .notice a [] (controlledBlock s2) else s2

/-- d_clamp at the end of a window of W_m ticks (R226). -/
def clampWindow (a : Nat) (c : ArmCfg) (s : State) : State :=
  let d := derCfg s c.group
  let st := armGet s a
  if st.stage = 1 ∨ st.stage = 2 then
    if d.win ≤ st.winTick then
      armUpd a (fun x => { x with
        winTick := 0, winClamp := 0, dClamp := if d.qc < x.winClamp then x.dClamp + 1 else x.dClamp }) s
    else s
  else s

/-- A group's target, and its factor's step towards it (R227). -/
def derateGroup (g : Nat) (s : State) : State :=
  let d := derCfg s g
  let ts := ((arms s).filter (fun a => (armCfg s a).any (fun c => c.group == g) && 2 ≤ (armGet s a).stage)).map
    (fun a => max 0 (armGet s a).ktarget)
  let target := ts.foldl min one28
  let k := kOf s g
  let k1 := if target < k then max target (k - d.rdown) else min target (k + d.rup)
  s.onAie (fun e => { e with k := tset e.k g k1 })

/-! ### The output crossing (R217 to R220) -/

/-- Apply one cell's decision: present state, insertion history, bucket and wear. A cell that has left IN_USE since the decision keeps its
SWITCH to BYPASS (R199). -/
def applyPlan (a : Nat) (amps : Nat) (p : Plan) (s : State) : State :=
  if !inUse s p.cid then s
  else
    let cfg := selCfg s a
    let depth : Int := cfg.depth * 65536
    let s1 := s.onLink (fun l => { l with words := tset l.words p.cid p.word })
    aieUpd p.cid (fun x => { x with
      present := p.dest, ins0 := x.ins1, ins1 := p.ins, sigma := (p.sigma :: x.sigma).take 3,
      bucket := if p.desig then x.bucket
        else max (-depth) ((if p.cand then min depth (x.bucket + rho cfg s.tick.len) else x.bucket) - 65536 * p.changed),
      wear := x.wear + p.changed * amps, changes := x.changes + p.changed }) s1

/-- A cell of an arm that overran: HOLD, its model as it is but for the refill of a candidate (R220). -/
def applyLate (a : Nat) (p : Plan) (s : State) : State :=
  let cfg := selCfg s a
  aieUpd p.cid (fun y => { y with
    bucket := if p.cand then min (cfg.depth * 65536 : Int) (y.bucket + rho cfg s.tick.len) else y.bucket, ins0 := y.ins1,
    ins1 := 65536 * signOf y.present, sigma := (signOf y.present :: y.sigma).take 3 })
    (s.onLink (fun l => { l with words := tset l.words p.cid 0 }))

/-- The cap overrides that leave: counted, and the first of an arm in 1,024 ticks raises an event (R218, R230). -/
def capOverrides (a n : Nat) (s : State) : State :=
  let st := armGet s a
  let fresh := st.overWin == 0 || decide (1024 ≤ s.tick.index - st.overTick)
  if n = 0 then s
  else
    when fresh (aieEvent a 0x05 .notice a [n]) (armUpd a (fun x => { x with
      overrides := min (x.overrides + n) 0xFFFFFFFF, lastOver := some s.tick.index, overWin := if fresh then n else x.overWin + n,
      overTick := if fresh then s.tick.index else x.overTick }) s)

/-- The arm's decision at the output crossing (R121, R217 to R220, R240). -/
def armOutput (a : Nat) (i : Int) (late : Bool) (s : State) : State :=
  let plan := (armGet s a).plan
  let s0 := armUpd a (fun x => { x with plan := [] }) s
  if late then plan.foldl (fun t p => applyLate a p t) s0
  else
    let amps := switchedAmps i ((armCfg s a).elim 0 (·.ibase))
    capOverrides a (plan.filter (·.capOver)).length (plan.foldl (fun t p => applyPlan a amps p t) s0)

/-- Entry to DEBLOCKED (R223, R226 to R228, R240). -/
def aieEnter (s : State) : State :=
  let s1 := (arms s).foldl (fun t a =>
    let st := armGet t a
    let t1 := when st.mismatch (aieEvent a 0x07 .notice a [word32 st.resid]) t
    let t2 := armUpd a (fun x => { x with
      tie := 0, dClamp := 0, excess := 0, under := 0, mismatch := false, unresolved := false, mmTicks := 0, suspect := none,
      desig := none, desigAge := 0, plan := [] }) t1
    let t3 := (armCids t2 a).foldl (fun u c => aieUpd c (fun x => { x with
      present := .bypass, bucket := (selCfg u a).depth * 65536, ins0 := 0, ins1 := 0, sigma := [] }) u) t2
    genUpd a (fun g => { g with carry := 0, baseIn := false, bpolNeg := false }) t3) s
  let s2 := s1.onAie (fun e => { e with k := [(0, one28), (1, one28)] })
  (arms s2).foldl (fun t a => if (armGet t a).stage = 3 then aieEvent a 0x02 .notice a [] (controlledBlock t) else t) s2

/-- Leaving DEBLOCKED and SAFE_STOP: block frames bring the cells to BLOCK, modelled as BYPASS (R228). -/
def aieLeave (s : State) : State := s.onAie (fun e => { e with cells := e.cells.map (fun x => (x.1, { x.2 with present := .bypass })) })

/-- Wear means, credits and penalties of an arm (R217). -/
def penalties (a : Nat) (s : State) : State :=
  let p := selCfg s a
  let use := (armCids s a).filter (inUse s)
  let mean : Int := if use.isEmpty then 0 else roundDiv (((use.map (fun c => (aieCell s c).wear)).sum : Nat) : Int) use.length
  (armCids s a).foldl (fun t c =>
    let x := aieCell t c
    let cr := clampI (-(p.csat : Int)) p.csat (mean - x.wear)
    aieUpd c (fun y => { y with credit := cr, penalty := some (clampI 0 (2 * p.psw) (p.psw - (p.kw * cr) / (2 ^ 20 : Nat))).toNat }) t)
    (armUpd a (fun x => { x with meanWear := mean.toNat }) s)

end Sys2Proof.Machine
end

