-- ==== Sys2Proof/Machine/Aie.lean ====
section
/-! DEFINITION. The AIE commands (Table 8.6) and the insertion engine's own events (chapter 8). -/

namespace Sys2Proof.Machine

open Sys2Proof

def busyStates : DevState → Bool := inStates [.config, .standby, .deblocked, .safeStop, .blockedFault]

/-- On the M2 every AIE command returns NOT_FITTED (R233); an arm beyond 11 is a parameter out of range. -/
def armFit (s : State) (a : Nat) : Bool := !isM2 s && (12 ≤ a || armOk s a)

/-- A source field: 0xFFFF, a channel output of Table 13.2 with its reserved bits zero, or one of the 128 mappings (Table 8.5, R445). -/
def srcOk (x : Nat) : Bool :=
  x == 0xFFFF || (x / 4096 % 8 == 0 && (if x / 32768 = 1 then decide (x % 4096 < 128)
    else x / 1024 % 4 == 0 && decide (x / 256 % 4 < 2) && x / 64 % 4 == 0))

/-- The source names an MPR channel (bit [15] at 0). -/
def srcMpr (x : Nat) : Bool := x != 0xFFFF && x / 32768 == 0

def readArmCfg (c : Cmd) : ArmCfg :=
  { group := c.u8 1, nreq := c.u16 2, nred := c.u16 4, cap := c.u16 6, vbase := c.u32 8, ibase := c.u32 12,
    ref := c.u16 16, vsrc := c.u16 18, isrc := c.u16 20, rot := c.u16 22, negOk := c.u8 24 == 1 }

def execAieArmConfig (c : Cmd) (s : State) : Out :=
  let a := c.u8 0
  let k := readArmCfg c
  let lim := armCells s.tick.len
  let g : Gate := {
    opcode := 0x0401, len := c.inl 28,
    fitted := armFit s a && (mprOk s || !(srcMpr k.vsrc || srcMpr k.isrc)),
    legal := inStates [.config], roles := actStby, free := !setHeld s 1,
    par := a < 12 && k.group < 2 && 1 ≤ k.nreq && k.nreq + k.nred ≤ lim && 1 ≤ k.cap && 1 ≤ k.vbase && k.vbase ≤ 2000000 &&
      1 ≤ k.ibase && k.ibase ≤ 100000 && k.ref < 512 && srcOk k.vsrc && srcOk k.isrc && (k.rot == 0 || 64 ≤ k.rot) &&
      c.u8 24 < 2 && c.rsv 25 3 }
  let n := (armCids s a).length
  runCmd g c s (fun s =>
    let far := (armCids s a).any (fun x => x / 128 / 16 != a / 6)
    if k.nreq + k.nred ≠ n ∨ far ∨ k.ref / 256 ≠ a / 6 ∨ (s.tick.len = 1 ∧ 128 ≤ k.ref % 256) ∨
        (k.negOk ∧ !(armCids s a).any (fullBridge s)) then ⟨s, .conflict, le 2 n ++ leS 2 (deltaX k (derCfg s k.group)), false⟩
    else okReply (stage 1 c.params (s.onAie (fun e => { e with armNew := tset e.armNew a k })))
      (le 2 n ++ leS 2 (deltaX k (derCfg s k.group))))

def readSelCfg (c : Cmd) : SelCfg :=
  { psw := c.u16 2, kw := c.u16 4, stale := c.u16 6, csat := c.u32 8, fcap := c.u16 12, depth := c.u8 14, ow := c.u16 16,
    eabs := c.u16 18, erel := c.u16 20, utol := c.u16 22 }

def execAieSelectParams (c : Cmd) (s : State) : Out :=
  let a := c.u8 0
  let k := readSelCfg c
  let g : Gate := {
    opcode := 0x0402, len := c.inl 24, fitted := armFit s a, legal := busyStates, roles := actStby, free := !setHeld s 1,
    par := a < 12 && c.rsv 1 1 && c.rsv 15 1 && 1 ≤ k.stale && k.stale ≤ 64 && k.csat < 2 ^ 31 && 1 ≤ k.fcap &&
      k.fcap ≤ 10000 && 1 ≤ k.depth && k.depth ≤ 64 && (k.ow == 0 || (1200 ≤ k.ow && k.ow < stepsOf s.tick.len)) }
  runCmd g c s (fun s => okReply (stage 1 c.params (s.onAie (fun e => { e with selNew := tset e.selNew a k })))
    (leS 2 (rho k s.tick.len)))

def readDerateCfg (c : Cmd) : DerateCfg :=
  { mnom := c.s32 4, mmax := c.s32 8, dstep := c.s32 12, kmin := c.s32 16, rdown := c.s32 20, rup := c.s32 24,
    win := c.u16 28, qc := c.u16 30 }

def execAieDerateConfig (c : Cmd) (s : State) : Out :=
  let gr := c.u8 0
  let k := readDerateCfg c
  let g : Gate := {
    opcode := 0x0403, len := c.inl 32, fitted := !isM2 s, legal := busyStates, roles := actStby, free := !setHeld s 1,
    par := gr < 2 && c.rsv 1 3 && 268435456 ≤ k.mnom && k.mnom ≤ k.mmax && k.mmax ≤ 536870912 && 0 < k.dstep &&
      k.dstep ≤ 134217728 && 0 ≤ k.kmin && k.kmin ≤ one28 && 0 < k.rdown && k.rdown ≤ one28 && 0 < k.rup && k.rup ≤ one28 &&
      64 ≤ k.win && k.qc ≤ k.win }
  runCmd g c s (fun s =>
    let as := ((List.range 12).filterMap (fun a => armCfg s a)).filter (fun x => x.group == gr)
    okReply (stage 1 c.params (s.onAie (fun e => { e with derNew := tset e.derNew gr k })))
      (as.flatMap (fun x => leS 2 (deltaX x k))))

/-- A candidate whose bucket stands below 1.0 (R218). -/
def locked (s : State) (a cid : Nat) : Bool :=
  (candidates s a (armGet s a).desig (armGet s a).sign).contains cid && decide ((aieCell s cid).bucket < 65536)

/-- One entry of Table 8.8. -/
def wearEntry (s : State) (a cid : Nat) : Bytes :=
  let x := aieCell s cid
  let fl := b2n ((armGet s a).desig == some cid) + 2 * b2n (locked s a cid) + 4 * b2n x.held + 8 * b2n x.restored
  le 2 cid ++ le 1 (cellGet s cid).health.code ++ le 1 fl ++ le 8 x.wear ++ le 8 x.changes ++ leS 4 x.credit ++
    le 2 (x.penalty.getD (selCfg s a).psw) ++ leS 2 (x.bucket / 256) ++ le 4 0

def execAieWearRead (c : Cmd) (s : State) : Out :=
  let a := c.u8 0
  let g : Gate := {
    opcode := 0x0404, len := c.inl 12, fitted := armFit s a, legal := notBoot, par := a < 12 && c.rsv 1 3 && c.buf 4 }
  runCmd g c s (fun s =>
    let cs := armCids s a
    okReply (putBuf (c.u64 4) (withCrc (cs.flatMap (wearEntry s a))) s)
      (le 2 cs.length ++ le 2 0 ++ le 8 (armGet s a).meanWear ++ le 4 s.aie.saved))

/-- Table 8.7. -/
def armStatus (s : State) (a : Nat) : Bytes :=
  let st := armGet s a
  let cfg := armCfg s a
  let use := (armCids s a).filter (inUse s)
  let gr := cfg.elim 0 (·.group)
  let vs := cfg.elim 0xFFFF (·.vsrc)
  let fl := b2n (vs != 0xFFFF && !st.vBad) + 2 * b2n st.mismatch + 4 * b2n st.unresolved + 8 * b2n st.iBad +
    16 * b2n st.clamped + 32 * b2n (st.lastOver.any (fun t => s.tick.index - t < 1024)) +
    64 * b2n (decide (kOf s gr < one28))
  le 1 a ++ le 1 st.stage ++ le 2 (cfg.elim 0 (fun x => x.nreq + x.nred)) ++ le 2 use.length ++
    le 2 (use.filter (fun x => (aieCell s x).held)).length ++ le 2 (st.desig.getD 0xFFFF) ++ le 2 fl ++ leS 4 st.mlim ++
    leS 4 (kOf s gr) ++ leS 4 st.resid ++ le 4 (st.nwhole * 65536 + st.duty) ++ le 4 st.overrides ++ le 4 st.holds ++
    le 4 st.declared ++ le 4 st.stageTick

def execAieArmStatus (c : Cmd) (s : State) : Out :=
  let a := c.u8 0
  let g : Gate := { opcode := 0x0405, len := c.inl 4, fitted := armFit s a, legal := notBoot, par := a < 12 && c.rsv 1 3 }
  runCmd g c s (fun s => okReply s (armStatus s a))

/-- Commit of shadow set bit 1. -/
def commitArms (s : State) : State :=
  s.onAie (fun e => { e with
    arm := e.armNew.foldl (fun t x => tset t x.1 x.2) e.arm, armNew := [],
    sel := e.selNew.foldl (fun t x => tset t x.1 x.2) e.sel, selNew := [],
    der := e.derNew.foldl (fun t x => tset t x.1 x.2) e.der, derNew := [] })

/-! ### Events of the engine -/

/-- A clamp window of W_m ticks ends (R226). -/
def execAieClampWindowEnd (a : Nat) (s : State) : Out :=
  match armCfg s a with
  | some c => if armOk s a then .next (clampWindow a c s) else .next s
  | none => .next s

/-- 64 ticks in MISMATCH without a declaration (R222). -/
def execAieUnresolved (a : Nat) (s : State) : Out :=
  let st := armGet s a
  if st.mismatch ∧ 64 ≤ st.mmTicks ∧ !st.unresolved then
    .next (aieEvent a 0x09 .contained a [] (armUpd a (fun x => { x with unresolved := true }) s))
  else .next s

/-- The rotation interval of a designated cell has passed: a new one is chosen in the next selection (R214). -/
def execDesignatedCellRotate (a : Nat) (s : State) : Out :=
  match armCfg s a with
  | some c =>
    if running s ∧ 0 < c.rot ∧ c.rot ≤ (armGet s a).desigAge then
      .next (armUpd a (fun x => { x with desigAge := c.rot }) s)
    else .next s
  | none => .next s

/-- Every 1,024 ticks: mean wear, credits and penalties of every arm (R217). -/
def execWearPenaltyRecompute (s : State) : Out := .next ((arms s).foldl (fun t a => penalties a t) s)

/-- Every 600 s, and at an orderly reset: wear records to MRAM (R217). -/
def execWearSave (s : State) : Out := .next (wearSave s)

/-- Three overruns in a row of one arm: a controlled-block request, and in SAFE_STOP its event only (R121, R225, R230). -/
def execArmOverrunLimit (arm : Nat) (s : State) : Out :=
  if running s ∧ 3 ≤ tget 0 s.tick.overCnt arm then .next (aieEvent arm 0x02 .notice arm [] (controlledBlock s)) else .next s

end Sys2Proof.Machine
end

