-- ==== Sys2Proof/Machine/PwmOps.lean ====
section
/-! DEFINITION. Shared operations of the direct PWM pairs and the raw trip comparators (R241 to R252). -/

namespace Sys2Proof.Machine

open Sys2Proof

def pairGet (s : State) (p : Nat) : PwmPair := tget {} s.pwm.pairs p

def pairUpd (p : Nat) (f : PwmPair → PwmPair) (s : State) : State := s.onPwm (fun w => { w with pairs := tupd {} w.pairs p f })

def pairCfg (s : State) (p : Nat) : PairCfg := tget {} s.pwm.pair p

def cmpCfg (s : State) (n : Nat) : CmpCfg := tget {} s.pwm.cmp n

def pairMode (c : PairCfg) : Nat := c.mode % 4

def centred (c : PairCfg) : Bool := bit c.mode 2

/-- The period of the counter in ns (Table 9.2). -/
def pairPeriod (c : PairCfg) : Nat := if centred c then 2 * c.period * c.div else (c.period + 1) * c.div

/-- Counts in a period (Table 9.2). -/
def periodCounts (c : PairCfg) : Nat := if centred c then 2 * c.period else c.period + 1

/-- The instant of an offset of the running tick, in ns of converter tick time; none where no CORE cycle begins there. -/
def coreNs (s : State) (offset : Nat) : Option Nat :=
  if offset % 4 = 0 ∧ offset < stepsOf s.tick.len then some ((s.nowUs - s.tick.past) * 1000 + offset / 4) else none

/-- The count that begins at an instant, of the counts of a period: the counter reads 0 at `first` and runs on from there, as it ran before
(R241; DEDUCED, assumption 135). Up to P the counter counts up, past it a centre-aligned one counts down. -/
def countAt (c : PairCfg) (first ns : Nat) : Option Nat :=
  let n := (((ns : Int) - first) % ((periodCounts c * c.div : Nat) : Int)).toNat
  if n % c.div = 0 then some (n / c.div) else none

/-- A pair's count that begins at an offset of the running tick; none while its counter does not run. -/
def pairCount (s : State) (p offset : Nat) : Option Nat :=
  match (pairGet s p).first, coreNs s offset with
  | some z, some ns => countAt (pairCfg s p) z ns
  | _, _ => none

/-- The device states in which a pair may run (Table 9.3). -/
def runIn (c : PairCfg) (st : DevState) : Bool :=
  match st with
  | .deblocked | .safeStop => true
  | .config | .standby | .blockedFault => bit c.mode 4
  | _ => false

/-- A pair may run (R245). -/
def pairMay (s : State) (p : Nat) : Bool :=
  let c := pairCfg s p
  mprOk s && (pairMode c == 1 || pairMode c == 2) && !(pairGet s p).latch && !s.dev.fatal && s.dev.role == .active && runIn c s.dev.state

/-- Both outputs low at once, no dead time (R245, R250). -/
def pairOff (p : Nat) (s : State) : State := pairUpd p (fun x => { x with outA := false, outB := false, run := false, dead := none }) s

/-- Pairs that may no longer run stop (R245). -/
def pairsRecheck (s : State) : State := (List.range 8).foldl (fun t p => if pairMay t p then t else pairOff p t) s

/-- The compare value of a duty in Q3.28 (R242). -/
def cmpOf (c : PairCfg) (d : Int) : Nat :=
  let top := if centred c then c.period else c.period + 1
  (roundDiv (clampI 0 one28 d * top) (2 ^ 28)).toNat

/-- An occurrence of a kind at a source: prescaled, and merged into the events waiting for the crossing (R246, R247). -/
def addEvent (src index kind : Nat) (offset : Nat) (s : State) : State :=
  s.onPwm (fun w =>
    if w.events.any (fun e => e.src == src && e.index == index && e.kind == kind) then
      { w with events := w.events.map (fun e => if e.src == src && e.index == index && e.kind == kind then
        { e with count := min (e.count + 1) 255, tick := s.tick.index, offset := offset } else e) }
    else { w with events := w.events ++ [⟨src, index, kind, 1, s.tick.index, offset⟩] })

/-- The bit of EV_PAIR for a kind (Table 9.9). -/
def evBit (kind : Nat) : Nat :=
  match kind with
  | 1 => 0 | 3 => 1 | 4 => 2 | _ => 3

def pairOccur (p kind offset : Nat) (s : State) : State :=
  let c := pairCfg s p
  if !bit c.ev (evBit kind) then s
  else
    let n := tget 0 (pairGet s p).occ kind + 1
    if c.eps ≤ n then addEvent 2 p kind offset (pairUpd p (fun x => { x with occ := tset x.occ kind 0 }) s)
    else pairUpd p (fun x => { x with occ := tset x.occ kind n }) s

/-- An occurrence of an arm generator: kind 1 ZERO, 2 EDGE (Table 9.4). -/
def genOccur (a kind offset : Nat) (s : State) : State :=
  let c : GenCfg := tget {} s.pwm.gen a
  if !bit c.ev (kind - 1) then s
  else
    let n := tget 0 (genGet s a).occ kind + 1
    if c.eps ≤ n then addEvent 1 a kind offset (genUpd a (fun x => { x with occ := tset x.occ kind 0 }) s)
    else genUpd a (fun x => { x with occ := tset x.occ kind n }) s

/-- A reload strobe latches the held value and its tag (R243). -/
def reload (p : Nat) (s : State) : State :=
  let cmp := cmpOf (pairCfg s p) (pairGet s p).hold
  let tag := (pairGet s p).holdTag
  (pairUpd p (fun x => { x with cmp := cmp, tag := tag }) s).onPwm (fun w => { w with reloads := w.reloads ++ [(p, tag, cmp)] })

/-- The outputs of a running pair follow A's demand. An output turns on after the dead time from the other's falling edge; where the other is
low already, from a dead time that its demand did not outlast, no falling edge begins one and the output turns on at once. Through the
DT_max of a start both stay low (R242, R244, R245; DEDUCED, assumption 136). -/
def outputsFollow (single on : Bool) (x : PwmPair) : PwmPair :=
  if x.dead.any (·.fixed) then { x with dead := some ⟨!single && !on, none, true⟩ }
  else if single then { x with outA := on }
  else if on then
    if x.outB then { x with outB := false, dead := some ⟨false, none, false⟩ } else { x with outA := true, dead := none }
  else if x.outA then { x with outA := false, dead := some ⟨true, none, false⟩ } else { x with outB := true, dead := none }

/-- A's demand changes: occurrence, and the outputs follow (R242, R244). -/
def setDemand (p : Nat) (on : Bool) (offset : Nat) (s : State) : State :=
  let x := pairGet s p
  if x.demand = on then s
  else
    let s1 := pairOccur p (if on then 4 else 5) offset (pairUpd p (fun y => { y with demand := on }) s)
    if x.run then pairUpd p (outputsFollow (pairMode (pairCfg s p) == 2) on) s1 else s1

/-- A pair that may run starts at its ZERO event; its first output turns on after DT_max (R245). -/
def pairStart (p : Nat) (s : State) : State :=
  let x := pairGet s p
  if x.run || !pairMay s p then s
  else if pairMode (pairCfg s p) = 2 then pairUpd p (fun y => { y with run := true, dead := if y.demand then some ⟨false, none, true⟩ else none }) s
  else pairUpd p (fun y => { y with run := true, dead := some ⟨!y.demand, none, true⟩ }) s

/-- DT := min(max(t_s + DT_margin, DT_min), DT_max) (R244). -/
def deadTime (c : PairCfg) (sensed : Option Nat) : Nat :=
  match sensed with
  | some t => min (max (t + c.dtMargin) c.dtMin) c.dtMax
  | none => c.dtMax

/-- The latch of a pair sets: both outputs low, a pending turn-on cancelled (R248, R250). -/
def pairTrip (p : Nat) (s : State) : State :=
  let x := pairGet s p
  let s1 := pairOff p (pairUpd p (fun y => { y with latch := true, trips := if y.latch then y.trips else inc32 y.trips }) s)
  if x.latch then s1 else raise 3 0x022 0x02 .notice p [] s1

/-- Comparators that can trip a pair (Table 9.9). -/
def tripSources (s : State) (p : Nat) : List Nat := (List.range 24).filter (fun n => bit (cmpCfg s n).pmask p)

/-- A commit of a pair's parameters at boundary b: enabling the pair or changing DIV, P or the mode restarts the counter, outputs off until it
becomes 0 (R241, Table 9.8); a fixed duty arrives (R243). -/
def pairCommit (t : State) (p : Nat) (new : PairCfg) : State :=
  let old := pairCfg t p
  let re := old.div ≠ new.div ∨ old.period ≠ new.period ∨ old.mode % 8 ≠ new.mode % 8
  let first := if pairMode new = 0 then none else some ((t.nowUs - t.tick.past) * 1000 + new.phase * new.div)
  pairUpd p (fun x =>
    let y : PwmPair :=
      if re then { x with
        outA := false, outB := false, run := false, dead := none, demand := false, first := first, periods := 0, dtA := [], dtB := [], occ := [] }
      else { x with occ := [] }
    if new.src / 16384 = 0 then { y with hold := new.dfix * 4096, holdTag := BitVec.ofNat 16 t.tick.index } else y) t

/-- A comparator that the commit disables is not active (R248); its latch stays (R251). -/
def cmpCommit (w : PwmSt) (n : Nat) (k : CmpCfg) : PwmSt :=
  { w with cmp := tset w.cmp n k, active := if bit k.flags 0 then w.active else w.active &&& ~~~(1#24 <<< n) }

/-- Commit of shadow set bit 2 at boundary b (R241, R243, R246, R251). -/
def commitPwm (s : State) : State :=
  let s1 := s.pwm.genNew.foldl (fun t e => genUpd e.1 (fun x => { x with occ := [] }) t) s
  let s2 := s1.pwm.pairNew.foldl (fun t e => pairCommit t e.1 e.2) s1
  pairsRecheck (s2.onPwm (fun w => { w.cmpNew.foldl (fun x e => cmpCommit x e.1 e.2) w with
    gen := w.genNew.foldl (fun t x => tset t x.1 x.2) w.gen, genNew := [],
    pair := w.pairNew.foldl (fun t x => tset t x.1 x.2) w.pair, pairNew := [], cmpNew := [] }))

end Sys2Proof.Machine
end

