-- ==== Sys2Proof/Machine/LoopOps.lean ====
section
/-! DEFINITION. Shared operations of the loop engine (chapter 10): signals, the channel computation, modes and
supervision, commits. -/

namespace Sys2Proof.Machine

open Sys2Proof

def loopCfg (s : State) (l : Nat) : LoopCfg := tget {} s.loop.cfg l

/-- The parameters of the shadow set (Table 5.4): the staged ones, else the active ones. -/
def loopShadow (s : State) (l : Nat) : LoopCfg := tget (loopCfg s l) s.loop.cfgNew l

def loopGet (s : State) (l : Nat) : LoopCh := tget {} s.loop.ch l

def loopUpd (l : Nat) (f : LoopCh → LoopCh) (s : State) : State := s.onLoop (fun x => { x with ch := tupd {} x.ch l f })

def loopEvent (l kind : Nat) (d : List Nat) (s : State) : State := raise (1 + l / 256) 0x020 kind .notice l d s

/-- Channels of a die at the present T (R256). -/
def loopChannels (t : Nat) : Nat := if t = 1 then 128 else 256

/-- FORM fields (Table 10.8). -/
def LoopCfg.shape (c : LoopCfg) : Nat := c.form % 4

def LoopCfg.third (c : LoopCfg) : Bool := bit c.form 2

def LoopCfg.rank1 (c : LoopCfg) : Bool := bit c.form 3

def LoopCfg.dither (c : LoopCfg) : Bool := bit c.form 4

def LoopCfg.signedTable (c : LoopCfg) : Bool := bit c.form 5

/-- A channel counts as privileged, and as repetitive, while its FORM is not 0 (R281). -/
def LoopCfg.privileged (c : LoopCfg) : Bool := c.shape != 0 && c.ffmode % 4 != 0

def LoopCfg.repetitive (c : LoopCfg) : Bool := c.shape != 0 && bit c.rflags 0

def LMode.code : LMode → Nat
  | .off => 0 | .track => 1 | .run => 2 | .hold => 3 | .fbHold => 4 | .fbRamp => 5 | .fbBlock => 6

def LMode.fallback : LMode → Bool
  | .fbHold | .fbRamp | .fbBlock => true
  | _ => false

/-- Readers see the output as valid (Table 10.3). -/
def LMode.valid : LMode → Bool
  | .track | .run | .hold => true
  | _ => false

/-! ### Signals (R260, R261) -/

/-- Where a selector's signal stands in the tables: classes 0x3 to 0x5 are the die's own. -/
def sigKey (die sel : Nat) : Nat :=
  let cls := sel / 4096
  if 3 ≤ cls ∧ cls ≤ 5 then die * 65536 + sel else sel

/-- A loop channel's output as a signal. -/
def chanSig (c : LoopCh) : Sig := ⟨if c.mode.valid then c.u else c.lastU, c.mode.valid, true⟩

/-- A signal as a channel of the die reads it: `old` is the state before this tick's evaluations, `same` the state in
which the rank-0 outputs of this tick stand. -/
def loopRead (old same : State) (die : Nat) (rank1 : Bool) (sel : Nat) : Sig :=
  match sel / 4096 with
  | 0 => ⟨0, true, false⟩
  | 3 =>
    let l := 256 * die + sel % 256
    if rank1 && !(loopCfg same l).rank1 then chanSig (loopGet same l) else chanSig (loopGet old l)
  | _ => tget {} same.loop.sigs (sigKey die sel)

/-- A selector names a unit that is absent, or another die (R260, R281). -/
def selFit (s : State) (die sel : Nat) : Bool :=
  match sel / 4096 with
  | 1 => mprOk s
  | 5 => sel % 256 < 12 && sel % 256 / 6 == die && armOk s (sel % 16)
  | _ => true

/-- The fields of a selector are in their ranges (Tables 10.2 and 10.3); class 0x3 keeps to channels that exist at T. -/
def selOk (t sel : Nat) : Bool :=
  let i := sel % 4096
  match sel / 4096 with
  | 0 => i == 0
  | 1 => i < 512 && i / 64 % 4 == 0
  | 2 => i < 128
  | 3 => i < loopChannels t
  | 4 => i < 64
  | 5 => i / 256 < 2 && i % 256 < 12
  | 6 => i < 2
  | 7 => i < 2
  | _ => false

/-! ### Gain table and scheduling (R264, R265) -/

/-- The gain read for an error e in Q3.28 (the pseudocode of R264). -/
def gainAt (c : LoopCfg) (e : Int) : Int :=
  let h : Nat := 2 ^ (28 - c.q)
  let a0 : Int := if c.signedTable then e + 32 * h else e.natAbs
  let a := a0.toNat
  let i := a / h
  let f := a % h
  let g := fun (n : Nat) => c.gains.getD n 0
  if 63 ≤ i then g 63 else g i + roundDiv (f * (g (i + 1) - g i)) h

/-- The region that covers s with no hysteresis. -/
def regionCover (c : LoopCfg) (x : Int) : Nat := ((c.thetas.take (c.regions - 1)).filter (fun t => t ≤ x)).length

/-- While s is at or past the next threshold and H, the region rises. -/
def regionUp (c : LoopCfg) (x : Int) (r : Nat) (fuel : Nat) : Nat :=
  match fuel with
  | 0 => r
  | k + 1 => if r + 1 < c.regions ∧ c.thetas.getD r 0 + c.hyst ≤ x then regionUp c x (r + 1) k else r

/-- While s is below the region's own threshold less H, the region falls. -/
def regionDown (c : LoopCfg) (x : Int) (r : Nat) : Nat :=
  match r with
  | 0 => 0
  | k + 1 => if x < c.thetas.getD k 0 - c.hyst then regionDown c x k else k + 1

/-- The region in force after one evaluation (R265). -/
def regionNext (c : LoopCfg) (x : Int) (r : Nat) : Nat :=
  if c.regions ≤ 1 then 0
  else if regionUp c x r 8 ≠ r then regionUp c x r 8 else regionDown c x r

/-- The scheduling variable, or its magnitude. -/
def schedVar (c : LoopCfg) (x : Sig) : Int := if c.mag then x.v.natAbs else x.v

/-! ### The channel computation (R262) -/

/-- What one RUN evaluation computes. -/
structure LoopOut where
  e    : Int
  v    : Int
  u    : Int
  h    : Int
  sats : List Nat

/-- The pseudocode of R262; `lo` and `hi` are the limits in force, `g` the gain of the table, `rep` the repetitive term. -/
def loopCompute (c : LoopCfg) (ch : LoopCh) (k : List Int) (r y x g rep lo hi : Int) : LoopOut :=
  let q := fun (n : Nat) => k.getD n 0
  let e := satS 32 (r - y)
  let zero := q 0 * e + q 1 * ch.e1 + q 2 * ch.e2 + q 3 * ch.e3
  let pole := q 4 * ch.h1 + q 5 * ch.h2 + q 6 * ch.h3
  let acc0 :=
    if c.shape = 2 then g * e
    else if c.shape = 3 then roundDiv zero (2 ^ 29) * g - pole
    else zero - pole
  let acc1 := acc0 + rep * (2 ^ 29 : Nat)
  let acc := if c.ffmode % 4 = 1 then acc1 + c.kff * x else acc1
  let v0 := satS 32 (roundDiv acc (2 ^ 29))
  let sc := roundDiv (v0 * c.kff) (2 * (max x c.xmin).toNat)
  let v := if c.ffmode % 4 = 2 then satS 32 sc else v0
  let u := min (max v lo) hi
  let h0 := roundDiv (v * (2 ^ 29 : Nat) + c.kb * (u - v)) (2 ^ 29)
  let h := satS 32 h0
  { e := e, v := v, u := u, h := h,
    sats := (if e ≠ r - y then [0] else []) ++
      (if v0 ≠ roundDiv acc (2 ^ 29) ∨ (c.ffmode % 4 = 2 ∧ v ≠ sc) then [1] else []) ++ (if h ≠ h0 then [2] else []) }

/-- The limits in force: scaled by the group's k where LIMSCALE is set (R270). -/
def loopLimits (s : State) (c : LoopCfg) : Int × Int × Bool :=
  if bit c.limscale 0 then
    let k := kOf s (c.limscale / 2 % 2)
    (roundDiv (k * c.ulo) (2 ^ 28), roundDiv (k * c.uhi) (2 ^ 28), decide (k < one28))
  else (c.ulo, c.uhi, false)

/-- The track value clamped to the limits in force (R272). -/
def trackValue (rd : Nat → Sig) (c : LoopCfg) (lo hi : Int) : Int :=
  let t := rd c.track
  min (max (if t.ok then t.v else 0) lo) hi

/-! ### Repetitive controller (R267, R268) -/

/-- The bin of a phase: bits [27:17]. -/
def phaseBin (p : Int) : Nat := ((p % (2 ^ 28 : Nat)) / (2 ^ 17 : Nat)).toNat

/-- The update of the bin just left. -/
def binUpdate (c : LoopCfg) (m sum : Int) (cnt : Nat) : Int :=
  let mean := if cnt = 0 then 0 else roundDiv sum cnt
  clampI (-c.mlim) c.mlim (roundDiv (c.qf * m) (2 ^ 29) + roundDiv (c.kr * mean) (2 ^ 29))

/-- The repetitive controller of a channel in RUN: the term of this evaluation, and what e adds to its bin. -/
def repTerm (c : LoopCfg) (ch : LoopCh) (p : Sig) : Int :=
  if !c.repetitive then 0
  else if !p.ok then ch.rep
  else tget 0 ch.bins ((phaseBin p.v + c.lead) % 2048)

def repLearn (c : LoopCfg) (e : Int) (p : Sig) (ch : LoopCh) : LoopCh :=
  if !(c.repetitive && bit c.rflags 1 && p.ok) then { ch with learn := false }
  else
    let b := phaseBin p.v
    match ch.bin with
    | some old =>
      if old = b then { ch with sum := ch.sum + e, cnt := ch.cnt + 1, learn := true }
      else { ch with
        bins := tset ch.bins old (binUpdate c (tget 0 ch.bins old) ch.sum ch.cnt), bin := some b, sum := e, cnt := 1,
        learn := true }
    | none => { ch with bin := some b, sum := e, cnt := 1, learn := true }

/-! ### Modes (Tables 10.4 and 10.5) -/

/-- The fallback named by FB. -/
def LoopCfg.fallback (c : LoopCfg) : LMode := if c.fbk = 1 then .fbRamp else if c.fbk = 2 then .fbBlock else .fbHold

/-- A fallback is entered: event, and for FB_BLOCK the controlled-block request (R274). -/
def enterFallback (l : Nat) (c : LoopCfg) (cause : Nat) (s : State) : State :=
  let m := c.fallback
  let s1 := loopEvent l 0x03 [m.code, cause]
    (loopUpd l (fun x => { x with mode := m, spent := 0, supervised := inc32 x.supervised, good := 0 }) s)
  if m = .fbBlock then controlledBlock (loopEvent l 0x04 [] s1) else s1

/-- RUN meets a bad feedback (R273). -/
def enterHold (l : Nat) (c : LoopCfg) (cause : Nat) (s : State) : State :=
  if c.ht = 0 then enterFallback l c 0 s
  else loopEvent l 0x01 [cause]
    (loopUpd l (fun x => { x with mode := .hold, spent := 0, supervised := inc32 x.supervised }) s)

/-- The region that RUN is entered with. -/
def entryRegion (rd : Nat → Sig) (c : LoopCfg) : Nat := if c.regions ≤ 1 then 0 else regionCover c (schedVar c (rd c.sched))

/-- Back to RUN from HOLD or a fallback; `init` is the resume initialisation of R272, of which the repetitive sum's restart
comes about on every resume (Table 10.6). -/
def resume (l : Nat) (rd : Nat → Sig) (c : LoopCfg) (init : Bool) (s : State) : State :=
  let ch := loopGet s l
  let bin := if c.repetitive && (rd c.phase).ok then some (phaseBin (rd c.phase).v) else none
  loopEvent l 0x02 [ch.mode.code, ch.spent]
    (loopUpd l (fun x =>
      let y : LoopCh := { x with mode := .run, spent := 0, region := entryRegion rd c, bin := bin, sum := 0, cnt := 0 }
      if init then { y with e1 := 0, e2 := 0, e3 := 0, h1 := x.u, h2 := x.u, h3 := x.u } else y) s)

/-- The output of a fallback in one evaluation (Table 10.4). -/
def fallbackStep (c : LoopCfg) (lo hi : Int) (x : LoopCh) : LoopCh :=
  if x.mode = .fbRamp then { x with u := min (max (x.u + clampI (-c.rfb) c.rfb (c.usafe - x.u)) lo) hi } else x

/-- One source becomes invalid or valid again: one event per episode (R261, Table 10.7). -/
def inputEvent (l n sel : Nat) (ok : Bool) (s : State) : State :=
  let bad := (loopGet s l).inBad.getLsbD n
  if bad == !ok then s
  else loopEvent l 0x06 [n, sel, b2n ok]
    (loopUpd l (fun x => { x with inBad := if ok then x.inBad &&& ~~~(1#4 <<< n) else x.inBad ||| (1#4 <<< n) }) s)

/-- The events of a channel's own sources. -/
def inputEvents (l : Nat) (rd : Nat → Sig) (c : LoopCfg) (s : State) : State :=
  let s1 := inputEvent l 0 c.ref (rd c.ref).ok s
  let s2 := inputEvent l 1 c.ffsrc (c.ffmode % 4 = 0 || (rd c.ffsrc).ok) s1
  let s3 := inputEvent l 2 c.sched (c.regions ≤ 1 || (rd c.sched).ok) s2
  inputEvent l 3 c.phase (!c.repetitive || (rd c.phase).ok) s3

/-- The feedback supervisor at one evaluation (R273). -/
def supervise (c : LoopCfg) (y : Sig) (x : LoopCh) : LoopCh :=
  let on := bit c.sflags 1 && c.dither
  let n := if !on then 0 else if !y.fresh then x.frz else if !y.ok then 0 else if x.lastFb = some y.v then x.frz + 1 else 0
  let last := if !on then none else if !y.fresh then x.lastFb else if !y.ok then none else some y.v
  let good := y.ok && decide (n < c.nfrz)
  { x with fbBad := !y.ok, frz := n, lastFb := last, frozen := on && decide (c.nfrz ≤ n),
           good := if good then x.good + 1 else 0 }

/-- Saturations of one evaluation: counted, the first in each 1,024 ticks with an event (R263, Table 10.7). -/
def noteSats (l : Nat) (sats : List Nat) (s : State) : State :=
  match sats with
  | [] => s
  | p :: _ =>
    let ch := loopGet s l
    let first := firstIn ch.satWin s.tick.index
    let s1 := loopUpd l (fun x => { x with
      sats := min (x.sats + sats.length) 0xFFFFFFFF, satWin := if first then some s.tick.index else x.satWin }) s
    when first (loopEvent l 0x07 [p, sats.length]) s1

/-- A RUN evaluation: region, repetitive term, output, history, saturation count (R262 to R268, R275). -/
def runEval (l : Nat) (rd : Nat → Sig) (c : LoopCfg) (lo hi : Int) (s : State) : State :=
  let ch := loopGet s l
  let r := if c.ref = 0 then c.rconst else (rd c.ref).v
  let y := (rd c.fb).v
  let reg := regionNext c (schedVar c (rd c.sched)) ch.region
  let p := rd c.phase
  let rep := repTerm c ch p
  let o := loopCompute c ch (tget [] c.coef reg) r y (rd c.ffsrc).v (gainAt c (satS 32 (r - y))) rep lo hi
  let clamped := o.u != o.v
  noteSats l o.sats (loopUpd l (fun x => repLearn c o.e p { x with
    u := o.u, v := o.v, e := o.e, lastU := o.u, rep := rep, region := reg,
    switches := if reg = ch.region then x.switches else inc32 x.switches,
    e1 := o.e, e2 := ch.e1, e3 := ch.e2, h1 := o.h, h2 := ch.h1, h3 := ch.h2,
    hi := decide (o.u < o.v), lo := decide (o.v < o.u),
    sat := if clamped then x.sat + 1 else 0, satDone := x.satDone && clamped }) s)

/-- TRACK to RUN: region with no hysteresis, and the repetitive sum begins anew (R265, Table 10.4). -/
def loopStart (l : Nat) (rd : Nat → Sig) (c : LoopCfg) (s : State) : State :=
  loopUpd l (fun x => { x with mode := .run, region := entryRegion rd c, spent := 0, bin := none, sum := 0, cnt := 0 }) s

/-- H_t evaluations have passed in HOLD without good feedback: the fallback (R274). -/
def holdExpire (l : Nat) (c : LoopCfg) (s : State) : State :=
  let x := loopGet s l
  if x.mode = .hold ∧ c.ht ≤ x.spent ∧ x.good = 0 then enterFallback l c 0 s else s

/-- The saturation count has reached SAT_TIME: LOOP_SAT_LONG once, and with SAT_ACTION 1 the fallback (R275). -/
def satExpire (l : Nat) (c : LoopCfg) (lo hi : Int) (s : State) : State :=
  let x := loopGet s l
  if x.mode = .run ∧ 0 < c.satTime ∧ c.satTime ≤ x.sat ∧ !x.satDone then
    let s1 := loopEvent l 0x05 [b2n (decide (x.v < x.u)), c.satTime] (loopUpd l (fun y => { y with satDone := true }) s)
    if c.satAct = 1 then loopUpd l (fallbackStep c lo hi) (enterFallback l c 1 s1) else s1
  else s

/-- AUTO_RESUME with feedback good in 64 consecutive evaluations of the fallback (Table 10.5). -/
def resumeDue (c : LoopCfg) (x : LoopCh) : Bool :=
  (x.mode == .fbHold || x.mode == .fbRamp) && bit c.sflags 2 && decide (64 ≤ x.good)

/-- One evaluation of a channel that is not OFF (R271 to R276). The end of HOLD, the saturation time and the 64 good evaluations take effect
in the evaluation that completes them; LOOP_HOLD_EXPIRY, LOOP_SAT_TIME_REACHED and LOOP_AUTO_RESUME find what a commit between two
evaluations has made due. -/
def evalChannel (l : Nat) (rd : Nat → Sig) (s : State) : State :=
  let c := loopCfg s l
  let lim := loopLimits s c
  let lo := lim.1
  let hi := lim.2.1
  let s1 := inputEvents l rd c s
  let s2 := loopUpd l (fun x => { supervise c (rd c.fb) x with scaled := lim.2.2, hi := false, lo := false, learn := false, ack := false }) s1
  let ch := loopGet s2 l
  let ack := (loopGet s l).ack
  let loss := bit c.sflags 0 && ch.fbBad
  let goodNow := 0 < ch.good
  let more := loopUpd l (fun x => { x with spent := x.spent + 1 })
  let s3 := if ch.mode == .track && s.dev.state == .deblocked then loopStart l rd c s2 else s2
  let s4 := match (loopGet s3 l).mode with
    | .run => if loss || ch.frozen then enterHold l c (b2n loss + 2 * b2n ch.frozen) s3 else s3
    | .hold => if goodNow then resume l rd c false s3 else holdExpire l c (more s3)
    | .fbHold => if (ack && goodNow) || resumeDue c ch then resume l rd c true s3 else more s3
    | .fbRamp => if (ack && goodNow) || resumeDue c ch then resume l rd c true s3 else more s3
    | .fbBlock => more s3
    | _ => s3
  match (loopGet s4 l).mode with
  | .track =>
    let t := trackValue rd c lo hi
    loopUpd l (fun x => { x with u := t, lastU := t, e1 := 0, e2 := 0, e3 := 0, h1 := t, h2 := t, h3 := t }) s4
  | .run => satExpire l c lo hi (runEval l rd c lo hi s4)
  | _ => loopUpd l (fallbackStep c lo hi) s4

/-- LOOP_END of a die: when its last channel delivers, in ns after the input crossing (R257, R258). -/
def loopEnd (n0 n1 lanes : Nat) : Nat :=
  let c0 := (n0 + lanes - 1) / lanes
  let c1 := (n1 + lanes - 1) / lanes
  if n0 = 0 ∧ n1 = 0 then 0 else if n0 = 0 then 4 * c1 + 12 else if n1 = 0 then 4 * c0 + 12 else 4 * (c0 + c1) + 20

/-- Channels of a die and a rank that are not OFF, in ascending number. -/
def liveChannels (s : State) (die : Nat) (rank1 : Bool) : List Nat :=
  (s.loop.cfg.filter (fun e => e.1 / 256 == die && e.2.shape != 0 && e.2.rank1 == rank1)).map (·.1) |>.filter
    (fun l => (loopGet s l).mode != .off)

/-- Every channel of a die once: rank 0, then rank 1 (R257). -/
def evalDie (die : Nat) (s : State) : State :=
  if !ctlOk s die then s
  else
    let r0 := liveChannels s die false
    let r1 := liveChannels s die true
    let lanes := max 1 (tget 8 s.loop.lanes die)
    let s1 := r0.foldl (fun t l => evalChannel l (loopRead s t die false) t) s
    let s2 := r1.foldl (fun t l => evalChannel l (loopRead s s1 die true) t) s1
    s2.onLoop (fun x => { x with ends := tset x.ends die (loopEnd r0.length r1.length lanes) })

/-! ### Commits and device states -/

/-- Track initialisation of a channel that leaves OFF (Table 10.5). -/
def leaveOff (l : Nat) (c : LoopCfg) (s : State) : State :=
  let rd := loopRead s s (l / 256) c.rank1
  let lim := loopLimits s c
  let t := trackValue rd c lim.1 lim.2.1
  let run := running s
  let s1 := loopUpd l (fun x => { ({} : LoopCh) with
    mode := if run then .run else .track, u := t, lastU := t, h1 := t, h2 := t, h3 := t, region := entryRegion rd c,
    sats := x.sats, supervised := x.supervised, switches := x.switches }) s
  when run (loopEvent l 0x08 [pairWord 0 2]) s1

/-- FORM 0: the channel goes OFF and keeps nothing but its counts and the last valid value that its readers hold (Table 10.4, R261). -/
def goOff (l : Nat) (s : State) : State :=
  let m := (loopGet s l).mode
  let s1 := loopUpd l (fun x => { ({} : LoopCh) with lastU := x.lastU, sats := x.sats, supervised := x.supervised, switches := x.switches }) s
  when (m != .off && m != .track) (loopEvent l 0x08 [pairWord m.code 0]) s1

/-- One channel's shadow set becomes active (R265, R268, R271). -/
def commitChannel (l : Nat) (n : LoopCfg) (s : State) : State :=
  let o := loopCfg s l
  let act : LoopCfg := { n with rflags := n.rflags % 4, sflags := n.sflags % 8 }
  let s1 := s.onLoop (fun x => { x with cfg := tset x.cfg l act })
  if n.shape = 0 then goOff l s1
  else if (loopGet s1 l).mode = .off then leaveOff l act s1
  else
    let rd := loopRead s1 s1 (l / 256) act.rank1
    let clear := bit n.rflags 2 || (bit o.rflags 0 && !bit n.rflags 0)
    loopUpd l (fun x =>
      let y : LoopCh := if clear then { x with bins := [], bin := none, sum := 0, cnt := 0, rep := 0 } else x
      let y : LoopCh := if o.regions ≠ n.regions ∨ o.thetas ≠ n.thetas then { y with region := entryRegion rd act } else y
      { y with ack := bit n.sflags 3 }) s1

/-- Commit of shadow set bit 0. -/
def commitLoop (s : State) : State :=
  let s1 := s.loop.cfgNew.foldl (fun t e => commitChannel e.1 e.2 t) s
  s1.onLoop (fun x => { x with cfgNew := [] })

/-- The device enters a state other than DEBLOCKED and SAFE_STOP: every channel not OFF goes to TRACK (Table 10.5). -/
def loopsTrack (s : State) : State :=
  (s.loop.ch.map (·.1)).foldl (fun t l =>
    let m := (loopGet t l).mode
    if m = .off then t
    else
      let t1 := loopUpd l (fun x => { x with mode := .track, spent := 0 }) t
      when (m == .hold || m.fallback) (loopEvent l 0x08 [pairWord m.code 1]) t1) s

end Sys2Proof.Machine
end

