-- ==== Sys2Proof/Machine/MeasOps.lean ====
section
/-! DEFINITION. Shared operations of the measurement converters and filter chains (chapter 13). -/

namespace Sys2Proof.Machine

open Sys2Proof

def mChan (s : State) (c : Nat) : MChanCfg := tget {} s.meas.chan c

def mChanShadow (s : State) (c : Nat) : MChanCfg := tget (mChan s c) s.meas.chanNew c

def mSeq (s : State) (u : Nat) : MSeqCfg := tget {} s.meas.seq u

def mSeqShadow (s : State) (u : Nat) : MSeqCfg := tget (mSeq s u) s.meas.seqNew u

def mGet (s : State) (c : Nat) : MChan := tget {} s.meas.chans c

def mUpd (c : Nat) (f : MChan → MChan) (s : State) : State := s.onMeas (fun m => { m with chans := tupd {} m.chans c f })

def unitGet (s : State) (u : Nat) : MUnit := tget {} s.meas.units u

def unitUpd (u : Nat) (f : MUnit → MUnit) (s : State) : State := s.onMeas (fun m => { m with units := tupd {} m.units u f })

def mPair (s : State) (p : Nat) : MPair := tget {} s.meas.pairs p

def mPairUpd (p : Nat) (f : MPair → MPair) (s : State) : State := s.onMeas (fun m => { m with pairs := tupd {} m.pairs p f })

def measEvent (kind : Nat) (cls : FClass) (addr : Nat) (d : List Nat) (s : State) : State := raise 3 0x038 kind cls addr d s

/-- The physical unit that serves a logical one (R336, R362). -/
def physOf (s : State) (u : Nat) : Nat := (unitGet s u).phys.getD u

def unitIn (s : State) (u : Nat) : Bool := u < 4 && !(unitGet s u).removed

/-- The spare is idle and calibrated (R353, R362). -/
def spareIdle (s : State) : Bool :=
  s.meas.spareCal && !s.meas.spareBad && s.meas.spareFor.isNone && s.meas.covers.isNone && !s.meas.spareRun

/-! ### Filter chains (R338, R346 to R349) -/

/-- A sample in Q3.28 from a code (R338). -/
def sampleOf (c : MChanCfg) (code : Int) : Int := satS 32 (roundDiv (code * c.gain) (2 ^ 15) - c.offs)

/-- One stage: its history, and its output once it is full; a stage of length 1 passes through. -/
def stageOf13 (l : Nat) (h : List Int) (y : Option Int) : List Int × Option Int :=
  match y with
  | none => (h, none)
  | some v =>
    if l ≤ 1 then (h, some v)
    else
      let n := (v :: h).take l
      (n, if n.length = l then some (roundDiv n.sum l) else none)

/-- The largest power of two not above both C and the samples taken (R347). -/
def coarseLen (c n : Nat) : Nat := if 4 ≤ c ∧ 4 ≤ n then 4 else if 2 ≤ c ∧ 2 ≤ n then 2 else 1

/-- A channel takes a sample (R346, R347, R349). -/
def takeSample (cfg : MChanCfg) (x : Int) (at_ : Nat) (ovr late : Bool) (m : MChan) : MChan :=
  let n := min (m.count + 1) 65535
  let hc := (x :: m.hc).take 4
  let k := coarseLen cfg.c n
  let coarse := roundDiv (hc.take k).sum k
  let a := stageOf13 cfg.l1 m.h1 (some x)
  let b := stageOf13 cfg.l2 m.h2 a.2
  let c := stageOf13 cfg.l3 m.h3 b.2
  let filling := c.2.isNone
  let fine := c.2.getD coarse
  let far := cfg.step != 0 && !filling && decide (cfg.step < ((x - fine).natAbs : Int))
  let step := far && m.far
  let y : MChan := { m with
    h1 := a.1, h2 := b.1, h3 := c.1, hc := hc, count := n, fine := fine, coarse := coarse, filling := filling, far := far,
    step := step, stepSet := m.stepSet || step, ovr := ovr, late := late, sampled := true, at_ := at_, fresh := true }
  let full := fun (l : Nat) => if l ≤ 1 then [] else List.replicate l x
  if step && cfg.reload then { y with h1 := full cfg.l1, h2 := full cfg.l2, h3 := full cfg.l3, fine := x, far := false } else y

/-- A channel switch (R348). -/
def chanSwitch (m : MChan) : MChan :=
  { m with h1 := [], h2 := [], h3 := [], hc := [], count := 0, filling := true, far := false, step := false, fresh := false }

/-- What of a commit switches a channel (R348). -/
def switches (a b : MChanCfg) : Bool :=
  (!a.on && b.on) || a.unit != b.unit || a.pos != b.pos || a.gain != b.gain || a.offs != b.offs || a.c != b.c || a.l1 != b.l1 ||
    a.l2 != b.l2 || a.l3 != b.l3

/-- Switch every channel that `p` names. -/
def switchAll (p : Nat → Bool) (s : State) : State :=
  s.onMeas (fun m => { m with chans := m.chans.map (fun e => if p e.1 then (e.1, chanSwitch e.2) else e) })

/-! ### Cross-check (R360) -/

/-- The two channels of an active cross-check: the owner's and the other unit's. -/
def crossPair (s : State) (p : Nat) : Option (Nat × Nat) :=
  let q := mSeq s (2 * p)
  if 24 ≤ q.xsel ∨ (unitGet s (2 * p)).removed ∨ (unitGet s (2 * p + 1)).removed then none
  else
    let own := if q.xsel < 12 then 2 * p else 2 * p + 1
    let oth := if q.xsel < 12 then 2 * p + 1 else 2 * p
    let find := fun (u pos : Nat) => (s.meas.chan.filter (fun e => e.2.on && e.2.unit == u && e.2.pos == pos)).map (·.1)
    match find own (q.xsel % 12), find oth 12 with
    | [a], [b] =>
      let x := mChan s a
      let y := mChan s b
      if x.gain = y.gain ∧ x.offs = y.offs ∧ x.c = y.c ∧ x.l1 = y.l1 ∧ x.l2 = y.l2 ∧ x.l3 = y.l3 then some (a, b) else none
    | _, _ => none

/-- The test on the DAC is a path test of this channel. -/
def pathTestOn (s : State) (c : Nat) : Bool :=
  s.meas.testOn && (match s.meas.tests with
    | t :: _ => t.path && t.obj == c
    | [] => false)

/-- XMIS: the channel takes part in a mismatch (R360). -/
def xmisOn (s : State) (c : Nat) : Bool :=
  [0, 1].any (fun p => (mPair s p).mis && (crossPair s p).any (fun e => e.1 == c || e.2 == c))

/-- Valid but for what a mismatch makes of it (R345). -/
def chanSound (s : State) (c : Nat) : Bool :=
  let cfg := mChan s c
  mprOk s && cfg.on && 0 < (mGet s c).count && s.meas.settled && unitIn s cfg.unit && !pathTestOn s c

/-- VALID (R345). -/
def chanValid (s : State) (c : Nat) : Bool := chanSound s c && !(xmisOn s c && (mSeq s ((mChan s c).unit / 2 * 2)).xinv)

/-- The outputs in force are kept, before something makes channels invalid (R345). -/
def keepOutputs (s : State) : State :=
  s.onMeas (fun m => { m with chans := m.chans.map (fun e =>
    if chanValid s e.1 then (e.1, { e.2 with okFine := e.2.fine, okCoarse := e.2.coarse }) else e) })

/-- A channel's outputs: while it is invalid, its last valid values (R345). -/
def chanOut (s : State) (c : Nat) : Int × Int :=
  let m := mGet s c
  if chanValid s c then (m.fine, m.coarse) else (m.okFine, m.okCoarse)

/-- The flags of Table 13.4 at the latch. -/
def chanFlags (s : State) (c : Nat) : BitVec 8 :=
  let cfg := mChan s c
  let m := mGet s c
  let cal := cfg.on && (unitGet s cfg.unit).cal == some false
  BitVec.ofNat 8 (b2n (chanValid s c) + 2 * b2n m.filling + 4 * b2n (m.step || m.stepSet) + 8 * b2n m.ovr + 16 * b2n m.late +
    32 * b2n cal + 64 * b2n (pathTestOn s c) + 128 * b2n (xmisOn s c))

/-! ### Tests and calibrations (R352 to R361) -/

/-- The first test starts when the DAC is free, the reference settled, and the channel's unit not calibrating uncovered. -/
def testStart (s : State) : State :=
  match s.meas.tests with
  | t :: _ =>
    let wait := t.path && (unitGet s (mChan s t.obj).unit).cal == some false
    if s.meas.testOn ∨ !s.meas.settled ∨ wait then s else (keepOutputs s).onMeas (fun m => { m with testOn := true })
  | [] => s

def testAdd (t : DacTest) (s : State) : State := testStart (s.onMeas (fun m => { m with tests := m.tests ++ [t] }))

/-- The first test leaves the DAC. -/
def testPop (s : State) : State := testStart (s.onMeas (fun m => { m with tests := m.tests.drop 1, testOn := false }))

/-- A calibration of a unit is requested: the spare calibrates at once, a covered calibration takes the spare for the unit, another waits for
a conversion's end (R353, R354). -/
def calStart (u : Nat) (covered : Bool) (s : State) : State :=
  if u = 4 then s.onMeas (fun m => { m with spareRun := true })
  else if covered then unitUpd u (fun x => { x with calReq := some true }) (s.onMeas (fun m => { m with covers := some u }))
  else unitUpd u (fun x => { x with calReq := some false }) s

/-- A calibration, covered where R353 allows and `unc` does not rule it out. It waits while the spare covers another unit or calibrates
(DEDUCED, assumption 149). -/
def calAsk (u : Nat) (unc : Bool) (s : State) : State :=
  let taken := s.meas.covers.isSome || s.meas.spareRun
  if u = 4 then (if taken then s.onMeas (fun m => { m with calQ := m.calQ ++ [u] }) else calStart u false s)
  else if unc then calStart u false s
  else if spareIdle s then calStart u true s
  else if taken then s.onMeas (fun m => { m with calQ := m.calQ ++ [u] })
  else calStart u false s

/-- The next calibration that waited for the spare. -/
def calNext (s : State) : State :=
  match s.meas.calQ with
  | u :: r =>
    if s.meas.covers.isSome ∨ s.meas.spareRun then s
    else calStart u (u != 4 && spareIdle s) (s.onMeas (fun m => { m with calQ := r }))
  | [] => s

/-- The five units of a settle calibration that are there (R351). -/
def calUnits (s : State) : List Nat :=
  ([0, 1, 2, 3].filter (unitIn s)) ++ (if s.meas.spareFor.isNone ∧ !s.meas.spareBad then [4] else [])

/-- REF byte of Table 13.10. -/
def refByte (s : State) : Nat := s.meas.refsel + 4 * b2n s.meas.settled

/-- The end of the calibrations after settling: every channel is switched, MEAS_REF_SELECT ends, and what settling broke off runs again
(R351, R364, R368). -/
def settleEnd (s : State) : State :=
  let s1 := switchAll (fun _ => true) (keepOutputs s)
  let s2 := s1.meas.jobs.foldl (fun t j => j.left.foldl (fun u n => calAsk n j.unc u) t) s1
  endPending (fun p => p.opcode == 0x0904) .ok (le 1 (refByte s2) ++ le 1 s2.meas.settleM) (testStart s2)

/-- The result of a MEAS_CALIBRATE (Table 13.9). -/
def CalJob.bytes (j : CalJob) : Bytes :=
  le 1 j.pass ++ le 1 j.covered ++ le 2 0 ++ ((List.range 5).flatMap (fun u => leS 2 (tget (0, 0) j.res u).1 ++ leS 2 (tget (0, 0) j.res u).2))

/-- The MEAS_CALIBRATE commands that have no unit left end. -/
def jobsEnd (s : State) : State :=
  let gone := s.meas.jobs.filter (fun j => j.left.isEmpty)
  gone.foldl (fun t j => endPending (fun p => p.opcode == 0x0905 && p.arg == j.mask) .ok j.bytes t)
    (s.onMeas (fun m => { m with jobs := m.jobs.filter (fun j => !j.left.isEmpty) }))

/-- A unit leaves the calibrations after settling; with the last they end. -/
def settleLeave (u : Nat) (s : State) : State :=
  let s1 := s.onMeas (fun m => { m with settleQ := m.settleQ.filter (· != u) })
  if s.meas.settleQ.contains u ∧ s1.meas.settleQ.isEmpty then settleEnd s1 else s1

/-- The regular slot after `n`. -/
def nextSlot (q : MSeqCfg) (n : Nat) : Nat := if q.rlen = 0 then 0 else (n + 1) % q.rlen

/-- The conversion of a slot as it starts: of a channel that is enabled on this unit, else of position 15 (R338, R340). -/
def convOf (s : State) (u : Nat) (inj : Bool) (slot : Nat) : Conv :=
  let q := mSeq s u
  let ch := if inj then q.islots.getD slot 255 else if slot < q.rlen then q.rslots.getD slot 255 else 255
  { inj := inj, slot := slot, ch := if ch < 64 && (mChan s ch).on && (mChan s ch).unit == u then ch else 255 }

/-- The covered swap, at the end of a regular conversion with no trigger pending: the spare takes over the unit's sequences, or the unit,
calibrated, takes them back (R353). -/
def MUnit.swap (x : MUnit) : MUnit :=
  if x.calReq = some true ∧ !x.cur.inj then { x with cal := if x.cal = some true then none else some true, calReq := none } else x

/-- The spare is free again for other calibrations. -/
def spareFree (u : Nat) (s : State) : State :=
  calNext (s.onMeas (fun m => { m with covers := if m.covers = some u then none else m.covers }))

/-- What the unit converts after a completed conversion (R341, R354). A sequence committed meanwhile starts here, with its regular slot 0 or
with a trigger that is pending. -/
def nextConv (u : Nat) (s : State) : State :=
  let q := mSeq s u
  let x := unitGet s u
  let next := if x.restart then 0 else if x.cur.inj then x.next else nextSlot q x.cur.slot
  let y := { x with next := next, restart := false }
  let served := x.late && !x.cur.inj
  let z : MUnit :=
    if x.cur.inj ∧ !x.restart ∧ x.cur.slot + 1 < q.ilen then { y with cur := convOf s u true (x.cur.slot + 1) }
    else if x.pending ∧ 0 < q.ilen then
      { y with cur := convOf s u true 0, pending := false, late := served, lateS := x.lateS || served }
    else if x.calReq = some false then
      { y with cal := some false, calReq := none, cur := convOf s u false next, pending := false, late := false }
    else { y.swap with cur := convOf s u false next, pending := false, late := false }
  when (x.cal == some true && z.cal != some true) (spareFree u) (unitUpd u (fun _ => z) s)

/-- The unit goes on after a calibration that suspended it: with the trigger held through it, or at its next regular slot (R354). -/
def convResume (u : Nat) (s : State) : State :=
  let ilen := (mSeq s u).ilen
  unitUpd u (fun x =>
    let next := if x.restart then 0 else x.next
    let y := { x with next := next, restart := false, heldT := false }
    if x.heldT ∧ 0 < ilen then { y with late := true, lateS := true, cur := convOf s u true 0 }
    else { y with cur := convOf s u false next }) s

/-- A completed conversion's result reaches its channel (R338, R340). -/
def convResult (u : Nat) (code : Int) (at_ : Nat) (s : State) : State :=
  let x := unitGet s u
  let ch := x.cur.ch
  let cfg := mChan s ch
  if 64 ≤ ch ∨ !cfg.on ∨ cfg.unit ≠ u ∨ pathTestOn s ch then s
  else
    let m0 := mGet s ch
    let k := clampI (-32768) 32767 code
    let m := takeSample cfg (sampleOf cfg k) at_ (k = -32768 || k = 32767) (x.cur.inj && x.late) m0
    let first := m.step && firstIn m0.winStep s.tick.index
    when first (measEvent 0x09 .notice ch [])
      (mUpd ch (fun _ => if first then { m with winStep := some s.tick.index } else m) s)

/-- An overrun of a unit (R342). -/
def noteOverrun (u : Nat) (s : State) : State :=
  let first := firstIn (unitGet s u).winOver s.tick.index
  when first (measEvent 0x02 .notice u [1])
    (unitUpd u (fun x => { x with overrun := true, winOver := if first then some s.tick.index else x.winOver }) s)

/-- Commit of shadow set bit 5 (R340, R348). A conversion under way gives no sample to a channel that the commit switches. -/
def commitMeas (s : State) : State :=
  let sw := (s.meas.chanNew.filter (fun e => switches (mChan s e.1) e.2)).map (·.1)
  let us := s.meas.seqNew.map (·.1)
  let s1 := switchAll (fun c => sw.contains c) (keepOutputs s)
  let s2 := us.foldl (fun t u => unitUpd u (fun x => { x with restart := true }) t) s1
  s2.onMeas (fun m => { m with
    units := m.units.map (fun e => if sw.contains e.2.cur.ch then (e.1, { e.2 with cur := { e.2.cur with ch := 255 } }) else e)
    chan := m.chanNew.foldl (fun t e => tset t e.1 e.2) m.chan, chanNew := [],
    seq := m.seqNew.foldl (fun t e => tset t e.1 e.2) m.seq, seqNew := [] })

/-- A unit that fails is calibrated no more: what waits for its calibration goes on without it (R364). -/
def unitCalOff (unit : Nat) (s : State) : State :=
  let s1 := s.onMeas (fun x => { x with
    calQ := x.calQ.filter (· != unit), covers := if x.covers = some unit then none else x.covers,
    spareRun := x.spareRun && unit != 4, jobs := x.jobs.map (fun j => { j with left := j.left.filter (· != unit) }) })
  settleLeave unit (jobsEnd s1)

/-- The tests of a unit that is removed end: NOT_FITTED for those a command asked for (DESIGN CHOICE, assumption 150). -/
def unitTestsOff (unit : Nat) (s : State) : State :=
  let mine := fun (t : DacTest) => if t.path then (mChan s t.obj).unit == unit else t.obj == unit
  let s1 := (s.meas.tests.filter (fun t => mine t && t.cross.isNone)).foldl (fun t k =>
    endPending (fun p => p.opcode == 0x0906 && p.arg == b2n k.path * 256 + k.obj) .notFitted [] t) s
  s1.onMeas (fun x => { x with
    tests := x.tests.filter (fun t => !mine t), testOn := x.testOn && !(x.tests.head?.any mine) })

/-- A unit fails its checks: the spare takes over, or the unit is removed; 4 is the idle spare (R362, R363). -/
def unitFail (unit cause : Nat) (s : State) : State :=
  if !mprOk s ∨ 5 ≤ unit then s
  else if unit = 4 then
    if s.meas.spareFor.isNone then
      unitTestsOff 4 (unitCalOff 4 (s.onMeas (fun x => { x with spareBad := true, covers := none, units := x.units.map (fun e =>
        if x.covers = some e.1 then (e.1, { e.2 with cal := none, calReq := none }) else e) }))) else s
  else if !unitIn s unit then s
  else
    let s0 := keepOutputs (s.onMeas (fun x => { x with covers := if x.covers = some unit then none else x.covers }))
    if spareIdle s0 ∧ physOf s unit ≠ 4 then
      let s1 := unitUpd unit (fun x => { x with
        phys := some 4, cal := none, calReq := none, cur := convOf s unit false 0, next := 0, restart := false,
        pending := x.pending || x.heldT, late := x.late || x.heldT, heldT := false }) s0
      let s2 := switchAll (fun c => (mChan s c).unit == unit) (s1.onMeas (fun x => { x with spareFor := some unit }))
      testStart (unitCalOff unit (measEvent 0x0A .notice unit [physOf s unit, Config.openCode 0x380A cause] s2))
    else
      let s1 := unitUpd unit (fun x => { x with removed := true, cal := none, calReq := none, pending := false, heldT := false }) s0
      let s2 := s1.onMeas (fun x => { x with
        spareFor := if x.spareFor = some unit then none else x.spareFor,
        spareBad := x.spareBad || x.spareFor == some unit })
      testStart (unitTestsOff unit (unitCalOff unit (measEvent 0x0B .contained unit [Config.openCode 0x380B cause] s2)))

end Sys2Proof.Machine
end

