-- ==== Sys2Proof/Machine/NetOps.lean ====
section
/-! DEFINITION. Shared operations of the station networks and the host port (chapter 17). -/

namespace Sys2Proof.Machine

open Sys2Proof

def netEvent (kind : Nat) (addr : Nat) (d : List Nat) (s : State) : State := raise 0 0x011 kind .notice addr d s

def ethCfg (s : State) (p : Nat) : EthCfg := tget {} s.net.eth p

def svCfg (s : State) (n : Nat) : SvCfg := tget {} s.net.sv n

def svShadow (s : State) (n : Nat) : SvCfg := tget (svCfg s n) s.net.svNew n

def mapCfg (s : State) (n : Nat) : MapCfg := tget {} s.net.map n

def mapShadow (s : State) (n : Nat) : MapCfg := tget (mapCfg s n) s.net.mapNew n

def subCfg (s : State) (n : Nat) : GsubCfg := tget {} s.net.sub n

def subShadow (s : State) (n : Nat) : GsubCfg := tget (subCfg s n) s.net.subNew n

def pubCfg (s : State) (n : Nat) : GpubCfg := tget {} s.net.pub n

def pubShadow (s : State) (n : Nat) : GpubCfg := tget (pubCfg s n) s.net.pubNew n

def svGet (s : State) (n : Nat) : SvRun := tget {} s.net.svRun n

def svUpd (n : Nat) (f : SvRun → SvRun) (s : State) : State := s.onNet (fun x => { x with svRun := tupd {} x.svRun n f })

def subGet (s : State) (n : Nat) : GsubRun := tget {} s.net.subRun n

def subUpd (n : Nat) (f : GsubRun → GsubRun) (s : State) : State := s.onNet (fun x => { x with subRun := tupd {} x.subRun n f })

def pubGet (s : State) (n : Nat) : GpubRun := tget {} s.net.pubRun n

def pubUpd (n : Nat) (f : GpubRun → GpubRun) (s : State) : State := s.onNet (fun x => { x with pubRun := tupd {} x.pubRun n f })

def ptpGet (s : State) (p : Nat) : PtpPort := tget {} s.net.ptp p

def ptpUpd (p : Nat) (f : PtpPort → PtpPort) (s : State) : State := s.onNet (fun x => { x with ptp := tupd {} x.ptp p f })

def dmaGet (s : State) (n : Nat) : DmaStream := tget {} s.net.dma n

def dmaUpd (n : Nat) (f : DmaStream → DmaStream) (s : State) : State := s.onNet (fun x => { x with dma := tupd {} x.dma n f })

/-- Bytes read most significant first, as a MAC address stands on the wire. -/
def beVal (p : Bytes) : Nat := p.foldl (fun x b => x * 256 + b.toNat) 0

def macBytes (m : Nat) : Bytes := (le 6 m).reverse

/-- A MAC address with the group bit set. -/
def multicast (m : Nat) : Bool := bit m 40

/-- The address in force (R443). -/
def macOf (s : State) (p : Nat) : Nat :=
  if (ethCfg s p).mac = 0 then Config.factoryMac.toNat / 4 * 4 + p else (ethCfg s p).mac

def portUp (s : State) (p : Nat) : Bool := s.net.up.contains p

/-- ETHn_TXDIS holds off the transmitter of a port that is not enabled (R440). -/
def txDis (s : State) (p : Nat) : Bool := !(ethCfg s p).on

/-- The PTP clock identity: the EUI-64 of the port's address, most significant byte first (R443, Table 16.6). -/
def clockId (s : State) (p : Nat) : Nat :=
  let m := macOf s p
  m / 2 ^ 24 * 2 ^ 40 + 0xFFFE * 2 ^ 24 + m % 2 ^ 24

/-- The identity of the PCIe endpoint: vendor and device, subsystem, revision, class code (Table 17.6). -/
def pcieIdent (devId : Nat) : List Nat := [0x1F3C, 0x4B08, devId / 256 % 256, devId % 256, 0x118000]

/-! ### Sampled values (R444 to R448) -/

/-- Validity bits of a quality: 0 good, 1 invalid, 3 questionable; bit 11 is test. -/
def qualOk (q : Nat) (ignq test : Bool) : Bool := q % 4 != 1 && !(q % 4 == 3 && !ignq) && !(bit q 11 && !test)

/-- The stream's own conditions of R446. -/
def streamOk (s : State) (n : Nat) : Bool :=
  let c := svCfg s n
  let r := svGet s n
  c.on && !r.missed && r.last.any (fun a => 2 ≤ a.sync || (a.sync == 1 && c.localOk)) && !(r.mismatch && c.misInv)

/-- A sampled-value mapping is valid (R446). -/
def svMapOk (s : State) (m : Nat) : Bool :=
  let c := mapCfg s m
  c.on && streamOk s c.src && (svGet s c.src).last.any (fun a => a.vals[c.pos]?.any (fun v => qualOk v.2 c.ignq (svCfg s c.src).test))

/-- A raw count in Q3.28 per unit (R445). -/
def perUnit (raw : Int) (base : Nat) : Int := satS 32 (roundDiv (raw * (2 ^ 28 : Nat)) (max 1 base))

/-- Value position `pos` of an ASDU, in per unit. -/
def asduValue (a : Asdu) (pos base : Nat) : Int := perUnit ((a.vals.getD pos (0, 0)).1) base

/-- Raise NET_STREAM_INVALID when the stream's validity changes; `cause` says why (R460). -/
def streamNote (n cause : Nat) (s : State) : State :=
  let bad := !streamOk s n
  let r := svGet s n
  if bad = r.invalid ∨ (r.last.isNone ∧ bad) then s
  else
    netEvent 0x02 n [Config.openCode 0x1102 (if bad then cause else 0)]
      (svUpd n (fun x => { x with invalid := bad, episodes := if bad then inc32 x.episodes else x.episodes }) s)

/-- The positions of a stream that mappings take. -/
def mappedAt (s : State) (n : Nat) : List Nat :=
  (s.net.map.filter (fun e => e.1 < 128 && e.2.on && e.2.src == n)).map (·.2.pos)

/-- A compared pair of copies (R447). -/
def svCompare (n : Nat) (same : Bool) (s : State) : State :=
  let r := svGet s n
  let d := if same then 0 else r.differ + 1
  let a := if same then r.agree + 1 else 0
  let start := !r.mismatch && 4 ≤ d
  let stop := r.mismatch && 16 ≤ a
  let s1 := svUpd n (fun x => { x with
    differ := d, agree := a, mismatch := (x.mismatch || start) && !stop, compared := inc32 x.compared,
    different := if same then x.different else inc32 x.different }) s
  streamNote n 3 (when (start || stop) (netEvent 0x03 n []) s1)

/-- The sample instant in station time: the whole second plus smpCnt / rate, not after now (R448). -/
def sampleInstant (s : State) (rate cnt : Nat) : Nat :=
  let now := (base s 0).val
  let sec := now / secUnits * secUnits
  let t := sec + cnt * secUnits / rate
  if t ≤ now then t else t - secUnits

/-! ### The crossing NET to CORE (R564, R565, Table 22.2) -/

/-- An ASDU is written into the crossing of one mapping: smpCnt, smpSynch, value, quality, sample instant. -/
def mapWrite (e : Nat × MapCfg) (a : Asdu) (s : State) : State :=
  match a.vals[e.2.pos]? with
  | some v => cdcUpd 0 8 e.1 (fun x => (x.write [(a.cnt : Int), (a.sync : Int), v.1, (v.2 : Int), (a.time : Int)]).capture) s
  | none => s

/-- An accepted ASDU is written into the crossing of each enabled mapping of its stream. -/
def asduCross (n : Nat) (a : Asdu) (s : State) : State :=
  (s.net.map.filter (fun e => e.1 < 128 && e.2.on && e.2.src == n)).foldl (fun t e => mapWrite e a t) s

/-- What the control plane holds of a mapping: the ASDU captured last. -/
def asduTaken (s : State) (m : Nat) : Option Asdu :=
  match (cdcGet s 0 8 m).dest with
  | [[cnt, sync, v, q, time]] => some ⟨cnt.toNat, sync.toNat, [(v, q.toNat)], time.toNat⟩
  | _ => none

/-- The handshakes of the mappings close; with `all`, a stalled one too. -/
def mapsSettle (all : Bool) (s : State) : State :=
  ((s.net.map.map (·.1)).filter (· < 128)).foldl (fun t m =>
    if (cdcGet t 0 8 m).isOpen ∧ (all ∨ !(cdcGet t 0 8 m).stalled) then cdcUpd 0 8 m (fun x => x.settle.close) t else t) s

/-- One ASDU of a matching frame (R446, R447). The second copy of a sample of the last second is compared within DUP_WIN and discarded unseen
after it. -/
def takeAsdu (port n : Nat) (a : AsduIn) (now : Nat) (s : State) : State :=
  let c := svCfg s n
  let r := svGet s n
  let other := r.copies.find? (fun x => x.1 != port && x.2.1.cnt == a.cnt && now < x.2.2 + 1000000)
  match other with
  | some x =>
    let same := (mappedAt s n).all (fun p => x.2.1.vals[p]? == a.vals[p]?)
    let s1 := svUpd n (fun y => { y with copies := y.copies.filter (fun z => z.2.1.cnt != a.cnt) }) s
    if now ≤ x.2.2 + c.dupWin then svCompare n same s1 else s1
  | none =>
    let gap := r.last.elim 1 (fun l => (a.cnt + c.rate - l.cnt) % c.rate)
    let fresh := r.last.isNone || r.missed || (1 ≤ gap && gap ≤ c.miss)
    if c.rate ≤ a.cnt ∨ !fresh then svUpd n (fun y => { y with late := inc32 y.late }) s
    else
      let asdu : Asdu := ⟨a.cnt, a.sync, a.vals, sampleInstant s c.rate a.cnt⟩
      streamNote n 2 (asduCross n asdu (svUpd n (fun y => { y with
        prev := y.last, last := some asdu, missed := false, accepted := inc32 y.accepted,
        gaps := if r.last.isSome && !r.missed && 1 < gap then inc32 y.gaps else y.gaps,
        copies := if c.port2 && c.port3 then (port, asdu, now) :: y.copies.filter (fun z => now < z.2.2 + 1000000 && z.2.1.cnt != a.cnt) else [] }) s))

/-- AGE in ns, at the input crossing 40 ns after the boundary, of the sample that a stream's mappings hold (R448, Table 5.2). -/
def ageNs (s : State) (n : Nat) : Nat :=
  match (s.net.map.find? (fun e => e.1 < 128 && e.2.on && e.2.src == n)).bind (fun e => asduTaken s e.1) with
  | none => 0xFFFFFFFF
  | some a => if timeUnset s then 0xFFFFFFFF else min ((stationAt s (40 * 2 ^ 32 : Nat) - a.time) / 2 ^ 32) 0xFFFFFFFF

/-- A mapping is valid for the control plane: as its stream, with the quality of the sample that has crossed (R446, R448). -/
def mapTakenOk (s : State) (m : Nat) (a : Asdu) : Bool :=
  let c := mapCfg s m
  c.on && streamOk s c.src && a.vals.all (fun v => qualOk v.2 c.ignq (svCfg s c.src).test)

/-! ### GOOSE (R449 to R452) -/

/-- The number n / d scaled as R445 says, computed in binary64 (R451). -/
def perUnit64 (n : Int) (d base : Nat) : Int := satS 32 (roundDiv (f64Of (n * (2 ^ 28 : Nat)) (max 1 (d * base))) (2 ^ 1074))

/-- A GOOSE mapping's value in Q3.28 (R451); of a member of another type it is free (assumption 170). -/
def memberValue (m : GMember) (base : Nat) : Int :=
  match m with
  | .boolean b => if b then 268435456 else 0
  | .int x => perUnit64 x 1 base
  | .float n d => perUnit64 n d base
  | _ => (BitVec.ofNat 32 (Config.openCode 0x1151 base)).toInt

/-- A GOOSE mapping is valid (R451). -/
def gooseMapOk (s : State) (m : Nat) : Bool :=
  let c := mapCfg s m
  let r := subGet s c.src
  c.on && (subCfg s c.src).on && !r.stale && c.pos < r.data.length &&
    (match r.data[c.pos + 1]? with
      | some (.quality q) => q % 4 == 0
      | _ => true)

/-- The mappings cross into the control plane (R448, R451). -/
def netCross (s : State) : State :=
  let one := fun (t : State) (e : Nat × MapCfg) =>
    let m := e.1
    let old : MapRun := tget {} t.net.mapRun m
    let r : MapRun :=
      if m < 128 then
        match asduTaken s m with
        | some a => { v := asduValue a 0 e.2.base, valid := mapTakenOk s m a,
                      fresh := old.mark != some a.cnt, mark := some a.cnt }
        | none => { old with valid := false, fresh := false }
      else
        let run := subGet s e.2.src
        { v := if e.2.pos < run.data.length then memberValue (run.data.getD e.2.pos .other) e.2.base else old.v, valid := gooseMapOk s m,
          fresh := run.stNum.isSome && old.mark != run.stNum, mark := run.stNum }
    t.onNet (fun x => { x with mapRun := tset x.mapRun m r })
  let s1 := s.net.map.foldl one s
  mapsSettle false (s1.onNet (fun x => { x with svRun := x.svRun.map (fun e => (e.1, { e.2 with age := ageNs s e.1 })) }))

/-- Entry code fields of Table 17.4. -/
def entryKind (e : Nat) : Nat := e / 2 ^ 24

def entryIx (e : Nat) : Nat := e % 65536

/-- The value of a publication entry and whether its source is valid (R452). -/
def entryValue (s : State) (e : Nat) : GMember × Bool :=
  let i := entryIx e
  let el := (tget {} s.prot.el i : ElRun).state
  match entryKind e with
  | 1 => (.boolean (tget {} s.prot.trip i : TripRun).level, mprOk s && !s.prot.stopped)
  | 2 => (.boolean (el == .operated), mprOk s && el != .unavailable && el != .disabled)
  | 3 => (.boolean (el == .started || el == .operated), mprOk s && el != .unavailable && el != .disabled)
  | 4 => (.int s.dev.state.code, true)
  | 5 => (.int s.dev.role.code, true)
  | 6 => (.int (armGet s i).stage, armOk s i && (armCfg s i).isSome)
  | 7 => (.float (kOf s i) (2 ^ 28), anyCtl s)
  | 8 => (.float (chanSig (loopGet s i)).v (2 ^ 28), ctlOk s (i / 256) && (chanSig (loopGet s i)).ok)
  | _ => (.int s.time.qual.code, true)

/-- The entries of a publication, up to the first zero. -/
def pubEntries (p : GpubCfg) : List Nat := p.entries.takeWhile (· != 0)

/-! ### DMA streams (R457, R458) -/

/-- Table 5.5. -/
def Snapshot.bytes (n : Snapshot) : Bytes :=
  withCrc (le 8 n.tick ++ le 4 n.committed ++ le 2 n.overrun ++ le 2 0 ++ le 2 n.loopEnd ++ le 2 n.aieEnd ++ le 4 n.stale ++
    le 4 n.clamps ++ le 4 n.tileLate ++ List.replicate 28 0)

/-- What SEL names for a stream of KIND 1, 2 or 3. -/
def dmaPick (d : DmaStream) : List Nat :=
  if d.kind = 2 then (List.range 64).filter (bit (rd d.sel 0 8))
  else (Config.dmaSel d.kind (rd d.sel 0 20)).take 32

/-- The payload of a record (Table 17.8); the AGE of a GOOSE mapping is free (assumption 170). -/
def dmaPayload (s : State) (d : DmaStream) : Bytes :=
  match d.kind with
  | 0 => s.tick.ring.head?.elim (List.replicate 64 0) Snapshot.bytes
  | 1 => (dmaPick d).flatMap (fun l => leS 4 (loopGet s (l % 512)).u)
  | 2 => (dmaPick d).flatMap (fun c => leS 4 (tget {} s.meas.set c : MSetChan).fine)
  | 3 => (dmaPick d).flatMap (fun m =>
      let r : MapRun := tget {} s.net.mapRun (m % 192)
      let age :=
        if 128 ≤ m % 192 then Config.openCode 0x1158 m % 65536
        else if timeUnset s then 0xFFFF
        else min ((svGet s (mapCfg s (m % 192)).src).age / 1000) 0xFFFF
      leS 4 r.v ++ le 4 (b2n r.valid + age * 65536))
  | _ => armStatus s (rd d.sel 0 1)

/-- Bytes of payload of a stream's records. -/
def dmaLen (d : DmaStream) : Nat :=
  match d.kind with
  | 0 => 64
  | 1 => 4 * (dmaPick d).length
  | 2 => 4 * (dmaPick d).length
  | 3 => 8 * (dmaPick d).length
  | _ => 44

/-- RSIZE: header and payload, padded to a multiple of 64 (R457). -/
def dmaSize (d : DmaStream) : Nat := (16 + dmaLen d + 63) / 64 * 64

/-- Mappings that a commit of the network set changes, themselves or in their stream. -/
def mapsChanged (s : State) : List Nat :=
  let x := s.net
  let sv := (x.svNew.filter (fun n => n.2 != tget {} x.sv n.1)).map (·.1)
  (x.mapNew.filter (fun n => n.2 != tget {} x.map n.1)).map (·.1) ++ (x.map.filter (fun e => e.1 < 128 && sv.contains e.2.src)).map (·.1)

/-- The output crossing takes the sources of the streams that are due (R458). -/
def dmaCross (s : State) : State :=
  s.onNet (fun x => { x with dma := x.dma.map (fun e =>
    let d := e.2
    if !d.on then e
    else if 1 < d.wait then (e.1, { d with wait := d.wait - 1 })
    else
      let p := dmaPayload s d
      let at_ := if d.kind = 0 then s.tick.ring.head?.elim s.tick.index (·.tick) else s.tick.index
      let r := le 8 d.seq ++ le 4 at_ ++ le 1 e.1 ++ le 1 d.kind ++ le 2 p.length ++ p
      (e.1, { d with wait := d.d, seq := d.seq + 1, queue := d.queue ++ [(d.seq, fit (dmaSize d) r)] })) })

/-! ### Commit of shadow set bit 8 -/

/-- Two settings of a stream name the same stream: they differ in its tolerances alone. -/
def sameStream (a b : SvCfg) : Bool :=
  { a with test := b.test, localOk := b.localOk, misInv := b.misInv, miss := b.miss, dupWin := b.dupWin } == b

/-- A stream that becomes another starts without samples; its counts since boot stay. -/
def SvRun.renew (r : SvRun) : SvRun :=
  { invalid := r.invalid || r.last.isSome, accepted := r.accepted, gaps := r.gaps, late := r.late, compared := r.compared,
    different := r.different, episodes := r.episodes }

/-- A subscription that becomes another has received nothing; its counts stay. -/
def GsubRun.renew (r : GsubRun) : GsubRun := { episodes := r.episodes, discarded := r.discarded }

/-- Streams whose commit makes another stream of them. -/
def streamsNew (s : State) : List Nat := (s.net.svNew.filter (fun n => !sameStream (svCfg s n.1) n.2)).map (·.1)

/-- The mappings go invalid with their stream (R460). -/
def streamGone (n : Nat) (s : State) : State :=
  let was := streamOk s n
  let s1 := svUpd n (fun r => { r.renew with episodes := if was then inc32 r.episodes else r.episodes }) s
  when was (netEvent 0x02 n [Config.openCode 0x1102 4]) s1

/-- A sample on its way when a commit changes its mapping is converted under the new mapping (Table 17.9). -/
def mapsAgain (l : List Nat) (s : State) : State :=
  l.foldl (fun t m =>
    match (svGet t (mapCfg t m).src).last with
    | some a => if m < 128 ∧ (mapCfg t m).on then mapWrite (m, mapCfg t m) a t else t
    | none => t) s

/-- Commit of shadow set bit 8. -/
def commitNet (s : State) : State :=
  let old := mapsChanged s
  let moved := (s.net.mapNew.filter (fun n => n.2.src != (mapCfg s n.1).src)).map (·.1)
  let s1 := (streamsNew s).foldl (fun t n => streamGone n t) s
  let s2 := (s1.onSpare (fun x => { x with cdc := x.cdc.filter (fun e => !old.any (fun m => e.1 == m % 256 * 256 + 8)) })).onNet (fun x => { x with
    subRun := x.subRun.map (fun e => if x.subNew.any (fun n => n.1 == e.1 && n.2 != tget {} x.sub n.1) then (e.1, e.2.renew) else e),
    pubRun := x.pubRun.map (fun e => if x.pubNew.any (fun n => n.1 == e.1 && n.2 != tget {} x.pub n.1) then (e.1, { stNum := e.2.stNum }) else e),
    mapRun := x.mapRun.map (fun e => if moved.contains e.1 then (e.1, { e.2 with mark := none }) else e),
    sv := x.svNew.foldl (fun t e => tset t e.1 e.2) x.sv, svNew := [],
    map := x.mapNew.foldl (fun t e => tset t e.1 e.2) x.map, mapNew := [],
    sub := x.subNew.foldl (fun t e => tset t e.1 e.2) x.sub, subNew := [],
    pub := x.pubNew.foldl (fun t e => tset t e.1 e.2) x.pub, pubNew := [] })
  mapsAgain old s2

/-! ### The loaded safety parameter block (Table 18.2) -/

/-- The block in force, with NET_SAFE at 1. -/
def safeNet (s : State) : Option Bytes := s.safe.cfg.bind (fun c => if c.sw.getLsbD 2 then some c.spb else none)

/-- Receive connection r: enabled, ID, WD, flags, subscription. -/
def rxOn (p : Bytes) (r : Nat) : Bool := bit (rd p (64 + 8 * r + 6) 1) 5

def rxSub (p : Bytes) (r : Nat) : Nat := rd p (64 + 8 * r + 7) 1 % 64

def rxFlags (p : Bytes) (r : Nat) : Nat := rd p (64 + 8 * r + 6) 1

def txOn (p : Bytes) (t : Nat) : Bool := bit (rd p (192 + 8 * t + 6) 1) 0

def txPub (p : Bytes) (t : Nat) : Nat := rd p (192 + 8 * t + 7) 1 % 16

/-- The receive connections that a subscription serves. -/
def safeConns (s : State) (sub : Nat) : List Nat :=
  match safeNet s with
  | some p => (List.range 16).filter (fun r => rxOn p r && rxSub p r == sub)
  | none => []

/-- A subscription or publication is named by a safe connection of the loaded block (R463, R466). -/
def safeNames (s : State) (isPub : Bool) (n : Nat) : Bool :=
  match s.safe.cfg with
  | some c =>
    if isPub then (List.range 16).any (fun t => txOn c.spb t && txPub c.spb t == n)
    else (List.range 16).any (fun r => rxOn c.spb r && rxSub c.spb r == n)
  | none => false

end Sys2Proof.Machine
end

