-- ==== Sys2Proof/Machine/Real.lean ====
section
/-! DEFINITION. Real functions of the protection engine and of the load angle, in whole counts of 2^-64: square root, sine
and cosine, angle, logarithm and power. The spec computes in binary64 and gives no order of operations (assumption 40). -/

namespace Sys2Proof.Machine

open Sys2Proof

/-- One, in 2^-64. -/
def fxOne : Int := (2 ^ 64 : Nat)

def fxPi : Int := 57952155664616982739

def fxLn2 : Int := 12786308645202655660

def fxMul (a b : Int) : Int := a * b / fxOne

def fxDiv (a b : Int) : Int := if b = 0 then 0 else a * fxOne / b

/-- A Q3.28 value. -/
def fxOfQ (x : Int) : Int := x * (2 ^ 36 : Nat)

/-- Back to Q3.28, rounded (R12, R394). -/
def qOfFx (x : Int) : Int := satS 32 (roundDiv x (2 ^ 36))

/-- The integer square root by Newton's steps. -/
def isqrtGo (n x fuel : Nat) : Nat :=
  match fuel with
  | 0 => x
  | k + 1 =>
    let y := (x + n / x) / 2
    if y < x then isqrtGo n y k else x

def isqrt (n : Nat) : Nat := if n = 0 then 0 else isqrtGo n (2 ^ (n.log2 / 2 + 1)) 400

/-- Square root of a value in 2^-64. -/
def fxSqrt (x : Int) : Int := isqrt (x.toNat * 2 ^ 64)

/-- The alternating series of sine (from k = 1) or cosine (from k = 0), one term after another. -/
def fxTrigGo (x2 term sum : Int) (k fuel : Nat) : Int :=
  match fuel with
  | 0 => sum
  | n + 1 =>
    let t := -(fxMul term x2) / ((k + 1) * (k + 2) : Nat)
    fxTrigGo x2 t (sum + t) (k + 2) n

def fxSin (x : Int) : Int := fxTrigGo (fxMul x x) x x 1 30

def fxCos (x : Int) : Int := fxTrigGo (fxMul x x) fxOne fxOne 0 30

/-- The series of arctangent for a small argument. -/
def fxAtanGo (t2 p sum : Int) (k fuel : Nat) : Int :=
  match fuel with
  | 0 => sum
  | n + 1 =>
    let q := -(fxMul p t2)
    fxAtanGo t2 q (sum + q / (k + 2 : Nat)) (k + 2) n

/-- Arctangent of a value in 0 to 1, halving its angle twice. -/
def fxAtan (t : Int) : Int :=
  let half := fun (v : Int) => fxDiv v (fxOne + fxSqrt (fxOne + fxMul v v))
  let u := half (half t)
  4 * fxAtanGo (fxMul u u) u u 1 20

/-- The angle of a vector, −π to π. -/
def fxArg (re im : Int) : Int :=
  let a : Int := re.natAbs
  let b : Int := im.natAbs
  let q := if b ≤ a then fxAtan (fxDiv b a) else fxPi / 2 - fxAtan (fxDiv a b)
  let r := if re < 0 then fxPi - q else q
  if im < 0 then -r else r

/-- The series of 2 artanh. -/
def fxLnGo (z2 p sum : Int) (k fuel : Nat) : Int :=
  match fuel with
  | 0 => sum
  | n + 1 =>
    let q := fxMul p z2
    fxLnGo z2 q (sum + q / (k + 2 : Nat)) (k + 2) n

/-- Natural logarithm of a positive value. -/
def fxLn (x : Int) : Int :=
  let e : Int := (x.toNat.log2 : Int) - 64
  let m := if 0 ≤ e then x / (2 ^ e.toNat : Nat) else x * (2 ^ (-e).toNat : Nat)
  let z := fxDiv (m - fxOne) (m + fxOne)
  2 * fxLnGo (fxMul z z) z z 1 45 + e * fxLn2

def fxExpGo (x term sum : Int) (k fuel : Nat) : Int :=
  match fuel with
  | 0 => sum
  | n + 1 =>
    let t := fxMul term x / (k : Nat)
    fxExpGo x t (sum + t) (k + 1) n

def fxExp (x : Int) : Int :=
  let k := x / fxLn2
  let v := fxExpGo (x - k * fxLn2) fxOne fxOne 1 30
  if 0 ≤ k then v * (2 ^ k.toNat : Nat) else v / (2 ^ (-k).toNat : Nat)

/-- x to the power p, for positive x. -/
def fxPow (x p : Int) : Int := fxExp (fxMul p (fxLn x))

/-! ### Complex values -/

def Cx.add (a b : Cx) : Cx := ⟨a.re + b.re, a.im + b.im⟩

def Cx.sub (a b : Cx) : Cx := ⟨a.re - b.re, a.im - b.im⟩

def Cx.mul (a b : Cx) : Cx := ⟨fxMul a.re b.re - fxMul a.im b.im, fxMul a.re b.im + fxMul a.im b.re⟩

def Cx.scale (k : Int) (a : Cx) : Cx := ⟨fxMul k a.re, fxMul k a.im⟩

def Cx.mag (a : Cx) : Int := fxSqrt (fxMul a.re a.re + fxMul a.im a.im)

def Cx.arg (a : Cx) : Int := fxArg a.re a.im

/-- The unit vector at an angle. -/
def Cx.polar (x : Int) : Cx := ⟨fxCos x, fxSin x⟩

/-- An angle brought to −π up to π. -/
def fxWrap (x : Int) : Int :=
  let y := x % (2 * fxPi)
  if y > fxPi then y - 2 * fxPi else y

end Sys2Proof.Machine
end

