-- ==== Sys2Proof/Machine/ProtOps.lean ====
section
/-! DEFINITION. Shared operations of the protection engine (chapter 15): measurement points, element conditions and states,
inverse-time curves, trip outputs, the trip log and disturbance records. -/

namespace Sys2Proof.Machine

open Sys2Proof

def elCfg (s : State) (n : Nat) : ElCfg := tget {} s.prot.act.el n

def elGet (s : State) (n : Nat) : ElRun := tget {} s.prot.el n

def elUpd (n : Nat) (f : ElRun → ElRun) (s : State) : State := s.onProt (fun p => { p with el := tupd {} p.el n f })

def ptCfg (s : State) (n : Nat) : PtCfg := tget {} s.prot.act.pt n

def ptGet (s : State) (n : Nat) : PtRun := tget {} s.prot.pt n

def tripCfg (s : State) (n : Nat) : TripCfg := tget {} s.prot.act.trip n

def tripGet (s : State) (n : Nat) : TripRun := tget {} s.prot.trip n

def tripUpd (n : Nat) (f : TripRun → TripRun) (s : State) : State := s.onProt (fun p => { p with trip := tupd {} p.trip n f })

def protEvent (kind : Nat) (cls : FClass) (addr : Nat) (d : List Nat) (s : State) : State := raise 3 0x03A kind cls addr d s

def ElState.code : ElState → Nat
  | .disabled => 0 | .idle => 1 | .started => 2 | .operated => 3 | .unavailable => 4 | .blocked => 5

/-- Element states in which START is true. -/
def ElState.start : ElState → Bool
  | .started => true
  | .operated => true
  | _ => false

/-- The settings that will be in force after the next commit. -/
def protShadow (s : State) : ProtSet := s.prot.shadow.getD s.prot.act

/-! ### Measurement points (R392 to R394) -/

/-- A sampled-value mapping resampled at the cycle instant `at_` (2^-32 ns of station time): linear interpolation between the
last two samples, one sample period late (R394). -/
def svResample (s : State) (m at_ : Nat) : Int × Bool :=
  let c := mapCfg s m
  let run := svGet s c.src
  match run.last, run.prev with
  | some a, some b =>
    let va := asduValue a c.pos c.base
    let vb := asduValue b c.pos c.base
    let t : Int := (at_ : Int) - (secUnits / (svCfg s c.src).rate : Nat)
    let span := a.time - b.time
    let v := if span = 0 then va else vb + roundDiv ((va - vb) * clampI 0 span (t - b.time)) span
    (v, svMapOk s m && m < 128 && !timeUnset s)
  | some a, none => (asduValue a c.pos c.base, svMapOk s m && m < 128 && !timeUnset s)
  | none, _ => (0, false)

/-- A point signal as the slow path reads it. -/
def slowSignal (s : State) (sel at_ : Nat) : Int × Bool :=
  if sel = 0xFFFF then (0, false)
  else if sel < 0x8000 then ((mGet s (sel % 64)).fine, chanValid s (sel % 64))
  else svResample s (sel % 4096) at_

/-- Nominal frequency of a point in Hz. -/
def fNom (c : PtCfg) : Nat := if c.hz60 then 60 else 50

/-- f_trk in 2^-64 Hz (Table 15.2). -/
def fTrk (c : PtCfg) (r : PtRun) : Int :=
  let f := match r.f with
    | (x, true) :: _ => x
    | _ => fNom c * fxOne
  clampI (40 * fxOne) (70 * fxOne) f

/-- N of the DFT. -/
def dftLen (ftrk : Int) : Nat := (roundDiv (8000 * fxOne) ftrk.toNat).toNat

/-- Full-cycle DFT of a signal's samples, newest first (Table 15.2). -/
def dft (x : List Int) (n : Nat) : Cx :=
  let sum := (List.range n).foldl (fun (a : Cx) (i : Nat) =>
    let ang := 2 * fxPi * (i : Nat) / n
    let v := fxOfQ (x.getD i 0)
    a.add ⟨fxMul v (fxCos ang), -(fxMul v (fxSin ang))⟩) {}
  Cx.scale (fxSqrt (2 * fxOne) / n) sum

def rmsOf (x : List Int) (n : Nat) : Int :=
  fxSqrt (((x.take n).foldl (fun a v => a + fxMul (fxOfQ v) (fxOfQ v)) 0) / n)

/-- Samples of signal i of a point, newest first. -/
def sigHist (r : PtRun) (i : Nat) : List Int := r.hist.map (fun h => (h.getD i (0, false)).1)

def sigValid (r : PtRun) (i : Nat) : Bool := (r.hist.headD []).getD i (0, false) |>.2

def phasor (r : PtRun) (i : Nat) : Cx := (r.ph.getD i ({}, false)).1

/-- The positive-sequence phasor of signals i, i + 1 and i + 2; the phasors of Table 15.2 turn clockwise. -/
def posSeq (r : PtRun) (i : Nat) : Cx :=
  let a := Cx.polar (2 * fxPi / 3)
  let a2 := Cx.polar (-(2 * fxPi / 3))
  Cx.scale (fxOne / 3) ((phasor r i).add ((a2.mul (phasor r (i + 1))).add (a.mul (phasor r (i + 2)))))

/-- The nth signal set of earth quantities: 3 signals from i, or the fourth where it has a source (In,comp and Vn,comp). -/
def compPhasor (c : PtCfg) (r : PtRun) (i : Nat) : Cx × Bool :=
  if c.sel.getD (i + 3) 0xFFFF ≠ 0xFFFF then (phasor r (i + 3), sigValid r (i + 3))
  else ((phasor r i).add ((phasor r (i + 1)).add (phasor r (i + 2))), sigValid r i && sigValid r (i + 1) && sigValid r (i + 2))

/-- The frequency of an AC point: the rotation of V1 over FWIN nominal cycles, added to f_trk. -/
def freqOf (c : PtCfg) (v1 : List (Cx × Bool)) (ftrk : Int) : Int × Bool :=
  let w := c.fwin * 8000 / fNom c
  match v1.head?, v1[w]? with
  | some (x, true), some (y, _) =>
    let turn := fxWrap (-(x.arg) + y.arg - 2 * fxPi * (ftrk * w / 8000) / fxOne)
    (ftrk + fxDiv (turn * 8000 / w) (2 * fxPi), decide (fxOfQ c.vmin ≤ x.mag))
  | _, _ => (ftrk, false)

/-- A point derives its quantities at a slow cycle (R393). -/
def ptStep (s : State) (c : PtCfg) (at_ : Nat) (r : PtRun) : PtRun :=
  if c.kind = 0 then {}
  else
    let now := c.sel.map (fun sel => slowSignal s sel at_)
    let r1 := { r with hist := (now :: r.hist).take 200 }
    if c.kind = 2 then r1
    else
      let ft := fTrk c r
      let n := dftLen ft
      let r2 := { r1 with n := n, ph := (List.range 8).map (fun i => (dft (sigHist r1 i) n, sigValid r1 i)) }
      let vOk := sigValid r2 4 && sigValid r2 5 && sigValid r2 6
      let v1 := ((posSeq r2 4, vOk) :: r.v1).take 1601
      { r2 with v1 := v1, f := (freqOf c v1 ft :: r.f).take 8001 }

/-- df/dt in mHz/s over ROCWIN nominal cycles. -/
def rocof (c : PtCfg) (r : PtRun) : Int × Bool :=
  let w := c.rocwin * 8000 / fNom c
  match r.f.head?, r.f[w]? with
  | some (x, true), some (y, true) => ((x - y) * 8000 * 1000 / w, true)
  | _, _ => (0, false)

/-- DC mean of signal i. -/
def dcMean (c : PtCfg) (r : PtRun) (i : Nat) : Int := fxOfQ 1 * ((sigHist r i).take c.ndc).sum / max 1 (min c.ndc r.hist.length)

/-! ### Start conditions (R395, R396) -/

/-- What one evaluation of an element reads: its quantities are valid, the start condition holds, it still holds with
PU × DR, the phases that meet it, the quantity for the log, and M. -/
structure ElIn where
  valid  : Bool
  start  : Bool
  keep   : Bool
  phases : Nat
  qty    : Int
  m      : Int

/-- Compare a magnitude in 2^-64 with PU in Q3.28, and with PU × DR. -/
def overPu (c : ElCfg) (x : Int) : Bool × Bool :=
  let q := qOfFx x
  (decide ((c.pu : Int) ≤ q), decide ((c.pu * c.dr : Nat) ≤ q * 16384))

def underPu (c : ElCfg) (x : Int) : Bool × Bool :=
  let q := qOfFx x
  (decide (q < (c.pu : Int)), decide (q * 16384 < (c.pu * c.dr : Nat)))

/-- An angle in 0.01 degrees. -/
def centiDeg (x : Int) : Int := roundDiv (x * 18000) fxPi.toNat

/-- The direction of an operating phasor is as set, from the polarising phasor in use (R396). -/
def dirMet (c : ElCfg) (i vpol : Cx) : Bool :=
  let phi : Int := (fxWrap (i.arg - vpol.arg - c.rca * fxPi / 18000)).natAbs
  if c.rev then decide ((18000 - (c.angw : Int)) * fxPi ≤ phi * 18000) else decide (phi * 18000 ≤ (c.angw : Int) * fxPi)

/-- The polarising quantity of place n (0 to 2 phases, 3 earth), and whether the voltages are valid (Table 15.4). -/
def polarising (c : PtCfg) (r : PtRun) (n : Nat) : Cx × Bool :=
  if n = 3 then
    let v := compPhasor c r 4
    (({} : Cx).sub v.1, v.2)
  else
    let a := 4 + (n + 1) % 3
    let b := 4 + (n + 2) % 3
    ((phasor r a).sub (phasor r b), sigValid r a && sigValid r b)

/-- The memory phasors after this cycle, and the polarising phasor in use where there is one (R396). A memory ages while the voltages
are invalid too, and is not used then. -/
def polarUse (e : ElCfg) (c : PtCfg) (r : PtRun) (mem : Tbl (Cx × Nat × Nat)) (n : Nat) : Tbl (Cx × Nat × Nat) × Option Cx :=
  let p := polarising c r n
  if p.2 && decide (fxOfQ e.vpol ≤ p.1.mag) then (tset mem n (p.1, 0, 0), some p.1)
  else
    match (mem.find? (fun x => x.1 == n)).map (·.2) with
    | none => (mem, none)
    | some (v, age, low) =>
      let k := age + 1
      let l := if p.2 || 0 < low then low + 1 else 0
      (tset mem n (v, k, l),
        if p.2 ∧ (l - 1) * fNom c ≤ e.memc * 8000 then some (v.mul (Cx.polar (-(fxWrap (2 * fxPi * (fTrk c r * k / 8000) / fxOne))))) else none)

/-- Phases or poles selected. -/
def selected (c : ElCfg) (n : Nat) : List Nat := (List.range n).filter (bit c.qsel)

/-- Fold the conditions of the places selected: any of them, or all of them for an under-element with ALL. Places below 3 are phases or
poles and give the flags; place 3 is the one quantity of an earth or frequency element. -/
def joinConds (all : Bool) (l : List (Nat × Bool × Bool)) : Bool × Bool × Nat :=
  (if all then !l.isEmpty && l.all (fun x => x.2.1) else l.any (fun x => x.2.1),
   if all then !l.isEmpty && l.all (fun x => x.2.2) else l.any (fun x => x.2.2),
   maskOf ((l.filter (fun x => x.2.1 && x.1 < 3)).map (·.1)))

/-- M, at most 20, of the largest place that counts (R400, assumption 157). -/
def multOf (c : ElCfg) (mags : List Int) : Int := min (20 * fxOne) (fxDiv (mags.foldl max 0) (fxOfQ (max 1 c.pu)))

/-- An element's reading on the slow path, with its memory phasors (Table 15.3). -/
def slowRead (s : State) (e : ElCfg) (run : ElRun) : ElIn × Tbl (Cx × Nat × Nat) :=
  let c := ptCfg s e.pt
  let r := ptGet s e.pt
  let ps := selected e 3
  let curve := fun (l : List (Nat × Int × Bool)) (mem : Tbl (Cx × Nat × Nat)) (valid : Bool) =>
    let conds := l.map (fun x => (x.1, (overPu e x.2.1).1 && x.2.2, (overPu e x.2.1).2 && x.2.2))
    let j := joinConds false conds
    let live := (l.filter (fun x => x.2.2)).map (fun x => x.2.1)
    let m := multOf e live
    (({ valid := valid, start := j.1, keep := j.2.1, phases := j.2.2, qty := if e.tmode = 0 then qOfFx (live.foldl max 0) else m / (2 ^ 40 : Nat), m := m } : ElIn), mem)
  let simple := fun (valid : Bool) (all : Bool) (l : List (Nat × Bool × Bool)) (q : Int) =>
    let j := joinConds all l
    (({ valid := valid, start := j.1, keep := j.2.1, phases := j.2.2, qty := q, m := 0 } : ElIn), run.memV)
  let ac := c.kind == 1
  match e.type with
  | 1 | 3 =>
    let mag := fun (i : Nat) => if bit e.qsel 3 then rmsOf (sigHist r i) r.n else (phasor r i).mag
    let pol := ps.foldl (fun (a : Tbl (Cx × Nat × Nat) × List (Nat × Int × Bool)) i =>
      let u := polarUse e c r a.1 i
      let dir := e.type == 1 || u.2.elim e.ndFall (fun v => dirMet e (phasor r i) v)
      (if e.type = 1 then a.1 else u.1, a.2 ++ [(i, mag i, dir)])) (run.memV, [])
    curve pol.2 pol.1 (ac && ps.all (sigValid r))
  | 2 | 4 =>
    let q := compPhasor c r 0
    let u := polarUse e c r run.memV 3
    let dir := e.type == 2 || u.2.elim e.ndFall (fun v => dirMet e q.1 v)
    curve [(3, q.1.mag, dir)] (if e.type = 2 then run.memV else u.1) (ac && q.2)
  | 5 | 6 =>
    let f := fun (i : Nat) => if e.type = 5 then underPu e (phasor r (4 + i)).mag else overPu e (phasor r (4 + i)).mag
    simple (ac && ps.all (fun i => sigValid r (4 + i))) (e.type == 5 && bit e.qsel 4) (ps.map (fun i => (i, f i)))
      (qOfFx ((ps.map (fun i => (phasor r (4 + i)).mag)).foldl max 0))
  | 7 | 8 =>
    let f := r.f.headD (0, false)
    let mhz := f.1 * 1000
    let cmp := fun (lim : Int) => if e.type = 7 then decide (mhz < lim * fxOne) else decide (lim * fxOne ≤ mhz)
    simple (ac && f.2) false [(3, cmp e.pu, decide (if e.type = 7 then mhz * 16384 < (e.pu * e.dr : Nat) * fxOne
      else (e.pu * e.dr : Nat) * fxOne ≤ mhz * 16384))] (mhz / fxOne)
  | 9 =>
    let d := rocof c r
    let v : Int := d.1.natAbs
    simple (ac && d.2) false [(3, decide ((e.pu : Int) * fxOne ≤ v), decide ((e.pu * e.dr : Nat) * fxOne ≤ v * 16384))] (v / fxOne)
  | 10 | 11 =>
    let qs := selected e 2
    let at0 := if e.type = 10 then 0 else 4
    let mean := fun (i : Nat) => ((dcMean c r (at0 + i)).natAbs : Int)
    let f := fun (i : Nat) => if e.type = 10 then overPu e (mean i) else underPu e (mean i)
    simple (c.kind == 2 && qs.all (fun i => sigValid r (at0 + i))) (e.type == 11 && bit e.qsel 4) (qs.map (fun i => (i, f i)))
      (qOfFx ((qs.map mean).foldl max 0))
  | _ => (⟨true, false, false, 0, 0, 0⟩, run.memV)

/-! ### Inverse-time curves (R400, R401) -/

/-- k and α of the IEC curves, in 2^-64. -/
def iecOf (t : Nat) : Int × Int :=
  match t with
  | 1 => (14 * fxOne / 100, 2 * fxOne / 100)
  | 2 => (135 * fxOne / 10, fxOne)
  | 3 => (80 * fxOne, 2 * fxOne)
  | _ => (120 * fxOne, fxOne)

/-- A, B, p and tr of the IEEE curves, in 2^-64. -/
def ieeeOf (t : Nat) : Int × Int × Int × Int :=
  match t with
  | 5 => (515 * fxOne / 10000, 1140 * fxOne / 10000, 2 * fxOne / 100, 485 * fxOne / 100)
  | 6 => (1961 * fxOne / 100, 491 * fxOne / 1000, 2 * fxOne, 216 * fxOne / 10)
  | _ => (282 * fxOne / 10, 1217 * fxOne / 10000, 2 * fxOne, 291 * fxOne / 10)

/-- The rate of the user curve at M, per second (R401). -/
def userRate (curve : List (Nat × Nat)) (m : Int) : Int :=
  let x := m / (2 ^ 40 : Nat)
  let rate := fun (t : Nat) => fxOne * 1000000 / max 1 t
  match curve.head?, curve.getLast? with
  | some lo, some hi =>
    if x < lo.1 then 0
    else if (hi.1 : Int) ≤ x then rate hi.2
    else
      let below := (curve.filter (fun p => (p.1 : Int) ≤ x)).getLastD lo
      let above := (curve.filter (fun p => x < (p.1 : Int))).headD hi
      rate below.2 + (rate above.2 - rate below.2) * (m - (below.1 : Int) * (2 ^ 40 : Nat)) / ((above.1 - below.1 : Nat) * (2 ^ 40 : Nat))
  | _, _ => 0

/-- The integrator over one slow cycle: s, and the µs that M will have stayed below DR at the next cycle if it still is. -/
def integrate (curve : List (Nat × Nat)) (e : ElCfg) (m s : Int) (below : Nat) : Int × Nat :=
  let tms := (e.tms : Int) * (2 ^ 40 : Nat)
  let dr := (e.dr : Int) * (2 ^ 50 : Nat)
  if fxOne ≤ m then
    let rate :=
      if e.tmode ≤ 4 then
        let k := iecOf e.tmode
        fxDiv (fxPow m k.2 - fxOne) (fxMul k.1 tms)
      else if e.tmode ≤ 7 then
        let k := ieeeOf e.tmode
        if m = fxOne then 0 else fxDiv fxOne (fxMul tms (fxDiv k.1 (fxPow m k.2.2.1 - fxOne) + k.2.1))
      else fxDiv (userRate curve m) tms
    (s + rate / 8000, 0)
  else if dr ≤ m then (s, 0)
  else if e.rmode = 0 then (0, below + 125)
  else if e.rmode = 1 then (if e.trst ≤ below then 0 else s, below + 125)
  else
    let tr := if e.tmode = 8 then fxOne else (ieeeOf e.tmode).2.2.2
    (max 0 (s - fxDiv (fxOne - fxMul m m) (fxMul tms tr) / 8000), below + 125)

/-! ### Element states (R398, R399) -/

/-- One evaluation of an element: the first row of Table 15.6 that applies; `dt` is the µs since its last evaluation. -/
def elNext (curve : List (Nat × Nat)) (e : ElCfg) (i : ElIn) (blocked slow : Bool) (dt : Nat) (r : ElRun) : ElRun :=
  if !e.on then { state := .disabled }
  else if !i.valid then { r with state := .unavailable, timer := 0, conf := [], qty := i.qty }
  else if blocked then { r with state := .blocked, timer := 0, integ := 0, below := 0, qty := i.qty }
  else
    let st : ElState := if r.state = .disabled then .idle else r.state
    let sb := if slow && e.tmode != 0 then integrate curve e i.m r.integ r.below else (r.integ, r.below)
    let r1 := { r with integ := sb.1, below := sb.2, qty := i.qty }
    let out := fun (t : Nat) => if e.tmode = 0 then e.td ≤ t else decide (fxOne ≤ sb.1)
    match st with
    | .started =>
      if out (r.timer + dt) then { r1 with state := .operated, timer := r.timer + dt, phases := if i.start then i.phases else r.phases }
      else if !i.keep then { r1 with state := .idle, timer := 0 }
      else { r1 with state := .started, timer := r.timer + dt, phases := if i.start then i.phases else r.phases }
    | .operated => if !i.keep then { r1 with state := .idle, timer := 0 } else { r1 with state := .operated }
    | other =>
      if i.start then { r1 with state := if out 0 then .operated else .started, timer := 0, phases := i.phases }
      else { r1 with state := other }

/-- BLKEL names an element in STARTED or OPERATED, as it stood at the start of the cycle. -/
def isBlocked (s0 : State) (e : ElCfg) : Bool := e.blkel != 0xFF && (elGet s0 e.blkel).state.start

/-- Outputs whose map holds the element, and whose demand it raises. -/
def raisedOuts (s : State) (n : Nat) : Nat :=
  maskOf ((List.range 16).filter (fun o => (bit (tripCfg s o).op n || bit (tripCfg s o).st n) && !(tripGet s o).demand))

/-- Take an element's new state, with the trip log and the events of a change (R407, R413); `time` is the cycle's instant. -/
def elTake (n time : Nat) (new : ElRun) (s : State) : State :=
  let old := elGet s n
  let e := elCfg s n
  let s1 := elUpd n (fun _ => new) s
  let op := new.state == .operated && old.state != .operated
  let q := word32 new.qty
  let s2 := when op (fun t => protEvent 0x01 .notice n [new.phases] (t.onProt (fun p => { p with
    log := (({ time := stampOf time, inst := n, type := e.type, phases := new.phases, outs := raisedOuts s n, qty := q,
               tick := s.tick.index } : TripLog) :: p.log).take (if 2 ≤ s.spare.given then 0 else 256) }))) s1
  let s3 := when (new.state == .unavailable && old.state != .unavailable) (protEvent 0x03 .notice n [Config.openCode 0x3A03 e.type]) s2
  when (old.state == .unavailable && new.state != .unavailable) (protEvent 0x04 .notice n [Config.openCode 0x3A04 e.type]) s3

/-! ### Trip outputs (R402) -/

/-- An output's demand from its masks and alarms. -/
def tripWant (s : State) (c : TripCfg) : Bool × Bool :=
  let op := s.prot.el.any (fun x => bit c.op x.1 && x.2.state == .operated)
  let st := s.prot.el.any (fun x => bit c.st x.1 && x.2.state.start)
  let al := (bit c.alarms 0 && s.prot.el.any (fun x => x.2.state == .unavailable)) ||
    (bit c.alarms 1 && s.prot.trip.any (fun x => x.2.coil))
  (op, op || st || al)

/-- One output follows its map entry; a disabled one is low, its latch and its timer work on. The ball drives while the engine has not
stopped (R391). -/
def tripStep (o : Nat) (s : State) : State :=
  let c := tripCfg s o
  let r := tripGet s o
  let w := tripWant s c
  let latch := r.latch || (c.latch && w.1)
  let d0 := w.2 || latch || r.tmin
  let tmin := r.tmin || (d0 && !r.demand && 0 < c.tmin)
  let d := d0 || tmin
  let level := c.on && d && !s.prot.stopped && s.prot.running
  let s1 := tripUpd o (fun x => { x with
    latch := latch, demand := d, tmin := tmin, level := level,
    rises := if level && !r.level then inc32 x.rises else x.rises,
    riseTick := if level && !r.level then s.tick.index else x.riseTick, riseUs := if tmin && !r.tmin then s.nowUs else x.riseUs,
    fallUs := if !level && r.level then some s.nowUs else x.fallUs }) s
  when (level != r.level) (protEvent 0x02 .notice o [b2n level]) s1

def tripsStep (s : State) : State := (List.range 16).foldl (fun t o => tripStep o t) s

/-! ### Disturbance records (R408 to R410) -/

/-- Bytes of one stored sample. -/
def sampleBytes (c : RecCfg) : Nat := 4 * c.an.length + 28

def recBytes (r : DRec) : Nat := r.samples.length * sampleBytes r.cfg

/-- The 224 digital channels of this instant. -/
def digNow (s : State) : Nat :=
  maskOf ((List.range 96).filter (fun n => (elGet s n).state.start)) +
    maskOf ((List.range 96).filter (fun n => (elGet s n).state == .operated)) * 2 ^ 96 +
    maskOf ((List.range 16).filter (fun o => (tripGet s o).level)) * 2 ^ 192 + s.prot.tcs * 2 ^ 208

/-- Free room for one more record, dropping the oldest closed ones where OVERWRITE is set; a record that an export holds stays (R93). -/
def recRoom (c : RecCfg) (keep : DRec → Bool) (l : List DRec) (fuel : Nat) : Option (List DRec) :=
  let need := c.maxLen * 8 * sampleBytes c
  if l.length < 64 ∧ (l.map recBytes).sum + need ≤ c.store * 1048576 then some l
  else
    match fuel, l.findIdx? (fun r => r.closed && !keep r) with
    | k + 1, some i => if c.excess then recRoom c keep (l.eraseIdx i) k else none
    | _, _ => none

/-- A trigger: it starts a record, extends the open one, or is counted (R409). -/
def recTrigger (cause : Nat) (manual : Bool) (time : Nat) (s : State) : State :=
  let c := s.prot.act.recs
  match s.prot.recs.getLast? with
  | some r =>
    if !r.closed then
      if c.retrig then
        s.onProt (fun p => { p with recs := p.recs.dropLast ++ [{ r with left := r.cfg.post * 8, retrig := true }] })
      else s.onProt (fun p => { p with ignored := inc32 p.ignored })
    else recStart c s
  | none => recStart c s
where
  recStart (c : RecCfg) (s : State) : State :=
    match recRoom c (fun r => held s (.record r.num)) s.prot.recs 64 with
    | none => protEvent 0x08 .notice 0 [Config.openCode 0x3A08 cause] (s.onProt (fun p => { p with lostT := inc32 p.lostT }))
    | some l => s.onProt (fun p => { p with
        recs := l ++ [{ num := p.recNext, unset := timeUnset s, manual := manual, tmq := tmqCode s, tTrig := stampOf time, cause := cause,
                        preN := (p.ring.take (c.pre * 8)).length, left := c.post * 8, samples := p.ring.take (c.pre * 8), cfg := c }],
        recNext := (p.recNext + 1) % 65536 })

/-- The lowest bit set in a mask. -/
def lowBit (x n : Nat) : Nat := ((List.range n).find? (bit x)).getD 0

/-- Bits [off + n - 1 : off] of a state word. -/
def slice (x off n : Nat) : Nat := x / 2 ^ off % 2 ^ n

/-- What triggers a record among the digital channels that have risen: starts, then operations, then trips (R409). -/
def recCause (c : RecCfg) (rise : Nat) : Option Nat :=
  let st := slice rise 0 96 &&& c.stT
  let op := slice rise 96 96 &&& c.opT
  let tr := slice rise 192 16 &&& c.tripT
  if 0 < st then some (lowBit st 96) else if 0 < op then some (256 + lowBit op 96) else if 0 < tr then some (512 + lowBit tr 16) else none

/-- Take the sample of a slow cycle, with the digital channels `dig`, into the ring and the record that runs (R410). -/
def recSample (dram : Bool) (dig : Nat) (s : State) : State :=
  let c := s.prot.act.recs
  let an := c.an.map (fun a => ((ptGet s a.pt).hist.headD []).getD a.sig (0, false) |>.1)
  let smp : RecSample := if dram then ⟨an, dig, false⟩ else ⟨c.an.map (fun _ => -2147483648), 0, true⟩
  s.onProt (fun p => { p with
    ring := (smp :: p.ring).take (c.pre * 8),
    recs := p.recs.map (fun r =>
      if r.closed || r.left == 0 || r.cfg.maxLen * 8 ≤ r.samples.length then r
      else { r with samples := smp :: r.samples, left := r.left - 1 }) })

/-- The trigger that the digital channels `dig` bring at an instant (R409). -/
def recAsk (dig time : Nat) (s : State) : State :=
  match recCause s.prot.act.recs (dig - (dig &&& s.prot.lastDig)) with
  | some k => recTrigger k false time s
  | none => s

/-- What has risen since the last look triggers a record; every cycle and every change of an output looks (R409). -/
def recLook (time : Nat) (s : State) : State :=
  (recAsk (digNow s) time s).onProt (fun p => { p with lastDig := digNow s })

/-- A running record whose samples find no DRAM takes them as missing, a guarantee that gives way (R410). -/
def recGap (dram : Bool) (s : State) : State :=
  match s.prot.recs.getLast? with
  | some r => when (!dram && !r.closed) (giveWay 0x06 r.num 4 1) s
  | none => s

/-- Samples written as missing. -/
def recMissing (r : DRec) : Nat := (r.samples.filter (·.missing)).length

/-- Bytes of one sample in the DAT file: number, time stamp, analogue values, digital words. -/
def datBytes (r : DRec) : Nat := 8 + sampleBytes r.cfg

/-- RFLAGS of Table 15.8. -/
def recFlags (r : DRec) : Nat := b2n (0 < recMissing r) + 2 * b2n r.trunc + 4 * b2n r.retrig + 8 * b2n r.unset + 16 * b2n r.manual

/-- The record that runs closes once its post-trigger time or MAXLEN has ended (R409). -/
def recClose (s : State) : State :=
  match s.prot.recs.getLast? with
  | none => s
  | some r =>
    let atMax := decide (r.cfg.maxLen * 8 ≤ r.samples.length)
    if r.closed ∨ (r.left ≠ 0 ∧ !atMax) then s
    else
      let q := { r with closed := true, trunc := atMax && r.left != 0 }
      protEvent 0x07 .notice 0 [q.num, recFlags q] (s.onProt (fun p => { p with recs := p.recs.dropLast ++ [q] }))

/-- The record work of a slow cycle: triggers, then the sample, then the end of a record (R409, R410). -/
def recStep (dram : Bool) (time : Nat) (s : State) : State :=
  recClose (recGap dram (recSample dram (digNow s) (recLook time s)))

/-- Table 15.8. -/
def DRec.header (r : DRec) : Bytes :=
  le 2 r.num ++ le 1 (if r.closed then 2 else 1) ++ le 1 (recFlags r) ++ r.tTrig.bytes ++ le 4 r.samples.length ++ le 4 (recMissing r) ++
    le 2 r.cause ++ le 2 0 ++ le 4 (r.samples.length * datBytes r)

/-- The DAT file, BINARY32 (R411). -/
def DRec.dat (r : DRec) : Bytes :=
  (r.samples.reverse.zipIdx).flatMap (fun x =>
    le 4 (x.2 + 1) ++ le 4 (x.2 * 125) ++ x.1.an.flatMap (leS 4) ++ le 28 x.1.dig)

/-- The CFG file (R411): its text is laid out by the standard the spec names. -/
def DRec.cfgText (r : DRec) (utc : Int) : Bytes :=
  Config.comtradeCfg (([r.num, r.samples.length, r.preN, r.tmq, r.tTrig.bits, (utc % (2 ^ 64 : Nat)).toNat] ++
    r.cfg.station.map (·.toNat)) ++ r.cfg.an.flatMap (fun a => [a.pt, a.sig, a.base, rd a.unit 0 4]))

/-- Usable DRAM in MiB: as found at boot less the bad blocks (R101, R584). -/
def dramUsable (s : State) : Nat := (s.power.dramA - s.spare.badA) + (s.power.dramB - s.spare.badB)

/-- RING_MIB: as set, else its default (Table 21.10). -/
def ringMib (s : State) (g : GalleyCfg) : Nat := g.ring.getD (if dramUsable s < 8192 then dramUsable s / 2 else dramUsable s - 6144)

/-- DRAM that the Galley regions leave free, in MiB (R408, R543). -/
def dramLeft (s : State) : Nat :=
  let g := s.galley.cfg
  dramUsable s - (ringMib s g + g.frzN * g.frz + g.dec)

/-! ### Stopping and commits (R390, R391, R412) -/

/-- The engine stops: every TRIPn goes to high impedance, which reads low. A ball TRIPn is at high impedance while `power.hiZ` or
`prot.stopped` holds. -/
def protStop (cause : Nat) (s : State) : State :=
  if s.prot.stopped ∨ !mprOk s then s
  else protEvent 0x09 .contained 0 [Config.openCode 0x3A09 cause]
    (s.onProt (fun p => { p with stopped := true, trip := p.trip.map (fun e => (e.1, { e.2 with level := false })) }))

/-- What a commit makes of an instance whose settings change (Table 15.11): STARTED and OPERATED go to IDLE, timers and s to 0. -/
def elRefit (on : Bool) (r : ElRun) : ElRun :=
  if !on then {}
  else { r with timer := 0, integ := 0, below := 0, conf := [], memV := [], state := if r.state = .unavailable ∨ r.state = .blocked then r.state else .idle }

/-- Commit of shadow set bit 6. -/
def commitProt (s : State) : State :=
  let p := s.prot
  let new := protShadow s
  let changed := (List.range 96).filter (fun n => tget ({} : ElCfg) p.act.el n != tget {} new.el n)
  let pts := (List.range 16).filter (fun n => tget ({} : PtCfg) p.act.pt n != tget {} new.pt n)
  let move := new.recs.store != p.act.recs.store
  let s0 := changed.foldl (fun t n => elTake n 0 (elRefit (tget ({} : ElCfg) new.el n).on (elGet t n)) t) s
  let s1 := s0.onProt (fun x => { x with
    running := !x.stopped, act := new, shadow := none, pt := x.pt.filter (fun e => !pts.contains e.1),
    ring := if new.recs.an = x.act.recs.an then x.ring else [], recs := if move then [] else x.recs })
  let s2 := s1.onProt (fun x => { x with lastDig := digNow s1 })
  when move (protEvent 0x08 .notice 0 [Config.openCode 0x3A08 0xFFFF]) s2

end Sys2Proof.Machine
end

