-- ==== Sys2Proof/Machine/SafeOps.lean ====
section
/-! DEFINITION. Shared operations of the safety functions (chapter 18): seal, configuration, STO and SS1, envelope, ramp. -/

namespace Sys2Proof.Machine

open Sys2Proof

def safeEvent (kind : Nat) (d : List Nat) (s : State) : State := raise 0 0x015 kind .notice 0 d s

def safeEventAt (kind addr : Nat) (d : List Nat) (s : State) : State := raise 0 0x015 kind .notice addr d s

def SfState.code : SfState → Nat
  | .idle => 0 | .ss1 => 1 | .sto => 2

/-! ### Configuration and seal (R464 to R470) -/

/-- The KX8-M3, and the M2 as far as its MPR goes: the MPR is absent (R465). -/
def noMpr (s : State) : Bool := s.dev.variant == .m3

/-- The MRAM block, 384 bytes. -/
def mramSpb (s : State) : Bytes := fit 384 s.safe.spb

/-- CRC-32C over bytes 0 to 379 of a block. -/
def spbCrc (p : Bytes) : Nat := (crc32c (p.take 380)).toNat

/-- The block holds its own CRC. -/
def spbOwn (p : Bytes) : Bool := spbCrc p == rd p 380 4

/-- The reserved bytes and bits of a block read zero (R7, R466): those that Table 18.2 does not name, RFLAGS [7:6], TFLAGS [7:2], the upper
bits of the subscription and publication numbers, and the reserved bits of MONSRC. -/
def spbZeros (p : Bytes) : Bool :=
  zeros p 29 3 && zeros p 48 16 && zeros p 320 60 && (rd p 4 2 == 0xFFFF || rd p 4 2 / 4096 % 8 == 0) &&
    (List.range 16).all (fun i => rd p (64 + 8 * i + 6) 1 < 64 && rd p (192 + 8 * i + 6) 1 < 4)

/-- SWCFG accepted now (R464, R465). -/
def swNow (s : State) : BitVec 8 := if noMpr s then BitVec.ofNat 8 (rd (mramSpb s) 7 1) else s.safe.sw

/-- The state of the seal by Table 18.3: the confirmation's state, and TAMPERED while the tamper state is latched. -/
def sealUpdate (s : State) : State :=
  let x := s.safe
  let p := mramSpb s
  let off := x.confSw != some (swNow s) || x.confCrc != some (BitVec.ofNat 32 (rd p 380 4)) || !spbOwn p
  let b := if x.sealBase = 1 && x.booted && off then 2 else x.sealBase
  let new := if s.power.tamper then 3 else b
  let s1 := s.onSafe (fun y => { y with sealBase := b, sealSt := new })
  if new = x.sealSt then s1
  else
    let s2 := safeEvent 0x08 [pairWord x.sealSt new, (swNow s).toNat] s1
    if x.sealSt = 1 then controlledBlock s2 else s2

/-- Load SWCFG and the block into the safety core and into Mordant; the watchdogs start (R468, R486). -/
def safeLoad (s : State) : State :=
  let k : SafeCfg := ⟨swNow s, mramSpb s⟩
  s.onSafe (fun y => { y with
    cfg := some k, mcfg := if mprOk s then some k else none,
    rx := if k.sw.getLsbD 2 then (List.range 16).filterMap (fun r => if rxOn k.spb r then some (r, { runs := true }) else none) else [],
    tx := [] })

/-- The conditions of a boot load but for the switches (R469). -/
def bootLoadOk (s : State) : Bool :=
  let p := mramSpb s
  s.safe.sealBase == 1 && !s.power.tamper && spbOwn p && s.safe.confCrc == some (BitVec.ofNat 32 (rd p 380 4))

/-- CONFIG is reached: load, or wait for the switches (R469). -/
def safeBoot (s : State) : State :=
  if !bootLoadOk s then sealUpdate (s.onSafe (fun y => { y with booted := true }))
  else if (s.safe.swAcc || noMpr s) && s.safe.confSw == some (swNow s) then sealUpdate (safeLoad (s.onSafe (fun y => { y with booted := true })))
  else sealUpdate (s.onSafe (fun y => { y with booted := false, bootReads := 0 }))

/-- Drive mode (SWCFG.MODE). -/
def driveMode (s : State) : Bool := s.safe.cfg.any (fun k => k.sw.getLsbD 0)

/-- The safety configuration is confirmed, for precondition [3] of R111 (R469). -/
def safeConfirmed (s : State) : Bool := s.safe.sealSt == 1 && s.safe.cfg.isSome && s.safe.sf != .sto && !s.safe.mLatch

/-- MB0_CMD or RESET_MB0, which count as 1 while no configuration is loaded (R489). -/
def swPermits (s : State) (b : Nat) : Bool := s.safe.cfg.all (fun k => k.sw.getLsbD b)

/-- The latched tamper state, the seal and the other battery facts, as AON_FLAGS gives them (Table 4.10). -/
def aonFlags (s : State) : Nat :=
  b2n s.power.aonLost + 2 * b2n (!s.power.holdValid) + 4 * b2n s.power.tamper + 8 * b2n (s.safe.sealSt != 1) + 16 * b2n s.power.stuck

/-! ### SS1 and STO (R471 to R478, R483) -/

/-- Milliseconds since t0. -/
def ss1Ms (s : State) : Nat := (s.nowUs - s.safe.t0Us) / 1000

/-- SS1 is left: 0 stop complete, 1 STO, 2 otherwise; SAFE_STOP ends (Table 18.6). -/
def ss1End (outcome : Nat) (s : State) : State :=
  let x := s.safe
  let r := le 1 outcome ++ le 3 0 ++ le 8 x.t0 ++ le 4 (ss1Ms s)
  let s1 := safeEvent 0x02 [x.stopCause, word32 (x.q0.getD 0), outcome] s
  endPending (fun p => p.opcode == 0x0E04) .ok r
    (s1.onSafe (fun y => { y with q0 := none, mq0 := none, mStop := false, mOver := 0, mUs := 0, env := 0 }))

/-- A second trigger in the tick of the first: SAFE_STO, still on its way to the collector, names both (Table 18.10). -/
def stoNamed (s : State) : State :=
  s.onFault (fun f => { f with waiting := f.waiting.map (fun m =>
    if m.block == 0x015 && m.kind == 0x03 && m.tick == s.tick.index && !m.injected then { m with d := [s.safe.causes.toNat] } else m) })

/-- An STO trigger: the state becomes STO; `main` asks the main path for its block request (Table 18.4). -/
def stoEnter (b : Nat) (main : Bool) (s : State) : State :=
  let s1 := s.onSafe (fun y => { y with causes := y.causes ||| (1#8 <<< b) })
  if s.safe.sf = .sto then stoNamed s1
  else
    let s2 := safeEvent 0x03 [1 <<< b] (s1.onSafe (fun y => { y with sf := .sto, req := y.req || main }))
    if s.safe.sf = .ss1 then ss1End 1 s2 else s2

/-- Mordant blocks on its own authority (R483). -/
def mordantBlock (b : Nat) (s : State) : State :=
  let s1 := raise 3 0x03C 0x01 .notice 0 [1 <<< b] (s.onSafe (fun y => { y with mLatch := true }))
  let s2 := blockAll 0x32 (stoEnter b false s1)
  if s.dev.state = .deblocked ∨ s.dev.state = .safeStop then addTrigger .blockedFault 0x32 0 s2 else s2

/-- The hardware STO input (R478). -/
def stoInput (cmp : Nat) (s : State) : State :=
  if mprOk s && s.safe.mcfg.any (fun k => k.sw.getLsbD 3 && rd k.spb 6 1 == cmp) then mordantBlock 2 s else s

/-- STO sources that are still present (R491). -/
def stoPresent (s : State) : Bool :=
  let rx := match safeNet s with
    | some p => (List.range 16).any (fun r =>
        let x : RxConn := tget {} s.safe.rx r
        rxOn p r && ((bit x.req 0 && bit (rxFlags p r) 2) || x.expired))
    | none => false
  let cmp := s.safe.mcfg.any (fun k => k.sw.getLsbD 3 && s.pwm.active.getLsbD (rd k.spb 6 1))
  rx || cmp || s.safe.beatLost

/-- SAFE_RESET, from MB0 or from connection `source` − 1 (R488, R491). -/
def safeReset (source : Nat) (s : State) : State × Status :=
  if s.safe.sf ≠ .sto then (s, .conflict)
  else if stoPresent s then (s, .tripActive)
  else
    (safeEvent 0x0A [Config.openCode 0x150A source]
      (s.onSafe (fun y => { y with sf := .idle, mLatch := false, req := false, causes := 0 })), .ok)

/-- An SS1 request acts in DEBLOCKED only (R472). -/
def ss1Request (cause : Nat) (s : State) : State :=
  if s.dev.state = .deblocked ∧ s.safe.sf ≠ .sto then addTrigger .safeStop cause 0 s else s

/-- What a device-state transition means for the safety functions (Table 18.4, R475, R480, R486). q0 is captured only after SAFE_SS1_START, so
the q0 that this event carries is free (assumption 172). -/
def safeHook (old new : DevState) (cause : Nat) (s : State) : State :=
  let s1 : State :=
    if new = .safeStop ∧ s.safe.sf = .idle then
      safeEvent 0x01 [cause, Config.openCode 0x1501 cause] (s.onSafe (fun y => { y with
        sf := .ss1, t0 := s.tick.index, t0Us := s.nowUs, stopCause := cause, q0 := none, mq0 := none, mStop := true, mOver := 0, mUs := 0 }))
    else if old = .safeStop ∧ new ≠ .safeStop ∧ s.safe.sf = .ss1 then ss1End 2 (s.onSafe (fun y => { y with sf := .idle }))
    else if new ≠ .deblocked ∧ new ≠ .safeStop then
      endPending (fun p => p.opcode == 0x0E04) .ok
        (le 1 (if s.safe.sf = .sto then 1 else 2) ++ le 3 0 ++ le 8 s.safe.t0 ++ le 4 0) s
    else s
  let s2 := if new ≠ .deblocked ∧ new ≠ .safeStop then s1.onSafe (fun y => { y with v := 0, acc := 0 }) else s1
  if new = .deblocked then
    s2.onSafe (fun y => { y with
      delta := none, alarm := false, slipUs := 0, badUs := 0, rx := y.rx.map (fun e => (e.1, { e.2 with runs := true, expired := false })) })
  else s2

/-! ### The monitored deceleration (R474, R475) -/

/-- q: the magnitude of MONSRC, from the fine or the coarse output, or a sampled value (R474), saturated to Q3.28 (R12). -/
def monQ (s : State) (p : Bytes) (coarse : Bool) : Int :=
  let sel := rd p 4 2
  let m := mGet s (sel % 64)
  let x : Int := if sel = 0xFFFF then 0 else if 0x8000 ≤ sel then (tget {} s.net.mapRun (sel % 4096) : MapRun).v else if coarse then m.coarse else m.fine
  satS 32 x.natAbs

/-- E at `us` microseconds after t0 (R475), saturated to Q3.28 (R12): a q never lies above the largest value. -/
def envelope (p : Bytes) (q0 : Int) (us : Nat) : Int :=
  let dt := us - rd p 16 4
  satS 32 <| max (rdS p 20 4) (q0 + rdS p 8 4 - roundDiv (rdS p 12 4 * (dt : Nat)) 1000000)

/-! ### Ramp generator (R473) -/

def signI (x : Int) : Int := if x < 0 then -1 else if x = 0 then 0 else 1

/-- One step of the generator: the pseudocode of R473, in units of 2^-44; answers v and the acceleration in Q3.28. -/
def rampStep (c : RampCfg) (tgt v : Int) (t : Nat) : Int × Int :=
  let w := fun (x : Int) => x * 65536
  let move := fun (a : Int) => roundDiv (w a * (t : Nat)) 1000000
  let av : Int := v.natAbs
  let at_ : Int := tgt.natAbs
  if v = 0 ∨ (signI tgt = signI v ∧ av ≤ at_) then
    if tgt = 0 then (v, 0)
    else if av < w c.vStart then (signI tgt * min (w c.vStart) at_, signI tgt * c.a1)
    else
      let a := if av < w c.v1 then c.a1 else c.aMax
      let n := min (av + move a) at_
      (signI tgt * n, if n = at_ then 0 else signI tgt * a)
  else
    let d := if w c.v1 < av then c.dMax else c.d1
    let floor := if tgt ≠ 0 ∧ signI tgt = signI v then at_ else 0
    let m0 := max (av - move d) floor
    let m := if floor = 0 ∧ m0 ≤ w c.vStop then 0 else m0
    (signI v * m, -(signI v) * d)

/-- The generator at a tick boundary. -/
def rampBoundary (s : State) : State :=
  let x := s.safe
  if !x.ramp.on ∨ !(s.dev.state = .deblocked ∨ s.dev.state = .safeStop) then s.onSafe (fun y => { y with v := 0, acc := 0 })
  else
    let sig := loopRead s s 0 true x.ramp.tsel
    let held := if x.ramp.useSel then (if sig.ok then sig.v else x.tgt) else x.ramp.target
    let goal := if x.sf = .ss1 then 0 else held * 65536
    let r := rampStep x.ramp goal x.v s.tick.len
    s.onSafe (fun y => { y with v := r.1, acc := r.2, tgt := if x.ramp.useSel then held else y.tgt })

/-- v in Q3.28. -/
def rampQ (s : State) : Int := satS 32 (roundDiv s.safe.v 65536)

/-! ### Safe messages (R453, R454, R484 to R488) -/

/-- The CRC of a PDU under a connection identifier. -/
def pduCrc (id : Nat) (pdu : Bytes) : Nat := (crc32c (le 4 id ++ pdu.take 28)).toNat

/-- A sequence number is newer, modulo 2^32. -/
def seqNewer (a : Nat) (last : Option Nat) : Bool := last.all (fun l => let d := (a + 2 ^ 32 - l) % 2 ^ 32; 0 < d && d < 2 ^ 31)

/-- STAT of Table 18.5. -/
def safeStat (s : State) : Nat :=
  b2n (s.safe.sf == .sto) + 2 * b2n (s.safe.sf == .ss1) + 4 * b2n (s.dev.state == .deblocked) + 8 * b2n (s.safe.sealSt == 1)

/-- A delivered message acts (R486, R487); RESET rises between two deliveries, so the first delivery of a connection cannot carry its rise. -/
def safeDeliver (r : Nat) (p : Bytes) (seq req : Nat) (s : State) : State :=
  let fl := rxFlags p r
  let old : RxConn := tget {} s.safe.rx r
  let s1 := s.onSafe (fun y => { y with rx := tset y.rx r { seq := some seq, req := req, runs := true, expired := false } })
  let s2 := when (bit req 0 && bit fl 2) (stoEnter 1 true) s1
  let s3 := when (bit req 1 && bit fl 3) (ss1Request 0x11) s2
  let resets := bit req 2 && old.seq.isSome && !bit old.req 2 && bit fl 4 &&
    (s.dev.state == .config || s.dev.state == .standby || s.dev.state == .blockedFault || s.dev.state == .factoryTest)
  when resets (fun t => (safeReset (r + 1) t).1) s3

end Sys2Proof.Machine
end

