-- ==== Sys2Proof/Machine/Flags.lean ====
section
/-! DEFINITION. The flags and the arithmetic of the DSP tiles: st (Table 11.2), the ALU operations (R290), accumulators
(R288), the two stores (R289, R298), addressing (R291, R292). -/

namespace Sys2Proof.Machine

open Sys2Proof

/-! ### st -/

def stSet (st : Word16) (b : Nat) (on : Bool) : Word16 :=
  if on then st ||| (1#16 <<< b) else st &&& ~~~(1#16 <<< b)

/-- Z, N and V of an ALU operation. -/
def stAlu (st : Word16) (r : Word32) (v : Bool) : Word16 := stSet (stSet (stSet st 1 (r == 0)) 2 r.msb) 3 v

/-- Set a sticky bit. -/
def stSticky (st : Word16) (b : Nat) (on : Bool) : Word16 := if on then stSet st b true else st

/-- Flags of a saturating ALU operation: V and SAT when it saturates (R290). -/
def stSat (st : Word16) (r : Word32) (sat : Bool) : Word16 := stSticky (stAlu st r sat) 5 sat

/-! ### Words -/

def w32 (x : Int) : Word32 := BitVec.ofInt 32 x

/-- The exact value as a saturated word, and whether it saturated. -/
def satWord (x : Int) : Word32 × Bool := (w32 (satS 32 x), satS 32 x != x)

/-- The exact value as a wrapped word, and whether it overflowed. -/
def wrapWord (x : Int) : Word32 × Bool := (w32 x, satS 32 x != x)

/-- The number of bits below the sign bit that equal it (Table 11.6). -/
def rsbFrom (x : Word32) (n : Nat) : Nat :=
  match n with
  | 0 => 0
  | k + 1 => if x.getLsbD k == x.msb then 1 + rsbFrom x k else 0

def rsb (x : Word32) : Nat := rsbFrom x 31

/-! ### Accumulators (R288) -/

/-- The exact value modulo 2^80, and whether the true sum left the range. -/
def accWrap (x : Int) : BitVec 80 × Bool := (BitVec.ofInt 80 x, satS 80 x != x)

/-- STA (the pseudocode of R289). -/
def staWord (a : BitVec 80) (sh : Nat) : Word32 × Bool := satWord (roundDiv a.toInt (2 ^ sh))

/-- STB: floor((acc + 2^(S-1)) / 2^S), or acc when S is 0, saturated (R298). -/
def stbWord (a : BitVec 80) (sh : Nat) : Word32 × Bool :=
  if sh = 0 then satWord a.toInt else satWord ((a.toInt + (2 ^ (sh - 1) : Nat)) / (2 ^ sh : Nat))

/-! ### Addressing (R291, R292) -/

/-- p + delta with circular wrap in a buffer of length L (0: linear, 16 bits). -/
def circ (p : Word16) (l : Word16) (delta : Int) : Word16 :=
  if l = 0 then BitVec.ofInt 16 (p.toNat + delta)
  else
    let n := l.toNat
    BitVec.ofNat 16 (p.toNat / n * n + (((p.toNat % n : Nat) + delta) % (n : Nat)).toNat)

/-- The low `n` bits of x, reversed. -/
def revBits (x n : Nat) : Nat :=
  match n with
  | 0 => 0
  | k + 1 => (x % 2) * 2 ^ k + revBits (x / 2) k

/-- p + m with the carry running from high to low across the low log2(L) bits. -/
def bitRev (p : Word16) (l : Word16) (m : Word16) : Word16 :=
  let n := l.toNat
  let k := n.log2
  let s := (revBits (p.toNat % n) k + revBits (m.toNat % n) k) % n
  BitVec.ofNat 16 (p.toNat / n * n + revBits s k)

/-- The address used and the pointer afterwards (Table 11.4); none where mode 3 has c zero. -/
def tileAddr (mode : Nat) (p m c : Word16) (ofs : Int) : Option (Nat × Word16) :=
  match mode with
  | 0 => some (p.toNat, circ p c 4)
  | 1 => some (p.toNat, circ p c m.toInt)
  | 2 => some ((BitVec.ofInt 16 (p.toNat + 4 * ofs)).toNat, p)
  | _ => if c = 0 then none else some (p.toNat, bitRev p c m)

/-- COND of a branch (R295); none for the codes 9 to 15. -/
def tileCond (st : Word16) (c : Nat) : Option Bool :=
  let z := st.getLsbD 1
  let n := st.getLsbD 2
  match c with
  | 0 => some true | 1 => some z | 2 => some (!z) | 3 => some n | 4 => some (!n) | 5 => some (n || z)
  | 6 => some (!n && !z) | 7 => some (st.getLsbD 3) | 8 => some (st.getLsbD 4)
  | _ => none

end Sys2Proof.Machine
end

