-- ==== Sys2Proof/Machine/DispOps.lean ====
section
/-! DEFINITION. Shared operations of the task dispatcher (chapter 12): flows, items, the type case, failure and release,
shedding, ports, and what an input crossing does to them. -/

namespace Sys2Proof.Machine

open Sys2Proof

def dieGet (s : State) (d : Nat) : DieTiles := tget {} s.tiles.dies d

def dieUpd (d : Nat) (f : DieTiles → DieTiles) (s : State) : State := s.onTiles (fun t => { t with dies := tupd {} t.dies d f })

def flowCfg (s : State) (d f : Nat) : FlowCfg := tget {} (dieGet s d).flow f

def flowShadow (s : State) (d f : Nat) : FlowCfg := tget (flowCfg s d f) (dieGet s d).flowNew f

def flowGet (s : State) (d f : Nat) : FlowSt := tget {} (dieGet s d).flows f

def flowUpd (d f : Nat) (g : FlowSt → FlowSt) (s : State) : State := dieUpd d (fun x => { x with flows := tupd {} x.flows f g }) s

def bindCfg (s : State) (d b : Nat) : Binding := tget {} (dieGet s d).bind b

def bindShadow (s : State) (d b : Nat) : Binding := tget (bindCfg s d b) (dieGet s d).bindNew b

/-- The defaults of Table 12.6. -/
def defaultRank (c : Nat) : Nat := if c < 2 then 2 else if c = 2 then 3 else if c < 6 then 4 else 5

def clsCfg (s : State) (c : Nat) : ClassCfg := tget { rank := defaultRank c } s.tiles.cls c

def dispEvent (d kind : Nat) (cls : FClass) (addr : Nat) (w : List Nat) (s : State) : State := raise (1 + d) 0x023 kind cls addr w s

/-! ### Fields of a flow (Tables 12.1 and 12.6) -/

def FlowCfg.event (f : FlowCfg) : Bool := bit f.fflags 0

def FlowCfg.ordered (f : FlowCfg) : Bool := bit f.fflags 1

def FlowCfg.partials (f : FlowCfg) : Bool := bit f.fflags 2

def FlowCfg.always (f : FlowCfg) : Bool := bit f.fflags 3

/-- The source word of slot `n` (1 to 7). -/
def FlowCfg.src (f : FlowCfg) (n : Nat) : Nat := f.srcs.getD (n - 1) 0

def skind (w : Nat) : Nat := w / 2 ^ 28

def pflow (w : Nat) : Nat := w / 2 ^ 22 % 64

def pbase (w : Nat) : Nat := w / 2 ^ 16 % 64

def pwidth (w : Nat) : Nat := w / 2 ^ 13 % 8 + 1

def FlowCfg.tick (f : FlowCfg) : Bool := !f.event && skind (f.src 1) == 1

/-- Binding `b` for an item of view tick `v`: that before its last commit where `v` lies below the commit's boundary (R306). -/
def bindFor (s : State) (d v b : Nat) : Binding :=
  match (dieGet s d).bindOld.find? (fun e => e.1 == b) with
  | some (_, k, old) => if v < k then old else bindCfg s d b
  | none => bindCfg s d b

/-- The binding that names a flow, for an item of view tick `v` (R306, R313). -/
def bindOf (s : State) (d f v : Nat) : Option (Nat × Binding) :=
  ((dieGet s d).bind.map (fun e => (e.1, bindFor s d v e.1))).find? (fun b => b.2.kid != 0 && b.2.flow == f)

/-- The flow is bound now. -/
def flowBound (s : State) (d f : Nat) : Bool := (bindOf s d f s.tick.index).isSome

/-- A binding owns a port now (R328). -/
def ownsPort (s : State) (d n : Nat) (duty : Bool) (port : Nat) : Bool :=
  let b := bindCfg s d n
  b.kid != 0 && bit (if duty then b.dports else b.rports) port

/-- The flow creates items in this device state (R314). -/
def creates (s : State) (c : FlowCfg) : Bool :=
  match s.dev.state with
  | .deblocked | .safeStop | .replay => true
  | .config | .standby | .blockedFault | .factoryTest => c.always
  | _ => false

/-- The ranks that the shed level sheds (R326). -/
def shedRank (level rank : Nat) : Bool := 6 - level ≤ rank && 0 < level

def flowRank (s : State) (d f : Nat) : Nat := (clsCfg s (flowCfg s d f).cls).rank

/-! ### Kernels (Tables 11.8 and 11.10a) -/

/-- ROM kernels: STATE_LEN, MAXC, result and duty ports published. HARM64 takes the figure of its transforming item. -/
def romKernel (kid : Nat) : Option (Nat × Nat × Nat × Nat) :=
  match kid with
  | 0x8001 => some (32, 420, 3, 0) | 0x8002 => some (0, 180, 3, 0) | 0x8003 => some (0, 180, 3, 0)
  | 0x8004 => some (64, 640, 4, 0) | 0x8005 => some (0, 260, 6, 0) | 0x8006 => some (264, 1700, 8, 0)
  | 0x8007 => some (16, 240, 4, 0) | 0x8008 => some (48, 70, 1, 0) | 0x8009 => some (0, 60, 0, 4)
  | _ => none

/-- The PARAM bytes a ROM kernel's row names: runs of offset and length. -/
def romParams (kid : Nat) : List (Nat × Nat) :=
  match kid with
  | 0x8001 => [(0, 6), (8, 12)] | 0x8002 => [(0, 8)] | 0x8003 => [(0, 8)] | 0x8004 => [(0, 12)]
  | 0x8005 => [(0, 12)] | 0x8006 => [(0, 4)] | 0x8007 => [(0, 12)] | 0x8008 => [(0, 2), (4, 60)]
  | 0x8009 => [(0, 40)]
  | _ => [(0, 64)]

/-- Offsets of the signal selectors in a ROM kernel's PARAM (Table 11.10a). -/
def romSelectorOffs (kid : Nat) : List Nat :=
  match kid with
  | 0x8001 => [0, 2, 4] | 0x8002 => [0, 2, 4, 6] | 0x8003 => [0, 2, 4, 6] | 0x8004 => [0, 2, 4, 6] | 0x8005 => [0, 2, 4, 6, 8, 10]
  | 0x8006 => [0] | 0x8007 => [0, 2, 4, 6] | 0x8008 => [0] | 0x8009 => [0, 2, 4, 6] | _ => []

/-- The signal selectors that a binding's ROM kernel reads. -/
def Binding.selectors (b : Binding) : List Nat := (romSelectorOffs b.kid).map (fun o => rd b.param o 2)

/-- A reserved PARAM byte of a ROM kernel is not zero (R309). -/
def romBad (b : Binding) : Bool :=
  (List.range 64).any (fun i => b.param.getD i 0 != 0 && !(romParams b.kid).any (fun r => r.1 ≤ i && i < r.1 + r.2))

/-- A kernel's first instruction, STATE_LEN and MAXC, where the image or the ROM has it. -/
def kernelOf (s : State) (d kid : Nat) : Option (Nat × Nat × Nat) :=
  if kid < 0x8000 then
    match (dieGet s d).image with
    | some m => (m.entries.find? (fun e => e.kid == kid)).map (fun e => (e.entry, e.state, e.maxc))
    | none => none
  else (romKernel kid).map (fun r => (8192 + Config.romEntry kid % 8192, r.1, r.2.1))

/-- The cycle limit in force: MAXC of the binding, or the entry's where that is 0, or the lesser (Table 11.9). -/
def limitOf (b : Binding) (entry : Nat) : Nat := if b.maxc = 0 then entry else min b.maxc entry

/-! ### Ports (R328) -/

/-- Ports of a binding that become invalid: one event per episode. -/
def portsInvalid (d : Nat) (b : Binding) (cause : Nat) (s : State) : State :=
  let rs := (List.range 64).filter (fun p => bit b.rports p && (tget {} (dieGet s d).rports p).ok)
  let s1 := rs.foldl (fun t p =>
    dispEvent d 0x08 .notice p [Config.openCode 0x2308 cause]
      (dieUpd d (fun x => { x with rports := tupd {} x.rports p (fun y => { y with ok := false }) }) t)) s
  dieUpd d (fun x => { x with dports := x.dports.map (fun e => if bit b.dports e.1 then (e.1, { e.2 with ok := false }) else e) }) s1

/-! ### The type case (R315 to R319) -/

def Item.same (a b : Item) : Bool := a.flow == b.flow && a.seq == b.seq

def itemUpd (d flow seq : Nat) (f : Item → Item) (s : State) : State :=
  dieUpd d (fun x => { x with items := x.items.map (fun i => if i.flow == flow && i.seq == seq then f i else i) }) s

def itemDel (d flow seq : Nat) (s : State) : State :=
  dieUpd d (fun x => { x with items := x.items.filter (fun i => !(i.flow == flow && i.seq == seq)) }) s

/-- Every slot of the item is filled. -/
def filled (c : FlowCfg) (i : Item) : Bool := (List.range c.arity).all (fun n => thas i.slots (n + 1))

/-- Slots still empty. -/
def emptySlots (c : FlowCfg) (i : Item) : List Nat := ((List.range c.arity).map (· + 1)).filter (fun n => !thas i.slots n)

/-- The most ready items of a class since boot (Table 12.9). -/
def readyNote (d cls : Nat) (s : State) : State :=
  let n := ((dieGet s d).items.filter (fun j => j.cls == cls && j.ready && !j.running && !j.ended)).length
  dieUpd d (fun x => { x with clsReady := tupd 0 x.clsReady cls (max n) }) s

/-- A time-out of an item: count, event (R318, Table 12.5). -/
def noteTimeout (d flow : Nat) (s : State) : State :=
  let f := flowGet s d flow
  let first := firstIn f.winTo s.tick.index
  let s1 := flowUpd d flow (fun x => { x with
    timeouts := min (x.timeouts + 1) 65535, winTo := if first then some s.tick.index else x.winTo,
    cntTo := if first then 1 else x.cntTo + 1 }) s
  when first (dispEvent d 0x01 .notice flow [b2n (flowCfg s d flow).partials, 1]) s1

/-- The flow's time-out action on an item that waits: drop, or ready with what is missing marked. Dropping fails the item
for its consumers, and so on along the chain (R318, R319); `fuel` bounds the chain, which has no loop. -/
def itemFail (fuel d flow v : Nat) (b : Binding) (s : State) : State :=
  match fuel with
  | 0 => s
  | k + 1 =>
    let s0 := portsInvalid d b 2 s
    let hit := (dieGet s0 d).items.filter (fun i =>
      i.flow != flow && i.v == v && !i.ready && !i.running &&
        (emptySlots (flowCfg s0 d i.flow) i).any (fun n =>
          let w := (flowCfg s0 d i.flow).src n
          skind w == 3 && pflow w == flow))
    hit.foldl (fun t i =>
      let c := flowCfg t d i.flow
      let t1 := noteTimeout d i.flow t
      if c.partials then readyNote d i.cls (itemUpd d i.flow i.seq (fun x => { x with ready := true, missing := emptySlots c x }) t1)
      else itemFail k d i.flow i.v i.bind (itemDel d i.flow i.seq t1)) s0

/-- The time-out action on one item (R318). -/
def itemTimeout (d : Nat) (i : Item) (s : State) : State :=
  let c := flowCfg s d i.flow
  let s1 := noteTimeout d i.flow (journal 1 d i.flow 0 i.seq (i.v % 2 ^ 32) s)
  if c.partials then readyNote d i.cls (itemUpd d i.flow i.seq (fun x => { x with ready := true, missing := emptySlots c x }) s1)
  else itemFail 64 d i.flow i.v i.bind (itemDel d i.flow i.seq s1)

/-- The item became ready in the CORE cycle named. -/
def Item.raced (i : Item) (cycle : Bool × Nat) : Bool := i.edge == some cycle

/-- A race of a flow: counted, and the first of a window an event (R324, Table 12.5). -/
def noteRace (d : Nat) (i : Item) (s : State) : State :=
  let first := firstIn (flowGet s d i.flow).winRace s.tick.index
  let s1 := flowUpd d i.flow (fun x => { x with
    races := min (x.races + 1) 65535, winRace := if first then some s.tick.index else x.winRace }) s
  when first (dispEvent d 0x05 .notice i.flow [i.seq]) s1

/-- An item that has not started is cancelled or shed in a CORE cycle; one that became ready in that cycle is a race (R324, Table 12.4). -/
def itemCancel (d : Nat) (cycle : Bool × Nat) (i : Item) (s : State) : State :=
  let s1 := when (i.raced cycle) (noteRace d i) s
  itemFail 64 d i.flow i.v i.bind (flowUpd d i.flow (fun x => { x with cancelled := inc32 x.cancelled }) (itemDel d i.flow i.seq s1))

/-- A type-case entry is free for the flow (R315). -/
def entryFree (s : State) (d f : Nat) : Bool :=
  let t := dieGet s d
  let used := fun (n : Nat) => (t.items.filter (fun i => i.flow == n)).length
  let c := flowCfg s d f
  let kept := ((List.range 64).map (fun n => (flowCfg s d n).res - used n)).sum
  used f < c.max && (used f < c.res || kept < 512 - t.items.length)

/-- The rank that an overflow gives way to (R512): the highest rank of the items that hold the type-case entries; the flow's own rank where
lack of capacity alone is the cause, since the flow is at MAX or no item holds an entry (assumption 114). -/
def overflowTo (s : State) (d f : Nat) : Nat :=
  let own := (clsCfg s (flowCfg s d f).cls).rank
  let its := (dieGet s d).items
  if (flowCfg s d f).max ≤ (its.filter (fun i => i.flow == f)).length then own
  else ((its.map (fun i => (clsCfg s i.cls).rank)).min?).getD own

/-- An overflow: counted, first in a window an event, and the class rank gives way (R315). -/
def overflow (d f : Nat) (s : State) : State :=
  let x := flowGet s d f
  let first := firstIn x.winOv s.tick.index
  let c := flowCfg s d f
  let s1 := flowUpd d f (fun y => { y with
    overflows := min (y.overflows + 1) 65535, winOv := if first then some s.tick.index else y.winOv,
    cntOv := if first then 1 else y.cntOv + 1 }) s
  let s2 := giveWay 0x04 (d * 256 + f) (clsCfg s c.cls).rank (overflowTo s d f) s1
  when first (dispEvent d 0x02 .notice f [c.cls, 1]) s2

/-- Create an item with its first operands, or overflow (R314, R315). `edge` is the crossing or boundary in whose CORE cycle a RESULT
operand arrives. -/
def itemCreate (d f v : Nat) (slots : Tbl (List (Option Int))) (edge : Option (Bool × Nat)) (s : State) : State :=
  let c := flowCfg s d f
  match bindOf s d f v with
  | none => s
  | some (n, b) =>
    if c.arity = 0 ∨ !creates s c ∨ shedRank (dieGet s d).shed (clsCfg s c.cls).rank then s
    else if (if replaying s then journalled s ⟨2, d, f, 0, (flowGet s d f).seq.toNat, v % 2 ^ 32⟩ else !entryFree s d f) then
      overflow d f (journal 2 d f 0 (flowGet s d f).seq.toNat (v % 2 ^ 32) s)
    else
      let x := flowGet s d f
      let i : Item := {
        flow := f, event := c.event, cls := c.cls, cls0 := c.cls, seq := x.seq.toNat, v := v, made := s.link.crossing, slots := slots,
        bindNo := n, bind := b }
      let i := { i with ready := filled c i, edge := if filled c i then edge else none }
      let depth := ((dieGet s d).items.filter (fun j => j.flow == f)).length + 1
      readyNote d c.cls <| dieUpd d (fun t => { t with items := t.items ++ [i], depthMax := max t.depthMax (t.items.length + 1) })
        (flowUpd d f (fun y => { y with
          seq := y.seq + 1, lastV := some v, created := inc32 y.created, depthMax := max y.depthMax depth }) s)

/-- A RESULT operand of tag v arrives at slot `n` of flow `f` (R316). One for an item that a time-out has made ready, and one whose tag lies
at or below that of a flow's last item, are discarded and counted too (assumption 144). -/
def operandArrive (d f n v : Nat) (edge : Option (Bool × Nat)) (words : List (Option Int)) (s : State) : State :=
  let c := flowCfg s d f
  let discard := flowUpd d f (fun y => { y with unmatched := min (y.unmatched + 1) 65535 })
  match (dieGet s d).items.find? (fun i => i.flow == f && i.v == v) with
  | some i =>
    if i.ready ∨ i.running ∨ thas i.slots n then discard s
    else readyNote d i.cls (itemUpd d f i.seq (fun x =>
      let y := { x with slots := tset x.slots n words }
      { y with ready := filled c y, edge := if filled c y then edge else none }) s)
  | none =>
    if c.tick ∨ c.event ∨ (flowGet s d f).lastV.any (fun w => v ≤ w) then discard s
    else itemCreate d f v [(n, words)] edge s

/-- Words of a RESULT operand: what the item put for ports PBASE onward (R316). -/
def resultWords (puts : List PortVal) (w : Nat) : List (Option Int) :=
  (List.range (pwidth w)).map (fun k => (puts.find? (fun p => !p.duty && p.port == pbase w + k)).map (·.v))

/-- A value of view tick `v` is published after the crossing of the running tick, which was its own or a later one: it missed that crossing
(R301, Table 5.5). -/
def missedNow (s : State) (duty : Bool) (v : Nat) : Bool :=
  if duty then s.tick.outDone && decide (v ≤ s.tick.index) else s.tick.inDone && decide (v < s.tick.index)

/-- One value is published; one that missed its crossing is counted in the snapshot of that crossing's tick. -/
def publish (d : Nat) (i : Item) (p : PortVal) (s : State) : State :=
  let late := missedNow s p.duty i.v
  let put := fun (y : TPort) => { y with waiting := some ⟨p.v, i.v, i.bindNo⟩, noted := late }
  let s1 := dieUpd d (fun x =>
    if p.duty then { x with dports := tupd {} x.dports p.port put } else { x with rports := tupd {} x.rports p.port put }) s
  when late (fun t => t.onTick (fun k => { k with tileLate := k.tileLate + 1 })) s1

/-- An item is released: its values are published and forwarded (R322, R301, R316), in the CORE cycle `edge` where that of a crossing or a
boundary. -/
def itemRelease (d : Nat) (edge : Option (Bool × Nat)) (i : Item) (s : State) : State :=
  let s1 := i.ports.foldl (fun t p => publish d i p t) s
  let s2 := flowUpd d i.flow (fun y => { y with released := inc32 y.released }) (itemDel d i.flow i.seq s1)
  (List.range 64).foldl (fun t f =>
    let c := flowCfg t d f
    ((List.range c.arity).map (· + 1)).foldl (fun u n =>
      let w := c.src n
      if skind w == 3 && pflow w == i.flow && f != i.flow then operandArrive d f n i.v edge (resultWords i.ports w) u else u) t) s2

/-! ### The input crossing (R301, R314, R326, R328) -/

/-- The tick blocks that a freeze slot holds, read from the host's bytes where it was loaded (R553). -/
def slotBlocks (f : Freeze) : List TickBlock :=
  match f.raw with
  | some p => Config.loadedBlocks p
  | none => f.blocks

/-- In replay, a publication of view tick `v` that the record places at a later crossing (R554). -/
def pubHeld (s : State) (d kind port v : Nat) : Bool :=
  match s.galley.replay with
  | some r => replaying s && (slotBlocks (tget {} s.galley.slots r.slot)).any (fun b =>
      r.tick < b.tick && b.journal.any (fun e => e.kind == 6 && e.die == d && e.obj == port && e.detail == kind && e.v == v % 2 ^ 32))
  | none => false

/-- One die's ports of a kind at their crossing: the publications that enter, and the late ones journalled; `lead` is how
far behind the tick a view tick in time lies (R301). A result port is valid by a publication of the binding that owns it (R328). -/
def portsTake (s : State) (d kind lead : Nat) (ps : Tbl TPort) : Tbl TPort × List (Nat × Nat × Bool) :=
  let due := fun (e : Nat × TPort) => e.2.waiting.any (fun w => !pubHeld s d kind e.1 w.view)
  (ps.map (fun e => match e.2.waiting, due e with
    | some w, true => (e.1, { v := w.v, ok := kind == 1 || ownsPort s d w.bind false e.1, fresh := true, waiting := none, noted := false, age := 0 })
    | _, _ => (e.1, { e.2 with fresh := false, age := e.2.age + 1 })),
   (ps.filter (fun e => due e && e.2.waiting.any (fun w => w.view + lead < s.tick.index))).map (fun e =>
     (e.1, (e.2.waiting.map (·.view)).getD 0, e.2.noted)))

/-- Late publications: counted and journalled; in replay one that the record does not show ends the replay (R301, R554). The snapshot of
this tick counts those that none has counted: they were published between the boundary and the crossing. -/
def noteLate (d kind : Nat) (l : List (Nat × Nat × Bool)) (s : State) : State :=
  let s1 := l.foldl (fun t e => journal 6 d e.1 kind 0 (e.2.1 % 2 ^ 32) t) s
  let miss := replaying s && l.any (fun e => !journalled s ⟨6, d, e.1, kind, 0, e.2.1 % 2 ^ 32⟩)
  let s2 := s1.onGalley (fun g => { g with lateIn := g.lateIn || miss })
  let s3 := dieUpd d (fun x => { x with late := min (x.late + l.length) 0xFFFFFFFF }) s2
  s3.onTick (fun k => { k with tileLate := k.tileLate + (l.filter (fun e => !e.2.2)).length })

/-- Publications enter at the input crossing (R301). -/
def portsEnter (d : Nat) (s : State) : State :=
  let r := portsTake s d 0 1 (dieGet s d).rports
  noteLate d 0 r.2 (dieUpd d (fun x => { x with rports := r.1 }) s)

/-- Duty values enter at the output crossing (R301). -/
def dutiesEnter (d : Nat) (s : State) : State :=
  let r := portsTake s d 1 0 (dieGet s d).dports
  noteLate d 1 r.2 (dieUpd d (fun x => { x with dports := r.1 }) s)

/-- Overloaded: an item of a P2 or P3 class with v below the tick is ready and has not started (R326). -/
def overloaded (s : State) (d : Nat) : Bool :=
  (dieGet s d).items.any (fun i => (clsCfg s i.cls).rank ≤ 3 && i.v < s.tick.index && i.ready && !i.running && !i.ended)

/-- Items of shed ranks that have not started are cancelled. -/
def shedItems (d : Nat) (s : State) : State :=
  let l := (dieGet s d).shed
  ((dieGet s d).items.filter (fun i => shedRank l (clsCfg s i.cls).rank && !i.running && !i.ended)).foldl (fun t i =>
    itemCancel d (true, s.link.crossing) i (dieUpd d (fun x => { x with clsShed := tupd 0 x.clsShed i.cls inc32 }) t)) s

/-- 1,024 consecutive crossings without overload: the shed level falls by one (R326). -/
def shedFall (d : Nat) (s : State) : State :=
  let x := dieGet s d
  if !replaying s ∧ 1024 ≤ x.calm ∧ 0 < x.shed then
    dispEvent d 0x04 .notice 0 [x.shed - 1, s.tick.index - x.shedAt]
      (journal 3 d 0 (x.shed - 1) 0 0 <| dieUpd d (fun y => { y with shed := y.shed - 1, calm := 0, shedAt := s.tick.index }) s)
  else s

/-- The shed level at a crossing: up by one while overloaded, down by one after 1,024 crossings without; the new level applies from this
crossing on (R326, R327). -/
def shedCheck (d : Nat) (s : State) : State :=
  let x := dieGet s d
  let excess := overloaded s d && !replaying s
  let up := excess && x.shed < 3
  let s1 := dieUpd d (fun y => { y with
    calm := if excess then 0 else y.calm + 1, shed := if up then y.shed + 1 else y.shed,
    shedAt := if up then s.tick.index else y.shedAt }) s
  let s2 := shedFall d (when up (fun t => shedItems d (dispEvent d 0x03 .notice 0 [x.shed + 1] (journal 3 d 0 (x.shed + 1) 0 0 t))) s1)
  ([3, 4, 5].filter (shedRank (dieGet s2 d).shed)).foldl (fun t r => giveWay 0x03 d r 2 t) s2

/-- The 64-bit word of an event (Table 9.5). -/
def PwmEvent.word (e : PwmEvent) : Nat :=
  e.src * 2 ^ 60 + e.index * 2 ^ 56 + e.kind * 2 ^ 52 + min e.count 255 * 2 ^ 44 + (e.tick % 2 ^ 18) * 2 ^ 14 + e.offset % 2 ^ 14

/-- The event matches an event flow's source word (Table 12.1). -/
def evMatch (c : FlowCfg) (e : PwmEvent) : Bool :=
  let w := c.src 1
  c.event && 0 < c.arity && skind w == 2 && w / 2 ^ 24 % 16 == e.src && w / 2 ^ 20 % 16 == e.kind && bit (w % 4096) e.index

/-- An arm generator's word goes to the die of its arm only (R314). -/
def evDie (d : Nat) (e : PwmEvent) : Bool := e.src != 1 || e.index / 6 == d

/-- Ascending order of SRC, INDEX, KIND. -/
def evSort (l : List PwmEvent) : List PwmEvent :=
  l.foldl (fun acc e =>
    let key := fun (x : PwmEvent) => x.src * 256 + x.index * 16 + x.kind
    (acc.filter (fun x => key x ≤ key e)) ++ e :: acc.filter (fun x => key e < key x)) []

/-- Items created at the input crossing of the tick (R314). -/
def itemsCreate (d : Nat) (s : State) : State :=
  let t := s.tick.index
  let evs := (evSort s.pwm.events).filter (evDie d)
  (List.range 64).foldl (fun u f =>
    let c := flowCfg u d f
    if c.arity = 0 then u
    else if c.event then
      (evs.filter (evMatch c)).foldl (fun w e =>
        itemCreate d f t [(1, [some ((e.word % 2 ^ 32 : Nat) : Int), some ((e.word / 2 ^ 32 : Nat) : Int)])] none w) u
    else if c.tick ∧ (t + c.div * c.phase - c.phase) % c.div = 0 then
      itemCreate d f t [(1, [some ((t % 2 ^ 32 : Nat) : Int), some ((t / 2 ^ 32 % 2 ^ 32 : Nat) : Int)])] none u
    else u) s

/-- Forget starts and ends older than 1,024 ticks, and what a binding was before a boundary that a change of T has put out of reach. -/
def pruneRuns (d : Nat) (s : State) : State :=
  let now := s.tick.index
  dieUpd d (fun x => { x with
    starts := x.starts.filter (fun r => now < r.tick + 1024), runs := x.runs.filter (fun r => now < r.tick + 1024),
    bindOld := x.bindOld.filter (fun e => e.2.1 ≤ now) }) s

/-- The dispatcher of a die at an input crossing: publications enter, the shed level is judged, items are created. -/
def dispCrossing (d : Nat) (s : State) : State :=
  if ctlOk s d then itemsCreate d (shedCheck d (pruneRuns d s)) else s

/-! ### Commits (R306, R320, R325) -/

/-- What a flow's commit changes so that its waiting items are cancelled (Table 12.4). -/
def flowChanged (a b : FlowCfg) : Bool :=
  a.event != b.event || a.arity != b.arity || a.srcs != b.srcs || a.ordered != b.ordered || a.partials != b.partials

def commitFlows (d : Nat) (s : State) : State :=
  (dieGet s d).flowNew.foldl (fun t e =>
    let ch := flowChanged (flowCfg t d e.1) e.2
    let wait := (dieGet t d).items.filter (fun i => i.flow == e.1 && !i.running && !i.ended)
    let t1 := if ch then wait.foldl (fun u i => itemCancel d (false, s.tick.index) i u) t else t
    dieUpd d (fun x => { x with
      flow := tset x.flow e.1 e.2, flowNew := tdel x.flowNew e.1,
      items := x.items.map (fun i => if i.flow == e.1 && !i.running then { i with cls := e.2.cls } else i) }) t1) s

def commitBinds (d : Nat) (s : State) : State :=
  (dieGet s d).bindNew.foldl (fun t e =>
    let old := bindCfg t d e.1
    let len := fun (b : Binding) => (kernelOf t d b.kid).map (·.2.1)
    let zero : Bool := old.kid != e.2.kid || len old != len e.2 || bit e.2.bflags 1
    let nb : Binding := { e.2 with bflags := e.2.bflags % 2 }
    let own := if nb.kid = 0 then (0, 0) else (nb.rports, nb.dports)
    let lost : Binding := { old with rports := old.rports - (old.rports &&& own.1), dports := old.dports - (old.dports &&& own.2) }
    let t1 := dieUpd d (fun x => { x with
      bind := tset x.bind e.1 nb, bindOld := tset x.bindOld e.1 (s.tick.index, old), bindNew := tdel x.bindNew e.1, state := if zero then tdel x.state e.1 else x.state }) t
    portsInvalid d lost 1 t1) s

/-- What a commit of these sets puts into force: the flows of its bindings, per die, and its flows. -/
def committedFlows (mask : BitVec 9) (s : State) : List (Nat × List Nat × List Nat) :=
  [0, 1].map (fun d =>
    (d, if mask.getLsbD 3 then ((dieGet s d).bindNew.filter (fun e => e.2.kid != 0)).map (fun e => e.2.flow) else [],
      if mask.getLsbD 4 then (dieGet s d).flowNew.map (·.1) else []))

/-- A binding whose flow is not configured, or a committed flow without a binding, raises an event at the boundary (R306, Table 12.5). -/
def unboundEvents (l : List (Nat × List Nat × List Nat)) (s : State) : State :=
  l.foldl (fun t e =>
    let conf := fun (f : Nat) => (flowCfg t e.1 f).arity != 0
    let bad := e.2.1.filter (fun f => !conf f) ++ e.2.2.filter (fun f => conf f && !flowBound t e.1 f)
    bad.foldl (fun u f => dispEvent e.1 0x09 .notice f [] u) t) s

/-- Commit of shadow set bits 3 and 4. -/
def commitTiles (s : State) : State := [0, 1].foldl (fun t d => commitBinds d t) s

def commitDisp (s : State) : State :=
  ([0, 1].foldl (fun t d => commitFlows d t) s).onTiles (fun x => { x with
    cls := x.clsNew.foldl (fun t e => tset t e.1 e.2) x.cls, clsNew := [] })

end Sys2Proof.Machine
end

