-- ==== Sys2Proof/Machine/TileOps.lean ====
section
/-! DEFINITION. Shared operations of the DSP tiles (chapter 11): starting and ending a work item, tile memory, how an
instruction issues, faults, views. -/

namespace Sys2Proof.Machine

open Sys2Proof

def tileGet (s : State) (d t : Nat) : TileSt := tget {} (dieGet s d).tiles t

def tileUpd (d t : Nat) (f : TileSt → TileSt) (s : State) : State := dieUpd d (fun x => { x with tiles := tupd {} x.tiles t f }) s

/-- Logical number of a tile in service: tiles 0 to 15 serve under their own numbers until a spare is brought in (R283). A readmitted
tile that is SPARE or TESTING has none (R585). -/
def tileLogical (s : State) (d t : Nat) : Option Nat :=
  let x := tileGet s d t
  let aside := (tget {} s.spare.res (2 ^ 24 + (1 + d) * 2 ^ 16 + t) : Resource).st.isSome
  if x.retired ∨ aside then none
  else match x.logical with
    | some n => some n
    | none => if t < 16 then some t else none

/-- The physical tile that serves a logical number and can take work. -/
def tileOf (s : State) (d n : Nat) : Option Nat := (List.range 18).find? (fun t => tileLogical s d t == some n)

def tilesInService (s : State) (d : Nat) : List Nat :=
  (List.range 18).filter (fun t => (tileLogical s d t).isSome && !(tileGet s d t).repair)

/-- The item a tile runs. -/
def tileItem (s : State) (d t : Nat) : Option Item :=
  match (tileGet s d t).item with
  | some (f, q) => (dieGet s d).items.find? (fun i => i.flow == f && i.seq == q)
  | none => none

/-! ### Faults (Table 11.10) -/

inductive TFault where
  | illegal | access | stale | cycles | memory
  deriving DecidableEq, Repr

def TFault.row : TFault → Nat
  | .illegal => 0 | .access => 1 | .stale => 2 | .cycles => 3 | .memory => 5

/-- A work item is aborted: it publishes nothing, its state block is not written back, and its failure propagates (R307,
R319, R322). -/
def tileAbort (d t : Nat) (f : TFault) (s : State) : State :=
  let x := tileGet s d t
  match tileItem s d t with
  | none => s
  | some i =>
    let n := (tileLogical s d t).getD 0
    let s1 := tileUpd d t (fun y => { y with
      item := none, rep := none, puts := [], loaded := [], aborts := inc32 y.aborts, lastCyc := x.cycles,
      maxCyc := max y.maxCyc x.cycles }) s
    let s2 := dieUpd d (fun y => { y with
      aborts := inc32 y.aborts, runs := ⟨s.tick.index, n, x.cycles + 4, false⟩ :: y.runs }) s1
    let s3 := flowUpd d i.flow (fun y => { y with aborts := min (y.aborts + 1) 65535 }) (itemDel d i.flow i.seq s2)
    let s4 := dispEvent d 0x06 .contained i.flow
      [i.seq, i.v % 2 ^ 32, i.v / 2 ^ 32, Config.openCode 0x2306 f.row] s3
    itemFail 64 d i.flow i.v x.bind (when (f == .stale || f == .memory) (journal 4 d i.flow f.row i.seq (i.v % 2 ^ 32)) s4)

/-! ### Memory (Table 11.3) -/

/-- Little-endian word `k` of a byte list. -/
def wordOf (p : Bytes) (k : Nat) : Word32 := BitVec.ofNat 32 (rd p (4 * k) 4)

/-- The operand block of an item (Table 12.2). -/
def operandBlock (c : FlowCfg) (i : Item) : Bytes :=
  let slot := fun (n : Nat) => (tget [] i.slots n)
  let written := fun (n : Nat) =>
    if skind (c.src n) == 3 then maskOf ((List.range 8).filter (fun k => ((slot n).getD k none).isSome)) else 0
  let words := fun (n : Nat) => fit 32 ((slot n).flatMap (fun w => leS 4 (w.getD 0)))
  le 1 i.flow ++ le 1 (b2n i.event) ++ le 1 (maskOf i.missing) ++ le 1 i.cls0 ++ le 4 i.seq ++ le 8 i.v ++
    ((List.range 7).flatMap (fun n => le 1 (written (n + 1)))) ++ List.replicate 9 0 ++
    ((List.range 7).flatMap (fun n => words (n + 1)))

/-- A read of X space; none is an access fault. -/
def xRead (s : State) (d : Nat) (x : TileSt) (i : Item) (a : Nat) : Option Word32 :=
  if a % 4 ≠ 0 then none
  else if a < 0x3400 then some (tget 0 x.x a)
  else if a < 0x3500 then some (wordOf (operandBlock (flowCfg s d i.flow) i) ((a - 0x3400) / 4))
  else if a < 0x3540 then some (wordOf x.bind.param ((a - 0x3500) / 4))
  else none

/-- A read of Y space. -/
def yRead (s : State) (d : Nat) (x : TileSt) (a : Nat) : Option Word32 :=
  if a % 4 ≠ 0 then none
  else if a < 0x2000 then some (((dieGet s d).image.elim [] (·.consts)).getD (a / 4) 0)
  else if a < 0x4000 then some (tget 0 x.y a)
  else if a < 0x6000 then some (Config.romConst ((a - 0x4000) / 4))
  else none

def spaceRead (s : State) (d : Nat) (x : TileSt) (i : Item) (y : Bool) (a : Nat) : Option Word32 :=
  if y then yRead s d x a else xRead s d x i a

/-- A write: X scratch and state range, Y scratch; anything else is an access fault. -/
def spaceWrite (x : TileSt) (y : Bool) (a : Nat) (w : Word32) : Option TileSt :=
  if a % 4 ≠ 0 then none
  else if y then (if 0x2000 ≤ a ∧ a < 0x4000 then some { x with y := tset x.y a w } else none)
  else if a < 0x3400 then some { x with x := tset x.x a w } else none

/-! ### Registers -/

def TileSt.dr (x : TileSt) (n : Nat) : Word32 := tget 0 x.d n

def TileSt.setD (x : TileSt) (n : Nat) (w : Word32) : TileSt := { x with d := tset x.d n w }

def TileSt.ar (x : TileSt) (n : Nat) : BitVec 80 := tget 0 x.acc n

def TileSt.pr (x : TileSt) (n : Nat) : Word16 := tget 0 x.p n

def TileSt.mr (x : TileSt) (n : Nat) : Word16 := tget 0 x.m n

def TileSt.cr (x : TileSt) (n : Nat) : Word16 := tget 0 x.c n

/-- Field `hi` down to `lo` of an instruction word. -/
def fld (w : Word32) (hi lo : Nat) : Nat := w.toNat / 2 ^ lo % 2 ^ (hi + 1 - lo)

def fldS (w : Word32) (hi lo : Nat) : Int :=
  let n := fld w hi lo
  if n < 2 ^ (hi - lo) then n else (n : Int) - (2 ^ (hi + 1 - lo) : Nat)

/-! ### Issue (R283, R293, R296, R297) -/

/-- First instruction index of the region that holds a kernel (R285). -/
def regionBase (kid : Nat) : Nat := if kid < 0x8000 then 0 else 8192

def inRegion (kid pc : Nat) : Bool := regionBase kid ≤ pc && pc < regionBase kid + 8192

/-- The word the image holds at an index; none where the spec lists no content: ROM, and RAM beyond the code. -/
def imageWord (s : State) (d pc : Nat) : Option Word32 :=
  match (dieGet s d).image with
  | some m => m.code[pc]?
  | none => none

/-- The next instruction after the one at `pc`: the repeat buffer turns back at the end of its body (R297). -/
def TileSt.advance (x : TileSt) : TileSt :=
  let n := x.pc + 1
  match x.rep with
  | none => { x with pc := n }
  | some r =>
    if n < r.first + r.len then { x with pc := n }
    else if 0 < r.left then { x with pc := r.first, rep := some { r with left := r.left - 1 } }
    else { x with pc := n, rep := none }

/-- What an instruction's own effect gives. -/
abbrev TRes := Except TFault TileSt

/-- The tile issues this instruction: it runs an item, its cycle limit is not reached, the word is one of this opcode and
is what the program memory holds, and the program counter lies in the region (else an access fault). `zero` are the bits
the format has at zero, `reads` the data registers it reads, `cost` its cycles (R293, R296, R307). -/
def issueWith (d t : Nat) (w : Word32) (op : Nat) (zero : Word32) (reads : List Nat) (cost : Nat) (s : State)
    (act : Item → TileSt → TRes) (fin : Item → TileSt → State → State) : State :=
  let x := tileGet s d t
  match tileItem s d t with
  | none => s
  | some i =>
    if x.limit ≤ x.cycles ∨ fld w 31 26 ≠ op then s
    else if !inRegion x.bind.kid x.pc then tileAbort d t .access s
    else if x.bind.kid < 0x8000 ∧ (imageWord s d x.pc).any (fun v => v != w) then s
    else if w &&& zero ≠ 0 then tileAbort d t .illegal s
    else
      let stall := if reads.any (fun r => x.loaded.contains r) then 1 else 0
      match act i { x.advance with cycles := x.cycles + cost + stall, loaded := [] } with
      | .error f => tileAbort d t f s
      | .ok y => fin i y s

/-- An instruction whose whole effect is on its tile. -/
def issue (d t : Nat) (w : Word32) (op : Nat) (zero : Word32) (reads : List Nat) (cost : Nat) (s : State)
    (act : Item → TileSt → TRes) : State :=
  issueWith d t w op zero reads cost s act (fun _ y u => tileUpd d t (fun _ => y) u)

/-! ### Starting and ending an item (R284, R287, R300, R321) -/

/-- Items of a class on tiles now. -/
def clsTiles (s : State) (d c : Nat) : Nat := ((dieGet s d).items.filter (fun i => i.running && !i.ended && i.cls == c)).length

/-- The item may start now (R321). -/
def mayStart (s : State) (d : Nat) (i : Item) : Bool :=
  let its := (dieGet s d).items
  i.ready && !i.running && !i.ended && (kernelOf s d i.bind.kid).isSome && clsTiles s d i.cls < (clsCfg s i.cls).tmax &&
    !(bit i.bind.bflags 0 && (its.takeWhile (fun j => !(i.same j))).any (fun j => j.flow == i.flow && !j.ended))

/-- The order of R321: rank, class, v, flow, and SEQ by the order of creation. -/
def startBefore (s : State) (a b : Item) : Bool :=
  let ra := (clsCfg s a.cls).rank
  let rb := (clsCfg s b.cls).rank
  if ra ≠ rb then ra < rb else if a.cls ≠ b.cls then a.cls < b.cls else if a.v ≠ b.v then a.v < b.v else a.flow < b.flow

/-- The first startable item in that order. -/
def firstItem (s : State) (d : Nat) : Option Item :=
  ((dieGet s d).items.filter (mayStart s d)).foldl (fun best i => match best with
    | none => some i
    | some b => if startBefore s i b then some i else some b) none

/-- The lowest-numbered idle tile in service, by logical number. -/
def idleTile (s : State) (d : Nat) : Option Nat :=
  ((List.range 16).filterMap (tileOf s d)).find? (fun t => !(tileGet s d t).repair && (tileGet s d t).item.isNone)

/-- The words of a state block as X addresses. -/
def stateWords (b : Tbl Word32) : Tbl Word32 := b.map (fun e => (0x3000 + e.1, e.2))

/-- The item goes to the tile: registers zero, scratch invalid, the state block copied in (R284 to R287, R317). -/
def itemStart (d t : Nat) (i : Item) (wait : Nat) (s : State) : State :=
  match kernelOf s d i.bind.kid with
  | none => s
  | some (pc, len, maxc) =>
    let n := (tileLogical s d t).getD 0
    let x0 := tileGet s d t
    let x : TileSt := { x0 with
      item := some (i.flow, i.seq), bindNo := i.bindNo, bind := i.bind, limit := limitOf i.bind maxc, stateLen := len, pc := pc,
      d := [], p := [], m := [], c := [], acc := [], be := 0, st := 0, rep := none, y := [], puts := [], cycles := 0,
      loaded := [],
      x := if bit i.bind.bflags 0 then stateWords ((tget [] (dieGet s d).state i.bindNo).filter (fun e => e.1 < len)) else [] }
    let s1 := tileUpd d t (fun _ => x) (itemUpd d i.flow i.seq (fun y => { y with running := true }) s)
    dieUpd d (fun y => { y with starts := ⟨s.tick.index, i.flow, i.cls, n, wait⟩ :: y.starts }) s1

/-- END: the buffer goes to the dispatcher, the state block back, the counts rise; a ROM kernel with a bad PARAM byte
publishes nothing (R287, R300, R307, R309). -/
def itemEnd (d t : Nat) (i : Item) (x : TileSt) (s : State) : State :=
  let n := (tileLogical s d t).getD 0
  let bad := 0x8000 ≤ x.bind.kid && romBad x.bind
  let st := x.x.filterMap (fun e => if 0x3000 ≤ e.1 ∧ e.1 < 0x3000 + x.stateLen then some (e.1 - 0x3000, e.2) else none)
  let s1 := tileUpd d t (fun _ => { x with
    item := none, rep := none, puts := [], loaded := [], items := inc32 x.items, lastCyc := x.cycles,
    maxCyc := max x.maxCyc x.cycles, satEnd := if x.st.getLsbD 5 then inc32 x.satEnd else x.satEnd,
    aovEnd := if x.st.getLsbD 6 then inc32 x.aovEnd else x.aovEnd }) s
  let copies := 4 + (if bit x.bind.bflags 0 then 2 * ((x.stateLen + 63) / 64) else 0)
  let s2 := dieUpd d (fun y => { y with
    runs := ⟨s.tick.index, n, x.cycles + copies, true⟩ :: y.runs,
    state := if bit x.bind.bflags 0 then tset y.state x.bindNo st else y.state }) s1
  let s3 := itemUpd d i.flow i.seq (fun y => { y with ended := true, ports := if bad then [] else x.puts }) s2
  when bad (raise (1 + d) 0x024 0x01 .notice x.bindNo []) s3

/-! ### Views (R299) -/

/-- The view of a tick, while it is kept. -/
def viewOf (s : State) (v : Nat) : Option View := s.loop.views.find? (fun w => w.tick == v)

/-- GETS: the value and whether its source was valid, or the fault (R299). -/
def gets (s : State) (d : Nat) (i : Item) (sel : Nat) : Except TFault (Int × Bool) :=
  if !selOk s.tick.len sel || !selFit s d sel then .error .access
  else match viewOf s i.v with
    | none => .error .stale
    | some w =>
      let g := tget {} w.sigs (sigKey d sel)
      .ok (if sel = 0 then (0, true) else (g.v, g.ok))

/-- PUT: the port is owned by the binding the item started with (R300). -/
def putOk (b : Binding) (duty : Bool) (port : Nat) : Bool := if duty then port < 16 && bit b.dports port else port < 64 && bit b.rports port

end Sys2Proof.Machine
end

