-- ==== Sys2Proof/Machine/CapsOps.lean ====
section
/-! DEFINITION. The capability descriptor (R101, Table 4.10). -/

namespace Sys2Proof.Machine

open Sys2Proof

/-- A spare port serves a port of this die, or shadows one. -/
def spareTaken (s : State) (p : Nat) : Bool :=
  (List.range 8).any (fun i => (portGet s (p / 8 * 8 + i)).spare != 0 || (portGet s (p / 8 * 8 + i)).shadow.isSome)

/-- Tiles in service on a CTL die, and its spare tiles left. -/
def tilesUp (s : State) (d : Nat) : Nat := if ctlOk s d then ((List.range 18).filter (fun t => (tileLogical s d t).isSome)).length else 0

def tilesSpare (s : State) (d : Nat) : Nat :=
  if ctlOk s d then ((List.range 18).filter (fun t => !(tileGet s d t).retired && (tileLogical s d t).isNone)).length else 0

def dieMask (s : State) : Nat := maskOf ((List.range 8).filter (dieOk s))

def failedMask (s : State) : Nat := maskOf (s.dev.variant.dies.filter s.power.dieFailed.contains)

/-- STRAPS [7:0] (Table 4.2). -/
def strapBits (s : State) : Nat :=
  let p := s.power
  p.straps.unitid.toNat + 16 * b2n p.straps.pairsel + 32 * b2n p.straps.trefsel + 64 * b2n p.straps.ftest + 128 * b2n p.strapBad

/-- Bytes 0 to 251 of the descriptor. -/
def capsBody (s : State) : Bytes :=
  let ports := (List.range 32).filter (portOk s)
  let mpr := fun (n : Nat) => if mprOk s then n else 0
  let spares := (List.range 4).filter (fun n => dieOk s (4 + n) && !spareTaken s (8 * n))
  let lost := (List.range 32).filter (fun p => portFitted s p && (portGet s p).state == .lost)
  fit 252 (le 4 1 ++ le 4 fwEdition ++ le 1 s.dev.variant.code ++ le 1 s.power.straps.unitid.toNat ++ le 2 (strapBits s) ++
    le 4 (dieMask s) ++ le 4 (failedMask s) ++ le 2 (maskOf ((List.range 12).filter (armOk s))) ++ le 2 (128 * ports.length) ++
    le 4 (maskOf ports) ++ le 1 (maskOf spares) ++ le 1 7 ++ le 2 (if anyCtl s then 256 else 0) ++
    le 1 (tilesUp s 0) ++ le 1 (tilesUp s 1) ++ le 1 (tilesSpare s 0) ++ le 1 (tilesSpare s 1) ++
    le 1 (mpr ((List.range 4).filter (unitIn s)).length) ++ le 1 (mpr (b2n (!s.meas.spareBad && s.meas.spareFor.isNone))) ++
    le 1 (mpr 4) ++ le 1 (mpr 96) ++ le 2 (mpr 0xFFFF) ++ le 2 0x4F ++ le 4 (s.power.dramA - s.spare.badA) ++
    le 4 (s.power.dramB - s.spare.badB) ++ le 4 (aonFlags s) ++ le 4 (maskOf lost))

/-- The descriptor as last built, with its CRC. -/
def caps (s : State) : Bytes := withCrc s.dev.caps

/-- The firmware builds the descriptor. -/
def capsBuild (s : State) : State :=
  let p := capsBody s
  s.onDev (fun d => { d with caps := p, capsDigest := crc32c p })

/-- The firmware updates the descriptor: CAPS_DIGEST changes, with CAPS_CHANGED. It does so when a die or unit is declared failed or lost;
the AON flags in it are those of that moment (assumption 109). -/
def capsUpdate (s : State) : State :=
  if !s.dev.capsValid ∨ s.dev.caps = capsBody s then s
  else
    let t := capsBuild s
    raise 0 0x001 0x09 .notice 0 [t.dev.capsDigest.toNat] t

end Sys2Proof.Machine
end

