-- ==== Sys2Proof/Machine/SpareOps.lean ====
section
/-! DEFINITION. Spares: the inventory's states, the failure of a resource and what becomes of it (R578 to R585). -/

namespace Sys2Proof.Machine

open Sys2Proof

def spareEvent (kind : Nat) (cls : FClass) (addr : Nat) (d : List Nat) (s : State) : State := raise 0 0x043 kind cls addr d s

/-- A resource ADDR, and the key of a physical resource. -/
def resKey (kind die n : Nat) : Nat := kind * 2 ^ 24 + die * 2 ^ 16 + n

def resGet (s : State) (kind die n : Nat) : Resource := tget {} s.spare.res (resKey kind die n)

def resUpd (kind die n : Nat) (f : Resource → Resource) (s : State) : State :=
  s.onSpare (fun x => { x with res := tupd {} x.res (resKey kind die n) f })

/-- Thresholds at their defaults (Table 23.2, R586). -/
def thrDefault (id : Nat) : Nat × Nat :=
  match id with
  | 1 => (3, 86400) | 2 => (1000, 3600) | 3 => (4, 3600) | 4 => (8, 86400) | 5 => (16, 0) | _ => (105, 0)

def thrGet (s : State) (id : Nat) : Nat × Nat := tget (thrDefault id) s.spare.thr id

/-- The threshold that counts errors of a kind (Table 23.2). -/
def thrOf (kind : Nat) (double : Bool) : Option Nat :=
  match kind, double with
  | 1, true => some 1
  | 1, false => some 2
  | 3, true => some 3
  | _, _ => none

/-- The instants of errors within a window, newest first, with one now; no more than the count that the threshold asks for. -/
def errorNow (s : State) (k : Nat × Nat) (l : List Nat) : List Nat :=
  let now := s.nowUs / 1000000
  (now :: l.filter (fun t => now < t + k.2)).take k.1

/-- Errors since boot, per physical resource, and those within the window (R579). -/
def countError (kind die n : Nat) (double : Bool) (s : State) : State :=
  let k := ((thrOf kind double).map (thrGet s)).getD (0, 0)
  resUpd kind die n (fun r =>
    if double then { r with bad := inc32 r.bad, badAt := errorNow s k r.badAt }
    else { r with corr := inc32 r.corr, corrAt := errorNow s k r.corrAt }) s

/-- The errors of a resource have reached the count within the window. -/
def errorsReach (s : State) (kind die n : Nat) (double : Bool) : Bool :=
  match thrOf kind double with
  | none => false
  | some id =>
    let r := resGet s kind die n
    decide ((thrGet s id).1 ≤ (if double then r.badAt else r.corrAt).length)

/-! ### States of physical resources (R578) -/

/-- The resource runs the test that decides its readmission. -/
def testing (s : State) (kind die n : Nat) : Bool := (resGet s kind die n).st == some 4

/-- 0 IN_SERVICE, 1 SPARE, 2 SERVING, 3 RETIRED, 4 TESTING. -/
def resState (s : State) (kind die n : Nat) : Nat :=
  match (resGet s kind die n).st with
  | some x => x
  | none =>
    match kind with
    | 1 =>
      if (tileGet s (die - 1) n).retired then 3
      else match tileLogical s (die - 1) n with
        | some l => if l = n then 0 else 2
        | none => 1
    | 2 => if n < 8 then 0 else 1
    | 3 =>
      let port := (die - 4) * 8 + n
      if n = 8 then (if spareTaken s ((die - 4) * 8) then 2 else 1)
      else if (portGet s port).state == .lost || (portGet s port).spare != 0 then 3 else 0
    | 4 =>
      if n = 4 then (if s.meas.spareBad then 3 else if s.meas.spareFor.isSome then 2 else 1)
      else if (unitGet s n).removed || s.meas.spareFor == some n then 3 else 0
    | 7 => if n < 4096 then 0 else 1
    | _ => 0

/-- The logical resource that a physical one serves. -/
def resServes (s : State) (kind die n : Nat) : Option Nat :=
  let st := resState s kind die n
  if st = 1 ∨ st = 3 ∨ st = 4 then none
  else match kind with
    | 1 => tileLogical s (die - 1) n
    | 3 => if n < 8 then some n else (List.range 8).find? (fun i => (portGet s ((die - 4) * 8 + i)).spare != 0)
    | 4 => if n < 4 then some n else s.meas.spareFor
    | 7 => some (tget (n, 0) s.spare.sectors n).1
    | _ => some ((resGet s kind die n).serves.getD n)

/-- Physical and logical resources of a kind on a die (Table 23.1). -/
def physCount (kind : Nat) : Nat := match kind with
  | 1 => 18 | 2 => 9 | 3 => 9 | 4 => 5 | 7 => 4352 | _ => 0

def logCount (kind : Nat) : Nat := match kind with
  | 1 => 16 | 2 => 8 | 3 => 8 | 4 => 4 | 7 => 4096 | _ => 0

/-- Spares that no failed resource is waiting for, lowest index first. -/
def sparesLeft (s : State) (kind die : Nat) : List Nat :=
  (List.range (physCount kind)).filter (fun n =>
    resState s kind die n == 1 && !s.spare.waiting.any (fun w => w.1 == kind && w.2.1 == die && w.2.2.2.1 == n) &&
      !(kind == 4 && n != 4))

def serving (s : State) (kind die l : Nat) : Option Nat := (List.range (physCount kind)).find? (fun n => resServes s kind die n == some l)

/-- A logical resource waits for its spare. -/
def awaited (s : State) (kind die l : Nat) : Bool :=
  s.spare.waiting.any (fun w => w.1 == kind && w.2.1 == die && (resGet s kind die w.2.2.1).serves == some l)

/-- Logical resources without a physical one. -/
def orphans (s : State) (kind die : Nat) : List Nat :=
  (List.range (logCount kind)).filter (fun l => (serving s kind die l).isNone && !awaited s kind die l)

/-! ### Bringing a spare in (Table 23.3) -/

/-- SPARE_IN, and SPARE_LAST where it was the pool's last. -/
def spareNote (kind die l old new cause : Nat) (s : State) : State :=
  when (sparesLeft s kind die).isEmpty (spareEvent 0x02 .notice (resKey kind die l) [kind])
    (spareEvent 0x01 .notice (resKey kind die l) [old, new, cause] s)

def lostNote (kind die l old cause : Nat) (s : State) : State := spareEvent 0x03 .contained (resKey kind die l) [old, cause] s

/-- The final response of a SPARE_SWAP of one resource (Table 23.9). -/
def endSwap (kind die old new st : Nat) (s : State) : State :=
  endPending (fun p => p.opcode == 0x1202 && p.arg == resKey kind die old) .ok (le 2 old ++ le 2 new ++ le 1 st ++ le 3 0) s

/-- A physical resource of kinds 1 and 2 becomes RETIRED, and remembers what it served. -/
def retire (kind die n cause : Nat) (s : State) : State :=
  let l := resServes s kind die n
  let s1 := resUpd kind die n (fun r => { r with st := if kind = 1 then none else some 3, serves := l, cause := cause }) s
  if kind = 1 then tileUpd (die - 1) n (fun x => { x with retired := true, logical := none }) s1 else s1

/-- A spare takes a logical number. -/
def takeOver (kind die n l : Nat) (s : State) : State :=
  let s1 := resUpd kind die n (fun r => { r with st := if kind = 1 then none else some 2, serves := some l }) s
  if kind = 1 then tileUpd (die - 1) n (fun x => { x with retired := false, logical := some l }) s1 else s1

/-- A tile or a loop lane fails: a spare is named for it, or its logical number is lost. -/
def failPooled (kind die n cause : Nat) (s : State) : State :=
  let st := resState s kind die n
  if st = 3 then s
  else
    let l := resServes s kind die n
    let s1 := retire kind die n cause s
    match l, sparesLeft s1 kind die with
    | none, _ => capsUpdate s1
    | some _, sp :: _ => s1.onSpare (fun x => { x with waiting := x.waiting ++ [(kind, die, n, sp, cause)] })
    | some k, [] => capsUpdate (lostNote kind die k n cause s1)

/-- The spare named for a failed tile or lane is brought in at its instant: for a tile, once it has ended or aborted its item. -/
def spareIn (kind die n : Nat) (s : State) : State :=
  match s.spare.waiting.find? (fun w => w.1 == kind && w.2.1 == die && w.2.2.1 == n) with
  | none => s
  | some w =>
    if kind = 1 ∧ (tileGet s (die - 1) n).item.isSome then s
    else
      let l := (resGet s kind die n).serves.getD n
      let sp := w.2.2.2.1
      let s1 := takeOver kind die sp l (s.onSpare (fun x => { x with waiting := x.waiting.filter (· != w) }))
      endSwap kind die n sp 3 (capsUpdate (spareNote kind die l n sp w.2.2.2.2 s1))

/-- L of each CTL die: lanes in service, and those whose spare is on its way; it changes at a boundary (R257, R584). -/
def lanesOf (s : State) (d : Nat) : Nat :=
  ((List.range 9).filter (fun n => (resServes s 2 (1 + d) n).isSome)).length + (s.spare.waiting.filter (fun w => w.1 == 2 && w.2.1 == 1 + d)).length

def lanesBoundary (s : State) : State :=
  [0, 1].foldl (fun t d => if tget 8 t.loop.lanes d = lanesOf t d then t else t.onLoop (fun x => { x with lanes := tset x.lanes d (lanesOf s d) })) s

/-! ### Ports and converter units -/

/-- The spare port has taken over (R166). -/
def portSpareIn (port : Nat) (s : State) : State :=
  let die := portDie port
  let i := port % 8
  spareNote 3 die i i 8 (resGet s 3 die i).cause s

/-- A port fails with its die's spare in use: LOST, its cells FAILED, and four BYPASS frames to leave where it can still send (R168). -/
def portLost (port : Nat) (sends : Bool) (s : State) : State :=
  let p := portGet s port
  if !portFitted s port ∨ p.state = .down ∨ p.state = .lost then s
  else
    let s1 := (portCells s port).foldl (fun t c => setHealth c .failed 0x0A t) s
    let s2 := setPortState port .lost (portUpd port (fun x => { x with
      run := none, queue := [], waiting := [], perm := [], tsDue := false, lastOut := if sends && p.state.frames then 4 else 0 }) s1)
    let s3 := lostNote 3 (portDie port) (port % 8) (port % 8) (resGet s 3 (portDie port) (port % 8)).cause s2
    capsUpdate (endPortPending port .conflict (le 1 10) (linkEvent port 0x05 .contained port [] s3))

/-- A cell port fails: its die's spare begins to shadow it, or it is lost. A second failure of a port that the spare is already shadowing
makes the port LOST (DESIGN CHOICE, assumption 121: the spec does not name it). Whether a port that fails so can still transmit is a free
value. -/
def failPort (die n cause : Nat) (s : State) : State :=
  let port := (die - 4) * 8 + n
  if !portFitted s port ∨ 8 ≤ n then s
  else
    let s1 := resUpd 3 die n (fun r => { r with cause := cause }) s
    let n1 := s1.draw
    if spareTaken s port then portLost port (n1.1 % 2 == 1) n1.2 else portUpd port (fun x => { x with shadow := some s.tick.index }) s1

/-- The unit whose failure a failure of `unit` is: of the spare while it serves, its logical unit (R363). -/
def unitMeant (s : State) (unit : Nat) : Nat := if unit = 4 then s.meas.spareFor.getD 4 else unit

/-- A converter unit fails its checks, or is retired by the host (R362, R363, R593). -/
def unitLost (n why cause : Nat) (s : State) : State :=
  let unit := unitMeant s n
  let old := if unit = 4 then 4 else physOf s unit
  let s1 := unitFail unit why s
  if s1.meas.spareFor = some unit ∧ s.meas.spareFor ≠ some unit then
    endSwap 4 3 old 4 3 (capsUpdate (spareNote 4 3 unit old 4 cause (resUpd 4 3 old (fun r => { r with cause := cause }) s1)))
  else if unit < 4 ∧ (unitGet s1 unit).removed ∧ !(unitGet s unit).removed then
    capsUpdate (lostNote 4 3 unit old cause (resUpd 4 3 old (fun r => { r with cause := cause }) s1))
  else if unit = 4 then capsUpdate (resUpd 4 3 4 (fun r => { r with st := none, cause := cause }) s1)
  else s1

/-! ### Readmission (R585) -/

/-- A converter unit that passed goes back to its logical unit, whose channels are switched, or becomes the spare. -/
def unitBack (n : Nat) (l : Option Nat) (s : State) : State :=
  match l with
  | some u => (switchAll (fun c => (mChan s c).unit == u) (unitUpd u (fun x => { x with
      removed := false, phys := if n = 4 then some 4 else none, cur := convOf s u false 0, next := 0, restart := false }) s)).onMeas (fun m => { m with
      spareFor := if n = 4 then some u else m.spareFor, spareBad := if n = 4 then false else m.spareBad })
  | none => if n = 4 then s.onMeas (fun m => { m with spareBad := false, spareCal := true }) else s

/-- The test of a TESTING resource has ended: SERVING, SPARE or RETIRED again. -/
def readmitEnd (kind die n : Nat) (pass : Bool) (s : State) : State :=
  let free := (orphans s kind die).filter (fun l => !(kind == 4 && n != 4 && l != n))
  let l := if pass then free.head? else none
  let st : Nat := if !pass then 3 else if l.isSome then (if kind = 4 ∧ n ≠ 4 then 0 else 2) else 1
  let s1 := resUpd kind die n (fun r => { r with st := if kind = 4 ∧ (n = 4 ∨ l.isSome ∨ !pass) then none else some st, serves := l }) s
  let s2 : State :=
    if kind = 4 then (if pass then unitBack n l s1 else s1)
    else if kind = 1 then
      match pass, l with
      | false, _ => resUpd 1 die n (fun r => { r with st := none }) (tileUpd (die - 1) n (fun x => { x with retired := true }) s1)
      | true, some k => takeOver 1 die n k s1
      | true, none => tileUpd (die - 1) n (fun x => { x with retired := false, logical := none }) s1
    else s1
  endSwap kind die n 0xFFFF st (capsUpdate (spareEvent 0x04 .notice (resKey kind die (l.getD n)) [n, b2n pass] s2))

/-- The calibration of a TESTING converter unit ends: a level test follows, or it stays retired. -/
def readmitCal (n : Nat) (offset gain : Int) (s : State) : State :=
  let pass := offset.natAbs ≤ 1024 && gain.natAbs ≤ 10000
  let s1 := measEvent 0x03 .notice n [b2n pass, word32 offset, word32 gain, 0]
    (s.onMeas (fun m => { m with cals := inc32 m.cals, fails := if pass then m.fails else inc32 m.fails }))
  if pass then testStart (testAdd ⟨false, n, none⟩ s1) else readmitEnd 4 3 n false s1

/-! ### Rows, DRAM blocks, MRAM sectors -/

/-- A row of a DRAM device fails its boot test: the repair row of its bank group takes it, the pool's last one, or its block of 1 MiB is
bad. `channel` is 0 or 1. -/
def failDram (channel block cause : Nat) (s : State) : State :=
  let k := 2 * block + channel % 2
  if s.dev.state ≠ .boot ∨ s.spare.badBlocks.contains k then s
  else if Config.rowLeft 6 (k :: s.spare.ddrRows) 0 then
    spareEvent 0x02 .notice (resKey 6 0 block) [6] (spareEvent 0x01 .notice (resKey 6 0 block) [block, s.spare.ddrRows.length, cause]
      (s.onSpare (fun x => { x with ddrRows := x.ddrRows ++ [k] })))
  else
    let s1 := s.onSpare (fun x => { x with
      badBlocks := k :: x.badBlocks, badA := if channel = 0 then x.badA + 1 else x.badA, badB := if channel = 0 then x.badB else x.badB + 1 })
    capsUpdate (spareEvent 0x06 .notice block [channel] (lostNote 6 0 block block cause s1))

/-- MRAM contents that give way, one after another (Table 23.4). -/
def mramGives (s : State) : State :=
  let s1 := s.onSpare (fun x => { x with given := min (x.given + 1) 3 })
  match s.spare.given with
  | 0 => s1.onAie (fun e => { e with records := [] })
  | 1 => s1.onProt (fun p => { p with log := [] })
  | 2 => s1.onFault (fun f => { f with colCopy := none })
  | _ => s1

/-- Hours of operation of the SYS die. -/
def hoursNow (s : State) : Nat := (tget {} s.spare.thermal 0 : Thermal).ms / 3600000

/-- A sector fails: a spare sector takes its contents, or MRAM contents give way. -/
def failSector (n cause : Nat) (s : State) : State :=
  if resState s 7 0 n = 3 ∨ 4352 ≤ n then s
  else
    let l := resServes s 7 0 n
    let s1 := resUpd 7 0 n (fun r => { r with st := some 3, cause := cause }) s
    match l, sparesLeft s1 7 0 with
    | none, _ => s1
    | some k, sp :: _ =>
      let s2 := (resUpd 7 0 sp (fun r => { r with st := some 2 }) s1).onSpare (fun x => { x with sectors := tset x.sectors sp (k, hoursNow s) })
      capsUpdate (spareNote 7 0 k n sp cause s2)
    | some k, [] => capsUpdate (mramGives (lostNote 7 0 k n cause s1))

/-- A resource meets a failure condition (R579, R582, R584). -/
def resourceFail (kind die n cause : Nat) (s : State) : State :=
  match kind with
  | 1 => if ctlOk s (die - 1) ∧ 1 ≤ die ∧ n < 18 then failPooled 1 die n cause s else s
  | 2 => if ctlOk s (die - 1) ∧ 1 ≤ die ∧ n < 9 then failPooled 2 die n cause s else s
  | 3 => if 4 ≤ die ∧ dieOk s die then failPort die n cause s else s
  | 4 => if die = 3 ∧ resState s 4 3 n ≠ 3 ∧ resState s 4 3 n ≠ 4 then unitLost n cause cause s else s
  | 5 => countError 5 die n (cause != 1) (resUpd 5 die n (fun r => { r with cause := cause }) s)
  | 6 => failDram die n cause s
  | 7 => failSector n cause s
  | _ => s

/-- An error of a resource is counted; the resource fails where the count within the window is reached (R579). -/
def errorSeen (kind die n : Nat) (double : Bool) (s : State) : State :=
  let t := countError kind die n double s
  if errorsReach t kind die n double then resourceFail kind die n 1 t else t

end Sys2Proof.Machine
end

