-- ==== Sys2Proof/Machine/Meas.lean ====
section
/-! DEFINITION. The MEAS commands (Table 13.9) and the measurement units' own events (chapter 13). -/

namespace Sys2Proof.Machine

open Sys2Proof

/-- The MPR is there, and the logical unit named is not removed (R102, R363); a number beyond 3 is out of range. -/
def unitFit (s : State) (u : Nat) : Bool := mprOk s && (4 ≤ u || unitIn s u)

def execMeasChannelConfig (c : Cmd) (s : State) : Out :=
  let ch := c.u8 0
  let k : MChanCfg := { mChanShadow s ch with
    on := c.u8 1 == 1, unit := c.u8 2, pos := c.u8 3, gain := c.s32 4, offs := c.s32 8, pmin := c.u16 12, pmax := c.u16 14 }
  let g : Gate := {
    opcode := 0x0901, len := c.inl 16, fitted := unitFit s k.unit, legal := busyStates, roles := actStby, free := !setHeld s 5,
    par := ch < 64 && c.u8 1 < 2 && k.unit < 4 && k.pos < 16 && k.pmin ≤ k.pmax }
  runCmd g c s (fun s =>
    let s1 := stage 5 c.params (s.onMeas (fun m => { m with chanNew := tset m.chanNew ch k }))
    okReply s1 (le 1 ((List.range 64).filter (fun n => (mChanShadow s1 n).on)).length))

/-- Slots are channels below the length and 0xFF from it on. -/
def slotsFit (l : List Nat) (n : Nat) : Bool := (l.take n).all (· < 64) && (l.drop n).all (· == 255)

/-- ITRIG and ITIDX (Table 13.3). -/
def itrigOk (t i : Nat) : Bool :=
  match t with
  | 0 | 1 => i == 0
  | 2 | 3 => i < 8
  | 4 => i < 24
  | _ => false

def execMeasSequenceConfig (c : Cmd) (s : State) : Out :=
  let u := c.u8 0
  let first := u % 2 == 0
  let k0 : MSeqCfg := {
    rlen := c.u8 1, ilen := c.u8 2, itrig := c.u8 3, itidx := c.u8 4, lead := c.u16 6,
    rslots := (List.range 16).map (fun n => c.u8 (8 + n)), islots := (List.range 4).map (fun n => c.u8 (24 + n)) }
  let k : MSeqCfg := if first then { k0 with xsel := c.u8 28, xn := c.u8 29, xinv := c.u8 30 == 1, xtol := c.s32 32 } else k0
  let g : Gate := {
    opcode := 0x0902, len := c.inl 36, fitted := unitFit s u, legal := busyStates, roles := actStby, free := !setHeld s 5,
    par := u < 4 && k.rlen ≤ 16 && k.ilen ≤ 4 && itrigOk k.itrig k.itidx && k.lead ≤ 2000 && slotsFit k.rslots k.rlen &&
      slotsFit k.islots k.ilen && c.rsv 5 1 && c.rsv 31 1 &&
      (if first then (k.xsel < 24 || k.xsel == 255) && 1 ≤ k.xn && c.u8 30 < 2 && 0 ≤ k.xtol else c.rsv 28 8) }
  runCmd g c s (fun s =>
    okReply (stage 5 c.params (s.onMeas (fun m => { m with seqNew := tset m.seqNew u k })))
      (le 2 (k.rlen * 200) ++ le 2 (275 + 200 * k.ilen)))

def execMeasFilterConfig (c : Cmd) (s : State) : Out :=
  let ch := c.u8 0
  let k : MChanCfg := { mChanShadow s ch with
    l1 := c.u8 1, l2 := c.u8 2, l3 := c.u8 3, c := c.u8 4, reload := c.u8 5 == 1, step := c.s32 8 }
  let lOk := fun (l : Nat) => 1 ≤ l && l ≤ 64
  let g : Gate := {
    opcode := 0x0903, len := c.inl 12, fitted := mprOk s, legal := busyStates, roles := actStby, free := !setHeld s 5,
    par := ch < 64 && lOk k.l1 && lOk k.l2 && lOk k.l3 && (k.c == 1 || k.c == 2 || k.c == 4) && c.u8 5 < 2 && c.rsv 6 2 && 0 ≤ k.step }
  let sum := k.l1 + k.l2 + k.l3 - 3
  runCmd g c s (fun s =>
    okReply (stage 5 c.params (s.onMeas (fun m => { m with chanNew := tset m.chanNew ch k }))) (le 2 sum ++ le 2 (sum + 1)))

/-- REF_SETTLED falls: contained fault, every channel invalid, calibrations and tests abandoned (R351, Table 13.6). -/
def refFall (s : State) : State :=
  let s1 := (keepOutputs s).onMeas (fun m => { m with
    settled := false, inCnt := 0, outCnt := 0, testOn := false, covers := none, spareRun := false, calQ := [], settleQ := [],
    units := m.units.map (fun e => (e.1, { e.2 with cal := none, calReq := none })) })
  measEvent 0x01 .contained 0 [s.meas.refsel, 0] s1

def execMeasRefSelect (c : Cmd) (s : State) : Out :=
  let r := c.u8 0
  let v := c.u32 4
  let g : Gate := {
    opcode := 0x0904, len := c.inl 12, fitted := mprOk s, legal := inStates [.config, .standby, .blockedFault], roles := actStby,
    pends := r != s.meas.refsel, free := !held s .reference && !(List.range 5).any (fun u => held s (.measUnit u)),
    par := r < 3 && c.rsv 1 3 && (if r = 1 then 2000000 ≤ v && v ≤ 3000000 else v == 0) && c.u16 8 ≤ 3600 && c.u16 10 ≤ 60000 }
  runCmd g c s (fun s =>
    let s1 := s.onMeas (fun m => { m with calPer := c.u16 8, diagPer := c.u16 10 })
    if r = s.meas.refsel then okReply s1 (le 1 (refByte s1) ++ le 1 0)
    else
      let s2 := (when s.meas.settled refFall s1).onMeas (fun m => { m with refsel := r, vext := v, settled := false, inCnt := 0, outCnt := 0 })
      let own := fun (p : PendingCmd) => p.opcode == 0x0904 && p.mb == c.mb.val && p.seq == c.seq.toNat
      ⟨tookPending own (goPending g c (.reference :: (List.range 5).map .measUnit) 0 none s2), .pending, [], false⟩)

def execMeasCalibrate (c : Cmd) (s : State) : Out :=
  let m := c.u8 0
  let us := (List.range 5).filter (bit m)
  let spareThere := s.meas.spareFor.isNone && !s.meas.spareBad
  let g : Gate := {
    opcode := 0x0905, len := c.inl 4, fitted := mprOk s && us.all (fun u => if u = 4 then spareThere else unitIn s u),
    legal := notBoot, roles := actStby, free := us.all (fun u => !held s (.measUnit u)),
    par := 0 < m && m < 32 && c.u8 1 < 2 && c.rsv 2 2 }
  runCmd g c s (fun s =>
    if !s.meas.settled then ⟨s, .conflict, [], false⟩
    else
      let s1 := s.onMeas (fun x => { x with jobs := x.jobs ++ [⟨m, c.u8 1 == 1, us, 0, 0, []⟩] })
      let s2 := us.foldl (fun t u => calAsk u (c.u8 1 == 1) t) s1
      ⟨goPending g c (us.map .measUnit) m none s2, .pending, [], true⟩)

def execMeasDiagRun (c : Cmd) (s : State) : Out :=
  let k := c.u8 0
  let o := c.u8 1
  let g : Gate := {
    opcode := 0x0906, len := c.inl 4, legal := notBoot, roles := actStby, pends := !s.meas.tests.isEmpty, free := !held s .dac,
    fitted := mprOk s && (if k = 0 then 5 ≤ o || (if o = 4 then s.meas.spareFor.isNone && !s.meas.spareBad else unitIn s o)
      else 64 ≤ o || !(mChan s o).on || unitIn s (mChan s o).unit),
    par := k < 2 && (if k = 0 then o < 5 else o < 64) && c.rsv 2 2 }
  runCmd g c s (fun s =>
    let cfg := mChan s o
    let q := mSeq s cfg.unit
    if k = 1 ∧ (!cfg.on ∨ 12 ≤ cfg.pos ∨ !(q.rslots.take q.rlen).contains o) then ⟨s, .conflict, [], false⟩
    else
      ⟨goPending g c [.dac] (k * 256 + o) none (testAdd ⟨k == 1, o, none⟩ s), .pending, [], s.meas.tests.isEmpty⟩)

/-- The physical unit that converts for a logical one now: the spare while it covers a calibration (R353). -/
def physNow (s : State) (u : Nat) : Nat := if (unitGet s u).cal == some true then 4 else physOf s u

/-- One entry of Table 13.11. -/
def chanEntry (s : State) (ch : Nat) : Bytes :=
  let cfg := mChan s ch
  let x := tget {} s.meas.set ch
  le 1 ch ++ le 1 x.flags.toNat ++ le 1 (if cfg.on && unitIn s cfg.unit then physNow s cfg.unit else 0xFF) ++ le 1 cfg.pos ++
    leS 4 x.fine ++ leS 4 x.coarse ++ le 2 x.age ++ le 2 (mGet s ch).count

def execMeasStatus (c : Cmd) (s : State) : Out :=
  let a := c.u64 4
  let g : Gate := {
    opcode := 0x0907, len := c.inl 12, fitted := mprOk s, legal := notBoot, par := c.u8 0 < 2 && c.rsv 1 3 && a % 64 == 0 }
  runCmd g c s (fun s =>
    let m := s.meas
    let us := maskOf ((List.range 4).filter (unitIn s)) + 16 * b2n (spareIdle s) + 32 * b2n m.spareFor.isSome + 64 * b2n m.spareBad
    let x := b2n (crossPair s 0).isSome + 2 * b2n (crossPair s 1).isSome + 4 * b2n (mPair s 0).mis + 8 * b2n (mPair s 1).mis +
      16 * b2n (mPair s 0).unres + 32 * b2n (mPair s 1).unres
    let r := le 1 (refByte s) ++ le 1 us ++ le 1 (m.spareFor.getD 0xFF) ++ le 1 x ++
      le 1 (maskOf ((List.range 4).filter (fun u => (unitGet s u).overrun))) ++
      le 1 (maskOf ((List.range 4).filter (fun u => (unitGet s u).lateS))) ++ le 2 0 ++
      le 8 (maskOf ((List.range 64).filter (fun n => ((tget {} m.set n : MSetChan).flags).getLsbD 0))) ++ le 4 m.cals ++ le 4 m.fails ++
      le 4 m.setTick
    let s1 := if a = 0 then s else putBuf a (withCrc ((List.range 64).flatMap (chanEntry s))) s
    okReply (if c.u8 0 = 1 then (List.range 4).foldl (fun t u => unitUpd u (fun y => { y with overrun := false, lateS := false }) t) s1
      else s1) r)

/-! ### Events of the measurement units -/

/-- An injected trigger arrives at its unit (R342, R354). -/
def trigger (unit : Nat) (s : State) : State :=
  let x := unitGet s unit
  if x.calReq = some false ∨ x.cal = some false then
    if x.heldT then noteOverrun unit s else unitUpd unit (fun y => { y with heldT := true }) s
  else if x.pending then noteOverrun unit s
  else unitUpd unit (fun y => { y with pending := true }) s

/-- The handshake of a unit's trigger crossing closes, and the triggers that waited reach the unit (R568). -/
def triggersCross (unit : Nat) (s : State) : State :=
  (cdcGet s 3 5 unit).waiting.foldl (fun t _ => trigger unit t) (cdcUpd 3 5 unit (fun y => y.settle.close) s)

/-- A conversion of a logical unit completes: its code, and its sampling instant in units of 12.5 ns (R337 to R349). -/
def execAdcConversionComplete (unit : Nat) (code : Int) (at_ : Nat) (s : State) : Out :=
  let x := unitGet s unit
  if !mprOk s ∨ !unitIn s unit ∨ x.cal = some false then .next s
  else .next (nextConv unit (convResult unit code at_ (if (cdcGet s 3 5 unit).stalled then s else triggersCross unit s)))

/-- An injected trigger of a unit. One lost at the crossing never reaches the unit (R341, R568, R569). -/
def execInjectedTrigger (trig : InjTrigger) (s : State) : Out :=
  let u := trig.unit
  if !mprOk s ∨ !unitIn s u ∨ (mSeq s u).itrig = 0 then .next s
  else
    let s1 := if trig.busy then s else triggersCross u s
    let idle := !(cdcGet s1 3 5 u).isOpen
    let s2 := cdcUpd 3 5 u (fun x => (x.occur (cMax 5) []).capture) s1
    .next (if idle then trigger u s2 else s2)

/-- One channel into the set; while invalid its outputs hold their last valid values (R343, R345). -/
def latchChan (at_ : Nat) (s : State) (c : Nat) : MSetChan :=
  let m := mGet s c
  let o := chanOut s c
  { fine := o.1, coarse := o.2, flags := chanFlags s c, age := if m.sampled then min (at_ - m.at_) 65535 else 65535 }

/-- One comparison of an active cross-check (R360, R361). A mismatch does not stop the comparisons that end it, though XINV makes both
channels invalid; it ends without an event where the check becomes inactive (DEDUCED, assumption 151). -/
def crossCheck (p : Nat) (s : State) : State :=
  match crossPair s p with
  | none => if (mPair s p).mis then mPairUpd p (fun _ => {}) s else s
  | some (a, b) =>
    let q := mSeq s (2 * p)
    let x := mGet s a
    let y := mGet s b
    if !chanSound s a ∨ !chanSound s b ∨ x.filling ∨ y.filling ∨ !x.fresh ∨ !y.fresh then s
    else
      let d := x.fine - y.fine
      let big := decide (q.xtol < (d.natAbs : Int))
      let st := mPair s p
      let excess := if big then st.excess + 1 else 0
      let under := if big then 0 else st.under + 1
      let s1 := mPairUpd p (fun z => { z with excess := excess, under := under }) s
      if !st.mis ∧ q.xn ≤ excess then
        let s2 := measEvent 0x06 .notice 0 [p, word32 d] (mPairUpd p (fun z => { z with mis := true, passed := 0, unres := false }) (keepOutputs s1))
        testAdd ⟨false, 2 * p + 1, some p⟩ (testAdd ⟨false, 2 * p, some p⟩ s2)
      else if st.mis ∧ q.xn ≤ under then
        measEvent 0x07 .notice 0 [p, word32 d] (mPairUpd p (fun z => { z with mis := false, unres := false }) s1)
      else s1

/-- The sample instant of the tick that opens next, 200 ns before its boundary: cross-checks, and the measurement set is latched; `at_` is
that instant in units of 12.5 ns (R343, R360). -/
def execMeasurementSetLatch (at_ : Nat) (s : State) : Out :=
  if !mprOk s then .next s
  else
    let s1 := crossCheck 1 (crossCheck 0 s)
    let cs := (List.range 64).filter (fun c => thas s1.meas.chan c || thas s1.meas.set c)
    let set := cs.map (fun c => (c, latchChan at_ s1 c))
    let k := s1.tick.index + 1
    let msg := XlMsg.mset k (set.map (fun e => { ch := e.1, fine := e.2.fine, coarse := e.2.coarse, flags := e.2.flags, age := e.2.age }))
    .next (when (workRole s == .active) (xlSend msg) <| s1.onMeas (fun m => { m with
      set := set, setTick := k, chans := m.chans.map (fun e => (e.1, { e.2 with fresh := false, stepSet := false })) }))

/-- The 1 µs check of the reference against its windows (R351). -/
def execRefMonitorCheck (inSettle inHold : Bool) (s : State) : Out :=
  if !mprOk s then .next s
  else
    let i := if inSettle then s.meas.inCnt + 1 else 0
    let o := if inHold then 0 else s.meas.outCnt + 1
    let s1 := s.onMeas (fun m => { m with inCnt := i, outCnt := o })
    if s.meas.settled then (if 10 ≤ o then .next (refFall s1) else .next s1)
    else if i < 1000 then .next s1
    else
      let us := calUnits s1
      let s2 := measEvent 0x01 .notice 0 [s1.meas.refsel, 1] (s1.onMeas (fun m => { m with settled := true, settleQ := us, settleM := 0 }))
      let s3 := us.foldl (fun t u => calStart u false t) s2
      .next (if us.isEmpty then settleEnd s3 else s3)

/-- A calibration ends: its offset in 1/16 code and its gain error in ppm; it fails beyond ±64 codes or ±1 % (R352). -/
def execCalibrationComplete (unit : Nat) (offset gain : Int) (s : State) : Out :=
  let x := unitGet s unit
  if testing s 4 3 unit then .next (readmitCal unit offset gain s)
  else
  let on := if unit = 4 then s.meas.spareRun else (x.cal.isSome || x.calReq.isSome) && !(x.cal == some true && x.calReq == some true)
  if !mprOk s ∨ !on then .next s
  else
    let pass := offset.natAbs ≤ 1024 && gain.natAbs ≤ 10000
    let covered := unit != 4 && (x.cal == some true || (x.cal.isNone && x.calReq == some true))
    let phys := if unit = 4 then 4 else physOf s unit
    let s1 := measEvent 0x03 .notice phys [b2n pass, word32 offset, word32 gain, b2n covered]
      (s.onMeas (fun m => { m with cals := inc32 m.cals, fails := if pass then m.fails else inc32 m.fails }))
    let s2 :=
      if unit = 4 then s1.onMeas (fun m => { m with spareRun := false, spareCal := pass })
      else
        let y := (unitUpd unit (fun z =>
          if x.cal = some true then { z with calReq := some true } else { z with cal := none, calReq := none }) s1).onMeas (fun m => { m with
          covers := if covered && x.cal.isNone then none else m.covers })
        if x.cal = some false ∧ pass then convResume unit y else y
    let mine := fun (j : CalJob) => j.left.contains unit && !s.meas.settleQ.contains unit
    let s3 := s2.onMeas (fun m => { m with
      jobs := m.jobs.map (fun j => if !mine j then j else { j with
        left := j.left.filter (· != unit), pass := if pass then j.pass ||| (1 <<< unit) else j.pass,
        covered := if covered then j.covered ||| (1 <<< unit) else j.covered, res := tset j.res unit (offset, gain) }),
      settleM := if m.settleQ.contains unit then m.settleM ||| (1 <<< unit) else m.settleM })
    let s4 := calNext (settleLeave unit (jobsEnd s3))
    .next (testStart (when (!pass) (unitLost unit 1 0) s4))

/-- A unit's turn in the automatic calibration (R355). -/
def execAutoCalibration (s : State) : Out :=
  let u := s.meas.calTurn
  if !mprOk s ∨ s.meas.calPer = 0 then .next s
  else
    let s1 := s.onMeas (fun m => { m with calTurn := (u + 1) % 5 })
    if u = 4 then (if (calUnits s).contains 4 ∧ s.meas.covers.isNone ∧ !s.meas.spareRun then .next (calStart 4 false s1) else .next s1)
    else if !unitIn s u ∨ !s.meas.settled ∨ (unitGet s u).cal.isSome ∨ (unitGet s u).calReq.isSome then .next s1
    else if s.meas.spareFor.isSome ∧ running s then .next (measEvent 0x04 .notice u [] s1)
    else .next (calAsk u false s1)

/-- A test of the DAC ends: what the command that asked for it is told. -/
def testFinal (t : DacTest) (pass : Bool) (m1 m3 : Int) (s : State) : State :=
  endPending (fun p => p.opcode == 0x0906 && p.arg == b2n t.path * 256 + t.obj) .ok
    (le 1 (b2n pass) ++ le 1 0 ++ leS 2 m1 ++ leS 2 m3 ++ leS 2 (m3 - m1)) s

/-- A level test ends with its mean codes at 1,024 and 3,072 counts (R357, R361). -/
def execLevelTestComplete (m1 m3 : Int) (s : State) : Out :=
  match s.meas.tests with
  | t :: _ =>
    if !s.meas.testOn ∨ t.path then .next s
    else
      let pass := (m1 - 8192).natAbs ≤ 66 && (m3 - 24576).natAbs ≤ 66
      let s1 := when (!pass) (fun u => measEvent 0x05 .notice t.obj [0, word32 m1, word32 m3]
        (u.onMeas (fun m => { m with fails := inc32 m.fails }))) s
      let s2 := match t.cross with
        | some p =>
          let n := (mPair s1 p).passed + 1
          if !pass then s1
          else
            let s3 := mPairUpd p (fun z => { z with passed := n, unres := z.unres || 2 ≤ n }) s1
            if n = 2 then measEvent 0x08 .contained 0 [p] s3 else s3
        | none => testFinal t pass m1 m3 s1
      let s3 := testPop s2
      .next (if testing s 4 3 t.obj then readmitEnd 4 3 t.obj pass s3 else when (!pass) (unitLost t.obj 2 0) s3)
  | [] => .next s

/-- The diagnostic period starts a level test on the next unit (R359). -/
def execAutoLevelTest (s : State) : Out :=
  let u := s.meas.diagTurn
  if !mprOk s ∨ s.meas.diagPer = 0 then .next s
  else
    let s1 := s.onMeas (fun m => { m with diagTurn := (u + 1) % 5 })
    let there := if u = 4 then s.meas.spareFor.isNone && !s.meas.spareBad && s.meas.covers.isNone else unitIn s u
    if there then .next (testAdd ⟨false, u, none⟩ s1) else .next s1

/-- A path test ends: D must lie within PMIN to PMAX (R358). -/
def execPathTestComplete (m1 m3 : Int) (s : State) : Out :=
  match s.meas.tests with
  | t :: _ =>
    if !s.meas.testOn ∨ !t.path then .next s
    else
      let cfg := mChan s t.obj
      let d := m3 - m1
      let pass := decide ((cfg.pmin : Int) ≤ d) && decide (d ≤ cfg.pmax)
      let s1 := when (!pass) (measEvent 0x05 .notice t.obj [1, word32 d]) s
      .next (testPop (testFinal t pass m1 m3 s1))
  | [] => .next s

/-- A unit fails its checks for a cause beside those of its calibrations and level tests, at whose end they take effect (R362, R363, R579). -/
def execUnitFail (unit cause : Nat) (s : State) : Out := .next (unitLost unit cause 0 s)

/-- REF_SETTLED has not risen 10 ms after a change of reference (R368). -/
def execRefSelectTimeout (s : State) : Out :=
  if s.meas.settled then .next s else .next (endPending (fun p => p.opcode == 0x0904) .timeout [] s)

end Sys2Proof.Machine
end

