-- ==== Sys2Proof/Machine/Net.lean ====
section
/-! DEFINITION. The NET commands (Table 17.12), TIME_PTP_CONFIG, and the events of the Ethernet ports, the PTP instances and
the DMA streams (chapters 16 and 17). -/

namespace Sys2Proof.Machine

open Sys2Proof

/-! ### PTP (R429) -/

/-- A port changes between up and down (R442). -/
def linkChange (p : Nat) (up : Bool) (s : State) : State :=
  if up = portUp s p then s
  else
    let s1 := s.onNet (fun x => { x with up := if up then p :: x.up else x.up.filter (· != p) })
    netEvent 0x01 p [b2n up] (ptpUpd p (fun q => { q with state := if up && q.on then 1 else 0 }) s1)

def execTimePtpConfig (c : Cmd) (s : State) : Out :=
  let p := c.u8 0
  let f := c.u8 1
  let g : Gate := {
    opcode := 0x0C03, len := c.inl 12, legal := notBoot,
    par := p < 4 && f < 8 && 1 ≤ c.u16 6 && c.u16 6 ≤ 4094 && c.u8 8 < 8 && c.rsv 9 3 }
  runCmd g c s (fun s =>
    if !(ethCfg s p).on then ⟨s, .conflict, [], false⟩
    else
      let old := ptpGet s p
      let on := bit f 0
      let st := if !on || !portUp s p then 0 else if old.on then old.state else 1
      let s1 := ptpUpd p (fun q => { q with
        on := on, twoStep := bit f 1, vlan := bit f 2, domain := c.u8 2, prio1 := c.u8 3, prio2 := c.u8 4, tsrc := c.u8 5, vid := c.u16 6,
        pcp := c.u8 8, state := st }) s
      okReply s1 (le 1 st))

/-- A master sends Sync, and Announce unless station time is UNSET (Tables 16.4 and 16.6). -/
def execPtpSyncSend (port : Fin 4) (s : State) : Out :=
  let q := ptpGet s port
  if q.state ≠ 2 then .next s
  else
    let t := s.time
    let ann : List PtpTx := if timeUnset s then [] else [.announce (clockId s port) t.qual.clockClass (tmqCode s) q.prio1 q.prio2 q.tsrc
      (if t.utcValid then t.taiUtc else 0) t.utcValid (t.leap.any (fun l => 0 < l.1)) (t.leap.any (fun l => l.1 < 0))]
    .next (ptpUpd port (fun x => { x with sent := ann ++ [.sync (stationNow s) x.twoStep] }) s)

/-- TIME_PTP_PASSIVE (Table 16.7a). -/
def ptpPassive (port id : Nat) (s : State) : State := raise 0 0x010 0x05 .notice port [id % 2 ^ 32, id / 2 ^ 32] s

def execPtpMessageReceive (port : Fin 4) (msg : PtpIn) (s : State) : Out :=
  let q := ptpGet s port
  if q.state = 0 ∨ !portUp s port then .next s
  else
    match msg with
    | .pdelayReq => .next (ptpUpd port (fun x => { x with sent := .pdelayResp :: x.sent.take 1 }) s)
    | .announce d better id =>
      if d ≠ q.domain ∨ !better ∨ followsTime s then .next s
      else
        let s1 := ptpUpd port (fun x => { x with state := 3, better := id.toNat }) s
        .next (when (q.state != 3) (ptpPassive port id.toNat) s1)

def execPtpAnnounceTimeout (port : Fin 4) (s : State) : Out :=
  let q := ptpGet s port
  if q.state = 3 then .next (ptpPassive port q.better (ptpUpd port (fun x => { x with state := 2 }) s))
  else if q.state = 1 ∧ !followsTime s then .next (ptpUpd port (fun x => { x with state := 2 }) s)
  else .next s

/-! ### NET commands -/

def execNetPortConfig (c : Cmd) (s : State) : Out :=
  let p := c.u8 0
  let f := c.u8 1
  let m := beVal ((c.params.drop 2).take 6)
  let g : Gate := { opcode := 0x0D01, len := c.inl 8, legal := notBoot, par := p < 4 && f < 8 && !multicast m }
  runCmd g c s (fun s =>
    if !bit f 0 && (ptpGet s p).on then ⟨s, .conflict, [], false⟩
    else
      let s1 := s.onNet (fun x => { x with eth := tset x.eth p ⟨bit f 0, bit f 1, bit f 2, m⟩ })
      let s2 := if bit f 0 then s1 else linkChange p false s1
      okReply s2 (le 1 (b2n (portUp s2 p)) ++ macBytes (macOf s2 p)))

/-- An entry of a publication is of Table 17.4. -/
def pubEntryOk (e : Nat) : Bool :=
  let i := entryIx e
  e / 65536 % 256 == 0 &&
  (match entryKind e with
    | 1 => i < 16
    | 2 => i < 96
    | 3 => i < 96
    | 4 => i == 0
    | 5 => i == 0
    | 6 => i < 12
    | 7 => i < 4
    | 8 => i < 512
    | 9 => i == 0
    | _ => false)

/-- An entry names a unit that is there. -/
def pubEntryFit (s : State) (e : Nat) : Bool :=
  match entryKind e with
  | 1 | 2 | 3 => mprOk s
  | 6 => armOk s (entryIx e)
  | 7 => anyCtl s
  | 8 => ctlOk s (entryIx e / 256)
  | _ => true

def execNetGooseConfig (c : Cmd) (s : State) : Out :=
  let kind := c.u8 0
  let i := c.u16 2
  let f := c.u8 4
  let es := (List.range 24).map (fun n => c.u32 (224 + 4 * n))
  let used := es.takeWhile (· != 0)
  let dmac := beVal ((c.params.drop 16).take 6)
  let names := (c.params.drop 32).take 192
  let ident := f < 64 && c.rsv 5 3 && c.u16 8 ≤ 0x3FFF && multicast dmac && c.rsv 10 4 && c.rsv 22 2
  let par : Bool :=
    match kind with
    | 0 => i < 64 && ident && 1 ≤ c.u16 14 && c.u16 14 ≤ 10000 && asciiOk names && c.rsv 224 96
    | 1 => 128 ≤ i && i < 192 && f < 64 && c.u8 5 < 128 && c.u8 6 < 4 && c.rsv 7 1 && 1 ≤ c.u32 8 && c.u32 8 < 2 ^ 31 && c.rsv 12 308
    | 2 => i < 16 && ident && asciiOk names && 1 ≤ c.u16 28 && c.u16 28 ≤ 1000 && c.u16 28 ≤ c.u16 30 && c.u16 30 ≤ 60000 && used.all pubEntryOk
    | _ => false
  let g : Gate := {
    opcode := 0x0D02, len := c.extLen (· == 320), legal := notBoot, roles := actStby, free := !setHeld s 8, par := par && c.rsv 1 1 }
  runCmd g c s (fun s =>
    let ports := f / 4 % 16
    let safe := kind != 1 && safeNames s (kind == 2) i
    let bad : Bool :=
      (kind == 1 && !(subShadow s f).on) || (kind == 2 && used.any (fun e => !pubEntryFit s e)) ||
        (safe && (ports != 3 || (kind == 2 && !used.isEmpty)))
    if bad then ⟨s, .conflict, [], false⟩
    else
      let s1 := stage 8 c.params (s.onNet (fun x =>
        match kind with
        | 0 => { x with subNew := tset x.subNew i ⟨bit f 0, bit f 1, ports, c.u16 8, dmac, c.u32 24, c.u16 14, names⟩ }
        | 1 => { x with mapNew := tset x.mapNew i ⟨bit (c.u8 6) 0, bit (c.u8 6) 1, f, c.u8 5, c.u32 8⟩ }
        | _ => { x with pubNew := tset x.pubNew i ⟨bit f 0, ports, c.u16 8, dmac, c.u32 24, c.u16 28, c.u16 30, names, es⟩ }))
      let n := match kind with
        | 0 => ((List.range 64).filter (fun k => (subShadow s1 k).on)).length
        | 1 => ((List.range 64).filter (fun k => (mapShadow s1 (128 + k)).on)).length
        | _ => ((List.range 16).filter (fun k => (pubShadow s1 k).on)).length
      okReply s1 (le 2 n))

/-- The length of a zero-padded name. -/
def nameLen (p : Bytes) : Nat := (p.takeWhile (· != 0)).length

def execNetSvConfig (c : Cmd) (s : State) : Out :=
  let kind := c.u8 0
  let st := c.u8 1
  let f := c.u8 2
  let i := c.u16 2
  let dmac := beVal ((c.params.drop 6).take 6)
  let svid := (c.params.drop 28).take 64
  let k : SvCfg := {
    on := bit f 0, port2 := bit f 1, port3 := bit f 2, test := bit f 3, localOk := bit f 4, misInv := bit f 5, nasdu := c.u8 3,
    nval := c.u8 20, appid := c.u16 4, dmac := dmac, confRev := c.u32 12, rate := c.u32 16, miss := c.u8 21, dupWin := c.u16 22,
    svid := svid }
  let par : Bool :=
    match kind with
    | 0 => st < 16 && f < 64 && (k.port2 || k.port3) && 1 ≤ k.nasdu && k.nasdu ≤ 8 && 1 ≤ k.nval && k.nval ≤ 16 && 0x4000 ≤ k.appid &&
        k.appid ≤ 0x7FFF && multicast dmac && 4000 ≤ k.rate && k.rate ≤ 96000 && 1 ≤ k.miss && k.miss ≤ 16 && 1 ≤ k.dupWin &&
        k.dupWin ≤ 10000 && asciiOk svid && c.rsv 24 4 && c.rsv 92 36 && k.nasdu * k.nval * 8 + Config.svOverhead k.nasdu (nameLen svid) ≤ 1522
    | 1 => i < 128 && c.u8 4 < 16 && c.u8 5 < (svShadow s (c.u8 4)).nval && c.u8 6 < 4 && 1 ≤ c.u32 8 && c.u32 8 < 2 ^ 31 && c.rsv 1 1 &&
        c.rsv 7 1 && c.rsv 12 116
    | _ => false
  let g : Gate := {
    opcode := 0x0D03, len := c.extLen (· == 128), legal := notBoot, roles := actStby, free := !setHeld s 8, par := par }
  runCmd g c s (fun s =>
    if kind = 1 ∧ !(svShadow s (c.u8 4)).on then ⟨s, .conflict, [], false⟩
    else
      let s1 := stage 8 c.params (s.onNet (fun x =>
        if kind = 0 then { x with svNew := tset x.svNew st k }
        else { x with mapNew := tset x.mapNew i ⟨bit (c.u8 6) 0, bit (c.u8 6) 1, c.u8 4, c.u8 5, c.u32 8⟩ }))
      let n := if kind = 0 then ((List.range 16).filter (fun m => (svShadow s1 m).on)).length
        else ((List.range 128).filter (fun m => (mapShadow s1 m).on)).length
      okReply s1 (le 2 n))

/-- SEL names units that are there (R463). -/
def dmaFit (s : State) (d : DmaStream) : Bool :=
  match d.kind with
  | 1 => (dmaPick d).all (fun l => ctlOk s (l % 512 / 256))
  | 2 => mprOk s
  | 4 => armOk s (rd d.sel 0 1)
  | _ => true

def execNetDmaStreamConfig (c : Cmd) (s : State) : Out :=
  let n := c.u8 0
  let sel := (c.params.drop 28).take 20
  let d : DmaStream := {
    on := bit (c.u8 1) 0, irq := bit (c.u8 1) 1, kind := c.u8 2, d := c.u16 4, base := c.u64 8, nrec := c.u32 16, tail := c.u64 20,
    sel := sel }
  let g : Gate := {
    opcode := 0x0D04, len := c.inl 48, fitted := 5 ≤ d.kind || (d.kind == 4 && 12 ≤ rd sel 0 1) || dmaFit s d, legal := notBoot,
    par := n < 16 && c.u8 1 < 4 && d.kind < 5 && 1 ≤ d.d && d.base % 4096 == 0 && 16 ≤ d.nrec && d.nrec ≤ 2 ^ 24 && d.tail % 8 == 0 &&
      c.rsv 3 1 && c.rsv 6 2 && (d.kind != 0 || c.rsv 28 20) && (d.kind != 2 || c.rsv 36 12) &&
      (d.kind != 4 || (rd sel 0 1 < 12 && c.rsv 29 19)) }
  runCmd g c s (fun s =>
    let o := dmaGet s n
    let same := o.kind == d.kind && o.d == d.d && o.base == d.base && o.nrec == d.nrec && o.tail == d.tail && o.sel == d.sel
    if o.on && !same then ⟨s, .conflict, [], false⟩
    else
      let r : DmaStream :=
        if o.on && d.on then { o with irq := d.irq }
        else { d with drops := o.drops, winDrop := o.winDrop, queue := if same then o.queue else [] }
      let ring := dmaSize d * d.nrec
      okReply (dmaUpd n (fun _ => r) s) (le 4 (dmaSize d) ++ le 4 (if ring < 2 ^ 32 then ring else Config.openCode 0x0D04 ring)))

def execNetStatus (c : Cmd) (s : State) : Out :=
  let a := c.u64 4
  let g : Gate := { opcode := 0x0D05, len := c.inl 12, legal := notBoot, par := c.rsv 0 4 && a % 64 == 0 }
  runCmd g c s (fun s =>
    let x := s.net
    let r := le 1 (maskOf ((List.range 4).filter (portUp s))) ++ le 2 (maskOf ((List.range 16).filter (streamOk s))) ++ le 1 0 ++
      le 8 (maskOf ((List.range 64).filter (fun n => (subCfg s n).on && !(subGet s n).stale))) ++ le 4 x.foreign ++ le 4 x.safeOff ++
      le 4 x.dmaDrops ++ le 4 s.tick.index
    let sv := (List.range 16).flatMap (fun n =>
      let v := svGet s n
      le 4 v.accepted ++ le 4 v.gaps ++ le 4 v.late ++ le 4 v.compared ++ le 4 v.different ++ le 4 v.episodes ++ le 4 v.age ++ le 4 0)
    let gs := (List.range 64).flatMap (fun n =>
      let v := subGet s n
      le 4 (v.stNum.getD 0) ++ le 4 v.sqNum ++ le 4 v.episodes ++ le 4 v.discarded)
    okReply (if a = 0 then s else putBuf a (withCrc (sv ++ gs)) s) r)

/-! ### Events of the ports -/

def execEthLinkChange (port : Fin 4) (up : Bool) (s : State) : Out :=
  let s1 := if up then s.onPower (fun p => { p with refLost := p.refLost.filter (· != 2) }) else s
  .next (linkChange port (up && (ethCfg s port).on) s1)

def execForeignFrameReceive (port : Fin 4) (s : State) : Out :=
  if portUp s port then .next (s.onNet (fun x => { x with foreign := inc32 x.foreign })) else .next s

/-- A sampled-value frame (R444 to R447). With `behind` the handshakes of its ASDUs stand open at the next
input crossing, which then takes the first of several (R565, R574). -/
def execSvFrameReceive (port : Fin 4) (frame : SvFrame) (time : SvAt) (s : State) : Out :=
  if !portUp s port ∨ !frame.good then .next s
  else if port.val < 2 then .next (s.onNet (fun x => { x with foreign := inc32 x.foreign }))
  else
    let hit := (List.range 16).filter (fun n =>
      let c := svCfg s n
      c.on && (if port.val = 2 then c.port2 else c.port3) && c.dmac == frame.dmac && c.appid == frame.appid && c.svid == fit 64 frame.svid &&
        c.confRev == frame.confRev && c.nasdu == frame.asdus.length && frame.asdus.all (fun a => a.vals.length == c.nval))
    let s1 := hit.foldl (fun t n => frame.asdus.foldl (fun u a => takeAsdu port n a time.now u) t) s
    .next (if time.behind then s1 else mapsSettle true s1)

def execSvStreamMiss (stream : Fin 16) (s : State) : Out :=
  if !(svCfg s stream).on ∨ (svGet s stream).last.isNone then .next s
  else .next (streamNote stream 1 (svUpd stream (fun x => { x with missed := true }) s))

/-- A copy of a safe message waits for its partner, behind the copies that came before (R454). -/
def safeCopy (port sub : Nat) (data : List GMember) (s : State) : State :=
  match data with
  | [.octets p] =>
    (safeConns s sub).foldl (fun t r => t.onNet (fun x => { x with
      copies := tupd [] x.copies r (fun l => l ++ [⟨port, p⟩]) })) s
  | _ => s

/-- Members of a dataset that mappings take, with the qualities behind them (R447, R451). -/
def goosePlaces (s : State) (n : Nat) : List Nat :=
  (s.net.map.filter (fun e => 128 ≤ e.1 && e.2.on && e.2.src == n)).flatMap (fun e => [e.2.pos, e.2.pos + 1])

/-- A GOOSE frame at one subscription it matches (R449, R450). -/
def takeGoose (port n : Nat) (f : GooseFrame) (now : Nat) (s : State) : State :=
  let c := subCfg s n
  let r := subGet s n
  if f.ndsCom ∨ (f.test ∧ !c.test) ∨ r.stNum.any (fun k => f.stNum < k) then s
  else
    let s0 := if port < 2 then safeCopy port n f.data s else s
    if r.stNum = some f.stNum ∧ f.sqNum ≤ r.sqNum then
      let s1 := subUpd n (fun x => { x with discarded := inc32 x.discarded }) s0
      if r.sqNum = f.sqNum ∧ r.port ≠ port ∧ now ≤ r.at_ + c.dupWin then
        let same := (goosePlaces s n).all (fun p => f.data[p]? == r.data[p]?)
        let d := if same then 0 else r.differ + 1
        let a := if same then r.agree + 1 else 0
        let start := !r.mismatch && 4 ≤ d
        let stop := r.mismatch && 16 ≤ a
        when (start || stop) (netEvent 0x03 (16 + n) [])
          (subUpd n (fun x => { x with differ := d, agree := a, mismatch := (x.mismatch || start) && !stop }) s1)
      else s1
    else
      let s1 := subUpd n (fun x => { x with
        stNum := some f.stNum, sqNum := f.sqNum, port := port, at_ := now, stale := false, data := f.data }) s0
      when (r.stale && r.stNum.isSome) (netEvent 0x04 n []) s1

def execGooseFrameReceive (port : Fin 4) (frame : GooseFrame) (now : Nat) (s : State) : Out :=
  if !portUp s port ∨ !frame.good then .next s
  else
    let hit := (List.range 64).filter (fun n =>
      let c := subCfg s n
      c.on && bit c.ports port && c.dmac == frame.dmac && c.appid == frame.appid && c.names == fit 192 frame.names &&
        c.confRev == frame.confRev)
    .next (hit.foldl (fun t n => takeGoose port n frame now t) s)

def execGooseStale (sub : Fin 64) (s : State) : Out :=
  if !(subCfg s sub).on ∨ (subGet s sub).stale then .next s
  else .next (netEvent 0x04 sub [] (subUpd sub (fun x => { x with stale := true, episodes := inc32 x.episodes }) s))

/-- A publication is sampled: a change starts a new stNum (R452). One that carries a safety PDU is sent by the safety core. -/
def pubSample (n : Nat) (s : State) : State :=
  let c := pubCfg s n
  let v := (pubEntries c).map (entryValue s)
  let r := pubGet s n
  if !c.on ∨ safeNames s true n ∨ (r.sent ∧ r.vals = v) then s
  else pubUpd n (fun x => { x with
    stNum := x.stNum + 1, sqNum := 0, vals := v, sent := true, tries := 0, next := c.tmin, ttl := 2 * c.tmin }) s

def execGoosePublishSample (s : State) : Out := .next ((List.range 16).foldl (fun t n => pubSample n t) s)

def execGooseRetransmit (pub : Fin 16) (s : State) : Out :=
  let c := pubCfg s pub
  let r := pubGet s pub
  if !c.on ∨ !r.sent then .next s
  else
    let next := min (2 * r.next) c.tmax
    .next (pubUpd pub (fun x => { x with sqNum := x.sqNum + 1, tries := x.tries + 1, next := next, ttl := 2 * next }) s)

/-! ### DMA records -/

def execDmaRecordWrite (stream : Fin 16) (s : State) : Out :=
  let d := dmaGet s stream
  match (if barOn s then d.queue else []) with
  | [] => .next s
  | (q, p) :: r =>
    let s1 := putBuf d.tail (le 8 q) (putBuf (d.base + dmaSize d * (q % d.nrec)) p s)
    let s2 := dmaUpd stream (fun x => { x with queue := r }) s1
    .next (when d.irq (fun t => t.onMb (fun m => { m with msix := (10 + stream.val) :: m.msix })) s2)

def execDmaRecordDrop (stream : Fin 16) (s : State) : Out :=
  let d := dmaGet s stream
  match d.queue with
  | [] => .next s
  | _ :: r =>
    let first := firstIn d.winDrop s.tick.index
    let s1 := dmaUpd stream (fun x => { x with
      queue := r, drops := inc32 x.drops, winDrop := if first then some s.tick.index else x.winDrop }) s
    .next (when first (netEvent 0x06 stream [1]) (s1.onNet (fun x => { x with dmaDrops := inc32 x.dmaDrops })))

end Sys2Proof.Machine
end

