-- ==== Sys2Proof/Machine/RecOps.lean ====
section
/-! DEFINITION. Shared operations of the Galley recorder (chapter 21): taps, tick blocks, freezes, state images. -/

namespace Sys2Proof.Machine

open Sys2Proof

def recEvent (kind : Nat) (addr : Nat) (d : List Nat) (s : State) : State := raise 0 0x040 kind .notice addr d s

/-! ### Active sets, digests, images (R524, R548, step 6 of Table 1.7) -/

def activeSets (s : State) : ActiveSets :=
  { t := s.tick.len, loop := s.loop.cfg, arm := s.aie.arm, sel := s.aie.sel, der := s.aie.der, gen := s.pwm.gen, pair := s.pwm.pair,
    cmp := s.pwm.cmp, bind := [(dieGet s 0).bind, (dieGet s 1).bind], flow := [(dieGet s 0).flow, (dieGet s 1).flow], cls := s.tiles.cls,
    chan := s.meas.chan, seq := s.meas.seq, prot := s.prot.act, safe := s.link.cells.map (fun e => (e.1, e.2.safeSel)), sv := s.net.sv,
    map := s.net.map, sub := s.net.sub, pub := s.net.pub, roster := s.link.roster }

/-- The configuration digest of the active sets and the roster. -/
def configDigest (s : State) : Nat := (Config.configDigest (activeSets s)).toNat

def ctlImage (s : State) : CtlImage :=
  { tick := s.tick.index, sets := activeSets s, aie := s.aie, pwm := s.pwm, loop := s.loop, tiles := s.tiles, cells := s.link.cells,
    words := s.link.words }

/-- Models taken from an image; the comparators and the trip latches of the pairs stay live, because they sit on the MPR. -/
def installImage (m : CtlImage) (s : State) : State :=
  (s.onPwm (fun p => { m.pwm with
    pairs := (List.range 8).map (fun n => (n, { tget ({} : PwmPair) m.pwm.pairs n with
      latch := (tget ({} : PwmPair) p.pairs n).latch, trips := (tget ({} : PwmPair) p.pairs n).trips }))
    cmp := p.cmp, cmpNew := p.cmpNew, active := p.active, latched := p.latched, blockedBy := p.blockedBy, first := p.first })).onLink
    (fun l => { l with cells := m.cells, words := m.words })
  |>.onAie (fun _ => m.aie) |>.onLoop (fun _ => m.loop) |>.onTiles (fun _ => m.tiles)

/-- The control-plane sets that a recorded commit made active (R554). -/
def installSets (a : ActiveSets) (s : State) : State :=
  let die := fun (d : Nat) (t : State) => dieUpd d (fun x => { x with bind := a.bind.getD d [], flow := a.flow.getD d [] }) t
  let s1 := (s.onLoop (fun l => { l with cfg := a.loop })).onAie (fun e => { e with arm := a.arm, sel := a.sel, der := a.der })
  let s2 := (s1.onPwm (fun p => { p with gen := a.gen, pair := a.pair })).onTiles (fun t => { t with cls := a.cls })
  (die 1 (die 0 s2)).onLink (fun l => { l with cells := l.cells.map (fun e => (e.1, { e.2 with safeSel := tget e.2.safeSel a.safe e.1 })) })

/-- Values of a comparison domain (Table 20.3). -/
def domainValues (s : State) (d : Nat) : List Int :=
  if d < 12 then
    (armCids s d).map (fun c => ((tget 0 s.link.words c : Word32).toNat : Int)) ++
      [((armGet s d).nwhole : Int), ((armGet s d).duty : Int), (((armGet s d).desig.getD 0xFFFF : Nat) : Int)]
  else if d < 24 then (s.loop.ch.filter (fun e => e.1 / 256 == d - 16 && e.2.mode != .off)).map (fun e => e.2.u)
  else (List.range 8).flatMap (fun p => [((pairGet s p).cmp : Int), (b2n (pairGet s p).run : Int)])

/-- The domains that the variant provides. -/
def domains (s : State) : List Nat :=
  (List.range 12).filter (armOk s) ++ ([16, 17].filter (fun d => ctlOk s (d - 16))) ++ (if mprOk s then [24] else [])

def digests (s : State) : List (Nat × Nat) := (domains s).map (fun d => (d, (Config.domainCrc d (domainValues s d)).toNat))

/-! ### Tick blocks (R545) -/

/-- A section: its word, the payload, zeros to a multiple of 8 bytes. -/
def section_ (c : Nat × Bytes) : Bytes :=
  let n := c.2.length
  le 3 n ++ le 1 c.1 ++ c.2 ++ List.replicate ((8 - (4 + n) % 8) % 8) 0

def sectionsLen (l : List (Nat × Bytes)) : Nat := (l.map (fun c => (4 + c.2.length + 7) / 8 * 8)).sum

def TickBlock.len (b : TickBlock) : Nat := 32 + sectionsLen b.secs

def TickBlock.header (b : TickBlock) (n : Nat) (secs : List (Nat × Bytes)) : Bytes :=
  le 8 b.tick ++ le 4 n ++ le 2 (b2n b.key + 2 * b2n b.hole + 4 * b2n b.replay + 8 * b2n b.image) ++ le 1 b.state ++ le 1 b.role ++
    le 4 (maskOf (secs.map (·.1))) ++ le 4 b.time.sec ++ le 4 b.time.nsec ++ le 4 0

def TickBlock.bytes (b : TickBlock) : Bytes := b.header b.len b.secs ++ b.secs.flatMap section_

/-- The block in key form with the taps of the decimated ring (R551). -/
def TickBlock.decBytes (b : TickBlock) : Bytes :=
  let k := { b with key := true }
  k.header (32 + sectionsLen b.keySecs) b.keySecs ++ b.keySecs.flatMap section_

/-- Put a section in its place by ascending tap code. -/
def addSec (c : Nat × Bytes) (l : List (Nat × Bytes)) : List (Nat × Bytes) :=
  l.filter (fun x => x.1 ≤ c.1) ++ c :: l.filter (fun x => c.1 < x.1)

def addSecs (new l : List (Nat × Bytes)) : List (Nat × Bytes) := new.foldl (fun t c => addSec c t) l

/-! ### Payloads (R546, R547, Table 21.3) -/

/-- Groups carried on a port: up to its highest slot in the roster (Table 6.5). -/
def portGroups (s : State) (p : Nat) : Nat := (portCells s p).foldl (fun m c => max m (c % 128 / 16 + 1)) 0

/-- The prediction of a report: the last recorded one with SEQ advanced by the ticks elapsed. -/
def predicted (r : Word64) (dt : Nat) : Word64 :=
  let q := ((r.extractLsb' 35 4).toNat + dt) % 16
  (r &&& ~~~(0xF#64 <<< 35)) ||| (BitVec.ofNat 64 q <<< 35)

def vcapField : Word64 := 0xFFFF#64 <<< 46

/-- The code of one report (Table 21.5). -/
def cellCode (pred : Option Word64) (r : Word64) : Bytes :=
  match pred with
  | none => le 1 0x80 ++ le 8 r.toNat
  | some p =>
    let d : Int := (repVcap r : Int) - repVcap p
    if (r &&& ~~~vcapField) ≠ (p &&& ~~~vcapField) then le 1 0x80 ++ le 8 r.toNat
    else if -64 ≤ d ∧ d ≤ 63 then le 1 (d % 128).toNat
    else le 1 0x81 ++ le 2 (repVcap r)

/-- The CELL payload of a port; `key` takes no prediction. -/
def cellPayload (s : State) (p : Nat) (key : Bool) : Bytes :=
  let g := portGroups s p
  let cs := (portCells s p).filter (fun c => (cellGet s c).fresh)
  let n := s.tick.index
  le 1 p ++ le 1 g ++ le 2 0 ++ le (2 * g) (maskOf (cs.map (· % 128))) ++
    cs.flatMap (fun c =>
      let pr := if key then none else (s.galley.pred.find? (fun e => e.1 == c)).map (fun e => predicted e.2.1 (n - e.2.2))
      cellCode pr (cellGet s c).report)

/-- The MSET payload. -/
def msetPayload (s : State) : Bytes :=
  let cs := (List.range 64).filter (fun c => (mChan s c).on)
  le 8 (maskOf cs) ++ cs.flatMap (fun c =>
    let x : MSetChan := tget {} s.meas.inSet c
    leS 4 x.fine ++ leS 4 x.coarse ++ le 1 x.flags.toNat ++ le 1 0 ++ le 2 x.age)

/-- The scope of a DISP_CANCEL acting at this crossing. -/
def cancelWord (s : State) : Nat :=
  match (dieGet s 0).cancels ++ (dieGet s 1).cancels with
  | k :: _ => (Config.tapLayout 0x07 [(k.flow : Int), k.scope, k.arg]).foldl (fun x b => x * 256 + b.toNat) 0 % 2 ^ 32
  | [] => 0

def statusPayload (s : State) : Bytes :=
  le 1 s.dev.state.code ++ le 1 s.dev.role.code ++ le 1 (if s.dev.transTick = s.tick.index then s.dev.cause else 0) ++
    le 1 (b2n s.dev.fatal + 2 * b2n (s.pwm.blockedBy != 0) + 4 * b2n s.safe.mLatch + 8 * b2n (s.safe.sf == .sto)) ++
    leS 4 (rampQ s) ++ leS 4 s.safe.acc ++ le 4 (cancelWord s)

def JEntry.bytes (e : JEntry) : Bytes := le 1 e.kind ++ le 1 e.die ++ le 1 e.obj ++ le 1 e.detail ++ le 4 e.seq ++ le 4 e.v ++ le 4 0

/-- What LNKSTAT would show now: ports by number, cells by 4096 + CID. -/
def lnkNow (s : State) : Tbl (Nat × Nat) :=
  (allPorts s).map (fun p => (p, ((portGet s p).state.code, (portGet s p).minOff))) ++
    (rostered s).map (fun c => (4096 + c, ((cellGet s c).health.code, (cellGet s c).cause)))

/-- A payload the spec does not lay out; none where there is nothing to copy. -/
def openSec (code : Nat) (l : List Int) : List (Nat × Bytes) := if l.isEmpty then [] else [(code, Config.tapLayout code l)]

/-- The increments of bases 1 and 2, and their values. -/
def timeNow (s : State) : List Nat × List Nat := ([(base s 1).inc, (base s 2).inc], [(base s 1).val, (base s 2).val])

/-- The TIME tap: increments that changed, steps, and at key ticks the values. -/
def timeValues (s : State) (key : Bool) : List Int :=
  let now := timeNow s
  let moved := if s.galley.incs = now.1 then [] else now.1
  let stepped := (List.range 2).filter (fun i =>
    let old := s.galley.vals.getD i 0
    let adv := s.tick.len * 500 * s.galley.incs.getD i 0
    old != 0 && (now.2.getD i 0 : Int) - old != adv)
  let l : List Nat := moved ++ stepped.flatMap (fun i => [i, now.2.getD i 0]) ++ (if key then now.2 else [])
  l.map Int.ofNat

/-! ### Composing a block -/

def keyTick (s : State) : Bool := s.tick.index % 1024 == 0

/-- The recorder records: EN, and a state from CONFIG on (R552). -/
def recOn (s : State) : Bool := bit s.galley.cfg.flags 0 && notBoot s.dev.state

/-- An input tap is recorded; the M2 records the measurement, network, time and status taps only. -/
def tapOn (s : State) (c : Nat) : Bool := bit s.galley.cfg.mask c && (!isM2 s || c == 3 || c == 4 || c == 6 || c == 7)

/-- The inputs of the tick as they crossed. -/
def tickIn (s : State) : TickIn :=
  { cells := s.link.cells, offs := (allPorts s).map (fun p => (p, (portGet s p).minOff)), mset := s.meas.inSet, net := s.net.mapRun,
    times := (timeNow s).1 ++ (timeNow s).2, state := s.dev.state, role := s.dev.role,
    cause := if s.dev.transTick = s.tick.index then s.dev.cause else 0, fatal := s.dev.fatal, cmp := s.pwm.blockedBy != 0,
    mord := s.safe.mLatch, sto := s.safe.sf == .sto, v := s.safe.v, acc := s.safe.acc, ramp := s.safe.ramp.on,
    cancels := (dieGet s 0).cancels.map (fun k => (0, k)) ++ (dieGet s 1).cancels.map (fun k => (1, k)), events := s.pwm.events,
    latches := (List.range 8).filter (fun p => (pairGet s p).latch),
    record := s.red.installed, commit := if s.galley.commitMask = 0 then none else some (s.galley.commitMask, activeSets s) }

/-- A decision record as the values of the tap PAIR. -/
def recordValues (r : XlRecord) : List Int :=
  r.cells.flatMap (fun c => [(c.1 : Int), (c.2 : Int)]) ++
    r.desig.flatMap (fun e => [(e.1 : Int), (e.2.1 : Int), (b2n e.2.2.1 : Int), (b2n e.2.2.2.1 : Int), e.2.2.2.2]) ++
    r.loops.flatMap (fun l => [(l.1 : Int), l.2.1, (l.2.2 : Int)])

/-- Sections of the input taps; `key` says which taps and ports take key form. -/
def inputSecs (s : State) (keyTap keyPort : Nat → Bool) : List (Nat × Bytes) :=
  let on := fun (c : Nat) (l : List (Nat × Bytes)) => if tapOn s c then l else []
  let lnk := (lnkNow s).filter (fun e => tget (0xFFFF, 0) s.galley.lnk e.1 != e.2)
  let net := s.net.mapRun.filter (fun e => e.2.fresh)
  on 1 ((allPorts s).filterMap (fun p =>
      if (portCells s p).any (fun c => (cellGet s c).fresh) then some (1, cellPayload s p (keyTap 1 || keyPort p)) else none)) ++
    on 2 (openSec 2 (lnk.flatMap (fun e => [(e.1 : Int), e.2.1, e.2.2]))) ++
    on 3 (if (List.range 64).any (fun c => (mChan s c).on) then [(3, msetPayload s)] else []) ++
    on 4 (openSec 4 (net.flatMap (fun e => [(e.1 : Int), e.2.v, b2n e.2.valid, (if e.1 < 128 then (svGet s (mapCfg s e.1).src).age else Config.openCode 0x2104 e.1 : Nat)]))) ++
    on 5 (if s.galley.commitMask = 0 then [] else [(5, Config.commitLayout s.galley.commitMask (activeSets s))]) ++ on 6 (openSec 6 (timeValues s (keyTap 6))) ++ on 7 [(7, statusPayload s)] ++
    on 9 (if s.dev.paired && s.dev.role == .standby then openSec 9 ((b2n s.red.used : Int) :: s.red.installed.elim [] recordValues) else [])

/-- Recorder time at the input crossing, 40 ns of converter tick time after the boundary (Tables 5.2, 21.4). -/
def recorderTime (s : State) : Stamp :=
  stampOf ((base s 3).val + (roundDiv ((40 * 2 ^ 32 * (base s 3).inc : Nat) : Int) (base s 1).inc).toNat)

/-- The block begins at the input crossing; what the taps copied is the base of the next block's predictions. -/
def blockStart (s : State) : State :=
  if replaying s then s
  else if !recOn s then s.onGalley (fun x => { x with journal := [], commitMask := 0 })
  else
    let g := s.galley
    let key := keyTick s || g.holeNext
    let kt := fun (c : Nat) => key || bit g.keyTaps c
    let secs := inputSecs s kt (fun p => bit g.keyPorts p)
    let b : TickBlock := {
      tick := s.tick.index, key := key, hole := g.holeNext, state := s.dev.state.code, role := s.dev.role.code,
      time := recorderTime s,
      secs := secs ++ (if g.lostRun = 0 then [] else [(0x1F, le 4 0 ++ le 4 0 ++ le 4 g.lostRun)]),
      keySecs := (inputSecs s (fun _ => true) (fun _ => true)).filter (fun c => c.1 == 1 || c.1 == 3 || c.1 == 4 || c.1 == 7),
      inputs := some (tickIn s) }
    let fresh := (rostered s).filter (fun c => (cellGet s c).fresh)
    s.onGalley (fun x => { x with
      cur := some b, lnk := lnkNow s, incs := (timeNow s).1, vals := (timeNow s).2, keyTaps := 0, holeNext := false, lostRun := 0,
      commitMask := 0,
      keyPorts := maskOf ((List.range 32).filter (fun p => bit x.keyPorts p && !(secs.any (fun c => c.1 == 1 && rd c.2 0 1 == p)))),
      pred := if tapOn s 1 then fresh.foldl (fun t c => tset t c ((cellGet s c).report, s.tick.index)) x.pred else x.pred })

/-- Publications that cross now, with the crossing they take: die, kind, port, value, tick (the tap TILEPUB). -/
def pubValues (s : State) : List Int :=
  let part := fun (d kind : Nat) (l : Tbl TPort) => (l.filter (fun e => e.2.fresh)).flatMap (fun e =>
    [(d : Int), (kind : Int), (e.1 : Int), e.2.v, (s.tick.index : Int)])
  [0, 1].flatMap (fun d => part d 0 (dieGet s d).rports ++ part d 1 (dieGet s d).dports)

/-- Output taps; the M2 has none: digests always, the FULL taps where OUTPUT is set to full (Table 21.1). -/
def outputSecs (s : State) : List (Nat × Bytes) :=
  let dig : List (Nat × Bytes) :=
    if isM2 s ∨ (digests s).isEmpty then [] else [(0x10, (digests s).flatMap (fun e => le 4 e.2))]
  if isM2 s ∨ !bit s.galley.cfg.flags 1 then dig
  else
    let outs := (s.loop.ch.filter (fun e => e.2.mode != .off)).flatMap (fun e => [(e.1 : Int), e.2.u])
    let pwm := (arms s).flatMap (fun a =>
      let w : Int := ((tget 0 s.link.words ((armGet s a).desig.getD 0xFFFF) : Word32).toNat : Nat)
      [(genGet s a).wout, (genGet s a).carry, w]) ++ s.pwm.reloads.flatMap (fun e => [(e.1 : Int), (e.2.1.toNat : Int), (e.2.2 : Int)])
    dig ++ openSec 0x11 (s.link.words.map (fun e => (e.2.toNat : Int))) ++ openSec 0x12 outs ++
      (if mprOk s ∨ anyCtl s then openSec 0x13 pwm else []) ++ openSec 0x14 (pubValues s)

/-- The image: captured at the output crossing of its tick, skipped while the one before still drains (R548). -/
def imageTick (s : State) : Bool := s.tick.index % (1024 * s.galley.cfg.img) == 0 && anyCtl s

def imageCapture (s : State) : State :=
  if !imageTick s then s
  else if s.galley.draining.isSome then
    [0, 1].foldl (fun t d => if ctlOk t d then recEvent 0x05 (1 + d) [s.tick.index] t else t) s
  else s.onGalley (fun g => { g with draining := some (ctlImage s, (Config.imageData (ctlImage s)).length, false) })

/-- At most 64 KiB of the image drain in a tick. -/
def imageDrain (s : State) : List (Nat × Bytes) × State :=
  match s.galley.draining with
  | none => ([], s)
  | some (m, left, lost) =>
    let data := Config.imageData m
    let part := (data.drop (data.length - left)).take 65536
    let rest := left - part.length
    (if !tapOn s 10 ∨ part.isEmpty then [] else [(10, part)],
      s.onGalley (fun g => { g with
        draining := if rest = 0 then none else some (m, rest, lost),
        images := if rest = 0 ∧ !lost ∧ tapOn s 10 then m :: g.images else g.images }))

/-- The reloads of the tap PWMOUT are those since the last output crossing. -/
def reloadsGone (s : State) : State := s.onPwm (fun w => { w with reloads := [] })

/-- The masks of a HOLE section, and what follows them. -/
def holeMasks (b : TickBlock) : Nat × Nat × Bytes :=
  match b.secs.find? (fun c => c.1 == 0x1F) with
  | some c => (rd c.2 0 4, rd c.2 4 4, c.2.drop 8)
  | none => (0, 0, [])

/-- The block without the lost sections, with its HOLE section; lost input taps leave nothing to replay. -/
def holeBlock (b : TickBlock) (tap ports : Nat) : TickBlock :=
  let h := holeMasks b
  let gone := fun (c : Nat × Bytes) => c.1 == tap && (tap != 1 || ports == 0 || bit ports (rd c.2 0 1))
  let kept := (b.secs.filter (fun c => !gone c)).filter (fun c => c.1 != 0x1F)
  let pl := le 4 (h.1 ||| (1 <<< tap)) ++ le 4 (h.2.1 ||| (if tap = 1 then ports else 0)) ++ h.2.2
  { b with
    secs := addSec (0x1F, pl) kept, keySecs := b.keySecs.filter (fun c => !gone c),
    inputs := if tap < 10 then none else b.inputs, digests := if tap = 16 then [] else b.digests }

/-- The image whose sections a lost block or entry carried is incomplete (R548). -/
def imageLost (s : State) : State :=
  s.onGalley (fun g => match g.draining with
    | some (m, n, _) => { g with draining := some (m, n, true) }
    | none => { g with images := g.images.drop 1 })

/-- REC_HOLE for the first hole of the tap in 1,024 ticks, and the give-way episode of P4 to P2. -/
def holeEvents (tap tick : Nat) (s : State) : State :=
  let open_ := (s.galley.holeWin.find? (fun e => e.1 == tap)).any (fun e => decide (s.tick.index < e.2 + 1024))
  let s1 := giveWay 0x05 tap 4 2 s
  if open_ then s1 else recEvent 0x01 tap [tick] (s1.onGalley (fun g => { g with holeWin := tset g.holeWin tap s.tick.index }))

/-- A tap of the block under way, else of the oldest block that waits, is lost; `none` stands for the whole block, and
`ports` is the mask of ports whose CELL data is lost, 0 for all. A cell of such a port has no prediction any more (R544, R546). -/
def tapLost (tap : Option Nat) (ports : Nat) (b : TickBlock) (put : Option TickBlock → State → State) (s : State) : State :=
  let lost := if ports = 0 then 0xFFFFFFFF else ports
  let hole := b.secs.any (fun c => c.1 == 0x1F)
  let s1 := s.onGalley (fun g => { g with holes := if hole then g.holes else inc32 g.holes })
  match tap with
  | none =>
    let s2 := (put none s1).onGalley (fun g => { g with
      lostRun := g.lostRun + 1, holeNext := true, keyTaps := 0xFFFFFFFF, keyPorts := 0xFFFFFFFF, pred := [] })
    holeEvents 0x1F b.tick (when (b.secs.any (fun c => c.1 == 10)) imageLost s2)
  | some c =>
    let s2 := (put (some (holeBlock b c ports)) s1).onGalley (fun g => { g with
      keyTaps := if c = 1 then g.keyTaps else g.keyTaps ||| (1 <<< c), keyPorts := if c = 1 then g.keyPorts ||| lost else g.keyPorts,
      pred := if c = 1 then g.pred.filter (fun e => !bit lost (e.1 / 128)) else g.pred })
    holeEvents c b.tick (when (c == 10) imageLost s2)

/-- The tap buffer in bytes (R544). -/
def bufBytes : Nat := 4194304

/-- A whole block enters the tap buffer, or is lost where the buffer has no room for it (R544). -/
def bufPut (b : TickBlock) (s : State) : State :=
  if bufBytes < b.len + (s.galley.buf.map TickBlock.len).sum then tapLost none 0 b (fun _ t => t) s
  else s.onGalley (fun g => { g with buf := g.buf ++ [b] })

/-- The block is finished at the output crossing and enters the tap buffer. -/
def blockFinish (s : State) : State :=
  match s.galley.cur with
  | none => reloadsGone s
  | some b =>
    let cap := imageTick s && s.galley.draining.isNone
    let s1 := imageCapture s
    let r := imageDrain s1
    let jr := if tapOn s 8 ∧ !s.galley.journal.isEmpty then [(8, s.galley.journal.flatMap JEntry.bytes)] else []
    let out := outputSecs s
    let b1 := { b with
      secs := addSecs (jr ++ r.1 ++ out) b.secs, keySecs := addSecs (out.filter (fun c => c.1 == 0x10)) b.keySecs, image := cap,
      journal := s.galley.journal, digests := digests s }
    reloadsGone (bufPut b1 (r.2.onGalley (fun g => { g with cur := none, journal := [] })))

/-! ### The ring (R545, R551) -/

/-- Keep blocks, newest first, while their bytes fit. -/
def keepBytes (room : Nat) : List TickBlock → List TickBlock
  | [] => []
  | b :: r => if b.len ≤ room then b :: keepBytes (room - b.len) r else []

def mib (n : Nat) : Nat := n * 1048576

def ringOldest (s : State) : Nat := (s.galley.ring.getLast?.map (·.tick)).getD 0

def ringNewest (s : State) : Nat := (s.galley.ring.head?.map (·.tick)).getD 0

def slotGet (s : State) (n : Nat) : Freeze := tget {} s.galley.slots n

def blocksLen (l : List TickBlock) : Nat := (l.map TickBlock.len).sum

/-- Blocks overwritten in the ring before the freeze copied them: a HOLE marker block stands for them (R550). -/
def holeMarker (s : State) (f : Freeze) : List TickBlock :=
  match (s.galley.ring.reverse).find? (fun b => !b.replay) with
  | some b =>
    if bit f.flags 5 ∨ b.tick ≤ f.next ∨ f.until_ < b.tick then []
    else [{ tick := f.next, marker := true, secs := [(0x1F, le 4 0 ++ le 4 0 ++ le 4 (b.tick - f.next))] }]
  | none => []

/-- Ring blocks that a filling freeze is still to copy, oldest first, as far as the slot has room. -/
def freezeCopy (n : Nat) (s : State) : State :=
  let f := slotGet s n
  if !f.filling then s
  else
    let new := holeMarker s f ++ (s.galley.ring.reverse).filter (fun b => f.next ≤ b.tick && b.tick ≤ f.until_ && b.replay == bit f.flags 5)
    let room := mib s.galley.cfg.frz - 64 - blocksLen f.blocks
    let r := new.foldl (fun (a : List TickBlock × Nat × Bool) b =>
      if a.2.2 ∨ a.2.1 < b.len then (a.1, a.2.1, true) else (a.1 ++ [b], a.2.1 - b.len, false)) ([], room, false)
    let fl := if r.2.2 then f.flags ||| 4 else f.flags
    let fl2 := if r.1.any (·.marker) then fl ||| 2 else fl
    let g := { f with
      blocks := f.blocks ++ r.1, flags := fl2, next := (r.1.getLast?.map (fun b => b.tick + 1)).getD f.next,
      last := (r.1.getLast?.map (·.tick)).getD f.last, bytes := f.bytes + blocksLen r.1 }
    s.onGalley (fun x => { x with slots := tset x.slots n g })

def freezesCopy (s : State) : State := (s.galley.slots.map (·.1)).foldl (fun t n => freezeCopy n t) s

/-- A freeze whose last block is in, or which is full (R550). -/
def freezeReady (f : Freeze) : Bool := f.filling && (f.until_ < f.next || bit f.flags 2)

/-! ### Freeze triggers (R549) -/

def ticksOfMs (s : State) (ms : Nat) : Nat := ms * 1000 / s.tick.len

/-- The lowest free slot, else with OVERWRITE the oldest completed one that no command holds. -/
def freezeSlot (s : State) : Option Nat :=
  let g := s.galley
  let free := (List.range g.cfg.frzN).find? (fun n => !thas g.slots n)
  let old := g.slots.filter (fun e => !e.2.filling && !held s (.freeze e.1) && e.1 < g.cfg.frzN)
  match free with
  | some n => some n
  | none => if bit g.cfg.flags 2 then (old.foldl (fun (m : Option (Nat × Freeze)) e =>
      match m with
      | none => some e
      | some x => if e.2.t < x.2.t then some e else m) none).map (·.1) else none

/-- Begin a freeze in slot `n` around t. -/
def freezeBegin (n cause t : Nat) (s : State) : State :=
  let g := s.galley
  let lim := t - ticksOfMs s g.cfg.pre
  let low := ringOldest s
  let img := (g.images.filter (fun m => m.tick ≤ lim && low ≤ m.tick && !g.ring.isEmpty)).head?
  let key := (g.ring.filter (fun b => b.tick % 1024 == 0 && b.tick ≤ lim)).head?.map (·.tick)
  let first := match img with
    | some m => m.tick
    | none => key.getD (if g.ring.isEmpty then t else low)
  let f : Freeze := {
    edition := fwEdition, variant := s.dev.variant.code, dies := b2n (ctlOk s 0) + 2 * b2n (ctlOk s 1) + 4 * b2n (mprOk s),
    tcode := s.tick.len,
    flags := b2n img.isNone + 8 * b2n (g.partTaps || g.cfg.mask != 0x7FE) + 16 * b2n (bit g.cfg.flags 1) + 32 * b2n (replaying s) + 64,
    cause := cause, first := first, image := if img.isSome then first else 0, t := t, last := first,
    digest := match img with
      | some m => (Config.configDigest m.sets).toNat
      | none => 0
    until_ := t + ticksOfMs s g.cfg.post, next := first, filling := true, start := img }
  freezeCopy n (recEvent 0x02 n [cause, t] (s.onGalley (fun x => { x with slots := tset x.slots n f })))

/-- A trigger: merged into a freeze that fills over t, else a slot, else lost. -/
def freezeTrigger (cause t : Nat) (s : State) : State :=
  match s.galley.slots.find? (fun e => e.2.filling && e.2.first ≤ t && t ≤ e.2.until_) with
  | some (n, f) =>
    s.onGalley (fun x => { x with
      slots := tset x.slots n { f with merged := f.merged + 1, cause := if f.t = t then min f.cause cause else f.cause } })
  | none =>
    match freezeSlot s with
    | some n => freezeBegin n cause t s
    | none => recEvent 0x04 0 [cause] s

/-- The TRIG bits that a message sets off. -/
def trigBits (m : FaultMsg) : List Nat :=
  let new := (m.d.getD 0 0) % 256
  (if m.cls == .fatal then [0] else []) ++
    (if m.block = 0x001 ∧ m.kind = 0x01 then (if new = 6 then [1] else if new = 5 then [2] else [])
     else if m.block = 0x03A ∧ m.kind = 0x01 then [3]
     else if m.block = 0x041 ∧ m.kind = 0x03 then [4]
     else if m.block = 0x021 ∧ m.kind = 0x01 then (if new = 2 ∨ new = 3 then [5] else [])
     else if m.block = 0x020 ∧ m.kind = 0x03 then [6] else [])

/-- A message that reached the collector sets off the freezes that TRIG names. -/
def freezeOn (m : FaultMsg) (s : State) : State :=
  if !bit s.galley.cfg.flags 0 then s
  else ((trigBits m).filter (bit s.galley.cfg.trig)).foldl (fun t b => freezeTrigger b m.tick t) s

/-- The slot header of Table 21.6. -/
def Freeze.header (f : Freeze) : Bytes :=
  withCrc (le 4 1 ++ le 4 f.edition ++ le 1 f.variant ++ le 1 f.dies ++ le 1 f.tcode ++ le 1 f.flags ++ le 4 f.cause ++ le 8 f.first ++
    le 8 f.image ++ le 8 f.t ++ le 8 f.last ++ le 8 f.bytes ++ le 4 f.digest)

def Freeze.data (f : Freeze) : Bytes := f.raw.getD (f.blocks.flatMap TickBlock.bytes)

end Sys2Proof.Machine
end

