-- ==== Sys2Proof/Machine/FaultOps.lean ====
section
/-! DEFINITION. The fault collector (chapter 19): arrival of messages, the backlog, the Colophon, fatal reactions, give-way
events, and the role and state changes other units ask for. -/

namespace Sys2Proof.Machine

open Sys2Proof

/-! ### Entries (Tables 19.1 and 19.5) -/

/-- The 64-bit message. -/
def FaultMsg.bits (m : FaultMsg) : Nat :=
  m.die % 8 * 2 ^ 61 + m.block % 512 * 2 ^ 52 + m.kind % 256 * 2 ^ 44 + m.cls.code * 2 ^ 42 + m.tick % 1024 * 2 ^ 32 + m.addr % 2 ^ 32

/-- The 64 bytes of an entry. -/
def EvEntry.bytes (e : EvEntry) : Bytes :=
  withCrc (le 8 e.msg.bits ++ le 8 e.msg.tick ++ e.time.bytes ++ le 4 e.seq.toNat ++
    le 2 (b2n e.lostBefore + 2 * b2n e.msg.injected + 4 * b2n e.unset + 8 * b2n e.msg.interim) ++ le 2 0 ++
    (List.range 6).flatMap (fun i => le 4 (e.msg.d.getD i 0)))

/-! ### Arrival (R498, R500, R504, R506, R507) -/

/-- Masked: the block with this kind or with every kind; a FATAL kind cannot be masked. -/
def masked (s : State) (m : FaultMsg) : Bool :=
  m.cls != .fatal && s.fault.masks.any (fun e => e.1 == m.block && (e.2 == 0xFF || e.2 == m.kind))

/-- The Colophon takes an entry (R506). -/
def Colophon.take (c : Colophon) (e : EvEntry) (tick : Nat) : Colophon :=
  match c.state with
  | .frozen => c
  | .filling => if c.places.length < 64 then { c with places := c.places ++ [e] } else c
  | .armed =>
    if c.mask.getLsbD e.msg.cls.code then { c with state := .filling, p := c.places.length, places := c.places ++ [e], tick := tick }
    else { c with places := (c.places ++ [e]).drop (c.places.length + 1 - 32) }

/-- An entry is lost (R504). -/
def noteLost (f : FaultSt) : FaultSt :=
  { f with lost := true, lostCnt := inc32 f.lostCnt, lostFlag := true, lostRun := f.lostRun + 1 }

/-- Without its oldest NOTICE or CORRECTED entry; none where there is none. -/
def dropOldest : List EvEntry → Option (List EvEntry)
  | [] => none
  | e :: r => if e.msg.cls == .notice || e.msg.cls == .corrected then some r else (dropOldest r).map (e :: ·)

/-- An entry enters the backlog of 1,024, or the rule for a full backlog applies (R504). -/
def enterBacklog (e : EvEntry) (f : FaultSt) : FaultSt :=
  let put := fun (l : List EvEntry) (g : FaultSt) => { g with backlog := l ++ [{ e with lostBefore := g.lostFlag }], lostFlag := false }
  if f.backlog.length < 1024 then put f.backlog f
  else if e.msg.cls == .notice || e.msg.cls == .corrected then noteLost f
  else
    match dropOldest f.backlog with
    | some l => put l (noteLost f)
    | none => noteLost f

/-- The collector takes a message: sequence number, count, Colophon, backlog. -/
def collect (m : FaultMsg) (s : State) : State :=
  let e : EvEntry := { msg := m, time := stationNow s, unset := timeUnset s, seq := s.fault.seq, lostBefore := false }
  s.onFault (fun f =>
    let f1 := { f with
      seq := f.seq + 1, counts := tupd 0 f.counts m.cls.code inc32, col := f.col.take e s.tick.index }
    if masked s m then f1 else enterBacklog e f1)

/-- A message reaches the collector, and the recorder's freeze triggers see it (R549). -/
def arrive (m : FaultMsg) (s : State) : State := freezeOn m (collect m s)

/-- An entry that goes before every other one waiting (R78). -/
def arriveFirst (m : FaultMsg) (s : State) : State :=
  let e : EvEntry := { msg := m, time := stationNow s, unset := timeUnset s, seq := s.fault.seq, lostBefore := false }
  s.onFault (fun f =>
    let f1 := { f with seq := f.seq + 1, counts := tupd 0 f.counts m.cls.code inc32, col := f.col.take e s.tick.index }
    if f.backlog.length < 1024 then { f1 with backlog := e :: f.backlog } else enterBacklog e f1)

/-- The oldest waiting message arrives; once its block has drained, what was merged is reported (R498). -/
def arriveNext (s : State) : State :=
  match s.fault.waiting with
  | [] => s
  | m :: rest =>
    let s1 := arrive m (s.onFault (fun f => { f with waiting := rest }))
    let k := m.die * 512 + m.block
    let n := tget 0 s1.fault.merged k
    if n = 0 ∨ rest.any (fun x => x.die == m.die && x.block == m.block) then s1
    else raise 0 0x008 0x01 .notice k [n] (s1.onFault (fun f => { f with merged := tdel f.merged k }))

/-! ### Fatal faults (R508, R509, Tables 19.6 and 19.7) -/

/-- The sources only nPOR clears, and those SYS_BLOCK_CLEAR may clear (Table 19.6). -/
def fatalSrc (die block kind addr : Nat) : FatalSrc :=
  { die := die, block := block, kind := kind, addr := addr, nporOnly := block == 0x002 && (kind == 0x02 || kind == 0x07 || kind == 0x08),
    clear := (block == 0x002 && kind == 0x01) || (block == 0x015 && kind == 0x09), present := true }

/-- Two sources are the same place and kind. -/
def FatalSrc.same (a b : FatalSrc) : Bool := a.die == b.die && a.block == b.block && a.kind == b.kind && a.addr == b.addr

/-- FATAL, FATAL_CAUSE while it reads 0, and ALIVE (R509, R510). -/
def fatalLatch (m : FaultMsg) (s : State) : State :=
  let src := { fatalSrc m.die m.block m.kind m.addr with injected := m.injected }
  let again := fun (x : FatalSrc) => { x with present := true, injected := x.injected && m.injected }
  (s.onDev (fun d => { d with
    fatal := true, aliveRun := false, alive := false,
    sources := if d.sources.any src.same then d.sources.map (fun x => if src.same x then again x else x) else d.sources ++ [src] })).onFault (fun f => { f with cause := if f.cause = 0 then BitVec.ofNat 64 m.bits else f.cause })

/-- The reactions on dedicated lines: pairs stopped, safe-state frames on every port, BLOCKED_FAULT at the next boundary
(not in FACTORY_TEST, BOOT and POWER_DOWN), the protection engine stopped by the MPR's own fault (R391); the ports of a LNK die
fall silent with its own fault (R509). -/
def fatalReact (die : Nat) (s : State) : State :=
  let own := (allPorts s).filter (fun p => portDie p == die)
  let s1 := safeAll 0x30 (pairsRecheck (own.foldl (fun t p => portSilent p t) s))
  let s2 := if die = 3 then protStop 0 s1 else s1
  if s.dev.state = .factoryTest ∨ s.dev.state = .boot ∨ s.dev.state = .powerDown then s2 else addTrigger .blockedFault 0x30 0 s2

def fatalMsg (die block kind addr : Nat) (d : List Nat) (injected : Bool) (s : State) : FaultMsg :=
  { die := die, block := block, kind := kind, cls := .fatal, addr := addr, tick := s.tick.index, d := d, injected := injected, interim := false }

/-- A fatal fault, with details. -/
def fatalWith (die block kind addr : Nat) (d : List Nat) (s : State) : State :=
  if !dieOk s die ∨ s.dev.state = .powerDown then s
  else
    let m := fatalMsg die block kind addr d false s
    fatalReact die (fatalLatch m (post m s))

def fatalFault (die block kind addr : Nat) (s : State) : State := fatalWith die block kind addr [] s

/-! ### Give-way events (R511, R512) -/

/-- PREC_Pn for an episode of `n` ticks. -/
def precEvent (e : Episode) (n : Nat) (interim : Bool) (s : State) : State :=
  post { die := 0, block := 0x008, kind := 0x10 + (e.rank - 2), cls := .notice, addr := e.obj, tick := s.tick.index,
         d := [e.dest, n, e.cause, e.first % 2 ^ 32, min e.items 0xFFFFFFFF], injected := false, interim := interim } s

/-- Episodes that did not give way in the tick now ending are over. -/
def episodesEnd (s : State) : State :=
  let excess := s.fault.episodes.filter (fun e => e.last != s.tick.index)
  excess.foldl (fun t e => precEvent e (e.last + 1 - e.first) false t)
    (s.onFault (fun f => { f with episodes := f.episodes.filter (fun e => e.last == s.tick.index) }))

/-- The highest rank of the work that holds the management processor (R512). Beside mailbox work of rank P5 the state holds one kind of
firmware work, the export of records at rank P4; other work of the firmware takes no time in this model (assumption 115). -/
def processorRank (s : State) : Nat := if s.mb.pend.any (fun p => p.opcode == 0x0B06) then 4 else 5

/-- A command in hand for more than 1 ms has no response yet: the mailbox gives way at rank P5, in one episode of one command
that lasts until the response (R94, R511, R512). -/
def lateAnswer (s : State) : State :=
  match s.mb.inHand with
  | none => s
  | some f =>
    if (s.tick.index - f.since) * s.tick.len ≤ 1000 then s
    else if s.fault.episodes.any (fun e => e.cause == 7 && e.obj == f.mb) then
      s.onFault (fun x => { x with
        episodes := x.episodes.map (fun e => if e.cause == 7 && e.obj == f.mb then { e with last := s.tick.index } else e) })
    else giveWay 0x07 f.mb 5 (processorRank s) s

/-! ### Roles (R108, Table 4.13) -/

/-- A change of role: the command log and the event of Table 19.3. -/
def setRole (r : Role) (s : State) : State :=
  if s.dev.role = r then s
  else
    let s1 := s.onDev (fun d => { d with role := r })
    raise 0 0x001 0x02 .notice 0 [] (pairsRecheck (logAdd 0 r.code 0 0xFF s1))

/-! ### Event-queue registers (R503, R504) -/

def evqCtrlWrite (value : Word32) (s : State) : State := if barOn s then s.onFault (fun f => { f with ctrl := value &&& 3 }) else s

/-- A head outside the present head to the tail is ignored. -/
def evqHeadWrite (value : Word32) (s : State) : State :=
  let h : Word16 := value.setWidth 16
  if barOn s ∧ (h - s.fault.head).toNat ≤ (s.fault.tail - s.fault.head).toNat then s.onFault (fun x => { x with head := h }) else s

end Sys2Proof.Machine
end

