-- ==== Sys2Proof/Machine/RedOps.lean ====
section
/-! DEFINITION. Shared operations of redundant pair operation (chapter 20): output comparison, installation, silence,
evidence, and the boundary at which roles change. -/

namespace Sys2Proof.Machine

open Sys2Proof

def redEvent (kind : Nat) (cls : FClass) (addr : Nat) (d : List Nat) (s : State) : State := raise 0 0x041 kind cls addr d s

/-- Commands of the redundancy role: RED_PAIR_FORM, RED_ROLE_HANDOVER, RED_UNFENCE. -/
def redPending (op : Nat) (s : State) : Bool := s.mb.pend.any (fun p => p.opcode == op && p.outcome.isNone)

def endRed (op : Nat) (st : Status) (r : Bytes) (s : State) : State := endPending (fun p => p.opcode == op) st r s

/-! ### Results (Table 20.8) -/

def formResult (s : State) (mask : Nat) : Bytes := le 1 s.dev.role.code ++ le 1 0 ++ le 2 mask ++ le 4 (configDigest s)

def handResult (s : State) (b : Nat) : Bytes := le 1 s.dev.role.code ++ le 3 0 ++ le 8 b

/-- The formation or unfencing under way, while its command has no outcome. -/
def formNow (s : State) : Option (Nat × FormStep) := s.red.form.filter (fun f => redPending f.1 s)

/-! ### TICK messages and the comparison (R524, R525, R527) -/

/-- The domains that this unit provides (Table 20.3). -/
def domainsMask (s : State) : Nat := maskOf (domains s)

/-- Nanoseconds from a tick boundary to its output crossing point (Table 5.2). -/
def outNs (t : Nat) : Nat := if t = 1 then 300 else if t = 2 then 880 else 2880

/-- The first boundary at least 1 µs after an instant `ns` after the last one (R527). -/
def boundaryAfter (s : State) (ns : Nat) : Nat := s.tick.index + (ns + 1000 + 1000 * s.tick.len - 1) / (1000 * s.tick.len)

/-- The comparison runs: paired, partner heard, role ACTIVE or STANDBY, no installation under way (R528, R531, R534). -/
def comparing (s : State) : Bool := s.dev.paired && !s.red.silent && (formNow s).isNone && (s.dev.role == .active || s.dev.role == .standby)

/-- The decision record of this tick: whole-cell changes, designated cells, histories and modes (R525). -/
def decisionRecord (s : State) (changes : List (Nat × Nat)) : XlRecord :=
  { cells := changes,
    desig := (arms s).map (fun a => (a, (armGet s a).desig.getD 0xFFFF, (genGet s a).baseIn, (genGet s a).bpolNeg, (genGet s a).carry)),
    loops := (s.loop.ch.filter (fun e => e.2.mode != .off)).map (fun e => (e.1, e.2.h1, e.2.mode.code)) }

/-- Whole-cell changes that one TICK message carries: 2,941 bytes per µs leave room the spec does not put in entries
(assumption 71), so the budget is free in T. -/
def recordRoom (s : State) : Nat := Config.openCode 0x410C s.tick.len

/-- Whole-cell changes of the tick: cells whose state differs from the one before the output crossing. -/
def cellChanges (old new : State) : List (Nat × Nat) :=
  (rostered new).filterMap (fun c =>
    let x := (aieCell new c).present
    if (aieCell old c).present = x then none else some (c, x.code))

/-- Send TICK: own digests are kept for the comparison; changes beyond the budget are deferred (R519, R525). A standby that computed without
the active's set leaves the digests out, so that neither unit compares the tick (R524; DEDUCED, assumption 176). -/
def sendTick (old s : State) : State :=
  if !(s.dev.paired && s.red.up) then s
  else
    let label := s.tick.index - 1
    let all := s.red.deferred ++ cellChanges old s
    let n := recordRoom s
    let now := if s.dev.role = .active then all.take n else []
    let rest := if s.dev.role = .active then all.drop n else []
    let short := !rest.isEmpty && firstIn s.red.shortTick s.tick.index
    let counts := s.dev.role != .standby || s.red.used
    let m : XlTick := {
      index := label, role := s.dev.role.code, state := s.dev.state.code, digests := if counts then digests s else [],
      record := decisionRecord s now }
    let s1 := xlSend (.tick m) (s.onRed (fun r => { r with
      own := some (label, digests s, counts && decide (r.since ≤ label)), deferred := rest,
      shortTick := if short then some s.tick.index else r.shortTick }))
    when short (redEvent 0x0C .notice (((rest.head?.map (·.1)).bind (fun c => armOf (cellGet s c))).getD 0) [rest.length]) s1

/-- One domain of a compared tick, compared `ns` after the last boundary. -/
def compareDomain (ns label d : Nat) (differs : Bool) (s : State) : State :=
  let run := tget 0 s.red.runs d
  if !differs then s.onRed (fun r => { r with runs := tset r.runs d 0 })
  else
    let s1 := s.onRed (fun r => { r with
      runs := tset r.runs d (run + 1), mismatches := inc32 r.mismatches, last := some (d, label) })
    let s2 := when (run = 0) (redEvent 0x02 .notice d [label]) s1
    if s.dev.role = .active ∧ s.red.k ≤ run + 1 ∧ s.red.dispute.isNone then
      let b := boundaryAfter s ns
      redEvent 0x03 .notice d [b] (xlSend (.state true s.dev.state.code 0 b) (s2.onRed (fun r => { r with dispute := some (d, b) })))
    else s2

/-- Compare the partner's digests of a tick with the own ones, where both are held, `ns` after the last boundary. A TICK of a later tick
waits for the own output crossing; one of an earlier tick came too late, and its tick is uncompared. -/
def compareTick (ns : Nat) (s : State) : State :=
  match s.red.theirs, s.red.own with
  | some m, some (label, own, counts) =>
    if label < m.index then s
    else
      let s0 := s.onRed (fun r => { r with theirs := none })
      if m.index < label ∨ !comparing s ∨ !counts then s0
      else
        (own.filter (fun e => bit s.red.mask e.1)).foldl (fun t e =>
          match m.digests.find? (fun x => x.1 == e.1) with
          | some x => compareDomain ns label e.1 (x.2 != e.2) t
          | none => t) s0
  | _, _ => s

/-! ### Installation (R525) -/

/-- A standby takes the active's decisions before its input crossing. -/
def installRecord (s : State) : State :=
  match s.red.record with
  | none => s.onRed (fun r => { r with installed := none })
  | some m =>
    let s0 := s.onRed (fun r => { r with record := none, installed := some m })
    let s1 := m.cells.foldl (fun t c => aieUpd c.1 (fun x => { x with present := SwState.ofCode c.2 }) t) s0
    let s2 := m.desig.foldl (fun t e =>
      genUpd e.1 (fun g => { g with baseIn := e.2.2.1, bpolNeg := e.2.2.2.1, carry := e.2.2.2.2 })
        (armUpd e.1 (fun x => { x with desig := if e.2.1 = 0xFFFF then none else some e.2.1 }) t)) s1
    let mode := fun (n : Nat) (old : LMode) =>
      ([LMode.off, .track, .run, .hold, .fbHold, .fbRamp, .fbBlock].find? (fun x => x.code == n)).getD old
    m.loops.foldl (fun t e => loopUpd e.1 (fun c => { c with h1 := e.2.1, mode := mode e.2.2 c.mode }) t) s2

/-- The measurement set a standby computes from: the active's when it has arrived (R526). Units without an MPR have no set to wait for. -/
def takeMset (s : State) : State :=
  if !mprOk s then s.onRed (fun r => { r with used := true, mset := [] })
  else if !(s.dev.paired && s.dev.role == .standby && !s.red.silent) then s.onRed (fun r => { r with used := false, mset := [] })
  else
    match s.red.mset.find? (fun e => e.1 == s.meas.inTick) with
    | some (t, set) =>
      (s.onMeas (fun m => { m with
        inSet := set.foldl (fun x c => tset x c.ch { fine := c.fine, coarse := c.coarse, flags := c.flags, age := c.age }) m.inSet })).onRed
        (fun r => { r with used := true, mset := r.mset.filter (fun e => t < e.1) })
    | none =>
      let first := firstIn s.red.lateTick s.tick.index
      let n := if first then 1 else s.red.lateWin + 1
      when first (redEvent 0x0B .notice 0 [n]) (s.onRed (fun r => { r with
        used := false, lateSets := inc32 r.lateSets, lateWin := n, lateTick := if first then some s.tick.index else r.lateTick }))

/-- On a standby the crossing journal names the source (Table 21.3). -/
def useMset (s : State) : State :=
  let t := takeMset s
  if s.dev.paired && s.dev.role == .standby && mprOk s then journal 7 0 0 (b2n t.red.used) 0 (t.meas.inTick % 2 ^ 32) t else t

/-! ### Silence and evidence (R531, R532) -/

def partnerLost (cause : Nat) (s : State) : State :=
  if s.red.silent then s
  else redEvent 0x06 .notice 0 [cause] (s.onRed (fun r => { r with silent := true, good := 0, theirs := none, record := none, mset := [] }))

/-- At an input crossing: TICK for two ticks before is missing or not. -/
def listen (s : State) : State :=
  if !s.dev.paired then s
  else
    let ok := s.red.heard.any (fun t => s.tick.index ≤ t + 2)
    if ok then s.onRed (fun r => { r with missed := 0 })
    else
      let n := s.red.missed + 1
      let s1 := s.onRed (fun r => { r with missed := n, good := 0 })
      if 4 ≤ n then partnerLost (b2n (!s.red.up)) s1 else s1

/-- At least half of the fresh reports show the unit's own interface. -/
def evidenceNow (s : State) : Bool :=
  let l := (rostered s).filter (fun c => (cellGet s c).fresh && (portGet s (c / 128)).state == .inService)
  !l.isEmpty && l.length ≤ 2 * (l.filter (fun c => (cellGet s c).report.getLsbD 39 == s.red.onB)).length

/-- Cell evidence at a crossing: eight in a row name the next boundary for promotion once the partner is silent. The crossings before the
partner counts as silent are among the eight (the worked example of R532). -/
def gather (s : State) : State :=
  if !(s.dev.paired && s.dev.role == .standby) then s.onRed (fun r => { r with evidence := 0 })
  else
    let n := if evidenceNow s then s.red.evidence + 1 else 0
    s.onRed (fun r => { r with
      evidence := n, promote := if 8 ≤ n ∧ r.silent ∧ r.promote.isNone then some (s.tick.index + 1) else r.promote })

/-! ### Promotion and hand-over (R532, R533) -/

/-- The discipline starts in ACQUIRE with a first pulse (R423). -/
def restartTime (s : State) : State := s.onTime (fun x => { x with dstate := .acquire, first := true })

/-- A standby becomes ACTIVE: station time that followed the partner resumes in ACQUIRE with a first pulse (R532). The rule says so of a
promotion; a standby that takes the role in a hand-over or by a decision has no active to follow either (DEDUCED, assumption 176). -/
def becomeActive (s : State) : State :=
  setRole .active (when (followsTime s && s.time.cfg.mode) restartTime s)

/-- Promotion to ACTIVE. The LINK PLL's slew to REFCLK has no register: the increments stay as last steered (assumption 59). -/
def promoteNow (cause : Nat) (s : State) : State :=
  let s1 := s.onRed (fun r => { r with promote := none, take := none, promotions := min (r.promotions + 1) 65535, evidence := 0 })
  redEvent 0x08 .notice 0 [cause] (becomeActive s1)

/-- The unit takes role FENCED: its ports fall silent, and it goes to STANDBY with cause 0x22 from DEBLOCKED and SAFE_STOP. When
the partner does not hold role ACTIVE, one BLOCK message goes out on each port first (R530). -/
def fenceNow (partnerActive : Bool) (s : State) : State :=
  let s1 := if partnerActive then s else onPorts (fun p t => sendBlock p 0x22 1 t) s
  let s2 := (allPorts s1).foldl (fun t p => portSilent p t) (setRole .fenced s1)
  if running s then addTrigger .standby 0x22 0 s2 else s2

/-- A hand-over named for the boundary now opened. It does not take place when a dispute starts there (Table 20.6), nor when the unit no
longer holds the role that the change of Table 4.13 starts from (R108). A reset request whose hand-over ends so keeps waiting, with no
block named, until the unit stops running or is FENCED (DESIGN CHOICE, assumption 113: Table 20.6 ends the hand-over and says nothing of
the reset). -/
def rolesBoundary (s : State) : State :=
  let k := s.tick.index
  match s.red.handover with
  | some (b, takes) =>
    if k < b then s
    else
      let s0 := s.onRed (fun r => { r with handover := none })
      if s.red.dispute.any (fun d => decide (d.2 ≤ k)) ∨ s.dev.role ≠ (if takes then Role.standby else Role.active) then
        endRed 0x1002 .conflict (handResult s k) s0
      else
        let t := if takes then becomeActive s0 else fenceNow true s0
        endRed 0x1002 .ok (handResult t k) (redEvent 0x09 .notice 0 [k] t)
  | none => s

/-- A promotion whose boundary has come. A RED_ROLE_HANDOVER with action 1 that still waits when cell evidence promotes the unit has what it
asked for and ends OK (DESIGN CHOICE, assumption 176). -/
def promoteDue (s : State) : State :=
  let k := s.tick.index
  let due := fun (b : Option Nat) => b.any (fun x => decide (x ≤ k))
  if !(due s.red.promote || due s.red.take) then s
  else if s.dev.role = .standby ∧ s.red.silent then
    let t := promoteNow (b2n (!due s.red.promote)) s
    if s.red.take.isSome then endRed 0x1002 .ok (handResult t k) t else t
  else
    let t := s.onRed (fun r => { r with promote := r.promote.filter (fun x => k < x), take := r.take.filter (fun x => k < x) })
    if due s.red.take then endRed 0x1002 .conflict (handResult s k) t else t

/-- K and the mask of RED_COMPARE_CONFIG come into force (R538). -/
def confBoundary (s : State) : State :=
  match s.red.conf with
  | some (k, m) => s.onRed (fun r => { r with k := k, mask := m, conf := none })
  | none => s

/-- The pair ends: a reset, or a formation that failed. -/
def endForm (op : Nat) (st : Status) (r : Bytes) (s : State) : State :=
  endRed op st r (s.onRed (fun x => { x with form := none }))

end Sys2Proof.Machine
end

