-- ==== Sys2Proof/Machine/DeviceOps.lean ====
section
/-! DEFINITION. Shared operations of the device state (chapter 4), of resets and of the boot (chapter 3). -/

namespace Sys2Proof.Machine

open Sys2Proof

def sysEvent (kind : Nat) (d : List Nat) (s : State) : State := raise 0 0x001 kind .notice 0 d s

/-! ### Transitions (Table 4.12) -/

/-- The rows of Table 4.12, by cause code. -/
def legalTrigger (old new : DevState) (cause : Nat) : Bool :=
  match cause with
  | 0x01 => old == .powerDown && new == .boot
  | 0x02 => old == .boot && new == .config
  | 0x03 => old != .powerDown && old != .boot && new == .boot
  | 0x10 => (old == .config && new == .standby) || (old == .standby && (new == .config || new == .deblocked)) ||
      (old == .deblocked && new == .standby)
  | 0x11 => old == .deblocked && new == .safeStop
  | 0x12 => old == .safeStop && new == .standby
  | 0x13 => old == .blockedFault && (new == .standby || new == .config)
  | 0x14 => old == .config && new == .replay
  | 0x15 => old == .replay && new == .config
  | 0x16 => old == .config && new == .factoryTest
  | 0x20 => old == .deblocked && new == .safeStop
  | 0x21 => old == .safeStop && new == .blockedFault
  | 0x22 => (old == .deblocked || old == .safeStop) && new == .standby
  | 0x30 => (old == .config || old == .standby || old == .deblocked || old == .safeStop || old == .replay) && new == .blockedFault
  | 0x31 => (old == .standby || old == .deblocked || old == .safeStop) && new == .blockedFault
  | 0x32 => (old == .deblocked || old == .safeStop) && new == .blockedFault
  | _ => false

/-- Result of a SYS_STATE_REQUEST: unmet preconditions and a tick (Table 4.14). -/
def requestResult (mask tick : Nat) : Bytes := le 4 mask ++ le 4 tick

/-- What a new device state means for one PENDING command (R98, R111): in drive mode a request to STANDBY takes the device into SAFE_STOP,
and has then taken effect. -/
def pendingIn (drive : Bool) (dest : DevState) (cause tick : Nat) (p : PendingCmd) : PendingCmd :=
  if p.outcome.isSome then p
  else if p.opcode = 0x0103 then
    if p.arg = dest.code then { p with outcome := some (.ok, requestResult 0 tick, tick) }
    else if p.took then { p with outcome := some (.conflict, requestResult 0 tick, tick) }
    else if drive ∧ dest = .safeStop ∧ cause = 0x11 ∧ p.arg = 3 then { p with took := true }
    else if p.legal.contains dest then p
    else { p with outcome := some (.wrongState, le 2 (maskOf (p.legal.map DevState.code)) ++ le 2 0 ++ le 4 tick, tick) }
  else if p.took || p.legal.contains dest then p
  else { p with outcome := some (.wrongState, le 2 (maskOf (p.legal.map DevState.code)), tick) }

/-- Result of a REC_REPLAY_START that has run (Table 21.11). -/
def replayResult (r : Replay) (outcome : Nat) : Bytes :=
  let f := r.first.getD (0, 0xFFFF)
  le 1 outcome ++ le 3 0 ++ le 8 (r.image + 1) ++ le 8 r.done ++ le 8 f.1 ++ le 2 f.2 ++ le 2 0

/-- A replay ends when the device leaves REPLAY: the saved models come back, REC_REPLAY_START gets its final response, REC_REPLAY_END
is raised; outcome 5 after a fatal fault (R556). A replay that was only armed is dropped. -/
def replayLeave (cause : Nat) (s : State) : State :=
  match s.galley.replay with
  | none => s
  | some r =>
    let s1 := s.onGalley (fun g => { g with replay := none, journalIn := [], lateIn := false })
    match r.saved with
    | none => s1
    | some m =>
      let out := if cause = 0x30 then 5 else r.outcome.getD 1
      recEvent 0x08 r.slot [out, r.done]
        (endPending (fun p => p.opcode == 0x1104) .ok (replayResult r out) (installImage m s1))

/-- Shadow sets of a mask, as numbers and as objects held. -/
def setsOf (m : BitVec 9) : List Nat := (List.range 9).filter m.getLsbD

def setObjs (m : BitVec 9) : List Obj := (setsOf m).map Obj.shadowSet

/-- The TICK_COMMIT of an armed commit. -/
def ofCommit (c : Commit) (p : PendingCmd) : Bool := p.opcode == 0x0202 && p.arg == c.boundary && p.objs == setObjs c.mask

/-- A commit whose command has ended is armed no longer (R98). -/
def dropCommits (s : State) : State :=
  s.onTick (fun t => { t with commits := t.commits.filter (fun c => s.mb.pend.any (fun p => ofCommit c p && p.outcome.isNone)) })

/-- A tick length whose TICK_CONFIG has ended does not come into force (R98, R128). -/
def dropNewLen (s : State) : State :=
  s.onTick (fun t => { t with newLen := t.newLen.filter (fun _ => s.mb.pend.any (fun p => p.opcode == 0x0201 && p.outcome.isNone)) })

/-- A health change whose CELL_HEALTH_SET has ended does not come about, nor do its PERM_BYPASS words leave (R98, R204). -/
def dropHealth (s : State) : State :=
  let live := fun (b cid : Nat) => b ≤ s.tick.index || s.mb.pend.any (fun p => p.opcode == 0x0307 && p.arg == cid && p.outcome.isNone)
  s.onLink (fun l => { l with
    healthAt := l.healthAt.filter (fun e => live e.1 e.2.1),
    ports := l.ports.map (fun x => (x.1, { x.2 with perm := x.2.perm.filter (fun e => live e.2.1 (128 * x.1 + e.1)) })) })

/-- What entering a state brings beyond the state itself: loops to TRACK (Table 10.5), the insertion engine and unblocked
frames at DEBLOCKED (R140, R223), ports down in CONFIG and REPLAY (Table 6.15). -/
def stateEffects (dest : DevState) (cause : Nat) (s : State) : State :=
  let s0 := if dest = .replay then s else replayLeave cause s
  let s1 := if dest = .deblocked ∨ dest = .safeStop ∨ dest = .replay then s0 else loopsTrack s0
  let s2 := if dest = .deblocked then
      aieEnter (s1.onLink (fun l => { l with ports := l.ports.map (fun e => (e.1, { e.2 with blocked := false })) }))
    else if dest = .safeStop then s1
    else aieLeave s1
  if dest = .config ∨ dest = .replay then allPortsDown cause s2 else s2

/-- Requests for DEBLOCKED fall away unless the device stands in STANDBY. -/
def dropDeblock (s : State) : State :=
  if s.dev.state = .standby then s
  else s.onDev (fun d => { d with triggers := d.triggers.filter (fun t => t.dest != .deblocked) })

/-- A transition of the device state takes effect (R105). A FENCED unit's own transitions are not mirrored, nor does it mirror its partner's:
it takes the active's state when it rejoins (R534; DEDUCED, assumption 176). -/
def transition (dest : DevState) (cause : Nat) (s : State) : State :=
  let old := s.dev.state
  let tick := s.tick.index
  let s1 := s.onDev (fun d => { d with prev := old, state := dest, cause := cause, transTick := tick })
  let s2 := sysEvent 0x01 [pairWord old.code dest.code, cause] (logAdd 0 dest.code cause 0xFF s1)
  let s3 := safeHook old dest cause (stateEffects dest cause s2)
  let s4 := s3.onMb (fun m => { m with pend := m.pend.map (pendingIn (driveMode s) dest cause tick) })
  let s5 := pairsRecheck (dropDeblock (dropHealth (dropNewLen (dropCommits s4))))
  if cause = 0x03 ∨ cause = 0x22 ∨ s.red.silent ∨ s.dev.role = .fenced then s5 else xlSend (.state false dest.code cause tick) s5

/-- A trigger that is not legal where it arrives: dropped, a mirrored one with RED_MIRROR (R105, R522). -/
def dropTrigger (t : Trigger) (s : State) : State :=
  when (t.mirror && !(t.dest == s.dev.state && t.cause == s.dev.cause)) (redEvent 0x0D .notice 0 [pairWord t.dest.code t.cause]) s

/-- Insert by falling cause code: the higher code decides (R105). -/
def insTrigger (t : Trigger) : List Trigger → List Trigger
  | [] => [t]
  | u :: r => if u.cause < t.cause then t :: u :: r else u :: insTrigger t r

/-- A trigger legal in the present state; FACTORY_TEST only with FTEST latched high (R47). -/
def triggerLegal (s : State) (t : Trigger) : Bool :=
  legalTrigger s.dev.state t.dest t.cause && (t.dest != .factoryTest || s.power.straps.ftest)

/-- Triggers in turn: the first legal one acts, those still legal in the new state wait for the next boundary. -/
def takeTriggers (acted : Bool) (s : State) : List Trigger → State
  | [] => s
  | t :: r =>
    if !triggerLegal s t then takeTriggers acted (dropTrigger t s) r
    else if acted then
      takeTriggers acted (s.onDev (fun d => { d with triggers := d.triggers ++ [{ t with boundary := s.tick.index + 1 }] })) r
    else takeTriggers true (transition t.dest t.cause s) r

/-- The triggers due at this boundary, those to DEBLOCKED apart from the others. -/
def dueTrigger (s : State) (deblock : Bool) (t : Trigger) : Bool := t.boundary ≤ s.tick.index && (t.dest == .deblocked) == deblock

def actTriggers (deblock : Bool) (s : State) : State :=
  let due := (s.dev.triggers.filter (dueTrigger s deblock)).foldl (fun l t => insTrigger t l) []
  takeTriggers false (s.onDev (fun d => { d with triggers := d.triggers.filter (fun t => !dueTrigger s deblock t) })) due

/-! ### Reset requests (R72 to R74) -/

/-- Log the request; in the hand-over, block and stop cases of Table 3.10 start that phase. -/
def startReset (cold : Bool) (source : Nat) (s : State) : State :=
  let s1 := sysEvent 0x03 [if cold then 2 else 1, source] (s.onPower (fun p => { p with resetReq := some ⟨cold, source⟩ }))
  if !running s ∨ s.dev.role = .standby ∨ s.dev.role = .fenced then s1
  else if s.dev.paired ∧ s.dev.role = .active ∧ !s.red.silent ∧ s.red.pRole = 1 then
    xlSend (.handover (s.tick.index + 1)) (s1.onRed (fun r => { r with handover := some (s.tick.index + 1, false) }))
  else if s.dev.state = .deblocked then
    if driveMode s then addTrigger .safeStop 0x11 0 s1 else addTrigger .standby 0x10 0 s1
  else s1

/-- A reset request arrives; the second part says that it is not discarded (R74). A request stands from its arrival until the reset
starts, in the states without a hand-over or block phase too, where up to 10 ms pass (Table 3.10): a cold request in that time turns a
warm one into a cold one, as in those phases (DESIGN CHOICE, assumption 112: the rule names the phases only). -/
def requestReset (cold : Bool) (source : Nat) (s : State) : State × Bool :=
  match s.power.resetReq with
  | none => (startReset cold source s, true)
  | some r =>
    if cold ∧ !r.cold then
      (sysEvent 0x03 [2, source] (s.onPower (fun p => { p with resetReq := some ⟨true, source⟩ })), true)
    else (sysEvent 0x04 [] s, false)

/-- The hand-over, block or stop phase of a request is over (Table 3.10). -/
def resetMay (s : State) : Bool :=
  s.power.resetReq.isSome && s.dev.state != .boot && s.dev.state != .powerDown &&
    (!running s || s.dev.role == .standby || s.dev.role == .fenced)

/-! ### Crossings of clock domains (R570) -/

/-- A warm reset flushes the SYS crossings to TIME, MEM and AON from their CORE side: 0x0B, 0x0C, 0x0E, 0x0F, 0x10. -/
def cdcWarm (s : State) : State := [(0x0B, 1), (0x0C, 0), (0x0E, 0), (0x0F, 1), (0x10, 0)].foldl (fun t e => cdcFlush e.1 e.2 t) s

/-! ### What a reset leaves (Table 3.8) -/

/-- The AON facts, the straps and what else no reset of the firmware touches. -/
def keptPower (p : Power) : Power :=
  { p with
    bootDone := [], resetReq := none, btnArmed := false, btnPress := false, dramA := 0, dramB := 0, dieFailed := [], sysFailed := false,
    hiZ := true, hostUp := false, warmBoot := false }

/-- The MRAM contents and battery facts of the safety functions, the loop monitor's last samples among them (R63, R467); the rest at its
reset values. -/
def coldSafe (x : SafeSt) : SafeSt :=
  { confSw := x.confSw, confCrc := x.confCrc, sealSt := x.sealSt, sealBase := x.sealBase, spb := x.spb, closed := x.closed }

/-- Fatal sources that a cold reset leaves: those only nPOR clears, and rails still low (R508). What TEST_FAULT_INJECT raised ends with the
reset that ends the factory test (R514). -/
def coldSources (s : State) : List FatalSrc :=
  s.dev.sources.filter (fun x => !x.injected && (x.nporOnly || (x.block == 0x002 && x.kind == 0x01 && x.present)))

/-- Fatal sources that a warm reset leaves: all of them, but that out of FACTORY_TEST it ends FATAL (R105) save for a source that even a
cold reset leaves (assumption 110). -/
def warmSources (s : State) : List FatalSrc := if s.dev.state = .factoryTest then coldSources s else s.dev.sources

/-- The units that MRAM remembers (chapters 13 and 23). -/
def coldMeas (m : MeasSt) : MeasSt :=
  { ({} : MeasSt) with
    units := m.units.map (fun e => (e.1, { ({} : MUnit) with phys := e.2.phys, removed := e.2.removed })),
    spareBad := m.spareBad, spareFor := m.spareFor }

/-- Spares in service are MRAM facts: a port's spare use, a tile's assignment, loop lanes (R578). -/
def keptPorts (l : LinkSt) : Tbl Port := l.ports.map (fun e => (e.1, { ({} : Port) with spare := e.2.spare }))

def keptTiles (t : TileAll) : TileAll :=
  { dies := t.dies.map (fun e => (e.1, { ({} : DieTiles) with
      tiles := e.2.tiles.map (fun x => (x.1, { ({} : TileSt) with logical := x.2.logical, retired := x.2.retired })) })) }

def keptSpare (x : SpareSt) : SpareSt :=
  { ({} : SpareSt) with
    res := x.res.map (fun e => (e.1, { e.2 with corr := 0, bad := 0, corrAt := [], badAt := [] })), thr := x.thr, waiting := x.waiting,
    rows := x.rows, badA := x.badA, badB := x.badB, badBlocks := x.badBlocks, ddrRows := x.ddrRows, sectors := x.sectors, given := x.given,
    thermal := x.thermal.map (fun e => (e.1, { ({} : Thermal) with ms := e.2.ms, hotMs := e.2.hotMs })) }

/-- The BLOCK message that a reset's way to DOWN sends goes on through the reset (R162). -/
def lastMsgs (s : State) (l : LinkSt) : LinkSt :=
  { l with ports := l.ports.map (fun e => (e.1, { e.2 with
      msg := (portGet s e.1).msg, line := (portGet s e.1).line, scr := (portGet s e.1).scr })) }

/-- The state that nPOR and a cold reset leave, in BOOT: MRAM, the battery domain, the cells outside and what the model keeps for
itself. -/
def hardReset (s : State) : State :=
  { ({} : State) with
    pending := s.pending, freeCtr := s.freeCtr, host := s.host, cells := s.cells, power := keptPower s.power,
    aie := { records := s.aie.records, saved := s.aie.saved }, loop := { lanes := s.loop.lanes }, tiles := keptTiles s.tiles,
    link := { ports := keptPorts s.link }, meas := coldMeas s.meas, prot := { log := s.prot.log }, safe := coldSafe s.safe,
    fault := { colCopy := s.fault.colCopy }, spare := keptSpare s.spare, dev := { variant := s.dev.variant } }

/-- The change to BOOT: an entry of the command log, which the reset has cleared, and the event (R100, R105). -/
def bootEntered (old : DevState) (cause : Nat) (s : State) : State :=
  sysEvent 0x01 [pairWord old.code 1, cause] (logAdd 0 1 cause 0xFF s)

/-- A cold reset carried out by the firmware: FATAL stays while a source survives. -/
def coldReset (s : State) : State :=
  let src := coldSources s
  let h := hardReset s
  let s1 := { h with
    dev := { h.dev with
      prev := s.dev.state, cause := 0x03, fatal := !src.isEmpty, sources := src, reached := s.dev.reached },
    power := { h.power with coldBoot := true }, link := lastMsgs s h.link,
    fault := { h.fault with cause := if src.isEmpty then 0 else s.fault.cause } }
  bootEntered s.dev.state 0x03 s1

/-- The measurement converters run through a warm reset; the shadow set and the firmware's jobs do not. -/
def warmMeas (m : MeasSt) : MeasSt := { m with chanNew := [], seqNew := [], jobs := [], tests := [], testOn := false }

/-- The engine runs through a warm reset; a response that was to free a segment is not written any more (R382, R389). -/
def warmAcq (a : AcqSt) : AcqSt := { a with ch := a.ch.map (fun e => (e.1, { e.2 with frees := [] })) }

def warmNet (x : NetSt) : NetSt :=
  { x with
    up := [], svNew := [], mapNew := [], subNew := [], pubNew := [], svRun := [], mapRun := [], subRun := [], pubRun := [], copies := [],
    ptp := x.ptp.map (fun e => (e.1, { e.2 with state := 0 })), dma := x.dma.map (fun e => (e.1, { e.2 with queue := [] })) }

/-- The safety core resets, with an STO latch kept; Mordant suspends its watch (R483, R492). -/
def warmSafe (mpr : Bool) (x : SafeSt) : SafeSt :=
  { coldSafe x with
    sw := x.sw, swRead := x.swRead, swAcc := x.swAcc, swReads := x.swReads, ramp := x.ramp, mcfg := x.mcfg,
    mLatch := x.mLatch, sf := if x.sf = .sto then .sto else .idle, causes := if x.sf = .sto then x.causes else 0, suspend := mpr }

/-- Latches that the MPR keeps; parameters return to their defaults, under which no comparator is enabled, so none is active (R248, R251,
R253). -/
def warmPwm (x : PwmSt) : PwmSt :=
  { ({} : PwmSt) with
    latched := x.latched, blockedBy := x.blockedBy, first := x.first,
    pairs := x.pairs.map (fun e => (e.1, { ({} : PwmPair) with latch := e.2.latch })) }

/-- DRAM, and with it the freezes and the ring, is kept; the record has a hole (R552). -/
def warmGalley (g : GalleyRec) : GalleyRec :=
  { ({} : GalleyRec) with cfg := g.cfg, ring := g.ring, dec := g.dec, slots := g.slots, images := g.images, holeNext := true }

/-- A warm reset carried out by the firmware. Converter tick time runs on, so boundary k stays where it equals 2k µs: from an odd
microsecond at T = 1 the first tick is the shorter by what has passed of it (R116). -/
def warmReset (s : State) : State :=
  let h := hardReset s
  let old := s.dev.state
  let src := warmSources s
  let s1 : State := { h with
    dev := { s.dev with
      state := .boot, prev := old, cause := 0x03, transTick := s.nowUs / 2, role := .active, paired := false, triggers := [], capsValid := false,
      heartbeat := 0, aliveRun := false, alive := false, fatal := !src.isEmpty, sources := src }
    power := { s.power with resetReq := none, bootDone := [3, 7], warmBoot := true, coldBoot := false, btnArmed := false, btnPress := false }
    mb := { ({} : Mailboxes) with blocks := s.mb.blocks, msix := s.mb.msix }
    tick := { ({} : TickSt) with index := s.nowUs / 2, past := s.tick.past + s.nowUs % 2 }
    fault := { s.fault with cause := if src.isEmpty then 0 else s.fault.cause }, time := s.time, acq := warmAcq s.acq, prot := { s.prot with shadow := none }, meas := warmMeas s.meas, net := warmNet s.net,
    safe := warmSafe (mprOk s) s.safe, pwm := warmPwm s.pwm, galley := warmGalley s.galley,
    link := { lastMsgs s h.link with linkTime := s.link.linkTime }
    spare := { keptSpare s.spare with
      res := s.spare.res
      mon := s.spare.mon, thermal := s.spare.thermal, cdc := s.spare.cdc.filter (fun e => e.1 / 65536 == 3) } }
  cdcWarm (bootEntered old 0x03 s1)

/-- What the final response of a command says as a reset starts (R99): TIMEOUT; but where its outcome was decided before, and only the
response was still to be written, that outcome (DESIGN CHOICE, assumption 111: the rule does not name this case). -/
def resetOutcome (p : PendingCmd) (tick : Nat) : Status × Bytes × Nat := p.outcome.getD (.timeout, [], tick)

/-- A warm or cold reset starts: commands under way end with TIMEOUT, what was fetched and had not started is answered BUSY (R99). -/
def resetAnswers (s : State) : State :=
  let s1 := s.mb.pend.foldl (fun t p =>
    let o := resetOutcome p s.tick.index
    release p.mb p.tag p.seq (respond ⟨p.mb, p.opcode, p.tag, p.seq, o.1, true, o.2.2, o.2.1⟩ t)) s
  let s2 := s1.onMb (fun m => { m with pend := [] })
  match s2.mb.inHand with
  | some f => (respond ⟨f.mb, f.opcode, f.tag, f.seq, .busy, true, s2.tick.index, []⟩ s2).onMb (fun m => { m with inHand := none })
  | none => s2

/-- The reset starts: the answers, the ports go down with cause 0x03 (Table 6.15), wear is saved (R217). -/
def resetStart (s : State) : State :=
  match s.power.resetReq with
  | none => s
  | some r =>
    let s1 := wearSave (allPortsDown 0x03 (resetAnswers s))
    if r.cold then coldReset s1 else warmReset s1

end Sys2Proof.Machine
end

