-- ==== Sys2Proof/Machine/Cdc.lean ====
section
/-! DEFINITION. Events of the clock-domain crossings (chapter 22). -/

namespace Sys2Proof.Machine

open Sys2Proof

/-- A handshake has not closed 1 µs after it opened (R566). On a crossing whose handshakes the model follows one has to stand open. -/
def execCdcStall (die code inst ns : Nat) (s : State) : Out :=
  let x := cdcGet s die code inst
  if !dieOk s die ∨ !cdcOn die code ∨ cdcDs code ∨ cdcLv code ∨ x.stalled ∨ ns < 1000 ∨ (cdcWaits code && !x.isOpen) then .next s
  else .next (raise die 0x042 0x04 .contained (inst % 256 * 256 + code) [ns] (cdcUpd die code inst (fun y => { y with stalled := true, held := true }) s))

/-- 256 consecutive pairs of samples disagree: once for the episode (R567). -/
def execCdcUnstable (die code inst pairs : Nat) (s : State) : Out :=
  if !dieOk s die ∨ !cdcOn die code ∨ !cdcDs code then .next s
  else if pairs < 256 then .next (cdcUpd die code inst (fun y => { y with unstable := false }) s)
  else if (cdcGet s die code inst).unstable then .next s
  else .next (raise die 0x042 0x03 .notice (inst % 256 * 256 + code) [min pairs 0xFFFFFFFF] (cdcUpd die code inst (fun y => { y with unstable := true }) s))

end Sys2Proof.Machine
end

