-- ==== Sys2Proof/Machine/Disp.lean ====
section
/-! DEFINITION. The DISP commands (Table 12.7) and the dispatcher's own events (chapter 12). -/

namespace Sys2Proof.Machine

open Sys2Proof

def readFlow (c : Cmd) : FlowCfg :=
  { cls := c.u8 2, fflags := c.u8 3, arity := c.u8 4, twait := c.u8 5, div := c.u16 6, phase := c.u16 8, res := c.u16 10,
    max := c.u16 12, age := c.u16 14, srcs := (List.range 7).map (fun k => c.u32 (16 + 4 * k)) }

/-- A slot source word is in range where it stands (Table 12.1, R316, R334). -/
def slotOk (f : FlowCfg) (n : Nat) : Bool :=
  let w := f.src n
  if f.arity < n then w == 0
  else
    match skind w with
    | 1 => !f.event && n == 1 && w % 2 ^ 28 == 0
    | 2 =>
      let src := w / 2 ^ 24 % 16
      let k := w / 2 ^ 20 % 16
      f.event && n == 1 && w / 2 ^ 12 % 256 == 0 &&
        ((src == 1 && (k == 1 || k == 2)) || (src == 2 && (k == 1 || k == 3 || k == 4 || k == 5) && w / 256 % 16 == 0))
    | 3 => !f.event && w % 2 ^ 13 == 0 && pbase w + pwidth w ≤ 64
    | _ => false

def flowOk (f : FlowCfg) : Bool :=
  f.cls < 8 && f.fflags < 16 && f.arity ≤ 7 && (!f.event || f.arity == 1) && 1 ≤ f.twait && f.twait ≤ 64 && 1 ≤ f.div &&
    f.div ≤ 4096 && f.phase < f.div && 1 ≤ f.max && f.max ≤ 512 && (List.range 7).all (fun k => slotOk f (k + 1))

/-- The flow takes direct-pair events. -/
def pairEvent (f : FlowCfg) : Bool := f.event && skind (f.src 1) == 2 && f.src 1 / 2 ^ 24 % 16 == 2

/-- Flows whose results a flow takes. -/
def feeds (f : FlowCfg) : List Nat :=
  (((List.range f.arity).map (fun k => f.src (k + 1))).filter (fun w => skind w == 3)).map pflow

/-- Flow `goal` feeds one of `from_`, directly or through others; at most 64 steps. -/
def reaches (cfg : Nat → FlowCfg) (goal : Nat) (from_ : List Nat) (fuel : Nat) : Bool :=
  match fuel with
  | 0 => false
  | k + 1 => from_.contains goal || reaches cfg goal ((from_.flatMap (fun f => feeds (cfg f))).eraseDups) k

def flowConflict (s : State) (d n : Nat) (f : FlowCfg) : Bool :=
  let cfg := fun (k : Nat) => if k = n then f else flowShadow s d k
  let w := f.src 1
  let mask := w % 4096
  (f.event && w / 2 ^ 24 % 16 == 1 && (List.range 12).any (fun a => bit mask a && a / 6 != d)) ||
    (pairEvent f && !mprOk s) || (feeds f).contains n || reaches cfg n (feeds f) 65 || f.max < f.res

def execDispFlowConfig (c : Cmd) (s : State) : Out :=
  let d := c.u8 0
  let n := c.u8 1
  let f := readFlow c
  let g : Gate := {
    opcode := 0x0801, len := c.inl 44, fitted := ctlFit s d && !(s.dev.variant == .m3 && pairEvent f), legal := busyStates,
    roles := actStby, free := !setHeld s 4, par := d < 2 && n < 64 && flowOk f }
  runCmd g c s (fun s =>
    if flowConflict s d n f then ⟨s, .conflict, [], false⟩
    else
      let s1 := stage 4 c.params (dieUpd d (fun x => { x with flowNew := tset x.flowNew n f }) s)
      let all := (List.range 64).map (flowShadow s1 d)
      let res := (all.map (·.res)).sum
      if 512 < res then ⟨s, .exhausted, [], false⟩
      else okReply s1 (le 2 res ++ le 2 (all.filter (fun x => x.arity != 0)).length))

def execDispClassConfig (c : Cmd) (s : State) : Out :=
  let n := c.u8 0
  let k : ClassCfg := { rank := c.u8 1, tmax := c.u8 2 }
  let g : Gate := {
    opcode := 0x0802, len := c.inl 4, fitted := anyCtl s, legal := busyStates, roles := actStby, free := !setHeld s 4,
    par := n < 8 && 2 ≤ k.rank && k.rank ≤ 5 && 1 ≤ k.tmax && k.tmax ≤ 16 && c.rsv 3 1 }
  runCmd g c s (fun s => okReply (stage 4 c.params (s.onTiles (fun x => { x with clsNew := tset x.clsNew n k }))) [])

/-- The flow of a die as one object (R333). -/
def flowObj (d f : Nat) : Nat := d * 64 + f

def execDispCancel (c : Cmd) (s : State) : Out :=
  let d := c.u8 0
  let f := c.u8 1
  let sc := c.u8 2
  let arg := if sc = 2 then c.u32 4 else c.u64 4
  let g : Gate := {
    opcode := 0x0803, len := c.inl 12, fitted := ctlFit s d, legal := busyStates, roles := actStby,
    free := !held s (.flow (flowObj d f)),
    par := d < 2 && f < 64 && sc < 3 && c.rsv 3 1 }
  runCmd g c s (fun s =>
    if (flowCfg s d f).arity = 0 then ⟨s, .conflict, [], false⟩
    else
      ⟨goPending g c [.flow (flowObj d f)] (flowObj d f) none
        (dieUpd d (fun x => { x with cancels := x.cancels ++ [⟨f, sc, arg, s.link.crossing⟩] }) s), .pending, [], true⟩)

/-! ### DISP_STATS_READ (R335) -/

/-- Starts of the last 1,024 ticks. -/
def recentStarts (s : State) (d : Nat) : List StartRec := (dieGet s d).starts.filter (fun r => s.tick.index < r.tick + 1024)

def meanOf (l : List Nat) : Nat := if l.isEmpty then 0 else (roundDiv (l.sum : Nat) l.length).toNat

def u16max (n : Nat) : Nat := min n 65535

/-- FSTATE of Table 12.8. -/
def flowState (s : State) (d f : Nat) : Nat :=
  let c := flowCfg s d f
  if c.arity = 0 then 0
  else if !flowBound s d f then 3
  else if shedRank (dieGet s d).shed (flowRank s d f) then 2
  else if !creates s c then 4 else 1

def flowEntry (s : State) (d f : Nat) : Bytes :=
  let x := flowGet s d f
  let ws := ((recentStarts s d).filter (fun r => r.flow == f)).map (·.ns)
  le 1 f ++ le 1 (flowState s d f) ++ le 2 ((dieGet s d).items.filter (fun i => i.flow == f)).length ++ le 2 x.depthMax ++
    le 2 x.unmatched ++ le 4 x.created ++ le 4 x.released ++ le 4 x.cancelled ++ le 2 x.timeouts ++ le 2 x.races ++
    le 2 x.overflows ++ le 2 x.aborts ++ le 2 (u16max (ws.foldl max 0)) ++ le 2 (u16max (meanOf ws))

def clsEntry (s : State) (d k : Nat) : Bytes :=
  let x := dieGet s d
  let c := clsCfg s k
  let ws := ((recentStarts s d).filter (fun r => r.cls == k)).map (·.ns)
  le 1 k ++ le 1 c.rank ++ le 1 c.tmax ++ le 1 (clsTiles s d k) ++
    le 2 (x.items.filter (fun i => i.cls == k && i.ready && !i.running && !i.ended)).length ++ le 2 (tget 0 x.clsReady k) ++
    le 2 (u16max (ws.foldl max 0)) ++ le 2 (u16max (meanOf ws)) ++ le 4 (tget 0 x.clsShed k)

/-- Busy ns of a tile in each of the last 1,024 ticks, an item counted in the tick in which it ended. -/
def tileBusy (s : State) (d n : Nat) : List RunRec :=
  (dieGet s d).runs.filter (fun r => r.tile == n && decide (s.tick.index < r.tick + 1024))

def loadEntry (s : State) (d n : Nat) : Bytes :=
  let rs := tileBusy s d n
  let sum := (rs.map (·.ns)).sum
  let span := 1024 * 1000 * s.tick.len
  let peak := (rs.map (fun r => ((rs.filter (fun q => q.tick == r.tick)).map (·.ns)).sum)).foldl max 0
  le 1 n ++ le 1 ((tileOf s d n).getD 0xFF) ++ le 2 (u16max (sum * 65536 / span)) ++
    le 4 ((recentStarts s d).filter (fun r => r.tile == n)).length ++ le 4 peak ++ le 4 0

def execDispStatsRead (c : Cmd) (s : State) : Out :=
  let d := c.u8 0
  let k := c.u8 1
  let a := c.u64 4
  let g : Gate := {
    opcode := 0x0804, len := c.inl 12, fitted := ctlFit s d, legal := notBoot, par := d < 2 && k < 3 && c.rsv 2 2 && a % 64 == 0 }
  runCmd g c s (fun s =>
    let x := dieGet s d
    let n := if k = 0 then 64 else if k = 1 then 8 else 16
    let one := fun (i : Nat) => if k = 0 then flowEntry s d i else if k = 1 then clsEntry s d i else loadEntry s d i
    let s1 := if a = 0 then s else putBuf a (withCrc ((List.range n).flatMap one)) s
    okReply s1 (le 1 x.shed ++ le 1 0 ++ le 2 x.items.length ++ le 2 x.depthMax ++
      le 2 ((List.range 18).filter (fun t => (tileGet s d t).item.isSome)).length ++ le 4 (if a = 0 then 0 else n) ++
      le 4 s.tick.index))

/-! ### Events of the dispatcher -/

/-- The local part starts its first ready item on the lowest idle tile (R321); `wait` is the time from ready to start. -/
def execItemStart (die wait : Nat) (s : State) : Out :=
  match firstItem s die, idleTile s die with
  | some i, some t => .next (itemStart die t i wait s)
  | _, _ => .next s

/-- The item of the flow that is due: in an ordered flow the one with the lowest SEQ left, once it has ended (R322). -/
def dueItem (s : State) (d f : Nat) : Option Item :=
  let its := (dieGet s d).items.filter (fun i => i.flow == f)
  if (flowCfg s d f).ordered then (match its with
    | i :: _ => if i.ended then some i else none
    | [] => none)
  else its.find? (·.ended)

/-- The release; `cycle` is 1 where it falls in the CORE cycle of the next input crossing, 2 in that of the next tick boundary. -/
def releaseEdge (s : State) (cycle : Nat) : Option (Bool × Nat) :=
  if cycle = 1 then some (true, if s.tick.inDone then s.tick.index + 1 else s.tick.index)
  else if cycle = 2 then some (false, s.tick.index + 1) else none

def execItemRelease (die : Nat) (item : FlowAt) (s : State) : Out :=
  match dueItem s die item.flow with
  | some i => .next (itemRelease die (releaseEdge s item.cycle) i s)
  | none => .next s

/-- Not ready at the input crossing of its creation tick plus T_wait (R318). -/
def execItemTimeout (die flow seq : Nat) (s : State) : Out :=
  match (dieGet s die).items.find? (fun i => i.flow == flow && i.seq == seq) with
  | some i =>
    if !replaying s ∧ !i.ready ∧ i.made + (flowCfg s die flow).twait ≤ s.link.crossing then .next (itemTimeout die i s) else .next s
  | none => .next s

/-- The item is in the cancel's scope and has not started (R323). -/
def inScope (k : Cancel) (i : Item) : Bool :=
  i.flow == k.flow && !i.running && !i.ended && (k.scope == 0 || (k.scope == 1 && i.v ≤ k.arg) || (k.scope == 2 && i.seq == k.arg))

/-- One cancel acts; an item that became ready in the CORE cycle of this crossing is a race (R324). -/
def cancelAct (d : Nat) (k : Cancel) (s : State) : State :=
  let hit := (dieGet s d).items.filter (inScope k)
  let now := (true, s.link.crossing)
  let s1 := hit.foldl (fun t i => itemCancel d now i t) s
  let r := le 4 hit.length ++ le 2 (hit.filter (fun i => i.raced now)).length ++ le 2 0 ++ le 8 s.link.crossing
  endPending (fun p => p.opcode == 0x0803 && p.arg == flowObj d k.flow) .ok r s1

/-- The cancels act in the cycle of the first input crossing after they were executed (R323). -/
def execDispCancelAct (die : Nat) (s : State) : Out :=
  let due := fun (k : Cancel) => k.since != s.link.crossing
  let ks := (dieGet s die).cancels.filter due
  .next (ks.foldl (fun t k => cancelAct die k t) (dieUpd die (fun x => { x with cancels := x.cancels.filter (fun k => !due k) }) s))

/-- The shed level falls (R326); the input crossing does it too. -/
def execShedLevelFall (die : Nat) (s : State) : Out := .next (shedFall die s)

/-- A result port without a publication that entered for AGE crossings becomes invalid (R328). -/
def execPortAgeExpiry (die port : Nat) (s : State) : Out :=
  let p := tget {} (dieGet s die).rports port
  match (dieGet s die).bind.find? (fun b => b.2.kid != 0 && bit b.2.rports port) with
  | some (_, b) =>
    let age := (flowCfg s die b.flow).age
    if p.ok ∧ 0 < age ∧ age ≤ p.age then .next (portsInvalid die { b with rports := 2 ^ port, dports := 0 } 3 s) else .next s
  | none => .next s

end Sys2Proof.Machine
end

