-- ==== Sys2Proof/Machine/Link.lean ====
section
/-! DEFINITION. The CELL commands (Tables 6.17 and 7.12) and the link and port events of the KX8 (chapters 6 and 7). -/

namespace Sys2Proof.Machine

open Sys2Proof

/-! ### CELL_PORT_UP, CELL_PORT_DOWN, CELL_RANGE_READ, CELL_PORT_REMAP (R169 to R171) -/

def linkStates : DevState → Bool := inStates [.config, .standby, .blockedFault]

/-- The result of a bring-up: port state, reachable and unreachable cells, minimum offset (Table 6.17). -/
def portResult (s : State) (p : Nat) : Bytes :=
  let cs := (portCells s p).map (cellGet s)
  le 1 (portGet s p).state.code ++ le 1 0 ++ le 2 (cs.filter reachable).length ++
    le 2 (cs.filter cellAway).length ++ le 2 (portGet s p).minOff

/-- The trims of a block: 128 signed 16-bit values (Table 6.17). -/
def readTrims (p : Bytes) (n : Nat) : Tbl Int :=
  (List.range n).map (fun i => (i, rdS p (4 + 2 * i) 2))

/-- STARTING: the ranging values of the last bring-up no longer count; DCLK runs (Table 6.15). -/
def portStart (p : Nat) (s : State) : State :=
  let s1 := (portCells s p).foldl (fun t c => cellUpd c (fun x => { x with
    ranged := false, tried := false, mark := false, eLast := [], discRun := 0, good := 0, goodC := 0 }) t) s
  setPortState p .starting (portUpd p (fun x => { x with
    run := none, queue := [], waiting := [], frame := none, flags := [], lastWin := 0, quietTo := 0, timeSet := none, tsDue := false }) s1)

/-- A sleeping port wakes: where DTX slept, 64 IDLE words leave and TIME_SET is due at the next boundary; every cell has its 16 bursts to give
(R165). -/
def portWake (p : Nat) (s : State) : State :=
  let down := !(portGet s p).state.dtx
  let s1 := (portCells s p).foldl (fun t c => cellUpd c (fun x => { x with eLast := [], good := 0 }) t) s
  let s2 := when down (sendLine p 0 (List.replicate 64 idleWordOf)) s1
  setPortState p .waking (portUpd p (fun x => { x with tsDue := down }) s2)

def execCellPortUp (c : Cmd) (s : State) : Out :=
  let p := c.u8 0
  let trims := if c.isExt then readTrims c.params 128 else []
  let a := c.s16 2
  let fits := fun (x : Int) => decide (x.natAbs ≤ 6400)
  let g : Gate := {
    opcode := 0x0301, len := c.inl 4 || c.extLen (· == 260), fitted := 32 ≤ p || portOk s p, legal := linkStates,
    roles := actStby, pends := true, free := !held s (.port p),
    par := p < 32 && c.rsv 1 1 &&
      ((portGet s p).state.asleep || (if c.isExt then trims.all (fun t => fits (a + t.2)) else fits a)) }
  runCmd g c s (fun s =>
    let st := (portGet s p).state
    if st.asleep then
      ⟨goPending g c [.port p] p none (portWake p s), .pending, portResult s p, false⟩
    else if st ≠ .down ∨ (portCells s p).isEmpty then ⟨s, .conflict, portResult s p, false⟩
    else
      let s1 := portStart p (portUpd p (fun x => { x with asym := a, trims := trims }) s)
      ⟨goPending g c [.port p] p none s1, .pending, portResult s1 p, false⟩)

/-- The port is held by a CELL_PORT_REMAP. A PENDING CELL_PORT_UP does not make CELL_PORT_DOWN BUSY: R170 lets it end the bring-up (DESIGN
CHOICE, assumption 124: R93 says BUSY of every held object). -/
def remapHolds (s : State) (p : Nat) : Bool := s.mb.pend.any (fun x => x.opcode == 0x0304 && x.objs.contains (.port p))

def execCellPortDown (c : Cmd) (s : State) : Out :=
  let p := c.u8 0
  let depth := c.u8 1
  let g : Gate := {
    opcode := 0x0302, len := c.inl 4, fitted := 32 ≤ p || portOk s p, legal := linkStates, roles := actStby,
    par := p < 32 && depth < 4 && c.rsv 2 2, free := !remapHolds s p }
  runCmd g c s (fun s =>
    let st := (portGet s p).state
    if st = .down ∨ st = .lost then ⟨s, .conflict, [], false⟩
    else if depth = 0 then okReply (portDown p 0 s) (le 1 0)
    else if st ≠ .inService ∧ !st.asleep then ⟨s, .conflict, [], false⟩
    else
      let new : PortState := if depth = 1 then .sleepD else if depth = 2 then .sleepU else .sleepDU
      okReply (setPortState p new (sendMsg p (.sleep (depth ≥ 2) (depth % 2 = 1)) 4 s)) (le 1 new.code))

/-- STATE of a ranging entry (Table 6.18). -/
def rangeState (s : State) (p slot : Nat) : Nat :=
  let c := cellGet s (128 * p + slot)
  let st := (portGet s p).state
  if c.roster.isNone then 0
  else if (st = .down ∨ st = .starting) ∧ !c.ranged then 5
  else if st = .ranging ∧ !c.tried then 3
  else if c.mark then 4
  else if cellAway c ∨ !c.ranged then 2 else 1

/-- One entry of Table 6.18. -/
def rangeEntry (s : State) (p slot : Nat) : Bytes :=
  if slotsOf s.tick.len ≤ slot then List.replicate 16 0
  else
    let c := cellGet s (128 * p + slot)
    let mean := if c.eLast.isEmpty then 0 else roundDiv (4 * c.eLast.sum) (25 * c.eLast.length)
    let d := (List.range 1024).foldl (fun n i => if c.discHist.getLsbD i then n + 1 else n) 0
    if c.roster.isNone then List.replicate 16 0
    else le 1 (rangeState s p slot) ++ le 1 c.flags.toNat ++ leS 2 (asymOf s p slot) ++ le 4 c.dDown ++ le 4 c.dUp ++
      leS 2 mean ++ le 2 d

def execCellRangeRead (c : Cmd) (s : State) : Out :=
  let p := c.u8 0
  let g : Gate := {
    opcode := 0x0303, len := c.inl 12, fitted := 32 ≤ p || portOk s p, legal := notBoot,
    par := p < 32 && c.rsv 1 3 && c.u64 4 % 64 == 0 }
  runCmd g c s (fun s =>
    let po := portGet s p
    let cs := ((portCells s p).map (cellGet s)).filter reachable
    let s1 := if c.u64 4 = 0 then s
      else putBuf (c.u64 4) (withCrc ((List.range 128).flatMap (rangeEntry s p))) s
    okReply s1 (le 1 po.state.code ++ le 1 po.spare ++ le 2 po.minOff ++
      le 4 (cs.foldl (fun m x => max m x.dDown) 0) ++ le 4 (cs.foldl (fun m x => max m x.dUp) 0) ++
      le 4 cs.length ++ le 4 (((portCells s p).map (cellGet s)).filter cellAway).length ++ le 4 po.corr ++ le 4 po.disc ++ le 4 po.reruns))

def execCellPortRemap (c : Cmd) (s : State) : Out :=
  let p := c.u8 0
  let kind := c.u8 1
  let g : Gate := {
    opcode := 0x0304, len := c.inl 4, fitted := 32 ≤ p || portOk s p,
    legal := inStates [.config, .standby, .deblocked, .safeStop, .blockedFault], roles := actStby, pends := kind = 2,
    free := !held s (.port p), par := p < 32 && (kind == 1 || kind == 2) && c.rsv 2 2 }
  runCmd g c s (fun s =>
    let po := portGet s p
    let hostRemap := fun (t : State) => capsUpdate (resUpd 3 (portDie p) (p % 8) (fun r => { r with cause := 2 }) t)
    if po.state = .down ∨ po.spare ≠ 0 then ⟨s, .conflict, [], false⟩
    else if spareTaken s p then ⟨s, .exhausted, [], false⟩
    else if kind = 1 then
      ⟨goPending g c [.port p] p none (hostRemap (portUpd p (fun x => { x with shadow := some s.tick.index }) s)), .pending, [], true⟩
    else
      let s1 := (portCells s p).foldl (fun t cid =>
        if (cellGet t cid).health = .inUse ∨ (cellGet t cid).health = .pending then setHealth cid .unreachable 5 t else t) s
      ⟨goPending g c [.port p] p none
        (portStart p (capsUpdate (portSpareIn p (hostRemap (portUpd p (fun x => { x with spare := 2, laneMap := true }) s1))))), .pending, [], false⟩)

/-! ### The roster (R195, R196, R202 to R206) -/

/-- Entry `i` of a roster block (Table 7.8). -/
def rosterEntry (p : Bytes) (i : Nat) : Roster :=
  { cid := rd p (16 + 16 * i) 2, arm := rd p (18 + 16 * i) 1, flags := BitVec.ofNat 8 (rd p (19 + 16 * i) 1),
    identity := BitVec.ofNat 48 (rd p (20 + 16 * i) 6) }

def Roster.bytes (r : Roster) : Bytes :=
  le 2 r.cid ++ le 1 r.arm ++ le 1 r.flags.toNat ++ le 6 r.identity.toNat ++ le 6 0

/-- CRC-32C over the entries of all rostered cells in ascending CID order (R196). -/
def rosterDigest (s : State) : Word32 := crc32c (s.link.roster.flatMap (fun e => e.2.bytes))

def topology (r : Roster) : Nat := r.flags.toNat % 4

/-- An entry that breaks a rule of R203: BAD_PARAM. -/
def rosterBad (s : State) (mode mask : Nat) (before : List Roster) (p : Bytes) (i : Nat) (r : Roster) : Bool :=
  4096 ≤ r.cid || 12 ≤ r.arm || slotsOf s.tick.len ≤ r.cid % 128 || topology r != (r.identity.extractLsb' 46 2).toNat || 2 ≤ topology r ||
    8 ≤ r.flags.toNat || !zeros p (26 + 16 * i) 6 || before.any (fun b => b.cid == r.cid || b.identity == r.identity) ||
    (mode == 1 && !bit mask (r.cid / 128))

/-- Port or arm of the entry absent: NOT_FITTED. -/
def rosterAbsent (s : State) (r : Roster) : Bool :=
  (r.cid < 4096 && !portFitted s (r.cid / 128)) || (r.arm < 12 && !armOk s r.arm)

/-- An arm on another CTL die than its port, or over the cell limit: CONFLICT (R16, R196). -/
def rosterConflict (s : State) (all : List Roster) (r : Roster) : Bool :=
  r.cid / 128 / 16 != r.arm / 6 || armCells s.tick.len < (all.filter (fun x => x.arm == r.arm)).length

def firstIdx {α : Type} (f : Nat → α → Bool) (l : List α) (i : Nat) : Option Nat :=
  match l with
  | [] => none
  | x :: r => if f i x then some i else firstIdx f r (i + 1)

/-- Replace the entries of the ports named by new contexts (Table 7.10, R203). -/
def rosterInstall (s : State) (ports : Nat → Bool) (new : List Roster) : State :=
  let keep := fun (c : Nat) => !ports (c / 128)
  let old := (rostered s).filter (fun c => !keep c)
  let s1 := s.onLink (fun l => { l with
    roster := new.foldl (fun t r => tset t r.cid r) (l.roster.filter (fun e => keep e.1)) })
  let s2 := (old.filter (fun c => !new.any (fun r => r.cid == c))).foldl (fun t c => setHealth c .none 0x0D (cellUpd c (fun x => { x with roster := none }) t)) s1
  new.foldl (fun t r => aieRestore r.cid r.identity.toNat <|
    let first := !(old.contains r.cid)
    setHealth r.cid .pending (if first then 0 else 0x0D)
      (t.onLink (fun l => { l with
        cells := tset l.cells r.cid
          { roster := some r, safeSel := r.flags.getLsbD 2, declared := (tget {} l.cells r.cid).declared } }))) s2

def execCellRosterLoad (c : Cmd) (s : State) : Out :=
  let q := c.params
  let mode := c.u8 0
  let mask := c.u32 4
  let n := c.u16 8
  let new := (List.range n).map (rosterEntry q)
  let ports := fun p => mode == 0 || bit mask p
  let kept := (s.link.roster.map (·.2)).filter (fun r => !ports (r.cid / 128))
  let absent := firstIdx (fun _ r => rosterAbsent s r) new 0
  let bad := firstIdx (fun i r => rosterBad s mode mask (kept ++ new.take i) q i r) new 0
  let idx := match absent, bad with
    | some i, _ => i
    | none, some i => i
    | none, none => 0xFFFF
  let info := fun (k : Nat) => le 2 0 ++ le 2 k ++ le 4 (rosterDigest s).toNat
  let g : Gate := {
    opcode := 0x0305, len := c.extLen (fun l => l == 16 + 16 * n && 1 ≤ n && n ≤ 4096),
    fitted := absent.isNone && (mode != 1 || (List.range 32).all (fun p => !bit mask p || portFitted s p)),
    legal := inStates [.config], roles := actStby, info := info idx,
    par := mode < 2 && c.rsv 1 3 && c.rsv 10 6 && bad.isNone,
    free := !pairHolds s && (List.range 32).all (fun p => !(ports p && held s (.port p))) }
  runCmd g c s (fun s =>
    let all := kept ++ new
    let down := (allPorts s).all (fun p => !ports p || (portGet s p).state == .down)
    match firstIdx (fun _ r => rosterConflict s all r) new 0 with
    | some i => ⟨s, .conflict, info i, false⟩
    | none =>
      if s.dev.paired ∨ !down then ⟨s, .conflict, info 0xFFFF, false⟩
      else
        let s1 := rosterInstall s ports new
        okReply s1 (le 2 n ++ le 2 0xFFFF ++ le 4 (rosterDigest s1).toNat))

def execCellRosterRead (c : Cmd) (s : State) : Out :=
  let first := c.u16 0
  let n := c.u16 2
  let g : Gate := {
    opcode := 0x0306, len := c.inl 12, legal := notBoot,
    par := 1 ≤ n && n ≤ 4096 && first + n ≤ 4096 && c.buf 4 }
  let entry := fun (i : Nat) => match (tget none (s.link.roster.map (fun e => (e.1, some e.2))) (first + i)) with
    | some r => r.bytes
    | none => le 2 (first + i) ++ le 1 0xFF ++ le 13 0
  runCmd g c s (fun s =>
    okReply (putBuf (c.u64 4) (withCrc ((List.range n).flatMap entry)) s) (le 2 n ++ le 4 (rosterDigest s).toNat))

def execCellHealthSet (c : Cmd) (s : State) : Out :=
  let cid := c.u16 0
  let act := c.u8 2
  let b := s.tick.index + leadOf s.tick.len
  let g : Gate := {
    opcode := 0x0307, len := c.inl 4, fitted := 4096 ≤ cid || portOk s (cid / 128),
    legal := fun st => inStates [.config, .standby, .deblocked, .blockedFault] st && (act != 3 || st != .deblocked),
    roles := actStby, par := cid < 4096 && cid % 128 < slotsOf s.tick.len && 1 ≤ act && act ≤ 3 && c.rsv 3 1,
    free := !held s (.cell cid) && !held s .tickLength }
  runCmd g c s (fun s =>
    let x := cellGet s cid
    if x.roster.isNone ∨ (act = 2 ∧ (x.health = .pending ∨ x.health = .inUse ∨ (x.health = .retired ∧ x.cause = 8))) ∨
        (act ≠ 2 ∧ x.health = .retired) ∨ (act = 3 ∧ (portGet s (cid / 128)).state ≠ .inService) then
      ⟨s, .conflict, [], false⟩
    else
      let s1 := s.onLink (fun l => { l with healthAt := l.healthAt ++ [(b, cid, act)] })
      let s2 := when (act = 3) (portUpd (cid / 128) (fun y => { y with perm := y.perm ++ [(cid % 128, b, 2)] })) s1
      ⟨goPending g c [.cell cid] cid none s2, .pending, [], true⟩)

/-- One entry of Table 7.13; a cell of an absent or failed die reads zero (R206). -/
def contextEntry (s : State) (cid : Nat) : Bytes :=
  if !portFitted s (cid / 128) then List.replicate 32 0
  else
    let x := cellGet s cid
    let miss := (List.range 1024).foldl (fun n i => if x.missHist.getLsbD i then n + 1 else n) 0
    let fl := (match x.roster with | some r => topology r | none => 0) % 2 + 2 * b2n x.safeSel + 4 * b2n x.safeOk +
      8 * b2n x.fresh + 16 * b2n (x.report.getLsbD 39)
    le 2 cid ++ le 1 x.health.code ++ le 1 x.cause ++ le 6 (match x.roster with | some r => r.identity.toNat | none => 0) ++
      le 1 (match x.roster with | some r => r.arm | none => 0) ++ le 1 fl ++ le 8 x.report.toNat ++ le 4 x.freshTick ++
      le 2 miss ++ le 2 x.declared ++ le 4 x.changed

def execCellContextRead (c : Cmd) (s : State) : Out :=
  let first := c.u16 0
  let n := c.u16 2
  let cids := (List.range n).map (first + ·)
  let g : Gate := {
    opcode := 0x0308, len := c.inl 12, legal := notBoot,
    fitted := !(1 ≤ n && first + n ≤ 4096) || cids.any (fun x => portFitted s (x / 128)),
    par := 1 ≤ n && n ≤ 4096 && first + n ≤ 4096 && c.buf 4 }
  runCmd g c s (fun s =>
    let xs := (cids.map (cellGet s)).filter (fun x => x.roster.isSome)
    let use := (xs.filter (fun x => x.health == .inUse)).length
    okReply (putBuf (c.u64 4) (withCrc (cids.flatMap (contextEntry s))) s)
      (le 2 n ++ le 2 use ++ le 2 (xs.length - use) ++ le 2 0 ++ le 8 s.link.crossing))

def execCellSafeStateSet (c : Cmd) (s : State) : Out :=
  let first := c.u16 0
  let n := c.u16 2
  let sel := c.u8 4
  let cids := (List.range n).map (first + ·)
  let g : Gate := {
    opcode := 0x0309, len := c.inl 8, fitted := !(1 ≤ n && first + n ≤ 4096) || cids.all (fun x => portFitted s (x / 128)),
    legal := inStates [.config, .standby, .deblocked, .safeStop, .blockedFault], roles := actStby,
    par := 1 ≤ n && n ≤ 4096 && first + n ≤ 4096 && sel < 2 && c.rsv 5 3, free := !setHeld s 7 }
  runCmd g c s (fun s =>
    let xs := cids.filter (fun x => (cellGet s x).roster.isSome)
    if xs.isEmpty then ⟨s, .conflict, [], false⟩
    else okReply (stage 7 c.params (xs.foldl (fun t x => cellUpd x (fun y => { y with safeNew := some (sel == 1) }) t) s))
      (le 2 xs.length))

/-- Commit of shadow set bit 7: the shadow safe states become active and are sent (R201, R205). -/
def commitSafeStates (s : State) : State :=
  (rostered s).foldl (fun t cid =>
    match (cellGet t cid).safeNew with
    | none => t
    | some b =>
      let t1 := cellUpd cid (fun x => { x with safeSel := b, safeNew := none, safeOk := x.safeOk && x.safeSel == b }) t
      if b = (cellGet t cid).safeSel then t1 else when (hears t1 (cid / 128)) (pushSafeState cid) t1) s

/-! ### Messages (R146, R147) -/

/-- A BLOCK request reaches the LNK dies: four copies on every port that hears (R32, R146). -/
def execBlockRequestSend (cause : Byte) (s : State) : Out := .next (blockPorts cause.toNat s)

/-- A SAFE request reaches the LNK dies; it ends BLOCK copies under way (R146). -/
def execSafeRequestSend (cause : Byte) (s : State) : Out := .next (safePorts cause.toNat s)

/-- Between a tick boundary and the input crossing that follows it: no tick frame is in flight then. -/
def atBoundary (s : State) : Bool := !s.tick.inDone

/-- The LNK's copy of cell-link time departs by 62.5 ps or more from what the cells extrapolate from the last TIME_SET (R147). -/
def copyDeparts (s : State) (p : Port) : Bool :=
  match p.timeSet with
  | none => false
  | some (v, us) => decide (4 ≤ (s.link.linkTime - (v + BitVec.ofNat 56 (64000 * (s.nowUs - us)))).toInt.natAbs)

/-- TIME_SET is due: after a wake of DTX, 1,024 ticks after the last one, or on a departure of the copy (R147). -/
def timeSetDue (s : State) (p : Port) : Bool := p.state.frames && (p.tsDue || decide (p.tsTick + 1024 ≤ s.tick.index) || copyDeparts s p)

def execTimeSetSend (port : Nat) (s : State) : Out :=
  if portFitted s port ∧ timeSetDue s (portGet s port) ∧ atBoundary s then .next (sendTimeSet port s) else .next s

/-! ### Bring-up, ranging and service (R153 to R165) -/

/-- 200 µs of STARTING, at a boundary: TIME_SET, RANGING, the first run (Table 6.16). -/
def execPortStartingDone (port : Nat) (s : State) : Out :=
  let x := portGet s port
  if x.state ≠ .starting ∨ s.nowUs < x.sinceUs + 200 ∨ !atBoundary s then .next s
  else
    let s1 := sendTimeSet port (setPortState port .ranging s)
    .next ((nextToRange s1 port).elim s1 (fun slot => startRun port slot 1 false s1))

/-- What a ranging search found: whether the delimiter came complemented, the slot and the identity of a ranging reply (R149, R153). -/
def rangingReply (q : RangeReply) : Option (Bool × Nat × BitVec 48) :=
  match readBurst q.bits with
  | some (inv, w) =>
    if w.extractLsb' 62 2 = 1#2 ∧ 0 ≤ q.r ∧ q.r ≤ 2000000 then some (inv, (w.extractLsb' 55 7).toNat, w.extractLsb' 0 48) else none
  | none => none

/-- One measurement joins the run; the last one judges the run (R155). -/
def measured (p : Nat) (r : RangeRun) (v : Option Int) (s : State) : State :=
  let r1 := { r with results := r.results ++ [v] }
  let s1 := portUpd p (fun x => { x with run := some r1 }) s
  if runLength r ≤ r1.results.length then judgeRun p r1 s1 else s1

/-- The oldest window of the run under way is judged when its search ends, in the last tick of the window (R153, R154). -/
def execRangeMeasurementJudge (port : Nat) (reply : Option RangeReply) (s : State) : Out :=
  match (portGet s port).run with
  | none => .next s
  | some r =>
    match r.windows with
    | [] => .next s
    | j :: rest =>
      if s.tick.index + 1 < j + rangeTicks s.tick.len then .next s
      else
        let cid := 128 * port + r.slot
        let r1 := { r with windows := rest }
        match reply.bind (fun q => (rangingReply q).map (fun y => (q.r, y))) with
        | none => .next (measured port r1 none s)
        | some (v, inv, slot, identity) =>
          if slot ≠ r.slot ∨ !(cellGet s cid).roster.any (fun e => e.identity == identity) then
            .next (rangedNot port r1 4 0 (cellUpd cid (fun x => { x with flags := x.flags ||| 8#4 }) s))
          else
            .next (measured port r1 (some v) (cellUpd cid (fun x => { x with
              flags := (x.flags &&& 14#4) ||| BitVec.setWidth 4 (BitVec.ofBool inv) }) s))

/-- Every rostered cell ranged or unreachable and the last values sent: VERIFY (Table 6.15). -/
def execPortVerifyEnter (port : Nat) (s : State) : Out :=
  let p := portGet s port
  if p.state = .ranging ∧ p.run.isNone ∧ (nextToRange s port).isNone ∧
      !(p.queue ++ p.waiting).any (fun q => q.word.code == 1 || q.word.code == 2) then
    .next (setPortState port .verify ((portCells s port).foldl (fun t c => cellUpd c (fun x => { x with good := 0, goodC := 0 }) t) s))
  else .next s

/-- Reachable cells short of 64 consecutive valid bursts. -/
def cellsShort (s : State) (port : Nat) : List Nat := (portCells s port).filter (fun c => reachable (cellGet s c) && (cellGet s c).good < 64)

/-- The port is in service: its bring-up or lane remap is answered (R170). -/
def inService (port : Nat) (s : State) : State :=
  let lane := (portGet s port).laneMap
  let s1 := setPortState port .inService (portUpd port (fun x => { x with laneMap := false }) s)
  endPortPending port .ok (if lane then le 1 4 ++ le 1 (port / 8) else portResult s1 port) s1

/-- VERIFY ends: cells short of 64 consecutive valid bursts after 1,024 ticks are unreachable (Table 6.15, R198). -/
def execPortInService (port : Nat) (s : State) : Out :=
  let p := portGet s port
  let short := cellsShort s port
  if p.state = .verify ∧ (short.isEmpty ∨ 1024 ≤ s.tick.index - p.since) then
    .next (inService port (short.foldl (fun t c => unreachable c 0x0E 0 t) s))
  else .next s

/-- A discarded burst: 8 in a row of a reachable cell mark it for re-ranging (R150, R158). -/
def burstDiscarded (cid : Nat) (s : State) : State :=
  let c := cellGet s cid
  let s1 := portUpd (cid / 128) (fun x => { x with disc := x.disc + 1 }) (cellUpd cid (fun x => { x with
    discRun := x.discRun + 1, discNow := true, good := 0, goodC := 0 }) s)
  when (c.discRun + 1 == 8 && reachable c) (markCell cid) s1

/-- A cell that has given 64 consecutive valid bursts with the CSTATE expected, in VERIFY or after a readmission run (Table 7.10). -/
def pendingDone (cid : Nat) (s : State) : State :=
  let c := cellGet s cid
  when (c.health == .pending && c.detected.isNone && 64 ≤ c.goodC && (c.rejoin.isSome || (portGet s (cid / 128)).state == .verify))
    (detect cid .inUse 0) s

/-- A valid burst: its phase error tracked, its report kept for the input crossing or its reply written (R150, R158, R192). -/
def burstValid (cid : Nat) (e : Int) (w : Word64) (s : State) : State :=
  let c := cellGet s cid
  let ok := repCState w == expectedCState s (cid / 128) s.tick.index
  let s1 := cellUpd cid (fun x => { x with discRun := 0, good := x.good + 1 }) s
  let s2 := match (w.extractLsb' 62 2).toNat with
    | 0 => pendingDone cid (cellUpd cid (fun x => { x with incoming := some (w, ok), goodC := if ok then x.goodC + 1 else 0 }) s1)
    | 2 => cellUpd cid (fun x => { x with replies := x.replies + 1, reply := w }) s1
    | _ => s1
  when (reachable c) (track cid e) s2

/-- A burst in a slot (R150): the delimiter within 5 UI of its place, plain, or complemented where the cell's polarity is recorded as
inverted. -/
def execUpstreamBurstReceive (port slot : Nat) (burst : BurstIn) (s : State) : Out :=
  let cid := 128 * port + slot
  let c := cellGet s cid
  if c.roster.isNone ∨ !(portGet s port).state.dclk then .next s
  else
    match readBurst burst.bits with
    | none => .next (burstDiscarded cid s)
    | some (inv, w) =>
      if burst.e.natAbs ≤ 320 ∧ (!inv ∨ c.flags.getLsbD 0) ∧ w.extractLsb' 62 2 ≠ 3#2 then .next (burstValid cid burst.e w s)
      else .next (burstDiscarded cid s)

/-- A cell marked for re-ranging gets a run of four once the port is free (R157, R158, R165, R200); a reachable cell with 8 bursts discarded
in a row is marked. -/
def execRerangingMark (cid : Nat) (s : State) : Out :=
  let p := portGet s (cid / 128)
  let c := cellGet s cid
  if c.roster.isSome ∧ c.mark ∧ p.run.isNone ∧ (p.state = .inService ∨ p.state = .verify ∨ p.state = .waking) then
    .next (startRun (cid / 128) (cid % 128) 1 true s)
  else if reachable c ∧ 8 ≤ c.discRun then .next (markCell cid s)
  else .next s

/-- The DTX launch instants and the copies of cell-link time are calibrated; the offsets of ports are recomputed (R159). -/
def execLaunchCalibration (s : State) : Out := .next ((allPorts s).foldl (fun t p => minOffset p t) s)

/-- A reachable cell that has not yet given 16 valid bursts since the wake, and one whose 16 have a mean e of 0.4 ns or more. -/
def wakeWaits (c : CellCtx) : Bool := reachable c && c.good < 16

def wakeFails (c : CellCtx) : Bool := reachable c && 16 ≤ c.good && 160 * 16 ≤ (c.eLast.take 16).sum.natAbs

/-- The wake checks: a cell that fails them, or has not given its bursts within 1 ms, is re-ranged; with nothing left to wait for the port is
IN_SERVICE (R165). -/
def execWakingComplete (port : Nat) (s : State) : Out :=
  let p := portGet s port
  if p.state ≠ .waking then .next s
  else
    let cs := portCells s port
    let late := p.sinceUs + 1000 ≤ s.nowUs
    let fails := cs.filter (fun c => wakeFails (cellGet s c) || (late && wakeWaits (cellGet s c)))
    if !fails.isEmpty then .next (fails.foldl (fun t c => markCell c t) s)
    else if p.tsDue ∨ cs.any (fun c => wakeWaits (cellGet s c) || (cellGet s c).mark) then .next s
    else .next (inService port s)

/-- The spare takes over the lanes after 16 ticks of shadowing; the ranging values move with it (R166). -/
def execSparePortTakeover (port : Nat) (s : State) : Out :=
  match (portGet s port).shadow with
  | none => .next s
  | some t =>
    if s.tick.index - t < 16 then .next s
    else
      let s1 := portUpd port (fun x => { x with spare := 1, shadow := none }) s
      .next (capsUpdate (endPortPending port .ok (le 1 (portGet s port).state.code ++ le 1 (port / 8)) (portSpareIn port s1)))

/-- A port fails with its die's spare in use (R168). -/
def execPortLost (loss : PortLoss) (s : State) : Out :=
  if spareTaken s loss.port then .next (portLost loss.port loss.sends s) else .next s

/-- 1,024 ticks after REJOIN without IN_USE: FAILED with cause 0x07 (R200). -/
def execRejoinTimeout (cid : Nat) (s : State) : Out :=
  match (cellGet s cid).rejoin with
  | some t =>
    if 1024 ≤ s.tick.index - t ∧ (cellGet s cid).health = .pending then
      .next (setHealth cid .failed 7 (cellUpd cid (fun x => { x with rejoin := none }) s))
    else .next s
  | none => .next s

/-- SAFE_SEL disagrees in 16 consecutive fresh reports: event, and the word is queued again (R201). -/
def execSafeSelRequeue (cid : Nat) (s : State) : Out :=
  if 16 ≤ (cellGet s cid).selBad then
    .next (pushSafeState cid (linkEvent (cid / 128) 0x06 .notice cid [] (cellUpd cid (fun x => { x with selBad := 0, safeOk := false }) s)))
  else .next s

/-- An ECC error in a context entry: corrected, or its two cells are marked for re-ranging and restored (R194). -/
def contextEcc (port entry : Nat) (double : Bool) (s : State) : State :=
  if !double then linkEvent port 0xE0 .corrected entry [] (errorSeen 3 (portDie port) (port % 8) false s)
  else
    let restore := fun (t : State) (cid : Nat) =>
      match tget none (t.link.roster.map (fun e => (e.1, some e.2))) cid with
      | none => t
      | some r => markCell cid (cellUpd cid (fun x => { x with roster := some r }) t)
    let s0 := errorSeen 3 (portDie port) (port % 8) true s
    linkEvent port 0xE1 .contained entry [] (restore (restore s0 (128 * port + 2 * (entry % 64))) (128 * port + 2 * (entry % 64) + 1))

def execContextEccError (port entry : Nat) (double : Bool) (s : State) : Out :=
  if !portFitted s port then .next s else .next (contextEcc port entry double s)

end Sys2Proof.Machine
end

