-- ==== Sys2Proof/Machine/CrossOps.lean ====
section
/-! DEFINITION. What the control plane does at an input crossing and at an output crossing (R118 to R122): signals enter, the loop
engine, the insertion engine and the dispatcher compute, command words and frames leave. -/

namespace Sys2Proof.Machine

open Sys2Proof

/-! ### Signals (R260, R261, R299) -/

/-- A signal as it crosses: while invalid it keeps its last valid value. -/
def crossSig (old : Tbl Sig) (key : Nat) (v : Int) (ok fresh : Bool) : Nat × Sig :=
  (key, ⟨if ok then v else (tget ({} : Sig) old key).v, ok, fresh⟩)

/-- At an input crossing the waiting measurement set enters, and the set latched since waits for the next crossing (Table 5.3). -/
def msetEnter (s : State) : State :=
  s.onMeas (fun m => { m with inSet := m.wait, inTick := m.waitTick, wait := m.set, waitTick := m.setTick })

/-- Fine and coarse outputs of the measurement set that has entered (class 0x1). -/
def measSigs (s : State) : List (Nat × Sig) :=
  let l := s.loop.sigs
  ((List.range 64).filter (fun c => thas s.meas.inSet c || thas l (0x1000 + c))).flatMap (fun c =>
    let x : MSetChan := tget {} s.meas.inSet c
    let ok := mprOk s && thas s.meas.inSet c && x.flags.getLsbD 0
    [crossSig l (0x1000 + c) x.fine ok true, crossSig l (0x1100 + c) x.coarse ok true])

/-- Mappings from the networks (class 0x2). -/
def netSigs (s : State) : List (Nat × Sig) :=
  s.net.mapRun.map (fun e => crossSig s.loop.sigs (0x2000 + e.1) e.2.v e.2.valid e.2.fresh)

/-- Result ports of a die (class 0x4). -/
def portSigs (s : State) (d : Nat) : List (Nat × Sig) :=
  (dieGet s d).rports.map (fun e => crossSig s.loop.sigs (d * 65536 + 0x4000 + e.1) e.2.v e.2.ok e.2.fresh)

/-- A voltage in 1/16 V as per unit on V_base. -/
def perBase (v : Int) (vbase : Nat) : Int := satS 32 (roundDiv (v * (2 ^ 28 : Nat)) (16 * max 1 vbase))

/-- Arm quantities (class 0x5): what the insertion engine computed in the tick before. -/
def armSigs (s : State) : List (Nat × Sig) :=
  (arms s).flatMap (fun a =>
    match armCfg s a with
    | none => []
    | some k =>
      let use := (armCids s a).filter (fun c => (aieCell s c).inUse)
      let sum := (use.map (fun c => (aieCell s c).vhat)).sum
      let key := a / 6 * 65536 + 0x5000 + a
      let ok := !use.isEmpty
      [crossSig s.loop.sigs key (perBase sum k.vbase) ok true,
       crossSig s.loop.sigs (key + 256) (perBase (meanV s use * k.nreq) k.vbase) ok true])

/-- Derate factors and the ramp generator (classes 0x6 and 0x7). -/
def slowSigs (s : State) : List (Nat × Sig) :=
  let l := s.loop.sigs
  [(0x6000, ⟨kOf s 0, true, true⟩), (0x6001, ⟨kOf s 1, true, true⟩), crossSig l 0x7000 (rampQ s) s.safe.ramp.on true,
   crossSig l 0x7001 s.safe.acc s.safe.ramp.on true]

/-- All signals that cross at an input crossing. -/
def sigsEnter (s : State) : State :=
  let new := measSigs s ++ netSigs s ++ portSigs s 0 ++ portSigs s 1 ++ armSigs s ++ slowSigs s
  s.onLoop (fun x => { x with sigs := new.foldl (fun t e => tset t e.1 e.2) x.sigs })

/-- The view of the tick: the signals, with the loop outputs of the tick before; the last four are kept (R299). -/
def viewPush (s : State) : State :=
  let outs := s.loop.ch.map (fun e => (e.1 / 256 * 65536 + 0x3000 + e.1 % 256, chanSig e.2))
  s.onLoop (fun x => { x with views := ({ tick := s.tick.index, sigs := outs.foldl (fun t e => tset t e.1 e.2) x.sigs } :: x.views).take 4 })

/-! ### The insertion engine at the input crossing (R210) -/

/-- The value of an arm source and whether it is valid. -/
def srcRead (s : State) (x : Nat) : Int × Bool :=
  if x = 0xFFFF then (0, false)
  else
    let g : Sig := tget {} s.loop.sigs (if x / 32768 = 1 then 0x2000 + x % 4096 else 0x1000 + x % 4096)
    (g.v, g.ok)

/-- The arm current, 0 while invalid. -/
def armAmps (s : State) (a : Nat) : Int := (armCfg s a).elim 0 (fun k => if (srcRead s k.isrc).2 then (srcRead s k.isrc).1 else 0)

/-- A source that became invalid, or valid again, raises an event that names it (R230). -/
def sourceNote (a sel : Nat) (was bad : Bool) (s : State) : State := when (was != bad && sel != 0xFFFF) (aieEvent a 0x0A .notice a [sel]) s

def armSources (a : Nat) (k : ArmCfg) (s : State) : State :=
  let st := armGet s a
  let ib := !(srcRead s k.isrc).2
  let vb := !(srcRead s k.vsrc).2
  sourceNote a k.vsrc st.vBad vb (sourceNote a k.isrc st.iBad ib (armUpd a (fun x => { x with iBad := ib, vBad := vb }) s))

/-- Sources, prediction of every cell of the list, and the stage. -/
def armEnter (a : Nat) (k : ArmCfg) (s : State) : State :=
  let s1 := armSources a k s
  let i := armAmps s1 a
  let amps := switchedAmps i k.ibase
  armStage a k ((armCids s1 a).foldl (fun t c => predictCell a c i (kI k t.tick.len) (selCfg t a).stale amps t) s1)

/-- The check against the arm voltage, where its source is valid (R222). -/
def armCheck (a : Nat) (k : ArmCfg) (old : Nat → Int) (s : State) : State :=
  let v := srcRead s k.vsrc
  if v.2 then plausibility a (roundDiv (v.1 * k.vbase * 16) (2 ^ 28)) old (switchedAmps (armAmps s a) k.ibase) s else noCheck a s

/-- Do `f` for every arm with a committed set. -/
def onArms (f : Nat → ArmCfg → State → State) (s : State) : State :=
  (arms s).foldl (fun t a => match armCfg t a with
    | some k => f a k t
    | none => t) s

def aieCross (s : State) : State :=
  let old := fun (c : Nat) => (aieCell s c).vhat
  let s1 := derateGroup 1 (derateGroup 0 (onArms armEnter s))
  if !running s then onArms (fun a _ t => levelNone a t) s1
  else onArms (fun a k t => armCheck a k old t) (onArms (fun a k t => armSelect a k (loopGet t k.ref).u (armAmps t a) t) s1)

/-! ### Events of the generators (R246) -/

/-- The edges of the word that the designated cell executes in this tick. -/
def genEdges (a : Nat) (w : Word32) (s : State) : State :=
  match fld w 31 30 with
  | 1 => genOccur a 2 (fld w 27 14) s
  | 2 => genOccur a 2 (fld w 13 0) (genOccur a 2 (fld w 27 14) s)
  | _ => s

/-- Events that waited for the crossing are gone; the edges of the running tick wait for the next one (R247). -/
def eventsNext (s : State) : State :=
  (s.pwm.gens.map (·.1)).foldl (fun t a => match (genGet t a).word with
    | some w => genEdges a w t
    | none => t) (s.onPwm (fun p => { p with events := [] }))

/-! ### The input crossing -/

/-- Everything the control plane computes from what has entered. -/
def computeIn (s : State) : State :=
  let s1 := viewPush (sigsEnter (portsEnter 1 (portsEnter 0 s)))
  let s2 := aieCross (evalDie 1 (evalDie 0 s1))
  eventsNext (dispCrossing 1 (dispCrossing 0 s2))

/-- Reports, decisions of the active, the measurement set, mappings and ramp parameters enter (Table 5.3). -/
def crossEnter (s : State) : State :=
  let s0 := (listen s).onLink (fun l => { l with crossing := s.tick.index })
  let s1 := (rostered s0).foldl (fun t c => cellCrossing c t) s0
  let stale := ((rostered s1).filter (fun c => !(cellGet s1 c).fresh)).length
  let s2 := netCross (useMset (msetEnter <| installRecord ((allPorts s1).foldl (fun t p => minOffset p t) (s1.onTick (fun t => { t with stale := stale })))))
  s2.onSafe (fun y => { y with ramp := y.rampNew.getD y.ramp, rampNew := none })

def inputCross (s : State) : State := gather (computeIn (blockStart (crossEnter s)))

/-! ### Late work (R121) -/

/-- Nanoseconds from the input crossing to the output crossing (Table 5.2). -/
def computeNs (t : Nat) : Nat := if t = 1 then 260 else if t = 2 then 840 else 2840

/-- Channels of a die that deliver after the output crossing (R257, R258). -/
def lateChannels (s : State) (d : Nat) : List Nat :=
  if !ctlOk s d then []
  else
    let r0 := liveChannels s d false
    let r1 := liveChannels s d true
    let n := max 1 (tget 8 s.loop.lanes d)
    let w := computeNs s.tick.len
    let t0 := if r0.isEmpty then 4 else 4 * ((r0.length + n - 1) / n) + 12
    (r0.zipIdx.filter (fun e => w < 16 + 4 * (e.2 / n))).map (·.1) ++ (r1.zipIdx.filter (fun e => w < t0 + 4 * (e.2 / n) + 12)).map (·.1)

/-- Arms that miss the crossing: those named, and those fed by a late channel. -/
def lateArms (late : BitVec 12) (s : State) : List Nat :=
  let l := lateChannels s 0 ++ lateChannels s 1
  (arms s).filter (fun a => late.getLsbD a || (armCfg s a).any (fun k => l.contains k.ref))

/-! ### Command words (R199, R219, R122) -/

/-- What the generator chooses for the designated cell, with the O_arm of the output crossing (R235 to R238). -/
def genStep (a c : Nat) (s : State) : GenOut :=
  let st := armGet s a
  let g := genGet s a
  let n := stepsOf s.tick.len
  genChoose st.duty (decide (st.sign < 0)) n (armOffset s a) g.baseIn g.bpolNeg g.carry (emaxOf (tget {} s.pwm.gen a) n : Nat)
    (!fullBridge s c)

/-- The generator after its choice, with the counts of Table 9.11. -/
def genTake (a : Nat) (o : GenOut) (s : State) : State :=
  genUpd a (fun g => { g with
    baseIn := o.bin, bpolNeg := o.bneg, carry := o.carry, wout := o.wout, edges := g.edges + o.edges,
    sats := if o.sat then inc32 g.sats else g.sats, resets := if o.reset then inc32 g.resets else g.resets,
    noWin := if o.noWin then inc32 g.noWin else g.noWin }) s

/-- A decision with its command word: O_arm is taken at the output crossing (R219, R229). -/
def planWord (s : State) (a : Nat) (p : Plan) : Plan :=
  let at_ := fun (w : Word32) => signOf (stateAtSample (stepsOf s.tick.len) (aieCell s p.cid).present w)
  if p.desig then
    let o := genStep a p.cid s
    { p with word := o.word, changed := o.edges, sigma := at_ o.word,
             dest := if o.bin then (if o.bneg then .insertNeg else .insertPos) else .bypass }
  else if p.changed = 0 then p
  else { p with word := switchWord p.dest (armOffset s a), sigma := at_ (switchWord p.dest (armOffset s a)) }

/-- The command words of an arm. The generator moves on for the cell that is still designated and IN_USE. -/
def planOffsets (a : Nat) (s : State) : State :=
  let plan := (armGet s a).plan.map (planWord s a)
  let s1 := armUpd a (fun x => { x with plan := plan }) s
  match (armGet s a).plan.find? (fun p => p.desig && inUse s p.cid) with
  | some p => genTake a (genStep a p.cid s) s1
  | none => s1

/-- The designated cell's word, for the occurrences of the execution tick. -/
def noteWord (a : Nat) (late : Bool) (s : State) : State :=
  let w : Option Word32 := if late then none
    else if running s then ((armGet s a).plan.find? (·.desig)).map (·.word)
    else if (armGet s a).desig.isSome then some 0 else none
  genUpd a (fun g => { g with word := w }) s

/-- One arm at the output crossing. -/
def armLeave (late : List Nat) (a : Nat) (s : State) : State :=
  let bad := late.contains a
  let s1 := noteWord a bad (if bad then s else planOffsets a s)
  let s2 := if running s then armOutput a (armAmps s a) bad s1
    else (armCids s a).foldl (fun t c => t.onLink (fun l => { l with words := tset l.words c 0 })) s1
  let s3 := s2.onTick (fun t => { t with overCnt := tset t.overCnt a (if bad then tget 0 t.overCnt a + 1 else 0) })
  if bad then giveWay 0x01 a 2 2 (s3.onTick (fun t => { t with overrun := t.overrun ||| (1#12 <<< a), overruns := inc32 t.overruns })) else s3

/-- Cells that are not IN_USE: one SWITCH to BYPASS as they leave, then HOLD (R199). -/
def idleWord (s : State) (c : Nat) : State :=
  if inUse s c then s
  else
    let w := if (cellGet s c).bypass && running s then switchWord .bypass (portGet s (c / 128)).minOff else 0
    cellUpd c (fun x => { x with bypass := false }) (s.onLink (fun l => { l with words := tset l.words c w }))

/-- Edges of a command word that lie before offset `lim`: OFFSET_A of a SWITCH or PULSE, OFFSET_B of a PULSE. -/
def earlyEdges (w : Word32) (lim : Nat) : Nat :=
  if fld w 31 30 = 0 then 0 else b2n (fld w 27 14 < lim) + b2n (fld w 31 30 == 2 && fld w 13 0 < lim)

/-- The word with each such edge at `lim`. -/
def raiseEdges (w : Word32) (lim : Nat) : Word32 :=
  BitVec.ofNat 32 (fld w 31 28 * 2 ^ 28 + max (fld w 27 14) lim * 2 ^ 14 + (if fld w 31 30 = 2 then max (fld w 13 0) lim else 0))

/-- Every edge earlier than the port's minimum is sent with the minimum, and counted (R122). A PULSE with both edges early leaves with both
at the minimum, which its cell then takes as HOLD (R142). -/
def clampWord (s : State) (c : Nat) : State :=
  let w : Word32 := tget 0 s.link.words c
  let lim := (portGet s (c / 128)).minOff
  let n := earlyEdges w lim
  if n = 0 then s
  else
    (s.onLink (fun l => { l with words := tset l.words c (raiseEdges w lim) })).onTick (fun t => { t with
      clamps := min (t.clamps + n) 0xFFFFFFFF, clampAll := min (t.clampAll + n) 0xFFFFFFFF })

/-- Every command word of the tick. -/
def wordsLeave (late : List Nat) (s : State) : State :=
  let s1 := (arms s).foldl (fun t a => armLeave late a t) s
  (rostered s1).foldl clampWord ((rostered s1).foldl idleWord s1)

/-! ### Frames (R138 to R144, R151) -/

/-- ACTIVE of the SOF word (R139, R528). -/
def isActive (s : State) : Bool := workRole s == .active

/-- Words from the head of the queue for one frame: `room` positions in it, and `lim` positions in each of the next two frames for words
sent in three consecutive frames (R144). A word that cannot begin its three frames now waits, and so do those behind it. -/
def queueTake (room lim : Nat) : List Queued → List MgmtWord × List Queued
  | [] => ([], [])
  | q :: r =>
    if room = 0 ∨ (q.left = 3 ∧ lim = 0) then ([], q :: r)
    else if q.left ≤ 1 then
      let t := queueTake (room - 1) lim r
      (q.word :: t.1, t.2)
    else
      let t := queueTake (room - 1) (lim - 1) r
      (q.word :: t.1, { q with left := q.left - 1 } :: t.2)

/-- A frame of the next two opens a ranging window, so one position of it is taken. -/
def rangeNear (x : Port) (t j : Nat) : Bool := x.run.any (fun r => x.lastWin != 0 && decide (x.lastWin + winStep r t ≤ j + 2))

/-- The management words of a port's next frame, and the port without them: PERM_BYPASS first, then RANGE where a window opens, then the
queue (R144, R153, R204). RANGE goes into the frame of its tick and does not wait in the queue (DEDUCED, assumption 126). -/
def mgmtTake (t exec : Nat) (x : Port) : List MgmtWord × Port :=
  let m := mgmtSlots t
  let due := x.perm.find? (fun e => e.2.1 < exec)
  let first := due.elim [] (fun e => [(⟨BitVec.ofNat 7 e.1, 14, 0x0B0B5⟩ : MgmtWord)])
  let perm := match due with
    | some e => x.perm.filterMap (fun y => if y == e then (if y.2.2 ≤ 1 then none else some (y.1, y.2.1, y.2.2 - 1)) else some y)
    | none => x.perm
  let win := if first.length < m then windowOpens x t exec else none
  let x1 := match win with
    | some r => { x with run := some { r with windows := r.windows ++ [exec] }, lastWin := exec, quietTo := exec + rangeTicks t }
    | none => x
  let range := win.elim [] (fun r => [(⟨BitVec.ofNat 7 r.slot, 3, 0⟩ : MgmtWord)])
  let q := queueTake (m - first.length - range.length) (m - b2n (rangeNear x1 t exec)) x.queue
  ((first ++ range ++ q.1 ++ List.replicate m (⟨0, 0, 0⟩ : MgmtWord)).take m, refill { x1 with queue := q.2, perm := perm })

/-- The frame leaves on DTX, after the IDLE words since the last one (R134, R136). -/
def frameOut (p : Nat) (f : TickFrame) (s : State) : State :=
  portUpd p (fun x => { x with frame := some f, flags := ((f.execTick.toNat, f.blocked) :: x.flags).take 4 })
    (sendLine p (idlesIn s.tick.len f.words.length) f.words s)

/-- The slots that a frame's REJOIN words name. -/
def rejoinSlots (l : List MgmtWord) : List Nat := (l.filter (fun w => w.code == 12#5)).map (fun w => w.slot.toNat)

/-- The command of a slot: SWITCH to BYPASS in the frame that carries the cell's REJOIN (R200) and on a port that is lost (R168). -/
def cmdFor (s : State) (p : Nat) (byp : Bool) (n : Nat) : Word32 :=
  if (cellGet s (128 * p + n)).roster.isNone then 0
  else if byp then switchWord .bypass (portGet s p).minOff else tget 0 s.link.words (128 * p + n)

/-- The tick frame of a port for execution tick index + 1. -/
def sendFrame (p : Nat) (s : State) : State :=
  let x := portGet s p
  let exec := s.tick.index + 1
  let g := max 1 (portGroups s p)
  let lost := x.state == .lost
  let (mgmt, y) := if lost then (List.replicate (mgmtSlots s.tick.len) ⟨0, 0, 0⟩, { x with lastOut := x.lastOut - 1 })
    else mgmtTake s.tick.len exec x
  let back := rejoinSlots mgmt
  let f : TickFrame := {
    execTick := BitVec.ofNat 32 exec, execBase := BitVec.ofNat 32 ((s.link.linkTime.toNat + 64000 * s.tick.len) / 16),
    unitid := s.power.straps.unitid, active := isActive s, blocked := !running s || x.blocked || x.state == .ranging,
    quiet := x.state == .ranging || x.state == .sleepU || decide (exec < y.quietTo), port := BitVec.ofNat 5 p, groups := BitVec.ofNat 4 g,
    tcode := BitVec.ofNat 3 s.tick.len, mgmt := mgmt,
    cmds := (List.range (16 * g)).map (fun n => cmdFor s p (lost || back.contains n) n) }
  back.foldl (fun t n => cellUpd (128 * p + n) (fun c => { c with rejoin := some exec, goodC := 0 }) t) (frameOut p f (portUpd p (fun _ => y) s))

/-- A port that sends a tick frame: in the states of R138, after the TIME_SET of a wake (R165); a lost port its last four (R168). -/
def framing (x : Port) : Bool := (x.state.frames && !x.tsDue) || decide (0 < x.lastOut)

/-- Frames of every port; none of the new TCODE in the first tick at a new T (R164). -/
def framesLeave (s : State) : State :=
  if s.link.firstNew = some s.tick.index then s
  else ((allPorts s).filter (fun p => framing (portGet s p))).foldl (fun t p => sendFrame p t) (s.onLink (fun l => { l with firstNew := none }))

/-! ### The output crossing -/

/-- Loop-channel and duty-port values go to the pairs' holding registers (R243). -/
def dutiesLeave (s : State) : State :=
  let tag := BitVec.ofNat 16 s.tick.index
  (List.range 8).foldl (fun t p =>
    let k := (pairCfg t p).src
    if k / 16384 = 1 ∧ (loopGet t (k % 512)).mode ≠ .off then pairUpd p (fun x => { x with coming := some ((loopGet t (k % 512)).u, tag) }) t
    else if k / 16384 = 2 then
      let d : TPort := tget {} (dieGet t (k / 256 % 2)).dports (k % 16)
      if d.fresh then pairUpd p (fun x => { x with coming := some (d.v, tag) }) t else t
    else t) s

/-- Everything the control plane puts out. -/
def computeOut (late : List Nat) (s : State) : State := dutiesLeave (dutiesEnter 1 (dutiesEnter 0 (wordsLeave late s)))

def outputCross (late : BitVec 12) (aieEnd : Nat) (s : State) : State :=
  let l := lateArms late s
  let lost := lateChannels s 0 ++ lateChannels s 1
  let s1 := lost.foldl (fun t c => giveWay 0x02 c 2 2 t) (computeOut l s)
  let s2 := dmaCross (framesLeave s1)
  let s3 := s2.onTick (fun t => { t with loopEnd := (s2.loop.ends.map (·.2)).foldl max 0, aieEnd := aieEnd })
  blockFinish (compareTick (outNs s.tick.len) (sendTick s s3))

end Sys2Proof.Machine
end

