-- ==== Sys2Proof/Machine/ReplayOps.lean ====
section
/-! DEFINITION. Deterministic replay (R553 to R556): at each crossing the recorded inputs of Table 21.2 stand in place of the live
ones, the control plane computes from them, and what it computed goes to the recorder only. -/

namespace Sys2Proof.Machine

open Sys2Proof

/-- The recorded tick that is replayed next; none at a HOLE marker block or where the slot holds none. -/
def replayBlock (s : State) (r : Replay) : Option TickBlock :=
  (slotBlocks (slotGet s r.slot)).find? (fun b => b.tick == r.tick && !b.marker)

/-- The stop tick, or the last tick in the slot. -/
def replayLast (s : State) (r : Replay) : Nat :=
  if r.stop = 0 then ((slotBlocks (slotGet s r.slot)).getLast?.map (·.tick)).getD 0 else r.stop

def replayUpd (f : Replay → Replay) (s : State) : State := s.onGalley (fun g => { g with replay := g.replay.map f })

/-- The first happening of R556 decides the outcome. -/
def replayOutcome (n : Nat) (s : State) : State :=
  replayUpd (fun r => { r with outcome := match r.outcome with
    | some x => some x
    | none => some n }) s

/-- The recorded inputs of one tick over the unit's own state. -/
def overlay (b : TickBlock) (t : TickIn) (s : State) : State :=
  let s1 := s.onDev (fun d => { d with
    state := t.state, role := t.role, fatal := t.fatal, cause := t.cause, transTick := if t.cause = 0 then b.tick + 1 else b.tick })
  let s2 := s1.onSafe (fun x => { x with v := t.v, acc := t.acc, ramp := { x.ramp with on := t.ramp }, rampNew := none })
  let s3 := ((s2.onMeas (fun m => { m with inSet := t.mset })).onNet (fun n => { n with mapRun := t.net })).onTick (fun k => { k with index := b.tick })
  let s4 := s3.onLink (fun l => { l with
    cells := t.cells, crossing := b.tick, ports := l.ports.map (fun e => (e.1, { e.2 with minOff := tget e.2.minOff t.offs e.1 })) })
  ((s4.onPwm (fun p => { p with events := p.events.filter (fun e => e.src == 1) ++ t.events.filter (fun e => e.src != 1) })).onRed
    (fun r => { r with record := t.record })).onGalley (fun g => { g with journalIn := b.journal })

/-- Entries of `new` that `old` does not hold alike. -/
def tblDiff {α : Type} [DecidableEq α] (new old : Tbl α) : Tbl α :=
  new.filter (fun e => (old.find? (fun x => x.1 == e.1)).map (·.2) != some e.2)

/-- A recorded commit: the sets that changed become active as at the recorded boundary. -/
def commitRecorded (a : ActiveSets) (s : State) : State :=
  let die := fun (d : Nat) (t : State) => dieUpd d (fun x => { x with
    bindNew := tblDiff (a.bind.getD d []) x.bind, flowNew := tblDiff (a.flow.getD d []) x.flow }) t
  let s1 := (s.onLoop (fun l => { l with cfgNew := tblDiff a.loop l.cfg })).onPwm (fun p => { p with
    genNew := tblDiff a.gen p.gen, pairNew := tblDiff a.pair p.pair, cmpNew := [] })
  let s2 := die 1 (die 0 (s1.onTiles (fun t => { t with clsNew := tblDiff a.cls t.cls })))
  installSets a (commitDisp (commitTiles (commitPwm (commitLoop s2))))

/-! ### Journalled outcomes (R554) -/

def itemOf (s : State) (e : JEntry) : Option Item := (dieGet s e.die).items.find? (fun i => i.flow == e.obj && i.seq == e.seq)

/-- A recorded change of the shed level. -/
def replayShed (e : JEntry) (s : State) : State :=
  if e.kind ≠ 3 then s
  else
    let up := (dieGet s e.die).shed < e.detail
    when up (shedItems e.die) (dieUpd e.die (fun y => { y with shed := e.detail, calm := 0, shedAt := s.tick.index }) s)

/-- A recorded abort: on the tile that runs the item, else of the item that waits. -/
def replayAbort (e : JEntry) (i : Item) (s : State) : State :=
  let f := ([TFault.illegal, .access, .stale, .cycles, .memory].find? (fun x => x.row == e.detail)).getD .memory
  match (List.range 18).find? (fun t => (tileGet s e.die t).item == some (i.flow, i.seq)) with
  | some t => tileAbort e.die t f s
  | none => itemFail 64 e.die i.flow i.v i.bind (itemDel e.die i.flow i.seq s)

/-- A recorded late publication whose value is not there yet (R554). -/
def replayMissing (s : State) (e : JEntry) : Bool :=
  let ps := if e.detail = 0 then (dieGet s e.die).rports else (dieGet s e.die).dports
  let p : TPort := tget {} ps e.obj
  !(p.fresh || p.waiting.any (fun w => w.view % 2 ^ 32 == e.v))

/-- Time-outs, aborts, cancellations and late publications as recorded. -/
def replayEntry (s : State) (e : JEntry) : State :=
  match e.kind, itemOf s e with
  | 1, some i => itemTimeout e.die i s
  | 4, some i => replayAbort e i s
  | 5, some i => itemCancel e.die (true, s.link.crossing) i s
  | _, _ => s

/-! ### The crossings -/

/-- What of a replayed crossing stays: the CTL dies' models, the recorder, free values drawn. Faults, requests and responses of a
replayed tick go nowhere. -/
def replayKeep (base r : State) : State :=
  let s1 := (installImage (ctlImage r) base).onLink (fun l => { l with crossing := r.link.crossing })
  (s1.onFree (fun _ => r.freeCtr)).onGalley (fun _ => r.galley)

/-- The input crossing of a replayed tick. -/
def replayIn (r : Replay) (s : State) : State :=
  match (replayBlock s r).bind (fun b => b.inputs.map (fun t => (b, t))) with
  | none => replayOutcome 3 s
  | some (b, t) =>
    let s1 := (t.commit.map (·.2)).elim (overlay b t s) (fun a => commitRecorded a (overlay b t s))
    let s2 := computeIn (installRecord (b.journal.foldl (fun u e => replayShed e u) s1))
    let late := (b.journal.filter (fun e => e.kind == 6 && e.detail == 0)).any (replayMissing s2)
    let s3 := b.journal.foldl replayEntry (t.cancels.foldl (fun u k => cancelAct k.1 k.2 u) s2)
    let s4 := replayKeep s s3
    when (late || s4.galley.lateIn) (replayOutcome 4) s4

/-- The digests of a replayed tick: the direct pairs do not run, so the run state that domain 24 holds is the one the recorded
STATUS gives, with the trip latches of the recorded tick. -/
def replayDigests (latches : List Nat) (s : State) : List (Nat × Nat) :=
  let o := (List.range 8).foldl (fun t p => pairUpd p (fun x => { x with latch := latches.contains p }) t) s
  digests (o.onPwm (fun w => { w with pairs := w.pairs.map (fun e => (e.1, { e.2 with run := pairMay o e.1 })) }))

/-- The block that the recorder writes for a replayed tick: STATUS and the output taps, indexed by the recorded tick (R552). -/
def replayWrite (b : TickBlock) (o s : State) : State :=
  if !bit s.galley.cfg.flags 0 then s
  else
    let k : TickBlock := {
      tick := b.tick, replay := true, state := o.dev.state.code, role := o.dev.role.code, time := recorderTime s,
      secs := addSecs (outputSecs o) [(7, statusPayload o)], keySecs := [(7, statusPayload o)], digests := digests o }
    bufPut k s

/-- The output crossing of a replayed tick: compute, compare with the recorded digests, go on to the next (R555). -/
def replayOut (late : BitVec 12) (r : Replay) (s : State) : State :=
  match (replayBlock s r).bind (fun b => b.inputs.map (fun t => (b, t))) with
  | none => replayOutcome 3 s
  | some (b, t) =>
    let ov := overlay b t s
    let o := computeOut (lateArms late ov) ov
    let mine := replayDigests t.latches o
    let bad := (b.digests.filter (fun e => mine.any (fun x => x.1 == e.1 && x.2 != e.2))).map (·.1)
    let s1 := replayWrite b o (replayKeep s o)
    let s2 := (bad.filter (fun d => !r.run.contains d)).foldl (fun u d => recEvent 0x07 d [b.tick] u) s1
    let s3 := replayUpd (fun x => { x with
      tick := x.tick + 1, done := x.done + 1, diverged := min (x.diverged + bad.length) 0xFFFFFFFF, run := bad,
      first := match x.first with
        | some f => some f
        | none => bad.head?.map (fun d => (b.tick, d)) }) s2
    if r.onDiv ∧ !bad.isEmpty then replayOutcome 2 s3
    else if s3.galley.lateIn then replayOutcome 4 s3
    else if replayLast s r ≤ b.tick then replayOutcome 0 s3 else s3

end Sys2Proof.Machine
end

