-- ==== Sys2Proof/Machine/Cross.lean ====
section
/-! DEFINITION. The tick boundary and the two crossing points (chapter 5), and the beginning and the end of a replay. -/

namespace Sys2Proof.Machine

open Sys2Proof

/-! ### The boundary (R116, R127) -/

/-- The snapshot of the tick that ends. -/
def snapshotOf (s : State) : Snapshot :=
  let t := s.tick
  { tick := t.index, committed := t.applied, overrun := t.overrun.toNat, loopEnd := t.loopEnd, aieEnd := t.aieEnd, stale := t.stale,
    clamps := t.clamps, tileLate := t.tileLate }

/-- The ring of the last 256 snapshots, and the counts of the tick that opens. -/
def tickOpens (s : State) : State :=
  let n := snapshotOf s
  (s.onTick (fun t => { t with
    ring := (n :: t.ring).take 256, index := t.index + 1, past := 0, applied := 0, overrun := 0, stale := 0, clamps := 0, tileLate := 0, loopEnd := 0,
    aieEnd := 0, inDone := false, outDone := false })).onRed (fun r => { r with sent := [] })

/-- Boundary instants of the arm generators count as occurrences of kind ZERO (R246). -/
def zeroEdges (s : State) : State :=
  (s.pwm.gens.map (·.1)).foldl (fun t a => if (genGet t a).word.isSome then genOccur a 1 0 t else t) s

/-- The tick sequencer runs: converter tick time has started. -/
def ticking (s : State) : Bool := s.time.started && s.dev.state != .powerDown

def execTickBoundary (s : State) : Out :=
  if !ticking s then .next s
  else
    let us := s.tick.len - s.tick.past
    let s1 := lateAnswer (advanceTime us (cellsBoundary us (tickOpens (episodesEnd s))))
    .next (cdcOverruns (lanesBoundary (confBoundary (rolesBoundary (healthBoundary (rampBoundary (zeroEdges s1)))))))

/-! ### The crossings (R118 to R122) -/

/-- The replay in progress, while it has no outcome. -/
def replayOn (s : State) : Option Replay := if replaying s then s.galley.replay.filter (fun r => r.outcome.isNone) else none

def execInputCrossing (s : State) : Out :=
  if !ticking s ∨ s.tick.inDone then .next s
  else
    let s1 := s.onTick (fun t => { t with inDone := true })
    match replaying s, replayOn s with
    | true, some r => .next (replayIn r s1)
    | true, none => .next s1
    | false, _ => .next (inputCross s1)

def execOutputCrossing (late : BitVec 12) (aieEnd : Nat) (s : State) : Out :=
  if !ticking s ∨ !s.tick.inDone ∨ s.tick.outDone then .next s
  else
    let s1 := s.onTick (fun t => { t with outDone := true })
    match replaying s, replayOn s with
    | true, some r => .next (replayOut late r s1)
    | true, none => .next s1
    | false, _ => .next (outputCross late aieEnd s1)

/-! ### Replay begins and ends (R554, R556) -/

/-- The start image of a replay: the slot's own where its tick is named, an image recorded within its span, or the loaded one. -/
def replayImage (s : State) (slot tick : Nat) : Option CtlImage :=
  let f := slotGet s slot
  match f.raw with
  | some p => (Config.loadedImage p).filter (fun m => m.tick == tick)
  | none => ((f.start.toList ++ s.galley.images.filter (fun m => f.first ≤ m.tick && m.tick ≤ f.last))).find? (fun m => m.tick == tick)

/-- Boundary r: the unit's own sets and models are put aside, the image is installed, the device enters REPLAY. -/
def execReplayEnter (s : State) : Out :=
  match s.galley.replay with
  | none => .next s
  | some r =>
    if s.dev.state ≠ .config ∨ r.saved.isSome ∨ s.tick.index < r.boundary then .next s
    else
      match replayImage s r.slot r.image with
      | none => .next s
      | some m =>
        let s1 := installImage m (replayUpd (fun x => { x with saved := some (ctlImage s), tick := r.image + 1 }) s)
        let s2 := tookPending (fun p => p.opcode == 0x1104) (installSets m.sets s1)
        .next (recEvent 0x06 r.slot [r.image, r.boundary] (transition .replay 0x14 s2))

/-- A replay that has its outcome, or whose input is not in CTL SRAM in time (`late`), ends: the device returns to CONFIG. -/
def execReplayEnd (late : Bool) (s : State) : Out :=
  if s.dev.state ≠ .replay then .next s
  else
    let s1 := when late (replayOutcome 4) s
    if s1.galley.replay.any (fun r => r.outcome.isSome) then .next (transition .config 0x15 s1) else .next s1

end Sys2Proof.Machine
end

