-- ==== Sys2Proof/Machine/Tile.lean ====
section
/-! DEFINITION. The TILE commands (Table 11.12) and the tiles' own events (chapter 11). -/

namespace Sys2Proof.Machine

open Sys2Proof

/-! ### TILE_KERNEL_LOAD (R303, R304) -/

/-- An entry record at offset `o` of the block (Table 11.8). -/
def readEntry (p : Bytes) (o : Nat) : Entry := { kid := rd p o 2, entry := rd p (o + 2) 2, state := rd p (o + 4) 2, maxc := rd p (o + 8) 4 }

def entryOk (p : Bytes) (o code : Nat) : Bool :=
  let e := readEntry p o
  1 ≤ e.kid && e.kid ≤ 0x7FFF && e.entry < code / 4 && e.state % 4 == 0 && e.state ≤ 1024 && 1 ≤ e.maxc && e.maxc ≤ 1000000 &&
    zeros p (o + 6) 2 && zeros p (o + 12) 4

def wordsAt (p : Bytes) (o n : Nat) : List Word32 :=
  match n with
  | 0 => []
  | k + 1 => BitVec.ofNat 32 (rd p o 4) :: wordsAt (p.drop 4) o k

/-- The lengths of Table 11.7 are in range. -/
def imageLens (p : Bytes) : Bool :=
  let code := rd p 8 4
  let con := rd p 12 4
  let n := rd p 16 2
  code % 4 == 0 && 4 ≤ code && code ≤ 32768 && con % 4 == 0 && con ≤ 8192 && 1 ≤ n && n ≤ 64

/-- Bytes of the block that the image's own lengths call for. -/
def imageSize (p : Bytes) : Nat := 32 + 16 * rd p 16 2 + rd p 8 4 + rd p 12 4

def imageOk (p : Bytes) : Bool :=
  let n := rd p 16 2
  let es := (List.range n).map (fun k => readEntry p (28 + 16 * k))
  imageLens p && rd p 4 4 == 1 && zeros p 18 2 && zeros p 24 4 &&
    (List.range n).all (fun k => entryOk p (28 + 16 * k) (rd p 8 4)) && decide (es.map (·.kid)).Nodup

def readImage (p : Bytes) : Image :=
  let n := rd p 16 2
  let code := rd p 8 4
  let con := rd p 12 4
  { code := wordsAt (p.drop (28 + 16 * n)) 0 (code / 4), consts := wordsAt (p.drop (28 + 16 * n + code)) 0 (con / 4),
    entries := (List.range n).map (fun k => readEntry p (28 + 16 * k)), build := rd p 20 4, crc := rd p (imageSize p - 4) 4 }

def execTileKernelLoad (c : Cmd) (s : State) : Out :=
  let p := c.params
  let m := c.u8 0
  let dies := [0, 1].filter (bit m)
  let g : Gate := {
    opcode := 0x0701, len := c.extLen (fun l => if imageLens p then l == imageSize p else 52 ≤ l && l ≤ 42016),
    fitted := !isM2 s && dies.all (ctlOk s), legal := inStates [.config], roles := actStby, pends := true,
    free := !dies.any (fun d => held s (.kernels d)) && !setHeld s 3, par := 0 < m && m < 4 && c.rsv 1 3 && imageOk p }
  runCmd g c s (fun s =>
    let user := dies.any (fun d => (dieGet s d).bind.any (fun b => b.2.kid != 0 && b.2.kid < 0x8000))
    let body := (p.drop 4).take (imageSize p - 8)
    if s.dev.paired ∨ user then ⟨s, .conflict, [], false⟩
    else if (crc32c body).toNat ≠ rd p (imageSize p - 4) 4 then ⟨s, .crcFail, [], false⟩
    else
      let gone := (dies.map (fun d => ((dieGet s d).bindNew.filter (fun b => b.2.kid != 0 && b.2.kid < 0x8000)).length)).sum
      let im := readImage p
      let s1 := dies.foldl (fun t d => dieUpd d (fun x => { x with
        image := some im, bindNew := x.bindNew.filter (fun b => !(b.2.kid != 0 && b.2.kid < 0x8000)) }) t) s
      let r := le 4 im.crc ++ le 2 im.entries.length ++ le 2 gone
      ⟨goPending g c (dies.map Obj.kernels) m (some (.ok, r)) s1, .pending, [], false⟩)

/-! ### TILE_KERNEL_BIND (R305, R306) -/

def readBinding (c : Cmd) : Binding :=
  { kid := c.u16 2, flow := c.u16 4, bflags := c.u8 6, rports := c.u64 8, dports := c.u16 16, maxc := c.u32 20,
    param := (c.params.drop 24).take 64 }

/-- The conflicts of R306 against the other bindings of the shadow set. -/
def bindConflict (s : State) (d n : Nat) (b : Binding) : Bool :=
  let others := ((List.range 64).filter (· != n)).map (bindShadow s d)
  let count := fun (x w : Nat) => ((List.range w).filter (bit x)).length
  b.kid != 0 && ((kernelOf s d b.kid).isNone ||
    others.any (fun o => o.kid != 0 && (o.rports &&& b.rports != 0 || o.dports &&& b.dports != 0 || o.flow == b.flow)) ||
    (match romKernel b.kid with
      | some (_, _, r, u) => 0x8000 ≤ b.kid && (count b.rports 64 < r || count b.dports 16 < u)
      | none => false))

def execTileKernelBind (c : Cmd) (s : State) : Out :=
  let d := c.u8 0
  let n := c.u8 1
  let b := readBinding c
  let g : Gate := {
    opcode := 0x0702, len := c.extLen (· == 88), fitted := ctlFit s d, legal := busyStates, roles := actStby,
    free := !held s (.kernels d) && !setHeld s 3,
    par := d < 2 && n < 64 && (b.kid ≤ 0x7FFF || (0x8001 ≤ b.kid && b.kid ≤ 0x80FF)) && b.flow < 64 && b.bflags < 4 && c.rsv 7 1 &&
      c.rsv 18 2 && b.maxc ≤ 1000000 }
  runCmd g c s (fun s =>
    if bindConflict s d n b then ⟨s, .conflict, [], false⟩
    else
      let k := (kernelOf s d b.kid).getD (0, 0, 0)
      let s1 := stage 3 c.params (dieUpd d (fun x => { x with bindNew := tset x.bindNew n b }) s)
      okReply s1 (le 2 k.2.1 ++ le 2 0 ++ le 4 (if b.kid = 0 then 0 else limitOf b k.2.2)))

/-! ### TILE_ROM_LIST, TILE_STATUS -/

def romKids : List Nat := [0x8001, 0x8002, 0x8003, 0x8004, 0x8005, 0x8006, 0x8007, 0x8008, 0x8009]

/-- The names of Table 11.10a in ASCII, padded to six bytes. -/
def romName (kid : Nat) : Bytes :=
  fit 6 (match kid with
    | 0x8001 => [0x50, 0x4C, 0x4C, 0x33] | 0x8002 => [0x41, 0x42, 0x43, 0x5F, 0x44, 0x51]
    | 0x8003 => [0x44, 0x51, 0x5F, 0x41, 0x42, 0x43] | 0x8004 => [0x44, 0x53, 0x52, 0x46]
    | 0x8005 => [0x41, 0x52, 0x4D, 0x5F, 0x42, 0x41] | 0x8006 => [0x48, 0x41, 0x52, 0x4D, 0x36, 0x34]
    | 0x8007 => [0x4D, 0x53, 0x51, 0x34] | 0x8008 => [0x4E, 0x4F, 0x54, 0x43, 0x48, 0x33]
    | 0x8009 => [0x44, 0x55, 0x54, 0x59, 0x34] | _ => [])

/-- One entry of R311. -/
def romEntryBytes (kid : Nat) : Bytes :=
  let r := (romKernel kid).getD (0, 0, 0, 0)
  le 2 kid ++ le 2 r.1 ++ le 4 r.2.1 ++ le 1 r.2.2.1 ++ le 1 r.2.2.2 ++ romName kid

def execTileRomList (c : Cmd) (s : State) : Out :=
  let d := c.u8 0
  let a := c.u64 4
  let g : Gate := { opcode := 0x0703, len := c.inl 12, fitted := ctlFit s d, legal := notBoot, par := d < 2 && c.rsv 1 3 && a % 64 == 0 }
  runCmd g c s (fun s =>
    let s1 := if a = 0 then s else putBuf a (withCrc (romKids.flatMap romEntryBytes)) s
    okReply s1 (le 2 romKids.length ++ le 2 0 ++ le 4 fwEdition))

/-- TSTATE of Table 11.14. -/
def tileState (s : State) (d t : Nat) : Nat :=
  let x := tileGet s d t
  if x.retired then 4 else if x.repair then 3 else if x.item.isSome then 2 else if (tileLogical s d t).isSome then 1 else 0

def tileEntry (s : State) (d t : Nat) : Bytes :=
  let x := tileGet s d t
  le 1 t ++ le 1 (tileState s d t) ++ le 1 ((tileLogical s d t).getD 0xFF) ++ le 1 0 ++ le 4 x.items ++ le 4 x.aborts ++
    le 4 x.lastCyc ++ le 4 x.maxCyc ++ le 4 x.satEnd ++ le 4 x.aovEnd ++ le 4 x.eccCorr

def execTileStatus (c : Cmd) (s : State) : Out :=
  let d := c.u8 0
  let a := c.u64 4
  let g : Gate := { opcode := 0x0704, len := c.inl 12, fitted := ctlFit s d, legal := notBoot, par := d < 2 && c.rsv 1 3 && a % 64 == 0 }
  runCmd g c s (fun s =>
    let x := dieGet s d
    let num := fun (k : Nat) => ((List.range 18).filter (fun t => tileState s d t == k)).length
    let s1 := if a = 0 then s else putBuf a (withCrc ((List.range 18).flatMap (tileEntry s d))) s
    okReply s1 (le 1 (tilesInService s d).length ++ le 1 (num 0) ++ le 2 (x.bind.filter (fun b => b.2.kid != 0)).length ++
      le 4 (x.image.elim 0 (·.crc)) ++ le 4 (x.image.elim 0 (·.build)) ++
      le 4 (x.runs.filter (fun r => r.done && decide (s.tick.index < r.tick + 1024))).length ++ le 4 x.aborts ++ le 4 x.late ++
      le 4 x.eccCorr ++ le 4 x.eccBad))

/-! ### Events of the tiles -/

/-- The cycle limit is reached before END issues (R307). -/
def execTileCycleLimit (die tile : Nat) (s : State) : Out :=
  let x := tileGet s die tile
  if x.item.isSome ∧ x.limit ≤ x.cycles then .next (tileAbort die tile .cycles s) else .next s

/-- An ECC error in program RAM, constants or parameter block: corrected in place, or the item aborted and the tile taken
for repair (R307). -/
def tileEcc (die tile mem addr : Nat) (double : Bool) (s : State) : State :=
  if double then
    let s1 := errorSeen 1 (1 + die) tile true (tileAbort die tile .memory s)
    raise (1 + die) 0x024 0xE1 .contained mem [addr]
      (dieUpd die (fun x => { x with eccBad := inc32 x.eccBad }) (tileUpd die tile (fun x => { x with repair := true }) s1))
  else
    raise (1 + die) 0x024 0xE0 .corrected mem [addr]
      (dieUpd die (fun x => { x with eccCorr := inc32 x.eccCorr })
        (tileUpd die tile (fun x => { x with eccCorr := inc32 x.eccCorr }) (errorSeen 1 (1 + die) tile false s)))

def execTileMemoryError (die tile mem addr : Nat) (double : Bool) (s : State) : Out :=
  if !ctlOk s die ∨ 18 ≤ tile then .next s else .next (tileEcc die tile mem addr double s)

/-- The tile's image is rewritten from the SYS copy and it returns to service (R307). -/
def execTileRepairDone (die tile : Nat) (s : State) : Out := .next (tileUpd die tile (fun x => { x with repair := false }) s)

end Sys2Proof.Machine
end

