-- ==== Sys2Proof/Machine/Fault.lean ====
section
/-! DEFINITION. The fault collector's commands and events (chapter 19), TEST_FAULT_INJECT among them. -/

namespace Sys2Proof.Machine

open Sys2Proof

/-! ### Block and kind codes (Tables 19.2, 19.3, 20.7, 21.9, 22.5, 23.6) -/

/-- Runs of kinds of one class in a block: first kind, last kind, classes the kind can carry. -/
def kindRuns (block : Nat) : Option (List (Nat × Nat × List FClass)) :=
  match block with
  | 0x001 => some [(0x01, 0x07, [.notice]), (0x08, 0x08, [.contained]), (0x09, 0x0A, [.notice]), (0x0B, 0x0B, [.contained]), (0x0C, 0x0C, [.notice])]
  | 0x002 => some [(0x01, 0x02, [.fatal]), (0x03, 0x03, [.corrected]), (0x04, 0x06, [.contained]), (0x07, 0x08, [.fatal])]
  | 0x003 => some [(0x01, 0x01, [.fatal]), (0x02, 0x02, [.corrected])]
  | 0x004 => some []
  | 0x005 => some []
  | 0x008 => some [(0x01, 0x03, [.notice]), (0x10, 0x13, [.notice])]
  | 0x010 => some [(0x01, 0x07, [.notice])]
  | 0x011 => some [(0x01, 0x06, [.notice])]
  | 0x012 => some [(0x01, 0x01, [.corrected, .contained])]
  | 0x015 => some [(0x01, 0x08, [.notice]), (0x09, 0x09, [.fatal]), (0x0A, 0x0A, [.notice]), (0x0B, 0x0B, [.fatal])]
  | 0x020 => some [(0x01, 0x08, [.notice])]
  | 0x021 => some [(0x01, 0x08, [.notice]), (0x09, 0x09, [.contained]), (0x0A, 0x0B, [.notice])]
  | 0x022 => some [(0x01, 0x02, [.notice])]
  | 0x023 => some [(0x01, 0x05, [.notice]), (0x06, 0x07, [.contained]), (0x08, 0x09, [.notice])]
  | 0x024 => some [(0x01, 0x01, [.notice])]
  | 0x030 => some [(0x01, 0x04, [.notice]), (0x05, 0x05, [.contained]), (0x06, 0x07, [.notice])]
  | 0x031 => some [(0x01, 0x03, [.notice])]
  | 0x038 => some [(0x01, 0x01, [.notice, .contained]), (0x02, 0x07, [.notice]), (0x08, 0x08, [.contained]), (0x09, 0x0A, [.notice]), (0x0B, 0x0B, [.contained])]
  | 0x039 => some [(0x01, 0x04, [.notice]), (0x05, 0x05, [.contained]), (0x06, 0x06, [.notice])]
  | 0x03A => some [(0x01, 0x04, [.notice]), (0x05, 0x05, [.contained]), (0x06, 0x08, [.notice]), (0x09, 0x09, [.contained])]
  | 0x03C => some [(0x01, 0x01, [.notice])]
  | 0x040 => some [(0x01, 0x09, [.notice])]
  | 0x041 => some [(0x01, 0x04, [.notice]), (0x05, 0x05, [.contained]), (0x06, 0x0D, [.notice])]
  | 0x042 => some [(0x01, 0x03, [.notice]), (0x04, 0x04, [.contained])]
  | 0x043 => some [(0x01, 0x02, [.notice]), (0x03, 0x03, [.contained]), (0x04, 0x04, [.notice]), (0x05, 0x05, [.contained]), (0x06, 0x09, [.notice])]
  | _ => none

/-- Blocks that own a structure of Table 19.6. -/
def fatalOwner (block : Nat) : Bool := block == 0x004 || block == 0x005 || block == 0x008 || block == 0x015

/-- The classes that a kind can carry; empty where the tables list no such kind. -/
def kindClasses (block kind : Nat) : List FClass :=
  match kindRuns block with
  | none => []
  | some l =>
    match kind with
    | 0xE0 => [.corrected]
    | 0xE1 => if fatalOwner block then [.contained, .fatal] else [.contained]
    | 0xE2 => [.contained]
    | 0xE3 => [.notice]
    | _ => ((l.find? (fun r => r.1 ≤ kind && kind ≤ r.2.1)).map (·.2.2)).getD []

def fatalKind (block kind : Nat) : Bool := (kindClasses block kind).contains .fatal

/-! ### FAULT commands (R516, Table 19.11) -/

def execFaultMaskSet (c : Cmd) (s : State) : Out :=
  let b := c.u16 0
  let k := c.u8 2
  let g : Gate := {
    opcode := 0x0F01, len := c.inl 8, legal := notBoot,
    par := c.u8 3 < 2 && c.rsv 4 4 && (kindRuns b).isSome && (k == 0xFF || !(kindClasses b k).isEmpty) }
  runCmd g c s (fun s =>
    let l := s.fault.masks
    let n := fun (m : List (Nat × Nat)) => le 2 m.length
    if c.u8 3 = 0 then
      let m := l.filter (· != (b, k))
      okReply (s.onFault (fun f => { f with masks := m })) (n m)
    else if (if k = 0xFF then (List.range 0xFF).any (fatalKind b) else fatalKind b k) then ⟨s, .conflict, n l, false⟩
    else if l.contains (b, k) then okReply s (n l)
    else if 64 ≤ l.length then ⟨s, .exhausted, n l, false⟩
    else okReply (s.onFault (fun f => { f with masks := l ++ [(b, k)] })) (n (l ++ [(b, k)])))

def ColState.code : ColState → Nat
  | .armed => 0 | .filling => 1 | .frozen => 2

/-- The 64 places and their CRC. -/
def Colophon.bytes (c : Colophon) : Bytes := withCrc (fit 4096 (c.places.flatMap EvEntry.bytes))

/-- SEQ of the first error. -/
def Colophon.first (c : Colophon) : Nat := if c.state = .armed then 0 else ((c.places.drop c.p).head?.map (fun e => e.seq.toNat)).getD 0

def Colophon.result (c : Colophon) : Bytes :=
  le 1 c.state.code ++ le 1 (if c.state = .armed then 0xFF else c.p) ++ le 2 c.places.length ++ le 4 c.first ++
    le 8 (if c.state = .frozen then c.tick else 0) ++ le 1 c.mask.toNat

def execFaultColophonRead (c : Cmd) (s : State) : Out :=
  let g : Gate := {
    opcode := 0x0F02, len := c.inl 12, legal := notBoot, par := c.u8 0 < 2 && c.rsv 1 3 && c.buf 4 }
  runCmd g c s (fun s =>
    match if c.u8 0 = 0 then some s.fault.col else s.fault.colCopy with
    | some k => okReply (putBuf (c.u64 4) k.bytes s) k.result
    | none => okReply s (le 1 3 ++ le 16 0))

def execFaultColophonRearm (c : Cmd) (s : State) : Out :=
  let m := c.u8 0
  let g : Gate := {
    opcode := 0x0F03, len := c.inl 4, legal := notBoot,
    par := m != 0 && m % 2 == 0 && m < 16 && c.u8 1 < 2 && c.rsv 2 2 }
  runCmd g c s (fun s =>
    okReply (s.onFault (fun f => { f with
      col := { mask := BitVec.ofNat 4 m }, colCopy := if c.u8 1 = 1 then none else f.colCopy }))
      (le 1 s.fault.col.state.code))

def execFaultStatus (c : Cmd) (s : State) : Out :=
  let g : Gate := { opcode := 0x0F04, mb0 := true, len := c.inl 0, legal := notBoot }
  runCmd g c s (fun s =>
    let f := s.fault
    okReply s (le 1 (b2n s.dev.fatal) ++ le 1 f.col.state.code ++ le 2 f.backlog.length ++ le 8 f.cause.toNat ++
      (List.range 4).flatMap (fun i => le 4 (tget 0 f.counts i)) ++ le 4 f.lostCnt ++ le 4 f.mergedAll ++ le 4 f.epCount ++
      le 4 s.tick.index))

/-! ### TEST_FAULT_INJECT (R514) -/

/-- Messages raised since `n` of them waited carry INJECTED. -/
def markInjected (n : Nat) (s : State) : State :=
  s.onFault (fun f => { f with waiting := f.waiting.take n ++ (f.waiting.drop n).map (fun m => { m with injected := true }) })

/-- An injected message enters the collector; the response gives the SEQ it received. -/
def inject (m : FaultMsg) (react : State → State) (s : State) : Reply :=
  let seq := s.fault.seq.toNat
  okReply (markInjected s.fault.waiting.length (react (arrive { m with injected := true } s))) (le 4 seq ++ le 8 s.tick.index)

/-- A reaction that raises a message of its own: its first message is the first entry; where it raises none, `m` is. -/
def injectOwn (m : FaultMsg) (react : State → State) (s : State) : Reply :=
  let n := s.fault.waiting.length
  let s1 := markInjected n (react s)
  match s1.fault.waiting[n]? with
  | some x =>
    okReply (arrive x (s1.onFault (fun f => { f with waiting := f.waiting.take n ++ f.waiting.drop (n + 1) })))
      (le 4 s1.fault.seq.toNat ++ le 8 s.tick.index)
  | none => inject m id s1

/-- The reactions of the collector alone: FATAL, ALIVE, SAFE messages. -/
def collectorReact (m : FaultMsg) (s : State) : State := if m.cls = .fatal then safeAll 0x30 (fatalLatch m s) else s

/-- Mode 0: the collector takes the message, and nothing but its own reactions follows. -/
def injectPlain (m : FaultMsg) (s : State) : Reply :=
  let seq := s.fault.seq.toNat
  okReply (collectorReact m (collect m s)) (le 4 seq ++ le 8 s.tick.index)

/-- The work item of a type-case entry with an uncorrectable error is cancelled, one that runs too; its failure propagates (R315, R324). -/
def itemLost (d : Nat) (i : Item) (s : State) : State :=
  let on := fun (t : Nat) => (tileItem s d t).any (fun x => x.flow == i.flow && x.seq == i.seq)
  let s1 := ((List.range 18).filter on).foldl (fun u t =>
    tileUpd d t (fun x => { x with item := none, rep := none, puts := [], loaded := [] }) u) s
  let s2 := dispEvent d 0x07 .contained i.flow [i.seq]
    (flowUpd d i.flow (fun x => { x with cancelled := inc32 x.cancelled }) (itemDel d i.flow i.seq s1))
  itemFail 64 d i.flow i.v i.bind (journal 5 d i.flow 0 i.seq (i.v % 2 ^ 32) s2)

/-- A segment whose header is lost is discarded (Table 14.4a). -/
def headerLost (c seg : Nat) (s : State) : State := acqEvent 0x05 .contained c [seg] (segRelease c seg s)

/-- The error of a mode 1 injection, found at once: the block that holds the word reacts as its chapter says (R23, R194, R307, R315, R391,
Table 14.4a). `p` is the place of the word in its block. -/
def eccReact (die block p : Nat) (double : Bool) (s : State) : State :=
  match block with
  | 0x024 => tileEcc (die - 1) (p / 2 ^ 16 % 18) p (p % 2 ^ 16) double s
  | 0x030 => contextEcc ((die - 4) * 8 + p / 64 % 8) (p % 64) double s
  | 0x023 =>
    match (dieGet s (die - 1)).items[p]? with
    | some i => if double then itemLost (die - 1) i s else s
    | none => s
  | 0x039 =>
    match (acqGet s (p % 4)).segs[p / 4]? with
    | some g => if double then headerLost (p % 4) g.seg s else s
    | none => s
  | _ => s

def execTestFaultInject (c : Cmd) (s : State) : Out :=
  let mode := c.u8 0
  let die := c.u8 1
  let block := c.u16 2
  let kind := c.u8 4
  let cls := (kindClasses block kind).find? (fun x => x.code == c.u8 5)
  let g : Gate := {
    opcode := 0x7F02, test := true, len := c.inl 16, fitted := 8 ≤ die || dieOk s die, legal := inStates [.factoryTest],
    par := mode < 3 && die < 8 && c.u8 6 < 2 && c.rsv 7 1 && c.rsv 12 4 &&
      (if mode = 1 then (kindRuns block).isSome else cls.isSome && (mode == 0 || cls == some .fatal)) }
  runCmd g c s (fun s =>
    let msg := fun (k : Nat) (x : FClass) (addr : Nat) (d : List Nat) =>
      ({ die := die, block := block, kind := k, cls := x, addr := addr, tick := s.tick.index, d := d, injected := true, interim := false } : FaultMsg)
    if mode = 1 then
      match Config.eccWord die block (c.u32 8) with
      | none => ⟨s, .conflict, [], false⟩
      | some i =>
        let p := Config.eccPlace die block (c.u32 8)
        if c.u8 6 = 0 then injectOwn (msg 0xE0 .corrected i [c.u32 8]) (eccReact die block p false) s
        else if fatalOwner block then
          let m := msg 0xE1 .fatal i [c.u32 8]
          inject m (fun t => fatalReact die (fatalLatch m t)) s
        else if block = 0x03A then inject (msg 0xE1 .contained i [c.u32 8]) (protStop 2) s
        else injectOwn (msg 0xE1 .contained i [c.u32 8]) (eccReact die block p true) s
    else
      let m := msg kind (cls.getD .notice) (c.u32 8) []
      if mode = 0 then injectPlain m s else inject m (fun t => fatalReact die (fatalLatch m t)) s)

/-! ### Events of the collector -/

def execFaultMessageArrive (s : State) : Out := .next (arriveNext s)

/-- A fatal fault decided by a block. -/
def execFatalFault (die block kind addr : Nat) (s : State) : Out :=
  if fatalKind block kind then .next (fatalFault die block kind addr s) else .next s

/-- Where there is a backlog, EN is 1 and a slot is free, the oldest entry moves (R504). -/
def execEvqEntryMove (s : State) : Out :=
  let f := s.fault
  match f.backlog with
  | [] => .next s
  | e :: rest =>
    if !f.ctrl.getLsbD 0 ∨ 64 ≤ (f.tail - f.head).toNat then .next s
    else
      let s1 := s.onFault (fun x => { x with backlog := rest, window := tset x.window (x.tail.toNat % 64) e, tail := x.tail + 1 })
      let s2 := when (f.ctrl.getLsbD 1 && barOn s) (fun t => t.onMb (fun m => { m with msix := 8 :: m.msix })) s1
      if 0 < f.lostRun ∧ rest.length < 512 then
        .next (raise 0 0x008 0x02 .notice 0 [f.lostRun] (s2.onFault (fun x => { x with lostRun := 0 })))
      else .next s2

/-- 64 places are held, or 1 s has passed since the first error (R506). -/
def execColophonFreeze (s : State) : Out :=
  let c := s.fault.col
  if c.state ≠ .filling ∨ (c.places.length < 64 ∧ c.tick ≤ s.tick.index ∧ (s.tick.index - c.tick) * s.tick.len < 1000000) then .next s
  else
    let k : Colophon := { s.fault.col with state := .frozen, tick := s.tick.index }
    .next (raise 0 0x008 0x03 .notice 0 [k.first] (s.onFault (fun f => { f with col := k, colCopy := if 3 ≤ s.spare.given then none else some k })))

/-- Whole seconds of an episode beyond those marked so far raise an interim event (R512). -/
def execGiveWayInterim (s : State) : Out :=
  let due := fun (e : Episode) => decide (e.marks < (s.tick.index - e.first) * s.tick.len / 1000000)
  .next ((s.fault.episodes.filter due).foldl (fun t e => precEvent e (e.last + 1 - e.first) true t)
    (s.onFault (fun f => { f with episodes := f.episodes.map (fun e => if due e then { e with marks := e.marks + 1 } else e) })))

/-! ### Event-queue registers (Tables 19.4 and 19.4a) -/

def execEvqEnableWrite (value : Word32) (s : State) : Out := .next (evqCtrlWrite value s)

def execEvqHeadWrite (value : Word32) (s : State) : Out := .next (evqHeadWrite value s)

/-- The low word is read, and the high word latched with it. -/
def execFatalCauseRead (s : State) : Out :=
  if barOn s then .next (s.onFault (fun f => { f with causeHi := (f.cause >>> 32).setWidth 32 })) else .next s

end Sys2Proof.Machine
end

