-- ==== Sys2Proof/Machine/Pwm.lean ====
section
/-! DEFINITION. The PWM commands (Table 9.10) and the events of direct pairs and comparators (chapter 9). -/

namespace Sys2Proof.Machine

open Sys2Proof

def execPwmArmConfig (c : Cmd) (s : State) : Out :=
  let a := c.u8 0
  let k : GenCfg := { ev := c.u8 1, eps := c.u16 2, emax := c.u32 4 }
  let g : Gate := {
    opcode := 0x0501, len := c.inl 8, fitted := armFit s a, legal := busyStates, roles := actStby, free := !setHeld s 2,
    par := a < 12 && k.ev < 4 && 1 ≤ k.eps && k.eps ≤ 256 && k.emax ≤ stepsOf s.tick.len }
  runCmd g c s (fun s => okReply (stage 2 c.params (s.onPwm (fun w => { w with genNew := tset w.genNew a k })))
    (le 4 (emaxOf k (stepsOf s.tick.len))))

def readPairCfg (c : Cmd) : PairCfg :=
  { mode := c.u8 1, div := c.u16 2, period := c.u16 4, phase := c.u16 6, src := c.u16 8, dfix := c.u16 10, dtMin := c.u16 12,
    dtMax := c.u16 14, dtMargin := c.u16 16, ev := c.u8 18, eps := c.u16 20 }

/-- The ranges of Table 9.9 and the limits of R241. -/
def pairParOk (c : Cmd) (k : PairCfg) : Bool :=
  let kind := k.src / 16384
  k.mode < 32 && pairMode k != 3 && 1 ≤ k.div && k.div ≤ 256 && 1 ≤ k.period && k.phase ≤ k.period && kind < 3 &&
    k.src / 512 % 32 == 0 && (kind != 2 || k.src / 16 % 16 == 0) && 20 ≤ k.dtMin && k.dtMin ≤ k.dtMax && k.dtMax ≤ 16000 &&
    4 * k.dtMax < pairPeriod k && 2000 ≤ pairPeriod k && pairPeriod k ≤ 65535000 && k.dtMargin ≤ 5000 && k.ev < 16 &&
    1 ≤ k.eps && k.eps ≤ 256 && c.rsv 19 1 && c.rsv 22 2

def execPwmPairConfig (c : Cmd) (s : State) : Out :=
  let p := c.u8 0
  let k := readPairCfg c
  let g : Gate := {
    opcode := 0x0502, len := c.inl 24, fitted := mprOk s, legal := busyStates, roles := actStby, free := !setHeld s 2,
    par := p < 8 && pairParOk c k }
  runCmd g c s (fun s =>
    if k.src / 16384 ≠ 0 ∧ !ctlOk s (k.src / 256 % 2) then ⟨s, .conflict, [], false⟩
    else okReply (stage 2 c.params (s.onPwm (fun w => { w with pairNew := tset w.pairNew p k }))) (le 4 (pairPeriod k)))

def execPwmTripConfig (c : Cmd) (s : State) : Out :=
  let n := c.u8 0
  let k : CmpCfg := { flags := c.u8 1, thr := c.u16 2, pmask := c.u8 4 }
  let g : Gate := {
    opcode := 0x0503, len := c.inl 8, fitted := mprOk s, legal := busyStates, roles := actStby, free := !setHeld s 2,
    par := n < 24 && k.flags < 32 && k.thr < 4096 && c.rsv 5 3 }
  runCmd g c s (fun s => okReply (stage 2 c.params (s.onPwm (fun w => { w with cmpNew := tset w.cmpNew n k })))
    (le 4 (roundDiv (k.thr * 78125) 100).toNat))

def execPwmTripClear (c : Cmd) (s : State) : Out :=
  let cm := c.u32 0
  let pm := c.u8 4
  let g : Gate := {
    opcode := 0x0504, len := c.inl 8, fitted := mprOk s, legal := busyStates, roles := actStby,
    par := cm < 2 ^ 24 && c.rsv 5 3 && (cm != 0 || pm != 0) }
  runCmd g c s (fun s =>
    let pairs := (List.range 8).filter (bit pm)
    let act := fun (n : Nat) => s.pwm.active.getLsbD n
    if (List.range 24).any (fun n => bit cm n && act n) ∨ pairs.any (fun p => (tripSources s p).any act) then
      ⟨s, .tripActive, [], false⟩
    else if pairs.any (fun p => (tripSources s p).any (fun n => s.pwm.latched.getLsbD n && !bit cm n)) then
      ⟨s, .conflict, [], false⟩
    else
      let s1 := s.onPwm (fun w => { w with latched := w.latched &&& ~~~(BitVec.ofNat 24 cm) })
      let s2 := pairs.foldl (fun t p => pairUpd p (fun x => { x with latch := false }) t) s1
      let s3 := if s2.pwm.latched = 0 then s2.onPwm (fun w => { w with first := none }) else s2
      okReply s3 (le 4 s3.pwm.latched.toNat ++ le 1 (maskOf ((List.range 8).filter (fun p => (pairGet s3 p).latch))) ++ le 3 0))

def listMin (l : List Nat) : Nat := l.foldl min (l.headD 0)

def listMax (l : List Nat) : Nat := l.foldl max 0

/-- PSTATE of Table 9.11. -/
def pairState (s : State) (p : Nat) : Nat :=
  let x := pairGet s p
  if x.latch then 3 else if pairMode (pairCfg s p) = 0 then 0 else if x.run then 1 else 2

def execPwmStatus (c : Cmd) (s : State) : Out :=
  let kind := c.u8 0
  let i := c.u8 1
  let g : Gate := {
    opcode := 0x0505, len := c.inl 4, legal := notBoot,
    fitted := if kind = 0 then armFit s i else if kind < 3 then mprOk s else true,
    par := kind < 3 && (kind != 0 || i < 12) && (kind != 1 || i < 8) && (kind != 2 || i == 0) && c.rsv 2 2 }
  runCmd g c s (fun s =>
    if kind = 0 then
      let x := genGet s i
      okReply s (le 1 i ++ le 1 (b2n x.baseIn + 2 * b2n x.bpolNeg) ++ le 2 ((armGet s i).desig.getD 0xFFFF) ++ leS 4 x.carry ++
        leS 4 x.wout ++ le 4 x.sats ++ le 4 x.resets ++ le 4 x.noWin ++ le 8 x.edges)
    else if kind = 1 then
      let x := pairGet s i
      okReply s (le 1 i ++ le 1 (pairState s i) ++ le 2 x.tag.toNat ++ le 2 x.cmp ++ le 2 0 ++ le 2 (listMin (x.dtA.map (·.2))) ++
        le 2 (listMax (x.dtA.map (·.2))) ++ le 2 (listMin (x.dtB.map (·.2))) ++ le 2 (listMax (x.dtB.map (·.2))) ++ le 4 x.missed ++ le 4 x.trips ++
        le 4 (maskOf ((tripSources s i).filter (fun n => s.pwm.latched.getLsbD n))))
    else
      let w := s.pwm
      okReply s (le 4 w.active.toNat ++ le 4 w.latched.toNat ++ le 4 w.blockedBy.toNat ++ le 1 (w.first.elim 0xFF (·.1)) ++
        le 3 0 ++ le 8 (w.first.elim 0 (·.2)) ++ le 1 (maskOf ((List.range 8).filter (fun p => (pairGet s p).latch))) ++ le 1 0))

/-! ### Direct pairs -/

/-- A pair that exists and whose counter runs. -/
def pairOn (s : State) (p : Nat) : Bool := mprOk s && p < 8 && pairMode (pairCfg s p) != 0

/-- A period more; dead times of the last 1,024 are kept (R244). -/
def periodNext (x : PwmPair) : PwmPair :=
  let n := x.periods + 1
  { x with periods := n, dtA := x.dtA.filter (fun e => n < e.1 + 1024), dtB := x.dtB.filter (fun e => n < e.1 + 1024) }

/-- The counter becomes 0: occurrence, reload strobe, start, and A's demand below CMP (R241 to R246). -/
def execPairCounterZero (pair offset : Nat) (s : State) : Out :=
  if !pairOn s pair ∨ pairCount s pair offset ≠ some 0 then .next s
  else
    let s1 := reload pair (pairOccur pair 1 offset (pairUpd pair periodNext s))
    let s2 := setDemand pair (decide (0 < (pairGet s1 pair).cmp)) offset s1
    .next (pairStart pair s2)

/-- The counter becomes P: occurrence, and a reload where RELOAD2 is 1 in centre-aligned mode (Table 9.2). -/
def execPairCounterPeriod (pair offset : Nat) (s : State) : Out :=
  let c := pairCfg s pair
  if !pairOn s pair ∨ pairCount s pair offset ≠ some c.period then .next s
  else
    let s1 := pairOccur pair 3 offset s
    let s2 := if centred c ∧ bit c.mode 3 then reload pair s1 else s1
    .next (setDemand pair (decide (c.period < (pairGet s2 pair).cmp)) offset s2)

/-- The counter passes CMP: becoming CMP on its way up it ends A's demand, falling below it on its way down begins it (R242). CMP 0 and CMP
above P are never passed. -/
def execPairCompareMatch (pair offset : Nat) (up : Bool) (s : State) : Out :=
  let c := pairCfg s pair
  let m := (pairGet s pair).cmp
  if !pairOn s pair ∨ m = 0 ∨ c.period < m ∨ (!up ∧ !centred c) then .next s
  else if pairCount s pair offset = some (if up then m else 2 * c.period + 1 - m) then .next (setDemand pair (!up) offset s)
  else .next s

/-- A published value reaches the holding register with its tag (R243). -/
def execPairDutyArrival (pair : Nat) (s : State) : Out :=
  .next (pairUpd pair (fun x => match x.coming with
    | some (v, t) => { x with hold := v, holdTag := t, coming := none }
    | none => x) s)

/-- SWNn reads the awaited level `ns` after the falling edge that began the dead time, within DT_max (R244). -/
def execPairCommutationSensed (pair : Nat) (high : Bool) (ns : Nat) (s : State) : Out :=
  let c := pairCfg s pair
  .next (pairUpd pair (fun x => match x.dead with
    | some d => if d.toB ≠ high ∧ d.sensed.isNone ∧ !d.fixed ∧ ns ≤ c.dtMax then { x with dead := some { d with sensed := some ns } } else x
    | none => x) s)

/-- The dead time ends: the other output turns on where its demand still holds (R244, R245). -/
def execPairDeadtimeEnd (pair : Nat) (s : State) : Out :=
  let c := pairCfg s pair
  .next (pairUpd pair (fun x => match x.dead with
    | none => x
    | some d =>
      let dt := deadTime c d.sensed
      let miss := d.sensed.isNone && !d.fixed
      let y := { x with dead := none, missed := if miss then inc32 x.missed else x.missed }
      if d.toB then { y with outB := y.run && !y.demand, dtB := if d.fixed then y.dtB else (y.periods, dt) :: y.dtB }
      else { y with outA := y.run && y.demand, dtA := if d.fixed then y.dtA else (y.periods, dt) :: y.dtA }) s)

/-! ### Comparators -/

/-- A comparator becomes active: latches, pairs, block frames and the transition with cause 0x31 (R248); STOCMP sets the
Mordant latch (R478). -/
def execComparatorActive (cmp : Nat) (s : State) : Out :=
  let k := cmpCfg s cmp
  if 24 ≤ cmp ∨ !mprOk s ∨ !bit k.flags 0 then .next s
  else
    let b : BitVec 24 := 1#24 <<< cmp
    let blocks := bit k.flags 2 && (s.dev.state == .standby || s.dev.state == .deblocked || s.dev.state == .safeStop)
    let s1 := s.onPwm (fun w => { w with
      active := w.active ||| b, latched := w.latched ||| b,
      first := if w.latched = 0 then some (cmp, s.tick.index) else w.first,
      blockedBy := if blocks then w.blockedBy ||| b else w.blockedBy })
    let s2 := ((List.range 8).filter (bit k.pmask)).foldl (fun t p => pairTrip p t) s1
    let s3 := raise 3 0x022 0x01 .notice cmp [k.pmask, b2n (bit k.flags 2)] s2
    .next (stoInput cmp (when blocks (fun t => addTrigger .blockedFault 0x31 0 (blockAll 0x31 t)) s3))

/-- The input returns past threshold and hysteresis; the latch stays set (R248). -/
def execComparatorInactive (cmp : Nat) (s : State) : Out :=
  .next (s.onPwm (fun w => { w with active := w.active &&& ~~~(1#24 <<< cmp) }))

end Sys2Proof.Machine
end

