-- ==== Sys2Proof/Machine/Loop.lean ====
section
/-! DEFINITION. The LOOP commands (Table 10.9) and the loop engine's own events (chapter 10). -/

namespace Sys2Proof.Machine

open Sys2Proof

/-- The LCH's die is fitted (Table 10.8); bits [15:9] are reserved. -/
def lchFit (s : State) (w : Nat) : Bool := !isM2 s && ctlOk s (w / 256 % 2)

def lchOk (s : State) (w : Nat) : Bool := w < 512 && w % 256 < loopChannels s.tick.len

/-- The channels of a die in its shadow set. -/
def shadowChannels (s : State) (die : Nat) : List LoopCfg :=
  ((List.range 256).map (fun n => loopShadow s (256 * die + n)))

def stageLoop (l : Nat) (c : Cmd) (k : LoopCfg) (s : State) : State :=
  stage 0 c.params (s.onLoop (fun x => { x with cfgNew := tset x.cfgNew l k }))

def loopStates : DevState → Bool := busyStates

/-- A feed-forward source has class 0x1, 0x2, 0x5, or 0x7 with index 1 (R269); none where there is no feed-forward. -/
def ffOk (mode sel : Nat) : Bool :=
  match sel / 4096 with
  | 0 => mode == 0
  | 1 | 2 | 5 => true
  | 7 => sel % 4096 == 1
  | _ => false

def execLoopChannelConfig (c : Cmd) (s : State) : Out :=
  let l := c.u16 0
  let die := l / 256 % 2
  let old := loopShadow s l
  let k : LoopCfg := { old with
    form := c.u8 2, ffmode := c.u8 3, ref := c.u16 4, fb := c.u16 6, ffsrc := c.u16 8, track := c.u16 10, uhi := c.s32 12,
    ulo := c.s32 16, kb := c.s32 20, kff := c.s32 24, xmin := c.s32 28, limscale := c.u8 32, rconst := c.s32 36 }
  let sels := [k.ref, k.fb, k.ffsrc, k.track]
  let g : Gate := {
    opcode := 0x0601, len := c.inl 40, fitted := lchFit s l, legal := inStates [.config, .standby, .blockedFault],
    roles := actStby, free := !setHeld s 0,
    par := lchOk s l && k.form < 64 && k.ffmode < 3 && sels.all (selOk s.tick.len) && ffOk k.ffmode k.ffsrc && k.ulo ≤ k.uhi &&
      0 ≤ k.kb && k.kb ≤ 536870912 && 0 < k.xmin && k.limscale < 4 && c.rsv 33 3 &&
      (k.third || old.coef.all (fun e => e.2.getD 3 0 == 0 && e.2.getD 6 0 == 0)) }
  runCmd g c s (fun s =>
    if !sels.all (selFit s die) || k.usafe < k.ulo || k.uhi < k.usafe then ⟨s, .conflict, [], false⟩
    else
      let s1 := stageLoop l c k s
      let sh := shadowChannels s1 die
      if 16 < (sh.filter LoopCfg.privileged).length || 192 < (sh.filter LoopCfg.repetitive).length then ⟨s, .exhausted, [], false⟩
      else okReply s1 (le 2 (sh.filter LoopCfg.privileged).length ++
        le 2 (sh.filter (fun x => x.shape != 0 && x.rank1)).length))

def execLoopCoeffLoad (c : Cmd) (s : State) : Out :=
  let l := c.u16 0
  let old := loopShadow s l
  let r := c.u8 2
  let ks := (List.range 7).map (fun n => c.s32 (4 + 4 * n))
  let k : LoopCfg := { old with coef := tset old.coef r ks }
  let g : Gate := {
    opcode := 0x0602, len := c.inl 32, fitted := lchFit s l, legal := loopStates, roles := actStby, free := !setHeld s 0,
    par := lchOk s l && r < 8 && c.rsv 3 1 && (old.third || (ks.getD 3 0 == 0 && ks.getD 6 0 == 0)) }
  runCmd g c s (fun s => okReply (stageLoop l c k s) [])

def execLoopTableLoad (c : Cmd) (s : State) : Out :=
  let l := c.u16 0
  let old := loopShadow s l
  let k : LoopCfg := { old with q := c.u8 2, gains := (List.range 64).map (fun n => c.s32 (4 + 4 * n)) }
  let g : Gate := {
    opcode := 0x0603, len := c.extLen (· == 260), fitted := lchFit s l, legal := loopStates, roles := actStby,
    free := !setHeld s 0, par := lchOk s l && c.u8 2 ≤ 24 && c.rsv 3 1 }
  runCmd g c s (fun s => okReply (stageLoop l c k s) (le 4 (2 ^ (28 - k.q))))

/-- θ_1 to θ_{R-1} ascend strictly, and the rest are zero. -/
def thetasOk (r : Nat) (ts : List Int) : Bool :=
  let u := ts.take (r - 1)
  (u.zip (u.drop 1)).all (fun p => p.1 < p.2) && (ts.drop (r - 1)).all (· == 0)

def execLoopScheduleConfig (c : Cmd) (s : State) : Out :=
  let l := c.u16 0
  let die := l / 256 % 2
  let r := c.u8 2
  let ts := (List.range 7).map (fun n => c.s32 (12 + 4 * n))
  let sel := c.u16 4
  let k : LoopCfg := { loopShadow s l with
    regions := r, mag := c.u8 3 == 1, sched := sel, hyst := c.s32 8, thetas := ts.take (r - 1) }
  let g : Gate := {
    opcode := 0x0604, len := c.inl 40, fitted := lchFit s l, legal := loopStates, roles := actStby, free := !setHeld s 0,
    par := lchOk s l && 1 ≤ r && r ≤ 8 && c.u8 3 < 2 && selOk s.tick.len sel && (r == 1 || 4096 ≤ sel) && c.rsv 6 2 &&
      0 ≤ c.s32 8 && c.s32 8 ≤ one28 && thetasOk r ts }
  runCmd g c s (fun s =>
    if !selFit s die sel then ⟨s, .conflict, [], false⟩
    else okReply (stageLoop l c k s) (le 1 (entryRegion (loopRead s s die k.rank1) k)))

def execLoopRepetitiveConfig (c : Cmd) (s : State) : Out :=
  let l := c.u16 0
  let die := l / 256 % 2
  let k : LoopCfg := { loopShadow s l with
    rflags := c.u8 2, lead := c.u8 3, phase := c.u16 4, kr := c.s32 8, qf := c.s32 12, mlim := c.s32 16 }
  let g : Gate := {
    opcode := 0x0605, len := c.inl 20, fitted := lchFit s l, legal := loopStates, roles := actStby, free := !setHeld s 0,
    par := lchOk s l && k.rflags < 8 && selOk s.tick.len k.phase && (!bit k.rflags 0 || 4096 ≤ k.phase) && c.rsv 6 2 &&
      0 ≤ k.qf && k.qf ≤ 536870912 && 0 ≤ k.mlim }
  runCmd g c s (fun s =>
    if !selFit s die k.phase then ⟨s, .conflict, [], false⟩
    else
      let s1 := stageLoop l c k s
      let n := ((shadowChannels s1 die).filter LoopCfg.repetitive).length
      if 192 < n then ⟨s, .exhausted, [], false⟩ else okReply s1 (le 2 n))

def execLoopSupervisorConfig (c : Cmd) (s : State) : Out :=
  let l := c.u16 0
  let old := loopShadow s l
  let k : LoopCfg := { old with
    nfrz := c.u8 2, ht := c.u8 3, fbk := c.u8 4, sflags := c.u8 5, satTime := c.u16 6, satAct := c.u8 8, usafe := c.s32 12,
    rfb := c.s32 16 }
  let g : Gate := {
    opcode := 0x0606, len := c.inl 20, fitted := lchFit s l, legal := loopStates, roles := actStby, free := !setHeld s 0,
    par := lchOk s l && 4 ≤ k.nfrz && k.ht ≤ 64 && k.fbk < 3 && k.sflags < 16 && k.satAct < 2 && c.rsv 9 3 &&
      old.ulo ≤ k.usafe && k.usafe ≤ old.uhi && 0 < k.rfb && k.rfb ≤ one28 }
  runCmd g c s (fun s => okReply (stageLoop l c k s) [])

/-- How a channel reads its signals outside the evaluation sweep. -/
def loopRd (s : State) (l : Nat) : Nat → Sig := loopRead s s (l / 256) (loopCfg s l).rank1

/-- The bin in which the phase stands; 0xFFFF without a controller (R267, Table 10.10). -/
def presentBin (s : State) (l : Nat) : Nat :=
  if (loopCfg s l).repetitive then phaseBin (loopRd s l (loopCfg s l).phase).v else 0xFFFF

/-- One entry of Table 10.10. -/
def loopEntry (s : State) (l : Nat) : Bytes :=
  let x := loopGet s l
  let fl := b2n x.fbBad + 2 * b2n x.frozen + 4 * b2n x.hi + 8 * b2n x.lo + 16 * b2n x.scaled + 32 * b2n x.learn +
    64 * b2n (x.inBad != 0)
  le 2 l ++ le 1 x.mode.code ++ le 1 x.region ++ le 1 fl ++ le 1 0 ++ le 2 (min x.sat 65535) ++ leS 4 x.u ++ leS 4 x.e ++
    leS 4 x.v ++ le 2 (presentBin s l) ++ le 2 (min x.frz 65535) ++
    le 4 x.supervised ++ le 4 x.switches

def execLoopStatus (c : Cmd) (s : State) : Out :=
  let l := c.u16 0
  let n := c.u16 2
  let a := c.u64 4
  let g : Gate := {
    opcode := 0x0607, len := c.inl 12, fitted := lchFit s l, legal := notBoot,
    par := l < 512 && 1 ≤ n && l % 256 + n ≤ loopChannels s.tick.len && a % 64 == 0 }
  runCmd g c s (fun s =>
    let ls := (List.range n).map (l + ·)
    let num := fun (p : LoopCh → Bool) => (ls.filter (fun x => p (loopGet s x))).length
    let s1 := if a = 0 then s else putBuf a (withCrc (ls.flatMap (loopEntry s))) s
    okReply s1 (le 2 (if a = 0 then 0 else n) ++ le 2 (num (fun x => x.mode == .run)) ++ le 2 (num (fun x => x.mode == .hold)) ++
      le 2 (num (fun x => x.mode.fallback)) ++ le 2 (num (fun x => x.hi || x.lo)) ++ le 2 0 ++ le 2 (tget 0 s.loop.ends 0) ++
      le 2 (tget 0 s.loop.ends 1) ++ le 4 s.tick.index))

/-! ### Events of the engine -/

/-- H_t evaluations in HOLD without good feedback (R274). -/
def execLoopHoldExpiry (lch : Nat) (s : State) : Out :=
  let c := loopCfg s lch
  let lim := loopLimits s c
  let s1 := holdExpire lch c s
  if (loopGet s1 lch).mode.fallback ∧ (loopGet s lch).mode = .hold then .next (loopUpd lch (fallbackStep c lim.1 lim.2.1) s1) else .next s1

/-- The saturation time is reached (R275). -/
def execLoopSatTimeReached (lch : Nat) (s : State) : Out :=
  let lim := loopLimits s (loopCfg s lch)
  .next (satExpire lch (loopCfg s lch) lim.1 lim.2.1 s)

/-- Feedback good in 64 consecutive evaluations with AUTO_RESUME set (Table 10.5). -/
def execLoopAutoResume (lch : Nat) (s : State) : Out :=
  let c := loopCfg s lch
  if resumeDue c (loopGet s lch) then
    let lim := loopLimits s c
    .next (runEval lch (loopRd s lch) c lim.1 lim.2.1 (resume lch (loopRd s lch) c true s))
  else .next s

end Sys2Proof.Machine
end

