-- ==== Sys2Proof/Machine/Mailbox.lean ====
section
/-! DEFINITION. The mailbox hardware (R82 to R93): control registers, doorbells, fetching, held and final responses. -/

namespace Sys2Proof.Machine

open Sys2Proof

/-! ### Control block registers (R83 to R85) -/

def ringError (mb : Nat) (s : State) : State := mbUpd mb (fun x => { x with ringErr := true }) s

def ringBase (b : Word64) : Bool := b != 0 && b.toNat % 4096 == 0

/-- A write of MBn_CTRL. EN = 1 needs both ring bases; EN = 0 stops fetching, and ENABLED falls after the last final response. -/
def mbCtrlWrite (mb : Nat) (value : Word32) (s : State) : State :=
  let b := mbGet s mb
  if !barOn s then s
  else if value.getLsbD 0 then
    if ringBase b.cmdBase && ringBase b.rspBase then mbUpd mb (fun x => { x with ctrl := value &&& 3, enabled := true }) s
    else ringError mb (mbUpd mb (fun x => { x with ctrl := value &&& 2 }) s)
  else settle mb (mbUpd mb (fun x => { x with ctrl := value &&& 2 }) s)

/-- A doorbell (R84). -/
def doorbellWrite (mb : Nat) (value : Word32) (s : State) : State :=
  let b := mbGet s mb
  let t : Word16 := value.setWidth 16
  if !barOn s then s
  else if b.ctrl.getLsbD 0 ∧ (t - b.cmdHead).toNat ≤ 64 ∧ (t - b.cmdTail).toNat ≤ 64 then mbUpd mb (fun x => { x with cmdTail := t }) s
  else ringError mb s

/-- A write of MBn_RSP_HEAD (R83). -/
def rspHeadWrite (mb : Nat) (value : Word32) (s : State) : State :=
  let b := mbGet s mb
  let h : Word16 := value.setWidth 16
  if !barOn s then s
  else if (h - b.rspHead).toNat ≤ (b.rspTail - b.rspHead).toNat then mbUpd mb (fun x => { x with rspHead := h }) s
  else ringError mb s

/-- A write of EN = 1. -/
def execMbEnable (mb : Fin 8) (value : Word32) (s : State) : Out := .next (mbCtrlWrite mb.val (value ||| 1) s)

/-- A write of EN = 0. -/
def execMbDisable (mb : Fin 8) (value : Word32) (s : State) : Out := .next (mbCtrlWrite mb.val (value &&& 0xFFFFFFFE) s)

def execMbDoorbell (mb : Fin 8) (value : Word32) (s : State) : Out := .next (doorbellWrite mb.val value s)

def execMbRspHeadWrite (mb : Fin 8) (value : Word32) (s : State) : Out := .next (rspHeadWrite mb.val value s)

/-! ### Fetching (R86, R92, R95) -/

/-- Commands of each group of Table 4.16, numbered from 1. -/
def groupSize (g : Nat) : Nat :=
  match g with
  | 0x01 => 7 | 0x02 => 3 | 0x03 => 9 | 0x04 => 5 | 0x05 => 5 | 0x06 => 7 | 0x07 => 4 | 0x08 => 4 | 0x09 => 7 | 0x0A => 5 | 0x0B => 7
  | 0x0C => 6 | 0x0D => 5 | 0x0E => 7 | 0x0F => 4 | 0x10 => 5 | 0x11 => 6 | 0x12 => 3 | 0x13 => 3 | 0x7F => 2 | _ => 0

def opcodeKnown (op : Nat) : Bool := 1 ≤ op % 256 && op % 256 ≤ groupSize (op / 256)

/-- The mailbox fetches: EN is 1, an entry waits, no response is held. -/
def fetchable (s : State) (n : Nat) : Bool :=
  let b := mbGet s n
  b.ctrl.getLsbD 0 && b.cmdHead != b.cmdTail && b.held.isEmpty

/-- MB0 first, then MB1 to MB7 in turn after the one served last. -/
def nextMailbox (s : State) : Option Nat :=
  if fetchable s 0 then some 0 else ((List.range 7).map (fun i => (s.mb.served + i) % 7 + 1)).find? (fetchable s)

/-- Check 1 of Table 4.9 on the entry: its CRC, its SEQ byte, and an external block's CRC where the block is read at all, which the
block's own length decides. -/
def entryCrc (entry : Bytes) : Bool := (crc32c (entry.take 60)).toNat == rd entry 60 4

def entrySeq (entry : Bytes) (head : Word16) : Bool := rd entry 7 1 == head.toNat % 256

def blockGood (entry block : Bytes) : Bool :=
  let n := rd entry 16 4
  let read := (rd entry 6 1) % 2 == 1 && 4 ≤ n && n ≤ 1048576 && n % 4 == 0
  !read || (block.length == n && (crc32c block).toNat == rd entry 20 4)

/-- Answer an entry that goes no further. -/
def answerEntry (n : Nat) (entry : Bytes) (st : Status) (s : State) : State :=
  let op := rd entry 0 2
  let s1 := respond ⟨n, op, rd entry 2 2, rd entry 7 1, st, true, s.tick.index, []⟩ s
  settle n (logAdd op (st.code % 256) (st.code / 256) n s1)

/-- The firmware takes the next entry; while booting the hardware answers BUSY without a check. An entry that passes checks 1 and 2
is in hand, and its command follows. -/
def execCommandFetch (entry block : Bytes) (s : State) : Out :=
  if !barOn s ∨ s.mb.inHand.isSome then .next s
  else
    match nextMailbox s with
    | none => .next s
    | some n =>
      let h := (mbGet s n).cmdHead
      let s1 := mbUpd n (fun x => { x with cmdHead := x.cmdHead + 1 }) (s.onMb (fun m => { m with served := if n = 0 then m.served else n }))
      let s2 := if booting s ∨ entrySeq entry h then s1 else mbUpd n (fun x => { x with seqErr := true }) s1
      if booting s then .next (answerEntry n entry .busy s1)
      else if !entryCrc entry ∨ !entrySeq entry h ∨ !blockGood entry block then .next (answerEntry n entry .crcFail s2)
      else if !opcodeKnown (rd entry 0 2) then .next (answerEntry n entry .badOpcode s2)
      else .next (s2.onMb (fun m => { m with inHand := some ⟨n, rd entry 0 2, rd entry 2 2, rd entry 7 1, s.tick.index⟩ }))

/-! ### Responses (R85, R93) -/

/-- A held response is written once there is room; a segment released by its command is free from then on (R389). -/
def execHeldResponseWrite (mb : Fin 8) (s : State) : Out :=
  let b := mbGet s mb.val
  match b.held with
  | [] => .next s
  | r :: rest =>
    if !ringRoom b ∨ !barOn s then .next s
    else .next (settle mb.val (segsFree r.mb r.tag r.seq (writeRsp r (mbUpd mb.val (fun x => { x with held := rest }) s))))

/-- The command whose final response is due: the oldest of the mailbox with an outcome, else the oldest whose own work ends. -/
def finalDue (s : State) (n : Nat) : Option (PendingCmd × Status × Bytes × Nat) :=
  let l := s.mb.pend.filter (fun p => p.mb == n)
  match l.find? (fun p => p.outcome.isSome) with
  | some p => p.outcome.map (fun o => (p, o.1, o.2.1, o.2.2))
  | none => (l.find? (fun p => p.work.isSome)).bind (fun p => p.work.map (fun w => (p, w.1, w.2, s.tick.index)))

def execFinalResponse (mb : Fin 8) (s : State) : Out :=
  match finalDue s mb.val with
  | none => .next s
  | some (p, st, r, k) =>
    let s1 := s.onMb (fun m => { m with pend := m.pend.erase p })
    let s2 := respond ⟨p.mb, p.opcode, p.tag, p.seq, st, true, k, r.take 44⟩ s1
    let s3 := if st == .ok then s2 else logAdd p.opcode (st.code % 256) (st.code / 256) p.mb s2
    .next (settle mb.val (release p.mb p.tag p.seq s3))

end Sys2Proof.Machine
end

