-- ==== Sys2Proof/Machine/MonOps.lean ====
section
/-! DEFINITION. Shared operations of the monitors (R589 to R591). -/

namespace Sys2Proof.Machine

open Sys2Proof

def monGet (s : State) (m : Nat) : Monitor := tget {} s.spare.mon m

def monUpd (m : Nat) (f : Monitor → Monitor) (s : State) : State := s.onSpare (fun x => { x with mon := tupd {} x.mon m f })

/-- A 32-bit value as the monitor compares it. -/
def monVal (x : Monitor) (v : Nat) : Int := if x.signed ∧ 2 ^ 31 ≤ v then (v : Int) - (2 ^ 32 : Nat) else v

/-- The bin of a sample. -/
def monBin (x : Monitor) (v : Int) : Nat :=
  let lo := monVal x x.lo
  if v < lo then 0 else if lo + 30 * x.w ≤ v then 31 else 1 + ((v - lo) / x.w).toNat

/-- The sum stays within 64 bits. -/
def monSum (x : Monitor) (t : Int) : Int := if x.signed then satS 64 t else min t ((2 ^ 64 - 1 : Nat) : Int)

/-- One sample in the values of a monitor, and whether a count or the sum stood at its limit. -/
def monTake (x : Monitor) (v : Int) : MonVals × Bool :=
  let a := x.vals
  let b := monBin x v
  let n := tget 0 a.bins b
  let sum := monSum x (a.sum + v)
  ({ a with
     count := min (a.count + 1) (2 ^ 64 - 1), min := if a.count = 0 ∨ v < a.min then v else a.min,
     max := if a.count = 0 ∨ a.max < v then v else a.max, sum := sum, last := v, bins := tset a.bins b (inc32 n) },
   n == 0xFFFFFFFF || sum != a.sum + v)

/-- A reset clears every field and sets START_TICK. -/
def monReset (tick : Nat) (x : Monitor) : Monitor :=
  { x with vals := { start := tick }, hit := false, stopped := false, excess := 0, overWin := none }

/-- The words of a window from its values, by offset / 4 (Table 23.8). -/
def monWord (x : Monitor) (v : MonVals) (i : Nat) : Nat :=
  match i with
  | 0 => v.count % 2 ^ 32
  | 1 => v.count / 2 ^ 32
  | 2 => word32 v.min
  | 3 => word32 v.max
  | 4 => word32 v.sum
  | 5 => word32 (v.sum / (2 ^ 32 : Nat))
  | 6 => word32 v.last
  | 7 => x.point
  | 8 => b2n x.on + 2 * b2n x.signed + 4 * b2n x.hit + 8 * b2n x.stopped
  | 9 => v.start % 2 ^ 32
  | 10 => v.start / 2 ^ 32
  | _ => if 32 ≤ i ∧ i < 64 then tget 0 v.bins (i - 32) else 0

/-- Instances of a point class (Table 23.7). -/
def pointCount (cls : Nat) : Nat :=
  match cls with
  | 0x1 => 2 | 0x2 => 16 | 0x3 => 128 | 0x4 => 32 | 0x5 => 2 | 0x6 => 2 | 0x7 => 32 | 0x8 => 12 | 0x9 => 12 | 0xA => 64 | 0xB => 8
  | 0xC => 1 | 0xD => 8 | 0xE => 128 | 0xF => 1 | _ => 0

/-- The unit of a point is there. -/
def pointFitted (s : State) (cls i : Nat) : Bool :=
  match cls with
  | 0x1 => ctlOk s i
  | 0x2 => ctlOk s (i / 8)
  | 0x3 => ctlOk s (i / 64)
  | 0x4 => ctlOk s (i / 16) && (tileOf s (i / 16) (i % 16)).isSome
  | 0x5 => ctlOk s i
  | 0x6 => ctlOk s i
  | 0x7 => portOk s i
  | 0x8 => armOk s i
  | 0x9 => armOk s i
  | 0xA => mprOk s && unitIn s (mChan s i).unit
  | 0xB => dieOk s i
  | _ => true

end Sys2Proof.Machine
end

