-- ==== Sys2Proof/Machine/Mon.lean ====
section
/-! DEFINITION. MON commands and monitor samples (chapter 23). -/

namespace Sys2Proof.Machine

open Sys2Proof

def execMonAttach (c : Cmd) (s : State) : Out :=
  let m := c.u8 0
  let point := c.u16 2
  let cls := point / 4096
  let i := point % 4096
  let g : Gate := {
    opcode := 0x1301, len := c.inl 20, legal := notBoot, fitted := pointCount cls ≤ i || pointFitted s cls i,
    par := m < 32 && c.u8 1 < 4 && i < pointCount cls && 1 ≤ c.u32 8 && c.u32 8 < 2 ^ 31 && c.rsv 16 4 }
  runCmd g c s (fun s =>
    okReply (monUpd m (fun x => monReset s.tick.index { x with
      on := bit (c.u8 1) 0, signed := bit (c.u8 1) 1, point := point, lo := c.u32 4, w := c.u32 8, limit := c.u32 12 }) s)
      (le 8 s.tick.index))

def execMonReset (c : Cmd) (s : State) : Out :=
  let mask := c.u32 0
  let g : Gate := { opcode := 0x1302, len := c.inl 8, legal := notBoot, par := mask != 0 && c.rsv 4 4 }
  runCmd g c s (fun s =>
    okReply (((List.range 32).filter (bit mask)).foldl (fun t m => monUpd m (monReset s.tick.index) t) s) (le 8 s.tick.index))

/-- Bytes 0x000 to 0x0FF of a window at one instant. -/
def monWindow (x : Monitor) : Bytes := (List.range 64).flatMap (fun i => le 4 (monWord x x.vals i))

def execMonRead (c : Cmd) (s : State) : Out :=
  let a := c.u8 0
  let n := c.u8 1
  let g : Gate := {
    opcode := 0x1303, len := c.inl 12, legal := notBoot, par := 1 ≤ n && n ≤ 32 && a + n ≤ 32 && c.rsv 2 2 && c.buf 4 }
  runCmd g c s (fun s =>
    let p := withCrc ((List.range n).flatMap (fun i => monWindow (monGet s (a + i))))
    okReply (putBuf (c.u64 4) p s) (le 4 p.length ++ le 8 s.tick.index))

/-- A read of MONm_COUNT_LO latches the window (R591). -/
def execMonWindowRead (mon : Fin 32) (s : State) : Out := .next (when (barOn s) (monUpd mon.val (fun x => { x with latch := x.vals })) s)

/-- Spread of the predicted voltages over the IN_USE cells of an arm, in 1/16 V. -/
def armSpread (s : State) (a : Nat) : Nat :=
  let l := ((armCids s a).filter (inUse s)).map (fun c => (aieCell s c).vhat)
  (l.foldl max (l.headD 0) - l.foldl min (l.headD 0)).toNat

/-- The sample of a point as the state holds it (Table 23.7). Waits, phase errors, residuals, response times and time offsets are
momentary: the row brings them. -/
def pointValue (s : State) (cls i : Nat) (value : Word32) : Nat :=
  match cls with
  | 0x1 => (dieGet s i).items.length
  | 0x2 => ((dieGet s (i / 8)).items.filter (fun j => j.cls == i % 8 && j.ready && !j.running && !j.ended)).length
  | 0x4 => (((dieGet s (i / 16)).runs.filter (fun r => r.tile == i % 16 && r.tick + 1 == s.tick.index)).map (·.ns)).sum
  | 0x5 => tget 0 s.loop.ends i
  | 0x6 => s.tick.aieEnd
  | 0x8 => armSpread s i
  | 0xA => (tget ({} : MSetChan) s.meas.set i).age
  | 0xB => word32 (tget 0 s.power.temps i)
  | 0xC => (s.galley.buf.map TickBlock.len).sum / 1024
  | 0xE => if (mapCfg s i).on then (svGet s (mapCfg s i).src).age else 0xFFFFFFFF
  | _ => value.toNat

/-- A sample from the monitor's point (R590). -/
def execMonitorSample (mon : Fin 32) (value : Word32) (s : State) : Out :=
  let x := monGet s mon.val
  if !x.on ∨ !notBoot s.dev.state ∨ !pointFitted s (x.point / 4096) (x.point % 4096) then .next s
  else
    let p := pointValue s (x.point / 4096) (x.point % 4096) value
    let v := monVal x p
    let r := monTake x v
    let excess := decide (monVal x x.limit < v)
    let first := excess && firstIn x.overWin s.tick.index
    let n := if first then 1 else if excess then x.excess + 1 else x.excess
    let s1 := monUpd mon.val (fun y => { y with
      vals := r.1, stopped := y.stopped || r.2, hit := y.hit || excess, excess := n, overWin := if first then some s.tick.index else y.overWin }) s
    .next (when first (raise 0 0x043 0x09 .notice mon.val [p, n]) s1)

end Sys2Proof.Machine
end

