-- ==== Sys2Proof/Machine/Power.lean ====
section
/-! DEFINITION. Supplies, references, resets, the boot sequence and the battery domain (chapters 2 and 3), ALIVE and HEARTBEAT. -/

namespace Sys2Proof.Machine

open Sys2Proof

def clockEvent (kind : Nat) (cls : FClass) (s : State) : State := raise 0 0x002 kind cls 0 [] s

def powered (s : State) : Bool := s.dev.state != .powerDown

/-! ### nPOR (R67, R68, R76) -/

/-- The filter accepts a low pulse: everything but MRAM and the battery domain is reset, outputs go to high impedance. -/
def execNporAccept (s : State) : Out :=
  let h := hardReset s
  .next { h with
    dev := { h.dev with state := .powerDown },
    power := { h.power with
      npor := true, thermtrip := false, pll := [], railLow := [], refLost := h.power.refLost.filter (· == 4), timeOnRef := false, temps := [],
      coldBoot := false, perst := false, aonLost := false } }

/-- nPOR rises: BOOT, PLLs start, straps will be sampled. -/
def execNporRise (s : State) : Out :=
  if powered s then .next s
  else
    let s1 := s.onDev (fun d => { d with state := .boot, prev := .powerDown, cause := 1, transTick := 0 })
    .next (bootEntered .powerDown 0x01 (s1.onPower (fun p => { p with npor := false, strapFirst := none, strapBad := false, strapDone := false })))

/-! ### Straps (R46, Table 2.5) -/

/-- The value that two samples give, and whether a strap disagreed. -/
def strapLatch (a b : Straps) : Straps × Bool :=
  let bool := fun (x y d : Bool) => if x == y then x else d
  ({ pairsel := bool a.pairsel b.pairsel true, trefsel := bool a.trefsel b.trefsel false, ftest := bool a.ftest b.ftest false,
     unitid := a.unitid &&& b.unitid }, a != b)

/-- The first sample is kept; the second latches what agrees and the defaults for what does not. -/
def execStrapSample (pairsel trefsel ftest : Bool) (unitid : BitVec 4) (s : State) : Out :=
  let now : Straps := ⟨pairsel, trefsel, ftest, unitid⟩
  if s.dev.state ≠ .boot ∨ s.power.strapDone then .next s
  else
    match s.power.strapFirst with
    | none => .next (s.onPower (fun p => { p with strapFirst := some now }))
    | some a =>
      let r := strapLatch a now
      let s1 := s.onPower (fun p => { p with straps := r.1, strapBad := r.2, strapDone := true, strapFirst := none })
      .next (when r.2 (sysEvent 0x07 [strapBits s1]) s1)

/-! ### Boot (Table 3.11, R77, R78) -/

def bootRow (n : Nat) (s : State) : State := s.onPower (fun p => { p with bootDone := if p.bootDone.contains n then p.bootDone else n :: p.bootDone })

/-- All PLLs but a TIME PLL that follows TIMEREF. -/
def execBootPllLock (s : State) : Out :=
  if s.dev.state ≠ .boot then .next s
  else
    let time := s.power.straps.trefsel && !s.power.pll.contains 6
    .next (bootRow 1 (s.onPower (fun p => { p with pll := (List.range 8).filter (fun d => !(time && d == 6)), refLost := p.refLost.filter (· != 0) })))

/-- The firmware reads the AON valid flag and sets it (R66). -/
def execBootFirmwareStart (s : State) : Out :=
  if s.dev.state ≠ .boot then .next s
  else
    let lost := !s.power.aonValid
    let s1 := s.onPower (fun p => { p with
      aonLost := lost, aonValid := true, holdValid := p.holdValid && !lost, stuck := p.stuck && !lost, tamper := p.tamper || lost })
    .next (bootRow 2 (when lost (fun t => t.onSafe (fun x => { x with confSw := none, confCrc := none, sealBase := 0 })) s1))

/-- The TIME PLL locks; the bases start, station time from the holdover counter where it is valid (R419, R427). -/
def execBootTimePllLock (s : State) : Out :=
  if s.dev.state ≠ .boot then .next s
  else
    let s1 := bootRow 3 (s.onPower (fun p => { p with pll := if p.pll.contains 6 then p.pll else 6 :: p.pll }))
    if s.time.started then .next s1
    else
      let off := s.power.holdCount / 32768
      let frac := s.power.holdCount % 32768 * 1000000000 / 32768
      let t0 : Stamp := { sec := s.power.holdBase.sec + off, nsec := frac }
      let b0 := 31000 + 100000 * off
      let s2 := s1.onTime (fun t => { t with started := true })
      if !s.power.holdValid then .next s2
      else
        let s3 := baseUpd 3 (fun b => { b with val := t0.val }) (baseUpd 0 (fun b => { b with val := t0.val }) s2)
        .next (setQual .restored b0 (s3.onTime (fun t => { t with b0 := b0, bSecs := 0, offSecs := off })))

/-- Dies that did not answer, or failed their self-test, are declared failed. -/
def declareFailed (l : List Nat) (s : State) : State :=
  (l.filter (fun d => d != 0 && dieOk s d)).foldl (fun t d =>
    raise 0 0x001 0x08 .contained d [] (t.onPower (fun p => { p with dieFailed := p.dieFailed ++ [d] }))) s

def execBootLinksUp (failed : List Nat) (s : State) : Out :=
  if s.dev.state ≠ .boot then .next s else .next (bootRow 4 (declareFailed failed s))

/-- Both copies of the inventory fail their CRC: it is rebuilt in the default assignment (R578). What the self-tests find failed follows
through RESOURCE_FAIL. -/
def rebuildInventory (s : State) : State :=
  let s1 := (s.onSpare (fun x => { x with
    res := [], thr := [], waiting := [], rows := [], badA := 0, badB := 0, badBlocks := [], ddrRows := [], sectors := [], given := 0,
    thermal := x.thermal.map (fun e => (e.1, { e.2 with ms := 0, hotMs := 0 })) })).onLink (fun l => { l with
      ports := l.ports.map (fun e => (e.1, { e.2 with spare := 0 })) })
  let s2 := (s1.onTiles (fun t => { t with dies := t.dies.map (fun e => (e.1, { e.2 with tiles := [] })) })).onLoop (fun l => { l with lanes := [] })
  spareEvent 0x05 .contained 0 [] (s2.onMeas (fun m => { m with
    units := m.units.map (fun e => (e.1, { e.2 with phys := none, removed := false })), spareBad := false, spareFor := none }))

/-- The SRAM self-test and the MRAM scan end. When the SYS die itself fails, the
device stays in BOOT. -/
def execBootSelftestDone (test : SelfTest) (s : State) : Out :=
  if s.dev.state ≠ .boot then .next s
  else
    let s1 := declareFailed test.failed (s.onPower (fun p => { p with sysFailed := p.sysFailed || test.failed.contains 0 }))
    .next (bootRow 5 (when test.inventory rebuildInventory s1))

/-- The DRAM found; the recorder's ring takes its default size (Table 21.10). -/
def execBootDdrTrained (mibA mibB : Nat) (s : State) : Out :=
  if s.dev.state ≠ .boot then .next s
  else
    let n := mibA + mibB
    let ring := if n < 8192 then n / 2 else n - 6144
    .next (bootRow 6 ((s.onPower (fun p => { p with dramA := mibA, dramB := mibB })).onGalley (fun g => { g with
      cfg := { g.cfg with ring := some (g.cfg.ring.getD ring) } })))

/-- Configuration space is ready, after nPOR, a cold reset or PERSTn. -/
def execBootPcieReady (s : State) : Out :=
  if !powered s ∨ s.power.perst then .next s
  else .next (bootRow 7 (cdcRestart (s.onPower (fun p => { p with hostUp := true, refLost := p.refLost.filter (· != 3) }))))

/-- Every row that must come first has come. -/
def bootReady (s : State) : Bool :=
  s.dev.state == .boot && !s.power.sysFailed && s.power.strapDone && [1, 2, 3, 4, 5, 6].all s.power.bootDone.contains &&
    !s.dev.sources.any (fun x => x.block == 0x002 && x.kind == 0x02 && !s.dev.reached)

/-- Converter units are calibrated, and the outputs driven, after a reset that reached the MPR (R50, R352). -/
def bootUnits (s : State) : State :=
  if s.power.warmBoot ∨ !mprOk s then s
  else
    let s1 := s.onPower (fun p => { p with hiZ := false })
    s1.onMeas (fun m => { m with settled := true, spareCal := !m.spareBad, cals := (calUnits s).length })

/-- Reports of boot: the AON facts, in the first event delivered after CONFIG, and the AON crystal's stop, which counts as reported then
(R62, R78). -/
def bootReports (s : State) : State :=
  let att := s.power.aonLost || !s.power.holdValid
  let s1 := s.onDev (fun d => { d with aonAttention := att })
  let first : FaultMsg :=
    { die := 0, block := 0x001, kind := 0x0A, cls := .notice, addr := 0, tick := s.tick.index, d := [aonFlags s1], injected := false, interim := false }
  let seen := fun (t : State) => clockEvent 0x06 .contained (t.onPower (fun p => { p with refLost := p.refLost.filter (· != 4) }))
  when (s.power.refLost.contains 4) seen (when att (arriveFirst first) s1)

/-- CONFIG is reached. A fatal source of the MPR itself, or the loss of REFCLK, that survived a cold reset stops the protection engine again
(R391, R508). -/
def execBootComplete (s : State) : Out :=
  if !bootReady s then .next s
  else
    let s1 := bootReports (bootUnits s)
    let s2 := transition .config 0x02 (s1.onDev (fun d => { d with capsValid := true, reached := true, aliveRun := !d.fatal }))
    let s3 := safeBoot (cdcRestart (s2.onGalley (fun g => { g with holeNext := g.holeNext || s.power.warmBoot })))
    let s4 := s3.onPower (fun p => { p with warmBoot := false, coldBoot := false })
    let own := s.dev.sources.any (fun x => x.die == 3 || (x.block == 0x002 && x.kind == 0x02))
    let s5 := when (own && !s.power.warmBoot) (protStop 0) s4
    .next (when s.dev.fatal (addTrigger .blockedFault 0x30 0) (capsBuild s5))

/-! ### PERSTn (R75) -/

/-- The host port resets, and its crossings flush. -/
def execPerstnAssert (s : State) : Out :=
  if !powered s ∨ s.power.perst then .next s
  else .next (cdcFlush 0x0D 0 (s.onPower (fun p => { p with perst := true, hostUp := false })))

/-- Link training starts; configuration space follows. -/
def execPerstnRelease (s : State) : Out := .next (s.onPower (fun p => { p with perst := false }))

/-! ### Supplies and references (R59, R62, R508) -/

/-- The rails of Table 3.1 that a die monitors. -/
def railsOf (die : Nat) : List Nat :=
  if die = 0 then [2, 5, 6, 7, 8, 9] else if die = 3 then [3, 9, 10] else if die < 3 then [0] else [1, 4]

/-- A rail below its range for more than 1 µs. `stays` says that it is still out of range; a later row with `stays` false for a rail that
is latched says that it is back. -/
def execRailLow (die rail : Nat) (stays : Bool) (s : State) : Out :=
  if !powered s ∨ !dieOk s die ∨ !(railsOf die).contains rail then .next s
  else
    let known := s.dev.sources.any (fun x => (fatalSrc die 0x002 0x01 rail).same x && x.present)
    let s1 := if known ∧ !stays then s else fatalFault die 0x002 0x01 rail s
    .next ((s1.onDev (fun d => { d with sources := d.sources.map (fun x =>
      if (fatalSrc die 0x002 0x01 rail).same x then { x with present := stays } else x) })).onPower (fun p => { p with
      railLow := if stays then (die * 16 + rail) :: p.railLow.filter (· != die * 16 + rail) else p.railLow.filter (· != die * 16 + rail) }))

def refGone (n : Nat) (s : State) : State := s.onPower (fun p => { p with refLost := if p.refLost.contains n then p.refLost else n :: p.refLost })

def execRefclkLost (s : State) : Out := if !powered s then .next s else .next (fatalFault 0 0x002 0x02 0 (protStop 1 (refGone 0 s)))

/-- The TIME PLL moves to REFCLK without a phase step; the discipline runs on (R425). -/
def execTimerefLost (s : State) : Out :=
  if !powered s ∨ !s.power.straps.trefsel ∨ s.power.timeOnRef then .next s
  else .next (clockEvent 0x03 .corrected ((refGone 1 s).onPower (fun p => { p with timeOnRef := true })))

/-- TIMEREF has stayed in range for 1 s. -/
def execTimerefReturn (s : State) : Out :=
  .next (s.onPower (fun p => { p with timeOnRef := false, refLost := p.refLost.filter (· != 1) }))

/-- All four Ethernet ports go down. -/
def execEthRefclkLost (s : State) : Out :=
  if !powered s then .next s else .next ([0, 1, 2, 3].foldl (fun t p => linkChange p false t) (clockEvent 0x04 .contained (refGone 2 s)))

/-- The host port goes down. -/
def execPcieRefclkLost (s : State) : Out :=
  if !powered s then .next s else .next (clockEvent 0x05 .contained ((refGone 3 s).onPower (fun p => { p with hostUp := false })))

/-- The holdover counter stops and is marked invalid; the next boot reports it. -/
def execXtal32Lost (s : State) : Out := .next ((refGone 4 s).onPower (fun p => { p with holdValid := false }))

/-- CORE, LINK, MEM and SAMPLE PLLs: fatal (Table 19.6). -/
def execPllUnlock (domain : Nat) (s : State) : Out :=
  if !powered s ∨ !(domain == 0 || domain == 1 || domain == 2 || domain == 5) ∨ !s.power.pll.contains domain then .next s
  else .next (fatalFault 0 0x002 0x07 domain (s.onPower (fun p => { p with pll := p.pll.filter (· != domain) })))

/-! ### The reset button (R70 to R72, Table 3.9) -/

/-- A press seen; one that began in BOOT, or was there at the first sample after boot, counts only after a release. -/
def execRstbtnPressSeen (atBoot : Bool) (s : State) : Out :=
  if !powered s then .next s
  else .next (s.onPower (fun p => { p with btnPress := s.dev.state != .boot && (p.btnArmed || !atBoot) }))

/-- The release of a press of `ms` milliseconds. -/
def execRstbtnReleaseSeen (ms : Nat) (s : State) : Out :=
  if !powered s then .next s
  else
    let s1 := s.onPower (fun p => { p with btnPress := false, btnArmed := true })
    if !s.power.btnPress ∨ s.power.stuck ∨ ms < 20 ∨ 30000 < ms then .next s1
    else .next (requestReset (decide (5000 < ms)) 0 s1).1

def execRstbtnStuck (s : State) : Out :=
  if !powered s ∨ !s.power.btnPress ∨ s.power.stuck then .next s
  else .next (sysEvent 0x05 [] (s.onPower (fun p => { p with stuck := true })))

/-- The 1,000th released sample in a row. -/
def execRstbtnStuckClear (s : State) : Out :=
  if !powered s ∨ !s.power.stuck then .next s else .next (sysEvent 0x06 [] (s.onPower (fun p => { p with stuck := false })))

/-! ### Reset requests and transitions -/

def execResetRequest (cold : Bool) (source : Nat) (s : State) : Out :=
  if !powered s then .next s
  else if s.dev.state = .boot then .next (sysEvent 0x04 [] s)
  else .next (requestReset cold source s).1

def execResetExecute (s : State) : Out := if resetMay s then .next (resetStart s) else .next s

/-- Triggers of Table 4.12 due at this boundary, those to DEBLOCKED apart. -/
def execDeviceStateTransition (s : State) : Out := .next (actTriggers false s)

def execDeblockEnter (s : State) : Out := .next (actTriggers true s)

/-! ### HEARTBEAT and ALIVE (R81, R510) -/

def execHeartbeatIncrement (s : State) : Out :=
  if !powered s ∨ !s.power.bootDone.contains 2 then .next s else .next (s.onDev (fun d => { d with heartbeat := d.heartbeat + 1 }))

def execAliveToggle (s : State) : Out := if s.dev.aliveRun then .next (s.onDev (fun d => { d with alive := !d.alive })) else .next s

/-! ### Package links and the host port (Tables 1.2 and 19.3) -/

/-- End dies of the links in the order of Table 1.2, each row's links one after another. -/
def linkDies : List (Nat × Nat) :=
  [(0, 1), (0, 2), (1, 4), (1, 5), (2, 6), (2, 7), (0, 4), (0, 5), (0, 6), (0, 7), (3, 1), (3, 2), (3, 0)]

/-- LINK_DOWN of a link between two dies in service. -/
def execPackageLinkDown (link : Nat) (s : State) : Out :=
  match linkDies[link]? with
  | some (a, b) => if powered s ∧ dieOk s a ∧ dieOk s b then .next (fatalFault 0 0x003 0x01 link s) else .next s
  | none => .next s

/-- PCIE_AER: corrected for a correctable error, contained otherwise. -/
def execPcieAerError (correctable : Bool) (status : Word32) (s : State) : Out :=
  if powered s ∧ s.power.hostUp then .next (raise 0 0x012 0x01 (if correctable then .corrected else .contained) 0 [status.toNat] s)
  else .next s

/-! ### The battery domain (R65, R66) -/

/-- One pulse of TAMPER_OUT; `level` is TAMPER_IN at its end. The holdover counter has run on for a second. -/
def execTamperPulse (level : Bool) (s : State) : Out :=
  let s1 := s.onPower (fun p => { p with
    tamperOut := false, tamperOpen := !level, tamper := p.tamper || (!level && p.tamperOpen),
    holdCount := if p.holdValid then p.holdCount + 32768 else p.holdCount })
  let s2 := s1.onSafe (fun x => { x with closed := if level then min 2 (x.closed + 1) else 0 })
  .next (if powered s then sealUpdate s2 else s2)

/-- Every AON fact is lost. -/
def execAonPowerLoss (s : State) : Out :=
  .next ((s.onPower (fun p => { p with
    aonValid := false, holdValid := false, holdCount := 0, holdBase := {}, stuck := false, tamper := false, tamperOpen := false, tamperOut := false })).onSafe
    (fun x => { x with confSw := none, confCrc := none, sealBase := 0, closed := 0 }))

end Sys2Proof.Machine
end

