-- ==== Sys2Proof/Machine/Prot.lean ====
section
/-! DEFINITION. The PROT commands (Table 15.13) and the protection engine's own events (chapter 15). -/

namespace Sys2Proof.Machine

open Sys2Proof

/-! ### Commands -/

/-- Write into shadow set bit 6. -/
def protStage (p : Bytes) (f : ProtSet → ProtSet) (s : State) : State :=
  stage 6 p (s.onProt (fun x => { x with shadow := some (f (x.shadow.getD x.act)) }))

/-- FAST elements of a set. -/
def fastCount (p : ProtSet) : Nat := (p.el.filter (fun e => e.2.fast)).length

/-- The signals a FAST element reads on its point (R397, R416). -/
def fastSignals (e : ElCfg) : List Nat :=
  match e.type with
  | 1 => selected e 3
  | 2 => [0, 1, 2]
  | 10 => selected e 2
  | _ => (selected e 2).map (· + 4)

def isSv (sel : Nat) : Bool := sel != 0xFFFF && 0x8000 ≤ sel

/-- The point gives the FAST element a sampled-value signal (R394, R416). -/
def fastOnSv (e : ElCfg) (c : PtCfg) : Bool := e.fast && (fastSignals e).any (fun i => isSv (c.sel.getD i 0xFFFF))

/-- A selector of R392 is in range: an MPR channel of Table 13.2, a network index, or none. -/
def protSelOk (x : Nat) : Bool :=
  x == 0xFFFF || (x / 4096 % 8 == 0 && (if x < 0x8000 then x % 4096 < 512 && x % 4096 / 64 % 4 == 0 else x % 4096 < 192))

/-- A selector names a channel of a removed unit, or a sampled-value mapping that is not configured (R445, R416). -/
def protSelBad (s : State) (x : Nat) : Bool :=
  if x = 0xFFFF then false
  else if x < 0x8000 then (mChan s (x % 64)).on && !unitIn s (mChan s (x % 64)).unit
  else 128 ≤ x % 4096 || !(mapShadow s (x % 4096)).on

/-- The point's KIND suits the type. -/
def kindFits (type kind : Nat) : Bool := type == 12 || (if type < 10 then kind == 1 else kind == 2)

def execProtElementConfig (c : Cmd) (s : State) : Out :=
  let pt := c.u8 0 == 1
  let n := c.u8 1
  let e : ElCfg := {
    type := c.u8 2, on := bit (c.u8 3) 0, fast := bit (c.u8 3) 1, rev := bit (c.u8 3) 2, ndFall := bit (c.u8 3) 3, pt := c.u8 4,
    qsel := c.u8 5, tmode := c.u8 6, rmode := c.u8 7, pu := c.u32 8, dr := c.u16 12, nconf := c.u8 14, blkel := c.u8 15, td := c.u32 16,
    tms := c.u32 20, trst := c.u32 24, rca := c.s16 28, angw := c.u16 30, vpol := c.u32 32, memc := c.u8 36, twmask := c.u8 37,
    confel := c.u8 38 }
  let k : PtCfg := {
    kind := c.u8 2, hz60 := c.u8 3 == 1, sel := (List.range 8).map (fun i => c.u16 (4 + 2 * i)), vmin := c.u32 20, fwin := c.u8 24,
    rocwin := c.u8 25, ndc := c.u8 26 }
  let fastOk := [1, 2, 10, 11].contains e.type && e.tmode == 0
  let puOk := if e.type = 12 then e.pu == 0 else 1 ≤ e.pu && ([7, 8, 9].contains e.type || e.pu < 2 ^ 31)
  let parEl : Bool :=
    n < 96 && 1 ≤ e.type && e.type ≤ 12 && c.u8 3 < 16 && e.pt < 16 && e.qsel < 32 && e.tmode ≤ 8 && (e.tmode == 0 || e.type ≤ 4) &&
      e.rmode < 3 && !(e.rmode == 2 && 1 ≤ e.tmode && e.tmode ≤ 4) && (!e.fast || fastOk) && puOk && 8192 ≤ e.dr && e.dr ≤ 24576 &&
      1 ≤ e.nconf && e.nconf ≤ 16 && (e.blkel < 96 || e.blkel == 0xFF) && e.blkel != n && e.td ≤ 600000000 && 167772 ≤ e.tms &&
      e.tms ≤ 1677721600 && e.trst ≤ 60000000 && e.rca.natAbs ≤ 18000 && 1000 ≤ e.angw && e.angw ≤ 9000 && e.vpol ≤ 2 ^ 28 &&
      e.memc ≤ 10 && e.twmask < 16 && (e.confel < 96 || e.confel == 0xFF) && e.confel != n && c.rsv 39 1
  let parPt : Bool :=
    n < 16 && k.kind < 3 && c.u8 3 < 2 && k.sel.all protSelOk && k.vmin ≤ 2 ^ 28 && 1 ≤ k.fwin && k.fwin ≤ 10 && 1 ≤ k.rocwin &&
      k.rocwin ≤ 50 && 1 ≤ k.ndc && k.ndc ≤ 64 && c.rsv 27 13
  let g : Gate := {
    opcode := 0x0B01, len := c.inl 40, fitted := mprOk s, legal := busyStates, roles := actStby, free := !setHeld s 6,
    par := c.u8 0 < 2 && (if pt then parPt else parEl) }
  runCmd g c s (fun s =>
    let sh := protShadow s
    if pt then
      if k.sel.any (protSelBad s) || sh.el.any (fun x => x.2.pt == n && fastOnSv x.2 k) then ⟨s, .conflict, [], false⟩
      else
        let s1 := protStage c.params (fun p => { p with pt := tset p.pt n k }) s
        okReply s1 (le 1 (fastCount (protShadow s1)))
    else
      let q := tget ({} : PtCfg) sh.pt e.pt
      if !kindFits e.type q.kind || (e.tmode == 8 && sh.curve.isEmpty) || fastOnSv e q then ⟨s, .conflict, [], false⟩
      else
        let s1 := protStage c.params (fun p => { p with el := tset p.el n e }) s
        if 24 < fastCount (protShadow s1) then ⟨s, .exhausted, [], false⟩
        else okReply s1 (le 1 (fastCount (protShadow s1))))

/-- Every neighbouring pair of a list meets a condition. -/
def pairsMeet (p : Nat × Nat → Nat × Nat → Bool) (l : List (Nat × Nat)) : Bool :=
  match l with
  | a :: b :: r => p a b && pairsMeet p (b :: r)
  | _ => true

def execProtCurveLoad (c : Cmd) (s : State) : Out :=
  let pts := (List.range 64).map (fun i => (c.u32 (8 * i), c.u32 (8 * i + 4)))
  let g : Gate := {
    opcode := 0x0B02, len := c.extLen (· == 512), fitted := mprOk s, legal := busyStates, roles := actStby, free := !setHeld s 6,
    par := 2 ^ 24 ≤ c.u32 0 && pts.all (fun p => 1 ≤ p.2 && p.2 ≤ 100000000) && pairsMeet (fun a b => a.1 < b.1 && b.2 ≤ a.2) pts }
  runCmd g c s (fun s => okReply (protStage c.params (fun p => { p with curve := pts }) s) (le 4 (c.u32 0)))

def execProtTripMap (c : Cmd) (s : State) : Out :=
  let o := c.u8 0
  let f := c.u8 1
  let k : TripCfg := {
    on := bit f 0, latch := bit f 1, sup := bit f 2, tmin := c.u16 2, op := rd c.params 4 12, st := rd c.params 16 12, alarms := c.u8 28,
    ttcs := c.u16 32, susp := c.u16 34 }
  let g : Gate := {
    opcode := 0x0B03, len := c.inl 36, fitted := mprOk s, legal := busyStates, roles := actStby, free := !setHeld s 6,
    par := o < 16 && f < 8 && k.tmin ≤ 10000 && k.alarms < 4 && 20 ≤ k.ttcs && k.ttcs ≤ 10000 && k.susp ≤ 10000 && c.rsv 29 3 }
  runCmd g c s (fun s => okReply (protStage c.params (fun p => { p with trip := tset p.trip o k }) s) [])

def execProtTripReset (c : Cmd) (s : State) : Out :=
  let m := c.u16 0
  let os := (List.range 16).filter (bit m)
  let g : Gate := { opcode := 0x0B04, len := c.inl 4, fitted := mprOk s, legal := notBoot, par := c.rsv 2 2 }
  runCmd g c s (fun s =>
    if os.any (fun o => (tripWant s (tripCfg s o)).1) then ⟨s, .tripActive, [], false⟩
    else if os.any (fun o => !(tripGet s o).latch) then ⟨s, .conflict, [], false⟩
    else
      let s1 := recLook (base s 0).val (tripsStep (os.foldl (fun t o => tripUpd o (fun x => { x with latch := false }) t) s))
      okReply s1 (le 2 (maskOf ((List.range 16).filter (fun o => (tripGet s1 o).latch)))))

def execProtRecordConfig (c : Cmd) (s : State) : Out :=
  let nan := c.u8 11
  let an : List AnCfg := (List.range nan).map (fun j =>
    ⟨c.u8 (72 + 16 * j), c.u8 (73 + 16 * j), c.u32 (74 + 16 * j), (c.params.drop (80 + 16 * j)).take 4⟩)
  let k : RecCfg := {
    store := c.u32 0, pre := c.u16 4, post := c.u16 6, maxLen := c.u16 8, retrig := bit (c.u8 10) 0, excess := bit (c.u8 10) 1,
    stT := rd c.params 12 12, opT := rd c.params 24 12, tripT := c.u16 36, station := (c.params.drop 40).take 32, an := an }
  let g : Gate := {
    opcode := 0x0B05, len := c.extLen (fun n => 72 ≤ n && n ≤ 72 + 16 * 32 && (n - 72) % 16 == 0 && (32 < nan || n == 72 + 16 * nan)),
    fitted := mprOk s, legal := busyStates, roles := actStby, free := !setHeld s 6,
    par := 16 ≤ k.store && k.store ≤ 1024 && k.pre ≤ 5000 && 10 ≤ k.post && k.post ≤ 10000 && k.pre + k.post ≤ k.maxLen &&
      k.maxLen ≤ 60000 && c.u8 10 < 4 && nan ≤ 32 && c.rsv 38 2 && asciiOk k.station &&
      (List.range nan).all (fun j => c.u8 (72 + 16 * j) < 16 && c.u8 (73 + 16 * j) < 8 && c.rsv (78 + 16 * j) 2 && c.rsv (84 + 16 * j) 4) }
  runCmd g c s (fun s =>
    if dramLeft s < k.store then ⟨s, .exhausted, [], false⟩
    else okReply (protStage c.params (fun p => { p with recs := k }) s) (le 4 (8000 * sampleBytes k)))

/-- The closed record a command names; 0xFFFF is the newest closed. -/
def recFind (s : State) (n : Nat) : Option DRec :=
  if n = 0xFFFF then (s.prot.recs.filter (·.closed)).getLast? else s.prot.recs.find? (fun r => r.closed && r.num == n)

/-- A part of a record: CFG, DAT or header (R411). -/
def exportPart (part : Nat) (s : State) (r : DRec) : Bytes :=
  if part = 0 then r.cfgText s.time.taiUtc else if part = 1 then r.dat else r.header

/-- A manual trigger without room is CONFLICT; one during a record that does not extend is OK with that record (assumption 158). -/
def execProtRecordExport (c : Cmd) (s : State) : Out :=
  let part := c.u8 2
  let off := c.u32 4
  let size := c.u32 16
  let named := if part = 3 then none else recFind s (c.u16 0)
  let whole := named.elim [] (exportPart part s)
  let g : Gate := {
    opcode := 0x0B06, len := c.inl 20, fitted := mprOk s, legal := notBoot,
    par := part < 4 && c.rsv 3 1 && c.u64 8 % 64 == 0 && (part == 3 || c.u64 8 != 0),
    free := named.all (fun r => !held s (.record r.num)), pends := off ≤ whole.length && 1048576 < ((whole.drop off).take size).length }
  runCmd g c s (fun s =>
    if part = 3 then
      let n := s.prot.recs.length
      let s1 := recTrigger 0x300 true (base s 0).val s
      let rec' := s1.prot.recs.getLastD { num := 0 }
      if s1.prot.recs.length = n && (s1.prot.recs.getLast?.elim true (·.closed)) then ⟨s1, .conflict, [], false⟩
      else okReply s1 (le 12 0 ++ le 2 rec'.num)
    else
      match recFind s (c.u16 0) with
      | none => ⟨s, .conflict, [], false⟩
      | some r =>
        let p := exportPart part s r
        if p.length < off then ⟨s, .conflict, [], false⟩
        else
          let w := (p.drop off).take size
          let res := le 4 p.length ++ le 4 w.length ++ le 4 (crc32c w).toNat ++ le 2 r.num
          let s1 := putBuf (c.u64 8) w s
          if 1048576 < w.length then ⟨goPending g c [.record r.num] r.num (some (.ok, res)) s1, .pending, [], false⟩
          else okReply s1 res)

/-- ms left of an output's minimum pulse. -/
def tminLeft (s : State) (o : Nat) : Nat :=
  let r := tripGet s o
  if r.tmin then (tripCfg s o).tmin - (s.nowUs - r.riseUs) / 1000 else 0

def execProtStatus (c : Cmd) (s : State) : Out :=
  let kind := c.u8 0
  let a := c.u64 4
  let g : Gate := { opcode := 0x0B07, len := c.inl 12, fitted := mprOk s, legal := notBoot, par := kind < 5 && c.rsv 1 3 && a % 64 == 0 }
  runCmd g c s (fun s =>
    let p := s.prot
    let cnt := fun (st : ElState) => (p.el.filter (fun e => e.2.state == st)).length
    let r := le 1 (if p.stopped then 2 else b2n p.running) ++ le 1 (fastCount p.act) ++ le 2 (cnt .started) ++ le 2 (cnt .operated) ++
      le 2 (cnt .unavailable) ++ le 2 (p.trip.filter (fun e => e.2.latch)).length ++ le 2 (p.trip.filter (fun e => e.2.coil)).length ++
      le 2 (p.recs.filter (·.closed)).length ++ le 2 (min 65535 p.lostT) ++ le 4 s.tick.index
    let buf : Bytes :=
      match kind with
      | 1 => (List.range 96).flatMap (fun n =>
          let e := elGet s n
          le 1 e.state.code ++ le 1 (elCfg s n).type ++ le 1 e.phases ++ le 1 0 ++ leS 4 (satS 32 (e.integ / (2 ^ 40 : Nat))) ++ leS 4 e.qty ++ le 4 e.timer)
      | 2 => (List.range 16).flatMap (fun o =>
          let x := tripGet s o
          le 1 (b2n x.level) ++ le 1 (b2n x.latch) ++ le 1 (b2n x.coil) ++ le 1 0 ++ le 4 x.rises ++ le 4 x.riseTick ++ le 4 (tminLeft s o))
      | 3 => (List.range 64).flatMap (fun n => p.recs[n]?.elim (List.replicate 32 0) DRec.header)
      | 4 => (List.range 256).flatMap (fun n => p.log[n]?.elim (List.replicate 32 0) (fun l =>
          l.time.bytes ++ le 1 l.inst ++ le 1 l.type ++ le 1 l.phases ++ le 1 0 ++ le 2 l.outs ++ le 2 0 ++ le 4 l.qty ++ le 8 l.tick))
      | _ => []
    okReply (if a = 0 ∨ kind = 0 then s else putBuf a (withCrc buf) s) r)

/-! ### The engine's cycles (R397) -/

/-- The engine evaluates: committed since the last nPOR or cold reset, and not stopped; a warm reset does not interrupt it (R390). -/
def protRuns (s : State) : Bool := mprOk s && s.prot.running && !s.prot.stopped

/-- The first rows of Table 15.6 for a travelling-wave element: DISABLED, UNAVAILABLE while no channel of TWMASK is ARMED, CAPTURING or
REARMING, BLOCKED as of the start of the cycle. -/
def twRows (s0 s : State) (e : ElCfg) (r : ElRun) : Option ElRun :=
  let open' := (List.range 4).any (fun c => bit e.twmask c && ((acqGet s c).state == .armed || (acqGet s c).state == .capturing || (acqGet s c).state == .rearming))
  if !e.on then some {}
  else if !open' then some { r with state := .unavailable, timer := 0 }
  else if isBlocked s0 e then some { r with state := .blocked, timer := 0 }
  else none

/-- A travelling-wave element at a slow cycle: in OPERATED it drops out once TMIN of its mapped outputs has run (R406). -/
def twDrop (n : Nat) (s0 s : State) : State :=
  let e := elCfg s n
  let r := elGet s n
  if e.on ∧ r.state = .operated then
    let runs := (List.range 16).any (fun o => (bit (tripCfg s o).op n || bit (tripCfg s o).st n) && (tripGet s0 o).tmin)
    if runs then s else elTake n 0 { r with state := .idle, timer := 0 } s
  else
    match twRows s0 s e r with
    | some q => elTake n 0 q s
    | none => if r.state = .disabled then elTake n 0 { r with state := .idle } s else s

/-- Slow cycle number `k`, at k × 125 µs of station time; `tcs` are the coil supervision inputs and `dram` says that DRAM
takes a record sample in time. -/
def execProtSlowCycle (k : Nat) (tcs : Word16) (dram : Bool) (s : State) : Out :=
  if !protRuns s ∨ s.prot.slowK.any (fun j => k ≤ j) then .next s
  else
    let time := k * 125000 * 2 ^ 32
    let s0 := s.onProt (fun p => { p with
      slowK := some k, tcs := tcs.toNat,
      pt := (List.range 16).filterMap (fun n =>
        let c := ptCfg s n
        if c.kind = 0 then none else some (n, ptStep s c time (ptGet s n))) })
    let step := fun (t : State) (n : Nat) =>
      let e := elCfg s n
      if e.fast then t
      else if e.type = 12 then twDrop n s t
      else
        let i := slowRead s0 e (elGet s0 n)
        let r := elNext s0.prot.act.curve e i.1 (isBlocked s e) true 125 { elGet s0 n with memV := i.2 }
        elTake n time r t
    let ns := (s.prot.act.el.map (·.1)).filter (· < 96)
    .next (recStep dram time (tripsStep (ns.foldl step s0)))

/-- The coarse output of a point signal on the fast path, its validity and its new-sample mark (R394, R399). -/
def fastSignal (s : State) (sel : Nat) : Int × Bool × Nat :=
  if 0x8000 ≤ sel then (0, false, 0) else ((mGet s (sel % 64)).coarse, chanValid s (sel % 64), (mGet s (sel % 64)).at_)

/-- Places of a FAST element with what each reads: its signals, and whether one of them has a new sample. An earth element has one place,
the sum of the three outputs. -/
def fastPlaces (s : State) (e : ElCfg) : List (Nat × Int × Bool) :=
  let c := ptCfg s e.pt
  let sg := fun (i : Nat) => fastSignal s (c.sel.getD i 0xFFFF)
  let fresh := fun (i : Nat) =>
    let sel := c.sel.getD i 0xFFFF
    sel < 0x8000 && tget 0 s.prot.seen (sel % 64) != (sg i).2.2 + 1
  let is := fastSignals e
  if e.type = 2 then [(3, ((is.map (fun i => (sg i).1)).sum.natAbs : Int), is.any fresh)]
  else is.map (fun i => (if e.type = 11 then i - 4 else i, ((sg i).1.natAbs : Int), fresh i))

/-- The confirmations of each place after this evaluation: a new sample that meets the condition adds one, one that does not begins
again, and no new sample leaves the run (R399). -/
def fastConf (e : ElCfg) (l : List (Nat × Int × Bool)) (conf : Tbl Nat) : Tbl Nat :=
  l.foldl (fun m x =>
    let met := if e.type = 11 then (underPu e (fxOfQ x.2.1)).1 else (overPu e (fxOfQ x.2.1)).1
    if !x.2.2 then m else tset m x.1 (if met then tget 0 m x.1 + 1 else 0)) conf

/-- A FAST element's reading (R395, R399), with the confirmations `conf` of its places. -/
def fastRead (s : State) (e : ElCfg) (conf : Tbl Nat) : ElIn :=
  let c := ptCfg s e.pt
  let l := fastPlaces s e
  let valid := (fastSignals e).all (fun i => (fastSignal s (c.sel.getD i 0xFFFF)).2.1)
  let conds := l.map (fun x =>
    let k := if e.type = 11 then underPu e (fxOfQ x.2.1) else overPu e (fxOfQ x.2.1)
    (x.1, decide (e.nconf ≤ tget 0 conf x.1), k.2))
  let j := joinConds (e.type == 11 && bit e.qsel 4) conds
  ⟨valid, j.1, j.2.1, j.2.2, satS 32 ((l.map (fun x => x.2.1)).foldl max 0), 0⟩

/-- A travelling-wave element waiting for its confirmation at a fast cycle (R406). -/
def twConfirm (s0 : State) (n time : Nat) (s : State) : State :=
  let e := elCfg s n
  let r := elGet s n
  if r.state ≠ .started then s
  else
    match twRows s0 s e r with
    | some q => elTake n time q s
    | none =>
      if (elGet s e.confel).state.start ∧ r.timer + 1 ≤ e.td then elTake n time { r with state := .operated, timer := r.timer + 1 } s
      else if e.td ≤ r.timer + 1 then elTake n time { r with state := .idle, timer := 0 } s
      else elTake n time { r with timer := r.timer + 1 } s

/-- Fast cycle number `k`, at k µs of station time. After a backward step of station time the fast cycles run on; one instant is served
once. -/
def execProtFastCycle (k : Nat) (s : State) : Out :=
  if !protRuns s ∨ s.prot.fastK = some k then .next s
  else
    let time := k * 1000 * 2 ^ 32
    let step := fun (t : State) (n : Nat) =>
      let e := elCfg s n
      if e.type = 12 then twConfirm s n time t
      else if !e.fast then t
      else
        let old := elGet s n
        let conf := fastConf e (fastPlaces s e) old.conf
        elTake n time (elNext [] e (fastRead s e conf) (isBlocked s e) false 1 { old with conf := conf }) t
    let ns := (s.prot.act.el.map (·.1)).filter (· < 96)
    let s1 := recLook time (tripsStep (ns.foldl step s))
    .next (s1.onProt (fun p => { p with fastK := some k, seen := s.meas.chans.map (fun e => (e.1, e.2.at_ + 1)) }))

/-- Channels of the acquisition engine whose crossing carries trigger signals that the protection engine has not had. -/
def twWaiting (s : State) : List Nat :=
  (List.range 4).filter (fun c => !(cdcGet s 3 6 c).waiting.isEmpty)

/-- The trigger signals of a count meet the elements of their channel: one after the other finds the elements it starts started already, so
they merge (R406, R568). -/
def twElements (ch : Nat) (s : State) : State :=
  let step := fun (t : State) (n : Nat) =>
    let e := elCfg s n
    let r := elGet s n
    if e.type ≠ 12 ∨ !bit e.twmask ch ∨ r.state.start then t
    else
      match twRows s t e r with
      | some q => elTake n (base s 0).val q t
      | none =>
        elTake n (base s 0).val
          { r with state := if e.confel = 0xFF || (elGet t e.confel).state.start then .operated else .started, timer := 0 } t
  recLook (base s 0).val (tripsStep (((s.prot.act.el.map (·.1)).filter (· < 96)).foldl step s))

/-- The count of trigger signals that a channel's crossing carries is captured, and its handshake closes; what waited opens the next one
(R376, R406, R568). -/
def execTwElementTrigger (s : State) : Out :=
  match twWaiting s with
  | [] => .next s
  | ch :: _ =>
    let s0 := cdcUpd 3 6 ch (fun x => x.capture.close) s
    .next (if protRuns s then twElements ch s0 else s0)

/-! ### Outputs and records -/

/-- An output's minimum-pulse timer runs out (R402). -/
def execTripTminExpiry (out : Fin 16) (s : State) : Out :=
  if !(tripGet s out).tmin then .next s
  else
    let s1 := tripUpd out (fun x => { x with tmin := false }) s
    .next (recLook (base s 0).val (tripStep out s1))

/-- TCSn has read `level` without a break for TTCS (R404); it is read only from SUSP after the output last fell, and not by an engine that
has stopped. -/
def execCoilSupervisionExpiry (out : Fin 16) (level : Bool) (s : State) : Out :=
  let c := tripCfg s out
  let r := tripGet s out
  if !c.sup ∨ s.prot.stopped ∨ r.level ∨ r.fallUs.any (fun f => s.nowUs < f + (c.susp + c.ttcs) * 1000) ∨ r.coil = !level then .next s
  else
    let s1 := tripUpd out (fun x => { x with coil := !level }) s
    .next (recLook (base s 0).val <| tripsStep (if level then protEvent 0x06 .notice out [] s1 else protEvent 0x05 .contained out [] s1))

/-- A record's post-trigger time or MAXLEN ends (R409); the slow cycle that takes its last sample closes it. -/
def execProtRecordClose (s : State) : Out := .next (recClose s)

end Sys2Proof.Machine
end

