-- ==== Sys2Proof/Machine/Sys.lean ====
section
/-! DEFINITION. The SYS commands and TEST_ENTER (chapter 4, Table 4.14). -/

namespace Sys2Proof.Machine

open Sys2Proof

/-- SYS_CAPS (R101, R609). -/
def execSysCaps (c : Cmd) (s : State) : Out :=
  let n := c.u32 8
  let g : Gate := {
    opcode := 0x0101, mb0 := true, len := c.inl 12, legal := notBoot,
    par := c.u64 0 % 64 == 0 && (c.u64 0 == 0) == (n == 0) && (n == 0 || 256 ≤ n) }
  runCmd g c s (fun s =>
    okReply (when (n != 0) (putBuf (c.u64 0) (caps s)) s)
      (le 1 s.dev.variant.code ++ le 1 s.power.straps.unitid.toNat ++ le 4 (dieMask s) ++ le 4 (failedMask s) ++ le 4 s.dev.capsDigest.toNat))

def execSysStateGet (c : Cmd) (s : State) : Out :=
  let g : Gate := { opcode := 0x0102, mb0 := true, len := c.inl 0, legal := notBoot }
  runCmd g c s (fun s =>
    okReply s (le 1 s.dev.state.code ++ le 1 s.dev.role.code ++ le 1 s.dev.prev.code ++ le 1 s.dev.cause ++ le 4 s.dev.transTick))

/-! ### SYS_STATE_REQUEST (R111) -/

/-- The states from which a target is legal (Table 4.12); a target code that is none of the three fails check 8. -/
def requestFrom (target : Nat) : List DevState :=
  match target with
  | 2 => [.standby]
  | 3 => [.config, .deblocked]
  | 4 => [.standby]
  | _ => [.config, .standby, .deblocked, .safeStop, .blockedFault, .replay]

/-- The unmet preconditions. -/
def unmet (s : State) : Nat :=
  let ports := (rostered s).any (fun c => (portGet s (c / 128)).state != .inService)
  let arms := (List.range 12).any (fun a =>
    let n := (armCids s a).length
    n != 0 && (armCfg s a).all (fun k => k.nreq + k.nred != n))
  let ranging := (allPorts s).any (fun p => (portGet s p).state == .ranging)
  b2n ports + 2 * b2n arms + 4 * b2n (mprOk s && !s.prot.running) + 8 * b2n (!safeConfirmed s) + 16 * b2n ranging

/-- Ticks from now to the boundary whose low 32 bits are `x`, the nearest one; negative when it has passed. -/
def boundaryAhead (s : State) (x : Nat) : Int :=
  let d : Nat := (x + 2 ^ 32 - s.tick.index % 2 ^ 32) % 2 ^ 32
  if d < 2 ^ 31 then (d : Int) else (d : Int) - (2 ^ 32 : Nat)

/-- The boundary lies beyond 10 s (R124). -/
def boundaryFar (s : State) (d : Int) : Bool := decide ((10000000 / s.tick.len : Nat) < d)

/-- What an accepted request does, by target and state. -/
def requestRun (g : Gate) (c : Cmd) (target : Nat) (ahead : Int) (s : State) : Reply :=
  let now := s.tick.index
  let pend := fun (t : State) => goPending g c [.deviceState] target none t
  if target = 4 then ⟨addTrigger .deblocked 0x10 (now + ahead.toNat) (pend s), .pending, [], false⟩
  else if s.dev.state = .deblocked then
    ⟨if driveMode s then addTrigger .safeStop 0x11 0 (pend s) else addTrigger .standby 0x10 0 (pend s), .pending, [], false⟩
  else okReply (transition (if target = 3 then .standby else .config) 0x10 s) (requestResult 0 now)

def execSysStateRequest (c : Cmd) (s : State) : Out :=
  let target := c.u8 0
  let ahead : Int := if c.u32 4 = 0 then leadOf s.tick.len else boundaryAhead s (c.u32 4)
  let g : Gate := {
    opcode := 0x0103, len := c.inl 8, fitted := !(isM2 s && (target == 3 || target == 4)), legal := inStates (requestFrom target),
    roles := onlyActive, par := (target == 2 || target == 3 || target == 4) && c.rsv 1 3 && !(target == 4 && boundaryFar s ahead),
    free := !held s .deviceState && !held s .pair, pends := target == 4 || s.dev.state == .deblocked }
  runCmd g c s (fun s =>
    let m := if target = 2 ∨ s.dev.state = .deblocked then 0 else unmet s
    if m ≠ 0 ∨ (target = 4 ∧ ahead < leadOf s.tick.len) then ⟨s, .conflict, requestResult m s.tick.index, false⟩
    else requestRun g c target ahead s)

/-! ### SYS_BLOCK_CLEAR (R112) -/

/-- The condition behind a fatal source is still present. -/
def sourceThere (s : State) (x : FatalSrc) : Bool := if x.block = 0x015 then s.safe.beatLost else x.present

/-- A comparator or trip input that caused the block is still active. -/
def tripStill (s : State) : Bool :=
  (s.pwm.blockedBy &&& s.pwm.active) != 0 ||
    (s.safe.causes.getLsbD 2 && s.safe.mcfg.any (fun k => k.sw.getLsbD 3 && s.pwm.active.getLsbD (rd k.spb 6 1)))

/-- The latches of the comparators that caused the block clear; those of the pairs stay (R251). -/
def blockLatches (s : State) : State :=
  s.onPwm (fun p =>
    let l := p.latched &&& ~~~p.blockedBy
    { p with latched := l, blockedBy := 0, first := if l = 0 then none else p.first })

/-- FATAL clears; ALIVE resumes at its next 500 µs instant. -/
def fatalClear (s : State) : State :=
  (s.onDev (fun d => { d with fatal := false, sources := [], aliveRun := d.reached && d.state != .boot })).onFault (fun f => { f with cause := 0 })

def execSysBlockClear (c : Cmd) (s : State) : Out :=
  let g : Gate := {
    opcode := 0x0104, len := c.inl 0, legal := inStates [.blockedFault], roles := actStby, free := !held s .deviceState }
  runCmd g c s (fun s =>
    if tripStill s then ⟨s, .tripActive, [], false⟩
    else if s.dev.sources.any (fun x => !x.clear || sourceThere s x) ∨ s.safe.sf = .sto ∨ s.safe.mLatch then ⟨s, .conflict, [], false⟩
    else
      let up := (allPorts s).filter (fun p => (portGet s p).state != .down)
      let dest : DevState := if !isM2 s ∧ up.all (fun p => (portGet s p).state == .inService) then .standby else .config
      let s1 := transition dest 0x13 (fatalClear (blockLatches s))
      okReply s1 (le 1 s1.dev.state.code))

/-! ### The others -/

/-- SYS_RESET: the response is written before the reset starts; a request that R74 discards is answered CONFLICT (R113). -/
def execSysReset (c : Cmd) (s : State) : Out :=
  let g : Gate := {
    opcode := 0x0105, len := c.inl 4, legal := notBoot, par := (c.u8 0 == 1 || c.u8 0 == 2) && c.rsv 1 3 }
  runCmd g c s (fun s =>
    let r := requestReset (c.u8 0 == 2) 1 s
    ⟨r.1, if r.2 then .ok else .conflict, [], false⟩)

def LogEntry.bytes (e : LogEntry) : Bytes :=
  le 4 e.seq ++ le 4 e.tick ++ le 2 e.opcode ++ le 1 e.b10 ++ le 1 e.b11 ++ le 1 e.mb ++ le 1 e.state ++ le 1 e.role ++ le 1 0

/-- Two points the spec leaves open (DESIGN CHOICE, assumption 116): Table 4.14 asks for a 64-byte aligned buffer address and, unlike other
commands, does not offer 0, so address 0 is BAD_PARAM; and the oldest and newest sequence numbers of a log without entries are 0. -/
def execSysLogRead (c : Cmd) (s : State) : Out :=
  let g : Gate := {
    opcode := 0x0106, len := c.inl 16, legal := notBoot, par := c.buf 0 && 1 ≤ c.u32 12 && c.u32 12 ≤ 1024 }
  runCmd g c s (fun s =>
    let l := ((s.mb.log.reverse).filter (fun e => c.u32 8 ≤ e.seq)).take (c.u32 12)
    okReply (putBuf (c.u64 0) (l.flatMap LogEntry.bytes) s)
      (le 4 ((s.mb.log.getLast?.map (·.seq)).getD 0) ++ le 4 ((s.mb.log.head?.map (·.seq)).getD 0) ++ le 4 l.length))

def execSysNop (c : Cmd) (s : State) : Out :=
  let g : Gate := { opcode := 0x0107, len := !c.isExt && c.length ≤ 44, legal := notBoot }
  runCmd g c s (fun s => okReply s c.params)

def execTestEnter (c : Cmd) (s : State) : Out :=
  let g : Gate := {
    opcode := 0x7F01, test := true, len := c.inl 0, legal := inStates [.config], roles := actStby, free := !held s .deviceState }
  runCmd g c s (fun s => okReply (transition .factoryTest 0x16 s) [])

end Sys2Proof.Machine
end

