-- ==== Sys2Proof/Machine/Rec.lean ====
section
/-! DEFINITION. The REC commands (Table 21.11) and the recorder's own events (R544, R550, R551). -/

namespace Sys2Proof.Machine

open Sys2Proof

/-! ### REC_CONFIG (R559, R561) -/

/-- The parameters of Table 21.10 as a command carries them. -/
def recCfg (c : Cmd) : GalleyCfg :=
  { flags := c.u8 0, frzN := c.u8 1, ring := some (c.u32 4), frz := c.u32 8, dec := c.u32 12, decN := c.u16 16, img := c.u16 18,
    mask := c.u32 20, pre := c.u16 24, post := c.u16 26, trig := c.u16 28 }

def recRange (k : GalleyCfg) (dram : Nat) : Bool :=
  k.flags < 8 && k.frzN ≤ 16 && 1024 ≤ k.ring.getD 0 && k.ring.getD 0 ≤ dram && 64 ≤ k.frz && k.frz ≤ 8192 && k.dec ≤ 16384 && 16 ≤ k.decN &&
    1 ≤ k.img && k.img ≤ 1024 && k.mask ||| 0x7FE == 0x7FE && k.pre ≤ 10000 && k.post ≤ 10000 && k.trig < 128

/-- A freeze fills, or a slot or the decimated ring is held by a PENDING command. -/
def recBusy (s : State) : Bool := s.galley.slots.any (fun e => e.2.filling) || (List.range 256).any (fun n => held s (.freeze n))

def execRecConfig (c : Cmd) (s : State) : Out :=
  let k := recCfg c
  let g : Gate := {
    opcode := 0x1101, len := c.inl 32, legal := inStates [.config], free := !recBusy s,
    par := recRange k (dramUsable s) && c.rsv 2 2 && c.rsv 30 2 }
  runCmd g c s (fun s =>
    let old := s.galley.cfg
    let need := k.ring.getD 0 + k.frzN * k.frz + k.dec + s.prot.act.recs.store
    let cleared := (List.range 11).any (fun i => bit old.mask i && !bit k.mask i)
    if cleared ∧ k.frzN ≠ 0 then ⟨s, .conflict, [], false⟩
    else if dramUsable s < need then ⟨s, .exhausted, [], false⟩
    else
      let moved := decide (ringMib s old ≠ k.ring.getD 0 ∨ old.frzN ≠ k.frzN ∨ old.frz ≠ k.frz ∨ old.dec ≠ k.dec)
      let s1 := s.onGalley (fun g => { g with cfg := k, partTaps := cleared || (g.partTaps && k.mask != 0x7FE) })
      let s2 := when moved (fun t => t.onGalley (fun g => { g with ring := [], dec := [], slots := [], images := [], buf := [], pred := [] })) s1
      okReply (recEvent 0x09 0 [k.ring.getD 0, k.frzN, k.dec] s2)
        (le 4 (dramUsable s - (k.ring.getD 0 + k.frzN * k.frz + k.dec)) ++ le 4 (k.img * 1024)))

/-! ### REC_FREEZE and REC_FREEZE_READ -/

def freezeReply (n t : Nat) (s : State) : Reply := okReply s (le 1 n ++ le 3 0 ++ le 8 t)

def execRecFreeze (c : Cmd) (s : State) : Out :=
  let n := c.u8 0
  let g : Gate := {
    opcode := 0x1102, len := c.inl 4, legal := notBoot, par := (n == 0xFF || n < s.galley.cfg.frzN) && c.rsv 1 3 }
  runCmd g c s (fun s =>
    let t := s.tick.index
    if !bit s.galley.cfg.flags 0 then ⟨s, .conflict, [], false⟩
    else if n ≠ 0xFF then
      if (slotGet s n).filling ∨ held s (.freeze n) then ⟨s, .conflict, [], false⟩
      else freezeReply n t (freezeBegin n 0xFF t s)
    else
      match s.galley.slots.find? (fun e => e.2.filling && e.2.first ≤ t && t ≤ e.2.until_), freezeSlot s with
      | some e, _ => freezeReply e.1 t (freezeTrigger 0xFF t s)
      | none, some m => freezeReply m t (freezeBegin m 0xFF t s)
      | none, none => ⟨s, .exhausted, [], false⟩)

/-- The bytes of a part: header or data of a slot, data of the decimated ring; none where there is nothing to read. -/
def recPart (s : State) (n part : Nat) : Option Bytes :=
  if n = 0xFE then (if part = 1 then some ((s.galley.dec.reverse).flatMap TickBlock.decBytes) else none)
  else if !thas s.galley.slots n then none
  else some (if part = 0 then (slotGet s n).header else (slotGet s n).data)

def execRecFreezeRead (c : Cmd) (s : State) : Out :=
  let n := c.u8 0
  let part := c.u8 1
  let size := c.u32 20
  let g : Gate := {
    opcode := 0x1103, len := c.inl 24, legal := notBoot, free := !held s (.freeze n), pends := part != 2 && 1048576 < size,
    par := (n == 0xFE || n < s.galley.cfg.frzN) && part < 3 && c.rsv 2 2 && (part == 2 || (c.buf 12 && 64 ≤ size && size ≤ 16777216)) }
  runCmd g c s (fun s =>
    if part = 2 then
      if n = 0xFE ∨ !thas s.galley.slots n ∨ (slotGet s n).filling then ⟨s, .conflict, [], false⟩
      else okReply (s.onGalley (fun x => { x with slots := tdel x.slots n })) (le 8 0 ++ le 4 0 ++ le 4 0)
    else
      match recPart s n part with
      | none => ⟨s, .conflict, [], false⟩
      | some p =>
        if p.length < c.u64 4 then ⟨s, .conflict, [], false⟩
        else
          let w := (p.drop (c.u64 4)).take size
          let res := le 8 p.length ++ le 4 w.length ++ le 4 (crc32c w).toNat
          let s1 := putBuf (c.u64 12) w s
          if 1048576 < w.length then ⟨goPending g c [.freeze n] n (some (.ok, res)) s1, .pending, [], false⟩
          else okReply s1 res)

/-! ### REC_REPLAY_START, REC_REPLAY_STOP, REC_STATUS (R553 to R556) -/

/-- A slot as a host image gives it: header of Table 21.6, then the data. -/
def loadedFreeze (p : Bytes) : Freeze :=
  { edition := rd p 4 4, variant := rd p 8 1, dies := rd p 9 1, tcode := rd p 10 1, flags := rd p 11 1 ||| 0x80, cause := rd p 12 4,
    first := rd p 16 8, image := rd p 24 8, t := rd p 32 8, last := rd p 40 8, bytes := rd p 48 8, digest := rd p 56 4,
    until_ := rd p 40 8, next := rd p 40 8 + 1, raw := some ((p.drop 64).take (rd p 48 8)) }

def headerGood (p : Bytes) : Bool := rd p 60 4 == (crc32c (p.take 60)).toNat

/-- The conflict mask of Table 21.7 for a slot and an image tick. -/
def replayMask (s : State) (n image : Nat) : Nat :=
  let f := slotGet s n
  let dies := (bit f.dies 0 && !ctlOk s 0) || (bit f.dies 1 && !ctlOk s 1) || (bit f.dies 2 && !mprOk s)
  b2n (f.edition / 256 != fwEdition / 256) + 2 * b2n dies + 4 * b2n (f.tcode != s.tick.len) +
    8 * b2n (bit f.flags 0 || (replayImage s n image).isNone) + 16 * b2n (bit f.flags 3) +
    32 * b2n (!thas s.galley.slots n || f.filling || bit f.flags 6 || bit f.flags 5) + 64 * b2n (s.dev.role != .active || s.dev.paired)

/-- Result of REC_REPLAY_START before a replay has run. -/
def replayNone (mask : Nat) : Bytes := le 2 0 ++ le 2 mask ++ le 24 0 ++ le 2 0xFFFF ++ le 2 0

/-- Arm the replay of slot `n` from an image tick, or refuse it. -/
def armReplay (g : Gate) (c : Cmd) (n start stop : Nat) (onDiv : Bool) (s : State) : Reply :=
  let f := slotGet s n
  let image := if start = 0 then f.image else start
  let m := replayMask s n image
  if m ≠ 0 then ⟨s, .conflict, replayNone m, false⟩
  else
    let r : Replay := {
      slot := n, stop := stop, onDiv := onDiv, boundary := s.tick.index + leadOf s.tick.len, image := image, tick := image + 1 }
    let s1 := s.onGalley (fun x => { x with replay := some r })
    ⟨goPending g c [.freeze n, .recorder] n none s1, .pending, replayNone 0, false⟩

def execRecReplayStart (c : Cmd) (image : Bytes) (s : State) : Out :=
  let n := c.u8 0
  let act := c.u8 1
  let start := c.u64 4
  let kib := c.u32 28
  let p := fit (kib * 1024) image
  let g : Gate := {
    opcode := 0x1104, len := c.inl 32, fitted := !isM2 s, legal := inStates [.config],
    roles := fun r => r == .active && (act == 2 || !s.dev.paired),
    par := n < s.galley.cfg.frzN && act < 3 && c.u8 2 < 2 && c.rsv 3 1 &&
      (act == 0 || (c.buf 20 && 1 ≤ kib && kib ≤ s.galley.cfg.frz * 1024)),
    free := !held s .deviceState && !held s .tickLength && !held s .pair && !held s .recorder && !held s (.freeze n), pends := act != 2 }
  runCmd g c s (fun s =>
    let loaded := s.onGalley (fun x => { x with slots := tset x.slots n (loadedFreeze p) })
    if act ≠ 0 ∧ (slotGet s n).filling then ⟨s, .conflict, replayNone 32, false⟩
    else if act ≠ 0 ∧ !headerGood p then ⟨s.onGalley (fun x => { x with slots := tdel x.slots n }), .crcFail, replayNone 0, false⟩
    else
      let s1 := if act = 0 then s else loaded
      if act = 2 then okReply s1 (replayNone 0)
      else if start ≠ 0 ∧ thas s1.galley.slots n ∧ (replayImage s1 n start).isNone then ⟨s, .badParam, [], false⟩
      else armReplay g c n start (c.u64 12) (c.u8 2 == 1) s1)

/-- The tick that ends the slot is being replayed: its end decides (Table 21.8). -/
def lastNow (s : State) : Bool := s.galley.replay.any (fun r => decide (replayLast s r ≤ r.tick) && !s.tick.outDone)

/-- The replay ends at the next boundary with outcome 1, unless an outcome already stands or the tick that ends the slot runs. -/
def execRecReplayStop (c : Cmd) (s : State) : Out :=
  let g : Gate := { opcode := 0x1105, len := c.inl 0, legal := inStates [.replay] }
  runCmd g c s (fun s => okReply (if lastNow s then s else replayOutcome 1 s) (le 8 ((s.galley.replay.map (·.tick)).getD 0)))

def execRecStatus (c : Cmd) (s : State) : Out :=
  let g : Gate := { opcode := 0x1106, len := c.inl 0, legal := notBoot }
  runCmd g c s (fun s =>
    let x := s.galley
    let st := if replaying s then 2 else if bit x.cfg.flags 0 then 1 else 0
    let full := maskOf ((x.slots.filter (fun e => !e.2.filling)).map (·.1))
    let fill := maskOf ((x.slots.filter (fun e => e.2.filling)).map (·.1))
    let r := if replaying s then x.replay else none
    okReply s (le 1 st ++ le 1 x.cfg.frzN ++ le 2 full ++ le 2 fill ++ le 2 0 ++ le 8 (ringOldest s) ++ le 8 (ringNewest s) ++
      le 4 x.holes ++ le 4 (if x.lens.isEmpty then 0 else x.lens.sum / x.lens.length) ++ le 4 ((r.map (·.tick)).getD 0) ++
      le 4 ((r.map (·.diverged)).getD 0) ++ le 4 s.tick.index))

/-! ### The tap buffer (R544) -/

/-- Images stay while the ring or a slot still holds their tick. -/
def imagesKept (g : GalleyRec) (oldest : Nat) : List CtlImage :=
  g.images.filter (fun m => oldest ≤ m.tick || g.slots.any (fun e => e.2.first ≤ m.tick && m.tick ≤ max e.2.last e.2.until_))

/-- The waiting blocks reach the live ring, the oldest ones there are overwritten, and the freezes copy. -/
def execTapBufferDrain (s : State) : Out :=
  if s.galley.buf.isEmpty then .next s
  else
    let s1 := s.onGalley (fun g => { g with
      buf := [], ring := keepBytes (mib (ringMib s g.cfg)) (g.buf.reverse ++ g.ring), lens := ((g.buf.reverse).map TickBlock.len ++ g.lens).take 1024 })
    let s2 := freezesCopy s1
    .next (s2.onGalley (fun g => { g with images := imagesKept g (ringOldest s2) }))

/-- The taps of Table 21.1 that hold entries. -/
def tapCodes : List Nat := [1, 2, 3, 4, 5, 6, 7, 8, 9, 10, 0x10, 0x11, 0x12, 0x13, 0x14]

def execTapEntryLost (tap : Option Nat) (ports : Word32) (s : State) : Out :=
  if tap.any (fun c => !tapCodes.contains c) then .next s
  else
    match s.galley.cur, s.galley.buf with
    | some b, _ => .next (tapLost tap ports.toNat b (fun x t => t.onGalley (fun g => { g with
        cur := x, journal := if x.isNone then [] else g.journal })) s)
    | none, b :: rest => .next (tapLost tap ports.toNat b (fun x t => t.onGalley (fun g => { g with buf := x.toList ++ rest })) s)
    | none, [] => .next s

/-! ### Freezes and the decimated ring (R550, R551) -/

def execFreezeComplete (slot : Nat) (s : State) : Out :=
  let f := slotGet s slot
  if !freezeReady f then .next s
  else
    let fl := f.flags - (if bit f.flags 6 then 64 else 0)
    .next (recEvent 0x03 slot [fl] (s.onGalley (fun g => { g with slots := tset g.slots slot { f with filling := false, flags := fl } })))

/-- Keep decimated blocks, newest first, while their bytes fit. -/
def keepDec (room : Nat) : List TickBlock → List TickBlock
  | [] => []
  | b :: r => if 32 + sectionsLen b.keySecs ≤ room then b :: keepDec (room - (32 + sectionsLen b.keySecs)) r else []

/-- The oldest block of the ring that is due and not yet written. -/
def decDue (s : State) : Option TickBlock :=
  let newest := s.galley.dec.head?.map (·.tick)
  (s.galley.ring.reverse).find? (fun b => b.tick % s.galley.cfg.decN == 0 && !b.replay && newest.all (fun t => t < b.tick))

def execDecimatedWrite (s : State) : Out :=
  if s.galley.cfg.dec = 0 ∨ !recOn s then .next s
  else
    match decDue s with
    | none => .next s
    | some b => .next (s.onGalley (fun g => { g with dec := keepDec (mib g.cfg.dec) (b :: g.dec) }))

end Sys2Proof.Machine
end

