-- ==== Sys2Proof/Machine/Red.lean ====
section
/-! DEFINITION. The RED commands (Table 20.8), the messages of the cross-link and the role decisions (chapter 20). -/

namespace Sys2Proof.Machine

open Sys2Proof

/-! ### RED_PAIR_FORM and RED_UNFENCE (R34, R35, R534) -/

/-- The cross-link bring-up of a formation or an unfencing starts (R518). -/
def startForm (op : Nat) (s : State) : State := s.onRed (fun r => { r with form := some (op, .bringUp) })

def execRedPairForm (c : Cmd) (s : State) : Out :=
  let g : Gate := {
    opcode := 0x1001, len := c.inl 8, legal := inStates [.config, .standby], roles := fun r => r == .active && !s.dev.paired,
    par := c.u8 0 < 2 && c.u8 1 < 2 && (c.s16 2).natAbs ≤ 640 && c.rsv 4 4, free := !held s .pair && s.tick.commits.isEmpty,
    pends := true }
  runCmd g c s (fun s =>
    let s1 := s.onRed (fun r => { r with onB := c.u8 0 == 1, follow := c.u8 1 == 1, ax := c.s16 2 })
    ⟨startForm 0x1001 (goPending g c [.pair] 0 none s1), .pending, formResult s 0, false⟩)

/-- Result of RED_UNFENCE: role and the partner's device state. -/
def unfenceResult (s : State) : Bytes := le 1 s.dev.role.code ++ le 1 s.red.pState

def execRedUnfence (c : Cmd) (s : State) : Out :=
  let g : Gate := {
    opcode := 0x1003, len := c.inl 0, legal := inStates [.config, .standby], roles := fun r => r == .fenced,
    free := !held s .pair && s.tick.commits.isEmpty, pends := true }
  runCmd g c s (fun s =>
    if s.red.silent ∨ s.red.pRole ≠ 0 then ⟨s, .conflict, unfenceResult s, false⟩
    else ⟨startForm 0x1003 (goPending g c [.pair] 0 none s), .pending, unfenceResult s, false⟩)

/-- A formation or an unfencing ends with CONFLICT; `mask` as RED_PAIR_FORM reports it. -/
def formConflict (op mask : Nat) (s : State) : State :=
  endForm op .conflict (if op = 0x1001 then formResult s mask else unfenceResult s) s

/-- Conflict bits of RED_PAIR_FORM once the partner is heard. -/
def formMask (s : State) (pairsel : Bool) (variant : Nat) : Nat :=
  b2n (s.power.straps.pairsel == pairsel) + 4 * b2n (variant != s.dev.variant.code)

/-- The four lanes hold lock and alignment in the order 0-1-2-3 or its reversal, or the bring-up failed (R518). -/
def execXlinkBringupDone (locked : Bool) (order : List Nat) (inverted : BitVec 4) (pairsel : Bool) (variant : Nat) (s : State) : Out :=
  match formNow s with
  | some (op, .bringUp) =>
    if !locked ∨ (order ≠ [0, 1, 2, 3] ∧ order ≠ [3, 2, 1, 0]) then .next (formConflict op 8 s)
    else
      let rev := order == [3, 2, 1, 0]
      let s1 := redEvent 0x0A .notice 0 [1, inverted.toNat, b2n rev] (s.onRed (fun r => { r with
        up := true, inverted := inverted, reversed := rev, pSel := pairsel, pVariant := variant }))
      let m := if op = 0x1001 then formMask s pairsel variant else 0
      .next (if m ≠ 0 then formConflict op m s1 else s1.onRed (fun r => { r with form := some (op, .lock) }))
  | _ => .next s

/-- A lane out of lock for 1 µs takes the cross-link down. -/
def execXlinkDown (lane : Fin 4) (s : State) : Out :=
  if !s.red.up then .next s
  else
    let s1 := redEvent 0x0A .notice lane [0, s.red.inverted.toNat, b2n s.red.reversed] (s.onRed (fun r => { r with up := false }))
    match formNow s with
    | some (op, _) => .next (formConflict op 8 s1)
    | none => .next s1

/-- A standby that follows station time holds its discipline OFF, and its PTP instances LISTENING (R520). -/
def standbyTime (s : State) : State :=
  if !followsTime s then s
  else
    (s.onTime (fun t => { t with dstate := .off, first := false, accept := false })).onNet (fun x => { x with
      ptp := x.ptp.map (fun e => (e.1, if e.2.state = 0 then e.2 else { e.2 with state := 1 })) })

/-- The step taken once at formation: tick index, converter tick time and cell-link time become the partner's, and station time too where
FOLLOW_TIME is set (R34, R520). -/
def alignTick (a : XlAlign) (s : State) : State :=
  let s1 := baseUpd 2 (fun b => { b with val := a.link }) (baseUpd 1 (fun b => { b with val := (a.index * s.tick.len + s.tick.past) * 1000 * 2 ^ 32 })
    (s.onTick (fun t => { t with index := a.index })))
  when s.red.follow (baseUpd 0 (fun b => { b with val := a.station })) (s1.onLink (fun l => { l with linkTime := BitVec.ofNat 56 (a.link / 2 ^ 26) }))

/-- The comparison starts anew: the first tick compared is the one computed from the next boundary on. -/
def compareFresh (s : State) : State :=
  s.onRed (fun r => { r with since := s.tick.index, own := none, theirs := none, runs := [], dispute := none })

/-- The pair is formed: role by PAIRSEL, comparison from the next commit boundary on (R34). -/
def formed (digest : Nat) (s : State) : State :=
  let s1 := (compareFresh s).onRed (fun r => { r with
    heard := some s.tick.index, missed := 0, silent := false, digest := digest, record := none, mset := [], deferred := [], evidence := 0,
    promote := none, take := none, handover := none })
  let s2 := s1.onDev (fun d => { d with paired := true })
  let s3 := standbyTime (if s.power.straps.pairsel then setRole .standby s2 else s2)
  let s4 := endForm 0x1001 .ok (formResult s3 0) s3
  redEvent 0x01 .notice 0 [s4.dev.role.code] s4

/-- Ports leave SILENT for their bring-up (Table 20.5 step 4). -/
def unfencePorts (s : State) : State :=
  ((allPorts s).filter (fun p => (portGet s p).state == .silent)).foldl
    (fun t p => portStart p (portUpd p (fun x => { x with blocked := true }) t)) s

/-- XLCLK lock: the standby aligns, then the configuration digests are compared (steps 5 and 6 of Table 1.7, steps 2 to 4 of
Table 20.5). A unit that rejoins is steered by increments alone (R520): it is aligned once its tick index is the active's. -/
def execXlclkLock (digest : Word32) (align : XlAlign) (s : State) : Out :=
  match formNow s with
  | some (op, .lock) =>
    let own := configDigest s
    let s1 := if op = 0x1001 ∧ s.power.straps.pairsel then alignTick align s else s
    if op = 0x1003 ∧ align.index ≠ s.tick.index then .next s
    else if digest.toNat ≠ own then .next (formConflict op 2 s1)
    else if op = 0x1001 then .next (formed own s1)
    else .next (unfencePorts (s1.onRed (fun r => { r with form := some (op, .install 64), digest := own })))
  | _ => .next s

/-- Every port that is not DOWN or LOST is in service again (Table 20.5 step 4). -/
def portsBack (s : State) : Bool :=
  (allPorts s).all (fun p => (portGet s p).state == .inService || (portGet s p).state == .down || (portGet s p).state == .lost)

/-- The cause a mirrored transition into the partner's present state carries (Table 4.12). -/
def mirrorCause : DevState → Nat
  | .safeStop => 0x11 | .blockedFault => 0x30 | _ => 0x10

def addMirror (dest : DevState) (cause boundary : Nat) (s : State) : State :=
  s.onDev (fun d => { d with triggers := d.triggers ++ [{ dest := dest, cause := cause, boundary := boundary, mirror := true }] })

def stateOf (code : Nat) : Option DevState := DevState.all.find? (fun x => x.code == code)

/-- The unit takes the active's device state by mirrored transitions; from CONFIG the way to DEBLOCKED leads through STANDBY. -/
def takeState (s : State) : State :=
  match stateOf s.red.pState with
  | none => s
  | some dest =>
    if dest = s.dev.state then s
    else if s.dev.state = .config ∧ dest = .deblocked then
      addMirror dest 0x10 (s.tick.index + 2) (addMirror .standby 0x10 (s.tick.index + 1) s)
    else addMirror dest (mirrorCause dest) (s.tick.index + 1) s

/-- 64 ticks are installed: role STANDBY, comparison starts (Table 20.5 step 5). -/
def execUnfenceInstallDone (s : State) : Out :=
  match formNow s with
  | some (op, .install 0) =>
    if op ≠ 0x1003 then .next s
    else
      let s1 := standbyTime (setRole .standby (takeState s))
      .next (endForm 0x1003 .ok (unfenceResult s1) ((compareFresh s1).onRed (fun r => { r with heard := some s.tick.index, missed := 0 })))
  | _ => .next s

def execUnfenceTimeout (s : State) : Out :=
  match formNow s with
  | some (op, _) => if op = 0x1003 then .next (endForm 0x1003 .timeout (unfenceResult s) s) else .next s
  | none => .next s

/-! ### RED_ROLE_HANDOVER (R533, R539) -/

def execRedRoleHandover (c : Cmd) (s : State) : Out :=
  let now := s.tick.index
  let lead := now + leadOf s.tick.len
  let b := if c.u64 4 = 0 then lead else c.u64 4
  let act := c.u8 0
  let soon := decide ((b - now) * s.tick.len ≤ 1000)
  let g : Gate := {
    opcode := 0x1002, len := c.inl 12, legal := inStates [.config, .standby, .deblocked, .safeStop, .blockedFault],
    roles := fun r => if act = 0 then r == .active && s.dev.paired else act != 1 || r == .standby,
    par := act < 2 && c.rsv 1 3 && decide ((b - now) * s.tick.len ≤ 10000000), free := !held s .pair && !held s .deviceState, pends := !soon }
  runCmd g c s (fun s =>
    let no : Bool := if act = 0 then s.red.silent || s.red.pRole != 1 else !s.red.silent
    if no ∨ b < lead then ⟨s, .conflict, handResult s lead, false⟩
    else
      let s1 := goPending g c [.pair] b none s
      if act = 0 then
        ⟨xlSend (.handover b) (s1.onRed (fun r => { r with handover := some (b, false) })), .pending,
          le 1 Role.fenced.code ++ le 3 0 ++ le 8 b, soon⟩
      else
        ⟨s1.onRed (fun r => { r with take := some b }), .pending, le 1 Role.active.code ++ le 3 0 ++ le 8 b, soon⟩)

/-! ### RED_COMPARE_CONFIG and RED_STATUS -/

def execRedCompareConfig (c : Cmd) (s : State) : Out :=
  let m := c.u32 4
  let g : Gate := {
    opcode := 0x1004, len := c.inl 8, legal := notBoot,
    par := 1 ≤ c.u8 0 && c.u8 0 ≤ 16 && c.rsv 1 3 && m ||| 0x1030FFF == 0x1030FFF }
  runCmd g c s (fun s => okReply (s.onRed (fun r => { r with conf := some (c.u8 0, m) })) (le 4 (m &&& domainsMask s)))

/-- PHASE of Table 20.9. -/
def redPhase (s : State) : Nat :=
  if s.dev.role = .disputed then 2
  else match formNow s with
    | some (_, .install _) => 1
    | _ => if comparing s then 0 else 3

def execRedStatus (c : Cmd) (s : State) : Out :=
  let g : Gate := { opcode := 0x1005, len := c.inl 0, legal := notBoot }
  runCmd g c s (fun s =>
    let r := s.red
    okReply s (le 1 s.dev.role.code ++ le 1 (r.pRole % 4 + 4 * b2n r.silent + 8 * b2n s.dev.paired + 16 * (r.pState % 16)) ++
      le 1 (b2n r.up + 2 * r.inverted.toNat + 32 * b2n r.reversed) ++ le 1 (redPhase s) ++ leS 4 r.dx ++ le 4 r.mismatches ++
      le 2 (r.last.elim 0xFFFF (·.1)) ++ le 2 r.disputes ++ le 4 (r.last.elim 0 (·.2)) ++ le 4 r.lateSets ++ le 2 r.promotions ++
      le 2 0 ++ le 4 s.tick.index))

/-! ### Messages of the partner (Table 20.2) -/

/-- One installation tick has passed, once the ports are back. -/
def installTick (s : State) : State :=
  match formNow s with
  | some (op, .install n) => if portsBack s then s.onRed (fun r => { r with form := some (op, .install (n - 1)) }) else s
  | _ => s

/-- The rejoining unit installs the active's decisions. -/
def installing (s : State) : Bool := (formNow s).any (fun f => match f.2 with | .install _ => true | _ => false)

/-- TICK: role and state of the partner, digests to compare, decisions to install (R524, R525, R531). Changes of a record not yet installed
are kept before the new ones. -/
def execXlTickReceive (tick : XlTickIn) (s : State) : Out :=
  let m := tick.msg
  if !s.dev.paired ∨ !s.red.up then .next s
  else
    let fresh := s.red.heard.all (fun t => decide (t < m.index))
    let takes := m.role = 0 ∧ !s.red.silent ∧ (s.dev.role = .standby ∨ installing s)
    let s1 := s.onRed (fun r => { r with
      heard := some (max m.index (r.heard.getD 0)), pRole := m.role, pState := m.state, theirs := if r.silent then none else some m,
      record := if takes then some { m.record with cells := r.record.elim [] (·.cells) ++ m.record.cells } else r.record,
      good := if r.silent ∧ fresh then r.good + 1 else r.good })
    .next (compareTick tick.ns (if m.role = 0 ∧ !s.red.silent then installTick s1 else s1))

def execXlMsetReceive (tick : Nat) (set : List XlChan) (s : State) : Out :=
  if !s.dev.paired ∨ !s.red.up then .next s else .next (s.onRed (fun r => { r with mset := ((tick, set) :: r.mset).take 2 }))

/-- COMMIT: it matches an own armed commit, or waits for one; from 10 µs before the boundary on it comes too late (R126). -/
def execXlCommitReceive (boundary : Nat) (mask : BitVec 9) (crc : Word32) (s : State) : Out :=
  let same := fun (k : Commit) => k.boundary == boundary && k.mask == mask && k.crc == crc
  if !s.dev.paired ∨ !s.red.up ∨ (boundary - s.tick.index) * s.tick.len ≤ 10 then .next s
  else .next (s.onTick (fun t =>
    if t.commits.any same then { t with commits := t.commits.map (fun k => if same k then { k with matched := true } else k) }
    else { t with partner := (boundary, mask.toNat, crc.toNat) :: t.partner }))

/-- STATE: DISPUTED at the named boundary, or a transition to mirror (R522, R527). The message names no domain, so the standby reports that
of its own last mismatch. -/
def execXlStateReceive (disputed : Bool) (state cause boundary : Nat) (s : State) : Out :=
  if !s.dev.paired ∨ s.red.silent then .next s
  else if disputed then
    if s.red.dispute.isSome ∨ s.dev.role ≠ .standby then .next s
    else
      let d := (s.red.last.map (·.1)).getD 0
      .next (redEvent 0x03 .notice d [boundary] (s.onRed (fun r => { r with dispute := some (d, boundary) })))
  else if s.dev.role = .fenced ∨ cause = 0x03 ∨ cause = 0x22 then .next s
  else
    match stateOf state with
    | some dest => .next (addMirror dest cause (max boundary (s.tick.index + 1)) s)
    | none => .next s

/-- BLOCK: block copies on every port; a port that sends SAFE keeps it (R523, Table 20.6). -/
def execXlBlockReceive (cause : Byte) (s : State) : Out :=
  if !s.dev.paired then .next s
  else .next (onPorts (fun p t =>
    match (portGet t p).msg with
    | some ⟨_, .safe _ _, _⟩ => portUpd p (fun x => { x with blocked := true }) t
    | _ => sendBlock p cause.toNat 4 t) s)

def execXlCheckReceive (pass : Bool) (s : State) : Out :=
  if !s.dev.paired then .next s else .next (s.onRed (fun r => { r with pCheck := some pass }))

/-- One base of the standby is steered: its increment is free within what R420 allows. -/
def steerBase (n : Nat) (s : State) : State :=
  let d := s.draw
  baseUpd n (fun b => { b with inc := 0x1FFF2E48F + d.1 % (0x2000D1B71 - 0x1FFF2E48F + 1) }) d.2

/-- TIME, every 1 ms. On the active `x` is the round trip R_x: D_x = (R_x - A_x)/2, and marker and base values go out. On the standby `x` is
the D_x returned, `bases`, `qual` and `bound` are the active's, and the bases are steered (R520). The roles are those of work, so a dispute does not
stop it. -/
def execXlTimeMarker (x : Int) (bases : List Nat) (qual bound : Nat) (s : State) : Out :=
  if !s.dev.paired ∨ !s.red.up then .next s
  else if workRole s = .active then
    .next (xlSend (.time ((List.range 3).map (fun n => (base s n).val)) s.time.qual.code s.time.bound)
      (s.onRed (fun r => { r with dx := roundDiv (x - r.ax) 2 })))
  else
    let s1 := s.onRed (fun r => { r with dx := x, pBases := bases })
    if workRole s = .standby then
      let s2 := steerBase 2 (steerBase 1 s1)
      if !s.red.follow then .next s2
      else
        let q := ([TQual.unset, .free, .restored, .locked, .holdover, .holdoverOut].find? (fun x => x.code == qual)).getD s.time.qual
        .next (setQual q bound (steerBase 0 s2))
    else .next s1

def execXlHandoverReceive (boundary : Nat) (s : State) : Out :=
  if !s.dev.paired ∨ s.dev.role ≠ .standby then .next s
  else .next (s.onRed (fun r => { r with handover := some (boundary, true) }))

/-! ### Dispute, self-check, decision (R527 to R530) -/

def execDisputedEnter (s : State) : Out :=
  match s.red.dispute with
  | none => .next s
  | some (_, b) =>
    if s.tick.index < b ∨ (s.dev.role ≠ .active ∧ s.dev.role ≠ .standby) then .next s
    else .next (setRole .disputed (s.onRed (fun r => { r with
      before := some s.dev.role, entered := s.nowUs, check := none, pCheck := none, record := none,
      disputes := min (r.disputes + 1) 65535 })))

/-- Own result by Table 20.4: known answers, configuration CRC, scrub, package links. -/
def execSelfCheckDone (kat scrub links : Bool) (s : State) : Out :=
  if s.dev.role ≠ Role.disputed ∨ s.red.check.isSome then .next s
  else
    let pass := kat && scrub && links && configDigest s == s.red.digest
    .next (xlSend (.check pass) (s.onRed (fun r => { r with check := some pass })))

/-- The dispute is over; comparison resumes. -/
def endDispute (s : State) : State :=
  (compareFresh s).onRed (fun r => { r with before := none, check := none, pCheck := none, since := s.tick.index - 1 })

def checkEvent (own partner : Nat) (s : State) : State := redEvent 0x04 .notice 0 [own, partner] s

/-- Table 4.13 with both results. -/
def execRoleDecision (s : State) : Out :=
  if s.dev.role ≠ Role.disputed then .next s
  else
    match s.red.check, s.red.pCheck with
    | some own, some partner =>
      let s1 := checkEvent (b2n own) (b2n partner) (endDispute s)
      let wasActive := s.red.before == some .active
      if !own then .next (fenceNow partner s1)
      else if !partner then .next (setRole .active (when (followsTime s && s.time.cfg.mode) restartTime s1))
      else
        let s2 := redEvent 0x05 .contained ((s.red.dispute.map (·.1)).getD 0) [] s1
        .next (if wasActive then setRole .active s2 else fenceNow true s2)
    | _, _ => .next s

/-- 40 µs without the partner's result (R529). -/
def execCheckTimeout (s : State) : Out :=
  if s.dev.role ≠ Role.disputed ∨ s.nowUs < s.red.entered + 40 then .next s
  else
    match s.red.check, s.red.pCheck with
    | some own, none =>
      let s1 := checkEvent (b2n own) 2 (endDispute s)
      if own then .next (partnerLost 0 (setRole (s.red.before.getD .active) s1)) else .next (fenceNow false s1)
    | _, _ => .next s

/-! ### Silence and promotion (R531, R532) -/

/-- 16 ticks in a row with a valid TICK: the partner is back; cell evidence no longer promotes (Table 20.6). -/
def execPartnerBack (s : State) : Out :=
  if !s.red.silent ∨ s.red.good < 16 then .next s
  else .next (redEvent 0x07 .notice 0 [] (s.onRed (fun r => { r with
    silent := false, good := 0, missed := 0, evidence := 0, theirs := none, own := none,
    promote := none })))

def execPromotion (s : State) : Out := .next (promoteDue s)

end Sys2Proof.Machine
end

