-- ==== Sys2Proof/Machine/Regs.lean ====
section
/-! DEFINITION. The registers of BAR0: what each reads (Tables 4.2 to 4.6, 16.2, 16.3, 19.4, 23.8), and writes of registers that have
no command row of their own (R80). -/

namespace Sys2Proof.Machine

open Sys2Proof

/-! ### Reading -/

/-- Identity and alive window (Tables 4.2 and 4.3). -/
def devStatus (s : State) : Nat :=
  s.dev.heartbeat.toNat * 2 ^ 16 + s.dev.state.code * 2 ^ 12 + s.dev.role.code * 2 ^ 10 + b2n s.dev.aliveRun * 2 ^ 8 + b2n s.dev.fatal * 2 ^ 7 +
    b2n s.dev.capsValid * 2 ^ 6 + b2n s.dev.aonAttention * 2 ^ 5

def idReg (s : State) (off : Nat) : Nat :=
  match off with
  | 0x00 => 0x4B080000 + s.dev.variant.code * 256 + Config.siliconStep.toNat
  | 0x04 => fwEdition
  | 0x08 => devStatus s
  | 0x0C => strapBits s
  | 0x10 => if s.dev.capsValid then s.dev.capsDigest.toNat else 0
  | _ => 0

/-- A mailbox control block (Tables 4.4 to 4.6). -/
def mbReg (s : State) (n off : Nat) : Nat :=
  let b := mbGet s n
  match off with
  | 0x00 => b.cmdBase.toNat % 2 ^ 32
  | 0x04 => b.cmdBase.toNat / 2 ^ 32
  | 0x08 => b.rspBase.toNat % 2 ^ 32
  | 0x0C => b.rspBase.toNat / 2 ^ 32
  | 0x10 => b.ctrl.toNat
  | 0x14 => b.cmdTail.toNat
  | 0x18 => b.cmdHead.toNat
  | 0x1C => b.rspTail.toNat
  | 0x20 => b.rspHead.toNat
  | 0x28 => pendCount s n * 256 + b2n (!b.held.isEmpty) * 8 + b2n b.ringErr * 4 + b2n b.seqErr * 2 + b2n b.enabled
  | _ => 0

/-- The event-queue registers and slots (R503). -/
def evqReg (s : State) (off : Nat) : Nat :=
  let f := s.fault
  if 0x3000 ≤ off then ((f.window.find? (fun e => e.1 == (off - 0x3000) / 64)).map (fun e => rd e.2.bytes (off % 64) 4)).getD 0
  else
    match off with
    | 0x2000 => f.tail.toNat
    | 0x2004 => f.head.toNat
    | 0x2008 => f.ctrl.toNat
    | 0x200C => f.backlog.length * 2 ^ 16 + b2n f.overrun * 4 + b2n f.lost * 2 + b2n (f.ctrl.getLsbD 0)
    | 0x2010 => f.lostCnt
    | 0x2014 => f.cause.toNat % 2 ^ 32
    | 0x2018 => f.causeHi.toNat
    | _ => 0

/-- The word of a latched 96-bit value. -/
def word96 (v i : Nat) : Nat := v / 2 ^ (32 * i) % 2 ^ 32

def timeReg (s : State) (off : Nat) : Nat :=
  let t := s.time
  if off < 0x40 then (if off % 16 = 12 then 0 else word96 (tget ({} : Stamp) t.latch (off / 16)).bits (off % 16 / 4))
  else if 0x100 ≤ off ∧ off < 0x140 then
    (if off % 16 = 0 then tget 0 t.incLo ((off - 0x100) / 16) else if off % 16 = 4 then (base s ((off - 0x100) / 16)).inc / 2 ^ 32 else 0)
  else
    match off, t.tsLatch with
    | 0x200, _ => timeStat s
    | 0x300, some e => word96 e.time.bits 0
    | 0x304, some e => word96 e.time.bits 1
    | 0x308, some e => word96 e.time.bits 2
    | 0x30C, some e => 2 ^ 31 + b2n e.lost * 2 ^ 30 + b2n e.rise * 32 + e.input
    | 0x310, _ => t.stamps.length
    | _, _ => 0

/-- What a register reads; offsets that name none read as zero. Reads that latch or pop have rows of their own. -/
def regRead (s : State) (off : Nat) : Nat :=
  if off % 4 ≠ 0 then 0
  else if off < 0x1000 then idReg s off
  else if off < 0x1200 then mbReg s ((off - 0x1000) / 64) (off % 64)
  else if 0x2000 ≤ off ∧ off < 0x4000 then evqReg s off
  else if 0x4000 ≤ off ∧ off < 0x5000 then timeReg s (off - 0x4000)
  else if 0x8000 ≤ off ∧ off < 0xC000 then
    let x := monGet s ((off - 0x8000) / 512)
    monWord x x.latch (off % 512 / 4)
  else 0

/-! ### Writing -/

/-- Put the low or the high half of a ring base. -/
def halfPut (b : Word64) (hi : Bool) (v : Word32) : Word64 :=
  if hi then BitVec.ofNat 64 (v.toNat * 2 ^ 32 + b.toNat % 2 ^ 32) else BitVec.ofNat 64 (b.toNat / 2 ^ 32 * 2 ^ 32 + v.toNat)

/-- Ring bases are ignored while ENABLED reads 1; MBn_STATUS clears by ones (R83). -/
def mbRegWrite (n off : Nat) (v : Word32) (s : State) : State :=
  let free := !(mbGet s n).enabled
  match off with
  | 0x00 => when free (mbUpd n (fun x => { x with cmdBase := halfPut x.cmdBase false v })) s
  | 0x04 => when free (mbUpd n (fun x => { x with cmdBase := halfPut x.cmdBase true v })) s
  | 0x08 => when free (mbUpd n (fun x => { x with rspBase := halfPut x.rspBase false v })) s
  | 0x0C => when free (mbUpd n (fun x => { x with rspBase := halfPut x.rspBase true v })) s
  | 0x10 => mbCtrlWrite n v s
  | 0x20 => rspHeadWrite n v s
  | 0x24 => doorbellWrite n v s
  | 0x28 => mbUpd n (fun x => { x with ringErr := x.ringErr && !v.getLsbD 2, seqErr := x.seqErr && !v.getLsbD 1 }) s
  | _ => s

def evqRegWrite (off : Nat) (v : Word32) (s : State) : State :=
  match off with
  | 0x2004 => evqHeadWrite v s
  | 0x2008 => evqCtrlWrite v s
  | 0x200C => s.onFault (fun f => { f with overrun := f.overrun && !v.getLsbD 2, lost := f.lost && !v.getLsbD 1 })
  | _ => s

/-- TBn_INC_LO is held until INC_HI is written; TIME_STAT clears by ones (Tables 16.2 and 16.3). -/
def timeRegWrite (off : Nat) (v : Word32) (s : State) : State :=
  if 0x100 ≤ off ∧ off < 0x140 ∧ off % 16 = 0 then s.onTime (fun t => { t with incLo := tset t.incLo ((off - 0x100) / 16) v.toNat })
  else if 0x100 ≤ off ∧ off < 0x140 ∧ off % 16 = 4 then tbIncWrite ((off - 0x100) / 16) v s
  else if off = 0x200 then s.onTime (fun t => { t with incErr := t.incErr &&& ~~~(v.setWidth 4), stampLost := t.stampLost && !v.getLsbD 4 })
  else s

/-- A write of one 32-bit word; registers that are read only, and offsets that name none, ignore it. -/
def regWrite (off : Nat) (v : Word32) (s : State) : State :=
  if off % 4 ≠ 0 then s
  else if 0x1000 ≤ off ∧ off < 0x1200 then mbRegWrite ((off - 0x1000) / 64) (off % 64) v s
  else if 0x2000 ≤ off ∧ off < 0x4000 then evqRegWrite off v s
  else if 0x4000 ≤ off ∧ off < 0x5000 then timeRegWrite (off - 0x4000) v s
  else s

/-- A write narrower than 32 bits is ignored; each half of a 64-bit write is one such command. -/
def execRegisterWrite (offset width : Nat) (value : Word32) (s : State) : Out :=
  if !barOn s ∨ width < 32 then .next s else .next (regWrite offset value s)

end Sys2Proof.Machine
end

