-- ==== Sys2Proof/Machine/Safe.lean ====
section
/-! DEFINITION. The safety functions (chapter 18): the SAFE commands, the main path, Mordant and the safe messages. -/

namespace Sys2Proof.Machine

open Sys2Proof

/-! ### The SAFE commands (R489 to R492, Table 18.6) -/

/-- The confirmed SPB CRC, 0 while none is kept. -/
def confCrcOf (s : State) : Nat := (s.safe.confCrc.getD 0).toNat

def execSafeConfigRead (c : Cmd) (s : State) : Out :=
  let g : Gate := {
    opcode := 0x0E01, mb0 := true, mb17 := false, len := c.inl 12, legal := notBoot,
    par := c.u64 0 % 64 == 0 && c.rsv 8 4 }
  runCmd g c s (fun s =>
    let s1 := when (c.u64 0 != 0) (putBuf (c.u64 0) (withCrc (mramSpb s))) s
    okReply s1 (le 1 (swNow s).toNat ++ le 1 (s.safe.cfg.elim 0 (fun k => k.sw.toNat)) ++ le 1 s.safe.sealSt ++
      le 1 (aonFlags s) ++ le 4 (rd (mramSpb s) 380 4) ++ le 4 (confCrcOf s)))

/-- A receive or send connection entry of a block is within Table 18.2. -/
def rxEntryOk (p : Bytes) (r : Nat) : Bool :=
  let o := 64 + 8 * r
  !rxOn p r || (1 ≤ rd p (o + 4) 2 && rd p (o + 4) 2 ≤ 60000 && rxFlags p r % 4 < 3 && rxFlags p r < 64 && rd p (o + 7) 1 < 64)

def txEntryOk (p : Bytes) (t : Nat) : Bool :=
  let o := 192 + 8 * t
  !txOn p t || (1 ≤ rd p (o + 4) 2 && rd p (o + 4) 2 ≤ 1000 && rd p (o + 6) 1 < 4 && rd p (o + 7) 1 < 16)

/-- The block suits the variant: formats and ranges of Table 18.2, MONSRC and VSWCFG by variant (R465, R466). The M2, which the table does
not name at MONSRC, may have either source. -/
def spbSuits (s : State) (p : Bytes) : Bool :=
  let one : Int := 268435456
  let src := rd p 4 2
  rd p 0 4 == 1 && protSelOk src && (isM2 s || (if noMpr s then 0x8000 ≤ src && src % 32768 < 128 else src < 0x8000)) && rd p 6 1 < 24 &&
  (if noMpr s then !bit (rd p 7 1) 3 else rd p 7 1 == 0) &&
  0 ≤ rdS p 8 4 && rdS p 8 4 ≤ one && 0 < rdS p 12 4 && rd p 16 4 ≤ 10000000 && 0 ≤ rdS p 20 4 && rdS p 20 4 ≤ one &&
  10 ≤ rd p 24 4 && rd p 24 4 ≤ 600000 && rd p 28 1 < 16 && rd p 40 2 ≤ 18000 && rd p 40 2 < rd p 42 2 &&
  rd p 42 2 ≤ 18000 && rd p 44 4 ≤ 10000000 && spbZeros p &&
  (List.range 16).all (fun i => rxEntryOk p i && txEntryOk p i)

/-- The refusal mask of a confirmation (Table 18.6). -/
def sealRefusal (sw crc : Nat) (s : State) : Nat :=
  let p := mramSpb s
  let now := swNow s
  let open_ := decide (s.safe.closed < 2)
  let unsettled := if noMpr s then s.safe.vswUs.any (fun t => s.nowUs < t + 1000000) else !s.safe.swAcc || s.safe.swReads < 1000
  b2n (now.toNat != sw || unsettled) + 2 * b2n (if noMpr s then open_ else now.getLsbD 7) +
    4 * b2n (rd p 380 4 != crc || !spbOwn p) + 8 * b2n open_ + 16 * b2n (now.getLsbD 5 || !spbSuits s p)

def sealResult (s : State) (mask : Nat) : Bytes := le 1 s.safe.sealSt ++ le 1 0 ++ le 2 mask ++ le 4 (rd (mramSpb s) 380 4)

/-- Action 1 stores the block; action 0 confirms (R468). -/
def execSafeSealConfirm (c : Cmd) (s : State) : Out :=
  let act := c.u8 0
  let spb := (c.params.drop 8).take 384
  let g : Gate := {
    opcode := 0x0E02, mb0 := true, mb17 := false,
    len := c.extLen (fun n => (n == 8 && act != 1) || (n == 392 && act != 0)),
    legal := inStates [.config, .standby, .blockedFault],
    permit := act != 1 || (if noMpr s then s.power.tamper else (swNow s).getLsbD 7), par := act < 2 && c.rsv 2 2 && (act != 1 || spbZeros spb) }
  if s.dev.state ≠ .powerDown ∧ !booting s ∧ c.isExt ∧ c.blockLen = 392 ∧ act = 1 ∧ (!spbOwn spb ∨ spbCrc spb ≠ c.u32 4) then
    .next (answer 0x0E02 c .crcFail [] s)
  else
    runCmd g c s (fun s =>
      if act = 1 then
        let s1 := sealUpdate (s.onSafe (fun y => { y with
          spb := spb, sealBase := 0, vswUs := if rd spb 7 1 = rd (mramSpb s) 7 1 then y.vswUs else some s.nowUs }))
        okReply s1 (sealResult s1 0)
      else
        let m := sealRefusal (c.u8 1) (c.u32 4) s
        if m ≠ 0 then ⟨s, .conflict, sealResult s m, false⟩
        else
          let s1 := s.onSafe (fun y => { y with
            sealBase := 1, booted := true, confSw := some (swNow s), confCrc := some (BitVec.ofNat 32 (rd (mramSpb s) 380 4)) })
          let s2 := sealUpdate (safeLoad (s1.onPower (fun p => { p with tamper := false })))
          okReply s2 (sealResult s2 0))

/-- TSEL is a signal of class 2, 3 or 4, or zero where TARGET is used (R492, assumption 66). -/
def tselOk (t sel : Nat) (used : Bool) : Bool :=
  (!used && sel == 0) || ((sel / 4096 == 2 || sel / 4096 == 3 || sel / 4096 == 4) && selOk t sel)

def execSafeRampConfig (c : Cmd) (s : State) : Out :=
  let k : RampCfg := {
    on := bit (c.u8 0) 0, useSel := bit (c.u8 0) 1, tsel := c.u16 2, target := c.s32 4, vStart := c.s32 8, vStop := c.s32 12,
    v1 := c.s32 16, a1 := c.s32 20, aMax := c.s32 24, dMax := c.s32 28, d1 := c.s32 32 }
  let g : Gate := {
    opcode := 0x0E03, mb0 := true, mb17 := false, len := c.inl 36, fitted := !isM2 s,
    legal := inStates [.config, .standby, .deblocked, .blockedFault], roles := actStby,
    par := c.u8 0 < 4 && c.rsv 1 1 && tselOk s.tick.len k.tsel k.useSel && 0 < k.v1 && 0 ≤ k.vStart && k.vStart ≤ k.v1 &&
      0 ≤ k.vStop && k.vStop ≤ k.v1 && 0 < k.a1 && 0 < k.aMax && 0 < k.dMax && 0 < k.d1 }
  runCmd g c s (fun s => okReply (s.onSafe (fun y => { y with rampNew := some k })) (leS 4 (rampQ s)))

def execSafeStop (c : Cmd) (s : State) : Out :=
  let g : Gate := {
    opcode := 0x0E04, mb0 := true, mb17 := false, len := c.inl 0, fitted := !isM2 s, legal := inStates [.deblocked],
    roles := actStby, permit := swPermits s 1, free := !held s .seal, pends := true }
  runCmd g c s (fun s =>
    ⟨tookPending (fun p => p.opcode == 0x0E04) (goPending g c [.seal] 0 none (ss1Request 0x11 s)), .pending, [], false⟩)

def execSafeTorqueOff (c : Cmd) (s : State) : Out :=
  let g : Gate := { opcode := 0x0E05, mb0 := true, mb17 := false, len := c.inl 0, legal := notBoot, permit := swPermits s 1 }
  runCmd g c s (fun s =>
    let s1 := stoEnter 0 true s
    okReply s1 (le 1 s1.safe.sf.code ++ le 3 0 ++ le 8 s.tick.index))

def execSafeReset (c : Cmd) (s : State) : Out :=
  let g : Gate := {
    opcode := 0x0E06, mb0 := true, mb17 := false, len := c.inl 0, legal := inStates [.config, .standby, .blockedFault],
    permit := swPermits s 6 }
  runCmd g c s (fun s =>
    let r := safeReset 0 s
    ⟨r.1, r.2, le 1 r.1.safe.sf.code, false⟩)

/-- SAFE_STATUS (Table 18.8a). -/
def safeStatus (s : State) : Bytes :=
  let x := s.safe
  let ok := maskOf ((List.range 16).filter (fun r => let k : RxConn := tget {} x.rx r; k.runs && !k.expired))
  le 1 x.sf.code ++ le 1 x.sealSt ++ le 1 (x.cfg.elim 0 (fun k => k.sw.toNat)) ++ le 1 x.causes.toNat ++
    le 1 (b2n (mprOk s) + 2 * b2n x.mcfg.isSome + 4 * b2n x.mLatch + 8 * b2n (x.mStop && x.mcfg.isSome)) ++ le 1 0 ++ le 2 ok ++
    leS 4 (rampQ s) ++ leS 4 (if x.sf = .ss1 then x.env else 0) ++ leS 4 x.q ++ leS 4 (centiDeg (x.delta.getD 0)) ++
    le 4 (if x.sf = .ss1 then ss1Ms s else 0) ++ le 4 x.overruns ++ le 4 s.tick.index

def execSafeStatus (c : Cmd) (s : State) : Out :=
  let g : Gate := { opcode := 0x0E07, mb0 := true, mb17 := false, len := c.inl 0, legal := notBoot }
  runCmd g c s (fun s => okReply s (safeStatus s))

/-! ### The switches (R464, R469) -/

/-- The wait for the switches after a boot: load once they read the confirmed value, give up after 2 s. -/
def bootWait (s : State) : State :=
  if s.safe.booted ∨ s.dev.state = .boot ∨ s.dev.state = .powerDown then s
  else
    let n := s.safe.bootReads + 1
    if s.safe.swAcc ∧ bootLoadOk s ∧ s.safe.confSw = some s.safe.sw then safeLoad (s.onSafe (fun y => { y with booted := true, bootReads := n }))
    else s.onSafe (fun y => { y with bootReads := n, booted := decide (2000 ≤ n) })

def execSealSwitchRead (value : Byte) (s : State) : Out :=
  if !mprOk s ∨ s.dev.state = .powerDown then .next s
  else
    let take := s.safe.swRead == some value && (!s.safe.swAcc || s.safe.sw != value)
    let s1 := s.onSafe (fun y => { y with
      swRead := some value, sw := if take then value else y.sw, swAcc := y.swAcc || take, swReads := if take then 0 else y.swReads + 1 })
    .next (sealUpdate (bootWait s1))

/-! ### The main path (R474 to R481) -/

/-- SS1 at a cycle: capture q0, check the envelope and T_MAX, find the stop complete (R475, R476). -/
def mainStop (s : State) : State :=
  let p := s.safe.cfg.elim [] (fun k => k.spb)
  let q := s.safe.q
  let q0 := s.safe.q0.getD q
  let us := s.nowUs - s.safe.t0Us
  let env := envelope p q0 us
  let done := s.safe.v == 0 && decide (q ≤ rdS p 20 4)
  let bad := decide (env < q) || (decide (rd p 24 4 * 1000 ≤ us) && !done)
  let s1 := s.onSafe (fun y => { y with q0 := some q0, env := env })
  if bad then stoEnter 3 true (safeEvent 0x04 [0, word32 q, word32 env] s1)
  else if done then
    let fault := s.safe.stopCause == 0x20
    let cause := if fault then 0x21 else 0x12
    addTrigger (if fault then .blockedFault else .standby) cause 0
      (blockAll cause (ss1End 0 (s1.onSafe (fun y => { y with sf := .idle }))))
  else s1

/-- V1 and the positive-sequence current of point PSPT, and whether the inputs are valid (R479); phasors are derived while the protection
engine runs. -/
def slipInputs (s : State) (p : Bytes) : Cx × Cx × Bool :=
  let n := rd p 28 1
  let r := ptGet s n
  let v := posSeq r 4
  let ok := [0, 1, 2, 4, 5, 6].all (fun i => (r.ph.getD i ({}, false)).2)
  (v, posSeq r 0, protRuns s && (ptCfg s n).kind == 1 && ok && decide (fxOfQ (ptCfg s n).vmin ≤ v.mag))

/-- The load angle of a cycle and its supervision (R479, R480). The codes of the item `kind` are not given (assumption 4). -/
def loadAngle (s : State) : State :=
  let p := s.safe.cfg.elim [] (fun k => k.spb)
  let slip := s.safe.cfg.any (fun k => k.sw.getLsbD 4)
  if !(driveMode s && slip && (s.dev.state == .deblocked || s.dev.state == .safeStop)) then s
  else
    let (v, i, ok) := slipInputs s p
    if !ok then
      let n := s.safe.badUs + 250
      let s1 := s.onSafe (fun y => { y with badUs := n, slipUs := 0 })
      if n = 100250 then
        controlledBlock (safeEvent 0x05 [word32 (centiDeg (s.safe.delta.getD 0)), Config.openCode 0x1505 2] s1)
      else s1
    else
      let e := v.sub (Cx.mul ⟨fxOfQ (rd p 32 4), fxOfQ (rd p 36 4)⟩ i)
      let d0 := fxWrap (e.arg - v.arg)
      let d : Int := match s.safe.delta with
        | none => d0
        | some x => x + fxWrap (d0 - x)
      let excess := fun (lim : Nat) => decide ((lim : Int) * fxPi ≤ 18000 * (d.natAbs : Int))
      let n := if excess (rd p 42 2) then s.safe.slipUs + 250 else 0
      let trip := (n != 0 && rd p 44 4 + 250 ≤ n) || decide (fxPi < (d.natAbs : Int))
      let alarm := excess (rd p 40 2)
      let s1 := s.onSafe (fun y => { y with delta := some d, badUs := 0, slipUs := n, alarm := alarm })
      let s2 := when (alarm && !s.safe.alarm) (safeEvent 0x05 [word32 (centiDeg d), Config.openCode 0x1505 0]) s1
      if trip ∧ s.safe.sf ≠ .sto then stoEnter 5 true (safeEvent 0x05 [word32 (centiDeg d), Config.openCode 0x1505 1] s2) else s2

/-- A held request becomes block frames and the transition of Table 18.4. -/
def mainBlock (s : State) : State :=
  let s1 := s.onSafe (fun y => { y with req := false })
  if s.safe.req ∧ (s.dev.state = .deblocked ∨ s.dev.state = .safeStop) then addTrigger .blockedFault 0x32 0 (blockAll 0x32 s1) else s1

/-- One main-path cycle; a self-test of the safety core that failed is a fatal fault (R481). -/
def execMainPathCycle (run : PathCycle) (s : State) : Out :=
  if s.dev.state = .powerDown then .next s
  else
    let q := s.safe.cfg.elim 0 (fun k => monQ s k.spb false)
    let s1 := s.onSafe (fun y => { y with q := q, overruns := if run.excess then inc32 y.overruns else y.overruns })
    let s2 := loadAngle s1
    let s3 := if s2.safe.sf = .ss1 then mainStop s2 else s2
    let s4 := (mainBlock s3).onSafe (fun y => { y with beat := !y.beat, suspend := false, beatLost := false })
    .next (when run.failed (fatalFault 0 0x015 0x0B 0) s4)

/-! ### Mordant (R482, R483) -/

/-- Mordant's envelope and T_MAX while the device is in SAFE_STOP. -/
def mordantEnvelope (k : SafeCfg) (s : State) : State :=
  let q := monQ s k.spb true
  let q0 := s.safe.mq0.getD q
  let us := s.safe.mUs + 10
  let env := envelope k.spb q0 us
  let n := if env < q then s.safe.mOver + 1 else 0
  let s1 := s.onSafe (fun y => { y with mq0 := some q0, mUs := us, mOver := n })
  if 2 ≤ n ∨ rd k.spb 24 4 * 1000 ≤ us then
    mordantBlock 4 (raise 3 0x015 0x04 .notice 0 [1, word32 q, word32 env] s1)
  else s1

def execMordantCheck (s : State) : Out :=
  match s.safe.mcfg with
  | none => .next s
  | some k =>
    if !mprOk s then .next s
    else
      let cmp := rd k.spb 6 1
      let s1 := if k.sw.getLsbD 3 ∧ s.pwm.active.getLsbD cmp ∧ !s.safe.mLatch then mordantBlock 2 s else s
      .next (if s1.safe.mStop ∧ s1.dev.state = .safeStop then mordantEnvelope k s1 else s1)

/-- Mordant blocks in DEBLOCKED and SAFE_STOP, and SAFE_CORE_LOST is raised in any state (R483). -/
def execMordantHeartbeatLoss (s : State) : Out :=
  if !mprOk s ∨ s.safe.suspend ∨ s.safe.beatLost then .next s
  else
    let s1 := s.onSafe (fun y => { y with beatLost := true })
    let s2 := if running s then mordantBlock 7 s1 else s1
    .next (fatalFault 3 0x015 0x09 0 s2)

def execMordantSuspendExpiry (s : State) : Out := .next (s.onSafe (fun y => { y with suspend := false }))

/-! ### Safe messages (R454, R484 to R488) -/

/-- The SEQ of a PDU. -/
def pduSeq (p : Bytes) : Nat := rd p 4 4

/-- The two copies that a delivery takes: of one SEQ where there are such, else the oldest of each port, which differ (R454). -/
def copyPair (l : List SafeCopy) : Option (SafeCopy × SafeCopy) :=
  let ones := l.filter (fun e => e.port == 1)
  let pairOf := fun (a : SafeCopy) => (ones.find? (fun b => pduSeq b.pdu == pduSeq a.pdu)).map (fun b => (a, b))
  match (l.filter (fun e => e.port == 0)).findSome? pairOf with
  | some x => some x
  | none =>
    match l.find? (fun e => e.port == 0), ones.head? with
    | some a, some b => some (a, b)
    | _, _ => none

/-- The copies of a connection without those taken. -/
def dropCopies (r : Nat) (gone : List SafeCopy) (s : State) : State :=
  s.onNet (fun x => { x with copies := tupd [] x.copies r (fun l => gone.foldl (fun m e => m.erase e) l) })

def execSafeMessageDeliver (conn : Fin 16) (s : State) : Out :=
  let r := conn.val
  match copyPair (tget [] s.net.copies r) with
  | none => .next s
  | some (a, b) =>
    let s1 := dropCopies r [a, b] s
    match safeNet s with
    | none => .next s1
    | some p =>
      let id := rd p (64 + 8 * r) 4
      let off := s1.onNet (fun x => { x with safeOff := inc32 x.safeOff })
      let good := fun (q : Bytes) => q.length == 32 && pduCrc id q == rd q 28 4
      let k : RxConn := tget {} s.safe.rx r
      if !rxOn p r then .next s1
      else if a.pdu ≠ b.pdu then .next (raise 0 0x011 0x05 .notice r [pduSeq a.pdu] off)
      else if !good a.pdu ∨ !seqNewer (pduSeq a.pdu) k.seq then .next off
      else .next (safeDeliver r p (pduSeq a.pdu) (rd a.pdu 16 1) s1)

/-- The oldest copy has waited for longer than SWIN without a partner. -/
def execSafeCopyWindowExpiry (conn : Fin 16) (s : State) : Out :=
  let r := conn.val
  match tget [] s.net.copies r with
  | [] => .next s
  | a :: l =>
    if l.any (fun b => b.port != a.port && pduSeq b.pdu == pduSeq a.pdu) then .next s
    else .next ((dropCopies r [a] s).onNet (fun x => { x with safeOff := inc32 x.safeOff }))

/-- The PDU of send connection `t` (Tables 17.5 and 18.5). -/
def safePdu (s : State) (p : Bytes) (t seq : Nat) : Bytes :=
  let fl := rd p (192 + 8 * t + 6) 1
  let body := le 1 s.power.straps.unitid.toNat ++ le 1 t ++ le 2 0 ++ le 4 seq ++
    le 8 ((tget {} s.time.bases 0 : TimeBase).val / 2 ^ 32) ++ le 1 (b2n (s.safe.sf == .sto && bit fl 1)) ++ le 1 (safeStat s) ++ le 2 0 ++
    leS 4 s.safe.q ++ leS 4 (rampQ s)
  body ++ le 4 (pduCrc (rd p (192 + 8 * t) 4) body)

def execSafeMessageSend (conn : Fin 16) (s : State) : Out :=
  let t := conn.val
  match safeNet s with
  | none => .next s
  | some p =>
    let x : TxConn := tget {} s.safe.tx t
    if !txOn p t then .next s
    else if !(pubCfg s (txPub p t)).on then
      .next (when (!x.bad) (safeEventAt 0x07 t [Config.openCode 0x1507 0])
        (s.onSafe (fun y => { y with tx := tset y.tx t { x with bad := true } })))
    else
      let pdu := safePdu s p t x.seq
      let s1 := s.onSafe (fun y => { y with tx := tset y.tx t ⟨(x.seq + 1) % 2 ^ 32, safeStat s, pdu, false⟩ })
      let gap := (pubCfg s (txPub p t)).tmin
      .next (pubUpd (txPub p t) (fun u => { u with
        stNum := u.stNum + 1, sqNum := 0, vals := [(.octets pdu, true)], sent := true, tries := 0, next := gap, ttl := 2 * gap }) s1)

def execSafeRxWatchdogExpiry (conn : Fin 16) (s : State) : Out :=
  let r := conn.val
  match safeNet s with
  | none => .next s
  | some p =>
    let k : RxConn := tget {} s.safe.rx r
    if !rxOn p r ∨ !k.runs ∨ k.expired then .next s
    else
      let s1 := safeEventAt 0x06 r [] (s.onSafe (fun y => { y with rx := tset y.rx r { k with expired := true } }))
      .next (match rxFlags p r % 4 with
        | 1 => ss1Request 0x20 s1
        | 2 => stoEnter 6 true s1
        | _ => s1)

end Sys2Proof.Machine
end

