-- ==== Sys2Proof/Machine/Spare.lean ====
section
/-! DEFINITION. SPARE commands and the events of spares, wear and junction temperature (chapter 23). -/

namespace Sys2Proof.Machine

open Sys2Proof

/-! ### Which dies hold a kind (Table 23.1) -/

def kindDie (kind die : Nat) : Bool :=
  match kind with
  | 1 => die == 1 || die == 2
  | 2 => die == 1 || die == 2
  | 3 => 4 ≤ die && die < 8
  | 4 => die == 3
  | 5 => die < 8
  | 6 => die == 0
  | 7 => die == 0
  | _ => false

/-! ### SPARE_STATUS (R593, Table 23.9) -/

def resEntry (s : State) (kind die n : Nat) : Bytes :=
  let r := resGet s kind die n
  le 2 n ++ le 1 (resState s kind die n) ++ le 1 r.cause ++ le 2 ((resServes s kind die n).getD 0xFFFF) ++ le 2 0 ++ le 4 r.corr ++ le 4 r.bad

/-- The entry of spare row `n`: serving a row, or still a spare. -/
def rowEntry (n : Nat) (row : Option Nat) : Bytes :=
  le 2 n ++ le 1 (if row.isSome then 2 else 1) ++ le 1 (if row.isSome then 1 else 0) ++ le 2 (row.getD 0xFFFF) ++ le 2 0 ++ le 8 0

/-- The spare rows of a die or of the DRAM: those that serve the rows named, then the others. -/
def rowEntries (rows : List Nat) (spares : Nat) : Bytes :=
  (rows.zipIdx).flatMap (fun e => rowEntry e.2 (some e.1)) ++
    (List.range (spares - rows.length)).flatMap (fun n => rowEntry (rows.length + n) none)

/-- Entries: every physical resource of kinds 1 to 4, the spare rows of kinds 5 and 6, the spare sectors of kind 7. -/
def spareEntries (s : State) (kind die : Nat) : Bytes :=
  match kind with
  | 5 => rowEntries ((s.spare.rows.filter (fun e => e.1 == die)).map (·.2.2.2)) (Config.rowCount 5 die).2
  | 6 => rowEntries (s.spare.ddrRows.map (· / 2)) (Config.rowCount 6 die).2
  | 7 => ((List.range 256).map (· + 4096)).flatMap (resEntry s 7 die)
  | _ => (List.range (physCount kind)).flatMap (resEntry s kind die)

/-- Logical in service, spares left, retired, logical without a physical one. -/
def spareCounts (s : State) (kind die : Nat) : List Nat :=
  let rows := Config.rowCount kind die
  let used := (s.spare.rows.filter (fun e => e.1 == die)).length
  match kind with
  | 5 => [rows.1, rows.2 - used, used, 0]
  | 6 => [rows.1 - s.spare.badBlocks.length, rows.2 - s.spare.ddrRows.length, s.spare.ddrRows.length + s.spare.badBlocks.length, s.spare.badBlocks.length]
  | 7 =>
    let gone := (s.spare.res.filter (fun e => e.1 / 2 ^ 24 == 7 && e.2.st == some 3)).length
    let spares := 256 - (s.spare.res.filter (fun e => e.1 / 2 ^ 24 == 7 && e.1 % 2 ^ 16 ≥ 4096 && e.2.st.isSome)).length
    [4096 - s.spare.given, spares, gone, s.spare.given]
  | _ =>
    let lost := (orphans s kind die).length
    [logCount kind - lost, (sparesLeft s kind die).length,
      ((List.range (physCount kind)).filter (fun n => resState s kind die n == 3)).length, lost]

def execSpareStatus (c : Cmd) (s : State) : Out :=
  let kind := c.u8 0
  let die := c.u8 1
  let g : Gate := {
    opcode := 0x1201, len := c.inl 12, legal := notBoot, fitted := !kindDie kind die || dieOk s die,
    par := kindDie kind die && c.rsv 2 2 && c.u64 4 % 64 == 0 }
  runCmd g c s (fun s =>
    let th : Thermal := tget {} s.spare.thermal die
    okReply (when (c.u64 4 != 0) (putBuf (c.u64 4) (withCrc (spareEntries s kind die))) s)
      ((spareCounts s kind die).flatMap (le 2) ++ le 4 (th.ms / 3600000) ++ le 4 (th.hotMs / 3600000) ++
        leS 2 (tget 0 s.power.temps die) ++ le 2 0 ++ le 4 s.tick.index))

/-! ### SPARE_SWAP (R585, R593) -/

def swapResult (n new st : Nat) : Bytes := le 2 n ++ le 2 new ++ le 1 st ++ le 3 0

/-- Action 0: the physical resource is retired and a spare named for it. -/
def swapOut (g : Gate) (c : Cmd) (kind die n : Nat) (s : State) : Reply :=
  match serving s kind die n with
  | none => ⟨s, .conflict, swapResult 0xFFFF 0xFFFF 3, false⟩
  | some p =>
    if (sparesLeft s kind die).isEmpty ∨ (kind = 4 ∧ !spareIdle s) then ⟨s, .exhausted, swapResult p 0xFFFF (resState s kind die p), false⟩
    else
      let s1 := goPending g c [.unitPool kind] (resKey kind die p) none s
      if kind = 4 then ⟨unitLost n 2 2 s1, .pending, [], false⟩ else ⟨failPooled kind die p 2 s1, .pending, [], true⟩

/-- Action 1: a retired resource enters TESTING and runs its test. -/
def swapBack (g : Gate) (c : Cmd) (kind die n : Nat) (s : State) : Reply :=
  if resState s kind die n ≠ 3 then ⟨s, .conflict, swapResult n 0xFFFF (resState s kind die n), false⟩
  else
    ⟨resUpd kind die n (fun r => { r with st := some 4, cause := 2 }) (goPending g c [.unitPool kind] (resKey kind die n) none s), .pending,
      swapResult n 0xFFFF 4, false⟩

def execSpareSwap (c : Cmd) (s : State) : Out :=
  let kind := c.u8 0
  let die := c.u8 1
  let n := c.u16 2
  let act := c.u8 4
  let g : Gate := {
    opcode := 0x1202, len := c.inl 8, legal := if act = 1 then inStates [.config] else notBoot, fitted := !kindDie kind die || dieOk s die,
    roles := actStby, free := !held s (.unitPool kind), pends := act == 1 || kind == 4,
    par := 1 ≤ kind && kind ≤ 4 && kindDie kind die && act < 2 && c.rsv 5 3 && n < (if act = 0 then logCount kind else physCount kind) }
  runCmd g c s (fun s =>
    if kind = 3 then ⟨s, .conflict, [], false⟩
    else if act = 0 then swapOut g c kind die n s else swapBack g c kind die n s)

/-! ### SPARE_THRESHOLD_SET -/

def execSpareThresholdSet (c : Cmd) (s : State) : Out :=
  let id := c.u8 0
  let n := c.u32 4
  let w := c.u32 8
  let g : Gate := {
    opcode := 0x1203, len := c.inl 12, legal := notBoot,
    par := 1 ≤ id && id ≤ 6 && c.rsv 1 3 && n != 0 && (if id ≤ 4 then 1 ≤ w && w ≤ 2592000 else w == 0) &&
      (id != 6 || (80 ≤ n && n ≤ 120)) }
  runCmd g c s (fun s =>
    okReply (s.onSpare (fun x => { x with thr := tset x.thr id (n, w) })) (le 4 (thrGet s id).1 ++ le 4 (thrGet s id).2))

/-! ### Known-answer tests (R580, R581) -/

/-- An idle tile's test ends; one under test for readmission has its outcome (R585). -/
def execTileKnownAnswerTest (die tile : Nat) (pass : Bool) (s : State) : Out :=
  let x := tileGet s die tile
  if !ctlOk s die ∨ 18 ≤ tile then .next s
  else if testing s 1 (1 + die) tile then .next (readmitEnd 1 (1 + die) tile pass s)
  else if x.item.isSome ∨ x.retired ∨ x.repair then .next s
  else
    let s1 := dieUpd die (fun y => { y with kat := (tile + 1) % 18 }) s
    .next (if pass then s1 else resourceFail 1 (1 + die) tile 0 s1)

/-- The lane whose test is next: one under test for readmission, else in turn, the spare among them. -/
def laneNext (s : State) (d : Nat) : Nat :=
  let turn := tget 0 s.spare.lane d
  match (List.range 9).find? (fun n => testing s 2 (1 + d) n) with
  | some n => n
  | none => (((List.range 9).map (fun i => (turn + i) % 9)).find? (fun n => resState s 2 (1 + d) n != 3)).getD turn

def execLoopLaneKat (die : Nat) (pass : Bool) (s : State) : Out :=
  if !ctlOk s die then .next s
  else
    let n := laneNext s die
    if testing s 2 (1 + die) n then .next (readmitEnd 2 (1 + die) n pass s)
    else
      let s1 := s.onSpare (fun x => { x with lane := tset x.lane die ((n + 1) % 9) })
      .next (if pass then s1 else resourceFail 2 (1 + die) n 0 s1)

/-! ### Failures and spares (R579, R582 to R584) -/

def execResourceFail (kind die phys cause : Nat) (s : State) : Out := .next (resourceFail kind die phys cause s)

def execSpareIn (kind die phys : Nat) (s : State) : Out := .next (spareIn kind die phys s)

/-- At the array's idle period a failing row goes to a spare row, where one is left (Table 23.3). -/
def execSramRowRepair (die block mem row : Nat) (s : State) : Out :=
  let l := s.spare.rows.filter (fun e => e.1 == die && e.2.1 == block && e.2.2.1 == mem)
  if !dieOk s die then .next s
  else if Config.rowLeft 5 [die, block, mem] l.length then
    let s1 := spareEvent 0x01 .notice (resKey 5 die row) [row, l.length, 1]
      (raise die block 0xE3 .notice mem [row] (s.onSpare (fun x => { x with rows := x.rows ++ [(die, block, mem, row)] })))
    .next (capsUpdate (when (!Config.rowLeft 5 [die, block, mem] (l.length + 1)) (spareEvent 0x02 .notice (resKey 5 die row) [5]) s1))
  else .next (lostNote 5 die row row 1 s)

/-- A sector 2^20 writes ahead and the least-written one swap contents and places (R583). -/
def execMramWearLevel (high low : Nat) (s : State) : Out :=
  if 4352 ≤ high ∨ 4352 ≤ low ∨ high = low ∨ resState s 7 0 high = 3 ∨ resState s 7 0 low = 3 then .next s
  else
    let a := tget (high, 0) s.spare.sectors high
    let b := tget (low, 0) s.spare.sectors low
    let st := fun (n : Nat) => resState s 7 0 n
    let place := fun (n v : Nat) (t : State) => resUpd 7 0 n (fun r => { r with st := some v }) t
    let s1 := s.onSpare (fun x => { x with sectors := tset (tset x.sectors high (b.1, hoursNow s)) low (a.1, hoursNow s) })
    .next (if st high = st low then s1 else place low (st high) (place high (st low) s1))

/-- A sector not written for 5 years of operation is rewritten (R583). -/
def execMramRetentionRewrite (sector : Nat) (s : State) : Out :=
  if 4352 ≤ sector then .next s
  else .next (s.onSpare (fun x => { x with sectors := tset x.sectors sector ((tget (sector, 0) x.sectors sector).1, hoursNow s) }))

/-! ### Junction temperature (R41, R586) -/

/-- Three readings at or above T_WARN, then 100 below T_WARN − 5 °C; hours of operation and hours hot. -/
def thermalStep (warn : Int) (q : Int) (x : Thermal) : Thermal :=
  let hot := decide (4 * warn ≤ q)
  let cool := decide (q < 4 * (warn - 5))
  let y : Thermal := { x with
    ms := x.ms + 1, hotMs := if hot then x.hotMs + 1 else x.hotMs, hot := if hot then min (x.hot + 1) 3 else 0,
    cool := if x.high ∧ cool then min (x.cool + 1) 100 else 0 }
  { y with high := if y.high then decide (y.cool < 100) else decide (3 ≤ y.hot) }

def execTempSensorRead (die : Nat) (quarters : Int) (s : State) : Out :=
  if !dieOk s die ∨ s.dev.state = .powerDown then .next s
  else
    let old : Thermal := tget {} s.spare.thermal die
    let new := thermalStep ((thrGet s 6).1 : Int) quarters old
    let trip := decide (500 ≤ quarters)
    let s1 := (s.onPower (fun p => { p with temps := tset p.temps die quarters, thermtrip := p.thermtrip || trip })).onSpare (fun x => { x with
      thermal := tset x.thermal die { new with trip := old.trip || trip } })
    let s2 := when (new.high && !old.high) (spareEvent 0x07 .notice die [word32 quarters]) s1
    let s3 := when (old.high && !new.high) (spareEvent 0x08 .notice die [word32 quarters]) s2
    .next (when (trip && !old.trip) (fatalWith die 0x002 0x08 die [word32 (quarters / 4)]) s3)

end Sys2Proof.Machine
end

