-- ==== Sys2Proof/Machine/Tick.lean ====
section
/-! DEFINITION. The TICK commands, commits and the change of the tick length (chapter 5). -/

namespace Sys2Proof.Machine

open Sys2Proof

/-- The tick length is held by a TICK_CONFIG (R128). -/
def tickHeld (s : State) : Bool := held s .tickLength

/-! ### TICK_CONFIG (R128) -/

/-- Every signal selector that the loop sets and the bindings of ROM kernels, active and shadow, and the ramp name. -/
def selectorsNamed (s : State) : List Nat :=
  (s.loop.cfg ++ s.loop.cfgNew).flatMap (fun e => [e.2.ref, e.2.fb, e.2.ffsrc, e.2.track, e.2.limscale, e.2.sched, e.2.phase]) ++
    ([0, 1].flatMap (fun d => ((dieGet s d).bind ++ (dieGet s d).bindNew).flatMap (fun e => e.2.selectors))) ++
    [s.safe.ramp.tsel] ++ s.safe.rampNew.elim [] (fun k => [k.tsel])

/-- A loop channel numbered 128 or above is configured or named. -/
def highChannel (s : State) : Bool :=
  (s.loop.cfg ++ s.loop.cfgNew).any (fun e => 128 ≤ e.1 % 256 && e.2.shape != 0) ||
    (s.aie.arm ++ s.aie.armNew).any (fun e => 128 ≤ e.2.ref % 256) ||
    (s.pwm.pair ++ s.pwm.pairNew).any (fun e => e.2.src / 16384 == 1 && 128 ≤ e.2.src % 256) ||
    (selectorsNamed s).any (fun x => x / 4096 == 3 && 128 ≤ x % 4096)

/-- Why the new T cannot serve what is configured. -/
def tickConflict (s : State) (t : Nat) : Nat :=
  b2n ((rostered s).any (fun c => slotsOf t ≤ c % 128)) + 2 * b2n ((List.range 12).any (fun a => armCells t < (armCids s a).length)) +
    4 * b2n (t == 1 && highChannel s)

def execTickConfig (c : Cmd) (s : State) : Out :=
  let t := c.u8 0
  let g : Gate := {
    opcode := 0x0201, len := c.inl 4, legal := inStates [.config], roles := actStby, par := (t == 1 || t == 2 || t == 4) && c.rsv 1 3,
    free := !tickHeld s && s.tick.commits.isEmpty }
  runCmd g c s (fun s =>
    let m := tickConflict s t
    if s.dev.paired ∨ m ≠ 0 then ⟨s, .conflict, le 4 (if s.dev.paired then 0 else m) ++ le 8 0, false⟩
    else ⟨goPending g c [.tickLength] t none (s.onTick (fun x => { x with newLen := some t })), .pending, [], true⟩)

/-- The frame number `i` that a port goes on sending at the old T, all HOLD with BLOCKED = 1 (R164). -/
def oldFrame (s : State) (p oldT k i : Nat) : TickFrame :=
  let x := portGet s p
  let g := max 1 (portGroups s p)
  { execTick := BitVec.ofNat 32 (k + 1 + i), execBase := BitVec.ofNat 32 ((s.link.linkTime.toNat + 64000 * oldT * (1 + i)) / 16),
    unitid := s.power.straps.unitid, active := s.dev.role == .active, blocked := true, quiet := x.state == .ranging || x.state == .sleepU,
    port := BitVec.ofNat 5 p, groups := BitVec.ofNat 4 g, tcode := BitVec.ofNat 3 oldT,
    mgmt := List.replicate (mgmtSlots oldT) ⟨0, 0, 0⟩, cmds := List.replicate (16 * g) 0 }

/-- The frames between a change of T and the first frame at the new T: they cover the old-T execution ticks that end no later than the first
execution tick at the new T begins, two new ticks after the change; the frame for the old tick that begins at the change has left already. -/
def oldFrames (oldT newT k : Nat) (s : State) : State :=
  let n := if newT ≤ oldT then 0 else 2 * newT / oldT - 1
  ((allPorts s).filter (fun p => framing (portGet s p))).foldl (fun t p =>
    portUpd p (fun x => { x with oldT := (List.range n).map (oldFrame s p oldT k) }) t) s

/-- What is counted by tick index goes over to the new index (R116, R164). -/
def reTick (k first : Nat) (s : State) : State :=
  let f := fun (x : Nat) => x + first - k
  (s.onAie (fun e => { e with arms := e.arms.map (fun x => (x.1, { x.2 with
    lastDecl := x.2.lastDecl.map f, lastOver := x.2.lastOver.map f, overTick := f x.2.overTick })) })).onLink (fun l => { l with
    firstNew := some first,
    ports := l.ports.map (fun e => (e.1, { e.2 with
      since := f e.2.since, tsTick := f e.2.tsTick, lastWin := if e.2.lastWin = 0 then 0 else f e.2.lastWin, quietTo := f e.2.quietTo,
      shadow := e.2.shadow.map f, flags := [], run := e.2.run.map (fun r => { r with windows := r.windows.map f }) }))
    cells := l.cells.map (fun e => (e.1, { e.2 with rejoin := e.2.rejoin.map f, errs := e.2.errs.map (fun x => (f x.1, x.2)) })) })

/-- Cells whose delays break a limit at the new T (R156, R164). -/
def limitsAgain (s : State) : State :=
  (rostered s).foldl (fun t c =>
    let x := cellGet t c
    match limitBroken t c x.dDown x.dUp with
    | some k => if reachable x then unreachable c k x.dUp (noteLimits c x.dDown x.dUp t) else t
    | none => t) s

/-- The boundary at which an accepted TICK_CONFIG takes effect: a whole multiple of 4 µs. -/
def execTickLengthChange (s : State) : Out :=
  match s.tick.newLen with
  | none => .next s
  | some t =>
    if s.nowUs % 4 ≠ 0 ∨ s.dev.state = .boot ∨ s.dev.state = .powerDown then .next s
    else
      let old := s.tick.len
      let k := s.tick.index
      let first := s.nowUs / t
      let s1 := s.onTick (fun x => { x with len := t, newLen := none, index := first })
      let s2 := raise 0 0x001 0x0C .notice 0 (words64 ((k : Int) - 1) ++ words64 first) (when (old != t) (reTick k first) (oldFrames old t k s1))
      .next (limitsAgain (endPending (fun p => p.opcode == 0x0201) .ok (le 4 0 ++ le 8 first) s2))

/-! ### Commits (R124 to R126) -/

/-- CRC-32C over the staged sets of a mask. -/
def stagedCrc (s : State) (m : BitVec 9) : Word32 := Config.setCrc ((setsOf m).map (fun n => (n, tget [] s.tick.writes n)))

/-- A set whose unit is absent (Table 5.4, R123). -/
def setAbsent (s : State) (n : Nat) : Bool :=
  if n = 5 ∨ n = 6 then !mprOk s else if n = 2 then !anyCtl s && !mprOk s else if n = 8 then false else !anyCtl s

def execTickCommit (c : Cmd) (s : State) : Out :=
  let m := c.u32 8
  let mask := BitVec.ofNat 9 m
  let now := s.tick.index
  let lead := now + leadOf s.tick.len
  let b := if c.u64 0 = 0 then lead else c.u64 0
  let far := decide (10000000 < (b - now) * s.tick.len)
  let near := decide ((b - now) * s.tick.len ≤ 1000)
  let load := mask.getLsbD 3 && (held s (.kernels 0) || held s (.kernels 1))
  let g : Gate := {
    opcode := 0x0202, len := c.inl 12, fitted := !(setsOf mask).any (setAbsent s),
    legal := inStates [.config, .standby, .deblocked, .safeStop, .blockedFault], roles := actStby,
    par := m != 0 && m < 512 && !far,
    free := !tickHeld s && !(setsOf mask).any (setHeld s) && !(setObjs mask).any (held s) && !load, pends := !near }
  runCmd g c s (fun s =>
    let crc := stagedCrc s mask
    if b < lead then ⟨s, .conflict, le 8 lead ++ le 8 now ++ le 4 crc.toNat, false⟩
    else
      let k : Commit := { boundary := b, mask := mask, crc := crc, matched := s.tick.partner.contains (b, m, crc.toNat), c := now }
      let s1 := goPending g c (setObjs mask) b none (s.onTick (fun t => { t with commits := t.commits ++ [k] }))
      ⟨xlSend (.commit b m crc.toNat) s1, .pending, le 8 b ++ le 8 now ++ le 4 crc.toNat, near⟩)

/-- One set moves from shadow to active. -/
def commitSet (n : Nat) (s : State) : State :=
  match n with
  | 0 => commitLoop s
  | 1 => commitArms s
  | 2 => commitPwm s
  | 3 => commitTiles s
  | 4 => commitDisp s
  | 5 => commitMeas s
  | 6 => commitProt s
  | 7 => commitSafeStates s
  | _ => commitNet s

/-- The final response of an armed commit. -/
def commitEnd (k : Commit) (st : Status) (first : Nat) (s : State) : State :=
  endPending (ofCommit k) st (le 8 first ++ le 8 k.c ++ le 4 k.crc.toNat) s

/-- A commit that does not take effect: the sets stay staged (R125, R126). -/
def commitFail (k : Commit) (why : Nat) (s : State) : State :=
  commitEnd k .conflict (k.c + leadOf s.tick.len) (raise 0 0x001 0x0B .contained 0 [k.boundary, k.mask.toNat, why] s)

/-- A commit whose staged sets all keep their CRC: they become active together. One that carries bit 6 starts the protection engine
whether or not anything is staged (R390). -/
def commitNow (k : Commit) (s : State) : State :=
  let moved := setsOf (k.mask &&& (s.tick.staged ||| 0x040#9))
  let s1 := unboundEvents (committedFlows k.mask s) (moved.foldl (fun t n => commitSet n t) s)
  let s2 := s1.onTick (fun t => { t with
    staged := t.staged &&& ~~~k.mask, writes := t.writes.filter (fun e => !k.mask.getLsbD e.1), applied := t.applied ||| k.mask.toNat })
  let s3 := s2.onGalley (fun x => { x with commitMask := x.commitMask ||| k.mask.toNat })
  commitEnd k .ok k.boundary (s3.onRed (fun r => { r with digest := configDigest s3 }))

/-- In a pair that is heard, a commit the partner has not matched does not take effect (R126). -/
def unmatched (s : State) (k : Commit) : Bool := s.dev.paired && !s.red.silent && !k.matched

/-- The boundary of armed commits; `good` has a bit for each set whose CRC still matches. -/
def execCommitApply (good : BitVec 9) (s : State) : Out :=
  let due := s.tick.commits.filter (fun k => k.boundary ≤ s.tick.index)
  let s1 := s.onTick (fun t => { t with
    commits := t.commits.filter (fun k => s.tick.index < k.boundary), partner := t.partner.filter (fun e => s.tick.index < e.1) })
  .next (due.foldl (fun t k =>
    if unmatched s k then commitFail k 1 t else if (k.mask &&& t.tick.staged &&& ~~~good) = 0 then commitNow k t else commitFail k 0 t) s1)

/-- The last boundary before the instant 10 µs before b has been passed (R126): b lies less than 10 µs and one tick ahead. -/
def withdrawDue (t ahead : Nat) : Bool := decide (ahead * t < 10 + t)

/-- 10 µs before b without the partner's matching commit: the commit is withdrawn (R126). -/
def execCommitWithdraw (s : State) : Out :=
  if !s.dev.paired ∨ s.red.silent then .next s
  else
    let out := fun (k : Commit) => !k.matched && withdrawDue s.tick.len (k.boundary - s.tick.index)
    let s1 := s.onTick (fun t => { t with commits := t.commits.filter (fun k => !out k) })
    .next ((s.tick.commits.filter out).foldl (fun t k => commitFail k 1 t) s1)

/-! ### TICK_STATUS -/

def execTickStatus (c : Cmd) (s : State) : Out :=
  let g : Gate := {
    opcode := 0x0203, len := c.inl 12, legal := notBoot, par := c.u64 0 % 64 == 0 && c.u32 8 ≤ 256 }
  runCmd g c s (fun s =>
    let l := if c.u64 0 = 0 then [] else s.tick.ring.take (c.u32 8)
    let armed := s.tick.commits.foldl (fun m k => m ||| k.mask) 0#9
    let next := s.tick.commits.foldl (fun m k => if m = 0 then k.boundary else min m k.boundary) 0
    okReply (putBuf (c.u64 0) (l.flatMap Snapshot.bytes) s)
      (le 8 s.tick.index ++ le 1 s.tick.len ++ le 3 0 ++ le 4 s.tick.staged.toNat ++ le 4 armed.toNat ++ le 8 next ++
        le 4 s.tick.overruns ++ le 4 s.tick.clampAll ++ le 4 l.length))

end Sys2Proof.Machine
end

