-- ==== Sys2Proof/Machine/TileInstr.lean ====
section
/-! DEFINITION. The instructions of the DSP tiles (Tables 11.5 and 11.6). Each row is one tile issuing the word given;
fields are read from the word as Table 11.5 lays them out. -/

namespace Sys2Proof.Machine

open Sys2Proof

/-! ### Format S -/

def execOpNop (die tile : Nat) (word : Word32) (s : State) : Out :=
  .next (issue die tile word 0x00 0x3FFFFFF [] 1 s (fun _ x => .ok x))

/-- END; inside a repeat body it is illegal (R297, R300). -/
def execOpEnd (die tile : Nat) (word : Word32) (s : State) : Out :=
  .next (issueWith die tile word 0x01 0x3FFFFFF [] 1 s
    (fun _ x => if (tileGet s die tile).rep.isSome then .error .illegal else .ok x) (fun i y u => itemEnd die tile i y u))

/-- REP: the next N + 1 instructions run CNT times (R297). -/
def execOpRep (die tile : Nat) (word : Word32) (s : State) : Out :=
  let n := fld word 25 22 + 1
  let creg := fld word 21 21 == 1
  let r := fld word 3 0
  .next (issue die tile word 0x02 0x1F0000 (if creg then [r] else []) 1 s (fun _ x =>
    let cnt := if creg then (x.dr r).toNat % 65536 else fld word 15 0
    if (tileGet s die tile).rep.isSome || (creg && fld word 15 4 != 0) then .error .illegal
    else if !inRegion x.bind.kid (x.pc + n - 1) then .error .illegal
    else if cnt = 0 then .ok { x with pc := x.pc + n }
    else .ok { x with rep := some ⟨x.pc, n, cnt - 1⟩ }))

def execOpBexr (die tile : Nat) (word : Word32) (s : State) : Out :=
  .next (issue die tile word 0x38 0x3FFFFFF [] 1 s (fun _ x => .ok { x with be := 31 }))

/-! ### Format B -/

/-- BR: 3 cycles when taken, 1 when not (R295). -/
def execOpBr (die tile : Nat) (word : Word32) (s : State) : Out :=
  .next (issue die tile word 0x03 0x3FC000 [] 1 s (fun _ x =>
    match tileCond x.st (fld word 25 22) with
    | none => .error .illegal
    | some b =>
      if (tileGet s die tile).rep.isSome then .error .illegal
      else if !inRegion x.bind.kid (fld word 13 0) then .error .access
      else if b then .ok { x with pc := fld word 13 0, cycles := x.cycles + 2 } else .ok x))

/-! ### Format R -/

/-- An ALU operation of two registers. -/
def aluRR (die tile : Nat) (word : Word32) (op : Nat) (s : State) (f : Int → Int → Int) (sat : Bool) : Out :=
  let a := fld word 21 18
  let b := fld word 17 14
  .next (issue die tile word op 0x3FFF [a, b] 1 s (fun _ x =>
    let e := f (x.dr a).toInt (x.dr b).toInt
    let r := if sat then satWord e else wrapWord e
    .ok { x.setD (fld word 25 22) r.1 with st := if sat then stSat x.st r.1 r.2 else stAlu x.st r.1 r.2 }))

/-- A bitwise operation, minimum or maximum: it cannot overflow. -/
def aluBits (die tile : Nat) (word : Word32) (op : Nat) (s : State) (f : Word32 → Word32 → Word32) : Out :=
  let a := fld word 21 18
  let b := fld word 17 14
  .next (issue die tile word op 0x3FFF [a, b] 1 s (fun _ x =>
    let r := f (x.dr a) (x.dr b)
    .ok { x.setD (fld word 25 22) r with st := stAlu x.st r false }))

/-- A saturating operation of one register; B is zero. -/
def aluOne (die tile : Nat) (word : Word32) (op : Nat) (s : State) (f : TileSt → Word32 → Word32 × Bool) : Out :=
  let a := fld word 21 18
  .next (issue die tile word op 0x3FFFF [a] 1 s (fun _ x =>
    let r := f x (x.dr a)
    .ok { x.setD (fld word 25 22) r.1 with st := stSat x.st r.1 r.2 }))

def execOpAdd (die tile : Nat) (word : Word32) (s : State) : Out := aluRR die tile word 0x08 s (· + ·) false

def execOpSub (die tile : Nat) (word : Word32) (s : State) : Out := aluRR die tile word 0x09 s (· - ·) false

def execOpAdds (die tile : Nat) (word : Word32) (s : State) : Out := aluRR die tile word 0x0A s (· + ·) true

def execOpSubs (die tile : Nat) (word : Word32) (s : State) : Out := aluRR die tile word 0x0B s (· - ·) true

def execOpAnd (die tile : Nat) (word : Word32) (s : State) : Out := aluBits die tile word 0x0C s (· &&& ·)

def execOpOr (die tile : Nat) (word : Word32) (s : State) : Out := aluBits die tile word 0x0D s (· ||| ·)

def execOpXor (die tile : Nat) (word : Word32) (s : State) : Out := aluBits die tile word 0x0E s (· ^^^ ·)

def execOpMin (die tile : Nat) (word : Word32) (s : State) : Out :=
  aluBits die tile word 0x0F s (fun a b => if a.toInt ≤ b.toInt then a else b)

def execOpMax (die tile : Nat) (word : Word32) (s : State) : Out :=
  aluBits die tile word 0x10 s (fun a b => if a.toInt ≤ b.toInt then b else a)

def execOpAbs (die tile : Nat) (word : Word32) (s : State) : Out :=
  aluOne die tile word 0x11 s (fun _ a => satWord a.toInt.natAbs)

def execOpNeg (die tile : Nat) (word : Word32) (s : State) : Out := aluOne die tile word 0x12 s (fun _ a => satWord (-a.toInt))

/-- A shift whose count dB[5:0] is 32 to 63 has no result in the spec (Table 11.6 gives n from 0 to 31): its word and its
overflow are free values (assumption 5). -/
def aluShift (die tile : Nat) (word : Word32) (op : Nat) (s : State) (sat : Bool) (f : Int → Nat → Int) : Out :=
  let a := fld word 21 18
  let b := fld word 17 14
  let n := ((tileGet s die tile).dr b).toNat % 64
  let free := s.draw.1
  .next (issueWith die tile word op 0x3FFF [a, b] 1 s (fun _ x =>
    let r := if 31 < n then (BitVec.ofNat 32 free, sat && bit free 32) else satWord (f (x.dr a).toInt n)
    .ok { x.setD (fld word 25 22) r.1 with st := if sat then stSat x.st r.1 r.2 else stAlu x.st r.1 false })
    (fun _ y u => tileUpd die tile (fun _ => y) (if 31 < n then u.draw.2 else u)))

def execOpShl (die tile : Nat) (word : Word32) (s : State) : Out :=
  aluShift die tile word 0x13 s true (fun a n => a * (2 ^ n : Nat))

def execOpShr (die tile : Nat) (word : Word32) (s : State) : Out :=
  aluShift die tile word 0x14 s false (fun a n => a / (2 ^ n : Nat))

/-- CMP sets Z, N and V and writes nothing else. -/
def execOpCmp (die tile : Nat) (word : Word32) (s : State) : Out :=
  let a := fld word 21 18
  let b := fld word 17 14
  .next (issue die tile word 0x15 0x3C03FFF [a, b] 1 s (fun _ x =>
    let r := wrapWord ((x.dr a).toInt - (x.dr b).toInt)
    .ok { x with st := stAlu x.st r.1 r.2 }))

def execOpBexp (die tile : Nat) (word : Word32) (s : State) : Out :=
  let a := fld word 21 18
  .next (issue die tile word 0x39 0x3C3FFFF [a] 1 s (fun _ x =>
    .ok { x with be := BitVec.ofNat 5 (min x.be.toNat (rsb (x.dr a))) }))

def execOpExp (die tile : Nat) (word : Word32) (s : State) : Out :=
  let a := fld word 21 18
  .next (issue die tile word 0x3A 0x3FFFF [a] 1 s (fun _ x =>
    let r := BitVec.ofNat 32 (rsb (x.dr a))
    .ok { x.setD (fld word 25 22) r with st := stAlu x.st r false }))

def execOpBshl (die tile : Nat) (word : Word32) (s : State) : Out :=
  aluOne die tile word 0x3B s (fun x a => satWord (a.toInt * (2 ^ x.be.toNat : Nat)))

/-! ### Format I -/

def execOpAddi (die tile : Nat) (word : Word32) (s : State) : Out :=
  let a := fld word 21 18
  .next (issue die tile word 0x18 0 [a] 1 s (fun _ x =>
    let r := wrapWord ((x.dr a).toInt + fldS word 17 0)
    .ok { x.setD (fld word 25 22) r.1 with st := stAlu x.st r.1 r.2 }))

def execOpLil (die tile : Nat) (word : Word32) (s : State) : Out :=
  .next (issue die tile word 0x19 0x3F0000 [] 1 s (fun _ x => .ok (x.setD (fld word 25 22) (w32 (fldS word 15 0)))))

def execOpLih (die tile : Nat) (word : Word32) (s : State) : Out :=
  let d := fld word 25 22
  .next (issue die tile word 0x1A 0x3F0000 [d] 1 s (fun _ x =>
    .ok (x.setD d (word.extractLsb' 0 16 ++ (x.dr d).extractLsb' 0 16))))

/-- D 0 to 7 is a pointer, 8 to 15 a modifier. -/
def setPtr (x : TileSt) (d : Nat) (v : Word16) : TileSt :=
  if d < 8 then { x with p := tset x.p d v } else { x with m := tset x.m (d - 8) v }

def execOpMvpi (die tile : Nat) (word : Word32) (s : State) : Out :=
  .next (issue die tile word 0x1C 0x3C0000 [] 1 s (fun _ x => .ok (setPtr x (fld word 25 22) (word.extractLsb' 0 16))))

def execOpMvpd (die tile : Nat) (word : Word32) (s : State) : Out :=
  let a := fld word 21 18
  .next (issue die tile word 0x1D 0x3FFFF [a] 1 s (fun _ x =>
    .ok (setPtr x (fld word 25 22) ((x.dr a).extractLsb' 0 16))))

/-- MVC: D 0 to 7, and a length of 0 or a power of two from 8 to 4,096; any other field value makes the word illegal. -/
def execOpMvc (die tile : Nat) (word : Word32) (s : State) : Out :=
  let d := fld word 25 22
  let v := fld word 15 0
  .next (issue die tile word 0x1E 0x3F0000 [] 1 s (fun _ x =>
    if d < 8 ∧ (v = 0 ∨ [8, 16, 32, 64, 128, 256, 512, 1024, 2048, 4096].contains v) then
      .ok { x with c := tset x.c d (BitVec.ofNat 16 v) }
    else .error .illegal))

/-! ### Format M -/

/-- The address of a memory instruction and the tile with its pointer moved (R291). -/
def memAddr (word : Word32) (x : TileSt) : Except TFault (Nat × TileSt) :=
  let p := fld word 21 19
  let mode := fld word 18 17
  if mode ≠ 2 ∧ fld word 15 8 ≠ 0 then .error .illegal
  else match tileAddr mode (x.pr p) (x.mr p) (x.cr p) (fldS word 15 8) with
    | none => .error .access
    | some (a, q) => .ok (a, { x with p := tset x.p p q })

def execOpLd (die tile : Nat) (word : Word32) (s : State) : Out :=
  let d := fld word 25 22
  .next (issue die tile word 0x20 0xFF [] 1 s (fun i x =>
    match memAddr word x with
    | .error f => .error f
    | .ok (a, y) =>
      match spaceRead s die x i (fld word 16 16 == 1) a with
      | none => .error .access
      | some v => .ok { y.setD d v with loaded := [d] }))

def execOpSt (die tile : Nat) (word : Word32) (s : State) : Out :=
  let d := fld word 25 22
  .next (issue die tile word 0x21 0xFF [d] 1 s (fun _ x =>
    match memAddr word x with
    | .error f => .error f
    | .ok (a, y) =>
      match spaceWrite y (fld word 16 16 == 1) a (x.dr d) with
      | none => .error .access
      | some z => .ok z))

/-! ### Format A -/

/-- The product of two registers into an accumulator: 0 written, 1 added, 2 subtracted (R288). -/
def accProduct (kind acc : Nat) (a b : Word32) (x : TileSt) : TileSt :=
  let p := a.toInt * b.toInt
  let v := accWrap (if kind = 0 then p else if kind = 1 then (x.ar acc).toInt + p else (x.ar acc).toInt - p)
  { x with acc := tset x.acc acc v.1, st := stSticky x.st 6 v.2 }

def accOp (die tile : Nat) (word : Word32) (op : Nat) (zero : Word32) (kind : Nat) (s : State) : Out :=
  let a := fld word 19 16
  let b := fld word 15 12
  .next (issue die tile word op zero [a, b] 1 s (fun _ x => .ok (accProduct kind (fld word 25 24) (x.dr a) (x.dr b) x)))

def execOpMpy (die tile : Nat) (word : Word32) (s : State) : Out := accOp die tile word 0x28 0xF00FFF 0 s

def execOpMac (die tile : Nat) (word : Word32) (s : State) : Out := accOp die tile word 0x29 0xF 1 s

def execOpMsu (die tile : Nat) (word : Word32) (s : State) : Out := accOp die tile word 0x2A 0xF 2 s

/-- A store of an accumulator: a saturation sets SAT and V (R289). -/
def accStore (die tile : Nat) (word : Word32) (op : Nat) (zero : Word32) (lim : Nat) (s : State)
    (f : BitVec 80 → Nat → Word32 × Bool) : Out :=
  let sh := fld word 11 6
  .next (issue die tile word op zero [] 1 s (fun _ x =>
    if lim < sh then .error .illegal
    else
      let r := f (x.ar (fld word 25 24)) sh
      .ok { x.setD (fld word 23 20) r.1 with st := if r.2 then stSet (stSet x.st 5 true) 3 true else x.st }))

def execOpSta (die tile : Nat) (word : Word32) (s : State) : Out := accStore die tile word 0x2B 0xFF03F 48 s staWord

def execOpStb (die tile : Nat) (word : Word32) (s : State) : Out := accStore die tile word 0x3C 0xF 63 s stbWord

def execOpLda (die tile : Nat) (word : Word32) (s : State) : Out :=
  let sh := fld word 11 6
  let d := fld word 23 20
  .next (issue die tile word 0x2C 0xFF03F [d] 1 s (fun _ x =>
    if 48 < sh then .error .illegal
    else .ok { x with acc := tset x.acc (fld word 25 24) (BitVec.ofInt 80 ((x.dr d).toInt * (2 ^ sh : Nat))) }))

def execOpMva (die tile : Nat) (word : Word32) (s : State) : Out :=
  let part := fld word 5 4
  .next (issue die tile word 0x2D 0xF [] 1 s (fun _ x =>
    let a := x.ar (fld word 25 24)
    if part = 3 then .error .illegal
    else
      let v : Word32 := if part = 0 then a.extractLsb' 0 32 else if part = 1 then a.extractLsb' 32 32
        else (a.extractLsb' 64 16).signExtend 32
      .ok (x.setD (fld word 23 20) v)))

/-! ### Format X -/

/-- Product with parallel loads from X and Y (R296). Where both pointers are one, the spec does not say what it holds
afterwards: a free value (assumption 5). -/
def xyOp (die tile : Nat) (word : Word32) (op kind : Nat) (s : State) : Out :=
  let xd := fld word 23 21
  let yd := 8 + fld word 20 18
  let xp := fld word 17 15
  let yp := fld word 14 12
  let free := s.draw.1
  .next (issueWith die tile word op 0x3FF [xd, yd] 1 s (fun i x =>
    match tileAddr (fld word 11 11) (x.pr xp) (x.mr xp) (x.cr xp) 0, tileAddr (fld word 10 10) (x.pr yp) (x.mr yp) (x.cr yp) 0 with
    | some (ax, px), some (ay, py) =>
      match xRead s die x i ax, yRead s die x ay with
      | some vx, some vy =>
        let y := accProduct kind (fld word 25 24) (x.dr xd) (x.dr yd) x
        let p := if xp = yp then tset y.p xp (BitVec.ofNat 16 free) else tset (tset y.p xp px) yp py
        .ok { (y.setD xd vx).setD yd vy with p := p, loaded := [xd, yd] }
      | _, _ => .error .access
    | _, _ => .error .access)
    (fun _ y u => tileUpd die tile (fun _ => y) (if xp = yp then u.draw.2 else u)))

def execOpMpyxy (die tile : Nat) (word : Word32) (s : State) : Out := xyOp die tile word 0x30 0 s

def execOpMacxy (die tile : Nat) (word : Word32) (s : State) : Out := xyOp die tile word 0x31 1 s

def execOpMsuxy (die tile : Nat) (word : Word32) (s : State) : Out := xyOp die tile word 0x32 2 s

/-! ### Format G -/

/-- GETS sets INV, Z and N (R299). -/
def execOpGets (die tile : Nat) (word : Word32) (s : State) : Out :=
  .next (issue die tile word 0x3E 0x3F0000 [] 8 s (fun i x =>
    match gets s die i (fld word 15 0) with
    | .error f => .error f
    | .ok (v, ok) =>
      let r := w32 v
      .ok { x.setD (fld word 25 22) r with st := stSet (stSet (stSet x.st 1 (r == 0)) 2 r.msb) 4 (!ok) }))

/-- PUT buffers the value for an owned port; the last one counts (R300). -/
def execOpPut (die tile : Nat) (word : Word32) (s : State) : Out :=
  let d := fld word 25 22
  let duty := fld word 21 21 == 1
  let port := fld word 15 0
  .next (issue die tile word 0x3F 0x1F0000 [d] 2 s (fun _ x =>
    if putOk x.bind duty port then
      .ok { x with puts := x.puts.filter (fun p => !(p.duty == duty && p.port == port)) ++ [⟨duty, port, (x.dr d).toInt⟩] }
    else .error .access))

/-! ### An opcode that Table 11.6 does not list -/

/-- The opcodes of Table 11.6. -/
def tileOpcodes : List Nat :=
  [0x00, 0x01, 0x02, 0x03, 0x08, 0x09, 0x0A, 0x0B, 0x0C, 0x0D, 0x0E, 0x0F, 0x10, 0x11, 0x12, 0x13, 0x14, 0x15, 0x18, 0x19,
   0x1A, 0x1C, 0x1D, 0x1E, 0x20, 0x21, 0x28, 0x29, 0x2A, 0x2B, 0x2C, 0x2D, 0x30, 0x31, 0x32, 0x38, 0x39, 0x3A, 0x3B, 0x3C,
   0x3E, 0x3F]

/-- The work item is aborted as a contained fault (R294, Table 11.10). -/
def execIllegalInstruction (die tile : Nat) (word : Word32) (s : State) : Out :=
  if tileOpcodes.contains (fld word 31 26) then .next s
  else .next (issue die tile word (fld word 31 26) 0 [] 1 s (fun _ _ => .error .illegal))

end Sys2Proof.Machine
end

