-- ==== Sys2Proof/Machine/Time.lean ====
section
/-! DEFINITION. The TIME commands but for PTP (Table 16.9), the direct registers of the time window, and the time-base
unit's own events (chapter 16). -/

namespace Sys2Proof.Machine

open Sys2Proof

/-! ### Commands -/

/-- A set or step of station time, by `d` in 2^-32 ns (R426). The next pulse is a first pulse, but while the discipline refuses a step, which
ends only as R424 says. -/
def baseSet (c : Cmd) (d : Int) (s : State) : Reply :=
  let t := s.time
  let whole := d % (secUnits : Nat) == 0
  let any := t.qual == .unset || t.qual == .restored
  let big := decide ((t.cfg.stepMax * 2 ^ 32 : Nat) < (d.natAbs : Int))
  if !any && t.cfg.mode && !whole then ⟨s, .conflict, [], false⟩
  else if !any && big && !bit (c.u8 1) 1 then ⟨s, .jumpRefused, [], false⟩
  else
    let s1 := stepTime d 0 (s.onTime (fun x => { x with first := x.first || (x.cfg.mode && x.dstate != .refusing) }))
    let s2 := if t.dstate = .locked then s1
      else setQual .free (c.u32 16) (s1.onTime (fun x => { x with b0 := c.u32 16, bSecs := 0 }))
    okReply s2 (leS 8 (roundDiv d (2 ^ 32)) ++ (stationNow s2).bytes)

def execTimeBaseSet (c : Cmd) (s : State) : Out :=
  let b := c.u8 0
  let rel := bit (c.u8 1) 0
  let leapS := c.s8 6
  let d : Int := if rel then rdS c.params 4 8 * (2 ^ 32 : Nat) else ((c.stamp 4).val : Int) - ((base s 0).val : Int)
  let g : Gate := {
    opcode := 0x0C01, len := c.inl 20, legal := notBoot,
    par := (b == 0 || b == 4) && c.u8 1 < 4 && c.rsv 2 2 &&
      c.u32 16 ≤ 4000000000 && (if b = 0 then (if rel then c.rsv 12 4 && 0 ≤ (base s 0).val + d else c.stampOk 4)
      else decide (-1 ≤ leapS ∧ leapS ≤ 1) && c.rsv 7 1 && c.rsv 14 2) }
  runCmd g c s (fun s =>
    if b = 0 then baseSet c d s
    else
      let off := c.s16 4
      let s1 := s.onTime (fun t => { t with
        taiUtc := off, utcValid := true, leap := if leapS = 0 then none else some (leapS, rd c.params 8 6) })
      let s2 := if off = s.time.taiUtc then s1 else timeEvent 0x07 [word32 off] s1
      okReply s2 (le 8 0 ++ (stationNow s2).bytes))

def execTimeDisciplineConfig (c : Cmd) (s : State) : Out :=
  let on := c.u8 0 == 1
  let k : DiscCfg := {
    mode := on, falling := bit (c.u8 1) 1, linkTrack := bit (c.u8 1) 2, tc := c.u16 2, stepMax := c.u32 4, lockWin := c.u32 8,
    holdRate := c.u32 12, accLim := c.u32 16, ppsComp := c.s32 20 }
  let g : Gate := {
    opcode := 0x0C02, len := c.inl 24, legal := notBoot,
    par := c.u8 0 < 2 && c.u8 1 < 8 && 8 ≤ k.tc && k.tc ≤ 1024 && 100 ≤ k.stepMax && k.stepMax ≤ 999999999 && 10 ≤ k.lockWin &&
      k.lockWin ≤ 100000 && 1 ≤ k.holdRate && k.holdRate ≤ 100000 && 100 ≤ k.accLim && k.accLim ≤ 1000000 && k.ppsComp.natAbs ≤ 100000 }
  runCmd g c s (fun s =>
    if on ∧ timeUnset s then ⟨s, .conflict, [], false⟩
    else
      let s1 := s.onTime (fun t => { t with cfg := k })
      let s2 : State :=
        if on ∧ s.time.dstate = .off ∧ !followsTime s then
          s1.onTime (fun t => { t with
            dstate := .acquire, first := true, accept := false, servoI := 0, servoY := 0, ys := [], inWin := 0, outWin := 0, outs := [],
            goodRun := 0, theta := none })
        else if !on then
          when (s.time.dstate == .refusing) (timeEvent 0x03 [word32 (theta8 s.time.lastTheta), Config.openCode 0x1003 3])
            (s1.onTime (fun t => { t with dstate := .off, first := false, accept := false, refused := false, theta := none }))
        else s1
      let s3 := if bit (c.u8 1) 0 ∧ s2.time.dstate = .refusing then s2.onTime (fun t => { t with first := true, accept := true }) else s2
      let s4 := if s3.time.dstate = .locked then s3 else requal s3
      okReply s4 (le 1 s4.time.dstate.code ++ le 1 s4.time.qual.code))

/-- The period of an output in ns (R430, R431). -/
def outPeriod (out rate : Nat) : Nat := if out = 4 then 1000000000 else 1000000000 / 10 ^ rate

def execTimeOutputConfig (c : Cmd) (s : State) : Out :=
  let o := c.u8 0
  let f := c.u8 1
  let k : TOutCfg := {
    on := bit f 0, invert := bit f 1, runFree := bit f 2, suppress := bit f 3, rate := c.u8 2, width := c.u32 4, offset := c.s32 8,
    localMin := c.s16 12 }
  let g : Gate := {
    opcode := 0x0C04, len := c.inl 16, legal := notBoot,
    par := o < 5 && f < 16 && (if o = 4 then 4 ≤ k.rate && k.rate ≤ 7 else k.rate < 4) && 100 ≤ k.width &&
      k.width ≤ outPeriod o k.rate / 2 && k.offset.natAbs ≤ 1000000 && decide (-720 ≤ k.localMin ∧ k.localMin ≤ 840) &&
      k.localMin % 15 == 0 && c.rsv 3 1 && c.rsv 14 2 }
  runCmd g c s (fun s =>
    okReply (s.onTime (fun t => { t with outs16 := tset t.outs16 o k, pulse := if k.on then t.pulse else t.pulse.filter (· != o) }))
      (le 4 (outPeriod o k.rate)))

def execTimeStampConfig (c : Cmd) (s : State) : Out :=
  let i := c.u8 0
  let f := c.u8 1
  let k : StampCfg := { on := bit f 0, rise := bit f 1, fall := bit f 2, filter := c.u16 2, comp := c.s32 4 }
  let g : Gate := {
    opcode := 0x0C05, len := c.inl 8, legal := notBoot,
    par := i < 32 && f < 8 && k.filter ≤ 1000 && k.comp.natAbs ≤ 100000 }
  runCmd g c s (fun s => okReply (s.onTime (fun t => { t with stampCfg := tset t.stampCfg i k })) (le 2 s.time.stamps.length))

/-- Masks of the ports whose PTP instance is in a state: 2 MASTER, 3 PASSIVE. -/
def ptpMask (s : State) (st : Nat) : Nat := maskOf ((List.range 4).filter (fun p => (tget {} s.net.ptp p : PtpPort).state == st))

def execTimeStatus (c : Cmd) (s : State) : Out :=
  let a := c.u64 4
  let g : Gate := {
    opcode := 0x0C06, len := c.inl 12, legal := notBoot, par := c.u8 0 < 2 && c.rsv 1 3 && a % 64 == 0 }
  runCmd g c s (fun s =>
    let t := s.time
    let move := c.u8 0 == 1 && a != 0
    let n := if move then min 1024 t.stamps.length else 0
    let s1 := if move then
        putBuf a (withCrc ((t.stamps.take n).flatMap TsEntry.bytes)) (s.onTime (fun x => { x with stamps := x.stamps.drop n }))
      else s
    okReply s1 (le 1 t.qual.code ++ le 1 t.dstate.code ++ le 2 (timeStat s / 2 ^ 12) ++ le 8 t.bound ++ leS 4 (theta8 t.lastTheta) ++
      leS 4 (roundDiv t.servoY (2 ^ 1074)) ++ leS 2 t.taiUtc ++ le 1 (ptpMask s 2 + 16 * ptpMask s 3) ++ le 1 0 ++
      le 2 s1.time.stamps.length ++ le 2 n ++ le 4 t.refusals ++ le 8 t.offSecs))

/-! ### Direct registers (R420) -/

def execTbTimeLatchRead (n : Fin 4) (s : State) : Out :=
  .next (when (barOn s) (fun u => u.onTime (fun t => { t with latch := tset t.latch n (stampOf (base s n).val) })) s)

def execTbIncApply (n : Fin 4) (value : Word32) (s : State) : Out := .next (when (barOn s) (tbIncWrite n.val value) s)

def execTsPop (s : State) : Out :=
  .next (when (barOn s) (fun u => u.onTime (fun t => { t with tsLatch := t.stamps.head?, stamps := t.stamps.drop 1 })) s)

/-! ### The discipline (R422 to R425) -/

/-- An edge on PPS_IN, `dt` in 125 ps after the last tick boundary. -/
def execPpsInEdge (rising : Bool) (dt : Nat) (s : State) : Out :=
  if rising = s.time.cfg.falling ∨ !s.time.started then .next s
  else
    let s1 := if s.time.ppsOk then s else timeEvent 0x04 [] (s.onTime (fun t => { t with ppsOk := true }))
    if !s.time.cfg.mode then .next s1
    else
      let at8 : Int := (stationAt s (dt * 2 ^ 29 : Nat) / 2 ^ 29 : Nat) - 8 * s.time.cfg.ppsComp
      let sec8 : Int := (8000000000 : Nat)
      let th := at8 - roundDiv at8 8000000000 * sec8
      .next (s1.onTime (fun t => { t with theta := some th, lastTheta := th }))

/-- Three outliers in a row agree within 100 ns (R424). -/
def agree3 (l : List Int) : Bool :=
  match l with
  | [a, b, c] => (a - b).natAbs ≤ 800 && (b - c).natAbs ≤ 800 && (a - c).natAbs ≤ 800
  | _ => false

/-- The decision on an offset, 10 ms after its edge. -/
def execDisciplineDecision (s : State) : Out :=
  match s.time.theta with
  | none => .next s
  | some th =>
    let s0 := s.onTime (fun t => { t with theta := none })
    let t := s.time
    if !t.cfg.mode then .next s0
    else if t.first then
      let s1 := if t.accept then timeEvent 0x03 [word32 (theta8 th), Config.openCode 0x1003 2] (s0.onTime (fun x => { x with refused := false })) else s0
      if 8 * t.cfg.lockWin < th.natAbs then
        .next (servo th 0 (stepTime (-(th * (2 ^ 29 : Nat))) (if t.accept then 2 else 1) s1))
      else .next (servo th th s1)
    else if 8 * t.cfg.stepMax < th.natAbs then
      let outs := (th :: t.outs).take 3
      let s1 := s0.onTime (fun x => { x with outs := outs, goodRun := 0, inWin := 0, discarded := inc32 x.discarded })
      if t.dstate ≠ .refusing ∧ agree3 outs then
        let s2 := s1.onTime (fun x => { x with dstate := .refusing, refused := true, refusals := inc32 x.refusals, inWin := 0, outWin := 0 })
        .next (requal (freezeInc (timeEvent 0x03 [word32 (theta8 th), Config.openCode 0x1003 0] s2)))
      else .next s1
    else if t.dstate = .refusing then
      let n := t.goodRun + 1
      let s1 := s0.onTime (fun x => { x with outs := [], goodRun := n })
      if n < 3 then .next s1
      else
        .next (timeEvent 0x03 [word32 (theta8 th), Config.openCode 0x1003 1]
          (s1.onTime (fun x => { x with dstate := .acquire, refused := false, goodRun := 0 })))
    else .next (servo th th s0)

/-- No PPS_IN edge for 1.5 s. -/
def execPpsLoss (s : State) : Out :=
  if !s.time.ppsOk then .next s
  else
    let s1 := timeEvent 0x04 [] (s.onTime (fun t => { t with ppsOk := false }))
    if s.time.dstate = .acquire ∨ s.time.dstate = .locked then
      .next (requal (freezeInc (s1.onTime (fun t => { t with dstate := .holdover, inWin := 0, outWin := 0 }))))
    else .next s1

/-- The link tracker's millisecond, in which `dclk` DCLK cycles were counted (R418); a ratio beyond the range of INC (R417) changes nothing. -/
def execLinkTrackUpdate (dclk : Nat) (s : State) : Out :=
  if !s.time.cfg.linkTrack ∨ !s.time.started then .next s
  else if !s.power.straps.trefsel then .next (baseUpd 2 (fun b => { b with inc := 0x200000000 }) s)
  else
    let inc := (roundDiv ((dclk * 8 * 2 ^ 32 : Nat) : Int) 2500000).toNat
    .next (when (0x1FFF2E48F ≤ inc && inc ≤ 0x2000D1B71) (baseUpd 2 (fun b => { b with inc := inc })) s)

/-- Each second of station time (R421). -/
def execErrorBoundUpdate (s : State) : Out :=
  if timeUnset s then .next s else .next (requal (s.onTime (fun t => { t with bSecs := t.bSecs + 1 })))

/-- The TAI second of an announced leap has come (R428). -/
def execLeapSecond (s : State) : Out :=
  match s.time.leap with
  | none => .next s
  | some (d, _) =>
    .next (timeEvent 0x07 [word32 (s.time.taiUtc + d)] (s.onTime (fun t => { t with taiUtc := t.taiUtc + d, leap := none })))

/-! ### Outputs (R430, R431) -/

/-- The output may show time (R430, R431). -/
def outMay (s : State) (o : Nat) : Bool :=
  let k := (tget {} s.time.outs16 o : TOutCfg)
  k.on && (!timeUnset s || k.runFree) && !(k.suppress && s.time.qual == .holdoverOut)

/-- The level of PPS_OUT at the ball: INVERT turns it, and it is inactive while the output may not show time (R430). -/
def ppsLevel (s : State) (o : Nat) : Bool := (s.time.pulse.contains o && outMay s o) != (tget {} s.time.outs16 o : TOutCfg).invert

/-- The station time in ns of edge number `k` of an output: k periods plus OFFSET (R430, R431). -/
def edgeAt (s : State) (o k : Nat) : Nat :=
  let c := (tget {} s.time.outs16 o : TOutCfg)
  ((k * outPeriod o c.rate : Nat) + c.offset).toNat

/-- The instant of pulse number `k` (its multiple of 1/RATE s) is reached; an instant already served is not repeated (R435). -/
def execPpsOutPulse (out : Fin 4) (k : Nat) (s : State) : Out :=
  if !outMay s out ∨ edgeAt s out k < tget 0 s.time.servedN out then .next s
  else .next (s.onTime (fun t => { t with pulse := out.val :: t.pulse.filter (· != out.val), servedN := tset t.servedN out (edgeAt s out k + 1) }))

def execPpsOutPulseEnd (out : Fin 4) (s : State) : Out :=
  .next (s.onTime (fun t => { t with pulse := t.pulse.filter (· != out.val) }))

/-- TAI−UTC, the announced leap and its sign as a frame of second `sec` carries them: a leap due by then has happened (R428, R435). -/
def leapView (s : State) (sec : Nat) : Int × Bool × Bool :=
  match s.time.leap with
  | some (d, at_) => if at_ ≤ sec then (s.time.taiUtc + d, false, false) else (s.time.taiUtc, true, d < 0)
  | none => (s.time.taiUtc, false, false)

/-- An IRIG-B frame starts on whole second `sec` of station time. -/
def execIrigbFrame (sec : Nat) (s : State) : Out :=
  if !outMay s 4 ∨ edgeAt s 4 sec < tget 0 s.time.servedN 4 then .next s
  else
    let k := (tget {} s.time.outs16 4 : TOutCfg)
    let v := leapView s sec
    .next (s.onTime (fun t => { t with
      irig := some {
        utc := sec - (if t.utcValid then v.1 else 0) + k.localMin * 60, valid := t.utcValid, tmq := tmqCode s, leap := v.2.1, sub := v.2.2,
        format := k.rate },
      servedN := tset t.servedN 4 (edgeAt s 4 sec + 1) }))

/-! ### Edge stamping (R432) -/

/-- An edge on TS_IN, `dt` in 125 ps after the last tick boundary; `held` whether the level held for FILTER. -/
def execTsInEdge (input : Fin 32) (rising : Bool) (dt : Nat) (held : Bool) (s : State) : Out :=
  let k := (tget {} s.time.stampCfg input : StampCfg)
  if !k.on ∨ !(if rising then k.rise else k.fall) ∨ !s.time.started then .next s
  else if !held ∧ k.filter ≠ 0 then
    .next (s.onTime (fun t => { t with ignored := tupd 0 t.ignored input (fun n => inc32 n) }))
  else
    let v := (((stationAt s (dt * 2 ^ 29 : Nat) / 2 ^ 29 : Nat) : Int) - 8 * k.comp).toNat * 2 ^ 29
    .next (stampAdd { time := stampOf v, input := input, rise := rising, lost := false } s)

/-- A whole second of station time while it is set: the AON domain loads its holdover counter (R427). Once the crystal is lost the counter
stays invalid, to be seen at the next boot (R62). -/
def execHoldoverLoad (sec : Nat) (s : State) : Out :=
  if timeUnset s ∨ s.power.refLost.contains 4 then .next s
  else .next (s.onPower (fun p => { p with holdValid := true, holdCount := 0, holdBase := { sec := sec } }))

end Sys2Proof.Machine
end

