-- ==== Sys2Proof/Machine/Dispatch.lean ====
section
/-! DEFINITION. One arm per command of the block (spec/opcode_table.json). -/

namespace Sys2Proof.Machine

open Sys2Proof

/-- The effect of a command on everything but the queue of waiting commands. -/
def exec (i : Instr) (s : State) : Host.Outcome State Fault Refusal :=
  match i with
  | .sysCaps c => Sys2Proof.Machine.execSysCaps c s
  | .sysStateGet c => Sys2Proof.Machine.execSysStateGet c s
  | .sysStateRequest c => Sys2Proof.Machine.execSysStateRequest c s
  | .sysBlockClear c => Sys2Proof.Machine.execSysBlockClear c s
  | .sysReset c => Sys2Proof.Machine.execSysReset c s
  | .sysLogRead c => Sys2Proof.Machine.execSysLogRead c s
  | .sysNop c => Sys2Proof.Machine.execSysNop c s
  | .testEnter c => Sys2Proof.Machine.execTestEnter c s
  | .tickConfig c => Sys2Proof.Machine.execTickConfig c s
  | .tickCommit c => Sys2Proof.Machine.execTickCommit c s
  | .tickStatus c => Sys2Proof.Machine.execTickStatus c s
  | .cellPortUp c => Sys2Proof.Machine.execCellPortUp c s
  | .cellPortDown c => Sys2Proof.Machine.execCellPortDown c s
  | .cellRangeRead c => Sys2Proof.Machine.execCellRangeRead c s
  | .cellPortRemap c => Sys2Proof.Machine.execCellPortRemap c s
  | .cellRosterLoad c => Sys2Proof.Machine.execCellRosterLoad c s
  | .cellRosterRead c => Sys2Proof.Machine.execCellRosterRead c s
  | .cellHealthSet c => Sys2Proof.Machine.execCellHealthSet c s
  | .cellContextRead c => Sys2Proof.Machine.execCellContextRead c s
  | .cellSafeStateSet c => Sys2Proof.Machine.execCellSafeStateSet c s
  | .aieArmConfig c => Sys2Proof.Machine.execAieArmConfig c s
  | .aieSelectParams c => Sys2Proof.Machine.execAieSelectParams c s
  | .aieDerateConfig c => Sys2Proof.Machine.execAieDerateConfig c s
  | .aieWearRead c => Sys2Proof.Machine.execAieWearRead c s
  | .aieArmStatus c => Sys2Proof.Machine.execAieArmStatus c s
  | .pwmArmConfig c => Sys2Proof.Machine.execPwmArmConfig c s
  | .pwmPairConfig c => Sys2Proof.Machine.execPwmPairConfig c s
  | .pwmTripConfig c => Sys2Proof.Machine.execPwmTripConfig c s
  | .pwmTripClear c => Sys2Proof.Machine.execPwmTripClear c s
  | .pwmStatus c => Sys2Proof.Machine.execPwmStatus c s
  | .loopChannelConfig c => Sys2Proof.Machine.execLoopChannelConfig c s
  | .loopCoeffLoad c => Sys2Proof.Machine.execLoopCoeffLoad c s
  | .loopTableLoad c => Sys2Proof.Machine.execLoopTableLoad c s
  | .loopScheduleConfig c => Sys2Proof.Machine.execLoopScheduleConfig c s
  | .loopRepetitiveConfig c => Sys2Proof.Machine.execLoopRepetitiveConfig c s
  | .loopSupervisorConfig c => Sys2Proof.Machine.execLoopSupervisorConfig c s
  | .loopStatus c => Sys2Proof.Machine.execLoopStatus c s
  | .tileKernelLoad c => Sys2Proof.Machine.execTileKernelLoad c s
  | .tileKernelBind c => Sys2Proof.Machine.execTileKernelBind c s
  | .tileRomList c => Sys2Proof.Machine.execTileRomList c s
  | .tileStatus c => Sys2Proof.Machine.execTileStatus c s
  | .dispFlowConfig c => Sys2Proof.Machine.execDispFlowConfig c s
  | .dispClassConfig c => Sys2Proof.Machine.execDispClassConfig c s
  | .dispCancel c => Sys2Proof.Machine.execDispCancel c s
  | .dispStatsRead c => Sys2Proof.Machine.execDispStatsRead c s
  | .measChannelConfig c => Sys2Proof.Machine.execMeasChannelConfig c s
  | .measSequenceConfig c => Sys2Proof.Machine.execMeasSequenceConfig c s
  | .measFilterConfig c => Sys2Proof.Machine.execMeasFilterConfig c s
  | .measRefSelect c => Sys2Proof.Machine.execMeasRefSelect c s
  | .measCalibrate c => Sys2Proof.Machine.execMeasCalibrate c s
  | .measDiagRun c => Sys2Proof.Machine.execMeasDiagRun c s
  | .measStatus c => Sys2Proof.Machine.execMeasStatus c s
  | .acqChannelConfig c => Sys2Proof.Machine.execAcqChannelConfig c s
  | .acqTriggerConfig c => Sys2Proof.Machine.execAcqTriggerConfig c s
  | .acqArm c => Sys2Proof.Machine.execAcqArm c s
  | .acqSegmentRead c => Sys2Proof.Machine.execAcqSegmentRead c s
  | .acqLocate c => Sys2Proof.Machine.execAcqLocate c s
  | .protElementConfig c => Sys2Proof.Machine.execProtElementConfig c s
  | .protCurveLoad c => Sys2Proof.Machine.execProtCurveLoad c s
  | .protTripMap c => Sys2Proof.Machine.execProtTripMap c s
  | .protTripReset c => Sys2Proof.Machine.execProtTripReset c s
  | .protRecordConfig c => Sys2Proof.Machine.execProtRecordConfig c s
  | .protRecordExport c => Sys2Proof.Machine.execProtRecordExport c s
  | .protStatus c => Sys2Proof.Machine.execProtStatus c s
  | .timeBaseSet c => Sys2Proof.Machine.execTimeBaseSet c s
  | .timeDisciplineConfig c => Sys2Proof.Machine.execTimeDisciplineConfig c s
  | .timePtpConfig c => Sys2Proof.Machine.execTimePtpConfig c s
  | .timeOutputConfig c => Sys2Proof.Machine.execTimeOutputConfig c s
  | .timeStampConfig c => Sys2Proof.Machine.execTimeStampConfig c s
  | .timeStatus c => Sys2Proof.Machine.execTimeStatus c s
  | .netPortConfig c => Sys2Proof.Machine.execNetPortConfig c s
  | .netGooseConfig c => Sys2Proof.Machine.execNetGooseConfig c s
  | .netSvConfig c => Sys2Proof.Machine.execNetSvConfig c s
  | .netDmaStreamConfig c => Sys2Proof.Machine.execNetDmaStreamConfig c s
  | .netStatus c => Sys2Proof.Machine.execNetStatus c s
  | .safeConfigRead c => Sys2Proof.Machine.execSafeConfigRead c s
  | .safeSealConfirm c => Sys2Proof.Machine.execSafeSealConfirm c s
  | .safeRampConfig c => Sys2Proof.Machine.execSafeRampConfig c s
  | .safeStop c => Sys2Proof.Machine.execSafeStop c s
  | .safeTorqueOff c => Sys2Proof.Machine.execSafeTorqueOff c s
  | .safeReset c => Sys2Proof.Machine.execSafeReset c s
  | .safeStatus c => Sys2Proof.Machine.execSafeStatus c s
  | .faultMaskSet c => Sys2Proof.Machine.execFaultMaskSet c s
  | .faultColophonRead c => Sys2Proof.Machine.execFaultColophonRead c s
  | .faultColophonRearm c => Sys2Proof.Machine.execFaultColophonRearm c s
  | .faultStatus c => Sys2Proof.Machine.execFaultStatus c s
  | .testFaultInject c => Sys2Proof.Machine.execTestFaultInject c s
  | .redPairForm c => Sys2Proof.Machine.execRedPairForm c s
  | .redRoleHandover c => Sys2Proof.Machine.execRedRoleHandover c s
  | .redUnfence c => Sys2Proof.Machine.execRedUnfence c s
  | .redCompareConfig c => Sys2Proof.Machine.execRedCompareConfig c s
  | .redStatus c => Sys2Proof.Machine.execRedStatus c s
  | .recConfig c => Sys2Proof.Machine.execRecConfig c s
  | .recFreeze c => Sys2Proof.Machine.execRecFreeze c s
  | .recFreezeRead c => Sys2Proof.Machine.execRecFreezeRead c s
  | .recReplayStart c image => Sys2Proof.Machine.execRecReplayStart c image s
  | .recReplayStop c => Sys2Proof.Machine.execRecReplayStop c s
  | .recStatus c => Sys2Proof.Machine.execRecStatus c s
  | .spareStatus c => Sys2Proof.Machine.execSpareStatus c s
  | .spareSwap c => Sys2Proof.Machine.execSpareSwap c s
  | .spareThresholdSet c => Sys2Proof.Machine.execSpareThresholdSet c s
  | .monAttach c => Sys2Proof.Machine.execMonAttach c s
  | .monReset c => Sys2Proof.Machine.execMonReset c s
  | .monRead c => Sys2Proof.Machine.execMonRead c s
  | .mbEnable mb value => Sys2Proof.Machine.execMbEnable mb value s
  | .mbDisable mb value => Sys2Proof.Machine.execMbDisable mb value s
  | .mbDoorbell mb value => Sys2Proof.Machine.execMbDoorbell mb value s
  | .mbRspHeadWrite mb value => Sys2Proof.Machine.execMbRspHeadWrite mb value s
  | .heldResponseWrite mb => Sys2Proof.Machine.execHeldResponseWrite mb s
  | .commandFetch entry block => Sys2Proof.Machine.execCommandFetch entry block s
  | .tbTimeLatchRead n => Sys2Proof.Machine.execTbTimeLatchRead n s
  | .tbIncApply n value => Sys2Proof.Machine.execTbIncApply n value s
  | .tsPop => Sys2Proof.Machine.execTsPop s
  | .evqEnableWrite value => Sys2Proof.Machine.execEvqEnableWrite value s
  | .evqHeadWrite value => Sys2Proof.Machine.execEvqHeadWrite value s
  | .fatalCauseRead => Sys2Proof.Machine.execFatalCauseRead s
  | .monWindowRead mon => Sys2Proof.Machine.execMonWindowRead mon s
  | .registerWrite offset width value => Sys2Proof.Machine.execRegisterWrite offset width value s
  | .nporAccept => Sys2Proof.Machine.execNporAccept s
  | .nporRise => Sys2Proof.Machine.execNporRise s
  | .strapSample pairsel trefsel ftest unitid => Sys2Proof.Machine.execStrapSample pairsel trefsel ftest unitid s
  | .bootPllLock => Sys2Proof.Machine.execBootPllLock s
  | .bootFirmwareStart => Sys2Proof.Machine.execBootFirmwareStart s
  | .bootTimePllLock => Sys2Proof.Machine.execBootTimePllLock s
  | .bootLinksUp failed => Sys2Proof.Machine.execBootLinksUp failed s
  | .bootSelftestDone test => Sys2Proof.Machine.execBootSelftestDone test s
  | .bootDdrTrained mibA mibB => Sys2Proof.Machine.execBootDdrTrained mibA mibB s
  | .bootPcieReady => Sys2Proof.Machine.execBootPcieReady s
  | .bootComplete => Sys2Proof.Machine.execBootComplete s
  | .perstnAssert => Sys2Proof.Machine.execPerstnAssert s
  | .railLow die rail stays => Sys2Proof.Machine.execRailLow die rail stays s
  | .refclkLost => Sys2Proof.Machine.execRefclkLost s
  | .timerefLost => Sys2Proof.Machine.execTimerefLost s
  | .timerefReturn => Sys2Proof.Machine.execTimerefReturn s
  | .ethRefclkLost => Sys2Proof.Machine.execEthRefclkLost s
  | .pcieRefclkLost => Sys2Proof.Machine.execPcieRefclkLost s
  | .xtal32Lost => Sys2Proof.Machine.execXtal32Lost s
  | .pllUnlock domain => Sys2Proof.Machine.execPllUnlock domain s
  | .tempSensorRead die quarters => Sys2Proof.Machine.execTempSensorRead die quarters s
  | .rstbtnPressSeen atBoot => Sys2Proof.Machine.execRstbtnPressSeen atBoot s
  | .rstbtnReleaseSeen ms => Sys2Proof.Machine.execRstbtnReleaseSeen ms s
  | .rstbtnStuck => Sys2Proof.Machine.execRstbtnStuck s
  | .rstbtnStuckClear => Sys2Proof.Machine.execRstbtnStuckClear s
  | .resetRequest cold source => Sys2Proof.Machine.execResetRequest cold source s
  | .resetExecute => Sys2Proof.Machine.execResetExecute s
  | .heartbeatIncrement => Sys2Proof.Machine.execHeartbeatIncrement s
  | .aliveToggle => Sys2Proof.Machine.execAliveToggle s
  | .tamperPulse level => Sys2Proof.Machine.execTamperPulse level s
  | .aonPowerLoss => Sys2Proof.Machine.execAonPowerLoss s
  | .holdoverLoad sec => Sys2Proof.Machine.execHoldoverLoad sec s
  | .tickBoundary => Sys2Proof.Machine.execTickBoundary s
  | .inputCrossing => Sys2Proof.Machine.execInputCrossing s
  | .outputCrossing late aieEnd => Sys2Proof.Machine.execOutputCrossing late aieEnd s
  | .commitApply good => Sys2Proof.Machine.execCommitApply good s
  | .commitWithdraw => Sys2Proof.Machine.execCommitWithdraw s
  | .tickLengthChange => Sys2Proof.Machine.execTickLengthChange s
  | .deviceStateTransition => Sys2Proof.Machine.execDeviceStateTransition s
  | .deblockEnter => Sys2Proof.Machine.execDeblockEnter s
  | .loopHoldExpiry lch => Sys2Proof.Machine.execLoopHoldExpiry lch s
  | .loopSatTimeReached lch => Sys2Proof.Machine.execLoopSatTimeReached lch s
  | .loopAutoResume lch => Sys2Proof.Machine.execLoopAutoResume lch s
  | .aieClampWindowEnd arm => Sys2Proof.Machine.execAieClampWindowEnd arm s
  | .aieUnresolved arm => Sys2Proof.Machine.execAieUnresolved arm s
  | .designatedCellRotate arm => Sys2Proof.Machine.execDesignatedCellRotate arm s
  | .wearPenaltyRecompute => Sys2Proof.Machine.execWearPenaltyRecompute s
  | .wearSave => Sys2Proof.Machine.execWearSave s
  | .armOverrunLimit arm => Sys2Proof.Machine.execArmOverrunLimit arm s
  | .blockRequestSend cause => Sys2Proof.Machine.execBlockRequestSend cause s
  | .safeRequestSend cause => Sys2Proof.Machine.execSafeRequestSend cause s
  | .timeSetSend port => Sys2Proof.Machine.execTimeSetSend port s
  | .portStartingDone port => Sys2Proof.Machine.execPortStartingDone port s
  | .rangeMeasurementJudge port reply => Sys2Proof.Machine.execRangeMeasurementJudge port reply s
  | .portVerifyEnter port => Sys2Proof.Machine.execPortVerifyEnter port s
  | .portInService port => Sys2Proof.Machine.execPortInService port s
  | .upstreamBurstReceive port slot burst => Sys2Proof.Machine.execUpstreamBurstReceive port slot burst s
  | .rerangingMark cid => Sys2Proof.Machine.execRerangingMark cid s
  | .launchCalibration => Sys2Proof.Machine.execLaunchCalibration s
  | .wakingComplete port => Sys2Proof.Machine.execWakingComplete port s
  | .sparePortTakeover port => Sys2Proof.Machine.execSparePortTakeover port s
  | .portLost loss => Sys2Proof.Machine.execPortLost loss s
  | .rejoinTimeout cid => Sys2Proof.Machine.execRejoinTimeout cid s
  | .safeSelRequeue cid => Sys2Proof.Machine.execSafeSelRequeue cid s
  | .contextEccError port entry double => Sys2Proof.Machine.execContextEccError port entry double s
  | .cellWordLock cid onB line => Sys2Proof.Machine.execCellWordLock cid onB line s
  | .cellFrameTake cid onB rx => Sys2Proof.Machine.execCellFrameTake cid onB rx s
  | .cellFrameDeadline cell => Sys2Proof.Machine.execCellFrameDeadline cell s
  | .cellBlockAccept cid onB rx => Sys2Proof.Machine.execCellBlockAccept cid onB rx s
  | .cellSafeAccept cid onB rx => Sys2Proof.Machine.execCellSafeAccept cid onB rx s
  | .cellTimeSetAccept cid onB rx elapsed => Sys2Proof.Machine.execCellTimeSetAccept cid onB rx elapsed s
  | .cellSleepAccept cid onB before line => Sys2Proof.Machine.execCellSleepAccept cid onB before line s
  | .cellBlockHoldEnd cell => Sys2Proof.Machine.execCellBlockHoldEnd cell s
  | .cellWatchdogExpiry cid => Sys2Proof.Machine.execCellWatchdogExpiry cid s
  | .cellLinkLoss cid onB => Sys2Proof.Machine.execCellLinkLoss cid onB s
  | .cellEdgeExecute cid => Sys2Proof.Machine.execCellEdgeExecute cid s
  | .cellSampleLatch cid vcap temp aux => Sys2Proof.Machine.execCellSampleLatch cid vcap temp aux s
  | .cellBurstLaunch cid onB => Sys2Proof.Machine.execCellBurstLaunch cid onB s
  | .cellFaultDetect cid fault => Sys2Proof.Machine.execCellFaultDetect cid fault s
  | .cellPermBypass cid => Sys2Proof.Machine.execCellPermBypass cid s
  | .pairCounterZero pair offset => Sys2Proof.Machine.execPairCounterZero pair offset s
  | .pairCounterPeriod pair offset => Sys2Proof.Machine.execPairCounterPeriod pair offset s
  | .pairCompareMatch pair offset up => Sys2Proof.Machine.execPairCompareMatch pair offset up s
  | .pairDutyArrival pair => Sys2Proof.Machine.execPairDutyArrival pair s
  | .pairCommutationSensed pair high ns => Sys2Proof.Machine.execPairCommutationSensed pair high ns s
  | .pairDeadtimeEnd pair => Sys2Proof.Machine.execPairDeadtimeEnd pair s
  | .comparatorActive cmp => Sys2Proof.Machine.execComparatorActive cmp s
  | .comparatorInactive cmp => Sys2Proof.Machine.execComparatorInactive cmp s
  | .opNop die tile word => Sys2Proof.Machine.execOpNop die tile word s
  | .opEnd die tile word => Sys2Proof.Machine.execOpEnd die tile word s
  | .opRep die tile word => Sys2Proof.Machine.execOpRep die tile word s
  | .opBr die tile word => Sys2Proof.Machine.execOpBr die tile word s
  | .opAdd die tile word => Sys2Proof.Machine.execOpAdd die tile word s
  | .opSub die tile word => Sys2Proof.Machine.execOpSub die tile word s
  | .opAdds die tile word => Sys2Proof.Machine.execOpAdds die tile word s
  | .opSubs die tile word => Sys2Proof.Machine.execOpSubs die tile word s
  | .opAnd die tile word => Sys2Proof.Machine.execOpAnd die tile word s
  | .opOr die tile word => Sys2Proof.Machine.execOpOr die tile word s
  | .opXor die tile word => Sys2Proof.Machine.execOpXor die tile word s
  | .opMin die tile word => Sys2Proof.Machine.execOpMin die tile word s
  | .opMax die tile word => Sys2Proof.Machine.execOpMax die tile word s
  | .opAbs die tile word => Sys2Proof.Machine.execOpAbs die tile word s
  | .opNeg die tile word => Sys2Proof.Machine.execOpNeg die tile word s
  | .opShl die tile word => Sys2Proof.Machine.execOpShl die tile word s
  | .opShr die tile word => Sys2Proof.Machine.execOpShr die tile word s
  | .opCmp die tile word => Sys2Proof.Machine.execOpCmp die tile word s
  | .opAddi die tile word => Sys2Proof.Machine.execOpAddi die tile word s
  | .opLil die tile word => Sys2Proof.Machine.execOpLil die tile word s
  | .opLih die tile word => Sys2Proof.Machine.execOpLih die tile word s
  | .opMvpi die tile word => Sys2Proof.Machine.execOpMvpi die tile word s
  | .opMvpd die tile word => Sys2Proof.Machine.execOpMvpd die tile word s
  | .opMvc die tile word => Sys2Proof.Machine.execOpMvc die tile word s
  | .opLd die tile word => Sys2Proof.Machine.execOpLd die tile word s
  | .opSt die tile word => Sys2Proof.Machine.execOpSt die tile word s
  | .opMpy die tile word => Sys2Proof.Machine.execOpMpy die tile word s
  | .opMac die tile word => Sys2Proof.Machine.execOpMac die tile word s
  | .opMsu die tile word => Sys2Proof.Machine.execOpMsu die tile word s
  | .opSta die tile word => Sys2Proof.Machine.execOpSta die tile word s
  | .opLda die tile word => Sys2Proof.Machine.execOpLda die tile word s
  | .opMva die tile word => Sys2Proof.Machine.execOpMva die tile word s
  | .opMpyxy die tile word => Sys2Proof.Machine.execOpMpyxy die tile word s
  | .opMacxy die tile word => Sys2Proof.Machine.execOpMacxy die tile word s
  | .opMsuxy die tile word => Sys2Proof.Machine.execOpMsuxy die tile word s
  | .opBexr die tile word => Sys2Proof.Machine.execOpBexr die tile word s
  | .opBexp die tile word => Sys2Proof.Machine.execOpBexp die tile word s
  | .opExp die tile word => Sys2Proof.Machine.execOpExp die tile word s
  | .opBshl die tile word => Sys2Proof.Machine.execOpBshl die tile word s
  | .opStb die tile word => Sys2Proof.Machine.execOpStb die tile word s
  | .opGets die tile word => Sys2Proof.Machine.execOpGets die tile word s
  | .opPut die tile word => Sys2Proof.Machine.execOpPut die tile word s
  | .tileCycleLimit die tile => Sys2Proof.Machine.execTileCycleLimit die tile s
  | .tileMemoryError die tile mem addr double => Sys2Proof.Machine.execTileMemoryError die tile mem addr double s
  | .tileRepairDone die tile => Sys2Proof.Machine.execTileRepairDone die tile s
  | .tileKnownAnswerTest die tile pass => Sys2Proof.Machine.execTileKnownAnswerTest die tile pass s
  | .itemStart die wait => Sys2Proof.Machine.execItemStart die wait s
  | .itemRelease die item => Sys2Proof.Machine.execItemRelease die item s
  | .itemTimeout die flow seq => Sys2Proof.Machine.execItemTimeout die flow seq s
  | .dispCancelAct die => Sys2Proof.Machine.execDispCancelAct die s
  | .shedLevelFall die => Sys2Proof.Machine.execShedLevelFall die s
  | .portAgeExpiry die port => Sys2Proof.Machine.execPortAgeExpiry die port s
  | .adcConversionComplete unit code at_ => Sys2Proof.Machine.execAdcConversionComplete unit code at_ s
  | .injectedTrigger trig => Sys2Proof.Machine.execInjectedTrigger trig s
  | .measurementSetLatch at_ => Sys2Proof.Machine.execMeasurementSetLatch at_ s
  | .refMonitorCheck inSettle inHold => Sys2Proof.Machine.execRefMonitorCheck inSettle inHold s
  | .calibrationComplete unit offset gain => Sys2Proof.Machine.execCalibrationComplete unit offset gain s
  | .autoCalibration => Sys2Proof.Machine.execAutoCalibration s
  | .levelTestComplete m1 m3 => Sys2Proof.Machine.execLevelTestComplete m1 m3 s
  | .autoLevelTest => Sys2Proof.Machine.execAutoLevelTest s
  | .pathTestComplete m1 m3 => Sys2Proof.Machine.execPathTestComplete m1 m3 s
  | .unitFail unit cause => Sys2Proof.Machine.execUnitFail unit cause s
  | .twTrigger t1 streams comparators => Sys2Proof.Machine.execTwTrigger t1 streams comparators s
  | .twAutoTimeout ch t written => Sys2Proof.Machine.execTwAutoTimeout ch t written s
  | .twSegmentClose ch raw => Sys2Proof.Machine.execTwSegmentClose ch raw s
  | .protSlowCycle k tcs dram => Sys2Proof.Machine.execProtSlowCycle k tcs dram s
  | .protFastCycle k => Sys2Proof.Machine.execProtFastCycle k s
  | .twElementTrigger => Sys2Proof.Machine.execTwElementTrigger s
  | .tripTminExpiry out => Sys2Proof.Machine.execTripTminExpiry out s
  | .coilSupervisionExpiry out level => Sys2Proof.Machine.execCoilSupervisionExpiry out level s
  | .protRecordClose => Sys2Proof.Machine.execProtRecordClose s
  | .ppsInEdge rising dt => Sys2Proof.Machine.execPpsInEdge rising dt s
  | .disciplineDecision => Sys2Proof.Machine.execDisciplineDecision s
  | .ppsLoss => Sys2Proof.Machine.execPpsLoss s
  | .linkTrackUpdate dclk => Sys2Proof.Machine.execLinkTrackUpdate dclk s
  | .errorBoundUpdate => Sys2Proof.Machine.execErrorBoundUpdate s
  | .leapSecond => Sys2Proof.Machine.execLeapSecond s
  | .ppsOutPulse out k => Sys2Proof.Machine.execPpsOutPulse out k s
  | .ppsOutPulseEnd out => Sys2Proof.Machine.execPpsOutPulseEnd out s
  | .irigbFrame sec => Sys2Proof.Machine.execIrigbFrame sec s
  | .tsInEdge input rising dt held => Sys2Proof.Machine.execTsInEdge input rising dt held s
  | .ptpSyncSend port => Sys2Proof.Machine.execPtpSyncSend port s
  | .ptpMessageReceive port msg => Sys2Proof.Machine.execPtpMessageReceive port msg s
  | .ptpAnnounceTimeout port => Sys2Proof.Machine.execPtpAnnounceTimeout port s
  | .ethLinkChange port up => Sys2Proof.Machine.execEthLinkChange port up s
  | .svFrameReceive port frame time => Sys2Proof.Machine.execSvFrameReceive port frame time s
  | .svStreamMiss stream => Sys2Proof.Machine.execSvStreamMiss stream s
  | .gooseFrameReceive port frame now => Sys2Proof.Machine.execGooseFrameReceive port frame now s
  | .gooseStale sub => Sys2Proof.Machine.execGooseStale sub s
  | .goosePublishSample => Sys2Proof.Machine.execGoosePublishSample s
  | .gooseRetransmit pub => Sys2Proof.Machine.execGooseRetransmit pub s
  | .safeMessageDeliver conn => Sys2Proof.Machine.execSafeMessageDeliver conn s
  | .safeCopyWindowExpiry conn => Sys2Proof.Machine.execSafeCopyWindowExpiry conn s
  | .foreignFrameReceive port => Sys2Proof.Machine.execForeignFrameReceive port s
  | .dmaRecordWrite stream => Sys2Proof.Machine.execDmaRecordWrite stream s
  | .dmaRecordDrop stream => Sys2Proof.Machine.execDmaRecordDrop stream s
  | .sealSwitchRead value => Sys2Proof.Machine.execSealSwitchRead value s
  | .mainPathCycle run => Sys2Proof.Machine.execMainPathCycle run s
  | .mordantCheck => Sys2Proof.Machine.execMordantCheck s
  | .mordantHeartbeatLoss => Sys2Proof.Machine.execMordantHeartbeatLoss s
  | .mordantSuspendExpiry => Sys2Proof.Machine.execMordantSuspendExpiry s
  | .safeMessageSend conn => Sys2Proof.Machine.execSafeMessageSend conn s
  | .safeRxWatchdogExpiry conn => Sys2Proof.Machine.execSafeRxWatchdogExpiry conn s
  | .faultMessageArrive => Sys2Proof.Machine.execFaultMessageArrive s
  | .fatalFault die block kind addr => Sys2Proof.Machine.execFatalFault die block kind addr s
  | .evqEntryMove => Sys2Proof.Machine.execEvqEntryMove s
  | .colophonFreeze => Sys2Proof.Machine.execColophonFreeze s
  | .giveWayInterim => Sys2Proof.Machine.execGiveWayInterim s
  | .xlinkBringupDone locked order inverted pairsel variant => Sys2Proof.Machine.execXlinkBringupDone locked order inverted pairsel variant s
  | .xlinkDown lane => Sys2Proof.Machine.execXlinkDown lane s
  | .xlTickReceive tick => Sys2Proof.Machine.execXlTickReceive tick s
  | .xlMsetReceive tick set => Sys2Proof.Machine.execXlMsetReceive tick set s
  | .xlCommitReceive boundary mask crc => Sys2Proof.Machine.execXlCommitReceive boundary mask crc s
  | .xlStateReceive disputed state cause boundary => Sys2Proof.Machine.execXlStateReceive disputed state cause boundary s
  | .xlBlockReceive cause => Sys2Proof.Machine.execXlBlockReceive cause s
  | .xlCheckReceive pass => Sys2Proof.Machine.execXlCheckReceive pass s
  | .xlTimeMarker x bases qual bound => Sys2Proof.Machine.execXlTimeMarker x bases qual bound s
  | .xlHandoverReceive boundary => Sys2Proof.Machine.execXlHandoverReceive boundary s
  | .disputedEnter => Sys2Proof.Machine.execDisputedEnter s
  | .selfCheckDone kat scrub links => Sys2Proof.Machine.execSelfCheckDone kat scrub links s
  | .roleDecision => Sys2Proof.Machine.execRoleDecision s
  | .checkTimeout => Sys2Proof.Machine.execCheckTimeout s
  | .partnerBack => Sys2Proof.Machine.execPartnerBack s
  | .promotion => Sys2Proof.Machine.execPromotion s
  | .unfenceInstallDone => Sys2Proof.Machine.execUnfenceInstallDone s
  | .tapBufferDrain => Sys2Proof.Machine.execTapBufferDrain s
  | .tapEntryLost tap ports => Sys2Proof.Machine.execTapEntryLost tap ports s
  | .freezeComplete slot => Sys2Proof.Machine.execFreezeComplete slot s
  | .decimatedWrite => Sys2Proof.Machine.execDecimatedWrite s
  | .replayEnter => Sys2Proof.Machine.execReplayEnter s
  | .replayEnd late => Sys2Proof.Machine.execReplayEnd late s
  | .cdcStall die code inst ns => Sys2Proof.Machine.execCdcStall die code inst ns s
  | .cdcUnstable die code inst pairs => Sys2Proof.Machine.execCdcUnstable die code inst pairs s
  | .loopLaneKat die pass => Sys2Proof.Machine.execLoopLaneKat die pass s
  | .resourceFail kind die phys cause => Sys2Proof.Machine.execResourceFail kind die phys cause s
  | .spareIn kind die phys => Sys2Proof.Machine.execSpareIn kind die phys s
  | .sramRowRepair die block mem row => Sys2Proof.Machine.execSramRowRepair die block mem row s
  | .mramWearLevel high low => Sys2Proof.Machine.execMramWearLevel high low s
  | .mramRetentionRewrite sector => Sys2Proof.Machine.execMramRetentionRewrite sector s
  | .monitorSample mon value => Sys2Proof.Machine.execMonitorSample mon value s
  | .illegalInstruction die tile word => Sys2Proof.Machine.execIllegalInstruction die tile word s
  | .cellPowerUp cid identity => Sys2Proof.Machine.execCellPowerUp cid identity s
  | .perstnRelease => Sys2Proof.Machine.execPerstnRelease s
  | .packageLinkDown link => Sys2Proof.Machine.execPackageLinkDown link s
  | .pcieAerError correctable status => Sys2Proof.Machine.execPcieAerError correctable status s
  | .refSelectTimeout => Sys2Proof.Machine.execRefSelectTimeout s
  | .unfenceTimeout => Sys2Proof.Machine.execUnfenceTimeout s
  | .xlclkLock digest align => Sys2Proof.Machine.execXlclkLock digest align s
  | .finalResponse mb => Sys2Proof.Machine.execFinalResponse mb s

end Sys2Proof.Machine
end

