-- ==== Sys2Proof/Safety.lean ====
section
/-! DEFINITION. What counts as safe and well-kept: the parts a run may touch, the invariant of the state, and the conditions
under which a mailbox serves a command. -/

namespace Sys2Proof.Machine

open Sys2Proof

/-- The parts of the state (the queue of waiting commands apart). -/
inductive Part where
  | freeCtr | host | dev | power | mb | tick | fault | link | cells | aie | pwm | loop | tiles | meas | time | acq | prot | net | safe | red | galley | spare
  deriving DecidableEq, Repr

/-- A tick length of Table 5.1 (R117): 1, 2 or 4 µs. -/
abbrev LegalLen (n : Nat) : Prop := n = 1 ∨ n = 2 ∨ n = 4

/-- The control tick has a length of Table 5.1, and so has the change that waits for its boundary (R128). -/
def LegalTick (k : TickSt) : Prop := LegalLen k.len ∧ ∀ n, k.newLen = some n → LegalLen n

/-- The command log holds at most 1024 entries (R100). -/
def LogFits (m : Mailboxes) : Prop := m.log.length ≤ 1024

/-- From `s` to `t` nothing outside the parts `L` has changed; the queue and the variant stay (R2), host memory keeps its
canonical form, the tick its legal length and the command log its bound. -/
structure Keeps (L : List Part) (s t : State) : Prop where
  pending : t.pending = s.pending
  memory  : Memory.wf s.host → Memory.wf t.host
  tickLen : LegalTick s.tick → LegalTick t.tick
  logFits : LogFits s.mb → LogFits t.mb
  variant : t.dev.variant = s.dev.variant
  freeCtr : .freeCtr ∉ L → t.freeCtr = s.freeCtr
  host : .host ∉ L → t.host = s.host
  dev : .dev ∉ L → t.dev = s.dev
  power : .power ∉ L → t.power = s.power
  mb : .mb ∉ L → t.mb = s.mb
  tick : .tick ∉ L → t.tick = s.tick
  fault : .fault ∉ L → t.fault = s.fault
  link : .link ∉ L → t.link = s.link
  cells : .cells ∉ L → t.cells = s.cells
  aie : .aie ∉ L → t.aie = s.aie
  pwm : .pwm ∉ L → t.pwm = s.pwm
  loop : .loop ∉ L → t.loop = s.loop
  tiles : .tiles ∉ L → t.tiles = s.tiles
  meas : .meas ∉ L → t.meas = s.meas
  time : .time ∉ L → t.time = s.time
  acq : .acq ∉ L → t.acq = s.acq
  prot : .prot ∉ L → t.prot = s.prot
  net : .net ∉ L → t.net = s.net
  safe : .safe ∉ L → t.safe = s.safe
  red : .red ∉ L → t.red = s.red
  galley : .galley ∉ L → t.galley = s.galley
  spare : .spare ∉ L → t.spare = s.spare

/-- What every step keeps: host memory in its canonical form, a tick length of Table 5.1 (and so the one that waits), the command log within
its bound. -/
structure Inv (s : State) : Prop where
  memory  : Memory.wf s.host
  tickLen : LegalTick s.tick
  logFits : LogFits s.mb

/-- A command answers a next state and touches no more than the parts `L`. -/
def Answers (L : List Part) (s : State) (o : Out) : Prop := ∃ t, o = .next t ∧ Keeps L s t

/-- The mailboxes serve commands: the device is neither in POWER_DOWN nor in BOOT (R86). -/
abbrev Serving (s : State) : Prop := s.dev.state ≠ .powerDown ∧ s.dev.state ≠ .boot

/-- An entry with `n` inline parameter bytes, its reserved fields zero (Table 4.7). -/
abbrev Inline (c : Cmd) (n : Nat) : Prop := c.flags = 0 ∧ c.rsvd = 0 ∧ c.length = n

/-- An entry with an external block of a length that `ok` allows, its reserved fields zero (Table 4.7, R87). -/
abbrev External (c : Cmd) (ok : Nat → Bool) : Prop :=
  c.flags = 1 ∧ c.rsvd = 0 ∧ c.extLen ok = true ∧ (rd c.param 0 8 % 64 == 0 && zeros c.param 16 32) = true

/-- A mailbox command of MB1 to MB7 that the device's state and role let run: state and role among those listed. -/
abbrev Admits (c : Cmd) (s : State) (states : List DevState) (roles : List Role) : Prop :=
  c.mb ≠ 0 ∧ s.dev.state ∈ states ∧ s.dev.role ∈ roles

/-- Command `c` of opcode `op` is registered as PENDING (R93): it holds `objs`, it is legal in `legal` (R98), `arg` is its object's
number and `work` the end of its own work, where it has any. -/
def pendAs (op : Nat) (c : Cmd) (objs : List Obj) (legal : List DevState) (arg : Nat) (work : Option (Status × Bytes)) (s : State) : State :=
  s.onMb (fun m => { m with pend := m.pend ++ [{
    mb := c.mb, opcode := op, tag := c.tag.toNat, seq := c.seq.toNat, objs := objs, legal := legal, took := work.isSome, arg := arg,
    work := work, outcome := none }] })

/-- The ring of mailbox `n` takes a response at once: there is room, none is held, and the host can be reached (R62, R85). -/
abbrev RingFree (s : State) (n : Nat) : Prop := ringRoom (mbGet s n) = true ∧ (mbGet s n).held = [] ∧ barOn s = true

/-- Tile `t` of die `d` issues the word `w` as opcode `op`: it runs the item `i` within its cycle limit, the program counter lies in
the region of its kernel, program memory holds the word, and the bits `zero` are zero (R293, R294, R307). -/
abbrev Issues (s : State) (d t : Nat) (w : Word32) (op : Nat) (zero : Word32) (i : Item) : Prop :=
  tileItem s d t = some i ∧ (tileGet s d t).cycles < (tileGet s d t).limit ∧ fld w 31 26 = op ∧
    inRegion (tileGet s d t).bind.kid (tileGet s d t).pc = true ∧
    ((tileGet s d t).bind.kid < 0x8000 → (imageWord s d (tileGet s d t).pc).all (· == w) = true) ∧ w &&& zero = 0

/-- Tile `t` of die `d` comes upon the word `w` of opcode `op` as it issues, but a bit that the format has at zero is set: the word is
illegal (R293). -/
abbrev Misformed (s : State) (d t : Nat) (w : Word32) (op : Nat) (zero : Word32) (i : Item) : Prop :=
  tileItem s d t = some i ∧ (tileGet s d t).cycles < (tileGet s d t).limit ∧ fld w 31 26 = op ∧
    inRegion (tileGet s d t).bind.kid (tileGet s d t).pc = true ∧
    ((tileGet s d t).bind.kid < 0x8000 → (imageWord s d (tileGet s d t).pc).all (· == w) = true) ∧ w &&& zero ≠ 0

/-- The tile as the instruction's effect finds it: moved on to the next instruction, its cycles counted, with one more where the
instruction reads what the cycle before loaded (R296). -/
def issued (s : State) (d t : Nat) (reads : List Nat) (cost : Nat) : TileSt :=
  { (tileGet s d t).advance with
    cycles := (tileGet s d t).cycles + cost + (if reads.any (fun r => (tileGet s d t).loaded.contains r) then 1 else 0), loaded := [] }

/-- The parts each command may touch. No command of the block touches the queue or the variant. -/
def touches : Instr → List Part
  | .sysCaps _ | .sysStateGet _ | .sysLogRead _ | .sysNop _ | .tickStatus _ | .cellRangeRead _ | .cellRosterRead _ | .cellContextRead _
  | .aieWearRead _ | .aieArmStatus _ | .pwmStatus _ | .loopStatus _ | .tileRomList _ | .tileStatus _ | .dispStatsRead _ | .protStatus _
  | .netStatus _ | .safeConfigRead _ | .safeStatus _ | .faultColophonRead _ | .faultStatus _ | .redStatus _ | .recStatus _
  | .spareStatus _ | .monRead _ | .commandFetch _ _ | .finalResponse _ => [.host, .mb]
  | .sysStateRequest _ | .sysBlockClear _ | .testEnter _ =>
    [.host, .dev, .mb, .tick, .fault, .link, .aie, .pwm, .loop, .tiles, .safe, .red, .galley]
  | .sysReset _ => [.host, .dev, .power, .mb, .fault, .red]
  | .tickConfig _ => [.host, .mb, .tick]
  | .tickCommit _ => [.host, .mb, .tick, .red]
  | .cellPortUp _ | .cellPortDown _ => [.host, .mb, .fault, .link]
  | .cellPortRemap _ => [.host, .dev, .mb, .fault, .link, .spare]
  | .cellRosterLoad _ => [.host, .mb, .fault, .link, .aie]
  | .cellHealthSet _ => [.host, .mb, .link]
  | .cellSafeStateSet _ => [.host, .mb, .tick, .link]
  | .aieArmConfig _ | .aieSelectParams _ | .aieDerateConfig _ => [.host, .mb, .tick, .aie]
  | .pwmArmConfig _ | .pwmPairConfig _ | .pwmTripConfig _ => [.host, .mb, .tick, .pwm]
  | .pwmTripClear _ => [.host, .mb, .pwm]
  | .loopChannelConfig _ => [.host, .mb, .tick, .fault, .link, .loop]
  | .loopCoeffLoad _ | .loopTableLoad _ | .loopScheduleConfig _ | .loopRepetitiveConfig _ | .loopSupervisorConfig _ =>
    [.host, .mb, .tick, .loop]
  | .tileKernelLoad _ | .dispCancel _ => [.host, .mb, .tiles]
  | .tileKernelBind _ | .dispFlowConfig _ | .dispClassConfig _ => [.host, .mb, .tick, .tiles]
  | .measChannelConfig _ | .measSequenceConfig _ => [.host, .mb, .tick, .meas]
  | .measFilterConfig _ => [.host, .mb, .tick, .pwm, .meas]
  | .measRefSelect _ => [.host, .mb, .fault, .meas]
  | .measCalibrate _ | .measDiagRun _ | .measStatus _ => [.host, .mb, .meas]
  | .acqChannelConfig _ | .acqTriggerConfig _ => [.host, .mb, .acq]
  | .acqArm _ => [.freeCtr, .host, .mb, .fault, .acq]
  | .acqSegmentRead _ | .heldResponseWrite _ => [.host, .mb, .fault, .acq]
  | .acqLocate _ | .faultMaskSet _ | .faultColophonRearm _ => [.host, .mb, .fault]
  | .protElementConfig _ | .protCurveLoad _ | .protTripMap _ => [.host, .mb, .tick, .prot]
  | .protTripReset _ | .protRecordExport _ => [.host, .mb, .fault, .prot]
  | .protRecordConfig _ => [.host, .mb, .tick, .fault, .prot]
  | .timeBaseSet _ | .timeDisciplineConfig _ => [.host, .mb, .fault, .time]
  | .timePtpConfig _ | .netDmaStreamConfig _ | .dmaRecordWrite _ => [.host, .mb, .net]
  | .timeOutputConfig _ | .timeStampConfig _ | .timeStatus _ => [.host, .mb, .time]
  | .netPortConfig _ => [.host, .mb, .fault, .net]
  | .netGooseConfig _ | .netSvConfig _ => [.host, .mb, .tick, .net]
  | .safeSealConfirm _ => [.host, .dev, .power, .mb, .fault, .safe]
  | .safeRampConfig _ => [.host, .mb, .safe]
  | .safeStop _ => [.host, .dev, .mb]
  | .safeTorqueOff _ | .safeReset _ => [.host, .mb, .fault, .safe]
  | .testFaultInject _ => [.freeCtr, .host, .dev, .mb, .fault, .link, .aie, .pwm, .tiles, .meas, .acq, .prot, .red, .galley, .spare]
  | .redPairForm _ | .redRoleHandover _ | .redUnfence _ | .redCompareConfig _ => [.host, .mb, .red]
  | .recConfig _ | .recFreeze _ => [.host, .mb, .fault, .galley]
  | .recFreezeRead _ | .recReplayStart _ _ | .recReplayStop _ => [.host, .mb, .galley]
  | .spareSwap _ => [.host, .dev, .mb, .fault, .tiles, .meas, .spare]
  | .spareThresholdSet _ | .monAttach _ | .monReset _ => [.host, .mb, .spare]
  | .mbEnable _ _ | .mbDisable _ _ | .mbDoorbell _ _ | .mbRspHeadWrite _ _ | .refSelectTimeout => [.mb]
  | .tbTimeLatchRead _ | .tbIncApply _ _ | .tsPop | .linkTrackUpdate _ | .ppsOutPulse _ _ | .ppsOutPulseEnd _ | .irigbFrame _ => [.time]
  | .evqEnableWrite _ | .evqHeadWrite _ | .fatalCauseRead | .colophonFreeze | .giveWayInterim | .pcieAerError _ _ => [.fault]
  | .monWindowRead _ | .mramWearLevel _ _ | .mramRetentionRewrite _ => [.spare]
  | .registerWrite _ _ _ | .tsInEdge _ _ _ _ => [.mb, .fault, .time]
  | .nporAccept =>
    [.dev, .power, .mb, .tick, .fault, .link, .aie, .pwm, .loop, .tiles, .meas, .time, .acq, .prot, .net, .safe, .red, .galley, .spare]
  | .nporRise => [.dev, .power, .mb, .fault]
  | .strapSample _ _ _ _ | .bootLinksUp _ | .timerefLost | .pcieRefclkLost | .rstbtnStuck | .rstbtnStuckClear => [.power, .fault]
  | .bootPllLock | .timerefReturn | .xtal32Lost | .rstbtnPressSeen _ | .holdoverLoad _ | .perstnRelease => [.power]
  | .bootFirmwareStart | .aonPowerLoss => [.power, .safe]
  | .bootTimePllLock => [.power, .fault, .time]
  | .bootSelftestDone _ => [.power, .fault, .link, .loop, .tiles, .meas, .spare]
  | .bootDdrTrained _ _ => [.power, .galley]
  | .bootPcieReady => [.power, .spare]
  | .bootComplete => [.dev, .power, .mb, .tick, .fault, .link, .aie, .pwm, .loop, .tiles, .meas, .prot, .safe, .red, .galley, .spare]
  | .perstnAssert => [.freeCtr, .power, .fault, .spare]
  | .railLow _ _ _ | .refclkLost | .pllUnlock _ => [.dev, .power, .mb, .fault, .link, .pwm, .prot, .red]
  | .ethRefclkLost | .ethLinkChange _ _ => [.power, .fault, .net]
  | .tempSensorRead _ _ => [.dev, .power, .mb, .fault, .link, .pwm, .prot, .red, .spare]
  | .rstbtnReleaseSeen _ | .resetRequest _ _ => [.dev, .power, .fault, .red]
  | .resetExecute =>
    [.freeCtr, .host, .dev, .power, .mb, .tick, .fault, .link, .aie, .pwm, .loop, .tiles, .meas, .time, .acq, .prot, .net, .safe, .red, .galley, .spare]
  | .heartbeatIncrement | .aliveToggle => [.dev]
  | .tamperPulse _ => [.dev, .power, .fault, .safe]
  | .tickBoundary => [.dev, .mb, .tick, .fault, .link, .cells, .pwm, .loop, .time, .safe, .red, .spare]
  | .inputCrossing => [.freeCtr, .dev, .mb, .tick, .fault, .link, .aie, .pwm, .loop, .tiles, .meas, .net, .safe, .red, .galley, .spare]
  | .outputCrossing _ _ => [.freeCtr, .dev, .tick, .fault, .link, .aie, .pwm, .loop, .tiles, .meas, .net, .safe, .red, .galley]
  | .commitApply _ => [.mb, .tick, .fault, .link, .aie, .pwm, .loop, .tiles, .meas, .prot, .net, .red, .galley, .spare]
  | .commitWithdraw => [.mb, .tick, .fault]
  | .tickLengthChange => [.mb, .tick, .fault, .link, .aie]
  | .deviceStateTransition | .deblockEnter | .replayEnter | .replayEnd _ =>
    [.dev, .mb, .tick, .fault, .link, .aie, .pwm, .loop, .tiles, .safe, .red, .galley]
  | .loopHoldExpiry _ | .loopSatTimeReached _ => [.dev, .fault, .loop]
  | .loopAutoResume _ => [.fault, .loop]
  | .aieClampWindowEnd _ | .designatedCellRotate _ | .wearPenaltyRecompute | .wearSave => [.aie]
  | .aieUnresolved _ => [.fault, .aie]
  | .armOverrunLimit _ => [.dev, .fault]
  | .blockRequestSend _ | .safeRequestSend _ | .xlBlockReceive _ => [.link]
  | .timeSetSend _ | .portStartingDone _ | .rangeMeasurementJudge _ _ | .portVerifyEnter _ | .upstreamBurstReceive _ _ _
  | .launchCalibration | .rejoinTimeout _ | .safeSelRequeue _ => [.fault, .link]
  | .portInService _ | .rerangingMark _ | .wakingComplete _ => [.mb, .fault, .link]
  | .sparePortTakeover _ | .portLost _ => [.dev, .mb, .fault, .link]
  | .contextEccError _ _ _ | .tileKnownAnswerTest _ _ _ | .loopLaneKat _ _ | .resourceFail _ _ _ _ =>
    [.freeCtr, .dev, .mb, .fault, .link, .aie, .tiles, .meas, .prot, .spare]
  | .cellWordLock _ _ _ | .cellFrameTake _ _ _ | .cellFrameDeadline _ | .cellBlockAccept _ _ _ | .cellSafeAccept _ _ _
  | .cellTimeSetAccept _ _ _ _ | .cellSleepAccept _ _ _ _ | .cellBlockHoldEnd _ | .cellWatchdogExpiry _ | .cellLinkLoss _ _
  | .cellEdgeExecute _ | .cellBurstLaunch _ _ | .cellFaultDetect _ _ | .cellPermBypass _ | .cellPowerUp _ _ => [.cells]
  | .cellSampleLatch _ _ _ _ => [.freeCtr, .cells]
  | .pairCounterZero _ _ | .pairCounterPeriod _ _ | .pairCompareMatch _ _ _ | .pairDutyArrival _ | .pairCommutationSensed _ _ _
  | .pairDeadtimeEnd _ | .comparatorInactive _ => [.pwm]
  | .comparatorActive _ => [.dev, .mb, .fault, .link, .pwm, .safe, .red]
  | .opNop _ _ _ | .opEnd _ _ _ | .opRep _ _ _ | .opBr _ _ _ | .opAdd _ _ _ | .opSub _ _ _ | .opAdds _ _ _ | .opSubs _ _ _ | .opAnd _ _ _
  | .opOr _ _ _ | .opXor _ _ _ | .opMin _ _ _ | .opMax _ _ _ | .opAbs _ _ _ | .opNeg _ _ _ | .opCmp _ _ _ | .opAddi _ _ _ | .opLil _ _ _
  | .opLih _ _ _ | .opMvpi _ _ _ | .opMvpd _ _ _ | .opMvc _ _ _ | .opLd _ _ _ | .opSt _ _ _ | .opMpy _ _ _ | .opMac _ _ _ | .opMsu _ _ _
  | .opSta _ _ _ | .opLda _ _ _ | .opMva _ _ _ | .opBexr _ _ _ | .opBexp _ _ _ | .opExp _ _ _ | .opBshl _ _ _ | .opStb _ _ _
  | .opGets _ _ _ | .opPut _ _ _ | .tileCycleLimit _ _ | .itemTimeout _ _ _ | .shedLevelFall _ | .illegalInstruction _ _ _ =>
    [.fault, .tiles, .galley]
  | .opShl _ _ _ | .opShr _ _ _ | .opMpyxy _ _ _ | .opMacxy _ _ _ | .opMsuxy _ _ _ => [.freeCtr, .fault, .tiles, .galley]
  | .tileMemoryError _ _ _ _ _ => [.freeCtr, .dev, .mb, .fault, .link, .aie, .tiles, .meas, .prot, .galley, .spare]
  | .tileRepairDone _ _ | .itemStart _ _ => [.tiles]
  | .itemRelease _ _ => [.tick, .fault, .tiles, .galley]
  | .dispCancelAct _ => [.mb, .fault, .tiles]
  | .portAgeExpiry _ _ => [.fault, .tiles]
  | .adcConversionComplete _ _ _ | .injectedTrigger _ => [.fault, .meas, .spare]
  | .measurementSetLatch _ => [.fault, .meas, .red]
  | .refMonitorCheck _ _ | .pathTestComplete _ _ => [.mb, .fault, .meas]
  | .calibrationComplete _ _ _ | .levelTestComplete _ _ => [.dev, .mb, .fault, .tiles, .meas, .spare]
  | .autoCalibration => [.fault, .meas]
  | .autoLevelTest => [.meas]
  | .unitFail _ _ => [.dev, .mb, .fault, .meas, .spare]
  | .twTrigger _ _ _ => [.fault, .acq, .spare]
  | .twAutoTimeout _ _ _ => [.acq]
  | .twSegmentClose _ _ => [.fault, .acq]
  | .protSlowCycle _ _ _ | .protFastCycle _ | .tripTminExpiry _ | .coilSupervisionExpiry _ _ | .protRecordClose => [.fault, .prot]
  | .twElementTrigger => [.fault, .prot, .spare]
  | .ppsInEdge _ _ | .disciplineDecision | .ppsLoss | .errorBoundUpdate | .leapSecond => [.fault, .time]
  | .ptpSyncSend _ | .goosePublishSample | .gooseRetransmit _ | .safeCopyWindowExpiry _ | .foreignFrameReceive _ => [.net]
  | .ptpMessageReceive _ _ | .ptpAnnounceTimeout _ | .svStreamMiss _ | .gooseFrameReceive _ _ _ | .gooseStale _ | .dmaRecordDrop _ =>
    [.fault, .net]
  | .svFrameReceive _ _ _ => [.fault, .net, .spare]
  | .safeMessageDeliver _ => [.dev, .mb, .fault, .net, .safe]
  | .sealSwitchRead _ => [.dev, .fault, .safe]
  | .mainPathCycle _ | .mordantHeartbeatLoss => [.dev, .mb, .fault, .link, .pwm, .prot, .safe, .red]
  | .mordantCheck => [.dev, .mb, .fault, .link, .safe, .red]
  | .mordantSuspendExpiry => [.safe]
  | .safeMessageSend _ => [.fault, .net, .safe]
  | .safeRxWatchdogExpiry _ => [.dev, .mb, .fault, .safe]
  | .faultMessageArrive | .tapEntryLost _ _ | .freezeComplete _ => [.fault, .galley]
  | .fatalFault _ _ _ _ | .packageLinkDown _ => [.dev, .mb, .fault, .link, .pwm, .prot, .red]
  | .evqEntryMove => [.mb, .fault]
  | .xlinkBringupDone _ _ _ _ _ | .xlinkDown _ => [.mb, .fault, .red]
  | .xlTickReceive _ | .partnerBack => [.fault, .red]
  | .xlMsetReceive _ _ | .xlCheckReceive _ | .xlHandoverReceive _ | .selfCheckDone _ _ _ => [.red]
  | .xlCommitReceive _ _ _ => [.tick]
  | .xlStateReceive _ _ _ _ => [.dev, .fault, .red]
  | .xlTimeMarker _ _ _ _ => [.freeCtr, .fault, .time, .red]
  | .disputedEnter => [.dev, .mb, .fault, .pwm, .red]
  | .roleDecision => [.dev, .mb, .fault, .link, .pwm, .time, .red]
  | .checkTimeout => [.dev, .mb, .fault, .link, .pwm, .red]
  | .promotion => [.dev, .mb, .fault, .pwm, .time, .red]
  | .unfenceInstallDone => [.dev, .mb, .fault, .pwm, .time, .net, .red]
  | .tapBufferDrain | .decimatedWrite => [.galley]
  | .cdcStall _ _ _ _ | .cdcUnstable _ _ _ _ | .monitorSample _ _ => [.fault, .spare]
  | .spareIn _ _ _ => [.dev, .mb, .fault, .tiles, .spare]
  | .sramRowRepair _ _ _ _ => [.dev, .fault, .spare]
  | .unfenceTimeout => [.mb, .red]
  | .xlclkLock _ _ => [.dev, .mb, .tick, .fault, .link, .pwm, .time, .net, .red]

end Sys2Proof.Machine
end

