-- ==== Sys2Proof/Certificates/Slice0/Obligations.lean ====
section
/-! DEFINITION. The statements about the model that are to be proved, in the order of OBLIGATIONS.json. -/

open Sys2Proof Sys2Proof.Machine

/-- For every command and state: a step of a state whose queue has the command in front is that command's effect on the state with the rest of
the queue. On an empty queue the block idles: this second clause is the model's own choice (log entry 6), no rule of the spec. -/
def Obligations.StepRunsTheFrontCommand : Prop :=
  (∀ (i : Instr) (rest : List Instr) (s : State),
    s.pending = i :: rest →
    step s = exec i (s.withQueue rest)) ∧
  (∀ (s : State),
    s.pending = [] →
    step s = .next s)

/-- The machine after reset: state BOOT, tick length 2 µs with no change waiting and no commit armed; every register of the eight mailbox
control blocks and the registers of the event queue read 0; nothing is pending, held or in hand; no fatal source. That the queue of waiting
commands and host memory start empty is the model's own choice (log entries 10 and 106). -/
def Obligations.ResetLeavesTheDeviceInBoot : Prop :=
  (State.reset.dev.state = .boot ∧ State.reset.tick.len = 2 ∧ State.reset.tick.newLen = none ∧ State.reset.tick.commits = [] ∧ State.reset.mb.pend = [] ∧ State.reset.mb.inHand = none ∧ State.reset.dev.fatal = false ∧ State.reset.dev.sources = [] ∧ State.reset.pending = [] ∧ State.reset.host = []) ∧
  (∀ (n : Nat),
    n < 8 →
    (List.range 11).all (fun i => regRead State.reset (0x1000 + 0x40 * n + 4 * i) == 0) = true) ∧
  (∀ (off : Nat),
    0x2000 ≤ off →
    off ≤ 0x2018 →
    regRead State.reset off = 0)

/-- Host memory is in its canonical form, the tick has a length of Table 5.1 and no other waits, and the command log is within its bound of
1,024 entries. -/
def Obligations.ResetMeetsTheInvariant : Prop :=
  Inv State.reset

/-- For every state that meets the invariant, whichever command stands at the front of its queue, the state a step answers meets it: host memory
lists strictly rising addresses, T is 1, 2 or 4 µs and so is a change that waits for its boundary (R117, R128), and the command log holds at
most 1,024 entries (R100). -/
def Obligations.EveryStepKeepsTheInvariant : Prop :=
  ∀ (s t : State),
    Inv s →
    step s = .next t →
    Inv t

/-- For every command and every state, whatever its parameters, the block answers a next state: no command stops it. In that state every part
that is not listed for the command is as before (mailboxes, tick, links, arms, loops, tiles, measurement, time base, protection, network,
safety, pair, recorder, spares, and the others), the queue and the variant are as before (R2), and host memory keeps its canonical form. The
list of parts is the function `touches` of Sys2Proof/Safety.lean. -/
def Obligations.EveryCommandAnswersWithinItsParts : Prop :=
  ∀ (i : Instr) (s : State),
    ∃ t, exec i s = .next t ∧ Keeps (touches i) s t

/-- In every state that serves commands, these commands with well-formed parameters answer a next state: the state with the result buffer
written (where one is named) and the answer OK with the result bytes. Everything outside host memory and the mailboxes is as before, since
the next state is given whole. -/
def Obligations.SysReadCommandsAnswerOk : Prop :=
  (∀ (c : Cmd) (s : State),
    Serving s →
    Inline c 12 →
    c.u64 0 = 0 →
    c.u32 8 = 0 →
    exec (.sysCaps c) s = .next (answer 0x0101 c .ok (le 1 s.dev.variant.code ++ le 1 s.power.straps.unitid.toNat ++ le 4 (dieMask s) ++ le 4 (failedMask s) ++ le 4 s.dev.capsDigest.toNat) s)) ∧
  (∀ (c : Cmd) (s : State),
    Serving s →
    Inline c 12 →
    c.u64 0 % 64 = 0 →
    c.u64 0 ≠ 0 →
    256 ≤ c.u32 8 →
    exec (.sysCaps c) s = .next (answer 0x0101 c .ok (le 1 s.dev.variant.code ++ le 1 s.power.straps.unitid.toNat ++ le 4 (dieMask s) ++ le 4 (failedMask s) ++ le 4 s.dev.capsDigest.toNat) (putBuf (c.u64 0) (caps s) s))) ∧
  (∀ (c : Cmd) (s : State),
    Serving s →
    Inline c 0 →
    exec (.sysStateGet c) s = .next (answer 0x0102 c .ok (le 1 s.dev.state.code ++ le 1 s.dev.role.code ++ le 1 s.dev.prev.code ++ le 1 s.dev.cause ++ le 4 s.dev.transTick) s)) ∧
  (∀ (c : Cmd) (s : State),
    Serving s →
    Inline c 16 →
    c.mb ≠ 0 →
    c.u64 0 % 64 = 0 →
    c.u64 0 ≠ 0 →
    1 ≤ c.u32 12 →
    c.u32 12 ≤ 1024 →
    exec (.sysLogRead c) s = .next (answer 0x0106 c .ok (le 4 ((s.mb.log.getLast?.map (·.seq)).getD 0) ++ le 4 ((s.mb.log.head?.map (·.seq)).getD 0) ++ le 4 (((s.mb.log.reverse).filter (fun e => c.u32 8 ≤ e.seq)).take (c.u32 12)).length) (putBuf (c.u64 0) ((((s.mb.log.reverse).filter (fun e => c.u32 8 ≤ e.seq)).take (c.u32 12)).flatMap LogEntry.bytes) s))) ∧
  (∀ (c : Cmd) (s : State),
    Serving s →
    c.flags = 0 →
    c.rsvd = 0 →
    c.length ≤ 44 →
    c.mb ≠ 0 →
    exec (.sysNop c) s = .next (answer 0x0107 c .ok (c.param.take c.length) s)) ∧
  (∀ (c : Cmd) (s : State),
    Serving s →
    Inline c 12 →
    c.mb ≠ 0 →
    c.u64 0 = 0 →
    c.u32 8 ≤ 256 →
    exec (.tickStatus c) s = .next (answer 0x0203 c .ok (le 8 s.tick.index ++ le 1 s.tick.len ++ le 3 0 ++ le 4 s.tick.staged.toNat ++ le 4 (s.tick.commits.foldl (fun m k => m ||| k.mask) 0#9).toNat ++ le 8 (s.tick.commits.foldl (fun m k => if m = 0 then k.boundary else min m k.boundary) 0) ++ le 4 s.tick.overruns ++ le 4 s.tick.clampAll ++ le 4 0) s)) ∧
  (∀ (c : Cmd) (s : State),
    Serving s →
    Inline c 12 →
    c.mb ≠ 0 →
    c.u64 0 % 64 = 0 →
    c.u64 0 ≠ 0 →
    c.u32 8 ≤ 256 →
    exec (.tickStatus c) s = .next (answer 0x0203 c .ok (le 8 s.tick.index ++ le 1 s.tick.len ++ le 3 0 ++ le 4 s.tick.staged.toNat ++ le 4 (s.tick.commits.foldl (fun m k => m ||| k.mask) 0#9).toNat ++ le 8 (s.tick.commits.foldl (fun m k => if m = 0 then k.boundary else min m k.boundary) 0) ++ le 4 s.tick.overruns ++ le 4 s.tick.clampAll ++ le 4 (s.tick.ring.take (c.u32 8)).length) (putBuf (c.u64 0) ((s.tick.ring.take (c.u32 8)).flatMap Snapshot.bytes) s)))

/-- SYS_STATE_REQUEST, for each of its targets and each state it is legal in: STANDBY from CONFIG moves at once with cause 0x10, and with an
unmet precondition answers CONFLICT with the mask and changes nothing; STANDBY from DEBLOCKED answers PENDING and sets the trigger to
STANDBY, in drive mode to SAFE_STOP with cause 0x11; DEBLOCKED from STANDBY, at the boundary named or at c + L, answers PENDING and sets the
trigger for that boundary, and with an unmet precondition or a boundary before c + L answers CONFLICT; CONFIG from STANDBY moves at once;
STANDBY and DEBLOCKED on an M2 answer NOT_FITTED. SYS_BLOCK_CLEAR: TRIP_ACTIVE while a trip input that caused the block is active; CONFLICT
while a fatal source, a latched STO or a Mordant latch remains; else out of BLOCKED_FAULT, into STANDBY where every port that is not DOWN is
IN_SERVICE and the unit is no M2, into CONFIG elsewhere, with FATAL and the latches of the comparators that caused the block cleared.
SYS_RESET answers OK and starts the reset, turns a warm request that waits into a cold one, and answers CONFLICT where R74 discards it.
TEST_ENTER moves to FACTORY_TEST where FTEST is latched high, and answers BAD_OPCODE where it is low. -/
def Obligations.StateCommandsMoveTheDevice : Prop :=
  (∀ (c : Cmd) (s : State),
    Admits c s [.config] [.active] →
    Inline c 8 →
    c.u8 0 = 3 →
    c.rsv 1 3 = true →
    isM2 s = false →
    held s .deviceState = false →
    held s .pair = false →
    unmet s ≠ 0 →
    exec (.sysStateRequest c) s = .next (answer 0x0103 c .conflict (requestResult (unmet s) s.tick.index) s)) ∧
  (∀ (c : Cmd) (s : State),
    Admits c s [.config] [.active] →
    Inline c 8 →
    c.u8 0 = 3 →
    c.rsv 1 3 = true →
    isM2 s = false →
    held s .deviceState = false →
    held s .pair = false →
    unmet s = 0 →
    exec (.sysStateRequest c) s = .next (answer 0x0103 c .ok (requestResult 0 s.tick.index) (transition .standby 0x10 s))) ∧
  (∀ (c : Cmd) (s : State),
    Admits c s [.standby] [.active] →
    Inline c 8 →
    c.u8 0 = 2 →
    c.rsv 1 3 = true →
    held s .deviceState = false →
    held s .pair = false →
    exec (.sysStateRequest c) s = .next (answer 0x0103 c .ok (requestResult 0 s.tick.index) (transition .config 0x10 s))) ∧
  (∀ (c : Cmd) (s : State),
    c.mb ≠ 0 →
    s.dev.state = .deblocked →
    s.dev.role = .active →
    Inline c 8 →
    c.u8 0 = 3 →
    c.rsv 1 3 = true →
    isM2 s = false →
    held s .deviceState = false →
    held s .pair = false →
    pendCount s c.mb < 8 →
    driveMode s = false →
    exec (.sysStateRequest c) s = .next (answer 0x0103 c .pending [] (addTrigger .standby 0x10 0 (pendAs 0x0103 c [.deviceState] [.config, .deblocked] 3 none s)))) ∧
  (∀ (c : Cmd) (s : State),
    c.mb ≠ 0 →
    s.dev.state = .deblocked →
    s.dev.role = .active →
    Inline c 8 →
    c.u8 0 = 3 →
    c.rsv 1 3 = true →
    isM2 s = false →
    held s .deviceState = false →
    held s .pair = false →
    pendCount s c.mb < 8 →
    driveMode s = true →
    exec (.sysStateRequest c) s = .next (answer 0x0103 c .pending [] (addTrigger .safeStop 0x11 0 (pendAs 0x0103 c [.deviceState] [.config, .deblocked] 3 none s)))) ∧
  (∀ (c : Cmd) (s : State),
    Admits c s [.standby] [.active] →
    Inline c 8 →
    c.u8 0 = 4 →
    c.rsv 1 3 = true →
    isM2 s = false →
    held s .deviceState = false →
    held s .pair = false →
    pendCount s c.mb < 8 →
    unmet s = 0 →
    (leadOf s.tick.len : Int) ≤ (if c.u32 4 = 0 then (leadOf s.tick.len : Int) else boundaryAhead s (c.u32 4)) →
    boundaryFar s (if c.u32 4 = 0 then (leadOf s.tick.len : Int) else boundaryAhead s (c.u32 4)) = false →
    exec (.sysStateRequest c) s = .next (answer 0x0103 c .pending [] (addTrigger .deblocked 0x10 (s.tick.index + (if c.u32 4 = 0 then (leadOf s.tick.len : Int) else boundaryAhead s (c.u32 4)).toNat) (pendAs 0x0103 c [.deviceState] [.standby] 4 none s)))) ∧
  (∀ (c : Cmd) (s : State),
    Admits c s [.standby] [.active] →
    Inline c 8 →
    c.u8 0 = 4 →
    c.rsv 1 3 = true →
    isM2 s = false →
    held s .deviceState = false →
    held s .pair = false →
    pendCount s c.mb < 8 →
    boundaryFar s (if c.u32 4 = 0 then (leadOf s.tick.len : Int) else boundaryAhead s (c.u32 4)) = false →
    unmet s ≠ 0 ∨ (if c.u32 4 = 0 then (leadOf s.tick.len : Int) else boundaryAhead s (c.u32 4)) < (leadOf s.tick.len : Int) →
    exec (.sysStateRequest c) s = .next (answer 0x0103 c .conflict (requestResult (unmet s) s.tick.index) s)) ∧
  (∀ (c : Cmd) (s : State),
    c.mb ≠ 0 →
    Serving s →
    Inline c 8 →
    c.u8 0 = 3 ∨ c.u8 0 = 4 →
    isM2 s = true →
    exec (.sysStateRequest c) s = .next (answer 0x0103 c .notFitted [] s)) ∧
  (∀ (c : Cmd) (s : State),
    Admits c s [.blockedFault] [.active, .standby] →
    Inline c 0 →
    held s .deviceState = false →
    tripStill s = true →
    exec (.sysBlockClear c) s = .next (answer 0x0104 c .tripActive [] s)) ∧
  (∀ (c : Cmd) (s : State),
    Admits c s [.blockedFault] [.active, .standby] →
    Inline c 0 →
    held s .deviceState = false →
    tripStill s = false →
    s.dev.sources.any (fun x => !x.clear || sourceThere s x) = true ∨ s.safe.sf = .sto ∨ s.safe.mLatch = true →
    exec (.sysBlockClear c) s = .next (answer 0x0104 c .conflict [] s)) ∧
  (∀ (c : Cmd) (s : State),
    Admits c s [.blockedFault] [.active, .standby] →
    Inline c 0 →
    held s .deviceState = false →
    tripStill s = false →
    s.dev.sources.any (fun x => !x.clear || sourceThere s x) = false →
    s.safe.sf ≠ .sto →
    s.safe.mLatch = false →
    isM2 s = false →
    ((allPorts s).filter (fun p => (portGet s p).state != .down)).all (fun p => (portGet s p).state == .inService) = true →
    exec (.sysBlockClear c) s = .next (answer 0x0104 c .ok (le 1 (transition .standby 0x13 (fatalClear (blockLatches s))).dev.state.code) (transition .standby 0x13 (fatalClear (blockLatches s))))) ∧
  (∀ (c : Cmd) (s : State),
    Admits c s [.blockedFault] [.active, .standby] →
    Inline c 0 →
    held s .deviceState = false →
    tripStill s = false →
    s.dev.sources.any (fun x => !x.clear || sourceThere s x) = false →
    s.safe.sf ≠ .sto →
    s.safe.mLatch = false →
    isM2 s = true ∨ ((allPorts s).filter (fun p => (portGet s p).state != .down)).all (fun p => (portGet s p).state == .inService) = false →
    exec (.sysBlockClear c) s = .next (answer 0x0104 c .ok (le 1 (transition .config 0x13 (fatalClear (blockLatches s))).dev.state.code) (transition .config 0x13 (fatalClear (blockLatches s))))) ∧
  (∀ (c : Cmd) (s : State),
    Serving s →
    Inline c 4 →
    c.mb ≠ 0 →
    c.u8 0 = 1 ∨ c.u8 0 = 2 →
    c.rsv 1 3 = true →
    s.power.resetReq = none →
    exec (.sysReset c) s = .next (answer 0x0105 c .ok [] (startReset (c.u8 0 == 2) 1 s))) ∧
  (∀ (c : Cmd) (s : State) (r : ResetReq),
    Serving s →
    Inline c 4 →
    c.mb ≠ 0 →
    c.u8 0 = 2 →
    c.rsv 1 3 = true →
    s.power.resetReq = some r →
    r.cold = false →
    exec (.sysReset c) s = .next (answer 0x0105 c .ok [] (sysEvent 0x03 [2, 1] (s.onPower (fun p => { p with resetReq := some ⟨true, 1⟩ }))))) ∧
  (∀ (c : Cmd) (s : State) (r : ResetReq),
    Serving s →
    Inline c 4 →
    c.mb ≠ 0 →
    c.u8 0 = 1 ∨ c.u8 0 = 2 →
    c.rsv 1 3 = true →
    s.power.resetReq = some r →
    c.u8 0 = 1 ∨ r.cold = true →
    exec (.sysReset c) s = .next (answer 0x0105 c .conflict [] (sysEvent 0x04 [] s))) ∧
  (∀ (c : Cmd) (s : State),
    Admits c s [.config] [.active, .standby] →
    Inline c 0 →
    s.power.straps.ftest = true →
    held s .deviceState = false →
    exec (.testEnter c) s = .next (answer 0x7F01 c .ok [] (transition .factoryTest 0x16 s))) ∧
  (∀ (c : Cmd) (s : State),
    Serving s →
    s.power.straps.ftest = false →
    exec (.testEnter c) s = .next (answer 0x7F01 c .badOpcode [] s))

/-- TICK_CONFIG accepted sets the new length, goes PENDING in hand and waits for its boundary; against what is configured, or on a paired unit,
it answers CONFLICT with the mask. The change takes effect at a whole multiple of 4 µs: T is the new length, the index is the time divided
by T, TICK_CHANGED is raised, the command is answered, delays are checked again; before that multiple, or with no length waiting, nothing
changes. TICK_COMMIT below c + L answers CONFLICT with c + L and arms nothing; at c + L (named, or by 0) and up to 1 ms ahead it arms the
commit and awaits its one response; farther ahead, up to 10 s, it arms it and answers PENDING. COMMIT_APPLY with one commit due: matched and
with every staged CRC right the sets become active, with one CRC wrong, or unmatched in a pair, the commit fails; with none due no set
moves. COMMIT_WITHDRAW takes back an unmatched commit of a pair 10 µs before its boundary; in an unpaired unit it changes nothing. -/
def Obligations.TickCommandsStageAndArm : Prop :=
  (∀ (c : Cmd) (s : State),
    Admits c s [.config, .factoryTest] [.active, .standby] →
    Inline c 4 →
    c.u8 0 = 1 ∨ c.u8 0 = 2 ∨ c.u8 0 = 4 →
    c.rsv 1 3 = true →
    tickHeld s = false →
    s.tick.commits = [] →
    s.dev.paired = false →
    tickConflict s (c.u8 0) = 0 →
    exec (.tickConfig c) s = .next (awaitFirst 0x0201 c (pendAs 0x0201 c [.tickLength] [.config, .factoryTest] (c.u8 0) none (s.onTick (fun x => { x with newLen := some (c.u8 0) }))))) ∧
  (∀ (c : Cmd) (s : State),
    Admits c s [.config, .factoryTest] [.active, .standby] →
    Inline c 4 →
    c.u8 0 = 1 ∨ c.u8 0 = 2 ∨ c.u8 0 = 4 →
    c.rsv 1 3 = true →
    tickHeld s = false →
    s.tick.commits = [] →
    s.dev.paired = false →
    tickConflict s (c.u8 0) ≠ 0 →
    exec (.tickConfig c) s = .next (answer 0x0201 c .conflict (le 4 (tickConflict s (c.u8 0)) ++ le 8 0) s)) ∧
  (∀ (c : Cmd) (s : State),
    Admits c s [.config, .factoryTest] [.active, .standby] →
    Inline c 4 →
    c.u8 0 = 1 ∨ c.u8 0 = 2 ∨ c.u8 0 = 4 →
    c.rsv 1 3 = true →
    tickHeld s = false →
    s.tick.commits = [] →
    s.dev.paired = true →
    exec (.tickConfig c) s = .next (answer 0x0201 c .conflict (le 4 0 ++ le 8 0) s)) ∧
  (∀ (s : State) (n : Nat),
    s.tick.newLen = some n →
    s.nowUs % 4 = 0 →
    Serving s →
    s.tick.len ≠ n →
    exec .tickLengthChange s = .next (limitsAgain (endPending (fun p => p.opcode == 0x0201) .ok (le 4 0 ++ le 8 (s.nowUs / n)) (raise 0 0x001 0x0C .notice 0 (words64 ((s.tick.index : Int) - 1) ++ words64 ((s.nowUs / n : Nat) : Int)) (reTick s.tick.index (s.nowUs / n) (oldFrames s.tick.len n s.tick.index (s.onTick (fun x => { x with len := n, newLen := none, index := s.nowUs / n })))))))) ∧
  (∀ (s : State) (n : Nat),
    s.tick.newLen = some n →
    s.nowUs % 4 = 0 →
    Serving s →
    s.tick.len = n →
    exec .tickLengthChange s = .next (limitsAgain (endPending (fun p => p.opcode == 0x0201) .ok (le 4 0 ++ le 8 (s.nowUs / n)) (raise 0 0x001 0x0C .notice 0 (words64 ((s.tick.index : Int) - 1) ++ words64 ((s.nowUs / n : Nat) : Int)) (oldFrames s.tick.len n s.tick.index (s.onTick (fun x => { x with len := n, newLen := none, index := s.nowUs / n }))))))) ∧
  (∀ (s : State),
    s.tick.newLen = none ∨ s.nowUs % 4 ≠ 0 →
    exec .tickLengthChange s = .next s) ∧
  (∀ (c : Cmd) (s : State),
    Admits c s [.config, .standby, .deblocked, .safeStop, .blockedFault, .factoryTest] [.active, .standby] →
    Inline c 12 →
    (setsOf (BitVec.ofNat 9 (c.u32 8))).any (setAbsent s) = false →
    0 < c.u32 8 →
    c.u32 8 < 512 →
    tickHeld s = false →
    (setsOf (BitVec.ofNat 9 (c.u32 8))).any (setHeld s) = false →
    (setObjs (BitVec.ofNat 9 (c.u32 8))).any (held s) = false →
    (BitVec.ofNat 9 (c.u32 8)).getLsbD 3 = false ∨ (held s (.kernels 0) = false ∧ held s (.kernels 1) = false) →
    0 < c.u64 0 →
    c.u64 0 < s.tick.index + leadOf s.tick.len →
    (c.u64 0 - s.tick.index) * s.tick.len ≤ 1000 →
    exec (.tickCommit c) s = .next (answer 0x0202 c .conflict (le 8 (s.tick.index + leadOf s.tick.len) ++ le 8 s.tick.index ++ le 4 (stagedCrc s (BitVec.ofNat 9 (c.u32 8))).toNat) s)) ∧
  (∀ (c : Cmd) (s : State),
    Admits c s [.config, .standby, .deblocked, .safeStop, .blockedFault, .factoryTest] [.active, .standby] →
    Inline c 12 →
    (setsOf (BitVec.ofNat 9 (c.u32 8))).any (setAbsent s) = false →
    0 < c.u32 8 →
    c.u32 8 < 512 →
    tickHeld s = false →
    (setsOf (BitVec.ofNat 9 (c.u32 8))).any (setHeld s) = false →
    (setObjs (BitVec.ofNat 9 (c.u32 8))).any (held s) = false →
    (BitVec.ofNat 9 (c.u32 8)).getLsbD 3 = false ∨ (held s (.kernels 0) = false ∧ held s (.kernels 1) = false) →
    c.u64 0 = 0 →
    leadOf s.tick.len * s.tick.len ≤ 1000 →
    exec (.tickCommit c) s = .next (awaitFirst 0x0202 c (xlSend (.commit (s.tick.index + leadOf s.tick.len) (c.u32 8) (stagedCrc s (BitVec.ofNat 9 (c.u32 8))).toNat) (pendAs 0x0202 c (setObjs (BitVec.ofNat 9 (c.u32 8))) [.config, .standby, .deblocked, .safeStop, .blockedFault, .factoryTest] (s.tick.index + leadOf s.tick.len) none (s.onTick (fun t => { t with commits := t.commits ++ [{ boundary := s.tick.index + leadOf s.tick.len, mask := BitVec.ofNat 9 (c.u32 8), crc := stagedCrc s (BitVec.ofNat 9 (c.u32 8)), matched := s.tick.partner.contains (s.tick.index + leadOf s.tick.len, c.u32 8, (stagedCrc s (BitVec.ofNat 9 (c.u32 8))).toNat), c := s.tick.index }] })))))) ∧
  (∀ (c : Cmd) (s : State),
    Admits c s [.config, .standby, .deblocked, .safeStop, .blockedFault, .factoryTest] [.active, .standby] →
    Inline c 12 →
    (setsOf (BitVec.ofNat 9 (c.u32 8))).any (setAbsent s) = false →
    0 < c.u32 8 →
    c.u32 8 < 512 →
    tickHeld s = false →
    (setsOf (BitVec.ofNat 9 (c.u32 8))).any (setHeld s) = false →
    (setObjs (BitVec.ofNat 9 (c.u32 8))).any (held s) = false →
    (BitVec.ofNat 9 (c.u32 8)).getLsbD 3 = false ∨ (held s (.kernels 0) = false ∧ held s (.kernels 1) = false) →
    0 < c.u64 0 →
    s.tick.index + leadOf s.tick.len ≤ c.u64 0 →
    (c.u64 0 - s.tick.index) * s.tick.len ≤ 1000 →
    exec (.tickCommit c) s = .next (awaitFirst 0x0202 c (xlSend (.commit (c.u64 0) (c.u32 8) (stagedCrc s (BitVec.ofNat 9 (c.u32 8))).toNat) (pendAs 0x0202 c (setObjs (BitVec.ofNat 9 (c.u32 8))) [.config, .standby, .deblocked, .safeStop, .blockedFault, .factoryTest] (c.u64 0) none (s.onTick (fun t => { t with commits := t.commits ++ [{ boundary := c.u64 0, mask := BitVec.ofNat 9 (c.u32 8), crc := stagedCrc s (BitVec.ofNat 9 (c.u32 8)), matched := s.tick.partner.contains (c.u64 0, c.u32 8, (stagedCrc s (BitVec.ofNat 9 (c.u32 8))).toNat), c := s.tick.index }] })))))) ∧
  (∀ (c : Cmd) (s : State),
    Admits c s [.config, .standby, .deblocked, .safeStop, .blockedFault, .factoryTest] [.active, .standby] →
    Inline c 12 →
    (setsOf (BitVec.ofNat 9 (c.u32 8))).any (setAbsent s) = false →
    0 < c.u32 8 →
    c.u32 8 < 512 →
    tickHeld s = false →
    (setsOf (BitVec.ofNat 9 (c.u32 8))).any (setHeld s) = false →
    (setObjs (BitVec.ofNat 9 (c.u32 8))).any (held s) = false →
    (BitVec.ofNat 9 (c.u32 8)).getLsbD 3 = false ∨ (held s (.kernels 0) = false ∧ held s (.kernels 1) = false) →
    0 < c.u64 0 →
    s.tick.index + leadOf s.tick.len ≤ c.u64 0 →
    1000 < (c.u64 0 - s.tick.index) * s.tick.len →
    (c.u64 0 - s.tick.index) * s.tick.len ≤ 10000000 →
    pendCount s c.mb < 8 →
    exec (.tickCommit c) s = .next (answer 0x0202 c .pending (le 8 (c.u64 0) ++ le 8 s.tick.index ++ le 4 (stagedCrc s (BitVec.ofNat 9 (c.u32 8))).toNat) (xlSend (.commit (c.u64 0) (c.u32 8) (stagedCrc s (BitVec.ofNat 9 (c.u32 8))).toNat) (pendAs 0x0202 c (setObjs (BitVec.ofNat 9 (c.u32 8))) [.config, .standby, .deblocked, .safeStop, .blockedFault, .factoryTest] (c.u64 0) none (s.onTick (fun t => { t with commits := t.commits ++ [{ boundary := c.u64 0, mask := BitVec.ofNat 9 (c.u32 8), crc := stagedCrc s (BitVec.ofNat 9 (c.u32 8)), matched := s.tick.partner.contains (c.u64 0, c.u32 8, (stagedCrc s (BitVec.ofNat 9 (c.u32 8))).toNat), c := s.tick.index }] })))))) ∧
  (∀ (s : State) (k : Commit) (good : BitVec 9),
    s.tick.commits.filter (fun k => k.boundary ≤ s.tick.index) = [k] →
    unmatched s k = false →
    k.mask &&& s.tick.staged &&& ~~~good = 0 →
    exec (.commitApply good) s = .next (commitNow k (s.onTick (fun t => { t with commits := s.tick.commits.filter (fun k => s.tick.index < k.boundary), partner := t.partner.filter (fun e => s.tick.index < e.1) })))) ∧
  (∀ (s : State) (k : Commit) (good : BitVec 9),
    s.tick.commits.filter (fun k => k.boundary ≤ s.tick.index) = [k] →
    unmatched s k = false →
    k.mask &&& s.tick.staged &&& ~~~good ≠ 0 →
    exec (.commitApply good) s = .next (commitFail k 0 (s.onTick (fun t => { t with commits := s.tick.commits.filter (fun k => s.tick.index < k.boundary), partner := t.partner.filter (fun e => s.tick.index < e.1) })))) ∧
  (∀ (s : State) (k : Commit) (good : BitVec 9),
    s.tick.commits.filter (fun k => k.boundary ≤ s.tick.index) = [k] →
    unmatched s k = true →
    exec (.commitApply good) s = .next (commitFail k 1 (s.onTick (fun t => { t with commits := s.tick.commits.filter (fun k => s.tick.index < k.boundary), partner := t.partner.filter (fun e => s.tick.index < e.1) })))) ∧
  (∀ (s : State) (good : BitVec 9),
    s.tick.commits.filter (fun k => k.boundary ≤ s.tick.index) = [] →
    exec (.commitApply good) s = .next (s.onTick (fun t => { t with commits := s.tick.commits.filter (fun k => s.tick.index < k.boundary), partner := t.partner.filter (fun e => s.tick.index < e.1) }))) ∧
  (∀ (s : State) (k : Commit),
    s.dev.paired = true →
    s.red.silent = false →
    s.tick.commits.filter (fun k => !k.matched && withdrawDue s.tick.len (k.boundary - s.tick.index)) = [k] →
    exec .commitWithdraw s = .next (commitFail k 1 (s.onTick (fun t => { t with commits := t.commits.filter (fun k => !(!k.matched && withdrawDue s.tick.len (k.boundary - s.tick.index))) })))) ∧
  (∀ (s : State),
    s.dev.paired = false ∨ s.red.silent = true →
    exec .commitWithdraw s = .next s)

/-- Straps: the first sample is kept; two samples that agree latch; two that differ latch what agrees and, for a strap that does not, its
default, and raise the event; once latched, or outside BOOT, a sample changes nothing. The rows of boot, in BOOT, mark themselves done and
set what they name: the PLLs; the AON facts, which are lost where the valid flag was not set; the start of the time bases, from the holdover
counter where that is valid; the dies declared failed, with their messages; a failed SYS die, and the inventory where both copies fail; the
DRAM found and the ring size; the host port. HEARTBEAT counts and ALIVE toggles. BOOT_COMPLETE with every row of Table 3.11 done reports,
reaches CONFIG, builds the capability descriptor and clears both reset marks, and sets the trigger to BLOCKED_FAULT where a fatal source is
left; before that it changes nothing. -/
def Obligations.BootRowsBuildTheDevice : Prop :=
  (∀ (s : State) (a b f : Bool) (u : BitVec 4),
    s.dev.state = .boot →
    s.power.strapDone = false →
    s.power.strapFirst = none →
    exec (.strapSample a b f u) s = .next (s.onPower (fun p => { p with strapFirst := some ⟨a, b, f, u⟩ }))) ∧
  (∀ (s : State) (a b f : Bool) (u : BitVec 4),
    s.dev.state = .boot →
    s.power.strapDone = false →
    s.power.strapFirst = some ⟨a, b, f, u⟩ →
    exec (.strapSample a b f u) s = .next (s.onPower (fun p => { p with straps := ⟨a, b, f, u⟩, strapBad := false, strapDone := true, strapFirst := none }))) ∧
  (∀ (s : State) (x : Straps) (a b f : Bool) (u : BitVec 4),
    s.dev.state = .boot →
    s.power.strapDone = false →
    s.power.strapFirst = some x →
    x ≠ ⟨a, b, f, u⟩ →
    exec (.strapSample a b f u) s = .next (sysEvent 0x07 [strapBits (s.onPower (fun p => { p with straps := { pairsel := if x.pairsel == a then x.pairsel else true, trefsel := if x.trefsel == b then x.trefsel else false, ftest := if x.ftest == f then x.ftest else false, unitid := x.unitid &&& u }, strapBad := true, strapDone := true, strapFirst := none }))] (s.onPower (fun p => { p with straps := { pairsel := if x.pairsel == a then x.pairsel else true, trefsel := if x.trefsel == b then x.trefsel else false, ftest := if x.ftest == f then x.ftest else false, unitid := x.unitid &&& u }, strapBad := true, strapDone := true, strapFirst := none })))) ∧
  (∀ (s : State) (a b f : Bool) (u : BitVec 4),
    s.dev.state ≠ .boot ∨ s.power.strapDone = true →
    exec (.strapSample a b f u) s = .next s) ∧
  (∀ (s : State),
    s.dev.state = .boot →
    exec .bootPllLock s = .next (bootRow 1 (s.onPower (fun p => { p with pll := (List.range 8).filter (fun d => !((s.power.straps.trefsel && !s.power.pll.contains 6) && d == 6)), refLost := p.refLost.filter (· != 0) })))) ∧
  (∀ (s : State),
    s.dev.state = .boot →
    s.power.aonValid = true →
    exec .bootFirmwareStart s = .next (bootRow 2 (s.onPower (fun p => { p with aonLost := false, aonValid := true, holdValid := p.holdValid, stuck := p.stuck, tamper := p.tamper })))) ∧
  (∀ (s : State),
    s.dev.state = .boot →
    s.power.aonValid = false →
    exec .bootFirmwareStart s = .next (bootRow 2 ((s.onPower (fun p => { p with aonLost := true, aonValid := true, holdValid := false, stuck := false, tamper := true })).onSafe (fun x => { x with confSw := none, confCrc := none, sealBase := 0 })))) ∧
  (∀ (s : State),
    s.dev.state = .boot →
    s.time.started = false →
    s.power.holdValid = false →
    exec .bootTimePllLock s = .next ((bootRow 3 (s.onPower (fun p => { p with pll := if p.pll.contains 6 then p.pll else 6 :: p.pll }))).onTime (fun t => { t with started := true }))) ∧
  (∀ (s : State),
    s.dev.state = .boot →
    s.time.started = false →
    s.power.holdValid = true →
    exec .bootTimePllLock s = .next (setQual .restored (31000 + 100000 * (s.power.holdCount / 32768)) ((baseUpd 3 (fun b => { b with val := Stamp.val { sec := s.power.holdBase.sec + s.power.holdCount / 32768, nsec := s.power.holdCount % 32768 * 1000000000 / 32768 } }) (baseUpd 0 (fun b => { b with val := Stamp.val { sec := s.power.holdBase.sec + s.power.holdCount / 32768, nsec := s.power.holdCount % 32768 * 1000000000 / 32768 } }) ((bootRow 3 (s.onPower (fun p => { p with pll := if p.pll.contains 6 then p.pll else 6 :: p.pll }))).onTime (fun t => { t with started := true })))).onTime (fun t => { t with b0 := 31000 + 100000 * (s.power.holdCount / 32768), bSecs := 0, offSecs := s.power.holdCount / 32768 })))) ∧
  (∀ (s : State),
    s.dev.state = .boot →
    s.time.started = true →
    exec .bootTimePllLock s = .next (bootRow 3 (s.onPower (fun p => { p with pll := if p.pll.contains 6 then p.pll else 6 :: p.pll })))) ∧
  (∀ (s : State) (l : List Nat),
    s.dev.state = .boot →
    exec (.bootLinksUp l) s = .next (bootRow 4 (declareFailed l s))) ∧
  (∀ (s : State) (d : Nat),
    s.dev.state = .boot →
    d ≠ 0 →
    dieOk s d = true →
    exec (.bootLinksUp [d]) s = .next (bootRow 4 (raise 0 0x001 0x08 .contained d [] (s.onPower (fun p => { p with dieFailed := p.dieFailed ++ [d] }))))) ∧
  (∀ (s : State) (l : List Nat),
    s.dev.state = .boot →
    exec (.bootSelftestDone ⟨l, false⟩) s = .next (bootRow 5 (declareFailed l (s.onPower (fun p => { p with sysFailed := p.sysFailed || l.contains 0 }))))) ∧
  (∀ (s : State) (l : List Nat),
    s.dev.state = .boot →
    exec (.bootSelftestDone ⟨l, true⟩) s = .next (bootRow 5 (rebuildInventory (declareFailed l (s.onPower (fun p => { p with sysFailed := p.sysFailed || l.contains 0 })))))) ∧
  (∀ (s : State) (a b : Nat),
    s.dev.state = .boot →
    8192 ≤ a + b →
    s.galley.cfg.ring = none →
    exec (.bootDdrTrained a b) s = .next (bootRow 6 ((s.onPower (fun p => { p with dramA := a, dramB := b })).onGalley (fun g => { g with cfg := { g.cfg with ring := some (a + b - 6144) } })))) ∧
  (∀ (s : State) (a b : Nat),
    s.dev.state = .boot →
    a + b < 8192 →
    s.galley.cfg.ring = none →
    exec (.bootDdrTrained a b) s = .next (bootRow 6 ((s.onPower (fun p => { p with dramA := a, dramB := b })).onGalley (fun g => { g with cfg := { g.cfg with ring := some ((a + b) / 2) } })))) ∧
  (∀ (s : State) (a b n : Nat),
    s.dev.state = .boot →
    s.galley.cfg.ring = some n →
    exec (.bootDdrTrained a b) s = .next (bootRow 6 ((s.onPower (fun p => { p with dramA := a, dramB := b })).onGalley (fun g => { g with cfg := { g.cfg with ring := some n } })))) ∧
  (∀ (s : State),
    s.dev.state ≠ .powerDown →
    s.power.perst = false →
    exec .bootPcieReady s = .next (bootRow 7 (cdcRestart (s.onPower (fun p => { p with hostUp := true, refLost := p.refLost.filter (· != 3) }))))) ∧
  (∀ (s : State),
    s.dev.state ≠ .powerDown →
    s.power.bootDone.contains 2 = true →
    exec .heartbeatIncrement s = .next (s.onDev (fun d => { d with heartbeat := d.heartbeat + 1 }))) ∧
  (∀ (s : State),
    s.dev.aliveRun = true →
    exec .aliveToggle s = .next (s.onDev (fun d => { d with alive := !d.alive }))) ∧
  (∀ (s : State),
    s.dev.aliveRun = false →
    exec .aliveToggle s = .next s) ∧
  (∀ (s : State),
    bootReady s = true →
    s.dev.fatal = false →
    (s.dev.sources.any (fun x => x.die == 3 || (x.block == 0x002 && x.kind == 0x02)) && !s.power.warmBoot) = false →
    exec .bootComplete s = .next (capsBuild ((safeBoot (cdcRestart ((transition .config 0x02 ((bootReports (bootUnits s)).onDev (fun d => { d with capsValid := true, reached := true, aliveRun := !d.fatal }))).onGalley (fun g => { g with holeNext := g.holeNext || s.power.warmBoot })))).onPower (fun p => { p with warmBoot := false, coldBoot := false })))) ∧
  (∀ (s : State),
    bootReady s = true →
    s.dev.fatal = true →
    (s.dev.sources.any (fun x => x.die == 3 || (x.block == 0x002 && x.kind == 0x02)) && !s.power.warmBoot) = false →
    exec .bootComplete s = .next (addTrigger .blockedFault 0x30 0 (capsBuild ((safeBoot (cdcRestart ((transition .config 0x02 ((bootReports (bootUnits s)).onDev (fun d => { d with capsValid := true, reached := true, aliveRun := !d.fatal }))).onGalley (fun g => { g with holeNext := g.holeNext || s.power.warmBoot })))).onPower (fun p => { p with warmBoot := false, coldBoot := false }))))) ∧
  (∀ (s : State),
    bootReady s = true →
    s.dev.fatal = true →
    s.dev.sources.any (fun x => x.die == 3 || (x.block == 0x002 && x.kind == 0x02)) = true →
    s.power.warmBoot = false →
    exec .bootComplete s = .next (addTrigger .blockedFault 0x30 0 (capsBuild (protStop 0 ((safeBoot (cdcRestart ((transition .config 0x02 ((bootReports (bootUnits s)).onDev (fun d => { d with capsValid := true, reached := true, aliveRun := !d.fatal }))).onGalley (fun g => { g with holeNext := g.holeNext || s.power.warmBoot })))).onPower (fun p => { p with warmBoot := false, coldBoot := false })))))) ∧
  (∀ (s : State),
    bootReady s = false →
    exec .bootComplete s = .next s)

/-- nPOR accepted: POWER_DOWN, everything but MRAM, the battery domain, host memory and the cells outside at its reset value. nPOR rising: BOOT
with cause 1, its log entry and its event. PERSTn asserted flushes the host crossings and takes the host port down; released, it lets
training start. A rail below its range is a fatal fault and is marked low as long as it stays there; the end of a fault that is latched
clears the mark alone. Losses of references and PLLs raise their message or their fatal fault and mark the reference. The reset button acts
by the length of the press, and not while it is stuck. A reset request starts a reset, turns a waiting warm one into a cold one, and is
discarded with its event otherwise and in BOOT. A reset executes only when its hand-over, block or stop phase is over. Package links that
fail are fatal; host-port errors raise their message. A tamper pulse reads the loop, and the loss of the battery domain loses its facts. In
POWER_DOWN the rows of supplies, references, button and requests change nothing. -/
def Obligations.ResetsAndSuppliesAct : Prop :=
  (∀ (s : State),
    ∃ t, exec .nporAccept s = .next t ∧ t.dev = { variant := s.dev.variant, state := .powerDown } ∧ t.power.npor = true ∧ t.power.hiZ = true ∧ t.power.bootDone = [] ∧ t.mb = {} ∧ t.tick = {} ∧ t.time = {} ∧ t.red = {} ∧ t.pwm = {} ∧ t.net = {} ∧ t.acq = {} ∧ t.galley = {} ∧ t.cells = s.cells ∧ t.host = s.host ∧ t.prot = { log := s.prot.log } ∧ t.aie = { records := s.aie.records, saved := s.aie.saved } ∧ t.safe = coldSafe s.safe ∧ t.spare = keptSpare s.spare ∧ t.tiles = keptTiles s.tiles ∧ t.link = { ports := keptPorts s.link } ∧ t.meas = coldMeas s.meas ∧ t.loop = { lanes := s.loop.lanes } ∧ t.fault = { colCopy := s.fault.colCopy }) ∧
  (∀ (s : State),
    s.dev.state = .powerDown →
    exec .nporRise s = .next (bootEntered .powerDown 0x01 { s with dev := { s.dev with state := .boot, prev := .powerDown, cause := 1, transTick := 0 }, power := { s.power with npor := false, strapFirst := none, strapBad := false, strapDone := false } })) ∧
  (∀ (s : State),
    s.dev.state ≠ .powerDown →
    exec .nporRise s = .next s) ∧
  (∀ (s : State),
    s.dev.state ≠ .powerDown →
    s.power.perst = false →
    exec .perstnAssert s = .next (cdcFlush 0x0D 0 (s.onPower (fun p => { p with perst := true, hostUp := false })))) ∧
  (∀ (s : State),
    exec .perstnRelease s = .next (s.onPower (fun p => { p with perst := false }))) ∧
  (∀ (s : State) (d' r : Nat),
    s.dev.state ≠ .powerDown →
    dieOk s d' = true →
    (railsOf d').contains r = true →
    exec (.railLow d' r true) s = .next (((fatalFault d' 0x002 0x01 r s).onDev (fun d => { d with sources := d.sources.map (fun x => if (fatalSrc d' 0x002 0x01 r).same x then { x with present := true } else x) })).onPower (fun p => { p with railLow := (d' * 16 + r) :: p.railLow.filter (· != d' * 16 + r) }))) ∧
  (∀ (s : State) (d' r : Nat),
    s.dev.state ≠ .powerDown →
    dieOk s d' = true →
    (railsOf d').contains r = true →
    s.dev.sources.any (fun x => (fatalSrc d' 0x002 0x01 r).same x && x.present) = false →
    exec (.railLow d' r false) s = .next (((fatalFault d' 0x002 0x01 r s).onDev (fun d => { d with sources := d.sources.map (fun x => if (fatalSrc d' 0x002 0x01 r).same x then { x with present := false } else x) })).onPower (fun p => { p with railLow := p.railLow.filter (· != d' * 16 + r) }))) ∧
  (∀ (s : State) (d' r : Nat),
    s.dev.state ≠ .powerDown →
    dieOk s d' = true →
    (railsOf d').contains r = true →
    s.dev.sources.any (fun x => (fatalSrc d' 0x002 0x01 r).same x && x.present) = true →
    exec (.railLow d' r false) s = .next (((s).onDev (fun d => { d with sources := d.sources.map (fun x => if (fatalSrc d' 0x002 0x01 r).same x then { x with present := false } else x) })).onPower (fun p => { p with railLow := p.railLow.filter (· != d' * 16 + r) }))) ∧
  (∀ (s : State),
    s.dev.state ≠ .powerDown →
    exec .refclkLost s = .next (fatalFault 0 0x002 0x02 0 (protStop 1 (refGone 0 s)))) ∧
  (∀ (s : State),
    s.dev.state ≠ .powerDown →
    s.power.straps.trefsel = true →
    s.power.timeOnRef = false →
    exec .timerefLost s = .next (raise 0 0x002 0x03 .corrected 0 [] ((refGone 1 s).onPower (fun p => { p with timeOnRef := true })))) ∧
  (∀ (s : State),
    s.power.straps.trefsel = false ∨ s.power.timeOnRef = true →
    exec .timerefLost s = .next s) ∧
  (∀ (s : State),
    exec .timerefReturn s = .next (s.onPower (fun p => { p with timeOnRef := false, refLost := p.refLost.filter (· != 1) }))) ∧
  (∀ (s : State),
    s.dev.state ≠ .powerDown →
    exec .ethRefclkLost s = .next (linkChange 3 false (linkChange 2 false (linkChange 1 false (linkChange 0 false (raise 0 0x002 0x04 .contained 0 [] (refGone 2 s))))))) ∧
  (∀ (s : State),
    s.dev.state ≠ .powerDown →
    exec .pcieRefclkLost s = .next (raise 0 0x002 0x05 .contained 0 [] ((refGone 3 s).onPower (fun p => { p with hostUp := false })))) ∧
  (∀ (s : State),
    exec .xtal32Lost s = .next ((refGone 4 s).onPower (fun p => { p with holdValid := false }))) ∧
  (∀ (s : State) (d : Nat),
    s.dev.state ≠ .powerDown →
    d = 0 ∨ d = 1 ∨ d = 2 ∨ d = 5 →
    s.power.pll.contains d = true →
    exec (.pllUnlock d) s = .next (fatalFault 0 0x002 0x07 d (s.onPower (fun p => { p with pll := p.pll.filter (· != d) })))) ∧
  (∀ (s : State) (b : Bool),
    s.dev.state ≠ .powerDown →
    exec (.rstbtnPressSeen b) s = .next (s.onPower (fun p => { p with btnPress := s.dev.state != .boot && (p.btnArmed || !b) }))) ∧
  (∀ (s : State) (ms : Nat),
    s.dev.state ≠ .powerDown →
    ms < 20 ∨ 30000 < ms ∨ s.power.btnPress = false ∨ s.power.stuck = true →
    exec (.rstbtnReleaseSeen ms) s = .next (s.onPower (fun p => { p with btnPress := false, btnArmed := true }))) ∧
  (∀ (s : State) (ms : Nat),
    s.dev.state ≠ .powerDown →
    s.power.btnPress = true →
    s.power.stuck = false →
    s.power.resetReq = none →
    20 ≤ ms →
    ms ≤ 30000 →
    exec (.rstbtnReleaseSeen ms) s = .next (startReset (decide (5000 < ms)) 0 (s.onPower (fun p => { p with btnPress := false, btnArmed := true })))) ∧
  (∀ (s : State) (ms : Nat),
    s.dev.state ≠ .powerDown →
    s.power.btnPress = true →
    s.power.stuck = false →
    s.power.resetReq ≠ none →
    20 ≤ ms →
    ms ≤ 30000 →
    exec (.rstbtnReleaseSeen ms) s = .next (requestReset (decide (5000 < ms)) 0 (s.onPower (fun p => { p with btnPress := false, btnArmed := true }))).1) ∧
  (∀ (s : State),
    s.dev.state ≠ .powerDown →
    s.power.btnPress = true →
    s.power.stuck = false →
    exec .rstbtnStuck s = .next (sysEvent 0x05 [] (s.onPower (fun p => { p with stuck := true })))) ∧
  (∀ (s : State),
    s.dev.state ≠ .powerDown →
    s.power.stuck = true →
    exec .rstbtnStuckClear s = .next (sysEvent 0x06 [] (s.onPower (fun p => { p with stuck := false })))) ∧
  (∀ (s : State) (cold : Bool) (src : Nat),
    Serving s →
    s.power.resetReq = none →
    exec (.resetRequest cold src) s = .next (startReset cold src s)) ∧
  (∀ (s : State) (src : Nat) (r : ResetReq),
    Serving s →
    s.power.resetReq = some r →
    r.cold = false →
    exec (.resetRequest true src) s = .next (sysEvent 0x03 [2, src] (s.onPower (fun p => { p with resetReq := some ⟨true, src⟩ })))) ∧
  (∀ (s : State) (cold : Bool) (src : Nat) (r : ResetReq),
    Serving s →
    s.power.resetReq = some r →
    cold = false ∨ r.cold = true →
    exec (.resetRequest cold src) s = .next (sysEvent 0x04 [] s)) ∧
  (∀ (s : State) (cold : Bool) (src : Nat),
    s.dev.state = .boot →
    exec (.resetRequest cold src) s = .next (sysEvent 0x04 [] s)) ∧
  (∀ (s : State),
    resetMay s = true →
    exec .resetExecute s = .next (resetStart s)) ∧
  (∀ (s : State),
    resetMay s = false →
    exec .resetExecute s = .next s) ∧
  (∀ (s : State) (k a b : Nat),
    s.dev.state ≠ .powerDown →
    linkDies[k]? = some (a, b) →
    dieOk s a = true →
    dieOk s b = true →
    exec (.packageLinkDown k) s = .next (fatalFault 0 0x003 0x01 k s)) ∧
  (∀ (s : State) (ok : Bool) (w : Word32),
    s.dev.state ≠ .powerDown →
    s.power.hostUp = true →
    exec (.pcieAerError ok w) s = .next (raise 0 0x012 0x01 (if ok then .corrected else .contained) 0 [w.toNat] s)) ∧
  (∀ (s : State),
    s.dev.state = .powerDown →
    exec (.tamperPulse false) s = .next ((s.onPower (fun p => { p with tamperOut := false, tamperOpen := true, tamper := p.tamper || p.tamperOpen, holdCount := if p.holdValid then p.holdCount + 32768 else p.holdCount })).onSafe (fun x => { x with closed := 0 }))) ∧
  (∀ (s : State),
    s.dev.state = .powerDown →
    exec (.tamperPulse true) s = .next ((s.onPower (fun p => { p with tamperOut := false, tamperOpen := false, tamper := p.tamper, holdCount := if p.holdValid then p.holdCount + 32768 else p.holdCount })).onSafe (fun x => { x with closed := min 2 (x.closed + 1) }))) ∧
  (∀ (s : State),
    s.dev.state ≠ .powerDown →
    exec (.tamperPulse false) s = .next (sealUpdate ((s.onPower (fun p => { p with tamperOut := false, tamperOpen := true, tamper := p.tamper || p.tamperOpen, holdCount := if p.holdValid then p.holdCount + 32768 else p.holdCount })).onSafe (fun x => { x with closed := 0 })))) ∧
  (∀ (s : State),
    s.dev.state ≠ .powerDown →
    exec (.tamperPulse true) s = .next (sealUpdate ((s.onPower (fun p => { p with tamperOut := false, tamperOpen := false, tamper := p.tamper, holdCount := if p.holdValid then p.holdCount + 32768 else p.holdCount })).onSafe (fun x => { x with closed := min 2 (x.closed + 1) })))) ∧
  (∀ (s : State),
    exec .aonPowerLoss s = .next ((s.onPower (fun p => { p with aonValid := false, holdValid := false, holdCount := 0, holdBase := {}, stuck := false, tamper := false, tamperOpen := false, tamperOut := false })).onSafe (fun x => { x with confSw := none, confCrc := none, sealBase := 0, closed := 0 }))) ∧
  (∀ (s : State) (d r : Nat) (b : Bool),
    s.dev.state = .powerDown →
    exec (.railLow d r b) s = .next s ∧ exec .refclkLost s = .next s ∧ exec .timerefLost s = .next s ∧ exec .ethRefclkLost s = .next s ∧ exec .pcieRefclkLost s = .next s ∧ exec (.pllUnlock d) s = .next s ∧ exec (.rstbtnPressSeen b) s = .next s ∧ exec (.rstbtnReleaseSeen d) s = .next s ∧ exec .rstbtnStuck s = .next s ∧ exec .rstbtnStuckClear s = .next s ∧ exec (.resetRequest b r) s = .next s ∧ exec .perstnAssert s = .next s ∧ exec .bootPcieReady s = .next s ∧ exec .heartbeatIncrement s = .next s)

/-- With the host able to reach the registers: EN = 1 with both ring bases enables the mailbox; without one it sets RING_ERROR and leaves EN 0.
EN = 0 clears EN and settles ENABLED. A doorbell within 64 entries sets CMD_TAIL; outside it, or with EN 0, it sets RING_ERROR. A head
between the present head and the tail is taken; outside it sets RING_ERROR. While the host cannot reach them (POWER_DOWN, or the host port
down) all four change nothing. The rest of the state is as before, since each next state is given whole. -/
def Obligations.MailboxControlRowsActOnTheirBlock : Prop :=
  (∀ (mb : Fin 8) (v : Word32) (s : State),
    barOn s = true →
    ringBase (mbGet s mb.val).cmdBase = true →
    ringBase (mbGet s mb.val).rspBase = true →
    exec (.mbEnable mb v) s = .next (mbUpd mb.val (fun x => { x with ctrl := (v ||| 1) &&& 3, enabled := true }) s)) ∧
  (∀ (mb : Fin 8) (v : Word32) (s : State),
    barOn s = true →
    ringBase (mbGet s mb.val).cmdBase = false ∨ ringBase (mbGet s mb.val).rspBase = false →
    exec (.mbEnable mb v) s = .next (mbUpd mb.val (fun x => { x with ringErr := true }) (mbUpd mb.val (fun x => { x with ctrl := (v ||| 1) &&& 2 }) s))) ∧
  (∀ (mb : Fin 8) (v : Word32) (s : State),
    barOn s = true →
    exec (.mbDisable mb v) s = .next (settle mb.val (mbUpd mb.val (fun x => { x with ctrl := (v &&& 0xFFFFFFFE) &&& 2 }) s))) ∧
  (∀ (mb : Fin 8) (v : Word32) (s : State),
    barOn s = true →
    (mbGet s mb.val).ctrl.getLsbD 0 = true →
    (v.setWidth 16 - (mbGet s mb.val).cmdHead).toNat ≤ 64 →
    (v.setWidth 16 - (mbGet s mb.val).cmdTail).toNat ≤ 64 →
    exec (.mbDoorbell mb v) s = .next (mbUpd mb.val (fun x => { x with cmdTail := v.setWidth 16 }) s)) ∧
  (∀ (mb : Fin 8) (v : Word32) (s : State),
    barOn s = true →
    (mbGet s mb.val).ctrl.getLsbD 0 = false ∨ 64 < (v.setWidth 16 - (mbGet s mb.val).cmdHead).toNat ∨ 64 < (v.setWidth 16 - (mbGet s mb.val).cmdTail).toNat →
    exec (.mbDoorbell mb v) s = .next (mbUpd mb.val (fun x => { x with ringErr := true }) s)) ∧
  (∀ (mb : Fin 8) (v : Word32) (s : State),
    barOn s = true →
    (v.setWidth 16 - (mbGet s mb.val).rspHead).toNat ≤ ((mbGet s mb.val).rspTail - (mbGet s mb.val).rspHead).toNat →
    exec (.mbRspHeadWrite mb v) s = .next (mbUpd mb.val (fun x => { x with rspHead := v.setWidth 16 }) s)) ∧
  (∀ (mb : Fin 8) (v : Word32) (s : State),
    barOn s = true →
    ((mbGet s mb.val).rspTail - (mbGet s mb.val).rspHead).toNat < (v.setWidth 16 - (mbGet s mb.val).rspHead).toNat →
    exec (.mbRspHeadWrite mb v) s = .next (mbUpd mb.val (fun x => { x with ringErr := true }) s)) ∧
  (∀ (mb : Fin 8) (v : Word32) (s : State),
    barOn s = false →
    exec (.mbEnable mb v) s = .next s ∧ exec (.mbDisable mb v) s = .next s ∧ exec (.mbDoorbell mb v) s = .next s ∧ exec (.mbRspHeadWrite mb v) s = .next s)

/-- COMMAND_FETCH, with no command in hand, moves CMD_HEAD of the mailbox in turn on by one: while the device boots the entry is answered BUSY;
an entry that fails its CRC, its SEQ or the CRC of its block is answered CRC_FAIL, a wrong SEQ sets SEQ_ERROR; an unknown opcode is answered
BAD_OPCODE; a good entry with a known opcode is in hand. With a command in hand, or nothing to fetch, or the host out of reach, it changes
nothing. HELD_RESPONSE_WRITE with room writes the oldest response held and frees the segments its command read; without room, or with none
held, it changes nothing. FINAL_RESPONSE takes the command that is due out of the list, answers it with its outcome and, for a status other
than OK, logs it; with none due it changes nothing. -/
def Obligations.FetchedEntriesAndHeldResponsesMoveOn : Prop :=
  (∀ (e b : Bytes) (n : Nat) (s : State),
    barOn s = true →
    s.dev.state ≠ .boot →
    s.mb.inHand = none →
    nextMailbox s = some n →
    entryCrc e = true →
    entrySeq e (mbGet s n).cmdHead = true →
    blockGood e b = true →
    opcodeKnown (rd e 0 2) = true →
    exec (.commandFetch e b) s = .next ((mbUpd n (fun x => { x with cmdHead := x.cmdHead + 1 }) (s.onMb (fun m => { m with served := if n = 0 then m.served else n }))).onMb (fun m => { m with inHand := some ⟨n, rd e 0 2, rd e 2 2, rd e 7 1, s.tick.index⟩ }))) ∧
  (∀ (e b : Bytes) (n : Nat) (s : State),
    barOn s = true →
    s.dev.state ≠ .boot →
    s.mb.inHand = none →
    nextMailbox s = some n →
    entryCrc e = true →
    entrySeq e (mbGet s n).cmdHead = true →
    blockGood e b = true →
    opcodeKnown (rd e 0 2) = false →
    exec (.commandFetch e b) s = .next (answerEntry n e .badOpcode (mbUpd n (fun x => { x with cmdHead := x.cmdHead + 1 }) (s.onMb (fun m => { m with served := if n = 0 then m.served else n }))))) ∧
  (∀ (e b : Bytes) (n : Nat) (s : State),
    barOn s = true →
    s.dev.state ≠ .boot →
    s.mb.inHand = none →
    nextMailbox s = some n →
    entrySeq e (mbGet s n).cmdHead = true →
    entryCrc e = false ∨ blockGood e b = false →
    exec (.commandFetch e b) s = .next (answerEntry n e .crcFail (mbUpd n (fun x => { x with cmdHead := x.cmdHead + 1 }) (s.onMb (fun m => { m with served := if n = 0 then m.served else n }))))) ∧
  (∀ (e b : Bytes) (n : Nat) (s : State),
    barOn s = true →
    s.dev.state ≠ .boot →
    s.mb.inHand = none →
    nextMailbox s = some n →
    entrySeq e (mbGet s n).cmdHead = false →
    exec (.commandFetch e b) s = .next (answerEntry n e .crcFail (mbUpd n (fun x => { x with seqErr := true }) (mbUpd n (fun x => { x with cmdHead := x.cmdHead + 1 }) (s.onMb (fun m => { m with served := if n = 0 then m.served else n })))))) ∧
  (∀ (e b : Bytes) (n : Nat) (s : State),
    barOn s = true →
    s.dev.state = .boot →
    s.mb.inHand = none →
    nextMailbox s = some n →
    exec (.commandFetch e b) s = .next (answerEntry n e .busy (mbUpd n (fun x => { x with cmdHead := x.cmdHead + 1 }) (s.onMb (fun m => { m with served := if n = 0 then m.served else n }))))) ∧
  (∀ (e b : Bytes) (s : State),
    barOn s = false ∨ s.mb.inHand ≠ none ∨ nextMailbox s = none →
    exec (.commandFetch e b) s = .next s) ∧
  (∀ (mb : Fin 8) (r : Response) (l : List Response) (s : State),
    barOn s = true →
    (mbGet s mb.val).held = r :: l →
    ringRoom (mbGet s mb.val) = true →
    exec (.heldResponseWrite mb) s = .next (settle mb.val (segsFree r.mb r.tag r.seq (writeRsp r (mbUpd mb.val (fun x => { x with held := l }) s))))) ∧
  (∀ (mb : Fin 8) (s : State),
    (mbGet s mb.val).held = [] ∨ ringRoom (mbGet s mb.val) = false ∨ barOn s = false →
    exec (.heldResponseWrite mb) s = .next s) ∧
  (∀ (mb : Fin 8) (p : PendingCmd) (r : Bytes) (k : Nat) (s : State),
    finalDue s mb.val = some (p, .ok, r, k) →
    exec (.finalResponse mb) s = .next (settle mb.val (release p.mb p.tag p.seq (respond ⟨p.mb, p.opcode, p.tag, p.seq, .ok, true, k, r.take 44⟩ (s.onMb (fun m => { m with pend := m.pend.erase p })))))) ∧
  (∀ (mb : Fin 8) (p : PendingCmd) (st : Status) (r : Bytes) (k : Nat) (s : State),
    finalDue s mb.val = some (p, st, r, k) →
    st ≠ .ok →
    exec (.finalResponse mb) s = .next (settle mb.val (release p.mb p.tag p.seq (logAdd p.opcode (st.code % 256) (st.code / 256) p.mb (respond ⟨p.mb, p.opcode, p.tag, p.seq, st, true, k, r.take 44⟩ (s.onMb (fun m => { m with pend := m.pend.erase p }))))))) ∧
  (∀ (mb : Fin 8) (s : State),
    finalDue s mb.val = none →
    exec (.finalResponse mb) s = .next s)

/-- A 32-bit write of either half of a ring base of a mailbox that is not enabled stores it, of one that is enabled is ignored; MBn_STATUS
clears by ones; MBn_CTRL, MBn_RSP_HEAD and the doorbell act as their own rows; the event queue head, enable and status, the increments and
TIME_STAT act as theirs; any other offset, and an offset that is no multiple of 4, ignores the write. A write narrower than 32 bits, or with
the host out of reach, changes nothing. Reads with side effects: the latch of a time base, the pop of a time stamp, FATAL_CAUSE_LO, the
monitoring window; each changes nothing with the host out of reach. EVQ enable and head; an increment of TBn_INC_HI within its limits on a
base that nothing steers is applied, one outside them or on a steered base sets INC_ERR. -/
def Obligations.RegisterRowsReadAndWrite : Prop :=
  (∀ (n : Nat) (v : Word32) (s : State),
    barOn s = true →
    n < 8 →
    (mbGet s n).enabled = false →
    exec (.registerWrite (0x1000 + 64 * n) 32 v) s = .next (mbUpd n (fun x => { x with cmdBase := BitVec.ofNat 64 (x.cmdBase.toNat / 2 ^ 32 * 2 ^ 32 + v.toNat) }) s)) ∧
  (∀ (n : Nat) (v : Word32) (s : State),
    barOn s = true →
    n < 8 →
    (mbGet s n).enabled = false →
    exec (.registerWrite (0x1004 + 64 * n) 32 v) s = .next (mbUpd n (fun x => { x with cmdBase := BitVec.ofNat 64 (v.toNat * 2 ^ 32 + x.cmdBase.toNat % 2 ^ 32) }) s)) ∧
  (∀ (n : Nat) (v : Word32) (s : State),
    barOn s = true →
    n < 8 →
    (mbGet s n).enabled = false →
    exec (.registerWrite (0x1008 + 64 * n) 32 v) s = .next (mbUpd n (fun x => { x with rspBase := BitVec.ofNat 64 (x.rspBase.toNat / 2 ^ 32 * 2 ^ 32 + v.toNat) }) s)) ∧
  (∀ (n : Nat) (v : Word32) (s : State),
    barOn s = true →
    n < 8 →
    (mbGet s n).enabled = false →
    exec (.registerWrite (0x100C + 64 * n) 32 v) s = .next (mbUpd n (fun x => { x with rspBase := BitVec.ofNat 64 (v.toNat * 2 ^ 32 + x.rspBase.toNat % 2 ^ 32) }) s)) ∧
  (∀ (n i : Nat) (v : Word32) (s : State),
    n < 8 →
    i < 4 →
    (mbGet s n).enabled = true →
    exec (.registerWrite (0x1000 + 64 * n + 4 * i) 32 v) s = .next s) ∧
  (∀ (n : Nat) (v : Word32) (s : State),
    barOn s = true →
    n < 8 →
    exec (.registerWrite (0x1010 + 64 * n) 32 v) s = .next (mbCtrlWrite n v s)) ∧
  (∀ (n : Nat) (v : Word32) (s : State),
    barOn s = true →
    n < 8 →
    exec (.registerWrite (0x1020 + 64 * n) 32 v) s = .next (rspHeadWrite n v s)) ∧
  (∀ (n : Nat) (v : Word32) (s : State),
    barOn s = true →
    n < 8 →
    exec (.registerWrite (0x1024 + 64 * n) 32 v) s = .next (doorbellWrite n v s)) ∧
  (∀ (n : Nat) (v : Word32) (s : State),
    barOn s = true →
    n < 8 →
    exec (.registerWrite (0x1028 + 64 * n) 32 v) s = .next (mbUpd n (fun x => { x with ringErr := x.ringErr && !v.getLsbD 2, seqErr := x.seqErr && !v.getLsbD 1 }) s)) ∧
  (∀ (v : Word32) (s : State),
    barOn s = true →
    exec (.registerWrite 0x2004 32 v) s = .next (evqHeadWrite v s) ∧ exec (.registerWrite 0x2008 32 v) s = .next (evqCtrlWrite v s) ∧ exec (.registerWrite 0x200C 32 v) s = .next (s.onFault (fun f => { f with overrun := f.overrun && !v.getLsbD 2, lost := f.lost && !v.getLsbD 1 })) ∧ exec (.registerWrite 0x4200 32 v) s = .next (s.onTime (fun t => { t with incErr := t.incErr &&& ~~~(v.setWidth 4), stampLost := t.stampLost && !v.getLsbD 4 }))) ∧
  (∀ (n : Fin 4) (v : Word32) (s : State),
    barOn s = true →
    exec (.registerWrite (0x4100 + 16 * n.val) 32 v) s = .next (s.onTime (fun t => { t with incLo := tset t.incLo n.val v.toNat })) ∧ exec (.registerWrite (0x4104 + 16 * n.val) 32 v) s = .next (tbIncWrite n.val v s)) ∧
  (∀ (off : Nat) (v : Word32) (s : State),
    off % 4 ≠ 0 ∨ off < 0x1000 ∨ (0x1200 ≤ off ∧ off < 0x2000) ∨ 0x5000 ≤ off →
    exec (.registerWrite off 32 v) s = .next s) ∧
  (∀ (off w : Nat) (v : Word32) (s : State),
    barOn s = false ∨ w < 32 →
    exec (.registerWrite off w v) s = .next s) ∧
  (∀ (n : Fin 4) (s : State),
    barOn s = true →
    exec (.tbTimeLatchRead n) s = .next (s.onTime (fun t => { t with latch := tset t.latch n (stampOf (base s n).val) }))) ∧
  (∀ (s : State),
    barOn s = true →
    exec .tsPop s = .next (s.onTime (fun t => { t with tsLatch := t.stamps.head?, stamps := t.stamps.drop 1 }))) ∧
  (∀ (s : State),
    barOn s = true →
    exec .fatalCauseRead s = .next (s.onFault (fun f => { f with causeHi := (f.cause >>> 32).setWidth 32 }))) ∧
  (∀ (m : Fin 32) (s : State),
    barOn s = true →
    exec (.monWindowRead m) s = .next (monUpd m.val (fun x => { x with latch := x.vals }) s)) ∧
  (∀ (v : Word32) (s : State),
    barOn s = true →
    exec (.evqEnableWrite v) s = .next (s.onFault (fun f => { f with ctrl := v &&& 3 }))) ∧
  (∀ (v : Word32) (s : State),
    barOn s = true →
    (v.setWidth 16 - s.fault.head).toNat ≤ (s.fault.tail - s.fault.head).toNat →
    exec (.evqHeadWrite v) s = .next (s.onFault (fun f => { f with head := v.setWidth 16 }))) ∧
  (∀ (v : Word32) (s : State),
    (s.fault.tail - s.fault.head).toNat < (v.setWidth 16 - s.fault.head).toNat →
    exec (.evqHeadWrite v) s = .next s) ∧
  (∀ (n : Fin 4) (m : Fin 32) (v : Word32) (s : State),
    barOn s = false →
    exec (.tbTimeLatchRead n) s = .next s ∧ exec .tsPop s = .next s ∧ exec .fatalCauseRead s = .next s ∧ exec (.monWindowRead m) s = .next s ∧ exec (.evqEnableWrite v) s = .next s ∧ exec (.evqHeadWrite v) s = .next s ∧ exec (.tbIncApply n v) s = .next s) ∧
  (∀ (n : Fin 4) (v : Word32) (s : State),
    barOn s = true →
    ((s.dev.paired && workRole s == .standby && (n.val == 1 || n.val == 2 || (n.val == 0 && s.red.follow))) || (n.val == 0 && s.time.cfg.mode) || (n.val == 2 && s.time.cfg.linkTrack)) = false →
    0x1FFF2E48F ≤ v.toNat % 256 * 2 ^ 32 + tget 0 s.time.incLo n.val →
    v.toNat % 256 * 2 ^ 32 + tget 0 s.time.incLo n.val ≤ 0x2000D1B71 →
    exec (.tbIncApply n v) s = .next (baseUpd n.val (fun b => { b with inc := v.toNat % 256 * 2 ^ 32 + tget 0 s.time.incLo n.val }) s)) ∧
  (∀ (n : Fin 4) (v : Word32) (s : State),
    barOn s = true →
    ((s.dev.paired && workRole s == .standby && (n.val == 1 || n.val == 2 || (n.val == 0 && s.red.follow))) || (n.val == 0 && s.time.cfg.mode) || (n.val == 2 && s.time.cfg.linkTrack)) = true ∨ v.toNat % 256 * 2 ^ 32 + tget 0 s.time.incLo n.val < 0x1FFF2E48F ∨ 0x2000D1B71 < v.toNat % 256 * 2 ^ 32 + tget 0 s.time.incLo n.val →
    exec (.tbIncApply n v) s = .next (s.onTime (fun t => { t with incErr := t.incErr ||| (1#4 <<< n.val) })))

/-- MON_ATTACH of a fitted point sets ON, SIGNED, the point, lo, w and the limit, and starts the window anew; of a point whose unit is absent it
answers NOT_FITTED. MON_RESET starts the windows of its mask anew; MON_READ writes the windows and their CRC into the buffer. A sample takes
part in the statistics; beyond the limit it marks the hit and, once in 1,024 ticks, raises MON_OVER with the value and the count, and counts
in between; within the limit it raises nothing. On a monitor that is off, in BOOT, or on a point that is not fitted, it changes nothing. -/
def Obligations.MonitorsAttachSampleAndRead : Prop :=
  (∀ (c : Cmd) (s : State),
    Serving s →
    Inline c 20 →
    c.mb ≠ 0 →
    c.u8 0 < 32 →
    c.u8 1 < 4 →
    c.u16 2 % 4096 < pointCount (c.u16 2 / 4096) →
    pointFitted s (c.u16 2 / 4096) (c.u16 2 % 4096) = true →
    1 ≤ c.u32 8 →
    c.u32 8 < 2 ^ 31 →
    c.rsv 16 4 = true →
    exec (.monAttach c) s = .next (answer 0x1301 c .ok (le 8 s.tick.index) (monUpd (c.u8 0) (fun x => monReset s.tick.index { x with on := bit (c.u8 1) 0, signed := bit (c.u8 1) 1, point := c.u16 2, lo := c.u32 4, w := c.u32 8, limit := c.u32 12 }) s))) ∧
  (∀ (c : Cmd) (s : State),
    Serving s →
    Inline c 20 →
    c.mb ≠ 0 →
    c.u16 2 % 4096 < pointCount (c.u16 2 / 4096) →
    pointFitted s (c.u16 2 / 4096) (c.u16 2 % 4096) = false →
    exec (.monAttach c) s = .next (answer 0x1301 c .notFitted [] s)) ∧
  (∀ (c : Cmd) (s : State),
    Serving s →
    Inline c 8 →
    c.mb ≠ 0 →
    c.u32 0 ≠ 0 →
    c.rsv 4 4 = true →
    exec (.monReset c) s = .next (answer 0x1302 c .ok (le 8 s.tick.index) (((List.range 32).filter (bit (c.u32 0))).foldl (fun t m => monUpd m (monReset s.tick.index) t) s))) ∧
  (∀ (c : Cmd) (s : State),
    Serving s →
    Inline c 12 →
    c.mb ≠ 0 →
    1 ≤ c.u8 1 →
    c.u8 0 + c.u8 1 ≤ 32 →
    c.rsv 2 2 = true →
    c.u64 4 % 64 = 0 →
    c.u64 4 ≠ 0 →
    exec (.monRead c) s = .next (answer 0x1303 c .ok (le 4 (withCrc ((List.range (c.u8 1)).flatMap (fun i => monWindow (monGet s (c.u8 0 + i))))).length ++ le 8 s.tick.index) (putBuf (c.u64 4) (withCrc ((List.range (c.u8 1)).flatMap (fun i => monWindow (monGet s (c.u8 0 + i))))) s))) ∧
  (∀ (m : Fin 32) (v : Word32) (s : State),
    (monGet s m.val).on = true →
    notBoot s.dev.state = true →
    pointFitted s ((monGet s m.val).point / 4096) ((monGet s m.val).point % 4096) = true →
    (monVal (monGet s m.val) (pointValue s ((monGet s m.val).point / 4096) ((monGet s m.val).point % 4096) v)) ≤ (monVal (monGet s m.val) (monGet s m.val).limit) →
    exec (.monitorSample m v) s = .next (monUpd m.val (fun y => { y with vals := (monTake (monGet s m.val) (monVal (monGet s m.val) (pointValue s ((monGet s m.val).point / 4096) ((monGet s m.val).point % 4096) v))).1, stopped := y.stopped || (monTake (monGet s m.val) (monVal (monGet s m.val) (pointValue s ((monGet s m.val).point / 4096) ((monGet s m.val).point % 4096) v))).2, hit := y.hit, excess := (monGet s m.val).excess, overWin := y.overWin }) s)) ∧
  (∀ (m : Fin 32) (v : Word32) (s : State),
    (monGet s m.val).on = true →
    notBoot s.dev.state = true →
    pointFitted s ((monGet s m.val).point / 4096) ((monGet s m.val).point % 4096) = true →
    (monVal (monGet s m.val) (monGet s m.val).limit) < (monVal (monGet s m.val) (pointValue s ((monGet s m.val).point / 4096) ((monGet s m.val).point % 4096) v)) →
    firstIn (monGet s m.val).overWin s.tick.index = true →
    exec (.monitorSample m v) s = .next (raise 0 0x043 0x09 .notice m.val [(pointValue s ((monGet s m.val).point / 4096) ((monGet s m.val).point % 4096) v), 1] (monUpd m.val (fun y => { y with vals := (monTake (monGet s m.val) (monVal (monGet s m.val) (pointValue s ((monGet s m.val).point / 4096) ((monGet s m.val).point % 4096) v))).1, stopped := y.stopped || (monTake (monGet s m.val) (monVal (monGet s m.val) (pointValue s ((monGet s m.val).point / 4096) ((monGet s m.val).point % 4096) v))).2, hit := true, excess := 1, overWin := some s.tick.index }) s))) ∧
  (∀ (m : Fin 32) (v : Word32) (s : State),
    (monGet s m.val).on = true →
    notBoot s.dev.state = true →
    pointFitted s ((monGet s m.val).point / 4096) ((monGet s m.val).point % 4096) = true →
    (monVal (monGet s m.val) (monGet s m.val).limit) < (monVal (monGet s m.val) (pointValue s ((monGet s m.val).point / 4096) ((monGet s m.val).point % 4096) v)) →
    firstIn (monGet s m.val).overWin s.tick.index = false →
    exec (.monitorSample m v) s = .next (monUpd m.val (fun y => { y with vals := (monTake (monGet s m.val) (monVal (monGet s m.val) (pointValue s ((monGet s m.val).point / 4096) ((monGet s m.val).point % 4096) v))).1, stopped := y.stopped || (monTake (monGet s m.val) (monVal (monGet s m.val) (pointValue s ((monGet s m.val).point / 4096) ((monGet s m.val).point % 4096) v))).2, hit := true, excess := (monGet s m.val).excess + 1, overWin := y.overWin }) s)) ∧
  (∀ (m : Fin 32) (v : Word32) (s : State),
    (monGet s m.val).on = false ∨ notBoot s.dev.state = false ∨ pointFitted s ((monGet s m.val).point / 4096) ((monGet s m.val).point % 4096) = false →
    exec (.monitorSample m v) s = .next s)

/-- A handshake that has not closed after 1,000 ns holds the crossing and raises CDC_STALL with the time; a second report of the same stall, a
shorter time, a crossing without handshakes or one that is not there changes nothing. 256 pairs of samples that disagree raise CDC_UNSTABLE
once for the episode; fewer end the episode. -/
def Obligations.CrossingEventsRaiseOnce : Prop :=
  (∀ (d k i ns : Nat) (s : State),
    dieOk s d = true →
    cdcOn d k = true →
    cdcDs k = false →
    cdcLv k = false →
    (cdcGet s d k i).stalled = false →
    1000 ≤ ns →
    cdcWaits k = false ∨ (cdcGet s d k i).isOpen = true →
    exec (.cdcStall d k i ns) s = .next (raise d 0x042 0x04 .contained (i % 256 * 256 + k) [ns] (cdcUpd d k i (fun y => { y with stalled := true, held := true }) s))) ∧
  (∀ (d k i ns : Nat) (s : State),
    (cdcGet s d k i).stalled = true ∨ ns < 1000 ∨ cdcOn d k = false ∨ cdcDs k = true ∨ cdcLv k = true →
    exec (.cdcStall d k i ns) s = .next s) ∧
  (∀ (d k i n : Nat) (s : State),
    dieOk s d = true →
    cdcOn d k = true →
    cdcDs k = true →
    (cdcGet s d k i).unstable = false →
    256 ≤ n →
    exec (.cdcUnstable d k i n) s = .next (raise d 0x042 0x03 .notice (i % 256 * 256 + k) [min n 0xFFFFFFFF] (cdcUpd d k i (fun y => { y with unstable := true }) s))) ∧
  (∀ (d k i n : Nat) (s : State),
    (cdcGet s d k i).unstable = true →
    256 ≤ n →
    exec (.cdcUnstable d k i n) s = .next s) ∧
  (∀ (d k i n : Nat) (s : State),
    dieOk s d = true →
    cdcOn d k = true →
    cdcDs k = true →
    n < 256 →
    exec (.cdcUnstable d k i n) s = .next (cdcUpd d k i (fun y => { y with unstable := false }) s))

/-- A boundary, once converter tick time has started, gives the state that opens the next tick, each part of the boundary in its order; before
that it changes nothing. An input crossing marks itself done and lets signals enter, in a replay the recorded ones; a second one in the tick
changes nothing. An output crossing before the input crossing, or a second one, changes nothing; else it marks itself done and lets commands
leave, in a replay to the comparison. A replay begins at its boundary with the image named, ends in CONFIG once it has an outcome or its
input is late, and DEVICE_STATE_TRANSITION and DEBLOCK_ENTER act on the triggers due. -/
def Obligations.TickRowsRunTheSequencer : Prop :=
  (∀ (s : State),
    ticking s = true →
    exec .tickBoundary s = .next (cdcOverruns (lanesBoundary (confBoundary (rolesBoundary (healthBoundary (rampBoundary (zeroEdges (lateAnswer (advanceTime (s.tick.len - s.tick.past) (cellsBoundary (s.tick.len - s.tick.past) (tickOpens (episodesEnd s))))))))))))) ∧
  (∀ (s : State),
    ticking s = false →
    exec .tickBoundary s = .next s) ∧
  (∀ (s : State),
    ticking s = true →
    s.tick.inDone = false →
    replaying s = false →
    exec .inputCrossing s = .next (inputCross (s.onTick (fun t => { t with inDone := true })))) ∧
  (∀ (s : State) (r : Replay),
    ticking s = true →
    s.tick.inDone = false →
    s.galley.replay = some r →
    r.saved.isSome = true →
    r.outcome = none →
    exec .inputCrossing s = .next (replayIn r (s.onTick (fun t => { t with inDone := true })))) ∧
  (∀ (s : State),
    ticking s = false ∨ s.tick.inDone = true →
    exec .inputCrossing s = .next s) ∧
  (∀ (late : BitVec 12) (e : Nat) (s : State),
    ticking s = true →
    s.tick.inDone = true →
    s.tick.outDone = false →
    replaying s = false →
    exec (.outputCrossing late e) s = .next (outputCross late e (s.onTick (fun t => { t with outDone := true })))) ∧
  (∀ (late : BitVec 12) (e : Nat) (s : State) (r : Replay),
    ticking s = true →
    s.tick.inDone = true →
    s.tick.outDone = false →
    s.galley.replay = some r →
    r.saved.isSome = true →
    r.outcome = none →
    exec (.outputCrossing late e) s = .next (replayOut late r (s.onTick (fun t => { t with outDone := true })))) ∧
  (∀ (late : BitVec 12) (e : Nat) (s : State),
    ticking s = false ∨ s.tick.inDone = false ∨ s.tick.outDone = true →
    exec (.outputCrossing late e) s = .next s) ∧
  (∀ (s : State) (r : Replay) (m : CtlImage),
    s.galley.replay = some r →
    s.dev.state = .config →
    r.saved = none →
    r.boundary ≤ s.tick.index →
    replayImage s r.slot r.image = some m →
    exec .replayEnter s = .next (recEvent 0x06 r.slot [r.image, r.boundary] (transition .replay 0x14 (tookPending (fun p => p.opcode == 0x1104) (installSets m.sets (installImage m (replayUpd (fun x => { x with saved := some (ctlImage s), tick := r.image + 1 }) s))))))) ∧
  (∀ (s : State),
    s.galley.replay = none ∨ s.dev.state ≠ .config →
    exec .replayEnter s = .next s) ∧
  (∀ (s : State),
    s.dev.state = .replay →
    s.galley.replay.any (fun r => r.outcome.isSome) = true →
    exec (.replayEnd false) s = .next (transition .config 0x15 s)) ∧
  (∀ (s : State),
    s.dev.state = .replay →
    s.galley.replay.any (fun r => r.outcome.isSome) = false →
    exec (.replayEnd false) s = .next s) ∧
  (∀ (s : State) (r : Replay),
    s.dev.state = .replay →
    s.galley.replay = some r →
    exec (.replayEnd true) s = .next (transition .config 0x15 (replayOutcome 4 s))) ∧
  (∀ (s : State) (b : Bool),
    s.dev.state ≠ .replay →
    exec (.replayEnd b) s = .next s) ∧
  (∀ (s : State),
    exec .deviceStateTransition s = .next (actTriggers false s) ∧ exec .deblockEnter s = .next (actTriggers true s))

/-- In the states and roles of Table 6.17, of a port that is fitted and not LOST. CELL_PORT_UP of a port that is DOWN and has rostered cells
stores the asymmetry, and the trims of an external block or none, starts the port and answers PENDING with its result; of a port asleep it
wakes the port and answers PENDING; of a port in another state, or DOWN without cells, it answers CONFLICT with the result and changes
nothing. While the port is held it answers BUSY; of a port that is absent or LOST all four answer NOT_FITTED. CELL_PORT_DOWN of depth 0
takes the port DOWN; a sleep depth of a port in service or asleep sends SLEEP in four copies and moves the port to that sleep state; of a
port that is DOWN, or a sleep depth of one that is neither in service nor asleep, it answers CONFLICT. CELL_RANGE_READ gives the result, and
writes the entries and their CRC where a buffer is named. CELL_PORT_REMAP of kind 1 begins shadowing and answers PENDING when the spare
takes over; kind 2 makes the cells unreachable, takes the spare and starts the port; EXHAUSTED where the spare of the die is taken; CONFLICT
of a port that is DOWN or on its spare. -/
def Obligations.PortCommandsMoveThePort : Prop :=
  (∀ (c : Cmd) (s : State),
    Admits c s [.config, .standby, .blockedFault, .factoryTest] [.active, .standby] →
    Inline c 4 →
    c.u8 0 < 32 →
    portOk s (c.u8 0) = true →
    c.rsv 1 1 = true →
    (c.s16 2).natAbs ≤ 6400 →
    held s (.port (c.u8 0)) = false →
    pendCount s c.mb < 8 →
    (portGet s (c.u8 0)).state = .down →
    (portCells s (c.u8 0)).isEmpty = false →
    exec (.cellPortUp c) s = .next (answer 0x0301 c .pending (portResult (portStart (c.u8 0) (portUpd (c.u8 0) (fun x => { x with asym := c.s16 2, trims := [] }) s)) (c.u8 0)) (pendAs 0x0301 c [.port (c.u8 0)] [.config, .standby, .blockedFault, .factoryTest] (c.u8 0) none (portStart (c.u8 0) (portUpd (c.u8 0) (fun x => { x with asym := c.s16 2, trims := [] }) s))))) ∧
  (∀ (c : Cmd) (s : State),
    Admits c s [.config, .standby, .blockedFault, .factoryTest] [.active, .standby] →
    External c (fun l => l == 260) →
    c.u8 0 < 32 →
    portOk s (c.u8 0) = true →
    c.rsv 1 1 = true →
    (readTrims c.params 128).all (fun t => decide ((c.s16 2 + t.2).natAbs ≤ 6400)) = true →
    held s (.port (c.u8 0)) = false →
    pendCount s c.mb < 8 →
    (portGet s (c.u8 0)).state = .down →
    (portCells s (c.u8 0)).isEmpty = false →
    exec (.cellPortUp c) s = .next (answer 0x0301 c .pending (portResult (portStart (c.u8 0) (portUpd (c.u8 0) (fun x => { x with asym := c.s16 2, trims := readTrims c.params 128 }) s)) (c.u8 0)) (pendAs 0x0301 c [.port (c.u8 0)] [.config, .standby, .blockedFault, .factoryTest] (c.u8 0) none (portStart (c.u8 0) (portUpd (c.u8 0) (fun x => { x with asym := c.s16 2, trims := readTrims c.params 128 }) s))))) ∧
  (∀ (c : Cmd) (s : State),
    Admits c s [.config, .standby, .blockedFault, .factoryTest] [.active, .standby] →
    Inline c 4 →
    c.u8 0 < 32 →
    portOk s (c.u8 0) = true →
    c.rsv 1 1 = true →
    held s (.port (c.u8 0)) = false →
    pendCount s c.mb < 8 →
    (portGet s (c.u8 0)).state.asleep = true →
    exec (.cellPortUp c) s = .next (answer 0x0301 c .pending (portResult s (c.u8 0)) (pendAs 0x0301 c [.port (c.u8 0)] [.config, .standby, .blockedFault, .factoryTest] (c.u8 0) none (portWake (c.u8 0) s)))) ∧
  (∀ (c : Cmd) (s : State),
    Admits c s [.config, .standby, .blockedFault, .factoryTest] [.active, .standby] →
    Inline c 4 →
    c.u8 0 < 32 →
    portOk s (c.u8 0) = true →
    c.rsv 1 1 = true →
    (c.s16 2).natAbs ≤ 6400 →
    held s (.port (c.u8 0)) = false →
    pendCount s c.mb < 8 →
    (portGet s (c.u8 0)).state.asleep = false →
    (portGet s (c.u8 0)).state ≠ .down ∨ (portCells s (c.u8 0)).isEmpty = true →
    exec (.cellPortUp c) s = .next (answer 0x0301 c .conflict (portResult s (c.u8 0)) s)) ∧
  (∀ (c : Cmd) (s : State),
    Admits c s [.config, .standby, .blockedFault, .factoryTest] [.active, .standby] →
    Inline c 4 →
    c.u8 0 < 32 →
    portOk s (c.u8 0) = true →
    c.rsv 1 1 = true →
    (c.s16 2).natAbs ≤ 6400 →
    held s (.port (c.u8 0)) = true →
    exec (.cellPortUp c) s = .next (answer 0x0301 c .busy [] s)) ∧
  (∀ (c : Cmd) (s : State),
    Serving s →
    Inline c 4 →
    c.mb ≠ 0 →
    c.u8 0 < 32 →
    portOk s (c.u8 0) = false →
    exec (.cellPortUp c) s = .next (answer 0x0301 c .notFitted [] s) ∧ exec (.cellPortDown c) s = .next (answer 0x0302 c .notFitted [] s) ∧ exec (.cellPortRemap c) s = .next (answer 0x0304 c .notFitted [] s)) ∧
  (∀ (c : Cmd) (s : State),
    Admits c s [.config, .standby, .blockedFault, .factoryTest] [.active, .standby] →
    Inline c 4 →
    c.u8 0 < 32 →
    portOk s (c.u8 0) = true →
    c.rsv 2 2 = true →
    remapHolds s (c.u8 0) = false →
    c.u8 1 = 0 →
    (portGet s (c.u8 0)).state ≠ .down →
    exec (.cellPortDown c) s = .next (answer 0x0302 c .ok (le 1 0) (portDown (c.u8 0) 0 s))) ∧
  (∀ (c : Cmd) (s : State),
    Admits c s [.config, .standby, .blockedFault, .factoryTest] [.active, .standby] →
    Inline c 4 →
    c.u8 0 < 32 →
    portOk s (c.u8 0) = true →
    c.rsv 2 2 = true →
    remapHolds s (c.u8 0) = false →
    1 ≤ c.u8 1 →
    c.u8 1 < 4 →
    (portGet s (c.u8 0)).state = .inService ∨ (portGet s (c.u8 0)).state.asleep = true →
    exec (.cellPortDown c) s = .next (answer 0x0302 c .ok (le 1 (if c.u8 1 = 1 then PortState.sleepD else if c.u8 1 = 2 then .sleepU else .sleepDU).code) (setPortState (c.u8 0) (if c.u8 1 = 1 then PortState.sleepD else if c.u8 1 = 2 then .sleepU else .sleepDU) (sendMsg (c.u8 0) (.sleep (decide (2 ≤ c.u8 1)) (decide (c.u8 1 % 2 = 1))) 4 s)))) ∧
  (∀ (c : Cmd) (s : State),
    Admits c s [.config, .standby, .blockedFault, .factoryTest] [.active, .standby] →
    Inline c 4 →
    c.u8 0 < 32 →
    portOk s (c.u8 0) = true →
    c.rsv 2 2 = true →
    remapHolds s (c.u8 0) = false →
    c.u8 1 < 4 →
    (portGet s (c.u8 0)).state = .down ∨ (c.u8 1 ≠ 0 ∧ (portGet s (c.u8 0)).state ≠ .inService ∧ (portGet s (c.u8 0)).state.asleep = false) →
    exec (.cellPortDown c) s = .next (answer 0x0302 c .conflict [] s)) ∧
  (∀ (c : Cmd) (s : State),
    Serving s →
    Inline c 12 →
    c.mb ≠ 0 →
    c.u8 0 < 32 →
    portOk s (c.u8 0) = true →
    c.rsv 1 3 = true →
    c.u64 4 = 0 →
    exec (.cellRangeRead c) s = .next (answer 0x0303 c .ok (le 1 (portGet s (c.u8 0)).state.code ++ le 1 (portGet s (c.u8 0)).spare ++ le 2 (portGet s (c.u8 0)).minOff ++ le 4 ((((portCells s (c.u8 0)).map (cellGet s)).filter reachable).foldl (fun m x => max m x.dDown) 0) ++ le 4 ((((portCells s (c.u8 0)).map (cellGet s)).filter reachable).foldl (fun m x => max m x.dUp) 0) ++ le 4 (((portCells s (c.u8 0)).map (cellGet s)).filter reachable).length ++ le 4 (((portCells s (c.u8 0)).map (cellGet s)).filter cellAway).length ++ le 4 (portGet s (c.u8 0)).corr ++ le 4 (portGet s (c.u8 0)).disc ++ le 4 (portGet s (c.u8 0)).reruns) s)) ∧
  (∀ (c : Cmd) (s : State),
    Serving s →
    Inline c 12 →
    c.mb ≠ 0 →
    c.u8 0 < 32 →
    portOk s (c.u8 0) = true →
    c.rsv 1 3 = true →
    c.u64 4 % 64 = 0 →
    c.u64 4 ≠ 0 →
    exec (.cellRangeRead c) s = .next (answer 0x0303 c .ok (le 1 (portGet s (c.u8 0)).state.code ++ le 1 (portGet s (c.u8 0)).spare ++ le 2 (portGet s (c.u8 0)).minOff ++ le 4 ((((portCells s (c.u8 0)).map (cellGet s)).filter reachable).foldl (fun m x => max m x.dDown) 0) ++ le 4 ((((portCells s (c.u8 0)).map (cellGet s)).filter reachable).foldl (fun m x => max m x.dUp) 0) ++ le 4 (((portCells s (c.u8 0)).map (cellGet s)).filter reachable).length ++ le 4 (((portCells s (c.u8 0)).map (cellGet s)).filter cellAway).length ++ le 4 (portGet s (c.u8 0)).corr ++ le 4 (portGet s (c.u8 0)).disc ++ le 4 (portGet s (c.u8 0)).reruns) (putBuf (c.u64 4) (withCrc ((List.range 128).flatMap (rangeEntry s (c.u8 0)))) s))) ∧
  (∀ (c : Cmd) (s : State),
    Serving s →
    Inline c 12 →
    c.mb ≠ 0 →
    c.u8 0 < 32 →
    portOk s (c.u8 0) = false →
    exec (.cellRangeRead c) s = .next (answer 0x0303 c .notFitted [] s)) ∧
  (∀ (c : Cmd) (s : State),
    Admits c s [.config, .standby, .deblocked, .safeStop, .blockedFault, .factoryTest] [.active, .standby] →
    Inline c 4 →
    c.u8 0 < 32 →
    portOk s (c.u8 0) = true →
    c.rsv 2 2 = true →
    held s (.port (c.u8 0)) = false →
    c.u8 1 = 1 →
    (portGet s (c.u8 0)).state ≠ .down →
    (portGet s (c.u8 0)).spare = 0 →
    spareTaken s (c.u8 0) = false →
    exec (.cellPortRemap c) s = .next (awaitFirst 0x0304 c (pendAs 0x0304 c [.port (c.u8 0)] [.config, .standby, .deblocked, .safeStop, .blockedFault, .factoryTest] (c.u8 0) none (capsUpdate (resUpd 3 (portDie (c.u8 0)) ((c.u8 0) % 8) (fun r => { r with cause := 2 }) (portUpd (c.u8 0) (fun x => { x with shadow := some s.tick.index }) s)))))) ∧
  (∀ (c : Cmd) (s : State),
    Admits c s [.config, .standby, .deblocked, .safeStop, .blockedFault, .factoryTest] [.active, .standby] →
    Inline c 4 →
    c.u8 0 < 32 →
    portOk s (c.u8 0) = true →
    c.rsv 2 2 = true →
    held s (.port (c.u8 0)) = false →
    c.u8 1 = 2 →
    pendCount s c.mb < 8 →
    (portGet s (c.u8 0)).state ≠ .down →
    (portGet s (c.u8 0)).spare = 0 →
    spareTaken s (c.u8 0) = false →
    exec (.cellPortRemap c) s = .next (answer 0x0304 c .pending [] (pendAs 0x0304 c [.port (c.u8 0)] [.config, .standby, .deblocked, .safeStop, .blockedFault, .factoryTest] (c.u8 0) none (portStart (c.u8 0) (capsUpdate (portSpareIn (c.u8 0) (capsUpdate (resUpd 3 (portDie (c.u8 0)) ((c.u8 0) % 8) (fun r => { r with cause := 2 }) (portUpd (c.u8 0) (fun x => { x with spare := 2, laneMap := true }) ((portCells s (c.u8 0)).foldl (fun t cid => if (cellGet t cid).health = .inUse ∨ (cellGet t cid).health = .pending then setHealth cid .unreachable 5 t else t) s)))))))))) ∧
  (∀ (c : Cmd) (s : State),
    Admits c s [.config, .standby, .deblocked, .safeStop, .blockedFault, .factoryTest] [.active, .standby] →
    Inline c 4 →
    c.u8 0 < 32 →
    portOk s (c.u8 0) = true →
    c.rsv 2 2 = true →
    held s (.port (c.u8 0)) = false →
    c.u8 1 = 1 ∨ c.u8 1 = 2 →
    pendCount s c.mb < 8 →
    (portGet s (c.u8 0)).state ≠ .down →
    (portGet s (c.u8 0)).spare = 0 →
    spareTaken s (c.u8 0) = true →
    exec (.cellPortRemap c) s = .next (answer 0x0304 c .exhausted [] s)) ∧
  (∀ (c : Cmd) (s : State),
    Admits c s [.config, .standby, .deblocked, .safeStop, .blockedFault, .factoryTest] [.active, .standby] →
    Inline c 4 →
    c.u8 0 < 32 →
    portOk s (c.u8 0) = true →
    c.rsv 2 2 = true →
    held s (.port (c.u8 0)) = false →
    c.u8 1 = 1 ∨ c.u8 1 = 2 →
    pendCount s c.mb < 8 →
    (portGet s (c.u8 0)).state = .down ∨ (portGet s (c.u8 0)).spare ≠ 0 →
    exec (.cellPortRemap c) s = .next (answer 0x0304 c .conflict [] s))

/-- A load of mode 0 or mode 1 whose entries break no rule, on ports that are DOWN and with no pair formed, installs the entries on every port,
or on the ports of its mask, and answers OK with the digest; an arm on another die or over its cell limit is CONFLICT with the index of the
entry, and with a pair formed or a port of the load not DOWN it is CONFLICT with 0xFFFF. The reads write their entries and the CRC and
answer the counts. CELL_HEALTH_SET waits for its boundary, in hand until then, with its action 1 retire, 2 readmit or 3 retire with the
permanent bypass; of a cell without roster entry it is CONFLICT. CELL_SAFE_STATE_SET stages the selection of every rostered cell of its
range, and is CONFLICT where there is none. -/
def Obligations.RosterCommandsActOnTheRoster : Prop :=
  (∀ (c : Cmd) (s : State),
    Admits c s [.config, .factoryTest] [.active, .standby] →
    External c (fun l => l == 16 + 16 * c.u16 8) →
    1 ≤ c.u16 8 →
    c.u16 8 ≤ 4096 →
    c.u8 0 = 0 →
    c.rsv 1 3 = true →
    c.rsv 10 6 = true →
    pairHolds s = false →
    (List.range 32).all (fun p => !(true && held s (.port p))) = true →
    firstIdx (fun _ r => rosterAbsent s r) ((List.range (c.u16 8)).map (rosterEntry c.params)) 0 = none →
    firstIdx (fun i r => rosterBad s 0 (c.u32 4) (([] : List Roster) ++ ((List.range (c.u16 8)).map (rosterEntry c.params)).take i) c.params i r) ((List.range (c.u16 8)).map (rosterEntry c.params)) 0 = none →
    s.dev.paired = false →
    (allPorts s).all (fun p => (portGet s p).state == .down) = true →
    firstIdx (fun _ r => rosterConflict s (([] : List Roster) ++ ((List.range (c.u16 8)).map (rosterEntry c.params))) r) ((List.range (c.u16 8)).map (rosterEntry c.params)) 0 = none →
    exec (.cellRosterLoad c) s = .next (answer 0x0305 c .ok (le 2 (c.u16 8) ++ le 2 0xFFFF ++ le 4 (rosterDigest (rosterInstall s (fun _ => true) ((List.range (c.u16 8)).map (rosterEntry c.params)))).toNat) (rosterInstall s (fun _ => true) ((List.range (c.u16 8)).map (rosterEntry c.params))))) ∧
  (∀ (c : Cmd) (s : State),
    Admits c s [.config, .factoryTest] [.active, .standby] →
    External c (fun l => l == 16 + 16 * c.u16 8) →
    1 ≤ c.u16 8 →
    c.u16 8 ≤ 4096 →
    c.u8 0 = 1 →
    c.rsv 1 3 = true →
    c.rsv 10 6 = true →
    pairHolds s = false →
    (List.range 32).all (fun p => !(bit (c.u32 4) p && held s (.port p))) = true →
    firstIdx (fun _ r => rosterAbsent s r) ((List.range (c.u16 8)).map (rosterEntry c.params)) 0 = none →
    firstIdx (fun i r => rosterBad s 1 (c.u32 4) (((s.link.roster.map (·.2)).filter (fun r => !bit (c.u32 4) (r.cid / 128))) ++ ((List.range (c.u16 8)).map (rosterEntry c.params)).take i) c.params i r) ((List.range (c.u16 8)).map (rosterEntry c.params)) 0 = none →
    (List.range 32).all (fun p => !bit (c.u32 4) p || portFitted s p) = true →
    s.dev.paired = false →
    (allPorts s).all (fun p => !bit (c.u32 4) p || (portGet s p).state == .down) = true →
    firstIdx (fun _ r => rosterConflict s (((s.link.roster.map (·.2)).filter (fun r => !bit (c.u32 4) (r.cid / 128))) ++ ((List.range (c.u16 8)).map (rosterEntry c.params))) r) ((List.range (c.u16 8)).map (rosterEntry c.params)) 0 = none →
    exec (.cellRosterLoad c) s = .next (answer 0x0305 c .ok (le 2 (c.u16 8) ++ le 2 0xFFFF ++ le 4 (rosterDigest (rosterInstall s (fun p => bit (c.u32 4) p) ((List.range (c.u16 8)).map (rosterEntry c.params)))).toNat) (rosterInstall s (fun p => bit (c.u32 4) p) ((List.range (c.u16 8)).map (rosterEntry c.params))))) ∧
  (∀ (c : Cmd) (k : Nat) (s : State),
    Admits c s [.config, .factoryTest] [.active, .standby] →
    External c (fun l => l == 16 + 16 * c.u16 8) →
    1 ≤ c.u16 8 →
    c.u16 8 ≤ 4096 →
    c.u8 0 = 0 →
    c.rsv 1 3 = true →
    c.rsv 10 6 = true →
    pairHolds s = false →
    (List.range 32).all (fun p => !(true && held s (.port p))) = true →
    firstIdx (fun _ r => rosterAbsent s r) ((List.range (c.u16 8)).map (rosterEntry c.params)) 0 = none →
    firstIdx (fun i r => rosterBad s 0 (c.u32 4) (([] : List Roster) ++ ((List.range (c.u16 8)).map (rosterEntry c.params)).take i) c.params i r) ((List.range (c.u16 8)).map (rosterEntry c.params)) 0 = none →
    firstIdx (fun _ r => rosterConflict s (([] : List Roster) ++ ((List.range (c.u16 8)).map (rosterEntry c.params))) r) ((List.range (c.u16 8)).map (rosterEntry c.params)) 0 = some k →
    exec (.cellRosterLoad c) s = .next (answer 0x0305 c .conflict (le 2 0 ++ le 2 k ++ le 4 (rosterDigest s).toNat) s)) ∧
  (∀ (c : Cmd) (s : State),
    Admits c s [.config, .factoryTest] [.active, .standby] →
    External c (fun l => l == 16 + 16 * c.u16 8) →
    1 ≤ c.u16 8 →
    c.u16 8 ≤ 4096 →
    c.u8 0 = 0 →
    c.rsv 1 3 = true →
    c.rsv 10 6 = true →
    pairHolds s = false →
    (List.range 32).all (fun p => !(true && held s (.port p))) = true →
    firstIdx (fun _ r => rosterAbsent s r) ((List.range (c.u16 8)).map (rosterEntry c.params)) 0 = none →
    firstIdx (fun i r => rosterBad s 0 (c.u32 4) (([] : List Roster) ++ ((List.range (c.u16 8)).map (rosterEntry c.params)).take i) c.params i r) ((List.range (c.u16 8)).map (rosterEntry c.params)) 0 = none →
    firstIdx (fun _ r => rosterConflict s (([] : List Roster) ++ ((List.range (c.u16 8)).map (rosterEntry c.params))) r) ((List.range (c.u16 8)).map (rosterEntry c.params)) 0 = none →
    s.dev.paired = true ∨ (allPorts s).all (fun p => (portGet s p).state == .down) = false →
    exec (.cellRosterLoad c) s = .next (answer 0x0305 c .conflict (le 2 0 ++ le 2 0xFFFF ++ le 4 (rosterDigest s).toNat) s)) ∧
  (∀ (c : Cmd) (s : State),
    Serving s →
    Inline c 12 →
    c.mb ≠ 0 →
    1 ≤ c.u16 2 →
    c.u16 0 + c.u16 2 ≤ 4096 →
    c.u64 4 % 64 = 0 →
    c.u64 4 ≠ 0 →
    exec (.cellRosterRead c) s = .next (answer 0x0306 c .ok (le 2 (c.u16 2) ++ le 4 (rosterDigest s).toNat) (putBuf (c.u64 4) (withCrc ((List.range (c.u16 2)).flatMap (fun i => match tget none (s.link.roster.map (fun e => (e.1, some e.2))) (c.u16 0 + i) with | some r => r.bytes | none => le 2 (c.u16 0 + i) ++ le 1 0xFF ++ le 13 0))) s))) ∧
  (∀ (c : Cmd) (s : State),
    Admits c s [.config, .standby, .deblocked, .blockedFault, .factoryTest] [.active, .standby] →
    Inline c 4 →
    c.u16 0 < 4096 →
    portOk s (c.u16 0 / 128) = true →
    c.u16 0 % 128 < slotsOf s.tick.len →
    c.rsv 3 1 = true →
    held s (.cell (c.u16 0)) = false →
    held s .tickLength = false →
    c.u8 2 = 1 →
    (cellGet s (c.u16 0)).roster.isSome = true →
    (cellGet s (c.u16 0)).health ≠ .retired →
    exec (.cellHealthSet c) s = .next (awaitFirst 0x0307 c (pendAs 0x0307 c [.cell (c.u16 0)] [.config, .standby, .deblocked, .blockedFault, .factoryTest] (c.u16 0) none (s.onLink (fun l => { l with healthAt := l.healthAt ++ [(s.tick.index + leadOf s.tick.len, c.u16 0, 1)] }))))) ∧
  (∀ (c : Cmd) (s : State),
    Admits c s [.config, .standby, .deblocked, .blockedFault, .factoryTest] [.active, .standby] →
    Inline c 4 →
    c.u16 0 < 4096 →
    portOk s (c.u16 0 / 128) = true →
    c.u16 0 % 128 < slotsOf s.tick.len →
    c.rsv 3 1 = true →
    held s (.cell (c.u16 0)) = false →
    held s .tickLength = false →
    c.u8 2 = 2 →
    (cellGet s (c.u16 0)).roster.isSome = true →
    (cellGet s (c.u16 0)).health ≠ .pending →
    (cellGet s (c.u16 0)).health ≠ .inUse →
    (cellGet s (c.u16 0)).health ≠ .retired ∨ (cellGet s (c.u16 0)).cause ≠ 8 →
    exec (.cellHealthSet c) s = .next (awaitFirst 0x0307 c (pendAs 0x0307 c [.cell (c.u16 0)] [.config, .standby, .deblocked, .blockedFault, .factoryTest] (c.u16 0) none (s.onLink (fun l => { l with healthAt := l.healthAt ++ [(s.tick.index + leadOf s.tick.len, c.u16 0, 2)] }))))) ∧
  (∀ (c : Cmd) (s : State),
    Admits c s [.config, .standby, .blockedFault, .factoryTest] [.active, .standby] →
    Inline c 4 →
    c.u16 0 < 4096 →
    portOk s (c.u16 0 / 128) = true →
    c.u16 0 % 128 < slotsOf s.tick.len →
    c.rsv 3 1 = true →
    held s (.cell (c.u16 0)) = false →
    held s .tickLength = false →
    c.u8 2 = 3 →
    (cellGet s (c.u16 0)).roster.isSome = true →
    (cellGet s (c.u16 0)).health ≠ .retired →
    (portGet s (c.u16 0 / 128)).state = .inService →
    exec (.cellHealthSet c) s = .next (awaitFirst 0x0307 c (pendAs 0x0307 c [.cell (c.u16 0)] [.config, .standby, .blockedFault, .factoryTest] (c.u16 0) none (portUpd ((c.u16 0) / 128) (fun y => { y with perm := y.perm ++ [((c.u16 0) % 128, s.tick.index + leadOf s.tick.len, 2)] }) (s.onLink (fun l => { l with healthAt := l.healthAt ++ [(s.tick.index + leadOf s.tick.len, c.u16 0, 3)] })))))) ∧
  (∀ (c : Cmd) (s : State),
    Admits c s [.config, .standby, .deblocked, .blockedFault, .factoryTest] [.active, .standby] →
    Inline c 4 →
    c.u16 0 < 4096 →
    portOk s (c.u16 0 / 128) = true →
    c.u16 0 % 128 < slotsOf s.tick.len →
    c.rsv 3 1 = true →
    held s (.cell (c.u16 0)) = false →
    held s .tickLength = false →
    1 ≤ c.u8 2 →
    c.u8 2 ≤ 2 →
    (cellGet s (c.u16 0)).roster = none →
    exec (.cellHealthSet c) s = .next (answer 0x0307 c .conflict [] s)) ∧
  (∀ (c : Cmd) (s : State),
    Serving s →
    Inline c 12 →
    c.mb ≠ 0 →
    1 ≤ c.u16 2 →
    c.u16 0 + c.u16 2 ≤ 4096 →
    ((List.range (c.u16 2)).map (c.u16 0 + ·)).any (fun x => portFitted s (x / 128)) = true →
    c.u64 4 % 64 = 0 →
    c.u64 4 ≠ 0 →
    exec (.cellContextRead c) s = .next (answer 0x0308 c .ok (le 2 (c.u16 2) ++ le 2 (((((List.range (c.u16 2)).map (c.u16 0 + ·)).map (cellGet s)).filter (fun x => x.roster.isSome)).filter (fun x => x.health == .inUse)).length ++ le 2 (((((List.range (c.u16 2)).map (c.u16 0 + ·)).map (cellGet s)).filter (fun x => x.roster.isSome)).length - (((((List.range (c.u16 2)).map (c.u16 0 + ·)).map (cellGet s)).filter (fun x => x.roster.isSome)).filter (fun x => x.health == .inUse)).length) ++ le 2 0 ++ le 8 s.link.crossing) (putBuf (c.u64 4) (withCrc (((List.range (c.u16 2)).map (c.u16 0 + ·)).flatMap (contextEntry s))) s))) ∧
  (∀ (c : Cmd) (s : State),
    Admits c s [.config, .standby, .deblocked, .safeStop, .blockedFault, .factoryTest] [.active, .standby] →
    Inline c 8 →
    1 ≤ c.u16 2 →
    c.u16 0 + c.u16 2 ≤ 4096 →
    ((List.range (c.u16 2)).map (c.u16 0 + ·)).all (fun x => portFitted s (x / 128)) = true →
    c.u8 4 < 2 →
    c.rsv 5 3 = true →
    setHeld s 7 = false →
    (((List.range (c.u16 2)).map (c.u16 0 + ·)).filter (fun x => (cellGet s x).roster.isSome)).isEmpty = false →
    exec (.cellSafeStateSet c) s = .next (answer 0x0309 c .ok (le 2 (((List.range (c.u16 2)).map (c.u16 0 + ·)).filter (fun x => (cellGet s x).roster.isSome)).length) (stage 7 c.params ((((List.range (c.u16 2)).map (c.u16 0 + ·)).filter (fun x => (cellGet s x).roster.isSome)).foldl (fun t x => cellUpd x (fun y => { y with safeNew := some (c.u8 4 == 1) }) t) s)))) ∧
  (∀ (c : Cmd) (s : State),
    Admits c s [.config, .standby, .deblocked, .safeStop, .blockedFault, .factoryTest] [.active, .standby] →
    Inline c 8 →
    1 ≤ c.u16 2 →
    c.u16 0 + c.u16 2 ≤ 4096 →
    ((List.range (c.u16 2)).map (c.u16 0 + ·)).all (fun x => portFitted s (x / 128)) = true →
    c.u8 4 < 2 →
    c.rsv 5 3 = true →
    setHeld s 7 = false →
    (((List.range (c.u16 2)).map (c.u16 0 + ·)).filter (fun x => (cellGet s x).roster.isSome)).isEmpty = true →
    exec (.cellSafeStateSet c) s = .next (answer 0x0309 c .conflict [] s))

/-- BLOCK and SAFE requests send four copies on every port that hears. TIME_SET is sent at a boundary on a fitted port for which it is due, and
only then. After 200 µs STARTING ends at a boundary in RANGING with TIME_SET sent, and the first cell still to range gets its run; before
that nothing changes. At the end of a window the measurement joins its run: missing where no reply was found, its value and polarity where
the reply has the slot and the identity of the cell, and the cell unreachable with cause 4 where it has not; before the end of the window,
and with no run or no window open, nothing changes. VERIFY is entered once nothing is left to range and no delay is left in the queue, and
ends IN_SERVICE with no reachable cell short of its bursts, or after 1,024 ticks with those cells declared unreachable. A waking port marks
the cells that fail their check, waits while a cell waits, and is then IN_SERVICE. The spare takes over after 16 ticks of shadowing. A port
is LOST where the spare of its die is in use. LAUNCH_CALIBRATION recomputes the offsets. Where the condition of one of them fails, nothing
changes. -/
def Obligations.PortEventsMoveThePort : Prop :=
  (∀ (x : Byte) (s : State),
    exec (.blockRequestSend x) s = .next (blockPorts x.toNat s) ∧ exec (.safeRequestSend x) s = .next (safePorts x.toNat s)) ∧
  (∀ (p : Nat) (s : State),
    portFitted s p = true →
    timeSetDue s (portGet s p) = true →
    s.tick.inDone = false →
    exec (.timeSetSend p) s = .next (sendTimeSet p s)) ∧
  (∀ (p : Nat) (s : State),
    portFitted s p = false ∨ timeSetDue s (portGet s p) = false ∨ s.tick.inDone = true →
    exec (.timeSetSend p) s = .next s) ∧
  (∀ (p : Nat) (s : State),
    (portGet s p).state = .starting →
    (portGet s p).sinceUs + 200 ≤ s.nowUs →
    s.tick.inDone = false →
    exec (.portStartingDone p) s = .next ((nextToRange (sendTimeSet p (setPortState p .ranging s)) p).elim (sendTimeSet p (setPortState p .ranging s)) (fun slot => startRun p slot 1 false (sendTimeSet p (setPortState p .ranging s))))) ∧
  (∀ (p : Nat) (s : State),
    (portGet s p).state ≠ .starting ∨ s.nowUs < (portGet s p).sinceUs + 200 ∨ s.tick.inDone = true →
    exec (.portStartingDone p) s = .next s) ∧
  (∀ (p j : Nat) (r : RangeRun) (ws : List Nat) (s : State),
    (portGet s p).run = some r →
    r.windows = j :: ws →
    j + rangeTicks s.tick.len ≤ s.tick.index + 1 →
    exec (.rangeMeasurementJudge p none) s = .next (measured p { r with windows := ws } none s)) ∧
  (∀ (p j : Nat) (q : RangeReply) (r : RangeRun) (ws : List Nat) (s : State),
    (portGet s p).run = some r →
    r.windows = j :: ws →
    j + rangeTicks s.tick.len ≤ s.tick.index + 1 →
    rangingReply q = none →
    exec (.rangeMeasurementJudge p (some q)) s = .next (measured p { r with windows := ws } none s)) ∧
  (∀ (p j k : Nat) (inv : Bool) (q : RangeReply) (d : BitVec 48) (r : RangeRun) (ws : List Nat) (s : State),
    (portGet s p).run = some r →
    r.windows = j :: ws →
    j + rangeTicks s.tick.len ≤ s.tick.index + 1 →
    rangingReply q = some (inv, k, d) →
    k = r.slot →
    (cellGet s (128 * p + r.slot)).roster.any (fun e => e.identity == d) = true →
    exec (.rangeMeasurementJudge p (some q)) s = .next (measured p { r with windows := ws } (some q.r) (cellUpd (128 * p + r.slot) (fun x => { x with flags := (x.flags &&& 14#4) ||| BitVec.setWidth 4 (BitVec.ofBool inv) }) s))) ∧
  (∀ (p j k : Nat) (inv : Bool) (q : RangeReply) (d : BitVec 48) (r : RangeRun) (ws : List Nat) (s : State),
    (portGet s p).run = some r →
    r.windows = j :: ws →
    j + rangeTicks s.tick.len ≤ s.tick.index + 1 →
    rangingReply q = some (inv, k, d) →
    k ≠ r.slot ∨ (cellGet s (128 * p + r.slot)).roster.any (fun e => e.identity == d) = false →
    exec (.rangeMeasurementJudge p (some q)) s = .next (rangedNot p { r with windows := ws } 4 0 (cellUpd (128 * p + r.slot) (fun x => { x with flags := x.flags ||| 8#4 }) s))) ∧
  (∀ (p : Nat) (q : Option RangeReply) (s : State),
    (portGet s p).run = none ∨ (portGet s p).run.any (fun r => r.windows.head?.all (fun j => decide (s.tick.index + 1 < j + rangeTicks s.tick.len))) = true →
    exec (.rangeMeasurementJudge p q) s = .next s) ∧
  (∀ (p : Nat) (s : State),
    (portGet s p).state = .ranging →
    (portGet s p).run = none →
    nextToRange s p = none →
    ((portGet s p).queue ++ (portGet s p).waiting).any (fun q => q.word.code == 1 || q.word.code == 2) = false →
    exec (.portVerifyEnter p) s = .next (setPortState p .verify ((portCells s p).foldl (fun t c => cellUpd c (fun x => { x with good := 0, goodC := 0 }) t) s))) ∧
  (∀ (p : Nat) (s : State),
    (portGet s p).state ≠ .ranging ∨ (portGet s p).run.isSome = true ∨ (nextToRange s p).isSome = true ∨ ((portGet s p).queue ++ (portGet s p).waiting).any (fun q => q.word.code == 1 || q.word.code == 2) = true →
    exec (.portVerifyEnter p) s = .next s) ∧
  (∀ (p : Nat) (s : State),
    (portGet s p).state = .verify →
    cellsShort s p = [] ∨ (portGet s p).since + 1024 ≤ s.tick.index →
    exec (.portInService p) s = .next (inService p ((cellsShort s p).foldl (fun t c => unreachable c 0x0E 0 t) s))) ∧
  (∀ (p : Nat) (s : State),
    (portGet s p).state ≠ .verify ∨ (cellsShort s p ≠ [] ∧ s.tick.index < (portGet s p).since + 1024) →
    exec (.portInService p) s = .next s) ∧
  (∀ (p : Nat) (s : State),
    (portGet s p).state = .waking →
    ((portCells s p).filter (fun c => wakeFails (cellGet s c) || (decide ((portGet s p).sinceUs + 1000 ≤ s.nowUs) && wakeWaits (cellGet s c)))) ≠ [] →
    exec (.wakingComplete p) s = .next (((portCells s p).filter (fun c => wakeFails (cellGet s c) || (decide ((portGet s p).sinceUs + 1000 ≤ s.nowUs) && wakeWaits (cellGet s c)))).foldl (fun t c => markCell c t) s)) ∧
  (∀ (p : Nat) (s : State),
    (portGet s p).state = .waking →
    ((portCells s p).filter (fun c => wakeFails (cellGet s c) || (decide ((portGet s p).sinceUs + 1000 ≤ s.nowUs) && wakeWaits (cellGet s c)))) = [] →
    (portGet s p).tsDue = true ∨ (portCells s p).any (fun c => wakeWaits (cellGet s c) || (cellGet s c).mark) = true →
    exec (.wakingComplete p) s = .next s) ∧
  (∀ (p : Nat) (s : State),
    (portGet s p).state = .waking →
    ((portCells s p).filter (fun c => wakeFails (cellGet s c) || (decide ((portGet s p).sinceUs + 1000 ≤ s.nowUs) && wakeWaits (cellGet s c)))) = [] →
    (portGet s p).tsDue = false →
    (portCells s p).any (fun c => wakeWaits (cellGet s c) || (cellGet s c).mark) = false →
    exec (.wakingComplete p) s = .next (inService p s)) ∧
  (∀ (p : Nat) (s : State),
    (portGet s p).state ≠ .waking →
    exec (.wakingComplete p) s = .next s) ∧
  (∀ (p k : Nat) (s : State),
    (portGet s p).shadow = some k →
    k + 16 ≤ s.tick.index →
    exec (.sparePortTakeover p) s = .next (capsUpdate (endPortPending p .ok (le 1 (portGet s p).state.code ++ le 1 (p / 8)) (portSpareIn p (portUpd p (fun x => { x with spare := 1, shadow := none }) s))))) ∧
  (∀ (p : Nat) (s : State),
    (portGet s p).shadow.all (fun k => decide (s.tick.index < k + 16)) = true →
    exec (.sparePortTakeover p) s = .next s) ∧
  (∀ (l : PortLoss) (s : State),
    spareTaken s l.port = true →
    exec (.portLost l) s = .next (portLost l.port l.sends s)) ∧
  (∀ (l : PortLoss) (s : State),
    spareTaken s l.port = false →
    exec (.portLost l) s = .next s) ∧
  (∀ (s : State),
    exec .launchCalibration s = .next ((allPorts s).foldl (fun t p => minOffset p t) s))

/-- In a slot of a rostered cell while DCLK runs: a burst whose delimiter matches neither way, lies more than 5 UI from its place, comes
inverted from a cell that is not recorded so, or has the payload kind 3, is discarded; any other is a valid burst with its phase error and
its payload. Elsewhere a burst changes nothing. A marked cell gets a re-ranging run once its port has no run under way and is IN_SERVICE, in
VERIFY or WAKING; a reachable cell with 8 bursts discarded in a row, not yet marked or not able to run, is marked; any other cell stays.
1,024 ticks after REJOIN a PENDING cell is FAILED with cause 0x07, and not before. SAFE_SEL wrong 16 times queues the word again. An ECC
error of a context on a fitted port is corrected and counted, or marks and restores the two cells of the entry. -/
def Obligations.BurstsAndCellsAreJudged : Prop :=
  (∀ (p k : Nat) (b : BurstIn) (s : State),
    (cellGet s (128 * p + k)).roster.isSome = true →
    (portGet s p).state.dclk = true →
    readBurst b.bits = none →
    exec (.upstreamBurstReceive p k b) s = .next (burstDiscarded (128 * p + k) s)) ∧
  (∀ (p k : Nat) (inv : Bool) (w : Word64) (b : BurstIn) (s : State),
    (cellGet s (128 * p + k)).roster.isSome = true →
    (portGet s p).state.dclk = true →
    readBurst b.bits = some (inv, w) →
    320 < b.e.natAbs ∨ (inv = true ∧ (cellGet s (128 * p + k)).flags.getLsbD 0 = false) ∨ w.extractLsb' 62 2 = 3#2 →
    exec (.upstreamBurstReceive p k b) s = .next (burstDiscarded (128 * p + k) s)) ∧
  (∀ (p k : Nat) (inv : Bool) (w : Word64) (b : BurstIn) (s : State),
    (cellGet s (128 * p + k)).roster.isSome = true →
    (portGet s p).state.dclk = true →
    readBurst b.bits = some (inv, w) →
    b.e.natAbs ≤ 320 →
    inv = false ∨ (cellGet s (128 * p + k)).flags.getLsbD 0 = true →
    w.extractLsb' 62 2 ≠ 3#2 →
    exec (.upstreamBurstReceive p k b) s = .next (burstValid (128 * p + k) b.e w s)) ∧
  (∀ (p k : Nat) (b : BurstIn) (s : State),
    (cellGet s (128 * p + k)).roster = none ∨ (portGet s p).state.dclk = false →
    exec (.upstreamBurstReceive p k b) s = .next s) ∧
  (∀ (cid : Nat) (s : State),
    (cellGet s cid).roster.isSome = true →
    (cellGet s cid).mark = true →
    (portGet s (cid / 128)).run = none →
    (portGet s (cid / 128)).state = .inService ∨ (portGet s (cid / 128)).state = .verify ∨ (portGet s (cid / 128)).state = .waking →
    exec (.rerangingMark cid) s = .next (startRun (cid / 128) (cid % 128) 1 true s)) ∧
  (∀ (cid : Nat) (s : State),
    reachable (cellGet s cid) = true →
    8 ≤ (cellGet s cid).discRun →
    exec (.rerangingMark cid) s = .next (markCell cid s)) ∧
  (∀ (cid : Nat) (s : State),
    (cellGet s cid).roster = none ∨ ((cellGet s cid).mark = false ∧ (cellGet s cid).discRun < 8) →
    exec (.rerangingMark cid) s = .next s) ∧
  (∀ (cid k : Nat) (s : State),
    (cellGet s cid).rejoin = some k →
    k + 1024 ≤ s.tick.index →
    (cellGet s cid).health = .pending →
    exec (.rejoinTimeout cid) s = .next (setHealth cid .failed 7 (cellUpd cid (fun x => { x with rejoin := none }) s))) ∧
  (∀ (cid : Nat) (s : State),
    (cellGet s cid).rejoin.all (fun k => decide (s.tick.index < k + 1024)) = true ∨ (cellGet s cid).health ≠ .pending →
    exec (.rejoinTimeout cid) s = .next s) ∧
  (∀ (cid : Nat) (s : State),
    16 ≤ (cellGet s cid).selBad →
    exec (.safeSelRequeue cid) s = .next (pushSafeState cid (linkEvent (cid / 128) 0x06 .notice cid [] (cellUpd cid (fun x => { x with selBad := 0, safeOk := false }) s)))) ∧
  (∀ (cid : Nat) (s : State),
    (cellGet s cid).selBad < 16 →
    exec (.safeSelRequeue cid) s = .next s) ∧
  (∀ (p e : Nat) (b : Bool) (s : State),
    portFitted s p = true →
    exec (.contextEccError p e b) s = .next (contextEcc p e b s)) ∧
  (∀ (p e : Nat) (b : Bool) (s : State),
    portFitted s p = false →
    exec (.contextEccError p e b) s = .next s)

/-- Each for a cell c and either of its interfaces b. Power-up: UNLOCKED with the identity, topology from its bits 47 and 46; a permanent bypass
of the same cell stays. Words: each goes through the receiver of its interface; gaining lock takes UNLOCKED to LOCKED, losing it is a loss
of the interface. A frame on a locked interface: one whose HC or group CRC fails counts an error, its interface as it was with no valid
counter; a valid one brings its interface what it holds, at once or for its boundary; a tick already taken, or a frame outside its window,
is discarded; one with ACTIVE = 1, or after the deadline, is taken, another is held where none is. The frame held is taken at its deadline
unless its tick was taken, and not before. A BLOCK message turns every switch off and starts the hold in every state, and takes RUNNING and
SAFE to BLOCKED; a SAFE message takes RUNNING, BLOCKED and LOCKED to SAFE. TIME_SET is adopted at once where the counter is not valid, else
at the next boundary. SLEEP downstream in BLOCKED or SAFE enters ASLEEP. The end of the hold is noted 16 µs after the acceptance. On an
interface without lock, or with no such message or frame in the words, the cell stays but for the errors counted. Every other cell and
everything else stays. -/
def Obligations.CellControllersTakeMessages : Prop :=
  (∀ (cid : Nat) (c : CellCtl) (i : BitVec 48) (s : State),
    ctlGet s cid = c →
    c.byp = false ∨ c.identity ≠ i →
    exec (.cellPowerUp cid i) s = .next (ctlUpd cid (fun _ => { identity := i, full := (i.extractLsb' 46 2) == 1#2 }) s)) ∧
  (∀ (cid : Nat) (c : CellCtl) (s : State),
    ctlGet s cid = c →
    c.byp = true →
    exec (.cellPowerUp cid c.identity) s = .next (ctlUpd cid (fun _ => { identity := c.identity, full := (c.identity.extractLsb' 46 2) == 1#2, state := .bypassed, byp := true }) s)) ∧
  (∀ (cid : Nat) (c : CellCtl) (b : Bool) (line : List (BitVec 34)) (s : State),
    ctlGet s cid = c →
    exec (.cellWordLock cid b line) s = .next (ctlUpd cid (fun _ => (line.foldl (fun x w => if (x.iface b).locked = true ∧ ((x.setIface b ((x.iface b).word w)).iface b).locked = false then (x.setIface b ((x.iface b).word w)).ifaceLost b else if (x.iface b).locked = false ∧ ((x.setIface b ((x.iface b).word w)).iface b).locked = true ∧ (x.setIface b ((x.iface b).word w)).state = .unlocked then (x.setIface b ((x.iface b).word w)).enter .locked else x.setIface b ((x.iface b).word w)) c)) s)) ∧
  (∀ (cid : Nat) (c : CellCtl) (b : Bool) (rx : LineRx) (s : State),
    ctlGet s cid = c →
    (c.iface b).locked = false ∨ findFrame (cid % 128) rx.line = none →
    exec (.cellFrameTake cid b rx) s = .next (ctlUpd cid (fun _ => c) s)) ∧
  (∀ (cid : Nat) (c : CellCtl) (b : Bool) (rx : LineRx) (f : FrameIn) (s : State),
    ctlGet s cid = c →
    (c.iface b).locked = true →
    findFrame (cid % 128) rx.line = some f →
    f.hc = false ∨ f.group = false →
    (c.iface b).valid = false →
    exec (.cellFrameTake cid b rx) s = .next (ctlUpd cid (fun _ => err c) s)) ∧
  (∀ (cid : Nat) (c : CellCtl) (b : Bool) (rx : LineRx) (f : FrameIn) (s : State),
    ctlGet s cid = c →
    (c.iface b).locked = true →
    findFrame (cid % 128) rx.line = some f →
    f.hc = true →
    f.group = true →
    (c.iface b).valid = true →
    frameValid (c.iface b) f (extendBase f.base ((c.iface b).reading (cycleAt s rx.cycle))) ((c.iface b).reading (cycleAt s rx.cycle)) = true →
    frameOld (c.setIface b (if diff56 (extendBase f.base ((c.iface b).reading (cycleAt s rx.cycle))) ((c.iface b).reading (cycleAt s rx.cycle)) ≤ 0 then (c.iface b).apply (⟨(extendBase f.base ((c.iface b).reading (cycleAt s rx.cycle))), true, f.quiet, f.mgmt.filter (fun m => m.code.toNat < 4)⟩ : IfaceDue) else { c.iface b with due := (c.iface b).due ++ [(⟨(extendBase f.base ((c.iface b).reading (cycleAt s rx.cycle))), true, f.quiet, f.mgmt.filter (fun m => m.code.toNat < 4)⟩ : IfaceDue)] })) f (extendBase f.base ((c.iface b).reading (cycleAt s rx.cycle))) = false →
    f.active = true ∨ 0 ≤ diff56 ((c.iface b).reading (cycleAt s rx.cycle)) ((c.setIface b (if diff56 (extendBase f.base ((c.iface b).reading (cycleAt s rx.cycle))) ((c.iface b).reading (cycleAt s rx.cycle)) ≤ 0 then (c.iface b).apply (⟨(extendBase f.base ((c.iface b).reading (cycleAt s rx.cycle))), true, f.quiet, f.mgmt.filter (fun m => m.code.toNat < 4)⟩ : IfaceDue) else { c.iface b with due := (c.iface b).due ++ [(⟨(extendBase f.base ((c.iface b).reading (cycleAt s rx.cycle))), true, f.quiet, f.mgmt.filter (fun m => m.code.toNat < 4)⟩ : IfaceDue)] })).deadline (extendBase f.base ((c.iface b).reading (cycleAt s rx.cycle)))) →
    exec (.cellFrameTake cid b rx) s = .next (ctlUpd cid (fun _ => (c.setIface b (if diff56 (extendBase f.base ((c.iface b).reading (cycleAt s rx.cycle))) ((c.iface b).reading (cycleAt s rx.cycle)) ≤ 0 then (c.iface b).apply (⟨(extendBase f.base ((c.iface b).reading (cycleAt s rx.cycle))), true, f.quiet, f.mgmt.filter (fun m => m.code.toNat < 4)⟩ : IfaceDue) else { c.iface b with due := (c.iface b).due ++ [(⟨(extendBase f.base ((c.iface b).reading (cycleAt s rx.cycle))), true, f.quiet, f.mgmt.filter (fun m => m.code.toNat < 4)⟩ : IfaceDue)] })).take (cycleAt s rx.cycle) ⟨b, (extendBase f.base ((c.iface b).reading (cycleAt s rx.cycle))), f⟩) s)) ∧
  (∀ (cid : Nat) (c : CellCtl) (b : Bool) (rx : LineRx) (f : FrameIn) (s : State),
    ctlGet s cid = c →
    (c.iface b).locked = true →
    findFrame (cid % 128) rx.line = some f →
    f.hc = true →
    f.group = true →
    (c.iface b).valid = true →
    frameValid (c.iface b) f (extendBase f.base ((c.iface b).reading (cycleAt s rx.cycle))) ((c.iface b).reading (cycleAt s rx.cycle)) = true →
    frameOld (c.setIface b (if diff56 (extendBase f.base ((c.iface b).reading (cycleAt s rx.cycle))) ((c.iface b).reading (cycleAt s rx.cycle)) ≤ 0 then (c.iface b).apply (⟨(extendBase f.base ((c.iface b).reading (cycleAt s rx.cycle))), true, f.quiet, f.mgmt.filter (fun m => m.code.toNat < 4)⟩ : IfaceDue) else { c.iface b with due := (c.iface b).due ++ [(⟨(extendBase f.base ((c.iface b).reading (cycleAt s rx.cycle))), true, f.quiet, f.mgmt.filter (fun m => m.code.toNat < 4)⟩ : IfaceDue)] })) f (extendBase f.base ((c.iface b).reading (cycleAt s rx.cycle))) = false →
    f.active = false →
    diff56 ((c.iface b).reading (cycleAt s rx.cycle)) ((c.setIface b (if diff56 (extendBase f.base ((c.iface b).reading (cycleAt s rx.cycle))) ((c.iface b).reading (cycleAt s rx.cycle)) ≤ 0 then (c.iface b).apply (⟨(extendBase f.base ((c.iface b).reading (cycleAt s rx.cycle))), true, f.quiet, f.mgmt.filter (fun m => m.code.toNat < 4)⟩ : IfaceDue) else { c.iface b with due := (c.iface b).due ++ [(⟨(extendBase f.base ((c.iface b).reading (cycleAt s rx.cycle))), true, f.quiet, f.mgmt.filter (fun m => m.code.toNat < 4)⟩ : IfaceDue)] })).deadline (extendBase f.base ((c.iface b).reading (cycleAt s rx.cycle)))) < 0 →
    exec (.cellFrameTake cid b rx) s = .next (ctlUpd cid (fun _ => (if (c.setIface b (if diff56 (extendBase f.base ((c.iface b).reading (cycleAt s rx.cycle))) ((c.iface b).reading (cycleAt s rx.cycle)) ≤ 0 then (c.iface b).apply (⟨(extendBase f.base ((c.iface b).reading (cycleAt s rx.cycle))), true, f.quiet, f.mgmt.filter (fun m => m.code.toNat < 4)⟩ : IfaceDue) else { c.iface b with due := (c.iface b).due ++ [(⟨(extendBase f.base ((c.iface b).reading (cycleAt s rx.cycle))), true, f.quiet, f.mgmt.filter (fun m => m.code.toNat < 4)⟩ : IfaceDue)] })).held.isSome then (c.setIface b (if diff56 (extendBase f.base ((c.iface b).reading (cycleAt s rx.cycle))) ((c.iface b).reading (cycleAt s rx.cycle)) ≤ 0 then (c.iface b).apply (⟨(extendBase f.base ((c.iface b).reading (cycleAt s rx.cycle))), true, f.quiet, f.mgmt.filter (fun m => m.code.toNat < 4)⟩ : IfaceDue) else { c.iface b with due := (c.iface b).due ++ [(⟨(extendBase f.base ((c.iface b).reading (cycleAt s rx.cycle))), true, f.quiet, f.mgmt.filter (fun m => m.code.toNat < 4)⟩ : IfaceDue)] })) else { (c.setIface b (if diff56 (extendBase f.base ((c.iface b).reading (cycleAt s rx.cycle))) ((c.iface b).reading (cycleAt s rx.cycle)) ≤ 0 then (c.iface b).apply (⟨(extendBase f.base ((c.iface b).reading (cycleAt s rx.cycle))), true, f.quiet, f.mgmt.filter (fun m => m.code.toNat < 4)⟩ : IfaceDue) else { c.iface b with due := (c.iface b).due ++ [(⟨(extendBase f.base ((c.iface b).reading (cycleAt s rx.cycle))), true, f.quiet, f.mgmt.filter (fun m => m.code.toNat < 4)⟩ : IfaceDue)] })) with held := some ⟨b, (extendBase f.base ((c.iface b).reading (cycleAt s rx.cycle))), f⟩ })) s)) ∧
  (∀ (cid : Nat) (c : CellCtl) (b : Bool) (rx : LineRx) (f : FrameIn) (s : State),
    ctlGet s cid = c →
    (c.iface b).locked = true →
    findFrame (cid % 128) rx.line = some f →
    f.hc = true →
    f.group = true →
    (c.iface b).valid = true →
    frameValid (c.iface b) f (extendBase f.base ((c.iface b).reading (cycleAt s rx.cycle))) ((c.iface b).reading (cycleAt s rx.cycle)) = true →
    frameOld (c.setIface b (if diff56 (extendBase f.base ((c.iface b).reading (cycleAt s rx.cycle))) ((c.iface b).reading (cycleAt s rx.cycle)) ≤ 0 then (c.iface b).apply (⟨(extendBase f.base ((c.iface b).reading (cycleAt s rx.cycle))), true, f.quiet, f.mgmt.filter (fun m => m.code.toNat < 4)⟩ : IfaceDue) else { c.iface b with due := (c.iface b).due ++ [(⟨(extendBase f.base ((c.iface b).reading (cycleAt s rx.cycle))), true, f.quiet, f.mgmt.filter (fun m => m.code.toNat < 4)⟩ : IfaceDue)] })) f (extendBase f.base ((c.iface b).reading (cycleAt s rx.cycle))) = true →
    exec (.cellFrameTake cid b rx) s = .next (ctlUpd cid (fun _ => (c.setIface b (if diff56 (extendBase f.base ((c.iface b).reading (cycleAt s rx.cycle))) ((c.iface b).reading (cycleAt s rx.cycle)) ≤ 0 then (c.iface b).apply (⟨(extendBase f.base ((c.iface b).reading (cycleAt s rx.cycle))), true, f.quiet, f.mgmt.filter (fun m => m.code.toNat < 4)⟩ : IfaceDue) else { c.iface b with due := (c.iface b).due ++ [(⟨(extendBase f.base ((c.iface b).reading (cycleAt s rx.cycle))), true, f.quiet, f.mgmt.filter (fun m => m.code.toNat < 4)⟩ : IfaceDue)] }))) s)) ∧
  (∀ (cell : CellAt) (c : CellCtl) (d : FrameDue) (s : State),
    ctlGet s cell.cid = c →
    c.held = some d →
    0 ≤ diff56 ((c.iface d.onB).reading (cycleAt s cell.cycle)) (c.deadline d.base) →
    frameOld c d.frame d.base = false →
    exec (.cellFrameDeadline cell) s = .next (ctlUpd cell.cid (fun _ => c.take (cycleAt s cell.cycle) d) s)) ∧
  (∀ (cell : CellAt) (c : CellCtl) (d : FrameDue) (s : State),
    ctlGet s cell.cid = c →
    c.held = some d →
    0 ≤ diff56 ((c.iface d.onB).reading (cycleAt s cell.cycle)) (c.deadline d.base) →
    frameOld c d.frame d.base = true →
    exec (.cellFrameDeadline cell) s = .next (ctlUpd cell.cid (fun _ => { c with held := none }) s)) ∧
  (∀ (cell : CellAt) (c : CellCtl) (s : State),
    ctlGet s cell.cid = c →
    c.held = none →
    exec (.cellFrameDeadline cell) s = .next (ctlUpd cell.cid (fun _ => c) s)) ∧
  (∀ (cell : CellAt) (c : CellCtl) (d : FrameDue) (s : State),
    ctlGet s cell.cid = c →
    c.held = some d →
    diff56 ((c.iface d.onB).reading (cycleAt s cell.cycle)) (c.deadline d.base) < 0 →
    exec (.cellFrameDeadline cell) s = .next (ctlUpd cell.cid (fun _ => c) s)) ∧
  (∀ (cid : Nat) (c : CellCtl) (b : Bool) (rx : LineRx) (u : BitVec 4) (k : Byte) (n : Nat) (s : State),
    ctlGet s cid = c →
    (c.iface b).locked = true →
    findMsg 0 rx.line = (some (.block u k), n) →
    c.state = .running ∨ c.state = .safe →
    exec (.cellBlockAccept cid b rx) s = .next (ctlUpd cid (fun _ => ({ ((c.errs n).stopHold (cycleAt s rx.cycle)) with pattern := .block } : CellCtl).enter .blocked) s)) ∧
  (∀ (cid : Nat) (c : CellCtl) (b : Bool) (rx : LineRx) (u : BitVec 4) (k : Byte) (n : Nat) (s : State),
    ctlGet s cid = c →
    (c.iface b).locked = true →
    findMsg 0 rx.line = (some (.block u k), n) →
    c.state = .locked →
    exec (.cellBlockAccept cid b rx) s = .next (ctlUpd cid (fun _ => { ((c.errs n).stopHold (cycleAt s rx.cycle)) with pattern := .block, lockBlk := true }) s)) ∧
  (∀ (cid : Nat) (c : CellCtl) (b : Bool) (rx : LineRx) (u : BitVec 4) (k : Byte) (n : Nat) (s : State),
    ctlGet s cid = c →
    (c.iface b).locked = true →
    findMsg 0 rx.line = (some (.block u k), n) →
    c.state ≠ .running →
    c.state ≠ .safe →
    c.state ≠ .locked →
    exec (.cellBlockAccept cid b rx) s = .next (ctlUpd cid (fun _ => { ((c.errs n).stopHold (cycleAt s rx.cycle)) with pattern := .block }) s)) ∧
  (∀ (cid : Nat) (c : CellCtl) (b : Bool) (rx : LineRx) (u : BitVec 4) (k : Byte) (n : Nat) (s : State),
    ctlGet s cid = c →
    (c.iface b).locked = true →
    findMsg 0 rx.line = (some (.safe u k), n) →
    c.state = .running ∨ c.state = .blocked ∨ c.state = .locked →
    exec (.cellSafeAccept cid b rx) s = .next (ctlUpd cid (fun _ => ((c.errs n).stopHold (cycleAt s rx.cycle)).enter .safe) s)) ∧
  (∀ (cid : Nat) (c : CellCtl) (b : Bool) (rx : LineRx) (u : BitVec 4) (k : Byte) (n : Nat) (s : State),
    ctlGet s cid = c →
    (c.iface b).locked = true →
    findMsg 0 rx.line = (some (.safe u k), n) →
    c.state ≠ .running →
    c.state ≠ .blocked →
    c.state ≠ .locked →
    exec (.cellSafeAccept cid b rx) s = .next (ctlUpd cid (fun _ => ((c.errs n).stopHold (cycleAt s rx.cycle))) s)) ∧
  (∀ (cid : Nat) (c : CellCtl) (b : Bool) (rx : LineRx) (v : BitVec 56) (e n : Nat) (s : State),
    ctlGet s cid = c →
    (c.iface b).locked = true →
    findMsg 0 rx.line = (some (.timeSet v), n) →
    (c.iface b).valid = false →
    exec (.cellTimeSetAccept cid b rx e) s = .next (ctlUpd cid (fun _ => { ((c.errs n).setIface b { c.iface b with counter := (v + BitVec.ofNat 56 ((c.iface b).dDown + e)), epoch := cycleAt s rx.cycle, valid := true, last := none, dnSleep := false }) with adopted := true }) s)) ∧
  (∀ (cid : Nat) (c : CellCtl) (b : Bool) (rx : LineRx) (v : BitVec 56) (e n : Nat) (s : State),
    ctlGet s cid = c →
    (c.iface b).locked = true →
    findMsg 0 rx.line = (some (.timeSet v), n) →
    (c.iface b).valid = true →
    exec (.cellTimeSetAccept cid b rx e) s = .next (ctlUpd cid (fun _ => (c.errs n).setIface b { c.iface b with adopt := some ((v + BitVec.ofNat 56 ((c.iface b).dDown + e)), cycleAt s rx.cycle), dnSleep := false }) s)) ∧
  (∀ (cid : Nat) (c : CellCtl) (b up dn : Bool) (w l : List LineWord) (n : Nat) (s : State),
    ctlGet s cid = c →
    (c.iface b).locked = true →
    findMsg 0 (w ++ l) = (some (.sleep up dn), n) →
    exec (.cellSleepAccept cid b w l) s = .next (ctlUpd cid (fun _ => (if dn = true ∧ (c.state = .blocked ∨ c.state = .safe) then ((c.errs n).setIface b { c.iface b with upSleep := up, dnSleep := dn, due := (c.iface b).due.map (fun d => { d with quiet := d.quiet || up }) }).enter .asleep else (c.errs n).setIface b { c.iface b with upSleep := up, dnSleep := dn, due := (c.iface b).due.map (fun d => { d with quiet := d.quiet || up }) })) s)) ∧
  (∀ (cid : Nat) (c : CellCtl) (b : Bool) (rx : LineRx) (w l : List LineWord) (e : Nat) (i : Bool) (s : State),
    ctlGet s cid = c →
    (c.iface b).locked = false →
    exec (.cellBlockAccept cid b rx) s = .next (ctlUpd cid (fun _ => c) s) ∧ exec (.cellSafeAccept cid b rx) s = .next (ctlUpd cid (fun _ => c) s) ∧ exec (.cellTimeSetAccept cid b rx e) s = .next (ctlUpd cid (fun _ => c) s) ∧ exec (.cellSleepAccept cid b w l) s = .next (ctlUpd cid (fun _ => c) s)) ∧
  (∀ (cid : Nat) (c : CellCtl) (b : Bool) (rx : LineRx) (w l : List LineWord) (e n : Nat) (s : State),
    ctlGet s cid = c →
    (c.iface b).locked = true →
    findMsg 0 rx.line = (none, n) →
    findMsg 0 (w ++ l) = (none, n) →
    exec (.cellBlockAccept cid b rx) s = .next (ctlUpd cid (fun _ => c.errs n) s) ∧ exec (.cellSafeAccept cid b rx) s = .next (ctlUpd cid (fun _ => c.errs n) s) ∧ exec (.cellTimeSetAccept cid b rx e) s = .next (ctlUpd cid (fun _ => c.errs n) s) ∧ exec (.cellSleepAccept cid b w l) s = .next (ctlUpd cid (fun _ => c.errs n) s)) ∧
  (∀ (cell : CellAt) (c : CellCtl) (a : Nat) (e : Bool) (s : State),
    ctlGet s cell.cid = c →
    c.hold = some (a, e) →
    a + 1024000 ≤ dclkUnits (cycleAt s cell.cycle) →
    exec (.cellBlockHoldEnd cell) s = .next (ctlUpd cell.cid (fun _ => { c with hold := some (a, true) }) s)) ∧
  (∀ (cell : CellAt) (c : CellCtl) (s : State),
    ctlGet s cell.cid = c →
    c.hold = none →
    exec (.cellBlockHoldEnd cell) s = .next (ctlUpd cell.cid (fun _ => c) s)) ∧
  (∀ (cell : CellAt) (c : CellCtl) (a : Nat) (e : Bool) (s : State),
    ctlGet s cell.cid = c →
    c.hold = some (a, e) →
    dclkUnits (cycleAt s cell.cycle) < a + 1024000 →
    exec (.cellBlockHoldEnd cell) s = .next (ctlUpd cell.cid (fun _ => c) s))

/-- Each for a cell c. The count that has reached three boundaries without a frame: SAFE from LOCKED, BLOCKED and RUNNING with one more expiry,
no other state; where it has not, nothing. Loss of an interface, either: its lock, counter and frames go, and SAFE follows from LOCKED,
BLOCKED and RUNNING where no interface in use is left. The first edge waiting of a RUNNING cell sets the pattern; in any other state, or
with none waiting, nothing. The latch keeps the tick report with voltage, temperature, faults, pattern, state and AUX. A burst, from an
interface that is locked with a valid counter: a ranging reply where RANGE was taken, at the instant of R153; none while QUIET or in an
upstream sleep; else the management reply or the report, at the instant of R151. Over-voltage, desaturation and gate faults set their flags
and enter FAULT but from BYPASSED; supply, temperature, the end of over-voltage and the cleared condition set their flags alone. The
permanent bypass closes for good. -/
def Obligations.CellControllersActOnTheirOwn : Prop :=
  (∀ (cid : Nat) (c : CellCtl) (s : State),
    ctlGet s cid = c →
    c.expired = true →
    c.state = .running ∨ c.state = .blocked ∨ c.state = .locked →
    exec (.cellWatchdogExpiry cid) s = .next (ctlUpd cid (fun _ => { (({ c with expired := false } : CellCtl).enter .safe) with wdCnt := c.wdCnt + 1 }) s)) ∧
  (∀ (cid : Nat) (c : CellCtl) (s : State),
    ctlGet s cid = c →
    c.expired = false ∨ (c.state ≠ .running ∧ c.state ≠ .blocked ∧ c.state ≠ .locked) →
    exec (.cellWatchdogExpiry cid) s = .next (ctlUpd cid (fun _ => { c with expired := false }) s)) ∧
  (∀ (cid : Nat) (c : CellCtl) (s : State),
    ctlGet s cid = c →
    c.ifB.inUse = false ∨ c.ifB.locked = false →
    c.state = .running ∨ c.state = .blocked ∨ c.state = .locked →
    exec (.cellLinkLoss cid false) s = .next (ctlUpd cid (fun _ => ({ c with ifA := { c.ifA with locked := false, valid := false, adopt := none, last := none, due := [], rx := {} }, held := c.held.filter (fun d => d.onB), due := c.due.filter (fun d => d.onB) } : CellCtl).enter .safe) s)) ∧
  (∀ (cid : Nat) (c : CellCtl) (s : State),
    ctlGet s cid = c →
    c.ifA.inUse = false ∨ c.ifA.locked = false →
    c.state = .running ∨ c.state = .blocked ∨ c.state = .locked →
    exec (.cellLinkLoss cid true) s = .next (ctlUpd cid (fun _ => ({ c with ifB := { c.ifB with locked := false, valid := false, adopt := none, last := none, due := [], rx := {} }, held := c.held.filter (fun d => !d.onB), due := c.due.filter (fun d => !d.onB) } : CellCtl).enter .safe) s)) ∧
  (∀ (cid : Nat) (c : CellCtl) (s : State),
    ctlGet s cid = c →
    (c.ifB.inUse = true ∧ c.ifB.locked = true) ∨ (c.state ≠ .running ∧ c.state ≠ .blocked ∧ c.state ≠ .locked) →
    exec (.cellLinkLoss cid false) s = .next (ctlUpd cid (fun _ => { c with ifA := { c.ifA with locked := false, valid := false, adopt := none, last := none, due := [], rx := {} }, held := c.held.filter (fun d => d.onB), due := c.due.filter (fun d => d.onB) }) s)) ∧
  (∀ (cid : Nat) (c : CellCtl) (s : State),
    ctlGet s cid = c →
    (c.ifA.inUse = true ∧ c.ifA.locked = true) ∨ (c.state ≠ .running ∧ c.state ≠ .blocked ∧ c.state ≠ .locked) →
    exec (.cellLinkLoss cid true) s = .next (ctlUpd cid (fun _ => { c with ifB := { c.ifB with locked := false, valid := false, adopt := none, last := none, due := [], rx := {} }, held := c.held.filter (fun d => !d.onB), due := c.due.filter (fun d => !d.onB) }) s)) ∧
  (∀ (cid : Nat) (c : CellCtl) (e : Edge) (r : List Edge) (s : State),
    ctlGet s cid = c →
    c.state = .running →
    c.edges = e :: r →
    exec (.cellEdgeExecute cid) s = .next (ctlUpd cid (fun _ => { c with edges := r, pattern := e.dest, lastEdge := some e.at_, edgeCnt := c.edgeCnt + 1 }) s)) ∧
  (∀ (cid : Nat) (c : CellCtl) (s : State),
    ctlGet s cid = c →
    c.state ≠ .running ∨ c.edges = [] →
    exec (.cellEdgeExecute cid) s = .next (ctlUpd cid (fun _ => c) s)) ∧
  (∀ (cid : Nat) (c : CellCtl) (u : BitVec 4 × Bool) (v : Word16) (w : Byte) (x : BitVec 11) (s : State),
    ctlGet s cid = c →
    c.cur = some u →
    exec (.cellSampleLatch cid v w x) s = .next (ctlUpd cid (fun _ => { c with report := 0#2 ++ v ++ BitVec.ofNat 2 c.pattern.code ++ BitVec.ofNat 3 c.state.code ++ BitVec.ofBool c.safeByp ++ BitVec.ofBool u.2 ++ u.1 ++ w ++ faultFlags c ++ c.errcnt ++ auxOf c x }) { s with freeCtr := s.freeCtr + 1 })) ∧
  (∀ (cid : Nat) (c : CellCtl) (v : Word16) (w : Byte) (x : BitVec 11) (s : State),
    ctlGet s cid = c →
    c.cur = none →
    ∃ u : BitVec 4 × Bool, exec (.cellSampleLatch cid v w x) s = .next (ctlUpd cid (fun _ => { c with report := tickReport c u v w x }) { s with freeCtr := s.freeCtr + 1 })) ∧
  (∀ (cid : Nat) (c : CellCtl) (b : Bool) (s : State),
    ctlGet s cid = c →
    (c.iface b).locked = true →
    (c.iface b).valid = true →
    (c.iface b).range = true →
    exec (.cellBurstLaunch cid b) s = .next (ctlUpd cid (fun _ => { (c.setIface b { c.iface b with range := false }) with burst := some (burstAt (1#2 ++ BitVec.ofNat 7 cid ++ 0#7 ++ c.identity) b (100 * (((c.iface b).bj : Int) + 1024 + (c.iface b).dDown))) }) s)) ∧
  (∀ (cid : Nat) (c : CellCtl) (b : Bool) (s : State),
    ctlGet s cid = c →
    (c.iface b).locked = true →
    (c.iface b).valid = true →
    (c.iface b).range = false →
    (c.iface b).quiet = false →
    (c.iface b).upSleep = false →
    c.reply = none →
    exec (.cellBurstLaunch cid b) s = .next (ctlUpd cid (fun _ => { c with burst := some (burstAt c.report b (100 * (((c.iface b).bj : Int) + 1024 - (c.iface b).dUp) + 98304 * (cid % 128 : Nat))) }) s)) ∧
  (∀ (cid : Nat) (c : CellCtl) (b : Bool) (k : BitVec 5) (r : BitVec 2) (s : State),
    ctlGet s cid = c →
    (c.iface b).locked = true →
    (c.iface b).valid = true →
    (c.iface b).range = false →
    (c.iface b).quiet = false →
    (c.iface b).upSleep = false →
    c.reply = some (k, r) →
    exec (.cellBurstLaunch cid b) s = .next (ctlUpd cid (fun _ => { c with burst := some (burstAt (mgmtReplyWord cid c k r) b (100 * (((c.iface b).bj : Int) + 1024 - (c.iface b).dUp) + 98304 * (cid % 128 : Nat))) }) s)) ∧
  (∀ (cid : Nat) (c : CellCtl) (b : Bool) (s : State),
    ctlGet s cid = c →
    (c.iface b).locked = false ∨ (c.iface b).valid = false ∨ ((c.iface b).range = false ∧ ((c.iface b).quiet = true ∨ (c.iface b).upSleep = true)) →
    exec (.cellBurstLaunch cid b) s = .next (ctlUpd cid (fun _ => c) s)) ∧
  (∀ (cid : Nat) (c : CellCtl) (s : State),
    ctlGet s cid = c →
    c.state ≠ .bypassed →
    exec (.cellFaultDetect cid (.overVoltage true)) s = .next (ctlUpd cid (fun _ => ({ c with ov := true } : CellCtl).enter .fault) s)) ∧
  (∀ (cid : Nat) (c : CellCtl) (s : State),
    ctlGet s cid = c →
    c.state = .bypassed →
    exec (.cellFaultDetect cid (.overVoltage true)) s = .next (ctlUpd cid (fun _ => { c with ov := true }) s)) ∧
  (∀ (cid : Nat) (c : CellCtl) (s : State),
    ctlGet s cid = c →
    c.state ≠ .bypassed →
    exec (.cellFaultDetect cid (.desat)) s = .next (ctlUpd cid (fun _ => ({ c with desat := true, faultNow := true } : CellCtl).enter .fault) s)) ∧
  (∀ (cid : Nat) (c : CellCtl) (s : State),
    ctlGet s cid = c →
    c.state = .bypassed →
    exec (.cellFaultDetect cid (.desat)) s = .next (ctlUpd cid (fun _ => { c with desat := true, faultNow := true }) s)) ∧
  (∀ (cid : Nat) (c : CellCtl) (s : State),
    ctlGet s cid = c →
    c.state ≠ .bypassed →
    exec (.cellFaultDetect cid (.gate)) s = .next (ctlUpd cid (fun _ => ({ c with gate := true, faultNow := true } : CellCtl).enter .fault) s)) ∧
  (∀ (cid : Nat) (c : CellCtl) (s : State),
    ctlGet s cid = c →
    c.state = .bypassed →
    exec (.cellFaultDetect cid (.gate)) s = .next (ctlUpd cid (fun _ => { c with gate := true, faultNow := true }) s)) ∧
  (∀ (cid : Nat) (c : CellCtl) (b : Bool) (s : State),
    ctlGet s cid = c →
    exec (.cellFaultDetect cid (.supply b)) s = .next (ctlUpd cid (fun _ => { c with sup := b }) s)) ∧
  (∀ (cid : Nat) (c : CellCtl) (b : Bool) (s : State),
    ctlGet s cid = c →
    exec (.cellFaultDetect cid (.hot b)) s = .next (ctlUpd cid (fun _ => { c with hot := b }) s)) ∧
  (∀ (cid : Nat) (c : CellCtl) (s : State),
    ctlGet s cid = c →
    exec (.cellFaultDetect cid (.overVoltage false)) s = .next (ctlUpd cid (fun _ => { c with ov := false }) s)) ∧
  (∀ (cid : Nat) (c : CellCtl) (s : State),
    ctlGet s cid = c →
    exec (.cellFaultDetect cid .cleared) s = .next (ctlUpd cid (fun _ => { c with faultNow := false }) s)) ∧
  (∀ (cid : Nat) (c : CellCtl) (s : State),
    ctlGet s cid = c →
    exec (.cellPermBypass cid) s = .next (ctlUpd cid (fun _ => { (c.enter .bypassed) with byp := true }) s))

/-- On a unit with the arm fitted, in the states and roles of Table 8.6, with the parameters in range. AIE_ARM_CONFIG whose cell count, dies,
reference loop and negative insertion fit stages the parameters into shadow set bit 1 and answers the count and delta_x under the current
group set; where one of them does not fit it answers CONFLICT with the same values and stages nothing. AIE_SELECT_PARAMS stages and answers
rho, AIE_DERATE_CONFIG stages and answers delta_x of each arm of the group, into the same set. The active sets stay as they are until a
commit. AIE_WEAR_READ writes the entries of the arm and their CRC and answers the mean wear and the tick of the last save; AIE_ARM_STATUS
answers the status. On the M2, or with an arm absent, each that names an arm answers NOT_FITTED. -/
def Obligations.InsertionEngineCommands : Prop :=
  (∀ (c : Cmd) (s : State),
    Admits c s [.config, .factoryTest] [.active, .standby] →
    Inline c 28 →
    isM2 s = false →
    c.u8 0 < 12 →
    armOk s (c.u8 0) = true →
    mprOk s = true ∨ (srcMpr (c.u16 18) = false ∧ srcMpr (c.u16 20) = false) →
    setHeld s 1 = false →
    c.u8 1 < 2 →
    1 ≤ c.u16 2 →
    c.u16 2 + c.u16 4 ≤ armCells s.tick.len →
    1 ≤ c.u16 6 →
    1 ≤ c.u32 8 →
    c.u32 8 ≤ 2000000 →
    1 ≤ c.u32 12 →
    c.u32 12 ≤ 100000 →
    c.u16 16 < 512 →
    srcOk (c.u16 18) = true →
    srcOk (c.u16 20) = true →
    c.u16 22 = 0 ∨ 64 ≤ c.u16 22 →
    c.u8 24 < 2 →
    c.rsv 25 3 = true →
    c.u16 2 + c.u16 4 = (armCids s (c.u8 0)).length →
    (armCids s (c.u8 0)).any (fun x => x / 128 / 16 != c.u8 0 / 6) = false →
    c.u16 16 / 256 = c.u8 0 / 6 →
    s.tick.len ≠ 1 ∨ c.u16 16 % 256 < 128 →
    c.u8 24 = 0 ∨ (armCids s (c.u8 0)).any (fullBridge s) = true →
    exec (.aieArmConfig c) s = .next (answer 0x0401 c .ok (le 2 (armCids s (c.u8 0)).length ++ leS 2 (deltaX (readArmCfg c) (derCfg s (c.u8 1)))) (stage 1 c.params (s.onAie (fun e => { e with armNew := tset e.armNew (c.u8 0) (readArmCfg c) }))))) ∧
  (∀ (c : Cmd) (s : State),
    Admits c s [.config, .factoryTest] [.active, .standby] →
    Inline c 28 →
    isM2 s = false →
    c.u8 0 < 12 →
    armOk s (c.u8 0) = true →
    mprOk s = true ∨ (srcMpr (c.u16 18) = false ∧ srcMpr (c.u16 20) = false) →
    setHeld s 1 = false →
    c.u8 1 < 2 →
    1 ≤ c.u16 2 →
    c.u16 2 + c.u16 4 ≤ armCells s.tick.len →
    1 ≤ c.u16 6 →
    1 ≤ c.u32 8 →
    c.u32 8 ≤ 2000000 →
    1 ≤ c.u32 12 →
    c.u32 12 ≤ 100000 →
    c.u16 16 < 512 →
    srcOk (c.u16 18) = true →
    srcOk (c.u16 20) = true →
    c.u16 22 = 0 ∨ 64 ≤ c.u16 22 →
    c.u8 24 < 2 →
    c.rsv 25 3 = true →
    c.u16 2 + c.u16 4 ≠ (armCids s (c.u8 0)).length ∨ (armCids s (c.u8 0)).any (fun x => x / 128 / 16 != c.u8 0 / 6) = true ∨ c.u16 16 / 256 ≠ c.u8 0 / 6 ∨ (s.tick.len = 1 ∧ 128 ≤ c.u16 16 % 256) ∨ (c.u8 24 = 1 ∧ (armCids s (c.u8 0)).any (fullBridge s) = false) →
    exec (.aieArmConfig c) s = .next (answer 0x0401 c .conflict (le 2 (armCids s (c.u8 0)).length ++ leS 2 (deltaX (readArmCfg c) (derCfg s (c.u8 1)))) s)) ∧
  (∀ (c : Cmd) (s : State),
    Admits c s [.config, .standby, .deblocked, .safeStop, .blockedFault, .factoryTest] [.active, .standby] →
    Inline c 24 →
    isM2 s = false →
    c.u8 0 < 12 →
    armOk s (c.u8 0) = true →
    setHeld s 1 = false →
    c.rsv 1 1 = true →
    c.rsv 15 1 = true →
    1 ≤ c.u16 6 →
    c.u16 6 ≤ 64 →
    c.u32 8 < 2 ^ 31 →
    1 ≤ c.u16 12 →
    c.u16 12 ≤ 10000 →
    1 ≤ c.u8 14 →
    c.u8 14 ≤ 64 →
    c.u16 16 = 0 ∨ (1200 ≤ c.u16 16 ∧ c.u16 16 < stepsOf s.tick.len) →
    exec (.aieSelectParams c) s = .next (answer 0x0402 c .ok (leS 2 (rho (readSelCfg c) s.tick.len)) (stage 1 c.params (s.onAie (fun e => { e with selNew := tset e.selNew (c.u8 0) (readSelCfg c) }))))) ∧
  (∀ (c : Cmd) (s : State),
    Admits c s [.config, .standby, .deblocked, .safeStop, .blockedFault, .factoryTest] [.active, .standby] →
    Inline c 32 →
    isM2 s = false →
    c.u8 0 < 2 →
    setHeld s 1 = false →
    c.rsv 1 3 = true →
    268435456 ≤ c.s32 4 →
    c.s32 4 ≤ c.s32 8 →
    c.s32 8 ≤ 536870912 →
    0 < c.s32 12 →
    c.s32 12 ≤ 134217728 →
    0 ≤ c.s32 16 →
    c.s32 16 ≤ one28 →
    0 < c.s32 20 →
    c.s32 20 ≤ one28 →
    0 < c.s32 24 →
    c.s32 24 ≤ one28 →
    64 ≤ c.u16 28 →
    c.u16 30 ≤ c.u16 28 →
    exec (.aieDerateConfig c) s = .next (answer 0x0403 c .ok ((((List.range 12).filterMap (fun a => armCfg s a)).filter (fun x => x.group == c.u8 0)).flatMap (fun x => leS 2 (deltaX x (readDerateCfg c)))) (stage 1 c.params (s.onAie (fun e => { e with derNew := tset e.derNew (c.u8 0) (readDerateCfg c) }))))) ∧
  (∀ (c : Cmd) (s : State),
    Serving s →
    Inline c 12 →
    c.mb ≠ 0 →
    isM2 s = false →
    c.u8 0 < 12 →
    armOk s (c.u8 0) = true →
    c.rsv 1 3 = true →
    c.u64 4 % 64 = 0 →
    c.u64 4 ≠ 0 →
    exec (.aieWearRead c) s = .next (answer 0x0404 c .ok (le 2 (armCids s (c.u8 0)).length ++ le 2 0 ++ le 8 (armGet s (c.u8 0)).meanWear ++ le 4 s.aie.saved) (putBuf (c.u64 4) (withCrc ((armCids s (c.u8 0)).flatMap (wearEntry s (c.u8 0)))) s))) ∧
  (∀ (c : Cmd) (s : State),
    Serving s →
    Inline c 4 →
    c.mb ≠ 0 →
    isM2 s = false →
    c.u8 0 < 12 →
    armOk s (c.u8 0) = true →
    c.rsv 1 3 = true →
    exec (.aieArmStatus c) s = .next (answer 0x0405 c .ok (armStatus s (c.u8 0)) s)) ∧
  (∀ (c : Cmd) (s : State),
    Serving s →
    c.mb ≠ 0 →
    Inline c 28 →
    isM2 s = true ∨ (c.u8 0 < 12 ∧ armOk s (c.u8 0) = false) →
    exec (.aieArmConfig c) s = .next (answer 0x0401 c .notFitted [] s)) ∧
  (∀ (c : Cmd) (s : State),
    Serving s →
    c.mb ≠ 0 →
    Inline c 24 →
    isM2 s = true ∨ (c.u8 0 < 12 ∧ armOk s (c.u8 0) = false) →
    exec (.aieSelectParams c) s = .next (answer 0x0402 c .notFitted [] s)) ∧
  (∀ (c : Cmd) (s : State),
    Serving s →
    c.mb ≠ 0 →
    Inline c 32 →
    isM2 s = true →
    exec (.aieDerateConfig c) s = .next (answer 0x0403 c .notFitted [] s)) ∧
  (∀ (c : Cmd) (s : State),
    Serving s →
    c.mb ≠ 0 →
    Inline c 12 →
    isM2 s = true ∨ (c.u8 0 < 12 ∧ armOk s (c.u8 0) = false) →
    exec (.aieWearRead c) s = .next (answer 0x0404 c .notFitted [] s)) ∧
  (∀ (c : Cmd) (s : State),
    Serving s →
    c.mb ≠ 0 →
    Inline c 4 →
    isM2 s = true ∨ (c.u8 0 < 12 ∧ armOk s (c.u8 0) = false) →
    exec (.aieArmStatus c) s = .next (answer 0x0405 c .notFitted [] s))

/-- A clamp window ends on a configured arm that is fitted, and elsewhere changes nothing; 64 ticks of MISMATCH set UNRESOLVED and report it
once, fewer ticks, no MISMATCH or one already reported change nothing; while the cells run, a designated cell as old as the rotation
interval is due for rotation, and otherwise nothing changes; the mean wear, the credits and the penalties of every arm are recomputed; wear
is saved; three overruns of an arm while the cells run are reported and start a controlled block, fewer, or in another state, change
nothing. -/
def Obligations.InsertionEngineEvents : Prop :=
  (∀ (a : Nat) (k : ArmCfg) (s : State),
    armCfg s a = some k →
    armOk s a = true →
    exec (.aieClampWindowEnd a) s = .next (clampWindow a k s)) ∧
  (∀ (a : Nat) (s : State),
    armCfg s a = none ∨ armOk s a = false →
    exec (.aieClampWindowEnd a) s = .next s) ∧
  (∀ (a : Nat) (s : State),
    (armGet s a).mismatch = true →
    64 ≤ (armGet s a).mmTicks →
    (armGet s a).unresolved = false →
    exec (.aieUnresolved a) s = .next (aieEvent a 0x09 .contained a [] (armUpd a (fun x => { x with unresolved := true }) s))) ∧
  (∀ (a : Nat) (s : State),
    (armGet s a).mismatch = false ∨ (armGet s a).mmTicks < 64 ∨ (armGet s a).unresolved = true →
    exec (.aieUnresolved a) s = .next s) ∧
  (∀ (a : Nat) (k : ArmCfg) (s : State),
    armCfg s a = some k →
    running s = true →
    0 < k.rot →
    k.rot ≤ (armGet s a).desigAge →
    exec (.designatedCellRotate a) s = .next (armUpd a (fun x => { x with desigAge := k.rot }) s)) ∧
  (∀ (a : Nat) (s : State),
    running s = false ∨ (armCfg s a).all (fun k => k.rot == 0 || decide ((armGet s a).desigAge < k.rot)) = true →
    exec (.designatedCellRotate a) s = .next s) ∧
  (∀ (s : State),
    exec .wearPenaltyRecompute s = .next ((arms s).foldl (fun t a => penalties a t) s) ∧ exec .wearSave s = .next (wearSave s)) ∧
  (∀ (a : Nat) (s : State),
    running s = true →
    3 ≤ tget 0 s.tick.overCnt a →
    exec (.armOverrunLimit a) s = .next (aieEvent a 0x02 .notice a [] (controlledBlock s))) ∧
  (∀ (a : Nat) (s : State),
    running s = false ∨ tget 0 s.tick.overCnt a < 3 →
    exec (.armOverrunLimit a) s = .next s)

/-- In the states and roles of Table 9.10, with the MPR, or the arm, fitted and the parameters in range. PWM_ARM_CONFIG, PWM_PAIR_CONFIG and
PWM_TRIP_CONFIG stage them into shadow set bit 2 and answer the value their row names; a pair whose source is on an absent CTL die is
CONFLICT. PWM_TRIP_CLEAR while a named comparator, or one that can trip a named pair, is active answers TRIP_ACTIVE; while one that can trip
a named pair is latched and not named, CONFLICT; either clears nothing; else it clears the named latches of comparators and pairs, forgets
the first with the last latch, and answers what is left. PWM_STATUS answers for an arm generator, a pair, and the comparators, and changes
nothing. -/
def Obligations.PwmCommandsStageAndClear : Prop :=
  (∀ (c : Cmd) (s : State),
    Admits c s [.config, .standby, .deblocked, .safeStop, .blockedFault, .factoryTest] [.active, .standby] →
    Inline c 8 →
    isM2 s = false →
    c.u8 0 < 12 →
    armOk s (c.u8 0) = true →
    setHeld s 2 = false →
    c.u8 1 < 4 →
    1 ≤ c.u16 2 →
    c.u16 2 ≤ 256 →
    c.u32 4 ≤ stepsOf s.tick.len →
    exec (.pwmArmConfig c) s = .next (answer 0x0501 c .ok (le 4 (emaxOf { ev := c.u8 1, eps := c.u16 2, emax := c.u32 4 } (stepsOf s.tick.len))) (stage 2 c.params (s.onPwm (fun w => { w with genNew := tset w.genNew (c.u8 0) { ev := c.u8 1, eps := c.u16 2, emax := c.u32 4 } }))))) ∧
  (∀ (c : Cmd) (s : State),
    Admits c s [.config, .standby, .deblocked, .safeStop, .blockedFault, .factoryTest] [.active, .standby] →
    Inline c 24 →
    mprOk s = true →
    setHeld s 2 = false →
    c.u8 0 < 8 →
    pairParOk c (readPairCfg c) = true →
    c.u16 8 / 16384 = 0 ∨ ctlOk s (c.u16 8 / 256 % 2) = true →
    exec (.pwmPairConfig c) s = .next (answer 0x0502 c .ok (le 4 (pairPeriod (readPairCfg c))) (stage 2 c.params (s.onPwm (fun w => { w with pairNew := tset w.pairNew (c.u8 0) (readPairCfg c) }))))) ∧
  (∀ (c : Cmd) (s : State),
    Admits c s [.config, .standby, .deblocked, .safeStop, .blockedFault, .factoryTest] [.active, .standby] →
    Inline c 24 →
    mprOk s = true →
    setHeld s 2 = false →
    c.u8 0 < 8 →
    pairParOk c (readPairCfg c) = true →
    c.u16 8 / 16384 ≠ 0 →
    ctlOk s (c.u16 8 / 256 % 2) = false →
    exec (.pwmPairConfig c) s = .next (answer 0x0502 c .conflict [] s)) ∧
  (∀ (c : Cmd) (s : State),
    Admits c s [.config, .standby, .deblocked, .safeStop, .blockedFault, .factoryTest] [.active, .standby] →
    Inline c 8 →
    mprOk s = true →
    setHeld s 2 = false →
    c.u8 0 < 24 →
    c.u8 1 < 32 →
    c.u16 2 < 4096 →
    c.rsv 5 3 = true →
    exec (.pwmTripConfig c) s = .next (answer 0x0503 c .ok (le 4 (roundDiv (((c.u16 2 * 78125 : Nat)) : Int) 100).toNat) (stage 2 c.params (s.onPwm (fun w => { w with cmpNew := tset w.cmpNew (c.u8 0) { flags := c.u8 1, thr := c.u16 2, pmask := c.u8 4 } }))))) ∧
  (∀ (c : Cmd) (s : State),
    Admits c s [.config, .standby, .deblocked, .safeStop, .blockedFault, .factoryTest] [.active, .standby] →
    Inline c 8 →
    mprOk s = true →
    c.u32 0 < 2 ^ 24 →
    c.rsv 5 3 = true →
    c.u32 0 ≠ 0 ∨ c.u8 4 ≠ 0 →
    (List.range 24).any (fun n => bit (c.u32 0) n && s.pwm.active.getLsbD n) = true ∨ ((List.range 8).filter (bit (c.u8 4))).any (fun p => (tripSources s p).any (fun n => s.pwm.active.getLsbD n)) = true →
    exec (.pwmTripClear c) s = .next (answer 0x0504 c .tripActive [] s)) ∧
  (∀ (c : Cmd) (s : State),
    Admits c s [.config, .standby, .deblocked, .safeStop, .blockedFault, .factoryTest] [.active, .standby] →
    Inline c 8 →
    mprOk s = true →
    c.u32 0 < 2 ^ 24 →
    c.rsv 5 3 = true →
    c.u32 0 ≠ 0 ∨ c.u8 4 ≠ 0 →
    (List.range 24).any (fun n => bit (c.u32 0) n && s.pwm.active.getLsbD n) = false →
    ((List.range 8).filter (bit (c.u8 4))).any (fun p => (tripSources s p).any (fun n => s.pwm.active.getLsbD n)) = false →
    ((List.range 8).filter (bit (c.u8 4))).any (fun p => (tripSources s p).any (fun n => s.pwm.latched.getLsbD n && !bit (c.u32 0) n)) = true →
    exec (.pwmTripClear c) s = .next (answer 0x0504 c .conflict [] s)) ∧
  (∀ (c : Cmd) (s : State),
    Admits c s [.config, .standby, .deblocked, .safeStop, .blockedFault, .factoryTest] [.active, .standby] →
    Inline c 8 →
    mprOk s = true →
    c.u32 0 < 2 ^ 24 →
    c.rsv 5 3 = true →
    c.u32 0 ≠ 0 ∨ c.u8 4 ≠ 0 →
    (List.range 24).any (fun n => bit (c.u32 0) n && s.pwm.active.getLsbD n) = false →
    ((List.range 8).filter (bit (c.u8 4))).any (fun p => (tripSources s p).any (fun n => s.pwm.active.getLsbD n)) = false →
    ((List.range 8).filter (bit (c.u8 4))).any (fun p => (tripSources s p).any (fun n => s.pwm.latched.getLsbD n && !bit (c.u32 0) n)) = false →
    exec (.pwmTripClear c) s = .next (answer 0x0504 c .ok (le 4 (if (((List.range 8).filter (bit (c.u8 4))).foldl (fun t p => pairUpd p (fun x => { x with latch := false }) t) (s.onPwm (fun w => { w with latched := w.latched &&& ~~~(BitVec.ofNat 24 (c.u32 0)) }))).pwm.latched = 0 then (((List.range 8).filter (bit (c.u8 4))).foldl (fun t p => pairUpd p (fun x => { x with latch := false }) t) (s.onPwm (fun w => { w with latched := w.latched &&& ~~~(BitVec.ofNat 24 (c.u32 0)) }))).onPwm (fun w => { w with first := none }) else (((List.range 8).filter (bit (c.u8 4))).foldl (fun t p => pairUpd p (fun x => { x with latch := false }) t) (s.onPwm (fun w => { w with latched := w.latched &&& ~~~(BitVec.ofNat 24 (c.u32 0)) })))).pwm.latched.toNat ++ le 1 (maskOf ((List.range 8).filter (fun p => (pairGet (if (((List.range 8).filter (bit (c.u8 4))).foldl (fun t p => pairUpd p (fun x => { x with latch := false }) t) (s.onPwm (fun w => { w with latched := w.latched &&& ~~~(BitVec.ofNat 24 (c.u32 0)) }))).pwm.latched = 0 then (((List.range 8).filter (bit (c.u8 4))).foldl (fun t p => pairUpd p (fun x => { x with latch := false }) t) (s.onPwm (fun w => { w with latched := w.latched &&& ~~~(BitVec.ofNat 24 (c.u32 0)) }))).onPwm (fun w => { w with first := none }) else (((List.range 8).filter (bit (c.u8 4))).foldl (fun t p => pairUpd p (fun x => { x with latch := false }) t) (s.onPwm (fun w => { w with latched := w.latched &&& ~~~(BitVec.ofNat 24 (c.u32 0)) })))) p).latch))) ++ le 3 0) (if (((List.range 8).filter (bit (c.u8 4))).foldl (fun t p => pairUpd p (fun x => { x with latch := false }) t) (s.onPwm (fun w => { w with latched := w.latched &&& ~~~(BitVec.ofNat 24 (c.u32 0)) }))).pwm.latched = 0 then (((List.range 8).filter (bit (c.u8 4))).foldl (fun t p => pairUpd p (fun x => { x with latch := false }) t) (s.onPwm (fun w => { w with latched := w.latched &&& ~~~(BitVec.ofNat 24 (c.u32 0)) }))).onPwm (fun w => { w with first := none }) else (((List.range 8).filter (bit (c.u8 4))).foldl (fun t p => pairUpd p (fun x => { x with latch := false }) t) (s.onPwm (fun w => { w with latched := w.latched &&& ~~~(BitVec.ofNat 24 (c.u32 0)) })))))) ∧
  (∀ (c : Cmd) (s : State),
    Serving s →
    Inline c 4 →
    c.mb ≠ 0 →
    c.u8 0 = 0 →
    c.u8 1 < 12 →
    isM2 s = false →
    armOk s (c.u8 1) = true →
    c.rsv 2 2 = true →
    exec (.pwmStatus c) s = .next (answer 0x0505 c .ok (le 1 (c.u8 1) ++ le 1 (b2n (genGet s (c.u8 1)).baseIn + 2 * b2n (genGet s (c.u8 1)).bpolNeg) ++ le 2 ((armGet s (c.u8 1)).desig.getD 0xFFFF) ++ leS 4 (genGet s (c.u8 1)).carry ++ leS 4 (genGet s (c.u8 1)).wout ++ le 4 (genGet s (c.u8 1)).sats ++ le 4 (genGet s (c.u8 1)).resets ++ le 4 (genGet s (c.u8 1)).noWin ++ le 8 (genGet s (c.u8 1)).edges) s)) ∧
  (∀ (c : Cmd) (s : State),
    Serving s →
    Inline c 4 →
    c.mb ≠ 0 →
    c.u8 0 = 1 →
    c.u8 1 < 8 →
    mprOk s = true →
    c.rsv 2 2 = true →
    exec (.pwmStatus c) s = .next (answer 0x0505 c .ok (le 1 (c.u8 1) ++ le 1 (pairState s (c.u8 1)) ++ le 2 (pairGet s (c.u8 1)).tag.toNat ++ le 2 (pairGet s (c.u8 1)).cmp ++ le 2 0 ++ le 2 (listMin ((pairGet s (c.u8 1)).dtA.map (·.2))) ++ le 2 (listMax ((pairGet s (c.u8 1)).dtA.map (·.2))) ++ le 2 (listMin ((pairGet s (c.u8 1)).dtB.map (·.2))) ++ le 2 (listMax ((pairGet s (c.u8 1)).dtB.map (·.2))) ++ le 4 (pairGet s (c.u8 1)).missed ++ le 4 (pairGet s (c.u8 1)).trips ++ le 4 (maskOf ((tripSources s (c.u8 1)).filter (fun n => s.pwm.latched.getLsbD n)))) s)) ∧
  (∀ (c : Cmd) (s : State),
    Serving s →
    Inline c 4 →
    c.mb ≠ 0 →
    mprOk s = true →
    c.u8 0 = 2 →
    c.u8 1 = 0 →
    c.rsv 2 2 = true →
    exec (.pwmStatus c) s = .next (answer 0x0505 c .ok (le 4 s.pwm.active.toNat ++ le 4 s.pwm.latched.toNat ++ le 4 s.pwm.blockedBy.toNat ++ le 1 (s.pwm.first.elim 0xFF (·.1)) ++ le 3 0 ++ le 8 (s.pwm.first.elim 0 (·.2)) ++ le 1 (maskOf ((List.range 8).filter (fun p => (pairGet s p).latch))) ++ le 1 0) s))

/-- Of a pair that is fitted and whose counter runs, at the instant where its counter comes to the value named: 0 counts the period and the
occurrence, reloads, moves the demand and may start the pair; P counts the occurrence, reloads in centre-aligned mode with RELOAD2, and
moves the demand; CMP on the way up ends A's demand, below CMP on the way down of a centre-aligned counter begins it; CMP 0 and CMP above P
never pass. At another instant, or for a pair that is OFF, they change nothing. A published value reaches the holding register with its tag,
and without one nothing changes. The awaited level within DT_max of a dead time that is not fixed is kept once; any other sensing changes
nothing. The end of a dead time turns on the output it waits for where its demand still holds, keeps the dead time of one that is not fixed,
and counts a miss where nothing was sensed; without a dead time it changes nothing. An enabled comparator becomes active and latched, trips
its pairs and reports; with its block flag, in STANDBY, DEBLOCKED and SAFE_STOP it also sends the block frames and sets the trigger of cause
0x31. A disabled or absent one does nothing. Inactive clears only the active bit. -/
def Obligations.PairEventsDriveTheOutputs : Prop :=
  (∀ (p o : Nat) (s : State),
    pairOn s p = true →
    pairCount s p o = some 0 →
    exec (.pairCounterZero p o) s = .next (pairStart p (setDemand p (decide (0 < (pairGet (reload p (pairOccur p 1 o (pairUpd p periodNext s))) p).cmp)) o (reload p (pairOccur p 1 o (pairUpd p periodNext s)))))) ∧
  (∀ (p o : Nat) (s : State),
    pairOn s p = false ∨ pairCount s p o ≠ some 0 →
    exec (.pairCounterZero p o) s = .next s) ∧
  (∀ (p o : Nat) (s : State),
    pairOn s p = true →
    pairCount s p o = some (pairCfg s p).period →
    centred (pairCfg s p) = false ∨ bit (pairCfg s p).mode 3 = false →
    exec (.pairCounterPeriod p o) s = .next (setDemand p (decide ((pairCfg s p).period < (pairGet (pairOccur p 3 o s) p).cmp)) o (pairOccur p 3 o s))) ∧
  (∀ (p o : Nat) (s : State),
    pairOn s p = true →
    pairCount s p o = some (pairCfg s p).period →
    centred (pairCfg s p) = true →
    bit (pairCfg s p).mode 3 = true →
    exec (.pairCounterPeriod p o) s = .next (setDemand p (decide ((pairCfg s p).period < (pairGet (reload p (pairOccur p 3 o s)) p).cmp)) o (reload p (pairOccur p 3 o s)))) ∧
  (∀ (p o : Nat) (s : State),
    pairOn s p = false ∨ pairCount s p o ≠ some (pairCfg s p).period →
    exec (.pairCounterPeriod p o) s = .next s) ∧
  (∀ (p o : Nat) (s : State),
    pairOn s p = true →
    0 < (pairGet s p).cmp →
    (pairGet s p).cmp ≤ (pairCfg s p).period →
    pairCount s p o = some (pairGet s p).cmp →
    exec (.pairCompareMatch p o true) s = .next (setDemand p false o s)) ∧
  (∀ (p o : Nat) (s : State),
    pairOn s p = true →
    0 < (pairGet s p).cmp →
    (pairGet s p).cmp ≤ (pairCfg s p).period →
    centred (pairCfg s p) = true →
    pairCount s p o = some (2 * (pairCfg s p).period + 1 - (pairGet s p).cmp) →
    exec (.pairCompareMatch p o false) s = .next (setDemand p true o s)) ∧
  (∀ (p o : Nat) (b : Bool) (s : State),
    pairOn s p = false ∨ (pairGet s p).cmp = 0 ∨ (pairCfg s p).period < (pairGet s p).cmp ∨ (b = false ∧ centred (pairCfg s p) = false) ∨ pairCount s p o ≠ some (if b then (pairGet s p).cmp else 2 * (pairCfg s p).period + 1 - (pairGet s p).cmp) →
    exec (.pairCompareMatch p o b) s = .next s) ∧
  (∀ (p : Nat) (v : Int) (k : Word16) (s : State),
    (pairGet s p).coming = some (v, k) →
    exec (.pairDutyArrival p) s = .next (pairUpd p (fun _ => { (pairGet s p) with hold := v, holdTag := k, coming := none }) s)) ∧
  (∀ (p : Nat) (s : State),
    (pairGet s p).coming = none →
    exec (.pairDutyArrival p) s = .next (pairUpd p (fun _ => pairGet s p) s)) ∧
  (∀ (p n : Nat) (b : Bool) (s : State),
    (pairGet s p).dead = some ⟨!b, none, false⟩ →
    n ≤ (pairCfg s p).dtMax →
    exec (.pairCommutationSensed p b n) s = .next (pairUpd p (fun _ => { (pairGet s p) with dead := some ⟨!b, some n, false⟩ }) s)) ∧
  (∀ (p n : Nat) (b : Bool) (s : State),
    (pairGet s p).dead.all (fun d => d.toB == b || d.sensed.isSome || d.fixed || decide ((pairCfg s p).dtMax < n)) = true →
    exec (.pairCommutationSensed p b n) s = .next (pairUpd p (fun _ => pairGet s p) s)) ∧
  (∀ (p : Nat) (d : Dead) (s : State),
    (pairGet s p).dead = some d →
    d.toB = true →
    exec (.pairDeadtimeEnd p) s = .next (pairUpd p (fun _ => { (pairGet s p) with dead := none, missed := if d.sensed.isNone && !d.fixed then inc32 (pairGet s p).missed else (pairGet s p).missed, outB := (pairGet s p).run && !(pairGet s p).demand, dtB := if d.fixed then (pairGet s p).dtB else ((pairGet s p).periods, (deadTime (pairCfg s p) d.sensed)) :: (pairGet s p).dtB }) s)) ∧
  (∀ (p : Nat) (d : Dead) (s : State),
    (pairGet s p).dead = some d →
    d.toB = false →
    exec (.pairDeadtimeEnd p) s = .next (pairUpd p (fun _ => { (pairGet s p) with dead := none, missed := if d.sensed.isNone && !d.fixed then inc32 (pairGet s p).missed else (pairGet s p).missed, outA := (pairGet s p).run && (pairGet s p).demand, dtA := if d.fixed then (pairGet s p).dtA else ((pairGet s p).periods, (deadTime (pairCfg s p) d.sensed)) :: (pairGet s p).dtA }) s)) ∧
  (∀ (p : Nat) (s : State),
    (pairGet s p).dead = none →
    exec (.pairDeadtimeEnd p) s = .next (pairUpd p (fun _ => pairGet s p) s)) ∧
  (∀ (n : Nat) (s : State),
    n < 24 →
    mprOk s = true →
    bit (cmpCfg s n).flags 0 = true →
    bit (cmpCfg s n).flags 2 = false ∨ (s.dev.state ≠ .standby ∧ s.dev.state ≠ .deblocked ∧ s.dev.state ≠ .safeStop) →
    exec (.comparatorActive n) s = .next (stoInput n (raise 3 0x022 0x01 .notice n [(cmpCfg s n).pmask, b2n (bit (cmpCfg s n).flags 2)] (((List.range 8).filter (bit (cmpCfg s n).pmask)).foldl (fun t p => pairTrip p t) (s.onPwm (fun w => { w with active := w.active ||| (1#24 <<< n), latched := w.latched ||| (1#24 <<< n), first := if w.latched = 0 then some (n, s.tick.index) else w.first })))))) ∧
  (∀ (n : Nat) (s : State),
    n < 24 →
    mprOk s = true →
    bit (cmpCfg s n).flags 0 = true →
    bit (cmpCfg s n).flags 2 = true →
    s.dev.state = .standby ∨ s.dev.state = .deblocked ∨ s.dev.state = .safeStop →
    exec (.comparatorActive n) s = .next (stoInput n (addTrigger .blockedFault 0x31 0 (blockAll 0x31 (raise 3 0x022 0x01 .notice n [(cmpCfg s n).pmask, 1] (((List.range 8).filter (bit (cmpCfg s n).pmask)).foldl (fun t p => pairTrip p t) (s.onPwm (fun w => { w with active := w.active ||| (1#24 <<< n), latched := w.latched ||| (1#24 <<< n), first := if w.latched = 0 then some (n, s.tick.index) else w.first, blockedBy := w.blockedBy ||| (1#24 <<< n) })))))))) ∧
  (∀ (n : Nat) (s : State),
    24 ≤ n ∨ mprOk s = false ∨ bit (cmpCfg s n).flags 0 = false →
    exec (.comparatorActive n) s = .next s) ∧
  (∀ (n : Nat) (s : State),
    exec (.comparatorInactive n) s = .next (s.onPwm (fun w => { w with active := w.active &&& ~~~(1#24 <<< n) })))

/-- On a unit with the channel's die fitted, in the states and roles of Table 10.9, with parameters in range: LOOP_CHANNEL_CONFIG,
LOOP_COEFF_LOAD, LOOP_TABLE_LOAD, LOOP_SCHEDULE_CONFIG, LOOP_REPETITIVE_CONFIG and LOOP_SUPERVISOR_CONFIG write the fields of their row into
the shadow of their channel and nothing else, and answer the value their row names; the active channel stays. With a source that is not
fitted, or a U_safe outside the limits, they answer CONFLICT, beyond 16 privileged or 192 repetitive channels of a die EXHAUSTED, and stage
nothing. LOOP_STATUS answers the counts, and writes the entries and their CRC where a buffer is named. On the M2, or with the die absent,
all answer NOT_FITTED. -/
def Obligations.LoopCommandsStageTheirChannel : Prop :=
  (∀ (c : Cmd) (s : State) (k : LoopCfg),
    k = { (loopShadow s (c.u16 0)) with form := c.u8 2, ffmode := c.u8 3, ref := c.u16 4, fb := c.u16 6, ffsrc := c.u16 8, track := c.u16 10, uhi := c.s32 12, ulo := c.s32 16, kb := c.s32 20, kff := c.s32 24, xmin := c.s32 28, limscale := c.u8 32, rconst := c.s32 36 } →
    Admits c s [.config, .standby, .blockedFault, .factoryTest] [.active, .standby] →
    Inline c 40 →
    isM2 s = false →
    ctlOk s (c.u16 0 / 256 % 2) = true →
    c.u16 0 < 512 →
    c.u16 0 % 256 < loopChannels s.tick.len →
    setHeld s 0 = false →
    k.form < 64 →
    k.ffmode < 3 →
    [k.ref, k.fb, k.ffsrc, k.track].all (selOk s.tick.len) = true →
    ffOk k.ffmode k.ffsrc = true →
    k.ulo ≤ k.uhi →
    0 ≤ k.kb →
    k.kb ≤ 536870912 →
    0 < k.xmin →
    k.limscale < 4 →
    c.rsv 33 3 = true →
    k.third = true ∨ (loopShadow s (c.u16 0)).coef.all (fun e => e.2.getD 3 0 == 0 && e.2.getD 6 0 == 0) = true →
    [k.ref, k.fb, k.ffsrc, k.track].all (selFit s (c.u16 0 / 256 % 2)) = true →
    k.ulo ≤ k.usafe →
    k.usafe ≤ k.uhi →
    ((shadowChannels (stageLoop (c.u16 0) c k s) (c.u16 0 / 256 % 2)).filter LoopCfg.privileged).length ≤ 16 →
    ((shadowChannels (stageLoop (c.u16 0) c k s) (c.u16 0 / 256 % 2)).filter LoopCfg.repetitive).length ≤ 192 →
    exec (.loopChannelConfig c) s = .next (answer 0x0601 c .ok (le 2 ((shadowChannels (stageLoop (c.u16 0) c k s) (c.u16 0 / 256 % 2)).filter LoopCfg.privileged).length ++ le 2 ((shadowChannels (stageLoop (c.u16 0) c k s) (c.u16 0 / 256 % 2)).filter (fun x => x.shape != 0 && x.rank1)).length) (stageLoop (c.u16 0) c k s))) ∧
  (∀ (c : Cmd) (s : State) (k : LoopCfg),
    k = { (loopShadow s (c.u16 0)) with form := c.u8 2, ffmode := c.u8 3, ref := c.u16 4, fb := c.u16 6, ffsrc := c.u16 8, track := c.u16 10, uhi := c.s32 12, ulo := c.s32 16, kb := c.s32 20, kff := c.s32 24, xmin := c.s32 28, limscale := c.u8 32, rconst := c.s32 36 } →
    Admits c s [.config, .standby, .blockedFault, .factoryTest] [.active, .standby] →
    Inline c 40 →
    isM2 s = false →
    ctlOk s (c.u16 0 / 256 % 2) = true →
    c.u16 0 < 512 →
    c.u16 0 % 256 < loopChannels s.tick.len →
    setHeld s 0 = false →
    k.form < 64 →
    k.ffmode < 3 →
    [k.ref, k.fb, k.ffsrc, k.track].all (selOk s.tick.len) = true →
    ffOk k.ffmode k.ffsrc = true →
    k.ulo ≤ k.uhi →
    0 ≤ k.kb →
    k.kb ≤ 536870912 →
    0 < k.xmin →
    k.limscale < 4 →
    c.rsv 33 3 = true →
    k.third = true ∨ (loopShadow s (c.u16 0)).coef.all (fun e => e.2.getD 3 0 == 0 && e.2.getD 6 0 == 0) = true →
    [k.ref, k.fb, k.ffsrc, k.track].all (selFit s (c.u16 0 / 256 % 2)) = false ∨ k.usafe < k.ulo ∨ k.uhi < k.usafe →
    exec (.loopChannelConfig c) s = .next (answer 0x0601 c .conflict [] s)) ∧
  (∀ (c : Cmd) (s : State) (k : LoopCfg),
    k = { (loopShadow s (c.u16 0)) with form := c.u8 2, ffmode := c.u8 3, ref := c.u16 4, fb := c.u16 6, ffsrc := c.u16 8, track := c.u16 10, uhi := c.s32 12, ulo := c.s32 16, kb := c.s32 20, kff := c.s32 24, xmin := c.s32 28, limscale := c.u8 32, rconst := c.s32 36 } →
    Admits c s [.config, .standby, .blockedFault, .factoryTest] [.active, .standby] →
    Inline c 40 →
    isM2 s = false →
    ctlOk s (c.u16 0 / 256 % 2) = true →
    c.u16 0 < 512 →
    c.u16 0 % 256 < loopChannels s.tick.len →
    setHeld s 0 = false →
    k.form < 64 →
    k.ffmode < 3 →
    [k.ref, k.fb, k.ffsrc, k.track].all (selOk s.tick.len) = true →
    ffOk k.ffmode k.ffsrc = true →
    k.ulo ≤ k.uhi →
    0 ≤ k.kb →
    k.kb ≤ 536870912 →
    0 < k.xmin →
    k.limscale < 4 →
    c.rsv 33 3 = true →
    k.third = true ∨ (loopShadow s (c.u16 0)).coef.all (fun e => e.2.getD 3 0 == 0 && e.2.getD 6 0 == 0) = true →
    [k.ref, k.fb, k.ffsrc, k.track].all (selFit s (c.u16 0 / 256 % 2)) = true →
    k.ulo ≤ k.usafe →
    k.usafe ≤ k.uhi →
    16 < ((shadowChannels (stageLoop (c.u16 0) c k s) (c.u16 0 / 256 % 2)).filter LoopCfg.privileged).length ∨ 192 < ((shadowChannels (stageLoop (c.u16 0) c k s) (c.u16 0 / 256 % 2)).filter LoopCfg.repetitive).length →
    exec (.loopChannelConfig c) s = .next (answer 0x0601 c .exhausted [] s)) ∧
  (∀ (c : Cmd) (s : State) (k : LoopCfg),
    k = { (loopShadow s (c.u16 0)) with coef := tset (loopShadow s (c.u16 0)).coef (c.u8 2) ((List.range 7).map (fun n => c.s32 (4 + 4 * n))) } →
    Admits c s [.config, .standby, .deblocked, .safeStop, .blockedFault, .factoryTest] [.active, .standby] →
    Inline c 32 →
    isM2 s = false →
    ctlOk s (c.u16 0 / 256 % 2) = true →
    c.u16 0 < 512 →
    c.u16 0 % 256 < loopChannels s.tick.len →
    setHeld s 0 = false →
    c.u8 2 < 8 →
    c.rsv 3 1 = true →
    (loopShadow s (c.u16 0)).third = true ∨ (c.s32 16 = 0 ∧ c.s32 28 = 0) →
    exec (.loopCoeffLoad c) s = .next (answer 0x0602 c .ok [] (stageLoop (c.u16 0) c k s))) ∧
  (∀ (c : Cmd) (s : State) (k : LoopCfg),
    k = { (loopShadow s (c.u16 0)) with q := c.u8 2, gains := (List.range 64).map (fun n => c.s32 (4 + 4 * n)) } →
    Admits c s [.config, .standby, .deblocked, .safeStop, .blockedFault, .factoryTest] [.active, .standby] →
    External c (fun l => l == 260) →
    isM2 s = false →
    ctlOk s (c.u16 0 / 256 % 2) = true →
    c.u16 0 < 512 →
    c.u16 0 % 256 < loopChannels s.tick.len →
    setHeld s 0 = false →
    c.u8 2 ≤ 24 →
    c.rsv 3 1 = true →
    exec (.loopTableLoad c) s = .next (answer 0x0603 c .ok (le 4 (2 ^ (28 - c.u8 2))) (stageLoop (c.u16 0) c k s))) ∧
  (∀ (c : Cmd) (s : State) (k : LoopCfg),
    k = { (loopShadow s (c.u16 0)) with regions := c.u8 2, mag := c.u8 3 == 1, sched := c.u16 4, hyst := c.s32 8, thetas := ((List.range 7).map (fun n => c.s32 (12 + 4 * n))).take (c.u8 2 - 1) } →
    Admits c s [.config, .standby, .deblocked, .safeStop, .blockedFault, .factoryTest] [.active, .standby] →
    Inline c 40 →
    isM2 s = false →
    ctlOk s (c.u16 0 / 256 % 2) = true →
    c.u16 0 < 512 →
    c.u16 0 % 256 < loopChannels s.tick.len →
    setHeld s 0 = false →
    1 ≤ c.u8 2 →
    c.u8 2 ≤ 8 →
    c.u8 3 < 2 →
    selOk s.tick.len (c.u16 4) = true →
    c.u8 2 = 1 ∨ 4096 ≤ c.u16 4 →
    c.rsv 6 2 = true →
    0 ≤ c.s32 8 →
    c.s32 8 ≤ one28 →
    thetasOk (c.u8 2) ((List.range 7).map (fun n => c.s32 (12 + 4 * n))) = true →
    selFit s (c.u16 0 / 256 % 2) (c.u16 4) = true →
    exec (.loopScheduleConfig c) s = .next (answer 0x0604 c .ok (le 1 (entryRegion (loopRead s s (c.u16 0 / 256 % 2) k.rank1) k)) (stageLoop (c.u16 0) c k s))) ∧
  (∀ (c : Cmd) (s : State) (k : LoopCfg),
    k = { (loopShadow s (c.u16 0)) with regions := c.u8 2, mag := c.u8 3 == 1, sched := c.u16 4, hyst := c.s32 8, thetas := ((List.range 7).map (fun n => c.s32 (12 + 4 * n))).take (c.u8 2 - 1) } →
    Admits c s [.config, .standby, .deblocked, .safeStop, .blockedFault, .factoryTest] [.active, .standby] →
    Inline c 40 →
    isM2 s = false →
    ctlOk s (c.u16 0 / 256 % 2) = true →
    c.u16 0 < 512 →
    c.u16 0 % 256 < loopChannels s.tick.len →
    setHeld s 0 = false →
    1 ≤ c.u8 2 →
    c.u8 2 ≤ 8 →
    c.u8 3 < 2 →
    selOk s.tick.len (c.u16 4) = true →
    c.u8 2 = 1 ∨ 4096 ≤ c.u16 4 →
    c.rsv 6 2 = true →
    0 ≤ c.s32 8 →
    c.s32 8 ≤ one28 →
    thetasOk (c.u8 2) ((List.range 7).map (fun n => c.s32 (12 + 4 * n))) = true →
    selFit s (c.u16 0 / 256 % 2) (c.u16 4) = false →
    exec (.loopScheduleConfig c) s = .next (answer 0x0604 c .conflict [] s)) ∧
  (∀ (c : Cmd) (s : State) (k : LoopCfg),
    k = { (loopShadow s (c.u16 0)) with rflags := c.u8 2, lead := c.u8 3, phase := c.u16 4, kr := c.s32 8, qf := c.s32 12, mlim := c.s32 16 } →
    Admits c s [.config, .standby, .deblocked, .safeStop, .blockedFault, .factoryTest] [.active, .standby] →
    Inline c 20 →
    isM2 s = false →
    ctlOk s (c.u16 0 / 256 % 2) = true →
    c.u16 0 < 512 →
    c.u16 0 % 256 < loopChannels s.tick.len →
    setHeld s 0 = false →
    c.u8 2 < 8 →
    selOk s.tick.len (c.u16 4) = true →
    bit (c.u8 2) 0 = false ∨ 4096 ≤ c.u16 4 →
    c.rsv 6 2 = true →
    0 ≤ c.s32 12 →
    c.s32 12 ≤ 536870912 →
    0 ≤ c.s32 16 →
    selFit s (c.u16 0 / 256 % 2) (c.u16 4) = true →
    ((shadowChannels (stageLoop (c.u16 0) c k s) (c.u16 0 / 256 % 2)).filter LoopCfg.repetitive).length ≤ 192 →
    exec (.loopRepetitiveConfig c) s = .next (answer 0x0605 c .ok (le 2 ((shadowChannels (stageLoop (c.u16 0) c k s) (c.u16 0 / 256 % 2)).filter LoopCfg.repetitive).length) (stageLoop (c.u16 0) c k s))) ∧
  (∀ (c : Cmd) (s : State) (k : LoopCfg),
    k = { (loopShadow s (c.u16 0)) with rflags := c.u8 2, lead := c.u8 3, phase := c.u16 4, kr := c.s32 8, qf := c.s32 12, mlim := c.s32 16 } →
    Admits c s [.config, .standby, .deblocked, .safeStop, .blockedFault, .factoryTest] [.active, .standby] →
    Inline c 20 →
    isM2 s = false →
    ctlOk s (c.u16 0 / 256 % 2) = true →
    c.u16 0 < 512 →
    c.u16 0 % 256 < loopChannels s.tick.len →
    setHeld s 0 = false →
    c.u8 2 < 8 →
    selOk s.tick.len (c.u16 4) = true →
    bit (c.u8 2) 0 = false ∨ 4096 ≤ c.u16 4 →
    c.rsv 6 2 = true →
    0 ≤ c.s32 12 →
    c.s32 12 ≤ 536870912 →
    0 ≤ c.s32 16 →
    selFit s (c.u16 0 / 256 % 2) (c.u16 4) = false →
    exec (.loopRepetitiveConfig c) s = .next (answer 0x0605 c .conflict [] s)) ∧
  (∀ (c : Cmd) (s : State) (k : LoopCfg),
    k = { (loopShadow s (c.u16 0)) with rflags := c.u8 2, lead := c.u8 3, phase := c.u16 4, kr := c.s32 8, qf := c.s32 12, mlim := c.s32 16 } →
    Admits c s [.config, .standby, .deblocked, .safeStop, .blockedFault, .factoryTest] [.active, .standby] →
    Inline c 20 →
    isM2 s = false →
    ctlOk s (c.u16 0 / 256 % 2) = true →
    c.u16 0 < 512 →
    c.u16 0 % 256 < loopChannels s.tick.len →
    setHeld s 0 = false →
    c.u8 2 < 8 →
    selOk s.tick.len (c.u16 4) = true →
    bit (c.u8 2) 0 = false ∨ 4096 ≤ c.u16 4 →
    c.rsv 6 2 = true →
    0 ≤ c.s32 12 →
    c.s32 12 ≤ 536870912 →
    0 ≤ c.s32 16 →
    selFit s (c.u16 0 / 256 % 2) (c.u16 4) = true →
    192 < ((shadowChannels (stageLoop (c.u16 0) c k s) (c.u16 0 / 256 % 2)).filter LoopCfg.repetitive).length →
    exec (.loopRepetitiveConfig c) s = .next (answer 0x0605 c .exhausted [] s)) ∧
  (∀ (c : Cmd) (s : State) (k : LoopCfg),
    k = { (loopShadow s (c.u16 0)) with nfrz := c.u8 2, ht := c.u8 3, fbk := c.u8 4, sflags := c.u8 5, satTime := c.u16 6, satAct := c.u8 8, usafe := c.s32 12, rfb := c.s32 16 } →
    Admits c s [.config, .standby, .deblocked, .safeStop, .blockedFault, .factoryTest] [.active, .standby] →
    Inline c 20 →
    isM2 s = false →
    ctlOk s (c.u16 0 / 256 % 2) = true →
    c.u16 0 < 512 →
    c.u16 0 % 256 < loopChannels s.tick.len →
    setHeld s 0 = false →
    4 ≤ c.u8 2 →
    c.u8 3 ≤ 64 →
    c.u8 4 < 3 →
    c.u8 5 < 16 →
    c.u8 8 < 2 →
    c.rsv 9 3 = true →
    (loopShadow s (c.u16 0)).ulo ≤ c.s32 12 →
    c.s32 12 ≤ (loopShadow s (c.u16 0)).uhi →
    0 < c.s32 16 →
    c.s32 16 ≤ one28 →
    exec (.loopSupervisorConfig c) s = .next (answer 0x0606 c .ok [] (stageLoop (c.u16 0) c k s))) ∧
  (∀ (c : Cmd) (s : State),
    Serving s →
    Inline c 12 →
    c.mb ≠ 0 →
    isM2 s = false →
    ctlOk s (c.u16 0 / 256 % 2) = true →
    c.u16 0 < 512 →
    1 ≤ c.u16 2 →
    c.u16 0 % 256 + c.u16 2 ≤ loopChannels s.tick.len →
    c.u64 4 % 64 = 0 →
    c.u64 4 ≠ 0 →
    exec (.loopStatus c) s = .next (answer 0x0607 c .ok (le 2 (c.u16 2) ++ le 2 (((List.range (c.u16 2)).map (c.u16 0 + ·)).filter (fun x => (loopGet s x).mode == .run)).length ++ le 2 (((List.range (c.u16 2)).map (c.u16 0 + ·)).filter (fun x => (loopGet s x).mode == .hold)).length ++ le 2 (((List.range (c.u16 2)).map (c.u16 0 + ·)).filter (fun x => (loopGet s x).mode.fallback)).length ++ le 2 (((List.range (c.u16 2)).map (c.u16 0 + ·)).filter (fun x => (loopGet s x).hi || (loopGet s x).lo)).length ++ le 2 0 ++ le 2 (tget 0 s.loop.ends 0) ++ le 2 (tget 0 s.loop.ends 1) ++ le 4 s.tick.index) (putBuf (c.u64 4) (withCrc (((List.range (c.u16 2)).map (c.u16 0 + ·)).flatMap (loopEntry s))) s))) ∧
  (∀ (c : Cmd) (s : State),
    Serving s →
    Inline c 12 →
    c.mb ≠ 0 →
    isM2 s = false →
    ctlOk s (c.u16 0 / 256 % 2) = true →
    c.u16 0 < 512 →
    1 ≤ c.u16 2 →
    c.u16 0 % 256 + c.u16 2 ≤ loopChannels s.tick.len →
    c.u64 4 = 0 →
    exec (.loopStatus c) s = .next (answer 0x0607 c .ok (le 2 (0) ++ le 2 (((List.range (c.u16 2)).map (c.u16 0 + ·)).filter (fun x => (loopGet s x).mode == .run)).length ++ le 2 (((List.range (c.u16 2)).map (c.u16 0 + ·)).filter (fun x => (loopGet s x).mode == .hold)).length ++ le 2 (((List.range (c.u16 2)).map (c.u16 0 + ·)).filter (fun x => (loopGet s x).mode.fallback)).length ++ le 2 (((List.range (c.u16 2)).map (c.u16 0 + ·)).filter (fun x => (loopGet s x).hi || (loopGet s x).lo)).length ++ le 2 0 ++ le 2 (tget 0 s.loop.ends 0) ++ le 2 (tget 0 s.loop.ends 1) ++ le 4 s.tick.index) s)) ∧
  (∀ (c : Cmd) (s : State),
    Serving s →
    c.mb ≠ 0 →
    Inline c 40 →
    isM2 s = true ∨ ctlOk s (c.u16 0 / 256 % 2) = false →
    exec (.loopChannelConfig c) s = .next (answer 0x0601 c .notFitted [] s)) ∧
  (∀ (c : Cmd) (s : State),
    Serving s →
    c.mb ≠ 0 →
    Inline c 32 →
    isM2 s = true ∨ ctlOk s (c.u16 0 / 256 % 2) = false →
    exec (.loopCoeffLoad c) s = .next (answer 0x0602 c .notFitted [] s)) ∧
  (∀ (c : Cmd) (s : State),
    Serving s →
    c.mb ≠ 0 →
    External c (fun l => l == 260) →
    isM2 s = true ∨ ctlOk s (c.u16 0 / 256 % 2) = false →
    exec (.loopTableLoad c) s = .next (answer 0x0603 c .notFitted [] s)) ∧
  (∀ (c : Cmd) (s : State),
    Serving s →
    c.mb ≠ 0 →
    Inline c 40 →
    isM2 s = true ∨ ctlOk s (c.u16 0 / 256 % 2) = false →
    exec (.loopScheduleConfig c) s = .next (answer 0x0604 c .notFitted [] s)) ∧
  (∀ (c : Cmd) (s : State),
    Serving s →
    c.mb ≠ 0 →
    Inline c 20 →
    isM2 s = true ∨ ctlOk s (c.u16 0 / 256 % 2) = false →
    exec (.loopRepetitiveConfig c) s = .next (answer 0x0605 c .notFitted [] s)) ∧
  (∀ (c : Cmd) (s : State),
    Serving s →
    c.mb ≠ 0 →
    Inline c 20 →
    isM2 s = true ∨ ctlOk s (c.u16 0 / 256 % 2) = false →
    exec (.loopSupervisorConfig c) s = .next (answer 0x0606 c .notFitted [] s)) ∧
  (∀ (c : Cmd) (s : State),
    Serving s →
    c.mb ≠ 0 →
    Inline c 12 →
    isM2 s = true ∨ ctlOk s (c.u16 0 / 256 % 2) = false →
    exec (.loopStatus c) s = .next (answer 0x0607 c .notFitted [] s))

/-- H_t evaluations in HOLD without good feedback enter the fallback and evaluate it; saturation time reached in RUN reports once and, with
action 1, enters the fallback with cause 1 and evaluates it; 64 good evaluations with AUTO_RESUME return FB_HOLD and FB_RAMP to RUN and
evaluate it. Where one of their conditions fails the state stays as it is. -/
def Obligations.LoopEventsSuperviseTheChannel : Prop :=
  (∀ (l : Nat) (s : State),
    (loopGet s l).mode = .hold →
    (loopCfg s l).ht ≤ (loopGet s l).spent →
    (loopGet s l).good = 0 →
    exec (.loopHoldExpiry l) s = .next (loopUpd l (fallbackStep (loopCfg s l) (loopLimits s (loopCfg s l)).1 (loopLimits s (loopCfg s l)).2.1) (enterFallback l (loopCfg s l) 0 s))) ∧
  (∀ (l : Nat) (s : State),
    (loopGet s l).mode ≠ .hold ∨ (loopGet s l).spent < (loopCfg s l).ht ∨ (loopGet s l).good ≠ 0 →
    exec (.loopHoldExpiry l) s = .next s) ∧
  (∀ (l : Nat) (s : State),
    (loopGet s l).mode = .run →
    0 < (loopCfg s l).satTime →
    (loopCfg s l).satTime ≤ (loopGet s l).sat →
    (loopGet s l).satDone = false →
    (loopCfg s l).satAct ≠ 1 →
    exec (.loopSatTimeReached l) s = .next (loopEvent l 0x05 [b2n (decide ((loopGet s l).v < (loopGet s l).u)), (loopCfg s l).satTime] (loopUpd l (fun y => { y with satDone := true }) s))) ∧
  (∀ (l : Nat) (s : State),
    (loopGet s l).mode = .run →
    0 < (loopCfg s l).satTime →
    (loopCfg s l).satTime ≤ (loopGet s l).sat →
    (loopGet s l).satDone = false →
    (loopCfg s l).satAct = 1 →
    exec (.loopSatTimeReached l) s = .next (loopUpd l (fallbackStep (loopCfg s l) (loopLimits s (loopCfg s l)).1 (loopLimits s (loopCfg s l)).2.1) (enterFallback l (loopCfg s l) 1 (loopEvent l 0x05 [b2n (decide ((loopGet s l).v < (loopGet s l).u)), (loopCfg s l).satTime] (loopUpd l (fun y => { y with satDone := true }) s))))) ∧
  (∀ (l : Nat) (s : State),
    (loopGet s l).mode ≠ .run ∨ (loopCfg s l).satTime = 0 ∨ (loopGet s l).sat < (loopCfg s l).satTime ∨ (loopGet s l).satDone = true →
    exec (.loopSatTimeReached l) s = .next s) ∧
  (∀ (l : Nat) (s : State),
    (loopGet s l).mode = .fbHold ∨ (loopGet s l).mode = .fbRamp →
    bit (loopCfg s l).sflags 2 = true →
    64 ≤ (loopGet s l).good →
    exec (.loopAutoResume l) s = .next (runEval l (loopRd s l) (loopCfg s l) (loopLimits s (loopCfg s l)).1 (loopLimits s (loopCfg s l)).2.1 (resume l (loopRd s l) (loopCfg s l) true s))) ∧
  (∀ (l : Nat) (s : State),
    ((loopGet s l).mode ≠ .fbHold ∧ (loopGet s l).mode ≠ .fbRamp) ∨ bit (loopCfg s l).sflags 2 = false ∨ (loopGet s l).good < 64 →
    exec (.loopAutoResume l) s = .next s)

/-- TILE_KERNEL_LOAD with a good image for the dies of its mask installs it on each, unbinds the user kernels of their shadow sets and answers
PENDING, its outcome the CRC, the entries and the bindings undone; with a pair formed or a user kernel bound it answers CONFLICT, and with a
wrong image CRC CRC_FAIL, and installs nothing. TILE_KERNEL_BIND without conflict stages the binding in shadow set bit 3 of its die and
answers the state length and the limit; with a conflict of R306 it answers CONFLICT. TILE_ROM_LIST and TILE_STATUS answer their results, and
write their entries with the CRC where a buffer is named. On the M2 all answer NOT_FITTED. -/
def Obligations.TileCommandsLoadBindAndRead : Prop :=
  (∀ (c : Cmd) (s : State),
    Admits c s [.config, .factoryTest] [.active, .standby] →
    External c (fun l => if imageLens c.params then l == imageSize c.params else 52 ≤ l && l ≤ 42016) →
    imageOk c.params = true →
    isM2 s = false →
    0 < c.u8 0 →
    c.u8 0 < 4 →
    ([0, 1].filter (bit (c.u8 0))).all (ctlOk s) = true →
    c.rsv 1 3 = true →
    ([0, 1].filter (bit (c.u8 0))).any (fun d => held s (.kernels d)) = false →
    setHeld s 3 = false →
    pendCount s c.mb < 8 →
    s.dev.paired = false →
    ([0, 1].filter (bit (c.u8 0))).any (fun d => (dieGet s d).bind.any (fun b => b.2.kid != 0 && b.2.kid < 0x8000)) = false →
    (crc32c ((c.params.drop 4).take (imageSize c.params - 8))).toNat = rd c.params (imageSize c.params - 4) 4 →
    exec (.tileKernelLoad c) s = .next (answer 0x0701 c .pending [] (pendAs 0x0701 c (([0, 1].filter (bit (c.u8 0))).map Obj.kernels) [.config, .factoryTest] (c.u8 0) (some (.ok, le 4 (readImage c.params).crc ++ le 2 (readImage c.params).entries.length ++ le 2 ((([0, 1].filter (bit (c.u8 0))).map (fun d => ((dieGet s d).bindNew.filter (fun b => b.2.kid != 0 && b.2.kid < 0x8000)).length)).sum))) (([0, 1].filter (bit (c.u8 0))).foldl (fun t d => dieUpd d (fun x => { x with image := some (readImage c.params), bindNew := x.bindNew.filter (fun b => !(b.2.kid != 0 && b.2.kid < 0x8000)) }) t) s)))) ∧
  (∀ (c : Cmd) (s : State),
    Admits c s [.config, .factoryTest] [.active, .standby] →
    External c (fun l => if imageLens c.params then l == imageSize c.params else 52 ≤ l && l ≤ 42016) →
    imageOk c.params = true →
    isM2 s = false →
    0 < c.u8 0 →
    c.u8 0 < 4 →
    ([0, 1].filter (bit (c.u8 0))).all (ctlOk s) = true →
    c.rsv 1 3 = true →
    ([0, 1].filter (bit (c.u8 0))).any (fun d => held s (.kernels d)) = false →
    setHeld s 3 = false →
    pendCount s c.mb < 8 →
    s.dev.paired = true ∨ ([0, 1].filter (bit (c.u8 0))).any (fun d => (dieGet s d).bind.any (fun b => b.2.kid != 0 && b.2.kid < 0x8000)) = true →
    exec (.tileKernelLoad c) s = .next (answer 0x0701 c .conflict [] s)) ∧
  (∀ (c : Cmd) (s : State),
    Admits c s [.config, .factoryTest] [.active, .standby] →
    External c (fun l => if imageLens c.params then l == imageSize c.params else 52 ≤ l && l ≤ 42016) →
    imageOk c.params = true →
    isM2 s = false →
    0 < c.u8 0 →
    c.u8 0 < 4 →
    ([0, 1].filter (bit (c.u8 0))).all (ctlOk s) = true →
    c.rsv 1 3 = true →
    ([0, 1].filter (bit (c.u8 0))).any (fun d => held s (.kernels d)) = false →
    setHeld s 3 = false →
    pendCount s c.mb < 8 →
    s.dev.paired = false →
    ([0, 1].filter (bit (c.u8 0))).any (fun d => (dieGet s d).bind.any (fun b => b.2.kid != 0 && b.2.kid < 0x8000)) = false →
    (crc32c ((c.params.drop 4).take (imageSize c.params - 8))).toNat ≠ rd c.params (imageSize c.params - 4) 4 →
    exec (.tileKernelLoad c) s = .next (answer 0x0701 c .crcFail [] s)) ∧
  (∀ (c : Cmd) (s : State),
    Admits c s [.config, .standby, .deblocked, .safeStop, .blockedFault, .factoryTest] [.active, .standby] →
    External c (fun l => l == 88) →
    c.u8 0 < 2 →
    ctlFit s (c.u8 0) = true →
    c.u8 1 < 64 →
    (readBinding c).kid ≤ 0x7FFF ∨ (0x8001 ≤ (readBinding c).kid ∧ (readBinding c).kid ≤ 0x80FF) →
    held s (.kernels (c.u8 0)) = false →
    setHeld s 3 = false →
    (readBinding c).flow < 64 →
    (readBinding c).bflags < 4 →
    c.rsv 7 1 = true →
    c.rsv 18 2 = true →
    (readBinding c).maxc ≤ 1000000 →
    bindConflict s (c.u8 0) (c.u8 1) (readBinding c) = false →
    exec (.tileKernelBind c) s = .next (answer 0x0702 c .ok (le 2 ((kernelOf s (c.u8 0) (readBinding c).kid).getD (0, 0, 0)).2.1 ++ le 2 0 ++ le 4 (if (readBinding c).kid = 0 then 0 else limitOf (readBinding c) ((kernelOf s (c.u8 0) (readBinding c).kid).getD (0, 0, 0)).2.2)) (stage 3 c.params (dieUpd (c.u8 0) (fun x => { x with bindNew := tset x.bindNew (c.u8 1) (readBinding c) }) s)))) ∧
  (∀ (c : Cmd) (s : State),
    Admits c s [.config, .standby, .deblocked, .safeStop, .blockedFault, .factoryTest] [.active, .standby] →
    External c (fun l => l == 88) →
    c.u8 0 < 2 →
    ctlFit s (c.u8 0) = true →
    c.u8 1 < 64 →
    (readBinding c).kid ≤ 0x7FFF ∨ (0x8001 ≤ (readBinding c).kid ∧ (readBinding c).kid ≤ 0x80FF) →
    held s (.kernels (c.u8 0)) = false →
    setHeld s 3 = false →
    (readBinding c).flow < 64 →
    (readBinding c).bflags < 4 →
    c.rsv 7 1 = true →
    c.rsv 18 2 = true →
    (readBinding c).maxc ≤ 1000000 →
    bindConflict s (c.u8 0) (c.u8 1) (readBinding c) = true →
    exec (.tileKernelBind c) s = .next (answer 0x0702 c .conflict [] s)) ∧
  (∀ (c : Cmd) (s : State),
    Serving s →
    Inline c 12 →
    c.mb ≠ 0 →
    c.u8 0 < 2 →
    ctlFit s (c.u8 0) = true →
    c.rsv 1 3 = true →
    c.u64 4 = 0 →
    exec (.tileRomList c) s = .next (answer 0x0703 c .ok (le 2 9 ++ le 2 0 ++ le 4 fwEdition) s)) ∧
  (∀ (c : Cmd) (s : State),
    Serving s →
    Inline c 12 →
    c.mb ≠ 0 →
    c.u8 0 < 2 →
    ctlFit s (c.u8 0) = true →
    c.rsv 1 3 = true →
    c.u64 4 % 64 = 0 →
    c.u64 4 ≠ 0 →
    exec (.tileRomList c) s = .next (answer 0x0703 c .ok (le 2 9 ++ le 2 0 ++ le 4 fwEdition) (putBuf (c.u64 4) (withCrc ([0x8001, 0x8002, 0x8003, 0x8004, 0x8005, 0x8006, 0x8007, 0x8008, 0x8009].flatMap romEntryBytes)) s))) ∧
  (∀ (c : Cmd) (s : State),
    Serving s →
    Inline c 12 →
    c.mb ≠ 0 →
    c.u8 0 < 2 →
    ctlFit s (c.u8 0) = true →
    c.rsv 1 3 = true →
    c.u64 4 = 0 →
    exec (.tileStatus c) s = .next (answer 0x0704 c .ok (le 1 (tilesInService s (c.u8 0)).length ++ le 1 ((List.range 18).filter (fun t => tileState s (c.u8 0) t == 0)).length ++ le 2 ((dieGet s (c.u8 0)).bind.filter (fun b => b.2.kid != 0)).length ++ le 4 ((dieGet s (c.u8 0)).image.elim 0 (·.crc)) ++ le 4 ((dieGet s (c.u8 0)).image.elim 0 (·.build)) ++ le 4 ((dieGet s (c.u8 0)).runs.filter (fun r => r.done && decide (s.tick.index < r.tick + 1024))).length ++ le 4 (dieGet s (c.u8 0)).aborts ++ le 4 (dieGet s (c.u8 0)).late ++ le 4 (dieGet s (c.u8 0)).eccCorr ++ le 4 (dieGet s (c.u8 0)).eccBad) s)) ∧
  (∀ (c : Cmd) (s : State),
    Serving s →
    Inline c 12 →
    c.mb ≠ 0 →
    c.u8 0 < 2 →
    ctlFit s (c.u8 0) = true →
    c.rsv 1 3 = true →
    c.u64 4 % 64 = 0 →
    c.u64 4 ≠ 0 →
    exec (.tileStatus c) s = .next (answer 0x0704 c .ok (le 1 (tilesInService s (c.u8 0)).length ++ le 1 ((List.range 18).filter (fun t => tileState s (c.u8 0) t == 0)).length ++ le 2 ((dieGet s (c.u8 0)).bind.filter (fun b => b.2.kid != 0)).length ++ le 4 ((dieGet s (c.u8 0)).image.elim 0 (·.crc)) ++ le 4 ((dieGet s (c.u8 0)).image.elim 0 (·.build)) ++ le 4 ((dieGet s (c.u8 0)).runs.filter (fun r => r.done && decide (s.tick.index < r.tick + 1024))).length ++ le 4 (dieGet s (c.u8 0)).aborts ++ le 4 (dieGet s (c.u8 0)).late ++ le 4 (dieGet s (c.u8 0)).eccCorr ++ le 4 (dieGet s (c.u8 0)).eccBad) (putBuf (c.u64 4) (withCrc ((List.range 18).flatMap (tileEntry s (c.u8 0)))) s))) ∧
  (∀ (c : Cmd) (s : State),
    Serving s →
    c.mb ≠ 0 →
    External c (fun l => l == 88) →
    isM2 s = true →
    exec (.tileKernelBind c) s = .next (answer 0x0702 c .notFitted [] s)) ∧
  (∀ (c : Cmd) (s : State),
    Serving s →
    c.mb ≠ 0 →
    Inline c 12 →
    isM2 s = true →
    exec (.tileRomList c) s = .next (answer 0x0703 c .notFitted [] s)) ∧
  (∀ (c : Cmd) (s : State),
    Serving s →
    c.mb ≠ 0 →
    Inline c 12 →
    isM2 s = true →
    exec (.tileStatus c) s = .next (answer 0x0704 c .notFitted [] s))

/-- An item at its cycle limit is aborted; below it, or on a tile without item, nothing happens. On a tile that is there, a double error aborts
the item, marks the tile for repair, counts and reports it; a single one is counted and reported corrected; of any other tile nothing.
Repair done clears the mark. -/
def Obligations.TileEventsAbortAndRepair : Prop :=
  (∀ (d t : Nat) (s : State),
    (tileGet s d t).item.isSome = true →
    (tileGet s d t).limit ≤ (tileGet s d t).cycles →
    exec (.tileCycleLimit d t) s = .next (tileAbort d t .cycles s)) ∧
  (∀ (d t : Nat) (s : State),
    (tileGet s d t).item = none ∨ (tileGet s d t).cycles < (tileGet s d t).limit →
    exec (.tileCycleLimit d t) s = .next s) ∧
  (∀ (d t m a : Nat) (s : State),
    ctlOk s d = true →
    t < 18 →
    exec (.tileMemoryError d t m a true) s = .next (raise (1 + d) 0x024 0xE1 .contained m [a] (dieUpd d (fun x => { x with eccBad := inc32 x.eccBad }) (tileUpd d t (fun x => { x with repair := true }) (errorSeen 1 (1 + d) t true (tileAbort d t .memory s)))))) ∧
  (∀ (d t m a : Nat) (s : State),
    ctlOk s d = true →
    t < 18 →
    exec (.tileMemoryError d t m a false) s = .next (raise (1 + d) 0x024 0xE0 .corrected m [a] (dieUpd d (fun x => { x with eccCorr := inc32 x.eccCorr }) (tileUpd d t (fun x => { x with eccCorr := inc32 x.eccCorr }) (errorSeen 1 (1 + d) t false s))))) ∧
  (∀ (d t m a : Nat) (b : Bool) (s : State),
    ctlOk s d = false ∨ 18 ≤ t →
    exec (.tileMemoryError d t m a b) s = .next s) ∧
  (∀ (d t : Nat) (s : State),
    exec (.tileRepairDone d t) s = .next (tileUpd d t (fun x => { x with repair := false }) s))

/-- DISP_FLOW_CONFIG without conflict and within 512 reserved items, and DISP_CLASS_CONFIG, stage into shadow set bit 4 and answer their values;
a conflict answers CONFLICT, more than 512 reserved items EXHAUSTED, and nothing is staged. DISP_CANCEL of a configured flow, with any of
its three scopes, waits for its crossing, in hand until then; of a flow without configuration it answers CONFLICT. DISP_STATS_READ answers
its result and writes the entries of its kind and their CRC where a buffer is named. The first item that may start starts on the idle tile;
the due item of a flow is released in the CORE cycle named; an item not ready after T_wait times out, and no other; the cancels of an
earlier crossing act; the shed level falls after 1,024 calm crossings, and not before; a port past its age becomes invalid, and no other.
Where nothing is startable, due or waiting, nothing changes. -/
def Obligations.DispatcherCommandsAndEvents : Prop :=
  (∀ (c : Cmd) (s u : State),
    u = stage 4 c.params (dieUpd (c.u8 0) (fun x => { x with flowNew := tset x.flowNew (c.u8 1) (readFlow c) }) s) →
    Admits c s [.config, .standby, .deblocked, .safeStop, .blockedFault, .factoryTest] [.active, .standby] →
    Inline c 44 →
    c.u8 0 < 2 →
    ctlFit s (c.u8 0) = true →
    s.dev.variant ≠ .m3 ∨ pairEvent (readFlow c) = false →
    setHeld s 4 = false →
    c.u8 1 < 64 →
    flowOk (readFlow c) = true →
    flowConflict s (c.u8 0) (c.u8 1) (readFlow c) = false →
    (((List.range 64).map (flowShadow u (c.u8 0))).map (·.res)).sum ≤ 512 →
    exec (.dispFlowConfig c) s = .next (answer 0x0801 c .ok (le 2 (((List.range 64).map (flowShadow u (c.u8 0))).map (·.res)).sum ++ le 2 (((List.range 64).map (flowShadow u (c.u8 0))).filter (fun x => x.arity != 0)).length) u)) ∧
  (∀ (c : Cmd) (s : State),
    Admits c s [.config, .standby, .deblocked, .safeStop, .blockedFault, .factoryTest] [.active, .standby] →
    Inline c 44 →
    c.u8 0 < 2 →
    ctlFit s (c.u8 0) = true →
    s.dev.variant ≠ .m3 ∨ pairEvent (readFlow c) = false →
    setHeld s 4 = false →
    c.u8 1 < 64 →
    flowOk (readFlow c) = true →
    flowConflict s (c.u8 0) (c.u8 1) (readFlow c) = true →
    exec (.dispFlowConfig c) s = .next (answer 0x0801 c .conflict [] s)) ∧
  (∀ (c : Cmd) (s u : State),
    u = stage 4 c.params (dieUpd (c.u8 0) (fun x => { x with flowNew := tset x.flowNew (c.u8 1) (readFlow c) }) s) →
    Admits c s [.config, .standby, .deblocked, .safeStop, .blockedFault, .factoryTest] [.active, .standby] →
    Inline c 44 →
    c.u8 0 < 2 →
    ctlFit s (c.u8 0) = true →
    s.dev.variant ≠ .m3 ∨ pairEvent (readFlow c) = false →
    setHeld s 4 = false →
    c.u8 1 < 64 →
    flowOk (readFlow c) = true →
    flowConflict s (c.u8 0) (c.u8 1) (readFlow c) = false →
    512 < (((List.range 64).map (flowShadow u (c.u8 0))).map (·.res)).sum →
    exec (.dispFlowConfig c) s = .next (answer 0x0801 c .exhausted [] s)) ∧
  (∀ (c : Cmd) (s : State),
    Admits c s [.config, .standby, .deblocked, .safeStop, .blockedFault, .factoryTest] [.active, .standby] →
    Inline c 4 →
    anyCtl s = true →
    setHeld s 4 = false →
    c.u8 0 < 8 →
    2 ≤ c.u8 1 →
    c.u8 1 ≤ 5 →
    1 ≤ c.u8 2 →
    c.u8 2 ≤ 16 →
    c.rsv 3 1 = true →
    exec (.dispClassConfig c) s = .next (answer 0x0802 c .ok [] (stage 4 c.params (s.onTiles (fun x => { x with clsNew := tset x.clsNew (c.u8 0) { rank := c.u8 1, tmax := c.u8 2 } }))))) ∧
  (∀ (c : Cmd) (s : State),
    Admits c s [.config, .standby, .deblocked, .safeStop, .blockedFault, .factoryTest] [.active, .standby] →
    Inline c 12 →
    c.u8 0 < 2 →
    ctlFit s (c.u8 0) = true →
    c.u8 1 < 64 →
    c.u8 2 < 3 →
    c.rsv 3 1 = true →
    held s (.flow (flowObj (c.u8 0) (c.u8 1))) = false →
    (flowCfg s (c.u8 0) (c.u8 1)).arity ≠ 0 →
    exec (.dispCancel c) s = .next (awaitFirst 0x0803 c (pendAs 0x0803 c [.flow (flowObj (c.u8 0) (c.u8 1))] [.config, .standby, .deblocked, .safeStop, .blockedFault, .factoryTest] (flowObj (c.u8 0) (c.u8 1)) none (dieUpd (c.u8 0) (fun x => { x with cancels := x.cancels ++ [⟨c.u8 1, c.u8 2, if c.u8 2 = 2 then c.u32 4 else c.u64 4, s.link.crossing⟩] }) s)))) ∧
  (∀ (c : Cmd) (s : State),
    Admits c s [.config, .standby, .deblocked, .safeStop, .blockedFault, .factoryTest] [.active, .standby] →
    Inline c 12 →
    c.u8 0 < 2 →
    ctlFit s (c.u8 0) = true →
    c.u8 1 < 64 →
    c.u8 2 < 3 →
    c.rsv 3 1 = true →
    held s (.flow (flowObj (c.u8 0) (c.u8 1))) = false →
    (flowCfg s (c.u8 0) (c.u8 1)).arity = 0 →
    exec (.dispCancel c) s = .next (answer 0x0803 c .conflict [] s)) ∧
  (∀ (c : Cmd) (s : State),
    Serving s →
    Inline c 12 →
    c.mb ≠ 0 →
    c.u8 0 < 2 →
    ctlFit s (c.u8 0) = true →
    c.u8 1 < 3 →
    c.rsv 2 2 = true →
    c.u64 4 % 64 = 0 →
    c.u64 4 ≠ 0 →
    exec (.dispStatsRead c) s = .next (answer 0x0804 c .ok (le 1 (dieGet s (c.u8 0)).shed ++ le 1 0 ++ le 2 (dieGet s (c.u8 0)).items.length ++ le 2 (dieGet s (c.u8 0)).depthMax ++ le 2 ((List.range 18).filter (fun t => (tileGet s (c.u8 0) t).item.isSome)).length ++ le 4 (if c.u8 1 = 0 then 64 else if c.u8 1 = 1 then 8 else 16) ++ le 4 s.tick.index) (putBuf (c.u64 4) (withCrc ((List.range (if c.u8 1 = 0 then 64 else if c.u8 1 = 1 then 8 else 16)).flatMap (fun i => if c.u8 1 = 0 then flowEntry s (c.u8 0) i else if c.u8 1 = 1 then clsEntry s (c.u8 0) i else loadEntry s (c.u8 0) i))) s))) ∧
  (∀ (c : Cmd) (s : State),
    Serving s →
    Inline c 12 →
    c.mb ≠ 0 →
    c.u8 0 < 2 →
    ctlFit s (c.u8 0) = true →
    c.u8 1 < 3 →
    c.rsv 2 2 = true →
    c.u64 4 = 0 →
    exec (.dispStatsRead c) s = .next (answer 0x0804 c .ok (le 1 (dieGet s (c.u8 0)).shed ++ le 1 0 ++ le 2 (dieGet s (c.u8 0)).items.length ++ le 2 (dieGet s (c.u8 0)).depthMax ++ le 2 ((List.range 18).filter (fun t => (tileGet s (c.u8 0) t).item.isSome)).length ++ le 4 0 ++ le 4 s.tick.index) s)) ∧
  (∀ (d w t : Nat) (i : Item) (s : State),
    firstItem s d = some i →
    idleTile s d = some t →
    exec (.itemStart d w) s = .next (itemStart d t i w s)) ∧
  (∀ (d w : Nat) (s : State),
    firstItem s d = none ∨ idleTile s d = none →
    exec (.itemStart d w) s = .next s) ∧
  (∀ (d : Nat) (i : Item) (r : FlowAt) (s : State),
    dueItem s d r.flow = some i →
    exec (.itemRelease d r) s = .next (itemRelease d (releaseEdge s r.cycle) i s)) ∧
  (∀ (d : Nat) (r : FlowAt) (s : State),
    dueItem s d r.flow = none →
    exec (.itemRelease d r) s = .next s) ∧
  (∀ (d f q : Nat) (i : Item) (s : State),
    ((dieGet s d).items.find? (fun j => j.flow == f && j.seq == q)) = some i →
    replaying s = false →
    i.ready = false →
    i.made + (flowCfg s d f).twait ≤ s.link.crossing →
    exec (.itemTimeout d f q) s = .next (itemTimeout d i s)) ∧
  (∀ (d f q : Nat) (s : State),
    ((dieGet s d).items.find? (fun j => j.flow == f && j.seq == q)).all (fun i => replaying s || i.ready || decide (s.link.crossing < i.made + (flowCfg s d f).twait)) = true →
    exec (.itemTimeout d f q) s = .next s) ∧
  (∀ (d : Nat) (s : State),
    exec (.dispCancelAct d) s = .next (((dieGet s d).cancels.filter (fun (k : Cancel) => k.since != s.link.crossing)).foldl (fun t k => cancelAct d k t) (dieUpd d (fun x => { x with cancels := x.cancels.filter (fun k => !(k.since != s.link.crossing)) }) s))) ∧
  (∀ (d : Nat) (s : State),
    replaying s = false →
    1024 ≤ (dieGet s d).calm →
    0 < (dieGet s d).shed →
    exec (.shedLevelFall d) s = .next (dispEvent d 0x04 .notice 0 [(dieGet s d).shed - 1, s.tick.index - (dieGet s d).shedAt] (journal 3 d 0 ((dieGet s d).shed - 1) 0 0 (dieUpd d (fun y => { y with shed := y.shed - 1, calm := 0, shedAt := s.tick.index }) s)))) ∧
  (∀ (d : Nat) (s : State),
    replaying s = true ∨ (dieGet s d).calm < 1024 ∨ (dieGet s d).shed = 0 →
    exec (.shedLevelFall d) s = .next s) ∧
  (∀ (d p n : Nat) (e : Binding) (s : State),
    ((dieGet s d).bind.find? (fun b => b.2.kid != 0 && bit b.2.rports p)) = some (n, e) →
    (tget {} (dieGet s d).rports p : TPort).ok = true →
    0 < (flowCfg s d e.flow).age →
    (flowCfg s d e.flow).age ≤ (tget {} (dieGet s d).rports p : TPort).age →
    exec (.portAgeExpiry d p) s = .next (portsInvalid d { e with rports := 2 ^ p, dports := 0 } 3 s)) ∧
  (∀ (d p : Nat) (s : State),
    ((dieGet s d).bind.find? (fun b => b.2.kid != 0 && bit b.2.rports p)).all (fun e => !(tget {} (dieGet s d).rports p : TPort).ok || (flowCfg s d e.2.flow).age == 0 || decide ((tget {} (dieGet s d).rports p : TPort).age < (flowCfg s d e.2.flow).age)) = true →
    exec (.portAgeExpiry d p) s = .next s)

/-- Where the tile issues the word: ADD, SUB and ADDI write the sum or difference modulo 2^32, Z and N from it, V where the exact value leaves
the signed range; ADDS, SUBS, ABS, NEG and BSHL saturate, and set SAT with V. CMP sets the flags of dA - dB and writes no register. The pc
moves on, the cycles rise, everything outside the tile stays. A word with a reserved bit set is illegal and aborts the item. -/
def Obligations.TileArithmeticWritesItsResult : Prop :=
  (∀ (d t : Nat) (w : Word32) (i : Item) (s : State),
    Issues s d t w 8 0x3FFF i →
    exec (.opAdd d t w) s = .next (tileUpd d t (fun _ => { (issued s d t [fld w 21 18, fld w 17 14] 1).setD (fld w 25 22) ((issued s d t [fld w 21 18, fld w 17 14] 1).dr (fld w 21 18) + (issued s d t [fld w 21 18, fld w 17 14] 1).dr (fld w 17 14)) with st := stAlu (issued s d t [fld w 21 18, fld w 17 14] 1).st ((issued s d t [fld w 21 18, fld w 17 14] 1).dr (fld w 21 18) + (issued s d t [fld w 21 18, fld w 17 14] 1).dr (fld w 17 14)) (satS 32 (((issued s d t [fld w 21 18, fld w 17 14] 1).dr (fld w 21 18)).toInt + ((issued s d t [fld w 21 18, fld w 17 14] 1).dr (fld w 17 14)).toInt) != ((issued s d t [fld w 21 18, fld w 17 14] 1).dr (fld w 21 18)).toInt + ((issued s d t [fld w 21 18, fld w 17 14] 1).dr (fld w 17 14)).toInt) }) s)) ∧
  (∀ (d t : Nat) (w : Word32) (i : Item) (s : State),
    Issues s d t w 9 0x3FFF i →
    exec (.opSub d t w) s = .next (tileUpd d t (fun _ => { (issued s d t [fld w 21 18, fld w 17 14] 1).setD (fld w 25 22) ((issued s d t [fld w 21 18, fld w 17 14] 1).dr (fld w 21 18) - (issued s d t [fld w 21 18, fld w 17 14] 1).dr (fld w 17 14)) with st := stAlu (issued s d t [fld w 21 18, fld w 17 14] 1).st ((issued s d t [fld w 21 18, fld w 17 14] 1).dr (fld w 21 18) - (issued s d t [fld w 21 18, fld w 17 14] 1).dr (fld w 17 14)) (satS 32 (((issued s d t [fld w 21 18, fld w 17 14] 1).dr (fld w 21 18)).toInt - ((issued s d t [fld w 21 18, fld w 17 14] 1).dr (fld w 17 14)).toInt) != ((issued s d t [fld w 21 18, fld w 17 14] 1).dr (fld w 21 18)).toInt - ((issued s d t [fld w 21 18, fld w 17 14] 1).dr (fld w 17 14)).toInt) }) s)) ∧
  (∀ (d t : Nat) (w : Word32) (i : Item) (s : State),
    Issues s d t w 10 0x3FFF i →
    exec (.opAdds d t w) s = .next (tileUpd d t (fun _ => { (issued s d t [fld w 21 18, fld w 17 14] 1).setD (fld w 25 22) (w32 (satS 32 (((issued s d t [fld w 21 18, fld w 17 14] 1).dr (fld w 21 18)).toInt + ((issued s d t [fld w 21 18, fld w 17 14] 1).dr (fld w 17 14)).toInt))) with st := stSat (issued s d t [fld w 21 18, fld w 17 14] 1).st (w32 (satS 32 (((issued s d t [fld w 21 18, fld w 17 14] 1).dr (fld w 21 18)).toInt + ((issued s d t [fld w 21 18, fld w 17 14] 1).dr (fld w 17 14)).toInt))) (satS 32 (((issued s d t [fld w 21 18, fld w 17 14] 1).dr (fld w 21 18)).toInt + ((issued s d t [fld w 21 18, fld w 17 14] 1).dr (fld w 17 14)).toInt) != ((issued s d t [fld w 21 18, fld w 17 14] 1).dr (fld w 21 18)).toInt + ((issued s d t [fld w 21 18, fld w 17 14] 1).dr (fld w 17 14)).toInt) }) s)) ∧
  (∀ (d t : Nat) (w : Word32) (i : Item) (s : State),
    Issues s d t w 11 0x3FFF i →
    exec (.opSubs d t w) s = .next (tileUpd d t (fun _ => { (issued s d t [fld w 21 18, fld w 17 14] 1).setD (fld w 25 22) (w32 (satS 32 (((issued s d t [fld w 21 18, fld w 17 14] 1).dr (fld w 21 18)).toInt - ((issued s d t [fld w 21 18, fld w 17 14] 1).dr (fld w 17 14)).toInt))) with st := stSat (issued s d t [fld w 21 18, fld w 17 14] 1).st (w32 (satS 32 (((issued s d t [fld w 21 18, fld w 17 14] 1).dr (fld w 21 18)).toInt - ((issued s d t [fld w 21 18, fld w 17 14] 1).dr (fld w 17 14)).toInt))) (satS 32 (((issued s d t [fld w 21 18, fld w 17 14] 1).dr (fld w 21 18)).toInt - ((issued s d t [fld w 21 18, fld w 17 14] 1).dr (fld w 17 14)).toInt) != ((issued s d t [fld w 21 18, fld w 17 14] 1).dr (fld w 21 18)).toInt - ((issued s d t [fld w 21 18, fld w 17 14] 1).dr (fld w 17 14)).toInt) }) s)) ∧
  (∀ (d t : Nat) (w : Word32) (i : Item) (s : State),
    Issues s d t w 17 0x3FFFF i →
    exec (.opAbs d t w) s = .next (tileUpd d t (fun _ => { (issued s d t [fld w 21 18] 1).setD (fld w 25 22) (w32 (satS 32 (((issued s d t [fld w 21 18] 1).dr (fld w 21 18)).toInt.natAbs))) with st := stSat (issued s d t [fld w 21 18] 1).st (w32 (satS 32 (((issued s d t [fld w 21 18] 1).dr (fld w 21 18)).toInt.natAbs))) (satS 32 (((issued s d t [fld w 21 18] 1).dr (fld w 21 18)).toInt.natAbs) != (((issued s d t [fld w 21 18] 1).dr (fld w 21 18)).toInt.natAbs : Int)) }) s)) ∧
  (∀ (d t : Nat) (w : Word32) (i : Item) (s : State),
    Issues s d t w 18 0x3FFFF i →
    exec (.opNeg d t w) s = .next (tileUpd d t (fun _ => { (issued s d t [fld w 21 18] 1).setD (fld w 25 22) (w32 (satS 32 (-((issued s d t [fld w 21 18] 1).dr (fld w 21 18)).toInt))) with st := stSat (issued s d t [fld w 21 18] 1).st (w32 (satS 32 (-((issued s d t [fld w 21 18] 1).dr (fld w 21 18)).toInt))) (satS 32 (-((issued s d t [fld w 21 18] 1).dr (fld w 21 18)).toInt) != -((issued s d t [fld w 21 18] 1).dr (fld w 21 18)).toInt) }) s)) ∧
  (∀ (d t : Nat) (w : Word32) (i : Item) (s : State),
    Issues s d t w 21 0x3C03FFF i →
    exec (.opCmp d t w) s = .next (tileUpd d t (fun _ => { (issued s d t [fld w 21 18, fld w 17 14] 1) with st := stAlu (issued s d t [fld w 21 18, fld w 17 14] 1).st ((issued s d t [fld w 21 18, fld w 17 14] 1).dr (fld w 21 18) - (issued s d t [fld w 21 18, fld w 17 14] 1).dr (fld w 17 14)) (satS 32 (((issued s d t [fld w 21 18, fld w 17 14] 1).dr (fld w 21 18)).toInt - ((issued s d t [fld w 21 18, fld w 17 14] 1).dr (fld w 17 14)).toInt) != ((issued s d t [fld w 21 18, fld w 17 14] 1).dr (fld w 21 18)).toInt - ((issued s d t [fld w 21 18, fld w 17 14] 1).dr (fld w 17 14)).toInt) }) s)) ∧
  (∀ (d t : Nat) (w : Word32) (i : Item) (s : State),
    Issues s d t w 24 0 i →
    exec (.opAddi d t w) s = .next (tileUpd d t (fun _ => { (issued s d t [fld w 21 18] 1).setD (fld w 25 22) (w32 (((issued s d t [fld w 21 18] 1).dr (fld w 21 18)).toInt + fldS w 17 0)) with st := stAlu (issued s d t [fld w 21 18] 1).st (w32 (((issued s d t [fld w 21 18] 1).dr (fld w 21 18)).toInt + fldS w 17 0)) (satS 32 (((issued s d t [fld w 21 18] 1).dr (fld w 21 18)).toInt + fldS w 17 0) != ((issued s d t [fld w 21 18] 1).dr (fld w 21 18)).toInt + fldS w 17 0) }) s)) ∧
  (∀ (d t : Nat) (w : Word32) (i : Item) (s : State),
    Issues s d t w 59 0x3FFFF i →
    exec (.opBshl d t w) s = .next (tileUpd d t (fun _ => { (issued s d t [fld w 21 18] 1).setD (fld w 25 22) (w32 (satS 32 (((issued s d t [fld w 21 18] 1).dr (fld w 21 18)).toInt * (2 ^ (issued s d t [fld w 21 18] 1).be.toNat : Nat)))) with st := stSat (issued s d t [fld w 21 18] 1).st (w32 (satS 32 (((issued s d t [fld w 21 18] 1).dr (fld w 21 18)).toInt * (2 ^ (issued s d t [fld w 21 18] 1).be.toNat : Nat)))) (satS 32 (((issued s d t [fld w 21 18] 1).dr (fld w 21 18)).toInt * (2 ^ (issued s d t [fld w 21 18] 1).be.toNat : Nat)) != ((issued s d t [fld w 21 18] 1).dr (fld w 21 18)).toInt * (2 ^ (issued s d t [fld w 21 18] 1).be.toNat : Nat)) }) s)) ∧
  (∀ (d t : Nat) (w : Word32) (i : Item) (s : State),
    Misformed s d t w 8 0x3FFF i →
    exec (.opAdd d t w) s = .next (tileAbort d t .illegal s)) ∧
  (∀ (d t : Nat) (w : Word32) (i : Item) (s : State),
    Misformed s d t w 9 0x3FFF i →
    exec (.opSub d t w) s = .next (tileAbort d t .illegal s)) ∧
  (∀ (d t : Nat) (w : Word32) (i : Item) (s : State),
    Misformed s d t w 10 0x3FFF i →
    exec (.opAdds d t w) s = .next (tileAbort d t .illegal s)) ∧
  (∀ (d t : Nat) (w : Word32) (i : Item) (s : State),
    Misformed s d t w 11 0x3FFF i →
    exec (.opSubs d t w) s = .next (tileAbort d t .illegal s)) ∧
  (∀ (d t : Nat) (w : Word32) (i : Item) (s : State),
    Misformed s d t w 17 0x3FFFF i →
    exec (.opAbs d t w) s = .next (tileAbort d t .illegal s)) ∧
  (∀ (d t : Nat) (w : Word32) (i : Item) (s : State),
    Misformed s d t w 18 0x3FFFF i →
    exec (.opNeg d t w) s = .next (tileAbort d t .illegal s)) ∧
  (∀ (d t : Nat) (w : Word32) (i : Item) (s : State),
    Misformed s d t w 21 0x3C03FFF i →
    exec (.opCmp d t w) s = .next (tileAbort d t .illegal s)) ∧
  (∀ (d t : Nat) (w : Word32) (i : Item) (s : State),
    Misformed s d t w 59 0x3FFFF i →
    exec (.opBshl d t w) s = .next (tileAbort d t .illegal s))

/-- Where the tile issues the word: AND, OR, XOR, MIN and MAX write dD and set Z and N with V cleared; SHL saturates and SHR floors for counts
up to 31, and a count above 31 writes a free value (assumption 5); BEXR, BEXP and EXP do the block exponent; LIL, LIH, MVPI, MVPD and MVC
write a data register, pointer, modifier or length. NOP writes nothing. A word with a reserved bit set, or an MVC of another pointer or
length, aborts the item. -/
def Obligations.TileBitsAndMovesWriteTheirRegister : Prop :=
  (∀ (d t : Nat) (w : Word32) (i : Item) (s : State),
    Issues s d t w 0 0x3FFFFFF i →
    exec (.opNop d t w) s = .next (tileUpd d t (fun _ => (issued s d t [] 1)) s)) ∧
  (∀ (d t : Nat) (w : Word32) (i : Item) (s : State),
    Issues s d t w 12 0x3FFF i →
    exec (.opAnd d t w) s = .next (tileUpd d t (fun _ => { (issued s d t [fld w 21 18, fld w 17 14] 1).setD (fld w 25 22) ((issued s d t [fld w 21 18, fld w 17 14] 1).dr (fld w 21 18) &&& (issued s d t [fld w 21 18, fld w 17 14] 1).dr (fld w 17 14)) with st := stAlu (issued s d t [fld w 21 18, fld w 17 14] 1).st ((issued s d t [fld w 21 18, fld w 17 14] 1).dr (fld w 21 18) &&& (issued s d t [fld w 21 18, fld w 17 14] 1).dr (fld w 17 14)) (false) }) s)) ∧
  (∀ (d t : Nat) (w : Word32) (i : Item) (s : State),
    Issues s d t w 13 0x3FFF i →
    exec (.opOr d t w) s = .next (tileUpd d t (fun _ => { (issued s d t [fld w 21 18, fld w 17 14] 1).setD (fld w 25 22) ((issued s d t [fld w 21 18, fld w 17 14] 1).dr (fld w 21 18) ||| (issued s d t [fld w 21 18, fld w 17 14] 1).dr (fld w 17 14)) with st := stAlu (issued s d t [fld w 21 18, fld w 17 14] 1).st ((issued s d t [fld w 21 18, fld w 17 14] 1).dr (fld w 21 18) ||| (issued s d t [fld w 21 18, fld w 17 14] 1).dr (fld w 17 14)) (false) }) s)) ∧
  (∀ (d t : Nat) (w : Word32) (i : Item) (s : State),
    Issues s d t w 14 0x3FFF i →
    exec (.opXor d t w) s = .next (tileUpd d t (fun _ => { (issued s d t [fld w 21 18, fld w 17 14] 1).setD (fld w 25 22) ((issued s d t [fld w 21 18, fld w 17 14] 1).dr (fld w 21 18) ^^^ (issued s d t [fld w 21 18, fld w 17 14] 1).dr (fld w 17 14)) with st := stAlu (issued s d t [fld w 21 18, fld w 17 14] 1).st ((issued s d t [fld w 21 18, fld w 17 14] 1).dr (fld w 21 18) ^^^ (issued s d t [fld w 21 18, fld w 17 14] 1).dr (fld w 17 14)) (false) }) s)) ∧
  (∀ (d t : Nat) (w : Word32) (i : Item) (s : State),
    Issues s d t w 15 0x3FFF i →
    exec (.opMin d t w) s = .next (tileUpd d t (fun _ => { (issued s d t [fld w 21 18, fld w 17 14] 1).setD (fld w 25 22) (if ((issued s d t [fld w 21 18, fld w 17 14] 1).dr (fld w 21 18)).toInt ≤ ((issued s d t [fld w 21 18, fld w 17 14] 1).dr (fld w 17 14)).toInt then (issued s d t [fld w 21 18, fld w 17 14] 1).dr (fld w 21 18) else (issued s d t [fld w 21 18, fld w 17 14] 1).dr (fld w 17 14)) with st := stAlu (issued s d t [fld w 21 18, fld w 17 14] 1).st (if ((issued s d t [fld w 21 18, fld w 17 14] 1).dr (fld w 21 18)).toInt ≤ ((issued s d t [fld w 21 18, fld w 17 14] 1).dr (fld w 17 14)).toInt then (issued s d t [fld w 21 18, fld w 17 14] 1).dr (fld w 21 18) else (issued s d t [fld w 21 18, fld w 17 14] 1).dr (fld w 17 14)) (false) }) s)) ∧
  (∀ (d t : Nat) (w : Word32) (i : Item) (s : State),
    Issues s d t w 16 0x3FFF i →
    exec (.opMax d t w) s = .next (tileUpd d t (fun _ => { (issued s d t [fld w 21 18, fld w 17 14] 1).setD (fld w 25 22) (if ((issued s d t [fld w 21 18, fld w 17 14] 1).dr (fld w 21 18)).toInt ≤ ((issued s d t [fld w 21 18, fld w 17 14] 1).dr (fld w 17 14)).toInt then (issued s d t [fld w 21 18, fld w 17 14] 1).dr (fld w 17 14) else (issued s d t [fld w 21 18, fld w 17 14] 1).dr (fld w 21 18)) with st := stAlu (issued s d t [fld w 21 18, fld w 17 14] 1).st (if ((issued s d t [fld w 21 18, fld w 17 14] 1).dr (fld w 21 18)).toInt ≤ ((issued s d t [fld w 21 18, fld w 17 14] 1).dr (fld w 17 14)).toInt then (issued s d t [fld w 21 18, fld w 17 14] 1).dr (fld w 17 14) else (issued s d t [fld w 21 18, fld w 17 14] 1).dr (fld w 21 18)) (false) }) s)) ∧
  (∀ (d t : Nat) (w : Word32) (i : Item) (s : State),
    Issues s d t w 19 0x3FFF i →
    ((tileGet s d t).dr (fld w 17 14)).toNat % 64 ≤ 31 →
    exec (.opShl d t w) s = .next (tileUpd d t (fun _ => { (issued s d t [fld w 21 18, fld w 17 14] 1).setD (fld w 25 22) ((satWord (((issued s d t [fld w 21 18, fld w 17 14] 1).dr (fld w 21 18)).toInt * (2 ^ (((tileGet s d t).dr (fld w 17 14)).toNat % 64) : Nat))).1) with st := stSat (issued s d t [fld w 21 18, fld w 17 14] 1).st ((satWord (((issued s d t [fld w 21 18, fld w 17 14] 1).dr (fld w 21 18)).toInt * (2 ^ (((tileGet s d t).dr (fld w 17 14)).toNat % 64) : Nat))).1) ((satWord (((issued s d t [fld w 21 18, fld w 17 14] 1).dr (fld w 21 18)).toInt * (2 ^ (((tileGet s d t).dr (fld w 17 14)).toNat % 64) : Nat))).2) }) s)) ∧
  (∀ (d t : Nat) (w : Word32) (i : Item) (s : State),
    Issues s d t w 20 0x3FFF i →
    ((tileGet s d t).dr (fld w 17 14)).toNat % 64 ≤ 31 →
    exec (.opShr d t w) s = .next (tileUpd d t (fun _ => { (issued s d t [fld w 21 18, fld w 17 14] 1).setD (fld w 25 22) ((satWord (((issued s d t [fld w 21 18, fld w 17 14] 1).dr (fld w 21 18)).toInt / (2 ^ (((tileGet s d t).dr (fld w 17 14)).toNat % 64) : Nat))).1) with st := stAlu (issued s d t [fld w 21 18, fld w 17 14] 1).st ((satWord (((issued s d t [fld w 21 18, fld w 17 14] 1).dr (fld w 21 18)).toInt / (2 ^ (((tileGet s d t).dr (fld w 17 14)).toNat % 64) : Nat))).1) (false) }) s)) ∧
  (∀ (d t : Nat) (w : Word32) (i : Item) (s : State),
    Issues s d t w 19 0x3FFF i →
    31 < ((tileGet s d t).dr (fld w 17 14)).toNat % 64 →
    exec (.opShl d t w) s = .next (tileUpd d t (fun _ => { (issued s d t [fld w 21 18, fld w 17 14] 1).setD (fld w 25 22) (BitVec.ofNat 32 s.draw.1) with st := stSat (issued s d t [fld w 21 18, fld w 17 14] 1).st (BitVec.ofNat 32 s.draw.1) (bit s.draw.1 32) }) s.draw.2)) ∧
  (∀ (d t : Nat) (w : Word32) (i : Item) (s : State),
    Issues s d t w 20 0x3FFF i →
    31 < ((tileGet s d t).dr (fld w 17 14)).toNat % 64 →
    exec (.opShr d t w) s = .next (tileUpd d t (fun _ => { (issued s d t [fld w 21 18, fld w 17 14] 1).setD (fld w 25 22) (BitVec.ofNat 32 s.draw.1) with st := stAlu (issued s d t [fld w 21 18, fld w 17 14] 1).st (BitVec.ofNat 32 s.draw.1) false }) s.draw.2)) ∧
  (∀ (d t : Nat) (w : Word32) (i : Item) (s : State),
    Issues s d t w 56 0x3FFFFFF i →
    exec (.opBexr d t w) s = .next (tileUpd d t (fun _ => { (issued s d t [] 1) with be := 31 }) s)) ∧
  (∀ (d t : Nat) (w : Word32) (i : Item) (s : State),
    Issues s d t w 57 0x3C3FFFF i →
    exec (.opBexp d t w) s = .next (tileUpd d t (fun _ => { (issued s d t [fld w 21 18] 1) with be := BitVec.ofNat 5 (min (issued s d t [fld w 21 18] 1).be.toNat (rsb ((issued s d t [fld w 21 18] 1).dr (fld w 21 18)))) }) s)) ∧
  (∀ (d t : Nat) (w : Word32) (i : Item) (s : State),
    Issues s d t w 58 0x3FFFF i →
    exec (.opExp d t w) s = .next (tileUpd d t (fun _ => { (issued s d t [fld w 21 18] 1).setD (fld w 25 22) (BitVec.ofNat 32 (rsb ((issued s d t [fld w 21 18] 1).dr (fld w 21 18)))) with st := stAlu (issued s d t [fld w 21 18] 1).st (BitVec.ofNat 32 (rsb ((issued s d t [fld w 21 18] 1).dr (fld w 21 18)))) (false) }) s)) ∧
  (∀ (d t : Nat) (w : Word32) (i : Item) (s : State),
    Issues s d t w 25 0x3F0000 i →
    exec (.opLil d t w) s = .next (tileUpd d t (fun _ => (issued s d t [] 1).setD (fld w 25 22) (w32 (fldS w 15 0))) s)) ∧
  (∀ (d t : Nat) (w : Word32) (i : Item) (s : State),
    Issues s d t w 26 0x3F0000 i →
    exec (.opLih d t w) s = .next (tileUpd d t (fun _ => (issued s d t [fld w 25 22] 1).setD (fld w 25 22) (w.extractLsb' 0 16 ++ ((issued s d t [fld w 25 22] 1).dr (fld w 25 22)).extractLsb' 0 16)) s)) ∧
  (∀ (d t : Nat) (w : Word32) (i : Item) (s : State),
    Issues s d t w 28 0x3C0000 i →
    exec (.opMvpi d t w) s = .next (tileUpd d t (fun _ => if fld w 25 22 < 8 then { (issued s d t [] 1) with p := tset (issued s d t [] 1).p (fld w 25 22) (w.extractLsb' 0 16) } else { (issued s d t [] 1) with m := tset (issued s d t [] 1).m (fld w 25 22 - 8) (w.extractLsb' 0 16) }) s)) ∧
  (∀ (d t : Nat) (w : Word32) (i : Item) (s : State),
    Issues s d t w 29 0x3FFFF i →
    exec (.opMvpd d t w) s = .next (tileUpd d t (fun _ => if fld w 25 22 < 8 then { (issued s d t [fld w 21 18] 1) with p := tset (issued s d t [fld w 21 18] 1).p (fld w 25 22) (((issued s d t [fld w 21 18] 1).dr (fld w 21 18)).extractLsb' 0 16) } else { (issued s d t [fld w 21 18] 1) with m := tset (issued s d t [fld w 21 18] 1).m (fld w 25 22 - 8) (((issued s d t [fld w 21 18] 1).dr (fld w 21 18)).extractLsb' 0 16) }) s)) ∧
  (∀ (d t : Nat) (w : Word32) (i : Item) (s : State),
    Issues s d t w 30 0x3F0000 i →
    fld w 25 22 < 8 →
    fld w 15 0 = 0 ∨ [8, 16, 32, 64, 128, 256, 512, 1024, 2048, 4096].contains (fld w 15 0) = true →
    exec (.opMvc d t w) s = .next (tileUpd d t (fun _ => { (issued s d t [] 1) with c := tset (issued s d t [] 1).c (fld w 25 22) (BitVec.ofNat 16 (fld w 15 0)) }) s)) ∧
  (∀ (d t : Nat) (w : Word32) (i : Item) (s : State),
    Issues s d t w 30 0x3F0000 i →
    8 ≤ fld w 25 22 ∨ (fld w 15 0 ≠ 0 ∧ [8, 16, 32, 64, 128, 256, 512, 1024, 2048, 4096].contains (fld w 15 0) = false) →
    exec (.opMvc d t w) s = .next (tileAbort d t .illegal s)) ∧
  (∀ (d t : Nat) (w : Word32) (i : Item) (s : State),
    Misformed s d t w 0 0x3FFFFFF i →
    exec (.opNop d t w) s = .next (tileAbort d t .illegal s)) ∧
  (∀ (d t : Nat) (w : Word32) (i : Item) (s : State),
    Misformed s d t w 12 0x3FFF i →
    exec (.opAnd d t w) s = .next (tileAbort d t .illegal s)) ∧
  (∀ (d t : Nat) (w : Word32) (i : Item) (s : State),
    Misformed s d t w 13 0x3FFF i →
    exec (.opOr d t w) s = .next (tileAbort d t .illegal s)) ∧
  (∀ (d t : Nat) (w : Word32) (i : Item) (s : State),
    Misformed s d t w 14 0x3FFF i →
    exec (.opXor d t w) s = .next (tileAbort d t .illegal s)) ∧
  (∀ (d t : Nat) (w : Word32) (i : Item) (s : State),
    Misformed s d t w 15 0x3FFF i →
    exec (.opMin d t w) s = .next (tileAbort d t .illegal s)) ∧
  (∀ (d t : Nat) (w : Word32) (i : Item) (s : State),
    Misformed s d t w 16 0x3FFF i →
    exec (.opMax d t w) s = .next (tileAbort d t .illegal s)) ∧
  (∀ (d t : Nat) (w : Word32) (i : Item) (s : State),
    Misformed s d t w 19 0x3FFF i →
    exec (.opShl d t w) s = .next (tileAbort d t .illegal s)) ∧
  (∀ (d t : Nat) (w : Word32) (i : Item) (s : State),
    Misformed s d t w 20 0x3FFF i →
    exec (.opShr d t w) s = .next (tileAbort d t .illegal s)) ∧
  (∀ (d t : Nat) (w : Word32) (i : Item) (s : State),
    Misformed s d t w 56 0x3FFFFFF i →
    exec (.opBexr d t w) s = .next (tileAbort d t .illegal s)) ∧
  (∀ (d t : Nat) (w : Word32) (i : Item) (s : State),
    Misformed s d t w 57 0x3C3FFFF i →
    exec (.opBexp d t w) s = .next (tileAbort d t .illegal s)) ∧
  (∀ (d t : Nat) (w : Word32) (i : Item) (s : State),
    Misformed s d t w 58 0x3FFFF i →
    exec (.opExp d t w) s = .next (tileAbort d t .illegal s)) ∧
  (∀ (d t : Nat) (w : Word32) (i : Item) (s : State),
    Misformed s d t w 25 0x3F0000 i →
    exec (.opLil d t w) s = .next (tileAbort d t .illegal s)) ∧
  (∀ (d t : Nat) (w : Word32) (i : Item) (s : State),
    Misformed s d t w 26 0x3F0000 i →
    exec (.opLih d t w) s = .next (tileAbort d t .illegal s)) ∧
  (∀ (d t : Nat) (w : Word32) (i : Item) (s : State),
    Misformed s d t w 28 0x3C0000 i →
    exec (.opMvpi d t w) s = .next (tileAbort d t .illegal s)) ∧
  (∀ (d t : Nat) (w : Word32) (i : Item) (s : State),
    Misformed s d t w 29 0x3FFFF i →
    exec (.opMvpd d t w) s = .next (tileAbort d t .illegal s)) ∧
  (∀ (d t : Nat) (w : Word32) (i : Item) (s : State),
    Misformed s d t w 30 0x3F0000 i →
    exec (.opMvc d t w) s = .next (tileAbort d t .illegal s))

/-- A product is written, added or subtracted modulo 2^80, AOV set where the exact value leaves the range; STA and STB store the rounded,
saturated value with SAT and V; LDA loads; MVA moves a part. A shift beyond the limit, part 3, or a reserved bit set is illegal and aborts
the item. -/
def Obligations.TileAccumulatorsWrapAndStore : Prop :=
  (∀ (d t : Nat) (w : Word32) (i : Item) (s : State),
    Issues s d t w 40 0xF00FFF i →
    exec (.opMpy d t w) s = .next (tileUpd d t (fun _ => accProduct 0 (fld w 25 24) ((issued s d t [fld w 19 16, fld w 15 12] 1).dr (fld w 19 16)) ((issued s d t [fld w 19 16, fld w 15 12] 1).dr (fld w 15 12)) (issued s d t [fld w 19 16, fld w 15 12] 1)) s)) ∧
  (∀ (d t : Nat) (w : Word32) (i : Item) (s : State),
    Issues s d t w 41 0xF i →
    exec (.opMac d t w) s = .next (tileUpd d t (fun _ => { (issued s d t [fld w 19 16, fld w 15 12] 1) with acc := tset (issued s d t [fld w 19 16, fld w 15 12] 1).acc (fld w 25 24) (BitVec.ofInt 80 (((issued s d t [fld w 19 16, fld w 15 12] 1).ar (fld w 25 24)).toInt + ((issued s d t [fld w 19 16, fld w 15 12] 1).dr (fld w 19 16)).toInt * ((issued s d t [fld w 19 16, fld w 15 12] 1).dr (fld w 15 12)).toInt)), st := stSticky (issued s d t [fld w 19 16, fld w 15 12] 1).st 6 (satS 80 (((issued s d t [fld w 19 16, fld w 15 12] 1).ar (fld w 25 24)).toInt + ((issued s d t [fld w 19 16, fld w 15 12] 1).dr (fld w 19 16)).toInt * ((issued s d t [fld w 19 16, fld w 15 12] 1).dr (fld w 15 12)).toInt) != ((issued s d t [fld w 19 16, fld w 15 12] 1).ar (fld w 25 24)).toInt + ((issued s d t [fld w 19 16, fld w 15 12] 1).dr (fld w 19 16)).toInt * ((issued s d t [fld w 19 16, fld w 15 12] 1).dr (fld w 15 12)).toInt) }) s)) ∧
  (∀ (d t : Nat) (w : Word32) (i : Item) (s : State),
    Issues s d t w 42 0xF i →
    exec (.opMsu d t w) s = .next (tileUpd d t (fun _ => accProduct 2 (fld w 25 24) ((issued s d t [fld w 19 16, fld w 15 12] 1).dr (fld w 19 16)) ((issued s d t [fld w 19 16, fld w 15 12] 1).dr (fld w 15 12)) (issued s d t [fld w 19 16, fld w 15 12] 1)) s)) ∧
  (∀ (d t : Nat) (w : Word32) (i : Item) (s : State),
    Issues s d t w 43 0xFF03F i →
    fld w 11 6 ≤ 48 →
    exec (.opSta d t w) s = .next (tileUpd d t (fun _ => { (issued s d t [] 1).setD (fld w 23 20) (staWord ((issued s d t [] 1).ar (fld w 25 24)) (fld w 11 6)).1 with st := if (staWord ((issued s d t [] 1).ar (fld w 25 24)) (fld w 11 6)).2 then stSet (stSet (issued s d t [] 1).st 5 true) 3 true else (issued s d t [] 1).st }) s)) ∧
  (∀ (d t : Nat) (w : Word32) (i : Item) (s : State),
    Issues s d t w 60 0xF i →
    exec (.opStb d t w) s = .next (tileUpd d t (fun _ => { (issued s d t [] 1).setD (fld w 23 20) (stbWord ((issued s d t [] 1).ar (fld w 25 24)) (fld w 11 6)).1 with st := if (stbWord ((issued s d t [] 1).ar (fld w 25 24)) (fld w 11 6)).2 then stSet (stSet (issued s d t [] 1).st 5 true) 3 true else (issued s d t [] 1).st }) s)) ∧
  (∀ (d t : Nat) (w : Word32) (i : Item) (s : State),
    Issues s d t w 44 0xFF03F i →
    fld w 11 6 ≤ 48 →
    exec (.opLda d t w) s = .next (tileUpd d t (fun _ => { (issued s d t [fld w 23 20] 1) with acc := tset (issued s d t [fld w 23 20] 1).acc (fld w 25 24) (BitVec.ofInt 80 (((issued s d t [fld w 23 20] 1).dr (fld w 23 20)).toInt * (2 ^ (fld w 11 6) : Nat))) }) s)) ∧
  (∀ (d t : Nat) (w : Word32) (i : Item) (s : State),
    Issues s d t w 45 0xF i →
    fld w 5 4 ≠ 3 →
    exec (.opMva d t w) s = .next (tileUpd d t (fun _ => (issued s d t [] 1).setD (fld w 23 20) (if fld w 5 4 = 0 then ((issued s d t [] 1).ar (fld w 25 24)).extractLsb' 0 32 else if fld w 5 4 = 1 then ((issued s d t [] 1).ar (fld w 25 24)).extractLsb' 32 32 else (((issued s d t [] 1).ar (fld w 25 24)).extractLsb' 64 16).signExtend 32)) s)) ∧
  (∀ (d t : Nat) (w : Word32) (i : Item) (s : State),
    Issues s d t w 43 0xFF03F i →
    48 < fld w 11 6 →
    exec (.opSta d t w) s = .next (tileAbort d t .illegal s)) ∧
  (∀ (d t : Nat) (w : Word32) (i : Item) (s : State),
    Issues s d t w 44 0xFF03F i →
    48 < fld w 11 6 →
    exec (.opLda d t w) s = .next (tileAbort d t .illegal s)) ∧
  (∀ (d t : Nat) (w : Word32) (i : Item) (s : State),
    Issues s d t w 45 0xF i →
    fld w 5 4 = 3 →
    exec (.opMva d t w) s = .next (tileAbort d t .illegal s)) ∧
  (∀ (d t : Nat) (w : Word32) (i : Item) (s : State),
    Misformed s d t w 40 0xF00FFF i →
    exec (.opMpy d t w) s = .next (tileAbort d t .illegal s)) ∧
  (∀ (d t : Nat) (w : Word32) (i : Item) (s : State),
    Misformed s d t w 41 0xF i →
    exec (.opMac d t w) s = .next (tileAbort d t .illegal s)) ∧
  (∀ (d t : Nat) (w : Word32) (i : Item) (s : State),
    Misformed s d t w 42 0xF i →
    exec (.opMsu d t w) s = .next (tileAbort d t .illegal s)) ∧
  (∀ (d t : Nat) (w : Word32) (i : Item) (s : State),
    Misformed s d t w 43 0xFF03F i →
    exec (.opSta d t w) s = .next (tileAbort d t .illegal s)) ∧
  (∀ (d t : Nat) (w : Word32) (i : Item) (s : State),
    Misformed s d t w 60 0xF i →
    exec (.opStb d t w) s = .next (tileAbort d t .illegal s)) ∧
  (∀ (d t : Nat) (w : Word32) (i : Item) (s : State),
    Misformed s d t w 44 0xFF03F i →
    exec (.opLda d t w) s = .next (tileAbort d t .illegal s)) ∧
  (∀ (d t : Nat) (w : Word32) (i : Item) (s : State),
    Misformed s d t w 45 0xF i →
    exec (.opMva d t w) s = .next (tileAbort d t .illegal s))

/-- END ends the item; REP starts the repeat buffer with the count in the word or in a register, or skips the body for a count of 0; BR taken
moves the pc and costs three cycles; LD and ST reach the space and move the pointer; the XY products load both, and leave a free value in a
pointer named twice (assumption 5); GETS and PUT read a view and buffer a value. END, REP or BR in a repeat body, a condition above 8, a
reserved bit set and an opcode that Table 11.6 does not list abort the item as illegal; an address outside the space, a target or a body
outside the region and a port that is not owned abort it as Table 11.10 says. -/
def Obligations.TileMemoryAndControlFlow : Prop :=
  (∀ (d t : Nat) (w : Word32) (i : Item) (s : State),
    Issues s d t w 1 0x3FFFFFF i →
    (tileGet s d t).rep = none →
    exec (.opEnd d t w) s = .next (itemEnd d t i (issued s d t [] 1) s)) ∧
  (∀ (d t : Nat) (w : Word32) (i : Item) (s : State),
    Issues s d t w 1 0x3FFFFFF i →
    (tileGet s d t).rep ≠ none →
    exec (.opEnd d t w) s = .next (tileAbort d t .illegal s)) ∧
  (∀ (d t : Nat) (w : Word32) (i : Item) (s : State),
    Issues s d t w 2 0x1F0000 i →
    (tileGet s d t).rep = none →
    fld w 21 21 = 0 ∨ fld w 15 4 = 0 →
    inRegion (issued s d t (if fld w 21 21 = 1 then [fld w 3 0] else []) 1).bind.kid ((issued s d t (if fld w 21 21 = 1 then [fld w 3 0] else []) 1).pc + (fld w 25 22 + 1) - 1) = true →
    (if fld w 21 21 = 1 then ((tileGet s d t).dr (fld w 3 0)).toNat % 65536 else fld w 15 0) ≠ 0 →
    exec (.opRep d t w) s = .next (tileUpd d t (fun _ => { (issued s d t (if fld w 21 21 = 1 then [fld w 3 0] else []) 1) with rep := some ⟨(issued s d t (if fld w 21 21 = 1 then [fld w 3 0] else []) 1).pc, fld w 25 22 + 1, (if fld w 21 21 = 1 then ((tileGet s d t).dr (fld w 3 0)).toNat % 65536 else fld w 15 0) - 1⟩ }) s)) ∧
  (∀ (d t : Nat) (w : Word32) (i : Item) (s : State),
    Issues s d t w 2 0x1F0000 i →
    (tileGet s d t).rep = none →
    fld w 21 21 = 0 ∨ fld w 15 4 = 0 →
    inRegion (issued s d t (if fld w 21 21 = 1 then [fld w 3 0] else []) 1).bind.kid ((issued s d t (if fld w 21 21 = 1 then [fld w 3 0] else []) 1).pc + (fld w 25 22 + 1) - 1) = true →
    (if fld w 21 21 = 1 then ((tileGet s d t).dr (fld w 3 0)).toNat % 65536 else fld w 15 0) = 0 →
    exec (.opRep d t w) s = .next (tileUpd d t (fun _ => { (issued s d t (if fld w 21 21 = 1 then [fld w 3 0] else []) 1) with pc := (issued s d t (if fld w 21 21 = 1 then [fld w 3 0] else []) 1).pc + (fld w 25 22 + 1) }) s)) ∧
  (∀ (d t : Nat) (w : Word32) (i : Item) (s : State),
    Issues s d t w 2 0x1F0000 i →
    (tileGet s d t).rep ≠ none ∨ (fld w 21 21 = 1 ∧ fld w 15 4 ≠ 0) ∨ inRegion (issued s d t (if fld w 21 21 = 1 then [fld w 3 0] else []) 1).bind.kid ((issued s d t (if fld w 21 21 = 1 then [fld w 3 0] else []) 1).pc + (fld w 25 22 + 1) - 1) = false →
    exec (.opRep d t w) s = .next (tileAbort d t .illegal s)) ∧
  (∀ (d t : Nat) (w : Word32) (i : Item) (s : State),
    Issues s d t w 3 0x3FC000 i →
    (tileGet s d t).rep = none →
    tileCond (issued s d t [] 1).st (fld w 25 22) = some true →
    inRegion (issued s d t [] 1).bind.kid (fld w 13 0) = true →
    exec (.opBr d t w) s = .next (tileUpd d t (fun _ => { (issued s d t [] 1) with pc := fld w 13 0, cycles := (issued s d t [] 1).cycles + 2 }) s)) ∧
  (∀ (d t : Nat) (w : Word32) (i : Item) (s : State),
    Issues s d t w 3 0x3FC000 i →
    (tileGet s d t).rep = none →
    tileCond (issued s d t [] 1).st (fld w 25 22) = some false →
    inRegion (issued s d t [] 1).bind.kid (fld w 13 0) = true →
    exec (.opBr d t w) s = .next (tileUpd d t (fun _ => (issued s d t [] 1)) s)) ∧
  (∀ (d t : Nat) (w : Word32) (i : Item) (s : State),
    Issues s d t w 3 0x3FC000 i →
    (tileGet s d t).rep ≠ none ∨ tileCond (issued s d t [] 1).st (fld w 25 22) = none →
    exec (.opBr d t w) s = .next (tileAbort d t .illegal s)) ∧
  (∀ (d t : Nat) (w : Word32) (i : Item) (s : State),
    Issues s d t w 3 0x3FC000 i →
    (tileGet s d t).rep = none →
    tileCond (issued s d t [] 1).st (fld w 25 22) ≠ none →
    inRegion (tileGet s d t).bind.kid (fld w 13 0) = false →
    exec (.opBr d t w) s = .next (tileAbort d t .access s)) ∧
  (∀ (d t : Nat) (w : Word32) (i : Item) (a : Nat) (y : TileSt) (v : Word32) (s : State),
    Issues s d t w 32 0xFF i →
    memAddr w (issued s d t [] 1) = .ok (a, y) →
    spaceRead s d (issued s d t [] 1) i (fld w 16 16 == 1) a = some v →
    exec (.opLd d t w) s = .next (tileUpd d t (fun _ => { y.setD (fld w 25 22) v with loaded := [fld w 25 22] }) s)) ∧
  (∀ (d t : Nat) (w : Word32) (i : Item) (a : Nat) (y z : TileSt) (s : State),
    Issues s d t w 33 0xFF i →
    memAddr w (issued s d t [fld w 25 22] 1) = .ok (a, y) →
    spaceWrite y (fld w 16 16 == 1) a ((issued s d t [fld w 25 22] 1).dr (fld w 25 22)) = some z →
    exec (.opSt d t w) s = .next (tileUpd d t (fun _ => z) s)) ∧
  (∀ (d t : Nat) (w : Word32) (i : Item) (a : Nat) (y : TileSt) (s : State),
    Issues s d t w 33 0xFF i →
    memAddr w (issued s d t [fld w 25 22] 1) = .ok (a, y) →
    spaceWrite y (fld w 16 16 == 1) a ((issued s d t [fld w 25 22] 1).dr (fld w 25 22)) = none →
    exec (.opSt d t w) s = .next (tileAbort d t .access s)) ∧
  (∀ (d t : Nat) (w : Word32) (i : Item) (f : TFault) (s : State),
    Issues s d t w 32 0xFF i →
    memAddr w (issued s d t [] 1) = .error f →
    exec (.opLd d t w) s = .next (tileAbort d t (f) s)) ∧
  (∀ (d t : Nat) (w : Word32) (i : Item) (a : Nat) (y : TileSt) (s : State),
    Issues s d t w 32 0xFF i →
    memAddr w (issued s d t [] 1) = .ok (a, y) →
    spaceRead s d (issued s d t [] 1) i (fld w 16 16 == 1) a = none →
    exec (.opLd d t w) s = .next (tileAbort d t .access s)) ∧
  (∀ (d t : Nat) (w : Word32) (i : Item) (f : TFault) (s : State),
    Issues s d t w 33 0xFF i →
    memAddr w (issued s d t [fld w 25 22] 1) = .error f →
    exec (.opSt d t w) s = .next (tileAbort d t (f) s)) ∧
  (∀ (d t : Nat) (w : Word32) (i : Item) (ax ay : Nat) (px py : Word16) (vx vy : Word32) (s : State),
    Issues s d t w 48 0x3FF i →
    fld w 17 15 ≠ fld w 14 12 →
    tileAddr (fld w 11 11) ((issued s d t [fld w 23 21, 8 + fld w 20 18] 1).pr (fld w 17 15)) ((issued s d t [fld w 23 21, 8 + fld w 20 18] 1).mr (fld w 17 15)) ((issued s d t [fld w 23 21, 8 + fld w 20 18] 1).cr (fld w 17 15)) 0 = some (ax, px) →
    tileAddr (fld w 10 10) ((issued s d t [fld w 23 21, 8 + fld w 20 18] 1).pr (fld w 14 12)) ((issued s d t [fld w 23 21, 8 + fld w 20 18] 1).mr (fld w 14 12)) ((issued s d t [fld w 23 21, 8 + fld w 20 18] 1).cr (fld w 14 12)) 0 = some (ay, py) →
    xRead s d (issued s d t [fld w 23 21, 8 + fld w 20 18] 1) i ax = some vx →
    yRead s d (issued s d t [fld w 23 21, 8 + fld w 20 18] 1) ay = some vy →
    exec (.opMpyxy d t w) s = .next (tileUpd d t (fun _ => { ((accProduct 0 (fld w 25 24) ((issued s d t [fld w 23 21, 8 + fld w 20 18] 1).dr (fld w 23 21)) ((issued s d t [fld w 23 21, 8 + fld w 20 18] 1).dr (8 + fld w 20 18)) (issued s d t [fld w 23 21, 8 + fld w 20 18] 1)).setD (fld w 23 21) vx).setD (8 + fld w 20 18) vy with p := tset (tset (issued s d t [fld w 23 21, 8 + fld w 20 18] 1).p (fld w 17 15) px) (fld w 14 12) py, loaded := [fld w 23 21, 8 + fld w 20 18] }) s)) ∧
  (∀ (d t : Nat) (w : Word32) (i : Item) (ax ay : Nat) (px py : Word16) (vx vy : Word32) (s : State),
    Issues s d t w 49 0x3FF i →
    fld w 17 15 ≠ fld w 14 12 →
    tileAddr (fld w 11 11) ((issued s d t [fld w 23 21, 8 + fld w 20 18] 1).pr (fld w 17 15)) ((issued s d t [fld w 23 21, 8 + fld w 20 18] 1).mr (fld w 17 15)) ((issued s d t [fld w 23 21, 8 + fld w 20 18] 1).cr (fld w 17 15)) 0 = some (ax, px) →
    tileAddr (fld w 10 10) ((issued s d t [fld w 23 21, 8 + fld w 20 18] 1).pr (fld w 14 12)) ((issued s d t [fld w 23 21, 8 + fld w 20 18] 1).mr (fld w 14 12)) ((issued s d t [fld w 23 21, 8 + fld w 20 18] 1).cr (fld w 14 12)) 0 = some (ay, py) →
    xRead s d (issued s d t [fld w 23 21, 8 + fld w 20 18] 1) i ax = some vx →
    yRead s d (issued s d t [fld w 23 21, 8 + fld w 20 18] 1) ay = some vy →
    exec (.opMacxy d t w) s = .next (tileUpd d t (fun _ => { ((accProduct 1 (fld w 25 24) ((issued s d t [fld w 23 21, 8 + fld w 20 18] 1).dr (fld w 23 21)) ((issued s d t [fld w 23 21, 8 + fld w 20 18] 1).dr (8 + fld w 20 18)) (issued s d t [fld w 23 21, 8 + fld w 20 18] 1)).setD (fld w 23 21) vx).setD (8 + fld w 20 18) vy with p := tset (tset (issued s d t [fld w 23 21, 8 + fld w 20 18] 1).p (fld w 17 15) px) (fld w 14 12) py, loaded := [fld w 23 21, 8 + fld w 20 18] }) s)) ∧
  (∀ (d t : Nat) (w : Word32) (i : Item) (ax ay : Nat) (px py : Word16) (vx vy : Word32) (s : State),
    Issues s d t w 50 0x3FF i →
    fld w 17 15 ≠ fld w 14 12 →
    tileAddr (fld w 11 11) ((issued s d t [fld w 23 21, 8 + fld w 20 18] 1).pr (fld w 17 15)) ((issued s d t [fld w 23 21, 8 + fld w 20 18] 1).mr (fld w 17 15)) ((issued s d t [fld w 23 21, 8 + fld w 20 18] 1).cr (fld w 17 15)) 0 = some (ax, px) →
    tileAddr (fld w 10 10) ((issued s d t [fld w 23 21, 8 + fld w 20 18] 1).pr (fld w 14 12)) ((issued s d t [fld w 23 21, 8 + fld w 20 18] 1).mr (fld w 14 12)) ((issued s d t [fld w 23 21, 8 + fld w 20 18] 1).cr (fld w 14 12)) 0 = some (ay, py) →
    xRead s d (issued s d t [fld w 23 21, 8 + fld w 20 18] 1) i ax = some vx →
    yRead s d (issued s d t [fld w 23 21, 8 + fld w 20 18] 1) ay = some vy →
    exec (.opMsuxy d t w) s = .next (tileUpd d t (fun _ => { ((accProduct 2 (fld w 25 24) ((issued s d t [fld w 23 21, 8 + fld w 20 18] 1).dr (fld w 23 21)) ((issued s d t [fld w 23 21, 8 + fld w 20 18] 1).dr (8 + fld w 20 18)) (issued s d t [fld w 23 21, 8 + fld w 20 18] 1)).setD (fld w 23 21) vx).setD (8 + fld w 20 18) vy with p := tset (tset (issued s d t [fld w 23 21, 8 + fld w 20 18] 1).p (fld w 17 15) px) (fld w 14 12) py, loaded := [fld w 23 21, 8 + fld w 20 18] }) s)) ∧
  (∀ (d t : Nat) (w : Word32) (i : Item) (ax ay : Nat) (px py : Word16) (vx vy : Word32) (s : State),
    Issues s d t w 48 0x3FF i →
    fld w 17 15 = fld w 14 12 →
    tileAddr (fld w 11 11) ((issued s d t [fld w 23 21, 8 + fld w 20 18] 1).pr (fld w 17 15)) ((issued s d t [fld w 23 21, 8 + fld w 20 18] 1).mr (fld w 17 15)) ((issued s d t [fld w 23 21, 8 + fld w 20 18] 1).cr (fld w 17 15)) 0 = some (ax, px) →
    tileAddr (fld w 10 10) ((issued s d t [fld w 23 21, 8 + fld w 20 18] 1).pr (fld w 14 12)) ((issued s d t [fld w 23 21, 8 + fld w 20 18] 1).mr (fld w 14 12)) ((issued s d t [fld w 23 21, 8 + fld w 20 18] 1).cr (fld w 14 12)) 0 = some (ay, py) →
    xRead s d (issued s d t [fld w 23 21, 8 + fld w 20 18] 1) i ax = some vx →
    yRead s d (issued s d t [fld w 23 21, 8 + fld w 20 18] 1) ay = some vy →
    exec (.opMpyxy d t w) s = .next (tileUpd d t (fun _ => { ((accProduct 0 (fld w 25 24) ((issued s d t [fld w 23 21, 8 + fld w 20 18] 1).dr (fld w 23 21)) ((issued s d t [fld w 23 21, 8 + fld w 20 18] 1).dr (8 + fld w 20 18)) (issued s d t [fld w 23 21, 8 + fld w 20 18] 1)).setD (fld w 23 21) vx).setD (8 + fld w 20 18) vy with p := tset (issued s d t [fld w 23 21, 8 + fld w 20 18] 1).p (fld w 17 15) (BitVec.ofNat 16 s.draw.1), loaded := [fld w 23 21, 8 + fld w 20 18] }) s.draw.2)) ∧
  (∀ (d t : Nat) (w : Word32) (i : Item) (ax ay : Nat) (px py : Word16) (vx vy : Word32) (s : State),
    Issues s d t w 49 0x3FF i →
    fld w 17 15 = fld w 14 12 →
    tileAddr (fld w 11 11) ((issued s d t [fld w 23 21, 8 + fld w 20 18] 1).pr (fld w 17 15)) ((issued s d t [fld w 23 21, 8 + fld w 20 18] 1).mr (fld w 17 15)) ((issued s d t [fld w 23 21, 8 + fld w 20 18] 1).cr (fld w 17 15)) 0 = some (ax, px) →
    tileAddr (fld w 10 10) ((issued s d t [fld w 23 21, 8 + fld w 20 18] 1).pr (fld w 14 12)) ((issued s d t [fld w 23 21, 8 + fld w 20 18] 1).mr (fld w 14 12)) ((issued s d t [fld w 23 21, 8 + fld w 20 18] 1).cr (fld w 14 12)) 0 = some (ay, py) →
    xRead s d (issued s d t [fld w 23 21, 8 + fld w 20 18] 1) i ax = some vx →
    yRead s d (issued s d t [fld w 23 21, 8 + fld w 20 18] 1) ay = some vy →
    exec (.opMacxy d t w) s = .next (tileUpd d t (fun _ => { ((accProduct 1 (fld w 25 24) ((issued s d t [fld w 23 21, 8 + fld w 20 18] 1).dr (fld w 23 21)) ((issued s d t [fld w 23 21, 8 + fld w 20 18] 1).dr (8 + fld w 20 18)) (issued s d t [fld w 23 21, 8 + fld w 20 18] 1)).setD (fld w 23 21) vx).setD (8 + fld w 20 18) vy with p := tset (issued s d t [fld w 23 21, 8 + fld w 20 18] 1).p (fld w 17 15) (BitVec.ofNat 16 s.draw.1), loaded := [fld w 23 21, 8 + fld w 20 18] }) s.draw.2)) ∧
  (∀ (d t : Nat) (w : Word32) (i : Item) (ax ay : Nat) (px py : Word16) (vx vy : Word32) (s : State),
    Issues s d t w 50 0x3FF i →
    fld w 17 15 = fld w 14 12 →
    tileAddr (fld w 11 11) ((issued s d t [fld w 23 21, 8 + fld w 20 18] 1).pr (fld w 17 15)) ((issued s d t [fld w 23 21, 8 + fld w 20 18] 1).mr (fld w 17 15)) ((issued s d t [fld w 23 21, 8 + fld w 20 18] 1).cr (fld w 17 15)) 0 = some (ax, px) →
    tileAddr (fld w 10 10) ((issued s d t [fld w 23 21, 8 + fld w 20 18] 1).pr (fld w 14 12)) ((issued s d t [fld w 23 21, 8 + fld w 20 18] 1).mr (fld w 14 12)) ((issued s d t [fld w 23 21, 8 + fld w 20 18] 1).cr (fld w 14 12)) 0 = some (ay, py) →
    xRead s d (issued s d t [fld w 23 21, 8 + fld w 20 18] 1) i ax = some vx →
    yRead s d (issued s d t [fld w 23 21, 8 + fld w 20 18] 1) ay = some vy →
    exec (.opMsuxy d t w) s = .next (tileUpd d t (fun _ => { ((accProduct 2 (fld w 25 24) ((issued s d t [fld w 23 21, 8 + fld w 20 18] 1).dr (fld w 23 21)) ((issued s d t [fld w 23 21, 8 + fld w 20 18] 1).dr (8 + fld w 20 18)) (issued s d t [fld w 23 21, 8 + fld w 20 18] 1)).setD (fld w 23 21) vx).setD (8 + fld w 20 18) vy with p := tset (issued s d t [fld w 23 21, 8 + fld w 20 18] 1).p (fld w 17 15) (BitVec.ofNat 16 s.draw.1), loaded := [fld w 23 21, 8 + fld w 20 18] }) s.draw.2)) ∧
  (∀ (d t : Nat) (w : Word32) (i : Item) (s : State),
    Issues s d t w 48 0x3FF i →
    (tileAddr (fld w 11 11) ((issued s d t [fld w 23 21, 8 + fld w 20 18] 1).pr (fld w 17 15)) ((issued s d t [fld w 23 21, 8 + fld w 20 18] 1).mr (fld w 17 15)) ((issued s d t [fld w 23 21, 8 + fld w 20 18] 1).cr (fld w 17 15)) 0).bind (fun e => xRead s d (issued s d t [fld w 23 21, 8 + fld w 20 18] 1) i e.1) = none ∨ (tileAddr (fld w 10 10) ((issued s d t [fld w 23 21, 8 + fld w 20 18] 1).pr (fld w 14 12)) ((issued s d t [fld w 23 21, 8 + fld w 20 18] 1).mr (fld w 14 12)) ((issued s d t [fld w 23 21, 8 + fld w 20 18] 1).cr (fld w 14 12)) 0).bind (fun e => yRead s d (issued s d t [fld w 23 21, 8 + fld w 20 18] 1) e.1) = none →
    exec (.opMpyxy d t w) s = .next (tileAbort d t .access s)) ∧
  (∀ (d t : Nat) (w : Word32) (i : Item) (s : State),
    Issues s d t w 49 0x3FF i →
    (tileAddr (fld w 11 11) ((issued s d t [fld w 23 21, 8 + fld w 20 18] 1).pr (fld w 17 15)) ((issued s d t [fld w 23 21, 8 + fld w 20 18] 1).mr (fld w 17 15)) ((issued s d t [fld w 23 21, 8 + fld w 20 18] 1).cr (fld w 17 15)) 0).bind (fun e => xRead s d (issued s d t [fld w 23 21, 8 + fld w 20 18] 1) i e.1) = none ∨ (tileAddr (fld w 10 10) ((issued s d t [fld w 23 21, 8 + fld w 20 18] 1).pr (fld w 14 12)) ((issued s d t [fld w 23 21, 8 + fld w 20 18] 1).mr (fld w 14 12)) ((issued s d t [fld w 23 21, 8 + fld w 20 18] 1).cr (fld w 14 12)) 0).bind (fun e => yRead s d (issued s d t [fld w 23 21, 8 + fld w 20 18] 1) e.1) = none →
    exec (.opMacxy d t w) s = .next (tileAbort d t .access s)) ∧
  (∀ (d t : Nat) (w : Word32) (i : Item) (s : State),
    Issues s d t w 50 0x3FF i →
    (tileAddr (fld w 11 11) ((issued s d t [fld w 23 21, 8 + fld w 20 18] 1).pr (fld w 17 15)) ((issued s d t [fld w 23 21, 8 + fld w 20 18] 1).mr (fld w 17 15)) ((issued s d t [fld w 23 21, 8 + fld w 20 18] 1).cr (fld w 17 15)) 0).bind (fun e => xRead s d (issued s d t [fld w 23 21, 8 + fld w 20 18] 1) i e.1) = none ∨ (tileAddr (fld w 10 10) ((issued s d t [fld w 23 21, 8 + fld w 20 18] 1).pr (fld w 14 12)) ((issued s d t [fld w 23 21, 8 + fld w 20 18] 1).mr (fld w 14 12)) ((issued s d t [fld w 23 21, 8 + fld w 20 18] 1).cr (fld w 14 12)) 0).bind (fun e => yRead s d (issued s d t [fld w 23 21, 8 + fld w 20 18] 1) e.1) = none →
    exec (.opMsuxy d t w) s = .next (tileAbort d t .access s)) ∧
  (∀ (d t : Nat) (w : Word32) (i : Item) (v : Int) (ok : Bool) (s : State),
    Issues s d t w 62 0x3F0000 i →
    gets s d i (fld w 15 0) = .ok (v, ok) →
    exec (.opGets d t w) s = .next (tileUpd d t (fun _ => { (issued s d t [] 8).setD (fld w 25 22) (w32 v) with st := stSet (stSet (stSet (issued s d t [] 8).st 1 (w32 v == 0)) 2 (w32 v).msb) 4 (!ok) }) s)) ∧
  (∀ (d t : Nat) (w : Word32) (i : Item) (s : State),
    Issues s d t w 63 0x1F0000 i →
    putOk (issued s d t [fld w 25 22] 2).bind (fld w 21 21 == 1) (fld w 15 0) = true →
    exec (.opPut d t w) s = .next (tileUpd d t (fun _ => { (issued s d t [fld w 25 22] 2) with puts := (issued s d t [fld w 25 22] 2).puts.filter (fun p => !(p.duty == (fld w 21 21 == 1) && p.port == fld w 15 0)) ++ [⟨fld w 21 21 == 1, fld w 15 0, ((issued s d t [fld w 25 22] 2).dr (fld w 25 22)).toInt⟩] }) s)) ∧
  (∀ (d t : Nat) (w : Word32) (i : Item) (f : TFault) (s : State),
    Issues s d t w 62 0x3F0000 i →
    gets s d i (fld w 15 0) = .error f →
    exec (.opGets d t w) s = .next (tileAbort d t f s)) ∧
  (∀ (d t : Nat) (w : Word32) (i : Item) (s : State),
    Issues s d t w 63 0x1F0000 i →
    putOk (issued s d t [fld w 25 22] 2).bind (fld w 21 21 == 1) (fld w 15 0) = false →
    exec (.opPut d t w) s = .next (tileAbort d t .access s)) ∧
  (∀ (d t : Nat) (w : Word32) (i : Item) (s : State),
    Misformed s d t w 1 0x3FFFFFF i →
    exec (.opEnd d t w) s = .next (tileAbort d t .illegal s)) ∧
  (∀ (d t : Nat) (w : Word32) (i : Item) (s : State),
    Misformed s d t w 2 0x1F0000 i →
    exec (.opRep d t w) s = .next (tileAbort d t .illegal s)) ∧
  (∀ (d t : Nat) (w : Word32) (i : Item) (s : State),
    Misformed s d t w 3 0x3FC000 i →
    exec (.opBr d t w) s = .next (tileAbort d t .illegal s)) ∧
  (∀ (d t : Nat) (w : Word32) (i : Item) (s : State),
    Misformed s d t w 32 0xFF i →
    exec (.opLd d t w) s = .next (tileAbort d t .illegal s)) ∧
  (∀ (d t : Nat) (w : Word32) (i : Item) (s : State),
    Misformed s d t w 33 0xFF i →
    exec (.opSt d t w) s = .next (tileAbort d t .illegal s)) ∧
  (∀ (d t : Nat) (w : Word32) (i : Item) (s : State),
    Misformed s d t w 48 0x3FF i →
    exec (.opMpyxy d t w) s = .next (tileAbort d t .illegal s)) ∧
  (∀ (d t : Nat) (w : Word32) (i : Item) (s : State),
    Misformed s d t w 49 0x3FF i →
    exec (.opMacxy d t w) s = .next (tileAbort d t .illegal s)) ∧
  (∀ (d t : Nat) (w : Word32) (i : Item) (s : State),
    Misformed s d t w 50 0x3FF i →
    exec (.opMsuxy d t w) s = .next (tileAbort d t .illegal s)) ∧
  (∀ (d t : Nat) (w : Word32) (i : Item) (s : State),
    Misformed s d t w 62 0x3F0000 i →
    exec (.opGets d t w) s = .next (tileAbort d t .illegal s)) ∧
  (∀ (d t : Nat) (w : Word32) (i : Item) (s : State),
    Misformed s d t w 63 0x1F0000 i →
    exec (.opPut d t w) s = .next (tileAbort d t .illegal s)) ∧
  (∀ (d t : Nat) (w : Word32) (i : Item) (s : State),
    tileItem s d t = some i →
    (tileGet s d t).cycles < (tileGet s d t).limit →
    inRegion (tileGet s d t).bind.kid (tileGet s d t).pc = true →
    0x8000 ≤ (tileGet s d t).bind.kid →
    tileOpcodes.contains (fld w 31 26) = false →
    exec (.illegalInstruction d t w) s = .next (tileAbort d t .illegal s)) ∧
  (∀ (d t : Nat) (w : Word32) (s : State),
    tileOpcodes.contains (fld w 31 26) = true →
    exec (.illegalInstruction d t w) s = .next s)

/-- MEAS_CHANNEL_CONFIG, MEAS_SEQUENCE_CONFIG, of a first or a second unit, and MEAS_FILTER_CONFIG in range stage into shadow set bit 5, and are
BUSY while it is held. MEAS_REF_SELECT of another reference drops REF_SETTLED, with what its fall does, and answers PENDING; of the present
one it answers OK. MEAS_CALIBRATE without a settled reference answers CONFLICT; with it, it asks for the units named, and its first answer
follows. MEAS_DIAG_RUN queues a level or a path test, a path test of a channel that is not measured answers CONFLICT. MEAS_STATUS reads, and
clears the two stickies when asked. Without an MPR they answer NOT_FITTED. -/
def Obligations.MeasurementCommandsStageAndCalibrate : Prop :=
  (∀ (c : Cmd) (s v : State) (k : MChanCfg),
    k = { mChanShadow s (c.u8 0) with on := c.u8 1 == 1, unit := c.u8 2, pos := c.u8 3, gain := c.s32 4, offs := c.s32 8, pmin := c.u16 12, pmax := c.u16 14 } →
    v = stage 5 c.params (s.onMeas (fun m => { m with chanNew := tset m.chanNew (c.u8 0) k })) →
    Admits c s [.config, .standby, .deblocked, .safeStop, .blockedFault, .factoryTest] [.active, .standby] →
    Inline c 16 →
    unitFit s (c.u8 2) = true →
    c.u8 0 < 64 →
    c.u8 1 < 2 →
    c.u8 2 < 4 →
    c.u8 3 < 16 →
    c.u16 12 ≤ c.u16 14 →
    setHeld s 5 = false →
    exec (.measChannelConfig c) s = .next (answer 0x0901 c .ok (le 1 ((List.range 64).filter (fun n => (mChanShadow v n).on)).length) v)) ∧
  (∀ (c : Cmd) (s : State),
    Admits c s [.config, .standby, .deblocked, .safeStop, .blockedFault, .factoryTest] [.active, .standby] →
    Inline c 16 →
    unitFit s (c.u8 2) = true →
    c.u8 0 < 64 →
    c.u8 1 < 2 →
    c.u8 2 < 4 →
    c.u8 3 < 16 →
    c.u16 12 ≤ c.u16 14 →
    setHeld s 5 = true →
    exec (.measChannelConfig c) s = .next (answer 0x0901 c .busy [] s)) ∧
  (∀ (c : Cmd) (s : State) (k : MSeqCfg),
    k = { rlen := c.u8 1, ilen := c.u8 2, itrig := c.u8 3, itidx := c.u8 4, lead := c.u16 6, rslots := (List.range 16).map (fun n => c.u8 (8 + n)), islots := (List.range 4).map (fun n => c.u8 (24 + n)), xsel := c.u8 28, xn := c.u8 29, xinv := c.u8 30 == 1, xtol := c.s32 32 } →
    Admits c s [.config, .standby, .deblocked, .safeStop, .blockedFault, .factoryTest] [.active, .standby] →
    Inline c 36 →
    unitFit s (c.u8 0) = true →
    c.u8 1 ≤ 16 →
    c.u8 2 ≤ 4 →
    itrigOk (c.u8 3) (c.u8 4) = true →
    c.u16 6 ≤ 2000 →
    slotsFit ((List.range 16).map (fun n => c.u8 (8 + n))) (c.u8 1) = true →
    slotsFit ((List.range 4).map (fun n => c.u8 (24 + n))) (c.u8 2) = true →
    c.rsv 5 1 = true →
    c.rsv 31 1 = true →
    c.u8 0 = 0 ∨ c.u8 0 = 2 →
    c.u8 28 < 24 ∨ c.u8 28 = 255 →
    1 ≤ c.u8 29 →
    c.u8 30 < 2 →
    0 ≤ c.s32 32 →
    setHeld s 5 = false →
    exec (.measSequenceConfig c) s = .next (answer 0x0902 c .ok (le 2 (k.rlen * 200) ++ le 2 (275 + 200 * k.ilen)) (stage 5 c.params (s.onMeas (fun m => { m with seqNew := tset m.seqNew (c.u8 0) k }))))) ∧
  (∀ (c : Cmd) (s : State) (k : MSeqCfg),
    k = { rlen := c.u8 1, ilen := c.u8 2, itrig := c.u8 3, itidx := c.u8 4, lead := c.u16 6, rslots := (List.range 16).map (fun n => c.u8 (8 + n)), islots := (List.range 4).map (fun n => c.u8 (24 + n)) } →
    Admits c s [.config, .standby, .deblocked, .safeStop, .blockedFault, .factoryTest] [.active, .standby] →
    Inline c 36 →
    unitFit s (c.u8 0) = true →
    c.u8 1 ≤ 16 →
    c.u8 2 ≤ 4 →
    itrigOk (c.u8 3) (c.u8 4) = true →
    c.u16 6 ≤ 2000 →
    slotsFit ((List.range 16).map (fun n => c.u8 (8 + n))) (c.u8 1) = true →
    slotsFit ((List.range 4).map (fun n => c.u8 (24 + n))) (c.u8 2) = true →
    c.rsv 5 1 = true →
    c.rsv 31 1 = true →
    c.u8 0 = 1 ∨ c.u8 0 = 3 →
    c.rsv 28 8 = true →
    setHeld s 5 = false →
    exec (.measSequenceConfig c) s = .next (answer 0x0902 c .ok (le 2 (k.rlen * 200) ++ le 2 (275 + 200 * k.ilen)) (stage 5 c.params (s.onMeas (fun m => { m with seqNew := tset m.seqNew (c.u8 0) k }))))) ∧
  (∀ (c : Cmd) (s : State) (k : MChanCfg),
    k = { mChanShadow s (c.u8 0) with l1 := c.u8 1, l2 := c.u8 2, l3 := c.u8 3, c := c.u8 4, reload := c.u8 5 == 1, step := c.s32 8 } →
    Admits c s [.config, .standby, .deblocked, .safeStop, .blockedFault, .factoryTest] [.active, .standby] →
    Inline c 12 →
    mprOk s = true →
    c.u8 0 < 64 →
    1 ≤ c.u8 1 →
    c.u8 1 ≤ 64 →
    1 ≤ c.u8 2 →
    c.u8 2 ≤ 64 →
    1 ≤ c.u8 3 →
    c.u8 3 ≤ 64 →
    c.u8 4 = 1 ∨ c.u8 4 = 2 ∨ c.u8 4 = 4 →
    c.u8 5 < 2 →
    c.rsv 6 2 = true →
    0 ≤ c.s32 8 →
    setHeld s 5 = false →
    exec (.measFilterConfig c) s = .next (answer 0x0903 c .ok (le 2 (c.u8 1 + c.u8 2 + c.u8 3 - 3) ++ le 2 (c.u8 1 + c.u8 2 + c.u8 3 - 3 + 1)) (stage 5 c.params (s.onMeas (fun m => { m with chanNew := tset m.chanNew (c.u8 0) k }))))) ∧
  (∀ (c : Cmd) (s : State),
    Admits c s [.config, .standby, .deblocked, .safeStop, .blockedFault, .factoryTest] [.active, .standby] →
    Inline c 12 →
    mprOk s = true →
    c.u8 0 < 64 →
    1 ≤ c.u8 1 →
    c.u8 1 ≤ 64 →
    1 ≤ c.u8 2 →
    c.u8 2 ≤ 64 →
    1 ≤ c.u8 3 →
    c.u8 3 ≤ 64 →
    c.u8 4 = 1 ∨ c.u8 4 = 2 ∨ c.u8 4 = 4 →
    c.u8 5 < 2 →
    c.rsv 6 2 = true →
    0 ≤ c.s32 8 →
    setHeld s 5 = true →
    exec (.measFilterConfig c) s = .next (answer 0x0903 c .busy [] s)) ∧
  (∀ (c : Cmd) (s : State),
    Admits c s [.config, .standby, .blockedFault, .factoryTest] [.active, .standby] →
    Inline c 12 →
    mprOk s = true →
    c.u8 0 < 3 →
    (c.u8 0 = 1 ∧ 2000000 ≤ c.u32 4 ∧ c.u32 4 ≤ 3000000) ∨ (c.u8 0 ≠ 1 ∧ c.u32 4 = 0) →
    c.rsv 1 3 = true →
    c.u16 8 ≤ 3600 →
    c.u16 10 ≤ 60000 →
    held s .reference = false →
    (List.range 5).any (fun n => held s (.measUnit n)) = false →
    c.u8 0 ≠ s.meas.refsel →
    s.meas.settled = true →
    pendCount s c.mb < 8 →
    exec (.measRefSelect c) s = .next (answer 0x0904 c .pending [] (tookPending (fun p => p.opcode == 0x0904 && p.mb == c.mb.val && p.seq == c.seq.toNat) (pendAs 0x0904 c (.reference :: (List.range 5).map .measUnit) [.config, .standby, .blockedFault, .factoryTest] 0 none ((refFall (s.onMeas (fun m => { m with calPer := c.u16 8, diagPer := c.u16 10 }))).onMeas (fun m => { m with refsel := c.u8 0, vext := c.u32 4, settled := false, inCnt := 0, outCnt := 0 })))))) ∧
  (∀ (c : Cmd) (s : State),
    Admits c s [.config, .standby, .blockedFault, .factoryTest] [.active, .standby] →
    Inline c 12 →
    mprOk s = true →
    c.u8 0 < 3 →
    (c.u8 0 = 1 ∧ 2000000 ≤ c.u32 4 ∧ c.u32 4 ≤ 3000000) ∨ (c.u8 0 ≠ 1 ∧ c.u32 4 = 0) →
    c.rsv 1 3 = true →
    c.u16 8 ≤ 3600 →
    c.u16 10 ≤ 60000 →
    held s .reference = false →
    (List.range 5).any (fun n => held s (.measUnit n)) = false →
    c.u8 0 ≠ s.meas.refsel →
    s.meas.settled = false →
    pendCount s c.mb < 8 →
    exec (.measRefSelect c) s = .next (answer 0x0904 c .pending [] (tookPending (fun p => p.opcode == 0x0904 && p.mb == c.mb.val && p.seq == c.seq.toNat) (pendAs 0x0904 c (.reference :: (List.range 5).map .measUnit) [.config, .standby, .blockedFault, .factoryTest] 0 none ((s.onMeas (fun m => { m with calPer := c.u16 8, diagPer := c.u16 10 })).onMeas (fun m => { m with refsel := c.u8 0, vext := c.u32 4, settled := false, inCnt := 0, outCnt := 0 })))))) ∧
  (∀ (c : Cmd) (s : State),
    Admits c s [.config, .standby, .blockedFault, .factoryTest] [.active, .standby] →
    Inline c 12 →
    mprOk s = true →
    c.u8 0 < 3 →
    (c.u8 0 = 1 ∧ 2000000 ≤ c.u32 4 ∧ c.u32 4 ≤ 3000000) ∨ (c.u8 0 ≠ 1 ∧ c.u32 4 = 0) →
    c.rsv 1 3 = true →
    c.u16 8 ≤ 3600 →
    c.u16 10 ≤ 60000 →
    held s .reference = false →
    (List.range 5).any (fun n => held s (.measUnit n)) = false →
    c.u8 0 = s.meas.refsel →
    exec (.measRefSelect c) s = .next (answer 0x0904 c .ok (le 1 (refByte s) ++ le 1 0) (s.onMeas (fun m => { m with calPer := c.u16 8, diagPer := c.u16 10 })))) ∧
  (∀ (c : Cmd) (s : State),
    Admits c s [.config, .standby, .blockedFault, .factoryTest] [.active, .standby] →
    Inline c 12 →
    mprOk s = true →
    c.u8 0 < 3 →
    (c.u8 0 = 1 ∧ 2000000 ≤ c.u32 4 ∧ c.u32 4 ≤ 3000000) ∨ (c.u8 0 ≠ 1 ∧ c.u32 4 = 0) →
    c.rsv 1 3 = true →
    c.u16 8 ≤ 3600 →
    c.u16 10 ≤ 60000 →
    held s .reference = true →
    exec (.measRefSelect c) s = .next (answer 0x0904 c .busy [] s)) ∧
  (∀ (c : Cmd) (s : State),
    Admits c s [.config, .standby, .deblocked, .safeStop, .blockedFault, .replay, .factoryTest] [.active, .standby] →
    Inline c 4 →
    mprOk s = true →
    ((List.range 5).filter (bit (c.u8 0))).all (fun n => if n = 4 then (s.meas.spareFor.isNone && !s.meas.spareBad) else unitIn s n) = true →
    0 < c.u8 0 →
    c.u8 0 < 32 →
    c.u8 1 < 2 →
    c.rsv 2 2 = true →
    ((List.range 5).filter (bit (c.u8 0))).all (fun n => !held s (.measUnit n)) = true →
    pendCount s c.mb < 8 →
    s.meas.settled = true →
    exec (.measCalibrate c) s = .next (awaitFirst 0x0905 c (pendAs 0x0905 c (((List.range 5).filter (bit (c.u8 0))).map .measUnit) [.config, .standby, .deblocked, .safeStop, .blockedFault, .replay, .factoryTest] (c.u8 0) none (((List.range 5).filter (bit (c.u8 0))).foldl (fun t n => calAsk n (c.u8 1 == 1) t) (s.onMeas (fun x => { x with jobs := x.jobs ++ [⟨c.u8 0, c.u8 1 == 1, ((List.range 5).filter (bit (c.u8 0))), 0, 0, []⟩] })))))) ∧
  (∀ (c : Cmd) (s : State),
    Admits c s [.config, .standby, .deblocked, .safeStop, .blockedFault, .replay, .factoryTest] [.active, .standby] →
    Inline c 4 →
    mprOk s = true →
    ((List.range 5).filter (bit (c.u8 0))).all (fun n => if n = 4 then (s.meas.spareFor.isNone && !s.meas.spareBad) else unitIn s n) = true →
    0 < c.u8 0 →
    c.u8 0 < 32 →
    c.u8 1 < 2 →
    c.rsv 2 2 = true →
    ((List.range 5).filter (bit (c.u8 0))).all (fun n => !held s (.measUnit n)) = true →
    pendCount s c.mb < 8 →
    s.meas.settled = false →
    exec (.measCalibrate c) s = .next (answer 0x0905 c .conflict [] s)) ∧
  (∀ (c : Cmd) (s : State),
    Admits c s [.config, .standby, .deblocked, .safeStop, .blockedFault, .replay, .factoryTest] [.active, .standby] →
    Inline c 4 →
    mprOk s = true →
    ((List.range 5).filter (bit (c.u8 0))).all (fun n => if n = 4 then (s.meas.spareFor.isNone && !s.meas.spareBad) else unitIn s n) = true →
    0 < c.u8 0 →
    c.u8 0 < 32 →
    c.u8 1 < 2 →
    c.rsv 2 2 = true →
    ((List.range 5).filter (bit (c.u8 0))).all (fun n => !held s (.measUnit n)) = false →
    exec (.measCalibrate c) s = .next (answer 0x0905 c .busy [] s)) ∧
  (∀ (c : Cmd) (s : State),
    Admits c s [.config, .standby, .deblocked, .safeStop, .blockedFault, .replay, .factoryTest] [.active, .standby] →
    Inline c 4 →
    mprOk s = true →
    c.rsv 2 2 = true →
    c.u8 0 = 0 →
    c.u8 1 < 5 →
    (if c.u8 1 = 4 then (s.meas.spareFor.isNone && !s.meas.spareBad) else unitIn s (c.u8 1)) = true →
    held s .dac = false →
    pendCount s c.mb < 8 →
    s.meas.tests ≠ [] →
    exec (.measDiagRun c) s = .next (answer 0x0906 c .pending [] (pendAs 0x0906 c [.dac] [.config, .standby, .deblocked, .safeStop, .blockedFault, .replay, .factoryTest] (c.u8 1) none (testAdd ⟨false, c.u8 1, none⟩ s)))) ∧
  (∀ (c : Cmd) (s : State),
    Admits c s [.config, .standby, .deblocked, .safeStop, .blockedFault, .replay, .factoryTest] [.active, .standby] →
    Inline c 4 →
    mprOk s = true →
    c.rsv 2 2 = true →
    c.u8 0 = 0 →
    c.u8 1 < 5 →
    (if c.u8 1 = 4 then (s.meas.spareFor.isNone && !s.meas.spareBad) else unitIn s (c.u8 1)) = true →
    held s .dac = false →
    s.meas.tests = [] →
    exec (.measDiagRun c) s = .next (awaitFirst 0x0906 c (pendAs 0x0906 c [.dac] [.config, .standby, .deblocked, .safeStop, .blockedFault, .replay, .factoryTest] (c.u8 1) none (testAdd ⟨false, c.u8 1, none⟩ s)))) ∧
  (∀ (c : Cmd) (s : State),
    Admits c s [.config, .standby, .deblocked, .safeStop, .blockedFault, .replay, .factoryTest] [.active, .standby] →
    Inline c 4 →
    mprOk s = true →
    c.rsv 2 2 = true →
    c.u8 0 = 1 →
    c.u8 1 < 64 →
    (mChan s (c.u8 1)).on = true →
    unitIn s (mChan s (c.u8 1)).unit = true →
    held s .dac = false →
    s.meas.tests = [] →
    (mChan s (c.u8 1)).pos < 12 →
    ((mSeq s (mChan s (c.u8 1)).unit).rslots.take (mSeq s (mChan s (c.u8 1)).unit).rlen).contains (c.u8 1) = true →
    exec (.measDiagRun c) s = .next (awaitFirst 0x0906 c (pendAs 0x0906 c [.dac] [.config, .standby, .deblocked, .safeStop, .blockedFault, .replay, .factoryTest] (1 * 256 + c.u8 1) none (testAdd ⟨true, c.u8 1, none⟩ s)))) ∧
  (∀ (c : Cmd) (s : State),
    Admits c s [.config, .standby, .deblocked, .safeStop, .blockedFault, .replay, .factoryTest] [.active, .standby] →
    Inline c 4 →
    mprOk s = true →
    c.rsv 2 2 = true →
    c.u8 0 = 1 →
    c.u8 1 < 64 →
    (mChan s (c.u8 1)).on = true →
    unitIn s (mChan s (c.u8 1)).unit = true →
    held s .dac = false →
    pendCount s c.mb < 8 →
    s.meas.tests ≠ [] →
    (mChan s (c.u8 1)).pos < 12 →
    ((mSeq s (mChan s (c.u8 1)).unit).rslots.take (mSeq s (mChan s (c.u8 1)).unit).rlen).contains (c.u8 1) = true →
    exec (.measDiagRun c) s = .next (answer 0x0906 c .pending [] (pendAs 0x0906 c [.dac] [.config, .standby, .deblocked, .safeStop, .blockedFault, .replay, .factoryTest] (1 * 256 + c.u8 1) none (testAdd ⟨true, c.u8 1, none⟩ s)))) ∧
  (∀ (c : Cmd) (s : State),
    Admits c s [.config, .standby, .deblocked, .safeStop, .blockedFault, .replay, .factoryTest] [.active, .standby] →
    Inline c 4 →
    mprOk s = true →
    c.rsv 2 2 = true →
    c.u8 0 = 1 →
    c.u8 1 < 64 →
    (mChan s (c.u8 1)).on = false ∨ (unitIn s (mChan s (c.u8 1)).unit = true ∧ (12 ≤ (mChan s (c.u8 1)).pos ∨ ((mSeq s (mChan s (c.u8 1)).unit).rslots.take (mSeq s (mChan s (c.u8 1)).unit).rlen).contains (c.u8 1) = false)) →
    held s .dac = false →
    s.meas.tests = [] →
    exec (.measDiagRun c) s = .next (answer 0x0906 c .conflict [] s)) ∧
  (∀ (c : Cmd) (s : State),
    Admits c s [.config, .standby, .deblocked, .safeStop, .blockedFault, .replay, .factoryTest] [.active, .standby] →
    Inline c 4 →
    mprOk s = true →
    c.rsv 2 2 = true →
    c.u8 0 = 0 →
    c.u8 1 < 5 →
    (if c.u8 1 = 4 then (s.meas.spareFor.isNone && !s.meas.spareBad) else unitIn s (c.u8 1)) = true →
    held s .dac = true →
    exec (.measDiagRun c) s = .next (answer 0x0906 c .busy [] s)) ∧
  (∀ (c : Cmd) (s : State),
    Serving s →
    Inline c 12 →
    c.mb ≠ 0 →
    mprOk s = true →
    c.u8 0 < 2 →
    c.rsv 1 3 = true →
    c.u8 0 = 0 →
    c.u64 4 % 64 = 0 →
    exec (.measStatus c) s = .next (answer 0x0907 c .ok (le 1 (refByte s) ++ le 1 (maskOf ((List.range 4).filter (unitIn s)) + 16 * b2n (spareIdle s) + 32 * b2n s.meas.spareFor.isSome + 64 * b2n s.meas.spareBad) ++ le 1 (s.meas.spareFor.getD 0xFF) ++ le 1 (b2n (crossPair s 0).isSome + 2 * b2n (crossPair s 1).isSome + 4 * b2n (mPair s 0).mis + 8 * b2n (mPair s 1).mis + 16 * b2n (mPair s 0).unres + 32 * b2n (mPair s 1).unres) ++ le 1 (maskOf ((List.range 4).filter (fun n => (unitGet s n).overrun))) ++ le 1 (maskOf ((List.range 4).filter (fun n => (unitGet s n).lateS))) ++ le 2 0 ++ le 8 (maskOf ((List.range 64).filter (fun n => ((tget {} s.meas.set n : MSetChan).flags).getLsbD 0))) ++ le 4 s.meas.cals ++ le 4 s.meas.fails ++ le 4 s.meas.setTick) (if c.u64 4 = 0 then s else putBuf (c.u64 4) (withCrc ((List.range 64).flatMap (chanEntry s))) s))) ∧
  (∀ (c : Cmd) (s : State),
    Serving s →
    Inline c 12 →
    c.mb ≠ 0 →
    mprOk s = true →
    c.u8 0 < 2 →
    c.rsv 1 3 = true →
    c.u8 0 = 1 →
    c.u64 4 % 64 = 0 →
    exec (.measStatus c) s = .next (answer 0x0907 c .ok (le 1 (refByte s) ++ le 1 (maskOf ((List.range 4).filter (unitIn s)) + 16 * b2n (spareIdle s) + 32 * b2n s.meas.spareFor.isSome + 64 * b2n s.meas.spareBad) ++ le 1 (s.meas.spareFor.getD 0xFF) ++ le 1 (b2n (crossPair s 0).isSome + 2 * b2n (crossPair s 1).isSome + 4 * b2n (mPair s 0).mis + 8 * b2n (mPair s 1).mis + 16 * b2n (mPair s 0).unres + 32 * b2n (mPair s 1).unres) ++ le 1 (maskOf ((List.range 4).filter (fun n => (unitGet s n).overrun))) ++ le 1 (maskOf ((List.range 4).filter (fun n => (unitGet s n).lateS))) ++ le 2 0 ++ le 8 (maskOf ((List.range 64).filter (fun n => ((tget {} s.meas.set n : MSetChan).flags).getLsbD 0))) ++ le 4 s.meas.cals ++ le 4 s.meas.fails ++ le 4 s.meas.setTick) ((List.range 4).foldl (fun t n => unitUpd n (fun y => { y with overrun := false, lateS := false }) t) (if c.u64 4 = 0 then s else putBuf (c.u64 4) (withCrc ((List.range 64).flatMap (chanEntry s))) s)))) ∧
  (∀ (c : Cmd) (s : State),
    Serving s →
    c.mb ≠ 0 →
    Inline c 16 →
    mprOk s = false →
    exec (.measChannelConfig c) s = .next (answer 0x0901 c .notFitted [] s)) ∧
  (∀ (c : Cmd) (s : State),
    Serving s →
    c.mb ≠ 0 →
    Inline c 36 →
    mprOk s = false →
    exec (.measSequenceConfig c) s = .next (answer 0x0902 c .notFitted [] s)) ∧
  (∀ (c : Cmd) (s : State),
    Serving s →
    c.mb ≠ 0 →
    Inline c 12 →
    mprOk s = false →
    exec (.measFilterConfig c) s = .next (answer 0x0903 c .notFitted [] s)) ∧
  (∀ (c : Cmd) (s : State),
    Serving s →
    c.mb ≠ 0 →
    Inline c 12 →
    mprOk s = false →
    exec (.measRefSelect c) s = .next (answer 0x0904 c .notFitted [] s)) ∧
  (∀ (c : Cmd) (s : State),
    Serving s →
    c.mb ≠ 0 →
    Inline c 4 →
    mprOk s = false →
    exec (.measCalibrate c) s = .next (answer 0x0905 c .notFitted [] s)) ∧
  (∀ (c : Cmd) (s : State),
    Serving s →
    c.mb ≠ 0 →
    Inline c 4 →
    mprOk s = false →
    exec (.measDiagRun c) s = .next (answer 0x0906 c .notFitted [] s)) ∧
  (∀ (c : Cmd) (s : State),
    Serving s →
    c.mb ≠ 0 →
    Inline c 12 →
    mprOk s = false →
    exec (.measStatus c) s = .next (answer 0x0907 c .notFitted [] s))

/-- A conversion of a unit in service enters its channel, behind the triggers that crossed, and the next is chosen. A trigger that reaches a
free unit is pending, of a busy or calibrating one it is held or an overrun; one that finds the crossing open waits there. The set is
latched after the two cross-checks, and the active unit sends it to its partner. The monitor settles after 1,000 checks, starting the
calibrations, and falls after 10. A calibration nobody asked for changes nothing; one that ends leaves a covered unit to take its sequences
back, and gives its event, its corrections to the commands that asked, and a failure loses the unit. Automatic turns move on and are off
with period 0. A level or path test ends with its result for the command, or for the cross-check that asked. A unit that fails is lost. A
reference unsettled in time ends with TIMEOUT. Where an event has nothing to act on, the state stays. -/
def Obligations.MeasurementEventsRunTheUnits : Prop :=
  (∀ (n : Nat) (x : Int) (a : Nat) (s : State),
    mprOk s = true →
    unitIn s n = true →
    (unitGet s n).cal ≠ some false →
    (cdcGet s 3 5 n).stalled = false →
    exec (.adcConversionComplete n x a) s = .next (nextConv n (convResult n x a (triggersCross n s)))) ∧
  (∀ (n : Nat) (x : Int) (a : Nat) (s : State),
    mprOk s = true →
    unitIn s n = true →
    (unitGet s n).cal ≠ some false →
    (cdcGet s 3 5 n).stalled = true →
    exec (.adcConversionComplete n x a) s = .next (nextConv n (convResult n x a s))) ∧
  (∀ (n : Nat) (x : Int) (a : Nat) (s : State),
    mprOk s = false ∨ unitIn s n = false ∨ (unitGet s n).cal = some false →
    exec (.adcConversionComplete n x a) s = .next s) ∧
  (∀ (trig : InjTrigger) (s : State),
    mprOk s = false ∨ unitIn s trig.unit = false ∨ (mSeq s trig.unit).itrig = 0 →
    exec (.injectedTrigger trig) s = .next s) ∧
  (∀ (trig : InjTrigger) (s : State),
    mprOk s = true →
    unitIn s trig.unit = true →
    (mSeq s trig.unit).itrig ≠ 0 →
    trig.busy = true →
    (cdcGet s 3 5 trig.unit).isOpen = true →
    exec (.injectedTrigger trig) s = .next (cdcUpd 3 5 trig.unit (fun x => (x.occur 1 []).capture) s)) ∧
  (∀ (trig : InjTrigger) (s : State),
    mprOk s = true →
    unitIn s trig.unit = true →
    (mSeq s trig.unit).itrig ≠ 0 →
    trig.busy = true →
    (cdcGet s 3 5 trig.unit).isOpen = false →
    (unitGet s trig.unit).cal ≠ some false →
    (unitGet s trig.unit).calReq ≠ some false →
    (unitGet s trig.unit).pending = false →
    exec (.injectedTrigger trig) s = .next (unitUpd trig.unit (fun y => { y with pending := true }) (cdcUpd 3 5 trig.unit (fun x => (x.occur 1 []).capture) s))) ∧
  (∀ (trig : InjTrigger) (s : State),
    mprOk s = true →
    unitIn s trig.unit = true →
    (mSeq s trig.unit).itrig ≠ 0 →
    trig.busy = true →
    (cdcGet s 3 5 trig.unit).isOpen = false →
    (unitGet s trig.unit).cal ≠ some false →
    (unitGet s trig.unit).calReq ≠ some false →
    (unitGet s trig.unit).pending = true →
    exec (.injectedTrigger trig) s = .next (noteOverrun trig.unit (cdcUpd 3 5 trig.unit (fun x => (x.occur 1 []).capture) s))) ∧
  (∀ (trig : InjTrigger) (s : State),
    mprOk s = true →
    unitIn s trig.unit = true →
    (mSeq s trig.unit).itrig ≠ 0 →
    trig.busy = true →
    (cdcGet s 3 5 trig.unit).isOpen = false →
    (unitGet s trig.unit).cal = some false ∨ (unitGet s trig.unit).calReq = some false →
    (unitGet s trig.unit).heldT = false →
    exec (.injectedTrigger trig) s = .next (unitUpd trig.unit (fun y => { y with heldT := true }) (cdcUpd 3 5 trig.unit (fun x => (x.occur 1 []).capture) s))) ∧
  (∀ (trig : InjTrigger) (s : State),
    mprOk s = true →
    unitIn s trig.unit = true →
    (mSeq s trig.unit).itrig ≠ 0 →
    trig.busy = true →
    (cdcGet s 3 5 trig.unit).isOpen = false →
    (unitGet s trig.unit).cal = some false ∨ (unitGet s trig.unit).calReq = some false →
    (unitGet s trig.unit).heldT = true →
    exec (.injectedTrigger trig) s = .next (noteOverrun trig.unit (cdcUpd 3 5 trig.unit (fun x => (x.occur 1 []).capture) s))) ∧
  (∀ (trig : InjTrigger) (s v : State),
    mprOk s = true →
    unitIn s trig.unit = true →
    (mSeq s trig.unit).itrig ≠ 0 →
    trig.busy = false →
    v = triggersCross trig.unit s →
    (cdcGet v 3 5 trig.unit).isOpen = false →
    exec (.injectedTrigger trig) s = .next (trigger trig.unit (cdcUpd 3 5 trig.unit (fun x => (x.occur 1 []).capture) v))) ∧
  (∀ (a : Nat) (s v : State),
    mprOk s = true →
    v = crossCheck 1 (crossCheck 0 s) →
    workRole s = .active →
    exec (.measurementSetLatch a) s = .next (xlSend (.mset (v.tick.index + 1) ((((List.range 64).filter (fun n => thas v.meas.chan n || thas v.meas.set n)).map (fun n => (n, latchChan a v n))).map (fun e => { ch := e.1, fine := e.2.fine, coarse := e.2.coarse, flags := e.2.flags, age := e.2.age }))) (v.onMeas (fun m => { m with set := (((List.range 64).filter (fun n => thas v.meas.chan n || thas v.meas.set n)).map (fun n => (n, latchChan a v n))), setTick := v.tick.index + 1, chans := m.chans.map (fun e => (e.1, { e.2 with fresh := false, stepSet := false })) })))) ∧
  (∀ (a : Nat) (s v : State),
    mprOk s = true →
    v = crossCheck 1 (crossCheck 0 s) →
    workRole s ≠ .active →
    exec (.measurementSetLatch a) s = .next (v.onMeas (fun m => { m with set := (((List.range 64).filter (fun n => thas v.meas.chan n || thas v.meas.set n)).map (fun n => (n, latchChan a v n))), setTick := v.tick.index + 1, chans := m.chans.map (fun e => (e.1, { e.2 with fresh := false, stepSet := false })) }))) ∧
  (∀ (a : Nat) (s : State),
    mprOk s = false →
    exec (.measurementSetLatch a) s = .next s) ∧
  (∀ (a b : Bool) (s : State),
    mprOk s = false →
    exec (.refMonitorCheck a b) s = .next s) ∧
  (∀ (a b : Bool) (s : State),
    mprOk s = true →
    s.meas.settled = false →
    a = false ∨ s.meas.inCnt + 1 < 1000 →
    exec (.refMonitorCheck a b) s = .next (s.onMeas (fun m => { m with inCnt := if a then s.meas.inCnt + 1 else 0, outCnt := if b then 0 else s.meas.outCnt + 1 }))) ∧
  (∀ (b : Bool) (s v : State),
    mprOk s = true →
    s.meas.settled = false →
    1000 ≤ s.meas.inCnt + 1 →
    v = s.onMeas (fun m => { m with inCnt := s.meas.inCnt + 1, outCnt := if b then 0 else s.meas.outCnt + 1 }) →
    calUnits v ≠ [] →
    exec (.refMonitorCheck true b) s = .next ((calUnits v).foldl (fun t n => calStart n false t) (measEvent 0x01 .notice 0 [v.meas.refsel, 1] (v.onMeas (fun m => { m with settled := true, settleQ := calUnits v, settleM := 0 }))))) ∧
  (∀ (b : Bool) (s v : State),
    mprOk s = true →
    s.meas.settled = false →
    1000 ≤ s.meas.inCnt + 1 →
    v = s.onMeas (fun m => { m with inCnt := s.meas.inCnt + 1, outCnt := if b then 0 else s.meas.outCnt + 1 }) →
    calUnits v = [] →
    exec (.refMonitorCheck true b) s = .next (settleEnd (measEvent 0x01 .notice 0 [v.meas.refsel, 1] (v.onMeas (fun m => { m with settled := true, settleQ := [], settleM := 0 }))))) ∧
  (∀ (a : Bool) (s : State),
    mprOk s = true →
    s.meas.settled = true →
    9 ≤ s.meas.outCnt →
    exec (.refMonitorCheck a false) s = .next (refFall (s.onMeas (fun m => { m with inCnt := if a then s.meas.inCnt + 1 else 0, outCnt := s.meas.outCnt + 1 })))) ∧
  (∀ (a b : Bool) (s : State),
    mprOk s = true →
    s.meas.settled = true →
    b = true ∨ s.meas.outCnt < 9 →
    exec (.refMonitorCheck a b) s = .next (s.onMeas (fun m => { m with inCnt := if a then s.meas.inCnt + 1 else 0, outCnt := if b then 0 else s.meas.outCnt + 1 }))) ∧
  (∀ (u : Nat) (o g : Int) (s : State),
    testing s 4 3 u = true →
    exec (.calibrationComplete u o g) s = .next (readmitCal u o g s)) ∧
  (∀ (u : Nat) (o g : Int) (s : State),
    testing s 4 3 u = false →
    mprOk s = false ∨ (u = 4 ∧ s.meas.spareRun = false) ∨ (u ≠ 4 ∧ (unitGet s u).cal = none ∧ (unitGet s u).calReq = none) ∨ (u ≠ 4 ∧ (unitGet s u).cal = some true ∧ (unitGet s u).calReq = some true) →
    exec (.calibrationComplete u o g) s = .next s) ∧
  (∀ (o g : Int) (s : State),
    mprOk s = true →
    testing s 4 3 4 = false →
    s.meas.spareRun = true →
    (unitGet s 4).cal ≠ some true →
    o.natAbs ≤ 1024 →
    g.natAbs ≤ 10000 →
    exec (.calibrationComplete 4 o g) s = .next (testStart ((calNext (settleLeave 4 (jobsEnd (((measEvent 0x03 .notice 4 [1, word32 o, word32 g, 0] (s.onMeas (fun m => { m with cals := inc32 m.cals }))).onMeas (fun m => { m with spareRun := false, spareCal := true })).onMeas (fun m => { m with jobs := m.jobs.map (fun j => if !(j.left.contains 4 && !s.meas.settleQ.contains 4) then j else { j with left := j.left.filter (· != 4), pass := j.pass ||| (1 <<< 4), covered := j.covered, res := tset j.res 4 (o, g) }), settleM := if m.settleQ.contains 4 then m.settleM ||| (1 <<< 4) else m.settleM })))))))) ∧
  (∀ (o g : Int) (s : State),
    mprOk s = true →
    testing s 4 3 4 = false →
    s.meas.spareRun = true →
    (unitGet s 4).cal ≠ some true →
    1024 < o.natAbs ∨ 10000 < g.natAbs →
    exec (.calibrationComplete 4 o g) s = .next (testStart (unitLost 4 1 0 (calNext (settleLeave 4 (jobsEnd (((measEvent 0x03 .notice 4 [0, word32 o, word32 g, 0] (s.onMeas (fun m => { m with cals := inc32 m.cals, fails := inc32 m.fails }))).onMeas (fun m => { m with spareRun := false, spareCal := false })).onMeas (fun m => { m with jobs := m.jobs.map (fun j => if !(j.left.contains 4 && !s.meas.settleQ.contains 4) then j else { j with left := j.left.filter (· != 4), pass := j.pass, covered := j.covered, res := tset j.res 4 (o, g) }), settleM := if m.settleQ.contains 4 then m.settleM ||| (1 <<< 4) else m.settleM })))))))) ∧
  (∀ (u : Nat) (o g : Int) (s : State),
    mprOk s = true →
    u ≠ 4 →
    testing s 4 3 u = false →
    (unitGet s u).cal = some true →
    (unitGet s u).calReq ≠ some true →
    o.natAbs ≤ 1024 →
    g.natAbs ≤ 10000 →
    exec (.calibrationComplete u o g) s = .next (testStart ((calNext (settleLeave u (jobsEnd (((unitUpd u (fun z => { z with calReq := some true }) (measEvent 0x03 .notice (physOf s u) [1, word32 o, word32 g, 1] (s.onMeas (fun m => { m with cals := inc32 m.cals })))).onMeas (fun m => { m with covers := m.covers })).onMeas (fun m => { m with jobs := m.jobs.map (fun j => if !(j.left.contains u && !s.meas.settleQ.contains u) then j else { j with left := j.left.filter (· != u), pass := j.pass ||| (1 <<< u), covered := j.covered ||| (1 <<< u), res := tset j.res u (o, g) }), settleM := if m.settleQ.contains u then m.settleM ||| (1 <<< u) else m.settleM })))))))) ∧
  (∀ (u : Nat) (o g : Int) (s : State),
    mprOk s = true →
    u ≠ 4 →
    testing s 4 3 u = false →
    (unitGet s u).cal = some true →
    (unitGet s u).calReq ≠ some true →
    1024 < o.natAbs ∨ 10000 < g.natAbs →
    exec (.calibrationComplete u o g) s = .next (testStart (unitLost u 1 0 (calNext (settleLeave u (jobsEnd (((unitUpd u (fun z => { z with calReq := some true }) (measEvent 0x03 .notice (physOf s u) [0, word32 o, word32 g, 1] (s.onMeas (fun m => { m with cals := inc32 m.cals, fails := inc32 m.fails })))).onMeas (fun m => { m with covers := m.covers })).onMeas (fun m => { m with jobs := m.jobs.map (fun j => if !(j.left.contains u && !s.meas.settleQ.contains u) then j else { j with left := j.left.filter (· != u), pass := j.pass, covered := j.covered ||| (1 <<< u), res := tset j.res u (o, g) }), settleM := if m.settleQ.contains u then m.settleM ||| (1 <<< u) else m.settleM })))))))) ∧
  (∀ (u : Nat) (o g : Int) (s : State),
    mprOk s = true →
    u ≠ 4 →
    testing s 4 3 u = false →
    (unitGet s u).cal = none →
    (unitGet s u).calReq = some true →
    o.natAbs ≤ 1024 →
    g.natAbs ≤ 10000 →
    exec (.calibrationComplete u o g) s = .next (testStart ((calNext (settleLeave u (jobsEnd (((unitUpd u (fun z => { z with cal := none, calReq := none }) (measEvent 0x03 .notice (physOf s u) [1, word32 o, word32 g, 1] (s.onMeas (fun m => { m with cals := inc32 m.cals })))).onMeas (fun m => { m with covers := none })).onMeas (fun m => { m with jobs := m.jobs.map (fun j => if !(j.left.contains u && !s.meas.settleQ.contains u) then j else { j with left := j.left.filter (· != u), pass := j.pass ||| (1 <<< u), covered := j.covered ||| (1 <<< u), res := tset j.res u (o, g) }), settleM := if m.settleQ.contains u then m.settleM ||| (1 <<< u) else m.settleM })))))))) ∧
  (∀ (u : Nat) (o g : Int) (s : State),
    mprOk s = true →
    u ≠ 4 →
    testing s 4 3 u = false →
    (unitGet s u).cal = none →
    (unitGet s u).calReq = some true →
    1024 < o.natAbs ∨ 10000 < g.natAbs →
    exec (.calibrationComplete u o g) s = .next (testStart (unitLost u 1 0 (calNext (settleLeave u (jobsEnd (((unitUpd u (fun z => { z with cal := none, calReq := none }) (measEvent 0x03 .notice (physOf s u) [0, word32 o, word32 g, 1] (s.onMeas (fun m => { m with cals := inc32 m.cals, fails := inc32 m.fails })))).onMeas (fun m => { m with covers := none })).onMeas (fun m => { m with jobs := m.jobs.map (fun j => if !(j.left.contains u && !s.meas.settleQ.contains u) then j else { j with left := j.left.filter (· != u), pass := j.pass, covered := j.covered ||| (1 <<< u), res := tset j.res u (o, g) }), settleM := if m.settleQ.contains u then m.settleM ||| (1 <<< u) else m.settleM })))))))) ∧
  (∀ (u : Nat) (o g : Int) (s : State),
    mprOk s = true →
    u ≠ 4 →
    testing s 4 3 u = false →
    (unitGet s u).cal = some false →
    o.natAbs ≤ 1024 →
    g.natAbs ≤ 10000 →
    exec (.calibrationComplete u o g) s = .next (testStart ((calNext (settleLeave u (jobsEnd ((convResume u ((unitUpd u (fun z => { z with cal := none, calReq := none }) (measEvent 0x03 .notice (physOf s u) [1, word32 o, word32 g, 0] (s.onMeas (fun m => { m with cals := inc32 m.cals })))).onMeas (fun m => { m with covers := m.covers }))).onMeas (fun m => { m with jobs := m.jobs.map (fun j => if !(j.left.contains u && !s.meas.settleQ.contains u) then j else { j with left := j.left.filter (· != u), pass := j.pass ||| (1 <<< u), covered := j.covered, res := tset j.res u (o, g) }), settleM := if m.settleQ.contains u then m.settleM ||| (1 <<< u) else m.settleM })))))))) ∧
  (∀ (u : Nat) (o g : Int) (s : State),
    mprOk s = true →
    u ≠ 4 →
    testing s 4 3 u = false →
    (unitGet s u).cal = some false →
    1024 < o.natAbs ∨ 10000 < g.natAbs →
    exec (.calibrationComplete u o g) s = .next (testStart (unitLost u 1 0 (calNext (settleLeave u (jobsEnd (((unitUpd u (fun z => { z with cal := none, calReq := none }) (measEvent 0x03 .notice (physOf s u) [0, word32 o, word32 g, 0] (s.onMeas (fun m => { m with cals := inc32 m.cals, fails := inc32 m.fails })))).onMeas (fun m => { m with covers := m.covers })).onMeas (fun m => { m with jobs := m.jobs.map (fun j => if !(j.left.contains u && !s.meas.settleQ.contains u) then j else { j with left := j.left.filter (· != u), pass := j.pass, covered := j.covered, res := tset j.res u (o, g) }), settleM := if m.settleQ.contains u then m.settleM ||| (1 <<< u) else m.settleM })))))))) ∧
  (∀ (u : Nat) (o g : Int) (s : State),
    mprOk s = true →
    u ≠ 4 →
    testing s 4 3 u = false →
    (unitGet s u).cal = none →
    (unitGet s u).calReq = some false →
    o.natAbs ≤ 1024 →
    g.natAbs ≤ 10000 →
    exec (.calibrationComplete u o g) s = .next (testStart ((calNext (settleLeave u (jobsEnd (((unitUpd u (fun z => { z with cal := none, calReq := none }) (measEvent 0x03 .notice (physOf s u) [1, word32 o, word32 g, 0] (s.onMeas (fun m => { m with cals := inc32 m.cals })))).onMeas (fun m => { m with covers := m.covers })).onMeas (fun m => { m with jobs := m.jobs.map (fun j => if !(j.left.contains u && !s.meas.settleQ.contains u) then j else { j with left := j.left.filter (· != u), pass := j.pass ||| (1 <<< u), covered := j.covered, res := tset j.res u (o, g) }), settleM := if m.settleQ.contains u then m.settleM ||| (1 <<< u) else m.settleM })))))))) ∧
  (∀ (u : Nat) (o g : Int) (s : State),
    mprOk s = true →
    u ≠ 4 →
    testing s 4 3 u = false →
    (unitGet s u).cal = none →
    (unitGet s u).calReq = some false →
    1024 < o.natAbs ∨ 10000 < g.natAbs →
    exec (.calibrationComplete u o g) s = .next (testStart (unitLost u 1 0 (calNext (settleLeave u (jobsEnd (((unitUpd u (fun z => { z with cal := none, calReq := none }) (measEvent 0x03 .notice (physOf s u) [0, word32 o, word32 g, 0] (s.onMeas (fun m => { m with cals := inc32 m.cals, fails := inc32 m.fails })))).onMeas (fun m => { m with covers := m.covers })).onMeas (fun m => { m with jobs := m.jobs.map (fun j => if !(j.left.contains u && !s.meas.settleQ.contains u) then j else { j with left := j.left.filter (· != u), pass := j.pass, covered := j.covered, res := tset j.res u (o, g) }), settleM := if m.settleQ.contains u then m.settleM ||| (1 <<< u) else m.settleM })))))))) ∧
  (∀ (s : State),
    mprOk s = false ∨ s.meas.calPer = 0 →
    exec .autoCalibration s = .next s) ∧
  (∀ (s : State),
    mprOk s = true →
    s.meas.calPer ≠ 0 →
    s.meas.calTurn = 4 →
    (calUnits s).contains 4 = true →
    s.meas.covers = none →
    s.meas.spareRun = false →
    exec .autoCalibration s = .next (calStart 4 false (s.onMeas (fun m => { m with calTurn := (s.meas.calTurn + 1) % 5 })))) ∧
  (∀ (s : State),
    mprOk s = true →
    s.meas.calPer ≠ 0 →
    s.meas.calTurn = 4 →
    (calUnits s).contains 4 = false ∨ s.meas.covers ≠ none ∨ s.meas.spareRun = true →
    exec .autoCalibration s = .next (s.onMeas (fun m => { m with calTurn := (s.meas.calTurn + 1) % 5 }))) ∧
  (∀ (s : State),
    mprOk s = true →
    s.meas.calPer ≠ 0 →
    s.meas.calTurn ≠ 4 →
    unitIn s s.meas.calTurn = false ∨ s.meas.settled = false ∨ (unitGet s s.meas.calTurn).cal ≠ none ∨ (unitGet s s.meas.calTurn).calReq ≠ none →
    exec .autoCalibration s = .next (s.onMeas (fun m => { m with calTurn := (s.meas.calTurn + 1) % 5 }))) ∧
  (∀ (s : State),
    mprOk s = true →
    s.meas.calPer ≠ 0 →
    s.meas.calTurn ≠ 4 →
    unitIn s s.meas.calTurn = true →
    s.meas.settled = true →
    (unitGet s s.meas.calTurn).cal = none →
    (unitGet s s.meas.calTurn).calReq = none →
    s.meas.spareFor ≠ none →
    running s = true →
    exec .autoCalibration s = .next (measEvent 0x04 .notice s.meas.calTurn [] (s.onMeas (fun m => { m with calTurn := (s.meas.calTurn + 1) % 5 })))) ∧
  (∀ (s : State),
    mprOk s = true →
    s.meas.calPer ≠ 0 →
    s.meas.calTurn ≠ 4 →
    unitIn s s.meas.calTurn = true →
    s.meas.settled = true →
    (unitGet s s.meas.calTurn).cal = none →
    (unitGet s s.meas.calTurn).calReq = none →
    s.meas.spareFor = none ∨ running s = false →
    exec .autoCalibration s = .next (calAsk s.meas.calTurn false (s.onMeas (fun m => { m with calTurn := (s.meas.calTurn + 1) % 5 })))) ∧
  (∀ (x y : Int) (s : State),
    s.meas.tests.all (fun e => !s.meas.testOn || e.path) = true →
    exec (.levelTestComplete x y) s = .next s) ∧
  (∀ (t : DacTest) (l : List DacTest) (x y : Int) (s : State),
    s.meas.tests = t :: l →
    s.meas.testOn = true →
    t.path = false →
    t.cross = none →
    (x - 8192).natAbs ≤ 66 ∧ (y - 24576).natAbs ≤ 66 →
    testing s 4 3 t.obj = false →
    exec (.levelTestComplete x y) s = .next (testPop (testFinal t true x y s))) ∧
  (∀ (t : DacTest) (l : List DacTest) (x y : Int) (s : State),
    s.meas.tests = t :: l →
    s.meas.testOn = true →
    t.path = false →
    t.cross = none →
    66 < (x - 8192).natAbs ∨ 66 < (y - 24576).natAbs →
    testing s 4 3 t.obj = false →
    exec (.levelTestComplete x y) s = .next (unitLost t.obj 2 0 (testPop (testFinal t false x y (measEvent 0x05 .notice t.obj [0, word32 x, word32 y] (s.onMeas (fun m => { m with fails := inc32 m.fails }))))))) ∧
  (∀ (t : DacTest) (l : List DacTest) (x y : Int) (s : State),
    s.meas.tests = t :: l →
    s.meas.testOn = true →
    t.path = false →
    t.cross = none →
    (x - 8192).natAbs ≤ 66 ∧ (y - 24576).natAbs ≤ 66 →
    testing s 4 3 t.obj = true →
    exec (.levelTestComplete x y) s = .next (readmitEnd 4 3 t.obj true (testPop (testFinal t true x y s)))) ∧
  (∀ (t : DacTest) (l : List DacTest) (x y : Int) (s : State),
    s.meas.tests = t :: l →
    s.meas.testOn = true →
    t.path = false →
    t.cross = none →
    66 < (x - 8192).natAbs ∨ 66 < (y - 24576).natAbs →
    testing s 4 3 t.obj = true →
    exec (.levelTestComplete x y) s = .next (readmitEnd 4 3 t.obj false (testPop (testFinal t false x y (measEvent 0x05 .notice t.obj [0, word32 x, word32 y] (s.onMeas (fun m => { m with fails := inc32 m.fails }))))))) ∧
  (∀ (t : DacTest) (l : List DacTest) (x y : Int) (p : Nat) (s v : State),
    s.meas.tests = t :: l →
    s.meas.testOn = true →
    t.path = false →
    t.cross = some p →
    (x - 8192).natAbs ≤ 66 ∧ (y - 24576).natAbs ≤ 66 →
    testing s 4 3 t.obj = false →
    v = mPairUpd p (fun z => { z with passed := (mPair s p).passed + 1, unres := z.unres || decide (2 ≤ (mPair s p).passed + 1) }) s →
    (mPair s p).passed ≠ 1 →
    exec (.levelTestComplete x y) s = .next (testPop v)) ∧
  (∀ (t : DacTest) (l : List DacTest) (x y : Int) (p : Nat) (s : State),
    s.meas.tests = t :: l →
    s.meas.testOn = true →
    t.path = false →
    t.cross = some p →
    (x - 8192).natAbs ≤ 66 ∧ (y - 24576).natAbs ≤ 66 →
    testing s 4 3 t.obj = false →
    (mPair s p).passed = 1 →
    exec (.levelTestComplete x y) s = .next (testPop (measEvent 0x08 .contained 0 [p] (mPairUpd p (fun z => { z with passed := 2, unres := true }) s)))) ∧
  (∀ (t : DacTest) (l : List DacTest) (x y : Int) (p : Nat) (s : State),
    s.meas.tests = t :: l →
    s.meas.testOn = true →
    t.path = false →
    t.cross = some p →
    66 < (x - 8192).natAbs ∨ 66 < (y - 24576).natAbs →
    testing s 4 3 t.obj = false →
    exec (.levelTestComplete x y) s = .next (unitLost t.obj 2 0 (testPop (measEvent 0x05 .notice t.obj [0, word32 x, word32 y] (s.onMeas (fun m => { m with fails := inc32 m.fails })))))) ∧
  (∀ (x y : Int) (s : State),
    s.meas.tests.all (fun e => !s.meas.testOn || !e.path) = true →
    exec (.pathTestComplete x y) s = .next s) ∧
  (∀ (t : DacTest) (l : List DacTest) (x y : Int) (s : State),
    s.meas.tests = t :: l →
    s.meas.testOn = true →
    t.path = true →
    ((mChan s t.obj).pmin : Int) ≤ y - x →
    y - x ≤ (mChan s t.obj).pmax →
    exec (.pathTestComplete x y) s = .next (testPop (testFinal t true x y s))) ∧
  (∀ (t : DacTest) (l : List DacTest) (x y : Int) (s : State),
    s.meas.tests = t :: l →
    s.meas.testOn = true →
    t.path = true →
    y - x < ((mChan s t.obj).pmin : Int) ∨ ((mChan s t.obj).pmax : Int) < y - x →
    exec (.pathTestComplete x y) s = .next (testPop (testFinal t false x y (measEvent 0x05 .notice t.obj [1, word32 (y - x)] s)))) ∧
  (∀ (s : State),
    mprOk s = false ∨ s.meas.diagPer = 0 →
    exec .autoLevelTest s = .next s) ∧
  (∀ (s : State),
    mprOk s = true →
    s.meas.diagPer ≠ 0 →
    (if s.meas.diagTurn = 4 then s.meas.spareFor.isNone && !s.meas.spareBad && s.meas.covers.isNone else unitIn s s.meas.diagTurn) = true →
    exec .autoLevelTest s = .next (testAdd ⟨false, s.meas.diagTurn, none⟩ (s.onMeas (fun m => { m with diagTurn := (s.meas.diagTurn + 1) % 5 })))) ∧
  (∀ (s : State),
    mprOk s = true →
    s.meas.diagPer ≠ 0 →
    (if s.meas.diagTurn = 4 then s.meas.spareFor.isNone && !s.meas.spareBad && s.meas.covers.isNone else unitIn s s.meas.diagTurn) = false →
    exec .autoLevelTest s = .next (s.onMeas (fun m => { m with diagTurn := (s.meas.diagTurn + 1) % 5 }))) ∧
  (∀ (n k : Nat) (s : State),
    exec (.unitFail n k) s = .next (unitLost n k 0 s)) ∧
  (∀ (s : State),
    s.meas.settled = false →
    exec .refSelectTimeout s = .next (endPending (fun p => p.opcode == 0x0904) .timeout [] s)) ∧
  (∀ (s : State),
    s.meas.settled = true →
    exec .refSelectTimeout s = .next s)

/-- ACQ_CHANNEL_CONFIG and ACQ_TRIGGER_CONFIG of a disarmed channel store the parameters; of another, CONFLICT. ACQ_ARM with action 0 disarms,
with 1 arms, with 2 arms with clear, with 3 only reads; CONFLICT where a channel cannot be armed, EXHAUSTED beyond the pool.
ACQ_SEGMENT_READ writes the segment, or its header alone, marks it read and releases it when asked, at once or when its response is written;
CONFLICT without one. ACQ_LOCATE computes the distance, with an event where it lies outside; CONFLICT without a segment or for a forced
trigger. A trigger of the only enabled channel starts its capture; one of a channel in its group starts it with that source; a comparator on
a channel that is not armed is missed; with no trigger nothing changes. TO in AUTO mode captures; a close stores the segment and arms the
channel again, or ends it in SINGLE mode; without a capture nothing changes. Without an MPR the commands answer NOT_FITTED. -/
def Obligations.AcquisitionCommandsAndEvents : Prop :=
  (∀ (c : Cmd) (s : State) (k : AcqCfg),
    k = { acqCfg s (c.u8 0) with on := bit (c.u8 1) 0, invert := bit (c.u8 1) 1, prot := bit (c.u8 1) 2, offs := c.s16 2 } →
    Serving s →
    Inline c 8 →
    c.mb ≠ 0 →
    mprOk s = true →
    c.u8 0 < 4 →
    c.u8 1 < 8 →
    -2048 ≤ c.s16 2 →
    c.s16 2 ≤ 2047 →
    c.rsv 4 4 = true →
    (acqGet s (c.u8 0)).state = .disarmed →
    exec (.acqChannelConfig c) s = .next (answer 0x0A01 c .ok [] (s.onAcq (fun a => { a with cfg := tset a.cfg (c.u8 0) k })))) ∧
  (∀ (c : Cmd) (s : State),
    Serving s →
    Inline c 8 →
    c.mb ≠ 0 →
    mprOk s = true →
    c.u8 0 < 4 →
    c.u8 1 < 8 →
    -2048 ≤ c.s16 2 →
    c.s16 2 ≤ 2047 →
    c.rsv 4 4 = true →
    (acqGet s (c.u8 0)).state ≠ .disarmed →
    exec (.acqChannelConfig c) s = .next (answer 0x0A01 c .conflict [] s)) ∧
  (∀ (c : Cmd) (s : State) (k : AcqCfg),
    k = { acqCfg s (c.u8 0) with kind := c.u8 1 % 4, dir := c.u8 1 / 4 % 4, th := c.s16 2, hyst := c.u16 4, ds := c.u8 6, cmp := c.u8 7, group := c.u8 8, mode := c.u8 9, dest := c.u32 12, len := c.u32 16, pre := c.u32 20 } →
    Serving s →
    Inline c 24 →
    c.mb ≠ 0 →
    mprOk s = true →
    c.u8 0 < 4 →
    c.u8 1 < 16 →
    k.dir < 3 →
    (k.kind = 1 ∧ 1 ≤ k.th ∧ k.th ≤ 4095) ∨ (k.kind ≠ 1 ∧ -2048 ≤ k.th ∧ k.th ≤ 2047) →
    k.hyst ≤ 1023 →
    1 ≤ k.ds →
    k.ds ≤ 16 →
    k.cmp < 24 →
    k.group < 16 →
    bit k.group (c.u8 0) = false →
    k.mode < 3 →
    1 ≤ k.dest →
    k.dest ≤ 1000000 →
    64 ≤ k.len →
    k.len ≤ 65536 →
    k.len % 64 = 0 →
    k.pre + 64 ≤ k.len →
    c.rsv 10 2 = true →
    (acqGet s (c.u8 0)).state = .disarmed →
    exec (.acqTriggerConfig c) s = .next (answer 0x0A02 c .ok (le 4 (k.len - k.pre - 1) ++ le 4 (k.len * 4)) (s.onAcq (fun a => { a with cfg := tset a.cfg (c.u8 0) k })))) ∧
  (∀ (c : Cmd) (s : State) (k : AcqCfg),
    k = { acqCfg s (c.u8 0) with kind := c.u8 1 % 4, dir := c.u8 1 / 4 % 4, th := c.s16 2, hyst := c.u16 4, ds := c.u8 6, cmp := c.u8 7, group := c.u8 8, mode := c.u8 9, dest := c.u32 12, len := c.u32 16, pre := c.u32 20 } →
    Serving s →
    Inline c 24 →
    c.mb ≠ 0 →
    mprOk s = true →
    c.u8 0 < 4 →
    c.u8 1 < 16 →
    k.dir < 3 →
    (k.kind = 1 ∧ 1 ≤ k.th ∧ k.th ≤ 4095) ∨ (k.kind ≠ 1 ∧ -2048 ≤ k.th ∧ k.th ≤ 2047) →
    k.hyst ≤ 1023 →
    1 ≤ k.ds →
    k.ds ≤ 16 →
    k.cmp < 24 →
    k.group < 16 →
    bit k.group (c.u8 0) = false →
    k.mode < 3 →
    1 ≤ k.dest →
    k.dest ≤ 1000000 →
    64 ≤ k.len →
    k.len ≤ 65536 →
    k.len % 64 = 0 →
    k.pre + 64 ≤ k.len →
    c.rsv 10 2 = true →
    (acqGet s (c.u8 0)).state ≠ .disarmed →
    exec (.acqTriggerConfig c) s = .next (answer 0x0A02 c .conflict [] s)) ∧
  (∀ (c : Cmd) (s v : State),
    Serving s →
    Inline c 8 →
    c.mb ≠ 0 →
    mprOk s = true →
    0 < c.u8 0 →
    c.u8 0 < 16 →
    c.u8 2 < 2 →
    c.rsv 3 1 = true →
    c.rsv 6 2 = true →
    c.u8 1 = 0 →
    c.u16 4 = 0 →
    v = ((List.range 4).filter (bit (c.u8 0))).foldl (fun w n => acqDisarm n w) s →
    exec (.acqArm c) s = .next (answer 0x0A03 c .ok ((List.range 4).flatMap (fun n => le 1 (acqGet v n).state.code ++ le 1 (b2n (acqGet v n).ring) ++ le 2 (acqGet v n).segs.length ++ le 4 (acqGet v n).missed) ++ le 4 (8388608 - poolBytes v) ++ le 4 (8192 - poolHeads v) ++ le 4 v.tick.index) v)) ∧
  (∀ (c : Cmd) (s : State),
    Serving s →
    Inline c 8 →
    c.mb ≠ 0 →
    mprOk s = true →
    0 < c.u8 0 →
    c.u8 0 < 16 →
    c.u8 2 < 2 →
    c.rsv 3 1 = true →
    c.rsv 6 2 = true →
    c.u8 1 = 3 →
    c.u16 4 = 0 →
    exec (.acqArm c) s = .next (answer 0x0A03 c .ok ((List.range 4).flatMap (fun n => le 1 (acqGet s n).state.code ++ le 1 (b2n (acqGet s n).ring) ++ le 2 (acqGet s n).segs.length ++ le 4 (acqGet s n).missed) ++ le 4 (8388608 - poolBytes s) ++ le 4 (8192 - poolHeads s) ++ le 4 s.tick.index) s)) ∧
  (∀ (c : Cmd) (s v : State),
    Serving s →
    Inline c 8 →
    c.mb ≠ 0 →
    mprOk s = true →
    0 < c.u8 0 →
    c.u8 0 < 16 →
    c.u8 2 < 2 →
    c.rsv 3 1 = true →
    c.rsv 6 2 = true →
    c.u8 1 = 1 →
    c.u16 4 = 0 →
    (((List.range 4).filter (bit (c.u8 0))).any (fun n => !(acqCfg s n).on || !((acqGet s n).state == .disarmed || (acqGet s n).state == .done) || (c.u8 1 == 1 && ((acqGet s n).slots == 0 || (acqGet s n).plen != (acqCfg s n).len)))) = false →
    v = (((List.range 4).filter (bit (c.u8 0))).foldl (fun w n => acqArm n false (c.u8 2 == 1) (c.u16 4) w) s) →
    exec (.acqArm c) s = .next (answer 0x0A03 c .ok ((List.range 4).flatMap (fun n => le 1 (acqGet v n).state.code ++ le 1 (b2n (acqGet v n).ring) ++ le 2 (acqGet v n).segs.length ++ le 4 (acqGet v n).missed) ++ le 4 (8388608 - poolBytes v) ++ le 4 (8192 - poolHeads v) ++ le 4 v.tick.index) v)) ∧
  (∀ (c : Cmd) (s v : State),
    Serving s →
    Inline c 8 →
    c.mb ≠ 0 →
    mprOk s = true →
    0 < c.u8 0 →
    c.u8 0 < 16 →
    c.u8 2 < 2 →
    c.rsv 3 1 = true →
    c.rsv 6 2 = true →
    c.u8 1 = 2 →
    1 ≤ c.u16 4 →
    c.u16 4 ≤ 8192 →
    ((List.range 4).filter (bit (c.u8 0))).all (fun n => !held s (.segment n)) = true →
    (((List.range 4).filter (bit (c.u8 0))).any (fun n => !(acqCfg s n).on || !((acqGet s n).state == .disarmed || (acqGet s n).state == .done) || (c.u8 1 == 1 && ((acqGet s n).slots == 0 || (acqGet s n).plen != (acqCfg s n).len)))) = false →
    ((((List.range 4).filter (fun n => !bit (c.u8 0) n)).map (fun n => (acqGet s n).slots * (acqGet s n).plen * 2)).sum + (((List.range 4).filter (bit (c.u8 0))).map (fun n => c.u16 4 * (acqCfg s n).len * 2)).sum) ≤ 8388608 →
    ((((List.range 4).filter (fun n => !bit (c.u8 0) n)).map (fun n => (acqGet s n).slots)).sum + ((List.range 4).filter (bit (c.u8 0))).length * c.u16 4) ≤ 8192 →
    v = (((List.range 4).filter (bit (c.u8 0))).foldl (fun w n => acqArm n true (c.u8 2 == 1) (c.u16 4) w) s) →
    exec (.acqArm c) s = .next (answer 0x0A03 c .ok ((List.range 4).flatMap (fun n => le 1 (acqGet v n).state.code ++ le 1 (b2n (acqGet v n).ring) ++ le 2 (acqGet v n).segs.length ++ le 4 (acqGet v n).missed) ++ le 4 (8388608 - poolBytes v) ++ le 4 (8192 - poolHeads v) ++ le 4 v.tick.index) v)) ∧
  (∀ (c : Cmd) (s : State),
    Serving s →
    Inline c 8 →
    c.mb ≠ 0 →
    mprOk s = true →
    0 < c.u8 0 →
    c.u8 0 < 16 →
    c.u8 2 < 2 →
    c.rsv 3 1 = true →
    c.rsv 6 2 = true →
    (c.u8 1 = 1 ∧ c.u16 4 = 0) ∨ (c.u8 1 = 2 ∧ 1 ≤ c.u16 4 ∧ c.u16 4 ≤ 8192 ∧ ((List.range 4).filter (bit (c.u8 0))).all (fun n => !held s (.segment n)) = true) →
    (((List.range 4).filter (bit (c.u8 0))).any (fun n => !(acqCfg s n).on || !((acqGet s n).state == .disarmed || (acqGet s n).state == .done) || (c.u8 1 == 1 && ((acqGet s n).slots == 0 || (acqGet s n).plen != (acqCfg s n).len)))) = true →
    exec (.acqArm c) s = .next (answer 0x0A03 c .conflict [] s)) ∧
  (∀ (c : Cmd) (s : State),
    Serving s →
    Inline c 8 →
    c.mb ≠ 0 →
    mprOk s = true →
    0 < c.u8 0 →
    c.u8 0 < 16 →
    c.u8 2 < 2 →
    c.rsv 3 1 = true →
    c.rsv 6 2 = true →
    c.u8 1 = 2 →
    1 ≤ c.u16 4 →
    c.u16 4 ≤ 8192 →
    ((List.range 4).filter (bit (c.u8 0))).all (fun n => !held s (.segment n)) = true →
    (((List.range 4).filter (bit (c.u8 0))).any (fun n => !(acqCfg s n).on || !((acqGet s n).state == .disarmed || (acqGet s n).state == .done) || (c.u8 1 == 1 && ((acqGet s n).slots == 0 || (acqGet s n).plen != (acqCfg s n).len)))) = false →
    8388608 < ((((List.range 4).filter (fun n => !bit (c.u8 0) n)).map (fun n => (acqGet s n).slots * (acqGet s n).plen * 2)).sum + (((List.range 4).filter (bit (c.u8 0))).map (fun n => c.u16 4 * (acqCfg s n).len * 2)).sum) ∨ 8192 < ((((List.range 4).filter (fun n => !bit (c.u8 0) n)).map (fun n => (acqGet s n).slots)).sum + ((List.range 4).filter (bit (c.u8 0))).length * c.u16 4) →
    exec (.acqArm c) s = .next (answer 0x0A03 c .exhausted [] s)) ∧
  (∀ (c : Cmd) (s : State),
    Serving s →
    Inline c 8 →
    c.mb ≠ 0 →
    mprOk s = true →
    0 < c.u8 0 →
    c.u8 0 < 16 →
    c.u8 2 < 2 →
    c.rsv 3 1 = true →
    c.rsv 6 2 = true →
    c.u8 1 = 2 →
    1 ≤ c.u16 4 →
    c.u16 4 ≤ 8192 →
    ((List.range 4).filter (bit (c.u8 0))).all (fun n => !held s (.segment n)) = false →
    exec (.acqArm c) s = .next (answer 0x0A03 c .busy [] s)) ∧
  (∀ (c : Cmd) (s v : State) (e : Segment),
    Serving s →
    Inline c 16 →
    c.mb ≠ 0 →
    mprOk s = true →
    held s (.segment (c.u8 0)) = false →
    c.u8 0 < 4 →
    c.rsv 2 2 = true →
    c.u64 8 % 64 = 0 →
    c.u64 8 ≠ 0 →
    c.u8 1 < 4 →
    bit (c.u8 1) 0 = false →
    acqFind s (c.u8 0) (c.u32 4) = some e →
    v = acqUpd (c.u8 0) (fun x => { x with segs := x.segs.map (fun y => if y.seg = e.seg then { y with read := true } else y) }) (putBuf (c.u64 8) (if bit (c.u8 1) 1 then e.header (c.u8 0) else e.header (c.u8 0) ++ withCrc (e.samples.flatMap (leS 2))) s) →
    exec (.acqSegmentRead c) s = .next (answer 0x0A04 c .ok (le 4 e.seg ++ le 4 ((acqGet v (c.u8 0)).segs.length - (acqGet v (c.u8 0)).frees.length) ++ le 4 (if bit (c.u8 1) 1 then e.header (c.u8 0) else e.header (c.u8 0) ++ withCrc (e.samples.flatMap (leS 2))).length) v)) ∧
  (∀ (c : Cmd) (s v : State) (e : Segment),
    Serving s →
    Inline c 16 →
    c.mb ≠ 0 →
    mprOk s = true →
    held s (.segment (c.u8 0)) = false →
    c.u8 0 < 4 →
    c.rsv 2 2 = true →
    c.u64 8 % 64 = 0 →
    c.u64 8 ≠ 0 →
    c.u8 1 < 4 →
    bit (c.u8 1) 0 = true →
    acqFind s (c.u8 0) (c.u32 4) = some e →
    v = acqUpd (c.u8 0) (fun x => { x with segs := x.segs.map (fun y => if y.seg = e.seg then { y with read := true } else y) }) (putBuf (c.u64 8) (if bit (c.u8 1) 1 then e.header (c.u8 0) else e.header (c.u8 0) ++ withCrc (e.samples.flatMap (leS 2))) s) →
    writesNow v c.mb = true →
    exec (.acqSegmentRead c) s = .next (answer 0x0A04 c .ok (le 4 e.seg ++ le 4 ((acqGet v (c.u8 0)).segs.length - (acqGet v (c.u8 0)).frees.length - 1) ++ le 4 (if bit (c.u8 1) 1 then e.header (c.u8 0) else e.header (c.u8 0) ++ withCrc (e.samples.flatMap (leS 2))).length) (segRelease (c.u8 0) e.seg v))) ∧
  (∀ (c : Cmd) (s v : State) (e : Segment),
    Serving s →
    Inline c 16 →
    c.mb ≠ 0 →
    mprOk s = true →
    held s (.segment (c.u8 0)) = false →
    c.u8 0 < 4 →
    c.rsv 2 2 = true →
    c.u64 8 % 64 = 0 →
    c.u64 8 ≠ 0 →
    c.u8 1 < 4 →
    bit (c.u8 1) 0 = true →
    acqFind s (c.u8 0) (c.u32 4) = some e →
    v = acqUpd (c.u8 0) (fun x => { x with segs := x.segs.map (fun y => if y.seg = e.seg then { y with read := true } else y) }) (putBuf (c.u64 8) (if bit (c.u8 1) 1 then e.header (c.u8 0) else e.header (c.u8 0) ++ withCrc (e.samples.flatMap (leS 2))) s) →
    writesNow v c.mb = false →
    exec (.acqSegmentRead c) s = .next (answer 0x0A04 c .ok (le 4 e.seg ++ le 4 ((acqGet v (c.u8 0)).segs.length - (acqGet v (c.u8 0)).frees.length - 1) ++ le 4 (if bit (c.u8 1) 1 then e.header (c.u8 0) else e.header (c.u8 0) ++ withCrc (e.samples.flatMap (leS 2))).length) (acqUpd (c.u8 0) (fun x => { x with frees := x.frees ++ [(e.seg, c.mb.val, c.tag.toNat, c.seq.toNat)] }) v))) ∧
  (∀ (c : Cmd) (s : State),
    Serving s →
    Inline c 16 →
    c.mb ≠ 0 →
    mprOk s = true →
    held s (.segment (c.u8 0)) = false →
    c.u8 0 < 4 →
    c.rsv 2 2 = true →
    c.u64 8 % 64 = 0 →
    c.u64 8 ≠ 0 →
    c.u8 1 < 4 →
    acqFind s (c.u8 0) (c.u32 4) = none →
    exec (.acqSegmentRead c) s = .next (answer 0x0A04 c .conflict [] s)) ∧
  (∀ (c : Cmd) (s : State) (e : Segment) (n : Int),
    Serving s →
    Inline c 40 →
    c.mb ≠ 0 →
    mprOk s = true →
    c.u8 0 < 4 →
    c.rsv 1 3 = true →
    1 ≤ c.u32 8 →
    c.u32 8 ≤ 3000000 →
    50000 ≤ c.u32 12 →
    c.u32 12 ≤ 299792 →
    c.stampOk 16 = true →
    (c.stamp 16).frac % 1024 = 0 →
    c.u32 28 ≤ 10000 →
    c.rsv 32 8 = true →
    (acqGet s (c.u8 0)).segs.find? (fun x => x.seg == c.u32 4) = some e →
    e.cap.kind ≠ 3 →
    n = (64000000 * c.u32 8 : Nat) + c.u32 12 * ((e.cap.t : Int) - ((c.stamp 16).val / 2 ^ 26 : Nat)) →
    -(128000000 * c.u32 28 : Nat) ≤ n →
    n ≤ (128000000 * (c.u32 8 + c.u32 28) : Nat) →
    exec (.acqLocate c) s = .next (answer 0x0A05 c .ok (leS 8 (roundDiv n 128000) ++ leS 8 ((e.cap.t : Int) - ((c.stamp 16).val / 2 ^ 26 : Nat)) ++ le 1 (0 + 2 * b2n e.cap.unset) ++ le 3 0 ++ (stamp64 e.cap.t).bytes) s)) ∧
  (∀ (c : Cmd) (s : State) (e : Segment) (n : Int),
    Serving s →
    Inline c 40 →
    c.mb ≠ 0 →
    mprOk s = true →
    c.u8 0 < 4 →
    c.rsv 1 3 = true →
    1 ≤ c.u32 8 →
    c.u32 8 ≤ 3000000 →
    50000 ≤ c.u32 12 →
    c.u32 12 ≤ 299792 →
    c.stampOk 16 = true →
    (c.stamp 16).frac % 1024 = 0 →
    c.u32 28 ≤ 10000 →
    c.rsv 32 8 = true →
    (acqGet s (c.u8 0)).segs.find? (fun x => x.seg == c.u32 4) = some e →
    e.cap.kind ≠ 3 →
    n = (64000000 * c.u32 8 : Nat) + c.u32 12 * ((e.cap.t : Int) - ((c.stamp 16).val / 2 ^ 26 : Nat)) →
    n < -(128000000 * c.u32 28 : Nat) ∨ (128000000 * (c.u32 8 + c.u32 28) : Nat) < n →
    exec (.acqLocate c) s = .next (answer 0x0A05 c .ok (leS 8 (roundDiv n 128000) ++ leS 8 ((e.cap.t : Int) - ((c.stamp 16).val / 2 ^ 26 : Nat)) ++ le 1 (1 + 2 * b2n e.cap.unset) ++ le 3 0 ++ (stamp64 e.cap.t).bytes) (acqEvent 0x06 .notice (c.u8 0) (e.seg :: words64 (roundDiv n 128000)) s))) ∧
  (∀ (c : Cmd) (s : State),
    Serving s →
    Inline c 40 →
    c.mb ≠ 0 →
    mprOk s = true →
    c.u8 0 < 4 →
    c.rsv 1 3 = true →
    1 ≤ c.u32 8 →
    c.u32 8 ≤ 3000000 →
    50000 ≤ c.u32 12 →
    c.u32 12 ≤ 299792 →
    c.stampOk 16 = true →
    (c.stamp 16).frac % 1024 = 0 →
    c.u32 28 ≤ 10000 →
    c.rsv 32 8 = true →
    (acqGet s (c.u8 0)).segs.find? (fun x => x.seg == c.u32 4) = none →
    exec (.acqLocate c) s = .next (answer 0x0A05 c .conflict [] s)) ∧
  (∀ (c : Cmd) (s : State) (e : Segment),
    Serving s →
    Inline c 40 →
    c.mb ≠ 0 →
    mprOk s = true →
    c.u8 0 < 4 →
    c.rsv 1 3 = true →
    1 ≤ c.u32 8 →
    c.u32 8 ≤ 3000000 →
    50000 ≤ c.u32 12 →
    c.u32 12 ≤ 299792 →
    c.stampOk 16 = true →
    (c.stamp 16).frac % 1024 = 0 →
    c.u32 28 ≤ 10000 →
    c.rsv 32 8 = true →
    (acqGet s (c.u8 0)).segs.find? (fun x => x.seg == c.u32 4) = some e →
    e.cap.kind = 3 →
    exec (.acqLocate c) s = .next (answer 0x0A05 c .conflict [] s)) ∧
  (∀ (c : Cmd) (s : State),
    Serving s →
    c.mb ≠ 0 →
    Inline c 8 →
    mprOk s = false →
    exec (.acqChannelConfig c) s = .next (answer 0x0A01 c .notFitted [] s)) ∧
  (∀ (c : Cmd) (s : State),
    Serving s →
    c.mb ≠ 0 →
    Inline c 24 →
    mprOk s = false →
    exec (.acqTriggerConfig c) s = .next (answer 0x0A02 c .notFitted [] s)) ∧
  (∀ (c : Cmd) (s : State),
    Serving s →
    c.mb ≠ 0 →
    Inline c 8 →
    mprOk s = false →
    exec (.acqArm c) s = .next (answer 0x0A03 c .notFitted [] s)) ∧
  (∀ (c : Cmd) (s : State),
    Serving s →
    c.mb ≠ 0 →
    Inline c 16 →
    mprOk s = false →
    exec (.acqSegmentRead c) s = .next (answer 0x0A04 c .notFitted [] s)) ∧
  (∀ (c : Cmd) (s : State),
    Serving s →
    c.mb ≠ 0 →
    Inline c 40 →
    mprOk s = false →
    exec (.acqLocate c) s = .next (answer 0x0A05 c .notFitted [] s)) ∧
  (∀ (a : Int) (l : List TwStream) (m : List Nat) (s : State),
    mprOk s = false →
    exec (.twTrigger a l m) s = .next s) ∧
  (∀ (a : Int) (l : List TwStream) (m : List Nat) (s : State),
    mprOk s = true →
    (List.range 4).all (fun n => !(acqCfg s n).on || ((ownTrigger (acqCfg s n) (l.getD n ⟨[], 0⟩) m).isNone && !((acqCfg s n).kind == 2 && m.contains (acqCfg s n).cmp))) = true →
    exec (.twTrigger a l m) s = .next s) ∧
  (∀ (n : Fin 4) (a : Int) (l : List TwStream) (m : List Nat) (p : Nat) (s : State),
    mprOk s = true →
    (acqCfg s n).on = true →
    (acqGet s n).state = .armed →
    0 < (l.getD n ⟨[], 0⟩).armed →
    ownTrigger (acqCfg s n) (l.getD n ⟨[], 0⟩) m = some p →
    (List.range 4).all (fun x => x == n || !(acqCfg s x).on) = true →
    bit (acqCfg s n).group n = false →
    (acqCfg s n).prot = false →
    exec (.twTrigger a l m) s = .next (acqCapture n { src := n, kind := (acqCfg s n).kind, t := if (acqCfg s n).kind = 2 then (((stationAt s (a * (2 ^ 26 : Nat)) / 2 ^ 26) * 2 ^ 26 + (2 * (base s 0).inc)) / 2 ^ 26) else (stationAt s (a * (2 ^ 26 : Nat)) / 2 ^ 26) + p, tn := (((stationAt s (a * (2 ^ 26 : Nat)) / 2 ^ 26) * 2 ^ 26 + (2 * (base s 0).inc)) / 2 ^ 26), per := (2 * (base s 0).inc), tick := s.tick.index - b2n (decide (a + p < 0)), valid := min (acqCfg s n).pre ((l.getD n ⟨[], 0⟩).armed - 1), unset := timeUnset s } s)) ∧
  (∀ (n : Fin 4) (a : Int) (l : List TwStream) (m : List Nat) (p : Nat) (s : State),
    mprOk s = true →
    (acqCfg s n).on = true →
    (acqGet s n).state = .armed →
    0 < (l.getD n ⟨[], 0⟩).armed →
    ownTrigger (acqCfg s n) (l.getD n ⟨[], 0⟩) m = some p →
    (List.range 4).all (fun x => x == n || !(acqCfg s x).on) = true →
    bit (acqCfg s n).group n = false →
    (acqCfg s n).prot = true →
    exec (.twTrigger a l m) s = .next (twSignal n (acqCfg s n).kind (if (acqCfg s n).kind = 2 then (((stationAt s (a * (2 ^ 26 : Nat)) / 2 ^ 26) * 2 ^ 26 + (2 * (base s 0).inc)) / 2 ^ 26) else (stationAt s (a * (2 ^ 26 : Nat)) / 2 ^ 26) + p) (acqCapture n { src := n, kind := (acqCfg s n).kind, t := if (acqCfg s n).kind = 2 then (((stationAt s (a * (2 ^ 26 : Nat)) / 2 ^ 26) * 2 ^ 26 + (2 * (base s 0).inc)) / 2 ^ 26) else (stationAt s (a * (2 ^ 26 : Nat)) / 2 ^ 26) + p, tn := (((stationAt s (a * (2 ^ 26 : Nat)) / 2 ^ 26) * 2 ^ 26 + (2 * (base s 0).inc)) / 2 ^ 26), per := (2 * (base s 0).inc), tick := s.tick.index - b2n (decide (a + p < 0)), valid := min (acqCfg s n).pre ((l.getD n ⟨[], 0⟩).armed - 1), unset := timeUnset s } s))) ∧
  (∀ (n x : Fin 4) (a : Int) (l : List TwStream) (m : List Nat) (p : Nat) (s : State),
    mprOk s = true →
    n ≠ x →
    (acqCfg s n).on = true →
    (acqGet s n).state = .armed →
    0 < (l.getD n ⟨[], 0⟩).armed →
    ownTrigger (acqCfg s n) (l.getD n ⟨[], 0⟩) m = some p →
    (acqCfg s x).on = true →
    (acqGet s x).state = .armed →
    0 < (l.getD x ⟨[], 0⟩).armed →
    ownTrigger (acqCfg s x) (l.getD x ⟨[], 0⟩) m = none →
    (List.range 4).all (fun y => y == n || y == x || !(acqCfg s y).on) = true →
    bit (acqCfg s x).group n = true →
    bit (acqCfg s x).group x = false →
    (acqCfg s n).prot = false →
    exec (.twTrigger a l m) s = .next ([n.val, x.val].mergeSort.foldl (fun w y => acqCapture y { src := n, kind := (acqCfg s n).kind, t := if (acqCfg s n).kind = 2 then (((stationAt s (a * (2 ^ 26 : Nat)) / 2 ^ 26) * 2 ^ 26 + (2 * (base s 0).inc)) / 2 ^ 26) else (stationAt s (a * (2 ^ 26 : Nat)) / 2 ^ 26) + p, tn := (((stationAt s (a * (2 ^ 26 : Nat)) / 2 ^ 26) * 2 ^ 26 + (2 * (base s 0).inc)) / 2 ^ 26), per := (2 * (base s 0).inc), tick := s.tick.index - b2n (decide (a + p < 0)), valid := min (acqCfg s y).pre ((l.getD y ⟨[], 0⟩).armed - 1), unset := timeUnset s } w) s)) ∧
  (∀ (n : Fin 4) (a : Int) (l : List TwStream) (m : List Nat) (s : State),
    mprOk s = true →
    (acqCfg s n).on = true →
    (acqGet s n).state ≠ .armed →
    (acqCfg s n).kind = 2 →
    m.contains (acqCfg s n).cmp = true →
    (List.range 4).all (fun x => x == n || !(acqCfg s x).on) = true →
    exec (.twTrigger a l m) s = .next (noteMissed n s)) ∧
  (∀ (ch : Fin 4) (a : Int) (n : Nat) (s : State),
    mprOk s = true →
    (acqGet s ch).state = .armed →
    (acqCfg s ch).mode = 1 →
    exec (.twAutoTimeout ch a n) s = .next (acqCapture ch { src := ch, kind := 3, t := (stationAt s (a * (2 ^ 26 : Nat)) / 2 ^ 26), tn := (stationAt s (a * (2 ^ 26 : Nat)) / 2 ^ 26), per := (2 * (base s 0).inc), tick := s.tick.index - b2n (decide (a < 0)), valid := min (acqCfg s ch).pre n, unset := timeUnset s } s)) ∧
  (∀ (ch : Fin 4) (a : Int) (n : Nat) (s : State),
    mprOk s = false ∨ (acqGet s ch).state ≠ .armed ∨ (acqCfg s ch).mode ≠ 1 →
    exec (.twAutoTimeout ch a n) s = .next s) ∧
  (∀ (ch : Fin 4) (l : List Int) (s : State),
    (acqGet s ch).cap = none ∨ (acqGet s ch).state ≠ .capturing →
    exec (.twSegmentClose ch l) s = .next s) ∧
  (∀ (ch : Fin 4) (l : List Int) (k : Capture) (s : State),
    (acqGet s ch).cap = some k →
    (acqGet s ch).state = .capturing →
    (acqCfg s ch).mode = 2 →
    exec (.twSegmentClose ch l) s = .next (acqUpd ch (fun y => { y with state := .done }) (closeSegment ch (((List.replicate ((acqCfg s ch).pre - k.valid) (-32768) ++ l.map (storedOf (acqCfg s ch))).take (acqCfg s ch).len) ++ List.replicate ((acqCfg s ch).len - ((List.replicate ((acqCfg s ch).pre - k.valid) (-32768) ++ l.map (storedOf (acqCfg s ch))).take (acqCfg s ch).len).length) (-32768)) false (l.any (fun v => v ≤ -2048 || 2047 ≤ v)) s))) ∧
  (∀ (ch : Fin 4) (l : List Int) (k : Capture) (s : State),
    (acqGet s ch).cap = some k →
    (acqGet s ch).state = .capturing →
    (acqCfg s ch).mode ≠ 2 →
    exec (.twSegmentClose ch l) s = .next (rearm ch (closeSegment ch (((List.replicate ((acqCfg s ch).pre - k.valid) (-32768) ++ l.map (storedOf (acqCfg s ch))).take (acqCfg s ch).len) ++ List.replicate ((acqCfg s ch).len - ((List.replicate ((acqCfg s ch).pre - k.valid) (-32768) ++ l.map (storedOf (acqCfg s ch))).take (acqCfg s ch).len).length) (-32768)) false (l.any (fun v => v ≤ -2048 || 2047 ≤ v)) s)))

/-- PROT_ELEMENT_CONFIG (a point or an element), PROT_CURVE_LOAD, PROT_TRIP_MAP and PROT_RECORD_CONFIG in range stage their parameters into
shadow set bit 6 and leave the active set; CONFLICT where a selector, a KIND, a curve or the fast path does not fit, EXHAUSTED beyond 24
FAST elements or the DRAM left, BUSY while the set is held. PROT_TRIP_RESET clears the latches of inactive outputs, or answers TRIP_ACTIVE
or CONFLICT. PROT_RECORD_EXPORT writes the part it names, PENDING beyond 1 MiB, or triggers a record. PROT_STATUS reads the counts and
writes the table asked for. Without an MPR they answer NOT_FITTED. -/
def Obligations.ProtectionCommandsStageResetAndExport : Prop :=
  (∀ (c : Cmd) (s : State) (k : PtCfg),
    k = { kind := c.u8 2, hz60 := c.u8 3 == 1, sel := (List.range 8).map (fun i => c.u16 (4 + 2 * i)), vmin := c.u32 20, fwin := c.u8 24, rocwin := c.u8 25, ndc := c.u8 26 } →
    Admits c s [.config, .standby, .deblocked, .safeStop, .blockedFault, .factoryTest] [.active, .standby] →
    mprOk s = true →
    Inline c 40 →
    c.u8 0 = 1 →
    c.u8 1 < 16 →
    k.kind < 3 →
    c.u8 3 < 2 →
    k.sel.all protSelOk = true →
    k.vmin ≤ 2 ^ 28 →
    1 ≤ k.fwin →
    k.fwin ≤ 10 →
    1 ≤ k.rocwin →
    k.rocwin ≤ 50 →
    1 ≤ k.ndc →
    k.ndc ≤ 64 →
    c.rsv 27 13 = true →
    setHeld s 6 = false →
    (k.sel.any (protSelBad s) || (protShadow s).el.any (fun x => x.2.pt == c.u8 1 && fastOnSv x.2 k)) = false →
    exec (.protElementConfig c) s = .next (answer 0x0B01 c .ok (le 1 (fastCount (protShadow (protStage c.params (fun p => { p with pt := tset p.pt (c.u8 1) k }) s)))) (protStage c.params (fun p => { p with pt := tset p.pt (c.u8 1) k }) s))) ∧
  (∀ (c : Cmd) (s : State) (k : PtCfg),
    k = { kind := c.u8 2, hz60 := c.u8 3 == 1, sel := (List.range 8).map (fun i => c.u16 (4 + 2 * i)), vmin := c.u32 20, fwin := c.u8 24, rocwin := c.u8 25, ndc := c.u8 26 } →
    Admits c s [.config, .standby, .deblocked, .safeStop, .blockedFault, .factoryTest] [.active, .standby] →
    mprOk s = true →
    Inline c 40 →
    c.u8 0 = 1 →
    c.u8 1 < 16 →
    k.kind < 3 →
    c.u8 3 < 2 →
    k.sel.all protSelOk = true →
    k.vmin ≤ 2 ^ 28 →
    1 ≤ k.fwin →
    k.fwin ≤ 10 →
    1 ≤ k.rocwin →
    k.rocwin ≤ 50 →
    1 ≤ k.ndc →
    k.ndc ≤ 64 →
    c.rsv 27 13 = true →
    setHeld s 6 = false →
    (k.sel.any (protSelBad s) || (protShadow s).el.any (fun x => x.2.pt == c.u8 1 && fastOnSv x.2 k)) = true →
    exec (.protElementConfig c) s = .next (answer 0x0B01 c .conflict [] s)) ∧
  (∀ (c : Cmd) (s u : State) (e : ElCfg),
    e = { type := c.u8 2, on := bit (c.u8 3) 0, fast := bit (c.u8 3) 1, rev := bit (c.u8 3) 2, ndFall := bit (c.u8 3) 3, pt := c.u8 4, qsel := c.u8 5, tmode := c.u8 6, rmode := c.u8 7, pu := c.u32 8, dr := c.u16 12, nconf := c.u8 14, blkel := c.u8 15, td := c.u32 16, tms := c.u32 20, trst := c.u32 24, rca := c.s16 28, angw := c.u16 30, vpol := c.u32 32, memc := c.u8 36, twmask := c.u8 37, confel := c.u8 38 } →
    Admits c s [.config, .standby, .deblocked, .safeStop, .blockedFault, .factoryTest] [.active, .standby] →
    mprOk s = true →
    Inline c 40 →
    c.u8 0 = 0 →
    c.u8 1 < 96 →
    1 ≤ e.type →
    e.type ≤ 12 →
    c.u8 3 < 16 →
    e.pt < 16 →
    e.qsel < 32 →
    e.tmode ≤ 8 →
    e.tmode = 0 ∨ e.type ≤ 4 →
    e.rmode < 3 →
    e.rmode ≠ 2 ∨ e.tmode = 0 ∨ 4 < e.tmode →
    e.fast = false ∨ ([1, 2, 10, 11].contains e.type = true ∧ e.tmode = 0) →
    (e.type = 12 ∧ e.pu = 0) ∨ (e.type ≠ 12 ∧ 1 ≤ e.pu ∧ ([7, 8, 9].contains e.type = true ∨ e.pu < 2 ^ 31)) →
    8192 ≤ e.dr →
    e.dr ≤ 24576 →
    1 ≤ e.nconf →
    e.nconf ≤ 16 →
    e.blkel < 96 ∨ e.blkel = 0xFF →
    e.blkel ≠ c.u8 1 →
    e.td ≤ 600000000 →
    167772 ≤ e.tms →
    e.tms ≤ 1677721600 →
    e.trst ≤ 60000000 →
    e.rca.natAbs ≤ 18000 →
    1000 ≤ e.angw →
    e.angw ≤ 9000 →
    e.vpol ≤ 2 ^ 28 →
    e.memc ≤ 10 →
    e.twmask < 16 →
    e.confel < 96 ∨ e.confel = 0xFF →
    e.confel ≠ c.u8 1 →
    c.rsv 39 1 = true →
    setHeld s 6 = false →
    u = protStage c.params (fun p => { p with el := tset p.el (c.u8 1) e }) s →
    (!kindFits e.type (tget ({} : PtCfg) (protShadow s).pt e.pt).kind || (e.tmode == 8 && (protShadow s).curve.isEmpty) || fastOnSv e (tget ({} : PtCfg) (protShadow s).pt e.pt)) = false →
    fastCount (protShadow u) ≤ 24 →
    exec (.protElementConfig c) s = .next (answer 0x0B01 c .ok (le 1 (fastCount (protShadow u))) u)) ∧
  (∀ (c : Cmd) (s : State) (e : ElCfg),
    e = { type := c.u8 2, on := bit (c.u8 3) 0, fast := bit (c.u8 3) 1, rev := bit (c.u8 3) 2, ndFall := bit (c.u8 3) 3, pt := c.u8 4, qsel := c.u8 5, tmode := c.u8 6, rmode := c.u8 7, pu := c.u32 8, dr := c.u16 12, nconf := c.u8 14, blkel := c.u8 15, td := c.u32 16, tms := c.u32 20, trst := c.u32 24, rca := c.s16 28, angw := c.u16 30, vpol := c.u32 32, memc := c.u8 36, twmask := c.u8 37, confel := c.u8 38 } →
    Admits c s [.config, .standby, .deblocked, .safeStop, .blockedFault, .factoryTest] [.active, .standby] →
    mprOk s = true →
    Inline c 40 →
    c.u8 0 = 0 →
    c.u8 1 < 96 →
    1 ≤ e.type →
    e.type ≤ 12 →
    c.u8 3 < 16 →
    e.pt < 16 →
    e.qsel < 32 →
    e.tmode ≤ 8 →
    e.tmode = 0 ∨ e.type ≤ 4 →
    e.rmode < 3 →
    e.rmode ≠ 2 ∨ e.tmode = 0 ∨ 4 < e.tmode →
    e.fast = false ∨ ([1, 2, 10, 11].contains e.type = true ∧ e.tmode = 0) →
    (e.type = 12 ∧ e.pu = 0) ∨ (e.type ≠ 12 ∧ 1 ≤ e.pu ∧ ([7, 8, 9].contains e.type = true ∨ e.pu < 2 ^ 31)) →
    8192 ≤ e.dr →
    e.dr ≤ 24576 →
    1 ≤ e.nconf →
    e.nconf ≤ 16 →
    e.blkel < 96 ∨ e.blkel = 0xFF →
    e.blkel ≠ c.u8 1 →
    e.td ≤ 600000000 →
    167772 ≤ e.tms →
    e.tms ≤ 1677721600 →
    e.trst ≤ 60000000 →
    e.rca.natAbs ≤ 18000 →
    1000 ≤ e.angw →
    e.angw ≤ 9000 →
    e.vpol ≤ 2 ^ 28 →
    e.memc ≤ 10 →
    e.twmask < 16 →
    e.confel < 96 ∨ e.confel = 0xFF →
    e.confel ≠ c.u8 1 →
    c.rsv 39 1 = true →
    setHeld s 6 = false →
    (!kindFits e.type (tget ({} : PtCfg) (protShadow s).pt e.pt).kind || (e.tmode == 8 && (protShadow s).curve.isEmpty) || fastOnSv e (tget ({} : PtCfg) (protShadow s).pt e.pt)) = true →
    exec (.protElementConfig c) s = .next (answer 0x0B01 c .conflict [] s)) ∧
  (∀ (c : Cmd) (s u : State) (e : ElCfg),
    e = { type := c.u8 2, on := bit (c.u8 3) 0, fast := bit (c.u8 3) 1, rev := bit (c.u8 3) 2, ndFall := bit (c.u8 3) 3, pt := c.u8 4, qsel := c.u8 5, tmode := c.u8 6, rmode := c.u8 7, pu := c.u32 8, dr := c.u16 12, nconf := c.u8 14, blkel := c.u8 15, td := c.u32 16, tms := c.u32 20, trst := c.u32 24, rca := c.s16 28, angw := c.u16 30, vpol := c.u32 32, memc := c.u8 36, twmask := c.u8 37, confel := c.u8 38 } →
    Admits c s [.config, .standby, .deblocked, .safeStop, .blockedFault, .factoryTest] [.active, .standby] →
    mprOk s = true →
    Inline c 40 →
    c.u8 0 = 0 →
    c.u8 1 < 96 →
    1 ≤ e.type →
    e.type ≤ 12 →
    c.u8 3 < 16 →
    e.pt < 16 →
    e.qsel < 32 →
    e.tmode ≤ 8 →
    e.tmode = 0 ∨ e.type ≤ 4 →
    e.rmode < 3 →
    e.rmode ≠ 2 ∨ e.tmode = 0 ∨ 4 < e.tmode →
    e.fast = false ∨ ([1, 2, 10, 11].contains e.type = true ∧ e.tmode = 0) →
    (e.type = 12 ∧ e.pu = 0) ∨ (e.type ≠ 12 ∧ 1 ≤ e.pu ∧ ([7, 8, 9].contains e.type = true ∨ e.pu < 2 ^ 31)) →
    8192 ≤ e.dr →
    e.dr ≤ 24576 →
    1 ≤ e.nconf →
    e.nconf ≤ 16 →
    e.blkel < 96 ∨ e.blkel = 0xFF →
    e.blkel ≠ c.u8 1 →
    e.td ≤ 600000000 →
    167772 ≤ e.tms →
    e.tms ≤ 1677721600 →
    e.trst ≤ 60000000 →
    e.rca.natAbs ≤ 18000 →
    1000 ≤ e.angw →
    e.angw ≤ 9000 →
    e.vpol ≤ 2 ^ 28 →
    e.memc ≤ 10 →
    e.twmask < 16 →
    e.confel < 96 ∨ e.confel = 0xFF →
    e.confel ≠ c.u8 1 →
    c.rsv 39 1 = true →
    setHeld s 6 = false →
    u = protStage c.params (fun p => { p with el := tset p.el (c.u8 1) e }) s →
    (!kindFits e.type (tget ({} : PtCfg) (protShadow s).pt e.pt).kind || (e.tmode == 8 && (protShadow s).curve.isEmpty) || fastOnSv e (tget ({} : PtCfg) (protShadow s).pt e.pt)) = false →
    24 < fastCount (protShadow u) →
    exec (.protElementConfig c) s = .next (answer 0x0B01 c .exhausted [] s)) ∧
  (∀ (c : Cmd) (s : State) (l : List (Nat × Nat)),
    l = (List.range 64).map (fun i => (c.u32 (8 * i), c.u32 (8 * i + 4))) →
    Admits c s [.config, .standby, .deblocked, .safeStop, .blockedFault, .factoryTest] [.active, .standby] →
    mprOk s = true →
    External c (fun n => n == 512) →
    setHeld s 6 = false →
    2 ^ 24 ≤ c.u32 0 →
    l.all (fun p => 1 ≤ p.2 && p.2 ≤ 100000000) = true →
    pairsMeet (fun a b => a.1 < b.1 && b.2 ≤ a.2) l = true →
    exec (.protCurveLoad c) s = .next (answer 0x0B02 c .ok (le 4 (c.u32 0)) (protStage c.params (fun p => { p with curve := l }) s))) ∧
  (∀ (c : Cmd) (s : State) (k : TripCfg),
    k = { on := bit (c.u8 1) 0, latch := bit (c.u8 1) 1, sup := bit (c.u8 1) 2, tmin := c.u16 2, op := rd c.params 4 12, st := rd c.params 16 12, alarms := c.u8 28, ttcs := c.u16 32, susp := c.u16 34 } →
    Admits c s [.config, .standby, .deblocked, .safeStop, .blockedFault, .factoryTest] [.active, .standby] →
    mprOk s = true →
    Inline c 36 →
    setHeld s 6 = false →
    c.u8 0 < 16 →
    c.u8 1 < 8 →
    k.tmin ≤ 10000 →
    k.alarms < 4 →
    20 ≤ k.ttcs →
    k.ttcs ≤ 10000 →
    k.susp ≤ 10000 →
    c.rsv 29 3 = true →
    exec (.protTripMap c) s = .next (answer 0x0B03 c .ok [] (protStage c.params (fun p => { p with trip := tset p.trip (c.u8 0) k }) s))) ∧
  (∀ (c : Cmd) (s : State) (k : TripCfg),
    k = { on := bit (c.u8 1) 0, latch := bit (c.u8 1) 1, sup := bit (c.u8 1) 2, tmin := c.u16 2, op := rd c.params 4 12, st := rd c.params 16 12, alarms := c.u8 28, ttcs := c.u16 32, susp := c.u16 34 } →
    Admits c s [.config, .standby, .deblocked, .safeStop, .blockedFault, .factoryTest] [.active, .standby] →
    mprOk s = true →
    Inline c 36 →
    setHeld s 6 = true →
    c.u8 0 < 16 →
    c.u8 1 < 8 →
    k.tmin ≤ 10000 →
    k.alarms < 4 →
    20 ≤ k.ttcs →
    k.ttcs ≤ 10000 →
    k.susp ≤ 10000 →
    c.rsv 29 3 = true →
    exec (.protTripMap c) s = .next (answer 0x0B03 c .busy [] s)) ∧
  (∀ (c : Cmd) (s : State),
    Serving s →
    Inline c 4 →
    c.mb ≠ 0 →
    mprOk s = true →
    c.rsv 2 2 = true →
    ((List.range 16).filter (bit (c.u16 0))).any (fun o => (tripWant s (tripCfg s o)).1) = true →
    exec (.protTripReset c) s = .next (answer 0x0B04 c .tripActive [] s)) ∧
  (∀ (c : Cmd) (s : State),
    Serving s →
    Inline c 4 →
    c.mb ≠ 0 →
    mprOk s = true →
    c.rsv 2 2 = true →
    ((List.range 16).filter (bit (c.u16 0))).any (fun o => (tripWant s (tripCfg s o)).1) = false →
    ((List.range 16).filter (bit (c.u16 0))).any (fun o => !(tripGet s o).latch) = true →
    exec (.protTripReset c) s = .next (answer 0x0B04 c .conflict [] s)) ∧
  (∀ (c : Cmd) (s v : State),
    Serving s →
    Inline c 4 →
    c.mb ≠ 0 →
    mprOk s = true →
    c.rsv 2 2 = true →
    ((List.range 16).filter (bit (c.u16 0))).any (fun o => (tripWant s (tripCfg s o)).1) = false →
    ((List.range 16).filter (bit (c.u16 0))).any (fun o => !(tripGet s o).latch) = false →
    v = recLook (base s 0).val (tripsStep (((List.range 16).filter (bit (c.u16 0))).foldl (fun t o => tripUpd o (fun x => { x with latch := false }) t) s)) →
    exec (.protTripReset c) s = .next (answer 0x0B04 c .ok (le 2 (maskOf ((List.range 16).filter (fun o => (tripGet v o).latch)))) v)) ∧
  (∀ (c : Cmd) (s : State) (k : RecCfg),
    k = { store := c.u32 0, pre := c.u16 4, post := c.u16 6, maxLen := c.u16 8, retrig := bit (c.u8 10) 0, excess := bit (c.u8 10) 1, stT := rd c.params 12 12, opT := rd c.params 24 12, tripT := c.u16 36, station := (c.params.drop 40).take 32, an := (List.range (c.u8 11)).map (fun j => ⟨c.u8 (72 + 16 * j), c.u8 (73 + 16 * j), c.u32 (74 + 16 * j), (c.params.drop (80 + 16 * j)).take 4⟩) } →
    Admits c s [.config, .standby, .deblocked, .safeStop, .blockedFault, .factoryTest] [.active, .standby] →
    mprOk s = true →
    External c (fun n => 72 ≤ n && n ≤ 72 + 16 * 32 && (n - 72) % 16 == 0 && (32 < c.u8 11 || n == 72 + 16 * c.u8 11)) →
    c.u8 11 ≤ 32 →
    16 ≤ k.store →
    k.store ≤ 1024 →
    k.pre ≤ 5000 →
    10 ≤ k.post →
    k.post ≤ 10000 →
    k.pre + k.post ≤ k.maxLen →
    k.maxLen ≤ 60000 →
    c.u8 10 < 4 →
    c.rsv 38 2 = true →
    asciiOk k.station = true →
    (List.range (c.u8 11)).all (fun j => c.u8 (72 + 16 * j) < 16 && c.u8 (73 + 16 * j) < 8 && c.rsv (78 + 16 * j) 2 && c.rsv (84 + 16 * j) 4) = true →
    setHeld s 6 = false →
    k.store ≤ dramLeft s →
    exec (.protRecordConfig c) s = .next (answer 0x0B05 c .ok (le 4 (8000 * sampleBytes k)) (protStage c.params (fun p => { p with recs := k }) s))) ∧
  (∀ (c : Cmd) (s : State) (k : RecCfg),
    k = { store := c.u32 0, pre := c.u16 4, post := c.u16 6, maxLen := c.u16 8, retrig := bit (c.u8 10) 0, excess := bit (c.u8 10) 1, stT := rd c.params 12 12, opT := rd c.params 24 12, tripT := c.u16 36, station := (c.params.drop 40).take 32, an := (List.range (c.u8 11)).map (fun j => ⟨c.u8 (72 + 16 * j), c.u8 (73 + 16 * j), c.u32 (74 + 16 * j), (c.params.drop (80 + 16 * j)).take 4⟩) } →
    Admits c s [.config, .standby, .deblocked, .safeStop, .blockedFault, .factoryTest] [.active, .standby] →
    mprOk s = true →
    External c (fun n => 72 ≤ n && n ≤ 72 + 16 * 32 && (n - 72) % 16 == 0 && (32 < c.u8 11 || n == 72 + 16 * c.u8 11)) →
    c.u8 11 ≤ 32 →
    16 ≤ k.store →
    k.store ≤ 1024 →
    k.pre ≤ 5000 →
    10 ≤ k.post →
    k.post ≤ 10000 →
    k.pre + k.post ≤ k.maxLen →
    k.maxLen ≤ 60000 →
    c.u8 10 < 4 →
    c.rsv 38 2 = true →
    asciiOk k.station = true →
    (List.range (c.u8 11)).all (fun j => c.u8 (72 + 16 * j) < 16 && c.u8 (73 + 16 * j) < 8 && c.rsv (78 + 16 * j) 2 && c.rsv (84 + 16 * j) 4) = true →
    setHeld s 6 = false →
    dramLeft s < k.store →
    exec (.protRecordConfig c) s = .next (answer 0x0B05 c .exhausted [] s)) ∧
  (∀ (c : Cmd) (s : State) (r : DRec) (w : Bytes),
    Serving s →
    Inline c 20 →
    c.mb ≠ 0 →
    mprOk s = true →
    c.u8 2 < 3 →
    c.rsv 3 1 = true →
    c.u64 8 % 64 = 0 →
    c.u64 8 ≠ 0 →
    recFind s (c.u16 0) = some r →
    held s (.record r.num) = false →
    c.u32 4 ≤ (exportPart (c.u8 2) s r).length →
    w = ((exportPart (c.u8 2) s r).drop (c.u32 4)).take (c.u32 16) →
    w.length ≤ 1048576 →
    exec (.protRecordExport c) s = .next (answer 0x0B06 c .ok (le 4 (exportPart (c.u8 2) s r).length ++ le 4 w.length ++ le 4 (crc32c w).toNat ++ le 2 r.num) (putBuf (c.u64 8) w s))) ∧
  (∀ (c : Cmd) (s : State) (r : DRec) (w : Bytes),
    Serving s →
    Inline c 20 →
    c.mb ≠ 0 →
    mprOk s = true →
    c.u8 2 < 3 →
    c.rsv 3 1 = true →
    c.u64 8 % 64 = 0 →
    c.u64 8 ≠ 0 →
    recFind s (c.u16 0) = some r →
    held s (.record r.num) = false →
    c.u32 4 ≤ (exportPart (c.u8 2) s r).length →
    w = ((exportPart (c.u8 2) s r).drop (c.u32 4)).take (c.u32 16) →
    1048576 < w.length →
    pendCount s c.mb < 8 →
    exec (.protRecordExport c) s = .next (answer 0x0B06 c .pending [] (pendAs 0x0B06 c [.record r.num] [.config, .standby, .deblocked, .safeStop, .blockedFault, .replay, .factoryTest] r.num (some (.ok, (le 4 (exportPart (c.u8 2) s r).length ++ le 4 w.length ++ le 4 (crc32c w).toNat ++ le 2 r.num))) (putBuf (c.u64 8) w s)))) ∧
  (∀ (c : Cmd) (s : State) (r : DRec),
    Serving s →
    Inline c 20 →
    c.mb ≠ 0 →
    mprOk s = true →
    c.u8 2 < 3 →
    c.rsv 3 1 = true →
    c.u64 8 % 64 = 0 →
    c.u64 8 ≠ 0 →
    recFind s (c.u16 0) = some r →
    held s (.record r.num) = false →
    (exportPart (c.u8 2) s r).length < c.u32 4 →
    exec (.protRecordExport c) s = .next (answer 0x0B06 c .conflict [] s)) ∧
  (∀ (c : Cmd) (s : State) (r : DRec),
    Serving s →
    Inline c 20 →
    c.mb ≠ 0 →
    mprOk s = true →
    c.u8 2 < 3 →
    c.rsv 3 1 = true →
    c.u64 8 % 64 = 0 →
    c.u64 8 ≠ 0 →
    recFind s (c.u16 0) = some r →
    held s (.record r.num) = true →
    exec (.protRecordExport c) s = .next (answer 0x0B06 c .busy [] s)) ∧
  (∀ (c : Cmd) (s : State),
    Serving s →
    Inline c 20 →
    c.mb ≠ 0 →
    mprOk s = true →
    c.u8 2 < 3 →
    c.rsv 3 1 = true →
    c.u64 8 % 64 = 0 →
    c.u64 8 ≠ 0 →
    recFind s (c.u16 0) = none →
    exec (.protRecordExport c) s = .next (answer 0x0B06 c .conflict [] s)) ∧
  (∀ (c : Cmd) (s v : State),
    Serving s →
    Inline c 20 →
    c.mb ≠ 0 →
    mprOk s = true →
    c.u8 2 = 3 →
    c.rsv 3 1 = true →
    c.u64 8 % 64 = 0 →
    v = recTrigger 0x300 true (base s 0).val s →
    (decide (v.prot.recs.length = s.prot.recs.length) && v.prot.recs.getLast?.elim true (·.closed)) = false →
    exec (.protRecordExport c) s = .next (answer 0x0B06 c .ok (le 12 0 ++ le 2 (v.prot.recs.getLastD { num := 0 }).num) v)) ∧
  (∀ (c : Cmd) (s v : State),
    Serving s →
    Inline c 20 →
    c.mb ≠ 0 →
    mprOk s = true →
    c.u8 2 = 3 →
    c.rsv 3 1 = true →
    c.u64 8 % 64 = 0 →
    v = recTrigger 0x300 true (base s 0).val s →
    (decide (v.prot.recs.length = s.prot.recs.length) && v.prot.recs.getLast?.elim true (·.closed)) = true →
    exec (.protRecordExport c) s = .next (answer 0x0B06 c .conflict [] v)) ∧
  (∀ (c : Cmd) (s : State),
    Serving s →
    Inline c 12 →
    c.mb ≠ 0 →
    mprOk s = true →
    c.rsv 1 3 = true →
    c.u64 4 % 64 = 0 →
    c.u8 0 < 5 →
    c.u64 4 = 0 ∨ c.u8 0 = 0 →
    exec (.protStatus c) s = .next (answer 0x0B07 c .ok (le 1 (if s.prot.stopped then 2 else b2n s.prot.running) ++ le 1 (fastCount s.prot.act) ++ le 2 ((s.prot.el.filter (fun e => e.2.state == .started)).length) ++ le 2 ((s.prot.el.filter (fun e => e.2.state == .operated)).length) ++ le 2 ((s.prot.el.filter (fun e => e.2.state == .unavailable)).length) ++ le 2 (s.prot.trip.filter (fun e => e.2.latch)).length ++ le 2 (s.prot.trip.filter (fun e => e.2.coil)).length ++ le 2 (s.prot.recs.filter (·.closed)).length ++ le 2 (min 65535 s.prot.lostT) ++ le 4 s.tick.index) s)) ∧
  (∀ (c : Cmd) (s : State),
    Serving s →
    Inline c 12 →
    c.mb ≠ 0 →
    mprOk s = true →
    c.rsv 1 3 = true →
    c.u64 4 % 64 = 0 →
    c.u8 0 = 1 →
    c.u64 4 ≠ 0 →
    exec (.protStatus c) s = .next (answer 0x0B07 c .ok (le 1 (if s.prot.stopped then 2 else b2n s.prot.running) ++ le 1 (fastCount s.prot.act) ++ le 2 ((s.prot.el.filter (fun e => e.2.state == .started)).length) ++ le 2 ((s.prot.el.filter (fun e => e.2.state == .operated)).length) ++ le 2 ((s.prot.el.filter (fun e => e.2.state == .unavailable)).length) ++ le 2 (s.prot.trip.filter (fun e => e.2.latch)).length ++ le 2 (s.prot.trip.filter (fun e => e.2.coil)).length ++ le 2 (s.prot.recs.filter (·.closed)).length ++ le 2 (min 65535 s.prot.lostT) ++ le 4 s.tick.index) (putBuf (c.u64 4) (withCrc ((List.range 96).flatMap (fun n => le 1 (elGet s n).state.code ++ le 1 (elCfg s n).type ++ le 1 (elGet s n).phases ++ le 1 0 ++ leS 4 (satS 32 ((elGet s n).integ / (2 ^ 40 : Nat))) ++ leS 4 (elGet s n).qty ++ le 4 (elGet s n).timer))) s))) ∧
  (∀ (c : Cmd) (s : State),
    Serving s →
    Inline c 12 →
    c.mb ≠ 0 →
    mprOk s = true →
    c.rsv 1 3 = true →
    c.u64 4 % 64 = 0 →
    c.u8 0 = 2 →
    c.u64 4 ≠ 0 →
    exec (.protStatus c) s = .next (answer 0x0B07 c .ok (le 1 (if s.prot.stopped then 2 else b2n s.prot.running) ++ le 1 (fastCount s.prot.act) ++ le 2 ((s.prot.el.filter (fun e => e.2.state == .started)).length) ++ le 2 ((s.prot.el.filter (fun e => e.2.state == .operated)).length) ++ le 2 ((s.prot.el.filter (fun e => e.2.state == .unavailable)).length) ++ le 2 (s.prot.trip.filter (fun e => e.2.latch)).length ++ le 2 (s.prot.trip.filter (fun e => e.2.coil)).length ++ le 2 (s.prot.recs.filter (·.closed)).length ++ le 2 (min 65535 s.prot.lostT) ++ le 4 s.tick.index) (putBuf (c.u64 4) (withCrc ((List.range 16).flatMap (fun o => le 1 (b2n (tripGet s o).level) ++ le 1 (b2n (tripGet s o).latch) ++ le 1 (b2n (tripGet s o).coil) ++ le 1 0 ++ le 4 (tripGet s o).rises ++ le 4 (tripGet s o).riseTick ++ le 4 (tminLeft s o)))) s))) ∧
  (∀ (c : Cmd) (s : State),
    Serving s →
    Inline c 12 →
    c.mb ≠ 0 →
    mprOk s = true →
    c.rsv 1 3 = true →
    c.u64 4 % 64 = 0 →
    c.u8 0 = 3 →
    c.u64 4 ≠ 0 →
    exec (.protStatus c) s = .next (answer 0x0B07 c .ok (le 1 (if s.prot.stopped then 2 else b2n s.prot.running) ++ le 1 (fastCount s.prot.act) ++ le 2 ((s.prot.el.filter (fun e => e.2.state == .started)).length) ++ le 2 ((s.prot.el.filter (fun e => e.2.state == .operated)).length) ++ le 2 ((s.prot.el.filter (fun e => e.2.state == .unavailable)).length) ++ le 2 (s.prot.trip.filter (fun e => e.2.latch)).length ++ le 2 (s.prot.trip.filter (fun e => e.2.coil)).length ++ le 2 (s.prot.recs.filter (·.closed)).length ++ le 2 (min 65535 s.prot.lostT) ++ le 4 s.tick.index) (putBuf (c.u64 4) (withCrc ((List.range 64).flatMap (fun n => s.prot.recs[n]?.elim (List.replicate 32 0) DRec.header))) s))) ∧
  (∀ (c : Cmd) (s : State),
    Serving s →
    Inline c 12 →
    c.mb ≠ 0 →
    mprOk s = true →
    c.rsv 1 3 = true →
    c.u64 4 % 64 = 0 →
    c.u8 0 = 4 →
    c.u64 4 ≠ 0 →
    exec (.protStatus c) s = .next (answer 0x0B07 c .ok (le 1 (if s.prot.stopped then 2 else b2n s.prot.running) ++ le 1 (fastCount s.prot.act) ++ le 2 ((s.prot.el.filter (fun e => e.2.state == .started)).length) ++ le 2 ((s.prot.el.filter (fun e => e.2.state == .operated)).length) ++ le 2 ((s.prot.el.filter (fun e => e.2.state == .unavailable)).length) ++ le 2 (s.prot.trip.filter (fun e => e.2.latch)).length ++ le 2 (s.prot.trip.filter (fun e => e.2.coil)).length ++ le 2 (s.prot.recs.filter (·.closed)).length ++ le 2 (min 65535 s.prot.lostT) ++ le 4 s.tick.index) (putBuf (c.u64 4) (withCrc ((List.range 256).flatMap (fun n => s.prot.log[n]?.elim (List.replicate 32 0) (fun l => l.time.bytes ++ le 1 l.inst ++ le 1 l.type ++ le 1 l.phases ++ le 1 0 ++ le 2 l.outs ++ le 2 0 ++ le 4 l.qty ++ le 8 l.tick)))) s))) ∧
  (∀ (c : Cmd) (s : State),
    Serving s →
    c.mb ≠ 0 →
    Inline c 40 →
    mprOk s = false →
    exec (.protElementConfig c) s = .next (answer 0x0B01 c .notFitted [] s)) ∧
  (∀ (c : Cmd) (s : State),
    Serving s →
    c.mb ≠ 0 →
    External c (fun n => n == 512) →
    mprOk s = false →
    exec (.protCurveLoad c) s = .next (answer 0x0B02 c .notFitted [] s)) ∧
  (∀ (c : Cmd) (s : State),
    Serving s →
    c.mb ≠ 0 →
    Inline c 36 →
    mprOk s = false →
    exec (.protTripMap c) s = .next (answer 0x0B03 c .notFitted [] s)) ∧
  (∀ (c : Cmd) (s : State),
    Serving s →
    c.mb ≠ 0 →
    Inline c 4 →
    mprOk s = false →
    exec (.protTripReset c) s = .next (answer 0x0B04 c .notFitted [] s)) ∧
  (∀ (c : Cmd) (s : State),
    Serving s →
    c.mb ≠ 0 →
    External c (fun n => 72 ≤ n && n ≤ 72 + 16 * 32 && (n - 72) % 16 == 0 && (32 < c.u8 11 || n == 72 + 16 * c.u8 11)) →
    mprOk s = false →
    exec (.protRecordConfig c) s = .next (answer 0x0B05 c .notFitted [] s)) ∧
  (∀ (c : Cmd) (s : State),
    Serving s →
    c.mb ≠ 0 →
    Inline c 20 →
    mprOk s = false →
    exec (.protRecordExport c) s = .next (answer 0x0B06 c .notFitted [] s)) ∧
  (∀ (c : Cmd) (s : State),
    Serving s →
    c.mb ≠ 0 →
    Inline c 12 →
    mprOk s = false →
    exec (.protStatus c) s = .next (answer 0x0B07 c .notFitted [] s))

/-- A running engine derives its points and evaluates its slow elements at a slow cycle, its FAST elements and the confirmations of
travelling-wave elements at a fast cycle, each in its order, then the outputs and the record; a cycle already served, or an engine that does
not run, changes nothing. A travelling-wave signal is captured from its channel's crossing and, where the engine runs, meets the elements of
the channel. TMIN, TTCS and the end of a record act once, else nothing changes. -/
def Obligations.ProtectionCyclesEvaluateAndTrip : Prop :=
  (∀ (k : Nat) (t : Word16) (b : Bool) (s : State),
    protRuns s = false ∨ s.prot.slowK.any (fun j => decide (k ≤ j)) = true →
    exec (.protSlowCycle k t b) s = .next s) ∧
  (∀ (k : Nat) (t : Word16) (b : Bool) (s u : State),
    u = s.onProt (fun p => { p with slowK := some k, tcs := t.toNat, pt := (List.range 16).filterMap (fun i => if (ptCfg s i).kind = 0 then none else some (i, ptStep s (ptCfg s i) (k * 125000 * 2 ^ 32) (ptGet s i))) }) →
    protRuns s = true →
    s.prot.slowK.any (fun j => decide (k ≤ j)) = false →
    exec (.protSlowCycle k t b) s = .next (recStep b (k * 125000 * 2 ^ 32) (tripsStep (((s.prot.act.el.map (·.1)).filter (· < 96)).foldl (fun w n => if (elCfg s n).fast then w else if (elCfg s n).type = 12 then twDrop n s w else elTake n (k * 125000 * 2 ^ 32) (elNext u.prot.act.curve (elCfg s n) (slowRead u (elCfg s n) (elGet u n)).1 (isBlocked s (elCfg s n)) true 125 { elGet u n with memV := (slowRead u (elCfg s n) (elGet u n)).2 }) w) u)))) ∧
  (∀ (k : Nat) (s : State),
    protRuns s = false ∨ s.prot.fastK = some k →
    exec (.protFastCycle k) s = .next s) ∧
  (∀ (k : Nat) (s : State),
    protRuns s = true →
    s.prot.fastK ≠ some k →
    exec (.protFastCycle k) s = .next ((recLook (k * 1000 * 2 ^ 32) (tripsStep (((s.prot.act.el.map (·.1)).filter (· < 96)).foldl (fun w n => if (elCfg s n).type = 12 then twConfirm s n (k * 1000 * 2 ^ 32) w else if !(elCfg s n).fast then w else elTake n (k * 1000 * 2 ^ 32) (elNext [] (elCfg s n) (fastRead s (elCfg s n) (fastConf (elCfg s n) (fastPlaces s (elCfg s n)) (elGet s n).conf)) (isBlocked s (elCfg s n)) false 1 { elGet s n with conf := (fastConf (elCfg s n) (fastPlaces s (elCfg s n)) (elGet s n).conf) }) w) s))).onProt (fun p => { p with fastK := some k, seen := s.meas.chans.map (fun x => (x.1, x.2.at_ + 1)) }))) ∧
  (∀ (s : State),
    twWaiting s = [] →
    exec .twElementTrigger s = .next s) ∧
  (∀ (ch : Nat) (l : List Nat) (s : State),
    twWaiting s = ch :: l →
    protRuns s = true →
    exec .twElementTrigger s = .next (twElements ch (cdcUpd 3 6 ch (fun x => x.capture.close) s))) ∧
  (∀ (ch n : Nat) (l : List Nat) (e : ElCfg) (s : State),
    twWaiting s = ch :: l →
    protRuns s = true →
    s.prot.act.el = [(n, e)] →
    n < 96 →
    e.type = 12 →
    bit e.twmask ch = true →
    e.on = true →
    (acqGet s ch).state = .armed →
    ch < 4 →
    (elGet s n).state = .idle →
    e.confel = 0xFF →
    e.blkel = 0xFF →
    exec .twElementTrigger s = .next (recLook (base s 0).val (tripsStep (elTake n (base s 0).val { elGet s n with state := .operated, timer := 0 } (cdcUpd 3 6 ch (fun x => x.capture.close) s))))) ∧
  (∀ (ch : Nat) (l : List Nat) (s : State),
    twWaiting s = ch :: l →
    protRuns s = false →
    exec .twElementTrigger s = .next (cdcUpd 3 6 ch (fun x => x.capture.close) s)) ∧
  (∀ (o : Fin 16) (s : State),
    (tripGet s o).tmin = true →
    exec (.tripTminExpiry o) s = .next (recLook (base s 0).val (tripStep o (tripUpd o (fun x => { x with tmin := false }) s)))) ∧
  (∀ (o : Fin 16) (s : State),
    (tripGet s o).tmin = false →
    exec (.tripTminExpiry o) s = .next s) ∧
  (∀ (o : Fin 16) (s : State),
    (tripCfg s o).sup = true →
    s.prot.stopped = false →
    (tripGet s o).level = false →
    (tripGet s o).fallUs.all (fun f => decide (f + ((tripCfg s o).susp + (tripCfg s o).ttcs) * 1000 ≤ s.nowUs)) = true →
    (tripGet s o).coil = false →
    exec (.coilSupervisionExpiry o false) s = .next (recLook (base s 0).val (tripsStep (protEvent 0x05 .contained o [] (tripUpd o (fun x => { x with coil := true }) s))))) ∧
  (∀ (o : Fin 16) (s : State),
    (tripCfg s o).sup = true →
    s.prot.stopped = false →
    (tripGet s o).level = false →
    (tripGet s o).fallUs.all (fun f => decide (f + ((tripCfg s o).susp + (tripCfg s o).ttcs) * 1000 ≤ s.nowUs)) = true →
    (tripGet s o).coil = true →
    exec (.coilSupervisionExpiry o true) s = .next (recLook (base s 0).val (tripsStep (protEvent 0x06 .notice o [] (tripUpd o (fun x => { x with coil := false }) s))))) ∧
  (∀ (o : Fin 16) (b : Bool) (s : State),
    (tripCfg s o).sup = false ∨ s.prot.stopped = true ∨ (tripGet s o).level = true ∨ (tripGet s o).fallUs.any (fun f => decide (s.nowUs < f + ((tripCfg s o).susp + (tripCfg s o).ttcs) * 1000)) = true ∨ (tripGet s o).coil = !b →
    exec (.coilSupervisionExpiry o b) s = .next s) ∧
  (∀ (l : List DRec) (r : DRec) (s : State),
    s.prot.recs = l ++ [r] →
    r.closed = false →
    r.left = 0 →
    exec .protRecordClose s = .next (protEvent 0x07 .notice 0 [r.num, recFlags { r with closed := true, trunc := false }] (s.onProt (fun p => { p with recs := l ++ [{ r with closed := true, trunc := false }] })))) ∧
  (∀ (l : List DRec) (r : DRec) (s : State),
    s.prot.recs = l ++ [r] →
    r.closed = false →
    r.left ≠ 0 →
    r.cfg.maxLen * 8 ≤ r.samples.length →
    exec .protRecordClose s = .next (protEvent 0x07 .notice 0 [r.num, recFlags { r with closed := true, trunc := true }] (s.onProt (fun p => { p with recs := l ++ [{ r with closed := true, trunc := true }] })))) ∧
  (∀ (l : List DRec) (r : DRec) (s : State),
    s.prot.recs = l ++ [r] →
    r.closed = true ∨ (r.left ≠ 0 ∧ r.samples.length < r.cfg.maxLen * 8) →
    exec .protRecordClose s = .next s) ∧
  (∀ (s : State),
    s.prot.recs = [] →
    exec .protRecordClose s = .next s)

/-- TIME_BASE_SET of base 0 steps station time to the value given or by the difference given and answers the step in ns and the new time, the
quality UNSET, RESTORED, FREE and the holdovers becoming FREE with the given bound while the discipline is not LOCKED; it answers CONFLICT
where the discipline is on and the step is no whole second, JUMP_REFUSED where a large step lacks its flag, both but for UNSET and RESTORED.
Of base 4 it sets TAI-UTC and the leap. TIME_DISCIPLINE_CONFIG stores its parameters and starts, ends or goes on with the discipline, and
answers CONFLICT where it is asked for while time is UNSET. TIME_OUTPUT_CONFIG, TIME_STAMP_CONFIG and TIME_PTP_CONFIG store theirs, the last
CONFLICT for a port not enabled. TIME_STATUS reads, and moves stamps to the buffer it names. -/
def Obligations.TimeCommandsSetTheBasesAndOutputs : Prop :=
  (∀ (c : Cmd) (d : Int) (s v : State),
    d = (if bit (c.u8 1) 0 = true then rdS c.params 4 8 * (2 ^ 32 : Nat) else ((c.stamp 4).val : Int) - ((base s 0).val : Int)) →
    Serving s →
    c.mb ≠ 0 →
    Inline c 20 →
    c.u8 0 = 0 →
    c.u8 1 < 4 →
    c.rsv 2 2 = true →
    c.u32 16 ≤ 4000000000 →
    (bit (c.u8 1) 0 = true ∧ c.rsv 12 4 = true ∧ 0 ≤ (base s 0).val + d) ∨ (bit (c.u8 1) 0 = false ∧ c.stampOk 4 = true) →
    (s.time.qual = .unset ∨ s.time.qual = .restored) ∨ ((s.time.cfg.mode = false ∨ d % (secUnits : Nat) = 0) ∧ ((d.natAbs : Int) ≤ (s.time.cfg.stepMax * 2 ^ 32 : Nat) ∨ bit (c.u8 1) 1 = true)) →
    s.time.dstate ≠ .locked →
    v = setQual .free (c.u32 16) ((stepTime d 0 (s.onTime (fun x => { x with first := x.first || (x.cfg.mode && x.dstate != .refusing) }))).onTime (fun x => { x with b0 := c.u32 16, bSecs := 0 })) →
    exec (.timeBaseSet c) s = .next (answer 0x0C01 c .ok (leS 8 (roundDiv d (2 ^ 32)) ++ (stationNow v).bytes) v)) ∧
  (∀ (c : Cmd) (d : Int) (s v : State),
    d = (if bit (c.u8 1) 0 = true then rdS c.params 4 8 * (2 ^ 32 : Nat) else ((c.stamp 4).val : Int) - ((base s 0).val : Int)) →
    Serving s →
    c.mb ≠ 0 →
    Inline c 20 →
    c.u8 0 = 0 →
    c.u8 1 < 4 →
    c.rsv 2 2 = true →
    c.u32 16 ≤ 4000000000 →
    (bit (c.u8 1) 0 = true ∧ c.rsv 12 4 = true ∧ 0 ≤ (base s 0).val + d) ∨ (bit (c.u8 1) 0 = false ∧ c.stampOk 4 = true) →
    (s.time.qual = .unset ∨ s.time.qual = .restored) ∨ ((s.time.cfg.mode = false ∨ d % (secUnits : Nat) = 0) ∧ ((d.natAbs : Int) ≤ (s.time.cfg.stepMax * 2 ^ 32 : Nat) ∨ bit (c.u8 1) 1 = true)) →
    s.time.dstate = .locked →
    v = stepTime d 0 (s.onTime (fun x => { x with first := x.first || (x.cfg.mode && x.dstate != .refusing) })) →
    exec (.timeBaseSet c) s = .next (answer 0x0C01 c .ok (leS 8 (roundDiv d (2 ^ 32)) ++ (stationNow v).bytes) v)) ∧
  (∀ (c : Cmd) (d : Int) (s : State),
    d = (if bit (c.u8 1) 0 = true then rdS c.params 4 8 * (2 ^ 32 : Nat) else ((c.stamp 4).val : Int) - ((base s 0).val : Int)) →
    Serving s →
    c.mb ≠ 0 →
    Inline c 20 →
    c.u8 0 = 0 →
    c.u8 1 < 4 →
    c.rsv 2 2 = true →
    c.u32 16 ≤ 4000000000 →
    (bit (c.u8 1) 0 = true ∧ c.rsv 12 4 = true ∧ 0 ≤ (base s 0).val + d) ∨ (bit (c.u8 1) 0 = false ∧ c.stampOk 4 = true) →
    ¬(s.time.qual = .unset ∨ s.time.qual = .restored) →
    s.time.cfg.mode = true →
    d % (secUnits : Nat) ≠ 0 →
    exec (.timeBaseSet c) s = .next (answer 0x0C01 c .conflict [] s)) ∧
  (∀ (c : Cmd) (d : Int) (s : State),
    d = (if bit (c.u8 1) 0 = true then rdS c.params 4 8 * (2 ^ 32 : Nat) else ((c.stamp 4).val : Int) - ((base s 0).val : Int)) →
    Serving s →
    c.mb ≠ 0 →
    Inline c 20 →
    c.u8 0 = 0 →
    c.u8 1 < 4 →
    c.rsv 2 2 = true →
    c.u32 16 ≤ 4000000000 →
    (bit (c.u8 1) 0 = true ∧ c.rsv 12 4 = true ∧ 0 ≤ (base s 0).val + d) ∨ (bit (c.u8 1) 0 = false ∧ c.stampOk 4 = true) →
    ¬(s.time.qual = .unset ∨ s.time.qual = .restored) →
    s.time.cfg.mode = false ∨ d % (secUnits : Nat) = 0 →
    (s.time.cfg.stepMax * 2 ^ 32 : Nat) < (d.natAbs : Int) →
    bit (c.u8 1) 1 = false →
    exec (.timeBaseSet c) s = .next (answer 0x0C01 c .jumpRefused [] s)) ∧
  (∀ (c : Cmd) (s v : State),
    Serving s →
    c.mb ≠ 0 →
    Inline c 20 →
    c.u8 0 = 4 →
    c.u8 1 < 4 →
    c.rsv 2 2 = true →
    c.u32 16 ≤ 4000000000 →
    -1 ≤ c.s8 6 →
    c.s8 6 ≤ 1 →
    c.rsv 7 1 = true →
    c.rsv 14 2 = true →
    c.s16 4 ≠ s.time.taiUtc →
    v = timeEvent 0x07 [word32 (c.s16 4)] (s.onTime (fun t => { t with taiUtc := c.s16 4, utcValid := true, leap := if c.s8 6 = 0 then none else some (c.s8 6, rd c.params 8 6) })) →
    exec (.timeBaseSet c) s = .next (answer 0x0C01 c .ok (le 8 0 ++ (stationNow v).bytes) v)) ∧
  (∀ (c : Cmd) (s v : State),
    Serving s →
    c.mb ≠ 0 →
    Inline c 20 →
    c.u8 0 = 4 →
    c.u8 1 < 4 →
    c.rsv 2 2 = true →
    c.u32 16 ≤ 4000000000 →
    -1 ≤ c.s8 6 →
    c.s8 6 ≤ 1 →
    c.rsv 7 1 = true →
    c.rsv 14 2 = true →
    c.s16 4 = s.time.taiUtc →
    v = s.onTime (fun t => { t with taiUtc := c.s16 4, utcValid := true, leap := if c.s8 6 = 0 then none else some (c.s8 6, rd c.params 8 6) }) →
    exec (.timeBaseSet c) s = .next (answer 0x0C01 c .ok (le 8 0 ++ (stationNow v).bytes) v)) ∧
  (∀ (c : Cmd) (s : State) (k : DiscCfg),
    k = { mode := c.u8 0 == 1, falling := bit (c.u8 1) 1, linkTrack := bit (c.u8 1) 2, tc := c.u16 2, stepMax := c.u32 4, lockWin := c.u32 8, holdRate := c.u32 12, accLim := c.u32 16, ppsComp := c.s32 20 } →
    Serving s →
    c.mb ≠ 0 →
    Inline c 24 →
    c.u8 0 < 2 →
    c.u8 1 < 8 →
    8 ≤ k.tc →
    k.tc ≤ 1024 →
    100 ≤ k.stepMax →
    k.stepMax ≤ 999999999 →
    10 ≤ k.lockWin →
    k.lockWin ≤ 100000 →
    1 ≤ k.holdRate →
    k.holdRate ≤ 100000 →
    100 ≤ k.accLim →
    k.accLim ≤ 1000000 →
    k.ppsComp.natAbs ≤ 100000 →
    c.u8 0 = 1 →
    timeUnset s = true →
    exec (.timeDisciplineConfig c) s = .next (answer 0x0C02 c .conflict [] s)) ∧
  (∀ (c : Cmd) (s t : State) (k : DiscCfg),
    k = { mode := c.u8 0 == 1, falling := bit (c.u8 1) 1, linkTrack := bit (c.u8 1) 2, tc := c.u16 2, stepMax := c.u32 4, lockWin := c.u32 8, holdRate := c.u32 12, accLim := c.u32 16, ppsComp := c.s32 20 } →
    Serving s →
    c.mb ≠ 0 →
    Inline c 24 →
    c.u8 0 < 2 →
    c.u8 1 < 8 →
    8 ≤ k.tc →
    k.tc ≤ 1024 →
    100 ≤ k.stepMax →
    k.stepMax ≤ 999999999 →
    10 ≤ k.lockWin →
    k.lockWin ≤ 100000 →
    1 ≤ k.holdRate →
    k.holdRate ≤ 100000 →
    100 ≤ k.accLim →
    k.accLim ≤ 1000000 →
    k.ppsComp.natAbs ≤ 100000 →
    c.u8 0 = 1 →
    timeUnset s = false →
    s.time.dstate = .off →
    followsTime s = false →
    t = requal (s.onTime (fun x => { x with cfg := k, dstate := .acquire, first := true, accept := false, servoI := 0, servoY := 0, ys := [], inWin := 0, outWin := 0, outs := [], goodRun := 0, theta := none })) →
    exec (.timeDisciplineConfig c) s = .next (answer 0x0C02 c .ok (le 1 t.time.dstate.code ++ le 1 t.time.qual.code) t)) ∧
  (∀ (c : Cmd) (s t : State) (k : DiscCfg),
    k = { mode := c.u8 0 == 1, falling := bit (c.u8 1) 1, linkTrack := bit (c.u8 1) 2, tc := c.u16 2, stepMax := c.u32 4, lockWin := c.u32 8, holdRate := c.u32 12, accLim := c.u32 16, ppsComp := c.s32 20 } →
    Serving s →
    c.mb ≠ 0 →
    Inline c 24 →
    c.u8 0 < 2 →
    c.u8 1 < 8 →
    8 ≤ k.tc →
    k.tc ≤ 1024 →
    100 ≤ k.stepMax →
    k.stepMax ≤ 999999999 →
    10 ≤ k.lockWin →
    k.lockWin ≤ 100000 →
    1 ≤ k.holdRate →
    k.holdRate ≤ 100000 →
    100 ≤ k.accLim →
    k.accLim ≤ 1000000 →
    k.ppsComp.natAbs ≤ 100000 →
    c.u8 0 = 0 →
    s.time.dstate ≠ .refusing →
    t = requal (s.onTime (fun x => { x with cfg := k, dstate := .off, first := false, accept := false, refused := false, theta := none })) →
    exec (.timeDisciplineConfig c) s = .next (answer 0x0C02 c .ok (le 1 t.time.dstate.code ++ le 1 t.time.qual.code) t)) ∧
  (∀ (c : Cmd) (s t : State) (k : DiscCfg),
    k = { mode := c.u8 0 == 1, falling := bit (c.u8 1) 1, linkTrack := bit (c.u8 1) 2, tc := c.u16 2, stepMax := c.u32 4, lockWin := c.u32 8, holdRate := c.u32 12, accLim := c.u32 16, ppsComp := c.s32 20 } →
    Serving s →
    c.mb ≠ 0 →
    Inline c 24 →
    c.u8 0 < 2 →
    c.u8 1 < 8 →
    8 ≤ k.tc →
    k.tc ≤ 1024 →
    100 ≤ k.stepMax →
    k.stepMax ≤ 999999999 →
    10 ≤ k.lockWin →
    k.lockWin ≤ 100000 →
    1 ≤ k.holdRate →
    k.holdRate ≤ 100000 →
    100 ≤ k.accLim →
    k.accLim ≤ 1000000 →
    k.ppsComp.natAbs ≤ 100000 →
    c.u8 0 = 0 →
    s.time.dstate = .refusing →
    t = requal (timeEvent 0x03 [word32 (theta8 s.time.lastTheta), Config.openCode 0x1003 3] (s.onTime (fun x => { x with cfg := k, dstate := .off, first := false, accept := false, refused := false, theta := none }))) →
    exec (.timeDisciplineConfig c) s = .next (answer 0x0C02 c .ok (le 1 t.time.dstate.code ++ le 1 t.time.qual.code) t)) ∧
  (∀ (c : Cmd) (s t : State) (k : DiscCfg),
    k = { mode := c.u8 0 == 1, falling := bit (c.u8 1) 1, linkTrack := bit (c.u8 1) 2, tc := c.u16 2, stepMax := c.u32 4, lockWin := c.u32 8, holdRate := c.u32 12, accLim := c.u32 16, ppsComp := c.s32 20 } →
    Serving s →
    c.mb ≠ 0 →
    Inline c 24 →
    c.u8 0 < 2 →
    c.u8 1 < 8 →
    8 ≤ k.tc →
    k.tc ≤ 1024 →
    100 ≤ k.stepMax →
    k.stepMax ≤ 999999999 →
    10 ≤ k.lockWin →
    k.lockWin ≤ 100000 →
    1 ≤ k.holdRate →
    k.holdRate ≤ 100000 →
    100 ≤ k.accLim →
    k.accLim ≤ 1000000 →
    k.ppsComp.natAbs ≤ 100000 →
    c.u8 0 = 1 →
    timeUnset s = false →
    s.time.dstate = .locked →
    t = s.onTime (fun x => { x with cfg := k }) →
    exec (.timeDisciplineConfig c) s = .next (answer 0x0C02 c .ok (le 1 t.time.dstate.code ++ le 1 t.time.qual.code) t)) ∧
  (∀ (c : Cmd) (s t : State) (k : DiscCfg),
    k = { mode := c.u8 0 == 1, falling := bit (c.u8 1) 1, linkTrack := bit (c.u8 1) 2, tc := c.u16 2, stepMax := c.u32 4, lockWin := c.u32 8, holdRate := c.u32 12, accLim := c.u32 16, ppsComp := c.s32 20 } →
    Serving s →
    c.mb ≠ 0 →
    Inline c 24 →
    c.u8 0 < 2 →
    c.u8 1 < 8 →
    8 ≤ k.tc →
    k.tc ≤ 1024 →
    100 ≤ k.stepMax →
    k.stepMax ≤ 999999999 →
    10 ≤ k.lockWin →
    k.lockWin ≤ 100000 →
    1 ≤ k.holdRate →
    k.holdRate ≤ 100000 →
    100 ≤ k.accLim →
    k.accLim ≤ 1000000 →
    k.ppsComp.natAbs ≤ 100000 →
    c.u8 0 = 1 →
    timeUnset s = false →
    bit (c.u8 1) 0 = true →
    s.time.dstate = .refusing →
    t = requal (s.onTime (fun x => { x with cfg := k, first := true, accept := true })) →
    exec (.timeDisciplineConfig c) s = .next (answer 0x0C02 c .ok (le 1 t.time.dstate.code ++ le 1 t.time.qual.code) t)) ∧
  (∀ (c : Cmd) (s t : State) (k : DiscCfg),
    k = { mode := c.u8 0 == 1, falling := bit (c.u8 1) 1, linkTrack := bit (c.u8 1) 2, tc := c.u16 2, stepMax := c.u32 4, lockWin := c.u32 8, holdRate := c.u32 12, accLim := c.u32 16, ppsComp := c.s32 20 } →
    Serving s →
    c.mb ≠ 0 →
    Inline c 24 →
    c.u8 0 < 2 →
    c.u8 1 < 8 →
    8 ≤ k.tc →
    k.tc ≤ 1024 →
    100 ≤ k.stepMax →
    k.stepMax ≤ 999999999 →
    10 ≤ k.lockWin →
    k.lockWin ≤ 100000 →
    1 ≤ k.holdRate →
    k.holdRate ≤ 100000 →
    100 ≤ k.accLim →
    k.accLim ≤ 1000000 →
    k.ppsComp.natAbs ≤ 100000 →
    c.u8 0 = 1 →
    timeUnset s = false →
    s.time.dstate ≠ .locked →
    s.time.dstate ≠ .off ∨ followsTime s = true →
    bit (c.u8 1) 0 = false ∨ s.time.dstate ≠ .refusing →
    t = requal (s.onTime (fun x => { x with cfg := k })) →
    exec (.timeDisciplineConfig c) s = .next (answer 0x0C02 c .ok (le 1 t.time.dstate.code ++ le 1 t.time.qual.code) t)) ∧
  (∀ (c : Cmd) (s : State) (k : TOutCfg),
    k = { on := bit (c.u8 1) 0, invert := bit (c.u8 1) 1, runFree := bit (c.u8 1) 2, suppress := bit (c.u8 1) 3, rate := c.u8 2, width := c.u32 4, offset := c.s32 8, localMin := c.s16 12 } →
    Serving s →
    c.mb ≠ 0 →
    Inline c 16 →
    c.u8 0 < 5 →
    c.u8 1 < 16 →
    (c.u8 0 = 4 ∧ 4 ≤ k.rate ∧ k.rate ≤ 7) ∨ (c.u8 0 ≠ 4 ∧ k.rate < 4) →
    100 ≤ k.width →
    k.width ≤ outPeriod (c.u8 0) k.rate / 2 →
    k.offset.natAbs ≤ 1000000 →
    -720 ≤ k.localMin →
    k.localMin ≤ 840 →
    k.localMin % 15 = 0 →
    c.rsv 3 1 = true →
    c.rsv 14 2 = true →
    exec (.timeOutputConfig c) s = .next (answer 0x0C04 c .ok (le 4 (outPeriod (c.u8 0) k.rate)) (s.onTime (fun t => { t with outs16 := tset t.outs16 (c.u8 0) k, pulse := if k.on then t.pulse else t.pulse.filter (· != c.u8 0) })))) ∧
  (∀ (c : Cmd) (s : State) (k : StampCfg),
    k = { on := bit (c.u8 1) 0, rise := bit (c.u8 1) 1, fall := bit (c.u8 1) 2, filter := c.u16 2, comp := c.s32 4 } →
    Serving s →
    c.mb ≠ 0 →
    Inline c 8 →
    c.u8 0 < 32 →
    c.u8 1 < 8 →
    k.filter ≤ 1000 →
    k.comp.natAbs ≤ 100000 →
    exec (.timeStampConfig c) s = .next (answer 0x0C05 c .ok (le 2 s.time.stamps.length) (s.onTime (fun t => { t with stampCfg := tset t.stampCfg (c.u8 0) k })))) ∧
  (∀ (c : Cmd) (s : State) (b : Nat),
    b = (if bit (c.u8 1) 0 = false ∨ portUp s (c.u8 0) = false then 0 else if (ptpGet s (c.u8 0)).on then (ptpGet s (c.u8 0)).state else 1) →
    Serving s →
    c.mb ≠ 0 →
    Inline c 12 →
    c.u8 0 < 4 →
    c.u8 1 < 8 →
    1 ≤ c.u16 6 →
    c.u16 6 ≤ 4094 →
    c.u8 8 < 8 →
    c.rsv 9 3 = true →
    (ethCfg s (c.u8 0)).on = true →
    exec (.timePtpConfig c) s = .next (answer 0x0C03 c .ok (le 1 b) (ptpUpd (c.u8 0) (fun q => { q with on := bit (c.u8 1) 0, twoStep := bit (c.u8 1) 1, vlan := bit (c.u8 1) 2, domain := c.u8 2, prio1 := c.u8 3, prio2 := c.u8 4, tsrc := c.u8 5, vid := c.u16 6, pcp := c.u8 8, state := b }) s))) ∧
  (∀ (c : Cmd) (s : State),
    Serving s →
    c.mb ≠ 0 →
    Inline c 12 →
    c.u8 0 < 4 →
    c.u8 1 < 8 →
    1 ≤ c.u16 6 →
    c.u16 6 ≤ 4094 →
    c.u8 8 < 8 →
    c.rsv 9 3 = true →
    (ethCfg s (c.u8 0)).on = false →
    exec (.timePtpConfig c) s = .next (answer 0x0C03 c .conflict [] s)) ∧
  (∀ (c : Cmd) (s : State),
    Serving s →
    c.mb ≠ 0 →
    Inline c 12 →
    c.u8 0 = 0 ∨ (c.u8 0 = 1 ∧ c.u64 4 = 0) →
    c.rsv 1 3 = true →
    c.u64 4 % 64 = 0 →
    exec (.timeStatus c) s = .next (answer 0x0C06 c .ok (le 1 s.time.qual.code ++ le 1 s.time.dstate.code ++ le 2 (timeStat s / 2 ^ 12) ++ le 8 s.time.bound ++ leS 4 (theta8 s.time.lastTheta) ++ leS 4 (roundDiv s.time.servoY (2 ^ 1074)) ++ leS 2 s.time.taiUtc ++ le 1 (ptpMask s 2 + 16 * ptpMask s 3) ++ le 1 0 ++ le 2 s.time.stamps.length ++ le 2 0 ++ le 4 s.time.refusals ++ le 8 s.time.offSecs) s)) ∧
  (∀ (c : Cmd) (s : State) (n : Nat),
    n = min 1024 s.time.stamps.length →
    Serving s →
    c.mb ≠ 0 →
    Inline c 12 →
    c.u8 0 = 1 →
    c.rsv 1 3 = true →
    c.u64 4 % 64 = 0 →
    c.u64 4 ≠ 0 →
    exec (.timeStatus c) s = .next (answer 0x0C06 c .ok (le 1 s.time.qual.code ++ le 1 s.time.dstate.code ++ le 2 (timeStat s / 2 ^ 12) ++ le 8 s.time.bound ++ leS 4 (theta8 s.time.lastTheta) ++ leS 4 (roundDiv s.time.servoY (2 ^ 1074)) ++ leS 2 s.time.taiUtc ++ le 1 (ptpMask s 2 + 16 * ptpMask s 3) ++ le 1 0 ++ le 2 (s.time.stamps.drop n).length ++ le 2 n ++ le 4 s.time.refusals ++ le 8 s.time.offSecs) (putBuf (c.u64 4) (withCrc ((s.time.stamps.take n).flatMap TsEntry.bytes)) (s.onTime (fun x => { x with stamps := x.stamps.drop n })))))

/-- A PPS edge sets PPS_OK again and, with the discipline on, gives the offset of its decision. The decision feeds a first pulse or one within
STEP_MAX to the servo, after an alignment step where a first pulse lies outside the lock window; it discards an outlier, refuses after three
that agree, and ends the refusal after three good pulses. A lost PPS takes ACQUIRE and LOCKED to HOLDOVER. The link tracker sets the
increment of cell-link time. The bound grows each second while time is set; the leap second is taken. A pulse or a frame is shown while its
output may show time and its instant is not served. An edge of an enabled input is stamped, or counted as ignored. A PTP master sends Sync
and, with time set, Announce; a request is answered; a better clock makes the port PASSIVE; with none it is MASTER again. The holdover
counter is loaded while time is set and the crystal runs. -/
def Obligations.TimeEventsDisciplineAndShowTime : Prop :=
  (∀ (b : Bool) (n : Nat) (s : State),
    b = s.time.cfg.falling ∨ s.time.started = false →
    exec (.ppsInEdge b n) s = .next s) ∧
  (∀ (b : Bool) (n : Nat) (s : State),
    s.time.cfg.falling = !b →
    s.time.started = true →
    s.time.ppsOk = true →
    s.time.cfg.mode = false →
    exec (.ppsInEdge b n) s = .next s) ∧
  (∀ (b : Bool) (n : Nat) (s : State),
    s.time.cfg.falling = !b →
    s.time.started = true →
    s.time.ppsOk = false →
    s.time.cfg.mode = false →
    exec (.ppsInEdge b n) s = .next (timeEvent 0x04 [] (s.onTime (fun t => { t with ppsOk := true })))) ∧
  (∀ (b : Bool) (n : Nat) (a : Int) (s : State),
    s.time.cfg.falling = !b →
    s.time.started = true →
    s.time.ppsOk = true →
    s.time.cfg.mode = true →
    a = (stationAt s (n * 2 ^ 29 : Nat) / 2 ^ 29 : Nat) - 8 * s.time.cfg.ppsComp →
    exec (.ppsInEdge b n) s = .next (s.onTime (fun t => { t with theta := some (a - roundDiv a 8000000000 * (8000000000 : Nat)), lastTheta := a - roundDiv a 8000000000 * (8000000000 : Nat) }))) ∧
  (∀ (b : Bool) (n : Nat) (a : Int) (s : State),
    s.time.cfg.falling = !b →
    s.time.started = true →
    s.time.ppsOk = false →
    s.time.cfg.mode = true →
    a = (stationAt s (n * 2 ^ 29 : Nat) / 2 ^ 29 : Nat) - 8 * s.time.cfg.ppsComp →
    exec (.ppsInEdge b n) s = .next ((timeEvent 0x04 [] (s.onTime (fun t => { t with ppsOk := true }))).onTime (fun t => { t with theta := some (a - roundDiv a 8000000000 * (8000000000 : Nat)), lastTheta := a - roundDiv a 8000000000 * (8000000000 : Nat) }))) ∧
  (∀ (s : State),
    s.time.theta = none →
    exec .disciplineDecision s = .next s) ∧
  (∀ (x : Int) (s : State),
    s.time.theta = some x →
    s.time.cfg.mode = false →
    exec .disciplineDecision s = .next (s.onTime (fun t => { t with theta := none }))) ∧
  (∀ (x : Int) (s : State),
    s.time.theta = some x →
    s.time.cfg.mode = true →
    s.time.first = true →
    s.time.accept = false →
    x.natAbs ≤ 8 * s.time.cfg.lockWin →
    exec .disciplineDecision s = .next (servo x x (s.onTime (fun t => { t with theta := none })))) ∧
  (∀ (x : Int) (s : State),
    s.time.theta = some x →
    s.time.cfg.mode = true →
    s.time.first = true →
    s.time.accept = false →
    8 * s.time.cfg.lockWin < x.natAbs →
    exec .disciplineDecision s = .next (servo x 0 (stepTime (-(x * (2 ^ 29 : Nat))) 1 (s.onTime (fun t => { t with theta := none }))))) ∧
  (∀ (x : Int) (s v : State),
    s.time.theta = some x →
    s.time.cfg.mode = true →
    s.time.first = true →
    s.time.accept = true →
    x.natAbs ≤ 8 * s.time.cfg.lockWin →
    v = (timeEvent 0x03 [word32 (theta8 x), Config.openCode 0x1003 2] (s.onTime (fun t => { t with theta := none }))).onTime (fun t => { t with refused := false }) →
    exec .disciplineDecision s = .next (servo x x v)) ∧
  (∀ (x : Int) (s v : State),
    s.time.theta = some x →
    s.time.cfg.mode = true →
    s.time.first = true →
    s.time.accept = true →
    8 * s.time.cfg.lockWin < x.natAbs →
    v = (timeEvent 0x03 [word32 (theta8 x), Config.openCode 0x1003 2] (s.onTime (fun t => { t with theta := none }))).onTime (fun t => { t with refused := false }) →
    exec .disciplineDecision s = .next (servo x 0 (stepTime (-(x * (2 ^ 29 : Nat))) 2 v))) ∧
  (∀ (x : Int) (s : State),
    s.time.theta = some x →
    s.time.cfg.mode = true →
    s.time.first = false →
    x.natAbs ≤ 8 * s.time.cfg.stepMax →
    s.time.dstate ≠ .refusing →
    exec .disciplineDecision s = .next (servo x x (s.onTime (fun t => { t with theta := none })))) ∧
  (∀ (x : Int) (l : List Int) (s : State),
    s.time.theta = some x →
    s.time.cfg.mode = true →
    s.time.first = false →
    8 * s.time.cfg.stepMax < x.natAbs →
    l = (x :: s.time.outs).take 3 →
    s.time.dstate = .refusing ∨ agree3 l = false →
    exec .disciplineDecision s = .next (s.onTime (fun t => { t with theta := none, outs := l, goodRun := 0, inWin := 0, discarded := inc32 t.discarded }))) ∧
  (∀ (x : Int) (l : List Int) (s : State),
    s.time.theta = some x →
    s.time.cfg.mode = true →
    s.time.first = false →
    8 * s.time.cfg.stepMax < x.natAbs →
    l = (x :: s.time.outs).take 3 →
    s.time.dstate ≠ .refusing →
    agree3 l = true →
    exec .disciplineDecision s = .next (requal (freezeInc (timeEvent 0x03 [word32 (theta8 x), Config.openCode 0x1003 0] ((s.onTime (fun t => { t with theta := none, outs := l, goodRun := 0, inWin := 0, discarded := inc32 t.discarded })).onTime (fun t => { t with dstate := .refusing, refused := true, refusals := inc32 t.refusals, inWin := 0, outWin := 0 })))))) ∧
  (∀ (x : Int) (s : State),
    s.time.theta = some x →
    s.time.cfg.mode = true →
    s.time.first = false →
    x.natAbs ≤ 8 * s.time.cfg.stepMax →
    s.time.dstate = .refusing →
    s.time.goodRun < 2 →
    exec .disciplineDecision s = .next (s.onTime (fun t => { t with theta := none, outs := [], goodRun := s.time.goodRun + 1 }))) ∧
  (∀ (x : Int) (s : State),
    s.time.theta = some x →
    s.time.cfg.mode = true →
    s.time.first = false →
    x.natAbs ≤ 8 * s.time.cfg.stepMax →
    s.time.dstate = .refusing →
    2 ≤ s.time.goodRun →
    exec .disciplineDecision s = .next (timeEvent 0x03 [word32 (theta8 x), Config.openCode 0x1003 1] ((s.onTime (fun t => { t with theta := none, outs := [], goodRun := s.time.goodRun + 1 })).onTime (fun t => { t with dstate := .acquire, refused := false, goodRun := 0 })))) ∧
  (∀ (s : State),
    s.time.ppsOk = true →
    s.time.dstate = .locked ∨ s.time.dstate = .acquire →
    exec .ppsLoss s = .next (requal (freezeInc ((timeEvent 0x04 [] (s.onTime (fun t => { t with ppsOk := false }))).onTime (fun t => { t with dstate := .holdover, inWin := 0, outWin := 0 }))))) ∧
  (∀ (s : State),
    s.time.ppsOk = true →
    s.time.dstate ≠ .locked →
    s.time.dstate ≠ .acquire →
    exec .ppsLoss s = .next (timeEvent 0x04 [] (s.onTime (fun t => { t with ppsOk := false })))) ∧
  (∀ (s : State),
    s.time.ppsOk = false →
    exec .ppsLoss s = .next s) ∧
  (∀ (n i : Nat) (s : State),
    s.time.cfg.linkTrack = true →
    s.time.started = true →
    s.power.straps.trefsel = true →
    i = (roundDiv ((n * 8 * 2 ^ 32 : Nat) : Int) 2500000).toNat →
    0x1FFF2E48F ≤ i →
    i ≤ 0x2000D1B71 →
    exec (.linkTrackUpdate n) s = .next (baseUpd 2 (fun b => { b with inc := i }) s)) ∧
  (∀ (n i : Nat) (s : State),
    s.time.cfg.linkTrack = true →
    s.time.started = true →
    s.power.straps.trefsel = true →
    i = (roundDiv ((n * 8 * 2 ^ 32 : Nat) : Int) 2500000).toNat →
    i < 0x1FFF2E48F ∨ 0x2000D1B71 < i →
    exec (.linkTrackUpdate n) s = .next s) ∧
  (∀ (n : Nat) (s : State),
    s.time.cfg.linkTrack = true →
    s.time.started = true →
    s.power.straps.trefsel = false →
    exec (.linkTrackUpdate n) s = .next (baseUpd 2 (fun b => { b with inc := 0x200000000 }) s)) ∧
  (∀ (n : Nat) (s : State),
    s.time.cfg.linkTrack = false ∨ s.time.started = false →
    exec (.linkTrackUpdate n) s = .next s) ∧
  (∀ (s : State),
    timeUnset s = false →
    exec .errorBoundUpdate s = .next (requal (s.onTime (fun t => { t with bSecs := t.bSecs + 1 })))) ∧
  (∀ (s : State),
    timeUnset s = true →
    exec .errorBoundUpdate s = .next s) ∧
  (∀ (d : Int) (n : Nat) (s : State),
    s.time.leap = some (d, n) →
    exec .leapSecond s = .next (timeEvent 0x07 [word32 (s.time.taiUtc + d)] (s.onTime (fun t => { t with taiUtc := t.taiUtc + d, leap := none })))) ∧
  (∀ (s : State),
    s.time.leap = none →
    exec .leapSecond s = .next s) ∧
  (∀ (o : Fin 4) (n : Nat) (s : State),
    outMay s o = true →
    tget 0 s.time.servedN o ≤ edgeAt s o n →
    exec (.ppsOutPulse o n) s = .next (s.onTime (fun t => { t with pulse := o.val :: t.pulse.filter (· != o.val), servedN := tset t.servedN o (edgeAt s o n + 1) }))) ∧
  (∀ (o : Fin 4) (n : Nat) (s : State),
    outMay s o = false ∨ edgeAt s o n < tget 0 s.time.servedN o →
    exec (.ppsOutPulse o n) s = .next s) ∧
  (∀ (o : Fin 4) (s : State),
    exec (.ppsOutPulseEnd o) s = .next (s.onTime (fun t => { t with pulse := t.pulse.filter (· != o.val) }))) ∧
  (∀ (n : Nat) (k : TOutCfg) (v : Int × Bool × Bool) (s : State),
    k = tget {} s.time.outs16 4 →
    v = leapView s n →
    outMay s 4 = true →
    tget 0 s.time.servedN 4 ≤ edgeAt s 4 n →
    exec (.irigbFrame n) s = .next (s.onTime (fun t => { t with irig := some { utc := n - (if t.utcValid then v.1 else 0) + k.localMin * 60, valid := t.utcValid, tmq := tmqCode s, leap := v.2.1, sub := v.2.2, format := k.rate }, servedN := tset t.servedN 4 (edgeAt s 4 n + 1) }))) ∧
  (∀ (n : Nat) (s : State),
    outMay s 4 = false ∨ edgeAt s 4 n < tget 0 s.time.servedN 4 →
    exec (.irigbFrame n) s = .next s) ∧
  (∀ (i : Fin 32) (b h : Bool) (n : Nat) (k : StampCfg) (s : State),
    k = tget {} s.time.stampCfg i →
    k.on = true →
    (if b then k.rise else k.fall) = true →
    s.time.started = true →
    h = true ∨ k.filter = 0 →
    exec (.tsInEdge i b n h) s = .next (stampAdd { time := stampOf ((((stationAt s (n * 2 ^ 29 : Nat) / 2 ^ 29 : Nat) : Int) - 8 * k.comp).toNat * 2 ^ 29), input := i, rise := b, lost := false } s)) ∧
  (∀ (i : Fin 32) (b : Bool) (n : Nat) (k : StampCfg) (s : State),
    k = tget {} s.time.stampCfg i →
    k.on = true →
    (if b then k.rise else k.fall) = true →
    s.time.started = true →
    k.filter ≠ 0 →
    exec (.tsInEdge i b n false) s = .next (s.onTime (fun t => { t with ignored := tupd 0 t.ignored i (fun x => inc32 x) }))) ∧
  (∀ (i : Fin 32) (b h : Bool) (n : Nat) (k : StampCfg) (s : State),
    k = tget {} s.time.stampCfg i →
    k.on = false ∨ (if b then k.rise else k.fall) = false ∨ s.time.started = false →
    exec (.tsInEdge i b n h) s = .next s) ∧
  (∀ (p : Fin 4) (s : State),
    (ptpGet s p).state = 2 →
    timeUnset s = true →
    exec (.ptpSyncSend p) s = .next (ptpUpd p (fun x => { x with sent := [.sync (stationNow s) x.twoStep] }) s)) ∧
  (∀ (p : Fin 4) (s : State),
    (ptpGet s p).state = 2 →
    timeUnset s = false →
    exec (.ptpSyncSend p) s = .next (ptpUpd p (fun x => { x with sent := [(.announce (clockId s p) s.time.qual.clockClass (tmqCode s) (ptpGet s p).prio1 (ptpGet s p).prio2 (ptpGet s p).tsrc (if s.time.utcValid then s.time.taiUtc else 0) s.time.utcValid (s.time.leap.any (fun l => 0 < l.1)) (s.time.leap.any (fun l => l.1 < 0))), .sync (stationNow s) x.twoStep] }) s)) ∧
  (∀ (p : Fin 4) (s : State),
    (ptpGet s p).state ≠ 2 →
    exec (.ptpSyncSend p) s = .next s) ∧
  (∀ (p : Fin 4) (s : State),
    (ptpGet s p).state ≠ 0 →
    portUp s p = true →
    exec (.ptpMessageReceive p .pdelayReq) s = .next (ptpUpd p (fun x => { x with sent := .pdelayResp :: x.sent.take 1 }) s)) ∧
  (∀ (p : Fin 4) (m : PtpIn) (s : State),
    (ptpGet s p).state = 0 ∨ portUp s p = false →
    exec (.ptpMessageReceive p m) s = .next s) ∧
  (∀ (p : Fin 4) (d : Nat) (b : Bool) (x : Word64) (s : State),
    d ≠ (ptpGet s p).domain ∨ b = false ∨ followsTime s = true →
    exec (.ptpMessageReceive p (.announce d b x)) s = .next s) ∧
  (∀ (p : Fin 4) (x : Word64) (s : State),
    (ptpGet s p).state ≠ 0 →
    (ptpGet s p).state ≠ 3 →
    portUp s p = true →
    followsTime s = false →
    exec (.ptpMessageReceive p (.announce (ptpGet s p).domain true x)) s = .next (ptpPassive p x.toNat (ptpUpd p (fun y => { y with state := 3, better := x.toNat }) s))) ∧
  (∀ (p : Fin 4) (x : Word64) (s : State),
    (ptpGet s p).state = 3 →
    portUp s p = true →
    followsTime s = false →
    exec (.ptpMessageReceive p (.announce (ptpGet s p).domain true x)) s = .next (ptpUpd p (fun y => { y with state := 3, better := x.toNat }) s)) ∧
  (∀ (p : Fin 4) (s : State),
    (ptpGet s p).state = 3 →
    exec (.ptpAnnounceTimeout p) s = .next (ptpPassive p (ptpGet s p).better (ptpUpd p (fun x => { x with state := 2 }) s))) ∧
  (∀ (p : Fin 4) (s : State),
    (ptpGet s p).state = 1 →
    followsTime s = false →
    exec (.ptpAnnounceTimeout p) s = .next (ptpUpd p (fun x => { x with state := 2 }) s)) ∧
  (∀ (p : Fin 4) (s : State),
    (ptpGet s p).state ≠ 3 →
    (ptpGet s p).state ≠ 1 ∨ followsTime s = true →
    exec (.ptpAnnounceTimeout p) s = .next s) ∧
  (∀ (n : Nat) (s : State),
    timeUnset s = false →
    s.power.refLost.contains 4 = false →
    exec (.holdoverLoad n) s = .next (s.onPower (fun p => { p with holdValid := true, holdCount := 0, holdBase := { sec := n } }))) ∧
  (∀ (n : Nat) (s : State),
    timeUnset s = true ∨ s.power.refLost.contains 4 = true →
    exec (.holdoverLoad n) s = .next s)

/-- NET_PORT_CONFIG stores the port, takes it down when it closes it and answers whether it is up and its address; a port whose PTP runs cannot
be closed (CONFLICT). NET_GOOSE_CONFIG (a subscription, a mapping or a publication) and NET_SV_CONFIG (a stream or a mapping) in range stage
into shadow set bit 8 and answer how many are enabled; they answer CONFLICT where a mapping names what is off, an entry names an absent unit
or a safe connection asks otherwise, BUSY while the set is held. NET_DMA_STREAM_CONFIG stores a stream that is off or keeps its parameters,
answers CONFLICT for other parameters of one that is on and NOT_FITTED where its source is absent. NET_STATUS reads, and writes the counts
to the buffer it names. -/
def Obligations.NetCommandsConfigurePortsAndStreams : Prop :=
  (∀ (c : Cmd) (s v : State),
    Serving s →
    c.mb ≠ 0 →
    Inline c 8 →
    c.u8 0 < 4 →
    c.u8 1 < 8 →
    multicast (beVal ((c.params.drop 2).take 6)) = false →
    bit (c.u8 1) 0 = true →
    v = (s).onNet (fun x => { x with eth := tset x.eth (c.u8 0) ⟨true, bit (c.u8 1) 1, bit (c.u8 1) 2, beVal ((c.params.drop 2).take 6)⟩ }) →
    exec (.netPortConfig c) s = .next (answer 0x0D01 c .ok (le 1 (b2n (portUp v (c.u8 0))) ++ macBytes (macOf v (c.u8 0))) v)) ∧
  (∀ (c : Cmd) (s v : State),
    Serving s →
    c.mb ≠ 0 →
    Inline c 8 →
    c.u8 0 < 4 →
    c.u8 1 < 8 →
    multicast (beVal ((c.params.drop 2).take 6)) = false →
    bit (c.u8 1) 0 = false →
    (ptpGet s (c.u8 0)).on = false →
    v = linkChange (c.u8 0) false ((s).onNet (fun x => { x with eth := tset x.eth (c.u8 0) ⟨false, bit (c.u8 1) 1, bit (c.u8 1) 2, beVal ((c.params.drop 2).take 6)⟩ })) →
    exec (.netPortConfig c) s = .next (answer 0x0D01 c .ok (le 1 (b2n (portUp v (c.u8 0))) ++ macBytes (macOf v (c.u8 0))) v)) ∧
  (∀ (c : Cmd) (s : State),
    Serving s →
    c.mb ≠ 0 →
    Inline c 8 →
    c.u8 0 < 4 →
    c.u8 1 < 8 →
    multicast (beVal ((c.params.drop 2).take 6)) = false →
    bit (c.u8 1) 0 = false →
    (ptpGet s (c.u8 0)).on = true →
    exec (.netPortConfig c) s = .next (answer 0x0D01 c .conflict [] s)) ∧
  (∀ (c : Cmd) (k : GsubCfg) (s v : State),
    k = ⟨bit (c.u8 4) 0, bit (c.u8 4) 1, c.u8 4 / 4 % 16, c.u16 8, beVal ((c.params.drop 16).take 6), c.u32 24, c.u16 14, (c.params.drop 32).take 192⟩ →
    Serving s →
    c.mb ≠ 0 →
    s.dev.role = .active ∨ s.dev.role = .standby →
    External c (fun n => n == 320) →
    c.rsv 1 1 = true →
    c.u8 0 = 0 →
    c.u16 2 < 64 →
    c.u8 4 < 64 →
    c.rsv 5 3 = true →
    c.u16 8 ≤ 0x3FFF →
    multicast k.dmac = true →
    c.rsv 10 4 = true →
    c.rsv 22 2 = true →
    asciiOk k.names = true →
    1 ≤ c.u16 14 →
    c.u16 14 ≤ 10000 →
    c.rsv 224 96 = true →
    setHeld s 8 = false →
    (safeNames s false (c.u16 2) = false ∨ k.ports = 3) →
    v = stage 8 c.params (s.onNet (fun x => { x with subNew := tset x.subNew (c.u16 2) k })) →
    exec (.netGooseConfig c) s = .next (answer 0x0D02 c .ok (le 2 ((List.range 64).filter (fun m => (subShadow v (m)).on)).length) v)) ∧
  (∀ (c : Cmd) (k : GsubCfg) (s : State),
    k = ⟨bit (c.u8 4) 0, bit (c.u8 4) 1, c.u8 4 / 4 % 16, c.u16 8, beVal ((c.params.drop 16).take 6), c.u32 24, c.u16 14, (c.params.drop 32).take 192⟩ →
    Serving s →
    c.mb ≠ 0 →
    s.dev.role = .active ∨ s.dev.role = .standby →
    External c (fun n => n == 320) →
    c.rsv 1 1 = true →
    c.u8 0 = 0 →
    c.u16 2 < 64 →
    c.u8 4 < 64 →
    c.rsv 5 3 = true →
    c.u16 8 ≤ 0x3FFF →
    multicast k.dmac = true →
    c.rsv 10 4 = true →
    c.rsv 22 2 = true →
    asciiOk k.names = true →
    1 ≤ c.u16 14 →
    c.u16 14 ≤ 10000 →
    c.rsv 224 96 = true →
    setHeld s 8 = false →
    safeNames s false (c.u16 2) = true →
    k.ports ≠ 3 →
    exec (.netGooseConfig c) s = .next (answer 0x0D02 c .conflict [] s)) ∧
  (∀ (c : Cmd) (k : GsubCfg) (s : State),
    k = ⟨bit (c.u8 4) 0, bit (c.u8 4) 1, c.u8 4 / 4 % 16, c.u16 8, beVal ((c.params.drop 16).take 6), c.u32 24, c.u16 14, (c.params.drop 32).take 192⟩ →
    Serving s →
    c.mb ≠ 0 →
    s.dev.role = .active ∨ s.dev.role = .standby →
    External c (fun n => n == 320) →
    c.rsv 1 1 = true →
    c.u8 0 = 0 →
    c.u16 2 < 64 →
    c.u8 4 < 64 →
    c.rsv 5 3 = true →
    c.u16 8 ≤ 0x3FFF →
    multicast k.dmac = true →
    c.rsv 10 4 = true →
    c.rsv 22 2 = true →
    asciiOk k.names = true →
    1 ≤ c.u16 14 →
    c.u16 14 ≤ 10000 →
    c.rsv 224 96 = true →
    setHeld s 8 = true →
    exec (.netGooseConfig c) s = .next (answer 0x0D02 c .busy [] s)) ∧
  (∀ (c : Cmd) (k : MapCfg) (s v : State),
    k = ⟨bit (c.u8 6) 0, bit (c.u8 6) 1, c.u8 4, c.u8 5, c.u32 8⟩ →
    Serving s →
    c.mb ≠ 0 →
    s.dev.role = .active ∨ s.dev.role = .standby →
    External c (fun n => n == 320) →
    c.rsv 1 1 = true →
    c.u8 0 = 1 →
    128 ≤ c.u16 2 →
    c.u16 2 < 192 →
    c.u8 4 < 64 →
    c.u8 5 < 128 →
    c.u8 6 < 4 →
    c.rsv 7 1 = true →
    1 ≤ c.u32 8 →
    c.u32 8 < 2 ^ 31 →
    c.rsv 12 308 = true →
    setHeld s 8 = false →
    (subShadow s k.src).on = true →
    v = stage 8 c.params (s.onNet (fun x => { x with mapNew := tset x.mapNew (c.u16 2) k })) →
    exec (.netGooseConfig c) s = .next (answer 0x0D02 c .ok (le 2 ((List.range 64).filter (fun m => (mapShadow v (128 + m)).on)).length) v)) ∧
  (∀ (c : Cmd) (k : MapCfg) (s : State),
    k = ⟨bit (c.u8 6) 0, bit (c.u8 6) 1, c.u8 4, c.u8 5, c.u32 8⟩ →
    Serving s →
    c.mb ≠ 0 →
    s.dev.role = .active ∨ s.dev.role = .standby →
    External c (fun n => n == 320) →
    c.rsv 1 1 = true →
    c.u8 0 = 1 →
    128 ≤ c.u16 2 →
    c.u16 2 < 192 →
    c.u8 4 < 64 →
    c.u8 5 < 128 →
    c.u8 6 < 4 →
    c.rsv 7 1 = true →
    1 ≤ c.u32 8 →
    c.u32 8 < 2 ^ 31 →
    c.rsv 12 308 = true →
    setHeld s 8 = false →
    (subShadow s k.src).on = false →
    exec (.netGooseConfig c) s = .next (answer 0x0D02 c .conflict [] s)) ∧
  (∀ (c : Cmd) (k : MapCfg) (s : State),
    k = ⟨bit (c.u8 6) 0, bit (c.u8 6) 1, c.u8 4, c.u8 5, c.u32 8⟩ →
    Serving s →
    c.mb ≠ 0 →
    s.dev.role = .active ∨ s.dev.role = .standby →
    External c (fun n => n == 320) →
    c.rsv 1 1 = true →
    c.u8 0 = 1 →
    128 ≤ c.u16 2 →
    c.u16 2 < 192 →
    c.u8 4 < 64 →
    c.u8 5 < 128 →
    c.u8 6 < 4 →
    c.rsv 7 1 = true →
    1 ≤ c.u32 8 →
    c.u32 8 < 2 ^ 31 →
    c.rsv 12 308 = true →
    setHeld s 8 = true →
    exec (.netGooseConfig c) s = .next (answer 0x0D02 c .busy [] s)) ∧
  (∀ (c : Cmd) (k : GpubCfg) (s v : State),
    k = ⟨bit (c.u8 4) 0, c.u8 4 / 4 % 16, c.u16 8, beVal ((c.params.drop 16).take 6), c.u32 24, c.u16 28, c.u16 30, (c.params.drop 32).take 192, ((List.range 24).map (fun n => c.u32 (224 + 4 * n)))⟩ →
    Serving s →
    c.mb ≠ 0 →
    s.dev.role = .active ∨ s.dev.role = .standby →
    External c (fun n => n == 320) →
    c.rsv 1 1 = true →
    c.u8 0 = 2 →
    c.u16 2 < 16 →
    c.u8 4 < 64 →
    c.rsv 5 3 = true →
    c.u16 8 ≤ 0x3FFF →
    multicast k.dmac = true →
    c.rsv 10 4 = true →
    c.rsv 22 2 = true →
    asciiOk k.names = true →
    1 ≤ c.u16 28 →
    c.u16 28 ≤ 1000 →
    c.u16 28 ≤ c.u16 30 →
    c.u16 30 ≤ 60000 →
    (pubEntries k).all pubEntryOk = true →
    setHeld s 8 = false →
    ((pubEntries k).all (fun e => pubEntryFit s e) = true ∧ (safeNames s true (c.u16 2) = false ∨ (k.ports = 3 ∧ pubEntries k = []))) →
    v = stage 8 c.params (s.onNet (fun x => { x with pubNew := tset x.pubNew (c.u16 2) k })) →
    exec (.netGooseConfig c) s = .next (answer 0x0D02 c .ok (le 2 ((List.range 16).filter (fun m => (pubShadow v (m)).on)).length) v)) ∧
  (∀ (c : Cmd) (k : GpubCfg) (s : State),
    k = ⟨bit (c.u8 4) 0, c.u8 4 / 4 % 16, c.u16 8, beVal ((c.params.drop 16).take 6), c.u32 24, c.u16 28, c.u16 30, (c.params.drop 32).take 192, ((List.range 24).map (fun n => c.u32 (224 + 4 * n)))⟩ →
    Serving s →
    c.mb ≠ 0 →
    s.dev.role = .active ∨ s.dev.role = .standby →
    External c (fun n => n == 320) →
    c.rsv 1 1 = true →
    c.u8 0 = 2 →
    c.u16 2 < 16 →
    c.u8 4 < 64 →
    c.rsv 5 3 = true →
    c.u16 8 ≤ 0x3FFF →
    multicast k.dmac = true →
    c.rsv 10 4 = true →
    c.rsv 22 2 = true →
    asciiOk k.names = true →
    1 ≤ c.u16 28 →
    c.u16 28 ≤ 1000 →
    c.u16 28 ≤ c.u16 30 →
    c.u16 30 ≤ 60000 →
    (pubEntries k).all pubEntryOk = true →
    setHeld s 8 = false →
    ¬((pubEntries k).all (fun e => pubEntryFit s e) = true ∧ (safeNames s true (c.u16 2) = false ∨ (k.ports = 3 ∧ pubEntries k = []))) →
    exec (.netGooseConfig c) s = .next (answer 0x0D02 c .conflict [] s)) ∧
  (∀ (c : Cmd) (k : GpubCfg) (s : State),
    k = ⟨bit (c.u8 4) 0, c.u8 4 / 4 % 16, c.u16 8, beVal ((c.params.drop 16).take 6), c.u32 24, c.u16 28, c.u16 30, (c.params.drop 32).take 192, ((List.range 24).map (fun n => c.u32 (224 + 4 * n)))⟩ →
    Serving s →
    c.mb ≠ 0 →
    s.dev.role = .active ∨ s.dev.role = .standby →
    External c (fun n => n == 320) →
    c.rsv 1 1 = true →
    c.u8 0 = 2 →
    c.u16 2 < 16 →
    c.u8 4 < 64 →
    c.rsv 5 3 = true →
    c.u16 8 ≤ 0x3FFF →
    multicast k.dmac = true →
    c.rsv 10 4 = true →
    c.rsv 22 2 = true →
    asciiOk k.names = true →
    1 ≤ c.u16 28 →
    c.u16 28 ≤ 1000 →
    c.u16 28 ≤ c.u16 30 →
    c.u16 30 ≤ 60000 →
    (pubEntries k).all pubEntryOk = true →
    setHeld s 8 = true →
    exec (.netGooseConfig c) s = .next (answer 0x0D02 c .busy [] s)) ∧
  (∀ (c : Cmd) (k : SvCfg) (s v : State),
    k = { on := bit (c.u8 2) 0, port2 := bit (c.u8 2) 1, port3 := bit (c.u8 2) 2, test := bit (c.u8 2) 3, localOk := bit (c.u8 2) 4, misInv := bit (c.u8 2) 5, nasdu := c.u8 3, nval := c.u8 20, appid := c.u16 4, dmac := beVal ((c.params.drop 6).take 6), confRev := c.u32 12, rate := c.u32 16, miss := c.u8 21, dupWin := c.u16 22, svid := (c.params.drop 28).take 64 } →
    Serving s →
    c.mb ≠ 0 →
    s.dev.role = .active ∨ s.dev.role = .standby →
    External c (fun n => n == 128) →
    c.u8 0 = 0 →
    c.u8 1 < 16 →
    c.u8 2 < 64 →
    (k.port2 || k.port3) = true →
    1 ≤ k.nasdu →
    k.nasdu ≤ 8 →
    1 ≤ k.nval →
    k.nval ≤ 16 →
    0x4000 ≤ k.appid →
    k.appid ≤ 0x7FFF →
    multicast k.dmac = true →
    4000 ≤ k.rate →
    k.rate ≤ 96000 →
    1 ≤ k.miss →
    k.miss ≤ 16 →
    1 ≤ k.dupWin →
    k.dupWin ≤ 10000 →
    asciiOk k.svid = true →
    c.rsv 24 4 = true →
    c.rsv 92 36 = true →
    setHeld s 8 = false →
    v = stage 8 c.params (s.onNet (fun x => { x with svNew := tset x.svNew (c.u8 1) k })) →
    exec (.netSvConfig c) s = .next (if k.nasdu * k.nval * 8 + Config.svOverhead k.nasdu (nameLen k.svid) ≤ 1522 then answer 0x0D03 c .ok (le 2 ((List.range 16).filter (fun m => (svShadow v (m)).on)).length) v else answer 0x0D03 c .badParam [] s)) ∧
  (∀ (c : Cmd) (k : SvCfg) (s : State),
    k = { on := bit (c.u8 2) 0, port2 := bit (c.u8 2) 1, port3 := bit (c.u8 2) 2, test := bit (c.u8 2) 3, localOk := bit (c.u8 2) 4, misInv := bit (c.u8 2) 5, nasdu := c.u8 3, nval := c.u8 20, appid := c.u16 4, dmac := beVal ((c.params.drop 6).take 6), confRev := c.u32 12, rate := c.u32 16, miss := c.u8 21, dupWin := c.u16 22, svid := (c.params.drop 28).take 64 } →
    Serving s →
    c.mb ≠ 0 →
    s.dev.role = .active ∨ s.dev.role = .standby →
    External c (fun n => n == 128) →
    c.u8 0 = 0 →
    c.u8 1 < 16 →
    c.u8 2 < 64 →
    (k.port2 || k.port3) = true →
    1 ≤ k.nasdu →
    k.nasdu ≤ 8 →
    1 ≤ k.nval →
    k.nval ≤ 16 →
    0x4000 ≤ k.appid →
    k.appid ≤ 0x7FFF →
    multicast k.dmac = true →
    4000 ≤ k.rate →
    k.rate ≤ 96000 →
    1 ≤ k.miss →
    k.miss ≤ 16 →
    1 ≤ k.dupWin →
    k.dupWin ≤ 10000 →
    asciiOk k.svid = true →
    c.rsv 24 4 = true →
    c.rsv 92 36 = true →
    setHeld s 8 = true →
    exec (.netSvConfig c) s = .next (answer 0x0D03 c (if k.nasdu * k.nval * 8 + Config.svOverhead k.nasdu (nameLen k.svid) ≤ 1522 then .busy else .badParam) [] s)) ∧
  (∀ (c : Cmd) (k : MapCfg) (s v : State),
    k = ⟨bit (c.u8 6) 0, bit (c.u8 6) 1, c.u8 4, c.u8 5, c.u32 8⟩ →
    Serving s →
    c.mb ≠ 0 →
    s.dev.role = .active ∨ s.dev.role = .standby →
    External c (fun n => n == 128) →
    c.u8 0 = 1 →
    c.u16 2 < 128 →
    c.u8 4 < 16 →
    c.u8 5 < (svShadow s (c.u8 4)).nval →
    c.u8 6 < 4 →
    1 ≤ c.u32 8 →
    c.u32 8 < 2 ^ 31 →
    c.rsv 1 1 = true →
    c.rsv 7 1 = true →
    c.rsv 12 116 = true →
    setHeld s 8 = false →
    (svShadow s k.src).on = true →
    v = stage 8 c.params (s.onNet (fun x => { x with mapNew := tset x.mapNew (c.u16 2) k })) →
    exec (.netSvConfig c) s = .next (answer 0x0D03 c .ok (le 2 ((List.range 128).filter (fun m => (mapShadow v (m)).on)).length) v)) ∧
  (∀ (c : Cmd) (k : MapCfg) (s : State),
    k = ⟨bit (c.u8 6) 0, bit (c.u8 6) 1, c.u8 4, c.u8 5, c.u32 8⟩ →
    Serving s →
    c.mb ≠ 0 →
    s.dev.role = .active ∨ s.dev.role = .standby →
    External c (fun n => n == 128) →
    c.u8 0 = 1 →
    c.u16 2 < 128 →
    c.u8 4 < 16 →
    c.u8 5 < (svShadow s (c.u8 4)).nval →
    c.u8 6 < 4 →
    1 ≤ c.u32 8 →
    c.u32 8 < 2 ^ 31 →
    c.rsv 1 1 = true →
    c.rsv 7 1 = true →
    c.rsv 12 116 = true →
    setHeld s 8 = false →
    (svShadow s k.src).on = false →
    exec (.netSvConfig c) s = .next (answer 0x0D03 c .conflict [] s)) ∧
  (∀ (c : Cmd) (k : MapCfg) (s : State),
    k = ⟨bit (c.u8 6) 0, bit (c.u8 6) 1, c.u8 4, c.u8 5, c.u32 8⟩ →
    Serving s →
    c.mb ≠ 0 →
    s.dev.role = .active ∨ s.dev.role = .standby →
    External c (fun n => n == 128) →
    c.u8 0 = 1 →
    c.u16 2 < 128 →
    c.u8 4 < 16 →
    c.u8 5 < (svShadow s (c.u8 4)).nval →
    c.u8 6 < 4 →
    1 ≤ c.u32 8 →
    c.u32 8 < 2 ^ 31 →
    c.rsv 1 1 = true →
    c.rsv 7 1 = true →
    c.rsv 12 116 = true →
    setHeld s 8 = true →
    exec (.netSvConfig c) s = .next (answer 0x0D03 c .busy [] s)) ∧
  (∀ (c : Cmd) (k o : DmaStream) (s : State),
    k = { on := bit (c.u8 1) 0, irq := bit (c.u8 1) 1, kind := c.u8 2, d := c.u16 4, base := c.u64 8, nrec := c.u32 16, tail := c.u64 20, sel := (c.params.drop 28).take 20 } →
    o = dmaGet s (c.u8 0) →
    Serving s →
    c.mb ≠ 0 →
    Inline c 48 →
    c.u8 0 < 16 →
    c.u8 1 < 4 →
    k.kind < 5 →
    1 ≤ k.d →
    k.base % 4096 = 0 →
    16 ≤ k.nrec →
    k.nrec ≤ 2 ^ 24 →
    k.tail % 8 = 0 →
    c.rsv 3 1 = true →
    c.rsv 6 2 = true →
    k.kind ≠ 0 ∨ c.rsv 28 20 = true →
    k.kind ≠ 2 ∨ c.rsv 36 12 = true →
    k.kind ≠ 4 ∨ (rd k.sel 0 1 < 12 ∧ c.rsv 29 19 = true) →
    dmaFit s k = true →
    o.on = false ∨ ((o.kind == k.kind && o.d == k.d && o.base == k.base && o.nrec == k.nrec && o.tail == k.tail && o.sel == k.sel) = true ∧ k.on = false) →
    exec (.netDmaStreamConfig c) s = .next (answer 0x0D04 c .ok (le 4 (dmaSize k) ++ le 4 (if dmaSize k * k.nrec < 2 ^ 32 then dmaSize k * k.nrec else Config.openCode 0x0D04 (dmaSize k * k.nrec))) (dmaUpd (c.u8 0) (fun _ => { k with drops := o.drops, winDrop := o.winDrop, queue := if (o.kind == k.kind && o.d == k.d && o.base == k.base && o.nrec == k.nrec && o.tail == k.tail && o.sel == k.sel) then o.queue else [] }) s))) ∧
  (∀ (c : Cmd) (k o : DmaStream) (s : State),
    k = { on := bit (c.u8 1) 0, irq := bit (c.u8 1) 1, kind := c.u8 2, d := c.u16 4, base := c.u64 8, nrec := c.u32 16, tail := c.u64 20, sel := (c.params.drop 28).take 20 } →
    o = dmaGet s (c.u8 0) →
    Serving s →
    c.mb ≠ 0 →
    Inline c 48 →
    c.u8 0 < 16 →
    c.u8 1 < 4 →
    k.kind < 5 →
    1 ≤ k.d →
    k.base % 4096 = 0 →
    16 ≤ k.nrec →
    k.nrec ≤ 2 ^ 24 →
    k.tail % 8 = 0 →
    c.rsv 3 1 = true →
    c.rsv 6 2 = true →
    k.kind ≠ 0 ∨ c.rsv 28 20 = true →
    k.kind ≠ 2 ∨ c.rsv 36 12 = true →
    k.kind ≠ 4 ∨ (rd k.sel 0 1 < 12 ∧ c.rsv 29 19 = true) →
    dmaFit s k = true →
    o.on = true →
    (o.kind == k.kind && o.d == k.d && o.base == k.base && o.nrec == k.nrec && o.tail == k.tail && o.sel == k.sel) = true →
    k.on = true →
    exec (.netDmaStreamConfig c) s = .next (answer 0x0D04 c .ok (le 4 (dmaSize k) ++ le 4 (if dmaSize k * k.nrec < 2 ^ 32 then dmaSize k * k.nrec else Config.openCode 0x0D04 (dmaSize k * k.nrec))) (dmaUpd (c.u8 0) (fun _ => { o with irq := k.irq }) s))) ∧
  (∀ (c : Cmd) (k o : DmaStream) (s : State),
    k = { on := bit (c.u8 1) 0, irq := bit (c.u8 1) 1, kind := c.u8 2, d := c.u16 4, base := c.u64 8, nrec := c.u32 16, tail := c.u64 20, sel := (c.params.drop 28).take 20 } →
    o = dmaGet s (c.u8 0) →
    Serving s →
    c.mb ≠ 0 →
    Inline c 48 →
    c.u8 0 < 16 →
    c.u8 1 < 4 →
    k.kind < 5 →
    1 ≤ k.d →
    k.base % 4096 = 0 →
    16 ≤ k.nrec →
    k.nrec ≤ 2 ^ 24 →
    k.tail % 8 = 0 →
    c.rsv 3 1 = true →
    c.rsv 6 2 = true →
    k.kind ≠ 0 ∨ c.rsv 28 20 = true →
    k.kind ≠ 2 ∨ c.rsv 36 12 = true →
    k.kind ≠ 4 ∨ (rd k.sel 0 1 < 12 ∧ c.rsv 29 19 = true) →
    dmaFit s k = true →
    o.on = true →
    (o.kind == k.kind && o.d == k.d && o.base == k.base && o.nrec == k.nrec && o.tail == k.tail && o.sel == k.sel) = false →
    exec (.netDmaStreamConfig c) s = .next (answer 0x0D04 c .conflict [] s)) ∧
  (∀ (c : Cmd) (k o : DmaStream) (s : State),
    k = { on := bit (c.u8 1) 0, irq := bit (c.u8 1) 1, kind := c.u8 2, d := c.u16 4, base := c.u64 8, nrec := c.u32 16, tail := c.u64 20, sel := (c.params.drop 28).take 20 } →
    o = dmaGet s (c.u8 0) →
    Serving s →
    c.mb ≠ 0 →
    Inline c 48 →
    c.u8 0 < 16 →
    c.u8 1 < 4 →
    k.kind < 5 →
    1 ≤ k.d →
    k.base % 4096 = 0 →
    16 ≤ k.nrec →
    k.nrec ≤ 2 ^ 24 →
    k.tail % 8 = 0 →
    c.rsv 3 1 = true →
    c.rsv 6 2 = true →
    k.kind ≠ 0 ∨ c.rsv 28 20 = true →
    k.kind ≠ 2 ∨ c.rsv 36 12 = true →
    k.kind ≠ 4 ∨ (rd k.sel 0 1 < 12 ∧ c.rsv 29 19 = true) →
    dmaFit s k = false →
    exec (.netDmaStreamConfig c) s = .next (answer 0x0D04 c .notFitted [] s)) ∧
  (∀ (c : Cmd) (s : State),
    Serving s →
    c.mb ≠ 0 →
    Inline c 12 →
    c.rsv 0 4 = true →
    c.u64 4 = 0 →
    exec (.netStatus c) s = .next (answer 0x0D05 c .ok (le 1 (maskOf ((List.range 4).filter (portUp s))) ++ le 2 (maskOf ((List.range 16).filter (streamOk s))) ++ le 1 0 ++ le 8 (maskOf ((List.range 64).filter (fun n => (subCfg s n).on && !(subGet s n).stale))) ++ le 4 s.net.foreign ++ le 4 s.net.safeOff ++ le 4 s.net.dmaDrops ++ le 4 s.tick.index) s)) ∧
  (∀ (c : Cmd) (s : State),
    Serving s →
    c.mb ≠ 0 →
    Inline c 12 →
    c.rsv 0 4 = true →
    c.u64 4 ≠ 0 →
    c.u64 4 % 64 = 0 →
    exec (.netStatus c) s = .next (answer 0x0D05 c .ok (le 1 (maskOf ((List.range 4).filter (portUp s))) ++ le 2 (maskOf ((List.range 16).filter (streamOk s))) ++ le 1 0 ++ le 8 (maskOf ((List.range 64).filter (fun n => (subCfg s n).on && !(subGet s n).stale))) ++ le 4 s.net.foreign ++ le 4 s.net.safeOff ++ le 4 s.net.dmaDrops ++ le 4 s.tick.index) (putBuf (c.u64 4) (withCrc (((List.range 16).flatMap (fun n => le 4 (svGet s n).accepted ++ le 4 (svGet s n).gaps ++ le 4 (svGet s n).late ++ le 4 (svGet s n).compared ++ le 4 (svGet s n).different ++ le 4 (svGet s n).episodes ++ le 4 (svGet s n).age ++ le 4 0)) ++ ((List.range 64).flatMap (fun n => le 4 ((subGet s n).stNum.getD 0) ++ le 4 (subGet s n).sqNum ++ le 4 (subGet s n).episodes ++ le 4 (subGet s n).discarded)))) s)))

/-- A link change takes a port up only when it is enabled, and down. A foreign frame, or a sampled-value frame on port 0 or 1, is counted; a bad
frame and one of a port that is down changes nothing. Each stream that a sampled-value frame matches takes its ASDUs: the second copy of a
sample is compared within DUP_WIN, a late one is counted, a new one is accepted and crosses to the mappings. Each subscription that a GOOSE
frame matches discards an older, test or needs-commissioning message and a duplicate, or takes it and is no longer stale. A stream without
samples for MISS periods is missed; a silent subscription goes stale. A changed publication takes a new stNum, and retransmissions double
their interval up to TMAX. A DMA record is written to its ring with its tail and signalled, or dropped and counted once a window. -/
def Obligations.NetEventsMoveFramesAndRecords : Prop :=
  (∀ (p : Fin 4) (s : State),
    (ethCfg s p).on = true →
    portUp s p = false →
    exec (.ethLinkChange p true) s = .next (netEvent 0x01 p [1] (ptpUpd p (fun q => { q with state := if q.on then 1 else 0 }) ((s.onPower (fun x => { x with refLost := x.refLost.filter (· != 2) })).onNet (fun x => { x with up := p.val :: x.up }))))) ∧
  (∀ (p : Fin 4) (s : State),
    ((ethCfg s p).on = true ∧ portUp s p = true) ∨ ((ethCfg s p).on = false ∧ portUp s p = false) →
    exec (.ethLinkChange p true) s = .next (s.onPower (fun x => { x with refLost := x.refLost.filter (· != 2) }))) ∧
  (∀ (p : Fin 4) (s : State),
    (ethCfg s p).on = false →
    portUp s p = true →
    exec (.ethLinkChange p true) s = .next (linkChange p false (s.onPower (fun x => { x with refLost := x.refLost.filter (· != 2) })))) ∧
  (∀ (p : Fin 4) (s : State),
    portUp s p = true →
    exec (.ethLinkChange p false) s = .next (netEvent 0x01 p [0] (ptpUpd p (fun q => { q with state := 0 }) (s.onNet (fun x => { x with up := x.up.filter (· != p.val) }))))) ∧
  (∀ (p : Fin 4) (s : State),
    portUp s p = false →
    exec (.ethLinkChange p false) s = .next s) ∧
  (∀ (p : Fin 4) (s : State),
    portUp s p = true →
    exec (.foreignFrameReceive p) s = .next (s.onNet (fun x => { x with foreign := inc32 x.foreign }))) ∧
  (∀ (p : Fin 4) (s : State),
    portUp s p = false →
    exec (.foreignFrameReceive p) s = .next s) ∧
  (∀ (p : Fin 4) (f : SvFrame) (z : SvAt) (s : State),
    portUp s p = true →
    f.good = true →
    p.val < 2 →
    exec (.svFrameReceive p f z) s = .next (s.onNet (fun x => { x with foreign := inc32 x.foreign }))) ∧
  (∀ (p : Fin 4) (f : SvFrame) (z : SvAt) (l : List Nat) (s : State),
    portUp s p = true →
    f.good = true →
    2 ≤ p.val →
    l = (List.range 16).filter (fun i => (svCfg s i).on && (if p.val = 2 then (svCfg s i).port2 else (svCfg s i).port3) && (svCfg s i).dmac == f.dmac && (svCfg s i).appid == f.appid && (svCfg s i).svid == fit 64 f.svid && (svCfg s i).confRev == f.confRev && (svCfg s i).nasdu == f.asdus.length && f.asdus.all (fun x => x.vals.length == (svCfg s i).nval)) →
    z.behind = true →
    exec (.svFrameReceive p f z) s = .next (l.foldl (fun u i => f.asdus.foldl (fun w a => takeAsdu p i a z.now w) u) s)) ∧
  (∀ (p : Fin 4) (f : SvFrame) (z : SvAt) (l : List Nat) (s : State),
    portUp s p = true →
    f.good = true →
    2 ≤ p.val →
    l = (List.range 16).filter (fun i => (svCfg s i).on && (if p.val = 2 then (svCfg s i).port2 else (svCfg s i).port3) && (svCfg s i).dmac == f.dmac && (svCfg s i).appid == f.appid && (svCfg s i).svid == fit 64 f.svid && (svCfg s i).confRev == f.confRev && (svCfg s i).nasdu == f.asdus.length && f.asdus.all (fun x => x.vals.length == (svCfg s i).nval)) →
    z.behind = false →
    exec (.svFrameReceive p f z) s = .next (mapsSettle true (l.foldl (fun u i => f.asdus.foldl (fun w a => takeAsdu p i a z.now w) u) s))) ∧
  (∀ (c : SvCfg) (r : SvRun) (a : AsduIn) (m : Nat) (p : Fin 4) (f : SvFrame) (z : SvAt) (l : List Nat) (s : State),
    portUp s p = true →
    f.good = true →
    2 ≤ p.val →
    l = (List.range 16).filter (fun i => (svCfg s i).on && (if p.val = 2 then (svCfg s i).port2 else (svCfg s i).port3) && (svCfg s i).dmac == f.dmac && (svCfg s i).appid == f.appid && (svCfg s i).svid == fit 64 f.svid && (svCfg s i).confRev == f.confRev && (svCfg s i).nasdu == f.asdus.length && f.asdus.all (fun x => x.vals.length == (svCfg s i).nval)) →
    l = [m] →
    f.asdus = [a] →
    z.behind = true →
    c = svCfg s m →
    r = svGet s m →
    (r.copies.find? (fun x => x.1 != p.val && x.2.1.cnt == a.cnt && z.now < x.2.2 + 1000000)).any (fun x => x.2.2 + c.dupWin < z.now) = true →
    exec (.svFrameReceive p f z) s = .next (svUpd m (fun y => { y with copies := y.copies.filter (fun x => x.2.1.cnt != a.cnt) }) s)) ∧
  (∀ (c : SvCfg) (r : SvRun) (a : AsduIn) (y : Nat × Asdu × Nat) (m : Nat) (p : Fin 4) (f : SvFrame) (z : SvAt) (l : List Nat) (s : State),
    portUp s p = true →
    f.good = true →
    2 ≤ p.val →
    l = (List.range 16).filter (fun i => (svCfg s i).on && (if p.val = 2 then (svCfg s i).port2 else (svCfg s i).port3) && (svCfg s i).dmac == f.dmac && (svCfg s i).appid == f.appid && (svCfg s i).svid == fit 64 f.svid && (svCfg s i).confRev == f.confRev && (svCfg s i).nasdu == f.asdus.length && f.asdus.all (fun x => x.vals.length == (svCfg s i).nval)) →
    l = [m] →
    f.asdus = [a] →
    z.behind = true →
    c = svCfg s m →
    r = svGet s m →
    r.copies.find? (fun x => x.1 != p.val && x.2.1.cnt == a.cnt && z.now < x.2.2 + 1000000) = some y →
    z.now ≤ y.2.2 + c.dupWin →
    exec (.svFrameReceive p f z) s = .next (svCompare m ((mappedAt s m).all (fun i => y.2.1.vals[i]? == a.vals[i]?)) (svUpd m (fun x => { x with copies := x.copies.filter (fun w => w.2.1.cnt != a.cnt) }) s))) ∧
  (∀ (c : SvCfg) (r : SvRun) (a : AsduIn) (m g : Nat) (p : Fin 4) (f : SvFrame) (z : SvAt) (l : List Nat) (s : State),
    portUp s p = true →
    f.good = true →
    2 ≤ p.val →
    l = (List.range 16).filter (fun i => (svCfg s i).on && (if p.val = 2 then (svCfg s i).port2 else (svCfg s i).port3) && (svCfg s i).dmac == f.dmac && (svCfg s i).appid == f.appid && (svCfg s i).svid == fit 64 f.svid && (svCfg s i).confRev == f.confRev && (svCfg s i).nasdu == f.asdus.length && f.asdus.all (fun x => x.vals.length == (svCfg s i).nval)) →
    l = [m] →
    f.asdus = [a] →
    z.behind = true →
    c = svCfg s m →
    r = svGet s m →
    r.copies.find? (fun x => x.1 != p.val && x.2.1.cnt == a.cnt && z.now < x.2.2 + 1000000) = none →
    g = r.last.elim 1 (fun x => (a.cnt + c.rate - x.cnt) % c.rate) →
    c.rate ≤ a.cnt ∨ (r.last ≠ none ∧ r.missed = false ∧ (g = 0 ∨ c.miss < g)) →
    exec (.svFrameReceive p f z) s = .next (svUpd m (fun x => { x with late := inc32 x.late }) s)) ∧
  (∀ (c : SvCfg) (r : SvRun) (a : AsduIn) (m g : Nat) (b : Asdu) (p : Fin 4) (f : SvFrame) (z : SvAt) (l : List Nat) (s : State),
    portUp s p = true →
    f.good = true →
    2 ≤ p.val →
    l = (List.range 16).filter (fun i => (svCfg s i).on && (if p.val = 2 then (svCfg s i).port2 else (svCfg s i).port3) && (svCfg s i).dmac == f.dmac && (svCfg s i).appid == f.appid && (svCfg s i).svid == fit 64 f.svid && (svCfg s i).confRev == f.confRev && (svCfg s i).nasdu == f.asdus.length && f.asdus.all (fun x => x.vals.length == (svCfg s i).nval)) →
    l = [m] →
    f.asdus = [a] →
    z.behind = true →
    c = svCfg s m →
    r = svGet s m →
    r.copies.find? (fun x => x.1 != p.val && x.2.1.cnt == a.cnt && z.now < x.2.2 + 1000000) = none →
    g = r.last.elim 1 (fun x => (a.cnt + c.rate - x.cnt) % c.rate) →
    a.cnt < c.rate →
    r.last = none ∨ r.missed = true ∨ (1 ≤ g ∧ g ≤ c.miss) →
    b = ⟨a.cnt, a.sync, a.vals, sampleInstant s c.rate a.cnt⟩ →
    exec (.svFrameReceive p f z) s = .next (streamNote m 2 (asduCross m b (svUpd m (fun y => { y with prev := y.last, last := some b, missed := false, accepted := inc32 y.accepted, gaps := if r.last.isSome && !r.missed && 1 < g then inc32 y.gaps else y.gaps, copies := if c.port2 && c.port3 then (p.val, b, z.now) :: y.copies.filter (fun x => z.now < x.2.2 + 1000000 && x.2.1.cnt != a.cnt) else [] }) s)))) ∧
  (∀ (p : Fin 4) (f : SvFrame) (z : SvAt) (s : State),
    portUp s p = false ∨ f.good = false →
    exec (.svFrameReceive p f z) s = .next s) ∧
  (∀ (n : Fin 16) (a : Asdu) (s : State),
    (svCfg s n).on = true →
    (svGet s n).last = some a →
    exec (.svStreamMiss n) s = .next (streamNote n 1 (svUpd n (fun x => { x with missed := true }) s))) ∧
  (∀ (n : Fin 16) (s : State),
    (svCfg s n).on = false ∨ (svGet s n).last = none →
    exec (.svStreamMiss n) s = .next s) ∧
  (∀ (p : Fin 4) (f : GooseFrame) (l : List Nat) (n : Nat) (s : State),
    portUp s p = true →
    f.good = true →
    l = (List.range 64).filter (fun i => (subCfg s i).on && bit (subCfg s i).ports p && (subCfg s i).dmac == f.dmac && (subCfg s i).appid == f.appid && (subCfg s i).names == fit 192 f.names && (subCfg s i).confRev == f.confRev) →
    exec (.gooseFrameReceive p f n) s = .next (l.foldl (fun t m => takeGoose p m f n t) s)) ∧
  (∀ (c : GsubCfg) (r : GsubRun) (p : Fin 4) (f : GooseFrame) (l : List Nat) (m n : Nat) (s : State),
    portUp s p = true →
    f.good = true →
    l = (List.range 64).filter (fun i => (subCfg s i).on && bit (subCfg s i).ports p && (subCfg s i).dmac == f.dmac && (subCfg s i).appid == f.appid && (subCfg s i).names == fit 192 f.names && (subCfg s i).confRev == f.confRev) →
    l = [m] →
    c = subCfg s m →
    r = subGet s m →
    f.ndsCom = true ∨ (f.test = true ∧ c.test = false) ∨ r.stNum.any (fun k => f.stNum < k) = true →
    exec (.gooseFrameReceive p f n) s = .next s) ∧
  (∀ (c : GsubCfg) (r : GsubRun) (p : Fin 4) (f : GooseFrame) (l : List Nat) (m n : Nat) (s u : State),
    portUp s p = true →
    f.good = true →
    l = (List.range 64).filter (fun i => (subCfg s i).on && bit (subCfg s i).ports p && (subCfg s i).dmac == f.dmac && (subCfg s i).appid == f.appid && (subCfg s i).names == fit 192 f.names && (subCfg s i).confRev == f.confRev) →
    l = [m] →
    c = subCfg s m →
    r = subGet s m →
    f.ndsCom = false →
    f.test = false ∨ c.test = true →
    r.stNum.any (fun k => f.stNum < k) = false →
    (u = if p.val < 2 then safeCopy p m f.data s else s) →
    r.stNum = some f.stNum →
    f.sqNum ≤ r.sqNum →
    r.sqNum ≠ f.sqNum ∨ r.port = p.val ∨ r.at_ + c.dupWin < n →
    exec (.gooseFrameReceive p f n) s = .next (subUpd m (fun x => { x with discarded := inc32 x.discarded }) u)) ∧
  (∀ (c : GsubCfg) (r : GsubRun) (p : Fin 4) (f : GooseFrame) (l : List Nat) (m n : Nat) (s u : State),
    portUp s p = true →
    f.good = true →
    l = (List.range 64).filter (fun i => (subCfg s i).on && bit (subCfg s i).ports p && (subCfg s i).dmac == f.dmac && (subCfg s i).appid == f.appid && (subCfg s i).names == fit 192 f.names && (subCfg s i).confRev == f.confRev) →
    l = [m] →
    c = subCfg s m →
    r = subGet s m →
    f.ndsCom = false →
    f.test = false ∨ c.test = true →
    r.stNum.any (fun k => f.stNum < k) = false →
    (u = if p.val < 2 then safeCopy p m f.data s else s) →
    r.stNum = some f.stNum →
    f.sqNum = r.sqNum →
    r.port ≠ p.val →
    n ≤ r.at_ + c.dupWin →
    (goosePlaces s m).all (fun i => f.data[i]? == r.data[i]?) = true →
    exec (.gooseFrameReceive p f n) s = .next (when (r.mismatch && 16 ≤ r.agree + 1) (netEvent 0x03 (16 + m) []) (subUpd m (fun x => { x with differ := 0, agree := r.agree + 1, mismatch := x.mismatch && !(r.mismatch && 16 ≤ r.agree + 1) }) (subUpd m (fun x => { x with discarded := inc32 x.discarded }) u)))) ∧
  (∀ (c : GsubCfg) (r : GsubRun) (p : Fin 4) (f : GooseFrame) (l : List Nat) (m n : Nat) (s u : State),
    portUp s p = true →
    f.good = true →
    l = (List.range 64).filter (fun i => (subCfg s i).on && bit (subCfg s i).ports p && (subCfg s i).dmac == f.dmac && (subCfg s i).appid == f.appid && (subCfg s i).names == fit 192 f.names && (subCfg s i).confRev == f.confRev) →
    l = [m] →
    c = subCfg s m →
    r = subGet s m →
    f.ndsCom = false →
    f.test = false ∨ c.test = true →
    r.stNum.any (fun k => f.stNum < k) = false →
    (u = if p.val < 2 then safeCopy p m f.data s else s) →
    r.stNum = some f.stNum →
    f.sqNum = r.sqNum →
    r.port ≠ p.val →
    n ≤ r.at_ + c.dupWin →
    (goosePlaces s m).all (fun i => f.data[i]? == r.data[i]?) = false →
    exec (.gooseFrameReceive p f n) s = .next (when (!r.mismatch && 4 ≤ r.differ + 1) (netEvent 0x03 (16 + m) []) (subUpd m (fun x => { x with differ := r.differ + 1, agree := 0, mismatch := x.mismatch || (!r.mismatch && 4 ≤ r.differ + 1) }) (subUpd m (fun x => { x with discarded := inc32 x.discarded }) u)))) ∧
  (∀ (c : GsubCfg) (r : GsubRun) (p : Fin 4) (f : GooseFrame) (l : List Nat) (m n : Nat) (s u : State),
    portUp s p = true →
    f.good = true →
    l = (List.range 64).filter (fun i => (subCfg s i).on && bit (subCfg s i).ports p && (subCfg s i).dmac == f.dmac && (subCfg s i).appid == f.appid && (subCfg s i).names == fit 192 f.names && (subCfg s i).confRev == f.confRev) →
    l = [m] →
    c = subCfg s m →
    r = subGet s m →
    f.ndsCom = false →
    f.test = false ∨ c.test = true →
    r.stNum.any (fun k => f.stNum < k) = false →
    (u = if p.val < 2 then safeCopy p m f.data s else s) →
    r.stNum ≠ some f.stNum ∨ r.sqNum < f.sqNum →
    r.stale = false ∨ r.stNum = none →
    exec (.gooseFrameReceive p f n) s = .next (subUpd m (fun x => { x with stNum := some f.stNum, sqNum := f.sqNum, port := p, at_ := n, stale := false, data := f.data }) u)) ∧
  (∀ (c : GsubCfg) (r : GsubRun) (p : Fin 4) (f : GooseFrame) (l : List Nat) (m n : Nat) (s u : State),
    portUp s p = true →
    f.good = true →
    l = (List.range 64).filter (fun i => (subCfg s i).on && bit (subCfg s i).ports p && (subCfg s i).dmac == f.dmac && (subCfg s i).appid == f.appid && (subCfg s i).names == fit 192 f.names && (subCfg s i).confRev == f.confRev) →
    l = [m] →
    c = subCfg s m →
    r = subGet s m →
    f.ndsCom = false →
    f.test = false ∨ c.test = true →
    r.stNum.any (fun k => f.stNum < k) = false →
    (u = if p.val < 2 then safeCopy p m f.data s else s) →
    r.stNum ≠ some f.stNum ∨ r.sqNum < f.sqNum →
    r.stale = true →
    r.stNum ≠ none →
    exec (.gooseFrameReceive p f n) s = .next (netEvent 0x04 m [] (subUpd m (fun x => { x with stNum := some f.stNum, sqNum := f.sqNum, port := p, at_ := n, stale := false, data := f.data }) u))) ∧
  (∀ (p : Fin 4) (f : GooseFrame) (n : Nat) (s : State),
    portUp s p = false ∨ f.good = false →
    exec (.gooseFrameReceive p f n) s = .next s) ∧
  (∀ (n : Fin 64) (s : State),
    (subCfg s n).on = true →
    (subGet s n).stale = false →
    exec (.gooseStale n) s = .next (netEvent 0x04 n [] (subUpd n (fun x => { x with stale := true, episodes := inc32 x.episodes }) s))) ∧
  (∀ (n : Fin 64) (s : State),
    (subCfg s n).on = false ∨ (subGet s n).stale = true →
    exec (.gooseStale n) s = .next s) ∧
  (∀ (s : State),
    exec .goosePublishSample s = .next ((List.range 16).foldl (fun t n => pubSample n t) s)) ∧
  (∀ (n : Nat) (s : State),
    n < 16 →
    (∀ j, j < 16 → j ≠ n → (pubCfg s j).on = false) →
    (pubCfg s n).on = true →
    safeNames s true n = false →
    (pubGet s n).sent = false ∨ (pubGet s n).vals ≠ (pubEntries (pubCfg s n)).map (entryValue s) →
    exec .goosePublishSample s = .next (pubUpd n (fun x => { x with stNum := x.stNum + 1, sqNum := 0, vals := (pubEntries (pubCfg s n)).map (entryValue s), sent := true, tries := 0, next := (pubCfg s n).tmin, ttl := 2 * (pubCfg s n).tmin }) s)) ∧
  (∀ (s : State),
    (∀ n, n < 16 → (pubCfg s n).on = false ∨ safeNames s true n = true ∨ ((pubGet s n).sent = true ∧ (pubGet s n).vals = (pubEntries (pubCfg s n)).map (entryValue s))) →
    exec .goosePublishSample s = .next s) ∧
  (∀ (n : Fin 16) (m : Nat) (s : State),
    m = min (2 * (pubGet s n).next) (pubCfg s n).tmax →
    (pubCfg s n).on = true →
    (pubGet s n).sent = true →
    exec (.gooseRetransmit n) s = .next (pubUpd n (fun x => { x with sqNum := x.sqNum + 1, tries := x.tries + 1, next := m, ttl := 2 * m }) s)) ∧
  (∀ (n : Fin 16) (s : State),
    (pubCfg s n).on = false ∨ (pubGet s n).sent = false →
    exec (.gooseRetransmit n) s = .next s) ∧
  (∀ (n : Fin 16) (q : Nat) (p : Bytes) (l : List (Nat × Bytes)) (d : DmaStream) (s : State),
    d = dmaGet s n →
    barOn s = true →
    d.queue = (q, p) :: l →
    d.irq = false →
    exec (.dmaRecordWrite n) s = .next (dmaUpd n (fun x => { x with queue := l }) (putBuf d.tail (le 8 q) (putBuf (d.base + dmaSize d * (q % d.nrec)) p s)))) ∧
  (∀ (n : Fin 16) (q : Nat) (p : Bytes) (l : List (Nat × Bytes)) (d : DmaStream) (s : State),
    d = dmaGet s n →
    barOn s = true →
    d.queue = (q, p) :: l →
    d.irq = true →
    exec (.dmaRecordWrite n) s = .next ((dmaUpd n (fun x => { x with queue := l }) (putBuf d.tail (le 8 q) (putBuf (d.base + dmaSize d * (q % d.nrec)) p s))).onMb (fun m => { m with msix := (10 + n.val) :: m.msix }))) ∧
  (∀ (n : Fin 16) (q : Nat) (p : Bytes) (l : List (Nat × Bytes)) (s : State),
    (dmaGet s n).queue = (q, p) :: l →
    firstIn (dmaGet s n).winDrop s.tick.index = false →
    exec (.dmaRecordDrop n) s = .next ((dmaUpd n (fun x => { x with queue := l, drops := inc32 x.drops }) s).onNet (fun x => { x with dmaDrops := inc32 x.dmaDrops }))) ∧
  (∀ (n : Fin 16) (q : Nat) (p : Bytes) (l : List (Nat × Bytes)) (s : State),
    (dmaGet s n).queue = (q, p) :: l →
    firstIn (dmaGet s n).winDrop s.tick.index = true →
    exec (.dmaRecordDrop n) s = .next (netEvent 0x06 n [1] ((dmaUpd n (fun x => { x with queue := l, drops := inc32 x.drops, winDrop := some s.tick.index }) s).onNet (fun x => { x with dmaDrops := inc32 x.dmaDrops })))) ∧
  (∀ (n : Fin 16) (s : State),
    (dmaGet s n).queue = [] →
    exec (.dmaRecordWrite n) s = .next s ∧ exec (.dmaRecordDrop n) s = .next s) ∧
  (∀ (n : Fin 16) (s : State),
    barOn s = false →
    exec (.dmaRecordWrite n) s = .next s)

/-- SAFE_CONFIG_READ answers the configuration, writes the block where asked and changes nothing else. SAFE_SEAL_CONFIRM action 1 stores the
block, answers CRC_FAIL for a wrong CRC and SEALED where the switch (on the KX8-M3, the tamper state) does not permit it; action 0 answers
CONFLICT with its refusal reasons, and with none confirms and loads. SAFE_RAMP_CONFIG in range waits for the next crossing. SAFE_STOP in
DEBLOCKED requests SS1 and is PENDING; SAFE_TORQUE_OFF enters STO; SAFE_RESET without STO is CONFLICT, with its source present TRIP_ACTIVE,
else it leaves STO. What the loaded configuration does not permit to MB0 is SEALED; the M2 has no ramp and no SS1 (NOT_FITTED). SAFE_STATUS
reads. -/
def Obligations.SafetyCommandsSealStopAndReset : Prop :=
  (∀ (c : Cmd) (s : State),
    Serving s →
    c.mb = 0 →
    Inline c 12 →
    c.u64 0 = 0 →
    c.rsv 8 4 = true →
    exec (.safeConfigRead c) s = .next (answer 0x0E01 c .ok (le 1 (swNow s).toNat ++ le 1 (s.safe.cfg.elim 0 (fun k => k.sw.toNat)) ++ le 1 s.safe.sealSt ++ le 1 (aonFlags s) ++ le 4 (rd (mramSpb s) 380 4) ++ le 4 (confCrcOf s)) s)) ∧
  (∀ (c : Cmd) (s : State),
    Serving s →
    c.mb = 0 →
    Inline c 12 →
    c.u64 0 % 64 = 0 →
    c.u64 0 ≠ 0 →
    c.rsv 8 4 = true →
    exec (.safeConfigRead c) s = .next (answer 0x0E01 c .ok (le 1 (swNow s).toNat ++ le 1 (s.safe.cfg.elim 0 (fun k => k.sw.toNat)) ++ le 1 s.safe.sealSt ++ le 1 (aonFlags s) ++ le 4 (rd (mramSpb s) 380 4) ++ le 4 (confCrcOf s)) (putBuf (c.u64 0) (withCrc (mramSpb s)) s))) ∧
  (∀ (c : Cmd) (p : Bytes) (s v : State),
    p = (c.params.drop 8).take 384 →
    c.mb = 0 →
    s.dev.state ∈ [.config, .standby, .blockedFault, .factoryTest] →
    External c (fun n => n == 392) →
    c.u8 0 = 1 →
    c.rsv 2 2 = true →
    spbZeros p = true →
    spbOwn p = true →
    spbCrc p = c.u32 4 →
    (if noMpr s then s.power.tamper else (swNow s).getLsbD 7) = true →
    v = sealUpdate (s.onSafe (fun y => { y with spb := p, sealBase := 0, vswUs := if rd p 7 1 = rd (mramSpb s) 7 1 then y.vswUs else some s.nowUs })) →
    exec (.safeSealConfirm c) s = .next (answer 0x0E02 c .ok (sealResult v 0) v)) ∧
  (∀ (c : Cmd) (p : Bytes) (s : State),
    p = (c.params.drop 8).take 384 →
    c.mb = 0 →
    s.dev.state ∈ [.config, .standby, .blockedFault, .factoryTest] →
    External c (fun n => n == 392) →
    c.u8 0 = 1 →
    c.rsv 2 2 = true →
    spbZeros p = true →
    spbOwn p = true →
    spbCrc p = c.u32 4 →
    (if noMpr s then s.power.tamper else (swNow s).getLsbD 7) = false →
    exec (.safeSealConfirm c) s = .next (answer 0x0E02 c .sealed [] s)) ∧
  (∀ (c : Cmd) (p : Bytes) (s : State),
    p = (c.params.drop 8).take 384 →
    Serving s →
    c.isExt = true →
    c.blockLen = 392 →
    c.u8 0 = 1 →
    spbOwn p = false ∨ spbCrc p ≠ c.u32 4 →
    exec (.safeSealConfirm c) s = .next (answer 0x0E02 c .crcFail [] s)) ∧
  (∀ (c : Cmd) (s : State),
    c.mb = 0 →
    s.dev.state ∈ [.config, .standby, .blockedFault, .factoryTest] →
    External c (fun n => n == 8) →
    c.u8 0 = 0 →
    c.rsv 2 2 = true →
    sealRefusal (c.u8 1) (c.u32 4) s ≠ 0 →
    exec (.safeSealConfirm c) s = .next (answer 0x0E02 c .conflict (sealResult s (sealRefusal (c.u8 1) (c.u32 4) s)) s)) ∧
  (∀ (c : Cmd) (s v : State),
    c.mb = 0 →
    s.dev.state ∈ [.config, .standby, .blockedFault, .factoryTest] →
    External c (fun n => n == 8) →
    c.u8 0 = 0 →
    c.rsv 2 2 = true →
    sealRefusal (c.u8 1) (c.u32 4) s = 0 →
    v = sealUpdate (safeLoad ((s.onSafe (fun y => { y with sealBase := 1, booted := true, confSw := some (swNow s), confCrc := some (BitVec.ofNat 32 (rd (mramSpb s) 380 4)) })).onPower (fun p => { p with tamper := false }))) →
    exec (.safeSealConfirm c) s = .next (answer 0x0E02 c .ok (sealResult v 0) v)) ∧
  (∀ (c : Cmd) (k : RampCfg) (s : State),
    k = { on := bit (c.u8 0) 0, useSel := bit (c.u8 0) 1, tsel := c.u16 2, target := c.s32 4, vStart := c.s32 8, vStop := c.s32 12, v1 := c.s32 16, a1 := c.s32 20, aMax := c.s32 24, dMax := c.s32 28, d1 := c.s32 32 } →
    c.mb = 0 →
    s.dev.state ∈ [.config, .standby, .deblocked, .blockedFault, .factoryTest] →
    s.dev.role ∈ [.active, .standby] →
    Inline c 36 →
    isM2 s = false →
    c.u8 0 < 4 →
    c.rsv 1 1 = true →
    tselOk s.tick.len k.tsel k.useSel = true →
    0 < k.v1 →
    0 ≤ k.vStart →
    k.vStart ≤ k.v1 →
    0 ≤ k.vStop →
    k.vStop ≤ k.v1 →
    0 < k.a1 →
    0 < k.aMax →
    0 < k.dMax →
    0 < k.d1 →
    exec (.safeRampConfig c) s = .next (answer 0x0E03 c .ok (leS 4 (rampQ s)) (s.onSafe (fun y => { y with rampNew := some k })))) ∧
  (∀ (c : Cmd) (s : State),
    Serving s →
    c.mb = 0 →
    Inline c 36 →
    isM2 s = true →
    exec (.safeRampConfig c) s = .next (answer 0x0E03 c .notFitted [] s)) ∧
  (∀ (c : Cmd) (s : State),
    c.mb = 0 →
    s.dev.state = .deblocked →
    s.dev.role ∈ [.active, .standby] →
    Inline c 0 →
    isM2 s = false →
    swPermits s 1 = true →
    held s .seal = false →
    pendCount s c.mb < 8 →
    exec (.safeStop c) s = .next (answer 0x0E04 c .pending [] (tookPending (fun p => p.opcode == 0x0E04) (pendAs 0x0E04 c [.seal] [.deblocked] 0 none (ss1Request 0x11 s))))) ∧
  (∀ (c : Cmd) (s : State),
    c.mb = 0 →
    s.dev.state = .deblocked →
    s.dev.role ∈ [.active, .standby] →
    Inline c 0 →
    isM2 s = false →
    swPermits s 1 = true →
    held s .seal = true ∨ 8 ≤ pendCount s c.mb →
    exec (.safeStop c) s = .next (answer 0x0E04 c .busy [] s)) ∧
  (∀ (c : Cmd) (s : State),
    c.mb = 0 →
    s.dev.state = .deblocked →
    s.dev.role ∈ [.active, .standby] →
    Inline c 0 →
    isM2 s = false →
    swPermits s 1 = false →
    exec (.safeStop c) s = .next (answer 0x0E04 c .sealed [] s)) ∧
  (∀ (c : Cmd) (s : State),
    Serving s →
    c.mb = 0 →
    Inline c 0 →
    isM2 s = true →
    exec (.safeStop c) s = .next (answer 0x0E04 c .notFitted [] s)) ∧
  (∀ (c : Cmd) (s v : State),
    Serving s →
    c.mb = 0 →
    Inline c 0 →
    swPermits s 1 = true →
    v = stoEnter 0 true s →
    exec (.safeTorqueOff c) s = .next (answer 0x0E05 c .ok (le 1 v.safe.sf.code ++ le 3 0 ++ le 8 s.tick.index) v)) ∧
  (∀ (c : Cmd) (s : State),
    Serving s →
    c.mb = 0 →
    Inline c 0 →
    swPermits s 1 = false →
    exec (.safeTorqueOff c) s = .next (answer 0x0E05 c .sealed [] s)) ∧
  (∀ (c : Cmd) (s : State),
    c.mb = 0 →
    s.dev.state ∈ [.config, .standby, .blockedFault, .factoryTest] →
    Inline c 0 →
    swPermits s 6 = false →
    exec (.safeReset c) s = .next (answer 0x0E06 c .sealed [] s)) ∧
  (∀ (c : Cmd) (s : State),
    c.mb = 0 →
    s.dev.state ∈ [.config, .standby, .blockedFault, .factoryTest] →
    Inline c 0 →
    swPermits s 6 = true →
    s.safe.sf ≠ .sto →
    exec (.safeReset c) s = .next (answer 0x0E06 c .conflict (le 1 s.safe.sf.code) s)) ∧
  (∀ (c : Cmd) (s : State),
    c.mb = 0 →
    s.dev.state ∈ [.config, .standby, .blockedFault, .factoryTest] →
    Inline c 0 →
    swPermits s 6 = true →
    s.safe.sf = .sto →
    stoPresent s = true →
    exec (.safeReset c) s = .next (answer 0x0E06 c .tripActive (le 1 2) s)) ∧
  (∀ (c : Cmd) (s v : State),
    c.mb = 0 →
    s.dev.state ∈ [.config, .standby, .blockedFault, .factoryTest] →
    Inline c 0 →
    swPermits s 6 = true →
    s.safe.sf = .sto →
    stoPresent s = false →
    v = safeEvent 0x0A [Config.openCode 0x150A 0] (s.onSafe (fun y => { y with sf := .idle, mLatch := false, req := false, causes := 0 })) →
    exec (.safeReset c) s = .next (answer 0x0E06 c .ok (le 1 v.safe.sf.code) v)) ∧
  (∀ (c : Cmd) (s : State),
    Serving s →
    c.mb = 0 →
    Inline c 0 →
    exec (.safeStatus c) s = .next (answer 0x0E07 c .ok (safeStatus s) s))

/-- A switch read counts the reads of the value that stands and takes a value read twice in a row. A main-path cycle takes q, the load angle,
the stop in SS1 (STO where the envelope or T_MAX is broken, the transition where the stop is complete) and a held block request, toggles the
heartbeat, and is fatal where a self-test failed. Mordant without a configuration or an MPR does nothing; it blocks at an active STO input
and, in SAFE_STOP, at two checks above its envelope or at T_MAX. A lost heartbeat is fatal once; its suspension ends. A safe message is
delivered when both copies agree and are good and newer, else counted; one copy alone is counted off at its window. Send connections count
SEQ and report a publication that is off; a watchdog that expires acts by its flags. -/
def Obligations.SafetyEventsSuperviseTheStop : Prop :=
  (∀ (v : Byte) (s : State),
    mprOk s = false ∨ s.dev.state = .powerDown →
    exec (.sealSwitchRead v) s = .next s) ∧
  (∀ (v : Byte) (s : State),
    mprOk s = true →
    s.dev.state ≠ .powerDown →
    ¬(s.safe.swRead = some v ∧ (s.safe.swAcc = false ∨ s.safe.sw ≠ v)) →
    exec (.sealSwitchRead v) s = .next (sealUpdate (bootWait (s.onSafe (fun y => { y with swRead := some v, swReads := y.swReads + 1 }))))) ∧
  (∀ (v : Byte) (s : State),
    mprOk s = true →
    s.dev.state ≠ .powerDown →
    (s.safe.swRead = some v ∧ (s.safe.swAcc = false ∨ s.safe.sw ≠ v)) →
    exec (.sealSwitchRead v) s = .next (sealUpdate (bootWait (s.onSafe (fun y => { y with swRead := some v, sw := v, swAcc := true, swReads := 0 }))))) ∧
  (∀ (r : PathCycle) (s : State),
    s.dev.state = .powerDown →
    exec (.mainPathCycle r) s = .next s) ∧
  (∀ (r : PathCycle) (s u : State),
    s.dev.state ≠ .powerDown →
    u = loadAngle (s.onSafe (fun y => { y with q := s.safe.cfg.elim 0 (fun k => monQ s k.spb false), overruns := if r.excess then inc32 y.overruns else y.overruns })) →
    u.safe.sf ≠ .ss1 →
    exec (.mainPathCycle r) s = .next (when r.failed (fatalFault 0 0x015 0x0B 0) ((mainBlock u).onSafe (fun y => { y with beat := !y.beat, suspend := false, beatLost := false })))) ∧
  (∀ (r : PathCycle) (p : Bytes) (q e : Int) (n : Nat) (s u : State),
    s.dev.state ≠ .powerDown →
    u = loadAngle (s.onSafe (fun y => { y with q := s.safe.cfg.elim 0 (fun k => monQ s k.spb false), overruns := if r.excess then inc32 y.overruns else y.overruns })) →
    u.safe.sf = .ss1 →
    p = u.safe.cfg.elim [] (fun k => k.spb) →
    q = u.safe.q0.getD u.safe.q →
    n = u.nowUs - u.safe.t0Us →
    e = envelope p q n →
    (e < u.safe.q ∨ (rd p 24 4 * 1000 ≤ n ∧ ¬(u.safe.v = 0 ∧ u.safe.q ≤ rdS p 20 4))) →
    exec (.mainPathCycle r) s = .next (when r.failed (fatalFault 0 0x015 0x0B 0) ((mainBlock (stoEnter 3 true (safeEvent 0x04 [0, word32 u.safe.q, word32 e] (u.onSafe (fun y => { y with q0 := some q, env := e }))))).onSafe (fun y => { y with beat := !y.beat, suspend := false, beatLost := false })))) ∧
  (∀ (r : PathCycle) (p : Bytes) (q e : Int) (n : Nat) (s u : State),
    s.dev.state ≠ .powerDown →
    u = loadAngle (s.onSafe (fun y => { y with q := s.safe.cfg.elim 0 (fun k => monQ s k.spb false), overruns := if r.excess then inc32 y.overruns else y.overruns })) →
    u.safe.sf = .ss1 →
    p = u.safe.cfg.elim [] (fun k => k.spb) →
    q = u.safe.q0.getD u.safe.q →
    n = u.nowUs - u.safe.t0Us →
    e = envelope p q n →
    ¬(e < u.safe.q ∨ (rd p 24 4 * 1000 ≤ n ∧ ¬(u.safe.v = 0 ∧ u.safe.q ≤ rdS p 20 4))) →
    (u.safe.v = 0 ∧ u.safe.q ≤ rdS p 20 4) →
    u.safe.stopCause = 0x20 →
    exec (.mainPathCycle r) s = .next (when r.failed (fatalFault 0 0x015 0x0B 0) ((mainBlock (addTrigger .blockedFault 0x21 0 (blockAll 0x21 (ss1End 0 ((u.onSafe (fun y => { y with q0 := some q, env := e })).onSafe (fun y => { y with sf := .idle })))))).onSafe (fun y => { y with beat := !y.beat, suspend := false, beatLost := false })))) ∧
  (∀ (r : PathCycle) (p : Bytes) (q e : Int) (n : Nat) (s u : State),
    s.dev.state ≠ .powerDown →
    u = loadAngle (s.onSafe (fun y => { y with q := s.safe.cfg.elim 0 (fun k => monQ s k.spb false), overruns := if r.excess then inc32 y.overruns else y.overruns })) →
    u.safe.sf = .ss1 →
    p = u.safe.cfg.elim [] (fun k => k.spb) →
    q = u.safe.q0.getD u.safe.q →
    n = u.nowUs - u.safe.t0Us →
    e = envelope p q n →
    ¬(e < u.safe.q ∨ (rd p 24 4 * 1000 ≤ n ∧ ¬(u.safe.v = 0 ∧ u.safe.q ≤ rdS p 20 4))) →
    (u.safe.v = 0 ∧ u.safe.q ≤ rdS p 20 4) →
    u.safe.stopCause ≠ 0x20 →
    exec (.mainPathCycle r) s = .next (when r.failed (fatalFault 0 0x015 0x0B 0) ((mainBlock (addTrigger .standby 0x12 0 (blockAll 0x12 (ss1End 0 ((u.onSafe (fun y => { y with q0 := some q, env := e })).onSafe (fun y => { y with sf := .idle })))))).onSafe (fun y => { y with beat := !y.beat, suspend := false, beatLost := false })))) ∧
  (∀ (r : PathCycle) (p : Bytes) (q e : Int) (n : Nat) (s u : State),
    s.dev.state ≠ .powerDown →
    u = loadAngle (s.onSafe (fun y => { y with q := s.safe.cfg.elim 0 (fun k => monQ s k.spb false), overruns := if r.excess then inc32 y.overruns else y.overruns })) →
    u.safe.sf = .ss1 →
    p = u.safe.cfg.elim [] (fun k => k.spb) →
    q = u.safe.q0.getD u.safe.q →
    n = u.nowUs - u.safe.t0Us →
    e = envelope p q n →
    ¬(e < u.safe.q ∨ (rd p 24 4 * 1000 ≤ n ∧ ¬(u.safe.v = 0 ∧ u.safe.q ≤ rdS p 20 4))) →
    ¬(u.safe.v = 0 ∧ u.safe.q ≤ rdS p 20 4) →
    exec (.mainPathCycle r) s = .next (when r.failed (fatalFault 0 0x015 0x0B 0) ((mainBlock (u.onSafe (fun y => { y with q0 := some q, env := e }))).onSafe (fun y => { y with beat := !y.beat, suspend := false, beatLost := false })))) ∧
  (∀ (r : PathCycle) (s : State),
    s.dev.state = .safeStop ∨ s.dev.state = .deblocked →
    s.safe.cfg = none →
    s.safe.sf ≠ .ss1 →
    s.safe.req = true →
    exec (.mainPathCycle r) s = .next (when r.failed (fatalFault 0 0x015 0x0B 0) ((addTrigger .blockedFault 0x32 0 (blockAll 0x32 (s.onSafe (fun y => { y with q := 0, overruns := if r.excess then inc32 y.overruns else y.overruns, req := false })))).onSafe (fun y => { y with beat := !y.beat, suspend := false, beatLost := false })))) ∧
  (∀ (s : State),
    s.safe.mcfg = none ∨ mprOk s = false →
    exec .mordantCheck s = .next s) ∧
  (∀ (k : SafeCfg) (s u : State),
    s.safe.mcfg = some k →
    mprOk s = true →
    (u = if (k.sw.getLsbD 3 = true ∧ s.pwm.active.getLsbD (rd k.spb 6 1) = true ∧ s.safe.mLatch = false) then mordantBlock 2 s else s) →
    u.safe.mStop = false ∨ u.dev.state ≠ .safeStop →
    exec .mordantCheck s = .next u) ∧
  (∀ (k : SafeCfg) (q z e : Int) (t n : Nat) (s u : State),
    s.safe.mcfg = some k →
    mprOk s = true →
    (u = if (k.sw.getLsbD 3 = true ∧ s.pwm.active.getLsbD (rd k.spb 6 1) = true ∧ s.safe.mLatch = false) then mordantBlock 2 s else s) →
    u.safe.mStop = true →
    u.dev.state = .safeStop →
    q = monQ u k.spb true →
    z = u.safe.mq0.getD q →
    t = u.safe.mUs + 10 →
    e = envelope k.spb z t →
    (n = if e < q then u.safe.mOver + 1 else 0) →
    n < 2 →
    t < rd k.spb 24 4 * 1000 →
    exec .mordantCheck s = .next (u.onSafe (fun y => { y with mq0 := some z, mUs := t, mOver := n }))) ∧
  (∀ (k : SafeCfg) (q z e : Int) (t n : Nat) (s u : State),
    s.safe.mcfg = some k →
    mprOk s = true →
    (u = if (k.sw.getLsbD 3 = true ∧ s.pwm.active.getLsbD (rd k.spb 6 1) = true ∧ s.safe.mLatch = false) then mordantBlock 2 s else s) →
    u.safe.mStop = true →
    u.dev.state = .safeStop →
    q = monQ u k.spb true →
    z = u.safe.mq0.getD q →
    t = u.safe.mUs + 10 →
    e = envelope k.spb z t →
    (n = if e < q then u.safe.mOver + 1 else 0) →
    2 ≤ n ∨ rd k.spb 24 4 * 1000 ≤ t →
    exec .mordantCheck s = .next (mordantBlock 4 (raise 3 0x015 0x04 .notice 0 [1, word32 q, word32 e] (u.onSafe (fun y => { y with mq0 := some z, mUs := t, mOver := n }))))) ∧
  (∀ (s : State),
    mprOk s = true →
    s.safe.suspend = false →
    s.safe.beatLost = false →
    running s = false →
    exec .mordantHeartbeatLoss s = .next (fatalFault 3 0x015 0x09 0 (s.onSafe (fun y => { y with beatLost := true })))) ∧
  (∀ (s : State),
    mprOk s = true →
    s.safe.suspend = false →
    s.safe.beatLost = false →
    running s = true →
    exec .mordantHeartbeatLoss s = .next (fatalFault 3 0x015 0x09 0 (mordantBlock 7 (s.onSafe (fun y => { y with beatLost := true }))))) ∧
  (∀ (s : State),
    mprOk s = false ∨ s.safe.suspend = true ∨ s.safe.beatLost = true →
    exec .mordantHeartbeatLoss s = .next s) ∧
  (∀ (s : State),
    exec .mordantSuspendExpiry s = .next (s.onSafe (fun y => { y with suspend := false }))) ∧
  (∀ (n : Fin 16) (s : State),
    copyPair (tget [] s.net.copies n) = none →
    exec (.safeMessageDeliver n) s = .next s) ∧
  (∀ (n : Fin 16) (a b : SafeCopy) (s : State),
    copyPair (tget [] s.net.copies n) = some (a, b) →
    safeNet s = none →
    exec (.safeMessageDeliver n) s = .next (dropCopies n [a, b] s)) ∧
  (∀ (n : Fin 16) (a b : SafeCopy) (p : Bytes) (s : State),
    copyPair (tget [] s.net.copies n) = some (a, b) →
    safeNet s = some p →
    rxOn p n = false →
    exec (.safeMessageDeliver n) s = .next (dropCopies n [a, b] s)) ∧
  (∀ (n : Fin 16) (a b : SafeCopy) (p : Bytes) (s : State),
    copyPair (tget [] s.net.copies n) = some (a, b) →
    safeNet s = some p →
    rxOn p n = true →
    a.pdu = b.pdu →
    (pduCrc (rd p (64 + 8 * n.val) 4) a.pdu = rd a.pdu 28 4 ∧ a.pdu.length = 32 ∧ seqNewer (pduSeq a.pdu) (tget {} s.safe.rx n : RxConn).seq = true) →
    exec (.safeMessageDeliver n) s = .next (safeDeliver n p (pduSeq a.pdu) (rd a.pdu 16 1) (dropCopies n [a, b] s))) ∧
  (∀ (n : Fin 16) (a b : SafeCopy) (p : Bytes) (s : State),
    copyPair (tget [] s.net.copies n) = some (a, b) →
    safeNet s = some p →
    rxOn p n = true →
    a.pdu = b.pdu →
    ¬(pduCrc (rd p (64 + 8 * n.val) 4) a.pdu = rd a.pdu 28 4 ∧ a.pdu.length = 32 ∧ seqNewer (pduSeq a.pdu) (tget {} s.safe.rx n : RxConn).seq = true) →
    exec (.safeMessageDeliver n) s = .next ((dropCopies n [a, b] s).onNet (fun x => { x with safeOff := inc32 x.safeOff }))) ∧
  (∀ (n : Fin 16) (a b : SafeCopy) (p : Bytes) (s : State),
    copyPair (tget [] s.net.copies n) = some (a, b) →
    safeNet s = some p →
    rxOn p n = true →
    a.pdu ≠ b.pdu →
    exec (.safeMessageDeliver n) s = .next (raise 0 0x011 0x05 .notice n [pduSeq a.pdu] ((dropCopies n [a, b] s).onNet (fun x => { x with safeOff := inc32 x.safeOff })))) ∧
  (∀ (n : Fin 16) (a : SafeCopy) (l : List SafeCopy) (s : State),
    tget [] s.net.copies n = a :: l →
    l.any (fun b => b.port != a.port && pduSeq b.pdu == pduSeq a.pdu) = false →
    exec (.safeCopyWindowExpiry n) s = .next ((dropCopies n [a] s).onNet (fun x => { x with safeOff := inc32 x.safeOff }))) ∧
  (∀ (n : Fin 16) (a : SafeCopy) (l : List SafeCopy) (s : State),
    tget [] s.net.copies n = a :: l →
    l.any (fun b => b.port != a.port && pduSeq b.pdu == pduSeq a.pdu) = true →
    exec (.safeCopyWindowExpiry n) s = .next s) ∧
  (∀ (n : Fin 16) (s : State),
    tget [] s.net.copies n = [] →
    exec (.safeCopyWindowExpiry n) s = .next s) ∧
  (∀ (n : Fin 16) (p : Bytes) (x : TxConn) (g : Nat) (s : State),
    safeNet s = some p →
    x = tget {} s.safe.tx n →
    txOn p n = true →
    (pubCfg s (txPub p n)).on = true →
    g = (pubCfg s (txPub p n)).tmin →
    exec (.safeMessageSend n) s = .next (pubUpd (txPub p n) (fun u => { u with stNum := u.stNum + 1, sqNum := 0, vals := [(.octets (safePdu s p n x.seq), true)], sent := true, tries := 0, next := g, ttl := 2 * g }) (s.onSafe (fun y => { y with tx := tset y.tx n ⟨(x.seq + 1) % 2 ^ 32, safeStat s, safePdu s p n x.seq, false⟩ })))) ∧
  (∀ (n : Fin 16) (p : Bytes) (x : TxConn) (s : State),
    safeNet s = some p →
    x = tget {} s.safe.tx n →
    txOn p n = true →
    (pubCfg s (txPub p n)).on = false →
    exec (.safeMessageSend n) s = .next (when (!x.bad) (safeEventAt 0x07 n [Config.openCode 0x1507 0]) (s.onSafe (fun y => { y with tx := tset y.tx n { x with bad := true } })))) ∧
  (∀ (n : Fin 16) (s : State),
    safeNet s = none →
    exec (.safeMessageSend n) s = .next s ∧ exec (.safeRxWatchdogExpiry n) s = .next s) ∧
  (∀ (n : Fin 16) (p : Bytes) (s : State),
    safeNet s = some p →
    txOn p n = false →
    exec (.safeMessageSend n) s = .next s) ∧
  (∀ (n : Fin 16) (p : Bytes) (s : State),
    safeNet s = some p →
    rxOn p n = false ∨ (tget {} s.safe.rx n : RxConn).runs = false ∨ (tget {} s.safe.rx n : RxConn).expired = true →
    exec (.safeRxWatchdogExpiry n) s = .next s) ∧
  (∀ (n : Fin 16) (p : Bytes) (k : RxConn) (s u : State),
    safeNet s = some p →
    k = tget {} s.safe.rx n →
    rxOn p n = true →
    k.runs = true →
    k.expired = false →
    u = safeEventAt 0x06 n [] (s.onSafe (fun y => { y with rx := tset y.rx n { k with expired := true } })) →
    rxFlags p n % 4 = 1 →
    exec (.safeRxWatchdogExpiry n) s = .next (ss1Request 0x20 u)) ∧
  (∀ (n : Fin 16) (p : Bytes) (k : RxConn) (s u : State),
    safeNet s = some p →
    k = tget {} s.safe.rx n →
    rxOn p n = true →
    k.runs = true →
    k.expired = false →
    u = safeEventAt 0x06 n [] (s.onSafe (fun y => { y with rx := tset y.rx n { k with expired := true } })) →
    rxFlags p n % 4 = 2 →
    exec (.safeRxWatchdogExpiry n) s = .next (stoEnter 6 true u)) ∧
  (∀ (n : Fin 16) (p : Bytes) (k : RxConn) (s u : State),
    safeNet s = some p →
    k = tget {} s.safe.rx n →
    rxOn p n = true →
    k.runs = true →
    k.expired = false →
    u = safeEventAt 0x06 n [] (s.onSafe (fun y => { y with rx := tset y.rx n { k with expired := true } })) →
    rxFlags p n % 4 ≠ 1 →
    rxFlags p n % 4 ≠ 2 →
    exec (.safeRxWatchdogExpiry n) s = .next u)

/-- FAULT_MASK_SET removes a pair, refuses a FATAL kind with CONFLICT, leaves a pair already there, appends a new one to fewer than 64 and
answers EXHAUSTED beyond. FAULT_COLOPHON_READ writes the Colophon or its copy, or answers that there is no copy. FAULT_COLOPHON_REARM starts
a new one with the mask. FAULT_STATUS reads. TEST_FAULT_INJECT mode 0 sends the message to the collector, mode 1 upsets the word named
(CONFLICT where the address names none) and mode 2 raises a fatal fault with all its reactions; an absent die is NOT_FITTED. -/
def Obligations.FaultCommandsMaskAndReadTheColophon : Prop :=
  (∀ (c : Cmd) (s : State),
    Serving s →
    c.mb ≠ 0 →
    Inline c 8 →
    c.rsv 4 4 = true →
    (kindRuns (c.u16 0)).isSome = true →
    c.u8 2 = 0xFF ∨ kindClasses (c.u16 0) (c.u8 2) ≠ [] →
    c.u8 3 = 0 →
    exec (.faultMaskSet c) s = .next (answer 0x0F01 c .ok (le 2 (s.fault.masks.filter (· != (c.u16 0, c.u8 2))).length) (s.onFault (fun f => { f with masks := s.fault.masks.filter (· != (c.u16 0, c.u8 2)) })))) ∧
  (∀ (c : Cmd) (s : State),
    Serving s →
    c.mb ≠ 0 →
    Inline c 8 →
    c.rsv 4 4 = true →
    (kindRuns (c.u16 0)).isSome = true →
    c.u8 2 = 0xFF ∨ kindClasses (c.u16 0) (c.u8 2) ≠ [] →
    c.u8 3 = 1 →
    (if c.u8 2 = 0xFF then (List.range 0xFF).any (fatalKind (c.u16 0)) else fatalKind (c.u16 0) (c.u8 2)) = true →
    exec (.faultMaskSet c) s = .next (answer 0x0F01 c .conflict (le 2 s.fault.masks.length) s)) ∧
  (∀ (c : Cmd) (s : State),
    Serving s →
    c.mb ≠ 0 →
    Inline c 8 →
    c.rsv 4 4 = true →
    (kindRuns (c.u16 0)).isSome = true →
    c.u8 2 = 0xFF ∨ kindClasses (c.u16 0) (c.u8 2) ≠ [] →
    c.u8 3 = 1 →
    (if c.u8 2 = 0xFF then (List.range 0xFF).any (fatalKind (c.u16 0)) else fatalKind (c.u16 0) (c.u8 2)) = false →
    s.fault.masks.contains (c.u16 0, c.u8 2) = true →
    exec (.faultMaskSet c) s = .next (answer 0x0F01 c .ok (le 2 s.fault.masks.length) s)) ∧
  (∀ (c : Cmd) (s : State),
    Serving s →
    c.mb ≠ 0 →
    Inline c 8 →
    c.rsv 4 4 = true →
    (kindRuns (c.u16 0)).isSome = true →
    c.u8 2 = 0xFF ∨ kindClasses (c.u16 0) (c.u8 2) ≠ [] →
    c.u8 3 = 1 →
    (if c.u8 2 = 0xFF then (List.range 0xFF).any (fatalKind (c.u16 0)) else fatalKind (c.u16 0) (c.u8 2)) = false →
    s.fault.masks.contains (c.u16 0, c.u8 2) = false →
    s.fault.masks.length < 64 →
    exec (.faultMaskSet c) s = .next (answer 0x0F01 c .ok (le 2 (s.fault.masks.length + 1)) (s.onFault (fun f => { f with masks := s.fault.masks ++ [(c.u16 0, c.u8 2)] })))) ∧
  (∀ (c : Cmd) (s : State),
    Serving s →
    c.mb ≠ 0 →
    Inline c 8 →
    c.rsv 4 4 = true →
    (kindRuns (c.u16 0)).isSome = true →
    c.u8 2 = 0xFF ∨ kindClasses (c.u16 0) (c.u8 2) ≠ [] →
    c.u8 3 = 1 →
    (if c.u8 2 = 0xFF then (List.range 0xFF).any (fatalKind (c.u16 0)) else fatalKind (c.u16 0) (c.u8 2)) = false →
    s.fault.masks.contains (c.u16 0, c.u8 2) = false →
    64 ≤ s.fault.masks.length →
    exec (.faultMaskSet c) s = .next (answer 0x0F01 c .exhausted (le 2 s.fault.masks.length) s)) ∧
  (∀ (c : Cmd) (s : State),
    Serving s →
    c.mb ≠ 0 →
    Inline c 12 →
    c.u8 0 = 0 →
    c.rsv 1 3 = true →
    c.buf 4 = true →
    exec (.faultColophonRead c) s = .next (answer 0x0F02 c .ok s.fault.col.result (putBuf (c.u64 4) s.fault.col.bytes s))) ∧
  (∀ (c : Cmd) (k : Colophon) (s : State),
    Serving s →
    c.mb ≠ 0 →
    Inline c 12 →
    c.u8 0 = 1 →
    c.rsv 1 3 = true →
    c.buf 4 = true →
    s.fault.colCopy = some k →
    exec (.faultColophonRead c) s = .next (answer 0x0F02 c .ok k.result (putBuf (c.u64 4) k.bytes s))) ∧
  (∀ (c : Cmd) (s : State),
    Serving s →
    c.mb ≠ 0 →
    Inline c 12 →
    c.u8 0 = 1 →
    c.rsv 1 3 = true →
    c.buf 4 = true →
    s.fault.colCopy = none →
    exec (.faultColophonRead c) s = .next (answer 0x0F02 c .ok (le 1 3 ++ le 16 0) s)) ∧
  (∀ (c : Cmd) (s : State),
    Serving s →
    c.mb ≠ 0 →
    Inline c 4 →
    c.u8 0 ≠ 0 →
    c.u8 0 % 2 = 0 →
    c.u8 0 < 16 →
    c.u8 1 < 2 →
    c.rsv 2 2 = true →
    exec (.faultColophonRearm c) s = .next (answer 0x0F03 c .ok (le 1 s.fault.col.state.code) (s.onFault (fun f => { f with col := { mask := BitVec.ofNat 4 (c.u8 0) }, colCopy := if c.u8 1 = 1 then none else f.colCopy })))) ∧
  (∀ (c : Cmd) (s : State),
    Serving s →
    Inline c 0 →
    exec (.faultStatus c) s = .next (answer 0x0F04 c .ok (le 1 (b2n s.dev.fatal) ++ le 1 s.fault.col.state.code ++ le 2 s.fault.backlog.length ++ le 8 s.fault.cause.toNat ++ (List.range 4).flatMap (fun i => le 4 (tget 0 s.fault.counts i)) ++ le 4 s.fault.lostCnt ++ le 4 s.fault.mergedAll ++ le 4 s.fault.epCount ++ le 4 s.tick.index) s)) ∧
  (∀ (c : Cmd) (x : FClass) (m : FaultMsg) (s : State),
    m = { die := c.u8 1, block := c.u16 2, kind := c.u8 4, cls := x, addr := c.u32 8, tick := s.tick.index, d := [], injected := true, interim := false } →
    s.dev.state = .factoryTest →
    s.power.straps.ftest = true →
    Inline c 16 →
    c.mb ≠ 0 →
    c.u8 1 < 8 →
    c.u8 6 < 2 →
    c.rsv 7 1 = true →
    c.rsv 12 4 = true →
    dieOk s (c.u8 1) = true →
    c.u8 0 = 0 →
    (kindClasses (c.u16 2) (c.u8 4)).find? (fun y => y.code == c.u8 5) = some x →
    x ≠ .fatal →
    exec (.testFaultInject c) s = .next (answer 0x7F02 c .ok (le 4 s.fault.seq.toNat ++ le 8 s.tick.index) (collect m s))) ∧
  (∀ (c : Cmd) (m : FaultMsg) (s : State),
    m = { die := c.u8 1, block := c.u16 2, kind := c.u8 4, cls := .fatal, addr := c.u32 8, tick := s.tick.index, d := [], injected := true, interim := false } →
    s.dev.state = .factoryTest →
    s.power.straps.ftest = true →
    Inline c 16 →
    c.mb ≠ 0 →
    c.u8 1 < 8 →
    c.u8 6 < 2 →
    c.rsv 7 1 = true →
    c.rsv 12 4 = true →
    dieOk s (c.u8 1) = true →
    c.u8 0 = 0 →
    (kindClasses (c.u16 2) (c.u8 4)).find? (fun y => y.code == c.u8 5) = some .fatal →
    exec (.testFaultInject c) s = .next (answer 0x7F02 c .ok (le 4 s.fault.seq.toNat ++ le 8 s.tick.index) (safeAll 0x30 (fatalLatch m (collect m s))))) ∧
  (∀ (c : Cmd) (m : FaultMsg) (s : State),
    m = { die := c.u8 1, block := c.u16 2, kind := c.u8 4, cls := .fatal, addr := c.u32 8, tick := s.tick.index, d := [], injected := true, interim := false } →
    s.dev.state = .factoryTest →
    s.power.straps.ftest = true →
    Inline c 16 →
    c.mb ≠ 0 →
    c.u8 1 < 8 →
    c.u8 6 < 2 →
    c.rsv 7 1 = true →
    c.rsv 12 4 = true →
    dieOk s (c.u8 1) = true →
    c.u8 0 = 2 →
    (kindClasses (c.u16 2) (c.u8 4)).find? (fun y => y.code == c.u8 5) = some .fatal →
    exec (.testFaultInject c) s = .next (answer 0x7F02 c .ok (le 4 s.fault.seq.toNat ++ le 8 s.tick.index) (markInjected s.fault.waiting.length (fatalReact (c.u8 1) (fatalLatch m (arrive m s)))))) ∧
  (∀ (c : Cmd) (s : State),
    s.dev.state = .factoryTest →
    s.power.straps.ftest = true →
    Inline c 16 →
    c.mb ≠ 0 →
    c.u8 1 < 8 →
    c.u8 6 < 2 →
    c.rsv 7 1 = true →
    c.rsv 12 4 = true →
    dieOk s (c.u8 1) = true →
    c.u8 0 = 1 →
    (kindRuns (c.u16 2)).isSome = true →
    c.u8 6 = 0 →
    exec (.testFaultInject c) s = .next (match Config.eccWord (c.u8 1) (c.u16 2) (c.u32 8) with | none => answer 0x7F02 c .conflict [] s | some i => answer 0x7F02 c .ok (injectOwn { die := c.u8 1, block := c.u16 2, kind := 0xE0, cls := .corrected, addr := i, tick := s.tick.index, d := [c.u32 8], injected := true, interim := false } (eccReact (c.u8 1) (c.u16 2) (Config.eccPlace (c.u8 1) (c.u16 2) (c.u32 8)) false) s).result (injectOwn { die := c.u8 1, block := c.u16 2, kind := 0xE0, cls := .corrected, addr := i, tick := s.tick.index, d := [c.u32 8], injected := true, interim := false } (eccReact (c.u8 1) (c.u16 2) (Config.eccPlace (c.u8 1) (c.u16 2) (c.u32 8)) false) s).st)) ∧
  (∀ (c : Cmd) (s : State),
    s.dev.state = .factoryTest →
    s.power.straps.ftest = true →
    Inline c 16 →
    c.mb ≠ 0 →
    c.u8 1 < 8 →
    c.u8 6 < 2 →
    c.rsv 7 1 = true →
    c.rsv 12 4 = true →
    dieOk s (c.u8 1) = true →
    c.u8 0 = 1 →
    (kindRuns (c.u16 2)).isSome = true →
    c.u8 6 = 1 →
    fatalOwner (c.u16 2) = true →
    exec (.testFaultInject c) s = .next (match Config.eccWord (c.u8 1) (c.u16 2) (c.u32 8) with | none => answer 0x7F02 c .conflict [] s | some i => answer 0x7F02 c .ok (le 4 s.fault.seq.toNat ++ le 8 s.tick.index) (markInjected s.fault.waiting.length (fatalReact (c.u8 1) (fatalLatch { die := c.u8 1, block := c.u16 2, kind := 0xE1, cls := .fatal, addr := i, tick := s.tick.index, d := [c.u32 8], injected := true, interim := false } (arrive { die := c.u8 1, block := c.u16 2, kind := 0xE1, cls := .fatal, addr := i, tick := s.tick.index, d := [c.u32 8], injected := true, interim := false } s)))))) ∧
  (∀ (c : Cmd) (s : State),
    s.dev.state = .factoryTest →
    s.power.straps.ftest = true →
    Inline c 16 →
    c.mb ≠ 0 →
    c.u8 1 < 8 →
    c.u8 6 < 2 →
    c.rsv 7 1 = true →
    c.rsv 12 4 = true →
    dieOk s (c.u8 1) = true →
    c.u8 0 = 1 →
    (kindRuns (c.u16 2)).isSome = true →
    c.u8 6 = 1 →
    c.u16 2 = 0x03A →
    exec (.testFaultInject c) s = .next (match Config.eccWord (c.u8 1) (c.u16 2) (c.u32 8) with | none => answer 0x7F02 c .conflict [] s | some i => answer 0x7F02 c .ok (le 4 s.fault.seq.toNat ++ le 8 s.tick.index) (markInjected s.fault.waiting.length (protStop 2 (arrive { die := c.u8 1, block := c.u16 2, kind := 0xE1, cls := .contained, addr := i, tick := s.tick.index, d := [c.u32 8], injected := true, interim := false } s))))) ∧
  (∀ (c : Cmd) (s : State),
    s.dev.state = .factoryTest →
    s.power.straps.ftest = true →
    Inline c 16 →
    c.mb ≠ 0 →
    c.u8 1 < 8 →
    c.u8 6 < 2 →
    c.rsv 7 1 = true →
    c.rsv 12 4 = true →
    dieOk s (c.u8 1) = true →
    c.u8 0 = 1 →
    (kindRuns (c.u16 2)).isSome = true →
    c.u8 6 = 1 →
    fatalOwner (c.u16 2) = false →
    c.u16 2 ≠ 0x03A →
    exec (.testFaultInject c) s = .next (match Config.eccWord (c.u8 1) (c.u16 2) (c.u32 8) with | none => answer 0x7F02 c .conflict [] s | some i => answer 0x7F02 c .ok (injectOwn { die := c.u8 1, block := c.u16 2, kind := 0xE1, cls := .contained, addr := i, tick := s.tick.index, d := [c.u32 8], injected := true, interim := false } (eccReact (c.u8 1) (c.u16 2) (Config.eccPlace (c.u8 1) (c.u16 2) (c.u32 8)) true) s).result (injectOwn { die := c.u8 1, block := c.u16 2, kind := 0xE1, cls := .contained, addr := i, tick := s.tick.index, d := [c.u32 8], injected := true, interim := false } (eccReact (c.u8 1) (c.u16 2) (Config.eccPlace (c.u8 1) (c.u16 2) (c.u32 8)) true) s).st)) ∧
  (∀ (c : Cmd) (s : State),
    s.dev.state = .factoryTest →
    s.power.straps.ftest = true →
    Inline c 16 →
    c.mb ≠ 0 →
    c.u8 1 < 8 →
    c.u8 6 < 2 →
    c.rsv 7 1 = true →
    c.rsv 12 4 = true →
    dieOk s (c.u8 1) = false →
    exec (.testFaultInject c) s = .next (answer 0x7F02 c .notFitted [] s))

/-- The oldest waiting message arrives at the collector and, when it is the last of its block, what was merged is reported. A fatal kind of a
die that is there reacts; another kind as a fatal decision does nothing. With EN at 1 and a free slot the oldest backlog entry moves to the
window, TAIL advances by one, vector 8 is signalled where IE allows, and a run of losses is reported once there is room. A filling Colophon
freezes with 64 places or after a second; else it does not. Give-way episodes beyond a second raise interim events. -/
def Obligations.FaultEventsReachTheCollector : Prop :=
  (∀ (s : State),
    s.fault.waiting = [] →
    exec .faultMessageArrive s = .next s) ∧
  (∀ (m : FaultMsg) (l : List FaultMsg) (s v : State),
    s.fault.waiting = m :: l →
    v = arrive m (s.onFault (fun f => { f with waiting := l })) →
    tget 0 v.fault.merged (m.die * 512 + m.block) = 0 ∨ l.any (fun x => x.die == m.die && x.block == m.block) = true →
    exec .faultMessageArrive s = .next v) ∧
  (∀ (m : FaultMsg) (l : List FaultMsg) (k n : Nat) (s v : State),
    s.fault.waiting = m :: l →
    v = arrive m (s.onFault (fun f => { f with waiting := l })) →
    k = m.die * 512 + m.block →
    n = tget 0 v.fault.merged k →
    n ≠ 0 →
    l.any (fun x => x.die == m.die && x.block == m.block) = false →
    exec .faultMessageArrive s = .next (raise 0 0x008 0x01 .notice k [n] (v.onFault (fun f => { f with merged := tdel f.merged k })))) ∧
  (∀ (d b k a : Nat) (s : State),
    fatalKind b k = true →
    dieOk s d = true →
    s.dev.state ≠ .powerDown →
    exec (.fatalFault d b k a) s = .next (fatalReact d (fatalLatch (fatalMsg d b k a [] false s) (post (fatalMsg d b k a [] false s) s)))) ∧
  (∀ (d b k a : Nat) (s : State),
    fatalKind b k = false ∨ dieOk s d = false ∨ s.dev.state = .powerDown →
    exec (.fatalFault d b k a) s = .next s) ∧
  (∀ (e : EvEntry) (l : List EvEntry) (s v : State),
    s.fault.backlog = e :: l →
    s.fault.ctrl.getLsbD 0 = true →
    (s.fault.tail - s.fault.head).toNat < 64 →
    v = when (s.fault.ctrl.getLsbD 1 && barOn s) (fun t => t.onMb (fun m => { m with msix := 8 :: m.msix })) (s.onFault (fun x => { x with backlog := l, window := tset x.window (x.tail.toNat % 64) e, tail := x.tail + 1 })) →
    s.fault.lostRun = 0 ∨ 512 ≤ l.length →
    exec .evqEntryMove s = .next v) ∧
  (∀ (e : EvEntry) (l : List EvEntry) (s v : State),
    s.fault.backlog = e :: l →
    s.fault.ctrl.getLsbD 0 = true →
    (s.fault.tail - s.fault.head).toNat < 64 →
    v = when (s.fault.ctrl.getLsbD 1 && barOn s) (fun t => t.onMb (fun m => { m with msix := 8 :: m.msix })) (s.onFault (fun x => { x with backlog := l, window := tset x.window (x.tail.toNat % 64) e, tail := x.tail + 1 })) →
    0 < s.fault.lostRun →
    l.length < 512 →
    exec .evqEntryMove s = .next (raise 0 0x008 0x02 .notice 0 [s.fault.lostRun] (v.onFault (fun x => { x with lostRun := 0 })))) ∧
  (∀ (e : EvEntry) (l : List EvEntry) (s : State),
    s.fault.backlog = e :: l →
    s.fault.ctrl.getLsbD 0 = false ∨ 64 ≤ (s.fault.tail - s.fault.head).toNat →
    exec .evqEntryMove s = .next s) ∧
  (∀ (s : State),
    s.fault.backlog = [] →
    exec .evqEntryMove s = .next s) ∧
  (∀ (k : Colophon) (s : State),
    s.fault.col.state = .filling →
    ¬(s.fault.col.places.length < 64 ∧ s.fault.col.tick ≤ s.tick.index ∧ (s.tick.index - s.fault.col.tick) * s.tick.len < 1000000) →
    k = { s.fault.col with state := .frozen, tick := s.tick.index } →
    exec .colophonFreeze s = .next (raise 0 0x008 0x03 .notice 0 [k.first] (s.onFault (fun f => { f with col := k, colCopy := if 3 ≤ s.spare.given then none else some k })))) ∧
  (∀ (s : State),
    s.fault.col.state ≠ .filling ∨ (s.fault.col.places.length < 64 ∧ s.fault.col.tick ≤ s.tick.index ∧ (s.tick.index - s.fault.col.tick) * s.tick.len < 1000000) →
    exec .colophonFreeze s = .next s) ∧
  (∀ (e : Episode) (s : State),
    s.fault.episodes = [e] →
    e.marks < (s.tick.index - e.first) * s.tick.len / 1000000 →
    exec .giveWayInterim s = .next (precEvent e (e.last + 1 - e.first) true (s.onFault (fun f => { f with episodes := [{ e with marks := e.marks + 1 }] })))) ∧
  (∀ (l : List Episode) (s : State),
    l = s.fault.episodes.filter (fun e => decide (e.marks < (s.tick.index - e.first) * s.tick.len / 1000000)) →
    exec .giveWayInterim s = .next (l.foldl (fun t e => precEvent e (e.last + 1 - e.first) true t) (s.onFault (fun f => { f with episodes := f.episodes.map (fun e => if decide (e.marks < (s.tick.index - e.first) * s.tick.len / 1000000) then { e with marks := e.marks + 1 } else e) }))))

/-- RED_PAIR_FORM of an unpaired active unit stores interface, FOLLOW_TIME and A_x and starts the bring-up, answering PENDING. RED_UNFENCE in
role FENCED starts its bring-up, answering PENDING, or CONFLICT where the partner is silent or not ACTIVE. RED_ROLE_HANDOVER names its
boundary and sends it (action 0) or lets a standby whose partner is silent take the role there (action 1), answering PENDING, or with its
one response at the boundary where that is at most 1 ms ahead; CONFLICT where the partner is not as it must be or the boundary is too near.
BUSY while the pair is held, a commit is armed (formation, unfencing) or no PENDING is left. RED_COMPARE_CONFIG waits for the boundary and
answers the mask of the domains there are. RED_STATUS reads. -/
def Obligations.PairCommandsFormHandOverAndUnfence : Prop :=
  (∀ (c : Cmd) (s : State),
    s.dev.state ∈ [.config, .standby] →
    c.mb ≠ 0 →
    s.dev.role = .active →
    s.dev.paired = false →
    Inline c 8 →
    c.u8 0 < 2 →
    c.u8 1 < 2 →
    (c.s16 2).natAbs ≤ 640 →
    c.rsv 4 4 = true →
    held s .pair = false →
    s.tick.commits = [] →
    pendCount s c.mb < 8 →
    exec (.redPairForm c) s = .next (answer 0x1001 c .pending (formResult s 0) (startForm 0x1001 (pendAs 0x1001 c [.pair] [.config, .standby] 0 none (s.onRed (fun r => { r with onB := c.u8 0 == 1, follow := c.u8 1 == 1, ax := c.s16 2 })))))) ∧
  (∀ (c : Cmd) (s : State),
    s.dev.state ∈ [.config, .standby] →
    c.mb ≠ 0 →
    s.dev.role = .active →
    s.dev.paired = false →
    Inline c 8 →
    c.u8 0 < 2 →
    c.u8 1 < 2 →
    (c.s16 2).natAbs ≤ 640 →
    c.rsv 4 4 = true →
    held s .pair = true ∨ s.tick.commits ≠ [] ∨ 8 ≤ pendCount s c.mb →
    exec (.redPairForm c) s = .next (answer 0x1001 c .busy [] s)) ∧
  (∀ (c : Cmd) (s : State),
    s.dev.state ∈ [.config, .standby, .factoryTest] →
    c.mb ≠ 0 →
    s.dev.role = .fenced →
    Inline c 0 →
    held s .pair = false →
    s.tick.commits = [] →
    pendCount s c.mb < 8 →
    s.red.silent = false →
    s.red.pRole = 0 →
    exec (.redUnfence c) s = .next (answer 0x1003 c .pending (unfenceResult s) (startForm 0x1003 (pendAs 0x1003 c [.pair] [.config, .standby, .factoryTest] 0 none s)))) ∧
  (∀ (c : Cmd) (s : State),
    s.dev.state ∈ [.config, .standby, .factoryTest] →
    c.mb ≠ 0 →
    s.dev.role = .fenced →
    Inline c 0 →
    held s .pair = false →
    s.tick.commits = [] →
    pendCount s c.mb < 8 →
    s.red.silent = true ∨ s.red.pRole ≠ 0 →
    exec (.redUnfence c) s = .next (answer 0x1003 c .conflict (unfenceResult s) s)) ∧
  (∀ (c : Cmd) (s : State),
    s.dev.state ∈ [.config, .standby, .factoryTest] →
    c.mb ≠ 0 →
    s.dev.role = .fenced →
    Inline c 0 →
    held s .pair = true ∨ s.tick.commits ≠ [] ∨ 8 ≤ pendCount s c.mb →
    exec (.redUnfence c) s = .next (answer 0x1003 c .busy [] s)) ∧
  (∀ (c : Cmd) (b : Nat) (s : State),
    (b = if c.u64 4 = 0 then s.tick.index + leadOf s.tick.len else c.u64 4) →
    s.dev.state ∈ [.config, .standby, .deblocked, .safeStop, .blockedFault] →
    c.mb ≠ 0 →
    (c.u8 0 = 0 ∧ s.dev.role = .active ∧ s.dev.paired = true) ∨ (c.u8 0 = 1 ∧ s.dev.role = .standby) →
    Inline c 12 →
    c.rsv 1 3 = true →
    (b - s.tick.index) * s.tick.len ≤ 10000000 →
    held s .pair = false →
    held s .deviceState = false →
    pendCount s c.mb < 8 ∨ (b - s.tick.index) * s.tick.len ≤ 1000 →
    c.u8 0 = 0 →
    s.red.silent = false →
    s.red.pRole = 1 →
    s.tick.index + leadOf s.tick.len ≤ b →
    1000 < (b - s.tick.index) * s.tick.len →
    exec (.redRoleHandover c) s = .next (answer 0x1002 c .pending (le 1 2 ++ le 3 0 ++ le 8 b) (xlSend (.handover b) ((pendAs 0x1002 c [.pair] [.config, .standby, .deblocked, .safeStop, .blockedFault] b none s).onRed (fun r => { r with handover := some (b, false) }))))) ∧
  (∀ (c : Cmd) (b : Nat) (s : State),
    (b = if c.u64 4 = 0 then s.tick.index + leadOf s.tick.len else c.u64 4) →
    s.dev.state ∈ [.config, .standby, .deblocked, .safeStop, .blockedFault] →
    c.mb ≠ 0 →
    (c.u8 0 = 0 ∧ s.dev.role = .active ∧ s.dev.paired = true) ∨ (c.u8 0 = 1 ∧ s.dev.role = .standby) →
    Inline c 12 →
    c.rsv 1 3 = true →
    (b - s.tick.index) * s.tick.len ≤ 10000000 →
    held s .pair = false →
    held s .deviceState = false →
    pendCount s c.mb < 8 ∨ (b - s.tick.index) * s.tick.len ≤ 1000 →
    c.u8 0 = 0 →
    s.red.silent = false →
    s.red.pRole = 1 →
    s.tick.index + leadOf s.tick.len ≤ b →
    (b - s.tick.index) * s.tick.len ≤ 1000 →
    exec (.redRoleHandover c) s = .next (awaitFirst 0x1002 c (xlSend (.handover b) ((pendAs 0x1002 c [.pair] [.config, .standby, .deblocked, .safeStop, .blockedFault] b none s).onRed (fun r => { r with handover := some (b, false) }))))) ∧
  (∀ (c : Cmd) (b : Nat) (s : State),
    (b = if c.u64 4 = 0 then s.tick.index + leadOf s.tick.len else c.u64 4) →
    s.dev.state ∈ [.config, .standby, .deblocked, .safeStop, .blockedFault] →
    c.mb ≠ 0 →
    (c.u8 0 = 0 ∧ s.dev.role = .active ∧ s.dev.paired = true) ∨ (c.u8 0 = 1 ∧ s.dev.role = .standby) →
    Inline c 12 →
    c.rsv 1 3 = true →
    (b - s.tick.index) * s.tick.len ≤ 10000000 →
    held s .pair = false →
    held s .deviceState = false →
    pendCount s c.mb < 8 ∨ (b - s.tick.index) * s.tick.len ≤ 1000 →
    c.u8 0 = 1 →
    s.red.silent = true →
    s.tick.index + leadOf s.tick.len ≤ b →
    1000 < (b - s.tick.index) * s.tick.len →
    exec (.redRoleHandover c) s = .next (answer 0x1002 c .pending (le 1 0 ++ le 3 0 ++ le 8 b) ((pendAs 0x1002 c [.pair] [.config, .standby, .deblocked, .safeStop, .blockedFault] b none s).onRed (fun r => { r with take := some b })))) ∧
  (∀ (c : Cmd) (b : Nat) (s : State),
    (b = if c.u64 4 = 0 then s.tick.index + leadOf s.tick.len else c.u64 4) →
    s.dev.state ∈ [.config, .standby, .deblocked, .safeStop, .blockedFault] →
    c.mb ≠ 0 →
    (c.u8 0 = 0 ∧ s.dev.role = .active ∧ s.dev.paired = true) ∨ (c.u8 0 = 1 ∧ s.dev.role = .standby) →
    Inline c 12 →
    c.rsv 1 3 = true →
    (b - s.tick.index) * s.tick.len ≤ 10000000 →
    held s .pair = false →
    held s .deviceState = false →
    pendCount s c.mb < 8 ∨ (b - s.tick.index) * s.tick.len ≤ 1000 →
    c.u8 0 = 1 →
    s.red.silent = true →
    s.tick.index + leadOf s.tick.len ≤ b →
    (b - s.tick.index) * s.tick.len ≤ 1000 →
    exec (.redRoleHandover c) s = .next (awaitFirst 0x1002 c ((pendAs 0x1002 c [.pair] [.config, .standby, .deblocked, .safeStop, .blockedFault] b none s).onRed (fun r => { r with take := some b })))) ∧
  (∀ (c : Cmd) (b : Nat) (s : State),
    (b = if c.u64 4 = 0 then s.tick.index + leadOf s.tick.len else c.u64 4) →
    s.dev.state ∈ [.config, .standby, .deblocked, .safeStop, .blockedFault] →
    c.mb ≠ 0 →
    (c.u8 0 = 0 ∧ s.dev.role = .active ∧ s.dev.paired = true) ∨ (c.u8 0 = 1 ∧ s.dev.role = .standby) →
    Inline c 12 →
    c.rsv 1 3 = true →
    (b - s.tick.index) * s.tick.len ≤ 10000000 →
    held s .pair = false →
    held s .deviceState = false →
    pendCount s c.mb < 8 ∨ (b - s.tick.index) * s.tick.len ≤ 1000 →
    b < s.tick.index + leadOf s.tick.len ∨ (c.u8 0 = 0 ∧ (s.red.silent = true ∨ s.red.pRole ≠ 1)) ∨ (c.u8 0 = 1 ∧ s.red.silent = false) →
    exec (.redRoleHandover c) s = .next (answer 0x1002 c .conflict (handResult s (s.tick.index + leadOf s.tick.len)) s)) ∧
  (∀ (c : Cmd) (b : Nat) (s : State),
    (b = if c.u64 4 = 0 then s.tick.index + leadOf s.tick.len else c.u64 4) →
    s.dev.state ∈ [.config, .standby, .deblocked, .safeStop, .blockedFault] →
    c.mb ≠ 0 →
    (c.u8 0 = 0 ∧ s.dev.role = .active ∧ s.dev.paired = true) ∨ (c.u8 0 = 1 ∧ s.dev.role = .standby) →
    Inline c 12 →
    c.rsv 1 3 = true →
    (b - s.tick.index) * s.tick.len ≤ 10000000 →
    held s .pair = true ∨ held s .deviceState = true ∨ (8 ≤ pendCount s c.mb ∧ 1000 < (b - s.tick.index) * s.tick.len) →
    exec (.redRoleHandover c) s = .next (answer 0x1002 c .busy [] s)) ∧
  (∀ (c : Cmd) (s : State),
    Serving s →
    c.mb ≠ 0 →
    Inline c 8 →
    1 ≤ c.u8 0 →
    c.u8 0 ≤ 16 →
    c.rsv 1 3 = true →
    c.u32 4 ||| 0x1030FFF = 0x1030FFF →
    exec (.redCompareConfig c) s = .next (answer 0x1004 c .ok (le 4 (c.u32 4 &&& domainsMask s)) (s.onRed (fun r => { r with conf := some (c.u8 0, c.u32 4) })))) ∧
  (∀ (c : Cmd) (s : State),
    Serving s →
    c.mb ≠ 0 →
    Inline c 0 →
    exec (.redStatus c) s = .next (answer 0x1005 c .ok (le 1 s.dev.role.code ++ le 1 (s.red.pRole % 4 + 4 * b2n s.red.silent + 8 * b2n s.dev.paired + 16 * (s.red.pState % 16)) ++ le 1 (b2n s.red.up + 2 * s.red.inverted.toNat + 32 * b2n s.red.reversed) ++ le 1 (redPhase s) ++ leS 4 s.red.dx ++ le 4 s.red.mismatches ++ le 2 (s.red.last.elim 0xFFFF (·.1)) ++ le 2 s.red.disputes ++ le 4 (s.red.last.elim 0 (·.2)) ++ le 4 s.red.lateSets ++ le 2 s.red.promotions ++ le 2 0 ++ le 4 s.tick.index) s))

/-- A bring-up that failed or has another lane order ends the formation with CONFLICT, and so does an equal PAIRSEL or another variant; a good
one takes the link up and waits for clock lock; a lane lost takes it down. Clock lock with the same digest forms the pair, or starts the
installation of a unit that rejoins once its tick index is the active's; with another digest, CONFLICT. TICK is noted, installed and
compared; MSET, COMMIT, STATE, BLOCK, CHECK, TIME and HANDOVER of the partner are stored, sent on, steered by or mirrored as their rule
says; a unit that is not paired, or whose link is down where the message needs it, ignores them. -/
def Obligations.PartnerMessagesAndLinkEvents : Prop :=
  (∀ (b p : Bool) (l : List Nat) (i : BitVec 4) (v n : Nat) (s : State),
    formNow s = some (n, .bringUp) →
    b = false ∨ ¬(l = [0, 1, 2, 3] ∨ l = [3, 2, 1, 0]) →
    exec (.xlinkBringupDone b l i p v) s = .next (formConflict n 8 s)) ∧
  (∀ (p : Bool) (l : List Nat) (i : BitVec 4) (v n m : Nat) (s u : State),
    formNow s = some (n, .bringUp) →
    (l = [0, 1, 2, 3] ∨ l = [3, 2, 1, 0]) →
    (m = if n = 0x1001 then formMask s p v else 0) →
    m ≠ 0 →
    u = redEvent 0x0A .notice 0 [1, i.toNat, b2n (l == [3, 2, 1, 0])] (s.onRed (fun r => { r with up := true, inverted := i, reversed := l == [3, 2, 1, 0], pSel := p, pVariant := v })) →
    exec (.xlinkBringupDone true l i p v) s = .next (formConflict n m u)) ∧
  (∀ (p : Bool) (l : List Nat) (i : BitVec 4) (v n m : Nat) (s u : State),
    formNow s = some (n, .bringUp) →
    (l = [0, 1, 2, 3] ∨ l = [3, 2, 1, 0]) →
    (m = if n = 0x1001 then formMask s p v else 0) →
    m = 0 →
    u = redEvent 0x0A .notice 0 [1, i.toNat, b2n (l == [3, 2, 1, 0])] (s.onRed (fun r => { r with up := true, inverted := i, reversed := l == [3, 2, 1, 0], pSel := p, pVariant := v })) →
    exec (.xlinkBringupDone true l i p v) s = .next (u.onRed (fun r => { r with form := some (n, .lock) }))) ∧
  (∀ (b p : Bool) (l : List Nat) (i : BitVec 4) (v : Nat) (s : State),
    (formNow s).all (fun x => x.2 != .bringUp) = true →
    exec (.xlinkBringupDone b l i p v) s = .next s) ∧
  (∀ (n : Fin 4) (s : State),
    s.red.up = true →
    formNow s = none →
    exec (.xlinkDown n) s = .next (redEvent 0x0A .notice n [0, s.red.inverted.toNat, b2n s.red.reversed] (s.onRed (fun r => { r with up := false })))) ∧
  (∀ (n : Fin 4) (m : Nat) (f : FormStep) (s : State),
    s.red.up = true →
    formNow s = some (m, f) →
    exec (.xlinkDown n) s = .next (formConflict m 8 (redEvent 0x0A .notice n [0, s.red.inverted.toNat, b2n s.red.reversed] (s.onRed (fun r => { r with up := false }))))) ∧
  (∀ (n : Fin 4) (s : State),
    s.red.up = false →
    exec (.xlinkDown n) s = .next s) ∧
  (∀ (d : Word32) (a : XlAlign) (s u : State),
    formNow s = some (0x1001, .lock) →
    (u = if s.power.straps.pairsel then alignTick a s else s) →
    d.toNat = configDigest s →
    exec (.xlclkLock d a) s = .next (formed (configDigest s) u)) ∧
  (∀ (d : Word32) (a : XlAlign) (s u : State),
    formNow s = some (0x1001, .lock) →
    (u = if s.power.straps.pairsel then alignTick a s else s) →
    d.toNat ≠ configDigest s →
    exec (.xlclkLock d a) s = .next (formConflict 0x1001 2 u)) ∧
  (∀ (d : Word32) (a : XlAlign) (s : State),
    formNow s = some (0x1003, .lock) →
    a.index ≠ s.tick.index →
    exec (.xlclkLock d a) s = .next s) ∧
  (∀ (d : Word32) (a : XlAlign) (s : State),
    formNow s = some (0x1003, .lock) →
    a.index = s.tick.index →
    d.toNat = configDigest s →
    exec (.xlclkLock d a) s = .next (unfencePorts (s.onRed (fun r => { r with form := some (0x1003, .install 64), digest := configDigest s })))) ∧
  (∀ (d : Word32) (a : XlAlign) (s : State),
    formNow s = some (0x1003, .lock) →
    a.index = s.tick.index →
    d.toNat ≠ configDigest s →
    exec (.xlclkLock d a) s = .next (formConflict 0x1003 2 s)) ∧
  (∀ (d : Word32) (a : XlAlign) (s : State),
    (formNow s).all (fun x => x.2 != .lock) = true →
    exec (.xlclkLock d a) s = .next s) ∧
  (∀ (z : XlTickIn) (s v : State),
    s.dev.paired = true →
    s.red.up = true →
    v = s.onRed (fun r => { r with heard := some (max z.msg.index (r.heard.getD 0)), pRole := z.msg.role, pState := z.msg.state, theirs := if r.silent then none else some z.msg, record := if z.msg.role = 0 ∧ s.red.silent = false ∧ (s.dev.role = .standby ∨ installing s = true) then some { z.msg.record with cells := r.record.elim [] (·.cells) ++ z.msg.record.cells } else r.record, good := if r.silent = true ∧ r.heard.all (fun t => decide (t < z.msg.index)) = true then r.good + 1 else r.good }) →
    z.msg.role = 0 →
    s.red.silent = false →
    exec (.xlTickReceive z) s = .next (compareTick z.ns (installTick v))) ∧
  (∀ (z : XlTickIn) (s v : State),
    s.dev.paired = true →
    s.red.up = true →
    v = s.onRed (fun r => { r with heard := some (max z.msg.index (r.heard.getD 0)), pRole := z.msg.role, pState := z.msg.state, theirs := if r.silent then none else some z.msg, record := if z.msg.role = 0 ∧ s.red.silent = false ∧ (s.dev.role = .standby ∨ installing s = true) then some { z.msg.record with cells := r.record.elim [] (·.cells) ++ z.msg.record.cells } else r.record, good := if r.silent = true ∧ r.heard.all (fun t => decide (t < z.msg.index)) = true then r.good + 1 else r.good }) →
    z.msg.role ≠ 0 ∨ s.red.silent = true →
    exec (.xlTickReceive z) s = .next (compareTick z.ns v)) ∧
  (∀ (z : XlTickIn) (l : List (Nat × Nat)) (s v : State),
    s.dev.paired = true →
    s.red.up = true →
    v = s.onRed (fun r => { r with heard := some (max z.msg.index (r.heard.getD 0)), pRole := z.msg.role, pState := z.msg.state, theirs := if r.silent then none else some z.msg, record := if z.msg.role = 0 ∧ s.red.silent = false ∧ (s.dev.role = .standby ∨ installing s = true) then some { z.msg.record with cells := r.record.elim [] (·.cells) ++ z.msg.record.cells } else r.record, good := if r.silent = true ∧ r.heard.all (fun t => decide (t < z.msg.index)) = true then r.good + 1 else r.good }) →
    z.msg.role ≠ 0 →
    s.red.silent = false →
    s.red.own = some (z.msg.index, l, true) →
    comparing s = true →
    exec (.xlTickReceive z) s = .next ((l.filter (fun e => bit s.red.mask e.1)).foldl (fun t e => match z.msg.digests.find? (fun x => x.1 == e.1) with | some x => compareDomain z.ns z.msg.index e.1 (x.2 != e.2) t | none => t) (v.onRed (fun r => { r with theirs := none })))) ∧
  (∀ (z : XlTickIn) (n : Nat) (l : List XlChan) (b : Bool) (q : BitVec 9) (d : Word32) (s : State),
    s.dev.paired = false →
    exec (.xlTickReceive z) s = .next s ∧ exec (.xlMsetReceive n l) s = .next s ∧ exec (.xlCommitReceive n q d) s = .next s ∧ exec (.xlCheckReceive b) s = .next s ∧ exec (.xlHandoverReceive n) s = .next s) ∧
  (∀ (z : XlTickIn) (n : Nat) (l : List XlChan) (q : BitVec 9) (d : Word32) (s : State),
    s.red.up = false →
    exec (.xlTickReceive z) s = .next s ∧ exec (.xlMsetReceive n l) s = .next s ∧ exec (.xlCommitReceive n q d) s = .next s) ∧
  (∀ (n : Nat) (l : List XlChan) (s : State),
    s.dev.paired = true →
    s.red.up = true →
    exec (.xlMsetReceive n l) s = .next (s.onRed (fun r => { r with mset := ((n, l) :: r.mset).take 2 }))) ∧
  (∀ (n : Nat) (q : BitVec 9) (d : Word32) (s : State),
    s.dev.paired = true →
    s.red.up = true →
    10 < (n - s.tick.index) * s.tick.len →
    s.tick.commits.any (fun k => k.boundary == n && k.mask == q && k.crc == d) = false →
    exec (.xlCommitReceive n q d) s = .next (s.onTick (fun t => { t with partner := (n, q.toNat, d.toNat) :: t.partner }))) ∧
  (∀ (n : Nat) (q : BitVec 9) (d : Word32) (s : State),
    s.dev.paired = true →
    s.red.up = true →
    10 < (n - s.tick.index) * s.tick.len →
    s.tick.commits.any (fun k => k.boundary == n && k.mask == q && k.crc == d) = true →
    exec (.xlCommitReceive n q d) s = .next (s.onTick (fun t => { t with commits := t.commits.map (fun k => if k.boundary == n && k.mask == q && k.crc == d then { k with matched := true } else k) }))) ∧
  (∀ (n : Nat) (q : BitVec 9) (d : Word32) (s : State),
    s.dev.paired = true →
    s.red.up = true →
    (n - s.tick.index) * s.tick.len ≤ 10 →
    exec (.xlCommitReceive n q d) s = .next s) ∧
  (∀ (a b n e : Nat) (s : State),
    s.dev.paired = true →
    s.red.silent = false →
    (s.red.dispute = none ∧ s.dev.role = .standby) →
    e = (s.red.last.map (·.1)).getD 0 →
    exec (.xlStateReceive true a b n) s = .next (redEvent 0x03 .notice e [n] (s.onRed (fun r => { r with dispute := some (e, n) })))) ∧
  (∀ (a b n : Nat) (s : State),
    ¬(s.red.dispute = none ∧ s.dev.role = .standby) →
    exec (.xlStateReceive true a b n) s = .next s) ∧
  (∀ (a b n : Nat) (x : DevState) (s : State),
    s.dev.paired = true →
    s.red.silent = false →
    s.dev.role ≠ .fenced →
    b ≠ 0x03 →
    b ≠ 0x22 →
    stateOf a = some x →
    exec (.xlStateReceive false a b n) s = .next (addMirror x b (max n (s.tick.index + 1)) s)) ∧
  (∀ (a b n : Nat) (s : State),
    s.dev.role = .fenced ∨ b = 0x03 ∨ b = 0x22 ∨ stateOf a = none →
    exec (.xlStateReceive false a b n) s = .next s) ∧
  (∀ (a b n : Nat) (x : Bool) (s : State),
    s.dev.paired = false ∨ s.red.silent = true →
    exec (.xlStateReceive x a b n) s = .next s) ∧
  (∀ (a : Byte) (s : State),
    s.dev.paired = false →
    exec (.xlBlockReceive a) s = .next s) ∧
  (∀ (a : Byte) (s : State),
    s.dev.paired = true →
    exec (.xlBlockReceive a) s = .next (onPorts (fun p t => match (portGet t p).msg with | some ⟨_, .safe _ _, _⟩ => portUpd p (fun x => { x with blocked := true }) t | _ => sendBlock p a.toNat 4 t) s)) ∧
  (∀ (a : Byte) (n : Nat) (s : State),
    s.dev.paired = true →
    (allPorts s).filter (hears s) = [n] →
    (portGet s n).msg = none →
    exec (.xlBlockReceive a) s = .next (sendBlock n a.toNat 4 s)) ∧
  (∀ (b : Bool) (s : State),
    s.dev.paired = true →
    exec (.xlCheckReceive b) s = .next (s.onRed (fun r => { r with pCheck := some b }))) ∧
  (∀ (r : Int) (l : List Nat) (q b : Nat) (s : State),
    s.dev.paired = true →
    s.red.up = true →
    workRole s = .active →
    exec (.xlTimeMarker r l q b) s = .next (xlSend (.time ((List.range 3).map (fun n => (base s n).val)) s.time.qual.code s.time.bound) (s.onRed (fun x => { x with dx := roundDiv (r - x.ax) 2 })))) ∧
  (∀ (r : Int) (l : List Nat) (q b : Nat) (s v : State),
    s.dev.paired = true →
    s.red.up = true →
    workRole s = .standby →
    s.red.follow = false →
    v = s.onRed (fun x => { x with dx := r, pBases := l }) →
    exec (.xlTimeMarker r l q b) s = .next (steerBase 2 (steerBase 1 v))) ∧
  (∀ (r : Int) (l : List Nat) (q b : Nat) (s v : State),
    s.dev.paired = true →
    s.red.up = true →
    workRole s = .standby →
    s.red.follow = true →
    v = s.onRed (fun x => { x with dx := r, pBases := l }) →
    exec (.xlTimeMarker r l q b) s = .next (setQual (([TQual.unset, .free, .restored, .locked, .holdover, .holdoverOut].find? (fun x => x.code == q)).getD s.time.qual) b (steerBase 0 (steerBase 2 (steerBase 1 v))))) ∧
  (∀ (r : Int) (l : List Nat) (q b : Nat) (s : State),
    s.dev.paired = true →
    s.red.up = true →
    workRole s ≠ .active →
    workRole s ≠ .standby →
    exec (.xlTimeMarker r l q b) s = .next (s.onRed (fun x => { x with dx := r, pBases := l }))) ∧
  (∀ (r : Int) (l : List Nat) (q b : Nat) (s : State),
    s.dev.paired = false ∨ s.red.up = false →
    exec (.xlTimeMarker r l q b) s = .next s) ∧
  (∀ (n : Nat) (s : State),
    s.dev.paired = true →
    s.dev.role = .standby →
    exec (.xlHandoverReceive n) s = .next (s.onRed (fun r => { r with handover := some (n, true) }))) ∧
  (∀ (n : Nat) (s : State),
    s.dev.role ≠ .standby →
    exec (.xlHandoverReceive n) s = .next s)

/-- DISPUTED is entered at its boundary from ACTIVE and STANDBY. A self-check is sent and kept once. With both results the table decides: own
fail fences, partner fail makes ACTIVE (and a discipline that followed starts anew), both pass raises CONTAINED and the one that was active
stays. Without the partner's result for 40 us a passing unit keeps its role and a failing one is fenced. 16 good ticks end the silence; a
due promotion of a standby whose partner is silent makes it ACTIVE, another is dropped, its command CONFLICT. An installed unit is STANDBY;
a timeout ends unfencing. -/
def Obligations.DisputesDecideTheRoles : Prop :=
  (∀ (a b : Nat) (s : State),
    s.red.dispute = some (a, b) →
    b ≤ s.tick.index →
    s.dev.role = .active ∨ s.dev.role = .standby →
    exec .disputedEnter s = .next (setRole .disputed (s.onRed (fun r => { r with before := some s.dev.role, entered := s.nowUs, check := none, pCheck := none, record := none, disputes := min (r.disputes + 1) 65535 })))) ∧
  (∀ (s : State),
    s.red.dispute.all (fun d => decide (s.tick.index < d.2)) = true ∨ (s.dev.role ≠ .active ∧ s.dev.role ≠ .standby) →
    exec .disputedEnter s = .next s) ∧
  (∀ (x y z : Bool) (s : State),
    s.dev.role = .disputed →
    s.red.check = none →
    exec (.selfCheckDone x y z) s = .next (xlSend (.check (x && y && z && configDigest s == s.red.digest)) (s.onRed (fun r => { r with check := some (x && y && z && configDigest s == s.red.digest) })))) ∧
  (∀ (x y z : Bool) (s : State),
    s.dev.role ≠ .disputed ∨ s.red.check ≠ none →
    exec (.selfCheckDone x y z) s = .next s) ∧
  (∀ (b : Bool) (s : State),
    s.dev.role = .disputed →
    s.red.check = some false →
    s.red.pCheck = some b →
    exec .roleDecision s = .next (fenceNow b (checkEvent 0 (b2n b) (endDispute s)))) ∧
  (∀ (s : State),
    s.dev.role = .disputed →
    s.red.check = some true →
    s.red.pCheck = some false →
    exec .roleDecision s = .next (setRole .active (when (followsTime s && s.time.cfg.mode) restartTime (checkEvent 1 0 (endDispute s))))) ∧
  (∀ (s : State),
    s.dev.role = .disputed →
    s.red.check = some true →
    s.red.pCheck = some true →
    s.red.before = some .active →
    exec .roleDecision s = .next (setRole .active (redEvent 0x05 .contained ((s.red.dispute.map (·.1)).getD 0) [] (checkEvent 1 1 (endDispute s))))) ∧
  (∀ (s : State),
    s.dev.role = .disputed →
    s.red.check = some true →
    s.red.pCheck = some true →
    s.red.before ≠ some .active →
    exec .roleDecision s = .next (fenceNow true (redEvent 0x05 .contained ((s.red.dispute.map (·.1)).getD 0) [] (checkEvent 1 1 (endDispute s))))) ∧
  (∀ (s : State),
    s.dev.role ≠ .disputed ∨ s.red.check = none ∨ s.red.pCheck = none →
    exec .roleDecision s = .next s) ∧
  (∀ (s : State),
    s.dev.role = .disputed →
    s.red.entered + 40 ≤ s.nowUs →
    s.red.pCheck = none →
    s.red.check = some true →
    exec .checkTimeout s = .next (partnerLost 0 (setRole (s.red.before.getD .active) (checkEvent 1 2 (endDispute s))))) ∧
  (∀ (s : State),
    s.dev.role = .disputed →
    s.red.entered + 40 ≤ s.nowUs →
    s.red.pCheck = none →
    s.red.check = some false →
    exec .checkTimeout s = .next (fenceNow false (checkEvent 0 2 (endDispute s)))) ∧
  (∀ (s : State),
    s.dev.role ≠ .disputed ∨ s.nowUs < s.red.entered + 40 ∨ s.red.check = none ∨ s.red.pCheck ≠ none →
    exec .checkTimeout s = .next s) ∧
  (∀ (s : State),
    s.red.silent = true →
    16 ≤ s.red.good →
    exec .partnerBack s = .next (redEvent 0x07 .notice 0 [] (s.onRed (fun r => { r with silent := false, good := 0, missed := 0, evidence := 0, theirs := none, own := none, promote := none })))) ∧
  (∀ (s : State),
    s.red.silent = false ∨ s.red.good < 16 →
    exec .partnerBack s = .next s) ∧
  (∀ (s t : State),
    (s.red.promote.any (fun x => decide (x ≤ s.tick.index))) = true ∨ (s.red.take.any (fun x => decide (x ≤ s.tick.index))) = true →
    s.dev.role = .standby →
    s.red.silent = true →
    t = promoteNow (b2n (!(s.red.promote.any (fun x => decide (x ≤ s.tick.index))))) s →
    s.red.take = none →
    exec .promotion s = .next t) ∧
  (∀ (s t : State),
    (s.red.promote.any (fun x => decide (x ≤ s.tick.index))) = true ∨ (s.red.take.any (fun x => decide (x ≤ s.tick.index))) = true →
    s.dev.role = .standby →
    s.red.silent = true →
    t = promoteNow (b2n (!(s.red.promote.any (fun x => decide (x ≤ s.tick.index))))) s →
    s.red.take ≠ none →
    exec .promotion s = .next (endRed 0x1002 .ok (handResult t s.tick.index) t)) ∧
  (∀ (s t : State),
    (s.red.promote.any (fun x => decide (x ≤ s.tick.index))) = true ∨ (s.red.take.any (fun x => decide (x ≤ s.tick.index))) = true →
    s.dev.role ≠ .standby ∨ s.red.silent = false →
    t = s.onRed (fun r => { r with promote := r.promote.filter (fun x => s.tick.index < x), take := r.take.filter (fun x => s.tick.index < x) }) →
    exec .promotion s = .next (if (s.red.take.any (fun x => decide (x ≤ s.tick.index))) then endRed 0x1002 .conflict (handResult s s.tick.index) t else t)) ∧
  (∀ (s : State),
    (s.red.promote.any (fun x => decide (x ≤ s.tick.index))) = false →
    (s.red.take.any (fun x => decide (x ≤ s.tick.index))) = false →
    exec .promotion s = .next s) ∧
  (∀ (s u : State),
    formNow s = some (0x1003, .install 0) →
    u = standbyTime (setRole .standby (takeState s)) →
    exec .unfenceInstallDone s = .next (endForm 0x1003 .ok (unfenceResult u) ((compareFresh u).onRed (fun r => { r with heard := some s.tick.index, missed := 0 })))) ∧
  (∀ (s : State),
    formNow s ≠ some (0x1003, .install 0) →
    exec .unfenceInstallDone s = .next s) ∧
  (∀ (f : FormStep) (s : State),
    formNow s = some (0x1003, f) →
    exec .unfenceTimeout s = .next (endForm 0x1003 .timeout (unfenceResult s) s)) ∧
  (∀ (s : State),
    (formNow s).all (fun f => f.1 != 0x1003) = true →
    exec .unfenceTimeout s = .next s)

/-- REC_CONFIG within the DRAM stores its parameters and, when sizes move, empties rings and slots; beyond it is EXHAUSTED; a cleared tap with
slots is CONFLICT; BUSY while a freeze fills or is held. REC_FREEZE of a free slot begins a freeze, of a filling or held one or with the
recorder off it is CONFLICT, and without a slot named it merges, takes a free slot or is EXHAUSTED. REC_FREEZE_READ part 2 deletes a slot;
parts 0 and 1 write what is asked for, PENDING beyond 1 MiB; CONFLICT where there is nothing to read. REC_REPLAY_START loads an image
(CRC_FAIL, CONFLICT into a filling slot), answers BAD_PARAM for a start without an image and the conflict mask where it may not run, and
else arms and is PENDING. REC_REPLAY_STOP gives outcome 1 unless the last tick runs. REC_STATUS reads. -/
def Obligations.RecorderCommandsConfigureFreezeAndReplay : Prop :=
  (∀ (c : Cmd) (k : GalleyCfg) (s : State),
    k = recCfg c →
    s.dev.state ∈ [.config, .factoryTest] →
    c.mb ≠ 0 →
    Inline c 32 →
    recRange k (dramUsable s) = true →
    c.rsv 2 2 = true →
    c.rsv 30 2 = true →
    recBusy s = false →
    ((List.range 11).any (fun i => bit s.galley.cfg.mask i && !bit k.mask i)) = false ∨ k.frzN = 0 →
    dramUsable s < k.ring.getD 0 + k.frzN * k.frz + k.dec + s.prot.act.recs.store →
    exec (.recConfig c) s = .next (answer 0x1101 c .exhausted [] s)) ∧
  (∀ (c : Cmd) (k : GalleyCfg) (s : State),
    k = recCfg c →
    s.dev.state ∈ [.config, .factoryTest] →
    c.mb ≠ 0 →
    Inline c 32 →
    recRange k (dramUsable s) = true →
    c.rsv 2 2 = true →
    c.rsv 30 2 = true →
    recBusy s = false →
    ((List.range 11).any (fun i => bit s.galley.cfg.mask i && !bit k.mask i)) = false ∨ k.frzN = 0 →
    k.ring.getD 0 + k.frzN * k.frz + k.dec + s.prot.act.recs.store ≤ dramUsable s →
    (ringMib s s.galley.cfg ≠ k.ring.getD 0 ∨ s.galley.cfg.frzN ≠ k.frzN ∨ s.galley.cfg.frz ≠ k.frz ∨ s.galley.cfg.dec ≠ k.dec) →
    exec (.recConfig c) s = .next (answer 0x1101 c .ok (le 4 (dramUsable s - (k.ring.getD 0 + k.frzN * k.frz + k.dec)) ++ le 4 (k.img * 1024)) (recEvent 0x09 0 [k.ring.getD 0, k.frzN, k.dec] (s.onGalley (fun g => { g with cfg := k, partTaps := ((List.range 11).any (fun i => bit s.galley.cfg.mask i && !bit k.mask i)) || (g.partTaps && k.mask != 0x7FE), ring := [], dec := [], slots := [], images := [], buf := [], pred := [] }))))) ∧
  (∀ (c : Cmd) (k : GalleyCfg) (s : State),
    k = recCfg c →
    s.dev.state ∈ [.config, .factoryTest] →
    c.mb ≠ 0 →
    Inline c 32 →
    recRange k (dramUsable s) = true →
    c.rsv 2 2 = true →
    c.rsv 30 2 = true →
    recBusy s = false →
    ((List.range 11).any (fun i => bit s.galley.cfg.mask i && !bit k.mask i)) = false ∨ k.frzN = 0 →
    k.ring.getD 0 + k.frzN * k.frz + k.dec + s.prot.act.recs.store ≤ dramUsable s →
    ¬(ringMib s s.galley.cfg ≠ k.ring.getD 0 ∨ s.galley.cfg.frzN ≠ k.frzN ∨ s.galley.cfg.frz ≠ k.frz ∨ s.galley.cfg.dec ≠ k.dec) →
    exec (.recConfig c) s = .next (answer 0x1101 c .ok (le 4 (dramUsable s - (k.ring.getD 0 + k.frzN * k.frz + k.dec)) ++ le 4 (k.img * 1024)) (recEvent 0x09 0 [k.ring.getD 0, k.frzN, k.dec] (s.onGalley (fun g => { g with cfg := k, partTaps := ((List.range 11).any (fun i => bit s.galley.cfg.mask i && !bit k.mask i)) || (g.partTaps && k.mask != 0x7FE) }))))) ∧
  (∀ (c : Cmd) (k : GalleyCfg) (s : State),
    k = recCfg c →
    s.dev.state ∈ [.config, .factoryTest] →
    c.mb ≠ 0 →
    Inline c 32 →
    recRange k (dramUsable s) = true →
    c.rsv 2 2 = true →
    c.rsv 30 2 = true →
    recBusy s = false →
    ((List.range 11).any (fun i => bit s.galley.cfg.mask i && !bit k.mask i)) = true →
    k.frzN ≠ 0 →
    exec (.recConfig c) s = .next (answer 0x1101 c .conflict [] s)) ∧
  (∀ (c : Cmd) (k : GalleyCfg) (s : State),
    k = recCfg c →
    s.dev.state ∈ [.config, .factoryTest] →
    c.mb ≠ 0 →
    Inline c 32 →
    recRange k (dramUsable s) = true →
    c.rsv 2 2 = true →
    c.rsv 30 2 = true →
    recBusy s = true →
    exec (.recConfig c) s = .next (answer 0x1101 c .busy [] s)) ∧
  (∀ (c : Cmd) (s : State),
    Serving s →
    c.mb ≠ 0 →
    Inline c 4 →
    c.u8 0 = 0xFF ∨ c.u8 0 < s.galley.cfg.frzN →
    c.rsv 1 3 = true →
    c.u8 0 ≠ 0xFF →
    bit s.galley.cfg.flags 0 = true →
    (slotGet s (c.u8 0)).filling = false →
    held s (.freeze (c.u8 0)) = false →
    exec (.recFreeze c) s = .next (answer 0x1102 c .ok (le 1 (c.u8 0) ++ le 3 0 ++ le 8 s.tick.index) (freezeBegin (c.u8 0) 0xFF s.tick.index s))) ∧
  (∀ (c : Cmd) (s : State),
    Serving s →
    c.mb ≠ 0 →
    Inline c 4 →
    c.u8 0 = 0xFF ∨ c.u8 0 < s.galley.cfg.frzN →
    c.rsv 1 3 = true →
    bit s.galley.cfg.flags 0 = false ∨ (c.u8 0 ≠ 0xFF ∧ ((slotGet s (c.u8 0)).filling = true ∨ held s (.freeze (c.u8 0)) = true)) →
    exec (.recFreeze c) s = .next (answer 0x1102 c .conflict [] s)) ∧
  (∀ (c : Cmd) (e : Nat × Freeze) (s : State),
    Serving s →
    c.mb ≠ 0 →
    Inline c 4 →
    c.u8 0 = 0xFF ∨ c.u8 0 < s.galley.cfg.frzN →
    c.rsv 1 3 = true →
    c.u8 0 = 0xFF →
    bit s.galley.cfg.flags 0 = true →
    s.galley.slots.find? (fun x => x.2.filling && x.2.first ≤ s.tick.index && s.tick.index ≤ x.2.until_) = some e →
    exec (.recFreeze c) s = .next (answer 0x1102 c .ok (le 1 e.1 ++ le 3 0 ++ le 8 s.tick.index) (freezeTrigger 0xFF s.tick.index s))) ∧
  (∀ (c : Cmd) (n : Nat) (s : State),
    Serving s →
    c.mb ≠ 0 →
    Inline c 4 →
    c.u8 0 = 0xFF ∨ c.u8 0 < s.galley.cfg.frzN →
    c.rsv 1 3 = true →
    c.u8 0 = 0xFF →
    bit s.galley.cfg.flags 0 = true →
    s.galley.slots.find? (fun x => x.2.filling && x.2.first ≤ s.tick.index && s.tick.index ≤ x.2.until_) = none →
    freezeSlot s = some n →
    exec (.recFreeze c) s = .next (answer 0x1102 c .ok (le 1 n ++ le 3 0 ++ le 8 s.tick.index) (freezeBegin n 0xFF s.tick.index s))) ∧
  (∀ (c : Cmd) (s : State),
    Serving s →
    c.mb ≠ 0 →
    Inline c 4 →
    c.u8 0 = 0xFF ∨ c.u8 0 < s.galley.cfg.frzN →
    c.rsv 1 3 = true →
    c.u8 0 = 0xFF →
    bit s.galley.cfg.flags 0 = true →
    s.galley.slots.find? (fun x => x.2.filling && x.2.first ≤ s.tick.index && s.tick.index ≤ x.2.until_) = none →
    freezeSlot s = none →
    exec (.recFreeze c) s = .next (answer 0x1102 c .exhausted [] s)) ∧
  (∀ (c : Cmd) (s : State),
    Serving s →
    c.mb ≠ 0 →
    Inline c 24 →
    c.u8 0 = 0xFE ∨ c.u8 0 < s.galley.cfg.frzN →
    c.rsv 2 2 = true →
    c.u8 1 = 2 →
    held s (.freeze (c.u8 0)) = false →
    c.u8 0 ≠ 0xFE →
    thas s.galley.slots (c.u8 0) = true →
    (slotGet s (c.u8 0)).filling = false →
    exec (.recFreezeRead c) s = .next (answer 0x1103 c .ok (le 8 0 ++ le 4 0 ++ le 4 0) (s.onGalley (fun x => { x with slots := tdel x.slots (c.u8 0) })))) ∧
  (∀ (c : Cmd) (s : State),
    Serving s →
    c.mb ≠ 0 →
    Inline c 24 →
    c.u8 0 = 0xFE ∨ c.u8 0 < s.galley.cfg.frzN →
    c.rsv 2 2 = true →
    c.u8 1 = 2 →
    held s (.freeze (c.u8 0)) = false →
    c.u8 0 = 0xFE ∨ thas s.galley.slots (c.u8 0) = false ∨ (slotGet s (c.u8 0)).filling = true →
    exec (.recFreezeRead c) s = .next (answer 0x1103 c .conflict [] s)) ∧
  (∀ (c : Cmd) (s : State),
    Serving s →
    c.mb ≠ 0 →
    Inline c 24 →
    c.u8 0 = 0xFE ∨ c.u8 0 < s.galley.cfg.frzN →
    c.rsv 2 2 = true →
    c.u8 1 < 2 →
    c.buf 12 = true →
    64 ≤ c.u32 20 →
    c.u32 20 ≤ 16777216 →
    held s (.freeze (c.u8 0)) = false →
    pendCount s c.mb < 8 ∨ c.u32 20 ≤ 1048576 →
    (recPart s (c.u8 0) (c.u8 1)).all (fun p => decide (p.length < c.u64 4)) = true →
    exec (.recFreezeRead c) s = .next (answer 0x1103 c .conflict [] s)) ∧
  (∀ (c : Cmd) (p w : Bytes) (s : State),
    Serving s →
    c.mb ≠ 0 →
    Inline c 24 →
    c.u8 0 = 0xFE ∨ c.u8 0 < s.galley.cfg.frzN →
    c.rsv 2 2 = true →
    c.u8 1 < 2 →
    c.buf 12 = true →
    64 ≤ c.u32 20 →
    c.u32 20 ≤ 16777216 →
    held s (.freeze (c.u8 0)) = false →
    pendCount s c.mb < 8 ∨ c.u32 20 ≤ 1048576 →
    recPart s (c.u8 0) (c.u8 1) = some p →
    c.u64 4 ≤ p.length →
    w = (p.drop (c.u64 4)).take (c.u32 20) →
    w.length ≤ 1048576 →
    exec (.recFreezeRead c) s = .next (answer 0x1103 c .ok (le 8 p.length ++ le 4 w.length ++ le 4 (crc32c w).toNat) (putBuf (c.u64 12) w s))) ∧
  (∀ (c : Cmd) (p w : Bytes) (s : State),
    Serving s →
    c.mb ≠ 0 →
    Inline c 24 →
    c.u8 0 = 0xFE ∨ c.u8 0 < s.galley.cfg.frzN →
    c.rsv 2 2 = true →
    c.u8 1 < 2 →
    c.buf 12 = true →
    64 ≤ c.u32 20 →
    c.u32 20 ≤ 16777216 →
    held s (.freeze (c.u8 0)) = false →
    pendCount s c.mb < 8 ∨ c.u32 20 ≤ 1048576 →
    recPart s (c.u8 0) (c.u8 1) = some p →
    c.u64 4 ≤ p.length →
    w = (p.drop (c.u64 4)).take (c.u32 20) →
    1048576 < w.length →
    exec (.recFreezeRead c) s = .next (answer 0x1103 c .pending [] (pendAs 0x1103 c [.freeze (c.u8 0)] [.config, .standby, .deblocked, .safeStop, .blockedFault, .replay, .factoryTest] (c.u8 0) (some (.ok, (le 8 p.length ++ le 4 w.length ++ le 4 (crc32c w).toNat))) (putBuf (c.u64 12) w s)))) ∧
  (∀ (c : Cmd) (s : State),
    Serving s →
    c.mb ≠ 0 →
    Inline c 24 →
    c.u8 0 = 0xFE ∨ c.u8 0 < s.galley.cfg.frzN →
    c.rsv 2 2 = true →
    c.u8 1 = 2 ∨ (c.u8 1 < 2 ∧ c.buf 12 = true ∧ 64 ≤ c.u32 20 ∧ c.u32 20 ≤ 16777216) →
    held s (.freeze (c.u8 0)) = true ∨ (c.u8 1 ≠ 2 ∧ 1048576 < c.u32 20 ∧ 8 ≤ pendCount s c.mb) →
    exec (.recFreezeRead c) s = .next (answer 0x1103 c .busy [] s)) ∧
  (∀ (c : Cmd) (b p : Bytes) (s : State),
    s.dev.state = .config →
    c.mb ≠ 0 →
    s.dev.role = .active →
    s.dev.paired = false ∨ c.u8 1 = 2 →
    Inline c 32 →
    isM2 s = false →
    c.u8 0 < s.galley.cfg.frzN →
    c.u8 1 < 3 →
    c.u8 2 < 2 →
    c.rsv 3 1 = true →
    c.u8 1 = 0 ∨ (c.buf 20 = true ∧ 1 ≤ c.u32 28 ∧ c.u32 28 ≤ s.galley.cfg.frz * 1024) →
    [Obj.deviceState, .tickLength, .pair, .recorder, .freeze (c.u8 0)].all (fun o => !held s o) = true →
    pendCount s c.mb < 8 ∨ c.u8 1 = 2 →
    p = fit (c.u32 28 * 1024) b →
    c.u8 1 ≠ 0 →
    (slotGet s (c.u8 0)).filling = true →
    exec (.recReplayStart c b) s = .next (answer 0x1104 c .conflict (replayNone 32) s)) ∧
  (∀ (c : Cmd) (b p : Bytes) (s : State),
    s.dev.state = .config →
    c.mb ≠ 0 →
    s.dev.role = .active →
    s.dev.paired = false ∨ c.u8 1 = 2 →
    Inline c 32 →
    isM2 s = false →
    c.u8 0 < s.galley.cfg.frzN →
    c.u8 1 < 3 →
    c.u8 2 < 2 →
    c.rsv 3 1 = true →
    c.u8 1 = 0 ∨ (c.buf 20 = true ∧ 1 ≤ c.u32 28 ∧ c.u32 28 ≤ s.galley.cfg.frz * 1024) →
    [Obj.deviceState, .tickLength, .pair, .recorder, .freeze (c.u8 0)].all (fun o => !held s o) = true →
    pendCount s c.mb < 8 ∨ c.u8 1 = 2 →
    p = fit (c.u32 28 * 1024) b →
    c.u8 1 ≠ 0 →
    (slotGet s (c.u8 0)).filling = false →
    headerGood p = false →
    exec (.recReplayStart c b) s = .next (answer 0x1104 c .crcFail (replayNone 0) (s.onGalley (fun x => { x with slots := tdel x.slots (c.u8 0) })))) ∧
  (∀ (c : Cmd) (b p : Bytes) (s : State),
    s.dev.state = .config →
    c.mb ≠ 0 →
    s.dev.role = .active →
    s.dev.paired = false ∨ c.u8 1 = 2 →
    Inline c 32 →
    isM2 s = false →
    c.u8 0 < s.galley.cfg.frzN →
    c.u8 1 < 3 →
    c.u8 2 < 2 →
    c.rsv 3 1 = true →
    c.u8 1 = 0 ∨ (c.buf 20 = true ∧ 1 ≤ c.u32 28 ∧ c.u32 28 ≤ s.galley.cfg.frz * 1024) →
    [Obj.deviceState, .tickLength, .pair, .recorder, .freeze (c.u8 0)].all (fun o => !held s o) = true →
    pendCount s c.mb < 8 ∨ c.u8 1 = 2 →
    p = fit (c.u32 28 * 1024) b →
    c.u8 1 = 2 →
    (slotGet s (c.u8 0)).filling = false →
    headerGood p = true →
    exec (.recReplayStart c b) s = .next (answer 0x1104 c .ok (replayNone 0) (s.onGalley (fun x => { x with slots := tset x.slots (c.u8 0) (loadedFreeze p) })))) ∧
  (∀ (c : Cmd) (b p : Bytes) (n : Nat) (s v : State),
    s.dev.state = .config →
    c.mb ≠ 0 →
    s.dev.role = .active →
    s.dev.paired = false ∨ c.u8 1 = 2 →
    Inline c 32 →
    isM2 s = false →
    c.u8 0 < s.galley.cfg.frzN →
    c.u8 1 < 3 →
    c.u8 2 < 2 →
    c.rsv 3 1 = true →
    c.u8 1 = 0 ∨ (c.buf 20 = true ∧ 1 ≤ c.u32 28 ∧ c.u32 28 ≤ s.galley.cfg.frz * 1024) →
    [Obj.deviceState, .tickLength, .pair, .recorder, .freeze (c.u8 0)].all (fun o => !held s o) = true →
    pendCount s c.mb < 8 ∨ c.u8 1 = 2 →
    p = fit (c.u32 28 * 1024) b →
    (c.u8 1 = 0 ∧ v = s) ∨ (c.u8 1 = 1 ∧ (slotGet s (c.u8 0)).filling = false ∧ headerGood p = true ∧ v = s.onGalley (fun x => { x with slots := tset x.slots (c.u8 0) (loadedFreeze p) })) →
    (n = if c.u64 4 = 0 then (slotGet v (c.u8 0)).image else c.u64 4) →
    c.u64 4 ≠ 0 →
    thas v.galley.slots (c.u8 0) = true →
    replayImage v (c.u8 0) n = none →
    exec (.recReplayStart c b) s = .next (answer 0x1104 c .badParam [] s)) ∧
  (∀ (c : Cmd) (b p : Bytes) (n : Nat) (s v : State),
    s.dev.state = .config →
    c.mb ≠ 0 →
    s.dev.role = .active →
    s.dev.paired = false ∨ c.u8 1 = 2 →
    Inline c 32 →
    isM2 s = false →
    c.u8 0 < s.galley.cfg.frzN →
    c.u8 1 < 3 →
    c.u8 2 < 2 →
    c.rsv 3 1 = true →
    c.u8 1 = 0 ∨ (c.buf 20 = true ∧ 1 ≤ c.u32 28 ∧ c.u32 28 ≤ s.galley.cfg.frz * 1024) →
    [Obj.deviceState, .tickLength, .pair, .recorder, .freeze (c.u8 0)].all (fun o => !held s o) = true →
    pendCount s c.mb < 8 ∨ c.u8 1 = 2 →
    p = fit (c.u32 28 * 1024) b →
    (c.u8 1 = 0 ∧ v = s) ∨ (c.u8 1 = 1 ∧ (slotGet s (c.u8 0)).filling = false ∧ headerGood p = true ∧ v = s.onGalley (fun x => { x with slots := tset x.slots (c.u8 0) (loadedFreeze p) })) →
    (n = if c.u64 4 = 0 then (slotGet v (c.u8 0)).image else c.u64 4) →
    c.u64 4 = 0 ∨ thas v.galley.slots (c.u8 0) = false ∨ (replayImage v (c.u8 0) n).isSome = true →
    replayMask v (c.u8 0) n ≠ 0 →
    exec (.recReplayStart c b) s = .next (answer 0x1104 c .conflict (replayNone (replayMask v (c.u8 0) n)) v)) ∧
  (∀ (c : Cmd) (b p : Bytes) (n : Nat) (s v : State),
    s.dev.state = .config →
    c.mb ≠ 0 →
    s.dev.role = .active →
    s.dev.paired = false ∨ c.u8 1 = 2 →
    Inline c 32 →
    isM2 s = false →
    c.u8 0 < s.galley.cfg.frzN →
    c.u8 1 < 3 →
    c.u8 2 < 2 →
    c.rsv 3 1 = true →
    c.u8 1 = 0 ∨ (c.buf 20 = true ∧ 1 ≤ c.u32 28 ∧ c.u32 28 ≤ s.galley.cfg.frz * 1024) →
    [Obj.deviceState, .tickLength, .pair, .recorder, .freeze (c.u8 0)].all (fun o => !held s o) = true →
    pendCount s c.mb < 8 ∨ c.u8 1 = 2 →
    p = fit (c.u32 28 * 1024) b →
    (c.u8 1 = 0 ∧ v = s) ∨ (c.u8 1 = 1 ∧ (slotGet s (c.u8 0)).filling = false ∧ headerGood p = true ∧ v = s.onGalley (fun x => { x with slots := tset x.slots (c.u8 0) (loadedFreeze p) })) →
    (n = if c.u64 4 = 0 then (slotGet v (c.u8 0)).image else c.u64 4) →
    c.u64 4 = 0 ∨ thas v.galley.slots (c.u8 0) = false ∨ (replayImage v (c.u8 0) n).isSome = true →
    replayMask v (c.u8 0) n = 0 →
    exec (.recReplayStart c b) s = .next (answer 0x1104 c .pending (replayNone 0) (pendAs 0x1104 c [.freeze (c.u8 0), .recorder] [.config] (c.u8 0) none (v.onGalley (fun x => { x with replay := some { slot := c.u8 0, stop := c.u64 12, onDiv := c.u8 2 == 1, boundary := v.tick.index + leadOf v.tick.len, image := n, tick := n + 1 } }))))) ∧
  (∀ (c : Cmd) (b : Bytes) (s : State),
    s.dev.state = .config →
    c.mb ≠ 0 →
    s.dev.role = .active →
    s.dev.paired = false ∨ c.u8 1 = 2 →
    Inline c 32 →
    isM2 s = false →
    c.u8 0 < s.galley.cfg.frzN →
    c.u8 1 < 3 →
    c.u8 2 < 2 →
    c.rsv 3 1 = true →
    c.u8 1 = 0 ∨ (c.buf 20 = true ∧ 1 ≤ c.u32 28 ∧ c.u32 28 ≤ s.galley.cfg.frz * 1024) →
    [Obj.deviceState, .tickLength, .pair, .recorder, .freeze (c.u8 0)].any (fun o => held s o) = true ∨ (c.u8 1 ≠ 2 ∧ 8 ≤ pendCount s c.mb) →
    exec (.recReplayStart c b) s = .next (answer 0x1104 c .busy [] s)) ∧
  (∀ (c : Cmd) (b : Bytes) (s : State),
    Serving s →
    c.mb ≠ 0 →
    Inline c 32 →
    isM2 s = true →
    exec (.recReplayStart c b) s = .next (answer 0x1104 c .notFitted [] s)) ∧
  (∀ (c : Cmd) (s : State),
    s.dev.state = .replay →
    c.mb ≠ 0 →
    Inline c 0 →
    lastNow s = false →
    exec (.recReplayStop c) s = .next (answer 0x1105 c .ok (le 8 ((s.galley.replay.map (·.tick)).getD 0)) (replayOutcome 1 s))) ∧
  (∀ (c : Cmd) (s : State),
    s.dev.state = .replay →
    c.mb ≠ 0 →
    Inline c 0 →
    lastNow s = true →
    exec (.recReplayStop c) s = .next (answer 0x1105 c .ok (le 8 ((s.galley.replay.map (·.tick)).getD 0)) s)) ∧
  (∀ (c : Cmd) (r : Option Replay) (s : State),
    Serving s →
    c.mb ≠ 0 →
    Inline c 0 →
    (r = if replaying s then s.galley.replay else none) →
    exec (.recStatus c) s = .next (answer 0x1106 c .ok (le 1 (if replaying s then 2 else if bit s.galley.cfg.flags 0 then 1 else 0) ++ le 1 s.galley.cfg.frzN ++ le 2 (maskOf ((s.galley.slots.filter (fun e => !e.2.filling)).map (·.1))) ++ le 2 (maskOf ((s.galley.slots.filter (fun e => e.2.filling)).map (·.1))) ++ le 2 0 ++ le 8 (ringOldest s) ++ le 8 (ringNewest s) ++ le 4 s.galley.holes ++ le 4 (if s.galley.lens.isEmpty then 0 else s.galley.lens.sum / s.galley.lens.length) ++ le 4 ((r.map (·.tick)).getD 0) ++ le 4 ((r.map (·.diverged)).getD 0) ++ le 4 s.tick.index) s))

/-- An empty tap buffer drains nothing; another goes newest first to the ring, within its bytes, and the freezes copy. A lost tap that is no tap
of Table 21.1, or with no block to lose it from, changes nothing; the loss of a tap, or of every tap, of the block under way or else of the
oldest that waits leaves a block with a HOLE and counts one hole. A ready freeze is completed with its flags; a decimated block that is due
is kept. -/
def Obligations.RecorderEventsMoveBlocks : Prop :=
  (∀ (s : State),
    s.galley.buf = [] →
    exec .tapBufferDrain s = .next s) ∧
  (∀ (s u : State),
    s.galley.buf ≠ [] →
    u = freezesCopy (s.onGalley (fun g => { g with buf := [], ring := keepBytes (mib (ringMib s g.cfg)) (g.buf.reverse ++ g.ring), lens := ((g.buf.reverse).map TickBlock.len ++ g.lens).take 1024 })) →
    exec .tapBufferDrain s = .next (u.onGalley (fun g => { g with images := imagesKept g (ringOldest u) }))) ∧
  (∀ (o : Option Nat) (p : Word32) (s : State),
    o.any (fun c => !tapCodes.contains c) = true ∨ (s.galley.cur = none ∧ s.galley.buf = []) →
    exec (.tapEntryLost o p) s = .next s) ∧
  (∀ (o : Option Nat) (p : Word32) (b : TickBlock) (s : State),
    o.any (fun c => !tapCodes.contains c) = false →
    s.galley.cur = some b →
    exec (.tapEntryLost o p) s = .next (tapLost o p.toNat b (fun x t => t.onGalley (fun g => { g with cur := x, journal := if x.isNone then [] else g.journal })) s)) ∧
  (∀ (o : Option Nat) (p : Word32) (b : TickBlock) (l : List TickBlock) (s : State),
    o.any (fun c => !tapCodes.contains c) = false →
    s.galley.cur = none →
    s.galley.buf = b :: l →
    exec (.tapEntryLost o p) s = .next (tapLost o p.toNat b (fun x t => t.onGalley (fun g => { g with buf := x.toList ++ l })) s)) ∧
  (∀ (n k : Nat) (s : State),
    freezeReady (slotGet s n) = true →
    (k = (slotGet s n).flags - (if bit (slotGet s n).flags 6 then 64 else 0)) →
    exec (.freezeComplete n) s = .next (recEvent 0x03 n [k] (s.onGalley (fun g => { g with slots := tset g.slots n { slotGet s n with filling := false, flags := k } })))) ∧
  (∀ (n : Nat) (s : State),
    freezeReady (slotGet s n) = false →
    exec (.freezeComplete n) s = .next s) ∧
  (∀ (b : TickBlock) (s : State),
    s.galley.cfg.dec ≠ 0 →
    recOn s = true →
    decDue s = some b →
    exec .decimatedWrite s = .next (s.onGalley (fun g => { g with dec := keepDec (mib g.cfg.dec) (b :: g.dec) }))) ∧
  (∀ (s : State),
    s.galley.cfg.dec = 0 ∨ recOn s = false ∨ decDue s = none →
    exec .decimatedWrite s = .next s)

/-- SPARE_STATUS answers the counts, hours and temperature of a kind on a die, with the entries in a buffer where one is named. SPARE_SWAP of
action 0 retires what serves a logical resource and names a spare for it (kinds 1 and 2) or fails the converter unit (kind 4); it is
CONFLICT for kind 3 or where nothing serves, EXHAUSTED without a spare; action 1 starts the test of a RETIRED resource and is CONFLICT on
another; BUSY while the pool is held. SPARE_THRESHOLD_SET stores one threshold and answers the old one, and refuses a bad count, window or
T_WARN. A passed test of an idle tile or a lane moves the turn on, a failed one fails the resource, one of a TESTING resource decides its
readmission. A resource that fails is retired and a spare named, or its logical number is lost; a spare comes in once the tile is free. A
failing row takes a spare row or is noted as lost, a DRAM row its repair row or its block goes bad, a sector its spare or MRAM contents give
way. Sectors swap places and are rewritten. A temperature reading moves the thermal watch and raises TEMP_HIGH, TEMP_OK and, once, the
THERMTRIP fault. Where the resource, die or state is not one they act on, the events leave the state as it was. -/
def Obligations.SpareCommandsAndEvents : Prop :=
  (∀ (c : Cmd) (s : State),
    Serving s →
    c.mb ≠ 0 →
    Inline c 12 →
    kindDie (c.u8 0) (c.u8 1) = true →
    c.rsv 2 2 = true →
    c.u64 4 % 64 = 0 →
    dieOk s (c.u8 1) = true →
    c.u64 4 = 0 →
    exec (.spareStatus c) s = .next (answer 0x1201 c .ok ((spareCounts s (c.u8 0) (c.u8 1)).flatMap (le 2) ++ le 4 ((tget {} s.spare.thermal (c.u8 1) : Thermal).ms / 3600000) ++ le 4 ((tget {} s.spare.thermal (c.u8 1) : Thermal).hotMs / 3600000) ++ leS 2 (tget 0 s.power.temps (c.u8 1)) ++ le 2 0 ++ le 4 s.tick.index) s)) ∧
  (∀ (c : Cmd) (s : State),
    Serving s →
    c.mb ≠ 0 →
    Inline c 12 →
    kindDie (c.u8 0) (c.u8 1) = true →
    c.rsv 2 2 = true →
    c.u64 4 % 64 = 0 →
    dieOk s (c.u8 1) = true →
    c.u64 4 ≠ 0 →
    exec (.spareStatus c) s = .next (answer 0x1201 c .ok ((spareCounts s (c.u8 0) (c.u8 1)).flatMap (le 2) ++ le 4 ((tget {} s.spare.thermal (c.u8 1) : Thermal).ms / 3600000) ++ le 4 ((tget {} s.spare.thermal (c.u8 1) : Thermal).hotMs / 3600000) ++ leS 2 (tget 0 s.power.temps (c.u8 1)) ++ le 2 0 ++ le 4 s.tick.index) (putBuf (c.u64 4) (withCrc (spareEntries s (c.u8 0) (c.u8 1))) s))) ∧
  (∀ (c : Cmd) (s : State),
    Serving s →
    c.mb ≠ 0 →
    Inline c 12 →
    kindDie (c.u8 0) (c.u8 1) = true →
    c.rsv 2 2 = true →
    c.u64 4 % 64 = 0 →
    dieOk s (c.u8 1) = false →
    exec (.spareStatus c) s = .next (answer 0x1201 c .notFitted [] s)) ∧
  (∀ (c : Cmd) (s : State),
    Serving s →
    c.mb ≠ 0 →
    s.dev.role = .active ∨ s.dev.role = .standby →
    Inline c 8 →
    kindDie (c.u8 0) (c.u8 1) = true →
    c.rsv 5 3 = true →
    c.u8 0 = 3 →
    dieOk s (c.u8 1) = true →
    held s (.unitPool 3) = false →
    (c.u8 4 = 0 ∧ c.u16 2 < 8) ∨ (c.u8 4 = 1 ∧ c.u16 2 < 9 ∧ s.dev.state ∈ [.config, .factoryTest] ∧ pendCount s c.mb < 8) →
    exec (.spareSwap c) s = .next (answer 0x1202 c .conflict [] s)) ∧
  (∀ (c : Cmd) (s : State),
    Serving s →
    c.mb ≠ 0 →
    s.dev.role = .active ∨ s.dev.role = .standby →
    Inline c 8 →
    kindDie (c.u8 0) (c.u8 1) = true →
    c.rsv 5 3 = true →
    c.u8 4 = 0 →
    c.u16 2 < logCount (c.u8 0) →
    dieOk s (c.u8 1) = true →
    held s (.unitPool (c.u8 0)) = false →
    c.u8 0 = 1 ∨ c.u8 0 = 2 →
    serving s (c.u8 0) (c.u8 1) (c.u16 2) = none →
    exec (.spareSwap c) s = .next (answer 0x1202 c .conflict (swapResult 0xFFFF 0xFFFF 3) s)) ∧
  (∀ (c : Cmd) (p : Nat) (s : State),
    Serving s →
    c.mb ≠ 0 →
    s.dev.role = .active ∨ s.dev.role = .standby →
    Inline c 8 →
    kindDie (c.u8 0) (c.u8 1) = true →
    c.rsv 5 3 = true →
    c.u8 4 = 0 →
    c.u16 2 < logCount (c.u8 0) →
    dieOk s (c.u8 1) = true →
    held s (.unitPool (c.u8 0)) = false →
    c.u8 0 = 1 ∨ c.u8 0 = 2 ∨ c.u8 0 = 4 →
    c.u8 0 ≠ 4 ∨ pendCount s c.mb < 8 →
    serving s (c.u8 0) (c.u8 1) (c.u16 2) = some p →
    sparesLeft s (c.u8 0) (c.u8 1) = [] ∨ (c.u8 0 = 4 ∧ spareIdle s = false) →
    exec (.spareSwap c) s = .next (answer 0x1202 c .exhausted (swapResult p 0xFFFF (resState s (c.u8 0) (c.u8 1) p)) s)) ∧
  (∀ (c : Cmd) (p : Nat) (s : State),
    Serving s →
    c.mb ≠ 0 →
    s.dev.role = .active ∨ s.dev.role = .standby →
    Inline c 8 →
    kindDie (c.u8 0) (c.u8 1) = true →
    c.rsv 5 3 = true →
    c.u8 4 = 0 →
    c.u16 2 < logCount (c.u8 0) →
    dieOk s (c.u8 1) = true →
    held s (.unitPool (c.u8 0)) = false →
    c.u8 0 = 1 ∨ c.u8 0 = 2 →
    serving s (c.u8 0) (c.u8 1) (c.u16 2) = some p →
    sparesLeft s (c.u8 0) (c.u8 1) ≠ [] →
    exec (.spareSwap c) s = .next (awaitFirst 0x1202 c (failPooled (c.u8 0) (c.u8 1) p 2 (pendAs 0x1202 c [.unitPool (c.u8 0)] [.config, .standby, .deblocked, .safeStop, .blockedFault, .replay, .factoryTest] (resKey (c.u8 0) (c.u8 1) p) none s)))) ∧
  (∀ (c : Cmd) (p : Nat) (s : State),
    Serving s →
    c.mb ≠ 0 →
    s.dev.role = .active ∨ s.dev.role = .standby →
    Inline c 8 →
    kindDie (c.u8 0) (c.u8 1) = true →
    c.rsv 5 3 = true →
    c.u8 4 = 0 →
    c.u16 2 < logCount (c.u8 0) →
    dieOk s (c.u8 1) = true →
    held s (.unitPool (c.u8 0)) = false →
    c.u8 0 = 4 →
    pendCount s c.mb < 8 →
    serving s 4 (c.u8 1) (c.u16 2) = some p →
    sparesLeft s 4 (c.u8 1) ≠ [] →
    spareIdle s = true →
    exec (.spareSwap c) s = .next (answer 0x1202 c .pending [] (unitLost (c.u16 2) 2 2 (pendAs 0x1202 c [.unitPool 4] [.config, .standby, .deblocked, .safeStop, .blockedFault, .replay, .factoryTest] (resKey 4 (c.u8 1) p) none s)))) ∧
  (∀ (c : Cmd) (s : State),
    s.dev.state ∈ [.config, .factoryTest] →
    c.mb ≠ 0 →
    s.dev.role = .active ∨ s.dev.role = .standby →
    Inline c 8 →
    kindDie (c.u8 0) (c.u8 1) = true →
    c.rsv 5 3 = true →
    c.u8 4 = 1 →
    c.u16 2 < physCount (c.u8 0) →
    dieOk s (c.u8 1) = true →
    held s (.unitPool (c.u8 0)) = false →
    pendCount s c.mb < 8 →
    c.u8 0 = 1 ∨ c.u8 0 = 2 ∨ c.u8 0 = 4 →
    resState s (c.u8 0) (c.u8 1) (c.u16 2) ≠ 3 →
    exec (.spareSwap c) s = .next (answer 0x1202 c .conflict (swapResult (c.u16 2) 0xFFFF (resState s (c.u8 0) (c.u8 1) (c.u16 2))) s)) ∧
  (∀ (c : Cmd) (s : State),
    s.dev.state ∈ [.config, .factoryTest] →
    c.mb ≠ 0 →
    s.dev.role = .active ∨ s.dev.role = .standby →
    Inline c 8 →
    kindDie (c.u8 0) (c.u8 1) = true →
    c.rsv 5 3 = true →
    c.u8 4 = 1 →
    c.u16 2 < physCount (c.u8 0) →
    dieOk s (c.u8 1) = true →
    held s (.unitPool (c.u8 0)) = false →
    pendCount s c.mb < 8 →
    c.u8 0 = 1 ∨ c.u8 0 = 2 ∨ c.u8 0 = 4 →
    resState s (c.u8 0) (c.u8 1) (c.u16 2) = 3 →
    exec (.spareSwap c) s = .next (answer 0x1202 c .pending (swapResult (c.u16 2) 0xFFFF 4) (resUpd (c.u8 0) (c.u8 1) (c.u16 2) (fun r => { r with st := some 4, cause := 2 }) (pendAs 0x1202 c [.unitPool (c.u8 0)] [.config, .factoryTest] (resKey (c.u8 0) (c.u8 1) (c.u16 2)) none s)))) ∧
  (∀ (c : Cmd) (s : State),
    Serving s →
    c.mb ≠ 0 →
    s.dev.role = .active ∨ s.dev.role = .standby →
    Inline c 8 →
    kindDie (c.u8 0) (c.u8 1) = true →
    c.rsv 5 3 = true →
    1 ≤ c.u8 0 ∧ c.u8 0 ≤ 4 →
    dieOk s (c.u8 1) = true →
    (c.u8 4 = 0 ∧ c.u16 2 < logCount (c.u8 0)) ∨ (c.u8 4 = 1 ∧ c.u16 2 < physCount (c.u8 0) ∧ s.dev.state ∈ [.config, .factoryTest]) →
    held s (.unitPool (c.u8 0)) = true ∨ ((c.u8 4 = 1 ∨ c.u8 0 = 4) ∧ 8 ≤ pendCount s c.mb) →
    exec (.spareSwap c) s = .next (answer 0x1202 c .busy [] s)) ∧
  (∀ (c : Cmd) (s : State),
    Serving s →
    c.mb ≠ 0 →
    s.dev.role = .active ∨ s.dev.role = .standby →
    Inline c 8 →
    kindDie (c.u8 0) (c.u8 1) = true →
    c.rsv 5 3 = true →
    1 ≤ c.u8 0 ∧ c.u8 0 ≤ 4 →
    dieOk s (c.u8 1) = false →
    c.u8 4 = 0 →
    exec (.spareSwap c) s = .next (answer 0x1202 c .notFitted [] s)) ∧
  (∀ (c : Cmd) (s : State),
    Serving s →
    c.mb ≠ 0 →
    Inline c 12 →
    1 ≤ c.u8 0 →
    c.u8 0 ≤ 6 →
    c.rsv 1 3 = true →
    c.u32 4 ≠ 0 →
    (c.u8 0 ≤ 4 ∧ 1 ≤ c.u32 8 ∧ c.u32 8 ≤ 2592000) ∨ (c.u8 0 = 5 ∧ c.u32 8 = 0) ∨ (c.u8 0 = 6 ∧ c.u32 8 = 0 ∧ 80 ≤ c.u32 4 ∧ c.u32 4 ≤ 120) →
    exec (.spareThresholdSet c) s = .next (answer 0x1203 c .ok (le 4 (thrGet s (c.u8 0)).1 ++ le 4 (thrGet s (c.u8 0)).2) (s.onSpare (fun x => { x with thr := tset x.thr (c.u8 0) (c.u32 4, c.u32 8) })))) ∧
  (∀ (c : Cmd) (s : State),
    Serving s →
    c.mb ≠ 0 →
    Inline c 12 →
    c.u32 4 = 0 ∨ (c.u8 0 ≤ 4 ∧ (c.u32 8 = 0 ∨ 2592000 < c.u32 8)) ∨ (5 ≤ c.u8 0 ∧ c.u32 8 ≠ 0) ∨ (c.u8 0 = 6 ∧ (c.u32 4 < 80 ∨ 120 < c.u32 4)) →
    exec (.spareThresholdSet c) s = .next (answer 0x1203 c .badParam [] s)) ∧
  (∀ (d t : Nat) (b : Bool) (s : State),
    ctlOk s d = true →
    t < 18 →
    testing s 1 (1 + d) t = false →
    (tileGet s d t).item = none →
    (tileGet s d t).retired = false →
    (tileGet s d t).repair = false →
    exec (.tileKnownAnswerTest d t b) s = .next (if b then dieUpd d (fun y => { y with kat := (t + 1) % 18 }) s else resourceFail 1 (1 + d) t 0 (dieUpd d (fun y => { y with kat := (t + 1) % 18 }) s))) ∧
  (∀ (d t : Nat) (b : Bool) (s : State),
    ctlOk s d = true →
    t < 18 →
    testing s 1 (1 + d) t = true →
    exec (.tileKnownAnswerTest d t b) s = .next (readmitEnd 1 (1 + d) t b s)) ∧
  (∀ (d t : Nat) (b : Bool) (s : State),
    ctlOk s d = false ∨ 18 ≤ t ∨ (testing s 1 (1 + d) t = false ∧ ((tileGet s d t).item.isSome = true ∨ (tileGet s d t).retired = true ∨ (tileGet s d t).repair = true)) →
    exec (.tileKnownAnswerTest d t b) s = .next s) ∧
  (∀ (d n : Nat) (b : Bool) (s : State),
    ctlOk s d = true →
    laneNext s d = n →
    testing s 2 (1 + d) n = false →
    exec (.loopLaneKat d b) s = .next (if b then s.onSpare (fun x => { x with lane := tset x.lane d ((n + 1) % 9) }) else resourceFail 2 (1 + d) n 0 (s.onSpare (fun x => { x with lane := tset x.lane d ((n + 1) % 9) })))) ∧
  (∀ (d n : Nat) (b : Bool) (s : State),
    ctlOk s d = true →
    laneNext s d = n →
    testing s 2 (1 + d) n = true →
    exec (.loopLaneKat d b) s = .next (readmitEnd 2 (1 + d) n b s)) ∧
  (∀ (d : Nat) (b : Bool) (s : State),
    ctlOk s d = false →
    exec (.loopLaneKat d b) s = .next s) ∧
  (∀ (k d n a sp : Nat) (s v : State),
    k = 1 ∨ k = 2 →
    1 ≤ d →
    ctlOk s (d - 1) = true →
    n < physCount k →
    resState s k d n ≠ 3 →
    v = retire k d n a s →
    (resServes s k d n).isSome = true →
    (sparesLeft v k d).head? = some sp →
    exec (.resourceFail k d n a) s = .next (v.onSpare (fun x => { x with waiting := x.waiting ++ [(k, d, n, sp, a)] }))) ∧
  (∀ (k d n a : Nat) (s v : State),
    k = 1 ∨ k = 2 →
    1 ≤ d →
    ctlOk s (d - 1) = true →
    n < physCount k →
    resState s k d n ≠ 3 →
    v = retire k d n a s →
    resServes s k d n = none →
    exec (.resourceFail k d n a) s = .next (capsUpdate v)) ∧
  (∀ (k d n a l : Nat) (s v : State),
    k = 1 ∨ k = 2 →
    1 ≤ d →
    ctlOk s (d - 1) = true →
    n < physCount k →
    resState s k d n ≠ 3 →
    v = retire k d n a s →
    resServes s k d n = some l →
    sparesLeft v k d = [] →
    exec (.resourceFail k d n a) s = .next (capsUpdate (spareEvent 0x03 .contained (resKey k d l) [n, a] v))) ∧
  (∀ (d n a : Nat) (s : State),
    4 ≤ d →
    dieOk s d = true →
    n < 8 →
    portFitted s ((d - 4) * 8 + n) = true →
    spareTaken s ((d - 4) * 8 + n) = false →
    exec (.resourceFail 3 d n a) s = .next (portUpd ((d - 4) * 8 + n) (fun x => { x with shadow := some s.tick.index }) (resUpd 3 d n (fun r => { r with cause := a }) s))) ∧
  (∀ (d n a : Nat) (s v : State),
    4 ≤ d →
    dieOk s d = true →
    n < 8 →
    portFitted s ((d - 4) * 8 + n) = true →
    spareTaken s ((d - 4) * 8 + n) = true →
    v = resUpd 3 d n (fun r => { r with cause := a }) s →
    exec (.resourceFail 3 d n a) s = .next (portLost ((d - 4) * 8 + n) (v.draw.1 % 2 == 1) v.draw.2)) ∧
  (∀ (n a : Nat) (s : State),
    resState s 4 3 n ≠ 3 →
    resState s 4 3 n ≠ 4 →
    exec (.resourceFail 4 3 n a) s = .next (unitLost n a a s)) ∧
  (∀ (n a : Nat) (s : State),
    resState s 4 3 n = 3 ∨ resState s 4 3 n = 4 →
    exec (.resourceFail 4 3 n a) s = .next s) ∧
  (∀ (d n a : Nat) (s : State),
    exec (.resourceFail 5 d n a) s = .next (countError 5 d n (a != 1) (resUpd 5 d n (fun r => { r with cause := a }) s))) ∧
  (∀ (c b a k : Nat) (s : State),
    k = 2 * b + c % 2 →
    s.dev.state = .boot →
    s.spare.badBlocks.contains k = false →
    exec (.resourceFail 6 c b a) s = .next (if Config.rowLeft 6 (k :: s.spare.ddrRows) 0 then spareEvent 0x02 .notice (resKey 6 0 b) [6] (spareEvent 0x01 .notice (resKey 6 0 b) [b, s.spare.ddrRows.length, a] (s.onSpare (fun x => { x with ddrRows := x.ddrRows ++ [k] }))) else capsUpdate (spareEvent 0x06 .notice b [c] (spareEvent 0x03 .contained (resKey 6 0 b) [b, a] (s.onSpare (fun x => { x with badBlocks := k :: x.badBlocks, badA := if c = 0 then x.badA + 1 else x.badA, badB := if c = 0 then x.badB else x.badB + 1 })))))) ∧
  (∀ (n a k sp : Nat) (s v : State),
    n < 4352 →
    resState s 7 0 n ≠ 3 →
    resServes s 7 0 n = some k →
    v = resUpd 7 0 n (fun r => { r with st := some 3, cause := a }) s →
    (sparesLeft v 7 0).head? = some sp →
    exec (.resourceFail 7 0 n a) s = .next (capsUpdate (spareNote 7 0 k n sp a ((resUpd 7 0 sp (fun r => { r with st := some 2 }) v).onSpare (fun x => { x with sectors := tset x.sectors sp (k, hoursNow s) }))))) ∧
  (∀ (k d n a : Nat) (s : State),
    k = 0 ∨ 8 ≤ k ∨ ((k = 1 ∨ k = 2) ∧ (d = 0 ∨ ctlOk s (d - 1) = false ∨ physCount k ≤ n ∨ resState s k d n = 3)) ∨ (k = 3 ∧ (d < 4 ∨ dieOk s d = false ∨ 8 ≤ n ∨ portFitted s ((d - 4) * 8 + n) = false)) ∨ (k = 4 ∧ d ≠ 3) ∨ (k = 6 ∧ (s.dev.state ≠ .boot ∨ s.spare.badBlocks.contains (2 * n + d % 2) = true)) ∨ (k = 7 ∧ (resState s 7 0 n = 3 ∨ 4352 ≤ n)) →
    exec (.resourceFail k d n a) s = .next s) ∧
  (∀ (k d n l : Nat) (w : Nat × Nat × Nat × Nat × Nat) (s : State),
    s.spare.waiting.find? (fun x => x.1 == k && x.2.1 == d && x.2.2.1 == n) = some w →
    k ≠ 1 ∨ (tileGet s (d - 1) n).item = none →
    l = (resGet s k d n).serves.getD n →
    exec (.spareIn k d n) s = .next (endSwap k d n w.2.2.2.1 3 (capsUpdate (spareNote k d l n w.2.2.2.1 w.2.2.2.2 (takeOver k d w.2.2.2.1 l (s.onSpare (fun x => { x with waiting := x.waiting.filter (· != w) }))))))) ∧
  (∀ (k d n : Nat) (s : State),
    s.spare.waiting.find? (fun x => x.1 == k && x.2.1 == d && x.2.2.1 == n) = none ∨ (k = 1 ∧ (tileGet s (d - 1) n).item.isSome = true) →
    exec (.spareIn k d n) s = .next s) ∧
  (∀ (d b m r : Nat) (s : State),
    dieOk s d = true →
    exec (.sramRowRepair d b m r) s = .next (if Config.rowLeft 5 [d, b, m] (s.spare.rows.filter (fun e => e.1 == d && e.2.1 == b && e.2.2.1 == m)).length then capsUpdate (when (!Config.rowLeft 5 [d, b, m] ((s.spare.rows.filter (fun e => e.1 == d && e.2.1 == b && e.2.2.1 == m)).length + 1)) (spareEvent 0x02 .notice (resKey 5 d r) [5]) (spareEvent 0x01 .notice (resKey 5 d r) [r, (s.spare.rows.filter (fun e => e.1 == d && e.2.1 == b && e.2.2.1 == m)).length, 1] (raise d b 0xE3 .notice m [r] (s.onSpare (fun x => { x with rows := x.rows ++ [(d, b, m, r)] }))))) else lostNote 5 d r r 1 s)) ∧
  (∀ (d b m r : Nat) (s : State),
    dieOk s d = false →
    exec (.sramRowRepair d b m r) s = .next s) ∧
  (∀ (h l : Nat) (a b : Nat × Nat) (s : State),
    h < 4352 →
    l < 4352 →
    h ≠ l →
    resState s 7 0 h ≠ 3 →
    resState s 7 0 l ≠ 3 →
    a = tget (h, 0) s.spare.sectors h →
    b = tget (l, 0) s.spare.sectors l →
    resState s 7 0 h = resState s 7 0 l →
    exec (.mramWearLevel h l) s = .next (s.onSpare (fun x => { x with sectors := tset (tset x.sectors h (b.1, hoursNow s)) l (a.1, hoursNow s) }))) ∧
  (∀ (h l : Nat) (a b : Nat × Nat) (s : State),
    h < 4352 →
    l < 4352 →
    h ≠ l →
    resState s 7 0 h ≠ 3 →
    resState s 7 0 l ≠ 3 →
    a = tget (h, 0) s.spare.sectors h →
    b = tget (l, 0) s.spare.sectors l →
    resState s 7 0 h ≠ resState s 7 0 l →
    exec (.mramWearLevel h l) s = .next (resUpd 7 0 l (fun r => { r with st := some (resState s 7 0 h) }) (resUpd 7 0 h (fun r => { r with st := some (resState s 7 0 l) }) (s.onSpare (fun x => { x with sectors := tset (tset x.sectors h (b.1, hoursNow s)) l (a.1, hoursNow s) }))))) ∧
  (∀ (h l : Nat) (s : State),
    4352 ≤ h ∨ 4352 ≤ l ∨ h = l ∨ resState s 7 0 h = 3 ∨ resState s 7 0 l = 3 →
    exec (.mramWearLevel h l) s = .next s) ∧
  (∀ (n : Nat) (s : State),
    n < 4352 →
    exec (.mramRetentionRewrite n) s = .next (s.onSpare (fun x => { x with sectors := tset x.sectors n ((tget (n, 0) x.sectors n).1, hoursNow s) }))) ∧
  (∀ (n : Nat) (s : State),
    4352 ≤ n →
    exec (.mramRetentionRewrite n) s = .next s) ∧
  (∀ (d : Nat) (q : Int) (o y : Thermal) (s : State),
    o = tget {} s.spare.thermal d →
    y = thermalStep ((thrGet s 6).1 : Int) q o →
    dieOk s d = true →
    s.dev.state ≠ .powerDown →
    y.high = o.high →
    q < 500 ∨ o.trip = true →
    exec (.tempSensorRead d q) s = .next ((s.onPower (fun p => { p with temps := tset p.temps d q, thermtrip := p.thermtrip || decide (500 ≤ q) })).onSpare (fun x => { x with thermal := tset x.thermal d { y with trip := o.trip || decide (500 ≤ q) } }))) ∧
  (∀ (d : Nat) (q : Int) (o y : Thermal) (s : State),
    o = tget {} s.spare.thermal d →
    y = thermalStep ((thrGet s 6).1 : Int) q o →
    dieOk s d = true →
    s.dev.state ≠ .powerDown →
    o.high = false →
    y.high = true →
    q < 500 ∨ o.trip = true →
    exec (.tempSensorRead d q) s = .next (spareEvent 0x07 .notice d [word32 q] ((s.onPower (fun p => { p with temps := tset p.temps d q, thermtrip := p.thermtrip || decide (500 ≤ q) })).onSpare (fun x => { x with thermal := tset x.thermal d { y with trip := o.trip || decide (500 ≤ q) } })))) ∧
  (∀ (d : Nat) (q : Int) (o y : Thermal) (s : State),
    o = tget {} s.spare.thermal d →
    y = thermalStep ((thrGet s 6).1 : Int) q o →
    dieOk s d = true →
    s.dev.state ≠ .powerDown →
    o.high = true →
    y.high = false →
    q < 500 ∨ o.trip = true →
    exec (.tempSensorRead d q) s = .next (spareEvent 0x08 .notice d [word32 q] ((s.onPower (fun p => { p with temps := tset p.temps d q, thermtrip := p.thermtrip || decide (500 ≤ q) })).onSpare (fun x => { x with thermal := tset x.thermal d { y with trip := o.trip || decide (500 ≤ q) } })))) ∧
  (∀ (d : Nat) (q : Int) (o y : Thermal) (s : State),
    o = tget {} s.spare.thermal d →
    y = thermalStep ((thrGet s 6).1 : Int) q o →
    dieOk s d = true →
    s.dev.state ≠ .powerDown →
    500 ≤ q →
    o.trip = false →
    exec (.tempSensorRead d q) s = .next (fatalWith d 0x002 0x08 d [word32 (q / 4)] (when (o.high && !y.high) (spareEvent 0x08 .notice d [word32 q]) (when (y.high && !o.high) (spareEvent 0x07 .notice d [word32 q]) ((s.onPower (fun p => { p with temps := tset p.temps d q, thermtrip := p.thermtrip || decide (500 ≤ q) })).onSpare (fun x => { x with thermal := tset x.thermal d { y with trip := o.trip || decide (500 ≤ q) } })))))) ∧
  (∀ (d : Nat) (q : Int) (s : State),
    dieOk s d = false ∨ s.dev.state = .powerDown →
    exec (.tempSensorRead d q) s = .next s) ∧
  (∀ (w q : Int) (o : Thermal),
    4 * w ≤ q →
    o.high = false →
    (thermalStep w q o).high = decide (2 ≤ o.hot) ∧ (thermalStep w q o).hotMs = o.hotMs + 1 ∧ (thermalStep w q o).ms = o.ms + 1) ∧
  (∀ (w q : Int) (o : Thermal),
    q < 4 * (w - 5) →
    o.high = true →
    (thermalStep w q o).high = decide (o.cool < 99) ∧ (thermalStep w q o).hotMs = o.hotMs)

/-- With room and nothing held, a response writes its 64 bytes at the slot of the tail and the tail moves on. With the ring full, with an older
response still held, or while the host port is down (R62), host memory and the tail stay, the response is held behind the others, RSP_HELD
reads 1, and the mailbox fetches no command. A held response is written, the oldest first, once host software has advanced the head and the
port is up; until then nothing happens. Each response either advances the tail or is held. -/
def Obligations.ResponsesAreWrittenOrHeldNeverDropped : Prop :=
  (∀ (r : Response) (s : State),
    ((mbGet s r.mb).rspTail - (mbGet s r.mb).rspHead).toNat < 64 →
    (mbGet s r.mb).held = [] →
    barOn s = true →
    mbGet (respond r s) r.mb = { mbGet s r.mb with rspTail := (mbGet s r.mb).rspTail + 1 } ∧ ∀ i, i < 64 → memRead (respond r s).host ((rspAddr (mbGet s r.mb) + i) % 2 ^ 64) = some ((r.bytes s.dev.state s.dev.role).getD i 0)) ∧
  (∀ (r : Response) (s : State),
    64 ≤ ((mbGet s r.mb).rspTail - (mbGet s r.mb).rspHead).toNat ∨ (mbGet s r.mb).held ≠ [] ∨ barOn s = false →
    r.mb < 8 →
    (respond r s).host = s.host ∧ mbGet (respond r s) r.mb = { mbGet s r.mb with held := (mbGet s r.mb).held ++ [r] } ∧ (regRead (respond r s) (0x1000 + 0x40 * r.mb + 0x28)).testBit 3 = true ∧ fetchable (respond r s) r.mb = false) ∧
  (∀ (n : Nat) (s : State),
    (mbGet s n).held ≠ [] →
    fetchable s n = false ∧ nextMailbox s ≠ some n) ∧
  (∀ (mb : Fin 8) (r : Response) (rest : List Response) (s : State),
    barOn s = true →
    (mbGet s mb.val).held = r :: rest →
    r.mb = mb.val →
    ringRoom (mbGet s mb.val) = true →
    ∃ t, exec (.heldResponseWrite mb) s = .next t ∧ (mbGet t mb.val).held = rest ∧ (mbGet t mb.val).rspTail = (mbGet s mb.val).rspTail + 1 ∧ ∀ i, i < 64 → memRead t.host ((rspAddr (mbGet s mb.val) + i) % 2 ^ 64) = some ((r.bytes s.dev.state s.dev.role).getD i 0)) ∧
  (∀ (mb : Fin 8) (s : State),
    ringRoom (mbGet s mb.val) = false ∨ barOn s = false ∨ (mbGet s mb.val).held = [] →
    exec (.heldResponseWrite mb) s = .next s) ∧
  (∀ (r : Response) (s : State),
    ((mbGet (respond r s) r.mb).rspTail = (mbGet s r.mb).rspTail + 1 ∧ (mbGet (respond r s) r.mb).held = (mbGet s r.mb).held) ∨ ((mbGet (respond r s) r.mb).rspTail = (mbGet s r.mb).rspTail ∧ (mbGet (respond r s) r.mb).held = (mbGet s r.mb).held ++ [r]))

/-- A result buffer written at an address holds the bytes given, each at its own address of 64 bits, and every other byte of host memory reads
as before. The answer to a command writes at most the 64 bytes of the response slot at the tail of the mailbox's ring; every other byte
reads as before. -/
def Obligations.BuffersAndAnswersWriteOnlyTheirBytes : Prop :=
  (∀ (a : Nat) (p : Bytes) (s : State) (x : Nat),
    (∀ i, i < p.length → x ≠ (a + i) % 2 ^ 64) →
    memRead (putBuf a p s).host x = memRead s.host x) ∧
  (∀ (a i : Nat) (p : Bytes) (s : State),
    i < p.length →
    p.length ≤ 2 ^ 64 →
    memRead (putBuf a p s).host ((a + i) % 2 ^ 64) = some (p.getD i 0)) ∧
  (∀ (o : Nat) (c : Cmd) (st : Status) (r : Bytes) (s : State) (x : Nat),
    (∀ i, i < 64 → x ≠ (rspAddr (mbGet s c.mb.val) + i) % 2 ^ 64) →
    memRead (answer o c st r s).host x = memRead s.host x)

/-- After nPOR and after a cold reset every control block holds its reset values. The warm reset itself leaves the control blocks and host
memory, and so the rings, as they are; the responses that R99 calls for come first. All three lead to BOOT (nPOR through POWER_DOWN, until
it rises), and in BOOT an entry that is fetched, whatever its bytes and its CRC, is answered BUSY, nothing is checked or left in hand, and a
command has no effect but that answer. -/
def Obligations.ResetsAndBootTreatTheMailboxes : Prop :=
  (∀ (s : State),
    ∃ t, exec .nporAccept s = .next t ∧ t.mb = {} ∧ t.dev.state = .powerDown) ∧
  (∀ (s : State),
    s.dev.state = .powerDown →
    ∃ t, exec .nporRise s = .next t ∧ t.mb.blocks = s.mb.blocks ∧ t.dev.state = .boot) ∧
  (∀ (s : State) (r : ResetReq),
    resetMay s = true →
    s.power.resetReq = some r →
    r.cold = true →
    ∃ t, exec .resetExecute s = .next t ∧ t.mb.blocks = [] ∧ t.mb.pend = [] ∧ t.mb.inHand = none ∧ t.dev.state = .boot) ∧
  (∀ (s : State) (r : ResetReq),
    resetMay s = true →
    s.power.resetReq = some r →
    r.cold = false →
    exec .resetExecute s = .next (warmReset (wearSave (allPortsDown 0x03 (resetAnswers s))))) ∧
  (∀ (s : State),
    (warmReset s).mb.blocks = s.mb.blocks ∧ (warmReset s).host = s.host ∧ (warmReset s).dev.state = .boot) ∧
  (∀ (s : State),
    s.mb.pend = [] →
    s.mb.inHand = none →
    (wearSave (allPortsDown 0x03 (resetAnswers s))).mb.blocks = s.mb.blocks ∧ (wearSave (allPortsDown 0x03 (resetAnswers s))).host = s.host) ∧
  (∀ (n : Nat) (entry block : Bytes) (s : State),
    s.dev.state = .boot →
    barOn s = true →
    s.mb.inHand = none →
    nextMailbox s = some n →
    exec (.commandFetch entry block) s = .next (answerEntry n entry .busy (mbUpd n (fun x => { x with cmdHead := x.cmdHead + 1 }) (s.onMb (fun m => { m with served := if n = 0 then m.served else n }))))) ∧
  (∀ (g : Gate) (c : Cmd) (s : State) (act : State → Reply),
    s.dev.state = .boot →
    runCmd g c s act = .next (answer g.opcode c .busy [] s)) ∧
  (∀ (c : Cmd) (s : State),
    s.dev.state = .boot →
    exec (.sysNop c) s = .next (answer 0x0107 c .busy [] s) ∧ exec (.tickCommit c) s = .next (answer 0x0202 c .busy [] s) ∧ exec (.sysReset c) s = .next (answer 0x0105 c .busy [] s))

/-- SEC in bits 95 to 48, NSEC in bits 47 to 18, FRAC in bits 17 to 2: the 12 bytes of a time value have these fields, and parameters that hold
those bytes read back as that value, at every value the fields can hold. A time value is taken as valid only with the nanoseconds field
below 10^9 (and its reserved bits zero, R7). A time base only ever shows valid values. -/
def Obligations.TimeValuesOf96BitsReadAndWrite : Prop :=
  (∀ (t : Stamp),
    t.sec < 2 ^ 48 →
    t.nsec < 1000000000 →
    t.frac < 2 ^ 16 →
    t.bytes.length = 12 ∧ rd t.bytes 0 12 = t.sec * 2 ^ 48 + t.nsec * 2 ^ 18 + t.frac * 4) ∧
  (∀ (c : Cmd) (o : Nat) (t : Stamp),
    t.sec < 2 ^ 48 →
    t.nsec < 1000000000 →
    t.frac < 2 ^ 16 →
    rd c.params o 12 = t.bits →
    c.stamp o = t ∧ c.stampOk o = true) ∧
  (∀ (c : Cmd) (o : Nat),
    1000000000 ≤ rd c.params o 12 / 2 ^ 18 % 2 ^ 30 →
    c.stampOk o = false) ∧
  (∀ (v : Nat),
    (stampOf v).nsec < 1000000000 ∧ (stampOf v).frac < 2 ^ 16)

/-- For every command, through the gate that all commands share: where the opcode, length and fitted checks pass and the state is not among the
legal ones, the answer is WRONG_STATE, its RESULT the mask of the states in which the command would be legal, its STATE byte the present
state; the command log gets an entry for it; and nothing changes but the mailboxes and host memory. Shown as well on REC_CONFIG and
SYS_BLOCK_CLEAR. -/
def Obligations.WrongStateAnswersNameTheLegalStates : Prop :=
  (∀ (g : Gate) (c : Cmd) (s : State) (act : State → Reply),
    Serving s →
    (if c.mb = 0 then g.mb0 else g.mb17) = true →
    (g.test && !s.power.straps.ftest) = false →
    g.len = true →
    g.fitted = true →
    g.legalIn s.dev.state = false →
    runCmd g c s act = .next (answer g.opcode c .wrongState (le 2 g.mask) s) ∧ Keeps [.host, .mb] s (answer g.opcode c .wrongState (le 2 g.mask) s)) ∧
  (∀ (g : Gate) (n : Nat),
    g.mask.testBit n = true ↔ ∃ st : DevState, st.code = n ∧ g.legalIn st = true) ∧
  (∀ (g : Gate),
    g.mask < 512) ∧
  (∀ (o : Nat) (c : Cmd) (st : Status) (k : Nat) (r : Bytes) (d : DevState) (ro : Role),
    ((rspOf o c st k r).bytes d ro).getD 12 0 = BitVec.ofNat 8 d.code) ∧
  (∀ (o : Nat) (c : Cmd) (r : Bytes) (s : State),
    (answer o c .wrongState r s).mb.log = ({ seq := s.mb.logSeq, tick := s.tick.index, opcode := o, b10 := 5, b11 := 1, mb := c.mb, state := s.dev.state.code, role := s.dev.role.code } :: s.mb.log).take 1024) ∧
  (∀ (c : Cmd) (s : State),
    s.dev.state ∈ [.standby, .deblocked, .safeStop, .blockedFault, .replay] →
    c.mb ≠ 0 →
    Inline c 32 →
    exec (.recConfig c) s = .next (answer 0x1101 c .wrongState (le 2 0x104) s)) ∧
  (∀ (c : Cmd) (s : State),
    s.dev.state ∈ [.config, .standby, .deblocked, .safeStop, .replay, .factoryTest] →
    c.mb ≠ 0 →
    Inline c 0 →
    exec (.sysBlockClear c) s = .next (answer 0x0104 c .wrongState (le 2 0x040) s))

/-- A message that is raised, and one that arrives at the collector, leave the whole device record (state, role, FATAL and its sources) as it
was, whatever its class. A fault whose kind is not FATAL does nothing on the lines that FATAL kinds use. A FATAL kind of a die that is there
sets FATAL, in every state but POWER_DOWN. In FACTORY_TEST an injected message that is not FATAL leaves the device record too. -/
def Obligations.OnlyFatalKindsSetFatal : Prop :=
  (∀ (die block kind addr : Nat) (k : FClass) (d : List Nat) (s : State),
    (raise die block kind k addr d s).dev = s.dev) ∧
  (∀ (s : State),
    ∃ t, exec .faultMessageArrive s = .next t ∧ t.dev = s.dev) ∧
  (∀ (m : FaultMsg) (s : State),
    (arrive m s).dev = s.dev) ∧
  (∀ (m : FaultMsg) (s : State),
    m.cls ≠ .fatal →
    collectorReact m s = s) ∧
  (∀ (die block kind addr : Nat) (s : State),
    fatalKind block kind = false →
    exec (.fatalFault die block kind addr) s = .next s) ∧
  (∀ (die block kind addr : Nat) (s : State),
    fatalKind block kind = true →
    dieOk s die = true →
    s.dev.state ≠ .powerDown →
    ∃ t, exec (.fatalFault die block kind addr) s = .next t ∧ t.dev.fatal = true ∧ t.dev.state = s.dev.state) ∧
  (∀ (c : Cmd) (s : State),
    Serving s →
    s.dev.state = .factoryTest →
    c.u8 0 = 0 →
    c.u8 5 < 3 →
    ∃ t, exec (.testFaultInject c) s = .next t ∧ t.dev = s.dev)
end

