-- ==== Sys2Proof/Laws/Memory.lean ====
section
/-! SUPPORT. Host memory: a read after a write, and the canonical form that every write keeps. -/

namespace Sys2Proof.Machine

open Sys2Proof

@[simp] theorem memRead_memWrite_same (m : List Host.Cell) (a : Nat) (b : Byte) : memRead (memWrite m a b) a = some b := by
  induction m with
  | nil => simp [memWrite, memRead]
  | cons x r ih =>
    obtain ⟨i, c⟩ := x
    unfold memWrite
    split
    · simp [memRead]
    · split
      · simp [memRead]
      · rename_i h1 h2
        simp [memRead, h2, ih]

theorem memRead_memWrite_other (m : List Host.Cell) (a x : Nat) (b : Byte) (h : x ≠ a) :
    memRead (memWrite m a b) x = memRead m x := by
  induction m with
  | nil => simp [memWrite, memRead, Ne.symm h]
  | cons y r ih =>
    obtain ⟨i, c⟩ := y
    unfold memWrite
    split
    · simp [memRead, Ne.symm h]
    · split
      · rename_i h1 h2
        subst h2
        simp [memRead, Ne.symm h]
      · simp [memRead, ih]

theorem memWrite_mem (m : List Host.Cell) (a : Nat) (b : Byte) (y : Host.Cell) (h : y ∈ memWrite m a b) : y.1 = a ∨ y ∈ m := by
  induction m with
  | nil => simp [memWrite] at h; simp [h]
  | cons z r ih =>
    obtain ⟨i, c⟩ := z
    unfold memWrite at h
    split at h
    · rcases List.mem_cons.mp h with rfl | h'
      · exact .inl rfl
      · exact .inr h'
    · split at h
      · rcases List.mem_cons.mp h with rfl | h'
        · exact .inl rfl
        · exact .inr (List.mem_cons_of_mem _ h')
      · rcases List.mem_cons.mp h with rfl | h'
        · exact .inr (List.mem_cons_self ..)
        · rcases ih h' with e | e
          · exact .inl e
          · exact .inr (List.mem_cons_of_mem _ e)

/-- A write keeps the canonical form. -/
theorem memWrite_wf (m : List Host.Cell) (a : Nat) (b : Byte) (h : Memory.wf m) : Memory.wf (memWrite m a b) := by
  induction m with
  | nil => simp [memWrite, Memory.wf]
  | cons z r ih =>
    obtain ⟨i, c⟩ := z
    obtain ⟨h1, h2⟩ := List.pairwise_cons.mp h
    unfold memWrite
    split
    · rename_i hlt
      refine List.pairwise_cons.mpr ⟨?_, h⟩
      intro y hy
      rcases List.mem_cons.mp hy with rfl | hy
      · exact hlt
      · exact Nat.lt_trans hlt (h1 y hy)
    · split
      · rename_i heq
        subst heq
        exact List.pairwise_cons.mpr ⟨h1, h2⟩
      · rename_i hn hne
        refine List.pairwise_cons.mpr ⟨?_, ih h2⟩
        intro y hy
        rcases memWrite_mem r a b y hy with e | e
        · show i < y.1
          omega
        · exact h1 y e

/-- So does a write of many bytes. -/
theorem memWrites_wf (p : Bytes) (m : List Host.Cell) (a : Nat) (h : Memory.wf m) : Memory.wf (memWrites m a p) := by
  induction p generalizing m a with
  | nil => exact h
  | cons b r ih => exact ih _ _ (memWrite_wf _ _ _ h)

/-- A byte outside the addresses written reads as before. -/
theorem memRead_memWrites_outside (p : Bytes) (m : List Host.Cell) (a x : Nat) (h : ∀ i, i < p.length → x ≠ (a + i) % 2 ^ 64) :
    memRead (memWrites m a p) x = memRead m x := by
  induction p generalizing m a with
  | nil => rfl
  | cons b r ih =>
    show memRead (memWrites (memWrite m (a % 2 ^ 64) b) (a + 1) r) x = _
    rw [ih]
    · exact memRead_memWrite_other _ _ _ _ (by simpa using h 0 (by simp))
    · intro i hi
      have := h (i + 1) (by simpa using hi)
      rwa [Nat.add_assoc, Nat.add_comm 1 i]

/-- The bytes written read back, where the write is no longer than the address space. -/
theorem memRead_memWrites_inside (p : Bytes) (m : List Host.Cell) (a i : Nat) (hi : i < p.length) (hp : p.length ≤ 2 ^ 64) :
    memRead (memWrites m a p) ((a + i) % 2 ^ 64) = p[i]? := by
  induction p generalizing m a i with
  | nil => simp at hi
  | cons b r ih =>
    show memRead (memWrites (memWrite m (a % 2 ^ 64) b) (a + 1) r) _ = _
    cases i with
    | zero =>
      rw [memRead_memWrites_outside]
      · simp
      · intro j hj
        simp at hp
        omega
    | succ k =>
      have h := ih (memWrite m (a % 2 ^ 64) b) (a + 1) k (by simpa using hi) (by simp at hp; omega)
      rw [Nat.add_assoc, Nat.add_comm 1 k] at h
      simpa using h

end Sys2Proof.Machine
end

