-- ==== Sys2Proof/Laws/State.lean ====
section
/-! SUPPORT. What each updater of a part of the state leaves and gives, one lemma per updater and part. -/

namespace Sys2Proof.Machine

open Sys2Proof

/-! ### onHost -/

@[simp] theorem State.onHost_pending (s : State) (g : List Host.Cell → List Host.Cell) : (s.onHost g).pending = s.pending := rfl
@[simp] theorem State.onHost_freeCtr (s : State) (g : List Host.Cell → List Host.Cell) : (s.onHost g).freeCtr = s.freeCtr := rfl
@[simp] theorem State.onHost_host (s : State) (g : List Host.Cell → List Host.Cell) : (s.onHost g).host = g s.host := rfl
@[simp] theorem State.onHost_dev (s : State) (g : List Host.Cell → List Host.Cell) : (s.onHost g).dev = s.dev := rfl
@[simp] theorem State.onHost_power (s : State) (g : List Host.Cell → List Host.Cell) : (s.onHost g).power = s.power := rfl
@[simp] theorem State.onHost_mb (s : State) (g : List Host.Cell → List Host.Cell) : (s.onHost g).mb = s.mb := rfl
@[simp] theorem State.onHost_tick (s : State) (g : List Host.Cell → List Host.Cell) : (s.onHost g).tick = s.tick := rfl
@[simp] theorem State.onHost_fault (s : State) (g : List Host.Cell → List Host.Cell) : (s.onHost g).fault = s.fault := rfl
@[simp] theorem State.onHost_link (s : State) (g : List Host.Cell → List Host.Cell) : (s.onHost g).link = s.link := rfl
@[simp] theorem State.onHost_cells (s : State) (g : List Host.Cell → List Host.Cell) : (s.onHost g).cells = s.cells := rfl
@[simp] theorem State.onHost_aie (s : State) (g : List Host.Cell → List Host.Cell) : (s.onHost g).aie = s.aie := rfl
@[simp] theorem State.onHost_pwm (s : State) (g : List Host.Cell → List Host.Cell) : (s.onHost g).pwm = s.pwm := rfl
@[simp] theorem State.onHost_loop (s : State) (g : List Host.Cell → List Host.Cell) : (s.onHost g).loop = s.loop := rfl
@[simp] theorem State.onHost_tiles (s : State) (g : List Host.Cell → List Host.Cell) : (s.onHost g).tiles = s.tiles := rfl
@[simp] theorem State.onHost_meas (s : State) (g : List Host.Cell → List Host.Cell) : (s.onHost g).meas = s.meas := rfl
@[simp] theorem State.onHost_time (s : State) (g : List Host.Cell → List Host.Cell) : (s.onHost g).time = s.time := rfl
@[simp] theorem State.onHost_acq (s : State) (g : List Host.Cell → List Host.Cell) : (s.onHost g).acq = s.acq := rfl
@[simp] theorem State.onHost_prot (s : State) (g : List Host.Cell → List Host.Cell) : (s.onHost g).prot = s.prot := rfl
@[simp] theorem State.onHost_net (s : State) (g : List Host.Cell → List Host.Cell) : (s.onHost g).net = s.net := rfl
@[simp] theorem State.onHost_safe (s : State) (g : List Host.Cell → List Host.Cell) : (s.onHost g).safe = s.safe := rfl
@[simp] theorem State.onHost_red (s : State) (g : List Host.Cell → List Host.Cell) : (s.onHost g).red = s.red := rfl
@[simp] theorem State.onHost_galley (s : State) (g : List Host.Cell → List Host.Cell) : (s.onHost g).galley = s.galley := rfl
@[simp] theorem State.onHost_spare (s : State) (g : List Host.Cell → List Host.Cell) : (s.onHost g).spare = s.spare := rfl

/-! ### onDev -/

@[simp] theorem State.onDev_pending (s : State) (g : Dev → Dev) : (s.onDev g).pending = s.pending := rfl
@[simp] theorem State.onDev_freeCtr (s : State) (g : Dev → Dev) : (s.onDev g).freeCtr = s.freeCtr := rfl
@[simp] theorem State.onDev_host (s : State) (g : Dev → Dev) : (s.onDev g).host = s.host := rfl
@[simp] theorem State.onDev_dev (s : State) (g : Dev → Dev) : (s.onDev g).dev = g s.dev := rfl
@[simp] theorem State.onDev_power (s : State) (g : Dev → Dev) : (s.onDev g).power = s.power := rfl
@[simp] theorem State.onDev_mb (s : State) (g : Dev → Dev) : (s.onDev g).mb = s.mb := rfl
@[simp] theorem State.onDev_tick (s : State) (g : Dev → Dev) : (s.onDev g).tick = s.tick := rfl
@[simp] theorem State.onDev_fault (s : State) (g : Dev → Dev) : (s.onDev g).fault = s.fault := rfl
@[simp] theorem State.onDev_link (s : State) (g : Dev → Dev) : (s.onDev g).link = s.link := rfl
@[simp] theorem State.onDev_cells (s : State) (g : Dev → Dev) : (s.onDev g).cells = s.cells := rfl
@[simp] theorem State.onDev_aie (s : State) (g : Dev → Dev) : (s.onDev g).aie = s.aie := rfl
@[simp] theorem State.onDev_pwm (s : State) (g : Dev → Dev) : (s.onDev g).pwm = s.pwm := rfl
@[simp] theorem State.onDev_loop (s : State) (g : Dev → Dev) : (s.onDev g).loop = s.loop := rfl
@[simp] theorem State.onDev_tiles (s : State) (g : Dev → Dev) : (s.onDev g).tiles = s.tiles := rfl
@[simp] theorem State.onDev_meas (s : State) (g : Dev → Dev) : (s.onDev g).meas = s.meas := rfl
@[simp] theorem State.onDev_time (s : State) (g : Dev → Dev) : (s.onDev g).time = s.time := rfl
@[simp] theorem State.onDev_acq (s : State) (g : Dev → Dev) : (s.onDev g).acq = s.acq := rfl
@[simp] theorem State.onDev_prot (s : State) (g : Dev → Dev) : (s.onDev g).prot = s.prot := rfl
@[simp] theorem State.onDev_net (s : State) (g : Dev → Dev) : (s.onDev g).net = s.net := rfl
@[simp] theorem State.onDev_safe (s : State) (g : Dev → Dev) : (s.onDev g).safe = s.safe := rfl
@[simp] theorem State.onDev_red (s : State) (g : Dev → Dev) : (s.onDev g).red = s.red := rfl
@[simp] theorem State.onDev_galley (s : State) (g : Dev → Dev) : (s.onDev g).galley = s.galley := rfl
@[simp] theorem State.onDev_spare (s : State) (g : Dev → Dev) : (s.onDev g).spare = s.spare := rfl

/-! ### onPower -/

@[simp] theorem State.onPower_pending (s : State) (g : Power → Power) : (s.onPower g).pending = s.pending := rfl
@[simp] theorem State.onPower_freeCtr (s : State) (g : Power → Power) : (s.onPower g).freeCtr = s.freeCtr := rfl
@[simp] theorem State.onPower_host (s : State) (g : Power → Power) : (s.onPower g).host = s.host := rfl
@[simp] theorem State.onPower_dev (s : State) (g : Power → Power) : (s.onPower g).dev = s.dev := rfl
@[simp] theorem State.onPower_power (s : State) (g : Power → Power) : (s.onPower g).power = g s.power := rfl
@[simp] theorem State.onPower_mb (s : State) (g : Power → Power) : (s.onPower g).mb = s.mb := rfl
@[simp] theorem State.onPower_tick (s : State) (g : Power → Power) : (s.onPower g).tick = s.tick := rfl
@[simp] theorem State.onPower_fault (s : State) (g : Power → Power) : (s.onPower g).fault = s.fault := rfl
@[simp] theorem State.onPower_link (s : State) (g : Power → Power) : (s.onPower g).link = s.link := rfl
@[simp] theorem State.onPower_cells (s : State) (g : Power → Power) : (s.onPower g).cells = s.cells := rfl
@[simp] theorem State.onPower_aie (s : State) (g : Power → Power) : (s.onPower g).aie = s.aie := rfl
@[simp] theorem State.onPower_pwm (s : State) (g : Power → Power) : (s.onPower g).pwm = s.pwm := rfl
@[simp] theorem State.onPower_loop (s : State) (g : Power → Power) : (s.onPower g).loop = s.loop := rfl
@[simp] theorem State.onPower_tiles (s : State) (g : Power → Power) : (s.onPower g).tiles = s.tiles := rfl
@[simp] theorem State.onPower_meas (s : State) (g : Power → Power) : (s.onPower g).meas = s.meas := rfl
@[simp] theorem State.onPower_time (s : State) (g : Power → Power) : (s.onPower g).time = s.time := rfl
@[simp] theorem State.onPower_acq (s : State) (g : Power → Power) : (s.onPower g).acq = s.acq := rfl
@[simp] theorem State.onPower_prot (s : State) (g : Power → Power) : (s.onPower g).prot = s.prot := rfl
@[simp] theorem State.onPower_net (s : State) (g : Power → Power) : (s.onPower g).net = s.net := rfl
@[simp] theorem State.onPower_safe (s : State) (g : Power → Power) : (s.onPower g).safe = s.safe := rfl
@[simp] theorem State.onPower_red (s : State) (g : Power → Power) : (s.onPower g).red = s.red := rfl
@[simp] theorem State.onPower_galley (s : State) (g : Power → Power) : (s.onPower g).galley = s.galley := rfl
@[simp] theorem State.onPower_spare (s : State) (g : Power → Power) : (s.onPower g).spare = s.spare := rfl

/-! ### onMb -/

@[simp] theorem State.onMb_pending (s : State) (g : Mailboxes → Mailboxes) : (s.onMb g).pending = s.pending := rfl
@[simp] theorem State.onMb_freeCtr (s : State) (g : Mailboxes → Mailboxes) : (s.onMb g).freeCtr = s.freeCtr := rfl
@[simp] theorem State.onMb_host (s : State) (g : Mailboxes → Mailboxes) : (s.onMb g).host = s.host := rfl
@[simp] theorem State.onMb_dev (s : State) (g : Mailboxes → Mailboxes) : (s.onMb g).dev = s.dev := rfl
@[simp] theorem State.onMb_power (s : State) (g : Mailboxes → Mailboxes) : (s.onMb g).power = s.power := rfl
@[simp] theorem State.onMb_mb (s : State) (g : Mailboxes → Mailboxes) : (s.onMb g).mb = g s.mb := rfl
@[simp] theorem State.onMb_tick (s : State) (g : Mailboxes → Mailboxes) : (s.onMb g).tick = s.tick := rfl
@[simp] theorem State.onMb_fault (s : State) (g : Mailboxes → Mailboxes) : (s.onMb g).fault = s.fault := rfl
@[simp] theorem State.onMb_link (s : State) (g : Mailboxes → Mailboxes) : (s.onMb g).link = s.link := rfl
@[simp] theorem State.onMb_cells (s : State) (g : Mailboxes → Mailboxes) : (s.onMb g).cells = s.cells := rfl
@[simp] theorem State.onMb_aie (s : State) (g : Mailboxes → Mailboxes) : (s.onMb g).aie = s.aie := rfl
@[simp] theorem State.onMb_pwm (s : State) (g : Mailboxes → Mailboxes) : (s.onMb g).pwm = s.pwm := rfl
@[simp] theorem State.onMb_loop (s : State) (g : Mailboxes → Mailboxes) : (s.onMb g).loop = s.loop := rfl
@[simp] theorem State.onMb_tiles (s : State) (g : Mailboxes → Mailboxes) : (s.onMb g).tiles = s.tiles := rfl
@[simp] theorem State.onMb_meas (s : State) (g : Mailboxes → Mailboxes) : (s.onMb g).meas = s.meas := rfl
@[simp] theorem State.onMb_time (s : State) (g : Mailboxes → Mailboxes) : (s.onMb g).time = s.time := rfl
@[simp] theorem State.onMb_acq (s : State) (g : Mailboxes → Mailboxes) : (s.onMb g).acq = s.acq := rfl
@[simp] theorem State.onMb_prot (s : State) (g : Mailboxes → Mailboxes) : (s.onMb g).prot = s.prot := rfl
@[simp] theorem State.onMb_net (s : State) (g : Mailboxes → Mailboxes) : (s.onMb g).net = s.net := rfl
@[simp] theorem State.onMb_safe (s : State) (g : Mailboxes → Mailboxes) : (s.onMb g).safe = s.safe := rfl
@[simp] theorem State.onMb_red (s : State) (g : Mailboxes → Mailboxes) : (s.onMb g).red = s.red := rfl
@[simp] theorem State.onMb_galley (s : State) (g : Mailboxes → Mailboxes) : (s.onMb g).galley = s.galley := rfl
@[simp] theorem State.onMb_spare (s : State) (g : Mailboxes → Mailboxes) : (s.onMb g).spare = s.spare := rfl

/-! ### onTick -/

@[simp] theorem State.onTick_pending (s : State) (g : TickSt → TickSt) : (s.onTick g).pending = s.pending := rfl
@[simp] theorem State.onTick_freeCtr (s : State) (g : TickSt → TickSt) : (s.onTick g).freeCtr = s.freeCtr := rfl
@[simp] theorem State.onTick_host (s : State) (g : TickSt → TickSt) : (s.onTick g).host = s.host := rfl
@[simp] theorem State.onTick_dev (s : State) (g : TickSt → TickSt) : (s.onTick g).dev = s.dev := rfl
@[simp] theorem State.onTick_power (s : State) (g : TickSt → TickSt) : (s.onTick g).power = s.power := rfl
@[simp] theorem State.onTick_mb (s : State) (g : TickSt → TickSt) : (s.onTick g).mb = s.mb := rfl
@[simp] theorem State.onTick_tick (s : State) (g : TickSt → TickSt) : (s.onTick g).tick = g s.tick := rfl
@[simp] theorem State.onTick_fault (s : State) (g : TickSt → TickSt) : (s.onTick g).fault = s.fault := rfl
@[simp] theorem State.onTick_link (s : State) (g : TickSt → TickSt) : (s.onTick g).link = s.link := rfl
@[simp] theorem State.onTick_cells (s : State) (g : TickSt → TickSt) : (s.onTick g).cells = s.cells := rfl
@[simp] theorem State.onTick_aie (s : State) (g : TickSt → TickSt) : (s.onTick g).aie = s.aie := rfl
@[simp] theorem State.onTick_pwm (s : State) (g : TickSt → TickSt) : (s.onTick g).pwm = s.pwm := rfl
@[simp] theorem State.onTick_loop (s : State) (g : TickSt → TickSt) : (s.onTick g).loop = s.loop := rfl
@[simp] theorem State.onTick_tiles (s : State) (g : TickSt → TickSt) : (s.onTick g).tiles = s.tiles := rfl
@[simp] theorem State.onTick_meas (s : State) (g : TickSt → TickSt) : (s.onTick g).meas = s.meas := rfl
@[simp] theorem State.onTick_time (s : State) (g : TickSt → TickSt) : (s.onTick g).time = s.time := rfl
@[simp] theorem State.onTick_acq (s : State) (g : TickSt → TickSt) : (s.onTick g).acq = s.acq := rfl
@[simp] theorem State.onTick_prot (s : State) (g : TickSt → TickSt) : (s.onTick g).prot = s.prot := rfl
@[simp] theorem State.onTick_net (s : State) (g : TickSt → TickSt) : (s.onTick g).net = s.net := rfl
@[simp] theorem State.onTick_safe (s : State) (g : TickSt → TickSt) : (s.onTick g).safe = s.safe := rfl
@[simp] theorem State.onTick_red (s : State) (g : TickSt → TickSt) : (s.onTick g).red = s.red := rfl
@[simp] theorem State.onTick_galley (s : State) (g : TickSt → TickSt) : (s.onTick g).galley = s.galley := rfl
@[simp] theorem State.onTick_spare (s : State) (g : TickSt → TickSt) : (s.onTick g).spare = s.spare := rfl

/-! ### onFault -/

@[simp] theorem State.onFault_pending (s : State) (g : FaultSt → FaultSt) : (s.onFault g).pending = s.pending := rfl
@[simp] theorem State.onFault_freeCtr (s : State) (g : FaultSt → FaultSt) : (s.onFault g).freeCtr = s.freeCtr := rfl
@[simp] theorem State.onFault_host (s : State) (g : FaultSt → FaultSt) : (s.onFault g).host = s.host := rfl
@[simp] theorem State.onFault_dev (s : State) (g : FaultSt → FaultSt) : (s.onFault g).dev = s.dev := rfl
@[simp] theorem State.onFault_power (s : State) (g : FaultSt → FaultSt) : (s.onFault g).power = s.power := rfl
@[simp] theorem State.onFault_mb (s : State) (g : FaultSt → FaultSt) : (s.onFault g).mb = s.mb := rfl
@[simp] theorem State.onFault_tick (s : State) (g : FaultSt → FaultSt) : (s.onFault g).tick = s.tick := rfl
@[simp] theorem State.onFault_fault (s : State) (g : FaultSt → FaultSt) : (s.onFault g).fault = g s.fault := rfl
@[simp] theorem State.onFault_link (s : State) (g : FaultSt → FaultSt) : (s.onFault g).link = s.link := rfl
@[simp] theorem State.onFault_cells (s : State) (g : FaultSt → FaultSt) : (s.onFault g).cells = s.cells := rfl
@[simp] theorem State.onFault_aie (s : State) (g : FaultSt → FaultSt) : (s.onFault g).aie = s.aie := rfl
@[simp] theorem State.onFault_pwm (s : State) (g : FaultSt → FaultSt) : (s.onFault g).pwm = s.pwm := rfl
@[simp] theorem State.onFault_loop (s : State) (g : FaultSt → FaultSt) : (s.onFault g).loop = s.loop := rfl
@[simp] theorem State.onFault_tiles (s : State) (g : FaultSt → FaultSt) : (s.onFault g).tiles = s.tiles := rfl
@[simp] theorem State.onFault_meas (s : State) (g : FaultSt → FaultSt) : (s.onFault g).meas = s.meas := rfl
@[simp] theorem State.onFault_time (s : State) (g : FaultSt → FaultSt) : (s.onFault g).time = s.time := rfl
@[simp] theorem State.onFault_acq (s : State) (g : FaultSt → FaultSt) : (s.onFault g).acq = s.acq := rfl
@[simp] theorem State.onFault_prot (s : State) (g : FaultSt → FaultSt) : (s.onFault g).prot = s.prot := rfl
@[simp] theorem State.onFault_net (s : State) (g : FaultSt → FaultSt) : (s.onFault g).net = s.net := rfl
@[simp] theorem State.onFault_safe (s : State) (g : FaultSt → FaultSt) : (s.onFault g).safe = s.safe := rfl
@[simp] theorem State.onFault_red (s : State) (g : FaultSt → FaultSt) : (s.onFault g).red = s.red := rfl
@[simp] theorem State.onFault_galley (s : State) (g : FaultSt → FaultSt) : (s.onFault g).galley = s.galley := rfl
@[simp] theorem State.onFault_spare (s : State) (g : FaultSt → FaultSt) : (s.onFault g).spare = s.spare := rfl

/-! ### onLink -/

@[simp] theorem State.onLink_pending (s : State) (g : LinkSt → LinkSt) : (s.onLink g).pending = s.pending := rfl
@[simp] theorem State.onLink_freeCtr (s : State) (g : LinkSt → LinkSt) : (s.onLink g).freeCtr = s.freeCtr := rfl
@[simp] theorem State.onLink_host (s : State) (g : LinkSt → LinkSt) : (s.onLink g).host = s.host := rfl
@[simp] theorem State.onLink_dev (s : State) (g : LinkSt → LinkSt) : (s.onLink g).dev = s.dev := rfl
@[simp] theorem State.onLink_power (s : State) (g : LinkSt → LinkSt) : (s.onLink g).power = s.power := rfl
@[simp] theorem State.onLink_mb (s : State) (g : LinkSt → LinkSt) : (s.onLink g).mb = s.mb := rfl
@[simp] theorem State.onLink_tick (s : State) (g : LinkSt → LinkSt) : (s.onLink g).tick = s.tick := rfl
@[simp] theorem State.onLink_fault (s : State) (g : LinkSt → LinkSt) : (s.onLink g).fault = s.fault := rfl
@[simp] theorem State.onLink_link (s : State) (g : LinkSt → LinkSt) : (s.onLink g).link = g s.link := rfl
@[simp] theorem State.onLink_cells (s : State) (g : LinkSt → LinkSt) : (s.onLink g).cells = s.cells := rfl
@[simp] theorem State.onLink_aie (s : State) (g : LinkSt → LinkSt) : (s.onLink g).aie = s.aie := rfl
@[simp] theorem State.onLink_pwm (s : State) (g : LinkSt → LinkSt) : (s.onLink g).pwm = s.pwm := rfl
@[simp] theorem State.onLink_loop (s : State) (g : LinkSt → LinkSt) : (s.onLink g).loop = s.loop := rfl
@[simp] theorem State.onLink_tiles (s : State) (g : LinkSt → LinkSt) : (s.onLink g).tiles = s.tiles := rfl
@[simp] theorem State.onLink_meas (s : State) (g : LinkSt → LinkSt) : (s.onLink g).meas = s.meas := rfl
@[simp] theorem State.onLink_time (s : State) (g : LinkSt → LinkSt) : (s.onLink g).time = s.time := rfl
@[simp] theorem State.onLink_acq (s : State) (g : LinkSt → LinkSt) : (s.onLink g).acq = s.acq := rfl
@[simp] theorem State.onLink_prot (s : State) (g : LinkSt → LinkSt) : (s.onLink g).prot = s.prot := rfl
@[simp] theorem State.onLink_net (s : State) (g : LinkSt → LinkSt) : (s.onLink g).net = s.net := rfl
@[simp] theorem State.onLink_safe (s : State) (g : LinkSt → LinkSt) : (s.onLink g).safe = s.safe := rfl
@[simp] theorem State.onLink_red (s : State) (g : LinkSt → LinkSt) : (s.onLink g).red = s.red := rfl
@[simp] theorem State.onLink_galley (s : State) (g : LinkSt → LinkSt) : (s.onLink g).galley = s.galley := rfl
@[simp] theorem State.onLink_spare (s : State) (g : LinkSt → LinkSt) : (s.onLink g).spare = s.spare := rfl

/-! ### onCells -/

@[simp] theorem State.onCells_pending (s : State) (g : CellsSt → CellsSt) : (s.onCells g).pending = s.pending := rfl
@[simp] theorem State.onCells_freeCtr (s : State) (g : CellsSt → CellsSt) : (s.onCells g).freeCtr = s.freeCtr := rfl
@[simp] theorem State.onCells_host (s : State) (g : CellsSt → CellsSt) : (s.onCells g).host = s.host := rfl
@[simp] theorem State.onCells_dev (s : State) (g : CellsSt → CellsSt) : (s.onCells g).dev = s.dev := rfl
@[simp] theorem State.onCells_power (s : State) (g : CellsSt → CellsSt) : (s.onCells g).power = s.power := rfl
@[simp] theorem State.onCells_mb (s : State) (g : CellsSt → CellsSt) : (s.onCells g).mb = s.mb := rfl
@[simp] theorem State.onCells_tick (s : State) (g : CellsSt → CellsSt) : (s.onCells g).tick = s.tick := rfl
@[simp] theorem State.onCells_fault (s : State) (g : CellsSt → CellsSt) : (s.onCells g).fault = s.fault := rfl
@[simp] theorem State.onCells_link (s : State) (g : CellsSt → CellsSt) : (s.onCells g).link = s.link := rfl
@[simp] theorem State.onCells_cells (s : State) (g : CellsSt → CellsSt) : (s.onCells g).cells = g s.cells := rfl
@[simp] theorem State.onCells_aie (s : State) (g : CellsSt → CellsSt) : (s.onCells g).aie = s.aie := rfl
@[simp] theorem State.onCells_pwm (s : State) (g : CellsSt → CellsSt) : (s.onCells g).pwm = s.pwm := rfl
@[simp] theorem State.onCells_loop (s : State) (g : CellsSt → CellsSt) : (s.onCells g).loop = s.loop := rfl
@[simp] theorem State.onCells_tiles (s : State) (g : CellsSt → CellsSt) : (s.onCells g).tiles = s.tiles := rfl
@[simp] theorem State.onCells_meas (s : State) (g : CellsSt → CellsSt) : (s.onCells g).meas = s.meas := rfl
@[simp] theorem State.onCells_time (s : State) (g : CellsSt → CellsSt) : (s.onCells g).time = s.time := rfl
@[simp] theorem State.onCells_acq (s : State) (g : CellsSt → CellsSt) : (s.onCells g).acq = s.acq := rfl
@[simp] theorem State.onCells_prot (s : State) (g : CellsSt → CellsSt) : (s.onCells g).prot = s.prot := rfl
@[simp] theorem State.onCells_net (s : State) (g : CellsSt → CellsSt) : (s.onCells g).net = s.net := rfl
@[simp] theorem State.onCells_safe (s : State) (g : CellsSt → CellsSt) : (s.onCells g).safe = s.safe := rfl
@[simp] theorem State.onCells_red (s : State) (g : CellsSt → CellsSt) : (s.onCells g).red = s.red := rfl
@[simp] theorem State.onCells_galley (s : State) (g : CellsSt → CellsSt) : (s.onCells g).galley = s.galley := rfl
@[simp] theorem State.onCells_spare (s : State) (g : CellsSt → CellsSt) : (s.onCells g).spare = s.spare := rfl

/-! ### onAie -/

@[simp] theorem State.onAie_pending (s : State) (g : AieSt → AieSt) : (s.onAie g).pending = s.pending := rfl
@[simp] theorem State.onAie_freeCtr (s : State) (g : AieSt → AieSt) : (s.onAie g).freeCtr = s.freeCtr := rfl
@[simp] theorem State.onAie_host (s : State) (g : AieSt → AieSt) : (s.onAie g).host = s.host := rfl
@[simp] theorem State.onAie_dev (s : State) (g : AieSt → AieSt) : (s.onAie g).dev = s.dev := rfl
@[simp] theorem State.onAie_power (s : State) (g : AieSt → AieSt) : (s.onAie g).power = s.power := rfl
@[simp] theorem State.onAie_mb (s : State) (g : AieSt → AieSt) : (s.onAie g).mb = s.mb := rfl
@[simp] theorem State.onAie_tick (s : State) (g : AieSt → AieSt) : (s.onAie g).tick = s.tick := rfl
@[simp] theorem State.onAie_fault (s : State) (g : AieSt → AieSt) : (s.onAie g).fault = s.fault := rfl
@[simp] theorem State.onAie_link (s : State) (g : AieSt → AieSt) : (s.onAie g).link = s.link := rfl
@[simp] theorem State.onAie_cells (s : State) (g : AieSt → AieSt) : (s.onAie g).cells = s.cells := rfl
@[simp] theorem State.onAie_aie (s : State) (g : AieSt → AieSt) : (s.onAie g).aie = g s.aie := rfl
@[simp] theorem State.onAie_pwm (s : State) (g : AieSt → AieSt) : (s.onAie g).pwm = s.pwm := rfl
@[simp] theorem State.onAie_loop (s : State) (g : AieSt → AieSt) : (s.onAie g).loop = s.loop := rfl
@[simp] theorem State.onAie_tiles (s : State) (g : AieSt → AieSt) : (s.onAie g).tiles = s.tiles := rfl
@[simp] theorem State.onAie_meas (s : State) (g : AieSt → AieSt) : (s.onAie g).meas = s.meas := rfl
@[simp] theorem State.onAie_time (s : State) (g : AieSt → AieSt) : (s.onAie g).time = s.time := rfl
@[simp] theorem State.onAie_acq (s : State) (g : AieSt → AieSt) : (s.onAie g).acq = s.acq := rfl
@[simp] theorem State.onAie_prot (s : State) (g : AieSt → AieSt) : (s.onAie g).prot = s.prot := rfl
@[simp] theorem State.onAie_net (s : State) (g : AieSt → AieSt) : (s.onAie g).net = s.net := rfl
@[simp] theorem State.onAie_safe (s : State) (g : AieSt → AieSt) : (s.onAie g).safe = s.safe := rfl
@[simp] theorem State.onAie_red (s : State) (g : AieSt → AieSt) : (s.onAie g).red = s.red := rfl
@[simp] theorem State.onAie_galley (s : State) (g : AieSt → AieSt) : (s.onAie g).galley = s.galley := rfl
@[simp] theorem State.onAie_spare (s : State) (g : AieSt → AieSt) : (s.onAie g).spare = s.spare := rfl

/-! ### onPwm -/

@[simp] theorem State.onPwm_pending (s : State) (g : PwmSt → PwmSt) : (s.onPwm g).pending = s.pending := rfl
@[simp] theorem State.onPwm_freeCtr (s : State) (g : PwmSt → PwmSt) : (s.onPwm g).freeCtr = s.freeCtr := rfl
@[simp] theorem State.onPwm_host (s : State) (g : PwmSt → PwmSt) : (s.onPwm g).host = s.host := rfl
@[simp] theorem State.onPwm_dev (s : State) (g : PwmSt → PwmSt) : (s.onPwm g).dev = s.dev := rfl
@[simp] theorem State.onPwm_power (s : State) (g : PwmSt → PwmSt) : (s.onPwm g).power = s.power := rfl
@[simp] theorem State.onPwm_mb (s : State) (g : PwmSt → PwmSt) : (s.onPwm g).mb = s.mb := rfl
@[simp] theorem State.onPwm_tick (s : State) (g : PwmSt → PwmSt) : (s.onPwm g).tick = s.tick := rfl
@[simp] theorem State.onPwm_fault (s : State) (g : PwmSt → PwmSt) : (s.onPwm g).fault = s.fault := rfl
@[simp] theorem State.onPwm_link (s : State) (g : PwmSt → PwmSt) : (s.onPwm g).link = s.link := rfl
@[simp] theorem State.onPwm_cells (s : State) (g : PwmSt → PwmSt) : (s.onPwm g).cells = s.cells := rfl
@[simp] theorem State.onPwm_aie (s : State) (g : PwmSt → PwmSt) : (s.onPwm g).aie = s.aie := rfl
@[simp] theorem State.onPwm_pwm (s : State) (g : PwmSt → PwmSt) : (s.onPwm g).pwm = g s.pwm := rfl
@[simp] theorem State.onPwm_loop (s : State) (g : PwmSt → PwmSt) : (s.onPwm g).loop = s.loop := rfl
@[simp] theorem State.onPwm_tiles (s : State) (g : PwmSt → PwmSt) : (s.onPwm g).tiles = s.tiles := rfl
@[simp] theorem State.onPwm_meas (s : State) (g : PwmSt → PwmSt) : (s.onPwm g).meas = s.meas := rfl
@[simp] theorem State.onPwm_time (s : State) (g : PwmSt → PwmSt) : (s.onPwm g).time = s.time := rfl
@[simp] theorem State.onPwm_acq (s : State) (g : PwmSt → PwmSt) : (s.onPwm g).acq = s.acq := rfl
@[simp] theorem State.onPwm_prot (s : State) (g : PwmSt → PwmSt) : (s.onPwm g).prot = s.prot := rfl
@[simp] theorem State.onPwm_net (s : State) (g : PwmSt → PwmSt) : (s.onPwm g).net = s.net := rfl
@[simp] theorem State.onPwm_safe (s : State) (g : PwmSt → PwmSt) : (s.onPwm g).safe = s.safe := rfl
@[simp] theorem State.onPwm_red (s : State) (g : PwmSt → PwmSt) : (s.onPwm g).red = s.red := rfl
@[simp] theorem State.onPwm_galley (s : State) (g : PwmSt → PwmSt) : (s.onPwm g).galley = s.galley := rfl
@[simp] theorem State.onPwm_spare (s : State) (g : PwmSt → PwmSt) : (s.onPwm g).spare = s.spare := rfl

/-! ### onLoop -/

@[simp] theorem State.onLoop_pending (s : State) (g : LoopSt → LoopSt) : (s.onLoop g).pending = s.pending := rfl
@[simp] theorem State.onLoop_freeCtr (s : State) (g : LoopSt → LoopSt) : (s.onLoop g).freeCtr = s.freeCtr := rfl
@[simp] theorem State.onLoop_host (s : State) (g : LoopSt → LoopSt) : (s.onLoop g).host = s.host := rfl
@[simp] theorem State.onLoop_dev (s : State) (g : LoopSt → LoopSt) : (s.onLoop g).dev = s.dev := rfl
@[simp] theorem State.onLoop_power (s : State) (g : LoopSt → LoopSt) : (s.onLoop g).power = s.power := rfl
@[simp] theorem State.onLoop_mb (s : State) (g : LoopSt → LoopSt) : (s.onLoop g).mb = s.mb := rfl
@[simp] theorem State.onLoop_tick (s : State) (g : LoopSt → LoopSt) : (s.onLoop g).tick = s.tick := rfl
@[simp] theorem State.onLoop_fault (s : State) (g : LoopSt → LoopSt) : (s.onLoop g).fault = s.fault := rfl
@[simp] theorem State.onLoop_link (s : State) (g : LoopSt → LoopSt) : (s.onLoop g).link = s.link := rfl
@[simp] theorem State.onLoop_cells (s : State) (g : LoopSt → LoopSt) : (s.onLoop g).cells = s.cells := rfl
@[simp] theorem State.onLoop_aie (s : State) (g : LoopSt → LoopSt) : (s.onLoop g).aie = s.aie := rfl
@[simp] theorem State.onLoop_pwm (s : State) (g : LoopSt → LoopSt) : (s.onLoop g).pwm = s.pwm := rfl
@[simp] theorem State.onLoop_loop (s : State) (g : LoopSt → LoopSt) : (s.onLoop g).loop = g s.loop := rfl
@[simp] theorem State.onLoop_tiles (s : State) (g : LoopSt → LoopSt) : (s.onLoop g).tiles = s.tiles := rfl
@[simp] theorem State.onLoop_meas (s : State) (g : LoopSt → LoopSt) : (s.onLoop g).meas = s.meas := rfl
@[simp] theorem State.onLoop_time (s : State) (g : LoopSt → LoopSt) : (s.onLoop g).time = s.time := rfl
@[simp] theorem State.onLoop_acq (s : State) (g : LoopSt → LoopSt) : (s.onLoop g).acq = s.acq := rfl
@[simp] theorem State.onLoop_prot (s : State) (g : LoopSt → LoopSt) : (s.onLoop g).prot = s.prot := rfl
@[simp] theorem State.onLoop_net (s : State) (g : LoopSt → LoopSt) : (s.onLoop g).net = s.net := rfl
@[simp] theorem State.onLoop_safe (s : State) (g : LoopSt → LoopSt) : (s.onLoop g).safe = s.safe := rfl
@[simp] theorem State.onLoop_red (s : State) (g : LoopSt → LoopSt) : (s.onLoop g).red = s.red := rfl
@[simp] theorem State.onLoop_galley (s : State) (g : LoopSt → LoopSt) : (s.onLoop g).galley = s.galley := rfl
@[simp] theorem State.onLoop_spare (s : State) (g : LoopSt → LoopSt) : (s.onLoop g).spare = s.spare := rfl

/-! ### onTiles -/

@[simp] theorem State.onTiles_pending (s : State) (g : TileAll → TileAll) : (s.onTiles g).pending = s.pending := rfl
@[simp] theorem State.onTiles_freeCtr (s : State) (g : TileAll → TileAll) : (s.onTiles g).freeCtr = s.freeCtr := rfl
@[simp] theorem State.onTiles_host (s : State) (g : TileAll → TileAll) : (s.onTiles g).host = s.host := rfl
@[simp] theorem State.onTiles_dev (s : State) (g : TileAll → TileAll) : (s.onTiles g).dev = s.dev := rfl
@[simp] theorem State.onTiles_power (s : State) (g : TileAll → TileAll) : (s.onTiles g).power = s.power := rfl
@[simp] theorem State.onTiles_mb (s : State) (g : TileAll → TileAll) : (s.onTiles g).mb = s.mb := rfl
@[simp] theorem State.onTiles_tick (s : State) (g : TileAll → TileAll) : (s.onTiles g).tick = s.tick := rfl
@[simp] theorem State.onTiles_fault (s : State) (g : TileAll → TileAll) : (s.onTiles g).fault = s.fault := rfl
@[simp] theorem State.onTiles_link (s : State) (g : TileAll → TileAll) : (s.onTiles g).link = s.link := rfl
@[simp] theorem State.onTiles_cells (s : State) (g : TileAll → TileAll) : (s.onTiles g).cells = s.cells := rfl
@[simp] theorem State.onTiles_aie (s : State) (g : TileAll → TileAll) : (s.onTiles g).aie = s.aie := rfl
@[simp] theorem State.onTiles_pwm (s : State) (g : TileAll → TileAll) : (s.onTiles g).pwm = s.pwm := rfl
@[simp] theorem State.onTiles_loop (s : State) (g : TileAll → TileAll) : (s.onTiles g).loop = s.loop := rfl
@[simp] theorem State.onTiles_tiles (s : State) (g : TileAll → TileAll) : (s.onTiles g).tiles = g s.tiles := rfl
@[simp] theorem State.onTiles_meas (s : State) (g : TileAll → TileAll) : (s.onTiles g).meas = s.meas := rfl
@[simp] theorem State.onTiles_time (s : State) (g : TileAll → TileAll) : (s.onTiles g).time = s.time := rfl
@[simp] theorem State.onTiles_acq (s : State) (g : TileAll → TileAll) : (s.onTiles g).acq = s.acq := rfl
@[simp] theorem State.onTiles_prot (s : State) (g : TileAll → TileAll) : (s.onTiles g).prot = s.prot := rfl
@[simp] theorem State.onTiles_net (s : State) (g : TileAll → TileAll) : (s.onTiles g).net = s.net := rfl
@[simp] theorem State.onTiles_safe (s : State) (g : TileAll → TileAll) : (s.onTiles g).safe = s.safe := rfl
@[simp] theorem State.onTiles_red (s : State) (g : TileAll → TileAll) : (s.onTiles g).red = s.red := rfl
@[simp] theorem State.onTiles_galley (s : State) (g : TileAll → TileAll) : (s.onTiles g).galley = s.galley := rfl
@[simp] theorem State.onTiles_spare (s : State) (g : TileAll → TileAll) : (s.onTiles g).spare = s.spare := rfl

/-! ### onMeas -/

@[simp] theorem State.onMeas_pending (s : State) (g : MeasSt → MeasSt) : (s.onMeas g).pending = s.pending := rfl
@[simp] theorem State.onMeas_freeCtr (s : State) (g : MeasSt → MeasSt) : (s.onMeas g).freeCtr = s.freeCtr := rfl
@[simp] theorem State.onMeas_host (s : State) (g : MeasSt → MeasSt) : (s.onMeas g).host = s.host := rfl
@[simp] theorem State.onMeas_dev (s : State) (g : MeasSt → MeasSt) : (s.onMeas g).dev = s.dev := rfl
@[simp] theorem State.onMeas_power (s : State) (g : MeasSt → MeasSt) : (s.onMeas g).power = s.power := rfl
@[simp] theorem State.onMeas_mb (s : State) (g : MeasSt → MeasSt) : (s.onMeas g).mb = s.mb := rfl
@[simp] theorem State.onMeas_tick (s : State) (g : MeasSt → MeasSt) : (s.onMeas g).tick = s.tick := rfl
@[simp] theorem State.onMeas_fault (s : State) (g : MeasSt → MeasSt) : (s.onMeas g).fault = s.fault := rfl
@[simp] theorem State.onMeas_link (s : State) (g : MeasSt → MeasSt) : (s.onMeas g).link = s.link := rfl
@[simp] theorem State.onMeas_cells (s : State) (g : MeasSt → MeasSt) : (s.onMeas g).cells = s.cells := rfl
@[simp] theorem State.onMeas_aie (s : State) (g : MeasSt → MeasSt) : (s.onMeas g).aie = s.aie := rfl
@[simp] theorem State.onMeas_pwm (s : State) (g : MeasSt → MeasSt) : (s.onMeas g).pwm = s.pwm := rfl
@[simp] theorem State.onMeas_loop (s : State) (g : MeasSt → MeasSt) : (s.onMeas g).loop = s.loop := rfl
@[simp] theorem State.onMeas_tiles (s : State) (g : MeasSt → MeasSt) : (s.onMeas g).tiles = s.tiles := rfl
@[simp] theorem State.onMeas_meas (s : State) (g : MeasSt → MeasSt) : (s.onMeas g).meas = g s.meas := rfl
@[simp] theorem State.onMeas_time (s : State) (g : MeasSt → MeasSt) : (s.onMeas g).time = s.time := rfl
@[simp] theorem State.onMeas_acq (s : State) (g : MeasSt → MeasSt) : (s.onMeas g).acq = s.acq := rfl
@[simp] theorem State.onMeas_prot (s : State) (g : MeasSt → MeasSt) : (s.onMeas g).prot = s.prot := rfl
@[simp] theorem State.onMeas_net (s : State) (g : MeasSt → MeasSt) : (s.onMeas g).net = s.net := rfl
@[simp] theorem State.onMeas_safe (s : State) (g : MeasSt → MeasSt) : (s.onMeas g).safe = s.safe := rfl
@[simp] theorem State.onMeas_red (s : State) (g : MeasSt → MeasSt) : (s.onMeas g).red = s.red := rfl
@[simp] theorem State.onMeas_galley (s : State) (g : MeasSt → MeasSt) : (s.onMeas g).galley = s.galley := rfl
@[simp] theorem State.onMeas_spare (s : State) (g : MeasSt → MeasSt) : (s.onMeas g).spare = s.spare := rfl

/-! ### onTime -/

@[simp] theorem State.onTime_pending (s : State) (g : TimeSt → TimeSt) : (s.onTime g).pending = s.pending := rfl
@[simp] theorem State.onTime_freeCtr (s : State) (g : TimeSt → TimeSt) : (s.onTime g).freeCtr = s.freeCtr := rfl
@[simp] theorem State.onTime_host (s : State) (g : TimeSt → TimeSt) : (s.onTime g).host = s.host := rfl
@[simp] theorem State.onTime_dev (s : State) (g : TimeSt → TimeSt) : (s.onTime g).dev = s.dev := rfl
@[simp] theorem State.onTime_power (s : State) (g : TimeSt → TimeSt) : (s.onTime g).power = s.power := rfl
@[simp] theorem State.onTime_mb (s : State) (g : TimeSt → TimeSt) : (s.onTime g).mb = s.mb := rfl
@[simp] theorem State.onTime_tick (s : State) (g : TimeSt → TimeSt) : (s.onTime g).tick = s.tick := rfl
@[simp] theorem State.onTime_fault (s : State) (g : TimeSt → TimeSt) : (s.onTime g).fault = s.fault := rfl
@[simp] theorem State.onTime_link (s : State) (g : TimeSt → TimeSt) : (s.onTime g).link = s.link := rfl
@[simp] theorem State.onTime_cells (s : State) (g : TimeSt → TimeSt) : (s.onTime g).cells = s.cells := rfl
@[simp] theorem State.onTime_aie (s : State) (g : TimeSt → TimeSt) : (s.onTime g).aie = s.aie := rfl
@[simp] theorem State.onTime_pwm (s : State) (g : TimeSt → TimeSt) : (s.onTime g).pwm = s.pwm := rfl
@[simp] theorem State.onTime_loop (s : State) (g : TimeSt → TimeSt) : (s.onTime g).loop = s.loop := rfl
@[simp] theorem State.onTime_tiles (s : State) (g : TimeSt → TimeSt) : (s.onTime g).tiles = s.tiles := rfl
@[simp] theorem State.onTime_meas (s : State) (g : TimeSt → TimeSt) : (s.onTime g).meas = s.meas := rfl
@[simp] theorem State.onTime_time (s : State) (g : TimeSt → TimeSt) : (s.onTime g).time = g s.time := rfl
@[simp] theorem State.onTime_acq (s : State) (g : TimeSt → TimeSt) : (s.onTime g).acq = s.acq := rfl
@[simp] theorem State.onTime_prot (s : State) (g : TimeSt → TimeSt) : (s.onTime g).prot = s.prot := rfl
@[simp] theorem State.onTime_net (s : State) (g : TimeSt → TimeSt) : (s.onTime g).net = s.net := rfl
@[simp] theorem State.onTime_safe (s : State) (g : TimeSt → TimeSt) : (s.onTime g).safe = s.safe := rfl
@[simp] theorem State.onTime_red (s : State) (g : TimeSt → TimeSt) : (s.onTime g).red = s.red := rfl
@[simp] theorem State.onTime_galley (s : State) (g : TimeSt → TimeSt) : (s.onTime g).galley = s.galley := rfl
@[simp] theorem State.onTime_spare (s : State) (g : TimeSt → TimeSt) : (s.onTime g).spare = s.spare := rfl

/-! ### onAcq -/

@[simp] theorem State.onAcq_pending (s : State) (g : AcqSt → AcqSt) : (s.onAcq g).pending = s.pending := rfl
@[simp] theorem State.onAcq_freeCtr (s : State) (g : AcqSt → AcqSt) : (s.onAcq g).freeCtr = s.freeCtr := rfl
@[simp] theorem State.onAcq_host (s : State) (g : AcqSt → AcqSt) : (s.onAcq g).host = s.host := rfl
@[simp] theorem State.onAcq_dev (s : State) (g : AcqSt → AcqSt) : (s.onAcq g).dev = s.dev := rfl
@[simp] theorem State.onAcq_power (s : State) (g : AcqSt → AcqSt) : (s.onAcq g).power = s.power := rfl
@[simp] theorem State.onAcq_mb (s : State) (g : AcqSt → AcqSt) : (s.onAcq g).mb = s.mb := rfl
@[simp] theorem State.onAcq_tick (s : State) (g : AcqSt → AcqSt) : (s.onAcq g).tick = s.tick := rfl
@[simp] theorem State.onAcq_fault (s : State) (g : AcqSt → AcqSt) : (s.onAcq g).fault = s.fault := rfl
@[simp] theorem State.onAcq_link (s : State) (g : AcqSt → AcqSt) : (s.onAcq g).link = s.link := rfl
@[simp] theorem State.onAcq_cells (s : State) (g : AcqSt → AcqSt) : (s.onAcq g).cells = s.cells := rfl
@[simp] theorem State.onAcq_aie (s : State) (g : AcqSt → AcqSt) : (s.onAcq g).aie = s.aie := rfl
@[simp] theorem State.onAcq_pwm (s : State) (g : AcqSt → AcqSt) : (s.onAcq g).pwm = s.pwm := rfl
@[simp] theorem State.onAcq_loop (s : State) (g : AcqSt → AcqSt) : (s.onAcq g).loop = s.loop := rfl
@[simp] theorem State.onAcq_tiles (s : State) (g : AcqSt → AcqSt) : (s.onAcq g).tiles = s.tiles := rfl
@[simp] theorem State.onAcq_meas (s : State) (g : AcqSt → AcqSt) : (s.onAcq g).meas = s.meas := rfl
@[simp] theorem State.onAcq_time (s : State) (g : AcqSt → AcqSt) : (s.onAcq g).time = s.time := rfl
@[simp] theorem State.onAcq_acq (s : State) (g : AcqSt → AcqSt) : (s.onAcq g).acq = g s.acq := rfl
@[simp] theorem State.onAcq_prot (s : State) (g : AcqSt → AcqSt) : (s.onAcq g).prot = s.prot := rfl
@[simp] theorem State.onAcq_net (s : State) (g : AcqSt → AcqSt) : (s.onAcq g).net = s.net := rfl
@[simp] theorem State.onAcq_safe (s : State) (g : AcqSt → AcqSt) : (s.onAcq g).safe = s.safe := rfl
@[simp] theorem State.onAcq_red (s : State) (g : AcqSt → AcqSt) : (s.onAcq g).red = s.red := rfl
@[simp] theorem State.onAcq_galley (s : State) (g : AcqSt → AcqSt) : (s.onAcq g).galley = s.galley := rfl
@[simp] theorem State.onAcq_spare (s : State) (g : AcqSt → AcqSt) : (s.onAcq g).spare = s.spare := rfl

/-! ### onProt -/

@[simp] theorem State.onProt_pending (s : State) (g : ProtSt → ProtSt) : (s.onProt g).pending = s.pending := rfl
@[simp] theorem State.onProt_freeCtr (s : State) (g : ProtSt → ProtSt) : (s.onProt g).freeCtr = s.freeCtr := rfl
@[simp] theorem State.onProt_host (s : State) (g : ProtSt → ProtSt) : (s.onProt g).host = s.host := rfl
@[simp] theorem State.onProt_dev (s : State) (g : ProtSt → ProtSt) : (s.onProt g).dev = s.dev := rfl
@[simp] theorem State.onProt_power (s : State) (g : ProtSt → ProtSt) : (s.onProt g).power = s.power := rfl
@[simp] theorem State.onProt_mb (s : State) (g : ProtSt → ProtSt) : (s.onProt g).mb = s.mb := rfl
@[simp] theorem State.onProt_tick (s : State) (g : ProtSt → ProtSt) : (s.onProt g).tick = s.tick := rfl
@[simp] theorem State.onProt_fault (s : State) (g : ProtSt → ProtSt) : (s.onProt g).fault = s.fault := rfl
@[simp] theorem State.onProt_link (s : State) (g : ProtSt → ProtSt) : (s.onProt g).link = s.link := rfl
@[simp] theorem State.onProt_cells (s : State) (g : ProtSt → ProtSt) : (s.onProt g).cells = s.cells := rfl
@[simp] theorem State.onProt_aie (s : State) (g : ProtSt → ProtSt) : (s.onProt g).aie = s.aie := rfl
@[simp] theorem State.onProt_pwm (s : State) (g : ProtSt → ProtSt) : (s.onProt g).pwm = s.pwm := rfl
@[simp] theorem State.onProt_loop (s : State) (g : ProtSt → ProtSt) : (s.onProt g).loop = s.loop := rfl
@[simp] theorem State.onProt_tiles (s : State) (g : ProtSt → ProtSt) : (s.onProt g).tiles = s.tiles := rfl
@[simp] theorem State.onProt_meas (s : State) (g : ProtSt → ProtSt) : (s.onProt g).meas = s.meas := rfl
@[simp] theorem State.onProt_time (s : State) (g : ProtSt → ProtSt) : (s.onProt g).time = s.time := rfl
@[simp] theorem State.onProt_acq (s : State) (g : ProtSt → ProtSt) : (s.onProt g).acq = s.acq := rfl
@[simp] theorem State.onProt_prot (s : State) (g : ProtSt → ProtSt) : (s.onProt g).prot = g s.prot := rfl
@[simp] theorem State.onProt_net (s : State) (g : ProtSt → ProtSt) : (s.onProt g).net = s.net := rfl
@[simp] theorem State.onProt_safe (s : State) (g : ProtSt → ProtSt) : (s.onProt g).safe = s.safe := rfl
@[simp] theorem State.onProt_red (s : State) (g : ProtSt → ProtSt) : (s.onProt g).red = s.red := rfl
@[simp] theorem State.onProt_galley (s : State) (g : ProtSt → ProtSt) : (s.onProt g).galley = s.galley := rfl
@[simp] theorem State.onProt_spare (s : State) (g : ProtSt → ProtSt) : (s.onProt g).spare = s.spare := rfl

/-! ### onNet -/

@[simp] theorem State.onNet_pending (s : State) (g : NetSt → NetSt) : (s.onNet g).pending = s.pending := rfl
@[simp] theorem State.onNet_freeCtr (s : State) (g : NetSt → NetSt) : (s.onNet g).freeCtr = s.freeCtr := rfl
@[simp] theorem State.onNet_host (s : State) (g : NetSt → NetSt) : (s.onNet g).host = s.host := rfl
@[simp] theorem State.onNet_dev (s : State) (g : NetSt → NetSt) : (s.onNet g).dev = s.dev := rfl
@[simp] theorem State.onNet_power (s : State) (g : NetSt → NetSt) : (s.onNet g).power = s.power := rfl
@[simp] theorem State.onNet_mb (s : State) (g : NetSt → NetSt) : (s.onNet g).mb = s.mb := rfl
@[simp] theorem State.onNet_tick (s : State) (g : NetSt → NetSt) : (s.onNet g).tick = s.tick := rfl
@[simp] theorem State.onNet_fault (s : State) (g : NetSt → NetSt) : (s.onNet g).fault = s.fault := rfl
@[simp] theorem State.onNet_link (s : State) (g : NetSt → NetSt) : (s.onNet g).link = s.link := rfl
@[simp] theorem State.onNet_cells (s : State) (g : NetSt → NetSt) : (s.onNet g).cells = s.cells := rfl
@[simp] theorem State.onNet_aie (s : State) (g : NetSt → NetSt) : (s.onNet g).aie = s.aie := rfl
@[simp] theorem State.onNet_pwm (s : State) (g : NetSt → NetSt) : (s.onNet g).pwm = s.pwm := rfl
@[simp] theorem State.onNet_loop (s : State) (g : NetSt → NetSt) : (s.onNet g).loop = s.loop := rfl
@[simp] theorem State.onNet_tiles (s : State) (g : NetSt → NetSt) : (s.onNet g).tiles = s.tiles := rfl
@[simp] theorem State.onNet_meas (s : State) (g : NetSt → NetSt) : (s.onNet g).meas = s.meas := rfl
@[simp] theorem State.onNet_time (s : State) (g : NetSt → NetSt) : (s.onNet g).time = s.time := rfl
@[simp] theorem State.onNet_acq (s : State) (g : NetSt → NetSt) : (s.onNet g).acq = s.acq := rfl
@[simp] theorem State.onNet_prot (s : State) (g : NetSt → NetSt) : (s.onNet g).prot = s.prot := rfl
@[simp] theorem State.onNet_net (s : State) (g : NetSt → NetSt) : (s.onNet g).net = g s.net := rfl
@[simp] theorem State.onNet_safe (s : State) (g : NetSt → NetSt) : (s.onNet g).safe = s.safe := rfl
@[simp] theorem State.onNet_red (s : State) (g : NetSt → NetSt) : (s.onNet g).red = s.red := rfl
@[simp] theorem State.onNet_galley (s : State) (g : NetSt → NetSt) : (s.onNet g).galley = s.galley := rfl
@[simp] theorem State.onNet_spare (s : State) (g : NetSt → NetSt) : (s.onNet g).spare = s.spare := rfl

/-! ### onSafe -/

@[simp] theorem State.onSafe_pending (s : State) (g : SafeSt → SafeSt) : (s.onSafe g).pending = s.pending := rfl
@[simp] theorem State.onSafe_freeCtr (s : State) (g : SafeSt → SafeSt) : (s.onSafe g).freeCtr = s.freeCtr := rfl
@[simp] theorem State.onSafe_host (s : State) (g : SafeSt → SafeSt) : (s.onSafe g).host = s.host := rfl
@[simp] theorem State.onSafe_dev (s : State) (g : SafeSt → SafeSt) : (s.onSafe g).dev = s.dev := rfl
@[simp] theorem State.onSafe_power (s : State) (g : SafeSt → SafeSt) : (s.onSafe g).power = s.power := rfl
@[simp] theorem State.onSafe_mb (s : State) (g : SafeSt → SafeSt) : (s.onSafe g).mb = s.mb := rfl
@[simp] theorem State.onSafe_tick (s : State) (g : SafeSt → SafeSt) : (s.onSafe g).tick = s.tick := rfl
@[simp] theorem State.onSafe_fault (s : State) (g : SafeSt → SafeSt) : (s.onSafe g).fault = s.fault := rfl
@[simp] theorem State.onSafe_link (s : State) (g : SafeSt → SafeSt) : (s.onSafe g).link = s.link := rfl
@[simp] theorem State.onSafe_cells (s : State) (g : SafeSt → SafeSt) : (s.onSafe g).cells = s.cells := rfl
@[simp] theorem State.onSafe_aie (s : State) (g : SafeSt → SafeSt) : (s.onSafe g).aie = s.aie := rfl
@[simp] theorem State.onSafe_pwm (s : State) (g : SafeSt → SafeSt) : (s.onSafe g).pwm = s.pwm := rfl
@[simp] theorem State.onSafe_loop (s : State) (g : SafeSt → SafeSt) : (s.onSafe g).loop = s.loop := rfl
@[simp] theorem State.onSafe_tiles (s : State) (g : SafeSt → SafeSt) : (s.onSafe g).tiles = s.tiles := rfl
@[simp] theorem State.onSafe_meas (s : State) (g : SafeSt → SafeSt) : (s.onSafe g).meas = s.meas := rfl
@[simp] theorem State.onSafe_time (s : State) (g : SafeSt → SafeSt) : (s.onSafe g).time = s.time := rfl
@[simp] theorem State.onSafe_acq (s : State) (g : SafeSt → SafeSt) : (s.onSafe g).acq = s.acq := rfl
@[simp] theorem State.onSafe_prot (s : State) (g : SafeSt → SafeSt) : (s.onSafe g).prot = s.prot := rfl
@[simp] theorem State.onSafe_net (s : State) (g : SafeSt → SafeSt) : (s.onSafe g).net = s.net := rfl
@[simp] theorem State.onSafe_safe (s : State) (g : SafeSt → SafeSt) : (s.onSafe g).safe = g s.safe := rfl
@[simp] theorem State.onSafe_red (s : State) (g : SafeSt → SafeSt) : (s.onSafe g).red = s.red := rfl
@[simp] theorem State.onSafe_galley (s : State) (g : SafeSt → SafeSt) : (s.onSafe g).galley = s.galley := rfl
@[simp] theorem State.onSafe_spare (s : State) (g : SafeSt → SafeSt) : (s.onSafe g).spare = s.spare := rfl

/-! ### onRed -/

@[simp] theorem State.onRed_pending (s : State) (g : RedSt → RedSt) : (s.onRed g).pending = s.pending := rfl
@[simp] theorem State.onRed_freeCtr (s : State) (g : RedSt → RedSt) : (s.onRed g).freeCtr = s.freeCtr := rfl
@[simp] theorem State.onRed_host (s : State) (g : RedSt → RedSt) : (s.onRed g).host = s.host := rfl
@[simp] theorem State.onRed_dev (s : State) (g : RedSt → RedSt) : (s.onRed g).dev = s.dev := rfl
@[simp] theorem State.onRed_power (s : State) (g : RedSt → RedSt) : (s.onRed g).power = s.power := rfl
@[simp] theorem State.onRed_mb (s : State) (g : RedSt → RedSt) : (s.onRed g).mb = s.mb := rfl
@[simp] theorem State.onRed_tick (s : State) (g : RedSt → RedSt) : (s.onRed g).tick = s.tick := rfl
@[simp] theorem State.onRed_fault (s : State) (g : RedSt → RedSt) : (s.onRed g).fault = s.fault := rfl
@[simp] theorem State.onRed_link (s : State) (g : RedSt → RedSt) : (s.onRed g).link = s.link := rfl
@[simp] theorem State.onRed_cells (s : State) (g : RedSt → RedSt) : (s.onRed g).cells = s.cells := rfl
@[simp] theorem State.onRed_aie (s : State) (g : RedSt → RedSt) : (s.onRed g).aie = s.aie := rfl
@[simp] theorem State.onRed_pwm (s : State) (g : RedSt → RedSt) : (s.onRed g).pwm = s.pwm := rfl
@[simp] theorem State.onRed_loop (s : State) (g : RedSt → RedSt) : (s.onRed g).loop = s.loop := rfl
@[simp] theorem State.onRed_tiles (s : State) (g : RedSt → RedSt) : (s.onRed g).tiles = s.tiles := rfl
@[simp] theorem State.onRed_meas (s : State) (g : RedSt → RedSt) : (s.onRed g).meas = s.meas := rfl
@[simp] theorem State.onRed_time (s : State) (g : RedSt → RedSt) : (s.onRed g).time = s.time := rfl
@[simp] theorem State.onRed_acq (s : State) (g : RedSt → RedSt) : (s.onRed g).acq = s.acq := rfl
@[simp] theorem State.onRed_prot (s : State) (g : RedSt → RedSt) : (s.onRed g).prot = s.prot := rfl
@[simp] theorem State.onRed_net (s : State) (g : RedSt → RedSt) : (s.onRed g).net = s.net := rfl
@[simp] theorem State.onRed_safe (s : State) (g : RedSt → RedSt) : (s.onRed g).safe = s.safe := rfl
@[simp] theorem State.onRed_red (s : State) (g : RedSt → RedSt) : (s.onRed g).red = g s.red := rfl
@[simp] theorem State.onRed_galley (s : State) (g : RedSt → RedSt) : (s.onRed g).galley = s.galley := rfl
@[simp] theorem State.onRed_spare (s : State) (g : RedSt → RedSt) : (s.onRed g).spare = s.spare := rfl

/-! ### onGalley -/

@[simp] theorem State.onGalley_pending (s : State) (g : GalleyRec → GalleyRec) : (s.onGalley g).pending = s.pending := rfl
@[simp] theorem State.onGalley_freeCtr (s : State) (g : GalleyRec → GalleyRec) : (s.onGalley g).freeCtr = s.freeCtr := rfl
@[simp] theorem State.onGalley_host (s : State) (g : GalleyRec → GalleyRec) : (s.onGalley g).host = s.host := rfl
@[simp] theorem State.onGalley_dev (s : State) (g : GalleyRec → GalleyRec) : (s.onGalley g).dev = s.dev := rfl
@[simp] theorem State.onGalley_power (s : State) (g : GalleyRec → GalleyRec) : (s.onGalley g).power = s.power := rfl
@[simp] theorem State.onGalley_mb (s : State) (g : GalleyRec → GalleyRec) : (s.onGalley g).mb = s.mb := rfl
@[simp] theorem State.onGalley_tick (s : State) (g : GalleyRec → GalleyRec) : (s.onGalley g).tick = s.tick := rfl
@[simp] theorem State.onGalley_fault (s : State) (g : GalleyRec → GalleyRec) : (s.onGalley g).fault = s.fault := rfl
@[simp] theorem State.onGalley_link (s : State) (g : GalleyRec → GalleyRec) : (s.onGalley g).link = s.link := rfl
@[simp] theorem State.onGalley_cells (s : State) (g : GalleyRec → GalleyRec) : (s.onGalley g).cells = s.cells := rfl
@[simp] theorem State.onGalley_aie (s : State) (g : GalleyRec → GalleyRec) : (s.onGalley g).aie = s.aie := rfl
@[simp] theorem State.onGalley_pwm (s : State) (g : GalleyRec → GalleyRec) : (s.onGalley g).pwm = s.pwm := rfl
@[simp] theorem State.onGalley_loop (s : State) (g : GalleyRec → GalleyRec) : (s.onGalley g).loop = s.loop := rfl
@[simp] theorem State.onGalley_tiles (s : State) (g : GalleyRec → GalleyRec) : (s.onGalley g).tiles = s.tiles := rfl
@[simp] theorem State.onGalley_meas (s : State) (g : GalleyRec → GalleyRec) : (s.onGalley g).meas = s.meas := rfl
@[simp] theorem State.onGalley_time (s : State) (g : GalleyRec → GalleyRec) : (s.onGalley g).time = s.time := rfl
@[simp] theorem State.onGalley_acq (s : State) (g : GalleyRec → GalleyRec) : (s.onGalley g).acq = s.acq := rfl
@[simp] theorem State.onGalley_prot (s : State) (g : GalleyRec → GalleyRec) : (s.onGalley g).prot = s.prot := rfl
@[simp] theorem State.onGalley_net (s : State) (g : GalleyRec → GalleyRec) : (s.onGalley g).net = s.net := rfl
@[simp] theorem State.onGalley_safe (s : State) (g : GalleyRec → GalleyRec) : (s.onGalley g).safe = s.safe := rfl
@[simp] theorem State.onGalley_red (s : State) (g : GalleyRec → GalleyRec) : (s.onGalley g).red = s.red := rfl
@[simp] theorem State.onGalley_galley (s : State) (g : GalleyRec → GalleyRec) : (s.onGalley g).galley = g s.galley := rfl
@[simp] theorem State.onGalley_spare (s : State) (g : GalleyRec → GalleyRec) : (s.onGalley g).spare = s.spare := rfl

/-! ### onSpare -/

@[simp] theorem State.onSpare_pending (s : State) (g : SpareSt → SpareSt) : (s.onSpare g).pending = s.pending := rfl
@[simp] theorem State.onSpare_freeCtr (s : State) (g : SpareSt → SpareSt) : (s.onSpare g).freeCtr = s.freeCtr := rfl
@[simp] theorem State.onSpare_host (s : State) (g : SpareSt → SpareSt) : (s.onSpare g).host = s.host := rfl
@[simp] theorem State.onSpare_dev (s : State) (g : SpareSt → SpareSt) : (s.onSpare g).dev = s.dev := rfl
@[simp] theorem State.onSpare_power (s : State) (g : SpareSt → SpareSt) : (s.onSpare g).power = s.power := rfl
@[simp] theorem State.onSpare_mb (s : State) (g : SpareSt → SpareSt) : (s.onSpare g).mb = s.mb := rfl
@[simp] theorem State.onSpare_tick (s : State) (g : SpareSt → SpareSt) : (s.onSpare g).tick = s.tick := rfl
@[simp] theorem State.onSpare_fault (s : State) (g : SpareSt → SpareSt) : (s.onSpare g).fault = s.fault := rfl
@[simp] theorem State.onSpare_link (s : State) (g : SpareSt → SpareSt) : (s.onSpare g).link = s.link := rfl
@[simp] theorem State.onSpare_cells (s : State) (g : SpareSt → SpareSt) : (s.onSpare g).cells = s.cells := rfl
@[simp] theorem State.onSpare_aie (s : State) (g : SpareSt → SpareSt) : (s.onSpare g).aie = s.aie := rfl
@[simp] theorem State.onSpare_pwm (s : State) (g : SpareSt → SpareSt) : (s.onSpare g).pwm = s.pwm := rfl
@[simp] theorem State.onSpare_loop (s : State) (g : SpareSt → SpareSt) : (s.onSpare g).loop = s.loop := rfl
@[simp] theorem State.onSpare_tiles (s : State) (g : SpareSt → SpareSt) : (s.onSpare g).tiles = s.tiles := rfl
@[simp] theorem State.onSpare_meas (s : State) (g : SpareSt → SpareSt) : (s.onSpare g).meas = s.meas := rfl
@[simp] theorem State.onSpare_time (s : State) (g : SpareSt → SpareSt) : (s.onSpare g).time = s.time := rfl
@[simp] theorem State.onSpare_acq (s : State) (g : SpareSt → SpareSt) : (s.onSpare g).acq = s.acq := rfl
@[simp] theorem State.onSpare_prot (s : State) (g : SpareSt → SpareSt) : (s.onSpare g).prot = s.prot := rfl
@[simp] theorem State.onSpare_net (s : State) (g : SpareSt → SpareSt) : (s.onSpare g).net = s.net := rfl
@[simp] theorem State.onSpare_safe (s : State) (g : SpareSt → SpareSt) : (s.onSpare g).safe = s.safe := rfl
@[simp] theorem State.onSpare_red (s : State) (g : SpareSt → SpareSt) : (s.onSpare g).red = s.red := rfl
@[simp] theorem State.onSpare_galley (s : State) (g : SpareSt → SpareSt) : (s.onSpare g).galley = s.galley := rfl
@[simp] theorem State.onSpare_spare (s : State) (g : SpareSt → SpareSt) : (s.onSpare g).spare = g s.spare := rfl

/-! ### Drawing a free value; the queue -/

@[simp] theorem State.draw_pending (s : State) : s.draw.2.pending = s.pending := rfl
@[simp] theorem State.draw_freeCtr (s : State) : s.draw.2.freeCtr = s.freeCtr + 1 := rfl
@[simp] theorem State.draw_host (s : State) : s.draw.2.host = s.host := rfl
@[simp] theorem State.draw_dev (s : State) : s.draw.2.dev = s.dev := rfl
@[simp] theorem State.draw_power (s : State) : s.draw.2.power = s.power := rfl
@[simp] theorem State.draw_mb (s : State) : s.draw.2.mb = s.mb := rfl
@[simp] theorem State.draw_tick (s : State) : s.draw.2.tick = s.tick := rfl
@[simp] theorem State.draw_fault (s : State) : s.draw.2.fault = s.fault := rfl
@[simp] theorem State.draw_link (s : State) : s.draw.2.link = s.link := rfl
@[simp] theorem State.draw_cells (s : State) : s.draw.2.cells = s.cells := rfl
@[simp] theorem State.draw_aie (s : State) : s.draw.2.aie = s.aie := rfl
@[simp] theorem State.draw_pwm (s : State) : s.draw.2.pwm = s.pwm := rfl
@[simp] theorem State.draw_loop (s : State) : s.draw.2.loop = s.loop := rfl
@[simp] theorem State.draw_tiles (s : State) : s.draw.2.tiles = s.tiles := rfl
@[simp] theorem State.draw_meas (s : State) : s.draw.2.meas = s.meas := rfl
@[simp] theorem State.draw_time (s : State) : s.draw.2.time = s.time := rfl
@[simp] theorem State.draw_acq (s : State) : s.draw.2.acq = s.acq := rfl
@[simp] theorem State.draw_prot (s : State) : s.draw.2.prot = s.prot := rfl
@[simp] theorem State.draw_net (s : State) : s.draw.2.net = s.net := rfl
@[simp] theorem State.draw_safe (s : State) : s.draw.2.safe = s.safe := rfl
@[simp] theorem State.draw_red (s : State) : s.draw.2.red = s.red := rfl
@[simp] theorem State.draw_galley (s : State) : s.draw.2.galley = s.galley := rfl
@[simp] theorem State.draw_spare (s : State) : s.draw.2.spare = s.spare := rfl

@[simp] theorem State.withQueue_pending (s : State) (q : List Instr) : (s.withQueue q).pending = q := rfl
@[simp] theorem State.withQueue_freeCtr (s : State) (q : List Instr) : (s.withQueue q).freeCtr = s.freeCtr := rfl
@[simp] theorem State.withQueue_host (s : State) (q : List Instr) : (s.withQueue q).host = s.host := rfl
@[simp] theorem State.withQueue_dev (s : State) (q : List Instr) : (s.withQueue q).dev = s.dev := rfl
@[simp] theorem State.withQueue_power (s : State) (q : List Instr) : (s.withQueue q).power = s.power := rfl
@[simp] theorem State.withQueue_mb (s : State) (q : List Instr) : (s.withQueue q).mb = s.mb := rfl
@[simp] theorem State.withQueue_tick (s : State) (q : List Instr) : (s.withQueue q).tick = s.tick := rfl
@[simp] theorem State.withQueue_fault (s : State) (q : List Instr) : (s.withQueue q).fault = s.fault := rfl
@[simp] theorem State.withQueue_link (s : State) (q : List Instr) : (s.withQueue q).link = s.link := rfl
@[simp] theorem State.withQueue_cells (s : State) (q : List Instr) : (s.withQueue q).cells = s.cells := rfl
@[simp] theorem State.withQueue_aie (s : State) (q : List Instr) : (s.withQueue q).aie = s.aie := rfl
@[simp] theorem State.withQueue_pwm (s : State) (q : List Instr) : (s.withQueue q).pwm = s.pwm := rfl
@[simp] theorem State.withQueue_loop (s : State) (q : List Instr) : (s.withQueue q).loop = s.loop := rfl
@[simp] theorem State.withQueue_tiles (s : State) (q : List Instr) : (s.withQueue q).tiles = s.tiles := rfl
@[simp] theorem State.withQueue_meas (s : State) (q : List Instr) : (s.withQueue q).meas = s.meas := rfl
@[simp] theorem State.withQueue_time (s : State) (q : List Instr) : (s.withQueue q).time = s.time := rfl
@[simp] theorem State.withQueue_acq (s : State) (q : List Instr) : (s.withQueue q).acq = s.acq := rfl
@[simp] theorem State.withQueue_prot (s : State) (q : List Instr) : (s.withQueue q).prot = s.prot := rfl
@[simp] theorem State.withQueue_net (s : State) (q : List Instr) : (s.withQueue q).net = s.net := rfl
@[simp] theorem State.withQueue_safe (s : State) (q : List Instr) : (s.withQueue q).safe = s.safe := rfl
@[simp] theorem State.withQueue_red (s : State) (q : List Instr) : (s.withQueue q).red = s.red := rfl
@[simp] theorem State.withQueue_galley (s : State) (q : List Instr) : (s.withQueue q).galley = s.galley := rfl
@[simp] theorem State.withQueue_spare (s : State) (q : List Instr) : (s.withQueue q).spare = s.spare := rfl

theorem when_pending (b : Bool) (g : State → State) (s : State) (h : (g s).pending = s.pending) : (when b g s).pending = s.pending := by
  cases b <;> simp [when, h]
theorem when_freeCtr (b : Bool) (g : State → State) (s : State) (h : (g s).freeCtr = s.freeCtr) : (when b g s).freeCtr = s.freeCtr := by
  cases b <;> simp [when, h]
theorem when_host (b : Bool) (g : State → State) (s : State) (h : (g s).host = s.host) : (when b g s).host = s.host := by
  cases b <;> simp [when, h]
theorem when_dev (b : Bool) (g : State → State) (s : State) (h : (g s).dev = s.dev) : (when b g s).dev = s.dev := by
  cases b <;> simp [when, h]
theorem when_power (b : Bool) (g : State → State) (s : State) (h : (g s).power = s.power) : (when b g s).power = s.power := by
  cases b <;> simp [when, h]
theorem when_mb (b : Bool) (g : State → State) (s : State) (h : (g s).mb = s.mb) : (when b g s).mb = s.mb := by
  cases b <;> simp [when, h]
theorem when_tick (b : Bool) (g : State → State) (s : State) (h : (g s).tick = s.tick) : (when b g s).tick = s.tick := by
  cases b <;> simp [when, h]
theorem when_fault (b : Bool) (g : State → State) (s : State) (h : (g s).fault = s.fault) : (when b g s).fault = s.fault := by
  cases b <;> simp [when, h]
theorem when_link (b : Bool) (g : State → State) (s : State) (h : (g s).link = s.link) : (when b g s).link = s.link := by
  cases b <;> simp [when, h]
theorem when_cells (b : Bool) (g : State → State) (s : State) (h : (g s).cells = s.cells) : (when b g s).cells = s.cells := by
  cases b <;> simp [when, h]
theorem when_aie (b : Bool) (g : State → State) (s : State) (h : (g s).aie = s.aie) : (when b g s).aie = s.aie := by
  cases b <;> simp [when, h]
theorem when_pwm (b : Bool) (g : State → State) (s : State) (h : (g s).pwm = s.pwm) : (when b g s).pwm = s.pwm := by
  cases b <;> simp [when, h]
theorem when_loop (b : Bool) (g : State → State) (s : State) (h : (g s).loop = s.loop) : (when b g s).loop = s.loop := by
  cases b <;> simp [when, h]
theorem when_tiles (b : Bool) (g : State → State) (s : State) (h : (g s).tiles = s.tiles) : (when b g s).tiles = s.tiles := by
  cases b <;> simp [when, h]
theorem when_meas (b : Bool) (g : State → State) (s : State) (h : (g s).meas = s.meas) : (when b g s).meas = s.meas := by
  cases b <;> simp [when, h]
theorem when_time (b : Bool) (g : State → State) (s : State) (h : (g s).time = s.time) : (when b g s).time = s.time := by
  cases b <;> simp [when, h]
theorem when_acq (b : Bool) (g : State → State) (s : State) (h : (g s).acq = s.acq) : (when b g s).acq = s.acq := by
  cases b <;> simp [when, h]
theorem when_prot (b : Bool) (g : State → State) (s : State) (h : (g s).prot = s.prot) : (when b g s).prot = s.prot := by
  cases b <;> simp [when, h]
theorem when_net (b : Bool) (g : State → State) (s : State) (h : (g s).net = s.net) : (when b g s).net = s.net := by
  cases b <;> simp [when, h]
theorem when_safe (b : Bool) (g : State → State) (s : State) (h : (g s).safe = s.safe) : (when b g s).safe = s.safe := by
  cases b <;> simp [when, h]
theorem when_red (b : Bool) (g : State → State) (s : State) (h : (g s).red = s.red) : (when b g s).red = s.red := by
  cases b <;> simp [when, h]
theorem when_galley (b : Bool) (g : State → State) (s : State) (h : (g s).galley = s.galley) : (when b g s).galley = s.galley := by
  cases b <;> simp [when, h]
theorem when_spare (b : Bool) (g : State → State) (s : State) (h : (g s).spare = s.spare) : (when b g s).spare = s.spare := by
  cases b <;> simp [when, h]

end Sys2Proof.Machine
end

