-- ==== Sys2Proof/Laws/Ops.lean ====
section
/-! SUPPORT. What the shared operations leave unchanged, one lemma per operation and part, and what the answer to a
command does. -/

namespace Sys2Proof.Machine

open Sys2Proof

/-! ### post -/

@[simp] theorem post_pending (m : FaultMsg) (s : State) : (post m s).pending = s.pending := by
  unfold post; split
  · simp
  · split
    · rfl
    · split <;> simp
@[simp] theorem post_freeCtr (m : FaultMsg) (s : State) : (post m s).freeCtr = s.freeCtr := by
  unfold post; split
  · simp
  · split
    · rfl
    · split <;> simp
@[simp] theorem post_host (m : FaultMsg) (s : State) : (post m s).host = s.host := by
  unfold post; split
  · simp
  · split
    · rfl
    · split <;> simp
@[simp] theorem post_dev (m : FaultMsg) (s : State) : (post m s).dev = s.dev := by
  unfold post; split
  · simp
  · split
    · rfl
    · split <;> simp
@[simp] theorem post_power (m : FaultMsg) (s : State) : (post m s).power = s.power := by
  unfold post; split
  · simp
  · split
    · rfl
    · split <;> simp
@[simp] theorem post_mb (m : FaultMsg) (s : State) : (post m s).mb = s.mb := by
  unfold post; split
  · simp
  · split
    · rfl
    · split <;> simp
@[simp] theorem post_tick (m : FaultMsg) (s : State) : (post m s).tick = s.tick := by
  unfold post; split
  · simp
  · split
    · rfl
    · split <;> simp
@[simp] theorem post_link (m : FaultMsg) (s : State) : (post m s).link = s.link := by
  unfold post; split
  · simp
  · split
    · rfl
    · split <;> simp
@[simp] theorem post_cells (m : FaultMsg) (s : State) : (post m s).cells = s.cells := by
  unfold post; split
  · simp
  · split
    · rfl
    · split <;> simp
@[simp] theorem post_aie (m : FaultMsg) (s : State) : (post m s).aie = s.aie := by
  unfold post; split
  · simp
  · split
    · rfl
    · split <;> simp
@[simp] theorem post_pwm (m : FaultMsg) (s : State) : (post m s).pwm = s.pwm := by
  unfold post; split
  · simp
  · split
    · rfl
    · split <;> simp
@[simp] theorem post_loop (m : FaultMsg) (s : State) : (post m s).loop = s.loop := by
  unfold post; split
  · simp
  · split
    · rfl
    · split <;> simp
@[simp] theorem post_tiles (m : FaultMsg) (s : State) : (post m s).tiles = s.tiles := by
  unfold post; split
  · simp
  · split
    · rfl
    · split <;> simp
@[simp] theorem post_meas (m : FaultMsg) (s : State) : (post m s).meas = s.meas := by
  unfold post; split
  · simp
  · split
    · rfl
    · split <;> simp
@[simp] theorem post_time (m : FaultMsg) (s : State) : (post m s).time = s.time := by
  unfold post; split
  · simp
  · split
    · rfl
    · split <;> simp
@[simp] theorem post_acq (m : FaultMsg) (s : State) : (post m s).acq = s.acq := by
  unfold post; split
  · simp
  · split
    · rfl
    · split <;> simp
@[simp] theorem post_prot (m : FaultMsg) (s : State) : (post m s).prot = s.prot := by
  unfold post; split
  · simp
  · split
    · rfl
    · split <;> simp
@[simp] theorem post_net (m : FaultMsg) (s : State) : (post m s).net = s.net := by
  unfold post; split
  · simp
  · split
    · rfl
    · split <;> simp
@[simp] theorem post_safe (m : FaultMsg) (s : State) : (post m s).safe = s.safe := by
  unfold post; split
  · simp
  · split
    · rfl
    · split <;> simp
@[simp] theorem post_red (m : FaultMsg) (s : State) : (post m s).red = s.red := by
  unfold post; split
  · simp
  · split
    · rfl
    · split <;> simp
@[simp] theorem post_galley (m : FaultMsg) (s : State) : (post m s).galley = s.galley := by
  unfold post; split
  · simp
  · split
    · rfl
    · split <;> simp
@[simp] theorem post_spare (m : FaultMsg) (s : State) : (post m s).spare = s.spare := by
  unfold post; split
  · simp
  · split
    · rfl
    · split <;> simp

/-! ### raise -/

@[simp] theorem raise_pending (die block kind : Nat) (cls : FClass) (addr : Nat) (d : List Nat) (s : State) : (raise die block kind cls addr d s).pending = s.pending := by
  simp [raise]
@[simp] theorem raise_freeCtr (die block kind : Nat) (cls : FClass) (addr : Nat) (d : List Nat) (s : State) : (raise die block kind cls addr d s).freeCtr = s.freeCtr := by
  simp [raise]
@[simp] theorem raise_host (die block kind : Nat) (cls : FClass) (addr : Nat) (d : List Nat) (s : State) : (raise die block kind cls addr d s).host = s.host := by
  simp [raise]
@[simp] theorem raise_dev (die block kind : Nat) (cls : FClass) (addr : Nat) (d : List Nat) (s : State) : (raise die block kind cls addr d s).dev = s.dev := by
  simp [raise]
@[simp] theorem raise_power (die block kind : Nat) (cls : FClass) (addr : Nat) (d : List Nat) (s : State) : (raise die block kind cls addr d s).power = s.power := by
  simp [raise]
@[simp] theorem raise_mb (die block kind : Nat) (cls : FClass) (addr : Nat) (d : List Nat) (s : State) : (raise die block kind cls addr d s).mb = s.mb := by
  simp [raise]
@[simp] theorem raise_tick (die block kind : Nat) (cls : FClass) (addr : Nat) (d : List Nat) (s : State) : (raise die block kind cls addr d s).tick = s.tick := by
  simp [raise]
@[simp] theorem raise_link (die block kind : Nat) (cls : FClass) (addr : Nat) (d : List Nat) (s : State) : (raise die block kind cls addr d s).link = s.link := by
  simp [raise]
@[simp] theorem raise_cells (die block kind : Nat) (cls : FClass) (addr : Nat) (d : List Nat) (s : State) : (raise die block kind cls addr d s).cells = s.cells := by
  simp [raise]
@[simp] theorem raise_aie (die block kind : Nat) (cls : FClass) (addr : Nat) (d : List Nat) (s : State) : (raise die block kind cls addr d s).aie = s.aie := by
  simp [raise]
@[simp] theorem raise_pwm (die block kind : Nat) (cls : FClass) (addr : Nat) (d : List Nat) (s : State) : (raise die block kind cls addr d s).pwm = s.pwm := by
  simp [raise]
@[simp] theorem raise_loop (die block kind : Nat) (cls : FClass) (addr : Nat) (d : List Nat) (s : State) : (raise die block kind cls addr d s).loop = s.loop := by
  simp [raise]
@[simp] theorem raise_tiles (die block kind : Nat) (cls : FClass) (addr : Nat) (d : List Nat) (s : State) : (raise die block kind cls addr d s).tiles = s.tiles := by
  simp [raise]
@[simp] theorem raise_meas (die block kind : Nat) (cls : FClass) (addr : Nat) (d : List Nat) (s : State) : (raise die block kind cls addr d s).meas = s.meas := by
  simp [raise]
@[simp] theorem raise_time (die block kind : Nat) (cls : FClass) (addr : Nat) (d : List Nat) (s : State) : (raise die block kind cls addr d s).time = s.time := by
  simp [raise]
@[simp] theorem raise_acq (die block kind : Nat) (cls : FClass) (addr : Nat) (d : List Nat) (s : State) : (raise die block kind cls addr d s).acq = s.acq := by
  simp [raise]
@[simp] theorem raise_prot (die block kind : Nat) (cls : FClass) (addr : Nat) (d : List Nat) (s : State) : (raise die block kind cls addr d s).prot = s.prot := by
  simp [raise]
@[simp] theorem raise_net (die block kind : Nat) (cls : FClass) (addr : Nat) (d : List Nat) (s : State) : (raise die block kind cls addr d s).net = s.net := by
  simp [raise]
@[simp] theorem raise_safe (die block kind : Nat) (cls : FClass) (addr : Nat) (d : List Nat) (s : State) : (raise die block kind cls addr d s).safe = s.safe := by
  simp [raise]
@[simp] theorem raise_red (die block kind : Nat) (cls : FClass) (addr : Nat) (d : List Nat) (s : State) : (raise die block kind cls addr d s).red = s.red := by
  simp [raise]
@[simp] theorem raise_galley (die block kind : Nat) (cls : FClass) (addr : Nat) (d : List Nat) (s : State) : (raise die block kind cls addr d s).galley = s.galley := by
  simp [raise]
@[simp] theorem raise_spare (die block kind : Nat) (cls : FClass) (addr : Nat) (d : List Nat) (s : State) : (raise die block kind cls addr d s).spare = s.spare := by
  simp [raise]

/-! ### giveWay -/

@[simp] theorem giveWay_pending (cause obj rank taker : Nat) (s : State) : (giveWay cause obj rank taker s).pending = s.pending := by
  rfl
@[simp] theorem giveWay_freeCtr (cause obj rank taker : Nat) (s : State) : (giveWay cause obj rank taker s).freeCtr = s.freeCtr := by
  rfl
@[simp] theorem giveWay_host (cause obj rank taker : Nat) (s : State) : (giveWay cause obj rank taker s).host = s.host := by
  rfl
@[simp] theorem giveWay_dev (cause obj rank taker : Nat) (s : State) : (giveWay cause obj rank taker s).dev = s.dev := by
  rfl
@[simp] theorem giveWay_power (cause obj rank taker : Nat) (s : State) : (giveWay cause obj rank taker s).power = s.power := by
  rfl
@[simp] theorem giveWay_mb (cause obj rank taker : Nat) (s : State) : (giveWay cause obj rank taker s).mb = s.mb := by
  rfl
@[simp] theorem giveWay_tick (cause obj rank taker : Nat) (s : State) : (giveWay cause obj rank taker s).tick = s.tick := by
  rfl
@[simp] theorem giveWay_link (cause obj rank taker : Nat) (s : State) : (giveWay cause obj rank taker s).link = s.link := by
  rfl
@[simp] theorem giveWay_cells (cause obj rank taker : Nat) (s : State) : (giveWay cause obj rank taker s).cells = s.cells := by
  rfl
@[simp] theorem giveWay_aie (cause obj rank taker : Nat) (s : State) : (giveWay cause obj rank taker s).aie = s.aie := by
  rfl
@[simp] theorem giveWay_pwm (cause obj rank taker : Nat) (s : State) : (giveWay cause obj rank taker s).pwm = s.pwm := by
  rfl
@[simp] theorem giveWay_loop (cause obj rank taker : Nat) (s : State) : (giveWay cause obj rank taker s).loop = s.loop := by
  rfl
@[simp] theorem giveWay_tiles (cause obj rank taker : Nat) (s : State) : (giveWay cause obj rank taker s).tiles = s.tiles := by
  rfl
@[simp] theorem giveWay_meas (cause obj rank taker : Nat) (s : State) : (giveWay cause obj rank taker s).meas = s.meas := by
  rfl
@[simp] theorem giveWay_time (cause obj rank taker : Nat) (s : State) : (giveWay cause obj rank taker s).time = s.time := by
  rfl
@[simp] theorem giveWay_acq (cause obj rank taker : Nat) (s : State) : (giveWay cause obj rank taker s).acq = s.acq := by
  rfl
@[simp] theorem giveWay_prot (cause obj rank taker : Nat) (s : State) : (giveWay cause obj rank taker s).prot = s.prot := by
  rfl
@[simp] theorem giveWay_net (cause obj rank taker : Nat) (s : State) : (giveWay cause obj rank taker s).net = s.net := by
  rfl
@[simp] theorem giveWay_safe (cause obj rank taker : Nat) (s : State) : (giveWay cause obj rank taker s).safe = s.safe := by
  rfl
@[simp] theorem giveWay_red (cause obj rank taker : Nat) (s : State) : (giveWay cause obj rank taker s).red = s.red := by
  rfl
@[simp] theorem giveWay_galley (cause obj rank taker : Nat) (s : State) : (giveWay cause obj rank taker s).galley = s.galley := by
  rfl
@[simp] theorem giveWay_spare (cause obj rank taker : Nat) (s : State) : (giveWay cause obj rank taker s).spare = s.spare := by
  rfl

/-! ### journal -/

@[simp] theorem journal_pending (kind die obj detail seq v : Nat) (s : State) : (journal kind die obj detail seq v s).pending = s.pending := by
  unfold journal; split <;> simp
@[simp] theorem journal_freeCtr (kind die obj detail seq v : Nat) (s : State) : (journal kind die obj detail seq v s).freeCtr = s.freeCtr := by
  unfold journal; split <;> simp
@[simp] theorem journal_host (kind die obj detail seq v : Nat) (s : State) : (journal kind die obj detail seq v s).host = s.host := by
  unfold journal; split <;> simp
@[simp] theorem journal_dev (kind die obj detail seq v : Nat) (s : State) : (journal kind die obj detail seq v s).dev = s.dev := by
  unfold journal; split <;> simp
@[simp] theorem journal_power (kind die obj detail seq v : Nat) (s : State) : (journal kind die obj detail seq v s).power = s.power := by
  unfold journal; split <;> simp
@[simp] theorem journal_mb (kind die obj detail seq v : Nat) (s : State) : (journal kind die obj detail seq v s).mb = s.mb := by
  unfold journal; split <;> simp
@[simp] theorem journal_tick (kind die obj detail seq v : Nat) (s : State) : (journal kind die obj detail seq v s).tick = s.tick := by
  unfold journal; split <;> simp
@[simp] theorem journal_fault (kind die obj detail seq v : Nat) (s : State) : (journal kind die obj detail seq v s).fault = s.fault := by
  unfold journal; split <;> simp
@[simp] theorem journal_link (kind die obj detail seq v : Nat) (s : State) : (journal kind die obj detail seq v s).link = s.link := by
  unfold journal; split <;> simp
@[simp] theorem journal_cells (kind die obj detail seq v : Nat) (s : State) : (journal kind die obj detail seq v s).cells = s.cells := by
  unfold journal; split <;> simp
@[simp] theorem journal_aie (kind die obj detail seq v : Nat) (s : State) : (journal kind die obj detail seq v s).aie = s.aie := by
  unfold journal; split <;> simp
@[simp] theorem journal_pwm (kind die obj detail seq v : Nat) (s : State) : (journal kind die obj detail seq v s).pwm = s.pwm := by
  unfold journal; split <;> simp
@[simp] theorem journal_loop (kind die obj detail seq v : Nat) (s : State) : (journal kind die obj detail seq v s).loop = s.loop := by
  unfold journal; split <;> simp
@[simp] theorem journal_tiles (kind die obj detail seq v : Nat) (s : State) : (journal kind die obj detail seq v s).tiles = s.tiles := by
  unfold journal; split <;> simp
@[simp] theorem journal_meas (kind die obj detail seq v : Nat) (s : State) : (journal kind die obj detail seq v s).meas = s.meas := by
  unfold journal; split <;> simp
@[simp] theorem journal_time (kind die obj detail seq v : Nat) (s : State) : (journal kind die obj detail seq v s).time = s.time := by
  unfold journal; split <;> simp
@[simp] theorem journal_acq (kind die obj detail seq v : Nat) (s : State) : (journal kind die obj detail seq v s).acq = s.acq := by
  unfold journal; split <;> simp
@[simp] theorem journal_prot (kind die obj detail seq v : Nat) (s : State) : (journal kind die obj detail seq v s).prot = s.prot := by
  unfold journal; split <;> simp
@[simp] theorem journal_net (kind die obj detail seq v : Nat) (s : State) : (journal kind die obj detail seq v s).net = s.net := by
  unfold journal; split <;> simp
@[simp] theorem journal_safe (kind die obj detail seq v : Nat) (s : State) : (journal kind die obj detail seq v s).safe = s.safe := by
  unfold journal; split <;> simp
@[simp] theorem journal_red (kind die obj detail seq v : Nat) (s : State) : (journal kind die obj detail seq v s).red = s.red := by
  unfold journal; split <;> simp
@[simp] theorem journal_spare (kind die obj detail seq v : Nat) (s : State) : (journal kind die obj detail seq v s).spare = s.spare := by
  unfold journal; split <;> simp

/-! ### xlSend -/

@[simp] theorem xlSend_pending (m : XlMsg) (s : State) : (xlSend m s).pending = s.pending := by
  unfold xlSend; split <;> simp
@[simp] theorem xlSend_freeCtr (m : XlMsg) (s : State) : (xlSend m s).freeCtr = s.freeCtr := by
  unfold xlSend; split <;> simp
@[simp] theorem xlSend_host (m : XlMsg) (s : State) : (xlSend m s).host = s.host := by
  unfold xlSend; split <;> simp
@[simp] theorem xlSend_dev (m : XlMsg) (s : State) : (xlSend m s).dev = s.dev := by
  unfold xlSend; split <;> simp
@[simp] theorem xlSend_power (m : XlMsg) (s : State) : (xlSend m s).power = s.power := by
  unfold xlSend; split <;> simp
@[simp] theorem xlSend_mb (m : XlMsg) (s : State) : (xlSend m s).mb = s.mb := by
  unfold xlSend; split <;> simp
@[simp] theorem xlSend_tick (m : XlMsg) (s : State) : (xlSend m s).tick = s.tick := by
  unfold xlSend; split <;> simp
@[simp] theorem xlSend_fault (m : XlMsg) (s : State) : (xlSend m s).fault = s.fault := by
  unfold xlSend; split <;> simp
@[simp] theorem xlSend_link (m : XlMsg) (s : State) : (xlSend m s).link = s.link := by
  unfold xlSend; split <;> simp
@[simp] theorem xlSend_cells (m : XlMsg) (s : State) : (xlSend m s).cells = s.cells := by
  unfold xlSend; split <;> simp
@[simp] theorem xlSend_aie (m : XlMsg) (s : State) : (xlSend m s).aie = s.aie := by
  unfold xlSend; split <;> simp
@[simp] theorem xlSend_pwm (m : XlMsg) (s : State) : (xlSend m s).pwm = s.pwm := by
  unfold xlSend; split <;> simp
@[simp] theorem xlSend_loop (m : XlMsg) (s : State) : (xlSend m s).loop = s.loop := by
  unfold xlSend; split <;> simp
@[simp] theorem xlSend_tiles (m : XlMsg) (s : State) : (xlSend m s).tiles = s.tiles := by
  unfold xlSend; split <;> simp
@[simp] theorem xlSend_meas (m : XlMsg) (s : State) : (xlSend m s).meas = s.meas := by
  unfold xlSend; split <;> simp
@[simp] theorem xlSend_time (m : XlMsg) (s : State) : (xlSend m s).time = s.time := by
  unfold xlSend; split <;> simp
@[simp] theorem xlSend_acq (m : XlMsg) (s : State) : (xlSend m s).acq = s.acq := by
  unfold xlSend; split <;> simp
@[simp] theorem xlSend_prot (m : XlMsg) (s : State) : (xlSend m s).prot = s.prot := by
  unfold xlSend; split <;> simp
@[simp] theorem xlSend_net (m : XlMsg) (s : State) : (xlSend m s).net = s.net := by
  unfold xlSend; split <;> simp
@[simp] theorem xlSend_safe (m : XlMsg) (s : State) : (xlSend m s).safe = s.safe := by
  unfold xlSend; split <;> simp
@[simp] theorem xlSend_galley (m : XlMsg) (s : State) : (xlSend m s).galley = s.galley := by
  unfold xlSend; split <;> simp
@[simp] theorem xlSend_spare (m : XlMsg) (s : State) : (xlSend m s).spare = s.spare := by
  unfold xlSend; split <;> simp

/-! ### logAdd -/

@[simp] theorem logAdd_pending (opcode b10 b11 mb : Nat) (s : State) : (logAdd opcode b10 b11 mb s).pending = s.pending := by
  rfl
@[simp] theorem logAdd_freeCtr (opcode b10 b11 mb : Nat) (s : State) : (logAdd opcode b10 b11 mb s).freeCtr = s.freeCtr := by
  rfl
@[simp] theorem logAdd_host (opcode b10 b11 mb : Nat) (s : State) : (logAdd opcode b10 b11 mb s).host = s.host := by
  rfl
@[simp] theorem logAdd_dev (opcode b10 b11 mb : Nat) (s : State) : (logAdd opcode b10 b11 mb s).dev = s.dev := by
  rfl
@[simp] theorem logAdd_power (opcode b10 b11 mb : Nat) (s : State) : (logAdd opcode b10 b11 mb s).power = s.power := by
  rfl
@[simp] theorem logAdd_tick (opcode b10 b11 mb : Nat) (s : State) : (logAdd opcode b10 b11 mb s).tick = s.tick := by
  rfl
@[simp] theorem logAdd_fault (opcode b10 b11 mb : Nat) (s : State) : (logAdd opcode b10 b11 mb s).fault = s.fault := by
  rfl
@[simp] theorem logAdd_link (opcode b10 b11 mb : Nat) (s : State) : (logAdd opcode b10 b11 mb s).link = s.link := by
  rfl
@[simp] theorem logAdd_cells (opcode b10 b11 mb : Nat) (s : State) : (logAdd opcode b10 b11 mb s).cells = s.cells := by
  rfl
@[simp] theorem logAdd_aie (opcode b10 b11 mb : Nat) (s : State) : (logAdd opcode b10 b11 mb s).aie = s.aie := by
  rfl
@[simp] theorem logAdd_pwm (opcode b10 b11 mb : Nat) (s : State) : (logAdd opcode b10 b11 mb s).pwm = s.pwm := by
  rfl
@[simp] theorem logAdd_loop (opcode b10 b11 mb : Nat) (s : State) : (logAdd opcode b10 b11 mb s).loop = s.loop := by
  rfl
@[simp] theorem logAdd_tiles (opcode b10 b11 mb : Nat) (s : State) : (logAdd opcode b10 b11 mb s).tiles = s.tiles := by
  rfl
@[simp] theorem logAdd_meas (opcode b10 b11 mb : Nat) (s : State) : (logAdd opcode b10 b11 mb s).meas = s.meas := by
  rfl
@[simp] theorem logAdd_time (opcode b10 b11 mb : Nat) (s : State) : (logAdd opcode b10 b11 mb s).time = s.time := by
  rfl
@[simp] theorem logAdd_acq (opcode b10 b11 mb : Nat) (s : State) : (logAdd opcode b10 b11 mb s).acq = s.acq := by
  rfl
@[simp] theorem logAdd_prot (opcode b10 b11 mb : Nat) (s : State) : (logAdd opcode b10 b11 mb s).prot = s.prot := by
  rfl
@[simp] theorem logAdd_net (opcode b10 b11 mb : Nat) (s : State) : (logAdd opcode b10 b11 mb s).net = s.net := by
  rfl
@[simp] theorem logAdd_safe (opcode b10 b11 mb : Nat) (s : State) : (logAdd opcode b10 b11 mb s).safe = s.safe := by
  rfl
@[simp] theorem logAdd_red (opcode b10 b11 mb : Nat) (s : State) : (logAdd opcode b10 b11 mb s).red = s.red := by
  rfl
@[simp] theorem logAdd_galley (opcode b10 b11 mb : Nat) (s : State) : (logAdd opcode b10 b11 mb s).galley = s.galley := by
  rfl
@[simp] theorem logAdd_spare (opcode b10 b11 mb : Nat) (s : State) : (logAdd opcode b10 b11 mb s).spare = s.spare := by
  rfl

/-! ### mbUpd -/

@[simp] theorem mbUpd_pending (n : Nat) (f : MbBlock → MbBlock) (s : State) : (mbUpd n f s).pending = s.pending := by
  rfl
@[simp] theorem mbUpd_freeCtr (n : Nat) (f : MbBlock → MbBlock) (s : State) : (mbUpd n f s).freeCtr = s.freeCtr := by
  rfl
@[simp] theorem mbUpd_host (n : Nat) (f : MbBlock → MbBlock) (s : State) : (mbUpd n f s).host = s.host := by
  rfl
@[simp] theorem mbUpd_dev (n : Nat) (f : MbBlock → MbBlock) (s : State) : (mbUpd n f s).dev = s.dev := by
  rfl
@[simp] theorem mbUpd_power (n : Nat) (f : MbBlock → MbBlock) (s : State) : (mbUpd n f s).power = s.power := by
  rfl
@[simp] theorem mbUpd_tick (n : Nat) (f : MbBlock → MbBlock) (s : State) : (mbUpd n f s).tick = s.tick := by
  rfl
@[simp] theorem mbUpd_fault (n : Nat) (f : MbBlock → MbBlock) (s : State) : (mbUpd n f s).fault = s.fault := by
  rfl
@[simp] theorem mbUpd_link (n : Nat) (f : MbBlock → MbBlock) (s : State) : (mbUpd n f s).link = s.link := by
  rfl
@[simp] theorem mbUpd_cells (n : Nat) (f : MbBlock → MbBlock) (s : State) : (mbUpd n f s).cells = s.cells := by
  rfl
@[simp] theorem mbUpd_aie (n : Nat) (f : MbBlock → MbBlock) (s : State) : (mbUpd n f s).aie = s.aie := by
  rfl
@[simp] theorem mbUpd_pwm (n : Nat) (f : MbBlock → MbBlock) (s : State) : (mbUpd n f s).pwm = s.pwm := by
  rfl
@[simp] theorem mbUpd_loop (n : Nat) (f : MbBlock → MbBlock) (s : State) : (mbUpd n f s).loop = s.loop := by
  rfl
@[simp] theorem mbUpd_tiles (n : Nat) (f : MbBlock → MbBlock) (s : State) : (mbUpd n f s).tiles = s.tiles := by
  rfl
@[simp] theorem mbUpd_meas (n : Nat) (f : MbBlock → MbBlock) (s : State) : (mbUpd n f s).meas = s.meas := by
  rfl
@[simp] theorem mbUpd_time (n : Nat) (f : MbBlock → MbBlock) (s : State) : (mbUpd n f s).time = s.time := by
  rfl
@[simp] theorem mbUpd_acq (n : Nat) (f : MbBlock → MbBlock) (s : State) : (mbUpd n f s).acq = s.acq := by
  rfl
@[simp] theorem mbUpd_prot (n : Nat) (f : MbBlock → MbBlock) (s : State) : (mbUpd n f s).prot = s.prot := by
  rfl
@[simp] theorem mbUpd_net (n : Nat) (f : MbBlock → MbBlock) (s : State) : (mbUpd n f s).net = s.net := by
  rfl
@[simp] theorem mbUpd_safe (n : Nat) (f : MbBlock → MbBlock) (s : State) : (mbUpd n f s).safe = s.safe := by
  rfl
@[simp] theorem mbUpd_red (n : Nat) (f : MbBlock → MbBlock) (s : State) : (mbUpd n f s).red = s.red := by
  rfl
@[simp] theorem mbUpd_galley (n : Nat) (f : MbBlock → MbBlock) (s : State) : (mbUpd n f s).galley = s.galley := by
  rfl
@[simp] theorem mbUpd_spare (n : Nat) (f : MbBlock → MbBlock) (s : State) : (mbUpd n f s).spare = s.spare := by
  rfl

/-! ### putBuf -/

@[simp] theorem putBuf_pending (a : Nat) (p : Bytes) (s : State) : (putBuf a p s).pending = s.pending := by
  rfl
@[simp] theorem putBuf_freeCtr (a : Nat) (p : Bytes) (s : State) : (putBuf a p s).freeCtr = s.freeCtr := by
  rfl
@[simp] theorem putBuf_dev (a : Nat) (p : Bytes) (s : State) : (putBuf a p s).dev = s.dev := by
  rfl
@[simp] theorem putBuf_power (a : Nat) (p : Bytes) (s : State) : (putBuf a p s).power = s.power := by
  rfl
@[simp] theorem putBuf_mb (a : Nat) (p : Bytes) (s : State) : (putBuf a p s).mb = s.mb := by
  rfl
@[simp] theorem putBuf_tick (a : Nat) (p : Bytes) (s : State) : (putBuf a p s).tick = s.tick := by
  rfl
@[simp] theorem putBuf_fault (a : Nat) (p : Bytes) (s : State) : (putBuf a p s).fault = s.fault := by
  rfl
@[simp] theorem putBuf_link (a : Nat) (p : Bytes) (s : State) : (putBuf a p s).link = s.link := by
  rfl
@[simp] theorem putBuf_cells (a : Nat) (p : Bytes) (s : State) : (putBuf a p s).cells = s.cells := by
  rfl
@[simp] theorem putBuf_aie (a : Nat) (p : Bytes) (s : State) : (putBuf a p s).aie = s.aie := by
  rfl
@[simp] theorem putBuf_pwm (a : Nat) (p : Bytes) (s : State) : (putBuf a p s).pwm = s.pwm := by
  rfl
@[simp] theorem putBuf_loop (a : Nat) (p : Bytes) (s : State) : (putBuf a p s).loop = s.loop := by
  rfl
@[simp] theorem putBuf_tiles (a : Nat) (p : Bytes) (s : State) : (putBuf a p s).tiles = s.tiles := by
  rfl
@[simp] theorem putBuf_meas (a : Nat) (p : Bytes) (s : State) : (putBuf a p s).meas = s.meas := by
  rfl
@[simp] theorem putBuf_time (a : Nat) (p : Bytes) (s : State) : (putBuf a p s).time = s.time := by
  rfl
@[simp] theorem putBuf_acq (a : Nat) (p : Bytes) (s : State) : (putBuf a p s).acq = s.acq := by
  rfl
@[simp] theorem putBuf_prot (a : Nat) (p : Bytes) (s : State) : (putBuf a p s).prot = s.prot := by
  rfl
@[simp] theorem putBuf_net (a : Nat) (p : Bytes) (s : State) : (putBuf a p s).net = s.net := by
  rfl
@[simp] theorem putBuf_safe (a : Nat) (p : Bytes) (s : State) : (putBuf a p s).safe = s.safe := by
  rfl
@[simp] theorem putBuf_red (a : Nat) (p : Bytes) (s : State) : (putBuf a p s).red = s.red := by
  rfl
@[simp] theorem putBuf_galley (a : Nat) (p : Bytes) (s : State) : (putBuf a p s).galley = s.galley := by
  rfl
@[simp] theorem putBuf_spare (a : Nat) (p : Bytes) (s : State) : (putBuf a p s).spare = s.spare := by
  rfl

/-! ### writeRsp -/

@[simp] theorem writeRsp_pending (r : Response) (s : State) : (writeRsp r s).pending = s.pending := by
  unfold writeRsp; simp only []; split <;> simp
@[simp] theorem writeRsp_freeCtr (r : Response) (s : State) : (writeRsp r s).freeCtr = s.freeCtr := by
  unfold writeRsp; simp only []; split <;> simp
@[simp] theorem writeRsp_dev (r : Response) (s : State) : (writeRsp r s).dev = s.dev := by
  unfold writeRsp; simp only []; split <;> simp
@[simp] theorem writeRsp_power (r : Response) (s : State) : (writeRsp r s).power = s.power := by
  unfold writeRsp; simp only []; split <;> simp
@[simp] theorem writeRsp_tick (r : Response) (s : State) : (writeRsp r s).tick = s.tick := by
  unfold writeRsp; simp only []; split <;> simp
@[simp] theorem writeRsp_fault (r : Response) (s : State) : (writeRsp r s).fault = s.fault := by
  unfold writeRsp; simp only []; split <;> simp
@[simp] theorem writeRsp_link (r : Response) (s : State) : (writeRsp r s).link = s.link := by
  unfold writeRsp; simp only []; split <;> simp
@[simp] theorem writeRsp_cells (r : Response) (s : State) : (writeRsp r s).cells = s.cells := by
  unfold writeRsp; simp only []; split <;> simp
@[simp] theorem writeRsp_aie (r : Response) (s : State) : (writeRsp r s).aie = s.aie := by
  unfold writeRsp; simp only []; split <;> simp
@[simp] theorem writeRsp_pwm (r : Response) (s : State) : (writeRsp r s).pwm = s.pwm := by
  unfold writeRsp; simp only []; split <;> simp
@[simp] theorem writeRsp_loop (r : Response) (s : State) : (writeRsp r s).loop = s.loop := by
  unfold writeRsp; simp only []; split <;> simp
@[simp] theorem writeRsp_tiles (r : Response) (s : State) : (writeRsp r s).tiles = s.tiles := by
  unfold writeRsp; simp only []; split <;> simp
@[simp] theorem writeRsp_meas (r : Response) (s : State) : (writeRsp r s).meas = s.meas := by
  unfold writeRsp; simp only []; split <;> simp
@[simp] theorem writeRsp_time (r : Response) (s : State) : (writeRsp r s).time = s.time := by
  unfold writeRsp; simp only []; split <;> simp
@[simp] theorem writeRsp_acq (r : Response) (s : State) : (writeRsp r s).acq = s.acq := by
  unfold writeRsp; simp only []; split <;> simp
@[simp] theorem writeRsp_prot (r : Response) (s : State) : (writeRsp r s).prot = s.prot := by
  unfold writeRsp; simp only []; split <;> simp
@[simp] theorem writeRsp_net (r : Response) (s : State) : (writeRsp r s).net = s.net := by
  unfold writeRsp; simp only []; split <;> simp
@[simp] theorem writeRsp_safe (r : Response) (s : State) : (writeRsp r s).safe = s.safe := by
  unfold writeRsp; simp only []; split <;> simp
@[simp] theorem writeRsp_red (r : Response) (s : State) : (writeRsp r s).red = s.red := by
  unfold writeRsp; simp only []; split <;> simp
@[simp] theorem writeRsp_galley (r : Response) (s : State) : (writeRsp r s).galley = s.galley := by
  unfold writeRsp; simp only []; split <;> simp
@[simp] theorem writeRsp_spare (r : Response) (s : State) : (writeRsp r s).spare = s.spare := by
  unfold writeRsp; simp only []; split <;> simp

/-! ### respond -/

@[simp] theorem respond_pending (r : Response) (s : State) : (respond r s).pending = s.pending := by
  unfold respond; simp only []; split <;> simp
@[simp] theorem respond_freeCtr (r : Response) (s : State) : (respond r s).freeCtr = s.freeCtr := by
  unfold respond; simp only []; split <;> simp
@[simp] theorem respond_dev (r : Response) (s : State) : (respond r s).dev = s.dev := by
  unfold respond; simp only []; split <;> simp
@[simp] theorem respond_power (r : Response) (s : State) : (respond r s).power = s.power := by
  unfold respond; simp only []; split <;> simp
@[simp] theorem respond_tick (r : Response) (s : State) : (respond r s).tick = s.tick := by
  unfold respond; simp only []; split <;> simp
@[simp] theorem respond_fault (r : Response) (s : State) : (respond r s).fault = s.fault := by
  unfold respond; simp only []; split <;> simp
@[simp] theorem respond_link (r : Response) (s : State) : (respond r s).link = s.link := by
  unfold respond; simp only []; split <;> simp
@[simp] theorem respond_cells (r : Response) (s : State) : (respond r s).cells = s.cells := by
  unfold respond; simp only []; split <;> simp
@[simp] theorem respond_aie (r : Response) (s : State) : (respond r s).aie = s.aie := by
  unfold respond; simp only []; split <;> simp
@[simp] theorem respond_pwm (r : Response) (s : State) : (respond r s).pwm = s.pwm := by
  unfold respond; simp only []; split <;> simp
@[simp] theorem respond_loop (r : Response) (s : State) : (respond r s).loop = s.loop := by
  unfold respond; simp only []; split <;> simp
@[simp] theorem respond_tiles (r : Response) (s : State) : (respond r s).tiles = s.tiles := by
  unfold respond; simp only []; split <;> simp
@[simp] theorem respond_meas (r : Response) (s : State) : (respond r s).meas = s.meas := by
  unfold respond; simp only []; split <;> simp
@[simp] theorem respond_time (r : Response) (s : State) : (respond r s).time = s.time := by
  unfold respond; simp only []; split <;> simp
@[simp] theorem respond_acq (r : Response) (s : State) : (respond r s).acq = s.acq := by
  unfold respond; simp only []; split <;> simp
@[simp] theorem respond_prot (r : Response) (s : State) : (respond r s).prot = s.prot := by
  unfold respond; simp only []; split <;> simp
@[simp] theorem respond_net (r : Response) (s : State) : (respond r s).net = s.net := by
  unfold respond; simp only []; split <;> simp
@[simp] theorem respond_safe (r : Response) (s : State) : (respond r s).safe = s.safe := by
  unfold respond; simp only []; split <;> simp
@[simp] theorem respond_red (r : Response) (s : State) : (respond r s).red = s.red := by
  unfold respond; simp only []; split <;> simp
@[simp] theorem respond_galley (r : Response) (s : State) : (respond r s).galley = s.galley := by
  unfold respond; simp only []; split <;> simp
@[simp] theorem respond_spare (r : Response) (s : State) : (respond r s).spare = s.spare := by
  unfold respond; simp only []; split <;> simp

/-! ### settle -/

@[simp] theorem settle_pending (n : Nat) (s : State) : (settle n s).pending = s.pending := by
  unfold settle; simp only []; split <;> simp
@[simp] theorem settle_freeCtr (n : Nat) (s : State) : (settle n s).freeCtr = s.freeCtr := by
  unfold settle; simp only []; split <;> simp
@[simp] theorem settle_host (n : Nat) (s : State) : (settle n s).host = s.host := by
  unfold settle; simp only []; split <;> simp
@[simp] theorem settle_dev (n : Nat) (s : State) : (settle n s).dev = s.dev := by
  unfold settle; simp only []; split <;> simp
@[simp] theorem settle_power (n : Nat) (s : State) : (settle n s).power = s.power := by
  unfold settle; simp only []; split <;> simp
@[simp] theorem settle_tick (n : Nat) (s : State) : (settle n s).tick = s.tick := by
  unfold settle; simp only []; split <;> simp
@[simp] theorem settle_fault (n : Nat) (s : State) : (settle n s).fault = s.fault := by
  unfold settle; simp only []; split <;> simp
@[simp] theorem settle_link (n : Nat) (s : State) : (settle n s).link = s.link := by
  unfold settle; simp only []; split <;> simp
@[simp] theorem settle_cells (n : Nat) (s : State) : (settle n s).cells = s.cells := by
  unfold settle; simp only []; split <;> simp
@[simp] theorem settle_aie (n : Nat) (s : State) : (settle n s).aie = s.aie := by
  unfold settle; simp only []; split <;> simp
@[simp] theorem settle_pwm (n : Nat) (s : State) : (settle n s).pwm = s.pwm := by
  unfold settle; simp only []; split <;> simp
@[simp] theorem settle_loop (n : Nat) (s : State) : (settle n s).loop = s.loop := by
  unfold settle; simp only []; split <;> simp
@[simp] theorem settle_tiles (n : Nat) (s : State) : (settle n s).tiles = s.tiles := by
  unfold settle; simp only []; split <;> simp
@[simp] theorem settle_meas (n : Nat) (s : State) : (settle n s).meas = s.meas := by
  unfold settle; simp only []; split <;> simp
@[simp] theorem settle_time (n : Nat) (s : State) : (settle n s).time = s.time := by
  unfold settle; simp only []; split <;> simp
@[simp] theorem settle_acq (n : Nat) (s : State) : (settle n s).acq = s.acq := by
  unfold settle; simp only []; split <;> simp
@[simp] theorem settle_prot (n : Nat) (s : State) : (settle n s).prot = s.prot := by
  unfold settle; simp only []; split <;> simp
@[simp] theorem settle_net (n : Nat) (s : State) : (settle n s).net = s.net := by
  unfold settle; simp only []; split <;> simp
@[simp] theorem settle_safe (n : Nat) (s : State) : (settle n s).safe = s.safe := by
  unfold settle; simp only []; split <;> simp
@[simp] theorem settle_red (n : Nat) (s : State) : (settle n s).red = s.red := by
  unfold settle; simp only []; split <;> simp
@[simp] theorem settle_galley (n : Nat) (s : State) : (settle n s).galley = s.galley := by
  unfold settle; simp only []; split <;> simp
@[simp] theorem settle_spare (n : Nat) (s : State) : (settle n s).spare = s.spare := by
  unfold settle; simp only []; split <;> simp

/-! ### release -/

@[simp] theorem release_pending (mb tag seq : Nat) (s : State) : (release mb tag seq s).pending = s.pending := by
  rfl
@[simp] theorem release_freeCtr (mb tag seq : Nat) (s : State) : (release mb tag seq s).freeCtr = s.freeCtr := by
  rfl
@[simp] theorem release_host (mb tag seq : Nat) (s : State) : (release mb tag seq s).host = s.host := by
  rfl
@[simp] theorem release_dev (mb tag seq : Nat) (s : State) : (release mb tag seq s).dev = s.dev := by
  rfl
@[simp] theorem release_power (mb tag seq : Nat) (s : State) : (release mb tag seq s).power = s.power := by
  rfl
@[simp] theorem release_tick (mb tag seq : Nat) (s : State) : (release mb tag seq s).tick = s.tick := by
  rfl
@[simp] theorem release_fault (mb tag seq : Nat) (s : State) : (release mb tag seq s).fault = s.fault := by
  rfl
@[simp] theorem release_link (mb tag seq : Nat) (s : State) : (release mb tag seq s).link = s.link := by
  rfl
@[simp] theorem release_cells (mb tag seq : Nat) (s : State) : (release mb tag seq s).cells = s.cells := by
  rfl
@[simp] theorem release_aie (mb tag seq : Nat) (s : State) : (release mb tag seq s).aie = s.aie := by
  rfl
@[simp] theorem release_pwm (mb tag seq : Nat) (s : State) : (release mb tag seq s).pwm = s.pwm := by
  rfl
@[simp] theorem release_loop (mb tag seq : Nat) (s : State) : (release mb tag seq s).loop = s.loop := by
  rfl
@[simp] theorem release_tiles (mb tag seq : Nat) (s : State) : (release mb tag seq s).tiles = s.tiles := by
  rfl
@[simp] theorem release_meas (mb tag seq : Nat) (s : State) : (release mb tag seq s).meas = s.meas := by
  rfl
@[simp] theorem release_time (mb tag seq : Nat) (s : State) : (release mb tag seq s).time = s.time := by
  rfl
@[simp] theorem release_acq (mb tag seq : Nat) (s : State) : (release mb tag seq s).acq = s.acq := by
  rfl
@[simp] theorem release_prot (mb tag seq : Nat) (s : State) : (release mb tag seq s).prot = s.prot := by
  rfl
@[simp] theorem release_net (mb tag seq : Nat) (s : State) : (release mb tag seq s).net = s.net := by
  rfl
@[simp] theorem release_safe (mb tag seq : Nat) (s : State) : (release mb tag seq s).safe = s.safe := by
  rfl
@[simp] theorem release_red (mb tag seq : Nat) (s : State) : (release mb tag seq s).red = s.red := by
  rfl
@[simp] theorem release_galley (mb tag seq : Nat) (s : State) : (release mb tag seq s).galley = s.galley := by
  rfl
@[simp] theorem release_spare (mb tag seq : Nat) (s : State) : (release mb tag seq s).spare = s.spare := by
  rfl

/-! ### awaitFirst -/

@[simp] theorem awaitFirst_pending (opcode : Nat) (c : Cmd) (s : State) : (awaitFirst opcode c s).pending = s.pending := by
  rfl
@[simp] theorem awaitFirst_freeCtr (opcode : Nat) (c : Cmd) (s : State) : (awaitFirst opcode c s).freeCtr = s.freeCtr := by
  rfl
@[simp] theorem awaitFirst_host (opcode : Nat) (c : Cmd) (s : State) : (awaitFirst opcode c s).host = s.host := by
  rfl
@[simp] theorem awaitFirst_dev (opcode : Nat) (c : Cmd) (s : State) : (awaitFirst opcode c s).dev = s.dev := by
  rfl
@[simp] theorem awaitFirst_power (opcode : Nat) (c : Cmd) (s : State) : (awaitFirst opcode c s).power = s.power := by
  rfl
@[simp] theorem awaitFirst_tick (opcode : Nat) (c : Cmd) (s : State) : (awaitFirst opcode c s).tick = s.tick := by
  rfl
@[simp] theorem awaitFirst_fault (opcode : Nat) (c : Cmd) (s : State) : (awaitFirst opcode c s).fault = s.fault := by
  rfl
@[simp] theorem awaitFirst_link (opcode : Nat) (c : Cmd) (s : State) : (awaitFirst opcode c s).link = s.link := by
  rfl
@[simp] theorem awaitFirst_cells (opcode : Nat) (c : Cmd) (s : State) : (awaitFirst opcode c s).cells = s.cells := by
  rfl
@[simp] theorem awaitFirst_aie (opcode : Nat) (c : Cmd) (s : State) : (awaitFirst opcode c s).aie = s.aie := by
  rfl
@[simp] theorem awaitFirst_pwm (opcode : Nat) (c : Cmd) (s : State) : (awaitFirst opcode c s).pwm = s.pwm := by
  rfl
@[simp] theorem awaitFirst_loop (opcode : Nat) (c : Cmd) (s : State) : (awaitFirst opcode c s).loop = s.loop := by
  rfl
@[simp] theorem awaitFirst_tiles (opcode : Nat) (c : Cmd) (s : State) : (awaitFirst opcode c s).tiles = s.tiles := by
  rfl
@[simp] theorem awaitFirst_meas (opcode : Nat) (c : Cmd) (s : State) : (awaitFirst opcode c s).meas = s.meas := by
  rfl
@[simp] theorem awaitFirst_time (opcode : Nat) (c : Cmd) (s : State) : (awaitFirst opcode c s).time = s.time := by
  rfl
@[simp] theorem awaitFirst_acq (opcode : Nat) (c : Cmd) (s : State) : (awaitFirst opcode c s).acq = s.acq := by
  rfl
@[simp] theorem awaitFirst_prot (opcode : Nat) (c : Cmd) (s : State) : (awaitFirst opcode c s).prot = s.prot := by
  rfl
@[simp] theorem awaitFirst_net (opcode : Nat) (c : Cmd) (s : State) : (awaitFirst opcode c s).net = s.net := by
  rfl
@[simp] theorem awaitFirst_safe (opcode : Nat) (c : Cmd) (s : State) : (awaitFirst opcode c s).safe = s.safe := by
  rfl
@[simp] theorem awaitFirst_red (opcode : Nat) (c : Cmd) (s : State) : (awaitFirst opcode c s).red = s.red := by
  rfl
@[simp] theorem awaitFirst_galley (opcode : Nat) (c : Cmd) (s : State) : (awaitFirst opcode c s).galley = s.galley := by
  rfl
@[simp] theorem awaitFirst_spare (opcode : Nat) (c : Cmd) (s : State) : (awaitFirst opcode c s).spare = s.spare := by
  rfl

/-! ### answer -/

@[simp] theorem answer_pending (opcode : Nat) (c : Cmd) (st : Status) (r : Bytes) (s : State) : (answer opcode c st r s).pending = s.pending := by
  unfold answer; simp only []; split <;> simp
@[simp] theorem answer_freeCtr (opcode : Nat) (c : Cmd) (st : Status) (r : Bytes) (s : State) : (answer opcode c st r s).freeCtr = s.freeCtr := by
  unfold answer; simp only []; split <;> simp
@[simp] theorem answer_dev (opcode : Nat) (c : Cmd) (st : Status) (r : Bytes) (s : State) : (answer opcode c st r s).dev = s.dev := by
  unfold answer; simp only []; split <;> simp
@[simp] theorem answer_power (opcode : Nat) (c : Cmd) (st : Status) (r : Bytes) (s : State) : (answer opcode c st r s).power = s.power := by
  unfold answer; simp only []; split <;> simp
@[simp] theorem answer_tick (opcode : Nat) (c : Cmd) (st : Status) (r : Bytes) (s : State) : (answer opcode c st r s).tick = s.tick := by
  unfold answer; simp only []; split <;> simp
@[simp] theorem answer_fault (opcode : Nat) (c : Cmd) (st : Status) (r : Bytes) (s : State) : (answer opcode c st r s).fault = s.fault := by
  unfold answer; simp only []; split <;> simp
@[simp] theorem answer_link (opcode : Nat) (c : Cmd) (st : Status) (r : Bytes) (s : State) : (answer opcode c st r s).link = s.link := by
  unfold answer; simp only []; split <;> simp
@[simp] theorem answer_cells (opcode : Nat) (c : Cmd) (st : Status) (r : Bytes) (s : State) : (answer opcode c st r s).cells = s.cells := by
  unfold answer; simp only []; split <;> simp
@[simp] theorem answer_aie (opcode : Nat) (c : Cmd) (st : Status) (r : Bytes) (s : State) : (answer opcode c st r s).aie = s.aie := by
  unfold answer; simp only []; split <;> simp
@[simp] theorem answer_pwm (opcode : Nat) (c : Cmd) (st : Status) (r : Bytes) (s : State) : (answer opcode c st r s).pwm = s.pwm := by
  unfold answer; simp only []; split <;> simp
@[simp] theorem answer_loop (opcode : Nat) (c : Cmd) (st : Status) (r : Bytes) (s : State) : (answer opcode c st r s).loop = s.loop := by
  unfold answer; simp only []; split <;> simp
@[simp] theorem answer_tiles (opcode : Nat) (c : Cmd) (st : Status) (r : Bytes) (s : State) : (answer opcode c st r s).tiles = s.tiles := by
  unfold answer; simp only []; split <;> simp
@[simp] theorem answer_meas (opcode : Nat) (c : Cmd) (st : Status) (r : Bytes) (s : State) : (answer opcode c st r s).meas = s.meas := by
  unfold answer; simp only []; split <;> simp
@[simp] theorem answer_time (opcode : Nat) (c : Cmd) (st : Status) (r : Bytes) (s : State) : (answer opcode c st r s).time = s.time := by
  unfold answer; simp only []; split <;> simp
@[simp] theorem answer_acq (opcode : Nat) (c : Cmd) (st : Status) (r : Bytes) (s : State) : (answer opcode c st r s).acq = s.acq := by
  unfold answer; simp only []; split <;> simp
@[simp] theorem answer_prot (opcode : Nat) (c : Cmd) (st : Status) (r : Bytes) (s : State) : (answer opcode c st r s).prot = s.prot := by
  unfold answer; simp only []; split <;> simp
@[simp] theorem answer_net (opcode : Nat) (c : Cmd) (st : Status) (r : Bytes) (s : State) : (answer opcode c st r s).net = s.net := by
  unfold answer; simp only []; split <;> simp
@[simp] theorem answer_safe (opcode : Nat) (c : Cmd) (st : Status) (r : Bytes) (s : State) : (answer opcode c st r s).safe = s.safe := by
  unfold answer; simp only []; split <;> simp
@[simp] theorem answer_red (opcode : Nat) (c : Cmd) (st : Status) (r : Bytes) (s : State) : (answer opcode c st r s).red = s.red := by
  unfold answer; simp only []; split <;> simp
@[simp] theorem answer_galley (opcode : Nat) (c : Cmd) (st : Status) (r : Bytes) (s : State) : (answer opcode c st r s).galley = s.galley := by
  unfold answer; simp only []; split <;> simp
@[simp] theorem answer_spare (opcode : Nat) (c : Cmd) (st : Status) (r : Bytes) (s : State) : (answer opcode c st r s).spare = s.spare := by
  unfold answer; simp only []; split <;> simp

/-! ### goPending -/

@[simp] theorem goPending_pending (g : Gate) (c : Cmd) (objs : List Obj) (arg : Nat) (work : Option (Status × Bytes)) (s : State) : (goPending g c objs arg work s).pending = s.pending := by
  rfl
@[simp] theorem goPending_freeCtr (g : Gate) (c : Cmd) (objs : List Obj) (arg : Nat) (work : Option (Status × Bytes)) (s : State) : (goPending g c objs arg work s).freeCtr = s.freeCtr := by
  rfl
@[simp] theorem goPending_host (g : Gate) (c : Cmd) (objs : List Obj) (arg : Nat) (work : Option (Status × Bytes)) (s : State) : (goPending g c objs arg work s).host = s.host := by
  rfl
@[simp] theorem goPending_dev (g : Gate) (c : Cmd) (objs : List Obj) (arg : Nat) (work : Option (Status × Bytes)) (s : State) : (goPending g c objs arg work s).dev = s.dev := by
  rfl
@[simp] theorem goPending_power (g : Gate) (c : Cmd) (objs : List Obj) (arg : Nat) (work : Option (Status × Bytes)) (s : State) : (goPending g c objs arg work s).power = s.power := by
  rfl
@[simp] theorem goPending_tick (g : Gate) (c : Cmd) (objs : List Obj) (arg : Nat) (work : Option (Status × Bytes)) (s : State) : (goPending g c objs arg work s).tick = s.tick := by
  rfl
@[simp] theorem goPending_fault (g : Gate) (c : Cmd) (objs : List Obj) (arg : Nat) (work : Option (Status × Bytes)) (s : State) : (goPending g c objs arg work s).fault = s.fault := by
  rfl
@[simp] theorem goPending_link (g : Gate) (c : Cmd) (objs : List Obj) (arg : Nat) (work : Option (Status × Bytes)) (s : State) : (goPending g c objs arg work s).link = s.link := by
  rfl
@[simp] theorem goPending_cells (g : Gate) (c : Cmd) (objs : List Obj) (arg : Nat) (work : Option (Status × Bytes)) (s : State) : (goPending g c objs arg work s).cells = s.cells := by
  rfl
@[simp] theorem goPending_aie (g : Gate) (c : Cmd) (objs : List Obj) (arg : Nat) (work : Option (Status × Bytes)) (s : State) : (goPending g c objs arg work s).aie = s.aie := by
  rfl
@[simp] theorem goPending_pwm (g : Gate) (c : Cmd) (objs : List Obj) (arg : Nat) (work : Option (Status × Bytes)) (s : State) : (goPending g c objs arg work s).pwm = s.pwm := by
  rfl
@[simp] theorem goPending_loop (g : Gate) (c : Cmd) (objs : List Obj) (arg : Nat) (work : Option (Status × Bytes)) (s : State) : (goPending g c objs arg work s).loop = s.loop := by
  rfl
@[simp] theorem goPending_tiles (g : Gate) (c : Cmd) (objs : List Obj) (arg : Nat) (work : Option (Status × Bytes)) (s : State) : (goPending g c objs arg work s).tiles = s.tiles := by
  rfl
@[simp] theorem goPending_meas (g : Gate) (c : Cmd) (objs : List Obj) (arg : Nat) (work : Option (Status × Bytes)) (s : State) : (goPending g c objs arg work s).meas = s.meas := by
  rfl
@[simp] theorem goPending_time (g : Gate) (c : Cmd) (objs : List Obj) (arg : Nat) (work : Option (Status × Bytes)) (s : State) : (goPending g c objs arg work s).time = s.time := by
  rfl
@[simp] theorem goPending_acq (g : Gate) (c : Cmd) (objs : List Obj) (arg : Nat) (work : Option (Status × Bytes)) (s : State) : (goPending g c objs arg work s).acq = s.acq := by
  rfl
@[simp] theorem goPending_prot (g : Gate) (c : Cmd) (objs : List Obj) (arg : Nat) (work : Option (Status × Bytes)) (s : State) : (goPending g c objs arg work s).prot = s.prot := by
  rfl
@[simp] theorem goPending_net (g : Gate) (c : Cmd) (objs : List Obj) (arg : Nat) (work : Option (Status × Bytes)) (s : State) : (goPending g c objs arg work s).net = s.net := by
  rfl
@[simp] theorem goPending_safe (g : Gate) (c : Cmd) (objs : List Obj) (arg : Nat) (work : Option (Status × Bytes)) (s : State) : (goPending g c objs arg work s).safe = s.safe := by
  rfl
@[simp] theorem goPending_red (g : Gate) (c : Cmd) (objs : List Obj) (arg : Nat) (work : Option (Status × Bytes)) (s : State) : (goPending g c objs arg work s).red = s.red := by
  rfl
@[simp] theorem goPending_galley (g : Gate) (c : Cmd) (objs : List Obj) (arg : Nat) (work : Option (Status × Bytes)) (s : State) : (goPending g c objs arg work s).galley = s.galley := by
  rfl
@[simp] theorem goPending_spare (g : Gate) (c : Cmd) (objs : List Obj) (arg : Nat) (work : Option (Status × Bytes)) (s : State) : (goPending g c objs arg work s).spare = s.spare := by
  rfl

/-! ### endPending -/

@[simp] theorem endPending_pending (p : PendingCmd → Bool) (st : Status) (r : Bytes) (s : State) : (endPending p st r s).pending = s.pending := by
  rfl
@[simp] theorem endPending_freeCtr (p : PendingCmd → Bool) (st : Status) (r : Bytes) (s : State) : (endPending p st r s).freeCtr = s.freeCtr := by
  rfl
@[simp] theorem endPending_host (p : PendingCmd → Bool) (st : Status) (r : Bytes) (s : State) : (endPending p st r s).host = s.host := by
  rfl
@[simp] theorem endPending_dev (p : PendingCmd → Bool) (st : Status) (r : Bytes) (s : State) : (endPending p st r s).dev = s.dev := by
  rfl
@[simp] theorem endPending_power (p : PendingCmd → Bool) (st : Status) (r : Bytes) (s : State) : (endPending p st r s).power = s.power := by
  rfl
@[simp] theorem endPending_tick (p : PendingCmd → Bool) (st : Status) (r : Bytes) (s : State) : (endPending p st r s).tick = s.tick := by
  rfl
@[simp] theorem endPending_fault (p : PendingCmd → Bool) (st : Status) (r : Bytes) (s : State) : (endPending p st r s).fault = s.fault := by
  rfl
@[simp] theorem endPending_link (p : PendingCmd → Bool) (st : Status) (r : Bytes) (s : State) : (endPending p st r s).link = s.link := by
  rfl
@[simp] theorem endPending_cells (p : PendingCmd → Bool) (st : Status) (r : Bytes) (s : State) : (endPending p st r s).cells = s.cells := by
  rfl
@[simp] theorem endPending_aie (p : PendingCmd → Bool) (st : Status) (r : Bytes) (s : State) : (endPending p st r s).aie = s.aie := by
  rfl
@[simp] theorem endPending_pwm (p : PendingCmd → Bool) (st : Status) (r : Bytes) (s : State) : (endPending p st r s).pwm = s.pwm := by
  rfl
@[simp] theorem endPending_loop (p : PendingCmd → Bool) (st : Status) (r : Bytes) (s : State) : (endPending p st r s).loop = s.loop := by
  rfl
@[simp] theorem endPending_tiles (p : PendingCmd → Bool) (st : Status) (r : Bytes) (s : State) : (endPending p st r s).tiles = s.tiles := by
  rfl
@[simp] theorem endPending_meas (p : PendingCmd → Bool) (st : Status) (r : Bytes) (s : State) : (endPending p st r s).meas = s.meas := by
  rfl
@[simp] theorem endPending_time (p : PendingCmd → Bool) (st : Status) (r : Bytes) (s : State) : (endPending p st r s).time = s.time := by
  rfl
@[simp] theorem endPending_acq (p : PendingCmd → Bool) (st : Status) (r : Bytes) (s : State) : (endPending p st r s).acq = s.acq := by
  rfl
@[simp] theorem endPending_prot (p : PendingCmd → Bool) (st : Status) (r : Bytes) (s : State) : (endPending p st r s).prot = s.prot := by
  rfl
@[simp] theorem endPending_net (p : PendingCmd → Bool) (st : Status) (r : Bytes) (s : State) : (endPending p st r s).net = s.net := by
  rfl
@[simp] theorem endPending_safe (p : PendingCmd → Bool) (st : Status) (r : Bytes) (s : State) : (endPending p st r s).safe = s.safe := by
  rfl
@[simp] theorem endPending_red (p : PendingCmd → Bool) (st : Status) (r : Bytes) (s : State) : (endPending p st r s).red = s.red := by
  rfl
@[simp] theorem endPending_galley (p : PendingCmd → Bool) (st : Status) (r : Bytes) (s : State) : (endPending p st r s).galley = s.galley := by
  rfl
@[simp] theorem endPending_spare (p : PendingCmd → Bool) (st : Status) (r : Bytes) (s : State) : (endPending p st r s).spare = s.spare := by
  rfl

/-! ### tookPending -/

@[simp] theorem tookPending_pending (p : PendingCmd → Bool) (s : State) : (tookPending p s).pending = s.pending := by
  rfl
@[simp] theorem tookPending_freeCtr (p : PendingCmd → Bool) (s : State) : (tookPending p s).freeCtr = s.freeCtr := by
  rfl
@[simp] theorem tookPending_host (p : PendingCmd → Bool) (s : State) : (tookPending p s).host = s.host := by
  rfl
@[simp] theorem tookPending_dev (p : PendingCmd → Bool) (s : State) : (tookPending p s).dev = s.dev := by
  rfl
@[simp] theorem tookPending_power (p : PendingCmd → Bool) (s : State) : (tookPending p s).power = s.power := by
  rfl
@[simp] theorem tookPending_tick (p : PendingCmd → Bool) (s : State) : (tookPending p s).tick = s.tick := by
  rfl
@[simp] theorem tookPending_fault (p : PendingCmd → Bool) (s : State) : (tookPending p s).fault = s.fault := by
  rfl
@[simp] theorem tookPending_link (p : PendingCmd → Bool) (s : State) : (tookPending p s).link = s.link := by
  rfl
@[simp] theorem tookPending_cells (p : PendingCmd → Bool) (s : State) : (tookPending p s).cells = s.cells := by
  rfl
@[simp] theorem tookPending_aie (p : PendingCmd → Bool) (s : State) : (tookPending p s).aie = s.aie := by
  rfl
@[simp] theorem tookPending_pwm (p : PendingCmd → Bool) (s : State) : (tookPending p s).pwm = s.pwm := by
  rfl
@[simp] theorem tookPending_loop (p : PendingCmd → Bool) (s : State) : (tookPending p s).loop = s.loop := by
  rfl
@[simp] theorem tookPending_tiles (p : PendingCmd → Bool) (s : State) : (tookPending p s).tiles = s.tiles := by
  rfl
@[simp] theorem tookPending_meas (p : PendingCmd → Bool) (s : State) : (tookPending p s).meas = s.meas := by
  rfl
@[simp] theorem tookPending_time (p : PendingCmd → Bool) (s : State) : (tookPending p s).time = s.time := by
  rfl
@[simp] theorem tookPending_acq (p : PendingCmd → Bool) (s : State) : (tookPending p s).acq = s.acq := by
  rfl
@[simp] theorem tookPending_prot (p : PendingCmd → Bool) (s : State) : (tookPending p s).prot = s.prot := by
  rfl
@[simp] theorem tookPending_net (p : PendingCmd → Bool) (s : State) : (tookPending p s).net = s.net := by
  rfl
@[simp] theorem tookPending_safe (p : PendingCmd → Bool) (s : State) : (tookPending p s).safe = s.safe := by
  rfl
@[simp] theorem tookPending_red (p : PendingCmd → Bool) (s : State) : (tookPending p s).red = s.red := by
  rfl
@[simp] theorem tookPending_galley (p : PendingCmd → Bool) (s : State) : (tookPending p s).galley = s.galley := by
  rfl
@[simp] theorem tookPending_spare (p : PendingCmd → Bool) (s : State) : (tookPending p s).spare = s.spare := by
  rfl

/-! ### addTrigger -/

@[simp] theorem addTrigger_pending (goal : DevState) (cause boundary : Nat) (s : State) : (addTrigger goal cause boundary s).pending = s.pending := by
  rfl
@[simp] theorem addTrigger_freeCtr (goal : DevState) (cause boundary : Nat) (s : State) : (addTrigger goal cause boundary s).freeCtr = s.freeCtr := by
  rfl
@[simp] theorem addTrigger_host (goal : DevState) (cause boundary : Nat) (s : State) : (addTrigger goal cause boundary s).host = s.host := by
  rfl
@[simp] theorem addTrigger_power (goal : DevState) (cause boundary : Nat) (s : State) : (addTrigger goal cause boundary s).power = s.power := by
  rfl
@[simp] theorem addTrigger_mb (goal : DevState) (cause boundary : Nat) (s : State) : (addTrigger goal cause boundary s).mb = s.mb := by
  rfl
@[simp] theorem addTrigger_tick (goal : DevState) (cause boundary : Nat) (s : State) : (addTrigger goal cause boundary s).tick = s.tick := by
  rfl
@[simp] theorem addTrigger_fault (goal : DevState) (cause boundary : Nat) (s : State) : (addTrigger goal cause boundary s).fault = s.fault := by
  rfl
@[simp] theorem addTrigger_link (goal : DevState) (cause boundary : Nat) (s : State) : (addTrigger goal cause boundary s).link = s.link := by
  rfl
@[simp] theorem addTrigger_cells (goal : DevState) (cause boundary : Nat) (s : State) : (addTrigger goal cause boundary s).cells = s.cells := by
  rfl
@[simp] theorem addTrigger_aie (goal : DevState) (cause boundary : Nat) (s : State) : (addTrigger goal cause boundary s).aie = s.aie := by
  rfl
@[simp] theorem addTrigger_pwm (goal : DevState) (cause boundary : Nat) (s : State) : (addTrigger goal cause boundary s).pwm = s.pwm := by
  rfl
@[simp] theorem addTrigger_loop (goal : DevState) (cause boundary : Nat) (s : State) : (addTrigger goal cause boundary s).loop = s.loop := by
  rfl
@[simp] theorem addTrigger_tiles (goal : DevState) (cause boundary : Nat) (s : State) : (addTrigger goal cause boundary s).tiles = s.tiles := by
  rfl
@[simp] theorem addTrigger_meas (goal : DevState) (cause boundary : Nat) (s : State) : (addTrigger goal cause boundary s).meas = s.meas := by
  rfl
@[simp] theorem addTrigger_time (goal : DevState) (cause boundary : Nat) (s : State) : (addTrigger goal cause boundary s).time = s.time := by
  rfl
@[simp] theorem addTrigger_acq (goal : DevState) (cause boundary : Nat) (s : State) : (addTrigger goal cause boundary s).acq = s.acq := by
  rfl
@[simp] theorem addTrigger_prot (goal : DevState) (cause boundary : Nat) (s : State) : (addTrigger goal cause boundary s).prot = s.prot := by
  rfl
@[simp] theorem addTrigger_net (goal : DevState) (cause boundary : Nat) (s : State) : (addTrigger goal cause boundary s).net = s.net := by
  rfl
@[simp] theorem addTrigger_safe (goal : DevState) (cause boundary : Nat) (s : State) : (addTrigger goal cause boundary s).safe = s.safe := by
  rfl
@[simp] theorem addTrigger_red (goal : DevState) (cause boundary : Nat) (s : State) : (addTrigger goal cause boundary s).red = s.red := by
  rfl
@[simp] theorem addTrigger_galley (goal : DevState) (cause boundary : Nat) (s : State) : (addTrigger goal cause boundary s).galley = s.galley := by
  rfl
@[simp] theorem addTrigger_spare (goal : DevState) (cause boundary : Nat) (s : State) : (addTrigger goal cause boundary s).spare = s.spare := by
  rfl

/-! ### stage -/

@[simp] theorem stage_pending (n : Nat) (p : Bytes) (s : State) : (stage n p s).pending = s.pending := by
  rfl
@[simp] theorem stage_freeCtr (n : Nat) (p : Bytes) (s : State) : (stage n p s).freeCtr = s.freeCtr := by
  rfl
@[simp] theorem stage_host (n : Nat) (p : Bytes) (s : State) : (stage n p s).host = s.host := by
  rfl
@[simp] theorem stage_dev (n : Nat) (p : Bytes) (s : State) : (stage n p s).dev = s.dev := by
  rfl
@[simp] theorem stage_power (n : Nat) (p : Bytes) (s : State) : (stage n p s).power = s.power := by
  rfl
@[simp] theorem stage_mb (n : Nat) (p : Bytes) (s : State) : (stage n p s).mb = s.mb := by
  rfl
@[simp] theorem stage_fault (n : Nat) (p : Bytes) (s : State) : (stage n p s).fault = s.fault := by
  rfl
@[simp] theorem stage_link (n : Nat) (p : Bytes) (s : State) : (stage n p s).link = s.link := by
  rfl
@[simp] theorem stage_cells (n : Nat) (p : Bytes) (s : State) : (stage n p s).cells = s.cells := by
  rfl
@[simp] theorem stage_aie (n : Nat) (p : Bytes) (s : State) : (stage n p s).aie = s.aie := by
  rfl
@[simp] theorem stage_pwm (n : Nat) (p : Bytes) (s : State) : (stage n p s).pwm = s.pwm := by
  rfl
@[simp] theorem stage_loop (n : Nat) (p : Bytes) (s : State) : (stage n p s).loop = s.loop := by
  rfl
@[simp] theorem stage_tiles (n : Nat) (p : Bytes) (s : State) : (stage n p s).tiles = s.tiles := by
  rfl
@[simp] theorem stage_meas (n : Nat) (p : Bytes) (s : State) : (stage n p s).meas = s.meas := by
  rfl
@[simp] theorem stage_time (n : Nat) (p : Bytes) (s : State) : (stage n p s).time = s.time := by
  rfl
@[simp] theorem stage_acq (n : Nat) (p : Bytes) (s : State) : (stage n p s).acq = s.acq := by
  rfl
@[simp] theorem stage_prot (n : Nat) (p : Bytes) (s : State) : (stage n p s).prot = s.prot := by
  rfl
@[simp] theorem stage_net (n : Nat) (p : Bytes) (s : State) : (stage n p s).net = s.net := by
  rfl
@[simp] theorem stage_safe (n : Nat) (p : Bytes) (s : State) : (stage n p s).safe = s.safe := by
  rfl
@[simp] theorem stage_red (n : Nat) (p : Bytes) (s : State) : (stage n p s).red = s.red := by
  rfl
@[simp] theorem stage_galley (n : Nat) (p : Bytes) (s : State) : (stage n p s).galley = s.galley := by
  rfl
@[simp] theorem stage_spare (n : Nat) (p : Bytes) (s : State) : (stage n p s).spare = s.spare := by
  rfl

/-! ### The gate, the ring and the answer -/

theorem tget_tset_same {α : Type} (d : α) (t : Tbl α) (n : Nat) (v : α) : tget d (tset t n v) n = v := by
  induction t with
  | nil => simp [tget, tset]
  | cons x r ih =>
    obtain ⟨i, w⟩ := x
    unfold tset
    split
    · simp [tget]
    · split
      · simp [tget]
      · rename_i h
        simp [tget, h, ih]

theorem tget_tset_other {α : Type} (d : α) (t : Tbl α) (n k : Nat) (v : α) (h : k ≠ n) : tget d (tset t n v) k = tget d t k := by
  induction t with
  | nil => simp [tget, tset, Ne.symm h]
  | cons x r ih =>
    obtain ⟨i, w⟩ := x
    unfold tset
    split
    · simp [tget, Ne.symm h]
    · split
      · rename_i h1 h2
        subst h2
        simp [tget, Ne.symm h]
      · simp [tget, ih]

theorem le_length (n x : Nat) : (le n x).length = n := by
  induction n generalizing x with
  | zero => rfl
  | succ k ih => simp [le, ih]

/-- A gate that lets a command pass: no check of 2 to 9 fails, and the mailboxes serve. -/
theorem runCmd_pass (g : Gate) (c : Cmd) (s : State) (act : State → Reply) (h1 : s.dev.state ≠ .powerDown) (h2 : s.dev.state ≠ .boot)
    (h3 : g.fail c s = none) (h4 : (act s).later = false) :
    runCmd g c s act = .next (answer g.opcode c (act s).status (act s).result (act s).st) := by
  simp [runCmd, booting, h1, h2, h3, h4]

/-- A command in POWER_DOWN leaves the state. -/
theorem runCmd_powerDown (g : Gate) (c : Cmd) (s : State) (act : State → Reply) (h : s.dev.state = .powerDown) :
    runCmd g c s act = .next s := by
  simp [runCmd, h]

/-- A command while the device boots is answered BUSY (R86). -/
theorem runCmd_boot (g : Gate) (c : Cmd) (s : State) (act : State → Reply) (h : s.dev.state = .boot) :
    runCmd g c s act = .next (answer g.opcode c .busy [] s) := by
  simp [runCmd, booting, h]

/-- Everything a mailbox command can do: nothing, a refusal answered on the state as it was, or its action and the answer
to it. -/
theorem runCmd_cases (g : Gate) (c : Cmd) (s : State) (act : State → Reply) :
    runCmd g c s act = .next s ∨
    (∃ st r, runCmd g c s act = .next (answer g.opcode c st r s)) ∨
    runCmd g c s act = .next (awaitFirst g.opcode c (act s).st) ∨
    runCmd g c s act = .next (answer g.opcode c (act s).status (act s).result (act s).st) := by
  unfold runCmd
  split
  · exact .inl rfl
  · split
    · exact .inr (.inl ⟨_, _, rfl⟩)
    · split
      · exact .inr (.inl ⟨_, _, rfl⟩)
      · exact .inr (.inl ⟨_, _, rfl⟩)
      · split
        · exact .inr (.inr (.inl rfl))
        · exact .inr (.inr (.inr rfl))

theorem Response.bytes_length (r : Response) (st : DevState) (ro : Role) : (r.bytes st ro).length = 64 := by
  simp [Response.bytes, withCrc, le_length, fit]
  omega

/-- Where the ring has room and nothing is held, the response stands in host memory at its slot. -/
theorem respond_room (r : Response) (s : State) (h1 : ringRoom (mbGet s r.mb) = true) (h2 : (mbGet s r.mb).held = [])
    (h3 : barOn s = true) : (respond r s).host = memWrites s.host (rspAddr (mbGet s r.mb)) (r.bytes s.dev.state s.dev.role) := by
  unfold respond
  simp only [h1, h2, h3, List.isEmpty_nil, Bool.and_self, if_true]
  unfold writeRsp
  simp only []
  split <;> simp [mbUpd, putBuf]

/-- Otherwise host memory stays as it is. -/
theorem respond_held (r : Response) (s : State) (h : (ringRoom (mbGet s r.mb) && (mbGet s r.mb).held.isEmpty && barOn s) = false) :
    (respond r s).host = s.host := by
  unfold respond
  simp [h]

theorem answer_host (opcode : Nat) (c : Cmd) (st : Status) (r : Bytes) (s : State) :
    (answer opcode c st r s).host = (respond (rspOf opcode c st s.tick.index r) s).host := by
  unfold answer
  simp only []
  split <;> simp

/-- The answer keeps the canonical form of host memory. -/
theorem respond_wf (r : Response) (s : State) (h : Memory.wf s.host) : Memory.wf (respond r s).host := by
  unfold respond
  simp only []
  split
  · unfold writeRsp
    simp only []
    split <;> simpa [mbUpd, putBuf] using memWrites_wf _ _ _ h
  · simpa using h

theorem answer_wf (opcode : Nat) (c : Cmd) (st : Status) (r : Bytes) (s : State) (h : Memory.wf s.host) :
    Memory.wf (answer opcode c st r s).host := by
  rw [answer_host]
  exact respond_wf _ _ h


end Sys2Proof.Machine
end

