-- ==== Sys2Proof/Laws/Keeps.lean ====
section
/-! SUPPORT. Footprints: how `Keeps` composes. -/

namespace Sys2Proof.Machine

open Sys2Proof

theorem Keeps.refl (L : List Part) (s : State) : Keeps L s s := by
  constructor <;> intros <;> first | rfl | assumption

/-- One more operation behind `u`, of a footprint inside `L`. -/
theorem Keeps.step {K L : List Part} {s u t : State} (h2 : Keeps K u t) (hK : (K.all fun p => L.contains p) = true) (h1 : Keeps L s u) :
    Keeps L s t := by
  have hm : ∀ p : Part, p ∉ L → p ∉ K := by
    intro p hp hk
    have := List.all_eq_true.mp hK p hk
    exact hp (by simpa using this)
  exact {
    pending := h2.pending.trans h1.pending
    memory := fun w => h2.memory (h1.memory w)
    tickLen := fun w => h2.tickLen (h1.tickLen w)
    logFits := fun w => h2.logFits (h1.logFits w)
    variant := h2.variant.trans h1.variant
    freeCtr := fun h => (h2.freeCtr (hm _ h)).trans (h1.freeCtr h)
    host := fun h => (h2.host (hm _ h)).trans (h1.host h)
    dev := fun h => (h2.dev (hm _ h)).trans (h1.dev h)
    power := fun h => (h2.power (hm _ h)).trans (h1.power h)
    mb := fun h => (h2.mb (hm _ h)).trans (h1.mb h)
    tick := fun h => (h2.tick (hm _ h)).trans (h1.tick h)
    fault := fun h => (h2.fault (hm _ h)).trans (h1.fault h)
    link := fun h => (h2.link (hm _ h)).trans (h1.link h)
    cells := fun h => (h2.cells (hm _ h)).trans (h1.cells h)
    aie := fun h => (h2.aie (hm _ h)).trans (h1.aie h)
    pwm := fun h => (h2.pwm (hm _ h)).trans (h1.pwm h)
    loop := fun h => (h2.loop (hm _ h)).trans (h1.loop h)
    tiles := fun h => (h2.tiles (hm _ h)).trans (h1.tiles h)
    meas := fun h => (h2.meas (hm _ h)).trans (h1.meas h)
    time := fun h => (h2.time (hm _ h)).trans (h1.time h)
    acq := fun h => (h2.acq (hm _ h)).trans (h1.acq h)
    prot := fun h => (h2.prot (hm _ h)).trans (h1.prot h)
    net := fun h => (h2.net (hm _ h)).trans (h1.net h)
    safe := fun h => (h2.safe (hm _ h)).trans (h1.safe h)
    red := fun h => (h2.red (hm _ h)).trans (h1.red h)
    galley := fun h => (h2.galley (hm _ h)).trans (h1.galley h)
    spare := fun h => (h2.spare (hm _ h)).trans (h1.spare h)
  }

theorem Keeps.mono {K L : List Part} {s t : State} (h : Keeps K s t) (hK : (K.all fun p => L.contains p) = true) : Keeps L s t :=
  Keeps.step h hK (Keeps.refl L s)

theorem State.onPower_keeps (s : State) (g) : Keeps [.power] s (s.onPower g) := by
  constructor <;> intros <;> first | rfl | assumption | (exfalso; simp_all; done)
theorem State.onMb_keeps (s : State) (g : Mailboxes → Mailboxes) (h : LogFits s.mb → LogFits (g s.mb)) : Keeps [.mb] s (s.onMb g) := by
  constructor <;> intros <;> first | rfl | assumption | (apply h; assumption) | (exfalso; simp_all; done)
theorem State.onTick_keeps (s : State) (g : TickSt → TickSt) (h : LegalTick s.tick → LegalTick (g s.tick)) : Keeps [.tick] s (s.onTick g) := by
  constructor <;> intros <;> first | rfl | assumption | (apply h; assumption) | (exfalso; simp_all; done)
theorem State.onFault_keeps (s : State) (g) : Keeps [.fault] s (s.onFault g) := by
  constructor <;> intros <;> first | rfl | assumption | (exfalso; simp_all; done)
theorem State.onLink_keeps (s : State) (g) : Keeps [.link] s (s.onLink g) := by
  constructor <;> intros <;> first | rfl | assumption | (exfalso; simp_all; done)
theorem State.onCells_keeps (s : State) (g) : Keeps [.cells] s (s.onCells g) := by
  constructor <;> intros <;> first | rfl | assumption | (exfalso; simp_all; done)
theorem State.onAie_keeps (s : State) (g) : Keeps [.aie] s (s.onAie g) := by
  constructor <;> intros <;> first | rfl | assumption | (exfalso; simp_all; done)
theorem State.onPwm_keeps (s : State) (g) : Keeps [.pwm] s (s.onPwm g) := by
  constructor <;> intros <;> first | rfl | assumption | (exfalso; simp_all; done)
theorem State.onLoop_keeps (s : State) (g) : Keeps [.loop] s (s.onLoop g) := by
  constructor <;> intros <;> first | rfl | assumption | (exfalso; simp_all; done)
theorem State.onTiles_keeps (s : State) (g) : Keeps [.tiles] s (s.onTiles g) := by
  constructor <;> intros <;> first | rfl | assumption | (exfalso; simp_all; done)
theorem State.onMeas_keeps (s : State) (g) : Keeps [.meas] s (s.onMeas g) := by
  constructor <;> intros <;> first | rfl | assumption | (exfalso; simp_all; done)
theorem State.onTime_keeps (s : State) (g) : Keeps [.time] s (s.onTime g) := by
  constructor <;> intros <;> first | rfl | assumption | (exfalso; simp_all; done)
theorem State.onAcq_keeps (s : State) (g) : Keeps [.acq] s (s.onAcq g) := by
  constructor <;> intros <;> first | rfl | assumption | (exfalso; simp_all; done)
theorem State.onProt_keeps (s : State) (g) : Keeps [.prot] s (s.onProt g) := by
  constructor <;> intros <;> first | rfl | assumption | (exfalso; simp_all; done)
theorem State.onNet_keeps (s : State) (g) : Keeps [.net] s (s.onNet g) := by
  constructor <;> intros <;> first | rfl | assumption | (exfalso; simp_all; done)
theorem State.onSafe_keeps (s : State) (g) : Keeps [.safe] s (s.onSafe g) := by
  constructor <;> intros <;> first | rfl | assumption | (exfalso; simp_all; done)
theorem State.onRed_keeps (s : State) (g) : Keeps [.red] s (s.onRed g) := by
  constructor <;> intros <;> first | rfl | assumption | (exfalso; simp_all; done)
theorem State.onGalley_keeps (s : State) (g) : Keeps [.galley] s (s.onGalley g) := by
  constructor <;> intros <;> first | rfl | assumption | (exfalso; simp_all; done)
theorem State.onSpare_keeps (s : State) (g) : Keeps [.spare] s (s.onSpare g) := by
  constructor <;> intros <;> first | rfl | assumption | (exfalso; simp_all; done)
theorem State.onDev_keeps (s : State) (g : Dev → Dev) (h : (g s.dev).variant = s.dev.variant) : Keeps [.dev] s (s.onDev g) := by
  constructor <;> intros <;> first | rfl | assumption | exact h | (exfalso; simp_all; done)
theorem State.onHost_keeps (s : State) (g : List Host.Cell → List Host.Cell) (h : Memory.wf s.host → Memory.wf (g s.host)) :
    Keeps [.host] s (s.onHost g) := by
  constructor <;> intros <;> first | rfl | assumption | (apply h; assumption) | (exfalso; simp_all; done)
theorem State.onFree_keeps (s : State) (g) : Keeps [.freeCtr] s (s.onFree g) := by
  constructor <;> intros <;> first | rfl | assumption | (exfalso; simp_all; done)
theorem State.draw_keeps (s : State) : Keeps [.freeCtr] s s.draw.2 := by
  constructor <;> intros <;> first | rfl | assumption | (exfalso; simp_all; done)
theorem putBuf_keeps (a : Nat) (p : Bytes) (s : State) : Keeps [.host] s (putBuf a p s) :=
  State.onHost_keeps _ _ (memWrites_wf _ _ _)
theorem when_keeps {L : List Part} (b : Bool) (g : State → State) (s0 s : State) (h : Keeps L s0 s) (hg : Keeps L s (g s)) :
    Keeps L s0 (when b g s) := by
  cases b
  · exact h
  · exact Keeps.step hg (by simp) h
theorem ite_keeps {c : Prop} [Decidable c] {L : List Part} (s a b : State) (ha : c → Keeps L s a) (hb : ¬c → Keeps L s b) :
    Keeps L s (if c then a else b) := by
  split
  · exact ha ‹_›
  · exact hb ‹_›
theorem elim_keeps {α : Type} {L : List Part} (o : Option α) (s a : State) (f : α → State) (ha : Keeps L s a) (hf : ∀ x, Keeps L s (f x)) :
    Keeps L s (o.elim a f) := by
  cases o
  · exact ha
  · exact hf _
theorem foldl_keeps {α : Type} {L : List Part} (g : State → α → State) (hg : ∀ s x, Keeps L s (g s x)) (l : List α) (s0 s : State)
    (h : Keeps L s0 s) : Keeps L s0 (l.foldl g s) := by
  induction l generalizing s with
  | nil => exact h
  | cons x r ih => exact ih _ (Keeps.step (hg s x) (by simp) h)
theorem foldr_keeps {α : Type} {L : List Part} (g : α → State → State) (hg : ∀ s x, Keeps L s (g x s)) (l : List α) (s0 s : State)
    (h : Keeps L s0 s) : Keeps L s0 (l.foldr g s) := by
  induction l with
  | nil => exact h
  | cons x r ih => exact Keeps.step (hg _ x) (by simp) ih

theorem logTake_fits (m : Mailboxes) (e : LogEntry) (l : List LogEntry) (h : m.log = (e :: l).take 1024) : LogFits m := by
  unfold LogFits
  rw [h, List.length_take]
  exact Nat.min_le_left _ _

theorem respond_log (r : Response) (s : State) : (respond r s).mb.log = s.mb.log := by
  unfold respond writeRsp
  simp only []
  split
  · split <;> rfl
  · rfl

theorem settle_log (n : Nat) (s : State) : (settle n s).mb.log = s.mb.log := by
  unfold settle
  simp only []
  split <;> rfl

theorem answer_logFits (opcode : Nat) (c : Cmd) (st : Status) (r : Bytes) (s : State) (h : LogFits s.mb) :
    LogFits (answer opcode c st r s).mb := by
  unfold answer
  simp only []
  unfold LogFits
  rw [settle_log]
  split
  · show (respond _ s).mb.log.length ≤ 1024
    rw [respond_log]
    exact h
  · exact logTake_fits _ _ _ rfl

theorem answer_keeps (opcode : Nat) (c : Cmd) (st : Status) (r : Bytes) (s : State) :
    Keeps [.host, .mb] s (answer opcode c st r s) := by
  constructor <;> intros <;> first | (simp; done) | (apply answer_wf; assumption) | (apply answer_logFits; assumption) | (simp; assumption) | (exfalso; simp_all; done)

theorem awaitFirst_keeps (opcode : Nat) (c : Cmd) (s : State) : Keeps [.mb] s (awaitFirst opcode c s) := by
  unfold awaitFirst
  refine Keeps.step (State.onMb_keeps _ _ (by exact id)) rfl ?_
  exact Keeps.refl _ _

theorem Answers.next {L : List Part} {s t : State} (h : Keeps L s t) : Answers L s (.next t) := ⟨t, rfl, h⟩

theorem Answers.ite {c : Prop} [Decidable c] {L : List Part} (s : State) (a b : Out) (ha : c → Answers L s a)
    (hb : ¬c → Answers L s b) : Answers L s (if c then a else b) := by
  split
  · exact ha ‹_›
  · exact hb ‹_›

/-- A command that passes checks 2 to 9 has legal parameters. -/
theorem Gate.fail_par {g : Gate} {c : Cmd} {s : State} (h : g.fail c s = none) : g.par = true := by
  unfold Gate.fail at h
  repeat' split at h
  all_goals simp_all

/-- A mailbox command touches what its action, run once the checks pass, touches, the mailboxes and host memory. -/
theorem Answers.runCmdPar {L : List Part} (g : Gate) (c : Cmd) (s : State) (act : State → Reply)
    (h : g.par = true → Keeps L s (act s).st) (hL : ([Part.host, .mb].all fun p => L.contains p) = true) :
    Answers L s (Machine.runCmd g c s act) := by
  have hm : ([Part.mb].all fun p => L.contains p) = true := by
    simp at hL ⊢
    exact hL.2
  unfold Machine.runCmd
  split
  · exact ⟨_, rfl, Keeps.refl _ _⟩
  · split
    · exact ⟨_, rfl, Keeps.mono (answer_keeps ..) hL⟩
    · split
      · exact ⟨_, rfl, Keeps.mono (answer_keeps ..) hL⟩
      · exact ⟨_, rfl, Keeps.mono (answer_keeps ..) hL⟩
      · rename_i e
        split
        · exact ⟨_, rfl, Keeps.step (awaitFirst_keeps ..) hm (h (Gate.fail_par e))⟩
        · exact ⟨_, rfl, Keeps.step (answer_keeps ..) hL (h (Gate.fail_par e))⟩

/-- A mailbox command touches what its action touches, the mailboxes and host memory. -/
theorem Answers.runCmd {L : List Part} (g : Gate) (c : Cmd) (s : State) (act : State → Reply) (h : ∀ u, Keeps L u (act u).st)
    (hL : ([Part.host, .mb].all fun p => L.contains p) = true) : Answers L s (Machine.runCmd g c s act) := by
  rcases runCmd_cases g c s act with e | ⟨st, r, e⟩ | e | e
  · exact ⟨_, e, Keeps.refl _ _⟩
  · exact ⟨_, e, Keeps.mono (answer_keeps ..) hL⟩
  · refine ⟨_, e, Keeps.step (awaitFirst_keeps ..) ?_ (h s)⟩
    simp at hL ⊢
    exact hL.2
  · exact ⟨_, e, Keeps.step (answer_keeps ..) hL (h s)⟩

end Sys2Proof.Machine
end

