-- ==== Sys2Proof/Laws/KeepsOps.lean ====
section
/-! SUPPORT. What each shared operation can touch: from `s` to its result nothing outside the parts listed has changed, the queue and
the variant stay, and host memory keeps its canonical form. One lemma per operation, in the order of the files. -/

namespace Sys2Proof.Machine

open Sys2Proof

/-! ### Ops -/

theorem post_keeps (m : FaultMsg) (s : State) : Keeps [.fault] s (post m s) := by
  unfold post
  refine ite_keeps _ _ _ ?_ ?_
  · intro a0
    refine Keeps.step (State.onFault_keeps ..) rfl ?_
    exact Keeps.refl _ _
  · intro a1
    refine ite_keeps _ _ _ ?_ ?_
    · intro a2
      exact Keeps.refl _ _
    · intro a3
      refine ite_keeps _ _ _ ?_ ?_
      · intro a4
        refine Keeps.step (State.onFault_keeps ..) rfl ?_
        exact Keeps.refl _ _
      · intro a5
        refine Keeps.step (State.onFault_keeps ..) rfl ?_
        exact Keeps.refl _ _

theorem raise_keeps (die : Nat) (block : Nat) (kind : Nat) (cls : FClass) (addr : Nat) (d : List Nat) (s : State) : Keeps [.fault] s (raise die block kind cls addr d s) := by
  unfold raise
  refine Keeps.step (post_keeps ..) rfl ?_
  exact Keeps.refl _ _

theorem giveWay_keeps (cause : Nat) (obj : Nat) (rank : Nat) (dest : Nat) (s : State) : Keeps [.fault] s (giveWay cause obj rank dest s) := by
  unfold giveWay
  refine Keeps.step (State.onFault_keeps ..) rfl ?_
  exact Keeps.refl _ _

theorem journal_keeps (kind : Nat) (die : Nat) (obj : Nat) (detail : Nat) (seq : Nat) (v : Nat) (s : State) : Keeps [.galley] s (journal kind die obj detail seq v s) := by
  unfold journal
  refine ite_keeps _ _ _ ?_ ?_
  · intro a0
    exact Keeps.refl _ _
  · intro a1
    refine Keeps.step (State.onGalley_keeps ..) rfl ?_
    exact Keeps.refl _ _

theorem xlSend_keeps (m : XlMsg) (s : State) : Keeps [.red] s (xlSend m s) := by
  unfold xlSend
  refine ite_keeps _ _ _ ?_ ?_
  · intro a0
    refine Keeps.step (State.onRed_keeps ..) rfl ?_
    exact Keeps.refl _ _
  · intro a1
    exact Keeps.refl _ _

theorem logAdd_keeps (opcode : Nat) (b10 : Nat) (b11 : Nat) (mb : Nat) (s : State)  : Keeps [.mb] s (logAdd opcode b10 b11 mb s) := by
  unfold logAdd
  refine Keeps.step (State.onMb_keeps _ _ (fun _ => logTake_fits _ _ _ rfl)) rfl ?_
  exact Keeps.refl _ _

theorem mbUpd_keeps (n : Nat) (f : MbBlock → MbBlock) (s : State) : Keeps [.mb] s (mbUpd n f s) := by
  unfold mbUpd
  refine Keeps.step (State.onMb_keeps _ _ (by exact id)) rfl ?_
  exact Keeps.refl _ _

theorem writeRsp_keeps (r : Response) (s : State) : Keeps [.host, .mb] s (writeRsp r s) := by
  unfold writeRsp
  extract_lets -lift +onlyGivenNames b0
  clear_value b0
  extract_lets -lift +onlyGivenNames s1
  have h_s1 : Keeps [.host, .mb] s s1 := by
    refine Keeps.step (putBuf_keeps ..) rfl ?_
    exact Keeps.refl _ _
  clear_value s1
  extract_lets -lift +onlyGivenNames s2
  have h_s2 : Keeps [.host, .mb] s s2 := by
    refine Keeps.step (mbUpd_keeps ..) rfl ?_
    assumption
  clear_value s2
  refine ite_keeps _ _ _ ?_ ?_
  · intro a3
    refine Keeps.step (State.onMb_keeps _ _ (by exact id)) rfl ?_
    assumption
  · intro a5
    assumption

theorem respond_keeps (r : Response) (s : State) : Keeps [.host, .mb] s (respond r s) := by
  unfold respond
  extract_lets -lift +onlyGivenNames b0
  clear_value b0
  refine ite_keeps _ _ _ ?_ ?_
  · intro a1
    refine Keeps.step (writeRsp_keeps ..) rfl ?_
    exact Keeps.refl _ _
  · intro a2
    refine Keeps.step (mbUpd_keeps ..) rfl ?_
    exact Keeps.refl _ _

theorem settle_keeps (n : Nat) (s : State) : Keeps [.mb] s (settle n s) := by
  unfold settle
  extract_lets -lift +onlyGivenNames b0
  clear_value b0
  refine ite_keeps _ _ _ ?_ ?_
  · intro a1
    refine Keeps.step (mbUpd_keeps ..) rfl ?_
    exact Keeps.refl _ _
  · intro a2
    exact Keeps.refl _ _

theorem release_keeps (mb : Nat) (tag : Nat) (seq : Nat) (s : State) : Keeps [.mb] s (release mb tag seq s) := by
  unfold release
  refine Keeps.step (State.onMb_keeps _ _ (by exact id)) rfl ?_
  exact Keeps.refl _ _

theorem goPending_keeps (g : Gate) (c : Cmd) (objs : List Obj) (arg : Nat) (work : Option (Status × Bytes)) (s : State) : Keeps [.mb] s (goPending g c objs arg work s) := by
  unfold goPending
  refine Keeps.step (State.onMb_keeps _ _ (by exact id)) rfl ?_
  exact Keeps.refl _ _

theorem endPending_keeps (p : PendingCmd → Bool) (st : Status) (result : Bytes) (s : State) : Keeps [.mb] s (endPending p st result s) := by
  unfold endPending
  refine Keeps.step (State.onMb_keeps _ _ (by exact id)) rfl ?_
  exact Keeps.refl _ _

theorem tookPending_keeps (p : PendingCmd → Bool) (s : State) : Keeps [.mb] s (tookPending p s) := by
  unfold tookPending
  refine Keeps.step (State.onMb_keeps _ _ (by exact id)) rfl ?_
  exact Keeps.refl _ _

theorem addTrigger_keeps (dest : DevState) (cause : Nat) (boundary : Nat) (s : State) : Keeps [.dev] s (addTrigger dest cause boundary s) := by
  unfold addTrigger
  refine Keeps.step (State.onDev_keeps (h := rfl) ..) rfl ?_
  exact Keeps.refl _ _

theorem stage_keeps (n : Nat) (p : Bytes) (s : State) : Keeps [.tick] s (stage n p s) := by
  unfold stage
  refine Keeps.step (State.onTick_keeps _ _ (by exact id)) rfl ?_
  exact Keeps.refl _ _

/-! ### TimeOps -/

theorem baseUpd_keeps (n : Nat) (f : TimeBase → TimeBase) (s : State) : Keeps [.time] s (baseUpd n f s) := by
  unfold baseUpd
  refine Keeps.step (State.onTime_keeps ..) rfl ?_
  exact Keeps.refl _ _

theorem advanceTime_keeps (us : Nat) (s : State) : Keeps [.link, .time] s (advanceTime us s) := by
  unfold advanceTime
  extract_lets -lift +onlyGivenNames d0
  clear_value d0
  extract_lets -lift +onlyGivenNames adv1
  refine ite_keeps _ _ _ ?_ ?_
  · intro a2
    exact Keeps.refl _ _
  · intro a3
    extract_lets -lift +onlyGivenNames s4
    have h_s4 : Keeps [.link, .time] s s4 := by
      try dsimp -zeta only [adv1]
      refine Keeps.step (baseUpd_keeps ..) rfl ?_
      try dsimp -zeta only [adv1]
      refine Keeps.step (baseUpd_keeps ..) rfl ?_
      try dsimp -zeta only [adv1]
      refine Keeps.step (baseUpd_keeps ..) rfl ?_
      try dsimp -zeta only [adv1]
      refine Keeps.step (baseUpd_keeps ..) rfl ?_
      exact Keeps.refl _ _
    clear_value s4
    refine Keeps.step (State.onLink_keeps ..) rfl ?_
    assumption

theorem timeEvent_keeps (kind : Nat) (d : List Nat) (s : State) : Keeps [.fault] s (timeEvent kind d s) := by
  unfold timeEvent
  refine Keeps.step (raise_keeps ..) rfl ?_
  exact Keeps.refl _ _

theorem setQual_keeps (q : TQual) (b : Nat) (s : State) : Keeps [.fault, .time] s (setQual q b s) := by
  unfold setQual
  extract_lets -lift +onlyGivenNames s0
  have h_s0 : Keeps [.fault, .time] s s0 := by
    refine Keeps.step (State.onTime_keeps ..) rfl ?_
    exact Keeps.refl _ _
  clear_value s0
  refine ite_keeps _ _ _ ?_ ?_
  · intro a1
    assumption
  · intro a2
    refine Keeps.step (timeEvent_keeps ..) rfl ?_
    assumption

theorem requal_keeps (s : State) : Keeps [.fault, .time] s (requal s) := by
  unfold requal
  extract_lets -lift +onlyGivenNames t0
  clear_value t0
  extract_lets -lift +onlyGivenNames b1
  clear_value b1
  split
  · exact Keeps.refl _ _
  · refine ite_keeps _ _ _ ?_ ?_
    · intro a2
      refine Keeps.step (setQual_keeps ..) rfl ?_
      exact Keeps.refl _ _
    · intro a3
      refine Keeps.step (setQual_keeps ..) rfl ?_
      exact Keeps.refl _ _
  · refine ite_keeps _ _ _ ?_ ?_
    · intro a4
      refine Keeps.step (setQual_keeps ..) rfl ?_
      exact Keeps.refl _ _
    · intro a5
      refine Keeps.step (setQual_keeps ..) rfl ?_
      exact Keeps.refl _ _
  · refine ite_keeps _ _ _ ?_ ?_
    · intro a6
      refine Keeps.step (setQual_keeps ..) rfl ?_
      exact Keeps.refl _ _
    · intro a7
      refine ite_keeps _ _ _ ?_ ?_
      · intro a8
        refine Keeps.step (setQual_keeps ..) rfl ?_
        exact Keeps.refl _ _
      · intro a9
        refine Keeps.step (setQual_keeps ..) rfl ?_
        exact Keeps.refl _ _
  · refine ite_keeps _ _ _ ?_ ?_
    · intro a10
      refine Keeps.step (setQual_keeps ..) rfl ?_
      exact Keeps.refl _ _
    · intro a11
      refine ite_keeps _ _ _ ?_ ?_
      · intro a12
        refine Keeps.step (setQual_keeps ..) rfl ?_
        exact Keeps.refl _ _
      · intro a13
        refine Keeps.step (setQual_keeps ..) rfl ?_
        exact Keeps.refl _ _
  · refine ite_keeps _ _ _ ?_ ?_
    · intro a14
      refine Keeps.step (setQual_keeps ..) rfl ?_
      exact Keeps.refl _ _
    · intro a15
      refine ite_keeps _ _ _ ?_ ?_
      · intro a16
        refine Keeps.step (setQual_keeps ..) rfl ?_
        exact Keeps.refl _ _
      · intro a17
        refine Keeps.step (setQual_keeps ..) rfl ?_
        exact Keeps.refl _ _

theorem stepTime_keeps (d : Int) (cause : Nat) (s : State) : Keeps [.fault, .time] s (stepTime d cause s) := by
  unfold stepTime
  refine Keeps.step (timeEvent_keeps ..) rfl ?_
  refine Keeps.step (baseUpd_keeps ..) rfl ?_
  exact Keeps.refl _ _

theorem freezeInc_keeps (s : State) : Keeps [.time] s (freezeInc s) := by
  unfold freezeInc
  refine ite_keeps _ _ _ ?_ ?_
  · intro a0
    exact Keeps.refl _ _
  · intro a1
    refine Keeps.step (baseUpd_keeps ..) rfl ?_
    exact Keeps.refl _ _

theorem servo_keeps (th : Int) (fed : Int) (s : State) : Keeps [.fault, .time] s (servo th fed s) := by
  unfold servo
  extract_lets -lift +onlyGivenNames t0
  clear_value t0
  extract_lets -lift +onlyGivenNames f1
  clear_value f1
  extract_lets -lift +onlyGivenNames y2
  clear_value y2
  extract_lets -lift +onlyGivenNames i3
  clear_value i3
  extract_lets -lift +onlyGivenNames y4
  clear_value y4
  extract_lets -lift +onlyGivenNames inside5
  clear_value inside5
  extract_lets -lift +onlyGivenNames inW6
  clear_value inW6
  extract_lets -lift +onlyGivenNames outW7
  clear_value outW7
  extract_lets -lift +onlyGivenNames ds8
  clear_value ds8
  extract_lets -lift +onlyGivenNames kept9
  clear_value kept9
  extract_lets -lift +onlyGivenNames s10
  have h_s10 : Keeps [.fault, .time] s s10 := by
    refine Keeps.step (State.onTime_keeps ..) rfl ?_
    exact Keeps.refl _ _
  clear_value s10
  refine Keeps.step (requal_keeps ..) rfl ?_
  refine Keeps.step (baseUpd_keeps ..) rfl ?_
  assumption

theorem stampAdd_keeps (e : TsEntry) (s : State) : Keeps [.mb, .fault, .time] s (stampAdd e s) := by
  unfold stampAdd
  extract_lets -lift +onlyGivenNames t0
  clear_value t0
  refine ite_keeps _ _ _ ?_ ?_
  · intro a1
    refine Keeps.step (State.onMb_keeps _ _ (by exact id)) rfl ?_
    refine Keeps.step (State.onTime_keeps ..) rfl ?_
    exact Keeps.refl _ _
  · intro a3
    extract_lets -lift +onlyGivenNames sec4
    clear_value sec4
    extract_lets -lift +onlyGivenNames s5
    have h_s5 : Keeps [.mb, .fault, .time] s s5 := by
      refine Keeps.step (State.onTime_keeps ..) rfl ?_
      exact Keeps.refl _ _
    clear_value s5
    refine ite_keeps _ _ _ ?_ ?_
    · intro a6
      assumption
    · intro a7
      refine Keeps.step (timeEvent_keeps ..) rfl ?_
      assumption

theorem tbIncWrite_keeps (n : Nat) (value : Word32) (s : State) : Keeps [.time] s (tbIncWrite n value s) := by
  unfold tbIncWrite
  extract_lets -lift +onlyGivenNames inc0
  clear_value inc0
  extract_lets -lift +onlyGivenNames slave1
  clear_value slave1
  extract_lets -lift +onlyGivenNames owned2
  clear_value owned2
  refine ite_keeps _ _ _ ?_ ?_
  · intro a3
    refine Keeps.step (State.onTime_keeps ..) rfl ?_
    exact Keeps.refl _ _
  · intro a4
    refine Keeps.step (baseUpd_keeps ..) rfl ?_
    exact Keeps.refl _ _

/-! ### AcqOps -/

theorem acqUpd_keeps (c : Nat) (f : AcqCh → AcqCh) (s : State) : Keeps [.acq] s (acqUpd c f s) := by
  unfold acqUpd
  refine Keeps.step (State.onAcq_keeps ..) rfl ?_
  exact Keeps.refl _ _

theorem acqEvent_keeps (kind : Nat) (cls : FClass) (addr : Nat) (d : List Nat) (s : State) : Keeps [.fault] s (acqEvent kind cls addr d s) := by
  unfold acqEvent
  refine Keeps.step (raise_keeps ..) rfl ?_
  exact Keeps.refl _ _

theorem noteMissed_keeps (c : Nat) (s : State) : Keeps [.fault, .acq] s (noteMissed c s) := by
  unfold noteMissed
  extract_lets -lift +onlyGivenNames first0
  clear_value first0
  refine when_keeps _ _ _ _ ?_ ?_
  · refine Keeps.step (acqUpd_keeps ..) rfl ?_
    exact Keeps.refl _ _
  · refine Keeps.step (acqEvent_keeps ..) rfl ?_
    exact Keeps.refl _ _

theorem freeSlot_keeps (c : Nat) (s : State) : Keeps [.fault, .acq] s (freeSlot c s) := by
  unfold freeSlot
  extract_lets -lift +onlyGivenNames x0
  clear_value x0
  split
  · refine ite_keeps _ _ _ ?_ ?_
    · intro a1
      exact Keeps.refl _ _
    · intro a2
      extract_lets -lift +onlyGivenNames first3
      clear_value first3
      refine when_keeps _ _ _ _ ?_ ?_
      · refine Keeps.step (acqUpd_keeps ..) rfl ?_
        exact Keeps.refl _ _
      · refine Keeps.step (acqEvent_keeps ..) rfl ?_
        exact Keeps.refl _ _
  · exact Keeps.refl _ _

theorem rearm_keeps (c : Nat) (s : State) : Keeps [.fault, .acq] s (rearm c s) := by
  unfold rearm
  extract_lets -lift +onlyGivenNames s0
  have h_s0 : Keeps [.fault, .acq] s s0 := by
    refine Keeps.step (freeSlot_keeps ..) rfl ?_
    exact Keeps.refl _ _
  clear_value s0
  extract_lets -lift +onlyGivenNames x1
  clear_value x1
  refine ite_keeps _ _ _ ?_ ?_
  · intro a2
    refine Keeps.step (acqUpd_keeps ..) rfl ?_
    assumption
  · intro a3
    refine Keeps.step (acqEvent_keeps ..) rfl ?_
    refine Keeps.step (acqUpd_keeps ..) rfl ?_
    assumption

theorem closeSegment_keeps (c : Nat) (samples : List Int) (cut : Bool) (excess : Bool) (s : State) : Keeps [.fault, .acq] s (closeSegment c samples cut excess s) := by
  unfold closeSegment
  extract_lets -lift +onlyGivenNames x0
  clear_value x0
  extract_lets -lift +onlyGivenNames k1
  clear_value k1
  split
  · exact Keeps.refl _ _
  · extract_lets -lift +onlyGivenNames g2
    clear_value g2
    extract_lets -lift +onlyGivenNames first3
    clear_value first3
    refine when_keeps _ _ _ _ ?_ ?_
    · refine Keeps.step (acqUpd_keeps ..) rfl ?_
      exact Keeps.refl _ _
    · refine Keeps.step (acqEvent_keeps ..) rfl ?_
      exact Keeps.refl _ _

theorem segRelease_keeps (ch : Nat) (seg : Nat) (s : State) : Keeps [.fault, .acq] s (segRelease ch seg s) := by
  unfold segRelease
  extract_lets -lift +onlyGivenNames s0
  have h_s0 : Keeps [.fault, .acq] s s0 := by
    refine Keeps.step (acqUpd_keeps ..) rfl ?_
    exact Keeps.refl _ _
  clear_value s0
  refine ite_keeps _ _ _ ?_ ?_
  · intro a1
    refine Keeps.step (rearm_keeps ..) rfl ?_
    assumption
  · intro a2
    assumption

theorem segsFree_keeps (mb : Nat) (tag : Nat) (seq : Nat) (s : State) : Keeps [.fault, .acq] s (segsFree mb tag seq s) := by
  unfold segsFree
  refine foldl_keeps _ ?_ _ _ _ ?_
  · intro a0 a1
    extract_lets -lift +onlyGivenNames due2
    clear_value due2
    refine foldl_keeps _ ?_ _ _ _ ?_
    · intro a3 a4
      refine Keeps.step (segRelease_keeps ..) rfl ?_
      exact Keeps.refl _ _
    · refine Keeps.step (acqUpd_keeps ..) rfl ?_
      exact Keeps.refl _ _
  · exact Keeps.refl _ _

/-! ### CdcOps -/

theorem cdcUpd_keeps (die : Nat) (code : Nat) (inst : Nat) (f : Crossing → Crossing) (s : State) : Keeps [.spare] s (cdcUpd die code inst f s) := by
  unfold cdcUpd
  refine Keeps.step (State.onSpare_keeps ..) rfl ?_
  exact Keeps.refl _ _

theorem cdcOverruns_keeps (s : State) : Keeps [.fault, .spare] s (cdcOverruns s) := by
  unfold cdcOverruns
  refine foldl_keeps _ ?_ _ _ _ ?_
  · intro a0 a1
    refine Keeps.step (raise_keeps ..) rfl ?_
    refine Keeps.step (State.onSpare_keeps ..) rfl ?_
    exact Keeps.refl _ _
  · exact Keeps.refl _ _

theorem cdcFlush_keeps (code : Nat) (side : Nat) (s : State) : Keeps [.freeCtr, .fault, .spare] s (cdcFlush code side s) := by
  unfold cdcFlush
  extract_lets -lift +onlyGivenNames n0
  extract_lets -lift +onlyGivenNames x1
  clear_value x1
  refine Keeps.step (raise_keeps ..) rfl ?_
  refine Keeps.step (cdcUpd_keeps ..) rfl ?_
  try dsimp -zeta only [n0]
  refine Keeps.step (State.draw_keeps ..) rfl ?_
  exact Keeps.refl _ _

theorem cdcRestart_keeps (s : State) : Keeps [.spare] s (cdcRestart s) := by
  unfold cdcRestart
  refine Keeps.step (State.onSpare_keeps ..) rfl ?_
  exact Keeps.refl _ _

/-! ### Acq -/

theorem acqDisarm_keeps (c : Nat) (s : State) : Keeps [.freeCtr, .fault, .acq] s (acqDisarm c s) := by
  unfold acqDisarm
  extract_lets -lift +onlyGivenNames x0
  clear_value x0
  extract_lets -lift +onlyGivenNames k1
  clear_value k1
  extract_lets -lift +onlyGivenNames s2
  have h_s2 : Keeps [.freeCtr, .fault, .acq] s s2 := by
    refine ite_keeps _ _ _ ?_ ?_
    · intro a3
      refine Keeps.step (State.onFree_keeps ..) rfl ?_
      refine Keeps.step (closeSegment_keeps ..) rfl ?_
      exact Keeps.refl _ _
    · intro a4
      exact Keeps.refl _ _
  clear_value s2
  refine Keeps.step (acqUpd_keeps ..) rfl ?_
  assumption

theorem acqArm_keeps (c : Nat) (clear : Bool) (ring : Bool) (nseg : Nat) (s : State) : Keeps [.fault, .acq] s (acqArm c clear ring nseg s) := by
  unfold acqArm
  extract_lets -lift +onlyGivenNames k0
  clear_value k0
  extract_lets -lift +onlyGivenNames s1
  have h_s1 : Keeps [.fault, .acq] s s1 := by
    refine ite_keeps _ _ _ ?_ ?_
    · intro a2
      refine Keeps.step (acqUpd_keeps ..) rfl ?_
      exact Keeps.refl _ _
    · intro a3
      exact Keeps.refl _ _
  clear_value s1
  refine Keeps.step (rearm_keeps ..) rfl ?_
  refine Keeps.step (acqUpd_keeps ..) rfl ?_
  assumption

theorem acqCapture_keeps (c : Nat) (cap : Capture) (s : State) : Keeps [.acq] s (acqCapture c cap s) := by
  unfold acqCapture
  refine Keeps.step (acqUpd_keeps ..) rfl ?_
  exact Keeps.refl _ _

theorem twSignal_keeps (ch : Nat) (kind : Nat) (stamp : Nat) (s : State) : Keeps [.spare] s (twSignal ch kind stamp s) := by
  unfold twSignal
  refine Keeps.step (cdcUpd_keeps ..) rfl ?_
  exact Keeps.refl _ _

/-! ### LinkOps -/

theorem portUpd_keeps (p : Nat) (f : Port → Port) (s : State) : Keeps [.link] s (portUpd p f s) := by
  unfold portUpd
  refine Keeps.step (State.onLink_keeps ..) rfl ?_
  exact Keeps.refl _ _

theorem cellUpd_keeps (cid : Nat) (f : CellCtx → CellCtx) (s : State) : Keeps [.link] s (cellUpd cid f s) := by
  unfold cellUpd
  refine Keeps.step (State.onLink_keeps ..) rfl ?_
  exact Keeps.refl _ _

theorem linkEvent_keeps (p : Nat) (kind : Nat) (cls : FClass) (addr : Nat) (d : List Nat) (s : State) : Keeps [.fault] s (linkEvent p kind cls addr d s) := by
  unfold linkEvent
  refine Keeps.step (raise_keeps ..) rfl ?_
  exact Keeps.refl _ _

theorem setPortState_keeps (p : Nat) (st : PortState) (s : State) : Keeps [.fault, .link] s (setPortState p st s) := by
  unfold setPortState
  extract_lets -lift +onlyGivenNames old0
  clear_value old0
  refine ite_keeps _ _ _ ?_ ?_
  · intro a1
    exact Keeps.refl _ _
  · intro a2
    refine Keeps.step (linkEvent_keeps ..) rfl ?_
    refine Keeps.step (portUpd_keeps ..) rfl ?_
    exact Keeps.refl _ _

theorem sendLine_keeps (p : Nat) (idles : Nat) (ws : List LineWord) (s : State) : Keeps [.link] s (sendLine p idles ws s) := by
  unfold sendLine
  refine Keeps.step (portUpd_keeps ..) rfl ?_
  exact Keeps.refl _ _

theorem sendMsg_keeps (p : Nat) (m : LinkMsg) (n : Nat) (s : State) : Keeps [.link] s (sendMsg p m n s) := by
  unfold sendMsg
  extract_lets -lift +onlyGivenNames x0
  clear_value x0
  refine Keeps.step (portUpd_keeps ..) rfl ?_
  refine Keeps.step (sendLine_keeps ..) rfl ?_
  exact Keeps.refl _ _

theorem sendStop_keeps (p : Nat) (m : LinkMsg) (n : Nat) (s : State) : Keeps [.link] s (sendStop p m n s) := by
  unfold sendStop
  refine Keeps.step (portUpd_keeps ..) rfl ?_
  refine Keeps.step (sendMsg_keeps ..) rfl ?_
  exact Keeps.refl _ _

theorem sendBlock_keeps (p : Nat) (cause : Nat) (n : Nat) (s : State) : Keeps [.link] s (sendBlock p cause n s) := by
  unfold sendBlock
  refine Keeps.step (sendStop_keeps ..) rfl ?_
  exact Keeps.refl _ _

theorem sendSafe_keeps (p : Nat) (cause : Nat) (s : State) : Keeps [.link] s (sendSafe p cause s) := by
  unfold sendSafe
  refine Keeps.step (sendStop_keeps ..) rfl ?_
  exact Keeps.refl _ _

theorem sendTimeSet_keeps (p : Nat) (s : State) : Keeps [.fault, .link] s (sendTimeSet p s) := by
  unfold sendTimeSet
  refine Keeps.step (linkEvent_keeps ..) rfl ?_
  refine Keeps.step (portUpd_keeps ..) rfl ?_
  refine Keeps.step (sendMsg_keeps ..) rfl ?_
  exact Keeps.refl _ _

theorem onPorts_keeps {L : List Part} (f : Nat → State → State) (ih_f : ∀ n s, Keeps L s (f n s)) (s : State) : Keeps L s (onPorts f s) := by
  unfold onPorts
  exact foldl_keeps _ (fun s x => ih_f x s) _ _ _ (Keeps.refl _ _)

theorem blockPorts_keeps (cause : Nat) (s : State) : Keeps [.link] s (blockPorts cause s) := by
  unfold blockPorts
  refine Keeps.step (onPorts_keeps (L := [.link]) (ih_f := ?_) ..) rfl ?_
  · intro a0 a1
    refine Keeps.step (sendBlock_keeps ..) rfl ?_
    exact Keeps.refl _ _
  · exact Keeps.refl _ _

theorem safePorts_keeps (cause : Nat) (s : State) : Keeps [.link] s (safePorts cause s) := by
  unfold safePorts
  refine Keeps.step (onPorts_keeps (L := [.link]) (ih_f := ?_) ..) rfl ?_
  · intro a0 a1
    refine Keeps.step (sendSafe_keeps ..) rfl ?_
    exact Keeps.refl _ _
  · exact Keeps.refl _ _

theorem blockAll_keeps (cause : Nat) (s : State) : Keeps [.link, .red] s (blockAll cause s) := by
  unfold blockAll
  refine Keeps.step (xlSend_keeps ..) rfl ?_
  refine Keeps.step (blockPorts_keeps ..) rfl ?_
  exact Keeps.refl _ _

theorem safeAll_keeps (cause : Nat) (s : State) : Keeps [.link, .red] s (safeAll cause s) := by
  unfold safeAll
  refine Keeps.step (xlSend_keeps ..) rfl ?_
  refine Keeps.step (safePorts_keeps ..) rfl ?_
  exact Keeps.refl _ _

theorem endPortPending_keeps (p : Nat) (st : Status) (result : Bytes) (s : State) : Keeps [.mb] s (endPortPending p st result s) := by
  unfold endPortPending
  refine Keeps.step (endPending_keeps ..) rfl ?_
  exact Keeps.refl _ _

theorem portDown_keeps (p : Nat) (cause : Nat) (s : State) : Keeps [.mb, .fault, .link] s (portDown p cause s) := by
  unfold portDown
  refine ite_keeps _ _ _ ?_ ?_
  · intro a0
    exact Keeps.refl _ _
  · intro a1
    extract_lets -lift +onlyGivenNames s2
    have h_s2 : Keeps [.mb, .fault, .link] s s2 := by
      refine ite_keeps _ _ _ ?_ ?_
      · intro a3
        refine Keeps.step (sendBlock_keeps ..) rfl ?_
        exact Keeps.refl _ _
      · intro a4
        exact Keeps.refl _ _
    clear_value s2
    refine Keeps.step (endPortPending_keeps ..) rfl ?_
    refine Keeps.step (portUpd_keeps ..) rfl ?_
    refine Keeps.step (setPortState_keeps ..) rfl ?_
    assumption

theorem allPortsDown_keeps (cause : Nat) (s : State) : Keeps [.mb, .fault, .link] s (allPortsDown cause s) := by
  unfold allPortsDown
  refine foldl_keeps _ ?_ _ _ _ ?_
  · intro a0 a1
    refine Keeps.step (portDown_keeps ..) rfl ?_
    exact Keeps.refl _ _
  · exact Keeps.refl _ _

theorem portSilent_keeps (p : Nat) (s : State) : Keeps [.mb, .fault, .link] s (portSilent p s) := by
  unfold portSilent
  refine ite_keeps _ _ _ ?_ ?_
  · intro a0
    exact Keeps.refl _ _
  · intro a1
    refine Keeps.step (endPortPending_keeps ..) rfl ?_
    refine Keeps.step (setPortState_keeps ..) rfl ?_
    exact Keeps.refl _ _

theorem pushDelay_keeps (p : Nat) (slot : Nat) (code : Nat) (arg : Nat) (s : State) : Keeps [.link] s (pushDelay p slot code arg s) := by
  unfold pushDelay
  extract_lets -lift +onlyGivenNames w0
  clear_value w0
  extract_lets -lift +onlyGivenNames same1
  clear_value same1
  extract_lets -lift +onlyGivenNames swap2
  clear_value swap2
  refine Keeps.step (portUpd_keeps ..) rfl ?_
  exact Keeps.refl _ _

theorem pushMgmt_keeps (p : Nat) (slot : Nat) (code : Nat) (arg : Nat) (s : State) : Keeps [.link] s (pushMgmt p slot code arg s) := by
  unfold pushMgmt
  refine Keeps.step (portUpd_keeps ..) rfl ?_
  exact Keeps.refl _ _

theorem pushSafeState_keeps (cid : Nat) (s : State) : Keeps [.link] s (pushSafeState cid s) := by
  unfold pushSafeState
  refine Keeps.step (pushMgmt_keeps ..) rfl ?_
  exact Keeps.refl _ _

theorem minOffset_keeps (p : Nat) (s : State) : Keeps [.fault, .link] s (minOffset p s) := by
  unfold minOffset
  extract_lets -lift +onlyGivenNames d0
  clear_value d0
  extract_lets -lift +onlyGivenNames off1
  clear_value off1
  refine ite_keeps _ _ _ ?_ ?_
  · intro a2
    exact Keeps.refl _ _
  · intro a3
    refine Keeps.step (linkEvent_keeps ..) rfl ?_
    refine Keeps.step (portUpd_keeps ..) rfl ?_
    exact Keeps.refl _ _

theorem setHealth_keeps (cid : Nat) (h : Health) (cause : Nat) (s : State) : Keeps [.fault, .link] s (setHealth cid h cause s) := by
  unfold setHealth
  extract_lets -lift +onlyGivenNames c0
  clear_value c0
  refine ite_keeps _ _ _ ?_ ?_
  · intro a1
    exact Keeps.refl _ _
  · intro a2
    extract_lets -lift +onlyGivenNames left3
    clear_value left3
    refine Keeps.step (raise_keeps ..) rfl ?_
    refine Keeps.step (cellUpd_keeps ..) rfl ?_
    exact Keeps.refl _ _

theorem detect_keeps (cid : Nat) (h : Health) (cause : Nat) (s : State) : Keeps [.link] s (detect cid h cause s) := by
  unfold detect
  refine Keeps.step (cellUpd_keeps ..) rfl ?_
  exact Keeps.refl _ _

theorem unreachable_keeps (cid : Nat) (cause : Nat) (dUp : Nat) (s : State) : Keeps [.fault, .link] s (unreachable cid cause dUp s) := by
  unfold unreachable
  refine Keeps.step (detect_keeps ..) rfl ?_
  refine Keeps.step (linkEvent_keeps ..) rfl ?_
  exact Keeps.refl _ _

theorem noteLimits_keeps (cid : Nat) (dDown : Nat) (dUp : Nat) (s : State) : Keeps [.link] s (noteLimits cid dDown dUp s) := by
  unfold noteLimits
  refine Keeps.step (cellUpd_keeps ..) rfl ?_
  exact Keeps.refl _ _

theorem markCell_keeps (cid : Nat) (s : State) : Keeps [.fault, .link] s (markCell cid s) := by
  unfold markCell
  extract_lets -lift +onlyGivenNames c0
  clear_value c0
  refine Keeps.step (cellUpd_keeps ..) rfl ?_
  refine when_keeps _ _ _ _ ?_ ?_
  · exact Keeps.refl _ _
  · exact Keeps.refl _ _

theorem reportEvents_keeps (cid : Nat) (first : Bool) (old : Word64) (new : Word64) (s : State) : Keeps [.fault, .link] s (reportEvents cid first old new s) := by
  unfold reportEvents
  extract_lets -lift +onlyGivenNames fl0
  clear_value fl0
  extract_lets -lift +onlyGivenNames rose1
  clear_value rose1
  extract_lets -lift +onlyGivenNames s2
  have h_s2 : Keeps [.fault, .link] s s2 := by
    refine when_keeps _ _ _ _ ?_ ?_
    · exact Keeps.refl _ _
    · refine Keeps.step (raise_keeps ..) rfl ?_
      exact Keeps.refl _ _
  clear_value s2
  extract_lets -lift +onlyGivenNames step3
  clear_value step3
  extract_lets -lift +onlyGivenNames l4
  clear_value l4
  extract_lets -lift +onlyGivenNames adv5
  clear_value adv5
  refine ite_keeps _ _ _ ?_ ?_
  · intro a6
    refine Keeps.step (raise_keeps ..) rfl ?_
    refine Keeps.step (cellUpd_keeps ..) rfl ?_
    assumption
  · intro a7
    refine Keeps.step (cellUpd_keeps ..) rfl ?_
    assumption

theorem selCheck_keeps (cid : Nat) (r : Word64) (s : State) : Keeps [.link] s (selCheck cid r s) := by
  unfold selCheck
  refine Keeps.step (cellUpd_keeps ..) rfl ?_
  exact Keeps.refl _ _

theorem detectedNow_keeps (cid : Nat) (s : State) : Keeps [.fault, .link] s (detectedNow cid s) := by
  unfold detectedNow
  extract_lets -lift +onlyGivenNames c0
  clear_value c0
  split
  · refine ite_keeps _ _ _ ?_ ?_
    · intro a1
      refine Keeps.step (setHealth_keeps ..) rfl ?_
      exact Keeps.refl _ _
    · intro a2
      refine Keeps.step (cellUpd_keeps ..) rfl ?_
      exact Keeps.refl _ _
  · exact Keeps.refl _ _

theorem judgeReport_keeps (cid : Nat) (ok : Bool) (s : State) : Keeps [.fault, .link] s (judgeReport cid ok s) := by
  unfold judgeReport
  extract_lets -lift +onlyGivenNames c0
  clear_value c0
  split
  · exact Keeps.refl _ _
  · refine Keeps.step (cellUpd_keeps ..) rfl ?_
    exact Keeps.refl _ _
  · extract_lets -lift +onlyGivenNames s1
    have h_s1 : Keeps [.fault, .link] s s1 := by
      refine Keeps.step (cellUpd_keeps ..) rfl ?_
      exact Keeps.refl _ _
    clear_value s1
    refine ite_keeps _ _ _ ?_ ?_
    · intro a2
      assumption
    · intro a3
      refine ite_keeps _ _ _ ?_ ?_
      · intro a4
        refine Keeps.step (setHealth_keeps ..) rfl ?_
        assumption
      · intro a5
        refine Keeps.step (setHealth_keeps ..) rfl ?_
        assumption

theorem cellCrossing_keeps (cid : Nat) (s : State) : Keeps [.fault, .link] s (cellCrossing cid s) := by
  unfold cellCrossing
  extract_lets -lift +onlyGivenNames c0
  clear_value c0
  extract_lets -lift +onlyGivenNames hist1
  clear_value hist1
  split
  · refine Keeps.step (detectedNow_keeps ..) rfl ?_
    refine Keeps.step (cellUpd_keeps ..) rfl ?_
    exact Keeps.refl _ _
  · extract_lets -lift +onlyGivenNames s2
    have h_s2 : Keeps [.fault, .link] s s2 := by
      refine Keeps.step (cellUpd_keeps ..) rfl ?_
      exact Keeps.refl _ _
    clear_value s2
    extract_lets -lift +onlyGivenNames s3
    have h_s3 : Keeps [.fault, .link] s s3 := by
      refine Keeps.step (selCheck_keeps ..) rfl ?_
      refine Keeps.step (reportEvents_keeps ..) rfl ?_
      assumption
    clear_value s3
    split
    · refine Keeps.step (setHealth_keeps ..) rfl ?_
      assumption
    · refine ite_keeps _ _ _ ?_ ?_
      · intro a4
        refine Keeps.step (detectedNow_keeps ..) rfl ?_
        assumption
      · intro a5
        refine Keeps.step (judgeReport_keeps ..) rfl ?_
        assumption

theorem healthBoundary_keeps (s : State) : Keeps [.mb, .fault, .link] s (healthBoundary s) := by
  unfold healthBoundary
  extract_lets -lift +onlyGivenNames due0
  clear_value due0
  extract_lets -lift +onlyGivenNames s1
  have h_s1 : Keeps [.mb, .fault, .link] s s1 := by
    refine Keeps.step (State.onLink_keeps ..) rfl ?_
    exact Keeps.refl _ _
  clear_value s1
  refine foldl_keeps _ ?_ _ _ _ ?_
  · intro a2 a3
    extract_lets -lift +onlyGivenNames st4
    clear_value st4
    extract_lets -lift +onlyGivenNames u5
    have h_u5 : Keeps [.mb, .fault, .link] a2 u5 := by
      dsimp -zeta only [u5]
      split
      · refine Keeps.step (cellUpd_keeps ..) rfl ?_
        refine Keeps.step (setHealth_keeps ..) rfl ?_
        exact Keeps.refl _ _
      · refine Keeps.step (setHealth_keeps ..) rfl ?_
        exact Keeps.refl _ _
    clear_value u5
    refine Keeps.step (endPending_keeps ..) rfl ?_
    assumption
  · assumption

theorem startRun_keeps (p : Nat) (slot : Nat) (attempt : Nat) (rerun : Bool) (s : State) : Keeps [.link] s (startRun p slot attempt rerun s) := by
  unfold startRun
  refine Keeps.step (portUpd_keeps ..) rfl ?_
  exact Keeps.refl _ _

theorem nextRun_keeps (p : Nat) (rerun : Bool) (s : State) : Keeps [.link] s (nextRun p rerun s) := by
  unfold nextRun
  extract_lets -lift +onlyGivenNames s0
  have h_s0 : Keeps [.link] s s0 := by
    refine Keeps.step (portUpd_keeps ..) rfl ?_
    exact Keeps.refl _ _
  clear_value s0
  refine ite_keeps _ _ _ ?_ ?_
  · intro a1
    assumption
  · intro a2
    split
    · refine Keeps.step (startRun_keeps ..) rfl ?_
      assumption
    · assumption

theorem triedCell_keeps (cid : Nat) (s : State) : Keeps [.link] s (triedCell cid s) := by
  unfold triedCell
  refine Keeps.step (cellUpd_keeps ..) rfl ?_
  exact Keeps.refl _ _

theorem rangedOk_keeps (p : Nat) (slot : Nat) (dd : Nat) (du : Nat) (s : State) : Keeps [.fault, .link] s (rangedOk p slot dd du s) := by
  unfold rangedOk
  extract_lets -lift +onlyGivenNames cid0
  clear_value cid0
  extract_lets -lift +onlyGivenNames c1
  clear_value c1
  extract_lets -lift +onlyGivenNames re2
  clear_value re2
  extract_lets -lift +onlyGivenNames s3
  have h_s3 : Keeps [.fault, .link] s s3 := by
    refine Keeps.step (cellUpd_keeps ..) rfl ?_
    refine Keeps.step (triedCell_keeps ..) rfl ?_
    exact Keeps.refl _ _
  clear_value s3
  extract_lets -lift +onlyGivenNames s4
  have h_s4 : Keeps [.fault, .link] s s4 := by
    refine Keeps.step (pushSafeState_keeps ..) rfl ?_
    refine Keeps.step (pushDelay_keeps ..) rfl ?_
    refine Keeps.step (pushDelay_keeps ..) rfl ?_
    assumption
  clear_value s4
  refine Keeps.step (minOffset_keeps ..) rfl ?_
  refine when_keeps _ _ _ _ ?_ ?_
  · assumption
  · refine Keeps.step (pushMgmt_keeps ..) rfl ?_
    exact Keeps.refl _ _

theorem rangedNot_keeps (p : Nat) (r : RangeRun) (cause : Nat) (dUp : Nat) (s : State) : Keeps [.fault, .link] s (rangedNot p r cause dUp s) := by
  unfold rangedNot
  extract_lets -lift +onlyGivenNames cid0
  clear_value cid0
  refine Keeps.step (nextRun_keeps ..) rfl ?_
  refine Keeps.step (minOffset_keeps ..) rfl ?_
  refine Keeps.step (unreachable_keeps ..) rfl ?_
  refine Keeps.step (triedCell_keeps ..) rfl ?_
  exact Keeps.refl _ _

theorem judgeRun_keeps (p : Nat) (r : RangeRun) (s : State) : Keeps [.fault, .link] s (judgeRun p r s) := by
  unfold judgeRun
  extract_lets -lift +onlyGivenNames cid0
  clear_value cid0
  extract_lets -lift +onlyGivenNames vs1
  clear_value vs1
  extract_lets -lift +onlyGivenNames span2
  clear_value span2
  refine ite_keeps _ _ _ ?_ ?_
  · intro a3
    extract_lets -lift +onlyGivenNames d4
    clear_value d4
    extract_lets -lift +onlyGivenNames dd5
    clear_value dd5
    extract_lets -lift +onlyGivenNames du6
    clear_value du6
    split
    · refine Keeps.step (rangedNot_keeps ..) rfl ?_
      refine Keeps.step (noteLimits_keeps ..) rfl ?_
      refine Keeps.step (cellUpd_keeps ..) rfl ?_
      exact Keeps.refl _ _
    · refine Keeps.step (nextRun_keeps ..) rfl ?_
      refine Keeps.step (rangedOk_keeps ..) rfl ?_
      exact Keeps.refl _ _
  · intro a7
    refine ite_keeps _ _ _ ?_ ?_
    · intro a8
      refine Keeps.step (startRun_keeps ..) rfl ?_
      exact Keeps.refl _ _
    · intro a9
      refine Keeps.step (rangedNot_keeps ..) rfl ?_
      exact Keeps.refl _ _

theorem correct_keeps (cid : Nat) (sum : Int) (n : Nat) (s : State) : Keeps [.fault, .link] s (correct cid sum n s) := by
  unfold correct
  extract_lets -lift +onlyGivenNames p0
  clear_value p0
  extract_lets -lift +onlyGivenNames slot1
  clear_value slot1
  extract_lets -lift +onlyGivenNames half2
  clear_value half2
  extract_lets -lift +onlyGivenNames c3
  clear_value c3
  extract_lets -lift +onlyGivenNames dd4
  clear_value dd4
  extract_lets -lift +onlyGivenNames du5
  clear_value du5
  extract_lets -lift +onlyGivenNames s6
  have h_s6 : Keeps [.fault, .link] s s6 := by
    refine Keeps.step (pushDelay_keeps ..) rfl ?_
    refine Keeps.step (pushDelay_keeps ..) rfl ?_
    refine Keeps.step (noteLimits_keeps ..) rfl ?_
    refine Keeps.step (cellUpd_keeps ..) rfl ?_
    exact Keeps.refl _ _
  clear_value s6
  extract_lets -lift +onlyGivenNames s7
  have h_s7 : Keeps [.fault, .link] s s7 := by
    refine Keeps.step (portUpd_keeps ..) rfl ?_
    assumption
  clear_value s7
  refine Keeps.step (minOffset_keeps ..) rfl ?_
  refine when_keeps _ _ _ _ ?_ ?_
  · assumption
  · refine Keeps.step (markCell_keeps ..) rfl ?_
    exact Keeps.refl _ _

theorem track_keeps (cid : Nat) (e : Int) (s : State) : Keeps [.fault, .link] s (track cid e s) := by
  unfold track
  extract_lets -lift +onlyGivenNames l0
  clear_value l0
  extract_lets -lift +onlyGivenNames s1
  have h_s1 : Keeps [.fault, .link] s s1 := by
    refine Keeps.step (cellUpd_keeps ..) rfl ?_
    exact Keeps.refl _ _
  clear_value s1
  refine ite_keeps _ _ _ ?_ ?_
  · intro a2
    refine Keeps.step (linkEvent_keeps ..) rfl ?_
    refine Keeps.step (correct_keeps ..) rfl ?_
    assumption
  · intro a3
    refine ite_keeps _ _ _ ?_ ?_
    · intro a4
      refine Keeps.step (correct_keeps ..) rfl ?_
      assumption
    · intro a5
      assumption

/-! ### Cell -/

theorem ctlUpd_keeps (cid : Nat) (f : CellCtl → CellCtl) (s : State) : Keeps [.cells] s (ctlUpd cid f s) := by
  unfold ctlUpd
  refine Keeps.step (State.onCells_keeps ..) rfl ?_
  exact Keeps.refl _ _

theorem cellsBoundary_keeps (t : Nat) (s : State) : Keeps [.cells] s (cellsBoundary t s) := by
  unfold cellsBoundary
  refine Keeps.step (State.onCells_keeps ..) rfl ?_
  exact Keeps.refl _ _

/-! ### AieOps -/

theorem armUpd_keeps (a : Nat) (f : ArmSt → ArmSt) (s : State) : Keeps [.aie] s (armUpd a f s) := by
  unfold armUpd
  refine Keeps.step (State.onAie_keeps ..) rfl ?_
  exact Keeps.refl _ _

theorem aieUpd_keeps (cid : Nat) (f : AieCell → AieCell) (s : State) : Keeps [.aie] s (aieUpd cid f s) := by
  unfold aieUpd
  refine Keeps.step (State.onAie_keeps ..) rfl ?_
  exact Keeps.refl _ _

theorem aieEvent_keeps (a : Nat) (kind : Nat) (cls : FClass) (addr : Nat) (d : List Nat) (s : State) : Keeps [.fault] s (aieEvent a kind cls addr d s) := by
  unfold aieEvent
  refine Keeps.step (raise_keeps ..) rfl ?_
  exact Keeps.refl _ _

theorem controlledBlock_keeps (s : State) : Keeps [.dev] s (controlledBlock s) := by
  unfold controlledBlock
  refine ite_keeps _ _ _ ?_ ?_
  · intro a0
    refine Keeps.step (addTrigger_keeps ..) rfl ?_
    exact Keeps.refl _ _
  · intro a1
    exact Keeps.refl _ _

theorem aieRestore_keeps (cid : Nat) (identity : Nat) (s : State) : Keeps [.aie] s (aieRestore cid identity s) := by
  unfold aieRestore
  split
  · refine Keeps.step (aieUpd_keeps ..) rfl ?_
    exact Keeps.refl _ _
  · refine Keeps.step (aieUpd_keeps ..) rfl ?_
    exact Keeps.refl _ _

theorem wearSave_keeps (s : State) : Keeps [.aie] s (wearSave s) := by
  unfold wearSave
  refine ite_keeps _ _ _ ?_ ?_
  · intro a0
    exact Keeps.refl _ _
  · intro a1
    refine foldl_keeps _ ?_ _ _ _ ?_
    · intro a2 a3
      split
      · exact Keeps.refl _ _
      · extract_lets -lift +onlyGivenNames x4
        clear_value x4
        extract_lets -lift +onlyGivenNames id5
        clear_value id5
        refine Keeps.step (State.onAie_keeps ..) rfl ?_
        exact Keeps.refl _ _
    · exact Keeps.refl _ _

theorem predictCell_keeps (a : Nat) (cid : Nat) (i : Int) (k : Int) (lim : Nat) (amps : Nat) (s : State) : Keeps [.fault, .aie] s (predictCell a cid i k lim amps s) := by
  unfold predictCell
  extract_lets -lift +onlyGivenNames c0
  clear_value c0
  extract_lets -lift +onlyGivenNames x1
  clear_value x1
  extract_lets -lift +onlyGivenNames entering2
  clear_value entering2
  extract_lets -lift +onlyGivenNames leaving3
  clear_value leaving3
  extract_lets -lift +onlyGivenNames x4
  clear_value x4
  extract_lets -lift +onlyGivenNames v5
  clear_value v5
  extract_lets -lift +onlyGivenNames stale6
  clear_value stale6
  extract_lets -lift +onlyGivenNames held7
  clear_value held7
  extract_lets -lift +onlyGivenNames ins8
  clear_value ins8
  extract_lets -lift +onlyGivenNames s9
  have h_s9 : Keeps [.fault, .aie] s s9 := by
    refine Keeps.step (aieUpd_keeps ..) rfl ?_
    exact Keeps.refl _ _
  clear_value s9
  refine ite_keeps _ _ _ ?_ ?_
  · intro a10
    refine Keeps.step (armUpd_keeps ..) rfl ?_
    refine Keeps.step (aieEvent_keeps ..) rfl ?_
    assumption
  · intro a11
    refine ite_keeps _ _ _ ?_ ?_
    · intro a12
      refine Keeps.step (aieEvent_keeps ..) rfl ?_
      assumption
    · intro a13
      assumption

theorem genUpd_keeps (a : Nat) (f : ArmGen → ArmGen) (s : State) : Keeps [.pwm] s (genUpd a f s) := by
  unfold genUpd
  refine Keeps.step (State.onPwm_keeps ..) rfl ?_
  exact Keeps.refl _ _

theorem desigTake_keeps (a : Nat) (d : Option Nat) (s : State) : Keeps [.pwm] s (desigTake a d s) := by
  unfold desigTake
  split
  · extract_lets -lift +onlyGivenNames p0
    clear_value p0
    refine ite_keeps _ _ _ ?_ ?_
    · intro a1
      exact Keeps.refl _ _
    · intro a2
      refine Keeps.step (genUpd_keeps ..) rfl ?_
      exact Keeps.refl _ _
  · refine Keeps.step (genUpd_keeps ..) rfl ?_
    exact Keeps.refl _ _

theorem armSelect_keeps (a : Nat) (c : ArmCfg) (vref : Int) (i : Int) (s : State) : Keeps [.fault, .aie, .pwm] s (armSelect a c vref i s) := by
  unfold armSelect
  extract_lets -lift +onlyGivenNames vs0
  clear_value vs0
  extract_lets -lift +onlyGivenNames use1
  clear_value use1
  extract_lets -lift +onlyGivenNames desig2
  clear_value desig2
  extract_lets -lift +onlyGivenNames vbar3
  clear_value vbar3
  extract_lets -lift +onlyGivenNames hins4
  clear_value hins4
  extract_lets -lift +onlyGivenNames lv5
  clear_value lv5
  extract_lets -lift +onlyGivenNames plan6
  clear_value plan6
  extract_lets -lift +onlyGivenNames s7
  have h_s7 : Keeps [.fault, .aie, .pwm] s s7 := by
    refine Keeps.step (armUpd_keeps ..) rfl ?_
    refine Keeps.step (desigTake_keeps ..) rfl ?_
    exact Keeps.refl _ _
  clear_value s7
  refine when_keeps _ _ _ _ ?_ ?_
  · assumption
  · refine Keeps.step (aieEvent_keeps ..) rfl ?_
    exact Keeps.refl _ _

theorem levelNone_keeps (a : Nat) (s : State) : Keeps [.aie] s (levelNone a s) := by
  unfold levelNone
  refine Keeps.step (armUpd_keeps ..) rfl ?_
  exact Keeps.refl _ _

theorem cellDeclared_keeps (a : Nat) (c : Nat) (amps : Nat) (s : State) : Keeps [.aie] s (cellDeclared a c amps s) := by
  unfold cellDeclared
  refine Keeps.step (armUpd_keeps ..) rfl ?_
  refine Keeps.step (aieUpd_keeps ..) rfl ?_
  exact Keeps.refl _ _

theorem plausibility_keeps (a : Nat) (vm : Int) (old : Nat → Int) (amps : Nat) (s : State) : Keeps [.fault, .link, .aie] s (plausibility a vm old amps s) := by
  unfold plausibility
  extract_lets -lift +onlyGivenNames p0
  clear_value p0
  extract_lets -lift +onlyGivenNames use1
  clear_value use1
  extract_lets -lift +onlyGivenNames e2
  clear_value e2
  extract_lets -lift +onlyGivenNames tol3
  clear_value tol3
  extract_lets -lift +onlyGivenNames big4
  extract_lets -lift +onlyGivenNames st5
  clear_value st5
  extract_lets -lift +onlyGivenNames excess6
  clear_value excess6
  extract_lets -lift +onlyGivenNames under7
  clear_value under7
  extract_lets -lift +onlyGivenNames enter8
  clear_value enter8
  extract_lets -lift +onlyGivenNames leave9
  clear_value leave9
  extract_lets -lift +onlyGivenNames mm10
  clear_value mm10
  extract_lets -lift +onlyGivenNames u11
  clear_value u11
  extract_lets -lift +onlyGivenNames sus12
  clear_value sus12
  extract_lets -lift +onlyGivenNames suspect13
  clear_value suspect13
  extract_lets -lift +onlyGivenNames declare14
  clear_value declare14
  extract_lets -lift +onlyGivenNames ticks15
  clear_value ticks15
  extract_lets -lift +onlyGivenNames s16
  have h_s16 : Keeps [.fault, .link, .aie] s s16 := by
    refine Keeps.step (armUpd_keeps ..) rfl ?_
    exact Keeps.refl _ _
  clear_value s16
  extract_lets -lift +onlyGivenNames s17
  have h_s17 : Keeps [.fault, .link, .aie] s s17 := by
    refine when_keeps _ _ _ _ ?_ ?_
    · assumption
    · refine Keeps.step (aieEvent_keeps ..) rfl ?_
      exact Keeps.refl _ _
  clear_value s17
  extract_lets -lift +onlyGivenNames s18
  have h_s18 : Keeps [.fault, .link, .aie] s s18 := by
    refine when_keeps _ _ _ _ ?_ ?_
    · assumption
    · refine Keeps.step (aieEvent_keeps ..) rfl ?_
      exact Keeps.refl _ _
  clear_value s18
  split
  · refine Keeps.step (cellDeclared_keeps ..) rfl ?_
    refine Keeps.step (setHealth_keeps ..) rfl ?_
    refine Keeps.step (aieEvent_keeps ..) rfl ?_
    assumption
  · assumption

theorem noCheck_keeps (a : Nat) (s : State) : Keeps [.aie] s (noCheck a s) := by
  unfold noCheck
  refine Keeps.step (armUpd_keeps ..) rfl ?_
  exact Keeps.refl _ _

theorem armStage_keeps (a : Nat) (c : ArmCfg) (s : State) : Keeps [.dev, .tick, .fault, .aie] s (armStage a c s) := by
  unfold armStage
  extract_lets -lift +onlyGivenNames d0
  clear_value d0
  extract_lets -lift +onlyGivenNames st1
  clear_value st1
  extract_lets -lift +onlyGivenNames nav2
  clear_value nav2
  extract_lets -lift +onlyGivenNames delta3
  clear_value delta3
  extract_lets -lift +onlyGivenNames dc4
  clear_value dc4
  split
  extract_lets -lift +onlyGivenNames changed5
  extract_lets -lift +onlyGivenNames s6
  have h_s6 : Keeps [.dev, .tick, .fault, .aie] s s6 := by
    refine Keeps.step (armUpd_keeps ..) rfl ?_
    exact Keeps.refl _ _
  clear_value s6
  extract_lets -lift +onlyGivenNames s7
  have h_s7 : Keeps [.dev, .tick, .fault, .aie] s s7 := by
    refine when_keeps _ _ _ _ ?_ ?_
    · assumption
    · refine Keeps.step (aieEvent_keeps ..) rfl ?_
      exact Keeps.refl _ _
  clear_value s7
  refine ite_keeps _ _ _ ?_ ?_
  · intro a8
    refine Keeps.step (aieEvent_keeps ..) rfl ?_
    refine Keeps.step (controlledBlock_keeps ..) rfl ?_
    assumption
  · intro a9
    assumption

theorem clampWindow_keeps (a : Nat) (c : ArmCfg) (s : State) : Keeps [.aie] s (clampWindow a c s) := by
  unfold clampWindow
  extract_lets -lift +onlyGivenNames d0
  clear_value d0
  extract_lets -lift +onlyGivenNames st1
  clear_value st1
  refine ite_keeps _ _ _ ?_ ?_
  · intro a2
    refine ite_keeps _ _ _ ?_ ?_
    · intro a3
      refine Keeps.step (armUpd_keeps ..) rfl ?_
      exact Keeps.refl _ _
    · intro a4
      exact Keeps.refl _ _
  · intro a5
    exact Keeps.refl _ _

theorem derateGroup_keeps (g : Nat) (s : State) : Keeps [.tick, .aie] s (derateGroup g s) := by
  unfold derateGroup
  extract_lets -lift +onlyGivenNames d0
  clear_value d0
  extract_lets -lift +onlyGivenNames ts1
  clear_value ts1
  extract_lets -lift +onlyGivenNames target2
  clear_value target2
  extract_lets -lift +onlyGivenNames k3
  clear_value k3
  extract_lets -lift +onlyGivenNames k4
  clear_value k4
  refine Keeps.step (State.onAie_keeps ..) rfl ?_
  exact Keeps.refl _ _

theorem applyPlan_keeps (a : Nat) (amps : Nat) (p : Plan) (s : State) : Keeps [.link, .aie] s (applyPlan a amps p s) := by
  unfold applyPlan
  refine ite_keeps _ _ _ ?_ ?_
  · intro a0
    exact Keeps.refl _ _
  · intro a1
    extract_lets -lift +onlyGivenNames cfg2
    clear_value cfg2
    extract_lets -lift +onlyGivenNames depth3
    clear_value depth3
    extract_lets -lift +onlyGivenNames s4
    have h_s4 : Keeps [.link, .aie] s s4 := by
      refine Keeps.step (State.onLink_keeps ..) rfl ?_
      exact Keeps.refl _ _
    clear_value s4
    refine Keeps.step (aieUpd_keeps ..) rfl ?_
    assumption

theorem applyLate_keeps (a : Nat) (p : Plan) (s : State) : Keeps [.link, .aie] s (applyLate a p s) := by
  unfold applyLate
  extract_lets -lift +onlyGivenNames cfg0
  clear_value cfg0
  refine Keeps.step (aieUpd_keeps ..) rfl ?_
  refine Keeps.step (State.onLink_keeps ..) rfl ?_
  exact Keeps.refl _ _

theorem capOverrides_keeps (a : Nat) (n : Nat) (s : State) : Keeps [.fault, .aie] s (capOverrides a n s) := by
  unfold capOverrides
  extract_lets -lift +onlyGivenNames st0
  clear_value st0
  extract_lets -lift +onlyGivenNames fresh1
  clear_value fresh1
  refine ite_keeps _ _ _ ?_ ?_
  · intro a2
    exact Keeps.refl _ _
  · intro a3
    refine when_keeps _ _ _ _ ?_ ?_
    · refine Keeps.step (armUpd_keeps ..) rfl ?_
      exact Keeps.refl _ _
    · refine Keeps.step (aieEvent_keeps ..) rfl ?_
      exact Keeps.refl _ _

theorem armOutput_keeps (a : Nat) (i : Int) (late : Bool) (s : State) : Keeps [.fault, .link, .aie] s (armOutput a i late s) := by
  unfold armOutput
  extract_lets -lift +onlyGivenNames plan0
  clear_value plan0
  extract_lets -lift +onlyGivenNames s1
  have h_s1 : Keeps [.fault, .link, .aie] s s1 := by
    refine Keeps.step (armUpd_keeps ..) rfl ?_
    exact Keeps.refl _ _
  clear_value s1
  refine ite_keeps _ _ _ ?_ ?_
  · intro a2
    refine foldl_keeps _ ?_ _ _ _ ?_
    · intro a3 a4
      refine Keeps.step (applyLate_keeps ..) rfl ?_
      exact Keeps.refl _ _
    · assumption
  · intro a5
    extract_lets -lift +onlyGivenNames amps6
    clear_value amps6
    refine Keeps.step (capOverrides_keeps ..) rfl ?_
    refine foldl_keeps _ ?_ _ _ _ ?_
    · intro a7 a8
      refine Keeps.step (applyPlan_keeps ..) rfl ?_
      exact Keeps.refl _ _
    · assumption

theorem aieEnter_keeps (s : State) : Keeps [.dev, .tick, .fault, .aie, .pwm] s (aieEnter s) := by
  unfold aieEnter
  extract_lets -lift +onlyGivenNames s0
  have h_s0 : Keeps [.dev, .tick, .fault, .aie, .pwm] s s0 := by
    refine foldl_keeps _ ?_ _ _ _ ?_
    · intro a1 a2
      extract_lets -lift +onlyGivenNames st3
      clear_value st3
      extract_lets -lift +onlyGivenNames t4
      have h_t4 : Keeps [.dev, .tick, .fault, .aie, .pwm] a1 t4 := by
        refine when_keeps _ _ _ _ ?_ ?_
        · exact Keeps.refl _ _
        · refine Keeps.step (aieEvent_keeps ..) rfl ?_
          exact Keeps.refl _ _
      clear_value t4
      extract_lets -lift +onlyGivenNames t5
      have h_t5 : Keeps [.dev, .tick, .fault, .aie, .pwm] a1 t5 := by
        refine Keeps.step (armUpd_keeps ..) rfl ?_
        assumption
      clear_value t5
      extract_lets -lift +onlyGivenNames t6
      have h_t6 : Keeps [.dev, .tick, .fault, .aie, .pwm] a1 t6 := by
        refine foldl_keeps _ ?_ _ _ _ ?_
        · intro a7 a8
          refine Keeps.step (aieUpd_keeps ..) rfl ?_
          exact Keeps.refl _ _
        · assumption
      clear_value t6
      refine Keeps.step (genUpd_keeps ..) rfl ?_
      assumption
    · exact Keeps.refl _ _
  clear_value s0
  extract_lets -lift +onlyGivenNames s9
  have h_s9 : Keeps [.dev, .tick, .fault, .aie, .pwm] s s9 := by
    refine Keeps.step (State.onAie_keeps ..) rfl ?_
    assumption
  clear_value s9
  refine foldl_keeps _ ?_ _ _ _ ?_
  · intro a10 a11
    refine ite_keeps _ _ _ ?_ ?_
    · intro a12
      refine Keeps.step (aieEvent_keeps ..) rfl ?_
      refine Keeps.step (controlledBlock_keeps ..) rfl ?_
      exact Keeps.refl _ _
    · intro a13
      exact Keeps.refl _ _
  · assumption

theorem aieLeave_keeps (s : State) : Keeps [.aie] s (aieLeave s) := by
  unfold aieLeave
  refine Keeps.step (State.onAie_keeps ..) rfl ?_
  exact Keeps.refl _ _

theorem penalties_keeps (a : Nat) (s : State) : Keeps [.aie] s (penalties a s) := by
  unfold penalties
  extract_lets -lift +onlyGivenNames p0
  clear_value p0
  extract_lets -lift +onlyGivenNames use1
  clear_value use1
  extract_lets -lift +onlyGivenNames mean2
  clear_value mean2
  refine foldl_keeps _ ?_ _ _ _ ?_
  · intro a3 a4
    extract_lets -lift +onlyGivenNames x5
    clear_value x5
    extract_lets -lift +onlyGivenNames cr6
    clear_value cr6
    refine Keeps.step (aieUpd_keeps ..) rfl ?_
    exact Keeps.refl _ _
  · refine Keeps.step (armUpd_keeps ..) rfl ?_
    exact Keeps.refl _ _

/-! ### Aie -/

theorem commitArms_keeps (s : State) : Keeps [.aie] s (commitArms s) := by
  unfold commitArms
  refine Keeps.step (State.onAie_keeps ..) rfl ?_
  exact Keeps.refl _ _

/-! ### PwmOps -/

theorem pairUpd_keeps (p : Nat) (f : PwmPair → PwmPair) (s : State) : Keeps [.pwm] s (pairUpd p f s) := by
  unfold pairUpd
  refine Keeps.step (State.onPwm_keeps ..) rfl ?_
  exact Keeps.refl _ _

theorem pairOff_keeps (p : Nat) (s : State) : Keeps [.pwm] s (pairOff p s) := by
  unfold pairOff
  refine Keeps.step (pairUpd_keeps ..) rfl ?_
  exact Keeps.refl _ _

theorem pairsRecheck_keeps (s : State) : Keeps [.pwm] s (pairsRecheck s) := by
  unfold pairsRecheck
  refine foldl_keeps _ ?_ _ _ _ ?_
  · intro a0 a1
    refine ite_keeps _ _ _ ?_ ?_
    · intro a2
      exact Keeps.refl _ _
    · intro a3
      refine Keeps.step (pairOff_keeps ..) rfl ?_
      exact Keeps.refl _ _
  · exact Keeps.refl _ _

theorem addEvent_keeps (src : Nat) (index : Nat) (kind : Nat) (offset : Nat) (s : State) : Keeps [.pwm] s (addEvent src index kind offset s) := by
  unfold addEvent
  refine Keeps.step (State.onPwm_keeps ..) rfl ?_
  exact Keeps.refl _ _

theorem pairOccur_keeps (p : Nat) (kind : Nat) (offset : Nat) (s : State) : Keeps [.pwm] s (pairOccur p kind offset s) := by
  unfold pairOccur
  extract_lets -lift +onlyGivenNames c0
  clear_value c0
  refine ite_keeps _ _ _ ?_ ?_
  · intro a1
    exact Keeps.refl _ _
  · intro a2
    extract_lets -lift +onlyGivenNames n3
    clear_value n3
    refine ite_keeps _ _ _ ?_ ?_
    · intro a4
      refine Keeps.step (addEvent_keeps ..) rfl ?_
      refine Keeps.step (pairUpd_keeps ..) rfl ?_
      exact Keeps.refl _ _
    · intro a5
      refine Keeps.step (pairUpd_keeps ..) rfl ?_
      exact Keeps.refl _ _

theorem genOccur_keeps (a : Nat) (kind : Nat) (offset : Nat) (s : State) : Keeps [.pwm] s (genOccur a kind offset s) := by
  unfold genOccur
  extract_lets -lift +onlyGivenNames c0
  clear_value c0
  refine ite_keeps _ _ _ ?_ ?_
  · intro a1
    exact Keeps.refl _ _
  · intro a2
    extract_lets -lift +onlyGivenNames n3
    clear_value n3
    refine ite_keeps _ _ _ ?_ ?_
    · intro a4
      refine Keeps.step (addEvent_keeps ..) rfl ?_
      refine Keeps.step (genUpd_keeps ..) rfl ?_
      exact Keeps.refl _ _
    · intro a5
      refine Keeps.step (genUpd_keeps ..) rfl ?_
      exact Keeps.refl _ _

theorem reload_keeps (p : Nat) (s : State) : Keeps [.pwm] s (reload p s) := by
  unfold reload
  extract_lets -lift +onlyGivenNames cmp0
  clear_value cmp0
  extract_lets -lift +onlyGivenNames tag1
  clear_value tag1
  refine Keeps.step (State.onPwm_keeps ..) rfl ?_
  refine Keeps.step (pairUpd_keeps ..) rfl ?_
  exact Keeps.refl _ _

theorem setDemand_keeps (p : Nat) (on : Bool) (offset : Nat) (s : State) : Keeps [.pwm] s (setDemand p on offset s) := by
  unfold setDemand
  extract_lets -lift +onlyGivenNames x0
  clear_value x0
  refine ite_keeps _ _ _ ?_ ?_
  · intro a1
    exact Keeps.refl _ _
  · intro a2
    extract_lets -lift +onlyGivenNames s3
    have h_s3 : Keeps [.pwm] s s3 := by
      refine Keeps.step (pairOccur_keeps ..) rfl ?_
      refine Keeps.step (pairUpd_keeps ..) rfl ?_
      exact Keeps.refl _ _
    clear_value s3
    refine ite_keeps _ _ _ ?_ ?_
    · intro a4
      refine Keeps.step (pairUpd_keeps ..) rfl ?_
      assumption
    · intro a5
      assumption

theorem pairStart_keeps (p : Nat) (s : State) : Keeps [.pwm] s (pairStart p s) := by
  unfold pairStart
  extract_lets -lift +onlyGivenNames x0
  clear_value x0
  refine ite_keeps _ _ _ ?_ ?_
  · intro a1
    exact Keeps.refl _ _
  · intro a2
    refine ite_keeps _ _ _ ?_ ?_
    · intro a3
      refine Keeps.step (pairUpd_keeps ..) rfl ?_
      exact Keeps.refl _ _
    · intro a4
      refine Keeps.step (pairUpd_keeps ..) rfl ?_
      exact Keeps.refl _ _

theorem pairTrip_keeps (p : Nat) (s : State) : Keeps [.fault, .pwm] s (pairTrip p s) := by
  unfold pairTrip
  extract_lets -lift +onlyGivenNames x0
  clear_value x0
  extract_lets -lift +onlyGivenNames s1
  have h_s1 : Keeps [.fault, .pwm] s s1 := by
    refine Keeps.step (pairOff_keeps ..) rfl ?_
    refine Keeps.step (pairUpd_keeps ..) rfl ?_
    exact Keeps.refl _ _
  clear_value s1
  refine ite_keeps _ _ _ ?_ ?_
  · intro a2
    assumption
  · intro a3
    refine Keeps.step (raise_keeps ..) rfl ?_
    assumption

theorem pairCommit_keeps (t : State) (p : Nat) (new : PairCfg) : Keeps [.pwm] t (pairCommit t p new) := by
  unfold pairCommit
  extract_lets -lift +onlyGivenNames old0
  clear_value old0
  extract_lets -lift +onlyGivenNames re1
  extract_lets -lift +onlyGivenNames first2
  clear_value first2
  refine Keeps.step (pairUpd_keeps ..) rfl ?_
  exact Keeps.refl _ _

theorem commitPwm_keeps (s : State) : Keeps [.pwm] s (commitPwm s) := by
  unfold commitPwm
  extract_lets -lift +onlyGivenNames s0
  have h_s0 : Keeps [.pwm] s s0 := by
    refine foldl_keeps _ ?_ _ _ _ ?_
    · intro a1 a2
      refine Keeps.step (genUpd_keeps ..) rfl ?_
      exact Keeps.refl _ _
    · exact Keeps.refl _ _
  clear_value s0
  extract_lets -lift +onlyGivenNames s3
  have h_s3 : Keeps [.pwm] s s3 := by
    refine foldl_keeps _ ?_ _ _ _ ?_
    · intro a4 a5
      refine Keeps.step (pairCommit_keeps ..) rfl ?_
      exact Keeps.refl _ _
    · assumption
  clear_value s3
  refine Keeps.step (pairsRecheck_keeps ..) rfl ?_
  refine Keeps.step (State.onPwm_keeps ..) rfl ?_
  assumption

/-! ### LoopOps -/

theorem loopUpd_keeps (l : Nat) (f : LoopCh → LoopCh) (s : State) : Keeps [.loop] s (loopUpd l f s) := by
  unfold loopUpd
  refine Keeps.step (State.onLoop_keeps ..) rfl ?_
  exact Keeps.refl _ _

theorem loopEvent_keeps (l : Nat) (kind : Nat) (d : List Nat) (s : State) : Keeps [.fault] s (loopEvent l kind d s) := by
  unfold loopEvent
  refine Keeps.step (raise_keeps ..) rfl ?_
  exact Keeps.refl _ _

theorem enterFallback_keeps (l : Nat) (c : LoopCfg) (cause : Nat) (s : State) : Keeps [.dev, .fault, .loop] s (enterFallback l c cause s) := by
  unfold enterFallback
  extract_lets -lift +onlyGivenNames m0
  clear_value m0
  extract_lets -lift +onlyGivenNames s1
  have h_s1 : Keeps [.dev, .fault, .loop] s s1 := by
    refine Keeps.step (loopEvent_keeps ..) rfl ?_
    refine Keeps.step (loopUpd_keeps ..) rfl ?_
    exact Keeps.refl _ _
  clear_value s1
  refine ite_keeps _ _ _ ?_ ?_
  · intro a2
    refine Keeps.step (controlledBlock_keeps ..) rfl ?_
    refine Keeps.step (loopEvent_keeps ..) rfl ?_
    assumption
  · intro a3
    assumption

theorem enterHold_keeps (l : Nat) (c : LoopCfg) (cause : Nat) (s : State) : Keeps [.dev, .fault, .loop] s (enterHold l c cause s) := by
  unfold enterHold
  refine ite_keeps _ _ _ ?_ ?_
  · intro a0
    refine Keeps.step (enterFallback_keeps ..) rfl ?_
    exact Keeps.refl _ _
  · intro a1
    refine Keeps.step (loopEvent_keeps ..) rfl ?_
    refine Keeps.step (loopUpd_keeps ..) rfl ?_
    exact Keeps.refl _ _

theorem resume_keeps (l : Nat) (rd : Nat → Sig) (c : LoopCfg) (init : Bool) (s : State) : Keeps [.fault, .loop] s (resume l rd c init s) := by
  unfold resume
  extract_lets -lift +onlyGivenNames ch0
  clear_value ch0
  extract_lets -lift +onlyGivenNames bin1
  clear_value bin1
  refine Keeps.step (loopEvent_keeps ..) rfl ?_
  refine Keeps.step (loopUpd_keeps ..) rfl ?_
  exact Keeps.refl _ _

theorem inputEvent_keeps (l : Nat) (n : Nat) (sel : Nat) (ok : Bool) (s : State) : Keeps [.fault, .loop] s (inputEvent l n sel ok s) := by
  unfold inputEvent
  extract_lets -lift +onlyGivenNames bad0
  clear_value bad0
  refine ite_keeps _ _ _ ?_ ?_
  · intro a1
    exact Keeps.refl _ _
  · intro a2
    refine Keeps.step (loopEvent_keeps ..) rfl ?_
    refine Keeps.step (loopUpd_keeps ..) rfl ?_
    exact Keeps.refl _ _

theorem inputEvents_keeps (l : Nat) (rd : Nat → Sig) (c : LoopCfg) (s : State) : Keeps [.fault, .loop] s (inputEvents l rd c s) := by
  unfold inputEvents
  extract_lets -lift +onlyGivenNames s0
  have h_s0 : Keeps [.fault, .loop] s s0 := by
    refine Keeps.step (inputEvent_keeps ..) rfl ?_
    exact Keeps.refl _ _
  clear_value s0
  extract_lets -lift +onlyGivenNames s1
  have h_s1 : Keeps [.fault, .loop] s s1 := by
    refine Keeps.step (inputEvent_keeps ..) rfl ?_
    assumption
  clear_value s1
  extract_lets -lift +onlyGivenNames s2
  have h_s2 : Keeps [.fault, .loop] s s2 := by
    refine Keeps.step (inputEvent_keeps ..) rfl ?_
    assumption
  clear_value s2
  refine Keeps.step (inputEvent_keeps ..) rfl ?_
  assumption

theorem noteSats_keeps (l : Nat) (sats : List Nat) (s : State) : Keeps [.fault, .loop] s (noteSats l sats s) := by
  unfold noteSats
  split
  · exact Keeps.refl _ _
  · extract_lets -lift +onlyGivenNames ch0
    clear_value ch0
    extract_lets -lift +onlyGivenNames first1
    clear_value first1
    extract_lets -lift +onlyGivenNames s2
    have h_s2 : Keeps [.fault, .loop] s s2 := by
      refine Keeps.step (loopUpd_keeps ..) rfl ?_
      exact Keeps.refl _ _
    clear_value s2
    refine when_keeps _ _ _ _ ?_ ?_
    · assumption
    · refine Keeps.step (loopEvent_keeps ..) rfl ?_
      exact Keeps.refl _ _

theorem runEval_keeps (l : Nat) (rd : Nat → Sig) (c : LoopCfg) (lo : Int) (hi : Int) (s : State) : Keeps [.fault, .loop] s (runEval l rd c lo hi s) := by
  unfold runEval
  extract_lets -lift +onlyGivenNames ch0
  clear_value ch0
  extract_lets -lift +onlyGivenNames r1
  clear_value r1
  extract_lets -lift +onlyGivenNames y2
  clear_value y2
  extract_lets -lift +onlyGivenNames reg3
  clear_value reg3
  extract_lets -lift +onlyGivenNames p4
  clear_value p4
  extract_lets -lift +onlyGivenNames rep5
  clear_value rep5
  extract_lets -lift +onlyGivenNames o6
  clear_value o6
  extract_lets -lift +onlyGivenNames clamped7
  clear_value clamped7
  refine Keeps.step (noteSats_keeps ..) rfl ?_
  refine Keeps.step (loopUpd_keeps ..) rfl ?_
  exact Keeps.refl _ _

theorem loopStart_keeps (l : Nat) (rd : Nat → Sig) (c : LoopCfg) (s : State) : Keeps [.loop] s (loopStart l rd c s) := by
  unfold loopStart
  refine Keeps.step (loopUpd_keeps ..) rfl ?_
  exact Keeps.refl _ _

theorem holdExpire_keeps (l : Nat) (c : LoopCfg) (s : State) : Keeps [.dev, .fault, .loop] s (holdExpire l c s) := by
  unfold holdExpire
  extract_lets -lift +onlyGivenNames x0
  clear_value x0
  refine ite_keeps _ _ _ ?_ ?_
  · intro a1
    refine Keeps.step (enterFallback_keeps ..) rfl ?_
    exact Keeps.refl _ _
  · intro a2
    exact Keeps.refl _ _

theorem satExpire_keeps (l : Nat) (c : LoopCfg) (lo : Int) (hi : Int) (s : State) : Keeps [.dev, .fault, .loop] s (satExpire l c lo hi s) := by
  unfold satExpire
  extract_lets -lift +onlyGivenNames x0
  clear_value x0
  refine ite_keeps _ _ _ ?_ ?_
  · intro a1
    extract_lets -lift +onlyGivenNames s2
    have h_s2 : Keeps [.dev, .fault, .loop] s s2 := by
      refine Keeps.step (loopEvent_keeps ..) rfl ?_
      refine Keeps.step (loopUpd_keeps ..) rfl ?_
      exact Keeps.refl _ _
    clear_value s2
    refine ite_keeps _ _ _ ?_ ?_
    · intro a3
      refine Keeps.step (loopUpd_keeps ..) rfl ?_
      refine Keeps.step (enterFallback_keeps ..) rfl ?_
      assumption
    · intro a4
      assumption
  · intro a5
    exact Keeps.refl _ _

theorem evalChannel_keeps (l : Nat) (rd : Nat → Sig) (s : State) : Keeps [.dev, .fault, .link, .loop] s (evalChannel l rd s) := by
  unfold evalChannel
  extract_lets -lift +onlyGivenNames c0
  clear_value c0
  extract_lets -lift +onlyGivenNames lim1
  clear_value lim1
  extract_lets -lift +onlyGivenNames lo2
  clear_value lo2
  extract_lets -lift +onlyGivenNames hi3
  clear_value hi3
  extract_lets -lift +onlyGivenNames s4
  have h_s4 : Keeps [.dev, .fault, .link, .loop] s s4 := by
    refine Keeps.step (inputEvents_keeps ..) rfl ?_
    exact Keeps.refl _ _
  clear_value s4
  extract_lets -lift +onlyGivenNames s5
  have h_s5 : Keeps [.dev, .fault, .link, .loop] s s5 := by
    refine Keeps.step (loopUpd_keeps ..) rfl ?_
    assumption
  clear_value s5
  extract_lets -lift +onlyGivenNames ch6
  clear_value ch6
  extract_lets -lift +onlyGivenNames ack7
  clear_value ack7
  extract_lets -lift +onlyGivenNames loss8
  clear_value loss8
  extract_lets -lift +onlyGivenNames goodNow9
  extract_lets -lift +onlyGivenNames more10
  extract_lets -lift +onlyGivenNames s11
  have h_s11 : Keeps [.dev, .fault, .link, .loop] s s11 := by
    refine ite_keeps _ _ _ ?_ ?_
    · intro a12
      refine Keeps.step (loopStart_keeps ..) rfl ?_
      assumption
    · intro a13
      assumption
  clear_value s11
  extract_lets -lift +onlyGivenNames s14
  have h_s14 : Keeps [.dev, .fault, .link, .loop] s s14 := by
    dsimp -zeta only [s14]
    split
    · refine ite_keeps _ _ _ ?_ ?_
      · intro a15
        refine Keeps.step (enterHold_keeps ..) rfl ?_
        assumption
      · intro a16
        assumption
    · refine ite_keeps _ _ _ ?_ ?_
      · intro a17
        refine Keeps.step (resume_keeps ..) rfl ?_
        assumption
      · intro a18
        refine Keeps.step (holdExpire_keeps ..) rfl ?_
        try dsimp -zeta only [more10]
        refine Keeps.step (loopUpd_keeps ..) rfl ?_
        assumption
    · refine ite_keeps _ _ _ ?_ ?_
      · intro a19
        refine Keeps.step (resume_keeps ..) rfl ?_
        assumption
      · intro a20
        try dsimp -zeta only [more10]
        refine Keeps.step (loopUpd_keeps ..) rfl ?_
        assumption
    · refine ite_keeps _ _ _ ?_ ?_
      · intro a21
        refine Keeps.step (resume_keeps ..) rfl ?_
        assumption
      · intro a22
        try dsimp -zeta only [more10]
        refine Keeps.step (loopUpd_keeps ..) rfl ?_
        assumption
    · try dsimp -zeta only [more10]
      refine Keeps.step (loopUpd_keeps ..) rfl ?_
      assumption
    · assumption
  clear_value s14
  split
  · extract_lets -lift +onlyGivenNames t23
    clear_value t23
    refine Keeps.step (loopUpd_keeps ..) rfl ?_
    assumption
  · refine Keeps.step (satExpire_keeps ..) rfl ?_
    refine Keeps.step (runEval_keeps ..) rfl ?_
    assumption
  · refine Keeps.step (loopUpd_keeps ..) rfl ?_
    assumption

theorem evalDie_keeps (die : Nat) (s : State) : Keeps [.dev, .fault, .link, .loop] s (evalDie die s) := by
  unfold evalDie
  refine ite_keeps _ _ _ ?_ ?_
  · intro a0
    exact Keeps.refl _ _
  · intro a1
    extract_lets -lift +onlyGivenNames r2
    clear_value r2
    extract_lets -lift +onlyGivenNames r3
    clear_value r3
    extract_lets -lift +onlyGivenNames lanes4
    clear_value lanes4
    extract_lets -lift +onlyGivenNames s5
    have h_s5 : Keeps [.dev, .fault, .link, .loop] s s5 := by
      refine foldl_keeps _ ?_ _ _ _ ?_
      · intro a6 a7
        refine Keeps.step (evalChannel_keeps ..) rfl ?_
        exact Keeps.refl _ _
      · exact Keeps.refl _ _
    clear_value s5
    extract_lets -lift +onlyGivenNames s8
    have h_s8 : Keeps [.dev, .fault, .link, .loop] s s8 := by
      refine foldl_keeps _ ?_ _ _ _ ?_
      · intro a9 a10
        refine Keeps.step (evalChannel_keeps ..) rfl ?_
        exact Keeps.refl _ _
      · assumption
    clear_value s8
    refine Keeps.step (State.onLoop_keeps ..) rfl ?_
    assumption

theorem leaveOff_keeps (l : Nat) (c : LoopCfg) (s : State) : Keeps [.fault, .link, .loop] s (leaveOff l c s) := by
  unfold leaveOff
  extract_lets -lift +onlyGivenNames rd0
  clear_value rd0
  extract_lets -lift +onlyGivenNames lim1
  clear_value lim1
  extract_lets -lift +onlyGivenNames t2
  clear_value t2
  extract_lets -lift +onlyGivenNames run3
  clear_value run3
  extract_lets -lift +onlyGivenNames z s4
  clear_value z
  have h_s4 : Keeps [.fault, .link, .loop] s s4 := by
    refine Keeps.step (loopUpd_keeps ..) rfl ?_
    exact Keeps.refl _ _
  clear_value s4
  refine when_keeps _ _ _ _ ?_ ?_
  · assumption
  · refine Keeps.step (loopEvent_keeps ..) rfl ?_
    exact Keeps.refl _ _

theorem goOff_keeps (l : Nat) (s : State) : Keeps [.fault, .link, .loop] s (goOff l s) := by
  unfold goOff
  extract_lets -lift +onlyGivenNames m0
  clear_value m0
  extract_lets -lift +onlyGivenNames z s1
  clear_value z
  have h_s1 : Keeps [.fault, .link, .loop] s s1 := by
    refine Keeps.step (loopUpd_keeps ..) rfl ?_
    exact Keeps.refl _ _
  clear_value s1
  refine when_keeps _ _ _ _ ?_ ?_
  · assumption
  · refine Keeps.step (loopEvent_keeps ..) rfl ?_
    exact Keeps.refl _ _

theorem commitChannel_keeps (l : Nat) (n : LoopCfg) (s : State) : Keeps [.fault, .link, .loop] s (commitChannel l n s) := by
  unfold commitChannel
  extract_lets -lift +onlyGivenNames o0
  clear_value o0
  extract_lets -lift +onlyGivenNames act1
  clear_value act1
  extract_lets -lift +onlyGivenNames s2
  have h_s2 : Keeps [.fault, .link, .loop] s s2 := by
    refine Keeps.step (State.onLoop_keeps ..) rfl ?_
    exact Keeps.refl _ _
  clear_value s2
  refine ite_keeps _ _ _ ?_ ?_
  · intro a3
    refine Keeps.step (goOff_keeps ..) rfl ?_
    assumption
  · intro a4
    refine ite_keeps _ _ _ ?_ ?_
    · intro a5
      refine Keeps.step (leaveOff_keeps ..) rfl ?_
      assumption
    · intro a6
      extract_lets -lift +onlyGivenNames rd7
      clear_value rd7
      extract_lets -lift +onlyGivenNames clear8
      clear_value clear8
      refine Keeps.step (loopUpd_keeps ..) rfl ?_
      assumption

theorem commitLoop_keeps (s : State) : Keeps [.fault, .link, .loop] s (commitLoop s) := by
  unfold commitLoop
  extract_lets -lift +onlyGivenNames s0
  have h_s0 : Keeps [.fault, .link, .loop] s s0 := by
    refine foldl_keeps _ ?_ _ _ _ ?_
    · intro a1 a2
      refine Keeps.step (commitChannel_keeps ..) rfl ?_
      exact Keeps.refl _ _
    · exact Keeps.refl _ _
  clear_value s0
  refine Keeps.step (State.onLoop_keeps ..) rfl ?_
  assumption

theorem loopsTrack_keeps (s : State) : Keeps [.fault, .link, .loop] s (loopsTrack s) := by
  unfold loopsTrack
  refine foldl_keeps _ ?_ _ _ _ ?_
  · intro a0 a1
    extract_lets -lift +onlyGivenNames m2
    clear_value m2
    refine ite_keeps _ _ _ ?_ ?_
    · intro a3
      exact Keeps.refl _ _
    · intro a4
      extract_lets -lift +onlyGivenNames t5
      have h_t5 : Keeps [.fault, .link, .loop] a0 t5 := by
        refine Keeps.step (loopUpd_keeps ..) rfl ?_
        exact Keeps.refl _ _
      clear_value t5
      refine when_keeps _ _ _ _ ?_ ?_
      · assumption
      · refine Keeps.step (loopEvent_keeps ..) rfl ?_
        exact Keeps.refl _ _
  · exact Keeps.refl _ _

/-! ### DispOps -/

theorem dieUpd_keeps (d : Nat) (f : DieTiles → DieTiles) (s : State) : Keeps [.tiles] s (dieUpd d f s) := by
  unfold dieUpd
  refine Keeps.step (State.onTiles_keeps ..) rfl ?_
  exact Keeps.refl _ _

theorem flowUpd_keeps (d : Nat) (f : Nat) (g : FlowSt → FlowSt) (s : State) : Keeps [.tiles] s (flowUpd d f g s) := by
  unfold flowUpd
  refine Keeps.step (dieUpd_keeps ..) rfl ?_
  exact Keeps.refl _ _

theorem dispEvent_keeps (d : Nat) (kind : Nat) (cls : FClass) (addr : Nat) (w : List Nat) (s : State) : Keeps [.fault] s (dispEvent d kind cls addr w s) := by
  unfold dispEvent
  refine Keeps.step (raise_keeps ..) rfl ?_
  exact Keeps.refl _ _

theorem portsInvalid_keeps (d : Nat) (b : Binding) (cause : Nat) (s : State) : Keeps [.fault, .tiles] s (portsInvalid d b cause s) := by
  unfold portsInvalid
  extract_lets -lift +onlyGivenNames rs0
  clear_value rs0
  extract_lets -lift +onlyGivenNames s1
  have h_s1 : Keeps [.fault, .tiles] s s1 := by
    refine foldl_keeps _ ?_ _ _ _ ?_
    · intro a2 a3
      refine Keeps.step (dispEvent_keeps ..) rfl ?_
      refine Keeps.step (dieUpd_keeps ..) rfl ?_
      exact Keeps.refl _ _
    · exact Keeps.refl _ _
  clear_value s1
  refine Keeps.step (dieUpd_keeps ..) rfl ?_
  assumption

theorem itemUpd_keeps (d : Nat) (flow : Nat) (seq : Nat) (f : Item → Item) (s : State) : Keeps [.tiles] s (itemUpd d flow seq f s) := by
  unfold itemUpd
  refine Keeps.step (dieUpd_keeps ..) rfl ?_
  exact Keeps.refl _ _

theorem itemDel_keeps (d : Nat) (flow : Nat) (seq : Nat) (s : State) : Keeps [.tiles] s (itemDel d flow seq s) := by
  unfold itemDel
  refine Keeps.step (dieUpd_keeps ..) rfl ?_
  exact Keeps.refl _ _

theorem readyNote_keeps (d : Nat) (cls : Nat) (s : State) : Keeps [.tiles] s (readyNote d cls s) := by
  unfold readyNote
  extract_lets -lift +onlyGivenNames n0
  clear_value n0
  refine Keeps.step (dieUpd_keeps ..) rfl ?_
  exact Keeps.refl _ _

theorem noteTimeout_keeps (d : Nat) (flow : Nat) (s : State) : Keeps [.fault, .tiles] s (noteTimeout d flow s) := by
  unfold noteTimeout
  extract_lets -lift +onlyGivenNames f0
  clear_value f0
  extract_lets -lift +onlyGivenNames first1
  clear_value first1
  extract_lets -lift +onlyGivenNames s2
  have h_s2 : Keeps [.fault, .tiles] s s2 := by
    refine Keeps.step (flowUpd_keeps ..) rfl ?_
    exact Keeps.refl _ _
  clear_value s2
  refine when_keeps _ _ _ _ ?_ ?_
  · assumption
  · refine Keeps.step (dispEvent_keeps ..) rfl ?_
    exact Keeps.refl _ _

theorem itemFail_keeps (fuel : Nat) (d : Nat) (flow : Nat) (v : Nat) (b : Binding) (s : State)  : Keeps [.fault, .tiles] s (itemFail fuel d flow v b s) := by
  induction fuel generalizing flow v b s with
  | zero => 
    unfold itemFail
    exact Keeps.refl _ _
  | succ k ih => 
    unfold itemFail
    extract_lets -lift +onlyGivenNames s0
    have h_s0 : Keeps [.fault, .tiles] s s0 := by
      refine Keeps.step (portsInvalid_keeps ..) rfl ?_
      exact Keeps.refl _ _
    clear_value s0
    extract_lets -lift +onlyGivenNames hit1
    clear_value hit1
    refine foldl_keeps _ ?_ _ _ _ ?_
    · intro a2 a3
      extract_lets -lift +onlyGivenNames c4
      clear_value c4
      extract_lets -lift +onlyGivenNames t5
      have h_t5 : Keeps [.fault, .tiles] a2 t5 := by
        refine Keeps.step (noteTimeout_keeps ..) rfl ?_
        exact Keeps.refl _ _
      clear_value t5
      refine ite_keeps _ _ _ ?_ ?_
      · intro a6
        refine Keeps.step (readyNote_keeps ..) rfl ?_
        refine Keeps.step (itemUpd_keeps ..) rfl ?_
        assumption
      · intro a7
        refine Keeps.step (ih ..) rfl ?_
        refine Keeps.step (itemDel_keeps ..) rfl ?_
        assumption
    · assumption

theorem itemTimeout_keeps (d : Nat) (i : Item) (s : State) : Keeps [.fault, .tiles, .galley] s (itemTimeout d i s) := by
  unfold itemTimeout
  extract_lets -lift +onlyGivenNames c0
  clear_value c0
  extract_lets -lift +onlyGivenNames s1
  have h_s1 : Keeps [.fault, .tiles, .galley] s s1 := by
    refine Keeps.step (noteTimeout_keeps ..) rfl ?_
    refine Keeps.step (journal_keeps ..) rfl ?_
    exact Keeps.refl _ _
  clear_value s1
  refine ite_keeps _ _ _ ?_ ?_
  · intro a2
    refine Keeps.step (readyNote_keeps ..) rfl ?_
    refine Keeps.step (itemUpd_keeps ..) rfl ?_
    assumption
  · intro a3
    refine Keeps.step (itemFail_keeps ..) rfl ?_
    refine Keeps.step (itemDel_keeps ..) rfl ?_
    assumption

theorem noteRace_keeps (d : Nat) (i : Item) (s : State) : Keeps [.fault, .tiles] s (noteRace d i s) := by
  unfold noteRace
  extract_lets -lift +onlyGivenNames first0
  clear_value first0
  extract_lets -lift +onlyGivenNames s1
  have h_s1 : Keeps [.fault, .tiles] s s1 := by
    refine Keeps.step (flowUpd_keeps ..) rfl ?_
    exact Keeps.refl _ _
  clear_value s1
  refine when_keeps _ _ _ _ ?_ ?_
  · assumption
  · refine Keeps.step (dispEvent_keeps ..) rfl ?_
    exact Keeps.refl _ _

theorem itemCancel_keeps (d : Nat) (cycle : Bool × Nat) (i : Item) (s : State) : Keeps [.fault, .tiles] s (itemCancel d cycle i s) := by
  unfold itemCancel
  extract_lets -lift +onlyGivenNames s0
  have h_s0 : Keeps [.fault, .tiles] s s0 := by
    refine when_keeps _ _ _ _ ?_ ?_
    · exact Keeps.refl _ _
    · refine Keeps.step (noteRace_keeps ..) rfl ?_
      exact Keeps.refl _ _
  clear_value s0
  refine Keeps.step (itemFail_keeps ..) rfl ?_
  refine Keeps.step (flowUpd_keeps ..) rfl ?_
  refine Keeps.step (itemDel_keeps ..) rfl ?_
  assumption

theorem overflow_keeps (d : Nat) (f : Nat) (s : State) : Keeps [.fault, .tiles] s (overflow d f s) := by
  unfold overflow
  extract_lets -lift +onlyGivenNames x0
  clear_value x0
  extract_lets -lift +onlyGivenNames first1
  clear_value first1
  extract_lets -lift +onlyGivenNames c2
  clear_value c2
  extract_lets -lift +onlyGivenNames s3
  have h_s3 : Keeps [.fault, .tiles] s s3 := by
    refine Keeps.step (flowUpd_keeps ..) rfl ?_
    exact Keeps.refl _ _
  clear_value s3
  extract_lets -lift +onlyGivenNames s4
  have h_s4 : Keeps [.fault, .tiles] s s4 := by
    refine Keeps.step (giveWay_keeps ..) rfl ?_
    assumption
  clear_value s4
  refine when_keeps _ _ _ _ ?_ ?_
  · assumption
  · refine Keeps.step (dispEvent_keeps ..) rfl ?_
    exact Keeps.refl _ _

theorem itemCreate_keeps (d : Nat) (f : Nat) (v : Nat) (slots : Tbl (List (Option Int))) (edge : Option (Bool × Nat)) (s : State) : Keeps [.fault, .tiles, .galley] s (itemCreate d f v slots edge s) := by
  unfold itemCreate
  extract_lets -lift +onlyGivenNames c0
  clear_value c0
  split
  · exact Keeps.refl _ _
  · refine ite_keeps _ _ _ ?_ ?_
    · intro a1
      exact Keeps.refl _ _
    · intro a2
      refine ite_keeps _ _ _ ?_ ?_
      · intro a3
        refine Keeps.step (overflow_keeps ..) rfl ?_
        refine Keeps.step (journal_keeps ..) rfl ?_
        exact Keeps.refl _ _
      · intro a4
        extract_lets -lift +onlyGivenNames x5
        clear_value x5
        extract_lets -lift +onlyGivenNames i6
        clear_value i6
        extract_lets -lift +onlyGivenNames i7
        clear_value i7
        extract_lets -lift +onlyGivenNames depth8
        clear_value depth8
        refine Keeps.step (readyNote_keeps ..) rfl ?_
        refine Keeps.step (dieUpd_keeps ..) rfl ?_
        refine Keeps.step (flowUpd_keeps ..) rfl ?_
        exact Keeps.refl _ _

theorem operandArrive_keeps (d : Nat) (f : Nat) (n : Nat) (v : Nat) (edge : Option (Bool × Nat)) (words : List (Option Int)) (s : State) : Keeps [.fault, .tiles, .galley] s (operandArrive d f n v edge words s) := by
  unfold operandArrive
  extract_lets -lift +onlyGivenNames c0
  clear_value c0
  extract_lets -lift +onlyGivenNames discard1
  split
  · refine ite_keeps _ _ _ ?_ ?_
    · intro a2
      try dsimp -zeta only [discard1]
      refine Keeps.step (flowUpd_keeps ..) rfl ?_
      exact Keeps.refl _ _
    · intro a3
      refine Keeps.step (readyNote_keeps ..) rfl ?_
      refine Keeps.step (itemUpd_keeps ..) rfl ?_
      exact Keeps.refl _ _
  · refine ite_keeps _ _ _ ?_ ?_
    · intro a4
      try dsimp -zeta only [discard1]
      refine Keeps.step (flowUpd_keeps ..) rfl ?_
      exact Keeps.refl _ _
    · intro a5
      refine Keeps.step (itemCreate_keeps ..) rfl ?_
      exact Keeps.refl _ _

theorem publish_keeps (d : Nat) (i : Item) (p : PortVal) (s : State) : Keeps [.tick, .tiles] s (publish d i p s) := by
  unfold publish
  extract_lets -lift +onlyGivenNames late0
  clear_value late0
  extract_lets -lift +onlyGivenNames put1
  clear_value put1
  extract_lets -lift +onlyGivenNames s2
  have h_s2 : Keeps [.tick, .tiles] s s2 := by
    refine Keeps.step (dieUpd_keeps ..) rfl ?_
    exact Keeps.refl _ _
  clear_value s2
  refine when_keeps _ _ _ _ ?_ ?_
  · assumption
  · refine Keeps.step (State.onTick_keeps _ _ (by exact id)) rfl ?_
    exact Keeps.refl _ _

theorem itemRelease_keeps (d : Nat) (edge : Option (Bool × Nat)) (i : Item) (s : State) : Keeps [.tick, .fault, .tiles, .galley] s (itemRelease d edge i s) := by
  unfold itemRelease
  extract_lets -lift +onlyGivenNames s0
  have h_s0 : Keeps [.tick, .fault, .tiles, .galley] s s0 := by
    refine foldl_keeps _ ?_ _ _ _ ?_
    · intro a1 a2
      refine Keeps.step (publish_keeps ..) rfl ?_
      exact Keeps.refl _ _
    · exact Keeps.refl _ _
  clear_value s0
  extract_lets -lift +onlyGivenNames s3
  have h_s3 : Keeps [.tick, .fault, .tiles, .galley] s s3 := by
    refine Keeps.step (flowUpd_keeps ..) rfl ?_
    refine Keeps.step (itemDel_keeps ..) rfl ?_
    assumption
  clear_value s3
  refine foldl_keeps _ ?_ _ _ _ ?_
  · intro a4 a5
    extract_lets -lift +onlyGivenNames c6
    clear_value c6
    refine foldl_keeps _ ?_ _ _ _ ?_
    · intro a7 a8
      extract_lets -lift +onlyGivenNames w9
      clear_value w9
      refine ite_keeps _ _ _ ?_ ?_
      · intro a10
        refine Keeps.step (operandArrive_keeps ..) rfl ?_
        exact Keeps.refl _ _
      · intro a11
        exact Keeps.refl _ _
    · exact Keeps.refl _ _
  · assumption

theorem noteLate_keeps (d : Nat) (kind : Nat) (l : List (Nat × Nat × Bool)) (s : State) : Keeps [.tick, .tiles, .galley] s (noteLate d kind l s) := by
  unfold noteLate
  extract_lets -lift +onlyGivenNames s0
  have h_s0 : Keeps [.tick, .tiles, .galley] s s0 := by
    refine foldl_keeps _ ?_ _ _ _ ?_
    · intro a1 a2
      refine Keeps.step (journal_keeps ..) rfl ?_
      exact Keeps.refl _ _
    · exact Keeps.refl _ _
  clear_value s0
  extract_lets -lift +onlyGivenNames miss3
  clear_value miss3
  extract_lets -lift +onlyGivenNames s4
  have h_s4 : Keeps [.tick, .tiles, .galley] s s4 := by
    refine Keeps.step (State.onGalley_keeps ..) rfl ?_
    assumption
  clear_value s4
  extract_lets -lift +onlyGivenNames s5
  have h_s5 : Keeps [.tick, .tiles, .galley] s s5 := by
    refine Keeps.step (dieUpd_keeps ..) rfl ?_
    assumption
  clear_value s5
  refine Keeps.step (State.onTick_keeps _ _ (by exact id)) rfl ?_
  assumption

theorem portsEnter_keeps (d : Nat) (s : State) : Keeps [.tick, .tiles, .galley] s (portsEnter d s) := by
  unfold portsEnter
  extract_lets -lift +onlyGivenNames r0
  clear_value r0
  refine Keeps.step (noteLate_keeps ..) rfl ?_
  refine Keeps.step (dieUpd_keeps ..) rfl ?_
  exact Keeps.refl _ _

theorem dutiesEnter_keeps (d : Nat) (s : State) : Keeps [.tick, .tiles, .galley] s (dutiesEnter d s) := by
  unfold dutiesEnter
  extract_lets -lift +onlyGivenNames r0
  clear_value r0
  refine Keeps.step (noteLate_keeps ..) rfl ?_
  refine Keeps.step (dieUpd_keeps ..) rfl ?_
  exact Keeps.refl _ _

theorem shedItems_keeps (d : Nat) (s : State) : Keeps [.fault, .tiles] s (shedItems d s) := by
  unfold shedItems
  extract_lets -lift +onlyGivenNames l0
  clear_value l0
  refine foldl_keeps _ ?_ _ _ _ ?_
  · intro a1 a2
    refine Keeps.step (itemCancel_keeps ..) rfl ?_
    refine Keeps.step (dieUpd_keeps ..) rfl ?_
    exact Keeps.refl _ _
  · exact Keeps.refl _ _

theorem shedFall_keeps (d : Nat) (s : State) : Keeps [.fault, .tiles, .galley] s (shedFall d s) := by
  unfold shedFall
  extract_lets -lift +onlyGivenNames x0
  clear_value x0
  refine ite_keeps _ _ _ ?_ ?_
  · intro a1
    refine Keeps.step (dispEvent_keeps ..) rfl ?_
    refine Keeps.step (journal_keeps ..) rfl ?_
    refine Keeps.step (dieUpd_keeps ..) rfl ?_
    exact Keeps.refl _ _
  · intro a2
    exact Keeps.refl _ _

theorem shedCheck_keeps (d : Nat) (s : State) : Keeps [.fault, .tiles, .galley] s (shedCheck d s) := by
  unfold shedCheck
  extract_lets -lift +onlyGivenNames x0
  clear_value x0
  extract_lets -lift +onlyGivenNames excess1
  clear_value excess1
  extract_lets -lift +onlyGivenNames up2
  clear_value up2
  extract_lets -lift +onlyGivenNames s3
  have h_s3 : Keeps [.fault, .tiles, .galley] s s3 := by
    refine Keeps.step (dieUpd_keeps ..) rfl ?_
    exact Keeps.refl _ _
  clear_value s3
  extract_lets -lift +onlyGivenNames s4
  have h_s4 : Keeps [.fault, .tiles, .galley] s s4 := by
    refine Keeps.step (shedFall_keeps ..) rfl ?_
    refine when_keeps _ _ _ _ ?_ ?_
    · assumption
    · refine Keeps.step (shedItems_keeps ..) rfl ?_
      refine Keeps.step (dispEvent_keeps ..) rfl ?_
      refine Keeps.step (journal_keeps ..) rfl ?_
      exact Keeps.refl _ _
  clear_value s4
  refine foldl_keeps _ ?_ _ _ _ ?_
  · intro a5 a6
    refine Keeps.step (giveWay_keeps ..) rfl ?_
    exact Keeps.refl _ _
  · assumption

theorem itemsCreate_keeps (d : Nat) (s : State) : Keeps [.fault, .tiles, .galley] s (itemsCreate d s) := by
  unfold itemsCreate
  extract_lets -lift +onlyGivenNames t0
  clear_value t0
  extract_lets -lift +onlyGivenNames evs1
  clear_value evs1
  refine foldl_keeps _ ?_ _ _ _ ?_
  · intro a2 a3
    extract_lets -lift +onlyGivenNames c4
    clear_value c4
    refine ite_keeps _ _ _ ?_ ?_
    · intro a5
      exact Keeps.refl _ _
    · intro a6
      refine ite_keeps _ _ _ ?_ ?_
      · intro a7
        refine foldl_keeps _ ?_ _ _ _ ?_
        · intro a8 a9
          refine Keeps.step (itemCreate_keeps ..) rfl ?_
          exact Keeps.refl _ _
        · exact Keeps.refl _ _
      · intro a10
        refine ite_keeps _ _ _ ?_ ?_
        · intro a11
          refine Keeps.step (itemCreate_keeps ..) rfl ?_
          exact Keeps.refl _ _
        · intro a12
          exact Keeps.refl _ _
  · exact Keeps.refl _ _

theorem pruneRuns_keeps (d : Nat) (s : State) : Keeps [.tiles] s (pruneRuns d s) := by
  unfold pruneRuns
  extract_lets -lift +onlyGivenNames now0
  clear_value now0
  refine Keeps.step (dieUpd_keeps ..) rfl ?_
  exact Keeps.refl _ _

theorem dispCrossing_keeps (d : Nat) (s : State) : Keeps [.fault, .tiles, .galley] s (dispCrossing d s) := by
  unfold dispCrossing
  refine ite_keeps _ _ _ ?_ ?_
  · intro a0
    refine Keeps.step (itemsCreate_keeps ..) rfl ?_
    refine Keeps.step (shedCheck_keeps ..) rfl ?_
    refine Keeps.step (pruneRuns_keeps ..) rfl ?_
    exact Keeps.refl _ _
  · intro a1
    exact Keeps.refl _ _

theorem commitFlows_keeps (d : Nat) (s : State) : Keeps [.fault, .tiles] s (commitFlows d s) := by
  unfold commitFlows
  refine foldl_keeps _ ?_ _ _ _ ?_
  · intro a0 a1
    extract_lets -lift +onlyGivenNames ch2
    clear_value ch2
    extract_lets -lift +onlyGivenNames wait3
    clear_value wait3
    extract_lets -lift +onlyGivenNames t4
    have h_t4 : Keeps [.fault, .tiles] a0 t4 := by
      refine ite_keeps _ _ _ ?_ ?_
      · intro a5
        refine foldl_keeps _ ?_ _ _ _ ?_
        · intro a6 a7
          refine Keeps.step (itemCancel_keeps ..) rfl ?_
          exact Keeps.refl _ _
        · exact Keeps.refl _ _
      · intro a8
        exact Keeps.refl _ _
    clear_value t4
    refine Keeps.step (dieUpd_keeps ..) rfl ?_
    assumption
  · exact Keeps.refl _ _

theorem commitBinds_keeps (d : Nat) (s : State) : Keeps [.fault, .tiles] s (commitBinds d s) := by
  unfold commitBinds
  refine foldl_keeps _ ?_ _ _ _ ?_
  · intro a0 a1
    extract_lets -lift +onlyGivenNames old2
    clear_value old2
    extract_lets -lift +onlyGivenNames len3
    clear_value len3
    extract_lets -lift +onlyGivenNames zero4
    clear_value zero4
    extract_lets -lift +onlyGivenNames nb5
    clear_value nb5
    extract_lets -lift +onlyGivenNames own6
    clear_value own6
    extract_lets -lift +onlyGivenNames lost7
    clear_value lost7
    extract_lets -lift +onlyGivenNames z t8
    clear_value z
    have h_t8 : Keeps [.fault, .tiles] a0 t8 := by
      refine Keeps.step (dieUpd_keeps ..) rfl ?_
      exact Keeps.refl _ _
    clear_value t8
    refine Keeps.step (portsInvalid_keeps ..) rfl ?_
    assumption
  · exact Keeps.refl _ _

theorem unboundEvents_keeps (l : List (Nat × List Nat × List Nat)) (s : State) : Keeps [.fault] s (unboundEvents l s) := by
  unfold unboundEvents
  refine foldl_keeps _ ?_ _ _ _ ?_
  · intro a0 a1
    extract_lets -lift +onlyGivenNames conf2
    clear_value conf2
    extract_lets -lift +onlyGivenNames bad3
    clear_value bad3
    refine foldl_keeps _ ?_ _ _ _ ?_
    · intro a4 a5
      refine Keeps.step (dispEvent_keeps ..) rfl ?_
      exact Keeps.refl _ _
    · exact Keeps.refl _ _
  · exact Keeps.refl _ _

theorem commitTiles_keeps (s : State) : Keeps [.fault, .tiles] s (commitTiles s) := by
  unfold commitTiles
  refine foldl_keeps _ ?_ _ _ _ ?_
  · intro a0 a1
    refine Keeps.step (commitBinds_keeps ..) rfl ?_
    exact Keeps.refl _ _
  · exact Keeps.refl _ _

theorem commitDisp_keeps (s : State) : Keeps [.fault, .tiles] s (commitDisp s) := by
  unfold commitDisp
  refine Keeps.step (State.onTiles_keeps ..) rfl ?_
  refine foldl_keeps _ ?_ _ _ _ ?_
  · intro a0 a1
    refine Keeps.step (commitFlows_keeps ..) rfl ?_
    exact Keeps.refl _ _
  · exact Keeps.refl _ _

/-! ### TileOps -/

theorem tileUpd_keeps (d : Nat) (t : Nat) (f : TileSt → TileSt) (s : State) : Keeps [.tiles] s (tileUpd d t f s) := by
  unfold tileUpd
  refine Keeps.step (dieUpd_keeps ..) rfl ?_
  exact Keeps.refl _ _

theorem tileAbort_keeps (d : Nat) (t : Nat) (f : TFault) (s : State) : Keeps [.fault, .tiles, .galley] s (tileAbort d t f s) := by
  unfold tileAbort
  extract_lets -lift +onlyGivenNames x0
  clear_value x0
  split
  · exact Keeps.refl _ _
  · extract_lets -lift +onlyGivenNames n1
    clear_value n1
    extract_lets -lift +onlyGivenNames s2
    have h_s2 : Keeps [.fault, .tiles, .galley] s s2 := by
      refine Keeps.step (tileUpd_keeps ..) rfl ?_
      exact Keeps.refl _ _
    clear_value s2
    extract_lets -lift +onlyGivenNames s3
    have h_s3 : Keeps [.fault, .tiles, .galley] s s3 := by
      refine Keeps.step (dieUpd_keeps ..) rfl ?_
      assumption
    clear_value s3
    extract_lets -lift +onlyGivenNames s4
    have h_s4 : Keeps [.fault, .tiles, .galley] s s4 := by
      refine Keeps.step (flowUpd_keeps ..) rfl ?_
      refine Keeps.step (itemDel_keeps ..) rfl ?_
      assumption
    clear_value s4
    extract_lets -lift +onlyGivenNames s5
    have h_s5 : Keeps [.fault, .tiles, .galley] s s5 := by
      refine Keeps.step (dispEvent_keeps ..) rfl ?_
      assumption
    clear_value s5
    refine Keeps.step (itemFail_keeps ..) rfl ?_
    refine when_keeps _ _ _ _ ?_ ?_
    · assumption
    · refine Keeps.step (journal_keeps ..) rfl ?_
      exact Keeps.refl _ _

theorem issueWith_keeps_in (L : List Part) (hL : ([.fault, .tiles, .galley].all fun p => L.contains p) = true) (d : Nat) (t : Nat) (w : Word32) (op : Nat) (zero : Word32) (reads : List Nat) (cost : Nat) (s : State) (act : Item → TileSt → TRes) (fin : Item → TileSt → State → State) (ih_f : ∀ i y u, Keeps L u (fin i y u)) : Keeps L s (issueWith d t w op zero reads cost s act fin) := by
  unfold issueWith
  extract_lets -lift +onlyGivenNames x0
  clear_value x0
  split
  · exact Keeps.refl _ _
  · refine ite_keeps _ _ _ ?_ ?_
    · intro a1
      exact Keeps.refl _ _
    · intro a2
      refine ite_keeps _ _ _ ?_ ?_
      · intro a3
        refine Keeps.step (tileAbort_keeps ..) hL ?_
        exact Keeps.refl _ _
      · intro a4
        refine ite_keeps _ _ _ ?_ ?_
        · intro a5
          exact Keeps.refl _ _
        · intro a6
          refine ite_keeps _ _ _ ?_ ?_
          · intro a7
            refine Keeps.step (tileAbort_keeps ..) hL ?_
            exact Keeps.refl _ _
          · intro a8
            extract_lets -lift +onlyGivenNames stall9
            clear_value stall9
            split
            · refine Keeps.step (tileAbort_keeps ..) hL ?_
              exact Keeps.refl _ _
            · exact ih_f ..

theorem issueWith_keeps (d : Nat) (t : Nat) (w : Word32) (op : Nat) (zero : Word32) (reads : List Nat) (cost : Nat) (s : State) (act : Item → TileSt → TRes) (fin : Item → TileSt → State → State) (ih_f : ∀ i y u, Keeps [.fault, .tiles, .galley] u (fin i y u)) : Keeps [.fault, .tiles, .galley] s (issueWith d t w op zero reads cost s act fin) :=
  issueWith_keeps_in _ rfl d t w op zero reads cost s act fin ih_f

theorem issue_keeps (d : Nat) (t : Nat) (w : Word32) (op : Nat) (zero : Word32) (reads : List Nat) (cost : Nat) (s : State) (act : Item → TileSt → TRes) : Keeps [.fault, .tiles, .galley] s (issue d t w op zero reads cost s act) := by
  unfold issue
  refine Keeps.step (issueWith_keeps (ih_f := ?_) ..) rfl ?_
  · intro a0 a1 a2
    refine Keeps.step (tileUpd_keeps ..) rfl ?_
    exact Keeps.refl _ _
  · exact Keeps.refl _ _

theorem itemStart_keeps (d : Nat) (t : Nat) (i : Item) (wait : Nat) (s : State) : Keeps [.tiles] s (itemStart d t i wait s) := by
  unfold itemStart
  split
  · exact Keeps.refl _ _
  · extract_lets -lift +onlyGivenNames n0
    clear_value n0
    extract_lets -lift +onlyGivenNames x1
    clear_value x1
    extract_lets -lift +onlyGivenNames x2
    clear_value x2
    extract_lets -lift +onlyGivenNames s3
    have h_s3 : Keeps [.tiles] s s3 := by
      refine Keeps.step (tileUpd_keeps ..) rfl ?_
      refine Keeps.step (itemUpd_keeps ..) rfl ?_
      exact Keeps.refl _ _
    clear_value s3
    refine Keeps.step (dieUpd_keeps ..) rfl ?_
    assumption

theorem itemEnd_keeps (d : Nat) (t : Nat) (i : Item) (x : TileSt) (s : State) : Keeps [.fault, .tiles] s (itemEnd d t i x s) := by
  unfold itemEnd
  extract_lets -lift +onlyGivenNames n0
  clear_value n0
  extract_lets -lift +onlyGivenNames bad1
  clear_value bad1
  extract_lets -lift +onlyGivenNames st2
  clear_value st2
  extract_lets -lift +onlyGivenNames s3
  have h_s3 : Keeps [.fault, .tiles] s s3 := by
    refine Keeps.step (tileUpd_keeps ..) rfl ?_
    exact Keeps.refl _ _
  clear_value s3
  extract_lets -lift +onlyGivenNames copies4
  clear_value copies4
  extract_lets -lift +onlyGivenNames s5
  have h_s5 : Keeps [.fault, .tiles] s s5 := by
    refine Keeps.step (dieUpd_keeps ..) rfl ?_
    assumption
  clear_value s5
  extract_lets -lift +onlyGivenNames s6
  have h_s6 : Keeps [.fault, .tiles] s s6 := by
    refine Keeps.step (itemUpd_keeps ..) rfl ?_
    assumption
  clear_value s6
  refine when_keeps _ _ _ _ ?_ ?_
  · assumption
  · refine Keeps.step (raise_keeps ..) rfl ?_
    exact Keeps.refl _ _

/-! ### MeasOps -/

theorem mUpd_keeps (c : Nat) (f : MChan → MChan) (s : State) : Keeps [.meas] s (mUpd c f s) := by
  unfold mUpd
  refine Keeps.step (State.onMeas_keeps ..) rfl ?_
  exact Keeps.refl _ _

theorem unitUpd_keeps (u : Nat) (f : MUnit → MUnit) (s : State) : Keeps [.meas] s (unitUpd u f s) := by
  unfold unitUpd
  refine Keeps.step (State.onMeas_keeps ..) rfl ?_
  exact Keeps.refl _ _

theorem mPairUpd_keeps (p : Nat) (f : MPair → MPair) (s : State) : Keeps [.meas] s (mPairUpd p f s) := by
  unfold mPairUpd
  refine Keeps.step (State.onMeas_keeps ..) rfl ?_
  exact Keeps.refl _ _

theorem measEvent_keeps (kind : Nat) (cls : FClass) (addr : Nat) (d : List Nat) (s : State) : Keeps [.fault] s (measEvent kind cls addr d s) := by
  unfold measEvent
  refine Keeps.step (raise_keeps ..) rfl ?_
  exact Keeps.refl _ _

theorem switchAll_keeps (p : Nat → Bool) (s : State) : Keeps [.meas] s (switchAll p s) := by
  unfold switchAll
  refine Keeps.step (State.onMeas_keeps ..) rfl ?_
  exact Keeps.refl _ _

theorem keepOutputs_keeps (s : State) : Keeps [.meas] s (keepOutputs s) := by
  unfold keepOutputs
  refine Keeps.step (State.onMeas_keeps ..) rfl ?_
  exact Keeps.refl _ _

theorem testStart_keeps (s : State) : Keeps [.meas] s (testStart s) := by
  unfold testStart
  split
  · extract_lets -lift +onlyGivenNames wait0
    clear_value wait0
    refine ite_keeps _ _ _ ?_ ?_
    · intro a1
      exact Keeps.refl _ _
    · intro a2
      refine Keeps.step (State.onMeas_keeps ..) rfl ?_
      refine Keeps.step (keepOutputs_keeps ..) rfl ?_
      exact Keeps.refl _ _
  · exact Keeps.refl _ _

theorem testAdd_keeps (t : DacTest) (s : State) : Keeps [.meas] s (testAdd t s) := by
  unfold testAdd
  refine Keeps.step (testStart_keeps ..) rfl ?_
  refine Keeps.step (State.onMeas_keeps ..) rfl ?_
  exact Keeps.refl _ _

theorem testPop_keeps (s : State) : Keeps [.meas] s (testPop s) := by
  unfold testPop
  refine Keeps.step (testStart_keeps ..) rfl ?_
  refine Keeps.step (State.onMeas_keeps ..) rfl ?_
  exact Keeps.refl _ _

theorem calStart_keeps (u : Nat) (covered : Bool) (s : State) : Keeps [.meas] s (calStart u covered s) := by
  unfold calStart
  refine ite_keeps _ _ _ ?_ ?_
  · intro a0
    refine Keeps.step (State.onMeas_keeps ..) rfl ?_
    exact Keeps.refl _ _
  · intro a1
    refine ite_keeps _ _ _ ?_ ?_
    · intro a2
      refine Keeps.step (unitUpd_keeps ..) rfl ?_
      refine Keeps.step (State.onMeas_keeps ..) rfl ?_
      exact Keeps.refl _ _
    · intro a3
      refine Keeps.step (unitUpd_keeps ..) rfl ?_
      exact Keeps.refl _ _

theorem calAsk_keeps (u : Nat) (unc : Bool) (s : State) : Keeps [.meas] s (calAsk u unc s) := by
  unfold calAsk
  extract_lets -lift +onlyGivenNames taken0
  clear_value taken0
  refine ite_keeps _ _ _ ?_ ?_
  · intro a1
    refine ite_keeps _ _ _ ?_ ?_
    · intro a2
      refine Keeps.step (State.onMeas_keeps ..) rfl ?_
      exact Keeps.refl _ _
    · intro a3
      refine Keeps.step (calStart_keeps ..) rfl ?_
      exact Keeps.refl _ _
  · intro a4
    refine ite_keeps _ _ _ ?_ ?_
    · intro a5
      refine Keeps.step (calStart_keeps ..) rfl ?_
      exact Keeps.refl _ _
    · intro a6
      refine ite_keeps _ _ _ ?_ ?_
      · intro a7
        refine Keeps.step (calStart_keeps ..) rfl ?_
        exact Keeps.refl _ _
      · intro a8
        refine ite_keeps _ _ _ ?_ ?_
        · intro a9
          refine Keeps.step (State.onMeas_keeps ..) rfl ?_
          exact Keeps.refl _ _
        · intro a10
          refine Keeps.step (calStart_keeps ..) rfl ?_
          exact Keeps.refl _ _

theorem calNext_keeps (s : State) : Keeps [.meas] s (calNext s) := by
  unfold calNext
  split
  · refine ite_keeps _ _ _ ?_ ?_
    · intro a0
      exact Keeps.refl _ _
    · intro a1
      refine Keeps.step (calStart_keeps ..) rfl ?_
      refine Keeps.step (State.onMeas_keeps ..) rfl ?_
      exact Keeps.refl _ _
  · exact Keeps.refl _ _

theorem settleEnd_keeps (s : State) : Keeps [.mb, .meas] s (settleEnd s) := by
  unfold settleEnd
  extract_lets -lift +onlyGivenNames s0
  have h_s0 : Keeps [.mb, .meas] s s0 := by
    refine Keeps.step (switchAll_keeps ..) rfl ?_
    refine Keeps.step (keepOutputs_keeps ..) rfl ?_
    exact Keeps.refl _ _
  clear_value s0
  extract_lets -lift +onlyGivenNames s1
  have h_s1 : Keeps [.mb, .meas] s s1 := by
    refine foldl_keeps _ ?_ _ _ _ ?_
    · intro a2 a3
      refine foldl_keeps _ ?_ _ _ _ ?_
      · intro a4 a5
        refine Keeps.step (calAsk_keeps ..) rfl ?_
        exact Keeps.refl _ _
      · exact Keeps.refl _ _
    · assumption
  clear_value s1
  refine Keeps.step (endPending_keeps ..) rfl ?_
  refine Keeps.step (testStart_keeps ..) rfl ?_
  assumption

theorem jobsEnd_keeps (s : State) : Keeps [.mb, .meas] s (jobsEnd s) := by
  unfold jobsEnd
  extract_lets -lift +onlyGivenNames gone0
  clear_value gone0
  refine foldl_keeps _ ?_ _ _ _ ?_
  · intro a1 a2
    refine Keeps.step (endPending_keeps ..) rfl ?_
    exact Keeps.refl _ _
  · refine Keeps.step (State.onMeas_keeps ..) rfl ?_
    exact Keeps.refl _ _

theorem settleLeave_keeps (u : Nat) (s : State) : Keeps [.mb, .meas] s (settleLeave u s) := by
  unfold settleLeave
  extract_lets -lift +onlyGivenNames s0
  have h_s0 : Keeps [.mb, .meas] s s0 := by
    refine Keeps.step (State.onMeas_keeps ..) rfl ?_
    exact Keeps.refl _ _
  clear_value s0
  refine ite_keeps _ _ _ ?_ ?_
  · intro a1
    refine Keeps.step (settleEnd_keeps ..) rfl ?_
    assumption
  · intro a2
    assumption

theorem spareFree_keeps (u : Nat) (s : State) : Keeps [.meas] s (spareFree u s) := by
  unfold spareFree
  refine Keeps.step (calNext_keeps ..) rfl ?_
  refine Keeps.step (State.onMeas_keeps ..) rfl ?_
  exact Keeps.refl _ _

theorem nextConv_keeps (u : Nat) (s : State) : Keeps [.meas] s (nextConv u s) := by
  unfold nextConv
  extract_lets q x next y served z
  clear_value z
  refine when_keeps _ _ _ _ ?_ ?_
  · refine Keeps.step (unitUpd_keeps ..) rfl ?_
    exact Keeps.refl _ _
  · exact spareFree_keeps ..

theorem convResume_keeps (u : Nat) (s : State) : Keeps [.meas] s (convResume u s) := by
  unfold convResume
  extract_lets -lift +onlyGivenNames ilen0
  clear_value ilen0
  refine Keeps.step (unitUpd_keeps ..) rfl ?_
  exact Keeps.refl _ _

theorem convResult_keeps (u : Nat) (code : Int) (at_ : Nat) (s : State) : Keeps [.fault, .meas] s (convResult u code at_ s) := by
  unfold convResult
  extract_lets -lift +onlyGivenNames x0
  clear_value x0
  extract_lets -lift +onlyGivenNames ch1
  clear_value ch1
  extract_lets -lift +onlyGivenNames cfg2
  clear_value cfg2
  refine ite_keeps _ _ _ ?_ ?_
  · intro a3
    exact Keeps.refl _ _
  · intro a4
    extract_lets -lift +onlyGivenNames m5
    clear_value m5
    extract_lets -lift +onlyGivenNames k6
    clear_value k6
    extract_lets -lift +onlyGivenNames m7
    clear_value m7
    extract_lets -lift +onlyGivenNames first8
    clear_value first8
    refine when_keeps _ _ _ _ ?_ ?_
    · refine Keeps.step (mUpd_keeps ..) rfl ?_
      exact Keeps.refl _ _
    · refine Keeps.step (measEvent_keeps ..) rfl ?_
      exact Keeps.refl _ _

theorem noteOverrun_keeps (u : Nat) (s : State) : Keeps [.fault, .meas] s (noteOverrun u s) := by
  unfold noteOverrun
  extract_lets -lift +onlyGivenNames first0
  clear_value first0
  refine when_keeps _ _ _ _ ?_ ?_
  · refine Keeps.step (unitUpd_keeps ..) rfl ?_
    exact Keeps.refl _ _
  · refine Keeps.step (measEvent_keeps ..) rfl ?_
    exact Keeps.refl _ _

theorem commitMeas_keeps (s : State) : Keeps [.meas] s (commitMeas s) := by
  unfold commitMeas
  extract_lets -lift +onlyGivenNames sw0
  clear_value sw0
  extract_lets -lift +onlyGivenNames us1
  clear_value us1
  extract_lets -lift +onlyGivenNames s2
  have h_s2 : Keeps [.meas] s s2 := by
    refine Keeps.step (switchAll_keeps ..) rfl ?_
    refine Keeps.step (keepOutputs_keeps ..) rfl ?_
    exact Keeps.refl _ _
  clear_value s2
  extract_lets -lift +onlyGivenNames s3
  have h_s3 : Keeps [.meas] s s3 := by
    refine foldl_keeps _ ?_ _ _ _ ?_
    · intro a4 a5
      refine Keeps.step (unitUpd_keeps ..) rfl ?_
      exact Keeps.refl _ _
    · assumption
  clear_value s3
  refine Keeps.step (State.onMeas_keeps ..) rfl ?_
  assumption

theorem unitCalOff_keeps (unit : Nat) (s : State) : Keeps [.mb, .meas] s (unitCalOff unit s) := by
  unfold unitCalOff
  extract_lets -lift +onlyGivenNames s0
  have h_s0 : Keeps [.mb, .meas] s s0 := by
    refine Keeps.step (State.onMeas_keeps ..) rfl ?_
    exact Keeps.refl _ _
  clear_value s0
  refine Keeps.step (settleLeave_keeps ..) rfl ?_
  refine Keeps.step (jobsEnd_keeps ..) rfl ?_
  assumption

theorem unitTestsOff_keeps (unit : Nat) (s : State) : Keeps [.mb, .meas] s (unitTestsOff unit s) := by
  unfold unitTestsOff
  extract_lets -lift +onlyGivenNames mine0
  clear_value mine0
  extract_lets -lift +onlyGivenNames s1
  have h_s1 : Keeps [.mb, .meas] s s1 := by
    refine foldl_keeps _ ?_ _ _ _ ?_
    · intro a2 a3
      refine Keeps.step (endPending_keeps ..) rfl ?_
      exact Keeps.refl _ _
    · exact Keeps.refl _ _
  clear_value s1
  refine Keeps.step (State.onMeas_keeps ..) rfl ?_
  assumption

theorem unitFail_keeps (unit : Nat) (cause : Nat) (s : State) : Keeps [.mb, .fault, .meas] s (unitFail unit cause s) := by
  unfold unitFail
  refine ite_keeps _ _ _ ?_ ?_
  · intro a0
    exact Keeps.refl _ _
  · intro a1
    refine ite_keeps _ _ _ ?_ ?_
    · intro a2
      refine ite_keeps _ _ _ ?_ ?_
      · intro a3
        refine Keeps.step (unitTestsOff_keeps ..) rfl ?_
        refine Keeps.step (unitCalOff_keeps ..) rfl ?_
        refine Keeps.step (State.onMeas_keeps ..) rfl ?_
        exact Keeps.refl _ _
      · intro a4
        exact Keeps.refl _ _
    · intro a5
      refine ite_keeps _ _ _ ?_ ?_
      · intro a6
        exact Keeps.refl _ _
      · intro a7
        extract_lets -lift +onlyGivenNames s8
        have h_s8 : Keeps [.mb, .fault, .meas] s s8 := by
          refine Keeps.step (keepOutputs_keeps ..) rfl ?_
          refine Keeps.step (State.onMeas_keeps ..) rfl ?_
          exact Keeps.refl _ _
        clear_value s8
        refine ite_keeps _ _ _ ?_ ?_
        · intro a9
          extract_lets -lift +onlyGivenNames s10
          have h_s10 : Keeps [.mb, .fault, .meas] s s10 := by
            refine Keeps.step (unitUpd_keeps ..) rfl ?_
            assumption
          clear_value s10
          extract_lets -lift +onlyGivenNames s11
          have h_s11 : Keeps [.mb, .fault, .meas] s s11 := by
            refine Keeps.step (switchAll_keeps ..) rfl ?_
            refine Keeps.step (State.onMeas_keeps ..) rfl ?_
            assumption
          clear_value s11
          refine Keeps.step (testStart_keeps ..) rfl ?_
          refine Keeps.step (unitCalOff_keeps ..) rfl ?_
          refine Keeps.step (measEvent_keeps ..) rfl ?_
          assumption
        · intro a12
          extract_lets -lift +onlyGivenNames s13
          have h_s13 : Keeps [.mb, .fault, .meas] s s13 := by
            refine Keeps.step (unitUpd_keeps ..) rfl ?_
            assumption
          clear_value s13
          extract_lets -lift +onlyGivenNames s14
          have h_s14 : Keeps [.mb, .fault, .meas] s s14 := by
            refine Keeps.step (State.onMeas_keeps ..) rfl ?_
            assumption
          clear_value s14
          refine Keeps.step (testStart_keeps ..) rfl ?_
          refine Keeps.step (unitTestsOff_keeps ..) rfl ?_
          refine Keeps.step (unitCalOff_keeps ..) rfl ?_
          refine Keeps.step (measEvent_keeps ..) rfl ?_
          assumption

/-! ### NetOps -/

theorem netEvent_keeps (kind : Nat) (addr : Nat) (d : List Nat) (s : State) : Keeps [.fault] s (netEvent kind addr d s) := by
  unfold netEvent
  refine Keeps.step (raise_keeps ..) rfl ?_
  exact Keeps.refl _ _

theorem svUpd_keeps (n : Nat) (f : SvRun → SvRun) (s : State) : Keeps [.net] s (svUpd n f s) := by
  unfold svUpd
  refine Keeps.step (State.onNet_keeps ..) rfl ?_
  exact Keeps.refl _ _

theorem subUpd_keeps (n : Nat) (f : GsubRun → GsubRun) (s : State) : Keeps [.net] s (subUpd n f s) := by
  unfold subUpd
  refine Keeps.step (State.onNet_keeps ..) rfl ?_
  exact Keeps.refl _ _

theorem pubUpd_keeps (n : Nat) (f : GpubRun → GpubRun) (s : State) : Keeps [.net] s (pubUpd n f s) := by
  unfold pubUpd
  refine Keeps.step (State.onNet_keeps ..) rfl ?_
  exact Keeps.refl _ _

theorem ptpUpd_keeps (p : Nat) (f : PtpPort → PtpPort) (s : State) : Keeps [.net] s (ptpUpd p f s) := by
  unfold ptpUpd
  refine Keeps.step (State.onNet_keeps ..) rfl ?_
  exact Keeps.refl _ _

theorem dmaUpd_keeps (n : Nat) (f : DmaStream → DmaStream) (s : State) : Keeps [.net] s (dmaUpd n f s) := by
  unfold dmaUpd
  refine Keeps.step (State.onNet_keeps ..) rfl ?_
  exact Keeps.refl _ _

theorem streamNote_keeps (n : Nat) (cause : Nat) (s : State) : Keeps [.fault, .net] s (streamNote n cause s) := by
  unfold streamNote
  extract_lets -lift +onlyGivenNames bad0
  clear_value bad0
  extract_lets -lift +onlyGivenNames r1
  clear_value r1
  refine ite_keeps _ _ _ ?_ ?_
  · intro a2
    exact Keeps.refl _ _
  · intro a3
    refine Keeps.step (netEvent_keeps ..) rfl ?_
    refine Keeps.step (svUpd_keeps ..) rfl ?_
    exact Keeps.refl _ _

theorem svCompare_keeps (n : Nat) (same : Bool) (s : State) : Keeps [.fault, .net] s (svCompare n same s) := by
  unfold svCompare
  extract_lets -lift +onlyGivenNames r0
  clear_value r0
  extract_lets -lift +onlyGivenNames d1
  clear_value d1
  extract_lets -lift +onlyGivenNames a2
  clear_value a2
  extract_lets -lift +onlyGivenNames start3
  clear_value start3
  extract_lets -lift +onlyGivenNames stop4
  clear_value stop4
  extract_lets -lift +onlyGivenNames s5
  have h_s5 : Keeps [.fault, .net] s s5 := by
    refine Keeps.step (svUpd_keeps ..) rfl ?_
    exact Keeps.refl _ _
  clear_value s5
  refine Keeps.step (streamNote_keeps ..) rfl ?_
  refine when_keeps _ _ _ _ ?_ ?_
  · assumption
  · refine Keeps.step (netEvent_keeps ..) rfl ?_
    exact Keeps.refl _ _

theorem mapWrite_keeps (e : Nat × MapCfg) (a : Asdu) (s : State) : Keeps [.spare] s (mapWrite e a s) := by
  unfold mapWrite
  split
  · refine Keeps.step (cdcUpd_keeps ..) rfl ?_
    exact Keeps.refl _ _
  · exact Keeps.refl _ _

theorem asduCross_keeps (n : Nat) (a : Asdu) (s : State) : Keeps [.spare] s (asduCross n a s) := by
  unfold asduCross
  refine foldl_keeps _ ?_ _ _ _ ?_
  · intro a0 a1
    refine Keeps.step (mapWrite_keeps ..) rfl ?_
    exact Keeps.refl _ _
  · exact Keeps.refl _ _

theorem mapsSettle_keeps (all : Bool) (s : State) : Keeps [.spare] s (mapsSettle all s) := by
  unfold mapsSettle
  refine foldl_keeps _ ?_ _ _ _ ?_
  · intro a0 a1
    refine ite_keeps _ _ _ ?_ ?_
    · intro a2
      refine Keeps.step (cdcUpd_keeps ..) rfl ?_
      exact Keeps.refl _ _
    · intro a3
      exact Keeps.refl _ _
  · exact Keeps.refl _ _

theorem takeAsdu_keeps (port : Nat) (n : Nat) (a : AsduIn) (now : Nat) (s : State) : Keeps [.fault, .net, .spare] s (takeAsdu port n a now s) := by
  unfold takeAsdu
  extract_lets -lift +onlyGivenNames c0
  clear_value c0
  extract_lets -lift +onlyGivenNames r1
  clear_value r1
  extract_lets -lift +onlyGivenNames other2
  clear_value other2
  split
  · extract_lets -lift +onlyGivenNames same3
    clear_value same3
    extract_lets -lift +onlyGivenNames s4
    have h_s4 : Keeps [.fault, .net, .spare] s s4 := by
      refine Keeps.step (svUpd_keeps ..) rfl ?_
      exact Keeps.refl _ _
    clear_value s4
    refine ite_keeps _ _ _ ?_ ?_
    · intro a5
      refine Keeps.step (svCompare_keeps ..) rfl ?_
      assumption
    · intro a6
      assumption
  · extract_lets -lift +onlyGivenNames gap7
    clear_value gap7
    extract_lets -lift +onlyGivenNames fresh8
    clear_value fresh8
    refine ite_keeps _ _ _ ?_ ?_
    · intro a9
      refine Keeps.step (svUpd_keeps ..) rfl ?_
      exact Keeps.refl _ _
    · intro a10
      extract_lets -lift +onlyGivenNames asdu11
      clear_value asdu11
      refine Keeps.step (streamNote_keeps ..) rfl ?_
      refine Keeps.step (asduCross_keeps ..) rfl ?_
      refine Keeps.step (svUpd_keeps ..) rfl ?_
      exact Keeps.refl _ _

theorem netCross_keeps (s : State) : Keeps [.net, .spare] s (netCross s) := by
  unfold netCross
  extract_lets -lift +onlyGivenNames one0
  extract_lets -lift +onlyGivenNames s1
  have h_s1 : Keeps [.net, .spare] s s1 := by
    refine foldl_keeps _ ?_ _ _ _ ?_
    · intro a2 a3
      try dsimp -zeta only [one0]
      extract_lets -lift +onlyGivenNames m4
      clear_value m4
      extract_lets -lift +onlyGivenNames old5
      clear_value old5
      extract_lets -lift +onlyGivenNames r6
      clear_value r6
      refine Keeps.step (State.onNet_keeps ..) rfl ?_
      exact Keeps.refl _ _
    · exact Keeps.refl _ _
  clear_value s1
  refine Keeps.step (mapsSettle_keeps ..) rfl ?_
  refine Keeps.step (State.onNet_keeps ..) rfl ?_
  assumption

theorem dmaCross_keeps (s : State) : Keeps [.net] s (dmaCross s) := by
  unfold dmaCross
  refine Keeps.step (State.onNet_keeps ..) rfl ?_
  exact Keeps.refl _ _

theorem streamGone_keeps (n : Nat) (s : State) : Keeps [.fault, .net] s (streamGone n s) := by
  unfold streamGone
  extract_lets -lift +onlyGivenNames was0
  clear_value was0
  extract_lets -lift +onlyGivenNames s1
  have h_s1 : Keeps [.fault, .net] s s1 := by
    refine Keeps.step (svUpd_keeps ..) rfl ?_
    exact Keeps.refl _ _
  clear_value s1
  refine when_keeps _ _ _ _ ?_ ?_
  · assumption
  · refine Keeps.step (netEvent_keeps ..) rfl ?_
    exact Keeps.refl _ _

theorem mapsAgain_keeps (l : List Nat) (s : State) : Keeps [.spare] s (mapsAgain l s) := by
  unfold mapsAgain
  refine foldl_keeps _ ?_ _ _ _ ?_
  · intro a0 a1
    split
    · refine ite_keeps _ _ _ ?_ ?_
      · intro a2
        refine Keeps.step (mapWrite_keeps ..) rfl ?_
        exact Keeps.refl _ _
      · intro a3
        exact Keeps.refl _ _
    · exact Keeps.refl _ _
  · exact Keeps.refl _ _

theorem commitNet_keeps (s : State) : Keeps [.fault, .net, .spare] s (commitNet s) := by
  unfold commitNet
  extract_lets -lift +onlyGivenNames old0
  clear_value old0
  extract_lets -lift +onlyGivenNames moved1
  clear_value moved1
  extract_lets -lift +onlyGivenNames s2
  have h_s2 : Keeps [.fault, .net, .spare] s s2 := by
    refine foldl_keeps _ ?_ _ _ _ ?_
    · intro a3 a4
      refine Keeps.step (streamGone_keeps ..) rfl ?_
      exact Keeps.refl _ _
    · exact Keeps.refl _ _
  clear_value s2
  extract_lets -lift +onlyGivenNames s5
  have h_s5 : Keeps [.fault, .net, .spare] s s5 := by
    refine Keeps.step (State.onNet_keeps ..) rfl ?_
    refine Keeps.step (State.onSpare_keeps ..) rfl ?_
    assumption
  clear_value s5
  refine Keeps.step (mapsAgain_keeps ..) rfl ?_
  assumption

/-! ### ProtOps -/

theorem elUpd_keeps (n : Nat) (f : ElRun → ElRun) (s : State) : Keeps [.prot] s (elUpd n f s) := by
  unfold elUpd
  refine Keeps.step (State.onProt_keeps ..) rfl ?_
  exact Keeps.refl _ _

theorem tripUpd_keeps (n : Nat) (f : TripRun → TripRun) (s : State) : Keeps [.prot] s (tripUpd n f s) := by
  unfold tripUpd
  refine Keeps.step (State.onProt_keeps ..) rfl ?_
  exact Keeps.refl _ _

theorem protEvent_keeps (kind : Nat) (cls : FClass) (addr : Nat) (d : List Nat) (s : State) : Keeps [.fault] s (protEvent kind cls addr d s) := by
  unfold protEvent
  refine Keeps.step (raise_keeps ..) rfl ?_
  exact Keeps.refl _ _

theorem elTake_keeps (n : Nat) (time : Nat) (new : ElRun) (s : State) : Keeps [.fault, .prot] s (elTake n time new s) := by
  unfold elTake
  extract_lets -lift +onlyGivenNames old0
  clear_value old0
  extract_lets -lift +onlyGivenNames e1
  clear_value e1
  extract_lets -lift +onlyGivenNames s2
  have h_s2 : Keeps [.fault, .prot] s s2 := by
    refine Keeps.step (elUpd_keeps ..) rfl ?_
    exact Keeps.refl _ _
  clear_value s2
  extract_lets -lift +onlyGivenNames op3
  clear_value op3
  extract_lets -lift +onlyGivenNames q4
  clear_value q4
  extract_lets -lift +onlyGivenNames s5
  have h_s5 : Keeps [.fault, .prot] s s5 := by
    refine when_keeps _ _ _ _ ?_ ?_
    · assumption
    · refine Keeps.step (protEvent_keeps ..) rfl ?_
      refine Keeps.step (State.onProt_keeps ..) rfl ?_
      exact Keeps.refl _ _
  clear_value s5
  extract_lets -lift +onlyGivenNames s6
  have h_s6 : Keeps [.fault, .prot] s s6 := by
    refine when_keeps _ _ _ _ ?_ ?_
    · assumption
    · refine Keeps.step (protEvent_keeps ..) rfl ?_
      exact Keeps.refl _ _
  clear_value s6
  refine when_keeps _ _ _ _ ?_ ?_
  · assumption
  · refine Keeps.step (protEvent_keeps ..) rfl ?_
    exact Keeps.refl _ _

theorem tripStep_keeps (o : Nat) (s : State) : Keeps [.fault, .prot] s (tripStep o s) := by
  unfold tripStep
  extract_lets -lift +onlyGivenNames c0
  clear_value c0
  extract_lets -lift +onlyGivenNames r1
  clear_value r1
  extract_lets -lift +onlyGivenNames w2
  clear_value w2
  extract_lets -lift +onlyGivenNames latch3
  clear_value latch3
  extract_lets -lift +onlyGivenNames d4
  clear_value d4
  extract_lets -lift +onlyGivenNames tmin5
  clear_value tmin5
  extract_lets -lift +onlyGivenNames d6
  clear_value d6
  extract_lets -lift +onlyGivenNames level7
  clear_value level7
  extract_lets -lift +onlyGivenNames s8
  have h_s8 : Keeps [.fault, .prot] s s8 := by
    refine Keeps.step (tripUpd_keeps ..) rfl ?_
    exact Keeps.refl _ _
  clear_value s8
  refine when_keeps _ _ _ _ ?_ ?_
  · assumption
  · refine Keeps.step (protEvent_keeps ..) rfl ?_
    exact Keeps.refl _ _

theorem tripsStep_keeps (s : State) : Keeps [.fault, .prot] s (tripsStep s) := by
  unfold tripsStep
  refine foldl_keeps _ ?_ _ _ _ ?_
  · intro a0 a1
    refine Keeps.step (tripStep_keeps ..) rfl ?_
    exact Keeps.refl _ _
  · exact Keeps.refl _ _

theorem recTrigger.recStart_keeps (cause : Nat) (manual : Bool) (time : Nat) (c : RecCfg) (s : State) : Keeps [.fault, .prot] s (recTrigger.recStart cause manual time c s) := by
  unfold recTrigger.recStart
  split
  · refine Keeps.step (protEvent_keeps ..) rfl ?_
    refine Keeps.step (State.onProt_keeps ..) rfl ?_
    exact Keeps.refl _ _
  · refine Keeps.step (State.onProt_keeps ..) rfl ?_
    exact Keeps.refl _ _

theorem recTrigger_keeps (cause : Nat) (manual : Bool) (time : Nat) (s : State)  : Keeps [.fault, .prot] s (recTrigger cause manual time s) := by
  unfold recTrigger
  extract_lets -lift +onlyGivenNames c0
  clear_value c0
  split
  · refine ite_keeps _ _ _ ?_ ?_
    · intro a1
      refine ite_keeps _ _ _ ?_ ?_
      · intro a2
        refine Keeps.step (State.onProt_keeps ..) rfl ?_
        exact Keeps.refl _ _
      · intro a3
        refine Keeps.step (State.onProt_keeps ..) rfl ?_
        exact Keeps.refl _ _
    · intro a4
      refine Keeps.step (recTrigger.recStart_keeps ..) rfl ?_
      exact Keeps.refl _ _
  · refine Keeps.step (recTrigger.recStart_keeps ..) rfl ?_
    exact Keeps.refl _ _

theorem recSample_keeps (dram : Bool) (dig : Nat) (s : State) : Keeps [.prot] s (recSample dram dig s) := by
  unfold recSample
  extract_lets -lift +onlyGivenNames c0
  clear_value c0
  extract_lets -lift +onlyGivenNames an1
  clear_value an1
  extract_lets -lift +onlyGivenNames smp2
  clear_value smp2
  refine Keeps.step (State.onProt_keeps ..) rfl ?_
  exact Keeps.refl _ _

theorem recAsk_keeps (dig : Nat) (time : Nat) (s : State) : Keeps [.fault, .prot] s (recAsk dig time s) := by
  unfold recAsk
  split
  · refine Keeps.step (recTrigger_keeps ..) rfl ?_
    exact Keeps.refl _ _
  · exact Keeps.refl _ _

theorem recLook_keeps (time : Nat) (s : State) : Keeps [.fault, .prot] s (recLook time s) := by
  unfold recLook
  refine Keeps.step (State.onProt_keeps ..) rfl ?_
  refine Keeps.step (recAsk_keeps ..) rfl ?_
  exact Keeps.refl _ _

theorem recGap_keeps (dram : Bool) (s : State) : Keeps [.fault] s (recGap dram s) := by
  unfold recGap
  split
  · refine when_keeps _ _ _ _ ?_ ?_
    · exact Keeps.refl _ _
    · refine Keeps.step (giveWay_keeps ..) rfl ?_
      exact Keeps.refl _ _
  · exact Keeps.refl _ _

theorem recClose_keeps (s : State) : Keeps [.fault, .prot] s (recClose s) := by
  unfold recClose
  split
  · exact Keeps.refl _ _
  · extract_lets -lift +onlyGivenNames atMax0
    clear_value atMax0
    refine ite_keeps _ _ _ ?_ ?_
    · intro a1
      exact Keeps.refl _ _
    · intro a2
      extract_lets -lift +onlyGivenNames q3
      clear_value q3
      refine Keeps.step (protEvent_keeps ..) rfl ?_
      refine Keeps.step (State.onProt_keeps ..) rfl ?_
      exact Keeps.refl _ _

theorem recStep_keeps (dram : Bool) (time : Nat) (s : State) : Keeps [.fault, .prot] s (recStep dram time s) := by
  unfold recStep
  refine Keeps.step (recClose_keeps ..) rfl ?_
  refine Keeps.step (recGap_keeps ..) rfl ?_
  refine Keeps.step (recSample_keeps ..) rfl ?_
  refine Keeps.step (recLook_keeps ..) rfl ?_
  exact Keeps.refl _ _

theorem protStop_keeps (cause : Nat) (s : State) : Keeps [.fault, .prot] s (protStop cause s) := by
  unfold protStop
  refine ite_keeps _ _ _ ?_ ?_
  · intro a0
    exact Keeps.refl _ _
  · intro a1
    refine Keeps.step (protEvent_keeps ..) rfl ?_
    refine Keeps.step (State.onProt_keeps ..) rfl ?_
    exact Keeps.refl _ _

theorem commitProt_keeps (s : State) : Keeps [.fault, .prot] s (commitProt s) := by
  unfold commitProt
  extract_lets -lift +onlyGivenNames p0
  clear_value p0
  extract_lets -lift +onlyGivenNames new1
  clear_value new1
  extract_lets -lift +onlyGivenNames changed2
  clear_value changed2
  extract_lets -lift +onlyGivenNames pts3
  clear_value pts3
  extract_lets -lift +onlyGivenNames move4
  clear_value move4
  extract_lets -lift +onlyGivenNames s5
  have h_s5 : Keeps [.fault, .prot] s s5 := by
    refine foldl_keeps _ ?_ _ _ _ ?_
    · intro a6 a7
      refine Keeps.step (elTake_keeps ..) rfl ?_
      exact Keeps.refl _ _
    · exact Keeps.refl _ _
  clear_value s5
  extract_lets -lift +onlyGivenNames s8
  have h_s8 : Keeps [.fault, .prot] s s8 := by
    refine Keeps.step (State.onProt_keeps ..) rfl ?_
    assumption
  clear_value s8
  extract_lets -lift +onlyGivenNames s9
  have h_s9 : Keeps [.fault, .prot] s s9 := by
    refine Keeps.step (State.onProt_keeps ..) rfl ?_
    assumption
  clear_value s9
  refine when_keeps _ _ _ _ ?_ ?_
  · assumption
  · refine Keeps.step (protEvent_keeps ..) rfl ?_
    exact Keeps.refl _ _

/-! ### SafeOps -/

theorem safeEvent_keeps (kind : Nat) (d : List Nat) (s : State) : Keeps [.fault] s (safeEvent kind d s) := by
  unfold safeEvent
  refine Keeps.step (raise_keeps ..) rfl ?_
  exact Keeps.refl _ _

theorem safeEventAt_keeps (kind : Nat) (addr : Nat) (d : List Nat) (s : State) : Keeps [.fault] s (safeEventAt kind addr d s) := by
  unfold safeEventAt
  refine Keeps.step (raise_keeps ..) rfl ?_
  exact Keeps.refl _ _

theorem sealUpdate_keeps (s : State) : Keeps [.dev, .fault, .safe] s (sealUpdate s) := by
  unfold sealUpdate
  extract_lets -lift +onlyGivenNames x0
  clear_value x0
  extract_lets -lift +onlyGivenNames p1
  clear_value p1
  extract_lets -lift +onlyGivenNames off2
  clear_value off2
  extract_lets -lift +onlyGivenNames b3
  clear_value b3
  extract_lets -lift +onlyGivenNames new4
  clear_value new4
  extract_lets -lift +onlyGivenNames s5
  have h_s5 : Keeps [.dev, .fault, .safe] s s5 := by
    refine Keeps.step (State.onSafe_keeps ..) rfl ?_
    exact Keeps.refl _ _
  clear_value s5
  refine ite_keeps _ _ _ ?_ ?_
  · intro a6
    assumption
  · intro a7
    extract_lets -lift +onlyGivenNames s8
    have h_s8 : Keeps [.dev, .fault, .safe] s s8 := by
      refine Keeps.step (safeEvent_keeps ..) rfl ?_
      assumption
    clear_value s8
    refine ite_keeps _ _ _ ?_ ?_
    · intro a9
      refine Keeps.step (controlledBlock_keeps ..) rfl ?_
      assumption
    · intro a10
      assumption

theorem safeLoad_keeps (s : State) : Keeps [.safe] s (safeLoad s) := by
  unfold safeLoad
  extract_lets -lift +onlyGivenNames k0
  clear_value k0
  refine Keeps.step (State.onSafe_keeps ..) rfl ?_
  exact Keeps.refl _ _

theorem safeBoot_keeps (s : State) : Keeps [.dev, .fault, .safe] s (safeBoot s) := by
  unfold safeBoot
  refine ite_keeps _ _ _ ?_ ?_
  · intro a0
    refine Keeps.step (sealUpdate_keeps ..) rfl ?_
    refine Keeps.step (State.onSafe_keeps ..) rfl ?_
    exact Keeps.refl _ _
  · intro a1
    refine ite_keeps _ _ _ ?_ ?_
    · intro a2
      refine Keeps.step (sealUpdate_keeps ..) rfl ?_
      refine Keeps.step (safeLoad_keeps ..) rfl ?_
      refine Keeps.step (State.onSafe_keeps ..) rfl ?_
      exact Keeps.refl _ _
    · intro a3
      refine Keeps.step (sealUpdate_keeps ..) rfl ?_
      refine Keeps.step (State.onSafe_keeps ..) rfl ?_
      exact Keeps.refl _ _

theorem ss1End_keeps (outcome : Nat) (s : State) : Keeps [.mb, .fault, .safe] s (ss1End outcome s) := by
  unfold ss1End
  extract_lets -lift +onlyGivenNames x0
  clear_value x0
  extract_lets -lift +onlyGivenNames r1
  clear_value r1
  extract_lets -lift +onlyGivenNames s2
  have h_s2 : Keeps [.mb, .fault, .safe] s s2 := by
    refine Keeps.step (safeEvent_keeps ..) rfl ?_
    exact Keeps.refl _ _
  clear_value s2
  refine Keeps.step (endPending_keeps ..) rfl ?_
  refine Keeps.step (State.onSafe_keeps ..) rfl ?_
  assumption

theorem stoNamed_keeps (s : State) : Keeps [.fault] s (stoNamed s) := by
  unfold stoNamed
  refine Keeps.step (State.onFault_keeps ..) rfl ?_
  exact Keeps.refl _ _

theorem stoEnter_keeps (b : Nat) (main : Bool) (s : State) : Keeps [.mb, .fault, .safe] s (stoEnter b main s) := by
  unfold stoEnter
  extract_lets -lift +onlyGivenNames s0
  have h_s0 : Keeps [.mb, .fault, .safe] s s0 := by
    refine Keeps.step (State.onSafe_keeps ..) rfl ?_
    exact Keeps.refl _ _
  clear_value s0
  refine ite_keeps _ _ _ ?_ ?_
  · intro a1
    refine Keeps.step (stoNamed_keeps ..) rfl ?_
    assumption
  · intro a2
    extract_lets -lift +onlyGivenNames s3
    have h_s3 : Keeps [.mb, .fault, .safe] s s3 := by
      refine Keeps.step (safeEvent_keeps ..) rfl ?_
      refine Keeps.step (State.onSafe_keeps ..) rfl ?_
      assumption
    clear_value s3
    refine ite_keeps _ _ _ ?_ ?_
    · intro a4
      refine Keeps.step (ss1End_keeps ..) rfl ?_
      assumption
    · intro a5
      assumption

theorem mordantBlock_keeps (b : Nat) (s : State) : Keeps [.dev, .mb, .fault, .link, .safe, .red] s (mordantBlock b s) := by
  unfold mordantBlock
  extract_lets -lift +onlyGivenNames s0
  have h_s0 : Keeps [.dev, .mb, .fault, .link, .safe, .red] s s0 := by
    refine Keeps.step (raise_keeps ..) rfl ?_
    refine Keeps.step (State.onSafe_keeps ..) rfl ?_
    exact Keeps.refl _ _
  clear_value s0
  extract_lets -lift +onlyGivenNames s1
  have h_s1 : Keeps [.dev, .mb, .fault, .link, .safe, .red] s s1 := by
    refine Keeps.step (blockAll_keeps ..) rfl ?_
    refine Keeps.step (stoEnter_keeps ..) rfl ?_
    assumption
  clear_value s1
  refine ite_keeps _ _ _ ?_ ?_
  · intro a2
    refine Keeps.step (addTrigger_keeps ..) rfl ?_
    assumption
  · intro a3
    assumption

theorem stoInput_keeps (cmp : Nat) (s : State) : Keeps [.dev, .mb, .fault, .link, .safe, .red] s (stoInput cmp s) := by
  unfold stoInput
  refine ite_keeps _ _ _ ?_ ?_
  · intro a0
    refine Keeps.step (mordantBlock_keeps ..) rfl ?_
    exact Keeps.refl _ _
  · intro a1
    exact Keeps.refl _ _

theorem safeReset_keeps (source : Nat) (s : State)  : Keeps [.fault, .safe] s (safeReset source s).1 := by
  unfold safeReset
  split
  · try dsimp -zeta only
    exact Keeps.refl _ _
  · split
    · try dsimp -zeta only
      exact Keeps.refl _ _
    · try dsimp -zeta only
      refine Keeps.step (safeEvent_keeps ..) rfl ?_
      refine Keeps.step (State.onSafe_keeps ..) rfl ?_
      exact Keeps.refl _ _

theorem ss1Request_keeps (cause : Nat) (s : State) : Keeps [.dev] s (ss1Request cause s) := by
  unfold ss1Request
  refine ite_keeps _ _ _ ?_ ?_
  · intro a0
    refine Keeps.step (addTrigger_keeps ..) rfl ?_
    exact Keeps.refl _ _
  · intro a1
    exact Keeps.refl _ _

theorem safeHook_keeps (old : DevState) (new : DevState) (cause : Nat) (s : State) : Keeps [.mb, .fault, .safe] s (safeHook old new cause s) := by
  unfold safeHook
  extract_lets -lift +onlyGivenNames s0
  have h_s0 : Keeps [.mb, .fault, .safe] s s0 := by
    refine ite_keeps _ _ _ ?_ ?_
    · intro a1
      refine Keeps.step (safeEvent_keeps ..) rfl ?_
      refine Keeps.step (State.onSafe_keeps ..) rfl ?_
      exact Keeps.refl _ _
    · intro a2
      refine ite_keeps _ _ _ ?_ ?_
      · intro a3
        refine Keeps.step (ss1End_keeps ..) rfl ?_
        refine Keeps.step (State.onSafe_keeps ..) rfl ?_
        exact Keeps.refl _ _
      · intro a4
        refine ite_keeps _ _ _ ?_ ?_
        · intro a5
          refine Keeps.step (endPending_keeps ..) rfl ?_
          exact Keeps.refl _ _
        · intro a6
          exact Keeps.refl _ _
  clear_value s0
  extract_lets -lift +onlyGivenNames s7
  have h_s7 : Keeps [.mb, .fault, .safe] s s7 := by
    refine ite_keeps _ _ _ ?_ ?_
    · intro a8
      refine Keeps.step (State.onSafe_keeps ..) rfl ?_
      assumption
    · intro a9
      assumption
  clear_value s7
  refine ite_keeps _ _ _ ?_ ?_
  · intro a10
    refine Keeps.step (State.onSafe_keeps ..) rfl ?_
    assumption
  · intro a11
    assumption

theorem rampBoundary_keeps (s : State) : Keeps [.safe] s (rampBoundary s) := by
  unfold rampBoundary
  extract_lets -lift +onlyGivenNames x0
  clear_value x0
  refine ite_keeps _ _ _ ?_ ?_
  · intro a1
    refine Keeps.step (State.onSafe_keeps ..) rfl ?_
    exact Keeps.refl _ _
  · intro a2
    extract_lets -lift +onlyGivenNames sig3
    clear_value sig3
    extract_lets -lift +onlyGivenNames held4
    clear_value held4
    extract_lets -lift +onlyGivenNames goal5
    clear_value goal5
    extract_lets -lift +onlyGivenNames r6
    clear_value r6
    refine Keeps.step (State.onSafe_keeps ..) rfl ?_
    exact Keeps.refl _ _

theorem safeDeliver_keeps (r : Nat) (p : Bytes) (seq : Nat) (req : Nat) (s : State) : Keeps [.dev, .mb, .fault, .safe] s (safeDeliver r p seq req s) := by
  unfold safeDeliver
  extract_lets -lift +onlyGivenNames fl0
  clear_value fl0
  extract_lets -lift +onlyGivenNames old1
  clear_value old1
  extract_lets -lift +onlyGivenNames s2
  have h_s2 : Keeps [.dev, .mb, .fault, .safe] s s2 := by
    refine Keeps.step (State.onSafe_keeps ..) rfl ?_
    exact Keeps.refl _ _
  clear_value s2
  extract_lets -lift +onlyGivenNames s3
  have h_s3 : Keeps [.dev, .mb, .fault, .safe] s s3 := by
    refine when_keeps _ _ _ _ ?_ ?_
    · assumption
    · refine Keeps.step (stoEnter_keeps ..) rfl ?_
      exact Keeps.refl _ _
  clear_value s3
  extract_lets -lift +onlyGivenNames s4
  have h_s4 : Keeps [.dev, .mb, .fault, .safe] s s4 := by
    refine when_keeps _ _ _ _ ?_ ?_
    · assumption
    · refine Keeps.step (ss1Request_keeps ..) rfl ?_
      exact Keeps.refl _ _
  clear_value s4
  extract_lets -lift +onlyGivenNames resets5
  clear_value resets5
  refine when_keeps _ _ _ _ ?_ ?_
  · assumption
  · refine Keeps.step (safeReset_keeps ..) rfl ?_
    exact Keeps.refl _ _

/-! ### CapsOps -/

theorem capsBuild_keeps (s : State) : Keeps [.dev] s (capsBuild s) := by
  unfold capsBuild
  extract_lets -lift +onlyGivenNames p0
  clear_value p0
  refine Keeps.step (State.onDev_keeps (h := rfl) ..) rfl ?_
  exact Keeps.refl _ _

theorem capsUpdate_keeps (s : State) : Keeps [.dev, .fault] s (capsUpdate s) := by
  unfold capsUpdate
  refine ite_keeps _ _ _ ?_ ?_
  · intro a0
    exact Keeps.refl _ _
  · intro a1
    extract_lets -lift +onlyGivenNames t2
    have h_t2 : Keeps [.dev, .fault] s t2 := by
      refine Keeps.step (capsBuild_keeps ..) rfl ?_
      exact Keeps.refl _ _
    clear_value t2
    refine Keeps.step (raise_keeps ..) rfl ?_
    assumption

/-! ### RecOps -/

theorem recEvent_keeps (kind : Nat) (addr : Nat) (d : List Nat) (s : State) : Keeps [.fault] s (recEvent kind addr d s) := by
  unfold recEvent
  refine Keeps.step (raise_keeps ..) rfl ?_
  exact Keeps.refl _ _

theorem installImage_keeps (m : CtlImage) (s : State) : Keeps [.link, .aie, .pwm, .loop, .tiles] s (installImage m s) := by
  unfold installImage
  refine Keeps.step (State.onTiles_keeps ..) rfl ?_
  refine Keeps.step (State.onLoop_keeps ..) rfl ?_
  refine Keeps.step (State.onAie_keeps ..) rfl ?_
  refine Keeps.step (State.onLink_keeps ..) rfl ?_
  refine Keeps.step (State.onPwm_keeps ..) rfl ?_
  exact Keeps.refl _ _

theorem installSets_keeps (a : ActiveSets) (s : State) : Keeps [.link, .aie, .pwm, .loop, .tiles] s (installSets a s) := by
  unfold installSets
  extract_lets -lift +onlyGivenNames die0
  extract_lets -lift +onlyGivenNames s1
  have h_s1 : Keeps [.link, .aie, .pwm, .loop, .tiles] s s1 := by
    refine Keeps.step (State.onAie_keeps ..) rfl ?_
    refine Keeps.step (State.onLoop_keeps ..) rfl ?_
    exact Keeps.refl _ _
  clear_value s1
  extract_lets -lift +onlyGivenNames s2
  have h_s2 : Keeps [.link, .aie, .pwm, .loop, .tiles] s s2 := by
    refine Keeps.step (State.onTiles_keeps ..) rfl ?_
    refine Keeps.step (State.onPwm_keeps ..) rfl ?_
    assumption
  clear_value s2
  refine Keeps.step (State.onLink_keeps ..) rfl ?_
  try dsimp -zeta only [die0]
  refine Keeps.step (dieUpd_keeps ..) rfl ?_
  try dsimp -zeta only [die0]
  refine Keeps.step (dieUpd_keeps ..) rfl ?_
  assumption

theorem blockStart_keeps (s : State) : Keeps [.galley] s (blockStart s) := by
  unfold blockStart
  refine ite_keeps _ _ _ ?_ ?_
  · intro a0
    exact Keeps.refl _ _
  · intro a1
    refine ite_keeps _ _ _ ?_ ?_
    · intro a2
      refine Keeps.step (State.onGalley_keeps ..) rfl ?_
      exact Keeps.refl _ _
    · intro a3
      extract_lets -lift +onlyGivenNames g4
      clear_value g4
      extract_lets -lift +onlyGivenNames key5
      clear_value key5
      extract_lets -lift +onlyGivenNames kt6
      clear_value kt6
      extract_lets -lift +onlyGivenNames secs7
      clear_value secs7
      extract_lets -lift +onlyGivenNames b8
      clear_value b8
      extract_lets -lift +onlyGivenNames fresh9
      clear_value fresh9
      refine Keeps.step (State.onGalley_keeps ..) rfl ?_
      exact Keeps.refl _ _

theorem imageCapture_keeps (s : State) : Keeps [.fault, .galley] s (imageCapture s) := by
  unfold imageCapture
  refine ite_keeps _ _ _ ?_ ?_
  · intro a0
    exact Keeps.refl _ _
  · intro a1
    refine ite_keeps _ _ _ ?_ ?_
    · intro a2
      refine foldl_keeps _ ?_ _ _ _ ?_
      · intro a3 a4
        refine ite_keeps _ _ _ ?_ ?_
        · intro a5
          refine Keeps.step (recEvent_keeps ..) rfl ?_
          exact Keeps.refl _ _
        · intro a6
          exact Keeps.refl _ _
      · exact Keeps.refl _ _
    · intro a7
      refine Keeps.step (State.onGalley_keeps ..) rfl ?_
      exact Keeps.refl _ _

theorem imageDrain_keeps (s : State)  : Keeps [.galley] s (imageDrain s).2 := by
  unfold imageDrain
  split
  · try dsimp -zeta only
    exact Keeps.refl _ _
  · extract_lets -lift +onlyGivenNames data1
    clear_value data1
    extract_lets -lift +onlyGivenNames part3
    clear_value part3
    extract_lets -lift +onlyGivenNames rest5
    clear_value rest5
    try dsimp -zeta only
    refine Keeps.step (State.onGalley_keeps ..) rfl ?_
    exact Keeps.refl _ _

theorem reloadsGone_keeps (s : State) : Keeps [.pwm] s (reloadsGone s) := by
  unfold reloadsGone
  refine Keeps.step (State.onPwm_keeps ..) rfl ?_
  exact Keeps.refl _ _

theorem imageLost_keeps (s : State) : Keeps [.galley] s (imageLost s) := by
  unfold imageLost
  refine Keeps.step (State.onGalley_keeps ..) rfl ?_
  exact Keeps.refl _ _

theorem holeEvents_keeps (tap : Nat) (tick : Nat) (s : State) : Keeps [.fault, .galley] s (holeEvents tap tick s) := by
  unfold holeEvents
  extract_lets -lift +onlyGivenNames open0
  clear_value open0
  extract_lets -lift +onlyGivenNames s1
  have h_s1 : Keeps [.fault, .galley] s s1 := by
    refine Keeps.step (giveWay_keeps ..) rfl ?_
    exact Keeps.refl _ _
  clear_value s1
  refine ite_keeps _ _ _ ?_ ?_
  · intro a2
    assumption
  · intro a3
    refine Keeps.step (recEvent_keeps ..) rfl ?_
    refine Keeps.step (State.onGalley_keeps ..) rfl ?_
    assumption

theorem tapLost_keeps (tap : Option Nat) (ports : Nat) (b : TickBlock) (put : Option TickBlock → State → State) (s : State) (ih_put : ∀ x u, Keeps [.fault, .galley] u (put x u)) : Keeps [.fault, .galley] s (tapLost tap ports b put s) := by
  unfold tapLost
  extract_lets -lift +onlyGivenNames lost0
  clear_value lost0
  extract_lets -lift +onlyGivenNames hole1
  clear_value hole1
  extract_lets -lift +onlyGivenNames s2
  have h_s2 : Keeps [.fault, .galley] s s2 := by
    refine Keeps.step (State.onGalley_keeps ..) rfl ?_
    exact Keeps.refl _ _
  clear_value s2
  split
  · extract_lets -lift +onlyGivenNames s3
    have h_s3 : Keeps [.fault, .galley] s s3 := by
      refine Keeps.step (State.onGalley_keeps ..) rfl ?_
      refine Keeps.step (ih_put ..) rfl ?_
      assumption
    clear_value s3
    refine Keeps.step (holeEvents_keeps ..) rfl ?_
    refine when_keeps _ _ _ _ ?_ ?_
    · assumption
    · refine Keeps.step (imageLost_keeps ..) rfl ?_
      exact Keeps.refl _ _
  · extract_lets -lift +onlyGivenNames s4
    have h_s4 : Keeps [.fault, .galley] s s4 := by
      refine Keeps.step (State.onGalley_keeps ..) rfl ?_
      refine Keeps.step (ih_put ..) rfl ?_
      assumption
    clear_value s4
    refine Keeps.step (holeEvents_keeps ..) rfl ?_
    refine when_keeps _ _ _ _ ?_ ?_
    · assumption
    · refine Keeps.step (imageLost_keeps ..) rfl ?_
      exact Keeps.refl _ _

theorem bufPut_keeps (b : TickBlock) (s : State) : Keeps [.fault, .galley] s (bufPut b s) := by
  unfold bufPut
  refine ite_keeps _ _ _ ?_ ?_
  · intro a0
    refine Keeps.step (tapLost_keeps (ih_put := ?_) ..) rfl ?_
    · intro a1 a2
      exact Keeps.refl _ _
    · exact Keeps.refl _ _
  · intro a3
    refine Keeps.step (State.onGalley_keeps ..) rfl ?_
    exact Keeps.refl _ _

theorem blockFinish_keeps (s : State) : Keeps [.fault, .pwm, .galley] s (blockFinish s) := by
  unfold blockFinish
  split
  · refine Keeps.step (reloadsGone_keeps ..) rfl ?_
    exact Keeps.refl _ _
  · extract_lets -lift +onlyGivenNames cap0
    clear_value cap0
    extract_lets -lift +onlyGivenNames s1
    have h_s1 : Keeps [.fault, .pwm, .galley] s s1 := by
      refine Keeps.step (imageCapture_keeps ..) rfl ?_
      exact Keeps.refl _ _
    clear_value s1
    extract_lets -lift +onlyGivenNames r2
    extract_lets -lift +onlyGivenNames jr3
    clear_value jr3
    extract_lets -lift +onlyGivenNames out4
    clear_value out4
    extract_lets -lift +onlyGivenNames b5
    clear_value b5
    refine Keeps.step (reloadsGone_keeps ..) rfl ?_
    refine Keeps.step (bufPut_keeps ..) rfl ?_
    refine Keeps.step (State.onGalley_keeps ..) rfl ?_
    try dsimp -zeta only [r2]
    refine Keeps.step (imageDrain_keeps ..) rfl ?_
    assumption

theorem freezeCopy_keeps (n : Nat) (s : State) : Keeps [.galley] s (freezeCopy n s) := by
  unfold freezeCopy
  extract_lets -lift +onlyGivenNames f0
  clear_value f0
  refine ite_keeps _ _ _ ?_ ?_
  · intro a1
    exact Keeps.refl _ _
  · intro a2
    extract_lets -lift +onlyGivenNames new3
    clear_value new3
    extract_lets -lift +onlyGivenNames room4
    clear_value room4
    extract_lets -lift +onlyGivenNames r5
    clear_value r5
    extract_lets -lift +onlyGivenNames fl6
    clear_value fl6
    extract_lets -lift +onlyGivenNames fl7
    clear_value fl7
    extract_lets -lift +onlyGivenNames g8
    clear_value g8
    refine Keeps.step (State.onGalley_keeps ..) rfl ?_
    exact Keeps.refl _ _

theorem freezesCopy_keeps (s : State) : Keeps [.galley] s (freezesCopy s) := by
  unfold freezesCopy
  refine foldl_keeps _ ?_ _ _ _ ?_
  · intro a0 a1
    refine Keeps.step (freezeCopy_keeps ..) rfl ?_
    exact Keeps.refl _ _
  · exact Keeps.refl _ _

theorem freezeBegin_keeps (n : Nat) (cause : Nat) (t : Nat) (s : State) : Keeps [.fault, .galley] s (freezeBegin n cause t s) := by
  unfold freezeBegin
  extract_lets -lift +onlyGivenNames g0
  clear_value g0
  extract_lets -lift +onlyGivenNames lim1
  clear_value lim1
  extract_lets -lift +onlyGivenNames low2
  clear_value low2
  extract_lets -lift +onlyGivenNames img3
  clear_value img3
  extract_lets -lift +onlyGivenNames key4
  clear_value key4
  extract_lets -lift +onlyGivenNames first5
  clear_value first5
  extract_lets -lift +onlyGivenNames f6
  clear_value f6
  refine Keeps.step (freezeCopy_keeps ..) rfl ?_
  refine Keeps.step (recEvent_keeps ..) rfl ?_
  refine Keeps.step (State.onGalley_keeps ..) rfl ?_
  exact Keeps.refl _ _

theorem freezeTrigger_keeps (cause : Nat) (t : Nat) (s : State) : Keeps [.fault, .galley] s (freezeTrigger cause t s) := by
  unfold freezeTrigger
  split
  · refine Keeps.step (State.onGalley_keeps ..) rfl ?_
    exact Keeps.refl _ _
  · split
    · refine Keeps.step (freezeBegin_keeps ..) rfl ?_
      exact Keeps.refl _ _
    · refine Keeps.step (recEvent_keeps ..) rfl ?_
      exact Keeps.refl _ _

theorem freezeOn_keeps (m : FaultMsg) (s : State) : Keeps [.fault, .galley] s (freezeOn m s) := by
  unfold freezeOn
  refine ite_keeps _ _ _ ?_ ?_
  · intro a0
    exact Keeps.refl _ _
  · intro a1
    refine foldl_keeps _ ?_ _ _ _ ?_
    · intro a2 a3
      refine Keeps.step (freezeTrigger_keeps ..) rfl ?_
      exact Keeps.refl _ _
    · exact Keeps.refl _ _

/-! ### FaultOps -/

theorem collect_keeps (m : FaultMsg) (s : State) : Keeps [.fault] s (collect m s) := by
  unfold collect
  extract_lets -lift +onlyGivenNames e0
  clear_value e0
  refine Keeps.step (State.onFault_keeps ..) rfl ?_
  exact Keeps.refl _ _

theorem arrive_keeps (m : FaultMsg) (s : State) : Keeps [.fault, .galley] s (arrive m s) := by
  unfold arrive
  refine Keeps.step (freezeOn_keeps ..) rfl ?_
  refine Keeps.step (collect_keeps ..) rfl ?_
  exact Keeps.refl _ _

theorem arriveFirst_keeps (m : FaultMsg) (s : State) : Keeps [.fault] s (arriveFirst m s) := by
  unfold arriveFirst
  extract_lets -lift +onlyGivenNames e0
  clear_value e0
  refine Keeps.step (State.onFault_keeps ..) rfl ?_
  exact Keeps.refl _ _

theorem arriveNext_keeps (s : State) : Keeps [.fault, .galley] s (arriveNext s) := by
  unfold arriveNext
  split
  · exact Keeps.refl _ _
  · extract_lets -lift +onlyGivenNames s0
    have h_s0 : Keeps [.fault, .galley] s s0 := by
      refine Keeps.step (arrive_keeps ..) rfl ?_
      refine Keeps.step (State.onFault_keeps ..) rfl ?_
      exact Keeps.refl _ _
    clear_value s0
    extract_lets -lift +onlyGivenNames k1
    clear_value k1
    extract_lets -lift +onlyGivenNames n2
    clear_value n2
    refine ite_keeps _ _ _ ?_ ?_
    · intro a3
      assumption
    · intro a4
      refine Keeps.step (raise_keeps ..) rfl ?_
      refine Keeps.step (State.onFault_keeps ..) rfl ?_
      assumption

theorem fatalLatch_keeps (m : FaultMsg) (s : State) : Keeps [.dev, .fault] s (fatalLatch m s) := by
  unfold fatalLatch
  extract_lets -lift +onlyGivenNames src0
  clear_value src0
  extract_lets -lift +onlyGivenNames again1
  clear_value again1
  refine Keeps.step (State.onFault_keeps ..) rfl ?_
  refine Keeps.step (State.onDev_keeps (h := rfl) ..) rfl ?_
  exact Keeps.refl _ _

theorem fatalReact_keeps (die : Nat) (s : State) : Keeps [.dev, .mb, .fault, .link, .pwm, .prot, .red] s (fatalReact die s) := by
  unfold fatalReact
  extract_lets -lift +onlyGivenNames own0
  clear_value own0
  extract_lets -lift +onlyGivenNames s1
  have h_s1 : Keeps [.dev, .mb, .fault, .link, .pwm, .prot, .red] s s1 := by
    refine Keeps.step (safeAll_keeps ..) rfl ?_
    refine Keeps.step (pairsRecheck_keeps ..) rfl ?_
    refine foldl_keeps _ ?_ _ _ _ ?_
    · intro a2 a3
      refine Keeps.step (portSilent_keeps ..) rfl ?_
      exact Keeps.refl _ _
    · exact Keeps.refl _ _
  clear_value s1
  extract_lets -lift +onlyGivenNames s4
  have h_s4 : Keeps [.dev, .mb, .fault, .link, .pwm, .prot, .red] s s4 := by
    refine ite_keeps _ _ _ ?_ ?_
    · intro a5
      refine Keeps.step (protStop_keeps ..) rfl ?_
      assumption
    · intro a6
      assumption
  clear_value s4
  refine ite_keeps _ _ _ ?_ ?_
  · intro a7
    assumption
  · intro a8
    refine Keeps.step (addTrigger_keeps ..) rfl ?_
    assumption

theorem fatalWith_keeps (die : Nat) (block : Nat) (kind : Nat) (addr : Nat) (d : List Nat) (s : State) : Keeps [.dev, .mb, .fault, .link, .pwm, .prot, .red] s (fatalWith die block kind addr d s) := by
  unfold fatalWith
  refine ite_keeps _ _ _ ?_ ?_
  · intro a0
    exact Keeps.refl _ _
  · intro a1
    extract_lets -lift +onlyGivenNames m2
    clear_value m2
    refine Keeps.step (fatalReact_keeps ..) rfl ?_
    refine Keeps.step (fatalLatch_keeps ..) rfl ?_
    refine Keeps.step (post_keeps ..) rfl ?_
    exact Keeps.refl _ _

theorem fatalFault_keeps (die : Nat) (block : Nat) (kind : Nat) (addr : Nat) (s : State) : Keeps [.dev, .mb, .fault, .link, .pwm, .prot, .red] s (fatalFault die block kind addr s) := by
  unfold fatalFault
  refine Keeps.step (fatalWith_keeps ..) rfl ?_
  exact Keeps.refl _ _

theorem precEvent_keeps (e : Episode) (n : Nat) (interim : Bool) (s : State) : Keeps [.fault] s (precEvent e n interim s) := by
  unfold precEvent
  refine Keeps.step (post_keeps ..) rfl ?_
  exact Keeps.refl _ _

theorem episodesEnd_keeps (s : State) : Keeps [.fault] s (episodesEnd s) := by
  unfold episodesEnd
  extract_lets -lift +onlyGivenNames excess0
  clear_value excess0
  refine foldl_keeps _ ?_ _ _ _ ?_
  · intro a1 a2
    refine Keeps.step (precEvent_keeps ..) rfl ?_
    exact Keeps.refl _ _
  · refine Keeps.step (State.onFault_keeps ..) rfl ?_
    exact Keeps.refl _ _

theorem lateAnswer_keeps (s : State) : Keeps [.fault] s (lateAnswer s) := by
  unfold lateAnswer
  split
  · exact Keeps.refl _ _
  · refine ite_keeps _ _ _ ?_ ?_
    · intro a0
      exact Keeps.refl _ _
    · intro a1
      refine ite_keeps _ _ _ ?_ ?_
      · intro a2
        refine Keeps.step (State.onFault_keeps ..) rfl ?_
        exact Keeps.refl _ _
      · intro a3
        refine Keeps.step (giveWay_keeps ..) rfl ?_
        exact Keeps.refl _ _

theorem setRole_keeps (r : Role) (s : State) : Keeps [.dev, .mb, .fault, .pwm] s (setRole r s) := by
  unfold setRole
  refine ite_keeps _ _ _ ?_ ?_
  · intro a0
    exact Keeps.refl _ _
  · intro a1
    extract_lets -lift +onlyGivenNames s2
    have h_s2 : Keeps [.dev, .mb, .fault, .pwm] s s2 := by
      refine Keeps.step (State.onDev_keeps (h := rfl) ..) rfl ?_
      exact Keeps.refl _ _
    clear_value s2
    refine Keeps.step (raise_keeps ..) rfl ?_
    refine Keeps.step (pairsRecheck_keeps ..) rfl ?_
    refine Keeps.step (logAdd_keeps ..) rfl ?_
    assumption

theorem evqCtrlWrite_keeps (value : Word32) (s : State) : Keeps [.fault] s (evqCtrlWrite value s) := by
  unfold evqCtrlWrite
  refine ite_keeps _ _ _ ?_ ?_
  · intro a0
    refine Keeps.step (State.onFault_keeps ..) rfl ?_
    exact Keeps.refl _ _
  · intro a1
    exact Keeps.refl _ _

theorem evqHeadWrite_keeps (value : Word32) (s : State) : Keeps [.fault] s (evqHeadWrite value s) := by
  unfold evqHeadWrite
  extract_lets -lift +onlyGivenNames h0
  clear_value h0
  refine ite_keeps _ _ _ ?_ ?_
  · intro a1
    refine Keeps.step (State.onFault_keeps ..) rfl ?_
    exact Keeps.refl _ _
  · intro a2
    exact Keeps.refl _ _

/-! ### RedOps -/

theorem redEvent_keeps (kind : Nat) (cls : FClass) (addr : Nat) (d : List Nat) (s : State) : Keeps [.fault] s (redEvent kind cls addr d s) := by
  unfold redEvent
  refine Keeps.step (raise_keeps ..) rfl ?_
  exact Keeps.refl _ _

theorem endRed_keeps (op : Nat) (st : Status) (r : Bytes) (s : State) : Keeps [.mb] s (endRed op st r s) := by
  unfold endRed
  refine Keeps.step (endPending_keeps ..) rfl ?_
  exact Keeps.refl _ _

theorem sendTick_keeps (old : State) (s : State) : Keeps [.fault, .red] s (sendTick old s) := by
  unfold sendTick
  refine ite_keeps _ _ _ ?_ ?_
  · intro a0
    exact Keeps.refl _ _
  · intro a1
    extract_lets -lift +onlyGivenNames label2
    clear_value label2
    extract_lets -lift +onlyGivenNames all3
    clear_value all3
    extract_lets -lift +onlyGivenNames n4
    clear_value n4
    extract_lets -lift +onlyGivenNames now5
    clear_value now5
    extract_lets -lift +onlyGivenNames rest6
    clear_value rest6
    extract_lets -lift +onlyGivenNames short7
    clear_value short7
    extract_lets -lift +onlyGivenNames counts8
    clear_value counts8
    extract_lets -lift +onlyGivenNames m9
    clear_value m9
    extract_lets -lift +onlyGivenNames s10
    have h_s10 : Keeps [.fault, .red] s s10 := by
      refine Keeps.step (xlSend_keeps ..) rfl ?_
      refine Keeps.step (State.onRed_keeps ..) rfl ?_
      exact Keeps.refl _ _
    clear_value s10
    refine when_keeps _ _ _ _ ?_ ?_
    · assumption
    · refine Keeps.step (redEvent_keeps ..) rfl ?_
      exact Keeps.refl _ _

theorem compareDomain_keeps (ns : Nat) (label : Nat) (d : Nat) (differs : Bool) (s : State) : Keeps [.fault, .red] s (compareDomain ns label d differs s) := by
  unfold compareDomain
  extract_lets -lift +onlyGivenNames run0
  clear_value run0
  refine ite_keeps _ _ _ ?_ ?_
  · intro a1
    refine Keeps.step (State.onRed_keeps ..) rfl ?_
    exact Keeps.refl _ _
  · intro a2
    extract_lets -lift +onlyGivenNames s3
    have h_s3 : Keeps [.fault, .red] s s3 := by
      refine Keeps.step (State.onRed_keeps ..) rfl ?_
      exact Keeps.refl _ _
    clear_value s3
    extract_lets -lift +onlyGivenNames s4
    have h_s4 : Keeps [.fault, .red] s s4 := by
      refine when_keeps _ _ _ _ ?_ ?_
      · assumption
      · refine Keeps.step (redEvent_keeps ..) rfl ?_
        exact Keeps.refl _ _
    clear_value s4
    refine ite_keeps _ _ _ ?_ ?_
    · intro a5
      extract_lets -lift +onlyGivenNames b6
      clear_value b6
      refine Keeps.step (redEvent_keeps ..) rfl ?_
      refine Keeps.step (xlSend_keeps ..) rfl ?_
      refine Keeps.step (State.onRed_keeps ..) rfl ?_
      assumption
    · intro a7
      assumption

theorem compareTick_keeps (ns : Nat) (s : State) : Keeps [.fault, .red] s (compareTick ns s) := by
  unfold compareTick
  split
  · refine ite_keeps _ _ _ ?_ ?_
    · intro a0
      exact Keeps.refl _ _
    · intro a1
      extract_lets -lift +onlyGivenNames s2
      have h_s2 : Keeps [.fault, .red] s s2 := by
        refine Keeps.step (State.onRed_keeps ..) rfl ?_
        exact Keeps.refl _ _
      clear_value s2
      refine ite_keeps _ _ _ ?_ ?_
      · intro a3
        assumption
      · intro a4
        refine foldl_keeps _ ?_ _ _ _ ?_
        · intro a5 a6
          split
          · refine Keeps.step (compareDomain_keeps ..) rfl ?_
            exact Keeps.refl _ _
          · exact Keeps.refl _ _
        · assumption
  · exact Keeps.refl _ _

theorem installRecord_keeps (s : State) : Keeps [.fault, .link, .aie, .pwm, .loop, .red] s (installRecord s) := by
  unfold installRecord
  split
  · refine Keeps.step (State.onRed_keeps ..) rfl ?_
    exact Keeps.refl _ _
  · extract_lets -lift +onlyGivenNames s0
    have h_s0 : Keeps [.fault, .link, .aie, .pwm, .loop, .red] s s0 := by
      refine Keeps.step (State.onRed_keeps ..) rfl ?_
      exact Keeps.refl _ _
    clear_value s0
    extract_lets -lift +onlyGivenNames s1
    have h_s1 : Keeps [.fault, .link, .aie, .pwm, .loop, .red] s s1 := by
      refine foldl_keeps _ ?_ _ _ _ ?_
      · intro a2 a3
        refine Keeps.step (aieUpd_keeps ..) rfl ?_
        exact Keeps.refl _ _
      · assumption
    clear_value s1
    extract_lets -lift +onlyGivenNames s4
    have h_s4 : Keeps [.fault, .link, .aie, .pwm, .loop, .red] s s4 := by
      refine foldl_keeps _ ?_ _ _ _ ?_
      · intro a5 a6
        refine Keeps.step (genUpd_keeps ..) rfl ?_
        refine Keeps.step (armUpd_keeps ..) rfl ?_
        exact Keeps.refl _ _
      · assumption
    clear_value s4
    extract_lets -lift +onlyGivenNames mode7
    clear_value mode7
    refine foldl_keeps _ ?_ _ _ _ ?_
    · intro a8 a9
      refine Keeps.step (loopUpd_keeps ..) rfl ?_
      exact Keeps.refl _ _
    · assumption

theorem takeMset_keeps (s : State) : Keeps [.fault, .meas, .red] s (takeMset s) := by
  unfold takeMset
  refine ite_keeps _ _ _ ?_ ?_
  · intro a0
    refine Keeps.step (State.onRed_keeps ..) rfl ?_
    exact Keeps.refl _ _
  · intro a1
    refine ite_keeps _ _ _ ?_ ?_
    · intro a2
      refine Keeps.step (State.onRed_keeps ..) rfl ?_
      exact Keeps.refl _ _
    · intro a3
      split
      · refine Keeps.step (State.onRed_keeps ..) rfl ?_
        refine Keeps.step (State.onMeas_keeps ..) rfl ?_
        exact Keeps.refl _ _
      · extract_lets -lift +onlyGivenNames first4
        clear_value first4
        extract_lets -lift +onlyGivenNames n5
        clear_value n5
        refine when_keeps _ _ _ _ ?_ ?_
        · refine Keeps.step (State.onRed_keeps ..) rfl ?_
          exact Keeps.refl _ _
        · refine Keeps.step (redEvent_keeps ..) rfl ?_
          exact Keeps.refl _ _

theorem useMset_keeps (s : State) : Keeps [.fault, .meas, .red, .galley] s (useMset s) := by
  unfold useMset
  extract_lets -lift +onlyGivenNames t0
  have h_t0 : Keeps [.fault, .meas, .red, .galley] s t0 := by
    refine Keeps.step (takeMset_keeps ..) rfl ?_
    exact Keeps.refl _ _
  clear_value t0
  refine ite_keeps _ _ _ ?_ ?_
  · intro a1
    refine Keeps.step (journal_keeps ..) rfl ?_
    assumption
  · intro a2
    assumption

theorem partnerLost_keeps (cause : Nat) (s : State) : Keeps [.fault, .red] s (partnerLost cause s) := by
  unfold partnerLost
  refine ite_keeps _ _ _ ?_ ?_
  · intro a0
    exact Keeps.refl _ _
  · intro a1
    refine Keeps.step (redEvent_keeps ..) rfl ?_
    refine Keeps.step (State.onRed_keeps ..) rfl ?_
    exact Keeps.refl _ _

theorem listen_keeps (s : State) : Keeps [.fault, .red] s (listen s) := by
  unfold listen
  refine ite_keeps _ _ _ ?_ ?_
  · intro a0
    exact Keeps.refl _ _
  · intro a1
    extract_lets -lift +onlyGivenNames ok2
    clear_value ok2
    refine ite_keeps _ _ _ ?_ ?_
    · intro a3
      refine Keeps.step (State.onRed_keeps ..) rfl ?_
      exact Keeps.refl _ _
    · intro a4
      extract_lets -lift +onlyGivenNames n5
      clear_value n5
      extract_lets -lift +onlyGivenNames s6
      have h_s6 : Keeps [.fault, .red] s s6 := by
        refine Keeps.step (State.onRed_keeps ..) rfl ?_
        exact Keeps.refl _ _
      clear_value s6
      refine ite_keeps _ _ _ ?_ ?_
      · intro a7
        refine Keeps.step (partnerLost_keeps ..) rfl ?_
        assumption
      · intro a8
        assumption

theorem gather_keeps (s : State) : Keeps [.red] s (gather s) := by
  unfold gather
  refine ite_keeps _ _ _ ?_ ?_
  · intro a0
    refine Keeps.step (State.onRed_keeps ..) rfl ?_
    exact Keeps.refl _ _
  · intro a1
    extract_lets -lift +onlyGivenNames n2
    clear_value n2
    refine Keeps.step (State.onRed_keeps ..) rfl ?_
    exact Keeps.refl _ _

theorem restartTime_keeps (s : State) : Keeps [.time] s (restartTime s) := by
  unfold restartTime
  refine Keeps.step (State.onTime_keeps ..) rfl ?_
  exact Keeps.refl _ _

theorem becomeActive_keeps (s : State) : Keeps [.dev, .mb, .fault, .pwm, .time] s (becomeActive s) := by
  unfold becomeActive
  refine Keeps.step (setRole_keeps ..) rfl ?_
  refine when_keeps _ _ _ _ ?_ ?_
  · exact Keeps.refl _ _
  · refine Keeps.step (restartTime_keeps ..) rfl ?_
    exact Keeps.refl _ _

theorem promoteNow_keeps (cause : Nat) (s : State) : Keeps [.dev, .mb, .fault, .pwm, .time, .red] s (promoteNow cause s) := by
  unfold promoteNow
  extract_lets -lift +onlyGivenNames s0
  have h_s0 : Keeps [.dev, .mb, .fault, .pwm, .time, .red] s s0 := by
    refine Keeps.step (State.onRed_keeps ..) rfl ?_
    exact Keeps.refl _ _
  clear_value s0
  refine Keeps.step (redEvent_keeps ..) rfl ?_
  refine Keeps.step (becomeActive_keeps ..) rfl ?_
  assumption

theorem fenceNow_keeps (partnerActive : Bool) (s : State) : Keeps [.dev, .mb, .fault, .link, .pwm] s (fenceNow partnerActive s) := by
  unfold fenceNow
  extract_lets -lift +onlyGivenNames s0
  have h_s0 : Keeps [.dev, .mb, .fault, .link, .pwm] s s0 := by
    refine ite_keeps _ _ _ ?_ ?_
    · intro a1
      exact Keeps.refl _ _
    · intro a2
      refine Keeps.step (onPorts_keeps (L := [.dev, .mb, .fault, .link, .pwm]) (ih_f := ?_) ..) rfl ?_
      · intro a3 a4
        refine Keeps.step (sendBlock_keeps ..) rfl ?_
        exact Keeps.refl _ _
      · exact Keeps.refl _ _
  clear_value s0
  extract_lets -lift +onlyGivenNames s5
  have h_s5 : Keeps [.dev, .mb, .fault, .link, .pwm] s s5 := by
    refine foldl_keeps _ ?_ _ _ _ ?_
    · intro a6 a7
      refine Keeps.step (portSilent_keeps ..) rfl ?_
      exact Keeps.refl _ _
    · refine Keeps.step (setRole_keeps ..) rfl ?_
      assumption
  clear_value s5
  refine ite_keeps _ _ _ ?_ ?_
  · intro a8
    refine Keeps.step (addTrigger_keeps ..) rfl ?_
    assumption
  · intro a9
    assumption

theorem rolesBoundary_keeps (s : State) : Keeps [.dev, .mb, .fault, .link, .pwm, .time, .red] s (rolesBoundary s) := by
  unfold rolesBoundary
  extract_lets -lift +onlyGivenNames k0
  clear_value k0
  split
  · refine ite_keeps _ _ _ ?_ ?_
    · intro a1
      exact Keeps.refl _ _
    · intro a2
      extract_lets -lift +onlyGivenNames s3
      have h_s3 : Keeps [.dev, .mb, .fault, .link, .pwm, .time, .red] s s3 := by
        refine Keeps.step (State.onRed_keeps ..) rfl ?_
        exact Keeps.refl _ _
      clear_value s3
      refine ite_keeps _ _ _ ?_ ?_
      · intro a4
        refine Keeps.step (endRed_keeps ..) rfl ?_
        assumption
      · intro a5
        extract_lets -lift +onlyGivenNames t6
        have h_t6 : Keeps [.dev, .mb, .fault, .link, .pwm, .time, .red] s t6 := by
          refine ite_keeps _ _ _ ?_ ?_
          · intro a7
            refine Keeps.step (becomeActive_keeps ..) rfl ?_
            assumption
          · intro a8
            refine Keeps.step (fenceNow_keeps ..) rfl ?_
            assumption
        clear_value t6
        refine Keeps.step (endRed_keeps ..) rfl ?_
        refine Keeps.step (redEvent_keeps ..) rfl ?_
        assumption
  · exact Keeps.refl _ _

theorem promoteDue_keeps (s : State) : Keeps [.dev, .mb, .fault, .pwm, .time, .red] s (promoteDue s) := by
  unfold promoteDue
  extract_lets -lift +onlyGivenNames k0
  clear_value k0
  extract_lets -lift +onlyGivenNames due1
  clear_value due1
  refine ite_keeps _ _ _ ?_ ?_
  · intro a2
    exact Keeps.refl _ _
  · intro a3
    refine ite_keeps _ _ _ ?_ ?_
    · intro a4
      extract_lets -lift +onlyGivenNames t5
      have h_t5 : Keeps [.dev, .mb, .fault, .pwm, .time, .red] s t5 := by
        refine Keeps.step (promoteNow_keeps ..) rfl ?_
        exact Keeps.refl _ _
      clear_value t5
      refine ite_keeps _ _ _ ?_ ?_
      · intro a6
        refine Keeps.step (endRed_keeps ..) rfl ?_
        assumption
      · intro a7
        assumption
    · intro a8
      extract_lets -lift +onlyGivenNames t9
      have h_t9 : Keeps [.dev, .mb, .fault, .pwm, .time, .red] s t9 := by
        refine Keeps.step (State.onRed_keeps ..) rfl ?_
        exact Keeps.refl _ _
      clear_value t9
      refine ite_keeps _ _ _ ?_ ?_
      · intro a10
        refine Keeps.step (endRed_keeps ..) rfl ?_
        assumption
      · intro a11
        assumption

theorem confBoundary_keeps (s : State) : Keeps [.red] s (confBoundary s) := by
  unfold confBoundary
  split
  · refine Keeps.step (State.onRed_keeps ..) rfl ?_
    exact Keeps.refl _ _
  · exact Keeps.refl _ _

theorem endForm_keeps (op : Nat) (st : Status) (r : Bytes) (s : State) : Keeps [.mb, .red] s (endForm op st r s) := by
  unfold endForm
  refine Keeps.step (endRed_keeps ..) rfl ?_
  refine Keeps.step (State.onRed_keeps ..) rfl ?_
  exact Keeps.refl _ _

/-! ### Net -/

theorem linkChange_keeps (p : Nat) (up : Bool) (s : State) : Keeps [.fault, .net] s (linkChange p up s) := by
  unfold linkChange
  refine ite_keeps _ _ _ ?_ ?_
  · intro a0
    exact Keeps.refl _ _
  · intro a1
    extract_lets -lift +onlyGivenNames s2
    have h_s2 : Keeps [.fault, .net] s s2 := by
      refine Keeps.step (State.onNet_keeps ..) rfl ?_
      exact Keeps.refl _ _
    clear_value s2
    refine Keeps.step (netEvent_keeps ..) rfl ?_
    refine Keeps.step (ptpUpd_keeps ..) rfl ?_
    assumption

theorem ptpPassive_keeps (port : Nat) (id : Nat) (s : State) : Keeps [.fault] s (ptpPassive port id s) := by
  unfold ptpPassive
  refine Keeps.step (raise_keeps ..) rfl ?_
  exact Keeps.refl _ _

theorem safeCopy_keeps (port : Nat) (sub : Nat) (data : List GMember) (s : State) : Keeps [.net] s (safeCopy port sub data s) := by
  unfold safeCopy
  split
  · refine foldl_keeps _ ?_ _ _ _ ?_
    · intro a0 a1
      refine Keeps.step (State.onNet_keeps ..) rfl ?_
      exact Keeps.refl _ _
    · exact Keeps.refl _ _
  · exact Keeps.refl _ _

theorem takeGoose_keeps (port : Nat) (n : Nat) (f : GooseFrame) (now : Nat) (s : State) : Keeps [.fault, .net] s (takeGoose port n f now s) := by
  unfold takeGoose
  extract_lets -lift +onlyGivenNames c0
  clear_value c0
  extract_lets -lift +onlyGivenNames r1
  clear_value r1
  refine ite_keeps _ _ _ ?_ ?_
  · intro a2
    exact Keeps.refl _ _
  · intro a3
    extract_lets -lift +onlyGivenNames s4
    have h_s4 : Keeps [.fault, .net] s s4 := by
      refine ite_keeps _ _ _ ?_ ?_
      · intro a5
        refine Keeps.step (safeCopy_keeps ..) rfl ?_
        exact Keeps.refl _ _
      · intro a6
        exact Keeps.refl _ _
    clear_value s4
    refine ite_keeps _ _ _ ?_ ?_
    · intro a7
      extract_lets -lift +onlyGivenNames s8
      have h_s8 : Keeps [.fault, .net] s s8 := by
        refine Keeps.step (subUpd_keeps ..) rfl ?_
        assumption
      clear_value s8
      refine ite_keeps _ _ _ ?_ ?_
      · intro a9
        extract_lets -lift +onlyGivenNames same10
        clear_value same10
        extract_lets -lift +onlyGivenNames d11
        clear_value d11
        extract_lets -lift +onlyGivenNames a12
        clear_value a12
        extract_lets -lift +onlyGivenNames start13
        clear_value start13
        extract_lets -lift +onlyGivenNames stop14
        clear_value stop14
        refine when_keeps _ _ _ _ ?_ ?_
        · refine Keeps.step (subUpd_keeps ..) rfl ?_
          assumption
        · refine Keeps.step (netEvent_keeps ..) rfl ?_
          exact Keeps.refl _ _
      · intro a15
        assumption
    · intro a16
      extract_lets -lift +onlyGivenNames s17
      have h_s17 : Keeps [.fault, .net] s s17 := by
        refine Keeps.step (subUpd_keeps ..) rfl ?_
        assumption
      clear_value s17
      refine when_keeps _ _ _ _ ?_ ?_
      · assumption
      · refine Keeps.step (netEvent_keeps ..) rfl ?_
        exact Keeps.refl _ _

theorem pubSample_keeps (n : Nat) (s : State) : Keeps [.net] s (pubSample n s) := by
  unfold pubSample
  extract_lets -lift +onlyGivenNames c0
  clear_value c0
  extract_lets -lift +onlyGivenNames v1
  clear_value v1
  extract_lets -lift +onlyGivenNames r2
  clear_value r2
  refine ite_keeps _ _ _ ?_ ?_
  · intro a3
    exact Keeps.refl _ _
  · intro a4
    refine Keeps.step (pubUpd_keeps ..) rfl ?_
    exact Keeps.refl _ _

/-! ### SpareOps -/

theorem spareEvent_keeps (kind : Nat) (cls : FClass) (addr : Nat) (d : List Nat) (s : State) : Keeps [.fault] s (spareEvent kind cls addr d s) := by
  unfold spareEvent
  refine Keeps.step (raise_keeps ..) rfl ?_
  exact Keeps.refl _ _

theorem resUpd_keeps (kind : Nat) (die : Nat) (n : Nat) (f : Resource → Resource) (s : State) : Keeps [.spare] s (resUpd kind die n f s) := by
  unfold resUpd
  refine Keeps.step (State.onSpare_keeps ..) rfl ?_
  exact Keeps.refl _ _

theorem countError_keeps (kind : Nat) (die : Nat) (n : Nat) (double : Bool) (s : State) : Keeps [.spare] s (countError kind die n double s) := by
  unfold countError
  extract_lets -lift +onlyGivenNames k0
  clear_value k0
  refine Keeps.step (resUpd_keeps ..) rfl ?_
  exact Keeps.refl _ _

theorem spareNote_keeps (kind : Nat) (die : Nat) (l : Nat) (old : Nat) (new : Nat) (cause : Nat) (s : State) : Keeps [.fault] s (spareNote kind die l old new cause s) := by
  unfold spareNote
  refine when_keeps _ _ _ _ ?_ ?_
  · refine Keeps.step (spareEvent_keeps ..) rfl ?_
    exact Keeps.refl _ _
  · refine Keeps.step (spareEvent_keeps ..) rfl ?_
    exact Keeps.refl _ _

theorem lostNote_keeps (kind : Nat) (die : Nat) (l : Nat) (old : Nat) (cause : Nat) (s : State) : Keeps [.fault] s (lostNote kind die l old cause s) := by
  unfold lostNote
  refine Keeps.step (spareEvent_keeps ..) rfl ?_
  exact Keeps.refl _ _

theorem endSwap_keeps (kind : Nat) (die : Nat) (old : Nat) (new : Nat) (st : Nat) (s : State) : Keeps [.mb] s (endSwap kind die old new st s) := by
  unfold endSwap
  refine Keeps.step (endPending_keeps ..) rfl ?_
  exact Keeps.refl _ _

theorem retire_keeps (kind : Nat) (die : Nat) (n : Nat) (cause : Nat) (s : State) : Keeps [.tiles, .spare] s (retire kind die n cause s) := by
  unfold retire
  extract_lets -lift +onlyGivenNames l0
  clear_value l0
  extract_lets -lift +onlyGivenNames s1
  have h_s1 : Keeps [.tiles, .spare] s s1 := by
    refine Keeps.step (resUpd_keeps ..) rfl ?_
    exact Keeps.refl _ _
  clear_value s1
  refine ite_keeps _ _ _ ?_ ?_
  · intro a2
    refine Keeps.step (tileUpd_keeps ..) rfl ?_
    assumption
  · intro a3
    assumption

theorem takeOver_keeps (kind : Nat) (die : Nat) (n : Nat) (l : Nat) (s : State) : Keeps [.tiles, .spare] s (takeOver kind die n l s) := by
  unfold takeOver
  extract_lets -lift +onlyGivenNames s0
  have h_s0 : Keeps [.tiles, .spare] s s0 := by
    refine Keeps.step (resUpd_keeps ..) rfl ?_
    exact Keeps.refl _ _
  clear_value s0
  refine ite_keeps _ _ _ ?_ ?_
  · intro a1
    refine Keeps.step (tileUpd_keeps ..) rfl ?_
    assumption
  · intro a2
    assumption

theorem failPooled_keeps (kind : Nat) (die : Nat) (n : Nat) (cause : Nat) (s : State) : Keeps [.dev, .fault, .tiles, .spare] s (failPooled kind die n cause s) := by
  unfold failPooled
  extract_lets -lift +onlyGivenNames st0
  clear_value st0
  refine ite_keeps _ _ _ ?_ ?_
  · intro a1
    exact Keeps.refl _ _
  · intro a2
    extract_lets -lift +onlyGivenNames l3
    clear_value l3
    extract_lets -lift +onlyGivenNames s4
    have h_s4 : Keeps [.dev, .fault, .tiles, .spare] s s4 := by
      refine Keeps.step (retire_keeps ..) rfl ?_
      exact Keeps.refl _ _
    clear_value s4
    split
    · refine Keeps.step (capsUpdate_keeps ..) rfl ?_
      assumption
    · refine Keeps.step (State.onSpare_keeps ..) rfl ?_
      assumption
    · refine Keeps.step (capsUpdate_keeps ..) rfl ?_
      refine Keeps.step (lostNote_keeps ..) rfl ?_
      assumption

theorem spareIn_keeps (kind : Nat) (die : Nat) (n : Nat) (s : State) : Keeps [.dev, .mb, .fault, .tiles, .spare] s (spareIn kind die n s) := by
  unfold spareIn
  split
  · exact Keeps.refl _ _
  · refine ite_keeps _ _ _ ?_ ?_
    · intro a0
      exact Keeps.refl _ _
    · intro a1
      extract_lets -lift +onlyGivenNames l2
      clear_value l2
      extract_lets -lift +onlyGivenNames sp3
      clear_value sp3
      extract_lets -lift +onlyGivenNames s4
      have h_s4 : Keeps [.dev, .mb, .fault, .tiles, .spare] s s4 := by
        refine Keeps.step (takeOver_keeps ..) rfl ?_
        refine Keeps.step (State.onSpare_keeps ..) rfl ?_
        exact Keeps.refl _ _
      clear_value s4
      refine Keeps.step (endSwap_keeps ..) rfl ?_
      refine Keeps.step (capsUpdate_keeps ..) rfl ?_
      refine Keeps.step (spareNote_keeps ..) rfl ?_
      assumption

theorem lanesBoundary_keeps (s : State) : Keeps [.loop] s (lanesBoundary s) := by
  unfold lanesBoundary
  refine foldl_keeps _ ?_ _ _ _ ?_
  · intro a0 a1
    refine ite_keeps _ _ _ ?_ ?_
    · intro a2
      exact Keeps.refl _ _
    · intro a3
      refine Keeps.step (State.onLoop_keeps ..) rfl ?_
      exact Keeps.refl _ _
  · exact Keeps.refl _ _

theorem portSpareIn_keeps (port : Nat) (s : State) : Keeps [.fault] s (portSpareIn port s) := by
  unfold portSpareIn
  extract_lets -lift +onlyGivenNames die0
  clear_value die0
  extract_lets -lift +onlyGivenNames i1
  clear_value i1
  refine Keeps.step (spareNote_keeps ..) rfl ?_
  exact Keeps.refl _ _

theorem portLost_keeps (port : Nat) (sends : Bool) (s : State) : Keeps [.dev, .mb, .fault, .link] s (portLost port sends s) := by
  unfold portLost
  extract_lets -lift +onlyGivenNames p0
  clear_value p0
  refine ite_keeps _ _ _ ?_ ?_
  · intro a1
    exact Keeps.refl _ _
  · intro a2
    extract_lets -lift +onlyGivenNames s3
    have h_s3 : Keeps [.dev, .mb, .fault, .link] s s3 := by
      refine foldl_keeps _ ?_ _ _ _ ?_
      · intro a4 a5
        refine Keeps.step (setHealth_keeps ..) rfl ?_
        exact Keeps.refl _ _
      · exact Keeps.refl _ _
    clear_value s3
    extract_lets -lift +onlyGivenNames s6
    have h_s6 : Keeps [.dev, .mb, .fault, .link] s s6 := by
      refine Keeps.step (setPortState_keeps ..) rfl ?_
      refine Keeps.step (portUpd_keeps ..) rfl ?_
      assumption
    clear_value s6
    extract_lets -lift +onlyGivenNames s7
    have h_s7 : Keeps [.dev, .mb, .fault, .link] s s7 := by
      refine Keeps.step (lostNote_keeps ..) rfl ?_
      assumption
    clear_value s7
    refine Keeps.step (capsUpdate_keeps ..) rfl ?_
    refine Keeps.step (endPortPending_keeps ..) rfl ?_
    refine Keeps.step (linkEvent_keeps ..) rfl ?_
    assumption

theorem failPort_keeps (die : Nat) (n : Nat) (cause : Nat) (s : State) : Keeps [.freeCtr, .dev, .mb, .fault, .link, .spare] s (failPort die n cause s) := by
  unfold failPort
  extract_lets -lift +onlyGivenNames port0
  clear_value port0
  refine ite_keeps _ _ _ ?_ ?_
  · intro a1
    exact Keeps.refl _ _
  · intro a2
    extract_lets -lift +onlyGivenNames s3
    have h_s3 : Keeps [.freeCtr, .dev, .mb, .fault, .link, .spare] s s3 := by
      refine Keeps.step (resUpd_keeps ..) rfl ?_
      exact Keeps.refl _ _
    clear_value s3
    extract_lets -lift +onlyGivenNames n4
    refine ite_keeps _ _ _ ?_ ?_
    · intro a5
      refine Keeps.step (portLost_keeps ..) rfl ?_
      try dsimp -zeta only [n4]
      refine Keeps.step (State.draw_keeps ..) rfl ?_
      assumption
    · intro a6
      refine Keeps.step (portUpd_keeps ..) rfl ?_
      assumption

theorem unitLost_keeps (n : Nat) (why : Nat) (cause : Nat) (s : State) : Keeps [.dev, .mb, .fault, .meas, .spare] s (unitLost n why cause s) := by
  unfold unitLost
  extract_lets -lift +onlyGivenNames unit old0
  clear_value old0 unit
  extract_lets -lift +onlyGivenNames s1
  have h_s1 : Keeps [.dev, .mb, .fault, .meas, .spare] s s1 := by
    refine Keeps.step (unitFail_keeps ..) rfl ?_
    exact Keeps.refl _ _
  clear_value s1
  refine ite_keeps _ _ _ ?_ ?_
  · intro a2
    refine Keeps.step (endSwap_keeps ..) rfl ?_
    refine Keeps.step (capsUpdate_keeps ..) rfl ?_
    refine Keeps.step (spareNote_keeps ..) rfl ?_
    refine Keeps.step (resUpd_keeps ..) rfl ?_
    assumption
  · intro a3
    refine ite_keeps _ _ _ ?_ ?_
    · intro a4
      refine Keeps.step (capsUpdate_keeps ..) rfl ?_
      refine Keeps.step (lostNote_keeps ..) rfl ?_
      refine Keeps.step (resUpd_keeps ..) rfl ?_
      assumption
    · intro a5
      refine ite_keeps _ _ _ ?_ ?_
      · intro a6
        refine Keeps.step (capsUpdate_keeps ..) rfl ?_
        refine Keeps.step (resUpd_keeps ..) rfl ?_
        assumption
      · intro a7
        assumption

theorem unitBack_keeps (n : Nat) (l : Option Nat) (s : State) : Keeps [.meas] s (unitBack n l s) := by
  unfold unitBack
  split
  · refine Keeps.step (State.onMeas_keeps ..) rfl ?_
    refine Keeps.step (switchAll_keeps ..) rfl ?_
    refine Keeps.step (unitUpd_keeps ..) rfl ?_
    exact Keeps.refl _ _
  · refine ite_keeps _ _ _ ?_ ?_
    · intro a0
      refine Keeps.step (State.onMeas_keeps ..) rfl ?_
      exact Keeps.refl _ _
    · intro a1
      exact Keeps.refl _ _

theorem readmitEnd_keeps (kind : Nat) (die : Nat) (n : Nat) (pass : Bool) (s : State) : Keeps [.dev, .mb, .fault, .tiles, .meas, .spare] s (readmitEnd kind die n pass s) := by
  unfold readmitEnd
  extract_lets -lift +onlyGivenNames free0
  clear_value free0
  extract_lets -lift +onlyGivenNames l1
  clear_value l1
  extract_lets -lift +onlyGivenNames st2
  clear_value st2
  extract_lets -lift +onlyGivenNames s3
  have h_s3 : Keeps [.dev, .mb, .fault, .tiles, .meas, .spare] s s3 := by
    refine Keeps.step (resUpd_keeps ..) rfl ?_
    exact Keeps.refl _ _
  clear_value s3
  extract_lets -lift +onlyGivenNames s4
  have h_s4 : Keeps [.dev, .mb, .fault, .tiles, .meas, .spare] s s4 := by
    refine ite_keeps _ _ _ ?_ ?_
    · intro a5
      refine ite_keeps _ _ _ ?_ ?_
      · intro a6
        refine Keeps.step (unitBack_keeps ..) rfl ?_
        assumption
      · intro a7
        assumption
    · intro a8
      refine ite_keeps _ _ _ ?_ ?_
      · intro a9
        split
        · refine Keeps.step (resUpd_keeps ..) rfl ?_
          refine Keeps.step (tileUpd_keeps ..) rfl ?_
          assumption
        · refine Keeps.step (takeOver_keeps ..) rfl ?_
          assumption
        · refine Keeps.step (tileUpd_keeps ..) rfl ?_
          assumption
      · intro a10
        assumption
  clear_value s4
  refine Keeps.step (endSwap_keeps ..) rfl ?_
  refine Keeps.step (capsUpdate_keeps ..) rfl ?_
  refine Keeps.step (spareEvent_keeps ..) rfl ?_
  assumption

theorem readmitCal_keeps (n : Nat) (offset : Int) (gain : Int) (s : State) : Keeps [.dev, .mb, .fault, .tiles, .meas, .spare] s (readmitCal n offset gain s) := by
  unfold readmitCal
  extract_lets -lift +onlyGivenNames pass0
  clear_value pass0
  extract_lets -lift +onlyGivenNames s1
  have h_s1 : Keeps [.dev, .mb, .fault, .tiles, .meas, .spare] s s1 := by
    refine Keeps.step (measEvent_keeps ..) rfl ?_
    refine Keeps.step (State.onMeas_keeps ..) rfl ?_
    exact Keeps.refl _ _
  clear_value s1
  refine ite_keeps _ _ _ ?_ ?_
  · intro a2
    refine Keeps.step (testStart_keeps ..) rfl ?_
    refine Keeps.step (testAdd_keeps ..) rfl ?_
    assumption
  · intro a3
    refine Keeps.step (readmitEnd_keeps ..) rfl ?_
    assumption

theorem failDram_keeps (channel : Nat) (block : Nat) (cause : Nat) (s : State) : Keeps [.dev, .fault, .spare] s (failDram channel block cause s) := by
  unfold failDram
  extract_lets -lift +onlyGivenNames k0
  clear_value k0
  refine ite_keeps _ _ _ ?_ ?_
  · intro a1
    exact Keeps.refl _ _
  · intro a2
    refine ite_keeps _ _ _ ?_ ?_
    · intro a3
      refine Keeps.step (spareEvent_keeps ..) rfl ?_
      refine Keeps.step (spareEvent_keeps ..) rfl ?_
      refine Keeps.step (State.onSpare_keeps ..) rfl ?_
      exact Keeps.refl _ _
    · intro a4
      extract_lets -lift +onlyGivenNames s5
      have h_s5 : Keeps [.dev, .fault, .spare] s s5 := by
        refine Keeps.step (State.onSpare_keeps ..) rfl ?_
        exact Keeps.refl _ _
      clear_value s5
      refine Keeps.step (capsUpdate_keeps ..) rfl ?_
      refine Keeps.step (spareEvent_keeps ..) rfl ?_
      refine Keeps.step (lostNote_keeps ..) rfl ?_
      assumption

theorem mramGives_keeps (s : State) : Keeps [.fault, .aie, .prot, .spare] s (mramGives s) := by
  unfold mramGives
  extract_lets -lift +onlyGivenNames s0
  have h_s0 : Keeps [.fault, .aie, .prot, .spare] s s0 := by
    refine Keeps.step (State.onSpare_keeps ..) rfl ?_
    exact Keeps.refl _ _
  clear_value s0
  split
  · refine Keeps.step (State.onAie_keeps ..) rfl ?_
    assumption
  · refine Keeps.step (State.onProt_keeps ..) rfl ?_
    assumption
  · refine Keeps.step (State.onFault_keeps ..) rfl ?_
    assumption
  · assumption

theorem failSector_keeps (n : Nat) (cause : Nat) (s : State) : Keeps [.dev, .fault, .aie, .prot, .spare] s (failSector n cause s) := by
  unfold failSector
  refine ite_keeps _ _ _ ?_ ?_
  · intro a0
    exact Keeps.refl _ _
  · intro a1
    extract_lets -lift +onlyGivenNames l2
    clear_value l2
    extract_lets -lift +onlyGivenNames s3
    have h_s3 : Keeps [.dev, .fault, .aie, .prot, .spare] s s3 := by
      refine Keeps.step (resUpd_keeps ..) rfl ?_
      exact Keeps.refl _ _
    clear_value s3
    split
    · assumption
    · extract_lets -lift +onlyGivenNames s4
      have h_s4 : Keeps [.dev, .fault, .aie, .prot, .spare] s s4 := by
        refine Keeps.step (State.onSpare_keeps ..) rfl ?_
        refine Keeps.step (resUpd_keeps ..) rfl ?_
        assumption
      clear_value s4
      refine Keeps.step (capsUpdate_keeps ..) rfl ?_
      refine Keeps.step (spareNote_keeps ..) rfl ?_
      assumption
    · refine Keeps.step (capsUpdate_keeps ..) rfl ?_
      refine Keeps.step (mramGives_keeps ..) rfl ?_
      refine Keeps.step (lostNote_keeps ..) rfl ?_
      assumption

theorem resourceFail_keeps (kind : Nat) (die : Nat) (n : Nat) (cause : Nat) (s : State) : Keeps [.freeCtr, .dev, .mb, .fault, .link, .aie, .tiles, .meas, .prot, .spare] s (resourceFail kind die n cause s) := by
  unfold resourceFail
  split
  · refine ite_keeps _ _ _ ?_ ?_
    · intro a0
      refine Keeps.step (failPooled_keeps ..) rfl ?_
      exact Keeps.refl _ _
    · intro a1
      exact Keeps.refl _ _
  · refine ite_keeps _ _ _ ?_ ?_
    · intro a2
      refine Keeps.step (failPooled_keeps ..) rfl ?_
      exact Keeps.refl _ _
    · intro a3
      exact Keeps.refl _ _
  · refine ite_keeps _ _ _ ?_ ?_
    · intro a4
      refine Keeps.step (failPort_keeps ..) rfl ?_
      exact Keeps.refl _ _
    · intro a5
      exact Keeps.refl _ _
  · refine ite_keeps _ _ _ ?_ ?_
    · intro a6
      refine Keeps.step (unitLost_keeps ..) rfl ?_
      exact Keeps.refl _ _
    · intro a7
      exact Keeps.refl _ _
  · refine Keeps.step (countError_keeps ..) rfl ?_
    refine Keeps.step (resUpd_keeps ..) rfl ?_
    exact Keeps.refl _ _
  · refine Keeps.step (failDram_keeps ..) rfl ?_
    exact Keeps.refl _ _
  · refine Keeps.step (failSector_keeps ..) rfl ?_
    exact Keeps.refl _ _
  · exact Keeps.refl _ _

theorem errorSeen_keeps (kind : Nat) (die : Nat) (n : Nat) (double : Bool) (s : State) : Keeps [.freeCtr, .dev, .mb, .fault, .link, .aie, .tiles, .meas, .prot, .spare] s (errorSeen kind die n double s) := by
  unfold errorSeen
  extract_lets -lift +onlyGivenNames t0
  have h_t0 : Keeps [.freeCtr, .dev, .mb, .fault, .link, .aie, .tiles, .meas, .prot, .spare] s t0 := by
    refine Keeps.step (countError_keeps ..) rfl ?_
    exact Keeps.refl _ _
  clear_value t0
  refine ite_keeps _ _ _ ?_ ?_
  · intro a1
    refine Keeps.step (resourceFail_keeps ..) rfl ?_
    assumption
  · intro a2
    assumption

/-! ### Meas -/

theorem refFall_keeps (s : State) : Keeps [.fault, .meas] s (refFall s) := by
  unfold refFall
  extract_lets -lift +onlyGivenNames s0
  have h_s0 : Keeps [.fault, .meas] s s0 := by
    refine Keeps.step (State.onMeas_keeps ..) rfl ?_
    refine Keeps.step (keepOutputs_keeps ..) rfl ?_
    exact Keeps.refl _ _
  clear_value s0
  refine Keeps.step (measEvent_keeps ..) rfl ?_
  assumption

theorem trigger_keeps (unit : Nat) (s : State) : Keeps [.fault, .meas] s (trigger unit s) := by
  unfold trigger
  extract_lets -lift +onlyGivenNames x0
  clear_value x0
  refine ite_keeps _ _ _ ?_ ?_
  · intro a1
    refine ite_keeps _ _ _ ?_ ?_
    · intro a2
      refine Keeps.step (noteOverrun_keeps ..) rfl ?_
      exact Keeps.refl _ _
    · intro a3
      refine Keeps.step (unitUpd_keeps ..) rfl ?_
      exact Keeps.refl _ _
  · intro a4
    refine ite_keeps _ _ _ ?_ ?_
    · intro a5
      refine Keeps.step (noteOverrun_keeps ..) rfl ?_
      exact Keeps.refl _ _
    · intro a6
      refine Keeps.step (unitUpd_keeps ..) rfl ?_
      exact Keeps.refl _ _

theorem triggersCross_keeps (unit : Nat) (s : State) : Keeps [.fault, .meas, .spare] s (triggersCross unit s) := by
  unfold triggersCross
  refine foldl_keeps _ ?_ _ _ _ ?_
  · intro a0 a1
    refine Keeps.step (trigger_keeps ..) rfl ?_
    exact Keeps.refl _ _
  · refine Keeps.step (cdcUpd_keeps ..) rfl ?_
    exact Keeps.refl _ _

theorem crossCheck_keeps (p : Nat) (s : State) : Keeps [.fault, .meas] s (crossCheck p s) := by
  unfold crossCheck
  split
  · refine ite_keeps _ _ _ ?_ ?_
    · intro a0
      refine Keeps.step (mPairUpd_keeps ..) rfl ?_
      exact Keeps.refl _ _
    · intro a1
      exact Keeps.refl _ _
  · extract_lets -lift +onlyGivenNames q2
    clear_value q2
    extract_lets -lift +onlyGivenNames x3
    clear_value x3
    extract_lets -lift +onlyGivenNames y4
    clear_value y4
    refine ite_keeps _ _ _ ?_ ?_
    · intro a5
      exact Keeps.refl _ _
    · intro a6
      extract_lets -lift +onlyGivenNames d7
      clear_value d7
      extract_lets -lift +onlyGivenNames big8
      clear_value big8
      extract_lets -lift +onlyGivenNames st9
      clear_value st9
      extract_lets -lift +onlyGivenNames excess10
      clear_value excess10
      extract_lets -lift +onlyGivenNames under11
      clear_value under11
      extract_lets -lift +onlyGivenNames s12
      have h_s12 : Keeps [.fault, .meas] s s12 := by
        refine Keeps.step (mPairUpd_keeps ..) rfl ?_
        exact Keeps.refl _ _
      clear_value s12
      refine ite_keeps _ _ _ ?_ ?_
      · intro a13
        extract_lets -lift +onlyGivenNames s14
        have h_s14 : Keeps [.fault, .meas] s s14 := by
          refine Keeps.step (measEvent_keeps ..) rfl ?_
          refine Keeps.step (mPairUpd_keeps ..) rfl ?_
          refine Keeps.step (keepOutputs_keeps ..) rfl ?_
          assumption
        clear_value s14
        refine Keeps.step (testAdd_keeps ..) rfl ?_
        refine Keeps.step (testAdd_keeps ..) rfl ?_
        assumption
      · intro a15
        refine ite_keeps _ _ _ ?_ ?_
        · intro a16
          refine Keeps.step (measEvent_keeps ..) rfl ?_
          refine Keeps.step (mPairUpd_keeps ..) rfl ?_
          assumption
        · intro a17
          assumption

theorem testFinal_keeps (t : DacTest) (pass : Bool) (m1 : Int) (m3 : Int) (s : State) : Keeps [.mb] s (testFinal t pass m1 m3 s) := by
  unfold testFinal
  refine Keeps.step (endPending_keeps ..) rfl ?_
  exact Keeps.refl _ _

/-! ### DeviceOps -/

theorem sysEvent_keeps (kind : Nat) (d : List Nat) (s : State) : Keeps [.fault] s (sysEvent kind d s) := by
  unfold sysEvent
  refine Keeps.step (raise_keeps ..) rfl ?_
  exact Keeps.refl _ _

theorem replayLeave_keeps (cause : Nat) (s : State) : Keeps [.mb, .fault, .link, .aie, .pwm, .loop, .tiles, .galley] s (replayLeave cause s) := by
  unfold replayLeave
  split
  · exact Keeps.refl _ _
  · extract_lets -lift +onlyGivenNames s0
    have h_s0 : Keeps [.mb, .fault, .link, .aie, .pwm, .loop, .tiles, .galley] s s0 := by
      refine Keeps.step (State.onGalley_keeps ..) rfl ?_
      exact Keeps.refl _ _
    clear_value s0
    split
    · assumption
    · extract_lets -lift +onlyGivenNames out1
      clear_value out1
      refine Keeps.step (recEvent_keeps ..) rfl ?_
      refine Keeps.step (endPending_keeps ..) rfl ?_
      refine Keeps.step (installImage_keeps ..) rfl ?_
      assumption

theorem dropCommits_keeps (s : State) : Keeps [.tick] s (dropCommits s) := by
  unfold dropCommits
  refine Keeps.step (State.onTick_keeps _ _ (by exact id)) rfl ?_
  exact Keeps.refl _ _

theorem dropNewLen_keeps (s : State)  : Keeps [.tick] s (dropNewLen s) := by
  unfold dropNewLen
  refine Keeps.step (State.onTick_keeps _ _ (fun w => ⟨w.1, fun n hn => w.2 n (Option.filter_eq_some_iff.mp hn).1⟩)) rfl ?_
  exact Keeps.refl _ _

theorem dropHealth_keeps (s : State) : Keeps [.link] s (dropHealth s) := by
  unfold dropHealth
  extract_lets -lift +onlyGivenNames live0
  clear_value live0
  refine Keeps.step (State.onLink_keeps ..) rfl ?_
  exact Keeps.refl _ _

theorem stateEffects_keeps (dest : DevState) (cause : Nat) (s : State) : Keeps [.dev, .mb, .tick, .fault, .link, .aie, .pwm, .loop, .tiles, .galley] s (stateEffects dest cause s) := by
  unfold stateEffects
  extract_lets -lift +onlyGivenNames s0
  have h_s0 : Keeps [.dev, .mb, .tick, .fault, .link, .aie, .pwm, .loop, .tiles, .galley] s s0 := by
    refine ite_keeps _ _ _ ?_ ?_
    · intro a1
      exact Keeps.refl _ _
    · intro a2
      refine Keeps.step (replayLeave_keeps ..) rfl ?_
      exact Keeps.refl _ _
  clear_value s0
  extract_lets -lift +onlyGivenNames s3
  have h_s3 : Keeps [.dev, .mb, .tick, .fault, .link, .aie, .pwm, .loop, .tiles, .galley] s s3 := by
    refine ite_keeps _ _ _ ?_ ?_
    · intro a4
      assumption
    · intro a5
      refine Keeps.step (loopsTrack_keeps ..) rfl ?_
      assumption
  clear_value s3
  extract_lets -lift +onlyGivenNames s6
  have h_s6 : Keeps [.dev, .mb, .tick, .fault, .link, .aie, .pwm, .loop, .tiles, .galley] s s6 := by
    refine ite_keeps _ _ _ ?_ ?_
    · intro a7
      refine Keeps.step (aieEnter_keeps ..) rfl ?_
      refine Keeps.step (State.onLink_keeps ..) rfl ?_
      assumption
    · intro a8
      refine ite_keeps _ _ _ ?_ ?_
      · intro a9
        assumption
      · intro a10
        refine Keeps.step (aieLeave_keeps ..) rfl ?_
        assumption
  clear_value s6
  refine ite_keeps _ _ _ ?_ ?_
  · intro a11
    refine Keeps.step (allPortsDown_keeps ..) rfl ?_
    assumption
  · intro a12
    assumption

theorem dropDeblock_keeps (s : State) : Keeps [.dev] s (dropDeblock s) := by
  unfold dropDeblock
  refine ite_keeps _ _ _ ?_ ?_
  · intro a0
    exact Keeps.refl _ _
  · intro a1
    refine Keeps.step (State.onDev_keeps (h := rfl) ..) rfl ?_
    exact Keeps.refl _ _

theorem transition_keeps (dest : DevState) (cause : Nat) (s : State) : Keeps [.dev, .mb, .tick, .fault, .link, .aie, .pwm, .loop, .tiles, .safe, .red, .galley] s (transition dest cause s) := by
  unfold transition
  extract_lets -lift +onlyGivenNames old0
  clear_value old0
  extract_lets -lift +onlyGivenNames tick1
  clear_value tick1
  extract_lets -lift +onlyGivenNames s2
  have h_s2 : Keeps [.dev, .mb, .tick, .fault, .link, .aie, .pwm, .loop, .tiles, .safe, .red, .galley] s s2 := by
    refine Keeps.step (State.onDev_keeps (h := rfl) ..) rfl ?_
    exact Keeps.refl _ _
  clear_value s2
  extract_lets -lift +onlyGivenNames s3
  have h_s3 : Keeps [.dev, .mb, .tick, .fault, .link, .aie, .pwm, .loop, .tiles, .safe, .red, .galley] s s3 := by
    refine Keeps.step (sysEvent_keeps ..) rfl ?_
    refine Keeps.step (logAdd_keeps ..) rfl ?_
    assumption
  clear_value s3
  extract_lets -lift +onlyGivenNames s4
  have h_s4 : Keeps [.dev, .mb, .tick, .fault, .link, .aie, .pwm, .loop, .tiles, .safe, .red, .galley] s s4 := by
    refine Keeps.step (safeHook_keeps ..) rfl ?_
    refine Keeps.step (stateEffects_keeps ..) rfl ?_
    assumption
  clear_value s4
  extract_lets -lift +onlyGivenNames s5
  have h_s5 : Keeps [.dev, .mb, .tick, .fault, .link, .aie, .pwm, .loop, .tiles, .safe, .red, .galley] s s5 := by
    refine Keeps.step (State.onMb_keeps _ _ (by exact id)) rfl ?_
    assumption
  clear_value s5
  extract_lets -lift +onlyGivenNames s7
  have h_s7 : Keeps [.dev, .mb, .tick, .fault, .link, .aie, .pwm, .loop, .tiles, .safe, .red, .galley] s s7 := by
    refine Keeps.step (pairsRecheck_keeps ..) rfl ?_
    refine Keeps.step (dropDeblock_keeps ..) rfl ?_
    refine Keeps.step (dropHealth_keeps ..) rfl ?_
    refine Keeps.step (dropNewLen_keeps ..) rfl ?_
    refine Keeps.step (dropCommits_keeps ..) rfl ?_
    assumption
  clear_value s7
  refine ite_keeps _ _ _ ?_ ?_
  · intro a8
    assumption
  · intro a9
    refine Keeps.step (xlSend_keeps ..) rfl ?_
    assumption

theorem dropTrigger_keeps (t : Trigger) (s : State) : Keeps [.fault] s (dropTrigger t s) := by
  unfold dropTrigger
  refine when_keeps _ _ _ _ ?_ ?_
  · exact Keeps.refl _ _
  · refine Keeps.step (redEvent_keeps ..) rfl ?_
    exact Keeps.refl _ _

theorem takeTriggers_keeps (acted : Bool) (s : State) (l : List Trigger) : Keeps [.dev, .mb, .tick, .fault, .link, .aie, .pwm, .loop, .tiles, .safe, .red, .galley] s (takeTriggers acted s l) := by
  induction l generalizing acted s with
  | nil => 
    unfold takeTriggers
    exact Keeps.refl _ _
  | cons t r ih => 
    unfold takeTriggers
    refine ite_keeps _ _ _ ?_ ?_
    · intro a0
      refine Keeps.step (ih ..) rfl ?_
      refine Keeps.step (dropTrigger_keeps ..) rfl ?_
      exact Keeps.refl _ _
    · intro a1
      refine ite_keeps _ _ _ ?_ ?_
      · intro a2
        refine Keeps.step (ih ..) rfl ?_
        refine Keeps.step (State.onDev_keeps (h := rfl) ..) rfl ?_
        exact Keeps.refl _ _
      · intro a3
        refine Keeps.step (ih ..) rfl ?_
        refine Keeps.step (transition_keeps ..) rfl ?_
        exact Keeps.refl _ _

theorem actTriggers_keeps (deblock : Bool) (s : State) : Keeps [.dev, .mb, .tick, .fault, .link, .aie, .pwm, .loop, .tiles, .safe, .red, .galley] s (actTriggers deblock s) := by
  unfold actTriggers
  extract_lets -lift +onlyGivenNames due0
  clear_value due0
  refine Keeps.step (takeTriggers_keeps ..) rfl ?_
  refine Keeps.step (State.onDev_keeps (h := rfl) ..) rfl ?_
  exact Keeps.refl _ _

theorem startReset_keeps (cold : Bool) (source : Nat) (s : State) : Keeps [.dev, .power, .fault, .red] s (startReset cold source s) := by
  unfold startReset
  extract_lets -lift +onlyGivenNames s0
  have h_s0 : Keeps [.dev, .power, .fault, .red] s s0 := by
    refine Keeps.step (sysEvent_keeps ..) rfl ?_
    refine Keeps.step (State.onPower_keeps ..) rfl ?_
    exact Keeps.refl _ _
  clear_value s0
  refine ite_keeps _ _ _ ?_ ?_
  · intro a1
    assumption
  · intro a2
    refine ite_keeps _ _ _ ?_ ?_
    · intro a3
      refine Keeps.step (xlSend_keeps ..) rfl ?_
      refine Keeps.step (State.onRed_keeps ..) rfl ?_
      assumption
    · intro a4
      refine ite_keeps _ _ _ ?_ ?_
      · intro a5
        refine ite_keeps _ _ _ ?_ ?_
        · intro a6
          refine Keeps.step (addTrigger_keeps ..) rfl ?_
          assumption
        · intro a7
          refine Keeps.step (addTrigger_keeps ..) rfl ?_
          assumption
      · intro a8
        assumption

theorem requestReset_keeps (cold : Bool) (source : Nat) (s : State)  : Keeps [.dev, .power, .fault, .red] s (requestReset cold source s).1 := by
  unfold requestReset
  split
  · try dsimp -zeta only
    refine Keeps.step (startReset_keeps ..) rfl ?_
    exact Keeps.refl _ _
  · split
    · try dsimp -zeta only
      refine Keeps.step (sysEvent_keeps ..) rfl ?_
      refine Keeps.step (State.onPower_keeps ..) rfl ?_
      exact Keeps.refl _ _
    · try dsimp -zeta only
      refine Keeps.step (sysEvent_keeps ..) rfl ?_
      exact Keeps.refl _ _

theorem cdcWarm_keeps (s : State) : Keeps [.freeCtr, .fault, .spare] s (cdcWarm s) := by
  unfold cdcWarm
  refine foldl_keeps _ ?_ _ _ _ ?_
  · intro a0 a1
    refine Keeps.step (cdcFlush_keeps ..) rfl ?_
    exact Keeps.refl _ _
  · exact Keeps.refl _ _

theorem freshTick_legal (n p : Nat) : LegalTick { ({} : TickSt) with index := n, past := p } := ⟨.inr (.inl rfl), fun _ h => nomatch h⟩

theorem freshMb_fits (b m) : LogFits { ({} : Mailboxes) with blocks := b, msix := m } := Nat.zero_le _

theorem hardReset_keeps (s : State)  : Keeps [.dev, .power, .mb, .tick, .fault, .link, .aie, .pwm, .loop, .tiles, .meas, .time, .acq, .prot, .net, .safe, .red, .galley, .spare] s (hardReset s) := by
  constructor <;> intros <;> first | rfl | assumption | exact freshTick_legal _ _ | exact freshMb_fits _ _ | (exfalso; simp_all; done)

theorem bootEntered_keeps (old : DevState) (cause : Nat) (s : State) : Keeps [.mb, .fault] s (bootEntered old cause s) := by
  unfold bootEntered
  refine Keeps.step (sysEvent_keeps ..) rfl ?_
  refine Keeps.step (logAdd_keeps ..) rfl ?_
  exact Keeps.refl _ _

theorem coldReset_keeps (s : State)  : Keeps [.dev, .power, .mb, .tick, .fault, .link, .aie, .pwm, .loop, .tiles, .meas, .time, .acq, .prot, .net, .safe, .red, .galley, .spare] s (coldReset s) := by
  unfold coldReset
  refine Keeps.step (bootEntered_keeps ..) rfl ?_
  refine Keeps.step (K := [.dev, .power, .fault, .link]) (u := hardReset s) ?_ rfl (Keeps.mono (hardReset_keeps s) rfl)
  constructor <;> intros <;> first | rfl | assumption | exact freshTick_legal _ _ | exact freshMb_fits _ _ | (exfalso; simp_all; done)

theorem warmReset_keeps (s : State)  : Keeps [.freeCtr, .dev, .power, .mb, .tick, .fault, .link, .aie, .pwm, .loop, .tiles, .meas, .time, .acq, .prot, .net, .safe, .red, .galley, .spare] s (warmReset s) := by
  unfold warmReset
  refine Keeps.step (cdcWarm_keeps ..) rfl (Keeps.step (bootEntered_keeps ..) rfl ?_)
  refine Keeps.step (K := [.dev, .power, .mb, .tick, .fault, .link, .aie, .pwm, .loop, .tiles, .meas, .time, .acq, .prot, .net, .safe, .red, .galley, .spare]) (u := hardReset s) ?_ rfl (Keeps.mono (hardReset_keeps s) rfl)
  constructor <;> intros <;> first | rfl | assumption | exact freshTick_legal _ _ | exact freshMb_fits _ _ | (exfalso; simp_all; done)

theorem resetAnswers_keeps (s : State) : Keeps [.host, .mb] s (resetAnswers s) := by
  unfold resetAnswers
  extract_lets -lift +onlyGivenNames s0
  have h_s0 : Keeps [.host, .mb] s s0 := by
    refine foldl_keeps _ ?_ _ _ _ ?_
    · intro a1 a2
      extract_lets -lift +onlyGivenNames o3
      clear_value o3
      refine Keeps.step (release_keeps ..) rfl ?_
      refine Keeps.step (respond_keeps ..) rfl ?_
      exact Keeps.refl _ _
    · exact Keeps.refl _ _
  clear_value s0
  extract_lets -lift +onlyGivenNames s4
  have h_s4 : Keeps [.host, .mb] s s4 := by
    refine Keeps.step (State.onMb_keeps _ _ (by exact id)) rfl ?_
    assumption
  clear_value s4
  split
  · refine Keeps.step (State.onMb_keeps _ _ (by exact id)) rfl ?_
    refine Keeps.step (respond_keeps ..) rfl ?_
    assumption
  · assumption

theorem resetStart_keeps (s : State) : Keeps [.freeCtr, .host, .dev, .power, .mb, .tick, .fault, .link, .aie, .pwm, .loop, .tiles, .meas, .time, .acq, .prot, .net, .safe, .red, .galley, .spare] s (resetStart s) := by
  unfold resetStart
  split
  · exact Keeps.refl _ _
  · extract_lets -lift +onlyGivenNames s0
    have h_s0 : Keeps [.freeCtr, .host, .dev, .power, .mb, .tick, .fault, .link, .aie, .pwm, .loop, .tiles, .meas, .time, .acq, .prot, .net, .safe, .red, .galley, .spare] s s0 := by
      refine Keeps.step (wearSave_keeps ..) rfl ?_
      refine Keeps.step (allPortsDown_keeps ..) rfl ?_
      refine Keeps.step (resetAnswers_keeps ..) rfl ?_
      exact Keeps.refl _ _
    clear_value s0
    refine ite_keeps _ _ _ ?_ ?_
    · intro a1
      refine Keeps.step (coldReset_keeps ..) rfl ?_
      assumption
    · intro a2
      refine Keeps.step (warmReset_keeps ..) rfl ?_
      assumption

/-! ### Disp -/

theorem cancelAct_keeps (d : Nat) (k : Cancel) (s : State) : Keeps [.mb, .fault, .tiles] s (cancelAct d k s) := by
  unfold cancelAct
  extract_lets -lift +onlyGivenNames hit0
  clear_value hit0
  extract_lets -lift +onlyGivenNames now1
  clear_value now1
  extract_lets -lift +onlyGivenNames s2
  have h_s2 : Keeps [.mb, .fault, .tiles] s s2 := by
    refine foldl_keeps _ ?_ _ _ _ ?_
    · intro a3 a4
      refine Keeps.step (itemCancel_keeps ..) rfl ?_
      exact Keeps.refl _ _
    · exact Keeps.refl _ _
  clear_value s2
  extract_lets -lift +onlyGivenNames r5
  clear_value r5
  refine Keeps.step (endPending_keeps ..) rfl ?_
  assumption

/-! ### Link -/

theorem portStart_keeps (p : Nat) (s : State) : Keeps [.fault, .link] s (portStart p s) := by
  unfold portStart
  extract_lets -lift +onlyGivenNames s0
  have h_s0 : Keeps [.fault, .link] s s0 := by
    refine foldl_keeps _ ?_ _ _ _ ?_
    · intro a1 a2
      refine Keeps.step (cellUpd_keeps ..) rfl ?_
      exact Keeps.refl _ _
    · exact Keeps.refl _ _
  clear_value s0
  refine Keeps.step (setPortState_keeps ..) rfl ?_
  refine Keeps.step (portUpd_keeps ..) rfl ?_
  assumption

theorem portWake_keeps (p : Nat) (s : State) : Keeps [.fault, .link] s (portWake p s) := by
  unfold portWake
  extract_lets -lift +onlyGivenNames down0
  clear_value down0
  extract_lets -lift +onlyGivenNames s1
  have h_s1 : Keeps [.fault, .link] s s1 := by
    refine foldl_keeps _ ?_ _ _ _ ?_
    · intro a2 a3
      refine Keeps.step (cellUpd_keeps ..) rfl ?_
      exact Keeps.refl _ _
    · exact Keeps.refl _ _
  clear_value s1
  extract_lets -lift +onlyGivenNames s4
  have h_s4 : Keeps [.fault, .link] s s4 := by
    refine when_keeps _ _ _ _ ?_ ?_
    · assumption
    · refine Keeps.step (sendLine_keeps ..) rfl ?_
      exact Keeps.refl _ _
  clear_value s4
  refine Keeps.step (setPortState_keeps ..) rfl ?_
  refine Keeps.step (portUpd_keeps ..) rfl ?_
  assumption

theorem rosterInstall_keeps (s : State) (ports : Nat → Bool) (new : List Roster) : Keeps [.fault, .link, .aie] s (rosterInstall s ports new) := by
  unfold rosterInstall
  extract_lets -lift +onlyGivenNames keep0
  clear_value keep0
  extract_lets -lift +onlyGivenNames old1
  clear_value old1
  extract_lets -lift +onlyGivenNames s2
  have h_s2 : Keeps [.fault, .link, .aie] s s2 := by
    refine Keeps.step (State.onLink_keeps ..) rfl ?_
    exact Keeps.refl _ _
  clear_value s2
  extract_lets -lift +onlyGivenNames s3
  have h_s3 : Keeps [.fault, .link, .aie] s s3 := by
    refine foldl_keeps _ ?_ _ _ _ ?_
    · intro a4 a5
      refine Keeps.step (setHealth_keeps ..) rfl ?_
      refine Keeps.step (cellUpd_keeps ..) rfl ?_
      exact Keeps.refl _ _
    · assumption
  clear_value s3
  refine foldl_keeps _ ?_ _ _ _ ?_
  · intro a6 a7
    refine Keeps.step (aieRestore_keeps ..) rfl ?_
    extract_lets -lift +onlyGivenNames first8
    clear_value first8
    refine Keeps.step (setHealth_keeps ..) rfl ?_
    refine Keeps.step (State.onLink_keeps ..) rfl ?_
    exact Keeps.refl _ _
  · assumption

theorem commitSafeStates_keeps (s : State) : Keeps [.link] s (commitSafeStates s) := by
  unfold commitSafeStates
  refine foldl_keeps _ ?_ _ _ _ ?_
  · intro a0 a1
    split
    · exact Keeps.refl _ _
    · extract_lets -lift +onlyGivenNames t2
      have h_t2 : Keeps [.link] a0 t2 := by
        refine Keeps.step (cellUpd_keeps ..) rfl ?_
        exact Keeps.refl _ _
      clear_value t2
      refine ite_keeps _ _ _ ?_ ?_
      · intro a3
        assumption
      · intro a4
        refine when_keeps _ _ _ _ ?_ ?_
        · assumption
        · refine Keeps.step (pushSafeState_keeps ..) rfl ?_
          exact Keeps.refl _ _
  · exact Keeps.refl _ _

theorem measured_keeps (p : Nat) (r : RangeRun) (v : Option Int) (s : State) : Keeps [.fault, .link] s (measured p r v s) := by
  unfold measured
  extract_lets -lift +onlyGivenNames r0
  clear_value r0
  extract_lets -lift +onlyGivenNames s1
  have h_s1 : Keeps [.fault, .link] s s1 := by
    refine Keeps.step (portUpd_keeps ..) rfl ?_
    exact Keeps.refl _ _
  clear_value s1
  refine ite_keeps _ _ _ ?_ ?_
  · intro a2
    refine Keeps.step (judgeRun_keeps ..) rfl ?_
    assumption
  · intro a3
    assumption

theorem inService_keeps (port : Nat) (s : State) : Keeps [.mb, .fault, .link] s (inService port s) := by
  unfold inService
  extract_lets -lift +onlyGivenNames lane0
  clear_value lane0
  extract_lets -lift +onlyGivenNames s1
  have h_s1 : Keeps [.mb, .fault, .link] s s1 := by
    refine Keeps.step (setPortState_keeps ..) rfl ?_
    refine Keeps.step (portUpd_keeps ..) rfl ?_
    exact Keeps.refl _ _
  clear_value s1
  refine Keeps.step (endPortPending_keeps ..) rfl ?_
  assumption

theorem burstDiscarded_keeps (cid : Nat) (s : State) : Keeps [.fault, .link] s (burstDiscarded cid s) := by
  unfold burstDiscarded
  extract_lets -lift +onlyGivenNames c0
  clear_value c0
  extract_lets -lift +onlyGivenNames s1
  have h_s1 : Keeps [.fault, .link] s s1 := by
    refine Keeps.step (portUpd_keeps ..) rfl ?_
    refine Keeps.step (cellUpd_keeps ..) rfl ?_
    exact Keeps.refl _ _
  clear_value s1
  refine when_keeps _ _ _ _ ?_ ?_
  · assumption
  · refine Keeps.step (markCell_keeps ..) rfl ?_
    exact Keeps.refl _ _

theorem pendingDone_keeps (cid : Nat) (s : State) : Keeps [.link] s (pendingDone cid s) := by
  unfold pendingDone
  extract_lets -lift +onlyGivenNames c0
  clear_value c0
  refine when_keeps _ _ _ _ ?_ ?_
  · exact Keeps.refl _ _
  · refine Keeps.step (detect_keeps ..) rfl ?_
    exact Keeps.refl _ _

theorem burstValid_keeps (cid : Nat) (e : Int) (w : Word64) (s : State) : Keeps [.fault, .link] s (burstValid cid e w s) := by
  unfold burstValid
  extract_lets -lift +onlyGivenNames c0
  clear_value c0
  extract_lets -lift +onlyGivenNames ok1
  clear_value ok1
  extract_lets -lift +onlyGivenNames s2
  have h_s2 : Keeps [.fault, .link] s s2 := by
    refine Keeps.step (cellUpd_keeps ..) rfl ?_
    exact Keeps.refl _ _
  clear_value s2
  extract_lets -lift +onlyGivenNames s3
  have h_s3 : Keeps [.fault, .link] s s3 := by
    dsimp -zeta only [s3]
    split
    · refine Keeps.step (pendingDone_keeps ..) rfl ?_
      refine Keeps.step (cellUpd_keeps ..) rfl ?_
      assumption
    · refine Keeps.step (cellUpd_keeps ..) rfl ?_
      assumption
    · assumption
  clear_value s3
  refine when_keeps _ _ _ _ ?_ ?_
  · assumption
  · refine Keeps.step (track_keeps ..) rfl ?_
    exact Keeps.refl _ _

theorem contextEcc_keeps (port : Nat) (entry : Nat) (double : Bool) (s : State) : Keeps [.freeCtr, .dev, .mb, .fault, .link, .aie, .tiles, .meas, .prot, .spare] s (contextEcc port entry double s) := by
  unfold contextEcc
  refine ite_keeps _ _ _ ?_ ?_
  · intro a0
    refine Keeps.step (linkEvent_keeps ..) rfl ?_
    refine Keeps.step (errorSeen_keeps ..) rfl ?_
    exact Keeps.refl _ _
  · intro a1
    extract_lets -lift +onlyGivenNames restore2
    extract_lets -lift +onlyGivenNames s3
    have h_s3 : Keeps [.freeCtr, .dev, .mb, .fault, .link, .aie, .tiles, .meas, .prot, .spare] s s3 := by
      refine Keeps.step (errorSeen_keeps ..) rfl ?_
      exact Keeps.refl _ _
    clear_value s3
    refine Keeps.step (linkEvent_keeps ..) rfl ?_
    try dsimp -zeta only [restore2]
    split
    · try dsimp -zeta only [restore2]
      split
      · assumption
      · refine Keeps.step (markCell_keeps ..) rfl ?_
        refine Keeps.step (cellUpd_keeps ..) rfl ?_
        assumption
    · refine Keeps.step (markCell_keeps ..) rfl ?_
      refine Keeps.step (cellUpd_keeps ..) rfl ?_
      try dsimp -zeta only [restore2]
      split
      · assumption
      · refine Keeps.step (markCell_keeps ..) rfl ?_
        refine Keeps.step (cellUpd_keeps ..) rfl ?_
        assumption

/-! ### CrossOps -/

theorem msetEnter_keeps (s : State) : Keeps [.meas] s (msetEnter s) := by
  unfold msetEnter
  refine Keeps.step (State.onMeas_keeps ..) rfl ?_
  exact Keeps.refl _ _

theorem sigsEnter_keeps (s : State) : Keeps [.loop] s (sigsEnter s) := by
  unfold sigsEnter
  extract_lets -lift +onlyGivenNames new0
  clear_value new0
  refine Keeps.step (State.onLoop_keeps ..) rfl ?_
  exact Keeps.refl _ _

theorem viewPush_keeps (s : State) : Keeps [.loop] s (viewPush s) := by
  unfold viewPush
  extract_lets -lift +onlyGivenNames outs0
  clear_value outs0
  refine Keeps.step (State.onLoop_keeps ..) rfl ?_
  exact Keeps.refl _ _

theorem sourceNote_keeps (a : Nat) (sel : Nat) (was : Bool) (bad : Bool) (s : State) : Keeps [.fault] s (sourceNote a sel was bad s) := by
  unfold sourceNote
  refine when_keeps _ _ _ _ ?_ ?_
  · exact Keeps.refl _ _
  · refine Keeps.step (aieEvent_keeps ..) rfl ?_
    exact Keeps.refl _ _

theorem armSources_keeps (a : Nat) (k : ArmCfg) (s : State) : Keeps [.fault, .aie] s (armSources a k s) := by
  unfold armSources
  extract_lets -lift +onlyGivenNames st0
  clear_value st0
  extract_lets -lift +onlyGivenNames ib1
  clear_value ib1
  extract_lets -lift +onlyGivenNames vb2
  clear_value vb2
  refine Keeps.step (sourceNote_keeps ..) rfl ?_
  refine Keeps.step (sourceNote_keeps ..) rfl ?_
  refine Keeps.step (armUpd_keeps ..) rfl ?_
  exact Keeps.refl _ _

theorem armEnter_keeps (a : Nat) (k : ArmCfg) (s : State) : Keeps [.dev, .tick, .fault, .aie] s (armEnter a k s) := by
  unfold armEnter
  extract_lets -lift +onlyGivenNames s0
  have h_s0 : Keeps [.dev, .tick, .fault, .aie] s s0 := by
    refine Keeps.step (armSources_keeps ..) rfl ?_
    exact Keeps.refl _ _
  clear_value s0
  extract_lets -lift +onlyGivenNames i1
  clear_value i1
  extract_lets -lift +onlyGivenNames amps2
  clear_value amps2
  refine Keeps.step (armStage_keeps ..) rfl ?_
  refine foldl_keeps _ ?_ _ _ _ ?_
  · intro a3 a4
    refine Keeps.step (predictCell_keeps ..) rfl ?_
    exact Keeps.refl _ _
  · assumption

theorem armCheck_keeps (a : Nat) (k : ArmCfg) (old : Nat → Int) (s : State) : Keeps [.fault, .link, .aie] s (armCheck a k old s) := by
  unfold armCheck
  extract_lets -lift +onlyGivenNames v0
  clear_value v0
  refine ite_keeps _ _ _ ?_ ?_
  · intro a1
    refine Keeps.step (plausibility_keeps ..) rfl ?_
    exact Keeps.refl _ _
  · intro a2
    refine Keeps.step (noCheck_keeps ..) rfl ?_
    exact Keeps.refl _ _

theorem onArms_keeps {L : List Part} (f : Nat → ArmCfg → State → State) (ih_f : ∀ n k s, Keeps L s (f n k s)) (s : State) : Keeps L s (onArms f s) := by
  unfold onArms
  refine foldl_keeps _ (fun s x => ?_) _ _ _ (Keeps.refl _ _)
  split
  · exact ih_f ..
  · exact Keeps.refl _ _

theorem aieCross_keeps (s : State) : Keeps [.dev, .tick, .fault, .link, .aie, .pwm] s (aieCross s) := by
  unfold aieCross
  extract_lets -lift +onlyGivenNames old0
  clear_value old0
  extract_lets -lift +onlyGivenNames s1
  have h_s1 : Keeps [.dev, .tick, .fault, .link, .aie, .pwm] s s1 := by
    refine Keeps.step (derateGroup_keeps ..) rfl ?_
    refine Keeps.step (derateGroup_keeps ..) rfl ?_
    refine Keeps.step (onArms_keeps (L := [.dev, .tick, .fault, .link, .aie, .pwm]) (ih_f := ?_) ..) rfl ?_
    · intro a2 a3 a4
      refine Keeps.step (armEnter_keeps ..) rfl ?_
      exact Keeps.refl _ _
    · exact Keeps.refl _ _
  clear_value s1
  refine ite_keeps _ _ _ ?_ ?_
  · intro a5
    refine Keeps.step (onArms_keeps (L := [.dev, .tick, .fault, .link, .aie, .pwm]) (ih_f := ?_) ..) rfl ?_
    · intro a6 a7 a8
      refine Keeps.step (levelNone_keeps ..) rfl ?_
      exact Keeps.refl _ _
    · assumption
  · intro a9
    refine Keeps.step (onArms_keeps (L := [.dev, .tick, .fault, .link, .aie, .pwm]) (ih_f := ?_) ..) rfl ?_
    · intro a10 a11 a12
      refine Keeps.step (armCheck_keeps ..) rfl ?_
      exact Keeps.refl _ _
    · refine Keeps.step (onArms_keeps (L := [.dev, .tick, .fault, .link, .aie, .pwm]) (ih_f := ?_) ..) rfl ?_
      · intro a13 a14 a15
        refine Keeps.step (armSelect_keeps ..) rfl ?_
        exact Keeps.refl _ _
      · assumption

theorem genEdges_keeps (a : Nat) (w : Word32) (s : State) : Keeps [.pwm] s (genEdges a w s) := by
  unfold genEdges
  split
  · refine Keeps.step (genOccur_keeps ..) rfl ?_
    exact Keeps.refl _ _
  · refine Keeps.step (genOccur_keeps ..) rfl ?_
    refine Keeps.step (genOccur_keeps ..) rfl ?_
    exact Keeps.refl _ _
  · exact Keeps.refl _ _

theorem eventsNext_keeps (s : State) : Keeps [.pwm] s (eventsNext s) := by
  unfold eventsNext
  refine foldl_keeps _ ?_ _ _ _ ?_
  · intro a0 a1
    split
    · refine Keeps.step (genEdges_keeps ..) rfl ?_
      exact Keeps.refl _ _
    · exact Keeps.refl _ _
  · refine Keeps.step (State.onPwm_keeps ..) rfl ?_
    exact Keeps.refl _ _

theorem computeIn_keeps (s : State) : Keeps [.dev, .tick, .fault, .link, .aie, .pwm, .loop, .tiles, .galley] s (computeIn s) := by
  unfold computeIn
  extract_lets -lift +onlyGivenNames s0
  have h_s0 : Keeps [.dev, .tick, .fault, .link, .aie, .pwm, .loop, .tiles, .galley] s s0 := by
    refine Keeps.step (viewPush_keeps ..) rfl ?_
    refine Keeps.step (sigsEnter_keeps ..) rfl ?_
    refine Keeps.step (portsEnter_keeps ..) rfl ?_
    refine Keeps.step (portsEnter_keeps ..) rfl ?_
    exact Keeps.refl _ _
  clear_value s0
  extract_lets -lift +onlyGivenNames s1
  have h_s1 : Keeps [.dev, .tick, .fault, .link, .aie, .pwm, .loop, .tiles, .galley] s s1 := by
    refine Keeps.step (aieCross_keeps ..) rfl ?_
    refine Keeps.step (evalDie_keeps ..) rfl ?_
    refine Keeps.step (evalDie_keeps ..) rfl ?_
    assumption
  clear_value s1
  refine Keeps.step (eventsNext_keeps ..) rfl ?_
  refine Keeps.step (dispCrossing_keeps ..) rfl ?_
  refine Keeps.step (dispCrossing_keeps ..) rfl ?_
  assumption

theorem crossEnter_keeps (s : State) : Keeps [.tick, .fault, .link, .aie, .pwm, .loop, .meas, .net, .safe, .red, .galley, .spare] s (crossEnter s) := by
  unfold crossEnter
  extract_lets -lift +onlyGivenNames s0
  have h_s0 : Keeps [.tick, .fault, .link, .aie, .pwm, .loop, .meas, .net, .safe, .red, .galley, .spare] s s0 := by
    refine Keeps.step (State.onLink_keeps ..) rfl ?_
    refine Keeps.step (listen_keeps ..) rfl ?_
    exact Keeps.refl _ _
  clear_value s0
  extract_lets -lift +onlyGivenNames s1
  have h_s1 : Keeps [.tick, .fault, .link, .aie, .pwm, .loop, .meas, .net, .safe, .red, .galley, .spare] s s1 := by
    refine foldl_keeps _ ?_ _ _ _ ?_
    · intro a2 a3
      refine Keeps.step (cellCrossing_keeps ..) rfl ?_
      exact Keeps.refl _ _
    · assumption
  clear_value s1
  extract_lets -lift +onlyGivenNames stale4
  clear_value stale4
  extract_lets -lift +onlyGivenNames s5
  have h_s5 : Keeps [.tick, .fault, .link, .aie, .pwm, .loop, .meas, .net, .safe, .red, .galley, .spare] s s5 := by
    refine Keeps.step (netCross_keeps ..) rfl ?_
    refine Keeps.step (useMset_keeps ..) rfl ?_
    refine Keeps.step (msetEnter_keeps ..) rfl ?_
    refine Keeps.step (installRecord_keeps ..) rfl ?_
    refine foldl_keeps _ ?_ _ _ _ ?_
    · intro a6 a7
      refine Keeps.step (minOffset_keeps ..) rfl ?_
      exact Keeps.refl _ _
    · refine Keeps.step (State.onTick_keeps _ _ (by exact id)) rfl ?_
      assumption
  clear_value s5
  refine Keeps.step (State.onSafe_keeps ..) rfl ?_
  assumption

theorem inputCross_keeps (s : State) : Keeps [.dev, .tick, .fault, .link, .aie, .pwm, .loop, .tiles, .meas, .net, .safe, .red, .galley, .spare] s (inputCross s) := by
  unfold inputCross
  refine Keeps.step (gather_keeps ..) rfl ?_
  refine Keeps.step (computeIn_keeps ..) rfl ?_
  refine Keeps.step (blockStart_keeps ..) rfl ?_
  refine Keeps.step (crossEnter_keeps ..) rfl ?_
  exact Keeps.refl _ _

theorem genTake_keeps (a : Nat) (o : GenOut) (s : State) : Keeps [.pwm] s (genTake a o s) := by
  unfold genTake
  refine Keeps.step (genUpd_keeps ..) rfl ?_
  exact Keeps.refl _ _

theorem planOffsets_keeps (a : Nat) (s : State) : Keeps [.aie, .pwm] s (planOffsets a s) := by
  unfold planOffsets
  extract_lets -lift +onlyGivenNames plan0
  clear_value plan0
  extract_lets -lift +onlyGivenNames s1
  have h_s1 : Keeps [.aie, .pwm] s s1 := by
    refine Keeps.step (armUpd_keeps ..) rfl ?_
    exact Keeps.refl _ _
  clear_value s1
  split
  · refine Keeps.step (genTake_keeps ..) rfl ?_
    assumption
  · assumption

theorem noteWord_keeps (a : Nat) (late : Bool) (s : State) : Keeps [.pwm] s (noteWord a late s) := by
  unfold noteWord
  extract_lets -lift +onlyGivenNames w0
  clear_value w0
  refine Keeps.step (genUpd_keeps ..) rfl ?_
  exact Keeps.refl _ _

theorem armLeave_keeps (late : List Nat) (a : Nat) (s : State) : Keeps [.tick, .fault, .link, .aie, .pwm] s (armLeave late a s) := by
  unfold armLeave
  extract_lets -lift +onlyGivenNames bad0
  clear_value bad0
  extract_lets -lift +onlyGivenNames s1
  have h_s1 : Keeps [.tick, .fault, .link, .aie, .pwm] s s1 := by
    refine Keeps.step (noteWord_keeps ..) rfl ?_
    refine ite_keeps _ _ _ ?_ ?_
    · intro a2
      exact Keeps.refl _ _
    · intro a3
      refine Keeps.step (planOffsets_keeps ..) rfl ?_
      exact Keeps.refl _ _
  clear_value s1
  extract_lets -lift +onlyGivenNames s4
  have h_s4 : Keeps [.tick, .fault, .link, .aie, .pwm] s s4 := by
    refine ite_keeps _ _ _ ?_ ?_
    · intro a5
      refine Keeps.step (armOutput_keeps ..) rfl ?_
      assumption
    · intro a6
      refine foldl_keeps _ ?_ _ _ _ ?_
      · intro a7 a8
        refine Keeps.step (State.onLink_keeps ..) rfl ?_
        exact Keeps.refl _ _
      · assumption
  clear_value s4
  extract_lets -lift +onlyGivenNames s9
  have h_s9 : Keeps [.tick, .fault, .link, .aie, .pwm] s s9 := by
    refine Keeps.step (State.onTick_keeps _ _ (by exact id)) rfl ?_
    assumption
  clear_value s9
  refine ite_keeps _ _ _ ?_ ?_
  · intro a11
    refine Keeps.step (giveWay_keeps ..) rfl ?_
    refine Keeps.step (State.onTick_keeps _ _ (by exact id)) rfl ?_
    assumption
  · intro a13
    assumption

theorem idleWord_keeps (s : State) (c : Nat) : Keeps [.link] s (idleWord s c) := by
  unfold idleWord
  refine ite_keeps _ _ _ ?_ ?_
  · intro a0
    exact Keeps.refl _ _
  · intro a1
    extract_lets -lift +onlyGivenNames w2
    clear_value w2
    refine Keeps.step (cellUpd_keeps ..) rfl ?_
    refine Keeps.step (State.onLink_keeps ..) rfl ?_
    exact Keeps.refl _ _

theorem clampWord_keeps (s : State) (c : Nat) : Keeps [.tick, .link] s (clampWord s c) := by
  unfold clampWord
  extract_lets -lift +onlyGivenNames w0
  clear_value w0
  extract_lets -lift +onlyGivenNames lim1
  clear_value lim1
  extract_lets -lift +onlyGivenNames n2
  clear_value n2
  refine ite_keeps _ _ _ ?_ ?_
  · intro a3
    exact Keeps.refl _ _
  · intro a4
    refine Keeps.step (State.onTick_keeps _ _ (by exact id)) rfl ?_
    refine Keeps.step (State.onLink_keeps ..) rfl ?_
    exact Keeps.refl _ _

theorem wordsLeave_keeps (late : List Nat) (s : State) : Keeps [.tick, .fault, .link, .aie, .pwm] s (wordsLeave late s) := by
  unfold wordsLeave
  extract_lets -lift +onlyGivenNames s0
  have h_s0 : Keeps [.tick, .fault, .link, .aie, .pwm] s s0 := by
    refine foldl_keeps _ ?_ _ _ _ ?_
    · intro a1 a2
      refine Keeps.step (armLeave_keeps ..) rfl ?_
      exact Keeps.refl _ _
    · exact Keeps.refl _ _
  clear_value s0
  refine foldl_keeps _ ?_ _ _ _ ?_
  · intro a3 a4
    refine Keeps.step (clampWord_keeps ..) rfl ?_
    exact Keeps.refl _ _
  · refine foldl_keeps _ ?_ _ _ _ ?_
    · intro a5 a6
      refine Keeps.step (idleWord_keeps ..) rfl ?_
      exact Keeps.refl _ _
    · assumption

theorem frameOut_keeps (p : Nat) (f : TickFrame) (s : State) : Keeps [.link] s (frameOut p f s) := by
  unfold frameOut
  refine Keeps.step (portUpd_keeps ..) rfl ?_
  refine Keeps.step (sendLine_keeps ..) rfl ?_
  exact Keeps.refl _ _

theorem sendFrame_keeps (p : Nat) (s : State) : Keeps [.link] s (sendFrame p s) := by
  unfold sendFrame
  extract_lets -lift +onlyGivenNames x0
  clear_value x0
  extract_lets -lift +onlyGivenNames exec1
  clear_value exec1
  extract_lets -lift +onlyGivenNames g2
  clear_value g2
  extract_lets -lift +onlyGivenNames lost3
  clear_value lost3
  split
  extract_lets -lift +onlyGivenNames back4
  clear_value back4
  extract_lets -lift +onlyGivenNames f5
  clear_value f5
  refine foldl_keeps _ ?_ _ _ _ ?_
  · intro a6 a7
    refine Keeps.step (cellUpd_keeps ..) rfl ?_
    exact Keeps.refl _ _
  · refine Keeps.step (frameOut_keeps ..) rfl ?_
    refine Keeps.step (portUpd_keeps ..) rfl ?_
    exact Keeps.refl _ _

theorem framesLeave_keeps (s : State) : Keeps [.link] s (framesLeave s) := by
  unfold framesLeave
  refine ite_keeps _ _ _ ?_ ?_
  · intro a0
    exact Keeps.refl _ _
  · intro a1
    refine foldl_keeps _ ?_ _ _ _ ?_
    · intro a2 a3
      refine Keeps.step (sendFrame_keeps ..) rfl ?_
      exact Keeps.refl _ _
    · refine Keeps.step (State.onLink_keeps ..) rfl ?_
      exact Keeps.refl _ _

theorem dutiesLeave_keeps (s : State) : Keeps [.pwm] s (dutiesLeave s) := by
  unfold dutiesLeave
  extract_lets -lift +onlyGivenNames tag0
  clear_value tag0
  refine foldl_keeps _ ?_ _ _ _ ?_
  · intro a1 a2
    extract_lets -lift +onlyGivenNames k3
    clear_value k3
    refine ite_keeps _ _ _ ?_ ?_
    · intro a4
      refine Keeps.step (pairUpd_keeps ..) rfl ?_
      exact Keeps.refl _ _
    · intro a5
      refine ite_keeps _ _ _ ?_ ?_
      · intro a6
        extract_lets -lift +onlyGivenNames d7
        clear_value d7
        refine ite_keeps _ _ _ ?_ ?_
        · intro a8
          refine Keeps.step (pairUpd_keeps ..) rfl ?_
          exact Keeps.refl _ _
        · intro a9
          exact Keeps.refl _ _
      · intro a10
        exact Keeps.refl _ _
  · exact Keeps.refl _ _

theorem computeOut_keeps (late : List Nat) (s : State) : Keeps [.tick, .fault, .link, .aie, .pwm, .tiles, .galley] s (computeOut late s) := by
  unfold computeOut
  refine Keeps.step (dutiesLeave_keeps ..) rfl ?_
  refine Keeps.step (dutiesEnter_keeps ..) rfl ?_
  refine Keeps.step (dutiesEnter_keeps ..) rfl ?_
  refine Keeps.step (wordsLeave_keeps ..) rfl ?_
  exact Keeps.refl _ _

theorem outputCross_keeps (late : BitVec 12) (aieEnd : Nat) (s : State) : Keeps [.tick, .fault, .link, .aie, .pwm, .tiles, .net, .red, .galley] s (outputCross late aieEnd s) := by
  unfold outputCross
  extract_lets -lift +onlyGivenNames l0
  clear_value l0
  extract_lets -lift +onlyGivenNames lost1
  clear_value lost1
  extract_lets -lift +onlyGivenNames s2
  have h_s2 : Keeps [.tick, .fault, .link, .aie, .pwm, .tiles, .net, .red, .galley] s s2 := by
    refine foldl_keeps _ ?_ _ _ _ ?_
    · intro a3 a4
      refine Keeps.step (giveWay_keeps ..) rfl ?_
      exact Keeps.refl _ _
    · refine Keeps.step (computeOut_keeps ..) rfl ?_
      exact Keeps.refl _ _
  clear_value s2
  extract_lets -lift +onlyGivenNames s5
  have h_s5 : Keeps [.tick, .fault, .link, .aie, .pwm, .tiles, .net, .red, .galley] s s5 := by
    refine Keeps.step (dmaCross_keeps ..) rfl ?_
    refine Keeps.step (framesLeave_keeps ..) rfl ?_
    assumption
  clear_value s5
  extract_lets -lift +onlyGivenNames s6
  have h_s6 : Keeps [.tick, .fault, .link, .aie, .pwm, .tiles, .net, .red, .galley] s s6 := by
    refine Keeps.step (State.onTick_keeps _ _ (by exact id)) rfl ?_
    assumption
  clear_value s6
  refine Keeps.step (blockFinish_keeps ..) rfl ?_
  refine Keeps.step (compareTick_keeps ..) rfl ?_
  refine Keeps.step (sendTick_keeps ..) rfl ?_
  assumption

/-! ### ReplayOps -/

theorem replayUpd_keeps (f : Replay → Replay) (s : State) : Keeps [.galley] s (replayUpd f s) := by
  unfold replayUpd
  refine Keeps.step (State.onGalley_keeps ..) rfl ?_
  exact Keeps.refl _ _

theorem replayOutcome_keeps (n : Nat) (s : State) : Keeps [.galley] s (replayOutcome n s) := by
  unfold replayOutcome
  refine Keeps.step (replayUpd_keeps ..) rfl ?_
  exact Keeps.refl _ _

theorem overlay_keeps (b : TickBlock) (t : TickIn) (s : State) : Keeps [.dev, .tick, .link, .pwm, .meas, .net, .safe, .red, .galley] s (overlay b t s) := by
  unfold overlay
  extract_lets -lift +onlyGivenNames s0
  have h_s0 : Keeps [.dev, .tick, .link, .pwm, .meas, .net, .safe, .red, .galley] s s0 := by
    refine Keeps.step (State.onDev_keeps (h := rfl) ..) rfl ?_
    exact Keeps.refl _ _
  clear_value s0
  extract_lets -lift +onlyGivenNames s1
  have h_s1 : Keeps [.dev, .tick, .link, .pwm, .meas, .net, .safe, .red, .galley] s s1 := by
    refine Keeps.step (State.onSafe_keeps ..) rfl ?_
    assumption
  clear_value s1
  extract_lets -lift +onlyGivenNames s2
  have h_s2 : Keeps [.dev, .tick, .link, .pwm, .meas, .net, .safe, .red, .galley] s s2 := by
    refine Keeps.step (State.onTick_keeps _ _ (by exact id)) rfl ?_
    refine Keeps.step (State.onNet_keeps ..) rfl ?_
    refine Keeps.step (State.onMeas_keeps ..) rfl ?_
    assumption
  clear_value s2
  extract_lets -lift +onlyGivenNames s4
  have h_s4 : Keeps [.dev, .tick, .link, .pwm, .meas, .net, .safe, .red, .galley] s s4 := by
    refine Keeps.step (State.onLink_keeps ..) rfl ?_
    assumption
  clear_value s4
  refine Keeps.step (State.onGalley_keeps ..) rfl ?_
  refine Keeps.step (State.onRed_keeps ..) rfl ?_
  refine Keeps.step (State.onPwm_keeps ..) rfl ?_
  assumption

theorem commitRecorded_keeps (a : ActiveSets) (s : State) : Keeps [.fault, .link, .aie, .pwm, .loop, .tiles] s (commitRecorded a s) := by
  unfold commitRecorded
  extract_lets -lift +onlyGivenNames die0
  extract_lets -lift +onlyGivenNames s1
  have h_s1 : Keeps [.fault, .link, .aie, .pwm, .loop, .tiles] s s1 := by
    refine Keeps.step (State.onPwm_keeps ..) rfl ?_
    refine Keeps.step (State.onLoop_keeps ..) rfl ?_
    exact Keeps.refl _ _
  clear_value s1
  extract_lets -lift +onlyGivenNames s2
  have h_s2 : Keeps [.fault, .link, .aie, .pwm, .loop, .tiles] s s2 := by
    try dsimp -zeta only [die0]
    refine Keeps.step (dieUpd_keeps ..) rfl ?_
    try dsimp -zeta only [die0]
    refine Keeps.step (dieUpd_keeps ..) rfl ?_
    refine Keeps.step (State.onTiles_keeps ..) rfl ?_
    assumption
  clear_value s2
  refine Keeps.step (installSets_keeps ..) rfl ?_
  refine Keeps.step (commitDisp_keeps ..) rfl ?_
  refine Keeps.step (commitTiles_keeps ..) rfl ?_
  refine Keeps.step (commitPwm_keeps ..) rfl ?_
  refine Keeps.step (commitLoop_keeps ..) rfl ?_
  assumption

theorem replayShed_keeps (e : JEntry) (s : State) : Keeps [.fault, .tiles] s (replayShed e s) := by
  unfold replayShed
  refine ite_keeps _ _ _ ?_ ?_
  · intro a0
    exact Keeps.refl _ _
  · intro a1
    extract_lets -lift +onlyGivenNames up2
    refine when_keeps _ _ _ _ ?_ ?_
    · refine Keeps.step (dieUpd_keeps ..) rfl ?_
      exact Keeps.refl _ _
    · refine Keeps.step (shedItems_keeps ..) rfl ?_
      exact Keeps.refl _ _

theorem replayAbort_keeps (e : JEntry) (i : Item) (s : State) : Keeps [.fault, .tiles, .galley] s (replayAbort e i s) := by
  unfold replayAbort
  extract_lets -lift +onlyGivenNames f0
  clear_value f0
  split
  · refine Keeps.step (tileAbort_keeps ..) rfl ?_
    exact Keeps.refl _ _
  · refine Keeps.step (itemFail_keeps ..) rfl ?_
    refine Keeps.step (itemDel_keeps ..) rfl ?_
    exact Keeps.refl _ _

theorem replayEntry_keeps (s : State) (e : JEntry) : Keeps [.fault, .tiles, .galley] s (replayEntry s e) := by
  unfold replayEntry
  split
  · refine Keeps.step (itemTimeout_keeps ..) rfl ?_
    exact Keeps.refl _ _
  · refine Keeps.step (replayAbort_keeps ..) rfl ?_
    exact Keeps.refl _ _
  · refine Keeps.step (itemCancel_keeps ..) rfl ?_
    exact Keeps.refl _ _
  · exact Keeps.refl _ _

theorem replayKeep_keeps (base : State) (r : State)  : Keeps [.freeCtr, .link, .aie, .pwm, .loop, .tiles, .galley] base (replayKeep base r) := by
  unfold replayKeep
  extract_lets -lift +onlyGivenNames s0
  have h_s0 : Keeps [.freeCtr, .link, .aie, .pwm, .loop, .tiles, .galley] base s0 := by
    refine Keeps.step (State.onLink_keeps ..) rfl ?_
    refine Keeps.step (installImage_keeps ..) rfl ?_
    exact Keeps.refl _ _
  clear_value s0
  refine Keeps.step (State.onGalley_keeps ..) rfl ?_
  refine Keeps.step (State.onFree_keeps ..) rfl ?_
  assumption

theorem replayIn_keeps (r : Replay) (s : State) : Keeps [.freeCtr, .dev, .mb, .tick, .fault, .link, .aie, .pwm, .loop, .tiles, .meas, .net, .safe, .red, .galley] s (replayIn r s) := by
  unfold replayIn
  split
  · refine Keeps.step (replayOutcome_keeps ..) rfl ?_
    exact Keeps.refl _ _
  · extract_lets -lift +onlyGivenNames s0
    have h_s0 : Keeps [.freeCtr, .dev, .mb, .tick, .fault, .link, .aie, .pwm, .loop, .tiles, .meas, .net, .safe, .red, .galley] s s0 := by
      dsimp -zeta only [s0]
      unfold Option.elim
      split
      · try dsimp -zeta only
        refine Keeps.step (commitRecorded_keeps ..) rfl ?_
        refine Keeps.step (overlay_keeps ..) rfl ?_
        exact Keeps.refl _ _
      · refine Keeps.step (overlay_keeps ..) rfl ?_
        exact Keeps.refl _ _
    clear_value s0
    extract_lets -lift +onlyGivenNames s1
    have h_s1 : Keeps [.freeCtr, .dev, .mb, .tick, .fault, .link, .aie, .pwm, .loop, .tiles, .meas, .net, .safe, .red, .galley] s s1 := by
      refine Keeps.step (computeIn_keeps ..) rfl ?_
      refine Keeps.step (installRecord_keeps ..) rfl ?_
      refine foldl_keeps _ ?_ _ _ _ ?_
      · intro a2 a3
        refine Keeps.step (replayShed_keeps ..) rfl ?_
        exact Keeps.refl _ _
      · assumption
    clear_value s1
    extract_lets -lift +onlyGivenNames late4
    clear_value late4
    extract_lets -lift +onlyGivenNames s5
    have h_s5 : Keeps [.freeCtr, .dev, .mb, .tick, .fault, .link, .aie, .pwm, .loop, .tiles, .meas, .net, .safe, .red, .galley] s s5 := by
      refine foldl_keeps _ ?_ _ _ _ ?_
      · intro a6 a7
        refine Keeps.step (replayEntry_keeps ..) rfl ?_
        exact Keeps.refl _ _
      · refine foldl_keeps _ ?_ _ _ _ ?_
        · intro a8 a9
          refine Keeps.step (cancelAct_keeps ..) rfl ?_
          exact Keeps.refl _ _
        · assumption
    clear_value s5
    extract_lets -lift +onlyGivenNames s10
    have h_s10 : Keeps [.freeCtr, .dev, .mb, .tick, .fault, .link, .aie, .pwm, .loop, .tiles, .meas, .net, .safe, .red, .galley] s s10 := by
      refine Keeps.step (replayKeep_keeps ..) rfl ?_
      exact Keeps.refl _ _
    clear_value s10
    refine when_keeps _ _ _ _ ?_ ?_
    · assumption
    · refine Keeps.step (replayOutcome_keeps ..) rfl ?_
      exact Keeps.refl _ _

theorem replayWrite_keeps (b : TickBlock) (o : State) (s : State) : Keeps [.fault, .galley] s (replayWrite b o s) := by
  unfold replayWrite
  refine ite_keeps _ _ _ ?_ ?_
  · intro a0
    exact Keeps.refl _ _
  · intro a1
    extract_lets -lift +onlyGivenNames k2
    clear_value k2
    refine Keeps.step (bufPut_keeps ..) rfl ?_
    exact Keeps.refl _ _

theorem replayOut_keeps (late : BitVec 12) (r : Replay) (s : State) : Keeps [.freeCtr, .dev, .tick, .fault, .link, .aie, .pwm, .loop, .tiles, .meas, .net, .safe, .red, .galley] s (replayOut late r s) := by
  unfold replayOut
  split
  · refine Keeps.step (replayOutcome_keeps ..) rfl ?_
    exact Keeps.refl _ _
  · extract_lets -lift +onlyGivenNames ov0
    have h_ov0 : Keeps [.freeCtr, .dev, .tick, .fault, .link, .aie, .pwm, .loop, .tiles, .meas, .net, .safe, .red, .galley] s ov0 := by
      refine Keeps.step (overlay_keeps ..) rfl ?_
      exact Keeps.refl _ _
    clear_value ov0
    extract_lets -lift +onlyGivenNames o1
    have h_o1 : Keeps [.freeCtr, .dev, .tick, .fault, .link, .aie, .pwm, .loop, .tiles, .meas, .net, .safe, .red, .galley] s o1 := by
      refine Keeps.step (computeOut_keeps ..) rfl ?_
      assumption
    clear_value o1
    extract_lets -lift +onlyGivenNames mine2
    clear_value mine2
    extract_lets -lift +onlyGivenNames bad3
    clear_value bad3
    extract_lets -lift +onlyGivenNames s4
    have h_s4 : Keeps [.freeCtr, .dev, .tick, .fault, .link, .aie, .pwm, .loop, .tiles, .meas, .net, .safe, .red, .galley] s s4 := by
      refine Keeps.step (replayWrite_keeps ..) rfl ?_
      refine Keeps.step (replayKeep_keeps ..) rfl ?_
      exact Keeps.refl _ _
    clear_value s4
    extract_lets -lift +onlyGivenNames s5
    have h_s5 : Keeps [.freeCtr, .dev, .tick, .fault, .link, .aie, .pwm, .loop, .tiles, .meas, .net, .safe, .red, .galley] s s5 := by
      refine foldl_keeps _ ?_ _ _ _ ?_
      · intro a6 a7
        refine Keeps.step (recEvent_keeps ..) rfl ?_
        exact Keeps.refl _ _
      · assumption
    clear_value s5
    extract_lets -lift +onlyGivenNames s8
    have h_s8 : Keeps [.freeCtr, .dev, .tick, .fault, .link, .aie, .pwm, .loop, .tiles, .meas, .net, .safe, .red, .galley] s s8 := by
      refine Keeps.step (replayUpd_keeps ..) rfl ?_
      assumption
    clear_value s8
    refine ite_keeps _ _ _ ?_ ?_
    · intro a9
      refine Keeps.step (replayOutcome_keeps ..) rfl ?_
      assumption
    · intro a10
      refine ite_keeps _ _ _ ?_ ?_
      · intro a11
        refine Keeps.step (replayOutcome_keeps ..) rfl ?_
        assumption
      · intro a12
        refine ite_keeps _ _ _ ?_ ?_
        · intro a13
          refine Keeps.step (replayOutcome_keeps ..) rfl ?_
          assumption
        · intro a14
          assumption

/-! ### Cross -/

theorem tickOpens_keeps (s : State) : Keeps [.tick, .red] s (tickOpens s) := by
  unfold tickOpens
  extract_lets -lift +onlyGivenNames n0
  clear_value n0
  refine Keeps.step (State.onRed_keeps ..) rfl ?_
  refine Keeps.step (State.onTick_keeps _ _ (by exact id)) rfl ?_
  exact Keeps.refl _ _

theorem zeroEdges_keeps (s : State) : Keeps [.pwm] s (zeroEdges s) := by
  unfold zeroEdges
  refine foldl_keeps _ ?_ _ _ _ ?_
  · intro a0 a1
    refine ite_keeps _ _ _ ?_ ?_
    · intro a2
      refine Keeps.step (genOccur_keeps ..) rfl ?_
      exact Keeps.refl _ _
    · intro a3
      exact Keeps.refl _ _
  · exact Keeps.refl _ _

/-! ### Tile -/

theorem tileEcc_keeps (die : Nat) (tile : Nat) (mem : Nat) (addr : Nat) (double : Bool) (s : State) : Keeps [.freeCtr, .dev, .mb, .fault, .link, .aie, .tiles, .meas, .prot, .galley, .spare] s (tileEcc die tile mem addr double s) := by
  unfold tileEcc
  refine ite_keeps _ _ _ ?_ ?_
  · intro a0
    extract_lets -lift +onlyGivenNames s1
    have h_s1 : Keeps [.freeCtr, .dev, .mb, .fault, .link, .aie, .tiles, .meas, .prot, .galley, .spare] s s1 := by
      refine Keeps.step (errorSeen_keeps ..) rfl ?_
      refine Keeps.step (tileAbort_keeps ..) rfl ?_
      exact Keeps.refl _ _
    clear_value s1
    refine Keeps.step (raise_keeps ..) rfl ?_
    refine Keeps.step (dieUpd_keeps ..) rfl ?_
    refine Keeps.step (tileUpd_keeps ..) rfl ?_
    assumption
  · intro a2
    refine Keeps.step (raise_keeps ..) rfl ?_
    refine Keeps.step (dieUpd_keeps ..) rfl ?_
    refine Keeps.step (tileUpd_keeps ..) rfl ?_
    refine Keeps.step (errorSeen_keeps ..) rfl ?_
    exact Keeps.refl _ _

/-! ### Fault -/

theorem markInjected_keeps (n : Nat) (s : State) : Keeps [.fault] s (markInjected n s) := by
  unfold markInjected
  refine Keeps.step (State.onFault_keeps ..) rfl ?_
  exact Keeps.refl _ _

theorem injectOwn_keeps {L : List Part} (m : FaultMsg) (react : State → State) (h : ([.fault, .galley].all fun p => L.contains p) = true)
    (ih_f : ∀ u, Keeps L u (react u)) (s : State) : Keeps L s (injectOwn m react s).st := by
  have h1 : ∀ n u, Keeps L u (markInjected n u) := fun n u => (Keeps.mono (markInjected_keeps ..) rfl : Keeps [.fault, .galley] _ _).mono h
  unfold injectOwn
  dsimp only
  split
  · refine Keeps.step (K := [.fault, .galley]) (Keeps.mono (arrive_keeps ..) rfl) h ?_
    refine Keeps.step (K := [.fault, .galley]) (Keeps.mono (State.onFault_keeps ..) rfl) h ?_
    exact Keeps.step (h1 _ _) (by simp) (ih_f s)
  · refine Keeps.step (h1 _ _) (by simp) ?_
    refine Keeps.step (K := [.fault, .galley]) (Keeps.mono (arrive_keeps ..) rfl) h ?_
    exact Keeps.step (h1 _ _) (by simp) (ih_f s)

theorem collectorReact_keeps (m : FaultMsg) (s : State) : Keeps [.dev, .fault, .link, .red] s (collectorReact m s) := by
  unfold collectorReact
  refine ite_keeps _ _ _ ?_ ?_
  · intro a0
    refine Keeps.step (safeAll_keeps ..) rfl ?_
    refine Keeps.step (fatalLatch_keeps ..) rfl ?_
    exact Keeps.refl _ _
  · intro a1
    exact Keeps.refl _ _

theorem injectPlain_keeps (m : FaultMsg) (s : State) : Keeps [.dev, .fault, .link, .red] s (injectPlain m s).st := by
  unfold injectPlain
  extract_lets -lift +onlyGivenNames seq1
  clear_value seq1
  try dsimp -zeta only [okReply]
  refine Keeps.step (collectorReact_keeps ..) rfl ?_
  refine Keeps.step (collect_keeps ..) rfl ?_
  exact Keeps.refl _ _

theorem itemLost_keeps (d : Nat) (i : Item) (s : State) : Keeps [.fault, .tiles, .galley] s (itemLost d i s) := by
  unfold itemLost
  extract_lets -lift +onlyGivenNames on0
  clear_value on0
  extract_lets -lift +onlyGivenNames s1
  have h_s1 : Keeps [.fault, .tiles, .galley] s s1 := by
    refine foldl_keeps _ ?_ _ _ _ ?_
    · intro a2 a3
      refine Keeps.step (tileUpd_keeps ..) rfl ?_
      exact Keeps.refl _ _
    · exact Keeps.refl _ _
  clear_value s1
  extract_lets -lift +onlyGivenNames s4
  have h_s4 : Keeps [.fault, .tiles, .galley] s s4 := by
    refine Keeps.step (dispEvent_keeps ..) rfl ?_
    refine Keeps.step (flowUpd_keeps ..) rfl ?_
    refine Keeps.step (itemDel_keeps ..) rfl ?_
    assumption
  clear_value s4
  refine Keeps.step (itemFail_keeps ..) rfl ?_
  refine Keeps.step (journal_keeps ..) rfl ?_
  assumption

theorem headerLost_keeps (c : Nat) (seg : Nat) (s : State) : Keeps [.fault, .acq] s (headerLost c seg s) := by
  unfold headerLost
  refine Keeps.step (acqEvent_keeps ..) rfl ?_
  refine Keeps.step (segRelease_keeps ..) rfl ?_
  exact Keeps.refl _ _

theorem eccReact_keeps (die : Nat) (block : Nat) (p : Nat) (double : Bool) (s : State) : Keeps [.freeCtr, .dev, .mb, .fault, .link, .aie, .tiles, .meas, .acq, .prot, .galley, .spare] s (eccReact die block p double s) := by
  unfold eccReact
  split
  · refine Keeps.step (tileEcc_keeps ..) rfl ?_
    exact Keeps.refl _ _
  · refine Keeps.step (contextEcc_keeps ..) rfl ?_
    exact Keeps.refl _ _
  · split
    · refine ite_keeps _ _ _ ?_ ?_
      · intro a0
        refine Keeps.step (itemLost_keeps ..) rfl ?_
        exact Keeps.refl _ _
      · intro a1
        exact Keeps.refl _ _
    · exact Keeps.refl _ _
  · split
    · refine ite_keeps _ _ _ ?_ ?_
      · intro a2
        refine Keeps.step (headerLost_keeps ..) rfl ?_
        exact Keeps.refl _ _
      · intro a3
        exact Keeps.refl _ _
    · exact Keeps.refl _ _
  · exact Keeps.refl _ _

/-! ### Loop -/

theorem stageLoop_keeps (l : Nat) (c : Cmd) (k : LoopCfg) (s : State) : Keeps [.tick, .loop] s (stageLoop l c k s) := by
  unfold stageLoop
  refine Keeps.step (stage_keeps ..) rfl ?_
  refine Keeps.step (State.onLoop_keeps ..) rfl ?_
  exact Keeps.refl _ _

/-! ### Mailbox -/

theorem ringError_keeps (mb : Nat) (s : State) : Keeps [.mb] s (ringError mb s) := by
  unfold ringError
  refine Keeps.step (mbUpd_keeps ..) rfl ?_
  exact Keeps.refl _ _

theorem mbCtrlWrite_keeps (mb : Nat) (value : Word32) (s : State) : Keeps [.mb] s (mbCtrlWrite mb value s) := by
  unfold mbCtrlWrite
  extract_lets -lift +onlyGivenNames b0
  clear_value b0
  refine ite_keeps _ _ _ ?_ ?_
  · intro a1
    exact Keeps.refl _ _
  · intro a2
    refine ite_keeps _ _ _ ?_ ?_
    · intro a3
      refine ite_keeps _ _ _ ?_ ?_
      · intro a4
        refine Keeps.step (mbUpd_keeps ..) rfl ?_
        exact Keeps.refl _ _
      · intro a5
        refine Keeps.step (ringError_keeps ..) rfl ?_
        refine Keeps.step (mbUpd_keeps ..) rfl ?_
        exact Keeps.refl _ _
    · intro a6
      refine Keeps.step (settle_keeps ..) rfl ?_
      refine Keeps.step (mbUpd_keeps ..) rfl ?_
      exact Keeps.refl _ _

theorem doorbellWrite_keeps (mb : Nat) (value : Word32) (s : State) : Keeps [.mb] s (doorbellWrite mb value s) := by
  unfold doorbellWrite
  extract_lets -lift +onlyGivenNames b0
  clear_value b0
  extract_lets -lift +onlyGivenNames t1
  clear_value t1
  refine ite_keeps _ _ _ ?_ ?_
  · intro a2
    exact Keeps.refl _ _
  · intro a3
    refine ite_keeps _ _ _ ?_ ?_
    · intro a4
      refine Keeps.step (mbUpd_keeps ..) rfl ?_
      exact Keeps.refl _ _
    · intro a5
      refine Keeps.step (ringError_keeps ..) rfl ?_
      exact Keeps.refl _ _

theorem rspHeadWrite_keeps (mb : Nat) (value : Word32) (s : State) : Keeps [.mb] s (rspHeadWrite mb value s) := by
  unfold rspHeadWrite
  extract_lets -lift +onlyGivenNames b0
  clear_value b0
  extract_lets -lift +onlyGivenNames h1
  clear_value h1
  refine ite_keeps _ _ _ ?_ ?_
  · intro a2
    exact Keeps.refl _ _
  · intro a3
    refine ite_keeps _ _ _ ?_ ?_
    · intro a4
      refine Keeps.step (mbUpd_keeps ..) rfl ?_
      exact Keeps.refl _ _
    · intro a5
      refine Keeps.step (ringError_keeps ..) rfl ?_
      exact Keeps.refl _ _

theorem answerEntry_keeps (n : Nat) (entry : Bytes) (st : Status) (s : State) : Keeps [.host, .mb] s (answerEntry n entry st s) := by
  unfold answerEntry
  extract_lets -lift +onlyGivenNames op0
  clear_value op0
  extract_lets -lift +onlyGivenNames s1
  have h_s1 : Keeps [.host, .mb] s s1 := by
    refine Keeps.step (respond_keeps ..) rfl ?_
    exact Keeps.refl _ _
  clear_value s1
  refine Keeps.step (settle_keeps ..) rfl ?_
  refine Keeps.step (logAdd_keeps ..) rfl ?_
  assumption

/-! ### MonOps -/

theorem monUpd_keeps (m : Nat) (f : Monitor → Monitor) (s : State) : Keeps [.spare] s (monUpd m f s) := by
  unfold monUpd
  refine Keeps.step (State.onSpare_keeps ..) rfl ?_
  exact Keeps.refl _ _

/-! ### Power -/

theorem clockEvent_keeps (kind : Nat) (cls : FClass) (s : State) : Keeps [.fault] s (clockEvent kind cls s) := by
  unfold clockEvent
  refine Keeps.step (raise_keeps ..) rfl ?_
  exact Keeps.refl _ _

theorem bootRow_keeps (n : Nat) (s : State) : Keeps [.power] s (bootRow n s) := by
  unfold bootRow
  refine Keeps.step (State.onPower_keeps ..) rfl ?_
  exact Keeps.refl _ _

theorem declareFailed_keeps (l : List Nat) (s : State) : Keeps [.power, .fault] s (declareFailed l s) := by
  unfold declareFailed
  refine foldl_keeps _ ?_ _ _ _ ?_
  · intro a0 a1
    refine Keeps.step (raise_keeps ..) rfl ?_
    refine Keeps.step (State.onPower_keeps ..) rfl ?_
    exact Keeps.refl _ _
  · exact Keeps.refl _ _

theorem rebuildInventory_keeps (s : State) : Keeps [.fault, .link, .loop, .tiles, .meas, .spare] s (rebuildInventory s) := by
  unfold rebuildInventory
  extract_lets -lift +onlyGivenNames s0
  have h_s0 : Keeps [.fault, .link, .loop, .tiles, .meas, .spare] s s0 := by
    refine Keeps.step (State.onLink_keeps ..) rfl ?_
    refine Keeps.step (State.onSpare_keeps ..) rfl ?_
    exact Keeps.refl _ _
  clear_value s0
  extract_lets -lift +onlyGivenNames s1
  have h_s1 : Keeps [.fault, .link, .loop, .tiles, .meas, .spare] s s1 := by
    refine Keeps.step (State.onLoop_keeps ..) rfl ?_
    refine Keeps.step (State.onTiles_keeps ..) rfl ?_
    assumption
  clear_value s1
  refine Keeps.step (spareEvent_keeps ..) rfl ?_
  refine Keeps.step (State.onMeas_keeps ..) rfl ?_
  assumption

theorem bootUnits_keeps (s : State) : Keeps [.power, .meas] s (bootUnits s) := by
  unfold bootUnits
  refine ite_keeps _ _ _ ?_ ?_
  · intro a0
    exact Keeps.refl _ _
  · intro a1
    extract_lets -lift +onlyGivenNames s2
    have h_s2 : Keeps [.power, .meas] s s2 := by
      refine Keeps.step (State.onPower_keeps ..) rfl ?_
      exact Keeps.refl _ _
    clear_value s2
    refine Keeps.step (State.onMeas_keeps ..) rfl ?_
    assumption

theorem bootReports_keeps (s : State) : Keeps [.dev, .power, .fault] s (bootReports s) := by
  unfold bootReports
  extract_lets -lift +onlyGivenNames att0
  clear_value att0
  extract_lets -lift +onlyGivenNames s1
  have h_s1 : Keeps [.dev, .power, .fault] s s1 := by
    refine Keeps.step (State.onDev_keeps (h := rfl) ..) rfl ?_
    exact Keeps.refl _ _
  clear_value s1
  extract_lets -lift +onlyGivenNames first2
  clear_value first2
  extract_lets -lift +onlyGivenNames seen3
  refine when_keeps _ _ _ _ ?_ ?_
  · refine when_keeps _ _ _ _ ?_ ?_
    · assumption
    · refine Keeps.step (arriveFirst_keeps ..) rfl ?_
      exact Keeps.refl _ _
  · try dsimp -zeta only [seen3]
    refine Keeps.step (clockEvent_keeps ..) rfl ?_
    refine Keeps.step (State.onPower_keeps ..) rfl ?_
    exact Keeps.refl _ _

theorem refGone_keeps (n : Nat) (s : State) : Keeps [.power] s (refGone n s) := by
  unfold refGone
  refine Keeps.step (State.onPower_keeps ..) rfl ?_
  exact Keeps.refl _ _

/-! ### Prot -/

theorem protStage_keeps (p : Bytes) (f : ProtSet → ProtSet) (s : State) : Keeps [.tick, .prot] s (protStage p f s) := by
  unfold protStage
  refine Keeps.step (stage_keeps ..) rfl ?_
  refine Keeps.step (State.onProt_keeps ..) rfl ?_
  exact Keeps.refl _ _

theorem twDrop_keeps (n : Nat) (s0 : State) (s : State) : Keeps [.fault, .prot] s (twDrop n s0 s) := by
  unfold twDrop
  extract_lets -lift +onlyGivenNames e0
  clear_value e0
  extract_lets -lift +onlyGivenNames r1
  clear_value r1
  refine ite_keeps _ _ _ ?_ ?_
  · intro a2
    extract_lets -lift +onlyGivenNames runs3
    clear_value runs3
    refine ite_keeps _ _ _ ?_ ?_
    · intro a4
      exact Keeps.refl _ _
    · intro a5
      refine Keeps.step (elTake_keeps ..) rfl ?_
      exact Keeps.refl _ _
  · intro a6
    split
    · refine Keeps.step (elTake_keeps ..) rfl ?_
      exact Keeps.refl _ _
    · refine ite_keeps _ _ _ ?_ ?_
      · intro a7
        refine Keeps.step (elTake_keeps ..) rfl ?_
        exact Keeps.refl _ _
      · intro a8
        exact Keeps.refl _ _

theorem twConfirm_keeps (s0 : State) (n : Nat) (time : Nat) (s : State) : Keeps [.fault, .prot] s (twConfirm s0 n time s) := by
  unfold twConfirm
  extract_lets -lift +onlyGivenNames e0
  clear_value e0
  extract_lets -lift +onlyGivenNames r1
  clear_value r1
  refine ite_keeps _ _ _ ?_ ?_
  · intro a2
    exact Keeps.refl _ _
  · intro a3
    split
    · refine Keeps.step (elTake_keeps ..) rfl ?_
      exact Keeps.refl _ _
    · refine ite_keeps _ _ _ ?_ ?_
      · intro a4
        refine Keeps.step (elTake_keeps ..) rfl ?_
        exact Keeps.refl _ _
      · intro a5
        refine ite_keeps _ _ _ ?_ ?_
        · intro a6
          refine Keeps.step (elTake_keeps ..) rfl ?_
          exact Keeps.refl _ _
        · intro a7
          refine Keeps.step (elTake_keeps ..) rfl ?_
          exact Keeps.refl _ _

theorem twElements_keeps (ch : Nat) (s : State) : Keeps [.fault, .prot] s (twElements ch s) := by
  unfold twElements
  extract_lets -lift +onlyGivenNames step0
  refine Keeps.step (recLook_keeps ..) rfl ?_
  refine Keeps.step (tripsStep_keeps ..) rfl ?_
  refine foldl_keeps _ ?_ _ _ _ ?_
  · intro a1 a2
    try dsimp -zeta only [step0]
    extract_lets -lift +onlyGivenNames e3
    clear_value e3
    extract_lets -lift +onlyGivenNames r4
    clear_value r4
    refine ite_keeps _ _ _ ?_ ?_
    · intro a5
      exact Keeps.refl _ _
    · intro a6
      split
      · refine Keeps.step (elTake_keeps ..) rfl ?_
        exact Keeps.refl _ _
      · refine Keeps.step (elTake_keeps ..) rfl ?_
        exact Keeps.refl _ _
  · exact Keeps.refl _ _

/-! ### Sys -/

theorem requestRun_keeps (g : Gate) (c : Cmd) (target : Nat) (ahead : Int) (s : State) : Keeps [.dev, .mb, .tick, .fault, .link, .aie, .pwm, .loop, .tiles, .safe, .red, .galley] s (requestRun g c target ahead s).st := by
  unfold requestRun
  extract_lets -lift +onlyGivenNames now1
  clear_value now1
  extract_lets -lift +onlyGivenNames pend3
  split
  · try dsimp -zeta only
    refine Keeps.step (addTrigger_keeps ..) rfl ?_
    try dsimp -zeta only [pend3]
    refine Keeps.step (goPending_keeps ..) rfl ?_
    exact Keeps.refl _ _
  · split
    · try dsimp -zeta only
      refine ite_keeps _ _ _ ?_ ?_
      · intro a4
        refine Keeps.step (addTrigger_keeps ..) rfl ?_
        try dsimp -zeta only [pend3]
        refine Keeps.step (goPending_keeps ..) rfl ?_
        exact Keeps.refl _ _
      · intro a5
        refine Keeps.step (addTrigger_keeps ..) rfl ?_
        try dsimp -zeta only [pend3]
        refine Keeps.step (goPending_keeps ..) rfl ?_
        exact Keeps.refl _ _
    · try dsimp -zeta only [okReply]
      refine Keeps.step (transition_keeps ..) rfl ?_
      exact Keeps.refl _ _

theorem blockLatches_keeps (s : State) : Keeps [.pwm] s (blockLatches s) := by
  unfold blockLatches
  refine Keeps.step (State.onPwm_keeps ..) rfl ?_
  exact Keeps.refl _ _

theorem fatalClear_keeps (s : State) : Keeps [.dev, .fault] s (fatalClear s) := by
  unfold fatalClear
  refine Keeps.step (State.onFault_keeps ..) rfl ?_
  refine Keeps.step (State.onDev_keeps (h := rfl) ..) rfl ?_
  exact Keeps.refl _ _

/-! ### Rec -/

theorem freezeReply_keeps (n : Nat) (t : Nat) (s : State) : Keeps [] s (freezeReply n t s).st := by
  unfold freezeReply
  try dsimp -zeta only [okReply]
  exact Keeps.refl _ _

theorem armReplay_keeps (g : Gate) (c : Cmd) (n : Nat) (start : Nat) (stop : Nat) (onDiv : Bool) (s : State) : Keeps [.mb, .galley] s (armReplay g c n start stop onDiv s).st := by
  unfold armReplay
  extract_lets -lift +onlyGivenNames f1
  clear_value f1
  extract_lets -lift +onlyGivenNames image3
  clear_value image3
  extract_lets -lift +onlyGivenNames m5
  clear_value m5
  split
  · try dsimp -zeta only
    exact Keeps.refl _ _
  · extract_lets -lift +onlyGivenNames r7
    clear_value r7
    extract_lets -lift +onlyGivenNames s9
    have h_s9 : Keeps [.mb, .galley] s s9 := by
      refine Keeps.step (State.onGalley_keeps ..) rfl ?_
      exact Keeps.refl _ _
    clear_value s9
    try dsimp -zeta only
    refine Keeps.step (goPending_keeps ..) rfl ?_
    assumption

/-! ### Red -/

theorem startForm_keeps (op : Nat) (s : State) : Keeps [.red] s (startForm op s) := by
  unfold startForm
  refine Keeps.step (State.onRed_keeps ..) rfl ?_
  exact Keeps.refl _ _

theorem formConflict_keeps (op : Nat) (mask : Nat) (s : State) : Keeps [.mb, .red] s (formConflict op mask s) := by
  unfold formConflict
  refine Keeps.step (endForm_keeps ..) rfl ?_
  exact Keeps.refl _ _

theorem standbyTime_keeps (s : State) : Keeps [.time, .net] s (standbyTime s) := by
  unfold standbyTime
  refine ite_keeps _ _ _ ?_ ?_
  · intro a0
    exact Keeps.refl _ _
  · intro a1
    refine Keeps.step (State.onNet_keeps ..) rfl ?_
    refine Keeps.step (State.onTime_keeps ..) rfl ?_
    exact Keeps.refl _ _

theorem alignTick_keeps (a : XlAlign) (s : State) : Keeps [.tick, .link, .time] s (alignTick a s) := by
  unfold alignTick
  extract_lets -lift +onlyGivenNames s0
  have h_s0 : Keeps [.tick, .link, .time] s s0 := by
    refine Keeps.step (baseUpd_keeps ..) rfl ?_
    refine Keeps.step (baseUpd_keeps ..) rfl ?_
    refine Keeps.step (State.onTick_keeps _ _ (by exact id)) rfl ?_
    exact Keeps.refl _ _
  clear_value s0
  refine when_keeps _ _ _ _ ?_ ?_
  · refine Keeps.step (State.onLink_keeps ..) rfl ?_
    assumption
  · refine Keeps.step (baseUpd_keeps ..) rfl ?_
    exact Keeps.refl _ _

theorem compareFresh_keeps (s : State) : Keeps [.red] s (compareFresh s) := by
  unfold compareFresh
  refine Keeps.step (State.onRed_keeps ..) rfl ?_
  exact Keeps.refl _ _

theorem formed_keeps (digest : Nat) (s : State) : Keeps [.dev, .mb, .fault, .pwm, .time, .net, .red] s (formed digest s) := by
  unfold formed
  extract_lets -lift +onlyGivenNames s0
  have h_s0 : Keeps [.dev, .mb, .fault, .pwm, .time, .net, .red] s s0 := by
    refine Keeps.step (State.onRed_keeps ..) rfl ?_
    refine Keeps.step (compareFresh_keeps ..) rfl ?_
    exact Keeps.refl _ _
  clear_value s0
  extract_lets -lift +onlyGivenNames s1
  have h_s1 : Keeps [.dev, .mb, .fault, .pwm, .time, .net, .red] s s1 := by
    refine Keeps.step (State.onDev_keeps (h := rfl) ..) rfl ?_
    assumption
  clear_value s1
  extract_lets -lift +onlyGivenNames s2
  have h_s2 : Keeps [.dev, .mb, .fault, .pwm, .time, .net, .red] s s2 := by
    refine Keeps.step (standbyTime_keeps ..) rfl ?_
    refine ite_keeps _ _ _ ?_ ?_
    · intro a3
      refine Keeps.step (setRole_keeps ..) rfl ?_
      assumption
    · intro a4
      assumption
  clear_value s2
  extract_lets -lift +onlyGivenNames s5
  have h_s5 : Keeps [.dev, .mb, .fault, .pwm, .time, .net, .red] s s5 := by
    refine Keeps.step (endForm_keeps ..) rfl ?_
    assumption
  clear_value s5
  refine Keeps.step (redEvent_keeps ..) rfl ?_
  assumption

theorem unfencePorts_keeps (s : State) : Keeps [.fault, .link] s (unfencePorts s) := by
  unfold unfencePorts
  refine foldl_keeps _ ?_ _ _ _ ?_
  · intro a0 a1
    refine Keeps.step (portStart_keeps ..) rfl ?_
    refine Keeps.step (portUpd_keeps ..) rfl ?_
    exact Keeps.refl _ _
  · exact Keeps.refl _ _

theorem addMirror_keeps (dest : DevState) (cause : Nat) (boundary : Nat) (s : State) : Keeps [.dev] s (addMirror dest cause boundary s) := by
  unfold addMirror
  refine Keeps.step (State.onDev_keeps (h := rfl) ..) rfl ?_
  exact Keeps.refl _ _

theorem takeState_keeps (s : State) : Keeps [.dev] s (takeState s) := by
  unfold takeState
  split
  · exact Keeps.refl _ _
  · refine ite_keeps _ _ _ ?_ ?_
    · intro a0
      exact Keeps.refl _ _
    · intro a1
      refine ite_keeps _ _ _ ?_ ?_
      · intro a2
        refine Keeps.step (addMirror_keeps ..) rfl ?_
        refine Keeps.step (addMirror_keeps ..) rfl ?_
        exact Keeps.refl _ _
      · intro a3
        refine Keeps.step (addMirror_keeps ..) rfl ?_
        exact Keeps.refl _ _

theorem installTick_keeps (s : State) : Keeps [.red] s (installTick s) := by
  unfold installTick
  split
  · refine ite_keeps _ _ _ ?_ ?_
    · intro a0
      refine Keeps.step (State.onRed_keeps ..) rfl ?_
      exact Keeps.refl _ _
    · intro a1
      exact Keeps.refl _ _
  · exact Keeps.refl _ _

theorem steerBase_keeps (n : Nat) (s : State) : Keeps [.freeCtr, .time] s (steerBase n s) := by
  unfold steerBase
  extract_lets -lift +onlyGivenNames d0
  refine Keeps.step (baseUpd_keeps ..) rfl ?_
  try dsimp -zeta only [d0]
  refine Keeps.step (State.draw_keeps ..) rfl ?_
  exact Keeps.refl _ _

theorem endDispute_keeps (s : State) : Keeps [.red] s (endDispute s) := by
  unfold endDispute
  refine Keeps.step (State.onRed_keeps ..) rfl ?_
  refine Keeps.step (compareFresh_keeps ..) rfl ?_
  exact Keeps.refl _ _

theorem checkEvent_keeps (own : Nat) (partner : Nat) (s : State) : Keeps [.fault] s (checkEvent own partner s) := by
  unfold checkEvent
  refine Keeps.step (redEvent_keeps ..) rfl ?_
  exact Keeps.refl _ _

/-! ### Regs -/

theorem mbRegWrite_keeps (n : Nat) (off : Nat) (v : Word32) (s : State) : Keeps [.mb] s (mbRegWrite n off v s) := by
  unfold mbRegWrite
  extract_lets -lift +onlyGivenNames free0
  clear_value free0
  split
  · refine when_keeps _ _ _ _ ?_ ?_
    · exact Keeps.refl _ _
    · refine Keeps.step (mbUpd_keeps ..) rfl ?_
      exact Keeps.refl _ _
  · refine when_keeps _ _ _ _ ?_ ?_
    · exact Keeps.refl _ _
    · refine Keeps.step (mbUpd_keeps ..) rfl ?_
      exact Keeps.refl _ _
  · refine when_keeps _ _ _ _ ?_ ?_
    · exact Keeps.refl _ _
    · refine Keeps.step (mbUpd_keeps ..) rfl ?_
      exact Keeps.refl _ _
  · refine when_keeps _ _ _ _ ?_ ?_
    · exact Keeps.refl _ _
    · refine Keeps.step (mbUpd_keeps ..) rfl ?_
      exact Keeps.refl _ _
  · refine Keeps.step (mbCtrlWrite_keeps ..) rfl ?_
    exact Keeps.refl _ _
  · refine Keeps.step (rspHeadWrite_keeps ..) rfl ?_
    exact Keeps.refl _ _
  · refine Keeps.step (doorbellWrite_keeps ..) rfl ?_
    exact Keeps.refl _ _
  · refine Keeps.step (mbUpd_keeps ..) rfl ?_
    exact Keeps.refl _ _
  · exact Keeps.refl _ _

theorem evqRegWrite_keeps (off : Nat) (v : Word32) (s : State) : Keeps [.fault] s (evqRegWrite off v s) := by
  unfold evqRegWrite
  split
  · refine Keeps.step (evqHeadWrite_keeps ..) rfl ?_
    exact Keeps.refl _ _
  · refine Keeps.step (evqCtrlWrite_keeps ..) rfl ?_
    exact Keeps.refl _ _
  · refine Keeps.step (State.onFault_keeps ..) rfl ?_
    exact Keeps.refl _ _
  · exact Keeps.refl _ _

theorem timeRegWrite_keeps (off : Nat) (v : Word32) (s : State) : Keeps [.time] s (timeRegWrite off v s) := by
  unfold timeRegWrite
  refine ite_keeps _ _ _ ?_ ?_
  · intro a0
    refine Keeps.step (State.onTime_keeps ..) rfl ?_
    exact Keeps.refl _ _
  · intro a1
    refine ite_keeps _ _ _ ?_ ?_
    · intro a2
      refine Keeps.step (tbIncWrite_keeps ..) rfl ?_
      exact Keeps.refl _ _
    · intro a3
      refine ite_keeps _ _ _ ?_ ?_
      · intro a4
        refine Keeps.step (State.onTime_keeps ..) rfl ?_
        exact Keeps.refl _ _
      · intro a5
        exact Keeps.refl _ _

theorem regWrite_keeps (off : Nat) (v : Word32) (s : State) : Keeps [.mb, .fault, .time] s (regWrite off v s) := by
  unfold regWrite
  refine ite_keeps _ _ _ ?_ ?_
  · intro a0
    exact Keeps.refl _ _
  · intro a1
    refine ite_keeps _ _ _ ?_ ?_
    · intro a2
      refine Keeps.step (mbRegWrite_keeps ..) rfl ?_
      exact Keeps.refl _ _
    · intro a3
      refine ite_keeps _ _ _ ?_ ?_
      · intro a4
        refine Keeps.step (evqRegWrite_keeps ..) rfl ?_
        exact Keeps.refl _ _
      · intro a5
        refine ite_keeps _ _ _ ?_ ?_
        · intro a6
          refine Keeps.step (timeRegWrite_keeps ..) rfl ?_
          exact Keeps.refl _ _
        · intro a7
          exact Keeps.refl _ _

/-! ### Safe -/

theorem bootWait_keeps (s : State) : Keeps [.safe] s (bootWait s) := by
  unfold bootWait
  refine ite_keeps _ _ _ ?_ ?_
  · intro a0
    exact Keeps.refl _ _
  · intro a1
    extract_lets -lift +onlyGivenNames n2
    clear_value n2
    refine ite_keeps _ _ _ ?_ ?_
    · intro a3
      refine Keeps.step (safeLoad_keeps ..) rfl ?_
      refine Keeps.step (State.onSafe_keeps ..) rfl ?_
      exact Keeps.refl _ _
    · intro a4
      refine Keeps.step (State.onSafe_keeps ..) rfl ?_
      exact Keeps.refl _ _

theorem mainStop_keeps (s : State) : Keeps [.dev, .mb, .fault, .link, .safe, .red] s (mainStop s) := by
  unfold mainStop
  extract_lets -lift +onlyGivenNames p0
  clear_value p0
  extract_lets -lift +onlyGivenNames q1
  clear_value q1
  extract_lets -lift +onlyGivenNames q2
  clear_value q2
  extract_lets -lift +onlyGivenNames us3
  clear_value us3
  extract_lets -lift +onlyGivenNames env4
  clear_value env4
  extract_lets -lift +onlyGivenNames done5
  clear_value done5
  extract_lets -lift +onlyGivenNames bad6
  clear_value bad6
  extract_lets -lift +onlyGivenNames s7
  have h_s7 : Keeps [.dev, .mb, .fault, .link, .safe, .red] s s7 := by
    refine Keeps.step (State.onSafe_keeps ..) rfl ?_
    exact Keeps.refl _ _
  clear_value s7
  refine ite_keeps _ _ _ ?_ ?_
  · intro a8
    refine Keeps.step (stoEnter_keeps ..) rfl ?_
    refine Keeps.step (safeEvent_keeps ..) rfl ?_
    assumption
  · intro a9
    refine ite_keeps _ _ _ ?_ ?_
    · intro a10
      extract_lets -lift +onlyGivenNames fault11
      clear_value fault11
      extract_lets -lift +onlyGivenNames cause12
      clear_value cause12
      refine Keeps.step (addTrigger_keeps ..) rfl ?_
      refine Keeps.step (blockAll_keeps ..) rfl ?_
      refine Keeps.step (ss1End_keeps ..) rfl ?_
      refine Keeps.step (State.onSafe_keeps ..) rfl ?_
      assumption
    · intro a13
      assumption

theorem loadAngle_keeps (s : State) : Keeps [.dev, .mb, .fault, .safe] s (loadAngle s) := by
  unfold loadAngle
  extract_lets -lift +onlyGivenNames p0
  clear_value p0
  extract_lets -lift +onlyGivenNames slip1
  clear_value slip1
  refine ite_keeps _ _ _ ?_ ?_
  · intro a2
    exact Keeps.refl _ _
  · intro a3
    split
    refine ite_keeps _ _ _ ?_ ?_
    · intro a4
      extract_lets -lift +onlyGivenNames n5
      clear_value n5
      extract_lets -lift +onlyGivenNames s6
      have h_s6 : Keeps [.dev, .mb, .fault, .safe] s s6 := by
        refine Keeps.step (State.onSafe_keeps ..) rfl ?_
        exact Keeps.refl _ _
      clear_value s6
      refine ite_keeps _ _ _ ?_ ?_
      · intro a7
        refine Keeps.step (controlledBlock_keeps ..) rfl ?_
        refine Keeps.step (safeEvent_keeps ..) rfl ?_
        assumption
      · intro a8
        assumption
    · intro a9
      extract_lets -lift +onlyGivenNames e10
      clear_value e10
      extract_lets -lift +onlyGivenNames d11
      clear_value d11
      extract_lets -lift +onlyGivenNames d12
      clear_value d12
      extract_lets -lift +onlyGivenNames excess13
      clear_value excess13
      extract_lets -lift +onlyGivenNames n14
      clear_value n14
      extract_lets -lift +onlyGivenNames trip15
      clear_value trip15
      extract_lets -lift +onlyGivenNames alarm16
      clear_value alarm16
      extract_lets -lift +onlyGivenNames s17
      have h_s17 : Keeps [.dev, .mb, .fault, .safe] s s17 := by
        refine Keeps.step (State.onSafe_keeps ..) rfl ?_
        exact Keeps.refl _ _
      clear_value s17
      extract_lets -lift +onlyGivenNames s18
      have h_s18 : Keeps [.dev, .mb, .fault, .safe] s s18 := by
        refine when_keeps _ _ _ _ ?_ ?_
        · assumption
        · refine Keeps.step (safeEvent_keeps ..) rfl ?_
          exact Keeps.refl _ _
      clear_value s18
      refine ite_keeps _ _ _ ?_ ?_
      · intro a19
        refine Keeps.step (stoEnter_keeps ..) rfl ?_
        refine Keeps.step (safeEvent_keeps ..) rfl ?_
        assumption
      · intro a20
        assumption

theorem mainBlock_keeps (s : State) : Keeps [.dev, .link, .safe, .red] s (mainBlock s) := by
  unfold mainBlock
  extract_lets -lift +onlyGivenNames s0
  have h_s0 : Keeps [.dev, .link, .safe, .red] s s0 := by
    refine Keeps.step (State.onSafe_keeps ..) rfl ?_
    exact Keeps.refl _ _
  clear_value s0
  refine ite_keeps _ _ _ ?_ ?_
  · intro a1
    refine Keeps.step (addTrigger_keeps ..) rfl ?_
    refine Keeps.step (blockAll_keeps ..) rfl ?_
    assumption
  · intro a2
    assumption

theorem mordantEnvelope_keeps (k : SafeCfg) (s : State) : Keeps [.dev, .mb, .fault, .link, .safe, .red] s (mordantEnvelope k s) := by
  unfold mordantEnvelope
  extract_lets -lift +onlyGivenNames q0
  clear_value q0
  extract_lets -lift +onlyGivenNames q1
  clear_value q1
  extract_lets -lift +onlyGivenNames us2
  clear_value us2
  extract_lets -lift +onlyGivenNames env3
  clear_value env3
  extract_lets -lift +onlyGivenNames n4
  clear_value n4
  extract_lets -lift +onlyGivenNames s5
  have h_s5 : Keeps [.dev, .mb, .fault, .link, .safe, .red] s s5 := by
    refine Keeps.step (State.onSafe_keeps ..) rfl ?_
    exact Keeps.refl _ _
  clear_value s5
  refine ite_keeps _ _ _ ?_ ?_
  · intro a6
    refine Keeps.step (mordantBlock_keeps ..) rfl ?_
    refine Keeps.step (raise_keeps ..) rfl ?_
    assumption
  · intro a7
    assumption

theorem dropCopies_keeps (r : Nat) (gone : List SafeCopy) (s : State) : Keeps [.net] s (dropCopies r gone s) := by
  unfold dropCopies
  refine Keeps.step (State.onNet_keeps ..) rfl ?_
  exact Keeps.refl _ _

/-! ### Spare -/

theorem swapOut_keeps (g : Gate) (c : Cmd) (kind : Nat) (die : Nat) (n : Nat) (s : State) : Keeps [.dev, .mb, .fault, .tiles, .meas, .spare] s (swapOut g c kind die n s).st := by
  unfold swapOut
  split
  · try dsimp -zeta only
    exact Keeps.refl _ _
  · split
    · try dsimp -zeta only
      exact Keeps.refl _ _
    · extract_lets -lift +onlyGivenNames s1
      have h_s1 : Keeps [.dev, .mb, .fault, .tiles, .meas, .spare] s s1 := by
        refine Keeps.step (goPending_keeps ..) rfl ?_
        exact Keeps.refl _ _
      clear_value s1
      split
      · try dsimp -zeta only
        refine Keeps.step (unitLost_keeps ..) rfl ?_
        assumption
      · try dsimp -zeta only
        refine Keeps.step (failPooled_keeps ..) rfl ?_
        assumption

theorem swapBack_keeps (g : Gate) (c : Cmd) (kind : Nat) (die : Nat) (n : Nat) (s : State) : Keeps [.mb, .spare] s (swapBack g c kind die n s).st := by
  unfold swapBack
  split
  · try dsimp -zeta only
    exact Keeps.refl _ _
  · try dsimp -zeta only
    refine Keeps.step (resUpd_keeps ..) rfl ?_
    refine Keeps.step (goPending_keeps ..) rfl ?_
    exact Keeps.refl _ _

/-! ### Tick -/

theorem oldFrames_keeps (oldT : Nat) (newT : Nat) (k : Nat) (s : State) : Keeps [.link] s (oldFrames oldT newT k s) := by
  unfold oldFrames
  extract_lets -lift +onlyGivenNames n0
  clear_value n0
  refine foldl_keeps _ ?_ _ _ _ ?_
  · intro a1 a2
    refine Keeps.step (portUpd_keeps ..) rfl ?_
    exact Keeps.refl _ _
  · exact Keeps.refl _ _

theorem reTick_keeps (k : Nat) (first : Nat) (s : State) : Keeps [.link, .aie] s (reTick k first s) := by
  unfold reTick
  extract_lets -lift +onlyGivenNames f0
  clear_value f0
  refine Keeps.step (State.onLink_keeps ..) rfl ?_
  refine Keeps.step (State.onAie_keeps ..) rfl ?_
  exact Keeps.refl _ _

theorem limitsAgain_keeps (s : State) : Keeps [.fault, .link] s (limitsAgain s) := by
  unfold limitsAgain
  refine foldl_keeps _ ?_ _ _ _ ?_
  · intro a0 a1
    extract_lets -lift +onlyGivenNames x2
    clear_value x2
    split
    · refine ite_keeps _ _ _ ?_ ?_
      · intro a3
        refine Keeps.step (unreachable_keeps ..) rfl ?_
        refine Keeps.step (noteLimits_keeps ..) rfl ?_
        exact Keeps.refl _ _
      · intro a4
        exact Keeps.refl _ _
    · exact Keeps.refl _ _
  · exact Keeps.refl _ _

theorem commitSet_keeps (n : Nat) (s : State) : Keeps [.fault, .link, .aie, .pwm, .loop, .tiles, .meas, .prot, .net, .spare] s (commitSet n s) := by
  unfold commitSet
  split
  · refine Keeps.step (commitLoop_keeps ..) rfl ?_
    exact Keeps.refl _ _
  · refine Keeps.step (commitArms_keeps ..) rfl ?_
    exact Keeps.refl _ _
  · refine Keeps.step (commitPwm_keeps ..) rfl ?_
    exact Keeps.refl _ _
  · refine Keeps.step (commitTiles_keeps ..) rfl ?_
    exact Keeps.refl _ _
  · refine Keeps.step (commitDisp_keeps ..) rfl ?_
    exact Keeps.refl _ _
  · refine Keeps.step (commitMeas_keeps ..) rfl ?_
    exact Keeps.refl _ _
  · refine Keeps.step (commitProt_keeps ..) rfl ?_
    exact Keeps.refl _ _
  · refine Keeps.step (commitSafeStates_keeps ..) rfl ?_
    exact Keeps.refl _ _
  · refine Keeps.step (commitNet_keeps ..) rfl ?_
    exact Keeps.refl _ _

theorem commitEnd_keeps (k : Commit) (st : Status) (first : Nat) (s : State) : Keeps [.mb] s (commitEnd k st first s) := by
  unfold commitEnd
  refine Keeps.step (endPending_keeps ..) rfl ?_
  exact Keeps.refl _ _

theorem commitFail_keeps (k : Commit) (why : Nat) (s : State) : Keeps [.mb, .fault] s (commitFail k why s) := by
  unfold commitFail
  refine Keeps.step (commitEnd_keeps ..) rfl ?_
  refine Keeps.step (raise_keeps ..) rfl ?_
  exact Keeps.refl _ _

theorem commitNow_keeps (k : Commit) (s : State) : Keeps [.mb, .tick, .fault, .link, .aie, .pwm, .loop, .tiles, .meas, .prot, .net, .red, .galley, .spare] s (commitNow k s) := by
  unfold commitNow
  extract_lets -lift +onlyGivenNames moved0
  clear_value moved0
  extract_lets -lift +onlyGivenNames s1
  have h_s1 : Keeps [.mb, .tick, .fault, .link, .aie, .pwm, .loop, .tiles, .meas, .prot, .net, .red, .galley, .spare] s s1 := by
    refine Keeps.step (unboundEvents_keeps ..) rfl ?_
    refine foldl_keeps _ ?_ _ _ _ ?_
    · intro a2 a3
      refine Keeps.step (commitSet_keeps ..) rfl ?_
      exact Keeps.refl _ _
    · exact Keeps.refl _ _
  clear_value s1
  extract_lets -lift +onlyGivenNames s4
  have h_s4 : Keeps [.mb, .tick, .fault, .link, .aie, .pwm, .loop, .tiles, .meas, .prot, .net, .red, .galley, .spare] s s4 := by
    refine Keeps.step (State.onTick_keeps _ _ (by exact id)) rfl ?_
    assumption
  clear_value s4
  extract_lets -lift +onlyGivenNames s6
  have h_s6 : Keeps [.mb, .tick, .fault, .link, .aie, .pwm, .loop, .tiles, .meas, .prot, .net, .red, .galley, .spare] s s6 := by
    refine Keeps.step (State.onGalley_keeps ..) rfl ?_
    assumption
  clear_value s6
  refine Keeps.step (commitEnd_keeps ..) rfl ?_
  refine Keeps.step (State.onRed_keeps ..) rfl ?_
  assumption

/-! ### Time -/

theorem baseSet_keeps (c : Cmd) (d : Int) (s : State) : Keeps [.fault, .time] s (baseSet c d s).st := by
  unfold baseSet
  extract_lets -lift +onlyGivenNames t1
  clear_value t1
  extract_lets -lift +onlyGivenNames whole3
  clear_value whole3
  extract_lets -lift +onlyGivenNames any5
  clear_value any5
  extract_lets -lift +onlyGivenNames big7
  clear_value big7
  split
  · try dsimp -zeta only
    exact Keeps.refl _ _
  · split
    · try dsimp -zeta only
      exact Keeps.refl _ _
    · extract_lets -lift +onlyGivenNames s9
      have h_s9 : Keeps [.fault, .time] s s9 := by
        refine Keeps.step (stepTime_keeps ..) rfl ?_
        refine Keeps.step (State.onTime_keeps ..) rfl ?_
        exact Keeps.refl _ _
      clear_value s9
      extract_lets -lift +onlyGivenNames s11
      have h_s11 : Keeps [.fault, .time] s s11 := by
        refine ite_keeps _ _ _ ?_ ?_
        · intro a12
          assumption
        · intro a13
          refine Keeps.step (setQual_keeps ..) rfl ?_
          refine Keeps.step (State.onTime_keeps ..) rfl ?_
          assumption
      clear_value s11
      try dsimp -zeta only [okReply]
      assumption

end Sys2Proof.Machine
end

