-- ==== Sys2Proof/Laws/KeepsExec.lean ====
section
/-! SUPPORT. What each meaning can touch: it answers a next state, and nothing outside the parts listed has changed. -/

namespace Sys2Proof.Machine

open Sys2Proof

/-! ### Acq -/

theorem execAcqChannelConfig_keeps (c : Cmd) (s : State) : Answers [.host, .mb, .acq] s (execAcqChannelConfig c s) := by
  unfold execAcqChannelConfig
  extract_lets -lift +onlyGivenNames ch0
  clear_value ch0
  extract_lets -lift +onlyGivenNames f1
  clear_value f1
  extract_lets -lift +onlyGivenNames k2
  clear_value k2
  extract_lets -lift +onlyGivenNames g3
  clear_value g3
  refine Answers.runCmd _ _ _ _ ?_ rfl
  intro a4
  split
  · try dsimp -zeta only
    exact Keeps.refl _ _
  · try dsimp -zeta only [okReply]
    refine Keeps.step (State.onAcq_keeps ..) rfl ?_
    exact Keeps.refl _ _

theorem execAcqTriggerConfig_keeps (c : Cmd) (s : State) : Answers [.host, .mb, .acq] s (execAcqTriggerConfig c s) := by
  unfold execAcqTriggerConfig
  extract_lets -lift +onlyGivenNames ch0
  clear_value ch0
  extract_lets -lift +onlyGivenNames kd1
  clear_value kd1
  extract_lets -lift +onlyGivenNames k2
  clear_value k2
  extract_lets -lift +onlyGivenNames thOk3
  clear_value thOk3
  extract_lets -lift +onlyGivenNames g4
  clear_value g4
  refine Answers.runCmd _ _ _ _ ?_ rfl
  intro a5
  split
  · try dsimp -zeta only
    exact Keeps.refl _ _
  · try dsimp -zeta only [okReply]
    refine Keeps.step (State.onAcq_keeps ..) rfl ?_
    exact Keeps.refl _ _

theorem execAcqArm_keeps (c : Cmd) (s : State) : Answers [.freeCtr, .host, .mb, .fault, .acq] s (execAcqArm c s) := by
  unfold execAcqArm
  extract_lets -lift +onlyGivenNames m0
  clear_value m0
  extract_lets -lift +onlyGivenNames act1
  clear_value act1
  extract_lets -lift +onlyGivenNames n2
  clear_value n2
  extract_lets -lift +onlyGivenNames cs3
  clear_value cs3
  extract_lets -lift +onlyGivenNames g4
  clear_value g4
  refine Answers.runCmd _ _ _ _ ?_ rfl
  intro a5
  extract_lets -lift +onlyGivenNames status7
  extract_lets -lift +onlyGivenNames others9
  clear_value others9
  extract_lets -lift +onlyGivenNames bytes11
  clear_value bytes11
  extract_lets -lift +onlyGivenNames heads13
  clear_value heads13
  extract_lets -lift +onlyGivenNames wrong15
  clear_value wrong15
  split
  · try dsimp -zeta only [status7]
    try dsimp -zeta only [okReply]
    exact Keeps.refl _ _
  · split
    · try dsimp -zeta only [status7]
      try dsimp -zeta only [okReply]
      refine foldl_keeps _ ?_ _ _ _ ?_
      · intro a16 a17
        refine Keeps.step (acqDisarm_keeps ..) rfl ?_
        exact Keeps.refl _ _
      · exact Keeps.refl _ _
    · split
      · try dsimp -zeta only
        exact Keeps.refl _ _
      · split
        · try dsimp -zeta only
          exact Keeps.refl _ _
        · try dsimp -zeta only [status7]
          try dsimp -zeta only [okReply]
          refine foldl_keeps _ ?_ _ _ _ ?_
          · intro a18 a19
            refine Keeps.step (acqArm_keeps ..) rfl ?_
            exact Keeps.refl _ _
          · exact Keeps.refl _ _

theorem execAcqSegmentRead_keeps (c : Cmd) (s : State) : Answers [.host, .mb, .fault, .acq] s (execAcqSegmentRead c s) := by
  unfold execAcqSegmentRead
  extract_lets -lift +onlyGivenNames ch0
  clear_value ch0
  extract_lets -lift +onlyGivenNames f1
  clear_value f1
  extract_lets -lift +onlyGivenNames g2
  clear_value g2
  refine Answers.runCmd _ _ _ _ ?_ rfl
  intro a3
  split
  · try dsimp -zeta only
    exact Keeps.refl _ _
  · extract_lets -lift +onlyGivenNames p5
    clear_value p5
    extract_lets -lift +onlyGivenNames s7
    have h_s7 : Keeps [.host, .mb, .fault, .acq] a3 s7 := by
      refine Keeps.step (acqUpd_keeps ..) rfl ?_
      refine Keeps.step (putBuf_keeps ..) rfl ?_
      exact Keeps.refl _ _
    clear_value s7
    extract_lets -lift +onlyGivenNames left9
    clear_value left9
    extract_lets -lift +onlyGivenNames s11
    have h_s11 : Keeps [.host, .mb, .fault, .acq] a3 s11 := by
      refine ite_keeps _ _ _ ?_ ?_
      · intro a12
        assumption
      · intro a13
        refine ite_keeps _ _ _ ?_ ?_
        · intro a14
          refine Keeps.step (segRelease_keeps ..) rfl ?_
          assumption
        · intro a15
          refine Keeps.step (acqUpd_keeps ..) rfl ?_
          assumption
    clear_value s11
    try dsimp -zeta only [okReply]
    assumption

theorem execAcqLocate_keeps (c : Cmd) (s : State) : Answers [.host, .mb, .fault] s (execAcqLocate c s) := by
  unfold execAcqLocate
  extract_lets -lift +onlyGivenNames ch0
  clear_value ch0
  extract_lets -lift +onlyGivenNames l1
  clear_value l1
  extract_lets -lift +onlyGivenNames v2
  clear_value v2
  extract_lets -lift +onlyGivenNames tol3
  clear_value tol3
  extract_lets -lift +onlyGivenNames tb4
  clear_value tb4
  extract_lets -lift +onlyGivenNames g5
  clear_value g5
  refine Answers.runCmd _ _ _ _ ?_ rfl
  intro a6
  split
  · try dsimp -zeta only
    exact Keeps.refl _ _
  · split
    · try dsimp -zeta only
      exact Keeps.refl _ _
    · extract_lets -lift +onlyGivenNames dt8
      clear_value dt8
      extract_lets -lift +onlyGivenNames num10
      clear_value num10
      extract_lets -lift +onlyGivenNames x12
      clear_value x12
      extract_lets -lift +onlyGivenNames inside14
      clear_value inside14
      try dsimp -zeta only [okReply]
      refine when_keeps _ _ _ _ ?_ ?_
      · exact Keeps.refl _ _
      · refine Keeps.step (acqEvent_keeps ..) rfl ?_
        exact Keeps.refl _ _

theorem execTwTrigger_keeps (t1 : Int) (streams : List TwStream) (comparators : List Nat) (s : State) : Answers [.fault, .acq, .spare] s (execTwTrigger t1 streams comparators s) := by
  unfold execTwTrigger
  refine Answers.ite _ _ _ ?_ ?_
  · intro a0
    refine Answers.next ?_
    exact Keeps.refl _ _
  · intro a1
    extract_lets -lift +onlyGivenNames at2
    clear_value at2
    extract_lets -lift +onlyGivenNames per3
    clear_value per3
    extract_lets -lift +onlyGivenNames tn4
    clear_value tn4
    extract_lets -lift +onlyGivenNames inPeriod5
    clear_value inPeriod5
    extract_lets -lift +onlyGivenNames own6
    clear_value own6
    extract_lets -lift +onlyGivenNames step7
    extract_lets -lift +onlyGivenNames s8
    have h_s8 : Keeps [.fault, .acq, .spare] s s8 := by
      refine foldl_keeps _ ?_ _ _ _ ?_
      · intro a9 a10
        try dsimp -zeta only [step7]
        extract_lets -lift +onlyGivenNames k11
        clear_value k11
        extract_lets -lift +onlyGivenNames cand12
        clear_value cand12
        extract_lets -lift +onlyGivenNames late13
        clear_value late13
        refine ite_keeps _ _ _ ?_ ?_
        · intro a14
          exact Keeps.refl _ _
        · intro a15
          refine ite_keeps _ _ _ ?_ ?_
          · intro a16
            refine ite_keeps _ _ _ ?_ ?_
            · intro a17
              refine Keeps.step (noteMissed_keeps ..) rfl ?_
              exact Keeps.refl _ _
            · intro a18
              exact Keeps.refl _ _
          · intro a19
            split
            · exact Keeps.refl _ _
            · extract_lets -lift +onlyGivenNames best20
              clear_value best20
              extract_lets -lift +onlyGivenNames kind21
              clear_value kind21
              refine Keeps.step (acqCapture_keeps ..) rfl ?_
              exact Keeps.refl _ _
      · exact Keeps.refl _ _
    clear_value s8
    refine Answers.next ?_
    refine foldl_keeps _ ?_ _ _ _ ?_
    · intro a22 a23
      refine Keeps.step (twSignal_keeps ..) rfl ?_
      exact Keeps.refl _ _
    · assumption

theorem execTwAutoTimeout_keeps (ch : Fin 4) (t : Int) (written : Nat) (s : State) : Answers [.acq] s (execTwAutoTimeout ch t written s) := by
  unfold execTwAutoTimeout
  extract_lets -lift +onlyGivenNames k0
  clear_value k0
  refine Answers.ite _ _ _ ?_ ?_
  · intro a1
    refine Answers.next ?_
    exact Keeps.refl _ _
  · intro a2
    extract_lets -lift +onlyGivenNames tn3
    clear_value tn3
    refine Answers.next ?_
    refine Keeps.step (acqCapture_keeps ..) rfl ?_
    exact Keeps.refl _ _

theorem execTwSegmentClose_keeps (ch : Fin 4) (raw : List Int) (s : State) : Answers [.fault, .acq] s (execTwSegmentClose ch raw s) := by
  unfold execTwSegmentClose
  extract_lets -lift +onlyGivenNames k0
  clear_value k0
  extract_lets -lift +onlyGivenNames x1
  clear_value x1
  split
  · refine Answers.next ?_
    exact Keeps.refl _ _
  · refine Answers.ite _ _ _ ?_ ?_
    · intro a2
      refine Answers.next ?_
      exact Keeps.refl _ _
    · intro a3
      extract_lets -lift +onlyGivenNames kept4
      clear_value kept4
      extract_lets -lift +onlyGivenNames full5
      clear_value full5
      extract_lets -lift +onlyGivenNames s6
      have h_s6 : Keeps [.fault, .acq] s s6 := by
        refine Keeps.step (closeSegment_keeps ..) rfl ?_
        exact Keeps.refl _ _
      clear_value s6
      refine Answers.ite _ _ _ ?_ ?_
      · intro a7
        refine Answers.next ?_
        refine Keeps.step (acqUpd_keeps ..) rfl ?_
        assumption
      · intro a8
        refine Answers.next ?_
        refine Keeps.step (rearm_keeps ..) rfl ?_
        assumption

/-! ### Cell -/

theorem execCellPowerUp_keeps (cid : Nat) (identity : BitVec 48) (s : State) : Answers [.cells] s (execCellPowerUp cid identity s) := by
  unfold execCellPowerUp
  refine Answers.next ?_
  refine Keeps.step (ctlUpd_keeps ..) rfl ?_
  exact Keeps.refl _ _

theorem execCellWordLock_keeps (cid : Nat) (onB : Bool) (line : List (BitVec 34)) (s : State) : Answers [.cells] s (execCellWordLock cid onB line s) := by
  unfold execCellWordLock
  refine Answers.next ?_
  refine Keeps.step (ctlUpd_keeps ..) rfl ?_
  exact Keeps.refl _ _

theorem execCellFrameTake_keeps (cid : Nat) (onB : Bool) (rx : LineRx) (s : State) : Answers [.cells] s (execCellFrameTake cid onB rx s) := by
  unfold execCellFrameTake
  refine Answers.next ?_
  refine Keeps.step (ctlUpd_keeps ..) rfl ?_
  exact Keeps.refl _ _

theorem execCellFrameDeadline_keeps (cell : CellAt) (s : State) : Answers [.cells] s (execCellFrameDeadline cell s) := by
  unfold execCellFrameDeadline
  refine Answers.next ?_
  refine Keeps.step (ctlUpd_keeps ..) rfl ?_
  exact Keeps.refl _ _

theorem execCellBlockAccept_keeps (cid : Nat) (onB : Bool) (rx : LineRx) (s : State) : Answers [.cells] s (execCellBlockAccept cid onB rx s) := by
  unfold execCellBlockAccept
  refine Answers.next ?_
  refine Keeps.step (ctlUpd_keeps ..) rfl ?_
  exact Keeps.refl _ _

theorem execCellSafeAccept_keeps (cid : Nat) (onB : Bool) (rx : LineRx) (s : State) : Answers [.cells] s (execCellSafeAccept cid onB rx s) := by
  unfold execCellSafeAccept
  refine Answers.next ?_
  refine Keeps.step (ctlUpd_keeps ..) rfl ?_
  exact Keeps.refl _ _

theorem execCellTimeSetAccept_keeps (cid : Nat) (onB : Bool) (rx : LineRx) (elapsed : Nat) (s : State) : Answers [.cells] s (execCellTimeSetAccept cid onB rx elapsed s) := by
  unfold execCellTimeSetAccept
  refine Answers.next ?_
  refine Keeps.step (ctlUpd_keeps ..) rfl ?_
  exact Keeps.refl _ _

theorem execCellSleepAccept_keeps (cid : Nat) (onB : Bool) (before : List LineWord) (line : List LineWord) (s : State) : Answers [.cells] s (execCellSleepAccept cid onB before line s) := by
  unfold execCellSleepAccept
  refine Answers.next ?_
  refine Keeps.step (ctlUpd_keeps ..) rfl ?_
  exact Keeps.refl _ _

theorem execCellBlockHoldEnd_keeps (cell : CellAt) (s : State) : Answers [.cells] s (execCellBlockHoldEnd cell s) := by
  unfold execCellBlockHoldEnd
  refine Answers.next ?_
  refine Keeps.step (ctlUpd_keeps ..) rfl ?_
  exact Keeps.refl _ _

theorem execCellWatchdogExpiry_keeps (cid : Nat) (s : State) : Answers [.cells] s (execCellWatchdogExpiry cid s) := by
  unfold execCellWatchdogExpiry
  refine Answers.next ?_
  refine Keeps.step (ctlUpd_keeps ..) rfl ?_
  exact Keeps.refl _ _

theorem execCellLinkLoss_keeps (cid : Nat) (onB : Bool) (s : State) : Answers [.cells] s (execCellLinkLoss cid onB s) := by
  unfold execCellLinkLoss
  refine Answers.next ?_
  refine Keeps.step (ctlUpd_keeps ..) rfl ?_
  exact Keeps.refl _ _

theorem execCellEdgeExecute_keeps (cid : Nat) (s : State) : Answers [.cells] s (execCellEdgeExecute cid s) := by
  unfold execCellEdgeExecute
  refine Answers.next ?_
  refine Keeps.step (ctlUpd_keeps ..) rfl ?_
  exact Keeps.refl _ _

theorem execCellSampleLatch_keeps (cid : Nat) (vcap : Word16) (temp : Byte) (aux : BitVec 11) (s : State) : Answers [.freeCtr, .cells] s (execCellSampleLatch cid vcap temp aux s) := by
  unfold execCellSampleLatch
  extract_lets -lift +onlyGivenNames n0
  refine Answers.next ?_
  refine Keeps.step (ctlUpd_keeps ..) rfl ?_
  try dsimp -zeta only [n0]
  refine Keeps.step (State.draw_keeps ..) rfl ?_
  exact Keeps.refl _ _

theorem execCellBurstLaunch_keeps (cid : Nat) (onB : Bool) (s : State) : Answers [.cells] s (execCellBurstLaunch cid onB s) := by
  unfold execCellBurstLaunch
  refine Answers.next ?_
  refine Keeps.step (ctlUpd_keeps ..) rfl ?_
  exact Keeps.refl _ _

theorem execCellFaultDetect_keeps (cid : Nat) (fault : CellFault) (s : State) : Answers [.cells] s (execCellFaultDetect cid fault s) := by
  unfold execCellFaultDetect
  refine Answers.next ?_
  refine Keeps.step (ctlUpd_keeps ..) rfl ?_
  exact Keeps.refl _ _

theorem execCellPermBypass_keeps (cid : Nat) (s : State) : Answers [.cells] s (execCellPermBypass cid s) := by
  unfold execCellPermBypass
  refine Answers.next ?_
  refine Keeps.step (ctlUpd_keeps ..) rfl ?_
  exact Keeps.refl _ _

/-! ### Aie -/

theorem execAieArmConfig_keeps (c : Cmd) (s : State) : Answers [.host, .mb, .tick, .aie] s (execAieArmConfig c s) := by
  unfold execAieArmConfig
  extract_lets -lift +onlyGivenNames a0
  clear_value a0
  extract_lets -lift +onlyGivenNames k1
  clear_value k1
  extract_lets -lift +onlyGivenNames lim2
  clear_value lim2
  extract_lets -lift +onlyGivenNames g3
  clear_value g3
  extract_lets -lift +onlyGivenNames n4
  clear_value n4
  refine Answers.runCmd _ _ _ _ ?_ rfl
  intro a5
  extract_lets -lift +onlyGivenNames far7
  clear_value far7
  split
  · try dsimp -zeta only
    exact Keeps.refl _ _
  · try dsimp -zeta only [okReply]
    refine Keeps.step (stage_keeps ..) rfl ?_
    refine Keeps.step (State.onAie_keeps ..) rfl ?_
    exact Keeps.refl _ _

theorem execAieSelectParams_keeps (c : Cmd) (s : State) : Answers [.host, .mb, .tick, .aie] s (execAieSelectParams c s) := by
  unfold execAieSelectParams
  extract_lets -lift +onlyGivenNames a0
  clear_value a0
  extract_lets -lift +onlyGivenNames k1
  clear_value k1
  extract_lets -lift +onlyGivenNames g2
  clear_value g2
  refine Answers.runCmd _ _ _ _ ?_ rfl
  intro a3
  try dsimp -zeta only [okReply]
  refine Keeps.step (stage_keeps ..) rfl ?_
  refine Keeps.step (State.onAie_keeps ..) rfl ?_
  exact Keeps.refl _ _

theorem execAieDerateConfig_keeps (c : Cmd) (s : State) : Answers [.host, .mb, .tick, .aie] s (execAieDerateConfig c s) := by
  unfold execAieDerateConfig
  extract_lets -lift +onlyGivenNames gr0
  clear_value gr0
  extract_lets -lift +onlyGivenNames k1
  clear_value k1
  extract_lets -lift +onlyGivenNames g2
  clear_value g2
  refine Answers.runCmd _ _ _ _ ?_ rfl
  intro a3
  extract_lets -lift +onlyGivenNames as5
  clear_value as5
  try dsimp -zeta only [okReply]
  refine Keeps.step (stage_keeps ..) rfl ?_
  refine Keeps.step (State.onAie_keeps ..) rfl ?_
  exact Keeps.refl _ _

theorem execAieWearRead_keeps (c : Cmd) (s : State) : Answers [.host, .mb] s (execAieWearRead c s) := by
  unfold execAieWearRead
  extract_lets -lift +onlyGivenNames a0
  clear_value a0
  extract_lets -lift +onlyGivenNames g1
  clear_value g1
  refine Answers.runCmd _ _ _ _ ?_ rfl
  intro a2
  extract_lets -lift +onlyGivenNames cs4
  clear_value cs4
  try dsimp -zeta only [okReply]
  refine Keeps.step (putBuf_keeps ..) rfl ?_
  exact Keeps.refl _ _

theorem execAieArmStatus_keeps (c : Cmd) (s : State) : Answers [.host, .mb] s (execAieArmStatus c s) := by
  unfold execAieArmStatus
  extract_lets -lift +onlyGivenNames a0
  clear_value a0
  extract_lets -lift +onlyGivenNames g1
  clear_value g1
  refine Answers.runCmd _ _ _ _ ?_ rfl
  intro a2
  try dsimp -zeta only [okReply]
  exact Keeps.refl _ _

theorem execAieClampWindowEnd_keeps (a : Nat) (s : State) : Answers [.aie] s (execAieClampWindowEnd a s) := by
  unfold execAieClampWindowEnd
  split
  · refine Answers.ite _ _ _ ?_ ?_
    · intro a0
      refine Answers.next ?_
      refine Keeps.step (clampWindow_keeps ..) rfl ?_
      exact Keeps.refl _ _
    · intro a1
      refine Answers.next ?_
      exact Keeps.refl _ _
  · refine Answers.next ?_
    exact Keeps.refl _ _

theorem execAieUnresolved_keeps (a : Nat) (s : State) : Answers [.fault, .aie] s (execAieUnresolved a s) := by
  unfold execAieUnresolved
  extract_lets -lift +onlyGivenNames st0
  clear_value st0
  refine Answers.ite _ _ _ ?_ ?_
  · intro a1
    refine Answers.next ?_
    refine Keeps.step (aieEvent_keeps ..) rfl ?_
    refine Keeps.step (armUpd_keeps ..) rfl ?_
    exact Keeps.refl _ _
  · intro a2
    refine Answers.next ?_
    exact Keeps.refl _ _

theorem execDesignatedCellRotate_keeps (a : Nat) (s : State) : Answers [.aie] s (execDesignatedCellRotate a s) := by
  unfold execDesignatedCellRotate
  split
  · refine Answers.ite _ _ _ ?_ ?_
    · intro a0
      refine Answers.next ?_
      refine Keeps.step (armUpd_keeps ..) rfl ?_
      exact Keeps.refl _ _
    · intro a1
      refine Answers.next ?_
      exact Keeps.refl _ _
  · refine Answers.next ?_
    exact Keeps.refl _ _

theorem execWearPenaltyRecompute_keeps (s : State) : Answers [.aie] s (execWearPenaltyRecompute s) := by
  unfold execWearPenaltyRecompute
  refine Answers.next ?_
  refine foldl_keeps _ ?_ _ _ _ ?_
  · intro a0 a1
    refine Keeps.step (penalties_keeps ..) rfl ?_
    exact Keeps.refl _ _
  · exact Keeps.refl _ _

theorem execWearSave_keeps (s : State) : Answers [.aie] s (execWearSave s) := by
  unfold execWearSave
  refine Answers.next ?_
  refine Keeps.step (wearSave_keeps ..) rfl ?_
  exact Keeps.refl _ _

theorem execArmOverrunLimit_keeps (arm : Nat) (s : State) : Answers [.dev, .fault] s (execArmOverrunLimit arm s) := by
  unfold execArmOverrunLimit
  refine Answers.ite _ _ _ ?_ ?_
  · intro a0
    refine Answers.next ?_
    refine Keeps.step (aieEvent_keeps ..) rfl ?_
    refine Keeps.step (controlledBlock_keeps ..) rfl ?_
    exact Keeps.refl _ _
  · intro a1
    refine Answers.next ?_
    exact Keeps.refl _ _

/-! ### Net -/

theorem execTimePtpConfig_keeps (c : Cmd) (s : State) : Answers [.host, .mb, .net] s (execTimePtpConfig c s) := by
  unfold execTimePtpConfig
  extract_lets -lift +onlyGivenNames p0
  clear_value p0
  extract_lets -lift +onlyGivenNames f1
  clear_value f1
  extract_lets -lift +onlyGivenNames g2
  clear_value g2
  refine Answers.runCmd _ _ _ _ ?_ rfl
  intro a3
  split
  · try dsimp -zeta only
    exact Keeps.refl _ _
  · extract_lets -lift +onlyGivenNames old5
    clear_value old5
    extract_lets -lift +onlyGivenNames on7
    clear_value on7
    extract_lets -lift +onlyGivenNames st9
    clear_value st9
    extract_lets -lift +onlyGivenNames s11
    have h_s11 : Keeps [.host, .mb, .net] a3 s11 := by
      refine Keeps.step (ptpUpd_keeps ..) rfl ?_
      exact Keeps.refl _ _
    clear_value s11
    try dsimp -zeta only [okReply]
    assumption

theorem execPtpSyncSend_keeps (port : Fin 4) (s : State) : Answers [.net] s (execPtpSyncSend port s) := by
  unfold execPtpSyncSend
  extract_lets -lift +onlyGivenNames q0
  clear_value q0
  refine Answers.ite _ _ _ ?_ ?_
  · intro a1
    refine Answers.next ?_
    exact Keeps.refl _ _
  · intro a2
    extract_lets -lift +onlyGivenNames t3
    clear_value t3
    extract_lets -lift +onlyGivenNames ann4
    clear_value ann4
    refine Answers.next ?_
    refine Keeps.step (ptpUpd_keeps ..) rfl ?_
    exact Keeps.refl _ _

theorem execPtpMessageReceive_keeps (port : Fin 4) (msg : PtpIn) (s : State) : Answers [.fault, .net] s (execPtpMessageReceive port msg s) := by
  unfold execPtpMessageReceive
  extract_lets -lift +onlyGivenNames q0
  clear_value q0
  refine Answers.ite _ _ _ ?_ ?_
  · intro a1
    refine Answers.next ?_
    exact Keeps.refl _ _
  · intro a2
    split
    · refine Answers.next ?_
      refine Keeps.step (ptpUpd_keeps ..) rfl ?_
      exact Keeps.refl _ _
    · refine Answers.ite _ _ _ ?_ ?_
      · intro a3
        refine Answers.next ?_
        exact Keeps.refl _ _
      · intro a4
        extract_lets -lift +onlyGivenNames s5
        have h_s5 : Keeps [.fault, .net] s s5 := by
          refine Keeps.step (ptpUpd_keeps ..) rfl ?_
          exact Keeps.refl _ _
        clear_value s5
        refine Answers.next ?_
        refine when_keeps _ _ _ _ ?_ ?_
        · assumption
        · refine Keeps.step (ptpPassive_keeps ..) rfl ?_
          exact Keeps.refl _ _

theorem execPtpAnnounceTimeout_keeps (port : Fin 4) (s : State) : Answers [.fault, .net] s (execPtpAnnounceTimeout port s) := by
  unfold execPtpAnnounceTimeout
  extract_lets -lift +onlyGivenNames q0
  clear_value q0
  refine Answers.ite _ _ _ ?_ ?_
  · intro a1
    refine Answers.next ?_
    refine Keeps.step (ptpPassive_keeps ..) rfl ?_
    refine Keeps.step (ptpUpd_keeps ..) rfl ?_
    exact Keeps.refl _ _
  · intro a2
    refine Answers.ite _ _ _ ?_ ?_
    · intro a3
      refine Answers.next ?_
      refine Keeps.step (ptpUpd_keeps ..) rfl ?_
      exact Keeps.refl _ _
    · intro a4
      refine Answers.next ?_
      exact Keeps.refl _ _

theorem execNetPortConfig_keeps (c : Cmd) (s : State) : Answers [.host, .mb, .fault, .net] s (execNetPortConfig c s) := by
  unfold execNetPortConfig
  extract_lets -lift +onlyGivenNames p0
  clear_value p0
  extract_lets -lift +onlyGivenNames f1
  clear_value f1
  extract_lets -lift +onlyGivenNames m2
  clear_value m2
  extract_lets -lift +onlyGivenNames g3
  clear_value g3
  refine Answers.runCmd _ _ _ _ ?_ rfl
  intro a4
  split
  · try dsimp -zeta only
    exact Keeps.refl _ _
  · extract_lets -lift +onlyGivenNames s6
    have h_s6 : Keeps [.host, .mb, .fault, .net] a4 s6 := by
      refine Keeps.step (State.onNet_keeps ..) rfl ?_
      exact Keeps.refl _ _
    clear_value s6
    extract_lets -lift +onlyGivenNames s8
    have h_s8 : Keeps [.host, .mb, .fault, .net] a4 s8 := by
      refine ite_keeps _ _ _ ?_ ?_
      · intro a9
        assumption
      · intro a10
        refine Keeps.step (linkChange_keeps ..) rfl ?_
        assumption
    clear_value s8
    try dsimp -zeta only [okReply]
    assumption

theorem execNetGooseConfig_keeps (c : Cmd) (s : State) : Answers [.host, .mb, .tick, .net] s (execNetGooseConfig c s) := by
  unfold execNetGooseConfig
  extract_lets -lift +onlyGivenNames kind0
  clear_value kind0
  extract_lets -lift +onlyGivenNames i1
  clear_value i1
  extract_lets -lift +onlyGivenNames f2
  clear_value f2
  extract_lets -lift +onlyGivenNames es3
  clear_value es3
  extract_lets -lift +onlyGivenNames used4
  clear_value used4
  extract_lets -lift +onlyGivenNames dmac5
  clear_value dmac5
  extract_lets -lift +onlyGivenNames names6
  clear_value names6
  extract_lets -lift +onlyGivenNames ident7
  clear_value ident7
  extract_lets -lift +onlyGivenNames par8
  clear_value par8
  extract_lets -lift +onlyGivenNames g9
  clear_value g9
  refine Answers.runCmd _ _ _ _ ?_ rfl
  intro a10
  extract_lets -lift +onlyGivenNames ports12
  clear_value ports12
  extract_lets -lift +onlyGivenNames safe14
  clear_value safe14
  extract_lets -lift +onlyGivenNames bad16
  clear_value bad16
  split
  · try dsimp -zeta only
    exact Keeps.refl _ _
  · extract_lets -lift +onlyGivenNames s18
    have h_s18 : Keeps [.host, .mb, .tick, .net] a10 s18 := by
      refine Keeps.step (stage_keeps ..) rfl ?_
      refine Keeps.step (State.onNet_keeps ..) rfl ?_
      exact Keeps.refl _ _
    clear_value s18
    extract_lets -lift +onlyGivenNames n20
    clear_value n20
    try dsimp -zeta only [okReply]
    assumption

theorem execNetSvConfig_keeps (c : Cmd) (s : State) : Answers [.host, .mb, .tick, .net] s (execNetSvConfig c s) := by
  unfold execNetSvConfig
  extract_lets -lift +onlyGivenNames kind0
  clear_value kind0
  extract_lets -lift +onlyGivenNames st1
  clear_value st1
  extract_lets -lift +onlyGivenNames f2
  clear_value f2
  extract_lets -lift +onlyGivenNames i3
  clear_value i3
  extract_lets -lift +onlyGivenNames dmac4
  clear_value dmac4
  extract_lets -lift +onlyGivenNames svid5
  clear_value svid5
  extract_lets -lift +onlyGivenNames k6
  clear_value k6
  extract_lets -lift +onlyGivenNames par7
  clear_value par7
  extract_lets -lift +onlyGivenNames g8
  clear_value g8
  refine Answers.runCmd _ _ _ _ ?_ rfl
  intro a9
  split
  · try dsimp -zeta only
    exact Keeps.refl _ _
  · extract_lets -lift +onlyGivenNames s11
    have h_s11 : Keeps [.host, .mb, .tick, .net] a9 s11 := by
      refine Keeps.step (stage_keeps ..) rfl ?_
      refine Keeps.step (State.onNet_keeps ..) rfl ?_
      exact Keeps.refl _ _
    clear_value s11
    extract_lets -lift +onlyGivenNames n13
    clear_value n13
    try dsimp -zeta only [okReply]
    assumption

theorem execNetDmaStreamConfig_keeps (c : Cmd) (s : State) : Answers [.host, .mb, .net] s (execNetDmaStreamConfig c s) := by
  unfold execNetDmaStreamConfig
  extract_lets -lift +onlyGivenNames n0
  clear_value n0
  extract_lets -lift +onlyGivenNames sel1
  clear_value sel1
  extract_lets -lift +onlyGivenNames d2
  clear_value d2
  extract_lets -lift +onlyGivenNames g3
  clear_value g3
  refine Answers.runCmd _ _ _ _ ?_ rfl
  intro a4
  extract_lets -lift +onlyGivenNames o6
  clear_value o6
  extract_lets -lift +onlyGivenNames same8
  clear_value same8
  split
  · try dsimp -zeta only
    exact Keeps.refl _ _
  · extract_lets -lift +onlyGivenNames r10
    clear_value r10
    extract_lets -lift +onlyGivenNames ring12
    clear_value ring12
    try dsimp -zeta only [okReply]
    refine Keeps.step (dmaUpd_keeps ..) rfl ?_
    exact Keeps.refl _ _

theorem execNetStatus_keeps (c : Cmd) (s : State) : Answers [.host, .mb] s (execNetStatus c s) := by
  unfold execNetStatus
  extract_lets -lift +onlyGivenNames a0
  clear_value a0
  extract_lets -lift +onlyGivenNames g1
  clear_value g1
  refine Answers.runCmd _ _ _ _ ?_ rfl
  intro a2
  extract_lets -lift +onlyGivenNames x4
  clear_value x4
  extract_lets -lift +onlyGivenNames r6
  clear_value r6
  extract_lets -lift +onlyGivenNames sv8
  clear_value sv8
  extract_lets -lift +onlyGivenNames gs10
  clear_value gs10
  try dsimp -zeta only [okReply]
  refine ite_keeps _ _ _ ?_ ?_
  · intro a11
    exact Keeps.refl _ _
  · intro a12
    refine Keeps.step (putBuf_keeps ..) rfl ?_
    exact Keeps.refl _ _

theorem execEthLinkChange_keeps (port : Fin 4) (up : Bool) (s : State) : Answers [.power, .fault, .net] s (execEthLinkChange port up s) := by
  unfold execEthLinkChange
  extract_lets -lift +onlyGivenNames s0
  have h_s0 : Keeps [.power, .fault, .net] s s0 := by
    refine ite_keeps _ _ _ ?_ ?_
    · intro a1
      refine Keeps.step (State.onPower_keeps ..) rfl ?_
      exact Keeps.refl _ _
    · intro a2
      exact Keeps.refl _ _
  clear_value s0
  refine Answers.next ?_
  refine Keeps.step (linkChange_keeps ..) rfl ?_
  assumption

theorem execForeignFrameReceive_keeps (port : Fin 4) (s : State) : Answers [.net] s (execForeignFrameReceive port s) := by
  unfold execForeignFrameReceive
  refine Answers.ite _ _ _ ?_ ?_
  · intro a0
    refine Answers.next ?_
    refine Keeps.step (State.onNet_keeps ..) rfl ?_
    exact Keeps.refl _ _
  · intro a1
    refine Answers.next ?_
    exact Keeps.refl _ _

theorem execSvFrameReceive_keeps (port : Fin 4) (frame : SvFrame) (time : SvAt) (s : State) : Answers [.fault, .net, .spare] s (execSvFrameReceive port frame time s) := by
  unfold execSvFrameReceive
  refine Answers.ite _ _ _ ?_ ?_
  · intro a0
    refine Answers.next ?_
    exact Keeps.refl _ _
  · intro a1
    refine Answers.ite _ _ _ ?_ ?_
    · intro a2
      refine Answers.next ?_
      refine Keeps.step (State.onNet_keeps ..) rfl ?_
      exact Keeps.refl _ _
    · intro a3
      extract_lets -lift +onlyGivenNames hit4
      clear_value hit4
      extract_lets -lift +onlyGivenNames s5
      have h_s5 : Keeps [.fault, .net, .spare] s s5 := by
        refine foldl_keeps _ ?_ _ _ _ ?_
        · intro a6 a7
          refine foldl_keeps _ ?_ _ _ _ ?_
          · intro a8 a9
            refine Keeps.step (takeAsdu_keeps ..) rfl ?_
            exact Keeps.refl _ _
          · exact Keeps.refl _ _
        · exact Keeps.refl _ _
      clear_value s5
      refine Answers.next ?_
      refine ite_keeps _ _ _ ?_ ?_
      · intro a10
        assumption
      · intro a11
        refine Keeps.step (mapsSettle_keeps ..) rfl ?_
        assumption

theorem execSvStreamMiss_keeps (stream : Fin 16) (s : State) : Answers [.fault, .net] s (execSvStreamMiss stream s) := by
  unfold execSvStreamMiss
  refine Answers.ite _ _ _ ?_ ?_
  · intro a0
    refine Answers.next ?_
    exact Keeps.refl _ _
  · intro a1
    refine Answers.next ?_
    refine Keeps.step (streamNote_keeps ..) rfl ?_
    refine Keeps.step (svUpd_keeps ..) rfl ?_
    exact Keeps.refl _ _

theorem execGooseFrameReceive_keeps (port : Fin 4) (frame : GooseFrame) (now : Nat) (s : State) : Answers [.fault, .net] s (execGooseFrameReceive port frame now s) := by
  unfold execGooseFrameReceive
  refine Answers.ite _ _ _ ?_ ?_
  · intro a0
    refine Answers.next ?_
    exact Keeps.refl _ _
  · intro a1
    extract_lets -lift +onlyGivenNames hit2
    clear_value hit2
    refine Answers.next ?_
    refine foldl_keeps _ ?_ _ _ _ ?_
    · intro a3 a4
      refine Keeps.step (takeGoose_keeps ..) rfl ?_
      exact Keeps.refl _ _
    · exact Keeps.refl _ _

theorem execGooseStale_keeps (sub : Fin 64) (s : State) : Answers [.fault, .net] s (execGooseStale sub s) := by
  unfold execGooseStale
  refine Answers.ite _ _ _ ?_ ?_
  · intro a0
    refine Answers.next ?_
    exact Keeps.refl _ _
  · intro a1
    refine Answers.next ?_
    refine Keeps.step (netEvent_keeps ..) rfl ?_
    refine Keeps.step (subUpd_keeps ..) rfl ?_
    exact Keeps.refl _ _

theorem execGoosePublishSample_keeps (s : State) : Answers [.net] s (execGoosePublishSample s) := by
  unfold execGoosePublishSample
  refine Answers.next ?_
  refine foldl_keeps _ ?_ _ _ _ ?_
  · intro a0 a1
    refine Keeps.step (pubSample_keeps ..) rfl ?_
    exact Keeps.refl _ _
  · exact Keeps.refl _ _

theorem execGooseRetransmit_keeps (pub : Fin 16) (s : State) : Answers [.net] s (execGooseRetransmit pub s) := by
  unfold execGooseRetransmit
  extract_lets -lift +onlyGivenNames c0
  clear_value c0
  extract_lets -lift +onlyGivenNames r1
  clear_value r1
  refine Answers.ite _ _ _ ?_ ?_
  · intro a2
    refine Answers.next ?_
    exact Keeps.refl _ _
  · intro a3
    extract_lets -lift +onlyGivenNames next4
    clear_value next4
    refine Answers.next ?_
    refine Keeps.step (pubUpd_keeps ..) rfl ?_
    exact Keeps.refl _ _

theorem execDmaRecordWrite_keeps (stream : Fin 16) (s : State) : Answers [.host, .mb, .net] s (execDmaRecordWrite stream s) := by
  unfold execDmaRecordWrite
  extract_lets -lift +onlyGivenNames d0
  clear_value d0
  split
  · refine Answers.next ?_
    exact Keeps.refl _ _
  · extract_lets -lift +onlyGivenNames s1
    have h_s1 : Keeps [.host, .mb, .net] s s1 := by
      refine Keeps.step (putBuf_keeps ..) rfl ?_
      refine Keeps.step (putBuf_keeps ..) rfl ?_
      exact Keeps.refl _ _
    clear_value s1
    extract_lets -lift +onlyGivenNames s2
    have h_s2 : Keeps [.host, .mb, .net] s s2 := by
      refine Keeps.step (dmaUpd_keeps ..) rfl ?_
      assumption
    clear_value s2
    refine Answers.next ?_
    refine when_keeps _ _ _ _ ?_ ?_
    · assumption
    · refine Keeps.step (State.onMb_keeps _ _ (by exact id)) rfl ?_
      exact Keeps.refl _ _

theorem execDmaRecordDrop_keeps (stream : Fin 16) (s : State) : Answers [.fault, .net] s (execDmaRecordDrop stream s) := by
  unfold execDmaRecordDrop
  extract_lets -lift +onlyGivenNames d0
  clear_value d0
  split
  · refine Answers.next ?_
    exact Keeps.refl _ _
  · extract_lets -lift +onlyGivenNames first1
    clear_value first1
    extract_lets -lift +onlyGivenNames s2
    have h_s2 : Keeps [.fault, .net] s s2 := by
      refine Keeps.step (dmaUpd_keeps ..) rfl ?_
      exact Keeps.refl _ _
    clear_value s2
    refine Answers.next ?_
    refine when_keeps _ _ _ _ ?_ ?_
    · refine Keeps.step (State.onNet_keeps ..) rfl ?_
      assumption
    · refine Keeps.step (netEvent_keeps ..) rfl ?_
      exact Keeps.refl _ _

/-! ### Meas -/

theorem execMeasChannelConfig_keeps (c : Cmd) (s : State) : Answers [.host, .mb, .tick, .meas] s (execMeasChannelConfig c s) := by
  unfold execMeasChannelConfig
  extract_lets -lift +onlyGivenNames ch0
  clear_value ch0
  extract_lets -lift +onlyGivenNames k1
  clear_value k1
  extract_lets -lift +onlyGivenNames g2
  clear_value g2
  refine Answers.runCmd _ _ _ _ ?_ rfl
  intro a3
  extract_lets -lift +onlyGivenNames s5
  have h_s5 : Keeps [.host, .mb, .tick, .meas] a3 s5 := by
    refine Keeps.step (stage_keeps ..) rfl ?_
    refine Keeps.step (State.onMeas_keeps ..) rfl ?_
    exact Keeps.refl _ _
  clear_value s5
  try dsimp -zeta only [okReply]
  assumption

theorem execMeasSequenceConfig_keeps (c : Cmd) (s : State) : Answers [.host, .mb, .tick, .meas] s (execMeasSequenceConfig c s) := by
  unfold execMeasSequenceConfig
  extract_lets -lift +onlyGivenNames u0
  clear_value u0
  extract_lets -lift +onlyGivenNames first1
  clear_value first1
  extract_lets -lift +onlyGivenNames k2
  clear_value k2
  extract_lets -lift +onlyGivenNames k3
  clear_value k3
  extract_lets -lift +onlyGivenNames g4
  clear_value g4
  refine Answers.runCmd _ _ _ _ ?_ rfl
  intro a5
  try dsimp -zeta only [okReply]
  refine Keeps.step (stage_keeps ..) rfl ?_
  refine Keeps.step (State.onMeas_keeps ..) rfl ?_
  exact Keeps.refl _ _

theorem execMeasFilterConfig_keeps (c : Cmd) (s : State) : Answers [.host, .mb, .tick, .pwm, .meas] s (execMeasFilterConfig c s) := by
  unfold execMeasFilterConfig
  extract_lets -lift +onlyGivenNames ch0
  clear_value ch0
  extract_lets -lift +onlyGivenNames k1
  clear_value k1
  extract_lets -lift +onlyGivenNames lOk2
  clear_value lOk2
  extract_lets -lift +onlyGivenNames g3
  clear_value g3
  extract_lets -lift +onlyGivenNames sum4
  clear_value sum4
  refine Answers.runCmd _ _ _ _ ?_ rfl
  intro a5
  try dsimp -zeta only [okReply]
  refine Keeps.step (stage_keeps ..) rfl ?_
  refine Keeps.step (State.onMeas_keeps ..) rfl ?_
  exact Keeps.refl _ _

theorem execMeasRefSelect_keeps (c : Cmd) (s : State) : Answers [.host, .mb, .fault, .meas] s (execMeasRefSelect c s) := by
  unfold execMeasRefSelect
  extract_lets -lift +onlyGivenNames r0
  clear_value r0
  extract_lets -lift +onlyGivenNames v1
  clear_value v1
  extract_lets -lift +onlyGivenNames g2
  clear_value g2
  refine Answers.runCmd _ _ _ _ ?_ rfl
  intro a3
  extract_lets -lift +onlyGivenNames s5
  have h_s5 : Keeps [.host, .mb, .fault, .meas] a3 s5 := by
    refine Keeps.step (State.onMeas_keeps ..) rfl ?_
    exact Keeps.refl _ _
  clear_value s5
  split
  · try dsimp -zeta only [okReply]
    assumption
  · extract_lets -lift +onlyGivenNames s7
    have h_s7 : Keeps [.host, .mb, .fault, .meas] a3 s7 := by
      refine Keeps.step (State.onMeas_keeps ..) rfl ?_
      refine when_keeps _ _ _ _ ?_ ?_
      · assumption
      · refine Keeps.step (refFall_keeps ..) rfl ?_
        exact Keeps.refl _ _
    clear_value s7
    extract_lets -lift +onlyGivenNames own9
    clear_value own9
    try dsimp -zeta only
    refine Keeps.step (tookPending_keeps ..) rfl ?_
    refine Keeps.step (goPending_keeps ..) rfl ?_
    assumption

theorem execMeasCalibrate_keeps (c : Cmd) (s : State) : Answers [.host, .mb, .meas] s (execMeasCalibrate c s) := by
  unfold execMeasCalibrate
  extract_lets -lift +onlyGivenNames m0
  clear_value m0
  extract_lets -lift +onlyGivenNames us1
  clear_value us1
  extract_lets -lift +onlyGivenNames spareThere2
  clear_value spareThere2
  extract_lets -lift +onlyGivenNames g3
  clear_value g3
  refine Answers.runCmd _ _ _ _ ?_ rfl
  intro a4
  split
  · try dsimp -zeta only
    exact Keeps.refl _ _
  · extract_lets -lift +onlyGivenNames s6
    have h_s6 : Keeps [.host, .mb, .meas] a4 s6 := by
      refine Keeps.step (State.onMeas_keeps ..) rfl ?_
      exact Keeps.refl _ _
    clear_value s6
    extract_lets -lift +onlyGivenNames s8
    have h_s8 : Keeps [.host, .mb, .meas] a4 s8 := by
      refine foldl_keeps _ ?_ _ _ _ ?_
      · intro a9 a10
        refine Keeps.step (calAsk_keeps ..) rfl ?_
        exact Keeps.refl _ _
      · assumption
    clear_value s8
    try dsimp -zeta only
    refine Keeps.step (goPending_keeps ..) rfl ?_
    assumption

theorem execMeasDiagRun_keeps (c : Cmd) (s : State) : Answers [.host, .mb, .meas] s (execMeasDiagRun c s) := by
  unfold execMeasDiagRun
  extract_lets -lift +onlyGivenNames k0
  clear_value k0
  extract_lets -lift +onlyGivenNames o1
  clear_value o1
  extract_lets -lift +onlyGivenNames g2
  clear_value g2
  refine Answers.runCmd _ _ _ _ ?_ rfl
  intro a3
  extract_lets -lift +onlyGivenNames cfg5
  clear_value cfg5
  extract_lets -lift +onlyGivenNames q7
  clear_value q7
  split
  · try dsimp -zeta only
    exact Keeps.refl _ _
  · try dsimp -zeta only
    refine Keeps.step (goPending_keeps ..) rfl ?_
    refine Keeps.step (testAdd_keeps ..) rfl ?_
    exact Keeps.refl _ _

theorem execMeasStatus_keeps (c : Cmd) (s : State) : Answers [.host, .mb, .meas] s (execMeasStatus c s) := by
  unfold execMeasStatus
  extract_lets -lift +onlyGivenNames a0
  clear_value a0
  extract_lets -lift +onlyGivenNames g1
  clear_value g1
  refine Answers.runCmd _ _ _ _ ?_ rfl
  intro a2
  extract_lets -lift +onlyGivenNames m4
  clear_value m4
  extract_lets -lift +onlyGivenNames us6
  clear_value us6
  extract_lets -lift +onlyGivenNames x8
  clear_value x8
  extract_lets -lift +onlyGivenNames r10
  clear_value r10
  extract_lets -lift +onlyGivenNames s12
  have h_s12 : Keeps [.host, .mb, .meas] a2 s12 := by
    refine ite_keeps _ _ _ ?_ ?_
    · intro a13
      exact Keeps.refl _ _
    · intro a14
      refine Keeps.step (putBuf_keeps ..) rfl ?_
      exact Keeps.refl _ _
  clear_value s12
  try dsimp -zeta only [okReply]
  refine ite_keeps _ _ _ ?_ ?_
  · intro a15
    refine foldl_keeps _ ?_ _ _ _ ?_
    · intro a16 a17
      refine Keeps.step (unitUpd_keeps ..) rfl ?_
      exact Keeps.refl _ _
    · assumption
  · intro a18
    assumption

theorem execAdcConversionComplete_keeps (unit : Nat) (code : Int) (at_ : Nat) (s : State) : Answers [.fault, .meas, .spare] s (execAdcConversionComplete unit code at_ s) := by
  unfold execAdcConversionComplete
  extract_lets -lift +onlyGivenNames x0
  clear_value x0
  refine Answers.ite _ _ _ ?_ ?_
  · intro a1
    refine Answers.next ?_
    exact Keeps.refl _ _
  · intro a2
    refine Answers.next ?_
    refine Keeps.step (nextConv_keeps ..) rfl ?_
    refine Keeps.step (convResult_keeps ..) rfl ?_
    refine ite_keeps _ _ _ ?_ ?_
    · intro a3
      exact Keeps.refl _ _
    · intro a4
      refine Keeps.step (triggersCross_keeps ..) rfl ?_
      exact Keeps.refl _ _

theorem execInjectedTrigger_keeps (trig : InjTrigger) (s : State) : Answers [.fault, .meas, .spare] s (execInjectedTrigger trig s) := by
  unfold execInjectedTrigger
  extract_lets -lift +onlyGivenNames u0
  clear_value u0
  refine Answers.ite _ _ _ ?_ ?_
  · intro a1
    refine Answers.next ?_
    exact Keeps.refl _ _
  · intro a2
    extract_lets -lift +onlyGivenNames s3
    have h_s3 : Keeps [.fault, .meas, .spare] s s3 := by
      refine ite_keeps _ _ _ ?_ ?_
      · intro a4
        exact Keeps.refl _ _
      · intro a5
        refine Keeps.step (triggersCross_keeps ..) rfl ?_
        exact Keeps.refl _ _
    clear_value s3
    extract_lets -lift +onlyGivenNames idle6
    clear_value idle6
    extract_lets -lift +onlyGivenNames s7
    have h_s7 : Keeps [.fault, .meas, .spare] s s7 := by
      refine Keeps.step (cdcUpd_keeps ..) rfl ?_
      assumption
    clear_value s7
    refine Answers.next ?_
    refine ite_keeps _ _ _ ?_ ?_
    · intro a8
      refine Keeps.step (trigger_keeps ..) rfl ?_
      assumption
    · intro a9
      assumption

theorem execMeasurementSetLatch_keeps (at_ : Nat) (s : State) : Answers [.fault, .meas, .red] s (execMeasurementSetLatch at_ s) := by
  unfold execMeasurementSetLatch
  refine Answers.ite _ _ _ ?_ ?_
  · intro a0
    refine Answers.next ?_
    exact Keeps.refl _ _
  · intro a1
    extract_lets -lift +onlyGivenNames s2
    have h_s2 : Keeps [.fault, .meas, .red] s s2 := by
      refine Keeps.step (crossCheck_keeps ..) rfl ?_
      refine Keeps.step (crossCheck_keeps ..) rfl ?_
      exact Keeps.refl _ _
    clear_value s2
    extract_lets -lift +onlyGivenNames cs3
    clear_value cs3
    extract_lets -lift +onlyGivenNames set4
    clear_value set4
    extract_lets -lift +onlyGivenNames k5
    clear_value k5
    extract_lets -lift +onlyGivenNames msg6
    clear_value msg6
    refine Answers.next ?_
    refine when_keeps _ _ _ _ ?_ ?_
    · refine Keeps.step (State.onMeas_keeps ..) rfl ?_
      assumption
    · refine Keeps.step (xlSend_keeps ..) rfl ?_
      exact Keeps.refl _ _

theorem execRefMonitorCheck_keeps (inSettle : Bool) (inHold : Bool) (s : State) : Answers [.mb, .fault, .meas] s (execRefMonitorCheck inSettle inHold s) := by
  unfold execRefMonitorCheck
  refine Answers.ite _ _ _ ?_ ?_
  · intro a0
    refine Answers.next ?_
    exact Keeps.refl _ _
  · intro a1
    extract_lets -lift +onlyGivenNames i2
    clear_value i2
    extract_lets -lift +onlyGivenNames o3
    clear_value o3
    extract_lets -lift +onlyGivenNames s4
    have h_s4 : Keeps [.mb, .fault, .meas] s s4 := by
      refine Keeps.step (State.onMeas_keeps ..) rfl ?_
      exact Keeps.refl _ _
    clear_value s4
    refine Answers.ite _ _ _ ?_ ?_
    · intro a5
      refine Answers.ite _ _ _ ?_ ?_
      · intro a6
        refine Answers.next ?_
        refine Keeps.step (refFall_keeps ..) rfl ?_
        assumption
      · intro a7
        refine Answers.next ?_
        assumption
    · intro a8
      refine Answers.ite _ _ _ ?_ ?_
      · intro a9
        refine Answers.next ?_
        assumption
      · intro a10
        extract_lets -lift +onlyGivenNames us11
        clear_value us11
        extract_lets -lift +onlyGivenNames s12
        have h_s12 : Keeps [.mb, .fault, .meas] s s12 := by
          refine Keeps.step (measEvent_keeps ..) rfl ?_
          refine Keeps.step (State.onMeas_keeps ..) rfl ?_
          assumption
        clear_value s12
        extract_lets -lift +onlyGivenNames s13
        have h_s13 : Keeps [.mb, .fault, .meas] s s13 := by
          refine foldl_keeps _ ?_ _ _ _ ?_
          · intro a14 a15
            refine Keeps.step (calStart_keeps ..) rfl ?_
            exact Keeps.refl _ _
          · assumption
        clear_value s13
        refine Answers.next ?_
        refine ite_keeps _ _ _ ?_ ?_
        · intro a16
          refine Keeps.step (settleEnd_keeps ..) rfl ?_
          assumption
        · intro a17
          assumption

theorem execCalibrationComplete_keeps (unit : Nat) (offset : Int) (gain : Int) (s : State) : Answers [.dev, .mb, .fault, .tiles, .meas, .spare] s (execCalibrationComplete unit offset gain s) := by
  unfold execCalibrationComplete
  extract_lets -lift +onlyGivenNames x0
  clear_value x0
  refine Answers.ite _ _ _ ?_ ?_
  · intro a1
    refine Answers.next ?_
    refine Keeps.step (readmitCal_keeps ..) rfl ?_
    exact Keeps.refl _ _
  · intro a2
    extract_lets -lift +onlyGivenNames on3
    clear_value on3
    refine Answers.ite _ _ _ ?_ ?_
    · intro a4
      refine Answers.next ?_
      exact Keeps.refl _ _
    · intro a5
      extract_lets -lift +onlyGivenNames pass6
      clear_value pass6
      extract_lets -lift +onlyGivenNames covered7
      clear_value covered7
      extract_lets -lift +onlyGivenNames phys8
      clear_value phys8
      extract_lets -lift +onlyGivenNames s9
      have h_s9 : Keeps [.dev, .mb, .fault, .tiles, .meas, .spare] s s9 := by
        refine Keeps.step (measEvent_keeps ..) rfl ?_
        refine Keeps.step (State.onMeas_keeps ..) rfl ?_
        exact Keeps.refl _ _
      clear_value s9
      extract_lets -lift +onlyGivenNames z s10
      have h_z : Keeps [.dev, .mb, .fault, .tiles, .meas, .spare] s z := by
        refine Keeps.step (State.onMeas_keeps ..) rfl ?_
        refine Keeps.step (unitUpd_keeps ..) rfl ?_
        assumption
      clear_value z
      have h_s10 : Keeps [.dev, .mb, .fault, .tiles, .meas, .spare] s s10 := by
        refine ite_keeps _ _ _ ?_ ?_
        · intro a11
          refine Keeps.step (State.onMeas_keeps ..) rfl ?_
          assumption
        · intro a12
          refine ite_keeps _ _ _ ?_ ?_
          · intro a14
            refine Keeps.step (convResume_keeps ..) rfl ?_
            assumption
          · intro a15
            assumption
      clear_value s10
      extract_lets -lift +onlyGivenNames mine16
      clear_value mine16
      extract_lets -lift +onlyGivenNames s17
      have h_s17 : Keeps [.dev, .mb, .fault, .tiles, .meas, .spare] s s17 := by
        refine Keeps.step (State.onMeas_keeps ..) rfl ?_
        assumption
      clear_value s17
      extract_lets -lift +onlyGivenNames s18
      have h_s18 : Keeps [.dev, .mb, .fault, .tiles, .meas, .spare] s s18 := by
        refine Keeps.step (calNext_keeps ..) rfl ?_
        refine Keeps.step (settleLeave_keeps ..) rfl ?_
        refine Keeps.step (jobsEnd_keeps ..) rfl ?_
        assumption
      clear_value s18
      refine Answers.next ?_
      refine Keeps.step (testStart_keeps ..) rfl ?_
      refine when_keeps _ _ _ _ ?_ ?_
      · assumption
      · refine Keeps.step (unitLost_keeps ..) rfl ?_
        exact Keeps.refl _ _

theorem execAutoCalibration_keeps (s : State) : Answers [.fault, .meas] s (execAutoCalibration s) := by
  unfold execAutoCalibration
  extract_lets -lift +onlyGivenNames u0
  clear_value u0
  refine Answers.ite _ _ _ ?_ ?_
  · intro a1
    refine Answers.next ?_
    exact Keeps.refl _ _
  · intro a2
    extract_lets -lift +onlyGivenNames s3
    have h_s3 : Keeps [.fault, .meas] s s3 := by
      refine Keeps.step (State.onMeas_keeps ..) rfl ?_
      exact Keeps.refl _ _
    clear_value s3
    refine Answers.ite _ _ _ ?_ ?_
    · intro a4
      refine Answers.ite _ _ _ ?_ ?_
      · intro a5
        refine Answers.next ?_
        refine Keeps.step (calStart_keeps ..) rfl ?_
        assumption
      · intro a6
        refine Answers.next ?_
        assumption
    · intro a7
      refine Answers.ite _ _ _ ?_ ?_
      · intro a8
        refine Answers.next ?_
        assumption
      · intro a9
        refine Answers.ite _ _ _ ?_ ?_
        · intro a10
          refine Answers.next ?_
          refine Keeps.step (measEvent_keeps ..) rfl ?_
          assumption
        · intro a11
          refine Answers.next ?_
          refine Keeps.step (calAsk_keeps ..) rfl ?_
          assumption

theorem execLevelTestComplete_keeps (m1 : Int) (m3 : Int) (s : State) : Answers [.dev, .mb, .fault, .tiles, .meas, .spare] s (execLevelTestComplete m1 m3 s) := by
  unfold execLevelTestComplete
  split
  · refine Answers.ite _ _ _ ?_ ?_
    · intro a0
      refine Answers.next ?_
      exact Keeps.refl _ _
    · intro a1
      extract_lets -lift +onlyGivenNames pass2
      clear_value pass2
      extract_lets -lift +onlyGivenNames s3
      have h_s3 : Keeps [.dev, .mb, .fault, .tiles, .meas, .spare] s s3 := by
        refine when_keeps _ _ _ _ ?_ ?_
        · exact Keeps.refl _ _
        · refine Keeps.step (measEvent_keeps ..) rfl ?_
          refine Keeps.step (State.onMeas_keeps ..) rfl ?_
          exact Keeps.refl _ _
      clear_value s3
      extract_lets -lift +onlyGivenNames s4
      have h_s4 : Keeps [.dev, .mb, .fault, .tiles, .meas, .spare] s s4 := by
        dsimp -zeta only [s4]
        split
        · extract_lets -lift +onlyGivenNames n5
          clear_value n5
          refine ite_keeps _ _ _ ?_ ?_
          · intro a6
            assumption
          · intro a7
            extract_lets -lift +onlyGivenNames s8
            have h_s8 : Keeps [.dev, .mb, .fault, .tiles, .meas, .spare] s s8 := by
              refine Keeps.step (mPairUpd_keeps ..) rfl ?_
              assumption
            clear_value s8
            refine ite_keeps _ _ _ ?_ ?_
            · intro a9
              refine Keeps.step (measEvent_keeps ..) rfl ?_
              assumption
            · intro a10
              assumption
        · refine Keeps.step (testFinal_keeps ..) rfl ?_
          assumption
      clear_value s4
      extract_lets -lift +onlyGivenNames s11
      have h_s11 : Keeps [.dev, .mb, .fault, .tiles, .meas, .spare] s s11 := by
        refine Keeps.step (testPop_keeps ..) rfl ?_
        assumption
      clear_value s11
      refine Answers.next ?_
      refine ite_keeps _ _ _ ?_ ?_
      · intro a12
        refine Keeps.step (readmitEnd_keeps ..) rfl ?_
        assumption
      · intro a13
        refine when_keeps _ _ _ _ ?_ ?_
        · assumption
        · refine Keeps.step (unitLost_keeps ..) rfl ?_
          exact Keeps.refl _ _
  · refine Answers.next ?_
    exact Keeps.refl _ _

theorem execAutoLevelTest_keeps (s : State) : Answers [.meas] s (execAutoLevelTest s) := by
  unfold execAutoLevelTest
  extract_lets -lift +onlyGivenNames u0
  clear_value u0
  refine Answers.ite _ _ _ ?_ ?_
  · intro a1
    refine Answers.next ?_
    exact Keeps.refl _ _
  · intro a2
    extract_lets -lift +onlyGivenNames s3
    have h_s3 : Keeps [.meas] s s3 := by
      refine Keeps.step (State.onMeas_keeps ..) rfl ?_
      exact Keeps.refl _ _
    clear_value s3
    extract_lets -lift +onlyGivenNames there4
    clear_value there4
    refine Answers.ite _ _ _ ?_ ?_
    · intro a5
      refine Answers.next ?_
      refine Keeps.step (testAdd_keeps ..) rfl ?_
      assumption
    · intro a6
      refine Answers.next ?_
      assumption

theorem execPathTestComplete_keeps (m1 : Int) (m3 : Int) (s : State) : Answers [.mb, .fault, .meas] s (execPathTestComplete m1 m3 s) := by
  unfold execPathTestComplete
  split
  · refine Answers.ite _ _ _ ?_ ?_
    · intro a0
      refine Answers.next ?_
      exact Keeps.refl _ _
    · intro a1
      extract_lets -lift +onlyGivenNames cfg2
      clear_value cfg2
      extract_lets -lift +onlyGivenNames d3
      clear_value d3
      extract_lets -lift +onlyGivenNames pass4
      clear_value pass4
      extract_lets -lift +onlyGivenNames s5
      have h_s5 : Keeps [.mb, .fault, .meas] s s5 := by
        refine when_keeps _ _ _ _ ?_ ?_
        · exact Keeps.refl _ _
        · refine Keeps.step (measEvent_keeps ..) rfl ?_
          exact Keeps.refl _ _
      clear_value s5
      refine Answers.next ?_
      refine Keeps.step (testPop_keeps ..) rfl ?_
      refine Keeps.step (testFinal_keeps ..) rfl ?_
      assumption
  · refine Answers.next ?_
    exact Keeps.refl _ _

theorem execUnitFail_keeps (unit : Nat) (cause : Nat) (s : State) : Answers [.dev, .mb, .fault, .meas, .spare] s (execUnitFail unit cause s) := by
  unfold execUnitFail
  refine Answers.next ?_
  refine Keeps.step (unitLost_keeps ..) rfl ?_
  exact Keeps.refl _ _

theorem execRefSelectTimeout_keeps (s : State) : Answers [.mb] s (execRefSelectTimeout s) := by
  unfold execRefSelectTimeout
  refine Answers.ite _ _ _ ?_ ?_
  · intro a0
    refine Answers.next ?_
    exact Keeps.refl _ _
  · intro a1
    refine Answers.next ?_
    refine Keeps.step (endPending_keeps ..) rfl ?_
    exact Keeps.refl _ _

/-! ### Cdc -/

theorem execCdcStall_keeps (die : Nat) (code : Nat) (inst : Nat) (ns : Nat) (s : State) : Answers [.fault, .spare] s (execCdcStall die code inst ns s) := by
  unfold execCdcStall
  extract_lets -lift +onlyGivenNames x0
  clear_value x0
  refine Answers.ite _ _ _ ?_ ?_
  · intro a1
    refine Answers.next ?_
    exact Keeps.refl _ _
  · intro a2
    refine Answers.next ?_
    refine Keeps.step (raise_keeps ..) rfl ?_
    refine Keeps.step (cdcUpd_keeps ..) rfl ?_
    exact Keeps.refl _ _

theorem execCdcUnstable_keeps (die : Nat) (code : Nat) (inst : Nat) (pairs : Nat) (s : State) : Answers [.fault, .spare] s (execCdcUnstable die code inst pairs s) := by
  unfold execCdcUnstable
  refine Answers.ite _ _ _ ?_ ?_
  · intro a0
    refine Answers.next ?_
    exact Keeps.refl _ _
  · intro a1
    refine Answers.ite _ _ _ ?_ ?_
    · intro a2
      refine Answers.next ?_
      refine Keeps.step (cdcUpd_keeps ..) rfl ?_
      exact Keeps.refl _ _
    · intro a3
      refine Answers.ite _ _ _ ?_ ?_
      · intro a4
        refine Answers.next ?_
        exact Keeps.refl _ _
      · intro a5
        refine Answers.next ?_
        refine Keeps.step (raise_keeps ..) rfl ?_
        refine Keeps.step (cdcUpd_keeps ..) rfl ?_
        exact Keeps.refl _ _

/-! ### Disp -/

theorem execDispFlowConfig_keeps (c : Cmd) (s : State) : Answers [.host, .mb, .tick, .tiles] s (execDispFlowConfig c s) := by
  unfold execDispFlowConfig
  extract_lets -lift +onlyGivenNames d0
  clear_value d0
  extract_lets -lift +onlyGivenNames n1
  clear_value n1
  extract_lets -lift +onlyGivenNames f2
  clear_value f2
  extract_lets -lift +onlyGivenNames g3
  clear_value g3
  refine Answers.runCmd _ _ _ _ ?_ rfl
  intro a4
  split
  · try dsimp -zeta only
    exact Keeps.refl _ _
  · extract_lets -lift +onlyGivenNames s6
    have h_s6 : Keeps [.host, .mb, .tick, .tiles] a4 s6 := by
      refine Keeps.step (stage_keeps ..) rfl ?_
      refine Keeps.step (dieUpd_keeps ..) rfl ?_
      exact Keeps.refl _ _
    clear_value s6
    extract_lets -lift +onlyGivenNames all8
    clear_value all8
    extract_lets -lift +onlyGivenNames res10
    clear_value res10
    split
    · try dsimp -zeta only
      exact Keeps.refl _ _
    · try dsimp -zeta only [okReply]
      assumption

theorem execDispClassConfig_keeps (c : Cmd) (s : State) : Answers [.host, .mb, .tick, .tiles] s (execDispClassConfig c s) := by
  unfold execDispClassConfig
  extract_lets -lift +onlyGivenNames n0
  clear_value n0
  extract_lets -lift +onlyGivenNames k1
  clear_value k1
  extract_lets -lift +onlyGivenNames g2
  clear_value g2
  refine Answers.runCmd _ _ _ _ ?_ rfl
  intro a3
  try dsimp -zeta only [okReply]
  refine Keeps.step (stage_keeps ..) rfl ?_
  refine Keeps.step (State.onTiles_keeps ..) rfl ?_
  exact Keeps.refl _ _

theorem execDispCancel_keeps (c : Cmd) (s : State) : Answers [.host, .mb, .tiles] s (execDispCancel c s) := by
  unfold execDispCancel
  extract_lets -lift +onlyGivenNames d0
  clear_value d0
  extract_lets -lift +onlyGivenNames f1
  clear_value f1
  extract_lets -lift +onlyGivenNames sc2
  clear_value sc2
  extract_lets -lift +onlyGivenNames arg3
  clear_value arg3
  extract_lets -lift +onlyGivenNames g4
  clear_value g4
  refine Answers.runCmd _ _ _ _ ?_ rfl
  intro a5
  split
  · try dsimp -zeta only
    exact Keeps.refl _ _
  · try dsimp -zeta only
    refine Keeps.step (goPending_keeps ..) rfl ?_
    refine Keeps.step (dieUpd_keeps ..) rfl ?_
    exact Keeps.refl _ _

theorem execDispStatsRead_keeps (c : Cmd) (s : State) : Answers [.host, .mb] s (execDispStatsRead c s) := by
  unfold execDispStatsRead
  extract_lets -lift +onlyGivenNames d0
  clear_value d0
  extract_lets -lift +onlyGivenNames k1
  clear_value k1
  extract_lets -lift +onlyGivenNames a2
  clear_value a2
  extract_lets -lift +onlyGivenNames g3
  clear_value g3
  refine Answers.runCmd _ _ _ _ ?_ rfl
  intro a4
  extract_lets -lift +onlyGivenNames x6
  clear_value x6
  extract_lets -lift +onlyGivenNames n8
  clear_value n8
  extract_lets -lift +onlyGivenNames one10
  clear_value one10
  extract_lets -lift +onlyGivenNames s12
  have h_s12 : Keeps [.host, .mb] a4 s12 := by
    refine ite_keeps _ _ _ ?_ ?_
    · intro a13
      exact Keeps.refl _ _
    · intro a14
      refine Keeps.step (putBuf_keeps ..) rfl ?_
      exact Keeps.refl _ _
  clear_value s12
  try dsimp -zeta only [okReply]
  assumption

theorem execItemStart_keeps (die : Nat) (wait : Nat) (s : State) : Answers [.tiles] s (execItemStart die wait s) := by
  unfold execItemStart
  split
  · refine Answers.next ?_
    refine Keeps.step (itemStart_keeps ..) rfl ?_
    exact Keeps.refl _ _
  · refine Answers.next ?_
    exact Keeps.refl _ _

theorem execItemRelease_keeps (die : Nat) (item : FlowAt) (s : State) : Answers [.tick, .fault, .tiles, .galley] s (execItemRelease die item s) := by
  unfold execItemRelease
  split
  · refine Answers.next ?_
    refine Keeps.step (itemRelease_keeps ..) rfl ?_
    exact Keeps.refl _ _
  · refine Answers.next ?_
    exact Keeps.refl _ _

theorem execItemTimeout_keeps (die : Nat) (flow : Nat) (seq : Nat) (s : State) : Answers [.fault, .tiles, .galley] s (execItemTimeout die flow seq s) := by
  unfold execItemTimeout
  split
  · refine Answers.ite _ _ _ ?_ ?_
    · intro a0
      refine Answers.next ?_
      refine Keeps.step (itemTimeout_keeps ..) rfl ?_
      exact Keeps.refl _ _
    · intro a1
      refine Answers.next ?_
      exact Keeps.refl _ _
  · refine Answers.next ?_
    exact Keeps.refl _ _

theorem execDispCancelAct_keeps (die : Nat) (s : State) : Answers [.mb, .fault, .tiles] s (execDispCancelAct die s) := by
  unfold execDispCancelAct
  extract_lets -lift +onlyGivenNames due0
  clear_value due0
  extract_lets -lift +onlyGivenNames ks1
  clear_value ks1
  refine Answers.next ?_
  refine foldl_keeps _ ?_ _ _ _ ?_
  · intro a2 a3
    refine Keeps.step (cancelAct_keeps ..) rfl ?_
    exact Keeps.refl _ _
  · refine Keeps.step (dieUpd_keeps ..) rfl ?_
    exact Keeps.refl _ _

theorem execShedLevelFall_keeps (die : Nat) (s : State) : Answers [.fault, .tiles, .galley] s (execShedLevelFall die s) := by
  unfold execShedLevelFall
  refine Answers.next ?_
  refine Keeps.step (shedFall_keeps ..) rfl ?_
  exact Keeps.refl _ _

theorem execPortAgeExpiry_keeps (die : Nat) (port : Nat) (s : State) : Answers [.fault, .tiles] s (execPortAgeExpiry die port s) := by
  unfold execPortAgeExpiry
  extract_lets -lift +onlyGivenNames p0
  clear_value p0
  split
  · extract_lets -lift +onlyGivenNames age1
    clear_value age1
    refine Answers.ite _ _ _ ?_ ?_
    · intro a2
      refine Answers.next ?_
      refine Keeps.step (portsInvalid_keeps ..) rfl ?_
      exact Keeps.refl _ _
    · intro a3
      refine Answers.next ?_
      exact Keeps.refl _ _
  · refine Answers.next ?_
    exact Keeps.refl _ _

/-! ### Link -/

theorem execCellPortUp_keeps (c : Cmd) (s : State) : Answers [.host, .mb, .fault, .link] s (execCellPortUp c s) := by
  unfold execCellPortUp
  extract_lets -lift +onlyGivenNames p0
  clear_value p0
  extract_lets -lift +onlyGivenNames trims1
  clear_value trims1
  extract_lets -lift +onlyGivenNames a2
  clear_value a2
  extract_lets -lift +onlyGivenNames fits3
  clear_value fits3
  extract_lets -lift +onlyGivenNames g4
  clear_value g4
  refine Answers.runCmd _ _ _ _ ?_ rfl
  intro a5
  extract_lets -lift +onlyGivenNames st7
  clear_value st7
  split
  · try dsimp -zeta only
    refine Keeps.step (goPending_keeps ..) rfl ?_
    refine Keeps.step (portWake_keeps ..) rfl ?_
    exact Keeps.refl _ _
  · split
    · try dsimp -zeta only
      exact Keeps.refl _ _
    · extract_lets -lift +onlyGivenNames s9
      have h_s9 : Keeps [.host, .mb, .fault, .link] a5 s9 := by
        refine Keeps.step (portStart_keeps ..) rfl ?_
        refine Keeps.step (portUpd_keeps ..) rfl ?_
        exact Keeps.refl _ _
      clear_value s9
      try dsimp -zeta only
      refine Keeps.step (goPending_keeps ..) rfl ?_
      assumption

theorem execCellPortDown_keeps (c : Cmd) (s : State) : Answers [.host, .mb, .fault, .link] s (execCellPortDown c s) := by
  unfold execCellPortDown
  extract_lets -lift +onlyGivenNames p0
  clear_value p0
  extract_lets -lift +onlyGivenNames depth1
  clear_value depth1
  extract_lets -lift +onlyGivenNames g2
  clear_value g2
  refine Answers.runCmd _ _ _ _ ?_ rfl
  intro a3
  extract_lets -lift +onlyGivenNames st5
  clear_value st5
  split
  · try dsimp -zeta only
    exact Keeps.refl _ _
  · split
    · try dsimp -zeta only [okReply]
      refine Keeps.step (portDown_keeps ..) rfl ?_
      exact Keeps.refl _ _
    · split
      · try dsimp -zeta only
        exact Keeps.refl _ _
      · extract_lets -lift +onlyGivenNames new7
        clear_value new7
        try dsimp -zeta only [okReply]
        refine Keeps.step (setPortState_keeps ..) rfl ?_
        refine Keeps.step (sendMsg_keeps ..) rfl ?_
        exact Keeps.refl _ _

theorem execCellRangeRead_keeps (c : Cmd) (s : State) : Answers [.host, .mb] s (execCellRangeRead c s) := by
  unfold execCellRangeRead
  extract_lets -lift +onlyGivenNames p0
  clear_value p0
  extract_lets -lift +onlyGivenNames g1
  clear_value g1
  refine Answers.runCmd _ _ _ _ ?_ rfl
  intro a2
  extract_lets -lift +onlyGivenNames po4
  clear_value po4
  extract_lets -lift +onlyGivenNames cs6
  clear_value cs6
  extract_lets -lift +onlyGivenNames s8
  have h_s8 : Keeps [.host, .mb] a2 s8 := by
    refine ite_keeps _ _ _ ?_ ?_
    · intro a9
      exact Keeps.refl _ _
    · intro a10
      refine Keeps.step (putBuf_keeps ..) rfl ?_
      exact Keeps.refl _ _
  clear_value s8
  try dsimp -zeta only [okReply]
  assumption

theorem execCellPortRemap_keeps (c : Cmd) (s : State) : Answers [.host, .dev, .mb, .fault, .link, .spare] s (execCellPortRemap c s) := by
  unfold execCellPortRemap
  extract_lets -lift +onlyGivenNames p0
  clear_value p0
  extract_lets -lift +onlyGivenNames kind1
  clear_value kind1
  extract_lets -lift +onlyGivenNames g2
  clear_value g2
  refine Answers.runCmd _ _ _ _ ?_ rfl
  intro a3
  extract_lets -lift +onlyGivenNames po5
  clear_value po5
  extract_lets -lift +onlyGivenNames hostRemap7
  split
  · try dsimp -zeta only
    exact Keeps.refl _ _
  · split
    · try dsimp -zeta only
      exact Keeps.refl _ _
    · split
      · try dsimp -zeta only
        refine Keeps.step (goPending_keeps ..) rfl ?_
        try dsimp -zeta only [hostRemap7]
        refine Keeps.step (capsUpdate_keeps ..) rfl ?_
        refine Keeps.step (resUpd_keeps ..) rfl ?_
        refine Keeps.step (portUpd_keeps ..) rfl ?_
        exact Keeps.refl _ _
      · extract_lets -lift +onlyGivenNames s9
        have h_s9 : Keeps [.host, .dev, .mb, .fault, .link, .spare] a3 s9 := by
          refine foldl_keeps _ ?_ _ _ _ ?_
          · intro a10 a11
            refine ite_keeps _ _ _ ?_ ?_
            · intro a12
              refine Keeps.step (setHealth_keeps ..) rfl ?_
              exact Keeps.refl _ _
            · intro a13
              exact Keeps.refl _ _
          · exact Keeps.refl _ _
        clear_value s9
        try dsimp -zeta only
        refine Keeps.step (goPending_keeps ..) rfl ?_
        refine Keeps.step (portStart_keeps ..) rfl ?_
        refine Keeps.step (capsUpdate_keeps ..) rfl ?_
        refine Keeps.step (portSpareIn_keeps ..) rfl ?_
        try dsimp -zeta only [hostRemap7]
        refine Keeps.step (capsUpdate_keeps ..) rfl ?_
        refine Keeps.step (resUpd_keeps ..) rfl ?_
        refine Keeps.step (portUpd_keeps ..) rfl ?_
        assumption

theorem execCellRosterLoad_keeps (c : Cmd) (s : State) : Answers [.host, .mb, .fault, .link, .aie] s (execCellRosterLoad c s) := by
  unfold execCellRosterLoad
  extract_lets -lift +onlyGivenNames q0
  clear_value q0
  extract_lets -lift +onlyGivenNames mode1
  clear_value mode1
  extract_lets -lift +onlyGivenNames mask2
  clear_value mask2
  extract_lets -lift +onlyGivenNames n3
  clear_value n3
  extract_lets -lift +onlyGivenNames new4
  clear_value new4
  extract_lets -lift +onlyGivenNames ports5
  clear_value ports5
  extract_lets -lift +onlyGivenNames kept6
  clear_value kept6
  extract_lets -lift +onlyGivenNames absent7
  clear_value absent7
  extract_lets -lift +onlyGivenNames bad8
  clear_value bad8
  extract_lets -lift +onlyGivenNames idx9
  clear_value idx9
  extract_lets -lift +onlyGivenNames info10
  clear_value info10
  extract_lets -lift +onlyGivenNames g11
  clear_value g11
  refine Answers.runCmd _ _ _ _ ?_ rfl
  intro a12
  extract_lets -lift +onlyGivenNames all14
  clear_value all14
  extract_lets -lift +onlyGivenNames down16
  clear_value down16
  split
  · try dsimp -zeta only
    exact Keeps.refl _ _
  · split
    · try dsimp -zeta only
      exact Keeps.refl _ _
    · extract_lets -lift +onlyGivenNames s18
      have h_s18 : Keeps [.host, .mb, .fault, .link, .aie] a12 s18 := by
        refine Keeps.step (rosterInstall_keeps ..) rfl ?_
        exact Keeps.refl _ _
      clear_value s18
      try dsimp -zeta only [okReply]
      assumption

theorem execCellRosterRead_keeps (c : Cmd) (s : State) : Answers [.host, .mb] s (execCellRosterRead c s) := by
  unfold execCellRosterRead
  extract_lets -lift +onlyGivenNames first0
  clear_value first0
  extract_lets -lift +onlyGivenNames n1
  clear_value n1
  extract_lets -lift +onlyGivenNames g2
  clear_value g2
  extract_lets -lift +onlyGivenNames entry3
  clear_value entry3
  refine Answers.runCmd _ _ _ _ ?_ rfl
  intro a4
  try dsimp -zeta only [okReply]
  refine Keeps.step (putBuf_keeps ..) rfl ?_
  exact Keeps.refl _ _

theorem execCellHealthSet_keeps (c : Cmd) (s : State) : Answers [.host, .mb, .link] s (execCellHealthSet c s) := by
  unfold execCellHealthSet
  extract_lets -lift +onlyGivenNames cid0
  clear_value cid0
  extract_lets -lift +onlyGivenNames act1
  clear_value act1
  extract_lets -lift +onlyGivenNames b2
  clear_value b2
  extract_lets -lift +onlyGivenNames g3
  clear_value g3
  refine Answers.runCmd _ _ _ _ ?_ rfl
  intro a4
  extract_lets -lift +onlyGivenNames x6
  clear_value x6
  split
  · try dsimp -zeta only
    exact Keeps.refl _ _
  · extract_lets -lift +onlyGivenNames s8
    have h_s8 : Keeps [.host, .mb, .link] a4 s8 := by
      refine Keeps.step (State.onLink_keeps ..) rfl ?_
      exact Keeps.refl _ _
    clear_value s8
    extract_lets -lift +onlyGivenNames s10
    have h_s10 : Keeps [.host, .mb, .link] a4 s10 := by
      refine when_keeps _ _ _ _ ?_ ?_
      · assumption
      · refine Keeps.step (portUpd_keeps ..) rfl ?_
        exact Keeps.refl _ _
    clear_value s10
    try dsimp -zeta only
    refine Keeps.step (goPending_keeps ..) rfl ?_
    assumption

theorem execCellContextRead_keeps (c : Cmd) (s : State) : Answers [.host, .mb] s (execCellContextRead c s) := by
  unfold execCellContextRead
  extract_lets -lift +onlyGivenNames first0
  clear_value first0
  extract_lets -lift +onlyGivenNames n1
  clear_value n1
  extract_lets -lift +onlyGivenNames cids2
  clear_value cids2
  extract_lets -lift +onlyGivenNames g3
  clear_value g3
  refine Answers.runCmd _ _ _ _ ?_ rfl
  intro a4
  extract_lets -lift +onlyGivenNames xs6
  clear_value xs6
  extract_lets -lift +onlyGivenNames use8
  clear_value use8
  try dsimp -zeta only [okReply]
  refine Keeps.step (putBuf_keeps ..) rfl ?_
  exact Keeps.refl _ _

theorem execCellSafeStateSet_keeps (c : Cmd) (s : State) : Answers [.host, .mb, .tick, .link] s (execCellSafeStateSet c s) := by
  unfold execCellSafeStateSet
  extract_lets -lift +onlyGivenNames first0
  clear_value first0
  extract_lets -lift +onlyGivenNames n1
  clear_value n1
  extract_lets -lift +onlyGivenNames sel2
  clear_value sel2
  extract_lets -lift +onlyGivenNames cids3
  clear_value cids3
  extract_lets -lift +onlyGivenNames g4
  clear_value g4
  refine Answers.runCmd _ _ _ _ ?_ rfl
  intro a5
  extract_lets -lift +onlyGivenNames xs7
  clear_value xs7
  split
  · try dsimp -zeta only
    exact Keeps.refl _ _
  · try dsimp -zeta only [okReply]
    refine Keeps.step (stage_keeps ..) rfl ?_
    refine foldl_keeps _ ?_ _ _ _ ?_
    · intro a8 a9
      refine Keeps.step (cellUpd_keeps ..) rfl ?_
      exact Keeps.refl _ _
    · exact Keeps.refl _ _

theorem execBlockRequestSend_keeps (cause : Byte) (s : State) : Answers [.link] s (execBlockRequestSend cause s) := by
  unfold execBlockRequestSend
  refine Answers.next ?_
  refine Keeps.step (blockPorts_keeps ..) rfl ?_
  exact Keeps.refl _ _

theorem execSafeRequestSend_keeps (cause : Byte) (s : State) : Answers [.link] s (execSafeRequestSend cause s) := by
  unfold execSafeRequestSend
  refine Answers.next ?_
  refine Keeps.step (safePorts_keeps ..) rfl ?_
  exact Keeps.refl _ _

theorem execTimeSetSend_keeps (port : Nat) (s : State) : Answers [.fault, .link] s (execTimeSetSend port s) := by
  unfold execTimeSetSend
  refine Answers.ite _ _ _ ?_ ?_
  · intro a0
    refine Answers.next ?_
    refine Keeps.step (sendTimeSet_keeps ..) rfl ?_
    exact Keeps.refl _ _
  · intro a1
    refine Answers.next ?_
    exact Keeps.refl _ _

theorem execPortStartingDone_keeps (port : Nat) (s : State) : Answers [.fault, .link] s (execPortStartingDone port s) := by
  unfold execPortStartingDone
  extract_lets -lift +onlyGivenNames x0
  clear_value x0
  refine Answers.ite _ _ _ ?_ ?_
  · intro a1
    refine Answers.next ?_
    exact Keeps.refl _ _
  · intro a2
    extract_lets -lift +onlyGivenNames s3
    have h_s3 : Keeps [.fault, .link] s s3 := by
      refine Keeps.step (sendTimeSet_keeps ..) rfl ?_
      refine Keeps.step (setPortState_keeps ..) rfl ?_
      exact Keeps.refl _ _
    clear_value s3
    refine Answers.next ?_
    unfold Option.elim
    split
    · try dsimp -zeta only
      refine Keeps.step (startRun_keeps ..) rfl ?_
      assumption
    · assumption

theorem execRangeMeasurementJudge_keeps (port : Nat) (reply : Option RangeReply) (s : State) : Answers [.fault, .link] s (execRangeMeasurementJudge port reply s) := by
  unfold execRangeMeasurementJudge
  split
  · refine Answers.next ?_
    exact Keeps.refl _ _
  · split
    · refine Answers.next ?_
      exact Keeps.refl _ _
    · refine Answers.ite _ _ _ ?_ ?_
      · intro a0
        refine Answers.next ?_
        exact Keeps.refl _ _
      · intro a1
        extract_lets -lift +onlyGivenNames cid2
        clear_value cid2
        extract_lets -lift +onlyGivenNames r3
        clear_value r3
        split
        · refine Answers.next ?_
          refine Keeps.step (measured_keeps ..) rfl ?_
          exact Keeps.refl _ _
        · refine Answers.ite _ _ _ ?_ ?_
          · intro a4
            refine Answers.next ?_
            refine Keeps.step (rangedNot_keeps ..) rfl ?_
            refine Keeps.step (cellUpd_keeps ..) rfl ?_
            exact Keeps.refl _ _
          · intro a5
            refine Answers.next ?_
            refine Keeps.step (measured_keeps ..) rfl ?_
            refine Keeps.step (cellUpd_keeps ..) rfl ?_
            exact Keeps.refl _ _

theorem execPortVerifyEnter_keeps (port : Nat) (s : State) : Answers [.fault, .link] s (execPortVerifyEnter port s) := by
  unfold execPortVerifyEnter
  extract_lets -lift +onlyGivenNames p0
  clear_value p0
  refine Answers.ite _ _ _ ?_ ?_
  · intro a1
    refine Answers.next ?_
    refine Keeps.step (setPortState_keeps ..) rfl ?_
    refine foldl_keeps _ ?_ _ _ _ ?_
    · intro a2 a3
      refine Keeps.step (cellUpd_keeps ..) rfl ?_
      exact Keeps.refl _ _
    · exact Keeps.refl _ _
  · intro a4
    refine Answers.next ?_
    exact Keeps.refl _ _

theorem execPortInService_keeps (port : Nat) (s : State) : Answers [.mb, .fault, .link] s (execPortInService port s) := by
  unfold execPortInService
  extract_lets -lift +onlyGivenNames p0
  clear_value p0
  extract_lets -lift +onlyGivenNames short1
  clear_value short1
  refine Answers.ite _ _ _ ?_ ?_
  · intro a2
    refine Answers.next ?_
    refine Keeps.step (inService_keeps ..) rfl ?_
    refine foldl_keeps _ ?_ _ _ _ ?_
    · intro a3 a4
      refine Keeps.step (unreachable_keeps ..) rfl ?_
      exact Keeps.refl _ _
    · exact Keeps.refl _ _
  · intro a5
    refine Answers.next ?_
    exact Keeps.refl _ _

theorem execUpstreamBurstReceive_keeps (port : Nat) (slot : Nat) (burst : BurstIn) (s : State) : Answers [.fault, .link] s (execUpstreamBurstReceive port slot burst s) := by
  unfold execUpstreamBurstReceive
  extract_lets -lift +onlyGivenNames cid0
  clear_value cid0
  extract_lets -lift +onlyGivenNames c1
  clear_value c1
  refine Answers.ite _ _ _ ?_ ?_
  · intro a2
    refine Answers.next ?_
    exact Keeps.refl _ _
  · intro a3
    split
    · refine Answers.next ?_
      refine Keeps.step (burstDiscarded_keeps ..) rfl ?_
      exact Keeps.refl _ _
    · refine Answers.ite _ _ _ ?_ ?_
      · intro a4
        refine Answers.next ?_
        refine Keeps.step (burstValid_keeps ..) rfl ?_
        exact Keeps.refl _ _
      · intro a5
        refine Answers.next ?_
        refine Keeps.step (burstDiscarded_keeps ..) rfl ?_
        exact Keeps.refl _ _

theorem execRerangingMark_keeps (cid : Nat) (s : State) : Answers [.mb, .fault, .link] s (execRerangingMark cid s) := by
  unfold execRerangingMark
  extract_lets -lift +onlyGivenNames p0
  clear_value p0
  extract_lets -lift +onlyGivenNames c1
  clear_value c1
  refine Answers.ite _ _ _ ?_ ?_
  · intro a2
    refine Answers.next ?_
    refine Keeps.step (startRun_keeps ..) rfl ?_
    exact Keeps.refl _ _
  · intro a3
    refine Answers.ite _ _ _ ?_ ?_
    · intro a4
      refine Answers.next ?_
      refine Keeps.step (markCell_keeps ..) rfl ?_
      exact Keeps.refl _ _
    · intro a5
      refine Answers.next ?_
      exact Keeps.refl _ _

theorem execLaunchCalibration_keeps (s : State) : Answers [.fault, .link] s (execLaunchCalibration s) := by
  unfold execLaunchCalibration
  refine Answers.next ?_
  refine foldl_keeps _ ?_ _ _ _ ?_
  · intro a0 a1
    refine Keeps.step (minOffset_keeps ..) rfl ?_
    exact Keeps.refl _ _
  · exact Keeps.refl _ _

theorem execWakingComplete_keeps (port : Nat) (s : State) : Answers [.mb, .fault, .link] s (execWakingComplete port s) := by
  unfold execWakingComplete
  extract_lets -lift +onlyGivenNames p0
  clear_value p0
  refine Answers.ite _ _ _ ?_ ?_
  · intro a1
    refine Answers.next ?_
    exact Keeps.refl _ _
  · intro a2
    extract_lets -lift +onlyGivenNames cs3
    clear_value cs3
    extract_lets -lift +onlyGivenNames late4
    extract_lets -lift +onlyGivenNames fails5
    clear_value fails5
    refine Answers.ite _ _ _ ?_ ?_
    · intro a6
      refine Answers.next ?_
      refine foldl_keeps _ ?_ _ _ _ ?_
      · intro a7 a8
        refine Keeps.step (markCell_keeps ..) rfl ?_
        exact Keeps.refl _ _
      · exact Keeps.refl _ _
    · intro a9
      refine Answers.ite _ _ _ ?_ ?_
      · intro a10
        refine Answers.next ?_
        exact Keeps.refl _ _
      · intro a11
        refine Answers.next ?_
        refine Keeps.step (inService_keeps ..) rfl ?_
        exact Keeps.refl _ _

theorem execSparePortTakeover_keeps (port : Nat) (s : State) : Answers [.dev, .mb, .fault, .link] s (execSparePortTakeover port s) := by
  unfold execSparePortTakeover
  split
  · refine Answers.next ?_
    exact Keeps.refl _ _
  · refine Answers.ite _ _ _ ?_ ?_
    · intro a0
      refine Answers.next ?_
      exact Keeps.refl _ _
    · intro a1
      extract_lets -lift +onlyGivenNames s2
      have h_s2 : Keeps [.dev, .mb, .fault, .link] s s2 := by
        refine Keeps.step (portUpd_keeps ..) rfl ?_
        exact Keeps.refl _ _
      clear_value s2
      refine Answers.next ?_
      refine Keeps.step (capsUpdate_keeps ..) rfl ?_
      refine Keeps.step (endPortPending_keeps ..) rfl ?_
      refine Keeps.step (portSpareIn_keeps ..) rfl ?_
      assumption

theorem execPortLost_keeps (loss : PortLoss) (s : State) : Answers [.dev, .mb, .fault, .link] s (execPortLost loss s) := by
  unfold execPortLost
  refine Answers.ite _ _ _ ?_ ?_
  · intro a0
    refine Answers.next ?_
    refine Keeps.step (portLost_keeps ..) rfl ?_
    exact Keeps.refl _ _
  · intro a1
    refine Answers.next ?_
    exact Keeps.refl _ _

theorem execRejoinTimeout_keeps (cid : Nat) (s : State) : Answers [.fault, .link] s (execRejoinTimeout cid s) := by
  unfold execRejoinTimeout
  split
  · refine Answers.ite _ _ _ ?_ ?_
    · intro a0
      refine Answers.next ?_
      refine Keeps.step (setHealth_keeps ..) rfl ?_
      refine Keeps.step (cellUpd_keeps ..) rfl ?_
      exact Keeps.refl _ _
    · intro a1
      refine Answers.next ?_
      exact Keeps.refl _ _
  · refine Answers.next ?_
    exact Keeps.refl _ _

theorem execSafeSelRequeue_keeps (cid : Nat) (s : State) : Answers [.fault, .link] s (execSafeSelRequeue cid s) := by
  unfold execSafeSelRequeue
  refine Answers.ite _ _ _ ?_ ?_
  · intro a0
    refine Answers.next ?_
    refine Keeps.step (pushSafeState_keeps ..) rfl ?_
    refine Keeps.step (linkEvent_keeps ..) rfl ?_
    refine Keeps.step (cellUpd_keeps ..) rfl ?_
    exact Keeps.refl _ _
  · intro a1
    refine Answers.next ?_
    exact Keeps.refl _ _

theorem execContextEccError_keeps (port : Nat) (entry : Nat) (double : Bool) (s : State) : Answers [.freeCtr, .dev, .mb, .fault, .link, .aie, .tiles, .meas, .prot, .spare] s (execContextEccError port entry double s) := by
  unfold execContextEccError
  refine Answers.ite _ _ _ ?_ ?_
  · intro a0
    refine Answers.next ?_
    exact Keeps.refl _ _
  · intro a1
    refine Answers.next ?_
    refine Keeps.step (contextEcc_keeps ..) rfl ?_
    exact Keeps.refl _ _

/-! ### Cross -/

theorem execTickBoundary_keeps (s : State) : Answers [.dev, .mb, .tick, .fault, .link, .cells, .pwm, .loop, .time, .safe, .red, .spare] s (execTickBoundary s) := by
  unfold execTickBoundary
  refine Answers.ite _ _ _ ?_ ?_
  · intro a0
    refine Answers.next ?_
    exact Keeps.refl _ _
  · intro a1
    extract_lets -lift +onlyGivenNames us2
    clear_value us2
    extract_lets -lift +onlyGivenNames s3
    have h_s3 : Keeps [.dev, .mb, .tick, .fault, .link, .cells, .pwm, .loop, .time, .safe, .red, .spare] s s3 := by
      refine Keeps.step (lateAnswer_keeps ..) rfl ?_
      refine Keeps.step (advanceTime_keeps ..) rfl ?_
      refine Keeps.step (cellsBoundary_keeps ..) rfl ?_
      refine Keeps.step (tickOpens_keeps ..) rfl ?_
      refine Keeps.step (episodesEnd_keeps ..) rfl ?_
      exact Keeps.refl _ _
    clear_value s3
    refine Answers.next ?_
    refine Keeps.step (cdcOverruns_keeps ..) rfl ?_
    refine Keeps.step (lanesBoundary_keeps ..) rfl ?_
    refine Keeps.step (confBoundary_keeps ..) rfl ?_
    refine Keeps.step (rolesBoundary_keeps ..) rfl ?_
    refine Keeps.step (healthBoundary_keeps ..) rfl ?_
    refine Keeps.step (rampBoundary_keeps ..) rfl ?_
    refine Keeps.step (zeroEdges_keeps ..) rfl ?_
    assumption

theorem execInputCrossing_keeps (s : State) : Answers [.freeCtr, .dev, .mb, .tick, .fault, .link, .aie, .pwm, .loop, .tiles, .meas, .net, .safe, .red, .galley, .spare] s (execInputCrossing s) := by
  unfold execInputCrossing
  refine Answers.ite _ _ _ ?_ ?_
  · intro a0
    refine Answers.next ?_
    exact Keeps.refl _ _
  · intro a1
    extract_lets -lift +onlyGivenNames s2
    have h_s2 : Keeps [.freeCtr, .dev, .mb, .tick, .fault, .link, .aie, .pwm, .loop, .tiles, .meas, .net, .safe, .red, .galley, .spare] s s2 := by
      refine Keeps.step (State.onTick_keeps _ _ (by exact id)) rfl ?_
      exact Keeps.refl _ _
    clear_value s2
    split
    · refine Answers.next ?_
      refine Keeps.step (replayIn_keeps ..) rfl ?_
      assumption
    · refine Answers.next ?_
      assumption
    · refine Answers.next ?_
      refine Keeps.step (inputCross_keeps ..) rfl ?_
      assumption

theorem execOutputCrossing_keeps (late : BitVec 12) (aieEnd : Nat) (s : State) : Answers [.freeCtr, .dev, .tick, .fault, .link, .aie, .pwm, .loop, .tiles, .meas, .net, .safe, .red, .galley] s (execOutputCrossing late aieEnd s) := by
  unfold execOutputCrossing
  refine Answers.ite _ _ _ ?_ ?_
  · intro a0
    refine Answers.next ?_
    exact Keeps.refl _ _
  · intro a1
    extract_lets -lift +onlyGivenNames s2
    have h_s2 : Keeps [.freeCtr, .dev, .tick, .fault, .link, .aie, .pwm, .loop, .tiles, .meas, .net, .safe, .red, .galley] s s2 := by
      refine Keeps.step (State.onTick_keeps _ _ (by exact id)) rfl ?_
      exact Keeps.refl _ _
    clear_value s2
    split
    · refine Answers.next ?_
      refine Keeps.step (replayOut_keeps ..) rfl ?_
      assumption
    · refine Answers.next ?_
      assumption
    · refine Answers.next ?_
      refine Keeps.step (outputCross_keeps ..) rfl ?_
      assumption

theorem execReplayEnter_keeps (s : State) : Answers [.dev, .mb, .tick, .fault, .link, .aie, .pwm, .loop, .tiles, .safe, .red, .galley] s (execReplayEnter s) := by
  unfold execReplayEnter
  split
  · refine Answers.next ?_
    exact Keeps.refl _ _
  · refine Answers.ite _ _ _ ?_ ?_
    · intro a0
      refine Answers.next ?_
      exact Keeps.refl _ _
    · intro a1
      split
      · refine Answers.next ?_
        exact Keeps.refl _ _
      · extract_lets -lift +onlyGivenNames s2
        have h_s2 : Keeps [.dev, .mb, .tick, .fault, .link, .aie, .pwm, .loop, .tiles, .safe, .red, .galley] s s2 := by
          refine Keeps.step (installImage_keeps ..) rfl ?_
          refine Keeps.step (replayUpd_keeps ..) rfl ?_
          exact Keeps.refl _ _
        clear_value s2
        extract_lets -lift +onlyGivenNames s3
        have h_s3 : Keeps [.dev, .mb, .tick, .fault, .link, .aie, .pwm, .loop, .tiles, .safe, .red, .galley] s s3 := by
          refine Keeps.step (tookPending_keeps ..) rfl ?_
          refine Keeps.step (installSets_keeps ..) rfl ?_
          assumption
        clear_value s3
        refine Answers.next ?_
        refine Keeps.step (recEvent_keeps ..) rfl ?_
        refine Keeps.step (transition_keeps ..) rfl ?_
        assumption

theorem execReplayEnd_keeps (late : Bool) (s : State) : Answers [.dev, .mb, .tick, .fault, .link, .aie, .pwm, .loop, .tiles, .safe, .red, .galley] s (execReplayEnd late s) := by
  unfold execReplayEnd
  refine Answers.ite _ _ _ ?_ ?_
  · intro a0
    refine Answers.next ?_
    exact Keeps.refl _ _
  · intro a1
    extract_lets -lift +onlyGivenNames s2
    have h_s2 : Keeps [.dev, .mb, .tick, .fault, .link, .aie, .pwm, .loop, .tiles, .safe, .red, .galley] s s2 := by
      refine when_keeps _ _ _ _ ?_ ?_
      · exact Keeps.refl _ _
      · refine Keeps.step (replayOutcome_keeps ..) rfl ?_
        exact Keeps.refl _ _
    clear_value s2
    refine Answers.ite _ _ _ ?_ ?_
    · intro a3
      refine Answers.next ?_
      refine Keeps.step (transition_keeps ..) rfl ?_
      assumption
    · intro a4
      refine Answers.next ?_
      assumption

/-! ### Tile -/

theorem execTileKernelLoad_keeps (c : Cmd) (s : State) : Answers [.host, .mb, .tiles] s (execTileKernelLoad c s) := by
  unfold execTileKernelLoad
  extract_lets -lift +onlyGivenNames p0
  clear_value p0
  extract_lets -lift +onlyGivenNames m1
  clear_value m1
  extract_lets -lift +onlyGivenNames dies2
  clear_value dies2
  extract_lets -lift +onlyGivenNames g3
  clear_value g3
  refine Answers.runCmd _ _ _ _ ?_ rfl
  intro a4
  extract_lets -lift +onlyGivenNames user6
  clear_value user6
  extract_lets -lift +onlyGivenNames body8
  clear_value body8
  split
  · try dsimp -zeta only
    exact Keeps.refl _ _
  · split
    · try dsimp -zeta only
      exact Keeps.refl _ _
    · extract_lets -lift +onlyGivenNames gone10
      clear_value gone10
      extract_lets -lift +onlyGivenNames im12
      clear_value im12
      extract_lets -lift +onlyGivenNames s14
      have h_s14 : Keeps [.host, .mb, .tiles] a4 s14 := by
        refine foldl_keeps _ ?_ _ _ _ ?_
        · intro a15 a16
          refine Keeps.step (dieUpd_keeps ..) rfl ?_
          exact Keeps.refl _ _
        · exact Keeps.refl _ _
      clear_value s14
      extract_lets -lift +onlyGivenNames r18
      clear_value r18
      try dsimp -zeta only
      refine Keeps.step (goPending_keeps ..) rfl ?_
      assumption

theorem execTileKernelBind_keeps (c : Cmd) (s : State) : Answers [.host, .mb, .tick, .tiles] s (execTileKernelBind c s) := by
  unfold execTileKernelBind
  extract_lets -lift +onlyGivenNames d0
  clear_value d0
  extract_lets -lift +onlyGivenNames n1
  clear_value n1
  extract_lets -lift +onlyGivenNames b2
  clear_value b2
  extract_lets -lift +onlyGivenNames g3
  clear_value g3
  refine Answers.runCmd _ _ _ _ ?_ rfl
  intro a4
  split
  · try dsimp -zeta only
    exact Keeps.refl _ _
  · extract_lets -lift +onlyGivenNames k6
    clear_value k6
    extract_lets -lift +onlyGivenNames s8
    have h_s8 : Keeps [.host, .mb, .tick, .tiles] a4 s8 := by
      refine Keeps.step (stage_keeps ..) rfl ?_
      refine Keeps.step (dieUpd_keeps ..) rfl ?_
      exact Keeps.refl _ _
    clear_value s8
    try dsimp -zeta only [okReply]
    assumption

theorem execTileRomList_keeps (c : Cmd) (s : State) : Answers [.host, .mb] s (execTileRomList c s) := by
  unfold execTileRomList
  extract_lets -lift +onlyGivenNames d0
  clear_value d0
  extract_lets -lift +onlyGivenNames a1
  clear_value a1
  extract_lets -lift +onlyGivenNames g2
  clear_value g2
  refine Answers.runCmd _ _ _ _ ?_ rfl
  intro a3
  extract_lets -lift +onlyGivenNames s5
  have h_s5 : Keeps [.host, .mb] a3 s5 := by
    refine ite_keeps _ _ _ ?_ ?_
    · intro a6
      exact Keeps.refl _ _
    · intro a7
      refine Keeps.step (putBuf_keeps ..) rfl ?_
      exact Keeps.refl _ _
  clear_value s5
  try dsimp -zeta only [okReply]
  assumption

theorem execTileStatus_keeps (c : Cmd) (s : State) : Answers [.host, .mb] s (execTileStatus c s) := by
  unfold execTileStatus
  extract_lets -lift +onlyGivenNames d0
  clear_value d0
  extract_lets -lift +onlyGivenNames a1
  clear_value a1
  extract_lets -lift +onlyGivenNames g2
  clear_value g2
  refine Answers.runCmd _ _ _ _ ?_ rfl
  intro a3
  extract_lets -lift +onlyGivenNames x5
  clear_value x5
  extract_lets -lift +onlyGivenNames num7
  clear_value num7
  extract_lets -lift +onlyGivenNames s9
  have h_s9 : Keeps [.host, .mb] a3 s9 := by
    refine ite_keeps _ _ _ ?_ ?_
    · intro a10
      exact Keeps.refl _ _
    · intro a11
      refine Keeps.step (putBuf_keeps ..) rfl ?_
      exact Keeps.refl _ _
  clear_value s9
  try dsimp -zeta only [okReply]
  assumption

theorem execTileCycleLimit_keeps (die : Nat) (tile : Nat) (s : State) : Answers [.fault, .tiles, .galley] s (execTileCycleLimit die tile s) := by
  unfold execTileCycleLimit
  extract_lets -lift +onlyGivenNames x0
  clear_value x0
  refine Answers.ite _ _ _ ?_ ?_
  · intro a1
    refine Answers.next ?_
    refine Keeps.step (tileAbort_keeps ..) rfl ?_
    exact Keeps.refl _ _
  · intro a2
    refine Answers.next ?_
    exact Keeps.refl _ _

theorem execTileMemoryError_keeps (die : Nat) (tile : Nat) (mem : Nat) (addr : Nat) (double : Bool) (s : State) : Answers [.freeCtr, .dev, .mb, .fault, .link, .aie, .tiles, .meas, .prot, .galley, .spare] s (execTileMemoryError die tile mem addr double s) := by
  unfold execTileMemoryError
  refine Answers.ite _ _ _ ?_ ?_
  · intro a0
    refine Answers.next ?_
    exact Keeps.refl _ _
  · intro a1
    refine Answers.next ?_
    refine Keeps.step (tileEcc_keeps ..) rfl ?_
    exact Keeps.refl _ _

theorem execTileRepairDone_keeps (die : Nat) (tile : Nat) (s : State) : Answers [.tiles] s (execTileRepairDone die tile s) := by
  unfold execTileRepairDone
  refine Answers.next ?_
  refine Keeps.step (tileUpd_keeps ..) rfl ?_
  exact Keeps.refl _ _

/-! ### Fault -/

theorem execFaultMaskSet_keeps (c : Cmd) (s : State) : Answers [.host, .mb, .fault] s (execFaultMaskSet c s) := by
  unfold execFaultMaskSet
  extract_lets -lift +onlyGivenNames b0
  clear_value b0
  extract_lets -lift +onlyGivenNames k1
  clear_value k1
  extract_lets -lift +onlyGivenNames g2
  clear_value g2
  refine Answers.runCmd _ _ _ _ ?_ rfl
  intro a3
  extract_lets -lift +onlyGivenNames l5
  clear_value l5
  extract_lets -lift +onlyGivenNames n7
  clear_value n7
  split
  · extract_lets -lift +onlyGivenNames m9
    clear_value m9
    try dsimp -zeta only [okReply]
    refine Keeps.step (State.onFault_keeps ..) rfl ?_
    exact Keeps.refl _ _
  · split
    · split
      · try dsimp -zeta only
        exact Keeps.refl _ _
      · split
        · try dsimp -zeta only [okReply]
          exact Keeps.refl _ _
        · split
          · try dsimp -zeta only
            exact Keeps.refl _ _
          · try dsimp -zeta only [okReply]
            refine Keeps.step (State.onFault_keeps ..) rfl ?_
            exact Keeps.refl _ _
    · split
      · try dsimp -zeta only
        exact Keeps.refl _ _
      · split
        · try dsimp -zeta only [okReply]
          exact Keeps.refl _ _
        · split
          · try dsimp -zeta only
            exact Keeps.refl _ _
          · try dsimp -zeta only [okReply]
            refine Keeps.step (State.onFault_keeps ..) rfl ?_
            exact Keeps.refl _ _

theorem execFaultColophonRead_keeps (c : Cmd) (s : State) : Answers [.host, .mb] s (execFaultColophonRead c s) := by
  unfold execFaultColophonRead
  extract_lets -lift +onlyGivenNames g0
  clear_value g0
  refine Answers.runCmd _ _ _ _ ?_ rfl
  intro a1
  split
  · try dsimp -zeta only [okReply]
    refine Keeps.step (putBuf_keeps ..) rfl ?_
    exact Keeps.refl _ _
  · try dsimp -zeta only [okReply]
    exact Keeps.refl _ _

theorem execFaultColophonRearm_keeps (c : Cmd) (s : State) : Answers [.host, .mb, .fault] s (execFaultColophonRearm c s) := by
  unfold execFaultColophonRearm
  extract_lets -lift +onlyGivenNames m0
  clear_value m0
  extract_lets -lift +onlyGivenNames g1
  clear_value g1
  refine Answers.runCmd _ _ _ _ ?_ rfl
  intro a2
  try dsimp -zeta only [okReply]
  refine Keeps.step (State.onFault_keeps ..) rfl ?_
  exact Keeps.refl _ _

theorem execFaultStatus_keeps (c : Cmd) (s : State) : Answers [.host, .mb] s (execFaultStatus c s) := by
  unfold execFaultStatus
  extract_lets -lift +onlyGivenNames g0
  clear_value g0
  refine Answers.runCmd _ _ _ _ ?_ rfl
  intro a1
  extract_lets -lift +onlyGivenNames f3
  clear_value f3
  try dsimp -zeta only [okReply]
  exact Keeps.refl _ _

theorem execTestFaultInject_keeps (c : Cmd) (s : State) : Answers [.freeCtr, .host, .dev, .mb, .fault, .link, .aie, .pwm, .tiles, .meas, .acq, .prot, .red, .galley, .spare] s (execTestFaultInject c s) := by
  unfold execTestFaultInject
  extract_lets -lift +onlyGivenNames mode0
  clear_value mode0
  extract_lets -lift +onlyGivenNames die1
  clear_value die1
  extract_lets -lift +onlyGivenNames block2
  clear_value block2
  extract_lets -lift +onlyGivenNames kind3
  clear_value kind3
  extract_lets -lift +onlyGivenNames cls4
  clear_value cls4
  extract_lets -lift +onlyGivenNames g5
  clear_value g5
  refine Answers.runCmd _ _ _ _ ?_ rfl
  intro a6
  extract_lets -lift +onlyGivenNames msg8
  clear_value msg8
  split
  · split
    · try dsimp -zeta only
      exact Keeps.refl _ _
    · extract_lets -lift +onlyGivenNames p10
      clear_value p10
      split
      · refine Keeps.step (injectOwn_keeps (h := rfl) (L := [.freeCtr, .host, .dev, .mb, .fault, .link, .aie, .pwm, .tiles, .meas, .acq, .prot, .red, .galley, .spare]) (ih_f := ?_) ..) rfl ?_
        · intro a11
          refine Keeps.step (eccReact_keeps ..) rfl ?_
          exact Keeps.refl _ _
        · exact Keeps.refl _ _
      · split
        · extract_lets -lift +onlyGivenNames m13
          clear_value m13
          unfold inject
          extract_lets -lift +onlyGivenNames seq15
          clear_value seq15
          try dsimp -zeta only [okReply]
          refine Keeps.step (markInjected_keeps ..) rfl ?_
          try dsimp -zeta only
          refine Keeps.step (fatalReact_keeps ..) rfl ?_
          refine Keeps.step (fatalLatch_keeps ..) rfl ?_
          refine Keeps.step (arrive_keeps ..) rfl ?_
          exact Keeps.refl _ _
        · split
          · unfold inject
            extract_lets -lift +onlyGivenNames seq17
            clear_value seq17
            try dsimp -zeta only [okReply]
            refine Keeps.step (markInjected_keeps ..) rfl ?_
            refine Keeps.step (protStop_keeps ..) rfl ?_
            refine Keeps.step (arrive_keeps ..) rfl ?_
            exact Keeps.refl _ _
          · refine Keeps.step (injectOwn_keeps (h := rfl) (L := [.freeCtr, .host, .dev, .mb, .fault, .link, .aie, .pwm, .tiles, .meas, .acq, .prot, .red, .galley, .spare]) (ih_f := ?_) ..) rfl ?_
            · intro a18
              refine Keeps.step (eccReact_keeps ..) rfl ?_
              exact Keeps.refl _ _
            · exact Keeps.refl _ _
  · extract_lets -lift +onlyGivenNames m20
    clear_value m20
    split
    · refine Keeps.step (injectPlain_keeps ..) rfl ?_
      exact Keeps.refl _ _
    · unfold inject
      extract_lets -lift +onlyGivenNames seq22
      clear_value seq22
      try dsimp -zeta only [okReply]
      refine Keeps.step (markInjected_keeps ..) rfl ?_
      try dsimp -zeta only
      refine Keeps.step (fatalReact_keeps ..) rfl ?_
      refine Keeps.step (fatalLatch_keeps ..) rfl ?_
      refine Keeps.step (arrive_keeps ..) rfl ?_
      exact Keeps.refl _ _

theorem execFaultMessageArrive_keeps (s : State) : Answers [.fault, .galley] s (execFaultMessageArrive s) := by
  unfold execFaultMessageArrive
  refine Answers.next ?_
  refine Keeps.step (arriveNext_keeps ..) rfl ?_
  exact Keeps.refl _ _

theorem execFatalFault_keeps (die : Nat) (block : Nat) (kind : Nat) (addr : Nat) (s : State) : Answers [.dev, .mb, .fault, .link, .pwm, .prot, .red] s (execFatalFault die block kind addr s) := by
  unfold execFatalFault
  refine Answers.ite _ _ _ ?_ ?_
  · intro a0
    refine Answers.next ?_
    refine Keeps.step (fatalFault_keeps ..) rfl ?_
    exact Keeps.refl _ _
  · intro a1
    refine Answers.next ?_
    exact Keeps.refl _ _

theorem execEvqEntryMove_keeps (s : State) : Answers [.mb, .fault] s (execEvqEntryMove s) := by
  unfold execEvqEntryMove
  extract_lets -lift +onlyGivenNames f0
  clear_value f0
  split
  · refine Answers.next ?_
    exact Keeps.refl _ _
  · refine Answers.ite _ _ _ ?_ ?_
    · intro a1
      refine Answers.next ?_
      exact Keeps.refl _ _
    · intro a2
      extract_lets -lift +onlyGivenNames s3
      have h_s3 : Keeps [.mb, .fault] s s3 := by
        refine Keeps.step (State.onFault_keeps ..) rfl ?_
        exact Keeps.refl _ _
      clear_value s3
      extract_lets -lift +onlyGivenNames s4
      have h_s4 : Keeps [.mb, .fault] s s4 := by
        refine when_keeps _ _ _ _ ?_ ?_
        · assumption
        · refine Keeps.step (State.onMb_keeps _ _ (by exact id)) rfl ?_
          exact Keeps.refl _ _
      clear_value s4
      refine Answers.ite _ _ _ ?_ ?_
      · intro a6
        refine Answers.next ?_
        refine Keeps.step (raise_keeps ..) rfl ?_
        refine Keeps.step (State.onFault_keeps ..) rfl ?_
        assumption
      · intro a7
        refine Answers.next ?_
        assumption

theorem execColophonFreeze_keeps (s : State) : Answers [.fault] s (execColophonFreeze s) := by
  unfold execColophonFreeze
  extract_lets -lift +onlyGivenNames c0
  clear_value c0
  refine Answers.ite _ _ _ ?_ ?_
  · intro a1
    refine Answers.next ?_
    exact Keeps.refl _ _
  · intro a2
    extract_lets -lift +onlyGivenNames k3
    clear_value k3
    refine Answers.next ?_
    refine Keeps.step (raise_keeps ..) rfl ?_
    refine Keeps.step (State.onFault_keeps ..) rfl ?_
    exact Keeps.refl _ _

theorem execGiveWayInterim_keeps (s : State) : Answers [.fault] s (execGiveWayInterim s) := by
  unfold execGiveWayInterim
  extract_lets -lift +onlyGivenNames due0
  clear_value due0
  refine Answers.next ?_
  refine foldl_keeps _ ?_ _ _ _ ?_
  · intro a1 a2
    refine Keeps.step (precEvent_keeps ..) rfl ?_
    exact Keeps.refl _ _
  · refine Keeps.step (State.onFault_keeps ..) rfl ?_
    exact Keeps.refl _ _

theorem execEvqEnableWrite_keeps (value : Word32) (s : State) : Answers [.fault] s (execEvqEnableWrite value s) := by
  unfold execEvqEnableWrite
  refine Answers.next ?_
  refine Keeps.step (evqCtrlWrite_keeps ..) rfl ?_
  exact Keeps.refl _ _

theorem execEvqHeadWrite_keeps (value : Word32) (s : State) : Answers [.fault] s (execEvqHeadWrite value s) := by
  unfold execEvqHeadWrite
  refine Answers.next ?_
  refine Keeps.step (evqHeadWrite_keeps ..) rfl ?_
  exact Keeps.refl _ _

theorem execFatalCauseRead_keeps (s : State) : Answers [.fault] s (execFatalCauseRead s) := by
  unfold execFatalCauseRead
  refine Answers.ite _ _ _ ?_ ?_
  · intro a0
    refine Answers.next ?_
    refine Keeps.step (State.onFault_keeps ..) rfl ?_
    exact Keeps.refl _ _
  · intro a1
    refine Answers.next ?_
    exact Keeps.refl _ _

/-! ### Pwm -/

theorem execPwmArmConfig_keeps (c : Cmd) (s : State) : Answers [.host, .mb, .tick, .pwm] s (execPwmArmConfig c s) := by
  unfold execPwmArmConfig
  extract_lets -lift +onlyGivenNames a0
  clear_value a0
  extract_lets -lift +onlyGivenNames k1
  clear_value k1
  extract_lets -lift +onlyGivenNames g2
  clear_value g2
  refine Answers.runCmd _ _ _ _ ?_ rfl
  intro a3
  try dsimp -zeta only [okReply]
  refine Keeps.step (stage_keeps ..) rfl ?_
  refine Keeps.step (State.onPwm_keeps ..) rfl ?_
  exact Keeps.refl _ _

theorem execPwmPairConfig_keeps (c : Cmd) (s : State) : Answers [.host, .mb, .tick, .pwm] s (execPwmPairConfig c s) := by
  unfold execPwmPairConfig
  extract_lets -lift +onlyGivenNames p0
  clear_value p0
  extract_lets -lift +onlyGivenNames k1
  clear_value k1
  extract_lets -lift +onlyGivenNames g2
  clear_value g2
  refine Answers.runCmd _ _ _ _ ?_ rfl
  intro a3
  split
  · try dsimp -zeta only
    exact Keeps.refl _ _
  · try dsimp -zeta only [okReply]
    refine Keeps.step (stage_keeps ..) rfl ?_
    refine Keeps.step (State.onPwm_keeps ..) rfl ?_
    exact Keeps.refl _ _

theorem execPwmTripConfig_keeps (c : Cmd) (s : State) : Answers [.host, .mb, .tick, .pwm] s (execPwmTripConfig c s) := by
  unfold execPwmTripConfig
  extract_lets -lift +onlyGivenNames n0
  clear_value n0
  extract_lets -lift +onlyGivenNames k1
  clear_value k1
  extract_lets -lift +onlyGivenNames g2
  clear_value g2
  refine Answers.runCmd _ _ _ _ ?_ rfl
  intro a3
  try dsimp -zeta only [okReply]
  refine Keeps.step (stage_keeps ..) rfl ?_
  refine Keeps.step (State.onPwm_keeps ..) rfl ?_
  exact Keeps.refl _ _

theorem execPwmTripClear_keeps (c : Cmd) (s : State) : Answers [.host, .mb, .pwm] s (execPwmTripClear c s) := by
  unfold execPwmTripClear
  extract_lets -lift +onlyGivenNames cm0
  clear_value cm0
  extract_lets -lift +onlyGivenNames pm1
  clear_value pm1
  extract_lets -lift +onlyGivenNames g2
  clear_value g2
  refine Answers.runCmd _ _ _ _ ?_ rfl
  intro a3
  extract_lets -lift +onlyGivenNames pairs5
  clear_value pairs5
  extract_lets -lift +onlyGivenNames act7
  clear_value act7
  split
  · try dsimp -zeta only
    exact Keeps.refl _ _
  · split
    · try dsimp -zeta only
      exact Keeps.refl _ _
    · extract_lets -lift +onlyGivenNames s9
      have h_s9 : Keeps [.host, .mb, .pwm] a3 s9 := by
        refine Keeps.step (State.onPwm_keeps ..) rfl ?_
        exact Keeps.refl _ _
      clear_value s9
      extract_lets -lift +onlyGivenNames s11
      have h_s11 : Keeps [.host, .mb, .pwm] a3 s11 := by
        refine foldl_keeps _ ?_ _ _ _ ?_
        · intro a12 a13
          refine Keeps.step (pairUpd_keeps ..) rfl ?_
          exact Keeps.refl _ _
        · assumption
      clear_value s11
      extract_lets -lift +onlyGivenNames s15
      have h_s15 : Keeps [.host, .mb, .pwm] a3 s15 := by
        refine ite_keeps _ _ _ ?_ ?_
        · intro a16
          refine Keeps.step (State.onPwm_keeps ..) rfl ?_
          assumption
        · intro a17
          assumption
      clear_value s15
      try dsimp -zeta only [okReply]
      assumption

theorem execPwmStatus_keeps (c : Cmd) (s : State) : Answers [.host, .mb] s (execPwmStatus c s) := by
  unfold execPwmStatus
  extract_lets -lift +onlyGivenNames kind0
  clear_value kind0
  extract_lets -lift +onlyGivenNames i1
  clear_value i1
  extract_lets -lift +onlyGivenNames g2
  clear_value g2
  refine Answers.runCmd _ _ _ _ ?_ rfl
  intro a3
  split
  · extract_lets -lift +onlyGivenNames x5
    clear_value x5
    try dsimp -zeta only [okReply]
    exact Keeps.refl _ _
  · split
    · extract_lets -lift +onlyGivenNames x7
      clear_value x7
      try dsimp -zeta only [okReply]
      exact Keeps.refl _ _
    · extract_lets -lift +onlyGivenNames w9
      clear_value w9
      try dsimp -zeta only [okReply]
      exact Keeps.refl _ _

theorem execPairCounterZero_keeps (pair : Nat) (offset : Nat) (s : State) : Answers [.pwm] s (execPairCounterZero pair offset s) := by
  unfold execPairCounterZero
  refine Answers.ite _ _ _ ?_ ?_
  · intro a0
    refine Answers.next ?_
    exact Keeps.refl _ _
  · intro a1
    extract_lets -lift +onlyGivenNames s2
    have h_s2 : Keeps [.pwm] s s2 := by
      refine Keeps.step (reload_keeps ..) rfl ?_
      refine Keeps.step (pairOccur_keeps ..) rfl ?_
      refine Keeps.step (pairUpd_keeps ..) rfl ?_
      exact Keeps.refl _ _
    clear_value s2
    extract_lets -lift +onlyGivenNames s3
    have h_s3 : Keeps [.pwm] s s3 := by
      refine Keeps.step (setDemand_keeps ..) rfl ?_
      assumption
    clear_value s3
    refine Answers.next ?_
    refine Keeps.step (pairStart_keeps ..) rfl ?_
    assumption

theorem execPairCounterPeriod_keeps (pair : Nat) (offset : Nat) (s : State) : Answers [.pwm] s (execPairCounterPeriod pair offset s) := by
  unfold execPairCounterPeriod
  extract_lets -lift +onlyGivenNames c0
  clear_value c0
  refine Answers.ite _ _ _ ?_ ?_
  · intro a1
    refine Answers.next ?_
    exact Keeps.refl _ _
  · intro a2
    extract_lets -lift +onlyGivenNames s3
    have h_s3 : Keeps [.pwm] s s3 := by
      refine Keeps.step (pairOccur_keeps ..) rfl ?_
      exact Keeps.refl _ _
    clear_value s3
    extract_lets -lift +onlyGivenNames s4
    have h_s4 : Keeps [.pwm] s s4 := by
      refine ite_keeps _ _ _ ?_ ?_
      · intro a5
        refine Keeps.step (reload_keeps ..) rfl ?_
        assumption
      · intro a6
        assumption
    clear_value s4
    refine Answers.next ?_
    refine Keeps.step (setDemand_keeps ..) rfl ?_
    assumption

theorem execPairCompareMatch_keeps (pair : Nat) (offset : Nat) (up : Bool) (s : State) : Answers [.pwm] s (execPairCompareMatch pair offset up s) := by
  unfold execPairCompareMatch
  extract_lets -lift +onlyGivenNames c0
  clear_value c0
  extract_lets -lift +onlyGivenNames m1
  clear_value m1
  refine Answers.ite _ _ _ ?_ ?_
  · intro a2
    refine Answers.next ?_
    exact Keeps.refl _ _
  · intro a3
    refine Answers.ite _ _ _ ?_ ?_
    · intro a4
      refine Answers.next ?_
      refine Keeps.step (setDemand_keeps ..) rfl ?_
      exact Keeps.refl _ _
    · intro a5
      refine Answers.next ?_
      exact Keeps.refl _ _

theorem execPairDutyArrival_keeps (pair : Nat) (s : State) : Answers [.pwm] s (execPairDutyArrival pair s) := by
  unfold execPairDutyArrival
  refine Answers.next ?_
  refine Keeps.step (pairUpd_keeps ..) rfl ?_
  exact Keeps.refl _ _

theorem execPairCommutationSensed_keeps (pair : Nat) (high : Bool) (ns : Nat) (s : State) : Answers [.pwm] s (execPairCommutationSensed pair high ns s) := by
  unfold execPairCommutationSensed
  extract_lets -lift +onlyGivenNames c0
  clear_value c0
  refine Answers.next ?_
  refine Keeps.step (pairUpd_keeps ..) rfl ?_
  exact Keeps.refl _ _

theorem execPairDeadtimeEnd_keeps (pair : Nat) (s : State) : Answers [.pwm] s (execPairDeadtimeEnd pair s) := by
  unfold execPairDeadtimeEnd
  extract_lets -lift +onlyGivenNames c0
  clear_value c0
  refine Answers.next ?_
  refine Keeps.step (pairUpd_keeps ..) rfl ?_
  exact Keeps.refl _ _

theorem execComparatorActive_keeps (cmp : Nat) (s : State) : Answers [.dev, .mb, .fault, .link, .pwm, .safe, .red] s (execComparatorActive cmp s) := by
  unfold execComparatorActive
  extract_lets -lift +onlyGivenNames k0
  clear_value k0
  refine Answers.ite _ _ _ ?_ ?_
  · intro a1
    refine Answers.next ?_
    exact Keeps.refl _ _
  · intro a2
    extract_lets -lift +onlyGivenNames b3
    clear_value b3
    extract_lets -lift +onlyGivenNames blocks4
    clear_value blocks4
    extract_lets -lift +onlyGivenNames s5
    have h_s5 : Keeps [.dev, .mb, .fault, .link, .pwm, .safe, .red] s s5 := by
      refine Keeps.step (State.onPwm_keeps ..) rfl ?_
      exact Keeps.refl _ _
    clear_value s5
    extract_lets -lift +onlyGivenNames s6
    have h_s6 : Keeps [.dev, .mb, .fault, .link, .pwm, .safe, .red] s s6 := by
      refine foldl_keeps _ ?_ _ _ _ ?_
      · intro a7 a8
        refine Keeps.step (pairTrip_keeps ..) rfl ?_
        exact Keeps.refl _ _
      · assumption
    clear_value s6
    extract_lets -lift +onlyGivenNames s9
    have h_s9 : Keeps [.dev, .mb, .fault, .link, .pwm, .safe, .red] s s9 := by
      refine Keeps.step (raise_keeps ..) rfl ?_
      assumption
    clear_value s9
    refine Answers.next ?_
    refine Keeps.step (stoInput_keeps ..) rfl ?_
    refine when_keeps _ _ _ _ ?_ ?_
    · assumption
    · refine Keeps.step (addTrigger_keeps ..) rfl ?_
      refine Keeps.step (blockAll_keeps ..) rfl ?_
      exact Keeps.refl _ _

theorem execComparatorInactive_keeps (cmp : Nat) (s : State) : Answers [.pwm] s (execComparatorInactive cmp s) := by
  unfold execComparatorInactive
  refine Answers.next ?_
  refine Keeps.step (State.onPwm_keeps ..) rfl ?_
  exact Keeps.refl _ _

/-! ### Loop -/

theorem execLoopChannelConfig_keeps (c : Cmd) (s : State) : Answers [.host, .mb, .tick, .fault, .link, .loop] s (execLoopChannelConfig c s) := by
  unfold execLoopChannelConfig
  extract_lets -lift +onlyGivenNames l0
  clear_value l0
  extract_lets -lift +onlyGivenNames die1
  clear_value die1
  extract_lets -lift +onlyGivenNames old2
  clear_value old2
  extract_lets -lift +onlyGivenNames k3
  clear_value k3
  extract_lets -lift +onlyGivenNames sels4
  clear_value sels4
  extract_lets -lift +onlyGivenNames g5
  clear_value g5
  refine Answers.runCmd _ _ _ _ ?_ rfl
  intro a6
  split
  · try dsimp -zeta only
    exact Keeps.refl _ _
  · extract_lets -lift +onlyGivenNames s8
    have h_s8 : Keeps [.host, .mb, .tick, .fault, .link, .loop] a6 s8 := by
      refine Keeps.step (stageLoop_keeps ..) rfl ?_
      exact Keeps.refl _ _
    clear_value s8
    extract_lets -lift +onlyGivenNames sh10
    clear_value sh10
    split
    · try dsimp -zeta only
      exact Keeps.refl _ _
    · try dsimp -zeta only [okReply]
      assumption

theorem execLoopCoeffLoad_keeps (c : Cmd) (s : State) : Answers [.host, .mb, .tick, .loop] s (execLoopCoeffLoad c s) := by
  unfold execLoopCoeffLoad
  extract_lets -lift +onlyGivenNames l0
  clear_value l0
  extract_lets -lift +onlyGivenNames old1
  clear_value old1
  extract_lets -lift +onlyGivenNames r2
  clear_value r2
  extract_lets -lift +onlyGivenNames ks3
  clear_value ks3
  extract_lets -lift +onlyGivenNames k4
  clear_value k4
  extract_lets -lift +onlyGivenNames g5
  clear_value g5
  refine Answers.runCmd _ _ _ _ ?_ rfl
  intro a6
  try dsimp -zeta only [okReply]
  refine Keeps.step (stageLoop_keeps ..) rfl ?_
  exact Keeps.refl _ _

theorem execLoopTableLoad_keeps (c : Cmd) (s : State) : Answers [.host, .mb, .tick, .loop] s (execLoopTableLoad c s) := by
  unfold execLoopTableLoad
  extract_lets -lift +onlyGivenNames l0
  clear_value l0
  extract_lets -lift +onlyGivenNames old1
  clear_value old1
  extract_lets -lift +onlyGivenNames k2
  clear_value k2
  extract_lets -lift +onlyGivenNames g3
  clear_value g3
  refine Answers.runCmd _ _ _ _ ?_ rfl
  intro a4
  try dsimp -zeta only [okReply]
  refine Keeps.step (stageLoop_keeps ..) rfl ?_
  exact Keeps.refl _ _

theorem execLoopScheduleConfig_keeps (c : Cmd) (s : State) : Answers [.host, .mb, .tick, .loop] s (execLoopScheduleConfig c s) := by
  unfold execLoopScheduleConfig
  extract_lets -lift +onlyGivenNames l0
  clear_value l0
  extract_lets -lift +onlyGivenNames die1
  clear_value die1
  extract_lets -lift +onlyGivenNames r2
  clear_value r2
  extract_lets -lift +onlyGivenNames ts3
  clear_value ts3
  extract_lets -lift +onlyGivenNames sel4
  clear_value sel4
  extract_lets -lift +onlyGivenNames k5
  clear_value k5
  extract_lets -lift +onlyGivenNames g6
  clear_value g6
  refine Answers.runCmd _ _ _ _ ?_ rfl
  intro a7
  split
  · try dsimp -zeta only
    exact Keeps.refl _ _
  · try dsimp -zeta only [okReply]
    refine Keeps.step (stageLoop_keeps ..) rfl ?_
    exact Keeps.refl _ _

theorem execLoopRepetitiveConfig_keeps (c : Cmd) (s : State) : Answers [.host, .mb, .tick, .loop] s (execLoopRepetitiveConfig c s) := by
  unfold execLoopRepetitiveConfig
  extract_lets -lift +onlyGivenNames l0
  clear_value l0
  extract_lets -lift +onlyGivenNames die1
  clear_value die1
  extract_lets -lift +onlyGivenNames k2
  clear_value k2
  extract_lets -lift +onlyGivenNames g3
  clear_value g3
  refine Answers.runCmd _ _ _ _ ?_ rfl
  intro a4
  split
  · try dsimp -zeta only
    exact Keeps.refl _ _
  · extract_lets -lift +onlyGivenNames s6
    have h_s6 : Keeps [.host, .mb, .tick, .loop] a4 s6 := by
      refine Keeps.step (stageLoop_keeps ..) rfl ?_
      exact Keeps.refl _ _
    clear_value s6
    extract_lets -lift +onlyGivenNames n8
    clear_value n8
    split
    · try dsimp -zeta only
      exact Keeps.refl _ _
    · try dsimp -zeta only [okReply]
      assumption

theorem execLoopSupervisorConfig_keeps (c : Cmd) (s : State) : Answers [.host, .mb, .tick, .loop] s (execLoopSupervisorConfig c s) := by
  unfold execLoopSupervisorConfig
  extract_lets -lift +onlyGivenNames l0
  clear_value l0
  extract_lets -lift +onlyGivenNames old1
  clear_value old1
  extract_lets -lift +onlyGivenNames k2
  clear_value k2
  extract_lets -lift +onlyGivenNames g3
  clear_value g3
  refine Answers.runCmd _ _ _ _ ?_ rfl
  intro a4
  try dsimp -zeta only [okReply]
  refine Keeps.step (stageLoop_keeps ..) rfl ?_
  exact Keeps.refl _ _

theorem execLoopStatus_keeps (c : Cmd) (s : State) : Answers [.host, .mb] s (execLoopStatus c s) := by
  unfold execLoopStatus
  extract_lets -lift +onlyGivenNames l0
  clear_value l0
  extract_lets -lift +onlyGivenNames n1
  clear_value n1
  extract_lets -lift +onlyGivenNames a2
  clear_value a2
  extract_lets -lift +onlyGivenNames g3
  clear_value g3
  refine Answers.runCmd _ _ _ _ ?_ rfl
  intro a4
  extract_lets -lift +onlyGivenNames ls6
  clear_value ls6
  extract_lets -lift +onlyGivenNames num8
  clear_value num8
  extract_lets -lift +onlyGivenNames s10
  have h_s10 : Keeps [.host, .mb] a4 s10 := by
    refine ite_keeps _ _ _ ?_ ?_
    · intro a11
      exact Keeps.refl _ _
    · intro a12
      refine Keeps.step (putBuf_keeps ..) rfl ?_
      exact Keeps.refl _ _
  clear_value s10
  try dsimp -zeta only [okReply]
  assumption

theorem execLoopHoldExpiry_keeps (lch : Nat) (s : State) : Answers [.dev, .fault, .loop] s (execLoopHoldExpiry lch s) := by
  unfold execLoopHoldExpiry
  extract_lets -lift +onlyGivenNames c0
  clear_value c0
  extract_lets -lift +onlyGivenNames lim1
  clear_value lim1
  extract_lets -lift +onlyGivenNames s2
  have h_s2 : Keeps [.dev, .fault, .loop] s s2 := by
    refine Keeps.step (holdExpire_keeps ..) rfl ?_
    exact Keeps.refl _ _
  clear_value s2
  refine Answers.ite _ _ _ ?_ ?_
  · intro a3
    refine Answers.next ?_
    refine Keeps.step (loopUpd_keeps ..) rfl ?_
    assumption
  · intro a4
    refine Answers.next ?_
    assumption

theorem execLoopSatTimeReached_keeps (lch : Nat) (s : State) : Answers [.dev, .fault, .loop] s (execLoopSatTimeReached lch s) := by
  unfold execLoopSatTimeReached
  extract_lets -lift +onlyGivenNames lim0
  clear_value lim0
  refine Answers.next ?_
  refine Keeps.step (satExpire_keeps ..) rfl ?_
  exact Keeps.refl _ _

theorem execLoopAutoResume_keeps (lch : Nat) (s : State) : Answers [.fault, .loop] s (execLoopAutoResume lch s) := by
  unfold execLoopAutoResume
  extract_lets -lift +onlyGivenNames c0
  clear_value c0
  refine Answers.ite _ _ _ ?_ ?_
  · intro a1
    extract_lets -lift +onlyGivenNames lim2
    clear_value lim2
    refine Answers.next ?_
    refine Keeps.step (runEval_keeps ..) rfl ?_
    refine Keeps.step (resume_keeps ..) rfl ?_
    exact Keeps.refl _ _
  · intro a3
    refine Answers.next ?_
    exact Keeps.refl _ _

/-! ### Mailbox -/

theorem execMbEnable_keeps (mb : Fin 8) (value : Word32) (s : State) : Answers [.mb] s (execMbEnable mb value s) := by
  unfold execMbEnable
  refine Answers.next ?_
  refine Keeps.step (mbCtrlWrite_keeps ..) rfl ?_
  exact Keeps.refl _ _

theorem execMbDisable_keeps (mb : Fin 8) (value : Word32) (s : State) : Answers [.mb] s (execMbDisable mb value s) := by
  unfold execMbDisable
  refine Answers.next ?_
  refine Keeps.step (mbCtrlWrite_keeps ..) rfl ?_
  exact Keeps.refl _ _

theorem execMbDoorbell_keeps (mb : Fin 8) (value : Word32) (s : State) : Answers [.mb] s (execMbDoorbell mb value s) := by
  unfold execMbDoorbell
  refine Answers.next ?_
  refine Keeps.step (doorbellWrite_keeps ..) rfl ?_
  exact Keeps.refl _ _

theorem execMbRspHeadWrite_keeps (mb : Fin 8) (value : Word32) (s : State) : Answers [.mb] s (execMbRspHeadWrite mb value s) := by
  unfold execMbRspHeadWrite
  refine Answers.next ?_
  refine Keeps.step (rspHeadWrite_keeps ..) rfl ?_
  exact Keeps.refl _ _

theorem execCommandFetch_keeps (entry : Bytes) (block : Bytes) (s : State) : Answers [.host, .mb] s (execCommandFetch entry block s) := by
  unfold execCommandFetch
  refine Answers.ite _ _ _ ?_ ?_
  · intro a0
    refine Answers.next ?_
    exact Keeps.refl _ _
  · intro a1
    split
    · refine Answers.next ?_
      exact Keeps.refl _ _
    · extract_lets -lift +onlyGivenNames h2
      clear_value h2
      extract_lets -lift +onlyGivenNames s3
      have h_s3 : Keeps [.host, .mb] s s3 := by
        refine Keeps.step (mbUpd_keeps ..) rfl ?_
        refine Keeps.step (State.onMb_keeps _ _ (by exact id)) rfl ?_
        exact Keeps.refl _ _
      clear_value s3
      extract_lets -lift +onlyGivenNames s5
      have h_s5 : Keeps [.host, .mb] s s5 := by
        refine ite_keeps _ _ _ ?_ ?_
        · intro a6
          assumption
        · intro a7
          refine Keeps.step (mbUpd_keeps ..) rfl ?_
          assumption
      clear_value s5
      refine Answers.ite _ _ _ ?_ ?_
      · intro a8
        refine Answers.next ?_
        refine Keeps.step (answerEntry_keeps ..) rfl ?_
        assumption
      · intro a9
        refine Answers.ite _ _ _ ?_ ?_
        · intro a10
          refine Answers.next ?_
          refine Keeps.step (answerEntry_keeps ..) rfl ?_
          assumption
        · intro a11
          refine Answers.ite _ _ _ ?_ ?_
          · intro a12
            refine Answers.next ?_
            refine Keeps.step (answerEntry_keeps ..) rfl ?_
            assumption
          · intro a13
            refine Answers.next ?_
            refine Keeps.step (State.onMb_keeps _ _ (by exact id)) rfl ?_
            assumption

theorem execHeldResponseWrite_keeps (mb : Fin 8) (s : State) : Answers [.host, .mb, .fault, .acq] s (execHeldResponseWrite mb s) := by
  unfold execHeldResponseWrite
  extract_lets -lift +onlyGivenNames b0
  clear_value b0
  split
  · refine Answers.next ?_
    exact Keeps.refl _ _
  · refine Answers.ite _ _ _ ?_ ?_
    · intro a1
      refine Answers.next ?_
      exact Keeps.refl _ _
    · intro a2
      refine Answers.next ?_
      refine Keeps.step (settle_keeps ..) rfl ?_
      refine Keeps.step (segsFree_keeps ..) rfl ?_
      refine Keeps.step (writeRsp_keeps ..) rfl ?_
      refine Keeps.step (mbUpd_keeps ..) rfl ?_
      exact Keeps.refl _ _

theorem execFinalResponse_keeps (mb : Fin 8) (s : State) : Answers [.host, .mb] s (execFinalResponse mb s) := by
  unfold execFinalResponse
  split
  · refine Answers.next ?_
    exact Keeps.refl _ _
  · extract_lets -lift +onlyGivenNames s0
    have h_s0 : Keeps [.host, .mb] s s0 := by
      refine Keeps.step (State.onMb_keeps _ _ (by exact id)) rfl ?_
      exact Keeps.refl _ _
    clear_value s0
    extract_lets -lift +onlyGivenNames s2
    have h_s2 : Keeps [.host, .mb] s s2 := by
      refine Keeps.step (respond_keeps ..) rfl ?_
      assumption
    clear_value s2
    extract_lets -lift +onlyGivenNames s3
    have h_s3 : Keeps [.host, .mb] s s3 := by
      refine ite_keeps _ _ _ ?_ ?_
      · intro a4
        assumption
      · intro a5
        refine Keeps.step (logAdd_keeps ..) rfl ?_
        assumption
    clear_value s3
    refine Answers.next ?_
    refine Keeps.step (settle_keeps ..) rfl ?_
    refine Keeps.step (release_keeps ..) rfl ?_
    assumption

/-! ### Mon -/

theorem execMonAttach_keeps (c : Cmd) (s : State) : Answers [.host, .mb, .spare] s (execMonAttach c s) := by
  unfold execMonAttach
  extract_lets -lift +onlyGivenNames m0
  clear_value m0
  extract_lets -lift +onlyGivenNames point1
  clear_value point1
  extract_lets -lift +onlyGivenNames cls2
  clear_value cls2
  extract_lets -lift +onlyGivenNames i3
  clear_value i3
  extract_lets -lift +onlyGivenNames g4
  clear_value g4
  refine Answers.runCmd _ _ _ _ ?_ rfl
  intro a5
  try dsimp -zeta only [okReply]
  refine Keeps.step (monUpd_keeps ..) rfl ?_
  exact Keeps.refl _ _

theorem execMonReset_keeps (c : Cmd) (s : State) : Answers [.host, .mb, .spare] s (execMonReset c s) := by
  unfold execMonReset
  extract_lets -lift +onlyGivenNames mask0
  clear_value mask0
  extract_lets -lift +onlyGivenNames g1
  clear_value g1
  refine Answers.runCmd _ _ _ _ ?_ rfl
  intro a2
  try dsimp -zeta only [okReply]
  refine foldl_keeps _ ?_ _ _ _ ?_
  · intro a3 a4
    refine Keeps.step (monUpd_keeps ..) rfl ?_
    exact Keeps.refl _ _
  · exact Keeps.refl _ _

theorem execMonRead_keeps (c : Cmd) (s : State) : Answers [.host, .mb] s (execMonRead c s) := by
  unfold execMonRead
  extract_lets -lift +onlyGivenNames a0
  clear_value a0
  extract_lets -lift +onlyGivenNames n1
  clear_value n1
  extract_lets -lift +onlyGivenNames g2
  clear_value g2
  refine Answers.runCmd _ _ _ _ ?_ rfl
  intro a3
  extract_lets -lift +onlyGivenNames p5
  clear_value p5
  try dsimp -zeta only [okReply]
  refine Keeps.step (putBuf_keeps ..) rfl ?_
  exact Keeps.refl _ _

theorem execMonWindowRead_keeps (mon : Fin 32) (s : State) : Answers [.spare] s (execMonWindowRead mon s) := by
  unfold execMonWindowRead
  refine Answers.next ?_
  refine when_keeps _ _ _ _ ?_ ?_
  · exact Keeps.refl _ _
  · refine Keeps.step (monUpd_keeps ..) rfl ?_
    exact Keeps.refl _ _

theorem execMonitorSample_keeps (mon : Fin 32) (value : Word32) (s : State) : Answers [.fault, .spare] s (execMonitorSample mon value s) := by
  unfold execMonitorSample
  extract_lets -lift +onlyGivenNames x0
  clear_value x0
  refine Answers.ite _ _ _ ?_ ?_
  · intro a1
    refine Answers.next ?_
    exact Keeps.refl _ _
  · intro a2
    extract_lets -lift +onlyGivenNames p3
    clear_value p3
    extract_lets -lift +onlyGivenNames v4
    clear_value v4
    extract_lets -lift +onlyGivenNames r5
    clear_value r5
    extract_lets -lift +onlyGivenNames excess6
    clear_value excess6
    extract_lets -lift +onlyGivenNames first7
    clear_value first7
    extract_lets -lift +onlyGivenNames n8
    clear_value n8
    extract_lets -lift +onlyGivenNames s9
    have h_s9 : Keeps [.fault, .spare] s s9 := by
      refine Keeps.step (monUpd_keeps ..) rfl ?_
      exact Keeps.refl _ _
    clear_value s9
    refine Answers.next ?_
    refine when_keeps _ _ _ _ ?_ ?_
    · assumption
    · refine Keeps.step (raise_keeps ..) rfl ?_
      exact Keeps.refl _ _

/-! ### Power -/

theorem execNporAccept_keeps (s : State) : Answers [.dev, .power, .mb, .tick, .fault, .link, .aie, .pwm, .loop, .tiles, .meas, .time, .acq, .prot, .net, .safe, .red, .galley, .spare] s (execNporAccept s) := by
  refine ⟨_, rfl, ?_⟩
  refine Keeps.step (K := [.dev, .power]) (u := hardReset s) ?_ rfl (Keeps.mono (hardReset_keeps s) rfl)
  constructor <;> intros <;> first | rfl | exact freshTick_legal _ _ | exact freshMb_fits _ _ | assumption | (exfalso; simp_all; done)

theorem execNporRise_keeps (s : State) : Answers [.dev, .power, .mb, .fault] s (execNporRise s) := by
  unfold execNporRise
  refine Answers.ite _ _ _ (fun _ => Answers.next (Keeps.refl _ _)) (fun _ => Answers.next ?_)
  refine Keeps.step (bootEntered_keeps ..) rfl ?_
  refine Keeps.step (State.onPower_keeps ..) rfl ?_
  refine Keeps.step (State.onDev_keeps _ _ rfl) rfl ?_
  exact Keeps.refl _ _

theorem execStrapSample_keeps (pairsel : Bool) (trefsel : Bool) (ftest : Bool) (unitid : BitVec 4) (s : State) : Answers [.power, .fault] s (execStrapSample pairsel trefsel ftest unitid s) := by
  unfold execStrapSample
  extract_lets -lift +onlyGivenNames now0
  clear_value now0
  refine Answers.ite _ _ _ ?_ ?_
  · intro a1
    refine Answers.next ?_
    exact Keeps.refl _ _
  · intro a2
    split
    · refine Answers.next ?_
      refine Keeps.step (State.onPower_keeps ..) rfl ?_
      exact Keeps.refl _ _
    · extract_lets -lift +onlyGivenNames r3
      clear_value r3
      extract_lets -lift +onlyGivenNames s4
      have h_s4 : Keeps [.power, .fault] s s4 := by
        refine Keeps.step (State.onPower_keeps ..) rfl ?_
        exact Keeps.refl _ _
      clear_value s4
      refine Answers.next ?_
      refine when_keeps _ _ _ _ ?_ ?_
      · assumption
      · refine Keeps.step (sysEvent_keeps ..) rfl ?_
        exact Keeps.refl _ _

theorem execBootPllLock_keeps (s : State) : Answers [.power] s (execBootPllLock s) := by
  unfold execBootPllLock
  refine Answers.ite _ _ _ ?_ ?_
  · intro a0
    refine Answers.next ?_
    exact Keeps.refl _ _
  · intro a1
    extract_lets -lift +onlyGivenNames time2
    clear_value time2
    refine Answers.next ?_
    refine Keeps.step (bootRow_keeps ..) rfl ?_
    refine Keeps.step (State.onPower_keeps ..) rfl ?_
    exact Keeps.refl _ _

theorem execBootFirmwareStart_keeps (s : State) : Answers [.power, .safe] s (execBootFirmwareStart s) := by
  unfold execBootFirmwareStart
  refine Answers.ite _ _ _ ?_ ?_
  · intro a0
    refine Answers.next ?_
    exact Keeps.refl _ _
  · intro a1
    extract_lets -lift +onlyGivenNames lost2
    clear_value lost2
    extract_lets -lift +onlyGivenNames s3
    have h_s3 : Keeps [.power, .safe] s s3 := by
      refine Keeps.step (State.onPower_keeps ..) rfl ?_
      exact Keeps.refl _ _
    clear_value s3
    refine Answers.next ?_
    refine Keeps.step (bootRow_keeps ..) rfl ?_
    refine when_keeps _ _ _ _ ?_ ?_
    · assumption
    · refine Keeps.step (State.onSafe_keeps ..) rfl ?_
      exact Keeps.refl _ _

theorem execBootTimePllLock_keeps (s : State) : Answers [.power, .fault, .time] s (execBootTimePllLock s) := by
  unfold execBootTimePllLock
  refine Answers.ite _ _ _ ?_ ?_
  · intro a0
    refine Answers.next ?_
    exact Keeps.refl _ _
  · intro a1
    extract_lets -lift +onlyGivenNames s2
    have h_s2 : Keeps [.power, .fault, .time] s s2 := by
      refine Keeps.step (bootRow_keeps ..) rfl ?_
      refine Keeps.step (State.onPower_keeps ..) rfl ?_
      exact Keeps.refl _ _
    clear_value s2
    refine Answers.ite _ _ _ ?_ ?_
    · intro a3
      refine Answers.next ?_
      assumption
    · intro a4
      extract_lets -lift +onlyGivenNames off5
      clear_value off5
      extract_lets -lift +onlyGivenNames frac6
      clear_value frac6
      extract_lets -lift +onlyGivenNames t7
      clear_value t7
      extract_lets -lift +onlyGivenNames b8
      clear_value b8
      extract_lets -lift +onlyGivenNames s9
      have h_s9 : Keeps [.power, .fault, .time] s s9 := by
        refine Keeps.step (State.onTime_keeps ..) rfl ?_
        assumption
      clear_value s9
      refine Answers.ite _ _ _ ?_ ?_
      · intro a10
        refine Answers.next ?_
        assumption
      · intro a11
        extract_lets -lift +onlyGivenNames s12
        have h_s12 : Keeps [.power, .fault, .time] s s12 := by
          refine Keeps.step (baseUpd_keeps ..) rfl ?_
          refine Keeps.step (baseUpd_keeps ..) rfl ?_
          assumption
        clear_value s12
        refine Answers.next ?_
        refine Keeps.step (setQual_keeps ..) rfl ?_
        refine Keeps.step (State.onTime_keeps ..) rfl ?_
        assumption

theorem execBootLinksUp_keeps (failed : List Nat) (s : State) : Answers [.power, .fault] s (execBootLinksUp failed s) := by
  unfold execBootLinksUp
  refine Answers.ite _ _ _ ?_ ?_
  · intro a0
    refine Answers.next ?_
    exact Keeps.refl _ _
  · intro a1
    refine Answers.next ?_
    refine Keeps.step (bootRow_keeps ..) rfl ?_
    refine Keeps.step (declareFailed_keeps ..) rfl ?_
    exact Keeps.refl _ _

theorem execBootSelftestDone_keeps (test : SelfTest) (s : State) : Answers [.power, .fault, .link, .loop, .tiles, .meas, .spare] s (execBootSelftestDone test s) := by
  unfold execBootSelftestDone
  refine Answers.ite _ _ _ ?_ ?_
  · intro a0
    refine Answers.next ?_
    exact Keeps.refl _ _
  · intro a1
    extract_lets -lift +onlyGivenNames s2
    have h_s2 : Keeps [.power, .fault, .link, .loop, .tiles, .meas, .spare] s s2 := by
      refine Keeps.step (declareFailed_keeps ..) rfl ?_
      refine Keeps.step (State.onPower_keeps ..) rfl ?_
      exact Keeps.refl _ _
    clear_value s2
    refine Answers.next ?_
    refine Keeps.step (bootRow_keeps ..) rfl ?_
    refine when_keeps _ _ _ _ ?_ ?_
    · assumption
    · refine Keeps.step (rebuildInventory_keeps ..) rfl ?_
      exact Keeps.refl _ _

theorem execBootDdrTrained_keeps (mibA : Nat) (mibB : Nat) (s : State) : Answers [.power, .galley] s (execBootDdrTrained mibA mibB s) := by
  unfold execBootDdrTrained
  refine Answers.ite _ _ _ ?_ ?_
  · intro a0
    refine Answers.next ?_
    exact Keeps.refl _ _
  · intro a1
    extract_lets -lift +onlyGivenNames n2
    clear_value n2
    extract_lets -lift +onlyGivenNames ring3
    clear_value ring3
    refine Answers.next ?_
    refine Keeps.step (bootRow_keeps ..) rfl ?_
    refine Keeps.step (State.onGalley_keeps ..) rfl ?_
    refine Keeps.step (State.onPower_keeps ..) rfl ?_
    exact Keeps.refl _ _

theorem execBootPcieReady_keeps (s : State) : Answers [.power, .spare] s (execBootPcieReady s) := by
  unfold execBootPcieReady
  refine Answers.ite _ _ _ ?_ ?_
  · intro a0
    refine Answers.next ?_
    exact Keeps.refl _ _
  · intro a1
    refine Answers.next ?_
    refine Keeps.step (bootRow_keeps ..) rfl ?_
    refine Keeps.step (cdcRestart_keeps ..) rfl ?_
    refine Keeps.step (State.onPower_keeps ..) rfl ?_
    exact Keeps.refl _ _

theorem execBootComplete_keeps (s : State) : Answers [.dev, .power, .mb, .tick, .fault, .link, .aie, .pwm, .loop, .tiles, .meas, .prot, .safe, .red, .galley, .spare] s (execBootComplete s) := by
  unfold execBootComplete
  refine Answers.ite _ _ _ ?_ ?_
  · intro a0
    refine Answers.next ?_
    exact Keeps.refl _ _
  · intro a1
    extract_lets -lift +onlyGivenNames s2
    have h_s2 : Keeps [.dev, .power, .mb, .tick, .fault, .link, .aie, .pwm, .loop, .tiles, .meas, .prot, .safe, .red, .galley, .spare] s s2 := by
      refine Keeps.step (bootReports_keeps ..) rfl ?_
      refine Keeps.step (bootUnits_keeps ..) rfl ?_
      exact Keeps.refl _ _
    clear_value s2
    extract_lets -lift +onlyGivenNames s3
    have h_s3 : Keeps [.dev, .power, .mb, .tick, .fault, .link, .aie, .pwm, .loop, .tiles, .meas, .prot, .safe, .red, .galley, .spare] s s3 := by
      refine Keeps.step (transition_keeps ..) rfl ?_
      refine Keeps.step (State.onDev_keeps (h := rfl) ..) rfl ?_
      assumption
    clear_value s3
    extract_lets -lift +onlyGivenNames s4
    have h_s4 : Keeps [.dev, .power, .mb, .tick, .fault, .link, .aie, .pwm, .loop, .tiles, .meas, .prot, .safe, .red, .galley, .spare] s s4 := by
      refine Keeps.step (safeBoot_keeps ..) rfl ?_
      refine Keeps.step (cdcRestart_keeps ..) rfl ?_
      refine Keeps.step (State.onGalley_keeps ..) rfl ?_
      assumption
    clear_value s4
    extract_lets -lift +onlyGivenNames s5
    have h_s5 : Keeps [.dev, .power, .mb, .tick, .fault, .link, .aie, .pwm, .loop, .tiles, .meas, .prot, .safe, .red, .galley, .spare] s s5 := by
      refine Keeps.step (State.onPower_keeps ..) rfl ?_
      assumption
    clear_value s5
    extract_lets -lift +onlyGivenNames own6
    clear_value own6
    extract_lets -lift +onlyGivenNames s7
    have h_s7 : Keeps [.dev, .power, .mb, .tick, .fault, .link, .aie, .pwm, .loop, .tiles, .meas, .prot, .safe, .red, .galley, .spare] s s7 := by
      refine when_keeps _ _ _ _ ?_ ?_
      · assumption
      · refine Keeps.step (protStop_keeps ..) rfl ?_
        exact Keeps.refl _ _
    clear_value s7
    refine Answers.next ?_
    refine when_keeps _ _ _ _ ?_ ?_
    · refine Keeps.step (capsBuild_keeps ..) rfl ?_
      assumption
    · refine Keeps.step (addTrigger_keeps ..) rfl ?_
      exact Keeps.refl _ _

theorem execPerstnAssert_keeps (s : State) : Answers [.freeCtr, .power, .fault, .spare] s (execPerstnAssert s) := by
  unfold execPerstnAssert
  refine Answers.ite _ _ _ ?_ ?_
  · intro a0
    refine Answers.next ?_
    exact Keeps.refl _ _
  · intro a1
    refine Answers.next ?_
    refine Keeps.step (cdcFlush_keeps ..) rfl ?_
    refine Keeps.step (State.onPower_keeps ..) rfl ?_
    exact Keeps.refl _ _

theorem execPerstnRelease_keeps (s : State) : Answers [.power] s (execPerstnRelease s) := by
  unfold execPerstnRelease
  refine Answers.next ?_
  refine Keeps.step (State.onPower_keeps ..) rfl ?_
  exact Keeps.refl _ _

theorem execRailLow_keeps (die : Nat) (rail : Nat) (stays : Bool) (s : State) : Answers [.dev, .power, .mb, .fault, .link, .pwm, .prot, .red] s (execRailLow die rail stays s) := by
  unfold execRailLow
  refine Answers.ite _ _ _ ?_ ?_
  · intro a0
    refine Answers.next ?_
    exact Keeps.refl _ _
  · intro a1
    extract_lets -lift +onlyGivenNames known2
    clear_value known2
    extract_lets -lift +onlyGivenNames s3
    have h_s3 : Keeps [.dev, .power, .mb, .fault, .link, .pwm, .prot, .red] s s3 := by
      refine ite_keeps _ _ _ ?_ ?_
      · intro a4
        exact Keeps.refl _ _
      · intro a5
        refine Keeps.step (fatalFault_keeps ..) rfl ?_
        exact Keeps.refl _ _
    clear_value s3
    refine Answers.next ?_
    refine Keeps.step (State.onPower_keeps ..) rfl ?_
    refine Keeps.step (State.onDev_keeps (h := rfl) ..) rfl ?_
    assumption

theorem execRefclkLost_keeps (s : State) : Answers [.dev, .power, .mb, .fault, .link, .pwm, .prot, .red] s (execRefclkLost s) := by
  unfold execRefclkLost
  refine Answers.ite _ _ _ ?_ ?_
  · intro a0
    refine Answers.next ?_
    exact Keeps.refl _ _
  · intro a1
    refine Answers.next ?_
    refine Keeps.step (fatalFault_keeps ..) rfl ?_
    refine Keeps.step (protStop_keeps ..) rfl ?_
    refine Keeps.step (refGone_keeps ..) rfl ?_
    exact Keeps.refl _ _

theorem execTimerefLost_keeps (s : State) : Answers [.power, .fault] s (execTimerefLost s) := by
  unfold execTimerefLost
  refine Answers.ite _ _ _ ?_ ?_
  · intro a0
    refine Answers.next ?_
    exact Keeps.refl _ _
  · intro a1
    refine Answers.next ?_
    refine Keeps.step (clockEvent_keeps ..) rfl ?_
    refine Keeps.step (State.onPower_keeps ..) rfl ?_
    refine Keeps.step (refGone_keeps ..) rfl ?_
    exact Keeps.refl _ _

theorem execTimerefReturn_keeps (s : State) : Answers [.power] s (execTimerefReturn s) := by
  unfold execTimerefReturn
  refine Answers.next ?_
  refine Keeps.step (State.onPower_keeps ..) rfl ?_
  exact Keeps.refl _ _

theorem execEthRefclkLost_keeps (s : State) : Answers [.power, .fault, .net] s (execEthRefclkLost s) := by
  unfold execEthRefclkLost
  refine Answers.ite _ _ _ ?_ ?_
  · intro a0
    refine Answers.next ?_
    exact Keeps.refl _ _
  · intro a1
    refine Answers.next ?_
    refine foldl_keeps _ ?_ _ _ _ ?_
    · intro a2 a3
      refine Keeps.step (linkChange_keeps ..) rfl ?_
      exact Keeps.refl _ _
    · refine Keeps.step (clockEvent_keeps ..) rfl ?_
      refine Keeps.step (refGone_keeps ..) rfl ?_
      exact Keeps.refl _ _

theorem execPcieRefclkLost_keeps (s : State) : Answers [.power, .fault] s (execPcieRefclkLost s) := by
  unfold execPcieRefclkLost
  refine Answers.ite _ _ _ ?_ ?_
  · intro a0
    refine Answers.next ?_
    exact Keeps.refl _ _
  · intro a1
    refine Answers.next ?_
    refine Keeps.step (clockEvent_keeps ..) rfl ?_
    refine Keeps.step (State.onPower_keeps ..) rfl ?_
    refine Keeps.step (refGone_keeps ..) rfl ?_
    exact Keeps.refl _ _

theorem execXtal32Lost_keeps (s : State) : Answers [.power] s (execXtal32Lost s) := by
  unfold execXtal32Lost
  refine Answers.next ?_
  refine Keeps.step (State.onPower_keeps ..) rfl ?_
  refine Keeps.step (refGone_keeps ..) rfl ?_
  exact Keeps.refl _ _

theorem execPllUnlock_keeps (domain : Nat) (s : State) : Answers [.dev, .power, .mb, .fault, .link, .pwm, .prot, .red] s (execPllUnlock domain s) := by
  unfold execPllUnlock
  refine Answers.ite _ _ _ ?_ ?_
  · intro a0
    refine Answers.next ?_
    exact Keeps.refl _ _
  · intro a1
    refine Answers.next ?_
    refine Keeps.step (fatalFault_keeps ..) rfl ?_
    refine Keeps.step (State.onPower_keeps ..) rfl ?_
    exact Keeps.refl _ _

theorem execRstbtnPressSeen_keeps (atBoot : Bool) (s : State) : Answers [.power] s (execRstbtnPressSeen atBoot s) := by
  unfold execRstbtnPressSeen
  refine Answers.ite _ _ _ ?_ ?_
  · intro a0
    refine Answers.next ?_
    exact Keeps.refl _ _
  · intro a1
    refine Answers.next ?_
    refine Keeps.step (State.onPower_keeps ..) rfl ?_
    exact Keeps.refl _ _

theorem execRstbtnReleaseSeen_keeps (ms : Nat) (s : State) : Answers [.dev, .power, .fault, .red] s (execRstbtnReleaseSeen ms s) := by
  unfold execRstbtnReleaseSeen
  refine Answers.ite _ _ _ ?_ ?_
  · intro a0
    refine Answers.next ?_
    exact Keeps.refl _ _
  · intro a1
    extract_lets -lift +onlyGivenNames s2
    have h_s2 : Keeps [.dev, .power, .fault, .red] s s2 := by
      refine Keeps.step (State.onPower_keeps ..) rfl ?_
      exact Keeps.refl _ _
    clear_value s2
    refine Answers.ite _ _ _ ?_ ?_
    · intro a3
      refine Answers.next ?_
      assumption
    · intro a4
      refine Answers.next ?_
      refine Keeps.step (requestReset_keeps ..) rfl ?_
      assumption

theorem execRstbtnStuck_keeps (s : State) : Answers [.power, .fault] s (execRstbtnStuck s) := by
  unfold execRstbtnStuck
  refine Answers.ite _ _ _ ?_ ?_
  · intro a0
    refine Answers.next ?_
    exact Keeps.refl _ _
  · intro a1
    refine Answers.next ?_
    refine Keeps.step (sysEvent_keeps ..) rfl ?_
    refine Keeps.step (State.onPower_keeps ..) rfl ?_
    exact Keeps.refl _ _

theorem execRstbtnStuckClear_keeps (s : State) : Answers [.power, .fault] s (execRstbtnStuckClear s) := by
  unfold execRstbtnStuckClear
  refine Answers.ite _ _ _ ?_ ?_
  · intro a0
    refine Answers.next ?_
    exact Keeps.refl _ _
  · intro a1
    refine Answers.next ?_
    refine Keeps.step (sysEvent_keeps ..) rfl ?_
    refine Keeps.step (State.onPower_keeps ..) rfl ?_
    exact Keeps.refl _ _

theorem execResetRequest_keeps (cold : Bool) (source : Nat) (s : State) : Answers [.dev, .power, .fault, .red] s (execResetRequest cold source s) := by
  unfold execResetRequest
  refine Answers.ite _ _ _ ?_ ?_
  · intro a0
    refine Answers.next ?_
    exact Keeps.refl _ _
  · intro a1
    refine Answers.ite _ _ _ ?_ ?_
    · intro a2
      refine Answers.next ?_
      refine Keeps.step (sysEvent_keeps ..) rfl ?_
      exact Keeps.refl _ _
    · intro a3
      refine Answers.next ?_
      refine Keeps.step (requestReset_keeps ..) rfl ?_
      exact Keeps.refl _ _

theorem execResetExecute_keeps (s : State) : Answers [.freeCtr, .host, .dev, .power, .mb, .tick, .fault, .link, .aie, .pwm, .loop, .tiles, .meas, .time, .acq, .prot, .net, .safe, .red, .galley, .spare] s (execResetExecute s) := by
  unfold execResetExecute
  refine Answers.ite _ _ _ ?_ ?_
  · intro a0
    refine Answers.next ?_
    refine Keeps.step (resetStart_keeps ..) rfl ?_
    exact Keeps.refl _ _
  · intro a1
    refine Answers.next ?_
    exact Keeps.refl _ _

theorem execDeviceStateTransition_keeps (s : State) : Answers [.dev, .mb, .tick, .fault, .link, .aie, .pwm, .loop, .tiles, .safe, .red, .galley] s (execDeviceStateTransition s) := by
  unfold execDeviceStateTransition
  refine Answers.next ?_
  refine Keeps.step (actTriggers_keeps ..) rfl ?_
  exact Keeps.refl _ _

theorem execDeblockEnter_keeps (s : State) : Answers [.dev, .mb, .tick, .fault, .link, .aie, .pwm, .loop, .tiles, .safe, .red, .galley] s (execDeblockEnter s) := by
  unfold execDeblockEnter
  refine Answers.next ?_
  refine Keeps.step (actTriggers_keeps ..) rfl ?_
  exact Keeps.refl _ _

theorem execHeartbeatIncrement_keeps (s : State) : Answers [.dev] s (execHeartbeatIncrement s) := by
  unfold execHeartbeatIncrement
  refine Answers.ite _ _ _ ?_ ?_
  · intro a0
    refine Answers.next ?_
    exact Keeps.refl _ _
  · intro a1
    refine Answers.next ?_
    refine Keeps.step (State.onDev_keeps (h := rfl) ..) rfl ?_
    exact Keeps.refl _ _

theorem execAliveToggle_keeps (s : State) : Answers [.dev] s (execAliveToggle s) := by
  unfold execAliveToggle
  refine Answers.ite _ _ _ ?_ ?_
  · intro a0
    refine Answers.next ?_
    refine Keeps.step (State.onDev_keeps (h := rfl) ..) rfl ?_
    exact Keeps.refl _ _
  · intro a1
    refine Answers.next ?_
    exact Keeps.refl _ _

theorem execPackageLinkDown_keeps (link : Nat) (s : State) : Answers [.dev, .mb, .fault, .link, .pwm, .prot, .red] s (execPackageLinkDown link s) := by
  unfold execPackageLinkDown
  split
  · refine Answers.ite _ _ _ ?_ ?_
    · intro a0
      refine Answers.next ?_
      refine Keeps.step (fatalFault_keeps ..) rfl ?_
      exact Keeps.refl _ _
    · intro a1
      refine Answers.next ?_
      exact Keeps.refl _ _
  · refine Answers.next ?_
    exact Keeps.refl _ _

theorem execPcieAerError_keeps (correctable : Bool) (status : Word32) (s : State) : Answers [.fault] s (execPcieAerError correctable status s) := by
  unfold execPcieAerError
  refine Answers.ite _ _ _ ?_ ?_
  · intro a0
    refine Answers.next ?_
    refine Keeps.step (raise_keeps ..) rfl ?_
    exact Keeps.refl _ _
  · intro a1
    refine Answers.next ?_
    exact Keeps.refl _ _

theorem execTamperPulse_keeps (level : Bool) (s : State) : Answers [.dev, .power, .fault, .safe] s (execTamperPulse level s) := by
  unfold execTamperPulse
  extract_lets -lift +onlyGivenNames s0
  have h_s0 : Keeps [.dev, .power, .fault, .safe] s s0 := by
    refine Keeps.step (State.onPower_keeps ..) rfl ?_
    exact Keeps.refl _ _
  clear_value s0
  extract_lets -lift +onlyGivenNames s1
  have h_s1 : Keeps [.dev, .power, .fault, .safe] s s1 := by
    refine Keeps.step (State.onSafe_keeps ..) rfl ?_
    assumption
  clear_value s1
  refine Answers.next ?_
  refine ite_keeps _ _ _ ?_ ?_
  · intro a2
    refine Keeps.step (sealUpdate_keeps ..) rfl ?_
    assumption
  · intro a3
    assumption

theorem execAonPowerLoss_keeps (s : State) : Answers [.power, .safe] s (execAonPowerLoss s) := by
  unfold execAonPowerLoss
  refine Answers.next ?_
  refine Keeps.step (State.onSafe_keeps ..) rfl ?_
  refine Keeps.step (State.onPower_keeps ..) rfl ?_
  exact Keeps.refl _ _

/-! ### Prot -/

theorem execProtElementConfig_keeps (c : Cmd) (s : State) : Answers [.host, .mb, .tick, .prot] s (execProtElementConfig c s) := by
  unfold execProtElementConfig
  extract_lets -lift +onlyGivenNames pt0
  clear_value pt0
  extract_lets -lift +onlyGivenNames n1
  clear_value n1
  extract_lets -lift +onlyGivenNames e2
  clear_value e2
  extract_lets -lift +onlyGivenNames k3
  clear_value k3
  extract_lets -lift +onlyGivenNames fastOk4
  clear_value fastOk4
  extract_lets -lift +onlyGivenNames puOk5
  clear_value puOk5
  extract_lets -lift +onlyGivenNames parEl6
  clear_value parEl6
  extract_lets -lift +onlyGivenNames parPt7
  clear_value parPt7
  extract_lets -lift +onlyGivenNames g8
  clear_value g8
  refine Answers.runCmd _ _ _ _ ?_ rfl
  intro a9
  extract_lets -lift +onlyGivenNames sh11
  clear_value sh11
  split
  · split
    · try dsimp -zeta only
      exact Keeps.refl _ _
    · extract_lets -lift +onlyGivenNames s13
      have h_s13 : Keeps [.host, .mb, .tick, .prot] a9 s13 := by
        refine Keeps.step (protStage_keeps ..) rfl ?_
        exact Keeps.refl _ _
      clear_value s13
      try dsimp -zeta only [okReply]
      assumption
  · extract_lets -lift +onlyGivenNames q15
    clear_value q15
    split
    · try dsimp -zeta only
      exact Keeps.refl _ _
    · extract_lets -lift +onlyGivenNames s17
      have h_s17 : Keeps [.host, .mb, .tick, .prot] a9 s17 := by
        refine Keeps.step (protStage_keeps ..) rfl ?_
        exact Keeps.refl _ _
      clear_value s17
      split
      · try dsimp -zeta only
        exact Keeps.refl _ _
      · try dsimp -zeta only [okReply]
        assumption

theorem execProtCurveLoad_keeps (c : Cmd) (s : State) : Answers [.host, .mb, .tick, .prot] s (execProtCurveLoad c s) := by
  unfold execProtCurveLoad
  extract_lets -lift +onlyGivenNames pts0
  clear_value pts0
  extract_lets -lift +onlyGivenNames g1
  clear_value g1
  refine Answers.runCmd _ _ _ _ ?_ rfl
  intro a2
  try dsimp -zeta only [okReply]
  refine Keeps.step (protStage_keeps ..) rfl ?_
  exact Keeps.refl _ _

theorem execProtTripMap_keeps (c : Cmd) (s : State) : Answers [.host, .mb, .tick, .prot] s (execProtTripMap c s) := by
  unfold execProtTripMap
  extract_lets -lift +onlyGivenNames o0
  clear_value o0
  extract_lets -lift +onlyGivenNames f1
  clear_value f1
  extract_lets -lift +onlyGivenNames k2
  clear_value k2
  extract_lets -lift +onlyGivenNames g3
  clear_value g3
  refine Answers.runCmd _ _ _ _ ?_ rfl
  intro a4
  try dsimp -zeta only [okReply]
  refine Keeps.step (protStage_keeps ..) rfl ?_
  exact Keeps.refl _ _

theorem execProtTripReset_keeps (c : Cmd) (s : State) : Answers [.host, .mb, .fault, .prot] s (execProtTripReset c s) := by
  unfold execProtTripReset
  extract_lets -lift +onlyGivenNames m0
  clear_value m0
  extract_lets -lift +onlyGivenNames os1
  clear_value os1
  extract_lets -lift +onlyGivenNames g2
  clear_value g2
  refine Answers.runCmd _ _ _ _ ?_ rfl
  intro a3
  split
  · try dsimp -zeta only
    exact Keeps.refl _ _
  · split
    · try dsimp -zeta only
      exact Keeps.refl _ _
    · extract_lets -lift +onlyGivenNames s5
      have h_s5 : Keeps [.host, .mb, .fault, .prot] a3 s5 := by
        refine Keeps.step (recLook_keeps ..) rfl ?_
        refine Keeps.step (tripsStep_keeps ..) rfl ?_
        refine foldl_keeps _ ?_ _ _ _ ?_
        · intro a6 a7
          refine Keeps.step (tripUpd_keeps ..) rfl ?_
          exact Keeps.refl _ _
        · exact Keeps.refl _ _
      clear_value s5
      try dsimp -zeta only [okReply]
      assumption

theorem execProtRecordConfig_keeps (c : Cmd) (s : State) : Answers [.host, .mb, .tick, .fault, .prot] s (execProtRecordConfig c s) := by
  unfold execProtRecordConfig
  extract_lets -lift +onlyGivenNames nan0
  clear_value nan0
  extract_lets -lift +onlyGivenNames an1
  clear_value an1
  extract_lets -lift +onlyGivenNames k2
  clear_value k2
  extract_lets -lift +onlyGivenNames g3
  clear_value g3
  refine Answers.runCmd _ _ _ _ ?_ rfl
  intro a4
  split
  · try dsimp -zeta only
    exact Keeps.refl _ _
  · try dsimp -zeta only [okReply]
    refine Keeps.step (protStage_keeps ..) rfl ?_
    exact Keeps.refl _ _

theorem execProtRecordExport_keeps (c : Cmd) (s : State) : Answers [.host, .mb, .fault, .prot] s (execProtRecordExport c s) := by
  unfold execProtRecordExport
  extract_lets -lift +onlyGivenNames part0
  clear_value part0
  extract_lets -lift +onlyGivenNames off1
  clear_value off1
  extract_lets -lift +onlyGivenNames size2
  clear_value size2
  extract_lets -lift +onlyGivenNames named3
  clear_value named3
  extract_lets -lift +onlyGivenNames whole4
  clear_value whole4
  extract_lets -lift +onlyGivenNames g5
  clear_value g5
  refine Answers.runCmd _ _ _ _ ?_ rfl
  intro a6
  split
  · extract_lets -lift +onlyGivenNames n8
    clear_value n8
    extract_lets -lift +onlyGivenNames s10
    have h_s10 : Keeps [.host, .mb, .fault, .prot] a6 s10 := by
      refine Keeps.step (recTrigger_keeps ..) rfl ?_
      exact Keeps.refl _ _
    clear_value s10
    extract_lets -lift +onlyGivenNames rec12
    clear_value rec12
    split
    · assumption
    · try dsimp -zeta only [okReply]
      assumption
  · split
    · try dsimp -zeta only
      exact Keeps.refl _ _
    · extract_lets -lift +onlyGivenNames p14
      clear_value p14
      split
      · try dsimp -zeta only
        exact Keeps.refl _ _
      · extract_lets -lift +onlyGivenNames w16
        clear_value w16
        extract_lets -lift +onlyGivenNames res18
        clear_value res18
        extract_lets -lift +onlyGivenNames s20
        have h_s20 : Keeps [.host, .mb, .fault, .prot] a6 s20 := by
          refine Keeps.step (putBuf_keeps ..) rfl ?_
          exact Keeps.refl _ _
        clear_value s20
        split
        · try dsimp -zeta only
          refine Keeps.step (goPending_keeps ..) rfl ?_
          assumption
        · try dsimp -zeta only [okReply]
          assumption

theorem execProtStatus_keeps (c : Cmd) (s : State) : Answers [.host, .mb] s (execProtStatus c s) := by
  unfold execProtStatus
  extract_lets -lift +onlyGivenNames kind0
  clear_value kind0
  extract_lets -lift +onlyGivenNames a1
  clear_value a1
  extract_lets -lift +onlyGivenNames g2
  clear_value g2
  refine Answers.runCmd _ _ _ _ ?_ rfl
  intro a3
  extract_lets -lift +onlyGivenNames p5
  clear_value p5
  extract_lets -lift +onlyGivenNames cnt7
  clear_value cnt7
  extract_lets -lift +onlyGivenNames r9
  clear_value r9
  extract_lets -lift +onlyGivenNames buf11
  clear_value buf11
  try dsimp -zeta only [okReply]
  refine ite_keeps _ _ _ ?_ ?_
  · intro a12
    exact Keeps.refl _ _
  · intro a13
    refine Keeps.step (putBuf_keeps ..) rfl ?_
    exact Keeps.refl _ _

theorem execProtSlowCycle_keeps (k : Nat) (tcs : Word16) (dram : Bool) (s : State) : Answers [.fault, .prot] s (execProtSlowCycle k tcs dram s) := by
  unfold execProtSlowCycle
  refine Answers.ite _ _ _ ?_ ?_
  · intro a0
    refine Answers.next ?_
    exact Keeps.refl _ _
  · intro a1
    extract_lets -lift +onlyGivenNames time2
    clear_value time2
    extract_lets -lift +onlyGivenNames s3
    have h_s3 : Keeps [.fault, .prot] s s3 := by
      refine Keeps.step (State.onProt_keeps ..) rfl ?_
      exact Keeps.refl _ _
    clear_value s3
    extract_lets -lift +onlyGivenNames step4
    extract_lets -lift +onlyGivenNames ns5
    clear_value ns5
    refine Answers.next ?_
    refine Keeps.step (recStep_keeps ..) rfl ?_
    refine Keeps.step (tripsStep_keeps ..) rfl ?_
    refine foldl_keeps _ ?_ _ _ _ ?_
    · intro a6 a7
      try dsimp -zeta only [step4]
      extract_lets -lift +onlyGivenNames e8
      clear_value e8
      refine ite_keeps _ _ _ ?_ ?_
      · intro a9
        exact Keeps.refl _ _
      · intro a10
        refine ite_keeps _ _ _ ?_ ?_
        · intro a11
          refine Keeps.step (twDrop_keeps ..) rfl ?_
          exact Keeps.refl _ _
        · intro a12
          extract_lets -lift +onlyGivenNames i13
          clear_value i13
          extract_lets -lift +onlyGivenNames r14
          clear_value r14
          refine Keeps.step (elTake_keeps ..) rfl ?_
          exact Keeps.refl _ _
    · assumption

theorem execProtFastCycle_keeps (k : Nat) (s : State) : Answers [.fault, .prot] s (execProtFastCycle k s) := by
  unfold execProtFastCycle
  refine Answers.ite _ _ _ ?_ ?_
  · intro a0
    refine Answers.next ?_
    exact Keeps.refl _ _
  · intro a1
    extract_lets -lift +onlyGivenNames time2
    clear_value time2
    extract_lets -lift +onlyGivenNames step3
    extract_lets -lift +onlyGivenNames ns4
    clear_value ns4
    extract_lets -lift +onlyGivenNames s5
    have h_s5 : Keeps [.fault, .prot] s s5 := by
      refine Keeps.step (recLook_keeps ..) rfl ?_
      refine Keeps.step (tripsStep_keeps ..) rfl ?_
      refine foldl_keeps _ ?_ _ _ _ ?_
      · intro a6 a7
        try dsimp -zeta only [step3]
        extract_lets -lift +onlyGivenNames e8
        clear_value e8
        refine ite_keeps _ _ _ ?_ ?_
        · intro a9
          refine Keeps.step (twConfirm_keeps ..) rfl ?_
          exact Keeps.refl _ _
        · intro a10
          refine ite_keeps _ _ _ ?_ ?_
          · intro a11
            exact Keeps.refl _ _
          · intro a12
            extract_lets -lift +onlyGivenNames old13
            clear_value old13
            extract_lets -lift +onlyGivenNames conf14
            clear_value conf14
            refine Keeps.step (elTake_keeps ..) rfl ?_
            exact Keeps.refl _ _
      · exact Keeps.refl _ _
    clear_value s5
    refine Answers.next ?_
    refine Keeps.step (State.onProt_keeps ..) rfl ?_
    assumption

theorem execTwElementTrigger_keeps (s : State) : Answers [.fault, .prot, .spare] s (execTwElementTrigger s) := by
  unfold execTwElementTrigger
  split
  · refine Answers.next ?_
    exact Keeps.refl _ _
  · extract_lets -lift +onlyGivenNames s0
    have h_s0 : Keeps [.fault, .prot, .spare] s s0 := by
      refine Keeps.step (cdcUpd_keeps ..) rfl ?_
      exact Keeps.refl _ _
    clear_value s0
    refine Answers.next ?_
    refine ite_keeps _ _ _ ?_ ?_
    · intro a1
      refine Keeps.step (twElements_keeps ..) rfl ?_
      assumption
    · intro a2
      assumption

theorem execTripTminExpiry_keeps (out : Fin 16) (s : State) : Answers [.fault, .prot] s (execTripTminExpiry out s) := by
  unfold execTripTminExpiry
  refine Answers.ite _ _ _ ?_ ?_
  · intro a0
    refine Answers.next ?_
    exact Keeps.refl _ _
  · intro a1
    extract_lets -lift +onlyGivenNames s2
    have h_s2 : Keeps [.fault, .prot] s s2 := by
      refine Keeps.step (tripUpd_keeps ..) rfl ?_
      exact Keeps.refl _ _
    clear_value s2
    refine Answers.next ?_
    refine Keeps.step (recLook_keeps ..) rfl ?_
    refine Keeps.step (tripStep_keeps ..) rfl ?_
    assumption

theorem execCoilSupervisionExpiry_keeps (out : Fin 16) (level : Bool) (s : State) : Answers [.fault, .prot] s (execCoilSupervisionExpiry out level s) := by
  unfold execCoilSupervisionExpiry
  extract_lets -lift +onlyGivenNames c0
  clear_value c0
  extract_lets -lift +onlyGivenNames r1
  clear_value r1
  refine Answers.ite _ _ _ ?_ ?_
  · intro a2
    refine Answers.next ?_
    exact Keeps.refl _ _
  · intro a3
    extract_lets -lift +onlyGivenNames s4
    have h_s4 : Keeps [.fault, .prot] s s4 := by
      refine Keeps.step (tripUpd_keeps ..) rfl ?_
      exact Keeps.refl _ _
    clear_value s4
    refine Answers.next ?_
    refine Keeps.step (recLook_keeps ..) rfl ?_
    refine Keeps.step (tripsStep_keeps ..) rfl ?_
    refine ite_keeps _ _ _ ?_ ?_
    · intro a5
      refine Keeps.step (protEvent_keeps ..) rfl ?_
      assumption
    · intro a6
      refine Keeps.step (protEvent_keeps ..) rfl ?_
      assumption

theorem execProtRecordClose_keeps (s : State) : Answers [.fault, .prot] s (execProtRecordClose s) := by
  unfold execProtRecordClose
  refine Answers.next ?_
  refine Keeps.step (recClose_keeps ..) rfl ?_
  exact Keeps.refl _ _

/-! ### Sys -/

theorem execSysCaps_keeps (c : Cmd) (s : State) : Answers [.host, .mb] s (execSysCaps c s) := by
  unfold execSysCaps
  extract_lets -lift +onlyGivenNames n0
  clear_value n0
  extract_lets -lift +onlyGivenNames g1
  clear_value g1
  refine Answers.runCmd _ _ _ _ ?_ rfl
  intro a2
  try dsimp -zeta only [okReply]
  refine when_keeps _ _ _ _ ?_ ?_
  · exact Keeps.refl _ _
  · refine Keeps.step (putBuf_keeps ..) rfl ?_
    exact Keeps.refl _ _

theorem execSysStateGet_keeps (c : Cmd) (s : State) : Answers [.host, .mb] s (execSysStateGet c s) := by
  unfold execSysStateGet
  extract_lets -lift +onlyGivenNames g0
  clear_value g0
  refine Answers.runCmd _ _ _ _ ?_ rfl
  intro a1
  try dsimp -zeta only [okReply]
  exact Keeps.refl _ _

theorem execSysStateRequest_keeps (c : Cmd) (s : State) : Answers [.host, .dev, .mb, .tick, .fault, .link, .aie, .pwm, .loop, .tiles, .safe, .red, .galley] s (execSysStateRequest c s) := by
  unfold execSysStateRequest
  extract_lets -lift +onlyGivenNames target0
  clear_value target0
  extract_lets -lift +onlyGivenNames ahead1
  clear_value ahead1
  extract_lets -lift +onlyGivenNames g2
  clear_value g2
  refine Answers.runCmd _ _ _ _ ?_ rfl
  intro a3
  extract_lets -lift +onlyGivenNames m5
  clear_value m5
  split
  · try dsimp -zeta only
    exact Keeps.refl _ _
  · refine Keeps.step (requestRun_keeps ..) rfl ?_
    exact Keeps.refl _ _

theorem execSysBlockClear_keeps (c : Cmd) (s : State) : Answers [.host, .dev, .mb, .tick, .fault, .link, .aie, .pwm, .loop, .tiles, .safe, .red, .galley] s (execSysBlockClear c s) := by
  unfold execSysBlockClear
  extract_lets -lift +onlyGivenNames g0
  clear_value g0
  refine Answers.runCmd _ _ _ _ ?_ rfl
  intro a1
  split
  · try dsimp -zeta only
    exact Keeps.refl _ _
  · split
    · try dsimp -zeta only
      exact Keeps.refl _ _
    · extract_lets -lift +onlyGivenNames up3
      clear_value up3
      extract_lets -lift +onlyGivenNames dest5
      clear_value dest5
      extract_lets -lift +onlyGivenNames s7
      have h_s7 : Keeps [.host, .dev, .mb, .tick, .fault, .link, .aie, .pwm, .loop, .tiles, .safe, .red, .galley] a1 s7 := by
        refine Keeps.step (transition_keeps ..) rfl ?_
        refine Keeps.step (fatalClear_keeps ..) rfl ?_
        refine Keeps.step (blockLatches_keeps ..) rfl ?_
        exact Keeps.refl _ _
      clear_value s7
      try dsimp -zeta only [okReply]
      assumption

theorem execSysReset_keeps (c : Cmd) (s : State) : Answers [.host, .dev, .power, .mb, .fault, .red] s (execSysReset c s) := by
  unfold execSysReset
  extract_lets -lift +onlyGivenNames g0
  clear_value g0
  refine Answers.runCmd _ _ _ _ ?_ rfl
  intro a1
  extract_lets -lift +onlyGivenNames r3
  try dsimp -zeta only
  try dsimp -zeta only [r3]
  refine Keeps.step (requestReset_keeps ..) rfl ?_
  exact Keeps.refl _ _

theorem execSysLogRead_keeps (c : Cmd) (s : State) : Answers [.host, .mb] s (execSysLogRead c s) := by
  unfold execSysLogRead
  extract_lets -lift +onlyGivenNames g0
  clear_value g0
  refine Answers.runCmd _ _ _ _ ?_ rfl
  intro a1
  extract_lets -lift +onlyGivenNames l3
  clear_value l3
  try dsimp -zeta only [okReply]
  refine Keeps.step (putBuf_keeps ..) rfl ?_
  exact Keeps.refl _ _

theorem execSysNop_keeps (c : Cmd) (s : State) : Answers [.host, .mb] s (execSysNop c s) := by
  unfold execSysNop
  extract_lets -lift +onlyGivenNames g0
  clear_value g0
  refine Answers.runCmd _ _ _ _ ?_ rfl
  intro a1
  try dsimp -zeta only [okReply]
  exact Keeps.refl _ _

theorem execTestEnter_keeps (c : Cmd) (s : State) : Answers [.host, .dev, .mb, .tick, .fault, .link, .aie, .pwm, .loop, .tiles, .safe, .red, .galley] s (execTestEnter c s) := by
  unfold execTestEnter
  extract_lets -lift +onlyGivenNames g0
  clear_value g0
  refine Answers.runCmd _ _ _ _ ?_ rfl
  intro a1
  try dsimp -zeta only [okReply]
  refine Keeps.step (transition_keeps ..) rfl ?_
  exact Keeps.refl _ _

/-! ### Rec -/

theorem execRecConfig_keeps (c : Cmd) (s : State) : Answers [.host, .mb, .fault, .galley] s (execRecConfig c s) := by
  unfold execRecConfig
  extract_lets -lift +onlyGivenNames k0
  clear_value k0
  extract_lets -lift +onlyGivenNames g1
  clear_value g1
  refine Answers.runCmd _ _ _ _ ?_ rfl
  intro a2
  extract_lets -lift +onlyGivenNames old4
  clear_value old4
  extract_lets -lift +onlyGivenNames need6
  clear_value need6
  extract_lets -lift +onlyGivenNames cleared8
  clear_value cleared8
  split
  · try dsimp -zeta only
    exact Keeps.refl _ _
  · split
    · try dsimp -zeta only
      exact Keeps.refl _ _
    · extract_lets -lift +onlyGivenNames moved10
      clear_value moved10
      extract_lets -lift +onlyGivenNames s12
      have h_s12 : Keeps [.host, .mb, .fault, .galley] a2 s12 := by
        refine Keeps.step (State.onGalley_keeps ..) rfl ?_
        exact Keeps.refl _ _
      clear_value s12
      extract_lets -lift +onlyGivenNames s14
      have h_s14 : Keeps [.host, .mb, .fault, .galley] a2 s14 := by
        refine when_keeps _ _ _ _ ?_ ?_
        · assumption
        · refine Keeps.step (State.onGalley_keeps ..) rfl ?_
          exact Keeps.refl _ _
      clear_value s14
      try dsimp -zeta only [okReply]
      refine Keeps.step (recEvent_keeps ..) rfl ?_
      assumption

theorem execRecFreeze_keeps (c : Cmd) (s : State) : Answers [.host, .mb, .fault, .galley] s (execRecFreeze c s) := by
  unfold execRecFreeze
  extract_lets -lift +onlyGivenNames n0
  clear_value n0
  extract_lets -lift +onlyGivenNames g1
  clear_value g1
  refine Answers.runCmd _ _ _ _ ?_ rfl
  intro a2
  extract_lets -lift +onlyGivenNames t4
  clear_value t4
  split
  · try dsimp -zeta only
    exact Keeps.refl _ _
  · split
    · split
      · try dsimp -zeta only
        exact Keeps.refl _ _
      · refine Keeps.step (freezeReply_keeps ..) rfl ?_
        refine Keeps.step (freezeBegin_keeps ..) rfl ?_
        exact Keeps.refl _ _
    · split
      · refine Keeps.step (freezeReply_keeps ..) rfl ?_
        refine Keeps.step (freezeTrigger_keeps ..) rfl ?_
        exact Keeps.refl _ _
      · refine Keeps.step (freezeReply_keeps ..) rfl ?_
        refine Keeps.step (freezeBegin_keeps ..) rfl ?_
        exact Keeps.refl _ _
      · try dsimp -zeta only
        exact Keeps.refl _ _

theorem execRecFreezeRead_keeps (c : Cmd) (s : State) : Answers [.host, .mb, .galley] s (execRecFreezeRead c s) := by
  unfold execRecFreezeRead
  extract_lets -lift +onlyGivenNames n0
  clear_value n0
  extract_lets -lift +onlyGivenNames part1
  clear_value part1
  extract_lets -lift +onlyGivenNames size2
  clear_value size2
  extract_lets -lift +onlyGivenNames g3
  clear_value g3
  refine Answers.runCmd _ _ _ _ ?_ rfl
  intro a4
  split
  · split
    · try dsimp -zeta only
      exact Keeps.refl _ _
    · try dsimp -zeta only [okReply]
      refine Keeps.step (State.onGalley_keeps ..) rfl ?_
      exact Keeps.refl _ _
  · split
    · try dsimp -zeta only
      exact Keeps.refl _ _
    · split
      · try dsimp -zeta only
        exact Keeps.refl _ _
      · extract_lets -lift +onlyGivenNames w6
        clear_value w6
        extract_lets -lift +onlyGivenNames res8
        clear_value res8
        extract_lets -lift +onlyGivenNames s10
        have h_s10 : Keeps [.host, .mb, .galley] a4 s10 := by
          refine Keeps.step (putBuf_keeps ..) rfl ?_
          exact Keeps.refl _ _
        clear_value s10
        split
        · try dsimp -zeta only
          refine Keeps.step (goPending_keeps ..) rfl ?_
          assumption
        · try dsimp -zeta only [okReply]
          assumption

theorem execRecReplayStart_keeps (c : Cmd) (image : Bytes) (s : State) : Answers [.host, .mb, .galley] s (execRecReplayStart c image s) := by
  unfold execRecReplayStart
  extract_lets -lift +onlyGivenNames n0
  clear_value n0
  extract_lets -lift +onlyGivenNames act1
  clear_value act1
  extract_lets -lift +onlyGivenNames start2
  clear_value start2
  extract_lets -lift +onlyGivenNames kib3
  clear_value kib3
  extract_lets -lift +onlyGivenNames p4
  clear_value p4
  extract_lets -lift +onlyGivenNames g5
  clear_value g5
  refine Answers.runCmd _ _ _ _ ?_ rfl
  intro a6
  extract_lets -lift +onlyGivenNames loaded8
  have h_loaded8 : Keeps [.host, .mb, .galley] a6 loaded8 := by
    refine Keeps.step (State.onGalley_keeps ..) rfl ?_
    exact Keeps.refl _ _
  clear_value loaded8
  split
  · try dsimp -zeta only
    exact Keeps.refl _ _
  · split
    · try dsimp -zeta only
      refine Keeps.step (State.onGalley_keeps ..) rfl ?_
      exact Keeps.refl _ _
    · extract_lets -lift +onlyGivenNames s10
      have h_s10 : Keeps [.host, .mb, .galley] a6 s10 := by
        refine ite_keeps _ _ _ ?_ ?_
        · intro a11
          exact Keeps.refl _ _
        · intro a12
          assumption
      clear_value s10
      split
      · try dsimp -zeta only [okReply]
        assumption
      · split
        · try dsimp -zeta only
          exact Keeps.refl _ _
        · refine Keeps.step (armReplay_keeps ..) rfl ?_
          assumption

theorem execRecReplayStop_keeps (c : Cmd) (s : State) : Answers [.host, .mb, .galley] s (execRecReplayStop c s) := by
  unfold execRecReplayStop
  extract_lets -lift +onlyGivenNames g0
  clear_value g0
  refine Answers.runCmd _ _ _ _ ?_ rfl
  intro a1
  try dsimp -zeta only [okReply]
  refine ite_keeps _ _ _ ?_ ?_
  · intro a2
    exact Keeps.refl _ _
  · intro a3
    refine Keeps.step (replayOutcome_keeps ..) rfl ?_
    exact Keeps.refl _ _

theorem execRecStatus_keeps (c : Cmd) (s : State) : Answers [.host, .mb] s (execRecStatus c s) := by
  unfold execRecStatus
  extract_lets -lift +onlyGivenNames g0
  clear_value g0
  refine Answers.runCmd _ _ _ _ ?_ rfl
  intro a1
  extract_lets -lift +onlyGivenNames x3
  clear_value x3
  extract_lets -lift +onlyGivenNames st5
  clear_value st5
  extract_lets -lift +onlyGivenNames full7
  clear_value full7
  extract_lets -lift +onlyGivenNames fill9
  clear_value fill9
  extract_lets -lift +onlyGivenNames r11
  clear_value r11
  try dsimp -zeta only [okReply]
  exact Keeps.refl _ _

theorem execTapBufferDrain_keeps (s : State) : Answers [.galley] s (execTapBufferDrain s) := by
  unfold execTapBufferDrain
  refine Answers.ite _ _ _ ?_ ?_
  · intro a0
    refine Answers.next ?_
    exact Keeps.refl _ _
  · intro a1
    extract_lets -lift +onlyGivenNames s2
    have h_s2 : Keeps [.galley] s s2 := by
      refine Keeps.step (State.onGalley_keeps ..) rfl ?_
      exact Keeps.refl _ _
    clear_value s2
    extract_lets -lift +onlyGivenNames s3
    have h_s3 : Keeps [.galley] s s3 := by
      refine Keeps.step (freezesCopy_keeps ..) rfl ?_
      assumption
    clear_value s3
    refine Answers.next ?_
    refine Keeps.step (State.onGalley_keeps ..) rfl ?_
    assumption

theorem execTapEntryLost_keeps (tap : Option Nat) (ports : Word32) (s : State) : Answers [.fault, .galley] s (execTapEntryLost tap ports s) := by
  unfold execTapEntryLost
  refine Answers.ite _ _ _ ?_ ?_
  · intro a0
    refine Answers.next ?_
    exact Keeps.refl _ _
  · intro a1
    split
    · refine Answers.next ?_
      refine Keeps.step (tapLost_keeps (ih_put := ?_) ..) rfl ?_
      · intro a2 a3
        refine Keeps.step (State.onGalley_keeps ..) rfl ?_
        exact Keeps.refl _ _
      · exact Keeps.refl _ _
    · refine Answers.next ?_
      refine Keeps.step (tapLost_keeps (ih_put := ?_) ..) rfl ?_
      · intro a4 a5
        refine Keeps.step (State.onGalley_keeps ..) rfl ?_
        exact Keeps.refl _ _
      · exact Keeps.refl _ _
    · refine Answers.next ?_
      exact Keeps.refl _ _

theorem execFreezeComplete_keeps (slot : Nat) (s : State) : Answers [.fault, .galley] s (execFreezeComplete slot s) := by
  unfold execFreezeComplete
  extract_lets -lift +onlyGivenNames f0
  clear_value f0
  refine Answers.ite _ _ _ ?_ ?_
  · intro a1
    refine Answers.next ?_
    exact Keeps.refl _ _
  · intro a2
    extract_lets -lift +onlyGivenNames fl3
    clear_value fl3
    refine Answers.next ?_
    refine Keeps.step (recEvent_keeps ..) rfl ?_
    refine Keeps.step (State.onGalley_keeps ..) rfl ?_
    exact Keeps.refl _ _

theorem execDecimatedWrite_keeps (s : State) : Answers [.galley] s (execDecimatedWrite s) := by
  unfold execDecimatedWrite
  refine Answers.ite _ _ _ ?_ ?_
  · intro a0
    refine Answers.next ?_
    exact Keeps.refl _ _
  · intro a1
    split
    · refine Answers.next ?_
      exact Keeps.refl _ _
    · refine Answers.next ?_
      refine Keeps.step (State.onGalley_keeps ..) rfl ?_
      exact Keeps.refl _ _

/-! ### Red -/

theorem execRedPairForm_keeps (c : Cmd) (s : State) : Answers [.host, .mb, .red] s (execRedPairForm c s) := by
  unfold execRedPairForm
  extract_lets -lift +onlyGivenNames g0
  clear_value g0
  refine Answers.runCmd _ _ _ _ ?_ rfl
  intro a1
  extract_lets -lift +onlyGivenNames s3
  have h_s3 : Keeps [.host, .mb, .red] a1 s3 := by
    refine Keeps.step (State.onRed_keeps ..) rfl ?_
    exact Keeps.refl _ _
  clear_value s3
  try dsimp -zeta only
  refine Keeps.step (startForm_keeps ..) rfl ?_
  refine Keeps.step (goPending_keeps ..) rfl ?_
  assumption

theorem execRedUnfence_keeps (c : Cmd) (s : State) : Answers [.host, .mb, .red] s (execRedUnfence c s) := by
  unfold execRedUnfence
  extract_lets -lift +onlyGivenNames g0
  clear_value g0
  refine Answers.runCmd _ _ _ _ ?_ rfl
  intro a1
  split
  · try dsimp -zeta only
    exact Keeps.refl _ _
  · try dsimp -zeta only
    refine Keeps.step (startForm_keeps ..) rfl ?_
    refine Keeps.step (goPending_keeps ..) rfl ?_
    exact Keeps.refl _ _

theorem execXlinkBringupDone_keeps (locked : Bool) (order : List Nat) (inverted : BitVec 4) (pairsel : Bool) (variant : Nat) (s : State) : Answers [.mb, .fault, .red] s (execXlinkBringupDone locked order inverted pairsel variant s) := by
  unfold execXlinkBringupDone
  split
  · refine Answers.ite _ _ _ ?_ ?_
    · intro a0
      refine Answers.next ?_
      refine Keeps.step (formConflict_keeps ..) rfl ?_
      exact Keeps.refl _ _
    · intro a1
      extract_lets -lift +onlyGivenNames rev2
      clear_value rev2
      extract_lets -lift +onlyGivenNames s3
      have h_s3 : Keeps [.mb, .fault, .red] s s3 := by
        refine Keeps.step (redEvent_keeps ..) rfl ?_
        refine Keeps.step (State.onRed_keeps ..) rfl ?_
        exact Keeps.refl _ _
      clear_value s3
      extract_lets -lift +onlyGivenNames m4
      clear_value m4
      refine Answers.next ?_
      refine ite_keeps _ _ _ ?_ ?_
      · intro a5
        refine Keeps.step (formConflict_keeps ..) rfl ?_
        assumption
      · intro a6
        refine Keeps.step (State.onRed_keeps ..) rfl ?_
        assumption
  · refine Answers.next ?_
    exact Keeps.refl _ _

theorem execXlinkDown_keeps (lane : Fin 4) (s : State) : Answers [.mb, .fault, .red] s (execXlinkDown lane s) := by
  unfold execXlinkDown
  refine Answers.ite _ _ _ ?_ ?_
  · intro a0
    refine Answers.next ?_
    exact Keeps.refl _ _
  · intro a1
    extract_lets -lift +onlyGivenNames s2
    have h_s2 : Keeps [.mb, .fault, .red] s s2 := by
      refine Keeps.step (redEvent_keeps ..) rfl ?_
      refine Keeps.step (State.onRed_keeps ..) rfl ?_
      exact Keeps.refl _ _
    clear_value s2
    split
    · refine Answers.next ?_
      refine Keeps.step (formConflict_keeps ..) rfl ?_
      assumption
    · refine Answers.next ?_
      assumption

theorem execXlclkLock_keeps (digest : Word32) (align : XlAlign) (s : State) : Answers [.dev, .mb, .tick, .fault, .link, .pwm, .time, .net, .red] s (execXlclkLock digest align s) := by
  unfold execXlclkLock
  split
  · extract_lets -lift +onlyGivenNames own0
    clear_value own0
    extract_lets -lift +onlyGivenNames s1
    have h_s1 : Keeps [.dev, .mb, .tick, .fault, .link, .pwm, .time, .net, .red] s s1 := by
      refine ite_keeps _ _ _ ?_ ?_
      · intro a2
        refine Keeps.step (alignTick_keeps ..) rfl ?_
        exact Keeps.refl _ _
      · intro a3
        exact Keeps.refl _ _
    clear_value s1
    refine Answers.ite _ _ _ ?_ ?_
    · intro a4
      refine Answers.next ?_
      exact Keeps.refl _ _
    · intro a5
      refine Answers.ite _ _ _ ?_ ?_
      · intro a6
        refine Answers.next ?_
        refine Keeps.step (formConflict_keeps ..) rfl ?_
        assumption
      · intro a7
        refine Answers.ite _ _ _ ?_ ?_
        · intro a8
          refine Answers.next ?_
          refine Keeps.step (formed_keeps ..) rfl ?_
          assumption
        · intro a9
          refine Answers.next ?_
          refine Keeps.step (unfencePorts_keeps ..) rfl ?_
          refine Keeps.step (State.onRed_keeps ..) rfl ?_
          assumption
  · refine Answers.next ?_
    exact Keeps.refl _ _

theorem execUnfenceInstallDone_keeps (s : State) : Answers [.dev, .mb, .fault, .pwm, .time, .net, .red] s (execUnfenceInstallDone s) := by
  unfold execUnfenceInstallDone
  split
  · refine Answers.ite _ _ _ ?_ ?_
    · intro a0
      refine Answers.next ?_
      exact Keeps.refl _ _
    · intro a1
      extract_lets -lift +onlyGivenNames s2
      have h_s2 : Keeps [.dev, .mb, .fault, .pwm, .time, .net, .red] s s2 := by
        refine Keeps.step (standbyTime_keeps ..) rfl ?_
        refine Keeps.step (setRole_keeps ..) rfl ?_
        refine Keeps.step (takeState_keeps ..) rfl ?_
        exact Keeps.refl _ _
      clear_value s2
      refine Answers.next ?_
      refine Keeps.step (endForm_keeps ..) rfl ?_
      refine Keeps.step (State.onRed_keeps ..) rfl ?_
      refine Keeps.step (compareFresh_keeps ..) rfl ?_
      assumption
  · refine Answers.next ?_
    exact Keeps.refl _ _

theorem execUnfenceTimeout_keeps (s : State) : Answers [.mb, .red] s (execUnfenceTimeout s) := by
  unfold execUnfenceTimeout
  split
  · refine Answers.ite _ _ _ ?_ ?_
    · intro a0
      refine Answers.next ?_
      refine Keeps.step (endForm_keeps ..) rfl ?_
      exact Keeps.refl _ _
    · intro a1
      refine Answers.next ?_
      exact Keeps.refl _ _
  · refine Answers.next ?_
    exact Keeps.refl _ _

theorem execRedRoleHandover_keeps (c : Cmd) (s : State) : Answers [.host, .mb, .red] s (execRedRoleHandover c s) := by
  unfold execRedRoleHandover
  extract_lets -lift +onlyGivenNames now0
  clear_value now0
  extract_lets -lift +onlyGivenNames lead1
  clear_value lead1
  extract_lets -lift +onlyGivenNames b2
  clear_value b2
  extract_lets -lift +onlyGivenNames act3
  clear_value act3
  extract_lets -lift +onlyGivenNames soon7
  clear_value soon7
  extract_lets -lift +onlyGivenNames g4
  clear_value g4
  refine Answers.runCmd _ _ _ _ ?_ rfl
  intro a5
  extract_lets -lift +onlyGivenNames no9
  clear_value no9
  split
  · try dsimp -zeta only
    exact Keeps.refl _ _
  · extract_lets -lift +onlyGivenNames s11
    have h_s11 : Keeps [.host, .mb, .red] a5 s11 := by
      refine Keeps.step (goPending_keeps ..) rfl ?_
      exact Keeps.refl _ _
    clear_value s11
    split
    · try dsimp -zeta only
      refine Keeps.step (xlSend_keeps ..) rfl ?_
      refine Keeps.step (State.onRed_keeps ..) rfl ?_
      assumption
    · try dsimp -zeta only
      refine Keeps.step (State.onRed_keeps ..) rfl ?_
      assumption

theorem execRedCompareConfig_keeps (c : Cmd) (s : State) : Answers [.host, .mb, .red] s (execRedCompareConfig c s) := by
  unfold execRedCompareConfig
  extract_lets -lift +onlyGivenNames m0
  clear_value m0
  extract_lets -lift +onlyGivenNames g1
  clear_value g1
  refine Answers.runCmd _ _ _ _ ?_ rfl
  intro a2
  try dsimp -zeta only [okReply]
  refine Keeps.step (State.onRed_keeps ..) rfl ?_
  exact Keeps.refl _ _

theorem execRedStatus_keeps (c : Cmd) (s : State) : Answers [.host, .mb] s (execRedStatus c s) := by
  unfold execRedStatus
  extract_lets -lift +onlyGivenNames g0
  clear_value g0
  refine Answers.runCmd _ _ _ _ ?_ rfl
  intro a1
  extract_lets -lift +onlyGivenNames r3
  clear_value r3
  try dsimp -zeta only [okReply]
  exact Keeps.refl _ _

theorem execXlTickReceive_keeps (tick : XlTickIn) (s : State) : Answers [.fault, .red] s (execXlTickReceive tick s) := by
  unfold execXlTickReceive
  extract_lets -lift +onlyGivenNames m0
  clear_value m0
  refine Answers.ite _ _ _ ?_ ?_
  · intro a1
    refine Answers.next ?_
    exact Keeps.refl _ _
  · intro a2
    extract_lets -lift +onlyGivenNames fresh3
    clear_value fresh3
    extract_lets -lift +onlyGivenNames takes4
    extract_lets -lift +onlyGivenNames z s5
    clear_value z
    have h_s5 : Keeps [.fault, .red] s s5 := by
      refine Keeps.step (State.onRed_keeps ..) rfl ?_
      exact Keeps.refl _ _
    clear_value s5
    refine Answers.next ?_
    refine Keeps.step (compareTick_keeps ..) rfl ?_
    refine ite_keeps _ _ _ ?_ ?_
    · intro a6
      refine Keeps.step (installTick_keeps ..) rfl ?_
      assumption
    · intro a7
      assumption

theorem execXlMsetReceive_keeps (tick : Nat) (set : List XlChan) (s : State) : Answers [.red] s (execXlMsetReceive tick set s) := by
  unfold execXlMsetReceive
  refine Answers.ite _ _ _ ?_ ?_
  · intro a0
    refine Answers.next ?_
    exact Keeps.refl _ _
  · intro a1
    refine Answers.next ?_
    refine Keeps.step (State.onRed_keeps ..) rfl ?_
    exact Keeps.refl _ _

theorem execXlCommitReceive_keeps (boundary : Nat) (mask : BitVec 9) (crc : Word32) (s : State) : Answers [.tick] s (execXlCommitReceive boundary mask crc s) := by
  unfold execXlCommitReceive
  extract_lets -lift +onlyGivenNames same0
  clear_value same0
  refine Answers.ite _ _ _ ?_ ?_
  · intro a1
    refine Answers.next ?_
    exact Keeps.refl _ _
  · intro a2
    refine Answers.next ?_
    refine Keeps.step (State.onTick_keeps _ _ (fun h => by split <;> exact h)) rfl ?_
    exact Keeps.refl _ _

theorem execXlStateReceive_keeps (disputed : Bool) (state : Nat) (cause : Nat) (boundary : Nat) (s : State) : Answers [.dev, .fault, .red] s (execXlStateReceive disputed state cause boundary s) := by
  unfold execXlStateReceive
  refine Answers.ite _ _ _ ?_ ?_
  · intro a0
    refine Answers.next ?_
    exact Keeps.refl _ _
  · intro a1
    refine Answers.ite _ _ _ ?_ ?_
    · intro a2
      refine Answers.ite _ _ _ ?_ ?_
      · intro a3
        refine Answers.next ?_
        exact Keeps.refl _ _
      · intro a4
        extract_lets -lift +onlyGivenNames d5
        clear_value d5
        refine Answers.next ?_
        refine Keeps.step (redEvent_keeps ..) rfl ?_
        refine Keeps.step (State.onRed_keeps ..) rfl ?_
        exact Keeps.refl _ _
    · intro a6
      refine Answers.ite _ _ _ ?_ ?_
      · intro a7
        refine Answers.next ?_
        exact Keeps.refl _ _
      · intro a8
        split
        · refine Answers.next ?_
          refine Keeps.step (addMirror_keeps ..) rfl ?_
          exact Keeps.refl _ _
        · refine Answers.next ?_
          exact Keeps.refl _ _

theorem execXlBlockReceive_keeps (cause : Byte) (s : State) : Answers [.link] s (execXlBlockReceive cause s) := by
  unfold execXlBlockReceive
  refine Answers.ite _ _ _ ?_ ?_
  · intro a0
    refine Answers.next ?_
    exact Keeps.refl _ _
  · intro a1
    refine Answers.next ?_
    refine Keeps.step (onPorts_keeps (L := [.link]) (ih_f := ?_) ..) rfl ?_
    · intro a2 a3
      split
      · refine Keeps.step (portUpd_keeps ..) rfl ?_
        exact Keeps.refl _ _
      · refine Keeps.step (sendBlock_keeps ..) rfl ?_
        exact Keeps.refl _ _
    · exact Keeps.refl _ _

theorem execXlCheckReceive_keeps (pass : Bool) (s : State) : Answers [.red] s (execXlCheckReceive pass s) := by
  unfold execXlCheckReceive
  refine Answers.ite _ _ _ ?_ ?_
  · intro a0
    refine Answers.next ?_
    exact Keeps.refl _ _
  · intro a1
    refine Answers.next ?_
    refine Keeps.step (State.onRed_keeps ..) rfl ?_
    exact Keeps.refl _ _

theorem execXlTimeMarker_keeps (x : Int) (bases : List Nat) (qual : Nat) (bound : Nat) (s : State) : Answers [.freeCtr, .fault, .time, .red] s (execXlTimeMarker x bases qual bound s) := by
  unfold execXlTimeMarker
  refine Answers.ite _ _ _ ?_ ?_
  · intro a0
    refine Answers.next ?_
    exact Keeps.refl _ _
  · intro a1
    refine Answers.ite _ _ _ ?_ ?_
    · intro a2
      refine Answers.next ?_
      refine Keeps.step (xlSend_keeps ..) rfl ?_
      refine Keeps.step (State.onRed_keeps ..) rfl ?_
      exact Keeps.refl _ _
    · intro a3
      extract_lets -lift +onlyGivenNames s4
      have h_s4 : Keeps [.freeCtr, .fault, .time, .red] s s4 := by
        refine Keeps.step (State.onRed_keeps ..) rfl ?_
        exact Keeps.refl _ _
      clear_value s4
      refine Answers.ite _ _ _ ?_ ?_
      · intro a5
        extract_lets -lift +onlyGivenNames s6
        have h_s6 : Keeps [.freeCtr, .fault, .time, .red] s s6 := by
          refine Keeps.step (steerBase_keeps ..) rfl ?_
          refine Keeps.step (steerBase_keeps ..) rfl ?_
          assumption
        clear_value s6
        refine Answers.ite _ _ _ ?_ ?_
        · intro a7
          refine Answers.next ?_
          assumption
        · intro a8
          extract_lets -lift +onlyGivenNames q9
          clear_value q9
          refine Answers.next ?_
          refine Keeps.step (setQual_keeps ..) rfl ?_
          refine Keeps.step (steerBase_keeps ..) rfl ?_
          assumption
      · intro a10
        refine Answers.next ?_
        assumption

theorem execXlHandoverReceive_keeps (boundary : Nat) (s : State) : Answers [.red] s (execXlHandoverReceive boundary s) := by
  unfold execXlHandoverReceive
  refine Answers.ite _ _ _ ?_ ?_
  · intro a0
    refine Answers.next ?_
    exact Keeps.refl _ _
  · intro a1
    refine Answers.next ?_
    refine Keeps.step (State.onRed_keeps ..) rfl ?_
    exact Keeps.refl _ _

theorem execDisputedEnter_keeps (s : State) : Answers [.dev, .mb, .fault, .pwm, .red] s (execDisputedEnter s) := by
  unfold execDisputedEnter
  split
  · refine Answers.next ?_
    exact Keeps.refl _ _
  · refine Answers.ite _ _ _ ?_ ?_
    · intro a0
      refine Answers.next ?_
      exact Keeps.refl _ _
    · intro a1
      refine Answers.next ?_
      refine Keeps.step (setRole_keeps ..) rfl ?_
      refine Keeps.step (State.onRed_keeps ..) rfl ?_
      exact Keeps.refl _ _

theorem execSelfCheckDone_keeps (kat : Bool) (scrub : Bool) (links : Bool) (s : State) : Answers [.red] s (execSelfCheckDone kat scrub links s) := by
  unfold execSelfCheckDone
  refine Answers.ite _ _ _ ?_ ?_
  · intro a0
    refine Answers.next ?_
    exact Keeps.refl _ _
  · intro a1
    extract_lets -lift +onlyGivenNames pass2
    clear_value pass2
    refine Answers.next ?_
    refine Keeps.step (xlSend_keeps ..) rfl ?_
    refine Keeps.step (State.onRed_keeps ..) rfl ?_
    exact Keeps.refl _ _

theorem execRoleDecision_keeps (s : State) : Answers [.dev, .mb, .fault, .link, .pwm, .time, .red] s (execRoleDecision s) := by
  unfold execRoleDecision
  refine Answers.ite _ _ _ ?_ ?_
  · intro a0
    refine Answers.next ?_
    exact Keeps.refl _ _
  · intro a1
    split
    · extract_lets -lift +onlyGivenNames s2
      have h_s2 : Keeps [.dev, .mb, .fault, .link, .pwm, .time, .red] s s2 := by
        refine Keeps.step (checkEvent_keeps ..) rfl ?_
        refine Keeps.step (endDispute_keeps ..) rfl ?_
        exact Keeps.refl _ _
      clear_value s2
      extract_lets -lift +onlyGivenNames wasActive3
      clear_value wasActive3
      refine Answers.ite _ _ _ ?_ ?_
      · intro a4
        refine Answers.next ?_
        refine Keeps.step (fenceNow_keeps ..) rfl ?_
        assumption
      · intro a5
        refine Answers.ite _ _ _ ?_ ?_
        · intro a6
          refine Answers.next ?_
          refine Keeps.step (setRole_keeps ..) rfl ?_
          refine when_keeps _ _ _ _ ?_ ?_
          · assumption
          · refine Keeps.step (restartTime_keeps ..) rfl ?_
            exact Keeps.refl _ _
        · intro a7
          extract_lets -lift +onlyGivenNames s8
          have h_s8 : Keeps [.dev, .mb, .fault, .link, .pwm, .time, .red] s s8 := by
            refine Keeps.step (redEvent_keeps ..) rfl ?_
            assumption
          clear_value s8
          refine Answers.next ?_
          refine ite_keeps _ _ _ ?_ ?_
          · intro a9
            refine Keeps.step (setRole_keeps ..) rfl ?_
            assumption
          · intro a10
            refine Keeps.step (fenceNow_keeps ..) rfl ?_
            assumption
    · refine Answers.next ?_
      exact Keeps.refl _ _

theorem execCheckTimeout_keeps (s : State) : Answers [.dev, .mb, .fault, .link, .pwm, .red] s (execCheckTimeout s) := by
  unfold execCheckTimeout
  refine Answers.ite _ _ _ ?_ ?_
  · intro a0
    refine Answers.next ?_
    exact Keeps.refl _ _
  · intro a1
    split
    · extract_lets -lift +onlyGivenNames s2
      have h_s2 : Keeps [.dev, .mb, .fault, .link, .pwm, .red] s s2 := by
        refine Keeps.step (checkEvent_keeps ..) rfl ?_
        refine Keeps.step (endDispute_keeps ..) rfl ?_
        exact Keeps.refl _ _
      clear_value s2
      refine Answers.ite _ _ _ ?_ ?_
      · intro a3
        refine Answers.next ?_
        refine Keeps.step (partnerLost_keeps ..) rfl ?_
        refine Keeps.step (setRole_keeps ..) rfl ?_
        assumption
      · intro a4
        refine Answers.next ?_
        refine Keeps.step (fenceNow_keeps ..) rfl ?_
        assumption
    · refine Answers.next ?_
      exact Keeps.refl _ _

theorem execPartnerBack_keeps (s : State) : Answers [.fault, .red] s (execPartnerBack s) := by
  unfold execPartnerBack
  refine Answers.ite _ _ _ ?_ ?_
  · intro a0
    refine Answers.next ?_
    exact Keeps.refl _ _
  · intro a1
    refine Answers.next ?_
    refine Keeps.step (redEvent_keeps ..) rfl ?_
    refine Keeps.step (State.onRed_keeps ..) rfl ?_
    exact Keeps.refl _ _

theorem execPromotion_keeps (s : State) : Answers [.dev, .mb, .fault, .pwm, .time, .red] s (execPromotion s) := by
  unfold execPromotion
  refine Answers.next ?_
  refine Keeps.step (promoteDue_keeps ..) rfl ?_
  exact Keeps.refl _ _

/-! ### Regs -/

theorem execRegisterWrite_keeps (offset : Nat) (width : Nat) (value : Word32) (s : State) : Answers [.mb, .fault, .time] s (execRegisterWrite offset width value s) := by
  unfold execRegisterWrite
  refine Answers.ite _ _ _ ?_ ?_
  · intro a0
    refine Answers.next ?_
    exact Keeps.refl _ _
  · intro a1
    refine Answers.next ?_
    refine Keeps.step (regWrite_keeps ..) rfl ?_
    exact Keeps.refl _ _

/-! ### Safe -/

theorem execSafeConfigRead_keeps (c : Cmd) (s : State) : Answers [.host, .mb] s (execSafeConfigRead c s) := by
  unfold execSafeConfigRead
  extract_lets -lift +onlyGivenNames g0
  clear_value g0
  refine Answers.runCmd _ _ _ _ ?_ rfl
  intro a1
  extract_lets -lift +onlyGivenNames s3
  have h_s3 : Keeps [.host, .mb] a1 s3 := by
    refine when_keeps _ _ _ _ ?_ ?_
    · exact Keeps.refl _ _
    · refine Keeps.step (putBuf_keeps ..) rfl ?_
      exact Keeps.refl _ _
  clear_value s3
  try dsimp -zeta only [okReply]
  assumption

theorem execSafeSealConfirm_keeps (c : Cmd) (s : State) : Answers [.host, .dev, .power, .mb, .fault, .safe] s (execSafeSealConfirm c s) := by
  unfold execSafeSealConfirm
  extract_lets -lift +onlyGivenNames act0
  clear_value act0
  extract_lets -lift +onlyGivenNames spb1
  clear_value spb1
  extract_lets -lift +onlyGivenNames g2
  clear_value g2
  refine Answers.ite _ _ _ ?_ ?_
  · intro a3
    refine Answers.next ?_
    refine Keeps.step (answer_keeps ..) rfl ?_
    exact Keeps.refl _ _
  · intro a4
    refine Answers.runCmd _ _ _ _ ?_ rfl
    intro a5
    split
    · extract_lets -lift +onlyGivenNames s7
      have h_s7 : Keeps [.host, .dev, .power, .mb, .fault, .safe] a5 s7 := by
        refine Keeps.step (sealUpdate_keeps ..) rfl ?_
        refine Keeps.step (State.onSafe_keeps ..) rfl ?_
        exact Keeps.refl _ _
      clear_value s7
      try dsimp -zeta only [okReply]
      assumption
    · extract_lets -lift +onlyGivenNames m9
      clear_value m9
      split
      · try dsimp -zeta only
        exact Keeps.refl _ _
      · extract_lets -lift +onlyGivenNames s11
        have h_s11 : Keeps [.host, .dev, .power, .mb, .fault, .safe] a5 s11 := by
          refine Keeps.step (State.onSafe_keeps ..) rfl ?_
          exact Keeps.refl _ _
        clear_value s11
        extract_lets -lift +onlyGivenNames s13
        have h_s13 : Keeps [.host, .dev, .power, .mb, .fault, .safe] a5 s13 := by
          refine Keeps.step (sealUpdate_keeps ..) rfl ?_
          refine Keeps.step (safeLoad_keeps ..) rfl ?_
          refine Keeps.step (State.onPower_keeps ..) rfl ?_
          assumption
        clear_value s13
        try dsimp -zeta only [okReply]
        assumption

theorem execSafeRampConfig_keeps (c : Cmd) (s : State) : Answers [.host, .mb, .safe] s (execSafeRampConfig c s) := by
  unfold execSafeRampConfig
  extract_lets -lift +onlyGivenNames k0
  clear_value k0
  extract_lets -lift +onlyGivenNames g1
  clear_value g1
  refine Answers.runCmd _ _ _ _ ?_ rfl
  intro a2
  try dsimp -zeta only [okReply]
  refine Keeps.step (State.onSafe_keeps ..) rfl ?_
  exact Keeps.refl _ _

theorem execSafeStop_keeps (c : Cmd) (s : State) : Answers [.host, .dev, .mb] s (execSafeStop c s) := by
  unfold execSafeStop
  extract_lets -lift +onlyGivenNames g0
  clear_value g0
  refine Answers.runCmd _ _ _ _ ?_ rfl
  intro a1
  try dsimp -zeta only
  refine Keeps.step (tookPending_keeps ..) rfl ?_
  refine Keeps.step (goPending_keeps ..) rfl ?_
  refine Keeps.step (ss1Request_keeps ..) rfl ?_
  exact Keeps.refl _ _

theorem execSafeTorqueOff_keeps (c : Cmd) (s : State) : Answers [.host, .mb, .fault, .safe] s (execSafeTorqueOff c s) := by
  unfold execSafeTorqueOff
  extract_lets -lift +onlyGivenNames g0
  clear_value g0
  refine Answers.runCmd _ _ _ _ ?_ rfl
  intro a1
  extract_lets -lift +onlyGivenNames s3
  have h_s3 : Keeps [.host, .mb, .fault, .safe] a1 s3 := by
    refine Keeps.step (stoEnter_keeps ..) rfl ?_
    exact Keeps.refl _ _
  clear_value s3
  try dsimp -zeta only [okReply]
  assumption

theorem execSafeReset_keeps (c : Cmd) (s : State) : Answers [.host, .mb, .fault, .safe] s (execSafeReset c s) := by
  unfold execSafeReset
  extract_lets -lift +onlyGivenNames g0
  clear_value g0
  refine Answers.runCmd _ _ _ _ ?_ rfl
  intro a1
  extract_lets -lift +onlyGivenNames r3
  try dsimp -zeta only
  try dsimp -zeta only [r3]
  refine Keeps.step (safeReset_keeps ..) rfl ?_
  exact Keeps.refl _ _

theorem execSafeStatus_keeps (c : Cmd) (s : State) : Answers [.host, .mb] s (execSafeStatus c s) := by
  unfold execSafeStatus
  extract_lets -lift +onlyGivenNames g0
  clear_value g0
  refine Answers.runCmd _ _ _ _ ?_ rfl
  intro a1
  try dsimp -zeta only [okReply]
  exact Keeps.refl _ _

theorem execSealSwitchRead_keeps (value : Byte) (s : State) : Answers [.dev, .fault, .safe] s (execSealSwitchRead value s) := by
  unfold execSealSwitchRead
  refine Answers.ite _ _ _ ?_ ?_
  · intro a0
    refine Answers.next ?_
    exact Keeps.refl _ _
  · intro a1
    extract_lets -lift +onlyGivenNames take2
    clear_value take2
    extract_lets -lift +onlyGivenNames s3
    have h_s3 : Keeps [.dev, .fault, .safe] s s3 := by
      refine Keeps.step (State.onSafe_keeps ..) rfl ?_
      exact Keeps.refl _ _
    clear_value s3
    refine Answers.next ?_
    refine Keeps.step (sealUpdate_keeps ..) rfl ?_
    refine Keeps.step (bootWait_keeps ..) rfl ?_
    assumption

theorem execMainPathCycle_keeps (run : PathCycle) (s : State) : Answers [.dev, .mb, .fault, .link, .pwm, .prot, .safe, .red] s (execMainPathCycle run s) := by
  unfold execMainPathCycle
  refine Answers.ite _ _ _ ?_ ?_
  · intro a0
    refine Answers.next ?_
    exact Keeps.refl _ _
  · intro a1
    extract_lets -lift +onlyGivenNames q2
    clear_value q2
    extract_lets -lift +onlyGivenNames s3
    have h_s3 : Keeps [.dev, .mb, .fault, .link, .pwm, .prot, .safe, .red] s s3 := by
      refine Keeps.step (State.onSafe_keeps ..) rfl ?_
      exact Keeps.refl _ _
    clear_value s3
    extract_lets -lift +onlyGivenNames s4
    have h_s4 : Keeps [.dev, .mb, .fault, .link, .pwm, .prot, .safe, .red] s s4 := by
      refine Keeps.step (loadAngle_keeps ..) rfl ?_
      assumption
    clear_value s4
    extract_lets -lift +onlyGivenNames s5
    have h_s5 : Keeps [.dev, .mb, .fault, .link, .pwm, .prot, .safe, .red] s s5 := by
      refine ite_keeps _ _ _ ?_ ?_
      · intro a6
        refine Keeps.step (mainStop_keeps ..) rfl ?_
        assumption
      · intro a7
        assumption
    clear_value s5
    extract_lets -lift +onlyGivenNames s8
    have h_s8 : Keeps [.dev, .mb, .fault, .link, .pwm, .prot, .safe, .red] s s8 := by
      refine Keeps.step (State.onSafe_keeps ..) rfl ?_
      refine Keeps.step (mainBlock_keeps ..) rfl ?_
      assumption
    clear_value s8
    refine Answers.next ?_
    refine when_keeps _ _ _ _ ?_ ?_
    · assumption
    · refine Keeps.step (fatalFault_keeps ..) rfl ?_
      exact Keeps.refl _ _

theorem execMordantCheck_keeps (s : State) : Answers [.dev, .mb, .fault, .link, .safe, .red] s (execMordantCheck s) := by
  unfold execMordantCheck
  split
  · refine Answers.next ?_
    exact Keeps.refl _ _
  · refine Answers.ite _ _ _ ?_ ?_
    · intro a0
      refine Answers.next ?_
      exact Keeps.refl _ _
    · intro a1
      extract_lets -lift +onlyGivenNames cmp2
      clear_value cmp2
      extract_lets -lift +onlyGivenNames s3
      have h_s3 : Keeps [.dev, .mb, .fault, .link, .safe, .red] s s3 := by
        refine ite_keeps _ _ _ ?_ ?_
        · intro a4
          refine Keeps.step (mordantBlock_keeps ..) rfl ?_
          exact Keeps.refl _ _
        · intro a5
          exact Keeps.refl _ _
      clear_value s3
      refine Answers.next ?_
      refine ite_keeps _ _ _ ?_ ?_
      · intro a6
        refine Keeps.step (mordantEnvelope_keeps ..) rfl ?_
        assumption
      · intro a7
        assumption

theorem execMordantHeartbeatLoss_keeps (s : State) : Answers [.dev, .mb, .fault, .link, .pwm, .prot, .safe, .red] s (execMordantHeartbeatLoss s) := by
  unfold execMordantHeartbeatLoss
  refine Answers.ite _ _ _ ?_ ?_
  · intro a0
    refine Answers.next ?_
    exact Keeps.refl _ _
  · intro a1
    extract_lets -lift +onlyGivenNames s2
    have h_s2 : Keeps [.dev, .mb, .fault, .link, .pwm, .prot, .safe, .red] s s2 := by
      refine Keeps.step (State.onSafe_keeps ..) rfl ?_
      exact Keeps.refl _ _
    clear_value s2
    extract_lets -lift +onlyGivenNames s3
    have h_s3 : Keeps [.dev, .mb, .fault, .link, .pwm, .prot, .safe, .red] s s3 := by
      refine ite_keeps _ _ _ ?_ ?_
      · intro a4
        refine Keeps.step (mordantBlock_keeps ..) rfl ?_
        assumption
      · intro a5
        assumption
    clear_value s3
    refine Answers.next ?_
    refine Keeps.step (fatalFault_keeps ..) rfl ?_
    assumption

theorem execMordantSuspendExpiry_keeps (s : State) : Answers [.safe] s (execMordantSuspendExpiry s) := by
  unfold execMordantSuspendExpiry
  refine Answers.next ?_
  refine Keeps.step (State.onSafe_keeps ..) rfl ?_
  exact Keeps.refl _ _

theorem execSafeMessageDeliver_keeps (conn : Fin 16) (s : State) : Answers [.dev, .mb, .fault, .net, .safe] s (execSafeMessageDeliver conn s) := by
  unfold execSafeMessageDeliver
  extract_lets -lift +onlyGivenNames r0
  clear_value r0
  split
  · refine Answers.next ?_
    exact Keeps.refl _ _
  · extract_lets -lift +onlyGivenNames s1
    have h_s1 : Keeps [.dev, .mb, .fault, .net, .safe] s s1 := by
      refine Keeps.step (dropCopies_keeps ..) rfl ?_
      exact Keeps.refl _ _
    clear_value s1
    split
    · refine Answers.next ?_
      assumption
    · extract_lets -lift +onlyGivenNames id2
      clear_value id2
      extract_lets -lift +onlyGivenNames off3
      have h_off3 : Keeps [.dev, .mb, .fault, .net, .safe] s off3 := by
        refine Keeps.step (State.onNet_keeps ..) rfl ?_
        assumption
      clear_value off3
      extract_lets -lift +onlyGivenNames good4
      clear_value good4
      extract_lets -lift +onlyGivenNames k5
      clear_value k5
      refine Answers.ite _ _ _ ?_ ?_
      · intro a6
        refine Answers.next ?_
        assumption
      · intro a7
        refine Answers.ite _ _ _ ?_ ?_
        · intro a8
          refine Answers.next ?_
          refine Keeps.step (raise_keeps ..) rfl ?_
          assumption
        · intro a9
          refine Answers.ite _ _ _ ?_ ?_
          · intro a10
            refine Answers.next ?_
            assumption
          · intro a11
            refine Answers.next ?_
            refine Keeps.step (safeDeliver_keeps ..) rfl ?_
            assumption

theorem execSafeCopyWindowExpiry_keeps (conn : Fin 16) (s : State) : Answers [.net] s (execSafeCopyWindowExpiry conn s) := by
  unfold execSafeCopyWindowExpiry
  extract_lets -lift +onlyGivenNames r0
  clear_value r0
  split
  · refine Answers.next ?_
    exact Keeps.refl _ _
  · refine Answers.ite _ _ _ ?_ ?_
    · intro a1
      refine Answers.next ?_
      exact Keeps.refl _ _
    · intro a2
      refine Answers.next ?_
      refine Keeps.step (State.onNet_keeps ..) rfl ?_
      refine Keeps.step (dropCopies_keeps ..) rfl ?_
      exact Keeps.refl _ _

theorem execSafeMessageSend_keeps (conn : Fin 16) (s : State) : Answers [.fault, .net, .safe] s (execSafeMessageSend conn s) := by
  unfold execSafeMessageSend
  extract_lets -lift +onlyGivenNames t0
  clear_value t0
  split
  · refine Answers.next ?_
    exact Keeps.refl _ _
  · extract_lets -lift +onlyGivenNames x1
    clear_value x1
    refine Answers.ite _ _ _ ?_ ?_
    · intro a2
      refine Answers.next ?_
      exact Keeps.refl _ _
    · intro a3
      refine Answers.ite _ _ _ ?_ ?_
      · intro a4
        refine Answers.next ?_
        refine when_keeps _ _ _ _ ?_ ?_
        · refine Keeps.step (State.onSafe_keeps ..) rfl ?_
          exact Keeps.refl _ _
        · refine Keeps.step (safeEventAt_keeps ..) rfl ?_
          exact Keeps.refl _ _
      · intro a5
        extract_lets -lift +onlyGivenNames pdu6
        clear_value pdu6
        extract_lets -lift +onlyGivenNames s7
        have h_s7 : Keeps [.fault, .net, .safe] s s7 := by
          refine Keeps.step (State.onSafe_keeps ..) rfl ?_
          exact Keeps.refl _ _
        clear_value s7
        extract_lets -lift +onlyGivenNames gap8
        clear_value gap8
        refine Answers.next ?_
        refine Keeps.step (pubUpd_keeps ..) rfl ?_
        assumption

theorem execSafeRxWatchdogExpiry_keeps (conn : Fin 16) (s : State) : Answers [.dev, .mb, .fault, .safe] s (execSafeRxWatchdogExpiry conn s) := by
  unfold execSafeRxWatchdogExpiry
  extract_lets -lift +onlyGivenNames r0
  clear_value r0
  split
  · refine Answers.next ?_
    exact Keeps.refl _ _
  · extract_lets -lift +onlyGivenNames k1
    clear_value k1
    refine Answers.ite _ _ _ ?_ ?_
    · intro a2
      refine Answers.next ?_
      exact Keeps.refl _ _
    · intro a3
      extract_lets -lift +onlyGivenNames s4
      have h_s4 : Keeps [.dev, .mb, .fault, .safe] s s4 := by
        refine Keeps.step (safeEventAt_keeps ..) rfl ?_
        refine Keeps.step (State.onSafe_keeps ..) rfl ?_
        exact Keeps.refl _ _
      clear_value s4
      refine Answers.next ?_
      split
      · refine Keeps.step (ss1Request_keeps ..) rfl ?_
        assumption
      · refine Keeps.step (stoEnter_keeps ..) rfl ?_
        assumption
      · assumption

/-! ### Spare -/

theorem execSpareStatus_keeps (c : Cmd) (s : State) : Answers [.host, .mb] s (execSpareStatus c s) := by
  unfold execSpareStatus
  extract_lets -lift +onlyGivenNames kind0
  clear_value kind0
  extract_lets -lift +onlyGivenNames die1
  clear_value die1
  extract_lets -lift +onlyGivenNames g2
  clear_value g2
  refine Answers.runCmd _ _ _ _ ?_ rfl
  intro a3
  extract_lets -lift +onlyGivenNames th5
  clear_value th5
  try dsimp -zeta only [okReply]
  refine when_keeps _ _ _ _ ?_ ?_
  · exact Keeps.refl _ _
  · refine Keeps.step (putBuf_keeps ..) rfl ?_
    exact Keeps.refl _ _

theorem execSpareSwap_keeps (c : Cmd) (s : State) : Answers [.host, .dev, .mb, .fault, .tiles, .meas, .spare] s (execSpareSwap c s) := by
  unfold execSpareSwap
  extract_lets -lift +onlyGivenNames kind0
  clear_value kind0
  extract_lets -lift +onlyGivenNames die1
  clear_value die1
  extract_lets -lift +onlyGivenNames n2
  clear_value n2
  extract_lets -lift +onlyGivenNames act3
  clear_value act3
  extract_lets -lift +onlyGivenNames g4
  clear_value g4
  refine Answers.runCmd _ _ _ _ ?_ rfl
  intro a5
  split
  · try dsimp -zeta only
    exact Keeps.refl _ _
  · split
    · refine Keeps.step (swapOut_keeps ..) rfl ?_
      exact Keeps.refl _ _
    · refine Keeps.step (swapBack_keeps ..) rfl ?_
      exact Keeps.refl _ _

theorem execSpareThresholdSet_keeps (c : Cmd) (s : State) : Answers [.host, .mb, .spare] s (execSpareThresholdSet c s) := by
  unfold execSpareThresholdSet
  extract_lets -lift +onlyGivenNames id0
  clear_value id0
  extract_lets -lift +onlyGivenNames n1
  clear_value n1
  extract_lets -lift +onlyGivenNames w2
  clear_value w2
  extract_lets -lift +onlyGivenNames g3
  clear_value g3
  refine Answers.runCmd _ _ _ _ ?_ rfl
  intro a4
  try dsimp -zeta only [okReply]
  refine Keeps.step (State.onSpare_keeps ..) rfl ?_
  exact Keeps.refl _ _

theorem execTileKnownAnswerTest_keeps (die : Nat) (tile : Nat) (pass : Bool) (s : State) : Answers [.freeCtr, .dev, .mb, .fault, .link, .aie, .tiles, .meas, .prot, .spare] s (execTileKnownAnswerTest die tile pass s) := by
  unfold execTileKnownAnswerTest
  extract_lets -lift +onlyGivenNames x0
  clear_value x0
  refine Answers.ite _ _ _ ?_ ?_
  · intro a1
    refine Answers.next ?_
    exact Keeps.refl _ _
  · intro a2
    refine Answers.ite _ _ _ ?_ ?_
    · intro a3
      refine Answers.next ?_
      refine Keeps.step (readmitEnd_keeps ..) rfl ?_
      exact Keeps.refl _ _
    · intro a4
      refine Answers.ite _ _ _ ?_ ?_
      · intro a5
        refine Answers.next ?_
        exact Keeps.refl _ _
      · intro a6
        extract_lets -lift +onlyGivenNames s7
        have h_s7 : Keeps [.freeCtr, .dev, .mb, .fault, .link, .aie, .tiles, .meas, .prot, .spare] s s7 := by
          refine Keeps.step (dieUpd_keeps ..) rfl ?_
          exact Keeps.refl _ _
        clear_value s7
        refine Answers.next ?_
        refine ite_keeps _ _ _ ?_ ?_
        · intro a8
          assumption
        · intro a9
          refine Keeps.step (resourceFail_keeps ..) rfl ?_
          assumption

theorem execLoopLaneKat_keeps (die : Nat) (pass : Bool) (s : State) : Answers [.freeCtr, .dev, .mb, .fault, .link, .aie, .tiles, .meas, .prot, .spare] s (execLoopLaneKat die pass s) := by
  unfold execLoopLaneKat
  refine Answers.ite _ _ _ ?_ ?_
  · intro a0
    refine Answers.next ?_
    exact Keeps.refl _ _
  · intro a1
    extract_lets -lift +onlyGivenNames n2
    clear_value n2
    refine Answers.ite _ _ _ ?_ ?_
    · intro a3
      refine Answers.next ?_
      refine Keeps.step (readmitEnd_keeps ..) rfl ?_
      exact Keeps.refl _ _
    · intro a4
      extract_lets -lift +onlyGivenNames s5
      have h_s5 : Keeps [.freeCtr, .dev, .mb, .fault, .link, .aie, .tiles, .meas, .prot, .spare] s s5 := by
        refine Keeps.step (State.onSpare_keeps ..) rfl ?_
        exact Keeps.refl _ _
      clear_value s5
      refine Answers.next ?_
      refine ite_keeps _ _ _ ?_ ?_
      · intro a6
        assumption
      · intro a7
        refine Keeps.step (resourceFail_keeps ..) rfl ?_
        assumption

theorem execResourceFail_keeps (kind : Nat) (die : Nat) (phys : Nat) (cause : Nat) (s : State) : Answers [.freeCtr, .dev, .mb, .fault, .link, .aie, .tiles, .meas, .prot, .spare] s (execResourceFail kind die phys cause s) := by
  unfold execResourceFail
  refine Answers.next ?_
  refine Keeps.step (resourceFail_keeps ..) rfl ?_
  exact Keeps.refl _ _

theorem execSpareIn_keeps (kind : Nat) (die : Nat) (phys : Nat) (s : State) : Answers [.dev, .mb, .fault, .tiles, .spare] s (execSpareIn kind die phys s) := by
  unfold execSpareIn
  refine Answers.next ?_
  refine Keeps.step (spareIn_keeps ..) rfl ?_
  exact Keeps.refl _ _

theorem execSramRowRepair_keeps (die : Nat) (block : Nat) (mem : Nat) (row : Nat) (s : State) : Answers [.dev, .fault, .spare] s (execSramRowRepair die block mem row s) := by
  unfold execSramRowRepair
  extract_lets -lift +onlyGivenNames l0
  clear_value l0
  refine Answers.ite _ _ _ ?_ ?_
  · intro a1
    refine Answers.next ?_
    exact Keeps.refl _ _
  · intro a2
    refine Answers.ite _ _ _ ?_ ?_
    · intro a3
      extract_lets -lift +onlyGivenNames s4
      have h_s4 : Keeps [.dev, .fault, .spare] s s4 := by
        refine Keeps.step (spareEvent_keeps ..) rfl ?_
        refine Keeps.step (raise_keeps ..) rfl ?_
        refine Keeps.step (State.onSpare_keeps ..) rfl ?_
        exact Keeps.refl _ _
      clear_value s4
      refine Answers.next ?_
      refine Keeps.step (capsUpdate_keeps ..) rfl ?_
      refine when_keeps _ _ _ _ ?_ ?_
      · assumption
      · refine Keeps.step (spareEvent_keeps ..) rfl ?_
        exact Keeps.refl _ _
    · intro a5
      refine Answers.next ?_
      refine Keeps.step (lostNote_keeps ..) rfl ?_
      exact Keeps.refl _ _

theorem execMramWearLevel_keeps (high : Nat) (low : Nat) (s : State) : Answers [.spare] s (execMramWearLevel high low s) := by
  unfold execMramWearLevel
  refine Answers.ite _ _ _ ?_ ?_
  · intro a0
    refine Answers.next ?_
    exact Keeps.refl _ _
  · intro a1
    extract_lets -lift +onlyGivenNames a2
    clear_value a2
    extract_lets -lift +onlyGivenNames b3
    clear_value b3
    extract_lets -lift +onlyGivenNames st4
    clear_value st4
    extract_lets -lift +onlyGivenNames place5
    extract_lets -lift +onlyGivenNames s6
    have h_s6 : Keeps [.spare] s s6 := by
      refine Keeps.step (State.onSpare_keeps ..) rfl ?_
      exact Keeps.refl _ _
    clear_value s6
    refine Answers.next ?_
    refine ite_keeps _ _ _ ?_ ?_
    · intro a7
      assumption
    · intro a8
      try dsimp -zeta only [place5]
      refine Keeps.step (resUpd_keeps ..) rfl ?_
      try dsimp -zeta only [place5]
      refine Keeps.step (resUpd_keeps ..) rfl ?_
      assumption

theorem execMramRetentionRewrite_keeps (sector : Nat) (s : State) : Answers [.spare] s (execMramRetentionRewrite sector s) := by
  unfold execMramRetentionRewrite
  refine Answers.ite _ _ _ ?_ ?_
  · intro a0
    refine Answers.next ?_
    exact Keeps.refl _ _
  · intro a1
    refine Answers.next ?_
    refine Keeps.step (State.onSpare_keeps ..) rfl ?_
    exact Keeps.refl _ _

theorem execTempSensorRead_keeps (die : Nat) (quarters : Int) (s : State) : Answers [.dev, .power, .mb, .fault, .link, .pwm, .prot, .red, .spare] s (execTempSensorRead die quarters s) := by
  unfold execTempSensorRead
  refine Answers.ite _ _ _ ?_ ?_
  · intro a0
    refine Answers.next ?_
    exact Keeps.refl _ _
  · intro a1
    extract_lets -lift +onlyGivenNames old2
    clear_value old2
    extract_lets -lift +onlyGivenNames new3
    clear_value new3
    extract_lets -lift +onlyGivenNames trip4
    clear_value trip4
    extract_lets -lift +onlyGivenNames s5
    have h_s5 : Keeps [.dev, .power, .mb, .fault, .link, .pwm, .prot, .red, .spare] s s5 := by
      refine Keeps.step (State.onSpare_keeps ..) rfl ?_
      refine Keeps.step (State.onPower_keeps ..) rfl ?_
      exact Keeps.refl _ _
    clear_value s5
    extract_lets -lift +onlyGivenNames s6
    have h_s6 : Keeps [.dev, .power, .mb, .fault, .link, .pwm, .prot, .red, .spare] s s6 := by
      refine when_keeps _ _ _ _ ?_ ?_
      · assumption
      · refine Keeps.step (spareEvent_keeps ..) rfl ?_
        exact Keeps.refl _ _
    clear_value s6
    extract_lets -lift +onlyGivenNames s7
    have h_s7 : Keeps [.dev, .power, .mb, .fault, .link, .pwm, .prot, .red, .spare] s s7 := by
      refine when_keeps _ _ _ _ ?_ ?_
      · assumption
      · refine Keeps.step (spareEvent_keeps ..) rfl ?_
        exact Keeps.refl _ _
    clear_value s7
    refine Answers.next ?_
    refine when_keeps _ _ _ _ ?_ ?_
    · assumption
    · refine Keeps.step (fatalWith_keeps ..) rfl ?_
      exact Keeps.refl _ _

/-! ### Tick -/

theorem execTickConfig_keeps (c : Cmd) (s : State) : Answers [.host, .mb, .tick] s (execTickConfig c s) := by
  unfold execTickConfig
  refine Answers.runCmdPar _ _ _ _ (fun h => ?_) rfl
  have hl : LegalLen (c.u8 0) := by
    simp only [Bool.and_eq_true, Bool.or_eq_true, beq_iff_eq] at h
    exact or_assoc.mp h.1
  dsimp only
  split
  · exact Keeps.refl _ _
  · refine Keeps.step (goPending_keeps ..) rfl ?_
    refine Keeps.step (State.onTick_keeps _ _ (fun w => ⟨w.1, fun n hn => ?_⟩)) rfl (Keeps.refl _ _)
    cases hn
    exact hl

theorem execTickLengthChange_keeps (s : State) : Answers [.mb, .tick, .fault, .link, .aie] s (execTickLengthChange s) := by
  unfold execTickLengthChange
  split
  · refine Answers.next ?_
    exact Keeps.refl _ _
  · rename_i t ht
    refine Answers.ite _ _ _ ?_ ?_
    · intro a0
      refine Answers.next ?_
      exact Keeps.refl _ _
    · intro a1
      extract_lets -lift +onlyGivenNames old2 k3 first4 s5
      have h_s5 : Keeps [.mb, .tick, .fault, .link, .aie] s s5 := by
        refine Keeps.step (State.onTick_keeps _ _ (fun w => ⟨w.2 _ ht, fun _ h => nomatch h⟩)) rfl ?_
        exact Keeps.refl _ _
      clear_value s5
      extract_lets -lift +onlyGivenNames s6
      refine Answers.next ?_
      refine Keeps.step (limitsAgain_keeps ..) rfl ?_
      refine Keeps.step (endPending_keeps ..) rfl ?_
      refine Keeps.step (raise_keeps ..) rfl ?_
      refine when_keeps _ _ _ _ ?_ ?_
      · exact Keeps.step (oldFrames_keeps ..) rfl h_s5
      · exact Keeps.mono (reTick_keeps ..) rfl

theorem execTickCommit_keeps (c : Cmd) (s : State) : Answers [.host, .mb, .tick, .red] s (execTickCommit c s) := by
  unfold execTickCommit
  extract_lets -lift +onlyGivenNames m0
  clear_value m0
  extract_lets -lift +onlyGivenNames mask1
  clear_value mask1
  extract_lets -lift +onlyGivenNames now2
  clear_value now2
  extract_lets -lift +onlyGivenNames lead3
  clear_value lead3
  extract_lets -lift +onlyGivenNames b4
  clear_value b4
  extract_lets -lift +onlyGivenNames far5
  clear_value far5
  extract_lets -lift +onlyGivenNames near6
  clear_value near6
  extract_lets -lift +onlyGivenNames load7
  clear_value load7
  extract_lets -lift +onlyGivenNames g8
  clear_value g8
  refine Answers.runCmd _ _ _ _ ?_ rfl
  intro a9
  extract_lets -lift +onlyGivenNames crc11
  clear_value crc11
  split
  · try dsimp -zeta only
    exact Keeps.refl _ _
  · extract_lets -lift +onlyGivenNames k13
    clear_value k13
    extract_lets -lift +onlyGivenNames s15
    have h_s15 : Keeps [.host, .mb, .tick, .red] a9 s15 := by
      refine Keeps.step (goPending_keeps ..) rfl ?_
      refine Keeps.step (State.onTick_keeps _ _ (by exact id)) rfl ?_
      exact Keeps.refl _ _
    clear_value s15
    try dsimp -zeta only
    refine Keeps.step (xlSend_keeps ..) rfl ?_
    assumption

theorem execCommitApply_keeps (good : BitVec 9) (s : State) : Answers [.mb, .tick, .fault, .link, .aie, .pwm, .loop, .tiles, .meas, .prot, .net, .red, .galley, .spare] s (execCommitApply good s) := by
  unfold execCommitApply
  extract_lets -lift +onlyGivenNames due0
  clear_value due0
  extract_lets -lift +onlyGivenNames s1
  have h_s1 : Keeps [.mb, .tick, .fault, .link, .aie, .pwm, .loop, .tiles, .meas, .prot, .net, .red, .galley, .spare] s s1 := by
    refine Keeps.step (State.onTick_keeps _ _ (by exact id)) rfl ?_
    exact Keeps.refl _ _
  clear_value s1
  refine Answers.next ?_
  refine foldl_keeps _ ?_ _ _ _ ?_
  · intro a3 a4
    refine ite_keeps _ _ _ ?_ ?_
    · intro a5
      refine Keeps.step (commitFail_keeps ..) rfl ?_
      exact Keeps.refl _ _
    · intro a6
      refine ite_keeps _ _ _ ?_ ?_
      · intro a7
        refine Keeps.step (commitNow_keeps ..) rfl ?_
        exact Keeps.refl _ _
      · intro a8
        refine Keeps.step (commitFail_keeps ..) rfl ?_
        exact Keeps.refl _ _
  · assumption

theorem execCommitWithdraw_keeps (s : State) : Answers [.mb, .tick, .fault] s (execCommitWithdraw s) := by
  unfold execCommitWithdraw
  refine Answers.ite _ _ _ ?_ ?_
  · intro a0
    refine Answers.next ?_
    exact Keeps.refl _ _
  · intro a1
    extract_lets -lift +onlyGivenNames out2
    clear_value out2
    extract_lets -lift +onlyGivenNames s3
    have h_s3 : Keeps [.mb, .tick, .fault] s s3 := by
      refine Keeps.step (State.onTick_keeps _ _ (by exact id)) rfl ?_
      exact Keeps.refl _ _
    clear_value s3
    refine Answers.next ?_
    refine foldl_keeps _ ?_ _ _ _ ?_
    · intro a5 a6
      refine Keeps.step (commitFail_keeps ..) rfl ?_
      exact Keeps.refl _ _
    · assumption

theorem execTickStatus_keeps (c : Cmd) (s : State) : Answers [.host, .mb] s (execTickStatus c s) := by
  unfold execTickStatus
  extract_lets -lift +onlyGivenNames g0
  clear_value g0
  refine Answers.runCmd _ _ _ _ ?_ rfl
  intro a1
  extract_lets -lift +onlyGivenNames l3
  clear_value l3
  extract_lets -lift +onlyGivenNames armed5
  clear_value armed5
  extract_lets -lift +onlyGivenNames next7
  clear_value next7
  try dsimp -zeta only [okReply]
  refine Keeps.step (putBuf_keeps ..) rfl ?_
  exact Keeps.refl _ _

/-! ### TileInstr -/

theorem execOpNop_keeps (die : Nat) (tile : Nat) (word : Word32) (s : State) : Answers [.fault, .tiles, .galley] s (execOpNop die tile word s) := by
  unfold execOpNop
  refine Answers.next ?_
  refine Keeps.step (issue_keeps ..) rfl ?_
  exact Keeps.refl _ _

theorem execOpEnd_keeps (die : Nat) (tile : Nat) (word : Word32) (s : State) : Answers [.fault, .tiles, .galley] s (execOpEnd die tile word s) := by
  unfold execOpEnd
  refine Answers.next ?_
  refine Keeps.step (issueWith_keeps (ih_f := ?_) ..) rfl ?_
  · intro a0 a1 a2
    refine Keeps.step (itemEnd_keeps ..) rfl ?_
    exact Keeps.refl _ _
  · exact Keeps.refl _ _

theorem execOpRep_keeps (die : Nat) (tile : Nat) (word : Word32) (s : State) : Answers [.fault, .tiles, .galley] s (execOpRep die tile word s) := by
  unfold execOpRep
  extract_lets -lift +onlyGivenNames n0
  clear_value n0
  extract_lets -lift +onlyGivenNames creg1
  clear_value creg1
  extract_lets -lift +onlyGivenNames r2
  clear_value r2
  refine Answers.next ?_
  refine Keeps.step (issue_keeps ..) rfl ?_
  exact Keeps.refl _ _

theorem execOpBexr_keeps (die : Nat) (tile : Nat) (word : Word32) (s : State) : Answers [.fault, .tiles, .galley] s (execOpBexr die tile word s) := by
  unfold execOpBexr
  refine Answers.next ?_
  refine Keeps.step (issue_keeps ..) rfl ?_
  exact Keeps.refl _ _

theorem execOpBr_keeps (die : Nat) (tile : Nat) (word : Word32) (s : State) : Answers [.fault, .tiles, .galley] s (execOpBr die tile word s) := by
  unfold execOpBr
  refine Answers.next ?_
  refine Keeps.step (issue_keeps ..) rfl ?_
  exact Keeps.refl _ _

theorem aluRR_keeps (die : Nat) (tile : Nat) (word : Word32) (op : Nat) (s : State) (f : Int → Int → Int) (sat : Bool) : Answers [.fault, .tiles, .galley] s (aluRR die tile word op s f sat) := by
  unfold aluRR
  extract_lets -lift +onlyGivenNames a0
  clear_value a0
  extract_lets -lift +onlyGivenNames b1
  clear_value b1
  refine Answers.next ?_
  refine Keeps.step (issue_keeps ..) rfl ?_
  exact Keeps.refl _ _

theorem aluBits_keeps (die : Nat) (tile : Nat) (word : Word32) (op : Nat) (s : State) (f : Word32 → Word32 → Word32) : Answers [.fault, .tiles, .galley] s (aluBits die tile word op s f) := by
  unfold aluBits
  extract_lets -lift +onlyGivenNames a0
  clear_value a0
  extract_lets -lift +onlyGivenNames b1
  clear_value b1
  refine Answers.next ?_
  refine Keeps.step (issue_keeps ..) rfl ?_
  exact Keeps.refl _ _

theorem aluOne_keeps (die : Nat) (tile : Nat) (word : Word32) (op : Nat) (s : State) (f : TileSt → Word32 → Word32 × Bool) : Answers [.fault, .tiles, .galley] s (aluOne die tile word op s f) := by
  unfold aluOne
  extract_lets -lift +onlyGivenNames a0
  clear_value a0
  refine Answers.next ?_
  refine Keeps.step (issue_keeps ..) rfl ?_
  exact Keeps.refl _ _

theorem execOpAdd_keeps (die : Nat) (tile : Nat) (word : Word32) (s : State) : Answers [.fault, .tiles, .galley] s (execOpAdd die tile word s) := by
  unfold execOpAdd
  refine aluRR_keeps ..

theorem execOpSub_keeps (die : Nat) (tile : Nat) (word : Word32) (s : State) : Answers [.fault, .tiles, .galley] s (execOpSub die tile word s) := by
  unfold execOpSub
  refine aluRR_keeps ..

theorem execOpAdds_keeps (die : Nat) (tile : Nat) (word : Word32) (s : State) : Answers [.fault, .tiles, .galley] s (execOpAdds die tile word s) := by
  unfold execOpAdds
  refine aluRR_keeps ..

theorem execOpSubs_keeps (die : Nat) (tile : Nat) (word : Word32) (s : State) : Answers [.fault, .tiles, .galley] s (execOpSubs die tile word s) := by
  unfold execOpSubs
  refine aluRR_keeps ..

theorem execOpAnd_keeps (die : Nat) (tile : Nat) (word : Word32) (s : State) : Answers [.fault, .tiles, .galley] s (execOpAnd die tile word s) := by
  unfold execOpAnd
  refine aluBits_keeps ..

theorem execOpOr_keeps (die : Nat) (tile : Nat) (word : Word32) (s : State) : Answers [.fault, .tiles, .galley] s (execOpOr die tile word s) := by
  unfold execOpOr
  refine aluBits_keeps ..

theorem execOpXor_keeps (die : Nat) (tile : Nat) (word : Word32) (s : State) : Answers [.fault, .tiles, .galley] s (execOpXor die tile word s) := by
  unfold execOpXor
  refine aluBits_keeps ..

theorem execOpMin_keeps (die : Nat) (tile : Nat) (word : Word32) (s : State) : Answers [.fault, .tiles, .galley] s (execOpMin die tile word s) := by
  unfold execOpMin
  refine aluBits_keeps ..

theorem execOpMax_keeps (die : Nat) (tile : Nat) (word : Word32) (s : State) : Answers [.fault, .tiles, .galley] s (execOpMax die tile word s) := by
  unfold execOpMax
  refine aluBits_keeps ..

theorem execOpAbs_keeps (die : Nat) (tile : Nat) (word : Word32) (s : State) : Answers [.fault, .tiles, .galley] s (execOpAbs die tile word s) := by
  unfold execOpAbs
  refine aluOne_keeps ..

theorem execOpNeg_keeps (die : Nat) (tile : Nat) (word : Word32) (s : State) : Answers [.fault, .tiles, .galley] s (execOpNeg die tile word s) := by
  unfold execOpNeg
  refine aluOne_keeps ..

theorem aluShift_keeps (die : Nat) (tile : Nat) (word : Word32) (op : Nat) (s : State) (sat : Bool) (f : Int → Nat → Int) : Answers [.freeCtr, .fault, .tiles, .galley] s (aluShift die tile word op s sat f) := by
  unfold aluShift
  extract_lets -lift +onlyGivenNames a0
  clear_value a0
  extract_lets -lift +onlyGivenNames b1
  clear_value b1
  extract_lets -lift +onlyGivenNames n2
  clear_value n2
  extract_lets -lift +onlyGivenNames free3
  refine Answers.next ?_
  refine issueWith_keeps_in _ rfl _ _ _ _ _ _ _ _ _ _ ?_
  intro a y u
  refine Keeps.step (tileUpd_keeps ..) rfl ?_
  refine ite_keeps _ _ _ ?_ ?_
  · intro a5
    exact Keeps.step (State.draw_keeps ..) rfl (Keeps.refl _ _)
  · intro a6
    exact Keeps.refl _ _

theorem execOpShl_keeps (die : Nat) (tile : Nat) (word : Word32) (s : State) : Answers [.freeCtr, .fault, .tiles, .galley] s (execOpShl die tile word s) := by
  unfold execOpShl
  refine aluShift_keeps ..

theorem execOpShr_keeps (die : Nat) (tile : Nat) (word : Word32) (s : State) : Answers [.freeCtr, .fault, .tiles, .galley] s (execOpShr die tile word s) := by
  unfold execOpShr
  refine aluShift_keeps ..

theorem execOpCmp_keeps (die : Nat) (tile : Nat) (word : Word32) (s : State) : Answers [.fault, .tiles, .galley] s (execOpCmp die tile word s) := by
  unfold execOpCmp
  extract_lets -lift +onlyGivenNames a0
  clear_value a0
  extract_lets -lift +onlyGivenNames b1
  clear_value b1
  refine Answers.next ?_
  refine Keeps.step (issue_keeps ..) rfl ?_
  exact Keeps.refl _ _

theorem execOpBexp_keeps (die : Nat) (tile : Nat) (word : Word32) (s : State) : Answers [.fault, .tiles, .galley] s (execOpBexp die tile word s) := by
  unfold execOpBexp
  extract_lets -lift +onlyGivenNames a0
  clear_value a0
  refine Answers.next ?_
  refine Keeps.step (issue_keeps ..) rfl ?_
  exact Keeps.refl _ _

theorem execOpExp_keeps (die : Nat) (tile : Nat) (word : Word32) (s : State) : Answers [.fault, .tiles, .galley] s (execOpExp die tile word s) := by
  unfold execOpExp
  extract_lets -lift +onlyGivenNames a0
  clear_value a0
  refine Answers.next ?_
  refine Keeps.step (issue_keeps ..) rfl ?_
  exact Keeps.refl _ _

theorem execOpBshl_keeps (die : Nat) (tile : Nat) (word : Word32) (s : State) : Answers [.fault, .tiles, .galley] s (execOpBshl die tile word s) := by
  unfold execOpBshl
  refine aluOne_keeps ..

theorem execOpAddi_keeps (die : Nat) (tile : Nat) (word : Word32) (s : State) : Answers [.fault, .tiles, .galley] s (execOpAddi die tile word s) := by
  unfold execOpAddi
  extract_lets -lift +onlyGivenNames a0
  clear_value a0
  refine Answers.next ?_
  refine Keeps.step (issue_keeps ..) rfl ?_
  exact Keeps.refl _ _

theorem execOpLil_keeps (die : Nat) (tile : Nat) (word : Word32) (s : State) : Answers [.fault, .tiles, .galley] s (execOpLil die tile word s) := by
  unfold execOpLil
  refine Answers.next ?_
  refine Keeps.step (issue_keeps ..) rfl ?_
  exact Keeps.refl _ _

theorem execOpLih_keeps (die : Nat) (tile : Nat) (word : Word32) (s : State) : Answers [.fault, .tiles, .galley] s (execOpLih die tile word s) := by
  unfold execOpLih
  extract_lets -lift +onlyGivenNames d0
  clear_value d0
  refine Answers.next ?_
  refine Keeps.step (issue_keeps ..) rfl ?_
  exact Keeps.refl _ _

theorem execOpMvpi_keeps (die : Nat) (tile : Nat) (word : Word32) (s : State) : Answers [.fault, .tiles, .galley] s (execOpMvpi die tile word s) := by
  unfold execOpMvpi
  refine Answers.next ?_
  refine Keeps.step (issue_keeps ..) rfl ?_
  exact Keeps.refl _ _

theorem execOpMvpd_keeps (die : Nat) (tile : Nat) (word : Word32) (s : State) : Answers [.fault, .tiles, .galley] s (execOpMvpd die tile word s) := by
  unfold execOpMvpd
  extract_lets -lift +onlyGivenNames a0
  clear_value a0
  refine Answers.next ?_
  refine Keeps.step (issue_keeps ..) rfl ?_
  exact Keeps.refl _ _

theorem execOpMvc_keeps (die : Nat) (tile : Nat) (word : Word32) (s : State) : Answers [.fault, .tiles, .galley] s (execOpMvc die tile word s) := by
  unfold execOpMvc
  extract_lets -lift +onlyGivenNames d0
  clear_value d0
  extract_lets -lift +onlyGivenNames v1
  clear_value v1
  refine Answers.next ?_
  refine Keeps.step (issue_keeps ..) rfl ?_
  exact Keeps.refl _ _

theorem execOpLd_keeps (die : Nat) (tile : Nat) (word : Word32) (s : State) : Answers [.fault, .tiles, .galley] s (execOpLd die tile word s) := by
  unfold execOpLd
  extract_lets -lift +onlyGivenNames d0
  clear_value d0
  refine Answers.next ?_
  refine Keeps.step (issue_keeps ..) rfl ?_
  exact Keeps.refl _ _

theorem execOpSt_keeps (die : Nat) (tile : Nat) (word : Word32) (s : State) : Answers [.fault, .tiles, .galley] s (execOpSt die tile word s) := by
  unfold execOpSt
  extract_lets -lift +onlyGivenNames d0
  clear_value d0
  refine Answers.next ?_
  refine Keeps.step (issue_keeps ..) rfl ?_
  exact Keeps.refl _ _

theorem accOp_keeps (die : Nat) (tile : Nat) (word : Word32) (op : Nat) (zero : Word32) (kind : Nat) (s : State) : Answers [.fault, .tiles, .galley] s (accOp die tile word op zero kind s) := by
  unfold accOp
  extract_lets -lift +onlyGivenNames a0
  clear_value a0
  extract_lets -lift +onlyGivenNames b1
  clear_value b1
  refine Answers.next ?_
  refine Keeps.step (issue_keeps ..) rfl ?_
  exact Keeps.refl _ _

theorem execOpMpy_keeps (die : Nat) (tile : Nat) (word : Word32) (s : State) : Answers [.fault, .tiles, .galley] s (execOpMpy die tile word s) := by
  unfold execOpMpy
  refine accOp_keeps ..

theorem execOpMac_keeps (die : Nat) (tile : Nat) (word : Word32) (s : State) : Answers [.fault, .tiles, .galley] s (execOpMac die tile word s) := by
  unfold execOpMac
  refine accOp_keeps ..

theorem execOpMsu_keeps (die : Nat) (tile : Nat) (word : Word32) (s : State) : Answers [.fault, .tiles, .galley] s (execOpMsu die tile word s) := by
  unfold execOpMsu
  refine accOp_keeps ..

theorem accStore_keeps (die : Nat) (tile : Nat) (word : Word32) (op : Nat) (zero : Word32) (lim : Nat) (s : State) (f : BitVec 80 → Nat → Word32 × Bool) : Answers [.fault, .tiles, .galley] s (accStore die tile word op zero lim s f) := by
  unfold accStore
  extract_lets -lift +onlyGivenNames sh0
  clear_value sh0
  refine Answers.next ?_
  refine Keeps.step (issue_keeps ..) rfl ?_
  exact Keeps.refl _ _

theorem execOpSta_keeps (die : Nat) (tile : Nat) (word : Word32) (s : State) : Answers [.fault, .tiles, .galley] s (execOpSta die tile word s) := by
  unfold execOpSta
  refine accStore_keeps ..

theorem execOpStb_keeps (die : Nat) (tile : Nat) (word : Word32) (s : State) : Answers [.fault, .tiles, .galley] s (execOpStb die tile word s) := by
  unfold execOpStb
  refine accStore_keeps ..

theorem execOpLda_keeps (die : Nat) (tile : Nat) (word : Word32) (s : State) : Answers [.fault, .tiles, .galley] s (execOpLda die tile word s) := by
  unfold execOpLda
  extract_lets -lift +onlyGivenNames sh0
  clear_value sh0
  extract_lets -lift +onlyGivenNames d1
  clear_value d1
  refine Answers.next ?_
  refine Keeps.step (issue_keeps ..) rfl ?_
  exact Keeps.refl _ _

theorem execOpMva_keeps (die : Nat) (tile : Nat) (word : Word32) (s : State) : Answers [.fault, .tiles, .galley] s (execOpMva die tile word s) := by
  unfold execOpMva
  extract_lets -lift +onlyGivenNames part0
  clear_value part0
  refine Answers.next ?_
  refine Keeps.step (issue_keeps ..) rfl ?_
  exact Keeps.refl _ _

theorem xyOp_keeps (die : Nat) (tile : Nat) (word : Word32) (op : Nat) (kind : Nat) (s : State) : Answers [.freeCtr, .fault, .tiles, .galley] s (xyOp die tile word op kind s) := by
  unfold xyOp
  extract_lets -lift +onlyGivenNames xd0
  clear_value xd0
  extract_lets -lift +onlyGivenNames yd1
  clear_value yd1
  extract_lets -lift +onlyGivenNames xp2
  clear_value xp2
  extract_lets -lift +onlyGivenNames yp3
  clear_value yp3
  extract_lets -lift +onlyGivenNames free4
  refine Answers.next ?_
  refine issueWith_keeps_in _ rfl _ _ _ _ _ _ _ _ _ _ ?_
  intro a y u
  refine Keeps.step (tileUpd_keeps ..) rfl ?_
  refine ite_keeps _ _ _ ?_ ?_
  · intro a5
    exact Keeps.step (State.draw_keeps ..) rfl (Keeps.refl _ _)
  · intro a6
    exact Keeps.refl _ _

theorem execOpMpyxy_keeps (die : Nat) (tile : Nat) (word : Word32) (s : State) : Answers [.freeCtr, .fault, .tiles, .galley] s (execOpMpyxy die tile word s) := by
  unfold execOpMpyxy
  refine xyOp_keeps ..

theorem execOpMacxy_keeps (die : Nat) (tile : Nat) (word : Word32) (s : State) : Answers [.freeCtr, .fault, .tiles, .galley] s (execOpMacxy die tile word s) := by
  unfold execOpMacxy
  refine xyOp_keeps ..

theorem execOpMsuxy_keeps (die : Nat) (tile : Nat) (word : Word32) (s : State) : Answers [.freeCtr, .fault, .tiles, .galley] s (execOpMsuxy die tile word s) := by
  unfold execOpMsuxy
  refine xyOp_keeps ..

theorem execOpGets_keeps (die : Nat) (tile : Nat) (word : Word32) (s : State) : Answers [.fault, .tiles, .galley] s (execOpGets die tile word s) := by
  unfold execOpGets
  refine Answers.next ?_
  refine Keeps.step (issue_keeps ..) rfl ?_
  exact Keeps.refl _ _

theorem execOpPut_keeps (die : Nat) (tile : Nat) (word : Word32) (s : State) : Answers [.fault, .tiles, .galley] s (execOpPut die tile word s) := by
  unfold execOpPut
  extract_lets -lift +onlyGivenNames d0
  clear_value d0
  extract_lets -lift +onlyGivenNames duty1
  clear_value duty1
  extract_lets -lift +onlyGivenNames port2
  clear_value port2
  refine Answers.next ?_
  refine Keeps.step (issue_keeps ..) rfl ?_
  exact Keeps.refl _ _

theorem execIllegalInstruction_keeps (die : Nat) (tile : Nat) (word : Word32) (s : State) : Answers [.fault, .tiles, .galley] s (execIllegalInstruction die tile word s) := by
  unfold execIllegalInstruction
  refine Answers.ite _ _ _ ?_ ?_
  · intro a0
    refine Answers.next ?_
    exact Keeps.refl _ _
  · intro a1
    refine Answers.next ?_
    refine Keeps.step (issue_keeps ..) rfl ?_
    exact Keeps.refl _ _

/-! ### Time -/

theorem execTimeBaseSet_keeps (c : Cmd) (s : State) : Answers [.host, .mb, .fault, .time] s (execTimeBaseSet c s) := by
  unfold execTimeBaseSet
  extract_lets -lift +onlyGivenNames b0
  clear_value b0
  extract_lets -lift +onlyGivenNames rel1
  clear_value rel1
  extract_lets -lift +onlyGivenNames leapS2
  clear_value leapS2
  extract_lets -lift +onlyGivenNames d3
  clear_value d3
  extract_lets -lift +onlyGivenNames g4
  clear_value g4
  refine Answers.runCmd _ _ _ _ ?_ rfl
  intro a5
  split
  · refine Keeps.step (baseSet_keeps ..) rfl ?_
    exact Keeps.refl _ _
  · extract_lets -lift +onlyGivenNames off7
    clear_value off7
    extract_lets -lift +onlyGivenNames s9
    have h_s9 : Keeps [.host, .mb, .fault, .time] a5 s9 := by
      refine Keeps.step (State.onTime_keeps ..) rfl ?_
      exact Keeps.refl _ _
    clear_value s9
    extract_lets -lift +onlyGivenNames s11
    have h_s11 : Keeps [.host, .mb, .fault, .time] a5 s11 := by
      refine ite_keeps _ _ _ ?_ ?_
      · intro a12
        assumption
      · intro a13
        refine Keeps.step (timeEvent_keeps ..) rfl ?_
        assumption
    clear_value s11
    try dsimp -zeta only [okReply]
    assumption

theorem execTimeDisciplineConfig_keeps (c : Cmd) (s : State) : Answers [.host, .mb, .fault, .time] s (execTimeDisciplineConfig c s) := by
  unfold execTimeDisciplineConfig
  extract_lets -lift +onlyGivenNames on0
  clear_value on0
  extract_lets -lift +onlyGivenNames k1
  clear_value k1
  extract_lets -lift +onlyGivenNames g2
  clear_value g2
  refine Answers.runCmd _ _ _ _ ?_ rfl
  intro a3
  split
  · try dsimp -zeta only
    exact Keeps.refl _ _
  · extract_lets -lift +onlyGivenNames s5
    have h_s5 : Keeps [.host, .mb, .fault, .time] a3 s5 := by
      refine Keeps.step (State.onTime_keeps ..) rfl ?_
      exact Keeps.refl _ _
    clear_value s5
    extract_lets -lift +onlyGivenNames s7
    have h_s7 : Keeps [.host, .mb, .fault, .time] a3 s7 := by
      refine ite_keeps _ _ _ ?_ ?_
      · intro a8
        refine Keeps.step (State.onTime_keeps ..) rfl ?_
        assumption
      · intro a9
        refine ite_keeps _ _ _ ?_ ?_
        · intro a10
          refine when_keeps _ _ _ _ ?_ ?_
          · refine Keeps.step (State.onTime_keeps ..) rfl ?_
            assumption
          · refine Keeps.step (timeEvent_keeps ..) rfl ?_
            exact Keeps.refl _ _
        · intro a11
          assumption
    clear_value s7
    extract_lets -lift +onlyGivenNames s13
    have h_s13 : Keeps [.host, .mb, .fault, .time] a3 s13 := by
      refine ite_keeps _ _ _ ?_ ?_
      · intro a14
        refine Keeps.step (State.onTime_keeps ..) rfl ?_
        assumption
      · intro a15
        assumption
    clear_value s13
    extract_lets -lift +onlyGivenNames s17
    have h_s17 : Keeps [.host, .mb, .fault, .time] a3 s17 := by
      refine ite_keeps _ _ _ ?_ ?_
      · intro a18
        assumption
      · intro a19
        refine Keeps.step (requal_keeps ..) rfl ?_
        assumption
    clear_value s17
    try dsimp -zeta only [okReply]
    assumption

theorem execTimeOutputConfig_keeps (c : Cmd) (s : State) : Answers [.host, .mb, .time] s (execTimeOutputConfig c s) := by
  unfold execTimeOutputConfig
  extract_lets -lift +onlyGivenNames o0
  clear_value o0
  extract_lets -lift +onlyGivenNames f1
  clear_value f1
  extract_lets -lift +onlyGivenNames k2
  clear_value k2
  extract_lets -lift +onlyGivenNames g3
  clear_value g3
  refine Answers.runCmd _ _ _ _ ?_ rfl
  intro a4
  try dsimp -zeta only [okReply]
  refine Keeps.step (State.onTime_keeps ..) rfl ?_
  exact Keeps.refl _ _

theorem execTimeStampConfig_keeps (c : Cmd) (s : State) : Answers [.host, .mb, .time] s (execTimeStampConfig c s) := by
  unfold execTimeStampConfig
  extract_lets -lift +onlyGivenNames i0
  clear_value i0
  extract_lets -lift +onlyGivenNames f1
  clear_value f1
  extract_lets -lift +onlyGivenNames k2
  clear_value k2
  extract_lets -lift +onlyGivenNames g3
  clear_value g3
  refine Answers.runCmd _ _ _ _ ?_ rfl
  intro a4
  try dsimp -zeta only [okReply]
  refine Keeps.step (State.onTime_keeps ..) rfl ?_
  exact Keeps.refl _ _

theorem execTimeStatus_keeps (c : Cmd) (s : State) : Answers [.host, .mb, .time] s (execTimeStatus c s) := by
  unfold execTimeStatus
  extract_lets -lift +onlyGivenNames a0
  clear_value a0
  extract_lets -lift +onlyGivenNames g1
  clear_value g1
  refine Answers.runCmd _ _ _ _ ?_ rfl
  intro a2
  extract_lets -lift +onlyGivenNames t4
  clear_value t4
  extract_lets -lift +onlyGivenNames move6
  clear_value move6
  extract_lets -lift +onlyGivenNames n8
  clear_value n8
  extract_lets -lift +onlyGivenNames s10
  have h_s10 : Keeps [.host, .mb, .time] a2 s10 := by
    refine ite_keeps _ _ _ ?_ ?_
    · intro a11
      refine Keeps.step (putBuf_keeps ..) rfl ?_
      refine Keeps.step (State.onTime_keeps ..) rfl ?_
      exact Keeps.refl _ _
    · intro a12
      exact Keeps.refl _ _
  clear_value s10
  try dsimp -zeta only [okReply]
  assumption

theorem execTbTimeLatchRead_keeps (n : Fin 4) (s : State) : Answers [.time] s (execTbTimeLatchRead n s) := by
  unfold execTbTimeLatchRead
  refine Answers.next ?_
  refine when_keeps _ _ _ _ ?_ ?_
  · exact Keeps.refl _ _
  · refine Keeps.step (State.onTime_keeps ..) rfl ?_
    exact Keeps.refl _ _

theorem execTbIncApply_keeps (n : Fin 4) (value : Word32) (s : State) : Answers [.time] s (execTbIncApply n value s) := by
  unfold execTbIncApply
  refine Answers.next ?_
  refine when_keeps _ _ _ _ ?_ ?_
  · exact Keeps.refl _ _
  · refine Keeps.step (tbIncWrite_keeps ..) rfl ?_
    exact Keeps.refl _ _

theorem execTsPop_keeps (s : State) : Answers [.time] s (execTsPop s) := by
  unfold execTsPop
  refine Answers.next ?_
  refine when_keeps _ _ _ _ ?_ ?_
  · exact Keeps.refl _ _
  · refine Keeps.step (State.onTime_keeps ..) rfl ?_
    exact Keeps.refl _ _

theorem execPpsInEdge_keeps (rising : Bool) (dt : Nat) (s : State) : Answers [.fault, .time] s (execPpsInEdge rising dt s) := by
  unfold execPpsInEdge
  refine Answers.ite _ _ _ ?_ ?_
  · intro a0
    refine Answers.next ?_
    exact Keeps.refl _ _
  · intro a1
    extract_lets -lift +onlyGivenNames s2
    have h_s2 : Keeps [.fault, .time] s s2 := by
      refine ite_keeps _ _ _ ?_ ?_
      · intro a3
        exact Keeps.refl _ _
      · intro a4
        refine Keeps.step (timeEvent_keeps ..) rfl ?_
        refine Keeps.step (State.onTime_keeps ..) rfl ?_
        exact Keeps.refl _ _
    clear_value s2
    refine Answers.ite _ _ _ ?_ ?_
    · intro a5
      refine Answers.next ?_
      assumption
    · intro a6
      extract_lets -lift +onlyGivenNames at7
      clear_value at7
      extract_lets -lift +onlyGivenNames sec8
      clear_value sec8
      extract_lets -lift +onlyGivenNames th9
      clear_value th9
      refine Answers.next ?_
      refine Keeps.step (State.onTime_keeps ..) rfl ?_
      assumption

theorem execDisciplineDecision_keeps (s : State) : Answers [.fault, .time] s (execDisciplineDecision s) := by
  unfold execDisciplineDecision
  split
  · refine Answers.next ?_
    exact Keeps.refl _ _
  · extract_lets -lift +onlyGivenNames s0
    have h_s0 : Keeps [.fault, .time] s s0 := by
      refine Keeps.step (State.onTime_keeps ..) rfl ?_
      exact Keeps.refl _ _
    clear_value s0
    extract_lets -lift +onlyGivenNames t1
    clear_value t1
    refine Answers.ite _ _ _ ?_ ?_
    · intro a2
      refine Answers.next ?_
      assumption
    · intro a3
      refine Answers.ite _ _ _ ?_ ?_
      · intro a4
        extract_lets -lift +onlyGivenNames s5
        have h_s5 : Keeps [.fault, .time] s s5 := by
          refine ite_keeps _ _ _ ?_ ?_
          · intro a6
            refine Keeps.step (timeEvent_keeps ..) rfl ?_
            refine Keeps.step (State.onTime_keeps ..) rfl ?_
            assumption
          · intro a7
            assumption
        clear_value s5
        refine Answers.ite _ _ _ ?_ ?_
        · intro a8
          refine Answers.next ?_
          refine Keeps.step (servo_keeps ..) rfl ?_
          refine Keeps.step (stepTime_keeps ..) rfl ?_
          assumption
        · intro a9
          refine Answers.next ?_
          refine Keeps.step (servo_keeps ..) rfl ?_
          assumption
      · intro a10
        refine Answers.ite _ _ _ ?_ ?_
        · intro a11
          extract_lets -lift +onlyGivenNames outs12
          clear_value outs12
          extract_lets -lift +onlyGivenNames s13
          have h_s13 : Keeps [.fault, .time] s s13 := by
            refine Keeps.step (State.onTime_keeps ..) rfl ?_
            assumption
          clear_value s13
          refine Answers.ite _ _ _ ?_ ?_
          · intro a14
            extract_lets -lift +onlyGivenNames s15
            have h_s15 : Keeps [.fault, .time] s s15 := by
              refine Keeps.step (State.onTime_keeps ..) rfl ?_
              assumption
            clear_value s15
            refine Answers.next ?_
            refine Keeps.step (requal_keeps ..) rfl ?_
            refine Keeps.step (freezeInc_keeps ..) rfl ?_
            refine Keeps.step (timeEvent_keeps ..) rfl ?_
            assumption
          · intro a16
            refine Answers.next ?_
            assumption
        · intro a17
          refine Answers.ite _ _ _ ?_ ?_
          · intro a18
            extract_lets -lift +onlyGivenNames n19
            clear_value n19
            extract_lets -lift +onlyGivenNames s20
            have h_s20 : Keeps [.fault, .time] s s20 := by
              refine Keeps.step (State.onTime_keeps ..) rfl ?_
              assumption
            clear_value s20
            refine Answers.ite _ _ _ ?_ ?_
            · intro a21
              refine Answers.next ?_
              assumption
            · intro a22
              refine Answers.next ?_
              refine Keeps.step (timeEvent_keeps ..) rfl ?_
              refine Keeps.step (State.onTime_keeps ..) rfl ?_
              assumption
          · intro a23
            refine Answers.next ?_
            refine Keeps.step (servo_keeps ..) rfl ?_
            assumption

theorem execPpsLoss_keeps (s : State) : Answers [.fault, .time] s (execPpsLoss s) := by
  unfold execPpsLoss
  refine Answers.ite _ _ _ ?_ ?_
  · intro a0
    refine Answers.next ?_
    exact Keeps.refl _ _
  · intro a1
    extract_lets -lift +onlyGivenNames s2
    have h_s2 : Keeps [.fault, .time] s s2 := by
      refine Keeps.step (timeEvent_keeps ..) rfl ?_
      refine Keeps.step (State.onTime_keeps ..) rfl ?_
      exact Keeps.refl _ _
    clear_value s2
    refine Answers.ite _ _ _ ?_ ?_
    · intro a3
      refine Answers.next ?_
      refine Keeps.step (requal_keeps ..) rfl ?_
      refine Keeps.step (freezeInc_keeps ..) rfl ?_
      refine Keeps.step (State.onTime_keeps ..) rfl ?_
      assumption
    · intro a4
      refine Answers.next ?_
      assumption

theorem execLinkTrackUpdate_keeps (dclk : Nat) (s : State) : Answers [.time] s (execLinkTrackUpdate dclk s) := by
  unfold execLinkTrackUpdate
  refine Answers.ite _ _ _ ?_ ?_
  · intro a0
    refine Answers.next ?_
    exact Keeps.refl _ _
  · intro a1
    refine Answers.ite _ _ _ ?_ ?_
    · intro a2
      refine Answers.next ?_
      refine Keeps.step (baseUpd_keeps ..) rfl ?_
      exact Keeps.refl _ _
    · intro a3
      extract_lets -lift +onlyGivenNames inc4
      clear_value inc4
      refine Answers.next ?_
      refine when_keeps _ _ _ _ ?_ ?_
      · exact Keeps.refl _ _
      · refine Keeps.step (baseUpd_keeps ..) rfl ?_
        exact Keeps.refl _ _

theorem execErrorBoundUpdate_keeps (s : State) : Answers [.fault, .time] s (execErrorBoundUpdate s) := by
  unfold execErrorBoundUpdate
  refine Answers.ite _ _ _ ?_ ?_
  · intro a0
    refine Answers.next ?_
    exact Keeps.refl _ _
  · intro a1
    refine Answers.next ?_
    refine Keeps.step (requal_keeps ..) rfl ?_
    refine Keeps.step (State.onTime_keeps ..) rfl ?_
    exact Keeps.refl _ _

theorem execLeapSecond_keeps (s : State) : Answers [.fault, .time] s (execLeapSecond s) := by
  unfold execLeapSecond
  split
  · refine Answers.next ?_
    exact Keeps.refl _ _
  · refine Answers.next ?_
    refine Keeps.step (timeEvent_keeps ..) rfl ?_
    refine Keeps.step (State.onTime_keeps ..) rfl ?_
    exact Keeps.refl _ _

theorem execPpsOutPulse_keeps (out : Fin 4) (k : Nat) (s : State) : Answers [.time] s (execPpsOutPulse out k s) := by
  unfold execPpsOutPulse
  refine Answers.ite _ _ _ ?_ ?_
  · intro a0
    refine Answers.next ?_
    exact Keeps.refl _ _
  · intro a1
    refine Answers.next ?_
    refine Keeps.step (State.onTime_keeps ..) rfl ?_
    exact Keeps.refl _ _

theorem execPpsOutPulseEnd_keeps (out : Fin 4) (s : State) : Answers [.time] s (execPpsOutPulseEnd out s) := by
  unfold execPpsOutPulseEnd
  refine Answers.next ?_
  refine Keeps.step (State.onTime_keeps ..) rfl ?_
  exact Keeps.refl _ _

theorem execIrigbFrame_keeps (sec : Nat) (s : State) : Answers [.time] s (execIrigbFrame sec s) := by
  unfold execIrigbFrame
  refine Answers.ite _ _ _ ?_ ?_
  · intro a0
    refine Answers.next ?_
    exact Keeps.refl _ _
  · intro a1
    extract_lets -lift +onlyGivenNames k2
    clear_value k2
    extract_lets -lift +onlyGivenNames v3
    clear_value v3
    refine Answers.next ?_
    refine Keeps.step (State.onTime_keeps ..) rfl ?_
    exact Keeps.refl _ _

theorem execTsInEdge_keeps (input : Fin 32) (rising : Bool) (dt : Nat) (held : Bool) (s : State) : Answers [.mb, .fault, .time] s (execTsInEdge input rising dt held s) := by
  unfold execTsInEdge
  extract_lets -lift +onlyGivenNames k0
  clear_value k0
  refine Answers.ite _ _ _ ?_ ?_
  · intro a1
    refine Answers.next ?_
    exact Keeps.refl _ _
  · intro a2
    refine Answers.ite _ _ _ ?_ ?_
    · intro a3
      refine Answers.next ?_
      refine Keeps.step (State.onTime_keeps ..) rfl ?_
      exact Keeps.refl _ _
    · intro a4
      extract_lets -lift +onlyGivenNames v5
      clear_value v5
      refine Answers.next ?_
      refine Keeps.step (stampAdd_keeps ..) rfl ?_
      exact Keeps.refl _ _

theorem execHoldoverLoad_keeps (sec : Nat) (s : State) : Answers [.power] s (execHoldoverLoad sec s) := by
  unfold execHoldoverLoad
  refine Answers.ite _ _ _ ?_ ?_
  · intro a0
    refine Answers.next ?_
    exact Keeps.refl _ _
  · intro a1
    refine Answers.next ?_
    refine Keeps.step (State.onPower_keeps ..) rfl ?_
    exact Keeps.refl _ _

end Sys2Proof.Machine
end

