-- ==== Sys2Proof/Laws/Serve.lean ====
section
/-! SUPPORT. The gate, the pairs and the issue of tile instructions, one lemma each: when a mailbox command runs its action, when a tile
instruction has its effect. -/

namespace Sys2Proof.Machine

open Sys2Proof

theorem Answers.mono {K L : List Part} {s : State} {o : Out} (h : Answers K s o) (hK : (K.all fun p => L.contains p) = true) : Answers L s o := by
  obtain ⟨t, e, k⟩ := h
  exact ⟨t, e, k.mono hK⟩

theorem Answers.of_eq {L : List Part} {s t : State} {o : Out} (h : Answers L s o) (e : o = .next t) : Keeps L s t := by
  obtain ⟨t', e', k⟩ := h
  rw [e] at e'
  cases e'
  exact k

theorem Answers.get {L : List Part} {s : State} {o : Out} (h : Answers L s o) : ∃ t, o = .next t ∧ Keeps L s t := h

/-- An entry with FLAGS 0 has its parameters inline. -/
theorem isExt0 {c : Cmd} (h : c.flags = 0) : c.isExt = false := by simp [Cmd.isExt, h]

/-- An entry with FLAGS 1 has an external block. -/
theorem isExt1 {c : Cmd} (h : c.flags = 1) : c.isExt = true := by simp [Cmd.isExt, h]

/-- The reserved fields of an inline entry. -/
theorem res0 {c : Cmd} (h : c.flags = 0) (h2 : c.rsvd = 0) : c.entryReserved = true := by simp [Cmd.entryReserved, Cmd.isExt, h, h2]

/-- The reserved fields of an external entry. -/
theorem res1 {c : Cmd} (h : c.flags = 1) (h2 : c.rsvd = 0) (h3 : (rd c.param 0 8 % 64 == 0 && zeros c.param 16 32) = true) : c.entryReserved = true := by
  simp only [Cmd.entryReserved, Cmd.isExt, h, h2]; simp at h3 ⊢; exact h3

/-- A command whose checks pass runs its action. -/
theorem run_ok {g : Gate} {c : Cmd} {s : State} {act : State → Reply} {o : Out} (h1 : s.dev.state ≠ .powerDown) (h2 : s.dev.state ≠ .boot)
    (h3 : g.fail c s = none) (h5 : (if (act s).later then Host.Outcome.next (awaitFirst g.opcode c (act s).st)
      else .next (answer g.opcode c (act s).status (act s).result (act s).st)) = o) : runCmd g c s act = o := by
  rw [← h5]
  simp only [runCmd, booting, h1, h2, h3, beq_iff_eq, if_false]

/-- The checks pass where each of them does (Table 4.9). -/
theorem gate_ok {g : Gate} {c : Cmd} {s : State} (h1 : (if c.mb = 0 then g.mb0 else g.mb17) = true)
    (h2 : (g.test && !s.power.straps.ftest) = false) (h3 : g.len = true) (h4 : g.fitted = true) (h5 : g.legalIn s.dev.state = true)
    (h6 : g.roles s.dev.role = true) (h7 : g.permit = true) (h8 : g.par = true) (h8' : c.entryReserved = true) (h9 : g.free = true)
    (h10 : (g.pends && decide (8 ≤ pendCount s c.mb)) = false) : g.fail c s = none := by
  have e : (if c.mb = 0 then !g.mb0 else !g.mb17) = false := by split at h1 <;> simp_all
  unfold Gate.fail
  rw [e, h2, h3, h4, h5, h6, h7, h8, h8', h9, h10]
  rfl

/-- Legal in the state, from a list of legal states that holds it. -/
theorem legal_of_mem {g : Gate} {st : DevState} {l : List DevState} (h : st ∈ l) (h2 : (l.all fun x => g.legal x) = true) : g.legalIn st = true := by
  have := List.all_eq_true.mp h2 st h
  simp [Gate.legalIn, this]

theorem legal_of_mem' {g : Gate} {st : DevState} {l : List DevState} (h : st ∈ l) (h2 : (l.all fun x => g.legalIn x) = true) : g.legalIn st = true := 
  List.all_eq_true.mp h2 st h

/-- The role admits, from a list of roles that holds it. -/
theorem roles_of_mem {f : Role → Bool} {st : Role} {l : List Role} (h : st ∈ l) (h2 : (l.all fun x => f x) = true) : f st = true := 
  List.all_eq_true.mp h2 st h

/-- Legal in every state that serves commands. -/
theorem legal_serving {g : Gate} {s : State} (h3 : s.dev.state ≠ .powerDown) (h4 : s.dev.state ≠ .boot) (h : (DevState.all.filter (fun x => x != .powerDown && x != .boot)).all (fun x => g.legalIn x) = true) : g.legalIn s.dev.state = true := by
  apply List.all_eq_true.mp h
  cases e : s.dev.state <;> simp_all [DevState.all]

/-- A command goes PENDING under the states in which its gate lets it be. -/
theorem goPending_as (g : Gate) (c : Cmd) (objs : List Obj) (arg : Nat) (work : Option (Status × Bytes)) (s : State) :
    goPending g c objs arg work s = pendAs g.opcode c objs (DevState.all.filter g.legalIn) arg work s := rfl

/-- The update of a pair, by the value it gets. -/
theorem pairUpd_eq {p : Nat} {s : State} {v : PwmPair} {f : PwmPair → PwmPair} (e : f (pairGet s p) = v) : pairUpd p f s = pairUpd p (fun _ => v) s := by
  subst e; rfl

/-- A tile instruction that issues has its effect. -/
theorem issueWith_ok {d t : Nat} {w : Word32} {op : Nat} {zero : Word32} {reads : List Nat} {cost : Nat} {s : State}
    {act : Item → TileSt → TRes} {fin : Item → TileSt → State → State} {i : Item} (h : Issues s d t w op zero i) :
    issueWith d t w op zero reads cost s act fin = match act i (issued s d t reads cost) with
      | .error f => tileAbort d t f s
      | .ok y => fin i y s := by
  obtain ⟨h1, h2, h3, h4, h5, h6⟩ := h
  unfold issueWith
  have e1 : ¬ ((tileGet s d t).limit ≤ (tileGet s d t).cycles ∨ fld w 31 26 ≠ op) := by simp [h3]; omega
  have e2 : ¬ ((tileGet s d t).bind.kid < 0x8000 ∧ (imageWord s d (tileGet s d t).pc).any (fun v => v != w) = true) := by
    rintro ⟨hk, ha⟩
    have := h5 hk
    cases hh : imageWord s d (tileGet s d t).pc <;> simp_all
  simp only [h1, e1, h4, e2, h6, if_false, Bool.not_true, ne_eq, not_true, Bool.false_eq_true]
  rfl

/-- A word with a reserved bit set aborts the item. -/
theorem issueWith_bad {d t : Nat} {w : Word32} {op : Nat} {zero : Word32} {reads : List Nat} {cost : Nat} {s : State}
    {act : Item → TileSt → TRes} {fin : Item → TileSt → State → State} {i : Item} (h : Misformed s d t w op zero i) :
    issueWith d t w op zero reads cost s act fin = tileAbort d t .illegal s := by
  obtain ⟨h1, h2, h3, h4, h5, h6⟩ := h
  unfold issueWith
  have e1 : ¬ ((tileGet s d t).limit ≤ (tileGet s d t).cycles ∨ fld w 31 26 ≠ op) := by simp [h3]; omega
  have e2 : ¬ ((tileGet s d t).bind.kid < 0x8000 ∧ (imageWord s d (tileGet s d t).pc).any (fun v => v != w) = true) := by
    rintro ⟨hk, ha⟩
    have := h5 hk
    cases hh : imageWord s d (tileGet s d t).pc <;> simp_all
  simp only [h1, e1, h4, e2, h6, if_false, Bool.not_true, ne_eq, not_false_eq_true, if_true, Bool.false_eq_true]

/-- The same, for an instruction that changes the tile alone. -/
theorem issue_ok {d t : Nat} {w : Word32} {op : Nat} {zero : Word32} {reads : List Nat} {cost : Nat} {s : State}
    {act : Item → TileSt → TRes} {i : Item} (h : Issues s d t w op zero i) :
    issue d t w op zero reads cost s act = match act i (issued s d t reads cost) with
      | .error f => tileAbort d t f s
      | .ok y => tileUpd d t (fun _ => y) s := issueWith_ok h

/-- A wrapped sum is the sum of words. -/
theorem wrap_add (a b : Word32) : w32 (a.toInt + b.toInt) = a + b := by
  simp [w32, BitVec.ofInt_add]

/-- A wrapped difference is the difference of words. -/
theorem wrap_sub (a b : Word32) : w32 (a.toInt - b.toInt) = a - b := by
  simp [w32, BitVec.sub_eq_add_neg, Int.sub_eq_add_neg, BitVec.ofInt_add, BitVec.ofInt_neg]

/-- The update of a cell controller, by the value it gets. -/
theorem ctlUpd_eq {cid : Nat} {s : State} {c v : CellCtl} {f : CellCtl → CellCtl} (h : ctlGet s cid = c) (e : f c = v) : ctlUpd cid f s = ctlUpd cid (fun _ => v) s := by
  subst e; subst h; rfl

end Sys2Proof.Machine
end

