-- ==== Sys2Proof/WellFormed.lean ====
section
/-! DEFINITION. Well-formed commands: what the world outside can send at all. A mailbox command comes from a 64-byte entry with 48
parameter bytes; an event names a port, cell, die or unit that the block has (Tables 1.1, 6.15, 19.1). -/

namespace Sys2Proof

/-- A mailbox command as an entry of 64 bytes carries it (Table 4.7, R87). -/
def Cmd.wf (c : Cmd) : Bool :=
  c.param.length == 48 && c.length < 65536 && (c.flags.getLsbD 0 || c.block.isEmpty)

def Instr.wf : Instr → Bool
  | .sysCaps c => c.wf
  | .sysStateGet c => c.wf
  | .sysStateRequest c => c.wf
  | .sysBlockClear c => c.wf
  | .sysReset c => c.wf
  | .sysLogRead c => c.wf
  | .sysNop c => c.wf
  | .testEnter c => c.wf
  | .tickConfig c => c.wf
  | .tickCommit c => c.wf
  | .tickStatus c => c.wf
  | .cellPortUp c => c.wf
  | .cellPortDown c => c.wf
  | .cellRangeRead c => c.wf
  | .cellPortRemap c => c.wf
  | .cellRosterLoad c => c.wf
  | .cellRosterRead c => c.wf
  | .cellHealthSet c => c.wf
  | .cellContextRead c => c.wf
  | .cellSafeStateSet c => c.wf
  | .aieArmConfig c => c.wf
  | .aieSelectParams c => c.wf
  | .aieDerateConfig c => c.wf
  | .aieWearRead c => c.wf
  | .aieArmStatus c => c.wf
  | .pwmArmConfig c => c.wf
  | .pwmPairConfig c => c.wf
  | .pwmTripConfig c => c.wf
  | .pwmTripClear c => c.wf
  | .pwmStatus c => c.wf
  | .loopChannelConfig c => c.wf
  | .loopCoeffLoad c => c.wf
  | .loopTableLoad c => c.wf
  | .loopScheduleConfig c => c.wf
  | .loopRepetitiveConfig c => c.wf
  | .loopSupervisorConfig c => c.wf
  | .loopStatus c => c.wf
  | .tileKernelLoad c => c.wf
  | .tileKernelBind c => c.wf
  | .tileRomList c => c.wf
  | .tileStatus c => c.wf
  | .dispFlowConfig c => c.wf
  | .dispClassConfig c => c.wf
  | .dispCancel c => c.wf
  | .dispStatsRead c => c.wf
  | .measChannelConfig c => c.wf
  | .measSequenceConfig c => c.wf
  | .measFilterConfig c => c.wf
  | .measRefSelect c => c.wf
  | .measCalibrate c => c.wf
  | .measDiagRun c => c.wf
  | .measStatus c => c.wf
  | .acqChannelConfig c => c.wf
  | .acqTriggerConfig c => c.wf
  | .acqArm c => c.wf
  | .acqSegmentRead c => c.wf
  | .acqLocate c => c.wf
  | .protElementConfig c => c.wf
  | .protCurveLoad c => c.wf
  | .protTripMap c => c.wf
  | .protTripReset c => c.wf
  | .protRecordConfig c => c.wf
  | .protRecordExport c => c.wf
  | .protStatus c => c.wf
  | .timeBaseSet c => c.wf
  | .timeDisciplineConfig c => c.wf
  | .timePtpConfig c => c.wf
  | .timeOutputConfig c => c.wf
  | .timeStampConfig c => c.wf
  | .timeStatus c => c.wf
  | .netPortConfig c => c.wf
  | .netGooseConfig c => c.wf
  | .netSvConfig c => c.wf
  | .netDmaStreamConfig c => c.wf
  | .netStatus c => c.wf
  | .safeConfigRead c => c.wf
  | .safeSealConfirm c => c.wf
  | .safeRampConfig c => c.wf
  | .safeStop c => c.wf
  | .safeTorqueOff c => c.wf
  | .safeReset c => c.wf
  | .safeStatus c => c.wf
  | .faultMaskSet c => c.wf
  | .faultColophonRead c => c.wf
  | .faultColophonRearm c => c.wf
  | .faultStatus c => c.wf
  | .testFaultInject c => c.wf
  | .redPairForm c => c.wf
  | .redRoleHandover c => c.wf
  | .redUnfence c => c.wf
  | .redCompareConfig c => c.wf
  | .redStatus c => c.wf
  | .recConfig c => c.wf
  | .recFreeze c => c.wf
  | .recFreezeRead c => c.wf
  | .recReplayStart c _ => c.wf
  | .recReplayStop c => c.wf
  | .recStatus c => c.wf
  | .spareStatus c => c.wf
  | .spareSwap c => c.wf
  | .spareThresholdSet c => c.wf
  | .monAttach c => c.wf
  | .monReset c => c.wf
  | .monRead c => c.wf
  | .mbEnable _ _ => true
  | .mbDisable _ _ => true
  | .mbDoorbell _ _ => true
  | .mbRspHeadWrite _ _ => true
  | .heldResponseWrite _ => true
  | .commandFetch entry _ => entry.length == 64
  | .tbTimeLatchRead _ => true
  | .tbIncApply _ _ => true
  | .tsPop => true
  | .evqEnableWrite _ => true
  | .evqHeadWrite _ => true
  | .fatalCauseRead => true
  | .monWindowRead _ => true
  | .registerWrite offset width _ => offset < 65536 && (width == 8 || width == 16 || width == 32)
  | .nporAccept => true
  | .nporRise => true
  | .strapSample _ _ _ _ => true
  | .bootPllLock => true
  | .bootFirmwareStart => true
  | .bootTimePllLock => true
  | .bootLinksUp _ => true
  | .bootSelftestDone _ => true
  | .bootDdrTrained _ _ => true
  | .bootPcieReady => true
  | .bootComplete => true
  | .perstnAssert => true
  | .railLow die rail _ => die < 8 && rail < 11
  | .refclkLost => true
  | .timerefLost => true
  | .timerefReturn => true
  | .ethRefclkLost => true
  | .pcieRefclkLost => true
  | .xtal32Lost => true
  | .pllUnlock domain => domain < 8
  | .tempSensorRead die _ => die < 8
  | .rstbtnPressSeen _ => true
  | .rstbtnReleaseSeen _ => true
  | .rstbtnStuck => true
  | .rstbtnStuckClear => true
  | .resetRequest _ _ => true
  | .resetExecute => true
  | .heartbeatIncrement => true
  | .aliveToggle => true
  | .tamperPulse _ => true
  | .aonPowerLoss => true
  | .holdoverLoad _ => true
  | .tickBoundary => true
  | .inputCrossing => true
  | .outputCrossing _ _ => true
  | .commitApply _ => true
  | .commitWithdraw => true
  | .tickLengthChange => true
  | .deviceStateTransition => true
  | .deblockEnter => true
  | .loopHoldExpiry lch => lch < 512
  | .loopSatTimeReached lch => lch < 512
  | .loopAutoResume lch => lch < 512
  | .aieClampWindowEnd arm => arm < 12
  | .aieUnresolved arm => arm < 12
  | .designatedCellRotate arm => arm < 12
  | .wearPenaltyRecompute => true
  | .wearSave => true
  | .armOverrunLimit arm => arm < 12
  | .blockRequestSend _ => true
  | .safeRequestSend _ => true
  | .timeSetSend port => port < 32
  | .portStartingDone port => port < 32
  | .rangeMeasurementJudge port _ => port < 32
  | .portVerifyEnter port => port < 32
  | .portInService port => port < 32
  | .upstreamBurstReceive port slot _ => port < 32 && slot < 128
  | .rerangingMark cid => cid < 4096
  | .launchCalibration => true
  | .wakingComplete port => port < 32
  | .sparePortTakeover port => port < 32
  | .portLost loss => loss.port < 32
  | .rejoinTimeout cid => cid < 4096
  | .safeSelRequeue cid => cid < 4096
  | .contextEccError port entry _ => port < 32 && entry < 128
  | .cellWordLock cid _ _ => cid < 4096
  | .cellFrameTake cid _ _ => cid < 4096
  | .cellFrameDeadline cell => cell.cid < 4096
  | .cellBlockAccept cid _ _ => cid < 4096
  | .cellSafeAccept cid _ _ => cid < 4096
  | .cellTimeSetAccept cid _ _ _ => cid < 4096
  | .cellSleepAccept cid _ _ _ => cid < 4096
  | .cellBlockHoldEnd cell => cell.cid < 4096
  | .cellWatchdogExpiry cid => cid < 4096
  | .cellLinkLoss cid _ => cid < 4096
  | .cellEdgeExecute cid => cid < 4096
  | .cellSampleLatch cid _ _ _ => cid < 4096
  | .cellBurstLaunch cid _ => cid < 4096
  | .cellFaultDetect cid _ => cid < 4096
  | .cellPermBypass cid => cid < 4096
  | .pairCounterZero pair _ => pair < 8
  | .pairCounterPeriod pair _ => pair < 8
  | .pairCompareMatch pair _ _ => pair < 8
  | .pairDutyArrival pair => pair < 8
  | .pairCommutationSensed pair _ _ => pair < 8
  | .pairDeadtimeEnd pair => pair < 8
  | .comparatorActive cmp => cmp < 24
  | .comparatorInactive cmp => cmp < 24
  | .opNop die tile _ => die < 2 && tile < 18
  | .opEnd die tile _ => die < 2 && tile < 18
  | .opRep die tile _ => die < 2 && tile < 18
  | .opBr die tile _ => die < 2 && tile < 18
  | .opAdd die tile _ => die < 2 && tile < 18
  | .opSub die tile _ => die < 2 && tile < 18
  | .opAdds die tile _ => die < 2 && tile < 18
  | .opSubs die tile _ => die < 2 && tile < 18
  | .opAnd die tile _ => die < 2 && tile < 18
  | .opOr die tile _ => die < 2 && tile < 18
  | .opXor die tile _ => die < 2 && tile < 18
  | .opMin die tile _ => die < 2 && tile < 18
  | .opMax die tile _ => die < 2 && tile < 18
  | .opAbs die tile _ => die < 2 && tile < 18
  | .opNeg die tile _ => die < 2 && tile < 18
  | .opShl die tile _ => die < 2 && tile < 18
  | .opShr die tile _ => die < 2 && tile < 18
  | .opCmp die tile _ => die < 2 && tile < 18
  | .opAddi die tile _ => die < 2 && tile < 18
  | .opLil die tile _ => die < 2 && tile < 18
  | .opLih die tile _ => die < 2 && tile < 18
  | .opMvpi die tile _ => die < 2 && tile < 18
  | .opMvpd die tile _ => die < 2 && tile < 18
  | .opMvc die tile _ => die < 2 && tile < 18
  | .opLd die tile _ => die < 2 && tile < 18
  | .opSt die tile _ => die < 2 && tile < 18
  | .opMpy die tile _ => die < 2 && tile < 18
  | .opMac die tile _ => die < 2 && tile < 18
  | .opMsu die tile _ => die < 2 && tile < 18
  | .opSta die tile _ => die < 2 && tile < 18
  | .opLda die tile _ => die < 2 && tile < 18
  | .opMva die tile _ => die < 2 && tile < 18
  | .opMpyxy die tile _ => die < 2 && tile < 18
  | .opMacxy die tile _ => die < 2 && tile < 18
  | .opMsuxy die tile _ => die < 2 && tile < 18
  | .opBexr die tile _ => die < 2 && tile < 18
  | .opBexp die tile _ => die < 2 && tile < 18
  | .opExp die tile _ => die < 2 && tile < 18
  | .opBshl die tile _ => die < 2 && tile < 18
  | .opStb die tile _ => die < 2 && tile < 18
  | .opGets die tile _ => die < 2 && tile < 18
  | .opPut die tile _ => die < 2 && tile < 18
  | .tileCycleLimit die tile => die < 2 && tile < 18
  | .tileMemoryError die tile _ _ _ => die < 2 && tile < 18
  | .tileRepairDone die tile => die < 2 && tile < 18
  | .tileKnownAnswerTest die tile _ => die < 2 && tile < 18
  | .itemStart die _ => die < 2
  | .itemRelease die item => die < 2 && item.cycle < 3
  | .itemTimeout die _ _ => die < 2
  | .dispCancelAct die => die < 2
  | .shedLevelFall die => die < 2
  | .portAgeExpiry die port => die < 2 && port < 256
  | .adcConversionComplete unit _ _ => unit < 4
  | .injectedTrigger trig => trig.unit < 4
  | .measurementSetLatch _ => true
  | .refMonitorCheck _ _ => true
  | .calibrationComplete unit _ _ => unit < 4
  | .autoCalibration => true
  | .levelTestComplete _ _ => true
  | .autoLevelTest => true
  | .pathTestComplete _ _ => true
  | .unitFail unit _ => unit < 5
  | .twTrigger _ _ _ => true
  | .twAutoTimeout _ _ _ => true
  | .twSegmentClose _ _ => true
  | .protSlowCycle _ _ _ => true
  | .protFastCycle _ => true
  | .twElementTrigger => true
  | .tripTminExpiry _ => true
  | .coilSupervisionExpiry _ _ => true
  | .protRecordClose => true
  | .ppsInEdge _ _ => true
  | .disciplineDecision => true
  | .ppsLoss => true
  | .linkTrackUpdate _ => true
  | .errorBoundUpdate => true
  | .leapSecond => true
  | .ppsOutPulse _ _ => true
  | .ppsOutPulseEnd _ => true
  | .irigbFrame _ => true
  | .tsInEdge _ _ _ _ => true
  | .ptpSyncSend _ => true
  | .ptpMessageReceive _ _ => true
  | .ptpAnnounceTimeout _ => true
  | .ethLinkChange _ _ => true
  | .svFrameReceive _ _ _ => true
  | .svStreamMiss _ => true
  | .gooseFrameReceive _ _ _ => true
  | .gooseStale _ => true
  | .goosePublishSample => true
  | .gooseRetransmit _ => true
  | .safeMessageDeliver _ => true
  | .safeCopyWindowExpiry _ => true
  | .foreignFrameReceive _ => true
  | .dmaRecordWrite _ => true
  | .dmaRecordDrop _ => true
  | .sealSwitchRead _ => true
  | .mainPathCycle _ => true
  | .mordantCheck => true
  | .mordantHeartbeatLoss => true
  | .mordantSuspendExpiry => true
  | .safeMessageSend _ => true
  | .safeRxWatchdogExpiry _ => true
  | .faultMessageArrive => true
  | .fatalFault die block kind _ => die < 8 && block < 512 && kind < 256
  | .evqEntryMove => true
  | .colophonFreeze => true
  | .giveWayInterim => true
  | .xlinkBringupDone _ order _ _ _ => order.length == 4
  | .xlinkDown _ => true
  | .xlTickReceive tick => tick.msg.role < 4 && tick.msg.state < 9
  | .xlMsetReceive _ _ => true
  | .xlCommitReceive _ _ _ => true
  | .xlStateReceive _ _ _ _ => true
  | .xlBlockReceive _ => true
  | .xlCheckReceive _ => true
  | .xlTimeMarker _ _ _ _ => true
  | .xlHandoverReceive _ => true
  | .disputedEnter => true
  | .selfCheckDone _ _ _ => true
  | .roleDecision => true
  | .checkTimeout => true
  | .partnerBack => true
  | .promotion => true
  | .unfenceInstallDone => true
  | .tapBufferDrain => true
  | .tapEntryLost tap _ => tap.all (· < 32)
  | .freezeComplete slot => slot < 16
  | .decimatedWrite => true
  | .replayEnter => true
  | .replayEnd _ => true
  | .cdcStall die _ _ _ => die < 8
  | .cdcUnstable die _ _ _ => die < 8
  | .loopLaneKat die _ => die < 2
  | .resourceFail kind die _ _ => kind < 9 && die < 8
  | .spareIn kind die _ => kind < 9 && die < 8
  | .sramRowRepair die _ _ _ => die < 8
  | .mramWearLevel _ _ => true
  | .mramRetentionRewrite _ => true
  | .monitorSample _ _ => true
  | .illegalInstruction die tile _ => die < 2 && tile < 18
  | .cellPowerUp cid _ => cid < 4096
  | .perstnRelease => true
  | .packageLinkDown link => link < 13
  | .pcieAerError _ _ => true
  | .refSelectTimeout => true
  | .unfenceTimeout => true
  | .xlclkLock _ _ => true
  | .finalResponse _ => true

end Sys2Proof
end

