-- ==== Sys2Proof/Tests/Slice0.lean ====
section
/-! SUPPORT. Tests: ill-formed commands that `Instr.wf` refuses, the worked examples of the spec's chapters on the operation each is
about, and for each obligation a theorem that its hypotheses are met together, clause by clause, in a concrete state. -/

namespace Sys2Proof.Tests
open Sys2Proof Sys2Proof.Machine
set_option Elab.async false

/-! ### Small states and operands that the tests share -/

/-- A command of mailbox `m` with `n` inline parameter bytes `p`. -/
def cmd (m : Fin 8) (n : Nat) (p : Bytes) : Cmd := { mb := m, tag := 0x1234, seq := 0, flags := 0, length := n, param := fit 48 p, rsvd := 0, block := [] }
/-- The reset state in device state `st`, the host port up.. -/
def inState (st : DevState) : State := (State.reset.onDev (fun d => { d with state := st })).onPower (fun p => { p with hostUp := true })
def asM2 (s : State) : State := s.onDev (fun d => { d with variant := .m2 })
def withFtest (s : State) : State := s.onPower (fun p => { p with straps := { p.straps with ftest := true } })
/-- A state whose preconditions of R111 are all met. -/
def ready (st : DevState) : State := ((inState st).onProt (fun p => { p with running := true })).onSafe (fun x => { x with sealSt := 1, cfg := some ⟨0, []⟩, mLatch := false, sf := .idle })
def tripped : State := (inState .blockedFault).onPwm (fun p => { p with blockedBy := 1, active := 1 })
def highLoop (s : State) : State := s.onLoop (fun l => { l with cfg := [(200, { form := 1 })] })
def newT (n : Nat) (s : State) : State := s.onTick (fun t => { t with newLen := some n })
def oneCommit : Commit := { boundary := 0, mask := 1, crc := 0, matched := false, c := 0 }
def armed (k : Commit) (s : State) : State := s.onTick (fun t => { t with commits := [k] })
def stagedSet (m : BitVec 9) (s : State) : State := s.onTick (fun t => { t with staged := m })
def paired (s : State) : State := s.onDev (fun d => { d with paired := true })
def bootedAll : State := State.reset.onPower (fun p => { p with strapDone := true, bootDone := [1, 2, 3, 4, 5, 6], warmBoot := true })
def mbx (n : Nat) (f : MbBlock → MbBlock) (s : State) : State := mbUpd n f s
def ringed (n : Nat) (s : State) : State := mbUpd n (fun x => { x with cmdBase := 0x1000, rspBase := 0x2000 }) s
def enabledMb (n : Nat) (s : State) : State := mbUpd n (fun x => { x with ctrl := 1, enabled := true }) (ringed n s)
def waiting (n : Nat) (s : State) : State := mbUpd n (fun x => { x with cmdTail := 1 }) (enabledMb n s)
/-- The bytes of a SYS_NOP entry, its CRC at the end. -/
def goodEntry : Bytes := withCrc (le 2 0x0107 ++ le 2 0x1234 ++ le 2 4 ++ le 2 0 ++ List.replicate 52 0)
/-- An entry of an opcode that no command has. -/
def badOpEntry : Bytes := withCrc (le 2 0x7F77 ++ le 2 0x1234 ++ le 2 4 ++ le 2 0 ++ List.replicate 52 0)
def aResponse : Response := ⟨2, 0x0107, 1, 0, .ok, true, 0, []⟩
def holding (n : Nat) (s : State) : State := mbUpd n (fun x => { x with held := [aResponse] }) s
def aPending : PendingCmd := { mb := 2, opcode := 0x0201, tag := 5, seq := 0, objs := [], legal := [], took := false, arg := 0, work := none, outcome := some (.ok, [], 7) }
def pended (s : State) : State := s.onMb (fun m => { m with pend := [aPending] })
def started (s : State) : State := s.onTime (fun t => { t with started := true })
def entered (s : State) : State := s.onTick (fun t => { t with inDone := true })
def atTick (n : Nat) (s : State) : State := s.onTick (fun t => { t with index := n })
def monitored (m : Nat) (s : State) : State := monUpd m (fun x => { x with on := true, point := 0x1000, lo := 0, w := 1, limit := 100 }) s
def portIn (st : PortState) (p : Nat) (s : State) : State := portUpd p (fun x => { x with state := st }) s
def aRoster : Roster := ⟨3, 0, 0, 0⟩
/-- Cell 3 of port 0 on the roster, PENDING. -/
def withCell (c : Nat) (s : State) : State := cellUpd c (fun x => { x with roster := some { aRoster with cid := c }, health := .pending }) (s.onLink (fun l => { l with roster := tset l.roster c { aRoster with cid := c } }))
/-- A roster block of one entry: CID 3, arm 0, half bridge. -/
def rosterCmd : Cmd := { mb := 1, tag := 1, seq := 0, flags := 1, length := 12, param := fit 48 (le 8 64 ++ le 4 32 ++ le 4 0), rsvd := 0, block := fit 32 (le 8 0 ++ le 2 1 ++ le 6 0 ++ le 2 3 ++ le 1 0 ++ le 1 0 ++ le 6 77) }
/-- The same of mode 1 for port 0; and an entry whose arm is on the other CTL die than its port. -/
def rosterCmd1 : Cmd := { rosterCmd with block := fit 32 (le 4 1 ++ le 4 1 ++ le 2 1 ++ le 6 0 ++ le 2 3 ++ le 1 0 ++ le 1 0 ++ le 6 77) }
def rosterArm7 : Cmd := { rosterCmd with block := fit 32 (le 8 0 ++ le 2 1 ++ le 6 0 ++ le 2 3 ++ le 1 7 ++ le 1 0 ++ le 6 77) }
def goodWord : Word64 := 0x0123456789
/-- A ranging reply of slot 3 with identity 0. -/
def aReply : RangeReply := ⟨400, ⟨0xB1, ((1#64 <<< 62) ||| (3#64 <<< 55)) ^^^ payloadKey⟩⟩
def noBurst : BurstIn := ⟨0, ⟨0, 0⟩⟩
def goodBurst : BurstIn := ⟨5, ⟨0xB1, 0x0123456789 ^^^ payloadKey⟩⟩
def cellOf (st : CState) : CellCtl := { state := st, ifA := { inUse := true, locked := true, valid := true } }
def cellAt (n : Nat) (c : CellCtl) : State := State.reset.onCells (fun x => { x with ctl := tset x.ctl n c })
def aFrame : FrameIn := ⟨true, true, 7, 0, true, true, false, 2, 0, []⟩
/-- A tick frame of T = 2 for boundary 0 with one group, its command words BYPASS at offset 0, and what a cell of slot 5 reads of it. -/
def tickWords (a : Bool) : TickFrame := { unitid := 0, active := a, blocked := true, quiet := false, port := 0, groups := 1, tcode := 2, execTick := 7, execBase := 100, mgmt := List.replicate 4 ⟨127, 0, 0⟩, cmds := List.replicate 16 0x40000000 }
def goodFrame (a : Bool) : List LineWord := (tickWords a).words
def readTick (a : Bool) : FrameIn := (findFrame 5 (goodFrame a)).getD aFrame
/-- The same with a wrong group CRC. -/
def frameWords : List LineWord := (goodFrame true).map (fun w => if w.body = 0x40000000 then { w with body := 0 } else w)
def badFrame : FrameIn := (findFrame 5 frameWords).getD aFrame
def aReplay : Replay := { slot := 0, stop := 5, onDiv := false, boundary := 0, image := 0, tick := 0 }
def replayReady : State := (inState .config).onGalley (fun g => { g with replay := some aReplay, images := [ctlImage State.reset], slots := tset g.slots 0 { (slotGet State.reset 0) with first := 0, last := 9 } })
def aRunning : Replay := { aReplay with saved := some (ctlImage State.reset) }
def runningReplay : State := (inState .replay).onGalley (fun g => { g with replay := some aRunning })
def replayDone : State := (inState .replay).onGalley (fun g => { g with replay := some { aReplay with outcome := some 0 } })
def anArm : ArmCfg := ⟨0, 1, 0, 1, 1000, 100, 0, 0xFFFF, 0xFFFF, 64, false⟩
def withArm (s : State) : State := s.onAie (fun e => { e with arm := [(0, anArm)] })
def withPair (s : State) : State := s.onPwm (fun w => { w with pair := [(0, { mode := 1, period := 8000 })] })
/-- Pair 0 with DIV 1 and P 8000, its counter at `n` at offset 0 of tick 0; and the same centre-aligned with RELOAD2. -/
def pairAt (n : Nat) : State := pairUpd 0 (fun x => { x with first := some (8001 - n) }) ((inState .config).onPwm (fun w => { w with pair := [(0, { mode := 1, div := 1, period := 8000 })] }))
def centredAt (n : Nat) : State := pairUpd 0 (fun x => { x with first := some (16000 - n) }) ((inState .config).onPwm (fun w => { w with pair := [(0, { mode := 13, div := 1, period := 8000 })] }))
/-- A command of mailbox `m` with the external block `b`. -/
def extCmd (m : Fin 8) (b : Bytes) : Cmd := { mb := m, tag := 1, seq := 0, flags := 1, length := 12, param := fit 48 (le 8 64 ++ le 4 b.length ++ le 4 0), rsvd := 0, block := b }
def kernelBody : Bytes := le 4 1 ++ le 4 4 ++ le 4 0 ++ le 2 1 ++ le 2 0 ++ le 4 7 ++ le 4 0 ++ (le 2 1 ++ le 2 0 ++ le 2 0 ++ le 2 0 ++ le 4 100 ++ le 4 0) ++ le 4 0
/-- A block of TILE_KERNEL_LOAD for CTL0: one kernel of one word, its CRC right; and the same with a wrong CRC. -/
def kernelBlock : Bytes := le 4 1 ++ withCrc kernelBody
def kernelBad : Bytes := le 4 1 ++ kernelBody ++ le 4 0
def runningTile (n : Nat) : State := tileUpd 0 n (fun x => { x with item := some (3, 0) }) (inState .deblocked)
def anItem : Item := { flow := 3, event := false, cls := 3, cls0 := 3, seq := 0, v := 0, made := 0, ready := true, bind := { kid := 0x8001 } }
def aBinding : Binding := { kid := 1, flow := 3, rports := 4 }
def withFlow (s : State) : State := dieUpd 0 (fun x => { x with flow := [(3, { arity := 1, age := 2 })], bind := [(1, aBinding)] }) s
def queued (i : Item) : State := dieUpd 0 (fun x => { x with items := [i] }) (withFlow (inState .deblocked))
def agedPort : State := dieUpd 0 (fun x => { x with rports := [(2, { ok := true, age := 2 })] }) (withFlow (inState .deblocked))
def tItem : Item := { anItem with running := true }
/-- Tile 0 of CTL0 runs an item of a ROM kernel. -/
def aTile : State := tileUpd 0 0 (fun x => { x with item := some (3, 0), bind := { kid := 0x8001, rports := 1 }, limit := 100, pc := 8192 }) (queued tItem)
/-- The tile with the view of its tick kept. -/
def aViewed : State := aTile.onLoop (fun l => { l with views := [{ tick := 0, sigs := [] }] })
def settledM (s : State) : State := s.onMeas (fun m => { m with settled := true })
def trigUnit : State := unitUpd 0 (fun y => { y with cal := none, calReq := none, pending := false }) ((inState .config).onMeas (fun m => { m with seq := [(0, { itrig := 2 })] }))
def asRole (r : Role) (s : State) : State := s.onDev (fun d => { d with role := r })
def lacksMpr (s : State) : State := s.onPower (fun p => { p with dieFailed := [3] })
def aSegment : Segment := ⟨0, ⟨0, 0, 0, 0, 0, 0, 0, false⟩, 64, 0, false, false, List.replicate 64 0, false⟩
def withSegment : State := acqUpd 0 (fun x => { x with segs := [aSegment] }) (inState .config)
def trigStreams : List TwStream := [⟨[100, -100, -200], 3⟩]
def trigPos : Nat := 128
def armedAcq : State := acqUpd 0 (fun x => { x with state := .armed }) ((inState .config).onAcq (fun a => { a with cfg := [(0, { on := true, kind := 0, dir := 0, th := 0, hyst := 0 })] }))
def capturing : State := acqUpd 0 (fun x => { x with state := .capturing, cap := some aSegment.cap }) ((inState .config).onAcq (fun a => { a with cfg := [(0, { on := true, mode := 2, len := 64, pre := 0 })] }))
def aRecord : DRec := { num := 0, closed := true }
def withRecord : State := (inState .config).onProt (fun p => { p with recs := [aRecord] })
def bigRecord : DRec := { num := 0, closed := true, samples := List.replicate 30000 ⟨[], 0, false⟩ }
theorem dat_length (l : List (RecSample × Nat)) (h : ∀ x ∈ l, x.1.an = []) :
    (l.flatMap (fun x => le 4 (x.2 + 1) ++ le 4 (x.2 * 125) ++ x.1.an.flatMap (leS 4) ++ le 28 x.1.dig)).length = 36 * l.length := by
  induction l with
  | nil => rfl
  | cons a t ih =>
    have ha := h a (by simp)
    have ht := ih (fun x hx => h x (by simp [hx]))
    rw [List.flatMap_cons, List.length_append, ht]
    simp [ha, le]
    omega
theorem bigRecord_dat : bigRecord.dat.length = 1080000 := by
  unfold DRec.dat
  rw [dat_length]
  · rw [List.length_zipIdx, List.length_reverse]
    simp only [bigRecord, -List.reduceReplicate, List.length_replicate]
  · intro x hx
    have h1 : x.1 ∈ bigRecord.samples := by
      have := List.mem_map_of_mem (f := Prod.fst) hx
      rw [List.zipIdx_map_fst] at this
      exact List.mem_reverse.1 this
    rw [List.eq_of_mem_replicate h1]
def bigCmd : Cmd := cmd 1 20 ([0, 0, 1, 0] ++ le 4 0 ++ le 8 64 ++ le 4 1048608)
theorem bigRecord_part : bigRecord.dat.take 1048608 = ((exportPart (bigCmd.u8 2) State.reset bigRecord).drop (bigCmd.u32 4)).take (bigCmd.u32 16) := by
  have a : bigCmd.u8 2 = 1 := by decide
  have b : bigCmd.u32 4 = 0 := by decide
  have d : bigCmd.u32 16 = 1048608 := by decide
  have e : exportPart 1 State.reset bigRecord = bigRecord.dat := by
    unfold exportPart
    rw [if_neg (by decide), if_pos rfl]
  rw [a, b, d, e, List.drop_zero]
theorem bigRecord_long : 1048576 < (bigRecord.dat.take 1048608).length ∧ bigCmd.u32 4 ≤ (exportPart (bigCmd.u8 2) State.reset bigRecord).length := by
  have a : bigCmd.u8 2 = 1 := by decide
  have b : bigCmd.u32 4 = 0 := by decide
  rw [a, b, List.length_take, bigRecord_dat]
  exact ⟨by decide, Nat.zero_le _⟩
def withBig : State := (inState .config).onProt (fun p => { p with recs := [bigRecord] })
/-- A record may start: MAXLEN of one sample; and with a store that holds none. -/
def runRec : State := (inState .config).onProt (fun p => { p with act := { p.act with recs := { p.act.recs with maxLen := 1 } } })
def noRoom : State := (inState .config).onProt (fun p => { p with act := { p.act with recs := { p.act.recs with store := 0 } } })
/-- A frequency element on an AC point, and the running engine with it as element 2. -/
def anEl : ElCfg := { type := 7, on := true, pu := 500000 }
def pointed : State := (inState .config).onProt (fun p => { p with act := { p.act with pt := [(0, { kind := 1 })] } })
def protOn : State := (inState .config).onProt (fun p => { p with running := true, act := { p.act with el := [(2, anEl)] } })
def twEl : ElCfg := { type := 12, on := true, twmask := 1, pu := 0 }
def twOn : State := (protOn.onProt (fun p => { p with act := { p.act with el := [(2, twEl)] }, el := [(2, { state := .idle })] })) |> cdcUpd 3 6 0 (fun x => { x with dest := [[0]], req := true, ack := true })
def supervised : State := (inState .config).onProt (fun p => { p with act := { p.act with trip := [(1, { sup := true, susp := 0 })] } })
def tripDemand : State := (inState .config).onProt (fun p => { p with act := { p.act with el := [(0, anEl)], trip := [(0, { on := true, op := 1 })] }, el := [(0, { state := .operated })] })
def elCmd : Cmd := cmd 1 40 ([0, 0, 7, 1, 0, 7, 0, 0] ++ le 4 500000 ++ le 2 15565 ++ [1, 5] ++ le 4 0 ++ le 4 0x1000000 ++ le 4 0 ++ le 2 4500 ++ le 2 8500 ++ le 4 2684355 ++ [5, 0, 0xFF])
def elCmd2 : Cmd := cmd 1 40 ([0, 0, 1, 3, 0, 7, 0, 0] ++ le 4 500000 ++ le 2 15565 ++ [1, 5] ++ le 4 0 ++ le 4 0x1000000 ++ le 4 0 ++ le 2 4500 ++ le 2 8500 ++ le 4 2684355 ++ [5, 0, 0xFF])
def elParsed : ElCfg := { type := 7, on := true, pu := 500000, blkel := 5 }
def ethOn : State := (inState .config).onNet (fun x => { x with eth := [(1, { on := true })], up := [1] })
def disciplined : State := ((inState .config).onTime (fun t => { t with started := true, ppsOk := true, qual := .free, cfg := { t.cfg with mode := true } })).onPower (fun p => { p with straps := { p.straps with trefsel := true } })
def outOn : State := disciplined.onTime (fun t => { t with outs16 := [(1, { on := true })] })
def irigOn : State := disciplined.onTime (fun t => { t with utcValid := true, outs16 := [(4, { on := true, rate := 7 })] })
def stampOn : State := disciplined.onTime (fun t => { t with stampCfg := [(3, { on := true, rise := true })] })
def ptpIn (n : Nat) : State := ethOn.onNet (fun x => { x with ptp := [(1, { on := true, state := n })] })
def svOn : State := (inState .config).onNet (fun x => { x with sv := [(3, { on := true })] })
def dmaOn : State := (inState .config).onNet (fun x => { x with dma := [(2, { on := true, nrec := 99 })] })
def anSvFrame : SvFrame := ⟨true, 1, 0x4000, [], 1, [⟨0, 2, [(0, 0)]⟩]⟩
def svPort : State := (inState .config).onNet (fun x => { x with up := [2], sv := [(3, { on := true, port2 := true, dmac := 1, nval := 1, svid := List.replicate 64 0 })] })
def aGoose : GooseFrame := ⟨true, 1, 1, [], 1, false, false, 7, 0, [.boolean true]⟩
def goosePort : State := (inState .config).onNet (fun x => { x with up := [2], sub := [(3, { on := true, ports := 15, appid := 1, dmac := 1, names := List.replicate 192 0 })] })
def dmaFull : State := (inState .config).onNet (fun x => { x with dma := [(2, { on := true, base := 4096, tail := 64, queue := [(0, [1, 2])] })] })
def svCmd : Cmd := extCmd 1 ([0, 3, 0x07, 1] ++ le 2 0x4000 ++ [1, 0, 0, 0, 0, 0] ++ le 4 1 ++ le 4 4000 ++ [1, 3] ++ le 2 100 ++ List.replicate 104 0)
def svParsed : SvCfg := { on := true, port2 := true, port3 := true, nasdu := 1, nval := 1, appid := 0x4000, dmac := 0x10000000000, confRev := 1, rate := 4000, miss := 3, dupWin := 100, svid := List.replicate 64 0 }
def subCmd : Cmd := extCmd 1 ([0, 0, 3, 0, 0x0D, 0, 0, 0] ++ le 2 1 ++ [0, 0, 0, 0] ++ le 2 100 ++ [1, 0, 0, 0, 0, 0] ++ [0, 0] ++ le 4 1 ++ List.replicate 292 0)
def subParsed : GsubCfg := ⟨true, false, 3, 1, 0x10000000000, 1, 100, List.replicate 192 0⟩
/-- A safety parameter block with receive connection 0 enabled (flags 0x22), its CRC its own; one with send connection 0; one plain. -/
def rxSpb : Bytes := withCrc (fit 380 (List.replicate 64 0 ++ le 4 5 ++ le 2 100 ++ [0x22, 0]))
def txSpb : Bytes := withCrc (fit 380 (List.replicate 192 0 ++ le 4 5 ++ le 2 100 ++ [1, 0]))
def goodSpb : Bytes := withCrc (fit 380 (le 4 1 ++ le 2 0 ++ [0, 0] ++ le 4 0 ++ le 4 1 ++ le 4 0 ++ le 4 0 ++ le 4 10 ++ List.replicate 14 0 ++ le 2 1))
def spbCmd : Cmd := extCmd 0 ([1, 0, 0, 0] ++ le 4 (spbCrc goodSpb) ++ goodSpb)
def sealCmd : Cmd := extCmd 0 ([0, 0, 0, 0] ++ le 4 (spbCrc goodSpb))
def sealable : State := (inState .config).onSafe (fun y => { y with spb := goodSpb, swAcc := true, swReads := 1000, closed := 2 })
def stoHeld : State := (inState .config).onSafe (fun y => { y with sf := .sto, beatLost := true })
def goodPdu : Bytes := fit 28 [0, 0, 0, 0, 1] ++ le 4 (pduCrc 5 (fit 28 [0, 0, 0, 0, 1]))
def twoCopies : State := ((inState .config).onSafe (fun y => { y with cfg := some ⟨4, rxSpb⟩, rx := [(0, { runs := true })] })).onNet (fun x => { x with copies := [(0, [⟨0, goodPdu⟩, ⟨1, goodPdu⟩])] })
def txOnState : State := ((inState .config).onSafe (fun y => { y with cfg := some ⟨4, txSpb⟩ })).onNet (fun x => { x with pub := [(0, { on := true })] })
def aMsg : FaultMsg := { die := 0, block := 0x10, kind := 1, cls := .notice, addr := 0, tick := 0, d := [], injected := false, interim := false }
def anEntry : EvEntry := ⟨aMsg, {}, false, 0, false⟩
def backlogged : State := (inState .config).onFault (fun f => { f with backlog := [anEntry], ctrl := 1 })
def anEpisode : Episode := ⟨1, 0, 2, 0, 0, 5, 1, 0⟩
def episoded : State := ((inState .config).onFault (fun f => { f with episodes := [anEpisode] })).onTick (fun t => { t with index := 1000000 })
def pendOf (op : Nat) : PendingCmd := { mb := 1, opcode := op, tag := 5, seq := 0, objs := [.pair], legal := [], took := false, arg := 0, work := none, outcome := none }
def forming (f : FormStep) : State := (inState .config).onRed (fun r => { r with form := some (0x1001, f) }) |>.onMb (fun m => { m with pend := [pendOf 0x1001] })
def unfencing (n : Nat) : State := (asRole .fenced (inState .config)).onRed (fun r => { r with form := some (0x1003, .install n) }) |>.onMb (fun m => { m with pend := [pendOf 0x1003] })
def linkUp : State := (paired (inState .config)).onRed (fun r => { r with up := true })
def aTick : XlTick := ⟨5, 0, 1, [], ⟨[], [], []⟩⟩
def disputing (x y : Option Bool) : State := (asRole .disputed linkUp).onRed (fun r => { r with before := some .active, check := x, pCheck := y, dispute := some (0, 0) })
def overdue : State := ((disputing (some true) none).onRed (fun r => { r with before := some .standby })).onTick (fun t => { t with index := 100 })
def recCmd : Cmd := cmd 1 32 ([5, 0, 0, 0] ++ le 4 2048 ++ le 4 64 ++ le 4 0 ++ le 2 16 ++ le 2 1 ++ le 4 0x7FE ++ le 2 0 ++ le 2 0 ++ le 2 0)
def withDram (n : Nat) : State := ((inState .config).onPower (fun p => { p with dramA := n, dramB := 0 })).onProt (fun p => { p with act := { p.act with recs := { p.act.recs with store := 3000 } } })
/-- Slot 1 holds the freeze `f`. -/
def slotted (f : Freeze) : State := (inState .config).onGalley (fun g => { g with slots := [(1, f)] })
def replayable : State := slotted { edition := fwEdition, tcode := 2, start := some (ctlImage State.reset), image := (ctlImage State.reset).tick }
theorem replayable_mask : replayMask replayable ((cmd 1 32 [1]).u8 0) 0 = 0 := by
  have h : replayMask replayable ((cmd 1 32 [1]).u8 0) 0 = b2n (fwEdition / 256 != fwEdition / 256) + 0 := rfl
  rw [h]; simp [b2n]
theorem noSlot_mask : replayMask (inState .config) ((cmd 1 32 [1]).u8 0) 0 ≠ 0 := by
  have h : 32 * b2n (!thas (inState .config).galley.slots 1 || (slotGet (inState .config) 1).filling || bit (slotGet (inState .config) 1).flags 6 || bit (slotGet (inState .config) 1).flags 5) = 32 := by decide
  have e : (cmd 1 32 [1]).u8 0 = 1 := by decide
  rw [e]; unfold replayMask; dsimp only; omega
def buffered : State := (inState .config).onGalley (fun g => { g with buf := [{ tick := 5 }] })
def bufDrained : State := freezesCopy (buffered.onGalley (fun g => { g with buf := [], ring := keepBytes (mib (ringMib buffered g.cfg)) (g.buf.reverse ++ g.ring), lens := ((g.buf.reverse).map TickBlock.len ++ g.lens).take 1024 }))
/-- A slot whose data is longer than 1 MiB, and a part of it that is. -/
def bigRaw : Bytes := List.replicate 1100000 0
def bigPart : Bytes := List.replicate 1048640 0
def bigRead : Cmd := cmd 1 24 ([1, 1, 0, 0] ++ le 8 0 ++ le 8 64 ++ le 4 1048640)
def bigSlot : State := slotted { raw := some bigRaw }
theorem bigPart_long : 1048576 < bigPart.length := by
  rw [bigPart, List.length_replicate]
  decide
theorem bigPart_of : bigPart = (bigRaw.drop (bigRead.u64 4)).take (bigRead.u32 20) := by
  have a : bigRead.u64 4 = 0 := by decide
  have b : bigRead.u32 20 = 1048640 := by decide
  rw [a, b, List.drop_zero, bigRaw, bigPart, List.take_replicate]
  have e : min 1048640 1100000 = 1048640 := by decide
  rw [e]
def noSpares : State := resUpd 1 1 17 (fun r => { r with st := some 3 }) (resUpd 1 1 16 (fun r => { r with st := some 3 }) (inState .config))
/-- A digest that is not `x`. -/
theorem digest_other (x : Word32) : (x + 1).toNat ≠ x.toNat := by
  have h := x.isLt
  rw [BitVec.toNat_add, show (1 : Word32).toNat = 1 from rfl]
  omega

/-! ### Ill-formed commands are refused -/

def badEntryCmd : Cmd := { cmd 1 12 [] with param := [1, 2, 3] }
def badLengthCmd : Cmd := { cmd 1 12 [] with length := 65536 }
def strayBlockCmd : Cmd := { cmd 1 12 [] with block := [1] }

theorem test_wf_accepts_commands : (Instr.sysNop (cmd 1 4 [])).wf = true ∧ (Instr.safeSealConfirm sealCmd).wf = true := by decide
theorem test_wf_accepts_events :
    (Instr.commandFetch goodEntry []).wf = true ∧ (Instr.registerWrite 0x5C 32 1).wf = true ∧ (Instr.loopHoldExpiry 511).wf = true := by
  decide
theorem test_wf_refuses_entries :
    (Instr.sysNop badEntryCmd).wf = false ∧ (Instr.sysNop badLengthCmd).wf = false ∧ (Instr.sysNop strayBlockCmd).wf = false ∧
      (Instr.commandFetch (List.replicate 63 0) []).wf = false := by decide
theorem test_wf_refuses_register_writes :
    (Instr.registerWrite 65536 32 0).wf = false ∧ (Instr.registerWrite 0 24 0).wf = false := by decide
theorem test_wf_refuses_absent_dies :
    (Instr.railLow 8 0 false).wf = false ∧ (Instr.railLow 0 11 false).wf = false ∧ (Instr.pllUnlock 8).wf = false ∧
      (Instr.tempSensorRead 8 0).wf = false ∧ (Instr.fatalFault 8 0 0 0).wf = false ∧ (Instr.fatalFault 0 512 0 0).wf = false ∧
      (Instr.fatalFault 0 0 256 0).wf = false ∧ (Instr.packageLinkDown 13).wf = false ∧ (Instr.resourceFail 9 0 0 0).wf = false := by
  decide
theorem test_wf_refuses_absent_channels :
    (Instr.loopHoldExpiry 512).wf = false ∧ (Instr.aieUnresolved 12).wf = false ∧ (Instr.timeSetSend 32).wf = false ∧
      (Instr.upstreamBurstReceive 0 128 noBurst).wf = false ∧ (Instr.rerangingMark 4096).wf = false ∧
      (Instr.contextEccError 0 128 false).wf = false ∧ (Instr.cellEdgeExecute 4096).wf = false ∧
      (Instr.pairDeadtimeEnd 8).wf = false ∧ (Instr.comparatorActive 24).wf = false := by decide
theorem test_wf_refuses_absent_tiles_and_units :
    (Instr.opEnd 2 0 0).wf = false ∧ (Instr.opEnd 0 18 0).wf = false ∧ (Instr.portAgeExpiry 0 256).wf = false ∧
      (Instr.injectedTrigger ⟨4, false⟩).wf = false ∧ (Instr.unitFail 5 0).wf = false ∧ (Instr.freezeComplete 16).wf = false ∧
      (Instr.tapEntryLost (some 32) 0).wf = false ∧ (Instr.xlinkBringupDone true [0, 1] 0 true 1).wf = false ∧
      (Instr.xlTickReceive ⟨⟨0, 4, 0, [], ⟨[], [], []⟩⟩, 0⟩).wf = false ∧ (Instr.xlTickReceive ⟨⟨0, 0, 9, [], ⟨[], [], []⟩⟩, 0⟩).wf = false := by
  decide

/-- The table gives no row bits, so no word spells a command. -/
theorem test_no_word_spells_a_command : decodeTableWord 32 0x12345678 = none ∧ State.reset.withFetchWord 32 7 = State.reset := by decide

/-! ### Worked examples of the spec -/

/-- The next state of an outcome, or the reset state. -/
def nextOf : Out → State
  | .next s => s
  | _ => State.reset

/-- R89: the check value over the ASCII bytes "123456789". -/
theorem test_crc32c_check_value :
    crc32c [0x31, 0x32, 0x33, 0x34, 0x35, 0x36, 0x37, 0x38, 0x39] = 0xE3069283#32 := by decide +kernel

/-- The worked example after R111: target DEBLOCKED in CONFIG on MB2 is WRONG_STATE, and the log gains its entry. -/
theorem test_state_request_in_config_is_wrong_state :
    (nextOf (exec (.sysStateRequest (cmd 2 8 [4])) (inState .config))).mb.log.head?.map (fun e => (e.opcode, e.b10, e.mb)) =
      some (0x0103, 0x05, 2) := by decide +kernel

/-- The worked example of the reset button: a press of 6,400 ms asks for a cold reset. -/
theorem test_long_press_asks_for_cold_reset :
    (nextOf (exec (.rstbtnReleaseSeen 6400) ((inState .config).onPower (fun p => { p with btnPress := true })))).power.resetReq =
      some ⟨true, 0⟩ := by decide +kernel

/-- The worked example of cell 4:40 on port CP4: the delays of its run, and the lowest slot its fibres meet. -/
theorem test_range_delays : delaysOf (16 * 248300) 16 48 = (19840, 19888) ∧ lowestSlot 19888 = 8 := by decide +kernel

/-- The worked example of the report of cell 4:40 for tick 5,000,012. -/
def reporting : CellCtl :=
  { pattern := .insertPos, state := .running, errcnt := 3, auxSel := 1, ifA := { inUse := true, locked := true } }
theorem test_cell_report : tickReport reporting (11, false) 25800 47 1520 = 0x1932165978001DF0#64 := by decide +kernel

/-- The worked example of chapter 8: the level of the arm, and cell 5:12 predicted and weighed with 5:13. -/
theorem test_level_example :
    (let l := level (vStar 161061274 400000 true) 25800 264 0 493921239 true 0; (l.nwhole, l.duty, l.nsel)) = (148, 54867, 148) := by
  decide +kernel
theorem test_prediction_example : predict 25804 161061274 419430 131072 = 25812 := by decide +kernel
theorem test_selection_keys :
    selKey 1 25800 25812 24 true false = 0xA0000C ∧ selKey 1 25800 25780 24 false false = 0x9FFFFC := by decide +kernel

/-- Table 9.1: five ticks at a constant duty. -/
def designatedTicks : Nat → Bool → Int → List (Word32 × Int)
  | 0, _, _ => []
  | n + 1, b, e => let g := genChoose 54867 false 8000 1200 b false e 4000 false; (g.word, g.carry) :: designatedTicks n g.bin g.carry
theorem test_designated_cell_edges :
    designatedTicks 5 false 0 =
      [(0x51458000, 0), (0x812C0AF0, 298), (0x812C0AF0, 596), (0, -706), (0x812C0C88, 0)] := by decide +kernel

/-- The worked example of STA and STB: the tie goes to the even quotient, and STB rounds it up. -/
theorem test_accumulator_stores :
    (staWord (BitVec.ofNat 80 (7 * 2 ^ 52 + 2 ^ 28)) 29).1 = 0x03800000 ∧ (stbWord (BitVec.ofNat 80 (7 * 2 ^ 52 + 2 ^ 28)) 29).1 = 0x03800001 := by
  decide +kernel

/-- The crossing example after R375: a = 400, b = 1,040, TH = 800 give p = 160. -/
theorem test_crossing_fraction : crossing true 800 16 [1040, 400, 0] = some 160 := by decide +kernel

/-- The sampled-value mapping example: 300 kV on a base of 400 kV is 0.75 per unit. -/
theorem test_sampled_value_per_unit : perUnit 30000000 40000000 = 0x0C000000 := by decide +kernel

/-- The worked example of the limited loop at tick n, rounded to the digits it prints: v = 1.0302, and the history 1.02265. -/
def limitedLoop : LoopOut :=
  loopCompute { form := 1, kb := 134217728 } { h1 := 263066747, e1 := 26843546 } [0x10083127, -0x10000000, 0, 0, -0x20000000, 0, 0] 53687091
    0 0 0 0 (-268435456) 268435456
theorem test_limited_loop : limitedLoop.u = 268435456 ∧ roundDiv (limitedLoop.v * 10000) (2 ^ 28) = 10302 ∧ roundDiv (limitedLoop.h * 100000) (2 ^ 28) = 102265 := by
  decide +kernel

/-! ### The hypotheses of every obligation are met somewhere -/

set_option maxRecDepth 20000 in
/-- States and operands that meet the hypotheses of StepRunsTheFrontCommand, clause by clause. -/
theorem test_witness_StepRunsTheFrontCommand :
    (let i : Instr := .xtal32Lost; let rest : List Instr := [.aonPowerLoss]; let s : State := State.reset.withQueue [.xtal32Lost, .aonPowerLoss]; s.pending = i :: rest) ∧
    (let s : State := State.reset; s.pending = []) := by
  refine And.intro (by intros; decide +kernel +zetaReduce) ?_
  intros; decide +kernel +zetaReduce

set_option maxRecDepth 20000 in
/-- States and operands that meet the hypotheses of ResetLeavesTheDeviceInBoot, clause by clause. -/
theorem test_witness_ResetLeavesTheDeviceInBoot :
    (let n : Nat := 7; n < 8) ∧
    (let off : Nat := 0x200C; 0x2000 ≤ off ∧ off ≤ 0x2018) := by
  refine And.intro (by intros; decide +kernel +zetaReduce) ?_
  intros; decide +kernel +zetaReduce

set_option maxRecDepth 20000 in
/-- States and operands that meet the hypotheses of EveryStepKeepsTheInvariant, clause by clause. -/
theorem test_witness_EveryStepKeepsTheInvariant :
    ((Inv (State.reset : State)) ∧ (step (State.reset : State) = .next (State.reset : State))) := by
  exact ⟨⟨by decide, ⟨.inr (.inl rfl), fun _ h => nomatch h⟩, by unfold LogFits; decide⟩, rfl⟩

set_option maxRecDepth 20000 in
/-- States and operands that meet the hypotheses of SysReadCommandsAnswerOk, clause by clause. -/
theorem test_witness_SysReadCommandsAnswerOk :
    (let c : Cmd := cmd 1 12 []; let s : State := inState .config; Serving s ∧ Inline c 12 ∧ c.u64 0 = 0 ∧ c.u32 8 = 0) ∧
    (let c : Cmd := cmd 1 12 [64, 0, 0, 0, 0, 0, 0, 0, 0, 1, 0, 0]; let s : State := inState .config; Serving s ∧ Inline c 12 ∧ c.u64 0 % 64 = 0 ∧ c.u64 0 ≠ 0 ∧ 256 ≤ c.u32 8) ∧
    (let c : Cmd := cmd 0 0 []; let s : State := inState .safeStop; Serving s ∧ Inline c 0) ∧
    (let c : Cmd := cmd 1 16 [64, 0, 0, 0, 0, 0, 0, 0, 0, 0, 0, 0, 0, 4, 0, 0]; let s : State := inState .config; Serving s ∧ Inline c 16 ∧ c.mb ≠ 0 ∧ c.u64 0 % 64 = 0 ∧ c.u64 0 ≠ 0 ∧ 1 ≤ c.u32 12 ∧ c.u32 12 ≤ 1024) ∧
    (let c : Cmd := cmd 7 44 [1, 2]; let s : State := inState .deblocked; Serving s ∧ c.flags = 0 ∧ c.rsvd = 0 ∧ c.length ≤ 44 ∧ c.mb ≠ 0) ∧
    (let c : Cmd := cmd 1 12 [0, 0, 0, 0, 0, 0, 0, 0, 0, 1, 0, 0]; let s : State := inState .config; Serving s ∧ Inline c 12 ∧ c.mb ≠ 0 ∧ c.u64 0 = 0 ∧ c.u32 8 ≤ 256) ∧
    (let c : Cmd := cmd 1 12 [64, 0, 0, 0, 0, 0, 0, 0, 0, 1, 0, 0]; let s : State := inState .config; Serving s ∧ Inline c 12 ∧ c.mb ≠ 0 ∧ c.u64 0 % 64 = 0 ∧ c.u64 0 ≠ 0 ∧ c.u32 8 ≤ 256) := by
  iterate 6 refine And.intro (by intros; decide +kernel +zetaReduce) ?_
  intros; decide +kernel +zetaReduce

set_option maxRecDepth 20000 in
/-- States and operands that meet the hypotheses of StateCommandsMoveTheDevice, clause by clause. -/
theorem test_witness_StateCommandsMoveTheDevice :
    (let c : Cmd := cmd 1 8 [3]; let s : State := inState .config; Admits c s [.config] [.active] ∧ Inline c 8 ∧ c.u8 0 = 3 ∧ c.rsv 1 3 = true ∧ isM2 s = false ∧ held s .deviceState = false ∧ held s .pair = false ∧ unmet s ≠ 0) ∧
    (let c : Cmd := cmd 1 8 [3]; let s : State := ready .config; Admits c s [.config] [.active] ∧ Inline c 8 ∧ c.u8 0 = 3 ∧ c.rsv 1 3 = true ∧ isM2 s = false ∧ held s .deviceState = false ∧ held s .pair = false ∧ unmet s = 0) ∧
    (let c : Cmd := cmd 1 8 [2]; let s : State := inState .standby; Admits c s [.standby] [.active] ∧ Inline c 8 ∧ c.u8 0 = 2 ∧ c.rsv 1 3 = true ∧ held s .deviceState = false ∧ held s .pair = false) ∧
    (let c : Cmd := cmd 1 8 [3]; let s : State := inState .deblocked; c.mb ≠ 0 ∧ s.dev.state = .deblocked ∧ s.dev.role = .active ∧ Inline c 8 ∧ c.u8 0 = 3 ∧ c.rsv 1 3 = true ∧ isM2 s = false ∧ held s .deviceState = false ∧ held s .pair = false ∧ pendCount s c.mb < 8 ∧ driveMode s = false) ∧
    (let c : Cmd := cmd 1 8 [3]; let s : State := (inState .deblocked).onSafe (fun y => { y with cfg := some ⟨1, []⟩ }); c.mb ≠ 0 ∧ s.dev.state = .deblocked ∧ s.dev.role = .active ∧ Inline c 8 ∧ c.u8 0 = 3 ∧ c.rsv 1 3 = true ∧ isM2 s = false ∧ held s .deviceState = false ∧ held s .pair = false ∧ pendCount s c.mb < 8 ∧ driveMode s = true) ∧
    (let c : Cmd := cmd 1 8 [4]; let s : State := ready .standby; Admits c s [.standby] [.active] ∧ Inline c 8 ∧ c.u8 0 = 4 ∧ c.rsv 1 3 = true ∧ isM2 s = false ∧ held s .deviceState = false ∧ held s .pair = false ∧ pendCount s c.mb < 8 ∧ unmet s = 0 ∧ (leadOf s.tick.len : Int) ≤ (if c.u32 4 = 0 then (leadOf s.tick.len : Int) else boundaryAhead s (c.u32 4)) ∧ boundaryFar s (if c.u32 4 = 0 then (leadOf s.tick.len : Int) else boundaryAhead s (c.u32 4)) = false) ∧
    (let c : Cmd := cmd 1 8 [4, 0, 0, 0, 1]; let s : State := ready .standby; Admits c s [.standby] [.active] ∧ Inline c 8 ∧ c.u8 0 = 4 ∧ c.rsv 1 3 = true ∧ isM2 s = false ∧ held s .deviceState = false ∧ held s .pair = false ∧ pendCount s c.mb < 8 ∧ boundaryFar s (if c.u32 4 = 0 then (leadOf s.tick.len : Int) else boundaryAhead s (c.u32 4)) = false ∧ (unmet s ≠ 0 ∨ (if c.u32 4 = 0 then (leadOf s.tick.len : Int) else boundaryAhead s (c.u32 4)) < (leadOf s.tick.len : Int))) ∧
    (let c : Cmd := cmd 1 8 [4]; let s : State := asM2 (inState .config); c.mb ≠ 0 ∧ Serving s ∧ Inline c 8 ∧ (c.u8 0 = 3 ∨ c.u8 0 = 4) ∧ isM2 s = true) ∧
    (let c : Cmd := cmd 1 0 []; let s : State := tripped; Admits c s [.blockedFault] [.active, .standby] ∧ Inline c 0 ∧ held s .deviceState = false ∧ tripStill s = true) ∧
    (let c : Cmd := cmd 1 0 []; let s : State := (inState .blockedFault).onSafe (fun y => { y with mLatch := true }); Admits c s [.blockedFault] [.active, .standby] ∧ Inline c 0 ∧ held s .deviceState = false ∧ tripStill s = false ∧ (s.dev.sources.any (fun x => !x.clear || sourceThere s x) = true ∨ s.safe.sf = .sto ∨ s.safe.mLatch = true)) ∧
    (let c : Cmd := cmd 1 0 []; let s : State := (inState .blockedFault).onSafe (fun y => { y with mLatch := false }); Admits c s [.blockedFault] [.active, .standby] ∧ Inline c 0 ∧ held s .deviceState = false ∧ tripStill s = false ∧ s.dev.sources.any (fun x => !x.clear || sourceThere s x) = false ∧ s.safe.sf ≠ .sto ∧ s.safe.mLatch = false ∧ isM2 s = false ∧ ((allPorts s).filter (fun p => (portGet s p).state != .down)).all (fun p => (portGet s p).state == .inService) = true) ∧
    (let c : Cmd := cmd 1 0 []; let s : State := asM2 ((inState .blockedFault).onSafe (fun y => { y with mLatch := false })); Admits c s [.blockedFault] [.active, .standby] ∧ Inline c 0 ∧ held s .deviceState = false ∧ tripStill s = false ∧ s.dev.sources.any (fun x => !x.clear || sourceThere s x) = false ∧ s.safe.sf ≠ .sto ∧ s.safe.mLatch = false ∧ (isM2 s = true ∨ ((allPorts s).filter (fun p => (portGet s p).state != .down)).all (fun p => (portGet s p).state == .inService) = false)) ∧
    (let c : Cmd := cmd 1 4 [2]; let s : State := inState .config; Serving s ∧ Inline c 4 ∧ c.mb ≠ 0 ∧ (c.u8 0 = 1 ∨ c.u8 0 = 2) ∧ c.rsv 1 3 = true ∧ s.power.resetReq = none) ∧
    (let c : Cmd := cmd 1 4 [2]; let s : State := (inState .config).onPower (fun p => { p with resetReq := some ⟨false, 0⟩ }); let r : ResetReq := ⟨false, 0⟩; Serving s ∧ Inline c 4 ∧ c.mb ≠ 0 ∧ c.u8 0 = 2 ∧ c.rsv 1 3 = true ∧ s.power.resetReq = some r ∧ r.cold = false) ∧
    (let c : Cmd := cmd 1 4 [1]; let s : State := (inState .config).onPower (fun p => { p with resetReq := some ⟨false, 0⟩ }); let r : ResetReq := ⟨false, 0⟩; Serving s ∧ Inline c 4 ∧ c.mb ≠ 0 ∧ (c.u8 0 = 1 ∨ c.u8 0 = 2) ∧ c.rsv 1 3 = true ∧ s.power.resetReq = some r ∧ (c.u8 0 = 1 ∨ r.cold = true)) ∧
    (let c : Cmd := cmd 1 0 []; let s : State := withFtest (inState .config); Admits c s [.config] [.active, .standby] ∧ Inline c 0 ∧ s.power.straps.ftest = true ∧ held s .deviceState = false) ∧
    (let s : State := inState .config; Serving s ∧ s.power.straps.ftest = false) := by
  iterate 16 refine And.intro (by intros; decide +kernel +zetaReduce) ?_
  intros; decide +kernel +zetaReduce

set_option maxRecDepth 20000 in
/-- States and operands that meet the hypotheses of TickCommandsStageAndArm, clause by clause. -/
theorem test_witness_TickCommandsStageAndArm :
    (let c : Cmd := cmd 1 4 [4]; let s : State := inState .config; Admits c s [.config, .factoryTest] [.active, .standby] ∧ Inline c 4 ∧ (c.u8 0 = 1 ∨ c.u8 0 = 2 ∨ c.u8 0 = 4) ∧ c.rsv 1 3 = true ∧ tickHeld s = false ∧ s.tick.commits = [] ∧ s.dev.paired = false ∧ tickConflict s (c.u8 0) = 0) ∧
    (let c : Cmd := cmd 1 4 [1]; let s : State := highLoop (inState .config); Admits c s [.config, .factoryTest] [.active, .standby] ∧ Inline c 4 ∧ (c.u8 0 = 1 ∨ c.u8 0 = 2 ∨ c.u8 0 = 4) ∧ c.rsv 1 3 = true ∧ tickHeld s = false ∧ s.tick.commits = [] ∧ s.dev.paired = false ∧ tickConflict s (c.u8 0) ≠ 0) ∧
    (let c : Cmd := cmd 1 4 [1]; let s : State := paired (inState .config); Admits c s [.config, .factoryTest] [.active, .standby] ∧ Inline c 4 ∧ (c.u8 0 = 1 ∨ c.u8 0 = 2 ∨ c.u8 0 = 4) ∧ c.rsv 1 3 = true ∧ tickHeld s = false ∧ s.tick.commits = [] ∧ s.dev.paired = true) ∧
    (let s : State := newT 4 (inState .config); let n : Nat := 4; s.tick.newLen = some n ∧ s.nowUs % 4 = 0 ∧ Serving s ∧ s.tick.len ≠ n) ∧
    (let s : State := newT 2 (inState .config); let n : Nat := 2; s.tick.newLen = some n ∧ s.nowUs % 4 = 0 ∧ Serving s ∧ s.tick.len = n) ∧
    (let s : State := inState .config; (s.tick.newLen = none ∨ s.nowUs % 4 ≠ 0)) ∧
    (let c : Cmd := cmd 1 12 [1, 0, 0, 0, 0, 0, 0, 0, 1]; let s : State := inState .config; Admits c s [.config, .standby, .deblocked, .safeStop, .blockedFault, .factoryTest] [.active, .standby] ∧ Inline c 12 ∧ (setsOf (BitVec.ofNat 9 (c.u32 8))).any (setAbsent s) = false ∧ 0 < c.u32 8 ∧ c.u32 8 < 512 ∧ tickHeld s = false ∧ (setsOf (BitVec.ofNat 9 (c.u32 8))).any (setHeld s) = false ∧ (setObjs (BitVec.ofNat 9 (c.u32 8))).any (held s) = false ∧ ((BitVec.ofNat 9 (c.u32 8)).getLsbD 3 = false ∨ (held s (.kernels 0) = false ∧ held s (.kernels 1) = false)) ∧ 0 < c.u64 0 ∧ c.u64 0 < s.tick.index + leadOf s.tick.len ∧ (c.u64 0 - s.tick.index) * s.tick.len ≤ 1000) ∧
    (let c : Cmd := cmd 1 12 [0, 0, 0, 0, 0, 0, 0, 0, 1]; let s : State := inState .config; Admits c s [.config, .standby, .deblocked, .safeStop, .blockedFault, .factoryTest] [.active, .standby] ∧ Inline c 12 ∧ (setsOf (BitVec.ofNat 9 (c.u32 8))).any (setAbsent s) = false ∧ 0 < c.u32 8 ∧ c.u32 8 < 512 ∧ tickHeld s = false ∧ (setsOf (BitVec.ofNat 9 (c.u32 8))).any (setHeld s) = false ∧ (setObjs (BitVec.ofNat 9 (c.u32 8))).any (held s) = false ∧ ((BitVec.ofNat 9 (c.u32 8)).getLsbD 3 = false ∨ (held s (.kernels 0) = false ∧ held s (.kernels 1) = false)) ∧ c.u64 0 = 0 ∧ leadOf s.tick.len * s.tick.len ≤ 1000) ∧
    (let c : Cmd := cmd 1 12 [20, 0, 0, 0, 0, 0, 0, 0, 1]; let s : State := inState .config; Admits c s [.config, .standby, .deblocked, .safeStop, .blockedFault, .factoryTest] [.active, .standby] ∧ Inline c 12 ∧ (setsOf (BitVec.ofNat 9 (c.u32 8))).any (setAbsent s) = false ∧ 0 < c.u32 8 ∧ c.u32 8 < 512 ∧ tickHeld s = false ∧ (setsOf (BitVec.ofNat 9 (c.u32 8))).any (setHeld s) = false ∧ (setObjs (BitVec.ofNat 9 (c.u32 8))).any (held s) = false ∧ ((BitVec.ofNat 9 (c.u32 8)).getLsbD 3 = false ∨ (held s (.kernels 0) = false ∧ held s (.kernels 1) = false)) ∧ 0 < c.u64 0 ∧ s.tick.index + leadOf s.tick.len ≤ c.u64 0 ∧ (c.u64 0 - s.tick.index) * s.tick.len ≤ 1000) ∧
    (let c : Cmd := cmd 1 12 [0, 4, 0, 0, 0, 0, 0, 0, 1]; let s : State := inState .config; Admits c s [.config, .standby, .deblocked, .safeStop, .blockedFault, .factoryTest] [.active, .standby] ∧ Inline c 12 ∧ (setsOf (BitVec.ofNat 9 (c.u32 8))).any (setAbsent s) = false ∧ 0 < c.u32 8 ∧ c.u32 8 < 512 ∧ tickHeld s = false ∧ (setsOf (BitVec.ofNat 9 (c.u32 8))).any (setHeld s) = false ∧ (setObjs (BitVec.ofNat 9 (c.u32 8))).any (held s) = false ∧ ((BitVec.ofNat 9 (c.u32 8)).getLsbD 3 = false ∨ (held s (.kernels 0) = false ∧ held s (.kernels 1) = false)) ∧ 0 < c.u64 0 ∧ s.tick.index + leadOf s.tick.len ≤ c.u64 0 ∧ 1000 < (c.u64 0 - s.tick.index) * s.tick.len ∧ (c.u64 0 - s.tick.index) * s.tick.len ≤ 10000000 ∧ pendCount s c.mb < 8) ∧
    (let s : State := armed oneCommit (inState .config); let k : Commit := oneCommit; let good : BitVec 9 := 0x1FF; s.tick.commits.filter (fun k => k.boundary ≤ s.tick.index) = [k] ∧ unmatched s k = false ∧ k.mask &&& s.tick.staged &&& ~~~good = 0) ∧
    (let s : State := stagedSet 1 (armed oneCommit (inState .config)); let k : Commit := oneCommit; let good : BitVec 9 := 0; s.tick.commits.filter (fun k => k.boundary ≤ s.tick.index) = [k] ∧ unmatched s k = false ∧ k.mask &&& s.tick.staged &&& ~~~good ≠ 0) ∧
    (let s : State := paired (armed oneCommit (inState .config)); let k : Commit := oneCommit; s.tick.commits.filter (fun k => k.boundary ≤ s.tick.index) = [k] ∧ unmatched s k = true) ∧
    (let s : State := inState .config; s.tick.commits.filter (fun k => k.boundary ≤ s.tick.index) = []) ∧
    (let s : State := paired (armed oneCommit (inState .config)); let k : Commit := oneCommit; s.dev.paired = true ∧ s.red.silent = false ∧ s.tick.commits.filter (fun k => !k.matched && withdrawDue s.tick.len (k.boundary - s.tick.index)) = [k]) ∧
    (let s : State := armed oneCommit (inState .config); (s.dev.paired = false ∨ s.red.silent = true)) := by
  iterate 15 refine And.intro (by intros; decide +kernel +zetaReduce) ?_
  intros; decide +kernel +zetaReduce

set_option maxRecDepth 20000 in
/-- States and operands that meet the hypotheses of BootRowsBuildTheDevice, clause by clause. -/
theorem test_witness_BootRowsBuildTheDevice :
    (let s : State := State.reset; s.dev.state = .boot ∧ s.power.strapDone = false ∧ s.power.strapFirst = none) ∧
    (let s : State := State.reset.onPower (fun p => { p with strapFirst := some ⟨true, false, true, 3⟩ }); let a : Bool := true; let b : Bool := false; let f : Bool := true; let u : BitVec 4 := 3; s.dev.state = .boot ∧ s.power.strapDone = false ∧ s.power.strapFirst = some ⟨a, b, f, u⟩) ∧
    (let s : State := State.reset.onPower (fun p => { p with strapFirst := some ⟨true, false, true, 3⟩ }); let x : Straps := ⟨true, false, true, 3⟩; let a : Bool := false; let b : Bool := false; let f : Bool := true; let u : BitVec 4 := 3; s.dev.state = .boot ∧ s.power.strapDone = false ∧ s.power.strapFirst = some x ∧ x ≠ ⟨a, b, f, u⟩) ∧
    (let s : State := inState .config; (s.dev.state ≠ .boot ∨ s.power.strapDone = true)) ∧
    (let s : State := State.reset; s.dev.state = .boot) ∧
    (let s : State := State.reset.onPower (fun p => { p with aonValid := true }); s.dev.state = .boot ∧ s.power.aonValid = true) ∧
    (let s : State := State.reset; s.dev.state = .boot ∧ s.power.aonValid = false) ∧
    (let s : State := State.reset; s.dev.state = .boot ∧ s.time.started = false ∧ s.power.holdValid = false) ∧
    (let s : State := State.reset.onPower (fun p => { p with holdValid := true }); s.dev.state = .boot ∧ s.time.started = false ∧ s.power.holdValid = true) ∧
    (let s : State := started State.reset; s.dev.state = .boot ∧ s.time.started = true) ∧
    (let s : State := State.reset; s.dev.state = .boot) ∧
    (let s : State := State.reset; let d : Nat := 7; s.dev.state = .boot ∧ d ≠ 0 ∧ dieOk s d = true) ∧
    (let s : State := State.reset; s.dev.state = .boot) ∧
    (let s : State := State.reset; s.dev.state = .boot) ∧
    (let s : State := State.reset; let a : Nat := 8192; let b : Nat := 0; s.dev.state = .boot ∧ 8192 ≤ a + b ∧ s.galley.cfg.ring = none) ∧
    (let s : State := State.reset; let a : Nat := 8191; let b : Nat := 0; s.dev.state = .boot ∧ a + b < 8192 ∧ s.galley.cfg.ring = none) ∧
    (let s : State := State.reset.onGalley (fun g => { g with cfg := { g.cfg with ring := some 7 } }); let n : Nat := 7; s.dev.state = .boot ∧ s.galley.cfg.ring = some n) ∧
    (let s : State := State.reset; s.dev.state ≠ .powerDown ∧ s.power.perst = false) ∧
    (let s : State := State.reset.onPower (fun p => { p with bootDone := [2] }); s.dev.state ≠ .powerDown ∧ s.power.bootDone.contains 2 = true) ∧
    (let s : State := State.reset.onDev (fun d => { d with aliveRun := true }); s.dev.aliveRun = true) ∧
    (let s : State := State.reset; s.dev.aliveRun = false) ∧
    (let s : State := bootedAll; bootReady s = true ∧ s.dev.fatal = false ∧ (s.dev.sources.any (fun x => x.die == 3 || (x.block == 0x002 && x.kind == 0x02)) && !s.power.warmBoot) = false) ∧
    (let s : State := bootedAll.onDev (fun d => { d with fatal := true }); bootReady s = true ∧ s.dev.fatal = true ∧ (s.dev.sources.any (fun x => x.die == 3 || (x.block == 0x002 && x.kind == 0x02)) && !s.power.warmBoot) = false) ∧
    (let s : State := (bootedAll.onPower (fun p => { p with warmBoot := false })).onDev (fun d => { d with fatal := true, sources := [fatalSrc 3 0x010 1 0] }); bootReady s = true ∧ s.dev.fatal = true ∧ s.dev.sources.any (fun x => x.die == 3 || (x.block == 0x002 && x.kind == 0x02)) = true ∧ s.power.warmBoot = false) ∧
    (let s : State := State.reset; bootReady s = false) := by
  iterate 24 refine And.intro (by intros; decide +kernel +zetaReduce) ?_
  intros; decide +kernel +zetaReduce

set_option maxRecDepth 20000 in
/-- States and operands that meet the hypotheses of ResetsAndSuppliesAct, clause by clause. -/
theorem test_witness_ResetsAndSuppliesAct :
    (let s : State := inState .powerDown; s.dev.state = .powerDown) ∧
    (let s : State := inState .config; s.dev.state ≠ .powerDown) ∧
    (let s : State := inState .config; s.dev.state ≠ .powerDown ∧ s.power.perst = false) ∧
    (let s : State := inState .config; let d' : Nat := 0; let r : Nat := 2; s.dev.state ≠ .powerDown ∧ dieOk s d' = true ∧ (railsOf d').contains r = true) ∧
    (let s : State := inState .config; let d' : Nat := 1; let r : Nat := 0; s.dev.state ≠ .powerDown ∧ dieOk s d' = true ∧ (railsOf d').contains r = true ∧ s.dev.sources.any (fun x => (fatalSrc d' 0x002 0x01 r).same x && x.present) = false) ∧
    (let s : State := fatalFault 1 0x002 0x01 0 (inState .config) |>.onDev (fun d => { d with sources := d.sources.map (fun x => { x with present := true }) }); let d' : Nat := 1; let r : Nat := 0; s.dev.state ≠ .powerDown ∧ dieOk s d' = true ∧ (railsOf d').contains r = true ∧ s.dev.sources.any (fun x => (fatalSrc d' 0x002 0x01 r).same x && x.present) = true) ∧
    (let s : State := inState .config; s.dev.state ≠ .powerDown) ∧
    (let s : State := (inState .config).onPower (fun p => { p with straps := { p.straps with trefsel := true } }); s.dev.state ≠ .powerDown ∧ s.power.straps.trefsel = true ∧ s.power.timeOnRef = false) ∧
    (let s : State := inState .config; (s.power.straps.trefsel = false ∨ s.power.timeOnRef = true)) ∧
    (let s : State := inState .config; s.dev.state ≠ .powerDown) ∧
    (let s : State := inState .config; s.dev.state ≠ .powerDown) ∧
    (let s : State := (inState .config).onPower (fun p => { p with pll := [5] }); let d : Nat := 5; s.dev.state ≠ .powerDown ∧ (d = 0 ∨ d = 1 ∨ d = 2 ∨ d = 5) ∧ s.power.pll.contains d = true) ∧
    (let s : State := inState .config; s.dev.state ≠ .powerDown) ∧
    (let s : State := inState .config; let ms : Nat := 19; s.dev.state ≠ .powerDown ∧ (ms < 20 ∨ 30000 < ms ∨ s.power.btnPress = false ∨ s.power.stuck = true)) ∧
    (let s : State := (inState .config).onPower (fun p => { p with btnPress := true }); let ms : Nat := 20; s.dev.state ≠ .powerDown ∧ s.power.btnPress = true ∧ s.power.stuck = false ∧ s.power.resetReq = none ∧ 20 ≤ ms ∧ ms ≤ 30000) ∧
    (let s : State := (inState .config).onPower (fun p => { p with btnPress := true, resetReq := some ⟨false, 1⟩ }); let ms : Nat := 5001; s.dev.state ≠ .powerDown ∧ s.power.btnPress = true ∧ s.power.stuck = false ∧ s.power.resetReq ≠ none ∧ 20 ≤ ms ∧ ms ≤ 30000) ∧
    (let s : State := (inState .config).onPower (fun p => { p with btnPress := true }); s.dev.state ≠ .powerDown ∧ s.power.btnPress = true ∧ s.power.stuck = false) ∧
    (let s : State := (inState .config).onPower (fun p => { p with stuck := true }); s.dev.state ≠ .powerDown ∧ s.power.stuck = true) ∧
    (let s : State := inState .config; Serving s ∧ s.power.resetReq = none) ∧
    (let s : State := (inState .config).onPower (fun p => { p with resetReq := some ⟨false, 1⟩ }); let r : ResetReq := ⟨false, 1⟩; Serving s ∧ s.power.resetReq = some r ∧ r.cold = false) ∧
    (let s : State := (inState .config).onPower (fun p => { p with resetReq := some ⟨false, 1⟩ }); let cold : Bool := false; let r : ResetReq := ⟨false, 1⟩; Serving s ∧ s.power.resetReq = some r ∧ (cold = false ∨ r.cold = true)) ∧
    (let s : State := State.reset; s.dev.state = .boot) ∧
    (let s : State := (inState .config).onPower (fun p => { p with resetReq := some ⟨false, 1⟩ }); resetMay s = true) ∧
    (let s : State := inState .config; resetMay s = false) ∧
    (let s : State := inState .config; let k : Nat := 12; let a : Nat := 3; let b : Nat := 0; s.dev.state ≠ .powerDown ∧ linkDies[k]? = some (a, b) ∧ dieOk s a = true ∧ dieOk s b = true) ∧
    (let s : State := (inState .config).onPower (fun p => { p with hostUp := true }); s.dev.state ≠ .powerDown ∧ s.power.hostUp = true) ∧
    (let s : State := inState .powerDown; s.dev.state = .powerDown) ∧
    (let s : State := inState .powerDown; s.dev.state = .powerDown) ∧
    (let s : State := inState .config; s.dev.state ≠ .powerDown) ∧
    (let s : State := inState .config; s.dev.state ≠ .powerDown) ∧
    (let s : State := inState .powerDown; s.dev.state = .powerDown) := by
  iterate 30 refine And.intro (by intros; decide +kernel +zetaReduce) ?_
  intros; decide +kernel +zetaReduce

set_option maxRecDepth 20000 in
/-- States and operands that meet the hypotheses of MailboxControlRowsActOnTheirBlock, clause by clause. -/
theorem test_witness_MailboxControlRowsActOnTheirBlock :
    (let mb : Fin 8 := 2; let s : State := ringed 2 (inState .config); barOn s = true ∧ ringBase (mbGet s mb.val).cmdBase = true ∧ ringBase (mbGet s mb.val).rspBase = true) ∧
    (let mb : Fin 8 := 2; let s : State := inState .config; barOn s = true ∧ (ringBase (mbGet s mb.val).cmdBase = false ∨ ringBase (mbGet s mb.val).rspBase = false)) ∧
    (let s : State := inState .config; barOn s = true) ∧
    (let mb : Fin 8 := 2; let v : Word32 := 64; let s : State := enabledMb 2 (inState .config); barOn s = true ∧ (mbGet s mb.val).ctrl.getLsbD 0 = true ∧ (v.setWidth 16 - (mbGet s mb.val).cmdHead).toNat ≤ 64 ∧ (v.setWidth 16 - (mbGet s mb.val).cmdTail).toNat ≤ 64) ∧
    (let mb : Fin 8 := 2; let v : Word32 := 65; let s : State := enabledMb 2 (inState .config); barOn s = true ∧ ((mbGet s mb.val).ctrl.getLsbD 0 = false ∨ 64 < (v.setWidth 16 - (mbGet s mb.val).cmdHead).toNat ∨ 64 < (v.setWidth 16 - (mbGet s mb.val).cmdTail).toNat)) ∧
    (let mb : Fin 8 := 2; let v : Word32 := 0; let s : State := inState .config; barOn s = true ∧ (v.setWidth 16 - (mbGet s mb.val).rspHead).toNat ≤ ((mbGet s mb.val).rspTail - (mbGet s mb.val).rspHead).toNat) ∧
    (let mb : Fin 8 := 2; let v : Word32 := 1; let s : State := inState .config; barOn s = true ∧ ((mbGet s mb.val).rspTail - (mbGet s mb.val).rspHead).toNat < (v.setWidth 16 - (mbGet s mb.val).rspHead).toNat) ∧
    (let s : State := State.reset; barOn s = false) := by
  iterate 7 refine And.intro (by intros; decide +kernel +zetaReduce) ?_
  intros; decide +kernel +zetaReduce

set_option maxRecDepth 20000 in
/-- States and operands that meet the hypotheses of FetchedEntriesAndHeldResponsesMoveOn, clause by clause. -/
theorem test_witness_FetchedEntriesAndHeldResponsesMoveOn :
    (let e : Bytes := goodEntry; let b : Bytes := []; let n : Nat := 2; let s : State := waiting 2 (inState .config); barOn s = true ∧ s.dev.state ≠ .boot ∧ s.mb.inHand = none ∧ nextMailbox s = some n ∧ entryCrc e = true ∧ entrySeq e (mbGet s n).cmdHead = true ∧ blockGood e b = true ∧ opcodeKnown (rd e 0 2) = true) ∧
    (let e : Bytes := badOpEntry; let b : Bytes := []; let n : Nat := 2; let s : State := waiting 2 (inState .config); barOn s = true ∧ s.dev.state ≠ .boot ∧ s.mb.inHand = none ∧ nextMailbox s = some n ∧ entryCrc e = true ∧ entrySeq e (mbGet s n).cmdHead = true ∧ blockGood e b = true ∧ opcodeKnown (rd e 0 2) = false) ∧
    (let e : Bytes := List.replicate 64 0; let b : Bytes := []; let n : Nat := 2; let s : State := waiting 2 (inState .config); barOn s = true ∧ s.dev.state ≠ .boot ∧ s.mb.inHand = none ∧ nextMailbox s = some n ∧ entrySeq e (mbGet s n).cmdHead = true ∧ (entryCrc e = false ∨ blockGood e b = false)) ∧
    (let e : Bytes := List.replicate 64 1; let n : Nat := 2; let s : State := waiting 2 (inState .config); barOn s = true ∧ s.dev.state ≠ .boot ∧ s.mb.inHand = none ∧ nextMailbox s = some n ∧ entrySeq e (mbGet s n).cmdHead = false) ∧
    (let n : Nat := 2; let s : State := waiting 2 (inState .boot); barOn s = true ∧ s.dev.state = .boot ∧ s.mb.inHand = none ∧ nextMailbox s = some n) ∧
    (let s : State := inState .config; (barOn s = false ∨ s.mb.inHand ≠ none ∨ nextMailbox s = none)) ∧
    (let mb : Fin 8 := 2; let r : Response := aResponse; let l : List Response := []; let s : State := holding 2 (inState .config); barOn s = true ∧ (mbGet s mb.val).held = r :: l ∧ ringRoom (mbGet s mb.val) = true) ∧
    (let mb : Fin 8 := 2; let s : State := inState .config; ((mbGet s mb.val).held = [] ∨ ringRoom (mbGet s mb.val) = false ∨ barOn s = false)) ∧
    (let mb : Fin 8 := 2; let p : PendingCmd := aPending; let r : Bytes := []; let k : Nat := 7; let s : State := pended (inState .config); finalDue s mb.val = some (p, .ok, r, k)) ∧
    (let mb : Fin 8 := 2; let p : PendingCmd := { aPending with outcome := some (.conflict, [], 7) }; let st : Status := .conflict; let r : Bytes := []; let k : Nat := 7; let s : State := (inState .config).onMb (fun m => { m with pend := [{ aPending with outcome := some (.conflict, [], 7) }] }); finalDue s mb.val = some (p, st, r, k) ∧ st ≠ .ok) ∧
    (let mb : Fin 8 := 2; let s : State := inState .config; finalDue s mb.val = none) := by
  iterate 10 refine And.intro (by intros; decide +kernel +zetaReduce) ?_
  intros; decide +kernel +zetaReduce

set_option maxRecDepth 20000 in
/-- States and operands that meet the hypotheses of RegisterRowsReadAndWrite, clause by clause. -/
theorem test_witness_RegisterRowsReadAndWrite :
    (let n : Nat := 3; let s : State := inState .config; barOn s = true ∧ n < 8 ∧ (mbGet s n).enabled = false) ∧
    (let n : Nat := 3; let s : State := inState .config; barOn s = true ∧ n < 8 ∧ (mbGet s n).enabled = false) ∧
    (let n : Nat := 3; let s : State := inState .config; barOn s = true ∧ n < 8 ∧ (mbGet s n).enabled = false) ∧
    (let n : Nat := 3; let s : State := inState .config; barOn s = true ∧ n < 8 ∧ (mbGet s n).enabled = false) ∧
    (let n : Nat := 3; let i : Nat := 2; let s : State := enabledMb 3 (inState .config); n < 8 ∧ i < 4 ∧ (mbGet s n).enabled = true) ∧
    (let n : Nat := 3; let s : State := inState .config; barOn s = true ∧ n < 8) ∧
    (let n : Nat := 3; let s : State := inState .config; barOn s = true ∧ n < 8) ∧
    (let n : Nat := 3; let s : State := inState .config; barOn s = true ∧ n < 8) ∧
    (let n : Nat := 3; let s : State := inState .config; barOn s = true ∧ n < 8) ∧
    (let s : State := inState .config; barOn s = true) ∧
    (let s : State := inState .config; barOn s = true) ∧
    (let off : Nat := 0x10; (off % 4 ≠ 0 ∨ off < 0x1000 ∨ (0x1200 ≤ off ∧ off < 0x2000) ∨ 0x5000 ≤ off)) ∧
    (let w : Nat := 16; let s : State := inState .config; (barOn s = false ∨ w < 32)) ∧
    (let s : State := inState .config; barOn s = true) ∧
    (let s : State := inState .config; barOn s = true) ∧
    (let s : State := inState .config; barOn s = true) ∧
    (let s : State := inState .config; barOn s = true) ∧
    (let s : State := inState .boot; barOn s = true) ∧
    (let v : Word32 := 0; let s : State := inState .boot; barOn s = true ∧ (v.setWidth 16 - s.fault.head).toNat ≤ (s.fault.tail - s.fault.head).toNat) ∧
    (let v : Word32 := 1; let s : State := State.reset; (s.fault.tail - s.fault.head).toNat < (v.setWidth 16 - s.fault.head).toNat) ∧
    (let s : State := State.reset; barOn s = false) ∧
    (let n : Fin 4 := 3; let v : Word32 := 2; let s : State := inState .config; barOn s = true ∧ ((s.dev.paired && workRole s == .standby && (n.val == 1 || n.val == 2 || (n.val == 0 && s.red.follow))) || (n.val == 0 && s.time.cfg.mode) || (n.val == 2 && s.time.cfg.linkTrack)) = false ∧ 0x1FFF2E48F ≤ v.toNat % 256 * 2 ^ 32 + tget 0 s.time.incLo n.val ∧ v.toNat % 256 * 2 ^ 32 + tget 0 s.time.incLo n.val ≤ 0x2000D1B71) ∧
    (let n : Fin 4 := 3; let v : Word32 := 3; let s : State := inState .config; barOn s = true ∧ (((s.dev.paired && workRole s == .standby && (n.val == 1 || n.val == 2 || (n.val == 0 && s.red.follow))) || (n.val == 0 && s.time.cfg.mode) || (n.val == 2 && s.time.cfg.linkTrack)) = true ∨ v.toNat % 256 * 2 ^ 32 + tget 0 s.time.incLo n.val < 0x1FFF2E48F ∨ 0x2000D1B71 < v.toNat % 256 * 2 ^ 32 + tget 0 s.time.incLo n.val)) := by
  iterate 22 refine And.intro (by intros; decide +kernel +zetaReduce) ?_
  intros; decide +kernel +zetaReduce

set_option maxRecDepth 20000 in
/-- States and operands that meet the hypotheses of MonitorsAttachSampleAndRead, clause by clause. -/
theorem test_witness_MonitorsAttachSampleAndRead :
    (let c : Cmd := cmd 1 20 [0, 1, 0, 0x10, 0, 0, 0, 0, 1]; let s : State := inState .config; Serving s ∧ Inline c 20 ∧ c.mb ≠ 0 ∧ c.u8 0 < 32 ∧ c.u8 1 < 4 ∧ c.u16 2 % 4096 < pointCount (c.u16 2 / 4096) ∧ pointFitted s (c.u16 2 / 4096) (c.u16 2 % 4096) = true ∧ 1 ≤ c.u32 8 ∧ c.u32 8 < 2 ^ 31 ∧ c.rsv 16 4 = true) ∧
    (let c : Cmd := cmd 1 20 [0, 1, 0, 0x10, 0, 0, 0, 0, 1]; let s : State := asM2 (inState .config); Serving s ∧ Inline c 20 ∧ c.mb ≠ 0 ∧ c.u16 2 % 4096 < pointCount (c.u16 2 / 4096) ∧ pointFitted s (c.u16 2 / 4096) (c.u16 2 % 4096) = false) ∧
    (let c : Cmd := cmd 1 8 [1]; let s : State := inState .config; Serving s ∧ Inline c 8 ∧ c.mb ≠ 0 ∧ c.u32 0 ≠ 0 ∧ c.rsv 4 4 = true) ∧
    (let c : Cmd := cmd 1 12 [0, 2, 0, 0, 64]; let s : State := inState .config; Serving s ∧ Inline c 12 ∧ c.mb ≠ 0 ∧ 1 ≤ c.u8 1 ∧ c.u8 0 + c.u8 1 ≤ 32 ∧ c.rsv 2 2 = true ∧ c.u64 4 % 64 = 0 ∧ c.u64 4 ≠ 0) ∧
    (let m : Fin 32 := 3; let v : Word32 := 5; let s : State := monitored 3 (inState .config); (monGet s m.val).on = true ∧ notBoot s.dev.state = true ∧ pointFitted s ((monGet s m.val).point / 4096) ((monGet s m.val).point % 4096) = true ∧ (monVal (monGet s m.val) (pointValue s ((monGet s m.val).point / 4096) ((monGet s m.val).point % 4096) v)) ≤ (monVal (monGet s m.val) (monGet s m.val).limit)) ∧
    (let m : Fin 32 := 3; let v : Word32 := 5; let s : State := monUpd 3 (fun x => { x with on := true, point := 0xB000, w := 1, limit := 100 }) ((inState .config).onPower (fun p => { p with temps := [(0, 101)] })); (monGet s m.val).on = true ∧ notBoot s.dev.state = true ∧ pointFitted s ((monGet s m.val).point / 4096) ((monGet s m.val).point % 4096) = true ∧ (monVal (monGet s m.val) (monGet s m.val).limit) < (monVal (monGet s m.val) (pointValue s ((monGet s m.val).point / 4096) ((monGet s m.val).point % 4096) v)) ∧ firstIn (monGet s m.val).overWin s.tick.index = true) ∧
    (let m : Fin 32 := 3; let v : Word32 := 5; let s : State := monUpd 3 (fun x => { x with on := true, point := 0xB000, w := 1, limit := 100, overWin := some 0 }) ((inState .config).onPower (fun p => { p with temps := [(0, 101)] })); (monGet s m.val).on = true ∧ notBoot s.dev.state = true ∧ pointFitted s ((monGet s m.val).point / 4096) ((monGet s m.val).point % 4096) = true ∧ (monVal (monGet s m.val) (monGet s m.val).limit) < (monVal (monGet s m.val) (pointValue s ((monGet s m.val).point / 4096) ((monGet s m.val).point % 4096) v)) ∧ firstIn (monGet s m.val).overWin s.tick.index = false) ∧
    (let m : Fin 32 := 3; let s : State := inState .config; ((monGet s m.val).on = false ∨ notBoot s.dev.state = false ∨ pointFitted s ((monGet s m.val).point / 4096) ((monGet s m.val).point % 4096) = false)) := by
  iterate 7 refine And.intro (by intros; decide +kernel +zetaReduce) ?_
  intros; decide +kernel +zetaReduce

set_option maxRecDepth 20000 in
/-- States and operands that meet the hypotheses of CrossingEventsRaiseOnce, clause by clause. -/
theorem test_witness_CrossingEventsRaiseOnce :
    (let d : Nat := 4; let k : Nat := 1; let i : Nat := 0; let ns : Nat := 1000; let s : State := inState .config; dieOk s d = true ∧ cdcOn d k = true ∧ cdcDs k = false ∧ cdcLv k = false ∧ (cdcGet s d k i).stalled = false ∧ 1000 ≤ ns ∧ (cdcWaits k = false ∨ (cdcGet s d k i).isOpen = true)) ∧
    (let d : Nat := 4; let k : Nat := 1; let i : Nat := 0; let ns : Nat := 1000; let s : State := cdcUpd 4 1 0 (fun y => { y with stalled := true }) (inState .config); ((cdcGet s d k i).stalled = true ∨ ns < 1000 ∨ cdcOn d k = false ∨ cdcDs k = true ∨ cdcLv k = true)) ∧
    (let d : Nat := 4; let k : Nat := 0x11; let i : Nat := 0; let n : Nat := 256; let s : State := inState .config; dieOk s d = true ∧ cdcOn d k = true ∧ cdcDs k = true ∧ (cdcGet s d k i).unstable = false ∧ 256 ≤ n) ∧
    (let d : Nat := 4; let k : Nat := 0x11; let i : Nat := 0; let n : Nat := 256; let s : State := cdcUpd 4 0x11 0 (fun y => { y with unstable := true }) (inState .config); (cdcGet s d k i).unstable = true ∧ 256 ≤ n) ∧
    (let d : Nat := 4; let k : Nat := 0x11; let n : Nat := 255; let s : State := inState .config; dieOk s d = true ∧ cdcOn d k = true ∧ cdcDs k = true ∧ n < 256) := by
  iterate 4 refine And.intro (by intros; decide +kernel +zetaReduce) ?_
  intros; decide +kernel +zetaReduce

set_option maxRecDepth 20000 in
/-- States and operands that meet the hypotheses of TickRowsRunTheSequencer, clause by clause. -/
theorem test_witness_TickRowsRunTheSequencer :
    (let s : State := started (inState .config); ticking s = true) ∧
    (let s : State := State.reset; ticking s = false) ∧
    (let s : State := started (inState .config); ticking s = true ∧ s.tick.inDone = false ∧ replaying s = false) ∧
    (let s : State := started runningReplay; let r : Replay := aRunning; ticking s = true ∧ s.tick.inDone = false ∧ s.galley.replay = some r ∧ r.saved.isSome = true ∧ r.outcome = none) ∧
    (let s : State := entered (started (inState .config)); (ticking s = false ∨ s.tick.inDone = true)) ∧
    (let s : State := entered (started (inState .config)); ticking s = true ∧ s.tick.inDone = true ∧ s.tick.outDone = false ∧ replaying s = false) ∧
    (let s : State := entered (started runningReplay); let r : Replay := aRunning; ticking s = true ∧ s.tick.inDone = true ∧ s.tick.outDone = false ∧ s.galley.replay = some r ∧ r.saved.isSome = true ∧ r.outcome = none) ∧
    (let s : State := inState .config; (ticking s = false ∨ s.tick.inDone = false ∨ s.tick.outDone = true)) ∧
    (let s : State := replayReady; let r : Replay := aReplay; let m : CtlImage := ctlImage State.reset; s.galley.replay = some r ∧ s.dev.state = .config ∧ r.saved = none ∧ r.boundary ≤ s.tick.index ∧ replayImage s r.slot r.image = some m) ∧
    (let s : State := inState .config; (s.galley.replay = none ∨ s.dev.state ≠ .config)) ∧
    (let s : State := replayDone; s.dev.state = .replay ∧ s.galley.replay.any (fun r => r.outcome.isSome) = true) ∧
    (let s : State := runningReplay; s.dev.state = .replay ∧ s.galley.replay.any (fun r => r.outcome.isSome) = false) ∧
    (let s : State := runningReplay; let r : Replay := aRunning; s.dev.state = .replay ∧ s.galley.replay = some r) ∧
    (let s : State := inState .config; s.dev.state ≠ .replay) := by
  iterate 13 refine And.intro (by intros; decide +kernel +zetaReduce) ?_
  intros; decide +kernel +zetaReduce

set_option maxRecDepth 20000 in
/-- States and operands that meet the hypotheses of PortCommandsMoveThePort, clause by clause. -/
theorem test_witness_PortCommandsMoveThePort :
    (let c : Cmd := cmd 1 4 [0, 0, 5]; let s : State := withCell 3 (inState .config); Admits c s [.config, .standby, .blockedFault, .factoryTest] [.active, .standby] ∧ Inline c 4 ∧ c.u8 0 < 32 ∧ portOk s (c.u8 0) = true ∧ c.rsv 1 1 = true ∧ (c.s16 2).natAbs ≤ 6400 ∧ held s (.port (c.u8 0)) = false ∧ pendCount s c.mb < 8 ∧ (portGet s (c.u8 0)).state = .down ∧ (portCells s (c.u8 0)).isEmpty = false) ∧
    (let c : Cmd := extCmd 1 ([0, 0, 5, 0] ++ List.replicate 256 0); let s : State := withCell 3 (inState .config); Admits c s [.config, .standby, .blockedFault, .factoryTest] [.active, .standby] ∧ External c (fun l => l == 260) ∧ c.u8 0 < 32 ∧ portOk s (c.u8 0) = true ∧ c.rsv 1 1 = true ∧ (readTrims c.params 128).all (fun t => decide ((c.s16 2 + t.2).natAbs ≤ 6400)) = true ∧ held s (.port (c.u8 0)) = false ∧ pendCount s c.mb < 8 ∧ (portGet s (c.u8 0)).state = .down ∧ (portCells s (c.u8 0)).isEmpty = false) ∧
    (let c : Cmd := cmd 1 4 [0, 0, 5]; let s : State := portIn .sleepD 0 (inState .config); Admits c s [.config, .standby, .blockedFault, .factoryTest] [.active, .standby] ∧ Inline c 4 ∧ c.u8 0 < 32 ∧ portOk s (c.u8 0) = true ∧ c.rsv 1 1 = true ∧ held s (.port (c.u8 0)) = false ∧ pendCount s c.mb < 8 ∧ (portGet s (c.u8 0)).state.asleep = true) ∧
    (let c : Cmd := cmd 1 4 [0, 0, 5]; let s : State := inState .config; Admits c s [.config, .standby, .blockedFault, .factoryTest] [.active, .standby] ∧ Inline c 4 ∧ c.u8 0 < 32 ∧ portOk s (c.u8 0) = true ∧ c.rsv 1 1 = true ∧ (c.s16 2).natAbs ≤ 6400 ∧ held s (.port (c.u8 0)) = false ∧ pendCount s c.mb < 8 ∧ (portGet s (c.u8 0)).state.asleep = false ∧ ((portGet s (c.u8 0)).state ≠ .down ∨ (portCells s (c.u8 0)).isEmpty = true)) ∧
    (let c : Cmd := cmd 1 4 [0, 0, 5]; let s : State := (inState .config).onMb (fun m => { m with pend := [{ aPending with outcome := none, objs := [.port 0] }] }); Admits c s [.config, .standby, .blockedFault, .factoryTest] [.active, .standby] ∧ Inline c 4 ∧ c.u8 0 < 32 ∧ portOk s (c.u8 0) = true ∧ c.rsv 1 1 = true ∧ (c.s16 2).natAbs ≤ 6400 ∧ held s (.port (c.u8 0)) = true) ∧
    (let c : Cmd := cmd 1 4 [0, 1]; let s : State := portIn .lost 0 (inState .config); Serving s ∧ Inline c 4 ∧ c.mb ≠ 0 ∧ c.u8 0 < 32 ∧ portOk s (c.u8 0) = false) ∧
    (let c : Cmd := cmd 1 4 []; let s : State := portIn .inService 0 (inState .config); Admits c s [.config, .standby, .blockedFault, .factoryTest] [.active, .standby] ∧ Inline c 4 ∧ c.u8 0 < 32 ∧ portOk s (c.u8 0) = true ∧ c.rsv 2 2 = true ∧ remapHolds s (c.u8 0) = false ∧ c.u8 1 = 0 ∧ (portGet s (c.u8 0)).state ≠ .down) ∧
    (let c : Cmd := cmd 1 4 [0, 1]; let s : State := portIn .inService 0 (inState .config); Admits c s [.config, .standby, .blockedFault, .factoryTest] [.active, .standby] ∧ Inline c 4 ∧ c.u8 0 < 32 ∧ portOk s (c.u8 0) = true ∧ c.rsv 2 2 = true ∧ remapHolds s (c.u8 0) = false ∧ 1 ≤ c.u8 1 ∧ c.u8 1 < 4 ∧ ((portGet s (c.u8 0)).state = .inService ∨ (portGet s (c.u8 0)).state.asleep = true)) ∧
    (let c : Cmd := cmd 1 4 [0, 1]; let s : State := inState .config; Admits c s [.config, .standby, .blockedFault, .factoryTest] [.active, .standby] ∧ Inline c 4 ∧ c.u8 0 < 32 ∧ portOk s (c.u8 0) = true ∧ c.rsv 2 2 = true ∧ remapHolds s (c.u8 0) = false ∧ c.u8 1 < 4 ∧ ((portGet s (c.u8 0)).state = .down ∨ (c.u8 1 ≠ 0 ∧ (portGet s (c.u8 0)).state ≠ .inService ∧ (portGet s (c.u8 0)).state.asleep = false))) ∧
    (let c : Cmd := cmd 1 12 []; let s : State := withCell 3 (inState .config); Serving s ∧ Inline c 12 ∧ c.mb ≠ 0 ∧ c.u8 0 < 32 ∧ portOk s (c.u8 0) = true ∧ c.rsv 1 3 = true ∧ c.u64 4 = 0) ∧
    (let c : Cmd := cmd 1 12 [0, 0, 0, 0, 64]; let s : State := withCell 3 (inState .config); Serving s ∧ Inline c 12 ∧ c.mb ≠ 0 ∧ c.u8 0 < 32 ∧ portOk s (c.u8 0) = true ∧ c.rsv 1 3 = true ∧ c.u64 4 % 64 = 0 ∧ c.u64 4 ≠ 0) ∧
    (let c : Cmd := cmd 1 12 []; let s : State := portIn .lost 0 (inState .config); Serving s ∧ Inline c 12 ∧ c.mb ≠ 0 ∧ c.u8 0 < 32 ∧ portOk s (c.u8 0) = false) ∧
    (let c : Cmd := cmd 1 4 [0, 1]; let s : State := portIn .inService 0 (inState .config); Admits c s [.config, .standby, .deblocked, .safeStop, .blockedFault, .factoryTest] [.active, .standby] ∧ Inline c 4 ∧ c.u8 0 < 32 ∧ portOk s (c.u8 0) = true ∧ c.rsv 2 2 = true ∧ held s (.port (c.u8 0)) = false ∧ c.u8 1 = 1 ∧ (portGet s (c.u8 0)).state ≠ .down ∧ (portGet s (c.u8 0)).spare = 0 ∧ spareTaken s (c.u8 0) = false) ∧
    (let c : Cmd := cmd 1 4 [0, 2]; let s : State := withCell 3 (portIn .inService 0 (inState .config)); Admits c s [.config, .standby, .deblocked, .safeStop, .blockedFault, .factoryTest] [.active, .standby] ∧ Inline c 4 ∧ c.u8 0 < 32 ∧ portOk s (c.u8 0) = true ∧ c.rsv 2 2 = true ∧ held s (.port (c.u8 0)) = false ∧ c.u8 1 = 2 ∧ pendCount s c.mb < 8 ∧ (portGet s (c.u8 0)).state ≠ .down ∧ (portGet s (c.u8 0)).spare = 0 ∧ spareTaken s (c.u8 0) = false) ∧
    (let c : Cmd := cmd 1 4 [0, 1]; let s : State := portUpd 1 (fun x => { x with spare := 1 }) (portIn .inService 0 (inState .config)); Admits c s [.config, .standby, .deblocked, .safeStop, .blockedFault, .factoryTest] [.active, .standby] ∧ Inline c 4 ∧ c.u8 0 < 32 ∧ portOk s (c.u8 0) = true ∧ c.rsv 2 2 = true ∧ held s (.port (c.u8 0)) = false ∧ (c.u8 1 = 1 ∨ c.u8 1 = 2) ∧ pendCount s c.mb < 8 ∧ (portGet s (c.u8 0)).state ≠ .down ∧ (portGet s (c.u8 0)).spare = 0 ∧ spareTaken s (c.u8 0) = true) ∧
    (let c : Cmd := cmd 1 4 [0, 2]; let s : State := inState .config; Admits c s [.config, .standby, .deblocked, .safeStop, .blockedFault, .factoryTest] [.active, .standby] ∧ Inline c 4 ∧ c.u8 0 < 32 ∧ portOk s (c.u8 0) = true ∧ c.rsv 2 2 = true ∧ held s (.port (c.u8 0)) = false ∧ (c.u8 1 = 1 ∨ c.u8 1 = 2) ∧ pendCount s c.mb < 8 ∧ ((portGet s (c.u8 0)).state = .down ∨ (portGet s (c.u8 0)).spare ≠ 0)) := by
  iterate 15 refine And.intro (by intros; decide +kernel +zetaReduce) ?_
  intros; decide +kernel +zetaReduce

set_option maxRecDepth 20000 in
/-- States and operands that meet the hypotheses of RosterCommandsActOnTheRoster, clause by clause. -/
theorem test_witness_RosterCommandsActOnTheRoster :
    (let c : Cmd := rosterCmd; let s : State := inState .config; Admits c s [.config, .factoryTest] [.active, .standby] ∧ External c (fun l => l == 16 + 16 * c.u16 8) ∧ 1 ≤ c.u16 8 ∧ c.u16 8 ≤ 4096 ∧ c.u8 0 = 0 ∧ c.rsv 1 3 = true ∧ c.rsv 10 6 = true ∧ pairHolds s = false ∧ (List.range 32).all (fun p => !(true && held s (.port p))) = true ∧ firstIdx (fun _ r => rosterAbsent s r) ((List.range (c.u16 8)).map (rosterEntry c.params)) 0 = none ∧ firstIdx (fun i r => rosterBad s 0 (c.u32 4) (([] : List Roster) ++ ((List.range (c.u16 8)).map (rosterEntry c.params)).take i) c.params i r) ((List.range (c.u16 8)).map (rosterEntry c.params)) 0 = none ∧ s.dev.paired = false ∧ (allPorts s).all (fun p => (portGet s p).state == .down) = true ∧ firstIdx (fun _ r => rosterConflict s (([] : List Roster) ++ ((List.range (c.u16 8)).map (rosterEntry c.params))) r) ((List.range (c.u16 8)).map (rosterEntry c.params)) 0 = none) ∧
    (let c : Cmd := rosterCmd1; let s : State := inState .config; Admits c s [.config, .factoryTest] [.active, .standby] ∧ External c (fun l => l == 16 + 16 * c.u16 8) ∧ 1 ≤ c.u16 8 ∧ c.u16 8 ≤ 4096 ∧ c.u8 0 = 1 ∧ c.rsv 1 3 = true ∧ c.rsv 10 6 = true ∧ pairHolds s = false ∧ (List.range 32).all (fun p => !(bit (c.u32 4) p && held s (.port p))) = true ∧ firstIdx (fun _ r => rosterAbsent s r) ((List.range (c.u16 8)).map (rosterEntry c.params)) 0 = none ∧ firstIdx (fun i r => rosterBad s 1 (c.u32 4) (((s.link.roster.map (·.2)).filter (fun r => !bit (c.u32 4) (r.cid / 128))) ++ ((List.range (c.u16 8)).map (rosterEntry c.params)).take i) c.params i r) ((List.range (c.u16 8)).map (rosterEntry c.params)) 0 = none ∧ (List.range 32).all (fun p => !bit (c.u32 4) p || portFitted s p) = true ∧ s.dev.paired = false ∧ (allPorts s).all (fun p => !bit (c.u32 4) p || (portGet s p).state == .down) = true ∧ firstIdx (fun _ r => rosterConflict s (((s.link.roster.map (·.2)).filter (fun r => !bit (c.u32 4) (r.cid / 128))) ++ ((List.range (c.u16 8)).map (rosterEntry c.params))) r) ((List.range (c.u16 8)).map (rosterEntry c.params)) 0 = none) ∧
    (let c : Cmd := rosterArm7; let k : Nat := 0; let s : State := inState .config; Admits c s [.config, .factoryTest] [.active, .standby] ∧ External c (fun l => l == 16 + 16 * c.u16 8) ∧ 1 ≤ c.u16 8 ∧ c.u16 8 ≤ 4096 ∧ c.u8 0 = 0 ∧ c.rsv 1 3 = true ∧ c.rsv 10 6 = true ∧ pairHolds s = false ∧ (List.range 32).all (fun p => !(true && held s (.port p))) = true ∧ firstIdx (fun _ r => rosterAbsent s r) ((List.range (c.u16 8)).map (rosterEntry c.params)) 0 = none ∧ firstIdx (fun i r => rosterBad s 0 (c.u32 4) (([] : List Roster) ++ ((List.range (c.u16 8)).map (rosterEntry c.params)).take i) c.params i r) ((List.range (c.u16 8)).map (rosterEntry c.params)) 0 = none ∧ firstIdx (fun _ r => rosterConflict s (([] : List Roster) ++ ((List.range (c.u16 8)).map (rosterEntry c.params))) r) ((List.range (c.u16 8)).map (rosterEntry c.params)) 0 = some k) ∧
    (let c : Cmd := rosterCmd; let s : State := portIn .inService 0 (inState .config); Admits c s [.config, .factoryTest] [.active, .standby] ∧ External c (fun l => l == 16 + 16 * c.u16 8) ∧ 1 ≤ c.u16 8 ∧ c.u16 8 ≤ 4096 ∧ c.u8 0 = 0 ∧ c.rsv 1 3 = true ∧ c.rsv 10 6 = true ∧ pairHolds s = false ∧ (List.range 32).all (fun p => !(true && held s (.port p))) = true ∧ firstIdx (fun _ r => rosterAbsent s r) ((List.range (c.u16 8)).map (rosterEntry c.params)) 0 = none ∧ firstIdx (fun i r => rosterBad s 0 (c.u32 4) (([] : List Roster) ++ ((List.range (c.u16 8)).map (rosterEntry c.params)).take i) c.params i r) ((List.range (c.u16 8)).map (rosterEntry c.params)) 0 = none ∧ firstIdx (fun _ r => rosterConflict s (([] : List Roster) ++ ((List.range (c.u16 8)).map (rosterEntry c.params))) r) ((List.range (c.u16 8)).map (rosterEntry c.params)) 0 = none ∧ (s.dev.paired = true ∨ (allPorts s).all (fun p => (portGet s p).state == .down) = false)) ∧
    (let c : Cmd := cmd 1 12 [0, 0, 1, 0, 64]; let s : State := inState .config; Serving s ∧ Inline c 12 ∧ c.mb ≠ 0 ∧ 1 ≤ c.u16 2 ∧ c.u16 0 + c.u16 2 ≤ 4096 ∧ c.u64 4 % 64 = 0 ∧ c.u64 4 ≠ 0) ∧
    (let c : Cmd := cmd 1 4 [3, 0, 1]; let s : State := withCell 3 (inState .config); Admits c s [.config, .standby, .deblocked, .blockedFault, .factoryTest] [.active, .standby] ∧ Inline c 4 ∧ c.u16 0 < 4096 ∧ portOk s (c.u16 0 / 128) = true ∧ c.u16 0 % 128 < slotsOf s.tick.len ∧ c.rsv 3 1 = true ∧ held s (.cell (c.u16 0)) = false ∧ held s .tickLength = false ∧ c.u8 2 = 1 ∧ (cellGet s (c.u16 0)).roster.isSome = true ∧ (cellGet s (c.u16 0)).health ≠ .retired) ∧
    (let c : Cmd := cmd 1 4 [3, 0, 2]; let s : State := cellUpd 3 (fun x => { x with health := .failed }) (withCell 3 (inState .config)); Admits c s [.config, .standby, .deblocked, .blockedFault, .factoryTest] [.active, .standby] ∧ Inline c 4 ∧ c.u16 0 < 4096 ∧ portOk s (c.u16 0 / 128) = true ∧ c.u16 0 % 128 < slotsOf s.tick.len ∧ c.rsv 3 1 = true ∧ held s (.cell (c.u16 0)) = false ∧ held s .tickLength = false ∧ c.u8 2 = 2 ∧ (cellGet s (c.u16 0)).roster.isSome = true ∧ (cellGet s (c.u16 0)).health ≠ .pending ∧ (cellGet s (c.u16 0)).health ≠ .inUse ∧ ((cellGet s (c.u16 0)).health ≠ .retired ∨ (cellGet s (c.u16 0)).cause ≠ 8)) ∧
    (let c : Cmd := cmd 1 4 [3, 0, 3]; let s : State := withCell 3 (portIn .inService 0 (inState .config)); Admits c s [.config, .standby, .blockedFault, .factoryTest] [.active, .standby] ∧ Inline c 4 ∧ c.u16 0 < 4096 ∧ portOk s (c.u16 0 / 128) = true ∧ c.u16 0 % 128 < slotsOf s.tick.len ∧ c.rsv 3 1 = true ∧ held s (.cell (c.u16 0)) = false ∧ held s .tickLength = false ∧ c.u8 2 = 3 ∧ (cellGet s (c.u16 0)).roster.isSome = true ∧ (cellGet s (c.u16 0)).health ≠ .retired ∧ (portGet s (c.u16 0 / 128)).state = .inService) ∧
    (let c : Cmd := cmd 1 4 [3, 0, 1]; let s : State := inState .config; Admits c s [.config, .standby, .deblocked, .blockedFault, .factoryTest] [.active, .standby] ∧ Inline c 4 ∧ c.u16 0 < 4096 ∧ portOk s (c.u16 0 / 128) = true ∧ c.u16 0 % 128 < slotsOf s.tick.len ∧ c.rsv 3 1 = true ∧ held s (.cell (c.u16 0)) = false ∧ held s .tickLength = false ∧ 1 ≤ c.u8 2 ∧ c.u8 2 ≤ 2 ∧ (cellGet s (c.u16 0)).roster = none) ∧
    (let c : Cmd := cmd 1 12 [0, 0, 1, 0, 64]; let s : State := inState .config; Serving s ∧ Inline c 12 ∧ c.mb ≠ 0 ∧ 1 ≤ c.u16 2 ∧ c.u16 0 + c.u16 2 ≤ 4096 ∧ ((List.range (c.u16 2)).map (c.u16 0 + ·)).any (fun x => portFitted s (x / 128)) = true ∧ c.u64 4 % 64 = 0 ∧ c.u64 4 ≠ 0) ∧
    (let c : Cmd := cmd 1 8 [3, 0, 1, 0, 1]; let s : State := withCell 3 (inState .config); Admits c s [.config, .standby, .deblocked, .safeStop, .blockedFault, .factoryTest] [.active, .standby] ∧ Inline c 8 ∧ 1 ≤ c.u16 2 ∧ c.u16 0 + c.u16 2 ≤ 4096 ∧ ((List.range (c.u16 2)).map (c.u16 0 + ·)).all (fun x => portFitted s (x / 128)) = true ∧ c.u8 4 < 2 ∧ c.rsv 5 3 = true ∧ setHeld s 7 = false ∧ (((List.range (c.u16 2)).map (c.u16 0 + ·)).filter (fun x => (cellGet s x).roster.isSome)).isEmpty = false) ∧
    (let c : Cmd := cmd 1 8 [3, 0, 1, 0, 1]; let s : State := inState .config; Admits c s [.config, .standby, .deblocked, .safeStop, .blockedFault, .factoryTest] [.active, .standby] ∧ Inline c 8 ∧ 1 ≤ c.u16 2 ∧ c.u16 0 + c.u16 2 ≤ 4096 ∧ ((List.range (c.u16 2)).map (c.u16 0 + ·)).all (fun x => portFitted s (x / 128)) = true ∧ c.u8 4 < 2 ∧ c.rsv 5 3 = true ∧ setHeld s 7 = false ∧ (((List.range (c.u16 2)).map (c.u16 0 + ·)).filter (fun x => (cellGet s x).roster.isSome)).isEmpty = true) := by
  iterate 11 refine And.intro (by intros; decide +kernel +zetaReduce) ?_
  intros; decide +kernel +zetaReduce

set_option maxRecDepth 20000 in
/-- States and operands that meet the hypotheses of PortEventsMoveThePort, clause by clause. -/
theorem test_witness_PortEventsMoveThePort :
    (let p : Nat := 0; let s : State := atTick 1024 (portIn .inService 0 (inState .config)); portFitted s p = true ∧ timeSetDue s (portGet s p) = true ∧ s.tick.inDone = false) ∧
    (let p : Nat := 0; let s : State := portIn .inService 0 (inState .config); (portFitted s p = false ∨ timeSetDue s (portGet s p) = false ∨ s.tick.inDone = true)) ∧
    (let p : Nat := 0; let s : State := atTick 200 (portIn .starting 0 (inState .config)); (portGet s p).state = .starting ∧ (portGet s p).sinceUs + 200 ≤ s.nowUs ∧ s.tick.inDone = false) ∧
    (let p : Nat := 0; let s : State := inState .config; ((portGet s p).state ≠ .starting ∨ s.nowUs < (portGet s p).sinceUs + 200 ∨ s.tick.inDone = true)) ∧
    (let p : Nat := 0; let j : Nat := 0; let r : RangeRun := ⟨0, 1, false, [0], []⟩; let ws : List Nat := []; let s : State := atTick 6 (portUpd 0 (fun x => { x with run := some ⟨0, 1, false, [0], []⟩ }) (inState .config)); (portGet s p).run = some r ∧ r.windows = j :: ws ∧ j + rangeTicks s.tick.len ≤ s.tick.index + 1) ∧
    (let p : Nat := 0; let j : Nat := 0; let q : RangeReply := ⟨0, ⟨0, 0⟩⟩; let r : RangeRun := ⟨0, 1, false, [0], []⟩; let ws : List Nat := []; let s : State := atTick 6 (portUpd 0 (fun x => { x with run := some ⟨0, 1, false, [0], []⟩ }) (inState .config)); (portGet s p).run = some r ∧ r.windows = j :: ws ∧ j + rangeTicks s.tick.len ≤ s.tick.index + 1 ∧ rangingReply q = none) ∧
    (let p : Nat := 0; let j : Nat := 0; let k : Nat := 3; let inv : Bool := false; let q : RangeReply := aReply; let d : BitVec 48 := 0; let r : RangeRun := ⟨3, 1, false, [0], []⟩; let ws : List Nat := []; let s : State := atTick 6 (withCell 3 (portUpd 0 (fun x => { x with run := some ⟨3, 1, false, [0], []⟩ }) (inState .config))); (portGet s p).run = some r ∧ r.windows = j :: ws ∧ j + rangeTicks s.tick.len ≤ s.tick.index + 1 ∧ rangingReply q = some (inv, k, d) ∧ k = r.slot ∧ (cellGet s (128 * p + r.slot)).roster.any (fun e => e.identity == d) = true) ∧
    (let p : Nat := 0; let j : Nat := 0; let k : Nat := 3; let inv : Bool := false; let q : RangeReply := aReply; let d : BitVec 48 := 0; let r : RangeRun := ⟨4, 1, false, [0], []⟩; let ws : List Nat := []; let s : State := atTick 6 (withCell 3 (portUpd 0 (fun x => { x with run := some ⟨4, 1, false, [0], []⟩ }) (inState .config))); (portGet s p).run = some r ∧ r.windows = j :: ws ∧ j + rangeTicks s.tick.len ≤ s.tick.index + 1 ∧ rangingReply q = some (inv, k, d) ∧ (k ≠ r.slot ∨ (cellGet s (128 * p + r.slot)).roster.any (fun e => e.identity == d) = false)) ∧
    (let p : Nat := 0; let s : State := portUpd 0 (fun x => { x with run := some ⟨0, 1, false, [0], []⟩ }) (inState .config); ((portGet s p).run = none ∨ (portGet s p).run.any (fun r => r.windows.head?.all (fun j => decide (s.tick.index + 1 < j + rangeTicks s.tick.len))) = true)) ∧
    (let p : Nat := 0; let s : State := portIn .ranging 0 (inState .config); (portGet s p).state = .ranging ∧ (portGet s p).run = none ∧ nextToRange s p = none ∧ ((portGet s p).queue ++ (portGet s p).waiting).any (fun q => q.word.code == 1 || q.word.code == 2) = false) ∧
    (let p : Nat := 0; let s : State := inState .config; ((portGet s p).state ≠ .ranging ∨ (portGet s p).run.isSome = true ∨ (nextToRange s p).isSome = true ∨ ((portGet s p).queue ++ (portGet s p).waiting).any (fun q => q.word.code == 1 || q.word.code == 2) = true)) ∧
    (let p : Nat := 0; let s : State := portIn .verify 0 (inState .config); (portGet s p).state = .verify ∧ (cellsShort s p = [] ∨ (portGet s p).since + 1024 ≤ s.tick.index)) ∧
    (let p : Nat := 0; let s : State := inState .config; ((portGet s p).state ≠ .verify ∨ (cellsShort s p ≠ [] ∧ s.tick.index < (portGet s p).since + 1024))) ∧
    (let p : Nat := 0; let s : State := atTick 1000 (cellUpd 3 (fun x => { x with health := .inUse, ranged := true }) (withCell 3 (portIn .waking 0 (inState .config)))); (portGet s p).state = .waking ∧ ((portCells s p).filter (fun c => wakeFails (cellGet s c) || (decide ((portGet s p).sinceUs + 1000 ≤ s.nowUs) && wakeWaits (cellGet s c)))) ≠ []) ∧
    (let p : Nat := 0; let s : State := portUpd 0 (fun x => { x with tsDue := true }) (portIn .waking 0 (inState .config)); (portGet s p).state = .waking ∧ ((portCells s p).filter (fun c => wakeFails (cellGet s c) || (decide ((portGet s p).sinceUs + 1000 ≤ s.nowUs) && wakeWaits (cellGet s c)))) = [] ∧ ((portGet s p).tsDue = true ∨ (portCells s p).any (fun c => wakeWaits (cellGet s c) || (cellGet s c).mark) = true)) ∧
    (let p : Nat := 0; let s : State := portIn .waking 0 (inState .config); (portGet s p).state = .waking ∧ ((portCells s p).filter (fun c => wakeFails (cellGet s c) || (decide ((portGet s p).sinceUs + 1000 ≤ s.nowUs) && wakeWaits (cellGet s c)))) = [] ∧ (portGet s p).tsDue = false ∧ (portCells s p).any (fun c => wakeWaits (cellGet s c) || (cellGet s c).mark) = false) ∧
    (let p : Nat := 0; let s : State := inState .config; (portGet s p).state ≠ .waking) ∧
    (let p : Nat := 0; let k : Nat := 0; let s : State := atTick 16 (portUpd 0 (fun x => { x with shadow := some 0 }) (inState .config)); (portGet s p).shadow = some k ∧ k + 16 ≤ s.tick.index) ∧
    (let p : Nat := 0; let s : State := atTick 15 (portUpd 0 (fun x => { x with shadow := some 0 }) (inState .config)); (portGet s p).shadow.all (fun k => decide (s.tick.index < k + 16)) = true) ∧
    (let l : PortLoss := ⟨0, true⟩; let s : State := portUpd 1 (fun x => { x with spare := 1 }) (inState .config); spareTaken s l.port = true) ∧
    (let l : PortLoss := ⟨0, true⟩; let s : State := inState .config; spareTaken s l.port = false) := by
  iterate 20 refine And.intro (by intros; decide +kernel +zetaReduce) ?_
  intros; decide +kernel +zetaReduce

set_option maxRecDepth 20000 in
/-- States and operands that meet the hypotheses of BurstsAndCellsAreJudged, clause by clause. -/
theorem test_witness_BurstsAndCellsAreJudged :
    (let p : Nat := 0; let k : Nat := 3; let b : BurstIn := noBurst; let s : State := withCell 3 (portIn .inService 0 (inState .config)); (cellGet s (128 * p + k)).roster.isSome = true ∧ (portGet s p).state.dclk = true ∧ readBurst b.bits = none) ∧
    (let p : Nat := 0; let k : Nat := 3; let inv : Bool := false; let w : Word64 := goodWord; let b : BurstIn := { goodBurst with e := 321 }; let s : State := withCell 3 (portIn .inService 0 (inState .config)); (cellGet s (128 * p + k)).roster.isSome = true ∧ (portGet s p).state.dclk = true ∧ readBurst b.bits = some (inv, w) ∧ (320 < b.e.natAbs ∨ (inv = true ∧ (cellGet s (128 * p + k)).flags.getLsbD 0 = false) ∨ w.extractLsb' 62 2 = 3#2)) ∧
    (let p : Nat := 0; let k : Nat := 3; let inv : Bool := false; let w : Word64 := goodWord; let b : BurstIn := goodBurst; let s : State := withCell 3 (portIn .inService 0 (inState .config)); (cellGet s (128 * p + k)).roster.isSome = true ∧ (portGet s p).state.dclk = true ∧ readBurst b.bits = some (inv, w) ∧ b.e.natAbs ≤ 320 ∧ (inv = false ∨ (cellGet s (128 * p + k)).flags.getLsbD 0 = true) ∧ w.extractLsb' 62 2 ≠ 3#2) ∧
    (let p : Nat := 0; let k : Nat := 3; let s : State := inState .config; ((cellGet s (128 * p + k)).roster = none ∨ (portGet s p).state.dclk = false)) ∧
    (let cid : Nat := 3; let s : State := cellUpd 3 (fun x => { x with mark := true }) (withCell 3 (portIn .inService 0 (inState .config))); (cellGet s cid).roster.isSome = true ∧ (cellGet s cid).mark = true ∧ (portGet s (cid / 128)).run = none ∧ ((portGet s (cid / 128)).state = .inService ∨ (portGet s (cid / 128)).state = .verify ∨ (portGet s (cid / 128)).state = .waking)) ∧
    (let cid : Nat := 3; let s : State := cellUpd 3 (fun x => { x with health := .inUse, ranged := true, discRun := 8 }) (withCell 3 (portIn .inService 0 (inState .config))); reachable (cellGet s cid) = true ∧ 8 ≤ (cellGet s cid).discRun) ∧
    (let cid : Nat := 3; let s : State := inState .config; ((cellGet s cid).roster = none ∨ ((cellGet s cid).mark = false ∧ (cellGet s cid).discRun < 8))) ∧
    (let cid : Nat := 3; let k : Nat := 0; let s : State := atTick 1024 (cellUpd 3 (fun x => { x with health := .pending, rejoin := some 0 }) (withCell 3 (inState .config))); (cellGet s cid).rejoin = some k ∧ k + 1024 ≤ s.tick.index ∧ (cellGet s cid).health = .pending) ∧
    (let cid : Nat := 3; let s : State := inState .config; ((cellGet s cid).rejoin.all (fun k => decide (s.tick.index < k + 1024)) = true ∨ (cellGet s cid).health ≠ .pending)) ∧
    (let cid : Nat := 3; let s : State := cellUpd 3 (fun x => { x with selBad := 16 }) (withCell 3 (inState .config)); 16 ≤ (cellGet s cid).selBad) ∧
    (let cid : Nat := 3; let s : State := inState .config; (cellGet s cid).selBad < 16) ∧
    (let p : Nat := 0; let s : State := withCell 3 (inState .config); portFitted s p = true) ∧
    (let p : Nat := 32; let s : State := inState .config; portFitted s p = false) := by
  iterate 12 refine And.intro (by intros; decide +kernel +zetaReduce) ?_
  intros; decide +kernel +zetaReduce

set_option maxRecDepth 20000 in
/-- States and operands that meet the hypotheses of CellControllersTakeMessages, clause by clause. -/
theorem test_witness_CellControllersTakeMessages :
    (let cid : Nat := 5; let c : CellCtl := cellOf .running; let i : BitVec 48 := 7; let s : State := cellAt 5 (cellOf .running); ctlGet s cid = c ∧ (c.byp = false ∨ c.identity ≠ i)) ∧
    (let cid : Nat := 5; let c : CellCtl := { (cellOf .bypassed) with byp := true }; let s : State := cellAt 5 ({ (cellOf .bypassed) with byp := true }); ctlGet s cid = c ∧ c.byp = true) ∧
    (let cid : Nat := 5; let c : CellCtl := cellOf .unlocked; let s : State := cellAt 5 (cellOf .unlocked); ctlGet s cid = c) ∧
    (let cid : Nat := 5; let c : CellCtl := cellOf .blocked; let b : Bool := false; let rx : LineRx := ⟨[], 3⟩; let s : State := cellAt 5 (cellOf .blocked); ctlGet s cid = c ∧ ((c.iface b).locked = false ∨ findFrame (cid % 128) rx.line = none)) ∧
    (let cid : Nat := 5; let c : CellCtl := { (cellOf .locked) with ifA := { locked := true } }; let b : Bool := false; let rx : LineRx := ⟨frameWords, 3⟩; let f : FrameIn := badFrame; let s : State := cellAt 5 ({ (cellOf .locked) with ifA := { locked := true } }); ctlGet s cid = c ∧ (c.iface b).locked = true ∧ findFrame (cid % 128) rx.line = some f ∧ (f.hc = false ∨ f.group = false) ∧ (c.iface b).valid = false) ∧
    (let cid : Nat := 5; let c : CellCtl := cellOf .blocked; let b : Bool := false; let rx : LineRx := ⟨goodFrame true, 3⟩; let f : FrameIn := readTick true; let s : State := cellAt 5 (cellOf .blocked); ctlGet s cid = c ∧ (c.iface b).locked = true ∧ findFrame (cid % 128) rx.line = some f ∧ f.hc = true ∧ f.group = true ∧ (c.iface b).valid = true ∧ frameValid (c.iface b) f (extendBase f.base ((c.iface b).reading (cycleAt s rx.cycle))) ((c.iface b).reading (cycleAt s rx.cycle)) = true ∧ frameOld (c.setIface b (if diff56 (extendBase f.base ((c.iface b).reading (cycleAt s rx.cycle))) ((c.iface b).reading (cycleAt s rx.cycle)) ≤ 0 then (c.iface b).apply (⟨(extendBase f.base ((c.iface b).reading (cycleAt s rx.cycle))), true, f.quiet, f.mgmt.filter (fun m => m.code.toNat < 4)⟩ : IfaceDue) else { c.iface b with due := (c.iface b).due ++ [(⟨(extendBase f.base ((c.iface b).reading (cycleAt s rx.cycle))), true, f.quiet, f.mgmt.filter (fun m => m.code.toNat < 4)⟩ : IfaceDue)] })) f (extendBase f.base ((c.iface b).reading (cycleAt s rx.cycle))) = false ∧ (f.active = true ∨ 0 ≤ diff56 ((c.iface b).reading (cycleAt s rx.cycle)) ((c.setIface b (if diff56 (extendBase f.base ((c.iface b).reading (cycleAt s rx.cycle))) ((c.iface b).reading (cycleAt s rx.cycle)) ≤ 0 then (c.iface b).apply (⟨(extendBase f.base ((c.iface b).reading (cycleAt s rx.cycle))), true, f.quiet, f.mgmt.filter (fun m => m.code.toNat < 4)⟩ : IfaceDue) else { c.iface b with due := (c.iface b).due ++ [(⟨(extendBase f.base ((c.iface b).reading (cycleAt s rx.cycle))), true, f.quiet, f.mgmt.filter (fun m => m.code.toNat < 4)⟩ : IfaceDue)] })).deadline (extendBase f.base ((c.iface b).reading (cycleAt s rx.cycle)))))) ∧
    (let cid : Nat := 5; let c : CellCtl := cellOf .blocked; let b : Bool := false; let rx : LineRx := ⟨goodFrame false, 3⟩; let f : FrameIn := readTick false; let s : State := cellAt 5 (cellOf .blocked); ctlGet s cid = c ∧ (c.iface b).locked = true ∧ findFrame (cid % 128) rx.line = some f ∧ f.hc = true ∧ f.group = true ∧ (c.iface b).valid = true ∧ frameValid (c.iface b) f (extendBase f.base ((c.iface b).reading (cycleAt s rx.cycle))) ((c.iface b).reading (cycleAt s rx.cycle)) = true ∧ frameOld (c.setIface b (if diff56 (extendBase f.base ((c.iface b).reading (cycleAt s rx.cycle))) ((c.iface b).reading (cycleAt s rx.cycle)) ≤ 0 then (c.iface b).apply (⟨(extendBase f.base ((c.iface b).reading (cycleAt s rx.cycle))), true, f.quiet, f.mgmt.filter (fun m => m.code.toNat < 4)⟩ : IfaceDue) else { c.iface b with due := (c.iface b).due ++ [(⟨(extendBase f.base ((c.iface b).reading (cycleAt s rx.cycle))), true, f.quiet, f.mgmt.filter (fun m => m.code.toNat < 4)⟩ : IfaceDue)] })) f (extendBase f.base ((c.iface b).reading (cycleAt s rx.cycle))) = false ∧ f.active = false ∧ diff56 ((c.iface b).reading (cycleAt s rx.cycle)) ((c.setIface b (if diff56 (extendBase f.base ((c.iface b).reading (cycleAt s rx.cycle))) ((c.iface b).reading (cycleAt s rx.cycle)) ≤ 0 then (c.iface b).apply (⟨(extendBase f.base ((c.iface b).reading (cycleAt s rx.cycle))), true, f.quiet, f.mgmt.filter (fun m => m.code.toNat < 4)⟩ : IfaceDue) else { c.iface b with due := (c.iface b).due ++ [(⟨(extendBase f.base ((c.iface b).reading (cycleAt s rx.cycle))), true, f.quiet, f.mgmt.filter (fun m => m.code.toNat < 4)⟩ : IfaceDue)] })).deadline (extendBase f.base ((c.iface b).reading (cycleAt s rx.cycle)))) < 0) ∧
    (let cid : Nat := 5; let c : CellCtl := { (cellOf .blocked) with taken := some (7, 2, true) }; let b : Bool := false; let rx : LineRx := ⟨goodFrame true, 3⟩; let f : FrameIn := readTick true; let s : State := cellAt 5 ({ (cellOf .blocked) with taken := some (7, 2, true) }); ctlGet s cid = c ∧ (c.iface b).locked = true ∧ findFrame (cid % 128) rx.line = some f ∧ f.hc = true ∧ f.group = true ∧ (c.iface b).valid = true ∧ frameValid (c.iface b) f (extendBase f.base ((c.iface b).reading (cycleAt s rx.cycle))) ((c.iface b).reading (cycleAt s rx.cycle)) = true ∧ frameOld (c.setIface b (if diff56 (extendBase f.base ((c.iface b).reading (cycleAt s rx.cycle))) ((c.iface b).reading (cycleAt s rx.cycle)) ≤ 0 then (c.iface b).apply (⟨(extendBase f.base ((c.iface b).reading (cycleAt s rx.cycle))), true, f.quiet, f.mgmt.filter (fun m => m.code.toNat < 4)⟩ : IfaceDue) else { c.iface b with due := (c.iface b).due ++ [(⟨(extendBase f.base ((c.iface b).reading (cycleAt s rx.cycle))), true, f.quiet, f.mgmt.filter (fun m => m.code.toNat < 4)⟩ : IfaceDue)] })) f (extendBase f.base ((c.iface b).reading (cycleAt s rx.cycle))) = true) ∧
    (let cell : CellAt := ⟨5, 3⟩; let c : CellCtl := { (cellOf .blocked) with held := some ⟨false, 2 ^ 56 - 20000, aFrame⟩ }; let d : FrameDue := ⟨false, 2 ^ 56 - 20000, aFrame⟩; let s : State := cellAt 5 ({ (cellOf .blocked) with held := some ⟨false, 2 ^ 56 - 20000, aFrame⟩ }); ctlGet s cell.cid = c ∧ c.held = some d ∧ 0 ≤ diff56 ((c.iface d.onB).reading (cycleAt s cell.cycle)) (c.deadline d.base) ∧ frameOld c d.frame d.base = false) ∧
    (let cell : CellAt := ⟨5, 3⟩; let c : CellCtl := { (cellOf .blocked) with held := some ⟨false, 2 ^ 56 - 20000, aFrame⟩, taken := some (7, 2, true) }; let d : FrameDue := ⟨false, 2 ^ 56 - 20000, aFrame⟩; let s : State := cellAt 5 ({ (cellOf .blocked) with held := some ⟨false, 2 ^ 56 - 20000, aFrame⟩, taken := some (7, 2, true) }); ctlGet s cell.cid = c ∧ c.held = some d ∧ 0 ≤ diff56 ((c.iface d.onB).reading (cycleAt s cell.cycle)) (c.deadline d.base) ∧ frameOld c d.frame d.base = true) ∧
    (let cell : CellAt := ⟨5, 3⟩; let c : CellCtl := cellOf .blocked; let s : State := cellAt 5 (cellOf .blocked); ctlGet s cell.cid = c ∧ c.held = none) ∧
    (let cell : CellAt := ⟨5, 3⟩; let c : CellCtl := { (cellOf .blocked) with held := some ⟨false, 8, aFrame⟩ }; let d : FrameDue := ⟨false, 8, aFrame⟩; let s : State := cellAt 5 ({ (cellOf .blocked) with held := some ⟨false, 8, aFrame⟩ }); ctlGet s cell.cid = c ∧ c.held = some d ∧ diff56 ((c.iface d.onB).reading (cycleAt s cell.cycle)) (c.deadline d.base) < 0) ∧
    (let cid : Nat := 5; let c : CellCtl := cellOf .running; let b : Bool := false; let rx : LineRx := ⟨(LinkMsg.block 1 2).words, 3⟩; let u : BitVec 4 := 1; let k : Byte := 2; let n : Nat := 0; let s : State := cellAt 5 (cellOf .running); ctlGet s cid = c ∧ (c.iface b).locked = true ∧ findMsg 0 rx.line = (some (.block u k), n) ∧ (c.state = .running ∨ c.state = .safe)) ∧
    (let cid : Nat := 5; let c : CellCtl := cellOf .locked; let b : Bool := false; let rx : LineRx := ⟨(LinkMsg.block 1 2).words, 3⟩; let u : BitVec 4 := 1; let k : Byte := 2; let n : Nat := 0; let s : State := cellAt 5 (cellOf .locked); ctlGet s cid = c ∧ (c.iface b).locked = true ∧ findMsg 0 rx.line = (some (.block u k), n) ∧ c.state = .locked) ∧
    (let cid : Nat := 5; let c : CellCtl := cellOf .fault; let b : Bool := false; let rx : LineRx := ⟨(LinkMsg.block 1 2).words, 3⟩; let u : BitVec 4 := 1; let k : Byte := 2; let n : Nat := 0; let s : State := cellAt 5 (cellOf .fault); ctlGet s cid = c ∧ (c.iface b).locked = true ∧ findMsg 0 rx.line = (some (.block u k), n) ∧ c.state ≠ .running ∧ c.state ≠ .safe ∧ c.state ≠ .locked) ∧
    (let cid : Nat := 5; let c : CellCtl := cellOf .running; let b : Bool := false; let rx : LineRx := ⟨(LinkMsg.safe 1 2).words, 3⟩; let u : BitVec 4 := 1; let k : Byte := 2; let n : Nat := 0; let s : State := cellAt 5 (cellOf .running); ctlGet s cid = c ∧ (c.iface b).locked = true ∧ findMsg 0 rx.line = (some (.safe u k), n) ∧ (c.state = .running ∨ c.state = .blocked ∨ c.state = .locked)) ∧
    (let cid : Nat := 5; let c : CellCtl := cellOf .fault; let b : Bool := false; let rx : LineRx := ⟨(LinkMsg.safe 1 2).words, 3⟩; let u : BitVec 4 := 1; let k : Byte := 2; let n : Nat := 0; let s : State := cellAt 5 (cellOf .fault); ctlGet s cid = c ∧ (c.iface b).locked = true ∧ findMsg 0 rx.line = (some (.safe u k), n) ∧ c.state ≠ .running ∧ c.state ≠ .blocked ∧ c.state ≠ .locked) ∧
    (let cid : Nat := 5; let c : CellCtl := { (cellOf .locked) with ifA := { locked := true } }; let b : Bool := false; let rx : LineRx := ⟨(LinkMsg.timeSet 9).words, 3⟩; let v : BitVec 56 := 9; let n : Nat := 0; let s : State := cellAt 5 ({ (cellOf .locked) with ifA := { locked := true } }); ctlGet s cid = c ∧ (c.iface b).locked = true ∧ findMsg 0 rx.line = (some (.timeSet v), n) ∧ (c.iface b).valid = false) ∧
    (let cid : Nat := 5; let c : CellCtl := cellOf .running; let b : Bool := false; let rx : LineRx := ⟨(LinkMsg.timeSet 9).words, 3⟩; let v : BitVec 56 := 9; let n : Nat := 0; let s : State := cellAt 5 (cellOf .running); ctlGet s cid = c ∧ (c.iface b).locked = true ∧ findMsg 0 rx.line = (some (.timeSet v), n) ∧ (c.iface b).valid = true) ∧
    (let cid : Nat := 5; let c : CellCtl := cellOf .blocked; let b : Bool := false; let up : Bool := true; let dn : Bool := true; let w : List LineWord := []; let l : List LineWord := (LinkMsg.sleep true true).words; let n : Nat := 0; let s : State := cellAt 5 (cellOf .blocked); ctlGet s cid = c ∧ (c.iface b).locked = true ∧ findMsg 0 (w ++ l) = (some (.sleep up dn), n)) ∧
    (let cid : Nat := 5; let c : CellCtl := cellOf .unlocked; let b : Bool := true; let s : State := cellAt 5 (cellOf .unlocked); ctlGet s cid = c ∧ (c.iface b).locked = false) ∧
    (let cid : Nat := 5; let c : CellCtl := cellOf .running; let b : Bool := false; let rx : LineRx := ⟨[], 3⟩; let w : List LineWord := []; let l : List LineWord := []; let n : Nat := 0; let s : State := cellAt 5 (cellOf .running); ctlGet s cid = c ∧ (c.iface b).locked = true ∧ findMsg 0 rx.line = (none, n) ∧ findMsg 0 (w ++ l) = (none, n)) ∧
    (let cell : CellAt := ⟨5, 10000⟩; let c : CellCtl := { (cellOf .blocked) with hold := some (0, false) }; let a : Nat := 0; let e : Bool := false; let s : State := cellAt 5 ({ (cellOf .blocked) with hold := some (0, false) }); ctlGet s cell.cid = c ∧ c.hold = some (a, e) ∧ a + 1024000 ≤ dclkUnits (cycleAt s cell.cycle)) ∧
    (let cell : CellAt := ⟨5, 3⟩; let c : CellCtl := cellOf .blocked; let s : State := cellAt 5 (cellOf .blocked); ctlGet s cell.cid = c ∧ c.hold = none) ∧
    (let cell : CellAt := ⟨5, 3⟩; let c : CellCtl := { (cellOf .blocked) with hold := some (0, false) }; let a : Nat := 0; let e : Bool := false; let s : State := cellAt 5 ({ (cellOf .blocked) with hold := some (0, false) }); ctlGet s cell.cid = c ∧ c.hold = some (a, e) ∧ dclkUnits (cycleAt s cell.cycle) < a + 1024000) := by
  iterate 24 refine And.intro (by intros; decide +kernel +zetaReduce) ?_
  intros; decide +kernel +zetaReduce

set_option maxRecDepth 20000 in
/-- States and operands that meet the hypotheses of CellControllersActOnTheirOwn, clause by clause. -/
theorem test_witness_CellControllersActOnTheirOwn :
    (let cid : Nat := 5; let c : CellCtl := { (cellOf .running) with expired := true }; let s : State := cellAt 5 ({ (cellOf .running) with expired := true }); ctlGet s cid = c ∧ c.expired = true ∧ (c.state = .running ∨ c.state = .blocked ∨ c.state = .locked)) ∧
    (let cid : Nat := 5; let c : CellCtl := cellOf .running; let s : State := cellAt 5 (cellOf .running); ctlGet s cid = c ∧ (c.expired = false ∨ (c.state ≠ .running ∧ c.state ≠ .blocked ∧ c.state ≠ .locked))) ∧
    (let cid : Nat := 5; let c : CellCtl := cellOf .running; let s : State := cellAt 5 (cellOf .running); ctlGet s cid = c ∧ (c.ifB.inUse = false ∨ c.ifB.locked = false) ∧ (c.state = .running ∨ c.state = .blocked ∨ c.state = .locked)) ∧
    (let cid : Nat := 5; let c : CellCtl := { state := .running, ifB := { locked := true } }; let s : State := cellAt 5 ({ state := .running, ifB := { locked := true } }); ctlGet s cid = c ∧ (c.ifA.inUse = false ∨ c.ifA.locked = false) ∧ (c.state = .running ∨ c.state = .blocked ∨ c.state = .locked)) ∧
    (let cid : Nat := 5; let c : CellCtl := cellOf .safe; let s : State := cellAt 5 (cellOf .safe); ctlGet s cid = c ∧ ((c.ifB.inUse = true ∧ c.ifB.locked = true) ∨ (c.state ≠ .running ∧ c.state ≠ .blocked ∧ c.state ≠ .locked))) ∧
    (let cid : Nat := 5; let c : CellCtl := cellOf .running; let s : State := cellAt 5 (cellOf .running); ctlGet s cid = c ∧ ((c.ifA.inUse = true ∧ c.ifA.locked = true) ∨ (c.state ≠ .running ∧ c.state ≠ .blocked ∧ c.state ≠ .locked))) ∧
    (let cid : Nat := 5; let c : CellCtl := { (cellOf .running) with edges := [⟨8, .bypass⟩] }; let e : Edge := ⟨8, .bypass⟩; let r : List Edge := []; let s : State := cellAt 5 ({ (cellOf .running) with edges := [⟨8, .bypass⟩] }); ctlGet s cid = c ∧ c.state = .running ∧ c.edges = e :: r) ∧
    (let cid : Nat := 5; let c : CellCtl := cellOf .safe; let s : State := cellAt 5 (cellOf .safe); ctlGet s cid = c ∧ (c.state ≠ .running ∨ c.edges = [])) ∧
    (let cid : Nat := 5; let c : CellCtl := { (cellOf .safe) with cur := some (3, true) }; let u : BitVec 4 × Bool := (3, true); let s : State := cellAt 5 ({ (cellOf .safe) with cur := some (3, true) }); ctlGet s cid = c ∧ c.cur = some u) ∧
    (let cid : Nat := 5; let c : CellCtl := cellOf .safe; let s : State := cellAt 5 (cellOf .safe); ctlGet s cid = c ∧ c.cur = none) ∧
    (let cid : Nat := 5; let c : CellCtl := { (cellOf .blocked) with ifA := { locked := true, valid := true, range := true } }; let b : Bool := false; let s : State := cellAt 5 ({ (cellOf .blocked) with ifA := { locked := true, valid := true, range := true } }); ctlGet s cid = c ∧ (c.iface b).locked = true ∧ (c.iface b).valid = true ∧ (c.iface b).range = true) ∧
    (let cid : Nat := 5; let c : CellCtl := cellOf .blocked; let b : Bool := false; let s : State := cellAt 5 (cellOf .blocked); ctlGet s cid = c ∧ (c.iface b).locked = true ∧ (c.iface b).valid = true ∧ (c.iface b).range = false ∧ (c.iface b).quiet = false ∧ (c.iface b).upSleep = false ∧ c.reply = none) ∧
    (let cid : Nat := 5; let c : CellCtl := { (cellOf .blocked) with reply := some (10, 0) }; let b : Bool := false; let k : BitVec 5 := 10; let r : BitVec 2 := 0; let s : State := cellAt 5 ({ (cellOf .blocked) with reply := some (10, 0) }); ctlGet s cid = c ∧ (c.iface b).locked = true ∧ (c.iface b).valid = true ∧ (c.iface b).range = false ∧ (c.iface b).quiet = false ∧ (c.iface b).upSleep = false ∧ c.reply = some (k, r)) ∧
    (let cid : Nat := 5; let c : CellCtl := cellOf .blocked; let b : Bool := true; let s : State := cellAt 5 (cellOf .blocked); ctlGet s cid = c ∧ ((c.iface b).locked = false ∨ (c.iface b).valid = false ∨ ((c.iface b).range = false ∧ ((c.iface b).quiet = true ∨ (c.iface b).upSleep = true)))) ∧
    (let cid : Nat := 5; let c : CellCtl := cellOf .running; let s : State := cellAt 5 (cellOf .running); ctlGet s cid = c ∧ c.state ≠ .bypassed) ∧
    (let cid : Nat := 5; let c : CellCtl := cellOf .bypassed; let s : State := cellAt 5 (cellOf .bypassed); ctlGet s cid = c ∧ c.state = .bypassed) ∧
    (let cid : Nat := 5; let c : CellCtl := cellOf .running; let s : State := cellAt 5 (cellOf .running); ctlGet s cid = c ∧ c.state ≠ .bypassed) ∧
    (let cid : Nat := 5; let c : CellCtl := cellOf .bypassed; let s : State := cellAt 5 (cellOf .bypassed); ctlGet s cid = c ∧ c.state = .bypassed) ∧
    (let cid : Nat := 5; let c : CellCtl := cellOf .running; let s : State := cellAt 5 (cellOf .running); ctlGet s cid = c ∧ c.state ≠ .bypassed) ∧
    (let cid : Nat := 5; let c : CellCtl := cellOf .bypassed; let s : State := cellAt 5 (cellOf .bypassed); ctlGet s cid = c ∧ c.state = .bypassed) ∧
    (let cid : Nat := 5; let c : CellCtl := cellOf .running; let s : State := cellAt 5 (cellOf .running); ctlGet s cid = c) ∧
    (let cid : Nat := 5; let c : CellCtl := cellOf .running; let s : State := cellAt 5 (cellOf .running); ctlGet s cid = c) ∧
    (let cid : Nat := 5; let c : CellCtl := cellOf .running; let s : State := cellAt 5 (cellOf .running); ctlGet s cid = c) ∧
    (let cid : Nat := 5; let c : CellCtl := cellOf .fault; let s : State := cellAt 5 (cellOf .fault); ctlGet s cid = c) ∧
    (let cid : Nat := 5; let c : CellCtl := cellOf .running; let s : State := cellAt 5 (cellOf .running); ctlGet s cid = c) := by
  iterate 24 refine And.intro (by intros; decide +kernel +zetaReduce) ?_
  intros; decide +kernel +zetaReduce

set_option maxRecDepth 20000 in
/-- States and operands that meet the hypotheses of InsertionEngineCommands, clause by clause. -/
theorem test_witness_InsertionEngineCommands :
    (let c : Cmd := cmd 1 28 [0, 0, 1, 0, 0, 0, 1, 0, 1, 0, 0, 0, 1, 0, 0, 0, 0, 0, 0xFF, 0xFF, 0xFF, 0xFF]; let s : State := withCell 3 (inState .config); Admits c s [.config, .factoryTest] [.active, .standby] ∧ Inline c 28 ∧ isM2 s = false ∧ c.u8 0 < 12 ∧ armOk s (c.u8 0) = true ∧ (mprOk s = true ∨ (srcMpr (c.u16 18) = false ∧ srcMpr (c.u16 20) = false)) ∧ setHeld s 1 = false ∧ c.u8 1 < 2 ∧ 1 ≤ c.u16 2 ∧ c.u16 2 + c.u16 4 ≤ armCells s.tick.len ∧ 1 ≤ c.u16 6 ∧ 1 ≤ c.u32 8 ∧ c.u32 8 ≤ 2000000 ∧ 1 ≤ c.u32 12 ∧ c.u32 12 ≤ 100000 ∧ c.u16 16 < 512 ∧ srcOk (c.u16 18) = true ∧ srcOk (c.u16 20) = true ∧ (c.u16 22 = 0 ∨ 64 ≤ c.u16 22) ∧ c.u8 24 < 2 ∧ c.rsv 25 3 = true ∧ c.u16 2 + c.u16 4 = (armCids s (c.u8 0)).length ∧ (armCids s (c.u8 0)).any (fun x => x / 128 / 16 != c.u8 0 / 6) = false ∧ c.u16 16 / 256 = c.u8 0 / 6 ∧ (s.tick.len ≠ 1 ∨ c.u16 16 % 256 < 128) ∧ (c.u8 24 = 0 ∨ (armCids s (c.u8 0)).any (fullBridge s) = true)) ∧
    (let c : Cmd := cmd 1 28 [0, 0, 1, 0, 0, 0, 1, 0, 1, 0, 0, 0, 1, 0, 0, 0, 0, 0, 0xFF, 0xFF, 0xFF, 0xFF]; let s : State := inState .config; Admits c s [.config, .factoryTest] [.active, .standby] ∧ Inline c 28 ∧ isM2 s = false ∧ c.u8 0 < 12 ∧ armOk s (c.u8 0) = true ∧ (mprOk s = true ∨ (srcMpr (c.u16 18) = false ∧ srcMpr (c.u16 20) = false)) ∧ setHeld s 1 = false ∧ c.u8 1 < 2 ∧ 1 ≤ c.u16 2 ∧ c.u16 2 + c.u16 4 ≤ armCells s.tick.len ∧ 1 ≤ c.u16 6 ∧ 1 ≤ c.u32 8 ∧ c.u32 8 ≤ 2000000 ∧ 1 ≤ c.u32 12 ∧ c.u32 12 ≤ 100000 ∧ c.u16 16 < 512 ∧ srcOk (c.u16 18) = true ∧ srcOk (c.u16 20) = true ∧ (c.u16 22 = 0 ∨ 64 ≤ c.u16 22) ∧ c.u8 24 < 2 ∧ c.rsv 25 3 = true ∧ (c.u16 2 + c.u16 4 ≠ (armCids s (c.u8 0)).length ∨ (armCids s (c.u8 0)).any (fun x => x / 128 / 16 != c.u8 0 / 6) = true ∨ c.u16 16 / 256 ≠ c.u8 0 / 6 ∨ (s.tick.len = 1 ∧ 128 ≤ c.u16 16 % 256) ∨ (c.u8 24 = 1 ∧ (armCids s (c.u8 0)).any (fullBridge s) = false))) ∧
    (let c : Cmd := cmd 1 24 [0, 0, 0, 0, 0, 0, 8, 0, 0, 0, 0, 0, 1, 0, 8]; let s : State := inState .config; Admits c s [.config, .standby, .deblocked, .safeStop, .blockedFault, .factoryTest] [.active, .standby] ∧ Inline c 24 ∧ isM2 s = false ∧ c.u8 0 < 12 ∧ armOk s (c.u8 0) = true ∧ setHeld s 1 = false ∧ c.rsv 1 1 = true ∧ c.rsv 15 1 = true ∧ 1 ≤ c.u16 6 ∧ c.u16 6 ≤ 64 ∧ c.u32 8 < 2 ^ 31 ∧ 1 ≤ c.u16 12 ∧ c.u16 12 ≤ 10000 ∧ 1 ≤ c.u8 14 ∧ c.u8 14 ≤ 64 ∧ (c.u16 16 = 0 ∨ (1200 ≤ c.u16 16 ∧ c.u16 16 < stepsOf s.tick.len))) ∧
    (let c : Cmd := cmd 1 32 [0, 0, 0, 0, 0, 0, 0, 0x10, 0, 0, 0, 0x10, 1, 0, 0, 0, 0, 0, 0, 0, 1, 0, 0, 0, 1, 0, 0, 0, 64]; let s : State := withArm (inState .config); Admits c s [.config, .standby, .deblocked, .safeStop, .blockedFault, .factoryTest] [.active, .standby] ∧ Inline c 32 ∧ isM2 s = false ∧ c.u8 0 < 2 ∧ setHeld s 1 = false ∧ c.rsv 1 3 = true ∧ 268435456 ≤ c.s32 4 ∧ c.s32 4 ≤ c.s32 8 ∧ c.s32 8 ≤ 536870912 ∧ 0 < c.s32 12 ∧ c.s32 12 ≤ 134217728 ∧ 0 ≤ c.s32 16 ∧ c.s32 16 ≤ one28 ∧ 0 < c.s32 20 ∧ c.s32 20 ≤ one28 ∧ 0 < c.s32 24 ∧ c.s32 24 ≤ one28 ∧ 64 ≤ c.u16 28 ∧ c.u16 30 ≤ c.u16 28) ∧
    (let c : Cmd := cmd 1 12 [0, 0, 0, 0, 64]; let s : State := withCell 3 (inState .config); Serving s ∧ Inline c 12 ∧ c.mb ≠ 0 ∧ isM2 s = false ∧ c.u8 0 < 12 ∧ armOk s (c.u8 0) = true ∧ c.rsv 1 3 = true ∧ c.u64 4 % 64 = 0 ∧ c.u64 4 ≠ 0) ∧
    (let c : Cmd := cmd 1 4 []; let s : State := inState .config; Serving s ∧ Inline c 4 ∧ c.mb ≠ 0 ∧ isM2 s = false ∧ c.u8 0 < 12 ∧ armOk s (c.u8 0) = true ∧ c.rsv 1 3 = true) ∧
    (let c : Cmd := cmd 1 28 [0, 0, 1, 0, 0, 0, 1, 0, 1, 0, 0, 0, 1, 0, 0, 0, 0, 0, 0xFF, 0xFF, 0xFF, 0xFF]; let s : State := asM2 (inState .config); Serving s ∧ c.mb ≠ 0 ∧ Inline c 28 ∧ (isM2 s = true ∨ (c.u8 0 < 12 ∧ armOk s (c.u8 0) = false))) ∧
    (let c : Cmd := cmd 1 24 []; let s : State := asM2 (inState .config); Serving s ∧ c.mb ≠ 0 ∧ Inline c 24 ∧ (isM2 s = true ∨ (c.u8 0 < 12 ∧ armOk s (c.u8 0) = false))) ∧
    (let c : Cmd := cmd 1 32 []; let s : State := asM2 (inState .config); Serving s ∧ c.mb ≠ 0 ∧ Inline c 32 ∧ isM2 s = true) ∧
    (let c : Cmd := cmd 1 12 []; let s : State := asM2 (inState .config); Serving s ∧ c.mb ≠ 0 ∧ Inline c 12 ∧ (isM2 s = true ∨ (c.u8 0 < 12 ∧ armOk s (c.u8 0) = false))) ∧
    (let c : Cmd := cmd 1 4 []; let s : State := asM2 (inState .config); Serving s ∧ c.mb ≠ 0 ∧ Inline c 4 ∧ (isM2 s = true ∨ (c.u8 0 < 12 ∧ armOk s (c.u8 0) = false))) := by
  iterate 10 refine And.intro (by intros; decide +kernel +zetaReduce) ?_
  intros; decide +kernel +zetaReduce

set_option maxRecDepth 20000 in
/-- States and operands that meet the hypotheses of InsertionEngineEvents, clause by clause. -/
theorem test_witness_InsertionEngineEvents :
    (let a : Nat := 0; let k : ArmCfg := anArm; let s : State := withArm (inState .config); armCfg s a = some k ∧ armOk s a = true) ∧
    (let a : Nat := 0; let s : State := inState .config; (armCfg s a = none ∨ armOk s a = false)) ∧
    (let a : Nat := 0; let s : State := armUpd 0 (fun x => { x with mismatch := true, mmTicks := 64 }) (inState .config); (armGet s a).mismatch = true ∧ 64 ≤ (armGet s a).mmTicks ∧ (armGet s a).unresolved = false) ∧
    (let a : Nat := 0; let s : State := armUpd 0 (fun x => { x with mismatch := true, mmTicks := 63 }) (inState .config); ((armGet s a).mismatch = false ∨ (armGet s a).mmTicks < 64 ∨ (armGet s a).unresolved = true)) ∧
    (let a : Nat := 0; let k : ArmCfg := anArm; let s : State := armUpd 0 (fun x => { x with desigAge := 70 }) (withArm (inState .deblocked)); armCfg s a = some k ∧ running s = true ∧ 0 < k.rot ∧ k.rot ≤ (armGet s a).desigAge) ∧
    (let a : Nat := 0; let s : State := withArm (inState .deblocked); (running s = false ∨ (armCfg s a).all (fun k => k.rot == 0 || decide ((armGet s a).desigAge < k.rot)) = true)) ∧
    (let a : Nat := 0; let s : State := (inState .deblocked).onTick (fun t => { t with overCnt := [(0, 3)] }); running s = true ∧ 3 ≤ tget 0 s.tick.overCnt a) ∧
    (let a : Nat := 0; let s : State := (inState .deblocked).onTick (fun t => { t with overCnt := [(0, 2)] }); (running s = false ∨ tget 0 s.tick.overCnt a < 3)) := by
  iterate 7 refine And.intro (by intros; decide +kernel +zetaReduce) ?_
  intros; decide +kernel +zetaReduce

set_option maxRecDepth 20000 in
/-- States and operands that meet the hypotheses of PwmCommandsStageAndClear, clause by clause. -/
theorem test_witness_PwmCommandsStageAndClear :
    (let c : Cmd := cmd 1 8 [0, 1, 1]; let s : State := inState .config; Admits c s [.config, .standby, .deblocked, .safeStop, .blockedFault, .factoryTest] [.active, .standby] ∧ Inline c 8 ∧ isM2 s = false ∧ c.u8 0 < 12 ∧ armOk s (c.u8 0) = true ∧ setHeld s 2 = false ∧ c.u8 1 < 4 ∧ 1 ≤ c.u16 2 ∧ c.u16 2 ≤ 256 ∧ c.u32 4 ≤ stepsOf s.tick.len) ∧
    (let c : Cmd := cmd 1 24 [0, 1, 1, 0, 0x40, 0x1F, 0, 0, 0, 0, 0, 0, 200, 0, 0xDC, 5, 100, 0, 0, 0, 1]; let s : State := inState .config; Admits c s [.config, .standby, .deblocked, .safeStop, .blockedFault, .factoryTest] [.active, .standby] ∧ Inline c 24 ∧ mprOk s = true ∧ setHeld s 2 = false ∧ c.u8 0 < 8 ∧ pairParOk c (readPairCfg c) = true ∧ (c.u16 8 / 16384 = 0 ∨ ctlOk s (c.u16 8 / 256 % 2) = true)) ∧
    (let c : Cmd := cmd 1 24 [0, 1, 1, 0, 0x40, 0x1F, 0, 0, 0, 0x40, 0, 0, 200, 0, 0xDC, 5, 100, 0, 0, 0, 1]; let s : State := (inState .config).onPower (fun p => { p with dieFailed := [1] }); Admits c s [.config, .standby, .deblocked, .safeStop, .blockedFault, .factoryTest] [.active, .standby] ∧ Inline c 24 ∧ mprOk s = true ∧ setHeld s 2 = false ∧ c.u8 0 < 8 ∧ pairParOk c (readPairCfg c) = true ∧ c.u16 8 / 16384 ≠ 0 ∧ ctlOk s (c.u16 8 / 256 % 2) = false) ∧
    (let c : Cmd := cmd 1 8 [3, 1, 0, 1]; let s : State := inState .config; Admits c s [.config, .standby, .deblocked, .safeStop, .blockedFault, .factoryTest] [.active, .standby] ∧ Inline c 8 ∧ mprOk s = true ∧ setHeld s 2 = false ∧ c.u8 0 < 24 ∧ c.u8 1 < 32 ∧ c.u16 2 < 4096 ∧ c.rsv 5 3 = true) ∧
    (let c : Cmd := cmd 1 8 [1]; let s : State := (inState .config).onPwm (fun w => { w with active := 1 }); Admits c s [.config, .standby, .deblocked, .safeStop, .blockedFault, .factoryTest] [.active, .standby] ∧ Inline c 8 ∧ mprOk s = true ∧ c.u32 0 < 2 ^ 24 ∧ c.rsv 5 3 = true ∧ (c.u32 0 ≠ 0 ∨ c.u8 4 ≠ 0) ∧ ((List.range 24).any (fun n => bit (c.u32 0) n && s.pwm.active.getLsbD n) = true ∨ ((List.range 8).filter (bit (c.u8 4))).any (fun p => (tripSources s p).any (fun n => s.pwm.active.getLsbD n)) = true)) ∧
    (let c : Cmd := cmd 1 8 [0, 0, 0, 0, 1]; let s : State := (inState .config).onPwm (fun w => { w with latched := 2, cmp := [(1, { flags := 1, pmask := 1 })] }); Admits c s [.config, .standby, .deblocked, .safeStop, .blockedFault, .factoryTest] [.active, .standby] ∧ Inline c 8 ∧ mprOk s = true ∧ c.u32 0 < 2 ^ 24 ∧ c.rsv 5 3 = true ∧ (c.u32 0 ≠ 0 ∨ c.u8 4 ≠ 0) ∧ (List.range 24).any (fun n => bit (c.u32 0) n && s.pwm.active.getLsbD n) = false ∧ ((List.range 8).filter (bit (c.u8 4))).any (fun p => (tripSources s p).any (fun n => s.pwm.active.getLsbD n)) = false ∧ ((List.range 8).filter (bit (c.u8 4))).any (fun p => (tripSources s p).any (fun n => s.pwm.latched.getLsbD n && !bit (c.u32 0) n)) = true) ∧
    (let c : Cmd := cmd 1 8 [1]; let s : State := (inState .config).onPwm (fun w => { w with latched := 3 }); Admits c s [.config, .standby, .deblocked, .safeStop, .blockedFault, .factoryTest] [.active, .standby] ∧ Inline c 8 ∧ mprOk s = true ∧ c.u32 0 < 2 ^ 24 ∧ c.rsv 5 3 = true ∧ (c.u32 0 ≠ 0 ∨ c.u8 4 ≠ 0) ∧ (List.range 24).any (fun n => bit (c.u32 0) n && s.pwm.active.getLsbD n) = false ∧ ((List.range 8).filter (bit (c.u8 4))).any (fun p => (tripSources s p).any (fun n => s.pwm.active.getLsbD n)) = false ∧ ((List.range 8).filter (bit (c.u8 4))).any (fun p => (tripSources s p).any (fun n => s.pwm.latched.getLsbD n && !bit (c.u32 0) n)) = false) ∧
    (let c : Cmd := cmd 1 4 [0, 1]; let s : State := inState .config; Serving s ∧ Inline c 4 ∧ c.mb ≠ 0 ∧ c.u8 0 = 0 ∧ c.u8 1 < 12 ∧ isM2 s = false ∧ armOk s (c.u8 1) = true ∧ c.rsv 2 2 = true) ∧
    (let c : Cmd := cmd 1 4 [1, 3]; let s : State := inState .config; Serving s ∧ Inline c 4 ∧ c.mb ≠ 0 ∧ c.u8 0 = 1 ∧ c.u8 1 < 8 ∧ mprOk s = true ∧ c.rsv 2 2 = true) ∧
    (let c : Cmd := cmd 1 4 [2]; let s : State := inState .config; Serving s ∧ Inline c 4 ∧ c.mb ≠ 0 ∧ mprOk s = true ∧ c.u8 0 = 2 ∧ c.u8 1 = 0 ∧ c.rsv 2 2 = true) := by
  iterate 9 refine And.intro (by intros; decide +kernel +zetaReduce) ?_
  intros; decide +kernel +zetaReduce

set_option maxRecDepth 20000 in
/-- States and operands that meet the hypotheses of PairEventsDriveTheOutputs, clause by clause. -/
theorem test_witness_PairEventsDriveTheOutputs :
    (let p : Nat := 0; let o : Nat := 0; let s : State := pairAt 0; pairOn s p = true ∧ pairCount s p o = some 0) ∧
    (let p : Nat := 0; let o : Nat := 0; let s : State := inState .config; (pairOn s p = false ∨ pairCount s p o ≠ some 0)) ∧
    (let p : Nat := 0; let o : Nat := 0; let s : State := pairAt 8000; pairOn s p = true ∧ pairCount s p o = some (pairCfg s p).period ∧ (centred (pairCfg s p) = false ∨ bit (pairCfg s p).mode 3 = false)) ∧
    (let p : Nat := 0; let o : Nat := 0; let s : State := centredAt 8000; pairOn s p = true ∧ pairCount s p o = some (pairCfg s p).period ∧ centred (pairCfg s p) = true ∧ bit (pairCfg s p).mode 3 = true) ∧
    (let p : Nat := 0; let o : Nat := 0; let s : State := inState .config; (pairOn s p = false ∨ pairCount s p o ≠ some (pairCfg s p).period)) ∧
    (let p : Nat := 0; let o : Nat := 0; let s : State := pairUpd 0 (fun x => { x with cmp := 5 }) (pairAt 5); pairOn s p = true ∧ 0 < (pairGet s p).cmp ∧ (pairGet s p).cmp ≤ (pairCfg s p).period ∧ pairCount s p o = some (pairGet s p).cmp) ∧
    (let p : Nat := 0; let o : Nat := 0; let s : State := pairUpd 0 (fun x => { x with cmp := 5 }) (centredAt 15996); pairOn s p = true ∧ 0 < (pairGet s p).cmp ∧ (pairGet s p).cmp ≤ (pairCfg s p).period ∧ centred (pairCfg s p) = true ∧ pairCount s p o = some (2 * (pairCfg s p).period + 1 - (pairGet s p).cmp)) ∧
    (let p : Nat := 0; let o : Nat := 0; let b : Bool := true; let s : State := inState .config; (pairOn s p = false ∨ (pairGet s p).cmp = 0 ∨ (pairCfg s p).period < (pairGet s p).cmp ∨ (b = false ∧ centred (pairCfg s p) = false) ∨ pairCount s p o ≠ some (if b then (pairGet s p).cmp else 2 * (pairCfg s p).period + 1 - (pairGet s p).cmp))) ∧
    (let p : Nat := 0; let v : Int := 5; let k : Word16 := 1; let s : State := pairUpd 0 (fun x => { x with coming := some (5, 1) }) (inState .config); (pairGet s p).coming = some (v, k)) ∧
    (let p : Nat := 0; let s : State := inState .config; (pairGet s p).coming = none) ∧
    (let p : Nat := 0; let n : Nat := 9; let b : Bool := false; let s : State := pairUpd 0 (fun x => { x with dead := some ⟨true, none, false⟩ }) ((inState .config).onPwm (fun w => { w with pair := [(0, { mode := 1, period := 8000, dtMax := 1000 })] })); (pairGet s p).dead = some ⟨!b, none, false⟩ ∧ n ≤ (pairCfg s p).dtMax) ∧
    (let p : Nat := 0; let n : Nat := 9; let b : Bool := false; let s : State := inState .config; (pairGet s p).dead.all (fun d => d.toB == b || d.sensed.isSome || d.fixed || decide ((pairCfg s p).dtMax < n)) = true) ∧
    (let p : Nat := 0; let d : Dead := ⟨true, some 9, false⟩; let s : State := pairUpd 0 (fun x => { x with dead := some ⟨true, some 9, false⟩ }) (inState .config); (pairGet s p).dead = some d ∧ d.toB = true) ∧
    (let p : Nat := 0; let d : Dead := ⟨false, some 9, false⟩; let s : State := pairUpd 0 (fun x => { x with dead := some ⟨false, some 9, false⟩ }) (inState .config); (pairGet s p).dead = some d ∧ d.toB = false) ∧
    (let p : Nat := 0; let s : State := inState .config; (pairGet s p).dead = none) ∧
    (let n : Nat := 1; let s : State := (inState .config).onPwm (fun w => { w with cmp := [(1, { flags := 1, pmask := 1 })] }); n < 24 ∧ mprOk s = true ∧ bit (cmpCfg s n).flags 0 = true ∧ (bit (cmpCfg s n).flags 2 = false ∨ (s.dev.state ≠ .standby ∧ s.dev.state ≠ .deblocked ∧ s.dev.state ≠ .safeStop))) ∧
    (let n : Nat := 1; let s : State := (inState .deblocked).onPwm (fun w => { w with cmp := [(1, { flags := 5, pmask := 1 })] }); n < 24 ∧ mprOk s = true ∧ bit (cmpCfg s n).flags 0 = true ∧ bit (cmpCfg s n).flags 2 = true ∧ (s.dev.state = .standby ∨ s.dev.state = .deblocked ∨ s.dev.state = .safeStop)) ∧
    (let n : Nat := 1; let s : State := inState .config; (24 ≤ n ∨ mprOk s = false ∨ bit (cmpCfg s n).flags 0 = false)) := by
  iterate 17 refine And.intro (by intros; decide +kernel +zetaReduce) ?_
  intros; decide +kernel +zetaReduce

set_option maxRecDepth 20000 in
/-- States and operands that meet the hypotheses of LoopCommandsStageTheirChannel, clause by clause. -/
theorem test_witness_LoopCommandsStageTheirChannel :
    (let c : Cmd := cmd 1 40 [0, 0, 1, 0, 0, 0, 0, 0, 0, 0, 0, 0, 0, 0, 0, 0, 0, 0, 0, 0, 0, 0, 0, 0, 0, 0, 0, 0, 1]; let s : State := inState .config; let k : LoopCfg := { (loopShadow (inState .config) ((cmd 1 40 [0, 0, 1, 0, 0, 0, 0, 0, 0, 0, 0, 0, 0, 0, 0, 0, 0, 0, 0, 0, 0, 0, 0, 0, 0, 0, 0, 0, 1]).u16 0)) with form := (cmd 1 40 [0, 0, 1, 0, 0, 0, 0, 0, 0, 0, 0, 0, 0, 0, 0, 0, 0, 0, 0, 0, 0, 0, 0, 0, 0, 0, 0, 0, 1]).u8 2, ffmode := (cmd 1 40 [0, 0, 1, 0, 0, 0, 0, 0, 0, 0, 0, 0, 0, 0, 0, 0, 0, 0, 0, 0, 0, 0, 0, 0, 0, 0, 0, 0, 1]).u8 3, ref := (cmd 1 40 [0, 0, 1, 0, 0, 0, 0, 0, 0, 0, 0, 0, 0, 0, 0, 0, 0, 0, 0, 0, 0, 0, 0, 0, 0, 0, 0, 0, 1]).u16 4, fb := (cmd 1 40 [0, 0, 1, 0, 0, 0, 0, 0, 0, 0, 0, 0, 0, 0, 0, 0, 0, 0, 0, 0, 0, 0, 0, 0, 0, 0, 0, 0, 1]).u16 6, ffsrc := (cmd 1 40 [0, 0, 1, 0, 0, 0, 0, 0, 0, 0, 0, 0, 0, 0, 0, 0, 0, 0, 0, 0, 0, 0, 0, 0, 0, 0, 0, 0, 1]).u16 8, track := (cmd 1 40 [0, 0, 1, 0, 0, 0, 0, 0, 0, 0, 0, 0, 0, 0, 0, 0, 0, 0, 0, 0, 0, 0, 0, 0, 0, 0, 0, 0, 1]).u16 10, uhi := (cmd 1 40 [0, 0, 1, 0, 0, 0, 0, 0, 0, 0, 0, 0, 0, 0, 0, 0, 0, 0, 0, 0, 0, 0, 0, 0, 0, 0, 0, 0, 1]).s32 12, ulo := (cmd 1 40 [0, 0, 1, 0, 0, 0, 0, 0, 0, 0, 0, 0, 0, 0, 0, 0, 0, 0, 0, 0, 0, 0, 0, 0, 0, 0, 0, 0, 1]).s32 16, kb := (cmd 1 40 [0, 0, 1, 0, 0, 0, 0, 0, 0, 0, 0, 0, 0, 0, 0, 0, 0, 0, 0, 0, 0, 0, 0, 0, 0, 0, 0, 0, 1]).s32 20, kff := (cmd 1 40 [0, 0, 1, 0, 0, 0, 0, 0, 0, 0, 0, 0, 0, 0, 0, 0, 0, 0, 0, 0, 0, 0, 0, 0, 0, 0, 0, 0, 1]).s32 24, xmin := (cmd 1 40 [0, 0, 1, 0, 0, 0, 0, 0, 0, 0, 0, 0, 0, 0, 0, 0, 0, 0, 0, 0, 0, 0, 0, 0, 0, 0, 0, 0, 1]).s32 28, limscale := (cmd 1 40 [0, 0, 1, 0, 0, 0, 0, 0, 0, 0, 0, 0, 0, 0, 0, 0, 0, 0, 0, 0, 0, 0, 0, 0, 0, 0, 0, 0, 1]).u8 32, rconst := (cmd 1 40 [0, 0, 1, 0, 0, 0, 0, 0, 0, 0, 0, 0, 0, 0, 0, 0, 0, 0, 0, 0, 0, 0, 0, 0, 0, 0, 0, 0, 1]).s32 36 }; k = { (loopShadow s (c.u16 0)) with form := c.u8 2, ffmode := c.u8 3, ref := c.u16 4, fb := c.u16 6, ffsrc := c.u16 8, track := c.u16 10, uhi := c.s32 12, ulo := c.s32 16, kb := c.s32 20, kff := c.s32 24, xmin := c.s32 28, limscale := c.u8 32, rconst := c.s32 36 } ∧ Admits c s [.config, .standby, .blockedFault, .factoryTest] [.active, .standby] ∧ Inline c 40 ∧ isM2 s = false ∧ ctlOk s (c.u16 0 / 256 % 2) = true ∧ c.u16 0 < 512 ∧ c.u16 0 % 256 < loopChannels s.tick.len ∧ setHeld s 0 = false ∧ k.form < 64 ∧ k.ffmode < 3 ∧ [k.ref, k.fb, k.ffsrc, k.track].all (selOk s.tick.len) = true ∧ ffOk k.ffmode k.ffsrc = true ∧ k.ulo ≤ k.uhi ∧ 0 ≤ k.kb ∧ k.kb ≤ 536870912 ∧ 0 < k.xmin ∧ k.limscale < 4 ∧ c.rsv 33 3 = true ∧ (k.third = true ∨ (loopShadow s (c.u16 0)).coef.all (fun e => e.2.getD 3 0 == 0 && e.2.getD 6 0 == 0) = true) ∧ [k.ref, k.fb, k.ffsrc, k.track].all (selFit s (c.u16 0 / 256 % 2)) = true ∧ k.ulo ≤ k.usafe ∧ k.usafe ≤ k.uhi ∧ ((shadowChannels (stageLoop (c.u16 0) c k s) (c.u16 0 / 256 % 2)).filter LoopCfg.privileged).length ≤ 16 ∧ ((shadowChannels (stageLoop (c.u16 0) c k s) (c.u16 0 / 256 % 2)).filter LoopCfg.repetitive).length ≤ 192) ∧
    (let c : Cmd := cmd 1 40 [0, 0, 1, 0, 0, 0, 0, 0, 0, 0, 0, 0, 5, 0, 0, 0, 1, 0, 0, 0, 0, 0, 0, 0, 0, 0, 0, 0, 1]; let s : State := inState .config; let k : LoopCfg := { (loopShadow (inState .config) ((cmd 1 40 [0, 0, 1, 0, 0, 0, 0, 0, 0, 0, 0, 0, 5, 0, 0, 0, 1, 0, 0, 0, 0, 0, 0, 0, 0, 0, 0, 0, 1]).u16 0)) with form := (cmd 1 40 [0, 0, 1, 0, 0, 0, 0, 0, 0, 0, 0, 0, 5, 0, 0, 0, 1, 0, 0, 0, 0, 0, 0, 0, 0, 0, 0, 0, 1]).u8 2, ffmode := (cmd 1 40 [0, 0, 1, 0, 0, 0, 0, 0, 0, 0, 0, 0, 5, 0, 0, 0, 1, 0, 0, 0, 0, 0, 0, 0, 0, 0, 0, 0, 1]).u8 3, ref := (cmd 1 40 [0, 0, 1, 0, 0, 0, 0, 0, 0, 0, 0, 0, 5, 0, 0, 0, 1, 0, 0, 0, 0, 0, 0, 0, 0, 0, 0, 0, 1]).u16 4, fb := (cmd 1 40 [0, 0, 1, 0, 0, 0, 0, 0, 0, 0, 0, 0, 5, 0, 0, 0, 1, 0, 0, 0, 0, 0, 0, 0, 0, 0, 0, 0, 1]).u16 6, ffsrc := (cmd 1 40 [0, 0, 1, 0, 0, 0, 0, 0, 0, 0, 0, 0, 5, 0, 0, 0, 1, 0, 0, 0, 0, 0, 0, 0, 0, 0, 0, 0, 1]).u16 8, track := (cmd 1 40 [0, 0, 1, 0, 0, 0, 0, 0, 0, 0, 0, 0, 5, 0, 0, 0, 1, 0, 0, 0, 0, 0, 0, 0, 0, 0, 0, 0, 1]).u16 10, uhi := (cmd 1 40 [0, 0, 1, 0, 0, 0, 0, 0, 0, 0, 0, 0, 5, 0, 0, 0, 1, 0, 0, 0, 0, 0, 0, 0, 0, 0, 0, 0, 1]).s32 12, ulo := (cmd 1 40 [0, 0, 1, 0, 0, 0, 0, 0, 0, 0, 0, 0, 5, 0, 0, 0, 1, 0, 0, 0, 0, 0, 0, 0, 0, 0, 0, 0, 1]).s32 16, kb := (cmd 1 40 [0, 0, 1, 0, 0, 0, 0, 0, 0, 0, 0, 0, 5, 0, 0, 0, 1, 0, 0, 0, 0, 0, 0, 0, 0, 0, 0, 0, 1]).s32 20, kff := (cmd 1 40 [0, 0, 1, 0, 0, 0, 0, 0, 0, 0, 0, 0, 5, 0, 0, 0, 1, 0, 0, 0, 0, 0, 0, 0, 0, 0, 0, 0, 1]).s32 24, xmin := (cmd 1 40 [0, 0, 1, 0, 0, 0, 0, 0, 0, 0, 0, 0, 5, 0, 0, 0, 1, 0, 0, 0, 0, 0, 0, 0, 0, 0, 0, 0, 1]).s32 28, limscale := (cmd 1 40 [0, 0, 1, 0, 0, 0, 0, 0, 0, 0, 0, 0, 5, 0, 0, 0, 1, 0, 0, 0, 0, 0, 0, 0, 0, 0, 0, 0, 1]).u8 32, rconst := (cmd 1 40 [0, 0, 1, 0, 0, 0, 0, 0, 0, 0, 0, 0, 5, 0, 0, 0, 1, 0, 0, 0, 0, 0, 0, 0, 0, 0, 0, 0, 1]).s32 36 }; k = { (loopShadow s (c.u16 0)) with form := c.u8 2, ffmode := c.u8 3, ref := c.u16 4, fb := c.u16 6, ffsrc := c.u16 8, track := c.u16 10, uhi := c.s32 12, ulo := c.s32 16, kb := c.s32 20, kff := c.s32 24, xmin := c.s32 28, limscale := c.u8 32, rconst := c.s32 36 } ∧ Admits c s [.config, .standby, .blockedFault, .factoryTest] [.active, .standby] ∧ Inline c 40 ∧ isM2 s = false ∧ ctlOk s (c.u16 0 / 256 % 2) = true ∧ c.u16 0 < 512 ∧ c.u16 0 % 256 < loopChannels s.tick.len ∧ setHeld s 0 = false ∧ k.form < 64 ∧ k.ffmode < 3 ∧ [k.ref, k.fb, k.ffsrc, k.track].all (selOk s.tick.len) = true ∧ ffOk k.ffmode k.ffsrc = true ∧ k.ulo ≤ k.uhi ∧ 0 ≤ k.kb ∧ k.kb ≤ 536870912 ∧ 0 < k.xmin ∧ k.limscale < 4 ∧ c.rsv 33 3 = true ∧ (k.third = true ∨ (loopShadow s (c.u16 0)).coef.all (fun e => e.2.getD 3 0 == 0 && e.2.getD 6 0 == 0) = true) ∧ ([k.ref, k.fb, k.ffsrc, k.track].all (selFit s (c.u16 0 / 256 % 2)) = false ∨ k.usafe < k.ulo ∨ k.uhi < k.usafe)) ∧
    (let c : Cmd := cmd 1 40 [0, 0, 1, 0, 0, 0, 0, 0, 0, 0, 0, 0, 0, 0, 0, 0, 0, 0, 0, 0, 0, 0, 0, 0, 0, 0, 0, 0, 1]; let s : State := (inState .config).onLoop (fun l => { l with cfg := (List.range 17).map (fun n => (n + 1, { form := 1, ffmode := 1 })) }); let k : LoopCfg := { (loopShadow ((inState .config).onLoop (fun l => { l with cfg := (List.range 17).map (fun n => (n + 1, { form := 1, ffmode := 1 })) })) ((cmd 1 40 [0, 0, 1, 0, 0, 0, 0, 0, 0, 0, 0, 0, 0, 0, 0, 0, 0, 0, 0, 0, 0, 0, 0, 0, 0, 0, 0, 0, 1]).u16 0)) with form := (cmd 1 40 [0, 0, 1, 0, 0, 0, 0, 0, 0, 0, 0, 0, 0, 0, 0, 0, 0, 0, 0, 0, 0, 0, 0, 0, 0, 0, 0, 0, 1]).u8 2, ffmode := (cmd 1 40 [0, 0, 1, 0, 0, 0, 0, 0, 0, 0, 0, 0, 0, 0, 0, 0, 0, 0, 0, 0, 0, 0, 0, 0, 0, 0, 0, 0, 1]).u8 3, ref := (cmd 1 40 [0, 0, 1, 0, 0, 0, 0, 0, 0, 0, 0, 0, 0, 0, 0, 0, 0, 0, 0, 0, 0, 0, 0, 0, 0, 0, 0, 0, 1]).u16 4, fb := (cmd 1 40 [0, 0, 1, 0, 0, 0, 0, 0, 0, 0, 0, 0, 0, 0, 0, 0, 0, 0, 0, 0, 0, 0, 0, 0, 0, 0, 0, 0, 1]).u16 6, ffsrc := (cmd 1 40 [0, 0, 1, 0, 0, 0, 0, 0, 0, 0, 0, 0, 0, 0, 0, 0, 0, 0, 0, 0, 0, 0, 0, 0, 0, 0, 0, 0, 1]).u16 8, track := (cmd 1 40 [0, 0, 1, 0, 0, 0, 0, 0, 0, 0, 0, 0, 0, 0, 0, 0, 0, 0, 0, 0, 0, 0, 0, 0, 0, 0, 0, 0, 1]).u16 10, uhi := (cmd 1 40 [0, 0, 1, 0, 0, 0, 0, 0, 0, 0, 0, 0, 0, 0, 0, 0, 0, 0, 0, 0, 0, 0, 0, 0, 0, 0, 0, 0, 1]).s32 12, ulo := (cmd 1 40 [0, 0, 1, 0, 0, 0, 0, 0, 0, 0, 0, 0, 0, 0, 0, 0, 0, 0, 0, 0, 0, 0, 0, 0, 0, 0, 0, 0, 1]).s32 16, kb := (cmd 1 40 [0, 0, 1, 0, 0, 0, 0, 0, 0, 0, 0, 0, 0, 0, 0, 0, 0, 0, 0, 0, 0, 0, 0, 0, 0, 0, 0, 0, 1]).s32 20, kff := (cmd 1 40 [0, 0, 1, 0, 0, 0, 0, 0, 0, 0, 0, 0, 0, 0, 0, 0, 0, 0, 0, 0, 0, 0, 0, 0, 0, 0, 0, 0, 1]).s32 24, xmin := (cmd 1 40 [0, 0, 1, 0, 0, 0, 0, 0, 0, 0, 0, 0, 0, 0, 0, 0, 0, 0, 0, 0, 0, 0, 0, 0, 0, 0, 0, 0, 1]).s32 28, limscale := (cmd 1 40 [0, 0, 1, 0, 0, 0, 0, 0, 0, 0, 0, 0, 0, 0, 0, 0, 0, 0, 0, 0, 0, 0, 0, 0, 0, 0, 0, 0, 1]).u8 32, rconst := (cmd 1 40 [0, 0, 1, 0, 0, 0, 0, 0, 0, 0, 0, 0, 0, 0, 0, 0, 0, 0, 0, 0, 0, 0, 0, 0, 0, 0, 0, 0, 1]).s32 36 }; k = { (loopShadow s (c.u16 0)) with form := c.u8 2, ffmode := c.u8 3, ref := c.u16 4, fb := c.u16 6, ffsrc := c.u16 8, track := c.u16 10, uhi := c.s32 12, ulo := c.s32 16, kb := c.s32 20, kff := c.s32 24, xmin := c.s32 28, limscale := c.u8 32, rconst := c.s32 36 } ∧ Admits c s [.config, .standby, .blockedFault, .factoryTest] [.active, .standby] ∧ Inline c 40 ∧ isM2 s = false ∧ ctlOk s (c.u16 0 / 256 % 2) = true ∧ c.u16 0 < 512 ∧ c.u16 0 % 256 < loopChannels s.tick.len ∧ setHeld s 0 = false ∧ k.form < 64 ∧ k.ffmode < 3 ∧ [k.ref, k.fb, k.ffsrc, k.track].all (selOk s.tick.len) = true ∧ ffOk k.ffmode k.ffsrc = true ∧ k.ulo ≤ k.uhi ∧ 0 ≤ k.kb ∧ k.kb ≤ 536870912 ∧ 0 < k.xmin ∧ k.limscale < 4 ∧ c.rsv 33 3 = true ∧ (k.third = true ∨ (loopShadow s (c.u16 0)).coef.all (fun e => e.2.getD 3 0 == 0 && e.2.getD 6 0 == 0) = true) ∧ [k.ref, k.fb, k.ffsrc, k.track].all (selFit s (c.u16 0 / 256 % 2)) = true ∧ k.ulo ≤ k.usafe ∧ k.usafe ≤ k.uhi ∧ (16 < ((shadowChannels (stageLoop (c.u16 0) c k s) (c.u16 0 / 256 % 2)).filter LoopCfg.privileged).length ∨ 192 < ((shadowChannels (stageLoop (c.u16 0) c k s) (c.u16 0 / 256 % 2)).filter LoopCfg.repetitive).length)) ∧
    (let c : Cmd := cmd 1 32 [0, 0, 1, 0, 5]; let s : State := inState .config; let k : LoopCfg := { (loopShadow (inState .config) ((cmd 1 32 [0, 0, 1, 0, 5]).u16 0)) with coef := tset (loopShadow (inState .config) ((cmd 1 32 [0, 0, 1, 0, 5]).u16 0)).coef ((cmd 1 32 [0, 0, 1, 0, 5]).u8 2) ((List.range 7).map (fun n => (cmd 1 32 [0, 0, 1, 0, 5]).s32 (4 + 4 * n))) }; k = { (loopShadow s (c.u16 0)) with coef := tset (loopShadow s (c.u16 0)).coef (c.u8 2) ((List.range 7).map (fun n => c.s32 (4 + 4 * n))) } ∧ Admits c s [.config, .standby, .deblocked, .safeStop, .blockedFault, .factoryTest] [.active, .standby] ∧ Inline c 32 ∧ isM2 s = false ∧ ctlOk s (c.u16 0 / 256 % 2) = true ∧ c.u16 0 < 512 ∧ c.u16 0 % 256 < loopChannels s.tick.len ∧ setHeld s 0 = false ∧ c.u8 2 < 8 ∧ c.rsv 3 1 = true ∧ ((loopShadow s (c.u16 0)).third = true ∨ (c.s32 16 = 0 ∧ c.s32 28 = 0))) ∧
    (let c : Cmd := extCmd 1 (List.replicate 260 0); let s : State := inState .config; let k : LoopCfg := { (loopShadow (inState .config) ((extCmd 1 (List.replicate 260 0)).u16 0)) with q := (extCmd 1 (List.replicate 260 0)).u8 2, gains := (List.range 64).map (fun n => (extCmd 1 (List.replicate 260 0)).s32 (4 + 4 * n)) }; k = { (loopShadow s (c.u16 0)) with q := c.u8 2, gains := (List.range 64).map (fun n => c.s32 (4 + 4 * n)) } ∧ Admits c s [.config, .standby, .deblocked, .safeStop, .blockedFault, .factoryTest] [.active, .standby] ∧ External c (fun l => l == 260) ∧ isM2 s = false ∧ ctlOk s (c.u16 0 / 256 % 2) = true ∧ c.u16 0 < 512 ∧ c.u16 0 % 256 < loopChannels s.tick.len ∧ setHeld s 0 = false ∧ c.u8 2 ≤ 24 ∧ c.rsv 3 1 = true) ∧
    (let c : Cmd := cmd 1 40 [0, 0, 1]; let s : State := inState .config; let k : LoopCfg := { (loopShadow (inState .config) ((cmd 1 40 [0, 0, 1]).u16 0)) with regions := (cmd 1 40 [0, 0, 1]).u8 2, mag := (cmd 1 40 [0, 0, 1]).u8 3 == 1, sched := (cmd 1 40 [0, 0, 1]).u16 4, hyst := (cmd 1 40 [0, 0, 1]).s32 8, thetas := ((List.range 7).map (fun n => (cmd 1 40 [0, 0, 1]).s32 (12 + 4 * n))).take ((cmd 1 40 [0, 0, 1]).u8 2 - 1) }; k = { (loopShadow s (c.u16 0)) with regions := c.u8 2, mag := c.u8 3 == 1, sched := c.u16 4, hyst := c.s32 8, thetas := ((List.range 7).map (fun n => c.s32 (12 + 4 * n))).take (c.u8 2 - 1) } ∧ Admits c s [.config, .standby, .deblocked, .safeStop, .blockedFault, .factoryTest] [.active, .standby] ∧ Inline c 40 ∧ isM2 s = false ∧ ctlOk s (c.u16 0 / 256 % 2) = true ∧ c.u16 0 < 512 ∧ c.u16 0 % 256 < loopChannels s.tick.len ∧ setHeld s 0 = false ∧ 1 ≤ c.u8 2 ∧ c.u8 2 ≤ 8 ∧ c.u8 3 < 2 ∧ selOk s.tick.len (c.u16 4) = true ∧ (c.u8 2 = 1 ∨ 4096 ≤ c.u16 4) ∧ c.rsv 6 2 = true ∧ 0 ≤ c.s32 8 ∧ c.s32 8 ≤ one28 ∧ thetasOk (c.u8 2) ((List.range 7).map (fun n => c.s32 (12 + 4 * n))) = true ∧ selFit s (c.u16 0 / 256 % 2) (c.u16 4) = true) ∧
    (let c : Cmd := cmd 1 40 [0, 0, 1, 0, 0, 0x10]; let s : State := (inState .config).onPower (fun p => { p with dieFailed := [3] }); let k : LoopCfg := { (loopShadow ((inState .config).onPower (fun p => { p with dieFailed := [3] })) ((cmd 1 40 [0, 0, 1, 0, 0, 0x10]).u16 0)) with regions := (cmd 1 40 [0, 0, 1, 0, 0, 0x10]).u8 2, mag := (cmd 1 40 [0, 0, 1, 0, 0, 0x10]).u8 3 == 1, sched := (cmd 1 40 [0, 0, 1, 0, 0, 0x10]).u16 4, hyst := (cmd 1 40 [0, 0, 1, 0, 0, 0x10]).s32 8, thetas := ((List.range 7).map (fun n => (cmd 1 40 [0, 0, 1, 0, 0, 0x10]).s32 (12 + 4 * n))).take ((cmd 1 40 [0, 0, 1, 0, 0, 0x10]).u8 2 - 1) }; k = { (loopShadow s (c.u16 0)) with regions := c.u8 2, mag := c.u8 3 == 1, sched := c.u16 4, hyst := c.s32 8, thetas := ((List.range 7).map (fun n => c.s32 (12 + 4 * n))).take (c.u8 2 - 1) } ∧ Admits c s [.config, .standby, .deblocked, .safeStop, .blockedFault, .factoryTest] [.active, .standby] ∧ Inline c 40 ∧ isM2 s = false ∧ ctlOk s (c.u16 0 / 256 % 2) = true ∧ c.u16 0 < 512 ∧ c.u16 0 % 256 < loopChannels s.tick.len ∧ setHeld s 0 = false ∧ 1 ≤ c.u8 2 ∧ c.u8 2 ≤ 8 ∧ c.u8 3 < 2 ∧ selOk s.tick.len (c.u16 4) = true ∧ (c.u8 2 = 1 ∨ 4096 ≤ c.u16 4) ∧ c.rsv 6 2 = true ∧ 0 ≤ c.s32 8 ∧ c.s32 8 ≤ one28 ∧ thetasOk (c.u8 2) ((List.range 7).map (fun n => c.s32 (12 + 4 * n))) = true ∧ selFit s (c.u16 0 / 256 % 2) (c.u16 4) = false) ∧
    (let c : Cmd := cmd 1 20 []; let s : State := inState .config; let k : LoopCfg := { (loopShadow (inState .config) ((cmd 1 20 []).u16 0)) with rflags := (cmd 1 20 []).u8 2, lead := (cmd 1 20 []).u8 3, phase := (cmd 1 20 []).u16 4, kr := (cmd 1 20 []).s32 8, qf := (cmd 1 20 []).s32 12, mlim := (cmd 1 20 []).s32 16 }; k = { (loopShadow s (c.u16 0)) with rflags := c.u8 2, lead := c.u8 3, phase := c.u16 4, kr := c.s32 8, qf := c.s32 12, mlim := c.s32 16 } ∧ Admits c s [.config, .standby, .deblocked, .safeStop, .blockedFault, .factoryTest] [.active, .standby] ∧ Inline c 20 ∧ isM2 s = false ∧ ctlOk s (c.u16 0 / 256 % 2) = true ∧ c.u16 0 < 512 ∧ c.u16 0 % 256 < loopChannels s.tick.len ∧ setHeld s 0 = false ∧ c.u8 2 < 8 ∧ selOk s.tick.len (c.u16 4) = true ∧ (bit (c.u8 2) 0 = false ∨ 4096 ≤ c.u16 4) ∧ c.rsv 6 2 = true ∧ 0 ≤ c.s32 12 ∧ c.s32 12 ≤ 536870912 ∧ 0 ≤ c.s32 16 ∧ selFit s (c.u16 0 / 256 % 2) (c.u16 4) = true ∧ ((shadowChannels (stageLoop (c.u16 0) c k s) (c.u16 0 / 256 % 2)).filter LoopCfg.repetitive).length ≤ 192) ∧
    (let c : Cmd := cmd 1 20 [0, 0, 0, 0, 0, 0x10]; let s : State := (inState .config).onPower (fun p => { p with dieFailed := [3] }); let k : LoopCfg := { (loopShadow ((inState .config).onPower (fun p => { p with dieFailed := [3] })) ((cmd 1 20 [0, 0, 0, 0, 0, 0x10]).u16 0)) with rflags := (cmd 1 20 [0, 0, 0, 0, 0, 0x10]).u8 2, lead := (cmd 1 20 [0, 0, 0, 0, 0, 0x10]).u8 3, phase := (cmd 1 20 [0, 0, 0, 0, 0, 0x10]).u16 4, kr := (cmd 1 20 [0, 0, 0, 0, 0, 0x10]).s32 8, qf := (cmd 1 20 [0, 0, 0, 0, 0, 0x10]).s32 12, mlim := (cmd 1 20 [0, 0, 0, 0, 0, 0x10]).s32 16 }; k = { (loopShadow s (c.u16 0)) with rflags := c.u8 2, lead := c.u8 3, phase := c.u16 4, kr := c.s32 8, qf := c.s32 12, mlim := c.s32 16 } ∧ Admits c s [.config, .standby, .deblocked, .safeStop, .blockedFault, .factoryTest] [.active, .standby] ∧ Inline c 20 ∧ isM2 s = false ∧ ctlOk s (c.u16 0 / 256 % 2) = true ∧ c.u16 0 < 512 ∧ c.u16 0 % 256 < loopChannels s.tick.len ∧ setHeld s 0 = false ∧ c.u8 2 < 8 ∧ selOk s.tick.len (c.u16 4) = true ∧ (bit (c.u8 2) 0 = false ∨ 4096 ≤ c.u16 4) ∧ c.rsv 6 2 = true ∧ 0 ≤ c.s32 12 ∧ c.s32 12 ≤ 536870912 ∧ 0 ≤ c.s32 16 ∧ selFit s (c.u16 0 / 256 % 2) (c.u16 4) = false) ∧
    (let c : Cmd := cmd 1 20 [0, 0, 1, 0, 0, 0x10]; let s : State := (inState .config).onLoop (fun l => { l with cfg := (List.range 193).map (fun n => (n, { form := 1, rflags := 1 })) }); let k : LoopCfg := { (loopShadow ((inState .config).onLoop (fun l => { l with cfg := (List.range 193).map (fun n => (n, { form := 1, rflags := 1 })) })) ((cmd 1 20 [0, 0, 1, 0, 0, 0x10]).u16 0)) with rflags := (cmd 1 20 [0, 0, 1, 0, 0, 0x10]).u8 2, lead := (cmd 1 20 [0, 0, 1, 0, 0, 0x10]).u8 3, phase := (cmd 1 20 [0, 0, 1, 0, 0, 0x10]).u16 4, kr := (cmd 1 20 [0, 0, 1, 0, 0, 0x10]).s32 8, qf := (cmd 1 20 [0, 0, 1, 0, 0, 0x10]).s32 12, mlim := (cmd 1 20 [0, 0, 1, 0, 0, 0x10]).s32 16 }; k = { (loopShadow s (c.u16 0)) with rflags := c.u8 2, lead := c.u8 3, phase := c.u16 4, kr := c.s32 8, qf := c.s32 12, mlim := c.s32 16 } ∧ Admits c s [.config, .standby, .deblocked, .safeStop, .blockedFault, .factoryTest] [.active, .standby] ∧ Inline c 20 ∧ isM2 s = false ∧ ctlOk s (c.u16 0 / 256 % 2) = true ∧ c.u16 0 < 512 ∧ c.u16 0 % 256 < loopChannels s.tick.len ∧ setHeld s 0 = false ∧ c.u8 2 < 8 ∧ selOk s.tick.len (c.u16 4) = true ∧ (bit (c.u8 2) 0 = false ∨ 4096 ≤ c.u16 4) ∧ c.rsv 6 2 = true ∧ 0 ≤ c.s32 12 ∧ c.s32 12 ≤ 536870912 ∧ 0 ≤ c.s32 16 ∧ selFit s (c.u16 0 / 256 % 2) (c.u16 4) = true ∧ 192 < ((shadowChannels (stageLoop (c.u16 0) c k s) (c.u16 0 / 256 % 2)).filter LoopCfg.repetitive).length) ∧
    (let c : Cmd := cmd 1 20 [0, 0, 4, 0, 0, 0, 0, 0, 0, 0, 0, 0, 0, 0, 0, 0, 1]; let s : State := inState .config; let k : LoopCfg := { (loopShadow (inState .config) ((cmd 1 20 [0, 0, 4, 0, 0, 0, 0, 0, 0, 0, 0, 0, 0, 0, 0, 0, 1]).u16 0)) with nfrz := (cmd 1 20 [0, 0, 4, 0, 0, 0, 0, 0, 0, 0, 0, 0, 0, 0, 0, 0, 1]).u8 2, ht := (cmd 1 20 [0, 0, 4, 0, 0, 0, 0, 0, 0, 0, 0, 0, 0, 0, 0, 0, 1]).u8 3, fbk := (cmd 1 20 [0, 0, 4, 0, 0, 0, 0, 0, 0, 0, 0, 0, 0, 0, 0, 0, 1]).u8 4, sflags := (cmd 1 20 [0, 0, 4, 0, 0, 0, 0, 0, 0, 0, 0, 0, 0, 0, 0, 0, 1]).u8 5, satTime := (cmd 1 20 [0, 0, 4, 0, 0, 0, 0, 0, 0, 0, 0, 0, 0, 0, 0, 0, 1]).u16 6, satAct := (cmd 1 20 [0, 0, 4, 0, 0, 0, 0, 0, 0, 0, 0, 0, 0, 0, 0, 0, 1]).u8 8, usafe := (cmd 1 20 [0, 0, 4, 0, 0, 0, 0, 0, 0, 0, 0, 0, 0, 0, 0, 0, 1]).s32 12, rfb := (cmd 1 20 [0, 0, 4, 0, 0, 0, 0, 0, 0, 0, 0, 0, 0, 0, 0, 0, 1]).s32 16 }; k = { (loopShadow s (c.u16 0)) with nfrz := c.u8 2, ht := c.u8 3, fbk := c.u8 4, sflags := c.u8 5, satTime := c.u16 6, satAct := c.u8 8, usafe := c.s32 12, rfb := c.s32 16 } ∧ Admits c s [.config, .standby, .deblocked, .safeStop, .blockedFault, .factoryTest] [.active, .standby] ∧ Inline c 20 ∧ isM2 s = false ∧ ctlOk s (c.u16 0 / 256 % 2) = true ∧ c.u16 0 < 512 ∧ c.u16 0 % 256 < loopChannels s.tick.len ∧ setHeld s 0 = false ∧ 4 ≤ c.u8 2 ∧ c.u8 3 ≤ 64 ∧ c.u8 4 < 3 ∧ c.u8 5 < 16 ∧ c.u8 8 < 2 ∧ c.rsv 9 3 = true ∧ (loopShadow s (c.u16 0)).ulo ≤ c.s32 12 ∧ c.s32 12 ≤ (loopShadow s (c.u16 0)).uhi ∧ 0 < c.s32 16 ∧ c.s32 16 ≤ one28) ∧
    (let c : Cmd := cmd 1 12 [0, 0, 1, 0, 64]; let s : State := inState .config; Serving s ∧ Inline c 12 ∧ c.mb ≠ 0 ∧ isM2 s = false ∧ ctlOk s (c.u16 0 / 256 % 2) = true ∧ c.u16 0 < 512 ∧ 1 ≤ c.u16 2 ∧ c.u16 0 % 256 + c.u16 2 ≤ loopChannels s.tick.len ∧ c.u64 4 % 64 = 0 ∧ c.u64 4 ≠ 0) ∧
    (let c : Cmd := cmd 1 12 [0, 0, 1]; let s : State := inState .config; Serving s ∧ Inline c 12 ∧ c.mb ≠ 0 ∧ isM2 s = false ∧ ctlOk s (c.u16 0 / 256 % 2) = true ∧ c.u16 0 < 512 ∧ 1 ≤ c.u16 2 ∧ c.u16 0 % 256 + c.u16 2 ≤ loopChannels s.tick.len ∧ c.u64 4 = 0) ∧
    (let c : Cmd := cmd 1 40 []; let s : State := asM2 (inState .config); Serving s ∧ c.mb ≠ 0 ∧ Inline c 40 ∧ (isM2 s = true ∨ ctlOk s (c.u16 0 / 256 % 2) = false)) ∧
    (let c : Cmd := cmd 1 32 []; let s : State := asM2 (inState .config); Serving s ∧ c.mb ≠ 0 ∧ Inline c 32 ∧ (isM2 s = true ∨ ctlOk s (c.u16 0 / 256 % 2) = false)) ∧
    (let c : Cmd := extCmd 1 (List.replicate 260 0); let s : State := asM2 (inState .config); Serving s ∧ c.mb ≠ 0 ∧ External c (fun l => l == 260) ∧ (isM2 s = true ∨ ctlOk s (c.u16 0 / 256 % 2) = false)) ∧
    (let c : Cmd := cmd 1 40 []; let s : State := asM2 (inState .config); Serving s ∧ c.mb ≠ 0 ∧ Inline c 40 ∧ (isM2 s = true ∨ ctlOk s (c.u16 0 / 256 % 2) = false)) ∧
    (let c : Cmd := cmd 1 20 []; let s : State := asM2 (inState .config); Serving s ∧ c.mb ≠ 0 ∧ Inline c 20 ∧ (isM2 s = true ∨ ctlOk s (c.u16 0 / 256 % 2) = false)) ∧
    (let c : Cmd := cmd 1 20 []; let s : State := asM2 (inState .config); Serving s ∧ c.mb ≠ 0 ∧ Inline c 20 ∧ (isM2 s = true ∨ ctlOk s (c.u16 0 / 256 % 2) = false)) ∧
    (let c : Cmd := cmd 1 12 []; let s : State := asM2 (inState .config); Serving s ∧ c.mb ≠ 0 ∧ Inline c 12 ∧ (isM2 s = true ∨ ctlOk s (c.u16 0 / 256 % 2) = false)) := by
  iterate 19 refine And.intro (by intros; decide +kernel +zetaReduce) ?_
  intros; decide +kernel +zetaReduce

set_option maxRecDepth 20000 in
/-- States and operands that meet the hypotheses of LoopEventsSuperviseTheChannel, clause by clause. -/
theorem test_witness_LoopEventsSuperviseTheChannel :
    (let l : Nat := 0; let s : State := loopUpd 0 (fun x => { x with mode := .hold, spent := 64 }) (inState .deblocked); (loopGet s l).mode = .hold ∧ (loopCfg s l).ht ≤ (loopGet s l).spent ∧ (loopGet s l).good = 0) ∧
    (let l : Nat := 0; let s : State := loopUpd 0 (fun x => { x with mode := .run }) (inState .deblocked); ((loopGet s l).mode ≠ .hold ∨ (loopGet s l).spent < (loopCfg s l).ht ∨ (loopGet s l).good ≠ 0)) ∧
    (let l : Nat := 0; let s : State := (loopUpd 0 (fun x => { x with mode := .run, sat := 5 }) (inState .deblocked)).onLoop (fun x => { x with cfg := [(0, { form := 1, satTime := 5, satAct := 0 })] }); (loopGet s l).mode = .run ∧ 0 < (loopCfg s l).satTime ∧ (loopCfg s l).satTime ≤ (loopGet s l).sat ∧ (loopGet s l).satDone = false ∧ (loopCfg s l).satAct ≠ 1) ∧
    (let l : Nat := 0; let s : State := (loopUpd 0 (fun x => { x with mode := .run, sat := 5 }) (inState .deblocked)).onLoop (fun x => { x with cfg := [(0, { form := 1, satTime := 5, satAct := 1 })] }); (loopGet s l).mode = .run ∧ 0 < (loopCfg s l).satTime ∧ (loopCfg s l).satTime ≤ (loopGet s l).sat ∧ (loopGet s l).satDone = false ∧ (loopCfg s l).satAct = 1) ∧
    (let l : Nat := 0; let s : State := inState .config; ((loopGet s l).mode ≠ .run ∨ (loopCfg s l).satTime = 0 ∨ (loopGet s l).sat < (loopCfg s l).satTime ∨ (loopGet s l).satDone = true)) ∧
    (let l : Nat := 0; let s : State := (loopUpd 0 (fun x => { x with mode := .fbHold, good := 64 }) (inState .deblocked)).onLoop (fun x => { x with cfg := [(0, { form := 1, sflags := 4 })] }); ((loopGet s l).mode = .fbHold ∨ (loopGet s l).mode = .fbRamp) ∧ bit (loopCfg s l).sflags 2 = true ∧ 64 ≤ (loopGet s l).good) ∧
    (let l : Nat := 0; let s : State := inState .config; (((loopGet s l).mode ≠ .fbHold ∧ (loopGet s l).mode ≠ .fbRamp) ∨ bit (loopCfg s l).sflags 2 = false ∨ (loopGet s l).good < 64)) := by
  iterate 6 refine And.intro (by intros; decide +kernel +zetaReduce) ?_
  intros; decide +kernel +zetaReduce

set_option maxRecDepth 20000 in
/-- States and operands that meet the hypotheses of TileCommandsLoadBindAndRead, clause by clause. -/
theorem test_witness_TileCommandsLoadBindAndRead :
    (let c : Cmd := extCmd 1 kernelBlock; let s : State := inState .config; Admits c s [.config, .factoryTest] [.active, .standby] ∧ External c (fun l => if imageLens c.params then l == imageSize c.params else 52 ≤ l && l ≤ 42016) ∧ imageOk c.params = true ∧ isM2 s = false ∧ 0 < c.u8 0 ∧ c.u8 0 < 4 ∧ ([0, 1].filter (bit (c.u8 0))).all (ctlOk s) = true ∧ c.rsv 1 3 = true ∧ ([0, 1].filter (bit (c.u8 0))).any (fun d => held s (.kernels d)) = false ∧ setHeld s 3 = false ∧ pendCount s c.mb < 8 ∧ s.dev.paired = false ∧ ([0, 1].filter (bit (c.u8 0))).any (fun d => (dieGet s d).bind.any (fun b => b.2.kid != 0 && b.2.kid < 0x8000)) = false ∧ (crc32c ((c.params.drop 4).take (imageSize c.params - 8))).toNat = rd c.params (imageSize c.params - 4) 4) ∧
    (let c : Cmd := extCmd 1 kernelBlock; let s : State := paired (inState .config); Admits c s [.config, .factoryTest] [.active, .standby] ∧ External c (fun l => if imageLens c.params then l == imageSize c.params else 52 ≤ l && l ≤ 42016) ∧ imageOk c.params = true ∧ isM2 s = false ∧ 0 < c.u8 0 ∧ c.u8 0 < 4 ∧ ([0, 1].filter (bit (c.u8 0))).all (ctlOk s) = true ∧ c.rsv 1 3 = true ∧ ([0, 1].filter (bit (c.u8 0))).any (fun d => held s (.kernels d)) = false ∧ setHeld s 3 = false ∧ pendCount s c.mb < 8 ∧ (s.dev.paired = true ∨ ([0, 1].filter (bit (c.u8 0))).any (fun d => (dieGet s d).bind.any (fun b => b.2.kid != 0 && b.2.kid < 0x8000)) = true)) ∧
    (let c : Cmd := extCmd 1 kernelBad; let s : State := inState .config; Admits c s [.config, .factoryTest] [.active, .standby] ∧ External c (fun l => if imageLens c.params then l == imageSize c.params else 52 ≤ l && l ≤ 42016) ∧ imageOk c.params = true ∧ isM2 s = false ∧ 0 < c.u8 0 ∧ c.u8 0 < 4 ∧ ([0, 1].filter (bit (c.u8 0))).all (ctlOk s) = true ∧ c.rsv 1 3 = true ∧ ([0, 1].filter (bit (c.u8 0))).any (fun d => held s (.kernels d)) = false ∧ setHeld s 3 = false ∧ pendCount s c.mb < 8 ∧ s.dev.paired = false ∧ ([0, 1].filter (bit (c.u8 0))).any (fun d => (dieGet s d).bind.any (fun b => b.2.kid != 0 && b.2.kid < 0x8000)) = false ∧ (crc32c ((c.params.drop 4).take (imageSize c.params - 8))).toNat ≠ rd c.params (imageSize c.params - 4) 4) ∧
    (let c : Cmd := extCmd 1 (List.replicate 88 0); let s : State := inState .config; Admits c s [.config, .standby, .deblocked, .safeStop, .blockedFault, .factoryTest] [.active, .standby] ∧ External c (fun l => l == 88) ∧ c.u8 0 < 2 ∧ ctlFit s (c.u8 0) = true ∧ c.u8 1 < 64 ∧ ((readBinding c).kid ≤ 0x7FFF ∨ (0x8001 ≤ (readBinding c).kid ∧ (readBinding c).kid ≤ 0x80FF)) ∧ held s (.kernels (c.u8 0)) = false ∧ setHeld s 3 = false ∧ (readBinding c).flow < 64 ∧ (readBinding c).bflags < 4 ∧ c.rsv 7 1 = true ∧ c.rsv 18 2 = true ∧ (readBinding c).maxc ≤ 1000000 ∧ bindConflict s (c.u8 0) (c.u8 1) (readBinding c) = false) ∧
    (let c : Cmd := extCmd 1 ([0, 0, 5, 0] ++ List.replicate 84 0); let s : State := inState .config; Admits c s [.config, .standby, .deblocked, .safeStop, .blockedFault, .factoryTest] [.active, .standby] ∧ External c (fun l => l == 88) ∧ c.u8 0 < 2 ∧ ctlFit s (c.u8 0) = true ∧ c.u8 1 < 64 ∧ ((readBinding c).kid ≤ 0x7FFF ∨ (0x8001 ≤ (readBinding c).kid ∧ (readBinding c).kid ≤ 0x80FF)) ∧ held s (.kernels (c.u8 0)) = false ∧ setHeld s 3 = false ∧ (readBinding c).flow < 64 ∧ (readBinding c).bflags < 4 ∧ c.rsv 7 1 = true ∧ c.rsv 18 2 = true ∧ (readBinding c).maxc ≤ 1000000 ∧ bindConflict s (c.u8 0) (c.u8 1) (readBinding c) = true) ∧
    (let c : Cmd := cmd 1 12 []; let s : State := inState .config; Serving s ∧ Inline c 12 ∧ c.mb ≠ 0 ∧ c.u8 0 < 2 ∧ ctlFit s (c.u8 0) = true ∧ c.rsv 1 3 = true ∧ c.u64 4 = 0) ∧
    (let c : Cmd := cmd 1 12 [0, 0, 0, 0, 64]; let s : State := inState .config; Serving s ∧ Inline c 12 ∧ c.mb ≠ 0 ∧ c.u8 0 < 2 ∧ ctlFit s (c.u8 0) = true ∧ c.rsv 1 3 = true ∧ c.u64 4 % 64 = 0 ∧ c.u64 4 ≠ 0) ∧
    (let c : Cmd := cmd 1 12 []; let s : State := inState .config; Serving s ∧ Inline c 12 ∧ c.mb ≠ 0 ∧ c.u8 0 < 2 ∧ ctlFit s (c.u8 0) = true ∧ c.rsv 1 3 = true ∧ c.u64 4 = 0) ∧
    (let c : Cmd := cmd 1 12 [0, 0, 0, 0, 64]; let s : State := inState .config; Serving s ∧ Inline c 12 ∧ c.mb ≠ 0 ∧ c.u8 0 < 2 ∧ ctlFit s (c.u8 0) = true ∧ c.rsv 1 3 = true ∧ c.u64 4 % 64 = 0 ∧ c.u64 4 ≠ 0) ∧
    (let c : Cmd := extCmd 1 (List.replicate 88 0); let s : State := asM2 (inState .config); Serving s ∧ c.mb ≠ 0 ∧ External c (fun l => l == 88) ∧ isM2 s = true) ∧
    (let c : Cmd := cmd 1 12 []; let s : State := asM2 (inState .config); Serving s ∧ c.mb ≠ 0 ∧ Inline c 12 ∧ isM2 s = true) ∧
    (let c : Cmd := cmd 1 12 []; let s : State := asM2 (inState .config); Serving s ∧ c.mb ≠ 0 ∧ Inline c 12 ∧ isM2 s = true) := by
  iterate 11 refine And.intro (by intros; decide +kernel +zetaReduce) ?_
  intros; decide +kernel +zetaReduce

set_option maxRecDepth 20000 in
/-- States and operands that meet the hypotheses of TileEventsAbortAndRepair, clause by clause. -/
theorem test_witness_TileEventsAbortAndRepair :
    (let d : Nat := 0; let t : Nat := 0; let s : State := runningTile 0; (tileGet s d t).item.isSome = true ∧ (tileGet s d t).limit ≤ (tileGet s d t).cycles) ∧
    (let d : Nat := 0; let t : Nat := 0; let s : State := inState .config; ((tileGet s d t).item = none ∨ (tileGet s d t).cycles < (tileGet s d t).limit)) ∧
    (let d : Nat := 0; let t : Nat := 0; let s : State := inState .config; ctlOk s d = true ∧ t < 18) ∧
    (let d : Nat := 0; let t : Nat := 0; let s : State := inState .config; ctlOk s d = true ∧ t < 18) ∧
    (let d : Nat := 0; let t : Nat := 18; let s : State := inState .config; (ctlOk s d = false ∨ 18 ≤ t)) := by
  iterate 4 refine And.intro (by intros; decide +kernel +zetaReduce) ?_
  intros; decide +kernel +zetaReduce

set_option maxRecDepth 20000 in
/-- States and operands that meet the hypotheses of DispatcherCommandsAndEvents, clause by clause. -/
theorem test_witness_DispatcherCommandsAndEvents :
    (let c : Cmd := cmd 1 44 [0, 3, 0, 0, 0, 1, 1, 0, 0, 0, 0, 0, 1]; let s : State := inState .config; let u : State := stage 4 (cmd 1 44 [0, 3, 0, 0, 0, 1, 1, 0, 0, 0, 0, 0, 1]).params (dieUpd 0 (fun x => { x with flowNew := tset x.flowNew 3 (readFlow (cmd 1 44 [0, 3, 0, 0, 0, 1, 1, 0, 0, 0, 0, 0, 1])) }) (inState .config)); u = stage 4 c.params (dieUpd (c.u8 0) (fun x => { x with flowNew := tset x.flowNew (c.u8 1) (readFlow c) }) s) ∧ Admits c s [.config, .standby, .deblocked, .safeStop, .blockedFault, .factoryTest] [.active, .standby] ∧ Inline c 44 ∧ c.u8 0 < 2 ∧ ctlFit s (c.u8 0) = true ∧ (s.dev.variant ≠ .m3 ∨ pairEvent (readFlow c) = false) ∧ setHeld s 4 = false ∧ c.u8 1 < 64 ∧ flowOk (readFlow c) = true ∧ flowConflict s (c.u8 0) (c.u8 1) (readFlow c) = false ∧ (((List.range 64).map (flowShadow u (c.u8 0))).map (·.res)).sum ≤ 512) ∧
    (let c : Cmd := cmd 1 44 [0, 3, 0, 0, 0, 1, 1, 0, 0, 0, 2, 0, 1]; let s : State := inState .config; Admits c s [.config, .standby, .deblocked, .safeStop, .blockedFault, .factoryTest] [.active, .standby] ∧ Inline c 44 ∧ c.u8 0 < 2 ∧ ctlFit s (c.u8 0) = true ∧ (s.dev.variant ≠ .m3 ∨ pairEvent (readFlow c) = false) ∧ setHeld s 4 = false ∧ c.u8 1 < 64 ∧ flowOk (readFlow c) = true ∧ flowConflict s (c.u8 0) (c.u8 1) (readFlow c) = true) ∧
    (let c : Cmd := cmd 1 44 [0, 3, 0, 0, 0, 1, 1, 0, 0, 0, 1, 0, 1]; let s : State := dieUpd 0 (fun x => { x with flow := [(5, { arity := 1, res := 512, max := 512 })] }) (inState .config); let u : State := stage 4 (cmd 1 44 [0, 3, 0, 0, 0, 1, 1, 0, 0, 0, 1, 0, 1]).params (dieUpd 0 (fun x => { x with flowNew := tset x.flowNew 3 (readFlow (cmd 1 44 [0, 3, 0, 0, 0, 1, 1, 0, 0, 0, 1, 0, 1])) }) (dieUpd 0 (fun x => { x with flow := [(5, { arity := 1, res := 512, max := 512 })] }) (inState .config))); u = stage 4 c.params (dieUpd (c.u8 0) (fun x => { x with flowNew := tset x.flowNew (c.u8 1) (readFlow c) }) s) ∧ Admits c s [.config, .standby, .deblocked, .safeStop, .blockedFault, .factoryTest] [.active, .standby] ∧ Inline c 44 ∧ c.u8 0 < 2 ∧ ctlFit s (c.u8 0) = true ∧ (s.dev.variant ≠ .m3 ∨ pairEvent (readFlow c) = false) ∧ setHeld s 4 = false ∧ c.u8 1 < 64 ∧ flowOk (readFlow c) = true ∧ flowConflict s (c.u8 0) (c.u8 1) (readFlow c) = false ∧ 512 < (((List.range 64).map (flowShadow u (c.u8 0))).map (·.res)).sum) ∧
    (let c : Cmd := cmd 1 4 [1, 2, 3]; let s : State := inState .config; Admits c s [.config, .standby, .deblocked, .safeStop, .blockedFault, .factoryTest] [.active, .standby] ∧ Inline c 4 ∧ anyCtl s = true ∧ setHeld s 4 = false ∧ c.u8 0 < 8 ∧ 2 ≤ c.u8 1 ∧ c.u8 1 ≤ 5 ∧ 1 ≤ c.u8 2 ∧ c.u8 2 ≤ 16 ∧ c.rsv 3 1 = true) ∧
    (let c : Cmd := cmd 1 12 [0, 3, 2, 0, 7]; let s : State := withFlow (inState .config); Admits c s [.config, .standby, .deblocked, .safeStop, .blockedFault, .factoryTest] [.active, .standby] ∧ Inline c 12 ∧ c.u8 0 < 2 ∧ ctlFit s (c.u8 0) = true ∧ c.u8 1 < 64 ∧ c.u8 2 < 3 ∧ c.rsv 3 1 = true ∧ held s (.flow (flowObj (c.u8 0) (c.u8 1))) = false ∧ (flowCfg s (c.u8 0) (c.u8 1)).arity ≠ 0) ∧
    (let c : Cmd := cmd 1 12 [0, 3]; let s : State := inState .config; Admits c s [.config, .standby, .deblocked, .safeStop, .blockedFault, .factoryTest] [.active, .standby] ∧ Inline c 12 ∧ c.u8 0 < 2 ∧ ctlFit s (c.u8 0) = true ∧ c.u8 1 < 64 ∧ c.u8 2 < 3 ∧ c.rsv 3 1 = true ∧ held s (.flow (flowObj (c.u8 0) (c.u8 1))) = false ∧ (flowCfg s (c.u8 0) (c.u8 1)).arity = 0) ∧
    (let c : Cmd := cmd 1 12 [0, 1, 0, 0, 64]; let s : State := inState .config; Serving s ∧ Inline c 12 ∧ c.mb ≠ 0 ∧ c.u8 0 < 2 ∧ ctlFit s (c.u8 0) = true ∧ c.u8 1 < 3 ∧ c.rsv 2 2 = true ∧ c.u64 4 % 64 = 0 ∧ c.u64 4 ≠ 0) ∧
    (let c : Cmd := cmd 1 12 [0, 2]; let s : State := inState .config; Serving s ∧ Inline c 12 ∧ c.mb ≠ 0 ∧ c.u8 0 < 2 ∧ ctlFit s (c.u8 0) = true ∧ c.u8 1 < 3 ∧ c.rsv 2 2 = true ∧ c.u64 4 = 0) ∧
    (let d : Nat := 0; let t : Nat := 0; let i : Item := anItem; let s : State := queued anItem; firstItem s d = some i ∧ idleTile s d = some t) ∧
    (let d : Nat := 0; let s : State := inState .config; (firstItem s d = none ∨ idleTile s d = none)) ∧
    (let d : Nat := 0; let i : Item := { anItem with ended := true }; let r : FlowAt := ⟨3, 1⟩; let s : State := queued { anItem with ended := true }; dueItem s d r.flow = some i) ∧
    (let d : Nat := 0; let r : FlowAt := ⟨3, 0⟩; let s : State := inState .config; dueItem s d r.flow = none) ∧
    (let d : Nat := 0; let f : Nat := 3; let q : Nat := 0; let i : Item := { anItem with ready := false }; let s : State := (queued { anItem with ready := false }).onLink (fun l => { l with crossing := 100 }); ((dieGet s d).items.find? (fun j => j.flow == f && j.seq == q)) = some i ∧ replaying s = false ∧ i.ready = false ∧ i.made + (flowCfg s d f).twait ≤ s.link.crossing) ∧
    (let d : Nat := 0; let f : Nat := 3; let q : Nat := 0; let s : State := queued anItem; ((dieGet s d).items.find? (fun j => j.flow == f && j.seq == q)).all (fun i => replaying s || i.ready || decide (s.link.crossing < i.made + (flowCfg s d f).twait)) = true) ∧
    (let d : Nat := 0; let s : State := dieUpd 0 (fun x => { x with calm := 1024, shed := 2 }) (inState .config); replaying s = false ∧ 1024 ≤ (dieGet s d).calm ∧ 0 < (dieGet s d).shed) ∧
    (let d : Nat := 0; let s : State := inState .config; (replaying s = true ∨ (dieGet s d).calm < 1024 ∨ (dieGet s d).shed = 0)) ∧
    (let d : Nat := 0; let p : Nat := 2; let n : Nat := 1; let e : Binding := aBinding; let s : State := agedPort; ((dieGet s d).bind.find? (fun b => b.2.kid != 0 && bit b.2.rports p)) = some (n, e) ∧ (tget {} (dieGet s d).rports p : TPort).ok = true ∧ 0 < (flowCfg s d e.flow).age ∧ (flowCfg s d e.flow).age ≤ (tget {} (dieGet s d).rports p : TPort).age) ∧
    (let d : Nat := 0; let p : Nat := 0; let s : State := inState .config; ((dieGet s d).bind.find? (fun b => b.2.kid != 0 && bit b.2.rports p)).all (fun e => !(tget {} (dieGet s d).rports p : TPort).ok || (flowCfg s d e.2.flow).age == 0 || decide ((tget {} (dieGet s d).rports p : TPort).age < (flowCfg s d e.2.flow).age)) = true) := by
  iterate 17 refine And.intro (by intros; decide +kernel +zetaReduce) ?_
  intros; decide +kernel +zetaReduce

set_option maxRecDepth 20000 in
/-- States and operands that meet the hypotheses of TileArithmeticWritesItsResult, clause by clause. -/
theorem test_witness_TileArithmeticWritesItsResult :
    (let d : Nat := 0; let t : Nat := 0; let w : Word32 := 0x20000000; let i : Item := tItem; let s : State := aTile; Issues s d t w 8 0x3FFF i) ∧
    (let d : Nat := 0; let t : Nat := 0; let w : Word32 := 0x24000000; let i : Item := tItem; let s : State := aTile; Issues s d t w 9 0x3FFF i) ∧
    (let d : Nat := 0; let t : Nat := 0; let w : Word32 := 0x28000000; let i : Item := tItem; let s : State := aTile; Issues s d t w 10 0x3FFF i) ∧
    (let d : Nat := 0; let t : Nat := 0; let w : Word32 := 0x2c000000; let i : Item := tItem; let s : State := aTile; Issues s d t w 11 0x3FFF i) ∧
    (let d : Nat := 0; let t : Nat := 0; let w : Word32 := 0x44000000; let i : Item := tItem; let s : State := aTile; Issues s d t w 17 0x3FFFF i) ∧
    (let d : Nat := 0; let t : Nat := 0; let w : Word32 := 0x48000000; let i : Item := tItem; let s : State := aTile; Issues s d t w 18 0x3FFFF i) ∧
    (let d : Nat := 0; let t : Nat := 0; let w : Word32 := 0x54000000; let i : Item := tItem; let s : State := aTile; Issues s d t w 21 0x3C03FFF i) ∧
    (let d : Nat := 0; let t : Nat := 0; let w : Word32 := 0x60000000; let i : Item := tItem; let s : State := aTile; Issues s d t w 24 0 i) ∧
    (let d : Nat := 0; let t : Nat := 0; let w : Word32 := 0xec000000; let i : Item := tItem; let s : State := aTile; Issues s d t w 59 0x3FFFF i) ∧
    (let d : Nat := 0; let t : Nat := 0; let w : Word32 := 0x20000001; let i : Item := tItem; let s : State := aTile; Misformed s d t w 8 0x3FFF i) ∧
    (let d : Nat := 0; let t : Nat := 0; let w : Word32 := 0x24000001; let i : Item := tItem; let s : State := aTile; Misformed s d t w 9 0x3FFF i) ∧
    (let d : Nat := 0; let t : Nat := 0; let w : Word32 := 0x28000001; let i : Item := tItem; let s : State := aTile; Misformed s d t w 10 0x3FFF i) ∧
    (let d : Nat := 0; let t : Nat := 0; let w : Word32 := 0x2c000001; let i : Item := tItem; let s : State := aTile; Misformed s d t w 11 0x3FFF i) ∧
    (let d : Nat := 0; let t : Nat := 0; let w : Word32 := 0x44000001; let i : Item := tItem; let s : State := aTile; Misformed s d t w 17 0x3FFFF i) ∧
    (let d : Nat := 0; let t : Nat := 0; let w : Word32 := 0x48000001; let i : Item := tItem; let s : State := aTile; Misformed s d t w 18 0x3FFFF i) ∧
    (let d : Nat := 0; let t : Nat := 0; let w : Word32 := 0x54000001; let i : Item := tItem; let s : State := aTile; Misformed s d t w 21 0x3C03FFF i) ∧
    (let d : Nat := 0; let t : Nat := 0; let w : Word32 := 0xec000001; let i : Item := tItem; let s : State := aTile; Misformed s d t w 59 0x3FFFF i) := by
  iterate 16 refine And.intro (by intros; decide +kernel +zetaReduce) ?_
  intros; decide +kernel +zetaReduce

set_option maxRecDepth 20000 in
/-- States and operands that meet the hypotheses of TileBitsAndMovesWriteTheirRegister, clause by clause. -/
theorem test_witness_TileBitsAndMovesWriteTheirRegister :
    (let d : Nat := 0; let t : Nat := 0; let w : Word32 := 0x0; let i : Item := tItem; let s : State := aTile; Issues s d t w 0 0x3FFFFFF i) ∧
    (let d : Nat := 0; let t : Nat := 0; let w : Word32 := 0x30000000; let i : Item := tItem; let s : State := aTile; Issues s d t w 12 0x3FFF i) ∧
    (let d : Nat := 0; let t : Nat := 0; let w : Word32 := 0x34000000; let i : Item := tItem; let s : State := aTile; Issues s d t w 13 0x3FFF i) ∧
    (let d : Nat := 0; let t : Nat := 0; let w : Word32 := 0x38000000; let i : Item := tItem; let s : State := aTile; Issues s d t w 14 0x3FFF i) ∧
    (let d : Nat := 0; let t : Nat := 0; let w : Word32 := 0x3c000000; let i : Item := tItem; let s : State := aTile; Issues s d t w 15 0x3FFF i) ∧
    (let d : Nat := 0; let t : Nat := 0; let w : Word32 := 0x40000000; let i : Item := tItem; let s : State := aTile; Issues s d t w 16 0x3FFF i) ∧
    (let d : Nat := 0; let t : Nat := 0; let w : Word32 := 0x4c000000; let i : Item := tItem; let s : State := aTile; Issues s d t w 19 0x3FFF i ∧ ((tileGet s d t).dr (fld w 17 14)).toNat % 64 ≤ 31) ∧
    (let d : Nat := 0; let t : Nat := 0; let w : Word32 := 0x50000000; let i : Item := tItem; let s : State := aTile; Issues s d t w 20 0x3FFF i ∧ ((tileGet s d t).dr (fld w 17 14)).toNat % 64 ≤ 31) ∧
    (let d : Nat := 0; let t : Nat := 0; let w : Word32 := 0x4C000000; let i : Item := tItem; let s : State := tileUpd 0 0 (fun x => { x with d := [(0, 40)] }) aTile; Issues s d t w 19 0x3FFF i ∧ 31 < ((tileGet s d t).dr (fld w 17 14)).toNat % 64) ∧
    (let d : Nat := 0; let t : Nat := 0; let w : Word32 := 0x50000000; let i : Item := tItem; let s : State := tileUpd 0 0 (fun x => { x with d := [(0, 40)] }) aTile; Issues s d t w 20 0x3FFF i ∧ 31 < ((tileGet s d t).dr (fld w 17 14)).toNat % 64) ∧
    (let d : Nat := 0; let t : Nat := 0; let w : Word32 := 0xe0000000; let i : Item := tItem; let s : State := aTile; Issues s d t w 56 0x3FFFFFF i) ∧
    (let d : Nat := 0; let t : Nat := 0; let w : Word32 := 0xe4000000; let i : Item := tItem; let s : State := aTile; Issues s d t w 57 0x3C3FFFF i) ∧
    (let d : Nat := 0; let t : Nat := 0; let w : Word32 := 0xe8000000; let i : Item := tItem; let s : State := aTile; Issues s d t w 58 0x3FFFF i) ∧
    (let d : Nat := 0; let t : Nat := 0; let w : Word32 := 0x64000000; let i : Item := tItem; let s : State := aTile; Issues s d t w 25 0x3F0000 i) ∧
    (let d : Nat := 0; let t : Nat := 0; let w : Word32 := 0x68000000; let i : Item := tItem; let s : State := aTile; Issues s d t w 26 0x3F0000 i) ∧
    (let d : Nat := 0; let t : Nat := 0; let w : Word32 := 0x70000000; let i : Item := tItem; let s : State := aTile; Issues s d t w 28 0x3C0000 i) ∧
    (let d : Nat := 0; let t : Nat := 0; let w : Word32 := 0x74000000; let i : Item := tItem; let s : State := aTile; Issues s d t w 29 0x3FFFF i) ∧
    (let d : Nat := 0; let t : Nat := 0; let w : Word32 := 0x78000000; let i : Item := tItem; let s : State := aTile; Issues s d t w 30 0x3F0000 i ∧ fld w 25 22 < 8 ∧ (fld w 15 0 = 0 ∨ [8, 16, 32, 64, 128, 256, 512, 1024, 2048, 4096].contains (fld w 15 0) = true)) ∧
    (let d : Nat := 0; let t : Nat := 0; let w : Word32 := 0x78000007; let i : Item := tItem; let s : State := aTile; Issues s d t w 30 0x3F0000 i ∧ (8 ≤ fld w 25 22 ∨ (fld w 15 0 ≠ 0 ∧ [8, 16, 32, 64, 128, 256, 512, 1024, 2048, 4096].contains (fld w 15 0) = false))) ∧
    (let d : Nat := 0; let t : Nat := 0; let w : Word32 := 0x1; let i : Item := tItem; let s : State := aTile; Misformed s d t w 0 0x3FFFFFF i) ∧
    (let d : Nat := 0; let t : Nat := 0; let w : Word32 := 0x30000001; let i : Item := tItem; let s : State := aTile; Misformed s d t w 12 0x3FFF i) ∧
    (let d : Nat := 0; let t : Nat := 0; let w : Word32 := 0x34000001; let i : Item := tItem; let s : State := aTile; Misformed s d t w 13 0x3FFF i) ∧
    (let d : Nat := 0; let t : Nat := 0; let w : Word32 := 0x38000001; let i : Item := tItem; let s : State := aTile; Misformed s d t w 14 0x3FFF i) ∧
    (let d : Nat := 0; let t : Nat := 0; let w : Word32 := 0x3c000001; let i : Item := tItem; let s : State := aTile; Misformed s d t w 15 0x3FFF i) ∧
    (let d : Nat := 0; let t : Nat := 0; let w : Word32 := 0x40000001; let i : Item := tItem; let s : State := aTile; Misformed s d t w 16 0x3FFF i) ∧
    (let d : Nat := 0; let t : Nat := 0; let w : Word32 := 0x4c000001; let i : Item := tItem; let s : State := aTile; Misformed s d t w 19 0x3FFF i) ∧
    (let d : Nat := 0; let t : Nat := 0; let w : Word32 := 0x50000001; let i : Item := tItem; let s : State := aTile; Misformed s d t w 20 0x3FFF i) ∧
    (let d : Nat := 0; let t : Nat := 0; let w : Word32 := 0xe0000001; let i : Item := tItem; let s : State := aTile; Misformed s d t w 56 0x3FFFFFF i) ∧
    (let d : Nat := 0; let t : Nat := 0; let w : Word32 := 0xe4000001; let i : Item := tItem; let s : State := aTile; Misformed s d t w 57 0x3C3FFFF i) ∧
    (let d : Nat := 0; let t : Nat := 0; let w : Word32 := 0xe8000001; let i : Item := tItem; let s : State := aTile; Misformed s d t w 58 0x3FFFF i) ∧
    (let d : Nat := 0; let t : Nat := 0; let w : Word32 := 0x64010000; let i : Item := tItem; let s : State := aTile; Misformed s d t w 25 0x3F0000 i) ∧
    (let d : Nat := 0; let t : Nat := 0; let w : Word32 := 0x68010000; let i : Item := tItem; let s : State := aTile; Misformed s d t w 26 0x3F0000 i) ∧
    (let d : Nat := 0; let t : Nat := 0; let w : Word32 := 0x70040000; let i : Item := tItem; let s : State := aTile; Misformed s d t w 28 0x3C0000 i) ∧
    (let d : Nat := 0; let t : Nat := 0; let w : Word32 := 0x74000001; let i : Item := tItem; let s : State := aTile; Misformed s d t w 29 0x3FFFF i) ∧
    (let d : Nat := 0; let t : Nat := 0; let w : Word32 := 0x78010000; let i : Item := tItem; let s : State := aTile; Misformed s d t w 30 0x3F0000 i) := by
  iterate 34 refine And.intro (by intros; decide +kernel +zetaReduce) ?_
  intros; decide +kernel +zetaReduce

set_option maxRecDepth 20000 in
/-- States and operands that meet the hypotheses of TileAccumulatorsWrapAndStore, clause by clause. -/
theorem test_witness_TileAccumulatorsWrapAndStore :
    (let d : Nat := 0; let t : Nat := 0; let w : Word32 := 0xa0000000; let i : Item := tItem; let s : State := aTile; Issues s d t w 40 0xF00FFF i) ∧
    (let d : Nat := 0; let t : Nat := 0; let w : Word32 := 0xa4000000; let i : Item := tItem; let s : State := aTile; Issues s d t w 41 0xF i) ∧
    (let d : Nat := 0; let t : Nat := 0; let w : Word32 := 0xa8000000; let i : Item := tItem; let s : State := aTile; Issues s d t w 42 0xF i) ∧
    (let d : Nat := 0; let t : Nat := 0; let w : Word32 := 0xac000000; let i : Item := tItem; let s : State := aTile; Issues s d t w 43 0xFF03F i ∧ fld w 11 6 ≤ 48) ∧
    (let d : Nat := 0; let t : Nat := 0; let w : Word32 := 0xf0000000; let i : Item := tItem; let s : State := aTile; Issues s d t w 60 0xF i) ∧
    (let d : Nat := 0; let t : Nat := 0; let w : Word32 := 0xb0000000; let i : Item := tItem; let s : State := aTile; Issues s d t w 44 0xFF03F i ∧ fld w 11 6 ≤ 48) ∧
    (let d : Nat := 0; let t : Nat := 0; let w : Word32 := 0xB4000010; let i : Item := tItem; let s : State := aTile; Issues s d t w 45 0xF i ∧ fld w 5 4 ≠ 3) ∧
    (let d : Nat := 0; let t : Nat := 0; let w : Word32 := 0xAC000C40; let i : Item := tItem; let s : State := aTile; Issues s d t w 43 0xFF03F i ∧ 48 < fld w 11 6) ∧
    (let d : Nat := 0; let t : Nat := 0; let w : Word32 := 0xB0000C40; let i : Item := tItem; let s : State := aTile; Issues s d t w 44 0xFF03F i ∧ 48 < fld w 11 6) ∧
    (let d : Nat := 0; let t : Nat := 0; let w : Word32 := 0xB4000030; let i : Item := tItem; let s : State := aTile; Issues s d t w 45 0xF i ∧ fld w 5 4 = 3) ∧
    (let d : Nat := 0; let t : Nat := 0; let w : Word32 := 0xa0000001; let i : Item := tItem; let s : State := aTile; Misformed s d t w 40 0xF00FFF i) ∧
    (let d : Nat := 0; let t : Nat := 0; let w : Word32 := 0xa4000001; let i : Item := tItem; let s : State := aTile; Misformed s d t w 41 0xF i) ∧
    (let d : Nat := 0; let t : Nat := 0; let w : Word32 := 0xa8000001; let i : Item := tItem; let s : State := aTile; Misformed s d t w 42 0xF i) ∧
    (let d : Nat := 0; let t : Nat := 0; let w : Word32 := 0xac000001; let i : Item := tItem; let s : State := aTile; Misformed s d t w 43 0xFF03F i) ∧
    (let d : Nat := 0; let t : Nat := 0; let w : Word32 := 0xf0000001; let i : Item := tItem; let s : State := aTile; Misformed s d t w 60 0xF i) ∧
    (let d : Nat := 0; let t : Nat := 0; let w : Word32 := 0xb0000001; let i : Item := tItem; let s : State := aTile; Misformed s d t w 44 0xFF03F i) ∧
    (let d : Nat := 0; let t : Nat := 0; let w : Word32 := 0xb4000001; let i : Item := tItem; let s : State := aTile; Misformed s d t w 45 0xF i) := by
  iterate 16 refine And.intro (by intros; decide +kernel +zetaReduce) ?_
  intros; decide +kernel +zetaReduce

set_option maxRecDepth 20000 in
/-- States and operands that meet the hypotheses of TileMemoryAndControlFlow, clause by clause. -/
theorem test_witness_TileMemoryAndControlFlow :
    (let d : Nat := 0; let t : Nat := 0; let w : Word32 := 0x4000000; let i : Item := tItem; let s : State := aTile; Issues s d t w 1 0x3FFFFFF i ∧ (tileGet s d t).rep = none) ∧
    (let d : Nat := 0; let t : Nat := 0; let w : Word32 := 0x4000000; let i : Item := tItem; let s : State := tileUpd 0 0 (fun x => { x with rep := some ⟨8192, 4, 1⟩ }) aTile; Issues s d t w 1 0x3FFFFFF i ∧ (tileGet s d t).rep ≠ none) ∧
    (let d : Nat := 0; let t : Nat := 0; let w : Word32 := 0x08000002; let i : Item := tItem; let s : State := aTile; Issues s d t w 2 0x1F0000 i ∧ (tileGet s d t).rep = none ∧ (fld w 21 21 = 0 ∨ fld w 15 4 = 0) ∧ inRegion (issued s d t (if fld w 21 21 = 1 then [fld w 3 0] else []) 1).bind.kid ((issued s d t (if fld w 21 21 = 1 then [fld w 3 0] else []) 1).pc + (fld w 25 22 + 1) - 1) = true ∧ (if fld w 21 21 = 1 then ((tileGet s d t).dr (fld w 3 0)).toNat % 65536 else fld w 15 0) ≠ 0) ∧
    (let d : Nat := 0; let t : Nat := 0; let w : Word32 := 0x08200002; let i : Item := tItem; let s : State := aTile; Issues s d t w 2 0x1F0000 i ∧ (tileGet s d t).rep = none ∧ (fld w 21 21 = 0 ∨ fld w 15 4 = 0) ∧ inRegion (issued s d t (if fld w 21 21 = 1 then [fld w 3 0] else []) 1).bind.kid ((issued s d t (if fld w 21 21 = 1 then [fld w 3 0] else []) 1).pc + (fld w 25 22 + 1) - 1) = true ∧ (if fld w 21 21 = 1 then ((tileGet s d t).dr (fld w 3 0)).toNat % 65536 else fld w 15 0) = 0) ∧
    (let d : Nat := 0; let t : Nat := 0; let w : Word32 := 0x08200012; let i : Item := tItem; let s : State := aTile; Issues s d t w 2 0x1F0000 i ∧ ((tileGet s d t).rep ≠ none ∨ (fld w 21 21 = 1 ∧ fld w 15 4 ≠ 0) ∨ inRegion (issued s d t (if fld w 21 21 = 1 then [fld w 3 0] else []) 1).bind.kid ((issued s d t (if fld w 21 21 = 1 then [fld w 3 0] else []) 1).pc + (fld w 25 22 + 1) - 1) = false)) ∧
    (let d : Nat := 0; let t : Nat := 0; let w : Word32 := 0x0C002000; let i : Item := tItem; let s : State := aTile; Issues s d t w 3 0x3FC000 i ∧ (tileGet s d t).rep = none ∧ tileCond (issued s d t [] 1).st (fld w 25 22) = some true ∧ inRegion (issued s d t [] 1).bind.kid (fld w 13 0) = true) ∧
    (let d : Nat := 0; let t : Nat := 0; let w : Word32 := 0x0C402000; let i : Item := tItem; let s : State := aTile; Issues s d t w 3 0x3FC000 i ∧ (tileGet s d t).rep = none ∧ tileCond (issued s d t [] 1).st (fld w 25 22) = some false ∧ inRegion (issued s d t [] 1).bind.kid (fld w 13 0) = true) ∧
    (let d : Nat := 0; let t : Nat := 0; let w : Word32 := 0x0FC02000; let i : Item := tItem; let s : State := aTile; Issues s d t w 3 0x3FC000 i ∧ ((tileGet s d t).rep ≠ none ∨ tileCond (issued s d t [] 1).st (fld w 25 22) = none)) ∧
    (let d : Nat := 0; let t : Nat := 0; let w : Word32 := 0x0C000000; let i : Item := tItem; let s : State := aTile; Issues s d t w 3 0x3FC000 i ∧ (tileGet s d t).rep = none ∧ tileCond (issued s d t [] 1).st (fld w 25 22) ≠ none ∧ inRegion (tileGet s d t).bind.kid (fld w 13 0) = false) ∧
    ((Issues (aTile : State) (0 : Nat) (0 : Nat) (0x80000000 : Word32) 32 0xFF (tItem : Item)) ∧ (memAddr (0x80000000 : Word32) (issued (aTile : State) (0 : Nat) (0 : Nat) [] 1) = .ok ((0 : Nat), ({ (issued aTile 0 0 [] 1) with p := [(0, 4)] } : TileSt))) ∧ (spaceRead (aTile : State) (0 : Nat) (issued (aTile : State) (0 : Nat) (0 : Nat) [] 1) (tItem : Item) (fld (0x80000000 : Word32) 16 16 == 1) (0 : Nat) = some (0 : Word32))) ∧
    ((Issues (aTile : State) (0 : Nat) (0 : Nat) (0x84000000 : Word32) 33 0xFF (tItem : Item)) ∧ (memAddr (0x84000000 : Word32) (issued (aTile : State) (0 : Nat) (0 : Nat) [fld (0x84000000 : Word32) 25 22] 1) = .ok ((0 : Nat), ({ (issued aTile 0 0 [0] 1) with p := [(0, 4)] } : TileSt))) ∧ (spaceWrite ({ (issued aTile 0 0 [0] 1) with p := [(0, 4)] } : TileSt) (fld (0x84000000 : Word32) 16 16 == 1) (0 : Nat) ((issued (aTile : State) (0 : Nat) (0 : Nat) [fld (0x84000000 : Word32) 25 22] 1).dr (fld (0x84000000 : Word32) 25 22)) = some ({ (issued aTile 0 0 [0] 1) with p := [(0, 4)], x := [(0, 0)] } : TileSt))) ∧
    ((Issues (aTile : State) (0 : Nat) (0 : Nat) (0x84010000 : Word32) 33 0xFF (tItem : Item)) ∧ (memAddr (0x84010000 : Word32) (issued (aTile : State) (0 : Nat) (0 : Nat) [fld (0x84010000 : Word32) 25 22] 1) = .ok ((0 : Nat), ({ (issued aTile 0 0 [0] 1) with p := [(0, 4)] } : TileSt))) ∧ (spaceWrite ({ (issued aTile 0 0 [0] 1) with p := [(0, 4)] } : TileSt) (fld (0x84010000 : Word32) 16 16 == 1) (0 : Nat) ((issued (aTile : State) (0 : Nat) (0 : Nat) [fld (0x84010000 : Word32) 25 22] 1).dr (fld (0x84010000 : Word32) 25 22)) = none)) ∧
    ((Issues (aTile : State) (0 : Nat) (0 : Nat) (0x80000100 : Word32) 32 0xFF (tItem : Item)) ∧ (memAddr (0x80000100 : Word32) (issued (aTile : State) (0 : Nat) (0 : Nat) [] 1) = .error (.illegal : TFault))) ∧
    ((Issues (tileUpd 0 0 (fun x => { x with p := [(0, 0x3800)] }) aTile : State) (0 : Nat) (0 : Nat) (0x80000000 : Word32) 32 0xFF (tItem : Item)) ∧ (memAddr (0x80000000 : Word32) (issued (tileUpd 0 0 (fun x => { x with p := [(0, 0x3800)] }) aTile : State) (0 : Nat) (0 : Nat) [] 1) = .ok ((0x3800 : Nat), ({ (issued (tileUpd 0 0 (fun x => { x with p := [(0, 0x3800)] }) aTile) 0 0 [] 1) with p := [(0, 0x3804)] } : TileSt))) ∧ (spaceRead (tileUpd 0 0 (fun x => { x with p := [(0, 0x3800)] }) aTile : State) (0 : Nat) (issued (tileUpd 0 0 (fun x => { x with p := [(0, 0x3800)] }) aTile : State) (0 : Nat) (0 : Nat) [] 1) (tItem : Item) (fld (0x80000000 : Word32) 16 16 == 1) (0x3800 : Nat) = none)) ∧
    ((Issues (aTile : State) (0 : Nat) (0 : Nat) (0x84000100 : Word32) 33 0xFF (tItem : Item)) ∧ (memAddr (0x84000100 : Word32) (issued (aTile : State) (0 : Nat) (0 : Nat) [fld (0x84000100 : Word32) 25 22] 1) = .error (.illegal : TFault))) ∧
    (let d : Nat := 0; let t : Nat := 0; let w : Word32 := 0xc0001000; let i : Item := tItem; let ax : Nat := 0; let ay : Nat := 0; let px : Word16 := 4; let py : Word16 := 4; let vx : Word32 := 0; let vy : Word32 := 0; let s : State := aTile; Issues s d t w 48 0x3FF i ∧ fld w 17 15 ≠ fld w 14 12 ∧ tileAddr (fld w 11 11) ((issued s d t [fld w 23 21, 8 + fld w 20 18] 1).pr (fld w 17 15)) ((issued s d t [fld w 23 21, 8 + fld w 20 18] 1).mr (fld w 17 15)) ((issued s d t [fld w 23 21, 8 + fld w 20 18] 1).cr (fld w 17 15)) 0 = some (ax, px) ∧ tileAddr (fld w 10 10) ((issued s d t [fld w 23 21, 8 + fld w 20 18] 1).pr (fld w 14 12)) ((issued s d t [fld w 23 21, 8 + fld w 20 18] 1).mr (fld w 14 12)) ((issued s d t [fld w 23 21, 8 + fld w 20 18] 1).cr (fld w 14 12)) 0 = some (ay, py) ∧ xRead s d (issued s d t [fld w 23 21, 8 + fld w 20 18] 1) i ax = some vx ∧ yRead s d (issued s d t [fld w 23 21, 8 + fld w 20 18] 1) ay = some vy) ∧
    (let d : Nat := 0; let t : Nat := 0; let w : Word32 := 0xc4001000; let i : Item := tItem; let ax : Nat := 0; let ay : Nat := 0; let px : Word16 := 4; let py : Word16 := 4; let vx : Word32 := 0; let vy : Word32 := 0; let s : State := aTile; Issues s d t w 49 0x3FF i ∧ fld w 17 15 ≠ fld w 14 12 ∧ tileAddr (fld w 11 11) ((issued s d t [fld w 23 21, 8 + fld w 20 18] 1).pr (fld w 17 15)) ((issued s d t [fld w 23 21, 8 + fld w 20 18] 1).mr (fld w 17 15)) ((issued s d t [fld w 23 21, 8 + fld w 20 18] 1).cr (fld w 17 15)) 0 = some (ax, px) ∧ tileAddr (fld w 10 10) ((issued s d t [fld w 23 21, 8 + fld w 20 18] 1).pr (fld w 14 12)) ((issued s d t [fld w 23 21, 8 + fld w 20 18] 1).mr (fld w 14 12)) ((issued s d t [fld w 23 21, 8 + fld w 20 18] 1).cr (fld w 14 12)) 0 = some (ay, py) ∧ xRead s d (issued s d t [fld w 23 21, 8 + fld w 20 18] 1) i ax = some vx ∧ yRead s d (issued s d t [fld w 23 21, 8 + fld w 20 18] 1) ay = some vy) ∧
    (let d : Nat := 0; let t : Nat := 0; let w : Word32 := 0xc8001000; let i : Item := tItem; let ax : Nat := 0; let ay : Nat := 0; let px : Word16 := 4; let py : Word16 := 4; let vx : Word32 := 0; let vy : Word32 := 0; let s : State := aTile; Issues s d t w 50 0x3FF i ∧ fld w 17 15 ≠ fld w 14 12 ∧ tileAddr (fld w 11 11) ((issued s d t [fld w 23 21, 8 + fld w 20 18] 1).pr (fld w 17 15)) ((issued s d t [fld w 23 21, 8 + fld w 20 18] 1).mr (fld w 17 15)) ((issued s d t [fld w 23 21, 8 + fld w 20 18] 1).cr (fld w 17 15)) 0 = some (ax, px) ∧ tileAddr (fld w 10 10) ((issued s d t [fld w 23 21, 8 + fld w 20 18] 1).pr (fld w 14 12)) ((issued s d t [fld w 23 21, 8 + fld w 20 18] 1).mr (fld w 14 12)) ((issued s d t [fld w 23 21, 8 + fld w 20 18] 1).cr (fld w 14 12)) 0 = some (ay, py) ∧ xRead s d (issued s d t [fld w 23 21, 8 + fld w 20 18] 1) i ax = some vx ∧ yRead s d (issued s d t [fld w 23 21, 8 + fld w 20 18] 1) ay = some vy) ∧
    (let d : Nat := 0; let t : Nat := 0; let w : Word32 := 0xc0000000; let i : Item := tItem; let ax : Nat := 0; let ay : Nat := 0; let px : Word16 := 4; let py : Word16 := 4; let vx : Word32 := 0; let vy : Word32 := 0; let s : State := aTile; Issues s d t w 48 0x3FF i ∧ fld w 17 15 = fld w 14 12 ∧ tileAddr (fld w 11 11) ((issued s d t [fld w 23 21, 8 + fld w 20 18] 1).pr (fld w 17 15)) ((issued s d t [fld w 23 21, 8 + fld w 20 18] 1).mr (fld w 17 15)) ((issued s d t [fld w 23 21, 8 + fld w 20 18] 1).cr (fld w 17 15)) 0 = some (ax, px) ∧ tileAddr (fld w 10 10) ((issued s d t [fld w 23 21, 8 + fld w 20 18] 1).pr (fld w 14 12)) ((issued s d t [fld w 23 21, 8 + fld w 20 18] 1).mr (fld w 14 12)) ((issued s d t [fld w 23 21, 8 + fld w 20 18] 1).cr (fld w 14 12)) 0 = some (ay, py) ∧ xRead s d (issued s d t [fld w 23 21, 8 + fld w 20 18] 1) i ax = some vx ∧ yRead s d (issued s d t [fld w 23 21, 8 + fld w 20 18] 1) ay = some vy) ∧
    (let d : Nat := 0; let t : Nat := 0; let w : Word32 := 0xc4000000; let i : Item := tItem; let ax : Nat := 0; let ay : Nat := 0; let px : Word16 := 4; let py : Word16 := 4; let vx : Word32 := 0; let vy : Word32 := 0; let s : State := aTile; Issues s d t w 49 0x3FF i ∧ fld w 17 15 = fld w 14 12 ∧ tileAddr (fld w 11 11) ((issued s d t [fld w 23 21, 8 + fld w 20 18] 1).pr (fld w 17 15)) ((issued s d t [fld w 23 21, 8 + fld w 20 18] 1).mr (fld w 17 15)) ((issued s d t [fld w 23 21, 8 + fld w 20 18] 1).cr (fld w 17 15)) 0 = some (ax, px) ∧ tileAddr (fld w 10 10) ((issued s d t [fld w 23 21, 8 + fld w 20 18] 1).pr (fld w 14 12)) ((issued s d t [fld w 23 21, 8 + fld w 20 18] 1).mr (fld w 14 12)) ((issued s d t [fld w 23 21, 8 + fld w 20 18] 1).cr (fld w 14 12)) 0 = some (ay, py) ∧ xRead s d (issued s d t [fld w 23 21, 8 + fld w 20 18] 1) i ax = some vx ∧ yRead s d (issued s d t [fld w 23 21, 8 + fld w 20 18] 1) ay = some vy) ∧
    (let d : Nat := 0; let t : Nat := 0; let w : Word32 := 0xc8000000; let i : Item := tItem; let ax : Nat := 0; let ay : Nat := 0; let px : Word16 := 4; let py : Word16 := 4; let vx : Word32 := 0; let vy : Word32 := 0; let s : State := aTile; Issues s d t w 50 0x3FF i ∧ fld w 17 15 = fld w 14 12 ∧ tileAddr (fld w 11 11) ((issued s d t [fld w 23 21, 8 + fld w 20 18] 1).pr (fld w 17 15)) ((issued s d t [fld w 23 21, 8 + fld w 20 18] 1).mr (fld w 17 15)) ((issued s d t [fld w 23 21, 8 + fld w 20 18] 1).cr (fld w 17 15)) 0 = some (ax, px) ∧ tileAddr (fld w 10 10) ((issued s d t [fld w 23 21, 8 + fld w 20 18] 1).pr (fld w 14 12)) ((issued s d t [fld w 23 21, 8 + fld w 20 18] 1).mr (fld w 14 12)) ((issued s d t [fld w 23 21, 8 + fld w 20 18] 1).cr (fld w 14 12)) 0 = some (ay, py) ∧ xRead s d (issued s d t [fld w 23 21, 8 + fld w 20 18] 1) i ax = some vx ∧ yRead s d (issued s d t [fld w 23 21, 8 + fld w 20 18] 1) ay = some vy) ∧
    (let d : Nat := 0; let t : Nat := 0; let w : Word32 := 0xc0001000; let i : Item := tItem; let s : State := tileUpd 0 0 (fun x => { x with p := [(0, 0x3800)] }) aTile; Issues s d t w 48 0x3FF i ∧ ((tileAddr (fld w 11 11) ((issued s d t [fld w 23 21, 8 + fld w 20 18] 1).pr (fld w 17 15)) ((issued s d t [fld w 23 21, 8 + fld w 20 18] 1).mr (fld w 17 15)) ((issued s d t [fld w 23 21, 8 + fld w 20 18] 1).cr (fld w 17 15)) 0).bind (fun e => xRead s d (issued s d t [fld w 23 21, 8 + fld w 20 18] 1) i e.1) = none ∨ (tileAddr (fld w 10 10) ((issued s d t [fld w 23 21, 8 + fld w 20 18] 1).pr (fld w 14 12)) ((issued s d t [fld w 23 21, 8 + fld w 20 18] 1).mr (fld w 14 12)) ((issued s d t [fld w 23 21, 8 + fld w 20 18] 1).cr (fld w 14 12)) 0).bind (fun e => yRead s d (issued s d t [fld w 23 21, 8 + fld w 20 18] 1) e.1) = none)) ∧
    (let d : Nat := 0; let t : Nat := 0; let w : Word32 := 0xc4001000; let i : Item := tItem; let s : State := tileUpd 0 0 (fun x => { x with p := [(0, 0x3800)] }) aTile; Issues s d t w 49 0x3FF i ∧ ((tileAddr (fld w 11 11) ((issued s d t [fld w 23 21, 8 + fld w 20 18] 1).pr (fld w 17 15)) ((issued s d t [fld w 23 21, 8 + fld w 20 18] 1).mr (fld w 17 15)) ((issued s d t [fld w 23 21, 8 + fld w 20 18] 1).cr (fld w 17 15)) 0).bind (fun e => xRead s d (issued s d t [fld w 23 21, 8 + fld w 20 18] 1) i e.1) = none ∨ (tileAddr (fld w 10 10) ((issued s d t [fld w 23 21, 8 + fld w 20 18] 1).pr (fld w 14 12)) ((issued s d t [fld w 23 21, 8 + fld w 20 18] 1).mr (fld w 14 12)) ((issued s d t [fld w 23 21, 8 + fld w 20 18] 1).cr (fld w 14 12)) 0).bind (fun e => yRead s d (issued s d t [fld w 23 21, 8 + fld w 20 18] 1) e.1) = none)) ∧
    (let d : Nat := 0; let t : Nat := 0; let w : Word32 := 0xc8001000; let i : Item := tItem; let s : State := tileUpd 0 0 (fun x => { x with p := [(0, 0x3800)] }) aTile; Issues s d t w 50 0x3FF i ∧ ((tileAddr (fld w 11 11) ((issued s d t [fld w 23 21, 8 + fld w 20 18] 1).pr (fld w 17 15)) ((issued s d t [fld w 23 21, 8 + fld w 20 18] 1).mr (fld w 17 15)) ((issued s d t [fld w 23 21, 8 + fld w 20 18] 1).cr (fld w 17 15)) 0).bind (fun e => xRead s d (issued s d t [fld w 23 21, 8 + fld w 20 18] 1) i e.1) = none ∨ (tileAddr (fld w 10 10) ((issued s d t [fld w 23 21, 8 + fld w 20 18] 1).pr (fld w 14 12)) ((issued s d t [fld w 23 21, 8 + fld w 20 18] 1).mr (fld w 14 12)) ((issued s d t [fld w 23 21, 8 + fld w 20 18] 1).cr (fld w 14 12)) 0).bind (fun e => yRead s d (issued s d t [fld w 23 21, 8 + fld w 20 18] 1) e.1) = none)) ∧
    ((Issues (aViewed : State) (0 : Nat) (0 : Nat) (0xf8000000 : Word32) 62 0x3F0000 (tItem : Item)) ∧ (gets (aViewed : State) (0 : Nat) (tItem : Item) (fld (0xf8000000 : Word32) 15 0) = .ok ((0 : Int), (true : Bool)))) ∧
    (let d : Nat := 0; let t : Nat := 0; let w : Word32 := 0xfc000000; let i : Item := tItem; let s : State := aTile; Issues s d t w 63 0x1F0000 i ∧ putOk (issued s d t [fld w 25 22] 2).bind (fld w 21 21 == 1) (fld w 15 0) = true) ∧
    ((Issues (aTile : State) (0 : Nat) (0 : Nat) (0xF800F000 : Word32) 62 0x3F0000 (tItem : Item)) ∧ (gets (aTile : State) (0 : Nat) (tItem : Item) (fld (0xF800F000 : Word32) 15 0) = .error (.access : TFault))) ∧
    (let d : Nat := 0; let t : Nat := 0; let w : Word32 := 0xFC000005; let i : Item := tItem; let s : State := aTile; Issues s d t w 63 0x1F0000 i ∧ putOk (issued s d t [fld w 25 22] 2).bind (fld w 21 21 == 1) (fld w 15 0) = false) ∧
    (let d : Nat := 0; let t : Nat := 0; let w : Word32 := 0x4000001; let i : Item := tItem; let s : State := aTile; Misformed s d t w 1 0x3FFFFFF i) ∧
    (let d : Nat := 0; let t : Nat := 0; let w : Word32 := 0x8010000; let i : Item := tItem; let s : State := aTile; Misformed s d t w 2 0x1F0000 i) ∧
    (let d : Nat := 0; let t : Nat := 0; let w : Word32 := 0xc004000; let i : Item := tItem; let s : State := aTile; Misformed s d t w 3 0x3FC000 i) ∧
    (let d : Nat := 0; let t : Nat := 0; let w : Word32 := 0x80000001; let i : Item := tItem; let s : State := aTile; Misformed s d t w 32 0xFF i) ∧
    (let d : Nat := 0; let t : Nat := 0; let w : Word32 := 0x84000001; let i : Item := tItem; let s : State := aTile; Misformed s d t w 33 0xFF i) ∧
    (let d : Nat := 0; let t : Nat := 0; let w : Word32 := 0xc0000001; let i : Item := tItem; let s : State := aTile; Misformed s d t w 48 0x3FF i) ∧
    (let d : Nat := 0; let t : Nat := 0; let w : Word32 := 0xc4000001; let i : Item := tItem; let s : State := aTile; Misformed s d t w 49 0x3FF i) ∧
    (let d : Nat := 0; let t : Nat := 0; let w : Word32 := 0xc8000001; let i : Item := tItem; let s : State := aTile; Misformed s d t w 50 0x3FF i) ∧
    (let d : Nat := 0; let t : Nat := 0; let w : Word32 := 0xf8010000; let i : Item := tItem; let s : State := aTile; Misformed s d t w 62 0x3F0000 i) ∧
    (let d : Nat := 0; let t : Nat := 0; let w : Word32 := 0xfc010000; let i : Item := tItem; let s : State := aTile; Misformed s d t w 63 0x1F0000 i) ∧
    (let d : Nat := 0; let t : Nat := 0; let w : Word32 := 0x10000000; let i : Item := tItem; let s : State := aTile; tileItem s d t = some i ∧ (tileGet s d t).cycles < (tileGet s d t).limit ∧ inRegion (tileGet s d t).bind.kid (tileGet s d t).pc = true ∧ 0x8000 ≤ (tileGet s d t).bind.kid ∧ tileOpcodes.contains (fld w 31 26) = false) ∧
    (let w : Word32 := 0; tileOpcodes.contains (fld w 31 26) = true) := by
  iterate 9 refine And.intro (by intros; decide +kernel +zetaReduce) ?_
  iterate 6 refine And.intro (by and_intros <;> first | decide | rfl) ?_
  iterate 9 refine And.intro (by intros; decide +kernel +zetaReduce) ?_
  refine And.intro (by and_intros <;> first | decide | rfl) ?_
  refine And.intro (by intros; decide +kernel +zetaReduce) ?_
  refine And.intro (by and_intros <;> first | decide | rfl) ?_
  iterate 12 refine And.intro (by intros; decide +kernel +zetaReduce) ?_
  intros; decide +kernel +zetaReduce

set_option maxRecDepth 20000 in
/-- States and operands that meet the hypotheses of MeasurementCommandsStageAndCalibrate, clause by clause. -/
theorem test_witness_MeasurementCommandsStageAndCalibrate :
    (let c : Cmd := cmd 1 16 [5, 1]; let s : State := inState .config; let v : State := stage 5 (cmd 1 16 [5, 1]).params ((inState .config).onMeas (fun m => { m with chanNew := tset m.chanNew 5 { mChanShadow (inState .config) 5 with on := true, unit := 0, pos := 0, gain := 0, offs := 0, pmin := 0, pmax := 0 } })); let k : MChanCfg := { mChanShadow (inState .config) ((cmd 1 16 [5, 1]).u8 0) with on := (cmd 1 16 [5, 1]).u8 1 == 1, unit := (cmd 1 16 [5, 1]).u8 2, pos := (cmd 1 16 [5, 1]).u8 3, gain := (cmd 1 16 [5, 1]).s32 4, offs := (cmd 1 16 [5, 1]).s32 8, pmin := (cmd 1 16 [5, 1]).u16 12, pmax := (cmd 1 16 [5, 1]).u16 14 }; k = { mChanShadow s (c.u8 0) with on := c.u8 1 == 1, unit := c.u8 2, pos := c.u8 3, gain := c.s32 4, offs := c.s32 8, pmin := c.u16 12, pmax := c.u16 14 } ∧ v = stage 5 c.params (s.onMeas (fun m => { m with chanNew := tset m.chanNew (c.u8 0) k })) ∧ Admits c s [.config, .standby, .deblocked, .safeStop, .blockedFault, .factoryTest] [.active, .standby] ∧ Inline c 16 ∧ unitFit s (c.u8 2) = true ∧ c.u8 0 < 64 ∧ c.u8 1 < 2 ∧ c.u8 2 < 4 ∧ c.u8 3 < 16 ∧ c.u16 12 ≤ c.u16 14 ∧ setHeld s 5 = false) ∧
    (let c : Cmd := cmd 1 16 [5, 1]; let s : State := armed { oneCommit with mask := 32 } (inState .config); Admits c s [.config, .standby, .deblocked, .safeStop, .blockedFault, .factoryTest] [.active, .standby] ∧ Inline c 16 ∧ unitFit s (c.u8 2) = true ∧ c.u8 0 < 64 ∧ c.u8 1 < 2 ∧ c.u8 2 < 4 ∧ c.u8 3 < 16 ∧ c.u16 12 ≤ c.u16 14 ∧ setHeld s 5 = true) ∧
    (let c : Cmd := cmd 1 36 ([0, 0, 0, 0, 0, 0, 0, 0] ++ List.replicate 20 255 ++ [3, 1, 0, 0]); let s : State := inState .config; let k : MSeqCfg := { rlen := (cmd 1 36 ([0, 0, 0, 0, 0, 0, 0, 0] ++ List.replicate 20 255 ++ [3, 1, 0, 0])).u8 1, ilen := (cmd 1 36 ([0, 0, 0, 0, 0, 0, 0, 0] ++ List.replicate 20 255 ++ [3, 1, 0, 0])).u8 2, itrig := (cmd 1 36 ([0, 0, 0, 0, 0, 0, 0, 0] ++ List.replicate 20 255 ++ [3, 1, 0, 0])).u8 3, itidx := (cmd 1 36 ([0, 0, 0, 0, 0, 0, 0, 0] ++ List.replicate 20 255 ++ [3, 1, 0, 0])).u8 4, lead := (cmd 1 36 ([0, 0, 0, 0, 0, 0, 0, 0] ++ List.replicate 20 255 ++ [3, 1, 0, 0])).u16 6, rslots := (List.range 16).map (fun n => (cmd 1 36 ([0, 0, 0, 0, 0, 0, 0, 0] ++ List.replicate 20 255 ++ [3, 1, 0, 0])).u8 (8 + n)), islots := (List.range 4).map (fun n => (cmd 1 36 ([0, 0, 0, 0, 0, 0, 0, 0] ++ List.replicate 20 255 ++ [3, 1, 0, 0])).u8 (24 + n)), xsel := (cmd 1 36 ([0, 0, 0, 0, 0, 0, 0, 0] ++ List.replicate 20 255 ++ [3, 1, 0, 0])).u8 28, xn := (cmd 1 36 ([0, 0, 0, 0, 0, 0, 0, 0] ++ List.replicate 20 255 ++ [3, 1, 0, 0])).u8 29, xinv := (cmd 1 36 ([0, 0, 0, 0, 0, 0, 0, 0] ++ List.replicate 20 255 ++ [3, 1, 0, 0])).u8 30 == 1, xtol := (cmd 1 36 ([0, 0, 0, 0, 0, 0, 0, 0] ++ List.replicate 20 255 ++ [3, 1, 0, 0])).s32 32 }; k = { rlen := c.u8 1, ilen := c.u8 2, itrig := c.u8 3, itidx := c.u8 4, lead := c.u16 6, rslots := (List.range 16).map (fun n => c.u8 (8 + n)), islots := (List.range 4).map (fun n => c.u8 (24 + n)), xsel := c.u8 28, xn := c.u8 29, xinv := c.u8 30 == 1, xtol := c.s32 32 } ∧ Admits c s [.config, .standby, .deblocked, .safeStop, .blockedFault, .factoryTest] [.active, .standby] ∧ Inline c 36 ∧ unitFit s (c.u8 0) = true ∧ c.u8 1 ≤ 16 ∧ c.u8 2 ≤ 4 ∧ itrigOk (c.u8 3) (c.u8 4) = true ∧ c.u16 6 ≤ 2000 ∧ slotsFit ((List.range 16).map (fun n => c.u8 (8 + n))) (c.u8 1) = true ∧ slotsFit ((List.range 4).map (fun n => c.u8 (24 + n))) (c.u8 2) = true ∧ c.rsv 5 1 = true ∧ c.rsv 31 1 = true ∧ (c.u8 0 = 0 ∨ c.u8 0 = 2) ∧ (c.u8 28 < 24 ∨ c.u8 28 = 255) ∧ 1 ≤ c.u8 29 ∧ c.u8 30 < 2 ∧ 0 ≤ c.s32 32 ∧ setHeld s 5 = false) ∧
    (let c : Cmd := cmd 1 36 ([1, 0, 0, 0, 0, 0, 0, 0] ++ List.replicate 20 255); let s : State := inState .config; let k : MSeqCfg := { rlen := (cmd 1 36 ([1, 0, 0, 0, 0, 0, 0, 0] ++ List.replicate 20 255)).u8 1, ilen := (cmd 1 36 ([1, 0, 0, 0, 0, 0, 0, 0] ++ List.replicate 20 255)).u8 2, itrig := (cmd 1 36 ([1, 0, 0, 0, 0, 0, 0, 0] ++ List.replicate 20 255)).u8 3, itidx := (cmd 1 36 ([1, 0, 0, 0, 0, 0, 0, 0] ++ List.replicate 20 255)).u8 4, lead := (cmd 1 36 ([1, 0, 0, 0, 0, 0, 0, 0] ++ List.replicate 20 255)).u16 6, rslots := (List.range 16).map (fun n => (cmd 1 36 ([1, 0, 0, 0, 0, 0, 0, 0] ++ List.replicate 20 255)).u8 (8 + n)), islots := (List.range 4).map (fun n => (cmd 1 36 ([1, 0, 0, 0, 0, 0, 0, 0] ++ List.replicate 20 255)).u8 (24 + n)) }; k = { rlen := c.u8 1, ilen := c.u8 2, itrig := c.u8 3, itidx := c.u8 4, lead := c.u16 6, rslots := (List.range 16).map (fun n => c.u8 (8 + n)), islots := (List.range 4).map (fun n => c.u8 (24 + n)) } ∧ Admits c s [.config, .standby, .deblocked, .safeStop, .blockedFault, .factoryTest] [.active, .standby] ∧ Inline c 36 ∧ unitFit s (c.u8 0) = true ∧ c.u8 1 ≤ 16 ∧ c.u8 2 ≤ 4 ∧ itrigOk (c.u8 3) (c.u8 4) = true ∧ c.u16 6 ≤ 2000 ∧ slotsFit ((List.range 16).map (fun n => c.u8 (8 + n))) (c.u8 1) = true ∧ slotsFit ((List.range 4).map (fun n => c.u8 (24 + n))) (c.u8 2) = true ∧ c.rsv 5 1 = true ∧ c.rsv 31 1 = true ∧ (c.u8 0 = 1 ∨ c.u8 0 = 3) ∧ c.rsv 28 8 = true ∧ setHeld s 5 = false) ∧
    (let c : Cmd := cmd 1 12 [5, 1, 2, 3, 4]; let s : State := inState .config; let k : MChanCfg := { mChanShadow (inState .config) ((cmd 1 12 [5, 1, 2, 3, 4]).u8 0) with l1 := (cmd 1 12 [5, 1, 2, 3, 4]).u8 1, l2 := (cmd 1 12 [5, 1, 2, 3, 4]).u8 2, l3 := (cmd 1 12 [5, 1, 2, 3, 4]).u8 3, c := (cmd 1 12 [5, 1, 2, 3, 4]).u8 4, reload := (cmd 1 12 [5, 1, 2, 3, 4]).u8 5 == 1, step := (cmd 1 12 [5, 1, 2, 3, 4]).s32 8 }; k = { mChanShadow s (c.u8 0) with l1 := c.u8 1, l2 := c.u8 2, l3 := c.u8 3, c := c.u8 4, reload := c.u8 5 == 1, step := c.s32 8 } ∧ Admits c s [.config, .standby, .deblocked, .safeStop, .blockedFault, .factoryTest] [.active, .standby] ∧ Inline c 12 ∧ mprOk s = true ∧ c.u8 0 < 64 ∧ 1 ≤ c.u8 1 ∧ c.u8 1 ≤ 64 ∧ 1 ≤ c.u8 2 ∧ c.u8 2 ≤ 64 ∧ 1 ≤ c.u8 3 ∧ c.u8 3 ≤ 64 ∧ (c.u8 4 = 1 ∨ c.u8 4 = 2 ∨ c.u8 4 = 4) ∧ c.u8 5 < 2 ∧ c.rsv 6 2 = true ∧ 0 ≤ c.s32 8 ∧ setHeld s 5 = false) ∧
    (let c : Cmd := cmd 1 12 [5, 1, 2, 3, 4]; let s : State := armed { oneCommit with mask := 32 } (inState .config); Admits c s [.config, .standby, .deblocked, .safeStop, .blockedFault, .factoryTest] [.active, .standby] ∧ Inline c 12 ∧ mprOk s = true ∧ c.u8 0 < 64 ∧ 1 ≤ c.u8 1 ∧ c.u8 1 ≤ 64 ∧ 1 ≤ c.u8 2 ∧ c.u8 2 ≤ 64 ∧ 1 ≤ c.u8 3 ∧ c.u8 3 ≤ 64 ∧ (c.u8 4 = 1 ∨ c.u8 4 = 2 ∨ c.u8 4 = 4) ∧ c.u8 5 < 2 ∧ c.rsv 6 2 = true ∧ 0 ≤ c.s32 8 ∧ setHeld s 5 = true) ∧
    (let c : Cmd := cmd 1 12 [2]; let s : State := settledM (inState .config); Admits c s [.config, .standby, .blockedFault, .factoryTest] [.active, .standby] ∧ Inline c 12 ∧ mprOk s = true ∧ c.u8 0 < 3 ∧ ((c.u8 0 = 1 ∧ 2000000 ≤ c.u32 4 ∧ c.u32 4 ≤ 3000000) ∨ (c.u8 0 ≠ 1 ∧ c.u32 4 = 0)) ∧ c.rsv 1 3 = true ∧ c.u16 8 ≤ 3600 ∧ c.u16 10 ≤ 60000 ∧ held s .reference = false ∧ (List.range 5).any (fun n => held s (.measUnit n)) = false ∧ c.u8 0 ≠ s.meas.refsel ∧ s.meas.settled = true ∧ pendCount s c.mb < 8) ∧
    (let c : Cmd := cmd 1 12 [2]; let s : State := (inState .config).onMeas (fun m => { m with settled := false }); Admits c s [.config, .standby, .blockedFault, .factoryTest] [.active, .standby] ∧ Inline c 12 ∧ mprOk s = true ∧ c.u8 0 < 3 ∧ ((c.u8 0 = 1 ∧ 2000000 ≤ c.u32 4 ∧ c.u32 4 ≤ 3000000) ∨ (c.u8 0 ≠ 1 ∧ c.u32 4 = 0)) ∧ c.rsv 1 3 = true ∧ c.u16 8 ≤ 3600 ∧ c.u16 10 ≤ 60000 ∧ held s .reference = false ∧ (List.range 5).any (fun n => held s (.measUnit n)) = false ∧ c.u8 0 ≠ s.meas.refsel ∧ s.meas.settled = false ∧ pendCount s c.mb < 8) ∧
    (let c : Cmd := cmd 1 12 [2]; let s : State := (inState .config).onMeas (fun m => { m with refsel := 2 }); Admits c s [.config, .standby, .blockedFault, .factoryTest] [.active, .standby] ∧ Inline c 12 ∧ mprOk s = true ∧ c.u8 0 < 3 ∧ ((c.u8 0 = 1 ∧ 2000000 ≤ c.u32 4 ∧ c.u32 4 ≤ 3000000) ∨ (c.u8 0 ≠ 1 ∧ c.u32 4 = 0)) ∧ c.rsv 1 3 = true ∧ c.u16 8 ≤ 3600 ∧ c.u16 10 ≤ 60000 ∧ held s .reference = false ∧ (List.range 5).any (fun n => held s (.measUnit n)) = false ∧ c.u8 0 = s.meas.refsel) ∧
    (let c : Cmd := cmd 1 12 [2]; let s : State := (inState .config).onMb (fun m => { m with pend := [{ pendOf 0x0904 with objs := [.reference] }] }); Admits c s [.config, .standby, .blockedFault, .factoryTest] [.active, .standby] ∧ Inline c 12 ∧ mprOk s = true ∧ c.u8 0 < 3 ∧ ((c.u8 0 = 1 ∧ 2000000 ≤ c.u32 4 ∧ c.u32 4 ≤ 3000000) ∨ (c.u8 0 ≠ 1 ∧ c.u32 4 = 0)) ∧ c.rsv 1 3 = true ∧ c.u16 8 ≤ 3600 ∧ c.u16 10 ≤ 60000 ∧ held s .reference = true) ∧
    (let c : Cmd := cmd 1 4 [3]; let s : State := settledM (inState .config); Admits c s [.config, .standby, .deblocked, .safeStop, .blockedFault, .replay, .factoryTest] [.active, .standby] ∧ Inline c 4 ∧ mprOk s = true ∧ ((List.range 5).filter (bit (c.u8 0))).all (fun n => if n = 4 then (s.meas.spareFor.isNone && !s.meas.spareBad) else unitIn s n) = true ∧ 0 < c.u8 0 ∧ c.u8 0 < 32 ∧ c.u8 1 < 2 ∧ c.rsv 2 2 = true ∧ ((List.range 5).filter (bit (c.u8 0))).all (fun n => !held s (.measUnit n)) = true ∧ pendCount s c.mb < 8 ∧ s.meas.settled = true) ∧
    (let c : Cmd := cmd 1 4 [1]; let s : State := (inState .config).onMeas (fun m => { m with settled := false }); Admits c s [.config, .standby, .deblocked, .safeStop, .blockedFault, .replay, .factoryTest] [.active, .standby] ∧ Inline c 4 ∧ mprOk s = true ∧ ((List.range 5).filter (bit (c.u8 0))).all (fun n => if n = 4 then (s.meas.spareFor.isNone && !s.meas.spareBad) else unitIn s n) = true ∧ 0 < c.u8 0 ∧ c.u8 0 < 32 ∧ c.u8 1 < 2 ∧ c.rsv 2 2 = true ∧ ((List.range 5).filter (bit (c.u8 0))).all (fun n => !held s (.measUnit n)) = true ∧ pendCount s c.mb < 8 ∧ s.meas.settled = false) ∧
    (let c : Cmd := cmd 1 4 [1]; let s : State := (inState .config).onMb (fun m => { m with pend := [{ pendOf 0x0905 with objs := [.measUnit 0] }] }); Admits c s [.config, .standby, .deblocked, .safeStop, .blockedFault, .replay, .factoryTest] [.active, .standby] ∧ Inline c 4 ∧ mprOk s = true ∧ ((List.range 5).filter (bit (c.u8 0))).all (fun n => if n = 4 then (s.meas.spareFor.isNone && !s.meas.spareBad) else unitIn s n) = true ∧ 0 < c.u8 0 ∧ c.u8 0 < 32 ∧ c.u8 1 < 2 ∧ c.rsv 2 2 = true ∧ ((List.range 5).filter (bit (c.u8 0))).all (fun n => !held s (.measUnit n)) = false) ∧
    (let c : Cmd := cmd 1 4 [0, 1]; let s : State := (inState .config).onMeas (fun m => { m with tests := [⟨false, 0, none⟩] }); Admits c s [.config, .standby, .deblocked, .safeStop, .blockedFault, .replay, .factoryTest] [.active, .standby] ∧ Inline c 4 ∧ mprOk s = true ∧ c.rsv 2 2 = true ∧ c.u8 0 = 0 ∧ c.u8 1 < 5 ∧ (if c.u8 1 = 4 then (s.meas.spareFor.isNone && !s.meas.spareBad) else unitIn s (c.u8 1)) = true ∧ held s .dac = false ∧ pendCount s c.mb < 8 ∧ s.meas.tests ≠ []) ∧
    (let c : Cmd := cmd 1 4 [0, 1]; let s : State := inState .config; Admits c s [.config, .standby, .deblocked, .safeStop, .blockedFault, .replay, .factoryTest] [.active, .standby] ∧ Inline c 4 ∧ mprOk s = true ∧ c.rsv 2 2 = true ∧ c.u8 0 = 0 ∧ c.u8 1 < 5 ∧ (if c.u8 1 = 4 then (s.meas.spareFor.isNone && !s.meas.spareBad) else unitIn s (c.u8 1)) = true ∧ held s .dac = false ∧ s.meas.tests = []) ∧
    (let c : Cmd := cmd 1 4 [1, 1]; let s : State := (inState .config).onMeas (fun m => { m with chan := [(1, { on := true })], seq := [(0, { rlen := 1, rslots := [1] })] }); Admits c s [.config, .standby, .deblocked, .safeStop, .blockedFault, .replay, .factoryTest] [.active, .standby] ∧ Inline c 4 ∧ mprOk s = true ∧ c.rsv 2 2 = true ∧ c.u8 0 = 1 ∧ c.u8 1 < 64 ∧ (mChan s (c.u8 1)).on = true ∧ unitIn s (mChan s (c.u8 1)).unit = true ∧ held s .dac = false ∧ s.meas.tests = [] ∧ (mChan s (c.u8 1)).pos < 12 ∧ ((mSeq s (mChan s (c.u8 1)).unit).rslots.take (mSeq s (mChan s (c.u8 1)).unit).rlen).contains (c.u8 1) = true) ∧
    (let c : Cmd := cmd 1 4 [1, 1]; let s : State := (inState .config).onMeas (fun m => { m with tests := [⟨false, 0, none⟩], chan := [(1, { on := true })], seq := [(0, { rlen := 1, rslots := [1] })] }); Admits c s [.config, .standby, .deblocked, .safeStop, .blockedFault, .replay, .factoryTest] [.active, .standby] ∧ Inline c 4 ∧ mprOk s = true ∧ c.rsv 2 2 = true ∧ c.u8 0 = 1 ∧ c.u8 1 < 64 ∧ (mChan s (c.u8 1)).on = true ∧ unitIn s (mChan s (c.u8 1)).unit = true ∧ held s .dac = false ∧ pendCount s c.mb < 8 ∧ s.meas.tests ≠ [] ∧ (mChan s (c.u8 1)).pos < 12 ∧ ((mSeq s (mChan s (c.u8 1)).unit).rslots.take (mSeq s (mChan s (c.u8 1)).unit).rlen).contains (c.u8 1) = true) ∧
    (let c : Cmd := cmd 1 4 [1, 1]; let s : State := inState .config; Admits c s [.config, .standby, .deblocked, .safeStop, .blockedFault, .replay, .factoryTest] [.active, .standby] ∧ Inline c 4 ∧ mprOk s = true ∧ c.rsv 2 2 = true ∧ c.u8 0 = 1 ∧ c.u8 1 < 64 ∧ ((mChan s (c.u8 1)).on = false ∨ (unitIn s (mChan s (c.u8 1)).unit = true ∧ (12 ≤ (mChan s (c.u8 1)).pos ∨ ((mSeq s (mChan s (c.u8 1)).unit).rslots.take (mSeq s (mChan s (c.u8 1)).unit).rlen).contains (c.u8 1) = false))) ∧ held s .dac = false ∧ s.meas.tests = []) ∧
    (let c : Cmd := cmd 1 4 [0, 1]; let s : State := (inState .config).onMb (fun m => { m with pend := [{ pendOf 0x0906 with objs := [.dac] }] }); Admits c s [.config, .standby, .deblocked, .safeStop, .blockedFault, .replay, .factoryTest] [.active, .standby] ∧ Inline c 4 ∧ mprOk s = true ∧ c.rsv 2 2 = true ∧ c.u8 0 = 0 ∧ c.u8 1 < 5 ∧ (if c.u8 1 = 4 then (s.meas.spareFor.isNone && !s.meas.spareBad) else unitIn s (c.u8 1)) = true ∧ held s .dac = true) ∧
    (let c : Cmd := cmd 1 12 [0, 0, 0, 0, 64]; let s : State := inState .config; Serving s ∧ Inline c 12 ∧ c.mb ≠ 0 ∧ mprOk s = true ∧ c.u8 0 < 2 ∧ c.rsv 1 3 = true ∧ c.u8 0 = 0 ∧ c.u64 4 % 64 = 0) ∧
    (let c : Cmd := cmd 1 12 [1, 0, 0, 0, 64]; let s : State := inState .config; Serving s ∧ Inline c 12 ∧ c.mb ≠ 0 ∧ mprOk s = true ∧ c.u8 0 < 2 ∧ c.rsv 1 3 = true ∧ c.u8 0 = 1 ∧ c.u64 4 % 64 = 0) ∧
    (let c : Cmd := cmd 1 16 []; let s : State := lacksMpr (inState .config); Serving s ∧ c.mb ≠ 0 ∧ Inline c 16 ∧ mprOk s = false) ∧
    (let c : Cmd := cmd 1 36 []; let s : State := lacksMpr (inState .config); Serving s ∧ c.mb ≠ 0 ∧ Inline c 36 ∧ mprOk s = false) ∧
    (let c : Cmd := cmd 1 12 []; let s : State := lacksMpr (inState .config); Serving s ∧ c.mb ≠ 0 ∧ Inline c 12 ∧ mprOk s = false) ∧
    (let c : Cmd := cmd 1 12 []; let s : State := lacksMpr (inState .config); Serving s ∧ c.mb ≠ 0 ∧ Inline c 12 ∧ mprOk s = false) ∧
    (let c : Cmd := cmd 1 4 []; let s : State := lacksMpr (inState .config); Serving s ∧ c.mb ≠ 0 ∧ Inline c 4 ∧ mprOk s = false) ∧
    (let c : Cmd := cmd 1 4 []; let s : State := lacksMpr (inState .config); Serving s ∧ c.mb ≠ 0 ∧ Inline c 4 ∧ mprOk s = false) ∧
    (let c : Cmd := cmd 1 12 []; let s : State := lacksMpr (inState .config); Serving s ∧ c.mb ≠ 0 ∧ Inline c 12 ∧ mprOk s = false) := by
  iterate 27 refine And.intro (by intros; decide +kernel +zetaReduce) ?_
  intros; decide +kernel +zetaReduce

set_option maxRecDepth 20000 in
/-- States and operands that meet the hypotheses of MeasurementEventsRunTheUnits, clause by clause. -/
theorem test_witness_MeasurementEventsRunTheUnits :
    (let n : Nat := 0; let s : State := inState .config; mprOk s = true ∧ unitIn s n = true ∧ (unitGet s n).cal ≠ some false ∧ (cdcGet s 3 5 n).stalled = false) ∧
    (let n : Nat := 0; let s : State := cdcUpd 3 5 0 (fun x => { x with stalled := true }) (inState .config); mprOk s = true ∧ unitIn s n = true ∧ (unitGet s n).cal ≠ some false ∧ (cdcGet s 3 5 n).stalled = true) ∧
    (let n : Nat := 4; let s : State := inState .config; (mprOk s = false ∨ unitIn s n = false ∨ (unitGet s n).cal = some false)) ∧
    (let trig : InjTrigger := ⟨4, false⟩; let s : State := inState .config; (mprOk s = false ∨ unitIn s trig.unit = false ∨ (mSeq s trig.unit).itrig = 0)) ∧
    (let trig : InjTrigger := ⟨0, true⟩; let s : State := cdcUpd 3 5 0 (fun x => { x with req := true }) trigUnit; mprOk s = true ∧ unitIn s trig.unit = true ∧ (mSeq s trig.unit).itrig ≠ 0 ∧ trig.busy = true ∧ (cdcGet s 3 5 trig.unit).isOpen = true) ∧
    (let trig : InjTrigger := ⟨0, true⟩; let s : State := trigUnit; mprOk s = true ∧ unitIn s trig.unit = true ∧ (mSeq s trig.unit).itrig ≠ 0 ∧ trig.busy = true ∧ (cdcGet s 3 5 trig.unit).isOpen = false ∧ (unitGet s trig.unit).cal ≠ some false ∧ (unitGet s trig.unit).calReq ≠ some false ∧ (unitGet s trig.unit).pending = false) ∧
    (let trig : InjTrigger := ⟨0, true⟩; let s : State := unitUpd 0 (fun y => { y with pending := true }) trigUnit; mprOk s = true ∧ unitIn s trig.unit = true ∧ (mSeq s trig.unit).itrig ≠ 0 ∧ trig.busy = true ∧ (cdcGet s 3 5 trig.unit).isOpen = false ∧ (unitGet s trig.unit).cal ≠ some false ∧ (unitGet s trig.unit).calReq ≠ some false ∧ (unitGet s trig.unit).pending = true) ∧
    (let trig : InjTrigger := ⟨0, true⟩; let s : State := unitUpd 0 (fun y => { y with cal := some false }) trigUnit; mprOk s = true ∧ unitIn s trig.unit = true ∧ (mSeq s trig.unit).itrig ≠ 0 ∧ trig.busy = true ∧ (cdcGet s 3 5 trig.unit).isOpen = false ∧ ((unitGet s trig.unit).cal = some false ∨ (unitGet s trig.unit).calReq = some false) ∧ (unitGet s trig.unit).heldT = false) ∧
    (let trig : InjTrigger := ⟨0, true⟩; let s : State := unitUpd 0 (fun y => { y with cal := some false, heldT := true }) trigUnit; mprOk s = true ∧ unitIn s trig.unit = true ∧ (mSeq s trig.unit).itrig ≠ 0 ∧ trig.busy = true ∧ (cdcGet s 3 5 trig.unit).isOpen = false ∧ ((unitGet s trig.unit).cal = some false ∨ (unitGet s trig.unit).calReq = some false) ∧ (unitGet s trig.unit).heldT = true) ∧
    (let trig : InjTrigger := ⟨0, false⟩; let s : State := trigUnit; let v : State := triggersCross 0 trigUnit; mprOk s = true ∧ unitIn s trig.unit = true ∧ (mSeq s trig.unit).itrig ≠ 0 ∧ trig.busy = false ∧ v = triggersCross trig.unit s ∧ (cdcGet v 3 5 trig.unit).isOpen = false) ∧
    (let s : State := inState .config; let v : State := crossCheck 1 (crossCheck 0 (inState .config)); mprOk s = true ∧ v = crossCheck 1 (crossCheck 0 s) ∧ workRole s = .active) ∧
    (let s : State := asRole .standby (inState .config); let v : State := crossCheck 1 (crossCheck 0 (asRole .standby (inState .config))); mprOk s = true ∧ v = crossCheck 1 (crossCheck 0 s) ∧ workRole s ≠ .active) ∧
    (let s : State := lacksMpr (inState .config); mprOk s = false) ∧
    (let s : State := lacksMpr (inState .config); mprOk s = false) ∧
    (let a : Bool := true; let s : State := (inState .config).onMeas (fun m => { m with settled := false }); mprOk s = true ∧ s.meas.settled = false ∧ (a = false ∨ s.meas.inCnt + 1 < 1000)) ∧
    (let b : Bool := true; let s : State := (inState .config).onMeas (fun m => { m with settled := false, inCnt := 999 }); let v : State := ((inState .config).onMeas (fun m => { m with settled := false, inCnt := 1000, outCnt := 0 })); mprOk s = true ∧ s.meas.settled = false ∧ 1000 ≤ s.meas.inCnt + 1 ∧ v = s.onMeas (fun m => { m with inCnt := s.meas.inCnt + 1, outCnt := if b then 0 else s.meas.outCnt + 1 }) ∧ calUnits v ≠ []) ∧
    (let b : Bool := true; let s : State := (inState .config).onMeas (fun m => { m with settled := false, inCnt := 999, spareBad := true, units := [(0, { removed := true }), (1, { removed := true }), (2, { removed := true }), (3, { removed := true })] }); let v : State := ((inState .config).onMeas (fun m => { m with settled := false, inCnt := 1000, outCnt := 0, spareBad := true, units := [(0, { removed := true }), (1, { removed := true }), (2, { removed := true }), (3, { removed := true })] })); mprOk s = true ∧ s.meas.settled = false ∧ 1000 ≤ s.meas.inCnt + 1 ∧ v = s.onMeas (fun m => { m with inCnt := s.meas.inCnt + 1, outCnt := if b then 0 else s.meas.outCnt + 1 }) ∧ calUnits v = []) ∧
    (let s : State := (settledM (inState .config)).onMeas (fun m => { m with outCnt := 9 }); mprOk s = true ∧ s.meas.settled = true ∧ 9 ≤ s.meas.outCnt) ∧
    (let b : Bool := false; let s : State := (settledM (inState .config)).onMeas (fun m => { m with outCnt := 8 }); mprOk s = true ∧ s.meas.settled = true ∧ (b = true ∨ s.meas.outCnt < 9)) ∧
    (let u : Nat := 1; let s : State := resUpd 4 3 1 (fun r => { r with st := some 4 }) (inState .config); testing s 4 3 u = true) ∧
    (let u : Nat := 4; let s : State := inState .config; testing s 4 3 u = false ∧ (mprOk s = false ∨ (u = 4 ∧ s.meas.spareRun = false) ∨ (u ≠ 4 ∧ (unitGet s u).cal = none ∧ (unitGet s u).calReq = none) ∨ (u ≠ 4 ∧ (unitGet s u).cal = some true ∧ (unitGet s u).calReq = some true))) ∧
    (let o : Int := 0; let g : Int := 0; let s : State := (inState .config).onMeas (fun m => { m with spareRun := true }); mprOk s = true ∧ testing s 4 3 4 = false ∧ s.meas.spareRun = true ∧ (unitGet s 4).cal ≠ some true ∧ o.natAbs ≤ 1024 ∧ g.natAbs ≤ 10000) ∧
    (let o : Int := 2000; let g : Int := 0; let s : State := (inState .config).onMeas (fun m => { m with spareRun := true }); mprOk s = true ∧ testing s 4 3 4 = false ∧ s.meas.spareRun = true ∧ (unitGet s 4).cal ≠ some true ∧ (1024 < o.natAbs ∨ 10000 < g.natAbs)) ∧
    (let u : Nat := 1; let o : Int := 0; let g : Int := 0; let s : State := unitUpd 1 (fun z => { z with cal := some true }) (inState .config); mprOk s = true ∧ u ≠ 4 ∧ testing s 4 3 u = false ∧ (unitGet s u).cal = some true ∧ (unitGet s u).calReq ≠ some true ∧ o.natAbs ≤ 1024 ∧ g.natAbs ≤ 10000) ∧
    (let u : Nat := 1; let o : Int := 2000; let g : Int := 0; let s : State := unitUpd 1 (fun z => { z with cal := some true }) (inState .config); mprOk s = true ∧ u ≠ 4 ∧ testing s 4 3 u = false ∧ (unitGet s u).cal = some true ∧ (unitGet s u).calReq ≠ some true ∧ (1024 < o.natAbs ∨ 10000 < g.natAbs)) ∧
    (let u : Nat := 1; let o : Int := 0; let g : Int := 0; let s : State := unitUpd 1 (fun z => { z with cal := none, calReq := some true }) (inState .config); mprOk s = true ∧ u ≠ 4 ∧ testing s 4 3 u = false ∧ (unitGet s u).cal = none ∧ (unitGet s u).calReq = some true ∧ o.natAbs ≤ 1024 ∧ g.natAbs ≤ 10000) ∧
    (let u : Nat := 1; let o : Int := 2000; let g : Int := 0; let s : State := unitUpd 1 (fun z => { z with cal := none, calReq := some true }) (inState .config); mprOk s = true ∧ u ≠ 4 ∧ testing s 4 3 u = false ∧ (unitGet s u).cal = none ∧ (unitGet s u).calReq = some true ∧ (1024 < o.natAbs ∨ 10000 < g.natAbs)) ∧
    (let u : Nat := 1; let o : Int := 0; let g : Int := 0; let s : State := unitUpd 1 (fun z => { z with cal := some false }) (inState .config); mprOk s = true ∧ u ≠ 4 ∧ testing s 4 3 u = false ∧ (unitGet s u).cal = some false ∧ o.natAbs ≤ 1024 ∧ g.natAbs ≤ 10000) ∧
    (let u : Nat := 1; let o : Int := 2000; let g : Int := 0; let s : State := unitUpd 1 (fun z => { z with cal := some false }) (inState .config); mprOk s = true ∧ u ≠ 4 ∧ testing s 4 3 u = false ∧ (unitGet s u).cal = some false ∧ (1024 < o.natAbs ∨ 10000 < g.natAbs)) ∧
    (let u : Nat := 1; let o : Int := 0; let g : Int := 0; let s : State := unitUpd 1 (fun z => { z with cal := none, calReq := some false }) (inState .config); mprOk s = true ∧ u ≠ 4 ∧ testing s 4 3 u = false ∧ (unitGet s u).cal = none ∧ (unitGet s u).calReq = some false ∧ o.natAbs ≤ 1024 ∧ g.natAbs ≤ 10000) ∧
    (let u : Nat := 1; let o : Int := 2000; let g : Int := 0; let s : State := unitUpd 1 (fun z => { z with cal := none, calReq := some false }) (inState .config); mprOk s = true ∧ u ≠ 4 ∧ testing s 4 3 u = false ∧ (unitGet s u).cal = none ∧ (unitGet s u).calReq = some false ∧ (1024 < o.natAbs ∨ 10000 < g.natAbs)) ∧
    (let s : State := (inState .config).onMeas (fun m => { m with calPer := 0 }); (mprOk s = false ∨ s.meas.calPer = 0)) ∧
    (let s : State := (inState .config).onMeas (fun m => { m with calPer := 5, calTurn := 4 }); mprOk s = true ∧ s.meas.calPer ≠ 0 ∧ s.meas.calTurn = 4 ∧ (calUnits s).contains 4 = true ∧ s.meas.covers = none ∧ s.meas.spareRun = false) ∧
    (let s : State := (inState .config).onMeas (fun m => { m with calPer := 5, calTurn := 4, spareBad := true }); mprOk s = true ∧ s.meas.calPer ≠ 0 ∧ s.meas.calTurn = 4 ∧ ((calUnits s).contains 4 = false ∨ s.meas.covers ≠ none ∨ s.meas.spareRun = true)) ∧
    (let s : State := (inState .config).onMeas (fun m => { m with calPer := 5, calTurn := 1, settled := false }); mprOk s = true ∧ s.meas.calPer ≠ 0 ∧ s.meas.calTurn ≠ 4 ∧ (unitIn s s.meas.calTurn = false ∨ s.meas.settled = false ∨ (unitGet s s.meas.calTurn).cal ≠ none ∨ (unitGet s s.meas.calTurn).calReq ≠ none)) ∧
    (let s : State := (settledM (inState .deblocked)).onMeas (fun m => { m with calPer := 5, calTurn := 1, spareFor := some 2 }); mprOk s = true ∧ s.meas.calPer ≠ 0 ∧ s.meas.calTurn ≠ 4 ∧ unitIn s s.meas.calTurn = true ∧ s.meas.settled = true ∧ (unitGet s s.meas.calTurn).cal = none ∧ (unitGet s s.meas.calTurn).calReq = none ∧ s.meas.spareFor ≠ none ∧ running s = true) ∧
    (let s : State := (settledM (inState .config)).onMeas (fun m => { m with calPer := 5, calTurn := 1 }); mprOk s = true ∧ s.meas.calPer ≠ 0 ∧ s.meas.calTurn ≠ 4 ∧ unitIn s s.meas.calTurn = true ∧ s.meas.settled = true ∧ (unitGet s s.meas.calTurn).cal = none ∧ (unitGet s s.meas.calTurn).calReq = none ∧ (s.meas.spareFor = none ∨ running s = false)) ∧
    (let s : State := inState .config; s.meas.tests.all (fun e => !s.meas.testOn || e.path) = true) ∧
    (let t : DacTest := ⟨false, 1, none⟩; let l : List DacTest := []; let x : Int := 8192; let y : Int := 24576; let s : State := (inState .config).onMeas (fun m => { m with tests := [⟨false, 1, none⟩], testOn := true }); s.meas.tests = t :: l ∧ s.meas.testOn = true ∧ t.path = false ∧ t.cross = none ∧ ((x - 8192).natAbs ≤ 66 ∧ (y - 24576).natAbs ≤ 66) ∧ testing s 4 3 t.obj = false) ∧
    (let t : DacTest := ⟨false, 1, none⟩; let l : List DacTest := []; let x : Int := 0; let y : Int := 24576; let s : State := (inState .config).onMeas (fun m => { m with tests := [⟨false, 1, none⟩], testOn := true }); s.meas.tests = t :: l ∧ s.meas.testOn = true ∧ t.path = false ∧ t.cross = none ∧ (66 < (x - 8192).natAbs ∨ 66 < (y - 24576).natAbs) ∧ testing s 4 3 t.obj = false) ∧
    (let t : DacTest := ⟨false, 1, none⟩; let l : List DacTest := []; let x : Int := 8192; let y : Int := 24576; let s : State := (resUpd 4 3 1 (fun r => { r with st := some 4 }) (inState .config)).onMeas (fun m => { m with tests := [⟨false, 1, none⟩], testOn := true }); s.meas.tests = t :: l ∧ s.meas.testOn = true ∧ t.path = false ∧ t.cross = none ∧ ((x - 8192).natAbs ≤ 66 ∧ (y - 24576).natAbs ≤ 66) ∧ testing s 4 3 t.obj = true) ∧
    (let t : DacTest := ⟨false, 1, none⟩; let l : List DacTest := []; let x : Int := 0; let y : Int := 24576; let s : State := (resUpd 4 3 1 (fun r => { r with st := some 4 }) (inState .config)).onMeas (fun m => { m with tests := [⟨false, 1, none⟩], testOn := true }); s.meas.tests = t :: l ∧ s.meas.testOn = true ∧ t.path = false ∧ t.cross = none ∧ (66 < (x - 8192).natAbs ∨ 66 < (y - 24576).natAbs) ∧ testing s 4 3 t.obj = true) ∧
    (let t : DacTest := ⟨false, 1, some 0⟩; let l : List DacTest := []; let x : Int := 8192; let y : Int := 24576; let p : Nat := 0; let s : State := (inState .config).onMeas (fun m => { m with tests := [⟨false, 1, some 0⟩], testOn := true }); let v : State := mPairUpd 0 (fun z => { z with passed := 1, unres := z.unres || false }) ((inState .config).onMeas (fun m => { m with tests := [⟨false, 1, some 0⟩], testOn := true })); s.meas.tests = t :: l ∧ s.meas.testOn = true ∧ t.path = false ∧ t.cross = some p ∧ ((x - 8192).natAbs ≤ 66 ∧ (y - 24576).natAbs ≤ 66) ∧ testing s 4 3 t.obj = false ∧ v = mPairUpd p (fun z => { z with passed := (mPair s p).passed + 1, unres := z.unres || decide (2 ≤ (mPair s p).passed + 1) }) s ∧ (mPair s p).passed ≠ 1) ∧
    (let t : DacTest := ⟨false, 1, some 0⟩; let l : List DacTest := []; let x : Int := 8192; let y : Int := 24576; let p : Nat := 0; let s : State := (mPairUpd 0 (fun z => { z with passed := 1 }) (inState .config)).onMeas (fun m => { m with tests := [⟨false, 1, some 0⟩], testOn := true }); s.meas.tests = t :: l ∧ s.meas.testOn = true ∧ t.path = false ∧ t.cross = some p ∧ ((x - 8192).natAbs ≤ 66 ∧ (y - 24576).natAbs ≤ 66) ∧ testing s 4 3 t.obj = false ∧ (mPair s p).passed = 1) ∧
    (let t : DacTest := ⟨false, 1, some 0⟩; let l : List DacTest := []; let x : Int := 0; let y : Int := 24576; let p : Nat := 0; let s : State := (inState .config).onMeas (fun m => { m with tests := [⟨false, 1, some 0⟩], testOn := true }); s.meas.tests = t :: l ∧ s.meas.testOn = true ∧ t.path = false ∧ t.cross = some p ∧ (66 < (x - 8192).natAbs ∨ 66 < (y - 24576).natAbs) ∧ testing s 4 3 t.obj = false) ∧
    (let s : State := inState .config; s.meas.tests.all (fun e => !s.meas.testOn || !e.path) = true) ∧
    (let t : DacTest := ⟨true, 1, none⟩; let l : List DacTest := []; let x : Int := 0; let y : Int := 100; let s : State := (inState .config).onMeas (fun m => { m with tests := [⟨true, 1, none⟩], testOn := true, chan := [(1, { pmin := 0, pmax := 200 })] }); s.meas.tests = t :: l ∧ s.meas.testOn = true ∧ t.path = true ∧ ((mChan s t.obj).pmin : Int) ≤ y - x ∧ y - x ≤ (mChan s t.obj).pmax) ∧
    (let t : DacTest := ⟨true, 1, none⟩; let l : List DacTest := []; let x : Int := 0; let y : Int := 300; let s : State := (inState .config).onMeas (fun m => { m with tests := [⟨true, 1, none⟩], testOn := true, chan := [(1, { pmin := 0, pmax := 200 })] }); s.meas.tests = t :: l ∧ s.meas.testOn = true ∧ t.path = true ∧ (y - x < ((mChan s t.obj).pmin : Int) ∨ ((mChan s t.obj).pmax : Int) < y - x)) ∧
    (let s : State := (inState .config).onMeas (fun m => { m with diagPer := 0 }); (mprOk s = false ∨ s.meas.diagPer = 0)) ∧
    (let s : State := (inState .config).onMeas (fun m => { m with diagPer := 5, diagTurn := 1 }); mprOk s = true ∧ s.meas.diagPer ≠ 0 ∧ (if s.meas.diagTurn = 4 then s.meas.spareFor.isNone && !s.meas.spareBad && s.meas.covers.isNone else unitIn s s.meas.diagTurn) = true) ∧
    (let s : State := (inState .config).onMeas (fun m => { m with diagPer := 5, diagTurn := 4, spareBad := true }); mprOk s = true ∧ s.meas.diagPer ≠ 0 ∧ (if s.meas.diagTurn = 4 then s.meas.spareFor.isNone && !s.meas.spareBad && s.meas.covers.isNone else unitIn s s.meas.diagTurn) = false) ∧
    (let s : State := (inState .config).onMeas (fun m => { m with settled := false }); s.meas.settled = false) ∧
    (let s : State := settledM (inState .config); s.meas.settled = true) := by
  iterate 52 refine And.intro (by intros; decide +kernel +zetaReduce) ?_
  intros; decide +kernel +zetaReduce

set_option maxRecDepth 20000 in
/-- States and operands that meet the hypotheses of AcquisitionCommandsAndEvents, clause by clause. -/
theorem test_witness_AcquisitionCommandsAndEvents :
    (let c : Cmd := cmd 1 8 [2, 1]; let s : State := inState .config; let k : AcqCfg := { acqCfg (inState .config) ((cmd 1 8 [2, 1]).u8 0) with on := bit ((cmd 1 8 [2, 1]).u8 1) 0, invert := bit ((cmd 1 8 [2, 1]).u8 1) 1, prot := bit ((cmd 1 8 [2, 1]).u8 1) 2, offs := (cmd 1 8 [2, 1]).s16 2 }; k = { acqCfg s (c.u8 0) with on := bit (c.u8 1) 0, invert := bit (c.u8 1) 1, prot := bit (c.u8 1) 2, offs := c.s16 2 } ∧ Serving s ∧ Inline c 8 ∧ c.mb ≠ 0 ∧ mprOk s = true ∧ c.u8 0 < 4 ∧ c.u8 1 < 8 ∧ -2048 ≤ c.s16 2 ∧ c.s16 2 ≤ 2047 ∧ c.rsv 4 4 = true ∧ (acqGet s (c.u8 0)).state = .disarmed) ∧
    (let c : Cmd := cmd 1 8 [2, 1]; let s : State := acqUpd 2 (fun x => { x with state := .armed }) (inState .config); Serving s ∧ Inline c 8 ∧ c.mb ≠ 0 ∧ mprOk s = true ∧ c.u8 0 < 4 ∧ c.u8 1 < 8 ∧ -2048 ≤ c.s16 2 ∧ c.s16 2 ≤ 2047 ∧ c.rsv 4 4 = true ∧ (acqGet s (c.u8 0)).state ≠ .disarmed) ∧
    (let c : Cmd := cmd 1 24 [2, 0, 0, 0, 0, 0, 1, 0, 0, 0, 0, 0, 1, 0, 0, 0, 64]; let s : State := inState .config; let k : AcqCfg := { acqCfg (inState .config) ((cmd 1 24 [2, 0, 0, 0, 0, 0, 1, 0, 0, 0, 0, 0, 1, 0, 0, 0, 64]).u8 0) with kind := (cmd 1 24 [2, 0, 0, 0, 0, 0, 1, 0, 0, 0, 0, 0, 1, 0, 0, 0, 64]).u8 1 % 4, dir := (cmd 1 24 [2, 0, 0, 0, 0, 0, 1, 0, 0, 0, 0, 0, 1, 0, 0, 0, 64]).u8 1 / 4 % 4, th := (cmd 1 24 [2, 0, 0, 0, 0, 0, 1, 0, 0, 0, 0, 0, 1, 0, 0, 0, 64]).s16 2, hyst := (cmd 1 24 [2, 0, 0, 0, 0, 0, 1, 0, 0, 0, 0, 0, 1, 0, 0, 0, 64]).u16 4, ds := (cmd 1 24 [2, 0, 0, 0, 0, 0, 1, 0, 0, 0, 0, 0, 1, 0, 0, 0, 64]).u8 6, cmp := (cmd 1 24 [2, 0, 0, 0, 0, 0, 1, 0, 0, 0, 0, 0, 1, 0, 0, 0, 64]).u8 7, group := (cmd 1 24 [2, 0, 0, 0, 0, 0, 1, 0, 0, 0, 0, 0, 1, 0, 0, 0, 64]).u8 8, mode := (cmd 1 24 [2, 0, 0, 0, 0, 0, 1, 0, 0, 0, 0, 0, 1, 0, 0, 0, 64]).u8 9, dest := (cmd 1 24 [2, 0, 0, 0, 0, 0, 1, 0, 0, 0, 0, 0, 1, 0, 0, 0, 64]).u32 12, len := (cmd 1 24 [2, 0, 0, 0, 0, 0, 1, 0, 0, 0, 0, 0, 1, 0, 0, 0, 64]).u32 16, pre := (cmd 1 24 [2, 0, 0, 0, 0, 0, 1, 0, 0, 0, 0, 0, 1, 0, 0, 0, 64]).u32 20 }; k = { acqCfg s (c.u8 0) with kind := c.u8 1 % 4, dir := c.u8 1 / 4 % 4, th := c.s16 2, hyst := c.u16 4, ds := c.u8 6, cmp := c.u8 7, group := c.u8 8, mode := c.u8 9, dest := c.u32 12, len := c.u32 16, pre := c.u32 20 } ∧ Serving s ∧ Inline c 24 ∧ c.mb ≠ 0 ∧ mprOk s = true ∧ c.u8 0 < 4 ∧ c.u8 1 < 16 ∧ k.dir < 3 ∧ ((k.kind = 1 ∧ 1 ≤ k.th ∧ k.th ≤ 4095) ∨ (k.kind ≠ 1 ∧ -2048 ≤ k.th ∧ k.th ≤ 2047)) ∧ k.hyst ≤ 1023 ∧ 1 ≤ k.ds ∧ k.ds ≤ 16 ∧ k.cmp < 24 ∧ k.group < 16 ∧ bit k.group (c.u8 0) = false ∧ k.mode < 3 ∧ 1 ≤ k.dest ∧ k.dest ≤ 1000000 ∧ 64 ≤ k.len ∧ k.len ≤ 65536 ∧ k.len % 64 = 0 ∧ k.pre + 64 ≤ k.len ∧ c.rsv 10 2 = true ∧ (acqGet s (c.u8 0)).state = .disarmed) ∧
    (let c : Cmd := cmd 1 24 [2, 0, 0, 0, 0, 0, 1, 0, 0, 0, 0, 0, 1, 0, 0, 0, 64]; let s : State := acqUpd 2 (fun x => { x with state := .armed }) (inState .config); let k : AcqCfg := { acqCfg (acqUpd 2 (fun x => { x with state := .armed }) (inState .config)) ((cmd 1 24 [2, 0, 0, 0, 0, 0, 1, 0, 0, 0, 0, 0, 1, 0, 0, 0, 64]).u8 0) with kind := (cmd 1 24 [2, 0, 0, 0, 0, 0, 1, 0, 0, 0, 0, 0, 1, 0, 0, 0, 64]).u8 1 % 4, dir := (cmd 1 24 [2, 0, 0, 0, 0, 0, 1, 0, 0, 0, 0, 0, 1, 0, 0, 0, 64]).u8 1 / 4 % 4, th := (cmd 1 24 [2, 0, 0, 0, 0, 0, 1, 0, 0, 0, 0, 0, 1, 0, 0, 0, 64]).s16 2, hyst := (cmd 1 24 [2, 0, 0, 0, 0, 0, 1, 0, 0, 0, 0, 0, 1, 0, 0, 0, 64]).u16 4, ds := (cmd 1 24 [2, 0, 0, 0, 0, 0, 1, 0, 0, 0, 0, 0, 1, 0, 0, 0, 64]).u8 6, cmp := (cmd 1 24 [2, 0, 0, 0, 0, 0, 1, 0, 0, 0, 0, 0, 1, 0, 0, 0, 64]).u8 7, group := (cmd 1 24 [2, 0, 0, 0, 0, 0, 1, 0, 0, 0, 0, 0, 1, 0, 0, 0, 64]).u8 8, mode := (cmd 1 24 [2, 0, 0, 0, 0, 0, 1, 0, 0, 0, 0, 0, 1, 0, 0, 0, 64]).u8 9, dest := (cmd 1 24 [2, 0, 0, 0, 0, 0, 1, 0, 0, 0, 0, 0, 1, 0, 0, 0, 64]).u32 12, len := (cmd 1 24 [2, 0, 0, 0, 0, 0, 1, 0, 0, 0, 0, 0, 1, 0, 0, 0, 64]).u32 16, pre := (cmd 1 24 [2, 0, 0, 0, 0, 0, 1, 0, 0, 0, 0, 0, 1, 0, 0, 0, 64]).u32 20 }; k = { acqCfg s (c.u8 0) with kind := c.u8 1 % 4, dir := c.u8 1 / 4 % 4, th := c.s16 2, hyst := c.u16 4, ds := c.u8 6, cmp := c.u8 7, group := c.u8 8, mode := c.u8 9, dest := c.u32 12, len := c.u32 16, pre := c.u32 20 } ∧ Serving s ∧ Inline c 24 ∧ c.mb ≠ 0 ∧ mprOk s = true ∧ c.u8 0 < 4 ∧ c.u8 1 < 16 ∧ k.dir < 3 ∧ ((k.kind = 1 ∧ 1 ≤ k.th ∧ k.th ≤ 4095) ∨ (k.kind ≠ 1 ∧ -2048 ≤ k.th ∧ k.th ≤ 2047)) ∧ k.hyst ≤ 1023 ∧ 1 ≤ k.ds ∧ k.ds ≤ 16 ∧ k.cmp < 24 ∧ k.group < 16 ∧ bit k.group (c.u8 0) = false ∧ k.mode < 3 ∧ 1 ≤ k.dest ∧ k.dest ≤ 1000000 ∧ 64 ≤ k.len ∧ k.len ≤ 65536 ∧ k.len % 64 = 0 ∧ k.pre + 64 ≤ k.len ∧ c.rsv 10 2 = true ∧ (acqGet s (c.u8 0)).state ≠ .disarmed) ∧
    (let c : Cmd := cmd 1 8 [1]; let s : State := inState .config; let v : State := acqDisarm 0 (inState .config); Serving s ∧ Inline c 8 ∧ c.mb ≠ 0 ∧ mprOk s = true ∧ 0 < c.u8 0 ∧ c.u8 0 < 16 ∧ c.u8 2 < 2 ∧ c.rsv 3 1 = true ∧ c.rsv 6 2 = true ∧ c.u8 1 = 0 ∧ c.u16 4 = 0 ∧ v = ((List.range 4).filter (bit (c.u8 0))).foldl (fun w n => acqDisarm n w) s) ∧
    (let c : Cmd := cmd 1 8 [1, 3]; let s : State := inState .config; Serving s ∧ Inline c 8 ∧ c.mb ≠ 0 ∧ mprOk s = true ∧ 0 < c.u8 0 ∧ c.u8 0 < 16 ∧ c.u8 2 < 2 ∧ c.rsv 3 1 = true ∧ c.rsv 6 2 = true ∧ c.u8 1 = 3 ∧ c.u16 4 = 0) ∧
    (let c : Cmd := cmd 1 8 [1, 1]; let s : State := acqUpd 0 (fun x => { x with slots := 1, plen := 64 }) ((inState .config).onAcq (fun a => { a with cfg := [(0, { on := true, len := 64 })] })); let v : State := acqArm 0 false false 0 (acqUpd 0 (fun x => { x with slots := 1, plen := 64 }) ((inState .config).onAcq (fun a => { a with cfg := [(0, { on := true, len := 64 })] }))); Serving s ∧ Inline c 8 ∧ c.mb ≠ 0 ∧ mprOk s = true ∧ 0 < c.u8 0 ∧ c.u8 0 < 16 ∧ c.u8 2 < 2 ∧ c.rsv 3 1 = true ∧ c.rsv 6 2 = true ∧ c.u8 1 = 1 ∧ c.u16 4 = 0 ∧ (((List.range 4).filter (bit (c.u8 0))).any (fun n => !(acqCfg s n).on || !((acqGet s n).state == .disarmed || (acqGet s n).state == .done) || (c.u8 1 == 1 && ((acqGet s n).slots == 0 || (acqGet s n).plen != (acqCfg s n).len)))) = false ∧ v = (((List.range 4).filter (bit (c.u8 0))).foldl (fun w n => acqArm n false (c.u8 2 == 1) (c.u16 4) w) s)) ∧
    (let c : Cmd := cmd 1 8 [1, 2, 0, 0, 1]; let s : State := (inState .config).onAcq (fun a => { a with cfg := [(0, { on := true, len := 64 })] }); let v : State := acqArm 0 true false 1 ((inState .config).onAcq (fun a => { a with cfg := [(0, { on := true, len := 64 })] })); Serving s ∧ Inline c 8 ∧ c.mb ≠ 0 ∧ mprOk s = true ∧ 0 < c.u8 0 ∧ c.u8 0 < 16 ∧ c.u8 2 < 2 ∧ c.rsv 3 1 = true ∧ c.rsv 6 2 = true ∧ c.u8 1 = 2 ∧ 1 ≤ c.u16 4 ∧ c.u16 4 ≤ 8192 ∧ ((List.range 4).filter (bit (c.u8 0))).all (fun n => !held s (.segment n)) = true ∧ (((List.range 4).filter (bit (c.u8 0))).any (fun n => !(acqCfg s n).on || !((acqGet s n).state == .disarmed || (acqGet s n).state == .done) || (c.u8 1 == 1 && ((acqGet s n).slots == 0 || (acqGet s n).plen != (acqCfg s n).len)))) = false ∧ ((((List.range 4).filter (fun n => !bit (c.u8 0) n)).map (fun n => (acqGet s n).slots * (acqGet s n).plen * 2)).sum + (((List.range 4).filter (bit (c.u8 0))).map (fun n => c.u16 4 * (acqCfg s n).len * 2)).sum) ≤ 8388608 ∧ ((((List.range 4).filter (fun n => !bit (c.u8 0) n)).map (fun n => (acqGet s n).slots)).sum + ((List.range 4).filter (bit (c.u8 0))).length * c.u16 4) ≤ 8192 ∧ v = (((List.range 4).filter (bit (c.u8 0))).foldl (fun w n => acqArm n true (c.u8 2 == 1) (c.u16 4) w) s)) ∧
    (let c : Cmd := cmd 1 8 [1, 1]; let s : State := inState .config; Serving s ∧ Inline c 8 ∧ c.mb ≠ 0 ∧ mprOk s = true ∧ 0 < c.u8 0 ∧ c.u8 0 < 16 ∧ c.u8 2 < 2 ∧ c.rsv 3 1 = true ∧ c.rsv 6 2 = true ∧ ((c.u8 1 = 1 ∧ c.u16 4 = 0) ∨ (c.u8 1 = 2 ∧ 1 ≤ c.u16 4 ∧ c.u16 4 ≤ 8192 ∧ ((List.range 4).filter (bit (c.u8 0))).all (fun n => !held s (.segment n)) = true)) ∧ (((List.range 4).filter (bit (c.u8 0))).any (fun n => !(acqCfg s n).on || !((acqGet s n).state == .disarmed || (acqGet s n).state == .done) || (c.u8 1 == 1 && ((acqGet s n).slots == 0 || (acqGet s n).plen != (acqCfg s n).len)))) = true) ∧
    (let c : Cmd := cmd 1 8 [1, 2, 0, 0, 0, 32]; let s : State := (inState .config).onAcq (fun a => { a with cfg := [(0, { on := true, len := 65536 })] }); Serving s ∧ Inline c 8 ∧ c.mb ≠ 0 ∧ mprOk s = true ∧ 0 < c.u8 0 ∧ c.u8 0 < 16 ∧ c.u8 2 < 2 ∧ c.rsv 3 1 = true ∧ c.rsv 6 2 = true ∧ c.u8 1 = 2 ∧ 1 ≤ c.u16 4 ∧ c.u16 4 ≤ 8192 ∧ ((List.range 4).filter (bit (c.u8 0))).all (fun n => !held s (.segment n)) = true ∧ (((List.range 4).filter (bit (c.u8 0))).any (fun n => !(acqCfg s n).on || !((acqGet s n).state == .disarmed || (acqGet s n).state == .done) || (c.u8 1 == 1 && ((acqGet s n).slots == 0 || (acqGet s n).plen != (acqCfg s n).len)))) = false ∧ (8388608 < ((((List.range 4).filter (fun n => !bit (c.u8 0) n)).map (fun n => (acqGet s n).slots * (acqGet s n).plen * 2)).sum + (((List.range 4).filter (bit (c.u8 0))).map (fun n => c.u16 4 * (acqCfg s n).len * 2)).sum) ∨ 8192 < ((((List.range 4).filter (fun n => !bit (c.u8 0) n)).map (fun n => (acqGet s n).slots)).sum + ((List.range 4).filter (bit (c.u8 0))).length * c.u16 4))) ∧
    (let c : Cmd := cmd 1 8 [1, 2, 0, 0, 1]; let s : State := (inState .config).onMb (fun m => { m with pend := [{ pendOf 0x0A04 with objs := [.segment 0] }] }); Serving s ∧ Inline c 8 ∧ c.mb ≠ 0 ∧ mprOk s = true ∧ 0 < c.u8 0 ∧ c.u8 0 < 16 ∧ c.u8 2 < 2 ∧ c.rsv 3 1 = true ∧ c.rsv 6 2 = true ∧ c.u8 1 = 2 ∧ 1 ≤ c.u16 4 ∧ c.u16 4 ≤ 8192 ∧ ((List.range 4).filter (bit (c.u8 0))).all (fun n => !held s (.segment n)) = false) ∧
    (let c : Cmd := cmd 1 16 [0, 2, 0, 0, 0, 0, 0, 0, 64]; let s : State := withSegment; let v : State := acqUpd 0 (fun x => { x with segs := x.segs.map (fun y => if y.seg = aSegment.seg then { y with read := true } else y) }) (putBuf 64 (aSegment.header 0) (withSegment)); let e : Segment := aSegment; Serving s ∧ Inline c 16 ∧ c.mb ≠ 0 ∧ mprOk s = true ∧ held s (.segment (c.u8 0)) = false ∧ c.u8 0 < 4 ∧ c.rsv 2 2 = true ∧ c.u64 8 % 64 = 0 ∧ c.u64 8 ≠ 0 ∧ c.u8 1 < 4 ∧ bit (c.u8 1) 0 = false ∧ acqFind s (c.u8 0) (c.u32 4) = some e ∧ v = acqUpd (c.u8 0) (fun x => { x with segs := x.segs.map (fun y => if y.seg = e.seg then { y with read := true } else y) }) (putBuf (c.u64 8) (if bit (c.u8 1) 1 then e.header (c.u8 0) else e.header (c.u8 0) ++ withCrc (e.samples.flatMap (leS 2))) s)) ∧
    (let c : Cmd := cmd 1 16 [0, 3, 0, 0, 0, 0, 0, 0, 64]; let s : State := withSegment; let v : State := acqUpd 0 (fun x => { x with segs := x.segs.map (fun y => if y.seg = aSegment.seg then { y with read := true } else y) }) (putBuf 64 (aSegment.header 0) (withSegment)); let e : Segment := aSegment; Serving s ∧ Inline c 16 ∧ c.mb ≠ 0 ∧ mprOk s = true ∧ held s (.segment (c.u8 0)) = false ∧ c.u8 0 < 4 ∧ c.rsv 2 2 = true ∧ c.u64 8 % 64 = 0 ∧ c.u64 8 ≠ 0 ∧ c.u8 1 < 4 ∧ bit (c.u8 1) 0 = true ∧ acqFind s (c.u8 0) (c.u32 4) = some e ∧ v = acqUpd (c.u8 0) (fun x => { x with segs := x.segs.map (fun y => if y.seg = e.seg then { y with read := true } else y) }) (putBuf (c.u64 8) (if bit (c.u8 1) 1 then e.header (c.u8 0) else e.header (c.u8 0) ++ withCrc (e.samples.flatMap (leS 2))) s) ∧ writesNow v c.mb = true) ∧
    (let c : Cmd := cmd 1 16 [0, 1, 0, 0, 0, 0, 0, 0, 64]; let s : State := withSegment.onPower (fun p => { p with hostUp := false }); let v : State := acqUpd 0 (fun x => { x with segs := x.segs.map (fun y => if y.seg = aSegment.seg then { y with read := true } else y) }) (putBuf 64 (aSegment.header 0 ++ withCrc (aSegment.samples.flatMap (leS 2))) (withSegment.onPower (fun p => { p with hostUp := false }))); let e : Segment := aSegment; Serving s ∧ Inline c 16 ∧ c.mb ≠ 0 ∧ mprOk s = true ∧ held s (.segment (c.u8 0)) = false ∧ c.u8 0 < 4 ∧ c.rsv 2 2 = true ∧ c.u64 8 % 64 = 0 ∧ c.u64 8 ≠ 0 ∧ c.u8 1 < 4 ∧ bit (c.u8 1) 0 = true ∧ acqFind s (c.u8 0) (c.u32 4) = some e ∧ v = acqUpd (c.u8 0) (fun x => { x with segs := x.segs.map (fun y => if y.seg = e.seg then { y with read := true } else y) }) (putBuf (c.u64 8) (if bit (c.u8 1) 1 then e.header (c.u8 0) else e.header (c.u8 0) ++ withCrc (e.samples.flatMap (leS 2))) s) ∧ writesNow v c.mb = false) ∧
    (let c : Cmd := cmd 1 16 [0, 0, 0, 0, 0, 0, 0, 0, 64]; let s : State := inState .config; Serving s ∧ Inline c 16 ∧ c.mb ≠ 0 ∧ mprOk s = true ∧ held s (.segment (c.u8 0)) = false ∧ c.u8 0 < 4 ∧ c.rsv 2 2 = true ∧ c.u64 8 % 64 = 0 ∧ c.u64 8 ≠ 0 ∧ c.u8 1 < 4 ∧ acqFind s (c.u8 0) (c.u32 4) = none) ∧
    (let c : Cmd := cmd 1 40 [0, 0, 0, 0, 0, 0, 0, 0, 1, 0, 0, 0, 0x50, 0xC3]; let s : State := withSegment; let e : Segment := aSegment; let n : Int := 64000000; Serving s ∧ Inline c 40 ∧ c.mb ≠ 0 ∧ mprOk s = true ∧ c.u8 0 < 4 ∧ c.rsv 1 3 = true ∧ 1 ≤ c.u32 8 ∧ c.u32 8 ≤ 3000000 ∧ 50000 ≤ c.u32 12 ∧ c.u32 12 ≤ 299792 ∧ c.stampOk 16 = true ∧ (c.stamp 16).frac % 1024 = 0 ∧ c.u32 28 ≤ 10000 ∧ c.rsv 32 8 = true ∧ (acqGet s (c.u8 0)).segs.find? (fun x => x.seg == c.u32 4) = some e ∧ e.cap.kind ≠ 3 ∧ n = (64000000 * c.u32 8 : Nat) + c.u32 12 * ((e.cap.t : Int) - ((c.stamp 16).val / 2 ^ 26 : Nat)) ∧ -(128000000 * c.u32 28 : Nat) ≤ n ∧ n ≤ (128000000 * (c.u32 8 + c.u32 28) : Nat)) ∧
    (let c : Cmd := cmd 1 40 [0, 0, 0, 0, 0, 0, 0, 0, 1, 0, 0, 0, 0x50, 0xC3]; let s : State := acqUpd 0 (fun x => { x with segs := [{ aSegment with cap := { aSegment.cap with t := 1000000 } }] }) (inState .config); let e : Segment := { aSegment with cap := { aSegment.cap with t := 1000000 } }; let n : Int := 50064000000; Serving s ∧ Inline c 40 ∧ c.mb ≠ 0 ∧ mprOk s = true ∧ c.u8 0 < 4 ∧ c.rsv 1 3 = true ∧ 1 ≤ c.u32 8 ∧ c.u32 8 ≤ 3000000 ∧ 50000 ≤ c.u32 12 ∧ c.u32 12 ≤ 299792 ∧ c.stampOk 16 = true ∧ (c.stamp 16).frac % 1024 = 0 ∧ c.u32 28 ≤ 10000 ∧ c.rsv 32 8 = true ∧ (acqGet s (c.u8 0)).segs.find? (fun x => x.seg == c.u32 4) = some e ∧ e.cap.kind ≠ 3 ∧ n = (64000000 * c.u32 8 : Nat) + c.u32 12 * ((e.cap.t : Int) - ((c.stamp 16).val / 2 ^ 26 : Nat)) ∧ (n < -(128000000 * c.u32 28 : Nat) ∨ (128000000 * (c.u32 8 + c.u32 28) : Nat) < n)) ∧
    (let c : Cmd := cmd 1 40 [0, 0, 0, 0, 0, 0, 0, 0, 1, 0, 0, 0, 0x50, 0xC3]; let s : State := inState .config; Serving s ∧ Inline c 40 ∧ c.mb ≠ 0 ∧ mprOk s = true ∧ c.u8 0 < 4 ∧ c.rsv 1 3 = true ∧ 1 ≤ c.u32 8 ∧ c.u32 8 ≤ 3000000 ∧ 50000 ≤ c.u32 12 ∧ c.u32 12 ≤ 299792 ∧ c.stampOk 16 = true ∧ (c.stamp 16).frac % 1024 = 0 ∧ c.u32 28 ≤ 10000 ∧ c.rsv 32 8 = true ∧ (acqGet s (c.u8 0)).segs.find? (fun x => x.seg == c.u32 4) = none) ∧
    (let c : Cmd := cmd 1 40 [0, 0, 0, 0, 0, 0, 0, 0, 1, 0, 0, 0, 0x50, 0xC3]; let s : State := acqUpd 0 (fun x => { x with segs := [{ aSegment with cap := { aSegment.cap with kind := 3 } }] }) (inState .config); let e : Segment := { aSegment with cap := { aSegment.cap with kind := 3 } }; Serving s ∧ Inline c 40 ∧ c.mb ≠ 0 ∧ mprOk s = true ∧ c.u8 0 < 4 ∧ c.rsv 1 3 = true ∧ 1 ≤ c.u32 8 ∧ c.u32 8 ≤ 3000000 ∧ 50000 ≤ c.u32 12 ∧ c.u32 12 ≤ 299792 ∧ c.stampOk 16 = true ∧ (c.stamp 16).frac % 1024 = 0 ∧ c.u32 28 ≤ 10000 ∧ c.rsv 32 8 = true ∧ (acqGet s (c.u8 0)).segs.find? (fun x => x.seg == c.u32 4) = some e ∧ e.cap.kind = 3) ∧
    (let c : Cmd := cmd 1 8 []; let s : State := lacksMpr (inState .config); Serving s ∧ c.mb ≠ 0 ∧ Inline c 8 ∧ mprOk s = false) ∧
    (let c : Cmd := cmd 1 24 []; let s : State := lacksMpr (inState .config); Serving s ∧ c.mb ≠ 0 ∧ Inline c 24 ∧ mprOk s = false) ∧
    (let c : Cmd := cmd 1 8 []; let s : State := lacksMpr (inState .config); Serving s ∧ c.mb ≠ 0 ∧ Inline c 8 ∧ mprOk s = false) ∧
    (let c : Cmd := cmd 1 16 []; let s : State := lacksMpr (inState .config); Serving s ∧ c.mb ≠ 0 ∧ Inline c 16 ∧ mprOk s = false) ∧
    (let c : Cmd := cmd 1 40 []; let s : State := lacksMpr (inState .config); Serving s ∧ c.mb ≠ 0 ∧ Inline c 40 ∧ mprOk s = false) ∧
    (let s : State := lacksMpr (inState .config); mprOk s = false) ∧
    (let l : List TwStream := []; let m : List Nat := []; let s : State := armedAcq; mprOk s = true ∧ (List.range 4).all (fun n => !(acqCfg s n).on || ((ownTrigger (acqCfg s n) (l.getD n ⟨[], 0⟩) m).isNone && !((acqCfg s n).kind == 2 && m.contains (acqCfg s n).cmp))) = true) ∧
    (let n : Fin 4 := 0; let l : List TwStream := trigStreams; let m : List Nat := []; let p : Nat := trigPos; let s : State := armedAcq; mprOk s = true ∧ (acqCfg s n).on = true ∧ (acqGet s n).state = .armed ∧ 0 < (l.getD n ⟨[], 0⟩).armed ∧ ownTrigger (acqCfg s n) (l.getD n ⟨[], 0⟩) m = some p ∧ (List.range 4).all (fun x => x == n || !(acqCfg s x).on) = true ∧ bit (acqCfg s n).group n = false ∧ (acqCfg s n).prot = false) ∧
    (let n : Fin 4 := 0; let l : List TwStream := trigStreams; let m : List Nat := []; let p : Nat := trigPos; let s : State := armedAcq.onAcq (fun a => { a with cfg := [(0, { on := true, kind := 0, dir := 0, th := 0, hyst := 0, prot := true })] }); mprOk s = true ∧ (acqCfg s n).on = true ∧ (acqGet s n).state = .armed ∧ 0 < (l.getD n ⟨[], 0⟩).armed ∧ ownTrigger (acqCfg s n) (l.getD n ⟨[], 0⟩) m = some p ∧ (List.range 4).all (fun x => x == n || !(acqCfg s x).on) = true ∧ bit (acqCfg s n).group n = false ∧ (acqCfg s n).prot = true) ∧
    (let n : Fin 4 := 0; let x : Fin 4 := 1; let l : List TwStream := [⟨[100, -100, -200], 3⟩, ⟨[0, 0, 0], 3⟩]; let m : List Nat := []; let p : Nat := trigPos; let s : State := acqUpd 1 (fun x => { x with state := .armed }) (armedAcq.onAcq (fun a => { a with cfg := [(0, { on := true, kind := 0, dir := 0, th := 0, hyst := 0 }), (1, { on := true, kind := 0, th := 2000, group := 1 })] })); mprOk s = true ∧ n ≠ x ∧ (acqCfg s n).on = true ∧ (acqGet s n).state = .armed ∧ 0 < (l.getD n ⟨[], 0⟩).armed ∧ ownTrigger (acqCfg s n) (l.getD n ⟨[], 0⟩) m = some p ∧ (acqCfg s x).on = true ∧ (acqGet s x).state = .armed ∧ 0 < (l.getD x ⟨[], 0⟩).armed ∧ ownTrigger (acqCfg s x) (l.getD x ⟨[], 0⟩) m = none ∧ (List.range 4).all (fun y => y == n || y == x || !(acqCfg s y).on) = true ∧ bit (acqCfg s x).group n = true ∧ bit (acqCfg s x).group x = false ∧ (acqCfg s n).prot = false) ∧
    (let n : Fin 4 := 0; let m : List Nat := [5]; let s : State := (inState .config).onAcq (fun a => { a with cfg := [(0, { on := true, kind := 2, cmp := 5 })] }); mprOk s = true ∧ (acqCfg s n).on = true ∧ (acqGet s n).state ≠ .armed ∧ (acqCfg s n).kind = 2 ∧ m.contains (acqCfg s n).cmp = true ∧ (List.range 4).all (fun x => x == n || !(acqCfg s x).on) = true) ∧
    (let ch : Fin 4 := 0; let s : State := (acqUpd 0 (fun x => { x with state := .armed }) (inState .config)).onAcq (fun a => { a with cfg := [(0, { mode := 1 })] }); mprOk s = true ∧ (acqGet s ch).state = .armed ∧ (acqCfg s ch).mode = 1) ∧
    (let ch : Fin 4 := 0; let s : State := inState .config; (mprOk s = false ∨ (acqGet s ch).state ≠ .armed ∨ (acqCfg s ch).mode ≠ 1)) ∧
    (let ch : Fin 4 := 0; let s : State := inState .config; ((acqGet s ch).cap = none ∨ (acqGet s ch).state ≠ .capturing)) ∧
    (let ch : Fin 4 := 0; let k : Capture := aSegment.cap; let s : State := capturing; (acqGet s ch).cap = some k ∧ (acqGet s ch).state = .capturing ∧ (acqCfg s ch).mode = 2) ∧
    (let ch : Fin 4 := 0; let k : Capture := aSegment.cap; let s : State := capturing.onAcq (fun a => { a with cfg := [(0, { on := true, mode := 0, len := 64, pre := 0 })] }); (acqGet s ch).cap = some k ∧ (acqGet s ch).state = .capturing ∧ (acqCfg s ch).mode ≠ 2) := by
  iterate 34 refine And.intro (by intros; decide +kernel +zetaReduce) ?_
  intros; decide +kernel +zetaReduce

set_option maxRecDepth 20000 in
/-- States and operands that meet the hypotheses of ProtectionCommandsStageResetAndExport, clause by clause. -/
theorem test_witness_ProtectionCommandsStageResetAndExport :
    (let c : Cmd := cmd 1 40 ([1, 0, 1, 0] ++ List.replicate 16 0xFF ++ le 4 53687091 ++ [2, 10, 8]); let s : State := inState .config; let k : PtCfg := { kind := (cmd 1 40 ([1, 0, 1, 0] ++ List.replicate 16 0xFF ++ le 4 53687091 ++ [2, 10, 8])).u8 2, hz60 := (cmd 1 40 ([1, 0, 1, 0] ++ List.replicate 16 0xFF ++ le 4 53687091 ++ [2, 10, 8])).u8 3 == 1, sel := (List.range 8).map (fun i => (cmd 1 40 ([1, 0, 1, 0] ++ List.replicate 16 0xFF ++ le 4 53687091 ++ [2, 10, 8])).u16 (4 + 2 * i)), vmin := (cmd 1 40 ([1, 0, 1, 0] ++ List.replicate 16 0xFF ++ le 4 53687091 ++ [2, 10, 8])).u32 20, fwin := (cmd 1 40 ([1, 0, 1, 0] ++ List.replicate 16 0xFF ++ le 4 53687091 ++ [2, 10, 8])).u8 24, rocwin := (cmd 1 40 ([1, 0, 1, 0] ++ List.replicate 16 0xFF ++ le 4 53687091 ++ [2, 10, 8])).u8 25, ndc := (cmd 1 40 ([1, 0, 1, 0] ++ List.replicate 16 0xFF ++ le 4 53687091 ++ [2, 10, 8])).u8 26 }; k = { kind := c.u8 2, hz60 := c.u8 3 == 1, sel := (List.range 8).map (fun i => c.u16 (4 + 2 * i)), vmin := c.u32 20, fwin := c.u8 24, rocwin := c.u8 25, ndc := c.u8 26 } ∧ Admits c s [.config, .standby, .deblocked, .safeStop, .blockedFault, .factoryTest] [.active, .standby] ∧ mprOk s = true ∧ Inline c 40 ∧ c.u8 0 = 1 ∧ c.u8 1 < 16 ∧ k.kind < 3 ∧ c.u8 3 < 2 ∧ k.sel.all protSelOk = true ∧ k.vmin ≤ 2 ^ 28 ∧ 1 ≤ k.fwin ∧ k.fwin ≤ 10 ∧ 1 ≤ k.rocwin ∧ k.rocwin ≤ 50 ∧ 1 ≤ k.ndc ∧ k.ndc ≤ 64 ∧ c.rsv 27 13 = true ∧ setHeld s 6 = false ∧ (k.sel.any (protSelBad s) || (protShadow s).el.any (fun x => x.2.pt == c.u8 1 && fastOnSv x.2 k)) = false) ∧
    (let c : Cmd := cmd 1 40 ([1, 0, 1, 0] ++ le 2 0x8000 ++ List.replicate 14 0xFF ++ le 4 53687091 ++ [2, 10, 8]); let s : State := inState .config; let k : PtCfg := { kind := (cmd 1 40 ([1, 0, 1, 0] ++ le 2 0x8000 ++ List.replicate 14 0xFF ++ le 4 53687091 ++ [2, 10, 8])).u8 2, hz60 := (cmd 1 40 ([1, 0, 1, 0] ++ le 2 0x8000 ++ List.replicate 14 0xFF ++ le 4 53687091 ++ [2, 10, 8])).u8 3 == 1, sel := (List.range 8).map (fun i => (cmd 1 40 ([1, 0, 1, 0] ++ le 2 0x8000 ++ List.replicate 14 0xFF ++ le 4 53687091 ++ [2, 10, 8])).u16 (4 + 2 * i)), vmin := (cmd 1 40 ([1, 0, 1, 0] ++ le 2 0x8000 ++ List.replicate 14 0xFF ++ le 4 53687091 ++ [2, 10, 8])).u32 20, fwin := (cmd 1 40 ([1, 0, 1, 0] ++ le 2 0x8000 ++ List.replicate 14 0xFF ++ le 4 53687091 ++ [2, 10, 8])).u8 24, rocwin := (cmd 1 40 ([1, 0, 1, 0] ++ le 2 0x8000 ++ List.replicate 14 0xFF ++ le 4 53687091 ++ [2, 10, 8])).u8 25, ndc := (cmd 1 40 ([1, 0, 1, 0] ++ le 2 0x8000 ++ List.replicate 14 0xFF ++ le 4 53687091 ++ [2, 10, 8])).u8 26 }; k = { kind := c.u8 2, hz60 := c.u8 3 == 1, sel := (List.range 8).map (fun i => c.u16 (4 + 2 * i)), vmin := c.u32 20, fwin := c.u8 24, rocwin := c.u8 25, ndc := c.u8 26 } ∧ Admits c s [.config, .standby, .deblocked, .safeStop, .blockedFault, .factoryTest] [.active, .standby] ∧ mprOk s = true ∧ Inline c 40 ∧ c.u8 0 = 1 ∧ c.u8 1 < 16 ∧ k.kind < 3 ∧ c.u8 3 < 2 ∧ k.sel.all protSelOk = true ∧ k.vmin ≤ 2 ^ 28 ∧ 1 ≤ k.fwin ∧ k.fwin ≤ 10 ∧ 1 ≤ k.rocwin ∧ k.rocwin ≤ 50 ∧ 1 ≤ k.ndc ∧ k.ndc ≤ 64 ∧ c.rsv 27 13 = true ∧ setHeld s 6 = false ∧ (k.sel.any (protSelBad s) || (protShadow s).el.any (fun x => x.2.pt == c.u8 1 && fastOnSv x.2 k)) = true) ∧
    (let c : Cmd := elCmd; let s : State := pointed; let u : State := protStage elCmd.params (fun p => { p with el := tset p.el 0 elParsed }) pointed; let e : ElCfg := elParsed; e = { type := c.u8 2, on := bit (c.u8 3) 0, fast := bit (c.u8 3) 1, rev := bit (c.u8 3) 2, ndFall := bit (c.u8 3) 3, pt := c.u8 4, qsel := c.u8 5, tmode := c.u8 6, rmode := c.u8 7, pu := c.u32 8, dr := c.u16 12, nconf := c.u8 14, blkel := c.u8 15, td := c.u32 16, tms := c.u32 20, trst := c.u32 24, rca := c.s16 28, angw := c.u16 30, vpol := c.u32 32, memc := c.u8 36, twmask := c.u8 37, confel := c.u8 38 } ∧ Admits c s [.config, .standby, .deblocked, .safeStop, .blockedFault, .factoryTest] [.active, .standby] ∧ mprOk s = true ∧ Inline c 40 ∧ c.u8 0 = 0 ∧ c.u8 1 < 96 ∧ 1 ≤ e.type ∧ e.type ≤ 12 ∧ c.u8 3 < 16 ∧ e.pt < 16 ∧ e.qsel < 32 ∧ e.tmode ≤ 8 ∧ (e.tmode = 0 ∨ e.type ≤ 4) ∧ e.rmode < 3 ∧ (e.rmode ≠ 2 ∨ e.tmode = 0 ∨ 4 < e.tmode) ∧ (e.fast = false ∨ ([1, 2, 10, 11].contains e.type = true ∧ e.tmode = 0)) ∧ ((e.type = 12 ∧ e.pu = 0) ∨ (e.type ≠ 12 ∧ 1 ≤ e.pu ∧ ([7, 8, 9].contains e.type = true ∨ e.pu < 2 ^ 31))) ∧ 8192 ≤ e.dr ∧ e.dr ≤ 24576 ∧ 1 ≤ e.nconf ∧ e.nconf ≤ 16 ∧ (e.blkel < 96 ∨ e.blkel = 0xFF) ∧ e.blkel ≠ c.u8 1 ∧ e.td ≤ 600000000 ∧ 167772 ≤ e.tms ∧ e.tms ≤ 1677721600 ∧ e.trst ≤ 60000000 ∧ e.rca.natAbs ≤ 18000 ∧ 1000 ≤ e.angw ∧ e.angw ≤ 9000 ∧ e.vpol ≤ 2 ^ 28 ∧ e.memc ≤ 10 ∧ e.twmask < 16 ∧ (e.confel < 96 ∨ e.confel = 0xFF) ∧ e.confel ≠ c.u8 1 ∧ c.rsv 39 1 = true ∧ setHeld s 6 = false ∧ u = protStage c.params (fun p => { p with el := tset p.el (c.u8 1) e }) s ∧ (!kindFits e.type (tget ({} : PtCfg) (protShadow s).pt e.pt).kind || (e.tmode == 8 && (protShadow s).curve.isEmpty) || fastOnSv e (tget ({} : PtCfg) (protShadow s).pt e.pt)) = false ∧ fastCount (protShadow u) ≤ 24) ∧
    (let c : Cmd := elCmd; let s : State := inState .config; let e : ElCfg := elParsed; e = { type := c.u8 2, on := bit (c.u8 3) 0, fast := bit (c.u8 3) 1, rev := bit (c.u8 3) 2, ndFall := bit (c.u8 3) 3, pt := c.u8 4, qsel := c.u8 5, tmode := c.u8 6, rmode := c.u8 7, pu := c.u32 8, dr := c.u16 12, nconf := c.u8 14, blkel := c.u8 15, td := c.u32 16, tms := c.u32 20, trst := c.u32 24, rca := c.s16 28, angw := c.u16 30, vpol := c.u32 32, memc := c.u8 36, twmask := c.u8 37, confel := c.u8 38 } ∧ Admits c s [.config, .standby, .deblocked, .safeStop, .blockedFault, .factoryTest] [.active, .standby] ∧ mprOk s = true ∧ Inline c 40 ∧ c.u8 0 = 0 ∧ c.u8 1 < 96 ∧ 1 ≤ e.type ∧ e.type ≤ 12 ∧ c.u8 3 < 16 ∧ e.pt < 16 ∧ e.qsel < 32 ∧ e.tmode ≤ 8 ∧ (e.tmode = 0 ∨ e.type ≤ 4) ∧ e.rmode < 3 ∧ (e.rmode ≠ 2 ∨ e.tmode = 0 ∨ 4 < e.tmode) ∧ (e.fast = false ∨ ([1, 2, 10, 11].contains e.type = true ∧ e.tmode = 0)) ∧ ((e.type = 12 ∧ e.pu = 0) ∨ (e.type ≠ 12 ∧ 1 ≤ e.pu ∧ ([7, 8, 9].contains e.type = true ∨ e.pu < 2 ^ 31))) ∧ 8192 ≤ e.dr ∧ e.dr ≤ 24576 ∧ 1 ≤ e.nconf ∧ e.nconf ≤ 16 ∧ (e.blkel < 96 ∨ e.blkel = 0xFF) ∧ e.blkel ≠ c.u8 1 ∧ e.td ≤ 600000000 ∧ 167772 ≤ e.tms ∧ e.tms ≤ 1677721600 ∧ e.trst ≤ 60000000 ∧ e.rca.natAbs ≤ 18000 ∧ 1000 ≤ e.angw ∧ e.angw ≤ 9000 ∧ e.vpol ≤ 2 ^ 28 ∧ e.memc ≤ 10 ∧ e.twmask < 16 ∧ (e.confel < 96 ∨ e.confel = 0xFF) ∧ e.confel ≠ c.u8 1 ∧ c.rsv 39 1 = true ∧ setHeld s 6 = false ∧ (!kindFits e.type (tget ({} : PtCfg) (protShadow s).pt e.pt).kind || (e.tmode == 8 && (protShadow s).curve.isEmpty) || fastOnSv e (tget ({} : PtCfg) (protShadow s).pt e.pt)) = true) ∧
    (let c : Cmd := elCmd2; let s : State := (pointed.onProt (fun p => { p with act := { p.act with el := (List.range 24).map (fun n => (n + 10, { anEl with fast := true })) } })); let u : State := protStage elCmd2.params (fun p => { p with el := tset p.el 0 { elParsed with type := 1, fast := true } }) (pointed.onProt (fun p => { p with act := { p.act with el := (List.range 24).map (fun n => (n + 10, { anEl with fast := true })) } })); let e : ElCfg := { elParsed with type := 1, fast := true }; e = { type := c.u8 2, on := bit (c.u8 3) 0, fast := bit (c.u8 3) 1, rev := bit (c.u8 3) 2, ndFall := bit (c.u8 3) 3, pt := c.u8 4, qsel := c.u8 5, tmode := c.u8 6, rmode := c.u8 7, pu := c.u32 8, dr := c.u16 12, nconf := c.u8 14, blkel := c.u8 15, td := c.u32 16, tms := c.u32 20, trst := c.u32 24, rca := c.s16 28, angw := c.u16 30, vpol := c.u32 32, memc := c.u8 36, twmask := c.u8 37, confel := c.u8 38 } ∧ Admits c s [.config, .standby, .deblocked, .safeStop, .blockedFault, .factoryTest] [.active, .standby] ∧ mprOk s = true ∧ Inline c 40 ∧ c.u8 0 = 0 ∧ c.u8 1 < 96 ∧ 1 ≤ e.type ∧ e.type ≤ 12 ∧ c.u8 3 < 16 ∧ e.pt < 16 ∧ e.qsel < 32 ∧ e.tmode ≤ 8 ∧ (e.tmode = 0 ∨ e.type ≤ 4) ∧ e.rmode < 3 ∧ (e.rmode ≠ 2 ∨ e.tmode = 0 ∨ 4 < e.tmode) ∧ (e.fast = false ∨ ([1, 2, 10, 11].contains e.type = true ∧ e.tmode = 0)) ∧ ((e.type = 12 ∧ e.pu = 0) ∨ (e.type ≠ 12 ∧ 1 ≤ e.pu ∧ ([7, 8, 9].contains e.type = true ∨ e.pu < 2 ^ 31))) ∧ 8192 ≤ e.dr ∧ e.dr ≤ 24576 ∧ 1 ≤ e.nconf ∧ e.nconf ≤ 16 ∧ (e.blkel < 96 ∨ e.blkel = 0xFF) ∧ e.blkel ≠ c.u8 1 ∧ e.td ≤ 600000000 ∧ 167772 ≤ e.tms ∧ e.tms ≤ 1677721600 ∧ e.trst ≤ 60000000 ∧ e.rca.natAbs ≤ 18000 ∧ 1000 ≤ e.angw ∧ e.angw ≤ 9000 ∧ e.vpol ≤ 2 ^ 28 ∧ e.memc ≤ 10 ∧ e.twmask < 16 ∧ (e.confel < 96 ∨ e.confel = 0xFF) ∧ e.confel ≠ c.u8 1 ∧ c.rsv 39 1 = true ∧ setHeld s 6 = false ∧ u = protStage c.params (fun p => { p with el := tset p.el (c.u8 1) e }) s ∧ (!kindFits e.type (tget ({} : PtCfg) (protShadow s).pt e.pt).kind || (e.tmode == 8 && (protShadow s).curve.isEmpty) || fastOnSv e (tget ({} : PtCfg) (protShadow s).pt e.pt)) = false ∧ 24 < fastCount (protShadow u)) ∧
    (let c : Cmd := extCmd 1 ((List.range 64).flatMap (fun i => le 4 (16777216 + i) ++ le 4 1000)); let s : State := inState .config; let l : List (Nat × Nat) := (List.range 64).map (fun i => ((extCmd 1 ((List.range 64).flatMap (fun i => le 4 (16777216 + i) ++ le 4 1000))).u32 (8 * i), (extCmd 1 ((List.range 64).flatMap (fun i => le 4 (16777216 + i) ++ le 4 1000))).u32 (8 * i + 4))); l = (List.range 64).map (fun i => (c.u32 (8 * i), c.u32 (8 * i + 4))) ∧ Admits c s [.config, .standby, .deblocked, .safeStop, .blockedFault, .factoryTest] [.active, .standby] ∧ mprOk s = true ∧ External c (fun n => n == 512) ∧ setHeld s 6 = false ∧ 2 ^ 24 ≤ c.u32 0 ∧ l.all (fun p => 1 ≤ p.2 && p.2 ≤ 100000000) = true ∧ pairsMeet (fun a b => a.1 < b.1 && b.2 ≤ a.2) l = true) ∧
    (let c : Cmd := cmd 1 36 ([3, 3] ++ List.replicate 30 0 ++ [50]); let s : State := inState .config; let k : TripCfg := { on := bit ((cmd 1 36 ([3, 3] ++ List.replicate 30 0 ++ [50])).u8 1) 0, latch := bit ((cmd 1 36 ([3, 3] ++ List.replicate 30 0 ++ [50])).u8 1) 1, sup := bit ((cmd 1 36 ([3, 3] ++ List.replicate 30 0 ++ [50])).u8 1) 2, tmin := (cmd 1 36 ([3, 3] ++ List.replicate 30 0 ++ [50])).u16 2, op := rd (cmd 1 36 ([3, 3] ++ List.replicate 30 0 ++ [50])).params 4 12, st := rd (cmd 1 36 ([3, 3] ++ List.replicate 30 0 ++ [50])).params 16 12, alarms := (cmd 1 36 ([3, 3] ++ List.replicate 30 0 ++ [50])).u8 28, ttcs := (cmd 1 36 ([3, 3] ++ List.replicate 30 0 ++ [50])).u16 32, susp := (cmd 1 36 ([3, 3] ++ List.replicate 30 0 ++ [50])).u16 34 }; k = { on := bit (c.u8 1) 0, latch := bit (c.u8 1) 1, sup := bit (c.u8 1) 2, tmin := c.u16 2, op := rd c.params 4 12, st := rd c.params 16 12, alarms := c.u8 28, ttcs := c.u16 32, susp := c.u16 34 } ∧ Admits c s [.config, .standby, .deblocked, .safeStop, .blockedFault, .factoryTest] [.active, .standby] ∧ mprOk s = true ∧ Inline c 36 ∧ setHeld s 6 = false ∧ c.u8 0 < 16 ∧ c.u8 1 < 8 ∧ k.tmin ≤ 10000 ∧ k.alarms < 4 ∧ 20 ≤ k.ttcs ∧ k.ttcs ≤ 10000 ∧ k.susp ≤ 10000 ∧ c.rsv 29 3 = true) ∧
    (let c : Cmd := cmd 1 36 ([3, 3] ++ List.replicate 30 0 ++ [50]); let s : State := armed { oneCommit with mask := 64 } (inState .config); let k : TripCfg := { on := bit ((cmd 1 36 ([3, 3] ++ List.replicate 30 0 ++ [50])).u8 1) 0, latch := bit ((cmd 1 36 ([3, 3] ++ List.replicate 30 0 ++ [50])).u8 1) 1, sup := bit ((cmd 1 36 ([3, 3] ++ List.replicate 30 0 ++ [50])).u8 1) 2, tmin := (cmd 1 36 ([3, 3] ++ List.replicate 30 0 ++ [50])).u16 2, op := rd (cmd 1 36 ([3, 3] ++ List.replicate 30 0 ++ [50])).params 4 12, st := rd (cmd 1 36 ([3, 3] ++ List.replicate 30 0 ++ [50])).params 16 12, alarms := (cmd 1 36 ([3, 3] ++ List.replicate 30 0 ++ [50])).u8 28, ttcs := (cmd 1 36 ([3, 3] ++ List.replicate 30 0 ++ [50])).u16 32, susp := (cmd 1 36 ([3, 3] ++ List.replicate 30 0 ++ [50])).u16 34 }; k = { on := bit (c.u8 1) 0, latch := bit (c.u8 1) 1, sup := bit (c.u8 1) 2, tmin := c.u16 2, op := rd c.params 4 12, st := rd c.params 16 12, alarms := c.u8 28, ttcs := c.u16 32, susp := c.u16 34 } ∧ Admits c s [.config, .standby, .deblocked, .safeStop, .blockedFault, .factoryTest] [.active, .standby] ∧ mprOk s = true ∧ Inline c 36 ∧ setHeld s 6 = true ∧ c.u8 0 < 16 ∧ c.u8 1 < 8 ∧ k.tmin ≤ 10000 ∧ k.alarms < 4 ∧ 20 ≤ k.ttcs ∧ k.ttcs ≤ 10000 ∧ k.susp ≤ 10000 ∧ c.rsv 29 3 = true) ∧
    (let c : Cmd := cmd 1 4 [1]; let s : State := tripDemand; Serving s ∧ Inline c 4 ∧ c.mb ≠ 0 ∧ mprOk s = true ∧ c.rsv 2 2 = true ∧ ((List.range 16).filter (bit (c.u16 0))).any (fun o => (tripWant s (tripCfg s o)).1) = true) ∧
    (let c : Cmd := cmd 1 4 [1]; let s : State := inState .config; Serving s ∧ Inline c 4 ∧ c.mb ≠ 0 ∧ mprOk s = true ∧ c.rsv 2 2 = true ∧ ((List.range 16).filter (bit (c.u16 0))).any (fun o => (tripWant s (tripCfg s o)).1) = false ∧ ((List.range 16).filter (bit (c.u16 0))).any (fun o => !(tripGet s o).latch) = true) ∧
    (let c : Cmd := cmd 1 4 [1]; let s : State := tripUpd 0 (fun x => { x with latch := true }) (inState .config); let v : State := recLook (base (inState .config) 0).val (tripsStep (tripUpd 0 (fun x => { x with latch := false }) (tripUpd 0 (fun x => { x with latch := true }) (inState .config)))); Serving s ∧ Inline c 4 ∧ c.mb ≠ 0 ∧ mprOk s = true ∧ c.rsv 2 2 = true ∧ ((List.range 16).filter (bit (c.u16 0))).any (fun o => (tripWant s (tripCfg s o)).1) = false ∧ ((List.range 16).filter (bit (c.u16 0))).any (fun o => !(tripGet s o).latch) = false ∧ v = recLook (base s 0).val (tripsStep (((List.range 16).filter (bit (c.u16 0))).foldl (fun t o => tripUpd o (fun x => { x with latch := false }) t) s))) ∧
    (let c : Cmd := extCmd 1 (le 4 16 ++ le 2 10 ++ le 2 10 ++ le 2 20 ++ [0, 1] ++ List.replicate 76 0); let s : State := (inState .config).onPower (fun p => { p with dramA := 16384, dramB := 16384 }); let k : RecCfg := { store := (extCmd 1 (le 4 16 ++ le 2 10 ++ le 2 10 ++ le 2 20 ++ [0, 1] ++ List.replicate 76 0)).u32 0, pre := (extCmd 1 (le 4 16 ++ le 2 10 ++ le 2 10 ++ le 2 20 ++ [0, 1] ++ List.replicate 76 0)).u16 4, post := (extCmd 1 (le 4 16 ++ le 2 10 ++ le 2 10 ++ le 2 20 ++ [0, 1] ++ List.replicate 76 0)).u16 6, maxLen := (extCmd 1 (le 4 16 ++ le 2 10 ++ le 2 10 ++ le 2 20 ++ [0, 1] ++ List.replicate 76 0)).u16 8, retrig := bit ((extCmd 1 (le 4 16 ++ le 2 10 ++ le 2 10 ++ le 2 20 ++ [0, 1] ++ List.replicate 76 0)).u8 10) 0, excess := bit ((extCmd 1 (le 4 16 ++ le 2 10 ++ le 2 10 ++ le 2 20 ++ [0, 1] ++ List.replicate 76 0)).u8 10) 1, stT := rd (extCmd 1 (le 4 16 ++ le 2 10 ++ le 2 10 ++ le 2 20 ++ [0, 1] ++ List.replicate 76 0)).params 12 12, opT := rd (extCmd 1 (le 4 16 ++ le 2 10 ++ le 2 10 ++ le 2 20 ++ [0, 1] ++ List.replicate 76 0)).params 24 12, tripT := (extCmd 1 (le 4 16 ++ le 2 10 ++ le 2 10 ++ le 2 20 ++ [0, 1] ++ List.replicate 76 0)).u16 36, station := ((extCmd 1 (le 4 16 ++ le 2 10 ++ le 2 10 ++ le 2 20 ++ [0, 1] ++ List.replicate 76 0)).params.drop 40).take 32, an := (List.range ((extCmd 1 (le 4 16 ++ le 2 10 ++ le 2 10 ++ le 2 20 ++ [0, 1] ++ List.replicate 76 0)).u8 11)).map (fun j => ⟨(extCmd 1 (le 4 16 ++ le 2 10 ++ le 2 10 ++ le 2 20 ++ [0, 1] ++ List.replicate 76 0)).u8 (72 + 16 * j), (extCmd 1 (le 4 16 ++ le 2 10 ++ le 2 10 ++ le 2 20 ++ [0, 1] ++ List.replicate 76 0)).u8 (73 + 16 * j), (extCmd 1 (le 4 16 ++ le 2 10 ++ le 2 10 ++ le 2 20 ++ [0, 1] ++ List.replicate 76 0)).u32 (74 + 16 * j), ((extCmd 1 (le 4 16 ++ le 2 10 ++ le 2 10 ++ le 2 20 ++ [0, 1] ++ List.replicate 76 0)).params.drop (80 + 16 * j)).take 4⟩) }; k = { store := c.u32 0, pre := c.u16 4, post := c.u16 6, maxLen := c.u16 8, retrig := bit (c.u8 10) 0, excess := bit (c.u8 10) 1, stT := rd c.params 12 12, opT := rd c.params 24 12, tripT := c.u16 36, station := (c.params.drop 40).take 32, an := (List.range (c.u8 11)).map (fun j => ⟨c.u8 (72 + 16 * j), c.u8 (73 + 16 * j), c.u32 (74 + 16 * j), (c.params.drop (80 + 16 * j)).take 4⟩) } ∧ Admits c s [.config, .standby, .deblocked, .safeStop, .blockedFault, .factoryTest] [.active, .standby] ∧ mprOk s = true ∧ External c (fun n => 72 ≤ n && n ≤ 72 + 16 * 32 && (n - 72) % 16 == 0 && (32 < c.u8 11 || n == 72 + 16 * c.u8 11)) ∧ c.u8 11 ≤ 32 ∧ 16 ≤ k.store ∧ k.store ≤ 1024 ∧ k.pre ≤ 5000 ∧ 10 ≤ k.post ∧ k.post ≤ 10000 ∧ k.pre + k.post ≤ k.maxLen ∧ k.maxLen ≤ 60000 ∧ c.u8 10 < 4 ∧ c.rsv 38 2 = true ∧ asciiOk k.station = true ∧ (List.range (c.u8 11)).all (fun j => c.u8 (72 + 16 * j) < 16 && c.u8 (73 + 16 * j) < 8 && c.rsv (78 + 16 * j) 2 && c.rsv (84 + 16 * j) 4) = true ∧ setHeld s 6 = false ∧ k.store ≤ dramLeft s) ∧
    (let c : Cmd := extCmd 1 (le 4 16 ++ le 2 10 ++ le 2 10 ++ le 2 20 ++ [0, 1] ++ List.replicate 76 0); let s : State := inState .config; let k : RecCfg := { store := (extCmd 1 (le 4 16 ++ le 2 10 ++ le 2 10 ++ le 2 20 ++ [0, 1] ++ List.replicate 76 0)).u32 0, pre := (extCmd 1 (le 4 16 ++ le 2 10 ++ le 2 10 ++ le 2 20 ++ [0, 1] ++ List.replicate 76 0)).u16 4, post := (extCmd 1 (le 4 16 ++ le 2 10 ++ le 2 10 ++ le 2 20 ++ [0, 1] ++ List.replicate 76 0)).u16 6, maxLen := (extCmd 1 (le 4 16 ++ le 2 10 ++ le 2 10 ++ le 2 20 ++ [0, 1] ++ List.replicate 76 0)).u16 8, retrig := bit ((extCmd 1 (le 4 16 ++ le 2 10 ++ le 2 10 ++ le 2 20 ++ [0, 1] ++ List.replicate 76 0)).u8 10) 0, excess := bit ((extCmd 1 (le 4 16 ++ le 2 10 ++ le 2 10 ++ le 2 20 ++ [0, 1] ++ List.replicate 76 0)).u8 10) 1, stT := rd (extCmd 1 (le 4 16 ++ le 2 10 ++ le 2 10 ++ le 2 20 ++ [0, 1] ++ List.replicate 76 0)).params 12 12, opT := rd (extCmd 1 (le 4 16 ++ le 2 10 ++ le 2 10 ++ le 2 20 ++ [0, 1] ++ List.replicate 76 0)).params 24 12, tripT := (extCmd 1 (le 4 16 ++ le 2 10 ++ le 2 10 ++ le 2 20 ++ [0, 1] ++ List.replicate 76 0)).u16 36, station := ((extCmd 1 (le 4 16 ++ le 2 10 ++ le 2 10 ++ le 2 20 ++ [0, 1] ++ List.replicate 76 0)).params.drop 40).take 32, an := (List.range ((extCmd 1 (le 4 16 ++ le 2 10 ++ le 2 10 ++ le 2 20 ++ [0, 1] ++ List.replicate 76 0)).u8 11)).map (fun j => ⟨(extCmd 1 (le 4 16 ++ le 2 10 ++ le 2 10 ++ le 2 20 ++ [0, 1] ++ List.replicate 76 0)).u8 (72 + 16 * j), (extCmd 1 (le 4 16 ++ le 2 10 ++ le 2 10 ++ le 2 20 ++ [0, 1] ++ List.replicate 76 0)).u8 (73 + 16 * j), (extCmd 1 (le 4 16 ++ le 2 10 ++ le 2 10 ++ le 2 20 ++ [0, 1] ++ List.replicate 76 0)).u32 (74 + 16 * j), ((extCmd 1 (le 4 16 ++ le 2 10 ++ le 2 10 ++ le 2 20 ++ [0, 1] ++ List.replicate 76 0)).params.drop (80 + 16 * j)).take 4⟩) }; k = { store := c.u32 0, pre := c.u16 4, post := c.u16 6, maxLen := c.u16 8, retrig := bit (c.u8 10) 0, excess := bit (c.u8 10) 1, stT := rd c.params 12 12, opT := rd c.params 24 12, tripT := c.u16 36, station := (c.params.drop 40).take 32, an := (List.range (c.u8 11)).map (fun j => ⟨c.u8 (72 + 16 * j), c.u8 (73 + 16 * j), c.u32 (74 + 16 * j), (c.params.drop (80 + 16 * j)).take 4⟩) } ∧ Admits c s [.config, .standby, .deblocked, .safeStop, .blockedFault, .factoryTest] [.active, .standby] ∧ mprOk s = true ∧ External c (fun n => 72 ≤ n && n ≤ 72 + 16 * 32 && (n - 72) % 16 == 0 && (32 < c.u8 11 || n == 72 + 16 * c.u8 11)) ∧ c.u8 11 ≤ 32 ∧ 16 ≤ k.store ∧ k.store ≤ 1024 ∧ k.pre ≤ 5000 ∧ 10 ≤ k.post ∧ k.post ≤ 10000 ∧ k.pre + k.post ≤ k.maxLen ∧ k.maxLen ≤ 60000 ∧ c.u8 10 < 4 ∧ c.rsv 38 2 = true ∧ asciiOk k.station = true ∧ (List.range (c.u8 11)).all (fun j => c.u8 (72 + 16 * j) < 16 && c.u8 (73 + 16 * j) < 8 && c.rsv (78 + 16 * j) 2 && c.rsv (84 + 16 * j) 4) = true ∧ setHeld s 6 = false ∧ dramLeft s < k.store) ∧
    (let c : Cmd := cmd 1 20 ([0, 0, 2, 0] ++ le 4 0 ++ le 8 64 ++ le 4 32); let s : State := withRecord; let r : DRec := aRecord; let w : Bytes := aRecord.header; Serving s ∧ Inline c 20 ∧ c.mb ≠ 0 ∧ mprOk s = true ∧ c.u8 2 < 3 ∧ c.rsv 3 1 = true ∧ c.u64 8 % 64 = 0 ∧ c.u64 8 ≠ 0 ∧ recFind s (c.u16 0) = some r ∧ held s (.record r.num) = false ∧ c.u32 4 ≤ (exportPart (c.u8 2) s r).length ∧ w = ((exportPart (c.u8 2) s r).drop (c.u32 4)).take (c.u32 16) ∧ w.length ≤ 1048576) ∧
    ((Serving (withBig : State)) ∧ (Inline (bigCmd : Cmd) 20) ∧ ((bigCmd : Cmd).mb ≠ 0) ∧ (mprOk (withBig : State) = true) ∧ ((bigCmd : Cmd).u8 2 < 3) ∧ ((bigCmd : Cmd).rsv 3 1 = true) ∧ ((bigCmd : Cmd).u64 8 % 64 = 0) ∧ ((bigCmd : Cmd).u64 8 ≠ 0) ∧ (recFind (withBig : State) ((bigCmd : Cmd).u16 0) = some (bigRecord : DRec)) ∧ (held (withBig : State) (.record (bigRecord : DRec).num) = false) ∧ ((bigCmd : Cmd).u32 4 ≤ (exportPart ((bigCmd : Cmd).u8 2) (withBig : State) (bigRecord : DRec)).length) ∧ ((bigRecord.dat.take 1048608 : Bytes) = ((exportPart ((bigCmd : Cmd).u8 2) (withBig : State) (bigRecord : DRec)).drop ((bigCmd : Cmd).u32 4)).take ((bigCmd : Cmd).u32 16)) ∧ (1048576 < (bigRecord.dat.take 1048608 : Bytes).length) ∧ (pendCount (withBig : State) (bigCmd : Cmd).mb < 8)) ∧
    (let c : Cmd := cmd 1 20 ([0, 0, 2, 0] ++ le 4 99 ++ le 8 64 ++ le 4 32); let s : State := withRecord; let r : DRec := aRecord; Serving s ∧ Inline c 20 ∧ c.mb ≠ 0 ∧ mprOk s = true ∧ c.u8 2 < 3 ∧ c.rsv 3 1 = true ∧ c.u64 8 % 64 = 0 ∧ c.u64 8 ≠ 0 ∧ recFind s (c.u16 0) = some r ∧ held s (.record r.num) = false ∧ (exportPart (c.u8 2) s r).length < c.u32 4) ∧
    (let c : Cmd := cmd 1 20 ([0, 0, 2, 0] ++ le 4 0 ++ le 8 64 ++ le 4 32); let s : State := withRecord.onMb (fun m => { m with pend := [{ pendOf 0x0B06 with objs := [.record 0] }] }); let r : DRec := aRecord; Serving s ∧ Inline c 20 ∧ c.mb ≠ 0 ∧ mprOk s = true ∧ c.u8 2 < 3 ∧ c.rsv 3 1 = true ∧ c.u64 8 % 64 = 0 ∧ c.u64 8 ≠ 0 ∧ recFind s (c.u16 0) = some r ∧ held s (.record r.num) = true) ∧
    (let c : Cmd := cmd 1 20 ([0, 0, 1, 0] ++ le 4 0 ++ le 8 64 ++ le 4 32); let s : State := inState .config; Serving s ∧ Inline c 20 ∧ c.mb ≠ 0 ∧ mprOk s = true ∧ c.u8 2 < 3 ∧ c.rsv 3 1 = true ∧ c.u64 8 % 64 = 0 ∧ c.u64 8 ≠ 0 ∧ recFind s (c.u16 0) = none) ∧
    (let c : Cmd := cmd 1 20 [0, 0, 3]; let s : State := runRec; let v : State := recTrigger 0x300 true (base runRec 0).val runRec; Serving s ∧ Inline c 20 ∧ c.mb ≠ 0 ∧ mprOk s = true ∧ c.u8 2 = 3 ∧ c.rsv 3 1 = true ∧ c.u64 8 % 64 = 0 ∧ v = recTrigger 0x300 true (base s 0).val s ∧ (decide (v.prot.recs.length = s.prot.recs.length) && v.prot.recs.getLast?.elim true (·.closed)) = false) ∧
    ((Serving (noRoom : State)) ∧ (Inline (cmd 1 20 [0, 0, 3] : Cmd) 20) ∧ ((cmd 1 20 [0, 0, 3] : Cmd).mb ≠ 0) ∧ (mprOk (noRoom : State) = true) ∧ ((cmd 1 20 [0, 0, 3] : Cmd).u8 2 = 3) ∧ ((cmd 1 20 [0, 0, 3] : Cmd).rsv 3 1 = true) ∧ ((cmd 1 20 [0, 0, 3] : Cmd).u64 8 % 64 = 0) ∧ ((recTrigger 0x300 true (base noRoom 0).val noRoom : State) = recTrigger 0x300 true (base (noRoom : State) 0).val (noRoom : State)) ∧ ((decide ((recTrigger 0x300 true (base noRoom 0).val noRoom : State).prot.recs.length = (noRoom : State).prot.recs.length) && (recTrigger 0x300 true (base noRoom 0).val noRoom : State).prot.recs.getLast?.elim true (·.closed)) = true)) ∧
    (let c : Cmd := cmd 1 12 []; let s : State := inState .config; Serving s ∧ Inline c 12 ∧ c.mb ≠ 0 ∧ mprOk s = true ∧ c.rsv 1 3 = true ∧ c.u64 4 % 64 = 0 ∧ c.u8 0 < 5 ∧ (c.u64 4 = 0 ∨ c.u8 0 = 0)) ∧
    (let c : Cmd := cmd 1 12 [1, 0, 0, 0, 64]; let s : State := inState .config; Serving s ∧ Inline c 12 ∧ c.mb ≠ 0 ∧ mprOk s = true ∧ c.rsv 1 3 = true ∧ c.u64 4 % 64 = 0 ∧ c.u8 0 = 1 ∧ c.u64 4 ≠ 0) ∧
    (let c : Cmd := cmd 1 12 [2, 0, 0, 0, 64]; let s : State := inState .config; Serving s ∧ Inline c 12 ∧ c.mb ≠ 0 ∧ mprOk s = true ∧ c.rsv 1 3 = true ∧ c.u64 4 % 64 = 0 ∧ c.u8 0 = 2 ∧ c.u64 4 ≠ 0) ∧
    (let c : Cmd := cmd 1 12 [3, 0, 0, 0, 64]; let s : State := inState .config; Serving s ∧ Inline c 12 ∧ c.mb ≠ 0 ∧ mprOk s = true ∧ c.rsv 1 3 = true ∧ c.u64 4 % 64 = 0 ∧ c.u8 0 = 3 ∧ c.u64 4 ≠ 0) ∧
    (let c : Cmd := cmd 1 12 [4, 0, 0, 0, 64]; let s : State := inState .config; Serving s ∧ Inline c 12 ∧ c.mb ≠ 0 ∧ mprOk s = true ∧ c.rsv 1 3 = true ∧ c.u64 4 % 64 = 0 ∧ c.u8 0 = 4 ∧ c.u64 4 ≠ 0) ∧
    (let c : Cmd := cmd 1 40 []; let s : State := lacksMpr (inState .config); Serving s ∧ c.mb ≠ 0 ∧ Inline c 40 ∧ mprOk s = false) ∧
    (let c : Cmd := extCmd 1 (List.replicate 512 0); let s : State := lacksMpr (inState .config); Serving s ∧ c.mb ≠ 0 ∧ External c (fun n => n == 512) ∧ mprOk s = false) ∧
    (let c : Cmd := cmd 1 36 []; let s : State := lacksMpr (inState .config); Serving s ∧ c.mb ≠ 0 ∧ Inline c 36 ∧ mprOk s = false) ∧
    (let c : Cmd := cmd 1 4 []; let s : State := lacksMpr (inState .config); Serving s ∧ c.mb ≠ 0 ∧ Inline c 4 ∧ mprOk s = false) ∧
    (let c : Cmd := extCmd 1 (List.replicate 72 0); let s : State := lacksMpr (inState .config); Serving s ∧ c.mb ≠ 0 ∧ External c (fun n => 72 ≤ n && n ≤ 72 + 16 * 32 && (n - 72) % 16 == 0 && (32 < c.u8 11 || n == 72 + 16 * c.u8 11)) ∧ mprOk s = false) ∧
    (let c : Cmd := cmd 1 20 []; let s : State := lacksMpr (inState .config); Serving s ∧ c.mb ≠ 0 ∧ Inline c 20 ∧ mprOk s = false) ∧
    (let c : Cmd := cmd 1 12 []; let s : State := lacksMpr (inState .config); Serving s ∧ c.mb ≠ 0 ∧ Inline c 12 ∧ mprOk s = false) := by
  iterate 14 refine And.intro (by intros; decide +kernel +zetaReduce) ?_
  refine And.intro (by refine ⟨by decide, by decide, by decide, by decide, by decide, by decide, by decide, by decide, rfl, by decide, bigRecord_long.2, bigRecord_part, bigRecord_long.1, by decide⟩) ?_
  iterate 4 refine And.intro (by intros; decide +kernel +zetaReduce) ?_
  refine And.intro (by and_intros <;> first | rfl | decide) ?_
  iterate 11 refine And.intro (by intros; decide +kernel +zetaReduce) ?_
  intros; decide +kernel +zetaReduce

set_option maxRecDepth 20000 in
/-- States and operands that meet the hypotheses of ProtectionCyclesEvaluateAndTrip, clause by clause. -/
theorem test_witness_ProtectionCyclesEvaluateAndTrip :
    (let k : Nat := 0; let s : State := State.reset; (protRuns s = false ∨ s.prot.slowK.any (fun j => decide (k ≤ j)) = true)) ∧
    (let k : Nat := 0; let t : Word16 := 0; let s : State := protOn; let u : State := protOn.onProt (fun p => { p with slowK := some 0, tcs := (0 : Word16).toNat, pt := (List.range 16).filterMap (fun i => if (ptCfg protOn i).kind = 0 then none else some (i, ptStep protOn (ptCfg protOn i) (0 * 125000 * 2 ^ 32) (ptGet protOn i))) }); u = s.onProt (fun p => { p with slowK := some k, tcs := t.toNat, pt := (List.range 16).filterMap (fun i => if (ptCfg s i).kind = 0 then none else some (i, ptStep s (ptCfg s i) (k * 125000 * 2 ^ 32) (ptGet s i))) }) ∧ protRuns s = true ∧ s.prot.slowK.any (fun j => decide (k ≤ j)) = false) ∧
    (let k : Nat := 0; let s : State := State.reset; (protRuns s = false ∨ s.prot.fastK = some k)) ∧
    (let k : Nat := 0; let s : State := protOn.onProt (fun p => { p with act := { p.act with el := [(2, { anEl with fast := true })] } }); protRuns s = true ∧ s.prot.fastK ≠ some k) ∧
    (let s : State := inState .config; twWaiting s = []) ∧
    (let ch : Nat := 0; let l : List Nat := []; let s : State := twOn.onSpare (fun x => { x with cdc := [(3 * 65536 + 6, { req := true, value := [[0]] })] }); twWaiting s = ch :: l ∧ protRuns s = true) ∧
    (let ch : Nat := 0; let n : Nat := 2; let l : List Nat := []; let e : ElCfg := twEl; let s : State := (acqUpd 0 (fun x => { x with state := .armed }) twOn).onSpare (fun x => { x with cdc := [(3 * 65536 + 6, { req := true, value := [[0]] })] }); twWaiting s = ch :: l ∧ protRuns s = true ∧ s.prot.act.el = [(n, e)] ∧ n < 96 ∧ e.type = 12 ∧ bit e.twmask ch = true ∧ e.on = true ∧ (acqGet s ch).state = .armed ∧ ch < 4 ∧ (elGet s n).state = .idle ∧ e.confel = 0xFF ∧ e.blkel = 0xFF) ∧
    (let ch : Nat := 0; let l : List Nat := []; let s : State := (inState .config).onSpare (fun x => { x with cdc := [(3 * 65536 + 6, { req := true, value := [[0]] })] }); twWaiting s = ch :: l ∧ protRuns s = false) ∧
    (let o : Fin 16 := 1; let s : State := tripUpd 1 (fun x => { x with tmin := true }) (inState .config); (tripGet s o).tmin = true) ∧
    (let o : Fin 16 := 1; let s : State := inState .config; (tripGet s o).tmin = false) ∧
    (let o : Fin 16 := 1; let s : State := supervised; (tripCfg s o).sup = true ∧ s.prot.stopped = false ∧ (tripGet s o).level = false ∧ (tripGet s o).fallUs.all (fun f => decide (f + ((tripCfg s o).susp + (tripCfg s o).ttcs) * 1000 ≤ s.nowUs)) = true ∧ (tripGet s o).coil = false) ∧
    (let o : Fin 16 := 1; let s : State := tripUpd 1 (fun x => { x with coil := true }) supervised; (tripCfg s o).sup = true ∧ s.prot.stopped = false ∧ (tripGet s o).level = false ∧ (tripGet s o).fallUs.all (fun f => decide (f + ((tripCfg s o).susp + (tripCfg s o).ttcs) * 1000 ≤ s.nowUs)) = true ∧ (tripGet s o).coil = true) ∧
    (let o : Fin 16 := 1; let b : Bool := true; let s : State := inState .config; ((tripCfg s o).sup = false ∨ s.prot.stopped = true ∨ (tripGet s o).level = true ∨ (tripGet s o).fallUs.any (fun f => decide (s.nowUs < f + ((tripCfg s o).susp + (tripCfg s o).ttcs) * 1000)) = true ∨ (tripGet s o).coil = !b)) ∧
    (let l : List DRec := []; let r : DRec := { aRecord with closed := false }; let s : State := (inState .config).onProt (fun p => { p with recs := [{ aRecord with closed := false }] }); s.prot.recs = l ++ [r] ∧ r.closed = false ∧ r.left = 0) ∧
    (let l : List DRec := []; let r : DRec := { aRecord with closed := false, left := 5, cfg := { maxLen := 0 } }; let s : State := (inState .config).onProt (fun p => { p with recs := [{ aRecord with closed := false, left := 5, cfg := { maxLen := 0 } }] }); s.prot.recs = l ++ [r] ∧ r.closed = false ∧ r.left ≠ 0 ∧ r.cfg.maxLen * 8 ≤ r.samples.length) ∧
    (let l : List DRec := []; let r : DRec := aRecord; let s : State := withRecord; s.prot.recs = l ++ [r] ∧ (r.closed = true ∨ (r.left ≠ 0 ∧ r.samples.length < r.cfg.maxLen * 8))) ∧
    (let s : State := inState .config; s.prot.recs = []) := by
  iterate 16 refine And.intro (by intros; decide +kernel +zetaReduce) ?_
  intros; decide +kernel +zetaReduce

set_option maxRecDepth 20000 in
/-- States and operands that meet the hypotheses of TimeCommandsSetTheBasesAndOutputs, clause by clause. -/
theorem test_witness_TimeCommandsSetTheBasesAndOutputs :
    ((((if bit ((cmd 1 20 []).u8 1) 0 = true then rdS (cmd 1 20 []).params 4 8 * (2 ^ 32 : Nat) else (((cmd 1 20 []).stamp 4).val : Int) - ((base (inState .config) 0).val : Int)) : Int) = (if bit ((cmd 1 20 [] : Cmd).u8 1) 0 = true then rdS (cmd 1 20 [] : Cmd).params 4 8 * (2 ^ 32 : Nat) else (((cmd 1 20 [] : Cmd).stamp 4).val : Int) - ((base (inState .config : State) 0).val : Int))) ∧ (Serving (inState .config : State)) ∧ ((cmd 1 20 [] : Cmd).mb ≠ 0) ∧ (Inline (cmd 1 20 [] : Cmd) 20) ∧ ((cmd 1 20 [] : Cmd).u8 0 = 0) ∧ ((cmd 1 20 [] : Cmd).u8 1 < 4) ∧ ((cmd 1 20 [] : Cmd).rsv 2 2 = true) ∧ ((cmd 1 20 [] : Cmd).u32 16 ≤ 4000000000) ∧ ((bit ((cmd 1 20 [] : Cmd).u8 1) 0 = true ∧ (cmd 1 20 [] : Cmd).rsv 12 4 = true ∧ 0 ≤ (base (inState .config : State) 0).val + ((if bit ((cmd 1 20 []).u8 1) 0 = true then rdS (cmd 1 20 []).params 4 8 * (2 ^ 32 : Nat) else (((cmd 1 20 []).stamp 4).val : Int) - ((base (inState .config) 0).val : Int)) : Int)) ∨ (bit ((cmd 1 20 [] : Cmd).u8 1) 0 = false ∧ (cmd 1 20 [] : Cmd).stampOk 4 = true)) ∧ (((inState .config : State).time.qual = .unset ∨ (inState .config : State).time.qual = .restored) ∨ (((inState .config : State).time.cfg.mode = false ∨ ((if bit ((cmd 1 20 []).u8 1) 0 = true then rdS (cmd 1 20 []).params 4 8 * (2 ^ 32 : Nat) else (((cmd 1 20 []).stamp 4).val : Int) - ((base (inState .config) 0).val : Int)) : Int) % (secUnits : Nat) = 0) ∧ ((((if bit ((cmd 1 20 []).u8 1) 0 = true then rdS (cmd 1 20 []).params 4 8 * (2 ^ 32 : Nat) else (((cmd 1 20 []).stamp 4).val : Int) - ((base (inState .config) 0).val : Int)) : Int).natAbs : Int) ≤ ((inState .config : State).time.cfg.stepMax * 2 ^ 32 : Nat) ∨ bit ((cmd 1 20 [] : Cmd).u8 1) 1 = true))) ∧ ((inState .config : State).time.dstate ≠ .locked) ∧ ((setQual .free ((cmd 1 20 []).u32 16) ((stepTime ((if bit ((cmd 1 20 []).u8 1) 0 = true then rdS (cmd 1 20 []).params 4 8 * (2 ^ 32 : Nat) else (((cmd 1 20 []).stamp 4).val : Int) - ((base (inState .config) 0).val : Int))) 0 ((inState .config).onTime (fun x => { x with first := x.first || (x.cfg.mode && x.dstate != .refusing) }))).onTime (fun x => { x with b0 := (cmd 1 20 []).u32 16, bSecs := 0 })) : State) = setQual .free ((cmd 1 20 [] : Cmd).u32 16) ((stepTime ((if bit ((cmd 1 20 []).u8 1) 0 = true then rdS (cmd 1 20 []).params 4 8 * (2 ^ 32 : Nat) else (((cmd 1 20 []).stamp 4).val : Int) - ((base (inState .config) 0).val : Int)) : Int) 0 ((inState .config : State).onTime (fun x => { x with first := x.first || (x.cfg.mode && x.dstate != .refusing) }))).onTime (fun x => { x with b0 := (cmd 1 20 [] : Cmd).u32 16, bSecs := 0 })))) ∧
    ((((if bit ((cmd 1 20 [0, 1, 0, 0, 100]).u8 1) 0 = true then rdS (cmd 1 20 [0, 1, 0, 0, 100]).params 4 8 * (2 ^ 32 : Nat) else (((cmd 1 20 [0, 1, 0, 0, 100]).stamp 4).val : Int) - ((base (((inState .config).onTime (fun t => { t with qual := .locked, dstate := .locked }))) 0).val : Int)) : Int) = (if bit ((cmd 1 20 [0, 1, 0, 0, 100] : Cmd).u8 1) 0 = true then rdS (cmd 1 20 [0, 1, 0, 0, 100] : Cmd).params 4 8 * (2 ^ 32 : Nat) else (((cmd 1 20 [0, 1, 0, 0, 100] : Cmd).stamp 4).val : Int) - ((base (((inState .config).onTime (fun t => { t with qual := .locked, dstate := .locked })) : State) 0).val : Int))) ∧ (Serving (((inState .config).onTime (fun t => { t with qual := .locked, dstate := .locked })) : State)) ∧ ((cmd 1 20 [0, 1, 0, 0, 100] : Cmd).mb ≠ 0) ∧ (Inline (cmd 1 20 [0, 1, 0, 0, 100] : Cmd) 20) ∧ ((cmd 1 20 [0, 1, 0, 0, 100] : Cmd).u8 0 = 0) ∧ ((cmd 1 20 [0, 1, 0, 0, 100] : Cmd).u8 1 < 4) ∧ ((cmd 1 20 [0, 1, 0, 0, 100] : Cmd).rsv 2 2 = true) ∧ ((cmd 1 20 [0, 1, 0, 0, 100] : Cmd).u32 16 ≤ 4000000000) ∧ ((bit ((cmd 1 20 [0, 1, 0, 0, 100] : Cmd).u8 1) 0 = true ∧ (cmd 1 20 [0, 1, 0, 0, 100] : Cmd).rsv 12 4 = true ∧ 0 ≤ (base (((inState .config).onTime (fun t => { t with qual := .locked, dstate := .locked })) : State) 0).val + ((if bit ((cmd 1 20 [0, 1, 0, 0, 100]).u8 1) 0 = true then rdS (cmd 1 20 [0, 1, 0, 0, 100]).params 4 8 * (2 ^ 32 : Nat) else (((cmd 1 20 [0, 1, 0, 0, 100]).stamp 4).val : Int) - ((base (((inState .config).onTime (fun t => { t with qual := .locked, dstate := .locked }))) 0).val : Int)) : Int)) ∨ (bit ((cmd 1 20 [0, 1, 0, 0, 100] : Cmd).u8 1) 0 = false ∧ (cmd 1 20 [0, 1, 0, 0, 100] : Cmd).stampOk 4 = true)) ∧ (((((inState .config).onTime (fun t => { t with qual := .locked, dstate := .locked })) : State).time.qual = .unset ∨ (((inState .config).onTime (fun t => { t with qual := .locked, dstate := .locked })) : State).time.qual = .restored) ∨ (((((inState .config).onTime (fun t => { t with qual := .locked, dstate := .locked })) : State).time.cfg.mode = false ∨ ((if bit ((cmd 1 20 [0, 1, 0, 0, 100]).u8 1) 0 = true then rdS (cmd 1 20 [0, 1, 0, 0, 100]).params 4 8 * (2 ^ 32 : Nat) else (((cmd 1 20 [0, 1, 0, 0, 100]).stamp 4).val : Int) - ((base (((inState .config).onTime (fun t => { t with qual := .locked, dstate := .locked }))) 0).val : Int)) : Int) % (secUnits : Nat) = 0) ∧ ((((if bit ((cmd 1 20 [0, 1, 0, 0, 100]).u8 1) 0 = true then rdS (cmd 1 20 [0, 1, 0, 0, 100]).params 4 8 * (2 ^ 32 : Nat) else (((cmd 1 20 [0, 1, 0, 0, 100]).stamp 4).val : Int) - ((base (((inState .config).onTime (fun t => { t with qual := .locked, dstate := .locked }))) 0).val : Int)) : Int).natAbs : Int) ≤ ((((inState .config).onTime (fun t => { t with qual := .locked, dstate := .locked })) : State).time.cfg.stepMax * 2 ^ 32 : Nat) ∨ bit ((cmd 1 20 [0, 1, 0, 0, 100] : Cmd).u8 1) 1 = true))) ∧ ((((inState .config).onTime (fun t => { t with qual := .locked, dstate := .locked })) : State).time.dstate = .locked) ∧ ((stepTime ((if bit ((cmd 1 20 [0, 1, 0, 0, 100]).u8 1) 0 = true then rdS (cmd 1 20 [0, 1, 0, 0, 100]).params 4 8 * (2 ^ 32 : Nat) else (((cmd 1 20 [0, 1, 0, 0, 100]).stamp 4).val : Int) - ((base (((inState .config).onTime (fun t => { t with qual := .locked, dstate := .locked }))) 0).val : Int))) 0 ((((inState .config).onTime (fun t => { t with qual := .locked, dstate := .locked }))).onTime (fun x => { x with first := x.first || (x.cfg.mode && x.dstate != .refusing) })) : State) = stepTime ((if bit ((cmd 1 20 [0, 1, 0, 0, 100]).u8 1) 0 = true then rdS (cmd 1 20 [0, 1, 0, 0, 100]).params 4 8 * (2 ^ 32 : Nat) else (((cmd 1 20 [0, 1, 0, 0, 100]).stamp 4).val : Int) - ((base (((inState .config).onTime (fun t => { t with qual := .locked, dstate := .locked }))) 0).val : Int)) : Int) 0 ((((inState .config).onTime (fun t => { t with qual := .locked, dstate := .locked })) : State).onTime (fun x => { x with first := x.first || (x.cfg.mode && x.dstate != .refusing) })))) ∧
    (let c : Cmd := cmd 1 20 [0, 1, 0, 0, 100]; let d : Int := (if bit ((cmd 1 20 [0, 1, 0, 0, 100]).u8 1) 0 = true then rdS (cmd 1 20 [0, 1, 0, 0, 100]).params 4 8 * (2 ^ 32 : Nat) else (((cmd 1 20 [0, 1, 0, 0, 100]).stamp 4).val : Int) - ((base ((disciplined)) 0).val : Int)); let s : State := (disciplined); d = (if bit (c.u8 1) 0 = true then rdS c.params 4 8 * (2 ^ 32 : Nat) else ((c.stamp 4).val : Int) - ((base s 0).val : Int)) ∧ Serving s ∧ c.mb ≠ 0 ∧ Inline c 20 ∧ c.u8 0 = 0 ∧ c.u8 1 < 4 ∧ c.rsv 2 2 = true ∧ c.u32 16 ≤ 4000000000 ∧ ((bit (c.u8 1) 0 = true ∧ c.rsv 12 4 = true ∧ 0 ≤ (base s 0).val + d) ∨ (bit (c.u8 1) 0 = false ∧ c.stampOk 4 = true)) ∧ (¬(s.time.qual = .unset ∨ s.time.qual = .restored)) ∧ s.time.cfg.mode = true ∧ d % (secUnits : Nat) ≠ 0) ∧
    (let c : Cmd := cmd 1 20 ([0, 0, 0, 0] ++ le 12 (2 ^ 60)); let d : Int := (if bit ((cmd 1 20 ([0, 0, 0, 0] ++ le 12 (2 ^ 60))).u8 1) 0 = true then rdS (cmd 1 20 ([0, 0, 0, 0] ++ le 12 (2 ^ 60))).params 4 8 * (2 ^ 32 : Nat) else (((cmd 1 20 ([0, 0, 0, 0] ++ le 12 (2 ^ 60))).stamp 4).val : Int) - ((base (((inState .config).onTime (fun t => { t with qual := .free }))) 0).val : Int)); let s : State := ((inState .config).onTime (fun t => { t with qual := .free })); d = (if bit (c.u8 1) 0 = true then rdS c.params 4 8 * (2 ^ 32 : Nat) else ((c.stamp 4).val : Int) - ((base s 0).val : Int)) ∧ Serving s ∧ c.mb ≠ 0 ∧ Inline c 20 ∧ c.u8 0 = 0 ∧ c.u8 1 < 4 ∧ c.rsv 2 2 = true ∧ c.u32 16 ≤ 4000000000 ∧ ((bit (c.u8 1) 0 = true ∧ c.rsv 12 4 = true ∧ 0 ≤ (base s 0).val + d) ∨ (bit (c.u8 1) 0 = false ∧ c.stampOk 4 = true)) ∧ (¬(s.time.qual = .unset ∨ s.time.qual = .restored)) ∧ (s.time.cfg.mode = false ∨ d % (secUnits : Nat) = 0) ∧ (s.time.cfg.stepMax * 2 ^ 32 : Nat) < (d.natAbs : Int) ∧ bit (c.u8 1) 1 = false) ∧
    (let c : Cmd := cmd 1 20 [4, 0, 0, 0, 37]; let s : State := inState .config; let v : State := timeEvent 0x07 [word32 ((cmd 1 20 [4, 0, 0, 0, 37]).s16 4)] ((inState .config).onTime (fun t => { t with taiUtc := (cmd 1 20 [4, 0, 0, 0, 37]).s16 4, utcValid := true, leap := if (cmd 1 20 [4, 0, 0, 0, 37]).s8 6 = 0 then none else some ((cmd 1 20 [4, 0, 0, 0, 37]).s8 6, rd (cmd 1 20 [4, 0, 0, 0, 37]).params 8 6) })); Serving s ∧ c.mb ≠ 0 ∧ Inline c 20 ∧ c.u8 0 = 4 ∧ c.u8 1 < 4 ∧ c.rsv 2 2 = true ∧ c.u32 16 ≤ 4000000000 ∧ -1 ≤ c.s8 6 ∧ c.s8 6 ≤ 1 ∧ c.rsv 7 1 = true ∧ c.rsv 14 2 = true ∧ c.s16 4 ≠ s.time.taiUtc ∧ v = timeEvent 0x07 [word32 (c.s16 4)] (s.onTime (fun t => { t with taiUtc := c.s16 4, utcValid := true, leap := if c.s8 6 = 0 then none else some (c.s8 6, rd c.params 8 6) }))) ∧
    (let c : Cmd := cmd 1 20 [4, 0, 0, 0, 0, 0, 1]; let s : State := inState .config; let v : State := (inState .config).onTime (fun t => { t with taiUtc := (cmd 1 20 [4, 0, 0, 0, 0, 0, 1]).s16 4, utcValid := true, leap := if (cmd 1 20 [4, 0, 0, 0, 0, 0, 1]).s8 6 = 0 then none else some ((cmd 1 20 [4, 0, 0, 0, 0, 0, 1]).s8 6, rd (cmd 1 20 [4, 0, 0, 0, 0, 0, 1]).params 8 6) }); Serving s ∧ c.mb ≠ 0 ∧ Inline c 20 ∧ c.u8 0 = 4 ∧ c.u8 1 < 4 ∧ c.rsv 2 2 = true ∧ c.u32 16 ≤ 4000000000 ∧ -1 ≤ c.s8 6 ∧ c.s8 6 ≤ 1 ∧ c.rsv 7 1 = true ∧ c.rsv 14 2 = true ∧ c.s16 4 = s.time.taiUtc ∧ v = s.onTime (fun t => { t with taiUtc := c.s16 4, utcValid := true, leap := if c.s8 6 = 0 then none else some (c.s8 6, rd c.params 8 6) })) ∧
    (let c : Cmd := (cmd 1 24 ([1, 0] ++ le 2 64 ++ le 4 1000 ++ le 4 100 ++ le 4 50 ++ le 4 1000)); let s : State := inState .config; let k : DiscCfg := { mode := ((cmd 1 24 ([1, 0] ++ le 2 64 ++ le 4 1000 ++ le 4 100 ++ le 4 50 ++ le 4 1000))).u8 0 == 1, falling := bit (((cmd 1 24 ([1, 0] ++ le 2 64 ++ le 4 1000 ++ le 4 100 ++ le 4 50 ++ le 4 1000))).u8 1) 1, linkTrack := bit (((cmd 1 24 ([1, 0] ++ le 2 64 ++ le 4 1000 ++ le 4 100 ++ le 4 50 ++ le 4 1000))).u8 1) 2, tc := ((cmd 1 24 ([1, 0] ++ le 2 64 ++ le 4 1000 ++ le 4 100 ++ le 4 50 ++ le 4 1000))).u16 2, stepMax := ((cmd 1 24 ([1, 0] ++ le 2 64 ++ le 4 1000 ++ le 4 100 ++ le 4 50 ++ le 4 1000))).u32 4, lockWin := ((cmd 1 24 ([1, 0] ++ le 2 64 ++ le 4 1000 ++ le 4 100 ++ le 4 50 ++ le 4 1000))).u32 8, holdRate := ((cmd 1 24 ([1, 0] ++ le 2 64 ++ le 4 1000 ++ le 4 100 ++ le 4 50 ++ le 4 1000))).u32 12, accLim := ((cmd 1 24 ([1, 0] ++ le 2 64 ++ le 4 1000 ++ le 4 100 ++ le 4 50 ++ le 4 1000))).u32 16, ppsComp := ((cmd 1 24 ([1, 0] ++ le 2 64 ++ le 4 1000 ++ le 4 100 ++ le 4 50 ++ le 4 1000))).s32 20 }; k = { mode := c.u8 0 == 1, falling := bit (c.u8 1) 1, linkTrack := bit (c.u8 1) 2, tc := c.u16 2, stepMax := c.u32 4, lockWin := c.u32 8, holdRate := c.u32 12, accLim := c.u32 16, ppsComp := c.s32 20 } ∧ Serving s ∧ c.mb ≠ 0 ∧ Inline c 24 ∧ c.u8 0 < 2 ∧ c.u8 1 < 8 ∧ 8 ≤ k.tc ∧ k.tc ≤ 1024 ∧ 100 ≤ k.stepMax ∧ k.stepMax ≤ 999999999 ∧ 10 ≤ k.lockWin ∧ k.lockWin ≤ 100000 ∧ 1 ≤ k.holdRate ∧ k.holdRate ≤ 100000 ∧ 100 ≤ k.accLim ∧ k.accLim ≤ 1000000 ∧ k.ppsComp.natAbs ≤ 100000 ∧ c.u8 0 = 1 ∧ timeUnset s = true) ∧
    (let c : Cmd := (cmd 1 24 ([1, 0] ++ le 2 64 ++ le 4 1000 ++ le 4 100 ++ le 4 50 ++ le 4 1000)); let s : State := ((inState .config).onTime (fun t => { t with qual := .locked, dstate := .off })); let t : State := requal ((((inState .config).onTime (fun t => { t with qual := .locked, dstate := .off }))).onTime (fun t => { t with cfg := { mode := ((cmd 1 24 ([1, 0] ++ le 2 64 ++ le 4 1000 ++ le 4 100 ++ le 4 50 ++ le 4 1000))).u8 0 == 1, falling := bit (((cmd 1 24 ([1, 0] ++ le 2 64 ++ le 4 1000 ++ le 4 100 ++ le 4 50 ++ le 4 1000))).u8 1) 1, linkTrack := bit (((cmd 1 24 ([1, 0] ++ le 2 64 ++ le 4 1000 ++ le 4 100 ++ le 4 50 ++ le 4 1000))).u8 1) 2, tc := ((cmd 1 24 ([1, 0] ++ le 2 64 ++ le 4 1000 ++ le 4 100 ++ le 4 50 ++ le 4 1000))).u16 2, stepMax := ((cmd 1 24 ([1, 0] ++ le 2 64 ++ le 4 1000 ++ le 4 100 ++ le 4 50 ++ le 4 1000))).u32 4, lockWin := ((cmd 1 24 ([1, 0] ++ le 2 64 ++ le 4 1000 ++ le 4 100 ++ le 4 50 ++ le 4 1000))).u32 8, holdRate := ((cmd 1 24 ([1, 0] ++ le 2 64 ++ le 4 1000 ++ le 4 100 ++ le 4 50 ++ le 4 1000))).u32 12, accLim := ((cmd 1 24 ([1, 0] ++ le 2 64 ++ le 4 1000 ++ le 4 100 ++ le 4 50 ++ le 4 1000))).u32 16, ppsComp := ((cmd 1 24 ([1, 0] ++ le 2 64 ++ le 4 1000 ++ le 4 100 ++ le 4 50 ++ le 4 1000))).s32 20 }, dstate := .acquire, first := true, accept := false, servoI := 0, servoY := 0, ys := [], inWin := 0, outWin := 0, outs := [], goodRun := 0, theta := none })); let k : DiscCfg := { mode := ((cmd 1 24 ([1, 0] ++ le 2 64 ++ le 4 1000 ++ le 4 100 ++ le 4 50 ++ le 4 1000))).u8 0 == 1, falling := bit (((cmd 1 24 ([1, 0] ++ le 2 64 ++ le 4 1000 ++ le 4 100 ++ le 4 50 ++ le 4 1000))).u8 1) 1, linkTrack := bit (((cmd 1 24 ([1, 0] ++ le 2 64 ++ le 4 1000 ++ le 4 100 ++ le 4 50 ++ le 4 1000))).u8 1) 2, tc := ((cmd 1 24 ([1, 0] ++ le 2 64 ++ le 4 1000 ++ le 4 100 ++ le 4 50 ++ le 4 1000))).u16 2, stepMax := ((cmd 1 24 ([1, 0] ++ le 2 64 ++ le 4 1000 ++ le 4 100 ++ le 4 50 ++ le 4 1000))).u32 4, lockWin := ((cmd 1 24 ([1, 0] ++ le 2 64 ++ le 4 1000 ++ le 4 100 ++ le 4 50 ++ le 4 1000))).u32 8, holdRate := ((cmd 1 24 ([1, 0] ++ le 2 64 ++ le 4 1000 ++ le 4 100 ++ le 4 50 ++ le 4 1000))).u32 12, accLim := ((cmd 1 24 ([1, 0] ++ le 2 64 ++ le 4 1000 ++ le 4 100 ++ le 4 50 ++ le 4 1000))).u32 16, ppsComp := ((cmd 1 24 ([1, 0] ++ le 2 64 ++ le 4 1000 ++ le 4 100 ++ le 4 50 ++ le 4 1000))).s32 20 }; k = { mode := c.u8 0 == 1, falling := bit (c.u8 1) 1, linkTrack := bit (c.u8 1) 2, tc := c.u16 2, stepMax := c.u32 4, lockWin := c.u32 8, holdRate := c.u32 12, accLim := c.u32 16, ppsComp := c.s32 20 } ∧ Serving s ∧ c.mb ≠ 0 ∧ Inline c 24 ∧ c.u8 0 < 2 ∧ c.u8 1 < 8 ∧ 8 ≤ k.tc ∧ k.tc ≤ 1024 ∧ 100 ≤ k.stepMax ∧ k.stepMax ≤ 999999999 ∧ 10 ≤ k.lockWin ∧ k.lockWin ≤ 100000 ∧ 1 ≤ k.holdRate ∧ k.holdRate ≤ 100000 ∧ 100 ≤ k.accLim ∧ k.accLim ≤ 1000000 ∧ k.ppsComp.natAbs ≤ 100000 ∧ c.u8 0 = 1 ∧ timeUnset s = false ∧ s.time.dstate = .off ∧ followsTime s = false ∧ t = requal (s.onTime (fun x => { x with cfg := k, dstate := .acquire, first := true, accept := false, servoI := 0, servoY := 0, ys := [], inWin := 0, outWin := 0, outs := [], goodRun := 0, theta := none }))) ∧
    (let c : Cmd := (cmd 1 24 ([0, 0] ++ le 2 64 ++ le 4 1000 ++ le 4 100 ++ le 4 50 ++ le 4 1000)); let s : State := ((inState .config).onTime (fun t => { t with qual := .locked, dstate := .holdover })); let t : State := requal ((((inState .config).onTime (fun t => { t with qual := .locked, dstate := .holdover }))).onTime (fun t => { t with cfg := { mode := ((cmd 1 24 ([0, 0] ++ le 2 64 ++ le 4 1000 ++ le 4 100 ++ le 4 50 ++ le 4 1000))).u8 0 == 1, falling := bit (((cmd 1 24 ([0, 0] ++ le 2 64 ++ le 4 1000 ++ le 4 100 ++ le 4 50 ++ le 4 1000))).u8 1) 1, linkTrack := bit (((cmd 1 24 ([0, 0] ++ le 2 64 ++ le 4 1000 ++ le 4 100 ++ le 4 50 ++ le 4 1000))).u8 1) 2, tc := ((cmd 1 24 ([0, 0] ++ le 2 64 ++ le 4 1000 ++ le 4 100 ++ le 4 50 ++ le 4 1000))).u16 2, stepMax := ((cmd 1 24 ([0, 0] ++ le 2 64 ++ le 4 1000 ++ le 4 100 ++ le 4 50 ++ le 4 1000))).u32 4, lockWin := ((cmd 1 24 ([0, 0] ++ le 2 64 ++ le 4 1000 ++ le 4 100 ++ le 4 50 ++ le 4 1000))).u32 8, holdRate := ((cmd 1 24 ([0, 0] ++ le 2 64 ++ le 4 1000 ++ le 4 100 ++ le 4 50 ++ le 4 1000))).u32 12, accLim := ((cmd 1 24 ([0, 0] ++ le 2 64 ++ le 4 1000 ++ le 4 100 ++ le 4 50 ++ le 4 1000))).u32 16, ppsComp := ((cmd 1 24 ([0, 0] ++ le 2 64 ++ le 4 1000 ++ le 4 100 ++ le 4 50 ++ le 4 1000))).s32 20 }, dstate := .off, first := false, accept := false, refused := false, theta := none })); let k : DiscCfg := { mode := ((cmd 1 24 ([0, 0] ++ le 2 64 ++ le 4 1000 ++ le 4 100 ++ le 4 50 ++ le 4 1000))).u8 0 == 1, falling := bit (((cmd 1 24 ([0, 0] ++ le 2 64 ++ le 4 1000 ++ le 4 100 ++ le 4 50 ++ le 4 1000))).u8 1) 1, linkTrack := bit (((cmd 1 24 ([0, 0] ++ le 2 64 ++ le 4 1000 ++ le 4 100 ++ le 4 50 ++ le 4 1000))).u8 1) 2, tc := ((cmd 1 24 ([0, 0] ++ le 2 64 ++ le 4 1000 ++ le 4 100 ++ le 4 50 ++ le 4 1000))).u16 2, stepMax := ((cmd 1 24 ([0, 0] ++ le 2 64 ++ le 4 1000 ++ le 4 100 ++ le 4 50 ++ le 4 1000))).u32 4, lockWin := ((cmd 1 24 ([0, 0] ++ le 2 64 ++ le 4 1000 ++ le 4 100 ++ le 4 50 ++ le 4 1000))).u32 8, holdRate := ((cmd 1 24 ([0, 0] ++ le 2 64 ++ le 4 1000 ++ le 4 100 ++ le 4 50 ++ le 4 1000))).u32 12, accLim := ((cmd 1 24 ([0, 0] ++ le 2 64 ++ le 4 1000 ++ le 4 100 ++ le 4 50 ++ le 4 1000))).u32 16, ppsComp := ((cmd 1 24 ([0, 0] ++ le 2 64 ++ le 4 1000 ++ le 4 100 ++ le 4 50 ++ le 4 1000))).s32 20 }; k = { mode := c.u8 0 == 1, falling := bit (c.u8 1) 1, linkTrack := bit (c.u8 1) 2, tc := c.u16 2, stepMax := c.u32 4, lockWin := c.u32 8, holdRate := c.u32 12, accLim := c.u32 16, ppsComp := c.s32 20 } ∧ Serving s ∧ c.mb ≠ 0 ∧ Inline c 24 ∧ c.u8 0 < 2 ∧ c.u8 1 < 8 ∧ 8 ≤ k.tc ∧ k.tc ≤ 1024 ∧ 100 ≤ k.stepMax ∧ k.stepMax ≤ 999999999 ∧ 10 ≤ k.lockWin ∧ k.lockWin ≤ 100000 ∧ 1 ≤ k.holdRate ∧ k.holdRate ≤ 100000 ∧ 100 ≤ k.accLim ∧ k.accLim ≤ 1000000 ∧ k.ppsComp.natAbs ≤ 100000 ∧ c.u8 0 = 0 ∧ s.time.dstate ≠ .refusing ∧ t = requal (s.onTime (fun x => { x with cfg := k, dstate := .off, first := false, accept := false, refused := false, theta := none }))) ∧
    ((({ mode := ((cmd 1 24 ([0, 0] ++ le 2 64 ++ le 4 1000 ++ le 4 100 ++ le 4 50 ++ le 4 1000))).u8 0 == 1, falling := bit (((cmd 1 24 ([0, 0] ++ le 2 64 ++ le 4 1000 ++ le 4 100 ++ le 4 50 ++ le 4 1000))).u8 1) 1, linkTrack := bit (((cmd 1 24 ([0, 0] ++ le 2 64 ++ le 4 1000 ++ le 4 100 ++ le 4 50 ++ le 4 1000))).u8 1) 2, tc := ((cmd 1 24 ([0, 0] ++ le 2 64 ++ le 4 1000 ++ le 4 100 ++ le 4 50 ++ le 4 1000))).u16 2, stepMax := ((cmd 1 24 ([0, 0] ++ le 2 64 ++ le 4 1000 ++ le 4 100 ++ le 4 50 ++ le 4 1000))).u32 4, lockWin := ((cmd 1 24 ([0, 0] ++ le 2 64 ++ le 4 1000 ++ le 4 100 ++ le 4 50 ++ le 4 1000))).u32 8, holdRate := ((cmd 1 24 ([0, 0] ++ le 2 64 ++ le 4 1000 ++ le 4 100 ++ le 4 50 ++ le 4 1000))).u32 12, accLim := ((cmd 1 24 ([0, 0] ++ le 2 64 ++ le 4 1000 ++ le 4 100 ++ le 4 50 ++ le 4 1000))).u32 16, ppsComp := ((cmd 1 24 ([0, 0] ++ le 2 64 ++ le 4 1000 ++ le 4 100 ++ le 4 50 ++ le 4 1000))).s32 20 } : DiscCfg) = { mode := ((cmd 1 24 ([0, 0] ++ le 2 64 ++ le 4 1000 ++ le 4 100 ++ le 4 50 ++ le 4 1000)) : Cmd).u8 0 == 1, falling := bit (((cmd 1 24 ([0, 0] ++ le 2 64 ++ le 4 1000 ++ le 4 100 ++ le 4 50 ++ le 4 1000)) : Cmd).u8 1) 1, linkTrack := bit (((cmd 1 24 ([0, 0] ++ le 2 64 ++ le 4 1000 ++ le 4 100 ++ le 4 50 ++ le 4 1000)) : Cmd).u8 1) 2, tc := ((cmd 1 24 ([0, 0] ++ le 2 64 ++ le 4 1000 ++ le 4 100 ++ le 4 50 ++ le 4 1000)) : Cmd).u16 2, stepMax := ((cmd 1 24 ([0, 0] ++ le 2 64 ++ le 4 1000 ++ le 4 100 ++ le 4 50 ++ le 4 1000)) : Cmd).u32 4, lockWin := ((cmd 1 24 ([0, 0] ++ le 2 64 ++ le 4 1000 ++ le 4 100 ++ le 4 50 ++ le 4 1000)) : Cmd).u32 8, holdRate := ((cmd 1 24 ([0, 0] ++ le 2 64 ++ le 4 1000 ++ le 4 100 ++ le 4 50 ++ le 4 1000)) : Cmd).u32 12, accLim := ((cmd 1 24 ([0, 0] ++ le 2 64 ++ le 4 1000 ++ le 4 100 ++ le 4 50 ++ le 4 1000)) : Cmd).u32 16, ppsComp := ((cmd 1 24 ([0, 0] ++ le 2 64 ++ le 4 1000 ++ le 4 100 ++ le 4 50 ++ le 4 1000)) : Cmd).s32 20 }) ∧ (Serving (((inState .config).onTime (fun t => { t with qual := .locked, dstate := .refusing })) : State)) ∧ (((cmd 1 24 ([0, 0] ++ le 2 64 ++ le 4 1000 ++ le 4 100 ++ le 4 50 ++ le 4 1000)) : Cmd).mb ≠ 0) ∧ (Inline ((cmd 1 24 ([0, 0] ++ le 2 64 ++ le 4 1000 ++ le 4 100 ++ le 4 50 ++ le 4 1000)) : Cmd) 24) ∧ (((cmd 1 24 ([0, 0] ++ le 2 64 ++ le 4 1000 ++ le 4 100 ++ le 4 50 ++ le 4 1000)) : Cmd).u8 0 < 2) ∧ (((cmd 1 24 ([0, 0] ++ le 2 64 ++ le 4 1000 ++ le 4 100 ++ le 4 50 ++ le 4 1000)) : Cmd).u8 1 < 8) ∧ (8 ≤ ({ mode := ((cmd 1 24 ([0, 0] ++ le 2 64 ++ le 4 1000 ++ le 4 100 ++ le 4 50 ++ le 4 1000))).u8 0 == 1, falling := bit (((cmd 1 24 ([0, 0] ++ le 2 64 ++ le 4 1000 ++ le 4 100 ++ le 4 50 ++ le 4 1000))).u8 1) 1, linkTrack := bit (((cmd 1 24 ([0, 0] ++ le 2 64 ++ le 4 1000 ++ le 4 100 ++ le 4 50 ++ le 4 1000))).u8 1) 2, tc := ((cmd 1 24 ([0, 0] ++ le 2 64 ++ le 4 1000 ++ le 4 100 ++ le 4 50 ++ le 4 1000))).u16 2, stepMax := ((cmd 1 24 ([0, 0] ++ le 2 64 ++ le 4 1000 ++ le 4 100 ++ le 4 50 ++ le 4 1000))).u32 4, lockWin := ((cmd 1 24 ([0, 0] ++ le 2 64 ++ le 4 1000 ++ le 4 100 ++ le 4 50 ++ le 4 1000))).u32 8, holdRate := ((cmd 1 24 ([0, 0] ++ le 2 64 ++ le 4 1000 ++ le 4 100 ++ le 4 50 ++ le 4 1000))).u32 12, accLim := ((cmd 1 24 ([0, 0] ++ le 2 64 ++ le 4 1000 ++ le 4 100 ++ le 4 50 ++ le 4 1000))).u32 16, ppsComp := ((cmd 1 24 ([0, 0] ++ le 2 64 ++ le 4 1000 ++ le 4 100 ++ le 4 50 ++ le 4 1000))).s32 20 } : DiscCfg).tc) ∧ (({ mode := ((cmd 1 24 ([0, 0] ++ le 2 64 ++ le 4 1000 ++ le 4 100 ++ le 4 50 ++ le 4 1000))).u8 0 == 1, falling := bit (((cmd 1 24 ([0, 0] ++ le 2 64 ++ le 4 1000 ++ le 4 100 ++ le 4 50 ++ le 4 1000))).u8 1) 1, linkTrack := bit (((cmd 1 24 ([0, 0] ++ le 2 64 ++ le 4 1000 ++ le 4 100 ++ le 4 50 ++ le 4 1000))).u8 1) 2, tc := ((cmd 1 24 ([0, 0] ++ le 2 64 ++ le 4 1000 ++ le 4 100 ++ le 4 50 ++ le 4 1000))).u16 2, stepMax := ((cmd 1 24 ([0, 0] ++ le 2 64 ++ le 4 1000 ++ le 4 100 ++ le 4 50 ++ le 4 1000))).u32 4, lockWin := ((cmd 1 24 ([0, 0] ++ le 2 64 ++ le 4 1000 ++ le 4 100 ++ le 4 50 ++ le 4 1000))).u32 8, holdRate := ((cmd 1 24 ([0, 0] ++ le 2 64 ++ le 4 1000 ++ le 4 100 ++ le 4 50 ++ le 4 1000))).u32 12, accLim := ((cmd 1 24 ([0, 0] ++ le 2 64 ++ le 4 1000 ++ le 4 100 ++ le 4 50 ++ le 4 1000))).u32 16, ppsComp := ((cmd 1 24 ([0, 0] ++ le 2 64 ++ le 4 1000 ++ le 4 100 ++ le 4 50 ++ le 4 1000))).s32 20 } : DiscCfg).tc ≤ 1024) ∧ (100 ≤ ({ mode := ((cmd 1 24 ([0, 0] ++ le 2 64 ++ le 4 1000 ++ le 4 100 ++ le 4 50 ++ le 4 1000))).u8 0 == 1, falling := bit (((cmd 1 24 ([0, 0] ++ le 2 64 ++ le 4 1000 ++ le 4 100 ++ le 4 50 ++ le 4 1000))).u8 1) 1, linkTrack := bit (((cmd 1 24 ([0, 0] ++ le 2 64 ++ le 4 1000 ++ le 4 100 ++ le 4 50 ++ le 4 1000))).u8 1) 2, tc := ((cmd 1 24 ([0, 0] ++ le 2 64 ++ le 4 1000 ++ le 4 100 ++ le 4 50 ++ le 4 1000))).u16 2, stepMax := ((cmd 1 24 ([0, 0] ++ le 2 64 ++ le 4 1000 ++ le 4 100 ++ le 4 50 ++ le 4 1000))).u32 4, lockWin := ((cmd 1 24 ([0, 0] ++ le 2 64 ++ le 4 1000 ++ le 4 100 ++ le 4 50 ++ le 4 1000))).u32 8, holdRate := ((cmd 1 24 ([0, 0] ++ le 2 64 ++ le 4 1000 ++ le 4 100 ++ le 4 50 ++ le 4 1000))).u32 12, accLim := ((cmd 1 24 ([0, 0] ++ le 2 64 ++ le 4 1000 ++ le 4 100 ++ le 4 50 ++ le 4 1000))).u32 16, ppsComp := ((cmd 1 24 ([0, 0] ++ le 2 64 ++ le 4 1000 ++ le 4 100 ++ le 4 50 ++ le 4 1000))).s32 20 } : DiscCfg).stepMax) ∧ (({ mode := ((cmd 1 24 ([0, 0] ++ le 2 64 ++ le 4 1000 ++ le 4 100 ++ le 4 50 ++ le 4 1000))).u8 0 == 1, falling := bit (((cmd 1 24 ([0, 0] ++ le 2 64 ++ le 4 1000 ++ le 4 100 ++ le 4 50 ++ le 4 1000))).u8 1) 1, linkTrack := bit (((cmd 1 24 ([0, 0] ++ le 2 64 ++ le 4 1000 ++ le 4 100 ++ le 4 50 ++ le 4 1000))).u8 1) 2, tc := ((cmd 1 24 ([0, 0] ++ le 2 64 ++ le 4 1000 ++ le 4 100 ++ le 4 50 ++ le 4 1000))).u16 2, stepMax := ((cmd 1 24 ([0, 0] ++ le 2 64 ++ le 4 1000 ++ le 4 100 ++ le 4 50 ++ le 4 1000))).u32 4, lockWin := ((cmd 1 24 ([0, 0] ++ le 2 64 ++ le 4 1000 ++ le 4 100 ++ le 4 50 ++ le 4 1000))).u32 8, holdRate := ((cmd 1 24 ([0, 0] ++ le 2 64 ++ le 4 1000 ++ le 4 100 ++ le 4 50 ++ le 4 1000))).u32 12, accLim := ((cmd 1 24 ([0, 0] ++ le 2 64 ++ le 4 1000 ++ le 4 100 ++ le 4 50 ++ le 4 1000))).u32 16, ppsComp := ((cmd 1 24 ([0, 0] ++ le 2 64 ++ le 4 1000 ++ le 4 100 ++ le 4 50 ++ le 4 1000))).s32 20 } : DiscCfg).stepMax ≤ 999999999) ∧ (10 ≤ ({ mode := ((cmd 1 24 ([0, 0] ++ le 2 64 ++ le 4 1000 ++ le 4 100 ++ le 4 50 ++ le 4 1000))).u8 0 == 1, falling := bit (((cmd 1 24 ([0, 0] ++ le 2 64 ++ le 4 1000 ++ le 4 100 ++ le 4 50 ++ le 4 1000))).u8 1) 1, linkTrack := bit (((cmd 1 24 ([0, 0] ++ le 2 64 ++ le 4 1000 ++ le 4 100 ++ le 4 50 ++ le 4 1000))).u8 1) 2, tc := ((cmd 1 24 ([0, 0] ++ le 2 64 ++ le 4 1000 ++ le 4 100 ++ le 4 50 ++ le 4 1000))).u16 2, stepMax := ((cmd 1 24 ([0, 0] ++ le 2 64 ++ le 4 1000 ++ le 4 100 ++ le 4 50 ++ le 4 1000))).u32 4, lockWin := ((cmd 1 24 ([0, 0] ++ le 2 64 ++ le 4 1000 ++ le 4 100 ++ le 4 50 ++ le 4 1000))).u32 8, holdRate := ((cmd 1 24 ([0, 0] ++ le 2 64 ++ le 4 1000 ++ le 4 100 ++ le 4 50 ++ le 4 1000))).u32 12, accLim := ((cmd 1 24 ([0, 0] ++ le 2 64 ++ le 4 1000 ++ le 4 100 ++ le 4 50 ++ le 4 1000))).u32 16, ppsComp := ((cmd 1 24 ([0, 0] ++ le 2 64 ++ le 4 1000 ++ le 4 100 ++ le 4 50 ++ le 4 1000))).s32 20 } : DiscCfg).lockWin) ∧ (({ mode := ((cmd 1 24 ([0, 0] ++ le 2 64 ++ le 4 1000 ++ le 4 100 ++ le 4 50 ++ le 4 1000))).u8 0 == 1, falling := bit (((cmd 1 24 ([0, 0] ++ le 2 64 ++ le 4 1000 ++ le 4 100 ++ le 4 50 ++ le 4 1000))).u8 1) 1, linkTrack := bit (((cmd 1 24 ([0, 0] ++ le 2 64 ++ le 4 1000 ++ le 4 100 ++ le 4 50 ++ le 4 1000))).u8 1) 2, tc := ((cmd 1 24 ([0, 0] ++ le 2 64 ++ le 4 1000 ++ le 4 100 ++ le 4 50 ++ le 4 1000))).u16 2, stepMax := ((cmd 1 24 ([0, 0] ++ le 2 64 ++ le 4 1000 ++ le 4 100 ++ le 4 50 ++ le 4 1000))).u32 4, lockWin := ((cmd 1 24 ([0, 0] ++ le 2 64 ++ le 4 1000 ++ le 4 100 ++ le 4 50 ++ le 4 1000))).u32 8, holdRate := ((cmd 1 24 ([0, 0] ++ le 2 64 ++ le 4 1000 ++ le 4 100 ++ le 4 50 ++ le 4 1000))).u32 12, accLim := ((cmd 1 24 ([0, 0] ++ le 2 64 ++ le 4 1000 ++ le 4 100 ++ le 4 50 ++ le 4 1000))).u32 16, ppsComp := ((cmd 1 24 ([0, 0] ++ le 2 64 ++ le 4 1000 ++ le 4 100 ++ le 4 50 ++ le 4 1000))).s32 20 } : DiscCfg).lockWin ≤ 100000) ∧ (1 ≤ ({ mode := ((cmd 1 24 ([0, 0] ++ le 2 64 ++ le 4 1000 ++ le 4 100 ++ le 4 50 ++ le 4 1000))).u8 0 == 1, falling := bit (((cmd 1 24 ([0, 0] ++ le 2 64 ++ le 4 1000 ++ le 4 100 ++ le 4 50 ++ le 4 1000))).u8 1) 1, linkTrack := bit (((cmd 1 24 ([0, 0] ++ le 2 64 ++ le 4 1000 ++ le 4 100 ++ le 4 50 ++ le 4 1000))).u8 1) 2, tc := ((cmd 1 24 ([0, 0] ++ le 2 64 ++ le 4 1000 ++ le 4 100 ++ le 4 50 ++ le 4 1000))).u16 2, stepMax := ((cmd 1 24 ([0, 0] ++ le 2 64 ++ le 4 1000 ++ le 4 100 ++ le 4 50 ++ le 4 1000))).u32 4, lockWin := ((cmd 1 24 ([0, 0] ++ le 2 64 ++ le 4 1000 ++ le 4 100 ++ le 4 50 ++ le 4 1000))).u32 8, holdRate := ((cmd 1 24 ([0, 0] ++ le 2 64 ++ le 4 1000 ++ le 4 100 ++ le 4 50 ++ le 4 1000))).u32 12, accLim := ((cmd 1 24 ([0, 0] ++ le 2 64 ++ le 4 1000 ++ le 4 100 ++ le 4 50 ++ le 4 1000))).u32 16, ppsComp := ((cmd 1 24 ([0, 0] ++ le 2 64 ++ le 4 1000 ++ le 4 100 ++ le 4 50 ++ le 4 1000))).s32 20 } : DiscCfg).holdRate) ∧ (({ mode := ((cmd 1 24 ([0, 0] ++ le 2 64 ++ le 4 1000 ++ le 4 100 ++ le 4 50 ++ le 4 1000))).u8 0 == 1, falling := bit (((cmd 1 24 ([0, 0] ++ le 2 64 ++ le 4 1000 ++ le 4 100 ++ le 4 50 ++ le 4 1000))).u8 1) 1, linkTrack := bit (((cmd 1 24 ([0, 0] ++ le 2 64 ++ le 4 1000 ++ le 4 100 ++ le 4 50 ++ le 4 1000))).u8 1) 2, tc := ((cmd 1 24 ([0, 0] ++ le 2 64 ++ le 4 1000 ++ le 4 100 ++ le 4 50 ++ le 4 1000))).u16 2, stepMax := ((cmd 1 24 ([0, 0] ++ le 2 64 ++ le 4 1000 ++ le 4 100 ++ le 4 50 ++ le 4 1000))).u32 4, lockWin := ((cmd 1 24 ([0, 0] ++ le 2 64 ++ le 4 1000 ++ le 4 100 ++ le 4 50 ++ le 4 1000))).u32 8, holdRate := ((cmd 1 24 ([0, 0] ++ le 2 64 ++ le 4 1000 ++ le 4 100 ++ le 4 50 ++ le 4 1000))).u32 12, accLim := ((cmd 1 24 ([0, 0] ++ le 2 64 ++ le 4 1000 ++ le 4 100 ++ le 4 50 ++ le 4 1000))).u32 16, ppsComp := ((cmd 1 24 ([0, 0] ++ le 2 64 ++ le 4 1000 ++ le 4 100 ++ le 4 50 ++ le 4 1000))).s32 20 } : DiscCfg).holdRate ≤ 100000) ∧ (100 ≤ ({ mode := ((cmd 1 24 ([0, 0] ++ le 2 64 ++ le 4 1000 ++ le 4 100 ++ le 4 50 ++ le 4 1000))).u8 0 == 1, falling := bit (((cmd 1 24 ([0, 0] ++ le 2 64 ++ le 4 1000 ++ le 4 100 ++ le 4 50 ++ le 4 1000))).u8 1) 1, linkTrack := bit (((cmd 1 24 ([0, 0] ++ le 2 64 ++ le 4 1000 ++ le 4 100 ++ le 4 50 ++ le 4 1000))).u8 1) 2, tc := ((cmd 1 24 ([0, 0] ++ le 2 64 ++ le 4 1000 ++ le 4 100 ++ le 4 50 ++ le 4 1000))).u16 2, stepMax := ((cmd 1 24 ([0, 0] ++ le 2 64 ++ le 4 1000 ++ le 4 100 ++ le 4 50 ++ le 4 1000))).u32 4, lockWin := ((cmd 1 24 ([0, 0] ++ le 2 64 ++ le 4 1000 ++ le 4 100 ++ le 4 50 ++ le 4 1000))).u32 8, holdRate := ((cmd 1 24 ([0, 0] ++ le 2 64 ++ le 4 1000 ++ le 4 100 ++ le 4 50 ++ le 4 1000))).u32 12, accLim := ((cmd 1 24 ([0, 0] ++ le 2 64 ++ le 4 1000 ++ le 4 100 ++ le 4 50 ++ le 4 1000))).u32 16, ppsComp := ((cmd 1 24 ([0, 0] ++ le 2 64 ++ le 4 1000 ++ le 4 100 ++ le 4 50 ++ le 4 1000))).s32 20 } : DiscCfg).accLim) ∧ (({ mode := ((cmd 1 24 ([0, 0] ++ le 2 64 ++ le 4 1000 ++ le 4 100 ++ le 4 50 ++ le 4 1000))).u8 0 == 1, falling := bit (((cmd 1 24 ([0, 0] ++ le 2 64 ++ le 4 1000 ++ le 4 100 ++ le 4 50 ++ le 4 1000))).u8 1) 1, linkTrack := bit (((cmd 1 24 ([0, 0] ++ le 2 64 ++ le 4 1000 ++ le 4 100 ++ le 4 50 ++ le 4 1000))).u8 1) 2, tc := ((cmd 1 24 ([0, 0] ++ le 2 64 ++ le 4 1000 ++ le 4 100 ++ le 4 50 ++ le 4 1000))).u16 2, stepMax := ((cmd 1 24 ([0, 0] ++ le 2 64 ++ le 4 1000 ++ le 4 100 ++ le 4 50 ++ le 4 1000))).u32 4, lockWin := ((cmd 1 24 ([0, 0] ++ le 2 64 ++ le 4 1000 ++ le 4 100 ++ le 4 50 ++ le 4 1000))).u32 8, holdRate := ((cmd 1 24 ([0, 0] ++ le 2 64 ++ le 4 1000 ++ le 4 100 ++ le 4 50 ++ le 4 1000))).u32 12, accLim := ((cmd 1 24 ([0, 0] ++ le 2 64 ++ le 4 1000 ++ le 4 100 ++ le 4 50 ++ le 4 1000))).u32 16, ppsComp := ((cmd 1 24 ([0, 0] ++ le 2 64 ++ le 4 1000 ++ le 4 100 ++ le 4 50 ++ le 4 1000))).s32 20 } : DiscCfg).accLim ≤ 1000000) ∧ (({ mode := ((cmd 1 24 ([0, 0] ++ le 2 64 ++ le 4 1000 ++ le 4 100 ++ le 4 50 ++ le 4 1000))).u8 0 == 1, falling := bit (((cmd 1 24 ([0, 0] ++ le 2 64 ++ le 4 1000 ++ le 4 100 ++ le 4 50 ++ le 4 1000))).u8 1) 1, linkTrack := bit (((cmd 1 24 ([0, 0] ++ le 2 64 ++ le 4 1000 ++ le 4 100 ++ le 4 50 ++ le 4 1000))).u8 1) 2, tc := ((cmd 1 24 ([0, 0] ++ le 2 64 ++ le 4 1000 ++ le 4 100 ++ le 4 50 ++ le 4 1000))).u16 2, stepMax := ((cmd 1 24 ([0, 0] ++ le 2 64 ++ le 4 1000 ++ le 4 100 ++ le 4 50 ++ le 4 1000))).u32 4, lockWin := ((cmd 1 24 ([0, 0] ++ le 2 64 ++ le 4 1000 ++ le 4 100 ++ le 4 50 ++ le 4 1000))).u32 8, holdRate := ((cmd 1 24 ([0, 0] ++ le 2 64 ++ le 4 1000 ++ le 4 100 ++ le 4 50 ++ le 4 1000))).u32 12, accLim := ((cmd 1 24 ([0, 0] ++ le 2 64 ++ le 4 1000 ++ le 4 100 ++ le 4 50 ++ le 4 1000))).u32 16, ppsComp := ((cmd 1 24 ([0, 0] ++ le 2 64 ++ le 4 1000 ++ le 4 100 ++ le 4 50 ++ le 4 1000))).s32 20 } : DiscCfg).ppsComp.natAbs ≤ 100000) ∧ (((cmd 1 24 ([0, 0] ++ le 2 64 ++ le 4 1000 ++ le 4 100 ++ le 4 50 ++ le 4 1000)) : Cmd).u8 0 = 0) ∧ ((((inState .config).onTime (fun t => { t with qual := .locked, dstate := .refusing })) : State).time.dstate = .refusing) ∧ ((requal (timeEvent 0x03 [word32 (theta8 ((inState .config).onTime (fun t => { t with qual := .locked, dstate := .refusing })).time.lastTheta), Config.openCode 0x1003 3] ((((inState .config).onTime (fun t => { t with qual := .locked, dstate := .refusing }))).onTime (fun t => { t with cfg := { mode := ((cmd 1 24 ([0, 0] ++ le 2 64 ++ le 4 1000 ++ le 4 100 ++ le 4 50 ++ le 4 1000))).u8 0 == 1, falling := bit (((cmd 1 24 ([0, 0] ++ le 2 64 ++ le 4 1000 ++ le 4 100 ++ le 4 50 ++ le 4 1000))).u8 1) 1, linkTrack := bit (((cmd 1 24 ([0, 0] ++ le 2 64 ++ le 4 1000 ++ le 4 100 ++ le 4 50 ++ le 4 1000))).u8 1) 2, tc := ((cmd 1 24 ([0, 0] ++ le 2 64 ++ le 4 1000 ++ le 4 100 ++ le 4 50 ++ le 4 1000))).u16 2, stepMax := ((cmd 1 24 ([0, 0] ++ le 2 64 ++ le 4 1000 ++ le 4 100 ++ le 4 50 ++ le 4 1000))).u32 4, lockWin := ((cmd 1 24 ([0, 0] ++ le 2 64 ++ le 4 1000 ++ le 4 100 ++ le 4 50 ++ le 4 1000))).u32 8, holdRate := ((cmd 1 24 ([0, 0] ++ le 2 64 ++ le 4 1000 ++ le 4 100 ++ le 4 50 ++ le 4 1000))).u32 12, accLim := ((cmd 1 24 ([0, 0] ++ le 2 64 ++ le 4 1000 ++ le 4 100 ++ le 4 50 ++ le 4 1000))).u32 16, ppsComp := ((cmd 1 24 ([0, 0] ++ le 2 64 ++ le 4 1000 ++ le 4 100 ++ le 4 50 ++ le 4 1000))).s32 20 }, dstate := .off, first := false, accept := false, refused := false, theta := none }))) : State) = requal (timeEvent 0x03 [word32 (theta8 (((inState .config).onTime (fun t => { t with qual := .locked, dstate := .refusing })) : State).time.lastTheta), Config.openCode 0x1003 3] ((((inState .config).onTime (fun t => { t with qual := .locked, dstate := .refusing })) : State).onTime (fun x => { x with cfg := ({ mode := ((cmd 1 24 ([0, 0] ++ le 2 64 ++ le 4 1000 ++ le 4 100 ++ le 4 50 ++ le 4 1000))).u8 0 == 1, falling := bit (((cmd 1 24 ([0, 0] ++ le 2 64 ++ le 4 1000 ++ le 4 100 ++ le 4 50 ++ le 4 1000))).u8 1) 1, linkTrack := bit (((cmd 1 24 ([0, 0] ++ le 2 64 ++ le 4 1000 ++ le 4 100 ++ le 4 50 ++ le 4 1000))).u8 1) 2, tc := ((cmd 1 24 ([0, 0] ++ le 2 64 ++ le 4 1000 ++ le 4 100 ++ le 4 50 ++ le 4 1000))).u16 2, stepMax := ((cmd 1 24 ([0, 0] ++ le 2 64 ++ le 4 1000 ++ le 4 100 ++ le 4 50 ++ le 4 1000))).u32 4, lockWin := ((cmd 1 24 ([0, 0] ++ le 2 64 ++ le 4 1000 ++ le 4 100 ++ le 4 50 ++ le 4 1000))).u32 8, holdRate := ((cmd 1 24 ([0, 0] ++ le 2 64 ++ le 4 1000 ++ le 4 100 ++ le 4 50 ++ le 4 1000))).u32 12, accLim := ((cmd 1 24 ([0, 0] ++ le 2 64 ++ le 4 1000 ++ le 4 100 ++ le 4 50 ++ le 4 1000))).u32 16, ppsComp := ((cmd 1 24 ([0, 0] ++ le 2 64 ++ le 4 1000 ++ le 4 100 ++ le 4 50 ++ le 4 1000))).s32 20 } : DiscCfg), dstate := .off, first := false, accept := false, refused := false, theta := none }))))) ∧
    (let c : Cmd := (cmd 1 24 ([1, 0] ++ le 2 64 ++ le 4 1000 ++ le 4 100 ++ le 4 50 ++ le 4 1000)); let s : State := ((inState .config).onTime (fun t => { t with qual := .locked, dstate := .locked })); let t : State := (((inState .config).onTime (fun t => { t with qual := .locked, dstate := .locked }))).onTime (fun t => { t with cfg := { mode := ((cmd 1 24 ([1, 0] ++ le 2 64 ++ le 4 1000 ++ le 4 100 ++ le 4 50 ++ le 4 1000))).u8 0 == 1, falling := bit (((cmd 1 24 ([1, 0] ++ le 2 64 ++ le 4 1000 ++ le 4 100 ++ le 4 50 ++ le 4 1000))).u8 1) 1, linkTrack := bit (((cmd 1 24 ([1, 0] ++ le 2 64 ++ le 4 1000 ++ le 4 100 ++ le 4 50 ++ le 4 1000))).u8 1) 2, tc := ((cmd 1 24 ([1, 0] ++ le 2 64 ++ le 4 1000 ++ le 4 100 ++ le 4 50 ++ le 4 1000))).u16 2, stepMax := ((cmd 1 24 ([1, 0] ++ le 2 64 ++ le 4 1000 ++ le 4 100 ++ le 4 50 ++ le 4 1000))).u32 4, lockWin := ((cmd 1 24 ([1, 0] ++ le 2 64 ++ le 4 1000 ++ le 4 100 ++ le 4 50 ++ le 4 1000))).u32 8, holdRate := ((cmd 1 24 ([1, 0] ++ le 2 64 ++ le 4 1000 ++ le 4 100 ++ le 4 50 ++ le 4 1000))).u32 12, accLim := ((cmd 1 24 ([1, 0] ++ le 2 64 ++ le 4 1000 ++ le 4 100 ++ le 4 50 ++ le 4 1000))).u32 16, ppsComp := ((cmd 1 24 ([1, 0] ++ le 2 64 ++ le 4 1000 ++ le 4 100 ++ le 4 50 ++ le 4 1000))).s32 20 } }); let k : DiscCfg := { mode := ((cmd 1 24 ([1, 0] ++ le 2 64 ++ le 4 1000 ++ le 4 100 ++ le 4 50 ++ le 4 1000))).u8 0 == 1, falling := bit (((cmd 1 24 ([1, 0] ++ le 2 64 ++ le 4 1000 ++ le 4 100 ++ le 4 50 ++ le 4 1000))).u8 1) 1, linkTrack := bit (((cmd 1 24 ([1, 0] ++ le 2 64 ++ le 4 1000 ++ le 4 100 ++ le 4 50 ++ le 4 1000))).u8 1) 2, tc := ((cmd 1 24 ([1, 0] ++ le 2 64 ++ le 4 1000 ++ le 4 100 ++ le 4 50 ++ le 4 1000))).u16 2, stepMax := ((cmd 1 24 ([1, 0] ++ le 2 64 ++ le 4 1000 ++ le 4 100 ++ le 4 50 ++ le 4 1000))).u32 4, lockWin := ((cmd 1 24 ([1, 0] ++ le 2 64 ++ le 4 1000 ++ le 4 100 ++ le 4 50 ++ le 4 1000))).u32 8, holdRate := ((cmd 1 24 ([1, 0] ++ le 2 64 ++ le 4 1000 ++ le 4 100 ++ le 4 50 ++ le 4 1000))).u32 12, accLim := ((cmd 1 24 ([1, 0] ++ le 2 64 ++ le 4 1000 ++ le 4 100 ++ le 4 50 ++ le 4 1000))).u32 16, ppsComp := ((cmd 1 24 ([1, 0] ++ le 2 64 ++ le 4 1000 ++ le 4 100 ++ le 4 50 ++ le 4 1000))).s32 20 }; k = { mode := c.u8 0 == 1, falling := bit (c.u8 1) 1, linkTrack := bit (c.u8 1) 2, tc := c.u16 2, stepMax := c.u32 4, lockWin := c.u32 8, holdRate := c.u32 12, accLim := c.u32 16, ppsComp := c.s32 20 } ∧ Serving s ∧ c.mb ≠ 0 ∧ Inline c 24 ∧ c.u8 0 < 2 ∧ c.u8 1 < 8 ∧ 8 ≤ k.tc ∧ k.tc ≤ 1024 ∧ 100 ≤ k.stepMax ∧ k.stepMax ≤ 999999999 ∧ 10 ≤ k.lockWin ∧ k.lockWin ≤ 100000 ∧ 1 ≤ k.holdRate ∧ k.holdRate ≤ 100000 ∧ 100 ≤ k.accLim ∧ k.accLim ≤ 1000000 ∧ k.ppsComp.natAbs ≤ 100000 ∧ c.u8 0 = 1 ∧ timeUnset s = false ∧ s.time.dstate = .locked ∧ t = s.onTime (fun x => { x with cfg := k })) ∧
    (let c : Cmd := (cmd 1 24 ([1, 1] ++ le 2 64 ++ le 4 1000 ++ le 4 100 ++ le 4 50 ++ le 4 1000)); let s : State := ((inState .config).onTime (fun t => { t with qual := .locked, dstate := .refusing })); let t : State := requal ((((inState .config).onTime (fun t => { t with qual := .locked, dstate := .refusing }))).onTime (fun t => { t with cfg := { mode := ((cmd 1 24 ([1, 1] ++ le 2 64 ++ le 4 1000 ++ le 4 100 ++ le 4 50 ++ le 4 1000))).u8 0 == 1, falling := bit (((cmd 1 24 ([1, 1] ++ le 2 64 ++ le 4 1000 ++ le 4 100 ++ le 4 50 ++ le 4 1000))).u8 1) 1, linkTrack := bit (((cmd 1 24 ([1, 1] ++ le 2 64 ++ le 4 1000 ++ le 4 100 ++ le 4 50 ++ le 4 1000))).u8 1) 2, tc := ((cmd 1 24 ([1, 1] ++ le 2 64 ++ le 4 1000 ++ le 4 100 ++ le 4 50 ++ le 4 1000))).u16 2, stepMax := ((cmd 1 24 ([1, 1] ++ le 2 64 ++ le 4 1000 ++ le 4 100 ++ le 4 50 ++ le 4 1000))).u32 4, lockWin := ((cmd 1 24 ([1, 1] ++ le 2 64 ++ le 4 1000 ++ le 4 100 ++ le 4 50 ++ le 4 1000))).u32 8, holdRate := ((cmd 1 24 ([1, 1] ++ le 2 64 ++ le 4 1000 ++ le 4 100 ++ le 4 50 ++ le 4 1000))).u32 12, accLim := ((cmd 1 24 ([1, 1] ++ le 2 64 ++ le 4 1000 ++ le 4 100 ++ le 4 50 ++ le 4 1000))).u32 16, ppsComp := ((cmd 1 24 ([1, 1] ++ le 2 64 ++ le 4 1000 ++ le 4 100 ++ le 4 50 ++ le 4 1000))).s32 20 }, first := true, accept := true })); let k : DiscCfg := { mode := ((cmd 1 24 ([1, 1] ++ le 2 64 ++ le 4 1000 ++ le 4 100 ++ le 4 50 ++ le 4 1000))).u8 0 == 1, falling := bit (((cmd 1 24 ([1, 1] ++ le 2 64 ++ le 4 1000 ++ le 4 100 ++ le 4 50 ++ le 4 1000))).u8 1) 1, linkTrack := bit (((cmd 1 24 ([1, 1] ++ le 2 64 ++ le 4 1000 ++ le 4 100 ++ le 4 50 ++ le 4 1000))).u8 1) 2, tc := ((cmd 1 24 ([1, 1] ++ le 2 64 ++ le 4 1000 ++ le 4 100 ++ le 4 50 ++ le 4 1000))).u16 2, stepMax := ((cmd 1 24 ([1, 1] ++ le 2 64 ++ le 4 1000 ++ le 4 100 ++ le 4 50 ++ le 4 1000))).u32 4, lockWin := ((cmd 1 24 ([1, 1] ++ le 2 64 ++ le 4 1000 ++ le 4 100 ++ le 4 50 ++ le 4 1000))).u32 8, holdRate := ((cmd 1 24 ([1, 1] ++ le 2 64 ++ le 4 1000 ++ le 4 100 ++ le 4 50 ++ le 4 1000))).u32 12, accLim := ((cmd 1 24 ([1, 1] ++ le 2 64 ++ le 4 1000 ++ le 4 100 ++ le 4 50 ++ le 4 1000))).u32 16, ppsComp := ((cmd 1 24 ([1, 1] ++ le 2 64 ++ le 4 1000 ++ le 4 100 ++ le 4 50 ++ le 4 1000))).s32 20 }; k = { mode := c.u8 0 == 1, falling := bit (c.u8 1) 1, linkTrack := bit (c.u8 1) 2, tc := c.u16 2, stepMax := c.u32 4, lockWin := c.u32 8, holdRate := c.u32 12, accLim := c.u32 16, ppsComp := c.s32 20 } ∧ Serving s ∧ c.mb ≠ 0 ∧ Inline c 24 ∧ c.u8 0 < 2 ∧ c.u8 1 < 8 ∧ 8 ≤ k.tc ∧ k.tc ≤ 1024 ∧ 100 ≤ k.stepMax ∧ k.stepMax ≤ 999999999 ∧ 10 ≤ k.lockWin ∧ k.lockWin ≤ 100000 ∧ 1 ≤ k.holdRate ∧ k.holdRate ≤ 100000 ∧ 100 ≤ k.accLim ∧ k.accLim ≤ 1000000 ∧ k.ppsComp.natAbs ≤ 100000 ∧ c.u8 0 = 1 ∧ timeUnset s = false ∧ bit (c.u8 1) 0 = true ∧ s.time.dstate = .refusing ∧ t = requal (s.onTime (fun x => { x with cfg := k, first := true, accept := true }))) ∧
    (let c : Cmd := (cmd 1 24 ([1, 0] ++ le 2 64 ++ le 4 1000 ++ le 4 100 ++ le 4 50 ++ le 4 1000)); let s : State := ((inState .config).onTime (fun t => { t with qual := .locked, dstate := .acquire })); let t : State := requal ((((inState .config).onTime (fun t => { t with qual := .locked, dstate := .acquire }))).onTime (fun t => { t with cfg := { mode := ((cmd 1 24 ([1, 0] ++ le 2 64 ++ le 4 1000 ++ le 4 100 ++ le 4 50 ++ le 4 1000))).u8 0 == 1, falling := bit (((cmd 1 24 ([1, 0] ++ le 2 64 ++ le 4 1000 ++ le 4 100 ++ le 4 50 ++ le 4 1000))).u8 1) 1, linkTrack := bit (((cmd 1 24 ([1, 0] ++ le 2 64 ++ le 4 1000 ++ le 4 100 ++ le 4 50 ++ le 4 1000))).u8 1) 2, tc := ((cmd 1 24 ([1, 0] ++ le 2 64 ++ le 4 1000 ++ le 4 100 ++ le 4 50 ++ le 4 1000))).u16 2, stepMax := ((cmd 1 24 ([1, 0] ++ le 2 64 ++ le 4 1000 ++ le 4 100 ++ le 4 50 ++ le 4 1000))).u32 4, lockWin := ((cmd 1 24 ([1, 0] ++ le 2 64 ++ le 4 1000 ++ le 4 100 ++ le 4 50 ++ le 4 1000))).u32 8, holdRate := ((cmd 1 24 ([1, 0] ++ le 2 64 ++ le 4 1000 ++ le 4 100 ++ le 4 50 ++ le 4 1000))).u32 12, accLim := ((cmd 1 24 ([1, 0] ++ le 2 64 ++ le 4 1000 ++ le 4 100 ++ le 4 50 ++ le 4 1000))).u32 16, ppsComp := ((cmd 1 24 ([1, 0] ++ le 2 64 ++ le 4 1000 ++ le 4 100 ++ le 4 50 ++ le 4 1000))).s32 20 } })); let k : DiscCfg := { mode := ((cmd 1 24 ([1, 0] ++ le 2 64 ++ le 4 1000 ++ le 4 100 ++ le 4 50 ++ le 4 1000))).u8 0 == 1, falling := bit (((cmd 1 24 ([1, 0] ++ le 2 64 ++ le 4 1000 ++ le 4 100 ++ le 4 50 ++ le 4 1000))).u8 1) 1, linkTrack := bit (((cmd 1 24 ([1, 0] ++ le 2 64 ++ le 4 1000 ++ le 4 100 ++ le 4 50 ++ le 4 1000))).u8 1) 2, tc := ((cmd 1 24 ([1, 0] ++ le 2 64 ++ le 4 1000 ++ le 4 100 ++ le 4 50 ++ le 4 1000))).u16 2, stepMax := ((cmd 1 24 ([1, 0] ++ le 2 64 ++ le 4 1000 ++ le 4 100 ++ le 4 50 ++ le 4 1000))).u32 4, lockWin := ((cmd 1 24 ([1, 0] ++ le 2 64 ++ le 4 1000 ++ le 4 100 ++ le 4 50 ++ le 4 1000))).u32 8, holdRate := ((cmd 1 24 ([1, 0] ++ le 2 64 ++ le 4 1000 ++ le 4 100 ++ le 4 50 ++ le 4 1000))).u32 12, accLim := ((cmd 1 24 ([1, 0] ++ le 2 64 ++ le 4 1000 ++ le 4 100 ++ le 4 50 ++ le 4 1000))).u32 16, ppsComp := ((cmd 1 24 ([1, 0] ++ le 2 64 ++ le 4 1000 ++ le 4 100 ++ le 4 50 ++ le 4 1000))).s32 20 }; k = { mode := c.u8 0 == 1, falling := bit (c.u8 1) 1, linkTrack := bit (c.u8 1) 2, tc := c.u16 2, stepMax := c.u32 4, lockWin := c.u32 8, holdRate := c.u32 12, accLim := c.u32 16, ppsComp := c.s32 20 } ∧ Serving s ∧ c.mb ≠ 0 ∧ Inline c 24 ∧ c.u8 0 < 2 ∧ c.u8 1 < 8 ∧ 8 ≤ k.tc ∧ k.tc ≤ 1024 ∧ 100 ≤ k.stepMax ∧ k.stepMax ≤ 999999999 ∧ 10 ≤ k.lockWin ∧ k.lockWin ≤ 100000 ∧ 1 ≤ k.holdRate ∧ k.holdRate ≤ 100000 ∧ 100 ≤ k.accLim ∧ k.accLim ≤ 1000000 ∧ k.ppsComp.natAbs ≤ 100000 ∧ c.u8 0 = 1 ∧ timeUnset s = false ∧ s.time.dstate ≠ .locked ∧ (s.time.dstate ≠ .off ∨ followsTime s = true) ∧ (bit (c.u8 1) 0 = false ∨ s.time.dstate ≠ .refusing) ∧ t = requal (s.onTime (fun x => { x with cfg := k }))) ∧
    (let c : Cmd := cmd 1 16 ([4, 1, 5, 0] ++ le 4 1000); let s : State := inState .config; let k : TOutCfg := { on := bit ((cmd 1 16 ([4, 1, 5, 0] ++ le 4 1000)).u8 1) 0, invert := bit ((cmd 1 16 ([4, 1, 5, 0] ++ le 4 1000)).u8 1) 1, runFree := bit ((cmd 1 16 ([4, 1, 5, 0] ++ le 4 1000)).u8 1) 2, suppress := bit ((cmd 1 16 ([4, 1, 5, 0] ++ le 4 1000)).u8 1) 3, rate := (cmd 1 16 ([4, 1, 5, 0] ++ le 4 1000)).u8 2, width := (cmd 1 16 ([4, 1, 5, 0] ++ le 4 1000)).u32 4, offset := (cmd 1 16 ([4, 1, 5, 0] ++ le 4 1000)).s32 8, localMin := (cmd 1 16 ([4, 1, 5, 0] ++ le 4 1000)).s16 12 }; k = { on := bit (c.u8 1) 0, invert := bit (c.u8 1) 1, runFree := bit (c.u8 1) 2, suppress := bit (c.u8 1) 3, rate := c.u8 2, width := c.u32 4, offset := c.s32 8, localMin := c.s16 12 } ∧ Serving s ∧ c.mb ≠ 0 ∧ Inline c 16 ∧ c.u8 0 < 5 ∧ c.u8 1 < 16 ∧ ((c.u8 0 = 4 ∧ 4 ≤ k.rate ∧ k.rate ≤ 7) ∨ (c.u8 0 ≠ 4 ∧ k.rate < 4)) ∧ 100 ≤ k.width ∧ k.width ≤ outPeriod (c.u8 0) k.rate / 2 ∧ k.offset.natAbs ≤ 1000000 ∧ -720 ≤ k.localMin ∧ k.localMin ≤ 840 ∧ k.localMin % 15 = 0 ∧ c.rsv 3 1 = true ∧ c.rsv 14 2 = true) ∧
    (let c : Cmd := cmd 1 8 [7, 3]; let s : State := inState .config; let k : StampCfg := { on := bit ((cmd 1 8 [7, 3]).u8 1) 0, rise := bit ((cmd 1 8 [7, 3]).u8 1) 1, fall := bit ((cmd 1 8 [7, 3]).u8 1) 2, filter := (cmd 1 8 [7, 3]).u16 2, comp := (cmd 1 8 [7, 3]).s32 4 }; k = { on := bit (c.u8 1) 0, rise := bit (c.u8 1) 1, fall := bit (c.u8 1) 2, filter := c.u16 2, comp := c.s32 4 } ∧ Serving s ∧ c.mb ≠ 0 ∧ Inline c 8 ∧ c.u8 0 < 32 ∧ c.u8 1 < 8 ∧ k.filter ≤ 1000 ∧ k.comp.natAbs ≤ 100000) ∧
    (let c : Cmd := cmd 1 12 [1, 1, 0, 0, 0, 0, 1]; let s : State := ethOn; let b : Nat := 1; (b = (if bit (c.u8 1) 0 = false ∨ portUp s (c.u8 0) = false then 0 else if (ptpGet s (c.u8 0)).on then (ptpGet s (c.u8 0)).state else 1)) ∧ Serving s ∧ c.mb ≠ 0 ∧ Inline c 12 ∧ c.u8 0 < 4 ∧ c.u8 1 < 8 ∧ 1 ≤ c.u16 6 ∧ c.u16 6 ≤ 4094 ∧ c.u8 8 < 8 ∧ c.rsv 9 3 = true ∧ (ethCfg s (c.u8 0)).on = true) ∧
    (let c : Cmd := cmd 1 12 [1, 1, 0, 0, 0, 0, 1]; let s : State := inState .config; Serving s ∧ c.mb ≠ 0 ∧ Inline c 12 ∧ c.u8 0 < 4 ∧ c.u8 1 < 8 ∧ 1 ≤ c.u16 6 ∧ c.u16 6 ≤ 4094 ∧ c.u8 8 < 8 ∧ c.rsv 9 3 = true ∧ (ethCfg s (c.u8 0)).on = false) ∧
    (let c : Cmd := cmd 1 12 []; let s : State := inState .config; Serving s ∧ c.mb ≠ 0 ∧ Inline c 12 ∧ (c.u8 0 = 0 ∨ (c.u8 0 = 1 ∧ c.u64 4 = 0)) ∧ c.rsv 1 3 = true ∧ c.u64 4 % 64 = 0) ∧
    (let c : Cmd := cmd 1 12 [1, 0, 0, 0, 64]; let s : State := inState .config; let n : Nat := 0; n = min 1024 s.time.stamps.length ∧ Serving s ∧ c.mb ≠ 0 ∧ Inline c 12 ∧ c.u8 0 = 1 ∧ c.rsv 1 3 = true ∧ c.u64 4 % 64 = 0 ∧ c.u64 4 ≠ 0) := by
  iterate 2 refine And.intro (by and_intros <;> first | rfl | decide) ?_
  iterate 7 refine And.intro (by intros; decide +kernel +zetaReduce) ?_
  refine And.intro (by and_intros <;> first | rfl | decide) ?_
  iterate 8 refine And.intro (by intros; decide +kernel +zetaReduce) ?_
  intros; decide +kernel +zetaReduce

set_option maxRecDepth 20000 in
/-- States and operands that meet the hypotheses of TimeEventsDisciplineAndShowTime, clause by clause. -/
theorem test_witness_TimeEventsDisciplineAndShowTime :
    (let b : Bool := false; let s : State := inState .config; (b = s.time.cfg.falling ∨ s.time.started = false)) ∧
    (let b : Bool := true; let s : State := (inState .config).onTime (fun t => { t with started := true, ppsOk := true }); s.time.cfg.falling = !b ∧ s.time.started = true ∧ s.time.ppsOk = true ∧ s.time.cfg.mode = false) ∧
    (let b : Bool := true; let s : State := started (inState .config); s.time.cfg.falling = !b ∧ s.time.started = true ∧ s.time.ppsOk = false ∧ s.time.cfg.mode = false) ∧
    (let b : Bool := true; let n : Nat := 80; let a : Int := 80; let s : State := disciplined; s.time.cfg.falling = !b ∧ s.time.started = true ∧ s.time.ppsOk = true ∧ s.time.cfg.mode = true ∧ a = (stationAt s (n * 2 ^ 29 : Nat) / 2 ^ 29 : Nat) - 8 * s.time.cfg.ppsComp) ∧
    (let b : Bool := true; let n : Nat := 80; let a : Int := 80; let s : State := disciplined.onTime (fun t => { t with ppsOk := false }); s.time.cfg.falling = !b ∧ s.time.started = true ∧ s.time.ppsOk = false ∧ s.time.cfg.mode = true ∧ a = (stationAt s (n * 2 ^ 29 : Nat) / 2 ^ 29 : Nat) - 8 * s.time.cfg.ppsComp) ∧
    (let s : State := inState .config; s.time.theta = none) ∧
    (let x : Int := 8; let s : State := (inState .config).onTime (fun t => { t with theta := some 8 }); s.time.theta = some x ∧ s.time.cfg.mode = false) ∧
    (let x : Int := 8; let s : State := disciplined.onTime (fun t => { t with theta := some 8, first := true }); s.time.theta = some x ∧ s.time.cfg.mode = true ∧ s.time.first = true ∧ s.time.accept = false ∧ x.natAbs ≤ 8 * s.time.cfg.lockWin) ∧
    (let x : Int := 80000; let s : State := disciplined.onTime (fun t => { t with theta := some 80000, first := true }); s.time.theta = some x ∧ s.time.cfg.mode = true ∧ s.time.first = true ∧ s.time.accept = false ∧ 8 * s.time.cfg.lockWin < x.natAbs) ∧
    (((disciplined.onTime (fun t => { t with theta := some 8, first := true, accept := true }) : State).time.theta = some (8 : Int)) ∧ ((disciplined.onTime (fun t => { t with theta := some 8, first := true, accept := true }) : State).time.cfg.mode = true) ∧ ((disciplined.onTime (fun t => { t with theta := some 8, first := true, accept := true }) : State).time.first = true) ∧ ((disciplined.onTime (fun t => { t with theta := some 8, first := true, accept := true }) : State).time.accept = true) ∧ ((8 : Int).natAbs ≤ 8 * (disciplined.onTime (fun t => { t with theta := some 8, first := true, accept := true }) : State).time.cfg.lockWin) ∧ (((timeEvent 0x03 [word32 (theta8 8), Config.openCode 0x1003 2] ((disciplined.onTime (fun t => { t with theta := some 8, first := true, accept := true })).onTime (fun t => { t with theta := none }))).onTime (fun t => { t with refused := false }) : State) = (timeEvent 0x03 [word32 (theta8 (8 : Int)), Config.openCode 0x1003 2] ((disciplined.onTime (fun t => { t with theta := some 8, first := true, accept := true }) : State).onTime (fun t => { t with theta := none }))).onTime (fun t => { t with refused := false }))) ∧
    (((disciplined.onTime (fun t => { t with theta := some 80000, first := true, accept := true }) : State).time.theta = some (80000 : Int)) ∧ ((disciplined.onTime (fun t => { t with theta := some 80000, first := true, accept := true }) : State).time.cfg.mode = true) ∧ ((disciplined.onTime (fun t => { t with theta := some 80000, first := true, accept := true }) : State).time.first = true) ∧ ((disciplined.onTime (fun t => { t with theta := some 80000, first := true, accept := true }) : State).time.accept = true) ∧ (8 * (disciplined.onTime (fun t => { t with theta := some 80000, first := true, accept := true }) : State).time.cfg.lockWin < (80000 : Int).natAbs) ∧ (((timeEvent 0x03 [word32 (theta8 80000), Config.openCode 0x1003 2] ((disciplined.onTime (fun t => { t with theta := some 80000, first := true, accept := true })).onTime (fun t => { t with theta := none }))).onTime (fun t => { t with refused := false }) : State) = (timeEvent 0x03 [word32 (theta8 (80000 : Int)), Config.openCode 0x1003 2] ((disciplined.onTime (fun t => { t with theta := some 80000, first := true, accept := true }) : State).onTime (fun t => { t with theta := none }))).onTime (fun t => { t with refused := false }))) ∧
    (let x : Int := 8; let s : State := disciplined.onTime (fun t => { t with theta := some 8, dstate := .acquire }); s.time.theta = some x ∧ s.time.cfg.mode = true ∧ s.time.first = false ∧ x.natAbs ≤ 8 * s.time.cfg.stepMax ∧ s.time.dstate ≠ .refusing) ∧
    (let x : Int := 80000; let l : List Int := [80000]; let s : State := disciplined.onTime (fun t => { t with theta := some 80000, dstate := .acquire }); s.time.theta = some x ∧ s.time.cfg.mode = true ∧ s.time.first = false ∧ 8 * s.time.cfg.stepMax < x.natAbs ∧ l = (x :: s.time.outs).take 3 ∧ (s.time.dstate = .refusing ∨ agree3 l = false)) ∧
    (let x : Int := 80000; let l : List Int := [80000, 80000, 80000]; let s : State := disciplined.onTime (fun t => { t with theta := some 80000, dstate := .acquire, outs := [80000, 80000] }); s.time.theta = some x ∧ s.time.cfg.mode = true ∧ s.time.first = false ∧ 8 * s.time.cfg.stepMax < x.natAbs ∧ l = (x :: s.time.outs).take 3 ∧ s.time.dstate ≠ .refusing ∧ agree3 l = true) ∧
    (let x : Int := 8; let s : State := disciplined.onTime (fun t => { t with theta := some 8, dstate := .refusing }); s.time.theta = some x ∧ s.time.cfg.mode = true ∧ s.time.first = false ∧ x.natAbs ≤ 8 * s.time.cfg.stepMax ∧ s.time.dstate = .refusing ∧ s.time.goodRun < 2) ∧
    (let x : Int := 8; let s : State := disciplined.onTime (fun t => { t with theta := some 8, dstate := .refusing, goodRun := 2 }); s.time.theta = some x ∧ s.time.cfg.mode = true ∧ s.time.first = false ∧ x.natAbs ≤ 8 * s.time.cfg.stepMax ∧ s.time.dstate = .refusing ∧ 2 ≤ s.time.goodRun) ∧
    (let s : State := disciplined.onTime (fun t => { t with dstate := .locked }); s.time.ppsOk = true ∧ (s.time.dstate = .locked ∨ s.time.dstate = .acquire)) ∧
    (let s : State := disciplined; s.time.ppsOk = true ∧ s.time.dstate ≠ .locked ∧ s.time.dstate ≠ .acquire) ∧
    (let s : State := inState .config; s.time.ppsOk = false) ∧
    (let n : Nat := 625000; let i : Nat := 8589934592; let s : State := disciplined; s.time.cfg.linkTrack = true ∧ s.time.started = true ∧ s.power.straps.trefsel = true ∧ i = (roundDiv ((n * 8 * 2 ^ 32 : Nat) : Int) 2500000).toNat ∧ 0x1FFF2E48F ≤ i ∧ i ≤ 0x2000D1B71) ∧
    (let n : Nat := 0; let i : Nat := 0; let s : State := disciplined; s.time.cfg.linkTrack = true ∧ s.time.started = true ∧ s.power.straps.trefsel = true ∧ i = (roundDiv ((n * 8 * 2 ^ 32 : Nat) : Int) 2500000).toNat ∧ (i < 0x1FFF2E48F ∨ 0x2000D1B71 < i)) ∧
    (let s : State := started (inState .config); s.time.cfg.linkTrack = true ∧ s.time.started = true ∧ s.power.straps.trefsel = false) ∧
    (let s : State := (inState .config).onTime (fun t => { t with cfg := { t.cfg with linkTrack := false } }); (s.time.cfg.linkTrack = false ∨ s.time.started = false)) ∧
    (let s : State := disciplined; timeUnset s = false) ∧
    (let s : State := inState .config; timeUnset s = true) ∧
    (let d : Int := 1; let n : Nat := 5; let s : State := (inState .config).onTime (fun t => { t with leap := some (1, 5) }); s.time.leap = some (d, n)) ∧
    (let s : State := inState .config; s.time.leap = none) ∧
    (let o : Fin 4 := 1; let n : Nat := 0; let s : State := outOn; outMay s o = true ∧ tget 0 s.time.servedN o ≤ edgeAt s o n) ∧
    (let o : Fin 4 := 1; let n : Nat := 0; let s : State := inState .config; (outMay s o = false ∨ edgeAt s o n < tget 0 s.time.servedN o)) ∧
    (let n : Nat := 9; let k : TOutCfg := { on := true, rate := 7 }; let v : Int × Bool × Bool := (0, false, false); let s : State := irigOn; k = tget {} s.time.outs16 4 ∧ v = leapView s n ∧ outMay s 4 = true ∧ tget 0 s.time.servedN 4 ≤ edgeAt s 4 n) ∧
    (let n : Nat := 9; let s : State := inState .config; (outMay s 4 = false ∨ edgeAt s 4 n < tget 0 s.time.servedN 4)) ∧
    (let i : Fin 32 := 3; let b : Bool := true; let h : Bool := true; let k : StampCfg := { on := true, rise := true }; let s : State := stampOn; k = tget {} s.time.stampCfg i ∧ k.on = true ∧ (if b then k.rise else k.fall) = true ∧ s.time.started = true ∧ (h = true ∨ k.filter = 0)) ∧
    (let i : Fin 32 := 3; let b : Bool := true; let k : StampCfg := { on := true, rise := true, filter := 5 }; let s : State := stampOn.onTime (fun t => { t with stampCfg := [(3, { on := true, rise := true, filter := 5 })] }); k = tget {} s.time.stampCfg i ∧ k.on = true ∧ (if b then k.rise else k.fall) = true ∧ s.time.started = true ∧ k.filter ≠ 0) ∧
    (let i : Fin 32 := 3; let b : Bool := true; let k : StampCfg := {}; let s : State := inState .config; k = tget {} s.time.stampCfg i ∧ (k.on = false ∨ (if b then k.rise else k.fall) = false ∨ s.time.started = false)) ∧
    (let p : Fin 4 := 1; let s : State := ptpIn 2; (ptpGet s p).state = 2 ∧ timeUnset s = true) ∧
    (let p : Fin 4 := 1; let s : State := (ptpIn 2).onTime (fun t => { t with qual := .free }); (ptpGet s p).state = 2 ∧ timeUnset s = false) ∧
    (let p : Fin 4 := 1; let s : State := inState .config; (ptpGet s p).state ≠ 2) ∧
    (let p : Fin 4 := 1; let s : State := ptpIn 2; (ptpGet s p).state ≠ 0 ∧ portUp s p = true) ∧
    (let p : Fin 4 := 1; let s : State := inState .config; ((ptpGet s p).state = 0 ∨ portUp s p = false)) ∧
    (let p : Fin 4 := 1; let d : Nat := 0; let b : Bool := false; let s : State := ptpIn 2; (d ≠ (ptpGet s p).domain ∨ b = false ∨ followsTime s = true)) ∧
    (let p : Fin 4 := 1; let s : State := ptpIn 2; (ptpGet s p).state ≠ 0 ∧ (ptpGet s p).state ≠ 3 ∧ portUp s p = true ∧ followsTime s = false) ∧
    (let p : Fin 4 := 1; let s : State := ptpIn 3; (ptpGet s p).state = 3 ∧ portUp s p = true ∧ followsTime s = false) ∧
    (let p : Fin 4 := 1; let s : State := ptpIn 3; (ptpGet s p).state = 3) ∧
    (let p : Fin 4 := 1; let s : State := ptpIn 1; (ptpGet s p).state = 1 ∧ followsTime s = false) ∧
    (let p : Fin 4 := 1; let s : State := ptpIn 2; (ptpGet s p).state ≠ 3 ∧ ((ptpGet s p).state ≠ 1 ∨ followsTime s = true)) ∧
    (let s : State := disciplined; timeUnset s = false ∧ s.power.refLost.contains 4 = false) ∧
    (let s : State := inState .config; (timeUnset s = true ∨ s.power.refLost.contains 4 = true)) := by
  iterate 9 refine And.intro (by intros; decide +kernel +zetaReduce) ?_
  iterate 2 refine And.intro (by and_intros <;> first | rfl | decide) ?_
  iterate 35 refine And.intro (by intros; decide +kernel +zetaReduce) ?_
  intros; decide +kernel +zetaReduce

set_option maxRecDepth 20000 in
/-- States and operands that meet the hypotheses of NetCommandsConfigurePortsAndStreams, clause by clause. -/
theorem test_witness_NetCommandsConfigurePortsAndStreams :
    (let c : Cmd := cmd 1 8 [2, 1]; let s : State := inState .config; let v : State := (inState .config).onNet (fun x => { x with eth := tset x.eth ((cmd 1 8 [2, 1]).u8 0) ⟨true, bit ((cmd 1 8 [2, 1]).u8 1) 1, bit ((cmd 1 8 [2, 1]).u8 1) 2, beVal (((cmd 1 8 [2, 1]).params.drop 2).take 6)⟩ }); Serving s ∧ c.mb ≠ 0 ∧ Inline c 8 ∧ c.u8 0 < 4 ∧ c.u8 1 < 8 ∧ multicast (beVal ((c.params.drop 2).take 6)) = false ∧ bit (c.u8 1) 0 = true ∧ v = (s).onNet (fun x => { x with eth := tset x.eth (c.u8 0) ⟨true, bit (c.u8 1) 1, bit (c.u8 1) 2, beVal ((c.params.drop 2).take 6)⟩ })) ∧
    (let c : Cmd := cmd 1 8 [2, 0]; let s : State := inState .config; let v : State := linkChange ((cmd 1 8 [2, 0]).u8 0) false ((inState .config).onNet (fun x => { x with eth := tset x.eth ((cmd 1 8 [2, 0]).u8 0) ⟨false, bit ((cmd 1 8 [2, 0]).u8 1) 1, bit ((cmd 1 8 [2, 0]).u8 1) 2, beVal (((cmd 1 8 [2, 0]).params.drop 2).take 6)⟩ })); Serving s ∧ c.mb ≠ 0 ∧ Inline c 8 ∧ c.u8 0 < 4 ∧ c.u8 1 < 8 ∧ multicast (beVal ((c.params.drop 2).take 6)) = false ∧ bit (c.u8 1) 0 = false ∧ (ptpGet s (c.u8 0)).on = false ∧ v = linkChange (c.u8 0) false ((s).onNet (fun x => { x with eth := tset x.eth (c.u8 0) ⟨false, bit (c.u8 1) 1, bit (c.u8 1) 2, beVal ((c.params.drop 2).take 6)⟩ }))) ∧
    (let c : Cmd := cmd 1 8 [1, 0]; let s : State := ptpIn 2; Serving s ∧ c.mb ≠ 0 ∧ Inline c 8 ∧ c.u8 0 < 4 ∧ c.u8 1 < 8 ∧ multicast (beVal ((c.params.drop 2).take 6)) = false ∧ bit (c.u8 1) 0 = false ∧ (ptpGet s (c.u8 0)).on = true) ∧
    (let c : Cmd := subCmd; let k : GsubCfg := subParsed; let s : State := inState .config; let v : State := stage 8 subCmd.params ((inState .config).onNet (fun x => { x with subNew := tset x.subNew (subCmd.u16 2) subParsed })); k = ⟨bit (c.u8 4) 0, bit (c.u8 4) 1, c.u8 4 / 4 % 16, c.u16 8, beVal ((c.params.drop 16).take 6), c.u32 24, c.u16 14, (c.params.drop 32).take 192⟩ ∧ Serving s ∧ c.mb ≠ 0 ∧ (s.dev.role = .active ∨ s.dev.role = .standby) ∧ External c (fun n => n == 320) ∧ c.rsv 1 1 = true ∧ c.u8 0 = 0 ∧ c.u16 2 < 64 ∧ c.u8 4 < 64 ∧ c.rsv 5 3 = true ∧ c.u16 8 ≤ 0x3FFF ∧ multicast k.dmac = true ∧ c.rsv 10 4 = true ∧ c.rsv 22 2 = true ∧ asciiOk k.names = true ∧ 1 ≤ c.u16 14 ∧ c.u16 14 ≤ 10000 ∧ c.rsv 224 96 = true ∧ setHeld s 8 = false ∧ ((safeNames s false (c.u16 2) = false ∨ k.ports = 3)) ∧ v = stage 8 c.params (s.onNet (fun x => { x with subNew := tset x.subNew (c.u16 2) k }))) ∧
    (let c : Cmd := extCmd 1 ([0, 0, 0, 0, 0x05, 0, 0, 0] ++ le 2 1 ++ [0, 0, 0, 0] ++ le 2 100 ++ [1, 0, 0, 0, 0, 0] ++ [0, 0] ++ le 4 1 ++ List.replicate 292 0); let k : GsubCfg := ⟨true, false, 1, 1, 0x10000000000, 1, 100, List.replicate 192 0⟩; let s : State := ((inState .config).onSafe (fun y => { y with cfg := some ⟨4, rxSpb⟩ })); k = ⟨bit (c.u8 4) 0, bit (c.u8 4) 1, c.u8 4 / 4 % 16, c.u16 8, beVal ((c.params.drop 16).take 6), c.u32 24, c.u16 14, (c.params.drop 32).take 192⟩ ∧ Serving s ∧ c.mb ≠ 0 ∧ (s.dev.role = .active ∨ s.dev.role = .standby) ∧ External c (fun n => n == 320) ∧ c.rsv 1 1 = true ∧ c.u8 0 = 0 ∧ c.u16 2 < 64 ∧ c.u8 4 < 64 ∧ c.rsv 5 3 = true ∧ c.u16 8 ≤ 0x3FFF ∧ multicast k.dmac = true ∧ c.rsv 10 4 = true ∧ c.rsv 22 2 = true ∧ asciiOk k.names = true ∧ 1 ≤ c.u16 14 ∧ c.u16 14 ≤ 10000 ∧ c.rsv 224 96 = true ∧ setHeld s 8 = false ∧ safeNames s false (c.u16 2) = true ∧ k.ports ≠ 3) ∧
    (let c : Cmd := subCmd; let k : GsubCfg := subParsed; let s : State := armed { oneCommit with mask := 0x100 } (inState .config); k = ⟨bit (c.u8 4) 0, bit (c.u8 4) 1, c.u8 4 / 4 % 16, c.u16 8, beVal ((c.params.drop 16).take 6), c.u32 24, c.u16 14, (c.params.drop 32).take 192⟩ ∧ Serving s ∧ c.mb ≠ 0 ∧ (s.dev.role = .active ∨ s.dev.role = .standby) ∧ External c (fun n => n == 320) ∧ c.rsv 1 1 = true ∧ c.u8 0 = 0 ∧ c.u16 2 < 64 ∧ c.u8 4 < 64 ∧ c.rsv 5 3 = true ∧ c.u16 8 ≤ 0x3FFF ∧ multicast k.dmac = true ∧ c.rsv 10 4 = true ∧ c.rsv 22 2 = true ∧ asciiOk k.names = true ∧ 1 ≤ c.u16 14 ∧ c.u16 14 ≤ 10000 ∧ c.rsv 224 96 = true ∧ setHeld s 8 = true) ∧
    (let c : Cmd := extCmd 1 ([1, 0] ++ le 2 130 ++ [3, 2, 1, 0] ++ le 4 1000 ++ List.replicate 308 0); let k : MapCfg := ⟨true, false, 3, 2, 1000⟩; let s : State := ((inState .config).onNet (fun x => { x with sub := [(3, { on := true })] })); let v : State := stage 8 (extCmd 1 ([1, 0] ++ le 2 130 ++ [3, 2, 1, 0] ++ le 4 1000 ++ List.replicate 308 0)).params (((inState .config).onNet (fun x => { x with sub := [(3, { on := true })] })).onNet (fun x => { x with mapNew := tset x.mapNew 130 ⟨true, false, 3, 2, 1000⟩ })); k = ⟨bit (c.u8 6) 0, bit (c.u8 6) 1, c.u8 4, c.u8 5, c.u32 8⟩ ∧ Serving s ∧ c.mb ≠ 0 ∧ (s.dev.role = .active ∨ s.dev.role = .standby) ∧ External c (fun n => n == 320) ∧ c.rsv 1 1 = true ∧ c.u8 0 = 1 ∧ 128 ≤ c.u16 2 ∧ c.u16 2 < 192 ∧ c.u8 4 < 64 ∧ c.u8 5 < 128 ∧ c.u8 6 < 4 ∧ c.rsv 7 1 = true ∧ 1 ≤ c.u32 8 ∧ c.u32 8 < 2 ^ 31 ∧ c.rsv 12 308 = true ∧ setHeld s 8 = false ∧ (subShadow s k.src).on = true ∧ v = stage 8 c.params (s.onNet (fun x => { x with mapNew := tset x.mapNew (c.u16 2) k }))) ∧
    (let c : Cmd := extCmd 1 ([1, 0] ++ le 2 130 ++ [3, 2, 1, 0] ++ le 4 1000 ++ List.replicate 308 0); let k : MapCfg := ⟨true, false, 3, 2, 1000⟩; let s : State := inState .config; k = ⟨bit (c.u8 6) 0, bit (c.u8 6) 1, c.u8 4, c.u8 5, c.u32 8⟩ ∧ Serving s ∧ c.mb ≠ 0 ∧ (s.dev.role = .active ∨ s.dev.role = .standby) ∧ External c (fun n => n == 320) ∧ c.rsv 1 1 = true ∧ c.u8 0 = 1 ∧ 128 ≤ c.u16 2 ∧ c.u16 2 < 192 ∧ c.u8 4 < 64 ∧ c.u8 5 < 128 ∧ c.u8 6 < 4 ∧ c.rsv 7 1 = true ∧ 1 ≤ c.u32 8 ∧ c.u32 8 < 2 ^ 31 ∧ c.rsv 12 308 = true ∧ setHeld s 8 = false ∧ (subShadow s k.src).on = false) ∧
    (let c : Cmd := extCmd 1 ([1, 0] ++ le 2 130 ++ [3, 2, 1, 0] ++ le 4 1000 ++ List.replicate 308 0); let k : MapCfg := ⟨true, false, 3, 2, 1000⟩; let s : State := armed { oneCommit with mask := 0x100 } ((inState .config).onNet (fun x => { x with sub := [(3, { on := true })] })); k = ⟨bit (c.u8 6) 0, bit (c.u8 6) 1, c.u8 4, c.u8 5, c.u32 8⟩ ∧ Serving s ∧ c.mb ≠ 0 ∧ (s.dev.role = .active ∨ s.dev.role = .standby) ∧ External c (fun n => n == 320) ∧ c.rsv 1 1 = true ∧ c.u8 0 = 1 ∧ 128 ≤ c.u16 2 ∧ c.u16 2 < 192 ∧ c.u8 4 < 64 ∧ c.u8 5 < 128 ∧ c.u8 6 < 4 ∧ c.rsv 7 1 = true ∧ 1 ≤ c.u32 8 ∧ c.u32 8 < 2 ^ 31 ∧ c.rsv 12 308 = true ∧ setHeld s 8 = true) ∧
    (let c : Cmd := extCmd 1 ([2, 0, 3, 0, 0x0D, 0, 0, 0] ++ le 2 1 ++ List.replicate 6 0 ++ [1, 0, 0, 0, 0, 0] ++ [0, 0] ++ le 4 1 ++ le 2 2 ++ le 2 100 ++ List.replicate 192 0 ++ le 4 0x04000000 ++ List.replicate 92 0); let k : GpubCfg := ⟨true, 3, 1, 0x10000000000, 1, 2, 100, List.replicate 192 0, 0x04000000 :: List.replicate 23 0⟩; let s : State := inState .config; let v : State := stage 8 (extCmd 1 ([2, 0, 3, 0, 0x0D, 0, 0, 0] ++ le 2 1 ++ List.replicate 6 0 ++ [1, 0, 0, 0, 0, 0] ++ [0, 0] ++ le 4 1 ++ le 2 2 ++ le 2 100 ++ List.replicate 192 0 ++ le 4 0x04000000 ++ List.replicate 92 0)).params ((inState .config).onNet (fun x => { x with pubNew := tset x.pubNew 3 ⟨true, 3, 1, 0x10000000000, 1, 2, 100, List.replicate 192 0, 0x04000000 :: List.replicate 23 0⟩ })); k = ⟨bit (c.u8 4) 0, c.u8 4 / 4 % 16, c.u16 8, beVal ((c.params.drop 16).take 6), c.u32 24, c.u16 28, c.u16 30, (c.params.drop 32).take 192, ((List.range 24).map (fun n => c.u32 (224 + 4 * n)))⟩ ∧ Serving s ∧ c.mb ≠ 0 ∧ (s.dev.role = .active ∨ s.dev.role = .standby) ∧ External c (fun n => n == 320) ∧ c.rsv 1 1 = true ∧ c.u8 0 = 2 ∧ c.u16 2 < 16 ∧ c.u8 4 < 64 ∧ c.rsv 5 3 = true ∧ c.u16 8 ≤ 0x3FFF ∧ multicast k.dmac = true ∧ c.rsv 10 4 = true ∧ c.rsv 22 2 = true ∧ asciiOk k.names = true ∧ 1 ≤ c.u16 28 ∧ c.u16 28 ≤ 1000 ∧ c.u16 28 ≤ c.u16 30 ∧ c.u16 30 ≤ 60000 ∧ (pubEntries k).all pubEntryOk = true ∧ setHeld s 8 = false ∧ (((pubEntries k).all (fun e => pubEntryFit s e) = true ∧ (safeNames s true (c.u16 2) = false ∨ (k.ports = 3 ∧ pubEntries k = [])))) ∧ v = stage 8 c.params (s.onNet (fun x => { x with pubNew := tset x.pubNew (c.u16 2) k }))) ∧
    (let c : Cmd := extCmd 1 ([2, 0, 3, 0, 0x0D, 0, 0, 0] ++ le 2 1 ++ List.replicate 6 0 ++ [1, 0, 0, 0, 0, 0] ++ [0, 0] ++ le 4 1 ++ le 2 2 ++ le 2 100 ++ List.replicate 192 0 ++ le 4 0x01000000 ++ List.replicate 92 0); let k : GpubCfg := ⟨true, 3, 1, 0x10000000000, 1, 2, 100, List.replicate 192 0, 0x01000000 :: List.replicate 23 0⟩; let s : State := lacksMpr (inState .config); k = ⟨bit (c.u8 4) 0, c.u8 4 / 4 % 16, c.u16 8, beVal ((c.params.drop 16).take 6), c.u32 24, c.u16 28, c.u16 30, (c.params.drop 32).take 192, ((List.range 24).map (fun n => c.u32 (224 + 4 * n)))⟩ ∧ Serving s ∧ c.mb ≠ 0 ∧ (s.dev.role = .active ∨ s.dev.role = .standby) ∧ External c (fun n => n == 320) ∧ c.rsv 1 1 = true ∧ c.u8 0 = 2 ∧ c.u16 2 < 16 ∧ c.u8 4 < 64 ∧ c.rsv 5 3 = true ∧ c.u16 8 ≤ 0x3FFF ∧ multicast k.dmac = true ∧ c.rsv 10 4 = true ∧ c.rsv 22 2 = true ∧ asciiOk k.names = true ∧ 1 ≤ c.u16 28 ∧ c.u16 28 ≤ 1000 ∧ c.u16 28 ≤ c.u16 30 ∧ c.u16 30 ≤ 60000 ∧ (pubEntries k).all pubEntryOk = true ∧ setHeld s 8 = false ∧ (¬((pubEntries k).all (fun e => pubEntryFit s e) = true ∧ (safeNames s true (c.u16 2) = false ∨ (k.ports = 3 ∧ pubEntries k = []))))) ∧
    (let c : Cmd := extCmd 1 ([2, 0, 3, 0, 0x0D, 0, 0, 0] ++ le 2 1 ++ List.replicate 6 0 ++ [1, 0, 0, 0, 0, 0] ++ [0, 0] ++ le 4 1 ++ le 2 2 ++ le 2 100 ++ List.replicate 192 0 ++ le 4 0x04000000 ++ List.replicate 92 0); let k : GpubCfg := ⟨true, 3, 1, 0x10000000000, 1, 2, 100, List.replicate 192 0, 0x04000000 :: List.replicate 23 0⟩; let s : State := armed { oneCommit with mask := 0x100 } (inState .config); k = ⟨bit (c.u8 4) 0, c.u8 4 / 4 % 16, c.u16 8, beVal ((c.params.drop 16).take 6), c.u32 24, c.u16 28, c.u16 30, (c.params.drop 32).take 192, ((List.range 24).map (fun n => c.u32 (224 + 4 * n)))⟩ ∧ Serving s ∧ c.mb ≠ 0 ∧ (s.dev.role = .active ∨ s.dev.role = .standby) ∧ External c (fun n => n == 320) ∧ c.rsv 1 1 = true ∧ c.u8 0 = 2 ∧ c.u16 2 < 16 ∧ c.u8 4 < 64 ∧ c.rsv 5 3 = true ∧ c.u16 8 ≤ 0x3FFF ∧ multicast k.dmac = true ∧ c.rsv 10 4 = true ∧ c.rsv 22 2 = true ∧ asciiOk k.names = true ∧ 1 ≤ c.u16 28 ∧ c.u16 28 ≤ 1000 ∧ c.u16 28 ≤ c.u16 30 ∧ c.u16 30 ≤ 60000 ∧ (pubEntries k).all pubEntryOk = true ∧ setHeld s 8 = true) ∧
    (let c : Cmd := svCmd; let k : SvCfg := svParsed; let s : State := inState .config; let v : State := stage 8 svCmd.params ((inState .config).onNet (fun x => { x with svNew := tset x.svNew 3 svParsed })); k = { on := bit (c.u8 2) 0, port2 := bit (c.u8 2) 1, port3 := bit (c.u8 2) 2, test := bit (c.u8 2) 3, localOk := bit (c.u8 2) 4, misInv := bit (c.u8 2) 5, nasdu := c.u8 3, nval := c.u8 20, appid := c.u16 4, dmac := beVal ((c.params.drop 6).take 6), confRev := c.u32 12, rate := c.u32 16, miss := c.u8 21, dupWin := c.u16 22, svid := (c.params.drop 28).take 64 } ∧ Serving s ∧ c.mb ≠ 0 ∧ (s.dev.role = .active ∨ s.dev.role = .standby) ∧ External c (fun n => n == 128) ∧ c.u8 0 = 0 ∧ c.u8 1 < 16 ∧ c.u8 2 < 64 ∧ (k.port2 || k.port3) = true ∧ 1 ≤ k.nasdu ∧ k.nasdu ≤ 8 ∧ 1 ≤ k.nval ∧ k.nval ≤ 16 ∧ 0x4000 ≤ k.appid ∧ k.appid ≤ 0x7FFF ∧ multicast k.dmac = true ∧ 4000 ≤ k.rate ∧ k.rate ≤ 96000 ∧ 1 ≤ k.miss ∧ k.miss ≤ 16 ∧ 1 ≤ k.dupWin ∧ k.dupWin ≤ 10000 ∧ asciiOk k.svid = true ∧ c.rsv 24 4 = true ∧ c.rsv 92 36 = true ∧ setHeld s 8 = false ∧ v = stage 8 c.params (s.onNet (fun x => { x with svNew := tset x.svNew (c.u8 1) k }))) ∧
    (let c : Cmd := svCmd; let k : SvCfg := svParsed; let s : State := armed { oneCommit with mask := 0x100 } (inState .config); k = { on := bit (c.u8 2) 0, port2 := bit (c.u8 2) 1, port3 := bit (c.u8 2) 2, test := bit (c.u8 2) 3, localOk := bit (c.u8 2) 4, misInv := bit (c.u8 2) 5, nasdu := c.u8 3, nval := c.u8 20, appid := c.u16 4, dmac := beVal ((c.params.drop 6).take 6), confRev := c.u32 12, rate := c.u32 16, miss := c.u8 21, dupWin := c.u16 22, svid := (c.params.drop 28).take 64 } ∧ Serving s ∧ c.mb ≠ 0 ∧ (s.dev.role = .active ∨ s.dev.role = .standby) ∧ External c (fun n => n == 128) ∧ c.u8 0 = 0 ∧ c.u8 1 < 16 ∧ c.u8 2 < 64 ∧ (k.port2 || k.port3) = true ∧ 1 ≤ k.nasdu ∧ k.nasdu ≤ 8 ∧ 1 ≤ k.nval ∧ k.nval ≤ 16 ∧ 0x4000 ≤ k.appid ∧ k.appid ≤ 0x7FFF ∧ multicast k.dmac = true ∧ 4000 ≤ k.rate ∧ k.rate ≤ 96000 ∧ 1 ≤ k.miss ∧ k.miss ≤ 16 ∧ 1 ≤ k.dupWin ∧ k.dupWin ≤ 10000 ∧ asciiOk k.svid = true ∧ c.rsv 24 4 = true ∧ c.rsv 92 36 = true ∧ setHeld s 8 = true) ∧
    (let c : Cmd := extCmd 1 ([1, 0, 7, 0, 3, 2, 1, 0] ++ le 4 1000 ++ List.replicate 116 0); let k : MapCfg := ⟨true, false, 3, 2, 1000⟩; let s : State := svOn; let v : State := stage 8 (extCmd 1 ([1, 0, 7, 0, 3, 2, 1, 0] ++ le 4 1000 ++ List.replicate 116 0)).params (svOn.onNet (fun x => { x with mapNew := tset x.mapNew 7 ⟨true, false, 3, 2, 1000⟩ })); k = ⟨bit (c.u8 6) 0, bit (c.u8 6) 1, c.u8 4, c.u8 5, c.u32 8⟩ ∧ Serving s ∧ c.mb ≠ 0 ∧ (s.dev.role = .active ∨ s.dev.role = .standby) ∧ External c (fun n => n == 128) ∧ c.u8 0 = 1 ∧ c.u16 2 < 128 ∧ c.u8 4 < 16 ∧ c.u8 5 < (svShadow s (c.u8 4)).nval ∧ c.u8 6 < 4 ∧ 1 ≤ c.u32 8 ∧ c.u32 8 < 2 ^ 31 ∧ c.rsv 1 1 = true ∧ c.rsv 7 1 = true ∧ c.rsv 12 116 = true ∧ setHeld s 8 = false ∧ (svShadow s k.src).on = true ∧ v = stage 8 c.params (s.onNet (fun x => { x with mapNew := tset x.mapNew (c.u16 2) k }))) ∧
    (let c : Cmd := extCmd 1 ([1, 0, 7, 0, 3, 2, 1, 0] ++ le 4 1000 ++ List.replicate 116 0); let k : MapCfg := ⟨true, false, 3, 2, 1000⟩; let s : State := inState .config; k = ⟨bit (c.u8 6) 0, bit (c.u8 6) 1, c.u8 4, c.u8 5, c.u32 8⟩ ∧ Serving s ∧ c.mb ≠ 0 ∧ (s.dev.role = .active ∨ s.dev.role = .standby) ∧ External c (fun n => n == 128) ∧ c.u8 0 = 1 ∧ c.u16 2 < 128 ∧ c.u8 4 < 16 ∧ c.u8 5 < (svShadow s (c.u8 4)).nval ∧ c.u8 6 < 4 ∧ 1 ≤ c.u32 8 ∧ c.u32 8 < 2 ^ 31 ∧ c.rsv 1 1 = true ∧ c.rsv 7 1 = true ∧ c.rsv 12 116 = true ∧ setHeld s 8 = false ∧ (svShadow s k.src).on = false) ∧
    (let c : Cmd := extCmd 1 ([1, 0, 7, 0, 3, 2, 1, 0] ++ le 4 1000 ++ List.replicate 116 0); let k : MapCfg := ⟨true, false, 3, 2, 1000⟩; let s : State := armed { oneCommit with mask := 0x100 } svOn; k = ⟨bit (c.u8 6) 0, bit (c.u8 6) 1, c.u8 4, c.u8 5, c.u32 8⟩ ∧ Serving s ∧ c.mb ≠ 0 ∧ (s.dev.role = .active ∨ s.dev.role = .standby) ∧ External c (fun n => n == 128) ∧ c.u8 0 = 1 ∧ c.u16 2 < 128 ∧ c.u8 4 < 16 ∧ c.u8 5 < (svShadow s (c.u8 4)).nval ∧ c.u8 6 < 4 ∧ 1 ≤ c.u32 8 ∧ c.u32 8 < 2 ^ 31 ∧ c.rsv 1 1 = true ∧ c.rsv 7 1 = true ∧ c.rsv 12 116 = true ∧ setHeld s 8 = true) ∧
    (let c : Cmd := cmd 1 48 ([2, 1, 0, 0, 1, 0, 0, 0] ++ le 8 4096 ++ le 4 16); let k : DmaStream := { on := bit ((cmd 1 48 ([2, 1, 0, 0, 1, 0, 0, 0] ++ le 8 4096 ++ le 4 16)).u8 1) 0, irq := bit ((cmd 1 48 ([2, 1, 0, 0, 1, 0, 0, 0] ++ le 8 4096 ++ le 4 16)).u8 1) 1, kind := (cmd 1 48 ([2, 1, 0, 0, 1, 0, 0, 0] ++ le 8 4096 ++ le 4 16)).u8 2, d := (cmd 1 48 ([2, 1, 0, 0, 1, 0, 0, 0] ++ le 8 4096 ++ le 4 16)).u16 4, base := (cmd 1 48 ([2, 1, 0, 0, 1, 0, 0, 0] ++ le 8 4096 ++ le 4 16)).u64 8, nrec := (cmd 1 48 ([2, 1, 0, 0, 1, 0, 0, 0] ++ le 8 4096 ++ le 4 16)).u32 16, tail := (cmd 1 48 ([2, 1, 0, 0, 1, 0, 0, 0] ++ le 8 4096 ++ le 4 16)).u64 20, sel := ((cmd 1 48 ([2, 1, 0, 0, 1, 0, 0, 0] ++ le 8 4096 ++ le 4 16)).params.drop 28).take 20 }; let o : DmaStream := dmaGet (inState .config) ((cmd 1 48 ([2, 1, 0, 0, 1, 0, 0, 0] ++ le 8 4096 ++ le 4 16)).u8 0); let s : State := inState .config; k = { on := bit (c.u8 1) 0, irq := bit (c.u8 1) 1, kind := c.u8 2, d := c.u16 4, base := c.u64 8, nrec := c.u32 16, tail := c.u64 20, sel := (c.params.drop 28).take 20 } ∧ o = dmaGet s (c.u8 0) ∧ Serving s ∧ c.mb ≠ 0 ∧ Inline c 48 ∧ c.u8 0 < 16 ∧ c.u8 1 < 4 ∧ k.kind < 5 ∧ 1 ≤ k.d ∧ k.base % 4096 = 0 ∧ 16 ≤ k.nrec ∧ k.nrec ≤ 2 ^ 24 ∧ k.tail % 8 = 0 ∧ c.rsv 3 1 = true ∧ c.rsv 6 2 = true ∧ (k.kind ≠ 0 ∨ c.rsv 28 20 = true) ∧ (k.kind ≠ 2 ∨ c.rsv 36 12 = true) ∧ (k.kind ≠ 4 ∨ (rd k.sel 0 1 < 12 ∧ c.rsv 29 19 = true)) ∧ dmaFit s k = true ∧ (o.on = false ∨ ((o.kind == k.kind && o.d == k.d && o.base == k.base && o.nrec == k.nrec && o.tail == k.tail && o.sel == k.sel) = true ∧ k.on = false))) ∧
    (let c : Cmd := cmd 1 48 ([2, 3, 0, 0, 1, 0, 0, 0] ++ le 8 4096 ++ le 4 16); let k : DmaStream := { on := bit ((cmd 1 48 ([2, 3, 0, 0, 1, 0, 0, 0] ++ le 8 4096 ++ le 4 16)).u8 1) 0, irq := bit ((cmd 1 48 ([2, 3, 0, 0, 1, 0, 0, 0] ++ le 8 4096 ++ le 4 16)).u8 1) 1, kind := (cmd 1 48 ([2, 3, 0, 0, 1, 0, 0, 0] ++ le 8 4096 ++ le 4 16)).u8 2, d := (cmd 1 48 ([2, 3, 0, 0, 1, 0, 0, 0] ++ le 8 4096 ++ le 4 16)).u16 4, base := (cmd 1 48 ([2, 3, 0, 0, 1, 0, 0, 0] ++ le 8 4096 ++ le 4 16)).u64 8, nrec := (cmd 1 48 ([2, 3, 0, 0, 1, 0, 0, 0] ++ le 8 4096 ++ le 4 16)).u32 16, tail := (cmd 1 48 ([2, 3, 0, 0, 1, 0, 0, 0] ++ le 8 4096 ++ le 4 16)).u64 20, sel := ((cmd 1 48 ([2, 3, 0, 0, 1, 0, 0, 0] ++ le 8 4096 ++ le 4 16)).params.drop 28).take 20 }; let o : DmaStream := dmaGet ((inState .config).onNet (fun x => { x with dma := [(2, { on := true, d := 1, base := 4096, nrec := 16, tail := 0, sel := List.replicate 20 0 })] })) ((cmd 1 48 ([2, 3, 0, 0, 1, 0, 0, 0] ++ le 8 4096 ++ le 4 16)).u8 0); let s : State := (inState .config).onNet (fun x => { x with dma := [(2, { on := true, d := 1, base := 4096, nrec := 16, tail := 0, sel := List.replicate 20 0 })] }); k = { on := bit (c.u8 1) 0, irq := bit (c.u8 1) 1, kind := c.u8 2, d := c.u16 4, base := c.u64 8, nrec := c.u32 16, tail := c.u64 20, sel := (c.params.drop 28).take 20 } ∧ o = dmaGet s (c.u8 0) ∧ Serving s ∧ c.mb ≠ 0 ∧ Inline c 48 ∧ c.u8 0 < 16 ∧ c.u8 1 < 4 ∧ k.kind < 5 ∧ 1 ≤ k.d ∧ k.base % 4096 = 0 ∧ 16 ≤ k.nrec ∧ k.nrec ≤ 2 ^ 24 ∧ k.tail % 8 = 0 ∧ c.rsv 3 1 = true ∧ c.rsv 6 2 = true ∧ (k.kind ≠ 0 ∨ c.rsv 28 20 = true) ∧ (k.kind ≠ 2 ∨ c.rsv 36 12 = true) ∧ (k.kind ≠ 4 ∨ (rd k.sel 0 1 < 12 ∧ c.rsv 29 19 = true)) ∧ dmaFit s k = true ∧ o.on = true ∧ (o.kind == k.kind && o.d == k.d && o.base == k.base && o.nrec == k.nrec && o.tail == k.tail && o.sel == k.sel) = true ∧ k.on = true) ∧
    (let c : Cmd := cmd 1 48 ([2, 1, 0, 0, 1, 0, 0, 0] ++ le 8 4096 ++ le 4 16); let k : DmaStream := { on := bit ((cmd 1 48 ([2, 1, 0, 0, 1, 0, 0, 0] ++ le 8 4096 ++ le 4 16)).u8 1) 0, irq := bit ((cmd 1 48 ([2, 1, 0, 0, 1, 0, 0, 0] ++ le 8 4096 ++ le 4 16)).u8 1) 1, kind := (cmd 1 48 ([2, 1, 0, 0, 1, 0, 0, 0] ++ le 8 4096 ++ le 4 16)).u8 2, d := (cmd 1 48 ([2, 1, 0, 0, 1, 0, 0, 0] ++ le 8 4096 ++ le 4 16)).u16 4, base := (cmd 1 48 ([2, 1, 0, 0, 1, 0, 0, 0] ++ le 8 4096 ++ le 4 16)).u64 8, nrec := (cmd 1 48 ([2, 1, 0, 0, 1, 0, 0, 0] ++ le 8 4096 ++ le 4 16)).u32 16, tail := (cmd 1 48 ([2, 1, 0, 0, 1, 0, 0, 0] ++ le 8 4096 ++ le 4 16)).u64 20, sel := ((cmd 1 48 ([2, 1, 0, 0, 1, 0, 0, 0] ++ le 8 4096 ++ le 4 16)).params.drop 28).take 20 }; let o : DmaStream := dmaGet (dmaOn) ((cmd 1 48 ([2, 1, 0, 0, 1, 0, 0, 0] ++ le 8 4096 ++ le 4 16)).u8 0); let s : State := dmaOn; k = { on := bit (c.u8 1) 0, irq := bit (c.u8 1) 1, kind := c.u8 2, d := c.u16 4, base := c.u64 8, nrec := c.u32 16, tail := c.u64 20, sel := (c.params.drop 28).take 20 } ∧ o = dmaGet s (c.u8 0) ∧ Serving s ∧ c.mb ≠ 0 ∧ Inline c 48 ∧ c.u8 0 < 16 ∧ c.u8 1 < 4 ∧ k.kind < 5 ∧ 1 ≤ k.d ∧ k.base % 4096 = 0 ∧ 16 ≤ k.nrec ∧ k.nrec ≤ 2 ^ 24 ∧ k.tail % 8 = 0 ∧ c.rsv 3 1 = true ∧ c.rsv 6 2 = true ∧ (k.kind ≠ 0 ∨ c.rsv 28 20 = true) ∧ (k.kind ≠ 2 ∨ c.rsv 36 12 = true) ∧ (k.kind ≠ 4 ∨ (rd k.sel 0 1 < 12 ∧ c.rsv 29 19 = true)) ∧ dmaFit s k = true ∧ o.on = true ∧ (o.kind == k.kind && o.d == k.d && o.base == k.base && o.nrec == k.nrec && o.tail == k.tail && o.sel == k.sel) = false) ∧
    (let c : Cmd := cmd 1 48 ([2, 1, 2, 0, 1, 0, 0, 0] ++ le 8 4096 ++ le 4 16); let k : DmaStream := { on := bit ((cmd 1 48 ([2, 1, 2, 0, 1, 0, 0, 0] ++ le 8 4096 ++ le 4 16)).u8 1) 0, irq := bit ((cmd 1 48 ([2, 1, 2, 0, 1, 0, 0, 0] ++ le 8 4096 ++ le 4 16)).u8 1) 1, kind := (cmd 1 48 ([2, 1, 2, 0, 1, 0, 0, 0] ++ le 8 4096 ++ le 4 16)).u8 2, d := (cmd 1 48 ([2, 1, 2, 0, 1, 0, 0, 0] ++ le 8 4096 ++ le 4 16)).u16 4, base := (cmd 1 48 ([2, 1, 2, 0, 1, 0, 0, 0] ++ le 8 4096 ++ le 4 16)).u64 8, nrec := (cmd 1 48 ([2, 1, 2, 0, 1, 0, 0, 0] ++ le 8 4096 ++ le 4 16)).u32 16, tail := (cmd 1 48 ([2, 1, 2, 0, 1, 0, 0, 0] ++ le 8 4096 ++ le 4 16)).u64 20, sel := ((cmd 1 48 ([2, 1, 2, 0, 1, 0, 0, 0] ++ le 8 4096 ++ le 4 16)).params.drop 28).take 20 }; let o : DmaStream := dmaGet (lacksMpr (inState .config)) ((cmd 1 48 ([2, 1, 2, 0, 1, 0, 0, 0] ++ le 8 4096 ++ le 4 16)).u8 0); let s : State := lacksMpr (inState .config); k = { on := bit (c.u8 1) 0, irq := bit (c.u8 1) 1, kind := c.u8 2, d := c.u16 4, base := c.u64 8, nrec := c.u32 16, tail := c.u64 20, sel := (c.params.drop 28).take 20 } ∧ o = dmaGet s (c.u8 0) ∧ Serving s ∧ c.mb ≠ 0 ∧ Inline c 48 ∧ c.u8 0 < 16 ∧ c.u8 1 < 4 ∧ k.kind < 5 ∧ 1 ≤ k.d ∧ k.base % 4096 = 0 ∧ 16 ≤ k.nrec ∧ k.nrec ≤ 2 ^ 24 ∧ k.tail % 8 = 0 ∧ c.rsv 3 1 = true ∧ c.rsv 6 2 = true ∧ (k.kind ≠ 0 ∨ c.rsv 28 20 = true) ∧ (k.kind ≠ 2 ∨ c.rsv 36 12 = true) ∧ (k.kind ≠ 4 ∨ (rd k.sel 0 1 < 12 ∧ c.rsv 29 19 = true)) ∧ dmaFit s k = false) ∧
    (let c : Cmd := cmd 1 12 []; let s : State := inState .config; Serving s ∧ c.mb ≠ 0 ∧ Inline c 12 ∧ c.rsv 0 4 = true ∧ c.u64 4 = 0) ∧
    (let c : Cmd := cmd 1 12 [0, 0, 0, 0, 64]; let s : State := inState .config; Serving s ∧ c.mb ≠ 0 ∧ Inline c 12 ∧ c.rsv 0 4 = true ∧ c.u64 4 ≠ 0 ∧ c.u64 4 % 64 = 0) := by
  iterate 22 refine And.intro (by intros; decide +kernel +zetaReduce) ?_
  intros; decide +kernel +zetaReduce

set_option maxRecDepth 20000 in
/-- States and operands that meet the hypotheses of NetEventsMoveFramesAndRecords, clause by clause. -/
theorem test_witness_NetEventsMoveFramesAndRecords :
    (let p : Fin 4 := 1; let s : State := (inState .config).onNet (fun x => { x with eth := [(1, { on := true })] }); (ethCfg s p).on = true ∧ portUp s p = false) ∧
    (let p : Fin 4 := 1; let s : State := ethOn; (((ethCfg s p).on = true ∧ portUp s p = true) ∨ ((ethCfg s p).on = false ∧ portUp s p = false))) ∧
    (let p : Fin 4 := 1; let s : State := (inState .config).onNet (fun x => { x with up := [1] }); (ethCfg s p).on = false ∧ portUp s p = true) ∧
    (let p : Fin 4 := 1; let s : State := ethOn; portUp s p = true) ∧
    (let p : Fin 4 := 1; let s : State := inState .config; portUp s p = false) ∧
    (let p : Fin 4 := 1; let s : State := ethOn; portUp s p = true) ∧
    (let p : Fin 4 := 1; let s : State := inState .config; portUp s p = false) ∧
    (let p : Fin 4 := 1; let f : SvFrame := anSvFrame; let s : State := ethOn; portUp s p = true ∧ f.good = true ∧ p.val < 2) ∧
    (let p : Fin 4 := 2; let f : SvFrame := anSvFrame; let z : SvAt := ⟨0, true⟩; let l : List Nat := [3]; let s : State := svPort; portUp s p = true ∧ f.good = true ∧ 2 ≤ p.val ∧ l = (List.range 16).filter (fun i => (svCfg s i).on && (if p.val = 2 then (svCfg s i).port2 else (svCfg s i).port3) && (svCfg s i).dmac == f.dmac && (svCfg s i).appid == f.appid && (svCfg s i).svid == fit 64 f.svid && (svCfg s i).confRev == f.confRev && (svCfg s i).nasdu == f.asdus.length && f.asdus.all (fun x => x.vals.length == (svCfg s i).nval)) ∧ z.behind = true) ∧
    (let p : Fin 4 := 2; let f : SvFrame := anSvFrame; let z : SvAt := ⟨0, false⟩; let l : List Nat := [3]; let s : State := svPort; portUp s p = true ∧ f.good = true ∧ 2 ≤ p.val ∧ l = (List.range 16).filter (fun i => (svCfg s i).on && (if p.val = 2 then (svCfg s i).port2 else (svCfg s i).port3) && (svCfg s i).dmac == f.dmac && (svCfg s i).appid == f.appid && (svCfg s i).svid == fit 64 f.svid && (svCfg s i).confRev == f.confRev && (svCfg s i).nasdu == f.asdus.length && f.asdus.all (fun x => x.vals.length == (svCfg s i).nval)) ∧ z.behind = false) ∧
    (let c : SvCfg := svCfg ((svPort.onNet (fun x => { x with svRun := [(3, { last := some ⟨0, 2, [(0, 0)], 0⟩, copies := [(3, ⟨0, 2, [(0, 0)], 0⟩, 0)] })] }))) 3; let r : SvRun := svGet ((svPort.onNet (fun x => { x with svRun := [(3, { last := some ⟨0, 2, [(0, 0)], 0⟩, copies := [(3, ⟨0, 2, [(0, 0)], 0⟩, 0)] })] }))) 3; let a : AsduIn := ⟨0, 2, [(0, 0)]⟩; let m : Nat := 3; let p : Fin 4 := 2; let f : SvFrame := anSvFrame; let z : SvAt := ⟨500, true⟩; let l : List Nat := [3]; let s : State := (svPort.onNet (fun x => { x with svRun := [(3, { last := some ⟨0, 2, [(0, 0)], 0⟩, copies := [(3, ⟨0, 2, [(0, 0)], 0⟩, 0)] })] })); portUp s p = true ∧ f.good = true ∧ 2 ≤ p.val ∧ l = (List.range 16).filter (fun i => (svCfg s i).on && (if p.val = 2 then (svCfg s i).port2 else (svCfg s i).port3) && (svCfg s i).dmac == f.dmac && (svCfg s i).appid == f.appid && (svCfg s i).svid == fit 64 f.svid && (svCfg s i).confRev == f.confRev && (svCfg s i).nasdu == f.asdus.length && f.asdus.all (fun x => x.vals.length == (svCfg s i).nval)) ∧ l = [m] ∧ f.asdus = [a] ∧ z.behind = true ∧ c = svCfg s m ∧ r = svGet s m ∧ (r.copies.find? (fun x => x.1 != p.val && x.2.1.cnt == a.cnt && z.now < x.2.2 + 1000000)).any (fun x => x.2.2 + c.dupWin < z.now) = true) ∧
    (let c : SvCfg := svCfg ((svPort.onNet (fun x => { x with svRun := [(3, { last := some ⟨0, 2, [(0, 0)], 0⟩, copies := [(3, ⟨0, 2, [(0, 0)], 0⟩, 0)] })] }))) 3; let r : SvRun := svGet ((svPort.onNet (fun x => { x with svRun := [(3, { last := some ⟨0, 2, [(0, 0)], 0⟩, copies := [(3, ⟨0, 2, [(0, 0)], 0⟩, 0)] })] }))) 3; let a : AsduIn := ⟨0, 2, [(0, 0)]⟩; let y : Nat × Asdu × Nat := (3, ⟨0, 2, [(0, 0)], 0⟩, 0); let m : Nat := 3; let p : Fin 4 := 2; let f : SvFrame := anSvFrame; let z : SvAt := ⟨0, true⟩; let l : List Nat := [3]; let s : State := (svPort.onNet (fun x => { x with svRun := [(3, { last := some ⟨0, 2, [(0, 0)], 0⟩, copies := [(3, ⟨0, 2, [(0, 0)], 0⟩, 0)] })] })); portUp s p = true ∧ f.good = true ∧ 2 ≤ p.val ∧ l = (List.range 16).filter (fun i => (svCfg s i).on && (if p.val = 2 then (svCfg s i).port2 else (svCfg s i).port3) && (svCfg s i).dmac == f.dmac && (svCfg s i).appid == f.appid && (svCfg s i).svid == fit 64 f.svid && (svCfg s i).confRev == f.confRev && (svCfg s i).nasdu == f.asdus.length && f.asdus.all (fun x => x.vals.length == (svCfg s i).nval)) ∧ l = [m] ∧ f.asdus = [a] ∧ z.behind = true ∧ c = svCfg s m ∧ r = svGet s m ∧ r.copies.find? (fun x => x.1 != p.val && x.2.1.cnt == a.cnt && z.now < x.2.2 + 1000000) = some y ∧ z.now ≤ y.2.2 + c.dupWin) ∧
    (let c : SvCfg := svCfg ((svPort.onNet (fun x => { x with svRun := [(3, { last := some ⟨9, 2, [(0, 0)], 0⟩ })] }))) 3; let r : SvRun := svGet ((svPort.onNet (fun x => { x with svRun := [(3, { last := some ⟨9, 2, [(0, 0)], 0⟩ })] }))) 3; let a : AsduIn := ⟨0, 2, [(0, 0)]⟩; let m : Nat := 3; let g : Nat := 3991; let p : Fin 4 := 2; let f : SvFrame := anSvFrame; let z : SvAt := ⟨0, true⟩; let l : List Nat := [3]; let s : State := (svPort.onNet (fun x => { x with svRun := [(3, { last := some ⟨9, 2, [(0, 0)], 0⟩ })] })); portUp s p = true ∧ f.good = true ∧ 2 ≤ p.val ∧ l = (List.range 16).filter (fun i => (svCfg s i).on && (if p.val = 2 then (svCfg s i).port2 else (svCfg s i).port3) && (svCfg s i).dmac == f.dmac && (svCfg s i).appid == f.appid && (svCfg s i).svid == fit 64 f.svid && (svCfg s i).confRev == f.confRev && (svCfg s i).nasdu == f.asdus.length && f.asdus.all (fun x => x.vals.length == (svCfg s i).nval)) ∧ l = [m] ∧ f.asdus = [a] ∧ z.behind = true ∧ c = svCfg s m ∧ r = svGet s m ∧ r.copies.find? (fun x => x.1 != p.val && x.2.1.cnt == a.cnt && z.now < x.2.2 + 1000000) = none ∧ g = r.last.elim 1 (fun x => (a.cnt + c.rate - x.cnt) % c.rate) ∧ (c.rate ≤ a.cnt ∨ (r.last ≠ none ∧ r.missed = false ∧ (g = 0 ∨ c.miss < g)))) ∧
    (let c : SvCfg := svCfg (svPort) 3; let r : SvRun := svGet (svPort) 3; let a : AsduIn := ⟨0, 2, [(0, 0)]⟩; let m : Nat := 3; let g : Nat := 1; let b : Asdu := ⟨0, 2, [(0, 0)], sampleInstant svPort (svCfg svPort 3).rate 0⟩; let p : Fin 4 := 2; let f : SvFrame := anSvFrame; let z : SvAt := ⟨0, true⟩; let l : List Nat := [3]; let s : State := svPort; portUp s p = true ∧ f.good = true ∧ 2 ≤ p.val ∧ l = (List.range 16).filter (fun i => (svCfg s i).on && (if p.val = 2 then (svCfg s i).port2 else (svCfg s i).port3) && (svCfg s i).dmac == f.dmac && (svCfg s i).appid == f.appid && (svCfg s i).svid == fit 64 f.svid && (svCfg s i).confRev == f.confRev && (svCfg s i).nasdu == f.asdus.length && f.asdus.all (fun x => x.vals.length == (svCfg s i).nval)) ∧ l = [m] ∧ f.asdus = [a] ∧ z.behind = true ∧ c = svCfg s m ∧ r = svGet s m ∧ r.copies.find? (fun x => x.1 != p.val && x.2.1.cnt == a.cnt && z.now < x.2.2 + 1000000) = none ∧ g = r.last.elim 1 (fun x => (a.cnt + c.rate - x.cnt) % c.rate) ∧ a.cnt < c.rate ∧ (r.last = none ∨ r.missed = true ∨ (1 ≤ g ∧ g ≤ c.miss)) ∧ b = ⟨a.cnt, a.sync, a.vals, sampleInstant s c.rate a.cnt⟩) ∧
    (let p : Fin 4 := 1; let f : SvFrame := anSvFrame; let s : State := inState .config; (portUp s p = false ∨ f.good = false)) ∧
    (let n : Fin 16 := 3; let a : Asdu := ⟨0, 2, [], 0⟩; let s : State := (inState .config).onNet (fun x => { x with sv := [(3, { on := true })], svRun := [(3, { last := some ⟨0, 2, [], 0⟩ })] }); (svCfg s n).on = true ∧ (svGet s n).last = some a) ∧
    (let n : Fin 16 := 3; let s : State := inState .config; ((svCfg s n).on = false ∨ (svGet s n).last = none)) ∧
    (let p : Fin 4 := 2; let f : GooseFrame := aGoose; let l : List Nat := [3]; let s : State := goosePort; portUp s p = true ∧ f.good = true ∧ l = (List.range 64).filter (fun i => (subCfg s i).on && bit (subCfg s i).ports p && (subCfg s i).dmac == f.dmac && (subCfg s i).appid == f.appid && (subCfg s i).names == fit 192 f.names && (subCfg s i).confRev == f.confRev)) ∧
    (let c : GsubCfg := subCfg (goosePort) 3; let r : GsubRun := subGet (goosePort) 3; let p : Fin 4 := 2; let f : GooseFrame := { aGoose with ndsCom := true }; let l : List Nat := [3]; let m : Nat := 3; let s : State := goosePort; portUp s p = true ∧ f.good = true ∧ l = (List.range 64).filter (fun i => (subCfg s i).on && bit (subCfg s i).ports p && (subCfg s i).dmac == f.dmac && (subCfg s i).appid == f.appid && (subCfg s i).names == fit 192 f.names && (subCfg s i).confRev == f.confRev) ∧ l = [m] ∧ c = subCfg s m ∧ r = subGet s m ∧ (f.ndsCom = true ∨ (f.test = true ∧ c.test = false) ∨ r.stNum.any (fun k => f.stNum < k) = true)) ∧
    (let c : GsubCfg := subCfg ((goosePort.onNet (fun x => { x with subRun := [(3, { stNum := some 7, sqNum := 0, port := 3, stale := false, data := [.boolean true] })] }))) 3; let r : GsubRun := subGet ((goosePort.onNet (fun x => { x with subRun := [(3, { stNum := some 7, sqNum := 0, port := 3, stale := false, data := [.boolean true] })] }))) 3; let p : Fin 4 := 2; let f : GooseFrame := aGoose; let l : List Nat := [3]; let m : Nat := 3; let n : Nat := 500; let s : State := (goosePort.onNet (fun x => { x with subRun := [(3, { stNum := some 7, sqNum := 0, port := 3, stale := false, data := [.boolean true] })] })); let u : State := (goosePort.onNet (fun x => { x with subRun := [(3, { stNum := some 7, sqNum := 0, port := 3, stale := false, data := [.boolean true] })] })); portUp s p = true ∧ f.good = true ∧ l = (List.range 64).filter (fun i => (subCfg s i).on && bit (subCfg s i).ports p && (subCfg s i).dmac == f.dmac && (subCfg s i).appid == f.appid && (subCfg s i).names == fit 192 f.names && (subCfg s i).confRev == f.confRev) ∧ l = [m] ∧ c = subCfg s m ∧ r = subGet s m ∧ f.ndsCom = false ∧ (f.test = false ∨ c.test = true) ∧ r.stNum.any (fun k => f.stNum < k) = false ∧ ((u = if p.val < 2 then safeCopy p m f.data s else s)) ∧ r.stNum = some f.stNum ∧ f.sqNum ≤ r.sqNum ∧ (r.sqNum ≠ f.sqNum ∨ r.port = p.val ∨ r.at_ + c.dupWin < n)) ∧
    (let c : GsubCfg := subCfg ((goosePort.onNet (fun x => { x with subRun := [(3, { stNum := some 7, sqNum := 0, port := 3, stale := false, data := [.boolean true] })] }))) 3; let r : GsubRun := subGet ((goosePort.onNet (fun x => { x with subRun := [(3, { stNum := some 7, sqNum := 0, port := 3, stale := false, data := [.boolean true] })] }))) 3; let p : Fin 4 := 2; let f : GooseFrame := aGoose; let l : List Nat := [3]; let m : Nat := 3; let n : Nat := 0; let s : State := (goosePort.onNet (fun x => { x with subRun := [(3, { stNum := some 7, sqNum := 0, port := 3, stale := false, data := [.boolean true] })] })); let u : State := (goosePort.onNet (fun x => { x with subRun := [(3, { stNum := some 7, sqNum := 0, port := 3, stale := false, data := [.boolean true] })] })); portUp s p = true ∧ f.good = true ∧ l = (List.range 64).filter (fun i => (subCfg s i).on && bit (subCfg s i).ports p && (subCfg s i).dmac == f.dmac && (subCfg s i).appid == f.appid && (subCfg s i).names == fit 192 f.names && (subCfg s i).confRev == f.confRev) ∧ l = [m] ∧ c = subCfg s m ∧ r = subGet s m ∧ f.ndsCom = false ∧ (f.test = false ∨ c.test = true) ∧ r.stNum.any (fun k => f.stNum < k) = false ∧ ((u = if p.val < 2 then safeCopy p m f.data s else s)) ∧ r.stNum = some f.stNum ∧ f.sqNum = r.sqNum ∧ r.port ≠ p.val ∧ n ≤ r.at_ + c.dupWin ∧ (goosePlaces s m).all (fun i => f.data[i]? == r.data[i]?) = true) ∧
    (let c : GsubCfg := subCfg ((goosePort.onNet (fun x => { x with map := [(130, { on := true, src := 3, pos := 0 })], subRun := [(3, { stNum := some 7, sqNum := 0, port := 3, stale := false, data := [.boolean true] })] }))) 3; let r : GsubRun := subGet ((goosePort.onNet (fun x => { x with map := [(130, { on := true, src := 3, pos := 0 })], subRun := [(3, { stNum := some 7, sqNum := 0, port := 3, stale := false, data := [.boolean true] })] }))) 3; let p : Fin 4 := 2; let f : GooseFrame := { aGoose with data := [.boolean false] }; let l : List Nat := [3]; let m : Nat := 3; let n : Nat := 0; let s : State := (goosePort.onNet (fun x => { x with map := [(130, { on := true, src := 3, pos := 0 })], subRun := [(3, { stNum := some 7, sqNum := 0, port := 3, stale := false, data := [.boolean true] })] })); let u : State := (goosePort.onNet (fun x => { x with map := [(130, { on := true, src := 3, pos := 0 })], subRun := [(3, { stNum := some 7, sqNum := 0, port := 3, stale := false, data := [.boolean true] })] })); portUp s p = true ∧ f.good = true ∧ l = (List.range 64).filter (fun i => (subCfg s i).on && bit (subCfg s i).ports p && (subCfg s i).dmac == f.dmac && (subCfg s i).appid == f.appid && (subCfg s i).names == fit 192 f.names && (subCfg s i).confRev == f.confRev) ∧ l = [m] ∧ c = subCfg s m ∧ r = subGet s m ∧ f.ndsCom = false ∧ (f.test = false ∨ c.test = true) ∧ r.stNum.any (fun k => f.stNum < k) = false ∧ ((u = if p.val < 2 then safeCopy p m f.data s else s)) ∧ r.stNum = some f.stNum ∧ f.sqNum = r.sqNum ∧ r.port ≠ p.val ∧ n ≤ r.at_ + c.dupWin ∧ (goosePlaces s m).all (fun i => f.data[i]? == r.data[i]?) = false) ∧
    (let c : GsubCfg := subCfg (goosePort) 3; let r : GsubRun := subGet (goosePort) 3; let p : Fin 4 := 2; let f : GooseFrame := aGoose; let l : List Nat := [3]; let m : Nat := 3; let s : State := goosePort; let u : State := goosePort; portUp s p = true ∧ f.good = true ∧ l = (List.range 64).filter (fun i => (subCfg s i).on && bit (subCfg s i).ports p && (subCfg s i).dmac == f.dmac && (subCfg s i).appid == f.appid && (subCfg s i).names == fit 192 f.names && (subCfg s i).confRev == f.confRev) ∧ l = [m] ∧ c = subCfg s m ∧ r = subGet s m ∧ f.ndsCom = false ∧ (f.test = false ∨ c.test = true) ∧ r.stNum.any (fun k => f.stNum < k) = false ∧ ((u = if p.val < 2 then safeCopy p m f.data s else s)) ∧ (r.stNum ≠ some f.stNum ∨ r.sqNum < f.sqNum) ∧ (r.stale = false ∨ r.stNum = none)) ∧
    (let c : GsubCfg := subCfg ((goosePort.onNet (fun x => { x with subRun := [(3, { stNum := some 6, stale := true })] }))) 3; let r : GsubRun := subGet ((goosePort.onNet (fun x => { x with subRun := [(3, { stNum := some 6, stale := true })] }))) 3; let p : Fin 4 := 2; let f : GooseFrame := aGoose; let l : List Nat := [3]; let m : Nat := 3; let s : State := (goosePort.onNet (fun x => { x with subRun := [(3, { stNum := some 6, stale := true })] })); let u : State := (goosePort.onNet (fun x => { x with subRun := [(3, { stNum := some 6, stale := true })] })); portUp s p = true ∧ f.good = true ∧ l = (List.range 64).filter (fun i => (subCfg s i).on && bit (subCfg s i).ports p && (subCfg s i).dmac == f.dmac && (subCfg s i).appid == f.appid && (subCfg s i).names == fit 192 f.names && (subCfg s i).confRev == f.confRev) ∧ l = [m] ∧ c = subCfg s m ∧ r = subGet s m ∧ f.ndsCom = false ∧ (f.test = false ∨ c.test = true) ∧ r.stNum.any (fun k => f.stNum < k) = false ∧ ((u = if p.val < 2 then safeCopy p m f.data s else s)) ∧ (r.stNum ≠ some f.stNum ∨ r.sqNum < f.sqNum) ∧ r.stale = true ∧ r.stNum ≠ none) ∧
    (let p : Fin 4 := 2; let f : GooseFrame := aGoose; let s : State := inState .config; (portUp s p = false ∨ f.good = false)) ∧
    (let n : Fin 64 := 3; let s : State := goosePort.onNet (fun x => { x with subRun := [(3, { stale := false })] }); (subCfg s n).on = true ∧ (subGet s n).stale = false) ∧
    (let n : Fin 64 := 3; let s : State := inState .config; ((subCfg s n).on = false ∨ (subGet s n).stale = true)) ∧
    (let n : Nat := 3; let s : State := (inState .config).onNet (fun x => { x with pub := [(3, { on := true, entries := [0x04000000] })] }); n < 16 ∧ (∀ j, j < 16 → j ≠ n → (pubCfg s j).on = false) ∧ (pubCfg s n).on = true ∧ safeNames s true n = false ∧ ((pubGet s n).sent = false ∨ (pubGet s n).vals ≠ (pubEntries (pubCfg s n)).map (entryValue s))) ∧
    ((∀ n, n < 16 → (pubCfg (inState .config : State) n).on = false ∨ safeNames (inState .config : State) true n = true ∨ ((pubGet (inState .config : State) n).sent = true ∧ (pubGet (inState .config : State) n).vals = (pubEntries (pubCfg (inState .config : State) n)).map (entryValue (inState .config : State))))) ∧
    (let n : Fin 16 := 3; let m : Nat := 4; let s : State := (inState .config).onNet (fun x => { x with pub := [(3, { on := true })], pubRun := [(3, { sent := true, next := 2 })] }); m = min (2 * (pubGet s n).next) (pubCfg s n).tmax ∧ (pubCfg s n).on = true ∧ (pubGet s n).sent = true) ∧
    (let n : Fin 16 := 3; let s : State := inState .config; ((pubCfg s n).on = false ∨ (pubGet s n).sent = false)) ∧
    (let n : Fin 16 := 2; let q : Nat := 0; let p : Bytes := [1, 2]; let l : List (Nat × Bytes) := []; let d : DmaStream := { on := true, base := 4096, tail := 64, queue := [(0, [1, 2])] }; let s : State := dmaFull; d = dmaGet s n ∧ barOn s = true ∧ d.queue = (q, p) :: l ∧ d.irq = false) ∧
    (let n : Fin 16 := 2; let q : Nat := 0; let p : Bytes := [1, 2]; let l : List (Nat × Bytes) := []; let d : DmaStream := { on := true, irq := true, base := 4096, tail := 64, queue := [(0, [1, 2])] }; let s : State := dmaFull.onNet (fun x => { x with dma := [(2, { on := true, irq := true, base := 4096, tail := 64, queue := [(0, [1, 2])] })] }); d = dmaGet s n ∧ barOn s = true ∧ d.queue = (q, p) :: l ∧ d.irq = true) ∧
    (let n : Fin 16 := 2; let q : Nat := 0; let p : Bytes := [1, 2]; let l : List (Nat × Bytes) := []; let s : State := dmaFull.onNet (fun x => { x with dma := [(2, { on := true, base := 4096, tail := 64, queue := [(0, [1, 2])], winDrop := some 0 })] }); (dmaGet s n).queue = (q, p) :: l ∧ firstIn (dmaGet s n).winDrop s.tick.index = false) ∧
    (let n : Fin 16 := 2; let q : Nat := 0; let p : Bytes := [1, 2]; let l : List (Nat × Bytes) := []; let s : State := dmaFull; (dmaGet s n).queue = (q, p) :: l ∧ firstIn (dmaGet s n).winDrop s.tick.index = true) ∧
    (let n : Fin 16 := 2; let s : State := inState .config; (dmaGet s n).queue = []) ∧
    (let s : State := State.reset; barOn s = false) := by
  iterate 28 refine And.intro (by intros; decide +kernel +zetaReduce) ?_
  refine And.intro (by decide +kernel) ?_
  iterate 7 refine And.intro (by intros; decide +kernel +zetaReduce) ?_
  intros; decide +kernel +zetaReduce

set_option maxRecDepth 20000 in
/-- States and operands that meet the hypotheses of SafetyCommandsSealStopAndReset, clause by clause. -/
theorem test_witness_SafetyCommandsSealStopAndReset :
    (let c : Cmd := cmd 0 12 []; let s : State := inState .config; Serving s ∧ c.mb = 0 ∧ Inline c 12 ∧ c.u64 0 = 0 ∧ c.rsv 8 4 = true) ∧
    (let c : Cmd := cmd 0 12 [64]; let s : State := inState .config; Serving s ∧ c.mb = 0 ∧ Inline c 12 ∧ c.u64 0 % 64 = 0 ∧ c.u64 0 ≠ 0 ∧ c.rsv 8 4 = true) ∧
    (let c : Cmd := spbCmd; let p : Bytes := goodSpb; let s : State := ((inState .config).onSafe (fun y => { y with sw := 0x80 })); let v : State := sealUpdate ((((inState .config).onSafe (fun y => { y with sw := 0x80 }))).onSafe (fun y => { y with spb := goodSpb, sealBase := 0, vswUs := if rd goodSpb 7 1 = rd (mramSpb (((inState .config).onSafe (fun y => { y with sw := 0x80 })))) 7 1 then y.vswUs else some (((inState .config).onSafe (fun y => { y with sw := 0x80 }))).nowUs })); p = (c.params.drop 8).take 384 ∧ c.mb = 0 ∧ s.dev.state ∈ [.config, .standby, .blockedFault, .factoryTest] ∧ External c (fun n => n == 392) ∧ c.u8 0 = 1 ∧ c.rsv 2 2 = true ∧ spbZeros p = true ∧ spbOwn p = true ∧ spbCrc p = c.u32 4 ∧ (if noMpr s then s.power.tamper else (swNow s).getLsbD 7) = true ∧ v = sealUpdate (s.onSafe (fun y => { y with spb := p, sealBase := 0, vswUs := if rd p 7 1 = rd (mramSpb s) 7 1 then y.vswUs else some s.nowUs }))) ∧
    (let c : Cmd := spbCmd; let p : Bytes := goodSpb; let s : State := inState .config; p = (c.params.drop 8).take 384 ∧ c.mb = 0 ∧ s.dev.state ∈ [.config, .standby, .blockedFault, .factoryTest] ∧ External c (fun n => n == 392) ∧ c.u8 0 = 1 ∧ c.rsv 2 2 = true ∧ spbZeros p = true ∧ spbOwn p = true ∧ spbCrc p = c.u32 4 ∧ (if noMpr s then s.power.tamper else (swNow s).getLsbD 7) = false) ∧
    (let c : Cmd := extCmd 0 (1 :: List.replicate 391 0); let p : Bytes := List.replicate 384 0; let s : State := inState .config; p = (c.params.drop 8).take 384 ∧ Serving s ∧ c.isExt = true ∧ c.blockLen = 392 ∧ c.u8 0 = 1 ∧ (spbOwn p = false ∨ spbCrc p ≠ c.u32 4)) ∧
    (let c : Cmd := extCmd 0 (List.replicate 8 0); let s : State := inState .config; c.mb = 0 ∧ s.dev.state ∈ [.config, .standby, .blockedFault, .factoryTest] ∧ External c (fun n => n == 8) ∧ c.u8 0 = 0 ∧ c.rsv 2 2 = true ∧ sealRefusal (c.u8 1) (c.u32 4) s ≠ 0) ∧
    (let c : Cmd := sealCmd; let s : State := sealable; let v : State := sealUpdate (safeLoad ((sealable.onSafe (fun y => { y with sealBase := 1, booted := true, confSw := some (swNow sealable), confCrc := some (BitVec.ofNat 32 (rd (mramSpb sealable) 380 4)) })).onPower (fun p => { p with tamper := false }))); c.mb = 0 ∧ s.dev.state ∈ [.config, .standby, .blockedFault, .factoryTest] ∧ External c (fun n => n == 8) ∧ c.u8 0 = 0 ∧ c.rsv 2 2 = true ∧ sealRefusal (c.u8 1) (c.u32 4) s = 0 ∧ v = sealUpdate (safeLoad ((s.onSafe (fun y => { y with sealBase := 1, booted := true, confSw := some (swNow s), confCrc := some (BitVec.ofNat 32 (rd (mramSpb s) 380 4)) })).onPower (fun p => { p with tamper := false })))) ∧
    (let c : Cmd := cmd 0 36 (List.replicate 16 0 ++ [1, 0, 0, 0, 1, 0, 0, 0, 1, 0, 0, 0, 1, 0, 0, 0, 1]); let k : RampCfg := { on := bit ((cmd 0 36 (List.replicate 16 0 ++ [1, 0, 0, 0, 1, 0, 0, 0, 1, 0, 0, 0, 1, 0, 0, 0, 1])).u8 0) 0, useSel := bit ((cmd 0 36 (List.replicate 16 0 ++ [1, 0, 0, 0, 1, 0, 0, 0, 1, 0, 0, 0, 1, 0, 0, 0, 1])).u8 0) 1, tsel := (cmd 0 36 (List.replicate 16 0 ++ [1, 0, 0, 0, 1, 0, 0, 0, 1, 0, 0, 0, 1, 0, 0, 0, 1])).u16 2, target := (cmd 0 36 (List.replicate 16 0 ++ [1, 0, 0, 0, 1, 0, 0, 0, 1, 0, 0, 0, 1, 0, 0, 0, 1])).s32 4, vStart := (cmd 0 36 (List.replicate 16 0 ++ [1, 0, 0, 0, 1, 0, 0, 0, 1, 0, 0, 0, 1, 0, 0, 0, 1])).s32 8, vStop := (cmd 0 36 (List.replicate 16 0 ++ [1, 0, 0, 0, 1, 0, 0, 0, 1, 0, 0, 0, 1, 0, 0, 0, 1])).s32 12, v1 := (cmd 0 36 (List.replicate 16 0 ++ [1, 0, 0, 0, 1, 0, 0, 0, 1, 0, 0, 0, 1, 0, 0, 0, 1])).s32 16, a1 := (cmd 0 36 (List.replicate 16 0 ++ [1, 0, 0, 0, 1, 0, 0, 0, 1, 0, 0, 0, 1, 0, 0, 0, 1])).s32 20, aMax := (cmd 0 36 (List.replicate 16 0 ++ [1, 0, 0, 0, 1, 0, 0, 0, 1, 0, 0, 0, 1, 0, 0, 0, 1])).s32 24, dMax := (cmd 0 36 (List.replicate 16 0 ++ [1, 0, 0, 0, 1, 0, 0, 0, 1, 0, 0, 0, 1, 0, 0, 0, 1])).s32 28, d1 := (cmd 0 36 (List.replicate 16 0 ++ [1, 0, 0, 0, 1, 0, 0, 0, 1, 0, 0, 0, 1, 0, 0, 0, 1])).s32 32 }; let s : State := inState .config; k = { on := bit (c.u8 0) 0, useSel := bit (c.u8 0) 1, tsel := c.u16 2, target := c.s32 4, vStart := c.s32 8, vStop := c.s32 12, v1 := c.s32 16, a1 := c.s32 20, aMax := c.s32 24, dMax := c.s32 28, d1 := c.s32 32 } ∧ c.mb = 0 ∧ s.dev.state ∈ [.config, .standby, .deblocked, .blockedFault, .factoryTest] ∧ s.dev.role ∈ [.active, .standby] ∧ Inline c 36 ∧ isM2 s = false ∧ c.u8 0 < 4 ∧ c.rsv 1 1 = true ∧ tselOk s.tick.len k.tsel k.useSel = true ∧ 0 < k.v1 ∧ 0 ≤ k.vStart ∧ k.vStart ≤ k.v1 ∧ 0 ≤ k.vStop ∧ k.vStop ≤ k.v1 ∧ 0 < k.a1 ∧ 0 < k.aMax ∧ 0 < k.dMax ∧ 0 < k.d1) ∧
    (let c : Cmd := cmd 0 36 (List.replicate 16 0 ++ [1, 0, 0, 0, 1, 0, 0, 0, 1, 0, 0, 0, 1, 0, 0, 0, 1]); let s : State := asM2 (inState .config); Serving s ∧ c.mb = 0 ∧ Inline c 36 ∧ isM2 s = true) ∧
    (let c : Cmd := cmd 0 0 []; let s : State := inState .deblocked; c.mb = 0 ∧ s.dev.state = .deblocked ∧ s.dev.role ∈ [.active, .standby] ∧ Inline c 0 ∧ isM2 s = false ∧ swPermits s 1 = true ∧ held s .seal = false ∧ pendCount s c.mb < 8) ∧
    (let c : Cmd := cmd 0 0 []; let s : State := (inState .deblocked).onMb (fun m => { m with pend := [{ pendOf 0x0E04 with objs := [.seal] }] }); c.mb = 0 ∧ s.dev.state = .deblocked ∧ s.dev.role ∈ [.active, .standby] ∧ Inline c 0 ∧ isM2 s = false ∧ swPermits s 1 = true ∧ (held s .seal = true ∨ 8 ≤ pendCount s c.mb)) ∧
    (let c : Cmd := cmd 0 0 []; let s : State := ((inState .deblocked).onSafe (fun y => { y with cfg := some ⟨0, []⟩ })); c.mb = 0 ∧ s.dev.state = .deblocked ∧ s.dev.role ∈ [.active, .standby] ∧ Inline c 0 ∧ isM2 s = false ∧ swPermits s 1 = false) ∧
    (let c : Cmd := cmd 0 0 []; let s : State := asM2 (inState .deblocked); Serving s ∧ c.mb = 0 ∧ Inline c 0 ∧ isM2 s = true) ∧
    (let c : Cmd := cmd 0 0 []; let s : State := inState .config; let v : State := stoEnter 0 true (inState .config); Serving s ∧ c.mb = 0 ∧ Inline c 0 ∧ swPermits s 1 = true ∧ v = stoEnter 0 true s) ∧
    (let c : Cmd := cmd 0 0 []; let s : State := ((inState .config).onSafe (fun y => { y with cfg := some ⟨0, []⟩ })); Serving s ∧ c.mb = 0 ∧ Inline c 0 ∧ swPermits s 1 = false) ∧
    (let c : Cmd := cmd 0 0 []; let s : State := ((inState .config).onSafe (fun y => { y with cfg := some ⟨0, []⟩ })); c.mb = 0 ∧ s.dev.state ∈ [.config, .standby, .blockedFault, .factoryTest] ∧ Inline c 0 ∧ swPermits s 6 = false) ∧
    (let c : Cmd := cmd 0 0 []; let s : State := inState .config; c.mb = 0 ∧ s.dev.state ∈ [.config, .standby, .blockedFault, .factoryTest] ∧ Inline c 0 ∧ swPermits s 6 = true ∧ s.safe.sf ≠ .sto) ∧
    (let c : Cmd := cmd 0 0 []; let s : State := stoHeld; c.mb = 0 ∧ s.dev.state ∈ [.config, .standby, .blockedFault, .factoryTest] ∧ Inline c 0 ∧ swPermits s 6 = true ∧ s.safe.sf = .sto ∧ stoPresent s = true) ∧
    (((cmd 0 0 [] : Cmd).mb = 0) ∧ ((((inState .config).onSafe (fun y => { y with sf := .sto })) : State).dev.state ∈ [.config, .standby, .blockedFault, .factoryTest]) ∧ (Inline (cmd 0 0 [] : Cmd) 0) ∧ (swPermits (((inState .config).onSafe (fun y => { y with sf := .sto })) : State) 6 = true) ∧ ((((inState .config).onSafe (fun y => { y with sf := .sto })) : State).safe.sf = .sto) ∧ (stoPresent (((inState .config).onSafe (fun y => { y with sf := .sto })) : State) = false) ∧ ((safeEvent 0x0A [Config.openCode 0x150A 0] (((inState .config).onSafe (fun y => { y with sf := .sto })).onSafe (fun y => { y with sf := .idle, mLatch := false, req := false, causes := 0 })) : State) = safeEvent 0x0A [Config.openCode 0x150A 0] ((((inState .config).onSafe (fun y => { y with sf := .sto })) : State).onSafe (fun y => { y with sf := .idle, mLatch := false, req := false, causes := 0 })))) ∧
    (let c : Cmd := cmd 0 0 []; let s : State := inState .config; Serving s ∧ c.mb = 0 ∧ Inline c 0) := by
  iterate 18 refine And.intro (by intros; decide +kernel +zetaReduce) ?_
  refine And.intro (by and_intros <;> first | rfl | decide) ?_
  intros; decide +kernel +zetaReduce

set_option maxRecDepth 20000 in
/-- States and operands that meet the hypotheses of SafetyEventsSuperviseTheStop, clause by clause. -/
theorem test_witness_SafetyEventsSuperviseTheStop :
    (let s : State := State.reset.onDev (fun d => { d with state := .powerDown }); (mprOk s = false ∨ s.dev.state = .powerDown)) ∧
    (let v : Byte := 3; let s : State := inState .config; mprOk s = true ∧ s.dev.state ≠ .powerDown ∧ (¬(s.safe.swRead = some v ∧ (s.safe.swAcc = false ∨ s.safe.sw ≠ v)))) ∧
    (let v : Byte := 3; let s : State := (inState .config).onSafe (fun y => { y with swRead := some 3 }); mprOk s = true ∧ s.dev.state ≠ .powerDown ∧ ((s.safe.swRead = some v ∧ (s.safe.swAcc = false ∨ s.safe.sw ≠ v)))) ∧
    (let s : State := State.reset.onDev (fun d => { d with state := .powerDown }); s.dev.state = .powerDown) ∧
    (let r : PathCycle := ⟨true, false⟩; let s : State := inState .config; let u : State := loadAngle ((inState .config).onSafe (fun y => { y with q := (inState .config).safe.cfg.elim 0 (fun k => monQ (inState .config) k.spb false), overruns := if true then inc32 y.overruns else y.overruns })); s.dev.state ≠ .powerDown ∧ u = loadAngle (s.onSafe (fun y => { y with q := s.safe.cfg.elim 0 (fun k => monQ s k.spb false), overruns := if r.excess then inc32 y.overruns else y.overruns })) ∧ u.safe.sf ≠ .ss1) ∧
    (let r : PathCycle := ⟨false, false⟩; let p : Bytes := []; let q : Int := 0; let e : Int := envelope [] 0 0; let n : Nat := 0; let s : State := ((inState .safeStop).onSafe (fun y => { y with sf := .ss1, v := 1, cfg := some ⟨0, []⟩ })); let u : State := loadAngle ((((inState .safeStop).onSafe (fun y => { y with sf := .ss1, v := 1, cfg := some ⟨0, []⟩ }))).onSafe (fun y => { y with q := (((inState .safeStop).onSafe (fun y => { y with sf := .ss1, v := 1, cfg := some ⟨0, []⟩ }))).safe.cfg.elim 0 (fun k => monQ (((inState .safeStop).onSafe (fun y => { y with sf := .ss1, v := 1, cfg := some ⟨0, []⟩ }))) k.spb false), overruns := if false then inc32 y.overruns else y.overruns })); s.dev.state ≠ .powerDown ∧ u = loadAngle (s.onSafe (fun y => { y with q := s.safe.cfg.elim 0 (fun k => monQ s k.spb false), overruns := if r.excess then inc32 y.overruns else y.overruns })) ∧ u.safe.sf = .ss1 ∧ p = u.safe.cfg.elim [] (fun k => k.spb) ∧ q = u.safe.q0.getD u.safe.q ∧ n = u.nowUs - u.safe.t0Us ∧ e = envelope p q n ∧ ((e < u.safe.q ∨ (rd p 24 4 * 1000 ≤ n ∧ ¬(u.safe.v = 0 ∧ u.safe.q ≤ rdS p 20 4))))) ∧
    (let r : PathCycle := ⟨false, false⟩; let p : Bytes := []; let q : Int := 0; let e : Int := envelope [] 0 0; let n : Nat := 0; let s : State := ((inState .safeStop).onSafe (fun y => { y with sf := .ss1, stopCause := 0x20 })); let u : State := loadAngle ((((inState .safeStop).onSafe (fun y => { y with sf := .ss1, stopCause := 0x20 }))).onSafe (fun y => { y with q := (((inState .safeStop).onSafe (fun y => { y with sf := .ss1, stopCause := 0x20 }))).safe.cfg.elim 0 (fun k => monQ (((inState .safeStop).onSafe (fun y => { y with sf := .ss1, stopCause := 0x20 }))) k.spb false), overruns := if false then inc32 y.overruns else y.overruns })); s.dev.state ≠ .powerDown ∧ u = loadAngle (s.onSafe (fun y => { y with q := s.safe.cfg.elim 0 (fun k => monQ s k.spb false), overruns := if r.excess then inc32 y.overruns else y.overruns })) ∧ u.safe.sf = .ss1 ∧ p = u.safe.cfg.elim [] (fun k => k.spb) ∧ q = u.safe.q0.getD u.safe.q ∧ n = u.nowUs - u.safe.t0Us ∧ e = envelope p q n ∧ (¬(e < u.safe.q ∨ (rd p 24 4 * 1000 ≤ n ∧ ¬(u.safe.v = 0 ∧ u.safe.q ≤ rdS p 20 4)))) ∧ ((u.safe.v = 0 ∧ u.safe.q ≤ rdS p 20 4)) ∧ u.safe.stopCause = 0x20) ∧
    (let r : PathCycle := ⟨false, false⟩; let p : Bytes := []; let q : Int := 0; let e : Int := envelope [] 0 0; let n : Nat := 0; let s : State := ((inState .safeStop).onSafe (fun y => { y with sf := .ss1 })); let u : State := loadAngle ((((inState .safeStop).onSafe (fun y => { y with sf := .ss1 }))).onSafe (fun y => { y with q := (((inState .safeStop).onSafe (fun y => { y with sf := .ss1 }))).safe.cfg.elim 0 (fun k => monQ (((inState .safeStop).onSafe (fun y => { y with sf := .ss1 }))) k.spb false), overruns := if false then inc32 y.overruns else y.overruns })); s.dev.state ≠ .powerDown ∧ u = loadAngle (s.onSafe (fun y => { y with q := s.safe.cfg.elim 0 (fun k => monQ s k.spb false), overruns := if r.excess then inc32 y.overruns else y.overruns })) ∧ u.safe.sf = .ss1 ∧ p = u.safe.cfg.elim [] (fun k => k.spb) ∧ q = u.safe.q0.getD u.safe.q ∧ n = u.nowUs - u.safe.t0Us ∧ e = envelope p q n ∧ (¬(e < u.safe.q ∨ (rd p 24 4 * 1000 ≤ n ∧ ¬(u.safe.v = 0 ∧ u.safe.q ≤ rdS p 20 4)))) ∧ ((u.safe.v = 0 ∧ u.safe.q ≤ rdS p 20 4)) ∧ u.safe.stopCause ≠ 0x20) ∧
    (let r : PathCycle := ⟨false, false⟩; let p : Bytes := fit 24 [] ++ le 4 10; let q : Int := 0; let e : Int := envelope (fit 24 [] ++ le 4 10) 0 0; let n : Nat := 0; let s : State := ((inState .safeStop).onSafe (fun y => { y with sf := .ss1, v := 1, cfg := some ⟨0, fit 24 [] ++ le 4 10⟩ })); let u : State := loadAngle ((((inState .safeStop).onSafe (fun y => { y with sf := .ss1, v := 1, cfg := some ⟨0, fit 24 [] ++ le 4 10⟩ }))).onSafe (fun y => { y with q := (((inState .safeStop).onSafe (fun y => { y with sf := .ss1, v := 1, cfg := some ⟨0, fit 24 [] ++ le 4 10⟩ }))).safe.cfg.elim 0 (fun k => monQ (((inState .safeStop).onSafe (fun y => { y with sf := .ss1, v := 1, cfg := some ⟨0, fit 24 [] ++ le 4 10⟩ }))) k.spb false), overruns := if false then inc32 y.overruns else y.overruns })); s.dev.state ≠ .powerDown ∧ u = loadAngle (s.onSafe (fun y => { y with q := s.safe.cfg.elim 0 (fun k => monQ s k.spb false), overruns := if r.excess then inc32 y.overruns else y.overruns })) ∧ u.safe.sf = .ss1 ∧ p = u.safe.cfg.elim [] (fun k => k.spb) ∧ q = u.safe.q0.getD u.safe.q ∧ n = u.nowUs - u.safe.t0Us ∧ e = envelope p q n ∧ (¬(e < u.safe.q ∨ (rd p 24 4 * 1000 ≤ n ∧ ¬(u.safe.v = 0 ∧ u.safe.q ≤ rdS p 20 4)))) ∧ (¬(u.safe.v = 0 ∧ u.safe.q ≤ rdS p 20 4))) ∧
    (let s : State := (inState .deblocked).onSafe (fun y => { y with req := true, sf := .sto }); (s.dev.state = .safeStop ∨ s.dev.state = .deblocked) ∧ s.safe.cfg = none ∧ s.safe.sf ≠ .ss1 ∧ s.safe.req = true) ∧
    (let s : State := inState .config; (s.safe.mcfg = none ∨ mprOk s = false)) ∧
    (let k : SafeCfg := ⟨8, []⟩; let s : State := ((inState .config).onSafe (fun y => { y with mcfg := some ⟨8, []⟩ })).onPwm (fun p => { p with active := 1 }); let u : State := mordantBlock 2 (((inState .config).onSafe (fun y => { y with mcfg := some ⟨8, []⟩ })).onPwm (fun p => { p with active := 1 })); s.safe.mcfg = some k ∧ mprOk s = true ∧ ((u = if (k.sw.getLsbD 3 = true ∧ s.pwm.active.getLsbD (rd k.spb 6 1) = true ∧ s.safe.mLatch = false) then mordantBlock 2 s else s)) ∧ (u.safe.mStop = false ∨ u.dev.state ≠ .safeStop)) ∧
    (let k : SafeCfg := ⟨0, fit 24 [] ++ le 4 10⟩; let q : Int := 0; let z : Int := 0; let e : Int := envelope (fit 24 [] ++ le 4 10) 0 10; let t : Nat := 10; let n : Nat := 0; let s : State := ((inState .safeStop).onSafe (fun y => { y with mcfg := some ⟨0, fit 24 [] ++ le 4 10⟩, mStop := true })); let u : State := ((inState .safeStop).onSafe (fun y => { y with mcfg := some ⟨0, fit 24 [] ++ le 4 10⟩, mStop := true })); s.safe.mcfg = some k ∧ mprOk s = true ∧ ((u = if (k.sw.getLsbD 3 = true ∧ s.pwm.active.getLsbD (rd k.spb 6 1) = true ∧ s.safe.mLatch = false) then mordantBlock 2 s else s)) ∧ u.safe.mStop = true ∧ u.dev.state = .safeStop ∧ q = monQ u k.spb true ∧ z = u.safe.mq0.getD q ∧ t = u.safe.mUs + 10 ∧ e = envelope k.spb z t ∧ ((n = if e < q then u.safe.mOver + 1 else 0)) ∧ n < 2 ∧ t < rd k.spb 24 4 * 1000) ∧
    (let k : SafeCfg := ⟨0, []⟩; let q : Int := 0; let z : Int := 0; let e : Int := envelope [] 0 10; let t : Nat := 10; let n : Nat := 0; let s : State := ((inState .safeStop).onSafe (fun y => { y with mcfg := some ⟨0, []⟩, mStop := true })); let u : State := ((inState .safeStop).onSafe (fun y => { y with mcfg := some ⟨0, []⟩, mStop := true })); s.safe.mcfg = some k ∧ mprOk s = true ∧ ((u = if (k.sw.getLsbD 3 = true ∧ s.pwm.active.getLsbD (rd k.spb 6 1) = true ∧ s.safe.mLatch = false) then mordantBlock 2 s else s)) ∧ u.safe.mStop = true ∧ u.dev.state = .safeStop ∧ q = monQ u k.spb true ∧ z = u.safe.mq0.getD q ∧ t = u.safe.mUs + 10 ∧ e = envelope k.spb z t ∧ ((n = if e < q then u.safe.mOver + 1 else 0)) ∧ (2 ≤ n ∨ rd k.spb 24 4 * 1000 ≤ t)) ∧
    (let s : State := inState .config; mprOk s = true ∧ s.safe.suspend = false ∧ s.safe.beatLost = false ∧ running s = false) ∧
    (let s : State := inState .deblocked; mprOk s = true ∧ s.safe.suspend = false ∧ s.safe.beatLost = false ∧ running s = true) ∧
    (let s : State := (inState .config).onSafe (fun y => { y with suspend := true }); (mprOk s = false ∨ s.safe.suspend = true ∨ s.safe.beatLost = true)) ∧
    (let n : Fin 16 := 2; let s : State := inState .config; copyPair (tget [] s.net.copies n) = none) ∧
    (let n : Fin 16 := 0; let a : SafeCopy := ⟨0, goodPdu⟩; let b : SafeCopy := ⟨1, goodPdu⟩; let s : State := (inState .config).onNet (fun x => { x with copies := [(0, [⟨0, goodPdu⟩, ⟨1, goodPdu⟩])] }); copyPair (tget [] s.net.copies n) = some (a, b) ∧ safeNet s = none) ∧
    (let n : Fin 16 := 1; let a : SafeCopy := ⟨0, goodPdu⟩; let b : SafeCopy := ⟨1, goodPdu⟩; let p : Bytes := rxSpb; let s : State := twoCopies.onNet (fun x => { x with copies := [(1, [⟨0, goodPdu⟩, ⟨1, goodPdu⟩])] }); copyPair (tget [] s.net.copies n) = some (a, b) ∧ safeNet s = some p ∧ rxOn p n = false) ∧
    (let n : Fin 16 := 0; let a : SafeCopy := ⟨0, goodPdu⟩; let b : SafeCopy := ⟨1, goodPdu⟩; let p : Bytes := rxSpb; let s : State := twoCopies; copyPair (tget [] s.net.copies n) = some (a, b) ∧ safeNet s = some p ∧ rxOn p n = true ∧ a.pdu = b.pdu ∧ ((pduCrc (rd p (64 + 8 * n.val) 4) a.pdu = rd a.pdu 28 4 ∧ a.pdu.length = 32 ∧ seqNewer (pduSeq a.pdu) (tget {} s.safe.rx n : RxConn).seq = true))) ∧
    (let n : Fin 16 := 0; let a : SafeCopy := ⟨0, []⟩; let b : SafeCopy := ⟨1, []⟩; let p : Bytes := rxSpb; let s : State := twoCopies.onNet (fun x => { x with copies := [(0, [⟨0, []⟩, ⟨1, []⟩])] }); copyPair (tget [] s.net.copies n) = some (a, b) ∧ safeNet s = some p ∧ rxOn p n = true ∧ a.pdu = b.pdu ∧ (¬(pduCrc (rd p (64 + 8 * n.val) 4) a.pdu = rd a.pdu 28 4 ∧ a.pdu.length = 32 ∧ seqNewer (pduSeq a.pdu) (tget {} s.safe.rx n : RxConn).seq = true))) ∧
    (let n : Fin 16 := 0; let a : SafeCopy := ⟨0, goodPdu⟩; let b : SafeCopy := ⟨1, []⟩; let p : Bytes := rxSpb; let s : State := twoCopies.onNet (fun x => { x with copies := [(0, [⟨0, goodPdu⟩, ⟨1, []⟩])] }); copyPair (tget [] s.net.copies n) = some (a, b) ∧ safeNet s = some p ∧ rxOn p n = true ∧ a.pdu ≠ b.pdu) ∧
    (let n : Fin 16 := 0; let a : SafeCopy := ⟨0, []⟩; let l : List SafeCopy := []; let s : State := (inState .config).onNet (fun x => { x with copies := [(0, [⟨0, []⟩])] }); tget [] s.net.copies n = a :: l ∧ l.any (fun b => b.port != a.port && pduSeq b.pdu == pduSeq a.pdu) = false) ∧
    (let n : Fin 16 := 0; let a : SafeCopy := ⟨0, goodPdu⟩; let l : List SafeCopy := [⟨1, goodPdu⟩]; let s : State := twoCopies; tget [] s.net.copies n = a :: l ∧ l.any (fun b => b.port != a.port && pduSeq b.pdu == pduSeq a.pdu) = true) ∧
    ((tget [] (inState .config : State).net.copies (0 : Fin 16) = [])) ∧
    (let n : Fin 16 := 0; let p : Bytes := txSpb; let x : TxConn := {}; let g : Nat := 2; let s : State := txOnState; safeNet s = some p ∧ x = tget {} s.safe.tx n ∧ txOn p n = true ∧ (pubCfg s (txPub p n)).on = true ∧ g = (pubCfg s (txPub p n)).tmin) ∧
    (let n : Fin 16 := 0; let p : Bytes := txSpb; let x : TxConn := {}; let s : State := (txOnState).onNet (fun y => { y with pub := [] }); safeNet s = some p ∧ x = tget {} s.safe.tx n ∧ txOn p n = true ∧ (pubCfg s (txPub p n)).on = false) ∧
    (let s : State := inState .config; safeNet s = none) ∧
    (let n : Fin 16 := 1; let p : Bytes := txSpb; let s : State := txOnState; safeNet s = some p ∧ txOn p n = false) ∧
    (let n : Fin 16 := 1; let p : Bytes := txSpb; let s : State := txOnState; safeNet s = some p ∧ (rxOn p n = false ∨ (tget {} s.safe.rx n : RxConn).runs = false ∨ (tget {} s.safe.rx n : RxConn).expired = true)) ∧
    (let n : Fin 16 := 0; let p : Bytes := (withCrc (fit 380 (List.replicate 64 0 ++ le 4 5 ++ le 2 100 ++ [0x21, 0]))); let k : RxConn := { runs := true }; let s : State := ((inState .config).onSafe (fun y => { y with cfg := some ⟨4, (withCrc (fit 380 (List.replicate 64 0 ++ le 4 5 ++ le 2 100 ++ [0x21, 0])))⟩, rx := [(0, { runs := true })] })); let u : State := safeEventAt 0x06 0 [] (((inState .config).onSafe (fun y => { y with cfg := some ⟨4, (withCrc (fit 380 (List.replicate 64 0 ++ le 4 5 ++ le 2 100 ++ [0x21, 0])))⟩, rx := [(0, { runs := true })] })).onSafe (fun y => { y with rx := tset y.rx 0 { runs := true, expired := true } })); safeNet s = some p ∧ k = tget {} s.safe.rx n ∧ rxOn p n = true ∧ k.runs = true ∧ k.expired = false ∧ u = safeEventAt 0x06 n [] (s.onSafe (fun y => { y with rx := tset y.rx n { k with expired := true } })) ∧ rxFlags p n % 4 = 1) ∧
    (let n : Fin 16 := 0; let p : Bytes := (withCrc (fit 380 (List.replicate 64 0 ++ le 4 5 ++ le 2 100 ++ [0x22, 0]))); let k : RxConn := { runs := true }; let s : State := ((inState .config).onSafe (fun y => { y with cfg := some ⟨4, (withCrc (fit 380 (List.replicate 64 0 ++ le 4 5 ++ le 2 100 ++ [0x22, 0])))⟩, rx := [(0, { runs := true })] })); let u : State := safeEventAt 0x06 0 [] (((inState .config).onSafe (fun y => { y with cfg := some ⟨4, (withCrc (fit 380 (List.replicate 64 0 ++ le 4 5 ++ le 2 100 ++ [0x22, 0])))⟩, rx := [(0, { runs := true })] })).onSafe (fun y => { y with rx := tset y.rx 0 { runs := true, expired := true } })); safeNet s = some p ∧ k = tget {} s.safe.rx n ∧ rxOn p n = true ∧ k.runs = true ∧ k.expired = false ∧ u = safeEventAt 0x06 n [] (s.onSafe (fun y => { y with rx := tset y.rx n { k with expired := true } })) ∧ rxFlags p n % 4 = 2) ∧
    (let n : Fin 16 := 0; let p : Bytes := (withCrc (fit 380 (List.replicate 64 0 ++ le 4 5 ++ le 2 100 ++ [0x20, 0]))); let k : RxConn := { runs := true }; let s : State := ((inState .config).onSafe (fun y => { y with cfg := some ⟨4, (withCrc (fit 380 (List.replicate 64 0 ++ le 4 5 ++ le 2 100 ++ [0x20, 0])))⟩, rx := [(0, { runs := true })] })); let u : State := safeEventAt 0x06 0 [] (((inState .config).onSafe (fun y => { y with cfg := some ⟨4, (withCrc (fit 380 (List.replicate 64 0 ++ le 4 5 ++ le 2 100 ++ [0x20, 0])))⟩, rx := [(0, { runs := true })] })).onSafe (fun y => { y with rx := tset y.rx 0 { runs := true, expired := true } })); safeNet s = some p ∧ k = tget {} s.safe.rx n ∧ rxOn p n = true ∧ k.runs = true ∧ k.expired = false ∧ u = safeEventAt 0x06 n [] (s.onSafe (fun y => { y with rx := tset y.rx n { k with expired := true } })) ∧ rxFlags p n % 4 ≠ 1 ∧ rxFlags p n % 4 ≠ 2) := by
  iterate 25 refine And.intro (by intros; decide +kernel +zetaReduce) ?_
  refine And.intro (by and_intros <;> first | rfl | decide) ?_
  iterate 7 refine And.intro (by intros; decide +kernel +zetaReduce) ?_
  intros; decide +kernel +zetaReduce

set_option maxRecDepth 20000 in
/-- States and operands that meet the hypotheses of FaultCommandsMaskAndReadTheColophon, clause by clause. -/
theorem test_witness_FaultCommandsMaskAndReadTheColophon :
    (let c : Cmd := cmd 1 8 [0x10, 0, 1, 0]; let s : State := inState .config; Serving s ∧ c.mb ≠ 0 ∧ Inline c 8 ∧ c.rsv 4 4 = true ∧ (kindRuns (c.u16 0)).isSome = true ∧ (c.u8 2 = 0xFF ∨ kindClasses (c.u16 0) (c.u8 2) ≠ []) ∧ c.u8 3 = 0) ∧
    (let c : Cmd := cmd 1 8 [2, 0, 1, 1]; let s : State := inState .config; Serving s ∧ c.mb ≠ 0 ∧ Inline c 8 ∧ c.rsv 4 4 = true ∧ (kindRuns (c.u16 0)).isSome = true ∧ (c.u8 2 = 0xFF ∨ kindClasses (c.u16 0) (c.u8 2) ≠ []) ∧ c.u8 3 = 1 ∧ (if c.u8 2 = 0xFF then (List.range 0xFF).any (fatalKind (c.u16 0)) else fatalKind (c.u16 0) (c.u8 2)) = true) ∧
    (let c : Cmd := cmd 1 8 [0x10, 0, 1, 1]; let s : State := (inState .config).onFault (fun f => { f with masks := [(0x10, 1)] }); Serving s ∧ c.mb ≠ 0 ∧ Inline c 8 ∧ c.rsv 4 4 = true ∧ (kindRuns (c.u16 0)).isSome = true ∧ (c.u8 2 = 0xFF ∨ kindClasses (c.u16 0) (c.u8 2) ≠ []) ∧ c.u8 3 = 1 ∧ (if c.u8 2 = 0xFF then (List.range 0xFF).any (fatalKind (c.u16 0)) else fatalKind (c.u16 0) (c.u8 2)) = false ∧ s.fault.masks.contains (c.u16 0, c.u8 2) = true) ∧
    (let c : Cmd := cmd 1 8 [0x10, 0, 1, 1]; let s : State := inState .config; Serving s ∧ c.mb ≠ 0 ∧ Inline c 8 ∧ c.rsv 4 4 = true ∧ (kindRuns (c.u16 0)).isSome = true ∧ (c.u8 2 = 0xFF ∨ kindClasses (c.u16 0) (c.u8 2) ≠ []) ∧ c.u8 3 = 1 ∧ (if c.u8 2 = 0xFF then (List.range 0xFF).any (fatalKind (c.u16 0)) else fatalKind (c.u16 0) (c.u8 2)) = false ∧ s.fault.masks.contains (c.u16 0, c.u8 2) = false ∧ s.fault.masks.length < 64) ∧
    (let c : Cmd := cmd 1 8 [0x10, 0, 1, 1]; let s : State := (inState .config).onFault (fun f => { f with masks := (List.range 64).map (fun n => (n + 1000, 0)) }); Serving s ∧ c.mb ≠ 0 ∧ Inline c 8 ∧ c.rsv 4 4 = true ∧ (kindRuns (c.u16 0)).isSome = true ∧ (c.u8 2 = 0xFF ∨ kindClasses (c.u16 0) (c.u8 2) ≠ []) ∧ c.u8 3 = 1 ∧ (if c.u8 2 = 0xFF then (List.range 0xFF).any (fatalKind (c.u16 0)) else fatalKind (c.u16 0) (c.u8 2)) = false ∧ s.fault.masks.contains (c.u16 0, c.u8 2) = false ∧ 64 ≤ s.fault.masks.length) ∧
    (let c : Cmd := cmd 1 12 [0, 0, 0, 0, 64]; let s : State := inState .config; Serving s ∧ c.mb ≠ 0 ∧ Inline c 12 ∧ c.u8 0 = 0 ∧ c.rsv 1 3 = true ∧ c.buf 4 = true) ∧
    (let c : Cmd := cmd 1 12 [1, 0, 0, 0, 64]; let k : Colophon := {}; let s : State := (inState .config).onFault (fun f => { f with colCopy := some {} }); Serving s ∧ c.mb ≠ 0 ∧ Inline c 12 ∧ c.u8 0 = 1 ∧ c.rsv 1 3 = true ∧ c.buf 4 = true ∧ s.fault.colCopy = some k) ∧
    (let c : Cmd := cmd 1 12 [1, 0, 0, 0, 64]; let s : State := inState .config; Serving s ∧ c.mb ≠ 0 ∧ Inline c 12 ∧ c.u8 0 = 1 ∧ c.rsv 1 3 = true ∧ c.buf 4 = true ∧ s.fault.colCopy = none) ∧
    (let c : Cmd := cmd 1 4 [6, 1]; let s : State := inState .config; Serving s ∧ c.mb ≠ 0 ∧ Inline c 4 ∧ c.u8 0 ≠ 0 ∧ c.u8 0 % 2 = 0 ∧ c.u8 0 < 16 ∧ c.u8 1 < 2 ∧ c.rsv 2 2 = true) ∧
    (let c : Cmd := cmd 1 0 []; let s : State := inState .config; Serving s ∧ Inline c 0) ∧
    (let c : Cmd := cmd 1 16 [0, 0, 0x10, 0, 1, 0]; let x : FClass := .notice; let m : FaultMsg := { die := 0, block := 0x10, kind := 1, cls := .notice, addr := 0, tick := 0, d := [], injected := true, interim := false }; let s : State := withFtest (inState .factoryTest); m = { die := c.u8 1, block := c.u16 2, kind := c.u8 4, cls := x, addr := c.u32 8, tick := s.tick.index, d := [], injected := true, interim := false } ∧ s.dev.state = .factoryTest ∧ s.power.straps.ftest = true ∧ Inline c 16 ∧ c.mb ≠ 0 ∧ c.u8 1 < 8 ∧ c.u8 6 < 2 ∧ c.rsv 7 1 = true ∧ c.rsv 12 4 = true ∧ dieOk s (c.u8 1) = true ∧ c.u8 0 = 0 ∧ (kindClasses (c.u16 2) (c.u8 4)).find? (fun y => y.code == c.u8 5) = some x ∧ x ≠ .fatal) ∧
    (let c : Cmd := cmd 1 16 [0, 0, 2, 0, 1, 3]; let m : FaultMsg := { die := 0, block := 2, kind := 1, cls := .fatal, addr := 0, tick := 0, d := [], injected := true, interim := false }; let s : State := withFtest (inState .factoryTest); m = { die := c.u8 1, block := c.u16 2, kind := c.u8 4, cls := .fatal, addr := c.u32 8, tick := s.tick.index, d := [], injected := true, interim := false } ∧ s.dev.state = .factoryTest ∧ s.power.straps.ftest = true ∧ Inline c 16 ∧ c.mb ≠ 0 ∧ c.u8 1 < 8 ∧ c.u8 6 < 2 ∧ c.rsv 7 1 = true ∧ c.rsv 12 4 = true ∧ dieOk s (c.u8 1) = true ∧ c.u8 0 = 0 ∧ (kindClasses (c.u16 2) (c.u8 4)).find? (fun y => y.code == c.u8 5) = some .fatal) ∧
    (let c : Cmd := cmd 1 16 [2, 0, 2, 0, 1, 3]; let m : FaultMsg := { die := 0, block := 2, kind := 1, cls := .fatal, addr := 0, tick := 0, d := [], injected := true, interim := false }; let s : State := withFtest (inState .factoryTest); m = { die := c.u8 1, block := c.u16 2, kind := c.u8 4, cls := .fatal, addr := c.u32 8, tick := s.tick.index, d := [], injected := true, interim := false } ∧ s.dev.state = .factoryTest ∧ s.power.straps.ftest = true ∧ Inline c 16 ∧ c.mb ≠ 0 ∧ c.u8 1 < 8 ∧ c.u8 6 < 2 ∧ c.rsv 7 1 = true ∧ c.rsv 12 4 = true ∧ dieOk s (c.u8 1) = true ∧ c.u8 0 = 2 ∧ (kindClasses (c.u16 2) (c.u8 4)).find? (fun y => y.code == c.u8 5) = some .fatal) ∧
    (let c : Cmd := cmd 1 16 ([1, 1] ++ le 2 36 ++ [0, 0, 0, 0]); let s : State := withFtest (inState .factoryTest); s.dev.state = .factoryTest ∧ s.power.straps.ftest = true ∧ Inline c 16 ∧ c.mb ≠ 0 ∧ c.u8 1 < 8 ∧ c.u8 6 < 2 ∧ c.rsv 7 1 = true ∧ c.rsv 12 4 = true ∧ dieOk s (c.u8 1) = true ∧ c.u8 0 = 1 ∧ (kindRuns (c.u16 2)).isSome = true ∧ c.u8 6 = 0) ∧
    (let c : Cmd := cmd 1 16 ([1, 0] ++ le 2 8 ++ [0, 0, 1, 0]); let s : State := withFtest (inState .factoryTest); s.dev.state = .factoryTest ∧ s.power.straps.ftest = true ∧ Inline c 16 ∧ c.mb ≠ 0 ∧ c.u8 1 < 8 ∧ c.u8 6 < 2 ∧ c.rsv 7 1 = true ∧ c.rsv 12 4 = true ∧ dieOk s (c.u8 1) = true ∧ c.u8 0 = 1 ∧ (kindRuns (c.u16 2)).isSome = true ∧ c.u8 6 = 1 ∧ fatalOwner (c.u16 2) = true) ∧
    (let c : Cmd := cmd 1 16 ([1, 3] ++ le 2 58 ++ [0, 0, 1, 0]); let s : State := withFtest (inState .factoryTest); s.dev.state = .factoryTest ∧ s.power.straps.ftest = true ∧ Inline c 16 ∧ c.mb ≠ 0 ∧ c.u8 1 < 8 ∧ c.u8 6 < 2 ∧ c.rsv 7 1 = true ∧ c.rsv 12 4 = true ∧ dieOk s (c.u8 1) = true ∧ c.u8 0 = 1 ∧ (kindRuns (c.u16 2)).isSome = true ∧ c.u8 6 = 1 ∧ c.u16 2 = 0x03A) ∧
    (let c : Cmd := cmd 1 16 ([1, 1] ++ le 2 36 ++ [0, 0, 1, 0]); let s : State := withFtest (inState .factoryTest); s.dev.state = .factoryTest ∧ s.power.straps.ftest = true ∧ Inline c 16 ∧ c.mb ≠ 0 ∧ c.u8 1 < 8 ∧ c.u8 6 < 2 ∧ c.rsv 7 1 = true ∧ c.rsv 12 4 = true ∧ dieOk s (c.u8 1) = true ∧ c.u8 0 = 1 ∧ (kindRuns (c.u16 2)).isSome = true ∧ c.u8 6 = 1 ∧ fatalOwner (c.u16 2) = false ∧ c.u16 2 ≠ 0x03A) ∧
    (let c : Cmd := cmd 1 16 [0, 3, 0x10, 0, 1, 0]; let s : State := lacksMpr (withFtest (inState .factoryTest)); s.dev.state = .factoryTest ∧ s.power.straps.ftest = true ∧ Inline c 16 ∧ c.mb ≠ 0 ∧ c.u8 1 < 8 ∧ c.u8 6 < 2 ∧ c.rsv 7 1 = true ∧ c.rsv 12 4 = true ∧ dieOk s (c.u8 1) = false) := by
  iterate 17 refine And.intro (by intros; decide +kernel +zetaReduce) ?_
  intros; decide +kernel +zetaReduce

set_option maxRecDepth 20000 in
/-- States and operands that meet the hypotheses of FaultEventsReachTheCollector, clause by clause. -/
theorem test_witness_FaultEventsReachTheCollector :
    (let s : State := (inState .config).onFault (fun f => { f with waiting := [] }); s.fault.waiting = []) ∧
    (let m : FaultMsg := aMsg; let l : List FaultMsg := []; let s : State := ((inState .config).onFault (fun f => { f with waiting := [aMsg] })); let v : State := arrive aMsg (((inState .config).onFault (fun f => { f with waiting := [aMsg] })).onFault (fun f => { f with waiting := [] })); s.fault.waiting = m :: l ∧ v = arrive m (s.onFault (fun f => { f with waiting := l })) ∧ (tget 0 v.fault.merged (m.die * 512 + m.block) = 0 ∨ l.any (fun x => x.die == m.die && x.block == m.block) = true)) ∧
    (let m : FaultMsg := aMsg; let l : List FaultMsg := []; let k : Nat := 16; let n : Nat := 3; let s : State := ((inState .config).onFault (fun f => { f with waiting := [aMsg], merged := [(16, 3)] })); let v : State := arrive aMsg (((inState .config).onFault (fun f => { f with waiting := [aMsg], merged := [(16, 3)] })).onFault (fun f => { f with waiting := [] })); s.fault.waiting = m :: l ∧ v = arrive m (s.onFault (fun f => { f with waiting := l })) ∧ k = m.die * 512 + m.block ∧ n = tget 0 v.fault.merged k ∧ n ≠ 0 ∧ l.any (fun x => x.die == m.die && x.block == m.block) = false) ∧
    (let d : Nat := 0; let b : Nat := 2; let k : Nat := 1; let s : State := inState .config; fatalKind b k = true ∧ dieOk s d = true ∧ s.dev.state ≠ .powerDown) ∧
    (let d : Nat := 0; let b : Nat := 2; let k : Nat := 3; let s : State := inState .config; (fatalKind b k = false ∨ dieOk s d = false ∨ s.dev.state = .powerDown)) ∧
    (let e : EvEntry := anEntry; let l : List EvEntry := []; let s : State := (backlogged.onFault (fun x => { x with ctrl := 3 })); let v : State := when ((backlogged.onFault (fun x => { x with ctrl := 3 })).fault.ctrl.getLsbD 1 && barOn (backlogged.onFault (fun x => { x with ctrl := 3 }))) (fun t => t.onMb (fun m => { m with msix := 8 :: m.msix })) ((backlogged.onFault (fun x => { x with ctrl := 3 })).onFault (fun x => { x with backlog := [], window := tset x.window (x.tail.toNat % 64) anEntry, tail := x.tail + 1 })); s.fault.backlog = e :: l ∧ s.fault.ctrl.getLsbD 0 = true ∧ (s.fault.tail - s.fault.head).toNat < 64 ∧ v = when (s.fault.ctrl.getLsbD 1 && barOn s) (fun t => t.onMb (fun m => { m with msix := 8 :: m.msix })) (s.onFault (fun x => { x with backlog := l, window := tset x.window (x.tail.toNat % 64) e, tail := x.tail + 1 })) ∧ (s.fault.lostRun = 0 ∨ 512 ≤ l.length)) ∧
    (let e : EvEntry := anEntry; let l : List EvEntry := []; let s : State := (backlogged.onFault (fun x => { x with lostRun := 2 })); let v : State := when ((backlogged.onFault (fun x => { x with lostRun := 2 })).fault.ctrl.getLsbD 1 && barOn (backlogged.onFault (fun x => { x with lostRun := 2 }))) (fun t => t.onMb (fun m => { m with msix := 8 :: m.msix })) ((backlogged.onFault (fun x => { x with lostRun := 2 })).onFault (fun x => { x with backlog := [], window := tset x.window (x.tail.toNat % 64) anEntry, tail := x.tail + 1 })); s.fault.backlog = e :: l ∧ s.fault.ctrl.getLsbD 0 = true ∧ (s.fault.tail - s.fault.head).toNat < 64 ∧ v = when (s.fault.ctrl.getLsbD 1 && barOn s) (fun t => t.onMb (fun m => { m with msix := 8 :: m.msix })) (s.onFault (fun x => { x with backlog := l, window := tset x.window (x.tail.toNat % 64) e, tail := x.tail + 1 })) ∧ 0 < s.fault.lostRun ∧ l.length < 512) ∧
    (let e : EvEntry := anEntry; let l : List EvEntry := []; let s : State := (inState .config).onFault (fun f => { f with backlog := [anEntry] }); s.fault.backlog = e :: l ∧ (s.fault.ctrl.getLsbD 0 = false ∨ 64 ≤ (s.fault.tail - s.fault.head).toNat)) ∧
    (let s : State := inState .config; s.fault.backlog = []) ∧
    (let k : Colophon := { State.reset.fault.col with state := .frozen, tick := 1000000 }; let s : State := ((inState .config).onFault (fun f => { f with col := { f.col with state := .filling } })).onTick (fun t => { t with index := 1000000 }); s.fault.col.state = .filling ∧ (¬(s.fault.col.places.length < 64 ∧ s.fault.col.tick ≤ s.tick.index ∧ (s.tick.index - s.fault.col.tick) * s.tick.len < 1000000)) ∧ k = { s.fault.col with state := .frozen, tick := s.tick.index }) ∧
    (let s : State := inState .config; (s.fault.col.state ≠ .filling ∨ (s.fault.col.places.length < 64 ∧ s.fault.col.tick ≤ s.tick.index ∧ (s.tick.index - s.fault.col.tick) * s.tick.len < 1000000))) ∧
    (let e : Episode := anEpisode; let s : State := episoded; s.fault.episodes = [e] ∧ e.marks < (s.tick.index - e.first) * s.tick.len / 1000000) ∧
    (let l : List Episode := [anEpisode]; let s : State := episoded; l = s.fault.episodes.filter (fun e => decide (e.marks < (s.tick.index - e.first) * s.tick.len / 1000000))) := by
  iterate 12 refine And.intro (by intros; decide +kernel +zetaReduce) ?_
  intros; decide +kernel +zetaReduce

set_option maxRecDepth 20000 in
/-- States and operands that meet the hypotheses of PairCommandsFormHandOverAndUnfence, clause by clause. -/
theorem test_witness_PairCommandsFormHandOverAndUnfence :
    (let c : Cmd := cmd 1 8 [1, 1, 5]; let s : State := inState .config; s.dev.state ∈ [.config, .standby] ∧ c.mb ≠ 0 ∧ s.dev.role = .active ∧ s.dev.paired = false ∧ Inline c 8 ∧ c.u8 0 < 2 ∧ c.u8 1 < 2 ∧ (c.s16 2).natAbs ≤ 640 ∧ c.rsv 4 4 = true ∧ held s .pair = false ∧ s.tick.commits = [] ∧ pendCount s c.mb < 8) ∧
    (let c : Cmd := cmd 1 8 [1, 1, 5]; let s : State := armed oneCommit (inState .config); s.dev.state ∈ [.config, .standby] ∧ c.mb ≠ 0 ∧ s.dev.role = .active ∧ s.dev.paired = false ∧ Inline c 8 ∧ c.u8 0 < 2 ∧ c.u8 1 < 2 ∧ (c.s16 2).natAbs ≤ 640 ∧ c.rsv 4 4 = true ∧ (held s .pair = true ∨ s.tick.commits ≠ [] ∨ 8 ≤ pendCount s c.mb)) ∧
    (let c : Cmd := cmd 1 0 []; let s : State := asRole .fenced (inState .config); s.dev.state ∈ [.config, .standby, .factoryTest] ∧ c.mb ≠ 0 ∧ s.dev.role = .fenced ∧ Inline c 0 ∧ held s .pair = false ∧ s.tick.commits = [] ∧ pendCount s c.mb < 8 ∧ s.red.silent = false ∧ s.red.pRole = 0) ∧
    (let c : Cmd := cmd 1 0 []; let s : State := (asRole .fenced (inState .config)).onRed (fun r => { r with silent := true }); s.dev.state ∈ [.config, .standby, .factoryTest] ∧ c.mb ≠ 0 ∧ s.dev.role = .fenced ∧ Inline c 0 ∧ held s .pair = false ∧ s.tick.commits = [] ∧ pendCount s c.mb < 8 ∧ (s.red.silent = true ∨ s.red.pRole ≠ 0)) ∧
    (let c : Cmd := cmd 1 0 []; let s : State := armed oneCommit (asRole .fenced (inState .config)); s.dev.state ∈ [.config, .standby, .factoryTest] ∧ c.mb ≠ 0 ∧ s.dev.role = .fenced ∧ Inline c 0 ∧ (held s .pair = true ∨ s.tick.commits ≠ [] ∨ 8 ≤ pendCount s c.mb)) ∧
    (let c : Cmd := cmd 1 12 [0, 0, 0, 0, 0, 4]; let b : Nat := 1024; let s : State := (paired (inState .deblocked)).onRed (fun r => { r with pRole := 1 }); ((b = if c.u64 4 = 0 then s.tick.index + leadOf s.tick.len else c.u64 4)) ∧ s.dev.state ∈ [.config, .standby, .deblocked, .safeStop, .blockedFault] ∧ c.mb ≠ 0 ∧ ((c.u8 0 = 0 ∧ s.dev.role = .active ∧ s.dev.paired = true) ∨ (c.u8 0 = 1 ∧ s.dev.role = .standby)) ∧ Inline c 12 ∧ c.rsv 1 3 = true ∧ (b - s.tick.index) * s.tick.len ≤ 10000000 ∧ held s .pair = false ∧ held s .deviceState = false ∧ (pendCount s c.mb < 8 ∨ (b - s.tick.index) * s.tick.len ≤ 1000) ∧ c.u8 0 = 0 ∧ s.red.silent = false ∧ s.red.pRole = 1 ∧ s.tick.index + leadOf s.tick.len ≤ b ∧ 1000 < (b - s.tick.index) * s.tick.len) ∧
    (let c : Cmd := cmd 1 12 []; let b : Nat := leadOf 2; let s : State := (paired (inState .deblocked)).onRed (fun r => { r with pRole := 1 }); ((b = if c.u64 4 = 0 then s.tick.index + leadOf s.tick.len else c.u64 4)) ∧ s.dev.state ∈ [.config, .standby, .deblocked, .safeStop, .blockedFault] ∧ c.mb ≠ 0 ∧ ((c.u8 0 = 0 ∧ s.dev.role = .active ∧ s.dev.paired = true) ∨ (c.u8 0 = 1 ∧ s.dev.role = .standby)) ∧ Inline c 12 ∧ c.rsv 1 3 = true ∧ (b - s.tick.index) * s.tick.len ≤ 10000000 ∧ held s .pair = false ∧ held s .deviceState = false ∧ (pendCount s c.mb < 8 ∨ (b - s.tick.index) * s.tick.len ≤ 1000) ∧ c.u8 0 = 0 ∧ s.red.silent = false ∧ s.red.pRole = 1 ∧ s.tick.index + leadOf s.tick.len ≤ b ∧ (b - s.tick.index) * s.tick.len ≤ 1000) ∧
    (let c : Cmd := cmd 1 12 [1, 0, 0, 0, 0, 4]; let b : Nat := 1024; let s : State := (asRole .standby (paired (inState .deblocked))).onRed (fun r => { r with silent := true }); ((b = if c.u64 4 = 0 then s.tick.index + leadOf s.tick.len else c.u64 4)) ∧ s.dev.state ∈ [.config, .standby, .deblocked, .safeStop, .blockedFault] ∧ c.mb ≠ 0 ∧ ((c.u8 0 = 0 ∧ s.dev.role = .active ∧ s.dev.paired = true) ∨ (c.u8 0 = 1 ∧ s.dev.role = .standby)) ∧ Inline c 12 ∧ c.rsv 1 3 = true ∧ (b - s.tick.index) * s.tick.len ≤ 10000000 ∧ held s .pair = false ∧ held s .deviceState = false ∧ (pendCount s c.mb < 8 ∨ (b - s.tick.index) * s.tick.len ≤ 1000) ∧ c.u8 0 = 1 ∧ s.red.silent = true ∧ s.tick.index + leadOf s.tick.len ≤ b ∧ 1000 < (b - s.tick.index) * s.tick.len) ∧
    (let c : Cmd := cmd 1 12 [1]; let b : Nat := leadOf 2; let s : State := (asRole .standby (paired (inState .deblocked))).onRed (fun r => { r with silent := true }); ((b = if c.u64 4 = 0 then s.tick.index + leadOf s.tick.len else c.u64 4)) ∧ s.dev.state ∈ [.config, .standby, .deblocked, .safeStop, .blockedFault] ∧ c.mb ≠ 0 ∧ ((c.u8 0 = 0 ∧ s.dev.role = .active ∧ s.dev.paired = true) ∨ (c.u8 0 = 1 ∧ s.dev.role = .standby)) ∧ Inline c 12 ∧ c.rsv 1 3 = true ∧ (b - s.tick.index) * s.tick.len ≤ 10000000 ∧ held s .pair = false ∧ held s .deviceState = false ∧ (pendCount s c.mb < 8 ∨ (b - s.tick.index) * s.tick.len ≤ 1000) ∧ c.u8 0 = 1 ∧ s.red.silent = true ∧ s.tick.index + leadOf s.tick.len ≤ b ∧ (b - s.tick.index) * s.tick.len ≤ 1000) ∧
    (let c : Cmd := cmd 1 12 [0, 0, 0, 0, 1]; let b : Nat := 1; let s : State := paired (inState .deblocked); ((b = if c.u64 4 = 0 then s.tick.index + leadOf s.tick.len else c.u64 4)) ∧ s.dev.state ∈ [.config, .standby, .deblocked, .safeStop, .blockedFault] ∧ c.mb ≠ 0 ∧ ((c.u8 0 = 0 ∧ s.dev.role = .active ∧ s.dev.paired = true) ∨ (c.u8 0 = 1 ∧ s.dev.role = .standby)) ∧ Inline c 12 ∧ c.rsv 1 3 = true ∧ (b - s.tick.index) * s.tick.len ≤ 10000000 ∧ held s .pair = false ∧ held s .deviceState = false ∧ (pendCount s c.mb < 8 ∨ (b - s.tick.index) * s.tick.len ≤ 1000) ∧ (b < s.tick.index + leadOf s.tick.len ∨ (c.u8 0 = 0 ∧ (s.red.silent = true ∨ s.red.pRole ≠ 1)) ∨ (c.u8 0 = 1 ∧ s.red.silent = false))) ∧
    (let c : Cmd := cmd 1 12 [0, 0, 0, 0, 0, 4]; let b : Nat := 1024; let s : State := (((paired (inState .deblocked)).onRed (fun r => { r with pRole := 1 })).onMb (fun m => { m with pend := [{ pendOf 0x1001 with objs := [.pair] }] })); ((b = if c.u64 4 = 0 then s.tick.index + leadOf s.tick.len else c.u64 4)) ∧ s.dev.state ∈ [.config, .standby, .deblocked, .safeStop, .blockedFault] ∧ c.mb ≠ 0 ∧ ((c.u8 0 = 0 ∧ s.dev.role = .active ∧ s.dev.paired = true) ∨ (c.u8 0 = 1 ∧ s.dev.role = .standby)) ∧ Inline c 12 ∧ c.rsv 1 3 = true ∧ (b - s.tick.index) * s.tick.len ≤ 10000000 ∧ (held s .pair = true ∨ held s .deviceState = true ∨ (8 ≤ pendCount s c.mb ∧ 1000 < (b - s.tick.index) * s.tick.len))) ∧
    (let c : Cmd := cmd 1 8 [4, 0, 0, 0, 1]; let s : State := inState .config; Serving s ∧ c.mb ≠ 0 ∧ Inline c 8 ∧ 1 ≤ c.u8 0 ∧ c.u8 0 ≤ 16 ∧ c.rsv 1 3 = true ∧ c.u32 4 ||| 0x1030FFF = 0x1030FFF) ∧
    (let c : Cmd := cmd 1 0 []; let s : State := inState .config; Serving s ∧ c.mb ≠ 0 ∧ Inline c 0) := by
  iterate 12 refine And.intro (by intros; decide +kernel +zetaReduce) ?_
  intros; decide +kernel +zetaReduce

set_option maxRecDepth 20000 in
/-- States and operands that meet the hypotheses of PartnerMessagesAndLinkEvents, clause by clause. -/
theorem test_witness_PartnerMessagesAndLinkEvents :
    (let b : Bool := false; let l : List Nat := []; let n : Nat := 0x1001; let s : State := forming .bringUp; formNow s = some (n, .bringUp) ∧ (b = false ∨ ¬(l = [0, 1, 2, 3] ∨ l = [3, 2, 1, 0]))) ∧
    (let p : Bool := false; let l : List Nat := [0, 1, 2, 3]; let i : BitVec 4 := 0; let v : Nat := State.reset.dev.variant.code; let n : Nat := 0x1001; let m : Nat := 1; let s : State := forming .bringUp; let u : State := redEvent 0x0A .notice 0 [1, 0, 0] ((forming .bringUp).onRed (fun r => { r with up := true, inverted := 0, reversed := false, pSel := false, pVariant := State.reset.dev.variant.code })); formNow s = some (n, .bringUp) ∧ ((l = [0, 1, 2, 3] ∨ l = [3, 2, 1, 0])) ∧ ((m = if n = 0x1001 then formMask s p v else 0)) ∧ m ≠ 0 ∧ u = redEvent 0x0A .notice 0 [1, i.toNat, b2n (l == [3, 2, 1, 0])] (s.onRed (fun r => { r with up := true, inverted := i, reversed := l == [3, 2, 1, 0], pSel := p, pVariant := v }))) ∧
    (let p : Bool := true; let l : List Nat := [0, 1, 2, 3]; let i : BitVec 4 := 0; let v : Nat := State.reset.dev.variant.code; let n : Nat := 0x1001; let m : Nat := 0; let s : State := forming .bringUp; let u : State := redEvent 0x0A .notice 0 [1, 0, 0] ((forming .bringUp).onRed (fun r => { r with up := true, inverted := 0, reversed := false, pSel := true, pVariant := State.reset.dev.variant.code })); formNow s = some (n, .bringUp) ∧ ((l = [0, 1, 2, 3] ∨ l = [3, 2, 1, 0])) ∧ ((m = if n = 0x1001 then formMask s p v else 0)) ∧ m = 0 ∧ u = redEvent 0x0A .notice 0 [1, i.toNat, b2n (l == [3, 2, 1, 0])] (s.onRed (fun r => { r with up := true, inverted := i, reversed := l == [3, 2, 1, 0], pSel := p, pVariant := v }))) ∧
    (let s : State := inState .config; (formNow s).all (fun x => x.2 != .bringUp) = true) ∧
    (let s : State := linkUp; s.red.up = true ∧ formNow s = none) ∧
    (let m : Nat := 0x1001; let f : FormStep := .lock; let s : State := (forming .lock).onRed (fun r => { r with up := true }); s.red.up = true ∧ formNow s = some (m, f)) ∧
    (let s : State := inState .config; s.red.up = false) ∧
    ((formNow (forming .lock : State) = some (0x1001, .lock)) ∧ (((forming .lock : State) = if (forming .lock : State).power.straps.pairsel then alignTick (⟨9, 0, 0⟩ : XlAlign) (forming .lock : State) else (forming .lock : State))) ∧ ((Config.configDigest (activeSets (forming .lock)) : Word32).toNat = configDigest (forming .lock : State))) ∧
    ((formNow (forming .lock : State) = some (0x1001, .lock)) ∧ (((forming .lock : State) = if (forming .lock : State).power.straps.pairsel then alignTick (⟨9, 0, 0⟩ : XlAlign) (forming .lock : State) else (forming .lock : State))) ∧ ((Config.configDigest (activeSets (forming .lock)) + 1 : Word32).toNat ≠ configDigest (forming .lock : State))) ∧
    (let a : XlAlign := ⟨9, 0, 0⟩; let s : State := (unfencing 0).onRed (fun r => { r with form := some (0x1003, .lock) }); formNow s = some (0x1003, .lock) ∧ a.index ≠ s.tick.index) ∧
    ((formNow ((unfencing 0).onRed (fun r => { r with form := some (0x1003, .lock) }) : State) = some (0x1003, .lock)) ∧ ((⟨0, 0, 0⟩ : XlAlign).index = ((unfencing 0).onRed (fun r => { r with form := some (0x1003, .lock) }) : State).tick.index) ∧ ((Config.configDigest (activeSets ((unfencing 0).onRed (fun r => { r with form := some (0x1003, .lock) }))) : Word32).toNat = configDigest ((unfencing 0).onRed (fun r => { r with form := some (0x1003, .lock) }) : State))) ∧
    ((formNow ((unfencing 0).onRed (fun r => { r with form := some (0x1003, .lock) }) : State) = some (0x1003, .lock)) ∧ ((⟨0, 0, 0⟩ : XlAlign).index = ((unfencing 0).onRed (fun r => { r with form := some (0x1003, .lock) }) : State).tick.index) ∧ ((Config.configDigest (activeSets ((unfencing 0).onRed (fun r => { r with form := some (0x1003, .lock) }))) + 1 : Word32).toNat ≠ configDigest ((unfencing 0).onRed (fun r => { r with form := some (0x1003, .lock) }) : State))) ∧
    (let s : State := inState .config; (formNow s).all (fun x => x.2 != .lock) = true) ∧
    (let z : XlTickIn := ⟨aTick, 0⟩; let s : State := asRole .standby linkUp; let v : State := (asRole .standby linkUp).onRed (fun r => { r with heard := some (max aTick.index (r.heard.getD 0)), pRole := aTick.role, pState := aTick.state, theirs := if r.silent then none else some aTick, record := if aTick.role = 0 ∧ (asRole .standby linkUp).red.silent = false ∧ ((asRole .standby linkUp).dev.role = .standby ∨ installing (asRole .standby linkUp) = true) then some { aTick.record with cells := r.record.elim [] (·.cells) ++ aTick.record.cells } else r.record, good := if r.silent = true ∧ r.heard.all (fun t => decide (t < aTick.index)) = true then r.good + 1 else r.good }); s.dev.paired = true ∧ s.red.up = true ∧ (v = s.onRed (fun r => { r with heard := some (max z.msg.index (r.heard.getD 0)), pRole := z.msg.role, pState := z.msg.state, theirs := if r.silent then none else some z.msg, record := if z.msg.role = 0 ∧ s.red.silent = false ∧ (s.dev.role = .standby ∨ installing s = true) then some { z.msg.record with cells := r.record.elim [] (·.cells) ++ z.msg.record.cells } else r.record, good := if r.silent = true ∧ r.heard.all (fun t => decide (t < z.msg.index)) = true then r.good + 1 else r.good })) ∧ z.msg.role = 0 ∧ s.red.silent = false) ∧
    (let z : XlTickIn := ⟨aTick, 0⟩; let s : State := linkUp.onRed (fun r => { r with silent := true }); let v : State := (linkUp.onRed (fun r => { r with silent := true })).onRed (fun r => { r with heard := some (max aTick.index (r.heard.getD 0)), pRole := aTick.role, pState := aTick.state, theirs := if r.silent then none else some aTick, record := if aTick.role = 0 ∧ (linkUp.onRed (fun r => { r with silent := true })).red.silent = false ∧ ((linkUp.onRed (fun r => { r with silent := true })).dev.role = .standby ∨ installing (linkUp.onRed (fun r => { r with silent := true })) = true) then some { aTick.record with cells := r.record.elim [] (·.cells) ++ aTick.record.cells } else r.record, good := if r.silent = true ∧ r.heard.all (fun t => decide (t < aTick.index)) = true then r.good + 1 else r.good }); s.dev.paired = true ∧ s.red.up = true ∧ (v = s.onRed (fun r => { r with heard := some (max z.msg.index (r.heard.getD 0)), pRole := z.msg.role, pState := z.msg.state, theirs := if r.silent then none else some z.msg, record := if z.msg.role = 0 ∧ s.red.silent = false ∧ (s.dev.role = .standby ∨ installing s = true) then some { z.msg.record with cells := r.record.elim [] (·.cells) ++ z.msg.record.cells } else r.record, good := if r.silent = true ∧ r.heard.all (fun t => decide (t < z.msg.index)) = true then r.good + 1 else r.good })) ∧ (z.msg.role ≠ 0 ∨ s.red.silent = true)) ∧
    (let z : XlTickIn := ⟨⟨5, 1, 1, [(0, 3)], ⟨[], [], []⟩⟩, 0⟩; let l : List (Nat × Nat) := [(0, 2)]; let s : State := linkUp.onRed (fun r => { r with own := some (5, [(0, 2)], true) }); let v : State := (linkUp.onRed (fun r => { r with own := some (5, [(0, 2)], true) })).onRed (fun r => { r with heard := some (max (⟨5, 1, 1, [(0, 3)], ⟨[], [], []⟩⟩ : XlTick).index (r.heard.getD 0)), pRole := (⟨5, 1, 1, [(0, 3)], ⟨[], [], []⟩⟩ : XlTick).role, pState := (⟨5, 1, 1, [(0, 3)], ⟨[], [], []⟩⟩ : XlTick).state, theirs := if r.silent then none else some (⟨5, 1, 1, [(0, 3)], ⟨[], [], []⟩⟩ : XlTick), record := if (⟨5, 1, 1, [(0, 3)], ⟨[], [], []⟩⟩ : XlTick).role = 0 ∧ (linkUp.onRed (fun r => { r with own := some (5, [(0, 2)], true) })).red.silent = false ∧ ((linkUp.onRed (fun r => { r with own := some (5, [(0, 2)], true) })).dev.role = .standby ∨ installing (linkUp.onRed (fun r => { r with own := some (5, [(0, 2)], true) })) = true) then some { (⟨5, 1, 1, [(0, 3)], ⟨[], [], []⟩⟩ : XlTick).record with cells := r.record.elim [] (·.cells) ++ (⟨5, 1, 1, [(0, 3)], ⟨[], [], []⟩⟩ : XlTick).record.cells } else r.record, good := if r.silent = true ∧ r.heard.all (fun t => decide (t < (⟨5, 1, 1, [(0, 3)], ⟨[], [], []⟩⟩ : XlTick).index)) = true then r.good + 1 else r.good }); s.dev.paired = true ∧ s.red.up = true ∧ (v = s.onRed (fun r => { r with heard := some (max z.msg.index (r.heard.getD 0)), pRole := z.msg.role, pState := z.msg.state, theirs := if r.silent then none else some z.msg, record := if z.msg.role = 0 ∧ s.red.silent = false ∧ (s.dev.role = .standby ∨ installing s = true) then some { z.msg.record with cells := r.record.elim [] (·.cells) ++ z.msg.record.cells } else r.record, good := if r.silent = true ∧ r.heard.all (fun t => decide (t < z.msg.index)) = true then r.good + 1 else r.good })) ∧ z.msg.role ≠ 0 ∧ s.red.silent = false ∧ s.red.own = some (z.msg.index, l, true) ∧ comparing s = true) ∧
    (let s : State := inState .config; s.dev.paired = false) ∧
    (let s : State := paired (inState .config); s.red.up = false) ∧
    (let s : State := linkUp; s.dev.paired = true ∧ s.red.up = true) ∧
    (let n : Nat := 9; let q : BitVec 9 := 1; let d : Word32 := 0; let s : State := linkUp; s.dev.paired = true ∧ s.red.up = true ∧ 10 < (n - s.tick.index) * s.tick.len ∧ s.tick.commits.any (fun k => k.boundary == n && k.mask == q && k.crc == d) = false) ∧
    (let n : Nat := 9; let q : BitVec 9 := 1; let d : Word32 := 0; let s : State := armed { oneCommit with boundary := 9 } linkUp; s.dev.paired = true ∧ s.red.up = true ∧ 10 < (n - s.tick.index) * s.tick.len ∧ s.tick.commits.any (fun k => k.boundary == n && k.mask == q && k.crc == d) = true) ∧
    (let n : Nat := 5; let s : State := linkUp; s.dev.paired = true ∧ s.red.up = true ∧ (n - s.tick.index) * s.tick.len ≤ 10) ∧
    (let e : Nat := 0; let s : State := asRole .standby linkUp; s.dev.paired = true ∧ s.red.silent = false ∧ ((s.red.dispute = none ∧ s.dev.role = .standby)) ∧ e = (s.red.last.map (·.1)).getD 0) ∧
    (let s : State := linkUp; (¬(s.red.dispute = none ∧ s.dev.role = .standby))) ∧
    (let a : Nat := DevState.standby.code; let b : Nat := 0x10; let x : DevState := .standby; let s : State := linkUp; s.dev.paired = true ∧ s.red.silent = false ∧ s.dev.role ≠ .fenced ∧ b ≠ 0x03 ∧ b ≠ 0x22 ∧ stateOf a = some x) ∧
    (let a : Nat := 99; let b : Nat := 0x10; let s : State := linkUp; (s.dev.role = .fenced ∨ b = 0x03 ∨ b = 0x22 ∨ stateOf a = none)) ∧
    (let s : State := inState .config; (s.dev.paired = false ∨ s.red.silent = true)) ∧
    (let s : State := inState .config; s.dev.paired = false) ∧
    (let s : State := paired (portIn .inService 3 (inState .config)); s.dev.paired = true) ∧
    (let n : Nat := 3; let s : State := paired (portIn .inService 3 (inState .config)); s.dev.paired = true ∧ (allPorts s).filter (hears s) = [n] ∧ (portGet s n).msg = none) ∧
    (let s : State := linkUp; s.dev.paired = true) ∧
    (let s : State := linkUp; s.dev.paired = true ∧ s.red.up = true ∧ workRole s = .active) ∧
    (let r : Int := 10; let l : List Nat := []; let s : State := asRole .standby linkUp; let v : State := (asRole .standby linkUp).onRed (fun x => { x with dx := 10, pBases := [] }); s.dev.paired = true ∧ s.red.up = true ∧ workRole s = .standby ∧ s.red.follow = false ∧ v = s.onRed (fun x => { x with dx := r, pBases := l })) ∧
    (let r : Int := 10; let l : List Nat := []; let s : State := (asRole .standby linkUp).onRed (fun r => { r with follow := true }); let v : State := ((asRole .standby linkUp).onRed (fun r => { r with follow := true })).onRed (fun x => { x with dx := 10, pBases := [] }); s.dev.paired = true ∧ s.red.up = true ∧ workRole s = .standby ∧ s.red.follow = true ∧ v = s.onRed (fun x => { x with dx := r, pBases := l })) ∧
    (let s : State := asRole .fenced linkUp; s.dev.paired = true ∧ s.red.up = true ∧ workRole s ≠ .active ∧ workRole s ≠ .standby) ∧
    (let s : State := inState .config; (s.dev.paired = false ∨ s.red.up = false)) ∧
    (let s : State := asRole .standby linkUp; s.dev.paired = true ∧ s.dev.role = .standby) ∧
    (let s : State := linkUp; s.dev.role ≠ .standby) := by
  iterate 7 refine And.intro (by intros; decide +kernel +zetaReduce) ?_
  iterate 2 refine And.intro (by and_intros <;> first | rfl | decide | exact digest_other _) ?_
  refine And.intro (by intros; decide +kernel +zetaReduce) ?_
  iterate 2 refine And.intro (by and_intros <;> first | rfl | decide | exact digest_other _) ?_
  iterate 25 refine And.intro (by intros; decide +kernel +zetaReduce) ?_
  intros; decide +kernel +zetaReduce

set_option maxRecDepth 20000 in
/-- States and operands that meet the hypotheses of DisputesDecideTheRoles, clause by clause. -/
theorem test_witness_DisputesDecideTheRoles :
    (let a : Nat := 0; let b : Nat := 0; let s : State := linkUp.onRed (fun r => { r with dispute := some (0, 0) }); s.red.dispute = some (a, b) ∧ b ≤ s.tick.index ∧ (s.dev.role = .active ∨ s.dev.role = .standby)) ∧
    (let s : State := inState .config; (s.red.dispute.all (fun d => decide (s.tick.index < d.2)) = true ∨ (s.dev.role ≠ .active ∧ s.dev.role ≠ .standby))) ∧
    (let s : State := disputing none none; s.dev.role = .disputed ∧ s.red.check = none) ∧
    (let s : State := inState .config; (s.dev.role ≠ .disputed ∨ s.red.check ≠ none)) ∧
    (let b : Bool := true; let s : State := disputing (some false) (some true); s.dev.role = .disputed ∧ s.red.check = some false ∧ s.red.pCheck = some b) ∧
    (let s : State := disputing (some true) (some false); s.dev.role = .disputed ∧ s.red.check = some true ∧ s.red.pCheck = some false) ∧
    (let s : State := disputing (some true) (some true); s.dev.role = .disputed ∧ s.red.check = some true ∧ s.red.pCheck = some true ∧ s.red.before = some .active) ∧
    (let s : State := (disputing (some true) (some true)).onRed (fun r => { r with before := some .standby }); s.dev.role = .disputed ∧ s.red.check = some true ∧ s.red.pCheck = some true ∧ s.red.before ≠ some .active) ∧
    (let s : State := inState .config; (s.dev.role ≠ .disputed ∨ s.red.check = none ∨ s.red.pCheck = none)) ∧
    (let s : State := overdue; s.dev.role = .disputed ∧ s.red.entered + 40 ≤ s.nowUs ∧ s.red.pCheck = none ∧ s.red.check = some true) ∧
    (let s : State := overdue.onRed (fun r => { r with check := some false }); s.dev.role = .disputed ∧ s.red.entered + 40 ≤ s.nowUs ∧ s.red.pCheck = none ∧ s.red.check = some false) ∧
    (let s : State := inState .config; (s.dev.role ≠ .disputed ∨ s.nowUs < s.red.entered + 40 ∨ s.red.check = none ∨ s.red.pCheck ≠ none)) ∧
    (let s : State := linkUp.onRed (fun r => { r with silent := true, good := 16 }); s.red.silent = true ∧ 16 ≤ s.red.good) ∧
    (let s : State := inState .config; (s.red.silent = false ∨ s.red.good < 16)) ∧
    (let s : State := (asRole .standby linkUp).onRed (fun r => { r with silent := true, promote := some 0 }); let t : State := promoteNow 0 ((asRole .standby linkUp).onRed (fun r => { r with silent := true, promote := some 0 })); ((s.red.promote.any (fun x => decide (x ≤ s.tick.index))) = true ∨ (s.red.take.any (fun x => decide (x ≤ s.tick.index))) = true) ∧ s.dev.role = .standby ∧ s.red.silent = true ∧ t = promoteNow (b2n (!(s.red.promote.any (fun x => decide (x ≤ s.tick.index))))) s ∧ s.red.take = none) ∧
    (let s : State := (asRole .standby linkUp).onRed (fun r => { r with silent := true, promote := some 0, take := some 0 }); let t : State := promoteNow 0 ((asRole .standby linkUp).onRed (fun r => { r with silent := true, promote := some 0, take := some 0 })); ((s.red.promote.any (fun x => decide (x ≤ s.tick.index))) = true ∨ (s.red.take.any (fun x => decide (x ≤ s.tick.index))) = true) ∧ s.dev.role = .standby ∧ s.red.silent = true ∧ t = promoteNow (b2n (!(s.red.promote.any (fun x => decide (x ≤ s.tick.index))))) s ∧ s.red.take ≠ none) ∧
    (let s : State := linkUp.onRed (fun r => { r with promote := some 0, take := some 0 }); let t : State := (linkUp.onRed (fun r => { r with promote := some 0, take := some 0 })).onRed (fun r => { r with promote := none, take := none }); ((s.red.promote.any (fun x => decide (x ≤ s.tick.index))) = true ∨ (s.red.take.any (fun x => decide (x ≤ s.tick.index))) = true) ∧ (s.dev.role ≠ .standby ∨ s.red.silent = false) ∧ t = s.onRed (fun r => { r with promote := r.promote.filter (fun x => s.tick.index < x), take := r.take.filter (fun x => s.tick.index < x) })) ∧
    (let s : State := inState .config; (s.red.promote.any (fun x => decide (x ≤ s.tick.index))) = false ∧ (s.red.take.any (fun x => decide (x ≤ s.tick.index))) = false) ∧
    (let s : State := unfencing 0; let u : State := standbyTime (setRole .standby (takeState (unfencing 0))); formNow s = some (0x1003, .install 0) ∧ u = standbyTime (setRole .standby (takeState s))) ∧
    (let s : State := unfencing 4; formNow s ≠ some (0x1003, .install 0)) ∧
    (let f : FormStep := .install 4; let s : State := unfencing 4; formNow s = some (0x1003, f)) ∧
    (let s : State := inState .config; (formNow s).all (fun f => f.1 != 0x1003) = true) := by
  iterate 21 refine And.intro (by intros; decide +kernel +zetaReduce) ?_
  intros; decide +kernel +zetaReduce

set_option maxRecDepth 20000 in
/-- States and operands that meet the hypotheses of RecorderCommandsConfigureFreezeAndReplay, clause by clause. -/
theorem test_witness_RecorderCommandsConfigureFreezeAndReplay :
    (let c : Cmd := recCmd; let k : GalleyCfg := recCfg recCmd; let s : State := withDram 4096; k = recCfg c ∧ s.dev.state ∈ [.config, .factoryTest] ∧ c.mb ≠ 0 ∧ Inline c 32 ∧ recRange k (dramUsable s) = true ∧ c.rsv 2 2 = true ∧ c.rsv 30 2 = true ∧ recBusy s = false ∧ (((List.range 11).any (fun i => bit s.galley.cfg.mask i && !bit k.mask i)) = false ∨ k.frzN = 0) ∧ dramUsable s < k.ring.getD 0 + k.frzN * k.frz + k.dec + s.prot.act.recs.store) ∧
    (let c : Cmd := recCmd; let k : GalleyCfg := recCfg recCmd; let s : State := withDram 16384; k = recCfg c ∧ s.dev.state ∈ [.config, .factoryTest] ∧ c.mb ≠ 0 ∧ Inline c 32 ∧ recRange k (dramUsable s) = true ∧ c.rsv 2 2 = true ∧ c.rsv 30 2 = true ∧ recBusy s = false ∧ (((List.range 11).any (fun i => bit s.galley.cfg.mask i && !bit k.mask i)) = false ∨ k.frzN = 0) ∧ k.ring.getD 0 + k.frzN * k.frz + k.dec + s.prot.act.recs.store ≤ dramUsable s ∧ ((ringMib s s.galley.cfg ≠ k.ring.getD 0 ∨ s.galley.cfg.frzN ≠ k.frzN ∨ s.galley.cfg.frz ≠ k.frz ∨ s.galley.cfg.dec ≠ k.dec))) ∧
    (let c : Cmd := recCmd; let k : GalleyCfg := recCfg recCmd; let s : State := ((withDram 16384).onGalley (fun g => { g with cfg := recCfg recCmd })); k = recCfg c ∧ s.dev.state ∈ [.config, .factoryTest] ∧ c.mb ≠ 0 ∧ Inline c 32 ∧ recRange k (dramUsable s) = true ∧ c.rsv 2 2 = true ∧ c.rsv 30 2 = true ∧ recBusy s = false ∧ (((List.range 11).any (fun i => bit s.galley.cfg.mask i && !bit k.mask i)) = false ∨ k.frzN = 0) ∧ k.ring.getD 0 + k.frzN * k.frz + k.dec + s.prot.act.recs.store ≤ dramUsable s ∧ (¬(ringMib s s.galley.cfg ≠ k.ring.getD 0 ∨ s.galley.cfg.frzN ≠ k.frzN ∨ s.galley.cfg.frz ≠ k.frz ∨ s.galley.cfg.dec ≠ k.dec))) ∧
    (let c : Cmd := (cmd 1 32 ([5, 1, 0, 0] ++ le 4 2048 ++ le 4 64 ++ le 4 0 ++ le 2 16 ++ le 2 1 ++ le 4 0x7FC ++ le 2 0 ++ le 2 0 ++ le 2 0)); let k : GalleyCfg := recCfg (cmd 1 32 ([5, 1, 0, 0] ++ le 4 2048 ++ le 4 64 ++ le 4 0 ++ le 2 16 ++ le 2 1 ++ le 4 0x7FC ++ le 2 0 ++ le 2 0 ++ le 2 0)); let s : State := withDram 16384; k = recCfg c ∧ s.dev.state ∈ [.config, .factoryTest] ∧ c.mb ≠ 0 ∧ Inline c 32 ∧ recRange k (dramUsable s) = true ∧ c.rsv 2 2 = true ∧ c.rsv 30 2 = true ∧ recBusy s = false ∧ ((List.range 11).any (fun i => bit s.galley.cfg.mask i && !bit k.mask i)) = true ∧ k.frzN ≠ 0) ∧
    (let c : Cmd := recCmd; let k : GalleyCfg := recCfg recCmd; let s : State := (withDram 16384).onGalley (fun g => { g with slots := [(1, { filling := true })] }); k = recCfg c ∧ s.dev.state ∈ [.config, .factoryTest] ∧ c.mb ≠ 0 ∧ Inline c 32 ∧ recRange k (dramUsable s) = true ∧ c.rsv 2 2 = true ∧ c.rsv 30 2 = true ∧ recBusy s = true) ∧
    (let c : Cmd := cmd 1 4 [1]; let s : State := inState .config; Serving s ∧ c.mb ≠ 0 ∧ Inline c 4 ∧ (c.u8 0 = 0xFF ∨ c.u8 0 < s.galley.cfg.frzN) ∧ c.rsv 1 3 = true ∧ c.u8 0 ≠ 0xFF ∧ bit s.galley.cfg.flags 0 = true ∧ (slotGet s (c.u8 0)).filling = false ∧ held s (.freeze (c.u8 0)) = false) ∧
    (let c : Cmd := cmd 1 4 [1]; let s : State := slotted { filling := true }; Serving s ∧ c.mb ≠ 0 ∧ Inline c 4 ∧ (c.u8 0 = 0xFF ∨ c.u8 0 < s.galley.cfg.frzN) ∧ c.rsv 1 3 = true ∧ (bit s.galley.cfg.flags 0 = false ∨ (c.u8 0 ≠ 0xFF ∧ ((slotGet s (c.u8 0)).filling = true ∨ held s (.freeze (c.u8 0)) = true)))) ∧
    (let c : Cmd := cmd 1 4 [0xFF]; let e : Nat × Freeze := ((1 : Nat), ({ filling := true } : Freeze)); let s : State := slotted { filling := true }; Serving s ∧ c.mb ≠ 0 ∧ Inline c 4 ∧ (c.u8 0 = 0xFF ∨ c.u8 0 < s.galley.cfg.frzN) ∧ c.rsv 1 3 = true ∧ c.u8 0 = 0xFF ∧ bit s.galley.cfg.flags 0 = true ∧ s.galley.slots.find? (fun x => x.2.filling && x.2.first ≤ s.tick.index && s.tick.index ≤ x.2.until_) = some e) ∧
    (let c : Cmd := cmd 1 4 [0xFF]; let n : Nat := 0; let s : State := inState .config; Serving s ∧ c.mb ≠ 0 ∧ Inline c 4 ∧ (c.u8 0 = 0xFF ∨ c.u8 0 < s.galley.cfg.frzN) ∧ c.rsv 1 3 = true ∧ c.u8 0 = 0xFF ∧ bit s.galley.cfg.flags 0 = true ∧ s.galley.slots.find? (fun x => x.2.filling && x.2.first ≤ s.tick.index && s.tick.index ≤ x.2.until_) = none ∧ freezeSlot s = some n) ∧
    (let c : Cmd := cmd 1 4 [0xFF]; let s : State := (inState .config).onGalley (fun g => { g with cfg := { g.cfg with frzN := 0 } }); Serving s ∧ c.mb ≠ 0 ∧ Inline c 4 ∧ (c.u8 0 = 0xFF ∨ c.u8 0 < s.galley.cfg.frzN) ∧ c.rsv 1 3 = true ∧ c.u8 0 = 0xFF ∧ bit s.galley.cfg.flags 0 = true ∧ s.galley.slots.find? (fun x => x.2.filling && x.2.first ≤ s.tick.index && s.tick.index ≤ x.2.until_) = none ∧ freezeSlot s = none) ∧
    (let c : Cmd := cmd 1 24 [1, 2]; let s : State := slotted {}; Serving s ∧ c.mb ≠ 0 ∧ Inline c 24 ∧ (c.u8 0 = 0xFE ∨ c.u8 0 < s.galley.cfg.frzN) ∧ c.rsv 2 2 = true ∧ c.u8 1 = 2 ∧ held s (.freeze (c.u8 0)) = false ∧ c.u8 0 ≠ 0xFE ∧ thas s.galley.slots (c.u8 0) = true ∧ (slotGet s (c.u8 0)).filling = false) ∧
    (let c : Cmd := cmd 1 24 [1, 2]; let s : State := inState .config; Serving s ∧ c.mb ≠ 0 ∧ Inline c 24 ∧ (c.u8 0 = 0xFE ∨ c.u8 0 < s.galley.cfg.frzN) ∧ c.rsv 2 2 = true ∧ c.u8 1 = 2 ∧ held s (.freeze (c.u8 0)) = false ∧ (c.u8 0 = 0xFE ∨ thas s.galley.slots (c.u8 0) = false ∨ (slotGet s (c.u8 0)).filling = true)) ∧
    (let c : Cmd := cmd 1 24 ([1, 0, 0, 0] ++ le 8 0 ++ le 8 64 ++ le 4 64); let s : State := inState .config; Serving s ∧ c.mb ≠ 0 ∧ Inline c 24 ∧ (c.u8 0 = 0xFE ∨ c.u8 0 < s.galley.cfg.frzN) ∧ c.rsv 2 2 = true ∧ c.u8 1 < 2 ∧ c.buf 12 = true ∧ 64 ≤ c.u32 20 ∧ c.u32 20 ≤ 16777216 ∧ held s (.freeze (c.u8 0)) = false ∧ (pendCount s c.mb < 8 ∨ c.u32 20 ≤ 1048576) ∧ (recPart s (c.u8 0) (c.u8 1)).all (fun p => decide (p.length < c.u64 4)) = true) ∧
    (let c : Cmd := cmd 1 24 ([1, 0, 0, 0] ++ le 8 0 ++ le 8 64 ++ le 4 64); let p : Bytes := (slotGet (slotted {}) 1).header; let w : Bytes := (slotGet (slotted {}) 1).header; let s : State := slotted {}; Serving s ∧ c.mb ≠ 0 ∧ Inline c 24 ∧ (c.u8 0 = 0xFE ∨ c.u8 0 < s.galley.cfg.frzN) ∧ c.rsv 2 2 = true ∧ c.u8 1 < 2 ∧ c.buf 12 = true ∧ 64 ≤ c.u32 20 ∧ c.u32 20 ≤ 16777216 ∧ held s (.freeze (c.u8 0)) = false ∧ (pendCount s c.mb < 8 ∨ c.u32 20 ≤ 1048576) ∧ recPart s (c.u8 0) (c.u8 1) = some p ∧ c.u64 4 ≤ p.length ∧ w = (p.drop (c.u64 4)).take (c.u32 20) ∧ w.length ≤ 1048576) ∧
    ((Serving (bigSlot : State)) ∧ ((bigRead : Cmd).mb ≠ 0) ∧ (Inline (bigRead : Cmd) 24) ∧ ((bigRead : Cmd).u8 0 = 0xFE ∨ (bigRead : Cmd).u8 0 < (bigSlot : State).galley.cfg.frzN) ∧ ((bigRead : Cmd).rsv 2 2 = true) ∧ ((bigRead : Cmd).u8 1 < 2) ∧ ((bigRead : Cmd).buf 12 = true) ∧ (64 ≤ (bigRead : Cmd).u32 20) ∧ ((bigRead : Cmd).u32 20 ≤ 16777216) ∧ (held (bigSlot : State) (.freeze ((bigRead : Cmd).u8 0)) = false) ∧ (pendCount (bigSlot : State) (bigRead : Cmd).mb < 8 ∨ (bigRead : Cmd).u32 20 ≤ 1048576) ∧ (recPart (bigSlot : State) ((bigRead : Cmd).u8 0) ((bigRead : Cmd).u8 1) = some (bigRaw : Bytes)) ∧ ((bigRead : Cmd).u64 4 ≤ (bigRaw : Bytes).length) ∧ ((bigPart : Bytes) = ((bigRaw : Bytes).drop ((bigRead : Cmd).u64 4)).take ((bigRead : Cmd).u32 20)) ∧ (1048576 < (bigPart : Bytes).length)) ∧
    (let c : Cmd := cmd 1 24 [1, 2]; let s : State := (slotted {}).onMb (fun m => { m with pend := [{ pendOf 0x1103 with objs := [.freeze 1] }] }); Serving s ∧ c.mb ≠ 0 ∧ Inline c 24 ∧ (c.u8 0 = 0xFE ∨ c.u8 0 < s.galley.cfg.frzN) ∧ c.rsv 2 2 = true ∧ (c.u8 1 = 2 ∨ (c.u8 1 < 2 ∧ c.buf 12 = true ∧ 64 ≤ c.u32 20 ∧ c.u32 20 ≤ 16777216)) ∧ (held s (.freeze (c.u8 0)) = true ∨ (c.u8 1 ≠ 2 ∧ 1048576 < c.u32 20 ∧ 8 ≤ pendCount s c.mb))) ∧
    (let c : Cmd := (cmd 1 32 ([1, 1, 0, 0] ++ le 8 0 ++ le 8 0 ++ le 8 64 ++ le 4 1)); let b : Bytes := []; let p : Bytes := fit 1024 []; let s : State := slotted { filling := true }; s.dev.state = .config ∧ c.mb ≠ 0 ∧ s.dev.role = .active ∧ (s.dev.paired = false ∨ c.u8 1 = 2) ∧ Inline c 32 ∧ isM2 s = false ∧ c.u8 0 < s.galley.cfg.frzN ∧ c.u8 1 < 3 ∧ c.u8 2 < 2 ∧ c.rsv 3 1 = true ∧ (c.u8 1 = 0 ∨ (c.buf 20 = true ∧ 1 ≤ c.u32 28 ∧ c.u32 28 ≤ s.galley.cfg.frz * 1024)) ∧ [Obj.deviceState, .tickLength, .pair, .recorder, .freeze (c.u8 0)].all (fun o => !held s o) = true ∧ (pendCount s c.mb < 8 ∨ c.u8 1 = 2) ∧ p = fit (c.u32 28 * 1024) b ∧ c.u8 1 ≠ 0 ∧ (slotGet s (c.u8 0)).filling = true) ∧
    (let c : Cmd := (cmd 1 32 ([1, 1, 0, 0] ++ le 8 0 ++ le 8 0 ++ le 8 64 ++ le 4 1)); let b : Bytes := []; let p : Bytes := fit 1024 []; let s : State := slotted {}; s.dev.state = .config ∧ c.mb ≠ 0 ∧ s.dev.role = .active ∧ (s.dev.paired = false ∨ c.u8 1 = 2) ∧ Inline c 32 ∧ isM2 s = false ∧ c.u8 0 < s.galley.cfg.frzN ∧ c.u8 1 < 3 ∧ c.u8 2 < 2 ∧ c.rsv 3 1 = true ∧ (c.u8 1 = 0 ∨ (c.buf 20 = true ∧ 1 ≤ c.u32 28 ∧ c.u32 28 ≤ s.galley.cfg.frz * 1024)) ∧ [Obj.deviceState, .tickLength, .pair, .recorder, .freeze (c.u8 0)].all (fun o => !held s o) = true ∧ (pendCount s c.mb < 8 ∨ c.u8 1 = 2) ∧ p = fit (c.u32 28 * 1024) b ∧ c.u8 1 ≠ 0 ∧ (slotGet s (c.u8 0)).filling = false ∧ headerGood p = false) ∧
    (let c : Cmd := (cmd 1 32 ([1, 2, 0, 0] ++ le 8 0 ++ le 8 0 ++ le 8 64 ++ le 4 1)); let b : Bytes := (withCrc (List.replicate 60 0)); let p : Bytes := fit 1024 (withCrc (List.replicate 60 0)); let s : State := slotted {}; s.dev.state = .config ∧ c.mb ≠ 0 ∧ s.dev.role = .active ∧ (s.dev.paired = false ∨ c.u8 1 = 2) ∧ Inline c 32 ∧ isM2 s = false ∧ c.u8 0 < s.galley.cfg.frzN ∧ c.u8 1 < 3 ∧ c.u8 2 < 2 ∧ c.rsv 3 1 = true ∧ (c.u8 1 = 0 ∨ (c.buf 20 = true ∧ 1 ≤ c.u32 28 ∧ c.u32 28 ≤ s.galley.cfg.frz * 1024)) ∧ [Obj.deviceState, .tickLength, .pair, .recorder, .freeze (c.u8 0)].all (fun o => !held s o) = true ∧ (pendCount s c.mb < 8 ∨ c.u8 1 = 2) ∧ p = fit (c.u32 28 * 1024) b ∧ c.u8 1 = 2 ∧ (slotGet s (c.u8 0)).filling = false ∧ headerGood p = true) ∧
    (let c : Cmd := (cmd 1 32 ([1, 0, 0, 0] ++ le 8 9)); let b : Bytes := []; let p : Bytes := []; let n : Nat := 9; let s : State := slotted {}; let v : State := slotted {}; s.dev.state = .config ∧ c.mb ≠ 0 ∧ s.dev.role = .active ∧ (s.dev.paired = false ∨ c.u8 1 = 2) ∧ Inline c 32 ∧ isM2 s = false ∧ c.u8 0 < s.galley.cfg.frzN ∧ c.u8 1 < 3 ∧ c.u8 2 < 2 ∧ c.rsv 3 1 = true ∧ (c.u8 1 = 0 ∨ (c.buf 20 = true ∧ 1 ≤ c.u32 28 ∧ c.u32 28 ≤ s.galley.cfg.frz * 1024)) ∧ [Obj.deviceState, .tickLength, .pair, .recorder, .freeze (c.u8 0)].all (fun o => !held s o) = true ∧ (pendCount s c.mb < 8 ∨ c.u8 1 = 2) ∧ p = fit (c.u32 28 * 1024) b ∧ ((c.u8 1 = 0 ∧ v = s) ∨ (c.u8 1 = 1 ∧ (slotGet s (c.u8 0)).filling = false ∧ headerGood p = true ∧ v = s.onGalley (fun x => { x with slots := tset x.slots (c.u8 0) (loadedFreeze p) }))) ∧ ((n = if c.u64 4 = 0 then (slotGet v (c.u8 0)).image else c.u64 4)) ∧ c.u64 4 ≠ 0 ∧ thas v.galley.slots (c.u8 0) = true ∧ replayImage v (c.u8 0) n = none) ∧
    (((inState .config : State).dev.state = .config) ∧ (((cmd 1 32 [1]) : Cmd).mb ≠ 0) ∧ ((inState .config : State).dev.role = .active) ∧ ((inState .config : State).dev.paired = false ∨ ((cmd 1 32 [1]) : Cmd).u8 1 = 2) ∧ (Inline ((cmd 1 32 [1]) : Cmd) 32) ∧ (isM2 (inState .config : State) = false) ∧ (((cmd 1 32 [1]) : Cmd).u8 0 < (inState .config : State).galley.cfg.frzN) ∧ (((cmd 1 32 [1]) : Cmd).u8 1 < 3) ∧ (((cmd 1 32 [1]) : Cmd).u8 2 < 2) ∧ (((cmd 1 32 [1]) : Cmd).rsv 3 1 = true) ∧ (((cmd 1 32 [1]) : Cmd).u8 1 = 0 ∨ (((cmd 1 32 [1]) : Cmd).buf 20 = true ∧ 1 ≤ ((cmd 1 32 [1]) : Cmd).u32 28 ∧ ((cmd 1 32 [1]) : Cmd).u32 28 ≤ (inState .config : State).galley.cfg.frz * 1024)) ∧ ([Obj.deviceState, .tickLength, .pair, .recorder, .freeze (((cmd 1 32 [1]) : Cmd).u8 0)].all (fun o => !held (inState .config : State) o) = true) ∧ (pendCount (inState .config : State) ((cmd 1 32 [1]) : Cmd).mb < 8 ∨ ((cmd 1 32 [1]) : Cmd).u8 1 = 2) ∧ (([] : Bytes) = fit (((cmd 1 32 [1]) : Cmd).u32 28 * 1024) ([] : Bytes)) ∧ ((((cmd 1 32 [1]) : Cmd).u8 1 = 0 ∧ (inState .config : State) = (inState .config : State)) ∨ (((cmd 1 32 [1]) : Cmd).u8 1 = 1 ∧ (slotGet (inState .config : State) (((cmd 1 32 [1]) : Cmd).u8 0)).filling = false ∧ headerGood ([] : Bytes) = true ∧ (inState .config : State) = (inState .config : State).onGalley (fun x => { x with slots := tset x.slots (((cmd 1 32 [1]) : Cmd).u8 0) (loadedFreeze ([] : Bytes)) }))) ∧ (((0 : Nat) = if ((cmd 1 32 [1]) : Cmd).u64 4 = 0 then (slotGet (inState .config : State) (((cmd 1 32 [1]) : Cmd).u8 0)).image else ((cmd 1 32 [1]) : Cmd).u64 4)) ∧ (((cmd 1 32 [1]) : Cmd).u64 4 = 0 ∨ thas (inState .config : State).galley.slots (((cmd 1 32 [1]) : Cmd).u8 0) = false ∨ (replayImage (inState .config : State) (((cmd 1 32 [1]) : Cmd).u8 0) (0 : Nat)).isSome = true) ∧ (replayMask (inState .config : State) (((cmd 1 32 [1]) : Cmd).u8 0) (0 : Nat) ≠ 0)) ∧
    (((replayable : State).dev.state = .config) ∧ (((cmd 1 32 [1]) : Cmd).mb ≠ 0) ∧ ((replayable : State).dev.role = .active) ∧ ((replayable : State).dev.paired = false ∨ ((cmd 1 32 [1]) : Cmd).u8 1 = 2) ∧ (Inline ((cmd 1 32 [1]) : Cmd) 32) ∧ (isM2 (replayable : State) = false) ∧ (((cmd 1 32 [1]) : Cmd).u8 0 < (replayable : State).galley.cfg.frzN) ∧ (((cmd 1 32 [1]) : Cmd).u8 1 < 3) ∧ (((cmd 1 32 [1]) : Cmd).u8 2 < 2) ∧ (((cmd 1 32 [1]) : Cmd).rsv 3 1 = true) ∧ (((cmd 1 32 [1]) : Cmd).u8 1 = 0 ∨ (((cmd 1 32 [1]) : Cmd).buf 20 = true ∧ 1 ≤ ((cmd 1 32 [1]) : Cmd).u32 28 ∧ ((cmd 1 32 [1]) : Cmd).u32 28 ≤ (replayable : State).galley.cfg.frz * 1024)) ∧ ([Obj.deviceState, .tickLength, .pair, .recorder, .freeze (((cmd 1 32 [1]) : Cmd).u8 0)].all (fun o => !held (replayable : State) o) = true) ∧ (pendCount (replayable : State) ((cmd 1 32 [1]) : Cmd).mb < 8 ∨ ((cmd 1 32 [1]) : Cmd).u8 1 = 2) ∧ (([] : Bytes) = fit (((cmd 1 32 [1]) : Cmd).u32 28 * 1024) ([] : Bytes)) ∧ ((((cmd 1 32 [1]) : Cmd).u8 1 = 0 ∧ (replayable : State) = (replayable : State)) ∨ (((cmd 1 32 [1]) : Cmd).u8 1 = 1 ∧ (slotGet (replayable : State) (((cmd 1 32 [1]) : Cmd).u8 0)).filling = false ∧ headerGood ([] : Bytes) = true ∧ (replayable : State) = (replayable : State).onGalley (fun x => { x with slots := tset x.slots (((cmd 1 32 [1]) : Cmd).u8 0) (loadedFreeze ([] : Bytes)) }))) ∧ (((0 : Nat) = if ((cmd 1 32 [1]) : Cmd).u64 4 = 0 then (slotGet (replayable : State) (((cmd 1 32 [1]) : Cmd).u8 0)).image else ((cmd 1 32 [1]) : Cmd).u64 4)) ∧ (((cmd 1 32 [1]) : Cmd).u64 4 = 0 ∨ thas (replayable : State).galley.slots (((cmd 1 32 [1]) : Cmd).u8 0) = false ∨ (replayImage (replayable : State) (((cmd 1 32 [1]) : Cmd).u8 0) (0 : Nat)).isSome = true) ∧ (replayMask (replayable : State) (((cmd 1 32 [1]) : Cmd).u8 0) (0 : Nat) = 0)) ∧
    (let c : Cmd := (cmd 1 32 [1]); let s : State := (slotted {}).onMb (fun m => { m with pend := [{ pendOf 0x1103 with objs := [.recorder] }] }); s.dev.state = .config ∧ c.mb ≠ 0 ∧ s.dev.role = .active ∧ (s.dev.paired = false ∨ c.u8 1 = 2) ∧ Inline c 32 ∧ isM2 s = false ∧ c.u8 0 < s.galley.cfg.frzN ∧ c.u8 1 < 3 ∧ c.u8 2 < 2 ∧ c.rsv 3 1 = true ∧ (c.u8 1 = 0 ∨ (c.buf 20 = true ∧ 1 ≤ c.u32 28 ∧ c.u32 28 ≤ s.galley.cfg.frz * 1024)) ∧ ([Obj.deviceState, .tickLength, .pair, .recorder, .freeze (c.u8 0)].any (fun o => held s o) = true ∨ (c.u8 1 ≠ 2 ∧ 8 ≤ pendCount s c.mb))) ∧
    (let c : Cmd := (cmd 1 32 [1]); let s : State := asM2 (inState .config); Serving s ∧ c.mb ≠ 0 ∧ Inline c 32 ∧ isM2 s = true) ∧
    (let c : Cmd := cmd 1 0 []; let s : State := inState .replay; s.dev.state = .replay ∧ c.mb ≠ 0 ∧ Inline c 0 ∧ lastNow s = false) ∧
    (let c : Cmd := cmd 1 0 []; let s : State := (inState .replay).onGalley (fun g => { g with replay := some { slot := 0, stop := 5, onDiv := false, boundary := 0, image := 0, tick := 5 } }); s.dev.state = .replay ∧ c.mb ≠ 0 ∧ Inline c 0 ∧ lastNow s = true) ∧
    (let c : Cmd := cmd 1 0 []; let r : Option Replay := none; let s : State := inState .config; Serving s ∧ c.mb ≠ 0 ∧ Inline c 0 ∧ ((r = if replaying s then s.galley.replay else none))) := by
  iterate 14 refine And.intro (by intros; decide +kernel +zetaReduce) ?_
  refine And.intro (by and_intros <;> first | exact bigPart_long | exact bigPart_of | exact Nat.zero_le _ | rfl | decide) ?_
  iterate 5 refine And.intro (by intros; decide +kernel +zetaReduce) ?_
  iterate 2 refine And.intro (by and_intros <;> first | exact Or.inl ⟨rfl, rfl⟩ | exact replayable_mask | exact noSlot_mask | decide +kernel | rfl) ?_
  iterate 4 refine And.intro (by intros; decide +kernel +zetaReduce) ?_
  intros; decide +kernel +zetaReduce

set_option maxRecDepth 20000 in
/-- States and operands that meet the hypotheses of RecorderEventsMoveBlocks, clause by clause. -/
theorem test_witness_RecorderEventsMoveBlocks :
    (let s : State := inState .config; s.galley.buf = []) ∧
    (let s : State := buffered; let u : State := bufDrained; s.galley.buf ≠ [] ∧ u = freezesCopy (s.onGalley (fun g => { g with buf := [], ring := keepBytes (mib (ringMib s g.cfg)) (g.buf.reverse ++ g.ring), lens := ((g.buf.reverse).map TickBlock.len ++ g.lens).take 1024 }))) ∧
    (let o : Option Nat := some 99; let s : State := inState .config; (o.any (fun c => !tapCodes.contains c) = true ∨ (s.galley.cur = none ∧ s.galley.buf = []))) ∧
    (let o : Option Nat := some 2; let b : TickBlock := { tick := 5 }; let s : State := (inState .config).onGalley (fun g => { g with cur := some { tick := 5 } }); o.any (fun c => !tapCodes.contains c) = false ∧ s.galley.cur = some b) ∧
    (let o : Option Nat := none; let b : TickBlock := { tick := 5 }; let l : List TickBlock := []; let s : State := (inState .config).onGalley (fun g => { g with buf := [{ tick := 5 }] }); o.any (fun c => !tapCodes.contains c) = false ∧ s.galley.cur = none ∧ s.galley.buf = b :: l) ∧
    (let n : Nat := 1; let k : Nat := 0; let s : State := slotted { filling := true, next := 1, flags := 64 }; freezeReady (slotGet s n) = true ∧ (k = (slotGet s n).flags - (if bit (slotGet s n).flags 6 then 64 else 0))) ∧
    (let n : Nat := 1; let s : State := inState .config; freezeReady (slotGet s n) = false) ∧
    (let b : TickBlock := { tick := 0 }; let s : State := (inState .config).onGalley (fun g => { g with ring := [{ tick := 0 }] }); s.galley.cfg.dec ≠ 0 ∧ recOn s = true ∧ decDue s = some b) ∧
    (let s : State := inState .config; (s.galley.cfg.dec = 0 ∨ recOn s = false ∨ decDue s = none)) := by
  iterate 8 refine And.intro (by intros; decide +kernel +zetaReduce) ?_
  intros; decide +kernel +zetaReduce

set_option maxRecDepth 20000 in
/-- States and operands that meet the hypotheses of SpareCommandsAndEvents, clause by clause. -/
theorem test_witness_SpareCommandsAndEvents :
    (let c : Cmd := cmd 1 12 [1, 1]; let s : State := inState .config; Serving s ∧ c.mb ≠ 0 ∧ Inline c 12 ∧ kindDie (c.u8 0) (c.u8 1) = true ∧ c.rsv 2 2 = true ∧ c.u64 4 % 64 = 0 ∧ dieOk s (c.u8 1) = true ∧ c.u64 4 = 0) ∧
    (let c : Cmd := cmd 1 12 ([1, 1, 0, 0] ++ le 8 64); let s : State := inState .config; Serving s ∧ c.mb ≠ 0 ∧ Inline c 12 ∧ kindDie (c.u8 0) (c.u8 1) = true ∧ c.rsv 2 2 = true ∧ c.u64 4 % 64 = 0 ∧ dieOk s (c.u8 1) = true ∧ c.u64 4 ≠ 0) ∧
    (let c : Cmd := cmd 1 12 [1, 1]; let s : State := (inState .config).onPower (fun p => { p with dieFailed := [1] }); Serving s ∧ c.mb ≠ 0 ∧ Inline c 12 ∧ kindDie (c.u8 0) (c.u8 1) = true ∧ c.rsv 2 2 = true ∧ c.u64 4 % 64 = 0 ∧ dieOk s (c.u8 1) = false) ∧
    (let c : Cmd := cmd 1 8 [3, 4]; let s : State := inState .config; Serving s ∧ c.mb ≠ 0 ∧ (s.dev.role = .active ∨ s.dev.role = .standby) ∧ Inline c 8 ∧ kindDie (c.u8 0) (c.u8 1) = true ∧ c.rsv 5 3 = true ∧ c.u8 0 = 3 ∧ dieOk s (c.u8 1) = true ∧ held s (.unitPool 3) = false ∧ ((c.u8 4 = 0 ∧ c.u16 2 < 8) ∨ (c.u8 4 = 1 ∧ c.u16 2 < 9 ∧ s.dev.state ∈ [.config, .factoryTest] ∧ pendCount s c.mb < 8))) ∧
    (let c : Cmd := cmd 1 8 [1, 1]; let s : State := resUpd 1 1 0 (fun r => { r with st := some 3 }) noSpares; Serving s ∧ c.mb ≠ 0 ∧ (s.dev.role = .active ∨ s.dev.role = .standby) ∧ Inline c 8 ∧ kindDie (c.u8 0) (c.u8 1) = true ∧ c.rsv 5 3 = true ∧ c.u8 4 = 0 ∧ c.u16 2 < logCount (c.u8 0) ∧ dieOk s (c.u8 1) = true ∧ held s (.unitPool (c.u8 0)) = false ∧ (c.u8 0 = 1 ∨ c.u8 0 = 2) ∧ serving s (c.u8 0) (c.u8 1) (c.u16 2) = none) ∧
    (let c : Cmd := cmd 1 8 [1, 1]; let p : Nat := 0; let s : State := noSpares; Serving s ∧ c.mb ≠ 0 ∧ (s.dev.role = .active ∨ s.dev.role = .standby) ∧ Inline c 8 ∧ kindDie (c.u8 0) (c.u8 1) = true ∧ c.rsv 5 3 = true ∧ c.u8 4 = 0 ∧ c.u16 2 < logCount (c.u8 0) ∧ dieOk s (c.u8 1) = true ∧ held s (.unitPool (c.u8 0)) = false ∧ (c.u8 0 = 1 ∨ c.u8 0 = 2 ∨ c.u8 0 = 4) ∧ (c.u8 0 ≠ 4 ∨ pendCount s c.mb < 8) ∧ serving s (c.u8 0) (c.u8 1) (c.u16 2) = some p ∧ (sparesLeft s (c.u8 0) (c.u8 1) = [] ∨ (c.u8 0 = 4 ∧ spareIdle s = false))) ∧
    (let c : Cmd := cmd 1 8 [1, 1]; let p : Nat := 0; let s : State := inState .config; Serving s ∧ c.mb ≠ 0 ∧ (s.dev.role = .active ∨ s.dev.role = .standby) ∧ Inline c 8 ∧ kindDie (c.u8 0) (c.u8 1) = true ∧ c.rsv 5 3 = true ∧ c.u8 4 = 0 ∧ c.u16 2 < logCount (c.u8 0) ∧ dieOk s (c.u8 1) = true ∧ held s (.unitPool (c.u8 0)) = false ∧ (c.u8 0 = 1 ∨ c.u8 0 = 2) ∧ serving s (c.u8 0) (c.u8 1) (c.u16 2) = some p ∧ sparesLeft s (c.u8 0) (c.u8 1) ≠ []) ∧
    (let c : Cmd := cmd 1 8 [4, 3]; let p : Nat := 0; let s : State := (inState .config).onMeas (fun m => { m with spareCal := true }); Serving s ∧ c.mb ≠ 0 ∧ (s.dev.role = .active ∨ s.dev.role = .standby) ∧ Inline c 8 ∧ kindDie (c.u8 0) (c.u8 1) = true ∧ c.rsv 5 3 = true ∧ c.u8 4 = 0 ∧ c.u16 2 < logCount (c.u8 0) ∧ dieOk s (c.u8 1) = true ∧ held s (.unitPool (c.u8 0)) = false ∧ c.u8 0 = 4 ∧ pendCount s c.mb < 8 ∧ serving s 4 (c.u8 1) (c.u16 2) = some p ∧ sparesLeft s 4 (c.u8 1) ≠ [] ∧ spareIdle s = true) ∧
    (let c : Cmd := cmd 1 8 [1, 1, 2, 0, 1]; let s : State := inState .config; s.dev.state ∈ [.config, .factoryTest] ∧ c.mb ≠ 0 ∧ (s.dev.role = .active ∨ s.dev.role = .standby) ∧ Inline c 8 ∧ kindDie (c.u8 0) (c.u8 1) = true ∧ c.rsv 5 3 = true ∧ c.u8 4 = 1 ∧ c.u16 2 < physCount (c.u8 0) ∧ dieOk s (c.u8 1) = true ∧ held s (.unitPool (c.u8 0)) = false ∧ pendCount s c.mb < 8 ∧ (c.u8 0 = 1 ∨ c.u8 0 = 2 ∨ c.u8 0 = 4) ∧ resState s (c.u8 0) (c.u8 1) (c.u16 2) ≠ 3) ∧
    (let c : Cmd := cmd 1 8 [1, 1, 2, 0, 1]; let s : State := resUpd 1 1 2 (fun r => { r with st := some 3 }) (inState .config); s.dev.state ∈ [.config, .factoryTest] ∧ c.mb ≠ 0 ∧ (s.dev.role = .active ∨ s.dev.role = .standby) ∧ Inline c 8 ∧ kindDie (c.u8 0) (c.u8 1) = true ∧ c.rsv 5 3 = true ∧ c.u8 4 = 1 ∧ c.u16 2 < physCount (c.u8 0) ∧ dieOk s (c.u8 1) = true ∧ held s (.unitPool (c.u8 0)) = false ∧ pendCount s c.mb < 8 ∧ (c.u8 0 = 1 ∨ c.u8 0 = 2 ∨ c.u8 0 = 4) ∧ resState s (c.u8 0) (c.u8 1) (c.u16 2) = 3) ∧
    (let c : Cmd := cmd 1 8 [1, 1]; let s : State := (inState .config).onMb (fun m => { m with pend := [{ pendOf 0x1202 with objs := [.unitPool 1] }] }); Serving s ∧ c.mb ≠ 0 ∧ (s.dev.role = .active ∨ s.dev.role = .standby) ∧ Inline c 8 ∧ kindDie (c.u8 0) (c.u8 1) = true ∧ c.rsv 5 3 = true ∧ (1 ≤ c.u8 0 ∧ c.u8 0 ≤ 4) ∧ dieOk s (c.u8 1) = true ∧ ((c.u8 4 = 0 ∧ c.u16 2 < logCount (c.u8 0)) ∨ (c.u8 4 = 1 ∧ c.u16 2 < physCount (c.u8 0) ∧ s.dev.state ∈ [.config, .factoryTest])) ∧ (held s (.unitPool (c.u8 0)) = true ∨ ((c.u8 4 = 1 ∨ c.u8 0 = 4) ∧ 8 ≤ pendCount s c.mb))) ∧
    (let c : Cmd := cmd 1 8 [1, 1]; let s : State := (inState .config).onPower (fun p => { p with dieFailed := [1] }); Serving s ∧ c.mb ≠ 0 ∧ (s.dev.role = .active ∨ s.dev.role = .standby) ∧ Inline c 8 ∧ kindDie (c.u8 0) (c.u8 1) = true ∧ c.rsv 5 3 = true ∧ (1 ≤ c.u8 0 ∧ c.u8 0 ≤ 4) ∧ dieOk s (c.u8 1) = false ∧ c.u8 4 = 0) ∧
    (let c : Cmd := cmd 1 12 [2, 0, 0, 0, 5, 0, 0, 0, 9]; let s : State := inState .config; Serving s ∧ c.mb ≠ 0 ∧ Inline c 12 ∧ 1 ≤ c.u8 0 ∧ c.u8 0 ≤ 6 ∧ c.rsv 1 3 = true ∧ c.u32 4 ≠ 0 ∧ ((c.u8 0 ≤ 4 ∧ 1 ≤ c.u32 8 ∧ c.u32 8 ≤ 2592000) ∨ (c.u8 0 = 5 ∧ c.u32 8 = 0) ∨ (c.u8 0 = 6 ∧ c.u32 8 = 0 ∧ 80 ≤ c.u32 4 ∧ c.u32 4 ≤ 120))) ∧
    (let c : Cmd := cmd 1 12 [6, 0, 0, 0, 79]; let s : State := inState .config; Serving s ∧ c.mb ≠ 0 ∧ Inline c 12 ∧ (c.u32 4 = 0 ∨ (c.u8 0 ≤ 4 ∧ (c.u32 8 = 0 ∨ 2592000 < c.u32 8)) ∨ (5 ≤ c.u8 0 ∧ c.u32 8 ≠ 0) ∨ (c.u8 0 = 6 ∧ (c.u32 4 < 80 ∨ 120 < c.u32 4)))) ∧
    (let d : Nat := 0; let t : Nat := 3; let s : State := inState .config; ctlOk s d = true ∧ t < 18 ∧ testing s 1 (1 + d) t = false ∧ (tileGet s d t).item = none ∧ (tileGet s d t).retired = false ∧ (tileGet s d t).repair = false) ∧
    (let d : Nat := 0; let t : Nat := 2; let s : State := resUpd 1 1 2 (fun r => { r with st := some 4 }) (inState .config); ctlOk s d = true ∧ t < 18 ∧ testing s 1 (1 + d) t = true) ∧
    (let d : Nat := 0; let t : Nat := 18; let s : State := inState .config; (ctlOk s d = false ∨ 18 ≤ t ∨ (testing s 1 (1 + d) t = false ∧ ((tileGet s d t).item.isSome = true ∨ (tileGet s d t).retired = true ∨ (tileGet s d t).repair = true)))) ∧
    (let d : Nat := 0; let n : Nat := 0; let s : State := inState .config; ctlOk s d = true ∧ laneNext s d = n ∧ testing s 2 (1 + d) n = false) ∧
    (let d : Nat := 0; let n : Nat := 2; let s : State := resUpd 2 1 2 (fun r => { r with st := some 4 }) (inState .config); ctlOk s d = true ∧ laneNext s d = n ∧ testing s 2 (1 + d) n = true) ∧
    (let d : Nat := 2; let s : State := inState .config; ctlOk s d = false) ∧
    (let k : Nat := 1; let d : Nat := 1; let n : Nat := 2; let a : Nat := 0; let sp : Nat := 16; let s : State := inState .config; let v : State := retire 1 1 2 0 (inState .config); (k = 1 ∨ k = 2) ∧ 1 ≤ d ∧ ctlOk s (d - 1) = true ∧ n < physCount k ∧ resState s k d n ≠ 3 ∧ v = retire k d n a s ∧ (resServes s k d n).isSome = true ∧ (sparesLeft v k d).head? = some sp) ∧
    (let k : Nat := 1; let d : Nat := 1; let n : Nat := 16; let a : Nat := 0; let s : State := inState .config; let v : State := retire 1 1 16 0 (inState .config); (k = 1 ∨ k = 2) ∧ 1 ≤ d ∧ ctlOk s (d - 1) = true ∧ n < physCount k ∧ resState s k d n ≠ 3 ∧ v = retire k d n a s ∧ resServes s k d n = none) ∧
    (let k : Nat := 1; let d : Nat := 1; let n : Nat := 2; let a : Nat := 0; let l : Nat := 2; let s : State := noSpares; let v : State := retire 1 1 2 0 noSpares; (k = 1 ∨ k = 2) ∧ 1 ≤ d ∧ ctlOk s (d - 1) = true ∧ n < physCount k ∧ resState s k d n ≠ 3 ∧ v = retire k d n a s ∧ resServes s k d n = some l ∧ sparesLeft v k d = []) ∧
    (let d : Nat := 4; let n : Nat := 1; let s : State := inState .config; 4 ≤ d ∧ dieOk s d = true ∧ n < 8 ∧ portFitted s ((d - 4) * 8 + n) = true ∧ spareTaken s ((d - 4) * 8 + n) = false) ∧
    (let d : Nat := 4; let n : Nat := 1; let a : Nat := 0; let s : State := portUpd 0 (fun x => { x with shadow := some 0 }) (inState .config); let v : State := resUpd 3 4 1 (fun r => { r with cause := 0 }) (portUpd 0 (fun x => { x with shadow := some 0 }) (inState .config)); 4 ≤ d ∧ dieOk s d = true ∧ n < 8 ∧ portFitted s ((d - 4) * 8 + n) = true ∧ spareTaken s ((d - 4) * 8 + n) = true ∧ v = resUpd 3 d n (fun r => { r with cause := a }) s) ∧
    (let n : Nat := 1; let s : State := inState .config; resState s 4 3 n ≠ 3 ∧ resState s 4 3 n ≠ 4) ∧
    (let n : Nat := 1; let s : State := resUpd 4 3 1 (fun r => { r with st := some 3 }) (inState .config); (resState s 4 3 n = 3 ∨ resState s 4 3 n = 4)) ∧
    (let c : Nat := 1; let b : Nat := 5; let k : Nat := 11; let s : State := State.reset; k = 2 * b + c % 2 ∧ s.dev.state = .boot ∧ s.spare.badBlocks.contains k = false) ∧
    (let n : Nat := 3; let a : Nat := 1; let k : Nat := 3; let sp : Nat := 4096; let s : State := inState .config; let v : State := resUpd 7 0 3 (fun r => { r with st := some 3, cause := 1 }) (inState .config); n < 4352 ∧ resState s 7 0 n ≠ 3 ∧ resServes s 7 0 n = some k ∧ v = resUpd 7 0 n (fun r => { r with st := some 3, cause := a }) s ∧ (sparesLeft v 7 0).head? = some sp) ∧
    (let k : Nat := 9; let d : Nat := 0; let n : Nat := 0; let s : State := inState .config; (k = 0 ∨ 8 ≤ k ∨ ((k = 1 ∨ k = 2) ∧ (d = 0 ∨ ctlOk s (d - 1) = false ∨ physCount k ≤ n ∨ resState s k d n = 3)) ∨ (k = 3 ∧ (d < 4 ∨ dieOk s d = false ∨ 8 ≤ n ∨ portFitted s ((d - 4) * 8 + n) = false)) ∨ (k = 4 ∧ d ≠ 3) ∨ (k = 6 ∧ (s.dev.state ≠ .boot ∨ s.spare.badBlocks.contains (2 * n + d % 2) = true)) ∨ (k = 7 ∧ (resState s 7 0 n = 3 ∨ 4352 ≤ n)))) ∧
    (let k : Nat := 1; let d : Nat := 1; let n : Nat := 2; let l : Nat := 2; let w : Nat × Nat × Nat × Nat × Nat := ((1 : Nat), (1 : Nat), (2 : Nat), (16 : Nat), (0 : Nat)); let s : State := (retire 1 1 2 0 (inState .config)).onSpare (fun x => { x with waiting := [(1, 1, 2, 16, 0)] }); s.spare.waiting.find? (fun x => x.1 == k && x.2.1 == d && x.2.2.1 == n) = some w ∧ (k ≠ 1 ∨ (tileGet s (d - 1) n).item = none) ∧ l = (resGet s k d n).serves.getD n) ∧
    (let k : Nat := 1; let d : Nat := 1; let n : Nat := 2; let s : State := inState .config; (s.spare.waiting.find? (fun x => x.1 == k && x.2.1 == d && x.2.2.1 == n) = none ∨ (k = 1 ∧ (tileGet s (d - 1) n).item.isSome = true))) ∧
    (let d : Nat := 0; let s : State := inState .config; dieOk s d = true) ∧
    (let d : Nat := 9; let s : State := inState .config; dieOk s d = false) ∧
    (let h : Nat := 1; let l : Nat := 2; let a : Nat × Nat := ((1 : Nat), (0 : Nat)); let b : Nat × Nat := ((2 : Nat), (0 : Nat)); let s : State := inState .config; h < 4352 ∧ l < 4352 ∧ h ≠ l ∧ resState s 7 0 h ≠ 3 ∧ resState s 7 0 l ≠ 3 ∧ a = tget (h, 0) s.spare.sectors h ∧ b = tget (l, 0) s.spare.sectors l ∧ resState s 7 0 h = resState s 7 0 l) ∧
    (let h : Nat := 1; let l : Nat := 4096; let a : Nat × Nat := ((1 : Nat), (0 : Nat)); let b : Nat × Nat := ((4096 : Nat), (0 : Nat)); let s : State := inState .config; h < 4352 ∧ l < 4352 ∧ h ≠ l ∧ resState s 7 0 h ≠ 3 ∧ resState s 7 0 l ≠ 3 ∧ a = tget (h, 0) s.spare.sectors h ∧ b = tget (l, 0) s.spare.sectors l ∧ resState s 7 0 h ≠ resState s 7 0 l) ∧
    (let h : Nat := 1; let l : Nat := 1; let s : State := inState .config; (4352 ≤ h ∨ 4352 ≤ l ∨ h = l ∨ resState s 7 0 h = 3 ∨ resState s 7 0 l = 3)) ∧
    (let n : Nat := 3; n < 4352) ∧
    (let n : Nat := 4352; 4352 ≤ n) ∧
    (let d : Nat := 0; let q : Int := 100; let o : Thermal := {}; let y : Thermal := thermalStep 105 100 {}; let s : State := inState .config; o = tget {} s.spare.thermal d ∧ y = thermalStep ((thrGet s 6).1 : Int) q o ∧ dieOk s d = true ∧ s.dev.state ≠ .powerDown ∧ y.high = o.high ∧ (q < 500 ∨ o.trip = true)) ∧
    (let d : Nat := 0; let q : Int := 480; let o : Thermal := { hot := 2 }; let y : Thermal := thermalStep 105 480 { hot := 2 }; let s : State := (inState .config).onSpare (fun x => { x with thermal := [(0, { hot := 2 })] }); o = tget {} s.spare.thermal d ∧ y = thermalStep ((thrGet s 6).1 : Int) q o ∧ dieOk s d = true ∧ s.dev.state ≠ .powerDown ∧ o.high = false ∧ y.high = true ∧ (q < 500 ∨ o.trip = true)) ∧
    (let d : Nat := 0; let q : Int := 100; let o : Thermal := { high := true, cool := 99 }; let y : Thermal := thermalStep 105 100 { high := true, cool := 99 }; let s : State := (inState .config).onSpare (fun x => { x with thermal := [(0, { high := true, cool := 99 })] }); o = tget {} s.spare.thermal d ∧ y = thermalStep ((thrGet s 6).1 : Int) q o ∧ dieOk s d = true ∧ s.dev.state ≠ .powerDown ∧ o.high = true ∧ y.high = false ∧ (q < 500 ∨ o.trip = true)) ∧
    (let d : Nat := 0; let q : Int := 500; let o : Thermal := {}; let y : Thermal := thermalStep 105 500 {}; let s : State := inState .config; o = tget {} s.spare.thermal d ∧ y = thermalStep ((thrGet s 6).1 : Int) q o ∧ dieOk s d = true ∧ s.dev.state ≠ .powerDown ∧ 500 ≤ q ∧ o.trip = false) ∧
    (let d : Nat := 9; let s : State := inState .config; (dieOk s d = false ∨ s.dev.state = .powerDown)) ∧
    (let w : Int := 105; let q : Int := 420; let o : Thermal := { hot := 2 }; 4 * w ≤ q ∧ o.high = false) ∧
    (let w : Int := 105; let q : Int := 100; let o : Thermal := { high := true, cool := 99 }; q < 4 * (w - 5) ∧ o.high = true) := by
  iterate 45 refine And.intro (by intros; decide +kernel +zetaReduce) ?_
  intros; decide +kernel +zetaReduce

set_option maxRecDepth 20000 in
/-- States and operands that meet the hypotheses of ResponsesAreWrittenOrHeldNeverDropped, clause by clause. -/
theorem test_witness_ResponsesAreWrittenOrHeldNeverDropped :
    (let r : Response := aResponse; let s : State := enabledMb 2 (inState .config); ((mbGet s r.mb).rspTail - (mbGet s r.mb).rspHead).toNat < 64 ∧ (mbGet s r.mb).held = [] ∧ barOn s = true) ∧
    (let r : Response := aResponse; let s : State := mbUpd 2 (fun x => { x with rspTail := 64 }) (enabledMb 2 (inState .config)); (64 ≤ ((mbGet s r.mb).rspTail - (mbGet s r.mb).rspHead).toNat ∨ (mbGet s r.mb).held ≠ [] ∨ barOn s = false) ∧ r.mb < 8) ∧
    (let n : Nat := 2; let s : State := holding 2 (waiting 2 (inState .config)); (mbGet s n).held ≠ []) ∧
    (let mb : Fin 8 := 2; let r : Response := aResponse; let rest : List Response := []; let s : State := holding 2 (enabledMb 2 (inState .config)); barOn s = true ∧ (mbGet s mb.val).held = r :: rest ∧ r.mb = mb.val ∧ ringRoom (mbGet s mb.val) = true) ∧
    (let mb : Fin 8 := 2; let s : State := mbUpd 2 (fun x => { x with rspTail := 64 }) (holding 2 (enabledMb 2 (inState .config))); (ringRoom (mbGet s mb.val) = false ∨ barOn s = false ∨ (mbGet s mb.val).held = [])) := by
  iterate 4 refine And.intro (by intros; decide +kernel +zetaReduce) ?_
  intros; decide +kernel +zetaReduce

set_option maxRecDepth 20000 in
/-- States and operands that meet the hypotheses of BuffersAndAnswersWriteOnlyTheirBytes, clause by clause. -/
theorem test_witness_BuffersAndAnswersWriteOnlyTheirBytes :
    ((∀ i, i < ([1, 2] : Bytes).length → (66 : Nat) ≠ ((64 : Nat) + i) % 2 ^ 64)) ∧
    (let i : Nat := 1; let p : Bytes := [1, 2]; i < p.length ∧ p.length ≤ 2 ^ 64) ∧
    ((∀ i, i < 64 → (0x2040 : Nat) ≠ (rspAddr (mbGet (enabledMb 2 (inState .config) : State) (cmd 2 0 [] : Cmd).mb.val) + i) % 2 ^ 64)) := by
  refine And.intro (by decide +kernel) ?_
  refine And.intro (by intros; decide +kernel +zetaReduce) ?_
  decide +kernel

set_option maxRecDepth 20000 in
/-- States and operands that meet the hypotheses of ResetsAndBootTreatTheMailboxes, clause by clause. -/
theorem test_witness_ResetsAndBootTreatTheMailboxes :
    (let s : State := inState .powerDown; s.dev.state = .powerDown) ∧
    (let s : State := (inState .config).onPower (fun p => { p with resetReq := some ⟨true, 1⟩ }); let r : ResetReq := ⟨true, 1⟩; resetMay s = true ∧ s.power.resetReq = some r ∧ r.cold = true) ∧
    (let s : State := (inState .config).onPower (fun p => { p with resetReq := some ⟨false, 1⟩ }); let r : ResetReq := ⟨false, 1⟩; resetMay s = true ∧ s.power.resetReq = some r ∧ r.cold = false) ∧
    (let s : State := enabledMb 2 (inState .config); s.mb.pend = [] ∧ s.mb.inHand = none) ∧
    (let n : Nat := 2; let s : State := (waiting 2 State.reset).onPower (fun p => { p with hostUp := true }); s.dev.state = .boot ∧ barOn s = true ∧ s.mb.inHand = none ∧ nextMailbox s = some n) ∧
    (let s : State := State.reset; s.dev.state = .boot) ∧
    (let s : State := State.reset; s.dev.state = .boot) := by
  iterate 6 refine And.intro (by intros; decide +kernel +zetaReduce) ?_
  intros; decide +kernel +zetaReduce

set_option maxRecDepth 20000 in
/-- States and operands that meet the hypotheses of TimeValuesOf96BitsReadAndWrite, clause by clause. -/
theorem test_witness_TimeValuesOf96BitsReadAndWrite :
    (let t : Stamp := ⟨0xFFFFFFFFFFFF, 999999999, 0xFFFF⟩; t.sec < 2 ^ 48 ∧ t.nsec < 1000000000 ∧ t.frac < 2 ^ 16) ∧
    (let c : Cmd := cmd 1 12 (({ sec := 0xFFFFFFFFFFFF, nsec := 999999999, frac := 0xFFFF } : Stamp).bytes); let o : Nat := 0; let t : Stamp := { sec := 0xFFFFFFFFFFFF, nsec := 999999999, frac := 0xFFFF }; t.sec < 2 ^ 48 ∧ t.nsec < 1000000000 ∧ t.frac < 2 ^ 16 ∧ rd c.params o 12 = t.bits) ∧
    (let c : Cmd := cmd 1 12 (le 12 (1000000000 * 2 ^ 18)); let o : Nat := 0; 1000000000 ≤ rd c.params o 12 / 2 ^ 18 % 2 ^ 30) := by
  iterate 2 refine And.intro (by intros; decide +kernel +zetaReduce) ?_
  intros; decide +kernel +zetaReduce

set_option maxRecDepth 20000 in
/-- States and operands that meet the hypotheses of WrongStateAnswersNameTheLegalStates, clause by clause. -/
theorem test_witness_WrongStateAnswersNameTheLegalStates :
    (let g : Gate := { opcode := 0x1101, len := true, legal := inStates [.config] }; let c : Cmd := recCmd; let s : State := inState .standby; Serving s ∧ (if c.mb = 0 then g.mb0 else g.mb17) = true ∧ (g.test && !s.power.straps.ftest) = false ∧ g.len = true ∧ g.fitted = true ∧ g.legalIn s.dev.state = false) ∧
    (let c : Cmd := recCmd; let s : State := inState .standby; s.dev.state ∈ [.standby, .deblocked, .safeStop, .blockedFault, .replay] ∧ c.mb ≠ 0 ∧ Inline c 32) ∧
    (let c : Cmd := cmd 1 0 []; let s : State := inState .config; s.dev.state ∈ [.config, .standby, .deblocked, .safeStop, .replay, .factoryTest] ∧ c.mb ≠ 0 ∧ Inline c 0) := by
  iterate 2 refine And.intro (by intros; decide +kernel +zetaReduce) ?_
  intros; decide +kernel +zetaReduce

set_option maxRecDepth 20000 in
/-- States and operands that meet the hypotheses of OnlyFatalKindsSetFatal, clause by clause. -/
theorem test_witness_OnlyFatalKindsSetFatal :
    (let m : FaultMsg := aMsg; m.cls ≠ .fatal) ∧
    (let block : Nat := 0x001; let kind : Nat := 0x0C; fatalKind block kind = false) ∧
    (let die : Nat := 0; let block : Nat := 0x002; let kind : Nat := 0x02; let s : State := inState .config; fatalKind block kind = true ∧ dieOk s die = true ∧ s.dev.state ≠ .powerDown) ∧
    (let c : Cmd := cmd 1 16 [0, 0, 1, 0, 12, 0]; let s : State := withFtest (inState .factoryTest); Serving s ∧ s.dev.state = .factoryTest ∧ c.u8 0 = 0 ∧ c.u8 5 < 3) := by
  iterate 3 refine And.intro (by intros; decide +kernel +zetaReduce) ?_
  intros; decide +kernel +zetaReduce

end Sys2Proof.Tests
end

/-! PROOFS. The whole machine: the parts each command may touch (O5). -/

namespace Sys2Proof.Machine

open Sys2Proof

/-- Every command answers a next state within its parts: its arm of `exec` is one meaning, and each meaning has its footprint in
Laws/KeepsExec. The arms stand in the order of `exec`. -/
theorem exec_answers (i : Instr) (s : State) : Answers (touches i) s (exec i s) :=
  match i with
  | .sysCaps c => execSysCaps_keeps c s
  | .sysStateGet c => execSysStateGet_keeps c s
  | .sysStateRequest c => execSysStateRequest_keeps c s
  | .sysBlockClear c => execSysBlockClear_keeps c s
  | .sysReset c => execSysReset_keeps c s
  | .sysLogRead c => execSysLogRead_keeps c s
  | .sysNop c => execSysNop_keeps c s
  | .testEnter c => execTestEnter_keeps c s
  | .tickConfig c => execTickConfig_keeps c s
  | .tickCommit c => execTickCommit_keeps c s
  | .tickStatus c => execTickStatus_keeps c s
  | .cellPortUp c => execCellPortUp_keeps c s
  | .cellPortDown c => execCellPortDown_keeps c s
  | .cellRangeRead c => execCellRangeRead_keeps c s
  | .cellPortRemap c => execCellPortRemap_keeps c s
  | .cellRosterLoad c => execCellRosterLoad_keeps c s
  | .cellRosterRead c => execCellRosterRead_keeps c s
  | .cellHealthSet c => execCellHealthSet_keeps c s
  | .cellContextRead c => execCellContextRead_keeps c s
  | .cellSafeStateSet c => execCellSafeStateSet_keeps c s
  | .aieArmConfig c => execAieArmConfig_keeps c s
  | .aieSelectParams c => execAieSelectParams_keeps c s
  | .aieDerateConfig c => execAieDerateConfig_keeps c s
  | .aieWearRead c => execAieWearRead_keeps c s
  | .aieArmStatus c => execAieArmStatus_keeps c s
  | .pwmArmConfig c => execPwmArmConfig_keeps c s
  | .pwmPairConfig c => execPwmPairConfig_keeps c s
  | .pwmTripConfig c => execPwmTripConfig_keeps c s
  | .pwmTripClear c => execPwmTripClear_keeps c s
  | .pwmStatus c => execPwmStatus_keeps c s
  | .loopChannelConfig c => execLoopChannelConfig_keeps c s
  | .loopCoeffLoad c => execLoopCoeffLoad_keeps c s
  | .loopTableLoad c => execLoopTableLoad_keeps c s
  | .loopScheduleConfig c => execLoopScheduleConfig_keeps c s
  | .loopRepetitiveConfig c => execLoopRepetitiveConfig_keeps c s
  | .loopSupervisorConfig c => execLoopSupervisorConfig_keeps c s
  | .loopStatus c => execLoopStatus_keeps c s
  | .tileKernelLoad c => execTileKernelLoad_keeps c s
  | .tileKernelBind c => execTileKernelBind_keeps c s
  | .tileRomList c => execTileRomList_keeps c s
  | .tileStatus c => execTileStatus_keeps c s
  | .dispFlowConfig c => execDispFlowConfig_keeps c s
  | .dispClassConfig c => execDispClassConfig_keeps c s
  | .dispCancel c => execDispCancel_keeps c s
  | .dispStatsRead c => execDispStatsRead_keeps c s
  | .measChannelConfig c => execMeasChannelConfig_keeps c s
  | .measSequenceConfig c => execMeasSequenceConfig_keeps c s
  | .measFilterConfig c => execMeasFilterConfig_keeps c s
  | .measRefSelect c => execMeasRefSelect_keeps c s
  | .measCalibrate c => execMeasCalibrate_keeps c s
  | .measDiagRun c => execMeasDiagRun_keeps c s
  | .measStatus c => execMeasStatus_keeps c s
  | .acqChannelConfig c => execAcqChannelConfig_keeps c s
  | .acqTriggerConfig c => execAcqTriggerConfig_keeps c s
  | .acqArm c => execAcqArm_keeps c s
  | .acqSegmentRead c => execAcqSegmentRead_keeps c s
  | .acqLocate c => execAcqLocate_keeps c s
  | .protElementConfig c => execProtElementConfig_keeps c s
  | .protCurveLoad c => execProtCurveLoad_keeps c s
  | .protTripMap c => execProtTripMap_keeps c s
  | .protTripReset c => execProtTripReset_keeps c s
  | .protRecordConfig c => execProtRecordConfig_keeps c s
  | .protRecordExport c => execProtRecordExport_keeps c s
  | .protStatus c => execProtStatus_keeps c s
  | .timeBaseSet c => execTimeBaseSet_keeps c s
  | .timeDisciplineConfig c => execTimeDisciplineConfig_keeps c s
  | .timePtpConfig c => execTimePtpConfig_keeps c s
  | .timeOutputConfig c => execTimeOutputConfig_keeps c s
  | .timeStampConfig c => execTimeStampConfig_keeps c s
  | .timeStatus c => execTimeStatus_keeps c s
  | .netPortConfig c => execNetPortConfig_keeps c s
  | .netGooseConfig c => execNetGooseConfig_keeps c s
  | .netSvConfig c => execNetSvConfig_keeps c s
  | .netDmaStreamConfig c => execNetDmaStreamConfig_keeps c s
  | .netStatus c => execNetStatus_keeps c s
  | .safeConfigRead c => execSafeConfigRead_keeps c s
  | .safeSealConfirm c => execSafeSealConfirm_keeps c s
  | .safeRampConfig c => execSafeRampConfig_keeps c s
  | .safeStop c => execSafeStop_keeps c s
  | .safeTorqueOff c => execSafeTorqueOff_keeps c s
  | .safeReset c => execSafeReset_keeps c s
  | .safeStatus c => execSafeStatus_keeps c s
  | .faultMaskSet c => execFaultMaskSet_keeps c s
  | .faultColophonRead c => execFaultColophonRead_keeps c s
  | .faultColophonRearm c => execFaultColophonRearm_keeps c s
  | .faultStatus c => execFaultStatus_keeps c s
  | .testFaultInject c => execTestFaultInject_keeps c s
  | .redPairForm c => execRedPairForm_keeps c s
  | .redRoleHandover c => execRedRoleHandover_keeps c s
  | .redUnfence c => execRedUnfence_keeps c s
  | .redCompareConfig c => execRedCompareConfig_keeps c s
  | .redStatus c => execRedStatus_keeps c s
  | .recConfig c => execRecConfig_keeps c s
  | .recFreeze c => execRecFreeze_keeps c s
  | .recFreezeRead c => execRecFreezeRead_keeps c s
  | .recReplayStart c image => execRecReplayStart_keeps c image s
  | .recReplayStop c => execRecReplayStop_keeps c s
  | .recStatus c => execRecStatus_keeps c s
  | .spareStatus c => execSpareStatus_keeps c s
  | .spareSwap c => execSpareSwap_keeps c s
  | .spareThresholdSet c => execSpareThresholdSet_keeps c s
  | .monAttach c => execMonAttach_keeps c s
  | .monReset c => execMonReset_keeps c s
  | .monRead c => execMonRead_keeps c s
  | .mbEnable mb value => execMbEnable_keeps mb value s
  | .mbDisable mb value => execMbDisable_keeps mb value s
  | .mbDoorbell mb value => execMbDoorbell_keeps mb value s
  | .mbRspHeadWrite mb value => execMbRspHeadWrite_keeps mb value s
  | .heldResponseWrite mb => execHeldResponseWrite_keeps mb s
  | .commandFetch entry block => execCommandFetch_keeps entry block s
  | .tbTimeLatchRead n => execTbTimeLatchRead_keeps n s
  | .tbIncApply n value => execTbIncApply_keeps n value s
  | .tsPop => execTsPop_keeps s
  | .evqEnableWrite value => execEvqEnableWrite_keeps value s
  | .evqHeadWrite value => execEvqHeadWrite_keeps value s
  | .fatalCauseRead => execFatalCauseRead_keeps s
  | .monWindowRead mon => execMonWindowRead_keeps mon s
  | .registerWrite offset width value => execRegisterWrite_keeps offset width value s
  | .nporAccept => execNporAccept_keeps s
  | .nporRise => execNporRise_keeps s
  | .strapSample pairsel trefsel ftest unitid => execStrapSample_keeps pairsel trefsel ftest unitid s
  | .bootPllLock => execBootPllLock_keeps s
  | .bootFirmwareStart => execBootFirmwareStart_keeps s
  | .bootTimePllLock => execBootTimePllLock_keeps s
  | .bootLinksUp failed => execBootLinksUp_keeps failed s
  | .bootSelftestDone test => execBootSelftestDone_keeps test s
  | .bootDdrTrained mibA mibB => execBootDdrTrained_keeps mibA mibB s
  | .bootPcieReady => execBootPcieReady_keeps s
  | .bootComplete => execBootComplete_keeps s
  | .perstnAssert => execPerstnAssert_keeps s
  | .railLow die rail stays => execRailLow_keeps die rail stays s
  | .refclkLost => execRefclkLost_keeps s
  | .timerefLost => execTimerefLost_keeps s
  | .timerefReturn => execTimerefReturn_keeps s
  | .ethRefclkLost => execEthRefclkLost_keeps s
  | .pcieRefclkLost => execPcieRefclkLost_keeps s
  | .xtal32Lost => execXtal32Lost_keeps s
  | .pllUnlock domain => execPllUnlock_keeps domain s
  | .tempSensorRead die quarters => execTempSensorRead_keeps die quarters s
  | .rstbtnPressSeen atBoot => execRstbtnPressSeen_keeps atBoot s
  | .rstbtnReleaseSeen ms => execRstbtnReleaseSeen_keeps ms s
  | .rstbtnStuck => execRstbtnStuck_keeps s
  | .rstbtnStuckClear => execRstbtnStuckClear_keeps s
  | .resetRequest cold source => execResetRequest_keeps cold source s
  | .resetExecute => execResetExecute_keeps s
  | .heartbeatIncrement => execHeartbeatIncrement_keeps s
  | .aliveToggle => execAliveToggle_keeps s
  | .tamperPulse level => execTamperPulse_keeps level s
  | .aonPowerLoss => execAonPowerLoss_keeps s
  | .holdoverLoad sec => execHoldoverLoad_keeps sec s
  | .tickBoundary => execTickBoundary_keeps s
  | .inputCrossing => execInputCrossing_keeps s
  | .outputCrossing late aieEnd => execOutputCrossing_keeps late aieEnd s
  | .commitApply good => execCommitApply_keeps good s
  | .commitWithdraw => execCommitWithdraw_keeps s
  | .tickLengthChange => execTickLengthChange_keeps s
  | .deviceStateTransition => execDeviceStateTransition_keeps s
  | .deblockEnter => execDeblockEnter_keeps s
  | .loopHoldExpiry lch => execLoopHoldExpiry_keeps lch s
  | .loopSatTimeReached lch => execLoopSatTimeReached_keeps lch s
  | .loopAutoResume lch => execLoopAutoResume_keeps lch s
  | .aieClampWindowEnd arm => execAieClampWindowEnd_keeps arm s
  | .aieUnresolved arm => execAieUnresolved_keeps arm s
  | .designatedCellRotate arm => execDesignatedCellRotate_keeps arm s
  | .wearPenaltyRecompute => execWearPenaltyRecompute_keeps s
  | .wearSave => execWearSave_keeps s
  | .armOverrunLimit arm => execArmOverrunLimit_keeps arm s
  | .blockRequestSend cause => execBlockRequestSend_keeps cause s
  | .safeRequestSend cause => execSafeRequestSend_keeps cause s
  | .timeSetSend port => execTimeSetSend_keeps port s
  | .portStartingDone port => execPortStartingDone_keeps port s
  | .rangeMeasurementJudge port reply => execRangeMeasurementJudge_keeps port reply s
  | .portVerifyEnter port => execPortVerifyEnter_keeps port s
  | .portInService port => execPortInService_keeps port s
  | .upstreamBurstReceive port slot burst => execUpstreamBurstReceive_keeps port slot burst s
  | .rerangingMark cid => execRerangingMark_keeps cid s
  | .launchCalibration => execLaunchCalibration_keeps s
  | .wakingComplete port => execWakingComplete_keeps port s
  | .sparePortTakeover port => execSparePortTakeover_keeps port s
  | .portLost loss => execPortLost_keeps loss s
  | .rejoinTimeout cid => execRejoinTimeout_keeps cid s
  | .safeSelRequeue cid => execSafeSelRequeue_keeps cid s
  | .contextEccError port entry double => execContextEccError_keeps port entry double s
  | .cellWordLock cid onB line => execCellWordLock_keeps cid onB line s
  | .cellFrameTake cid onB rx => execCellFrameTake_keeps cid onB rx s
  | .cellFrameDeadline cell => execCellFrameDeadline_keeps cell s
  | .cellBlockAccept cid onB rx => execCellBlockAccept_keeps cid onB rx s
  | .cellSafeAccept cid onB rx => execCellSafeAccept_keeps cid onB rx s
  | .cellTimeSetAccept cid onB rx elapsed => execCellTimeSetAccept_keeps cid onB rx elapsed s
  | .cellSleepAccept cid onB before line => execCellSleepAccept_keeps cid onB before line s
  | .cellBlockHoldEnd cell => execCellBlockHoldEnd_keeps cell s
  | .cellWatchdogExpiry cid => execCellWatchdogExpiry_keeps cid s
  | .cellLinkLoss cid onB => execCellLinkLoss_keeps cid onB s
  | .cellEdgeExecute cid => execCellEdgeExecute_keeps cid s
  | .cellSampleLatch cid vcap temp aux => execCellSampleLatch_keeps cid vcap temp aux s
  | .cellBurstLaunch cid onB => execCellBurstLaunch_keeps cid onB s
  | .cellFaultDetect cid fault => execCellFaultDetect_keeps cid fault s
  | .cellPermBypass cid => execCellPermBypass_keeps cid s
  | .pairCounterZero pair offset => execPairCounterZero_keeps pair offset s
  | .pairCounterPeriod pair offset => execPairCounterPeriod_keeps pair offset s
  | .pairCompareMatch pair offset up => execPairCompareMatch_keeps pair offset up s
  | .pairDutyArrival pair => execPairDutyArrival_keeps pair s
  | .pairCommutationSensed pair high ns => execPairCommutationSensed_keeps pair high ns s
  | .pairDeadtimeEnd pair => execPairDeadtimeEnd_keeps pair s
  | .comparatorActive cmp => execComparatorActive_keeps cmp s
  | .comparatorInactive cmp => execComparatorInactive_keeps cmp s
  | .opNop die tile word => execOpNop_keeps die tile word s
  | .opEnd die tile word => execOpEnd_keeps die tile word s
  | .opRep die tile word => execOpRep_keeps die tile word s
  | .opBr die tile word => execOpBr_keeps die tile word s
  | .opAdd die tile word => execOpAdd_keeps die tile word s
  | .opSub die tile word => execOpSub_keeps die tile word s
  | .opAdds die tile word => execOpAdds_keeps die tile word s
  | .opSubs die tile word => execOpSubs_keeps die tile word s
  | .opAnd die tile word => execOpAnd_keeps die tile word s
  | .opOr die tile word => execOpOr_keeps die tile word s
  | .opXor die tile word => execOpXor_keeps die tile word s
  | .opMin die tile word => execOpMin_keeps die tile word s
  | .opMax die tile word => execOpMax_keeps die tile word s
  | .opAbs die tile word => execOpAbs_keeps die tile word s
  | .opNeg die tile word => execOpNeg_keeps die tile word s
  | .opShl die tile word => execOpShl_keeps die tile word s
  | .opShr die tile word => execOpShr_keeps die tile word s
  | .opCmp die tile word => execOpCmp_keeps die tile word s
  | .opAddi die tile word => execOpAddi_keeps die tile word s
  | .opLil die tile word => execOpLil_keeps die tile word s
  | .opLih die tile word => execOpLih_keeps die tile word s
  | .opMvpi die tile word => execOpMvpi_keeps die tile word s
  | .opMvpd die tile word => execOpMvpd_keeps die tile word s
  | .opMvc die tile word => execOpMvc_keeps die tile word s
  | .opLd die tile word => execOpLd_keeps die tile word s
  | .opSt die tile word => execOpSt_keeps die tile word s
  | .opMpy die tile word => execOpMpy_keeps die tile word s
  | .opMac die tile word => execOpMac_keeps die tile word s
  | .opMsu die tile word => execOpMsu_keeps die tile word s
  | .opSta die tile word => execOpSta_keeps die tile word s
  | .opLda die tile word => execOpLda_keeps die tile word s
  | .opMva die tile word => execOpMva_keeps die tile word s
  | .opMpyxy die tile word => execOpMpyxy_keeps die tile word s
  | .opMacxy die tile word => execOpMacxy_keeps die tile word s
  | .opMsuxy die tile word => execOpMsuxy_keeps die tile word s
  | .opBexr die tile word => execOpBexr_keeps die tile word s
  | .opBexp die tile word => execOpBexp_keeps die tile word s
  | .opExp die tile word => execOpExp_keeps die tile word s
  | .opBshl die tile word => execOpBshl_keeps die tile word s
  | .opStb die tile word => execOpStb_keeps die tile word s
  | .opGets die tile word => execOpGets_keeps die tile word s
  | .opPut die tile word => execOpPut_keeps die tile word s
  | .tileCycleLimit die tile => execTileCycleLimit_keeps die tile s
  | .tileMemoryError die tile mem addr double => execTileMemoryError_keeps die tile mem addr double s
  | .tileRepairDone die tile => execTileRepairDone_keeps die tile s
  | .tileKnownAnswerTest die tile pass => execTileKnownAnswerTest_keeps die tile pass s
  | .itemStart die wait => execItemStart_keeps die wait s
  | .itemRelease die item => execItemRelease_keeps die item s
  | .itemTimeout die flow seq => execItemTimeout_keeps die flow seq s
  | .dispCancelAct die => execDispCancelAct_keeps die s
  | .shedLevelFall die => execShedLevelFall_keeps die s
  | .portAgeExpiry die port => execPortAgeExpiry_keeps die port s
  | .adcConversionComplete unit code at_ => execAdcConversionComplete_keeps unit code at_ s
  | .injectedTrigger trig => execInjectedTrigger_keeps trig s
  | .measurementSetLatch at_ => execMeasurementSetLatch_keeps at_ s
  | .refMonitorCheck inSettle inHold => execRefMonitorCheck_keeps inSettle inHold s
  | .calibrationComplete unit offset gain => execCalibrationComplete_keeps unit offset gain s
  | .autoCalibration => execAutoCalibration_keeps s
  | .levelTestComplete m1 m3 => execLevelTestComplete_keeps m1 m3 s
  | .autoLevelTest => execAutoLevelTest_keeps s
  | .pathTestComplete m1 m3 => execPathTestComplete_keeps m1 m3 s
  | .unitFail unit cause => execUnitFail_keeps unit cause s
  | .twTrigger t1 streams comparators => execTwTrigger_keeps t1 streams comparators s
  | .twAutoTimeout ch t written => execTwAutoTimeout_keeps ch t written s
  | .twSegmentClose ch raw => execTwSegmentClose_keeps ch raw s
  | .protSlowCycle k tcs dram => execProtSlowCycle_keeps k tcs dram s
  | .protFastCycle k => execProtFastCycle_keeps k s
  | .twElementTrigger => execTwElementTrigger_keeps s
  | .tripTminExpiry out => execTripTminExpiry_keeps out s
  | .coilSupervisionExpiry out level => execCoilSupervisionExpiry_keeps out level s
  | .protRecordClose => execProtRecordClose_keeps s
  | .ppsInEdge rising dt => execPpsInEdge_keeps rising dt s
  | .disciplineDecision => execDisciplineDecision_keeps s
  | .ppsLoss => execPpsLoss_keeps s
  | .linkTrackUpdate dclk => execLinkTrackUpdate_keeps dclk s
  | .errorBoundUpdate => execErrorBoundUpdate_keeps s
  | .leapSecond => execLeapSecond_keeps s
  | .ppsOutPulse out k => execPpsOutPulse_keeps out k s
  | .ppsOutPulseEnd out => execPpsOutPulseEnd_keeps out s
  | .irigbFrame sec => execIrigbFrame_keeps sec s
  | .tsInEdge input rising dt held => execTsInEdge_keeps input rising dt held s
  | .ptpSyncSend port => execPtpSyncSend_keeps port s
  | .ptpMessageReceive port msg => execPtpMessageReceive_keeps port msg s
  | .ptpAnnounceTimeout port => execPtpAnnounceTimeout_keeps port s
  | .ethLinkChange port up => execEthLinkChange_keeps port up s
  | .svFrameReceive port frame time => execSvFrameReceive_keeps port frame time s
  | .svStreamMiss stream => execSvStreamMiss_keeps stream s
  | .gooseFrameReceive port frame now => execGooseFrameReceive_keeps port frame now s
  | .gooseStale sub => execGooseStale_keeps sub s
  | .goosePublishSample => execGoosePublishSample_keeps s
  | .gooseRetransmit pub => execGooseRetransmit_keeps pub s
  | .safeMessageDeliver conn => execSafeMessageDeliver_keeps conn s
  | .safeCopyWindowExpiry conn => execSafeCopyWindowExpiry_keeps conn s
  | .foreignFrameReceive port => execForeignFrameReceive_keeps port s
  | .dmaRecordWrite stream => execDmaRecordWrite_keeps stream s
  | .dmaRecordDrop stream => execDmaRecordDrop_keeps stream s
  | .sealSwitchRead value => execSealSwitchRead_keeps value s
  | .mainPathCycle run => execMainPathCycle_keeps run s
  | .mordantCheck => execMordantCheck_keeps s
  | .mordantHeartbeatLoss => execMordantHeartbeatLoss_keeps s
  | .mordantSuspendExpiry => execMordantSuspendExpiry_keeps s
  | .safeMessageSend conn => execSafeMessageSend_keeps conn s
  | .safeRxWatchdogExpiry conn => execSafeRxWatchdogExpiry_keeps conn s
  | .faultMessageArrive => execFaultMessageArrive_keeps s
  | .fatalFault die block kind addr => execFatalFault_keeps die block kind addr s
  | .evqEntryMove => execEvqEntryMove_keeps s
  | .colophonFreeze => execColophonFreeze_keeps s
  | .giveWayInterim => execGiveWayInterim_keeps s
  | .xlinkBringupDone locked order inverted pairsel variant => execXlinkBringupDone_keeps locked order inverted pairsel variant s
  | .xlinkDown lane => execXlinkDown_keeps lane s
  | .xlTickReceive tick => execXlTickReceive_keeps tick s
  | .xlMsetReceive tick set => execXlMsetReceive_keeps tick set s
  | .xlCommitReceive boundary mask crc => execXlCommitReceive_keeps boundary mask crc s
  | .xlStateReceive disputed state cause boundary => execXlStateReceive_keeps disputed state cause boundary s
  | .xlBlockReceive cause => execXlBlockReceive_keeps cause s
  | .xlCheckReceive pass => execXlCheckReceive_keeps pass s
  | .xlTimeMarker x bases qual bound => execXlTimeMarker_keeps x bases qual bound s
  | .xlHandoverReceive boundary => execXlHandoverReceive_keeps boundary s
  | .disputedEnter => execDisputedEnter_keeps s
  | .selfCheckDone kat scrub links => execSelfCheckDone_keeps kat scrub links s
  | .roleDecision => execRoleDecision_keeps s
  | .checkTimeout => execCheckTimeout_keeps s
  | .partnerBack => execPartnerBack_keeps s
  | .promotion => execPromotion_keeps s
  | .unfenceInstallDone => execUnfenceInstallDone_keeps s
  | .tapBufferDrain => execTapBufferDrain_keeps s
  | .tapEntryLost tap ports => execTapEntryLost_keeps tap ports s
  | .freezeComplete slot => execFreezeComplete_keeps slot s
  | .decimatedWrite => execDecimatedWrite_keeps s
  | .replayEnter => execReplayEnter_keeps s
  | .replayEnd late => execReplayEnd_keeps late s
  | .cdcStall die code inst ns => execCdcStall_keeps die code inst ns s
  | .cdcUnstable die code inst pairs => execCdcUnstable_keeps die code inst pairs s
  | .loopLaneKat die pass => execLoopLaneKat_keeps die pass s
  | .resourceFail kind die phys cause => execResourceFail_keeps kind die phys cause s
  | .spareIn kind die phys => execSpareIn_keeps kind die phys s
  | .sramRowRepair die block mem row => execSramRowRepair_keeps die block mem row s
  | .mramWearLevel high low => execMramWearLevel_keeps high low s
  | .mramRetentionRewrite sector => execMramRetentionRewrite_keeps sector s
  | .monitorSample mon value => execMonitorSample_keeps mon value s
  | .illegalInstruction die tile word => execIllegalInstruction_keeps die tile word s
  | .cellPowerUp cid identity => execCellPowerUp_keeps cid identity s
  | .perstnRelease => execPerstnRelease_keeps s
  | .packageLinkDown link => execPackageLinkDown_keeps link s
  | .pcieAerError correctable status => execPcieAerError_keeps correctable status s
  | .refSelectTimeout => execRefSelectTimeout_keeps s
  | .unfenceTimeout => execUnfenceTimeout_keeps s
  | .xlclkLock digest align => execXlclkLock_keeps digest align s
  | .finalResponse mb => execFinalResponse_keeps mb s

/-- Settles O5: `Answers` says what the statement spells out, and each arm of `exec` has it of the parts that `touches` lists. -/
theorem everyCommandAnswersWithinItsParts : Obligations.EveryCommandAnswersWithinItsParts := exec_answers

end Sys2Proof.Machine

/-! PROOFS. Numbers in parameter bytes: what the bytes of a number read back as. -/

namespace Sys2Proof.Machine

open Sys2Proof

@[simp] theorem rd_cons_succ (b : Byte) (p : Bytes) (off n : Nat) : rd (b :: p) (off + 1) n = rd p off n := by
  induction n generalizing off with
  | zero => rfl
  | succ m ih => simp [rd, ih]

/-- The bytes of a number read back as its value, cut to their width. -/
theorem rd_le (n x : Nat) : rd (le n x) 0 n = x % 256 ^ n := by
  induction n generalizing x with
  | zero => simp [rd, Nat.mod_one]
  | succ m ih =>
    calc rd (le (m + 1) x) 0 (m + 1) = x % 256 + 256 * rd (le m (x / 256)) 0 m := by simp [le, rd]
      _ = x % 256 + 256 * (x / 256 % 256 ^ m) := by rw [ih]
      _ = x % 256 ^ (m + 1) := by rw [Nat.pow_succ', Nat.mod_mul]

/-- The first byte of a longer field is the field's low byte. -/
theorem rd_one_eq_mod (p : Bytes) (off m : Nat) : rd p off 1 = rd p off (m + 1) % 256 := by
  have := (p.getD off 0).isLt
  simp only [rd]
  omega

end Sys2Proof.Machine

/-! PROOFS. The 96-bit format of time values (R13, O58). -/

namespace Sys2Proof

open Machine

/-- Each field of the value lies within its place of the 96-bit word. -/
structure Stamp.Fits (t : Stamp) : Prop where
  sec : t.sec < 2 ^ 48
  nsec : t.nsec < 1000000000
  frac : t.frac < 2 ^ 16

theorem Stamp.Fits.bits_eq {t : Stamp} (h : t.Fits) : t.bits = t.sec * 2 ^ 48 + t.nsec * 2 ^ 18 + t.frac * 4 := by
  rw [Stamp.bits, Nat.mod_eq_of_lt h.sec]

theorem Stamp.Fits.bits_lt {t : Stamp} (h : t.Fits) : t.bits < 256 ^ 12 := by
  obtain ⟨hs, hn, hf⟩ := h
  rw [Stamp.bits]
  omega

/-- The 12 bytes of a value hold its 96-bit word. -/
theorem Stamp.Fits.rd_bytes {t : Stamp} (h : t.Fits) : rd t.bytes 0 12 = t.bits := by
  rw [Stamp.bytes, rd_le, Nat.mod_eq_of_lt h.bits_lt]

/-- Parameters that hold the word of a value read as that value: the places of the fields do not overlap. -/
theorem Stamp.Fits.stamp_eq {c : Cmd} {o : Nat} {t : Stamp} (h : t.Fits) (hp : rd c.params o 12 = t.bits) : c.stamp o = t := by
  obtain ⟨sec, nsec, frac⟩ := t
  have hb := h.bits_eq
  obtain ⟨hs, hn, hf⟩ := h
  simp only at hb hs hn hf
  simp only [Cmd.stamp, hp, hb, Stamp.mk.injEq]
  omega

/-- Such parameters are taken as valid: the two reserved bits lie in the first byte, and the word of a value has them zero. -/
theorem Stamp.Fits.stampOk {c : Cmd} {o : Nat} {t : Stamp} (h : t.Fits) (hp : rd c.params o 12 = t.bits) : c.stampOk o = true := by
  have hr : rd c.params o 1 % 4 = 0 := by
    rw [rd_one_eq_mod _ _ 11, hp, Stamp.bits]
    omega
  simp [Cmd.stampOk, h.stamp_eq hp, h.nsec, hr]

theorem stampOk_eq_false_of_le_nsec {c : Cmd} {o : Nat} (h : 1000000000 ≤ (c.stamp o).nsec) : c.stampOk o = false := by
  simp [Cmd.stampOk, Nat.not_lt.mpr h]

theorem stampOf_nsec_lt (v : Nat) : (stampOf v).nsec < 1000000000 := Nat.mod_lt _ (by decide)

theorem stampOf_frac_lt (v : Nat) : (stampOf v).frac < 2 ^ 16 := Nat.mod_lt _ (by decide)

/-- Settles O58: the fields fit their places of the 96-bit word, so that the word gives them back; the nanoseconds a time base
shows are a remainder by 10^9. -/
theorem timeValuesOf96BitsReadAndWrite : Obligations.TimeValuesOf96BitsReadAndWrite := by
  refine ⟨?writes, ?reads, ?invalid, ?shows⟩
  case writes =>
    intro t hs hn hf
    have h : t.Fits := ⟨hs, hn, hf⟩
    exact ⟨le_length .., h.rd_bytes.trans h.bits_eq⟩
  case reads =>
    intro c o t hs hn hf hp
    have h : t.Fits := ⟨hs, hn, hf⟩
    exact ⟨h.stamp_eq hp, h.stampOk hp⟩
  case invalid => exact fun _ _ h => stampOk_eq_false_of_le_nsec h
  case shows => exact fun v => ⟨stampOf_nsec_lt v, stampOf_frac_lt v⟩

end Sys2Proof

/-! PROOFS. The gate of Table 4.9 as a command meets it: it runs, or the last check answers BUSY. -/

namespace Sys2Proof.Machine

open Sys2Proof

theorem inl_of_inline {c : Cmd} {n : Nat} (h : Inline c n) : c.inl n = true := by
  obtain ⟨hflags, -, hlen⟩ := h
  simp [Cmd.inl, isExt0 hflags, hlen]

theorem entryReserved_of_inline {c : Cmd} {n : Nat} (h : Inline c n) : c.entryReserved = true := res0 h.1 h.2.1

theorem serving_of_mem {s : State} {l : List DevState} (h : s.dev.state ∈ l) (hp : DevState.powerDown ∉ l) (hb : DevState.boot ∉ l) :
    Serving s := ⟨fun e => hp (e ▸ h), fun e => hb (e ▸ h)⟩

/-- The command passes every check of Table 4.9 before the last one, on what is held. -/
structure Gate.Passes (g : Gate) (c : Cmd) (s : State) : Prop where
  serving : Serving s
  mailbox : (if c.mb = 0 then g.mb0 else g.mb17) = true
  test : (g.test && !s.power.straps.ftest) = false
  len : g.len = true
  fitted : g.fitted = true
  legal : g.legalIn s.dev.state = true
  roles : g.roles s.dev.role = true
  permit : g.permit = true
  par : g.par = true
  entry : c.entryReserved = true

/-- MB1 to MB7 serve the command. -/
theorem mailbox_of_ne_zero {g : Gate} {c : Cmd} (hmb : c.mb ≠ 0) (h : g.mb17 = true) : (if c.mb = 0 then g.mb0 else g.mb17) = true :=
  (if_neg hmb).trans h

variable {g : Gate} {c : Cmd} {s : State} {act : State → Reply}

section
variable (h : g.Passes c s) (hfree : g.free = true) (hpend : (g.pends && decide (8 ≤ pendCount s c.mb)) = false) {t : State} {st : Status}
  {r : Bytes}
include h hfree hpend

/-- With nothing of its own held, and a PENDING left where it needs one, the command runs its action; its one response follows later where
the action says so (R93). -/
theorem Gate.Passes.runs {later : Bool} (hact : act s = ⟨t, st, r, later⟩) :
    runCmd g c s act = if later then .next (awaitFirst g.opcode c t) else .next (answer g.opcode c st r t) :=
  run_ok h.serving.1 h.serving.2 (gate_ok h.mailbox h.test h.len h.fitted h.legal h.roles h.permit h.par h.entry hfree hpend)
    (by rw [hact])

theorem Gate.Passes.answers (hact : act s = ⟨t, st, r, false⟩) : runCmd g c s act = .next (answer g.opcode c st r t) :=
  h.runs hfree hpend hact

end

/-- With an object held, or no PENDING left, the command is answered BUSY. -/
theorem Gate.Passes.busy (h : g.Passes c s) (hbusy : (!g.free || (g.pends && decide (8 ≤ pendCount s c.mb))) = true) :
    runCmd g c s act = .next (answer g.opcode c .busy g.info s) := by
  have hmb : (if c.mb = 0 then !g.mb0 else !g.mb17) = false := by
    have := h.mailbox
    split at this <;> simp_all
  have hfail : g.fail c s = some .busy := by
    simp [Gate.fail, hmb, h.test, h.len, h.fitted, h.legal, h.roles, h.permit, h.par, h.entry, hbusy]
  simp [runCmd, booting, h.serving.1, h.serving.2, hfail]

end Sys2Proof.Machine

/-! PROOFS. The RED commands start formation and unfencing, hand the role over, set the comparison and read (O49). -/

namespace Sys2Proof.Machine

open Sys2Proof

variable {c : Cmd} {s : State}

/-! ### RED_PAIR_FORM -/

/-- RED_PAIR_FORM meets an unpaired active unit in CONFIG or STANDBY, with parameters in range (Table 20.8). -/
structure PairFormAdmitted (c : Cmd) (s : State) : Prop where
  state : s.dev.state ∈ [DevState.config, .standby]
  mb : c.mb ≠ 0
  role : s.dev.role = .active
  unpaired : s.dev.paired = false
  params : Inline c 8
  iface : c.u8 0 < 2
  follow : c.u8 1 < 2
  asym : (c.s16 2).natAbs ≤ 640
  reserved : c.rsv 4 4 = true

/-- The gate of RED_PAIR_FORM (`execRedPairForm`). -/
def pairFormGate (c : Cmd) (s : State) : Gate := {
  opcode := 0x1001, len := c.inl 8, legal := inStates [.config, .standby], roles := fun r => r == .active && !s.dev.paired,
  par := c.u8 0 < 2 && c.u8 1 < 2 && (c.s16 2).natAbs ≤ 640 && c.rsv 4 4, free := !held s .pair && s.tick.commits.isEmpty,
  pends := true }

theorem PairFormAdmitted.passes (h : PairFormAdmitted c s) : (pairFormGate c s).Passes c s where
  serving := serving_of_mem h.state (by decide) (by decide)
  mailbox := mailbox_of_ne_zero h.mb rfl
  test := rfl
  len := inl_of_inline h.params
  fitted := rfl
  legal := legal_of_mem h.state rfl
  roles := by simp [pairFormGate, h.role, h.unpaired]
  permit := rfl
  par := by simp [pairFormGate, h.iface, h.follow, h.asym, h.reserved]
  entry := entryReserved_of_inline h.params

theorem PairFormAdmitted.exec_pending (h : PairFormAdmitted c s) (hpair : held s .pair = false) (hcommits : s.tick.commits = [])
    (hpend : pendCount s c.mb < 8) :
    execRedPairForm c s = .next (answer 0x1001 c .pending (formResult s 0) (startForm 0x1001 (pendAs 0x1001 c [.pair] [.config, .standby] 0 none
      (s.onRed (fun r => { r with onB := c.u8 0 == 1, follow := c.u8 1 == 1, ax := c.s16 2 }))))) := by
  unfold execRedPairForm
  exact h.passes.answers (by simp [pairFormGate, hpair, hcommits]) (by simp [pairFormGate, hpend]) rfl

theorem PairFormAdmitted.exec_busy (h : PairFormAdmitted c s)
    (hbusy : held s .pair = true ∨ s.tick.commits ≠ [] ∨ 8 ≤ pendCount s c.mb) :
    execRedPairForm c s = .next (answer 0x1001 c .busy [] s) := by
  unfold execRedPairForm
  exact h.passes.busy (by rcases hbusy with h | h | h <;> simp [pairFormGate, h])

/-! ### RED_UNFENCE -/

/-- RED_UNFENCE meets a fenced unit in CONFIG, STANDBY or FACTORY_TEST (Table 20.8, R104). -/
structure UnfenceAdmitted (c : Cmd) (s : State) : Prop where
  state : s.dev.state ∈ [DevState.config, .standby, .factoryTest]
  mb : c.mb ≠ 0
  role : s.dev.role = .fenced
  params : Inline c 0

/-- The gate of RED_UNFENCE (`execRedUnfence`). -/
def unfenceGate (c : Cmd) (s : State) : Gate := {
  opcode := 0x1003, len := c.inl 0, legal := inStates [.config, .standby], roles := fun r => r == .fenced,
  free := !held s .pair && s.tick.commits.isEmpty, pends := true }

theorem UnfenceAdmitted.passes (h : UnfenceAdmitted c s) : (unfenceGate c s).Passes c s where
  serving := serving_of_mem h.state (by decide) (by decide)
  mailbox := mailbox_of_ne_zero h.mb rfl
  test := rfl
  len := inl_of_inline h.params
  fitted := rfl
  legal := legal_of_mem' h.state rfl
  roles := by simp [unfenceGate, h.role]
  permit := rfl
  par := rfl
  entry := entryReserved_of_inline h.params

section
variable (h : UnfenceAdmitted c s) (hpair : held s .pair = false) (hcommits : s.tick.commits = []) (hpend : pendCount s c.mb < 8)
include h hpair hcommits hpend

theorem UnfenceAdmitted.exec_pending (hsilent : s.red.silent = false) (hrole : s.red.pRole = 0) :
    execRedUnfence c s = .next (answer 0x1003 c .pending (unfenceResult s)
      (startForm 0x1003 (pendAs 0x1003 c [.pair] [.config, .standby, .factoryTest] 0 none s))) := by
  unfold execRedUnfence
  exact h.passes.answers (by simp [unfenceGate, hpair, hcommits]) (by simp [unfenceGate, hpend]) (if_neg (by simp [hsilent, hrole]))

theorem UnfenceAdmitted.exec_conflict (hpartner : s.red.silent = true ∨ s.red.pRole ≠ 0) :
    execRedUnfence c s = .next (answer 0x1003 c .conflict (unfenceResult s) s) := by
  unfold execRedUnfence
  exact h.passes.answers (by simp [unfenceGate, hpair, hcommits]) (by simp [unfenceGate, hpend]) (if_pos hpartner)

end

theorem UnfenceAdmitted.exec_busy (h : UnfenceAdmitted c s)
    (hbusy : held s .pair = true ∨ s.tick.commits ≠ [] ∨ 8 ≤ pendCount s c.mb) :
    execRedUnfence c s = .next (answer 0x1003 c .busy [] s) := by
  unfold execRedUnfence
  exact h.passes.busy (by rcases hbusy with h | h | h <;> simp [unfenceGate, h])

/-! ### RED_ROLE_HANDOVER -/

/-- RED_ROLE_HANDOVER meets the unit it is for: action 0 the active one of a pair, action 1 a standby, within 10 s (Table 20.8). -/
structure HandoverAdmitted (c : Cmd) (b : Nat) (s : State) : Prop where
  boundary : b = if c.u64 4 = 0 then s.tick.index + leadOf s.tick.len else c.u64 4
  state : s.dev.state ∈ [DevState.config, .standby, .deblocked, .safeStop, .blockedFault]
  mb : c.mb ≠ 0
  role : (c.u8 0 = 0 ∧ s.dev.role = .active ∧ s.dev.paired = true) ∨ (c.u8 0 = 1 ∧ s.dev.role = .standby)
  params : Inline c 12
  reserved : c.rsv 1 3 = true
  near : (b - s.tick.index) * s.tick.len ≤ 10000000

/-- The gate of RED_ROLE_HANDOVER for boundary `b` (`execRedRoleHandover`). -/
def handoverGate (c : Cmd) (b : Nat) (s : State) : Gate := {
  opcode := 0x1002, len := c.inl 12, legal := inStates [.config, .standby, .deblocked, .safeStop, .blockedFault],
  roles := fun r => if c.u8 0 = 0 then r == .active && s.dev.paired else c.u8 0 != 1 || r == .standby,
  par := c.u8 0 < 2 && c.rsv 1 3 && decide ((b - s.tick.index) * s.tick.len ≤ 10000000),
  free := !held s .pair && !held s .deviceState, pends := !decide ((b - s.tick.index) * s.tick.len ≤ 1000) }

variable {b : Nat}

theorem HandoverAdmitted.passes (h : HandoverAdmitted c b s) : (handoverGate c b s).Passes c s where
  serving := serving_of_mem h.state (by decide) (by decide)
  mailbox := mailbox_of_ne_zero h.mb rfl
  test := rfl
  len := inl_of_inline h.params
  fitted := rfl
  legal := legal_of_mem h.state rfl
  roles := by rcases h.role with ⟨hact, hrole, hpaired⟩ | ⟨hact, hrole⟩ <;> simp [handoverGate, *]
  permit := rfl
  par := by rcases h.role with ⟨hact, -⟩ | ⟨hact, -⟩ <;> simp [handoverGate, hact, h.reserved, h.near]
  entry := entryReserved_of_inline h.params

/-- Nothing holds RED_ROLE_HANDOVER back: neither the pair nor the device state is held, and a PENDING is left where the boundary lies more
than 1 ms ahead. -/
structure HandoverFree (c : Cmd) (b : Nat) (s : State) : Prop where
  pair : held s .pair = false
  deviceState : held s .deviceState = false
  pend : pendCount s c.mb < 8 ∨ (b - s.tick.index) * s.tick.len ≤ 1000

theorem HandoverFree.free (h : HandoverFree c b s) : (handoverGate c b s).free = true := by
  simp [handoverGate, h.pair, h.deviceState]

theorem HandoverFree.pends (h : HandoverFree c b s) : ((handoverGate c b s).pends && decide (8 ≤ pendCount s c.mb)) = false := by
  rcases h.pend with h | h <;> simp [handoverGate, h]

/-- The hand-over waits for its boundary as a PENDING command that holds the pair. -/
def handoverPending (c : Cmd) (b : Nat) (s : State) : State :=
  pendAs 0x1002 c [.pair] [.config, .standby, .deblocked, .safeStop, .blockedFault] b none s

section
variable (h : HandoverAdmitted c b s)
include h

theorem HandoverAdmitted.exec_busy
    (hbusy : held s .pair = true ∨ held s .deviceState = true ∨ (8 ≤ pendCount s c.mb ∧ 1000 < (b - s.tick.index) * s.tick.len)) :
    execRedRoleHandover c s = .next (answer 0x1002 c .busy [] s) := by
  simp only [execRedRoleHandover, ← h.boundary]
  exact h.passes.busy (by rcases hbusy with h | h | ⟨h, h'⟩ <;> simp [handoverGate, *])

variable (hfree : HandoverFree c b s)
include hfree

theorem HandoverAdmitted.exec_conflict
    (hno : b < s.tick.index + leadOf s.tick.len ∨
      (c.u8 0 = 0 ∧ (s.red.silent = true ∨ s.red.pRole ≠ 1)) ∨ (c.u8 0 = 1 ∧ s.red.silent = false)) :
    execRedRoleHandover c s = .next (answer 0x1002 c .conflict (handResult s (s.tick.index + leadOf s.tick.len)) s) := by
  simp only [execRedRoleHandover, ← h.boundary]
  exact h.passes.answers hfree.free hfree.pends (if_pos (by rcases hno with h | ⟨hact, h | h⟩ | ⟨hact, h⟩ <;> simp [*]))

variable (hlead : s.tick.index + leadOf s.tick.len ≤ b)
include hlead

/-- Action 0: the boundary goes to a partner that is heard and STANDBY. -/
theorem HandoverAdmitted.exec_hand (hact : c.u8 0 = 0) (hsilent : s.red.silent = false) (hrole : s.red.pRole = 1) :
    execRedRoleHandover c s = if decide ((b - s.tick.index) * s.tick.len ≤ 1000) then
        .next (awaitFirst 0x1002 c (xlSend (.handover b) ((handoverPending c b s).onRed (fun r => { r with handover := some (b, false) }))))
      else .next (answer 0x1002 c .pending (le 1 2 ++ le 3 0 ++ le 8 b)
        (xlSend (.handover b) ((handoverPending c b s).onRed (fun r => { r with handover := some (b, false) })))) := by
  simp only [execRedRoleHandover, ← h.boundary]
  exact h.passes.runs hfree.free hfree.pends ((if_neg (by simp [hact, hsilent, hrole, hlead])).trans (if_pos hact))

/-- Action 1: a standby whose partner is silent takes the role. -/
theorem HandoverAdmitted.exec_take (hact : c.u8 0 = 1) (hsilent : s.red.silent = true) :
    execRedRoleHandover c s = if decide ((b - s.tick.index) * s.tick.len ≤ 1000) then
        .next (awaitFirst 0x1002 c ((handoverPending c b s).onRed (fun r => { r with take := some b })))
      else .next (answer 0x1002 c .pending (le 1 0 ++ le 3 0 ++ le 8 b) ((handoverPending c b s).onRed (fun r => { r with take := some b }))) := by
  simp only [execRedRoleHandover, ← h.boundary]
  exact h.passes.runs hfree.free hfree.pends ((if_neg (by simp [hact, hsilent, hlead])).trans (if_neg (by simp [hact])))

end

/-! ### RED_COMPARE_CONFIG and RED_STATUS -/

theorem execRedCompareConfig_ok (hserving : Serving s) (hmb : c.mb ≠ 0) (hinline : Inline c 8) (hk : 1 ≤ c.u8 0 ∧ c.u8 0 ≤ 16)
    (hreserved : c.rsv 1 3 = true) (hmask : c.u32 4 ||| 0x1030FFF = 0x1030FFF) :
    execRedCompareConfig c s = .next (answer 0x1004 c .ok (le 4 (c.u32 4 &&& domainsMask s))
      (s.onRed (fun r => { r with conf := some (c.u8 0, c.u32 4) }))) := by
  unfold execRedCompareConfig
  exact Gate.Passes.answers {
    serving := hserving
    mailbox := mailbox_of_ne_zero hmb rfl
    test := rfl
    len := inl_of_inline hinline
    fitted := rfl
    legal := legal_serving hserving.1 hserving.2 rfl
    roles := rfl
    permit := rfl
    par := by simp [hk, hreserved, hmask]
    entry := entryReserved_of_inline hinline } rfl rfl rfl

theorem execRedStatus_ok (hserving : Serving s) (hmb : c.mb ≠ 0) (hinline : Inline c 0) :
    execRedStatus c s = .next (answer 0x1005 c .ok (
      le 1 s.dev.role.code ++ le 1 (s.red.pRole % 4 + 4 * b2n s.red.silent + 8 * b2n s.dev.paired + 16 * (s.red.pState % 16)) ++
      le 1 (b2n s.red.up + 2 * s.red.inverted.toNat + 32 * b2n s.red.reversed) ++ le 1 (redPhase s) ++ leS 4 s.red.dx ++ le 4 s.red.mismatches ++
      le 2 (s.red.last.elim 0xFFFF (·.1)) ++ le 2 s.red.disputes ++ le 4 (s.red.last.elim 0 (·.2)) ++
      le 4 s.red.lateSets ++ le 2 s.red.promotions ++ le 2 0 ++ le 4 s.tick.index) s) := by
  unfold execRedStatus
  exact Gate.Passes.answers {
    serving := hserving
    mailbox := mailbox_of_ne_zero hmb rfl
    test := rfl
    len := inl_of_inline hinline
    fitted := rfl
    legal := legal_serving hserving.1 hserving.2 rfl
    roles := rfl
    permit := rfl
    par := rfl
    entry := entryReserved_of_inline hinline } rfl rfl rfl

/-- Settles O49: each command's gate passes under the conditions of its clause, and the branch of its action is the one they name. -/
theorem pairCommandsFormHandOverAndUnfence : Obligations.PairCommandsFormHandOverAndUnfence := by
  refine ⟨?form, ?formBusy, ?unfence, ?unfenceConflict, ?unfenceBusy, ?hand, ?handSoon, ?take, ?takeSoon, ?handoverConflict, ?handoverBusy,
    ?compare, ?status⟩
  case form =>
    intro c s hstate hmb hrole hunpaired hinline hiface hfollow hasym hrsv hpair hcommits hpend
    exact PairFormAdmitted.exec_pending ⟨hstate, hmb, hrole, hunpaired, hinline, hiface, hfollow, hasym, hrsv⟩ hpair hcommits hpend
  case formBusy =>
    intro c s hstate hmb hrole hunpaired hinline hiface hfollow hasym hrsv hbusy
    exact PairFormAdmitted.exec_busy ⟨hstate, hmb, hrole, hunpaired, hinline, hiface, hfollow, hasym, hrsv⟩ hbusy
  case unfence =>
    intro c s hstate hmb hrole hinline hpair hcommits hpend hsilent hpRole
    exact UnfenceAdmitted.exec_pending ⟨hstate, hmb, hrole, hinline⟩ hpair hcommits hpend hsilent hpRole
  case unfenceConflict =>
    intro c s hstate hmb hrole hinline hpair hcommits hpend hpartner
    exact UnfenceAdmitted.exec_conflict ⟨hstate, hmb, hrole, hinline⟩ hpair hcommits hpend hpartner
  case unfenceBusy =>
    intro c s hstate hmb hrole hinline hbusy
    exact UnfenceAdmitted.exec_busy ⟨hstate, hmb, hrole, hinline⟩ hbusy
  case hand =>
    intro c b s hb hstate hmb hrole hinline hrsv hnear hpair hdev hpend hact hsilent hpRole hlead hfar
    exact (HandoverAdmitted.exec_hand ⟨hb, hstate, hmb, hrole, hinline, hrsv, hnear⟩ ⟨hpair, hdev, hpend⟩ hlead hact hsilent hpRole).trans
      (if_neg (by simpa using hfar))
  case handSoon =>
    intro c b s hb hstate hmb hrole hinline hrsv hnear hpair hdev hpend hact hsilent hpRole hlead hsoon
    exact (HandoverAdmitted.exec_hand ⟨hb, hstate, hmb, hrole, hinline, hrsv, hnear⟩ ⟨hpair, hdev, hpend⟩ hlead hact hsilent hpRole).trans
      (if_pos (by simpa using hsoon))
  case take =>
    intro c b s hb hstate hmb hrole hinline hrsv hnear hpair hdev hpend hact hsilent hlead hfar
    exact (HandoverAdmitted.exec_take ⟨hb, hstate, hmb, hrole, hinline, hrsv, hnear⟩ ⟨hpair, hdev, hpend⟩ hlead hact hsilent).trans
      (if_neg (by simpa using hfar))
  case takeSoon =>
    intro c b s hb hstate hmb hrole hinline hrsv hnear hpair hdev hpend hact hsilent hlead hsoon
    exact (HandoverAdmitted.exec_take ⟨hb, hstate, hmb, hrole, hinline, hrsv, hnear⟩ ⟨hpair, hdev, hpend⟩ hlead hact hsilent).trans
      (if_pos (by simpa using hsoon))
  case handoverConflict =>
    intro c b s hb hstate hmb hrole hinline hrsv hnear hpair hdev hpend hno
    exact HandoverAdmitted.exec_conflict ⟨hb, hstate, hmb, hrole, hinline, hrsv, hnear⟩ ⟨hpair, hdev, hpend⟩ hno
  case handoverBusy =>
    intro c b s hb hstate hmb hrole hinline hrsv hnear hbusy
    exact HandoverAdmitted.exec_busy ⟨hb, hstate, hmb, hrole, hinline, hrsv, hnear⟩ hbusy
  case compare =>
    intro c s hserving hmb hinline hk hk' hrsv hmask
    exact execRedCompareConfig_ok hserving hmb hinline ⟨hk, hk'⟩ hrsv hmask
  case status => exact fun c s hserving hmb hinline => execRedStatus_ok hserving hmb hinline

end Sys2Proof.Machine

/-! PROOFS. Bring-up, loss and messages of the cross-link act on the unit as chapter 20 says (O50). -/

namespace Sys2Proof.Machine

open Sys2Proof

variable {s : State}

/-! ### Formation: bring-up, clock lock and loss of the cross-link -/

/-- A formation of which no step of this kind is under way is not at that step. -/
theorem formNow_ne_of_all {f : FormStep} (h : (formNow s).all (fun x => x.2 != f) = true) (n : Nat) : formNow s ≠ some (n, f) := by
  intro e
  simp [e] at h

section
variable {locked pairsel : Bool} {order : List Nat} {inverted : BitVec 4} {variant n : Nat}

/-- What the unit notes of a good bring-up: the link is up, and the event of it. -/
def linkTakenUp (order : List Nat) (inverted : BitVec 4) (pairsel : Bool) (variant : Nat) (s : State) : State :=
  redEvent 0x0A .notice 0 [1, inverted.toNat, b2n (order == [3, 2, 1, 0])] (s.onRed (fun r => { r with
    up := true, inverted := inverted, reversed := order == [3, 2, 1, 0], pSel := pairsel, pVariant := variant }))

theorem execXlinkBringupDone_bad (hform : formNow s = some (n, .bringUp))
    (hbad : locked = false ∨ ¬(order = [0, 1, 2, 3] ∨ order = [3, 2, 1, 0])) :
    execXlinkBringupDone locked order inverted pairsel variant s = .next (formConflict n 8 s) := by
  simp only [execXlinkBringupDone, hform]
  exact if_pos (by simpa using hbad)

theorem execXlinkBringupDone_good (hform : formNow s = some (n, .bringUp)) (horder : order = [0, 1, 2, 3] ∨ order = [3, 2, 1, 0]) :
    execXlinkBringupDone true order inverted pairsel variant s = .next (
      if (if n = 0x1001 then formMask s pairsel variant else 0) ≠ 0 then
        formConflict n (if n = 0x1001 then formMask s pairsel variant else 0) (linkTakenUp order inverted pairsel variant s)
      else (linkTakenUp order inverted pairsel variant s).onRed (fun r => { r with form := some (n, .lock) })) := by
  simp only [execXlinkBringupDone, hform]
  refine if_neg ?_
  rintro (hlost | ⟨hplain, hreversed⟩)
  · exact Bool.noConfusion hlost
  · exact horder.elim hplain hreversed

theorem execXlinkBringupDone_idle (hform : (formNow s).all (fun x => x.2 != .bringUp) = true) :
    execXlinkBringupDone locked order inverted pairsel variant s = .next s := by
  unfold execXlinkBringupDone
  split
  next op h => exact absurd h (formNow_ne_of_all hform op)
  next => rfl

end

section
variable {digest : Word32} {align : XlAlign}

theorem execXlclkLock_form (hform : formNow s = some (0x1001, .lock)) :
    execXlclkLock digest align s = if digest.toNat ≠ configDigest s then
        .next (formConflict 0x1001 2 (if s.power.straps.pairsel then alignTick align s else s))
      else .next (formed (configDigest s) (if s.power.straps.pairsel then alignTick align s else s)) := by
  simp [execXlclkLock, hform]

theorem execXlclkLock_unfence (hform : formNow s = some (0x1003, .lock)) :
    execXlclkLock digest align s = if align.index ≠ s.tick.index then .next s
      else if digest.toNat ≠ configDigest s then .next (formConflict 0x1003 2 s)
      else .next (unfencePorts (s.onRed (fun r => { r with form := some (0x1003, .install 64), digest := configDigest s }))) := by
  simp [execXlclkLock, hform]

theorem execXlclkLock_idle (hform : (formNow s).all (fun x => x.2 != .lock) = true) : execXlclkLock digest align s = .next s := by
  unfold execXlclkLock
  split
  next op h => exact absurd h (formNow_ne_of_all hform op)
  next => rfl

end

theorem execXlinkDown_of_down {lane : Fin 4} (hup : s.red.up = false) : execXlinkDown lane s = .next s := by
  simp [execXlinkDown, hup]

theorem execXlinkDown_of_up {lane : Fin 4} (hup : s.red.up = true) :
    execXlinkDown lane s = .next ((formNow s).elim id (fun f => formConflict f.1 8)
      (redEvent 0x0A .notice lane [0, s.red.inverted.toNat, b2n s.red.reversed] (s.onRed (fun r => { r with up := false })))) := by
  simp only [execXlinkDown, hup]
  cases formNow s <;> rfl

/-! ### TICK -/

/-- What a paired unit notes of a TICK: the tick heard, role and state of the partner, its digests, its decisions where they are to be
installed, and a further good tick of a silent partner. -/
def tickNoted (m : XlTick) (s : State) : State :=
  s.onRed (fun r => { r with
    heard := some (max m.index (r.heard.getD 0)), pRole := m.role, pState := m.state, theirs := if r.silent then none else some m,
    record := if m.role = 0 ∧ s.red.silent = false ∧ (s.dev.role = .standby ∨ installing s = true) then
      some { m.record with cells := r.record.elim [] (·.cells) ++ m.record.cells } else r.record,
    good := if r.silent = true ∧ r.heard.all (fun t => decide (t < m.index)) = true then r.good + 1 else r.good })

theorem execXlTickReceive_linked {z : XlTickIn} (hpaired : s.dev.paired = true) (hup : s.red.up = true) :
    execXlTickReceive z s = .next (compareTick z.ns
      (if z.msg.role = 0 ∧ s.red.silent = false then installTick (tickNoted z.msg s) else tickNoted z.msg s)) := by
  simp [execXlTickReceive, hpaired, hup, tickNoted, State.onRed]

theorem comparing_tickNoted (m : XlTick) (s : State) : comparing (tickNoted m s) = comparing s := rfl

/-- One domain of a tick that both units have: own digest `e` against that of the partner, where the TICK carries it. -/
def compareEntry (ns : Nat) (m : XlTick) (t : State) (e : Nat × Nat) : State :=
  match m.digests.find? (fun x => x.1 == e.1) with
  | some x => compareDomain ns m.index e.1 (x.2 != e.2) t
  | none => t

/-- The digests of a tick that both units have are compared domain by domain, within the mask. -/
theorem compareTick_same {ns : Nat} {m : XlTick} {l : List (Nat × Nat)} {t : State} (htheirs : t.red.theirs = some m)
    (hown : t.red.own = some (m.index, l, true)) (hcomparing : comparing t = true) :
    compareTick ns t =
      (l.filter (fun e => bit t.red.mask e.1)).foldl (compareEntry ns m) (t.onRed (fun r => { r with theirs := none })) := by
  simp only [compareTick, htheirs, hown, hcomparing, Nat.lt_irrefl]
  rfl

/-! ### MSET, COMMIT, CHECK and HANDOVER -/

section
variable {tick boundary : Nat} {set : List XlChan} {mask : BitVec 9} {crc : Word32}

theorem execXlMsetReceive_linked (hpaired : s.dev.paired = true) (hup : s.red.up = true) :
    execXlMsetReceive tick set s = .next (s.onRed (fun r => { r with mset := ((tick, set) :: r.mset).take 2 })) := by
  simp [execXlMsetReceive, hpaired, hup]

/-- The armed commit is the one that the partner's COMMIT names. -/
def commitNamed (boundary : Nat) (mask : BitVec 9) (crc : Word32) (k : Commit) : Bool :=
  k.boundary == boundary && k.mask == mask && k.crc == crc

theorem execXlCommitReceive_linked (hpaired : s.dev.paired = true) (hup : s.red.up = true) :
    execXlCommitReceive boundary mask crc s = if (boundary - s.tick.index) * s.tick.len ≤ 10 then .next s
      else if s.tick.commits.any (commitNamed boundary mask crc) then
        .next (s.onTick (fun t => { t with
          commits := t.commits.map (fun k => if commitNamed boundary mask crc k then { k with matched := true } else k) }))
      else .next (s.onTick (fun t => { t with partner := (boundary, mask.toNat, crc.toNat) :: t.partner })) := by
  cases hany : s.tick.commits.any (commitNamed boundary mask crc) <;>
    simp [execXlCommitReceive, hpaired, hup, ← commitNamed.eq_def, State.onTick, hany]

end

theorem execXlCheckReceive_unpaired {pass : Bool} (hpaired : s.dev.paired = false) : execXlCheckReceive pass s = .next s := by
  simp [execXlCheckReceive, hpaired]

theorem execXlCheckReceive_paired {pass : Bool} (hpaired : s.dev.paired = true) :
    execXlCheckReceive pass s = .next (s.onRed (fun r => { r with pCheck := some pass })) := by
  simp [execXlCheckReceive, hpaired]

theorem execXlHandoverReceive_standby {boundary : Nat} (hpaired : s.dev.paired = true) (hrole : s.dev.role = .standby) :
    execXlHandoverReceive boundary s = .next (s.onRed (fun r => { r with handover := some (boundary, true) })) := by
  simp [execXlHandoverReceive, hpaired, hrole]

theorem execXlHandoverReceive_other {boundary : Nat} (h : s.dev.paired = false ∨ s.dev.role ≠ .standby) :
    execXlHandoverReceive boundary s = .next s := by
  rcases h with h | h <;> simp [execXlHandoverReceive, h]

/-- A unit that is not paired, or whose link is down, takes no TICK, MSET or COMMIT. -/
theorem tickMsetCommit_unlinked {z : XlTickIn} {n : Nat} {l : List XlChan} {q : BitVec 9} {d : Word32}
    (h : s.dev.paired = false ∨ s.red.up = false) :
    execXlTickReceive z s = .next s ∧ execXlMsetReceive n l s = .next s ∧ execXlCommitReceive n q d s = .next s := by
  rcases h with h | h <;> simp [execXlTickReceive, execXlMsetReceive, execXlCommitReceive, h]

/-! ### STATE -/

section
variable {state cause boundary : Nat}

theorem execXlStateReceive_deaf {disputed : Bool} (h : s.dev.paired = false ∨ s.red.silent = true) :
    execXlStateReceive disputed state cause boundary s = .next s := by
  rcases h with h | h <;> simp [execXlStateReceive, h]

theorem execXlStateReceive_dispute (hpaired : s.dev.paired = true) (hsilent : s.red.silent = false)
    (hfree : s.red.dispute = none ∧ s.dev.role = .standby) :
    execXlStateReceive true state cause boundary s = .next (redEvent 0x03 .notice ((s.red.last.map (·.1)).getD 0) [boundary]
      (s.onRed (fun r => { r with dispute := some ((s.red.last.map (·.1)).getD 0, boundary) }))) := by
  simp [execXlStateReceive, hpaired, hsilent, hfree]

theorem execXlStateReceive_no_dispute (h : ¬(s.red.dispute = none ∧ s.dev.role = .standby)) :
    execXlStateReceive true state cause boundary s = .next s := by
  have hrefused : s.red.dispute.isSome = true ∨ s.dev.role ≠ .standby := by
    rw [Option.isSome_iff_ne_none]
    exact Classical.not_and_iff_not_or_not.mp h
  simp [execXlStateReceive, hrefused]

theorem execXlStateReceive_mirror {dest : DevState} (hpaired : s.dev.paired = true) (hsilent : s.red.silent = false)
    (hrole : s.dev.role ≠ .fenced) (hown : cause ≠ 0x03) (hfence : cause ≠ 0x22) (hdest : stateOf state = some dest) :
    execXlStateReceive false state cause boundary s = .next (addMirror dest cause (max boundary (s.tick.index + 1)) s) := by
  simp [execXlStateReceive, hpaired, hsilent, hrole, hown, hfence, hdest]

theorem execXlStateReceive_no_mirror (h : s.dev.role = .fenced ∨ cause = 0x03 ∨ cause = 0x22 ∨ stateOf state = none) :
    execXlStateReceive false state cause boundary s = .next s := by
  rcases h with h | h | h | h <;> simp [execXlStateReceive, h]

end

/-! ### BLOCK -/

theorem execXlBlockReceive_unpaired {cause : Byte} (hpaired : s.dev.paired = false) : execXlBlockReceive cause s = .next s := by
  simp [execXlBlockReceive, hpaired]

/-- The copies that a BLOCK of the partner brings to one port; a port that sends SAFE keeps it. -/
def partnerBlockPort (cause p : Nat) (t : State) : State :=
  match (portGet t p).msg with
  | some ⟨_, .safe _ _, _⟩ => portUpd p (fun x => { x with blocked := true }) t
  | _ => sendBlock p cause 4 t

theorem execXlBlockReceive_paired {cause : Byte} (hpaired : s.dev.paired = true) :
    execXlBlockReceive cause s = .next (onPorts (partnerBlockPort cause.toNat) s) := by
  simp only [execXlBlockReceive, hpaired]
  rfl

theorem partnerBlockPort_quiet {cause p : Nat} {t : State} (h : (portGet t p).msg = none) : partnerBlockPort cause p t = sendBlock p cause 4 t := by
  simp [partnerBlockPort, h]

theorem onPorts_single {f : Nat → State → State} {p : Nat} (h : (allPorts s).filter (hears s) = [p]) : onPorts f s = f p s := by
  simp [onPorts, h]

/-! ### TIME -/

theorem execXlTimeMarker_unlinked {x : Int} {bases : List Nat} {qual bound : Nat} (h : s.dev.paired = false ∨ s.red.up = false) :
    execXlTimeMarker x bases qual bound s = .next s := by
  rcases h with h | h <;> simp [execXlTimeMarker, h]

section
variable {x : Int} {bases : List Nat} {qual bound : Nat} (hpaired : s.dev.paired = true) (hup : s.red.up = true)
include hpaired hup

theorem execXlTimeMarker_active (hrole : workRole s = .active) :
    execXlTimeMarker x bases qual bound s =
      .next (xlSend (.time ((List.range 3).map (fun n => (base s n).val)) s.time.qual.code s.time.bound)
        (s.onRed (fun r => { r with dx := roundDiv (x - r.ax) 2 }))) := by
  simp [execXlTimeMarker, hpaired, hup, hrole]

theorem execXlTimeMarker_standby (hrole : workRole s = .standby) :
    execXlTimeMarker x bases qual bound s =
      if s.red.follow then
        .next (setQual (([TQual.unset, .free, .restored, .locked, .holdover, .holdoverOut].find? (fun q => q.code == qual)).getD s.time.qual) bound
          (steerBase 0 (steerBase 2 (steerBase 1 (s.onRed (fun r => { r with dx := x, pBases := bases }))))))
      else .next (steerBase 2 (steerBase 1 (s.onRed (fun r => { r with dx := x, pBases := bases })))) := by
  cases hfollow : s.red.follow <;> simp [execXlTimeMarker, hpaired, hup, hrole, hfollow]

theorem execXlTimeMarker_other (hactive : workRole s ≠ .active) (hstandby : workRole s ≠ .standby) :
    execXlTimeMarker x bases qual bound s = .next (s.onRed (fun r => { r with dx := x, pBases := bases })) := by
  simp [execXlTimeMarker, hpaired, hup, hactive, hstandby]

end

/-- Settles O50: one lemma for each event or message says what it does where its condition holds, and each clause is a branch of it. -/
theorem partnerMessagesAndLinkEvents : Obligations.PartnerMessagesAndLinkEvents := by
  refine ⟨?bringUpBad, ?bringUpConflict, ?bringUpGood, ?bringUpIdle, ?down, ?downForming, ?downAlready, ?lockForm, ?lockFormDigest,
    ?lockUnaligned, ?lockUnfence, ?lockUnfenceDigest, ?lockIdle, ?tickActive, ?tickOther, ?tickCompared, ?unpaired, ?linkDown, ?mset, ?commit,
    ?commitMatched, ?commitLate, ?dispute, ?noDispute, ?mirror, ?noMirror, ?stateDeaf, ?blockUnpaired, ?block, ?blockOnePort, ?check, ?timeActive,
    ?timeStandby, ?timeFollow, ?timeOther, ?timeUnlinked, ?handover, ?handoverOther⟩
  case bringUpBad => exact fun _ _ _ _ _ _ _ hform hbad => execXlinkBringupDone_bad hform hbad
  case bringUpConflict =>
    intro p l i v n m s u hform horder hm hmask hu
    subst hm hu
    rw [show exec (.xlinkBringupDone true l i p v) s = _ from execXlinkBringupDone_good hform horder, if_pos hmask]
    rfl
  case bringUpGood =>
    intro p l i v n m s u hform horder hm hmask hu
    subst hm hu
    rw [show exec (.xlinkBringupDone true l i p v) s = _ from execXlinkBringupDone_good hform horder, if_neg (not_not_intro hmask)]
    rfl
  case bringUpIdle => exact fun _ _ _ _ _ _ hform => execXlinkBringupDone_idle hform
  case down =>
    intro n s hup hform
    exact (execXlinkDown_of_up hup).trans (by rw [hform]; rfl)
  case downForming =>
    intro n m f s hup hform
    exact (execXlinkDown_of_up hup).trans (by rw [hform]; rfl)
  case downAlready => exact fun _ _ hup => execXlinkDown_of_down hup
  case lockForm =>
    intro d a s u hform hu hdigest
    subst hu
    exact (execXlclkLock_form hform).trans (if_neg (not_not_intro hdigest))
  case lockFormDigest =>
    intro d a s u hform hu hdigest
    subst hu
    exact (execXlclkLock_form hform).trans (if_pos hdigest)
  case lockUnaligned => exact fun d a s hform hindex => (execXlclkLock_unfence hform).trans (if_pos hindex)
  case lockUnfence =>
    intro d a s hform hindex hdigest
    exact (execXlclkLock_unfence hform).trans ((if_neg (not_not_intro hindex)).trans (if_neg (not_not_intro hdigest)))
  case lockUnfenceDigest =>
    intro d a s hform hindex hdigest
    exact (execXlclkLock_unfence hform).trans ((if_neg (not_not_intro hindex)).trans (if_pos hdigest))
  case lockIdle => exact fun _ _ _ hform => execXlclkLock_idle hform
  case tickActive =>
    intro z s v hpaired hup hv hrole hsilent
    subst hv
    rw [show exec (.xlTickReceive z) s = _ from execXlTickReceive_linked hpaired hup, if_pos ⟨hrole, hsilent⟩]
    rfl
  case tickOther =>
    intro z s v hpaired hup hv hother
    subst hv
    rw [show exec (.xlTickReceive z) s = _ from execXlTickReceive_linked hpaired hup, if_neg (by rcases hother with h | h <;> simp [h])]
    rfl
  case tickCompared =>
    intro z l s v hpaired hup hv hrole hsilent hown hcomparing
    subst hv
    rw [show exec (.xlTickReceive z) s = _ from execXlTickReceive_linked hpaired hup, if_neg (by simp [hrole]),
      compareTick_same (t := tickNoted z.msg s) (by simp [tickNoted, hsilent]) hown
        ((comparing_tickNoted z.msg s).trans hcomparing)]
    rfl
  case unpaired =>
    intro z n l b q d s hpaired
    obtain ⟨htick, hmset, hcommit⟩ := tickMsetCommit_unlinked (z := z) (n := n) (l := l) (q := q) (d := d) (.inl hpaired)
    exact ⟨htick, hmset, hcommit, execXlCheckReceive_unpaired hpaired, execXlHandoverReceive_other (.inl hpaired)⟩
  case linkDown => exact fun _ _ _ _ _ _ hup => tickMsetCommit_unlinked (.inr hup)
  case mset => exact fun _ _ _ hpaired hup => execXlMsetReceive_linked hpaired hup
  case commit =>
    intro n q d s hpaired hup hearly hany
    exact (execXlCommitReceive_linked hpaired hup).trans ((if_neg (Nat.not_le.mpr hearly)).trans (if_neg (Bool.eq_false_iff.mp hany)))
  case commitMatched =>
    intro n q d s hpaired hup hearly hany
    exact (execXlCommitReceive_linked hpaired hup).trans ((if_neg (Nat.not_le.mpr hearly)).trans (if_pos hany))
  case commitLate => exact fun n q d s hpaired hup hlate => (execXlCommitReceive_linked hpaired hup).trans (if_pos hlate)
  case dispute =>
    intro a b n e s hpaired hsilent hfree he
    subst he
    exact execXlStateReceive_dispute hpaired hsilent hfree
  case noDispute => exact fun _ _ _ _ h => execXlStateReceive_no_dispute h
  case mirror => exact fun _ _ _ _ _ hpaired hsilent hrole hown hfence hdest => execXlStateReceive_mirror hpaired hsilent hrole hown hfence hdest
  case noMirror => exact fun _ _ _ _ h => execXlStateReceive_no_mirror h
  case stateDeaf => exact fun _ _ _ _ _ h => execXlStateReceive_deaf h
  case blockUnpaired => exact fun _ _ hpaired => execXlBlockReceive_unpaired hpaired
  case block => exact fun _ _ hpaired => execXlBlockReceive_paired hpaired
  case blockOnePort =>
    intro a n s hpaired hports hmsg
    rw [show exec (.xlBlockReceive a) s = _ from execXlBlockReceive_paired hpaired, onPorts_single hports, partnerBlockPort_quiet hmsg]
  case check => exact fun _ _ hpaired => execXlCheckReceive_paired hpaired
  case timeActive => exact fun _ _ _ _ _ hpaired hup hrole => execXlTimeMarker_active hpaired hup hrole
  case timeStandby =>
    intro r l q b s v hpaired hup hrole hfollow hv
    subst hv
    exact (execXlTimeMarker_standby hpaired hup hrole).trans (if_neg (by simp [hfollow]))
  case timeFollow =>
    intro r l q b s v hpaired hup hrole hfollow hv
    subst hv
    exact (execXlTimeMarker_standby hpaired hup hrole).trans (if_pos hfollow)
  case timeOther => exact fun _ _ _ _ _ hpaired hup hactive hstandby => execXlTimeMarker_other hpaired hup hactive hstandby
  case timeUnlinked => exact fun _ _ _ _ _ h => execXlTimeMarker_unlinked h
  case handover => exact fun _ _ hpaired hrole => execXlHandoverReceive_standby hpaired hrole
  case handoverOther => exact fun _ _ hrole => execXlHandoverReceive_other (.inr hrole)

end Sys2Proof.Machine

/-! PROOFS. The port events of chapters 6 and 7 move a port as Table 6.15 says (O19). -/

namespace Sys2Proof.Machine

open Sys2Proof

variable {p : Nat} {s : State}

/-! ### TIME_SET and STARTING -/

theorem execTimeSetSend_due (hfitted : portFitted s p = true) (hdue : timeSetDue s (portGet s p) = true) (hin : s.tick.inDone = false) :
    execTimeSetSend p s = .next (sendTimeSet p s) :=
  if_pos ⟨hfitted, hdue, by simp [atBoundary, hin]⟩

theorem execTimeSetSend_not_due (h : portFitted s p = false ∨ timeSetDue s (portGet s p) = false ∨ s.tick.inDone = true) :
    execTimeSetSend p s = .next s := by
  rcases h with h | h | h <;> simp [execTimeSetSend, atBoundary, h]

theorem execPortStartingDone_due (hstate : (portGet s p).state = .starting) (hlate : (portGet s p).sinceUs + 200 ≤ s.nowUs)
    (hin : s.tick.inDone = false) :
    execPortStartingDone p s = .next ((nextToRange (sendTimeSet p (setPortState p .ranging s)) p).elim
      (sendTimeSet p (setPortState p .ranging s)) (fun slot => startRun p slot 1 false (sendTimeSet p (setPortState p .ranging s)))) :=
  if_neg (by simp [atBoundary, hstate, hlate, hin])

theorem execPortStartingDone_early (h : (portGet s p).state ≠ .starting ∨ s.nowUs < (portGet s p).sinceUs + 200 ∨ s.tick.inDone = true) :
    execPortStartingDone p s = .next s := by
  rcases h with h | h | h <;> simp [execPortStartingDone, atBoundary, h]

/-! ### Ranging -/

section
variable {j : Nat} {r : RangeRun} {ws : List Nat} {q : RangeReply} (hrun : (portGet s p).run = some r) (hwindows : r.windows = j :: ws)
  (hend : j + rangeTicks s.tick.len ≤ s.tick.index + 1)
include hrun hwindows hend

/-- At the end of its window the search is judged by the reply it found. -/
theorem execRangeMeasurementJudge_missing {reply : Option RangeReply} (hreply : reply.bind rangingReply = none) :
    execRangeMeasurementJudge p reply s = .next (measured p { r with windows := ws } none s) := by
  have hnone : reply.bind (fun q => (rangingReply q).map (fun y => (q.r, y))) = none := by
    cases reply <;> simp_all
  simp [execRangeMeasurementJudge, hrun, hwindows, Nat.not_lt.mpr hend, hnone]

variable {inv : Bool} {k : Nat} {d : BitVec 48} (hreply : rangingReply q = some (inv, k, d))
include hreply

theorem execRangeMeasurementJudge_found (hslot : k = r.slot) (hcell : (cellGet s (128 * p + r.slot)).roster.any (fun e => e.identity == d) = true) :
    execRangeMeasurementJudge p (some q) s = .next (measured p { r with windows := ws } (some q.r)
      (cellUpd (128 * p + r.slot) (fun x => { x with flags := (x.flags &&& 14#4) ||| BitVec.setWidth 4 (BitVec.ofBool inv) }) s)) := by
  simp [execRangeMeasurementJudge, hrun, hwindows, Nat.not_lt.mpr hend, hreply, hslot, hcell]

theorem execRangeMeasurementJudge_stranger
    (hother : k ≠ r.slot ∨ (cellGet s (128 * p + r.slot)).roster.any (fun e => e.identity == d) = false) :
    execRangeMeasurementJudge p (some q) s = .next (rangedNot p { r with windows := ws } 4 0
      (cellUpd (128 * p + r.slot) (fun x => { x with flags := x.flags ||| 8#4 }) s)) := by
  rcases hother with h | h <;> simp [execRangeMeasurementJudge, hrun, hwindows, Nat.not_lt.mpr hend, hreply, h]

end

/-- With no run, no window open, or before the end of the oldest window, there is nothing to judge. -/
theorem execRangeMeasurementJudge_not_due {reply : Option RangeReply}
    (h : (portGet s p).run = none ∨
      (portGet s p).run.any (fun r => r.windows.head?.all (fun j => decide (s.tick.index + 1 < j + rangeTicks s.tick.len))) = true) :
    execRangeMeasurementJudge p reply s = .next s := by
  unfold execRangeMeasurementJudge
  split
  next => rfl
  next r hrun =>
    split
    next => rfl
    next j ws hwindows =>
      refine if_pos ?_
      simpa [hrun, hwindows] using h

/-! ### VERIFY and service -/

theorem execPortVerifyEnter_done (hstate : (portGet s p).state = .ranging) (hrun : (portGet s p).run = none) (hnext : nextToRange s p = none)
    (hqueue : ((portGet s p).queue ++ (portGet s p).waiting).any (fun q => q.word.code == 1 || q.word.code == 2) = false) :
    execPortVerifyEnter p s = .next (setPortState p .verify
      ((portCells s p).foldl (fun t c => cellUpd c (fun x => { x with good := 0, goodC := 0 }) t) s)) :=
  if_pos ⟨hstate, by simp [hrun], by simp [hnext], by rw [hqueue]; rfl⟩

theorem execPortVerifyEnter_not_done
    (h : (portGet s p).state ≠ .ranging ∨ (portGet s p).run.isSome = true ∨ (nextToRange s p).isSome = true ∨
      ((portGet s p).queue ++ (portGet s p).waiting).any (fun q => q.word.code == 1 || q.word.code == 2) = true) :
    execPortVerifyEnter p s = .next s := by
  refine if_neg ?_
  rintro ⟨hstate, hrun, hnext, hqueue⟩
  rcases h with h | h | h | h
  · exact h hstate
  · simp [Option.isNone_iff_eq_none.mp hrun] at h
  · simp [Option.isNone_iff_eq_none.mp hnext] at h
  · rw [h] at hqueue
    exact Bool.noConfusion hqueue

theorem execPortInService_done (hstate : (portGet s p).state = .verify)
    (hdone : cellsShort s p = [] ∨ (portGet s p).since + 1024 ≤ s.tick.index) :
    execPortInService p s = .next (inService p ((cellsShort s p).foldl (fun t c => unreachable c 0x0E 0 t) s)) :=
  if_pos ⟨hstate, hdone.imp List.isEmpty_iff.mpr Nat.le_sub_of_add_le'⟩

theorem execPortInService_not_done
    (h : (portGet s p).state ≠ .verify ∨ (cellsShort s p ≠ [] ∧ s.tick.index < (portGet s p).since + 1024)) :
    execPortInService p s = .next s := by
  refine if_neg ?_
  rintro ⟨hstate, hdone⟩
  rcases h with h | ⟨hshort, hearly⟩
  · exact h hstate
  · rcases hdone with hempty | hlate
    · exact hshort (List.isEmpty_iff.mp hempty)
    · omega

/-! ### Waking -/

/-- The cells of a waking port that fail their check, or have not given their bursts within 1 ms. -/
def wakeFailing (s : State) (p : Nat) : List Nat :=
  (portCells s p).filter (fun c => wakeFails (cellGet s c) || (decide ((portGet s p).sinceUs + 1000 ≤ s.nowUs) && wakeWaits (cellGet s c)))

theorem execWakingComplete_waking (hstate : (portGet s p).state = .waking) :
    execWakingComplete p s = if wakeFailing s p ≠ [] then .next ((wakeFailing s p).foldl (fun t c => markCell c t) s)
      else if (portGet s p).tsDue = true ∨ (portCells s p).any (fun c => wakeWaits (cellGet s c) || (cellGet s c).mark) = true then .next s
      else .next (inService p s) := by
  refine (if_neg (not_not_intro hstate)).trans ?_
  change (if (!(wakeFailing s p).isEmpty) = true then _ else _) = _
  simp only [Bool.not_eq_true', List.isEmpty_eq_false_iff]
  rfl

/-! ### Spare, loss and calibration -/

theorem execSparePortTakeover_due {k : Nat} (hshadow : (portGet s p).shadow = some k) (hlate : k + 16 ≤ s.tick.index) :
    execSparePortTakeover p s = .next (capsUpdate (endPortPending p .ok (le 1 (portGet s p).state.code ++ le 1 (p / 8))
      (portSpareIn p (portUpd p (fun x => { x with spare := 1, shadow := none }) s)))) := by
  simp only [execSparePortTakeover, hshadow]
  exact if_neg (by omega)

theorem execSparePortTakeover_early (h : (portGet s p).shadow.all (fun k => decide (s.tick.index < k + 16)) = true) :
    execSparePortTakeover p s = .next s := by
  unfold execSparePortTakeover
  split
  next => rfl
  next k hshadow =>
    have hearly : s.tick.index < k + 16 := by simpa [hshadow] using h
    exact if_pos (by omega)

/-- Settles O19: for each event, the branch of its meaning that the condition of the clause takes. -/
theorem portEventsMoveThePort : Obligations.PortEventsMoveThePort := by
  refine ⟨?stop, ?timeSet, ?noTimeSet, ?started, ?starting, ?noReply, ?badReply, ?found, ?stranger, ?noWindow, ?verify, ?noVerify, ?inService,
    ?noService, ?wakeFails, ?wakeWaits, ?woken, ?notWaking, ?takeover, ?shadowing, ?lost, ?notLost, ?calibration⟩
  case stop => exact fun _ _ => ⟨rfl, rfl⟩
  case timeSet => exact fun _ _ hfitted hdue hin => execTimeSetSend_due hfitted hdue hin
  case noTimeSet => exact fun _ _ h => execTimeSetSend_not_due h
  case started => exact fun _ _ hstate hlate hin => execPortStartingDone_due hstate hlate hin
  case starting => exact fun _ _ h => execPortStartingDone_early h
  case noReply => exact fun _ _ _ _ _ hrun hwindows hend => execRangeMeasurementJudge_missing (reply := none) hrun hwindows hend rfl
  case badReply => exact fun _ _ _ _ _ _ hrun hwindows hend hreply => execRangeMeasurementJudge_missing hrun hwindows hend hreply
  case found =>
    exact fun _ _ _ _ _ _ _ _ _ hrun hwindows hend hreply hslot hcell =>
      execRangeMeasurementJudge_found hrun hwindows hend hreply hslot hcell
  case stranger =>
    exact fun _ _ _ _ _ _ _ _ _ hrun hwindows hend hreply hother => execRangeMeasurementJudge_stranger hrun hwindows hend hreply hother
  case noWindow => exact fun _ _ _ h => execRangeMeasurementJudge_not_due h
  case verify => exact fun _ _ hstate hrun hnext hqueue => execPortVerifyEnter_done hstate hrun hnext hqueue
  case noVerify => exact fun _ _ h => execPortVerifyEnter_not_done h
  case inService => exact fun _ _ hstate hdone => execPortInService_done hstate hdone
  case noService => exact fun _ _ h => execPortInService_not_done h
  case wakeFails => exact fun p s hstate hfails => (execWakingComplete_waking hstate).trans (if_pos hfails)
  case wakeWaits =>
    intro p s hstate hfails hwaits
    exact (execWakingComplete_waking hstate).trans ((if_neg (not_not_intro hfails)).trans (if_pos hwaits))
  case woken =>
    intro p s hstate hfails hdue hwaits
    exact (execWakingComplete_waking hstate).trans ((if_neg (not_not_intro hfails)).trans (if_neg (by simp [hdue, hwaits])))
  case notWaking => exact fun p s hstate => if_pos hstate
  case takeover => exact fun _ _ _ hshadow hlate => execSparePortTakeover_due hshadow hlate
  case shadowing => exact fun _ _ h => execSparePortTakeover_early h
  case lost => exact fun _ _ htaken => if_pos htaken
  case notLost => exact fun _ _ hfree => if_neg (by simp [hfree])
  case calibration => exact fun _ => rfl

end Sys2Proof.Machine

/-! PROOFS. Effects under a condition, by the condition's value. -/

namespace Sys2Proof.Machine

open Sys2Proof

variable {b : Bool} {f : State → State} {s : State}

theorem when_of_true (h : b = true) : when b f s = f s := if_pos h

theorem when_of_false (h : b = false) : when b f s = s := if_neg (by simp [h])

end Sys2Proof.Machine

/-! PROOFS. The gate of Table 4.9 where a check before the last one fails: the command is answered the status of that check. -/

namespace Sys2Proof.Machine

open Sys2Proof

variable {g : Gate} {c : Cmd} {s : State} {act : State → Reply}

theorem runCmd_of_fail {st : Status} (hserving : Serving s) (hfail : g.fail c s = some st) (hst : st ≠ .wrongState) :
    runCmd g c s act = .next (answer g.opcode c st g.info s) := by
  simp [runCmd, booting, hserving.1, hserving.2, hfail]

/-- A command of the TEST group while FTEST is latched low: check 2. -/
theorem Gate.fail_of_test (htest : (g.test && !s.power.straps.ftest) = true) : g.fail c s = some .badOpcode := by
  simp [Gate.fail, htest]

/-- A mailbox that serves the command passes check 2. -/
theorem Gate.mailbox_open (h : (if c.mb = 0 then g.mb0 else g.mb17) = true) : (if c.mb = 0 then !g.mb0 else !g.mb17) = false := by
  split at h <;> simp_all

section
variable (hmailbox : (if c.mb = 0 then g.mb0 else g.mb17) = true) (htest : (g.test && !s.power.straps.ftest) = false) (hlen : g.len = true)
include hmailbox htest hlen

/-- What the command needs is not fitted: check 4. -/
theorem Gate.fail_of_not_fitted (hfitted : g.fitted = false) : g.fail c s = some .notFitted := by
  simp [Gate.fail, Gate.mailbox_open hmailbox, htest, hlen, hfitted]

/-- A parameter is out of range: check 8. -/
theorem Gate.fail_of_par (hfitted : g.fitted = true) (hlegal : g.legalIn s.dev.state = true) (hroles : g.roles s.dev.role = true)
    (hpermit : g.permit = true) (hpar : g.par = false) : g.fail c s = some .badParam := by
  simp [Gate.fail, Gate.mailbox_open hmailbox, htest, hlen, hfitted, hlegal, hroles, hpermit, hpar]

end

end Sys2Proof.Machine

/-! PROOFS. SYS_STATE_REQUEST, SYS_BLOCK_CLEAR, SYS_RESET and TEST_ENTER move the device as Table 4.12 says (O7). -/

namespace Sys2Proof.Machine

open Sys2Proof

variable {c : Cmd} {s : State}

/-! ### SYS_STATE_REQUEST (R111) -/

/-- Ticks from now to the boundary that a request names: 0 names c + L. -/
def requestAhead (c : Cmd) (s : State) : Int := if c.u32 4 = 0 then (leadOf s.tick.len : Int) else boundaryAhead s (c.u32 4)

/-- The preconditions that a request finds unmet: only STANDBY from CONFIG and DEBLOCKED have any. -/
def requestUnmet (c : Cmd) (s : State) : Nat := if c.u8 0 = 2 ∨ s.dev.state = .deblocked then 0 else unmet s

/-- The gate of SYS_STATE_REQUEST (`execSysStateRequest`). -/
def stateRequestGate (c : Cmd) (s : State) : Gate := {
  opcode := 0x0103, len := c.inl 8, fitted := !(isM2 s && (c.u8 0 == 3 || c.u8 0 == 4)), legal := inStates (requestFrom (c.u8 0)),
  roles := onlyActive,
  par := (c.u8 0 == 2 || c.u8 0 == 3 || c.u8 0 == 4) && c.rsv 1 3 && !(c.u8 0 == 4 && boundaryFar s (requestAhead c s)),
  free := !held s .deviceState && !held s .pair, pends := c.u8 0 == 4 || s.dev.state == .deblocked }

/-- SYS_STATE_REQUEST for `target` meets an active unit in a state from which the target is legal, with nothing of its own held. -/
structure StateRequestAdmitted (c : Cmd) (s : State) (target : Nat) : Prop where
  code : c.u8 0 = target
  known : target = 2 ∨ target = 3 ∨ target = 4
  mb : c.mb ≠ 0
  state : s.dev.state ∈ requestFrom target
  role : s.dev.role = .active
  params : Inline c 8
  reserved : c.rsv 1 3 = true
  fitted : target = 2 ∨ isM2 s = false
  near : target ≠ 4 ∨ boundaryFar s (requestAhead c s) = false
  deviceState : held s .deviceState = false
  pair : held s .pair = false
  pend : (target ≠ 4 ∧ s.dev.state ≠ .deblocked) ∨ pendCount s c.mb < 8

section
variable {target : Nat} (h : StateRequestAdmitted c s target)
include h

theorem StateRequestAdmitted.serving : Serving s := by
  rcases h.known with rfl | rfl | rfl <;> exact serving_of_mem h.state (by decide) (by decide)

theorem StateRequestAdmitted.passes : (stateRequestGate c s).Passes c s where
  serving := h.serving
  mailbox := mailbox_of_ne_zero h.mb rfl
  test := rfl
  len := inl_of_inline h.params
  fitted := by rcases h.fitted with ht | hm <;> simp [stateRequestGate, h.code, *]
  legal := legal_of_mem h.state (by simp [stateRequestGate, h.code, inStates])
  roles := by simp [stateRequestGate, onlyActive, h.role]
  permit := rfl
  par := by
    have hknown : (target == 2 || target == 3 || target == 4) = true := by simpa [or_assoc] using h.known
    have hnear : (target == 4 && boundaryFar s (requestAhead c s)) = false := by rcases h.near with ht | hb <;> simp [*]
    simp [stateRequestGate, h.code, h.reserved, hknown, hnear]
  entry := entryReserved_of_inline h.params

theorem StateRequestAdmitted.free : (stateRequestGate c s).free = true := by simp [stateRequestGate, h.deviceState, h.pair]

theorem StateRequestAdmitted.pends : ((stateRequestGate c s).pends && decide (8 ≤ pendCount s c.mb)) = false := by
  rcases h.pend with ⟨ht, hs⟩ | hp
  · simp [stateRequestGate, h.code, ht, hs]
  · simp [hp]

/-- While the request waits it stays legal where its target is: FACTORY_TEST does not take it over (R104). -/
theorem StateRequestAdmitted.legalStates : DevState.all.filter (stateRequestGate c s).legalIn = requestFrom target := by
  have hlegal : (stateRequestGate c s).legalIn = inStates (requestFrom target) := by
    funext st
    simp [Gate.legalIn, stateRequestGate, notInTest, h.code]
  rw [hlegal]
  rcases h.known with rfl | rfl | rfl <;> decide

/-- An unmet precondition, or a boundary before c + L, answers CONFLICT. -/
theorem StateRequestAdmitted.exec_conflict
    (hno : requestUnmet c s ≠ 0 ∨ (target = 4 ∧ requestAhead c s < leadOf s.tick.len)) :
    execSysStateRequest c s = .next (answer 0x0103 c .conflict (requestResult (requestUnmet c s) s.tick.index) s) := by
  rw [← h.code] at hno
  unfold execSysStateRequest
  exact h.passes.answers h.free h.pends (if_pos hno)

section
variable (hmet : requestUnmet c s = 0)
include hmet

/-- With its preconditions met, the request runs. -/
theorem StateRequestAdmitted.exec_run {t : State} {st : Status} {r : Bytes} (hlead : target = 4 → leadOf s.tick.len ≤ requestAhead c s)
    (hrun : requestRun (stateRequestGate c s) c (c.u8 0) (requestAhead c s) s = ⟨t, st, r, false⟩) :
    execSysStateRequest c s = .next (answer 0x0103 c st r t) := by
  have hyes : ¬(requestUnmet c s ≠ 0 ∨ (c.u8 0 = 4 ∧ requestAhead c s < leadOf s.tick.len)) := by
    rintro (hm | ⟨ht, hlt⟩)
    · exact hm hmet
    · exact absurd (hlead (h.code ▸ ht)) (Int.not_le.mpr hlt)
  unfold execSysStateRequest
  exact h.passes.answers h.free h.pends ((if_neg hyes).trans hrun)

/-- STANDBY or CONFIG from a state that does not switch is entered at once. -/
theorem StateRequestAdmitted.exec_move (htarget : target ≠ 4) (hstate : s.dev.state ≠ .deblocked) :
    execSysStateRequest c s =
      .next (answer 0x0103 c .ok (requestResult 0 s.tick.index) (transition (if target = 3 then .standby else .config) 0x10 s)) :=
  h.exec_run hmet (fun ht => absurd ht htarget) (by simp [requestRun, okReply, h.code, htarget, hstate])

/-- STANDBY from DEBLOCKED waits for its transition, in drive mode by way of SAFE_STOP. -/
theorem StateRequestAdmitted.exec_stop (htarget : target = 3) (hstate : s.dev.state = .deblocked) :
    execSysStateRequest c s = .next (answer 0x0103 c .pending [] (
      if driveMode s then addTrigger .safeStop 0x11 0 (pendAs 0x0103 c [.deviceState] [.config, .deblocked] 3 none s)
      else addTrigger .standby 0x10 0 (pendAs 0x0103 c [.deviceState] [.config, .deblocked] 3 none s))) := by
  subst htarget
  refine h.exec_run hmet (fun ht => absurd ht (by decide)) ?_
  simp only [requestRun, goPending_as, h.legalStates, h.code, hstate]
  rfl

/-- DEBLOCKED waits for its boundary. -/
theorem StateRequestAdmitted.exec_deblock (htarget : target = 4) (hlead : leadOf s.tick.len ≤ requestAhead c s) :
    execSysStateRequest c s = .next (answer 0x0103 c .pending [] (
      addTrigger .deblocked 0x10 (s.tick.index + (requestAhead c s).toNat) (pendAs 0x0103 c [.deviceState] [.standby] 4 none s))) := by
  subst htarget
  refine h.exec_run hmet (fun _ => hlead) ?_
  simp only [requestRun, goPending_as, h.legalStates, h.code]
  rfl

end

end

/-- An M2 has no STANDBY and no DEBLOCKED. -/
theorem execSysStateRequest_m2 (hmb : c.mb ≠ 0) (hserving : Serving s) (hinline : Inline c 8) (htarget : c.u8 0 = 3 ∨ c.u8 0 = 4)
    (hm2 : isM2 s = true) : execSysStateRequest c s = .next (answer 0x0103 c .notFitted [] s) := by
  have hfitted : (stateRequestGate c s).fitted = false := by
    rcases htarget with h | h <;> simp [stateRequestGate, hm2, h]
  unfold execSysStateRequest
  exact runCmd_of_fail hserving (Gate.fail_of_not_fitted (mailbox_of_ne_zero hmb rfl) rfl (inl_of_inline hinline) hfitted) (by decide)

/-! ### SYS_BLOCK_CLEAR (R112) -/

/-- SYS_BLOCK_CLEAR meets an active or standby unit in BLOCKED_FAULT whose device state no command holds. -/
structure BlockClearAdmitted (c : Cmd) (s : State) : Prop where
  admits : Admits c s [.blockedFault] [.active, .standby]
  params : Inline c 0
  deviceState : held s .deviceState = false

/-- Every port that is not DOWN is IN_SERVICE. -/
def portsInService (s : State) : Bool :=
  ((allPorts s).filter (fun p => (portGet s p).state != .down)).all (fun p => (portGet s p).state == .inService)

/-- A fatal source whose condition is there, or that SYS_BLOCK_CLEAR does not clear, is left. -/
def sourceLeft (s : State) : Bool := s.dev.sources.any (fun x => !x.clear || sourceThere s x)

/-- Where SYS_BLOCK_CLEAR takes the device. -/
def clearedTo (s : State) : DevState := if !isM2 s ∧ portsInService s then .standby else .config

section
variable (h : BlockClearAdmitted c s)
include h

theorem BlockClearAdmitted.exec {t : State} {st : Status} {r : Bytes}
    (hact : (if tripStill s then ⟨s, .tripActive, [], false⟩
      else if sourceLeft s ∨ s.safe.sf = .sto ∨ s.safe.mLatch then ⟨s, .conflict, [], false⟩
      else okReply (transition (clearedTo s) 0x13 (fatalClear (blockLatches s)))
        (le 1 (transition (clearedTo s) 0x13 (fatalClear (blockLatches s))).dev.state.code) : Reply) = ⟨t, st, r, false⟩) :
    execSysBlockClear c s = .next (answer 0x0104 c st r t) := by
  obtain ⟨⟨hmb, hstate, hrole⟩, hinline, hheld⟩ := h
  unfold execSysBlockClear
  exact Gate.Passes.answers {
    serving := serving_of_mem hstate (by decide) (by decide)
    mailbox := mailbox_of_ne_zero hmb rfl
    test := rfl
    len := inl_of_inline hinline
    fitted := rfl
    legal := legal_of_mem hstate rfl
    roles := roles_of_mem hrole rfl
    permit := rfl
    par := rfl
    entry := entryReserved_of_inline hinline } (by simp [hheld]) rfl hact

theorem BlockClearAdmitted.exec_trip (htrip : tripStill s = true) : execSysBlockClear c s = .next (answer 0x0104 c .tripActive [] s) :=
  h.exec (if_pos htrip)

variable (htrip : tripStill s = false)
include htrip

theorem BlockClearAdmitted.exec_conflict (hleft : sourceLeft s = true ∨ s.safe.sf = .sto ∨ s.safe.mLatch = true) :
    execSysBlockClear c s = .next (answer 0x0104 c .conflict [] s) :=
  h.exec ((if_neg (by simp [htrip])).trans (if_pos hleft))

theorem BlockClearAdmitted.exec_clear {dest : DevState} (hsource : sourceLeft s = false) (hsto : s.safe.sf ≠ .sto) (hlatch : s.safe.mLatch = false)
    (hdest : clearedTo s = dest) :
    execSysBlockClear c s = .next (answer 0x0104 c .ok (le 1 (transition dest 0x13 (fatalClear (blockLatches s))).dev.state.code)
      (transition dest 0x13 (fatalClear (blockLatches s)))) := by
  subst hdest
  exact h.exec ((if_neg (by simp [htrip])).trans (if_neg (by simp [hsource, hsto, hlatch])))

end

/-! ### SYS_RESET (R74, R113) -/

/-- SYS_RESET, warm (1) or cold (2), in a device that serves commands. -/
structure ResetAdmitted (c : Cmd) (s : State) : Prop where
  serving : Serving s
  params : Inline c 4
  mb : c.mb ≠ 0
  kind : c.u8 0 = 1 ∨ c.u8 0 = 2
  reserved : c.rsv 1 3 = true

theorem requestReset_of_none {cold : Bool} {source : Nat} (hreq : s.power.resetReq = none) :
    requestReset cold source s = (startReset cold source s, true) := by
  simp [requestReset, hreq]

/-- A cold request turns a waiting warm one into a cold one. -/
theorem requestReset_cold_of_warm {cold : Bool} {source : Nat} {r : ResetReq} (hreq : s.power.resetReq = some r) (hcold : cold = true)
    (hwarm : r.cold = false) : requestReset cold source s =
    (sysEvent 0x03 [2, source] (s.onPower (fun p => { p with resetReq := some ⟨true, source⟩ })), true) := by
  simp [requestReset, hreq, hcold, hwarm]

/-- While a request waits, a warm one is discarded, and after a cold one every one (R74). -/
theorem requestReset_discarded {cold : Bool} {source : Nat} {r : ResetReq} (hreq : s.power.resetReq = some r)
    (hno : cold = false ∨ r.cold = true) : requestReset cold source s = (sysEvent 0x04 [] s, false) := by
  simp only [requestReset, hreq]
  exact if_neg (by rcases hno with h | h <;> simp [h])

section
variable (h : ResetAdmitted c s) {t : State}
include h

theorem ResetAdmitted.passes : ({
    opcode := 0x0105, len := c.inl 4, legal := notBoot, par := (c.u8 0 == 1 || c.u8 0 == 2) && c.rsv 1 3 } : Gate).Passes c s where
  serving := h.serving
  mailbox := mailbox_of_ne_zero h.mb rfl
  test := rfl
  len := inl_of_inline h.params
  fitted := rfl
  legal := legal_serving h.serving.1 h.serving.2 rfl
  roles := rfl
  permit := rfl
  par := by simp [h.kind, h.reserved]
  entry := entryReserved_of_inline h.params

/-- A request that stands is answered OK. -/
theorem ResetAdmitted.exec_ok (hreq : requestReset (c.u8 0 == 2) 1 s = (t, true)) : execSysReset c s = .next (answer 0x0105 c .ok [] t) := by
  unfold execSysReset
  exact h.passes.answers rfl rfl (by rw [hreq]; rfl)

/-- A discarded request is answered CONFLICT (R74). -/
theorem ResetAdmitted.exec_conflict (hreq : requestReset (c.u8 0 == 2) 1 s = (t, false)) :
    execSysReset c s = .next (answer 0x0105 c .conflict [] t) := by
  unfold execSysReset
  exact h.passes.answers rfl rfl (by rw [hreq]; rfl)

end

/-! ### TEST_ENTER -/

theorem execTestEnter_ok (hadmits : Admits c s [.config] [.active, .standby]) (hinline : Inline c 0) (hftest : s.power.straps.ftest = true)
    (hheld : held s .deviceState = false) : execTestEnter c s = .next (answer 0x7F01 c .ok [] (transition .factoryTest 0x16 s)) := by
  obtain ⟨hmb, hstate, hrole⟩ := hadmits
  unfold execTestEnter
  exact Gate.Passes.answers {
    serving := serving_of_mem hstate (by decide) (by decide)
    mailbox := mailbox_of_ne_zero hmb rfl
    test := by simp [hftest]
    len := inl_of_inline hinline
    fitted := rfl
    legal := legal_of_mem hstate rfl
    roles := roles_of_mem hrole rfl
    permit := rfl
    par := rfl
    entry := entryReserved_of_inline hinline } (by simp [hheld]) rfl rfl

theorem execTestEnter_low (hserving : Serving s) (hftest : s.power.straps.ftest = false) :
    execTestEnter c s = .next (answer 0x7F01 c .badOpcode [] s) := by
  unfold execTestEnter
  exact runCmd_of_fail hserving (Gate.fail_of_test (by simp [hftest])) (by decide)

/-- Settles O7: each command's gate passes under the conditions of its clause, and its action takes the branch they name. -/
theorem stateCommandsMoveTheDevice : Obligations.StateCommandsMoveTheDevice := by
  refine ⟨?standbyUnmet, ?standby, ?config, ?stop, ?safeStop, ?deblock, ?deblockConflict, ?m2, ?trip, ?clearConflict, ?clearStandby, ?clearConfig,
    ?reset, ?resetCold, ?resetDiscarded, ?testEnter, ?testLow⟩
  case standbyUnmet =>
    intro c s ⟨hmb, hstate, hrole⟩ hinline htarget hrsv hm2 hdev hpair hunmet
    have hst : s.dev.state = .config := List.mem_singleton.mp hstate
    have h : StateRequestAdmitted c s 3 := ⟨htarget, by decide, hmb, by simp [requestFrom, hst], List.mem_singleton.mp hrole, hinline, hrsv,
      .inr hm2, .inl (by decide), hdev, hpair, .inl ⟨by decide, by simp [hst]⟩⟩
    have hm : requestUnmet c s = unmet s := if_neg (by simp [htarget, hst])
    exact hm ▸ h.exec_conflict (.inl (hm ▸ hunmet))
  case standby =>
    intro c s ⟨hmb, hstate, hrole⟩ hinline htarget hrsv hm2 hdev hpair hmet
    have hst : s.dev.state = .config := List.mem_singleton.mp hstate
    have h : StateRequestAdmitted c s 3 := ⟨htarget, by decide, hmb, by simp [requestFrom, hst], List.mem_singleton.mp hrole, hinline, hrsv,
      .inr hm2, .inl (by decide), hdev, hpair, .inl ⟨by decide, by simp [hst]⟩⟩
    exact h.exec_move (by simp [requestUnmet, hmet]) (by decide) (by simp [hst])
  case config =>
    intro c s ⟨hmb, hstate, hrole⟩ hinline htarget hrsv hdev hpair
    have hst : s.dev.state = .standby := List.mem_singleton.mp hstate
    have h : StateRequestAdmitted c s 2 := ⟨htarget, by decide, hmb, hstate, List.mem_singleton.mp hrole, hinline, hrsv, .inl rfl,
      .inl (by decide), hdev, hpair, .inl ⟨by decide, by simp [hst]⟩⟩
    exact h.exec_move (by simp [requestUnmet, htarget]) (by decide) (by simp [hst])
  case stop =>
    intro c s hmb hstate hrole hinline htarget hrsv hm2 hdev hpair hpend hdrive
    have h : StateRequestAdmitted c s 3 := ⟨htarget, by decide, hmb, by simp [requestFrom, hstate], hrole, hinline, hrsv, .inr hm2,
      .inl (by decide), hdev, hpair, .inr hpend⟩
    exact (h.exec_stop (by simp [requestUnmet, hstate]) rfl hstate).trans (by rw [if_neg (by simp [hdrive])])
  case safeStop =>
    intro c s hmb hstate hrole hinline htarget hrsv hm2 hdev hpair hpend hdrive
    have h : StateRequestAdmitted c s 3 := ⟨htarget, by decide, hmb, by simp [requestFrom, hstate], hrole, hinline, hrsv, .inr hm2,
      .inl (by decide), hdev, hpair, .inr hpend⟩
    exact (h.exec_stop (by simp [requestUnmet, hstate]) rfl hstate).trans (by rw [if_pos hdrive])
  case deblock =>
    intro c s ⟨hmb, hstate, hrole⟩ hinline htarget hrsv hm2 hdev hpair hpend hmet hlead hnear
    have h : StateRequestAdmitted c s 4 := ⟨htarget, by decide, hmb, hstate, List.mem_singleton.mp hrole, hinline, hrsv, .inr hm2,
      .inr hnear, hdev, hpair, .inr hpend⟩
    exact h.exec_deblock (by simp [requestUnmet, hmet]) rfl hlead
  case deblockConflict =>
    intro c s ⟨hmb, hstate, hrole⟩ hinline htarget hrsv hm2 hdev hpair hpend hnear hno
    have hst : s.dev.state = .standby := List.mem_singleton.mp hstate
    have h : StateRequestAdmitted c s 4 := ⟨htarget, by decide, hmb, hstate, List.mem_singleton.mp hrole, hinline, hrsv, .inr hm2,
      .inr hnear, hdev, hpair, .inr hpend⟩
    have hm : requestUnmet c s = unmet s := if_neg (by simp [htarget, hst])
    exact hm ▸ h.exec_conflict (hno.imp (hm ▸ ·) (⟨rfl, ·⟩))
  case m2 => exact fun c s hmb hserving hinline htarget hm2 => execSysStateRequest_m2 hmb hserving hinline htarget hm2
  case trip => exact fun c s hadmits hinline hdev htrip => BlockClearAdmitted.exec_trip ⟨hadmits, hinline, hdev⟩ htrip
  case clearConflict =>
    exact fun c s hadmits hinline hdev htrip hleft => BlockClearAdmitted.exec_conflict ⟨hadmits, hinline, hdev⟩ htrip hleft
  case clearStandby =>
    intro c s hadmits hinline hdev htrip hsource hsto hlatch hm2 hports
    have hdest : clearedTo s = .standby := if_pos ⟨by simp [hm2], hports⟩
    exact BlockClearAdmitted.exec_clear ⟨hadmits, hinline, hdev⟩ htrip hsource hsto hlatch hdest
  case clearConfig =>
    intro c s hadmits hinline hdev htrip hsource hsto hlatch hno
    have hdest : clearedTo s = .config := by
      refine if_neg ?_
      rintro ⟨hm2, hports⟩
      rcases hno with h | h
      · simp [h] at hm2
      · exact Bool.false_ne_true (h.symm.trans hports)
    exact BlockClearAdmitted.exec_clear ⟨hadmits, hinline, hdev⟩ htrip hsource hsto hlatch hdest
  case reset =>
    exact fun c s hserving hinline hmb hkind hrsv hreq => ResetAdmitted.exec_ok ⟨hserving, hinline, hmb, hkind, hrsv⟩ (requestReset_of_none hreq)
  case resetCold =>
    intro c s r hserving hinline hmb hkind hrsv hreq hwarm
    have hcold : (c.u8 0 == 2) = true := by simp [hkind]
    exact ResetAdmitted.exec_ok ⟨hserving, hinline, hmb, .inr hkind, hrsv⟩ (requestReset_cold_of_warm hreq hcold hwarm)
  case resetDiscarded =>
    intro c s r hserving hinline hmb hkind hrsv hreq hno
    have hdiscard : (c.u8 0 == 2) = false ∨ r.cold = true := hno.imp_left (fun h => by simp [h])
    exact ResetAdmitted.exec_conflict ⟨hserving, hinline, hmb, hkind, hrsv⟩ (requestReset_discarded hreq hdiscard)
  case testEnter => exact fun c s hadmits hinline hftest hdev => execTestEnter_ok hadmits hinline hftest hdev
  case testLow => exact fun c s hserving hftest => execTestEnter_low hserving hftest

end Sys2Proof.Machine

/-! PROOFS. Strap sampling and the rows of the boot sequence (Table 3.11) set what they name (O9). -/

namespace Sys2Proof.Machine

open Sys2Proof

variable {s : State}

/-! ### Straps (R46) -/

theorem strapLatch_same (x : Straps) : strapLatch x x = (x, false) := by simp [strapLatch]

theorem strapLatch_ne {x y : Straps} (h : x ≠ y) : strapLatch x y = ({
    pairsel := if x.pairsel == y.pairsel then x.pairsel else true, trefsel := if x.trefsel == y.trefsel then x.trefsel else false,
    ftest := if x.ftest == y.ftest then x.ftest else false, unitid := x.unitid &&& y.unitid }, true) :=
  Prod.ext rfl (bne_iff_ne.mpr h)

/-- What the latch holds after two samples, and whether they differ. -/
def strapsLatched (r : Straps × Bool) (s : State) : State :=
  s.onPower (fun p => { p with straps := r.1, strapBad := r.2, strapDone := true, strapFirst := none })

section
variable {a b f : Bool} {u : BitVec 4}

theorem execStrapSample_closed (h : s.dev.state ≠ .boot ∨ s.power.strapDone = true) : execStrapSample a b f u s = .next s := if_pos h

variable (hboot : s.dev.state = .boot) (hopen : s.power.strapDone = false)
include hboot hopen

theorem execStrapSample_first (hfirst : s.power.strapFirst = none) :
    execStrapSample a b f u s = .next (s.onPower (fun p => { p with strapFirst := some ⟨a, b, f, u⟩ })) := by
  simp [execStrapSample, hboot, hopen, hfirst]

theorem execStrapSample_second {x : Straps} {r : Straps × Bool} (hfirst : s.power.strapFirst = some x) (hlatch : strapLatch x ⟨a, b, f, u⟩ = r) :
    execStrapSample a b f u s = .next (when r.2 (sysEvent 0x07 [strapBits (strapsLatched r s)]) (strapsLatched r s)) := by
  subst hlatch
  simp [execStrapSample, hboot, hopen, hfirst, strapsLatched]

end

/-! ### The rows of boot (R76, R77, R78) -/

/-- Row 3 of Table 3.11 with the TIME PLL locked. -/
def timePllLocked (s : State) : State := bootRow 3 (s.onPower (fun p => { p with pll := if p.pll.contains 6 then p.pll else 6 :: p.pll }))

/-- The row of the DRAM (row 6): what was found, and the ring of `n` MiB. -/
def dramFound (a b n : Nat) (s : State) : State :=
  bootRow 6 ((s.onPower (fun p => { p with dramA := a, dramB := b })).onGalley (fun g => { g with cfg := { g.cfg with ring := some n } }))

theorem declareFailed_single {d : Nat} (hd : d ≠ 0) (hok : dieOk s d = true) :
    declareFailed [d] s = raise 0 0x001 0x08 .contained d [] (s.onPower (fun p => { p with dieFailed := p.dieFailed ++ [d] })) := by
  simp [declareFailed, hd, hok]

section
variable (hboot : s.dev.state = .boot)
include hboot

/-- The valid flag was set: the AON facts stand. -/
theorem execBootFirmwareStart_valid (hvalid : s.power.aonValid = true) : execBootFirmwareStart s = .next (bootRow 2 (s.onPower (fun p =>
    { p with aonLost := false, aonValid := true, holdValid := p.holdValid, stuck := p.stuck, tamper := p.tamper }))) := by
  simp [execBootFirmwareStart, hboot, hvalid, when]

/-- The valid flag was not set: the facts are lost (R66). -/
theorem execBootFirmwareStart_lost (hvalid : s.power.aonValid = false) : execBootFirmwareStart s = .next (bootRow 2 ((s.onPower (fun p =>
    { p with aonLost := true, aonValid := true, holdValid := false, stuck := false, tamper := true })).onSafe (fun x =>
      { x with confSw := none, confCrc := none, sealBase := 0 }))) := by
  simp [execBootFirmwareStart, hboot, hvalid, when]

theorem execBootTimePllLock_running (hstarted : s.time.started = true) : execBootTimePllLock s = .next (timePllLocked s) :=
  (if_neg (not_not_intro hboot)).trans (if_pos hstarted)

section
variable (hstopped : s.time.started = false)
include hstopped

theorem execBootTimePllLock_plain (hhold : s.power.holdValid = false) :
    execBootTimePllLock s = .next ((timePllLocked s).onTime (fun t => { t with started := true })) :=
  (if_neg (not_not_intro hboot)).trans ((if_neg (by simp [hstopped])).trans (if_pos (by simp [hhold])))

/-- The bases start from the holdover counter where it is valid (R427). -/
theorem execBootTimePllLock_restored (hhold : s.power.holdValid = true) :
    execBootTimePllLock s =
      .next (setQual .restored (31000 + 100000 * (s.power.holdCount / 32768))
        ((baseUpd 3 (fun b => { b with val := Stamp.val {
            sec := s.power.holdBase.sec + s.power.holdCount / 32768, nsec := s.power.holdCount % 32768 * 1000000000 / 32768 } })
          (baseUpd 0 (fun b => { b with val := Stamp.val {
              sec := s.power.holdBase.sec + s.power.holdCount / 32768, nsec := s.power.holdCount % 32768 * 1000000000 / 32768 } })
            ((timePllLocked s).onTime (fun t => { t with started := true })))).onTime (fun t =>
          { t with b0 := 31000 + 100000 * (s.power.holdCount / 32768), bSecs := 0, offSecs := s.power.holdCount / 32768 }))) :=
  (if_neg (not_not_intro hboot)).trans ((if_neg (by simp [hstopped])).trans (if_neg (by simp [hhold])))

end

theorem execBootSelftestDone_boot (l : List Nat) (bad : Bool) : execBootSelftestDone ⟨l, bad⟩ s =
    .next (bootRow 5 (when bad rebuildInventory (declareFailed l (s.onPower (fun p => { p with sysFailed := p.sysFailed || l.contains 0 }))))) :=
  if_neg (not_not_intro hboot)

/-- The ring keeps the size it was given, and takes its default size (Table 21.10) where it has none. -/
theorem execBootDdrTrained_boot {a b n : Nat}
    (hring : s.galley.cfg.ring.getD (if a + b < 8192 then (a + b) / 2 else a + b - 6144) = n) :
    execBootDdrTrained a b s = .next (dramFound a b n s) := by
  subst hring
  exact if_neg (not_not_intro hboot)

end

theorem execBootPcieReady_ready (hpower : s.dev.state ≠ .powerDown) (hperst : s.power.perst = false) : execBootPcieReady s =
    .next (bootRow 7 (cdcRestart (s.onPower (fun p => { p with hostUp := true, refLost := p.refLost.filter (· != 3) })))) :=
  if_neg (by simp [powered, hpower, hperst])

theorem execHeartbeatIncrement_runs (hpower : s.dev.state ≠ .powerDown) (hrow : s.power.bootDone.contains 2 = true) :
    execHeartbeatIncrement s = .next (s.onDev (fun d => { d with heartbeat := d.heartbeat + 1 })) :=
  if_neg (by simpa [powered, hpower] using hrow)

/-! ### BOOT_COMPLETE -/

/-- CONFIG is reached: reports out, the host port's crossings running, the reset marks cleared. -/
def configReached (s : State) : State :=
  (safeBoot (cdcRestart ((transition .config 0x02 ((bootReports (bootUnits s)).onDev (fun d =>
    { d with capsValid := true, reached := true, aliveRun := !d.fatal }))).onGalley (fun g =>
      { g with holeNext := g.holeNext || s.power.warmBoot })))).onPower (fun p => { p with warmBoot := false, coldBoot := false })

/-- A fatal source of the MPR itself, or the loss of REFCLK, is left. -/
def protSourceLeft (s : State) : Bool := s.dev.sources.any (fun x => x.die == 3 || (x.block == 0x002 && x.kind == 0x02))

theorem execBootComplete_early (hready : bootReady s = false) : execBootComplete s = .next s := if_pos (by simp [hready])

theorem execBootComplete_ready (hready : bootReady s = true) : execBootComplete s =
    .next (when s.dev.fatal (addTrigger .blockedFault 0x30 0)
      (capsBuild (when (protSourceLeft s && !s.power.warmBoot) (protStop 0) (configReached s)))) :=
  if_neg (by simp [hready])

/-- Settles O9: for each row, the branch of its meaning that the condition of the clause takes. -/
theorem bootRowsBuildTheDevice : Obligations.BootRowsBuildTheDevice := by
  refine ⟨?first, ?agree, ?differ, ?closed, ?pll, ?valid, ?lost, ?plain, ?restored, ?running, ?links, ?link, ?selftest, ?inventory, ?ringLarge,
    ?ringSmall, ?ringKept, ?pcie, ?heartbeat, ?alive, ?still, ?complete, ?fatal, ?fatalProt, ?early⟩
  case first => exact fun s a b f u hboot hopen hfirst => execStrapSample_first hboot hopen hfirst
  case agree => exact fun s a b f u hboot hopen hfirst => execStrapSample_second hboot hopen hfirst (strapLatch_same _)
  case differ => exact fun s x a b f u hboot hopen hfirst hne => execStrapSample_second hboot hopen hfirst (strapLatch_ne hne)
  case closed => exact fun s a b f u h => execStrapSample_closed h
  case pll => exact fun s hboot => if_neg (not_not_intro hboot)
  case valid => exact fun s hboot hvalid => execBootFirmwareStart_valid hboot hvalid
  case lost => exact fun s hboot hvalid => execBootFirmwareStart_lost hboot hvalid
  case plain => exact fun s hboot hstopped hhold => execBootTimePllLock_plain hboot hstopped hhold
  case restored => exact fun s hboot hstopped hhold => execBootTimePllLock_restored hboot hstopped hhold
  case running => exact fun s hboot hstarted => execBootTimePllLock_running hboot hstarted
  case links => exact fun s l hboot => if_neg (not_not_intro hboot)
  case link =>
    intro s d hboot hd hok
    rw [← declareFailed_single hd hok]
    exact if_neg (not_not_intro hboot)
  case selftest => exact fun s l hboot => execBootSelftestDone_boot hboot l false
  case inventory => exact fun s l hboot => execBootSelftestDone_boot hboot l true
  case ringLarge =>
    intro s a b hboot hlarge hring
    exact execBootDdrTrained_boot hboot (by rw [hring]; exact if_neg (Nat.not_lt.mpr hlarge))
  case ringSmall =>
    intro s a b hboot hsmall hring
    exact execBootDdrTrained_boot hboot (by rw [hring]; exact if_pos hsmall)
  case ringKept => exact fun s a b n hboot hring => execBootDdrTrained_boot hboot (by simp [hring])
  case pcie => exact fun s hpower hperst => execBootPcieReady_ready hpower hperst
  case heartbeat => exact fun s hpower hrow => execHeartbeatIncrement_runs hpower hrow
  case alive => exact fun s hrun => if_pos hrun
  case still => exact fun s hrun => if_neg (by simp [hrun])
  case complete =>
    intro s hready hfatal hown
    exact (execBootComplete_ready hready).trans (by rw [when_of_false hfatal, when_of_false (by exact hown)]; rfl)
  case fatal =>
    intro s hready hfatal hown
    exact (execBootComplete_ready hready).trans (by rw [when_of_true hfatal, when_of_false (by exact hown)]; rfl)
  case fatalProt =>
    intro s hready hfatal hown hcold
    have hstop : (protSourceLeft s && !s.power.warmBoot) = true := by simp [protSourceLeft, hown, hcold]
    exact (execBootComplete_ready hready).trans (by rw [when_of_true hfatal, when_of_true hstop]; rfl)
  case early => exact fun s hready => execBootComplete_early hready

end Sys2Proof.Machine

/-! PROOFS. Spares, failures, wear and temperatures act as chapter 23 says (O54). -/

namespace Sys2Proof.Machine

open Sys2Proof

variable {c : Cmd} {s : State}

/-! ### SPARE_STATUS -/

/-- SPARE_STATUS with its parameters in range, for a kind that the die named may hold. -/
structure SpareStatusAdmitted (c : Cmd) (s : State) : Prop where
  serving : Serving s
  mb : c.mb ≠ 0
  params : Inline c 12
  die : kindDie (c.u8 0) (c.u8 1) = true
  reserved : c.rsv 2 2 = true
  aligned : c.u64 4 % 64 = 0

/-- The result bytes of SPARE_STATUS (Table 23.9). -/
def statusResult (s : State) (kind die : Nat) : Bytes :=
  (spareCounts s kind die).flatMap (le 2) ++ le 4 ((tget {} s.spare.thermal die : Thermal).ms / 3600000) ++
    le 4 ((tget {} s.spare.thermal die : Thermal).hotMs / 3600000) ++ leS 2 (tget 0 s.power.temps die) ++ le 2 0 ++ le 4 s.tick.index

section
variable (h : SpareStatusAdmitted c s)
include h

theorem SpareStatusAdmitted.exec_ok (hok : dieOk s (c.u8 1) = true) : execSpareStatus c s = .next (answer 0x1201 c .ok
    (statusResult s (c.u8 0) (c.u8 1)) (when (c.u64 4 != 0) (putBuf (c.u64 4) (withCrc (spareEntries s (c.u8 0) (c.u8 1)))) s)) := by
  obtain ⟨hserving, hmb, hinline, hdie, hrsv, haligned⟩ := h
  unfold execSpareStatus
  exact Gate.Passes.answers {
    serving := hserving
    mailbox := mailbox_of_ne_zero hmb rfl
    test := rfl
    len := inl_of_inline hinline
    fitted := by simp [hok]
    legal := legal_serving hserving.1 hserving.2 rfl
    roles := rfl
    permit := rfl
    par := by simp [hdie, hrsv, haligned]
    entry := entryReserved_of_inline hinline } rfl rfl rfl

theorem SpareStatusAdmitted.exec_not_fitted (hok : dieOk s (c.u8 1) = false) : execSpareStatus c s = .next (answer 0x1201 c .notFitted [] s) := by
  unfold execSpareStatus
  exact runCmd_of_fail h.serving
    (Gate.fail_of_not_fitted (mailbox_of_ne_zero h.mb rfl) rfl (inl_of_inline h.params) (by simp [h.die, hok])) (by decide)

end

/-! ### SPARE_SWAP (R585, R593) -/

/-- The gate of SPARE_SWAP (`execSpareSwap`). -/
def spareSwapGate (c : Cmd) (s : State) : Gate := {
  opcode := 0x1202, len := c.inl 8, legal := if c.u8 4 = 1 then inStates [.config] else notBoot,
  fitted := !kindDie (c.u8 0) (c.u8 1) || dieOk s (c.u8 1), roles := actStby, free := !held s (.unitPool (c.u8 0)),
  pends := c.u8 4 == 1 || c.u8 0 == 4,
  par := 1 ≤ c.u8 0 && c.u8 0 ≤ 4 && kindDie (c.u8 0) (c.u8 1) && c.u8 4 < 2 && c.rsv 5 3 &&
    c.u16 2 < (if c.u8 4 = 0 then logCount (c.u8 0) else physCount (c.u8 0)) }

/-- SPARE_SWAP meets an active or standby unit, with parameters in range for its action; action 1 is legal in CONFIG and FACTORY_TEST. -/
structure SpareSwapAdmitted (c : Cmd) (s : State) : Prop where
  serving : Serving s
  mb : c.mb ≠ 0
  role : s.dev.role = .active ∨ s.dev.role = .standby
  params : Inline c 8
  die : kindDie (c.u8 0) (c.u8 1) = true
  reserved : c.rsv 5 3 = true
  kind : 1 ≤ c.u8 0 ∧ c.u8 0 ≤ 4
  fitted : dieOk s (c.u8 1) = true
  action : (c.u8 4 = 0 ∧ c.u16 2 < logCount (c.u8 0)) ∨ (c.u8 4 = 1 ∧ c.u16 2 < physCount (c.u8 0) ∧ s.dev.state ∈ [.config, .factoryTest])

/-- Nothing holds SPARE_SWAP back: the pool is free, and a PENDING is left where the swap needs one. -/
structure SpareSwapFree (c : Cmd) (s : State) : Prop where
  pool : held s (.unitPool (c.u8 0)) = false
  pend : (c.u8 4 ≠ 1 ∧ c.u8 0 ≠ 4) ∨ pendCount s c.mb < 8

/-- Where action 0 stays legal while it waits. -/
theorem spareSwapGate_legal_out (hact : c.u8 4 = 0) : DevState.all.filter (spareSwapGate c s).legalIn =
    [.config, .standby, .deblocked, .safeStop, .blockedFault, .replay, .factoryTest] := by
  have hlegal : (spareSwapGate c s).legal = notBoot := if_neg (by simp [hact])
  simp [DevState.all, Gate.legalIn, hlegal, notBoot]

/-- Where action 1 stays legal while it waits: FACTORY_TEST takes it over from CONFIG (R104). -/
theorem spareSwapGate_legal_back (hact : c.u8 4 = 1) : DevState.all.filter (spareSwapGate c s).legalIn = [.config, .factoryTest] := by
  have hlegal : (spareSwapGate c s).legal = inStates [.config] := if_pos hact
  have htest : (spareSwapGate c s).opcode ∉ notInTest := (by decide : 0x1202 ∉ notInTest)
  simp [DevState.all, Gate.legalIn, hlegal, inStates, htest]

theorem SpareSwapAdmitted.legal (h : SpareSwapAdmitted c s) : (spareSwapGate c s).legalIn s.dev.state = true := by
  have hstates : s.dev.state ∈ DevState.all.filter (spareSwapGate c s).legalIn := by
    rcases h.action with ⟨hact, -⟩ | ⟨hact, -, hstate⟩
    · rw [spareSwapGate_legal_out hact]
      have hserving := h.serving
      cases hst : s.dev.state <;> simp_all
    · rwa [spareSwapGate_legal_back hact]
  exact (List.mem_filter.mp hstates).2

theorem SpareSwapAdmitted.passes (h : SpareSwapAdmitted c s) : (spareSwapGate c s).Passes c s where
  serving := h.serving
  mailbox := mailbox_of_ne_zero h.mb rfl
  test := rfl
  len := inl_of_inline h.params
  fitted := by simp [spareSwapGate, h.fitted]
  legal := h.legal
  roles := by rcases h.role with hrole | hrole <;> simp [spareSwapGate, actStby, hrole]
  permit := rfl
  par := by rcases h.action with ⟨hact, hn⟩ | ⟨hact, hn, -⟩ <;> simp [spareSwapGate, h.kind, h.die, h.reserved, hact, hn]
  entry := entryReserved_of_inline h.params

theorem SpareSwapFree.pends (h : SpareSwapFree c s) : ((spareSwapGate c s).pends && decide (8 ≤ pendCount s c.mb)) = false := by
  rcases h.pend with ⟨hact, hkind⟩ | hpend
  · simp [spareSwapGate, hact, hkind]
  · simp [hpend]

section
variable (h : SpareSwapAdmitted c s)
include h

theorem SpareSwapAdmitted.exec_busy (hbusy : held s (.unitPool (c.u8 0)) = true ∨ ((c.u8 4 = 1 ∨ c.u8 0 = 4) ∧ 8 ≤ pendCount s c.mb)) :
    execSpareSwap c s = .next (answer 0x1202 c .busy [] s) := by
  unfold execSpareSwap
  exact h.passes.busy (by rcases hbusy with h | ⟨h, hp⟩ <;> simp [spareSwapGate, *])

variable (hfree : SpareSwapFree c s)
include hfree

/-- A spare port cannot be swapped by command. -/
theorem SpareSwapAdmitted.exec_port (hkind : c.u8 0 = 3) : execSpareSwap c s = .next (answer 0x1202 c .conflict [] s) := by
  unfold execSpareSwap
  exact h.passes.answers (by simp [spareSwapGate, hfree.pool]) hfree.pends (if_pos hkind)

variable {t : State} {st : Status} {r : Bytes} {later : Bool} (hkind : c.u8 0 ≠ 3)
include hkind

theorem SpareSwapAdmitted.exec_out (hact : c.u8 4 = 0)
    (hswap : swapOut (spareSwapGate c s) c (c.u8 0) (c.u8 1) (c.u16 2) s = ⟨t, st, r, later⟩) :
    execSpareSwap c s = if later then .next (awaitFirst 0x1202 c t) else .next (answer 0x1202 c st r t) := by
  unfold execSpareSwap
  exact h.passes.runs (by simp [spareSwapGate, hfree.pool]) hfree.pends ((if_neg hkind).trans ((if_pos hact).trans hswap))

theorem SpareSwapAdmitted.exec_back (hact : c.u8 4 = 1)
    (hswap : swapBack (spareSwapGate c s) c (c.u8 0) (c.u8 1) (c.u16 2) s = ⟨t, st, r, false⟩) :
    execSpareSwap c s = .next (answer 0x1202 c st r t) := by
  unfold execSpareSwap
  exact h.passes.answers (by simp [spareSwapGate, hfree.pool]) hfree.pends ((if_neg hkind).trans ((if_neg (by simp [hact])).trans hswap))

end

section
variable {g : Gate} {k d n : Nat}

theorem swapOut_of_none (hserving : serving s k d n = none) : swapOut g c k d n s = ⟨s, .conflict, swapResult 0xFFFF 0xFFFF 3, false⟩ := by
  simp [swapOut, hserving]

theorem swapBack_of_not_retired (hst : resState s k d n ≠ 3) :
    swapBack g c k d n s = ⟨s, .conflict, swapResult n 0xFFFF (resState s k d n), false⟩ := if_pos hst

theorem swapBack_of_retired (hst : resState s k d n = 3) : swapBack g c k d n s =
    ⟨resUpd k d n (fun r => { r with st := some 4, cause := 2 }) (goPending g c [.unitPool k] (resKey k d n) none s), .pending,
      swapResult n 0xFFFF 4, false⟩ := if_neg (not_not_intro hst)

variable {p : Nat} (hserving : serving s k d n = some p)
include hserving

theorem swapOut_of_no_spare (hno : sparesLeft s k d = [] ∨ (k = 4 ∧ spareIdle s = false)) :
    swapOut g c k d n s = ⟨s, .exhausted, swapResult p 0xFFFF (resState s k d p), false⟩ := by
  simp only [swapOut, hserving]
  exact if_pos (by simpa using hno)

variable (hspare : sparesLeft s k d ≠ [])
include hspare

theorem swapOut_pooled (hkind : k ≠ 4) : swapOut g c k d n s =
    ⟨failPooled k d p 2 (goPending g c [.unitPool k] (resKey k d p) none s), .pending, [], true⟩ := by
  simp [swapOut, hserving, hspare, hkind]

theorem swapOut_unit (hkind : k = 4) (hidle : spareIdle s = true) : swapOut g c k d n s =
    ⟨unitLost n 2 2 (goPending g c [.unitPool k] (resKey k d p) none s), .pending, [], false⟩ := by
  subst hkind
  simp [swapOut, hserving, hspare, hidle]

end

/-- The die named is not fitted. -/
theorem execSpareSwap_not_fitted (hserving : Serving s) (hmb : c.mb ≠ 0) (hinline : Inline c 8) (hdie : kindDie (c.u8 0) (c.u8 1) = true)
    (hok : dieOk s (c.u8 1) = false) : execSpareSwap c s = .next (answer 0x1202 c .notFitted [] s) := by
  unfold execSpareSwap
  exact runCmd_of_fail hserving
    (Gate.fail_of_not_fitted (mailbox_of_ne_zero hmb rfl) rfl (inl_of_inline hinline) (by simp [hdie, hok])) (by decide)

/-! ### SPARE_THRESHOLD_SET (R593, Table 23.2) -/

/-- The gate of SPARE_THRESHOLD_SET (`execSpareThresholdSet`). -/
def thresholdGate (c : Cmd) : Gate := {
  opcode := 0x1203, len := c.inl 12, legal := notBoot,
  par := 1 ≤ c.u8 0 && c.u8 0 ≤ 6 && c.rsv 1 3 && c.u32 4 != 0 &&
    (if c.u8 0 ≤ 4 then 1 ≤ c.u32 8 && c.u32 8 ≤ 2592000 else c.u32 8 == 0) && (c.u8 0 != 6 || (80 ≤ c.u32 4 && c.u32 4 ≤ 120)) }

section
variable (hserving : Serving s) (hmb : c.mb ≠ 0) (hinline : Inline c 12)
include hserving hmb hinline

theorem execSpareThresholdSet_ok (hpar : (thresholdGate c).par = true) : execSpareThresholdSet c s =
    .next (answer 0x1203 c .ok (le 4 (thrGet s (c.u8 0)).1 ++ le 4 (thrGet s (c.u8 0)).2)
      (s.onSpare (fun x => { x with thr := tset x.thr (c.u8 0) (c.u32 4, c.u32 8) }))) := by
  unfold execSpareThresholdSet
  exact Gate.Passes.answers {
    serving := hserving
    mailbox := mailbox_of_ne_zero hmb rfl
    test := rfl
    len := inl_of_inline hinline
    fitted := rfl
    legal := legal_serving hserving.1 hserving.2 rfl
    roles := rfl
    permit := rfl
    par := hpar
    entry := entryReserved_of_inline hinline } rfl rfl rfl

theorem execSpareThresholdSet_bad (hpar : (thresholdGate c).par = false) : execSpareThresholdSet c s = .next (answer 0x1203 c .badParam [] s) := by
  unfold execSpareThresholdSet
  exact runCmd_of_fail hserving (Gate.fail_of_par (mailbox_of_ne_zero hmb rfl) rfl (inl_of_inline hinline) rfl
    (legal_serving hserving.1 hserving.2 rfl) rfl rfl hpar) (by decide)

end

/-! ### Known-answer tests (R580, R581, R585) -/

section
variable {d t : Nat} {b : Bool} (hctl : ctlOk s d = true)

theorem execTileKnownAnswerTest_none
    (h : ctlOk s d = false ∨ 18 ≤ t ∨ (testing s 1 (1 + d) t = false ∧
      ((tileGet s d t).item.isSome = true ∨ (tileGet s d t).retired = true ∨ (tileGet s d t).repair = true))) :
    execTileKnownAnswerTest d t b s = .next s := by
  by_cases hout : ctlOk s d = false ∨ 18 ≤ t
  · exact if_pos (by simpa using hout)
  · obtain ⟨htest, hbusy⟩ := (or_assoc.mpr h).resolve_left hout
    exact (if_neg (by simpa using hout)).trans ((if_neg (by simp [htest])).trans (if_pos hbusy))

include hctl

theorem execTileKnownAnswerTest_testing (ht : t < 18) (htest : testing s 1 (1 + d) t = true) :
    execTileKnownAnswerTest d t b s = .next (readmitEnd 1 (1 + d) t b s) :=
  (if_neg (by simp [hctl, ht])).trans (if_pos htest)

theorem execTileKnownAnswerTest_idle (ht : t < 18) (htest : testing s 1 (1 + d) t = false) (hitem : (tileGet s d t).item = none)
    (hretired : (tileGet s d t).retired = false) (hrepair : (tileGet s d t).repair = false) :
    execTileKnownAnswerTest d t b s = .next (if b then dieUpd d (fun y => { y with kat := (t + 1) % 18 }) s
      else resourceFail 1 (1 + d) t 0 (dieUpd d (fun y => { y with kat := (t + 1) % 18 }) s)) :=
  (if_neg (by simp [hctl, ht])).trans ((if_neg (by simp [htest])).trans (if_neg (by simp [hitem, hretired, hrepair])))

variable {n : Nat} (hnext : laneNext s d = n)
include hnext

theorem execLoopLaneKat_testing (htest : testing s 2 (1 + d) n = true) : execLoopLaneKat d b s = .next (readmitEnd 2 (1 + d) n b s) := by
  subst hnext
  exact (if_neg (by simp [hctl])).trans (if_pos htest)

theorem execLoopLaneKat_turn (htest : testing s 2 (1 + d) n = false) :
    execLoopLaneKat d b s = .next (if b then s.onSpare (fun x => { x with lane := tset x.lane d ((n + 1) % 9) })
      else resourceFail 2 (1 + d) n 0 (s.onSpare (fun x => { x with lane := tset x.lane d ((n + 1) % 9) }))) := by
  subst hnext
  exact (if_neg (by simp [hctl])).trans (if_neg (by simp [htest]))

end

/-! ### RESOURCE_FAIL: tiles and loop lanes -/

section
variable {k d n a : Nat}

theorem resourceFail_pooled (hk : k = 1 ∨ k = 2) (hd : 1 ≤ d) (hctl : ctlOk s (d - 1) = true) (hn : n < physCount k) :
    resourceFail k d n a s = failPooled k d n a s := by
  rcases hk with rfl | rfl <;> exact if_pos ⟨hctl, hd, hn⟩

theorem resourceFail_pooled_none (hk : k = 1 ∨ k = 2)
    (h : d = 0 ∨ ctlOk s (d - 1) = false ∨ physCount k ≤ n ∨ resState s k d n = 3) : resourceFail k d n a s = s := by
  by_cases hin : ctlOk s (d - 1) = true ∧ 1 ≤ d ∧ n < physCount k
  · obtain ⟨hctl, hd, hn⟩ := hin
    have hst : resState s k d n = 3 := by
      rcases h with h | h | h | h
      · omega
      · simp [hctl] at h
      · omega
      · exact h
    exact (resourceFail_pooled hk hd hctl hn).trans (if_pos hst)
  · rcases hk with rfl | rfl <;> exact if_neg hin

variable (hst : resState s k d n ≠ 3)
include hst

/-- The first spare left is named for the resource. -/
theorem failPooled_named {sp : Nat} (hserves : (resServes s k d n).isSome = true) (hspare : (sparesLeft (retire k d n a s) k d).head? = some sp) :
    failPooled k d n a s = (retire k d n a s).onSpare (fun x => { x with waiting := x.waiting ++ [(k, d, n, sp, a)] }) := by
  obtain ⟨l, hl⟩ := Option.isSome_iff_exists.mp hserves
  obtain ⟨rest, hrest⟩ := List.head?_eq_some_iff.mp hspare
  simp only [failPooled, if_neg hst, hl, hrest]

/-- A resource that served nothing needs no spare. -/
theorem failPooled_unused (hserves : resServes s k d n = none) : failPooled k d n a s = capsUpdate (retire k d n a s) := by
  simp only [failPooled, if_neg hst, hserves]

/-- Without a spare the logical number is lost. -/
theorem failPooled_lost {l : Nat} (hserves : resServes s k d n = some l) (hspare : sparesLeft (retire k d n a s) k d = []) :
    failPooled k d n a s = capsUpdate (lostNote k d l n a (retire k d n a s)) := by
  simp only [failPooled, if_neg hst, hserves, hspare]

end

/-! ### RESOURCE_FAIL: ports, converter units, DRAM blocks and sectors -/

section
variable {d n a : Nat}

theorem resourceFail_port (hd : 4 ≤ d) (hok : dieOk s d = true) : resourceFail 3 d n a s = failPort d n a s := if_pos ⟨hd, hok⟩

theorem failPort_of_fitted (hn : n < 8) (hfit : portFitted s ((d - 4) * 8 + n) = true) : failPort d n a s =
    if spareTaken s ((d - 4) * 8 + n) then
      portLost ((d - 4) * 8 + n) ((resUpd 3 d n (fun r => { r with cause := a }) s).draw.1 % 2 == 1)
        (resUpd 3 d n (fun r => { r with cause := a }) s).draw.2
    else portUpd ((d - 4) * 8 + n) (fun x => { x with shadow := some s.tick.index }) (resUpd 3 d n (fun r => { r with cause := a }) s) :=
  if_neg (by simp [hfit, hn])

theorem resourceFail_port_none (h : d < 4 ∨ dieOk s d = false ∨ 8 ≤ n ∨ portFitted s ((d - 4) * 8 + n) = false) :
    resourceFail 3 d n a s = s := by
  by_cases hin : 4 ≤ d ∧ dieOk s d = true
  · obtain ⟨hd, hok⟩ := hin
    have hout : portFitted s ((d - 4) * 8 + n) = false ∨ 8 ≤ n := by
      rcases h with h | h | h | h
      · omega
      · simp [hok] at h
      · exact .inr h
      · exact .inl h
    exact (resourceFail_port hd hok).trans (if_pos (by simpa using hout))
  · exact if_neg hin

theorem resourceFail_unit (h3 : resState s 4 3 n ≠ 3) (h4 : resState s 4 3 n ≠ 4) : resourceFail 4 3 n a s = unitLost n a a s :=
  if_pos ⟨rfl, h3, h4⟩

theorem resourceFail_unit_none (h : d ≠ 3 ∨ resState s 4 3 n = 3 ∨ resState s 4 3 n = 4) : resourceFail 4 d n a s = s :=
  if_neg (by rintro ⟨hd, h3, h4⟩; rcases h with h | h | h <;> contradiction)

/-- A DRAM row takes its repair row, or its block of 1 MiB goes bad (R584). -/
theorem resourceFail_dram {ch b k : Nat} (hk : k = 2 * b + ch % 2) (hboot : s.dev.state = .boot) (hgood : s.spare.badBlocks.contains k = false) :
    resourceFail 6 ch b a s = if Config.rowLeft 6 (k :: s.spare.ddrRows) 0 then
        spareEvent 0x02 .notice (resKey 6 0 b) [6] (spareEvent 0x01 .notice (resKey 6 0 b) [b, s.spare.ddrRows.length, a]
          (s.onSpare (fun x => { x with ddrRows := x.ddrRows ++ [k] })))
      else capsUpdate (spareEvent 0x06 .notice b [ch] (lostNote 6 0 b b a (s.onSpare (fun x =>
        { x with badBlocks := k :: x.badBlocks, badA := if ch = 0 then x.badA + 1 else x.badA,
                 badB := if ch = 0 then x.badB else x.badB + 1 })))) := by
  subst hk
  exact if_neg (by simp only [hboot, hgood]; simp)

theorem resourceFail_dram_none (h : s.dev.state ≠ .boot ∨ s.spare.badBlocks.contains (2 * n + d % 2) = true) : resourceFail 6 d n a s = s :=
  if_pos h

/-- A spare sector takes the place of one that fails (R582). -/
theorem resourceFail_sector {k sp : Nat} (hn : n < 4352) (hst : resState s 7 0 n ≠ 3) (hserves : resServes s 7 0 n = some k)
    (hspare : (sparesLeft (resUpd 7 0 n (fun r => { r with st := some 3, cause := a }) s) 7 0).head? = some sp) :
    resourceFail 7 d n a s = capsUpdate (spareNote 7 0 k n sp a ((resUpd 7 0 sp (fun r => { r with st := some 2 })
      (resUpd 7 0 n (fun r => { r with st := some 3, cause := a }) s)).onSpare (fun x =>
        { x with sectors := tset x.sectors sp (k, hoursNow s) }))) := by
  obtain ⟨rest, hrest⟩ := List.head?_eq_some_iff.mp hspare
  have hin : ¬(resState s 7 0 n = 3 ∨ 4352 ≤ n) := by omega
  simp only [resourceFail, failSector, if_neg hin, hserves, hrest]

theorem resourceFail_sector_none (h : resState s 7 0 n = 3 ∨ 4352 ≤ n) : resourceFail 7 d n a s = s := if_pos h

theorem resourceFail_no_kind {k : Nat} (h : k = 0 ∨ 8 ≤ k) : resourceFail k d n a s = s := by
  rcases h with rfl | h
  · rfl
  · obtain ⟨m, rfl⟩ := Nat.exists_eq_add_of_le' h
    rfl

end

/-! ### SPARE_IN (Table 23.3) -/

section
variable {k d n : Nat} {w : Nat × Nat × Nat × Nat × Nat}

/-- The entry of the spare that waits for a resource. -/
def awaitedSpare (s : State) (k d n : Nat) : Option (Nat × Nat × Nat × Nat × Nat) :=
  s.spare.waiting.find? (fun x => x.1 == k && x.2.1 == d && x.2.2.1 == n)

theorem spareIn_waiting (hw : awaitedSpare s k d n = some w) (hfree : k ≠ 1 ∨ (tileGet s (d - 1) n).item = none) :
    spareIn k d n s = endSwap k d n w.2.2.2.1 3 (capsUpdate (spareNote k d ((resGet s k d n).serves.getD n) n w.2.2.2.1 w.2.2.2.2
      (takeOver k d w.2.2.2.1 ((resGet s k d n).serves.getD n) (s.onSpare (fun x => { x with waiting := x.waiting.filter (· != w) }))))) := by
  unfold awaitedSpare at hw
  simp only [spareIn, hw]
  exact if_neg (by rintro ⟨hk, hitem⟩; rcases hfree with h | h <;> simp_all)

theorem spareIn_none (h : awaitedSpare s k d n = none ∨ (k = 1 ∧ (tileGet s (d - 1) n).item.isSome = true)) : spareIn k d n s = s := by
  unfold spareIn
  split
  next => rfl
  next w hw => exact if_pos (h.resolve_left (by simp [awaitedSpare, hw]))

end

/-! ### Rows and sectors (R582, R583) -/

/-- A failing row takes the next spare row of its array, or is noted as lost. -/
theorem execSramRowRepair_fitted {d b m r used : Nat} (hok : dieOk s d = true)
    (hused : (s.spare.rows.filter (fun e => e.1 == d && e.2.1 == b && e.2.2.1 == m)).length = used) :
    execSramRowRepair d b m r s = .next (if Config.rowLeft 5 [d, b, m] used then
        capsUpdate (when (!Config.rowLeft 5 [d, b, m] (used + 1)) (spareEvent 0x02 .notice (resKey 5 d r) [5])
          (spareEvent 0x01 .notice (resKey 5 d r) [r, used, 1] (raise d b 0xE3 .notice m [r] (s.onSpare (fun x =>
            { x with rows := x.rows ++ [(d, b, m, r)] })))))
      else lostNote 5 d r r 1 s) := by
  subst hused
  refine (if_neg (by simp [hok])).trans ?_
  split <;> rfl

/-- Sectors `h` and `l` after their contents swapped places. -/
def sectorsSwapped (h l : Nat) (s : State) : State :=
  s.onSpare (fun x => { x with
    sectors := tset (tset x.sectors h ((tget (l, 0) s.spare.sectors l).1, hoursNow s)) l ((tget (h, 0) s.spare.sectors h).1, hoursNow s) })

section
variable {h l : Nat}

theorem execMramWearLevel_none (hno : 4352 ≤ h ∨ 4352 ≤ l ∨ h = l ∨ resState s 7 0 h = 3 ∨ resState s 7 0 l = 3) :
    execMramWearLevel h l s = .next s := if_pos hno

variable (hh : h < 4352) (hl : l < 4352) (hne : h ≠ l) (hsth : resState s 7 0 h ≠ 3) (hstl : resState s 7 0 l ≠ 3)
include hh hl hne hsth hstl

/-- Two sectors in use swap contents, and their places where they differ. -/
theorem execMramWearLevel_swap : execMramWearLevel h l s = .next (if resState s 7 0 h = resState s 7 0 l then sectorsSwapped h l s
    else resUpd 7 0 l (fun r => { r with st := some (resState s 7 0 h) })
      (resUpd 7 0 h (fun r => { r with st := some (resState s 7 0 l) }) (sectorsSwapped h l s))) :=
  if_neg (by omega)

end

/-! ### Junction temperature (R41, R586) -/

section
variable {d : Nat} {q : Int} {o y : Thermal}

/-- The reading stored, and the thermal watch of the die moved on to `y` from `o`. -/
def temperatureTaken (d : Nat) (q : Int) (o y : Thermal) (s : State) : State :=
  (s.onPower (fun p => { p with temps := tset p.temps d q, thermtrip := p.thermtrip || decide (500 ≤ q) })).onSpare (fun x =>
    { x with thermal := tset x.thermal d { y with trip := o.trip || decide (500 ≤ q) } })

theorem execTempSensorRead_none (h : dieOk s d = false ∨ s.dev.state = .powerDown) : execTempSensorRead d q s = .next s :=
  if_pos (by simpa using h)

section
variable (ho : o = tget {} s.spare.thermal d) (hy : y = thermalStep ((thrGet s 6).1 : Int) q o) (hok : dieOk s d = true)
  (hpower : s.dev.state ≠ .powerDown)
include ho hy hok hpower

theorem execTempSensorRead_taken : execTempSensorRead d q s = .next (when (decide (500 ≤ q) && !o.trip)
    (fatalWith d 0x002 0x08 d [word32 (q / 4)]) (when (o.high && !y.high) (spareEvent 0x08 .notice d [word32 q])
      (when (y.high && !o.high) (spareEvent 0x07 .notice d [word32 q]) (temperatureTaken d q o y s)))) := by
  subst ho hy
  exact if_neg (by simp [hok, hpower])

variable (hcool : q < 500 ∨ o.trip = true)
include hcool

/-- No new reading at or above 125 °C: the watch moves, with TEMP_HIGH or TEMP_OK where it changes. -/
theorem execTempSensorRead_no_trip : execTempSensorRead d q s = .next (when (o.high && !y.high) (spareEvent 0x08 .notice d [word32 q])
    (when (y.high && !o.high) (spareEvent 0x07 .notice d [word32 q]) (temperatureTaken d q o y s))) := by
  have htrip : (decide (500 ≤ q) && !o.trip) = false := by
    rcases hcool with hq | hlatched
    · simp only [decide_eq_false (Int.not_le.mpr hq), Bool.false_and]
    · simp only [hlatched, Bool.not_true, Bool.and_false]
  rw [execTempSensorRead_taken ho hy hok hpower, when_of_false htrip]

end

/-- The third reading in a row at or above T_WARN makes the die hot; the time hot runs. -/
theorem thermalStep_hot {w : Int} (hq : 4 * w ≤ q) (hhigh : o.high = false) :
    (thermalStep w q o).high = decide (2 ≤ o.hot) ∧ (thermalStep w q o).hotMs = o.hotMs + 1 ∧ (thermalStep w q o).ms = o.ms + 1 := by
  have hcount : (3 ≤ min (o.hot + 1) 3) = (2 ≤ o.hot) := propext (by omega)
  simp only [thermalStep, hq, hhigh, decide_true, if_true, hcount]
  simp

/-- The 100th reading in a row below T_WARN - 5 °C makes a hot die cool again; the time hot stands. -/
theorem thermalStep_cool {w : Int} (hq : q < 4 * (w - 5)) (hhigh : o.high = true) :
    (thermalStep w q o).high = decide (o.cool < 99) ∧ (thermalStep w q o).hotMs = o.hotMs := by
  have hwarm : ¬4 * w ≤ q := by omega
  have hcount : (min (o.cool + 1) 100 < 100) = (o.cool < 99) := propext (by omega)
  simp [thermalStep, hq, hhigh, hwarm, hcount]

end

/-- Settles O54: each command's gate passes under the conditions of its clause, and each event takes the branch they name. -/
theorem spareCommandsAndEvents : Obligations.SpareCommandsAndEvents := by
  refine ⟨?status, ?statusBuffer, ?statusNotFitted, ?swapPort, ?outNone, ?outNoSpare, ?outPooled, ?outUnit, ?backConflict, ?back, ?swapBusy,
    ?swapNotFitted, ?threshold, ?thresholdBad, ?tileIdle, ?tileTesting, ?tileNone, ?laneTurn, ?laneTesting, ?laneNone, ?failNamed, ?failUnused,
    ?failLost, ?portShadowed, ?portLost, ?unitLost, ?unitNone, ?rowCounted, ?dram, ?sector, ?failNone, ?spareIn, ?spareInNone, ?row, ?rowNone,
    ?wearSame, ?wearPlaces, ?wearNone, ?rewrite, ?rewriteNone, ?tempSame, ?tempHigh, ?tempOk, ?tempTrip, ?tempNone, ?stepHot, ?stepCool⟩
  case status =>
    intro c s hserving hmb hinline hdie hrsv haligned hok hbuf
    exact (SpareStatusAdmitted.exec_ok ⟨hserving, hmb, hinline, hdie, hrsv, haligned⟩ hok).trans (by rw [when_of_false (by simp [hbuf])]; rfl)
  case statusBuffer =>
    intro c s hserving hmb hinline hdie hrsv haligned hok hbuf
    exact (SpareStatusAdmitted.exec_ok ⟨hserving, hmb, hinline, hdie, hrsv, haligned⟩ hok).trans (by rw [when_of_true (by simp [hbuf])]; rfl)
  case statusNotFitted =>
    intro c s hserving hmb hinline hdie hrsv haligned hok
    exact SpareStatusAdmitted.exec_not_fitted ⟨hserving, hmb, hinline, hdie, hrsv, haligned⟩ hok
  case swapPort =>
    intro c s hserving hmb hrole hinline hdie hrsv hkind hok hpool hact
    have h : SpareSwapAdmitted c s := ⟨hserving, hmb, hrole, hinline, hdie, hrsv, by omega, hok, by
      rw [hkind]
      exact hact.imp id (fun ⟨hact, hn, hstate, _⟩ => ⟨hact, hn, hstate⟩)⟩
    have hpend : (c.u8 4 ≠ 1 ∧ c.u8 0 ≠ 4) ∨ pendCount s c.mb < 8 := by
      rcases hact with ⟨hact, -⟩ | ⟨-, -, -, hpend⟩
      · exact .inl (by omega)
      · exact .inr hpend
    exact h.exec_port ⟨hkind ▸ hpool, hpend⟩ hkind
  case outNone =>
    intro c s hserving hmb hrole hinline hdie hrsv hact hn hok hpool hkind hnone
    have h : SpareSwapAdmitted c s := ⟨hserving, hmb, hrole, hinline, hdie, hrsv, by omega, hok, .inl ⟨hact, hn⟩⟩
    exact h.exec_out ⟨hpool, .inl (by omega)⟩ (by omega) hact (swapOut_of_none hnone)
  case outNoSpare =>
    intro c p s hserving hmb hrole hinline hdie hrsv hact hn hok hpool hkind hpend hp hno
    have h : SpareSwapAdmitted c s := ⟨hserving, hmb, hrole, hinline, hdie, hrsv, by omega, hok, .inl ⟨hact, hn⟩⟩
    exact h.exec_out ⟨hpool, hpend.imp_left (⟨by omega, ·⟩)⟩ (by omega) hact (swapOut_of_no_spare hp hno)
  case outPooled =>
    intro c p s hserving hmb hrole hinline hdie hrsv hact hn hok hpool hkind hp hspare
    have h : SpareSwapAdmitted c s := ⟨hserving, hmb, hrole, hinline, hdie, hrsv, by omega, hok, .inl ⟨hact, hn⟩⟩
    rw [← spareSwapGate_legal_out (s := s) hact]
    exact h.exec_out ⟨hpool, .inl (by omega)⟩ (by omega) hact (swapOut_pooled hp hspare (by omega))
  case outUnit =>
    intro c p s hserving hmb hrole hinline hdie hrsv hact hn hok hpool hkind hpend hp hspare hidle
    have h : SpareSwapAdmitted c s := ⟨hserving, hmb, hrole, hinline, hdie, hrsv, by omega, hok, .inl ⟨hact, hn⟩⟩
    rw [← hkind] at hp hspare
    rw [← spareSwapGate_legal_out (s := s) hact, ← hkind]
    exact h.exec_out ⟨hpool, .inr hpend⟩ (by omega) hact (swapOut_unit hp hspare hkind hidle)
  case backConflict =>
    intro c s hstate hmb hrole hinline hdie hrsv hact hn hok hpool hpend hkind hst
    have h : SpareSwapAdmitted c s := ⟨serving_of_mem hstate (by decide) (by decide), hmb, hrole, hinline, hdie, hrsv, by omega, hok,
      .inr ⟨hact, hn, hstate⟩⟩
    exact h.exec_back ⟨hpool, .inr hpend⟩ (by omega) hact (swapBack_of_not_retired hst)
  case back =>
    intro c s hstate hmb hrole hinline hdie hrsv hact hn hok hpool hpend hkind hst
    have h : SpareSwapAdmitted c s := ⟨serving_of_mem hstate (by decide) (by decide), hmb, hrole, hinline, hdie, hrsv, by omega, hok,
      .inr ⟨hact, hn, hstate⟩⟩
    rw [← spareSwapGate_legal_back (s := s) hact]
    exact h.exec_back ⟨hpool, .inr hpend⟩ (by omega) hact (swapBack_of_retired hst)
  case swapBusy =>
    intro c s hserving hmb hrole hinline hdie hrsv hkind hok hact hbusy
    exact SpareSwapAdmitted.exec_busy ⟨hserving, hmb, hrole, hinline, hdie, hrsv, hkind, hok, hact⟩ hbusy
  case swapNotFitted => exact fun c s hserving hmb _ hinline hdie _ _ hok _ => execSpareSwap_not_fitted hserving hmb hinline hdie hok
  case threshold =>
    intro c s hserving hmb hinline h1 h6 hrsv hn hrange
    refine execSpareThresholdSet_ok hserving hmb hinline ?_
    rcases hrange with ⟨hid, hw⟩ | ⟨hid, hw⟩ | ⟨hid, hw, hwarn⟩
    · have hne : c.u8 0 ≠ 6 := by omega
      simp [thresholdGate, h1, h6, hrsv, hn, hid, hw, hne]
    · simp [thresholdGate, hrsv, hn, hid, hw]
    · simp [thresholdGate, hrsv, hn, hid, hw, hwarn]
  case thresholdBad =>
    intro c s hserving hmb hinline hbad
    refine execSpareThresholdSet_bad hserving hmb hinline ?_
    rcases hbad with hn | ⟨hid, hw⟩ | ⟨hid, hw⟩ | ⟨hid, hwarn⟩
    · simp [thresholdGate, hn]
    · have hwindow : (1 ≤ c.u32 8 && c.u32 8 ≤ 2592000 : Bool) = false := by simp; omega
      simp [thresholdGate, hid, hwindow]
    · have hlarge : ¬c.u8 0 ≤ 4 := by omega
      simp [thresholdGate, hlarge, hw]
    · have hcount : (80 ≤ c.u32 4 && c.u32 4 ≤ 120 : Bool) = false := by simp; omega
      simp [thresholdGate, hid, hcount]
  case tileIdle =>
    exact fun d t b s hctl ht htest hitem hretired hrepair => execTileKnownAnswerTest_idle hctl ht htest hitem hretired hrepair
  case tileTesting => exact fun d t b s hctl ht htest => execTileKnownAnswerTest_testing hctl ht htest
  case tileNone => exact fun d t b s h => execTileKnownAnswerTest_none h
  case laneTurn => exact fun d n b s hctl hnext htest => execLoopLaneKat_turn hctl hnext htest
  case laneTesting => exact fun d n b s hctl hnext htest => execLoopLaneKat_testing hctl hnext htest
  case laneNone => exact fun d b s hctl => if_pos (by simp [hctl])
  case failNamed =>
    rintro k d n a sp s _ hk hd hctl hn hst rfl hserves hspare
    exact congrArg _ ((resourceFail_pooled hk hd hctl hn).trans (failPooled_named hst hserves hspare))
  case failUnused =>
    rintro k d n a s _ hk hd hctl hn hst rfl hserves
    exact congrArg _ ((resourceFail_pooled hk hd hctl hn).trans (failPooled_unused hst hserves))
  case failLost =>
    rintro k d n a l s _ hk hd hctl hn hst rfl hserves hspare
    exact congrArg _ ((resourceFail_pooled hk hd hctl hn).trans (failPooled_lost hst hserves hspare))
  case portShadowed =>
    intro d n a s hd hok hn hfit hfree
    exact congrArg _ ((resourceFail_port hd hok).trans ((failPort_of_fitted hn hfit).trans (if_neg (by simp [hfree]))))
  case portLost =>
    rintro d n a s _ hd hok hn hfit htaken rfl
    exact congrArg _ ((resourceFail_port hd hok).trans ((failPort_of_fitted hn hfit).trans (if_pos htaken)))
  case unitLost => exact fun n a s h3 h4 => congrArg _ (resourceFail_unit h3 h4)
  case unitNone => exact fun n a s h => congrArg _ (resourceFail_unit_none (.inr h))
  case rowCounted => exact fun d n a s => rfl
  case dram => exact fun c b a k s hk hboot hgood => congrArg _ (resourceFail_dram hk hboot hgood)
  case sector =>
    rintro n a k sp s _ hn hst hserves rfl hspare
    exact congrArg Host.Outcome.next (resourceFail_sector (d := 0) hn hst hserves hspare)
  case failNone =>
    intro k d n a s h
    refine congrArg Host.Outcome.next ?_
    rcases h with h | h | ⟨hk, h⟩ | ⟨rfl, h⟩ | ⟨rfl, h⟩ | ⟨rfl, h⟩ | ⟨rfl, h⟩
    · exact resourceFail_no_kind (.inl h)
    · exact resourceFail_no_kind (.inr h)
    · exact resourceFail_pooled_none hk h
    · exact resourceFail_port_none h
    · exact resourceFail_unit_none (.inl h)
    · exact resourceFail_dram_none h
    · exact resourceFail_sector_none h
  case spareIn =>
    rintro k d n _ w s hw hfree rfl
    exact congrArg _ (spareIn_waiting hw hfree)
  case spareInNone => exact fun k d n s h => congrArg _ (spareIn_none h)
  case row => exact fun d b m r s hok => execSramRowRepair_fitted hok rfl
  case rowNone => exact fun d b m r s hok => if_pos (by simp [hok])
  case wearSame =>
    rintro h l _ _ s hh hl hne hsth hstl rfl rfl hsame
    exact (execMramWearLevel_swap hh hl hne hsth hstl).trans (congrArg _ (if_pos hsame))
  case wearPlaces =>
    rintro h l _ _ s hh hl hne hsth hstl rfl rfl hdiff
    exact (execMramWearLevel_swap hh hl hne hsth hstl).trans (congrArg _ (if_neg hdiff))
  case wearNone => exact fun h l s hno => execMramWearLevel_none hno
  case rewrite => exact fun n s hn => if_neg (Nat.not_le.mpr hn)
  case rewriteNone => exact fun n s hn => if_pos hn
  case tempSame =>
    intro d q o y s ho hy hok hpower hsame hcool
    exact (execTempSensorRead_no_trip ho hy hok hpower hcool).trans (by
      rw [when_of_false (by simp [hsame]), when_of_false (by simp [hsame])]; rfl)
  case tempHigh =>
    intro d q o y s ho hy hok hpower hlow hhigh hcool
    exact (execTempSensorRead_no_trip ho hy hok hpower hcool).trans (by
      rw [when_of_false (by simp [hlow]), when_of_true (by simp [hlow, hhigh])]; rfl)
  case tempOk =>
    intro d q o y s ho hy hok hpower hhigh hlow hcool
    exact (execTempSensorRead_no_trip ho hy hok hpower hcool).trans (by
      rw [when_of_true (by simp [hlow, hhigh]), when_of_false (by simp [hlow])]; rfl)
  case tempTrip =>
    intro d q o y s ho hy hok hpower hhot htrip
    exact (execTempSensorRead_taken ho hy hok hpower).trans (by rw [when_of_true (by simp [hhot, htrip])]; rfl)
  case tempNone => exact fun d q s h => execTempSensorRead_none h
  case stepHot => exact fun w q o hq hhigh => thermalStep_hot hq hhigh
  case stepCool => exact fun w q o hq hhigh => thermalStep_cool hq hhigh

end Sys2Proof.Machine

/-! PROOFS. Writes of MBn_CTRL, doorbells and response heads act on their control block (R83, R84, O11). -/

namespace Sys2Proof.Machine

open Sys2Proof

variable {mb : Nat} {v : Word32} {s : State}

/-! ### EN, the lowest bit of MBn_CTRL -/

theorem getLsbD_zero_or_one (v : Word32) : (v ||| 1).getLsbD 0 = true := by simp

theorem getLsbD_zero_clear_one (v : Word32) : (v &&& 0xFFFFFFFE).getLsbD 0 = false := by simp

/-! ### The host port down (R62) -/

section
variable (hbar : barOn s = false)
include hbar

theorem mbCtrlWrite_of_bar_off : mbCtrlWrite mb v s = s := if_pos (by simp [hbar])

theorem doorbellWrite_of_bar_off : doorbellWrite mb v s = s := if_pos (by simp [hbar])

theorem rspHeadWrite_of_bar_off : rspHeadWrite mb v s = s := if_pos (by simp [hbar])

end

/-! ### Registers within reach -/

section
variable (hbar : barOn s = true)
include hbar

theorem mbCtrlWrite_enable (hen : v.getLsbD 0 = true) (hcmd : ringBase (mbGet s mb).cmdBase = true)
    (hrsp : ringBase (mbGet s mb).rspBase = true) :
    mbCtrlWrite mb v s = mbUpd mb (fun x => { x with ctrl := v &&& 3, enabled := true }) s := by
  simp [mbCtrlWrite, hbar, hen, hcmd, hrsp]

theorem mbCtrlWrite_no_base (hen : v.getLsbD 0 = true)
    (hbase : ringBase (mbGet s mb).cmdBase = false ∨ ringBase (mbGet s mb).rspBase = false) :
    mbCtrlWrite mb v s = ringError mb (mbUpd mb (fun x => { x with ctrl := v &&& 2 }) s) := by
  have hno : (ringBase (mbGet s mb).cmdBase && ringBase (mbGet s mb).rspBase) = false := Bool.and_eq_false_iff.mpr hbase
  simp [mbCtrlWrite, hbar, hen, hno]

theorem mbCtrlWrite_disable (hen : v.getLsbD 0 = false) :
    mbCtrlWrite mb v s = settle mb (mbUpd mb (fun x => { x with ctrl := v &&& 2 }) s) :=
  (if_neg (by simp [hbar])).trans (if_neg (ne_true_of_eq_false hen))

theorem doorbellWrite_accepted (hen : (mbGet s mb).ctrl.getLsbD 0 = true) (hhead : (v.setWidth 16 - (mbGet s mb).cmdHead).toNat ≤ 64)
    (htail : (v.setWidth 16 - (mbGet s mb).cmdTail).toNat ≤ 64) :
    doorbellWrite mb v s = mbUpd mb (fun x => { x with cmdTail := v.setWidth 16 }) s :=
  (if_neg (by simp [hbar])).trans (if_pos ⟨hen, hhead, htail⟩)

theorem doorbellWrite_refused (hno : (mbGet s mb).ctrl.getLsbD 0 = false ∨ 64 < (v.setWidth 16 - (mbGet s mb).cmdHead).toNat ∨
    64 < (v.setWidth 16 - (mbGet s mb).cmdTail).toNat) : doorbellWrite mb v s = ringError mb s := by
  refine (if_neg (by simp [hbar])).trans (if_neg ?_)
  rintro ⟨hen, hhead, htail⟩
  rcases hno with hoff | hfar | hfar
  · exact Bool.false_ne_true (hoff.symm.trans hen)
  · exact Nat.not_le.mpr hfar hhead
  · exact Nat.not_le.mpr hfar htail

theorem rspHeadWrite_accepted (hin : (v.setWidth 16 - (mbGet s mb).rspHead).toNat ≤ ((mbGet s mb).rspTail - (mbGet s mb).rspHead).toNat) :
    rspHeadWrite mb v s = mbUpd mb (fun x => { x with rspHead := v.setWidth 16 }) s :=
  (if_neg (by simp [hbar])).trans (if_pos hin)

theorem rspHeadWrite_refused (hout : ((mbGet s mb).rspTail - (mbGet s mb).rspHead).toNat < (v.setWidth 16 - (mbGet s mb).rspHead).toNat) :
    rspHeadWrite mb v s = ringError mb s :=
  (if_neg (by simp [hbar])).trans (if_neg (Nat.not_le.mpr hout))

end

/-- Settles O11: each row is a register write, of which the clause names the branch. -/
theorem mailboxControlRowsActOnTheirBlock : Obligations.MailboxControlRowsActOnTheirBlock := by
  refine ⟨?enable, ?noBase, ?disable, ?doorbell, ?doorbellRefused, ?head, ?headRefused, ?unreached⟩
  case enable => exact fun mb v s hbar hcmd hrsp => congrArg _ (mbCtrlWrite_enable hbar (getLsbD_zero_or_one v) hcmd hrsp)
  case noBase => exact fun mb v s hbar hbase => congrArg _ (mbCtrlWrite_no_base hbar (getLsbD_zero_or_one v) hbase)
  case disable => exact fun mb v s hbar => congrArg _ (mbCtrlWrite_disable hbar (getLsbD_zero_clear_one v))
  case doorbell => exact fun mb v s hbar hen hhead htail => congrArg _ (doorbellWrite_accepted hbar hen hhead htail)
  case doorbellRefused => exact fun mb v s hbar hno => congrArg _ (doorbellWrite_refused hbar hno)
  case head => exact fun mb v s hbar hin => congrArg _ (rspHeadWrite_accepted hbar hin)
  case headRefused => exact fun mb v s hbar hout => congrArg _ (rspHeadWrite_refused hbar hout)
  case unreached =>
    exact fun mb v s hbar => ⟨congrArg _ (mbCtrlWrite_of_bar_off hbar), congrArg _ (mbCtrlWrite_of_bar_off hbar),
      congrArg _ (doorbellWrite_of_bar_off hbar), congrArg _ (rspHeadWrite_of_bar_off hbar)⟩

end Sys2Proof.Machine

/-! PROOFS. Resets, supplies, references, the reset button and reset requests act as chapters 2 and 3 say (O10). -/

namespace Sys2Proof.Machine

open Sys2Proof

variable {s : State}

theorem powered_of_ne (h : s.dev.state ≠ .powerDown) : powered s = true := bne_iff_ne.mpr h

theorem powered_of_powerDown (h : s.dev.state = .powerDown) : powered s = false := by simp [powered, h]

/-! ### nPOR and PERSTn (R68, R75) -/

theorem execNporRise_off (hoff : s.dev.state = .powerDown) :
    execNporRise s = .next (bootEntered .powerDown 0x01 { s with
      dev := { s.dev with state := .boot, prev := .powerDown, cause := 1, transTick := 0 }
      power := { s.power with npor := false, strapFirst := none, strapBad := false, strapDone := false } }) :=
  if_neg (by simp [powered_of_powerDown hoff])

theorem execPerstnAssert_powered (hpower : s.dev.state ≠ .powerDown) (hperst : s.power.perst = false) :
    execPerstnAssert s = .next (cdcFlush 0x0D 0 (s.onPower (fun p => { p with perst := true, hostUp := false }))) :=
  if_neg (by simp [powered_of_ne hpower, hperst])

/-! ### Rails (R59) -/

/-- The fault source of the rail is latched, and the rail marked as low. -/
def railLatched (d r : Nat) (s : State) : Bool := s.dev.sources.any (fun x => (fatalSrc d 0x002 0x01 r).same x && x.present)

/-- Whether the rail is low now, as its fault source and the list of low rails hold it. -/
def markRail (d r : Nat) (low : Bool) (s : State) : State :=
  (s.onDev (fun x => { x with
    sources := x.sources.map (fun y => if (fatalSrc d 0x002 0x01 r).same y then { y with present := low } else y) })).onPower (fun p => { p with
      railLow := if low then (d * 16 + r) :: p.railLow.filter (· != d * 16 + r) else p.railLow.filter (· != d * 16 + r) })

/-- A change of a rail that feeds the die is a fatal fault, but for the end of one that is latched (R59). -/
theorem execRailLow_watched {d r : Nat} {low : Bool} (hpower : s.dev.state ≠ .powerDown) (hdie : dieOk s d = true)
    (hrail : (railsOf d).contains r = true) : execRailLow d r low s =
    .next (markRail d r low (if railLatched d r s ∧ !low then s else fatalFault d 0x002 0x01 r s)) := by
  refine if_neg ?_
  rw [powered_of_ne hpower, hdie, hrail]
  decide

/-! ### References and PLLs (R62) -/

theorem execTimerefLost_used (hpower : s.dev.state ≠ .powerDown) (hsel : s.power.straps.trefsel = true) (hon : s.power.timeOnRef = false) :
    execTimerefLost s = .next (raise 0 0x002 0x03 .corrected 0 [] ((refGone 1 s).onPower (fun p => { p with timeOnRef := true }))) :=
  if_neg (by simp [powered_of_ne hpower, hsel, hon])

/-- Without TIMEREF selected, or with its loss met already, the row changes nothing. -/
theorem execTimerefLost_unused (h : s.power.straps.trefsel = false ∨ s.power.timeOnRef = true) : execTimerefLost s = .next s :=
  if_pos (.inr (h.imp_left (by simp [·])))

theorem execPllUnlock_watched {d : Nat} (hpower : s.dev.state ≠ .powerDown) (hd : d = 0 ∨ d = 1 ∨ d = 2 ∨ d = 5)
    (hlocked : s.power.pll.contains d = true) :
    execPllUnlock d s = .next (fatalFault 0 0x002 0x07 d (s.onPower (fun p => { p with pll := p.pll.filter (· != d) }))) := by
  have hfatal : (d == 0 || d == 1 || d == 2 || d == 5) = true := by simpa [or_assoc] using hd
  refine if_neg ?_
  rw [powered_of_ne hpower, hfatal, hlocked]
  decide

/-! ### The reset button (R70 to R72) -/

/-- The press is over; the button is armed, since it was seen released. -/
def btnReleased (s : State) : State := s.onPower (fun p => { p with btnPress := false, btnArmed := true })

theorem execRstbtnReleaseSeen_none {ms : Nat} (hpower : s.dev.state ≠ .powerDown)
    (hno : ms < 20 ∨ 30000 < ms ∨ s.power.btnPress = false ∨ s.power.stuck = true) :
    execRstbtnReleaseSeen ms s = .next (btnReleased s) := by
  have hcond : (!s.power.btnPress) = true ∨ s.power.stuck = true ∨ ms < 20 ∨ 30000 < ms := by
    rcases hno with h | h | h | h <;> simp [h]
  exact (if_neg (by simp [powered_of_ne hpower])).trans (if_pos hcond)

/-- A press of 20 ms to 30 s is a request, cold above 5 s (Table 3.9). -/
theorem execRstbtnReleaseSeen_request {ms : Nat} (hpower : s.dev.state ≠ .powerDown) (hpress : s.power.btnPress = true)
    (hstuck : s.power.stuck = false) (hlow : 20 ≤ ms) (hhigh : ms ≤ 30000) :
    execRstbtnReleaseSeen ms s = .next (requestReset (decide (5000 < ms)) 0 (btnReleased s)).1 := by
  have hcond : ¬ ((!s.power.btnPress) = true ∨ s.power.stuck = true ∨ ms < 20 ∨ 30000 < ms) := by simp [hpress, hstuck, hlow, hhigh]
  exact (if_neg (by simp [powered_of_ne hpower])).trans (if_neg hcond)

theorem execRstbtnStuck_pressed (hpower : s.dev.state ≠ .powerDown) (hpress : s.power.btnPress = true) (hstuck : s.power.stuck = false) :
    execRstbtnStuck s = .next (sysEvent 0x05 [] (s.onPower (fun p => { p with stuck := true }))) :=
  if_neg (by simp [powered_of_ne hpower, hpress, hstuck])

theorem execRstbtnStuckClear_stuck (hpower : s.dev.state ≠ .powerDown) (hstuck : s.power.stuck = true) :
    execRstbtnStuckClear s = .next (sysEvent 0x06 [] (s.onPower (fun p => { p with stuck := false }))) :=
  if_neg (by simp [powered_of_ne hpower, hstuck])

/-! ### Reset requests (R74) -/

theorem execResetRequest_serving {cold : Bool} {source : Nat} (h : Serving s) :
    execResetRequest cold source s = .next (requestReset cold source s).1 :=
  (if_neg (by simp [powered_of_ne h.1])).trans (if_neg h.2)

theorem execResetRequest_boot {cold : Bool} {source : Nat} (h : s.dev.state = .boot) :
    execResetRequest cold source s = .next (sysEvent 0x04 [] s) :=
  (if_neg (by simp [powered, h])).trans (if_pos h)

/-! ### Package links, host-port errors and the tamper loop -/

theorem execPackageLinkDown_fitted {k a b : Nat} (hpower : s.dev.state ≠ .powerDown) (hlink : linkDies[k]? = some (a, b))
    (ha : dieOk s a = true) (hb : dieOk s b = true) : execPackageLinkDown k s = .next (fatalFault 0 0x003 0x01 k s) := by
  simp [execPackageLinkDown, hlink, powered_of_ne hpower, ha, hb]

/-- The battery domain reads the tamper loop: a second open reading in a row sets the tamper flag, and the holdover counter runs on. -/
def tamperRead (level : Bool) (s : State) : State :=
  (s.onPower (fun p => { p with
    tamperOut := false, tamperOpen := !level, tamper := p.tamper || (!level && p.tamperOpen)
    holdCount := if p.holdValid then p.holdCount + 32768 else p.holdCount })).onSafe (fun x => { x with
      closed := if level then min 2 (x.closed + 1) else 0 })

theorem tamperRead_closed : tamperRead true s = (s.onPower (fun p => { p with
    tamperOut := false, tamperOpen := false, tamper := p.tamper
    holdCount := if p.holdValid then p.holdCount + 32768 else p.holdCount })).onSafe (fun x => { x with
      closed := min 2 (x.closed + 1) }) := by
  simp [tamperRead]

theorem execTamperPulse_off {level : Bool} (hoff : s.dev.state = .powerDown) : execTamperPulse level s = .next (tamperRead level s) :=
  congrArg _ (if_neg (by simp [powered_of_powerDown hoff]))

theorem execTamperPulse_powered {level : Bool} (hpower : s.dev.state ≠ .powerDown) :
    execTamperPulse level s = .next (sealUpdate (tamperRead level s)) :=
  congrArg _ (if_pos (powered_of_ne hpower))

/-- Settles O10: for each row, the branch of its meaning that the condition of the clause takes. -/
theorem resetsAndSuppliesAct : Obligations.ResetsAndSuppliesAct := by
  refine ⟨?nporAccept, ?nporRise, ?nporUp, ?perstn, ?perstnRelease, ?railLow, ?railBrief, ?railEnd, ?refclk, ?timeref, ?timerefUnused,
    ?timerefReturn, ?ethRefclk, ?pcieRefclk, ?xtal, ?pll, ?press, ?releaseNone, ?release, ?releaseWaiting, ?stuck, ?stuckClear, ?request,
    ?requestCold, ?requestDiscarded, ?requestBoot, ?execute, ?executeEarly, ?link, ?aer, ?openOff, ?closedOff, ?openPowered, ?closedPowered,
    ?aonLoss, ?off⟩
  case nporAccept =>
    exact fun s => ⟨_, rfl, rfl, rfl, rfl, rfl, rfl, rfl, rfl, rfl, rfl, rfl, rfl, rfl, rfl, rfl, rfl, rfl, rfl, rfl, rfl, rfl, rfl, rfl, rfl⟩
  case nporRise => exact fun s hoff => execNporRise_off hoff
  case nporUp => exact fun s hpower => if_pos (powered_of_ne hpower)
  case perstn => exact fun s hpower hperst => execPerstnAssert_powered hpower hperst
  case perstnRelease => exact fun s => rfl
  case railLow => exact fun s d r hpower hdie hrail => (execRailLow_watched hpower hdie hrail).trans (by rw [if_neg (by simp)]; rfl)
  case railBrief =>
    intro s d r hpower hdie hrail hnew
    have hraised : ¬ (railLatched d r s = true ∧ (!false) = true) := fun h => Bool.false_ne_true (hnew.symm.trans h.1)
    exact (execRailLow_watched hpower hdie hrail).trans (by rw [if_neg hraised]; rfl)
  case railEnd =>
    intro s d r hpower hdie hrail hknown
    have hended : railLatched d r s = true ∧ (!false) = true := ⟨hknown, rfl⟩
    exact (execRailLow_watched hpower hdie hrail).trans (by rw [if_pos hended]; rfl)
  case refclk => exact fun s hpower => if_neg (by simp [powered_of_ne hpower])
  case timeref => exact fun s hpower hsel hon => execTimerefLost_used hpower hsel hon
  case timerefUnused => exact fun s h => execTimerefLost_unused h
  case timerefReturn => exact fun s => rfl
  case ethRefclk => exact fun s hpower => if_neg (by simp [powered_of_ne hpower])
  case pcieRefclk => exact fun s hpower => if_neg (by simp [powered_of_ne hpower])
  case xtal => exact fun s => rfl
  case pll => exact fun s d hpower hd hlocked => execPllUnlock_watched hpower hd hlocked
  case press => exact fun s b hpower => if_neg (by simp [powered_of_ne hpower])
  case releaseNone => exact fun s ms hpower hno => execRstbtnReleaseSeen_none hpower hno
  case release =>
    intro s ms hpower hpress hstuck hreq hlow hhigh
    have hfree : (btnReleased s).power.resetReq = none := hreq
    exact (execRstbtnReleaseSeen_request hpower hpress hstuck hlow hhigh).trans (by rw [requestReset_of_none hfree]; rfl)
  case releaseWaiting =>
    exact fun s ms hpower hpress hstuck _ hlow hhigh => execRstbtnReleaseSeen_request hpower hpress hstuck hlow hhigh
  case stuck => exact fun s hpower hpress hstuck => execRstbtnStuck_pressed hpower hpress hstuck
  case stuckClear => exact fun s hpower hstuck => execRstbtnStuckClear_stuck hpower hstuck
  case request => exact fun s cold source h hreq => (execResetRequest_serving h).trans (by rw [requestReset_of_none hreq])
  case requestCold =>
    exact fun s source r h hreq hwarm => (execResetRequest_serving h).trans (by rw [requestReset_cold_of_warm hreq rfl hwarm])
  case requestDiscarded =>
    exact fun s cold source r h hreq hno => (execResetRequest_serving h).trans (by rw [requestReset_discarded hreq hno])
  case requestBoot => exact fun s cold source h => execResetRequest_boot h
  case execute => exact fun s h => if_pos h
  case executeEarly => exact fun s h => if_neg (by simp [h])
  case link => exact fun s k a b hpower hlink ha hb => execPackageLinkDown_fitted hpower hlink ha hb
  case aer => exact fun s ok w hpower hup => if_pos ⟨powered_of_ne hpower, hup⟩
  case openOff => exact fun s hoff => execTamperPulse_off hoff
  case closedOff => exact fun s hoff => (execTamperPulse_off hoff).trans (by rw [tamperRead_closed])
  case openPowered => exact fun s hpower => execTamperPulse_powered hpower
  case closedPowered => exact fun s hpower => (execTamperPulse_powered hpower).trans (by rw [tamperRead_closed])
  case aonLoss => exact fun s => rfl
  case off =>
    intro s d r b hoff
    have hno : (!powered s) = true := by simp [powered_of_powerDown hoff]
    exact ⟨if_pos (.inl hno), if_pos hno, if_pos (.inl hno), if_pos hno, if_pos hno, if_pos (.inl hno), if_pos hno, if_pos hno,
      if_pos (.inl hno), if_pos (.inl hno), if_pos hno, if_pos (.inl hno), if_pos (.inl hno), if_pos (.inl hno)⟩

end Sys2Proof.Machine

/-! PROOFS. One step runs the front of the queue, and every step keeps the invariant that the reset state meets (O1 to O4). -/

namespace Sys2Proof.Machine

open Sys2Proof

variable {s t : State}

/-! ### The step -/

theorem step_of_empty (hqueue : s.pending = []) : step s = .next s := by
  rw [step, hqueue]

theorem step_of_front {i : Instr} {rest : List Instr} (hqueue : s.pending = i :: rest) : step s = exec i (s.withQueue rest) := by
  rw [step, hqueue]

/-- Settles O1: `step` looks at the queue alone. -/
theorem stepRunsTheFrontCommand : Obligations.StepRunsTheFrontCommand :=
  ⟨fun _ _ _ hqueue => step_of_front hqueue, fun _ hqueue => step_of_empty hqueue⟩

/-! ### The invariant -/

/-- The invariant says nothing of the queue. -/
theorem Inv.withQueue (h : Inv s) (q : List Instr) : Inv (s.withQueue q) := ⟨h.memory, h.tickLen, h.logFits⟩

/-- What a footprint says of memory, tick and log carries the invariant over. -/
theorem Keeps.inv {L : List Part} (hkeeps : Keeps L s t) (h : Inv s) : Inv t :=
  ⟨hkeeps.memory h.memory, hkeeps.tickLen h.tickLen, hkeeps.logFits h.logFits⟩

/-- Settles O4: an idle step changes nothing, and the command in front keeps to a footprint. -/
theorem everyStepKeepsTheInvariant : Obligations.EveryStepKeepsTheInvariant := by
  intro s t h hstep
  cases hqueue : s.pending with
  | nil =>
    rw [step_of_empty hqueue] at hstep
    cases hstep
    exact h
  | cons i rest =>
    rw [step_of_front hqueue] at hstep
    exact ((exec_answers i _).of_eq hstep).inv (h.withQueue rest)

/-- Settles O3: memory is empty, T is 2 µs with no change waiting, and the log holds the one entry of the change to BOOT. -/
theorem resetMeetsTheInvariant : Obligations.ResetMeetsTheInvariant where
  memory := List.Pairwise.nil
  tickLen := ⟨.inr (.inl rfl), nofun⟩
  logFits := (by decide : 1 ≤ 1024)

/-! ### The registers after reset -/

/-- Where the control block of a mailbox lies in BAR0 (Table 4.4). -/
theorem regRead_mailbox {n off : Nat} (hn : n < 8) (hoff : off < 64) (haligned : off % 4 = 0) :
    regRead s (0x1000 + 64 * n + off) = mbReg s n off := by
  have hblock : (0x1000 + 64 * n + off - 0x1000) / 64 = n := by omega
  have hplace : (0x1000 + 64 * n + off) % 64 = off := by omega
  rw [regRead, if_neg (by omega), if_neg (by omega), if_pos (by omega), hblock, hplace]

theorem mbReg_reset (n off : Nat) : mbReg State.reset n off = 0 := by
  have hblock : mbGet State.reset n = {} := rfl
  have hpend : pendCount State.reset n = 0 := rfl
  simp only [mbReg, hblock, hpend]
  split <;> decide

theorem evqReg_reset {off : Nat} (hoff : off < 0x3000) : evqReg State.reset off = 0 := by
  unfold evqReg
  rw [if_neg (Nat.not_le.mpr hoff)]
  split <;> rfl

theorem regRead_reset_evq {off : Nat} (hlow : 0x2000 ≤ off) (hhigh : off < 0x3000) : regRead State.reset off = 0 := by
  by_cases haligned : off % 4 = 0
  · rw [regRead, if_neg (by simp [haligned]), if_neg (by omega), if_neg (by omega), if_pos (by omega), evqReg_reset hhigh]
  · rw [regRead, if_pos haligned]

/-- Settles O2: the fields by the reset values of the state's parts, the registers block by block. -/
theorem resetLeavesTheDeviceInBoot : Obligations.ResetLeavesTheDeviceInBoot := by
  refine ⟨⟨rfl, rfl, rfl, rfl, rfl, rfl, rfl, rfl, rfl, rfl⟩, ?mailboxes, ?events⟩
  case mailboxes =>
    intro n hn
    refine List.all_eq_true.mpr fun i hi => ?_
    have hoff : 4 * i < 64 := by
      have := List.mem_range.mp hi
      omega
    rw [regRead_mailbox hn hoff (Nat.mul_mod_right 4 i), mbReg_reset, beq_self_eq_true]
  case events => exact fun off hlow hhigh => regRead_reset_evq hlow (by omega)

end Sys2Proof.Machine

/-! PROOFS. The response ring: a response is written or held, and writes no byte but its own (R85, R88, R90; O55, O56). -/

namespace Sys2Proof.Machine

open Sys2Proof

variable {s t : State} {r : Response} {n : Nat}

/-! ### Control blocks -/

@[simp] theorem mbGet_mbUpd_same (n : Nat) (f : MbBlock → MbBlock) (s : State) : mbGet (mbUpd n f s) n = f (mbGet s n) :=
  tget_tset_same ..

theorem mbGet_of_blocks (h : t.mb.blocks = s.mb.blocks) : mbGet t n = mbGet s n := by
  rw [mbGet, mbGet, h]

/-! ### Host memory -/

theorem memRead_putBuf_inside {a i : Nat} {p : Bytes} (hi : i < p.length) (hp : p.length ≤ 2 ^ 64) :
    memRead (putBuf a p s).host ((a + i) % 2 ^ 64) = some (p.getD i 0) :=
  (memRead_memWrites_inside p s.host a i hi hp).trans (by rw [List.getD_eq_getElem?_getD, List.getElem?_eq_getElem hi, Option.getD_some])

theorem memRead_putBuf_outside {a x : Nat} {p : Bytes} (hx : ∀ i, i < p.length → x ≠ (a + i) % 2 ^ 64) :
    memRead (putBuf a p s).host x = memRead s.host x :=
  memRead_memWrites_outside p s.host a x hx

/-! ### A response written -/

theorem writeRsp_host : (writeRsp r s).host = (putBuf (rspAddr (mbGet s r.mb)) (r.bytes s.dev.state s.dev.role) s).host := by
  unfold writeRsp
  simp only []
  split <;> simp

theorem mbGet_writeRsp : mbGet (writeRsp r s) r.mb = { mbGet s r.mb with rspTail := (mbGet s r.mb).rspTail + 1 } := by
  unfold writeRsp
  simp only []
  split <;> exact tget_tset_same ..

theorem memRead_writeRsp_inside {i : Nat} (hi : i < 64) :
    memRead (writeRsp r s).host ((rspAddr (mbGet s r.mb) + i) % 2 ^ 64) = some ((r.bytes s.dev.state s.dev.role).getD i 0) := by
  have hlen := Response.bytes_length r s.dev.state s.dev.role
  rw [writeRsp_host, memRead_putBuf_inside (by omega) (by omega)]

theorem memRead_writeRsp_outside {x : Nat} (hx : ∀ i, i < 64 → x ≠ (rspAddr (mbGet s r.mb) + i) % 2 ^ 64) :
    memRead (writeRsp r s).host x = memRead s.host x := by
  have hlen := Response.bytes_length r s.dev.state s.dev.role
  rw [writeRsp_host, memRead_putBuf_outside fun i hi => hx i (hlen ▸ hi)]

/-! ### A response given -/

theorem ringRoom_iff {b : MbBlock} : ringRoom b = true ↔ (b.rspTail - b.rspHead).toNat < 64 := decide_eq_true_iff

/-- A response that may be held joins those held. -/
def holdRsp (r : Response) (s : State) : State := mbUpd r.mb (fun x => { x with held := x.held ++ [r] }) s

theorem respond_of_free (h : RingFree s r.mb) : respond r s = writeRsp r s := by
  obtain ⟨hroom, hheld, hbar⟩ := h
  exact if_pos (by simp [hroom, hheld, hbar])

theorem respond_of_not_free (h : ¬RingFree s r.mb) : respond r s = holdRsp r s := by
  refine if_neg fun hfree => h ?_
  simpa [RingFree, and_assoc] using hfree

theorem not_ringFree (h : 64 ≤ ((mbGet s n).rspTail - (mbGet s n).rspHead).toNat ∨ (mbGet s n).held ≠ [] ∨ barOn s = false) :
    ¬RingFree s n := by
  rintro ⟨hroom, hheld, hbar⟩
  rcases h with hfull | hholds | hdown
  · exact Nat.not_le.mpr (ringRoom_iff.mp hroom) hfull
  · exact hholds hheld
  · exact Bool.false_ne_true (hdown.symm.trans hbar)

theorem mbGet_holdRsp : mbGet (holdRsp r s) r.mb = { mbGet s r.mb with held := (mbGet s r.mb).held ++ [r] } := mbGet_mbUpd_same ..

/-- RSP_HELD is bit 3 of MBn_STATUS (Table 4.6). -/
theorem mbReg_status_testBit_held : (mbReg s n 0x28).testBit 3 = !(mbGet s n).held.isEmpty := by
  have hstatus : mbReg s n 0x28 = pendCount s n * 256 + b2n (!(mbGet s n).held.isEmpty) * 8 + b2n (mbGet s n).ringErr * 4 +
    b2n (mbGet s n).seqErr * 2 + b2n (mbGet s n).enabled := rfl
  have hbit (b : Bool) : b2n b ≤ 1 := by cases b <;> decide
  have hplace : mbReg s n 0x28 / 2 ^ 3 % 2 = b2n (!(mbGet s n).held.isEmpty) := by
    have hheld := hbit (!(mbGet s n).held.isEmpty)
    have hring := hbit (mbGet s n).ringErr
    have hseq := hbit (mbGet s n).seqErr
    have hon := hbit (mbGet s n).enabled
    omega
  rw [Nat.testBit_eq_decide_div_mod_eq, hplace]
  cases (mbGet s n).held.isEmpty <;> rfl

/-! ### Fetching while a response is held -/

theorem fetchable_of_held (hheld : (mbGet s n).held ≠ []) : fetchable s n = false := by
  simp [fetchable, hheld]

theorem fetchable_of_nextMailbox (hnext : nextMailbox s = some n) : fetchable s n = true := by
  unfold nextMailbox at hnext
  split at hnext
  · cases hnext
    assumption
  · exact List.find?_some hnext

/-! ### HELD_RESPONSE_WRITE -/

/-- The oldest response held leaves those held. -/
def heldTaken (n : Nat) (rest : List Response) (s : State) : State := mbUpd n (fun x => { x with held := rest }) s

/-- The oldest response held, `r`, is written, and the segments its command read are freed (R389). -/
def heldWritten (n : Nat) (r : Response) (rest : List Response) (s : State) : State :=
  settle n (segsFree r.mb r.tag r.seq (writeRsp r (heldTaken n rest s)))

theorem execHeldResponseWrite_room {mb : Fin 8} {rest : List Response} (hbar : barOn s = true) (hheld : (mbGet s mb.val).held = r :: rest)
    (hroom : ringRoom (mbGet s mb.val) = true) : execHeldResponseWrite mb s = .next (heldWritten mb.val r rest s) := by
  simp [execHeldResponseWrite, heldWritten, heldTaken, hheld, hroom, hbar]

theorem execHeldResponseWrite_idle {mb : Fin 8} (h : (mbGet s mb.val).held = [] ∨ ringRoom (mbGet s mb.val) = false ∨ barOn s = false) :
    execHeldResponseWrite mb s = .next s := by
  simp only [execHeldResponseWrite]
  split
  · rfl
  · next hheld =>
    refine if_pos ?_
    rcases h with hnone | hfull | hdown
    · exact absurd (hnone.symm.trans hheld) (by simp)
    · exact .inl (by simp [hfull])
    · exact .inr (by simp [hdown])

/-- Only ENABLED can fall as a mailbox settles. -/
theorem mbGet_settle : ∃ b, mbGet (settle n s) n = { mbGet s n with enabled := b } := by
  unfold settle
  simp only []
  split
  · exact ⟨false, mbGet_mbUpd_same ..⟩
  · exact ⟨(mbGet s n).enabled, rfl⟩

theorem mbGet_segsFree (mb tag seq : Nat) : mbGet (segsFree mb tag seq s) n = mbGet s n :=
  mbGet_of_blocks (congrArg _ ((segsFree_keeps mb tag seq s).mb (by decide)))

theorem mbGet_heldTaken {rest : List Response} : mbGet (heldTaken n rest s) n = { mbGet s n with held := rest } := mbGet_mbUpd_same ..

theorem mbGet_heldWritten {rest : List Response} (hown : r.mb = n) : ∃ b, mbGet (heldWritten n r rest s) n =
    { mbGet s n with held := rest, rspTail := (mbGet s n).rspTail + 1, enabled := b } := by
  obtain ⟨b, hb⟩ := mbGet_settle (n := n) (s := segsFree r.mb r.tag r.seq (writeRsp r (heldTaken n rest s)))
  have hwritten : mbGet (writeRsp r (heldTaken n rest s)) n =
      { mbGet (heldTaken n rest s) n with rspTail := (mbGet (heldTaken n rest s) n).rspTail + 1 } := hown ▸ mbGet_writeRsp
  rw [mbGet_segsFree, hwritten, mbGet_heldTaken] at hb
  exact ⟨b, hb⟩

theorem heldWritten_host {rest : List Response} : (heldWritten n r rest s).host = (writeRsp r (heldTaken n rest s)).host :=
  (settle_host ..).trans ((segsFree_keeps ..).host (by decide))

theorem memRead_heldWritten_inside {rest : List Response} {i : Nat} (hown : r.mb = n) (hi : i < 64) :
    memRead (heldWritten n r rest s).host ((rspAddr (mbGet s n) + i) % 2 ^ 64) = some ((r.bytes s.dev.state s.dev.role).getD i 0) := by
  have haddr : rspAddr (mbGet s n) = rspAddr (mbGet (heldTaken n rest s) r.mb) := by
    rw [hown, mbGet_heldTaken]
    rfl
  rw [heldWritten_host, haddr]
  exact memRead_writeRsp_inside hi

/-- Settles O55: a response takes one of two ways, and only the way by the ring writes memory. -/
theorem responsesAreWrittenOrHeldNeverDropped : Obligations.ResponsesAreWrittenOrHeldNeverDropped := by
  refine ⟨?room, ?held, ?fetch, ?oldest, ?idle, ?never⟩
  case room =>
    intro r s hroom hheld hbar
    rw [respond_of_free ⟨ringRoom_iff.mpr hroom, hheld, hbar⟩]
    exact ⟨mbGet_writeRsp, fun i hi => memRead_writeRsp_inside hi⟩
  case held =>
    intro r s hno hmb
    have hheld : (mbGet (holdRsp r s) r.mb).held ≠ [] := by simp [mbGet_holdRsp]
    rw [respond_of_not_free (not_ringFree hno)]
    refine ⟨rfl, mbGet_holdRsp, ?_, fetchable_of_held hheld⟩
    rw [regRead_mailbox hmb (by decide) (by decide), mbReg_status_testBit_held]
    simp [hheld]
  case fetch =>
    intro n s hheld
    have hclosed := fetchable_of_held hheld
    exact ⟨hclosed, fun hnext => Bool.false_ne_true (hclosed.symm.trans (fetchable_of_nextMailbox hnext))⟩
  case oldest =>
    intro mb r rest s hbar hheld hown hroom
    obtain ⟨b, hb⟩ := mbGet_heldWritten (s := s) (rest := rest) hown
    exact ⟨_, execHeldResponseWrite_room hbar hheld hroom, congrArg MbBlock.held hb, congrArg MbBlock.rspTail hb,
      fun i hi => memRead_heldWritten_inside hown hi⟩
  case idle =>
    intro mb s h
    refine execHeldResponseWrite_idle ?_
    rcases h with hfull | hdown | hnone
    · exact .inr (.inl hfull)
    · exact .inr (.inr hdown)
    · exact .inl hnone
  case never =>
    intro r s
    by_cases hfree : RingFree s r.mb
    · rw [respond_of_free hfree, mbGet_writeRsp]
      exact .inl ⟨rfl, rfl⟩
    · rw [respond_of_not_free hfree, mbGet_holdRsp]
      exact .inr ⟨rfl, rfl⟩

theorem memRead_respond_outside {x : Nat} (hx : ∀ i, i < 64 → x ≠ (rspAddr (mbGet s r.mb) + i) % 2 ^ 64) :
    memRead (respond r s).host x = memRead s.host x := by
  by_cases hfree : RingFree s r.mb
  · rw [respond_of_free hfree, memRead_writeRsp_outside hx]
  · rw [respond_of_not_free hfree, holdRsp, mbUpd_host]

/-- Settles O56: a buffer is one write of its bytes, and an answer writes what its response writes. -/
theorem buffersAndAnswersWriteOnlyTheirBytes : Obligations.BuffersAndAnswersWriteOnlyTheirBytes := by
  refine ⟨?outside, ?inside, ?answer⟩
  case outside => exact fun a p s x hx => memRead_putBuf_outside hx
  case inside => exact fun a i p s hi hp => memRead_putBuf_inside hi hp
  case answer =>
    intro o c st r s x hx
    rw [answer_host]
    exact memRead_respond_outside hx

end Sys2Proof.Machine

/-! PROOFS. A command that is not legal in its state is answered WRONG_STATE with the mask of its legal states (R107, O59). -/

namespace Sys2Proof.Machine

open Sys2Proof

variable {g : Gate} {c : Cmd} {s : State} {act : State → Reply}

/-! ### The mask of legal states -/

theorem testBit_foldl_or {l : List Nat} {m n : Nat} :
    (l.foldl (fun m i => m ||| (1 <<< i)) m).testBit n = true ↔ m.testBit n = true ∨ n ∈ l := by
  induction l generalizing m with
  | nil => simp
  | cons i l ih =>
    rw [List.foldl_cons, ih, Nat.testBit_or, Bool.or_eq_true, Nat.one_shiftLeft, Nat.testBit_two_pow, decide_eq_true_iff, List.mem_cons,
      or_assoc, eq_comm (a := i)]

/-- A mask has the bits of its list. -/
theorem testBit_maskOf {l : List Nat} {n : Nat} : (maskOf l).testBit n = true ↔ n ∈ l := by
  simp [maskOf, testBit_foldl_or]

theorem DevState.mem_all (st : DevState) : st ∈ DevState.all := by
  cases st <;> decide

theorem DevState.code_lt (st : DevState) : st.code < 9 := by
  cases st <;> decide

theorem Gate.testBit_mask {n : Nat} : g.mask.testBit n = true ↔ ∃ st : DevState, st.code = n ∧ g.legalIn st = true := by
  simp only [Gate.mask, testBit_maskOf, List.mem_map, List.mem_filter]
  exact ⟨fun ⟨st, ⟨_, hlegal⟩, hcode⟩ => ⟨st, hcode, hlegal⟩, fun ⟨st, hcode, hlegal⟩ => ⟨st, ⟨st.mem_all, hlegal⟩, hcode⟩⟩

theorem Gate.mask_lt : g.mask < 512 := by
  refine Nat.lt_pow_two_of_testBit (n := 9) g.mask fun n hn => Bool.eq_false_iff.mpr fun hbit => ?_
  obtain ⟨st, rfl, -⟩ := Gate.testBit_mask.mp hbit
  exact Nat.not_le.mpr st.code_lt hn

/-- Not legal in the state, from a list of states that holds it. -/
theorem not_legal_of_mem {st : DevState} {l : List DevState} (hmem : st ∈ l) (hnone : (l.all fun x => !g.legalIn x) = true) :
    g.legalIn st = false := by
  simpa using List.all_eq_true.mp hnone st hmem

/-! ### The answer -/

/-- The command is not legal in the state: check 5. -/
theorem Gate.fail_of_not_legal (hmailbox : (if c.mb = 0 then g.mb0 else g.mb17) = true) (htest : (g.test && !s.power.straps.ftest) = false)
    (hlen : g.len = true) (hfitted : g.fitted = true) (hlegal : g.legalIn s.dev.state = false) : g.fail c s = some .wrongState := by
  simp [Gate.fail, Gate.mailbox_open hmailbox, htest, hlen, hfitted, hlegal]

theorem runCmd_of_wrong_state (hserving : Serving s) (hfail : g.fail c s = some .wrongState) :
    runCmd g c s act = .next (answer g.opcode c .wrongState (le 2 g.mask) s) := by
  simp [runCmd, booting, hserving.1, hserving.2, hfail]

theorem respond_logSeq (r : Response) (s : State) : (respond r s).mb.logSeq = s.mb.logSeq := by
  unfold respond writeRsp
  simp only []
  split
  · split <;> rfl
  · rfl

/-- The log gets an entry for an answer other than OK and PENDING (R100). -/
theorem answer_log {opcode : Nat} {st : Status} {r : Bytes} (hst : (st == .ok || st == .pending) = false) :
    (answer opcode c st r s).mb.log = ({
      seq := s.mb.logSeq, tick := s.tick.index, opcode := opcode, b10 := st.code % 256, b11 := st.code / 256, mb := c.mb,
      state := s.dev.state.code, role := s.dev.role.code } :: s.mb.log).take 1024 := by
  simp only [answer, hst, settle_log, Bool.false_eq_true, if_false]
  simp only [release, logAdd, State.onMb_mb, respond_log, respond_logSeq, respond_tick, respond_dev]

/-- The STATE byte of a response (Table 4.8). -/
theorem Response.bytes_state (r : Response) (d : DevState) (ro : Role) : (r.bytes d ro).getD 12 0 = BitVec.ofNat 8 d.code := by
  rfl

theorem execRecConfig_wrong_state (hstate : s.dev.state ∈ [.standby, .deblocked, .safeStop, .blockedFault, .replay]) (hmb : c.mb ≠ 0)
    (hinline : Inline c 32) : execRecConfig c s = .next (answer 0x1101 c .wrongState (le 2 0x104) s) := by
  unfold execRecConfig
  exact runCmd_of_wrong_state (serving_of_mem hstate (by decide) (by decide))
    (Gate.fail_of_not_legal (mailbox_of_ne_zero hmb rfl) rfl (inl_of_inline hinline) rfl (not_legal_of_mem hstate rfl))

theorem execSysBlockClear_wrong_state (hstate : s.dev.state ∈ [.config, .standby, .deblocked, .safeStop, .replay, .factoryTest])
    (hmb : c.mb ≠ 0) (hinline : Inline c 0) : execSysBlockClear c s = .next (answer 0x0104 c .wrongState (le 2 0x040) s) := by
  unfold execSysBlockClear
  exact runCmd_of_wrong_state (serving_of_mem hstate (by decide) (by decide))
    (Gate.fail_of_not_legal (mailbox_of_ne_zero hmb rfl) rfl (inl_of_inline hinline) rfl (not_legal_of_mem hstate rfl))

/-- Settles O59: the check of the state answers for every command, and its mask has the bits of the states that pass it. -/
theorem wrongStateAnswersNameTheLegalStates : Obligations.WrongStateAnswersNameTheLegalStates := by
  refine ⟨?gate, ?bits, ?mask, ?stateByte, ?log, ?recConfig, ?blockClear⟩
  case gate =>
    intro g c s act hserving hmailbox htest hlen hfitted hlegal
    exact ⟨runCmd_of_wrong_state hserving (Gate.fail_of_not_legal hmailbox htest hlen hfitted hlegal), answer_keeps ..⟩
  case bits => exact fun g n => Gate.testBit_mask
  case mask => exact fun g => Gate.mask_lt
  case stateByte => exact fun o c st k r d ro => Response.bytes_state ..
  case log => exact fun o c r s => answer_log rfl
  case recConfig => exact fun c s hstate hmb hinline => execRecConfig_wrong_state hstate hmb hinline
  case blockClear => exact fun c s hstate hmb hinline => execSysBlockClear_wrong_state hstate hmb hinline

end Sys2Proof.Machine

/-! PROOFS. SYS_CAPS, SYS_STATE_GET, SYS_LOG_READ, SYS_NOP and TICK_STATUS answer OK with their result (R101, R110, R129, O6). -/

namespace Sys2Proof.Machine

open Sys2Proof

variable {c : Cmd} {s : State}

/-- The checks of a command that only reads: served in every state but BOOT, in every role, on MB1 to MB7 and, where `mb0` says so, MB0. -/
theorem readGate_passes {opcode : Nat} {mb0 len fitted par : Bool} (hserving : Serving s) (hmb : mb0 = true ∨ c.mb ≠ 0) (hlen : len = true)
    (hfitted : fitted = true) (hpar : par = true) (hentry : c.entryReserved = true) :
    Gate.Passes { opcode := opcode, mb0 := mb0, len := len, fitted := fitted, legal := notBoot, par := par } c s where
  serving := hserving
  mailbox := hmb.elim (fun h => h ▸ ite_self _) (fun h => mailbox_of_ne_zero h rfl)
  test := rfl
  len := hlen
  fitted := hfitted
  legal := legal_serving hserving.1 hserving.2 rfl
  roles := rfl
  permit := rfl
  par := hpar
  entry := hentry

theorem readGate_passes_inline {opcode n : Nat} {mb0 fitted par : Bool} (hserving : Serving s) (hmb : mb0 = true ∨ c.mb ≠ 0)
    (hinline : Inline c n) (hfitted : fitted = true) (hpar : par = true) :
    Gate.Passes { opcode := opcode, mb0 := mb0, len := c.inl n, fitted := fitted, legal := notBoot, par := par } c s :=
  readGate_passes hserving hmb (inl_of_inline hinline) hfitted hpar (entryReserved_of_inline hinline)

/-- What SYS_CAPS answers beside the descriptor (Table 4.14). -/
def capsResult (s : State) : Bytes :=
  le 1 s.dev.variant.code ++ le 1 s.power.straps.unitid.toNat ++ le 4 (dieMask s) ++ le 4 (failedMask s) ++ le 4 s.dev.capsDigest.toNat

/-- A buffer address of zero goes with a length of zero, any other with room for the descriptor. -/
theorem execSysCaps_ok (hserving : Serving s) (hinline : Inline c 12) (haligned : c.u64 0 % 64 = 0)
    (hroom : (c.u64 0 = 0 ∧ c.u32 8 = 0) ∨ (c.u64 0 ≠ 0 ∧ 256 ≤ c.u32 8)) :
    execSysCaps c s = .next (answer 0x0101 c .ok (capsResult s) (when (c.u32 8 != 0) (putBuf (c.u64 0) (caps s)) s)) := by
  have hpar : (c.u64 0 % 64 == 0 && (c.u64 0 == 0) == (c.u32 8 == 0) && (c.u32 8 == 0 || decide (256 ≤ c.u32 8))) = true := by
    rcases hroom with ⟨haddr, hlen⟩ | ⟨haddr, hlen⟩
    · rw [haddr, hlen]
      decide
    · have hbuf : (c.u64 0 == 0) = false := beq_false_of_ne haddr
      have hsome : (c.u32 8 == 0) = false := beq_false_of_ne (by omega)
      rw [haligned, hbuf, hsome, decide_eq_true hlen]
      decide
  unfold execSysCaps
  exact (readGate_passes_inline hserving (.inl rfl) hinline rfl hpar).answers rfl rfl rfl

theorem execSysStateGet_ok (hserving : Serving s) (hinline : Inline c 0) : execSysStateGet c s = .next (answer 0x0102 c .ok
    (le 1 s.dev.state.code ++ le 1 s.dev.role.code ++ le 1 s.dev.prev.code ++ le 1 s.dev.cause ++ le 4 s.dev.transTick) s) := by
  unfold execSysStateGet
  exact (readGate_passes_inline hserving (.inl rfl) hinline rfl rfl).answers rfl rfl rfl

/-- The entries of the command log that SYS_LOG_READ returns, the oldest first. -/
def logRead (c : Cmd) (s : State) : List LogEntry := ((s.mb.log.reverse).filter (fun e => c.u32 8 ≤ e.seq)).take (c.u32 12)

/-- What TICK_STATUS answers where it returns `n` snapshots (Table 5.6). -/
def tickResult (n : Nat) (s : State) : Bytes :=
  le 8 s.tick.index ++ le 1 s.tick.len ++ le 3 0 ++ le 4 s.tick.staged.toNat ++
    le 4 (s.tick.commits.foldl (fun m k => m ||| k.mask) 0#9).toNat ++
    le 8 (s.tick.commits.foldl (fun m k => if m = 0 then k.boundary else min m k.boundary) 0) ++ le 4 s.tick.overruns ++ le 4 s.tick.clampAll ++
    le 4 n

/-- The snapshots that TICK_STATUS returns: none without a buffer. -/
def tickRead (c : Cmd) (s : State) : List Snapshot := if c.u64 0 = 0 then [] else s.tick.ring.take (c.u32 8)

section
variable (hserving : Serving s) (hmb : c.mb ≠ 0)
include hserving hmb

theorem execSysLogRead_ok (hinline : Inline c 16) (haligned : c.u64 0 % 64 = 0) (haddr : c.u64 0 ≠ 0) (hlow : 1 ≤ c.u32 12)
    (hhigh : c.u32 12 ≤ 1024) : execSysLogRead c s = .next (answer 0x0106 c .ok
      (le 4 ((s.mb.log.getLast?.map (·.seq)).getD 0) ++ le 4 ((s.mb.log.head?.map (·.seq)).getD 0) ++ le 4 (logRead c s).length)
      (putBuf (c.u64 0) ((logRead c s).flatMap LogEntry.bytes) s)) := by
  unfold execSysLogRead
  exact (readGate_passes_inline hserving (.inr hmb) hinline rfl (by simp [Cmd.buf, haligned, haddr, hlow, hhigh])).answers rfl rfl rfl

/-- SYS_NOP echoes its parameters. -/
theorem execSysNop_ok (hflags : c.flags = 0) (hrsvd : c.rsvd = 0) (hlen : c.length ≤ 44) :
    execSysNop c s = .next (answer 0x0107 c .ok (c.param.take c.length) s) := by
  unfold execSysNop
  exact (readGate_passes hserving (.inr hmb) (by simp [isExt0 hflags, hlen]) rfl rfl (res0 hflags hrsvd)).answers rfl rfl
    (by rw [Cmd.params, isExt0 hflags]; rfl)

theorem execTickStatus_ok (hinline : Inline c 12) (haligned : c.u64 0 % 64 = 0) (hcount : c.u32 8 ≤ 256) : execTickStatus c s =
    .next (answer 0x0203 c .ok (tickResult (tickRead c s).length s) (putBuf (c.u64 0) ((tickRead c s).flatMap Snapshot.bytes) s)) := by
  unfold execTickStatus
  exact (readGate_passes_inline hserving (.inr hmb) hinline rfl (by simp [haligned, hcount])).answers rfl rfl rfl

end

/-- Settles O6: each command's gate passes, and its action is the answer with the result. -/
theorem sysReadCommandsAnswerOk : Obligations.SysReadCommandsAnswerOk := by
  refine ⟨?caps, ?capsBuffer, ?stateGet, ?logRead, ?nop, ?tick, ?tickBuffer⟩
  case caps =>
    intro c s hserving hinline haddr hlen
    exact (execSysCaps_ok hserving hinline (by rw [haddr]) (.inl ⟨haddr, hlen⟩)).trans (by rw [when_of_false (by simp [hlen])]; rfl)
  case capsBuffer =>
    intro c s hserving hinline haligned haddr hlen
    have hsome : c.u32 8 ≠ 0 := by omega
    exact (execSysCaps_ok hserving hinline haligned (.inr ⟨haddr, hlen⟩)).trans (by rw [when_of_true (by simp [hsome])]; rfl)
  case stateGet => exact fun c s hserving hinline => execSysStateGet_ok hserving hinline
  case logRead =>
    exact fun c s hserving hinline hmb haligned haddr hlow hhigh => execSysLogRead_ok hserving hmb hinline haligned haddr hlow hhigh
  case nop => exact fun c s hserving hflags hrsvd hlen hmb => execSysNop_ok hserving hmb hflags hrsvd hlen
  case tick =>
    intro c s hserving hinline hmb haddr hcount
    exact (execTickStatus_ok hserving hmb hinline (by rw [haddr]) hcount).trans (by rw [tickRead, if_pos haddr]; rfl)
  case tickBuffer =>
    intro c s hserving hinline hmb haligned haddr hcount
    exact (execTickStatus_ok hserving hmb hinline haligned hcount).trans (by rw [tickRead, if_neg haddr]; rfl)

end Sys2Proof.Machine

/-! PROOFS. COMMAND_FETCH, HELD_RESPONSE_WRITE and FINAL_RESPONSE move entries and responses on (R84 to R86, R92 to R95, O12). -/

namespace Sys2Proof.Machine

open Sys2Proof

variable {s : State} {n : Nat} {e b : Bytes}

/-! ### COMMAND_FETCH -/

/-- The mailbox in turn gives its next entry: its head moves on by one. -/
def entryTaken (n : Nat) (s : State) : State :=
  mbUpd n (fun x => { x with cmdHead := x.cmdHead + 1 }) (s.onMb (fun m => { m with served := if n = 0 then m.served else n }))

/-- An entry is fetched: the host is in reach, no command is in hand, and mailbox `n` is in turn. -/
structure FetchDue (s : State) (n : Nat) : Prop where
  bar : barOn s = true
  hand : s.mb.inHand = none
  next : nextMailbox s = some n

section
variable (h : FetchDue s n)
include h

theorem FetchDue.exec_boot (hboot : s.dev.state = .boot) : execCommandFetch e b s = .next (answerEntry n e .busy (entryTaken n s)) := by
  simp [execCommandFetch, entryTaken, booting, h.bar, h.hand, h.next, hboot]

theorem FetchDue.exec_bad_seq (hserves : s.dev.state ≠ .boot) (hseq : entrySeq e (mbGet s n).cmdHead = false) :
    execCommandFetch e b s = .next (answerEntry n e .crcFail (mbUpd n (fun x => { x with seqErr := true }) (entryTaken n s))) := by
  simp [execCommandFetch, entryTaken, booting, h.bar, h.hand, h.next, hserves, hseq]

theorem FetchDue.exec_bad_crc (hserves : s.dev.state ≠ .boot) (hseq : entrySeq e (mbGet s n).cmdHead = true)
    (hcrc : entryCrc e = false ∨ blockGood e b = false) : execCommandFetch e b s = .next (answerEntry n e .crcFail (entryTaken n s)) := by
  rcases hcrc with hbad | hbad <;> simp [execCommandFetch, entryTaken, booting, h.bar, h.hand, h.next, hserves, hseq, hbad]

end

/-- The entry passes check 1 of Table 4.9. -/
structure EntryGood (e b : Bytes) (head : Word16) : Prop where
  crc : entryCrc e = true
  seq : entrySeq e head = true
  block : blockGood e b = true

section
variable (h : FetchDue s n) (hserves : s.dev.state ≠ .boot) (hgood : EntryGood e b (mbGet s n).cmdHead)
include h hserves hgood

theorem FetchDue.exec_bad_opcode (hop : opcodeKnown (rd e 0 2) = false) :
    execCommandFetch e b s = .next (answerEntry n e .badOpcode (entryTaken n s)) := by
  simp [execCommandFetch, entryTaken, booting, h.bar, h.hand, h.next, hserves, hgood.crc, hgood.seq, hgood.block, hop]

theorem FetchDue.exec_in_hand (hop : opcodeKnown (rd e 0 2) = true) : execCommandFetch e b s =
    .next ((entryTaken n s).onMb (fun m => { m with inHand := some ⟨n, rd e 0 2, rd e 2 2, rd e 7 1, s.tick.index⟩ })) := by
  simp [execCommandFetch, entryTaken, booting, h.bar, h.hand, h.next, hserves, hgood.crc, hgood.seq, hgood.block, hop]

end

theorem execCommandFetch_idle (h : barOn s = false ∨ s.mb.inHand ≠ none ∨ nextMailbox s = none) : execCommandFetch e b s = .next s := by
  rcases h with hdown | hhand | hnone
  · exact if_pos (.inl (by simp [hdown]))
  · exact if_pos (.inr (Option.isSome_iff_ne_none.mpr hhand))
  · simp [execCommandFetch, hnone]

/-! ### FINAL_RESPONSE -/

/-- The command due leaves those that are PENDING, and its final response is given. -/
def finalGiven (p : PendingCmd) (st : Status) (r : Bytes) (k : Nat) (s : State) : State :=
  respond ⟨p.mb, p.opcode, p.tag, p.seq, st, true, k, r.take 44⟩ (s.onMb (fun m => { m with pend := m.pend.erase p }))

variable {mb : Fin 8} {p : PendingCmd} {r : Bytes} {k : Nat}

theorem execFinalResponse_ok (hdue : finalDue s mb.val = some (p, .ok, r, k)) :
    execFinalResponse mb s = .next (settle mb.val (release p.mb p.tag p.seq (finalGiven p .ok r k s))) := by
  simp only [execFinalResponse, hdue]
  rfl

theorem execFinalResponse_logged {st : Status} (hdue : finalDue s mb.val = some (p, st, r, k)) (hst : st ≠ .ok) : execFinalResponse mb s =
    .next (settle mb.val (release p.mb p.tag p.seq (logAdd p.opcode (st.code % 256) (st.code / 256) p.mb (finalGiven p st r k s)))) := by
  simp only [execFinalResponse, hdue, beq_iff_eq, hst, if_false]
  rfl

theorem execFinalResponse_idle (hnone : finalDue s mb.val = none) : execFinalResponse mb s = .next s := by
  simp only [execFinalResponse, hnone]

/-- Settles O12: the checks of an entry come in the order of Table 4.9, and each clause names the first that fails. -/
theorem fetchedEntriesAndHeldResponsesMoveOn : Obligations.FetchedEntriesAndHeldResponsesMoveOn := by
  refine ⟨?good, ?badOpcode, ?badCrc, ?badSeq, ?boot, ?fetchIdle, ?held, ?heldIdle, ?final, ?finalLogged, ?finalIdle⟩
  case good =>
    exact fun e b n s hbar hserves hhand hnext hcrc hseq hblock hop =>
      FetchDue.exec_in_hand ⟨hbar, hhand, hnext⟩ hserves ⟨hcrc, hseq, hblock⟩ hop
  case badOpcode =>
    exact fun e b n s hbar hserves hhand hnext hcrc hseq hblock hop =>
      FetchDue.exec_bad_opcode ⟨hbar, hhand, hnext⟩ hserves ⟨hcrc, hseq, hblock⟩ hop
  case badCrc => exact fun e b n s hbar hserves hhand hnext hseq hcrc => FetchDue.exec_bad_crc ⟨hbar, hhand, hnext⟩ hserves hseq hcrc
  case badSeq => exact fun e b n s hbar hserves hhand hnext hseq => FetchDue.exec_bad_seq ⟨hbar, hhand, hnext⟩ hserves hseq
  case boot => exact fun e b n s hbar hboot hhand hnext => FetchDue.exec_boot ⟨hbar, hhand, hnext⟩ hboot
  case fetchIdle => exact fun e b s h => execCommandFetch_idle h
  case held => exact fun mb r l s hbar hheld hroom => execHeldResponseWrite_room hbar hheld hroom
  case heldIdle => exact fun mb s h => execHeldResponseWrite_idle h
  case final => exact fun mb p r k s hdue => execFinalResponse_ok hdue
  case finalLogged => exact fun mb p st r k s hdue hst => execFinalResponse_logged hdue hst
  case finalIdle => exact fun mb s hnone => execFinalResponse_idle hnone

end Sys2Proof.Machine

/-! PROOFS. Writes of BAR0 registers, and reads of those that latch or pop (R80, R83, R425, R435, R503, R504, R591; O13). -/

namespace Sys2Proof.Machine

open Sys2Proof

variable {s : State} {n a off : Nat} {v : Word32}

/-! ### Where a write goes -/

theorem execRegisterWrite_word (hbar : barOn s = true) : execRegisterWrite off 32 v s = .next (regWrite off v s) :=
  if_neg (by simp [hbar])

/-- A narrow write, and one that cannot reach the device, is ignored. -/
theorem execRegisterWrite_ignored {w : Nat} (h : barOn s = false ∨ w < 32) : execRegisterWrite off w v s = .next s :=
  if_pos (h.imp_left (by simp [·]))

/-- A write that no register takes changes nothing, whether it reaches the device or not. -/
theorem execRegisterWrite_no_effect (h : regWrite off v s = s) : execRegisterWrite off 32 v s = .next s := by
  cases hbar : barOn s with
  | true => rw [execRegisterWrite_word hbar, h]
  | false => exact execRegisterWrite_ignored (.inl hbar)

theorem regWrite_mailbox (haddr : a = 0x1000 + 64 * n + off) (hn : n < 8) (hoff : off < 64) (haligned : off % 4 = 0) :
    regWrite a v s = mbRegWrite n off v s := by
  have hblock : (a - 0x1000) / 64 = n := by omega
  have hplace : a % 64 = off := by omega
  rw [regWrite, if_neg (by omega), if_pos (by omega), hblock, hplace]

theorem regWrite_time (haddr : a = 0x4000 + off) (hoff : off < 0x1000) (haligned : off % 4 = 0) :
    regWrite a v s = timeRegWrite off v s := by
  have hplace : a - 0x4000 = off := by omega
  rw [regWrite, if_neg (by omega), if_neg (by omega), if_neg (by omega), if_pos (by omega), hplace]

theorem regWrite_no_register (h : off % 4 ≠ 0 ∨ off < 0x1000 ∨ (0x1200 ≤ off ∧ off < 0x2000) ∨ 0x5000 ≤ off) : regWrite off v s = s := by
  by_cases haligned : off % 4 = 0
  · rw [regWrite, if_neg (by omega), if_neg (by omega), if_neg (by omega), if_neg (by omega)]
  · exact if_pos haligned

/-! ### Ring bases (R83) -/

/-- While ENABLED reads 1, a write of a ring base is ignored. -/
theorem mbRegWrite_base_enabled {i : Nat} (hi : i < 4) (hon : (mbGet s n).enabled = true) : mbRegWrite n (4 * i) v s = s := by
  have hfree : (!(mbGet s n).enabled) = false := by simp [hon]
  have hplace : i = 0 ∨ i = 1 ∨ i = 2 ∨ i = 3 := by omega
  rcases hplace with rfl | rfl | rfl | rfl <;> exact when_of_false hfree

section
variable (hbar : barOn s = true)
include hbar

theorem execRegisterWrite_mailbox (haddr : a = 0x1000 + 64 * n + off) (hn : n < 8) (hoff : off < 64) (haligned : off % 4 = 0) :
    execRegisterWrite a 32 v s = .next (mbRegWrite n off v s) := by
  rw [execRegisterWrite_word hbar, regWrite_mailbox haddr hn hoff haligned]

section
variable (hn : n < 8) (hoff : (mbGet s n).enabled = false)
include hn hoff

theorem execRegisterWrite_cmdBase_lo : execRegisterWrite (0x1000 + 64 * n) 32 v s =
    .next (mbUpd n (fun x => { x with cmdBase := halfPut x.cmdBase false v }) s) :=
  (execRegisterWrite_mailbox hbar (off := 0x00) (by omega) hn (by decide) rfl).trans (congrArg _ (when_of_true (by simp [hoff])))

theorem execRegisterWrite_cmdBase_hi : execRegisterWrite (0x1004 + 64 * n) 32 v s =
    .next (mbUpd n (fun x => { x with cmdBase := halfPut x.cmdBase true v }) s) :=
  (execRegisterWrite_mailbox hbar (off := 0x04) (by omega) hn (by decide) rfl).trans (congrArg _ (when_of_true (by simp [hoff])))

theorem execRegisterWrite_rspBase_lo : execRegisterWrite (0x1008 + 64 * n) 32 v s =
    .next (mbUpd n (fun x => { x with rspBase := halfPut x.rspBase false v }) s) :=
  (execRegisterWrite_mailbox hbar (off := 0x08) (by omega) hn (by decide) rfl).trans (congrArg _ (when_of_true (by simp [hoff])))

theorem execRegisterWrite_rspBase_hi : execRegisterWrite (0x100C + 64 * n) 32 v s =
    .next (mbUpd n (fun x => { x with rspBase := halfPut x.rspBase true v }) s) :=
  (execRegisterWrite_mailbox hbar (off := 0x0C) (by omega) hn (by decide) rfl).trans (congrArg _ (when_of_true (by simp [hoff])))

end

end

theorem halfPut_lo (b : Word64) (v : Word32) : halfPut b false v = BitVec.ofNat 64 (b.toNat / 2 ^ 32 * 2 ^ 32 + v.toNat) :=
  if_neg Bool.false_ne_true

theorem halfPut_hi (b : Word64) (v : Word32) : halfPut b true v = BitVec.ofNat 64 (v.toNat * 2 ^ 32 + b.toNat % 2 ^ 32) := if_pos rfl

/-! ### Increments of the time bases (R420, R425) -/

theorem timeRegWrite_incLo (hn : n < 4) :
    timeRegWrite (0x100 + 16 * n) v s = s.onTime (fun t => { t with incLo := tset t.incLo n v.toNat }) := by
  have hbase : (0x100 + 16 * n - 0x100) / 16 = n := by omega
  rw [timeRegWrite, if_pos (by omega), hbase]

theorem timeRegWrite_incHi (hn : n < 4) : timeRegWrite (0x104 + 16 * n) v s = tbIncWrite n v s := by
  have hbase : (0x104 + 16 * n - 0x100) / 16 = n := by omega
  rw [timeRegWrite, if_neg (by omega), if_pos (by omega), hbase]

/-- The discipline, the link or the partner steers the base: host software does not. -/
def baseSteered (s : State) (n : Nat) : Bool :=
  (s.dev.paired && workRole s == .standby && (n == 1 || n == 2 || (n == 0 && s.red.follow))) || (n == 0 && s.time.cfg.mode) ||
    (n == 2 && s.time.cfg.linkTrack)

/-- The 40-bit increment that a write of TBn_INC_HI completes. -/
def incWritten (s : State) (n : Nat) (v : Word32) : Nat := v.toNat % 256 * 2 ^ 32 + tget 0 s.time.incLo n

theorem tbIncWrite_applied (hfree : baseSteered s n = false) (hlow : 0x1FFF2E48F ≤ incWritten s n v) (hhigh : incWritten s n v ≤ 0x2000D1B71) :
    tbIncWrite n v s = baseUpd n (fun b => { b with inc := incWritten s n v }) s := by
  refine if_neg ?_
  rintro (hsteered | hout | hout)
  · exact Bool.false_ne_true (hfree.symm.trans hsteered)
  · exact Nat.not_lt.mpr hlow hout
  · exact Nat.not_lt.mpr hhigh hout

theorem tbIncWrite_refused (h : baseSteered s n = true ∨ incWritten s n v < 0x1FFF2E48F ∨ 0x2000D1B71 < incWritten s n v) :
    tbIncWrite n v s = s.onTime (fun t => { t with incErr := t.incErr ||| (1#4 <<< n) }) :=
  if_pos h

/-! ### The event queue (R503) -/

theorem evqHeadWrite_accepted (hbar : barOn s = true) (hin : (v.setWidth 16 - s.fault.head).toNat ≤ (s.fault.tail - s.fault.head).toNat) :
    evqHeadWrite v s = s.onFault (fun f => { f with head := v.setWidth 16 }) :=
  if_pos ⟨hbar, hin⟩

theorem evqHeadWrite_refused (hout : (s.fault.tail - s.fault.head).toNat < (v.setWidth 16 - s.fault.head).toNat) : evqHeadWrite v s = s :=
  if_neg fun h => Nat.not_le.mpr hout h.2

theorem evqHeadWrite_of_bar_off (hbar : barOn s = false) : evqHeadWrite v s = s := if_neg (by simp [hbar])

theorem evqCtrlWrite_of_bar_on (hbar : barOn s = true) : evqCtrlWrite v s = s.onFault (fun f => { f with ctrl := v &&& 3 }) := if_pos hbar

theorem evqCtrlWrite_of_bar_off (hbar : barOn s = false) : evqCtrlWrite v s = s := if_neg (by simp [hbar])

/-- Settles O13: a write goes to the one register that its offset names, and a row with an effect of its own acts while BAR0 is in reach. -/
theorem registerRowsReadAndWrite : Obligations.RegisterRowsReadAndWrite := by
  refine ⟨?cmdLo, ?cmdHi, ?rspLo, ?rspHi, ?basesOn, ?ctrl, ?rspHead, ?doorbell, ?status, ?events, ?increments, ?noRegister, ?narrow, ?latch,
    ?pop, ?cause, ?window, ?evqEnable, ?evqHead, ?evqHeadOut, ?unreached, ?incApplied, ?incRefused⟩
  case cmdLo => exact fun n v s hbar hn hoff => (execRegisterWrite_cmdBase_lo hbar hn hoff).trans (by simp only [halfPut_lo])
  case cmdHi => exact fun n v s hbar hn hoff => (execRegisterWrite_cmdBase_hi hbar hn hoff).trans (by simp only [halfPut_hi])
  case rspLo => exact fun n v s hbar hn hoff => (execRegisterWrite_rspBase_lo hbar hn hoff).trans (by simp only [halfPut_lo])
  case rspHi => exact fun n v s hbar hn hoff => (execRegisterWrite_rspBase_hi hbar hn hoff).trans (by simp only [halfPut_hi])
  case basesOn =>
    intro n i v s hn hi hon
    exact execRegisterWrite_no_effect ((regWrite_mailbox (off := 4 * i) rfl hn (by omega) (by omega)).trans (mbRegWrite_base_enabled hi hon))
  case ctrl => exact fun n v s hbar hn => execRegisterWrite_mailbox hbar (off := 0x10) (by omega) hn (by decide) rfl
  case rspHead => exact fun n v s hbar hn => execRegisterWrite_mailbox hbar (off := 0x20) (by omega) hn (by decide) rfl
  case doorbell => exact fun n v s hbar hn => execRegisterWrite_mailbox hbar (off := 0x24) (by omega) hn (by decide) rfl
  case status => exact fun n v s hbar hn => execRegisterWrite_mailbox hbar (off := 0x28) (by omega) hn (by decide) rfl
  case events =>
    exact fun v s hbar => ⟨execRegisterWrite_word hbar, execRegisterWrite_word hbar, execRegisterWrite_word hbar, execRegisterWrite_word hbar⟩
  case increments =>
    refine fun n v s hbar => ⟨(execRegisterWrite_word hbar).trans (congrArg _ ?lo), (execRegisterWrite_word hbar).trans (congrArg _ ?hi)⟩
    case lo => exact (regWrite_time (off := 0x100 + 16 * n.val) (by omega) (by omega) (by omega)).trans (timeRegWrite_incLo n.isLt)
    case hi => exact (regWrite_time (off := 0x104 + 16 * n.val) (by omega) (by omega) (by omega)).trans (timeRegWrite_incHi n.isLt)
  case noRegister => exact fun off v s h => execRegisterWrite_no_effect (regWrite_no_register h)
  case narrow => exact fun off w v s h => execRegisterWrite_ignored h
  case latch => exact fun n s hbar => congrArg _ (when_of_true hbar)
  case pop => exact fun s hbar => congrArg _ (when_of_true hbar)
  case cause => exact fun s hbar => if_pos hbar
  case window => exact fun m s hbar => congrArg _ (when_of_true hbar)
  case evqEnable => exact fun v s hbar => congrArg _ (evqCtrlWrite_of_bar_on hbar)
  case evqHead => exact fun v s hbar hin => congrArg _ (evqHeadWrite_accepted hbar hin)
  case evqHeadOut => exact fun v s hout => congrArg _ (evqHeadWrite_refused hout)
  case unreached =>
    exact fun n m v s hbar => ⟨congrArg _ (when_of_false hbar), congrArg _ (when_of_false hbar), if_neg (by simp [hbar]),
      congrArg _ (when_of_false hbar), congrArg _ (evqCtrlWrite_of_bar_off hbar), congrArg _ (evqHeadWrite_of_bar_off hbar),
      congrArg _ (when_of_false hbar)⟩
  case incApplied =>
    exact fun n v s hbar hfree hlow hhigh => congrArg _ ((when_of_true hbar).trans (tbIncWrite_applied hfree hlow hhigh))
  case incRefused => exact fun n v s hbar h => congrArg _ ((when_of_true hbar).trans (tbIncWrite_refused h))

end Sys2Proof.Machine

/-! PROOFS. nPOR, resets and BOOT as the mailboxes see them (R86, O57). -/

namespace Sys2Proof.Machine

open Sys2Proof

variable {s : State} {r : ResetReq}

/-! ### The change to BOOT -/

/-- Of the mailboxes, the change to BOOT touches the command log alone. -/
theorem bootEntered_mb (old : DevState) (cause : Nat) (s : State) : (bootEntered old cause s).mb = (logAdd 0 1 cause 0xFF s).mb :=
  (sysEvent_keeps ..).mb (by decide)

theorem bootEntered_blocks (old : DevState) (cause : Nat) (s : State) : (bootEntered old cause s).mb.blocks = s.mb.blocks := by
  rw [bootEntered_mb]
  rfl

theorem bootEntered_dev (old : DevState) (cause : Nat) (s : State) : (bootEntered old cause s).dev = s.dev :=
  (bootEntered_keeps ..).dev (by decide)

theorem warmReset_blocks (s : State) : (warmReset s).mb.blocks = s.mb.blocks :=
  (congrArg Mailboxes.blocks ((cdcWarm_keeps _).mb (by decide))).trans (bootEntered_blocks ..)

theorem warmReset_state (s : State) : (warmReset s).dev.state = .boot :=
  congrArg Dev.state (((cdcWarm_keeps _).dev (by decide)).trans (bootEntered_dev ..))

/-- A cold reset leaves the mailboxes at their reset values, but for the entry of the command log. -/
theorem coldReset_mb (s : State) : ∃ log, (coldReset s).mb = { log := log, logSeq := 1 } := ⟨_, bootEntered_mb ..⟩

theorem coldReset_state (s : State) : (coldReset s).dev.state = .boot := congrArg Dev.state (bootEntered_dev ..)

/-! ### What a reset does first -/

theorem endPortPending_blocks (p : Nat) (st : Status) (r : Bytes) (s : State) : (endPortPending p st r s).mb.blocks = s.mb.blocks := rfl

/-- A port that goes DOWN may end a PENDING command; the control blocks stay. -/
theorem portDown_blocks (p cause : Nat) (s : State) : (portDown p cause s).mb.blocks = s.mb.blocks := by
  unfold portDown
  split
  · rfl
  · have hsent : Keeps [.link] s (if (portGet s p).state.dtx then sendBlock p cause 1 s else s) :=
      ite_keeps _ _ _ (fun _ => sendBlock_keeps ..) (fun _ => Keeps.refl ..)
    have hdown := Keeps.step (L := [.fault, .link]) (setPortState_keeps p .down _) rfl (hsent.mono rfl)
    rw [endPortPending_blocks]
    exact congrArg Mailboxes.blocks ((Keeps.step (portUpd_keeps ..) rfl hdown).mb (by decide))

theorem allPortsDown_blocks (cause : Nat) (s : State) : (allPortsDown cause s).mb.blocks = s.mb.blocks := by
  have hfold (l : List Nat) (t : State) : (l.foldl (fun t p => portDown p cause t) t).mb.blocks = t.mb.blocks := by
    induction l generalizing t with
    | nil => rfl
    | cons p l ih => rw [List.foldl_cons, ih, portDown_blocks]
  exact hfold _ s

/-- With nothing PENDING and nothing in hand, a reset has nothing to answer (R99). -/
theorem resetAnswers_of_none (hpend : s.mb.pend = []) (hhand : s.mb.inHand = none) :
    resetAnswers s = s.onMb (fun m => { m with pend := [] }) := by
  simp [resetAnswers, hpend, hhand]

/-- What a reset does before it clears, the answers apart, leaves control blocks and host memory. -/
theorem portsDown_wearSave_rings (s : State) : (wearSave (allPortsDown 0x03 s)).mb.blocks = s.mb.blocks ∧
    (wearSave (allPortsDown 0x03 s)).host = s.host := by
  have hwear := wearSave_keeps (allPortsDown 0x03 s)
  have hdown := allPortsDown_keeps 0x03 s
  exact ⟨(congrArg Mailboxes.blocks (hwear.mb (by decide))).trans (allPortsDown_blocks 0x03 s),
    (hwear.host (by decide)).trans (hdown.host (by decide))⟩

/-! ### RESET_EXECUTE -/

section
variable (hmay : resetMay s = true) (hreq : s.power.resetReq = some r)
include hmay hreq

theorem execResetExecute_cold (hcold : r.cold = true) :
    execResetExecute s = .next (coldReset (wearSave (allPortsDown 0x03 (resetAnswers s)))) := by
  simp [execResetExecute, resetStart, hmay, hreq, hcold]

theorem execResetExecute_warm (hwarm : r.cold = false) :
    execResetExecute s = .next (warmReset (wearSave (allPortsDown 0x03 (resetAnswers s)))) := by
  simp [execResetExecute, resetStart, hmay, hreq, hwarm]

end

/-! ### Commands in BOOT -/

section
variable {c : Cmd} (hboot : s.dev.state = .boot)
include hboot

theorem execSysNop_boot : execSysNop c s = .next (answer 0x0107 c .busy [] s) := by
  unfold execSysNop
  exact runCmd_boot _ c s _ hboot

theorem execTickCommit_boot : execTickCommit c s = .next (answer 0x0202 c .busy [] s) := by
  unfold execTickCommit
  exact runCmd_boot _ c s _ hboot

theorem execSysReset_boot : execSysReset c s = .next (answer 0x0105 c .busy [] s) := by
  unfold execSysReset
  exact runCmd_boot _ c s _ hboot

end

/-- Settles O57: a cold reset builds the mailboxes anew, a warm reset takes the control blocks over, and in BOOT the gate answers BUSY
before any check. -/
theorem resetsAndBootTreatTheMailboxes : Obligations.ResetsAndBootTreatTheMailboxes := by
  refine ⟨?nporAccept, ?nporRise, ?cold, ?warm, ?warmKeeps, ?before, ?fetch, ?gate, ?commands⟩
  case nporAccept => exact fun s => ⟨_, rfl, rfl, rfl⟩
  case nporRise =>
    exact fun s hoff => ⟨_, execNporRise_off hoff, bootEntered_blocks .., congrArg Dev.state (bootEntered_dev ..)⟩
  case cold =>
    intro s r hmay hreq hcold
    obtain ⟨log, hmb⟩ := coldReset_mb (wearSave (allPortsDown 0x03 (resetAnswers s)))
    exact ⟨_, execResetExecute_cold hmay hreq hcold, congrArg Mailboxes.blocks hmb, congrArg Mailboxes.pend hmb,
      congrArg Mailboxes.inHand hmb, coldReset_state _⟩
  case warm => exact fun s r hmay hreq hwarm => execResetExecute_warm hmay hreq hwarm
  case warmKeeps => exact fun s => ⟨warmReset_blocks s, (warmReset_keeps s).host (by decide), warmReset_state s⟩
  case before =>
    intro s hpend hhand
    rw [resetAnswers_of_none hpend hhand]
    exact portsDown_wearSave_rings _
  case fetch => exact fun n entry block s hboot hbar hhand hnext => FetchDue.exec_boot ⟨hbar, hhand, hnext⟩ hboot
  case gate => exact fun g c s act hboot => runCmd_boot g c s act hboot
  case commands => exact fun c s hboot => ⟨execSysNop_boot hboot, execTickCommit_boot hboot, execSysReset_boot hboot⟩

end Sys2Proof.Machine

/-! PROOFS. CELL_PORT_UP, CELL_PORT_DOWN, CELL_RANGE_READ and CELL_PORT_REMAP act on their port (Table 6.17, O17). -/

namespace Sys2Proof.Machine

open Sys2Proof

variable {c : Cmd} {s : State}

/-! ### The port a command names -/

/-- The parameter names one of the 32 ports, which is fitted and not LOST. -/
structure PortNamed (c : Cmd) (s : State) : Prop where
  number : c.u8 0 < 32
  ok : portOk s (c.u8 0) = true

theorem PortNamed.fitted (h : PortNamed c s) : (decide (32 ≤ c.u8 0) || portOk s (c.u8 0)) = true := by simp [h.ok]

theorem PortNamed.not_lost (h : PortNamed c s) : (portGet s (c.u8 0)).state ≠ .lost := by
  have hok := h.ok
  simp only [portOk, Bool.and_eq_true, bne_iff_ne] at hok
  exact hok.2

/-- A port of the 32 that is absent or LOST fails the check of what is fitted. -/
theorem port_not_fitted (hport : c.u8 0 < 32) (hno : portOk s (c.u8 0) = false) :
    (decide (32 ≤ c.u8 0) || portOk s (c.u8 0)) = false := by
  simp [hno, hport]

section
variable (hserving : Serving s) (hmb : c.mb ≠ 0)
include hserving hmb

/-- A command whose check of what is fitted is that of a port answers NOT_FITTED where the port is absent or LOST. -/
theorem runCmd_port_not_fitted {g : Gate} {act : State → Reply} (hmb17 : g.mb17 = true) (htest : g.test = false) (hlen : g.len = true)
    (hfitted : g.fitted = (decide (32 ≤ c.u8 0) || portOk s (c.u8 0))) (hport : c.u8 0 < 32) (hno : portOk s (c.u8 0) = false) :
    runCmd g c s act = .next (answer g.opcode c .notFitted g.info s) :=
  runCmd_of_fail hserving (Gate.fail_of_not_fitted (mailbox_of_ne_zero hmb hmb17) (by simp [htest]) hlen
    (hfitted.trans (port_not_fitted hport hno))) (by decide)

theorem execCellPortUp_not_fitted (hinline : Inline c 4) (hport : c.u8 0 < 32) (hno : portOk s (c.u8 0) = false) :
    execCellPortUp c s = .next (answer 0x0301 c .notFitted [] s) := by
  unfold execCellPortUp
  exact runCmd_port_not_fitted hserving hmb rfl rfl (by simp [inl_of_inline hinline]) rfl hport hno

theorem execCellPortDown_not_fitted (hinline : Inline c 4) (hport : c.u8 0 < 32) (hno : portOk s (c.u8 0) = false) :
    execCellPortDown c s = .next (answer 0x0302 c .notFitted [] s) := by
  unfold execCellPortDown
  exact runCmd_port_not_fitted hserving hmb rfl rfl (inl_of_inline hinline) rfl hport hno

theorem execCellRangeRead_not_fitted (hinline : Inline c 12) (hport : c.u8 0 < 32) (hno : portOk s (c.u8 0) = false) :
    execCellRangeRead c s = .next (answer 0x0303 c .notFitted [] s) := by
  unfold execCellRangeRead
  exact runCmd_port_not_fitted hserving hmb rfl rfl (inl_of_inline hinline) rfl hport hno

theorem execCellPortRemap_not_fitted (hinline : Inline c 4) (hport : c.u8 0 < 32) (hno : portOk s (c.u8 0) = false) :
    execCellPortRemap c s = .next (answer 0x0304 c .notFitted [] s) := by
  unfold execCellPortRemap
  exact runCmd_port_not_fitted hserving hmb rfl rfl (inl_of_inline hinline) rfl hport hno

end

/-! ### CELL_PORT_UP -/

/-- An asymmetry that the port can hold. -/
def asymFits (x : Int) : Bool := decide (x.natAbs ≤ 6400)

/-- The trims of an external block; none inline. -/
def upTrims (c : Cmd) : Tbl Int := if c.isExt then readTrims c.params 128 else []

/-- The asymmetry fits with each trim of the block, or alone. -/
def upFits (c : Cmd) : Bool := if c.isExt then (upTrims c).all (fun t => asymFits (c.s16 2 + t.2)) else asymFits (c.s16 2)

/-- The gate of CELL_PORT_UP (`execCellPortUp`). -/
def portUpGate (c : Cmd) (s : State) : Gate := {
  opcode := 0x0301, len := c.inl 4 || c.extLen (· == 260), fitted := 32 ≤ c.u8 0 || portOk s (c.u8 0), legal := linkStates,
  roles := actStby, pends := true, free := !held s (.port (c.u8 0)),
  par := c.u8 0 < 32 && c.rsv 1 1 && ((portGet s (c.u8 0)).state.asleep || upFits c) }

/-- CELL_PORT_UP meets a port, in a state and role of Table 6.17, with an asymmetry that a port that is not asleep can hold. -/
structure PortUpAdmitted (c : Cmd) (s : State) : Prop where
  admits : Admits c s [.config, .standby, .blockedFault, .factoryTest] [.active, .standby]
  len : (c.inl 4 || c.extLen (· == 260)) = true
  entry : c.entryReserved = true
  port : PortNamed c s
  reserved : c.rsv 1 1 = true
  fits : (portGet s (c.u8 0)).state.asleep = true ∨ upFits c = true

theorem PortUpAdmitted.of_inline (hadmits : Admits c s [.config, .standby, .blockedFault, .factoryTest] [.active, .standby])
    (hinline : Inline c 4) (hport : PortNamed c s) (hreserved : c.rsv 1 1 = true)
    (hfits : (portGet s (c.u8 0)).state.asleep = true ∨ (c.s16 2).natAbs ≤ 6400) : PortUpAdmitted c s where
  admits := hadmits
  len := by simp [inl_of_inline hinline]
  entry := entryReserved_of_inline hinline
  port := hport
  reserved := hreserved
  fits := hfits.imp_right fun h => by simp [upFits, asymFits, isExt0 hinline.1, h]

theorem PortUpAdmitted.of_external (hadmits : Admits c s [.config, .standby, .blockedFault, .factoryTest] [.active, .standby])
    (hexternal : External c (fun l => l == 260)) (hport : PortNamed c s) (hreserved : c.rsv 1 1 = true)
    (hfits : (readTrims c.params 128).all (fun t => asymFits (c.s16 2 + t.2)) = true) : PortUpAdmitted c s := by
  obtain ⟨hflags, hrsvd, hlen, hentry⟩ := hexternal
  exact {
    admits := hadmits
    len := by simp only [hlen, Bool.or_true]
    entry := res1 hflags hrsvd hentry
    port := hport
    reserved := hreserved
    fits := .inr (by simpa only [upFits, upTrims, isExt1 hflags, if_true] using hfits) }

theorem PortUpAdmitted.passes (h : PortUpAdmitted c s) : (portUpGate c s).Passes c s where
  serving := serving_of_mem h.admits.2.1 (by decide) (by decide)
  mailbox := mailbox_of_ne_zero h.admits.1 rfl
  test := rfl
  len := h.len
  fitted := h.port.fitted
  legal := legal_of_mem' h.admits.2.1 rfl
  roles := roles_of_mem h.admits.2.2 rfl
  permit := rfl
  par := by
    have hfits := h.fits
    simp [portUpGate, h.port.number, h.reserved, hfits]
  entry := h.entry

/-- CELL_PORT_UP stores what it brings for the port and starts it. -/
def portBroughtUp (c : Cmd) (s : State) : State :=
  portStart (c.u8 0) (portUpd (c.u8 0) (fun x => { x with asym := c.s16 2, trims := upTrims c }) s)

theorem portBroughtUp_inline (hflags : c.flags = 0) : portBroughtUp c s =
    portStart (c.u8 0) (portUpd (c.u8 0) (fun x => { x with asym := c.s16 2, trims := [] }) s) := by
  simp [portBroughtUp, upTrims, isExt0 hflags]

theorem portBroughtUp_external (hflags : c.flags = 1) : portBroughtUp c s =
    portStart (c.u8 0) (portUpd (c.u8 0) (fun x => { x with asym := c.s16 2, trims := readTrims c.params 128 }) s) := by
  simp [portBroughtUp, upTrims, isExt1 hflags]

/-- CELL_PORT_UP is PENDING on its port. -/
def portUpPending (c : Cmd) (s : State) : State :=
  pendAs 0x0301 c [.port (c.u8 0)] [.config, .standby, .blockedFault, .factoryTest] (c.u8 0) none s

section
variable (h : PortUpAdmitted c s)
include h

theorem PortUpAdmitted.exec_busy (hheld : held s (.port (c.u8 0)) = true) : execCellPortUp c s = .next (answer 0x0301 c .busy [] s) := by
  unfold execCellPortUp
  exact h.passes.busy (by simp [portUpGate, hheld])

section
variable (hfree : held s (.port (c.u8 0)) = false) (hpend : pendCount s c.mb < 8)
include hfree hpend

theorem PortUpAdmitted.exec_wake (hasleep : (portGet s (c.u8 0)).state.asleep = true) : execCellPortUp c s =
    .next (answer 0x0301 c .pending (portResult s (c.u8 0)) (portUpPending c (portWake (c.u8 0) s))) := by
  unfold execCellPortUp
  exact h.passes.answers (by simp [portUpGate, hfree]) (by simp [portUpGate, hpend]) (if_pos hasleep)

theorem PortUpAdmitted.exec_conflict (hawake : (portGet s (c.u8 0)).state.asleep = false)
    (hno : (portGet s (c.u8 0)).state ≠ .down ∨ (portCells s (c.u8 0)).isEmpty = true) :
    execCellPortUp c s = .next (answer 0x0301 c .conflict (portResult s (c.u8 0)) s) := by
  unfold execCellPortUp
  exact h.passes.answers (by simp [portUpGate, hfree]) (by simp [portUpGate, hpend]) ((if_neg (by simp [hawake])).trans (if_pos hno))

theorem PortUpAdmitted.exec_start (hdown : (portGet s (c.u8 0)).state = .down) (hcells : (portCells s (c.u8 0)).isEmpty = false) :
    execCellPortUp c s =
      .next (answer 0x0301 c .pending (portResult (portBroughtUp c s) (c.u8 0)) (portUpPending c (portBroughtUp c s))) := by
  unfold execCellPortUp
  exact h.passes.answers (by simp [portUpGate, hfree]) (by simp [portUpGate, hpend])
    ((if_neg (by simp [hdown, PortState.asleep])).trans (if_neg (by simp [hdown, hcells])))

end

end

/-! ### CELL_PORT_DOWN -/

/-- The gate of CELL_PORT_DOWN (`execCellPortDown`). -/
def portDownGate (c : Cmd) (s : State) : Gate := {
  opcode := 0x0302, len := c.inl 4, fitted := 32 ≤ c.u8 0 || portOk s (c.u8 0), legal := linkStates, roles := actStby,
  par := c.u8 0 < 32 && c.u8 1 < 4 && c.rsv 2 2, free := !remapHolds s (c.u8 0) }

/-- CELL_PORT_DOWN meets a port that no CELL_PORT_REMAP holds, in a state and role of Table 6.17, with a depth it knows. -/
structure PortDownAdmitted (c : Cmd) (s : State) : Prop where
  admits : Admits c s [.config, .standby, .blockedFault, .factoryTest] [.active, .standby]
  params : Inline c 4
  port : PortNamed c s
  depth : c.u8 1 < 4
  reserved : c.rsv 2 2 = true
  free : remapHolds s (c.u8 0) = false

theorem PortDownAdmitted.passes (h : PortDownAdmitted c s) : (portDownGate c s).Passes c s where
  serving := serving_of_mem h.admits.2.1 (by decide) (by decide)
  mailbox := mailbox_of_ne_zero h.admits.1 rfl
  test := rfl
  len := inl_of_inline h.params
  fitted := h.port.fitted
  legal := legal_of_mem' h.admits.2.1 rfl
  roles := roles_of_mem h.admits.2.2 rfl
  permit := rfl
  par := by simp [portDownGate, h.port.number, h.depth, h.reserved]
  entry := entryReserved_of_inline h.params

/-- The sleep state of a depth (Table 6.17). -/
def sleepState (depth : Nat) : PortState := if depth = 1 then .sleepD else if depth = 2 then .sleepU else .sleepDU

/-- A port that sends tick frames, or sleeps: a sleep depth can be commanded. -/
abbrev MaySleep (s : State) (p : Nat) : Prop := (portGet s p).state = .inService ∨ (portGet s p).state.asleep = true

theorem MaySleep.not_down {p : Nat} (h : MaySleep s p) : (portGet s p).state ≠ .down := by
  rintro hdown
  rw [MaySleep, hdown] at h
  simp [PortState.asleep] at h

/-- What CELL_PORT_DOWN does to a port that is not LOST. -/
def portDownReply (c : Cmd) (s : State) : Reply :=
  if (portGet s (c.u8 0)).state = .down then ⟨s, .conflict, [], false⟩
  else if c.u8 1 = 0 then okReply (portDown (c.u8 0) 0 s) (le 1 0)
  else if ¬MaySleep s (c.u8 0) then ⟨s, .conflict, [], false⟩
  else okReply (setPortState (c.u8 0) (sleepState (c.u8 1)) (sendMsg (c.u8 0) (.sleep (2 ≤ c.u8 1) (c.u8 1 % 2 = 1)) 4 s))
    (le 1 (sleepState (c.u8 1)).code)

section
variable (h : PortDownAdmitted c s)
include h

theorem PortDownAdmitted.exec {t : State} {st : Status} {r : Bytes} (hact : portDownReply c s = ⟨t, st, r, false⟩) :
    execCellPortDown c s = .next (answer 0x0302 c st r t) := by
  unfold execCellPortDown
  refine h.passes.answers (by simp [portDownGate, h.free]) rfl (Eq.trans ?_ hact)
  simp only [h.port.not_lost, or_false, portDownReply, MaySleep, not_or, ne_eq, Bool.not_eq_true, Bool.not_eq_true']
  rfl

theorem PortDownAdmitted.exec_down (hdepth : c.u8 1 = 0) (hup : (portGet s (c.u8 0)).state ≠ .down) :
    execCellPortDown c s = .next (answer 0x0302 c .ok (le 1 0) (portDown (c.u8 0) 0 s)) :=
  h.exec ((if_neg hup).trans (if_pos hdepth))

theorem PortDownAdmitted.exec_sleep (hdepth : 1 ≤ c.u8 1) (hmay : MaySleep s (c.u8 0)) :
    execCellPortDown c s = .next (answer 0x0302 c .ok (le 1 (sleepState (c.u8 1)).code) (setPortState (c.u8 0) (sleepState (c.u8 1))
      (sendMsg (c.u8 0) (.sleep (2 ≤ c.u8 1) (c.u8 1 % 2 = 1)) 4 s))) :=
  h.exec ((if_neg hmay.not_down).trans ((if_neg (Nat.ne_of_gt hdepth)).trans (if_neg (not_not_intro hmay))))

theorem PortDownAdmitted.exec_conflict
    (hno : (portGet s (c.u8 0)).state = .down ∨ (c.u8 1 ≠ 0 ∧ ¬MaySleep s (c.u8 0))) :
    execCellPortDown c s = .next (answer 0x0302 c .conflict [] s) := by
  refine h.exec ?_
  rw [portDownReply]
  split
  · rfl
  · next hup =>
    obtain ⟨hdepth, hmay⟩ := hno.resolve_left hup
    rw [if_neg hdepth, if_pos hmay]

end

/-! ### CELL_RANGE_READ -/

/-- What CELL_RANGE_READ answers (Table 6.17). -/
def rangeResult (s : State) (p : Nat) : Bytes :=
  le 1 (portGet s p).state.code ++ le 1 (portGet s p).spare ++ le 2 (portGet s p).minOff ++
    le 4 ((((portCells s p).map (cellGet s)).filter reachable).foldl (fun m x => max m x.dDown) 0) ++
    le 4 ((((portCells s p).map (cellGet s)).filter reachable).foldl (fun m x => max m x.dUp) 0) ++
    le 4 (((portCells s p).map (cellGet s)).filter reachable).length ++ le 4 (((portCells s p).map (cellGet s)).filter cellAway).length ++
    le 4 (portGet s p).corr ++ le 4 (portGet s p).disc ++ le 4 (portGet s p).reruns

theorem execCellRangeRead_ok (hserving : Serving s) (hinline : Inline c 12) (hmb : c.mb ≠ 0) (hport : PortNamed c s)
    (hreserved : c.rsv 1 3 = true) (haligned : c.u64 4 % 64 = 0) : execCellRangeRead c s =
    .next (answer 0x0303 c .ok (rangeResult s (c.u8 0)) (if c.u64 4 = 0 then s
      else putBuf (c.u64 4) (withCrc ((List.range 128).flatMap (rangeEntry s (c.u8 0)))) s)) := by
  unfold execCellRangeRead
  exact (readGate_passes_inline hserving (.inr hmb) hinline hport.fitted (by simp [hport.number, hreserved, haligned])).answers rfl rfl rfl

/-! ### CELL_PORT_REMAP -/

/-- The gate of CELL_PORT_REMAP (`execCellPortRemap`). -/
def portRemapGate (c : Cmd) (s : State) : Gate := {
  opcode := 0x0304, len := c.inl 4, fitted := 32 ≤ c.u8 0 || portOk s (c.u8 0),
  legal := inStates [.config, .standby, .deblocked, .safeStop, .blockedFault], roles := actStby, pends := c.u8 1 = 2,
  free := !held s (.port (c.u8 0)), par := c.u8 0 < 32 && (c.u8 1 == 1 || c.u8 1 == 2) && c.rsv 2 2 }

/-- CELL_PORT_REMAP meets a port that nothing holds, in a state and role of Table 6.17, with a kind it knows and a PENDING left for the
kind that needs one at once. -/
structure PortRemapAdmitted (c : Cmd) (s : State) : Prop where
  admits : Admits c s [.config, .standby, .deblocked, .safeStop, .blockedFault, .factoryTest] [.active, .standby]
  params : Inline c 4
  port : PortNamed c s
  reserved : c.rsv 2 2 = true
  free : held s (.port (c.u8 0)) = false
  kind : c.u8 1 = 1 ∨ (c.u8 1 = 2 ∧ pendCount s c.mb < 8)

theorem PortRemapAdmitted.passes (h : PortRemapAdmitted c s) : (portRemapGate c s).Passes c s where
  serving := serving_of_mem h.admits.2.1 (by decide) (by decide)
  mailbox := mailbox_of_ne_zero h.admits.1 rfl
  test := rfl
  len := inl_of_inline h.params
  fitted := h.port.fitted
  legal := legal_of_mem' h.admits.2.1 rfl
  roles := roles_of_mem h.admits.2.2 rfl
  permit := rfl
  par := by
    have hkind : c.u8 1 = 1 ∨ c.u8 1 = 2 := h.kind.imp_right And.left
    simp [portRemapGate, h.port.number, h.reserved, hkind]
  entry := entryReserved_of_inline h.params

theorem PortRemapAdmitted.pends (h : PortRemapAdmitted c s) : ((portRemapGate c s).pends && decide (8 ≤ pendCount s c.mb)) = false := by
  rcases h.kind with hkind | ⟨hkind, hpend⟩
  · simp [portRemapGate, hkind]
  · simp [portRemapGate, hpend]

/-- The spare's inventory notes that host software moved the port, and the capabilities follow. -/
def hostRemapped (p : Nat) (s : State) : State := capsUpdate (resUpd 3 (portDie p) (p % 8) (fun r => { r with cause := 2 }) s)

/-- The cells of the port that count as present are unreachable. -/
def portCellsAway (p : Nat) (s : State) : State :=
  (portCells s p).foldl (fun t cid =>
    if (cellGet t cid).health = .inUse ∨ (cellGet t cid).health = .pending then setHealth cid .unreachable 5 t else t) s

/-- CELL_PORT_REMAP is PENDING on its port. -/
def portRemapPending (c : Cmd) (s : State) : State :=
  pendAs 0x0304 c [.port (c.u8 0)] [.config, .standby, .deblocked, .safeStop, .blockedFault, .factoryTest] (c.u8 0) none s

section
variable (h : PortRemapAdmitted c s)
include h

theorem PortRemapAdmitted.exec_conflict (hno : (portGet s (c.u8 0)).state = .down ∨ (portGet s (c.u8 0)).spare ≠ 0) :
    execCellPortRemap c s = .next (answer 0x0304 c .conflict [] s) := by
  unfold execCellPortRemap
  exact h.passes.answers (by simp [portRemapGate, h.free]) h.pends (if_pos hno)

section
variable (hup : (portGet s (c.u8 0)).state ≠ .down) (hspare : (portGet s (c.u8 0)).spare = 0)
include hup hspare

theorem PortRemapAdmitted.exec_exhausted (htaken : spareTaken s (c.u8 0) = true) :
    execCellPortRemap c s = .next (answer 0x0304 c .exhausted [] s) := by
  unfold execCellPortRemap
  exact h.passes.answers (by simp [portRemapGate, h.free]) h.pends ((if_neg (by simp [hup, hspare])).trans (if_pos htaken))

/-- Kind 1: the spare shadows the port first, and the command is answered when it takes over. -/
theorem PortRemapAdmitted.exec_shadow (hleft : spareTaken s (c.u8 0) = false) (hkind : c.u8 1 = 1) : execCellPortRemap c s =
    .next (awaitFirst 0x0304 c (portRemapPending c (hostRemapped (c.u8 0) (portUpd (c.u8 0) (fun x => { x with shadow := some s.tick.index }) s)))) := by
  unfold execCellPortRemap
  exact h.passes.runs (later := true) (by simp [portRemapGate, h.free]) h.pends
    ((if_neg (by simp [hup, hspare])).trans ((if_neg (by simp [hleft])).trans (if_pos hkind)))

/-- Kind 2: the spare is taken at once, and the port starts on it. -/
theorem PortRemapAdmitted.exec_restart (hleft : spareTaken s (c.u8 0) = false) (hkind : c.u8 1 = 2) : execCellPortRemap c s =
    .next (answer 0x0304 c .pending [] (portRemapPending c (portStart (c.u8 0) (capsUpdate (portSpareIn (c.u8 0) (hostRemapped (c.u8 0)
      (portUpd (c.u8 0) (fun x => { x with spare := 2, laneMap := true }) (portCellsAway (c.u8 0) s)))))))) := by
  unfold execCellPortRemap
  exact h.passes.answers (by simp [portRemapGate, h.free]) h.pends
    ((if_neg (by simp [hup, hspare])).trans ((if_neg (by simp [hleft])).trans (if_neg (by simp [hkind]))))

end

end

/-! ### The obligation -/

/-- A depth other than 0 is out of place for a port that neither sends tick frames nor sleeps. -/
theorem not_maySleep {p : Nat} (hstate : (portGet s p).state ≠ .inService) (hawake : (portGet s p).state.asleep = false) : ¬MaySleep s p :=
  fun h => h.elim hstate (fun hasleep => Bool.false_ne_true (hawake.symm.trans hasleep))

/-- Settles O17: each command's gate passes under the conditions of its clause, and its action takes the branch they name. -/
theorem portCommandsMoveThePort : Obligations.PortCommandsMoveThePort := by
  refine ⟨?up, ?upTrims, ?wake, ?upConflict, ?upBusy, ?notFitted, ?down, ?sleep, ?downConflict, ?range, ?rangeBuffer, ?rangeNotFitted,
    ?shadow, ?restart, ?exhausted, ?remapConflict⟩
  case up =>
    intro c s hadmits hinline hport hok hrsv hasym hheld hpend hdown hcells
    have h := PortUpAdmitted.of_inline hadmits hinline ⟨hport, hok⟩ hrsv (.inr hasym)
    rw [← portBroughtUp_inline hinline.1]
    exact h.exec_start hheld hpend hdown hcells
  case upTrims =>
    intro c s hadmits hexternal hport hok hrsv hasym hheld hpend hdown hcells
    have h := PortUpAdmitted.of_external hadmits hexternal ⟨hport, hok⟩ hrsv hasym
    rw [← portBroughtUp_external hexternal.1]
    exact h.exec_start hheld hpend hdown hcells
  case wake =>
    intro c s hadmits hinline hport hok hrsv hheld hpend hasleep
    exact (PortUpAdmitted.of_inline hadmits hinline ⟨hport, hok⟩ hrsv (.inl hasleep)).exec_wake hheld hpend hasleep
  case upConflict =>
    intro c s hadmits hinline hport hok hrsv hasym hheld hpend hawake hno
    exact (PortUpAdmitted.of_inline hadmits hinline ⟨hport, hok⟩ hrsv (.inr hasym)).exec_conflict hheld hpend hawake hno
  case upBusy =>
    intro c s hadmits hinline hport hok hrsv hasym hheld
    exact (PortUpAdmitted.of_inline hadmits hinline ⟨hport, hok⟩ hrsv (.inr hasym)).exec_busy hheld
  case notFitted =>
    exact fun c s hserving hinline hmb hport hno => ⟨execCellPortUp_not_fitted hserving hmb hinline hport hno,
      execCellPortDown_not_fitted hserving hmb hinline hport hno, execCellPortRemap_not_fitted hserving hmb hinline hport hno⟩
  case down =>
    intro c s hadmits hinline hport hok hrsv hfree hdepth hup
    exact PortDownAdmitted.exec_down ⟨hadmits, hinline, ⟨hport, hok⟩, by omega, hrsv, hfree⟩ hdepth hup
  case sleep =>
    intro c s hadmits hinline hport hok hrsv hfree hlow hhigh hmay
    exact PortDownAdmitted.exec_sleep ⟨hadmits, hinline, ⟨hport, hok⟩, hhigh, hrsv, hfree⟩ hlow hmay
  case downConflict =>
    intro c s hadmits hinline hport hok hrsv hfree hdepth hno
    exact PortDownAdmitted.exec_conflict ⟨hadmits, hinline, ⟨hport, hok⟩, hdepth, hrsv, hfree⟩
      (hno.imp_right fun ⟨hdepth, hstate, hawake⟩ => ⟨hdepth, not_maySleep hstate hawake⟩)
  case range =>
    intro c s hserving hinline hmb hport hok hrsv haddr
    exact (execCellRangeRead_ok hserving hinline hmb ⟨hport, hok⟩ hrsv (by rw [haddr])).trans (by rw [if_pos haddr]; rfl)
  case rangeBuffer =>
    intro c s hserving hinline hmb hport hok hrsv haligned haddr
    exact (execCellRangeRead_ok hserving hinline hmb ⟨hport, hok⟩ hrsv haligned).trans (by rw [if_neg haddr]; rfl)
  case rangeNotFitted => exact fun c s hserving hinline hmb hport hno => execCellRangeRead_not_fitted hserving hmb hinline hport hno
  case shadow =>
    intro c s hadmits hinline hport hok hrsv hheld hkind hup hspare hleft
    exact PortRemapAdmitted.exec_shadow ⟨hadmits, hinline, ⟨hport, hok⟩, hrsv, hheld, .inl hkind⟩ hup hspare hleft hkind
  case restart =>
    intro c s hadmits hinline hport hok hrsv hheld hkind hpend hup hspare hleft
    exact PortRemapAdmitted.exec_restart ⟨hadmits, hinline, ⟨hport, hok⟩, hrsv, hheld, .inr ⟨hkind, hpend⟩⟩ hup hspare hleft hkind
  case exhausted =>
    intro c s hadmits hinline hport hok hrsv hheld hkind hpend hup hspare htaken
    exact PortRemapAdmitted.exec_exhausted ⟨hadmits, hinline, ⟨hport, hok⟩, hrsv, hheld, hkind.imp_right (⟨·, hpend⟩)⟩ hup hspare htaken
  case remapConflict =>
    intro c s hadmits hinline hport hok hrsv hheld hkind hpend hno
    exact PortRemapAdmitted.exec_conflict ⟨hadmits, hinline, ⟨hport, hok⟩, hrsv, hheld, hkind.imp_right (⟨·, hpend⟩)⟩ hno

end Sys2Proof.Machine

/-! PROOFS. TICK_CONFIG, the change of the tick length, TICK_COMMIT, COMMIT_APPLY and COMMIT_WITHDRAW (R124 to R128, O8). -/

namespace Sys2Proof.Machine

open Sys2Proof

variable {c : Cmd} {s : State}

/-! ### TICK_CONFIG (R128) -/

/-- The gate of TICK_CONFIG (`execTickConfig`). -/
def tickConfigGate (c : Cmd) (s : State) : Gate := {
  opcode := 0x0201, len := c.inl 4, legal := inStates [.config], roles := actStby,
  par := (c.u8 0 == 1 || c.u8 0 == 2 || c.u8 0 == 4) && c.rsv 1 3, free := !tickHeld s && s.tick.commits.isEmpty }

/-- TICK_CONFIG names a tick length, in a state and role of its row, with no change of the length waiting and no commit armed. -/
structure TickConfigAdmitted (c : Cmd) (s : State) : Prop where
  admits : Admits c s [.config, .factoryTest] [.active, .standby]
  params : Inline c 4
  length : c.u8 0 = 1 ∨ c.u8 0 = 2 ∨ c.u8 0 = 4
  reserved : c.rsv 1 3 = true
  free : tickHeld s = false
  commits : s.tick.commits = []

section
variable (h : TickConfigAdmitted c s)
include h

theorem TickConfigAdmitted.passes : (tickConfigGate c s).Passes c s where
  serving := serving_of_mem h.admits.2.1 (by decide) (by decide)
  mailbox := mailbox_of_ne_zero h.admits.1 rfl
  test := rfl
  len := inl_of_inline h.params
  fitted := rfl
  legal := legal_of_mem' h.admits.2.1 rfl
  roles := roles_of_mem h.admits.2.2 rfl
  permit := rfl
  par := by simp [tickConfigGate, or_assoc, h.length, h.reserved]
  entry := entryReserved_of_inline h.params

theorem TickConfigAdmitted.gate_free : (tickConfigGate c s).free = true := by simp [tickConfigGate, h.free, h.commits]

/-- In an unpaired unit a length that serves what is configured waits for its boundary. -/
theorem TickConfigAdmitted.exec_waits (hpaired : s.dev.paired = false) (hserves : tickConflict s (c.u8 0) = 0) :
    execTickConfig c s = .next (awaitFirst 0x0201 c
      (pendAs 0x0201 c [.tickLength] [.config, .factoryTest] (c.u8 0) none (s.onTick (fun x => { x with newLen := some (c.u8 0) })))) := by
  unfold execTickConfig
  exact h.passes.runs (later := true) h.gate_free rfl (if_neg (by simp [hpaired, hserves]))

theorem TickConfigAdmitted.exec_conflict (hno : s.dev.paired = true ∨ tickConflict s (c.u8 0) ≠ 0) :
    execTickConfig c s =
      .next (answer 0x0201 c .conflict (le 4 (if s.dev.paired then 0 else tickConflict s (c.u8 0)) ++ le 8 0) s) := by
  unfold execTickConfig
  exact h.passes.answers h.gate_free rfl (if_pos hno)

end

/-! ### The change of the tick length -/

/-- The tick length becomes `n`, and the index the time divided by it. -/
def lengthTaken (n : Nat) (s : State) : State := s.onTick (fun x => { x with len := n, newLen := none, index := s.nowUs / n })

/-- The change as a whole: old frames, ticks counted anew where the length differs, TICK_CHANGED, the answer, and the limits of delays. -/
def lengthChanged (n : Nat) (s : State) : State :=
  limitsAgain (endPending (fun p => p.opcode == 0x0201) .ok (le 4 0 ++ le 8 (s.nowUs / n))
    (raise 0 0x001 0x0C .notice 0 (words64 ((s.tick.index : Int) - 1) ++ words64 ((s.nowUs / n : Nat) : Int))
      (when (s.tick.len != n) (reTick s.tick.index (s.nowUs / n)) (oldFrames s.tick.len n s.tick.index (lengthTaken n s)))))

theorem execTickLengthChange_due {n : Nat} (hnew : s.tick.newLen = some n) (hwhole : s.nowUs % 4 = 0) (hserving : Serving s) :
    execTickLengthChange s = .next (lengthChanged n s) := by
  simp only [execTickLengthChange, hnew]
  exact if_neg (by simp [hwhole, hserving.1, hserving.2])

theorem execTickLengthChange_not_due (h : s.tick.newLen = none ∨ s.nowUs % 4 ≠ 0) : execTickLengthChange s = .next s := by
  unfold execTickLengthChange
  split
  · rfl
  · next hnew => exact if_pos (.inl (h.resolve_left (by simp [hnew])))

/-! ### TICK_COMMIT (R124, R125) -/

/-- The earliest boundary a commit can name: c + L (Table 5.1). -/
def commitLead (s : State) : Nat := s.tick.index + leadOf s.tick.len

/-- The sets a TICK_COMMIT names. -/
def commitMask (c : Cmd) : BitVec 9 := BitVec.ofNat 9 (c.u32 8)

/-- The boundary `b` lies at most 1 ms ahead: the commit has one response (R93). -/
def commitNear (b : Nat) (s : State) : Bool := decide ((b - s.tick.index) * s.tick.len ≤ 1000)

/-- The gate of TICK_COMMIT for boundary `b` (`execTickCommit`). -/
def tickCommitGate (c : Cmd) (b : Nat) (s : State) : Gate := {
  opcode := 0x0202, len := c.inl 12, fitted := !(setsOf (commitMask c)).any (setAbsent s),
  legal := inStates [.config, .standby, .deblocked, .safeStop, .blockedFault], roles := actStby,
  par := c.u32 8 != 0 && c.u32 8 < 512 && !decide (10000000 < (b - s.tick.index) * s.tick.len),
  free := !tickHeld s && !(setsOf (commitMask c)).any (setHeld s) && !(setObjs (commitMask c)).any (held s) &&
    !((commitMask c).getLsbD 3 && (held s (.kernels 0) || held s (.kernels 1))),
  pends := !commitNear b s }

/-- TICK_COMMIT names sets that are fitted and not held, in a state and role of its row, for the boundary `b` at most 10 s ahead. -/
structure TickCommitAdmitted (c : Cmd) (b : Nat) (s : State) : Prop where
  boundary : b = if c.u64 0 = 0 then commitLead s else c.u64 0
  admits : Admits c s [.config, .standby, .deblocked, .safeStop, .blockedFault, .factoryTest] [.active, .standby]
  params : Inline c 12
  fitted : (setsOf (commitMask c)).any (setAbsent s) = false
  nonempty : 0 < c.u32 8
  known : c.u32 8 < 512
  length : tickHeld s = false
  sets : (setsOf (commitMask c)).any (setHeld s) = false
  objects : (setObjs (commitMask c)).any (held s) = false
  kernels : (commitMask c).getLsbD 3 = false ∨ (held s (.kernels 0) = false ∧ held s (.kernels 1) = false)
  within : (b - s.tick.index) * s.tick.len ≤ 10000000

/-- The commit that TICK_COMMIT arms for boundary `b`. -/
def commitFor (c : Cmd) (b : Nat) (s : State) : Commit := {
  boundary := b, mask := commitMask c, crc := stagedCrc s (commitMask c),
  matched := s.tick.partner.contains (b, c.u32 8, (stagedCrc s (commitMask c)).toNat), c := s.tick.index }

/-- The commit is armed, PENDING on the objects of its sets, and named to the partner. -/
def commitArmed (c : Cmd) (b : Nat) (s : State) : State :=
  xlSend (.commit b (c.u32 8) (stagedCrc s (commitMask c)).toNat)
    (pendAs 0x0202 c (setObjs (commitMask c)) [.config, .standby, .deblocked, .safeStop, .blockedFault, .factoryTest] b none
      (s.onTick (fun t => { t with commits := t.commits ++ [commitFor c b s] })))

/-- What TICK_COMMIT answers, with the boundary it arms or could have armed. -/
def commitResult (c : Cmd) (b : Nat) (s : State) : Bytes := le 8 b ++ le 8 s.tick.index ++ le 4 (stagedCrc s (commitMask c)).toNat

/-- What TICK_COMMIT does for boundary `b`: below c + L it arms nothing, else it arms the commit. -/
def tickCommitReply (c : Cmd) (b : Nat) (s : State) : Reply :=
  if b < commitLead s then ⟨s, .conflict, commitResult c (commitLead s) s, false⟩
  else ⟨commitArmed c b s, .pending, commitResult c b s, commitNear b s⟩

section
variable {b : Nat} (h : TickCommitAdmitted c b s)
include h

theorem TickCommitAdmitted.passes : (tickCommitGate c b s).Passes c s where
  serving := serving_of_mem h.admits.2.1 (by decide) (by decide)
  mailbox := mailbox_of_ne_zero h.admits.1 rfl
  test := rfl
  len := inl_of_inline h.params
  fitted := by simp [tickCommitGate, h.fitted]
  legal := legal_of_mem' h.admits.2.1 rfl
  roles := roles_of_mem h.admits.2.2 rfl
  permit := rfl
  par := by simp [tickCommitGate, Nat.ne_of_gt h.nonempty, h.known, h.within]
  entry := entryReserved_of_inline h.params

theorem TickCommitAdmitted.gate_free : (tickCommitGate c b s).free = true := by
  simpa [tickCommitGate, h.length, h.sets, h.objects] using h.kernels

theorem TickCommitAdmitted.exec {t : State} {st : Status} {r : Bytes} {later : Bool} (hpend : commitNear b s = true ∨ pendCount s c.mb < 8)
    (hact : tickCommitReply c b s = ⟨t, st, r, later⟩) :
    execTickCommit c s = if later then .next (awaitFirst 0x0202 c t) else .next (answer 0x0202 c st r t) := by
  have hpends : ((tickCommitGate c b s).pends && decide (8 ≤ pendCount s c.mb)) = false := by
    rcases hpend with hnear | hleft
    · simp [tickCommitGate, hnear]
    · simp [tickCommitGate, hleft]
  have hb : (if c.u64 0 = 0 then s.tick.index + leadOf s.tick.len else c.u64 0) = b := h.boundary.symm
  simp only [execTickCommit, hb]
  exact h.passes.runs h.gate_free hpends hact

/-- A boundary below c + L arms nothing. -/
theorem TickCommitAdmitted.exec_conflict (hnear : commitNear b s = true) (hlow : b < commitLead s) :
    execTickCommit c s = .next (answer 0x0202 c .conflict (commitResult c (commitLead s) s) s) :=
  h.exec (later := false) (.inl hnear) (if_pos hlow)

variable (hlead : commitLead s ≤ b)
include hlead

/-- At most 1 ms ahead the armed commit keeps its command in hand. -/
theorem TickCommitAdmitted.exec_near (hnear : commitNear b s = true) :
    execTickCommit c s = .next (awaitFirst 0x0202 c (commitArmed c b s)) :=
  h.exec (later := true) (.inl hnear) (by rw [tickCommitReply, if_neg (Nat.not_lt.mpr hlead), hnear])

/-- Farther ahead the armed commit is answered PENDING. -/
theorem TickCommitAdmitted.exec_far (hfar : commitNear b s = false) (hpend : pendCount s c.mb < 8) :
    execTickCommit c s = .next (answer 0x0202 c .pending (commitResult c b s) (commitArmed c b s)) :=
  h.exec (later := false) (.inr hpend) (by rw [tickCommitReply, if_neg (Nat.not_lt.mpr hlead), hfar])

end

/-! ### COMMIT_APPLY and COMMIT_WITHDRAW (R125, R126) -/

/-- The commits whose boundary has come. -/
def commitsDue (s : State) : List Commit := s.tick.commits.filter (fun k => k.boundary ≤ s.tick.index)

/-- The commits whose boundary has come are armed no longer, and what the partner named for it is forgotten. -/
def dueTaken (s : State) : State :=
  s.onTick (fun t => { t with
    commits := s.tick.commits.filter (fun k => s.tick.index < k.boundary), partner := t.partner.filter (fun e => s.tick.index < e.1) })

section
variable {k : Commit} {good : BitVec 9}

theorem execCommitApply_none (hdue : commitsDue s = []) : execCommitApply good s = .next (dueTaken s) :=
  congrArg (fun l => Host.Outcome.next (List.foldl _ (dueTaken s) l)) hdue

theorem execCommitApply_one (hdue : commitsDue s = [k]) : execCommitApply good s =
    .next (if unmatched s k then commitFail k 1 (dueTaken s)
      else if (k.mask &&& s.tick.staged &&& ~~~good) = 0 then commitNow k (dueTaken s) else commitFail k 0 (dueTaken s)) :=
  congrArg (fun l => Host.Outcome.next (List.foldl _ (dueTaken s) l)) hdue

/-- A commit that the partner has not matched with its boundary 10 µs ahead. -/
def withdrawn (s : State) (k : Commit) : Bool := !k.matched && withdrawDue s.tick.len (k.boundary - s.tick.index)

theorem execCommitWithdraw_one (hpaired : s.dev.paired = true) (hsilent : s.red.silent = false)
    (hdue : s.tick.commits.filter (withdrawn s) = [k]) : execCommitWithdraw s =
    .next (commitFail k 1 (s.onTick (fun t => { t with commits := t.commits.filter (fun k => !withdrawn s k) }))) :=
  (if_neg (by simp [hpaired, hsilent])).trans (congrArg (fun l => Host.Outcome.next (List.foldl _ _ l)) hdue)

theorem execCommitWithdraw_alone (h : s.dev.paired = false ∨ s.red.silent = true) : execCommitWithdraw s = .next s :=
  if_pos (by simpa using h)

end

/-- Settles O8: each command's gate passes under the conditions of its clause, and its action takes the branch they name; of the commits,
exactly one or none is due. -/
theorem tickCommandsStageAndArm : Obligations.TickCommandsStageAndArm := by
  refine ⟨?config, ?configConflict, ?configPaired, ?changed, ?sameLength, ?noChange, ?commitLow, ?commitZero, ?commitNamed, ?commitFar,
    ?applied, ?badCrc, ?notMatched, ?noneDue, ?withdraw, ?alone⟩
  case config =>
    intro c s hadmits hinline hlen hrsv hheld hcommits hpaired hserves
    exact TickConfigAdmitted.exec_waits ⟨hadmits, hinline, hlen, hrsv, hheld, hcommits⟩ hpaired hserves
  case configConflict =>
    intro c s hadmits hinline hlen hrsv hheld hcommits hpaired hno
    have h : TickConfigAdmitted c s := ⟨hadmits, hinline, hlen, hrsv, hheld, hcommits⟩
    exact (h.exec_conflict (.inr hno)).trans (by rw [hpaired]; rfl)
  case configPaired =>
    intro c s hadmits hinline hlen hrsv hheld hcommits hpaired
    have h : TickConfigAdmitted c s := ⟨hadmits, hinline, hlen, hrsv, hheld, hcommits⟩
    exact (h.exec_conflict (.inl hpaired)).trans (by rw [hpaired]; rfl)
  case changed =>
    intro s n hnew hwhole hserving hother
    exact (execTickLengthChange_due hnew hwhole hserving).trans (by rw [lengthChanged, when_of_true (by simpa using hother)]; rfl)
  case sameLength =>
    intro s n hnew hwhole hserving hsame
    exact (execTickLengthChange_due hnew hwhole hserving).trans (by rw [lengthChanged, when_of_false (by simpa using hsame)]; rfl)
  case noChange => exact fun s h => execTickLengthChange_not_due h
  case commitLow =>
    intro c s hadmits hinline hfitted hsome hknown hheld hsets hobjs hload hnamed hlow hnear
    have h : TickCommitAdmitted c (c.u64 0) s := ⟨(if_neg (Nat.ne_of_gt hnamed)).symm, hadmits, hinline, hfitted, hsome, hknown, hheld,
      hsets, hobjs, hload, by omega⟩
    exact h.exec_conflict (decide_eq_true hnear) hlow
  case commitZero =>
    intro c s hadmits hinline hfitted hsome hknown hheld hsets hobjs hload hzero hnear
    have hahead : (commitLead s - s.tick.index) * s.tick.len ≤ 1000 := by rwa [commitLead, Nat.add_sub_cancel_left]
    have h : TickCommitAdmitted c (commitLead s) s := ⟨(if_pos hzero).symm, hadmits, hinline, hfitted, hsome, hknown, hheld, hsets, hobjs,
      hload, by omega⟩
    exact h.exec_near (Nat.le_refl _) (decide_eq_true hahead)
  case commitNamed =>
    intro c s hadmits hinline hfitted hsome hknown hheld hsets hobjs hload hnamed hlead hnear
    have h : TickCommitAdmitted c (c.u64 0) s := ⟨(if_neg (Nat.ne_of_gt hnamed)).symm, hadmits, hinline, hfitted, hsome, hknown, hheld,
      hsets, hobjs, hload, by omega⟩
    exact h.exec_near hlead (decide_eq_true hnear)
  case commitFar =>
    intro c s hadmits hinline hfitted hsome hknown hheld hsets hobjs hload hnamed hlead hfar hwithin hpend
    have h : TickCommitAdmitted c (c.u64 0) s := ⟨(if_neg (Nat.ne_of_gt hnamed)).symm, hadmits, hinline, hfitted, hsome, hknown, hheld,
      hsets, hobjs, hload, hwithin⟩
    exact h.exec_far hlead (decide_eq_false (Nat.not_le.mpr hfar)) hpend
  case applied =>
    intro s k good hdue hmatched hcrc
    exact (execCommitApply_one hdue).trans (by rw [if_neg (by simp [hmatched]), if_pos hcrc]; rfl)
  case badCrc =>
    intro s k good hdue hmatched hcrc
    exact (execCommitApply_one hdue).trans (by rw [if_neg (by simp [hmatched]), if_neg hcrc]; rfl)
  case notMatched =>
    intro s k good hdue hunmatched
    exact (execCommitApply_one hdue).trans (by rw [if_pos hunmatched]; rfl)
  case noneDue => exact fun s good hdue => execCommitApply_none hdue
  case withdraw => exact fun s k hpaired hsilent hdue => execCommitWithdraw_one hpaired hsilent hdue
  case alone => exact fun s h => execCommitWithdraw_alone h

end Sys2Proof.Machine

/-! PROOFS. The events of the insertion engine end windows, report, rotate, recompute and save (R121, R214, R217, R222, R226, O24). -/

namespace Sys2Proof.Machine

open Sys2Proof

variable {s : State} {a : Nat} {k : ArmCfg}

/-- The clamp window of an arm that is configured and fitted ends (R226). -/
theorem execAieClampWindowEnd_configured (hcfg : armCfg s a = some k) (hok : armOk s a = true) :
    execAieClampWindowEnd a s = .next (clampWindow a k s) := by
  simp [execAieClampWindowEnd, hcfg, hok]

theorem execAieClampWindowEnd_no_arm (h : armCfg s a = none ∨ armOk s a = false) : execAieClampWindowEnd a s = .next s := by
  unfold execAieClampWindowEnd
  split
  · next hcfg => exact if_neg (by simp [h.resolve_left (by simp [hcfg])])
  · rfl

/-- A MISMATCH of 64 ticks is reported (R222). -/
theorem execAieUnresolved_due (hmismatch : (armGet s a).mismatch = true) (hlong : 64 ≤ (armGet s a).mmTicks)
    (hnew : (armGet s a).unresolved = false) :
    execAieUnresolved a s = .next (aieEvent a 0x09 .contained a [] (armUpd a (fun x => { x with unresolved := true }) s)) :=
  if_pos ⟨hmismatch, hlong, by simp [hnew]⟩

theorem execAieUnresolved_not_due (h : (armGet s a).mismatch = false ∨ (armGet s a).mmTicks < 64 ∨ (armGet s a).unresolved = true) :
    execAieUnresolved a s = .next s := by
  refine if_neg ?_
  rintro ⟨hmismatch, hlong, hnew⟩
  rcases h with h | h | h
  · simp [h] at hmismatch
  · omega
  · simp [h] at hnew

/-- The designated cell has had its rotation interval (R214). -/
theorem execDesignatedCellRotate_due (hcfg : armCfg s a = some k) (hrunning : running s = true) (hrot : 0 < k.rot)
    (hage : k.rot ≤ (armGet s a).desigAge) :
    execDesignatedCellRotate a s = .next (armUpd a (fun x => { x with desigAge := k.rot }) s) := by
  simp [execDesignatedCellRotate, hcfg, hrunning, hrot, hage]

theorem execDesignatedCellRotate_not_due
    (h : running s = false ∨ (armCfg s a).all (fun k => k.rot == 0 || decide ((armGet s a).desigAge < k.rot)) = true) :
    execDesignatedCellRotate a s = .next s := by
  unfold execDesignatedCellRotate
  split
  · next k hcfg =>
    refine if_neg ?_
    rintro ⟨hrunning, hrot, hage⟩
    have hyoung := h.resolve_left (by simp [hrunning])
    simp only [hcfg, Option.all_some, Bool.or_eq_true, beq_iff_eq, decide_eq_true_eq] at hyoung
    omega
  · rfl

/-- Three overruns of an arm ask for a controlled block (R121). -/
theorem execArmOverrunLimit_due (hrunning : running s = true) (hthree : 3 ≤ tget 0 s.tick.overCnt a) :
    execArmOverrunLimit a s = .next (aieEvent a 0x02 .notice a [] (controlledBlock s)) :=
  if_pos ⟨hrunning, hthree⟩

theorem execArmOverrunLimit_not_due (h : running s = false ∨ tget 0 s.tick.overCnt a < 3) : execArmOverrunLimit a s = .next s := by
  refine if_neg ?_
  rintro ⟨hrunning, hthree⟩
  rcases h with h | h
  · simp [h] at hrunning
  · omega

/-- Settles O24: each event acts where its condition holds and nowhere else. -/
theorem insertionEngineEvents : Obligations.InsertionEngineEvents := by
  refine ⟨?clamp, ?noClamp, ?unresolved, ?resolved, ?rotate, ?noRotate, ?wear, ?overrun, ?noOverrun⟩
  case clamp => exact fun _ _ _ hcfg hok => execAieClampWindowEnd_configured hcfg hok
  case noClamp => exact fun _ _ h => execAieClampWindowEnd_no_arm h
  case unresolved => exact fun _ _ hmismatch hlong hnew => execAieUnresolved_due hmismatch hlong hnew
  case resolved => exact fun _ _ h => execAieUnresolved_not_due h
  case rotate => exact fun _ _ _ hcfg hrunning hrot hage => execDesignatedCellRotate_due hcfg hrunning hrot hage
  case noRotate => exact fun _ _ h => execDesignatedCellRotate_not_due h
  case wear => exact fun _ => ⟨rfl, rfl⟩
  case overrun => exact fun _ _ hrunning hthree => execArmOverrunLimit_due hrunning hthree
  case noOverrun => exact fun _ _ h => execArmOverrunLimit_not_due h

end Sys2Proof.Machine

/-! PROOFS. Bursts are judged, cells are marked and re-ranged, REJOIN times out, SAFE_SEL and ECC errors are met (R150, R157, R194, R200,
R201, O20). -/

namespace Sys2Proof.Machine

open Sys2Proof

variable {s : State}

/-! ### Bursts (R150) -/

section
variable {p k : Nat} {b : BurstIn} (hroster : (cellGet s (128 * p + k)).roster.isSome = true) (hdclk : (portGet s p).state.dclk = true)
include hroster hdclk

/-- In the slot of a rostered cell while DCLK runs, what the LNK reads decides. -/
theorem execUpstreamBurstReceive_in_slot :
    execUpstreamBurstReceive p k b s = match readBurst b.bits with
      | none => .next (burstDiscarded (128 * p + k) s)
      | some (inv, w) =>
        if b.e.natAbs ≤ 320 ∧ ((!inv) = true ∨ (cellGet s (128 * p + k)).flags.getLsbD 0 = true) ∧ w.extractLsb' 62 2 ≠ 3#2 then
          .next (burstValid (128 * p + k) b.e w s)
        else .next (burstDiscarded (128 * p + k) s) :=
  if_neg (by simp [Option.isNone_eq_false_iff.mpr hroster, hdclk])

theorem execUpstreamBurstReceive_unread (hread : readBurst b.bits = none) :
    execUpstreamBurstReceive p k b s = .next (burstDiscarded (128 * p + k) s) := by
  rw [execUpstreamBurstReceive_in_slot hroster hdclk, hread]

variable {inv : Bool} {w : Word64} (hread : readBurst b.bits = some (inv, w))
include hread

theorem execUpstreamBurstReceive_rejected
    (h : 320 < b.e.natAbs ∨ (inv = true ∧ (cellGet s (128 * p + k)).flags.getLsbD 0 = false) ∨ w.extractLsb' 62 2 = 3#2) :
    execUpstreamBurstReceive p k b s = .next (burstDiscarded (128 * p + k) s) := by
  rw [execUpstreamBurstReceive_in_slot hroster hdclk, hread]
  refine if_neg ?_
  rintro ⟨hplace, hpolarity, hkind⟩
  rcases h with h | ⟨hinv, hflag⟩ | h
  · omega
  · rcases hpolarity with hplain | hrecorded
    · simp [hinv] at hplain
    · exact Bool.false_ne_true (hflag.symm.trans hrecorded)
  · exact hkind h

theorem execUpstreamBurstReceive_accepted (hplace : b.e.natAbs ≤ 320)
    (hpolarity : inv = false ∨ (cellGet s (128 * p + k)).flags.getLsbD 0 = true) (hkind : w.extractLsb' 62 2 ≠ 3#2) :
    execUpstreamBurstReceive p k b s = .next (burstValid (128 * p + k) b.e w s) := by
  rw [execUpstreamBurstReceive_in_slot hroster hdclk, hread]
  exact if_pos ⟨hplace, hpolarity.imp_left (fun hplain => by simp [hplain]), hkind⟩

end

theorem execUpstreamBurstReceive_elsewhere {p k : Nat} {b : BurstIn}
    (h : (cellGet s (128 * p + k)).roster = none ∨ (portGet s p).state.dclk = false) : execUpstreamBurstReceive p k b s = .next s :=
  if_pos (h.imp (fun hnone => by simp [hnone]) (fun hstopped => by simp [hstopped]))

/-! ### Marked cells (R157, R158) -/

variable {cid : Nat}

/-- A cell marked for re-ranging does not count as reachable. -/
theorem mark_eq_false_of_reachable {c : CellCtx} (h : reachable c = true) : c.mark = false := by
  simp only [reachable, cellAway, Bool.and_eq_true, Bool.not_eq_true'] at h
  obtain ⟨⟨hroster, -⟩, haway⟩ := h
  simp_all

theorem execRerangingMark_runs (hroster : (cellGet s cid).roster.isSome = true) (hmark : (cellGet s cid).mark = true)
    (hfree : (portGet s (cid / 128)).run = none)
    (hstate : (portGet s (cid / 128)).state = .inService ∨ (portGet s (cid / 128)).state = .verify ∨
      (portGet s (cid / 128)).state = .waking) :
    execRerangingMark cid s = .next (startRun (cid / 128) (cid % 128) 1 true s) :=
  if_pos ⟨hroster, hmark, by simp [hfree], hstate⟩

theorem execRerangingMark_marks (hreach : reachable (cellGet s cid) = true) (hbad : 8 ≤ (cellGet s cid).discRun) :
    execRerangingMark cid s = .next (markCell cid s) :=
  (if_neg (by simp [mark_eq_false_of_reachable hreach])).trans (if_pos ⟨hreach, hbad⟩)

theorem execRerangingMark_stays
    (h : (cellGet s cid).roster = none ∨ ((cellGet s cid).mark = false ∧ (cellGet s cid).discRun < 8)) :
    execRerangingMark cid s = .next s := by
  rcases h with hnone | ⟨hmark, hfew⟩
  · exact (if_neg (by simp [hnone])).trans (if_neg (by simp [reachable, hnone]))
  · exact (if_neg (by simp [hmark])).trans (if_neg (by simp [hfew]))

/-! ### REJOIN, SAFE_SEL and ECC errors (R194, R200, R201) -/

theorem execRejoinTimeout_due {k : Nat} (hrejoin : (cellGet s cid).rejoin = some k) (hlate : k + 1024 ≤ s.tick.index)
    (hpending : (cellGet s cid).health = .pending) :
    execRejoinTimeout cid s = .next (setHealth cid .failed 7 (cellUpd cid (fun x => { x with rejoin := none }) s)) := by
  simp only [execRejoinTimeout, hrejoin]
  exact if_pos ⟨by omega, hpending⟩

theorem execRejoinTimeout_not_due
    (h : (cellGet s cid).rejoin.all (fun k => decide (s.tick.index < k + 1024)) = true ∨ (cellGet s cid).health ≠ .pending) :
    execRejoinTimeout cid s = .next s := by
  unfold execRejoinTimeout
  split
  next k hrejoin =>
    refine if_neg ?_
    rintro ⟨hlate, hpending⟩
    have hearly : s.tick.index < k + 1024 := by simpa [hrejoin, hpending] using h
    omega
  next => rfl

/-- Settles O20: for each event, the branch of its meaning that the condition of the clause takes. -/
theorem burstsAndCellsAreJudged : Obligations.BurstsAndCellsAreJudged := by
  refine ⟨?unread, ?rejected, ?accepted, ?elsewhere, ?run, ?mark, ?stay, ?rejoinLate, ?rejoinEarly, ?selBad, ?selGood, ?ecc, ?noPort⟩
  case unread => exact fun _ _ _ _ hroster hdclk hread => execUpstreamBurstReceive_unread hroster hdclk hread
  case rejected => exact fun _ _ _ _ _ _ hroster hdclk hread h => execUpstreamBurstReceive_rejected hroster hdclk hread h
  case accepted =>
    exact fun _ _ _ _ _ _ hroster hdclk hread hplace hpolarity hkind =>
      execUpstreamBurstReceive_accepted hroster hdclk hread hplace hpolarity hkind
  case elsewhere => exact fun _ _ _ _ h => execUpstreamBurstReceive_elsewhere h
  case run => exact fun _ _ hroster hmark hfree hstate => execRerangingMark_runs hroster hmark hfree hstate
  case mark => exact fun _ _ hreach hbad => execRerangingMark_marks hreach hbad
  case stay => exact fun _ _ h => execRerangingMark_stays h
  case rejoinLate => exact fun _ _ _ hrejoin hlate hpending => execRejoinTimeout_due hrejoin hlate hpending
  case rejoinEarly => exact fun _ _ h => execRejoinTimeout_not_due h
  case selBad => exact fun _ _ hbad => if_pos hbad
  case selGood => exact fun _ _ hgood => if_neg (Nat.not_le.mpr hgood)
  case ecc => exact fun _ _ _ _ hfitted => if_neg (by simp [hfitted])
  case noPort => exact fun _ _ _ _ hfitted => if_pos (by simp [hfitted])

end Sys2Proof.Machine

/-! PROOFS. What a row of a cell controller makes of its cell, and what the loss of an interface leaves of it (R189). -/

namespace Sys2Proof.Machine

open Sys2Proof

variable {c : CellCtl} {b : Bool}

/-- The outcome of a row of a cell controller, by the value it makes of its cell. -/
theorem next_ctlUpd {cid : Nat} {s : State} {v : CellCtl} {f : CellCtl → CellCtl} (hget : ctlGet s cid = c) (hmade : f c = v) :
    (.next (ctlUpd cid f s) : Out) = .next (ctlUpd cid (fun _ => v) s) :=
  congrArg _ (ctlUpd_eq hget hmade)

@[simp] theorem CellCtl.setIface_state (i : Iface) : (c.setIface b i).state = c.state := by cases b <;> rfl

@[simp] theorem CellCtl.errs_state (n : Nat) : (c.errs n).state = c.state := rfl

/-! ### An interface is lost (R189) -/

/-- From LOCKED, BLOCKED and RUNNING, the states that the loss of the link ends: to SAFE on the condition given. -/
def CellCtl.toSafe (c : CellCtl) (ends : Bool) : CellCtl :=
  match c.state with
  | .locked | .blocked | .running => if ends then c.enter .safe else c
  | _ => c

theorem CellCtl.toSafe_of_active (h : c.state = .running ∨ c.state = .blocked ∨ c.state = .locked) : c.toSafe true = c.enter .safe := by
  rcases h with h | h | h <;> simp [toSafe, h]

theorem CellCtl.toSafe_false : c.toSafe false = c := by
  unfold toSafe
  split <;> rfl

theorem CellCtl.toSafe_of_not_active {ends : Bool} (hrunning : c.state ≠ .running) (hblocked : c.state ≠ .blocked)
    (hlocked : c.state ≠ .locked) : c.toSafe ends = c := by
  unfold toSafe
  split
  · contradiction
  · contradiction
  · contradiction
  · rfl

/-- What the loss of an interface takes from the cell before its state is looked at. -/
def CellCtl.dropIface (c : CellCtl) (b : Bool) : CellCtl :=
  { (c.setIface b { c.iface b with locked := false, valid := false, adopt := none, last := none, due := [], rx := {} }) with
    held := c.held.filter (fun d => d.onB != b), due := c.due.filter (fun d => d.onB != b) }

@[simp] theorem CellCtl.dropIface_state : (c.dropIface b).state = c.state := c.setIface_state _

theorem CellCtl.dropIface_false : c.dropIface false =
    { c with
      ifA := { c.ifA with locked := false, valid := false, adopt := none, last := none, due := [], rx := {} }
      held := c.held.filter (fun d => d.onB), due := c.due.filter (fun d => d.onB) } := by
  simp [dropIface, setIface, iface]

theorem CellCtl.dropIface_true : c.dropIface true =
    { c with
      ifB := { c.ifB with locked := false, valid := false, adopt := none, last := none, due := [], rx := {} }
      held := c.held.filter (fun d => !d.onB), due := c.due.filter (fun d => !d.onB) } := by
  simp [dropIface, setIface, iface]

/-- With this interface gone, the cell has none left exactly where the other is not in use or not locked. -/
theorem CellCtl.dropIface_lost :
    ((!(c.dropIface b).ifA.inUse || !(c.dropIface b).ifA.locked) && (!(c.dropIface b).ifB.inUse || !(c.dropIface b).ifB.locked)) =
      (!(c.iface !b).inUse || !(c.iface !b).locked) := by
  cases b <;> simp [dropIface, setIface, iface]

theorem CellCtl.ifaceLost_eq : c.ifaceLost b = (c.dropIface b).toSafe (!(c.iface !b).inUse || !(c.iface !b).locked) := by
  rw [← dropIface_lost]
  rfl

/-- The cell goes to SAFE where no interface in use is left. -/
theorem CellCtl.ifaceLost_last (hother : (c.iface !b).inUse = false ∨ (c.iface !b).locked = false)
    (hstate : c.state = .running ∨ c.state = .blocked ∨ c.state = .locked) : c.ifaceLost b = (c.dropIface b).enter .safe := by
  have hlost : (!(c.iface !b).inUse || !(c.iface !b).locked) = true := by simpa using hother
  rw [ifaceLost_eq, hlost]
  exact toSafe_of_active (by rwa [dropIface_state])

theorem CellCtl.ifaceLost_stays
    (h : ((c.iface !b).inUse = true ∧ (c.iface !b).locked = true) ∨ (c.state ≠ .running ∧ c.state ≠ .blocked ∧ c.state ≠ .locked)) :
    c.ifaceLost b = c.dropIface b := by
  rw [ifaceLost_eq]
  rcases h with ⟨huse, hlock⟩ | ⟨hrunning, hblocked, hlocked⟩
  · simpa [huse, hlock] using toSafe_false
  · exact toSafe_of_not_active (by rwa [dropIface_state]) (by rwa [dropIface_state]) (by rwa [dropIface_state])

end Sys2Proof.Machine

/-! PROOFS. A cell controller powers up, finds word lock, and takes frames and messages (R135, R146, R147, R165, R172, R174, R178 to R182,
R191, O21). -/

namespace Sys2Proof.Machine

open Sys2Proof

/-! ### Frames (R179 to R181) -/

/-- The cell once a frame whose HC matches has brought its interface what it holds for that interface: at once, or for its boundary. -/
def CellCtl.brought (c : CellCtl) (n : Nat) (b : Bool) (f : FrameIn) (ok : Bool) : CellCtl :=
  c.setIface b (if diff56 (extendBase f.base ((c.iface b).reading n)) ((c.iface b).reading n) ≤ 0 then
    (c.iface b).apply ⟨extendBase f.base ((c.iface b).reading n), ok, f.quiet, f.mgmt.filter (fun m => m.code.toNat < 4)⟩
  else
    { c.iface b with due := (c.iface b).due ++
      [⟨extendBase f.base ((c.iface b).reading n), ok, f.quiet, f.mgmt.filter (fun m => m.code.toNat < 4)⟩] })

/-- What becomes of the frame itself, on an interface that reads `now` at cycle `n`. -/
def CellCtl.judgeFrame (c : CellCtl) (n now : Nat) (d : FrameDue) (ok : Bool) : CellCtl :=
  if !(d.frame.hc && d.frame.group) then err c
  else if frameOld c d.frame d.base ∨ !ok then c
  else if d.frame.active ∨ 0 ≤ diff56 now (c.deadline d.base) then c.take n d
  else if c.held.isSome then c else { c with held := some d }

section
variable {c : CellCtl} {n now : Nat} {d : FrameDue}

theorem CellCtl.judgeFrame_bad {ok : Bool} (hbad : d.frame.hc = false ∨ d.frame.group = false) : c.judgeFrame n now d ok = err c :=
  if_pos (by rcases hbad with h | h <;> simp [h])

section
variable (hhc : d.frame.hc = true) (hgroup : d.frame.group = true)
include hhc hgroup

theorem CellCtl.judgeFrame_old (hold : frameOld c d.frame d.base = true) : c.judgeFrame n now d true = c :=
  (if_neg (by simp [hhc, hgroup])).trans (if_pos (.inl hold))

variable (hnew : frameOld c d.frame d.base = false)
include hnew

theorem CellCtl.judgeFrame_takes (hnow : d.frame.active = true ∨ 0 ≤ diff56 now (c.deadline d.base)) :
    c.judgeFrame n now d true = c.take n d :=
  (if_neg (by simp [hhc, hgroup])).trans ((if_neg (by simp [hnew])).trans (if_pos hnow))

theorem CellCtl.judgeFrame_holds (hpassive : d.frame.active = false) (hearly : diff56 now (c.deadline d.base) < 0) :
    c.judgeFrame n now d true = if c.held.isSome then c else { c with held := some d } :=
  (if_neg (by simp [hhc, hgroup])).trans ((if_neg (by simp [hnew])).trans (if_neg (by simp [hpassive, hearly])))

end
end

section
variable {c : CellCtl} {n : Nat} {b : Bool} {f : FrameIn}

theorem CellCtl.frame_eq :
    c.frame n b f =
      (if f.hc && (c.iface b).valid then
        c.brought n b f (frameValid (c.iface b) f (extendBase f.base ((c.iface b).reading n)) ((c.iface b).reading n))
      else c).judgeFrame n ((c.iface b).reading n) ⟨b, extendBase f.base ((c.iface b).reading n), f⟩
        (frameValid (c.iface b) f (extendBase f.base ((c.iface b).reading n)) ((c.iface b).reading n)) := rfl

theorem CellCtl.frame_of_valid (hhc : f.hc = true) (hvalid : (c.iface b).valid = true)
    (hok : frameValid (c.iface b) f (extendBase f.base ((c.iface b).reading n)) ((c.iface b).reading n) = true) :
    c.frame n b f = (c.brought n b f true).judgeFrame n ((c.iface b).reading n) ⟨b, extendBase f.base ((c.iface b).reading n), f⟩ true := by
  rw [frame_eq, hok, if_pos (by simp [hhc, hvalid])]

theorem CellCtl.frame_bad (hbad : f.hc = false ∨ f.group = false) (hvalid : (c.iface b).valid = false) : c.frame n b f = err c := by
  rw [frame_eq, if_neg (by simp [hvalid])]
  exact judgeFrame_bad hbad

end

/-! ### The rows -/

section
variable {s : State} {cid : Nat} {c : CellCtl} {b : Bool} (hget : ctlGet s cid = c)
include hget

theorem execCellPowerUp_other {i : BitVec 48} (h : c.byp = false ∨ c.identity ≠ i) :
    execCellPowerUp cid i s = .next (ctlUpd cid (fun _ => { identity := i, full := (i.extractLsb' 46 2) == 1#2 }) s) :=
  next_ctlUpd hget (if_neg fun ⟨hbyp, hsame⟩ => h.elim (by simp [hbyp]) (absurd hsame))

/-- A sub-module that has closed its permanent bypass keeps it closed (R177). -/
theorem execCellPowerUp_bypassed (hbyp : c.byp = true) :
    execCellPowerUp cid c.identity s = .next (ctlUpd cid (fun _ =>
      { identity := c.identity, full := (c.identity.extractLsb' 46 2) == 1#2, state := .bypassed, byp := true }) s) :=
  next_ctlUpd hget (if_pos ⟨hbyp, rfl⟩)

/-- Each word goes through the receiver; losing lock is a loss of the interface, gaining it takes UNLOCKED to LOCKED (R135, R174). -/
theorem execCellWordLock_folds {line : List (BitVec 34)} :
    execCellWordLock cid b line s = .next (ctlUpd cid (fun _ => line.foldl (fun x w =>
      if (x.iface b).locked = true ∧ ((x.setIface b ((x.iface b).word w)).iface b).locked = false then
        (x.setIface b ((x.iface b).word w)).ifaceLost b
      else if (x.iface b).locked = false ∧ ((x.setIface b ((x.iface b).word w)).iface b).locked = true ∧
          (x.setIface b ((x.iface b).word w)).state = .unlocked then
        (x.setIface b ((x.iface b).word w)).enter .locked
      else x.setIface b ((x.iface b).word w)) c) s) :=
  next_ctlUpd hget (congrArg (fun step => line.foldl step c) (funext fun x => funext fun w => by
    simp only [Bool.and_eq_true, Bool.not_eq_true', beq_iff_eq, and_assoc]))

/-! #### Frames -/

variable {rx : LineRx}

theorem execCellFrameTake_none (h : (c.iface b).locked = false ∨ findFrame (cid % 128) rx.line = none) :
    execCellFrameTake cid b rx s = .next (ctlUpd cid (fun _ => c) s) := by
  refine next_ctlUpd hget ?_
  rcases h with h | h <;> simp [h]

theorem execCellFrameTake_some {f : FrameIn} {v : CellCtl} (hlocked : (c.iface b).locked = true)
    (hframe : findFrame (cid % 128) rx.line = some f) (hmade : c.frame (cycleAt s rx.cycle) b f = v) :
    execCellFrameTake cid b rx s = .next (ctlUpd cid (fun _ => v) s) :=
  next_ctlUpd hget ((if_neg (by simp [hlocked])).trans (by rw [hframe]; exact hmade))

theorem execCellFrameDeadline_none {cycle : Nat} (hheld : c.held = none) :
    execCellFrameDeadline ⟨cid, cycle⟩ s = .next (ctlUpd cid (fun _ => c) s) :=
  next_ctlUpd hget (by simp only [hheld])

/-- At the deadline of the frame held, it is taken unless its tick has been (R180). -/
theorem execCellFrameDeadline_some {cycle : Nat} {d : FrameDue} (hheld : c.held = some d) :
    execCellFrameDeadline ⟨cid, cycle⟩ s = .next (ctlUpd cid (fun _ =>
      if diff56 ((c.iface d.onB).reading (cycleAt s cycle)) (c.deadline d.base) < 0 then c
      else if frameOld c d.frame d.base = true then { c with held := none } else c.take (cycleAt s cycle) d) s) :=
  next_ctlUpd hget (by simp only [hheld])

/-! #### Messages (R146, R147, R165) -/

section
variable {u : BitVec 4} {k : Byte} {n : Nat} (hlocked : (c.iface b).locked = true)
include hlocked

section
variable (hmsg : findMsg 0 rx.line = (some (.block u k), n))
include hmsg

theorem execCellBlockAccept_blocked (hstate : c.state = .running ∨ c.state = .safe) :
    execCellBlockAccept cid b rx s = .next (ctlUpd cid (fun _ =>
      ({ ((c.errs n).stopHold (cycleAt s rx.cycle)) with pattern := .block } : CellCtl).enter .blocked) s) := by
  refine next_ctlUpd hget ((if_neg (by simp [hlocked])).trans ?_)
  rcases hstate with h | h <;> simp only [hmsg, h]

theorem execCellBlockAccept_locked (hstate : c.state = .locked) :
    execCellBlockAccept cid b rx s = .next (ctlUpd cid (fun _ =>
      { ((c.errs n).stopHold (cycleAt s rx.cycle)) with pattern := .block, lockBlk := true }) s) := by
  refine next_ctlUpd hget ((if_neg (by simp [hlocked])).trans ?_)
  simp only [hmsg, hstate]

theorem execCellBlockAccept_stays (hrunning : c.state ≠ .running) (hsafe : c.state ≠ .safe) (hother : c.state ≠ .locked) :
    execCellBlockAccept cid b rx s = .next (ctlUpd cid (fun _ =>
      { ((c.errs n).stopHold (cycleAt s rx.cycle)) with pattern := .block }) s) := by
  refine next_ctlUpd hget ((if_neg (by simp [hlocked])).trans ?_)
  rw [hmsg]
  dsimp only
  split
  · contradiction
  · contradiction
  · contradiction
  · rfl

end

section
variable (hmsg : findMsg 0 rx.line = (some (.safe u k), n))
include hmsg

theorem execCellSafeAccept_safe (hstate : c.state = .running ∨ c.state = .blocked ∨ c.state = .locked) :
    execCellSafeAccept cid b rx s = .next (ctlUpd cid (fun _ => ((c.errs n).stopHold (cycleAt s rx.cycle)).enter .safe) s) := by
  refine next_ctlUpd hget ((if_neg (by simp [hlocked])).trans ?_)
  rcases hstate with h | h | h <;> simp only [hmsg, h]

theorem execCellSafeAccept_stays (hrunning : c.state ≠ .running) (hblocked : c.state ≠ .blocked) (hother : c.state ≠ .locked) :
    execCellSafeAccept cid b rx s = .next (ctlUpd cid (fun _ => (c.errs n).stopHold (cycleAt s rx.cycle)) s) := by
  refine next_ctlUpd hget ((if_neg (by simp [hlocked])).trans ?_)
  rw [hmsg]
  dsimp only
  split
  · contradiction
  · contradiction
  · contradiction
  · rfl

end

section
variable {t : BitVec 56} {e : Nat} (hmsg : findMsg 0 rx.line = (some (.timeSet t), n))
include hmsg

theorem execCellTimeSetAccept_at_once (hvalid : (c.iface b).valid = false) :
    execCellTimeSetAccept cid b rx e s = .next (ctlUpd cid (fun _ =>
      { ((c.errs n).setIface b { c.iface b with
          counter := t + BitVec.ofNat 56 ((c.iface b).dDown + e), epoch := cycleAt s rx.cycle, valid := true, last := none, dnSleep := false })
        with adopted := true }) s) :=
  next_ctlUpd hget ((if_neg (by simp [hlocked])).trans (by rw [hmsg]; exact if_neg (by simp [hvalid])))

theorem execCellTimeSetAccept_at_boundary (hvalid : (c.iface b).valid = true) :
    execCellTimeSetAccept cid b rx e s = .next (ctlUpd cid (fun _ =>
      (c.errs n).setIface b { c.iface b with
        adopt := some (t + BitVec.ofNat 56 ((c.iface b).dDown + e), cycleAt s rx.cycle), dnSleep := false }) s) :=
  next_ctlUpd hget ((if_neg (by simp [hlocked])).trans (by rw [hmsg]; exact if_pos hvalid))

end

/-- SLEEP acts on its interface; a downstream sleep takes a cell in BLOCKED or SAFE to ASLEEP. -/
theorem execCellSleepAccept_sleep {up dn : Bool} {before line : List LineWord} (hmsg : findMsg 0 (before ++ line) = (some (.sleep up dn), n)) :
    execCellSleepAccept cid b before line s = .next (ctlUpd cid (fun _ =>
      if dn = true ∧ (c.state = .blocked ∨ c.state = .safe) then
        ((c.errs n).setIface b { c.iface b with
          upSleep := up, dnSleep := dn, due := (c.iface b).due.map (fun d => { d with quiet := d.quiet || up }) }).enter .asleep
      else (c.errs n).setIface b { c.iface b with
          upSleep := up, dnSleep := dn, due := (c.iface b).due.map (fun d => { d with quiet := d.quiet || up }) }) s) :=
  next_ctlUpd hget ((if_neg (by simp [hlocked])).trans (by simp only [hmsg, CellCtl.setIface_state, CellCtl.errs_state]))

end

/-! #### The block hold (R182) -/

variable {cycle a : Nat} {ended : Bool}

theorem execCellBlockHoldEnd_over (hhold : c.hold = some (a, ended)) (hlate : a + 1024000 ≤ dclkUnits (cycleAt s cycle)) :
    execCellBlockHoldEnd ⟨cid, cycle⟩ s = .next (ctlUpd cid (fun _ => { c with hold := some (a, true) }) s) :=
  next_ctlUpd hget (by simp only [hhold, hlate, if_true])

theorem execCellBlockHoldEnd_not_over
    (h : ∀ a ended, c.hold = some (a, ended) → dclkUnits (cycleAt s cycle) < a + 1024000) :
    execCellBlockHoldEnd ⟨cid, cycle⟩ s = .next (ctlUpd cid (fun _ => c) s) := by
  refine next_ctlUpd hget ?_
  split
  next a ended hhold => exact if_neg (Nat.not_le.mpr (h a ended hhold))
  next => rfl

end

/-- Settles O21: for each row, what it makes of the cell under the condition of the clause. -/
theorem cellControllersTakeMessages : Obligations.CellControllersTakeMessages := by
  refine ⟨?powerUp, ?bypassed, ?words, ?noFrame, ?badFrame, ?takes, ?holds, ?old, ?heldTaken, ?heldOld, ?noneHeld, ?heldEarly, ?block,
    ?blockLocked, ?blockStays, ?safe, ?safeStays, ?timeAtOnce, ?timeLater, ?sleep, ?unlocked, ?noMessage, ?holdOver, ?noHold, ?holdGoesOn⟩
  case powerUp => exact fun _ _ _ _ hget h => execCellPowerUp_other hget h
  case bypassed => exact fun _ _ _ hget hbyp => execCellPowerUp_bypassed hget hbyp
  case words => exact fun _ _ _ _ _ hget => execCellWordLock_folds hget
  case noFrame => exact fun _ _ _ _ _ hget h => execCellFrameTake_none hget h
  case badFrame =>
    exact fun _ _ _ _ _ _ hget hlocked hframe hbad hvalid =>
      execCellFrameTake_some hget hlocked hframe (CellCtl.frame_bad hbad hvalid)
  case takes =>
    intro cid c b rx f s hget hlocked hframe hhc hgroup hvalid hok hnew hnow
    exact execCellFrameTake_some hget hlocked hframe
      ((CellCtl.frame_of_valid hhc hvalid hok).trans (CellCtl.judgeFrame_takes hhc hgroup hnew hnow))
  case holds =>
    intro cid c b rx f s hget hlocked hframe hhc hgroup hvalid hok hnew hpassive hearly
    exact execCellFrameTake_some hget hlocked hframe
      ((CellCtl.frame_of_valid hhc hvalid hok).trans (CellCtl.judgeFrame_holds hhc hgroup hnew hpassive hearly))
  case old =>
    intro cid c b rx f s hget hlocked hframe hhc hgroup hvalid hok hold
    exact execCellFrameTake_some hget hlocked hframe
      ((CellCtl.frame_of_valid hhc hvalid hok).trans (CellCtl.judgeFrame_old hhc hgroup hold))
  case heldTaken =>
    intro cell c d s hget hheld hdue hnew
    have h := execCellFrameDeadline_some (cycle := cell.cycle) hget hheld
    rwa [if_neg (Int.not_lt.mpr hdue), if_neg (by simp [hnew])] at h
  case heldOld =>
    intro cell c d s hget hheld hdue hold
    have h := execCellFrameDeadline_some (cycle := cell.cycle) hget hheld
    rwa [if_neg (Int.not_lt.mpr hdue), if_pos hold] at h
  case noneHeld => exact fun _ _ _ hget hheld => execCellFrameDeadline_none hget hheld
  case heldEarly =>
    intro cell c d s hget hheld hearly
    have h := execCellFrameDeadline_some (cycle := cell.cycle) hget hheld
    rwa [if_pos hearly] at h
  case block => exact fun _ _ _ _ _ _ _ _ hget hlocked hmsg hstate => execCellBlockAccept_blocked hget hlocked hmsg hstate
  case blockLocked => exact fun _ _ _ _ _ _ _ _ hget hlocked hmsg hstate => execCellBlockAccept_locked hget hlocked hmsg hstate
  case blockStays =>
    exact fun _ _ _ _ _ _ _ _ hget hlocked hmsg hrunning hsafe hother =>
      execCellBlockAccept_stays hget hlocked hmsg hrunning hsafe hother
  case safe => exact fun _ _ _ _ _ _ _ _ hget hlocked hmsg hstate => execCellSafeAccept_safe hget hlocked hmsg hstate
  case safeStays =>
    exact fun _ _ _ _ _ _ _ _ hget hlocked hmsg hrunning hblocked hother =>
      execCellSafeAccept_stays hget hlocked hmsg hrunning hblocked hother
  case timeAtOnce => exact fun _ _ _ _ _ _ _ _ hget hlocked hmsg hvalid => execCellTimeSetAccept_at_once hget hlocked hmsg hvalid
  case timeLater => exact fun _ _ _ _ _ _ _ _ hget hlocked hmsg hvalid => execCellTimeSetAccept_at_boundary hget hlocked hmsg hvalid
  case sleep => exact fun _ _ _ _ _ _ _ _ _ hget hlocked hmsg => execCellSleepAccept_sleep hget hlocked hmsg
  case unlocked =>
    intro cid c b rx w l e i s hget hunlocked
    have h : (!(c.iface b).locked) = true := by simp [hunlocked]
    exact ⟨next_ctlUpd hget (if_pos h), next_ctlUpd hget (if_pos h), next_ctlUpd hget (if_pos h), next_ctlUpd hget (if_pos h)⟩
  case noMessage =>
    intro cid c b rx w l e n s hget hlocked hmsg hsleep
    have h : ¬(!(c.iface b).locked) = true := by simp [hlocked]
    exact ⟨next_ctlUpd hget ((if_neg h).trans (by rw [hmsg])), next_ctlUpd hget ((if_neg h).trans (by rw [hmsg])),
      next_ctlUpd hget ((if_neg h).trans (by rw [hmsg])), next_ctlUpd hget ((if_neg h).trans (by rw [hsleep]))⟩
  case holdOver => exact fun _ _ _ _ _ hget hhold hlate => execCellBlockHoldEnd_over hget hhold hlate
  case noHold => exact fun _ _ _ hget hnone => execCellBlockHoldEnd_not_over hget (by simp [hnone])
  case holdGoesOn =>
    intro cell c a ended s hget hhold hearly
    refine execCellBlockHoldEnd_not_over hget fun a' ended' hhold' => ?_
    rw [hhold] at hhold'
    cases hhold'
    exact hearly

end Sys2Proof.Machine

/-! PROOFS. A cell controller acts on its own: watchdog, loss of the link, edges, samples, bursts and faults (R151, R153, R178, R183 to R193,
O22). -/

namespace Sys2Proof.Machine

open Sys2Proof

variable {c : CellCtl}

theorem CellCtl.clear_expired_self (h : c.expired = false) : { c with expired := false } = c := by rw [← h]

section
variable {s : State} {cid : Nat} {b : Bool} (hget : ctlGet s cid = c)
include hget

/-! ### The watchdog (R188) -/

theorem execCellWatchdogExpiry_safe (hexpired : c.expired = true)
    (hstate : c.state = .running ∨ c.state = .blocked ∨ c.state = .locked) :
    execCellWatchdogExpiry cid s =
      .next (ctlUpd cid (fun _ => { (({ c with expired := false } : CellCtl).enter .safe) with wdCnt := c.wdCnt + 1 }) s) :=
  next_ctlUpd hget (by rcases hstate with h | h | h <;> simp only [hexpired, h, Bool.not_true, Bool.false_eq_true, if_false])

theorem execCellWatchdogExpiry_stays
    (h : c.expired = false ∨ (c.state ≠ .running ∧ c.state ≠ .blocked ∧ c.state ≠ .locked)) :
    execCellWatchdogExpiry cid s = .next (ctlUpd cid (fun _ => { c with expired := false }) s) := by
  refine next_ctlUpd hget ?_
  by_cases hexpired : c.expired = true
  · obtain ⟨hrunning, hblocked, hlocked⟩ := h.resolve_left (by simp [hexpired])
    refine (if_neg (by simp [hexpired])).trans ?_
    split
    · contradiction
    · contradiction
    · contradiction
    · rfl
  · rw [Bool.not_eq_true] at hexpired
    exact (if_pos (by simp [hexpired])).trans (CellCtl.clear_expired_self hexpired).symm

/-! ### Loss of the link (R189) -/

theorem execCellLinkLoss_last {v : CellCtl} (hdrop : c.dropIface b = v) (hother : (c.iface !b).inUse = false ∨ (c.iface !b).locked = false)
    (hstate : c.state = .running ∨ c.state = .blocked ∨ c.state = .locked) :
    execCellLinkLoss cid b s = .next (ctlUpd cid (fun _ => v.enter .safe) s) :=
  next_ctlUpd hget (hdrop ▸ CellCtl.ifaceLost_last hother hstate)

theorem execCellLinkLoss_stays {v : CellCtl} (hdrop : c.dropIface b = v)
    (h : ((c.iface !b).inUse = true ∧ (c.iface !b).locked = true) ∨ (c.state ≠ .running ∧ c.state ≠ .blocked ∧ c.state ≠ .locked)) :
    execCellLinkLoss cid b s = .next (ctlUpd cid (fun _ => v) s) :=
  next_ctlUpd hget (hdrop ▸ CellCtl.ifaceLost_stays h)

/-! ### Edges and samples (R183, R184) -/

theorem execCellEdgeExecute_running {e : Edge} {r : List Edge} (hrunning : c.state = .running) (hedges : c.edges = e :: r) :
    execCellEdgeExecute cid s =
      .next (ctlUpd cid (fun _ => { c with edges := r, pattern := e.dest, lastEdge := some e.at_, edgeCnt := c.edgeCnt + 1 }) s) :=
  next_ctlUpd hget (by simp only [hrunning, hedges])

theorem execCellEdgeExecute_idle (h : c.state ≠ .running ∨ c.edges = []) :
    execCellEdgeExecute cid s = .next (ctlUpd cid (fun _ => c) s) := by
  refine next_ctlUpd hget ?_
  split
  next hrunning hedges => exact h.elim (absurd hrunning) (fun hnone => by simp [hnone] at hedges)
  next => rfl

variable {v : Word16} {w : Byte} {x : BitVec 11}

/-- The report carries the sequence and interface of the frame in effect, or a value drawn freely where there is none. -/
theorem execCellSampleLatch_reports {u : BitVec 4 × Bool}
    (hwho : c.cur.getD (BitVec.ofNat 4 s.draw.1, s.draw.1 / 16 % 2 == 1) = u) :
    execCellSampleLatch cid v w x s =
      .next (ctlUpd cid (fun _ => { c with report := tickReport c u v w x }) { s with freeCtr := s.freeCtr + 1 }) :=
  next_ctlUpd (s := s.draw.2) hget (by rw [← hwho])

/-! ### Bursts (R151, R153, R192) -/

theorem execCellBurstLaunch_silent
    (h : (c.iface b).locked = false ∨ (c.iface b).valid = false ∨
      ((c.iface b).range = false ∧ ((c.iface b).quiet = true ∨ (c.iface b).upSleep = true))) :
    execCellBurstLaunch cid b s = .next (ctlUpd cid (fun _ => c) s) := by
  refine next_ctlUpd hget ?_
  rcases h with h | h | ⟨hrange, hmute⟩
  · exact if_pos (by simp [h])
  · exact if_pos (by simp [h])
  · simp [hrange, hmute]

section
variable (hlocked : (c.iface b).locked = true) (hvalid : (c.iface b).valid = true)
include hlocked hvalid

/-- A ranging reply, at B_j + 16 ns + D. -/
theorem execCellBurstLaunch_range (hrange : (c.iface b).range = true) :
    execCellBurstLaunch cid b s = .next (ctlUpd cid (fun _ =>
      { (c.setIface b { c.iface b with range := false }) with
        burst := some (burstAt (rangeReplyWord cid c) b (100 * (((c.iface b).bj : Int) + 1024 + (c.iface b).dDown))) }) s) :=
  next_ctlUpd hget ((if_neg (by simp [hlocked, hvalid])).trans (if_pos hrange))

/-- A management reply where one is due, else the tick report, in the slot of the cell. -/
theorem execCellBurstLaunch_slot {y : Word64} (hrange : (c.iface b).range = false) (hquiet : (c.iface b).quiet = false)
    (hawake : (c.iface b).upSleep = false) (hword : c.reply.elim c.report (fun r => mgmtReplyWord cid c r.1 r.2) = y) :
    execCellBurstLaunch cid b s = .next (ctlUpd cid (fun _ =>
      { c with
        burst := some (burstAt y b (100 * (((c.iface b).bj : Int) + 1024 - (c.iface b).dUp) + 98304 * (cid % 128 : Nat))) }) s) := by
  refine next_ctlUpd hget ((if_neg (by simp [hlocked, hvalid])).trans ((if_neg (by simp [hrange])).trans
    ((if_neg (by simp [hquiet, hawake])).trans ?_)))
  rw [← hword]
  cases c.reply <;> rfl

end

end

/-- Settles O22: for each row, what it makes of the cell under the condition of the clause. -/
theorem cellControllersActOnTheirOwn : Obligations.CellControllersActOnTheirOwn := by
  refine ⟨?expired, ?notExpired, ?lastA, ?lastB, ?leftA, ?leftB, ?edge, ?noEdge, ?report, ?reportFree, ?range, ?tick, ?reply, ?silent, ?tooHigh,
    ?highBypassed, ?desat, ?desatBypassed, ?gate, ?gateBypassed, ?supply, ?hot, ?notHigh, ?cleared, ?bypass⟩
  case expired => exact fun _ _ _ hget hexpired hstate => execCellWatchdogExpiry_safe hget hexpired hstate
  case notExpired => exact fun _ _ _ hget h => execCellWatchdogExpiry_stays hget h
  case lastA => exact fun _ _ _ hget hother hstate => execCellLinkLoss_last hget CellCtl.dropIface_false hother hstate
  case lastB => exact fun _ _ _ hget hother hstate => execCellLinkLoss_last hget CellCtl.dropIface_true hother hstate
  case leftA => exact fun _ _ _ hget h => execCellLinkLoss_stays hget CellCtl.dropIface_false h
  case leftB => exact fun _ _ _ hget h => execCellLinkLoss_stays hget CellCtl.dropIface_true h
  case edge => exact fun _ _ _ _ _ hget hrunning hedges => execCellEdgeExecute_running hget hrunning hedges
  case noEdge => exact fun _ _ _ hget h => execCellEdgeExecute_idle hget h
  case report => exact fun _ _ _ _ _ _ _ hget hcur => execCellSampleLatch_reports hget (by rw [hcur]; rfl)
  case reportFree => exact fun _ _ _ _ _ _ hget _ => ⟨_, execCellSampleLatch_reports hget rfl⟩
  case range => exact fun _ _ _ _ hget hlocked hvalid hrange => execCellBurstLaunch_range hget hlocked hvalid hrange
  case tick =>
    exact fun _ _ _ _ hget hlocked hvalid hrange hquiet hawake hreply =>
      execCellBurstLaunch_slot hget hlocked hvalid hrange hquiet hawake (by rw [hreply]; rfl)
  case reply =>
    exact fun _ _ _ _ _ _ hget hlocked hvalid hrange hquiet hawake hreply =>
      execCellBurstLaunch_slot hget hlocked hvalid hrange hquiet hawake (by rw [hreply]; rfl)
  case silent => exact fun _ _ _ _ hget h => execCellBurstLaunch_silent hget h
  case tooHigh => exact fun _ _ _ hget hstate => next_ctlUpd hget ((if_pos rfl).trans (if_neg hstate))
  case highBypassed => exact fun _ _ _ hget hstate => next_ctlUpd hget ((if_pos rfl).trans (if_pos hstate))
  case desat => exact fun _ _ _ hget hstate => next_ctlUpd hget (if_neg hstate)
  case desatBypassed => exact fun _ _ _ hget hstate => next_ctlUpd hget (if_pos hstate)
  case gate => exact fun _ _ _ hget hstate => next_ctlUpd hget (if_neg hstate)
  case gateBypassed => exact fun _ _ _ hget hstate => next_ctlUpd hget (if_pos hstate)
  case supply => exact fun _ _ _ _ hget => next_ctlUpd hget rfl
  case hot => exact fun _ _ _ _ hget => next_ctlUpd hget rfl
  case notHigh => exact fun _ _ _ hget => next_ctlUpd hget rfl
  case cleared => exact fun _ _ _ hget => next_ctlUpd hget rfl
  case bypass => exact fun _ _ _ hget => next_ctlUpd hget rfl

end Sys2Proof.Machine

/-! PROOFS. The commands of the roster, of cell health, of cell contexts and of safe states (Table 7.12, O18). -/

namespace Sys2Proof.Machine

open Sys2Proof

variable {c : Cmd} {s : State}

/-! ### CELL_ROSTER_LOAD (R195, R196, R203) -/

/-- The entries of the block of a load (Table 7.8). -/
def loadEntries (c : Cmd) : List Roster := (List.range (c.u16 8)).map (rosterEntry c.params)

/-- The first entry of a load that names an absent port or arm. -/
def loadAbsent (c : Cmd) (s : State) : Option Nat := firstIdx (fun _ r => rosterAbsent s r) (loadEntries c) 0

/-- The first entry of a load that breaks a rule of R203, beside the entries the load keeps. -/
def loadBad (mode : Nat) (kept : List Roster) (c : Cmd) (s : State) : Option Nat :=
  firstIdx (fun i r => rosterBad s mode (c.u32 4) (kept ++ (loadEntries c).take i) c.params i r) (loadEntries c) 0

/-- The first entry of a load with an arm on another die, or over its cell limit (R16, R196). -/
def loadConflict (kept : List Roster) (c : Cmd) (s : State) : Option Nat :=
  firstIdx (fun _ r => rosterConflict s (kept ++ loadEntries c) r) (loadEntries c) 0

/-- Every port of the load is DOWN. -/
def loadDown (ports : Nat → Bool) (s : State) : Bool := (allPorts s).all (fun p => !ports p || (portGet s p).state == .down)

/-- What a load answers: the entries it installed, the entry at fault and the digest of the roster (Table 7.12). -/
def loadResult (n k : Nat) (s : State) : Bytes := le 2 n ++ le 2 k ++ le 4 (rosterDigest s).toNat

/-- The roster with the entries of the load on its ports. -/
def loadInstalled (ports : Nat → Bool) (c : Cmd) (s : State) : State := rosterInstall s ports (loadEntries c)

/-- A load of this mode replaces the entries of the ports `ports`, and keeps the entries `kept` of the others. -/
structure LoadReplaces (mode : Nat) (ports : Nat → Bool) (kept : List Roster) (c : Cmd) (s : State) : Prop where
  number : c.u8 0 = mode
  scope : ports = fun p => mode == 0 || bit (c.u32 4) p
  others : kept = (s.link.roster.map (·.2)).filter (fun r => !ports (r.cid / 128))

theorem LoadReplaces.all (hmode : c.u8 0 = 0) : LoadReplaces 0 (fun _ => true) [] c s := ⟨hmode, rfl, by simp⟩

theorem LoadReplaces.masked (hmode : c.u8 0 = 1) : LoadReplaces 1 (fun p => bit (c.u32 4) p)
    ((s.link.roster.map (·.2)).filter (fun r => !bit (c.u32 4) (r.cid / 128))) c s := ⟨hmode, rfl, rfl⟩

/-- The gate of CELL_ROSTER_LOAD (`execCellRosterLoad`), with the result bytes that its checks answer. -/
def rosterLoadGate (mode : Nat) (ports : Nat → Bool) (kept : List Roster) (info : Bytes) (c : Cmd) (s : State) : Gate := {
  opcode := 0x0305, len := c.extLen (fun l => l == 16 + 16 * c.u16 8 && 1 ≤ c.u16 8 && c.u16 8 ≤ 4096),
  fitted := (loadAbsent c s).isNone && (mode != 1 || (List.range 32).all (fun p => !bit (c.u32 4) p || portFitted s p)),
  legal := inStates [.config], roles := actStby, info := info,
  par := mode < 2 && c.rsv 1 3 && c.rsv 10 6 && (loadBad mode kept c s).isNone,
  free := !pairHolds s && (List.range 32).all (fun p => !(ports p && held s (.port p))) }

/-- CELL_ROSTER_LOAD brings a block whose entries break no rule, in a state and role of Table 7.12, with the roster and its ports free. -/
structure RosterLoadAdmitted (mode : Nat) (ports : Nat → Bool) (kept : List Roster) (c : Cmd) (s : State) : Prop where
  replaces : LoadReplaces mode ports kept c s
  known : mode < 2
  admits : Admits c s [.config, .factoryTest] [.active, .standby]
  block : External c (fun l => l == 16 + 16 * c.u16 8)
  least : 1 ≤ c.u16 8
  most : c.u16 8 ≤ 4096
  reserved : c.rsv 1 3 = true
  padding : c.rsv 10 6 = true
  noPair : pairHolds s = false
  free : (List.range 32).all (fun p => !(ports p && held s (.port p))) = true
  present : loadAbsent c s = none
  good : loadBad mode kept c s = none
  fitted : mode ≠ 1 ∨ (List.range 32).all (fun p => !bit (c.u32 4) p || portFitted s p) = true

section
variable {mode : Nat} {ports : Nat → Bool} {kept : List Roster}

/-- What CELL_ROSTER_LOAD does once its checks pass. -/
def rosterLoadReply (ports : Nat → Bool) (kept : List Roster) (c : Cmd) (s : State) : Reply :=
  match loadConflict kept c s with
  | some k => ⟨s, .conflict, loadResult 0 k s, false⟩
  | none =>
    if s.dev.paired ∨ !loadDown ports s then ⟨s, .conflict, loadResult 0 0xFFFF s, false⟩
    else okReply (loadInstalled ports c s) (loadResult (c.u16 8) 0xFFFF (loadInstalled ports c s))

variable (h : RosterLoadAdmitted mode ports kept c s)
include h

theorem RosterLoadAdmitted.len : c.extLen (fun l => l == 16 + 16 * c.u16 8 && 1 ≤ c.u16 8 && c.u16 8 ≤ 4096) = true := by
  obtain ⟨-, -, hlen, -⟩ := h.block
  simpa [Cmd.extLen, h.least, h.most] using hlen

theorem RosterLoadAdmitted.passes (info : Bytes) : (rosterLoadGate mode ports kept info c s).Passes c s where
  serving := serving_of_mem h.admits.2.1 (by decide) (by decide)
  mailbox := mailbox_of_ne_zero h.admits.1 rfl
  test := rfl
  len := h.len
  fitted := Bool.and_eq_true_iff.mpr
    ⟨Option.isNone_iff_eq_none.mpr h.present, Bool.or_eq_true_iff.mpr (h.fitted.imp_left bne_iff_ne.mpr)⟩
  legal := legal_of_mem' h.admits.2.1 rfl
  roles := roles_of_mem h.admits.2.2 rfl
  permit := rfl
  par := by simp [rosterLoadGate, h.known, h.reserved, h.padding, h.good]
  entry := res1 h.block.1 h.block.2.1 h.block.2.2.2

theorem RosterLoadAdmitted.gate_free (info : Bytes) : (rosterLoadGate mode ports kept info c s).free = true := by
  simp only [rosterLoadGate, h.noPair, h.free, Bool.not_false, Bool.and_self]

theorem RosterLoadAdmitted.exec {t : State} {st : Status} {r : Bytes} (hact : rosterLoadReply ports kept c s = ⟨t, st, r, false⟩) :
    execCellRosterLoad c s = .next (answer 0x0305 c st r t) := by
  obtain ⟨rfl, rfl, rfl⟩ := h.replaces
  unfold execCellRosterLoad
  exact (h.passes _).answers (h.gate_free _) rfl hact

theorem RosterLoadAdmitted.exec_entry_conflict {k : Nat} (hconflict : loadConflict kept c s = some k) :
    execCellRosterLoad c s = .next (answer 0x0305 c .conflict (loadResult 0 k s) s) :=
  h.exec (by rw [rosterLoadReply, hconflict])

section
variable (hagree : loadConflict kept c s = none)
include hagree

theorem RosterLoadAdmitted.exec_ports_conflict (hno : s.dev.paired = true ∨ loadDown ports s = false) :
    execCellRosterLoad c s = .next (answer 0x0305 c .conflict (loadResult 0 0xFFFF s) s) :=
  h.exec (by rw [rosterLoadReply, hagree]; exact if_pos (by simpa using hno))

theorem RosterLoadAdmitted.exec_installs (hunpaired : s.dev.paired = false) (hdown : loadDown ports s = true) :
    execCellRosterLoad c s =
      .next (answer 0x0305 c .ok (loadResult (c.u16 8) 0xFFFF (loadInstalled ports c s)) (loadInstalled ports c s)) :=
  h.exec (by rw [rosterLoadReply, hagree]; exact if_neg (by simp [hunpaired, hdown]))

end

end

/-! ### The cells a command names by their first and their count -/

/-- The cells `first` to `first + n - 1` that the parameters of a command name. -/
def cellRange (c : Cmd) : List Nat := (List.range (c.u16 2)).map (c.u16 0 + ·)

/-- The command names one cell at least, and none beyond 4,095. -/
structure CellRangeNamed (c : Cmd) : Prop where
  least : 1 ≤ c.u16 2
  last : c.u16 0 + c.u16 2 ≤ 4096

theorem CellRangeNamed.most (h : CellRangeNamed c) : c.u16 2 ≤ 4096 := Nat.le_trans (Nat.le_add_left ..) h.last

/-- The rostered cells among those the command names. -/
def rosteredIn (c : Cmd) (s : State) : List Nat := (cellRange c).filter (fun x => (cellGet s x).roster.isSome)

/-! ### CELL_ROSTER_READ and CELL_CONTEXT_READ (R206) -/

/-- An entry that CELL_ROSTER_READ writes: that of the roster, or the cell with no arm. -/
def rosterReadEntry (s : State) (cid : Nat) : Bytes :=
  match tget none (s.link.roster.map (fun e => (e.1, some e.2))) cid with
  | some r => r.bytes
  | none => le 2 cid ++ le 1 0xFF ++ le 13 0

/-- The contexts of the rostered cells that the command names. -/
def contextsIn (c : Cmd) (s : State) : List CellCtx := ((cellRange c).map (cellGet s)).filter (fun x => x.roster.isSome)

/-- How many of them are IN_USE. -/
def inUseIn (c : Cmd) (s : State) : Nat := ((contextsIn c s).filter (fun x => x.health == .inUse)).length

/-- What CELL_CONTEXT_READ answers (Table 7.12). -/
def contextResult (c : Cmd) (s : State) : Bytes :=
  le 2 (c.u16 2) ++ le 2 (inUseIn c s) ++ le 2 ((contextsIn c s).length - inUseIn c s) ++ le 2 0 ++ le 8 s.link.crossing

section
variable (hserving : Serving s) (hinline : Inline c 12) (hmb : c.mb ≠ 0) (hrange : CellRangeNamed c) (haligned : c.u64 4 % 64 = 0)
  (haddr : c.u64 4 ≠ 0)
include hrange haligned haddr

/-- The parameters of a command that reads a range of cells into its buffer. -/
theorem CellRangeNamed.buffered :
    (decide (1 ≤ c.u16 2) && decide (c.u16 2 ≤ 4096) && decide (c.u16 0 + c.u16 2 ≤ 4096) && c.buf 4) = true := by
  simp [hrange.least, hrange.most, hrange.last, Cmd.buf, haligned, haddr]

include hserving hinline hmb

theorem execCellRosterRead_ok : execCellRosterRead c s = .next (answer 0x0306 c .ok (le 2 (c.u16 2) ++ le 4 (rosterDigest s).toNat)
    (putBuf (c.u64 4) (withCrc ((List.range (c.u16 2)).flatMap (fun i => rosterReadEntry s (c.u16 0 + i)))) s)) := by
  unfold execCellRosterRead
  exact (readGate_passes_inline hserving (.inr hmb) hinline rfl (hrange.buffered haligned haddr)).answers rfl rfl rfl

theorem execCellContextRead_ok (hfitted : (cellRange c).any (fun x => portFitted s (x / 128)) = true) :
    execCellContextRead c s = .next (answer 0x0308 c .ok (contextResult c s)
      (putBuf (c.u64 4) (withCrc ((cellRange c).flatMap (contextEntry s))) s)) := by
  unfold execCellContextRead
  exact (readGate_passes_inline hserving (.inr hmb) hinline (Bool.or_eq_true_iff.mpr (.inr hfitted))
    (hrange.buffered haligned haddr)).answers rfl rfl rfl

end

/-! ### CELL_HEALTH_SET (R204) -/

/-- The states CELL_HEALTH_SET is legal in: an action 3 is not in DEBLOCKED (Table 7.12). -/
def healthStates (action : Nat) : List DevState :=
  if action = 3 then [.config, .standby, .blockedFault, .factoryTest] else [.config, .standby, .deblocked, .blockedFault, .factoryTest]

/-- The gate of CELL_HEALTH_SET (`execCellHealthSet`). -/
def healthSetGate (action : Nat) (c : Cmd) (s : State) : Gate := {
  opcode := 0x0307, len := c.inl 4, fitted := 4096 ≤ c.u16 0 || portOk s (c.u16 0 / 128),
  legal := fun st => inStates [.config, .standby, .deblocked, .blockedFault] st && (action != 3 || st != .deblocked), roles := actStby,
  par := c.u16 0 < 4096 && c.u16 0 % 128 < slotsOf s.tick.len && 1 ≤ action && action ≤ 3 && c.rsv 3 1,
  free := !held s (.cell (c.u16 0)) && !held s .tickLength }

/-- FACTORY_TEST takes CELL_HEALTH_SET over from CONFIG (R104). -/
theorem healthSetGate_legalStates (action : Nat) : DevState.all.filter (healthSetGate action c s).legalIn = healthStates action := by
  by_cases haction : action = 3
  · subst haction
    rfl
  · simp [DevState.all, Gate.legalIn, healthSetGate, healthStates, inStates, notInTest, haction]

/-- CELL_HEALTH_SET names a cell of a fitted port that nothing holds, in a state and role of Table 7.12, with an action it knows. -/
structure HealthSetAdmitted (action : Nat) (c : Cmd) (s : State) : Prop where
  code : c.u8 2 = action
  known : 1 ≤ action ∧ action ≤ 3
  admits : Admits c s (healthStates action) [.active, .standby]
  params : Inline c 4
  cid : c.u16 0 < 4096
  port : portOk s (c.u16 0 / 128) = true
  slot : c.u16 0 % 128 < slotsOf s.tick.len
  reserved : c.rsv 3 1 = true
  cell : held s (.cell (c.u16 0)) = false
  tickLength : held s .tickLength = false

/-- The action does not fit the cell: no roster entry, health that is already so or cannot become so, or a permanent bypass on a port
that sends no tick frames. -/
def HealthRefused (action cid : Nat) (s : State) : Prop :=
  (cellGet s cid).roster.isNone ∨
    (action = 2 ∧ ((cellGet s cid).health = .pending ∨ (cellGet s cid).health = .inUse ∨
      ((cellGet s cid).health = .retired ∧ (cellGet s cid).cause = 8))) ∨
    (action ≠ 2 ∧ (cellGet s cid).health = .retired) ∨ (action = 3 ∧ (portGet s (cid / 128)).state ≠ .inService)

/-- The boundary at which the action of CELL_HEALTH_SET takes effect. -/
def healthDue (s : State) : Nat := s.tick.index + leadOf s.tick.len

/-- The action waits for its boundary. -/
def healthWaits (action cid : Nat) (s : State) : State :=
  s.onLink (fun l => { l with healthAt := l.healthAt ++ [(healthDue s, cid, action)] })

/-- The port of the cell sends the permanent bypass for that boundary. -/
def bypassWaits (cid boundary : Nat) (s : State) : State :=
  portUpd (cid / 128) (fun y => { y with perm := y.perm ++ [(cid % 128, boundary, 2)] }) s

/-- CELL_HEALTH_SET is PENDING on its cell. -/
def healthPending (action : Nat) (c : Cmd) (s : State) : State :=
  pendAs 0x0307 c [.cell (c.u16 0)] (healthStates action) (c.u16 0) none s

section
variable {action : Nat} (h : HealthSetAdmitted action c s)
include h

theorem HealthSetAdmitted.passes : (healthSetGate action c s).Passes c s where
  serving := serving_of_mem h.admits.2.1 (by unfold healthStates; split <;> decide) (by unfold healthStates; split <;> decide)
  mailbox := mailbox_of_ne_zero h.admits.1 rfl
  test := rfl
  len := inl_of_inline h.params
  fitted := by simp [healthSetGate, h.port]
  legal := by
    have hlegal := h.admits.2.1
    rw [← healthSetGate_legalStates (c := c) (s := s)] at hlegal
    exact (List.mem_filter.mp hlegal).2
  roles := roles_of_mem h.admits.2.2 rfl
  permit := rfl
  par := by simp [healthSetGate, h.cid, h.slot, h.known, h.reserved]
  entry := entryReserved_of_inline h.params

theorem HealthSetAdmitted.gate_free : (healthSetGate action c s).free = true := by simp [healthSetGate, h.cell, h.tickLength]

theorem HealthSetAdmitted.exec_conflict (hno : HealthRefused action (c.u16 0) s) :
    execCellHealthSet c s = .next (answer 0x0307 c .conflict [] s) := by
  obtain rfl := h.code
  unfold execCellHealthSet
  exact h.passes.answers h.gate_free rfl (if_pos hno)

theorem HealthSetAdmitted.exec_waits (hmay : ¬HealthRefused action (c.u16 0) s) : execCellHealthSet c s =
    .next (awaitFirst 0x0307 c (healthPending action c (when (action = 3) (bypassWaits (c.u16 0) (healthDue s))
      (healthWaits action (c.u16 0) s)))) := by
  obtain rfl := h.code
  rw [healthPending, ← healthSetGate_legalStates (c := c) (s := s)]
  unfold execCellHealthSet
  exact h.passes.runs (later := true) h.gate_free rfl (if_neg hmay)

end

/-! ### CELL_SAFE_STATE_SET (R205) -/

/-- The gate of CELL_SAFE_STATE_SET (`execCellSafeStateSet`). -/
def safeStateSetGate (c : Cmd) (s : State) : Gate := {
  opcode := 0x0309, len := c.inl 8,
  fitted := !(1 ≤ c.u16 2 && c.u16 0 + c.u16 2 ≤ 4096) || (cellRange c).all (fun x => portFitted s (x / 128)),
  legal := inStates [.config, .standby, .deblocked, .safeStop, .blockedFault], roles := actStby,
  par := 1 ≤ c.u16 2 && c.u16 2 ≤ 4096 && c.u16 0 + c.u16 2 ≤ 4096 && c.u8 4 < 2 && c.rsv 5 3, free := !setHeld s 7 }

/-- CELL_SAFE_STATE_SET names cells of fitted ports and a selection, in a state and role of Table 7.12, with shadow set 7 free. -/
structure SafeStateSetAdmitted (c : Cmd) (s : State) : Prop where
  admits : Admits c s [.config, .standby, .deblocked, .safeStop, .blockedFault, .factoryTest] [.active, .standby]
  params : Inline c 8
  range : CellRangeNamed c
  fitted : (cellRange c).all (fun x => portFitted s (x / 128)) = true
  selection : c.u8 4 < 2
  reserved : c.rsv 5 3 = true
  free : setHeld s 7 = false

/-- The shadow safe state of the cells is the selection. -/
def safeShadowed (b : Bool) (cids : List Nat) (s : State) : State :=
  cids.foldl (fun t x => cellUpd x (fun y => { y with safeNew := some b }) t) s

section
variable (h : SafeStateSetAdmitted c s)
include h

theorem SafeStateSetAdmitted.passes : (safeStateSetGate c s).Passes c s where
  serving := serving_of_mem h.admits.2.1 (by decide) (by decide)
  mailbox := mailbox_of_ne_zero h.admits.1 rfl
  test := rfl
  len := inl_of_inline h.params
  fitted := Bool.or_eq_true_iff.mpr (.inr h.fitted)
  legal := legal_of_mem' h.admits.2.1 rfl
  roles := roles_of_mem h.admits.2.2 rfl
  permit := rfl
  par := by simp [safeStateSetGate, h.range.least, h.range.most, h.range.last, h.selection, h.reserved]
  entry := entryReserved_of_inline h.params

theorem SafeStateSetAdmitted.gate_free : (safeStateSetGate c s).free = true := by simp [safeStateSetGate, h.free]

theorem SafeStateSetAdmitted.exec_conflict (hnone : (rosteredIn c s).isEmpty = true) :
    execCellSafeStateSet c s = .next (answer 0x0309 c .conflict [] s) := by
  unfold execCellSafeStateSet
  exact h.passes.answers h.gate_free rfl (if_pos hnone)

theorem SafeStateSetAdmitted.exec_stages (hsome : (rosteredIn c s).isEmpty = false) : execCellSafeStateSet c s =
    .next (answer 0x0309 c .ok (le 2 (rosteredIn c s).length) (stage 7 c.params (safeShadowed (c.u8 4 == 1) (rosteredIn c s) s))) := by
  unfold execCellSafeStateSet
  exact h.passes.answers h.gate_free rfl (if_neg (Bool.eq_false_iff.mp hsome))

end

/-! ### The obligation -/

/-- Settles O18: each command's gate passes under the conditions of its clause, and its action takes the branch they name. -/
theorem rosterCommandsActOnTheRoster : Obligations.RosterCommandsActOnTheRoster := by
  refine ⟨?loadAll, ?loadMasked, ?entryConflict, ?portsConflict, ?rosterRead, ?retire, ?readmit, ?bypass, ?noEntry, ?contextRead, ?stages,
    ?noneRostered⟩
  case loadAll =>
    intro c s hadmits hblock hsome hmost hmode hrsv hpad hpair hfree habsent hbad hunpaired hdown hconflict
    exact RosterLoadAdmitted.exec_installs ⟨.all hmode, by decide, hadmits, hblock, hsome, hmost, hrsv, hpad, hpair, hfree, habsent, hbad,
      .inl (by decide)⟩ hconflict hunpaired hdown
  case loadMasked =>
    intro c s hadmits hblock hsome hmost hmode hrsv hpad hpair hfree habsent hbad hfitted hunpaired hdown hconflict
    exact RosterLoadAdmitted.exec_installs ⟨.masked hmode, by decide, hadmits, hblock, hsome, hmost, hrsv, hpad, hpair, hfree, habsent, hbad,
      .inr hfitted⟩ hconflict hunpaired hdown
  case entryConflict =>
    intro c k s hadmits hblock hsome hmost hmode hrsv hpad hpair hfree habsent hbad hconflict
    exact RosterLoadAdmitted.exec_entry_conflict ⟨.all hmode, by decide, hadmits, hblock, hsome, hmost, hrsv, hpad, hpair, hfree, habsent,
      hbad, .inl (by decide)⟩ hconflict
  case portsConflict =>
    intro c s hadmits hblock hsome hmost hmode hrsv hpad hpair hfree habsent hbad hconflict hno
    exact RosterLoadAdmitted.exec_ports_conflict ⟨.all hmode, by decide, hadmits, hblock, hsome, hmost, hrsv, hpad, hpair, hfree, habsent,
      hbad, .inl (by decide)⟩ hconflict hno
  case rosterRead =>
    intro c s hserving hinline hmb hsome hlast haligned haddr
    exact execCellRosterRead_ok hserving hinline hmb ⟨hsome, hlast⟩ haligned haddr
  case retire =>
    intro c s hadmits hinline hcid hport hslot hrsv hcell htick haction hroster hhealth
    exact HealthSetAdmitted.exec_waits (action := 1) ⟨haction, by decide, hadmits, hinline, hcid, hport, hslot, hrsv, hcell, htick⟩
      (by simp [HealthRefused, Option.isNone_eq_false_iff.mpr hroster, hhealth])
  case readmit =>
    intro c s hadmits hinline hcid hport hslot hrsv hcell htick haction hroster hpending hinUse hretired
    exact HealthSetAdmitted.exec_waits (action := 2) ⟨haction, by decide, hadmits, hinline, hcid, hport, hslot, hrsv, hcell, htick⟩
      (by simp [HealthRefused, Option.isNone_eq_false_iff.mpr hroster, hpending, hinUse, not_and_of_not_or_not hretired])
  case bypass =>
    intro c s hadmits hinline hcid hport hslot hrsv hcell htick haction hroster hhealth hstate
    exact HealthSetAdmitted.exec_waits (action := 3) ⟨haction, by decide, hadmits, hinline, hcid, hport, hslot, hrsv, hcell, htick⟩
      (by simp [HealthRefused, Option.isNone_eq_false_iff.mpr hroster, hhealth, hstate])
  case noEntry =>
    intro c s hadmits hinline hcid hport hslot hrsv hcell htick hlow hhigh hroster
    refine HealthSetAdmitted.exec_conflict ⟨rfl, ⟨hlow, by omega⟩, ?_, hinline, hcid, hport, hslot, hrsv, hcell, htick⟩
      (.inl (by simp [hroster]))
    rwa [healthStates, if_neg (by omega)]
  case contextRead =>
    intro c s hserving hinline hmb hsome hlast hfitted haligned haddr
    exact execCellContextRead_ok hserving hinline hmb ⟨hsome, hlast⟩ haligned haddr hfitted
  case stages =>
    intro c s hadmits hinline hsome hlast hfitted hsel hrsv hfree hrostered
    exact SafeStateSetAdmitted.exec_stages ⟨hadmits, hinline, ⟨hsome, hlast⟩, hfitted, hsel, hrsv, hfree⟩ hrostered
  case noneRostered =>
    intro c s hadmits hinline hsome hlast hfitted hsel hrsv hfree hrostered
    exact SafeStateSetAdmitted.exec_conflict ⟨hadmits, hinline, ⟨hsome, hlast⟩, hfitted, hsel, hrsv, hfree⟩ hrostered

end Sys2Proof.Machine

/-! PROOFS. The AIE commands stage the parameters of arms and groups, and read an arm (Table 8.6, O23). -/

namespace Sys2Proof.Machine

open Sys2Proof

variable {c : Cmd} {s : State}

/-! ### Commands that stage into one shadow set -/

/-- The gate of a command that stages into shadow set `set`, with `n` inline parameter bytes, for a unit ACTIVE or STANDBY. -/
def stagingGate (opcode n set : Nat) (legal : DevState → Bool) (fitted par : Bool) (c : Cmd) (s : State) : Gate := {
  opcode := opcode, len := c.inl n, fitted := fitted, legal := legal, roles := actStby, free := !setHeld s set, par := par }

/-- The entry of such a command has its `n` parameter bytes, the unit is in one of the states and roles, and the set is free (R125). -/
structure StagingAdmitted (n set : Nat) (states : List DevState) (c : Cmd) (s : State) : Prop where
  admits : Admits c s states [.active, .standby]
  params : Inline c n
  free : setHeld s set = false

theorem StagingAdmitted.passes {opcode n set : Nat} {states : List DevState} {legal : DevState → Bool} {fitted par : Bool}
    (h : StagingAdmitted n set states c s) (hserving : Serving s)
    (hlegal : (states.all fun x => (stagingGate opcode n set legal fitted par c s).legalIn x) = true) (hfitted : fitted = true)
    (hpar : par = true) : (stagingGate opcode n set legal fitted par c s).Passes c s where
  serving := hserving
  mailbox := mailbox_of_ne_zero h.admits.1 rfl
  test := rfl
  len := inl_of_inline h.params
  fitted := hfitted
  legal := legal_of_mem' h.admits.2.1 hlegal
  roles := roles_of_mem h.admits.2.2 rfl
  permit := rfl
  par := hpar
  entry := entryReserved_of_inline h.params

theorem StagingAdmitted.gate_free {opcode n set : Nat} {states : List DevState} {legal : DevState → Bool} {fitted par : Bool}
    (h : StagingAdmitted n set states c s) : (stagingGate opcode n set legal fitted par c s).free = true := by
  simp [stagingGate, h.free]

/-! ### The arm a command names -/

/-- The parameter names one of the 12 arms, on a unit that has it. -/
structure ArmNamed (c : Cmd) (s : State) : Prop where
  notM2 : isM2 s = false
  number : c.u8 0 < 12
  ok : armOk s (c.u8 0) = true

theorem ArmNamed.fitted (h : ArmNamed c s) : armFit s (c.u8 0) = true := by simp [armFit, h.notM2, h.ok]

/-- The unit is an M2, or the arm is one of the 12 and absent. -/
def ArmAbsent (c : Cmd) (s : State) : Prop := isM2 s = true ∨ (c.u8 0 < 12 ∧ armOk s (c.u8 0) = false)

theorem ArmAbsent.not_fitted (h : ArmAbsent c s) : armFit s (c.u8 0) = false := by
  rcases h with hm2 | ⟨hnumber, hok⟩
  · simp [armFit, hm2]
  · simp [armFit, hnumber, hok]

/-! ### AIE_ARM_CONFIG (R231, R233) -/

/-- The parameters of AIE_ARM_CONFIG are in the ranges of Table 8.5, at a tick of `t` µs. -/
structure ArmConfigInRange (t : Nat) (c : Cmd) : Prop where
  group : c.u8 1 < 2
  needed : 1 ≤ c.u16 2
  cells : c.u16 2 + c.u16 4 ≤ armCells t
  cap : 1 ≤ c.u16 6
  vbaseLow : 1 ≤ c.u32 8
  vbaseHigh : c.u32 8 ≤ 2000000
  ibaseLow : 1 ≤ c.u32 12
  ibaseHigh : c.u32 12 ≤ 100000
  loop : c.u16 16 < 512
  vsrc : srcOk (c.u16 18) = true
  isrc : srcOk (c.u16 20) = true
  rotation : c.u16 22 = 0 ∨ 64 ≤ c.u16 22
  negative : c.u8 24 < 2
  reserved : c.rsv 25 3 = true

/-- AIE_ARM_CONFIG names a fitted arm and fitted sources, with parameters in range, and shadow set 1 is free. -/
structure ArmConfigAdmitted (c : Cmd) (s : State) : Prop where
  staging : StagingAdmitted 28 1 [.config, .factoryTest] c s
  arm : ArmNamed c s
  sources : mprOk s = true ∨ (srcMpr (c.u16 18) = false ∧ srcMpr (c.u16 20) = false)
  range : ArmConfigInRange s.tick.len c

/-- The parameters do not fit the arm: another count of cells than the roster's, cells on another die, a reference loop of another CTL die
or beyond the channels of the tick, or negative insertion without a full bridge (R233). -/
def ArmMisfits (c : Cmd) (s : State) : Prop :=
  c.u16 2 + c.u16 4 ≠ (armCids s (c.u8 0)).length ∨ (armCids s (c.u8 0)).any (fun x => x / 128 / 16 != c.u8 0 / 6) = true ∨
    c.u16 16 / 256 ≠ c.u8 0 / 6 ∨ (s.tick.len = 1 ∧ 128 ≤ c.u16 16 % 256) ∨
    (c.u8 24 = 1 ∧ (armCids s (c.u8 0)).any (fullBridge s) = false)

/-- What AIE_ARM_CONFIG answers, with CONFLICT too (assumption 103): the count of the arm's cells and delta_x under the current set of the
group. -/
def armConfigResult (c : Cmd) (s : State) : Bytes :=
  le 2 (armCids s (c.u8 0)).length ++ leS 2 (deltaX (readArmCfg c) (derCfg s (c.u8 1)))

/-- The configuration of the arm waits in shadow set 1. -/
def armConfigStaged (c : Cmd) (s : State) : State :=
  stage 1 c.params (s.onAie (fun e => { e with armNew := tset e.armNew (c.u8 0) (readArmCfg c) }))

/-- The gate of AIE_ARM_CONFIG (`execAieArmConfig`). -/
def armConfigGate (c : Cmd) (s : State) : Gate :=
  stagingGate 0x0401 28 1 (inStates [.config]) (armFit s (c.u8 0) && (mprOk s || !(srcMpr (c.u16 18) || srcMpr (c.u16 20))))
    (c.u8 0 < 12 && c.u8 1 < 2 && 1 ≤ c.u16 2 && c.u16 2 + c.u16 4 ≤ armCells s.tick.len && 1 ≤ c.u16 6 && 1 ≤ c.u32 8 &&
      c.u32 8 ≤ 2000000 && 1 ≤ c.u32 12 && c.u32 12 ≤ 100000 && c.u16 16 < 512 && srcOk (c.u16 18) && srcOk (c.u16 20) &&
      (c.u16 22 == 0 || 64 ≤ c.u16 22) && c.u8 24 < 2 && c.rsv 25 3) c s

section
variable (h : ArmConfigAdmitted c s)
include h

theorem ArmConfigAdmitted.passes : (armConfigGate c s).Passes c s := by
  refine h.staging.passes (serving_of_mem h.staging.admits.2.1 (by decide) (by decide)) rfl ?fitted ?par
  case fitted => simpa [h.arm.fitted] using h.sources
  case par =>
    obtain ⟨hgroup, hneeded, hcells, hcap, hvlow, hvhigh, hilow, hihigh, hloop, hvsrc, hisrc, hrot, hneg, hrsv⟩ := h.range
    simp [h.arm.number, hgroup, hneeded, hcells, hcap, hvlow, hvhigh, hilow, hihigh, hloop, hvsrc, hisrc, hrot, hneg, hrsv]

theorem ArmConfigAdmitted.exec_stages (hfits : ¬ArmMisfits c s) :
    execAieArmConfig c s = .next (answer 0x0401 c .ok (armConfigResult c s) (armConfigStaged c s)) := by
  unfold execAieArmConfig
  exact h.passes.answers h.staging.gate_free rfl (if_neg (by simpa [ArmMisfits, readArmCfg] using hfits))

theorem ArmConfigAdmitted.exec_conflict (hno : ArmMisfits c s) :
    execAieArmConfig c s = .next (answer 0x0401 c .conflict (armConfigResult c s) s) := by
  unfold execAieArmConfig
  exact h.passes.answers h.staging.gate_free rfl (if_pos (by simpa [ArmMisfits, readArmCfg] using hno))

end

/-! ### AIE_SELECT_PARAMS (R231, R232) -/

/-- The parameters of AIE_SELECT_PARAMS are in the ranges of Table 8.5, at a tick of `t` µs. -/
structure SelectParamsInRange (t : Nat) (c : Cmd) : Prop where
  reserved : c.rsv 1 1 = true
  padding : c.rsv 15 1 = true
  staleLow : 1 ≤ c.u16 6
  staleHigh : c.u16 6 ≤ 64
  saturation : c.u32 8 < 2 ^ 31
  capLow : 1 ≤ c.u16 12
  capHigh : c.u16 12 ≤ 10000
  depthLow : 1 ≤ c.u8 14
  depthHigh : c.u8 14 ≤ 64
  offset : c.u16 16 = 0 ∨ (1200 ≤ c.u16 16 ∧ c.u16 16 < stepsOf t)

/-- The states in which the parameters of a running engine may be staged, and FACTORY_TEST (Table 8.6, R104). -/
abbrev aieStates : List DevState := [.config, .standby, .deblocked, .safeStop, .blockedFault, .factoryTest]

/-- The selection parameters of the arm wait in shadow set 1. -/
def selectStaged (c : Cmd) (s : State) : State :=
  stage 1 c.params (s.onAie (fun e => { e with selNew := tset e.selNew (c.u8 0) (readSelCfg c) }))

/-- The gate of AIE_SELECT_PARAMS (`execAieSelectParams`). -/
def selectParamsGate (c : Cmd) (s : State) : Gate :=
  stagingGate 0x0402 24 1 busyStates (armFit s (c.u8 0))
    (c.u8 0 < 12 && c.rsv 1 1 && c.rsv 15 1 && 1 ≤ c.u16 6 && c.u16 6 ≤ 64 && c.u32 8 < 2 ^ 31 && 1 ≤ c.u16 12 && c.u16 12 ≤ 10000 &&
      1 ≤ c.u8 14 && c.u8 14 ≤ 64 && (c.u16 16 == 0 || (1200 ≤ c.u16 16 && c.u16 16 < stepsOf s.tick.len))) c s

theorem selectParamsGate_passes (h : StagingAdmitted 24 1 aieStates c s) (harm : ArmNamed c s) (hrange : SelectParamsInRange s.tick.len c) :
    (selectParamsGate c s).Passes c s := by
  refine h.passes (serving_of_mem h.admits.2.1 (by decide) (by decide)) rfl harm.fitted ?_
  obtain ⟨hrsv, hpad, hslow, hshigh, hsat, hclow, hchigh, hdlow, hdhigh, hoff⟩ := hrange
  simpa [harm.number, hrsv, hpad, hslow, hshigh, hclow, hchigh, hdlow, hdhigh, hoff] using hsat

theorem execAieSelectParams_stages (h : StagingAdmitted 24 1 aieStates c s) (harm : ArmNamed c s)
    (hrange : SelectParamsInRange s.tick.len c) :
    execAieSelectParams c s = .next (answer 0x0402 c .ok (leS 2 (rho (readSelCfg c) s.tick.len)) (selectStaged c s)) := by
  unfold execAieSelectParams
  exact (selectParamsGate_passes h harm hrange).answers h.gate_free rfl rfl

/-! ### AIE_DERATE_CONFIG (R231, R233) -/

/-- The parameters of AIE_DERATE_CONFIG are in the ranges of Table 8.5. -/
structure DerateConfigInRange (c : Cmd) : Prop where
  group : c.u8 0 < 2
  reserved : c.rsv 1 3 = true
  nominal : 268435456 ≤ c.s32 4
  ordered : c.s32 4 ≤ c.s32 8
  most : c.s32 8 ≤ 536870912
  stepLow : 0 < c.s32 12
  stepHigh : c.s32 12 ≤ 134217728
  leastLow : 0 ≤ c.s32 16
  leastHigh : c.s32 16 ≤ one28
  downLow : 0 < c.s32 20
  downHigh : c.s32 20 ≤ one28
  upLow : 0 < c.s32 24
  upHigh : c.s32 24 ≤ one28
  window : 64 ≤ c.u16 28
  quota : c.u16 30 ≤ c.u16 28

/-- The configured arms of group `g`. -/
def groupArms (g : Nat) (s : State) : List ArmCfg := ((List.range 12).filterMap (fun a => armCfg s a)).filter (fun x => x.group == g)

/-- The derating of the group waits in shadow set 1. -/
def derateStaged (c : Cmd) (s : State) : State :=
  stage 1 c.params (s.onAie (fun e => { e with derNew := tset e.derNew (c.u8 0) (readDerateCfg c) }))

/-- The answer lists delta_x of the arms of the group only (assumption 103). -/
theorem execAieDerateConfig_stages (h : StagingAdmitted 32 1 aieStates c s) (hm2 : isM2 s = false) (hrange : DerateConfigInRange c) :
    execAieDerateConfig c s = .next (answer 0x0403 c .ok ((groupArms (c.u8 0) s).flatMap (fun x => leS 2 (deltaX x (readDerateCfg c))))
      (derateStaged c s)) := by
  obtain ⟨hgroup, hrsv, hnom, hord, hmost, hslow, hshigh, hllow, hlhigh, hdlow, hdhigh, hulow, huhigh, hwin, hquota⟩ := hrange
  unfold execAieDerateConfig
  exact (h.passes (serving_of_mem h.admits.2.1 (by decide) (by decide)) rfl (by simp [hm2])
    (by simp [readDerateCfg, hgroup, hrsv, hnom, hord, hmost, hslow, hshigh, hllow, hlhigh, hdlow, hdhigh, hulow, huhigh, hwin, hquota])).answers
      h.gate_free rfl rfl

/-! ### AIE_WEAR_READ and AIE_ARM_STATUS (R234) -/

/-- What AIE_WEAR_READ answers beside its buffer: the count of the arm's cells, the mean wear and the tick of the last save. -/
def wearResult (c : Cmd) (s : State) : Bytes :=
  le 2 (armCids s (c.u8 0)).length ++ le 2 0 ++ le 8 (armGet s (c.u8 0)).meanWear ++ le 4 s.aie.saved

section
variable (hserving : Serving s) (hmb : c.mb ≠ 0)
include hserving hmb

theorem execAieWearRead_ok (hinline : Inline c 12) (harm : ArmNamed c s) (hrsv : c.rsv 1 3 = true) (haligned : c.u64 4 % 64 = 0)
    (haddr : c.u64 4 ≠ 0) : execAieWearRead c s = .next (answer 0x0404 c .ok (wearResult c s)
      (putBuf (c.u64 4) (withCrc ((armCids s (c.u8 0)).flatMap (wearEntry s (c.u8 0)))) s)) := by
  unfold execAieWearRead
  exact (readGate_passes_inline hserving (.inr hmb) hinline harm.fitted
    (by simp [Cmd.buf, harm.number, hrsv, haligned, haddr])).answers rfl rfl rfl

theorem execAieArmStatus_ok (hinline : Inline c 4) (harm : ArmNamed c s) (hrsv : c.rsv 1 3 = true) :
    execAieArmStatus c s = .next (answer 0x0405 c .ok (armStatus s (c.u8 0)) s) := by
  unfold execAieArmStatus
  exact (readGate_passes_inline hserving (.inr hmb) hinline harm.fitted (by simp [harm.number, hrsv])).answers rfl rfl rfl

/-! ### The arm, or the engine, is not fitted (R233) -/

/-- An inline command of MB1 to MB7 that needs what is not fitted. -/
theorem runCmd_inline_not_fitted {g : Gate} {act : State → Reply} {n : Nat} (hmb17 : g.mb17 = true) (htest : g.test = false)
    (hlen : g.len = c.inl n) (hinline : Inline c n) (hfitted : g.fitted = false) :
    runCmd g c s act = .next (answer g.opcode c .notFitted g.info s) :=
  runCmd_of_fail hserving (Gate.fail_of_not_fitted (mailbox_of_ne_zero hmb hmb17) (by simp [htest]) (hlen.trans (inl_of_inline hinline)) hfitted)
    (by decide)

theorem execAieDerateConfig_not_fitted (hinline : Inline c 32) (hm2 : isM2 s = true) :
    execAieDerateConfig c s = .next (answer 0x0403 c .notFitted [] s) := by
  unfold execAieDerateConfig
  exact runCmd_inline_not_fitted hserving hmb rfl rfl rfl hinline (by simp [hm2])

section
variable (habsent : ArmAbsent c s)
include habsent

theorem execAieArmConfig_not_fitted (hinline : Inline c 28) : execAieArmConfig c s = .next (answer 0x0401 c .notFitted [] s) := by
  unfold execAieArmConfig
  exact runCmd_inline_not_fitted hserving hmb rfl rfl rfl hinline (by simp [habsent.not_fitted])

theorem execAieSelectParams_not_fitted (hinline : Inline c 24) : execAieSelectParams c s = .next (answer 0x0402 c .notFitted [] s) := by
  unfold execAieSelectParams
  exact runCmd_inline_not_fitted hserving hmb rfl rfl rfl hinline habsent.not_fitted

theorem execAieWearRead_not_fitted (hinline : Inline c 12) : execAieWearRead c s = .next (answer 0x0404 c .notFitted [] s) := by
  unfold execAieWearRead
  exact runCmd_inline_not_fitted hserving hmb rfl rfl rfl hinline habsent.not_fitted

theorem execAieArmStatus_not_fitted (hinline : Inline c 4) : execAieArmStatus c s = .next (answer 0x0405 c .notFitted [] s) := by
  unfold execAieArmStatus
  exact runCmd_inline_not_fitted hserving hmb rfl rfl rfl hinline habsent.not_fitted

end

end

/-! ### The obligation -/

/-- Settles O23: each command's gate passes under the conditions of its clause, or fails at what is not fitted, and AIE_ARM_CONFIG takes the
branch that the fit of its parameters names. -/
theorem insertionEngineCommands : Obligations.InsertionEngineCommands := by
  refine ⟨?armConfig, ?armConflict, ?selectParams, ?derateConfig, ?wearRead, ?armStatus, ?noArmConfig, ?noSelectParams, ?noDerateConfig,
    ?noWearRead, ?noArmStatus⟩
  case armConfig =>
    intro c s hadmits hinline hm2 hnumber hok hsources hfree hgroup hneeded hcells hcap hvlow hvhigh hilow hihigh hloop hvsrc hisrc hrot hneg
      hrsv hcount hnear hdie hchannel hbridge
    refine ArmConfigAdmitted.exec_stages ⟨⟨hadmits, hinline, hfree⟩, ⟨hm2, hnumber, hok⟩, hsources, hgroup, hneeded, hcells, hcap, hvlow,
      hvhigh, hilow, hihigh, hloop, hvsrc, hisrc, hrot, hneg, hrsv⟩ ?_
    rintro (hno | hno | hno | ⟨hlen, hno⟩ | ⟨hset, hno⟩)
    · exact hno hcount
    · exact Bool.false_ne_true (hnear.symm.trans hno)
    · exact hno hdie
    · exact hchannel.elim (· hlen) (Nat.not_lt.mpr hno)
    · exact hbridge.elim (by omega) (fun hfull => Bool.false_ne_true (hno.symm.trans hfull))
  case armConflict =>
    intro c s hadmits hinline hm2 hnumber hok hsources hfree hgroup hneeded hcells hcap hvlow hvhigh hilow hihigh hloop hvsrc hisrc hrot hneg
      hrsv hno
    exact ArmConfigAdmitted.exec_conflict ⟨⟨hadmits, hinline, hfree⟩, ⟨hm2, hnumber, hok⟩, hsources, hgroup, hneeded, hcells, hcap, hvlow,
      hvhigh, hilow, hihigh, hloop, hvsrc, hisrc, hrot, hneg, hrsv⟩ hno
  case selectParams =>
    intro c s hadmits hinline hm2 hnumber hok hfree hrsv hpad hslow hshigh hsat hclow hchigh hdlow hdhigh hoff
    exact execAieSelectParams_stages ⟨hadmits, hinline, hfree⟩ ⟨hm2, hnumber, hok⟩
      ⟨hrsv, hpad, hslow, hshigh, hsat, hclow, hchigh, hdlow, hdhigh, hoff⟩
  case derateConfig =>
    intro c s hadmits hinline hm2 hgroup hfree hrsv hnom hord hmost hslow hshigh hllow hlhigh hdlow hdhigh hulow huhigh hwin hquota
    exact execAieDerateConfig_stages ⟨hadmits, hinline, hfree⟩ hm2
      ⟨hgroup, hrsv, hnom, hord, hmost, hslow, hshigh, hllow, hlhigh, hdlow, hdhigh, hulow, huhigh, hwin, hquota⟩
  case wearRead =>
    intro c s hserving hinline hmb hm2 hnumber hok hrsv haligned haddr
    exact execAieWearRead_ok hserving hmb hinline ⟨hm2, hnumber, hok⟩ hrsv haligned haddr
  case armStatus =>
    intro c s hserving hinline hmb hm2 hnumber hok hrsv
    exact execAieArmStatus_ok hserving hmb hinline ⟨hm2, hnumber, hok⟩ hrsv
  case noArmConfig => exact fun c s hserving hmb hinline habsent => execAieArmConfig_not_fitted hserving hmb habsent hinline
  case noSelectParams => exact fun c s hserving hmb hinline habsent => execAieSelectParams_not_fitted hserving hmb habsent hinline
  case noDerateConfig => exact fun c s hserving hmb hinline hm2 => execAieDerateConfig_not_fitted hserving hmb hinline hm2
  case noWearRead => exact fun c s hserving hmb hinline habsent => execAieWearRead_not_fitted hserving hmb habsent hinline
  case noArmStatus => exact fun c s hserving hmb hinline habsent => execAieArmStatus_not_fitted hserving hmb habsent hinline

end Sys2Proof.Machine

/-! PROOFS. The PWM commands stage into shadow set bit 2, clear trips and read an arm generator, a pair and the comparators (Tables 9.9 to
9.11, R248, R251, R253 to R255, O25). -/

namespace Sys2Proof.Machine

open Sys2Proof

variable {c : Cmd} {s : State}

/-! ### PWM_ARM_CONFIG, PWM_PAIR_CONFIG and PWM_TRIP_CONFIG (Table 9.9) -/

/-- The parameters of the generator of an arm, as PWM_ARM_CONFIG carries them. -/
def readGenCfg (c : Cmd) : GenCfg := { ev := c.u8 1, eps := c.u16 2, emax := c.u32 4 }

/-- The parameters of PWM_ARM_CONFIG are in the ranges of Table 9.9, at a tick of `t` µs. -/
structure GenConfigInRange (t : Nat) (c : Cmd) : Prop where
  events : c.u8 1 < 4
  prescaleLow : 1 ≤ c.u16 2
  prescaleHigh : c.u16 2 ≤ 256
  edges : c.u32 4 ≤ stepsOf t

/-- The parameters of the generator of the arm wait in shadow set 2. -/
def genConfigStaged (c : Cmd) (s : State) : State :=
  stage 2 c.params (s.onPwm (fun w => { w with genNew := tset w.genNew (c.u8 0) (readGenCfg c) }))

theorem execPwmArmConfig_stages (h : StagingAdmitted 8 2 aieStates c s) (harm : ArmNamed c s) (hrange : GenConfigInRange s.tick.len c) :
    execPwmArmConfig c s = .next (answer 0x0501 c .ok (le 4 (emaxOf (readGenCfg c) (stepsOf s.tick.len))) (genConfigStaged c s)) := by
  obtain ⟨hevents, hlow, hhigh, hedges⟩ := hrange
  unfold execPwmArmConfig
  exact (h.passes (serving_of_mem h.admits.2.1 (by decide) (by decide)) rfl harm.fitted
    (by simp [harm.number, hevents, hlow, hhigh, hedges])).answers h.gate_free rfl rfl

/-- PWM_PAIR_CONFIG names one of the 8 pairs of a fitted MPR, with parameters in range, and shadow set 2 is free. -/
structure PairConfigAdmitted (c : Cmd) (s : State) : Prop where
  staging : StagingAdmitted 24 2 aieStates c s
  fitted : mprOk s = true
  number : c.u8 0 < 8
  range : pairParOk c (readPairCfg c) = true

/-- The source of the pair is a port of a CTL die that is absent. -/
def PairSourceAbsent (c : Cmd) (s : State) : Prop := c.u16 8 / 16384 ≠ 0 ∧ ctlOk s (c.u16 8 / 256 % 2) = false

/-- The parameters of the pair wait in shadow set 2. -/
def pairConfigStaged (c : Cmd) (s : State) : State :=
  stage 2 c.params (s.onPwm (fun w => { w with pairNew := tset w.pairNew (c.u8 0) (readPairCfg c) }))

section
variable (h : PairConfigAdmitted c s)
include h

theorem PairConfigAdmitted.passes :
    (stagingGate 0x0502 24 2 busyStates (mprOk s) (c.u8 0 < 8 && pairParOk c (readPairCfg c)) c s).Passes c s :=
  h.staging.passes (serving_of_mem h.staging.admits.2.1 (by decide) (by decide)) rfl h.fitted (by simp [h.number, h.range])

theorem PairConfigAdmitted.exec_stages (hsource : ¬PairSourceAbsent c s) :
    execPwmPairConfig c s = .next (answer 0x0502 c .ok (le 4 (pairPeriod (readPairCfg c))) (pairConfigStaged c s)) := by
  unfold execPwmPairConfig
  exact h.passes.answers h.staging.gate_free rfl (if_neg (by simpa [PairSourceAbsent, readPairCfg] using hsource))

theorem PairConfigAdmitted.exec_conflict (hsource : PairSourceAbsent c s) :
    execPwmPairConfig c s = .next (answer 0x0502 c .conflict [] s) := by
  unfold execPwmPairConfig
  exact h.passes.answers h.staging.gate_free rfl (if_pos (by simpa [PairSourceAbsent, readPairCfg] using hsource))

end

/-- The parameters of a comparator, as PWM_TRIP_CONFIG carries them. -/
def readCmpCfg (c : Cmd) : CmpCfg := { flags := c.u8 1, thr := c.u16 2, pmask := c.u8 4 }

/-- The parameters of PWM_TRIP_CONFIG are in the ranges of Table 9.9. -/
structure TripConfigInRange (c : Cmd) : Prop where
  number : c.u8 0 < 24
  flags : c.u8 1 < 32
  threshold : c.u16 2 < 4096
  reserved : c.rsv 5 3 = true

/-- The parameters of the comparator wait in shadow set 2. -/
def tripConfigStaged (c : Cmd) (s : State) : State :=
  stage 2 c.params (s.onPwm (fun w => { w with cmpNew := tset w.cmpNew (c.u8 0) (readCmpCfg c) }))

theorem execPwmTripConfig_stages (h : StagingAdmitted 8 2 aieStates c s) (hmpr : mprOk s = true) (hrange : TripConfigInRange c) :
    execPwmTripConfig c s =
      .next (answer 0x0503 c .ok (le 4 (roundDiv ((c.u16 2 * 78125 : Nat) : Int) 100).toNat) (tripConfigStaged c s)) := by
  obtain ⟨hnumber, hflags, hthr, hrsv⟩ := hrange
  unfold execPwmTripConfig
  exact (h.passes (serving_of_mem h.admits.2.1 (by decide) (by decide)) rfl hmpr
    (by simp [hnumber, hflags, hthr, hrsv])).answers h.gate_free rfl rfl

/-! ### PWM_TRIP_CLEAR (R251) -/

/-- PWM_TRIP_CLEAR names latches of comparators or pairs, on a fitted MPR, in a state and role of Table 9.10. -/
structure TripClearAdmitted (c : Cmd) (s : State) : Prop where
  admits : Admits c s aieStates [.active, .standby]
  params : Inline c 8
  fitted : mprOk s = true
  comparators : c.u32 0 < 2 ^ 24
  reserved : c.rsv 5 3 = true
  named : c.u32 0 ≠ 0 ∨ c.u8 4 ≠ 0

/-- The pairs that the command names. -/
def namedPairs (c : Cmd) : List Nat := (List.range 8).filter (bit (c.u8 4))

/-- A named comparator, or one that can trip a named pair, is active. -/
def TripActive (c : Cmd) (s : State) : Prop :=
  (List.range 24).any (fun n => bit (c.u32 0) n && s.pwm.active.getLsbD n) = true ∨
    (namedPairs c).any (fun p => (tripSources s p).any (fun n => s.pwm.active.getLsbD n)) = true

/-- A comparator that can trip a named pair is latched and not named. -/
def TripUnnamed (c : Cmd) (s : State) : Prop :=
  (namedPairs c).any (fun p => (tripSources s p).any (fun n => s.pwm.latched.getLsbD n && !bit (c.u32 0) n)) = true

/-- The named latches of comparators and pairs are cleared (R251). -/
def clearNamedLatches (c : Cmd) (s : State) : State :=
  (namedPairs c).foldl (fun t p => pairUpd p (fun x => { x with latch := false }) t)
    (s.onPwm (fun w => { w with latched := w.latched &&& ~~~(BitVec.ofNat 24 (c.u32 0)) }))

/-- The comparator latched first is forgotten with the last latch (R255). -/
def forgetFirst (s : State) : State := if s.pwm.latched = 0 then s.onPwm (fun w => { w with first := none }) else s

/-- What PWM_TRIP_CLEAR answers: the latches of comparators and pairs that are set (Table 9.10). -/
def latchesLeft (s : State) : Bytes :=
  le 4 s.pwm.latched.toNat ++ le 1 (maskOf ((List.range 8).filter (fun p => (pairGet s p).latch))) ++ le 3 0

/-- The gate of PWM_TRIP_CLEAR (`execPwmTripClear`). -/
def tripClearGate (c : Cmd) (s : State) : Gate := {
  opcode := 0x0504, len := c.inl 8, fitted := mprOk s, legal := busyStates, roles := actStby,
  par := c.u32 0 < 2 ^ 24 && c.rsv 5 3 && (c.u32 0 != 0 || c.u8 4 != 0) }

section
variable (h : TripClearAdmitted c s)
include h

theorem TripClearAdmitted.passes : (tripClearGate c s).Passes c s where
  serving := serving_of_mem h.admits.2.1 (by decide) (by decide)
  mailbox := mailbox_of_ne_zero h.admits.1 rfl
  test := rfl
  len := inl_of_inline h.params
  fitted := h.fitted
  legal := legal_of_mem' h.admits.2.1 rfl
  roles := roles_of_mem h.admits.2.2 rfl
  permit := rfl
  par := by
    have hcomparators : c.u32 0 < 16777216 := h.comparators
    simpa [tripClearGate, hcomparators, h.reserved] using h.named
  entry := entryReserved_of_inline h.params

theorem TripClearAdmitted.exec_active (hactive : TripActive c s) :
    execPwmTripClear c s = .next (answer 0x0504 c .tripActive [] s) := by
  unfold execPwmTripClear
  exact h.passes.answers rfl rfl (if_pos hactive)

theorem TripClearAdmitted.exec_conflict (hactive : ¬TripActive c s) (hunnamed : TripUnnamed c s) :
    execPwmTripClear c s = .next (answer 0x0504 c .conflict [] s) := by
  unfold execPwmTripClear
  exact h.passes.answers rfl rfl ((if_neg hactive).trans (if_pos hunnamed))

theorem TripClearAdmitted.exec_clears (hactive : ¬TripActive c s) (hunnamed : ¬TripUnnamed c s) :
    execPwmTripClear c s = .next (answer 0x0504 c .ok (latchesLeft (forgetFirst (clearNamedLatches c s)))
      (forgetFirst (clearNamedLatches c s))) := by
  unfold execPwmTripClear
  exact h.passes.answers rfl rfl ((if_neg hactive).trans (if_neg hunnamed))

end

/-! ### PWM_STATUS (R255, Table 9.11) -/

/-- What PWM_STATUS answers for the generator of arm `a`. -/
def genStatus (s : State) (a : Nat) : Bytes :=
  le 1 a ++ le 1 (b2n (genGet s a).baseIn + 2 * b2n (genGet s a).bpolNeg) ++ le 2 ((armGet s a).desig.getD 0xFFFF) ++
    leS 4 (genGet s a).carry ++ leS 4 (genGet s a).wout ++ le 4 (genGet s a).sats ++ le 4 (genGet s a).resets ++
    le 4 (genGet s a).noWin ++ le 8 (genGet s a).edges

/-- What PWM_STATUS answers for pair `p`. -/
def pairStatus (s : State) (p : Nat) : Bytes :=
  le 1 p ++ le 1 (pairState s p) ++ le 2 (pairGet s p).tag.toNat ++ le 2 (pairGet s p).cmp ++ le 2 0 ++
    le 2 (listMin ((pairGet s p).dtA.map (·.2))) ++ le 2 (listMax ((pairGet s p).dtA.map (·.2))) ++
    le 2 (listMin ((pairGet s p).dtB.map (·.2))) ++ le 2 (listMax ((pairGet s p).dtB.map (·.2))) ++
    le 4 (pairGet s p).missed ++ le 4 (pairGet s p).trips ++
    le 4 (maskOf ((tripSources s p).filter (fun n => s.pwm.latched.getLsbD n)))

/-- What PWM_STATUS answers for the comparators. -/
def comparatorStatus (s : State) : Bytes :=
  le 4 s.pwm.active.toNat ++ le 4 s.pwm.latched.toNat ++ le 4 s.pwm.blockedBy.toNat ++ le 1 (s.pwm.first.elim 0xFF (·.1)) ++ le 3 0 ++
    le 8 (s.pwm.first.elim 0 (·.2)) ++ le 1 (maskOf ((List.range 8).filter (fun p => (pairGet s p).latch))) ++ le 1 0

section
variable (hserving : Serving s) (hmb : c.mb ≠ 0) (hinline : Inline c 4) (hrsv : c.rsv 2 2 = true)
include hserving hmb hinline hrsv

theorem execPwmStatus_generator (hkind : c.u8 0 = 0) (harm : c.u8 1 < 12) (hm2 : isM2 s = false) (hok : armOk s (c.u8 1) = true) :
    execPwmStatus c s = .next (answer 0x0505 c .ok (genStatus s (c.u8 1)) s) := by
  unfold execPwmStatus
  exact (readGate_passes_inline hserving (.inr hmb) hinline ((if_pos hkind).trans (by simp [armFit, hm2, hok]))
    (by simp [hkind, harm, hrsv])).answers rfl rfl (if_pos hkind)

theorem execPwmStatus_pair (hkind : c.u8 0 = 1) (hpair : c.u8 1 < 8) (hmpr : mprOk s = true) :
    execPwmStatus c s = .next (answer 0x0505 c .ok (pairStatus s (c.u8 1)) s) := by
  unfold execPwmStatus
  exact (readGate_passes_inline hserving (.inr hmb) hinline (by simp [hkind, hmpr]) (by simp [hkind, hpair, hrsv])).answers rfl rfl
    ((if_neg (by omega)).trans (if_pos hkind))

theorem execPwmStatus_comparators (hkind : c.u8 0 = 2) (hzero : c.u8 1 = 0) (hmpr : mprOk s = true) :
    execPwmStatus c s = .next (answer 0x0505 c .ok (comparatorStatus s) s) := by
  unfold execPwmStatus
  exact (readGate_passes_inline hserving (.inr hmb) hinline (by simp [hkind, hmpr]) (by simp [hkind, hzero, hrsv])).answers rfl rfl
    ((if_neg (by omega)).trans (if_neg (by omega)))

end

/-! ### The obligation -/

/-- Settles O25: each command's gate passes under the conditions of its clause, and its action takes the branch that they name. -/
theorem pwmCommandsStageAndClear : Obligations.PwmCommandsStageAndClear := by
  refine ⟨?armConfig, ?pairConfig, ?pairConflict, ?tripConfig, ?clearActive, ?clearUnnamed, ?clears, ?generator, ?pair, ?comparators⟩
  case armConfig =>
    intro c s hadmits hinline hm2 hnumber hok hfree hevents hlow hhigh hedges
    exact execPwmArmConfig_stages ⟨hadmits, hinline, hfree⟩ ⟨hm2, hnumber, hok⟩ ⟨hevents, hlow, hhigh, hedges⟩
  case pairConfig =>
    intro c s hadmits hinline hmpr hfree hnumber hrange hsource
    refine PairConfigAdmitted.exec_stages ⟨⟨hadmits, hinline, hfree⟩, hmpr, hnumber, hrange⟩ ?_
    rintro ⟨hport, habsent⟩
    exact Bool.false_ne_true (habsent.symm.trans (hsource.resolve_left hport))
  case pairConflict =>
    intro c s hadmits hinline hmpr hfree hnumber hrange hport habsent
    exact PairConfigAdmitted.exec_conflict ⟨⟨hadmits, hinline, hfree⟩, hmpr, hnumber, hrange⟩ ⟨hport, habsent⟩
  case tripConfig =>
    intro c s hadmits hinline hmpr hfree hnumber hflags hthr hrsv
    exact execPwmTripConfig_stages ⟨hadmits, hinline, hfree⟩ hmpr ⟨hnumber, hflags, hthr, hrsv⟩
  case clearActive =>
    intro c s hadmits hinline hmpr hcomparators hrsv hnamed hactive
    exact TripClearAdmitted.exec_active ⟨hadmits, hinline, hmpr, hcomparators, hrsv, hnamed⟩ hactive
  case clearUnnamed =>
    intro c s hadmits hinline hmpr hcomparators hrsv hnamed hquiet hpairsQuiet hunnamed
    exact TripClearAdmitted.exec_conflict ⟨hadmits, hinline, hmpr, hcomparators, hrsv, hnamed⟩
      (not_or.mpr ⟨ne_true_of_eq_false hquiet, ne_true_of_eq_false hpairsQuiet⟩) hunnamed
  case clears =>
    intro c s hadmits hinline hmpr hcomparators hrsv hnamed hquiet hpairsQuiet hall
    exact TripClearAdmitted.exec_clears ⟨hadmits, hinline, hmpr, hcomparators, hrsv, hnamed⟩
      (not_or.mpr ⟨ne_true_of_eq_false hquiet, ne_true_of_eq_false hpairsQuiet⟩) (ne_true_of_eq_false hall)
  case generator =>
    intro c s hserving hinline hmb hkind harm hm2 hok hrsv
    exact execPwmStatus_generator hserving hmb hinline hrsv hkind harm hm2 hok
  case pair =>
    intro c s hserving hinline hmb hkind hpair hmpr hrsv
    exact execPwmStatus_pair hserving hmb hinline hrsv hkind hpair hmpr
  case comparators =>
    intro c s hserving hinline hmb hmpr hkind hzero hrsv
    exact execPwmStatus_comparators hserving hmb hinline hrsv hkind hzero hmpr

end Sys2Proof.Machine

/-! PROOFS. The instants of a direct pair's counter, its duty, its dead times, and the comparators (R241 to R246, R248, R478, O26). -/

namespace Sys2Proof.Machine

open Sys2Proof

variable {s : State} {p o n : Nat} {b : Bool} {d : Dead}

/-! ### The counter of a pair (R241 to R246) -/

theorem execPairCounterZero_at (hon : pairOn s p = true) (hcount : pairCount s p o = some 0) :
    execPairCounterZero p o s = .next (pairStart p (setDemand p
      (decide (0 < (pairGet (reload p (pairOccur p 1 o (pairUpd p periodNext s))) p).cmp)) o
      (reload p (pairOccur p 1 o (pairUpd p periodNext s))))) :=
  if_neg (by simp [hon, hcount])

theorem execPairCounterZero_elsewhere (h : pairOn s p = false ∨ pairCount s p o ≠ some 0) : execPairCounterZero p o s = .next s :=
  if_pos (by simpa using h)

/-- The counter comes to P: the demand moves in the state that the occurrence, and with RELOAD2 the reload, leaves (Table 9.2). -/
theorem execPairCounterPeriod_at (hon : pairOn s p = true) (hcount : pairCount s p o = some (pairCfg s p).period) {t : State}
    (ht : (if centred (pairCfg s p) ∧ bit (pairCfg s p).mode 3 then reload p (pairOccur p 3 o s) else pairOccur p 3 o s) = t) :
    execPairCounterPeriod p o s = .next (setDemand p (decide ((pairCfg s p).period < (pairGet t p).cmp)) o t) := by
  subst ht
  exact if_neg (by simp [hon, hcount])

theorem execPairCounterPeriod_elsewhere (h : pairOn s p = false ∨ pairCount s p o ≠ some (pairCfg s p).period) :
    execPairCounterPeriod p o s = .next s :=
  if_pos (by simpa using h)

/-- The count at which the compare value is passed, on the counter's way up or down (R242). -/
def matchCount (s : State) (p : Nat) (up : Bool) : Nat :=
  if up then (pairGet s p).cmp else 2 * (pairCfg s p).period + 1 - (pairGet s p).cmp

/-- A compare value from 1 to P is passed, on the way up, and on the way down where the counter has one (R242). -/
def MatchPasses (s : State) (p : Nat) (up : Bool) : Prop :=
  0 < (pairGet s p).cmp ∧ (pairGet s p).cmp ≤ (pairCfg s p).period ∧ (up = true ∨ centred (pairCfg s p) = true)

theorem not_matchPasses_iff :
    ¬MatchPasses s p b ↔ (pairGet s p).cmp = 0 ∨ (pairCfg s p).period < (pairGet s p).cmp ∨
      (!b) = true ∧ (!centred (pairCfg s p)) = true := by
  have hway : ¬(b = true ∨ centred (pairCfg s p) = true) ↔ (!b) = true ∧ (!centred (pairCfg s p)) = true := by
    rw [not_or, Bool.not_eq_true', Bool.not_eq_true', Bool.not_eq_true, Bool.not_eq_true]
  rw [MatchPasses, Decidable.not_and_iff_or_not, Decidable.not_and_iff_or_not, hway, Nat.not_lt, Nat.not_le, Nat.le_zero_eq]

theorem execPairCompareMatch_at (hon : pairOn s p = true) (hpasses : MatchPasses s p b)
    (hcount : pairCount s p o = some (matchCount s p b)) : execPairCompareMatch p o b s = .next (setDemand p (!b) o s) :=
  (if_neg (not_or.mpr ⟨by simp [hon], fun h => not_matchPasses_iff.mpr h hpasses⟩)).trans (if_pos hcount)

theorem execPairCompareMatch_elsewhere (h : pairOn s p = false ∨ ¬MatchPasses s p b ∨ pairCount s p o ≠ some (matchCount s p b)) :
    execPairCompareMatch p o b s = .next s := by
  by_cases hon : pairOn s p = true
  · by_cases hpasses : MatchPasses s p b
    · have hcount := (h.resolve_left (by simp [hon])).resolve_left (not_not_intro hpasses)
      exact (if_neg (not_or.mpr ⟨by simp [hon], fun h => not_matchPasses_iff.mpr h hpasses⟩)).trans (if_neg hcount)
    · exact if_pos (.inr (not_matchPasses_iff.mp hpasses))
  · exact if_pos (.inl (by simp [hon]))

/-! ### The duty and the dead time (R243 to R245) -/

theorem execPairDutyArrival_value {v : Int} {k : Word16} (hcoming : (pairGet s p).coming = some (v, k)) :
    execPairDutyArrival p s = .next (pairUpd p (fun _ => { (pairGet s p) with hold := v, holdTag := k, coming := none }) s) :=
  congrArg _ (pairUpd_eq (by simp [hcoming]))

theorem execPairDutyArrival_none (hcoming : (pairGet s p).coming = none) :
    execPairDutyArrival p s = .next (pairUpd p (fun _ => pairGet s p) s) :=
  congrArg _ (pairUpd_eq (by simp [hcoming]))

theorem execPairCommutationSensed_awaited (hdead : (pairGet s p).dead = some ⟨!b, none, false⟩) (hwithin : n ≤ (pairCfg s p).dtMax) :
    execPairCommutationSensed p b n s = .next (pairUpd p (fun _ => { (pairGet s p) with dead := some ⟨!b, some n, false⟩ }) s) :=
  congrArg _ (pairUpd_eq (by simp [hdead, hwithin]))

/-- No dead time, or one that does not await this level, has been sensed, is fixed, or is past DT_max. -/
theorem execPairCommutationSensed_other
    (h : (pairGet s p).dead.all (fun d => d.toB == b || d.sensed.isSome || d.fixed || decide ((pairCfg s p).dtMax < n)) = true) :
    execPairCommutationSensed p b n s = .next (pairUpd p (fun _ => pairGet s p) s) := by
  refine congrArg _ (pairUpd_eq ?_)
  cases hdead : (pairGet s p).dead with
  | none => rfl
  | some d =>
    refine if_neg ?_
    rintro ⟨hlevel, hunsensed, hfree, hwithin⟩
    simp only [hdead, Option.all_some, Bool.or_eq_true, beq_iff_eq, decide_eq_true_eq] at h
    rcases h with ((hsame | hsensed) | hfixed) | hlate
    · exact hlevel hsame
    · simp [Option.isNone_iff_eq_none.mp hunsensed] at hsensed
    · simp [hfixed] at hfree
    · omega

/-- The pair at the end of dead time `d`, before an output turns on: a commutation that was awaited and not sensed is counted (R244). -/
def deadEnded (d : Dead) (x : PwmPair) : PwmPair :=
  { x with dead := none, missed := if d.sensed.isNone && !d.fixed then inc32 x.missed else x.missed }

theorem execPairDeadtimeEnd_toB (hdead : (pairGet s p).dead = some d) (htoB : d.toB = true) :
    execPairDeadtimeEnd p s = .next (pairUpd p (fun _ => { deadEnded d (pairGet s p) with
      outB := (pairGet s p).run && !(pairGet s p).demand,
      dtB := if d.fixed then (pairGet s p).dtB else ((pairGet s p).periods, deadTime (pairCfg s p) d.sensed) :: (pairGet s p).dtB }) s) :=
  congrArg _ (pairUpd_eq (by simp [hdead, htoB, deadEnded]))

theorem execPairDeadtimeEnd_toA (hdead : (pairGet s p).dead = some d) (htoA : d.toB = false) :
    execPairDeadtimeEnd p s = .next (pairUpd p (fun _ => { deadEnded d (pairGet s p) with
      outA := (pairGet s p).run && (pairGet s p).demand,
      dtA := if d.fixed then (pairGet s p).dtA else ((pairGet s p).periods, deadTime (pairCfg s p) d.sensed) :: (pairGet s p).dtA }) s) :=
  congrArg _ (pairUpd_eq (by simp [hdead, htoA, deadEnded]))

theorem execPairDeadtimeEnd_none (hdead : (pairGet s p).dead = none) :
    execPairDeadtimeEnd p s = .next (pairUpd p (fun _ => pairGet s p) s) :=
  congrArg _ (pairUpd_eq (by simp [hdead]))

/-! ### The comparators (R248, R478) -/

/-- An enabled comparator of a fitted MPR. -/
structure ComparatorEnabled (s : State) (n : Nat) : Prop where
  number : n < 24
  fitted : mprOk s = true
  enabled : bit (cmpCfg s n).flags 0 = true

/-- The comparator blocks: its BLOCK flag is set, in a state that R248 names. -/
def comparatorBlocks (s : State) (n : Nat) : Bool :=
  bit (cmpCfg s n).flags 2 && (s.dev.state == .standby || s.dev.state == .deblocked || s.dev.state == .safeStop)

/-- The comparator is active and latched, first of all where no latch was set; one that blocks is among the causes of the block. -/
def comparatorLatched (n : Nat) (blocks : Bool) (s : State) : State :=
  s.onPwm (fun w => { w with
    active := w.active ||| (1#24 <<< n), latched := w.latched ||| (1#24 <<< n),
    first := if w.latched = 0 then some (n, s.tick.index) else w.first,
    blockedBy := if blocks then w.blockedBy ||| (1#24 <<< n) else w.blockedBy })

/-- The pairs that comparator `n` can trip are tripped, and it reports. -/
def comparatorReported (n : Nat) (k : CmpCfg) (s : State) : State :=
  raise 3 0x022 0x01 .notice n [k.pmask, b2n (bit k.flags 2)] (((List.range 8).filter (bit k.pmask)).foldl (fun t p => pairTrip p t) s)

/-- What an enabled comparator does, by whether it blocks. -/
theorem execComparatorActive_enabled (h : ComparatorEnabled s n) (hblocks : comparatorBlocks s n = b) :
    execComparatorActive n s = .next (stoInput n (when b (fun t => addTrigger .blockedFault 0x31 0 (blockAll 0x31 t))
      (comparatorReported n (cmpCfg s n) (comparatorLatched n b s)))) := by
  subst hblocks
  exact if_neg (by simp [h.number, h.fitted, h.enabled])

theorem execComparatorActive_not_enabled (h : 24 ≤ n ∨ mprOk s = false ∨ bit (cmpCfg s n).flags 0 = false) :
    execComparatorActive n s = .next s :=
  if_pos (by simpa using h)

/-! ### The obligation -/

/-- Settles O26: each event acts at its instant or under its condition, and elsewhere leaves the state (assumption 9); where the counter
stands before its first 0, and the demand that moves in a dead time, are those of assumptions 135 and 136. -/
theorem pairEventsDriveTheOutputs : Obligations.PairEventsDriveTheOutputs := by
  refine ⟨?zero, ?notZero, ?period, ?periodReload, ?notPeriod, ?up, ?down, ?noMatch, ?duty, ?noDuty, ?sensed, ?notSensed, ?deadToB,
    ?deadToA, ?noDead, ?active, ?blocks, ?notEnabled, ?inactive⟩
  case zero => exact fun p o s hon hcount => execPairCounterZero_at hon hcount
  case notZero => exact fun p o s h => execPairCounterZero_elsewhere h
  case period =>
    intro p o s hon hcount hnoReload
    exact execPairCounterPeriod_at hon hcount (if_neg (by rcases hnoReload with h | h <;> simp [h]))
  case periodReload =>
    intro p o s hon hcount hcentred hreload
    exact execPairCounterPeriod_at hon hcount (if_pos ⟨hcentred, hreload⟩)
  case notPeriod => exact fun p o s h => execPairCounterPeriod_elsewhere h
  case up => exact fun p o s hon hlow hhigh hcount => execPairCompareMatch_at (b := true) hon ⟨hlow, hhigh, .inl rfl⟩ hcount
  case down =>
    exact fun p o s hon hlow hhigh hcentred hcount => execPairCompareMatch_at (b := false) hon ⟨hlow, hhigh, .inr hcentred⟩ hcount
  case noMatch =>
    intro p o b s h
    rcases h with hoff | hzero | habove | ⟨hdown, hedge⟩ | hother
    · exact execPairCompareMatch_elsewhere (.inl hoff)
    · exact execPairCompareMatch_elsewhere (.inr (.inl (not_matchPasses_iff.mpr (.inl hzero))))
    · exact execPairCompareMatch_elsewhere (.inr (.inl (not_matchPasses_iff.mpr (.inr (.inl habove)))))
    · exact execPairCompareMatch_elsewhere (.inr (.inl (not_matchPasses_iff.mpr (.inr (.inr (by simp [hdown, hedge]))))))
    · exact execPairCompareMatch_elsewhere (.inr (.inr hother))
  case duty => exact fun p v k s hcoming => execPairDutyArrival_value hcoming
  case noDuty => exact fun p s hcoming => execPairDutyArrival_none hcoming
  case sensed => exact fun p n b s hdead hwithin => execPairCommutationSensed_awaited hdead hwithin
  case notSensed => exact fun p n b s h => execPairCommutationSensed_other h
  case deadToB => exact fun p d s hdead htoB => execPairDeadtimeEnd_toB hdead htoB
  case deadToA => exact fun p d s hdead htoA => execPairDeadtimeEnd_toA hdead htoA
  case noDead => exact fun p s hdead => execPairDeadtimeEnd_none hdead
  case active =>
    intro n s hnumber hmpr henabled hno
    refine execComparatorActive_enabled (b := false) ⟨hnumber, hmpr, henabled⟩ ?_
    rcases hno with hflag | ⟨hstandby, hdeblocked, hsafeStop⟩
    · simp [comparatorBlocks, hflag]
    · simp [comparatorBlocks, hstandby, hdeblocked, hsafeStop]
  case blocks =>
    intro n s hnumber hmpr henabled hflag hstate
    have hblocks : comparatorBlocks s n = true := by simpa [comparatorBlocks, hflag, or_assoc] using hstate
    refine (execComparatorActive_enabled ⟨hnumber, hmpr, henabled⟩ hblocks).trans ?_
    rw [comparatorReported, hflag]
    rfl
  case notEnabled => exact fun n s h => execComparatorActive_not_enabled h
  case inactive => exact fun n s => rfl

end Sys2Proof.Machine

/-! PROOFS. The LOOP commands stage the parameters of a channel into shadow set bit 0 and read the channels (Tables 10.8 to 10.10, R269,
R279 to R282, O27). -/

namespace Sys2Proof.Machine

open Sys2Proof

variable {c : Cmd} {s : State}

/-! ### The channel a command names -/

/-- The parameter names a channel that exists at the present T, on a unit with its die. -/
structure LoopChannelNamed (c : Cmd) (s : State) : Prop where
  notM2 : isM2 s = false
  die : ctlOk s (c.u16 0 / 256 % 2) = true
  number : c.u16 0 < 512
  runs : c.u16 0 % 256 < loopChannels s.tick.len

theorem lchFit_of_fitted (hm2 : isM2 s = false) (hdie : ctlOk s (c.u16 0 / 256 % 2) = true) : lchFit s (c.u16 0) = true := by
  simp [lchFit, hm2, hdie]

theorem LoopChannelNamed.fitted (h : LoopChannelNamed c s) : lchFit s (c.u16 0) = true := lchFit_of_fitted h.notM2 h.die

theorem LoopChannelNamed.ok (h : LoopChannelNamed c s) : lchOk s (c.u16 0) = true := by simp [lchOk, h.number, h.runs]

theorem lchFit_of_absent (h : isM2 s = true ∨ ctlOk s (c.u16 0 / 256 % 2) = false) : lchFit s (c.u16 0) = false := by
  rcases h with hm2 | hdie
  · simp [lchFit, hm2]
  · simp [lchFit, hdie]

/-! ### LOOP_CHANNEL_CONFIG (R269, R281) -/

/-- The shadow of the channel with the fields of LOOP_CHANNEL_CONFIG. -/
def channelConfigured (c : Cmd) (s : State) : LoopCfg :=
  { loopShadow s (c.u16 0) with
    form := c.u8 2, ffmode := c.u8 3, ref := c.u16 4, fb := c.u16 6, ffsrc := c.u16 8, track := c.u16 10, uhi := c.s32 12,
    ulo := c.s32 16, kb := c.s32 20, kff := c.s32 24, xmin := c.s32 28, limscale := c.u8 32, rconst := c.s32 36 }

/-- The selectors of reference, feedback, feed-forward and track. -/
def LoopCfg.sources (k : LoopCfg) : List Nat := [k.ref, k.fb, k.ffsrc, k.track]

/-- In every region the coefficients of third order are zero. -/
def thirdOrderZero (k : LoopCfg) : Bool := k.coef.all (fun e => e.2.getD 3 0 == 0 && e.2.getD 6 0 == 0)

/-- The parameters `k` of LOOP_CHANNEL_CONFIG are in the ranges of Table 10.8, at a tick of `t` µs, beside the shadow `old`. -/
structure ChannelConfigInRange (t : Nat) (c : Cmd) (old k : LoopCfg) : Prop where
  form : k.form < 64
  ffmode : k.ffmode < 3
  sources : k.sources.all (selOk t) = true
  forward : ffOk k.ffmode k.ffsrc = true
  limits : k.ulo ≤ k.uhi
  kbLow : 0 ≤ k.kb
  kbHigh : k.kb ≤ 536870912
  xmin : 0 < k.xmin
  limscale : k.limscale < 4
  reserved : c.rsv 33 3 = true
  order : k.third = true ∨ thirdOrderZero old = true

/-- LOOP_CHANNEL_CONFIG names a channel, with parameters in range, and shadow set 0 is free. -/
structure ChannelConfigAdmitted (c : Cmd) (s : State) : Prop where
  staging : StagingAdmitted 40 0 [.config, .standby, .blockedFault, .factoryTest] c s
  channel : LoopChannelNamed c s
  range : ChannelConfigInRange s.tick.len c (loopShadow s (c.u16 0)) (channelConfigured c s)

/-- A source is not fitted, or the safe output lies outside the limits. -/
def channelMisfits (c : Cmd) (s : State) (k : LoopCfg) : Bool :=
  !k.sources.all (selFit s (c.u16 0 / 256 % 2)) || k.usafe < k.ulo || k.uhi < k.usafe

theorem channelMisfits_iff {k : LoopCfg} : channelMisfits c s k = true ↔
    k.sources.all (selFit s (c.u16 0 / 256 % 2)) = false ∨ k.usafe < k.ulo ∨ k.uhi < k.usafe := by
  rw [channelMisfits, Bool.or_eq_true, Bool.or_eq_true, Bool.not_eq_true', decide_eq_true_iff, decide_eq_true_iff, or_assoc]

theorem channelMisfits_eq_false {k : LoopCfg} (hsources : k.sources.all (selFit s (c.u16 0 / 256 % 2)) = true) (hlow : k.ulo ≤ k.usafe)
    (hhigh : k.usafe ≤ k.uhi) : channelMisfits c s k = false := by
  rw [channelMisfits, hsources, decide_eq_false (Int.not_lt.mpr hlow), decide_eq_false (Int.not_lt.mpr hhigh)]
  rfl

/-- The channels that satisfy `p` on the die of the named channel, where `k` waits in the channel's shadow. -/
def stagedCount (p : LoopCfg → Bool) (k : LoopCfg) (c : Cmd) (s : State) : Nat :=
  ((shadowChannels (stageLoop (c.u16 0) c k s) (c.u16 0 / 256 % 2)).filter p).length

/-- With `k` the die would have more than 16 privileged or 192 repetitive channels (R281). -/
def channelsExhausted (c : Cmd) (s : State) (k : LoopCfg) : Bool :=
  16 < stagedCount LoopCfg.privileged k c s || 192 < stagedCount LoopCfg.repetitive k c s

theorem channelsExhausted_iff {k : LoopCfg} : channelsExhausted c s k = true ↔
    16 < stagedCount LoopCfg.privileged k c s ∨ 192 < stagedCount LoopCfg.repetitive k c s := by
  rw [channelsExhausted, Bool.or_eq_true, decide_eq_true_iff, decide_eq_true_iff]

theorem channelsExhausted_eq_false {k : LoopCfg} (hprivileged : stagedCount LoopCfg.privileged k c s ≤ 16)
    (hrepetitive : stagedCount LoopCfg.repetitive k c s ≤ 192) : channelsExhausted c s k = false := by
  rw [channelsExhausted, decide_eq_false (Nat.not_lt.mpr hprivileged), decide_eq_false (Nat.not_lt.mpr hrepetitive)]
  rfl

/-- What LOOP_CHANNEL_CONFIG answers: the privileged channels of the die, and its channels of rank 1 (Table 10.9). -/
def channelConfigResult (c : Cmd) (s : State) (k : LoopCfg) : Bytes :=
  le 2 (stagedCount LoopCfg.privileged k c s) ++ le 2 (stagedCount (fun x => x.shape != 0 && x.rank1) k c s)

/-- What LOOP_CHANNEL_CONFIG does once its checks pass. -/
def channelConfigReply (c : Cmd) (s : State) (k : LoopCfg) : Reply :=
  if channelMisfits c s k then ⟨s, .conflict, [], false⟩
  else if channelsExhausted c s k then ⟨s, .exhausted, [], false⟩
  else okReply (stageLoop (c.u16 0) c k s) (channelConfigResult c s k)

/-- The gate of LOOP_CHANNEL_CONFIG (`execLoopChannelConfig`), for the shadow `old` of the channel and the parameters `k`. -/
def channelConfigGate (c : Cmd) (s : State) (old k : LoopCfg) : Gate :=
  stagingGate 0x0601 40 0 (inStates [.config, .standby, .blockedFault]) (lchFit s (c.u16 0))
    (lchOk s (c.u16 0) && k.form < 64 && k.ffmode < 3 && k.sources.all (selOk s.tick.len) && ffOk k.ffmode k.ffsrc && k.ulo ≤ k.uhi &&
      0 ≤ k.kb && k.kb ≤ 536870912 && 0 < k.xmin && k.limscale < 4 && c.rsv 33 3 && (k.third || thirdOrderZero old)) c s

section
variable (h : ChannelConfigAdmitted c s)
include h

theorem ChannelConfigAdmitted.passes : (channelConfigGate c s (loopShadow s (c.u16 0)) (channelConfigured c s)).Passes c s := by
  refine h.staging.passes (serving_of_mem h.staging.admits.2.1 (by decide) (by decide)) rfl h.channel.fitted ?_
  obtain ⟨hform, hffmode, hsources, hforward, hlimits, hkbLow, hkbHigh, hxmin, hlimscale, hrsv, horder⟩ := h.range
  simp only [h.channel.ok, hform, hffmode, hsources, hforward, hlimits, hkbLow, hkbHigh, hxmin, hlimscale, hrsv, decide_true, Bool.true_and]
  exact Bool.or_eq_true_iff.mpr horder

theorem ChannelConfigAdmitted.exec {t : State} {st : Status} {r : Bytes}
    (hact : channelConfigReply c s (channelConfigured c s) = ⟨t, st, r, false⟩) :
    execLoopChannelConfig c s = .next (answer 0x0601 c st r t) := by
  unfold execLoopChannelConfig
  exact h.passes.answers h.staging.gate_free rfl hact

theorem ChannelConfigAdmitted.exec_conflict (hmisfits : channelMisfits c s (channelConfigured c s) = true) :
    execLoopChannelConfig c s = .next (answer 0x0601 c .conflict [] s) :=
  h.exec (if_pos hmisfits)

section
variable (hfits : channelMisfits c s (channelConfigured c s) = false)
include hfits

theorem ChannelConfigAdmitted.exec_exhausted (hexhausted : channelsExhausted c s (channelConfigured c s) = true) :
    execLoopChannelConfig c s = .next (answer 0x0601 c .exhausted [] s) :=
  h.exec ((if_neg (ne_true_of_eq_false hfits)).trans (if_pos hexhausted))

theorem ChannelConfigAdmitted.exec_stages (hroom : channelsExhausted c s (channelConfigured c s) = false) :
    execLoopChannelConfig c s = .next (answer 0x0601 c .ok (channelConfigResult c s (channelConfigured c s))
      (stageLoop (c.u16 0) c (channelConfigured c s) s)) :=
  h.exec ((if_neg (ne_true_of_eq_false hfits)).trans (if_neg (ne_true_of_eq_false hroom)))

end

end

/-! ### LOOP_COEFF_LOAD and LOOP_TABLE_LOAD (R264, R265) -/

/-- The seven coefficients that LOOP_COEFF_LOAD brings. -/
def readCoefs (c : Cmd) : List Int := (List.range 7).map (fun n => c.s32 (4 + 4 * n))

/-- The shadow of the channel with the coefficients of one region. -/
def coefsLoaded (c : Cmd) (s : State) : LoopCfg :=
  { loopShadow s (c.u16 0) with coef := tset (loopShadow s (c.u16 0)).coef (c.u8 2) (readCoefs c) }

theorem execLoopCoeffLoad_stages (h : StagingAdmitted 32 0 aieStates c s) (hchannel : LoopChannelNamed c s) (hregion : c.u8 2 < 8)
    (hrsv : c.rsv 3 1 = true) (horder : (loopShadow s (c.u16 0)).third = true ∨ (c.s32 16 = 0 ∧ c.s32 28 = 0)) :
    execLoopCoeffLoad c s = .next (answer 0x0602 c .ok [] (stageLoop (c.u16 0) c (coefsLoaded c s) s)) := by
  have hthird : ((loopShadow s (c.u16 0)).third || ((readCoefs c).getD 3 0 == 0 && (readCoefs c).getD 6 0 == 0)) = true := by
    simpa [readCoefs] using horder
  unfold execLoopCoeffLoad
  exact (h.passes (serving_of_mem h.admits.2.1 (by decide) (by decide)) rfl hchannel.fitted
    (by simp only [hchannel.ok, hregion, hrsv, decide_true, Bool.true_and]; exact hthird)).answers h.gate_free rfl rfl

/-- The shadow of the channel with the gain table of LOOP_TABLE_LOAD. -/
def tableLoaded (c : Cmd) (s : State) : LoopCfg :=
  { loopShadow s (c.u16 0) with q := c.u8 2, gains := (List.range 64).map (fun n => c.s32 (4 + 4 * n)) }

/-- LOOP_TABLE_LOAD brings a block for a channel, in a state and role of Table 10.9, and shadow set 0 is free. -/
structure TableLoadAdmitted (c : Cmd) (s : State) : Prop where
  admits : Admits c s aieStates [.active, .standby]
  block : External c (fun l => l == 260)
  channel : LoopChannelNamed c s
  free : setHeld s 0 = false
  scale : c.u8 2 ≤ 24
  reserved : c.rsv 3 1 = true

/-- The gate of LOOP_TABLE_LOAD (`execLoopTableLoad`). -/
def tableLoadGate (c : Cmd) (s : State) : Gate := {
  opcode := 0x0603, len := c.extLen (· == 260), fitted := lchFit s (c.u16 0), legal := loopStates, roles := actStby, free := !setHeld s 0,
  par := lchOk s (c.u16 0) && c.u8 2 ≤ 24 && c.rsv 3 1 }

section
variable (h : TableLoadAdmitted c s)
include h

theorem TableLoadAdmitted.passes : (tableLoadGate c s).Passes c s where
  serving := serving_of_mem h.admits.2.1 (by decide) (by decide)
  mailbox := mailbox_of_ne_zero h.admits.1 rfl
  test := rfl
  len := h.block.2.2.1
  fitted := h.channel.fitted
  legal := legal_of_mem' h.admits.2.1 rfl
  roles := roles_of_mem h.admits.2.2 rfl
  permit := rfl
  par := by simp [tableLoadGate, h.channel.ok, h.scale, h.reserved]
  entry := res1 h.block.1 h.block.2.1 h.block.2.2.2

theorem TableLoadAdmitted.gate_free : (tableLoadGate c s).free = true := by simp [tableLoadGate, h.free]

theorem TableLoadAdmitted.exec_stages : execLoopTableLoad c s =
    .next (answer 0x0603 c .ok (le 4 (2 ^ (28 - c.u8 2))) (stageLoop (c.u16 0) c (tableLoaded c s) s)) := by
  unfold execLoopTableLoad
  exact h.passes.answers h.gate_free rfl rfl

end

/-! ### LOOP_SCHEDULE_CONFIG (R265) -/

/-- The seven thresholds that LOOP_SCHEDULE_CONFIG brings. -/
def readThetas (c : Cmd) : List Int := (List.range 7).map (fun n => c.s32 (12 + 4 * n))

/-- The shadow of the channel with the fields of LOOP_SCHEDULE_CONFIG. -/
def scheduleConfigured (c : Cmd) (s : State) : LoopCfg :=
  { loopShadow s (c.u16 0) with
    regions := c.u8 2, mag := c.u8 3 == 1, sched := c.u16 4, hyst := c.s32 8, thetas := (readThetas c).take (c.u8 2 - 1) }

/-- The parameters of LOOP_SCHEDULE_CONFIG are in the ranges of Table 10.8, at a tick of `t` µs. -/
structure ScheduleInRange (t : Nat) (c : Cmd) : Prop where
  regionsLow : 1 ≤ c.u8 2
  regionsHigh : c.u8 2 ≤ 8
  magnitude : c.u8 3 < 2
  source : selOk t (c.u16 4) = true
  scheduled : c.u8 2 = 1 ∨ 4096 ≤ c.u16 4
  reserved : c.rsv 6 2 = true
  hystLow : 0 ≤ c.s32 8
  hystHigh : c.s32 8 ≤ one28
  thetas : thetasOk (c.u8 2) (readThetas c) = true

/-- LOOP_SCHEDULE_CONFIG names a channel, with parameters in range, and shadow set 0 is free. -/
structure ScheduleAdmitted (c : Cmd) (s : State) : Prop where
  staging : StagingAdmitted 40 0 aieStates c s
  channel : LoopChannelNamed c s
  range : ScheduleInRange s.tick.len c

/-- The gate of LOOP_SCHEDULE_CONFIG (`execLoopScheduleConfig`). -/
def scheduleGate (c : Cmd) (s : State) : Gate :=
  stagingGate 0x0604 40 0 loopStates (lchFit s (c.u16 0))
    (lchOk s (c.u16 0) && 1 ≤ c.u8 2 && c.u8 2 ≤ 8 && c.u8 3 < 2 && selOk s.tick.len (c.u16 4) && (c.u8 2 == 1 || 4096 ≤ c.u16 4) &&
      c.rsv 6 2 && 0 ≤ c.s32 8 && c.s32 8 ≤ one28 && thetasOk (c.u8 2) (readThetas c)) c s

section
variable (h : ScheduleAdmitted c s)
include h

theorem ScheduleAdmitted.passes : (scheduleGate c s).Passes c s := by
  refine h.staging.passes (serving_of_mem h.staging.admits.2.1 (by decide) (by decide)) rfl h.channel.fitted ?_
  obtain ⟨hlow, hhigh, hmag, hsource, hscheduled, hrsv, hhystLow, hhystHigh, hthetas⟩ := h.range
  simpa [h.channel.ok, hlow, hhigh, hmag, hsource, hrsv, hhystLow, hhystHigh, hthetas] using hscheduled

/-- The answer is the region that the scheduling variable is in (R265). -/
theorem ScheduleAdmitted.exec_stages (hfit : selFit s (c.u16 0 / 256 % 2) (c.u16 4) = true) :
    execLoopScheduleConfig c s = .next (answer 0x0604 c .ok
      (le 1 (entryRegion (loopRead s s (c.u16 0 / 256 % 2) (scheduleConfigured c s).rank1) (scheduleConfigured c s)))
      (stageLoop (c.u16 0) c (scheduleConfigured c s) s)) := by
  unfold execLoopScheduleConfig
  exact h.passes.answers h.staging.gate_free rfl (if_neg (by simp [hfit]))

theorem ScheduleAdmitted.exec_conflict (hfit : selFit s (c.u16 0 / 256 % 2) (c.u16 4) = false) :
    execLoopScheduleConfig c s = .next (answer 0x0604 c .conflict [] s) := by
  unfold execLoopScheduleConfig
  exact h.passes.answers h.staging.gate_free rfl (if_pos (by simp [hfit]))

end

/-! ### LOOP_REPETITIVE_CONFIG (R267, R281) -/

/-- The shadow of the channel with the fields of LOOP_REPETITIVE_CONFIG. -/
def repetitiveConfigured (c : Cmd) (s : State) : LoopCfg :=
  { loopShadow s (c.u16 0) with
    rflags := c.u8 2, lead := c.u8 3, phase := c.u16 4, kr := c.s32 8, qf := c.s32 12, mlim := c.s32 16 }

/-- The parameters of LOOP_REPETITIVE_CONFIG are in the ranges of Table 10.8, at a tick of `t` µs. -/
structure RepetitiveInRange (t : Nat) (c : Cmd) : Prop where
  flags : c.u8 2 < 8
  phase : selOk t (c.u16 4) = true
  phased : bit (c.u8 2) 0 = false ∨ 4096 ≤ c.u16 4
  reserved : c.rsv 6 2 = true
  filterLow : 0 ≤ c.s32 12
  filterHigh : c.s32 12 ≤ 536870912
  limit : 0 ≤ c.s32 16

/-- LOOP_REPETITIVE_CONFIG names a channel, with parameters in range, and shadow set 0 is free. -/
structure RepetitiveAdmitted (c : Cmd) (s : State) : Prop where
  staging : StagingAdmitted 20 0 aieStates c s
  channel : LoopChannelNamed c s
  range : RepetitiveInRange s.tick.len c

/-- The gate of LOOP_REPETITIVE_CONFIG (`execLoopRepetitiveConfig`). -/
def repetitiveGate (c : Cmd) (s : State) : Gate :=
  stagingGate 0x0605 20 0 loopStates (lchFit s (c.u16 0))
    (lchOk s (c.u16 0) && c.u8 2 < 8 && selOk s.tick.len (c.u16 4) && (!bit (c.u8 2) 0 || 4096 ≤ c.u16 4) && c.rsv 6 2 &&
      0 ≤ c.s32 12 && c.s32 12 ≤ 536870912 && 0 ≤ c.s32 16) c s

section
variable (h : RepetitiveAdmitted c s)
include h

theorem RepetitiveAdmitted.passes : (repetitiveGate c s).Passes c s := by
  refine h.staging.passes (serving_of_mem h.staging.admits.2.1 (by decide) (by decide)) rfl h.channel.fitted ?_
  obtain ⟨hflags, hphase, hphased, hrsv, hlow, hhigh, hlimit⟩ := h.range
  simpa [h.channel.ok, hflags, hphase, hrsv, hlow, hhigh, hlimit] using hphased

theorem RepetitiveAdmitted.exec_conflict (hfit : selFit s (c.u16 0 / 256 % 2) (c.u16 4) = false) :
    execLoopRepetitiveConfig c s = .next (answer 0x0605 c .conflict [] s) := by
  unfold execLoopRepetitiveConfig
  exact h.passes.answers h.staging.gate_free rfl (if_pos (by simp [hfit]))

section
variable (hfit : selFit s (c.u16 0 / 256 % 2) (c.u16 4) = true)
include hfit

theorem RepetitiveAdmitted.exec_exhausted (hmany : 192 < stagedCount LoopCfg.repetitive (repetitiveConfigured c s) c s) :
    execLoopRepetitiveConfig c s = .next (answer 0x0605 c .exhausted [] s) := by
  unfold execLoopRepetitiveConfig
  exact h.passes.answers h.staging.gate_free rfl ((if_neg (by simp [hfit])).trans (if_pos hmany))

theorem RepetitiveAdmitted.exec_stages (hroom : stagedCount LoopCfg.repetitive (repetitiveConfigured c s) c s ≤ 192) :
    execLoopRepetitiveConfig c s =
      .next (answer 0x0605 c .ok (le 2 (stagedCount LoopCfg.repetitive (repetitiveConfigured c s) c s))
        (stageLoop (c.u16 0) c (repetitiveConfigured c s) s)) := by
  unfold execLoopRepetitiveConfig
  exact h.passes.answers h.staging.gate_free rfl ((if_neg (by simp [hfit])).trans (if_neg (Nat.not_lt.mpr hroom)))

end

end

/-! ### LOOP_SUPERVISOR_CONFIG (R273 to R275) -/

/-- The shadow of the channel with the fields of LOOP_SUPERVISOR_CONFIG. -/
def supervisorConfigured (c : Cmd) (s : State) : LoopCfg :=
  { loopShadow s (c.u16 0) with
    nfrz := c.u8 2, ht := c.u8 3, fbk := c.u8 4, sflags := c.u8 5, satTime := c.u16 6, satAct := c.u8 8, usafe := c.s32 12,
    rfb := c.s32 16 }

/-- The parameters of LOOP_SUPERVISOR_CONFIG are in the ranges of Table 10.8, the safe output within the limits of the shadow `old`. -/
structure SupervisorInRange (c : Cmd) (old : LoopCfg) : Prop where
  frozen : 4 ≤ c.u8 2
  hold : c.u8 3 ≤ 64
  fallback : c.u8 4 < 3
  flags : c.u8 5 < 16
  action : c.u8 8 < 2
  reserved : c.rsv 9 3 = true
  safeLow : old.ulo ≤ c.s32 12
  safeHigh : c.s32 12 ≤ old.uhi
  rampLow : 0 < c.s32 16
  rampHigh : c.s32 16 ≤ one28

theorem execLoopSupervisorConfig_stages (h : StagingAdmitted 20 0 aieStates c s) (hchannel : LoopChannelNamed c s)
    (hrange : SupervisorInRange c (loopShadow s (c.u16 0))) :
    execLoopSupervisorConfig c s = .next (answer 0x0606 c .ok [] (stageLoop (c.u16 0) c (supervisorConfigured c s) s)) := by
  obtain ⟨hfrozen, hhold, hfallback, hflags, haction, hrsv, hlow, hhigh, hrampLow, hrampHigh⟩ := hrange
  unfold execLoopSupervisorConfig
  exact (h.passes (serving_of_mem h.admits.2.1 (by decide) (by decide)) rfl hchannel.fitted
    (by simp [hchannel.ok, hfrozen, hhold, hfallback, hflags, haction, hrsv, hlow, hhigh, hrampLow, hrampHigh])).answers h.gate_free rfl rfl

/-! ### LOOP_STATUS (R282, Table 10.10) -/

/-- The channels that LOOP_STATUS names. -/
def statusChannels (c : Cmd) : List Nat := (List.range (c.u16 2)).map (c.u16 0 + ·)

/-- The named channels that satisfy `p`. -/
def statusCount (c : Cmd) (s : State) (p : LoopCh → Bool) : Nat := ((statusChannels c).filter (fun x => p (loopGet s x))).length

/-- What LOOP_STATUS answers beside its buffer, which holds `n` entries: the named channels in RUN, in HOLD, in a fallback and at a limit,
LOOP_END of the two dies, and the tick. -/
def loopStatusResult (n : Nat) (c : Cmd) (s : State) : Bytes :=
  le 2 n ++ le 2 (statusCount c s (fun x => x.mode == .run)) ++ le 2 (statusCount c s (fun x => x.mode == .hold)) ++
    le 2 (statusCount c s (fun x => x.mode.fallback)) ++ le 2 (statusCount c s (fun x => x.hi || x.lo)) ++ le 2 0 ++
    le 2 (tget 0 s.loop.ends 0) ++ le 2 (tget 0 s.loop.ends 1) ++ le 4 s.tick.index

/-- LOOP_STATUS names channels that exist at the present T, on a unit with their die. -/
structure StatusChannelsNamed (c : Cmd) (s : State) : Prop where
  notM2 : isM2 s = false
  die : ctlOk s (c.u16 0 / 256 % 2) = true
  number : c.u16 0 < 512
  some : 1 ≤ c.u16 2
  last : c.u16 0 % 256 + c.u16 2 ≤ loopChannels s.tick.len

/-- The gate of LOOP_STATUS (`execLoopStatus`). -/
def loopStatusGate (c : Cmd) (s : State) : Gate := {
  opcode := 0x0607, len := c.inl 12, fitted := lchFit s (c.u16 0), legal := notBoot,
  par := c.u16 0 < 512 && 1 ≤ c.u16 2 && c.u16 0 % 256 + c.u16 2 ≤ loopChannels s.tick.len && c.u64 4 % 64 == 0 }

section
variable (hserving : Serving s) (hmb : c.mb ≠ 0)
include hserving hmb

section
variable (hinline : Inline c 12) (hchannels : StatusChannelsNamed c s)
include hinline hchannels

theorem loopStatusGate_passes (haligned : c.u64 4 % 64 = 0) : (loopStatusGate c s).Passes c s :=
  readGate_passes_inline hserving (.inr hmb) hinline (lchFit_of_fitted hchannels.notM2 hchannels.die)
    (by simp [hchannels.number, hchannels.some, hchannels.last, haligned])

theorem execLoopStatus_buffer (haligned : c.u64 4 % 64 = 0) (haddr : c.u64 4 ≠ 0) : execLoopStatus c s =
    .next (answer 0x0607 c .ok (loopStatusResult (c.u16 2) c s)
      (putBuf (c.u64 4) (withCrc ((statusChannels c).flatMap (loopEntry s))) s)) := by
  have hpasses := loopStatusGate_passes hserving hmb hinline hchannels haligned
  unfold execLoopStatus
  refine hpasses.answers rfl rfl ?_
  simp only [if_neg haddr]
  rfl

theorem execLoopStatus_counts (haddr : c.u64 4 = 0) : execLoopStatus c s = .next (answer 0x0607 c .ok (loopStatusResult 0 c s) s) := by
  have hpasses := loopStatusGate_passes hserving hmb hinline hchannels (by simp [haddr])
  unfold execLoopStatus
  refine hpasses.answers rfl rfl ?_
  simp only [if_pos haddr]
  rfl

end

/-! ### The engine, or the channel's die, is not fitted -/

section
variable (habsent : isM2 s = true ∨ ctlOk s (c.u16 0 / 256 % 2) = false)
include habsent

theorem execLoopChannelConfig_not_fitted (hinline : Inline c 40) :
    execLoopChannelConfig c s = .next (answer 0x0601 c .notFitted [] s) := by
  unfold execLoopChannelConfig
  exact runCmd_inline_not_fitted hserving hmb rfl rfl rfl hinline (lchFit_of_absent habsent)

theorem execLoopCoeffLoad_not_fitted (hinline : Inline c 32) : execLoopCoeffLoad c s = .next (answer 0x0602 c .notFitted [] s) := by
  unfold execLoopCoeffLoad
  exact runCmd_inline_not_fitted hserving hmb rfl rfl rfl hinline (lchFit_of_absent habsent)

theorem execLoopTableLoad_not_fitted (hblock : External c (fun l => l == 260)) :
    execLoopTableLoad c s = .next (answer 0x0603 c .notFitted [] s) := by
  unfold execLoopTableLoad
  exact runCmd_of_fail hserving
    (Gate.fail_of_not_fitted (mailbox_of_ne_zero hmb rfl) rfl hblock.2.2.1 (lchFit_of_absent habsent)) (by decide)

theorem execLoopScheduleConfig_not_fitted (hinline : Inline c 40) :
    execLoopScheduleConfig c s = .next (answer 0x0604 c .notFitted [] s) := by
  unfold execLoopScheduleConfig
  exact runCmd_inline_not_fitted hserving hmb rfl rfl rfl hinline (lchFit_of_absent habsent)

theorem execLoopRepetitiveConfig_not_fitted (hinline : Inline c 20) :
    execLoopRepetitiveConfig c s = .next (answer 0x0605 c .notFitted [] s) := by
  unfold execLoopRepetitiveConfig
  exact runCmd_inline_not_fitted hserving hmb rfl rfl rfl hinline (lchFit_of_absent habsent)

theorem execLoopSupervisorConfig_not_fitted (hinline : Inline c 20) :
    execLoopSupervisorConfig c s = .next (answer 0x0606 c .notFitted [] s) := by
  unfold execLoopSupervisorConfig
  exact runCmd_inline_not_fitted hserving hmb rfl rfl rfl hinline (lchFit_of_absent habsent)

theorem execLoopStatus_not_fitted (hinline : Inline c 12) : execLoopStatus c s = .next (answer 0x0607 c .notFitted [] s) := by
  unfold execLoopStatus
  exact runCmd_inline_not_fitted hserving hmb rfl rfl rfl hinline (lchFit_of_absent habsent)

end

end

/-! ### The obligation -/

/-- Settles O27: each command's gate passes under the conditions of its clause, or fails at what is not fitted, and its action takes the
branch that they name. -/
theorem loopCommandsStageTheirChannel : Obligations.LoopCommandsStageTheirChannel := by
  refine ⟨?channel, ?channelConflict, ?channelExhausted, ?coeff, ?table, ?schedule, ?scheduleConflict, ?repetitive, ?repetitiveConflict,
    ?repetitiveExhausted, ?supervisor, ?status, ?statusCounts, ?noChannel, ?noCoeff, ?noTable, ?noSchedule, ?noRepetitive, ?noSupervisor,
    ?noStatus⟩
  case channel =>
    intro c s k hk hadmits hinline hm2 hdie hnumber hruns hfree hform hffmode hsources hforward hlimits hkbLow hkbHigh hxmin hlimscale hrsv
      horder hfit hlow hhigh hprivileged hrepetitive
    obtain rfl : k = channelConfigured c s := hk
    exact ChannelConfigAdmitted.exec_stages ⟨⟨hadmits, hinline, hfree⟩, ⟨hm2, hdie, hnumber, hruns⟩, hform, hffmode, hsources, hforward,
      hlimits, hkbLow, hkbHigh, hxmin, hlimscale, hrsv, horder⟩ (channelMisfits_eq_false hfit hlow hhigh)
      (channelsExhausted_eq_false hprivileged hrepetitive)
  case channelConflict =>
    intro c s k hk hadmits hinline hm2 hdie hnumber hruns hfree hform hffmode hsources hforward hlimits hkbLow hkbHigh hxmin hlimscale hrsv
      horder hmisfits
    obtain rfl : k = channelConfigured c s := hk
    exact ChannelConfigAdmitted.exec_conflict ⟨⟨hadmits, hinline, hfree⟩, ⟨hm2, hdie, hnumber, hruns⟩, hform, hffmode, hsources, hforward,
      hlimits, hkbLow, hkbHigh, hxmin, hlimscale, hrsv, horder⟩ (channelMisfits_iff.mpr hmisfits)
  case channelExhausted =>
    intro c s k hk hadmits hinline hm2 hdie hnumber hruns hfree hform hffmode hsources hforward hlimits hkbLow hkbHigh hxmin hlimscale hrsv
      horder hfit hlow hhigh hexhausted
    obtain rfl : k = channelConfigured c s := hk
    exact ChannelConfigAdmitted.exec_exhausted ⟨⟨hadmits, hinline, hfree⟩, ⟨hm2, hdie, hnumber, hruns⟩, hform, hffmode, hsources, hforward,
      hlimits, hkbLow, hkbHigh, hxmin, hlimscale, hrsv, horder⟩ (channelMisfits_eq_false hfit hlow hhigh)
      (channelsExhausted_iff.mpr hexhausted)
  case coeff =>
    intro c s k hk hadmits hinline hm2 hdie hnumber hruns hfree hregion hrsv horder
    obtain rfl : k = coefsLoaded c s := hk
    exact execLoopCoeffLoad_stages ⟨hadmits, hinline, hfree⟩ ⟨hm2, hdie, hnumber, hruns⟩ hregion hrsv horder
  case table =>
    intro c s k hk hadmits hblock hm2 hdie hnumber hruns hfree hscale hrsv
    obtain rfl : k = tableLoaded c s := hk
    exact TableLoadAdmitted.exec_stages ⟨hadmits, hblock, ⟨hm2, hdie, hnumber, hruns⟩, hfree, hscale, hrsv⟩
  case schedule =>
    intro c s k hk hadmits hinline hm2 hdie hnumber hruns hfree hlow hhigh hmag hsource hscheduled hrsv hhystLow hhystHigh hthetas hfit
    obtain rfl : k = scheduleConfigured c s := hk
    exact ScheduleAdmitted.exec_stages ⟨⟨hadmits, hinline, hfree⟩, ⟨hm2, hdie, hnumber, hruns⟩, hlow, hhigh, hmag, hsource, hscheduled,
      hrsv, hhystLow, hhystHigh, hthetas⟩ hfit
  case scheduleConflict =>
    intro c s k hk hadmits hinline hm2 hdie hnumber hruns hfree hlow hhigh hmag hsource hscheduled hrsv hhystLow hhystHigh hthetas hfit
    obtain rfl : k = scheduleConfigured c s := hk
    exact ScheduleAdmitted.exec_conflict ⟨⟨hadmits, hinline, hfree⟩, ⟨hm2, hdie, hnumber, hruns⟩, hlow, hhigh, hmag, hsource, hscheduled,
      hrsv, hhystLow, hhystHigh, hthetas⟩ hfit
  case repetitive =>
    intro c s k hk hadmits hinline hm2 hdie hnumber hruns hfree hflags hphase hphased hrsv hlow hhigh hlimit hfit hroom
    obtain rfl : k = repetitiveConfigured c s := hk
    exact RepetitiveAdmitted.exec_stages ⟨⟨hadmits, hinline, hfree⟩, ⟨hm2, hdie, hnumber, hruns⟩, hflags, hphase, hphased, hrsv, hlow,
      hhigh, hlimit⟩ hfit hroom
  case repetitiveConflict =>
    intro c s k hk hadmits hinline hm2 hdie hnumber hruns hfree hflags hphase hphased hrsv hlow hhigh hlimit hfit
    obtain rfl : k = repetitiveConfigured c s := hk
    exact RepetitiveAdmitted.exec_conflict ⟨⟨hadmits, hinline, hfree⟩, ⟨hm2, hdie, hnumber, hruns⟩, hflags, hphase, hphased, hrsv, hlow,
      hhigh, hlimit⟩ hfit
  case repetitiveExhausted =>
    intro c s k hk hadmits hinline hm2 hdie hnumber hruns hfree hflags hphase hphased hrsv hlow hhigh hlimit hfit hmany
    obtain rfl : k = repetitiveConfigured c s := hk
    exact RepetitiveAdmitted.exec_exhausted ⟨⟨hadmits, hinline, hfree⟩, ⟨hm2, hdie, hnumber, hruns⟩, hflags, hphase, hphased, hrsv, hlow,
      hhigh, hlimit⟩ hfit hmany
  case supervisor =>
    intro c s k hk hadmits hinline hm2 hdie hnumber hruns hfree hfrozen hhold hfallback hflags haction hrsv hlow hhigh hrampLow hrampHigh
    obtain rfl : k = supervisorConfigured c s := hk
    exact execLoopSupervisorConfig_stages ⟨hadmits, hinline, hfree⟩ ⟨hm2, hdie, hnumber, hruns⟩
      ⟨hfrozen, hhold, hfallback, hflags, haction, hrsv, hlow, hhigh, hrampLow, hrampHigh⟩
  case status =>
    intro c s hserving hinline hmb hm2 hdie hnumber hsome hlast haligned haddr
    exact execLoopStatus_buffer hserving hmb hinline ⟨hm2, hdie, hnumber, hsome, hlast⟩ haligned haddr
  case statusCounts =>
    intro c s hserving hinline hmb hm2 hdie hnumber hsome hlast haddr
    exact execLoopStatus_counts hserving hmb hinline ⟨hm2, hdie, hnumber, hsome, hlast⟩ haddr
  case noChannel => exact fun c s hserving hmb hinline habsent => execLoopChannelConfig_not_fitted hserving hmb habsent hinline
  case noCoeff => exact fun c s hserving hmb hinline habsent => execLoopCoeffLoad_not_fitted hserving hmb habsent hinline
  case noTable => exact fun c s hserving hmb hblock habsent => execLoopTableLoad_not_fitted hserving hmb habsent hblock
  case noSchedule => exact fun c s hserving hmb hinline habsent => execLoopScheduleConfig_not_fitted hserving hmb habsent hinline
  case noRepetitive => exact fun c s hserving hmb hinline habsent => execLoopRepetitiveConfig_not_fitted hserving hmb habsent hinline
  case noSupervisor => exact fun c s hserving hmb hinline habsent => execLoopSupervisorConfig_not_fitted hserving hmb habsent hinline
  case noStatus => exact fun c s hserving hmb hinline habsent => execLoopStatus_not_fitted hserving hmb habsent hinline

end Sys2Proof.Machine

/-! PROOFS. The end of HOLD, the saturation time and AUTO_RESUME act on a channel where they are due (R274, R275, Table 10.5, O28). -/

namespace Sys2Proof.Machine

open Sys2Proof

variable {s : State} {l : Nat}

/-! ### The entry into a fallback (R274) -/

theorem loopGet_loopUpd_same (l : Nat) (f : LoopCh → LoopCh) (s : State) : loopGet (loopUpd l f s) l = f (loopGet s l) :=
  tget_tset_same ({} : LoopCh) s.loop.ch l (f (loopGet s l))

theorem loopGet_loopEvent (l k n : Nat) (d : List Nat) (s : State) : loopGet (loopEvent l k d s) n = loopGet s n := by
  rw [loopGet, loopEvent, raise_loop]
  rfl

theorem loopGet_controlledBlock (n : Nat) (s : State) : loopGet (controlledBlock s) n = loopGet s n := by
  rw [loopGet, (controlledBlock_keeps s).loop (by decide)]
  rfl

/-- FB names one of the three fallback modes. -/
theorem LoopCfg.fallback_is_fallback (c : LoopCfg) : c.fallback.fallback = true := by
  unfold LoopCfg.fallback
  split
  · rfl
  · split <;> rfl

theorem enterFallback_mode (c : LoopCfg) (cause : Nat) (s : State) :
    (loopGet (enterFallback l c cause s) l).mode = c.fallback := by
  unfold enterFallback
  dsimp only
  split <;> simp only [loopGet_controlledBlock, loopGet_loopEvent, loopGet_loopUpd_same]

/-! ### LOOP_HOLD_EXPIRY (R274) -/

/-- The channel is in HOLD, has spent H_t evaluations there, and its feedback is not good. -/
def HoldExpired (s : State) (l : Nat) : Prop :=
  (loopGet s l).mode = .hold ∧ (loopCfg s l).ht ≤ (loopGet s l).spent ∧ (loopGet s l).good = 0

theorem holdExpire_due (h : HoldExpired s l) : holdExpire l (loopCfg s l) s = enterFallback l (loopCfg s l) 0 s := if_pos h

theorem holdExpire_not_due (h : ¬HoldExpired s l) : holdExpire l (loopCfg s l) s = s := if_neg h

/-- The channel enters its fallback, and the fallback is evaluated. -/
theorem execLoopHoldExpiry_due (h : HoldExpired s l) : execLoopHoldExpiry l s =
    .next (loopUpd l (fallbackStep (loopCfg s l) (loopLimits s (loopCfg s l)).1 (loopLimits s (loopCfg s l)).2.1)
      (enterFallback l (loopCfg s l) 0 s)) := by
  have hentered : (loopGet (enterFallback l (loopCfg s l) 0 s) l).mode.fallback = true := by
    rw [enterFallback_mode, LoopCfg.fallback_is_fallback]
  unfold execLoopHoldExpiry
  dsimp only
  rw [holdExpire_due h]
  exact if_pos ⟨hentered, h.1⟩

/-- HOLD is not a fallback, so that a channel left there is not evaluated. -/
theorem execLoopHoldExpiry_not_due (h : ¬HoldExpired s l) : execLoopHoldExpiry l s = .next s := by
  unfold execLoopHoldExpiry
  dsimp only
  rw [holdExpire_not_due h]
  refine if_neg ?_
  rintro ⟨hfallback, hhold⟩
  rw [hhold] at hfallback
  exact Bool.false_ne_true hfallback

/-! ### LOOP_SAT_TIME_REACHED (R275) -/

/-- The channel is in RUN, has saturated for SAT_TIME, and has not reported it. -/
def SatTimeReached (s : State) (l : Nat) : Prop :=
  (loopGet s l).mode = .run ∧ 0 < (loopCfg s l).satTime ∧ (loopCfg s l).satTime ≤ (loopGet s l).sat ∧
    (!(loopGet s l).satDone) = true

/-- The saturation is reported, once. -/
def satReported (l : Nat) (s : State) : State :=
  loopEvent l 0x05 [b2n (decide ((loopGet s l).v < (loopGet s l).u)), (loopCfg s l).satTime]
    (loopUpd l (fun y => { y with satDone := true }) s)

theorem execLoopSatTimeReached_reports (h : SatTimeReached s l) (haction : (loopCfg s l).satAct ≠ 1) :
    execLoopSatTimeReached l s = .next (satReported l s) :=
  congrArg _ ((if_pos h).trans (if_neg haction))

theorem execLoopSatTimeReached_falls_back (h : SatTimeReached s l) (haction : (loopCfg s l).satAct = 1) :
    execLoopSatTimeReached l s =
      .next (loopUpd l (fallbackStep (loopCfg s l) (loopLimits s (loopCfg s l)).1 (loopLimits s (loopCfg s l)).2.1)
        (enterFallback l (loopCfg s l) 1 (satReported l s))) :=
  congrArg _ ((if_pos h).trans (if_pos haction))

theorem execLoopSatTimeReached_not_due (h : ¬SatTimeReached s l) : execLoopSatTimeReached l s = .next s := congrArg _ (if_neg h)

/-! ### LOOP_AUTO_RESUME (Table 10.5) -/

theorem resumeDue_iff {c : LoopCfg} {x : LoopCh} :
    resumeDue c x = true ↔ (x.mode = .fbHold ∨ x.mode = .fbRamp) ∧ bit c.sflags 2 = true ∧ 64 ≤ x.good := by
  simp [resumeDue, and_assoc]

theorem execLoopAutoResume_due (h : resumeDue (loopCfg s l) (loopGet s l) = true) : execLoopAutoResume l s =
    .next (runEval l (loopRd s l) (loopCfg s l) (loopLimits s (loopCfg s l)).1 (loopLimits s (loopCfg s l)).2.1
      (resume l (loopRd s l) (loopCfg s l) true s)) :=
  if_pos h

theorem execLoopAutoResume_not_due (h : ¬resumeDue (loopCfg s l) (loopGet s l) = true) : execLoopAutoResume l s = .next s := if_neg h

/-! ### The obligation -/

/-- Settles O28: each event acts where its condition holds and nowhere else (assumption 9); LOOP_AUTO_RESUME resumes as a commanded resume
does (assumption 28). -/
theorem loopEventsSuperviseTheChannel : Obligations.LoopEventsSuperviseTheChannel := by
  refine ⟨?holdExpiry, ?noHoldExpiry, ?satReports, ?satFallsBack, ?noSat, ?resumes, ?noResume⟩
  case holdExpiry => exact fun l s hmode hspent hgood => execLoopHoldExpiry_due ⟨hmode, hspent, hgood⟩
  case noHoldExpiry =>
    intro l s hno
    refine execLoopHoldExpiry_not_due ?_
    rintro ⟨hmode, hspent, hgood⟩
    rcases hno with hno | hno | hno
    · exact hno hmode
    · exact absurd hspent (Nat.not_le.mpr hno)
    · exact hno hgood
  case satReports =>
    intro l s hmode htime hsat hdone haction
    exact execLoopSatTimeReached_reports ⟨hmode, htime, hsat, by simp [hdone]⟩ haction
  case satFallsBack =>
    intro l s hmode htime hsat hdone haction
    exact execLoopSatTimeReached_falls_back ⟨hmode, htime, hsat, by simp [hdone]⟩ haction
  case noSat =>
    intro l s hno
    refine execLoopSatTimeReached_not_due ?_
    rintro ⟨hmode, htime, hsat, hdone⟩
    rcases hno with hno | hno | hno | hno
    · exact hno hmode
    · exact absurd hno htime.ne'
    · exact absurd hsat (Nat.not_le.mpr hno)
    · simp [hno] at hdone
  case resumes =>
    exact fun l s hmode hauto hgood => execLoopAutoResume_due (resumeDue_iff.mpr ⟨hmode, hauto, hgood⟩)
  case noResume =>
    intro l s hno
    refine execLoopAutoResume_not_due ?_
    rw [resumeDue_iff]
    rintro ⟨hmode, hauto, hgood⟩
    rcases hno with hno | hno | hno
    · exact not_or.mpr hno hmode
    · exact Bool.false_ne_true (hno.symm.trans hauto)
    · exact absurd hgood (Nat.not_le.mpr hno)

end Sys2Proof.Machine

/-! PROOFS. The gate of Table 4.9 for a command of MB1 to MB7, from what a clause says of its entry and of the unit's state and role. -/

namespace Sys2Proof.Machine

open Sys2Proof

variable {g : Gate} {c : Cmd} {s : State} {states : List DevState} {roles : List Role}

/-- The gate lets MB1 to MB7 run the command in these states and roles. -/
structure Gate.OpenIn (g : Gate) (states : List DevState) (roles : List Role) : Prop where
  mb17 : g.mb17 = true
  test : g.test = false
  permit : g.permit = true
  legal : (states.all fun x => x != .powerDown && x != .boot && g.legalIn x) = true
  roles : (roles.all fun x => g.roles x) = true

/-- The entry has the length that the gate calls for, and its reserved fields are zero. -/
structure Gate.Fits (g : Gate) (c : Cmd) : Prop where
  len : g.len = true
  entry : c.entryReserved = true

theorem Gate.Fits.of_inline {n : Nat} (h : Inline c n) (hlen : g.len = c.inl n) : g.Fits c :=
  ⟨hlen.trans (inl_of_inline h), entryReserved_of_inline h⟩

theorem Gate.Fits.of_external {ok : Nat → Bool} (h : External c ok) (hlen : g.len = c.extLen ok) : g.Fits c :=
  ⟨hlen.trans h.2.2.1, res1 h.1 h.2.1 h.2.2.2⟩

theorem Gate.OpenIn.passes (h : g.OpenIn states roles) (hadmits : Admits c s states roles) (hfits : g.Fits c) (hfitted : g.fitted = true)
    (hpar : g.par = true) : g.Passes c s := by
  obtain ⟨hmb, hstate, hrole⟩ := hadmits
  have hopen := List.all_eq_true.mp h.legal _ hstate
  simp only [Bool.and_eq_true, bne_iff_ne] at hopen
  exact {
    serving := hopen.1
    mailbox := mailbox_of_ne_zero hmb h.mb17
    test := by simp [h.test]
    len := hfits.len
    fitted := hfitted
    legal := hopen.2
    roles := roles_of_mem hrole h.roles
    permit := h.permit
    par := hpar
    entry := hfits.entry }

/-- A unit that serves commands is in one of seven states, in any role. -/
theorem admits_of_serving (hserving : Serving s) (hmb : c.mb ≠ 0) :
    Admits c s [.config, .standby, .deblocked, .safeStop, .blockedFault, .replay, .factoryTest] [.active, .standby, .fenced, .disputed] := by
  refine ⟨hmb, ?_, ?_⟩
  · have := hserving.1
    have := hserving.2
    cases hstate : s.dev.state <;> simp_all
  · cases s.dev.role <;> simp

/-- A command with an external block that needs what is not fitted. -/
theorem runCmd_external_not_fitted {act : State → Reply} {ok : Nat → Bool} (hserving : Serving s) (hmb : c.mb ≠ 0) (hmb17 : g.mb17 = true)
    (htest : g.test = false) (hlen : g.len = c.extLen ok) (hblock : External c ok) (hfitted : g.fitted = false) :
    runCmd g c s act = .next (answer g.opcode c .notFitted g.info s) :=
  runCmd_of_fail hserving (Gate.fail_of_not_fitted (mailbox_of_ne_zero hmb hmb17) (by simp [htest]) (hlen.trans hblock.2.2.1) hfitted)
    (by decide)

end Sys2Proof.Machine

/-! PROOFS. The TILE commands load a kernel image, bind a kernel, and read the ROM list and a die's tiles (Table 11.12, R303 to R306, R311,
R312, O29). -/

namespace Sys2Proof.Machine

open Sys2Proof

variable {c : Cmd} {s : State}

/-! ### TILE_KERNEL_LOAD (R303, R304) -/

/-- The CTL dies that the mask of the command names. -/
def namedDies (c : Cmd) : List Nat := [0, 1].filter (bit (c.u8 0))

/-- The binding is of a user kernel. -/
def Binding.isUser (b : Binding) : Bool := b.kid != 0 && b.kid < 0x8000

/-- TILE_KERNEL_LOAD brings a well-formed image for fitted dies, in a state and role of Table 11.12, with nothing of its own held. -/
structure KernelLoadAdmitted (c : Cmd) (s : State) : Prop where
  admits : Admits c s [.config, .factoryTest] [.active, .standby]
  block : External c (fun l => if imageLens c.params then l == imageSize c.params else 52 ≤ l && l ≤ 42016)
  image : imageOk c.params = true
  notM2 : isM2 s = false
  least : 0 < c.u8 0
  most : c.u8 0 < 4
  dies : (namedDies c).all (ctlOk s) = true
  reserved : c.rsv 1 3 = true
  kernels : (namedDies c).any (fun d => held s (.kernels d)) = false
  free : setHeld s 3 = false
  pend : pendCount s c.mb < 8

/-- The gate of TILE_KERNEL_LOAD (`execTileKernelLoad`). -/
def kernelLoadGate (c : Cmd) (s : State) : Gate := {
  opcode := 0x0701, len := c.extLen (fun l => if imageLens c.params then l == imageSize c.params else 52 ≤ l && l ≤ 42016),
  fitted := !isM2 s && (namedDies c).all (ctlOk s), legal := inStates [.config], roles := actStby, pends := true,
  free := !(namedDies c).any (fun d => held s (.kernels d)) && !setHeld s 3,
  par := 0 < c.u8 0 && c.u8 0 < 4 && c.rsv 1 3 && imageOk c.params }

/-- A die named has a user kernel bound. -/
def userKernelBound (c : Cmd) (s : State) : Bool := (namedDies c).any (fun d => (dieGet s d).bind.any (fun b => b.2.isUser))

/-- The CRC at the end of the image is the CRC-32C of what stands before it. -/
def ImageIntact (c : Cmd) : Prop :=
  (crc32c ((c.params.drop 4).take (imageSize c.params - 8))).toNat = rd c.params (imageSize c.params - 4) 4

/-- The bindings of user kernels that a load undoes in the shadow sets. -/
def bindingsUndone (c : Cmd) (s : State) : Nat :=
  ((namedDies c).map (fun d => ((dieGet s d).bindNew.filter (fun b => b.2.isUser)).length)).sum

/-- The image stands on each die named, and no user kernel in its shadow set. -/
def kernelsInstalled (c : Cmd) (s : State) : State :=
  (namedDies c).foldl (fun t d => dieUpd d (fun x => { x with
    image := some (readImage c.params), bindNew := x.bindNew.filter (fun b => !b.2.isUser) }) t) s

/-- The result of TILE_KERNEL_LOAD: the image's CRC, its entries, and the bindings undone. -/
def kernelLoadResult (c : Cmd) (s : State) : Bytes :=
  le 4 (readImage c.params).crc ++ le 2 (readImage c.params).entries.length ++ le 2 (bindingsUndone c s)

section
variable (h : KernelLoadAdmitted c s)
include h

theorem KernelLoadAdmitted.passes : (kernelLoadGate c s).Passes c s :=
  Gate.OpenIn.passes ⟨rfl, rfl, rfl, rfl, rfl⟩ h.admits (.of_external h.block rfl)
    (by simp only [kernelLoadGate, h.notM2, h.dies, Bool.not_false, Bool.and_self])
    (by simp [kernelLoadGate, h.least, h.most, h.reserved, h.image])

theorem KernelLoadAdmitted.gate_free : (kernelLoadGate c s).free = true := by
  simp only [kernelLoadGate, h.kernels, h.free, Bool.not_false, Bool.and_self]

theorem KernelLoadAdmitted.pends : ((kernelLoadGate c s).pends && decide (8 ≤ pendCount s c.mb)) = false := by
  simp [h.pend]

theorem KernelLoadAdmitted.exec_conflict (hno : s.dev.paired = true ∨ userKernelBound c s = true) :
    execTileKernelLoad c s = .next (answer 0x0701 c .conflict [] s) := by
  unfold execTileKernelLoad
  exact h.passes.answers h.gate_free h.pends (if_pos hno)

section
variable (hunpaired : s.dev.paired = false) (hunbound : userKernelBound c s = false)
include hunpaired hunbound

omit h in
theorem not_load_conflict : ¬(s.dev.paired = true ∨ userKernelBound c s = true) := by simp [hunpaired, hunbound]

theorem KernelLoadAdmitted.exec_crcFail (hcrc : ¬ImageIntact c) : execTileKernelLoad c s = .next (answer 0x0701 c .crcFail [] s) := by
  unfold execTileKernelLoad
  exact h.passes.answers h.gate_free h.pends ((if_neg (not_load_conflict hunpaired hunbound)).trans (if_pos hcrc))

theorem KernelLoadAdmitted.exec_loads (hcrc : ImageIntact c) : execTileKernelLoad c s = .next (answer 0x0701 c .pending []
    (pendAs 0x0701 c ((namedDies c).map Obj.kernels) [.config, .factoryTest] (c.u8 0) (some (.ok, kernelLoadResult c s))
      (kernelsInstalled c s))) := by
  unfold execTileKernelLoad
  exact h.passes.answers h.gate_free h.pends
    ((if_neg (not_load_conflict hunpaired hunbound)).trans (if_neg (not_not_intro hcrc)))

end

end

/-! ### TILE_KERNEL_BIND (R305, R306) -/

/-- TILE_KERNEL_BIND names a binding of a fitted die, with parameters in range, and shadow set 3 and the die's kernels are free. -/
structure KernelBindAdmitted (c : Cmd) (s : State) : Prop where
  admits : Admits c s aieStates [.active, .standby]
  block : External c (fun l => l == 88)
  die : c.u8 0 < 2
  fitted : ctlFit s (c.u8 0) = true
  number : c.u8 1 < 64
  kernel : (readBinding c).kid ≤ 0x7FFF ∨ (0x8001 ≤ (readBinding c).kid ∧ (readBinding c).kid ≤ 0x80FF)
  kernels : held s (.kernels (c.u8 0)) = false
  free : setHeld s 3 = false
  flow : (readBinding c).flow < 64
  flags : (readBinding c).bflags < 4
  reserved : c.rsv 7 1 = true
  padding : c.rsv 18 2 = true
  cycles : (readBinding c).maxc ≤ 1000000

/-- The gate of TILE_KERNEL_BIND (`execTileKernelBind`) for the binding `b`. -/
def kernelBindGate (b : Binding) (c : Cmd) (s : State) : Gate := {
  opcode := 0x0702, len := c.extLen (· == 88), fitted := ctlFit s (c.u8 0), legal := busyStates, roles := actStby,
  free := !held s (.kernels (c.u8 0)) && !setHeld s 3,
  par := c.u8 0 < 2 && c.u8 1 < 64 && (b.kid ≤ 0x7FFF || (0x8001 ≤ b.kid && b.kid ≤ 0x80FF)) && b.flow < 64 && b.bflags < 4 &&
    c.rsv 7 1 && c.rsv 18 2 && b.maxc ≤ 1000000 }

/-- The binding waits in shadow set 3 of its die. -/
def bindingStaged (c : Cmd) (s : State) : State :=
  stage 3 c.params (dieUpd (c.u8 0) (fun x => { x with bindNew := tset x.bindNew (c.u8 1) (readBinding c) }) s)

/-- The result of TILE_KERNEL_BIND: the kernel's state length and its cycle limit under the binding; 0 for a binding undone. -/
def kernelBindResult (c : Cmd) (s : State) : Bytes :=
  le 2 ((kernelOf s (c.u8 0) (readBinding c).kid).getD (0, 0, 0)).2.1 ++ le 2 0 ++ le 4 (if (readBinding c).kid = 0 then 0
    else limitOf (readBinding c) ((kernelOf s (c.u8 0) (readBinding c).kid).getD (0, 0, 0)).2.2)

section
variable (h : KernelBindAdmitted c s)
include h

theorem KernelBindAdmitted.passes : (kernelBindGate (readBinding c) c s).Passes c s :=
  Gate.OpenIn.passes ⟨rfl, rfl, rfl, rfl, rfl⟩ h.admits (.of_external h.block rfl) h.fitted
    (by simpa [kernelBindGate, h.die, h.number, h.flow, h.flags, h.reserved, h.padding, h.cycles] using h.kernel)

theorem KernelBindAdmitted.gate_free : (kernelBindGate (readBinding c) c s).free = true := by
  simp [kernelBindGate, h.kernels, h.free]

theorem KernelBindAdmitted.exec_stages (hfits : bindConflict s (c.u8 0) (c.u8 1) (readBinding c) = false) :
    execTileKernelBind c s = .next (answer 0x0702 c .ok (kernelBindResult c s) (bindingStaged c s)) := by
  unfold execTileKernelBind
  exact h.passes.answers h.gate_free rfl (if_neg (ne_true_of_eq_false hfits))

theorem KernelBindAdmitted.exec_conflict (hno : bindConflict s (c.u8 0) (c.u8 1) (readBinding c) = true) :
    execTileKernelBind c s = .next (answer 0x0702 c .conflict [] s) := by
  unfold execTileKernelBind
  exact h.passes.answers h.gate_free rfl (if_pos hno)

end

/-! ### TILE_ROM_LIST and TILE_STATUS (R311, R312) -/

/-- The buffer named at parameter byte 4, where there is one, gets these bytes and their CRC. -/
def bufferFilled (c : Cmd) (p : Bytes) (s : State) : State := if c.u64 4 = 0 then s else putBuf (c.u64 4) (withCrc p) s

theorem bufferFilled_of_zero {p : Bytes} (h : c.u64 4 = 0) : bufferFilled c p s = s := if_pos h

theorem bufferFilled_of_ne_zero {p : Bytes} (h : c.u64 4 ≠ 0) : bufferFilled c p s = putBuf (c.u64 4) (withCrc p) s := if_neg h

/-- What TILE_STATUS answers for a die (Table 11.14). -/
def tileStatusResult (s : State) (d : Nat) : Bytes :=
  le 1 (tilesInService s d).length ++ le 1 ((List.range 18).filter (fun t => tileState s d t == 0)).length ++
    le 2 ((dieGet s d).bind.filter (fun b => b.2.kid != 0)).length ++ le 4 ((dieGet s d).image.elim 0 (·.crc)) ++
    le 4 ((dieGet s d).image.elim 0 (·.build)) ++
    le 4 ((dieGet s d).runs.filter (fun r => r.done && decide (s.tick.index < r.tick + 1024))).length ++ le 4 (dieGet s d).aborts ++
    le 4 (dieGet s d).late ++ le 4 (dieGet s d).eccCorr ++ le 4 (dieGet s d).eccBad

section
variable (hserving : Serving s) (hmb : c.mb ≠ 0)
include hserving hmb

section
variable (hinline : Inline c 12) (hdie : c.u8 0 < 2) (hfit : ctlFit s (c.u8 0) = true) (hrsv : c.rsv 1 3 = true)
  (haligned : c.u64 4 % 64 = 0) {t : State}
include hinline hdie hfit hrsv haligned

theorem execTileRomList_ok (ht : bufferFilled c (romKids.flatMap romEntryBytes) s = t) :
    execTileRomList c s = .next (answer 0x0703 c .ok (le 2 9 ++ le 2 0 ++ le 4 fwEdition) t) := by
  subst ht
  unfold execTileRomList
  exact (readGate_passes_inline hserving (.inr hmb) hinline hfit (by simp [hdie, hrsv, haligned])).answers rfl rfl rfl

theorem execTileStatus_ok (ht : bufferFilled c ((List.range 18).flatMap (tileEntry s (c.u8 0))) s = t) :
    execTileStatus c s = .next (answer 0x0704 c .ok (tileStatusResult s (c.u8 0)) t) := by
  subst ht
  unfold execTileStatus
  exact (readGate_passes_inline hserving (.inr hmb) hinline hfit (by simp [hdie, hrsv, haligned])).answers rfl rfl rfl

end

/-! ### The M2 has no tiles -/

section
variable (hm2 : isM2 s = true)
include hm2

omit hserving hmb in
theorem ctlFit_of_m2 (d : Nat) : ctlFit s d = false := by
  have hvariant : s.dev.variant = .m2 := by simpa [isM2] using hm2
  simp [ctlFit, hvariant]

theorem execTileKernelBind_not_fitted (hblock : External c (fun l => l == 88)) :
    execTileKernelBind c s = .next (answer 0x0702 c .notFitted [] s) := by
  unfold execTileKernelBind
  exact runCmd_external_not_fitted hserving hmb rfl rfl rfl hblock (ctlFit_of_m2 hm2 _)

theorem execTileRomList_not_fitted (hinline : Inline c 12) : execTileRomList c s = .next (answer 0x0703 c .notFitted [] s) := by
  unfold execTileRomList
  exact runCmd_inline_not_fitted hserving hmb rfl rfl rfl hinline (ctlFit_of_m2 hm2 _)

theorem execTileStatus_not_fitted (hinline : Inline c 12) : execTileStatus c s = .next (answer 0x0704 c .notFitted [] s) := by
  unfold execTileStatus
  exact runCmd_inline_not_fitted hserving hmb rfl rfl rfl hinline (ctlFit_of_m2 hm2 _)

end

end

/-! ### The obligation -/

/-- Settles O29: each command's gate passes under the conditions of its clause, or fails at what is not fitted, and its action takes the
branch that they name. An image takes effect as it is loaded (assumption 32), and the names of the ROM list are padded (assumption 33). -/
theorem tileCommandsLoadBindAndRead : Obligations.TileCommandsLoadBindAndRead := by
  refine ⟨?loads, ?loadConflict, ?loadCrc, ?binds, ?bindConflict, ?romCounts, ?romBuffer, ?statusCounts, ?statusBuffer, ?noBind, ?noRom,
    ?noStatus⟩
  case loads =>
    intro c s hadmits hblock himage hm2 hleast hmost hdies hrsv hkernels hfree hpend hunpaired hunbound hcrc
    exact KernelLoadAdmitted.exec_loads ⟨hadmits, hblock, himage, hm2, hleast, hmost, hdies, hrsv, hkernels, hfree, hpend⟩ hunpaired hunbound hcrc
  case loadConflict =>
    intro c s hadmits hblock himage hm2 hleast hmost hdies hrsv hkernels hfree hpend hno
    exact KernelLoadAdmitted.exec_conflict ⟨hadmits, hblock, himage, hm2, hleast, hmost, hdies, hrsv, hkernels, hfree, hpend⟩ hno
  case loadCrc =>
    intro c s hadmits hblock himage hm2 hleast hmost hdies hrsv hkernels hfree hpend hunpaired hunbound hcrc
    exact KernelLoadAdmitted.exec_crcFail ⟨hadmits, hblock, himage, hm2, hleast, hmost, hdies, hrsv, hkernels, hfree, hpend⟩ hunpaired hunbound
      hcrc
  case binds =>
    intro c s hadmits hblock hdie hfit hnumber hkid hkernels hfree hflow hflags hrsv hpad hcycles hfits
    exact KernelBindAdmitted.exec_stages
      ⟨hadmits, hblock, hdie, hfit, hnumber, hkid, hkernels, hfree, hflow, hflags, hrsv, hpad, hcycles⟩ hfits
  case bindConflict =>
    intro c s hadmits hblock hdie hfit hnumber hkid hkernels hfree hflow hflags hrsv hpad hcycles hno
    exact KernelBindAdmitted.exec_conflict
      ⟨hadmits, hblock, hdie, hfit, hnumber, hkid, hkernels, hfree, hflow, hflags, hrsv, hpad, hcycles⟩ hno
  case romCounts =>
    intro c s hserving hinline hmb hdie hfit hrsv hzero
    exact execTileRomList_ok hserving hmb hinline hdie hfit hrsv (by simp [hzero]) (bufferFilled_of_zero hzero)
  case romBuffer =>
    intro c s hserving hinline hmb hdie hfit hrsv haligned haddr
    exact execTileRomList_ok hserving hmb hinline hdie hfit hrsv haligned (bufferFilled_of_ne_zero haddr)
  case statusCounts =>
    intro c s hserving hinline hmb hdie hfit hrsv hzero
    exact execTileStatus_ok hserving hmb hinline hdie hfit hrsv (by simp [hzero]) (bufferFilled_of_zero hzero)
  case statusBuffer =>
    intro c s hserving hinline hmb hdie hfit hrsv haligned haddr
    exact execTileStatus_ok hserving hmb hinline hdie hfit hrsv haligned (bufferFilled_of_ne_zero haddr)
  case noBind => exact fun c s hserving hmb hblock hm2 => execTileKernelBind_not_fitted hserving hmb hm2 hblock
  case noRom => exact fun c s hserving hmb hinline hm2 => execTileRomList_not_fitted hserving hmb hm2 hinline
  case noStatus => exact fun c s hserving hmb hinline hm2 => execTileStatus_not_fitted hserving hmb hm2 hinline

end Sys2Proof.Machine

/-! PROOFS. The cycle limit, memory errors and the repair of a tile (R307 to R309, O30). -/

namespace Sys2Proof.Machine

open Sys2Proof

variable {s : State} {d t m a : Nat} {b : Bool}

/-- The tile runs an item that has used up its cycle limit. -/
def AtCycleLimit (s : State) (d t : Nat) : Prop :=
  (tileGet s d t).item.isSome ∧ (tileGet s d t).limit ≤ (tileGet s d t).cycles

theorem execTileCycleLimit_at (h : AtCycleLimit s d t) : execTileCycleLimit d t s = .next (tileAbort d t .cycles s) := if_pos h

theorem execTileCycleLimit_below (h : ¬AtCycleLimit s d t) : execTileCycleLimit d t s = .next s := if_neg h

theorem execTileMemoryError_fitted (hctl : ctlOk s d = true) (ht : t < 18) :
    execTileMemoryError d t m a b s = .next (tileEcc d t m a b s) :=
  if_neg (by simp [hctl, ht])

theorem execTileMemoryError_absent (h : ctlOk s d = false ∨ 18 ≤ t) : execTileMemoryError d t m a b s = .next s :=
  if_pos (by simpa using h)

/-- Settles O30: each event acts where its condition holds, and elsewhere leaves the state (assumption 9). -/
theorem tileEventsAbortAndRepair : Obligations.TileEventsAbortAndRepair := by
  refine ⟨?limit, ?below, ?double, ?single, ?absent, ?repair⟩
  case limit => exact fun d t s hitem hcycles => execTileCycleLimit_at ⟨hitem, hcycles⟩
  case below =>
    intro d t s hno
    refine execTileCycleLimit_below ?_
    rintro ⟨hitem, hcycles⟩
    rcases hno with hnone | hbelow
    · simp [hnone] at hitem
    · exact absurd hcycles (Nat.not_le.mpr hbelow)
  case double => exact fun d t m a s hctl ht => execTileMemoryError_fitted hctl ht
  case single => exact fun d t m a s hctl ht => execTileMemoryError_fitted hctl ht
  case absent => exact fun d t m a b s h => execTileMemoryError_absent h
  case repair => exact fun d t s => rfl

end Sys2Proof.Machine

/-! PROOFS. The DISP commands stage flows and classes, cancel and read, and the events of the dispatcher act where they are due (R316 to
R335, O31). -/

namespace Sys2Proof.Machine

open Sys2Proof

variable {c : Cmd} {s : State}

/-! ### DISP_FLOW_CONFIG (R316, R334) -/

/-- DISP_FLOW_CONFIG names a flow of a fitted die, with parameters in range, and shadow set 4 is free; a KX8-M3 has no direct pairs. -/
structure FlowConfigAdmitted (c : Cmd) (s : State) : Prop where
  staging : StagingAdmitted 44 4 aieStates c s
  die : c.u8 0 < 2
  fitted : ctlFit s (c.u8 0) = true
  pairs : s.dev.variant ≠ .m3 ∨ pairEvent (readFlow c) = false
  number : c.u8 1 < 64
  range : flowOk (readFlow c) = true

/-- The gate of DISP_FLOW_CONFIG (`execDispFlowConfig`). -/
def flowConfigGate (c : Cmd) (s : State) : Gate :=
  stagingGate 0x0801 44 4 busyStates (ctlFit s (c.u8 0) && !(s.dev.variant == .m3 && pairEvent (readFlow c)))
    (c.u8 0 < 2 && c.u8 1 < 64 && flowOk (readFlow c)) c s

/-- The flow waits in shadow set 4 of its die. -/
def flowStaged (c : Cmd) (s : State) : State :=
  stage 4 c.params (dieUpd (c.u8 0) (fun x => { x with flowNew := tset x.flowNew (c.u8 1) (readFlow c) }) s)

/-- The flows of the shadow set of die `d`. -/
def shadowFlows (d : Nat) (s : State) : List FlowCfg := (List.range 64).map (flowShadow s d)

/-- The items that they reserve. -/
def reservedItems (d : Nat) (s : State) : Nat := ((shadowFlows d s).map (·.res)).sum

section
variable (h : FlowConfigAdmitted c s)
include h

theorem FlowConfigAdmitted.passes : (flowConfigGate c s).Passes c s := by
  refine h.staging.passes (serving_of_mem h.staging.admits.2.1 (by decide) (by decide)) rfl ?fitted ?par
  case fitted => rcases h.pairs with hvariant | hevent <;> simp [h.fitted, *]
  case par => simp [h.die, h.number, h.range]

theorem FlowConfigAdmitted.exec_conflict (hno : flowConflict s (c.u8 0) (c.u8 1) (readFlow c) = true) :
    execDispFlowConfig c s = .next (answer 0x0801 c .conflict [] s) := by
  unfold execDispFlowConfig
  exact h.passes.answers h.staging.gate_free rfl (if_pos hno)

section
variable (hfits : flowConflict s (c.u8 0) (c.u8 1) (readFlow c) = false)
include hfits

theorem FlowConfigAdmitted.exec_exhausted (hmany : 512 < reservedItems (c.u8 0) (flowStaged c s)) :
    execDispFlowConfig c s = .next (answer 0x0801 c .exhausted [] s) := by
  unfold execDispFlowConfig
  exact h.passes.answers h.staging.gate_free rfl ((if_neg (ne_true_of_eq_false hfits)).trans (if_pos hmany))

theorem FlowConfigAdmitted.exec_stages (hroom : reservedItems (c.u8 0) (flowStaged c s) ≤ 512) :
    execDispFlowConfig c s = .next (answer 0x0801 c .ok (le 2 (reservedItems (c.u8 0) (flowStaged c s)) ++
      le 2 ((shadowFlows (c.u8 0) (flowStaged c s)).filter (fun x => x.arity != 0)).length) (flowStaged c s)) := by
  unfold execDispFlowConfig
  exact h.passes.answers h.staging.gate_free rfl ((if_neg (ne_true_of_eq_false hfits)).trans (if_neg (Nat.not_lt.mpr hroom)))

end

end

/-! ### DISP_CLASS_CONFIG -/

/-- The parameters of DISP_CLASS_CONFIG are in range. -/
structure ClassConfigInRange (c : Cmd) : Prop where
  number : c.u8 0 < 8
  rankLow : 2 ≤ c.u8 1
  rankHigh : c.u8 1 ≤ 5
  tilesLow : 1 ≤ c.u8 2
  tilesHigh : c.u8 2 ≤ 16
  reserved : c.rsv 3 1 = true

/-- The class waits in shadow set 4. -/
def classStaged (c : Cmd) (s : State) : State :=
  stage 4 c.params (s.onTiles (fun x => { x with clsNew := tset x.clsNew (c.u8 0) { rank := c.u8 1, tmax := c.u8 2 } }))

theorem execDispClassConfig_stages (h : StagingAdmitted 4 4 aieStates c s) (hany : anyCtl s = true) (hrange : ClassConfigInRange c) :
    execDispClassConfig c s = .next (answer 0x0802 c .ok [] (classStaged c s)) := by
  obtain ⟨hnumber, hrankLow, hrankHigh, htilesLow, htilesHigh, hrsv⟩ := hrange
  unfold execDispClassConfig
  exact (h.passes (serving_of_mem h.admits.2.1 (by decide) (by decide)) rfl hany
    (by simp [hnumber, hrankLow, hrankHigh, htilesLow, htilesHigh, hrsv])).answers h.gate_free rfl rfl

/-! ### DISP_CANCEL (R323, R333) -/

/-- DISP_CANCEL names a flow of a fitted die, with a scope, and nothing holds the flow. -/
structure CancelAdmitted (c : Cmd) (s : State) : Prop where
  admits : Admits c s aieStates [.active, .standby]
  params : Inline c 12
  die : c.u8 0 < 2
  fitted : ctlFit s (c.u8 0) = true
  number : c.u8 1 < 64
  scope : c.u8 2 < 3
  reserved : c.rsv 3 1 = true
  free : held s (.flow (flowObj (c.u8 0) (c.u8 1))) = false

/-- The gate of DISP_CANCEL (`execDispCancel`). -/
def cancelGate (c : Cmd) (s : State) : Gate := {
  opcode := 0x0803, len := c.inl 12, fitted := ctlFit s (c.u8 0), legal := busyStates, roles := actStby,
  free := !held s (.flow (flowObj (c.u8 0) (c.u8 1))), par := c.u8 0 < 2 && c.u8 1 < 64 && c.u8 2 < 3 && c.rsv 3 1 }

/-- The cancel waits for its crossing. -/
def cancelWaits (c : Cmd) (s : State) : State :=
  dieUpd (c.u8 0) (fun x => { x with
    cancels := x.cancels ++ [⟨c.u8 1, c.u8 2, if c.u8 2 = 2 then c.u32 4 else c.u64 4, s.link.crossing⟩] }) s

section
variable (h : CancelAdmitted c s)
include h

theorem CancelAdmitted.passes : (cancelGate c s).Passes c s :=
  Gate.OpenIn.passes ⟨rfl, rfl, rfl, rfl, rfl⟩ h.admits (.of_inline h.params rfl) h.fitted
    (by simp [cancelGate, h.die, h.number, h.scope, h.reserved])

theorem CancelAdmitted.gate_free : (cancelGate c s).free = true := by simp [cancelGate, h.free]

/-- Its one response follows at the crossing: the command stays in hand. -/
theorem CancelAdmitted.exec_waits (hflow : (flowCfg s (c.u8 0) (c.u8 1)).arity ≠ 0) :
    execDispCancel c s = .next (awaitFirst 0x0803 c (pendAs 0x0803 c [.flow (flowObj (c.u8 0) (c.u8 1))] aieStates
      (flowObj (c.u8 0) (c.u8 1)) none (cancelWaits c s))) := by
  unfold execDispCancel
  exact h.passes.runs (later := true) h.gate_free rfl (if_neg hflow)

theorem CancelAdmitted.exec_conflict (hflow : (flowCfg s (c.u8 0) (c.u8 1)).arity = 0) :
    execDispCancel c s = .next (answer 0x0803 c .conflict [] s) := by
  unfold execDispCancel
  exact h.passes.answers h.gate_free rfl (if_pos hflow)

end

/-! ### DISP_STATS_READ (R335) -/

/-- The entries that a kind of DISP_STATS_READ has: flows, classes or tiles. -/
def statsEntries (kind : Nat) : Nat := if kind = 0 then 64 else if kind = 1 then 8 else 16

/-- Entry `i` of a kind. -/
def statsEntry (s : State) (d kind i : Nat) : Bytes :=
  if kind = 0 then flowEntry s d i else if kind = 1 then clsEntry s d i else loadEntry s d i

/-- What DISP_STATS_READ answers, of `n` entries written. -/
def statsResult (s : State) (d n : Nat) : Bytes :=
  le 1 (dieGet s d).shed ++ le 1 0 ++ le 2 (dieGet s d).items.length ++ le 2 (dieGet s d).depthMax ++
    le 2 ((List.range 18).filter (fun t => (tileGet s d t).item.isSome)).length ++ le 4 n ++ le 4 s.tick.index

theorem execDispStatsRead_ok (hserving : Serving s) (hmb : c.mb ≠ 0) (hinline : Inline c 12) (hdie : c.u8 0 < 2)
    (hfit : ctlFit s (c.u8 0) = true) (hkind : c.u8 1 < 3) (hrsv : c.rsv 2 2 = true) (haligned : c.u64 4 % 64 = 0) {t : State} {n : Nat}
    (hn : (if c.u64 4 = 0 then 0 else statsEntries (c.u8 1)) = n)
    (ht : bufferFilled c ((List.range (statsEntries (c.u8 1))).flatMap (statsEntry s (c.u8 0) (c.u8 1))) s = t) :
    execDispStatsRead c s = .next (answer 0x0804 c .ok (statsResult s (c.u8 0) n) t) := by
  subst hn ht
  unfold execDispStatsRead
  exact (readGate_passes_inline hserving (.inr hmb) hinline hfit (by simp [hdie, hkind, hrsv, haligned])).answers rfl rfl rfl

/-! ### The events of the dispatcher -/

section
variable {d w : Nat} {i : Item}

theorem execItemStart_starts {t : Nat} (hitem : firstItem s d = some i) (htile : idleTile s d = some t) :
    execItemStart d w s = .next (itemStart d t i w s) := by
  simp only [execItemStart, hitem, htile]

theorem execItemStart_none (h : firstItem s d = none ∨ idleTile s d = none) : execItemStart d w s = .next s := by
  rcases h with h | h
  · simp only [execItemStart, h]
  · cases hitem : firstItem s d <;> simp only [execItemStart, h, hitem]

variable {r : FlowAt}

theorem execItemRelease_due (hdue : dueItem s d r.flow = some i) :
    execItemRelease d r s = .next (itemRelease d (releaseEdge s r.cycle) i s) := by
  simp only [execItemRelease, hdue]

theorem execItemRelease_none (hdue : dueItem s d r.flow = none) : execItemRelease d r s = .next s := by
  simp only [execItemRelease, hdue]

variable {f q : Nat}

/-- The waiting item of a flow by its sequence number. -/
def waitingItem (s : State) (d f q : Nat) : Option Item := (dieGet s d).items.find? (fun j => j.flow == f && j.seq == q)

/-- The item is not ready at the input crossing of its creation tick plus T_wait, and no replay decides it (R318). -/
def TimedOut (s : State) (d f : Nat) (i : Item) : Prop :=
  (!replaying s) = true ∧ (!i.ready) = true ∧ i.made + (flowCfg s d f).twait ≤ s.link.crossing

theorem execItemTimeout_due (hitem : waitingItem s d f q = some i) (hdue : TimedOut s d f i) :
    execItemTimeout d f q s = .next (itemTimeout d i s) := by
  unfold waitingItem at hitem
  simp only [execItemTimeout, hitem]
  exact if_pos hdue

theorem execItemTimeout_not_due (h : ∀ i, waitingItem s d f q = some i → ¬TimedOut s d f i) : execItemTimeout d f q s = .next s := by
  unfold execItemTimeout
  split
  next i hitem => exact if_neg (h i hitem)
  next => rfl

theorem shedFall_due (hreplay : replaying s = false) (hcalm : 1024 ≤ (dieGet s d).calm) (hshed : 0 < (dieGet s d).shed) :
    shedFall d s = dispEvent d 0x04 .notice 0 [(dieGet s d).shed - 1, s.tick.index - (dieGet s d).shedAt]
      (journal 3 d 0 ((dieGet s d).shed - 1) 0 0
        (dieUpd d (fun y => { y with shed := y.shed - 1, calm := 0, shedAt := s.tick.index }) s)) := by
  unfold shedFall
  exact if_pos ⟨by simp [hreplay], hcalm, hshed⟩

theorem shedFall_not_due (h : replaying s = true ∨ (dieGet s d).calm < 1024 ∨ (dieGet s d).shed = 0) : shedFall d s = s := by
  refine if_neg ?_
  rintro ⟨hreplay, hcalm, hshed⟩
  rcases h with h | h | h
  · simp [h] at hreplay
  · omega
  · omega

variable {p n : Nat} {e : Binding}

/-- The binding that serves a result port. -/
def portBinding (s : State) (d p : Nat) : Option (Nat × Binding) :=
  (dieGet s d).bind.find? (fun b => b.2.kid != 0 && bit b.2.rports p)

/-- The result port is valid, and has gone without a publication for AGE crossings (R328). -/
def PortExpired (s : State) (d p : Nat) (e : Binding) : Prop :=
  (tget {} (dieGet s d).rports p : TPort).ok = true ∧ 0 < (flowCfg s d e.flow).age ∧
    (flowCfg s d e.flow).age ≤ (tget {} (dieGet s d).rports p : TPort).age

theorem execPortAgeExpiry_due (hbind : portBinding s d p = some (n, e)) (hdue : PortExpired s d p e) :
    execPortAgeExpiry d p s = .next (portsInvalid d { e with rports := 2 ^ p, dports := 0 } 3 s) := by
  unfold portBinding at hbind
  simp only [execPortAgeExpiry, hbind]
  exact if_pos hdue

theorem execPortAgeExpiry_not_due (h : ∀ n e, portBinding s d p = some (n, e) → ¬PortExpired s d p e) :
    execPortAgeExpiry d p s = .next s := by
  unfold execPortAgeExpiry
  dsimp only
  split
  next n e hbind => exact if_neg (h n e hbind)
  next => rfl

end

/-! ### The obligation -/

/-- Settles O31: each command's gate passes under the conditions of its clause and its action takes the branch that they name; each event acts
where it is due and nowhere else (assumption 9). A cancel keeps its command in hand until its one response (assumption 19). -/
theorem dispatcherCommandsAndEvents : Obligations.DispatcherCommandsAndEvents := by
  refine ⟨?flow, ?flowConflict, ?flowExhausted, ?cls, ?cancel, ?cancelConflict, ?statsBuffer, ?statsCounts, ?start, ?noStart, ?release,
    ?noRelease, ?timeout, ?noTimeout, ?cancelAct, ?shed, ?noShed, ?age, ?noAge⟩
  case flow =>
    intro c s u hu hadmits hinline hdie hfit hpairs hfree hnumber hrange hfits hroom
    obtain rfl : u = flowStaged c s := hu
    exact FlowConfigAdmitted.exec_stages ⟨⟨hadmits, hinline, hfree⟩, hdie, hfit, hpairs, hnumber, hrange⟩ hfits hroom
  case flowConflict =>
    intro c s hadmits hinline hdie hfit hpairs hfree hnumber hrange hno
    exact FlowConfigAdmitted.exec_conflict ⟨⟨hadmits, hinline, hfree⟩, hdie, hfit, hpairs, hnumber, hrange⟩ hno
  case flowExhausted =>
    intro c s u hu hadmits hinline hdie hfit hpairs hfree hnumber hrange hfits hmany
    obtain rfl : u = flowStaged c s := hu
    exact FlowConfigAdmitted.exec_exhausted ⟨⟨hadmits, hinline, hfree⟩, hdie, hfit, hpairs, hnumber, hrange⟩ hfits hmany
  case cls =>
    intro c s hadmits hinline hany hfree hnumber hrankLow hrankHigh htilesLow htilesHigh hrsv
    exact execDispClassConfig_stages ⟨hadmits, hinline, hfree⟩ hany ⟨hnumber, hrankLow, hrankHigh, htilesLow, htilesHigh, hrsv⟩
  case cancel =>
    intro c s hadmits hinline hdie hfit hnumber hscope hrsv hfree hflow
    exact CancelAdmitted.exec_waits ⟨hadmits, hinline, hdie, hfit, hnumber, hscope, hrsv, hfree⟩ hflow
  case cancelConflict =>
    intro c s hadmits hinline hdie hfit hnumber hscope hrsv hfree hflow
    exact CancelAdmitted.exec_conflict ⟨hadmits, hinline, hdie, hfit, hnumber, hscope, hrsv, hfree⟩ hflow
  case statsBuffer =>
    intro c s hserving hinline hmb hdie hfit hkind hrsv haligned haddr
    exact execDispStatsRead_ok hserving hmb hinline hdie hfit hkind hrsv haligned (if_neg haddr) (bufferFilled_of_ne_zero haddr)
  case statsCounts =>
    intro c s hserving hinline hmb hdie hfit hkind hrsv hzero
    exact execDispStatsRead_ok hserving hmb hinline hdie hfit hkind hrsv (by simp [hzero]) (if_pos hzero) (bufferFilled_of_zero hzero)
  case start => exact fun d w t i s hitem htile => execItemStart_starts hitem htile
  case noStart => exact fun d w s h => execItemStart_none h
  case release => exact fun d i r s hdue => execItemRelease_due hdue
  case noRelease => exact fun d r s hdue => execItemRelease_none hdue
  case timeout =>
    exact fun d f q i s hitem hreplay hready hdue => execItemTimeout_due hitem ⟨by simp [hreplay], by simp [hready], hdue⟩
  case noTimeout =>
    intro d f q s hall
    refine execItemTimeout_not_due fun i hitem => ?_
    rintro ⟨hreplay, hready, hdue⟩
    unfold waitingItem at hitem
    rw [hitem] at hall
    simp only [Option.all_some, Bool.or_eq_true, decide_eq_true_eq] at hall
    rcases hall with (hall | hall) | hall
    · simp [hall] at hreplay
    · simp [hall] at hready
    · omega
  case cancelAct => exact fun d s => rfl
  case shed => exact fun d s hreplay hcalm hshed => congrArg _ (shedFall_due hreplay hcalm hshed)
  case noShed => exact fun d s h => congrArg _ (shedFall_not_due h)
  case age => exact fun d p n e s hbind hok hage hdue => execPortAgeExpiry_due hbind ⟨hok, hage, hdue⟩
  case noAge =>
    intro d p s hall
    refine execPortAgeExpiry_not_due fun n e hbind => ?_
    rintro ⟨hok, hage, hdue⟩
    unfold portBinding at hbind
    rw [hbind] at hall
    simp only [Option.all_some, Bool.or_eq_true, Bool.not_eq_true', beq_iff_eq, decide_eq_true_eq] at hall
    rcases hall with (hall | hall) | hall
    · exact Bool.false_ne_true (hall.symm.trans hok)
    · omega
    · omega

end Sys2Proof.Machine

/-! PROOFS. What a tile's instruction comes to, by the outcome of its effect: the tile written, or the item aborted (R283, R293, R296, R307). -/

namespace Sys2Proof.Machine

open Sys2Proof

variable {d t op cost : Nat} {w zero : Word32} {reads : List Nat} {s : State} {i : Item} {act : Item → TileSt → TRes}
  {fin : Item → TileSt → State → State} {x y : TileSt} {f : TFault}

/-- An instruction that issues with an effect on the tile ends as `fin` says. -/
theorem issueWith_ends (h : Issues s d t w op zero i) (hact : act i (issued s d t reads cost) = .ok y) :
    (.next (issueWith d t w op zero reads cost s act fin) : Out) = .next (fin i y s) := by
  rw [issueWith_ok h, hact]

/-- An instruction that issues with a fault aborts the item. -/
theorem issueWith_aborts (h : Issues s d t w op zero i) (hact : act i (issued s d t reads cost) = .error f) :
    (.next (issueWith d t w op zero reads cost s act fin) : Out) = .next (tileAbort d t f s) := by
  rw [issueWith_ok h, hact]

/-- An instruction whose whole effect is on its tile writes it. -/
theorem issue_writes (h : Issues s d t w op zero i) (hact : act i (issued s d t reads cost) = .ok y) :
    (.next (issue d t w op zero reads cost s act) : Out) = .next (tileUpd d t (fun _ => y) s) :=
  issueWith_ends h hact

/-- A word with a bit set that its format has at zero aborts the item. -/
theorem issueWith_misformed (h : Misformed s d t w op zero i) :
    (.next (issueWith d t w op zero reads cost s act fin) : Out) = .next (tileAbort d t .illegal s) :=
  congrArg _ (issueWith_bad h)

/-! ### What moving on to the next instruction leaves of the tile -/

theorem TileSt.advance_d (x : TileSt) : x.advance.d = x.d := by
  unfold TileSt.advance
  dsimp only
  split
  · rfl
  · split
    · rfl
    · split <;> rfl

theorem TileSt.advance_bind (x : TileSt) : x.advance.bind = x.bind := by
  unfold TileSt.advance
  dsimp only
  split
  · rfl
  · split
    · rfl
    · split <;> rfl

theorem issued_dr (n : Nat) : (issued s d t reads cost).dr n = (tileGet s d t).dr n := by
  rw [TileSt.dr, TileSt.dr, issued, TileSt.advance_d]

theorem issued_bind : (issued s d t reads cost).bind = (tileGet s d t).bind := by
  rw [issued, TileSt.advance_bind]

/-! ### The operations of the ALU (R290) -/

/-- A wrapping operation of two registers, by its exact value and the word this wraps to. -/
theorem aluRR_wraps {g : Int → Int → Int} {e : Int} {r : Word32} (h : Issues s d t w op 0x3FFF i)
    (hx : issued s d t [fld w 21 18, fld w 17 14] 1 = x) (he : g (x.dr (fld w 21 18)).toInt (x.dr (fld w 17 14)).toInt = e) (hr : w32 e = r) :
    aluRR d t w op s g false =
      .next (tileUpd d t (fun _ => { x.setD (fld w 25 22) r with st := stAlu x.st r (satS 32 e != e) }) s) := by
  subst hx he hr
  exact issue_writes h rfl

/-- A saturating operation of two registers, by its exact value. -/
theorem aluRR_saturates {g : Int → Int → Int} {e : Int} (h : Issues s d t w op 0x3FFF i)
    (hx : issued s d t [fld w 21 18, fld w 17 14] 1 = x) (he : g (x.dr (fld w 21 18)).toInt (x.dr (fld w 17 14)).toInt = e) :
    aluRR d t w op s g true = .next (tileUpd d t (fun _ =>
      { x.setD (fld w 25 22) (w32 (satS 32 e)) with st := stSat x.st (w32 (satS 32 e)) (satS 32 e != e) }) s) := by
  subst hx he
  exact issue_writes h rfl

/-- An operation of two registers that cannot overflow. -/
theorem aluBits_writes {g : Word32 → Word32 → Word32} (h : Issues s d t w op 0x3FFF i)
    (hx : issued s d t [fld w 21 18, fld w 17 14] 1 = x) :
    aluBits d t w op s g = .next (tileUpd d t (fun _ => { x.setD (fld w 25 22) (g (x.dr (fld w 21 18)) (x.dr (fld w 17 14))) with
      st := stAlu x.st (g (x.dr (fld w 21 18)) (x.dr (fld w 17 14))) false }) s) := by
  subst hx
  exact issue_writes h rfl

/-- A saturating operation of one register, by its exact value. -/
theorem aluOne_saturates {e : TileSt → Word32 → Int} (h : Issues s d t w op 0x3FFFF i) (hx : issued s d t [fld w 21 18] 1 = x) :
    aluOne d t w op s (fun x a => satWord (e x a)) = .next (tileUpd d t (fun _ =>
      { x.setD (fld w 25 22) (w32 (satS 32 (e x (x.dr (fld w 21 18))))) with
        st := stSat x.st (w32 (satS 32 (e x (x.dr (fld w 21 18))))) (satS 32 (e x (x.dr (fld w 21 18))) != e x (x.dr (fld w 21 18))) }) s) := by
  subst hx
  exact issue_writes h rfl

/-! ### The shifts (R290) -/

/-- The count of a shift, as the tile holds it (R293). -/
def shiftCount (s : State) (d t : Nat) (w : Word32) : Nat := ((tileGet s d t).dr (fld w 17 14)).toNat % 64

/-- A shift by up to 31 writes its exact value, saturated. -/
theorem aluShift_writes {sat : Bool} {g : Int → Nat → Int} {r : Word32 × Bool} (h : Issues s d t w op 0x3FFF i)
    (hcount : shiftCount s d t w ≤ 31) (hx : issued s d t [fld w 21 18, fld w 17 14] 1 = x)
    (hr : satWord (g (x.dr (fld w 21 18)).toInt (shiftCount s d t w)) = r) :
    aluShift d t w op s sat g = .next (tileUpd d t (fun _ => { x.setD (fld w 25 22) r.1 with
      st := if sat then stSat x.st r.1 r.2 else stAlu x.st r.1 false }) s) := by
  subst hx hr
  have hin : ¬31 < ((tileGet s d t).dr (fld w 17 14)).toNat % 64 := Nat.not_lt.mpr hcount
  refine (issueWith_ends h rfl).trans ?_
  simp only [if_neg hin]
  rfl

/-- A shift by more than 31 writes a free value (assumption 5). -/
theorem aluShift_free {sat : Bool} {g : Int → Nat → Int} (h : Issues s d t w op 0x3FFF i) (hcount : 31 < shiftCount s d t w)
    (hx : issued s d t [fld w 21 18, fld w 17 14] 1 = x) :
    aluShift d t w op s sat g = .next (tileUpd d t (fun _ => { x.setD (fld w 25 22) (BitVec.ofNat 32 s.draw.1) with
      st := if sat then stSat x.st (BitVec.ofNat 32 s.draw.1) (sat && bit s.draw.1 32)
        else stAlu x.st (BitVec.ofNat 32 s.draw.1) false }) s.draw.2) := by
  subst hx
  have hout : 31 < ((tileGet s d t).dr (fld w 17 14)).toNat % 64 := hcount
  refine (issueWith_ends h rfl).trans ?_
  simp only [if_pos hout]

end Sys2Proof.Machine

/-! PROOFS. The wrapping and saturating operations of the tiles (R290, R293, R296, O32). -/

namespace Sys2Proof.Machine

open Sys2Proof

variable {d t : Nat} {w : Word32} {i : Item} {s : State} {x : TileSt}

theorem execOpCmp_writes (h : Issues s d t w 21 0x3C03FFF i) (hx : issued s d t [fld w 21 18, fld w 17 14] 1 = x) :
    execOpCmp d t w s = .next (tileUpd d t (fun _ => { x with
      st := stAlu x.st (x.dr (fld w 21 18) - x.dr (fld w 17 14))
        (satS 32 ((x.dr (fld w 21 18)).toInt - (x.dr (fld w 17 14)).toInt) != (x.dr (fld w 21 18)).toInt - (x.dr (fld w 17 14)).toInt) })
      s) := by
  subst hx
  refine (issue_writes h rfl).trans ?_
  rw [wrapWord, wrap_sub]

theorem execOpAddi_writes (h : Issues s d t w 24 0 i) (hx : issued s d t [fld w 21 18] 1 = x) {e : Int}
    (he : (x.dr (fld w 21 18)).toInt + fldS w 17 0 = e) :
    execOpAddi d t w s = .next (tileUpd d t (fun _ => { x.setD (fld w 25 22) (w32 e) with st := stAlu x.st (w32 e) (satS 32 e != e) }) s) := by
  subst hx he
  exact issue_writes h rfl

/-- Settles O32: each word issues, its exact value is that of its row, and the flags are those of Table 11.6 as it stands (assumptions 29
to 31); a word with a reserved bit set aborts the item. -/
theorem tileArithmeticWritesItsResult : Obligations.TileArithmeticWritesItsResult := by
  refine ⟨?add, ?sub, ?adds, ?subs, ?abs, ?neg, ?cmp, ?addi, ?bshl, ?badAdd, ?badSub, ?badAdds, ?badSubs, ?badAbs, ?badNeg, ?badCmp, ?badBshl⟩
  case add => exact fun d t w i s h => aluRR_wraps h rfl rfl (wrap_add _ _)
  case sub => exact fun d t w i s h => aluRR_wraps h rfl rfl (wrap_sub _ _)
  case adds => exact fun d t w i s h => aluRR_saturates h rfl rfl
  case subs => exact fun d t w i s h => aluRR_saturates h rfl rfl
  case abs => exact fun d t w i s h => show execOpAbs d t w s = _ from aluOne_saturates h rfl
  case neg => exact fun d t w i s h => show execOpNeg d t w s = _ from aluOne_saturates h rfl
  case cmp => exact fun d t w i s h => execOpCmp_writes h rfl
  case addi => exact fun d t w i s h => execOpAddi_writes h rfl rfl
  case bshl => exact fun d t w i s h => show execOpBshl d t w s = _ from aluOne_saturates h rfl
  case badAdd => exact fun d t w i s h => issueWith_misformed h
  case badSub => exact fun d t w i s h => issueWith_misformed h
  case badAdds => exact fun d t w i s h => issueWith_misformed h
  case badSubs => exact fun d t w i s h => issueWith_misformed h
  case badAbs => exact fun d t w i s h => issueWith_misformed h
  case badNeg => exact fun d t w i s h => issueWith_misformed h
  case badCmp => exact fun d t w i s h => issueWith_misformed h
  case badBshl => exact fun d t w i s h => issueWith_misformed h

end Sys2Proof.Machine

/-! PROOFS. Logic, minimum, maximum, shifts, block exponents and the moves of the tiles (R284, R290, R292, R298, O33). -/

namespace Sys2Proof.Machine

open Sys2Proof

variable {d t : Nat} {w : Word32} {i : Item} {s : State}

/-- MVC names one of the eight lengths, and 0 or a power of two from 8 to 4,096 for it. -/
def LengthNamed (w : Word32) : Prop :=
  fld w 25 22 < 8 ∧ (fld w 15 0 = 0 ∨ [8, 16, 32, 64, 128, 256, 512, 1024, 2048, 4096].contains (fld w 15 0))

theorem execOpMvc_writes (h : Issues s d t w 30 0x3F0000 i) (hnamed : LengthNamed w) :
    execOpMvc d t w s = .next (tileUpd d t (fun _ =>
      { issued s d t [] 1 with c := tset (issued s d t [] 1).c (fld w 25 22) (BitVec.ofNat 16 (fld w 15 0)) }) s) :=
  issue_writes h (if_pos hnamed)

theorem execOpMvc_illegal (h : Issues s d t w 30 0x3F0000 i) (hno : ¬LengthNamed w) :
    execOpMvc d t w s = .next (tileAbort d t .illegal s) :=
  issueWith_aborts h (if_neg hno)

/-- Settles O33: each word issues and writes the one register of its row, with the flags of Table 11.6 as it stands (assumptions 30 and 31);
a shift count above 31 has a free result (assumption 5); a word with a reserved bit set aborts the item. -/
theorem tileBitsAndMovesWriteTheirRegister : Obligations.TileBitsAndMovesWriteTheirRegister := by
  refine ⟨?nop, ?and, ?or, ?xor, ?min, ?max, ?shl, ?shr, ?shlFree, ?shrFree, ?bexr, ?bexp, ?exp, ?lil, ?lih, ?mvpi, ?mvpd, ?mvc, ?mvcBad,
    ?badNop, ?badAnd, ?badOr, ?badXor, ?badMin, ?badMax, ?badShl, ?badShr, ?badBexr, ?badBexp, ?badExp, ?badLil, ?badLih, ?badMvpi, ?badMvpd,
    ?badMvc⟩
  case nop => exact fun d t w i s h => issue_writes h rfl
  case and => exact fun d t w i s h => show execOpAnd d t w s = _ from aluBits_writes h rfl
  case or => exact fun d t w i s h => show execOpOr d t w s = _ from aluBits_writes h rfl
  case xor => exact fun d t w i s h => show execOpXor d t w s = _ from aluBits_writes h rfl
  case min => exact fun d t w i s h => show execOpMin d t w s = _ from aluBits_writes h rfl
  case max => exact fun d t w i s h => show execOpMax d t w s = _ from aluBits_writes h rfl
  case shl => exact fun d t w i s h hcount => show execOpShl d t w s = _ from aluShift_writes h hcount rfl rfl
  case shr => exact fun d t w i s h hcount => show execOpShr d t w s = _ from aluShift_writes h hcount rfl rfl
  case shlFree => exact fun d t w i s h hcount => show execOpShl d t w s = _ from aluShift_free h hcount rfl
  case shrFree => exact fun d t w i s h hcount => show execOpShr d t w s = _ from aluShift_free h hcount rfl
  case bexr => exact fun d t w i s h => issue_writes h rfl
  case bexp => exact fun d t w i s h => issue_writes h rfl
  case exp => exact fun d t w i s h => issue_writes h rfl
  case lil => exact fun d t w i s h => issue_writes h rfl
  case lih => exact fun d t w i s h => issue_writes h rfl
  case mvpi => exact fun d t w i s h => issue_writes h rfl
  case mvpd => exact fun d t w i s h => issue_writes h rfl
  case mvc => exact fun d t w i s h hptr hlen => execOpMvc_writes h ⟨hptr, hlen⟩
  case mvcBad =>
    intro d t w i s h hno
    refine execOpMvc_illegal h ?_
    rintro ⟨hptr, hlen⟩
    rcases hno with hno | ⟨hzero, hno⟩
    · exact absurd hptr (Nat.not_lt.mpr hno)
    · exact hlen.elim hzero (ne_true_of_eq_false hno)
  case badNop => exact fun d t w i s h => issueWith_misformed h
  case badAnd => exact fun d t w i s h => issueWith_misformed h
  case badOr => exact fun d t w i s h => issueWith_misformed h
  case badXor => exact fun d t w i s h => issueWith_misformed h
  case badMin => exact fun d t w i s h => issueWith_misformed h
  case badMax => exact fun d t w i s h => issueWith_misformed h
  case badShl => exact fun d t w i s h => issueWith_misformed h
  case badShr => exact fun d t w i s h => issueWith_misformed h
  case badBexr => exact fun d t w i s h => issueWith_misformed h
  case badBexp => exact fun d t w i s h => issueWith_misformed h
  case badExp => exact fun d t w i s h => issueWith_misformed h
  case badLil => exact fun d t w i s h => issueWith_misformed h
  case badLih => exact fun d t w i s h => issueWith_misformed h
  case badMvpi => exact fun d t w i s h => issueWith_misformed h
  case badMvpd => exact fun d t w i s h => issueWith_misformed h
  case badMvc => exact fun d t w i s h => issueWith_misformed h

end Sys2Proof.Machine

/-! PROOFS. Products, stores, loads and moves of the accumulators (R288, R289, R298, O34). -/

namespace Sys2Proof.Machine

open Sys2Proof

variable {d t op lim : Nat} {w zero : Word32} {i : Item} {s : State}

/-- A store whose shift is within its limit writes the rounded, saturated value (R289, R298). -/
theorem accStore_writes {g : BitVec 80 → Nat → Word32 × Bool} {x : TileSt} {r : Word32 × Bool} (h : Issues s d t w op zero i)
    (hshift : fld w 11 6 ≤ lim) (hx : issued s d t [] 1 = x) (hr : g (x.ar (fld w 25 24)) (fld w 11 6) = r) :
    accStore d t w op zero lim s g = .next (tileUpd d t (fun _ =>
      { x.setD (fld w 23 20) r.1 with st := if r.2 then stSet (stSet x.st 5 true) 3 true else x.st }) s) := by
  subst hx hr
  exact issue_writes h (if_neg (Nat.not_lt.mpr hshift))

/-- A field of six bits holds no shift above 63. -/
theorem fld_le_63 (w : Word32) : fld w 11 6 ≤ 63 := Nat.le_of_lt_succ (Nat.mod_lt _ (by decide))

/-- Settles O34: each word issues, its shift or part is within the limit of its row or the item is aborted; the fields that MAC, MSU, MVA and
STB ignore are those of Table 11.6 as it stands (assumption 30). -/
theorem tileAccumulatorsWrapAndStore : Obligations.TileAccumulatorsWrapAndStore := by
  refine ⟨?mpy, ?mac, ?msu, ?sta, ?stb, ?lda, ?mva, ?staBad, ?ldaBad, ?mvaBad, ?badMpy, ?badMac, ?badMsu, ?badSta, ?badStb, ?badLda, ?badMva⟩
  case mpy => exact fun d t w i s h => issue_writes h rfl
  case mac => exact fun d t w i s h => issue_writes h rfl
  case msu => exact fun d t w i s h => issue_writes h rfl
  case sta => exact fun d t w i s h hshift => accStore_writes h hshift rfl rfl
  case stb => exact fun d t w i s h => accStore_writes h (fld_le_63 w) rfl rfl
  case lda => exact fun d t w i s h hshift => issue_writes h (if_neg (Nat.not_lt.mpr hshift))
  case mva => exact fun d t w i s h hpart => issue_writes h (if_neg hpart)
  case staBad => exact fun d t w i s h hshift => issueWith_aborts h (if_pos hshift)
  case ldaBad => exact fun d t w i s h hshift => issueWith_aborts h (if_pos hshift)
  case mvaBad => exact fun d t w i s h hpart => issueWith_aborts h (if_pos hpart)
  case badMpy => exact fun d t w i s h => issueWith_misformed h
  case badMac => exact fun d t w i s h => issueWith_misformed h
  case badMsu => exact fun d t w i s h => issueWith_misformed h
  case badSta => exact fun d t w i s h => issueWith_misformed h
  case badStb => exact fun d t w i s h => issueWith_misformed h
  case badLda => exact fun d t w i s h => issueWith_misformed h
  case badMva => exact fun d t w i s h => issueWith_misformed h

end Sys2Proof.Machine

/-! PROOFS. Ends, repeats, branches, memory, views and ports of the tiles (R291, R295 to R297, R299, R300, R307, O35). -/

namespace Sys2Proof.Machine

open Sys2Proof

variable {d t : Nat} {w : Word32} {i : Item} {s : State} {x : TileSt}

/-! ### END and REP (R297, R300) -/

theorem execOpEnd_ends (h : Issues s d t w 1 0x3FFFFFF i) (hrep : (tileGet s d t).rep = none) :
    execOpEnd d t w s = .next (itemEnd d t i (issued s d t [] 1) s) :=
  issueWith_ends h (if_neg (by simp [hrep]))

theorem execOpEnd_illegal (h : Issues s d t w 1 0x3FFFFFF i) (hrep : (tileGet s d t).rep ≠ none) :
    execOpEnd d t w s = .next (tileAbort d t .illegal s) :=
  issueWith_aborts h (if_pos (Option.isSome_iff_ne_none.mpr hrep))

/-- The registers that REP reads: the one its count stands in, where it does. -/
def repReads (w : Word32) : List Nat := if fld w 21 21 = 1 then [fld w 3 0] else []

/-- The count of REP, in a register or in the word (R297). -/
def repCount (s : State) (d t : Nat) (w : Word32) : Nat :=
  if fld w 21 21 = 1 then ((tileGet s d t).dr (fld w 3 0)).toNat % 65536 else fld w 15 0

/-- The effect of REP on the tile as it finds it, for the count `n`. -/
def repEffect (s : State) (d t : Nat) (w : Word32) (n : Nat) (x : TileSt) : TRes :=
  if (tileGet s d t).rep.isSome || (fld w 21 21 == 1 && fld w 15 4 != 0) then .error .illegal
  else if !inRegion x.bind.kid (x.pc + (fld w 25 22 + 1) - 1) then .error .illegal
  else if n = 0 then .ok { x with pc := x.pc + (fld w 25 22 + 1) }
  else .ok { x with rep := some ⟨x.pc, fld w 25 22 + 1, n - 1⟩ }

/-- REP as it issues, by its effect. -/
theorem execOpRep_eq : execOpRep d t w s =
    .next (issue d t w 0x02 0x1F0000 (repReads w) 1 s (fun _ x => repEffect s d t w
      (if fld w 21 21 = 1 then (x.dr (fld w 3 0)).toNat % 65536 else fld w 15 0) x)) := by
  simp only [execOpRep, repReads, repEffect, beq_iff_eq]

/-- A body that lies in the region, outside another body, with a register that the word may name. -/
structure RepAllowed (s : State) (d t : Nat) (w : Word32) (x : TileSt) : Prop where
  single : (tileGet s d t).rep = none
  register : fld w 21 21 = 0 ∨ fld w 15 4 = 0
  body : inRegion x.bind.kid (x.pc + (fld w 25 22 + 1) - 1) = true

theorem repEffect_of_allowed {n : Nat} (h : RepAllowed s d t w x) : repEffect s d t w n x =
    if n = 0 then .ok { x with pc := x.pc + (fld w 25 22 + 1) } else .ok { x with rep := some ⟨x.pc, fld w 25 22 + 1, n - 1⟩ } := by
  obtain ⟨hsingle, hregister, hbody⟩ := h
  have hname : (fld w 21 21 == 1 && fld w 15 4 != 0) = false := by rcases hregister with h | h <;> simp [h]
  unfold repEffect
  rw [hsingle, hname, hbody]
  rfl

theorem repEffect_illegal {n : Nat} (h : (tileGet s d t).rep ≠ none ∨ (fld w 21 21 = 1 ∧ fld w 15 4 ≠ 0) ∨
    inRegion x.bind.kid (x.pc + (fld w 25 22 + 1) - 1) = false) : repEffect s d t w n x = .error .illegal := by
  unfold repEffect
  split
  next => rfl
  next hfirst =>
    refine if_pos ?_
    rcases h with h | h | h
    · exact absurd (by simp [Option.isSome_iff_ne_none.mpr h]) hfirst
    · exact absurd (by simp [h]) hfirst
    · rw [h]
      rfl

section
variable (h : Issues s d t w 2 0x1F0000 i) (hx : issued s d t (repReads w) 1 = x)
include h hx

/-- REP that issues, by the count it finds in the word or on the tile. -/
theorem execOpRep_writes {y : TileSt} (hy : repEffect s d t w (repCount s d t w) x = .ok y) :
    execOpRep d t w s = .next (tileUpd d t (fun _ => y) s) := by
  subst hx
  rw [execOpRep_eq]
  exact issue_writes h (by simpa only [issued_dr, repCount] using hy)

theorem execOpRep_illegal (hno : (tileGet s d t).rep ≠ none ∨ (fld w 21 21 = 1 ∧ fld w 15 4 ≠ 0) ∨
    inRegion x.bind.kid (x.pc + (fld w 25 22 + 1) - 1) = false) : execOpRep d t w s = .next (tileAbort d t .illegal s) := by
  subst hx
  rw [execOpRep_eq]
  exact issueWith_aborts h (repEffect_illegal hno)

end

/-! ### BR (R295) -/

section
variable (h : Issues s d t w 3 0x3FC000 i)
include h

/-- BR of a condition that exists, outside a body, with its target in the region. -/
theorem execOpBr_writes {b : Bool} {y : TileSt} (hrep : (tileGet s d t).rep = none)
    (hcond : tileCond (issued s d t [] 1).st (fld w 25 22) = some b)
    (hregion : inRegion (issued s d t [] 1).bind.kid (fld w 13 0) = true)
    (hy : (if b then { issued s d t [] 1 with pc := fld w 13 0, cycles := (issued s d t [] 1).cycles + 2 } else issued s d t [] 1) = y) :
    execOpBr d t w s = .next (tileUpd d t (fun _ => y) s) := by
  refine issue_writes h ?_
  simp only [hcond, hrep, hregion, ← hy]
  cases b <;> rfl

theorem execOpBr_illegal (hno : (tileGet s d t).rep ≠ none ∨ tileCond (issued s d t [] 1).st (fld w 25 22) = none) :
    execOpBr d t w s = .next (tileAbort d t .illegal s) := by
  refine issueWith_aborts h ?_
  cases hcond : tileCond (issued s d t [] 1).st (fld w 25 22) with
  | none => rfl
  | some b =>
    have hrep := hno.resolve_right (by simp [hcond])
    exact if_pos (Option.isSome_iff_ne_none.mpr hrep)

/-- The target is looked at even where the branch is not taken (assumption 31). -/
theorem execOpBr_access (hrep : (tileGet s d t).rep = none) (hcond : tileCond (issued s d t [] 1).st (fld w 25 22) ≠ none)
    (hregion : inRegion (tileGet s d t).bind.kid (fld w 13 0) = false) : execOpBr d t w s = .next (tileAbort d t .access s) := by
  refine issueWith_aborts h ?_
  obtain ⟨b, hcond⟩ := Option.ne_none_iff_exists'.mp hcond
  simp [hcond, hrep, hregion, issued_bind]

end

/-! ### LD and ST (R291) -/

section
variable {a : Nat} {y : TileSt} {f : TFault}

theorem execOpLd_writes {v : Word32} (h : Issues s d t w 32 0xFF i) (haddr : memAddr w (issued s d t [] 1) = .ok (a, y))
    (hread : spaceRead s d (issued s d t [] 1) i (fld w 16 16 == 1) a = some v) :
    execOpLd d t w s = .next (tileUpd d t (fun _ => { y.setD (fld w 25 22) v with loaded := [fld w 25 22] }) s) :=
  issue_writes h (by simp only [haddr, hread])

theorem execOpLd_no_address (h : Issues s d t w 32 0xFF i) (haddr : memAddr w (issued s d t [] 1) = .error f) :
    execOpLd d t w s = .next (tileAbort d t f s) :=
  issueWith_aborts h (by simp only [haddr])

theorem execOpLd_access (h : Issues s d t w 32 0xFF i) (haddr : memAddr w (issued s d t [] 1) = .ok (a, y))
    (hread : spaceRead s d (issued s d t [] 1) i (fld w 16 16 == 1) a = none) : execOpLd d t w s = .next (tileAbort d t .access s) :=
  issueWith_aborts h (by simp only [haddr, hread])

theorem execOpSt_writes {z : TileSt} (h : Issues s d t w 33 0xFF i) (haddr : memAddr w (issued s d t [fld w 25 22] 1) = .ok (a, y))
    (hwrite : spaceWrite y (fld w 16 16 == 1) a ((issued s d t [fld w 25 22] 1).dr (fld w 25 22)) = some z) :
    execOpSt d t w s = .next (tileUpd d t (fun _ => z) s) :=
  issue_writes h (by simp only [haddr, hwrite])

theorem execOpSt_no_address (h : Issues s d t w 33 0xFF i) (haddr : memAddr w (issued s d t [fld w 25 22] 1) = .error f) :
    execOpSt d t w s = .next (tileAbort d t f s) :=
  issueWith_aborts h (by simp only [haddr])

theorem execOpSt_access (h : Issues s d t w 33 0xFF i) (haddr : memAddr w (issued s d t [fld w 25 22] 1) = .ok (a, y))
    (hwrite : spaceWrite y (fld w 16 16 == 1) a ((issued s d t [fld w 25 22] 1).dr (fld w 25 22)) = none) :
    execOpSt d t w s = .next (tileAbort d t .access s) :=
  issueWith_aborts h (by simp only [haddr, hwrite])

end

/-! ### The XY products (R296) -/

section
variable {op kind : Nat}

/-- What the X side of the word addresses on the tile, and the pointer afterwards. -/
def xSide (w : Word32) (x : TileSt) : Option (Nat × Word16) :=
  tileAddr (fld w 11 11) (x.pr (fld w 17 15)) (x.mr (fld w 17 15)) (x.cr (fld w 17 15)) 0

/-- What the Y side addresses, and the pointer afterwards. -/
def ySide (w : Word32) (x : TileSt) : Option (Nat × Word16) :=
  tileAddr (fld w 10 10) (x.pr (fld w 14 12)) (x.mr (fld w 14 12)) (x.cr (fld w 14 12)) 0

/-- Both sides of an XY product address words of their space. -/
structure XyReads (s : State) (d : Nat) (w : Word32) (i : Item) (x : TileSt) (ax ay : Nat) (px py : Word16) (vx vy : Word32) : Prop where
  xAddr : xSide w x = some (ax, px)
  yAddr : ySide w x = some (ay, py)
  xWord : xRead s d x i ax = some vx
  yWord : yRead s d x ay = some vy

/-- The registers that an XY product reads and loads. -/
abbrev xyRegs (w : Word32) : List Nat := [fld w 23 21, 8 + fld w 20 18]

/-- The tile after the product and both loads, with the pointers `p`. -/
def xyLoaded (kind : Nat) (w : Word32) (vx vy : Word32) (p : Tbl Word16) (x : TileSt) : TileSt :=
  { ((accProduct kind (fld w 25 24) (x.dr (fld w 23 21)) (x.dr (8 + fld w 20 18)) x).setD (fld w 23 21) vx).setD (8 + fld w 20 18) vy with
    p := p, loaded := xyRegs w }

section
variable {ax ay : Nat} {px py : Word16} {vx vy : Word32} (h : Issues s d t w op 0x3FF i) (hx : issued s d t (xyRegs w) 1 = x)
  (hreads : XyReads s d w i x ax ay px py vx vy)
include h hx hreads

/-- Two pointers each move. -/
theorem xyOp_writes (hptr : fld w 17 15 ≠ fld w 14 12) : xyOp d t w op kind s =
    .next (tileUpd d t (fun _ => xyLoaded kind w vx vy (tset (tset x.p (fld w 17 15) px) (fld w 14 12) py) x) s) := by
  subst hx
  obtain ⟨hxa, hya, hxw, hyw⟩ := hreads
  unfold xSide at hxa
  unfold ySide at hya
  refine (issueWith_ends h (by simp only [hxa, hya, hxw, hyw, if_neg hptr]; rfl)).trans ?_
  simp only [if_neg hptr]
  rfl

/-- A pointer named twice holds a free value afterwards (assumption 5). -/
theorem xyOp_free (hptr : fld w 17 15 = fld w 14 12) : xyOp d t w op kind s =
    .next (tileUpd d t (fun _ => xyLoaded kind w vx vy (tset x.p (fld w 17 15) (BitVec.ofNat 16 s.draw.1)) x) s.draw.2) := by
  subst hx
  obtain ⟨hxa, hya, hxw, hyw⟩ := hreads
  unfold xSide at hxa
  unfold ySide at hya
  refine (issueWith_ends h (by simp only [hxa, hya, hxw, hyw, if_pos hptr]; rfl)).trans ?_
  simp only [if_pos hptr]
  rfl

end

/-- A side that addresses no word of its space aborts the item. -/
theorem xyOp_access (h : Issues s d t w op 0x3FF i) (hx : issued s d t (xyRegs w) 1 = x)
    (hno : (xSide w x).bind (fun e => xRead s d x i e.1) = none ∨ (ySide w x).bind (fun e => yRead s d x e.1) = none) :
    xyOp d t w op kind s = .next (tileAbort d t .access s) := by
  subst hx
  unfold xSide ySide at hno
  refine issueWith_aborts h ?_
  split
  next hxa hya =>
    simp only [hxa, hya, Option.bind_some] at hno
    split
    next hxw hyw => simp [hxw, hyw] at hno
    next => rfl
  next => rfl

end

/-! ### GETS and PUT (R299, R300) -/

theorem execOpGets_writes {v : Int} {ok : Bool} (h : Issues s d t w 62 0x3F0000 i) (hget : gets s d i (fld w 15 0) = .ok (v, ok))
    (hx : issued s d t [] 8 = x) : execOpGets d t w s = .next (tileUpd d t (fun _ => { x.setD (fld w 25 22) (w32 v) with
      st := stSet (stSet (stSet x.st 1 (w32 v == 0)) 2 (w32 v).msb) 4 (!ok) }) s) := by
  subst hx
  exact issue_writes h (by simp only [hget])

theorem execOpGets_aborts {f : TFault} (h : Issues s d t w 62 0x3F0000 i) (hget : gets s d i (fld w 15 0) = .error f) :
    execOpGets d t w s = .next (tileAbort d t f s) :=
  issueWith_aborts h (by simp only [hget])

theorem execOpPut_writes (h : Issues s d t w 63 0x1F0000 i) (hx : issued s d t [fld w 25 22] 2 = x)
    (hput : putOk x.bind (fld w 21 21 == 1) (fld w 15 0) = true) : execOpPut d t w s = .next (tileUpd d t (fun _ => { x with
      puts := x.puts.filter (fun p => !(p.duty == (fld w 21 21 == 1) && p.port == fld w 15 0)) ++
        [⟨fld w 21 21 == 1, fld w 15 0, (x.dr (fld w 25 22)).toInt⟩] }) s) := by
  subst hx
  exact issue_writes h (if_pos hput)

theorem execOpPut_access (h : Issues s d t w 63 0x1F0000 i)
    (hput : putOk (issued s d t [fld w 25 22] 2).bind (fld w 21 21 == 1) (fld w 15 0) = false) :
    execOpPut d t w s = .next (tileAbort d t .access s) :=
  issueWith_aborts h (if_neg (ne_true_of_eq_false hput))

/-! ### An opcode that Table 11.6 does not list -/

/-- A ROM kernel comes upon a word whose opcode is not listed; its program memory has no content the word could differ from. -/
theorem execIllegalInstruction_aborts (hitem : tileItem s d t = some i) (hcycles : (tileGet s d t).cycles < (tileGet s d t).limit)
    (hregion : inRegion (tileGet s d t).bind.kid (tileGet s d t).pc = true) (hrom : 0x8000 ≤ (tileGet s d t).bind.kid)
    (hop : tileOpcodes.contains (fld w 31 26) = false) : execIllegalInstruction d t w s = .next (tileAbort d t .illegal s) :=
  (if_neg (ne_true_of_eq_false hop)).trans (issueWith_aborts (i := i)
    ⟨hitem, hcycles, rfl, hregion, fun hram => absurd hram (Nat.not_lt.mpr hrom), BitVec.and_zero⟩ rfl)

/-! ### The obligation -/

/-- Settles O35: each word issues, and its effect takes the branch that the clause names; a word with a reserved bit set aborts the item
(assumptions 5, 29 and 31). -/
theorem tileMemoryAndControlFlow : Obligations.TileMemoryAndControlFlow := by
  refine ⟨?ends, ?endBad, ?rep, ?repSkips, ?repBad, ?taken, ?notTaken, ?brBad, ?brAccess, ?ld, ?st, ?stAccess, ?ldFault, ?ldAccess, ?stFault,
    ?mpy, ?mac, ?msu, ?mpyFree, ?macFree, ?msuFree, ?mpyAccess, ?macAccess, ?msuAccess, ?gets, ?put, ?getsFault, ?putAccess,
    ?badEnd, ?badRep, ?badBr, ?badLd, ?badSt, ?badMpy, ?badMac, ?badMsu, ?badGets, ?badPut, ?unlisted, ?listed⟩
  case ends => exact fun d t w i s h hrep => execOpEnd_ends h hrep
  case endBad => exact fun d t w i s h hrep => execOpEnd_illegal h hrep
  case rep =>
    intro d t w i s h hrep hregister hbody hcount
    exact execOpRep_writes h rfl ((repEffect_of_allowed ⟨hrep, hregister, hbody⟩).trans (if_neg hcount))
  case repSkips =>
    intro d t w i s h hrep hregister hbody hcount
    exact execOpRep_writes h rfl ((repEffect_of_allowed ⟨hrep, hregister, hbody⟩).trans (if_pos hcount))
  case repBad => exact fun d t w i s h hno => execOpRep_illegal h rfl hno
  case taken => exact fun d t w i s h hrep hcond hregion => execOpBr_writes h hrep hcond hregion rfl
  case notTaken => exact fun d t w i s h hrep hcond hregion => execOpBr_writes h hrep hcond hregion rfl
  case brBad => exact fun d t w i s h hno => execOpBr_illegal h hno
  case brAccess => exact fun d t w i s h hrep hcond hregion => execOpBr_access h hrep hcond hregion
  case ld => exact fun d t w i a y v s h haddr hread => execOpLd_writes h haddr hread
  case st => exact fun d t w i a y z s h haddr hwrite => execOpSt_writes h haddr hwrite
  case stAccess => exact fun d t w i a y s h haddr hwrite => execOpSt_access h haddr hwrite
  case ldFault => exact fun d t w i f s h haddr => execOpLd_no_address h haddr
  case ldAccess => exact fun d t w i a y s h haddr hread => execOpLd_access h haddr hread
  case stFault => exact fun d t w i f s h haddr => execOpSt_no_address h haddr
  case mpy =>
    exact fun d t w i ax ay px py vx vy s h hptr hxa hya hxw hyw =>
      show execOpMpyxy d t w s = _ from xyOp_writes h rfl ⟨hxa, hya, hxw, hyw⟩ hptr
  case mac =>
    exact fun d t w i ax ay px py vx vy s h hptr hxa hya hxw hyw =>
      show execOpMacxy d t w s = _ from xyOp_writes h rfl ⟨hxa, hya, hxw, hyw⟩ hptr
  case msu =>
    exact fun d t w i ax ay px py vx vy s h hptr hxa hya hxw hyw =>
      show execOpMsuxy d t w s = _ from xyOp_writes h rfl ⟨hxa, hya, hxw, hyw⟩ hptr
  case mpyFree =>
    exact fun d t w i ax ay px py vx vy s h hptr hxa hya hxw hyw =>
      show execOpMpyxy d t w s = _ from xyOp_free h rfl ⟨hxa, hya, hxw, hyw⟩ hptr
  case macFree =>
    exact fun d t w i ax ay px py vx vy s h hptr hxa hya hxw hyw =>
      show execOpMacxy d t w s = _ from xyOp_free h rfl ⟨hxa, hya, hxw, hyw⟩ hptr
  case msuFree =>
    exact fun d t w i ax ay px py vx vy s h hptr hxa hya hxw hyw =>
      show execOpMsuxy d t w s = _ from xyOp_free h rfl ⟨hxa, hya, hxw, hyw⟩ hptr
  case mpyAccess => exact fun d t w i s h hno => show execOpMpyxy d t w s = _ from xyOp_access h rfl hno
  case macAccess => exact fun d t w i s h hno => show execOpMacxy d t w s = _ from xyOp_access h rfl hno
  case msuAccess => exact fun d t w i s h hno => show execOpMsuxy d t w s = _ from xyOp_access h rfl hno
  case gets => exact fun d t w i v ok s h hget => execOpGets_writes h hget rfl
  case put => exact fun d t w i s h hput => execOpPut_writes h rfl hput
  case getsFault => exact fun d t w i f s h hget => execOpGets_aborts h hget
  case putAccess => exact fun d t w i s h hput => execOpPut_access h hput
  case badEnd => exact fun d t w i s h => issueWith_misformed h
  case badRep => exact fun d t w i s h => issueWith_misformed h
  case badBr => exact fun d t w i s h => issueWith_misformed h
  case badLd => exact fun d t w i s h => issueWith_misformed h
  case badSt => exact fun d t w i s h => issueWith_misformed h
  case badMpy => exact fun d t w i s h => issueWith_misformed h
  case badMac => exact fun d t w i s h => issueWith_misformed h
  case badMsu => exact fun d t w i s h => issueWith_misformed h
  case badGets => exact fun d t w i s h => issueWith_misformed h
  case badPut => exact fun d t w i s h => issueWith_misformed h
  case unlisted => exact fun d t w i s hitem hcycles hregion hrom hop => execIllegalInstruction_aborts hitem hcycles hregion hrom hop
  case listed => exact fun d t w s hop => if_pos hop

end Sys2Proof.Machine

/-! PROOFS. The MEAS commands stage channels, sequences and filters, select the reference, calibrate, test and read (Table 13.9, R346 to R368,
O36). -/

namespace Sys2Proof.Machine

open Sys2Proof

variable {c : Cmd} {s : State}

theorem unitFit_of_absent {u : Nat} (hmpr : mprOk s = false) : unitFit s u = false := by simp [unitFit, hmpr]

/-! ### MEAS_CHANNEL_CONFIG -/

/-- The shadow of the channel with the fields of MEAS_CHANNEL_CONFIG. -/
def measChannelRead (c : Cmd) (s : State) : MChanCfg :=
  { mChanShadow s (c.u8 0) with
    on := c.u8 1 == 1, unit := c.u8 2, pos := c.u8 3, gain := c.s32 4, offs := c.s32 8, pmin := c.u16 12, pmax := c.u16 14 }

/-- The parameters of the channel wait in shadow set 5. -/
def measChannelStaged (c : Cmd) (k : MChanCfg) (s : State) : State :=
  stage 5 c.params (s.onMeas (fun m => { m with chanNew := tset m.chanNew (c.u8 0) k }))

/-- MEAS_CHANNEL_CONFIG names a channel of a unit that is there, with parameters in range. -/
structure MeasChannelAdmitted (c : Cmd) (s : State) : Prop where
  admits : Admits c s aieStates [.active, .standby]
  params : Inline c 16
  fitted : unitFit s (c.u8 2) = true
  number : c.u8 0 < 64
  switch : c.u8 1 < 2
  unit : c.u8 2 < 4
  position : c.u8 3 < 16
  window : c.u16 12 ≤ c.u16 14

/-- The gate of MEAS_CHANNEL_CONFIG (`execMeasChannelConfig`). -/
def measChannelGate (c : Cmd) (s : State) : Gate :=
  stagingGate 0x0901 16 5 busyStates (unitFit s (c.u8 2))
    (c.u8 0 < 64 && c.u8 1 < 2 && c.u8 2 < 4 && c.u8 3 < 16 && c.u16 12 ≤ c.u16 14) c s

section
variable (h : MeasChannelAdmitted c s)
include h

theorem MeasChannelAdmitted.passes : (measChannelGate c s).Passes c s :=
  Gate.OpenIn.passes ⟨rfl, rfl, rfl, rfl, rfl⟩ h.admits (.of_inline h.params rfl) h.fitted
    (by simp [measChannelGate, stagingGate, h.number, h.switch, h.unit, h.position, h.window])

theorem MeasChannelAdmitted.exec_stages (hfree : setHeld s 5 = false) {k : MChanCfg} {v : State} (hk : measChannelRead c s = k)
    (hv : measChannelStaged c k s = v) : execMeasChannelConfig c s =
      .next (answer 0x0901 c .ok (le 1 ((List.range 64).filter (fun n => (mChanShadow v n).on)).length) v) := by
  subst hk hv
  unfold execMeasChannelConfig
  exact h.passes.answers (by simp [measChannelGate, stagingGate, hfree]) rfl rfl

theorem MeasChannelAdmitted.exec_busy (hheld : setHeld s 5 = true) :
    execMeasChannelConfig c s = .next (answer 0x0901 c .busy [] s) := by
  unfold execMeasChannelConfig
  exact h.passes.busy (by simp [measChannelGate, stagingGate, hheld])

end

/-! ### MEAS_SEQUENCE_CONFIG -/

/-- The fields of MEAS_SEQUENCE_CONFIG that every unit has. -/
def sequenceRead (c : Cmd) : MSeqCfg :=
  { rlen := c.u8 1, ilen := c.u8 2, itrig := c.u8 3, itidx := c.u8 4, lead := c.u16 6,
    rslots := (List.range 16).map (fun n => c.u8 (8 + n)), islots := (List.range 4).map (fun n => c.u8 (24 + n)) }

/-- The sequence that MEAS_SEQUENCE_CONFIG brings: the first unit of a pair has the cross-check as well. -/
def sequenceParams (c : Cmd) : MSeqCfg :=
  if c.u8 0 % 2 == 0 then { sequenceRead c with xsel := c.u8 28, xn := c.u8 29, xinv := c.u8 30 == 1, xtol := c.s32 32 } else sequenceRead c

/-- The sequence of the unit waits in shadow set 5. -/
def sequenceStaged (c : Cmd) (k : MSeqCfg) (s : State) : State :=
  stage 5 c.params (s.onMeas (fun m => { m with seqNew := tset m.seqNew (c.u8 0) k }))

/-- The parameters of the cross-check are in range; a second unit has none. -/
def crossParamsOk (c : Cmd) : Bool :=
  if c.u8 0 % 2 == 0 then (c.u8 28 < 24 || c.u8 28 == 255) && 1 ≤ c.u8 29 && c.u8 30 < 2 && 0 ≤ c.s32 32 else c.rsv 28 8

/-- MEAS_SEQUENCE_CONFIG names a unit that is there, with a sequence in range, and shadow set 5 is free. -/
structure SequenceAdmitted (c : Cmd) (s : State) : Prop where
  staging : StagingAdmitted 36 5 aieStates c s
  fitted : unitFit s (c.u8 0) = true
  regular : c.u8 1 ≤ 16
  injected : c.u8 2 ≤ 4
  trigger : itrigOk (c.u8 3) (c.u8 4) = true
  lead : c.u16 6 ≤ 2000
  regularSlots : slotsFit ((List.range 16).map (fun n => c.u8 (8 + n))) (c.u8 1) = true
  injectedSlots : slotsFit ((List.range 4).map (fun n => c.u8 (24 + n))) (c.u8 2) = true
  reserved : c.rsv 5 1 = true
  padding : c.rsv 31 1 = true
  unit : c.u8 0 < 4
  cross : crossParamsOk c = true

/-- The gate of MEAS_SEQUENCE_CONFIG (`execMeasSequenceConfig`) for the sequence `k`. -/
def sequenceGate (k : MSeqCfg) (c : Cmd) (s : State) : Gate :=
  stagingGate 0x0902 36 5 busyStates (unitFit s (c.u8 0))
    (c.u8 0 < 4 && k.rlen ≤ 16 && k.ilen ≤ 4 && itrigOk k.itrig k.itidx && k.lead ≤ 2000 && slotsFit k.rslots k.rlen &&
      slotsFit k.islots k.ilen && c.rsv 5 1 && c.rsv 31 1 &&
      (if c.u8 0 % 2 == 0 then (k.xsel < 24 || k.xsel == 255) && 1 ≤ k.xn && c.u8 30 < 2 && 0 ≤ k.xtol else c.rsv 28 8)) c s

section
variable (h : SequenceAdmitted c s)
include h

theorem SequenceAdmitted.passes : (sequenceGate (sequenceParams c) c s).Passes c s := by
  refine h.staging.passes (serving_of_mem h.staging.admits.2.1 (by decide) (by decide)) rfl h.fitted ?_
  obtain ⟨-, -, hreg, hinj, htrig, hlead, hrslots, hislots, hrsv, hpad, hunit, hcross⟩ := h
  unfold crossParamsOk at hcross
  unfold sequenceParams
  split at hcross
  next hfirst =>
    simp only [if_pos hfirst, sequenceRead, hreg, hinj, htrig, hlead, hrslots, hislots, hrsv, hpad, hunit, decide_true, Bool.true_and]
    exact hcross
  next hsecond =>
    simp only [if_neg hsecond, sequenceRead, hreg, hinj, htrig, hlead, hrslots, hislots, hrsv, hpad, hunit, decide_true, Bool.true_and]
    exact hcross

theorem SequenceAdmitted.exec_stages {k : MSeqCfg} (hk : sequenceParams c = k) : execMeasSequenceConfig c s =
    .next (answer 0x0902 c .ok (le 2 (k.rlen * 200) ++ le 2 (275 + 200 * k.ilen)) (sequenceStaged c k s)) := by
  subst hk
  unfold execMeasSequenceConfig
  exact h.passes.answers h.staging.gate_free rfl rfl

end

/-! ### MEAS_FILTER_CONFIG (R346) -/

/-- The shadow of the channel with the fields of MEAS_FILTER_CONFIG. -/
def filterRead (c : Cmd) (s : State) : MChanCfg :=
  { mChanShadow s (c.u8 0) with l1 := c.u8 1, l2 := c.u8 2, l3 := c.u8 3, c := c.u8 4, reload := c.u8 5 == 1, step := c.s32 8 }

/-- A filter stage has 1 to 64 terms. -/
def StageLength (n : Nat) : Prop := 1 ≤ n ∧ n ≤ 64

/-- MEAS_FILTER_CONFIG names a channel, with a filter in range, on a fitted MPR. -/
structure FilterAdmitted (c : Cmd) (s : State) : Prop where
  admits : Admits c s aieStates [.active, .standby]
  params : Inline c 12
  fitted : mprOk s = true
  number : c.u8 0 < 64
  first : StageLength (c.u8 1)
  second : StageLength (c.u8 2)
  third : StageLength (c.u8 3)
  coarse : c.u8 4 = 1 ∨ c.u8 4 = 2 ∨ c.u8 4 = 4
  reload : c.u8 5 < 2
  reserved : c.rsv 6 2 = true
  step : 0 ≤ c.s32 8

/-- The gate of MEAS_FILTER_CONFIG (`execMeasFilterConfig`). -/
def filterGate (c : Cmd) (s : State) : Gate :=
  stagingGate 0x0903 12 5 busyStates (mprOk s)
    (c.u8 0 < 64 && (1 ≤ c.u8 1 && c.u8 1 ≤ 64) && (1 ≤ c.u8 2 && c.u8 2 ≤ 64) && (1 ≤ c.u8 3 && c.u8 3 ≤ 64) &&
      (c.u8 4 == 1 || c.u8 4 == 2 || c.u8 4 == 4) && c.u8 5 < 2 && c.rsv 6 2 && 0 ≤ c.s32 8) c s

section
variable (h : FilterAdmitted c s)
include h

theorem FilterAdmitted.passes : (filterGate c s).Passes c s := by
  refine Gate.OpenIn.passes ⟨rfl, rfl, rfl, rfl, rfl⟩ h.admits (.of_inline h.params rfl) h.fitted ?_
  obtain ⟨-, -, -, hnumber, ⟨hlow1, hhigh1⟩, ⟨hlow2, hhigh2⟩, ⟨hlow3, hhigh3⟩, hcoarse, hreload, hrsv, hstep⟩ := h
  simpa [filterGate, stagingGate, hnumber, hlow1, hhigh1, hlow2, hhigh2, hlow3, hhigh3, hreload, hrsv, hstep, or_assoc] using hcoarse

theorem FilterAdmitted.exec_stages (hfree : setHeld s 5 = false) : execMeasFilterConfig c s =
    .next (answer 0x0903 c .ok (le 2 (c.u8 1 + c.u8 2 + c.u8 3 - 3) ++ le 2 (c.u8 1 + c.u8 2 + c.u8 3 - 3 + 1))
      (measChannelStaged c (filterRead c s) s)) := by
  unfold execMeasFilterConfig
  exact h.passes.answers (by simp [filterGate, stagingGate, hfree]) rfl rfl

theorem FilterAdmitted.exec_busy (hheld : setHeld s 5 = true) : execMeasFilterConfig c s = .next (answer 0x0903 c .busy [] s) := by
  unfold execMeasFilterConfig
  exact h.passes.busy (by simp [filterGate, stagingGate, hheld])

end

/-! ### MEAS_REF_SELECT (R351, R368) -/

/-- The voltage of an external reference; the others have none. -/
def RefVoltage (c : Cmd) : Prop := (c.u8 0 = 1 ∧ 2000000 ≤ c.u32 4 ∧ c.u32 4 ≤ 3000000) ∨ (c.u8 0 ≠ 1 ∧ c.u32 4 = 0)

/-- MEAS_REF_SELECT names a reference, with parameters in range, in a state and role of Table 13.9, on a fitted MPR. -/
structure RefSelectAdmitted (c : Cmd) (s : State) : Prop where
  admits : Admits c s [.config, .standby, .blockedFault, .factoryTest] [.active, .standby]
  params : Inline c 12
  fitted : mprOk s = true
  reference : c.u8 0 < 3
  voltage : RefVoltage c
  reserved : c.rsv 1 3 = true
  calibration : c.u16 8 ≤ 3600
  diagnosis : c.u16 10 ≤ 60000

/-- No command holds the reference or a unit. -/
structure RefSelectFree (s : State) : Prop where
  reference : held s .reference = false
  units : (List.range 5).any (fun n => held s (.measUnit n)) = false

/-- The gate of MEAS_REF_SELECT (`execMeasRefSelect`). -/
def refSelectGate (c : Cmd) (s : State) : Gate := {
  opcode := 0x0904, len := c.inl 12, fitted := mprOk s, legal := inStates [.config, .standby, .blockedFault], roles := actStby,
  pends := c.u8 0 != s.meas.refsel, free := !held s .reference && !(List.range 5).any (fun u => held s (.measUnit u)),
  par := c.u8 0 < 3 && c.rsv 1 3 && (if c.u8 0 = 1 then 2000000 ≤ c.u32 4 && c.u32 4 ≤ 3000000 else c.u32 4 == 0) &&
    c.u16 8 ≤ 3600 && c.u16 10 ≤ 60000 }

/-- The periods of calibration and diagnosis are those of the command. -/
def periodsSet (c : Cmd) (s : State) : State := s.onMeas (fun m => { m with calPer := c.u16 8, diagPer := c.u16 10 })

/-- The reference named is selected, and not yet settled. -/
def referenceSelected (c : Cmd) (s : State) : State :=
  s.onMeas (fun m => { m with refsel := c.u8 0, vext := c.u32 4, settled := false, inCnt := 0, outCnt := 0 })

/-- MEAS_REF_SELECT is PENDING on the reference and the units, and counts as having taken effect. -/
def refSelectPending (c : Cmd) (s : State) : State :=
  tookPending (fun p => p.opcode == 0x0904 && p.mb == c.mb.val && p.seq == c.seq.toNat)
    (pendAs 0x0904 c (.reference :: (List.range 5).map .measUnit) [.config, .standby, .blockedFault, .factoryTest] 0 none s)

theorem RefSelectFree.gate_free (h : RefSelectFree s) : (refSelectGate c s).free = true := by
  simp only [refSelectGate, h.reference, h.units, Bool.not_false, Bool.and_self]

section
variable (h : RefSelectAdmitted c s)
include h

theorem RefSelectAdmitted.passes : (refSelectGate c s).Passes c s := by
  refine Gate.OpenIn.passes ⟨rfl, rfl, rfl, rfl, rfl⟩ h.admits (.of_inline h.params rfl) h.fitted ?_
  have hvoltage : (if c.u8 0 = 1 then (2000000 ≤ c.u32 4 && c.u32 4 ≤ 3000000 : Bool) else c.u32 4 == 0) = true := by
    rcases h.voltage with ⟨hext, hlow, hhigh⟩ | ⟨hother, hzero⟩
    · rw [if_pos hext, decide_eq_true hlow, decide_eq_true hhigh, Bool.and_self]
    · rw [if_neg hother, hzero, beq_self_eq_true]
  simp only [refSelectGate, h.reference, h.reserved, hvoltage, h.calibration, h.diagnosis, decide_true, Bool.and_self]

theorem RefSelectAdmitted.exec_busy (hheld : held s .reference = true) :
    execMeasRefSelect c s = .next (answer 0x0904 c .busy [] s) := by
  unfold execMeasRefSelect
  exact h.passes.busy (by simp [refSelectGate, hheld])

variable (hfree : RefSelectFree s)
include hfree

theorem RefSelectAdmitted.exec_same (hsame : c.u8 0 = s.meas.refsel) :
    execMeasRefSelect c s = .next (answer 0x0904 c .ok (le 1 (refByte s) ++ le 1 0) (periodsSet c s)) := by
  unfold execMeasRefSelect
  exact h.passes.answers hfree.gate_free (by simp [refSelectGate, hsame]) (if_pos hsame)

/-- A settled reference falls first (assumption 37). -/
theorem RefSelectAdmitted.exec_other (hother : c.u8 0 ≠ s.meas.refsel) (hpend : pendCount s c.mb < 8) {u : State}
    (hu : when s.meas.settled refFall (periodsSet c s) = u) :
    execMeasRefSelect c s = .next (answer 0x0904 c .pending [] (refSelectPending c (referenceSelected c u))) := by
  subst hu
  unfold execMeasRefSelect
  exact h.passes.answers hfree.gate_free (by simp [hpend]) (if_neg hother)

end

/-! ### MEAS_CALIBRATE (R352, R357) -/

/-- The units that the mask of the command names. -/
def namedUnits (c : Cmd) : List Nat := (List.range 5).filter (bit (c.u8 0))

/-- The unit is there; the spare, number 4, where it neither serves nor has failed. -/
def unitThere (s : State) (n : Nat) : Bool := if n = 4 then s.meas.spareFor.isNone && !s.meas.spareBad else unitIn s n

/-- The states that serve mailbox commands. -/
abbrev servingStates : List DevState := [.config, .standby, .deblocked, .safeStop, .blockedFault, .replay, .factoryTest]

/-- MEAS_CALIBRATE names units that are there, in a state and role of Table 13.9. -/
structure CalibrateAdmitted (c : Cmd) (s : State) : Prop where
  admits : Admits c s servingStates [.active, .standby]
  params : Inline c 4
  fitted : mprOk s = true
  there : (namedUnits c).all (unitThere s) = true
  least : 0 < c.u8 0
  most : c.u8 0 < 32
  mode : c.u8 1 < 2
  reserved : c.rsv 2 2 = true

/-- The gate of MEAS_CALIBRATE (`execMeasCalibrate`). -/
def calibrateGate (c : Cmd) (s : State) : Gate := {
  opcode := 0x0905, len := c.inl 4, fitted := mprOk s && (namedUnits c).all (unitThere s), legal := notBoot, roles := actStby,
  free := (namedUnits c).all (fun u => !held s (.measUnit u)), par := 0 < c.u8 0 && c.u8 0 < 32 && c.u8 1 < 2 && c.rsv 2 2 }

/-- Every unit named is asked to calibrate, and a job keeps what the command will be told. -/
def calibrationAsked (c : Cmd) (s : State) : State :=
  (namedUnits c).foldl (fun t n => calAsk n (c.u8 1 == 1) t)
    (s.onMeas (fun x => { x with jobs := x.jobs ++ [⟨c.u8 0, c.u8 1 == 1, namedUnits c, 0, 0, []⟩] }))

section
variable (h : CalibrateAdmitted c s)
include h

theorem CalibrateAdmitted.passes : (calibrateGate c s).Passes c s :=
  Gate.OpenIn.passes ⟨rfl, rfl, rfl, rfl, rfl⟩ h.admits (.of_inline h.params rfl)
    (by simp only [calibrateGate, h.fitted, h.there, Bool.and_self])
    (by simp [calibrateGate, h.least, h.most, h.mode, h.reserved])

theorem CalibrateAdmitted.exec_busy (hheld : (namedUnits c).all (fun n => !held s (.measUnit n)) = false) :
    execMeasCalibrate c s = .next (answer 0x0905 c .busy [] s) := by
  unfold execMeasCalibrate
  exact h.passes.busy (by simp only [calibrateGate, hheld, Bool.not_false, Bool.true_or])

variable (hfree : (namedUnits c).all (fun n => !held s (.measUnit n)) = true)
include hfree

theorem CalibrateAdmitted.exec_conflict (hsettled : s.meas.settled = false) :
    execMeasCalibrate c s = .next (answer 0x0905 c .conflict [] s) := by
  unfold execMeasCalibrate
  exact h.passes.answers hfree rfl (if_pos (by simp [hsettled]))

/-- Its first answer follows with the first result (assumption 19). -/
theorem CalibrateAdmitted.exec_asks (hsettled : s.meas.settled = true) :
    execMeasCalibrate c s = .next (awaitFirst 0x0905 c (pendAs 0x0905 c ((namedUnits c).map .measUnit) servingStates (c.u8 0) none
      (calibrationAsked c s))) := by
  unfold execMeasCalibrate
  exact h.passes.runs (later := true) hfree rfl (if_neg (by simp [hsettled]))

end

/-! ### MEAS_DIAG_RUN (R357, R358, R361) -/

/-- The object of a level test is a unit that is there, that of a path test a channel; one that is measured has its unit there. -/
structure DiagObject (c : Cmd) (s : State) : Prop where
  kind : c.u8 0 < 2
  level : c.u8 0 = 0 → c.u8 1 < 5 ∧ unitThere s (c.u8 1) = true
  path : c.u8 0 = 1 → c.u8 1 < 64 ∧ ((mChan s (c.u8 1)).on = false ∨ unitIn s (mChan s (c.u8 1)).unit = true)

/-- MEAS_DIAG_RUN names its object, in a state and role of Table 13.9, on a fitted MPR. -/
structure DiagAdmitted (c : Cmd) (s : State) : Prop where
  admits : Admits c s servingStates [.active, .standby]
  params : Inline c 4
  fitted : mprOk s = true
  reserved : c.rsv 2 2 = true
  object : DiagObject c s

/-- The gate of MEAS_DIAG_RUN (`execMeasDiagRun`). -/
def diagGate (c : Cmd) (s : State) : Gate := {
  opcode := 0x0906, len := c.inl 4, legal := notBoot, roles := actStby, pends := !s.meas.tests.isEmpty, free := !held s .dac,
  fitted := mprOk s && (if c.u8 0 = 0 then 5 ≤ c.u8 1 || unitThere s (c.u8 1)
    else 64 ≤ c.u8 1 || !(mChan s (c.u8 1)).on || unitIn s (mChan s (c.u8 1)).unit),
  par := c.u8 0 < 2 && (if c.u8 0 = 0 then c.u8 1 < 5 else c.u8 1 < 64) && c.rsv 2 2 }

/-- A path test of a channel that is not measured, or not in the regular sequence of its unit. -/
def PathRefused (c : Cmd) (s : State) : Prop :=
  c.u8 0 = 1 ∧ (!(mChan s (c.u8 1)).on ∨ 12 ≤ (mChan s (c.u8 1)).pos ∨
    !((mSeq s (mChan s (c.u8 1)).unit).rslots.take (mSeq s (mChan s (c.u8 1)).unit).rlen).contains (c.u8 1))

/-- The test waits, and MEAS_DIAG_RUN is PENDING on the DAC. -/
def diagPending (arg : Nat) (c : Cmd) (s : State) : State :=
  pendAs 0x0906 c [.dac] servingStates arg none (testAdd ⟨c.u8 0 == 1, c.u8 1, none⟩ s)

section
variable (h : DiagAdmitted c s)
include h

theorem DiagAdmitted.passes : (diagGate c s).Passes c s := by
  obtain ⟨hadmits, hinline, hmpr, hrsv, hkind, hlevel, hpath⟩ := h
  have hcode : c.u8 0 = 0 ∨ c.u8 0 = 1 := by omega
  refine Gate.OpenIn.passes ⟨rfl, rfl, rfl, rfl, rfl⟩ hadmits (.of_inline hinline rfl) ?fitted ?par
  case fitted =>
    rcases hcode with hcode | hcode
    · simp [diagGate, hmpr, hcode, (hlevel hcode).2]
    · rcases (hpath hcode).2 with hoff | hin
      · simp [diagGate, hmpr, hcode, hoff]
      · simp [diagGate, hmpr, hcode, hin]
  case par =>
    rcases hcode with hcode | hcode
    · simp [diagGate, hcode, (hlevel hcode).1, hrsv]
    · simp [diagGate, hcode, (hpath hcode).1, hrsv]

theorem DiagAdmitted.exec_busy (hheld : held s .dac = true) : execMeasDiagRun c s = .next (answer 0x0906 c .busy [] s) := by
  unfold execMeasDiagRun
  exact h.passes.busy (by simp [diagGate, hheld])

variable (hfree : held s .dac = false)
include hfree

theorem DiagAdmitted.exec_conflict (htests : s.meas.tests = []) (hno : PathRefused c s) :
    execMeasDiagRun c s = .next (answer 0x0906 c .conflict [] s) := by
  unfold execMeasDiagRun
  exact h.passes.answers (by simp [diagGate, hfree]) (by simp [diagGate, htests]) (if_pos hno)

section
variable {arg : Nat} (harg : c.u8 0 * 256 + c.u8 1 = arg) (hmay : ¬PathRefused c s)
include harg hmay

/-- A test that starts at once gives the command its one response (assumption 19). -/
theorem DiagAdmitted.exec_starts (htests : s.meas.tests = []) :
    execMeasDiagRun c s = .next (awaitFirst 0x0906 c (diagPending arg c s)) := by
  subst harg
  unfold execMeasDiagRun
  refine (h.passes.runs (by simp [diagGate, hfree]) (by simp [diagGate, htests]) (if_neg hmay)).trans (if_pos ?_)
  simp [htests]

/-- A test behind another waits for its turn. -/
theorem DiagAdmitted.exec_waits (htests : s.meas.tests ≠ []) (hpend : pendCount s c.mb < 8) :
    execMeasDiagRun c s = .next (answer 0x0906 c .pending [] (diagPending arg c s)) := by
  subst harg
  unfold execMeasDiagRun
  refine (h.passes.runs (by simp [diagGate, hfree]) (by simp [hpend]) (if_neg hmay)).trans (if_neg ?_)
  simp [htests]

end

end

/-! ### MEAS_STATUS -/

/-- The units that are there, and what the spare does. -/
def unitsByte (s : State) : Nat :=
  maskOf ((List.range 4).filter (unitIn s)) + 16 * b2n (spareIdle s) + 32 * b2n s.meas.spareFor.isSome + 64 * b2n s.meas.spareBad

/-- The two cross-checks: active, mismatched, unresolved. -/
def crossByte (s : State) : Nat :=
  b2n (crossPair s 0).isSome + 2 * b2n (crossPair s 1).isSome + 4 * b2n (mPair s 0).mis + 8 * b2n (mPair s 1).mis +
    16 * b2n (mPair s 0).unres + 32 * b2n (mPair s 1).unres

/-- What MEAS_STATUS answers. -/
def measStatusResult (s : State) : Bytes :=
  le 1 (refByte s) ++ le 1 (unitsByte s) ++ le 1 (s.meas.spareFor.getD 0xFF) ++ le 1 (crossByte s) ++
    le 1 (maskOf ((List.range 4).filter (fun n => (unitGet s n).overrun))) ++
    le 1 (maskOf ((List.range 4).filter (fun n => (unitGet s n).lateS))) ++ le 2 0 ++
    le 8 (maskOf ((List.range 64).filter (fun n => ((tget {} s.meas.set n : MSetChan).flags).getLsbD 0))) ++ le 4 s.meas.cals ++
    le 4 s.meas.fails ++ le 4 s.meas.setTick

/-- The stickies of the units are cleared. -/
def stickiesCleared (s : State) : State :=
  (List.range 4).foldl (fun t n => unitUpd n (fun y => { y with overrun := false, lateS := false }) t) s

section
variable (hserving : Serving s) (hmb : c.mb ≠ 0)
include hserving hmb

theorem execMeasStatus_ok (hinline : Inline c 12) (hmpr : mprOk s = true) (hmode : c.u8 0 < 2) (hrsv : c.rsv 1 3 = true)
    (haligned : c.u64 4 % 64 = 0) {t : State}
    (ht : (if c.u8 0 = 1 then stickiesCleared (bufferFilled c ((List.range 64).flatMap (chanEntry s)) s)
      else bufferFilled c ((List.range 64).flatMap (chanEntry s)) s) = t) :
    execMeasStatus c s = .next (answer 0x0907 c .ok (measStatusResult s) t) := by
  subst ht
  unfold execMeasStatus
  exact (readGate_passes_inline hserving (.inr hmb) hinline hmpr (by simp [hmode, hrsv, haligned])).answers rfl rfl rfl

/-! ### Without an MPR -/

section
variable (hmpr : mprOk s = false)
include hmpr

theorem execMeasChannelConfig_not_fitted (hinline : Inline c 16) :
    execMeasChannelConfig c s = .next (answer 0x0901 c .notFitted [] s) := by
  unfold execMeasChannelConfig
  exact runCmd_inline_not_fitted hserving hmb rfl rfl rfl hinline (unitFit_of_absent hmpr)

theorem execMeasSequenceConfig_not_fitted (hinline : Inline c 36) :
    execMeasSequenceConfig c s = .next (answer 0x0902 c .notFitted [] s) := by
  unfold execMeasSequenceConfig
  exact runCmd_inline_not_fitted hserving hmb rfl rfl rfl hinline (unitFit_of_absent hmpr)

theorem execMeasFilterConfig_not_fitted (hinline : Inline c 12) : execMeasFilterConfig c s = .next (answer 0x0903 c .notFitted [] s) := by
  unfold execMeasFilterConfig
  exact runCmd_inline_not_fitted hserving hmb rfl rfl rfl hinline hmpr

theorem execMeasRefSelect_not_fitted (hinline : Inline c 12) : execMeasRefSelect c s = .next (answer 0x0904 c .notFitted [] s) := by
  unfold execMeasRefSelect
  exact runCmd_inline_not_fitted hserving hmb rfl rfl rfl hinline hmpr

theorem execMeasCalibrate_not_fitted (hinline : Inline c 4) : execMeasCalibrate c s = .next (answer 0x0905 c .notFitted [] s) := by
  unfold execMeasCalibrate
  exact runCmd_inline_not_fitted hserving hmb rfl rfl rfl hinline (by simp [hmpr])

theorem execMeasDiagRun_not_fitted (hinline : Inline c 4) : execMeasDiagRun c s = .next (answer 0x0906 c .notFitted [] s) := by
  unfold execMeasDiagRun
  exact runCmd_inline_not_fitted hserving hmb rfl rfl rfl hinline (by simp [hmpr])

theorem execMeasStatus_not_fitted (hinline : Inline c 12) : execMeasStatus c s = .next (answer 0x0907 c .notFitted [] s) := by
  unfold execMeasStatus
  exact runCmd_inline_not_fitted hserving hmb rfl rfl rfl hinline hmpr

end

end

/-! ### The obligation -/

/-- Settles O36: each command's gate passes under the conditions of its clause, or fails at what is not fitted or held, and its action takes
the branch that they name. -/
theorem measurementCommandsStageAndCalibrate : Obligations.MeasurementCommandsStageAndCalibrate := by
  refine ⟨?channel, ?channelBusy, ?firstUnit, ?secondUnit, ?filter, ?filterBusy, ?refFalls, ?refUnsettled, ?refSame, ?refBusy, ?calibrates,
    ?calConflict, ?calBusy, ?levelWaits, ?level, ?path, ?pathWaits, ?pathConflict, ?diagBusy, ?status, ?statusClears, ?noChannel,
    ?noSequence, ?noFilter, ?noRef, ?noCalibrate, ?noDiag, ?noStatus⟩
  case channel =>
    intro c s v k hk hv hadmits hinline hfit hnumber hswitch hunit hpos hwindow hfree
    exact MeasChannelAdmitted.exec_stages ⟨hadmits, hinline, hfit, hnumber, hswitch, hunit, hpos, hwindow⟩ hfree hk.symm hv.symm
  case channelBusy =>
    intro c s hadmits hinline hfit hnumber hswitch hunit hpos hwindow hheld
    exact MeasChannelAdmitted.exec_busy ⟨hadmits, hinline, hfit, hnumber, hswitch, hunit, hpos, hwindow⟩ hheld
  case firstUnit =>
    intro c s k hk hadmits hinline hfit hreg hinj htrig hlead hrslots hislots hrsv hpad hunit hsel hn hinv htol hfree
    have hfirst : (c.u8 0 % 2 == 0) = true := by rcases hunit with h | h <;> simp [h]
    have hcross : crossParamsOk c = true := by
      simp only [crossParamsOk, if_pos hfirst, hn, hinv, htol, decide_true, Bool.and_true]
      simpa using hsel
    exact SequenceAdmitted.exec_stages ⟨⟨hadmits, hinline, hfree⟩, hfit, hreg, hinj, htrig, hlead, hrslots, hislots, hrsv, hpad, by omega,
      hcross⟩ ((if_pos hfirst).trans hk.symm)
  case secondUnit =>
    intro c s k hk hadmits hinline hfit hreg hinj htrig hlead hrslots hislots hrsv hpad hunit hnone hfree
    have hsecond : ¬(c.u8 0 % 2 == 0) = true := by rcases hunit with h | h <;> simp [h]
    exact SequenceAdmitted.exec_stages ⟨⟨hadmits, hinline, hfree⟩, hfit, hreg, hinj, htrig, hlead, hrslots, hislots, hrsv, hpad, by omega,
      (if_neg hsecond).trans hnone⟩ ((if_neg hsecond).trans hk.symm)
  case filter =>
    intro c s k hk hadmits hinline hmpr hnumber hlow1 hhigh1 hlow2 hhigh2 hlow3 hhigh3 hcoarse hreload hrsv hstep hfree
    obtain rfl : k = filterRead c s := hk
    exact FilterAdmitted.exec_stages ⟨hadmits, hinline, hmpr, hnumber, ⟨hlow1, hhigh1⟩, ⟨hlow2, hhigh2⟩, ⟨hlow3, hhigh3⟩, hcoarse, hreload,
      hrsv, hstep⟩ hfree
  case filterBusy =>
    intro c s hadmits hinline hmpr hnumber hlow1 hhigh1 hlow2 hhigh2 hlow3 hhigh3 hcoarse hreload hrsv hstep hheld
    exact FilterAdmitted.exec_busy ⟨hadmits, hinline, hmpr, hnumber, ⟨hlow1, hhigh1⟩, ⟨hlow2, hhigh2⟩, ⟨hlow3, hhigh3⟩, hcoarse, hreload,
      hrsv, hstep⟩ hheld
  case refFalls =>
    intro c s hadmits hinline hmpr href hvoltage hrsv hcal hdiag hreference hunits hother hsettled hpend
    exact RefSelectAdmitted.exec_other ⟨hadmits, hinline, hmpr, href, hvoltage, hrsv, hcal, hdiag⟩ ⟨hreference, hunits⟩ hother hpend
      (when_of_true hsettled)
  case refUnsettled =>
    intro c s hadmits hinline hmpr href hvoltage hrsv hcal hdiag hreference hunits hother hsettled hpend
    exact RefSelectAdmitted.exec_other ⟨hadmits, hinline, hmpr, href, hvoltage, hrsv, hcal, hdiag⟩ ⟨hreference, hunits⟩ hother hpend
      (when_of_false hsettled)
  case refSame =>
    intro c s hadmits hinline hmpr href hvoltage hrsv hcal hdiag hreference hunits hsame
    exact RefSelectAdmitted.exec_same ⟨hadmits, hinline, hmpr, href, hvoltage, hrsv, hcal, hdiag⟩ ⟨hreference, hunits⟩ hsame
  case refBusy =>
    intro c s hadmits hinline hmpr href hvoltage hrsv hcal hdiag hheld
    exact RefSelectAdmitted.exec_busy ⟨hadmits, hinline, hmpr, href, hvoltage, hrsv, hcal, hdiag⟩ hheld
  case calibrates =>
    intro c s hadmits hinline hmpr hthere hleast hmost hmode hrsv hfree _ hsettled
    exact CalibrateAdmitted.exec_asks ⟨hadmits, hinline, hmpr, hthere, hleast, hmost, hmode, hrsv⟩ hfree hsettled
  case calConflict =>
    intro c s hadmits hinline hmpr hthere hleast hmost hmode hrsv hfree _ hsettled
    exact CalibrateAdmitted.exec_conflict ⟨hadmits, hinline, hmpr, hthere, hleast, hmost, hmode, hrsv⟩ hfree hsettled
  case calBusy =>
    intro c s hadmits hinline hmpr hthere hleast hmost hmode hrsv hheld
    exact CalibrateAdmitted.exec_busy ⟨hadmits, hinline, hmpr, hthere, hleast, hmost, hmode, hrsv⟩ hheld
  case levelWaits =>
    intro c s hadmits hinline hmpr hrsv hkind hobj hthere hfree hpend htests
    have h : DiagAdmitted c s := ⟨hadmits, hinline, hmpr, hrsv, by omega, fun _ => ⟨hobj, hthere⟩, fun hpath => by omega⟩
    have hpending := h.exec_waits hfree rfl (fun hno => absurd hno.1 (by omega)) htests hpend
    rwa [diagPending, hkind, Nat.zero_mul, Nat.zero_add] at hpending
  case level =>
    intro c s hadmits hinline hmpr hrsv hkind hobj hthere hfree htests
    have h : DiagAdmitted c s := ⟨hadmits, hinline, hmpr, hrsv, by omega, fun _ => ⟨hobj, hthere⟩, fun hpath => by omega⟩
    have hstarts := h.exec_starts hfree rfl (fun hno => absurd hno.1 (by omega)) htests
    rwa [diagPending, hkind, Nat.zero_mul, Nat.zero_add] at hstarts
  case path =>
    intro c s hadmits hinline hmpr hrsv hkind hobj hon hunit hfree htests hpos hslot
    have h : DiagAdmitted c s := ⟨hadmits, hinline, hmpr, hrsv, by omega, fun hlevel => by omega, fun _ => ⟨hobj, .inr hunit⟩⟩
    have hmay : ¬PathRefused c s := by
      rintro ⟨-, hno | hno | hno⟩
      · simp [hon] at hno
      · exact absurd hpos (Nat.not_lt.mpr hno)
      · simp only [hslot, Bool.not_true, Bool.false_eq_true] at hno
    have hstarts := h.exec_starts hfree rfl hmay htests
    rwa [diagPending, hkind] at hstarts
  case pathWaits =>
    intro c s hadmits hinline hmpr hrsv hkind hobj hon hunit hfree hpend htests hpos hslot
    have h : DiagAdmitted c s := ⟨hadmits, hinline, hmpr, hrsv, by omega, fun hlevel => by omega, fun _ => ⟨hobj, .inr hunit⟩⟩
    have hmay : ¬PathRefused c s := by
      rintro ⟨-, hno | hno | hno⟩
      · simp [hon] at hno
      · exact absurd hpos (Nat.not_lt.mpr hno)
      · simp only [hslot, Bool.not_true, Bool.false_eq_true] at hno
    have hpending := h.exec_waits hfree rfl hmay htests hpend
    rwa [diagPending, hkind] at hpending
  case pathConflict =>
    intro c s hadmits hinline hmpr hrsv hkind hobj hno hfree htests
    have h : DiagAdmitted c s :=
      ⟨hadmits, hinline, hmpr, hrsv, by omega, fun hlevel => by omega, fun _ => ⟨hobj, hno.imp_right And.left⟩⟩
    refine h.exec_conflict hfree htests ⟨hkind, ?_⟩
    rcases hno with hoff | ⟨-, hpos | hslot⟩
    · exact .inl (by simp [hoff])
    · exact .inr (.inl hpos)
    · exact .inr (.inr (by rw [hslot]; rfl))
  case diagBusy =>
    intro c s hadmits hinline hmpr hrsv hkind hobj hthere hheld
    exact DiagAdmitted.exec_busy ⟨hadmits, hinline, hmpr, hrsv, by omega, fun _ => ⟨hobj, hthere⟩, fun hpath => by omega⟩ hheld
  case status =>
    intro c s hserving hinline hmb hmpr hmode hrsv hzero haligned
    exact execMeasStatus_ok hserving hmb hinline hmpr hmode hrsv haligned (if_neg (by omega))
  case statusClears =>
    intro c s hserving hinline hmb hmpr hmode hrsv hone haligned
    exact execMeasStatus_ok hserving hmb hinline hmpr hmode hrsv haligned (if_pos hone)
  case noChannel => exact fun c s hserving hmb hinline hmpr => execMeasChannelConfig_not_fitted hserving hmb hmpr hinline
  case noSequence => exact fun c s hserving hmb hinline hmpr => execMeasSequenceConfig_not_fitted hserving hmb hmpr hinline
  case noFilter => exact fun c s hserving hmb hinline hmpr => execMeasFilterConfig_not_fitted hserving hmb hmpr hinline
  case noRef => exact fun c s hserving hmb hinline hmpr => execMeasRefSelect_not_fitted hserving hmb hmpr hinline
  case noCalibrate => exact fun c s hserving hmb hinline hmpr => execMeasCalibrate_not_fitted hserving hmb hmpr hinline
  case noDiag => exact fun c s hserving hmb hinline hmpr => execMeasDiagRun_not_fitted hserving hmb hmpr hinline
  case noStatus => exact fun c s hserving hmb hinline hmpr => execMeasStatus_not_fitted hserving hmb hmpr hinline

end Sys2Proof.Machine

/-! PROOFS. The events of the measurement units: conversions, triggers, the set latch, the reference monitor, calibrations and tests (R341 to
R368, O37). -/

namespace Sys2Proof.Machine

open Sys2Proof

variable {s v : State} {n u : Nat}

/-! ### Conversions and triggers -/

/-- A unit that converts: it is there, and no calibration suspends it. -/
structure Converting (s : State) (n : Nat) : Prop where
  mpr : mprOk s = true
  there : unitIn s n = true
  active : (unitGet s n).cal ≠ some false

theorem Converting.exec_adc (h : Converting s n) (x : Int) (a : Nat) : execAdcConversionComplete n x a s =
    .next (nextConv n (convResult n x a (if (cdcGet s 3 5 n).stalled then s else triggersCross n s))) :=
  if_neg (by simp [h.mpr, h.there, h.active])

theorem execAdcConversionComplete_idle (x : Int) (a : Nat)
    (h : mprOk s = false ∨ unitIn s n = false ∨ (unitGet s n).cal = some false) : execAdcConversionComplete n x a s = .next s :=
  if_pos (by simpa using h)

/-- The injected triggers of the unit are in use. -/
structure TriggerUsed (s : State) (n : Nat) : Prop where
  mpr : mprOk s = true
  there : unitIn s n = true
  used : (mSeq s n).itrig ≠ 0

/-- A trigger occurs at the crossing of its unit and is captured there. -/
def triggerOccurs (n : Nat) (s : State) : State := cdcUpd 3 5 n (fun x => (x.occur 1 []).capture) s

theorem execInjectedTrigger_unused (trig : InjTrigger)
    (h : mprOk s = false ∨ unitIn s trig.unit = false ∨ (mSeq s trig.unit).itrig = 0) : execInjectedTrigger trig s = .next s :=
  if_pos (by simpa using h)

section
variable {trig : InjTrigger} (h : TriggerUsed s trig.unit)
include h

theorem TriggerUsed.exec_waits (hbusy : trig.busy = true) (hopen : (cdcGet s 3 5 trig.unit).isOpen = true) :
    execInjectedTrigger trig s = .next (triggerOccurs trig.unit s) := by
  refine (if_neg (by simp [h.mpr, h.there, h.used])).trans ?_
  simp only [hbusy, if_true, hopen, Bool.not_true, Bool.false_eq_true, if_false]
  rfl

theorem TriggerUsed.exec_reaches (hbusy : trig.busy = true) (hopen : (cdcGet s 3 5 trig.unit).isOpen = false) :
    execInjectedTrigger trig s = .next (trigger trig.unit (triggerOccurs trig.unit s)) := by
  refine (if_neg (by simp [h.mpr, h.there, h.used])).trans ?_
  simp only [hbusy, if_true, hopen, Bool.not_false]
  rfl

theorem TriggerUsed.exec_crosses (hbusy : trig.busy = false) (hv : v = triggersCross trig.unit s)
    (hopen : (cdcGet v 3 5 trig.unit).isOpen = false) :
    execInjectedTrigger trig s = .next (trigger trig.unit (triggerOccurs trig.unit v)) := by
  subst hv
  refine (if_neg (by simp [h.mpr, h.there, h.used])).trans ?_
  simp only [hbusy, hopen, Bool.not_false, if_true, Bool.false_eq_true, if_false]
  rfl

end

theorem trigger_pends (hcal : (unitGet s u).cal ≠ some false) (hreq : (unitGet s u).calReq ≠ some false)
    (hfree : (unitGet s u).pending = false) : trigger u s = unitUpd u (fun y => { y with pending := true }) s := by
  simp [trigger, hcal, hreq, hfree]

theorem trigger_overruns (hcal : (unitGet s u).cal ≠ some false) (hreq : (unitGet s u).calReq ≠ some false)
    (hpend : (unitGet s u).pending = true) : trigger u s = noteOverrun u s := by
  simp [trigger, hcal, hreq, hpend]

theorem trigger_held (hcal : (unitGet s u).cal = some false ∨ (unitGet s u).calReq = some false) (hfree : (unitGet s u).heldT = false) :
    trigger u s = unitUpd u (fun y => { y with heldT := true }) s := by
  simp [trigger, hcal.symm, hfree]

theorem trigger_overruns_held (hcal : (unitGet s u).cal = some false ∨ (unitGet s u).calReq = some false)
    (hheld : (unitGet s u).heldT = true) : trigger u s = noteOverrun u s := by
  simp [trigger, hcal.symm, hheld]

/-! ### The set latch -/

/-- The channels that were sampled or stand in the set. -/
def latchedChans (s : State) : List Nat := (List.range 64).filter (fun n => thas s.meas.chan n || thas s.meas.set n)

/-- The set of the tick that opens next. -/
def latchedSet (a : Nat) (s : State) : List (Nat × MSetChan) := (latchedChans s).map (fun n => (n, latchChan a s n))

/-- The state with the set latched. -/
def setLatched (a : Nat) (s : State) : State :=
  s.onMeas (fun m => { m with
    set := latchedSet a s, setTick := s.tick.index + 1,
    chans := m.chans.map (fun e => (e.1, { e.2 with fresh := false, stepSet := false })) })

/-- What the active unit sends of the set to its partner. -/
def setMessage (a : Nat) (s : State) : XlMsg :=
  .mset (s.tick.index + 1)
    ((latchedSet a s).map (fun e => { ch := e.1, fine := e.2.fine, coarse := e.2.coarse, flags := e.2.flags, age := e.2.age }))

theorem execMeasurementSetLatch_latches (a : Nat) (hmpr : mprOk s = true) (hv : v = crossCheck 1 (crossCheck 0 s)) :
    execMeasurementSetLatch a s = .next (when (workRole s == .active) (xlSend (setMessage a v)) (setLatched a v)) := by
  subst hv
  refine (if_neg (by simp [hmpr])).trans ?_
  rfl

/-! ### The reference monitor -/

/-- The counters of the monitor after a check. -/
def monitorCounted (a b : Bool) (s : State) : State :=
  s.onMeas (fun m => { m with inCnt := if a then s.meas.inCnt + 1 else 0, outCnt := if b then 0 else s.meas.outCnt + 1 })

/-- The reference is found settled, and the units are to be calibrated. -/
def referenceSettles (s : State) : State :=
  measEvent 0x01 .notice 0 [s.meas.refsel, 1] (s.onMeas (fun m => { m with settled := true, settleQ := calUnits s, settleM := 0 }))

section
variable (a b : Bool) (hmpr : mprOk s = true)
include hmpr

theorem execRefMonitorCheck_counts (hset : s.meas.settled = false) (hin : a = false ∨ s.meas.inCnt + 1 < 1000) :
    execRefMonitorCheck a b s = .next (monitorCounted a b s) := by
  refine (if_neg (by simp [hmpr])).trans ?_
  refine (if_neg (by simp [hset])).trans (if_pos ?_)
  rcases hin with rfl | hlt
  · simp
  · split <;> omega

theorem execRefMonitorCheck_settles (hset : s.meas.settled = false) (hin : 1000 ≤ s.meas.inCnt + 1) (hv : v = monitorCounted true b s) :
    execRefMonitorCheck true b s =
      .next (if (calUnits v).isEmpty then settleEnd ((calUnits v).foldl (fun t n => calStart n false t) (referenceSettles v))
        else (calUnits v).foldl (fun t n => calStart n false t) (referenceSettles v)) := by
  subst hv
  refine (if_neg (by simp [hmpr])).trans ?_
  exact (if_neg (by simp [hset])).trans (if_neg (Nat.not_lt.mpr hin))

theorem execRefMonitorCheck_falls (hset : s.meas.settled = true) (hout : 9 ≤ s.meas.outCnt) :
    execRefMonitorCheck a false s = .next (refFall (monitorCounted a false s)) := by
  refine (if_neg (by simp [hmpr])).trans ?_
  refine (if_pos hset).trans (if_pos ?_)
  simpa using hout

theorem execRefMonitorCheck_stays (hset : s.meas.settled = true) (hout : b = true ∨ s.meas.outCnt < 9) :
    execRefMonitorCheck a b s = .next (monitorCounted a b s) := by
  refine (if_neg (by simp [hmpr])).trans ?_
  refine (if_pos hset).trans (if_neg ?_)
  rcases hout with rfl | hlt
  · simp
  · split <;> omega

end

/-! ### Calibrations -/

/-- The calibration passes: within 64 codes of offset and 1 % of gain (R352). -/
def calPass (o g : Int) : Bool := o.natAbs ≤ 1024 && g.natAbs ≤ 10000

theorem calPass_of_within {o g : Int} (ho : o.natAbs ≤ 1024) (hg : g.natAbs ≤ 10000) : calPass o g = true := by
  simp [calPass, ho, hg]

theorem calPass_of_beyond {o g : Int} (h : 1024 < o.natAbs ∨ 10000 < g.natAbs) : calPass o g = false := by
  rcases h with h | h <;> simp [calPass, h]

/-- The counts of calibrations and of failures. -/
def calCounted : Bool → State → State
  | true, s => s.onMeas (fun m => { m with cals := inc32 m.cals })
  | false, s => s.onMeas (fun m => { m with cals := inc32 m.cals, fails := inc32 m.fails })

/-- The event of a calibration, and its counts. -/
def calLogged (phys : Nat) (pass covered : Bool) (o g : Int) (s : State) : State :=
  measEvent 0x03 .notice phys [b2n pass, word32 o, word32 g, b2n covered] (calCounted pass s)

/-- The unit leaves the calibrations asked for, with its corrections; `q` holds what settling still asks for. -/
def calNoted (u : Nat) (pass covered : Bool) (o g : Int) (q : List Nat) (s : State) : State :=
  s.onMeas (fun m => { m with
    jobs := m.jobs.map (fun j => if !(j.left.contains u && !q.contains u) then j else { j with
      left := j.left.filter (· != u), pass := if pass then j.pass ||| (1 <<< u) else j.pass,
      covered := if covered then j.covered ||| (1 <<< u) else j.covered, res := tset j.res u (o, g) }),
    settleM := if m.settleQ.contains u then m.settleM ||| (1 <<< u) else m.settleM })

/-- The commands that asked end, the next calibration starts, and a unit that failed is lost. -/
def calEnded (u : Nat) : Bool → State → State
  | true, s => testStart (calNext (settleLeave u (jobsEnd s)))
  | false, s => testStart (unitLost u 1 0 (calNext (settleLeave u (jobsEnd s))))

/-- A suspended unit goes on after a calibration that passed. -/
def calResumed (u : Nat) : Bool → State → State
  | true, s => convResume u s
  | false, s => s

/-- The unit leaves the calibration: `keeps` where it is the covered unit that takes its sequences back at its next conversion, and the
spare is free of it where it had not begun. -/
def calUnitFreed (u : Nat) (keeps frees : Bool) (s : State) : State :=
  (unitUpd u (fun z => if keeps then { z with calReq := some true } else { z with cal := none, calReq := none }) s).onMeas (fun m => { m with
    covers := if frees then none else m.covers })

section
variable {pass : Bool} {o g : Int}

/-- Nobody asked for a calibration of the unit. -/
def CalUnasked (s : State) (u : Nat) : Prop :=
  mprOk s = false ∨ (u = 4 ∧ s.meas.spareRun = false) ∨ (u ≠ 4 ∧ (unitGet s u).cal = none ∧ (unitGet s u).calReq = none) ∨
    (u ≠ 4 ∧ (unitGet s u).cal = some true ∧ (unitGet s u).calReq = some true)

theorem execCalibrationComplete_readmits (htest : testing s 4 3 u = true) :
    execCalibrationComplete u o g s = .next (readmitCal u o g s) := if_pos htest

variable (htest : testing s 4 3 u = false)
include htest

theorem execCalibrationComplete_unasked (h : CalUnasked s u) : execCalibrationComplete u o g s = .next s := by
  refine (if_neg (by simp [htest])).trans (if_pos ?_)
  rcases h with hmpr | ⟨rfl, hrun⟩ | ⟨hu, hcal, hreq⟩ | ⟨hu, hcal, hreq⟩
  · simp [hmpr]
  · simp [hrun]
  · simp [hu, hcal, hreq]
  · simp [hu, hcal, hreq]

omit htest in
theorem execCalibrationComplete_spare (htest : testing s 4 3 4 = false) (hmpr : mprOk s = true) (hrun : s.meas.spareRun = true)
    (hp : calPass o g = pass) : execCalibrationComplete 4 o g s =
      .next (calEnded 4 pass (calNoted 4 pass false o g s.meas.settleQ
        ((calLogged 4 pass false o g s).onMeas (fun m => { m with spareRun := false, spareCal := pass })))) := by
  refine (if_neg (by simp [htest])).trans ?_
  refine (if_neg (by simp [hmpr, hrun])).trans ?_
  simp only [show (decide (o.natAbs ≤ 1024) && decide (g.natAbs ≤ 10000)) = pass from hp]
  cases pass <;> rfl

variable (hmpr : mprOk s = true) (hu : u ≠ 4)
include hmpr hu

theorem execCalibrationComplete_covered (hcal : (unitGet s u).cal = some true) (hreq : (unitGet s u).calReq ≠ some true)
    (hp : calPass o g = pass) : execCalibrationComplete u o g s =
      .next (calEnded u pass (calNoted u pass true o g s.meas.settleQ (calUnitFreed u true false (calLogged (physOf s u) pass true o g s)))) := by
  refine (if_neg (by simp [htest])).trans ?_
  refine (if_neg (by simp [hmpr, hu, hcal, hreq])).trans ?_
  simp only [show (decide (o.natAbs ≤ 1024) && decide (g.natAbs ≤ 10000)) = pass from hp]
  cases pass <;> simp [bne_iff_ne.mpr hu, hu, hcal, calEnded, calNoted, calUnitFreed, calLogged, calCounted, when]

theorem execCalibrationComplete_swap_due (hcal : (unitGet s u).cal = none) (hreq : (unitGet s u).calReq = some true)
    (hp : calPass o g = pass) : execCalibrationComplete u o g s =
      .next (calEnded u pass (calNoted u pass true o g s.meas.settleQ (calUnitFreed u false true (calLogged (physOf s u) pass true o g s)))) := by
  refine (if_neg (by simp [htest])).trans ?_
  refine (if_neg (by simp [hmpr, hu, hcal, hreq])).trans ?_
  simp only [show (decide (o.natAbs ≤ 1024) && decide (g.natAbs ≤ 10000)) = pass from hp]
  cases pass <;> simp [bne_iff_ne.mpr hu, hu, hcal, hreq, calEnded, calNoted, calUnitFreed, calLogged, calCounted, when]

theorem execCalibrationComplete_suspended (hcal : (unitGet s u).cal = some false) (hp : calPass o g = pass) :
    execCalibrationComplete u o g s = .next (calEnded u pass (calNoted u pass false o g s.meas.settleQ
      (calResumed u pass (calUnitFreed u false false (calLogged (physOf s u) pass false o g s))))) := by
  refine (if_neg (by simp [htest])).trans ?_
  refine (if_neg (by simp [hmpr, hu, hcal])).trans ?_
  simp only [show (decide (o.natAbs ≤ 1024) && decide (g.natAbs ≤ 10000)) = pass from hp]
  cases pass <;> simp [bne_iff_ne.mpr hu, hu, hcal, calEnded, calNoted, calUnitFreed, calLogged, calCounted, calResumed, when]

theorem execCalibrationComplete_suspension_due (hcal : (unitGet s u).cal = none) (hreq : (unitGet s u).calReq = some false)
    (hp : calPass o g = pass) : execCalibrationComplete u o g s =
      .next (calEnded u pass (calNoted u pass false o g s.meas.settleQ (calUnitFreed u false false (calLogged (physOf s u) pass false o g s)))) := by
  refine (if_neg (by simp [htest])).trans ?_
  refine (if_neg (by simp [hmpr, hu, hcal, hreq])).trans ?_
  simp only [show (decide (o.natAbs ≤ 1024) && decide (g.natAbs ≤ 10000)) = pass from hp]
  cases pass <;> simp [bne_iff_ne.mpr hu, hu, hcal, hreq, calEnded, calNoted, calUnitFreed, calLogged, calCounted, when]

end

/-! ### Automatic turns -/

/-- The turn of automatic calibration moves on. -/
def calTurned (s : State) : State := s.onMeas (fun m => { m with calTurn := (s.meas.calTurn + 1) % 5 })

theorem execAutoCalibration_off (h : mprOk s = false ∨ s.meas.calPer = 0) : execAutoCalibration s = .next s :=
  if_pos (by simpa using h)

section
variable (hmpr : mprOk s = true) (hper : s.meas.calPer ≠ 0)
include hmpr hper

theorem execAutoCalibration_spare (hturn : s.meas.calTurn = 4) : execAutoCalibration s =
    if (calUnits s).contains 4 ∧ s.meas.covers.isNone ∧ !s.meas.spareRun then .next (calStart 4 false (calTurned s))
    else .next (calTurned s) := by
  refine (if_neg (by simp [hmpr, hper])).trans ?_
  exact if_pos hturn

/-- The unit whose turn it is cannot be calibrated: it is not there, the reference is not settled, or a calibration of it stands. -/
def TurnSkipped (s : State) : Prop :=
  unitIn s s.meas.calTurn = false ∨ s.meas.settled = false ∨ (unitGet s s.meas.calTurn).cal ≠ none ∨
    (unitGet s s.meas.calTurn).calReq ≠ none

theorem execAutoCalibration_skips (hturn : s.meas.calTurn ≠ 4) (h : TurnSkipped s) : execAutoCalibration s = .next (calTurned s) := by
  refine (if_neg (by simp [hmpr, hper])).trans ?_
  refine (if_neg hturn).trans (if_pos ?_)
  simpa [TurnSkipped, ← Option.isSome_iff_ne_none] using h

theorem execAutoCalibration_unit (hturn : s.meas.calTurn ≠ 4) (hin : unitIn s s.meas.calTurn = true) (hset : s.meas.settled = true)
    (hcal : (unitGet s s.meas.calTurn).cal = none) (hreq : (unitGet s s.meas.calTurn).calReq = none) : execAutoCalibration s =
      if s.meas.spareFor.isSome ∧ running s then .next (measEvent 0x04 .notice s.meas.calTurn [] (calTurned s))
      else .next (calAsk s.meas.calTurn false (calTurned s)) := by
  refine (if_neg (by simp [hmpr, hper])).trans ?_
  exact (if_neg hturn).trans (if_neg (by simp [hin, hset, hcal, hreq]))

end

/-- The turn of automatic level tests moves on. -/
def diagTurned (s : State) : State := s.onMeas (fun m => { m with diagTurn := (s.meas.diagTurn + 1) % 5 })

theorem execAutoLevelTest_off (h : mprOk s = false ∨ s.meas.diagPer = 0) : execAutoLevelTest s = .next s :=
  if_pos (by simpa using h)

theorem execAutoLevelTest_on (hmpr : mprOk s = true) (hper : s.meas.diagPer ≠ 0) : execAutoLevelTest s =
    if (if s.meas.diagTurn = 4 then s.meas.spareFor.isNone && !s.meas.spareBad && s.meas.covers.isNone else unitIn s s.meas.diagTurn) = true
    then .next (testAdd ⟨false, s.meas.diagTurn, none⟩ (diagTurned s)) else .next (diagTurned s) :=
  if_neg (by simp [hmpr, hper])

/-! ### Tests of the DAC -/

/-- The two levels lie within 66 codes of 8,192 and 24,576 (R357). -/
def levelPass (x y : Int) : Bool := (x - 8192).natAbs ≤ 66 && (y - 24576).natAbs ≤ 66

theorem levelPass_of_within {x y : Int} (h : (x - 8192).natAbs ≤ 66 ∧ (y - 24576).natAbs ≤ 66) : levelPass x y = true := by
  simp [levelPass, h.1, h.2]

theorem levelPass_of_beyond {x y : Int} (h : 66 < (x - 8192).natAbs ∨ 66 < (y - 24576).natAbs) : levelPass x y = false := by
  rcases h with h | h <;> simp [levelPass, h]

/-- A level test that failed is counted and reported. -/
def levelFailed (t : DacTest) (x y : Int) (s : State) : State :=
  measEvent 0x05 .notice t.obj [0, word32 x, word32 y] (s.onMeas (fun m => { m with fails := inc32 m.fails }))

/-- How a level test leaves the unit: the test of a readmission ends with it, a unit that failed is lost. -/
def levelConcluded (t : DacTest) (readmits pass : Bool) (s : State) : State :=
  if readmits then readmitEnd 4 3 t.obj pass s else when (!pass) (unitLost t.obj 2 0) s

/-- A level test under way is not there. -/
theorem execLevelTestComplete_none (x y : Int) (h : s.meas.tests.all (fun e => !s.meas.testOn || e.path) = true) :
    execLevelTestComplete x y s = .next s := by
  unfold execLevelTestComplete
  match htests : s.meas.tests with
  | [] => rfl
  | t :: l =>
    have ht : (!s.meas.testOn || t.path) = true := by simp_all
    exact if_pos (by simpa using ht)

/-- The test at the head of the queue is on the DAC. -/
structure TestUnder (s : State) (t : DacTest) (l : List DacTest) : Prop where
  first : s.meas.tests = t :: l
  on : s.meas.testOn = true

section
variable {t : DacTest} {l : List DacTest} {x y : Int} {pass readmits : Bool}

theorem TestUnder.exec_level (h : TestUnder s t l) (hlevel : t.path = false) (hown : t.cross = none) (hp : levelPass x y = pass)
    (hr : testing s 4 3 t.obj = readmits) : execLevelTestComplete x y s =
      .next (levelConcluded t readmits pass (testPop (testFinal t pass x y (when (!pass) (levelFailed t x y) s)))) := by
  subst hp hr
  simp only [execLevelTestComplete, h.first]
  refine (if_neg (by simp [h.on, hlevel])).trans ?_
  simp only [hown]
  rfl

/-- A passed level test of a cross-check counts for its pair; the second one raises that the mismatch is not resolved (R361). -/
def crossPassed (p : Nat) (s : State) : State :=
  let v := mPairUpd p (fun z => { z with passed := (mPair s p).passed + 1, unres := z.unres || decide (2 ≤ (mPair s p).passed + 1) }) s
  if (mPair s p).passed + 1 = 2 then measEvent 0x08 .contained 0 [p] v else v

theorem TestUnder.exec_cross_passes (h : TestUnder s t l) (hlevel : t.path = false) {p : Nat} (hcross : t.cross = some p)
    (hp : levelPass x y = true) (hr : testing s 4 3 t.obj = false) :
    execLevelTestComplete x y s = .next (testPop (crossPassed p s)) := by
  simp only [levelPass] at hp
  simp only [execLevelTestComplete, h.first]
  refine (if_neg (by simp [h.on, hlevel])).trans ?_
  simp only [hcross, hp, hr, when, Bool.not_true, Bool.false_eq_true, if_false]
  rfl

theorem TestUnder.exec_cross_fails (h : TestUnder s t l) (hlevel : t.path = false) {p : Nat} (hcross : t.cross = some p)
    (hp : levelPass x y = false) (hr : testing s 4 3 t.obj = false) :
    execLevelTestComplete x y s = .next (unitLost t.obj 2 0 (testPop (levelFailed t x y s))) := by
  simp only [levelPass] at hp
  simp only [execLevelTestComplete, h.first]
  refine (if_neg (by simp [h.on, hlevel])).trans ?_
  simp only [hcross, hp, hr, when, Bool.not_false, Bool.false_eq_true, if_false, if_true]
  rfl

theorem execPathTestComplete_none (h : s.meas.tests.all (fun e => !s.meas.testOn || !e.path) = true) :
    execPathTestComplete x y s = .next s := by
  unfold execPathTestComplete
  match htests : s.meas.tests with
  | [] => rfl
  | t :: l =>
    have ht : (!s.meas.testOn || !t.path) = true := by simp_all
    exact if_pos (by simpa using ht)

theorem TestUnder.exec_path_passes (h : TestUnder s t l) (hpath : t.path = true) (hmin : ((mChan s t.obj).pmin : Int) ≤ y - x)
    (hmax : y - x ≤ (mChan s t.obj).pmax) : execPathTestComplete x y s = .next (testPop (testFinal t true x y s)) := by
  simp only [execPathTestComplete, h.first]
  refine (if_neg (by simp [h.on, hpath])).trans ?_
  simp only [hmin, hmax, decide_true, Bool.and_self, when, Bool.not_true, Bool.false_eq_true, if_false]

theorem TestUnder.exec_path_fails (h : TestUnder s t l) (hpath : t.path = true)
    (hout : y - x < ((mChan s t.obj).pmin : Int) ∨ ((mChan s t.obj).pmax : Int) < y - x) : execPathTestComplete x y s =
      .next (testPop (testFinal t false x y (measEvent 0x05 .notice t.obj [1, word32 (y - x)] s))) := by
  have hpass : (decide (((mChan s t.obj).pmin : Int) ≤ y - x) && decide (y - x ≤ (mChan s t.obj).pmax)) = false := by
    rcases hout with h | h
    · simp [not_le.mpr h]
    · simp only [not_le.mpr h, decide_false, Bool.and_false]
  simp only [execPathTestComplete, h.first]
  refine (if_neg (by simp [h.on, hpath])).trans ?_
  simp only [hpass, when, Bool.not_false, if_true]

end

/-- Settles O37: each event by the branch of its condition. A calibration is followed once for each way a unit can be asked for one, with
the outcome as a Boolean. That events with nothing to act on leave the state is assumption 9; the pairing of cross-checks, the closed
handshakes, the wait for the spare and the ends of the tests are assumptions 38, 140, 149, 151 and 181. -/
theorem measurementEventsRunTheUnits : Obligations.MeasurementEventsRunTheUnits := by
  unfold Obligations.MeasurementEventsRunTheUnits
  refine ⟨?crossed, ?stalled, ?noConversion, ?unused, ?waits, ?pends, ?overruns, ?held, ?heldOverruns, ?crosses, ?sends, ?latches, ?noLatch,
    ?noCheck, ?counts, ?settles, ?settlesNone, ?falls, ?stays, ?readmits, ?unasked, ?sparePass, ?spareFail, ?coveredPass, ?coveredFail,
    ?swapPass, ?swapFail, ?suspendedPass, ?suspendedFail, ?duePass, ?dueFail, ?autoOff, ?autoSpare, ?autoSpareBusy, ?autoSkips, ?autoEvent,
    ?autoAsks, ?noLevel, ?levelPass, ?levelFail, ?readmitPass, ?readmitFail, ?crossFirst, ?crossSecond, ?crossFail, ?noPath, ?pathPass,
    ?pathFail, ?diagOff, ?diagAdds, ?diagSkips, ?unitFails, ?timeout, ?noTimeout⟩
  case crossed =>
    intro n x a s hmpr hin hcal hst
    exact (Converting.exec_adc ⟨hmpr, hin, hcal⟩ x a).trans (by rw [hst]; rfl)
  case stalled =>
    intro n x a s hmpr hin hcal hst
    exact (Converting.exec_adc ⟨hmpr, hin, hcal⟩ x a).trans (by rw [hst]; rfl)
  case noConversion => exact fun n x a s h => execAdcConversionComplete_idle x a h
  case unused => exact fun trig s h => execInjectedTrigger_unused trig h
  case waits => exact fun trig s hmpr hin hused hbusy hopen => TriggerUsed.exec_waits ⟨hmpr, hin, hused⟩ hbusy hopen
  case pends =>
    intro trig s hmpr hin hused hbusy hopen hcal hreq hfree
    exact (TriggerUsed.exec_reaches ⟨hmpr, hin, hused⟩ hbusy hopen).trans (congrArg Host.Outcome.next (trigger_pends hcal hreq hfree))
  case overruns =>
    intro trig s hmpr hin hused hbusy hopen hcal hreq hpend
    exact (TriggerUsed.exec_reaches ⟨hmpr, hin, hused⟩ hbusy hopen).trans (congrArg Host.Outcome.next (trigger_overruns hcal hreq hpend))
  case held =>
    intro trig s hmpr hin hused hbusy hopen hcal hfree
    exact (TriggerUsed.exec_reaches ⟨hmpr, hin, hused⟩ hbusy hopen).trans (congrArg Host.Outcome.next (trigger_held hcal hfree))
  case heldOverruns =>
    intro trig s hmpr hin hused hbusy hopen hcal hheld
    exact (TriggerUsed.exec_reaches ⟨hmpr, hin, hused⟩ hbusy hopen).trans (congrArg Host.Outcome.next (trigger_overruns_held hcal hheld))
  case crosses => exact fun trig s v hmpr hin hused hbusy hv hopen => TriggerUsed.exec_crosses ⟨hmpr, hin, hused⟩ hbusy hv hopen
  case sends =>
    intro a s v hmpr hv hrole
    exact (execMeasurementSetLatch_latches a hmpr hv).trans (congrArg Host.Outcome.next (when_of_true (by simp [hrole])))
  case latches =>
    intro a s v hmpr hv hrole
    exact (execMeasurementSetLatch_latches a hmpr hv).trans (congrArg Host.Outcome.next (when_of_false (by simp [hrole])))
  case noLatch => exact fun a s hmpr => if_pos (by simp [hmpr])
  case noCheck => exact fun a b s hmpr => if_pos (by simp [hmpr])
  case counts => exact fun a b s hmpr hset hin => execRefMonitorCheck_counts a b hmpr hset hin
  case settles =>
    intro b s v hmpr hset hin hv hunits
    exact (execRefMonitorCheck_settles b hmpr hset hin hv).trans (congrArg Host.Outcome.next (if_neg (by simpa using hunits)))
  case settlesNone =>
    intro b s v hmpr hset hin hv hunits
    refine (execRefMonitorCheck_settles b hmpr hset hin hv).trans ?_
    simp only [referenceSettles, hunits]
    rfl
  case falls => exact fun a s hmpr hset hout => execRefMonitorCheck_falls a hmpr hset hout
  case stays => exact fun a b s hmpr hset hout => execRefMonitorCheck_stays a b hmpr hset hout
  case readmits => exact fun u o g s htest => execCalibrationComplete_readmits htest
  case unasked => exact fun u o g s htest h => execCalibrationComplete_unasked htest h
  case sparePass =>
    exact fun o g s hmpr htest hrun _ ho hg => execCalibrationComplete_spare htest hmpr hrun (calPass_of_within ho hg)
  case spareFail => exact fun o g s hmpr htest hrun _ h => execCalibrationComplete_spare htest hmpr hrun (calPass_of_beyond h)
  case coveredPass =>
    exact fun u o g s hmpr hu htest hcal hreq ho hg =>
      execCalibrationComplete_covered htest hmpr hu hcal hreq (calPass_of_within ho hg)
  case coveredFail =>
    exact fun u o g s hmpr hu htest hcal hreq h => execCalibrationComplete_covered htest hmpr hu hcal hreq (calPass_of_beyond h)
  case swapPass =>
    exact fun u o g s hmpr hu htest hcal hreq ho hg =>
      execCalibrationComplete_swap_due htest hmpr hu hcal hreq (calPass_of_within ho hg)
  case swapFail =>
    exact fun u o g s hmpr hu htest hcal hreq h => execCalibrationComplete_swap_due htest hmpr hu hcal hreq (calPass_of_beyond h)
  case suspendedPass =>
    exact fun u o g s hmpr hu htest hcal ho hg => execCalibrationComplete_suspended htest hmpr hu hcal (calPass_of_within ho hg)
  case suspendedFail =>
    exact fun u o g s hmpr hu htest hcal h => execCalibrationComplete_suspended htest hmpr hu hcal (calPass_of_beyond h)
  case duePass =>
    exact fun u o g s hmpr hu htest hcal hreq ho hg =>
      execCalibrationComplete_suspension_due htest hmpr hu hcal hreq (calPass_of_within ho hg)
  case dueFail =>
    exact fun u o g s hmpr hu htest hcal hreq h =>
      execCalibrationComplete_suspension_due htest hmpr hu hcal hreq (calPass_of_beyond h)
  case autoOff => exact fun s h => execAutoCalibration_off h
  case autoSpare =>
    intro s hmpr hper hturn hunit hcov hrun
    exact (execAutoCalibration_spare hmpr hper hturn).trans (if_pos (by simpa [hcov, hrun] using hunit))
  case autoSpareBusy =>
    intro s hmpr hper hturn h
    refine (execAutoCalibration_spare hmpr hper hturn).trans (if_neg ?_)
    rintro ⟨hunit, hcov, hrun⟩
    rcases h with h | h | h
    · exact Bool.false_ne_true (h.symm.trans hunit)
    · exact h (Option.isNone_iff_eq_none.mp hcov)
    · simp [h] at hrun
  case autoSkips => exact fun s hmpr hper hturn h => execAutoCalibration_skips hmpr hper hturn h
  case autoEvent =>
    intro s hmpr hper hturn hin hset hcal hreq hspare hrun
    exact (execAutoCalibration_unit hmpr hper hturn hin hset hcal hreq).trans (if_pos ⟨Option.isSome_iff_ne_none.mpr hspare, hrun⟩)
  case autoAsks =>
    intro s hmpr hper hturn hin hset hcal hreq h
    refine (execAutoCalibration_unit hmpr hper hturn hin hset hcal hreq).trans (if_neg ?_)
    rintro ⟨hspare, hrun⟩
    rcases h with h | h
    · exact Option.isSome_iff_ne_none.mp hspare h
    · exact Bool.false_ne_true (h.symm.trans hrun)
  case noLevel => exact fun x y s h => execLevelTestComplete_none x y h
  case levelPass =>
    exact fun t l x y s hfirst hon hlevel hown hp hr => TestUnder.exec_level ⟨hfirst, hon⟩ hlevel hown (levelPass_of_within hp) hr
  case levelFail =>
    exact fun t l x y s hfirst hon hlevel hown hp hr => TestUnder.exec_level ⟨hfirst, hon⟩ hlevel hown (levelPass_of_beyond hp) hr
  case readmitPass =>
    exact fun t l x y s hfirst hon hlevel hown hp hr => TestUnder.exec_level ⟨hfirst, hon⟩ hlevel hown (levelPass_of_within hp) hr
  case readmitFail =>
    exact fun t l x y s hfirst hon hlevel hown hp hr => TestUnder.exec_level ⟨hfirst, hon⟩ hlevel hown (levelPass_of_beyond hp) hr
  case crossFirst =>
    intro t l x y p s v hfirst hon hlevel hcross hp hr hv hnot
    subst hv
    refine (TestUnder.exec_cross_passes ⟨hfirst, hon⟩ hlevel hcross (levelPass_of_within hp) hr).trans ?_
    exact congrArg (fun u => Host.Outcome.next (testPop u)) (if_neg (by omega))
  case crossSecond =>
    intro t l x y p s hfirst hon hlevel hcross hp hr hone
    refine (TestUnder.exec_cross_passes ⟨hfirst, hon⟩ hlevel hcross (levelPass_of_within hp) hr).trans ?_
    simp [crossPassed, hone]
  case crossFail =>
    exact fun t l x y p s hfirst hon hlevel hcross hp hr =>
      TestUnder.exec_cross_fails ⟨hfirst, hon⟩ hlevel hcross (levelPass_of_beyond hp) hr
  case noPath => exact fun x y s h => execPathTestComplete_none h
  case pathPass =>
    exact fun t l x y s hfirst hon hpath hmin hmax => TestUnder.exec_path_passes ⟨hfirst, hon⟩ hpath hmin hmax
  case pathFail => exact fun t l x y s hfirst hon hpath h => TestUnder.exec_path_fails ⟨hfirst, hon⟩ hpath h
  case diagOff => exact fun s h => execAutoLevelTest_off h
  case diagAdds => exact fun s hmpr hper h => (execAutoLevelTest_on hmpr hper).trans (if_pos h)
  case diagSkips => exact fun s hmpr hper h => (execAutoLevelTest_on hmpr hper).trans (if_neg (ne_true_of_eq_false h))
  case unitFails => exact fun n k s => rfl
  case timeout => exact fun s h => if_neg (by simp [h])
  case noTimeout => exact fun s h => if_pos h

end Sys2Proof.Machine

/-! PROOFS. The ACQ commands configure, arm, read and locate, and triggers and closes act (Table 14.6, R370 to R389, O38). -/

namespace Sys2Proof.Machine

open Sys2Proof

variable {c : Cmd} {s t : State}

/-- MB1 to MB7 send a command of `n` parameter bytes to a unit that serves commands and has its MPR. -/
structure MprServed (n : Nat) (c : Cmd) (s : State) : Prop where
  serving : Serving s
  params : Inline c n
  mailbox : c.mb ≠ 0
  mpr : mprOk s = true

/-- Such a command passes a gate that is open in every state and role but for its parameters. -/
theorem MprServed.passes {n opcode : Nat} {free par : Bool} (h : MprServed n c s) (hpar : par = true) :
    Gate.Passes { opcode := opcode, len := c.inl n, fitted := mprOk s, legal := notBoot, free := free, par := par } c s :=
  Gate.OpenIn.passes ⟨rfl, rfl, rfl, rfl, rfl⟩ (admits_of_serving h.serving h.mailbox) (.of_inline h.params rfl) h.mpr hpar

/-! ### ACQ_CHANNEL_CONFIG and ACQ_TRIGGER_CONFIG -/

/-- The channel's parameters with those of ACQ_CHANNEL_CONFIG. -/
def acqChannelRead (c : Cmd) (s : State) : AcqCfg :=
  { acqCfg s (c.u8 0) with on := bit (c.u8 1) 0, invert := bit (c.u8 1) 1, prot := bit (c.u8 1) 2, offs := c.s16 2 }

/-- The channel takes its parameters at once. -/
def acqStored (c : Cmd) (k : AcqCfg) (s : State) : State := s.onAcq (fun a => { a with cfg := tset a.cfg (c.u8 0) k })

/-- ACQ_CHANNEL_CONFIG has parameters in range. -/
structure AcqChannelAdmitted (c : Cmd) (s : State) : Prop extends MprServed 8 c s where
  channel : c.u8 0 < 4
  flags : c.u8 1 < 8
  offsetLow : -2048 ≤ c.s16 2
  offsetHigh : c.s16 2 ≤ 2047
  reserved : c.rsv 4 4 = true

section
variable (h : AcqChannelAdmitted c s)
include h

theorem AcqChannelAdmitted.exec_stores (hidle : (acqGet s (c.u8 0)).state = .disarmed) :
    execAcqChannelConfig c s = .next (answer 0x0A01 c .ok [] (acqStored c (acqChannelRead c s) s)) := by
  unfold execAcqChannelConfig
  exact (h.passes (by simp [h.channel, h.flags, h.offsetLow, h.offsetHigh, h.reserved])).answers rfl rfl (if_neg (not_not_intro hidle))

theorem AcqChannelAdmitted.exec_conflict (hbusy : (acqGet s (c.u8 0)).state ≠ .disarmed) :
    execAcqChannelConfig c s = .next (answer 0x0A01 c .conflict [] s) := by
  unfold execAcqChannelConfig
  exact (h.passes (by simp [h.channel, h.flags, h.offsetLow, h.offsetHigh, h.reserved])).answers rfl rfl (if_pos hbusy)

end

/-- The channel's parameters with those of ACQ_TRIGGER_CONFIG. -/
def acqTriggerRead (c : Cmd) (s : State) : AcqCfg :=
  { acqCfg s (c.u8 0) with
    kind := c.u8 1 % 4, dir := c.u8 1 / 4 % 4, th := c.s16 2, hyst := c.u16 4, ds := c.u8 6, cmp := c.u8 7, group := c.u8 8, mode := c.u8 9,
    dest := c.u32 12, len := c.u32 16, pre := c.u32 20 }

/-- ACQ_TRIGGER_CONFIG has the parameters `k`, in range. -/
structure AcqTriggerAdmitted (c : Cmd) (s : State) (k : AcqCfg) : Prop extends MprServed 24 c s where
  read : k = acqTriggerRead c s
  channel : c.u8 0 < 4
  kinds : c.u8 1 < 16
  direction : k.dir < 3
  threshold : (k.kind = 1 ∧ 1 ≤ k.th ∧ k.th ≤ 4095) ∨ (k.kind ≠ 1 ∧ -2048 ≤ k.th ∧ k.th ≤ 2047)
  hysteresis : k.hyst ≤ 1023
  distanceLow : 1 ≤ k.ds
  distanceHigh : k.ds ≤ 16
  comparator : k.cmp < 24
  group : k.group < 16
  groupSelf : bit k.group (c.u8 0) = false
  mode : k.mode < 3
  timeLow : 1 ≤ k.dest
  timeHigh : k.dest ≤ 1000000
  lengthLow : 64 ≤ k.len
  lengthHigh : k.len ≤ 65536
  lengthAligned : k.len % 64 = 0
  before : k.pre + 64 ≤ k.len
  reserved : c.rsv 10 2 = true

/-- The range check of ACQ_TRIGGER_CONFIG. -/
def acqTriggerPar (c : Cmd) (k : AcqCfg) : Bool :=
  c.u8 0 < 4 && c.u8 1 < 16 && k.dir < 3 &&
    (if k.kind = 1 then decide (1 ≤ k.th ∧ k.th ≤ 4095) else decide (-2048 ≤ k.th ∧ k.th ≤ 2047)) && k.hyst ≤ 1023 && 1 ≤ k.ds &&
    k.ds ≤ 16 && k.cmp < 24 && k.group < 16 && !bit k.group (c.u8 0) && k.mode < 3 && 1 ≤ k.dest && k.dest ≤ 1000000 && 64 ≤ k.len &&
    k.len ≤ 65536 && k.len % 64 == 0 && k.pre + 64 ≤ k.len && c.rsv 10 2

section
variable {k : AcqCfg} (h : AcqTriggerAdmitted c s k)
include h

theorem AcqTriggerAdmitted.threshold_in_range :
    (if k.kind = 1 then decide (1 ≤ k.th ∧ k.th ≤ 4095) else decide (-2048 ≤ k.th ∧ k.th ≤ 2047)) = true := by
  rcases h.threshold with ⟨hkind, hlow, hhigh⟩ | ⟨hkind, hlow, hhigh⟩
  · simp [hkind, hlow, hhigh]
  · simp [hkind, hlow, hhigh]

theorem AcqTriggerAdmitted.par : acqTriggerPar c k = true := by
  simp only [acqTriggerPar, h.threshold_in_range]
  simp [h.channel, h.kinds, h.direction, h.hysteresis, h.distanceLow, h.distanceHigh, h.comparator, h.group,
    h.groupSelf, h.mode, h.timeLow, h.timeHigh, h.lengthLow, h.lengthHigh, h.lengthAligned, h.before, h.reserved]

theorem AcqTriggerAdmitted.exec_stores (hidle : (acqGet s (c.u8 0)).state = .disarmed) : execAcqTriggerConfig c s =
    .next (answer 0x0A02 c .ok (le 4 (k.len - k.pre - 1) ++ le 4 (k.len * 4)) (acqStored c k s)) := by
  have hpar := h.par
  obtain rfl := h.read
  unfold execAcqTriggerConfig
  exact (h.passes hpar).answers rfl rfl (if_neg (not_not_intro hidle))

theorem AcqTriggerAdmitted.exec_conflict (hbusy : (acqGet s (c.u8 0)).state ≠ .disarmed) :
    execAcqTriggerConfig c s = .next (answer 0x0A02 c .conflict [] s) := by
  have hpar := h.par
  obtain rfl := h.read
  unfold execAcqTriggerConfig
  exact (h.passes hpar).answers rfl rfl (if_pos hbusy)

end

/-! ### ACQ_ARM -/

/-- The channels of the mask. -/
def armedNamed (c : Cmd) : List Nat := (List.range 4).filter (bit (c.u8 0))

/-- The channels outside the mask. -/
def armedOthers (c : Cmd) : List Nat := (List.range 4).filter (fun n => !bit (c.u8 0) n)

/-- The result of ACQ_ARM (Table 14.6). -/
def acqArmResult (s : State) : Bytes :=
  (List.range 4).flatMap (fun n =>
    le 1 (acqGet s n).state.code ++ le 1 (b2n (acqGet s n).ring) ++ le 2 (acqGet s n).segs.length ++ le 4 (acqGet s n).missed) ++
  le 4 (8388608 - poolBytes s) ++ le 4 (8192 - poolHeads s) ++ le 4 s.tick.index

/-- A channel named cannot be armed: it is off, busy, or has no pool of its length. -/
def armWrong (c : Cmd) (s : State) : Bool :=
  (armedNamed c).any (fun n => !(acqCfg s n).on || !((acqGet s n).state == .disarmed || (acqGet s n).state == .done) ||
    (c.u8 1 == 1 && ((acqGet s n).slots == 0 || (acqGet s n).plen != (acqCfg s n).len)))

/-- Segment memory and header entries that the pools would take (R372). -/
def armBytes (c : Cmd) (s : State) : Nat :=
  ((armedOthers c).map (fun n => (acqGet s n).slots * (acqGet s n).plen * 2)).sum +
    ((armedNamed c).map (fun n => c.u16 4 * (acqCfg s n).len * 2)).sum

def armHeads (c : Cmd) (s : State) : Nat := ((armedOthers c).map (fun n => (acqGet s n).slots)).sum + (armedNamed c).length * c.u16 4

/-- The channels named are armed, anew where `clear` is set. -/
def channelsArmed (c : Cmd) (clear : Bool) (s : State) : State :=
  (armedNamed c).foldl (fun w n => acqArm n clear (c.u8 2 == 1) (c.u16 4) w) s

/-- A read of a segment of a named channel is still to be freed. -/
def armFree (c : Cmd) (s : State) : Bool := (armedNamed c).all (fun n => !held s (.segment n))

/-- ACQ_ARM names channels, with a count that its action takes. -/
structure AcqArmAdmitted (c : Cmd) (s : State) : Prop extends MprServed 8 c s where
  someChannel : 0 < c.u8 0
  channels : c.u8 0 < 16
  ring : c.u8 2 < 2
  reserved : c.rsv 3 1 = true
  tail : c.rsv 6 2 = true

/-- The range check of ACQ_ARM. -/
def acqArmPar (c : Cmd) : Bool :=
  0 < c.u8 0 && c.u8 0 < 16 && c.u8 1 < 4 && c.u8 2 < 2 && c.rsv 3 1 && c.rsv 6 2 &&
    (if c.u8 1 = 2 then 1 ≤ c.u16 4 && c.u16 4 ≤ 8192 else c.u16 4 == 0)

/-- What ACQ_ARM does once the gate is passed. -/
def acqArmAct (c : Cmd) (s : State) : Reply :=
  if c.u8 1 = 3 then okReply s (acqArmResult s)
  else if c.u8 1 = 0 then okReply ((armedNamed c).foldl (fun w n => acqDisarm n w) s) (acqArmResult ((armedNamed c).foldl (fun w n => acqDisarm n w) s))
  else if armWrong c s then ⟨s, .conflict, [], false⟩
  else if c.u8 1 = 2 ∧ (8388608 < armBytes c s ∨ 8192 < armHeads c s) then ⟨s, .exhausted, [], false⟩
  else okReply (channelsArmed c (c.u8 1 == 2) s) (acqArmResult (channelsArmed c (c.u8 1 == 2) s))

/-- The gate of ACQ_ARM. -/
def acqArmGate (c : Cmd) (s : State) : Gate := {
  opcode := 0x0A03, len := c.inl 8, fitted := mprOk s, legal := notBoot, free := c.u8 1 != 2 || armFree c s, par := acqArmPar c }

theorem execAcqArm_eq : execAcqArm c s = runCmd (acqArmGate c s) c s (acqArmAct c) := rfl

section
variable (h : AcqArmAdmitted c s)
include h

theorem AcqArmAdmitted.passes_small (hact : c.u8 1 < 4) (hnot : c.u8 1 ≠ 2) (hcount : c.u16 4 = 0) : (acqArmGate c s).Passes c s :=
  MprServed.passes h.toMprServed
    (by simp [acqArmPar, h.someChannel, h.channels, hact, h.ring, h.reserved, h.tail, hnot, hcount])

theorem AcqArmAdmitted.passes_clear (hact : c.u8 1 = 2) (hlow : 1 ≤ c.u16 4) (hhigh : c.u16 4 ≤ 8192) : (acqArmGate c s).Passes c s :=
  MprServed.passes h.toMprServed
    (by simp [acqArmPar, h.someChannel, h.channels, h.ring, h.reserved, h.tail, hact, hlow, hhigh])

theorem AcqArmAdmitted.exec_disarms (hact : c.u8 1 = 0) (hcount : c.u16 4 = 0) (ht : (armedNamed c).foldl (fun w n => acqDisarm n w) s = t) :
    execAcqArm c s = .next (answer 0x0A03 c .ok (acqArmResult t) t) := by
  subst ht
  rw [execAcqArm_eq]
  refine (h.passes_small (by omega) (by omega) hcount).answers (by simp [acqArmGate, hact]) rfl ?_
  exact (if_neg (by omega)).trans (if_pos hact)

theorem AcqArmAdmitted.exec_reads (hact : c.u8 1 = 3) (hcount : c.u16 4 = 0) :
    execAcqArm c s = .next (answer 0x0A03 c .ok (acqArmResult s) s) := by
  rw [execAcqArm_eq]
  exact (h.passes_small (by omega) (by omega) hcount).answers (by simp [acqArmGate, hact]) rfl (if_pos hact)

theorem AcqArmAdmitted.exec_arms (hact : c.u8 1 = 1) (hcount : c.u16 4 = 0) (hright : armWrong c s = false)
    (ht : channelsArmed c false s = t) : execAcqArm c s = .next (answer 0x0A03 c .ok (acqArmResult t) t) := by
  subst ht
  rw [execAcqArm_eq]
  refine (h.passes_small (by omega) (by omega) hcount).answers (by simp [acqArmGate, hact]) rfl ?_
  refine (if_neg (by omega)).trans ((if_neg (by omega)).trans ((if_neg (ne_true_of_eq_false hright)).trans ((if_neg (by omega)).trans ?_)))
  rw [hact]
  rfl

/-- The command clears the pools of the channels it arms, with a number of segments in range. -/
theorem AcqArmAdmitted.exec_clears (hact : c.u8 1 = 2) (hlow : 1 ≤ c.u16 4) (hhigh : c.u16 4 ≤ 8192) (hfree : armFree c s = true)
    (hright : armWrong c s = false) (hbytes : armBytes c s ≤ 8388608) (hheads : armHeads c s ≤ 8192) (ht : channelsArmed c true s = t) :
    execAcqArm c s = .next (answer 0x0A03 c .ok (acqArmResult t) t) := by
  subst ht
  rw [execAcqArm_eq]
  refine (h.passes_clear hact hlow hhigh).answers (by simp [acqArmGate, hfree]) rfl ?_
  refine (if_neg (by omega)).trans ((if_neg (by omega)).trans ((if_neg (ne_true_of_eq_false hright)).trans ((if_neg (by omega)).trans ?_)))
  rw [hact]
  rfl

theorem AcqArmAdmitted.exec_exhausted (hact : c.u8 1 = 2) (hlow : 1 ≤ c.u16 4) (hhigh : c.u16 4 ≤ 8192) (hfree : armFree c s = true)
    (hright : armWrong c s = false) (hfull : 8388608 < armBytes c s ∨ 8192 < armHeads c s) :
    execAcqArm c s = .next (answer 0x0A03 c .exhausted [] s) := by
  rw [execAcqArm_eq]
  refine (h.passes_clear hact hlow hhigh).answers (by simp [acqArmGate, hfree]) rfl ?_
  exact (if_neg (by omega)).trans ((if_neg (by omega)).trans ((if_neg (ne_true_of_eq_false hright)).trans (if_pos ⟨hact, hfull⟩)))

theorem AcqArmAdmitted.exec_conflict (hwrong : armWrong c s = true)
    (hact : (c.u8 1 = 1 ∧ c.u16 4 = 0) ∨ (c.u8 1 = 2 ∧ 1 ≤ c.u16 4 ∧ c.u16 4 ≤ 8192 ∧ armFree c s = true)) :
    execAcqArm c s = .next (answer 0x0A03 c .conflict [] s) := by
  rw [execAcqArm_eq]
  have hreply : acqArmAct c s = ⟨s, .conflict, [], false⟩ :=
    (if_neg (by omega)).trans ((if_neg (by omega)).trans (if_pos hwrong))
  rcases hact with ⟨hact, hcount⟩ | ⟨hact, hlow, hhigh, hfree⟩
  · exact (h.passes_small (by omega) (by omega) hcount).answers (by simp [acqArmGate, hact]) rfl hreply
  · exact (h.passes_clear hact hlow hhigh).answers (by simp [acqArmGate, hfree]) rfl hreply

theorem AcqArmAdmitted.exec_busy (hact : c.u8 1 = 2) (hlow : 1 ≤ c.u16 4) (hhigh : c.u16 4 ≤ 8192) (hheld : armFree c s = false) :
    execAcqArm c s = .next (answer 0x0A03 c .busy [] s) := by
  rw [execAcqArm_eq]
  exact (h.passes_clear hact hlow hhigh).busy (by simp [acqArmGate, hact, hheld])

end

/-! ### ACQ_SEGMENT_READ -/

/-- What ACQ_SEGMENT_READ writes of a segment: its header, and its samples unless the header alone is asked for. -/
def segmentImage (c : Cmd) (e : Segment) : Bytes :=
  if bit (c.u8 1) 1 then e.header (c.u8 0) else e.header (c.u8 0) ++ withCrc (e.samples.flatMap (leS 2))

/-- The segment is written to the buffer and marked read. -/
def segmentRead (c : Cmd) (e : Segment) (s : State) : State :=
  acqUpd (c.u8 0) (fun x => { x with segs := x.segs.map (fun y => if y.seg = e.seg then { y with read := true } else y) })
    (putBuf (c.u64 8) (segmentImage c e) s)

/-- The result of ACQ_SEGMENT_READ; `n` segments more are given up. -/
def segmentReadResult (c : Cmd) (e : Segment) (n : Nat) (s : State) : Bytes :=
  le 4 e.seg ++ le 4 ((acqGet s (c.u8 0)).segs.length - (acqGet s (c.u8 0)).frees.length - n) ++ le 4 (segmentImage c e).length

/-- The slot of the segment waits for the response of this command. -/
def segmentToFree (c : Cmd) (e : Segment) (s : State) : State :=
  acqUpd (c.u8 0) (fun x => { x with frees := x.frees ++ [(e.seg, c.mb.val, c.tag.toNat, c.seq.toNat)] }) s

/-- ACQ_SEGMENT_READ names a channel and a buffer. -/
structure SegmentReadAdmitted (c : Cmd) (s : State) : Prop extends MprServed 16 c s where
  free : held s (.segment (c.u8 0)) = false
  channel : c.u8 0 < 4
  reserved : c.rsv 2 2 = true
  aligned : c.u64 8 % 64 = 0
  named : c.u64 8 ≠ 0
  flags : c.u8 1 < 4

section
variable {e : Segment} (h : SegmentReadAdmitted c s)
include h

theorem SegmentReadAdmitted.par : (decide (c.u8 0 < 4) && decide (c.u8 1 < 4) && c.rsv 2 2 && c.buf 8) = true := by
  simp [h.channel, h.flags, h.reserved, Cmd.buf, h.aligned, h.named]

theorem SegmentReadAdmitted.exec_conflict (hnone : acqFind s (c.u8 0) (c.u32 4) = none) :
    execAcqSegmentRead c s = .next (answer 0x0A04 c .conflict [] s) := by
  unfold execAcqSegmentRead
  exact (h.passes h.par).answers (by simp [h.free]) rfl (by simp only [hnone])

theorem SegmentReadAdmitted.exec_keeps (hfind : acqFind s (c.u8 0) (c.u32 4) = some e) (hkeep : bit (c.u8 1) 0 = false)
    (ht : t = segmentRead c e s) : execAcqSegmentRead c s = .next (answer 0x0A04 c .ok (segmentReadResult c e 0 t) t) := by
  subst ht
  unfold execAcqSegmentRead
  refine (h.passes h.par).answers (by simp [h.free]) rfl ?_
  simp only [hfind, hkeep, Bool.not_false, if_true]
  rfl

theorem SegmentReadAdmitted.exec_releases (hfind : acqFind s (c.u8 0) (c.u32 4) = some e) (hrelease : bit (c.u8 1) 0 = true)
    (ht : t = segmentRead c e s) (hnow : writesNow t c.mb = true) :
    execAcqSegmentRead c s = .next (answer 0x0A04 c .ok (segmentReadResult c e 1 t) (segRelease (c.u8 0) e.seg t)) := by
  subst ht
  unfold execAcqSegmentRead
  refine (h.passes h.par).answers (by simp [h.free]) rfl ?_
  simp only [hfind, hrelease]
  exact congrArg (fun x => Reply.mk x .ok (segmentReadResult c e 1 (segmentRead c e s)) false) (if_pos hnow)

theorem SegmentReadAdmitted.exec_waits (hfind : acqFind s (c.u8 0) (c.u32 4) = some e) (hrelease : bit (c.u8 1) 0 = true)
    (ht : t = segmentRead c e s) (hlater : writesNow t c.mb = false) :
    execAcqSegmentRead c s = .next (answer 0x0A04 c .ok (segmentReadResult c e 1 t) (segmentToFree c e t)) := by
  subst ht
  unfold execAcqSegmentRead
  refine (h.passes h.par).answers (by simp [h.free]) rfl ?_
  simp only [hfind, hrelease]
  exact congrArg (fun x => Reply.mk x .ok (segmentReadResult c e 1 (segmentRead c e s)) false) (if_neg (ne_true_of_eq_false hlater))

end

/-! ### ACQ_LOCATE -/

/-- The time between the two ends, in 1/64 ns. -/
def locateDelay (c : Cmd) (e : Segment) : Int := (e.cap.t : Int) - ((c.stamp 16).val / 2 ^ 26 : Nat)

/-- The distance, in the unit of R384 before it is rounded. -/
def locateNumber (c : Cmd) (e : Segment) : Int := (64000000 * c.u32 8 : Nat) + c.u32 12 * locateDelay c e

/-- The distance lies on the line, with its tolerance. -/
def LocatedInside (c : Cmd) (n : Int) : Prop := -(128000000 * c.u32 28 : Nat) ≤ n ∧ n ≤ (128000000 * (c.u32 8 + c.u32 28) : Nat)

/-- The result of ACQ_LOCATE; `out` is 1 where the distance lies outside. -/
def locateResult (c : Cmd) (e : Segment) (out : Nat) : Bytes :=
  leS 8 (roundDiv (locateNumber c e) 128000) ++ leS 8 (locateDelay c e) ++ le 1 (out + 2 * b2n e.cap.unset) ++ le 3 0 ++ (stamp64 e.cap.t).bytes

/-- ACQ_LOCATE has parameters in range. -/
structure LocateAdmitted (c : Cmd) (s : State) : Prop extends MprServed 40 c s where
  channel : c.u8 0 < 4
  reserved : c.rsv 1 3 = true
  lengthLow : 1 ≤ c.u32 8
  lengthHigh : c.u32 8 ≤ 3000000
  speedLow : 50000 ≤ c.u32 12
  speedHigh : c.u32 12 ≤ 299792
  stamp : c.stampOk 16 = true
  stampFine : (c.stamp 16).frac % 1024 = 0
  tolerance : c.u32 28 ≤ 10000
  tail : c.rsv 32 8 = true

/-- The closed segment that ACQ_LOCATE names. -/
def locateFind (c : Cmd) (s : State) : Option Segment := (acqGet s (c.u8 0)).segs.find? (fun x => x.seg == c.u32 4)

section
variable {e : Segment} (h : LocateAdmitted c s)
include h

theorem LocateAdmitted.par : (decide (c.u8 0 < 4) && c.rsv 1 3 && decide (1 ≤ c.u32 8) && decide (c.u32 8 ≤ 3000000) &&
    decide (50000 ≤ c.u32 12) && decide (c.u32 12 ≤ 299792) && c.stampOk 16 && (c.stamp 16).frac % 1024 == 0 &&
    decide (c.u32 28 ≤ 10000) && c.rsv 32 8) = true := by
  simp [h.channel, h.reserved, h.lengthLow, h.lengthHigh, h.speedLow, h.speedHigh, h.stamp, h.stampFine, h.tolerance, h.tail]

theorem LocateAdmitted.exec_none (hnone : locateFind c s = none) : execAcqLocate c s = .next (answer 0x0A05 c .conflict [] s) := by
  unfold execAcqLocate
  exact (h.passes h.par).answers rfl rfl (by simp only [show List.find? _ (acqGet s (c.u8 0)).segs = none from hnone])

theorem LocateAdmitted.exec_forced (hfind : locateFind c s = some e) (hkind : e.cap.kind = 3) :
    execAcqLocate c s = .next (answer 0x0A05 c .conflict [] s) := by
  unfold execAcqLocate
  refine (h.passes h.par).answers rfl rfl ?_
  simp only [show List.find? _ (acqGet s (c.u8 0)).segs = some e from hfind]
  exact if_pos hkind

theorem LocateAdmitted.exec_inside (hfind : locateFind c s = some e) (hkind : e.cap.kind ≠ 3) (hin : LocatedInside c (locateNumber c e)) :
    execAcqLocate c s = .next (answer 0x0A05 c .ok (locateResult c e 0) s) := by
  unfold execAcqLocate
  refine (h.passes h.par).answers rfl rfl ?_
  simp only [show List.find? _ (acqGet s (c.u8 0)).segs = some e from hfind]
  refine (if_neg hkind).trans ?_
  obtain ⟨hlow, hhigh⟩ := hin
  unfold locateNumber locateDelay at hlow hhigh
  simp only [hlow, hhigh, decide_true, Bool.and_self, Bool.not_true]
  rfl

theorem LocateAdmitted.exec_outside (hfind : locateFind c s = some e) (hkind : e.cap.kind ≠ 3)
    (hout : ¬LocatedInside c (locateNumber c e)) : execAcqLocate c s = .next (answer 0x0A05 c .ok (locateResult c e 1)
      (acqEvent 0x06 .notice (c.u8 0) (e.seg :: words64 (roundDiv (locateNumber c e) 128000)) s)) := by
  have hinside : (decide (-(128000000 * c.u32 28 : Nat) ≤ locateNumber c e) &&
      decide (locateNumber c e ≤ (128000000 * (c.u32 8 + c.u32 28) : Nat))) = false := by
    rw [← Bool.decide_and]
    exact decide_eq_false hout
  unfold execAcqLocate
  refine (h.passes h.par).answers rfl rfl ?_
  simp only [show List.find? _ (acqGet s (c.u8 0)).segs = some e from hfind]
  refine (if_neg hkind).trans ?_
  unfold locateNumber locateDelay at hinside
  simp only [hinside, Bool.not_false]
  rfl

end

/-! ### Without an MPR -/

section
variable (hserving : Serving s) (hmb : c.mb ≠ 0) (hmpr : mprOk s = false)
include hserving hmb hmpr

theorem execAcqChannelConfig_not_fitted (hinline : Inline c 8) : execAcqChannelConfig c s = .next (answer 0x0A01 c .notFitted [] s) := by
  unfold execAcqChannelConfig
  exact runCmd_inline_not_fitted hserving hmb rfl rfl rfl hinline hmpr

theorem execAcqTriggerConfig_not_fitted (hinline : Inline c 24) : execAcqTriggerConfig c s = .next (answer 0x0A02 c .notFitted [] s) := by
  unfold execAcqTriggerConfig
  exact runCmd_inline_not_fitted hserving hmb rfl rfl rfl hinline hmpr

theorem execAcqArm_not_fitted (hinline : Inline c 8) : execAcqArm c s = .next (answer 0x0A03 c .notFitted [] s) := by
  unfold execAcqArm
  exact runCmd_inline_not_fitted hserving hmb rfl rfl rfl hinline hmpr

theorem execAcqSegmentRead_not_fitted (hinline : Inline c 16) : execAcqSegmentRead c s = .next (answer 0x0A04 c .notFitted [] s) := by
  unfold execAcqSegmentRead
  exact runCmd_inline_not_fitted hserving hmb rfl rfl rfl hinline hmpr

theorem execAcqLocate_not_fitted (hinline : Inline c 40) : execAcqLocate c s = .next (answer 0x0A05 c .notFitted [] s) := by
  unfold execAcqLocate
  exact runCmd_inline_not_fitted hserving hmb rfl rfl rfl hinline hmpr

end

end Sys2Proof.Machine

/-! PROOFS. The triggers, forced triggers and closes of the acquisition engine (R374 to R380), and O38. -/

namespace Sys2Proof.Machine

open Sys2Proof

variable {s t : State} {a : Int} {l : List TwStream} {m : List Nat}

/-! ### Triggers -/

/-- The channel is in an ARMED period of its own. -/
def twInPeriod (l : List TwStream) (s : State) (n : Nat) : Bool :=
  (acqCfg s n).on && (acqGet s n).state == .armed && 0 < (l.getD n ⟨[], 0⟩).armed

/-- The channel's own trigger at this sample. -/
def twOwnOf (l : List TwStream) (m : List Nat) (s : State) (n : Nat) : Option (Nat × Nat) :=
  if twInPeriod l s n then (ownTrigger (acqCfg s n) (l.getD n ⟨[], 0⟩) m).map (fun p => (n, p)) else none

def twOwn (l : List TwStream) (m : List Nat) (s : State) : List (Nat × Nat) := (List.range 4).filterMap (twOwnOf l m s)

/-- The instant of sample n − 1, the sample period, and the instant of sample n. -/
def twAt (a : Int) (s : State) : Nat := stationAt s (a * (2 ^ 26 : Nat)) / 2 ^ 26

def twPer (s : State) : Nat := 2 * (base s 0).inc

def twNext (a : Int) (s : State) : Nat := (twAt a s * 2 ^ 26 + twPer s) / 2 ^ 26

/-- What channel `n` captures for the trigger `o`. -/
def twCapture (a : Int) (l : List TwStream) (s : State) (o : Nat × Nat) (n : Nat) : Capture := {
  src := o.1, kind := (acqCfg s o.1).kind, t := trigStamp (acqCfg s o.1).kind (twAt a s) (twNext a s) o.2, tn := twNext a s, per := twPer s,
  tick := s.tick.index - b2n (decide (a + o.2 < 0)), valid := min (acqCfg s n).pre ((l.getD n ⟨[], 0⟩).armed - 1), unset := timeUnset s }

/-- The channel misses a trigger: its comparator, or one of its group, came outside its ARMED period. -/
def twLate (l : List TwStream) (m : List Nat) (s : State) (n : Nat) : Bool :=
  ((acqCfg s n).kind == 2 && m.contains (acqCfg s n).cmp) || (twOwn l m s).any (fun o => o.1 != n && bit (acqCfg s n).group o.1)

/-- One channel meets the triggers of the sample. -/
def twMeets (a : Int) (l : List TwStream) (m : List Nat) (s u : State) (n : Nat) : State :=
  if !(acqCfg s n).on then u
  else if !twInPeriod l s n then (if twLate l m s n then noteMissed n u else u)
  else
    match (twOwn l m s).filter (fun o => o.1 == n || bit (acqCfg s n).group o.1) with
    | [] => u
    | o :: r => acqCapture n (twCapture a l s (r.foldl (trigFirst s) o) n) u

/-- The triggers of protection channels go to their crossings. -/
def twSignals (a : Int) (l : List TwStream) (m : List Nat) (s u : State) : State :=
  ((twOwn l m s).filter (fun o => (acqCfg s o.1).prot)).foldl (fun u o =>
    twSignal o.1 (acqCfg s o.1).kind (trigStamp (acqCfg s o.1).kind (twAt a s) (twNext a s) o.2) u) u

theorem execTwTrigger_eq (hmpr : mprOk s = true) :
    execTwTrigger a l m s = .next (twSignals a l m s ((List.range 4).foldl (twMeets a l m s) s)) :=
  if_neg (by simp [hmpr])

section
variable {n x : Nat}

theorem twOwnOf_of_off (hoff : (acqCfg s n).on = false) : twOwnOf l m s n = none := by
  simp [twOwnOf, twInPeriod, hoff]

theorem twOwnOf_of_silent (hsilent : ownTrigger (acqCfg s n) (l.getD n ⟨[], 0⟩) m = none) : twOwnOf l m s n = none := by
  simp only [twOwnOf, hsilent, Option.map_none, ite_self]

theorem twOwnOf_of_idle (hidle : (acqGet s n).state ≠ .armed) : twOwnOf l m s n = none := by
  simp [twOwnOf, twInPeriod, hidle]

theorem twMeets_of_off {u : State} (hoff : (acqCfg s n).on = false) : twMeets a l m s u n = u :=
  if_pos (by simp [hoff])

/-- Without a trigger of any channel, a channel whose comparator is quiet meets nothing. -/
theorem twMeets_of_quiet {u : State} (hown : twOwn l m s = []) (hquiet : ((acqCfg s n).kind == 2 && m.contains (acqCfg s n).cmp) = false) :
    twMeets a l m s u n = u := by
  have hlate : twLate l m s n = false := by simp only [twLate, hquiet, hown, List.any_nil, Bool.or_self]
  unfold twMeets
  split
  · rfl
  · split
    · exact if_neg (ne_true_of_eq_false hlate)
    · rw [hown]
      rfl

/-- A comparator outside the ARMED period is missed. -/
theorem twMeets_of_missed {u : State} (hon : (acqCfg s n).on = true) (hidle : (acqGet s n).state ≠ .armed) (hkind : (acqCfg s n).kind = 2)
    (hcmp : m.contains (acqCfg s n).cmp = true) : twMeets a l m s u n = noteMissed n u := by
  have hperiod : twInPeriod l s n = false := by simp [twInPeriod, hidle]
  have hlate : twLate l m s n = true := by simp only [twLate, hkind, hcmp, beq_self_eq_true, Bool.and_self, Bool.true_or]
  unfold twMeets
  exact (if_neg (by simp [hon])).trans ((if_pos (by simp [hperiod])).trans (if_pos hlate))

/-- The channel is in an ARMED period. -/
structure TwArmed (l : List TwStream) (s : State) (n : Nat) : Prop where
  on : (acqCfg s n).on = true
  armed : (acqGet s n).state = .armed
  sampled : 0 < (l.getD n ⟨[], 0⟩).armed

theorem TwArmed.inPeriod (h : TwArmed l s n) : twInPeriod l s n = true := by
  have hsampled := h.sampled
  simp only [twInPeriod, h.on, h.armed, hsampled]
  rfl

theorem TwArmed.ownOf (h : TwArmed l s n) {p : Nat} (hown : ownTrigger (acqCfg s n) (l.getD n ⟨[], 0⟩) m = some p) :
    twOwnOf l m s n = some (n, p) := by
  simp only [twOwnOf, h.inPeriod, if_true, hown, Option.map_some]

/-- In its ARMED period a channel captures the only trigger, where it is its own or of its group. -/
theorem TwArmed.captures (h : TwArmed l s n) {o : Nat × Nat} {u : State} (hown : twOwn l m s = [o])
    (hgroup : (o.1 == n || bit (acqCfg s n).group o.1) = true) : twMeets a l m s u n = acqCapture n (twCapture a l s o n) u := by
  unfold twMeets
  refine (if_neg (by simp [h.on])).trans ((if_neg (by simp [h.inPeriod])).trans ?_)
  rw [hown, show List.filter (fun o => o.1 == n || bit (acqCfg s n).group o.1) [o] = [o] from List.filter_cons_of_pos hgroup]
  rfl

theorem twOwn_eq_nil (h : ∀ x < 4, twOwnOf l m s x = none) : twOwn l m s = [] := by
  simpa [twOwn] using h

theorem twOwn_eq_singleton {p : Nat} (hn : n < 4) (hown : twOwnOf l m s n = some (n, p)) (h : ∀ x < 4, x ≠ n → twOwnOf l m s x = none) :
    twOwn l m s = [(n, p)] := by
  have h0 := h 0 (by omega)
  have h1 := h 1 (by omega)
  have h2 := h 2 (by omega)
  have h3 := h 3 (by omega)
  unfold twOwn
  interval_cases n <;> simp_all [List.range_succ]

/-- Channels that meet nothing drop out of the order. -/
theorem foldl_twMeets {L : List Nat} {f : Nat → Bool} (hL : (List.range 4).filter f = L)
    (h : ∀ u, ∀ x < 4, f x = false → twMeets a l m s u x = u) :
    (List.range 4).foldl (twMeets a l m s) s = L.foldl (twMeets a l m s) s := by
  subst hL
  rw [List.foldl_filter]
  refine List.foldl_ext _ _ _ (fun u x hx => ?_)
  split
  · rfl
  next hf => exact h u x (List.mem_range.mp hx) (Bool.eq_false_iff.mpr hf)

/-- The other channels are off. -/
def OthersOff (s : State) (f : Nat → Bool) : Prop := ∀ x < 4, f x = false → (acqCfg s x).on = false

theorem othersOff_of_all {f : Nat → Bool} (h : (List.range 4).all (fun x => f x || !(acqCfg s x).on) = true) : OthersOff s f := by
  intro x hx hf
  have := List.all_eq_true.mp h x (List.mem_range.mpr hx)
  simpa [hf] using this

theorem OthersOff.foldl_eq {L : List Nat} {f : Nat → Bool} (h : OthersOff s f) (hL : (List.range 4).filter f = L) :
    (List.range 4).foldl (twMeets a l m s) s = L.foldl (twMeets a l m s) s :=
  foldl_twMeets hL (fun _ x hx hf => twMeets_of_off (h x hx hf))

end

theorem filter_range_eq_one (n : Fin 4) : (List.range 4).filter (fun x => x == n.val) = [n.val] := by
  fin_cases n <;> rfl

theorem mergeSort_pair (x y : Nat) : [x, y].mergeSort = if x ≤ y then [x, y] else [y, x] := by
  simp [List.mergeSort, List.MergeSort.Internal.splitInTwo, List.merge]

theorem filter_range_eq_two (n x : Fin 4) (hne : n ≠ x) : (List.range 4).filter (fun y => y == n.val || y == x.val) = [n.val, x.val].mergeSort := by
  rw [mergeSort_pair]
  revert n x
  decide

section
variable {n x : Fin 4} {p : Nat}

theorem execTwTrigger_quiet (hmpr : mprOk s = true) (h : (List.range 4).all (fun n => !(acqCfg s n).on ||
    ((ownTrigger (acqCfg s n) (l.getD n ⟨[], 0⟩) m).isNone && !((acqCfg s n).kind == 2 && m.contains (acqCfg s n).cmp))) = true) :
    execTwTrigger a l m s = .next s := by
  have hall : ∀ x < 4, (acqCfg s x).on = false ∨ (ownTrigger (acqCfg s x) (l.getD x ⟨[], 0⟩) m = none ∧
      ((acqCfg s x).kind == 2 && m.contains (acqCfg s x).cmp) = false) := by
    intro x hx
    have := List.all_eq_true.mp h x (List.mem_range.mpr hx)
    simpa only [Bool.or_eq_true, Bool.and_eq_true, Bool.not_eq_true', Option.isNone_iff_eq_none] using this
  have hown : twOwn l m s = [] := twOwn_eq_nil (fun x hx => (hall x hx).elim twOwnOf_of_off (fun h => twOwnOf_of_silent h.1))
  have hmeets : (List.range 4).foldl (twMeets a l m s) s = s :=
    foldl_twMeets (f := fun _ => false) rfl (fun _ x hx _ => (hall x hx).elim twMeets_of_off (fun h => twMeets_of_quiet hown h.2))
  rw [execTwTrigger_eq hmpr, hmeets, twSignals, hown]
  rfl

/-- Only channel `n` triggers, in its ARMED period. -/
structure TwSource (l : List TwStream) (m : List Nat) (s : State) (n : Fin 4) (p : Nat) : Prop where
  mpr : mprOk s = true
  armed : TwArmed l s n
  own : ownTrigger (acqCfg s n) (l.getD n ⟨[], 0⟩) m = some p

section
variable (h : TwSource l m s n p)
include h

theorem TwSource.twOwn_eq (hothers : ∀ y < 4, y ≠ n.val → twOwnOf l m s y = none) : twOwn l m s = [(n.val, p)] :=
  twOwn_eq_singleton n.isLt (h.armed.ownOf h.own) hothers

theorem TwSource.others_silent (hoff : OthersOff s (fun y => y == n.val)) : twOwn l m s = [(n.val, p)] :=
  h.twOwn_eq (fun y hy hne => twOwnOf_of_off (hoff y hy (by simpa using hne)))

theorem TwSource.exec_captures (hoff : OthersOff s (fun y => y == n.val)) (hprot : (acqCfg s n).prot = false) :
    execTwTrigger a l m s = .next (acqCapture n (twCapture a l s (n, p) n) s) := by
  have hown := h.others_silent hoff
  rw [execTwTrigger_eq h.mpr, hoff.foldl_eq (filter_range_eq_one n), List.foldl_cons, List.foldl_nil, h.armed.captures hown (by simp), twSignals, hown]
  simp only [List.filter_cons, hprot, Bool.false_eq_true, if_false, List.filter_nil, List.foldl_nil]

theorem TwSource.exec_signals (hoff : OthersOff s (fun y => y == n.val)) (hprot : (acqCfg s n).prot = true) :
    execTwTrigger a l m s = .next (twSignal n (acqCfg s n).kind (trigStamp (acqCfg s n).kind (twAt a s) (twNext a s) p)
      (acqCapture n (twCapture a l s (n, p) n) s)) := by
  have hown := h.others_silent hoff
  rw [execTwTrigger_eq h.mpr, hoff.foldl_eq (filter_range_eq_one n), List.foldl_cons, List.foldl_nil, h.armed.captures hown (by simp), twSignals, hown]
  simp only [List.filter_cons, hprot, if_true, List.filter_nil, List.foldl_cons, List.foldl_nil]

/-- A channel of the source's group captures with it. -/
theorem TwSource.exec_group (hne : n ≠ x) (hx : TwArmed l s x) (hsilent : ownTrigger (acqCfg s x) (l.getD x ⟨[], 0⟩) m = none)
    (hoff : OthersOff s (fun y => y == n.val || y == x.val)) (hgroup : bit (acqCfg s x).group n = true) (hprot : (acqCfg s n).prot = false) :
    execTwTrigger a l m s = .next ([n.val, x.val].mergeSort.foldl (fun w y => acqCapture y (twCapture a l s (n, p) y) w) s) := by
  have hown : twOwn l m s = [(n.val, p)] := h.twOwn_eq (fun y hy hyn => by
    by_cases hyx : y = x.val
    · exact hyx ▸ twOwnOf_of_silent hsilent
    · exact twOwnOf_of_off (hoff y hy (by simp [hyn, hyx])))
  have hn : ∀ u, twMeets a l m s u n = acqCapture n (twCapture a l s (n, p) n) u := fun u => h.armed.captures hown (by simp)
  have hxs : ∀ u, twMeets a l m s u x = acqCapture x (twCapture a l s (n, p) x) u := fun u => hx.captures hown (by simp [hgroup])
  have hfold : [n.val, x.val].mergeSort.foldl (twMeets a l m s) s =
      [n.val, x.val].mergeSort.foldl (fun w y => acqCapture y (twCapture a l s (n, p) y) w) s := by
    refine List.foldl_ext _ _ _ (fun u y hy => ?_)
    have hmem : y = n.val ∨ y = x.val := by simpa using hy
    rcases hmem with rfl | rfl
    · exact hn u
    · exact hxs u
  rw [execTwTrigger_eq h.mpr, hoff.foldl_eq (filter_range_eq_two n x hne), hfold, twSignals, hown]
  simp only [List.filter_cons, hprot, Bool.false_eq_true, if_false, List.filter_nil, List.foldl_nil]

end

theorem execTwTrigger_missed (hmpr : mprOk s = true) (hon : (acqCfg s n).on = true) (hidle : (acqGet s n).state ≠ .armed)
    (hkind : (acqCfg s n).kind = 2) (hcmp : m.contains (acqCfg s n).cmp = true) (hoff : OthersOff s (fun y => y == n.val)) :
    execTwTrigger a l m s = .next (noteMissed n s) := by
  have hown : twOwn l m s = [] := twOwn_eq_nil (fun y hy => by
    by_cases hyn : y = n.val
    · exact hyn ▸ twOwnOf_of_idle hidle
    · exact twOwnOf_of_off (hoff y hy (by simpa using hyn)))
  rw [execTwTrigger_eq hmpr, hoff.foldl_eq (filter_range_eq_one n), List.foldl_cons, List.foldl_nil,
    twMeets_of_missed hon hidle hkind hcmp, twSignals, hown]
  rfl

end

/-! ### Forced triggers and closes -/

/-- The samples of a closed segment: the valid ones in order, and 0x8000 where none was taken. -/
def closedSamples (s : State) (ch : Nat) (k : Capture) (l : List Int) : List Int :=
  let kept := (List.replicate ((acqCfg s ch).pre - k.valid) (-32768) ++ l.map (storedOf (acqCfg s ch))).take (acqCfg s ch).len
  kept ++ List.replicate ((acqCfg s ch).len - kept.length) (-32768)

/-- The segment of the channel with its capture closes. -/
def segmentClosed (ch : Nat) (k : Capture) (l : List Int) (s : State) : State :=
  closeSegment ch (closedSamples s ch k l) false (l.any (fun v => v ≤ -2048 || 2047 ≤ v)) s

section
variable {ch : Fin 4} {l : List Int} {k : Capture}

theorem execTwSegmentClose_none (h : (acqGet s ch).cap = none ∨ (acqGet s ch).state ≠ .capturing) : execTwSegmentClose ch l s = .next s := by
  simp only [execTwSegmentClose]
  cases hcap : (acqGet s ch).cap with
  | none => rfl
  | some k => exact if_pos (h.resolve_left (by simp [hcap]))

theorem execTwSegmentClose_closes (hcap : (acqGet s ch).cap = some k) (hstate : (acqGet s ch).state = .capturing) :
    execTwSegmentClose ch l s = if (acqCfg s ch).mode = 2 then
      .next (acqUpd ch (fun y => { y with state := .done }) (segmentClosed ch k l s)) else .next (rearm ch (segmentClosed ch k l s)) := by
  unfold execTwSegmentClose
  simp only [hcap]
  exact if_neg (not_not_intro hstate)

end

/-- Settles O38: each command through its gate, and a sample of the inputs by the channels that trigger. Reads that complete at once, missed
triggers, a close that arms in one step, the exact distance against its bounds and unarmed rows are assumptions 41, 155, 156 and 9. -/
theorem acquisitionCommandsAndEvents : Obligations.AcquisitionCommandsAndEvents := by
  unfold Obligations.AcquisitionCommandsAndEvents
  refine ⟨?channelStores, ?channelConflict, ?triggerStores, ?triggerConflict, ?disarms, ?reads, ?arms, ?clears, ?armConflict, ?armExhausted,
    ?armBusy, ?keeps, ?releases, ?waits, ?noSegment, ?inside, ?outside, ?locateNone, ?locateForced, ?noChannel, ?noTrigger, ?noArm, ?noRead,
    ?noLocate, ?absent, ?quiet, ?captures, ?signals, ?group, ?missed, ?forced, ?notForced, ?notClosed, ?single, ?rearms⟩
  case channelStores =>
    intro c s k hk hserving hinline hmb hmpr hch hflags hlow hhigh hrsv hidle
    subst hk
    exact AcqChannelAdmitted.exec_stores ⟨⟨hserving, hinline, hmb, hmpr⟩, hch, hflags, hlow, hhigh, hrsv⟩ hidle
  case channelConflict =>
    exact fun c s hserving hinline hmb hmpr hch hflags hlow hhigh hrsv hbusy =>
      AcqChannelAdmitted.exec_conflict ⟨⟨hserving, hinline, hmb, hmpr⟩, hch, hflags, hlow, hhigh, hrsv⟩ hbusy
  case triggerStores =>
    exact fun c s k hk hserving hinline hmb hmpr h1 h2 h3 h4 h5 h6 h7 h8 h9 h10 h11 h12 h13 h14 h15 h16 h17 h18 hidle =>
      AcqTriggerAdmitted.exec_stores
        ⟨⟨hserving, hinline, hmb, hmpr⟩, hk, h1, h2, h3, h4, h5, h6, h7, h8, h9, h10, h11, h12, h13, h14, h15, h16, h17, h18⟩ hidle
  case triggerConflict =>
    exact fun c s k hk hserving hinline hmb hmpr h1 h2 h3 h4 h5 h6 h7 h8 h9 h10 h11 h12 h13 h14 h15 h16 h17 h18 hbusy =>
      AcqTriggerAdmitted.exec_conflict
        ⟨⟨hserving, hinline, hmb, hmpr⟩, hk, h1, h2, h3, h4, h5, h6, h7, h8, h9, h10, h11, h12, h13, h14, h15, h16, h17, h18⟩ hbusy
  case disarms =>
    exact fun c s v hserving hinline hmb hmpr hsome hch hring hrsv htail hact hcount hv =>
      AcqArmAdmitted.exec_disarms ⟨⟨hserving, hinline, hmb, hmpr⟩, hsome, hch, hring, hrsv, htail⟩ hact hcount hv.symm
  case reads =>
    exact fun c s hserving hinline hmb hmpr hsome hch hring hrsv htail hact hcount =>
      AcqArmAdmitted.exec_reads ⟨⟨hserving, hinline, hmb, hmpr⟩, hsome, hch, hring, hrsv, htail⟩ hact hcount
  case arms =>
    exact fun c s v hserving hinline hmb hmpr hsome hch hring hrsv htail hact hcount hright hv =>
      AcqArmAdmitted.exec_arms ⟨⟨hserving, hinline, hmb, hmpr⟩, hsome, hch, hring, hrsv, htail⟩ hact hcount hright hv.symm
  case clears =>
    exact fun c s v hserving hinline hmb hmpr hsome hch hring hrsv htail hact hlow hhigh hfree hright hbytes hheads hv =>
      AcqArmAdmitted.exec_clears ⟨⟨hserving, hinline, hmb, hmpr⟩, hsome, hch, hring, hrsv, htail⟩ hact hlow hhigh hfree hright hbytes hheads
        hv.symm
  case armConflict =>
    exact fun c s hserving hinline hmb hmpr hsome hch hring hrsv htail hact hwrong =>
      AcqArmAdmitted.exec_conflict ⟨⟨hserving, hinline, hmb, hmpr⟩, hsome, hch, hring, hrsv, htail⟩ hwrong hact
  case armExhausted =>
    exact fun c s hserving hinline hmb hmpr hsome hch hring hrsv htail hact hlow hhigh hfree hright hfull =>
      AcqArmAdmitted.exec_exhausted ⟨⟨hserving, hinline, hmb, hmpr⟩, hsome, hch, hring, hrsv, htail⟩ hact hlow hhigh hfree hright hfull
  case armBusy =>
    exact fun c s hserving hinline hmb hmpr hsome hch hring hrsv htail hact hlow hhigh hheld =>
      AcqArmAdmitted.exec_busy ⟨⟨hserving, hinline, hmb, hmpr⟩, hsome, hch, hring, hrsv, htail⟩ hact hlow hhigh hheld
  case keeps =>
    exact fun c s v e hserving hinline hmb hmpr hfree hch hrsv haligned hnamed hflags hkeep hfind hv =>
      SegmentReadAdmitted.exec_keeps ⟨⟨hserving, hinline, hmb, hmpr⟩, hfree, hch, hrsv, haligned, hnamed, hflags⟩ hfind hkeep hv
  case releases =>
    exact fun c s v e hserving hinline hmb hmpr hfree hch hrsv haligned hnamed hflags hrelease hfind hv hnow =>
      SegmentReadAdmitted.exec_releases ⟨⟨hserving, hinline, hmb, hmpr⟩, hfree, hch, hrsv, haligned, hnamed, hflags⟩ hfind hrelease hv hnow
  case waits =>
    exact fun c s v e hserving hinline hmb hmpr hfree hch hrsv haligned hnamed hflags hrelease hfind hv hlater =>
      SegmentReadAdmitted.exec_waits ⟨⟨hserving, hinline, hmb, hmpr⟩, hfree, hch, hrsv, haligned, hnamed, hflags⟩ hfind hrelease hv hlater
  case noSegment =>
    exact fun c s hserving hinline hmb hmpr hfree hch hrsv haligned hnamed hflags hnone =>
      SegmentReadAdmitted.exec_conflict ⟨⟨hserving, hinline, hmb, hmpr⟩, hfree, hch, hrsv, haligned, hnamed, hflags⟩ hnone
  case inside =>
    intro c s e n hserving hinline hmb hmpr h1 h2 h3 h4 h5 h6 h7 h8 h9 h10 hfind hkind hn hlow hhigh
    subst hn
    exact LocateAdmitted.exec_inside ⟨⟨hserving, hinline, hmb, hmpr⟩, h1, h2, h3, h4, h5, h6, h7, h8, h9, h10⟩ hfind hkind ⟨hlow, hhigh⟩
  case outside =>
    intro c s e n hserving hinline hmb hmpr h1 h2 h3 h4 h5 h6 h7 h8 h9 h10 hfind hkind hn hout
    subst hn
    exact LocateAdmitted.exec_outside ⟨⟨hserving, hinline, hmb, hmpr⟩, h1, h2, h3, h4, h5, h6, h7, h8, h9, h10⟩ hfind hkind
      (fun hin => hout.elim (not_lt.mpr hin.1) (not_lt.mpr hin.2))
  case locateNone =>
    exact fun c s hserving hinline hmb hmpr h1 h2 h3 h4 h5 h6 h7 h8 h9 h10 hnone =>
      LocateAdmitted.exec_none ⟨⟨hserving, hinline, hmb, hmpr⟩, h1, h2, h3, h4, h5, h6, h7, h8, h9, h10⟩ hnone
  case locateForced =>
    exact fun c s e hserving hinline hmb hmpr h1 h2 h3 h4 h5 h6 h7 h8 h9 h10 hfind hkind =>
      LocateAdmitted.exec_forced ⟨⟨hserving, hinline, hmb, hmpr⟩, h1, h2, h3, h4, h5, h6, h7, h8, h9, h10⟩ hfind hkind
  case noChannel => exact fun c s hserving hmb hinline hmpr => execAcqChannelConfig_not_fitted hserving hmb hmpr hinline
  case noTrigger => exact fun c s hserving hmb hinline hmpr => execAcqTriggerConfig_not_fitted hserving hmb hmpr hinline
  case noArm => exact fun c s hserving hmb hinline hmpr => execAcqArm_not_fitted hserving hmb hmpr hinline
  case noRead => exact fun c s hserving hmb hinline hmpr => execAcqSegmentRead_not_fitted hserving hmb hmpr hinline
  case noLocate => exact fun c s hserving hmb hinline hmpr => execAcqLocate_not_fitted hserving hmb hmpr hinline
  case absent => exact fun a l m s hmpr => if_pos (by simp [hmpr])
  case quiet => exact fun a l m s hmpr h => execTwTrigger_quiet hmpr h
  case captures =>
    exact fun n a l m p s hmpr hon harmed hsampled hown hoff _ hprot =>
      TwSource.exec_captures ⟨hmpr, ⟨hon, harmed, hsampled⟩, hown⟩ (othersOff_of_all hoff) hprot
  case signals =>
    exact fun n a l m p s hmpr hon harmed hsampled hown hoff _ hprot =>
      TwSource.exec_signals ⟨hmpr, ⟨hon, harmed, hsampled⟩, hown⟩ (othersOff_of_all hoff) hprot
  case group =>
    exact fun n x a l m p s hmpr hne hon harmed hsampled hown hxon hxarmed hxsampled hsilent hoff hgroup _ hprot =>
      TwSource.exec_group ⟨hmpr, ⟨hon, harmed, hsampled⟩, hown⟩ hne ⟨hxon, hxarmed, hxsampled⟩ hsilent (othersOff_of_all hoff) hgroup hprot
  case missed =>
    exact fun n a l m s hmpr hon hidle hkind hcmp hoff => execTwTrigger_missed hmpr hon hidle hkind hcmp (othersOff_of_all hoff)
  case forced => exact fun ch a n s hmpr hstate hmode => if_neg (by simp [hmpr, hstate, hmode])
  case notForced => exact fun ch a n s h => if_pos (by simpa using h)
  case notClosed => exact fun ch l s h => execTwSegmentClose_none h
  case single => exact fun ch l k s hcap hstate hmode => (execTwSegmentClose_closes hcap hstate).trans (if_pos hmode)
  case rearms => exact fun ch l k s hcap hstate hmode => (execTwSegmentClose_closes hcap hstate).trans (if_neg hmode)

end Sys2Proof.Machine

/-! PROOFS. The PROT commands stage the settings, reset the latches, trigger and write out records and read (Table 15.13, R390 to R416, O39). -/

namespace Sys2Proof.Machine

open Sys2Proof

variable {c : Cmd} {s t : State}

/-! ### The gate of the staging commands -/

/-- MB1 to MB7 send a staging command in a state and role of Table 15.13, to a unit that has its MPR. -/
structure ProtOpen (c : Cmd) (s : State) : Prop where
  admits : Admits c s aieStates [.active, .standby]
  mpr : mprOk s = true

/-- The gate of a command that stages into shadow set 6. -/
def protGate (opcode : Nat) (len par : Bool) (s : State) : Gate := {
  opcode := opcode, len := len, fitted := mprOk s, legal := busyStates, roles := actStby, free := !setHeld s 6, par := par }

section
variable {opcode : Nat} {par : Bool} (hnot : opcode ∉ notInTest)
include hnot

theorem protGate_open {len : Bool} : (protGate opcode len par s).OpenIn aieStates [.active, .standby] :=
  ⟨rfl, rfl, rfl, by simp [Gate.legalIn, protGate, busyStates, inStates, hnot], rfl⟩

variable (h : ProtOpen c s)
include h

theorem ProtOpen.passes_inline {n : Nat} (hparams : Inline c n) (hpar : par = true) : (protGate opcode (c.inl n) par s).Passes c s :=
  (protGate_open hnot).passes h.admits (.of_inline hparams rfl) h.mpr hpar

theorem ProtOpen.passes_external {ok : Nat → Bool} (hparams : External c ok) (hpar : par = true) :
    (protGate opcode (c.extLen ok) par s).Passes c s :=
  (protGate_open hnot).passes h.admits (.of_external hparams rfl) h.mpr hpar

end

theorem protGate_free {opcode : Nat} {len par : Bool} (hfree : setHeld s 6 = false) : (protGate opcode len par s).free = true := by
  simp [protGate, hfree]

/-! ### PROT_ELEMENT_CONFIG of a point -/

/-- The parameters of a point. -/
def pointRead (c : Cmd) : PtCfg := {
  kind := c.u8 2, hz60 := c.u8 3 == 1, sel := (List.range 8).map (fun i => c.u16 (4 + 2 * i)), vmin := c.u32 20, fwin := c.u8 24,
  rocwin := c.u8 25, ndc := c.u8 26 }

/-- The range check of a point. -/
def pointPar (c : Cmd) (k : PtCfg) : Bool :=
  c.u8 1 < 16 && k.kind < 3 && c.u8 3 < 2 && k.sel.all protSelOk && k.vmin ≤ 2 ^ 28 && 1 ≤ k.fwin && k.fwin ≤ 10 && 1 ≤ k.rocwin &&
    k.rocwin ≤ 50 && 1 ≤ k.ndc && k.ndc ≤ 64 && c.rsv 27 13

/-- A signal of the point cannot be read, or a FAST element on it would read a sampled value. -/
def pointConflict (c : Cmd) (k : PtCfg) (s : State) : Bool :=
  k.sel.any (protSelBad s) || (protShadow s).el.any (fun x => x.2.pt == c.u8 1 && fastOnSv x.2 k)

/-- The point waits in the shadow set. -/
def pointStaged (c : Cmd) (k : PtCfg) (s : State) : State := protStage c.params (fun p => { p with pt := tset p.pt (c.u8 1) k }) s

/-- PROT_ELEMENT_CONFIG gives a point the parameters `k`, in range. -/
structure PointAdmitted (c : Cmd) (s : State) (k : PtCfg) : Prop where
  read : k = pointRead c
  opened : ProtOpen c s
  params : Inline c 40
  isPoint : c.u8 0 = 1
  number : c.u8 1 < 16
  kind : k.kind < 3
  frequency : c.u8 3 < 2
  signals : k.sel.all protSelOk = true
  least : k.vmin ≤ 2 ^ 28
  windowLow : 1 ≤ k.fwin
  windowHigh : k.fwin ≤ 10
  rocLow : 1 ≤ k.rocwin
  rocHigh : k.rocwin ≤ 50
  ndcLow : 1 ≤ k.ndc
  ndcHigh : k.ndc ≤ 64
  reserved : c.rsv 27 13 = true
  free : setHeld s 6 = false

/-! ### PROT_ELEMENT_CONFIG of an element -/

/-- The parameters of an element. -/
def elementRead (c : Cmd) : ElCfg := {
  type := c.u8 2, on := bit (c.u8 3) 0, fast := bit (c.u8 3) 1, rev := bit (c.u8 3) 2, ndFall := bit (c.u8 3) 3, pt := c.u8 4,
  qsel := c.u8 5, tmode := c.u8 6, rmode := c.u8 7, pu := c.u32 8, dr := c.u16 12, nconf := c.u8 14, blkel := c.u8 15, td := c.u32 16,
  tms := c.u32 20, trst := c.u32 24, rca := c.s16 28, angw := c.u16 30, vpol := c.u32 32, memc := c.u8 36, twmask := c.u8 37,
  confel := c.u8 38 }

/-- The range check of an element. -/
def elementPar (c : Cmd) (e : ElCfg) : Bool :=
  c.u8 1 < 96 && 1 ≤ e.type && e.type ≤ 12 && c.u8 3 < 16 && e.pt < 16 && e.qsel < 32 && e.tmode ≤ 8 && (e.tmode == 0 || e.type ≤ 4) &&
    e.rmode < 3 && !(e.rmode == 2 && 1 ≤ e.tmode && e.tmode ≤ 4) && (!e.fast || ([1, 2, 10, 11].contains e.type && e.tmode == 0)) &&
    (if e.type = 12 then e.pu == 0 else 1 ≤ e.pu && ([7, 8, 9].contains e.type || e.pu < 2 ^ 31)) && 8192 ≤ e.dr && e.dr ≤ 24576 &&
    1 ≤ e.nconf && e.nconf ≤ 16 && (e.blkel < 96 || e.blkel == 0xFF) && e.blkel != c.u8 1 && e.td ≤ 600000000 && 167772 ≤ e.tms &&
    e.tms ≤ 1677721600 && e.trst ≤ 60000000 && e.rca.natAbs ≤ 18000 && 1000 ≤ e.angw && e.angw ≤ 9000 && e.vpol ≤ 2 ^ 28 &&
    e.memc ≤ 10 && e.twmask < 16 && (e.confel < 96 || e.confel == 0xFF) && e.confel != c.u8 1 && c.rsv 39 1

/-- The point does not give what the element reads, or its curve is not loaded. -/
def elementConflict (e : ElCfg) (s : State) : Bool :=
  !kindFits e.type (tget ({} : PtCfg) (protShadow s).pt e.pt).kind || (e.tmode == 8 && (protShadow s).curve.isEmpty) ||
    fastOnSv e (tget ({} : PtCfg) (protShadow s).pt e.pt)

/-- The element waits in the shadow set. -/
def elementStaged (c : Cmd) (e : ElCfg) (s : State) : State := protStage c.params (fun p => { p with el := tset p.el (c.u8 1) e }) s

/-- PROT_ELEMENT_CONFIG gives an element the parameters `e`, in range. -/
structure ElementAdmitted (c : Cmd) (s : State) (e : ElCfg) : Prop where
  read : e = elementRead c
  opened : ProtOpen c s
  params : Inline c 40
  isElement : c.u8 0 = 0
  number : c.u8 1 < 96
  typeLow : 1 ≤ e.type
  typeHigh : e.type ≤ 12
  flags : c.u8 3 < 16
  point : e.pt < 16
  quantity : e.qsel < 32
  timing : e.tmode ≤ 8
  timed : e.tmode = 0 ∨ e.type ≤ 4
  reset : e.rmode < 3
  resetTimed : e.rmode ≠ 2 ∨ e.tmode = 0 ∨ 4 < e.tmode
  fast : e.fast = false ∨ ([1, 2, 10, 11].contains e.type = true ∧ e.tmode = 0)
  pickup : (e.type = 12 ∧ e.pu = 0) ∨ (e.type ≠ 12 ∧ 1 ≤ e.pu ∧ ([7, 8, 9].contains e.type = true ∨ e.pu < 2 ^ 31))
  dropLow : 8192 ≤ e.dr
  dropHigh : e.dr ≤ 24576
  confirmLow : 1 ≤ e.nconf
  confirmHigh : e.nconf ≤ 16
  blocker : e.blkel < 96 ∨ e.blkel = 0xFF
  blockerOther : e.blkel ≠ c.u8 1
  delay : e.td ≤ 600000000
  multiplierLow : 167772 ≤ e.tms
  multiplierHigh : e.tms ≤ 1677721600
  resetTime : e.trst ≤ 60000000
  angle : e.rca.natAbs ≤ 18000
  sectorLow : 1000 ≤ e.angw
  sectorHigh : e.angw ≤ 9000
  polarising : e.vpol ≤ 2 ^ 28
  memory : e.memc ≤ 10
  channels : e.twmask < 16
  confirmer : e.confel < 96 ∨ e.confel = 0xFF
  confirmerOther : e.confel ≠ c.u8 1
  reserved : c.rsv 39 1 = true
  free : setHeld s 6 = false

/-- The gate of PROT_ELEMENT_CONFIG. -/
def elementGate (c : Cmd) (s : State) : Gate :=
  protGate 0x0B01 (c.inl 40) (c.u8 0 < 2 && (if (c.u8 0 == 1) = true then pointPar c (pointRead c) else elementPar c (elementRead c))) s

/-- What PROT_ELEMENT_CONFIG does to a point. -/
def pointAct (c : Cmd) (k : PtCfg) (s : State) : Reply :=
  if pointConflict c k s then ⟨s, .conflict, [], false⟩
  else okReply (pointStaged c k s) (le 1 (fastCount (protShadow (pointStaged c k s))))

/-- What PROT_ELEMENT_CONFIG does to an element. -/
def elementAct (c : Cmd) (e : ElCfg) (s : State) : Reply :=
  if elementConflict e s then ⟨s, .conflict, [], false⟩
  else if 24 < fastCount (protShadow (elementStaged c e s)) then ⟨s, .exhausted, [], false⟩
  else okReply (elementStaged c e s) (le 1 (fastCount (protShadow (elementStaged c e s))))

theorem execProtElementConfig_eq : execProtElementConfig c s =
    runCmd (elementGate c s) c s (fun s => if (c.u8 0 == 1) = true then pointAct c (pointRead c) s else elementAct c (elementRead c) s) := rfl

section
variable {k : PtCfg} (h : PointAdmitted c s k)
include h

theorem PointAdmitted.par : pointPar c k = true := by
  simp only [pointPar, h.number, h.kind, h.frequency, h.signals, h.least, h.windowLow, h.windowHigh, h.rocLow, h.rocHigh, h.ndcLow, h.ndcHigh,
    h.reserved, decide_true, Bool.and_self]

theorem PointAdmitted.passes : (elementGate c s).Passes c s := by
  have hpar := h.par
  obtain rfl := h.read
  refine ProtOpen.passes_inline (by decide) h.opened h.params ?_
  simp [h.isPoint, hpar]

theorem PointAdmitted.exec_stages (hfit : pointConflict c k s = false) (ht : pointStaged c k s = t) :
    execProtElementConfig c s = .next (answer 0x0B01 c .ok (le 1 (fastCount (protShadow t))) t) := by
  subst ht
  have hpasses := h.passes
  obtain rfl := h.read
  rw [execProtElementConfig_eq]
  refine hpasses.answers (protGate_free h.free) rfl ((if_pos (by simp [h.isPoint])).trans ?_)
  exact if_neg (ne_true_of_eq_false hfit)

theorem PointAdmitted.exec_conflict (hno : pointConflict c k s = true) :
    execProtElementConfig c s = .next (answer 0x0B01 c .conflict [] s) := by
  have hpasses := h.passes
  obtain rfl := h.read
  rw [execProtElementConfig_eq]
  exact hpasses.answers (protGate_free h.free) rfl ((if_pos (by simp [h.isPoint])).trans (if_pos hno))

end

section
variable {e : ElCfg} (h : ElementAdmitted c s e)
include h

theorem ElementAdmitted.par_reset : (!(e.rmode == 2 && decide (1 ≤ e.tmode) && decide (e.tmode ≤ 4))) = true := by
  rcases h.resetTimed with hmode | hmode | hmode
  · simp [hmode]
  · simp [hmode]
  · simp [Nat.not_le.mpr hmode]

theorem ElementAdmitted.par_fast : (!e.fast || ([1, 2, 10, 11].contains e.type && e.tmode == 0)) = true := by
  rcases h.fast with hslow | ⟨htype, hmode⟩
  · simp only [hslow, Bool.not_false, Bool.true_or]
  · simp only [htype, hmode, beq_self_eq_true, Bool.and_self, Bool.or_true]

theorem ElementAdmitted.par_pickup :
    (if e.type = 12 then e.pu == 0 else decide (1 ≤ e.pu) && ([7, 8, 9].contains e.type || decide (e.pu < 2 ^ 31))) = true := by
  rcases h.pickup with ⟨htype, hpu⟩ | ⟨htype, hlow, hfit⟩
  · rw [if_pos htype, hpu]
    rfl
  · rw [if_neg htype]
    rcases hfit with hfit | hfit
    · simp only [hlow, hfit, decide_true, Bool.true_or, Bool.and_self]
    · simp only [hlow, hfit, decide_true, Bool.or_true, Bool.and_self]

theorem ElementAdmitted.par : elementPar c e = true := by
  have htimed : (e.tmode == 0 || decide (e.type ≤ 4)) = true := by simpa using h.timed
  have hblocker : (decide (e.blkel < 96) || e.blkel == 0xFF) = true := by simpa using h.blocker
  have hconfirmer : (decide (e.confel < 96) || e.confel == 0xFF) = true := by simpa using h.confirmer
  simp only [elementPar, h.number, h.typeLow, h.typeHigh, h.flags, h.point, h.quantity, h.timing, htimed, h.reset, h.par_reset, h.par_fast,
    h.par_pickup, h.dropLow, h.dropHigh, h.confirmLow, h.confirmHigh, hblocker, bne_iff_ne.mpr h.blockerOther, h.delay, h.multiplierLow,
    h.multiplierHigh, h.resetTime, h.angle, h.sectorLow, h.sectorHigh, h.polarising, h.memory, h.channels, hconfirmer,
    bne_iff_ne.mpr h.confirmerOther, h.reserved, decide_true, Bool.and_self]

theorem ElementAdmitted.passes : (elementGate c s).Passes c s := by
  have hpar := h.par
  obtain rfl := h.read
  refine ProtOpen.passes_inline (by decide) h.opened h.params ?_
  simp [h.isElement, hpar]

/-- The command answers what its action on the element does. -/
theorem ElementAdmitted.exec_eq {st : Status} {r : Bytes} (hact : elementAct c e s = ⟨t, st, r, false⟩) :
    execProtElementConfig c s = .next (answer 0x0B01 c st r t) := by
  have hpasses := h.passes
  obtain rfl := h.read
  rw [execProtElementConfig_eq]
  exact hpasses.answers (protGate_free h.free) rfl ((if_neg (by simp [h.isElement])).trans hact)

theorem ElementAdmitted.exec_conflict (hno : elementConflict e s = true) :
    execProtElementConfig c s = .next (answer 0x0B01 c .conflict [] s) := h.exec_eq (if_pos hno)

variable (hfit : elementConflict e s = false) (ht : t = elementStaged c e s)
include hfit ht

theorem ElementAdmitted.exec_stages (hroom : fastCount (protShadow t) ≤ 24) :
    execProtElementConfig c s = .next (answer 0x0B01 c .ok (le 1 (fastCount (protShadow t))) t) := by
  subst ht
  exact h.exec_eq ((if_neg (ne_true_of_eq_false hfit)).trans (if_neg (Nat.not_lt.mpr hroom)))

theorem ElementAdmitted.exec_exhausted (hfull : 24 < fastCount (protShadow t)) :
    execProtElementConfig c s = .next (answer 0x0B01 c .exhausted [] s) := by
  subst ht
  exact h.exec_eq ((if_neg (ne_true_of_eq_false hfit)).trans (if_pos hfull))

end

/-! ### PROT_CURVE_LOAD -/

/-- The points of a curve. -/
def curveRead (c : Cmd) : List (Nat × Nat) := (List.range 64).map (fun i => (c.u32 (8 * i), c.u32 (8 * i + 4)))

theorem execProtCurveLoad_stages (hopen : ProtOpen c s) (hparams : External c (fun n => n == 512)) (hfree : setHeld s 6 = false)
    (hfirst : 2 ^ 24 ≤ c.u32 0) (hrange : (curveRead c).all (fun p => 1 ≤ p.2 && p.2 ≤ 100000000) = true)
    (hfalls : pairsMeet (fun a b => a.1 < b.1 && b.2 ≤ a.2) (curveRead c) = true) : execProtCurveLoad c s =
      .next (answer 0x0B02 c .ok (le 4 (c.u32 0)) (protStage c.params (fun p => { p with curve := curveRead c }) s)) := by
  have hpar : (decide (2 ^ 24 ≤ c.u32 0) && (curveRead c).all (fun p => 1 ≤ p.2 && p.2 ≤ 100000000) &&
      pairsMeet (fun a b => a.1 < b.1 && b.2 ≤ a.2) (curveRead c)) = true := by
    simp only [hfirst, hrange, hfalls, decide_true, Bool.and_self]
  unfold execProtCurveLoad
  exact (ProtOpen.passes_external (by decide) hopen hparams hpar).answers (protGate_free hfree) rfl rfl

/-! ### PROT_TRIP_MAP -/

/-- The parameters of an output. -/
def tripRead (c : Cmd) : TripCfg := {
  on := bit (c.u8 1) 0, latch := bit (c.u8 1) 1, sup := bit (c.u8 1) 2, tmin := c.u16 2, op := rd c.params 4 12, st := rd c.params 16 12,
  alarms := c.u8 28, ttcs := c.u16 32, susp := c.u16 34 }

/-- PROT_TRIP_MAP gives an output the parameters `k`, in range. -/
structure TripMapAdmitted (c : Cmd) (s : State) (k : TripCfg) : Prop where
  read : k = tripRead c
  opened : ProtOpen c s
  params : Inline c 36
  output : c.u8 0 < 16
  flags : c.u8 1 < 8
  pulse : k.tmin ≤ 10000
  alarms : k.alarms < 4
  superviseLow : 20 ≤ k.ttcs
  superviseHigh : k.ttcs ≤ 10000
  suspend : k.susp ≤ 10000
  reserved : c.rsv 29 3 = true

/-- The range check of PROT_TRIP_MAP. -/
def tripMapPar (c : Cmd) (k : TripCfg) : Bool :=
  c.u8 0 < 16 && c.u8 1 < 8 && k.tmin ≤ 10000 && k.alarms < 4 && 20 ≤ k.ttcs && k.ttcs ≤ 10000 && k.susp ≤ 10000 && c.rsv 29 3

section
variable {k : TripCfg} (h : TripMapAdmitted c s k)
include h

theorem TripMapAdmitted.par : tripMapPar c k = true := by
  simp only [tripMapPar, h.output, h.flags, h.pulse, h.alarms, h.superviseLow, h.superviseHigh, h.suspend, h.reserved, decide_true,
    Bool.and_self]

theorem TripMapAdmitted.exec_stages (hfree : setHeld s 6 = false) : execProtTripMap c s =
    .next (answer 0x0B03 c .ok [] (protStage c.params (fun p => { p with trip := tset p.trip (c.u8 0) k }) s)) := by
  have hpar := h.par
  obtain rfl := h.read
  unfold execProtTripMap
  exact (ProtOpen.passes_inline (by decide) h.opened h.params hpar).answers (protGate_free hfree) rfl rfl

theorem TripMapAdmitted.exec_busy (hheld : setHeld s 6 = true) : execProtTripMap c s = .next (answer 0x0B03 c .busy [] s) := by
  have hpar := h.par
  obtain rfl := h.read
  unfold execProtTripMap
  exact (ProtOpen.passes_inline (by decide) h.opened h.params hpar).busy (by simp [protGate, hheld])

end

/-! ### PROT_TRIP_RESET -/

/-- The outputs of the mask. -/
def resetNamed (c : Cmd) : List Nat := (List.range 16).filter (bit (c.u16 0))

/-- The latches of the outputs named are cleared, and outputs and record follow. -/
def latchesCleared (c : Cmd) (s : State) : State :=
  recLook (base s 0).val (tripsStep ((resetNamed c).foldl (fun t o => tripUpd o (fun x => { x with latch := false }) t) s))

section
variable (h : MprServed 4 c s) (hrsv : c.rsv 2 2 = true)
include h hrsv

theorem execProtTripReset_active (hwant : (resetNamed c).any (fun o => (tripWant s (tripCfg s o)).1) = true) :
    execProtTripReset c s = .next (answer 0x0B04 c .tripActive [] s) := by
  unfold execProtTripReset
  exact (h.passes hrsv).answers rfl rfl (if_pos hwant)

variable (hidle : (resetNamed c).any (fun o => (tripWant s (tripCfg s o)).1) = false)
include hidle

theorem execProtTripReset_conflict (hclear : (resetNamed c).any (fun o => !(tripGet s o).latch) = true) :
    execProtTripReset c s = .next (answer 0x0B04 c .conflict [] s) := by
  unfold execProtTripReset
  exact (h.passes hrsv).answers rfl rfl ((if_neg (ne_true_of_eq_false hidle)).trans (if_pos hclear))

theorem execProtTripReset_clears (hlatched : (resetNamed c).any (fun o => !(tripGet s o).latch) = false) (ht : t = latchesCleared c s) :
    execProtTripReset c s = .next (answer 0x0B04 c .ok (le 2 (maskOf ((List.range 16).filter (fun o => (tripGet t o).latch)))) t) := by
  subst ht
  unfold execProtTripReset
  exact (h.passes hrsv).answers rfl rfl ((if_neg (ne_true_of_eq_false hidle)).trans (if_neg (ne_true_of_eq_false hlatched)))

end

/-! ### PROT_RECORD_CONFIG -/

/-- The parameters of the disturbance recorder. -/
def recorderRead (c : Cmd) : RecCfg := {
  store := c.u32 0, pre := c.u16 4, post := c.u16 6, maxLen := c.u16 8, retrig := bit (c.u8 10) 0, excess := bit (c.u8 10) 1,
  stT := rd c.params 12 12, opT := rd c.params 24 12, tripT := c.u16 36, station := (c.params.drop 40).take 32,
  an := (List.range (c.u8 11)).map (fun j => ⟨c.u8 (72 + 16 * j), c.u8 (73 + 16 * j), c.u32 (74 + 16 * j), (c.params.drop (80 + 16 * j)).take 4⟩) }

/-- A block of PROT_RECORD_CONFIG has one entry for each analogue channel. -/
def recorderLength (c : Cmd) (n : Nat) : Bool :=
  72 ≤ n && n ≤ 72 + 16 * 32 && (n - 72) % 16 == 0 && (32 < c.u8 11 || n == 72 + 16 * c.u8 11)

/-- The entries of the analogue channels are in range. -/
def analogueFit (c : Cmd) : Bool :=
  (List.range (c.u8 11)).all (fun j => c.u8 (72 + 16 * j) < 16 && c.u8 (73 + 16 * j) < 8 && c.rsv (78 + 16 * j) 2 && c.rsv (84 + 16 * j) 4)

/-- The range check of PROT_RECORD_CONFIG. -/
def recorderPar (c : Cmd) (k : RecCfg) : Bool :=
  16 ≤ k.store && k.store ≤ 1024 && k.pre ≤ 5000 && 10 ≤ k.post && k.post ≤ 10000 && k.pre + k.post ≤ k.maxLen && k.maxLen ≤ 60000 &&
    c.u8 10 < 4 && c.u8 11 ≤ 32 && c.rsv 38 2 && asciiOk k.station && analogueFit c

/-- PROT_RECORD_CONFIG gives the recorder the parameters `k`, in range. -/
structure RecorderAdmitted (c : Cmd) (s : State) (k : RecCfg) : Prop where
  read : k = recorderRead c
  opened : ProtOpen c s
  params : External c (recorderLength c)
  analogues : c.u8 11 ≤ 32
  storeLow : 16 ≤ k.store
  storeHigh : k.store ≤ 1024
  before : k.pre ≤ 5000
  afterLow : 10 ≤ k.post
  afterHigh : k.post ≤ 10000
  lengthLow : k.pre + k.post ≤ k.maxLen
  lengthHigh : k.maxLen ≤ 60000
  flags : c.u8 10 < 4
  reserved : c.rsv 38 2 = true
  station : asciiOk k.station = true
  fit : analogueFit c = true
  free : setHeld s 6 = false

section
variable {k : RecCfg} (h : RecorderAdmitted c s k)
include h

theorem RecorderAdmitted.par : recorderPar c k = true := by
  simp only [recorderPar, h.storeLow, h.storeHigh, h.before, h.afterLow, h.afterHigh, h.lengthLow, h.lengthHigh, h.flags, h.analogues, h.reserved,
    h.station, h.fit, decide_true, Bool.and_self]

theorem RecorderAdmitted.exec_stages (hroom : k.store ≤ dramLeft s) : execProtRecordConfig c s =
    .next (answer 0x0B05 c .ok (le 4 (8000 * sampleBytes k)) (protStage c.params (fun p => { p with recs := k }) s)) := by
  have hpar := h.par
  obtain rfl := h.read
  unfold execProtRecordConfig
  exact (ProtOpen.passes_external (by decide) h.opened h.params hpar).answers (protGate_free h.free) rfl (if_neg (Nat.not_lt.mpr hroom))

theorem RecorderAdmitted.exec_exhausted (hfull : dramLeft s < k.store) : execProtRecordConfig c s = .next (answer 0x0B05 c .exhausted [] s) := by
  have hpar := h.par
  obtain rfl := h.read
  unfold execProtRecordConfig
  exact (ProtOpen.passes_external (by decide) h.opened h.params hpar).answers (protGate_free h.free) rfl (if_pos hfull)

end

/-! ### PROT_RECORD_EXPORT -/

/-- The bytes of the record that the command asks for. -/
def exportBytes (c : Cmd) (s : State) (r : DRec) : Bytes := ((exportPart (c.u8 2) s r).drop (c.u32 4)).take (c.u32 16)

/-- The result of a record written out as the bytes `w`. -/
def exportResult (c : Cmd) (s : State) (r : DRec) (w : Bytes) : Bytes :=
  le 4 (exportPart (c.u8 2) s r).length ++ le 4 w.length ++ le 4 (crc32c w).toNat ++ le 2 r.num

/-- The record that the command names; a manual trigger names none. -/
def exportNamed (c : Cmd) (s : State) : Option DRec := if c.u8 2 = 3 then none else recFind s (c.u16 0)

/-- The gate of PROT_RECORD_EXPORT. -/
def exportGate (c : Cmd) (s : State) : Gate := {
  opcode := 0x0B06, len := c.inl 20, fitted := mprOk s, legal := notBoot,
  par := c.u8 2 < 4 && c.rsv 3 1 && c.u64 8 % 64 == 0 && (c.u8 2 == 3 || c.u64 8 != 0),
  free := (exportNamed c s).all (fun r => !held s (.record r.num)),
  pends := c.u32 4 ≤ ((exportNamed c s).elim [] (exportPart (c.u8 2) s)).length &&
    1048576 < ((((exportNamed c s).elim [] (exportPart (c.u8 2) s)).drop (c.u32 4)).take (c.u32 16)).length }

/-- A manual trigger (assumption 158). -/
def manualAct (s : State) : Reply :=
  let t := recTrigger 0x300 true (base s 0).val s
  if t.prot.recs.length = s.prot.recs.length && t.prot.recs.getLast?.elim true (·.closed) then ⟨t, .conflict, [], false⟩
  else okReply t (le 12 0 ++ le 2 (t.prot.recs.getLastD { num := 0 }).num)

/-- The record `r` written out, under the gate `g`. -/
def exportAct (g : Gate) (c : Cmd) (s : State) (r : DRec) : Reply :=
  if (exportPart (c.u8 2) s r).length < c.u32 4 then ⟨s, .conflict, [], false⟩
  else if 1048576 < (exportBytes c s r).length then
    ⟨goPending g c [.record r.num] r.num (some (.ok, exportResult c s r (exportBytes c s r))) (putBuf (c.u64 8) (exportBytes c s r) s),
      .pending, [], false⟩
  else okReply (putBuf (c.u64 8) (exportBytes c s r) s) (exportResult c s r (exportBytes c s r))

/-- What PROT_RECORD_EXPORT does, under the gate `g`. -/
def recordAct (g : Gate) (c : Cmd) (s : State) : Reply :=
  if c.u8 2 = 3 then manualAct s
  else
    match recFind s (c.u16 0) with
    | none => ⟨s, .conflict, [], false⟩
    | some r => exportAct g c s r

theorem execProtRecordExport_eq : execProtRecordExport c s = runCmd (exportGate c s) c s (recordAct (exportGate c s) c) := rfl

section
variable (h : MprServed 20 c s) (hrsv : c.rsv 3 1 = true) (haligned : c.u64 8 % 64 = 0)
include h hrsv haligned

/-- PROT_RECORD_EXPORT names a part and, but for a trigger, a buffer. -/
theorem exportGate_passes (hpart : c.u8 2 < 4) (hnamed : c.u8 2 = 3 ∨ c.u64 8 ≠ 0) : (exportGate c s).Passes c s := by
  refine Gate.OpenIn.passes ⟨rfl, rfl, rfl, rfl, rfl⟩ (admits_of_serving h.serving h.mailbox) (.of_inline h.params rfl) h.mpr ?_
  simp only [exportGate, hpart, hrsv, haligned, decide_true, beq_self_eq_true, Bool.and_self, Bool.true_and]
  simpa using hnamed

theorem execProtRecordExport_triggers (hpart : c.u8 2 = 3) {st : Status} {r : Bytes} (hact : manualAct s = ⟨t, st, r, false⟩) :
    execProtRecordExport c s = .next (answer 0x0B06 c st r t) := by
  have hnone : exportNamed c s = none := if_pos hpart
  have hpasses := exportGate_passes h hrsv haligned (by omega) (.inl hpart)
  rw [execProtRecordExport_eq]
  refine hpasses.answers ?_ ?_ ((if_pos hpart).trans hact)
  · simp [exportGate, hnone]
  · simp [exportGate, hnone]

variable (hpart : c.u8 2 < 3) (hbuf : c.u64 8 ≠ 0)
include hpart hbuf

theorem execProtRecordExport_none (hfind : recFind s (c.u16 0) = none) :
    execProtRecordExport c s = .next (answer 0x0B06 c .conflict [] s) := by
  have hnone : exportNamed c s = none := (if_neg (by omega)).trans hfind
  have hpasses := exportGate_passes h hrsv haligned (by omega) (.inr hbuf)
  rw [execProtRecordExport_eq]
  refine hpasses.answers ?_ ?_ ((if_neg (by omega)).trans ?_)
  · simp [exportGate, hnone]
  · simp [exportGate, hnone]
  · simp only [hfind]

variable {r : DRec} (hfind : recFind s (c.u16 0) = some r)
include hfind

theorem execProtRecordExport_busy (hheld : held s (.record r.num) = true) :
    execProtRecordExport c s = .next (answer 0x0B06 c .busy [] s) := by
  have hnamed : exportNamed c s = some r := (if_neg (by omega)).trans hfind
  have hpasses := exportGate_passes h hrsv haligned (by omega) (.inr hbuf)
  rw [execProtRecordExport_eq]
  exact hpasses.busy (by simp [exportGate, hnamed, hheld])

variable (hfree : held s (.record r.num) = false)
include hfree

/-- A record that no command holds is exported; a long record asks for a PENDING place. -/
theorem execProtRecordExport_exports {st : Status} {q : Bytes} (hact : exportAct (exportGate c s) c s r = ⟨t, st, q, false⟩)
    (hpend : (decide (c.u32 4 ≤ (exportPart (c.u8 2) s r).length) && decide (1048576 < (exportBytes c s r).length) &&
      decide (8 ≤ pendCount s c.mb)) = false) : execProtRecordExport c s = .next (answer 0x0B06 c st q t) := by
  have hnamed : exportNamed c s = some r := (if_neg (by omega)).trans hfind
  have hpasses := exportGate_passes h hrsv haligned (by omega) (.inr hbuf)
  rw [execProtRecordExport_eq]
  refine hpasses.answers ?_ ?_ ((if_neg (by omega)).trans ?_)
  · simp [exportGate, hnamed, hfree]
  · simp only [exportGate, hnamed]
    exact hpend
  · simp only [hfind]
    exact hact

end

/-! ### PROT_STATUS -/

/-- The result of PROT_STATUS. -/
def protStatusResult (s : State) : Bytes :=
  le 1 (if s.prot.stopped then 2 else b2n s.prot.running) ++ le 1 (fastCount s.prot.act) ++
  le 2 ((s.prot.el.filter (fun e => e.2.state == .started)).length) ++ le 2 ((s.prot.el.filter (fun e => e.2.state == .operated)).length) ++
  le 2 ((s.prot.el.filter (fun e => e.2.state == .unavailable)).length) ++ le 2 (s.prot.trip.filter (fun e => e.2.latch)).length ++
  le 2 (s.prot.trip.filter (fun e => e.2.coil)).length ++ le 2 (s.prot.recs.filter (·.closed)).length ++ le 2 (min 65535 s.prot.lostT) ++
  le 4 s.tick.index

/-- The tables that PROT_STATUS writes: of the elements, the outputs, the records and the operations. -/
def elementTable (s : State) : Bytes :=
  (List.range 96).flatMap (fun n => le 1 (elGet s n).state.code ++ le 1 (elCfg s n).type ++ le 1 (elGet s n).phases ++ le 1 0 ++
    leS 4 (satS 32 ((elGet s n).integ / (2 ^ 40 : Nat))) ++ leS 4 (elGet s n).qty ++ le 4 (elGet s n).timer)

def outputTable (s : State) : Bytes :=
  (List.range 16).flatMap (fun o => le 1 (b2n (tripGet s o).level) ++ le 1 (b2n (tripGet s o).latch) ++ le 1 (b2n (tripGet s o).coil) ++
    le 1 0 ++ le 4 (tripGet s o).rises ++ le 4 (tripGet s o).riseTick ++ le 4 (tminLeft s o))

def recordTable (s : State) : Bytes := (List.range 64).flatMap (fun n => s.prot.recs[n]?.elim (List.replicate 32 0) DRec.header)

def operationTable (s : State) : Bytes :=
  (List.range 256).flatMap (fun n => s.prot.log[n]?.elim (List.replicate 32 0) (fun l => l.time.bytes ++ le 1 l.inst ++ le 1 l.type ++
    le 1 l.phases ++ le 1 0 ++ le 2 l.outs ++ le 2 0 ++ le 4 l.qty ++ le 8 l.tick))

/-- The table of a kind. -/
def protTable (kind : Nat) (s : State) : Bytes :=
  match kind with
  | 1 => elementTable s
  | 2 => outputTable s
  | 3 => recordTable s
  | 4 => operationTable s
  | _ => []

theorem execProtStatus_reads (h : MprServed 12 c s) (hrsv : c.rsv 1 3 = true) (haligned : c.u64 4 % 64 = 0) (hkind : c.u8 0 < 5)
    (ht : (if c.u64 4 = 0 ∨ c.u8 0 = 0 then s else putBuf (c.u64 4) (withCrc (protTable (c.u8 0) s)) s) = t) :
    execProtStatus c s = .next (answer 0x0B07 c .ok (protStatusResult s) t) := by
  subst ht
  have hpar : (decide (c.u8 0 < 5) && c.rsv 1 3 && c.u64 4 % 64 == 0) = true := by simp [hkind, hrsv, haligned]
  unfold execProtStatus
  exact (h.passes hpar).answers rfl rfl rfl

section
variable (h : MprServed 12 c s) (hrsv : c.rsv 1 3 = true) (haligned : c.u64 4 % 64 = 0) (hbuf : c.u64 4 ≠ 0)
include h hrsv haligned hbuf

theorem execProtStatus_writes {kind : Nat} {w : Bytes} (hkind : c.u8 0 = kind) (hlow : 1 ≤ kind) (hhigh : kind < 5) (hw : protTable kind s = w) :
    execProtStatus c s = .next (answer 0x0B07 c .ok (protStatusResult s) (putBuf (c.u64 4) (withCrc w) s)) := by
  subst hkind hw
  exact execProtStatus_reads h hrsv haligned hhigh (if_neg (by omega))

theorem execProtStatus_elements (hkind : c.u8 0 = 1) :
    execProtStatus c s = .next (answer 0x0B07 c .ok (protStatusResult s) (putBuf (c.u64 4) (withCrc (elementTable s)) s)) :=
  execProtStatus_writes h hrsv haligned hbuf hkind (by omega) (by omega) rfl

theorem execProtStatus_outputs (hkind : c.u8 0 = 2) :
    execProtStatus c s = .next (answer 0x0B07 c .ok (protStatusResult s) (putBuf (c.u64 4) (withCrc (outputTable s)) s)) :=
  execProtStatus_writes h hrsv haligned hbuf hkind (by omega) (by omega) rfl

theorem execProtStatus_records (hkind : c.u8 0 = 3) :
    execProtStatus c s = .next (answer 0x0B07 c .ok (protStatusResult s) (putBuf (c.u64 4) (withCrc (recordTable s)) s)) :=
  execProtStatus_writes h hrsv haligned hbuf hkind (by omega) (by omega) rfl

theorem execProtStatus_operations (hkind : c.u8 0 = 4) :
    execProtStatus c s = .next (answer 0x0B07 c .ok (protStatusResult s) (putBuf (c.u64 4) (withCrc (operationTable s)) s)) :=
  execProtStatus_writes h hrsv haligned hbuf hkind (by omega) (by omega) rfl

end

/-! ### Without an MPR -/

section
variable (hserving : Serving s) (hmb : c.mb ≠ 0) (hmpr : mprOk s = false)
include hserving hmb hmpr

theorem execProtElementConfig_not_fitted (hinline : Inline c 40) : execProtElementConfig c s = .next (answer 0x0B01 c .notFitted [] s) := by
  unfold execProtElementConfig
  exact runCmd_inline_not_fitted hserving hmb rfl rfl rfl hinline hmpr

theorem execProtCurveLoad_not_fitted (hblock : External c (fun n => n == 512)) :
    execProtCurveLoad c s = .next (answer 0x0B02 c .notFitted [] s) := by
  unfold execProtCurveLoad
  exact runCmd_external_not_fitted hserving hmb rfl rfl rfl hblock hmpr

theorem execProtTripMap_not_fitted (hinline : Inline c 36) : execProtTripMap c s = .next (answer 0x0B03 c .notFitted [] s) := by
  unfold execProtTripMap
  exact runCmd_inline_not_fitted hserving hmb rfl rfl rfl hinline hmpr

theorem execProtTripReset_not_fitted (hinline : Inline c 4) : execProtTripReset c s = .next (answer 0x0B04 c .notFitted [] s) := by
  unfold execProtTripReset
  exact runCmd_inline_not_fitted hserving hmb rfl rfl rfl hinline hmpr

theorem execProtRecordConfig_not_fitted (hblock : External c (recorderLength c)) :
    execProtRecordConfig c s = .next (answer 0x0B05 c .notFitted [] s) := by
  unfold execProtRecordConfig
  exact runCmd_external_not_fitted hserving hmb rfl rfl rfl hblock hmpr

theorem execProtRecordExport_not_fitted (hinline : Inline c 20) : execProtRecordExport c s = .next (answer 0x0B06 c .notFitted [] s) := by
  unfold execProtRecordExport
  exact runCmd_inline_not_fitted hserving hmb rfl rfl rfl hinline hmpr

theorem execProtStatus_not_fitted (hinline : Inline c 12) : execProtStatus c s = .next (answer 0x0B07 c .notFitted [] s) := by
  unfold execProtStatus
  exact runCmd_inline_not_fitted hserving hmb rfl rfl rfl hinline hmpr

end

/-- Settles O39: each command through its gate. A manual trigger that cannot start, exports beyond 1 MiB and the least TMS code are
assumptions 158, 45 and 165. -/
theorem protectionCommandsStageResetAndExport : Obligations.ProtectionCommandsStageResetAndExport := by
  unfold Obligations.ProtectionCommandsStageResetAndExport
  refine ⟨?point, ?pointConflict, ?element, ?elementConflict, ?elementFull, ?curve, ?trip, ?tripBusy, ?resetActive, ?resetConflict, ?resets,
    ?recorder, ?recorderFull, ?exports, ?exportsLong, ?exportShort, ?exportBusy, ?exportNone, ?triggers, ?triggerConflict, ?status, ?elements,
    ?outputs, ?records, ?log, ?noElement, ?noCurve, ?noTrip, ?noReset, ?noRecorder, ?noExport, ?noStatus⟩
  case point =>
    exact fun c s k hk hadmits hmpr hinline h0 h1 h2 h3 h4 h5 h6 h7 h8 h9 h10 h11 h12 hfree hfit =>
      PointAdmitted.exec_stages ⟨hk, ⟨hadmits, hmpr⟩, hinline, h0, h1, h2, h3, h4, h5, h6, h7, h8, h9, h10, h11, h12, hfree⟩ hfit rfl
  case pointConflict =>
    exact fun c s k hk hadmits hmpr hinline h0 h1 h2 h3 h4 h5 h6 h7 h8 h9 h10 h11 h12 hfree hno =>
      PointAdmitted.exec_conflict ⟨hk, ⟨hadmits, hmpr⟩, hinline, h0, h1, h2, h3, h4, h5, h6, h7, h8, h9, h10, h11, h12, hfree⟩ hno
  case element =>
    exact fun c s u e he hadmits hmpr hinline h0 h1 h2 h3 h4 h5 h6 h7 h8 h9 h10 h11 h12 h13 h14 h15 h16 h17 h18 h19 h20 h21 h22 h23 h24 h25 h26
        h27 h28 h29 h30 h31 hfree hu hfit hroom =>
      ElementAdmitted.exec_stages ⟨he, ⟨hadmits, hmpr⟩, hinline, h0, h1, h2, h3, h4, h5, h6, h7, h8, h9, h10, h11, h12, h13, h14, h15, h16, h17,
        h18, h19, h20, h21, h22, h23, h24, h25, h26, h27, h28, h29, h30, h31, hfree⟩ hfit hu hroom
  case elementConflict =>
    exact fun c s e he hadmits hmpr hinline h0 h1 h2 h3 h4 h5 h6 h7 h8 h9 h10 h11 h12 h13 h14 h15 h16 h17 h18 h19 h20 h21 h22 h23 h24 h25 h26
        h27 h28 h29 h30 h31 hfree hno =>
      ElementAdmitted.exec_conflict ⟨he, ⟨hadmits, hmpr⟩, hinline, h0, h1, h2, h3, h4, h5, h6, h7, h8, h9, h10, h11, h12, h13, h14, h15, h16,
        h17, h18, h19, h20, h21, h22, h23, h24, h25, h26, h27, h28, h29, h30, h31, hfree⟩ hno
  case elementFull =>
    exact fun c s u e he hadmits hmpr hinline h0 h1 h2 h3 h4 h5 h6 h7 h8 h9 h10 h11 h12 h13 h14 h15 h16 h17 h18 h19 h20 h21 h22 h23 h24 h25 h26
        h27 h28 h29 h30 h31 hfree hu hfit hfull =>
      ElementAdmitted.exec_exhausted ⟨he, ⟨hadmits, hmpr⟩, hinline, h0, h1, h2, h3, h4, h5, h6, h7, h8, h9, h10, h11, h12, h13, h14, h15, h16,
        h17, h18, h19, h20, h21, h22, h23, h24, h25, h26, h27, h28, h29, h30, h31, hfree⟩ hfit hu hfull
  case curve =>
    intro c s l hl hadmits hmpr hblock hfree hfirst hrange hfalls
    subst hl
    exact execProtCurveLoad_stages ⟨hadmits, hmpr⟩ hblock hfree hfirst hrange hfalls
  case trip =>
    exact fun c s k hk hadmits hmpr hinline hfree h0 h1 h2 h3 h4 h5 h6 h7 =>
      TripMapAdmitted.exec_stages ⟨hk, ⟨hadmits, hmpr⟩, hinline, h0, h1, h2, h3, h4, h5, h6, h7⟩ hfree
  case tripBusy =>
    exact fun c s k hk hadmits hmpr hinline hheld h0 h1 h2 h3 h4 h5 h6 h7 =>
      TripMapAdmitted.exec_busy ⟨hk, ⟨hadmits, hmpr⟩, hinline, h0, h1, h2, h3, h4, h5, h6, h7⟩ hheld
  case resetActive =>
    exact fun c s hserving hinline hmb hmpr hrsv hwant => execProtTripReset_active ⟨hserving, hinline, hmb, hmpr⟩ hrsv hwant
  case resetConflict =>
    exact fun c s hserving hinline hmb hmpr hrsv hidle hclear =>
      execProtTripReset_conflict ⟨hserving, hinline, hmb, hmpr⟩ hrsv hidle hclear
  case resets =>
    exact fun c s v hserving hinline hmb hmpr hrsv hidle hlatched hv =>
      execProtTripReset_clears ⟨hserving, hinline, hmb, hmpr⟩ hrsv hidle hlatched hv
  case recorder =>
    exact fun c s k hk hadmits hmpr hblock h0 h1 h2 h3 h4 h5 h6 h7 h8 h9 h10 h11 hfree hroom =>
      RecorderAdmitted.exec_stages ⟨hk, ⟨hadmits, hmpr⟩, hblock, h0, h1, h2, h3, h4, h5, h6, h7, h8, h9, h10, h11, hfree⟩ hroom
  case recorderFull =>
    exact fun c s k hk hadmits hmpr hblock h0 h1 h2 h3 h4 h5 h6 h7 h8 h9 h10 h11 hfree hfull =>
      RecorderAdmitted.exec_exhausted ⟨hk, ⟨hadmits, hmpr⟩, hblock, h0, h1, h2, h3, h4, h5, h6, h7, h8, h9, h10, h11, hfree⟩ hfull
  case exports =>
    intro c s r w hserving hinline hmb hmpr hpart hrsv haligned hbuf hfind hfree hoff hw hshort
    subst hw
    exact execProtRecordExport_exports ⟨hserving, hinline, hmb, hmpr⟩ hrsv haligned hpart hbuf hfind hfree
      ((if_neg (Nat.not_lt.mpr hoff)).trans (if_neg (Nat.not_lt.mpr hshort))) (by simp [exportBytes] at hshort ⊢; omega)
  case exportsLong =>
    intro c s r w hserving hinline hmb hmpr hpart hrsv haligned hbuf hfind hfree hoff hw hlong hpend
    subst hw
    exact execProtRecordExport_exports ⟨hserving, hinline, hmb, hmpr⟩ hrsv haligned hpart hbuf hfind hfree
      ((if_neg (Nat.not_lt.mpr hoff)).trans (if_pos hlong)) (by simp [Nat.not_le.mpr hpend])
  case exportShort =>
    exact fun c s r hserving hinline hmb hmpr hpart hrsv haligned hbuf hfind hfree hoff =>
      execProtRecordExport_exports ⟨hserving, hinline, hmb, hmpr⟩ hrsv haligned hpart hbuf hfind hfree (if_pos hoff)
        (by simp [Nat.not_le.mpr hoff])
  case exportBusy =>
    exact fun c s r hserving hinline hmb hmpr hpart hrsv haligned hbuf hfind hheld =>
      execProtRecordExport_busy ⟨hserving, hinline, hmb, hmpr⟩ hrsv haligned hpart hbuf hfind hheld
  case exportNone =>
    exact fun c s hserving hinline hmb hmpr hpart hrsv haligned hbuf hfind =>
      execProtRecordExport_none ⟨hserving, hinline, hmb, hmpr⟩ hrsv haligned hpart hbuf hfind
  case triggers =>
    intro c s v hserving hinline hmb hmpr hpart hrsv haligned hv hroom
    subst hv
    exact execProtRecordExport_triggers ⟨hserving, hinline, hmb, hmpr⟩ hrsv haligned hpart (if_neg (ne_true_of_eq_false hroom))
  case triggerConflict =>
    intro c s v hserving hinline hmb hmpr hpart hrsv haligned hv hfull
    subst hv
    exact execProtRecordExport_triggers ⟨hserving, hinline, hmb, hmpr⟩ hrsv haligned hpart (if_pos hfull)
  case status =>
    exact fun c s hserving hinline hmb hmpr hrsv haligned hkind hnone =>
      execProtStatus_reads ⟨hserving, hinline, hmb, hmpr⟩ hrsv haligned hkind (if_pos hnone)
  case elements =>
    exact fun c s hserving hinline hmb hmpr hrsv haligned hkind hbuf =>
      execProtStatus_elements ⟨hserving, hinline, hmb, hmpr⟩ hrsv haligned hbuf hkind
  case outputs =>
    exact fun c s hserving hinline hmb hmpr hrsv haligned hkind hbuf =>
      execProtStatus_outputs ⟨hserving, hinline, hmb, hmpr⟩ hrsv haligned hbuf hkind
  case records =>
    exact fun c s hserving hinline hmb hmpr hrsv haligned hkind hbuf =>
      execProtStatus_records ⟨hserving, hinline, hmb, hmpr⟩ hrsv haligned hbuf hkind
  case log =>
    exact fun c s hserving hinline hmb hmpr hrsv haligned hkind hbuf =>
      execProtStatus_operations ⟨hserving, hinline, hmb, hmpr⟩ hrsv haligned hbuf hkind
  case noElement => exact fun c s hserving hmb hinline hmpr => execProtElementConfig_not_fitted hserving hmb hmpr hinline
  case noCurve => exact fun c s hserving hmb hblock hmpr => execProtCurveLoad_not_fitted hserving hmb hmpr hblock
  case noTrip => exact fun c s hserving hmb hinline hmpr => execProtTripMap_not_fitted hserving hmb hmpr hinline
  case noReset => exact fun c s hserving hmb hinline hmpr => execProtTripReset_not_fitted hserving hmb hmpr hinline
  case noRecorder => exact fun c s hserving hmb hblock hmpr => execProtRecordConfig_not_fitted hserving hmb hmpr hblock
  case noExport => exact fun c s hserving hmb hinline hmpr => execProtRecordExport_not_fitted hserving hmb hmpr hinline
  case noStatus => exact fun c s hserving hmb hinline hmpr => execProtStatus_not_fitted hserving hmb hmpr hinline

end Sys2Proof.Machine

/-! PROOFS. The cycles of the protection engine, its travelling-wave elements, timers and the end of a record (chapter 15, O40). -/

namespace Sys2Proof.Machine

open Sys2Proof

variable {s u : State} {k ch n : Nat}

/-! ### The slow cycle -/

/-- The engine's elements, in order. -/
def elementsRun (s : State) : List Nat := (s.prot.act.el.map (·.1)).filter (· < 96)

/-- The instants of slow cycle and fast cycle `k`, in 2^-32 ns. -/
def slowTime (k : Nat) : Nat := k * 125000 * 2 ^ 32

def fastTime (k : Nat) : Nat := k * 1000 * 2 ^ 32

/-- The points of slow cycle `k` are derived. -/
def slowPoints (k : Nat) (tcs : Word16) (s : State) : State :=
  s.onProt (fun p => { p with
    slowK := some k, tcs := tcs.toNat,
    pt := (List.range 16).filterMap (fun i =>
      if (ptCfg s i).kind = 0 then none else some (i, ptStep s (ptCfg s i) (slowTime k) (ptGet s i))) })

/-- An element at a slow cycle: `u` holds the points of the cycle, `s` the states at its start. -/
def slowElement (k : Nat) (s u w : State) (n : Nat) : State :=
  if (elCfg s n).fast then w
  else if (elCfg s n).type = 12 then twDrop n s w
  else
    elTake n (slowTime k)
      (elNext u.prot.act.curve (elCfg s n) (slowRead u (elCfg s n) (elGet u n)).1 (isBlocked s (elCfg s n)) true 125
        { elGet u n with memV := (slowRead u (elCfg s n) (elGet u n)).2 }) w

theorem execProtSlowCycle_idle {t : Word16} {b : Bool} (h : protRuns s = false ∨ s.prot.slowK.any (fun j => decide (k ≤ j)) = true) :
    execProtSlowCycle k t b s = .next s :=
  if_pos (by simpa only [Bool.not_eq_true'] using h)

theorem execProtSlowCycle_runs {t : Word16} {b : Bool} (hu : u = slowPoints k t s) (hruns : protRuns s = true)
    (hnew : s.prot.slowK.any (fun j => decide (k ≤ j)) = false) : execProtSlowCycle k t b s =
      .next (recStep b (slowTime k) (tripsStep ((elementsRun s).foldl (slowElement k s u) u))) := by
  subst hu
  exact if_neg (by simp only [hruns, hnew, Bool.not_true, Bool.false_eq_true, or_self, not_false_eq_true])

/-! ### The fast cycle -/

/-- The confirmations of a FAST element after this evaluation. -/
def fastConfirmed (s : State) (n : Nat) : Tbl Nat := fastConf (elCfg s n) (fastPlaces s (elCfg s n)) (elGet s n).conf

/-- An element at a fast cycle. -/
def fastElement (k : Nat) (s w : State) (n : Nat) : State :=
  if (elCfg s n).type = 12 then twConfirm s n (fastTime k) w
  else if !(elCfg s n).fast then w
  else
    elTake n (fastTime k)
      (elNext [] (elCfg s n) (fastRead s (elCfg s n) (fastConfirmed s n)) (isBlocked s (elCfg s n)) false 1
        { elGet s n with conf := fastConfirmed s n }) w

theorem execProtFastCycle_idle (h : protRuns s = false ∨ s.prot.fastK = some k) : execProtFastCycle k s = .next s :=
  if_pos (by simpa only [Bool.not_eq_true'] using h)

theorem execProtFastCycle_runs (hruns : protRuns s = true) (hnew : s.prot.fastK ≠ some k) : execProtFastCycle k s =
    .next ((recLook (fastTime k) (tripsStep ((elementsRun s).foldl (fastElement k s) s))).onProt (fun p => { p with
      fastK := some k, seen := s.meas.chans.map (fun x => (x.1, x.2.at_ + 1)) })) :=
  if_neg (by simp [hruns, hnew])

/-! ### Travelling-wave elements -/

/-- The crossing of a channel is captured, and its handshake closes. -/
def twCaptured (ch : Nat) (s : State) : State := cdcUpd 3 6 ch (fun x => x.capture.close) s

theorem execTwElementTrigger_none (h : twWaiting s = []) : execTwElementTrigger s = .next s := by
  simp only [execTwElementTrigger, h]

theorem execTwElementTrigger_captures {l : List Nat} (h : twWaiting s = ch :: l) : execTwElementTrigger s =
    .next (if protRuns s then twElements ch (twCaptured ch s) else twCaptured ch s) := by
  simp only [execTwElementTrigger, h]
  rfl

/-- An element that is on, with an armed channel and no blocker, passes the first rows of Table 15.6. -/
theorem twRows_none {t : State} {e : ElCfg} {r : ElRun} (hon : e.on = true) (hch : ch < 4) (hmask : bit e.twmask ch = true)
    (harmed : (acqGet t ch).state = .armed) (hblk : e.blkel = 0xFF) : twRows s t e r = none := by
  have hopen : (List.range 4).any (fun c => bit e.twmask c && ((acqGet t c).state == .armed || (acqGet t c).state == .capturing ||
      (acqGet t c).state == .rearming)) = true :=
    List.any_eq_true.mpr ⟨ch, List.mem_range.mpr hch, by simp [hmask, harmed]⟩
  have hblocked : isBlocked s e = false := by simp [isBlocked, hblk]
  simp only [twRows, hon, hopen, hblocked, Bool.not_true, Bool.false_eq_true, if_false]

/-- The engine has one element, which starts at a signal of channel `ch` without a confirmation. -/
structure TwOnly (ch n : Nat) (e : ElCfg) (s : State) : Prop where
  only : s.prot.act.el = [(n, e)]
  number : n < 96
  type : e.type = 12
  mask : bit e.twmask ch = true
  on : e.on = true
  armed : (acqGet s ch).state = .armed
  channel : ch < 4
  idle : (elGet s n).state = .idle
  alone : e.confel = 0xFF
  free : e.blkel = 0xFF

theorem TwOnly.elCfg_eq {e : ElCfg} (h : TwOnly ch n e s) : elCfg s n = e := by
  simp [elCfg, h.only, tget]

theorem TwOnly.operates {e : ElCfg} (h : TwOnly ch n e s) : twElements ch s =
    recLook (base s 0).val (tripsStep (elTake n (base s 0).val { elGet s n with state := .operated, timer := 0 } s)) := by
  have hlist : (s.prot.act.el.map (·.1)).filter (· < 96) = [n] := by simp [h.only, h.number]
  unfold twElements
  rw [hlist]
  simp only [List.foldl_cons, List.foldl_nil, h.elCfg_eq, twRows_none h.on h.channel h.mask h.armed h.free]
  rw [if_neg (by simp [h.type, h.mask, h.idle, ElState.start])]
  simp only [h.alone, decide_true, Bool.true_or, if_true]

/-! ### Timers and the end of a record -/

section
variable {o : Fin 16} {b : Bool}

/-- The coil supervision reads its input: the output is supervised and has been inactive for SUSP and TTCS (R404). -/
structure CoilRead (o : Fin 16) (s : State) : Prop where
  supervised : (tripCfg s o).sup = true
  runs : s.prot.stopped = false
  inactive : (tripGet s o).level = false
  settled : (tripGet s o).fallUs.all (fun f => decide (f + ((tripCfg s o).susp + (tripCfg s o).ttcs) * 1000 ≤ s.nowUs)) = true

/-- The input has changed the fault of the coil. -/
def coilChanged (o : Fin 16) (b : Bool) (s : State) : State :=
  let t := tripUpd o (fun x => { x with coil := !b }) s
  recLook (base s 0).val (tripsStep (if b then protEvent 0x06 .notice o [] t else protEvent 0x05 .contained o [] t))

theorem CoilRead.exec_changes (h : CoilRead o s) (hcoil : (tripGet s o).coil = b) :
    execCoilSupervisionExpiry o b s = .next (coilChanged o b s) := by
  have hsettled : (tripGet s o).fallUs.any (fun f => decide (s.nowUs < f + ((tripCfg s o).susp + (tripCfg s o).ttcs) * 1000)) = false := by
    have hall := h.settled
    cases hfall : (tripGet s o).fallUs with
    | none => rfl
    | some f => simpa [hfall] using hall
  refine if_neg ?_
  simp only [h.supervised, h.runs, h.inactive, hsettled, hcoil]
  simp

theorem execCoilSupervisionExpiry_idle (h : (tripCfg s o).sup = false ∨ s.prot.stopped = true ∨ (tripGet s o).level = true ∨
    (tripGet s o).fallUs.any (fun f => decide (s.nowUs < f + ((tripCfg s o).susp + (tripCfg s o).ttcs) * 1000)) = true ∨
    (tripGet s o).coil = !b) : execCoilSupervisionExpiry o b s = .next s :=
  if_pos (by simpa only [Bool.not_eq_true'] using h)

end

section
variable {l : List DRec} {r : DRec}

/-- The last record is closed, cut where its post-trigger time had not ended. -/
def recordClosed (l : List DRec) (r : DRec) (trunc : Bool) (s : State) : State :=
  protEvent 0x07 .notice 0 [r.num, recFlags { r with closed := true, trunc := trunc }]
    (s.onProt (fun p => { p with recs := l ++ [{ r with closed := true, trunc := trunc }] }))

theorem recClose_last (hrecs : s.prot.recs = l ++ [r]) : recClose s =
    if r.closed ∨ (r.left ≠ 0 ∧ !decide (r.cfg.maxLen * 8 ≤ r.samples.length)) then s
    else recordClosed l r (decide (r.cfg.maxLen * 8 ≤ r.samples.length) && r.left != 0) s := by
  have hlast : s.prot.recs.getLast? = some r := by simp [hrecs]
  have hdrop : ∀ q : DRec, s.onProt (fun p => { p with recs := p.recs.dropLast ++ [q] }) = s.onProt (fun p => { p with recs := l ++ [q] }) := by
    intro q
    simp only [State.onProt, hrecs, List.dropLast_concat]
  simp only [recClose, hlast, hdrop]
  rfl

theorem recClose_ended (hrecs : s.prot.recs = l ++ [r]) (hopen : r.closed = false) (hleft : r.left = 0) :
    recClose s = recordClosed l r false s := by
  rw [recClose_last hrecs, if_neg (by simp [hopen, hleft])]
  simp [hleft]

theorem recClose_full (hrecs : s.prot.recs = l ++ [r]) (hopen : r.closed = false) (hleft : r.left ≠ 0)
    (hfull : r.cfg.maxLen * 8 ≤ r.samples.length) : recClose s = recordClosed l r true s := by
  rw [recClose_last hrecs, if_neg (by simp [hopen, hfull])]
  simp [bne_iff_ne.mpr hleft, hfull]

theorem recClose_runs (hrecs : s.prot.recs = l ++ [r])
    (h : r.closed = true ∨ (r.left ≠ 0 ∧ r.samples.length < r.cfg.maxLen * 8)) : recClose s = s := by
  rw [recClose_last hrecs]
  exact if_pos (h.imp_right (fun h => ⟨h.1, by simpa using h.2⟩))

end

/-- Settles O40: each cycle by whether the engine runs it, a signal by its crossing, and the timers by what they stand for. Elements at slow
cycles, signals and instants served once are assumptions 161, 163 and 168; that events with nothing to act on change nothing is
assumption 9. -/
theorem protectionCyclesEvaluateAndTrip : Obligations.ProtectionCyclesEvaluateAndTrip := by
  unfold Obligations.ProtectionCyclesEvaluateAndTrip
  refine ⟨?slowIdle, ?slow, ?fastIdle, ?fast, ?noSignal, ?signal, ?operates, ?stopped, ?tmin, ?noTmin, ?coilFault, ?coilGood, ?coilIdle,
    ?ended, ?full, ?runs, ?noRecord⟩
  case slowIdle => exact fun k t b s h => execProtSlowCycle_idle h
  case slow => exact fun k t b s u hu hruns hnew => execProtSlowCycle_runs hu hruns hnew
  case fastIdle => exact fun k s h => execProtFastCycle_idle h
  case fast => exact fun k s hruns hnew => execProtFastCycle_runs hruns hnew
  case noSignal => exact fun s h => execTwElementTrigger_none h
  case signal =>
    exact fun ch l s h hruns => (execTwElementTrigger_captures h).trans (congrArg Host.Outcome.next (if_pos hruns))
  case operates =>
    intro ch n l e s h hruns honly hn htype hmask hon harmed hch hidle halone hfree
    refine (execTwElementTrigger_captures h).trans (congrArg Host.Outcome.next ((if_pos hruns).trans ?_))
    exact TwOnly.operates (s := twCaptured ch s) ⟨honly, hn, htype, hmask, hon, harmed, hch, hidle, halone, hfree⟩
  case stopped =>
    exact fun ch l s h hstop =>
      (execTwElementTrigger_captures h).trans (congrArg Host.Outcome.next (if_neg (ne_true_of_eq_false hstop)))
  case tmin => exact fun o s h => if_neg (by simp [h])
  case noTmin => exact fun o s h => if_pos (by simp [h])
  case coilFault =>
    exact fun o s hsup hruns hlevel hsettled hcoil => CoilRead.exec_changes ⟨hsup, hruns, hlevel, hsettled⟩ hcoil
  case coilGood =>
    exact fun o s hsup hruns hlevel hsettled hcoil => CoilRead.exec_changes ⟨hsup, hruns, hlevel, hsettled⟩ hcoil
  case coilIdle => exact fun o b s h => execCoilSupervisionExpiry_idle h
  case ended => exact fun l r s hrecs hopen hleft => congrArg Host.Outcome.next (recClose_ended hrecs hopen hleft)
  case full => exact fun l r s hrecs hopen hleft hfull => congrArg Host.Outcome.next (recClose_full hrecs hopen hleft hfull)
  case runs => exact fun l r s hrecs h => congrArg Host.Outcome.next (recClose_runs hrecs h)
  case noRecord =>
    intro s hrecs
    refine congrArg Host.Outcome.next ?_
    simp [recClose, hrecs]

end Sys2Proof.Machine

/-! PROOFS. The TIME commands set station time, the leap second, the discipline, PTP, the outputs and the stamps, and read (Table 16.9, R421 to
R437, O41). -/

namespace Sys2Proof.Machine

open Sys2Proof

variable {c : Cmd} {s t u : State}

/-- MB1 to MB7 send a command of `n` parameter bytes to a unit that serves commands. -/
structure CmdServed (n : Nat) (c : Cmd) (s : State) : Prop where
  serving : Serving s
  mailbox : c.mb ≠ 0
  params : Inline c n

/-- Such a command passes a gate that is open in every state and role but for its parameters. -/
theorem CmdServed.passes {n opcode : Nat} {free par : Bool} (h : CmdServed n c s) (hpar : par = true) :
    Gate.Passes { opcode := opcode, len := c.inl n, legal := notBoot, free := free, par := par } c s :=
  Gate.OpenIn.passes ⟨rfl, rfl, rfl, rfl, rfl⟩ (admits_of_serving h.serving h.mailbox) (.of_inline h.params rfl) rfl hpar

/-! ### TIME_BASE_SET of base 0 -/

/-- The step that TIME_BASE_SET asks for: the difference given, or up to the value given. -/
def baseStep (c : Cmd) (s : State) : Int :=
  if bit (c.u8 1) 0 = true then rdS c.params 4 8 * (2 ^ 32 : Nat) else ((c.stamp 4).val : Int) - ((base s 0).val : Int)

/-- The value or the difference is in range. -/
def StepInRange (c : Cmd) (d : Int) (s : State) : Prop :=
  (bit (c.u8 1) 0 = true ∧ c.rsv 12 4 = true ∧ 0 ≤ (base s 0).val + d) ∨ (bit (c.u8 1) 0 = false ∧ c.stampOk 4 = true)

/-- TIME_BASE_SET of base 0 asks for the step `d`, in range. -/
structure BaseSetAdmitted (c : Cmd) (d : Int) (s : State) : Prop where
  step : d = baseStep c s
  served : CmdServed 20 c s
  zero : c.u8 0 = 0
  flags : c.u8 1 < 4
  reserved : c.rsv 2 2 = true
  bound : c.u32 16 ≤ 4000000000
  range : StepInRange c d s

/-- Station time was never set, or only restored: every step may be taken. -/
def TimeFresh (s : State) : Prop := s.time.qual = .unset ∨ s.time.qual = .restored

/-- The discipline takes the step: it is off, or the step is whole seconds. -/
def StepWhole (d : Int) (s : State) : Prop := s.time.cfg.mode = false ∨ d % (secUnits : Nat) = 0

/-- A large step has its flag. -/
def StepAllowed (c : Cmd) (d : Int) (s : State) : Prop :=
  (d.natAbs : Int) ≤ (s.time.cfg.stepMax * 2 ^ 32 : Nat) ∨ bit (c.u8 1) 1 = true

/-- Station time is stepped; the next pulse is a first one. -/
def baseStepped (d : Int) (s : State) : State :=
  stepTime d 0 (s.onTime (fun x => { x with first := x.first || (x.cfg.mode && x.dstate != .refusing) }))

/-- Station time is FREE, with the bound given. -/
def baseFreed (c : Cmd) (s : State) : State := setQual .free (c.u32 16) (s.onTime (fun x => { x with b0 := c.u32 16, bSecs := 0 }))

/-- The result of TIME_BASE_SET of base 0. -/
def baseResult (d : Int) (s : State) : Bytes := leS 8 (roundDiv d (2 ^ 32)) ++ (stationNow s).bytes

theorem timeFresh_iff : (s.time.qual == .unset || s.time.qual == .restored) = true ↔ TimeFresh s := by
  simp [TimeFresh]

section
variable {d : Int}

/-- The two refusals of R426 do not apply. -/
theorem baseSet_steps (h : TimeFresh s ∨ (StepWhole d s ∧ StepAllowed c d s)) : baseSet c d s =
    okReply (if s.time.dstate = .locked then baseStepped d s else baseFreed c (baseStepped d s))
      (baseResult d (if s.time.dstate = .locked then baseStepped d s else baseFreed c (baseStepped d s))) := by
  refine (if_neg ?_).trans (if_neg ?_)
  · rcases h with hfresh | ⟨hmode | hwhole, _⟩
    · simp [timeFresh_iff.mpr hfresh]
    · simp [hmode]
    · simp [hwhole]
  · rcases h with hfresh | ⟨_, hsmall | hflag⟩
    · simp [timeFresh_iff.mpr hfresh]
    · simp only [not_lt.mpr hsmall, decide_false, Bool.and_false, Bool.false_and, Bool.false_eq_true, not_false_eq_true]
    · simp [hflag]

theorem baseSet_conflict (hold : ¬TimeFresh s) (hmode : s.time.cfg.mode = true) (hpart : d % (secUnits : Nat) ≠ 0) :
    baseSet c d s = ⟨s, .conflict, [], false⟩ := by
  have hfresh : (s.time.qual == .unset || s.time.qual == .restored) = false := Bool.eq_false_iff.mpr (mt timeFresh_iff.mp hold)
  refine if_pos ?_
  simp only [hfresh, hmode, beq_eq_false_iff_ne.mpr hpart, Bool.not_false, Bool.and_self]

theorem baseSet_refuses (hold : ¬TimeFresh s) (hwhole : StepWhole d s) (hbig : (s.time.cfg.stepMax * 2 ^ 32 : Nat) < (d.natAbs : Int))
    (hflag : bit (c.u8 1) 1 = false) : baseSet c d s = ⟨s, .jumpRefused, [], false⟩ := by
  have hfresh : (s.time.qual == .unset || s.time.qual == .restored) = false := Bool.eq_false_iff.mpr (mt timeFresh_iff.mp hold)
  refine (if_neg ?_).trans (if_pos ?_)
  · rcases hwhole with hmode | hwhole
    · simp [hmode]
    · simp [hwhole]
  · simp only [hfresh, hflag, hbig, decide_true, Bool.not_false, Bool.and_self]

variable (h : BaseSetAdmitted c d s)
include h

/-- The range check of TIME_BASE_SET of base 0. -/
theorem BaseSetAdmitted.par : (if bit (c.u8 1) 0 = true then c.rsv 12 4 && decide (0 ≤ (base s 0).val + baseStep c s) else c.stampOk 4) = true := by
  obtain rfl := h.step
  rcases h.range with ⟨hrel, hrsv, hpos⟩ | ⟨habs, hstamp⟩
  · rw [if_pos hrel, hrsv, decide_eq_true hpos]
    rfl
  · rw [if_neg (ne_true_of_eq_false habs), hstamp]

theorem BaseSetAdmitted.exec_eq {st : Status} {r : Bytes} (hact : baseSet c d s = ⟨t, st, r, false⟩) :
    execTimeBaseSet c s = .next (answer 0x0C01 c st r t) := by
  have hpar := h.par
  obtain rfl := h.step
  unfold execTimeBaseSet
  refine (h.served.passes ?_).answers rfl rfl ((if_pos h.zero).trans hact)
  rw [if_pos h.zero]
  simp only [h.zero, h.flags, h.reserved, h.bound, decide_true, beq_self_eq_true, Bool.true_or, Bool.and_self, Bool.true_and]
  exact hpar

theorem BaseSetAdmitted.exec_frees (hmay : TimeFresh s ∨ (StepWhole d s ∧ StepAllowed c d s)) (hfree : s.time.dstate ≠ .locked)
    (ht : t = baseFreed c (baseStepped d s)) : execTimeBaseSet c s = .next (answer 0x0C01 c .ok (baseResult d t) t) := by
  subst ht
  refine h.exec_eq ((baseSet_steps hmay).trans ?_)
  rw [if_neg hfree]
  rfl

theorem BaseSetAdmitted.exec_steps (hmay : TimeFresh s ∨ (StepWhole d s ∧ StepAllowed c d s)) (hlocked : s.time.dstate = .locked)
    (ht : t = baseStepped d s) : execTimeBaseSet c s = .next (answer 0x0C01 c .ok (baseResult d t) t) := by
  subst ht
  refine h.exec_eq ((baseSet_steps hmay).trans ?_)
  rw [if_pos hlocked]
  rfl

end

/-! ### TIME_BASE_SET of base 4 -/

/-- TIME_BASE_SET of base 4 gives TAI-UTC and a leap, in range. -/
structure UtcSetAdmitted (c : Cmd) (s : State) : Prop where
  served : CmdServed 20 c s
  four : c.u8 0 = 4
  flags : c.u8 1 < 4
  reserved : c.rsv 2 2 = true
  bound : c.u32 16 ≤ 4000000000
  leapLow : -1 ≤ c.s8 6
  leapHigh : c.s8 6 ≤ 1
  gap : c.rsv 7 1 = true
  tail : c.rsv 14 2 = true

/-- TAI-UTC and the announced leap. -/
def utcTaken (c : Cmd) (s : State) : State :=
  s.onTime (fun t => { t with taiUtc := c.s16 4, utcValid := true, leap := if c.s8 6 = 0 then none else some (c.s8 6, rd c.params 8 6) })

/-- TAI-UTC is taken, with its event where it changes. -/
def utcSet (c : Cmd) (s : State) : State :=
  if c.s16 4 = s.time.taiUtc then utcTaken c s else timeEvent 0x07 [word32 (c.s16 4)] (utcTaken c s)

theorem UtcSetAdmitted.exec_sets (h : UtcSetAdmitted c s) (ht : utcSet c s = t) :
    execTimeBaseSet c s = .next (answer 0x0C01 c .ok (le 8 0 ++ (stationNow t).bytes) t) := by
  subst ht
  have hzero : ¬c.u8 0 = 0 := by simp [h.four]
  unfold execTimeBaseSet
  refine (h.served.passes ?_).answers rfl rfl (if_neg hzero)
  rw [if_neg hzero]
  simp [h.four, h.flags, h.reserved, h.bound, h.leapLow, h.leapHigh, h.gap, h.tail]

/-! ### TIME_DISCIPLINE_CONFIG -/

/-- The parameters of the discipline. -/
def disciplineRead (c : Cmd) : DiscCfg := {
  mode := c.u8 0 == 1, falling := bit (c.u8 1) 1, linkTrack := bit (c.u8 1) 2, tc := c.u16 2, stepMax := c.u32 4, lockWin := c.u32 8,
  holdRate := c.u32 12, accLim := c.u32 16, ppsComp := c.s32 20 }

/-- TIME_DISCIPLINE_CONFIG gives the discipline the parameters `k`, in range. -/
structure DisciplineAdmitted (c : Cmd) (s : State) (k : DiscCfg) : Prop where
  read : k = disciplineRead c
  served : CmdServed 24 c s
  mode : c.u8 0 < 2
  flags : c.u8 1 < 8
  timeLow : 8 ≤ k.tc
  timeHigh : k.tc ≤ 1024
  stepLow : 100 ≤ k.stepMax
  stepHigh : k.stepMax ≤ 999999999
  lockLow : 10 ≤ k.lockWin
  lockHigh : k.lockWin ≤ 100000
  rateLow : 1 ≤ k.holdRate
  rateHigh : k.holdRate ≤ 100000
  accuracyLow : 100 ≤ k.accLim
  accuracyHigh : k.accLim ≤ 1000000
  compensation : k.ppsComp.natAbs ≤ 100000

/-- The range check of TIME_DISCIPLINE_CONFIG. -/
def disciplinePar (c : Cmd) (k : DiscCfg) : Bool :=
  c.u8 0 < 2 && c.u8 1 < 8 && 8 ≤ k.tc && k.tc ≤ 1024 && 100 ≤ k.stepMax && k.stepMax ≤ 999999999 && 10 ≤ k.lockWin &&
    k.lockWin ≤ 100000 && 1 ≤ k.holdRate && k.holdRate ≤ 100000 && 100 ≤ k.accLim && k.accLim ≤ 1000000 && k.ppsComp.natAbs ≤ 100000

/-- The discipline goes on with its parameters. -/
def disciplineStored (k : DiscCfg) (s : State) : State := s.onTime (fun x => { x with cfg := k })

/-- The discipline starts with a first pulse. -/
def disciplineStarted (k : DiscCfg) (s : State) : State :=
  s.onTime (fun x => { x with
    cfg := k, dstate := .acquire, first := true, accept := false, servoI := 0, servoY := 0, ys := [], inWin := 0, outWin := 0, outs := [],
    goodRun := 0, theta := none })

/-- The discipline is off. -/
def disciplineEnded (k : DiscCfg) (s : State) : State :=
  s.onTime (fun x => { x with cfg := k, dstate := .off, first := false, accept := false, refused := false, theta := none })

/-- The event that a refusal ends with the discipline. -/
def refusalDropped (s u : State) : State := timeEvent 0x03 [word32 (theta8 s.time.lastTheta), Config.openCode 0x1003 3] u

/-- The parameters are stored, and the discipline starts, ends or goes on. -/
def disciplineTaken (c : Cmd) (k : DiscCfg) (s : State) : State :=
  if (c.u8 0 == 1) = true ∧ s.time.dstate = .off ∧ !followsTime s then disciplineStarted k s
  else if !(c.u8 0 == 1) then when (s.time.dstate == .refusing) (refusalDropped s) (disciplineEnded k s)
  else disciplineStored k s

/-- The flag ACCEPT ends a refusal at the next pulse. -/
def disciplineAccepted (c : Cmd) (s : State) : State :=
  if bit (c.u8 1) 0 ∧ s.time.dstate = .refusing then s.onTime (fun t => { t with first := true, accept := true }) else s

/-- Quality and bound follow, but for a locked discipline. -/
def disciplineRated (s : State) : State := if s.time.dstate = .locked then s else requal s

/-- The result of TIME_DISCIPLINE_CONFIG. -/
def disciplineResult (s : State) : Bytes := le 1 s.time.dstate.code ++ le 1 s.time.qual.code

/-- What TIME_DISCIPLINE_CONFIG does. -/
def disciplineAct (c : Cmd) (k : DiscCfg) (s : State) : Reply :=
  if (c.u8 0 == 1) = true ∧ timeUnset s then ⟨s, .conflict, [], false⟩
  else okReply (disciplineRated (disciplineAccepted c (disciplineTaken c k s)))
    (disciplineResult (disciplineRated (disciplineAccepted c (disciplineTaken c k s))))

theorem execTimeDisciplineConfig_eq : execTimeDisciplineConfig c s =
    runCmd { opcode := 0x0C02, len := c.inl 24, legal := notBoot, par := disciplinePar c (disciplineRead c) } c s
      (disciplineAct c (disciplineRead c)) := rfl

theorem disciplineAccepted_same (h : bit (c.u8 1) 0 = false ∨ s.time.dstate ≠ .refusing) : disciplineAccepted c s = s :=
  if_neg (fun hacc => h.elim (fun hflag => Bool.false_ne_true (hflag.symm.trans hacc.1)) (fun hstate => hstate hacc.2))

theorem disciplineRated_of_not_locked (h : s.time.dstate ≠ .locked) : disciplineRated s = requal s := if_neg h

section
variable {k : DiscCfg}

theorem disciplineTaken_starts (hon : c.u8 0 = 1) (hoff : s.time.dstate = .off) (hown : followsTime s = false) :
    disciplineTaken c k s = disciplineStarted k s :=
  if_pos (by simp [hon, hoff, hown])

theorem disciplineTaken_ends (hend : c.u8 0 = 0) :
    disciplineTaken c k s = when (s.time.dstate == .refusing) (refusalDropped s) (disciplineEnded k s) :=
  (if_neg (by simp [hend])).trans (if_pos (by simp [hend]))

theorem disciplineTaken_stores (hon : c.u8 0 = 1) (hstay : s.time.dstate ≠ .off ∨ followsTime s = true) :
    disciplineTaken c k s = disciplineStored k s := by
  refine (if_neg ?_).trans (if_neg (by simp [hon]))
  rcases hstay with hstate | hfollows
  · simp [hstate]
  · simp [hfollows]

variable (h : DisciplineAdmitted c s k)
include h

theorem DisciplineAdmitted.par : disciplinePar c k = true := by
  simp only [disciplinePar, h.mode, h.flags, h.timeLow, h.timeHigh, h.stepLow, h.stepHigh, h.lockLow, h.lockHigh, h.rateLow, h.rateHigh,
    h.accuracyLow, h.accuracyHigh, h.compensation, decide_true, Bool.and_self]

theorem DisciplineAdmitted.exec_eq {st : Status} {r : Bytes} (hact : disciplineAct c k s = ⟨t, st, r, false⟩) :
    execTimeDisciplineConfig c s = .next (answer 0x0C02 c st r t) := by
  have hpar := h.par
  obtain rfl := h.read
  rw [execTimeDisciplineConfig_eq]
  exact (h.served.passes hpar).answers rfl rfl hact

theorem DisciplineAdmitted.exec_conflict (hon : c.u8 0 = 1) (hunset : timeUnset s = true) :
    execTimeDisciplineConfig c s = .next (answer 0x0C02 c .conflict [] s) :=
  h.exec_eq (if_pos ⟨by simp [hon], hunset⟩)

/-- The parameters are taken, and `t` is what becomes of them. -/
theorem DisciplineAdmitted.exec_takes (hset : c.u8 0 = 0 ∨ timeUnset s = false)
    (ht : disciplineRated (disciplineAccepted c (disciplineTaken c k s)) = t) :
    execTimeDisciplineConfig c s = .next (answer 0x0C02 c .ok (disciplineResult t) t) := by
  subst ht
  refine h.exec_eq (if_neg ?_)
  rintro ⟨hon, hunset⟩
  rcases hset with hoff | hset
  · simp [hoff] at hon
  · exact Bool.false_ne_true (hset.symm.trans hunset)

theorem DisciplineAdmitted.exec_starts (hon : c.u8 0 = 1) (hset : timeUnset s = false) (hoff : s.time.dstate = .off)
    (hown : followsTime s = false) (ht : t = requal (disciplineStarted k s)) :
    execTimeDisciplineConfig c s = .next (answer 0x0C02 c .ok (disciplineResult t) t) := by
  refine h.exec_takes (.inr hset) ?_
  rw [ht, disciplineTaken_starts hon hoff hown, disciplineAccepted_same (.inr (by simp [disciplineStarted])),
    disciplineRated_of_not_locked (by simp [disciplineStarted])]

theorem DisciplineAdmitted.exec_ends (hend : c.u8 0 = 0) (hstate : s.time.dstate ≠ .refusing) (ht : t = requal (disciplineEnded k s)) :
    execTimeDisciplineConfig c s = .next (answer 0x0C02 c .ok (disciplineResult t) t) := by
  refine h.exec_takes (.inl hend) ?_
  rw [ht, disciplineTaken_ends hend, when_of_false (by simp [hstate]), disciplineAccepted_same (.inr (by simp [disciplineEnded])),
    disciplineRated_of_not_locked (by simp [disciplineEnded])]

theorem DisciplineAdmitted.exec_drops (hend : c.u8 0 = 0) (hstate : s.time.dstate = .refusing)
    (ht : t = requal (refusalDropped s (disciplineEnded k s))) :
    execTimeDisciplineConfig c s = .next (answer 0x0C02 c .ok (disciplineResult t) t) := by
  have hoff : (refusalDropped s (disciplineEnded k s)).time.dstate = .off := by
    rw [refusalDropped, (timeEvent_keeps _ _ _).time (by decide)]
    rfl
  refine h.exec_takes (.inl hend) ?_
  rw [ht, disciplineTaken_ends hend, when_of_true (by simp [hstate]), disciplineAccepted_same (.inr (by simp [hoff])),
    disciplineRated_of_not_locked (by simp [hoff])]

section
variable (hon : c.u8 0 = 1) (hset : timeUnset s = false)
include hon hset

theorem DisciplineAdmitted.exec_locked (hstate : s.time.dstate = .locked) (ht : t = disciplineStored k s) :
    execTimeDisciplineConfig c s = .next (answer 0x0C02 c .ok (disciplineResult t) t) := by
  refine h.exec_takes (.inr hset) ?_
  rw [ht, disciplineTaken_stores hon (.inl (by simp [hstate])), disciplineAccepted_same (.inr (by simp [disciplineStored, hstate]))]
  exact if_pos hstate

theorem DisciplineAdmitted.exec_accepts (hflag : bit (c.u8 1) 0 = true) (hstate : s.time.dstate = .refusing)
    (ht : t = requal (s.onTime (fun x => { x with cfg := k, first := true, accept := true }))) :
    execTimeDisciplineConfig c s = .next (answer 0x0C02 c .ok (disciplineResult t) t) := by
  refine h.exec_takes (.inr hset) ?_
  rw [ht, disciplineTaken_stores hon (.inl (by simp [hstate]))]
  refine (congrArg disciplineRated (if_pos ⟨hflag, hstate⟩)).trans (if_neg ?_)
  simp [disciplineStored, hstate]

theorem DisciplineAdmitted.exec_stores (hlock : s.time.dstate ≠ .locked) (hstay : s.time.dstate ≠ .off ∨ followsTime s = true)
    (hflag : bit (c.u8 1) 0 = false ∨ s.time.dstate ≠ .refusing) (ht : t = requal (disciplineStored k s)) :
    execTimeDisciplineConfig c s = .next (answer 0x0C02 c .ok (disciplineResult t) t) := by
  refine h.exec_takes (.inr hset) ?_
  rw [ht, disciplineTaken_stores hon hstay, disciplineAccepted_same (s := disciplineStored k s) hflag]
  exact if_neg hlock

end

end

/-! ### TIME_OUTPUT_CONFIG, TIME_STAMP_CONFIG and TIME_PTP_CONFIG -/

/-- The parameters of an output. -/
def outputRead (c : Cmd) : TOutCfg := {
  on := bit (c.u8 1) 0, invert := bit (c.u8 1) 1, runFree := bit (c.u8 1) 2, suppress := bit (c.u8 1) 3, rate := c.u8 2, width := c.u32 4,
  offset := c.s32 8, localMin := c.s16 12 }

/-- TIME_OUTPUT_CONFIG gives an output the parameters `k`, in range. -/
structure OutputAdmitted (c : Cmd) (s : State) (k : TOutCfg) : Prop where
  read : k = outputRead c
  served : CmdServed 16 c s
  output : c.u8 0 < 5
  flags : c.u8 1 < 16
  rate : (c.u8 0 = 4 ∧ 4 ≤ k.rate ∧ k.rate ≤ 7) ∨ (c.u8 0 ≠ 4 ∧ k.rate < 4)
  widthLow : 100 ≤ k.width
  widthHigh : k.width ≤ outPeriod (c.u8 0) k.rate / 2
  offset : k.offset.natAbs ≤ 1000000
  zoneLow : -720 ≤ k.localMin
  zoneHigh : k.localMin ≤ 840
  zoneStep : k.localMin % 15 = 0
  gap : c.rsv 3 1 = true
  tail : c.rsv 14 2 = true

/-- The range check of TIME_OUTPUT_CONFIG. -/
def outputPar (c : Cmd) (k : TOutCfg) : Bool :=
  c.u8 0 < 5 && c.u8 1 < 16 && (if c.u8 0 = 4 then 4 ≤ k.rate && k.rate ≤ 7 else k.rate < 4) && 100 ≤ k.width &&
    k.width ≤ outPeriod (c.u8 0) k.rate / 2 && k.offset.natAbs ≤ 1000000 && decide (-720 ≤ k.localMin ∧ k.localMin ≤ 840) &&
    k.localMin % 15 == 0 && c.rsv 3 1 && c.rsv 14 2

/-- The output takes its parameters; one that is switched off ends its pulse. -/
def outputStored (c : Cmd) (k : TOutCfg) (s : State) : State :=
  s.onTime (fun t => { t with outs16 := tset t.outs16 (c.u8 0) k, pulse := if k.on then t.pulse else t.pulse.filter (· != c.u8 0) })

section
variable {k : TOutCfg} (h : OutputAdmitted c s k)
include h

theorem OutputAdmitted.par_rate : (if c.u8 0 = 4 then decide (4 ≤ k.rate) && decide (k.rate ≤ 7) else decide (k.rate < 4)) = true := by
  rcases h.rate with ⟨hout, hlow, hhigh⟩ | ⟨hout, hrate⟩
  · simp [hout, hlow, hhigh]
  · simp [hout, hrate]

theorem OutputAdmitted.par : outputPar c k = true := by
  simp only [outputPar, h.output, h.flags, h.par_rate, h.widthLow, h.widthHigh, h.offset, h.zoneLow, h.zoneHigh, h.zoneStep, h.gap, h.tail,
    decide_true, beq_self_eq_true, and_self, Bool.and_self]

theorem OutputAdmitted.exec_stores :
    execTimeOutputConfig c s = .next (answer 0x0C04 c .ok (le 4 (outPeriod (c.u8 0) k.rate)) (outputStored c k s)) := by
  have hpar := h.par
  obtain rfl := h.read
  unfold execTimeOutputConfig
  exact (h.served.passes hpar).answers rfl rfl rfl

end

/-- The parameters of a stamping input. -/
def stampRead (c : Cmd) : StampCfg :=
  { on := bit (c.u8 1) 0, rise := bit (c.u8 1) 1, fall := bit (c.u8 1) 2, filter := c.u16 2, comp := c.s32 4 }

theorem execTimeStampConfig_stores (h : CmdServed 8 c s) {k : StampCfg} (hk : k = stampRead c) (hinput : c.u8 0 < 32) (hflags : c.u8 1 < 8)
    (hfilter : k.filter ≤ 1000) (hcomp : k.comp.natAbs ≤ 100000) : execTimeStampConfig c s =
      .next (answer 0x0C05 c .ok (le 2 s.time.stamps.length) (s.onTime (fun t => { t with stampCfg := tset t.stampCfg (c.u8 0) k }))) := by
  have hpar : (decide (c.u8 0 < 32) && decide (c.u8 1 < 8) && decide (k.filter ≤ 1000) && decide (k.comp.natAbs ≤ 100000)) = true := by
    simp only [hinput, hflags, hfilter, hcomp, decide_true, Bool.and_self]
  subst hk
  unfold execTimeStampConfig
  exact (h.passes hpar).answers rfl rfl rfl

/-- TIME_PTP_CONFIG has parameters in range. -/
structure PtpAdmitted (c : Cmd) (s : State) : Prop where
  served : CmdServed 12 c s
  port : c.u8 0 < 4
  flags : c.u8 1 < 8
  vlanLow : 1 ≤ c.u16 6
  vlanHigh : c.u16 6 ≤ 4094
  priority : c.u8 8 < 8
  reserved : c.rsv 9 3 = true

/-- The state of the PTP port: off where it is switched off or its port is down, LISTENING when it is switched on. -/
def ptpStateNext (c : Cmd) (s : State) : Nat :=
  if bit (c.u8 1) 0 = false ∨ portUp s (c.u8 0) = false then 0 else if (ptpGet s (c.u8 0)).on then (ptpGet s (c.u8 0)).state else 1

/-- The PTP port takes its parameters. -/
def ptpStored (c : Cmd) (b : Nat) (s : State) : State :=
  ptpUpd (c.u8 0) (fun q => { q with
    on := bit (c.u8 1) 0, twoStep := bit (c.u8 1) 1, vlan := bit (c.u8 1) 2, domain := c.u8 2, prio1 := c.u8 3, prio2 := c.u8 4,
    tsrc := c.u8 5, vid := c.u16 6, pcp := c.u8 8, state := b }) s

section
variable (h : PtpAdmitted c s)
include h

theorem PtpAdmitted.par : (decide (c.u8 0 < 4) && decide (c.u8 1 < 8) && decide (1 ≤ c.u16 6) && decide (c.u16 6 ≤ 4094) &&
    decide (c.u8 8 < 8) && c.rsv 9 3) = true := by
  simp only [h.port, h.flags, h.vlanLow, h.vlanHigh, h.priority, h.reserved, decide_true, Bool.and_self]

theorem PtpAdmitted.exec_conflict (hoff : (ethCfg s (c.u8 0)).on = false) :
    execTimePtpConfig c s = .next (answer 0x0C03 c .conflict [] s) := by
  unfold execTimePtpConfig
  exact (h.served.passes h.par).answers rfl rfl (if_pos (by simp [hoff]))

theorem PtpAdmitted.exec_stores (hon : (ethCfg s (c.u8 0)).on = true) {b : Nat} (hb : b = ptpStateNext c s) :
    execTimePtpConfig c s = .next (answer 0x0C03 c .ok (le 1 b) (ptpStored c b s)) := by
  have hstate : (if (!bit (c.u8 1) 0 || !portUp s (c.u8 0)) = true then 0
      else if (ptpGet s (c.u8 0)).on then (ptpGet s (c.u8 0)).state else 1) = b := by
    simp only [hb, ptpStateNext, Bool.or_eq_true, Bool.not_eq_true']
  unfold execTimePtpConfig
  refine (h.served.passes h.par).answers rfl rfl ((if_neg (by simp [hon])).trans ?_)
  simp only [hstate]
  rfl

end

/-! ### TIME_STATUS -/

/-- The result of TIME_STATUS: `n` stamps are moved, and `k` stay. -/
def timeStatusResult (k n : Nat) (s : State) : Bytes :=
  le 1 s.time.qual.code ++ le 1 s.time.dstate.code ++ le 2 (timeStat s / 2 ^ 12) ++ le 8 s.time.bound ++ leS 4 (theta8 s.time.lastTheta) ++
  leS 4 (roundDiv s.time.servoY (2 ^ 1074)) ++ leS 2 s.time.taiUtc ++ le 1 (ptpMask s 2 + 16 * ptpMask s 3) ++ le 1 0 ++ le 2 k ++ le 2 n ++
  le 4 s.time.refusals ++ le 8 s.time.offSecs

/-- The first `n` stamps move to the buffer. -/
def stampsMoved (c : Cmd) (n : Nat) (s : State) : State :=
  putBuf (c.u64 4) (withCrc ((s.time.stamps.take n).flatMap TsEntry.bytes)) (s.onTime (fun x => { x with stamps := x.stamps.drop n }))

section
variable (h : CmdServed 12 c s) (hrsv : c.rsv 1 3 = true) (haligned : c.u64 4 % 64 = 0)
include h hrsv haligned

theorem execTimeStatus_reads (hnone : c.u8 0 = 0 ∨ (c.u8 0 = 1 ∧ c.u64 4 = 0)) :
    execTimeStatus c s = .next (answer 0x0C06 c .ok (timeStatusResult s.time.stamps.length 0 s) s) := by
  have hmove : (c.u8 0 == 1 && c.u64 4 != 0) = false := by
    rcases hnone with hkind | ⟨_, hbuf⟩
    · simp [hkind]
    · simp [hbuf]
  have hkind : c.u8 0 < 2 := by omega
  unfold execTimeStatus
  refine (h.passes (by simp [hkind, hrsv, haligned])).answers rfl rfl ?_
  simp only [hmove, Bool.false_eq_true, if_false]
  rfl

theorem execTimeStatus_moves (hone : c.u8 0 = 1) (hbuf : c.u64 4 ≠ 0) {n : Nat} (hn : n = min 1024 s.time.stamps.length) :
    execTimeStatus c s = .next (answer 0x0C06 c .ok (timeStatusResult (s.time.stamps.drop n).length n s) (stampsMoved c n s)) := by
  have hmove : (c.u8 0 == 1 && c.u64 4 != 0) = true := by simp [hone, hbuf]
  subst hn
  unfold execTimeStatus
  refine (h.passes (by simp [hone, hrsv, haligned])).answers rfl rfl ?_
  simp only [hmove, if_true, putBuf_time]
  rfl

end

/-- Settles O41: each command through its gate, the discipline by what it was doing. TIME_BASE_SET during REFUSING and MODE 0 in REFUSING are
assumption 166, the units that follow their partner assumption 93. -/
theorem timeCommandsSetTheBasesAndOutputs : Obligations.TimeCommandsSetTheBasesAndOutputs := by
  unfold Obligations.TimeCommandsSetTheBasesAndOutputs
  refine ⟨?frees, ?steps, ?conflict, ?refused, ?utcNew, ?utcSame, ?unset, ?starts, ?ends, ?drops, ?locked, ?accepts, ?stores, ?output, ?stamp,
    ?ptp, ?ptpConflict, ?reads, ?moves⟩
  case frees =>
    exact fun c d s v hd hserving hmb hinline hzero hflags hrsv hbound hrange hmay hfree hv =>
      BaseSetAdmitted.exec_frees ⟨hd, ⟨hserving, hmb, hinline⟩, hzero, hflags, hrsv, hbound, hrange⟩ hmay hfree hv
  case steps =>
    exact fun c d s v hd hserving hmb hinline hzero hflags hrsv hbound hrange hmay hlocked hv =>
      BaseSetAdmitted.exec_steps ⟨hd, ⟨hserving, hmb, hinline⟩, hzero, hflags, hrsv, hbound, hrange⟩ hmay hlocked hv
  case conflict =>
    exact fun c d s hd hserving hmb hinline hzero hflags hrsv hbound hrange hold hmode hpart =>
      BaseSetAdmitted.exec_eq ⟨hd, ⟨hserving, hmb, hinline⟩, hzero, hflags, hrsv, hbound, hrange⟩ (baseSet_conflict hold hmode hpart)
  case refused =>
    exact fun c d s hd hserving hmb hinline hzero hflags hrsv hbound hrange hold hwhole hbig hflag =>
      BaseSetAdmitted.exec_eq ⟨hd, ⟨hserving, hmb, hinline⟩, hzero, hflags, hrsv, hbound, hrange⟩ (baseSet_refuses hold hwhole hbig hflag)
  case utcNew =>
    exact fun c s v hserving hmb hinline hfour hflags hrsv hbound hlow hhigh hgap htail hnew hv =>
      UtcSetAdmitted.exec_sets ⟨⟨hserving, hmb, hinline⟩, hfour, hflags, hrsv, hbound, hlow, hhigh, hgap, htail⟩ ((if_neg hnew).trans hv.symm)
  case utcSame =>
    exact fun c s v hserving hmb hinline hfour hflags hrsv hbound hlow hhigh hgap htail hsame hv =>
      UtcSetAdmitted.exec_sets ⟨⟨hserving, hmb, hinline⟩, hfour, hflags, hrsv, hbound, hlow, hhigh, hgap, htail⟩ ((if_pos hsame).trans hv.symm)
  case unset =>
    exact fun c s k hk hserving hmb hinline h0 h1 h2 h3 h4 h5 h6 h7 h8 h9 h10 h11 h12 hon hunset =>
      DisciplineAdmitted.exec_conflict ⟨hk, ⟨hserving, hmb, hinline⟩, h0, h1, h2, h3, h4, h5, h6, h7, h8, h9, h10, h11, h12⟩ hon hunset
  case starts =>
    exact fun c s t k hk hserving hmb hinline h0 h1 h2 h3 h4 h5 h6 h7 h8 h9 h10 h11 h12 hon hset hoff hown ht =>
      DisciplineAdmitted.exec_starts ⟨hk, ⟨hserving, hmb, hinline⟩, h0, h1, h2, h3, h4, h5, h6, h7, h8, h9, h10, h11, h12⟩ hon hset hoff hown ht
  case ends =>
    exact fun c s t k hk hserving hmb hinline h0 h1 h2 h3 h4 h5 h6 h7 h8 h9 h10 h11 h12 hend hstate ht =>
      DisciplineAdmitted.exec_ends ⟨hk, ⟨hserving, hmb, hinline⟩, h0, h1, h2, h3, h4, h5, h6, h7, h8, h9, h10, h11, h12⟩ hend hstate ht
  case drops =>
    exact fun c s t k hk hserving hmb hinline h0 h1 h2 h3 h4 h5 h6 h7 h8 h9 h10 h11 h12 hend hstate ht =>
      DisciplineAdmitted.exec_drops ⟨hk, ⟨hserving, hmb, hinline⟩, h0, h1, h2, h3, h4, h5, h6, h7, h8, h9, h10, h11, h12⟩ hend hstate ht
  case locked =>
    exact fun c s t k hk hserving hmb hinline h0 h1 h2 h3 h4 h5 h6 h7 h8 h9 h10 h11 h12 hon hset hstate ht =>
      DisciplineAdmitted.exec_locked ⟨hk, ⟨hserving, hmb, hinline⟩, h0, h1, h2, h3, h4, h5, h6, h7, h8, h9, h10, h11, h12⟩ hon hset hstate ht
  case accepts =>
    exact fun c s t k hk hserving hmb hinline h0 h1 h2 h3 h4 h5 h6 h7 h8 h9 h10 h11 h12 hon hset hflag hstate ht =>
      DisciplineAdmitted.exec_accepts ⟨hk, ⟨hserving, hmb, hinline⟩, h0, h1, h2, h3, h4, h5, h6, h7, h8, h9, h10, h11, h12⟩ hon hset hflag hstate ht
  case stores =>
    exact fun c s t k hk hserving hmb hinline h0 h1 h2 h3 h4 h5 h6 h7 h8 h9 h10 h11 h12 hon hset hlock hstay hflag ht =>
      DisciplineAdmitted.exec_stores ⟨hk, ⟨hserving, hmb, hinline⟩, h0, h1, h2, h3, h4, h5, h6, h7, h8, h9, h10, h11, h12⟩ hon hset hlock hstay hflag ht
  case output =>
    exact fun c s k hk hserving hmb hinline h0 h1 h2 h3 h4 h5 h6 h7 h8 h9 h10 =>
      OutputAdmitted.exec_stores ⟨hk, ⟨hserving, hmb, hinline⟩, h0, h1, h2, h3, h4, h5, h6, h7, h8, h9, h10⟩
  case stamp =>
    exact fun c s k hk hserving hmb hinline hinput hflags hfilter hcomp =>
      execTimeStampConfig_stores ⟨hserving, hmb, hinline⟩ hk hinput hflags hfilter hcomp
  case ptp =>
    exact fun c s b hb hserving hmb hinline h0 h1 h2 h3 h4 h5 hon =>
      PtpAdmitted.exec_stores ⟨⟨hserving, hmb, hinline⟩, h0, h1, h2, h3, h4, h5⟩ hon hb
  case ptpConflict =>
    exact fun c s hserving hmb hinline h0 h1 h2 h3 h4 h5 hoff =>
      PtpAdmitted.exec_conflict ⟨⟨hserving, hmb, hinline⟩, h0, h1, h2, h3, h4, h5⟩ hoff
  case reads =>
    exact fun c s hserving hmb hinline hnone hrsv haligned =>
      execTimeStatus_reads ⟨hserving, hmb, hinline⟩ hrsv haligned hnone
  case moves =>
    exact fun c s n hn hserving hmb hinline hone hrsv haligned hbuf =>
      execTimeStatus_moves ⟨hserving, hmb, hinline⟩ hrsv haligned hone hbuf hn

end Sys2Proof.Machine

/-! PROOFS. The events of the time-base unit: edges, decisions, losses, seconds, outputs, stamps and PTP messages (chapter 16, O42). -/

namespace Sys2Proof.Machine

open Sys2Proof

variable {s u v : State}

/-- What an event of the time-base unit raises does not depend on its own registers. -/
theorem timeEvent_onTime (kind : Nat) (d : List Nat) (g : TimeSt → TimeSt) (s : State) :
    timeEvent kind d (s.onTime g) = (timeEvent kind d s).onTime g := by
  unfold timeEvent raise post
  rw [apply_ite (fun x : State => x.onTime g), apply_ite (fun x : State => x.onTime g), apply_ite (fun x : State => x.onTime g)]
  rfl

/-! ### Edges of PPS_IN -/

/-- The offset of an edge from the nearest second, in 1/8 ns (R422). -/
def edgeOffset (a : Int) : Int := a - roundDiv a 8000000000 * (8000000000 : Nat)

/-- The instant of an edge, in 1/8 ns. -/
def edgeInstant (n : Nat) (s : State) : Int := (stationAt s (n * 2 ^ 29 : Nat) / 2 ^ 29 : Nat) - 8 * s.time.cfg.ppsComp

/-- PPS is there again, with its event where it was lost. -/
def ppsSeen (s : State) : State := if s.time.ppsOk then s else timeEvent 0x04 [] (s.onTime (fun t => { t with ppsOk := true }))

/-- The offset waits for its decision. -/
def offsetTaken (x : Int) (s : State) : State := s.onTime (fun t => { t with theta := some x, lastTheta := x })

section
variable {b : Bool} {n : Nat}

theorem execPpsInEdge_other (h : b = s.time.cfg.falling ∨ s.time.started = false) : execPpsInEdge b n s = .next s :=
  if_pos (by simpa using h)

/-- The edge is of the polarity that counts, on a unit whose time runs. -/
structure PpsEdge (b : Bool) (s : State) : Prop where
  polarity : s.time.cfg.falling = !b
  started : s.time.started = true

variable (h : PpsEdge b s)
include h

theorem PpsEdge.exec_seen (hmode : s.time.cfg.mode = false) : execPpsInEdge b n s = .next (ppsSeen s) := by
  refine (if_neg ?_).trans (if_pos (by simp [hmode]))
  simp [h.polarity, h.started]

theorem PpsEdge.exec_taken (hmode : s.time.cfg.mode = true) {a : Int} (ha : a = edgeInstant n s) :
    execPpsInEdge b n s = .next (offsetTaken (edgeOffset a) (ppsSeen s)) := by
  subst ha
  refine (if_neg ?_).trans (if_neg (by simp [hmode]))
  simp [h.polarity, h.started]

end

/-! ### The decision (R423, R424) -/

/-- The offset has been decided on. -/
def offsetDone (s : State) : State := s.onTime (fun t => { t with theta := none })

/-- A refusal ends with the pulse that is accepted. -/
def stepAccepted (x : Int) (s : State) : State :=
  (timeEvent 0x03 [word32 (theta8 x), Config.openCode 0x1003 2] (offsetDone s)).onTime (fun t => { t with refused := false })

/-- The decision on a first pulse. -/
def decideFirst (x : Int) (s : State) : State :=
  if 8 * s.time.cfg.lockWin < x.natAbs then
    servo x 0 (stepTime (-(x * (2 ^ 29 : Nat))) (if s.time.accept then 2 else 1) (if s.time.accept then stepAccepted x s else offsetDone s))
  else servo x x (if s.time.accept then stepAccepted x s else offsetDone s)

/-- An outlier is discarded, and kept with the two before it. -/
def outlierDiscarded (l : List Int) (s : State) : State :=
  s.onTime (fun t => { t with theta := none, outs := l, goodRun := 0, inWin := 0, discarded := inc32 t.discarded })

/-- The discipline refuses a step. -/
def stepRefused (x : Int) (s : State) : State :=
  requal (freezeInc (timeEvent 0x03 [word32 (theta8 x), Config.openCode 0x1003 0] (s.onTime (fun t => { t with
    dstate := .refusing, refused := true, refusals := inc32 t.refusals, inWin := 0, outWin := 0 }))))

/-- A good pulse while the discipline refuses. -/
def goodPulse (s : State) : State := s.onTime (fun t => { t with theta := none, outs := [], goodRun := s.time.goodRun + 1 })

/-- The refusal ends with the third good pulse. -/
def refusalEnded (x : Int) (s : State) : State :=
  timeEvent 0x03 [word32 (theta8 x), Config.openCode 0x1003 1]
    (s.onTime (fun t => { t with dstate := .acquire, refused := false, goodRun := 0 }))

/-- An offset waits for a discipline that is on. -/
structure Deciding (x : Int) (s : State) : Prop where
  waiting : s.time.theta = some x
  mode : s.time.cfg.mode = true

section
variable {x : Int}

theorem execDisciplineDecision_none (h : s.time.theta = none) : execDisciplineDecision s = .next s := by
  simp only [execDisciplineDecision, h]

theorem execDisciplineDecision_off (h : s.time.theta = some x) (hmode : s.time.cfg.mode = false) :
    execDisciplineDecision s = .next (offsetDone s) := by
  simp only [execDisciplineDecision, h]
  exact if_pos (by simp [hmode])

variable (h : Deciding x s)
include h

theorem Deciding.exec_first (hfirst : s.time.first = true) : execDisciplineDecision s = .next (decideFirst x s) := by
  simp only [execDisciplineDecision, h.waiting]
  refine (if_neg (by simp [h.mode])).trans ((if_pos hfirst).trans ?_)
  have hstep : timeEvent 0x03 [word32 (theta8 x), Config.openCode 0x1003 2] ((offsetDone s).onTime (fun t => { t with refused := false })) =
      stepAccepted x s := timeEvent_onTime _ _ _ _
  rw [← apply_ite Host.Outcome.next]
  exact congrArg (fun w => Host.Outcome.next (if 8 * s.time.cfg.lockWin < x.natAbs then
    servo x 0 (stepTime (-(x * (2 ^ 29 : Nat))) (if s.time.accept then 2 else 1) (if s.time.accept then w else offsetDone s))
    else servo x x (if s.time.accept then w else offsetDone s))) hstep

variable (hlater : s.time.first = false)
include hlater

section
variable (hfar : 8 * s.time.cfg.stepMax < x.natAbs) {l : List Int} (hl : l = (x :: s.time.outs).take 3)
include hfar hl

theorem Deciding.exec_discards (hkeep : s.time.dstate = .refusing ∨ agree3 l = false) :
    execDisciplineDecision s = .next (outlierDiscarded l s) := by
  subst hl
  simp only [execDisciplineDecision, h.waiting]
  refine (if_neg (by simp [h.mode])).trans ((if_neg (by simp [hlater])).trans ((if_pos hfar).trans (if_neg ?_)))
  rintro ⟨hstate, hagree⟩
  rcases hkeep with hkeep | hkeep
  · exact hstate hkeep
  · exact Bool.false_ne_true (hkeep.symm.trans hagree)

theorem Deciding.exec_refuses (hstate : s.time.dstate ≠ .refusing) (hagree : agree3 l = true) :
    execDisciplineDecision s = .next (stepRefused x (outlierDiscarded l s)) := by
  subst hl
  simp only [execDisciplineDecision, h.waiting]
  exact (if_neg (by simp [h.mode])).trans ((if_neg (by simp [hlater])).trans ((if_pos hfar).trans (if_pos ⟨hstate, hagree⟩)))

end

variable (hnear : x.natAbs ≤ 8 * s.time.cfg.stepMax)
include hnear

theorem Deciding.exec_feeds (hstate : s.time.dstate ≠ .refusing) : execDisciplineDecision s = .next (servo x x (offsetDone s)) := by
  simp only [execDisciplineDecision, h.waiting]
  exact (if_neg (by simp [h.mode])).trans ((if_neg (by simp [hlater])).trans ((if_neg (Nat.not_lt.mpr hnear)).trans (if_neg hstate)))

variable (hstate : s.time.dstate = .refusing)
include hstate

theorem Deciding.exec_good (hrun : s.time.goodRun < 2) : execDisciplineDecision s = .next (goodPulse s) := by
  simp only [execDisciplineDecision, h.waiting]
  refine (if_neg (by simp [h.mode])).trans ((if_neg (by simp [hlater])).trans ((if_neg (Nat.not_lt.mpr hnear)).trans ?_))
  exact (if_pos hstate).trans (if_pos (by omega))

theorem Deciding.exec_ends (hrun : 2 ≤ s.time.goodRun) : execDisciplineDecision s = .next (refusalEnded x (goodPulse s)) := by
  simp only [execDisciplineDecision, h.waiting]
  refine (if_neg (by simp [h.mode])).trans ((if_neg (by simp [hlater])).trans ((if_neg (Nat.not_lt.mpr hnear)).trans ?_))
  exact (if_pos hstate).trans (if_neg (by omega))

end

theorem decideFirst_near {x : Int} (hnear : x.natAbs ≤ 8 * s.time.cfg.lockWin) :
    decideFirst x s = servo x x (if s.time.accept then stepAccepted x s else offsetDone s) :=
  if_neg (Nat.not_lt.mpr hnear)

theorem decideFirst_far {x : Int} (hfar : 8 * s.time.cfg.lockWin < x.natAbs) : decideFirst x s =
    servo x 0 (stepTime (-(x * (2 ^ 29 : Nat))) (if s.time.accept then 2 else 1) (if s.time.accept then stepAccepted x s else offsetDone s)) :=
  if_pos hfar

/-! ### Losses and the link tracker -/

/-- PPS is lost. -/
def ppsGone (s : State) : State := timeEvent 0x04 [] (s.onTime (fun t => { t with ppsOk := false }))

theorem execPpsLoss_held (hok : s.time.ppsOk = true) (hstate : s.time.dstate = .locked ∨ s.time.dstate = .acquire) :
    execPpsLoss s = .next (requal (freezeInc ((ppsGone s).onTime (fun t => { t with dstate := .holdover, inWin := 0, outWin := 0 })))) :=
  (if_neg (by simp [hok])).trans (if_pos hstate.symm)

theorem execPpsLoss_noted (hok : s.time.ppsOk = true) (hlock : s.time.dstate ≠ .locked) (hacq : s.time.dstate ≠ .acquire) :
    execPpsLoss s = .next (ppsGone s) :=
  (if_neg (by simp [hok])).trans (if_neg (by simp [hlock, hacq]))

/-- The link tracker counts: it is on, and time runs. -/
structure LinkTracked (s : State) : Prop where
  on : s.time.cfg.linkTrack = true
  started : s.time.started = true

/-- The increment that a count of DCLK cycles in a millisecond gives (R418). -/
def trackedInc (n : Nat) : Nat := (roundDiv ((n * 8 * 2 ^ 32 : Nat) : Int) 2500000).toNat

section
variable {n i : Nat} (h : LinkTracked s)
include h

theorem LinkTracked.exec_nominal (hself : s.power.straps.trefsel = false) :
    execLinkTrackUpdate n s = .next (baseUpd 2 (fun b => { b with inc := 0x200000000 }) s) :=
  (if_neg (by simp [h.on, h.started])).trans (if_pos (by simp [hself]))

theorem LinkTracked.exec_tracks (href : s.power.straps.trefsel = true) (hi : i = trackedInc n) : execLinkTrackUpdate n s =
    .next (when (0x1FFF2E48F ≤ i && i ≤ 0x2000D1B71) (baseUpd 2 (fun b => { b with inc := i })) s) := by
  unfold trackedInc at hi
  unfold execLinkTrackUpdate
  rw [← hi, if_neg (by simp [h.on, h.started]), if_neg (by simp [href])]

end

/-! ### Edge stamping -/

section
variable {i : Fin 32} {b h : Bool} {n : Nat} {k : StampCfg}

/-- The input stamps this edge. -/
structure Stamping (i : Fin 32) (b : Bool) (k : StampCfg) (s : State) : Prop where
  config : k = tget {} s.time.stampCfg i
  on : k.on = true
  edge : (if b then k.rise else k.fall) = true
  started : s.time.started = true

/-- The stamp of an edge. -/
def edgeStamp (i : Fin 32) (b : Bool) (n : Nat) (k : StampCfg) (s : State) : TsEntry := {
  time := stampOf ((((stationAt s (n * 2 ^ 29 : Nat) / 2 ^ 29 : Nat) : Int) - 8 * k.comp).toNat * 2 ^ 29), input := i, rise := b, lost := false }

theorem Stamping.exec_stamps (hs : Stamping i b k s) (hheld : h = true ∨ k.filter = 0) :
    execTsInEdge i b n h s = .next (stampAdd (edgeStamp i b n k s) s) := by
  obtain ⟨rfl, hon, hedge, hstarted⟩ := hs
  refine (if_neg ?_).trans (if_neg ?_)
  · simp only [hon, hedge, hstarted, Bool.not_true, Bool.false_eq_true, or_self, not_false_eq_true]
  · rcases hheld with hheld | hfilter
    · simp [hheld]
    · simp [hfilter]

theorem Stamping.exec_ignores (hs : Stamping i b k s) (hfilter : k.filter ≠ 0) : execTsInEdge i b n false s =
    .next (s.onTime (fun t => { t with ignored := tupd 0 t.ignored i (fun x => inc32 x) })) := by
  obtain ⟨rfl, hon, hedge, hstarted⟩ := hs
  refine (if_neg ?_).trans (if_pos ⟨rfl, hfilter⟩)
  simp only [hon, hedge, hstarted, Bool.not_true, Bool.false_eq_true, or_self, not_false_eq_true]

theorem execTsInEdge_other (hk : k = tget {} s.time.stampCfg i)
    (hoff : k.on = false ∨ (if b then k.rise else k.fall) = false ∨ s.time.started = false) : execTsInEdge i b n h s = .next s := by
  subst hk
  exact if_pos (by simpa only [Bool.not_eq_true'] using hoff)

end

/-! ### PTP -/

section
variable {p : Fin 4}

/-- The Announce of a master. -/
def announceOf (p : Fin 4) (s : State) : PtpTx :=
  .announce (clockId s p) s.time.qual.clockClass (tmqCode s) (ptpGet s p).prio1 (ptpGet s p).prio2 (ptpGet s p).tsrc
    (if s.time.utcValid then s.time.taiUtc else 0) s.time.utcValid (s.time.leap.any (fun l => 0 < l.1)) (s.time.leap.any (fun l => l.1 < 0))

theorem execPtpSyncSend_sends (hmaster : (ptpGet s p).state = 2) : execPtpSyncSend p s =
    .next (ptpUpd p (fun x => { x with sent := (if timeUnset s then [] else [announceOf p s]) ++ [.sync (stationNow s) x.twoStep] }) s) :=
  if_neg (not_not_intro hmaster)

theorem execPtpMessageReceive_deaf {m : PtpIn} (h : (ptpGet s p).state = 0 ∨ portUp s p = false) : execPtpMessageReceive p m s = .next s :=
  if_pos (by simpa using h)

/-- The PTP port hears messages. -/
structure PtpHears (p : Fin 4) (s : State) : Prop where
  on : (ptpGet s p).state ≠ 0
  up : portUp s p = true

theorem PtpHears.exec_answers (h : PtpHears p s) : execPtpMessageReceive p .pdelayReq s =
    .next (ptpUpd p (fun x => { x with sent := .pdelayResp :: x.sent.take 1 }) s) :=
  if_neg (by simp [h.on, h.up])

theorem execPtpMessageReceive_ignores {d : Nat} {b : Bool} {x : Word64} (h : d ≠ (ptpGet s p).domain ∨ b = false ∨ followsTime s = true) :
    execPtpMessageReceive p (.announce d b x) s = .next s := by
  simp only [execPtpMessageReceive]
  split
  · rfl
  · exact if_pos (by simpa using h)

/-- The port goes PASSIVE behind the better clock `x`. -/
def ptpBehind (p : Fin 4) (x : Word64) (s : State) : State := ptpUpd p (fun y => { y with state := 3, better := x.toNat }) s

theorem PtpHears.exec_passive (h : PtpHears p s) (hown : followsTime s = false) {x : Word64} :
    execPtpMessageReceive p (.announce (ptpGet s p).domain true x) s =
      .next (when ((ptpGet s p).state != 3) (ptpPassive p x.toNat) (ptpBehind p x s)) := by
  refine (if_neg (by simp [h.on, h.up])).trans (if_neg ?_)
  simp [hown]

end

/-- Settles O42: each event by the branch of its condition. A ratio out of range that changes nothing, served instants and the operand of a
better clock are assumptions 167, 168 and 47; that events with nothing to act on change nothing is assumption 9. -/
theorem timeEventsDisciplineAndShowTime : Obligations.TimeEventsDisciplineAndShowTime := by
  unfold Obligations.TimeEventsDisciplineAndShowTime
  refine ⟨?edgeOther, ?edgeSeen, ?edgeBack, ?edgeTaken, ?edgeBackTaken, ?noOffset, ?offsetOff, ?firstNear, ?firstFar, ?acceptNear, ?acceptFar,
    ?feeds, ?discards, ?refuses, ?good, ?ends, ?lossHeld, ?lossNoted, ?lossKnown, ?tracks, ?trackedOut, ?nominal, ?notTracked, ?grows, ?unset,
    ?leap, ?noLeap, ?pulse, ?noPulse, ?pulseEnd, ?frame, ?noFrame, ?stamps, ?ignores, ?noStamp, ?sync, ?announce, ?notMaster, ?answers, ?deaf,
    ?ignored, ?passive, ?staysPassive, ?masterAgain, ?master, ?noTimeout, ?loads, ?noLoad⟩
  case edgeOther => exact fun b n s h => execPpsInEdge_other h
  case edgeSeen =>
    exact fun b n s hpol hstarted hok hmode =>
      (PpsEdge.exec_seen ⟨hpol, hstarted⟩ hmode).trans (congrArg Host.Outcome.next (if_pos hok))
  case edgeBack =>
    exact fun b n s hpol hstarted hok hmode =>
      (PpsEdge.exec_seen ⟨hpol, hstarted⟩ hmode).trans (congrArg Host.Outcome.next (if_neg (ne_true_of_eq_false hok)))
  case edgeTaken =>
    exact fun b n a s hpol hstarted hok hmode ha =>
      (PpsEdge.exec_taken ⟨hpol, hstarted⟩ hmode ha).trans (congrArg (fun w => Host.Outcome.next (offsetTaken (edgeOffset a) w)) (if_pos hok))
  case edgeBackTaken =>
    exact fun b n a s hpol hstarted hok hmode ha =>
      (PpsEdge.exec_taken ⟨hpol, hstarted⟩ hmode ha).trans
        (congrArg (fun w => Host.Outcome.next (offsetTaken (edgeOffset a) w)) (if_neg (ne_true_of_eq_false hok)))
  case noOffset => exact fun s h => execDisciplineDecision_none h
  case offsetOff => exact fun x s h hmode => execDisciplineDecision_off h hmode
  case firstNear =>
    intro x s hx hmode hfirst hacc hnear
    refine (Deciding.exec_first ⟨hx, hmode⟩ hfirst).trans ?_
    rw [decideFirst_near hnear, hacc]
    rfl
  case firstFar =>
    intro x s hx hmode hfirst hacc hfar
    refine (Deciding.exec_first ⟨hx, hmode⟩ hfirst).trans ?_
    rw [decideFirst_far hfar, hacc]
    rfl
  case acceptNear =>
    intro x s v hx hmode hfirst hacc hnear hv
    subst hv
    refine (Deciding.exec_first ⟨hx, hmode⟩ hfirst).trans ?_
    rw [decideFirst_near hnear, hacc]
    rfl
  case acceptFar =>
    intro x s v hx hmode hfirst hacc hfar hv
    subst hv
    refine (Deciding.exec_first ⟨hx, hmode⟩ hfirst).trans ?_
    rw [decideFirst_far hfar, hacc]
    rfl
  case feeds => exact fun x s hx hmode hlater hnear hstate => Deciding.exec_feeds ⟨hx, hmode⟩ hlater hnear hstate
  case discards => exact fun x l s hx hmode hlater hfar hl hkeep => Deciding.exec_discards ⟨hx, hmode⟩ hlater hfar hl hkeep
  case refuses =>
    exact fun x l s hx hmode hlater hfar hl hstate hagree => Deciding.exec_refuses ⟨hx, hmode⟩ hlater hfar hl hstate hagree
  case good => exact fun x s hx hmode hlater hnear hstate hrun => Deciding.exec_good ⟨hx, hmode⟩ hlater hnear hstate hrun
  case ends => exact fun x s hx hmode hlater hnear hstate hrun => Deciding.exec_ends ⟨hx, hmode⟩ hlater hnear hstate hrun
  case lossHeld => exact fun s hok hstate => execPpsLoss_held hok hstate
  case lossNoted => exact fun s hok hlock hacq => execPpsLoss_noted hok hlock hacq
  case lossKnown => exact fun s h => if_pos (by simp [h])
  case tracks =>
    exact fun n i s hon hstarted href hi hlow hhigh =>
      (LinkTracked.exec_tracks ⟨hon, hstarted⟩ href hi).trans (congrArg Host.Outcome.next (when_of_true (by simp [hlow, hhigh])))
  case trackedOut =>
    exact fun n i s hon hstarted href hi hout =>
      (LinkTracked.exec_tracks ⟨hon, hstarted⟩ href hi).trans (congrArg Host.Outcome.next (when_of_false (by simp; omega)))
  case nominal => exact fun n s hon hstarted hself => LinkTracked.exec_nominal ⟨hon, hstarted⟩ hself
  case notTracked => exact fun n s h => if_pos (by simpa using h)
  case grows => exact fun s h => if_neg (by simp [h])
  case unset => exact fun s h => if_pos h
  case leap =>
    intro d n s h
    show execLeapSecond s = _
    simp only [execLeapSecond, h]
  case noLeap =>
    intro s h
    show execLeapSecond s = _
    simp only [execLeapSecond, h]
  case pulse => exact fun o n s hmay hnew => if_neg (by simp only [hmay, Nat.not_lt.mpr hnew]; simp)
  case noPulse => exact fun o n s h => if_pos (by simpa only [Bool.not_eq_true'] using h)
  case pulseEnd => exact fun o s => rfl
  case frame =>
    intro n k v s hk hv hmay hnew
    subst hk hv
    exact if_neg (by simp only [hmay, Nat.not_lt.mpr hnew]; simp)
  case noFrame => exact fun n s h => if_pos (by simpa only [Bool.not_eq_true'] using h)
  case stamps =>
    exact fun i b h n k s hk hon hedge hstarted hheld => Stamping.exec_stamps ⟨hk, hon, hedge, hstarted⟩ hheld
  case ignores =>
    exact fun i b n k s hk hon hedge hstarted hfilter => Stamping.exec_ignores ⟨hk, hon, hedge, hstarted⟩ hfilter
  case noStamp => exact fun i b h n k s hk hoff => execTsInEdge_other hk hoff
  case sync =>
    intro p s hmaster hunset
    refine (execPtpSyncSend_sends hmaster).trans ?_
    rw [hunset]
    rfl
  case announce =>
    intro p s hmaster hset
    refine (execPtpSyncSend_sends hmaster).trans ?_
    rw [hset]
    rfl
  case notMaster => exact fun p s h => if_pos h
  case answers => exact fun p s hon hup => PtpHears.exec_answers ⟨hon, hup⟩
  case deaf => exact fun p m s h => execPtpMessageReceive_deaf h
  case ignored => exact fun p d b x s h => execPtpMessageReceive_ignores h
  case passive =>
    exact fun p x s hon hnew hup hown =>
      (PtpHears.exec_passive ⟨hon, hup⟩ hown).trans (congrArg Host.Outcome.next (when_of_true (by simpa using hnew)))
  case staysPassive =>
    exact fun p x s hstate hup hown =>
      (PtpHears.exec_passive ⟨by simp [hstate], hup⟩ hown).trans (congrArg Host.Outcome.next (when_of_false (by simp [hstate])))
  case masterAgain => exact fun p s h => if_pos h
  case master => exact fun p s h hown => (if_neg (by simp [h])).trans (if_pos (by simp [h, hown]))
  case noTimeout =>
    intro p s hnot h
    refine (if_neg hnot).trans (if_neg ?_)
    rintro ⟨hstate, hown⟩
    rcases h with h | h
    · exact h hstate
    · simp [h] at hown
  case loads => exact fun n s hset hthere => if_neg (by rw [hset, hthere]; simp)
  case noLoad => exact fun n s h => if_pos h

end Sys2Proof.Machine

/-! PROOFS. The NET commands configure ports, subscriptions, publications, streams, mappings and DMA, and read (Table 17.12, O43). -/

namespace Sys2Proof.Machine

open Sys2Proof

variable {c : Cmd} {s v : State}

/-! ### NET_PORT_CONFIG -/

/-- The MAC address that NET_PORT_CONFIG gives. -/
def portMac (c : Cmd) : Nat := beVal ((c.params.drop 2).take 6)

/-- NET_PORT_CONFIG has parameters in range. -/
structure PortAdmitted (c : Cmd) (s : State) : Prop where
  served : CmdServed 8 c s
  port : c.u8 0 < 4
  flags : c.u8 1 < 8
  unicast : multicast (portMac c) = false

/-- The port takes its parameters. -/
def portStored (c : Cmd) (on : Bool) (s : State) : State :=
  s.onNet (fun x => { x with eth := tset x.eth (c.u8 0) ⟨on, bit (c.u8 1) 1, bit (c.u8 1) 2, portMac c⟩ })

/-- The result of NET_PORT_CONFIG. -/
def portConfigResult (c : Cmd) (s : State) : Bytes := le 1 (b2n (portUp s (c.u8 0))) ++ macBytes (macOf s (c.u8 0))

section
variable (h : PortAdmitted c s)
include h

theorem PortAdmitted.par : (decide (c.u8 0 < 4) && decide (c.u8 1 < 8) && !multicast (portMac c)) = true := by
  simp only [h.port, h.flags, h.unicast, decide_true, Bool.not_false, Bool.and_self]

theorem PortAdmitted.exec_opens (hon : bit (c.u8 1) 0 = true) (hv : v = portStored c true s) :
    execNetPortConfig c s = .next (answer 0x0D01 c .ok (portConfigResult c v) v) := by
  subst hv
  unfold execNetPortConfig
  refine (h.served.passes h.par).answers rfl rfl ((if_neg (by simp [hon])).trans ?_)
  simp only [hon, if_true]
  rfl

theorem PortAdmitted.exec_closes (hoff : bit (c.u8 1) 0 = false) (hptp : (ptpGet s (c.u8 0)).on = false)
    (hv : v = linkChange (c.u8 0) false (portStored c false s)) :
    execNetPortConfig c s = .next (answer 0x0D01 c .ok (portConfigResult c v) v) := by
  subst hv
  unfold execNetPortConfig
  refine (h.served.passes h.par).answers rfl rfl ((if_neg (by simp [hptp])).trans ?_)
  simp only [hoff, Bool.false_eq_true, if_false]
  rfl

theorem PortAdmitted.exec_conflict (hoff : bit (c.u8 1) 0 = false) (hptp : (ptpGet s (c.u8 0)).on = true) :
    execNetPortConfig c s = .next (answer 0x0D01 c .conflict [] s) := by
  unfold execNetPortConfig
  exact (h.served.passes h.par).answers rfl rfl (if_pos (by simp [hoff, hptp]))

end

/-! ### The gate of NET_GOOSE_CONFIG and NET_SV_CONFIG -/

/-- MB1 to MB7 send a block of `n` bytes to an active or standby unit that serves commands. -/
structure NetServed (n : Nat) (c : Cmd) (s : State) : Prop where
  serving : Serving s
  mailbox : c.mb ≠ 0
  role : s.dev.role = .active ∨ s.dev.role = .standby
  params : External c (fun m => m == n)

/-- The gate of a command that stages into shadow set 8. -/
def netGate (opcode n : Nat) (par : Bool) (c : Cmd) (s : State) : Gate := {
  opcode := opcode, len := c.extLen (fun m => m == n), legal := notBoot, roles := actStby, free := !setHeld s 8, par := par }

section
variable {n opcode : Nat} {par : Bool} {act : State → Reply} (h : NetServed n c s)
include h

theorem NetServed.passes (hpar : par = true) : (netGate opcode n par c s).Passes c s := by
  obtain ⟨_, hstate, _⟩ := admits_of_serving h.serving h.mailbox
  exact Gate.OpenIn.passes (roles := [.active, .standby]) ⟨rfl, rfl, rfl, rfl, rfl⟩ ⟨h.mailbox, hstate, by simpa using h.role⟩ (.of_external h.params rfl) rfl hpar

theorem NetServed.answers (hpar : par = true) (hfree : setHeld s 8 = false) {st : Status} {r : Bytes} (hact : act s = ⟨v, st, r, false⟩) :
    runCmd (netGate opcode n par c s) c s act = .next (answer opcode c st r v) :=
  (h.passes hpar).answers (by simp [netGate, hfree]) rfl hact

theorem NetServed.busy (hpar : par = true) (hheld : setHeld s 8 = true) :
    runCmd (netGate opcode n par c s) c s act = .next (answer opcode c .busy [] s) :=
  (h.passes hpar).busy (by simp [netGate, hheld])

theorem NetServed.refused (hpar : par = false) :
    runCmd (netGate opcode n par c s) c s act = .next (answer opcode c .badParam [] s) := by
  have hopen := h.passes (opcode := opcode) (par := true) rfl
  exact runCmd_of_fail h.serving (Gate.fail_of_par hopen.mailbox rfl hopen.len rfl hopen.legal hopen.roles rfl hpar) (by decide)

end

/-! ### NET_GOOSE_CONFIG -/

/-- The destination and the names of a GOOSE block. -/
def gooseMac (c : Cmd) : Nat := beVal ((c.params.drop 16).take 6)

def gooseNames (c : Cmd) : Bytes := (c.params.drop 32).take 192

/-- The codes of a publication, and those in use. -/
def gooseEntries (c : Cmd) : List Nat := (List.range 24).map (fun n => c.u32 (224 + 4 * n))

def gooseUsed (c : Cmd) : List Nat := (gooseEntries c).takeWhile (· != 0)

/-- A subscription, a mapping and a publication as NET_GOOSE_CONFIG gives them. -/
def subRead (c : Cmd) : GsubCfg :=
  ⟨bit (c.u8 4) 0, bit (c.u8 4) 1, c.u8 4 / 4 % 16, c.u16 8, gooseMac c, c.u32 24, c.u16 14, gooseNames c⟩

def mapRead (c : Cmd) : MapCfg := ⟨bit (c.u8 6) 0, bit (c.u8 6) 1, c.u8 4, c.u8 5, c.u32 8⟩

def pubRead (c : Cmd) : GpubCfg :=
  ⟨bit (c.u8 4) 0, c.u8 4 / 4 % 16, c.u16 8, gooseMac c, c.u32 24, c.u16 28, c.u16 30, gooseNames c, gooseEntries c⟩

/-- The range check of what a subscription and a publication share. -/
def gooseIdent (c : Cmd) : Bool :=
  c.u8 4 < 64 && c.rsv 5 3 && c.u16 8 ≤ 0x3FFF && multicast (gooseMac c) && c.rsv 10 4 && c.rsv 22 2

/-- The range check of NET_GOOSE_CONFIG. -/
def goosePar (c : Cmd) : Bool :=
  match c.u8 0 with
  | 0 => c.u16 2 < 64 && gooseIdent c && 1 ≤ c.u16 14 && c.u16 14 ≤ 10000 && asciiOk (gooseNames c) && c.rsv 224 96
  | 1 => 128 ≤ c.u16 2 && c.u16 2 < 192 && c.u8 4 < 64 && c.u8 5 < 128 && c.u8 6 < 4 && c.rsv 7 1 && 1 ≤ c.u32 8 && c.u32 8 < 2 ^ 31 &&
      c.rsv 12 308
  | 2 => c.u16 2 < 16 && gooseIdent c && asciiOk (gooseNames c) && 1 ≤ c.u16 28 && c.u16 28 ≤ 1000 && c.u16 28 ≤ c.u16 30 &&
      c.u16 30 ≤ 60000 && (gooseUsed c).all pubEntryOk
  | _ => false

/-- A mapping names a subscription that is off, an entry a unit that is absent, or a safe connection asks otherwise. -/
def gooseBad (c : Cmd) (s : State) : Bool :=
  (c.u8 0 == 1 && !(subShadow s (c.u8 4)).on) || (c.u8 0 == 2 && (gooseUsed c).any (fun e => !pubEntryFit s e)) ||
    ((c.u8 0 != 1 && safeNames s (c.u8 0 == 2) (c.u16 2)) && (c.u8 4 / 4 % 16 != 3 || (c.u8 0 == 2 && !(gooseUsed c).isEmpty)))

/-- What NET_GOOSE_CONFIG stages. -/
def gooseStaged (c : Cmd) (s : State) : State :=
  stage 8 c.params (s.onNet (fun x =>
    match c.u8 0 with
    | 0 => { x with subNew := tset x.subNew (c.u16 2) (subRead c) }
    | 1 => { x with mapNew := tset x.mapNew (c.u16 2) (mapRead c) }
    | _ => { x with pubNew := tset x.pubNew (c.u16 2) (pubRead c) }))

/-- How many subscriptions, mappings or publications are enabled. -/
def gooseCount (c : Cmd) (s : State) : Nat :=
  match c.u8 0 with
  | 0 => ((List.range 64).filter (fun m => (subShadow s m).on)).length
  | 1 => ((List.range 64).filter (fun m => (mapShadow s (128 + m)).on)).length
  | _ => ((List.range 16).filter (fun m => (pubShadow s m).on)).length

/-- What NET_GOOSE_CONFIG does. -/
def gooseAct (c : Cmd) (s : State) : Reply :=
  if gooseBad c s then ⟨s, .conflict, [], false⟩ else okReply (gooseStaged c s) (le 2 (gooseCount c (gooseStaged c s)))

theorem execNetGooseConfig_eq : execNetGooseConfig c s = runCmd (netGate 0x0D02 320 (goosePar c && c.rsv 1 1) c s) c s (gooseAct c) := rfl

/-- NET_GOOSE_CONFIG has parameters in range. -/
structure GooseAdmitted (c : Cmd) (s : State) : Prop where
  served : NetServed 320 c s
  reserved : c.rsv 1 1 = true
  range : goosePar c = true

section
variable (h : GooseAdmitted c s)
include h

theorem GooseAdmitted.par : (goosePar c && c.rsv 1 1) = true := by simp only [h.range, h.reserved, Bool.and_self]

theorem GooseAdmitted.exec_busy (hheld : setHeld s 8 = true) : execNetGooseConfig c s = .next (answer 0x0D02 c .busy [] s) := by
  rw [execNetGooseConfig_eq]
  exact h.served.busy h.par hheld

variable (hfree : setHeld s 8 = false)
include hfree

theorem GooseAdmitted.exec_conflict (hbad : gooseBad c s = true) : execNetGooseConfig c s = .next (answer 0x0D02 c .conflict [] s) := by
  rw [execNetGooseConfig_eq]
  exact h.served.answers h.par hfree (if_pos hbad)

theorem GooseAdmitted.exec_stages (hgood : gooseBad c s = false) (hv : gooseStaged c s = v) :
    execNetGooseConfig c s = .next (answer 0x0D02 c .ok (le 2 (gooseCount c v)) v) := by
  subst hv
  rw [execNetGooseConfig_eq]
  exact h.served.answers h.par hfree (if_neg (ne_true_of_eq_false hgood))

end

/-- The fields that a subscription and a publication share are in range. -/
structure GooseIdent (c : Cmd) : Prop where
  flags : c.u8 4 < 64
  gap : c.rsv 5 3 = true
  application : c.u16 8 ≤ 0x3FFF
  group : multicast (gooseMac c) = true
  reserved : c.rsv 10 4 = true
  tail : c.rsv 22 2 = true

theorem GooseIdent.fits (h : GooseIdent c) : gooseIdent c = true := by
  simp only [gooseIdent, h.flags, h.gap, h.application, h.group, h.reserved, h.tail, decide_true, Bool.and_self]

/-- NET_GOOSE_CONFIG of a subscription. -/
structure SubAdmitted (c : Cmd) (s : State) (k : GsubCfg) : Prop where
  read : k = subRead c
  served : NetServed 320 c s
  reserved : c.rsv 1 1 = true
  kind : c.u8 0 = 0
  number : c.u16 2 < 64
  ident : GooseIdent c
  names : asciiOk k.names = true
  windowLow : 1 ≤ c.u16 14
  windowHigh : c.u16 14 ≤ 10000
  tail : c.rsv 224 96 = true

section
variable {k : GsubCfg} (h : SubAdmitted c s k)
include h

theorem SubAdmitted.admitted : GooseAdmitted c s := by
  obtain ⟨rfl, hserved, hrsv, hkind, hnumber, hident, hnames, hlow, hhigh, htail⟩ := h
  have hnames : asciiOk (gooseNames c) = true := hnames
  refine ⟨hserved, hrsv, ?_⟩
  simp only [goosePar, hkind, hnumber, hident.fits, hlow, hhigh, hnames, htail, decide_true, Bool.and_self]

theorem SubAdmitted.bad_eq : gooseBad c s = (safeNames s false (c.u16 2) && k.ports != 3) := by
  obtain rfl := h.read
  simp [gooseBad, h.kind, subRead]

theorem SubAdmitted.staged_eq (hv : v = stage 8 c.params (s.onNet (fun x => { x with subNew := tset x.subNew (c.u16 2) k }))) :
    gooseStaged c s = v := by
  obtain rfl := h.read
  simp only [gooseStaged, h.kind, hv]

theorem SubAdmitted.count_eq : gooseCount c v = ((List.range 64).filter (fun m => (subShadow v m).on)).length := by
  simp only [gooseCount, h.kind]

end

/-- NET_GOOSE_CONFIG of a mapping. -/
structure GooseMapAdmitted (c : Cmd) (s : State) (k : MapCfg) : Prop where
  read : k = mapRead c
  served : NetServed 320 c s
  reserved : c.rsv 1 1 = true
  kind : c.u8 0 = 1
  low : 128 ≤ c.u16 2
  high : c.u16 2 < 192
  source : c.u8 4 < 64
  position : c.u8 5 < 128
  flags : c.u8 6 < 4
  gap : c.rsv 7 1 = true
  baseLow : 1 ≤ c.u32 8
  baseHigh : c.u32 8 < 2 ^ 31
  tail : c.rsv 12 308 = true

section
variable {k : MapCfg} (h : GooseMapAdmitted c s k)
include h

theorem GooseMapAdmitted.admitted : GooseAdmitted c s := by
  refine ⟨h.served, h.reserved, ?_⟩
  simp only [goosePar, h.kind, h.low, h.high, h.source, h.position, h.flags, h.gap, h.baseLow, h.baseHigh, h.tail, decide_true, Bool.and_self]

theorem GooseMapAdmitted.bad_eq : gooseBad c s = !(subShadow s k.src).on := by
  obtain rfl := h.read
  simp [gooseBad, h.kind, mapRead]

theorem GooseMapAdmitted.staged_eq (hv : v = stage 8 c.params (s.onNet (fun x => { x with mapNew := tset x.mapNew (c.u16 2) k }))) :
    gooseStaged c s = v := by
  obtain rfl := h.read
  simp only [gooseStaged, h.kind, hv]

theorem GooseMapAdmitted.count_eq : gooseCount c v = ((List.range 64).filter (fun m => (mapShadow v (128 + m)).on)).length := by
  simp only [gooseCount, h.kind]

end

/-- NET_GOOSE_CONFIG of a publication. -/
structure PubAdmitted (c : Cmd) (s : State) (k : GpubCfg) : Prop where
  read : k = pubRead c
  served : NetServed 320 c s
  reserved : c.rsv 1 1 = true
  kind : c.u8 0 = 2
  number : c.u16 2 < 16
  ident : GooseIdent c
  names : asciiOk k.names = true
  leastLow : 1 ≤ c.u16 28
  leastHigh : c.u16 28 ≤ 1000
  most : c.u16 28 ≤ c.u16 30
  mostHigh : c.u16 30 ≤ 60000
  entries : (pubEntries k).all pubEntryOk = true

/-- The entries of a publication name units that are there, and a safe connection takes it as it is. -/
def PubTaken (c : Cmd) (k : GpubCfg) (s : State) : Prop :=
  (pubEntries k).all (fun e => pubEntryFit s e) = true ∧ (safeNames s true (c.u16 2) = false ∨ (k.ports = 3 ∧ pubEntries k = []))

section
variable {k : GpubCfg} (h : PubAdmitted c s k)
include h

theorem PubAdmitted.admitted : GooseAdmitted c s := by
  obtain ⟨rfl, hserved, hrsv, hkind, hnumber, hident, hnames, hlow, hhigh, hmost, hmostHigh, hentries⟩ := h
  have hnames : asciiOk (gooseNames c) = true := hnames
  have hentries : (gooseUsed c).all pubEntryOk = true := hentries
  refine ⟨hserved, hrsv, ?_⟩
  simp only [goosePar, hkind, hnumber, hident.fits, hnames, hlow, hhigh, hmost, hmostHigh, hentries, decide_true, Bool.and_self]

theorem PubAdmitted.bad_eq_false_iff : gooseBad c s = false ↔ PubTaken c k s := by
  obtain rfl := h.read
  have hused : pubEntries (pubRead c) = gooseUsed c := rfl
  have hports : (pubRead c).ports = c.u8 4 / 4 % 16 := rfl
  simp only [gooseBad, PubTaken, h.kind, hused, hports, Bool.or_eq_false_iff, Bool.and_eq_false_iff, List.all_eq_true, List.any_eq_false,
    Bool.not_eq_true', Bool.not_eq_false', bne_eq_false_iff_eq, List.isEmpty_iff]
  simp

theorem PubAdmitted.staged_eq (hv : v = stage 8 c.params (s.onNet (fun x => { x with pubNew := tset x.pubNew (c.u16 2) k }))) :
    gooseStaged c s = v := by
  obtain rfl := h.read
  simp only [gooseStaged, h.kind, hv]

theorem PubAdmitted.count_eq : gooseCount c v = ((List.range 16).filter (fun m => (pubShadow v m).on)).length := by
  simp only [gooseCount, h.kind]

end

/-! ### NET_SV_CONFIG -/

/-- A stream as NET_SV_CONFIG gives it. -/
def svRead (c : Cmd) : SvCfg := {
  on := bit (c.u8 2) 0, port2 := bit (c.u8 2) 1, port3 := bit (c.u8 2) 2, test := bit (c.u8 2) 3, localOk := bit (c.u8 2) 4,
  misInv := bit (c.u8 2) 5, nasdu := c.u8 3, nval := c.u8 20, appid := c.u16 4, dmac := beVal ((c.params.drop 6).take 6),
  confRev := c.u32 12, rate := c.u32 16, miss := c.u8 21, dupWin := c.u16 22, svid := (c.params.drop 28).take 64 }

/-- The longest frame of the stream fits (R444). -/
def SvFrameFits (k : SvCfg) : Prop := k.nasdu * k.nval * 8 + Config.svOverhead k.nasdu (nameLen k.svid) ≤ 1522

/-- The range check of NET_SV_CONFIG. -/
def svPar (c : Cmd) (s : State) : Bool :=
  match c.u8 0 with
  | 0 => c.u8 1 < 16 && c.u8 2 < 64 && ((svRead c).port2 || (svRead c).port3) && 1 ≤ (svRead c).nasdu && (svRead c).nasdu ≤ 8 &&
      1 ≤ (svRead c).nval && (svRead c).nval ≤ 16 && 0x4000 ≤ (svRead c).appid && (svRead c).appid ≤ 0x7FFF && multicast (svRead c).dmac &&
      4000 ≤ (svRead c).rate && (svRead c).rate ≤ 96000 && 1 ≤ (svRead c).miss && (svRead c).miss ≤ 16 && 1 ≤ (svRead c).dupWin &&
      (svRead c).dupWin ≤ 10000 && asciiOk (svRead c).svid && c.rsv 24 4 && c.rsv 92 36 &&
      (svRead c).nasdu * (svRead c).nval * 8 + Config.svOverhead (svRead c).nasdu (nameLen (svRead c).svid) ≤ 1522
  | 1 => c.u16 2 < 128 && c.u8 4 < 16 && c.u8 5 < (svShadow s (c.u8 4)).nval && c.u8 6 < 4 && 1 ≤ c.u32 8 && c.u32 8 < 2 ^ 31 && c.rsv 1 1 &&
      c.rsv 7 1 && c.rsv 12 116
  | _ => false

/-- What NET_SV_CONFIG stages. -/
def svStaged (c : Cmd) (s : State) : State :=
  stage 8 c.params (s.onNet (fun x =>
    if c.u8 0 = 0 then { x with svNew := tset x.svNew (c.u8 1) (svRead c) } else { x with mapNew := tset x.mapNew (c.u16 2) (mapRead c) }))

/-- How many streams or mappings are enabled. -/
def svCount (c : Cmd) (s : State) : Nat :=
  if c.u8 0 = 0 then ((List.range 16).filter (fun m => (svShadow s m).on)).length
  else ((List.range 128).filter (fun m => (mapShadow s m).on)).length

/-- What NET_SV_CONFIG does. -/
def svAct (c : Cmd) (s : State) : Reply :=
  if c.u8 0 = 1 ∧ !(svShadow s (c.u8 4)).on then ⟨s, .conflict, [], false⟩ else okReply (svStaged c s) (le 2 (svCount c (svStaged c s)))

theorem execNetSvConfig_eq : execNetSvConfig c s = runCmd (netGate 0x0D03 128 (svPar c s) c s) c s (svAct c) := rfl

/-- NET_SV_CONFIG of a stream, in range but for the length of its frames. -/
structure SvAdmitted (c : Cmd) (s : State) (k : SvCfg) : Prop where
  read : k = svRead c
  served : NetServed 128 c s
  kind : c.u8 0 = 0
  number : c.u8 1 < 16
  flags : c.u8 2 < 64
  ports : (k.port2 || k.port3) = true
  asdusLow : 1 ≤ k.nasdu
  asdusHigh : k.nasdu ≤ 8
  valuesLow : 1 ≤ k.nval
  valuesHigh : k.nval ≤ 16
  applicationLow : 0x4000 ≤ k.appid
  applicationHigh : k.appid ≤ 0x7FFF
  group : multicast k.dmac = true
  rateLow : 4000 ≤ k.rate
  rateHigh : k.rate ≤ 96000
  missLow : 1 ≤ k.miss
  missHigh : k.miss ≤ 16
  windowLow : 1 ≤ k.dupWin
  windowHigh : k.dupWin ≤ 10000
  name : asciiOk k.svid = true
  gap : c.rsv 24 4 = true
  tail : c.rsv 92 36 = true

section
variable {k : SvCfg} (h : SvAdmitted c s k)
include h

theorem SvAdmitted.par_iff : svPar c s = true ↔ SvFrameFits k := by
  have hread := h.read
  have h1 := h.ports
  have h2 := h.asdusLow
  have h3 := h.asdusHigh
  have h4 := h.valuesLow
  have h5 := h.valuesHigh
  have h6 := h.applicationLow
  have h7 := h.applicationHigh
  have h8 := h.group
  have h9 := h.rateLow
  have h10 := h.rateHigh
  have h11 := h.missLow
  have h12 := h.missHigh
  have h13 := h.windowLow
  have h14 := h.windowHigh
  have h15 := h.name
  subst hread
  simp only [svPar, h.kind, h.number, h.flags, h1, h2, h3, h4, h5, h6, h7, h8, h9, h10, h11, h12, h13, h14, h15, h.gap, h.tail, decide_true,
    Bool.and_self, Bool.true_and, decide_eq_true_eq]
  rfl

theorem SvAdmitted.exec_stages (hfree : setHeld s 8 = false)
    (hv : v = stage 8 c.params (s.onNet (fun x => { x with svNew := tset x.svNew (c.u8 1) k }))) : execNetSvConfig c s =
      .next (if k.nasdu * k.nval * 8 + Config.svOverhead k.nasdu (nameLen k.svid) ≤ 1522 then
        answer 0x0D03 c .ok (le 2 ((List.range 16).filter (fun m => (svShadow v m).on)).length) v else answer 0x0D03 c .badParam [] s) := by
  have hstaged : svStaged c s = v := by
    simp only [svStaged, h.kind, if_true, hv, h.read]
  rw [execNetSvConfig_eq]
  split
  next hfits =>
    refine h.served.answers (h.par_iff.mpr hfits) hfree ((if_neg (by simp [h.kind])).trans ?_)
    rw [hstaged, svCount, if_pos h.kind]
    rfl
  next hlong => exact h.served.refused (Bool.eq_false_iff.mpr (mt h.par_iff.mp hlong))

theorem SvAdmitted.exec_busy (hheld : setHeld s 8 = true) : execNetSvConfig c s =
    .next (answer 0x0D03 c (if k.nasdu * k.nval * 8 + Config.svOverhead k.nasdu (nameLen k.svid) ≤ 1522 then .busy else .badParam) [] s) := by
  rw [execNetSvConfig_eq]
  split
  next hfits => exact h.served.busy (h.par_iff.mpr hfits) hheld
  next hlong => exact h.served.refused (Bool.eq_false_iff.mpr (mt h.par_iff.mp hlong))

end

/-- NET_SV_CONFIG of a mapping. -/
structure SvMapAdmitted (c : Cmd) (s : State) (k : MapCfg) : Prop where
  read : k = mapRead c
  served : NetServed 128 c s
  kind : c.u8 0 = 1
  number : c.u16 2 < 128
  source : c.u8 4 < 16
  position : c.u8 5 < (svShadow s (c.u8 4)).nval
  flags : c.u8 6 < 4
  baseLow : 1 ≤ c.u32 8
  baseHigh : c.u32 8 < 2 ^ 31
  reserved : c.rsv 1 1 = true
  gap : c.rsv 7 1 = true
  tail : c.rsv 12 116 = true

section
variable {k : MapCfg} (h : SvMapAdmitted c s k)
include h

theorem SvMapAdmitted.par : svPar c s = true := by
  simp only [svPar, h.kind, h.number, h.source, h.position, h.flags, h.baseLow, h.baseHigh, h.reserved, h.gap, h.tail, decide_true,
    Bool.and_self]

theorem SvMapAdmitted.exec_busy (hheld : setHeld s 8 = true) : execNetSvConfig c s = .next (answer 0x0D03 c .busy [] s) := by
  rw [execNetSvConfig_eq]
  exact h.served.busy h.par hheld

variable (hfree : setHeld s 8 = false)
include hfree

theorem SvMapAdmitted.exec_conflict (hoff : (svShadow s k.src).on = false) :
    execNetSvConfig c s = .next (answer 0x0D03 c .conflict [] s) := by
  obtain rfl := h.read
  have hoff : (svShadow s (c.u8 4)).on = false := hoff
  rw [execNetSvConfig_eq]
  exact h.served.answers h.par hfree (if_pos ⟨h.kind, by simp [hoff]⟩)

theorem SvMapAdmitted.exec_stages (hon : (svShadow s k.src).on = true)
    (hv : v = stage 8 c.params (s.onNet (fun x => { x with mapNew := tset x.mapNew (c.u16 2) k }))) :
    execNetSvConfig c s = .next (answer 0x0D03 c .ok (le 2 ((List.range 128).filter (fun m => (mapShadow v m).on)).length) v) := by
  have hzero : ¬c.u8 0 = 0 := by simp [h.kind]
  have hstaged : svStaged c s = v := by
    simp only [svStaged, hzero, if_false, hv, h.read]
  obtain rfl := h.read
  have hon : (svShadow s (c.u8 4)).on = true := hon
  rw [execNetSvConfig_eq]
  refine h.served.answers h.par hfree ((if_neg (by simp [hon])).trans ?_)
  rw [hstaged, svCount, if_neg hzero]
  rfl

end

/-! ### NET_DMA_STREAM_CONFIG -/

/-- A DMA stream as NET_DMA_STREAM_CONFIG gives it. -/
def dmaRead (c : Cmd) : DmaStream := {
  on := bit (c.u8 1) 0, irq := bit (c.u8 1) 1, kind := c.u8 2, d := c.u16 4, base := c.u64 8, nrec := c.u32 16, tail := c.u64 20,
  sel := (c.params.drop 28).take 20 }

/-- The stream keeps its parameters. -/
def dmaSame (o k : DmaStream) : Bool :=
  o.kind == k.kind && o.d == k.d && o.base == k.base && o.nrec == k.nrec && o.tail == k.tail && o.sel == k.sel

/-- The range check of NET_DMA_STREAM_CONFIG. -/
def dmaPar (c : Cmd) (k : DmaStream) : Bool :=
  c.u8 0 < 16 && c.u8 1 < 4 && k.kind < 5 && 1 ≤ k.d && k.base % 4096 == 0 && 16 ≤ k.nrec && k.nrec ≤ 2 ^ 24 && k.tail % 8 == 0 &&
    c.rsv 3 1 && c.rsv 6 2 && (k.kind != 0 || c.rsv 28 20) && (k.kind != 2 || c.rsv 36 12) &&
    (k.kind != 4 || (rd k.sel 0 1 < 12 && c.rsv 29 19))

/-- NET_DMA_STREAM_CONFIG gives a stream the parameters `k`, in range; `o` is the stream as it is. -/
structure DmaAdmitted (c : Cmd) (k o : DmaStream) (s : State) : Prop where
  read : k = dmaRead c
  old : o = dmaGet s (c.u8 0)
  served : CmdServed 48 c s
  number : c.u8 0 < 16
  flags : c.u8 1 < 4
  kind : k.kind < 5
  divider : 1 ≤ k.d
  page : k.base % 4096 = 0
  recordsLow : 16 ≤ k.nrec
  recordsHigh : k.nrec ≤ 2 ^ 24
  tail : k.tail % 8 = 0
  gap : c.rsv 3 1 = true
  reserved : c.rsv 6 2 = true
  select0 : k.kind ≠ 0 ∨ c.rsv 28 20 = true
  select2 : k.kind ≠ 2 ∨ c.rsv 36 12 = true
  select4 : k.kind ≠ 4 ∨ (rd k.sel 0 1 < 12 ∧ c.rsv 29 19 = true)

/-- The result of NET_DMA_STREAM_CONFIG. -/
def dmaResult (k : DmaStream) : Bytes :=
  le 4 (dmaSize k) ++ le 4 (if dmaSize k * k.nrec < 2 ^ 32 then dmaSize k * k.nrec else Config.openCode 0x0D04 (dmaSize k * k.nrec))

/-- The stream anew; records that wait stay only where the parameters do. -/
def dmaRenewed (o k : DmaStream) : DmaStream :=
  { k with drops := o.drops, winDrop := o.winDrop, queue := if dmaSame o k then o.queue else [] }

/-- What NET_DMA_STREAM_CONFIG does. -/
def dmaAct (c : Cmd) (k : DmaStream) (s : State) : Reply :=
  if (dmaGet s (c.u8 0)).on && !dmaSame (dmaGet s (c.u8 0)) k then ⟨s, .conflict, [], false⟩
  else
    okReply (dmaUpd (c.u8 0) (fun _ => if (dmaGet s (c.u8 0)).on && k.on then { dmaGet s (c.u8 0) with irq := k.irq }
      else dmaRenewed (dmaGet s (c.u8 0)) k) s) (dmaResult k)

/-- The source of the stream is there, or named out of range. -/
def dmaFitted (k : DmaStream) (s : State) : Bool := 5 ≤ k.kind || (k.kind == 4 && 12 ≤ rd k.sel 0 1) || dmaFit s k

theorem execNetDmaStreamConfig_eq : execNetDmaStreamConfig c s =
    runCmd { opcode := 0x0D04, len := c.inl 48, fitted := dmaFitted (dmaRead c) s, legal := notBoot, par := dmaPar c (dmaRead c) } c s
      (dmaAct c (dmaRead c)) := rfl

section
variable {k o : DmaStream} (h : DmaAdmitted c k o s)
include h

theorem DmaAdmitted.par : dmaPar c k = true := by
  have h0 : (k.kind != 0 || c.rsv 28 20) = true := by simpa using h.select0
  have h2 : (k.kind != 2 || c.rsv 36 12) = true := by simpa using h.select2
  have h4 : (k.kind != 4 || (decide (rd k.sel 0 1 < 12) && c.rsv 29 19)) = true := by simpa using h.select4
  simp only [dmaPar, h.number, h.flags, h.kind, h.divider, h.page, h.recordsLow, h.recordsHigh, h.tail, h.gap, h.reserved, h0, h2, h4,
    decide_true, beq_self_eq_true, Bool.and_self]

theorem DmaAdmitted.exec_not_fitted (hfit : dmaFit s k = false) : execNetDmaStreamConfig c s = .next (answer 0x0D04 c .notFitted [] s) := by
  have hsel : (k.kind == 4 && decide (12 ≤ rd k.sel 0 1)) = false := by
    rcases h.select4 with hkind | ⟨hlow, _⟩
    · simp [hkind]
    · simp [Nat.not_le.mpr hlow]
  have hfitted : dmaFitted k s = false := by
    simp only [dmaFitted, hsel, hfit, decide_eq_false (Nat.not_le.mpr h.kind), Bool.or_self]
  obtain rfl := h.read
  rw [execNetDmaStreamConfig_eq]
  exact runCmd_inline_not_fitted h.served.serving h.served.mailbox rfl rfl rfl h.served.params hfitted

variable (hfit : dmaFit s k = true)
include hfit

theorem DmaAdmitted.exec_eq {st : Status} {r : Bytes} (hact : dmaAct c k s = ⟨v, st, r, false⟩) :
    execNetDmaStreamConfig c s = .next (answer 0x0D04 c st r v) := by
  have hpar := h.par
  have hfitted : dmaFitted k s = true := by simp only [dmaFitted, hfit, Bool.or_true]
  obtain rfl := h.read
  rw [execNetDmaStreamConfig_eq]
  exact Gate.Passes.answers (Gate.OpenIn.passes ⟨rfl, rfl, rfl, rfl, rfl⟩ (admits_of_serving h.served.serving h.served.mailbox)
    (.of_inline h.served.params rfl) hfitted hpar) rfl rfl hact

theorem DmaAdmitted.exec_stores (hmay : o.on = false ∨ (dmaSame o k = true ∧ k.on = false)) :
    execNetDmaStreamConfig c s = .next (answer 0x0D04 c .ok (dmaResult k) (dmaUpd (c.u8 0) (fun _ => dmaRenewed o k) s)) := by
  obtain rfl := h.old
  have hboth : ((dmaGet s (c.u8 0)).on && k.on) = false := by rcases hmay with hoff | ⟨_, hoff⟩ <;> simp [hoff]
  refine h.exec_eq hfit ((if_neg ?_).trans ?_)
  · rcases hmay with hoff | ⟨hsame, _⟩
    · simp [hoff]
    · simp [hsame]
  · rw [hboth]
    rfl

variable (hon : o.on = true)
include hon

theorem DmaAdmitted.exec_keeps (hsame : dmaSame o k = true) (hstill : k.on = true) :
    execNetDmaStreamConfig c s = .next (answer 0x0D04 c .ok (dmaResult k) (dmaUpd (c.u8 0) (fun _ => { o with irq := k.irq }) s)) := by
  obtain rfl := h.old
  have hboth : ((dmaGet s (c.u8 0)).on && k.on) = true := by simp [hon, hstill]
  refine h.exec_eq hfit ((if_neg (by simp [hsame])).trans ?_)
  rw [hboth]
  rfl

theorem DmaAdmitted.exec_conflict (hother : dmaSame o k = false) :
    execNetDmaStreamConfig c s = .next (answer 0x0D04 c .conflict [] s) := by
  obtain rfl := h.old
  exact h.exec_eq hfit (if_pos (by simp [hon, hother]))

end

/-! ### NET_STATUS -/

/-- The result of NET_STATUS. -/
def netStatusResult (s : State) : Bytes :=
  le 1 (maskOf ((List.range 4).filter (portUp s))) ++ le 2 (maskOf ((List.range 16).filter (streamOk s))) ++ le 1 0 ++
  le 8 (maskOf ((List.range 64).filter (fun n => (subCfg s n).on && !(subGet s n).stale))) ++ le 4 s.net.foreign ++ le 4 s.net.safeOff ++
  le 4 s.net.dmaDrops ++ le 4 s.tick.index

/-- The counts of the streams and of the subscriptions. -/
def streamTable (s : State) : Bytes :=
  (List.range 16).flatMap (fun n => le 4 (svGet s n).accepted ++ le 4 (svGet s n).gaps ++ le 4 (svGet s n).late ++ le 4 (svGet s n).compared ++
    le 4 (svGet s n).different ++ le 4 (svGet s n).episodes ++ le 4 (svGet s n).age ++ le 4 0)

def subTable (s : State) : Bytes :=
  (List.range 64).flatMap (fun n => le 4 ((subGet s n).stNum.getD 0) ++ le 4 (subGet s n).sqNum ++ le 4 (subGet s n).episodes ++
    le 4 (subGet s n).discarded)

theorem execNetStatus_reads (h : CmdServed 12 c s) (hrsv : c.rsv 0 4 = true) (haligned : c.u64 4 % 64 = 0)
    (hv : (if c.u64 4 = 0 then s else putBuf (c.u64 4) (withCrc (streamTable s ++ subTable s)) s) = v) :
    execNetStatus c s = .next (answer 0x0D05 c .ok (netStatusResult s) v) := by
  subst hv
  have hpar : (c.rsv 0 4 && c.u64 4 % 64 == 0) = true := by simp [hrsv, haligned]
  unfold execNetStatus
  exact (h.passes hpar).answers rfl rfl rfl

/-- Settles O43: each command through its gate. Ring bytes beyond 32 bits, the frame overhead, a stream write that does not look at mappings
and the corners of a disabled stream are assumptions 170, 49, 169 and 50. -/
theorem netCommandsConfigurePortsAndStreams : Obligations.NetCommandsConfigurePortsAndStreams := by
  unfold Obligations.NetCommandsConfigurePortsAndStreams
  refine ⟨?opens, ?closes, ?portConflict, ?sub, ?subConflict, ?subBusy, ?map, ?mapConflict, ?mapBusy, ?pub, ?pubConflict, ?pubBusy, ?sv,
    ?svBusy, ?svMap, ?svMapConflict, ?svMapBusy, ?dma, ?dmaKeeps, ?dmaConflict, ?dmaAbsent, ?status, ?counts⟩
  case opens =>
    exact fun c s v hserving hmb hinline hport hflags huni hon hv =>
      PortAdmitted.exec_opens ⟨⟨hserving, hmb, hinline⟩, hport, hflags, huni⟩ hon hv
  case closes =>
    exact fun c s v hserving hmb hinline hport hflags huni hoff hptp hv =>
      PortAdmitted.exec_closes ⟨⟨hserving, hmb, hinline⟩, hport, hflags, huni⟩ hoff hptp hv
  case portConflict =>
    exact fun c s hserving hmb hinline hport hflags huni hoff hptp =>
      PortAdmitted.exec_conflict ⟨⟨hserving, hmb, hinline⟩, hport, hflags, huni⟩ hoff hptp
  case sub =>
    intro c k s v hk hserving hmb hrole hblock hrsv hkind hnum h1 h2 h3 h4 h5 h6 h7 h8 h9 h10 hfree hsafe hv
    have h : SubAdmitted c s k := ⟨hk, ⟨hserving, hmb, hrole, hblock⟩, hrsv, hkind, hnum, ⟨h1, h2, h3, by subst hk; exact h4, h5, h6⟩, h7, h8, h9, h10⟩
    have hgood : gooseBad c s = false := by
      rw [h.bad_eq]
      rcases hsafe with hsafe | hports
      · simp [hsafe]
      · simp [hports]
    exact h.count_eq (v := v) ▸ h.admitted.exec_stages hfree hgood (h.staged_eq hv)
  case subConflict =>
    intro c k s hk hserving hmb hrole hblock hrsv hkind hnum h1 h2 h3 h4 h5 h6 h7 h8 h9 h10 hfree hsafe hports
    have h : SubAdmitted c s k := ⟨hk, ⟨hserving, hmb, hrole, hblock⟩, hrsv, hkind, hnum, ⟨h1, h2, h3, by subst hk; exact h4, h5, h6⟩, h7, h8, h9, h10⟩
    exact h.admitted.exec_conflict hfree (by rw [h.bad_eq]; simp [hsafe, hports])
  case subBusy =>
    intro c k s hk hserving hmb hrole hblock hrsv hkind hnum h1 h2 h3 h4 h5 h6 h7 h8 h9 h10 hheld
    have h : SubAdmitted c s k := ⟨hk, ⟨hserving, hmb, hrole, hblock⟩, hrsv, hkind, hnum, ⟨h1, h2, h3, by subst hk; exact h4, h5, h6⟩, h7, h8, h9, h10⟩
    exact h.admitted.exec_busy hheld
  case map =>
    intro c k s v hk hserving hmb hrole hblock hrsv hkind h1 h2 h3 h4 h5 h6 h7 h8 h9 hfree hon hv
    have h : GooseMapAdmitted c s k := ⟨hk, ⟨hserving, hmb, hrole, hblock⟩, hrsv, hkind, h1, h2, h3, h4, h5, h6, h7, h8, h9⟩
    exact h.count_eq (v := v) ▸ h.admitted.exec_stages hfree (by rw [h.bad_eq, hon]; rfl) (h.staged_eq hv)
  case mapConflict =>
    intro c k s hk hserving hmb hrole hblock hrsv hkind h1 h2 h3 h4 h5 h6 h7 h8 h9 hfree hoff
    have h : GooseMapAdmitted c s k := ⟨hk, ⟨hserving, hmb, hrole, hblock⟩, hrsv, hkind, h1, h2, h3, h4, h5, h6, h7, h8, h9⟩
    exact h.admitted.exec_conflict hfree (by rw [h.bad_eq, hoff]; rfl)
  case mapBusy =>
    intro c k s hk hserving hmb hrole hblock hrsv hkind h1 h2 h3 h4 h5 h6 h7 h8 h9 hheld
    have h : GooseMapAdmitted c s k := ⟨hk, ⟨hserving, hmb, hrole, hblock⟩, hrsv, hkind, h1, h2, h3, h4, h5, h6, h7, h8, h9⟩
    exact h.admitted.exec_busy hheld
  case pub =>
    intro c k s v hk hserving hmb hrole hblock hrsv hkind hnum h1 h2 h3 h4 h5 h6 h7 h8 h9 h10 h11 h12 hfree htaken hv
    have h : PubAdmitted c s k := ⟨hk, ⟨hserving, hmb, hrole, hblock⟩, hrsv, hkind, hnum, ⟨h1, h2, h3, by subst hk; exact h4, h5, h6⟩, h7, h8, h9, h10, h11, h12⟩
    exact h.count_eq (v := v) ▸ h.admitted.exec_stages hfree (h.bad_eq_false_iff.mpr htaken) (h.staged_eq hv)
  case pubConflict =>
    intro c k s hk hserving hmb hrole hblock hrsv hkind hnum h1 h2 h3 h4 h5 h6 h7 h8 h9 h10 h11 h12 hfree hnot
    have h : PubAdmitted c s k := ⟨hk, ⟨hserving, hmb, hrole, hblock⟩, hrsv, hkind, hnum, ⟨h1, h2, h3, by subst hk; exact h4, h5, h6⟩, h7, h8, h9, h10, h11, h12⟩
    exact h.admitted.exec_conflict hfree (Bool.not_eq_false _ ▸ mt h.bad_eq_false_iff.mp hnot)
  case pubBusy =>
    intro c k s hk hserving hmb hrole hblock hrsv hkind hnum h1 h2 h3 h4 h5 h6 h7 h8 h9 h10 h11 h12 hheld
    have h : PubAdmitted c s k := ⟨hk, ⟨hserving, hmb, hrole, hblock⟩, hrsv, hkind, hnum, ⟨h1, h2, h3, by subst hk; exact h4, h5, h6⟩, h7, h8, h9, h10, h11, h12⟩
    exact h.admitted.exec_busy hheld
  case sv =>
    exact fun c k s v hk hserving hmb hrole hblock hkind h1 h2 h3 h4 h5 h6 h7 h8 h9 h10 h11 h12 h13 h14 h15 h16 h17 h18 h19 hfree hv =>
      SvAdmitted.exec_stages ⟨hk, ⟨hserving, hmb, hrole, hblock⟩, hkind, h1, h2, h3, h4, h5, h6, h7, h8, h9, h10, h11, h12, h13, h14, h15, h16, h17, h18, h19⟩ hfree hv
  case svBusy =>
    exact fun c k s hk hserving hmb hrole hblock hkind h1 h2 h3 h4 h5 h6 h7 h8 h9 h10 h11 h12 h13 h14 h15 h16 h17 h18 h19 hheld =>
      SvAdmitted.exec_busy ⟨hk, ⟨hserving, hmb, hrole, hblock⟩, hkind, h1, h2, h3, h4, h5, h6, h7, h8, h9, h10, h11, h12, h13, h14, h15, h16, h17, h18, h19⟩ hheld
  case svMap =>
    exact fun c k s v hk hserving hmb hrole hblock hkind h1 h2 h3 h4 h5 h6 h7 h8 h9 hfree hon hv =>
      SvMapAdmitted.exec_stages ⟨hk, ⟨hserving, hmb, hrole, hblock⟩, hkind, h1, h2, h3, h4, h5, h6, h7, h8, h9⟩ hfree hon hv
  case svMapConflict =>
    exact fun c k s hk hserving hmb hrole hblock hkind h1 h2 h3 h4 h5 h6 h7 h8 h9 hfree hoff =>
      SvMapAdmitted.exec_conflict ⟨hk, ⟨hserving, hmb, hrole, hblock⟩, hkind, h1, h2, h3, h4, h5, h6, h7, h8, h9⟩ hfree hoff
  case svMapBusy =>
    exact fun c k s hk hserving hmb hrole hblock hkind h1 h2 h3 h4 h5 h6 h7 h8 h9 hheld =>
      SvMapAdmitted.exec_busy ⟨hk, ⟨hserving, hmb, hrole, hblock⟩, hkind, h1, h2, h3, h4, h5, h6, h7, h8, h9⟩ hheld
  case dma =>
    exact fun c k o s hk ho hserving hmb hinline h1 h2 h3 h4 h5 h6 h7 h8 h9 h10 h11 h12 h13 hfit hmay =>
      DmaAdmitted.exec_stores ⟨hk, ho, ⟨hserving, hmb, hinline⟩, h1, h2, h3, h4, h5, h6, h7, h8, h9, h10, h11, h12, h13⟩ hfit hmay
  case dmaKeeps =>
    exact fun c k o s hk ho hserving hmb hinline h1 h2 h3 h4 h5 h6 h7 h8 h9 h10 h11 h12 h13 hfit hon hsame hstill =>
      DmaAdmitted.exec_keeps ⟨hk, ho, ⟨hserving, hmb, hinline⟩, h1, h2, h3, h4, h5, h6, h7, h8, h9, h10, h11, h12, h13⟩ hfit hon hsame hstill
  case dmaConflict =>
    exact fun c k o s hk ho hserving hmb hinline h1 h2 h3 h4 h5 h6 h7 h8 h9 h10 h11 h12 h13 hfit hon hother =>
      DmaAdmitted.exec_conflict ⟨hk, ho, ⟨hserving, hmb, hinline⟩, h1, h2, h3, h4, h5, h6, h7, h8, h9, h10, h11, h12, h13⟩ hfit hon hother
  case dmaAbsent =>
    exact fun c k o s hk ho hserving hmb hinline h1 h2 h3 h4 h5 h6 h7 h8 h9 h10 h11 h12 h13 hfit =>
      DmaAdmitted.exec_not_fitted ⟨hk, ho, ⟨hserving, hmb, hinline⟩, h1, h2, h3, h4, h5, h6, h7, h8, h9, h10, h11, h12, h13⟩ hfit
  case status =>
    exact fun c s hserving hmb hinline hrsv hnone =>
      execNetStatus_reads ⟨hserving, hmb, hinline⟩ hrsv (by omega) (if_pos hnone)
  case counts =>
    exact fun c s hserving hmb hinline hrsv hbuf haligned =>
      execNetStatus_reads ⟨hserving, hmb, hinline⟩ hrsv haligned (if_neg hbuf)

end Sys2Proof.Machine

/-! PROOFS. The events of the station networks: link changes, frames, misses, publications and DMA records (chapter 17, O44). -/

namespace Sys2Proof.Machine

open Sys2Proof

variable {s u : State}

/-! ### Link changes and foreign frames (R442) -/

/-- The reference that ports give is no longer lost. -/
def linkReferenceBack (s : State) : State := s.onPower (fun x => { x with refLost := x.refLost.filter (· != 2) })

section
variable {p : Nat}

theorem linkChange_same {b : Bool} (h : portUp s p = b) : linkChange p b s = s := if_pos h.symm

theorem linkChange_up (h : portUp s p = false) :
    linkChange p true s =
      netEvent 0x01 p [1] (ptpUpd p (fun q => { q with state := if q.on then 1 else 0 }) (s.onNet (fun x => { x with up := p :: x.up }))) :=
  if_neg (by simp [h])

theorem linkChange_down (h : portUp s p = true) :
    linkChange p false s =
      netEvent 0x01 p [0] (ptpUpd p (fun q => { q with state := 0 }) (s.onNet (fun x => { x with up := x.up.filter (· != p) }))) :=
  if_neg (by simp [h])

end

section
variable {p : Fin 4}

/-- A link that comes up changes an enabled port only. -/
theorem execEthLinkChange_up {b : Bool} (hon : (ethCfg s p).on = b) :
    execEthLinkChange p true s = .next (linkChange p b (linkReferenceBack s)) := by
  unfold execEthLinkChange
  rw [hon]
  rfl

theorem execEthLinkChange_up_again {b : Bool} (hon : (ethCfg s p).on = b) (hup : portUp s p = b) :
    execEthLinkChange p true s = .next (linkReferenceBack s) :=
  (execEthLinkChange_up hon).trans (congrArg Host.Outcome.next (linkChange_same (s := linkReferenceBack s) hup))

theorem execEthLinkChange_down (hup : portUp s p = true) :
    execEthLinkChange p false s =
      .next (netEvent 0x01 p [0] (ptpUpd p (fun q => { q with state := 0 }) (s.onNet (fun x => { x with up := x.up.filter (· != p.val) })))) :=
  congrArg Host.Outcome.next (linkChange_down hup)

theorem execEthLinkChange_down_again (hup : portUp s p = false) : execEthLinkChange p false s = .next s :=
  congrArg Host.Outcome.next (linkChange_same hup)

/-! ### Sampled values (R444 to R447) -/

/-- A good sampled-value frame on a port that is up. -/
structure SvArrival (p : Fin 4) (f : SvFrame) (s : State) : Prop where
  up : portUp s p = true
  good : f.good = true

/-- The streams that a frame matches. -/
def svHits (p : Fin 4) (f : SvFrame) (s : State) : List Nat :=
  (List.range 16).filter (fun i => (svCfg s i).on && (if p.val = 2 then (svCfg s i).port2 else (svCfg s i).port3) &&
    (svCfg s i).dmac == f.dmac && (svCfg s i).appid == f.appid && (svCfg s i).svid == fit 64 f.svid &&
    (svCfg s i).confRev == f.confRev && (svCfg s i).nasdu == f.asdus.length && f.asdus.all (fun x => x.vals.length == (svCfg s i).nval))

/-- Each stream of the list takes the ASDUs of the frame. -/
def svTaken (p : Fin 4) (f : SvFrame) (n : Nat) (l : List Nat) (s : State) : State :=
  l.foldl (fun u i => f.asdus.foldl (fun w a => takeAsdu p i a n w) u) s

section
variable {f : SvFrame} {z : SvAt} {l : List Nat} (h : SvArrival p f s)
include h

theorem SvArrival.exec_foreign (hport : p.val < 2) :
    execSvFrameReceive p f z s = .next (s.onNet (fun x => { x with foreign := inc32 x.foreign })) :=
  (if_neg (by simp [h.up, h.good])).trans (if_pos hport)

theorem SvArrival.exec_hits (hport : 2 ≤ p.val) (hl : l = svHits p f s) :
    execSvFrameReceive p f z s = .next (if z.behind then svTaken p f z.now l s else mapsSettle true (svTaken p f z.now l s)) := by
  subst hl
  exact (if_neg (by simp [h.up, h.good])).trans (if_neg (by omega))

theorem SvArrival.exec_behind (hport : 2 ≤ p.val) (hl : l = svHits p f s) (hz : z.behind = true) :
    execSvFrameReceive p f z s = .next (svTaken p f z.now l s) :=
  (h.exec_hits hport hl).trans (congrArg Host.Outcome.next (if_pos hz))

theorem SvArrival.exec_settled (hport : 2 ≤ p.val) (hl : l = svHits p f s) (hz : z.behind = false) :
    execSvFrameReceive p f z s = .next (mapsSettle true (svTaken p f z.now l s)) :=
  (h.exec_hits hport hl).trans (congrArg Host.Outcome.next (if_neg (ne_true_of_eq_false hz)))

/-- A frame of one ASDU that one stream matches. -/
theorem SvArrival.exec_one {a : AsduIn} {m : Nat} (hport : 2 ≤ p.val) (hl : l = svHits p f s) (hone : l = [m]) (ha : f.asdus = [a])
    (hz : z.behind = true) (hu : takeAsdu p m a z.now s = u) : execSvFrameReceive p f z s = .next u := by
  rw [h.exec_behind hport hl hz, hone, svTaken, ha, ← hu]
  rfl

end

theorem execSvFrameReceive_bad {f : SvFrame} {z : SvAt} (h : portUp s p = false ∨ f.good = false) : execSvFrameReceive p f z s = .next s :=
  if_pos (by simpa using h)

end

/-! ### One ASDU (R446, R447) -/

/-- The copy of the sample that came on the other port in the last second. -/
def otherCopy (p n : Nat) (a : AsduIn) (now : Nat) (s : State) : Option (Nat × Asdu × Nat) :=
  (svGet s n).copies.find? (fun x => x.1 != p && x.2.1.cnt == a.cnt && now < x.2.2 + 1000000)

/-- The copies of the sample are dropped. -/
def copiesDropped (n : Nat) (a : AsduIn) (s : State) : State :=
  svUpd n (fun x => { x with copies := x.copies.filter (fun w => w.2.1.cnt != a.cnt) }) s

/-- The samples from the last one taken to this one. -/
def sampleGap (n : Nat) (a : AsduIn) (s : State) : Nat :=
  (svGet s n).last.elim 1 (fun x => (a.cnt + (svCfg s n).rate - x.cnt) % (svCfg s n).rate)

/-- The stream accepts the sample `b`. -/
def svAccepted (p n g now : Nat) (a : AsduIn) (b : Asdu) (s : State) : State :=
  svUpd n (fun y => { y with
    prev := y.last, last := some b, missed := false, accepted := inc32 y.accepted,
    gaps := if (svGet s n).last.isSome && !(svGet s n).missed && 1 < g then inc32 y.gaps else y.gaps,
    copies := if (svCfg s n).port2 && (svCfg s n).port3 then
      (p, b, now) :: y.copies.filter (fun x => now < x.2.2 + 1000000 && x.2.1.cnt != a.cnt) else [] }) s

section
variable {p n now g : Nat} {a : AsduIn}

theorem takeAsdu_of_copy {y : Nat × Asdu × Nat} (hcopy : otherCopy p n a now s = some y) :
    takeAsdu p n a now s =
      if now ≤ y.2.2 + (svCfg s n).dupWin then
        svCompare n ((mappedAt s n).all (fun i => y.2.1.vals[i]? == a.vals[i]?)) (copiesDropped n a s)
      else copiesDropped n a s := by
  unfold otherCopy at hcopy
  simp only [takeAsdu, hcopy]
  rfl

/-- Behind DUP_WIN the second copy goes unseen. -/
theorem takeAsdu_unseen (hcopy : (otherCopy p n a now s).any (fun x => x.2.2 + (svCfg s n).dupWin < now) = true) :
    takeAsdu p n a now s = copiesDropped n a s := by
  obtain ⟨y, hy, hlate⟩ := (Option.any_eq_true ..).mp hcopy
  exact (takeAsdu_of_copy hy).trans (if_neg (by simpa using hlate))

theorem takeAsdu_compares {y : Nat × Asdu × Nat} (hcopy : otherCopy p n a now s = some y) (hwin : now ≤ y.2.2 + (svCfg s n).dupWin) :
    takeAsdu p n a now s = svCompare n ((mappedAt s n).all (fun i => y.2.1.vals[i]? == a.vals[i]?)) (copiesDropped n a s) :=
  (takeAsdu_of_copy hcopy).trans (if_pos hwin)

theorem takeAsdu_of_single (hcopy : otherCopy p n a now s = none) :
    takeAsdu p n a now s =
      if (svCfg s n).rate ≤ a.cnt ∨
          !((svGet s n).last.isNone || (svGet s n).missed || (1 ≤ sampleGap n a s && sampleGap n a s ≤ (svCfg s n).miss)) then
        svUpd n (fun x => { x with late := inc32 x.late }) s
      else
        streamNote n 2 (asduCross n ⟨a.cnt, a.sync, a.vals, sampleInstant s (svCfg s n).rate a.cnt⟩
          (svAccepted p n (sampleGap n a s) now a ⟨a.cnt, a.sync, a.vals, sampleInstant s (svCfg s n).rate a.cnt⟩ s)) := by
  unfold otherCopy at hcopy
  simp only [takeAsdu, hcopy]
  rfl

theorem takeAsdu_late (hcopy : otherCopy p n a now s = none) (hg : g = sampleGap n a s)
    (hlate : (svCfg s n).rate ≤ a.cnt ∨ ((svGet s n).last ≠ none ∧ (svGet s n).missed = false ∧ (g = 0 ∨ (svCfg s n).miss < g))) :
    takeAsdu p n a now s = svUpd n (fun x => { x with late := inc32 x.late }) s := by
  subst hg
  refine (takeAsdu_of_single hcopy).trans (if_pos (hlate.imp_right ?_))
  rintro ⟨hlast, hmissed, hgap⟩
  have hsome : (svGet s n).last.isNone = false := by
    rw [← Bool.not_eq_true, Option.isNone_iff_eq_none]
    exact hlast
  have hfar : (decide (1 ≤ sampleGap n a s) && decide (sampleGap n a s ≤ (svCfg s n).miss)) = false := by
    rw [← Bool.decide_and]
    exact decide_eq_false (by omega)
  rw [hsome, hmissed, hfar]
  rfl

theorem takeAsdu_accepts {b : Asdu} (hcopy : otherCopy p n a now s = none) (hg : g = sampleGap n a s) (hcnt : a.cnt < (svCfg s n).rate)
    (hfresh : (svGet s n).last = none ∨ (svGet s n).missed = true ∨ (1 ≤ g ∧ g ≤ (svCfg s n).miss))
    (hb : b = ⟨a.cnt, a.sync, a.vals, sampleInstant s (svCfg s n).rate a.cnt⟩) :
    takeAsdu p n a now s = streamNote n 2 (asduCross n b (svAccepted p n g now a b s)) := by
  subst hg hb
  refine (takeAsdu_of_single hcopy).trans (if_neg ?_)
  rintro (hover | hstale)
  · omega
  · rcases hfresh with hlast | hmissed | hgap
    · simp [hlast] at hstale
    · simp [hmissed] at hstale
    · simp [hgap] at hstale

end

/-! ### GOOSE (R449, R450) -/

section
variable {p : Fin 4} {f : GooseFrame} {m n : Nat} {l : List Nat}

/-- The subscriptions that a frame matches. -/
def gooseHits (p : Fin 4) (f : GooseFrame) (s : State) : List Nat :=
  (List.range 64).filter (fun i => (subCfg s i).on && bit (subCfg s i).ports p && (subCfg s i).dmac == f.dmac && (subCfg s i).appid == f.appid &&
    (subCfg s i).names == fit 192 f.names && (subCfg s i).confRev == f.confRev)

theorem execGooseFrameReceive_hits (hup : portUp s p = true) (hgood : f.good = true) (hl : l = gooseHits p f s) :
    execGooseFrameReceive p f n s = .next (l.foldl (fun t m => takeGoose p m f n t) s) := by
  subst hl
  exact if_neg (by simp [hup, hgood])

theorem execGooseFrameReceive_bad (h : portUp s p = false ∨ f.good = false) : execGooseFrameReceive p f n s = .next s :=
  if_pos (by simpa using h)

/-- A good frame on a port that is up, which one subscription matches. -/
structure GooseArrival (p : Fin 4) (f : GooseFrame) (m : Nat) (l : List Nat) (s : State) : Prop where
  up : portUp s p = true
  good : f.good = true
  hits : l = gooseHits p f s
  one : l = [m]

theorem GooseArrival.exec_one (h : GooseArrival p f m l s) (hu : takeGoose p m f n s = u) : execGooseFrameReceive p f n s = .next u := by
  rw [execGooseFrameReceive_hits h.up h.good h.hits, h.one, ← hu]
  rfl

theorem GooseArrival.exec_discards (h : GooseArrival p f m l s)
    (hbad : f.ndsCom = true ∨ (f.test = true ∧ (subCfg s m).test = false) ∨ (subGet s m).stNum.any (fun k => f.stNum < k) = true) :
    execGooseFrameReceive p f n s = .next s :=
  h.exec_one (if_pos (by simpa using hbad))

/-- A duplicate is counted. -/
def gooseDiscarded (m : Nat) (s : State) : State := subUpd m (fun x => { x with discarded := inc32 x.discarded }) s

/-- The subscription takes the message. -/
def gooseTaken (p : Fin 4) (f : GooseFrame) (m n : Nat) (s : State) : State :=
  subUpd m (fun x => { x with stNum := some f.stNum, sqNum := f.sqNum, port := p, at_ := n, stale := false, data := f.data }) s

/-- A message that the subscription does not discard: commissioned, no test message and no older one; `u` holds its copies. -/
structure GooseCurrent (p : Fin 4) (f : GooseFrame) (m : Nat) (l : List Nat) (s u : State) : Prop extends GooseArrival p f m l s where
  commissioned : f.ndsCom = false
  tested : f.test = false ∨ (subCfg s m).test = true
  newer : (subGet s m).stNum.any (fun k => f.stNum < k) = false
  copied : u = if p.val < 2 then safeCopy p m f.data s else s

/-- A message of the present stNum whose sqNum is not newer. -/
structure GooseDuplicate (p : Fin 4) (f : GooseFrame) (m : Nat) (l : List Nat) (s u : State) : Prop extends GooseCurrent p f m l s u where
  state : (subGet s m).stNum = some f.stNum
  sequence : f.sqNum ≤ (subGet s m).sqNum

/-- A message of another stNum or of a newer sqNum. -/
structure GooseFresh (p : Fin 4) (f : GooseFrame) (m : Nat) (l : List Nat) (s u : State) : Prop extends GooseCurrent p f m l s u where
  fresh : (subGet s m).stNum ≠ some f.stNum ∨ (subGet s m).sqNum < f.sqNum

/-- The duplicate is the copy of the other port within DUP_WIN. -/
structure GooseCopy (p : Fin 4) (f : GooseFrame) (m n : Nat) (l : List Nat) (s u : State) : Prop extends GooseDuplicate p f m l s u where
  same : f.sqNum = (subGet s m).sqNum
  port : (subGet s m).port ≠ p.val
  window : n ≤ (subGet s m).at_ + (subCfg s m).dupWin

theorem GooseCurrent.not_discarded (h : GooseCurrent p f m l s u) :
    ¬ (f.ndsCom = true ∨ (f.test = true ∧ (!(subCfg s m).test) = true) ∨ (subGet s m).stNum.any (fun k => f.stNum < k) = true) := by
  rintro (hcom | ⟨htest, hsub⟩ | hold)
  · exact Bool.false_ne_true (h.commissioned.symm.trans hcom)
  · rcases h.tested with hno | hyes
    · exact Bool.false_ne_true (hno.symm.trans htest)
    · simp [hyes] at hsub
  · exact Bool.false_ne_true (h.newer.symm.trans hold)

theorem GooseDuplicate.takes_of_not_copy (h : GooseDuplicate p f m l s u)
    (hother : (subGet s m).sqNum ≠ f.sqNum ∨ (subGet s m).port = p.val ∨ (subGet s m).at_ + (subCfg s m).dupWin < n) :
    takeGoose p m f n s = gooseDiscarded m u := by
  obtain rfl := h.copied
  exact (if_neg h.not_discarded).trans ((if_pos ⟨h.state, h.sequence⟩).trans (if_neg (by omega)))

/-- The comparison of the copies: the runs of agreeing and differing pairs, and the mismatch they start or end. -/
def gooseCompared (same : Bool) (m : Nat) (r : GsubRun) (s : State) : State :=
  match same with
  | true => when (r.mismatch && 16 ≤ r.agree + 1) (netEvent 0x03 (16 + m) [])
      (subUpd m (fun x => { x with
        differ := 0, agree := r.agree + 1, mismatch := x.mismatch && !(r.mismatch && 16 ≤ r.agree + 1) }) s)
  | false => when (!r.mismatch && 4 ≤ r.differ + 1) (netEvent 0x03 (16 + m) [])
      (subUpd m (fun x => { x with
        differ := r.differ + 1, agree := 0, mismatch := x.mismatch || (!r.mismatch && 4 ≤ r.differ + 1) }) s)

theorem GooseCopy.takes (h : GooseCopy p f m n l s u) {same : Bool}
    (hsame : (goosePlaces s m).all (fun i => f.data[i]? == (subGet s m).data[i]?) = same) :
    takeGoose p m f n s = gooseCompared same m (subGet s m) (gooseDiscarded m u) := by
  obtain rfl := h.copied
  refine (if_neg h.not_discarded).trans ((if_pos ⟨h.state, h.sequence⟩).trans ((if_pos ⟨h.same.symm, h.port, h.window⟩).trans ?_))
  rw [hsame]
  cases same with
  | true => simp [gooseCompared, gooseDiscarded]
  | false => simp [gooseCompared, gooseDiscarded]

theorem GooseFresh.takes (h : GooseFresh p f m l s u) :
    takeGoose p m f n s = when ((subGet s m).stale && (subGet s m).stNum.isSome) (netEvent 0x04 m []) (gooseTaken p f m n u) := by
  obtain rfl := h.copied
  refine (if_neg h.not_discarded).trans (if_neg ?_)
  rintro ⟨hstate, hseq⟩
  rcases h.fresh with hother | hnewer
  · exact hother hstate
  · omega

theorem GooseFresh.takes_known (h : GooseFresh p f m l s u) (hfresh : (subGet s m).stale = false ∨ (subGet s m).stNum = none) :
    takeGoose p m f n s = gooseTaken p f m n u := by
  refine h.takes.trans (when_of_false ?_)
  rcases hfresh with hlive | hnone
  · simp [hlive]
  · simp [hnone]

theorem GooseFresh.takes_back (h : GooseFresh p f m l s u) (hstale : (subGet s m).stale = true) (hsome : (subGet s m).stNum ≠ none) :
    takeGoose p m f n s = netEvent 0x04 m [] (gooseTaken p f m n u) :=
  h.takes.trans (when_of_true (by simp [hstale, Option.isSome_iff_ne_none, hsome]))

end

/-! ### Publications (R452) -/

/-- A publication that is off, that the safety core sends, or whose values stand as sent. -/
def PubSilent (s : State) (n : Nat) : Prop :=
  (pubCfg s n).on = false ∨ safeNames s true n = true ∨
    ((pubGet s n).sent = true ∧ (pubGet s n).vals = (pubEntries (pubCfg s n)).map (entryValue s))

/-- A changed publication starts a new stNum. -/
def pubChanged (n : Nat) (s : State) : State :=
  pubUpd n (fun x => { x with
    stNum := x.stNum + 1, sqNum := 0, vals := (pubEntries (pubCfg s n)).map (entryValue s), sent := true, tries := 0,
    next := (pubCfg s n).tmin, ttl := 2 * (pubCfg s n).tmin }) s

theorem pubSample_silent {n : Nat} (h : PubSilent s n) : pubSample n s = s :=
  if_pos (by simpa [PubSilent] using h)

theorem pubSample_changed {n : Nat} (hon : (pubCfg s n).on = true) (hsafe : safeNames s true n = false)
    (hnew : (pubGet s n).sent = false ∨ (pubGet s n).vals ≠ (pubEntries (pubCfg s n)).map (entryValue s)) :
    pubSample n s = pubChanged n s := by
  refine if_neg ?_
  rintro (hoff | hcore | ⟨hsent, hvals⟩)
  · simp [hon] at hoff
  · exact Bool.false_ne_true (hsafe.symm.trans hcore)
  · rcases hnew with hno | hne
    · exact Bool.false_ne_true (hno.symm.trans hsent)
    · exact hne hvals

theorem foldl_pubSample_silent {l : List Nat} (h : ∀ n ∈ l, PubSilent s n) : l.foldl (fun t n => pubSample n t) s = s := by
  induction l with
  | nil => rfl
  | cons n l ih =>
    rw [List.foldl_cons, pubSample_silent (h n List.mem_cons_self)]
    exact ih (fun j hj => h j (List.mem_cons_of_mem n hj))

theorem execGoosePublishSample_one {n : Nat} (hn : n < 16) (hoff : ∀ j, j < 16 → j ≠ n → (pubCfg s j).on = false)
    (hon : (pubCfg s n).on = true) (hsafe : safeNames s true n = false)
    (hnew : (pubGet s n).sent = false ∨ (pubGet s n).vals ≠ (pubEntries (pubCfg s n)).map (entryValue s)) :
    execGoosePublishSample s = .next (pubChanged n s) := by
  obtain ⟨l, r, hlr⟩ := List.append_of_mem (List.mem_range.mpr hn)
  have hnodup : n ∉ l ++ r := (List.nodup_cons.mp (List.nodup_middle.mp (hlr ▸ List.nodup_range))).1
  have hothers : ∀ j ∈ l ++ r, (pubCfg s j).on = false := by
    intro j hj
    have hmem : j ∈ List.range 16 := hlr ▸ List.mem_append.mpr ((List.mem_append.mp hj).imp_right (List.mem_cons_of_mem n))
    exact hoff j (List.mem_range.mp hmem) (fun hjn => hnodup (hjn ▸ hj))
  unfold execGoosePublishSample
  rw [hlr, List.foldl_append, foldl_pubSample_silent (fun j hj => .inl (hothers j (List.mem_append_left r hj))), List.foldl_cons,
    pubSample_changed hon hsafe hnew,
    foldl_pubSample_silent (s := pubChanged n s) (fun j hj => .inl (hothers j (List.mem_append_right l hj)))]

theorem execGoosePublishSample_silent (h : ∀ n, n < 16 → PubSilent s n) : execGoosePublishSample s = .next s :=
  congrArg Host.Outcome.next (foldl_pubSample_silent (fun n hn => h n (List.mem_range.mp hn)))

/-! ### DMA records (R457, R458) -/

section
variable {n : Fin 16} {q : Nat} {p : Bytes} {l : List (Nat × Bytes)}

/-- The oldest record is in its ring, with its number at the tail. -/
def dmaRecorded (n : Fin 16) (q : Nat) (p : Bytes) (l : List (Nat × Bytes)) (d : DmaStream) (s : State) : State :=
  dmaUpd n (fun x => { x with queue := l }) (putBuf d.tail (le 8 q) (putBuf (d.base + dmaSize d * (q % d.nrec)) p s))

/-- The oldest record is dropped and counted. -/
def dmaDropped (n : Fin 16) (l : List (Nat × Bytes)) (first : Bool) (s : State) : State :=
  (dmaUpd n (fun x => { x with
    queue := l, drops := inc32 x.drops, winDrop := if first then some s.tick.index else x.winDrop }) s).onNet (fun x =>
      { x with dmaDrops := inc32 x.dmaDrops })

theorem execDmaRecordWrite_writes (hbar : barOn s = true) (hq : (dmaGet s n).queue = (q, p) :: l) :
    execDmaRecordWrite n s =
      .next (when (dmaGet s n).irq (fun t => t.onMb (fun m => { m with msix := (10 + n.val) :: m.msix }))
        (dmaRecorded n q p l (dmaGet s n) s)) := by
  simp only [execDmaRecordWrite, hbar, if_true, hq]
  rfl

theorem execDmaRecordWrite_nothing (h : barOn s = false ∨ (dmaGet s n).queue = []) : execDmaRecordWrite n s = .next s := by
  have hnone : (if barOn s then (dmaGet s n).queue else []) = [] := by
    rcases h with hbar | hq
    · exact if_neg (ne_true_of_eq_false hbar)
    · rw [hq, ite_self]
  simp only [execDmaRecordWrite, hnone]

theorem execDmaRecordDrop_drops {first : Bool} (hq : (dmaGet s n).queue = (q, p) :: l)
    (hfirst : firstIn (dmaGet s n).winDrop s.tick.index = first) :
    execDmaRecordDrop n s = .next (when first (netEvent 0x06 n [1]) (dmaDropped n l first s)) := by
  simp only [execDmaRecordDrop, hq, hfirst]
  rfl

theorem execDmaRecordDrop_nothing (hq : (dmaGet s n).queue = []) : execDmaRecordDrop n s = .next s := by
  simp only [execDmaRecordDrop, hq]

end

/-- Settles O44: the arrivals through the lists of streams and subscriptions that match, one ASDU and one GOOSE message case by case; the
number 16 + m, the drop counts, copy corners and ignored frames follow assumptions 171, 145, 50, 169 and 9. -/
theorem netEventsMoveFramesAndRecords : Obligations.NetEventsMoveFramesAndRecords := by
  unfold Obligations.NetEventsMoveFramesAndRecords
  refine ⟨?up, ?upAgain, ?closed, ?down, ?downAgain, ?foreign, ?foreignDown, ?svForeign, ?svBehind, ?svSettled, ?svUnseen, ?svCompares,
    ?svLate, ?svAccepts, ?svBad, ?miss, ?missNothing, ?goose, ?gooseDiscards, ?gooseDuplicate, ?gooseAgrees, ?gooseDiffers, ?gooseNew,
    ?gooseBack, ?gooseBad, ?stale, ?staleNothing, ?publish, ?publishOne, ?publishNothing, ?retransmit, ?retransmitNothing, ?record,
    ?recordSignalled, ?dropped, ?droppedFirst, ?noRecord, ?barOff⟩
  case up => exact fun p s hon hup => (execEthLinkChange_up hon).trans (congrArg Host.Outcome.next (linkChange_up (s := linkReferenceBack s) hup))
  case upAgain =>
    rintro p s (⟨hon, hup⟩ | ⟨hoff, hdown⟩)
    · exact execEthLinkChange_up_again hon hup
    · exact execEthLinkChange_up_again hoff hdown
  case closed => exact fun p s hoff _ => execEthLinkChange_up hoff
  case down => exact fun p s => execEthLinkChange_down
  case downAgain => exact fun p s => execEthLinkChange_down_again
  case foreign => exact fun p s hup => if_pos hup
  case foreignDown => exact fun p s hdown => if_neg (ne_true_of_eq_false hdown)
  case svForeign => exact fun p f z s hup hgood => SvArrival.exec_foreign ⟨hup, hgood⟩
  case svBehind => exact fun p f z l s hup hgood => SvArrival.exec_behind ⟨hup, hgood⟩
  case svSettled => exact fun p f z l s hup hgood => SvArrival.exec_settled ⟨hup, hgood⟩
  case svUnseen =>
    rintro _ _ a m p f z l s hup hgood hport hl hone ha hz rfl rfl hcopy
    exact SvArrival.exec_one ⟨hup, hgood⟩ hport hl hone ha hz (takeAsdu_unseen hcopy)
  case svCompares =>
    rintro _ _ a y m p f z l s hup hgood hport hl hone ha hz rfl rfl hcopy hwin
    exact SvArrival.exec_one ⟨hup, hgood⟩ hport hl hone ha hz (takeAsdu_compares hcopy hwin)
  case svLate =>
    rintro _ _ a m g p f z l s hup hgood hport hl hone ha hz rfl rfl hcopy hg hlate
    exact SvArrival.exec_one ⟨hup, hgood⟩ hport hl hone ha hz (takeAsdu_late hcopy hg hlate)
  case svAccepts =>
    rintro _ _ a m g b p f z l s hup hgood hport hl hone ha hz rfl rfl hcopy hg hcnt hfresh hb
    exact SvArrival.exec_one ⟨hup, hgood⟩ hport hl hone ha hz (takeAsdu_accepts hcopy hg hcnt hfresh hb)
  case svBad => exact fun p f z s => execSvFrameReceive_bad
  case miss => exact fun n a s hon hlast => if_neg (by simp [hon, hlast])
  case missNothing => exact fun n s h => if_pos (by simpa using h)
  case goose => exact fun p f l n s => execGooseFrameReceive_hits
  case gooseDiscards =>
    rintro _ _ p f l m n s hup hgood hl hone rfl rfl hbad
    exact GooseArrival.exec_discards ⟨hup, hgood, hl, hone⟩ hbad
  case gooseDuplicate =>
    rintro _ _ p f l m n s u hup hgood hl hone rfl rfl hcom htest hnew hu hstate hseq hother
    have h : GooseDuplicate p f m l s u := ⟨⟨⟨hup, hgood, hl, hone⟩, hcom, htest, hnew, hu⟩, hstate, hseq⟩
    exact h.exec_one (h.takes_of_not_copy hother)
  case gooseAgrees =>
    rintro _ _ p f l m n s u hup hgood hl hone rfl rfl hcom htest hnew hu hstate hseq hport hwin hsame
    have h : GooseCopy p f m n l s u := ⟨⟨⟨⟨hup, hgood, hl, hone⟩, hcom, htest, hnew, hu⟩, hstate, hseq.le⟩, hseq, hport, hwin⟩
    exact h.exec_one (h.takes hsame)
  case gooseDiffers =>
    rintro _ _ p f l m n s u hup hgood hl hone rfl rfl hcom htest hnew hu hstate hseq hport hwin hsame
    have h : GooseCopy p f m n l s u := ⟨⟨⟨⟨hup, hgood, hl, hone⟩, hcom, htest, hnew, hu⟩, hstate, hseq.le⟩, hseq, hport, hwin⟩
    exact h.exec_one (h.takes hsame)
  case gooseNew =>
    rintro _ _ p f l m n s u hup hgood hl hone rfl rfl hcom htest hnew hu hfresh hlive
    have h : GooseFresh p f m l s u := ⟨⟨⟨hup, hgood, hl, hone⟩, hcom, htest, hnew, hu⟩, hfresh⟩
    exact h.exec_one (h.takes_known hlive)
  case gooseBack =>
    rintro _ _ p f l m n s u hup hgood hl hone rfl rfl hcom htest hnew hu hfresh hstale hsome
    have h : GooseFresh p f m l s u := ⟨⟨⟨hup, hgood, hl, hone⟩, hcom, htest, hnew, hu⟩, hfresh⟩
    exact h.exec_one (h.takes_back hstale hsome)
  case gooseBad => exact fun p f n s => execGooseFrameReceive_bad
  case stale => exact fun n s hon hlive => if_neg (by simp [hon, hlive])
  case staleNothing => exact fun n s h => if_pos (by simpa using h)
  case publish => exact fun s => rfl
  case publishOne => exact fun n s => execGoosePublishSample_one
  case publishNothing => exact fun s => execGoosePublishSample_silent
  case retransmit =>
    rintro n _ s rfl hon hsent
    exact if_neg (by simp [hon, hsent])
  case retransmitNothing => exact fun n s h => if_pos (by simpa using h)
  case record =>
    rintro n q p l _ s rfl hbar hq hirq
    exact (execDmaRecordWrite_writes hbar hq).trans (congrArg Host.Outcome.next (when_of_false hirq))
  case recordSignalled =>
    rintro n q p l _ s rfl hbar hq hirq
    exact (execDmaRecordWrite_writes hbar hq).trans (congrArg Host.Outcome.next (when_of_true hirq))
  case dropped => exact fun n q p l s => execDmaRecordDrop_drops
  case droppedFirst => exact fun n q p l s => execDmaRecordDrop_drops
  case noRecord => exact fun n s hq => ⟨execDmaRecordWrite_nothing (.inr hq), execDmaRecordDrop_nothing hq⟩
  case barOff => exact fun n s hbar => execDmaRecordWrite_nothing (.inl hbar)

end Sys2Proof.Machine

/-! PROOFS. The events of the safety functions: switch reads, main-path cycles, Mordant and the safe messages (chapter 18, O46). -/

namespace Sys2Proof.Machine

open Sys2Proof

variable {s u : State}

/-! ### The switches (R464) -/

section
variable {v : Byte}

/-- The switches are read while the MPR is there. -/
structure SwitchServed (s : State) : Prop where
  mpr : mprOk s = true
  powered : s.dev.state ≠ .powerDown

/-- The value was read before and is not the one accepted. -/
def switchTakes (v : Byte) (s : State) : Bool := s.safe.swRead == some v && (!s.safe.swAcc || s.safe.sw != v)

theorem switchTakes_iff : switchTakes v s = true ↔ s.safe.swRead = some v ∧ (s.safe.swAcc = false ∨ s.safe.sw ≠ v) := by
  simp [switchTakes]

/-- The registers after a read. -/
def switchSeen (take : Bool) (v : Byte) (s : State) : State :=
  s.onSafe (fun y => { y with
    swRead := some v, sw := if take then v else y.sw, swAcc := y.swAcc || take, swReads := if take then 0 else y.swReads + 1 })

theorem execSealSwitchRead_nothing (h : mprOk s = false ∨ s.dev.state = .powerDown) : execSealSwitchRead v s = .next s :=
  if_pos (by simpa using h)

theorem SwitchServed.exec (h : SwitchServed s) {take : Bool} (ht : switchTakes v s = take) :
    execSealSwitchRead v s = .next (sealUpdate (bootWait (switchSeen take v s))) := by
  subst ht
  exact if_neg (by simp [h.mpr, h.powered])

/-- A read of the value that stands is counted. -/
theorem SwitchServed.exec_counts (h : SwitchServed s) (hsame : ¬(s.safe.swRead = some v ∧ (s.safe.swAcc = false ∨ s.safe.sw ≠ v))) :
    execSealSwitchRead v s =
      .next (sealUpdate (bootWait (s.onSafe (fun y => { y with swRead := some v, swReads := y.swReads + 1 })))) := by
  rw [h.exec (Bool.eq_false_iff.mpr (mt switchTakes_iff.mp hsame))]
  simp only [switchSeen, Bool.or_false, Bool.false_eq_true, if_false]

/-- A value read twice in a row is accepted. -/
theorem SwitchServed.exec_accepts (h : SwitchServed s) (hnew : s.safe.swRead = some v ∧ (s.safe.swAcc = false ∨ s.safe.sw ≠ v)) :
    execSealSwitchRead v s =
      .next (sealUpdate (bootWait (s.onSafe (fun y => { y with swRead := some v, sw := v, swAcc := true, swReads := 0 })))) := by
  rw [h.exec (switchTakes_iff.mpr hnew)]
  simp only [switchSeen, Bool.or_true, if_true]

end

/-! ### The main path (R474 to R481) -/

section
variable {r : PathCycle} {p : Bytes} {q e : Int} {n : Nat}

/-- The cycle up to SS1: q is taken, an excess is counted, and the load angle is supervised. -/
def mainPathStart (r : PathCycle) (s : State) : State :=
  loadAngle (s.onSafe (fun y => { y with
    q := s.safe.cfg.elim 0 (fun k => monQ s k.spb false), overruns := if r.excess then inc32 y.overruns else y.overruns }))

/-- The cycle after SS1: a held block request acts, the heartbeat toggles, and a self-test that failed is fatal. -/
def mainPathEnd (r : PathCycle) (s : State) : State :=
  when r.failed (fatalFault 0 0x015 0x0B 0)
    ((mainBlock s).onSafe (fun y => { y with beat := !y.beat, suspend := false, beatLost := false }))

theorem execMainPathCycle_eq (hpower : s.dev.state ≠ .powerDown) (hu : u = mainPathStart r s) :
    execMainPathCycle r s = .next (mainPathEnd r (if u.safe.sf = .ss1 then mainStop u else u)) := by
  subst hu
  exact if_neg hpower

/-- The stop is complete: the ramp stands and q is at or below its limit. -/
def StopComplete (p : Bytes) (u : State) : Prop := u.safe.v = 0 ∧ u.safe.q ≤ rdS p 20 4

/-- The envelope is broken, or T_MAX has passed before the stop is complete. -/
def StopBroken (p : Bytes) (e : Int) (n : Nat) (u : State) : Prop := e < u.safe.q ∨ (rd p 24 4 * 1000 ≤ n ∧ ¬ StopComplete p u)

/-- SS1 has taken its first q and the envelope of the cycle. -/
def stopMeasured (q e : Int) (u : State) : State := u.onSafe (fun y => { y with q0 := some q, env := e })

/-- The stop has ended, and the device takes the transition of its cause. -/
def stopEnded (k : DevState) (cause : Nat) (u : State) : State :=
  addTrigger k cause 0 (blockAll cause (ss1End 0 (u.onSafe (fun y => { y with sf := .idle }))))

/-- A cycle of the main path in SS1, and what it reads: the block, the first q, the time since t0 and the envelope. -/
structure StopCycle (r : PathCycle) (p : Bytes) (q e : Int) (n : Nat) (s u : State) : Prop where
  powered : s.dev.state ≠ .powerDown
  start : u = mainPathStart r s
  stopping : u.safe.sf = .ss1
  block : p = u.safe.cfg.elim [] (fun k => k.spb)
  first : q = u.safe.q0.getD u.safe.q
  elapsed : n = u.nowUs - u.safe.t0Us
  envelope : e = envelope p q n

theorem stopComplete_decide : (u.safe.v == 0 && decide (u.safe.q ≤ rdS p 20 4)) = true ↔ StopComplete p u := by simp [StopComplete]

theorem stopBroken_decide :
    (decide (e < u.safe.q) || (decide (rd p 24 4 * 1000 ≤ n) && !(u.safe.v == 0 && decide (u.safe.q ≤ rdS p 20 4)))) = true ↔
      StopBroken p e n u := by
  rw [StopBroken, ← stopComplete_decide]
  simp [imp_iff_not_or]

variable (h : StopCycle r p q e n s u)
include h

theorem StopCycle.exec {v : State} (hv : mainStop u = v) : execMainPathCycle r s = .next (mainPathEnd r v) := by
  rw [execMainPathCycle_eq h.powered h.start, if_pos h.stopping, hv]

theorem StopCycle.mainStop_broken (hbad : StopBroken p e n u) :
    mainStop u = stoEnter 3 true (safeEvent 0x04 [0, word32 u.safe.q, word32 e] (stopMeasured q e u)) := by
  obtain ⟨-, -, -, rfl, rfl, rfl, rfl⟩ := h
  exact if_pos (stopBroken_decide.mpr hbad)

theorem StopCycle.mainStop_complete (hok : ¬ StopBroken p e n u) (hdone : StopComplete p u) :
    mainStop u = stopEnded (if (u.safe.stopCause == 0x20) = true then .blockedFault else .standby)
      (if (u.safe.stopCause == 0x20) = true then 0x21 else 0x12) (stopMeasured q e u) := by
  obtain ⟨-, -, -, rfl, rfl, rfl, rfl⟩ := h
  exact (if_neg (mt stopBroken_decide.mp hok)).trans (if_pos (stopComplete_decide.mpr hdone))

theorem StopCycle.mainStop_goes_on (hok : ¬ StopBroken p e n u) (hmore : ¬ StopComplete p u) : mainStop u = stopMeasured q e u := by
  obtain ⟨-, -, -, rfl, rfl, rfl, rfl⟩ := h
  exact (if_neg (mt stopBroken_decide.mp hok)).trans (if_neg (mt stopComplete_decide.mp hmore))

theorem StopCycle.mainStop_fault (hok : ¬ StopBroken p e n u) (hdone : StopComplete p u) (hcause : u.safe.stopCause = 0x20) :
    mainStop u = stopEnded .blockedFault 0x21 (stopMeasured q e u) := by
  have hb : (u.safe.stopCause == 0x20) = true := beq_iff_eq.mpr hcause
  rw [h.mainStop_complete hok hdone, if_pos hb, if_pos hb]

theorem StopCycle.mainStop_standby (hok : ¬ StopBroken p e n u) (hdone : StopComplete p u) (hcause : u.safe.stopCause ≠ 0x20) :
    mainStop u = stopEnded .standby 0x12 (stopMeasured q e u) := by
  have hb : ¬ (u.safe.stopCause == 0x20) = true := mt beq_iff_eq.mp hcause
  rw [h.mainStop_complete hok hdone, if_neg hb, if_neg hb]

end

/-- Without a configuration there is no load angle. -/
theorem loadAngle_unconfigured (h : s.safe.cfg = none) : loadAngle s = s := by
  unfold loadAngle
  refine if_pos ?_
  rw [h]
  simp

/-- A held request blocks and asks for the transition. -/
theorem mainBlock_requested (hstate : s.dev.state = .safeStop ∨ s.dev.state = .deblocked) (hreq : s.safe.req = true) :
    mainBlock s = addTrigger .blockedFault 0x32 0 (blockAll 0x32 (s.onSafe (fun y => { y with req := false }))) :=
  if_pos ⟨hreq, hstate.symm⟩

/-- The registers of a cycle without a configuration: q is 0, and an excess is counted. -/
def pathUnconfigured (r : PathCycle) (s : State) : State :=
  s.onSafe (fun y => { y with q := 0, overruns := if r.excess then inc32 y.overruns else y.overruns })

theorem mainPathStart_unconfigured {r : PathCycle} (hcfg : s.safe.cfg = none) : mainPathStart r s = pathUnconfigured r s := by
  rw [mainPathStart, hcfg, Option.elim_none]
  exact loadAngle_unconfigured (s := pathUnconfigured r s) hcfg

/-- A cycle without a configuration, in which a held request acts. -/
theorem execMainPathCycle_blocks {r : PathCycle} (hstate : s.dev.state = .safeStop ∨ s.dev.state = .deblocked) (hcfg : s.safe.cfg = none)
    (hsf : s.safe.sf ≠ .ss1) (hreq : s.safe.req = true) :
    execMainPathCycle r s = .next (when r.failed (fatalFault 0 0x015 0x0B 0)
      ((addTrigger .blockedFault 0x32 0 (blockAll 0x32 (s.onSafe (fun y => { y with
        q := 0, overruns := if r.excess then inc32 y.overruns else y.overruns, req := false })))).onSafe (fun y => { y with
          beat := !y.beat, suspend := false, beatLost := false }))) := by
  have hpower : s.dev.state ≠ .powerDown := by rcases hstate with h | h <;> simp [h]
  rw [execMainPathCycle_eq hpower (mainPathStart_unconfigured hcfg).symm, if_neg (show (pathUnconfigured r s).safe.sf ≠ .ss1 from hsf),
    mainPathEnd, mainBlock_requested (s := pathUnconfigured r s) hstate hreq]
  rfl

/-! ### Mordant (R482, R483) -/

section
variable {k : SafeCfg} {q z e : Int} {t n : Nat}

/-- Mordant blocks at the comparator of its STO input. -/
def mordantInput (k : SafeCfg) (s : State) : State :=
  if k.sw.getLsbD 3 = true ∧ s.pwm.active.getLsbD (rd k.spb 6 1) = true ∧ s.safe.mLatch = false then mordantBlock 2 s else s

theorem execMordantCheck_nothing (h : s.safe.mcfg = none ∨ mprOk s = false) : execMordantCheck s = .next s := by
  unfold execMordantCheck
  split
  · rfl
  next k hk => exact if_pos (by simpa [hk] using h)

theorem execMordantCheck_eq (hk : s.safe.mcfg = some k) (hmpr : mprOk s = true) (hu : u = mordantInput k s) :
    execMordantCheck s = .next (if u.safe.mStop = true ∧ u.dev.state = .safeStop then mordantEnvelope k u else u) := by
  subst hu
  simp only [execMordantCheck, hk, hmpr, Bool.not_true, Bool.false_eq_true, if_false, Bool.not_eq_true']
  rfl

theorem execMordantCheck_input (hk : s.safe.mcfg = some k) (hmpr : mprOk s = true) (hu : u = mordantInput k s)
    (hstop : u.safe.mStop = false ∨ u.dev.state ≠ .safeStop) : execMordantCheck s = .next u := by
  refine (execMordantCheck_eq hk hmpr hu).trans (congrArg Host.Outcome.next (if_neg ?_))
  rintro ⟨hm, hs⟩
  rcases hstop with hno | hother
  · exact Bool.false_ne_true (hno.symm.trans hm)
  · exact hother hs

/-- Mordant has measured: the first q, the time in SAFE_STOP and the checks above the envelope. -/
def mordantMeasured (z : Int) (t n : Nat) (u : State) : State := u.onSafe (fun y => { y with mq0 := some z, mUs := t, mOver := n })

/-- A check of Mordant in SAFE_STOP, and what it reads. -/
structure MordantStop (k : SafeCfg) (q z e : Int) (t n : Nat) (s u : State) : Prop where
  config : s.safe.mcfg = some k
  mpr : mprOk s = true
  input : u = mordantInput k s
  stop : u.safe.mStop = true
  state : u.dev.state = .safeStop
  now : q = monQ u k.spb true
  first : z = u.safe.mq0.getD q
  elapsed : t = u.safe.mUs + 10
  envelope : e = envelope k.spb z t
  above : n = if e < q then u.safe.mOver + 1 else 0

theorem MordantStop.exec (h : MordantStop k q z e t n s u) :
    execMordantCheck s =
      .next (if 2 ≤ n ∨ rd k.spb 24 4 * 1000 ≤ t then
          mordantBlock 4 (raise 3 0x015 0x04 .notice 0 [1, word32 q, word32 e] (mordantMeasured z t n u))
        else mordantMeasured z t n u) := by
  obtain ⟨hk, hmpr, hu, hstop, hstate, rfl, rfl, rfl, rfl, rfl⟩ := h
  exact (execMordantCheck_eq hk hmpr hu).trans (congrArg Host.Outcome.next (if_pos ⟨hstop, hstate⟩))

end

/-- The heartbeat is supervised, and its loss has not been seen yet. -/
structure BeatWatched (s : State) : Prop where
  mpr : mprOk s = true
  supervised : s.safe.suspend = false
  alive : s.safe.beatLost = false

/-- The loss of the heartbeat stands. -/
def beatGone (s : State) : State := s.onSafe (fun y => { y with beatLost := true })

theorem BeatWatched.exec (h : BeatWatched s) {b : Bool} (hb : running s = b) :
    execMordantHeartbeatLoss s = .next (fatalFault 3 0x015 0x09 0 (if b = true then mordantBlock 7 (beatGone s) else beatGone s)) := by
  subst hb
  exact if_neg (by simp [h.mpr, h.supervised, h.alive])

/-! ### Safe messages (R454, R484 to R488) -/

section
variable {i : Fin 16} {a b : SafeCopy} {p : Bytes} {x : TxConn} {g : Nat} {k : RxConn} {l : List SafeCopy}

/-- The message is counted off. -/
def safeCountedOff (s : State) : State := s.onNet (fun x => { x with safeOff := inc32 x.safeOff })

theorem execSafeMessageDeliver_none (hpair : copyPair (tget [] s.net.copies i) = none) : execSafeMessageDeliver i s = .next s := by
  simp only [execSafeMessageDeliver, hpair]

theorem execSafeMessageDeliver_off (hpair : copyPair (tget [] s.net.copies i) = some (a, b)) (hnet : safeNet s = none) :
    execSafeMessageDeliver i s = .next (dropCopies i [a, b] s) := by
  simp only [execSafeMessageDeliver, hpair, hnet]

/-- Two copies are there for a safety core with a configuration. -/
structure SafePair (i : Fin 16) (a b : SafeCopy) (p : Bytes) (s : State) : Prop where
  pair : copyPair (tget [] s.net.copies i) = some (a, b)
  net : safeNet s = some p

/-- The message is good and newer than the last one of the connection. -/
def SafeGood (i : Fin 16) (p : Bytes) (a : SafeCopy) (s : State) : Prop :=
  pduCrc (rd p (64 + 8 * i.val) 4) a.pdu = rd a.pdu 28 4 ∧ a.pdu.length = 32 ∧
    seqNewer (pduSeq a.pdu) (tget {} s.safe.rx i : RxConn).seq = true

theorem safeGood_iff :
    ((!(a.pdu.length == 32 && pduCrc (rd p (64 + 8 * i.val) 4) a.pdu == rd a.pdu 28 4)) = true ∨
      (!seqNewer (pduSeq a.pdu) (tget {} s.safe.rx i.val : RxConn).seq) = true) ↔ ¬ SafeGood i p a s := by
  rw [← Bool.or_eq_true, ← Bool.not_and, Bool.not_eq_true', ← Bool.not_eq_true, Bool.and_eq_true, Bool.and_eq_true, beq_iff_eq,
    beq_iff_eq, and_assoc]
  exact not_congr and_left_comm

theorem SafePair.exec (h : SafePair i a b p s) :
    execSafeMessageDeliver i s =
      if (!rxOn p i) = true then .next (dropCopies i [a, b] s)
      else if a.pdu ≠ b.pdu then .next (raise 0 0x011 0x05 .notice i [pduSeq a.pdu] (safeCountedOff (dropCopies i [a, b] s)))
      else if (!(a.pdu.length == 32 && pduCrc (rd p (64 + 8 * i.val) 4) a.pdu == rd a.pdu 28 4)) = true ∨
          (!seqNewer (pduSeq a.pdu) (tget {} s.safe.rx i.val : RxConn).seq) = true then
        .next (safeCountedOff (dropCopies i [a, b] s))
      else .next (safeDeliver i p (pduSeq a.pdu) (rd a.pdu 16 1) (dropCopies i [a, b] s)) := by
  simp only [execSafeMessageDeliver, h.pair, h.net]
  rfl

theorem SafePair.exec_closed (h : SafePair i a b p s) (hrx : rxOn p i = false) :
    execSafeMessageDeliver i s = .next (dropCopies i [a, b] s) := h.exec.trans (if_pos (by simp [hrx]))

theorem SafePair.exec_differs (h : SafePair i a b p s) (hrx : rxOn p i = true) (hdiffer : a.pdu ≠ b.pdu) :
    execSafeMessageDeliver i s = .next (raise 0 0x011 0x05 .notice i [pduSeq a.pdu] (safeCountedOff (dropCopies i [a, b] s))) :=
  h.exec.trans ((if_neg (by simp [hrx])).trans (if_pos hdiffer))

theorem SafePair.exec_bad (h : SafePair i a b p s) (hrx : rxOn p i = true) (hsame : a.pdu = b.pdu) (hbad : ¬ SafeGood i p a s) :
    execSafeMessageDeliver i s = .next (safeCountedOff (dropCopies i [a, b] s)) :=
  h.exec.trans ((if_neg (by simp [hrx])).trans ((if_neg (not_not_intro hsame)).trans (if_pos (safeGood_iff.mpr hbad))))

theorem SafePair.exec_delivers (h : SafePair i a b p s) (hrx : rxOn p i = true) (hsame : a.pdu = b.pdu) (hgood : SafeGood i p a s) :
    execSafeMessageDeliver i s = .next (safeDeliver i p (pduSeq a.pdu) (rd a.pdu 16 1) (dropCopies i [a, b] s)) :=
  h.exec.trans ((if_neg (by simp [hrx])).trans
    ((if_neg (not_not_intro hsame)).trans (if_neg (fun hbad => safeGood_iff.mp hbad hgood))))

theorem execSafeCopyWindowExpiry_none (hcopies : tget [] s.net.copies i = []) : execSafeCopyWindowExpiry i s = .next s := by
  simp only [execSafeCopyWindowExpiry, hcopies]

theorem execSafeCopyWindowExpiry_oldest (hcopies : tget [] s.net.copies i = a :: l) :
    execSafeCopyWindowExpiry i s =
      if l.any (fun b => b.port != a.port && pduSeq b.pdu == pduSeq a.pdu) = true then .next s
      else .next (safeCountedOff (dropCopies i [a] s)) := by
  simp only [execSafeCopyWindowExpiry, hcopies]
  rfl

theorem execSafeMessageSend_off (h : safeNet s = none ∨ ∃ p, safeNet s = some p ∧ txOn p i = false) : execSafeMessageSend i s = .next s := by
  unfold execSafeMessageSend
  rcases h with hnone | ⟨p, hp, hoff⟩
  · rw [hnone]
  · rw [hp]
    exact if_pos (by simp [hoff])

/-- A send connection of a safety core with a configuration. -/
structure SafeSending (i : Fin 16) (p : Bytes) (x : TxConn) (s : State) : Prop where
  net : safeNet s = some p
  conn : x = tget {} s.safe.tx i
  on : txOn p i = true

theorem SafeSending.exec_sends (h : SafeSending i p x s) (hpub : (pubCfg s (txPub p i)).on = true) (hg : g = (pubCfg s (txPub p i)).tmin) :
    execSafeMessageSend i s =
      .next (pubUpd (txPub p i) (fun u => { u with
          stNum := u.stNum + 1, sqNum := 0, vals := [(.octets (safePdu s p i x.seq), true)], sent := true, tries := 0, next := g,
          ttl := 2 * g })
        (s.onSafe (fun y => { y with tx := tset y.tx i ⟨(x.seq + 1) % 2 ^ 32, safeStat s, safePdu s p i x.seq, false⟩ }))) := by
  obtain ⟨hnet, rfl, hon⟩ := h
  subst hg
  unfold execSafeMessageSend
  rw [hnet]
  exact (if_neg (by simp [hon])).trans (if_neg (by simp [hpub]))

theorem SafeSending.exec_bad (h : SafeSending i p x s) (hpub : (pubCfg s (txPub p i)).on = false) :
    execSafeMessageSend i s =
      .next (when (!x.bad) (safeEventAt 0x07 i [Config.openCode 0x1507 0])
        (s.onSafe (fun y => { y with tx := tset y.tx i { x with bad := true } }))) := by
  obtain ⟨hnet, rfl, hon⟩ := h
  unfold execSafeMessageSend
  rw [hnet]
  exact (if_neg (by simp [hon])).trans (if_pos (by simp [hpub]))

theorem execSafeRxWatchdogExpiry_none (hnet : safeNet s = none) : execSafeRxWatchdogExpiry i s = .next s := by
  simp only [execSafeRxWatchdogExpiry, hnet]

theorem execSafeRxWatchdogExpiry_idle (hnet : safeNet s = some p)
    (h : rxOn p i = false ∨ (tget {} s.safe.rx i : RxConn).runs = false ∨ (tget {} s.safe.rx i : RxConn).expired = true) :
    execSafeRxWatchdogExpiry i s = .next s := by
  unfold execSafeRxWatchdogExpiry
  rw [hnet]
  exact if_pos (by simpa using h)

/-- The watchdog of a receive connection runs. -/
structure WatchdogRuns (i : Fin 16) (p : Bytes) (k : RxConn) (s : State) : Prop where
  net : safeNet s = some p
  conn : k = tget {} s.safe.rx i
  on : rxOn p i = true
  runs : k.runs = true
  pending : k.expired = false

/-- What the flags of the connection ask for when its watchdog expires. -/
def watchdogActs (flags : Nat) (u : State) : State :=
  match flags with
  | 1 => ss1Request 0x20 u
  | 2 => stoEnter 6 true u
  | _ => u

theorem watchdogActs_of_other {flags : Nat} (h1 : flags ≠ 1) (h2 : flags ≠ 2) : watchdogActs flags u = u := by
  unfold watchdogActs
  split
  · exact absurd rfl h1
  · exact absurd rfl h2
  · rfl

theorem WatchdogRuns.exec (h : WatchdogRuns i p k s) {flags : Nat}
    (hu : u = safeEventAt 0x06 i [] (s.onSafe (fun y => { y with rx := tset y.rx i { k with expired := true } })))
    (hflags : rxFlags p i % 4 = flags) : execSafeRxWatchdogExpiry i s = .next (watchdogActs flags u) := by
  obtain ⟨hnet, rfl, hon, hruns, hpending⟩ := h
  subst hu hflags
  unfold execSafeRxWatchdogExpiry
  rw [hnet]
  exact if_neg (by simp [hon, hruns, hpending])

end

/-- Settles O46: the main path by what a cycle in SS1 reads, Mordant by its check, and the safe messages by the pair taken; the suspension that
ends at its row, the pairing of copies and SAFE_CORE_LOST on the MPR are assumptions 52, 53 and 173. -/
theorem safetyEventsSuperviseTheStop : Obligations.SafetyEventsSuperviseTheStop := by
  unfold Obligations.SafetyEventsSuperviseTheStop
  refine ⟨?noSwitch, ?switchCounts, ?switchAccepts, ?pathDown, ?path, ?broken, ?fault, ?standby, ?goesOn, ?blocks, ?noMordant, ?mordantInput,
    ?mordantMeasures, ?mordantBlocks, ?beatLost, ?beatLostRunning, ?beatKnown, ?suspension, ?noPair, ?pairOff, ?pairClosed, ?delivers,
    ?badPair, ?differ, ?window, ?partnered, ?noCopy, ?sends, ?sendsBad, ?noNet, ?sendOff, ?watchdogIdle, ?watchdogStop, ?watchdogSto,
    ?watchdogNone⟩
  case noSwitch => exact fun v s => execSealSwitchRead_nothing
  case switchCounts => exact fun v s hmpr hpower => SwitchServed.exec_counts ⟨hmpr, hpower⟩
  case switchAccepts => exact fun v s hmpr hpower => SwitchServed.exec_accepts ⟨hmpr, hpower⟩
  case pathDown => exact fun r s hdown => if_pos hdown
  case path =>
    exact fun r s u hpower hu hsf =>
      (execMainPathCycle_eq hpower hu).trans (congrArg (fun v => Host.Outcome.next (mainPathEnd r v)) (if_neg hsf))
  case broken =>
    intro r p q e n s u hpower hu hsf hp hq hn he hbad
    have h : StopCycle r p q e n s u := ⟨hpower, hu, hsf, hp, hq, hn, he⟩
    exact h.exec (h.mainStop_broken hbad)
  case fault =>
    intro r p q e n s u hpower hu hsf hp hq hn he hok hdone hcause
    have h : StopCycle r p q e n s u := ⟨hpower, hu, hsf, hp, hq, hn, he⟩
    exact h.exec (h.mainStop_fault hok hdone hcause)
  case standby =>
    intro r p q e n s u hpower hu hsf hp hq hn he hok hdone hcause
    have h : StopCycle r p q e n s u := ⟨hpower, hu, hsf, hp, hq, hn, he⟩
    exact h.exec (h.mainStop_standby hok hdone hcause)
  case goesOn =>
    intro r p q e n s u hpower hu hsf hp hq hn he hok hmore
    have h : StopCycle r p q e n s u := ⟨hpower, hu, hsf, hp, hq, hn, he⟩
    exact h.exec (h.mainStop_goes_on hok hmore)
  case blocks => exact fun r s => execMainPathCycle_blocks
  case noMordant => exact fun s => execMordantCheck_nothing
  case mordantInput => exact fun k s u => execMordantCheck_input
  case mordantMeasures =>
    intro k q z e t n s u hk hmpr hu hstop hstate hq hz ht he hn hfew htime
    have h : MordantStop k q z e t n s u := ⟨hk, hmpr, hu, hstop, hstate, hq, hz, ht, he, hn⟩
    exact h.exec.trans (congrArg Host.Outcome.next (if_neg (by omega)))
  case mordantBlocks =>
    intro k q z e t n s u hk hmpr hu hstop hstate hq hz ht he hn hover
    have h : MordantStop k q z e t n s u := ⟨hk, hmpr, hu, hstop, hstate, hq, hz, ht, he, hn⟩
    exact h.exec.trans (congrArg Host.Outcome.next (if_pos hover))
  case beatLost => exact fun s hmpr hsup halive hidle => BeatWatched.exec ⟨hmpr, hsup, halive⟩ hidle
  case beatLostRunning => exact fun s hmpr hsup halive hruns => BeatWatched.exec ⟨hmpr, hsup, halive⟩ hruns
  case beatKnown => exact fun s h => if_pos (by simpa using h)
  case suspension => exact fun s => rfl
  case noPair => exact fun i s => execSafeMessageDeliver_none
  case pairOff => exact fun i a b s => execSafeMessageDeliver_off
  case pairClosed => exact fun i a b p s hpair hnet => SafePair.exec_closed ⟨hpair, hnet⟩
  case delivers => exact fun i a b p s hpair hnet => SafePair.exec_delivers ⟨hpair, hnet⟩
  case badPair => exact fun i a b p s hpair hnet => SafePair.exec_bad ⟨hpair, hnet⟩
  case differ => exact fun i a b p s hpair hnet => SafePair.exec_differs ⟨hpair, hnet⟩
  case window => exact fun i a l s hcopies halone => (execSafeCopyWindowExpiry_oldest hcopies).trans (if_neg (ne_true_of_eq_false halone))
  case partnered => exact fun i a l s hcopies hpartner => (execSafeCopyWindowExpiry_oldest hcopies).trans (if_pos hpartner)
  case noCopy => exact fun i s => execSafeCopyWindowExpiry_none
  case sends => exact fun i p x g s hnet hx hon => SafeSending.exec_sends ⟨hnet, hx, hon⟩
  case sendsBad => exact fun i p x s hnet hx hon => SafeSending.exec_bad ⟨hnet, hx, hon⟩
  case noNet => exact fun i s hnet => ⟨execSafeMessageSend_off (.inl hnet), execSafeRxWatchdogExpiry_none hnet⟩
  case sendOff => exact fun i p s hnet hoff => execSafeMessageSend_off (.inr ⟨p, hnet, hoff⟩)
  case watchdogIdle => exact fun i p s => execSafeRxWatchdogExpiry_idle
  case watchdogStop =>
    exact fun i p k s u hnet hk hon hruns hpending => WatchdogRuns.exec ⟨hnet, hk, hon, hruns, hpending⟩
  case watchdogSto =>
    exact fun i p k s u hnet hk hon hruns hpending => WatchdogRuns.exec ⟨hnet, hk, hon, hruns, hpending⟩
  case watchdogNone =>
    exact fun i p k s u hnet hk hon hruns hpending hu h1 h2 =>
      (WatchdogRuns.exec ⟨hnet, hk, hon, hruns, hpending⟩ hu rfl).trans (congrArg Host.Outcome.next (watchdogActs_of_other h1 h2))

end Sys2Proof.Machine

/-! PROOFS. The SAFE commands: configuration, seal, ramp, the stops and the reset (Table 18.8, O45). -/

namespace Sys2Proof.Machine

open Sys2Proof

variable {c : Cmd} {s v : State}

/-! ### The gate of a command of MB0 -/

/-- The gate lets MB0 run the command in these states and roles. -/
structure Gate.OpenSafe (g : Gate) (states : List DevState) (roles : List Role) : Prop where
  mb0 : g.mb0 = true
  test : g.test = false
  legal : (states.all fun x => x != .powerDown && x != .boot && g.legalIn x) = true
  roles : (roles.all fun x => g.roles x) = true

/-- The command passes the checks of Table 4.9 up to the permission of the safety core. -/
structure Gate.Reached (g : Gate) (c : Cmd) (s : State) : Prop where
  serving : Serving s
  mailbox : (if c.mb = 0 then g.mb0 else g.mb17) = true
  test : (g.test && !s.power.straps.ftest) = false
  fits : g.Fits c
  fitted : g.fitted = true
  legal : g.legalIn s.dev.state = true
  roles : g.roles s.dev.role = true

abbrev allRoles : List Role := [.active, .standby, .fenced, .disputed]

theorem role_mem_allRoles : s.dev.role ∈ allRoles := by cases s.dev.role <;> decide

theorem state_mem_servingStates (hserving : Serving s) : s.dev.state ∈ servingStates := by
  obtain ⟨hpower, hboot⟩ := hserving
  cases hstate : s.dev.state <;> simp_all

section
variable {g : Gate} {states : List DevState} {roles : List Role} {act : State → Reply}

theorem Gate.OpenSafe.reached (h : g.OpenSafe states roles) (hmb : c.mb = 0) (hstate : s.dev.state ∈ states) (hrole : s.dev.role ∈ roles)
    (hfits : g.Fits c) (hfitted : g.fitted = true) : g.Reached c s := by
  have hopen := List.all_eq_true.mp h.legal _ hstate
  simp only [Bool.and_eq_true, bne_iff_ne] at hopen
  exact {
    serving := hopen.1
    mailbox := (if_pos hmb).trans h.mb0
    test := by simp [h.test]
    fits := hfits
    fitted := hfitted
    legal := hopen.2
    roles := roles_of_mem hrole h.roles }

theorem Gate.Reached.passes (h : g.Reached c s) (hpermit : g.permit = true) (hpar : g.par = true) : g.Passes c s :=
  ⟨h.serving, h.mailbox, h.test, h.fits.len, h.fitted, h.legal, h.roles, hpermit, hpar, h.fits.entry⟩

/-- What the loaded configuration does not permit is SEALED: check 7. -/
theorem Gate.Reached.sealed (h : g.Reached c s) (hpermit : g.permit = false) :
    runCmd g c s act = .next (answer g.opcode c .sealed g.info s) := by
  have hfail : g.fail c s = some .sealed := by
    simp [Gate.fail, Gate.mailbox_open h.mailbox, h.test, h.fits.len, h.fitted, h.legal, h.roles, hpermit]
  exact runCmd_of_fail h.serving hfail (by decide)

end

/-- MB0 sends `n` inline bytes to a unit that serves commands. -/
structure SafetyServed (n : Nat) (c : Cmd) (s : State) : Prop where
  serving : Serving s
  mailbox : c.mb = 0
  params : Inline c n

theorem SafetyServed.reached {g : Gate} {n : Nat} (h : SafetyServed n c s) (hopen : g.OpenSafe servingStates allRoles) (hlen : g.len = c.inl n)
    (hfitted : g.fitted = true) : g.Reached c s :=
  hopen.reached h.mailbox (state_mem_servingStates h.serving) role_mem_allRoles (.of_inline h.params hlen) hfitted

theorem SafetyServed.not_fitted {g : Gate} {act : State → Reply} {n : Nat} (h : SafetyServed n c s) (hmb0 : g.mb0 = true)
    (htest : g.test = false) (hlen : g.len = c.inl n) (hfitted : g.fitted = false) :
    runCmd g c s act = .next (answer g.opcode c .notFitted g.info s) :=
  runCmd_of_fail h.serving
    (Gate.fail_of_not_fitted ((if_pos h.mailbox).trans hmb0) (by simp [htest]) (hlen.trans (inl_of_inline h.params)) hfitted) (by decide)

/-! ### SAFE_CONFIG_READ -/

/-- The result of SAFE_CONFIG_READ. -/
def safeConfigResult (s : State) : Bytes :=
  le 1 (swNow s).toNat ++ le 1 (s.safe.cfg.elim 0 (fun k => k.sw.toNat)) ++ le 1 s.safe.sealSt ++ le 1 (aonFlags s) ++
    le 4 (rd (mramSpb s) 380 4) ++ le 4 (confCrcOf s)

theorem execSafeConfigRead_reads (h : SafetyServed 12 c s) (haligned : c.u64 0 % 64 = 0) (hrsv : c.rsv 8 4 = true)
    (hv : when (c.u64 0 != 0) (putBuf (c.u64 0) (withCrc (mramSpb s))) s = v) :
    execSafeConfigRead c s = .next (answer 0x0E01 c .ok (safeConfigResult s) v) := by
  subst hv
  unfold execSafeConfigRead
  exact ((h.reached ⟨rfl, rfl, rfl, rfl⟩ rfl rfl).passes rfl (by simp [haligned, hrsv])).answers rfl rfl rfl

/-! ### SAFE_SEAL_CONFIRM -/

/-- The block that SAFE_SEAL_CONFIRM gives. -/
def spbRead (c : Cmd) : Bytes := (c.params.drop 8).take 384

/-- The switch (without an MPR, the tamper state) permits the block to be stored. -/
def sealStorePermit (s : State) : Bool := if noMpr s then s.power.tamper else (swNow s).getLsbD 7

/-- The gate of SAFE_SEAL_CONFIRM. -/
def sealGate (c : Cmd) (s : State) : Gate := {
  opcode := 0x0E02, mb0 := true, mb17 := false, len := c.extLen (fun n => (n == 8 && c.u8 0 != 1) || (n == 392 && c.u8 0 != 0)),
  legal := inStates [.config, .standby, .blockedFault], permit := c.u8 0 != 1 || sealStorePermit s,
  par := c.u8 0 < 2 && c.rsv 2 2 && (c.u8 0 != 1 || spbZeros (spbRead c)) }

/-- The block is stored, and the confirmation with it gone. -/
def sealStored (p : Bytes) (s : State) : State :=
  sealUpdate (s.onSafe (fun y => { y with
    spb := p, sealBase := 0, vswUs := if rd p 7 1 = rd (mramSpb s) 7 1 then y.vswUs else some s.nowUs }))

/-- The configuration is confirmed and loaded. -/
def sealConfirmed (s : State) : State :=
  sealUpdate (safeLoad ((s.onSafe (fun y => { y with
    sealBase := 1, booted := true, confSw := some (swNow s), confCrc := some (BitVec.ofNat 32 (rd (mramSpb s) 380 4)) })).onPower
      (fun p => { p with tamper := false })))

/-- The action of SAFE_SEAL_CONFIRM. -/
def sealAct (c : Cmd) (s : State) : Reply :=
  if c.u8 0 = 1 then okReply (sealStored (spbRead c) s) (sealResult (sealStored (spbRead c) s) 0)
  else if sealRefusal (c.u8 1) (c.u32 4) s ≠ 0 then ⟨s, .conflict, sealResult s (sealRefusal (c.u8 1) (c.u32 4) s), false⟩
  else okReply (sealConfirmed s) (sealResult (sealConfirmed s) 0)

/-- The block to be stored does not hold its CRC, or not the one given. -/
def SealBlockBad (c : Cmd) (s : State) : Prop :=
  s.dev.state ≠ .powerDown ∧ (!booting s) = true ∧ c.isExt = true ∧ c.blockLen = 392 ∧ c.u8 0 = 1 ∧
    ((!spbOwn (spbRead c)) = true ∨ spbCrc (spbRead c) ≠ c.u32 4)

theorem execSafeSealConfirm_bad (h : SealBlockBad c s) : execSafeSealConfirm c s = .next (answer 0x0E02 c .crcFail [] s) := if_pos h

theorem execSafeSealConfirm_good (h : ¬ SealBlockBad c s) : execSafeSealConfirm c s = runCmd (sealGate c s) c s (sealAct c) := if_neg h

abbrev sealStates : List DevState := [.config, .standby, .blockedFault, .factoryTest]

/-- SAFE_SEAL_CONFIRM with a block of `n` bytes, in a state that takes it. -/
structure SealServed (n : Nat) (c : Cmd) (s : State) : Prop where
  mailbox : c.mb = 0
  state : s.dev.state ∈ sealStates
  params : External c (fun m => m == n)

/-- SAFE_SEAL_CONFIRM with a good block to be stored. -/
structure SealStore (c : Cmd) (s : State) : Prop extends SealServed 392 c s where
  action : c.u8 0 = 1
  rsv : c.rsv 2 2 = true
  zeros : spbZeros (spbRead c) = true
  own : spbOwn (spbRead c) = true
  crc : spbCrc (spbRead c) = c.u32 4

/-- SAFE_SEAL_CONFIRM of the configuration there is. -/
structure SealConfirm (c : Cmd) (s : State) : Prop extends SealServed 8 c s where
  action : c.u8 0 = 0
  rsv : c.rsv 2 2 = true

/-- The length of the block is one that the gate knows. -/
theorem SealServed.reached {n : Nat} (h : SealServed n c s) (hn : (n == 8 && c.u8 0 != 1 || n == 392 && c.u8 0 != 0) = true) :
    (sealGate c s).Reached c s := by
  obtain ⟨hflags, hrsvd, hlen, hzeros⟩ := h.params
  simp only [Cmd.extLen, Bool.and_eq_true, beq_iff_eq] at hlen
  obtain ⟨⟨hext, hlimits⟩, hblock⟩ := hlen
  have hfits : (sealGate c s).Fits c := ⟨by
    simp only [sealGate, Cmd.extLen, hext, hlimits, hblock]
    simpa using hn, res1 hflags hrsvd hzeros⟩
  exact Gate.OpenSafe.reached (states := sealStates) (roles := allRoles) ⟨rfl, rfl, rfl, rfl⟩ h.mailbox h.state role_mem_allRoles hfits rfl

theorem SealStore.not_bad (h : SealStore c s) : ¬ SealBlockBad c s := by
  rintro ⟨-, -, -, -, -, hown | hcrc⟩
  · simp [h.own] at hown
  · exact hcrc h.crc

theorem SealStore.reached (h : SealStore c s) : (sealGate c s).Reached c s := h.toSealServed.reached (by simp [h.action])

theorem SealStore.exec_stores (h : SealStore c s) (hpermit : sealStorePermit s = true) (hv : v = sealStored (spbRead c) s) :
    execSafeSealConfirm c s = .next (answer 0x0E02 c .ok (sealResult v 0) v) := by
  subst hv
  rw [execSafeSealConfirm_good h.not_bad]
  exact (h.reached.passes (by simp [sealGate, hpermit]) (by simp [sealGate, h.action, h.rsv, h.zeros])).answers rfl rfl (if_pos h.action)

theorem SealStore.exec_sealed (h : SealStore c s) (hpermit : sealStorePermit s = false) :
    execSafeSealConfirm c s = .next (answer 0x0E02 c .sealed [] s) := by
  rw [execSafeSealConfirm_good h.not_bad]
  exact h.reached.sealed (by simp [sealGate, h.action, hpermit])

theorem SealConfirm.not_store (h : SealConfirm c s) : c.u8 0 ≠ 1 := by simp [h.action]

theorem SealConfirm.passes (h : SealConfirm c s) : (sealGate c s).Passes c s :=
  (h.toSealServed.reached (by simp [h.action])).passes (by simp [sealGate, h.action]) (by simp [sealGate, h.action, h.rsv])

theorem SealConfirm.exec_eq (h : SealConfirm c s) : execSafeSealConfirm c s = runCmd (sealGate c s) c s (sealAct c) :=
  execSafeSealConfirm_good (fun ⟨_, _, _, _, haction, _⟩ => h.not_store haction)

theorem SealConfirm.exec_refused (h : SealConfirm c s) (hrefused : sealRefusal (c.u8 1) (c.u32 4) s ≠ 0) :
    execSafeSealConfirm c s = .next (answer 0x0E02 c .conflict (sealResult s (sealRefusal (c.u8 1) (c.u32 4) s)) s) :=
  h.exec_eq.trans (h.passes.answers rfl rfl ((if_neg h.not_store).trans (if_pos hrefused)))

theorem SealConfirm.exec_confirms (h : SealConfirm c s) (hfree : sealRefusal (c.u8 1) (c.u32 4) s = 0) (hv : v = sealConfirmed s) :
    execSafeSealConfirm c s = .next (answer 0x0E02 c .ok (sealResult v 0) v) := by
  subst hv
  exact h.exec_eq.trans (h.passes.answers rfl rfl ((if_neg h.not_store).trans (if_neg (not_not_intro hfree))))

/-! ### SAFE_RAMP_CONFIG -/

/-- The ramp that SAFE_RAMP_CONFIG gives. -/
def rampRead (c : Cmd) : RampCfg := {
  on := bit (c.u8 0) 0, useSel := bit (c.u8 0) 1, tsel := c.u16 2, target := c.s32 4, vStart := c.s32 8, vStop := c.s32 12,
  v1 := c.s32 16, a1 := c.s32 20, aMax := c.s32 24, dMax := c.s32 28, d1 := c.s32 32 }

/-- The speeds and accelerations of a ramp are in range. -/
structure RampInRange (k : RampCfg) : Prop where
  v1 : 0 < k.v1
  start : 0 ≤ k.vStart
  startMost : k.vStart ≤ k.v1
  stop : 0 ≤ k.vStop
  stopMost : k.vStop ≤ k.v1
  a1 : 0 < k.a1
  aMax : 0 < k.aMax
  dMax : 0 < k.dMax
  d1 : 0 < k.d1

/-- SAFE_RAMP_CONFIG has parameters in range. -/
structure RampAdmitted (c : Cmd) (k : RampCfg) (s : State) : Prop where
  ramp : k = rampRead c
  mailbox : c.mb = 0
  state : s.dev.state ∈ [.config, .standby, .deblocked, .blockedFault, .factoryTest]
  role : s.dev.role ∈ [.active, .standby]
  params : Inline c 36
  fitted : isM2 s = false
  flags : c.u8 0 < 4
  rsv : c.rsv 1 1 = true
  source : tselOk s.tick.len k.tsel k.useSel = true
  range : RampInRange k

theorem RampAdmitted.par {k : RampCfg} (h : RampAdmitted c k s) :
    (decide (c.u8 0 < 4) && c.rsv 1 1 && tselOk s.tick.len k.tsel k.useSel && decide (0 < k.v1) && decide (0 ≤ k.vStart) &&
      decide (k.vStart ≤ k.v1) && decide (0 ≤ k.vStop) && decide (k.vStop ≤ k.v1) && decide (0 < k.a1) && decide (0 < k.aMax) &&
      decide (0 < k.dMax) && decide (0 < k.d1)) = true := by
  obtain ⟨h1, h2, h3, h4, h5, h6, h7, h8, h9⟩ := h.range
  simp only [h.flags, h.rsv, h.source, h1, h2, h3, h4, h5, h6, h7, h8, h9, decide_true, Bool.and_self]

theorem RampAdmitted.exec {k : RampCfg} (h : RampAdmitted c k s) :
    execSafeRampConfig c s = .next (answer 0x0E03 c .ok (leS 4 (rampQ s)) (s.onSafe (fun y => { y with rampNew := some k }))) := by
  have hpar := h.par
  obtain rfl := h.ramp
  unfold execSafeRampConfig
  exact ((Gate.OpenSafe.reached ⟨rfl, rfl, rfl, rfl⟩ h.mailbox h.state h.role (.of_inline h.params rfl) (by simp [h.fitted])).passes rfl
    hpar).answers rfl rfl rfl

theorem execSafeRampConfig_not_fitted (h : SafetyServed 36 c s) (hm2 : isM2 s = true) :
    execSafeRampConfig c s = .next (answer 0x0E03 c .notFitted [] s) := by
  unfold execSafeRampConfig
  exact h.not_fitted rfl rfl rfl (by simp [hm2])

/-! ### SAFE_STOP and SAFE_TORQUE_OFF -/

/-- The gate of SAFE_STOP. -/
def safeStopGate (c : Cmd) (s : State) : Gate := {
  opcode := 0x0E04, mb0 := true, mb17 := false, len := c.inl 0, fitted := !isM2 s, legal := inStates [.deblocked],
  roles := actStby, permit := swPermits s 1, free := !held s .seal, pends := true }

/-- SS1 is requested, and the command waits for its end. -/
def safeStopPending (c : Cmd) (s : State) : State :=
  tookPending (fun p => p.opcode == 0x0E04) (pendAs 0x0E04 c [.seal] [.deblocked] 0 none (ss1Request 0x11 s))

theorem execSafeStop_eq :
    execSafeStop c s = runCmd (safeStopGate c s) c s (fun t => ⟨tookPending (fun p => p.opcode == 0x0E04)
      (goPending (safeStopGate c s) c [.seal] 0 none (ss1Request 0x11 t)), .pending, [], false⟩) := rfl

/-- SAFE_STOP in DEBLOCKED on a unit that has it. -/
structure StopServed (c : Cmd) (s : State) : Prop where
  mailbox : c.mb = 0
  state : s.dev.state = .deblocked
  role : s.dev.role ∈ [.active, .standby]
  params : Inline c 0
  fitted : isM2 s = false

theorem StopServed.reached (h : StopServed c s) : (safeStopGate c s).Reached c s :=
  Gate.OpenSafe.reached (states := [.deblocked]) ⟨rfl, rfl, rfl, rfl⟩ h.mailbox (List.mem_singleton.mpr h.state) h.role
    (.of_inline h.params rfl) (by simp [safeStopGate, h.fitted])

theorem StopServed.exec_pends (h : StopServed c s) (hpermit : swPermits s 1 = true) (hheld : held s .seal = false)
    (hroom : pendCount s c.mb < 8) : execSafeStop c s = .next (answer 0x0E04 c .pending [] (safeStopPending c s)) :=
  execSafeStop_eq.trans ((h.reached.passes hpermit rfl).answers (by simp [safeStopGate, hheld]) (by simp [hroom]) rfl)

theorem StopServed.exec_busy (h : StopServed c s) (hpermit : swPermits s 1 = true) (hbusy : held s .seal = true ∨ 8 ≤ pendCount s c.mb) :
    execSafeStop c s = .next (answer 0x0E04 c .busy [] s) :=
  execSafeStop_eq.trans ((h.reached.passes hpermit rfl).busy (by simpa [safeStopGate] using hbusy))

theorem StopServed.exec_sealed (h : StopServed c s) (hpermit : swPermits s 1 = false) :
    execSafeStop c s = .next (answer 0x0E04 c .sealed [] s) := execSafeStop_eq.trans (h.reached.sealed hpermit)

theorem execSafeStop_not_fitted (h : SafetyServed 0 c s) (hm2 : isM2 s = true) :
    execSafeStop c s = .next (answer 0x0E04 c .notFitted [] s) :=
  execSafeStop_eq.trans (h.not_fitted rfl rfl rfl (by simp [safeStopGate, hm2]))

/-- The gate of SAFE_TORQUE_OFF. -/
def torqueOffGate (c : Cmd) (s : State) : Gate := {
  opcode := 0x0E05, mb0 := true, mb17 := false, len := c.inl 0, legal := notBoot, permit := swPermits s 1 }

theorem SafetyServed.torqueOff_reached (h : SafetyServed 0 c s) : (torqueOffGate c s).Reached c s :=
  h.reached ⟨rfl, rfl, rfl, rfl⟩ rfl rfl

theorem execSafeTorqueOff_enters (h : SafetyServed 0 c s) (hpermit : swPermits s 1 = true) (hv : v = stoEnter 0 true s) :
    execSafeTorqueOff c s = .next (answer 0x0E05 c .ok (le 1 v.safe.sf.code ++ le 3 0 ++ le 8 s.tick.index) v) := by
  subst hv
  unfold execSafeTorqueOff
  exact (h.torqueOff_reached.passes hpermit rfl).answers rfl rfl rfl

theorem execSafeTorqueOff_sealed (h : SafetyServed 0 c s) (hpermit : swPermits s 1 = false) :
    execSafeTorqueOff c s = .next (answer 0x0E05 c .sealed [] s) := by
  unfold execSafeTorqueOff
  exact h.torqueOff_reached.sealed hpermit

/-! ### SAFE_RESET and SAFE_STATUS -/

/-- The gate of SAFE_RESET. -/
def safeResetGate (c : Cmd) (s : State) : Gate := {
  opcode := 0x0E06, mb0 := true, mb17 := false, len := c.inl 0, legal := inStates [.config, .standby, .blockedFault],
  permit := swPermits s 6 }

/-- SAFE_RESET in a state that takes it. -/
structure ResetServed (c : Cmd) (s : State) : Prop where
  mailbox : c.mb = 0
  state : s.dev.state ∈ sealStates
  params : Inline c 0

theorem ResetServed.reached (h : ResetServed c s) : (safeResetGate c s).Reached c s :=
  Gate.OpenSafe.reached (states := sealStates) (roles := allRoles) ⟨rfl, rfl, rfl, rfl⟩ h.mailbox h.state role_mem_allRoles
    (.of_inline h.params rfl) rfl

theorem ResetServed.exec_sealed (h : ResetServed c s) (hpermit : swPermits s 6 = false) :
    execSafeReset c s = .next (answer 0x0E06 c .sealed [] s) := by
  unfold execSafeReset
  exact h.reached.sealed hpermit

/-- A permitted reset answers what the reset gives. -/
theorem ResetServed.exec {st : Status} (h : ResetServed c s) (hpermit : swPermits s 6 = true) (hreset : safeReset 0 s = (v, st)) :
    execSafeReset c s = .next (answer 0x0E06 c st (le 1 v.safe.sf.code) v) := by
  refine (h.reached.passes hpermit rfl).answers (act := fun s => ⟨(safeReset 0 s).1, (safeReset 0 s).2, le 1 (safeReset 0 s).1.safe.sf.code, false⟩)
    rfl rfl ?_
  simp only [hreset]

theorem safeReset_without_sto {n : Nat} (hsf : s.safe.sf ≠ .sto) : safeReset n s = (s, .conflict) := if_pos hsf

theorem safeReset_present {n : Nat} (hsf : s.safe.sf = .sto) (hpresent : stoPresent s = true) : safeReset n s = (s, .tripActive) :=
  (if_neg (not_not_intro hsf)).trans (if_pos hpresent)

theorem safeReset_leaves {n : Nat} (hsf : s.safe.sf = .sto) (habsent : stoPresent s = false) :
    safeReset n s = (safeEvent 0x0A [Config.openCode 0x150A n]
      (s.onSafe (fun y => { y with sf := .idle, mLatch := false, req := false, causes := 0 })), .ok) :=
  (if_neg (not_not_intro hsf)).trans (if_neg (ne_true_of_eq_false habsent))

theorem execSafeStatus_reads (h : SafetyServed 0 c s) : execSafeStatus c s = .next (answer 0x0E07 c .ok (safeStatus s) s) := by
  unfold execSafeStatus
  exact ((h.reached ⟨rfl, rfl, rfl, rfl⟩ rfl rfl).passes rfl rfl).answers rfl rfl rfl

/-- Settles O45: every command through the gate of MB0, whose check 7 is the permission of the loaded configuration; the state of the seal
after a write and the reserved bytes of the block are assumptions 51 and 173. -/
theorem safetyCommandsSealStopAndReset : Obligations.SafetyCommandsSealStopAndReset := by
  unfold Obligations.SafetyCommandsSealStopAndReset
  refine ⟨?read, ?readBlock, ?store, ?storeSealed, ?crcFail, ?refused, ?confirms, ?ramp, ?rampAbsent, ?stop, ?stopBusy, ?stopSealed,
    ?stopAbsent, ?torqueOff, ?torqueOffSealed, ?resetSealed, ?resetConflict, ?resetActive, ?reset, ?status⟩
  case read =>
    exact fun c s hserving hmb hinline hnone hrsv =>
      execSafeConfigRead_reads ⟨hserving, hmb, hinline⟩ (by omega) hrsv (when_of_false (bne_eq_false_iff_eq.mpr hnone))
  case readBlock =>
    exact fun c s hserving hmb hinline haligned hbuf hrsv =>
      execSafeConfigRead_reads ⟨hserving, hmb, hinline⟩ haligned hrsv (when_of_true (bne_iff_ne.mpr hbuf))
  case store =>
    rintro c _ s v rfl hmb hstate hblock haction hrsv hzeros hown hcrc
    exact SealStore.exec_stores ⟨⟨hmb, hstate, hblock⟩, haction, hrsv, hzeros, hown, hcrc⟩
  case storeSealed =>
    rintro c _ s rfl hmb hstate hblock haction hrsv hzeros hown hcrc
    exact SealStore.exec_sealed ⟨⟨hmb, hstate, hblock⟩, haction, hrsv, hzeros, hown, hcrc⟩
  case crcFail =>
    rintro c _ s rfl hserving hext hlen haction hbad
    exact execSafeSealConfirm_bad ⟨hserving.1, by simp [booting, hserving.2], hext, hlen, haction, hbad.imp_left (by simp [spbRead])⟩
  case refused =>
    exact fun c s hmb hstate hblock haction hrsv => SealConfirm.exec_refused ⟨⟨hmb, hstate, hblock⟩, haction, hrsv⟩
  case confirms =>
    exact fun c s v hmb hstate hblock haction hrsv => SealConfirm.exec_confirms ⟨⟨hmb, hstate, hblock⟩, haction, hrsv⟩
  case ramp =>
    exact fun c k s hk hmb hstate hrole hinline hm2 hflags hrsv hsource h1 h2 h3 h4 h5 h6 h7 h8 h9 =>
      RampAdmitted.exec ⟨hk, hmb, hstate, hrole, hinline, hm2, hflags, hrsv, hsource, h1, h2, h3, h4, h5, h6, h7, h8, h9⟩
  case rampAbsent => exact fun c s hserving hmb hinline => execSafeRampConfig_not_fitted ⟨hserving, hmb, hinline⟩
  case stop => exact fun c s hmb hstate hrole hinline hm2 => StopServed.exec_pends ⟨hmb, hstate, hrole, hinline, hm2⟩
  case stopBusy => exact fun c s hmb hstate hrole hinline hm2 => StopServed.exec_busy ⟨hmb, hstate, hrole, hinline, hm2⟩
  case stopSealed => exact fun c s hmb hstate hrole hinline hm2 => StopServed.exec_sealed ⟨hmb, hstate, hrole, hinline, hm2⟩
  case stopAbsent => exact fun c s hserving hmb hinline => execSafeStop_not_fitted ⟨hserving, hmb, hinline⟩
  case torqueOff => exact fun c s v hserving hmb hinline => execSafeTorqueOff_enters ⟨hserving, hmb, hinline⟩
  case torqueOffSealed => exact fun c s hserving hmb hinline => execSafeTorqueOff_sealed ⟨hserving, hmb, hinline⟩
  case resetSealed => exact fun c s hmb hstate hinline => ResetServed.exec_sealed ⟨hmb, hstate, hinline⟩
  case resetConflict =>
    exact fun c s hmb hstate hinline hpermit hsf => ResetServed.exec ⟨hmb, hstate, hinline⟩ hpermit (safeReset_without_sto hsf)
  case resetActive =>
    intro c s hmb hstate hinline hpermit hsf hpresent
    have hanswer := ResetServed.exec ⟨hmb, hstate, hinline⟩ hpermit (safeReset_present (n := 0) hsf hpresent)
    rw [hsf] at hanswer
    exact hanswer
  case reset =>
    rintro c s _ hmb hstate hinline hpermit hsf habsent rfl
    exact ResetServed.exec ⟨hmb, hstate, hinline⟩ hpermit (safeReset_leaves hsf habsent)
  case status => exact fun c s hserving hmb hinline => execSafeStatus_reads ⟨hserving, hmb, hinline⟩

end Sys2Proof.Machine

/-! PROOFS. The FAULT commands and TEST_FAULT_INJECT (Table 19.11, O47). -/

namespace Sys2Proof.Machine

open Sys2Proof

variable {c : Cmd} {s : State}

/-! ### FAULT_MASK_SET -/

/-- The pair that FAULT_MASK_SET names, and whether it holds a FATAL kind. -/
def maskPair (c : Cmd) : Nat × Nat := (c.u16 0, c.u8 2)

def maskFatal (c : Cmd) : Bool := if c.u8 2 = 0xFF then (List.range 0xFF).any (fatalKind (c.u16 0)) else fatalKind (c.u16 0) (c.u8 2)

/-- FAULT_MASK_SET names a block and a kind of it, or all its kinds. -/
structure MaskAdmitted (c : Cmd) (s : State) : Prop where
  served : CmdServed 8 c s
  rsv : c.rsv 4 4 = true
  block : (kindRuns (c.u16 0)).isSome = true
  kind : c.u8 2 = 0xFF ∨ kindClasses (c.u16 0) (c.u8 2) ≠ []

/-- The masks are these. -/
def masksSet (l : List (Nat × Nat)) (s : State) : State := s.onFault (fun f => { f with masks := l })

/-- The action of FAULT_MASK_SET. -/
def maskAct (c : Cmd) (s : State) : Reply :=
  if c.u8 3 = 0 then
    okReply (masksSet (s.fault.masks.filter (· != maskPair c)) s) (le 2 (s.fault.masks.filter (· != maskPair c)).length)
  else if maskFatal c = true then ⟨s, .conflict, le 2 s.fault.masks.length, false⟩
  else if s.fault.masks.contains (maskPair c) then okReply s (le 2 s.fault.masks.length)
  else if 64 ≤ s.fault.masks.length then ⟨s, .exhausted, le 2 s.fault.masks.length, false⟩
  else okReply (masksSet (s.fault.masks ++ [maskPair c]) s) (le 2 (s.fault.masks ++ [maskPair c]).length)

section
variable (h : MaskAdmitted c s)
include h

theorem MaskAdmitted.exec {t : State} {st : Status} {r : Bytes} (haction : c.u8 3 < 2) (hact : maskAct c s = ⟨t, st, r, false⟩) :
    execFaultMaskSet c s = .next (answer 0x0F01 c st r t) := by
  have hpar : (decide (c.u8 3 < 2) && c.rsv 4 4 && (kindRuns (c.u16 0)).isSome &&
      (c.u8 2 == 0xFF || !(kindClasses (c.u16 0) (c.u8 2)).isEmpty)) = true := by
    simpa [haction, h.rsv, h.block] using h.kind
  unfold execFaultMaskSet
  exact (h.served.passes hpar).answers rfl rfl hact

theorem MaskAdmitted.exec_removes (haction : c.u8 3 = 0) :
    execFaultMaskSet c s = .next (answer 0x0F01 c .ok (le 2 (s.fault.masks.filter (· != maskPair c)).length)
      (masksSet (s.fault.masks.filter (· != maskPair c)) s)) :=
  h.exec (by omega) (if_pos haction)

theorem MaskAdmitted.exec_adds {t : State} {st : Status} {r : Bytes} (haction : c.u8 3 = 1)
    (hact : (if maskFatal c = true then ⟨s, .conflict, le 2 s.fault.masks.length, false⟩
      else if s.fault.masks.contains (maskPair c) then okReply s (le 2 s.fault.masks.length)
      else if 64 ≤ s.fault.masks.length then ⟨s, .exhausted, le 2 s.fault.masks.length, false⟩
      else okReply (masksSet (s.fault.masks ++ [maskPair c]) s) (le 2 (s.fault.masks ++ [maskPair c]).length)) =
        (⟨t, st, r, false⟩ : Reply)) :
    execFaultMaskSet c s = .next (answer 0x0F01 c st r t) :=
  h.exec (by omega) ((if_neg (by omega)).trans hact)

end

/-! ### The Colophon -/

/-- FAULT_COLOPHON_READ with a buffer. -/
structure ColophonRead (c : Cmd) (s : State) : Prop where
  served : CmdServed 12 c s
  rsv : c.rsv 1 3 = true
  buffer : c.buf 4 = true

/-- The Colophon that FAULT_COLOPHON_READ names, or its copy. -/
def colophonNamed (c : Cmd) (s : State) : Option Colophon := if c.u8 0 = 0 then some s.fault.col else s.fault.colCopy

section
variable {k : Colophon} (h : ColophonRead c s) (hpart : c.u8 0 < 2)
include h hpart

theorem ColophonRead.par : (decide (c.u8 0 < 2) && c.rsv 1 3 && c.buf 4) = true := by simp [hpart, h.rsv, h.buffer]

theorem ColophonRead.exec_writes (hk : colophonNamed c s = some k) :
    execFaultColophonRead c s = .next (answer 0x0F02 c .ok k.result (putBuf (c.u64 4) k.bytes s)) := by
  unfold colophonNamed at hk
  unfold execFaultColophonRead
  refine (h.served.passes (h.par hpart)).answers rfl rfl ?_
  simp only [hk]
  rfl

theorem ColophonRead.exec_none (hk : colophonNamed c s = none) :
    execFaultColophonRead c s = .next (answer 0x0F02 c .ok (le 1 3 ++ le 16 0) s) := by
  unfold colophonNamed at hk
  unfold execFaultColophonRead
  refine (h.served.passes (h.par hpart)).answers rfl rfl ?_
  simp only [hk]
  rfl

end

/-- FAULT_COLOPHON_REARM with a mask of Table 19.11. -/
structure ColophonRearm (c : Cmd) (s : State) : Prop where
  served : CmdServed 4 c s
  some : c.u8 0 ≠ 0
  notice : c.u8 0 % 2 = 0
  classes : c.u8 0 < 16
  flag : c.u8 1 < 2
  rsv : c.rsv 2 2 = true

theorem ColophonRearm.exec (h : ColophonRearm c s) :
    execFaultColophonRearm c s = .next (answer 0x0F03 c .ok (le 1 s.fault.col.state.code) (s.onFault (fun f => { f with
      col := { mask := BitVec.ofNat 4 (c.u8 0) }, colCopy := if c.u8 1 = 1 then none else f.colCopy }))) := by
  have hpar : (c.u8 0 != 0 && c.u8 0 % 2 == 0 && decide (c.u8 0 < 16) && decide (c.u8 1 < 2) && c.rsv 2 2) = true := by
    simp [h.some, h.notice, h.classes, h.flag, h.rsv]
  unfold execFaultColophonRearm
  exact (h.served.passes hpar).answers rfl rfl rfl

/-- The result of FAULT_STATUS. -/
def faultStatusResult (s : State) : Bytes :=
  le 1 (b2n s.dev.fatal) ++ le 1 s.fault.col.state.code ++ le 2 s.fault.backlog.length ++ le 8 s.fault.cause.toNat ++
    (List.range 4).flatMap (fun i => le 4 (tget 0 s.fault.counts i)) ++ le 4 s.fault.lostCnt ++ le 4 s.fault.mergedAll ++
    le 4 s.fault.epCount ++ le 4 s.tick.index

/-- Every mailbox may read FAULT_STATUS. -/
theorem execFaultStatus_reads (hserving : Serving s) (hinline : Inline c 0) :
    execFaultStatus c s = .next (answer 0x0F04 c .ok (faultStatusResult s) s) := by
  unfold execFaultStatus
  refine Gate.Passes.answers ⟨hserving, ite_self _, rfl, inl_of_inline hinline, rfl, ?_, rfl, rfl, rfl, entryReserved_of_inline hinline⟩
    rfl rfl rfl
  exact legal_serving hserving.1 hserving.2 rfl

/-! ### TEST_FAULT_INJECT (R514) -/

/-- The class that TEST_FAULT_INJECT gives, where the kind can carry it. -/
def injectClass (c : Cmd) : Option FClass := (kindClasses (c.u16 2) (c.u8 4)).find? (fun x => x.code == c.u8 5)

/-- The message of an injected fault. -/
def injectMsg (c : Cmd) (k : Nat) (x : FClass) (addr : Nat) (d : List Nat) (s : State) : FaultMsg :=
  { die := c.u8 1, block := c.u16 2, kind := k, cls := x, addr := addr, tick := s.tick.index, d := d, injected := true, interim := false }

/-- The kind that TEST_FAULT_INJECT needs in its mode. -/
def injectKindOk (c : Cmd) : Bool :=
  if c.u8 0 = 1 then (kindRuns (c.u16 2)).isSome else (injectClass c).isSome && (c.u8 0 == 0 || injectClass c == some .fatal)

/-- The gate of TEST_FAULT_INJECT. -/
def injectGate (c : Cmd) (s : State) : Gate := {
  opcode := 0x7F02, test := true, len := c.inl 16, fitted := 8 ≤ c.u8 1 || dieOk s (c.u8 1), legal := inStates [.factoryTest],
  par := c.u8 0 < 3 && c.u8 1 < 8 && c.u8 6 < 2 && c.rsv 7 1 && c.rsv 12 4 && injectKindOk c }

/-- Mode 1 at a place that holds the word `i`. -/
def injectWord (c : Cmd) (s : State) (i : Nat) : Reply :=
  if c.u8 6 = 0 then
    injectOwn (injectMsg c 0xE0 .corrected i [c.u32 8] s) (eccReact (c.u8 1) (c.u16 2) (Config.eccPlace (c.u8 1) (c.u16 2) (c.u32 8)) false) s
  else if fatalOwner (c.u16 2) = true then
    inject (injectMsg c 0xE1 .fatal i [c.u32 8] s) (fun t => fatalReact (c.u8 1) (fatalLatch (injectMsg c 0xE1 .fatal i [c.u32 8] s) t)) s
  else if c.u16 2 = 0x03A then inject (injectMsg c 0xE1 .contained i [c.u32 8] s) (protStop 2) s
  else injectOwn (injectMsg c 0xE1 .contained i [c.u32 8] s) (eccReact (c.u8 1) (c.u16 2) (Config.eccPlace (c.u8 1) (c.u16 2) (c.u32 8)) true) s

/-- The action of TEST_FAULT_INJECT. -/
def injectAct (c : Cmd) (s : State) : Reply :=
  if c.u8 0 = 1 then
    match Config.eccWord (c.u8 1) (c.u16 2) (c.u32 8) with
    | none => ⟨s, .conflict, [], false⟩
    | some i => injectWord c s i
  else if c.u8 0 = 0 then injectPlain (injectMsg c (c.u8 4) ((injectClass c).getD .notice) (c.u32 8) [] s) s
  else
    inject (injectMsg c (c.u8 4) ((injectClass c).getD .notice) (c.u32 8) [] s)
      (fun t => fatalReact (c.u8 1) (fatalLatch (injectMsg c (c.u8 4) ((injectClass c).getD .notice) (c.u32 8) [] s) t)) s

theorem execTestFaultInject_eq : execTestFaultInject c s = runCmd (injectGate c s) c s (injectAct c) := rfl

/-- TEST_FAULT_INJECT in FACTORY_TEST, its parameters but for the kind in range. -/
structure InjectServed (c : Cmd) (s : State) : Prop where
  state : s.dev.state = .factoryTest
  strap : s.power.straps.ftest = true
  params : Inline c 16
  mailbox : c.mb ≠ 0
  die : c.u8 1 < 8
  bits : c.u8 6 < 2
  rsv7 : c.rsv 7 1 = true
  rsv12 : c.rsv 12 4 = true

theorem InjectServed.serving (h : InjectServed c s) : Serving s := by simp [Serving, h.state]

theorem InjectServed.test (h : InjectServed c s) : ((injectGate c s).test && !s.power.straps.ftest) = false := by simp [h.strap]

theorem InjectServed.exec_not_fitted (h : InjectServed c s) (hdie : dieOk s (c.u8 1) = false) :
    execTestFaultInject c s = .next (answer 0x7F02 c .notFitted [] s) := by
  have hless := h.die
  have hfitted : (injectGate c s).fitted = false := by simp [injectGate, hdie, hless]
  exact execTestFaultInject_eq.trans
    (runCmd_of_fail h.serving (Gate.fail_of_not_fitted (mailbox_of_ne_zero h.mailbox rfl) h.test (inl_of_inline h.params) hfitted) (by decide))

/-- The die is there. -/
structure InjectAdmitted (c : Cmd) (s : State) : Prop extends InjectServed c s where
  fitted : dieOk s (c.u8 1) = true

/-- An address that names no word is answered CONFLICT; at a word, the command answers what `f` and `r` say. -/
def wordAnswer (c : Cmd) (f : Nat → State) (r : Nat → Bytes) (s : State) : State :=
  match Config.eccWord (c.u8 1) (c.u16 2) (c.u32 8) with
  | none => answer 0x7F02 c .conflict [] s
  | some i => answer 0x7F02 c .ok (r i) (f i)

section
variable {x : FClass} {m : FaultMsg} (h : InjectAdmitted c s)
include h

theorem InjectAdmitted.passes (hmode : c.u8 0 < 3) (hkind : injectKindOk c = true) : (injectGate c s).Passes c s where
  serving := h.serving
  mailbox := mailbox_of_ne_zero h.mailbox rfl
  test := h.test
  len := inl_of_inline h.params
  fitted := by simp [injectGate, h.fitted]
  legal := by rw [h.state]; rfl
  roles := rfl
  permit := rfl
  par := by simp [injectGate, hmode, h.die, h.bits, h.rsv7, h.rsv12, hkind]
  entry := entryReserved_of_inline h.params

/-- Mode 0 with a kind that is not FATAL: the collector takes the message. -/
theorem InjectAdmitted.exec_collects (hm : m = injectMsg c (c.u8 4) x (c.u32 8) [] s) (hmode : c.u8 0 = 0) (hx : injectClass c = some x)
    (hclass : x ≠ .fatal) :
    execTestFaultInject c s = .next (answer 0x7F02 c .ok (le 4 s.fault.seq.toNat ++ le 8 s.tick.index) (collect m s)) := by
  subst hm
  refine execTestFaultInject_eq.trans ((h.passes (by omega) (by simp [injectKindOk, hmode, hx])).answers rfl rfl ?_)
  refine (if_neg (by omega)).trans ((if_pos hmode).trans ?_)
  rw [hx]
  exact congrArg (fun t => (⟨t, _, _, _⟩ : Reply)) (if_neg hclass)

/-- Mode 0 with a FATAL kind: the collector's own reactions follow. -/
theorem InjectAdmitted.exec_latches (hm : m = injectMsg c (c.u8 4) .fatal (c.u32 8) [] s) (hmode : c.u8 0 = 0)
    (hx : injectClass c = some .fatal) :
    execTestFaultInject c s =
      .next (answer 0x7F02 c .ok (le 4 s.fault.seq.toNat ++ le 8 s.tick.index) (safeAll 0x30 (fatalLatch m (collect m s)))) := by
  subst hm
  refine execTestFaultInject_eq.trans ((h.passes (by omega) (by simp [injectKindOk, hmode, hx])).answers rfl rfl ?_)
  refine (if_neg (by omega)).trans ((if_pos hmode).trans ?_)
  rw [hx]
  exact congrArg (fun t => (⟨t, _, _, _⟩ : Reply)) (if_pos rfl)

/-- Mode 2: a fatal fault with all its reactions. -/
theorem InjectAdmitted.exec_reacts (hm : m = injectMsg c (c.u8 4) .fatal (c.u32 8) [] s) (hmode : c.u8 0 = 2)
    (hx : injectClass c = some .fatal) :
    execTestFaultInject c s =
      .next (answer 0x7F02 c .ok (le 4 s.fault.seq.toNat ++ le 8 s.tick.index)
        (markInjected s.fault.waiting.length (fatalReact (c.u8 1) (fatalLatch m (arrive m s))))) := by
  subst hm
  refine execTestFaultInject_eq.trans ((h.passes (by omega) (by simp [injectKindOk, hmode, hx])).answers rfl rfl ?_)
  refine (if_neg (by omega)).trans ((if_neg (by omega)).trans ?_)
  rw [hx]
  rfl

/-- Mode 1: an upset of the word named. -/
theorem InjectAdmitted.exec_word {f : Nat → State} {r : Nat → Bytes} (hmode : c.u8 0 = 1) (hruns : (kindRuns (c.u16 2)).isSome = true)
    (hword : ∀ i, injectWord c s i = okReply (f i) (r i)) : execTestFaultInject c s = .next (wordAnswer c f r s) := by
  have hpasses := h.passes (by omega) ((if_pos hmode).trans hruns)
  rw [execTestFaultInject_eq, wordAnswer]
  cases hplace : Config.eccWord (c.u8 1) (c.u16 2) (c.u32 8) with
  | none =>
    refine hpasses.answers rfl rfl ((if_pos hmode).trans ?_)
    rw [hplace]
  | some i =>
    refine hpasses.answers rfl rfl ((if_pos hmode).trans ?_)
    rw [hplace]
    exact hword i

end

/-- An injection with a reaction of its own is answered OK. -/
theorem injectOwn_eq_okReply {m : FaultMsg} {f : State → State} : injectOwn m f s = okReply (injectOwn m f s).st (injectOwn m f s).result := by
  unfold injectOwn
  simp only
  split <;> rfl

theorem injectWord_single {i : Nat} (hone : c.u8 6 = 0) :
    injectWord c s i = injectOwn (injectMsg c 0xE0 .corrected i [c.u32 8] s)
      (eccReact (c.u8 1) (c.u16 2) (Config.eccPlace (c.u8 1) (c.u16 2) (c.u32 8)) false) s := if_pos hone

section
variable {i : Nat} (htwo : c.u8 6 = 1)
include htwo

theorem injectWord_double :
    injectWord c s i =
      if fatalOwner (c.u16 2) = true then
        inject (injectMsg c 0xE1 .fatal i [c.u32 8] s) (fun t => fatalReact (c.u8 1) (fatalLatch (injectMsg c 0xE1 .fatal i [c.u32 8] s) t)) s
      else if c.u16 2 = 0x03A then inject (injectMsg c 0xE1 .contained i [c.u32 8] s) (protStop 2) s
      else injectOwn (injectMsg c 0xE1 .contained i [c.u32 8] s)
        (eccReact (c.u8 1) (c.u16 2) (Config.eccPlace (c.u8 1) (c.u16 2) (c.u32 8)) true) s :=
  if_neg (by omega)

theorem injectWord_fatal (howner : fatalOwner (c.u16 2) = true) :
    injectWord c s i = okReply (markInjected s.fault.waiting.length (fatalReact (c.u8 1)
      (fatalLatch (injectMsg c 0xE1 .fatal i [c.u32 8] s) (arrive (injectMsg c 0xE1 .fatal i [c.u32 8] s) s))))
      (le 4 s.fault.seq.toNat ++ le 8 s.tick.index) := (injectWord_double htwo).trans (if_pos howner)

theorem injectWord_protection (hblock : c.u16 2 = 0x03A) :
    injectWord c s i = okReply (markInjected s.fault.waiting.length (protStop 2 (arrive (injectMsg c 0xE1 .contained i [c.u32 8] s) s)))
      (le 4 s.fault.seq.toNat ++ le 8 s.tick.index) := by
  have howner : ¬ fatalOwner (c.u16 2) = true := by rw [hblock]; decide
  exact (injectWord_double htwo).trans ((if_neg howner).trans (if_pos hblock))

theorem injectWord_contained (howner : fatalOwner (c.u16 2) = false) (hblock : c.u16 2 ≠ 0x03A) :
    injectWord c s i = injectOwn (injectMsg c 0xE1 .contained i [c.u32 8] s)
      (eccReact (c.u8 1) (c.u16 2) (Config.eccPlace (c.u8 1) (c.u16 2) (c.u32 8)) true) s :=
  (injectWord_double htwo).trans ((if_neg (ne_true_of_eq_false howner)).trans (if_neg hblock))

end

/-- Settles O47: each command through its action as a function of the parameters, mode 1 of TEST_FAULT_INJECT by the word it names; the counts in
CONFLICT and EXHAUSTED results are assumption 103, address and reaction of mode 1 are 36 and 80, mode 0 is 174. -/
theorem faultCommandsMaskAndReadTheColophon : Obligations.FaultCommandsMaskAndReadTheColophon := by
  unfold Obligations.FaultCommandsMaskAndReadTheColophon
  refine ⟨?removes, ?fatalPair, ?already, ?appends, ?exhausted, ?read, ?copy, ?noCopy, ?rearm, ?status, ?collects, ?latches, ?reacts, ?single,
    ?double, ?protection, ?contained, ?absent⟩
  case removes =>
    exact fun c s hserving hmb hinline hrsv hblock hkind =>
      MaskAdmitted.exec_removes ⟨⟨hserving, hmb, hinline⟩, hrsv, hblock, hkind⟩
  case fatalPair =>
    exact fun c s hserving hmb hinline hrsv hblock hkind haction hfatal =>
      MaskAdmitted.exec_adds ⟨⟨hserving, hmb, hinline⟩, hrsv, hblock, hkind⟩ haction (if_pos hfatal)
  case already =>
    exact fun c s hserving hmb hinline hrsv hblock hkind haction hfatal hthere =>
      MaskAdmitted.exec_adds ⟨⟨hserving, hmb, hinline⟩, hrsv, hblock, hkind⟩ haction
        ((if_neg (ne_true_of_eq_false hfatal)).trans (if_pos hthere))
  case appends =>
    intro c s hserving hmb hinline hrsv hblock hkind haction hfatal hnew hroom
    rw [show s.fault.masks.length + 1 = (s.fault.masks ++ [maskPair c]).length from (List.length_append (bs := [maskPair c])).symm]
    exact MaskAdmitted.exec_adds ⟨⟨hserving, hmb, hinline⟩, hrsv, hblock, hkind⟩ haction
      ((if_neg (ne_true_of_eq_false hfatal)).trans ((if_neg (ne_true_of_eq_false hnew)).trans (if_neg (by omega))))
  case exhausted =>
    exact fun c s hserving hmb hinline hrsv hblock hkind haction hfatal hnew hfull =>
      MaskAdmitted.exec_adds ⟨⟨hserving, hmb, hinline⟩, hrsv, hblock, hkind⟩ haction
        ((if_neg (ne_true_of_eq_false hfatal)).trans ((if_neg (ne_true_of_eq_false hnew)).trans (if_pos hfull)))
  case read =>
    exact fun c s hserving hmb hinline hpart hrsv hbuf =>
      ColophonRead.exec_writes ⟨⟨hserving, hmb, hinline⟩, hrsv, hbuf⟩ (by omega) (if_pos hpart)
  case copy =>
    exact fun c k s hserving hmb hinline hpart hrsv hbuf hcopy =>
      ColophonRead.exec_writes ⟨⟨hserving, hmb, hinline⟩, hrsv, hbuf⟩ (by omega) ((if_neg (by omega)).trans hcopy)
  case noCopy =>
    exact fun c s hserving hmb hinline hpart hrsv hbuf hcopy =>
      ColophonRead.exec_none ⟨⟨hserving, hmb, hinline⟩, hrsv, hbuf⟩ (by omega) ((if_neg (by omega)).trans hcopy)
  case rearm =>
    exact fun c s hserving hmb hinline hsome hnotice hclasses hflag hrsv =>
      ColophonRearm.exec ⟨⟨hserving, hmb, hinline⟩, hsome, hnotice, hclasses, hflag, hrsv⟩
  case status => exact fun c s => execFaultStatus_reads
  case collects =>
    exact fun c x m s hm hstate hstrap hinline hmb h1 h2 h3 h4 hdie =>
      InjectAdmitted.exec_collects ⟨⟨hstate, hstrap, hinline, hmb, h1, h2, h3, h4⟩, hdie⟩ hm
  case latches =>
    exact fun c m s hm hstate hstrap hinline hmb h1 h2 h3 h4 hdie =>
      InjectAdmitted.exec_latches ⟨⟨hstate, hstrap, hinline, hmb, h1, h2, h3, h4⟩, hdie⟩ hm
  case reacts =>
    exact fun c m s hm hstate hstrap hinline hmb h1 h2 h3 h4 hdie =>
      InjectAdmitted.exec_reacts ⟨⟨hstate, hstrap, hinline, hmb, h1, h2, h3, h4⟩, hdie⟩ hm
  case single =>
    exact fun c s hstate hstrap hinline hmb h1 h2 h3 h4 hdie hmode hruns hone =>
      InjectAdmitted.exec_word ⟨⟨hstate, hstrap, hinline, hmb, h1, h2, h3, h4⟩, hdie⟩ hmode hruns
        (fun i => (injectWord_single hone).trans injectOwn_eq_okReply)
  case double =>
    exact fun c s hstate hstrap hinline hmb h1 h2 h3 h4 hdie hmode hruns htwo howner =>
      InjectAdmitted.exec_word ⟨⟨hstate, hstrap, hinline, hmb, h1, h2, h3, h4⟩, hdie⟩ hmode hruns
        (fun i => injectWord_fatal htwo howner)
  case protection =>
    exact fun c s hstate hstrap hinline hmb h1 h2 h3 h4 hdie hmode hruns htwo hblock =>
      InjectAdmitted.exec_word ⟨⟨hstate, hstrap, hinline, hmb, h1, h2, h3, h4⟩, hdie⟩ hmode hruns
        (fun i => injectWord_protection htwo hblock)
  case contained =>
    exact fun c s hstate hstrap hinline hmb h1 h2 h3 h4 hdie hmode hruns htwo howner hblock =>
      InjectAdmitted.exec_word ⟨⟨hstate, hstrap, hinline, hmb, h1, h2, h3, h4⟩, hdie⟩ hmode hruns
        (fun i => (injectWord_contained htwo howner hblock).trans injectOwn_eq_okReply)
  case absent =>
    exact fun c s hstate hstrap hinline hmb h1 h2 h3 h4 => InjectServed.exec_not_fitted ⟨hstate, hstrap, hinline, hmb, h1, h2, h3, h4⟩

end Sys2Proof.Machine

/-! PROOFS. The events of the fault collector: arrivals, fatal faults, entry moves, the Colophon and give-way events (chapter 19, O48), and what
sets FATAL (O60). -/

namespace Sys2Proof.Machine

open Sys2Proof

variable {s t v : State}

/-! ### Arrivals (R498) -/

section
variable {m : FaultMsg} {l : List FaultMsg} {k n : Nat}

theorem arriveNext_none (hnone : s.fault.waiting = []) : arriveNext s = s := by
  unfold arriveNext
  rw [hnone]

/-- What waits behind the message, with the message arrived. -/
def arrivedFirst (m : FaultMsg) (l : List FaultMsg) (s : State) : State := arrive m (s.onFault (fun f => { f with waiting := l }))

theorem arriveNext_first (hfirst : s.fault.waiting = m :: l) (hv : v = arrivedFirst m l s) :
    arriveNext s =
      if tget 0 v.fault.merged (m.die * 512 + m.block) = 0 ∨ l.any (fun x => x.die == m.die && x.block == m.block) = true then v
      else raise 0 0x008 0x01 .notice (m.die * 512 + m.block) [tget 0 v.fault.merged (m.die * 512 + m.block)]
        (v.onFault (fun f => { f with merged := tdel f.merged (m.die * 512 + m.block) })) := by
  subst hv
  unfold arriveNext
  rw [hfirst]
  rfl

end

/-! ### Fatal faults (R508, R509) -/

section
variable {die block kind addr : Nat}

/-- A FATAL kind of a die that is there, while the device has power. -/
structure FatalDecided (die block kind : Nat) (s : State) : Prop where
  kind : fatalKind block kind = true
  die : dieOk s die = true
  powered : s.dev.state ≠ .powerDown

/-- A fatal fault is latched, and the units react. -/
def fatalTaken (die block kind addr : Nat) (s : State) : State :=
  fatalReact die (fatalLatch (fatalMsg die block kind addr [] false s) (post (fatalMsg die block kind addr [] false s) s))

theorem FatalDecided.exec (h : FatalDecided die block kind s) : execFatalFault die block kind addr s = .next (fatalTaken die block kind addr s) := by
  have hpass : ¬ ((!dieOk s die) = true ∨ s.dev.state = .powerDown) := by simp [h.die, h.powered]
  exact (if_pos h.kind).trans (congrArg Host.Outcome.next (if_neg hpass))

theorem execFatalFault_not_fatal (hkind : fatalKind block kind = false) : execFatalFault die block kind addr s = .next s :=
  if_neg (ne_true_of_eq_false hkind)

theorem execFatalFault_nothing (h : fatalKind block kind = false ∨ dieOk s die = false ∨ s.dev.state = .powerDown) :
    execFatalFault die block kind addr s = .next s := by
  unfold execFatalFault
  split
  next hkind =>
    have habsent : (!dieOk s die) = true ∨ s.dev.state = .powerDown := by simpa [hkind] using h
    exact congrArg Host.Outcome.next (if_pos habsent)
  · rfl

end

/-! ### Entries of the event queue (R504) -/

section
variable {e : EvEntry} {l : List EvEntry}

theorem execEvqEntryMove_none (hnone : s.fault.backlog = []) : execEvqEntryMove s = .next s := by
  simp only [execEvqEntryMove, hnone]

theorem execEvqEntryMove_stays (hfirst : s.fault.backlog = e :: l)
    (hshut : s.fault.ctrl.getLsbD 0 = false ∨ 64 ≤ (s.fault.tail - s.fault.head).toNat) : execEvqEntryMove s = .next s := by
  simp only [execEvqEntryMove, hfirst]
  exact if_pos (by simpa using hshut)

/-- The oldest entry is in the window, and vector 8 is signalled where IE allows. -/
def entryMoved (e : EvEntry) (l : List EvEntry) (s : State) : State :=
  when (s.fault.ctrl.getLsbD 1 && barOn s) (fun t => t.onMb (fun m => { m with msix := 8 :: m.msix }))
    (s.onFault (fun x => { x with backlog := l, window := tset x.window (x.tail.toNat % 64) e, tail := x.tail + 1 }))

/-- The queue is enabled, and the window has room for the oldest entry. -/
structure EntryMoves (e : EvEntry) (l : List EvEntry) (s v : State) : Prop where
  first : s.fault.backlog = e :: l
  enabled : s.fault.ctrl.getLsbD 0 = true
  room : (s.fault.tail - s.fault.head).toNat < 64
  moved : v = entryMoved e l s

theorem EntryMoves.exec (h : EntryMoves e l s v) :
    execEvqEntryMove s =
      if 0 < s.fault.lostRun ∧ l.length < 512 then
        .next (raise 0 0x008 0x02 .notice 0 [s.fault.lostRun] (v.onFault (fun x => { x with lostRun := 0 })))
      else .next v := by
  obtain ⟨hfirst, henabled, hroom, rfl⟩ := h
  have hopen : ¬ ((!s.fault.ctrl.getLsbD 0) = true ∨ 64 ≤ (s.fault.tail - s.fault.head).toNat) := by
    rintro (hoff | hfull)
    · exact Bool.false_ne_true ((Bool.not_eq_true' _ |>.mp hoff).symm.trans henabled)
    · omega
  simp only [execEvqEntryMove, hfirst]
  exact if_neg hopen

end

/-! ### The Colophon and give-way events (R506, R512) -/

theorem execColophonFreeze_stays
    (h : s.fault.col.state ≠ .filling ∨
      (s.fault.col.places.length < 64 ∧ s.fault.col.tick ≤ s.tick.index ∧ (s.tick.index - s.fault.col.tick) * s.tick.len < 1000000)) :
    execColophonFreeze s = .next s := if_pos h

theorem execColophonFreeze_freezes {k : Colophon} (hfilling : s.fault.col.state = .filling)
    (hdue : ¬(s.fault.col.places.length < 64 ∧ s.fault.col.tick ≤ s.tick.index ∧ (s.tick.index - s.fault.col.tick) * s.tick.len < 1000000))
    (hk : k = { s.fault.col with state := .frozen, tick := s.tick.index }) :
    execColophonFreeze s = .next (raise 0 0x008 0x03 .notice 0 [k.first] (s.onFault (fun f => { f with
      col := k, colCopy := if 3 ≤ s.spare.given then none else some k }))) := by
  subst hk
  refine if_neg ?_
  rintro (hother | hearly)
  · exact hother hfilling
  · exact hdue hearly

/-- A whole second of the episode has passed without its interim event. -/
def interimDue (s : State) (e : Episode) : Bool := decide (e.marks < (s.tick.index - e.first) * s.tick.len / 1000000)

/-- The episodes with the seconds that are due marked. -/
def interimMarked (s : State) : State :=
  s.onFault (fun f => { f with episodes := f.episodes.map (fun e => if interimDue s e then { e with marks := e.marks + 1 } else e) })

theorem execGiveWayInterim_eq {l : List Episode} (hl : l = s.fault.episodes.filter (interimDue s)) :
    execGiveWayInterim s = .next (l.foldl (fun t e => precEvent e (e.last + 1 - e.first) true t) (interimMarked s)) := by
  subst hl
  rfl

theorem execGiveWayInterim_one {e : Episode} (hone : s.fault.episodes = [e]) (hdue : interimDue s e = true) :
    execGiveWayInterim s =
      .next (precEvent e (e.last + 1 - e.first) true (s.onFault (fun f => { f with episodes := [{ e with marks := e.marks + 1 }] }))) := by
  have hl : [e] = s.fault.episodes.filter (interimDue s) := by rw [hone, List.filter_cons_of_pos hdue, List.filter_nil]
  have hmarked : interimMarked s = s.onFault (fun f => { f with episodes := [{ e with marks := e.marks + 1 }] }) := by
    show { s with fault := { s.fault with episodes := s.fault.episodes.map _ } } = _
    rw [hone, List.map_cons, if_pos hdue]
    rfl
  rw [execGiveWayInterim_eq hl, hmarked]
  rfl

/-- Settles O48: one lemma for each of the collector's events; that no copy stands once the MRAM gives way is assumption 178, the unmet rows are
assumption 9. -/
theorem faultEventsReachTheCollector : Obligations.FaultEventsReachTheCollector := by
  unfold Obligations.FaultEventsReachTheCollector
  refine ⟨?noMessage, ?arrives, ?merged, ?fatal, ?notFatal, ?moves, ?losses, ?stays, ?noEntry, ?freezes, ?fills, ?interim, ?interims⟩
  case noMessage => exact fun s hnone => congrArg Host.Outcome.next (arriveNext_none hnone)
  case arrives => exact fun m l s v hfirst hv halone => congrArg Host.Outcome.next ((arriveNext_first hfirst hv).trans (if_pos halone))
  case merged =>
    rintro m l _ _ s v hfirst hv rfl rfl hmerged hlast
    refine congrArg Host.Outcome.next ((arriveNext_first hfirst hv).trans (if_neg ?_))
    rintro (hzero | hmore)
    · exact hmerged hzero
    · exact Bool.false_ne_true (hlast.symm.trans hmore)
  case fatal => exact fun die block kind addr s hkind hdie hpower => FatalDecided.exec ⟨hkind, hdie, hpower⟩
  case notFatal => exact fun die block kind addr s => execFatalFault_nothing
  case moves =>
    exact fun e l s v hfirst henabled hroom hv hnone =>
      (EntryMoves.exec ⟨hfirst, henabled, hroom, hv⟩).trans (if_neg (by omega))
  case losses =>
    exact fun e l s v hfirst henabled hroom hv hlost hspace =>
      (EntryMoves.exec ⟨hfirst, henabled, hroom, hv⟩).trans (if_pos ⟨hlost, hspace⟩)
  case stays => exact fun e l s => execEvqEntryMove_stays
  case noEntry => exact fun s => execEvqEntryMove_none
  case freezes => exact fun k s => execColophonFreeze_freezes
  case fills => exact fun s => execColophonFreeze_stays
  case interim => exact fun e s hone hdue => execGiveWayInterim_one hone (decide_eq_true hdue)
  case interims => exact fun l s => execGiveWayInterim_eq

/-! ### What sets FATAL (R502, R509) -/

section
variable {die block kind addr : Nat}

/-- The ports of the die fall silent, the pairs stop, and every port sends its block frame. -/
def fatalBlocked (die : Nat) (s : State) : State :=
  safeAll 0x30 (pairsRecheck (((allPorts s).filter (fun p => portDie p == die)).foldl (fun t p => portSilent p t) s))

/-- What stops at once; the protection engine too, where the die is the MPR. -/
def fatalStopped (die : Nat) (s : State) : State := if die = 3 then protStop 0 (fatalBlocked die s) else fatalBlocked die s

theorem fatalReact_eq :
    fatalReact die s =
      if s.dev.state = .factoryTest ∨ s.dev.state = .boot ∨ s.dev.state = .powerDown then fatalStopped die s
      else addTrigger .blockedFault 0x30 0 (fatalStopped die s) := rfl

theorem fatalBlocked_dev : (fatalBlocked die s).dev = s.dev :=
  have hports := (foldl_keeps (fun t p => portSilent p t) (fun t p => portSilent_keeps p t)
    ((allPorts s).filter (fun p => portDie p == die)) s s (Keeps.refl _ s)).dev (by decide)
  ((safeAll_keeps ..).dev (by decide)).trans (((pairsRecheck_keeps _).dev (by decide)).trans hports)

theorem fatalStopped_dev : (fatalStopped die s).dev = s.dev := by
  unfold fatalStopped
  split
  · exact ((protStop_keeps ..).dev (by decide)).trans fatalBlocked_dev
  · exact fatalBlocked_dev

/-- The reactions to a fatal fault leave FATAL and the device state; the transition comes at the next boundary. -/
theorem fatalReact_dev : (fatalReact die s).dev.fatal = s.dev.fatal ∧ (fatalReact die s).dev.state = s.dev.state := by
  have hfatal := congrArg Dev.fatal (fatalStopped_dev (die := die) (s := s))
  have hstate := congrArg Dev.state (fatalStopped_dev (die := die) (s := s))
  rw [fatalReact_eq]
  split
  · exact ⟨hfatal, hstate⟩
  · exact ⟨hfatal, hstate⟩

/-- A fatal fault of a die that is there sets FATAL and leaves the device state. -/
theorem fatalTaken_dev : (fatalTaken die block kind addr s).dev.fatal = true ∧ (fatalTaken die block kind addr s).dev.state = s.dev.state := by
  obtain ⟨hfatal, hstate⟩ := fatalReact_dev (die := die)
    (s := fatalLatch (fatalMsg die block kind addr [] false s) (post (fatalMsg die block kind addr [] false s) s))
  have hpost := congrArg Dev.state (post_dev (fatalMsg die block kind addr [] false s) s)
  exact ⟨hfatal, hstate.trans hpost⟩

end

theorem collectorReact_not_fatal {m : FaultMsg} (h : m.cls ≠ .fatal) : collectorReact m s = s := if_neg h

/-- The class of an injected message is the one given. -/
theorem injectClass_code {c : Cmd} {x : FClass} (h : injectClass c = some x) : x.code = c.u8 5 := by
  unfold injectClass at h
  simpa using List.find?_some h

theorem injectClass_not_fatal {c : Cmd} (h : c.u8 5 < 3) : (injectClass c).getD .notice ≠ .fatal := by
  cases hx : injectClass c with
  | none => decide
  | some x =>
    rintro rfl
    exact absurd (injectClass_code hx) (Nat.ne_of_gt h)

/-- Mode 0 with a class below FATAL leaves the device record. -/
theorem injectAct_keeps {c : Cmd} (hmode : c.u8 0 = 0) (hclass : c.u8 5 < 3) (s : State) : Keeps [.host, .mb, .fault] s (injectAct c s).st := by
  have hact : (injectAct c s).st = collect (injectMsg c (c.u8 4) ((injectClass c).getD .notice) (c.u32 8) [] s) s := by
    unfold injectAct
    rw [if_neg (by omega), if_pos hmode]
    exact collectorReact_not_fatal (injectClass_not_fatal hclass)
  rw [hact]
  exact Keeps.step (collect_keeps ..) rfl (Keeps.refl _ _)

theorem execTestFaultInject_dev {c : Cmd} (hmode : c.u8 0 = 0) (hclass : c.u8 5 < 3) :
    ∃ t, execTestFaultInject c s = .next t ∧ t.dev = s.dev := by
  obtain ⟨t, ht, hkeeps⟩ := Answers.runCmd (injectGate c s) c s (injectAct c) (injectAct_keeps hmode hclass) rfl
  exact ⟨t, ht, hkeeps.dev (by decide)⟩

/-- Settles O60: messages by what raising and arriving keep, FATAL kinds by the latch, and an injected message below FATAL by the collector. -/
theorem onlyFatalKindsSetFatal : Obligations.OnlyFatalKindsSetFatal := by
  unfold Obligations.OnlyFatalKindsSetFatal
  refine ⟨?raised, ?arrivesNext, ?arrived, ?collected, ?notFatal, ?fatal, ?injected⟩
  case raised => exact fun die block kind addr k d s => raise_dev ..
  case arrivesNext => exact fun s => ⟨arriveNext s, rfl, (arriveNext_keeps s).dev (by decide)⟩
  case arrived => exact fun m s => (arrive_keeps m s).dev (by decide)
  case collected => exact fun m s => collectorReact_not_fatal
  case notFatal => exact fun die block kind addr s => execFatalFault_not_fatal
  case fatal => exact fun die block kind addr s hkind hdie hpower => ⟨_, FatalDecided.exec ⟨hkind, hdie, hpower⟩, fatalTaken_dev⟩
  case injected => exact fun c s _ _ => execTestFaultInject_dev

end Sys2Proof.Machine

/-! PROOFS. Disputes, self-checks, the role decision, silence, promotion and unfencing (Table 4.13, chapter 20, O51). -/

namespace Sys2Proof.Machine

open Sys2Proof

variable {s t u : State}

/-! ### DISPUTED and the self-check (R527, R528) -/

/-- The unit is DISPUTED from now on. -/
def disputeStarted (s : State) : State :=
  setRole .disputed (s.onRed (fun r => { r with
    before := some s.dev.role, entered := s.nowUs, check := none, pCheck := none, record := none, disputes := min (r.disputes + 1) 65535 }))

theorem execDisputedEnter_enters {d b : Nat} (hdispute : s.red.dispute = some (d, b)) (hdue : b ≤ s.tick.index)
    (hrole : s.dev.role = .active ∨ s.dev.role = .standby) : execDisputedEnter s = .next (disputeStarted s) := by
  unfold execDisputedEnter
  rw [hdispute]
  refine if_neg ?_
  rintro (hearly | ⟨hactive, hstandby⟩)
  · omega
  · exact hrole.elim hactive hstandby

theorem execDisputedEnter_nothing
    (h : s.red.dispute.all (fun d => decide (s.tick.index < d.2)) = true ∨ (s.dev.role ≠ .active ∧ s.dev.role ≠ .standby)) :
    execDisputedEnter s = .next s := by
  unfold execDisputedEnter
  split
  · rfl
  next b hb => exact if_pos (h.imp_left (fun hall => by simpa [hb] using hall))

/-- The result of the self-check by Table 20.4. -/
def selfCheck (x y z : Bool) (s : State) : Bool := x && y && z && configDigest s == s.red.digest

theorem execSelfCheckDone_sends {x y z : Bool} (hrole : s.dev.role = .disputed) (hfirst : s.red.check = none) :
    execSelfCheckDone x y z s =
      .next (xlSend (.check (selfCheck x y z s)) (s.onRed (fun r => { r with check := some (selfCheck x y z s) }))) :=
  if_neg (by simp [hrole, hfirst])

theorem execSelfCheckDone_nothing {x y z : Bool} (h : s.dev.role ≠ .disputed ∨ s.red.check ≠ none) : execSelfCheckDone x y z s = .next s :=
  if_pos (by simpa [Option.isSome_iff_ne_none] using h)

/-! ### The role decision (R529, R530) -/

/-- Both results are there for the decision of a disputed unit. -/
structure BothResults (own partner : Bool) (s : State) : Prop where
  role : s.dev.role = .disputed
  own : s.red.check = some own
  partner : s.red.pCheck = some partner

/-- The dispute has ended with both results. -/
def disputeDecided (own partner : Nat) (s : State) : State := checkEvent own partner (endDispute s)

/-- Both passed: CONTAINED is raised at the domain of the dispute. -/
def bothPassed (s : State) : State :=
  redEvent 0x05 .contained ((s.red.dispute.map (·.1)).getD 0) [] (disputeDecided 1 1 s)

section
variable {own partner : Bool}

theorem BothResults.exec (h : BothResults own partner s) :
    execRoleDecision s =
      if (!own) = true then .next (fenceNow partner (disputeDecided (b2n own) (b2n partner) s))
      else if (!partner) = true then
        .next (setRole .active (when (followsTime s && s.time.cfg.mode) restartTime (disputeDecided (b2n own) (b2n partner) s)))
      else
        .next (if (s.red.before == some .active) = true then
            setRole .active (redEvent 0x05 .contained ((s.red.dispute.map (·.1)).getD 0) [] (disputeDecided (b2n own) (b2n partner) s))
          else fenceNow true (redEvent 0x05 .contained ((s.red.dispute.map (·.1)).getD 0) [] (disputeDecided (b2n own) (b2n partner) s))) := by
  refine (if_neg (not_not_intro h.role)).trans ?_
  rw [h.own, h.partner]
  rfl

theorem BothResults.exec_own_fails (h : BothResults false partner s) :
    execRoleDecision s = .next (fenceNow partner (disputeDecided 0 (b2n partner) s)) := h.exec

theorem BothResults.exec_partner_fails (h : BothResults true false s) :
    execRoleDecision s = .next (setRole .active (when (followsTime s && s.time.cfg.mode) restartTime (disputeDecided 1 0 s))) := h.exec

theorem BothResults.exec_active_stays (h : BothResults true true s) (hbefore : s.red.before = some .active) :
    execRoleDecision s = .next (setRole .active (bothPassed s)) :=
  h.exec.trans (congrArg Host.Outcome.next (if_pos (beq_iff_eq.mpr hbefore)))

theorem BothResults.exec_standby_fenced (h : BothResults true true s) (hbefore : s.red.before ≠ some .active) :
    execRoleDecision s = .next (fenceNow true (bothPassed s)) :=
  h.exec.trans (congrArg Host.Outcome.next (if_neg (mt beq_iff_eq.mp hbefore)))

end

theorem execRoleDecision_nothing (h : s.dev.role ≠ .disputed ∨ s.red.check = none ∨ s.red.pCheck = none) :
    execRoleDecision s = .next s := by
  unfold execRoleDecision
  split
  · rfl
  next hrole =>
    split
    next own partner hown hpartner =>
      rcases h with hother | hnone | hnone
      · exact absurd hother hrole
      · exact absurd (hown.symm.trans hnone) (by simp)
      · exact absurd (hpartner.symm.trans hnone) (by simp)
    · rfl

/-- 40 µs have passed without the partner's result. -/
structure PartnerSilent (own : Bool) (s : State) : Prop where
  role : s.dev.role = .disputed
  due : s.red.entered + 40 ≤ s.nowUs
  partner : s.red.pCheck = none
  own : s.red.check = some own

theorem PartnerSilent.exec {own : Bool} (h : PartnerSilent own s) :
    execCheckTimeout s =
      if own = true then .next (partnerLost 0 (setRole (s.red.before.getD .active) (disputeDecided (b2n own) 2 s)))
      else .next (fenceNow false (disputeDecided (b2n own) 2 s)) := by
  have hdue := h.due
  refine (if_neg (by simp [h.role, hdue])).trans ?_
  rw [h.own, h.partner]
  rfl

theorem execCheckTimeout_nothing
    (h : s.dev.role ≠ .disputed ∨ s.nowUs < s.red.entered + 40 ∨ s.red.check = none ∨ s.red.pCheck ≠ none) :
    execCheckTimeout s = .next s := by
  unfold execCheckTimeout
  split
  · rfl
  next hopen =>
    split
    next own hown hpartner =>
      rcases h with hother | hearly | hnone | hsome
      · exact absurd (Or.inl hother) hopen
      · exact absurd (Or.inr hearly) hopen
      · exact absurd (hown.symm.trans hnone) (by simp)
      · exact absurd hpartner hsome
    · rfl

/-! ### Silence and promotion (R531, R532) -/

theorem execPartnerBack_ends (hsilent : s.red.silent = true) (hgood : 16 ≤ s.red.good) :
    execPartnerBack s = .next (redEvent 0x07 .notice 0 [] (s.onRed (fun r => { r with
      silent := false, good := 0, missed := 0, evidence := 0, theirs := none, own := none, promote := none }))) := by
  refine if_neg ?_
  rintro (hheard | hfew)
  · simp [hsilent] at hheard
  · omega

theorem execPartnerBack_nothing (h : s.red.silent = false ∨ s.red.good < 16) : execPartnerBack s = .next s := if_pos (by simpa using h)

/-- A boundary that has come. -/
def boundaryDue (s : State) (b : Option Nat) : Bool := b.any (fun x => decide (x ≤ s.tick.index))

/-- A promotion or a hand-over is due. -/
def PromotionDue (s : State) : Prop := boundaryDue s s.red.promote = true ∨ boundaryDue s s.red.take = true

theorem promoteDue_nothing (hpromote : boundaryDue s s.red.promote = false) (htake : boundaryDue s s.red.take = false) : promoteDue s = s := by
  unfold boundaryDue at hpromote htake
  exact if_pos (by simp only [hpromote, htake, Bool.or_self, Bool.not_false])

section
variable (hdue : PromotionDue s)
include hdue

theorem PromotionDue.not_none_due : ¬ (!(s.red.promote.any (fun x => decide (x ≤ s.tick.index)) || s.red.take.any (fun x => decide (x ≤ s.tick.index)))) = true := by
  rw [Bool.not_eq_true', Bool.not_eq_false, Bool.or_eq_true]
  exact hdue

theorem PromotionDue.promotes (hrole : s.dev.role = .standby) (hsilent : s.red.silent = true)
    (ht : t = promoteNow (b2n (!boundaryDue s s.red.promote)) s) :
    promoteDue s = if s.red.take.isSome = true then endRed 0x1002 .ok (handResult t s.tick.index) t else t := by
  subst ht
  exact (if_neg (PromotionDue.not_none_due hdue)).trans (if_pos ⟨hrole, hsilent⟩)

theorem PromotionDue.drops (hnot : s.dev.role ≠ .standby ∨ s.red.silent = false)
    (ht : t = s.onRed (fun r => { r with
      promote := r.promote.filter (fun x => s.tick.index < x), take := r.take.filter (fun x => s.tick.index < x) })) :
    promoteDue s = if boundaryDue s s.red.take = true then endRed 0x1002 .conflict (handResult s s.tick.index) t else t := by
  subst ht
  refine (if_neg (PromotionDue.not_none_due hdue)).trans (if_neg ?_)
  rintro ⟨hrole, hsilent⟩
  rcases hnot with hother | hheard
  · exact hother hrole
  · exact Bool.false_ne_true (hheard.symm.trans hsilent)

end

/-! ### Unfencing (R534) -/

/-- The unit has become STANDBY, and its comparison starts. -/
def unfenced (s u : State) : State :=
  endForm 0x1003 .ok (unfenceResult u) ((compareFresh u).onRed (fun r => { r with heard := some s.tick.index, missed := 0 }))

theorem execUnfenceInstallDone_ends (hform : formNow s = some (0x1003, .install 0)) (hu : u = standbyTime (setRole .standby (takeState s))) :
    execUnfenceInstallDone s = .next (unfenced s u) := by
  subst hu
  unfold execUnfenceInstallDone
  rw [hform]
  exact if_neg (not_not_intro rfl)

theorem execUnfenceInstallDone_nothing (h : formNow s ≠ some (0x1003, .install 0)) : execUnfenceInstallDone s = .next s := by
  unfold execUnfenceInstallDone
  split
  next op hop =>
    refine if_pos ?_
    rintro rfl
    exact h hop
  · rfl

theorem execUnfenceTimeout_ends {f : FormStep} (hform : formNow s = some (0x1003, f)) :
    execUnfenceTimeout s = .next (endForm 0x1003 .timeout (unfenceResult s) s) := by
  unfold execUnfenceTimeout
  rw [hform]
  exact if_pos rfl

theorem execUnfenceTimeout_nothing (h : (formNow s).all (fun f => f.1 != 0x1003) = true) : execUnfenceTimeout s = .next s := by
  unfold execUnfenceTimeout
  split
  next op f hop => exact if_neg (by simpa [hop] using h)
  · rfl

/-- Settles O51: the decision by the two results, the promotion by the boundaries that are due; the discipline taken up and the waiting hand-over
that ends OK are assumptions 176, 92 and 93. -/
theorem disputesDecideTheRoles : Obligations.DisputesDecideTheRoles := by
  unfold Obligations.DisputesDecideTheRoles
  refine ⟨?enters, ?staysOut, ?check, ?checked, ?ownFails, ?partnerFails, ?activeStays, ?standbyFenced, ?undecided, ?timeoutPass, ?timeoutFail,
    ?noTimeout, ?back, ?notBack, ?promotes, ?handedOver, ?drops, ?notDue, ?unfenced, ?notInstalled, ?unfenceTimeout, ?noUnfence⟩
  case enters => exact fun d b s => execDisputedEnter_enters
  case staysOut => exact fun s => execDisputedEnter_nothing
  case check => exact fun x y z s => execSelfCheckDone_sends
  case checked => exact fun x y z s => execSelfCheckDone_nothing
  case ownFails => exact fun b s hrole hown hpartner => BothResults.exec_own_fails ⟨hrole, hown, hpartner⟩
  case partnerFails => exact fun s hrole hown hpartner => BothResults.exec_partner_fails ⟨hrole, hown, hpartner⟩
  case activeStays => exact fun s hrole hown hpartner => BothResults.exec_active_stays ⟨hrole, hown, hpartner⟩
  case standbyFenced => exact fun s hrole hown hpartner => BothResults.exec_standby_fenced ⟨hrole, hown, hpartner⟩
  case undecided => exact fun s => execRoleDecision_nothing
  case timeoutPass => exact fun s hrole hdue hpartner hown => PartnerSilent.exec ⟨hrole, hdue, hpartner, hown⟩
  case timeoutFail => exact fun s hrole hdue hpartner hown => PartnerSilent.exec ⟨hrole, hdue, hpartner, hown⟩
  case noTimeout => exact fun s => execCheckTimeout_nothing
  case back => exact fun s => execPartnerBack_ends
  case notBack => exact fun s => execPartnerBack_nothing
  case promotes =>
    exact fun s t hdue hrole hsilent ht hnone =>
      congrArg Host.Outcome.next ((PromotionDue.promotes hdue hrole hsilent ht).trans (if_neg (by simp [hnone])))
  case handedOver =>
    exact fun s t hdue hrole hsilent ht hsome =>
      congrArg Host.Outcome.next
        ((PromotionDue.promotes hdue hrole hsilent ht).trans (if_pos (Option.isSome_iff_ne_none.mpr hsome)))
  case drops => exact fun s t hdue hnot ht => congrArg Host.Outcome.next (PromotionDue.drops hdue hnot ht)
  case notDue => exact fun s hpromote htake => congrArg Host.Outcome.next (promoteDue_nothing hpromote htake)
  case unfenced => exact fun s u => execUnfenceInstallDone_ends
  case notInstalled => exact fun s => execUnfenceInstallDone_nothing
  case unfenceTimeout => exact fun f s => execUnfenceTimeout_ends
  case noUnfence => exact fun s => execUnfenceTimeout_nothing

end Sys2Proof.Machine

/-! PROOFS. The REC commands: configuration, freezes and replays (Table 21.11, O52). -/

namespace Sys2Proof.Machine

open Sys2Proof

variable {c : Cmd} {s v : State}

/-! ### REC_CONFIG -/

/-- A tap in use is cleared. -/
def tapCleared (k : GalleyCfg) (s : State) : Bool := (List.range 11).any (fun i => bit s.galley.cfg.mask i && !bit k.mask i)

/-- The DRAM that the recorder and the records need, in MiB. -/
def recNeed (k : GalleyCfg) (s : State) : Nat := k.ring.getD 0 + k.frzN * k.frz + k.dec + s.prot.act.recs.store

/-- A size moves. -/
def RecMoved (k : GalleyCfg) (s : State) : Prop :=
  ringMib s s.galley.cfg ≠ k.ring.getD 0 ∨ s.galley.cfg.frzN ≠ k.frzN ∨ s.galley.cfg.frz ≠ k.frz ∨ s.galley.cfg.dec ≠ k.dec

/-- The parameters are stored. -/
def recStored (k : GalleyCfg) (s : State) : State :=
  s.onGalley (fun g => { g with cfg := k, partTaps := tapCleared k s || (g.partTaps && k.mask != 0x7FE) })

/-- Rings and slots are empty. -/
def recEmptied (s : State) : State :=
  s.onGalley (fun g => { g with ring := [], dec := [], slots := [], images := [], buf := [], pred := [] })

/-- REC_CONFIG_CHANGED (Table 21.9). -/
def recChanged (k : GalleyCfg) (s : State) : State := recEvent 0x09 0 [k.ring.getD 0, k.frzN, k.dec] s

/-- The result of REC_CONFIG. -/
def recConfigResult (k : GalleyCfg) (s : State) : Bytes :=
  le 4 (dramUsable s - (k.ring.getD 0 + k.frzN * k.frz + k.dec)) ++ le 4 (k.img * 1024)

/-- The gate of REC_CONFIG. -/
def recConfigGate (c : Cmd) (s : State) : Gate := {
  opcode := 0x1101, len := c.inl 32, legal := inStates [.config], free := !recBusy s,
  par := recRange (recCfg c) (dramUsable s) && c.rsv 2 2 && c.rsv 30 2 }

/-- The action of REC_CONFIG. -/
def recConfigAct (k : GalleyCfg) (s : State) : Reply :=
  if tapCleared k s = true ∧ k.frzN ≠ 0 then ⟨s, .conflict, [], false⟩
  else if dramUsable s < recNeed k s then ⟨s, .exhausted, [], false⟩
  else okReply (recChanged k (when (decide (ringMib s s.galley.cfg ≠ k.ring.getD 0 ∨ s.galley.cfg.frzN ≠ k.frzN ∨ s.galley.cfg.frz ≠ k.frz ∨
    s.galley.cfg.dec ≠ k.dec)) recEmptied (recStored k s))) (recConfigResult k s)

theorem execRecConfig_eq : execRecConfig c s = runCmd (recConfigGate c s) c s (recConfigAct (recCfg c)) := rfl

/-- REC_CONFIG has parameters in range. -/
structure RecConfigAdmitted (c : Cmd) (k : GalleyCfg) (s : State) : Prop where
  config : k = recCfg c
  state : s.dev.state ∈ [.config, .factoryTest]
  mailbox : c.mb ≠ 0
  params : Inline c 32
  range : recRange k (dramUsable s) = true
  rsv2 : c.rsv 2 2 = true
  rsv30 : c.rsv 30 2 = true

section
variable {k : GalleyCfg} (h : RecConfigAdmitted c k s)
include h

theorem RecConfigAdmitted.passes : (recConfigGate c s).Passes c s := by
  obtain ⟨rfl, hstate, hmb, hinline, hrange, hrsv2, hrsv30⟩ := h
  exact Gate.OpenIn.passes (states := [.config, .factoryTest]) (roles := allRoles) ⟨rfl, rfl, rfl, rfl, rfl⟩ ⟨hmb, hstate, role_mem_allRoles⟩
    (.of_inline hinline rfl) rfl (by simp [recConfigGate, hrange, hrsv2, hrsv30])

theorem RecConfigAdmitted.exec {st : Status} {r : Bytes} (hfree : recBusy s = false) (hact : recConfigAct k s = ⟨v, st, r, false⟩) :
    execRecConfig c s = .next (answer 0x1101 c st r v) := by
  have hpasses := h.passes
  obtain rfl := h.config
  exact execRecConfig_eq.trans (hpasses.answers (by simp [recConfigGate, hfree]) rfl hact)

theorem RecConfigAdmitted.exec_busy (hbusy : recBusy s = true) : execRecConfig c s = .next (answer 0x1101 c .busy [] s) :=
  execRecConfig_eq.trans (h.passes.busy (by simp [recConfigGate, hbusy]))

theorem RecConfigAdmitted.exec_conflict (hfree : recBusy s = false) (htap : tapCleared k s = true) (hslots : k.frzN ≠ 0) :
    execRecConfig c s = .next (answer 0x1101 c .conflict [] s) := h.exec hfree (if_pos ⟨htap, hslots⟩)

variable (hfree : recBusy s = false) (htaps : tapCleared k s = false ∨ k.frzN = 0)
include hfree htaps

theorem RecConfigAdmitted.exec_fits {st : Status} {r : Bytes}
    (hact : (if dramUsable s < recNeed k s then ⟨s, .exhausted, [], false⟩
      else okReply (recChanged k (when (decide (ringMib s s.galley.cfg ≠ k.ring.getD 0 ∨ s.galley.cfg.frzN ≠ k.frzN ∨
        s.galley.cfg.frz ≠ k.frz ∨ s.galley.cfg.dec ≠ k.dec)) recEmptied (recStored k s))) (recConfigResult k s)) =
          (⟨v, st, r, false⟩ : Reply)) :
    execRecConfig c s = .next (answer 0x1101 c st r v) := by
  refine h.exec hfree ((if_neg ?_).trans hact)
  rintro ⟨htap, hslots⟩
  rcases htaps with hkept | hnone
  · exact Bool.false_ne_true (hkept.symm.trans htap)
  · exact hslots hnone

theorem RecConfigAdmitted.exec_exhausted (hfull : dramUsable s < recNeed k s) :
    execRecConfig c s = .next (answer 0x1101 c .exhausted [] s) := h.exec_fits hfree htaps (if_pos hfull)

theorem RecConfigAdmitted.exec_moves (hfits : recNeed k s ≤ dramUsable s) (hmoved : RecMoved k s) :
    execRecConfig c s = .next (answer 0x1101 c .ok (recConfigResult k s) (recChanged k (recEmptied (recStored k s)))) :=
  h.exec_fits hfree htaps ((if_neg (by omega)).trans
    (congrArg (fun t => okReply (recChanged k t) (recConfigResult k s)) (when_of_true (decide_eq_true hmoved))))

theorem RecConfigAdmitted.exec_stores (hfits : recNeed k s ≤ dramUsable s) (hsame : ¬ RecMoved k s) :
    execRecConfig c s = .next (answer 0x1101 c .ok (recConfigResult k s) (recChanged k (recStored k s))) :=
  h.exec_fits hfree htaps ((if_neg (by omega)).trans
    (congrArg (fun t => okReply (recChanged k t) (recConfigResult k s)) (when_of_false (decide_eq_false hsame))))

end

/-! ### REC_FREEZE -/

/-- REC_FREEZE names a slot or none. -/
structure FreezeAdmitted (c : Cmd) (s : State) : Prop where
  served : CmdServed 4 c s
  slot : c.u8 0 = 0xFF ∨ c.u8 0 < s.galley.cfg.frzN
  rsv : c.rsv 1 3 = true

/-- The freeze that fills over the present tick. -/
def freezeOver (s : State) : Option (Nat × Freeze) :=
  s.galley.slots.find? (fun x => x.2.filling && x.2.first ≤ s.tick.index && s.tick.index ≤ x.2.until_)

/-- REC_FREEZE without a slot named. -/
def freezeAnySlot (s : State) : Reply :=
  match freezeOver s, freezeSlot s with
  | some e, _ => freezeReply e.1 s.tick.index (freezeTrigger 0xFF s.tick.index s)
  | none, some m => freezeReply m s.tick.index (freezeBegin m 0xFF s.tick.index s)
  | none, none => ⟨s, .exhausted, [], false⟩

/-- The action of REC_FREEZE. -/
def freezeAct (c : Cmd) (s : State) : Reply :=
  if (!bit s.galley.cfg.flags 0) = true then ⟨s, .conflict, [], false⟩
  else if c.u8 0 ≠ 0xFF then
    if (slotGet s (c.u8 0)).filling = true ∨ held s (.freeze (c.u8 0)) = true then ⟨s, .conflict, [], false⟩
    else freezeReply (c.u8 0) s.tick.index (freezeBegin (c.u8 0) 0xFF s.tick.index s)
  else freezeAnySlot s

section
variable (h : FreezeAdmitted c s)
include h

theorem FreezeAdmitted.exec {st : Status} {r : Bytes} (hact : freezeAct c s = ⟨v, st, r, false⟩) :
    execRecFreeze c s = .next (answer 0x1102 c st r v) := by
  have hpar : ((c.u8 0 == 0xFF || decide (c.u8 0 < s.galley.cfg.frzN)) && c.rsv 1 3) = true := by simpa [h.rsv] using h.slot
  exact (h.served.passes (free := true) hpar).answers (act := freezeAct c) rfl rfl hact

theorem FreezeAdmitted.exec_conflict
    (hbad : bit s.galley.cfg.flags 0 = false ∨
      (c.u8 0 ≠ 0xFF ∧ ((slotGet s (c.u8 0)).filling = true ∨ held s (.freeze (c.u8 0)) = true))) :
    execRecFreeze c s = .next (answer 0x1102 c .conflict [] s) := by
  refine h.exec ?_
  unfold freezeAct
  split
  · rfl
  next hon =>
    obtain ⟨hnamed, hfull⟩ := hbad.resolve_left (fun hoff => hon (by simp [hoff]))
    exact (if_pos hnamed).trans (if_pos hfull)

variable (hon : bit s.galley.cfg.flags 0 = true)
include hon

theorem FreezeAdmitted.exec_begins (hnamed : c.u8 0 ≠ 0xFF) (hfill : (slotGet s (c.u8 0)).filling = false)
    (hheld : held s (.freeze (c.u8 0)) = false) :
    execRecFreeze c s =
      .next (answer 0x1102 c .ok (le 1 (c.u8 0) ++ le 3 0 ++ le 8 s.tick.index) (freezeBegin (c.u8 0) 0xFF s.tick.index s)) :=
  h.exec ((if_neg (by simp [hon])).trans ((if_pos hnamed).trans (if_neg (by simp [hfill, hheld]))))

theorem FreezeAdmitted.exec_any {st : Status} {r : Bytes} (hnone : c.u8 0 = 0xFF) (hact : freezeAnySlot s = ⟨v, st, r, false⟩) :
    execRecFreeze c s = .next (answer 0x1102 c st r v) :=
  h.exec ((if_neg (by simp [hon])).trans ((if_neg (not_not_intro hnone)).trans hact))

end

theorem freezeAnySlot_merges {e : Nat × Freeze} (he : freezeOver s = some e) :
    freezeAnySlot s = freezeReply e.1 s.tick.index (freezeTrigger 0xFF s.tick.index s) := by
  simp only [freezeAnySlot, he]

theorem freezeAnySlot_begins {n : Nat} (he : freezeOver s = none) (hn : freezeSlot s = some n) :
    freezeAnySlot s = freezeReply n s.tick.index (freezeBegin n 0xFF s.tick.index s) := by
  simp only [freezeAnySlot, he, hn]

theorem freezeAnySlot_exhausted (he : freezeOver s = none) (hn : freezeSlot s = none) :
    freezeAnySlot s = ⟨s, .exhausted, [], false⟩ := by
  simp only [freezeAnySlot, he, hn]

/-! ### REC_FREEZE_READ -/

/-- The gate of REC_FREEZE_READ. -/
def freezeReadGate (c : Cmd) (s : State) : Gate := {
  opcode := 0x1103, len := c.inl 24, legal := notBoot, free := !held s (.freeze (c.u8 0)),
  pends := c.u8 1 != 2 && 1048576 < c.u32 20,
  par := (c.u8 0 == 0xFE || c.u8 0 < s.galley.cfg.frzN) && c.u8 1 < 3 && c.rsv 2 2 &&
    (c.u8 1 == 2 || (c.buf 12 && 64 ≤ c.u32 20 && c.u32 20 ≤ 16777216)) }

/-- The result of a read: the length of the part, that of what is written, and its CRC. -/
def partResult (p w : Bytes) : Bytes := le 8 p.length ++ le 4 w.length ++ le 4 (crc32c w).toNat

/-- Part 2 deletes the slot. -/
def freezeDelete (c : Cmd) (s : State) : Reply :=
  if c.u8 0 = 0xFE ∨ (!thas s.galley.slots (c.u8 0)) = true ∨ (slotGet s (c.u8 0)).filling = true then ⟨s, .conflict, [], false⟩
  else okReply (s.onGalley (fun x => { x with slots := tdel x.slots (c.u8 0) })) (le 8 0 ++ le 4 0 ++ le 4 0)

/-- What is written of the part `p`. -/
def partWritten (g : Gate) (c : Cmd) (p : Bytes) (s : State) : Reply :=
  if p.length < c.u64 4 then ⟨s, .conflict, [], false⟩
  else if 1048576 < ((p.drop (c.u64 4)).take (c.u32 20)).length then
    ⟨goPending g c [.freeze (c.u8 0)] (c.u8 0) (some (.ok, partResult p ((p.drop (c.u64 4)).take (c.u32 20))))
      (putBuf (c.u64 12) ((p.drop (c.u64 4)).take (c.u32 20)) s), .pending, [], false⟩
  else okReply (putBuf (c.u64 12) ((p.drop (c.u64 4)).take (c.u32 20)) s) (partResult p ((p.drop (c.u64 4)).take (c.u32 20)))

/-- The action of REC_FREEZE_READ. -/
def freezeReadAct (g : Gate) (c : Cmd) (s : State) : Reply :=
  if c.u8 1 = 2 then freezeDelete c s
  else
    match recPart s (c.u8 0) (c.u8 1) with
    | none => ⟨s, .conflict, [], false⟩
    | some p => partWritten g c p s

theorem execRecFreezeRead_eq : execRecFreezeRead c s = runCmd (freezeReadGate c s) c s (freezeReadAct (freezeReadGate c s) c) := rfl

/-- The part and the buffer of a read. -/
def FreezePartOk (c : Cmd) : Prop := c.u8 1 = 2 ∨ (c.u8 1 < 2 ∧ c.buf 12 = true ∧ 64 ≤ c.u32 20 ∧ c.u32 20 ≤ 16777216)

/-- REC_FREEZE_READ names a slot or the decimated ring, and a part. -/
structure FreezeReadAdmitted (c : Cmd) (s : State) : Prop where
  served : CmdServed 24 c s
  slot : c.u8 0 = 0xFE ∨ c.u8 0 < s.galley.cfg.frzN
  rsv : c.rsv 2 2 = true
  part : FreezePartOk c

/-- Nothing that the read needs is held. -/
structure FreezeReadFree (c : Cmd) (s : State) : Prop where
  slot : held s (.freeze (c.u8 0)) = false
  room : c.u8 1 = 2 ∨ pendCount s c.mb < 8 ∨ c.u32 20 ≤ 1048576

section
variable {p w : Bytes} (h : FreezeReadAdmitted c s)
include h

theorem FreezeReadAdmitted.passes : (freezeReadGate c s).Passes c s := by
  have hpart : (decide (c.u8 1 < 3) && (c.u8 1 == 2 || (c.buf 12 && decide (64 ≤ c.u32 20) && decide (c.u32 20 ≤ 16777216)))) = true := by
    rcases h.part with hdelete | ⟨hread, hbuf, hleast, hmost⟩
    · simp [hdelete]
    · simp [hbuf, hleast, hmost, show c.u8 1 < 3 by omega]
  have hslot : (c.u8 0 == 0xFE || decide (c.u8 0 < s.galley.cfg.frzN)) = true := by simpa using h.slot
  rw [Bool.and_eq_true] at hpart
  exact Gate.OpenIn.passes ⟨rfl, rfl, rfl, rfl, rfl⟩ (admits_of_serving h.served.serving h.served.mailbox)
    (.of_inline h.served.params rfl) rfl (by simp only [freezeReadGate, hslot, hpart.1, hpart.2, h.rsv, Bool.and_self])

theorem FreezeReadAdmitted.exec {st : Status} {r : Bytes} (hfree : FreezeReadFree c s)
    (hact : freezeReadAct (freezeReadGate c s) c s = ⟨v, st, r, false⟩) : execRecFreezeRead c s = .next (answer 0x1103 c st r v) := by
  refine execRecFreezeRead_eq.trans (h.passes.answers (by simp [freezeReadGate, hfree.slot]) ?_ hact)
  rcases hfree.room with hdelete | hroom | hsmall
  · simp [freezeReadGate, hdelete]
  · simp [hroom]
  · simp [freezeReadGate, Nat.not_lt.mpr hsmall]

theorem FreezeReadAdmitted.exec_busy
    (hbusy : held s (.freeze (c.u8 0)) = true ∨ (c.u8 1 ≠ 2 ∧ 1048576 < c.u32 20 ∧ 8 ≤ pendCount s c.mb)) :
    execRecFreezeRead c s = .next (answer 0x1103 c .busy [] s) :=
  execRecFreezeRead_eq.trans (h.passes.busy (by simpa [freezeReadGate, and_assoc] using hbusy))

variable (hfree : FreezeReadFree c s)
include hfree

theorem FreezeReadAdmitted.exec_deletes (hdelete : c.u8 1 = 2) (hslot : c.u8 0 ≠ 0xFE) (hthere : thas s.galley.slots (c.u8 0) = true)
    (hfill : (slotGet s (c.u8 0)).filling = false) :
    execRecFreezeRead c s =
      .next (answer 0x1103 c .ok (le 8 0 ++ le 4 0 ++ le 4 0) (s.onGalley (fun x => { x with slots := tdel x.slots (c.u8 0) }))) :=
  h.exec hfree ((if_pos hdelete).trans (if_neg (by simp [hslot, hthere, hfill])))

theorem FreezeReadAdmitted.exec_not_deleted (hdelete : c.u8 1 = 2)
    (hbad : c.u8 0 = 0xFE ∨ thas s.galley.slots (c.u8 0) = false ∨ (slotGet s (c.u8 0)).filling = true) :
    execRecFreezeRead c s = .next (answer 0x1103 c .conflict [] s) :=
  h.exec hfree ((if_pos hdelete).trans (if_pos (by simpa using hbad)))

variable (hread : c.u8 1 < 2)
include hread

theorem FreezeReadAdmitted.exec_part {st : Status} {r : Bytes} (hp : recPart s (c.u8 0) (c.u8 1) = some p)
    (hact : partWritten (freezeReadGate c s) c p s = ⟨v, st, r, false⟩) : execRecFreezeRead c s = .next (answer 0x1103 c st r v) := by
  refine h.exec hfree ((if_neg (by omega)).trans ?_)
  rw [hp]
  exact hact

theorem FreezeReadAdmitted.exec_nothing (hnone : (recPart s (c.u8 0) (c.u8 1)).all (fun p => decide (p.length < c.u64 4)) = true) :
    execRecFreezeRead c s = .next (answer 0x1103 c .conflict [] s) := by
  cases hp : recPart s (c.u8 0) (c.u8 1) with
  | none =>
    refine h.exec hfree ((if_neg (by omega)).trans ?_)
    rw [hp]
  | some p => exact h.exec_part hfree hread hp (if_pos (by simpa [hp] using hnone))

variable (hp : recPart s (c.u8 0) (c.u8 1) = some p) (hstart : c.u64 4 ≤ p.length) (hw : w = (p.drop (c.u64 4)).take (c.u32 20))
include hp hstart hw

theorem FreezeReadAdmitted.exec_writes (hsmall : w.length ≤ 1048576) :
    execRecFreezeRead c s = .next (answer 0x1103 c .ok (partResult p w) (putBuf (c.u64 12) w s)) := by
  subst hw
  exact h.exec_part hfree hread hp ((if_neg (by omega)).trans (if_neg (by omega)))

theorem FreezeReadAdmitted.exec_pends (hlarge : 1048576 < w.length) :
    execRecFreezeRead c s = .next (answer 0x1103 c .pending []
      (pendAs 0x1103 c [.freeze (c.u8 0)] servingStates (c.u8 0) (some (.ok, partResult p w)) (putBuf (c.u64 12) w s))) := by
  subst hw
  exact h.exec_part hfree hread hp ((if_neg (by omega)).trans (if_pos hlarge))

end

/-! ### REC_REPLAY_START -/

/-- The gate of REC_REPLAY_START. -/
def replayGate (c : Cmd) (s : State) : Gate := {
  opcode := 0x1104, len := c.inl 32, fitted := !isM2 s, legal := inStates [.config],
  roles := fun r => r == .active && (c.u8 1 == 2 || !s.dev.paired),
  par := c.u8 0 < s.galley.cfg.frzN && c.u8 1 < 3 && c.u8 2 < 2 && c.rsv 3 1 &&
    (c.u8 1 == 0 || (c.buf 20 && 1 ≤ c.u32 28 && c.u32 28 ≤ s.galley.cfg.frz * 1024)),
  free := !held s .deviceState && !held s .tickLength && !held s .pair && !held s .recorder && !held s (.freeze (c.u8 0)),
  pends := c.u8 1 != 2 }

/-- The image is in its slot. -/
def slotLoaded (n : Nat) (p : Bytes) (s : State) : State := s.onGalley (fun x => { x with slots := tset x.slots n (loadedFreeze p) })

/-- A replay starts from what the slots hold in `v`; a start without an image leaves `s`. -/
def replayFrom (g : Gate) (c : Cmd) (s v : State) : Reply :=
  if c.u64 4 ≠ 0 ∧ thas v.galley.slots (c.u8 0) = true ∧ (replayImage v (c.u8 0) (c.u64 4)).isNone = true then ⟨s, .badParam, [], false⟩
  else armReplay g c (c.u8 0) (c.u64 4) (c.u64 12) (c.u8 2 == 1) v

/-- The action of REC_REPLAY_START with the image `p`. -/
def replayAct (g : Gate) (c : Cmd) (p : Bytes) (s : State) : Reply :=
  if c.u8 1 ≠ 0 ∧ (slotGet s (c.u8 0)).filling = true then ⟨s, .conflict, replayNone 32, false⟩
  else if c.u8 1 ≠ 0 ∧ (!headerGood p) = true then
    ⟨s.onGalley (fun x => { x with slots := tdel x.slots (c.u8 0) }), .crcFail, replayNone 0, false⟩
  else if c.u8 1 = 2 then okReply (if c.u8 1 = 0 then s else slotLoaded (c.u8 0) p s) (replayNone 0)
  else replayFrom g c s (if c.u8 1 = 0 then s else slotLoaded (c.u8 0) p s)

theorem execRecReplayStart_eq {b : Bytes} :
    execRecReplayStart c b s = runCmd (replayGate c s) c s (replayAct (replayGate c s) c (fit (c.u32 28 * 1024) b)) := rfl

/-- The objects that a replay needs. -/
def replayObjs (c : Cmd) : List Obj := [.deviceState, .tickLength, .pair, .recorder, .freeze (c.u8 0)]

/-- REC_REPLAY_START has parameters in range, on an active unit in CONFIG. -/
structure ReplayAdmitted (c : Cmd) (s : State) : Prop where
  state : s.dev.state = .config
  mailbox : c.mb ≠ 0
  role : s.dev.role = .active
  single : s.dev.paired = false ∨ c.u8 1 = 2
  params : Inline c 32
  fitted : isM2 s = false
  slot : c.u8 0 < s.galley.cfg.frzN
  action : c.u8 1 < 3
  flag : c.u8 2 < 2
  rsv : c.rsv 3 1 = true
  image : c.u8 1 = 0 ∨ (c.buf 20 = true ∧ 1 ≤ c.u32 28 ∧ c.u32 28 ≤ s.galley.cfg.frz * 1024)

/-- Nothing that the replay needs is held. -/
structure ReplayFree (c : Cmd) (s : State) : Prop extends ReplayAdmitted c s where
  objects : (replayObjs c).all (fun o => !held s o) = true
  room : pendCount s c.mb < 8 ∨ c.u8 1 = 2

theorem ReplayAdmitted.passes (h : ReplayAdmitted c s) : (replayGate c s).Passes c s where
  serving := by simp [Serving, h.state]
  mailbox := mailbox_of_ne_zero h.mailbox rfl
  test := rfl
  len := inl_of_inline h.params
  fitted := by simp [replayGate, h.fitted]
  legal := by rw [h.state]; rfl
  roles := by simpa [replayGate, h.role] using h.single.symm
  permit := rfl
  par := by simpa [replayGate, h.slot, h.action, h.flag, h.rsv, and_assoc] using h.image
  entry := entryReserved_of_inline h.params

theorem replayGate_free : (replayGate c s).free = (replayObjs c).all (fun o => !held s o) := by
  simp [replayGate, replayObjs, Bool.and_assoc]

theorem ReplayAdmitted.exec_busy {b : Bytes} (h : ReplayAdmitted c s)
    (hbusy : (replayObjs c).any (fun o => held s o) = true ∨ (c.u8 1 ≠ 2 ∧ 8 ≤ pendCount s c.mb)) :
    execRecReplayStart c b s = .next (answer 0x1104 c .busy [] s) := by
  refine execRecReplayStart_eq.trans (h.passes.busy ?_)
  rw [replayGate_free, List.not_all_eq_any_not]
  simpa [replayGate] using hbusy

theorem execRecReplayStart_not_fitted {b : Bytes} (h : CmdServed 32 c s) (hm2 : isM2 s = true) :
    execRecReplayStart c b s = .next (answer 0x1104 c .notFitted [] s) :=
  execRecReplayStart_eq.trans
    (runCmd_of_fail h.serving
      (Gate.fail_of_not_fitted (mailbox_of_ne_zero h.mailbox rfl) rfl (inl_of_inline h.params) (by simp [replayGate, hm2])) (by decide))

/-- The slots of `v` are those that the replay starts from: as they are, or with the image loaded. -/
def ReplaySlots (c : Cmd) (p : Bytes) (s v : State) : Prop :=
  (c.u8 1 = 0 ∧ v = s) ∨
    (c.u8 1 = 1 ∧ (slotGet s (c.u8 0)).filling = false ∧ headerGood p = true ∧ v = slotLoaded (c.u8 0) p s)

/-- Each action that starts a replay starts it from its slots. -/
theorem ReplaySlots.act {g : Gate} {p : Bytes} (h : ReplaySlots c p s v) : replayAct g c p s = replayFrom g c s v := by
  rcases h with ⟨haction, rfl⟩ | ⟨haction, hfill, hgood, rfl⟩
  · simp [replayAct, haction]
  · simp [replayAct, haction, hfill, hgood]

/-- The replay that is armed. -/
def replayArmed (c : Cmd) (n : Nat) (v : State) : State :=
  v.onGalley (fun x => { x with replay := some {
    slot := c.u8 0, stop := c.u64 12, onDiv := c.u8 2 == 1, boundary := v.tick.index + leadOf v.tick.len, image := n, tick := n + 1 } })

section
variable {g : Gate} {n image start stop : Nat} {onDiv : Bool} (himage : image = if start = 0 then (slotGet s n).image else start)
include himage

theorem armReplay_refused (hmask : replayMask s n image ≠ 0) :
    armReplay g c n start stop onDiv s = ⟨s, .conflict, replayNone (replayMask s n image), false⟩ := by
  unfold armReplay
  simp only [← himage]
  exact if_pos hmask

theorem armReplay_arms (hmask : replayMask s n image = 0) :
    armReplay g c n start stop onDiv s = ⟨goPending g c [.freeze n, .recorder] n none (s.onGalley (fun x => { x with replay := some {
      slot := n, stop := stop, onDiv := onDiv, boundary := s.tick.index + leadOf s.tick.len, image := image, tick := image + 1 } })),
      .pending, replayNone 0, false⟩ := by
  unfold armReplay
  simp only [← himage]
  exact if_neg (not_not_intro hmask)

end

section
variable {b p : Bytes} {n : Nat} (h : ReplayFree c s) (hp : p = fit (c.u32 28 * 1024) b)
include h hp

theorem ReplayFree.exec {t : State} {st : Status} {r : Bytes} (hact : replayAct (replayGate c s) c p s = ⟨t, st, r, false⟩) :
    execRecReplayStart c b s = .next (answer 0x1104 c st r t) := by
  subst hp
  refine execRecReplayStart_eq.trans (h.passes.answers (replayGate_free.trans h.objects) ?_ hact)
  rcases h.room with hroom | hload
  · simp [hroom]
  · simp [replayGate, hload]

theorem ReplayFree.exec_filling (haction : c.u8 1 ≠ 0) (hfill : (slotGet s (c.u8 0)).filling = true) :
    execRecReplayStart c b s = .next (answer 0x1104 c .conflict (replayNone 32) s) := h.exec hp (if_pos ⟨haction, hfill⟩)

theorem ReplayFree.exec_crc (haction : c.u8 1 ≠ 0) (hfill : (slotGet s (c.u8 0)).filling = false) (hbad : headerGood p = false) :
    execRecReplayStart c b s =
      .next (answer 0x1104 c .crcFail (replayNone 0) (s.onGalley (fun x => { x with slots := tdel x.slots (c.u8 0) }))) :=
  h.exec hp ((if_neg (by simp [hfill])).trans (if_pos ⟨haction, by simp [hbad]⟩))

theorem ReplayFree.exec_loads (haction : c.u8 1 = 2) (hfill : (slotGet s (c.u8 0)).filling = false) (hgood : headerGood p = true) :
    execRecReplayStart c b s = .next (answer 0x1104 c .ok (replayNone 0) (slotLoaded (c.u8 0) p s)) :=
  h.exec hp (by simp [replayAct, haction, hfill, hgood, okReply])

variable (hslots : ReplaySlots c p s v) (hn : n = if c.u64 4 = 0 then (slotGet v (c.u8 0)).image else c.u64 4)
include hslots hn

theorem ReplayFree.exec_no_image (hstart : c.u64 4 ≠ 0) (hthere : thas v.galley.slots (c.u8 0) = true)
    (hnone : replayImage v (c.u8 0) n = none) : execRecReplayStart c b s = .next (answer 0x1104 c .badParam [] s) := by
  rw [hn, if_neg hstart] at hnone
  exact h.exec hp (hslots.act.trans (if_pos ⟨hstart, hthere, Option.isNone_iff_eq_none.mpr hnone⟩))

variable (hthere : c.u64 4 = 0 ∨ thas v.galley.slots (c.u8 0) = false ∨ (replayImage v (c.u8 0) n).isSome = true)
include hthere

theorem ReplayFree.exec_arms {t : State} {st : Status} {r : Bytes}
    (hact : armReplay (replayGate c s) c (c.u8 0) (c.u64 4) (c.u64 12) (c.u8 2 == 1) v = ⟨t, st, r, false⟩) :
    execRecReplayStart c b s = .next (answer 0x1104 c st r t) := by
  refine h.exec hp (hslots.act.trans ((if_neg ?_).trans hact))
  rintro ⟨hstart, hslot, hnone⟩
  rw [if_neg hstart] at hn
  rcases hthere with hzero | habsent | himage
  · exact hstart hzero
  · exact Bool.false_ne_true (habsent.symm.trans hslot)
  · rw [hn, Option.isSome_iff_ne_none] at himage
    exact himage (Option.isNone_iff_eq_none.mp hnone)

theorem ReplayFree.exec_refused (hmask : replayMask v (c.u8 0) n ≠ 0) :
    execRecReplayStart c b s = .next (answer 0x1104 c .conflict (replayNone (replayMask v (c.u8 0) n)) v) :=
  h.exec_arms hp hslots hn hthere (armReplay_refused hn hmask)

theorem ReplayFree.exec_pends (hmask : replayMask v (c.u8 0) n = 0) :
    execRecReplayStart c b s = .next (answer 0x1104 c .pending (replayNone 0)
      (pendAs 0x1104 c [.freeze (c.u8 0), .recorder] [.config] (c.u8 0) none (replayArmed c n v))) :=
  h.exec_arms hp hslots hn hthere (armReplay_arms hn hmask)

end

/-! ### REC_REPLAY_STOP and REC_STATUS -/

/-- The tick that the replay has reached. -/
def replayReached (s : State) : Bytes := le 8 ((s.galley.replay.map (·.tick)).getD 0)

theorem execRecReplayStop_stops {t : State} (hstate : s.dev.state = .replay) (hmb : c.mb ≠ 0) (hinline : Inline c 0)
    (ht : (if lastNow s = true then s else replayOutcome 1 s) = t) :
    execRecReplayStop c s = .next (answer 0x1105 c .ok (replayReached s) t) := by
  subst ht
  unfold execRecReplayStop
  exact (Gate.OpenIn.passes (states := [.replay]) (roles := allRoles) ⟨rfl, rfl, rfl, rfl, rfl⟩
    ⟨hmb, List.mem_singleton.mpr hstate, role_mem_allRoles⟩ (.of_inline hinline rfl) rfl rfl).answers rfl rfl rfl

/-- The result of REC_STATUS; `r` is the replay that runs. -/
def recStatusResult (r : Option Replay) (s : State) : Bytes :=
  le 1 (if replaying s then 2 else if bit s.galley.cfg.flags 0 then 1 else 0) ++ le 1 s.galley.cfg.frzN ++
    le 2 (maskOf ((s.galley.slots.filter (fun e => !e.2.filling)).map (·.1))) ++
    le 2 (maskOf ((s.galley.slots.filter (fun e => e.2.filling)).map (·.1))) ++ le 2 0 ++ le 8 (ringOldest s) ++ le 8 (ringNewest s) ++
    le 4 s.galley.holes ++ le 4 (if s.galley.lens.isEmpty then 0 else s.galley.lens.sum / s.galley.lens.length) ++
    le 4 ((r.map (·.tick)).getD 0) ++ le 4 ((r.map (·.diverged)).getD 0) ++ le 4 s.tick.index

theorem execRecStatus_reads {r : Option Replay} (h : CmdServed 0 c s) (hr : r = if replaying s then s.galley.replay else none) :
    execRecStatus c s = .next (answer 0x1106 c .ok (recStatusResult r s) s) := by
  subst hr
  unfold execRecStatus
  exact (h.passes rfl).answers rfl rfl rfl

/-- Settles O52: each command through its action; a freeze over a complete slot, action 2 in a pair, the loaded image and reads at the end are
assumptions 94 to 96 and 177. -/
theorem recorderCommandsConfigureFreezeAndReplay : Obligations.RecorderCommandsConfigureFreezeAndReplay := by
  unfold Obligations.RecorderCommandsConfigureFreezeAndReplay
  refine ⟨?exhausted, ?moves, ?stores, ?tapConflict, ?configBusy, ?begins, ?freezeConflict, ?merges, ?takesSlot, ?noSlot, ?deletes, ?notDeleted,
    ?nothing, ?writes, ?pends, ?readBusy, ?filling, ?crc, ?loads, ?noImage, ?refused, ?armed, ?replayBusy, ?replayAbsent, ?stops, ?stopsLate,
    ?status⟩
  case exhausted =>
    exact fun c k s hk hstate hmb hinline hrange h2 h30 =>
      RecConfigAdmitted.exec_exhausted ⟨hk, hstate, hmb, hinline, hrange, h2, h30⟩
  case moves =>
    exact fun c k s hk hstate hmb hinline hrange h2 h30 => RecConfigAdmitted.exec_moves ⟨hk, hstate, hmb, hinline, hrange, h2, h30⟩
  case stores =>
    exact fun c k s hk hstate hmb hinline hrange h2 h30 => RecConfigAdmitted.exec_stores ⟨hk, hstate, hmb, hinline, hrange, h2, h30⟩
  case tapConflict =>
    exact fun c k s hk hstate hmb hinline hrange h2 h30 => RecConfigAdmitted.exec_conflict ⟨hk, hstate, hmb, hinline, hrange, h2, h30⟩
  case configBusy =>
    exact fun c k s hk hstate hmb hinline hrange h2 h30 => RecConfigAdmitted.exec_busy ⟨hk, hstate, hmb, hinline, hrange, h2, h30⟩
  case begins =>
    exact fun c s hserving hmb hinline hslot hrsv hnamed hon =>
      FreezeAdmitted.exec_begins ⟨⟨hserving, hmb, hinline⟩, hslot, hrsv⟩ hon hnamed
  case freezeConflict =>
    exact fun c s hserving hmb hinline hslot hrsv => FreezeAdmitted.exec_conflict ⟨⟨hserving, hmb, hinline⟩, hslot, hrsv⟩
  case merges =>
    exact fun c e s hserving hmb hinline hslot hrsv hnone hon he =>
      FreezeAdmitted.exec_any ⟨⟨hserving, hmb, hinline⟩, hslot, hrsv⟩ hon hnone (freezeAnySlot_merges he)
  case takesSlot =>
    exact fun c n s hserving hmb hinline hslot hrsv hnone hon he hn =>
      FreezeAdmitted.exec_any ⟨⟨hserving, hmb, hinline⟩, hslot, hrsv⟩ hon hnone (freezeAnySlot_begins he hn)
  case noSlot =>
    exact fun c s hserving hmb hinline hslot hrsv hnone hon he hn =>
      FreezeAdmitted.exec_any ⟨⟨hserving, hmb, hinline⟩, hslot, hrsv⟩ hon hnone (freezeAnySlot_exhausted he hn)
  case deletes =>
    exact fun c s hserving hmb hinline hslot hrsv hpart hheld =>
      FreezeReadAdmitted.exec_deletes ⟨⟨hserving, hmb, hinline⟩, hslot, hrsv, .inl hpart⟩ ⟨hheld, .inl hpart⟩ hpart
  case notDeleted =>
    exact fun c s hserving hmb hinline hslot hrsv hpart hheld =>
      FreezeReadAdmitted.exec_not_deleted ⟨⟨hserving, hmb, hinline⟩, hslot, hrsv, .inl hpart⟩ ⟨hheld, .inl hpart⟩ hpart
  case nothing =>
    exact fun c s hserving hmb hinline hslot hrsv hpart hbuf hleast hmost hheld hroom =>
      FreezeReadAdmitted.exec_nothing ⟨⟨hserving, hmb, hinline⟩, hslot, hrsv, .inr ⟨hpart, hbuf, hleast, hmost⟩⟩ ⟨hheld, .inr hroom⟩ hpart
  case writes =>
    exact fun c p w s hserving hmb hinline hslot hrsv hpart hbuf hleast hmost hheld hroom =>
      FreezeReadAdmitted.exec_writes ⟨⟨hserving, hmb, hinline⟩, hslot, hrsv, .inr ⟨hpart, hbuf, hleast, hmost⟩⟩ ⟨hheld, .inr hroom⟩ hpart
  case pends =>
    exact fun c p w s hserving hmb hinline hslot hrsv hpart hbuf hleast hmost hheld hroom =>
      FreezeReadAdmitted.exec_pends ⟨⟨hserving, hmb, hinline⟩, hslot, hrsv, .inr ⟨hpart, hbuf, hleast, hmost⟩⟩ ⟨hheld, .inr hroom⟩ hpart
  case readBusy =>
    exact fun c s hserving hmb hinline hslot hrsv hpart => FreezeReadAdmitted.exec_busy ⟨⟨hserving, hmb, hinline⟩, hslot, hrsv, hpart⟩
  case filling =>
    exact fun c b p s h1 h2 h3 h4 h5 h6 h7 h8 h9 h10 h11 hobjs hroom hp =>
      ReplayFree.exec_filling ⟨⟨h1, h2, h3, h4, h5, h6, h7, h8, h9, h10, h11⟩, hobjs, hroom⟩ hp
  case crc =>
    exact fun c b p s h1 h2 h3 h4 h5 h6 h7 h8 h9 h10 h11 hobjs hroom hp =>
      ReplayFree.exec_crc ⟨⟨h1, h2, h3, h4, h5, h6, h7, h8, h9, h10, h11⟩, hobjs, hroom⟩ hp
  case loads =>
    exact fun c b p s h1 h2 h3 h4 h5 h6 h7 h8 h9 h10 h11 hobjs hroom hp =>
      ReplayFree.exec_loads ⟨⟨h1, h2, h3, h4, h5, h6, h7, h8, h9, h10, h11⟩, hobjs, hroom⟩ hp
  case noImage =>
    exact fun c b p n s v h1 h2 h3 h4 h5 h6 h7 h8 h9 h10 h11 hobjs hroom hp =>
      ReplayFree.exec_no_image ⟨⟨h1, h2, h3, h4, h5, h6, h7, h8, h9, h10, h11⟩, hobjs, hroom⟩ hp
  case refused =>
    exact fun c b p n s v h1 h2 h3 h4 h5 h6 h7 h8 h9 h10 h11 hobjs hroom hp =>
      ReplayFree.exec_refused ⟨⟨h1, h2, h3, h4, h5, h6, h7, h8, h9, h10, h11⟩, hobjs, hroom⟩ hp
  case armed =>
    exact fun c b p n s v h1 h2 h3 h4 h5 h6 h7 h8 h9 h10 h11 hobjs hroom hp =>
      ReplayFree.exec_pends ⟨⟨h1, h2, h3, h4, h5, h6, h7, h8, h9, h10, h11⟩, hobjs, hroom⟩ hp
  case replayBusy =>
    exact fun c b s h1 h2 h3 h4 h5 h6 h7 h8 h9 h10 h11 => ReplayAdmitted.exec_busy ⟨h1, h2, h3, h4, h5, h6, h7, h8, h9, h10, h11⟩
  case replayAbsent => exact fun c b s hserving hmb hinline => execRecReplayStart_not_fitted ⟨hserving, hmb, hinline⟩
  case stops => exact fun c s hstate hmb hinline hlast => execRecReplayStop_stops hstate hmb hinline (if_neg (ne_true_of_eq_false hlast))
  case stopsLate => exact fun c s hstate hmb hinline hlast => execRecReplayStop_stops hstate hmb hinline (if_pos hlast)
  case status => exact fun c r s hserving hmb hinline => execRecStatus_reads ⟨hserving, hmb, hinline⟩

end Sys2Proof.Machine

/-! PROOFS. The recorder's own events (R544 to R551, O53). -/

namespace Sys2Proof.Machine

open Sys2Proof

variable {s u : State}

/-! ### The tap buffer (R544) -/

/-- The blocks that wait are in the ring, newest first, within its bytes. -/
def bufDrained (s : State) : State :=
  s.onGalley (fun g => { g with
    buf := [], ring := keepBytes (mib (ringMib s g.cfg)) (g.buf.reverse ++ g.ring), lens := ((g.buf.reverse).map TickBlock.len ++ g.lens).take 1024 })

theorem execTapBufferDrain_empty (h : s.galley.buf = []) : execTapBufferDrain s = .next s := if_pos (by simp [h])

theorem execTapBufferDrain_moves (h : s.galley.buf ≠ []) (hu : u = freezesCopy (bufDrained s)) :
    execTapBufferDrain s = .next (u.onGalley (fun g => { g with images := imagesKept g (ringOldest u) })) := by
  subst hu
  exact if_neg (by simp [h])

section
variable {o : Option Nat} {p : Word32} {b : TickBlock} {l : List TickBlock}

/-- The loss is of a tap of Table 21.1, or of the whole block. -/
def TapKnown (o : Option Nat) : Prop := o.any (fun c => !tapCodes.contains c) = false

theorem execTapEntryLost_nothing
    (h : o.any (fun c => !tapCodes.contains c) = true ∨ (s.galley.cur = none ∧ s.galley.buf = [])) : execTapEntryLost o p s = .next s := by
  unfold execTapEntryLost
  split
  · rfl
  next hknown =>
    obtain ⟨hcur, hbuf⟩ := h.resolve_left hknown
    rw [hcur, hbuf]

/-- The block under way loses the entry. -/
theorem execTapEntryLost_current (hknown : TapKnown o) (hcur : s.galley.cur = some b) :
    execTapEntryLost o p s = .next (tapLost o p.toNat b (fun x t => t.onGalley (fun g => { g with
      cur := x, journal := if x.isNone then [] else g.journal })) s) := by
  refine (if_neg (ne_true_of_eq_false hknown)).trans ?_
  rw [hcur]

/-- The oldest block that waits loses the entry. -/
theorem execTapEntryLost_oldest (hknown : TapKnown o) (hcur : s.galley.cur = none) (hbuf : s.galley.buf = b :: l) :
    execTapEntryLost o p s = .next (tapLost o p.toNat b (fun x t => t.onGalley (fun g => { g with buf := x.toList ++ l })) s) := by
  refine (if_neg (ne_true_of_eq_false hknown)).trans ?_
  rw [hcur, hbuf]

end

/-! ### Freezes and the decimated ring (R550, R551) -/

section
variable {n k : Nat}

theorem execFreezeComplete_not_ready (h : freezeReady (slotGet s n) = false) : execFreezeComplete n s = .next s := if_pos (by simp [h])

theorem execFreezeComplete_completes (h : freezeReady (slotGet s n) = true)
    (hk : k = (slotGet s n).flags - (if bit (slotGet s n).flags 6 then 64 else 0)) :
    execFreezeComplete n s =
      .next (recEvent 0x03 n [k] (s.onGalley (fun g => { g with slots := tset g.slots n { slotGet s n with filling := false, flags := k } }))) := by
  subst hk
  exact if_neg (by simp [h])

end

theorem execDecimatedWrite_writes {b : TickBlock} (hdec : s.galley.cfg.dec ≠ 0) (hon : recOn s = true) (hdue : decDue s = some b) :
    execDecimatedWrite s = .next (s.onGalley (fun g => { g with dec := keepDec (mib g.cfg.dec) (b :: g.dec) })) := by
  refine (if_neg (by simp [hdec, hon])).trans ?_
  rw [hdue]

theorem execDecimatedWrite_nothing (h : s.galley.cfg.dec = 0 ∨ recOn s = false ∨ decDue s = none) : execDecimatedWrite s = .next s := by
  unfold execDecimatedWrite
  split
  · rfl
  next hopen =>
    have hnone : decDue s = none := by
      rcases h with hdec | hoff | hnone
      · exact absurd (Or.inl hdec) hopen
      · exact absurd (Or.inr (by simp [hoff])) hopen
      · exact hnone
    rw [hnone]

/-- Settles O53: one lemma for each of the recorder's events; lost blocks and HOLE sections, pruning, buffer and drain are assumptions 57, 97, 60
and 177. -/
theorem recorderEventsMoveBlocks : Obligations.RecorderEventsMoveBlocks := by
  unfold Obligations.RecorderEventsMoveBlocks
  refine ⟨?empty, ?drains, ?notLost, ?current, ?oldest, ?completes, ?notReady, ?keeps, ?notDue⟩
  case empty => exact fun s => execTapBufferDrain_empty
  case drains => exact fun s u => execTapBufferDrain_moves
  case notLost => exact fun o p s => execTapEntryLost_nothing
  case current => exact fun o p b s => execTapEntryLost_current
  case oldest => exact fun o p b l s => execTapEntryLost_oldest
  case completes => exact fun n k s => execFreezeComplete_completes
  case notReady => exact fun n s => execFreezeComplete_not_ready
  case keeps => exact fun b s => execDecimatedWrite_writes
  case notDue => exact fun s => execDecimatedWrite_nothing

end Sys2Proof.Machine

/-! PROOFS. The crossings raise a stall and an instability once (R566, R567, O15); the monitors (R589 to R591, O14). -/

namespace Sys2Proof.Machine

open Sys2Proof

variable {s : State}

/-! ### Crossings -/

section
variable {d k i ns n : Nat}

/-- A crossing of a die that is there, of the kind that a handshake can stall on and without a stall so far. -/
structure StallSeen (d k i ns : Nat) (s : State) : Prop where
  die : dieOk s d = true
  code : cdcOn d k = true
  handshakes : cdcDs k = false
  edges : cdcLv k = false
  first : (cdcGet s d k i).stalled = false
  late : 1000 ≤ ns
  pending : cdcWaits k = false ∨ (cdcGet s d k i).isOpen = true

theorem StallSeen.exec (h : StallSeen d k i ns s) :
    execCdcStall d k i ns s =
      .next (raise d 0x042 0x04 .contained (i % 256 * 256 + k) [ns] (cdcUpd d k i (fun y => { y with stalled := true, held := true }) s)) := by
  have hlate := h.late
  have hpending : (cdcWaits k && !(cdcGet s d k i).isOpen) = false := by
    rcases h.pending with hnone | hopen
    · simp [hnone]
    · simp [hopen]
  refine if_neg ?_
  simp only [h.die, h.code, h.handshakes, h.edges, h.first, hpending, Nat.not_lt.mpr hlate, Bool.not_true, Bool.false_eq_true, or_self,
    not_false_eq_true]

theorem execCdcStall_nothing
    (h : (cdcGet s d k i).stalled = true ∨ ns < 1000 ∨ cdcOn d k = false ∨ cdcDs k = true ∨ cdcLv k = true) :
    execCdcStall d k i ns s = .next s := by
  refine if_pos ?_
  rcases h with hstalled | hearly | hoff | hdouble | hlevel
  · exact .inr (.inr (.inr (.inr (.inl hstalled))))
  · exact .inr (.inr (.inr (.inr (.inr (.inl hearly)))))
  · exact .inr (.inl (by simp [hoff]))
  · exact .inr (.inr (.inl hdouble))
  · exact .inr (.inr (.inr (.inl hlevel)))

/-- A crossing with double sampling, of a die that is there. -/
structure DoubleSampled (d k : Nat) (s : State) : Prop where
  die : dieOk s d = true
  code : cdcOn d k = true
  double : cdcDs k = true

theorem DoubleSampled.exec (h : DoubleSampled d k s) :
    execCdcUnstable d k i n s =
      if n < 256 then .next (cdcUpd d k i (fun y => { y with unstable := false }) s)
      else if (cdcGet s d k i).unstable = true then .next s
      else .next (raise d 0x042 0x03 .notice (i % 256 * 256 + k) [min n 0xFFFFFFFF] (cdcUpd d k i (fun y => { y with unstable := true }) s)) :=
  if_neg (by simp [h.die, h.code, h.double])

theorem execCdcUnstable_again (hunstable : (cdcGet s d k i).unstable = true) (hmany : 256 ≤ n) : execCdcUnstable d k i n s = .next s := by
  unfold execCdcUnstable
  split
  · rfl
  · exact if_neg (by omega)

end

/-- Settles O15: the conditions of the two events one by one; which handshakes the model follows is assumption 140. -/
theorem crossingEventsRaiseOnce : Obligations.CrossingEventsRaiseOnce := by
  unfold Obligations.CrossingEventsRaiseOnce
  refine ⟨?stall, ?noStall, ?unstable, ?again, ?ends⟩
  case stall =>
    exact fun d k i ns s hdie hcode hdouble hlevel hfirst hlate hpending =>
      StallSeen.exec ⟨hdie, hcode, hdouble, hlevel, hfirst, hlate, hpending⟩
  case noStall => exact fun d k i ns s => execCdcStall_nothing
  case unstable =>
    exact fun d k i n s hdie hcode hdouble hfirst hmany =>
      (DoubleSampled.exec ⟨hdie, hcode, hdouble⟩).trans ((if_neg (by omega)).trans (if_neg (ne_true_of_eq_false hfirst)))
  case again => exact fun d k i n s => execCdcUnstable_again
  case ends => exact fun d k i n s hdie hcode hdouble hfew => (DoubleSampled.exec ⟨hdie, hcode, hdouble⟩).trans (if_pos hfew)

/-! ### The MON commands -/

section
variable {c : Cmd}

/-- The class and the place in it of the point that MON_ATTACH names. -/
def attachClass (c : Cmd) : Nat := c.u16 2 / 4096

def attachPlace (c : Cmd) : Nat := c.u16 2 % 4096

/-- The gate of MON_ATTACH. -/
def attachGate (c : Cmd) (s : State) : Gate := {
  opcode := 0x1301, len := c.inl 20, legal := notBoot,
  fitted := pointCount (attachClass c) ≤ attachPlace c || pointFitted s (attachClass c) (attachPlace c),
  par := c.u8 0 < 32 && c.u8 1 < 4 && attachPlace c < pointCount (attachClass c) && 1 ≤ c.u32 8 && c.u32 8 < 2 ^ 31 && c.rsv 16 4 }

/-- The monitor of MON_ATTACH starts anew with its parameters. -/
def monAttached (c : Cmd) (s : State) : State :=
  monUpd (c.u8 0) (fun x => monReset s.tick.index { x with
    on := bit (c.u8 1) 0, signed := bit (c.u8 1) 1, point := c.u16 2, lo := c.u32 4, w := c.u32 8, limit := c.u32 12 }) s

theorem execMonAttach_eq : execMonAttach c s = runCmd (attachGate c s) c s (fun s => okReply (monAttached c s) (le 8 s.tick.index)) := rfl

/-- MON_ATTACH has parameters in range. -/
structure AttachAdmitted (c : Cmd) (s : State) : Prop where
  served : CmdServed 20 c s
  monitor : c.u8 0 < 32
  flags : c.u8 1 < 4
  point : attachPlace c < pointCount (attachClass c)
  fitted : pointFitted s (attachClass c) (attachPlace c) = true
  least : 1 ≤ c.u32 8
  most : c.u32 8 < 2 ^ 31
  rsv : c.rsv 16 4 = true

theorem AttachAdmitted.exec (h : AttachAdmitted c s) :
    execMonAttach c s = .next (answer 0x1301 c .ok (le 8 s.tick.index) (monAttached c s)) := by
  have hmost := h.most
  have hpasses : (attachGate c s).Passes c s :=
    Gate.OpenIn.passes ⟨rfl, rfl, rfl, rfl, rfl⟩ (admits_of_serving h.served.serving h.served.mailbox) (.of_inline h.served.params rfl)
      (by simp [attachGate, h.fitted]) (by simp only [attachGate, h.monitor, h.flags, h.point, h.least, h.rsv, hmost, decide_true, Bool.and_self])
  exact execMonAttach_eq.trans (hpasses.answers rfl rfl rfl)

theorem execMonAttach_not_fitted (h : CmdServed 20 c s) (hpoint : attachPlace c < pointCount (attachClass c))
    (habsent : pointFitted s (attachClass c) (attachPlace c) = false) : execMonAttach c s = .next (answer 0x1301 c .notFitted [] s) := by
  have hfitted : (attachGate c s).fitted = false := by simp [attachGate, habsent, hpoint]
  exact execMonAttach_eq.trans
    (runCmd_of_fail h.serving (Gate.fail_of_not_fitted (mailbox_of_ne_zero h.mailbox rfl) rfl (inl_of_inline h.params) hfitted) (by decide))

/-- The windows of the mask start anew. -/
def monsReset (c : Cmd) (s : State) : State :=
  ((List.range 32).filter (bit (c.u32 0))).foldl (fun t m => monUpd m (monReset s.tick.index) t) s

theorem execMonReset_resets (h : CmdServed 8 c s) (hmask : c.u32 0 ≠ 0) (hrsv : c.rsv 4 4 = true) :
    execMonReset c s = .next (answer 0x1302 c .ok (le 8 s.tick.index) (monsReset c s)) := by
  unfold execMonReset
  exact (h.passes (free := true) (by simp [hmask, hrsv])).answers rfl rfl rfl

/-- The windows that MON_READ names, and their CRC. -/
def monWindows (c : Cmd) (s : State) : Bytes := withCrc ((List.range (c.u8 1)).flatMap (fun i => monWindow (monGet s (c.u8 0 + i))))

/-- MON_READ has parameters in range. -/
structure MonReadAdmitted (c : Cmd) (s : State) : Prop where
  served : CmdServed 12 c s
  some : 1 ≤ c.u8 1
  most : c.u8 0 + c.u8 1 ≤ 32
  rsv : c.rsv 2 2 = true
  aligned : c.u64 4 % 64 = 0
  buffer : c.u64 4 ≠ 0

theorem MonReadAdmitted.exec (h : MonReadAdmitted c s) :
    execMonRead c s =
      .next (answer 0x1303 c .ok (le 4 (monWindows c s).length ++ le 8 s.tick.index) (putBuf (c.u64 4) (monWindows c s) s)) := by
  have hmost := h.most
  have hpar : (decide (1 ≤ c.u8 1) && decide (c.u8 1 ≤ 32) && decide (c.u8 0 + c.u8 1 ≤ 32) && c.rsv 2 2 && c.buf 4) = true := by
    simp [h.some, hmost, h.rsv, Cmd.buf, h.aligned, h.buffer, show c.u8 1 ≤ 32 by omega]
  unfold execMonRead
  exact (h.served.passes hpar).answers rfl rfl rfl

end

/-! ### Samples (R590) -/

section
variable {m : Fin 32} {v : Word32} {p : Nat}

/-- The sample of the monitor's point. -/
def samplePoint (m : Fin 32) (v : Word32) (s : State) : Nat :=
  pointValue s ((monGet s m.val).point / 4096) ((monGet s m.val).point % 4096) v

/-- The sample in the values of the monitor, and whether a count or the sum stood at its limit. -/
def sampleTaken (m : Fin 32) (v : Word32) (s : State) : MonVals × Bool :=
  monTake (monGet s m.val) (monVal (monGet s m.val) (samplePoint m v s))

/-- The monitor with the sample in its statistics, its hit marked or not, its excesses counted to `n`. -/
def monSampled (m : Fin 32) (v : Word32) (excess : Bool) (n : Nat) (first : Bool) (s : State) : State :=
  monUpd m.val (fun y => { y with
    vals := (sampleTaken m v s).1, stopped := y.stopped || (sampleTaken m v s).2, hit := y.hit || excess, excess := n,
    overWin := if first then some s.tick.index else y.overWin }) s

/-- The monitor is on, and its point fitted, in a state that samples. -/
structure MonSamples (m : Fin 32) (s : State) : Prop where
  on : (monGet s m.val).on = true
  state : notBoot s.dev.state = true
  fitted : pointFitted s ((monGet s m.val).point / 4096) ((monGet s m.val).point % 4096) = true

theorem execMonitorSample_nothing
    (h : (monGet s m.val).on = false ∨ notBoot s.dev.state = false ∨
      pointFitted s ((monGet s m.val).point / 4096) ((monGet s m.val).point % 4096) = false) : execMonitorSample m v s = .next s :=
  if_pos (by simpa using h)

/-- The event of a sample beyond the limit: the first in 1,024 ticks is raised with a count of 1, later ones are counted. -/
def monReported (m : Fin 32) (p n : Nat) (first : Bool) (s : State) : State := when first (raise 0 0x043 0x09 .notice m.val [p, n]) s

section
variable (h : MonSamples m s)
include h

theorem MonSamples.exec {excess first : Bool}
    (hexcess : decide (monVal (monGet s m.val) (monGet s m.val).limit < monVal (monGet s m.val) (samplePoint m v s)) = excess)
    (hfirst : (excess && firstIn (monGet s m.val).overWin s.tick.index) = first) :
    execMonitorSample m v s =
      .next (monReported m (samplePoint m v s)
        (if first then 1 else if excess then (monGet s m.val).excess + 1 else (monGet s m.val).excess) first
        (monSampled m v excess (if first then 1 else if excess then (monGet s m.val).excess + 1 else (monGet s m.val).excess) first s)) := by
  subst hexcess hfirst
  exact if_neg (by simp [h.on, h.state, h.fitted])

theorem MonSamples.exec_within (hwithin : monVal (monGet s m.val) (samplePoint m v s) ≤ monVal (monGet s m.val) (monGet s m.val).limit) :
    execMonitorSample m v s = .next (monUpd m.val (fun y => { y with
      vals := (sampleTaken m v s).1, stopped := y.stopped || (sampleTaken m v s).2, hit := y.hit, excess := (monGet s m.val).excess,
      overWin := y.overWin }) s) := by
  rw [h.exec (decide_eq_false (Int.not_lt.mpr hwithin)) (Bool.false_and _)]
  simp only [monReported, monSampled, Bool.or_false]
  rfl

variable (hbeyond : monVal (monGet s m.val) (monGet s m.val).limit < monVal (monGet s m.val) (samplePoint m v s))
include hbeyond

theorem MonSamples.exec_reports (hfirst : firstIn (monGet s m.val).overWin s.tick.index = true) :
    execMonitorSample m v s = .next (raise 0 0x043 0x09 .notice m.val [samplePoint m v s, 1] (monUpd m.val (fun y => { y with
      vals := (sampleTaken m v s).1, stopped := y.stopped || (sampleTaken m v s).2, hit := true, excess := 1,
      overWin := some s.tick.index }) s)) := by
  rw [h.exec (decide_eq_true hbeyond) ((Bool.true_and _).trans hfirst)]
  simp only [monReported, monSampled, Bool.or_true]
  rfl

theorem MonSamples.exec_counts (hfirst : firstIn (monGet s m.val).overWin s.tick.index = false) :
    execMonitorSample m v s = .next (monUpd m.val (fun y => { y with
      vals := (sampleTaken m v s).1, stopped := y.stopped || (sampleTaken m v s).2, hit := true, excess := (monGet s m.val).excess + 1,
      overWin := y.overWin }) s) := by
  rw [h.exec (decide_eq_true hbeyond) ((Bool.true_and _).trans hfirst)]
  simp only [monReported, monSampled, Bool.or_true]
  rfl

end

end

/-- Settles O14: the MON commands through their gates, a sample by whether it lies beyond the limit and is the first to do so; that MON_ATTACH
resets with enable 0 too is assumption 178. -/
theorem monitorsAttachSampleAndRead : Obligations.MonitorsAttachSampleAndRead := by
  unfold Obligations.MonitorsAttachSampleAndRead
  refine ⟨?attach, ?absent, ?reset, ?read, ?within, ?reports, ?counts, ?off⟩
  case attach =>
    exact fun c s hserving hinline hmb hmon hflags hpoint hfitted hleast hmost hrsv =>
      AttachAdmitted.exec ⟨⟨hserving, hmb, hinline⟩, hmon, hflags, hpoint, hfitted, hleast, hmost, hrsv⟩
  case absent => exact fun c s hserving hinline hmb => execMonAttach_not_fitted ⟨hserving, hmb, hinline⟩
  case reset => exact fun c s hserving hinline hmb => execMonReset_resets ⟨hserving, hmb, hinline⟩
  case read =>
    exact fun c s hserving hinline hmb hsome hmost hrsv haligned hbuf =>
      MonReadAdmitted.exec ⟨⟨hserving, hmb, hinline⟩, hsome, hmost, hrsv, haligned, hbuf⟩
  case within => exact fun m v s hon hstate hfitted => MonSamples.exec_within ⟨hon, hstate, hfitted⟩
  case reports => exact fun m v s hon hstate hfitted => MonSamples.exec_reports ⟨hon, hstate, hfitted⟩
  case counts => exact fun m v s hon hstate hfitted => MonSamples.exec_counts ⟨hon, hstate, hfitted⟩
  case off => exact fun m v s => execMonitorSample_nothing

end Sys2Proof.Machine
